-- ==== Sys2Proof/Word.lean ====
section
/-!
DEFINITION. Sys2Proof/Word.lean: the native word of the package (48 bits, R1), the signed serial difference of coordinates (R44)
and the plainest arithmetic on words.
-/
namespace Sys2Proof

/-- The native 48-bit word (R1): token data, tags, dues, coordinates and K48 registers. -/
abbrev W := BitVec 48

/-- The 64-bit slot of a register or memory access (R5). -/
abbrev W64 := BitVec 64

/-- R44: the signed serial difference of two 48-bit coordinates: times, angles and the mains phase (R4, R49, R50). -/
def sdiff (a b : W) : Int := (a - b).toInt

/-- R44: a is earlier than b; of two values half the range apart the lower unsigned one is the earlier. -/
def earlier (a b : W) : Bool :=
  if sdiff a b = -(2 ^ 47 : Int) then a.toNat < b.toNat else sdiff a b < 0

/-- R51: the least signed word. -/
def wMin : W := 0x800000000000

/-- R51: the greatest signed word. -/
def wMax : W := 0x7FFFFFFFFFFF

/-- Bits `lo + n - 1 .. lo` of a natural number. -/
def bits (v lo n : Nat) : Nat := v / 2 ^ lo % 2 ^ n

/-- The word with a number's low 48 bits. -/
def w48 (n : Nat) : W := BitVec.ofNat 48 n

/-- One as a number when a condition holds, else zero. -/
def b2n (b : Bool) : Nat := if b then 1 else 0

end Sys2Proof
end

