-- ==== Sys2Proof/Syntax.lean ====
section
/-!
DEFINITION. Sys2Proof/Syntax.lean: the commands of the package: one constructor of `Instr` for each row of the opcode table, and the records
that their operands are made of. A command that happens inside the package carries what the spec leaves to its surroundings: what a checker
meets, what arrives at a pin or a link, how a flash operation ends.
-/
namespace Sys2Proof

/-- An error in a spill record that a walk meets: the record's place in the walk, the word of the record, and 1 single-bit or 2
double-bit. -/
structure RecordErr where
  place : Nat
  word : Fin 4
  bits : Fin 3
  deriving DecidableEq, Repr

/-- Errors that a lookup meets: of the four ways (0 none, 1 single, 2 double) and of a record of the chain. -/
structure LookupErr where
  way0 : Fin 3
  way1 : Fin 3
  way2 : Fin 3
  way3 : Fin 3
  record : Option RecordErr
  deriving DecidableEq, Repr

/-- A control-store read that fails during a pass of the sequencer (R159, R160): the micro-address of a word with a parity error, whether
the error is in the dispatch entry instead, and whether the word is a bad microword inside a handler. -/
structure PassErr where
  parity : Option (BitVec 11)
  dispatch : Bool
  nested : Bool
  deriving DecidableEq, Repr

/-- Nothing fails. -/
def PassErr.good : PassErr := ⟨none, false, false⟩

/-- What the checkers meet during a firing: the queue slot (R117), the data words of spilled operands (R118), and the reads of the control
store (R159, R160). -/
structure FireErr where
  slot : Fin 3
  recL : Fin 3
  recR : Fin 3
  recG : Fin 3
  pass : PassErr
  deriving DecidableEq, Repr

/-- The type and the CRC-8 of a control block as they arrive with its content (R434). -/
structure CtlIn where
  type : BitVec 8
  crc : BitVec 8
  deriving DecidableEq, Repr

/-- Those of an ENUM block and its ENUM_T block (R435). -/
structure EnumIn where
  enum : CtlIn
  enumT : CtlIn
  deriving DecidableEq, Repr

/-- A GLOBAL message that arrives in control blocks of the chain port (R282, R435): from the upstream side or not, its payload, the types and
CRCs of G0 to G2, and whether the three came in one block time. For a STAGE of a migration, the FROM and TO that this package's Aperture has
learnt of: R282 gives them no place in the message (DESIGN CHOICE, log 172). -/
structure ChainGlobal where
  up : Bool
  payload : BitVec 144
  g0 : CtlIn
  g1 : CtlIn
  g2 : CtlIn
  together : Bool
  frm : Fin 128
  dst : Fin 128
  deriving DecidableEq, Repr

/-- What the check of a flit inside the package meets (R37): 0 good, 1 single-bit, 2 double-bit error, and the 160 bits received when it
fails. -/
structure FlitErr where
  check : Fin 3
  raw : BitVec 160
  deriving DecidableEq, Repr

/-- A router or gateway, 0–143, that a GLOBAL flit passes on the global plane, and what its check meets there (R37, R282). -/
structure GStop where
  node : Fin 144
  err : FlitErr
  deriving DecidableEq, Repr

/-- Where a GLOBAL command takes its message from (R282): the oldest one inside the package, with the stops of its way where a check meets
something and what the hub ring stop's check meets, or one that a neighbour sends. -/
inductive GlobalIn where
  | inside (way : List GStop) (hub : FlitErr)
  | chain (x : ChainGlobal)
  deriving DecidableEq, Repr

/-- A level on an input line (R210): the stamp of its leading edge in sixteenths of a tick, and how long it lasts, in sixteenths. -/
structure Pulse where
  stamp : BitVec 52
  width : Nat
  deriving DecidableEq, Repr

/-- A pass of a PE's sequencer (R154): the PE, and what its reads of the control store meet. -/
structure PePass where
  pe : Fin 16
  err : PassErr
  deriving DecidableEq, Repr

/-- The pool of a grant (R128), and what the reads of the control store meet in the pass with which the granted firing goes on. -/
structure PoolPass where
  pool : Fin 4
  err : PassErr
  deriving DecidableEq, Repr

/-- A bank operation: what the memory's checker meets, and what the reads of the bank conflict retry handler meet on one PE (R158, R159). -/
structure BankErr where
  mem : Fin 4
  retry : PePass
  deriving DecidableEq, Repr

/-- A read of a matching-store entry (R30): the entry, and what its check meets: 0 good, 1 single-bit, 2 double-bit error. -/
structure WayRead where
  entry : Fin 8192
  err : Fin 3
  deriving DecidableEq, Repr

/-- The outcome of a control store's rewrite (R161): whether every word reads back as written, and what the reads of the golden copy meet: 0
good, 1 single-bit, 2 double-bit error. -/
structure Rewrite where
  good : Bool
  ram : Fin 3
  deriving DecidableEq, Repr

/-- What travels beside a request or response and has no place in the layouts of R274 and R275: bits [63:48] of a 64-bit access (R27), and the
tag and due of the firing that made the request (R186, R294); in a bulk write `hi` belongs to the first word and `tag` holds bits [63:48] of
the next three (DESIGN CHOICE, log 153). -/
structure Side where
  hi : BitVec 16
  tag : W
  due : W
  deriving DecidableEq, Repr

/-- What the four lanes of a chain link carry in turn, as the neighbour sends it (R434): a data block of 64 bits, or an IDLE or ALIGN block, which
is a break in the stream of data blocks. -/
inductive LinkBlk where
  | data (v : BitVec 64)
  | gap
  deriving DecidableEq, Repr

/-- What arrives on a chain segment (R34, R434, R437): blocks of the link, and of the packet that they complete what travels beside it, the
class of its buffer and its urgency. -/
structure ChainFlit where
  blocks : List LinkBlk
  side : Side
  cls : Fin 9
  urg : Fin 16
  deriving DecidableEq, Repr

/-- Groups that a lane receives in a row (R240, R241): the stamp of the leading edge of the first one in sixteenths, its place among the
1,024-group blocks of R244 (block and group), the running disparity before it (true when positive), and the groups as they are sent, bit a
first (bit 9 is a). A frame may lie in one such run, together with the fill around it, or be spread over several. -/
structure FrameIn where
  stamp : BitVec 52
  block : Nat
  pos : Fin 1024
  rd : Bool
  groups : List (BitVec 10)
  deriving DecidableEq, Repr

/-- An access of a hub initiator (R274, R471): its number, its transaction, whether it is in supervisor mode, the device address, and
whether the access is 32 bits wide (R6). -/
structure HubAcc where
  init : Fin 16
  trans : Fin 128
  priv : Bool
  addr : BitVec 48
  half : Bool
  deriving DecidableEq, Repr
/-- What a core's checkers meet at an instruction (R311, R317): the outcome of the check of the fetched slot and of the slot that the
instruction reads or writes in control-core memory (0 good, 1 single-bit error, 2 double-bit error), and a register whose parity fails when it
is read. -/
structure CoreErr where
  fetch : Fin 3
  reg : Option (Fin 32)
  data : Fin 3
  deriving DecidableEq, Repr

/-- Nothing is wrong. -/
def CoreErr.good : CoreErr := ⟨0, none, 0⟩

/-- A pass of GCOL through the pipeline (R330, R353): what its checkers meet, and, for a GCOL that executes behind instructions which have not
retired, the mailbox that it names. -/
structure GcolPass where
  err : CoreErr
  ahead : Option (Fin 8)
  deriving DecidableEq, Repr

/-- A debug action at the supervisor pair (R366): a change of HALT_REQ, a STEP, a choice of SEL, or a write of SV_DBG_DATA. -/
inductive DbgAct where
  | halt (v : Bool)
  | step
  | select (sel : BitVec 6)
  | data (v : BitVec 48)
  deriving DecidableEq, Repr

/-- The registers of the endpoint's capabilities that R421 determines: MSI-X message control with its capability's header, Device Capabilities,
Link Capabilities, power management capabilities, and Advanced Error Reporting's uncorrectable status and control. -/
inductive CfgCap where
  | msix | device | link | power | aerStatus | aerControl
  deriving DecidableEq, Repr

/-- A PCI Express configuration request (R422): a dword read or written, a read of a capability's register, the MSI-X message control register's
Enable and Function Mask bits, a move between D0 and D3hot, or a request TLP that is malformed or a write that is poisoned (R427). -/
inductive CfgReq where
  | read (dw : Fin 1024)
  | write (dw : Fin 1024) (v : BitVec 32)
  | cap (c : CfgCap)
  | msix (enable fmask : Bool)
  | power (d3hot : Bool)
  | malformed
  | poisoned (dw : Fin 1024)
  deriving DecidableEq, Repr

/-- What a BAR2 read meets: nothing, a slot of capture memory with a double-bit error (R425), or its request TLP is malformed (R427). -/
inductive Bar2In where
  | good
  | slot (i : BitVec 22)
  | malformed
  deriving DecidableEq, Repr

/-- A BAR2 write: its offset, with data that is sound or poisoned, or a request TLP that is malformed (R425, R427). -/
inductive Bar2Wr where
  | write (off : BitVec 25)
  | poisoned (off : BitVec 25)
  | malformed
  deriving DecidableEq, Repr

/-- The single-ended pins that the device drives, and the output pairs (R398, R448). -/
inductive Pad where
  | ilkOut (k : Fin 8) | nFatal | nFlt
  | mpD (i : Fin 48) | mpFsel
  | aux (k : Fin 32)
  | xspiCs | xspiClk | xspiDq (i : Fin 8)
  | pmbScl | pmbSda | smbScl | smbSda | smbAlert
  | sltx (k : Fin 32)
  deriving DecidableEq, Repr

/-- What the JTAG port is told (R448): a code in the instruction register, a reset of the TAP (nTRST or Test-Logic-Reset), or an update of the
boundary register, as the drive of each pin, none for high impedance. -/
inductive JtagIn where
  | load (code : BitVec 8)
  | reset
  | boundary (cells : List (Pad × Option Bool))
  deriving DecidableEq, Repr

/-- What resets the endpoint (R427): nPERST low, a hot reset, a Function Level Reset, or a link that falls to Detect. -/
inductive EpReset where
  | perst | hot | flr | detect
  deriving DecidableEq, Repr

/-- What a regulator answers to a poll (R412): READ_VOUT, READ_IOUT, READ_TEMPERATURE_1 and STATUS_WORD. -/
structure PmbAns where
  vout : BitVec 16
  iout : BitVec 16
  temp : BitVec 16
  status : BitVec 16
  deriving DecidableEq, Repr

/-- What BIST finds in a bank: failing columns beyond those that fuses replace, and a failure that no column explains (R308). -/
structure BistFind where
  bank : Fin 2048
  columns : Nat
  unexplained : Bool
  deriving DecidableEq, Repr

/-- What the SFDP tables of a boot flash say (R399): the revision of JESD216 by its letter (0 none, 1 A, … 6 F), whether a parameter header names
the xSPI Profile 1.0 table and that table declares 8D-8D-8D operation, 4-byte addressing, the capacity in MiB, and whether it has uniform 4 KiB
or 64 KiB erase sectors. -/
structure FlashId where
  rev : Nat
  octal : Bool
  addr4 : Bool
  mib : Nat
  sectors : Bool
  deriving DecidableEq, Repr

/-- What a package meets while it boots (R396): its straps CHAIN_HEAD and CHAIN_LOOP, the check of the ROM and of MC RAM, what a flash that
answers says of itself (R399), whether the backup domain's integrity word is good (R456), which regulators answer VOUT_MODE with ULINEAR16,
BIST's findings in the banks, how many of the hub's memories end BIST offline and how many with soft repairs, and whether the
comparator self-test passes (R407). -/
structure BootIn where
  head : Bool
  tail : Bool
  rom : Bool
  flash : Option FlashId
  vbat : Bool
  linear : BitVec 8
  bist : List BistFind
  hubOff : BitVec 8
  hubSoft : BitVec 8
  cmp : Bool
  deriving DecidableEq, Repr

/-- The readings of the rail monitors that a tick brings: monitor and value in the layout of RAIL_MON (R454). -/
abbrev RailIn := List (Fin 8 × BitVec 16)

/-- How a program or erase of the flash ends: done, or failed with the bytes that then stand at the listed offsets of what was written
(R415, R417) (DESIGN CHOICE, log 15). -/
abbrev FlashOut := Option (List (Nat × BitVec 8))

/-- Who sends a register command: a hub initiator's number (R471), and whether it is in supervisor mode. -/
abbrev From := Fin 15 × Bool

/-- The commands (DESIGN CHOICE, log 138). -/
inductive Instr where
  /-- T_ADVANCE (R205): At each tick edge T advances by exactly one in every block of the package, by the slewed tick. `freqOk` the
  frequency error is below 0.01 ppm; `rails` the rail readings that the tick brings. -/
  | tAdvance (freqOk : Bool) (rails : RailIn)
  /-- T_LOAD (R206): A write to T_LOAD before enumeration sets T and the era at the next PPS edge or tick boundary. `who` the initiator
  and whether it is in supervisor mode; `t` T; `era` the era. -/
  | tLoad (who : From) (t : W) (era : BitVec 16)
  /-- PPS_EDGE (R207): A PPS edge is stamped, its phase error is written to PPS_MEAS and slewed out, and PPS_ALIGNED is updated. `frac`
  sixteenths past the tick; `rising` a rising edge. -/
  | ppsEdge (frac : Fin 16) (rising : Bool)
  /-- PPS_TIMEOUT (R207): After 2 s without a PPS edge, PPS_ALIGNED clears. -/
  | ppsTimeout
  /-- REF_LOSS (R204): Loss of REF10M_IN is declared after 2 µs without an edge, and the time base enters HOLDOVER. -/
  | refLoss
  /-- TIME (R208): A received TIME word is stamped and echoed, and its offset is filtered and slewed out toward CHAIN_LOCKED. `up` the
  upstream side; `word` the TIME word; `stamp` its stamp in sixteenths of a tick; `hold` the hold time; `blk` its type and CRC. -/
  | time (up : Bool) (word : W) (stamp : BitVec 52) (hold : BitVec 16) (blk : CtlIn)
  /-- TECHO (R438): A TECHO received gives the round trip and hence the one-way delay D of the link. `up` the upstream side; `sent` the
  stamp at which the TIME word was sent; `received` its stamp on arrival; `hold` the hold time; `blk` its type and CRC. -/
  | techo (up : Bool) (sent received : BitVec 52) (hold : BitVec 16) (blk : CtlIn)
  /-- CHAIN_TIME_LOSS (R209): When no TIME word arrives for 16 intervals, the package enters HOLDOVER and raises LENS_HOLDOVER. -/
  | chainTimeLoss
  /-- COUNT_EDGE (R211): An encoder or tachometer count edge is stamped, moves the count k and enters the coordinate's edge history. `src`
  the encoder, or 4 and 5 for the tachometers; `stamp` its stamp in sixteenths of a tick; `a` the level of A after the change; `b` the
  level of B; `width` how long the level lasts, in sixteenths of a tick. -/
  | countEdge (src : Fin 6) (stamp : BitVec 52) (a b : Bool) (width : Nat)
  /-- Z_EDGE (R212): A qualified Z edge references the encoder coordinate or counts an index error. `e` the encoder; `p` the pulse. -/
  | zEdge (e : Fin 4) (p : Pulse)
  /-- COORDINATE_STALL (R217): With no count edge for 2^(STALL+14) ticks, the coordinate is stopped and STOP is set. `n` the coordinate.
  -/
  | coordinateStall (n : Fin 4)
  /-- MAINS_EDGE (R219): A MAINS_IN cycle edge begins the next mains cycle, or is ignored as a glitch. `rising` a rising edge; `stamp` its
  stamp in sixteenths of a tick; `width` how long the level lasts, in sixteenths of a tick. -/
  | mainsEdge (rising : Bool) (stamp : BitVec 52) (width : Nat)
  /-- MAINS_HOLDOVER (R220): With no accepted mains edge for 30 ms, M enters holdover and LENS_MAINS_LOST is raised. -/
  | mainsHoldover
  /-- TRIGGER_CROSSING (R228): At a tick boundary an armed trigger's coordinate crosses its target, a token is created, and the target
  advances or the trigger disarms. `i` the trigger. -/
  | triggerCrossing (i : Fin 256)
  /-- GRID_POINT (R233): A_COORD crosses a resampler grid point, and the crossing instant and polyphase output are computed. `g` the
  group. -/
  | gridPoint (g : Fin 8)
  /-- RESAMPLER_TOKEN (R235): Once sample n0 + 16 is received, the grid point's output token is created and handed over. `ch` the channel.
  -/
  | resamplerToken (ch : Fin 256)
  /-- LENS_QUERY (R221): An ANGLE-AT or TIME-AT query at the Lens port is answered 32 control-core cycles later with a value and a bound
  word. -/
  | lensQuery
  /-- LANE_COMMA (R244): Commas received at one 10-bit phase move an input lane to BIT_LOCK, or a comma at another phase returns it to
  DOWN. `k` the lane; `phase` the bit phase; `at_` the stamp of its leading edge in sixteenths of a tick. -/
  | laneComma (k : Fin 32) (phase : Fin 10) (at_ : BitVec 52)
  /-- LANE_ALIGN (R244): ALIGN groups received move the input lane to ALIGNED. `k` the lane; `n` consecutive ALIGN groups; `at_` the stamp
  of its leading edge in sixteenths of a tick. -/
  | laneAlign (k : Fin 32) (n : Nat) (at_ : BitVec 52)
  /-- FRAME (R241): An input frame is received from its SOF and its slots, header and status are accepted in RUN. `k` the lane; `f` the
  groups received. -/
  | frame (k : Fin 32) (f : FrameIn)
  /-- LANE_SOF_TIMEOUT (R244): With no SOF within 2 × EXPECT groups, the lane returns to DOWN. `k` the lane; `at_` the stamp of
  the end of group 2 × EXPECT in sixteenths of a tick. -/
  | laneSofTimeout (k : Fin 32) (at_ : BitVec 52)
  /-- LANE_GRACE_EXPIRY (R245): 2^20 ticks after EN is set, a lane not in RUN enters lane fault. `k` the lane. -/
  | laneGraceExpiry (k : Fin 32)
  /-- FIFO_IDLE_FLUSH (R253): A partial word idle for IDLE cycles is pushed padded. `k` the packing FIFO. -/
  | fifoIdleFlush (k : Fin 96)
  /-- FIFO_WORD_READ (R257): A word reaching the head of an ingress FIFO is checked and unpacked into samples. `k` the lane; `err` the
  check of what is read: 0 good, 1 single-bit, 2 double-bit error. -/
  | fifoWordRead (k : Fin 32) (err : Fin 3)
  /-- DROP (R254): A write of PF_CMD.DROP discards the current packet of a packing FIFO. `who` the initiator and whether it is in
  supervisor mode; `k` the packing FIFO. -/
  | drop (who : From) (k : Fin 96)
  /-- OUTPUT_FRAME (R250): The frame accumulator reaches a group boundary and an output lane sends a frame carrying its registers as at
  the capture boundary. `k` the lane. -/
  | outputFrame (k : Fin 32)
  /-- FORCE_RELEASE (R266): At the boundary after a force's last condition clears, the register takes the safe code and then the values
  due at that boundary. `c` the channel. -/
  | forceRelease (c : Fin 256)
  /-- ILK_REL (R368): A supervisor write of ILK_REL releases the named trip latches unless a setting term meets it. `who` the initiator
  and whether it is in supervisor mode; `v` the value written. -/
  | ilkRel (who : From) (v : BitVec 8)
  /-- ILK_FORCE (R369): A supervisor write of ILK_FORCE sets or clears the FORCE term of the interlock outputs. `who` the initiator and
  whether it is in supervisor mode; `v` the value written. -/
  | ilkForce (who : From) (v : BitVec 8)
  /-- CH_FORCE (R370): A supervisor write of CH_FORCE forces or releases output channels at the next tick boundary. `who` the initiator
  and whether it is in supervisor mode; `i` the word of CH_FORCE; `v` the value written. -/
  | chForce (who : From) (i : Fin 8) (v : BitVec 32)
  /-- ILK_TEST (R264): A supervisor write of ILK_TEST arms a test sample for the named channel. `who` the initiator and whether it is in
  supervisor mode; `ch` the channel; `v` the value written. -/
  | ilkTest (who : From) (ch : Fin 256) (v : BitVec 24)
  /-- FLIT_RECEIVE (R37): A router receives a flit, checks and corrects it, and forwards, delivers or drops it. `seg` the segment; `cyc`
  the cycle count of the sending node; `rcyc` the cycle count of the receiving node; `ext` what a neighbour sends on an inbound chain
  segment; `err` the checks of the packet's flits, from its first on, as far as they meet something; `urgErr` an error in the urgency bits. -/
  | flitReceive (seg : Fin 49152) (cyc rcyc : Nat) (ext : Option ChainFlit) (err : List FlitErr) (urgErr : Bool)
  /-- INITIATOR_TIMEOUT (R281): An initiator's request timer expires and a response poisoned with ERR is synthesised. -/
  | initiatorTimeout
  /-- RD (R274): A system-class read request reaches its target and is answered with the value. `src` a hub initiator's own access, else
  the oldest request at its target; `err` what the memory's checker meets: 0 nothing, 1 a single-bit, 2 a double-bit error, 3 a presence
  state that cannot be read. -/
  | rd (src : Option HubAcc) (err : Fin 4)
  /-- WR (R274): A system-class write request reaches its target, which writes and answers DONE. `src` a hub initiator's own access, else
  the oldest request at its target; `v` the value written; `err` what the memory's checker meets: 0 nothing, 1 a single-bit, 2 a
  double-bit error, 3 a presence state that cannot be read. -/
  | wr (src : Option HubAcc) (v : BitVec 64) (err : Fin 4)
  /-- BWR (R274): A bulk write reaches its target, which writes the slots in address order and answers DONE. `err` what the memory's
  checker meets: 0 nothing, 1 a single-bit, 2 a double-bit error, 3 a presence state that cannot be read. -/
  | bwr (err : Fin 4)
  /-- OUTPUT (R93): An OUT or EMIT-AT output flit reaches its target, which applies the OUT or holds the EMIT-AT. -/
  | output
  /-- EMIT_AT_DUE (R92): A held EMIT-AT value takes effect when T reaches its due. -/
  | emitAtDue
  /-- OUTPUT_ROOM (R93): When a hold store or mailbox frees room, the target takes a waiting output flit. -/
  | outputRoom
  /-- RELEASE (R131): A release reaches the allocator that owns the granule and frees the block, or is refused with a fault. -/
  | release
  /-- ALLOC_GRANT (R128): An allocator grants its earliest-due waiting request the lowest free block of the pool. `r` the region; `p` the
  partition; `q` the pool. -/
  | allocGrant (r : Fin 32) (p : Fin 8) (q : PoolPass)
  /-- GLOBAL_ARRIVE (R283): An ARRIVE message combines a barrier arrival up the global plane. `m` where the
  message comes from. -/
  | globalArrive (m : GlobalIn)
  /-- GLOBAL_RELEASE (R283): A RELEASE message completes a barrier, setting DONE, clearing ARMED and raising BARRIER. `ext` a message that
  arrives from a neighbour. `err` the check of a flit inside the
  package: 0 good, 1 single-bit, 2 double-bit error. -/
  | globalRelease (m : GlobalIn)
  /-- GLOBAL_STAGE (R284): A STAGE message loads a scheduled operation into a unit, which acknowledges when ready. `ext` a message that
  arrives from a neighbour. `err` the check of a flit inside the
  package: 0 good, 1 single-bit, 2 double-bit error. -/
  | globalStage (m : GlobalIn)
  /-- GLOBAL_ACK (R284): An ACK message records a unit's readiness for a scheduled operation. `m` where the
  message comes from. -/
  | globalAck (m : GlobalIn)
  /-- GLOBAL_ABORT (R284): An ABORT message makes every unit discard its staging. `m` where the
  message comes from. -/
  | globalAbort (m : GlobalIn)
  /-- SCHEDULE_DEADLINE (R284): At T_s − 2,048, a missing acknowledgement makes the initiator send ABORT. -/
  | scheduleDeadline
  /-- SNAPSHOT (R285): At T_s a snapshot copies coordinates, counters, samples and stamps into the record at SNAP_BASE. -/
  | snapshot
  /-- WARM_RESET (R395): At T_s a warm reset returns most blocks to reset, sets every trip latch and runs boot steps 5–8 and 10. `b` what
  the package meets while it boots. -/
  | warmReset (b : BootIn)
  /-- MODE_COMMIT (R195): At T_c the epoch flips in every unit and the old epoch starts to drain. `p` the partition. -/
  | modeCommit (p : Fin 8)
  /-- MIGRATION_SWITCH (R197): At T_s route entries naming FROM are rewritten to TO, TO enters RUNNING and FROM enters MIGRATING. `p` the
  partition. -/
  | migrationSwitch (p : Fin 8)
  /-- BAR_ARM (R283): A write of ARM to BAR_CFG opens a barrier and clears its arrivals. `who` the initiator and whether it is in
  supervisor mode; `b` the barrier. -/
  | barArm (who : From) (b : Fin 16)
  /-- BAR_DISARM (R283): A write of DISARM closes a barrier without completion. `who` the initiator and whether it is in supervisor mode;
  `b` the barrier. -/
  | barDisarm (who : From) (b : Fin 16)
  /-- BAR_ARRIVE (R283): A core's write of BAR_ARRIVE records its arrival at a barrier, or sets STRAY. `who` the initiator and whether it
  is in supervisor mode; `b` the barrier. -/
  | barArrive (who : From) (b : Fin 16)
  /-- CLUSTER_QUIET (R283): A participating cluster becomes quiet and arrives at its barrier. `b` the barrier; `c` the cluster. -/
  | clusterQuiet (b : Fin 16) (c : Fin 128)
  /-- GSCHED_SNAPSHOT (R284): A GSCHED write of KIND 3 stages a snapshot at GSCHED_T. `who` the initiator and whether it is in supervisor
  mode; `system` system scope. -/
  | gschedSnapshot (who : From) (system : Bool)
  /-- GSCHED_WARM_RESET (R284): A GSCHED write of KIND 4 stages a warm reset at GSCHED_T. `who` the initiator and whether it is in
  supervisor mode; `system` system scope. -/
  | gschedWarmReset (who : From) (system : Bool)
  /-- TOKEN_ACCEPT (R96): An arrival lane accepts its lowest-slack candidate token and looks it up in the matching store. `c` the cluster;
  `pe` the PE; `err` the errors that the lookup meets. -/
  | tokenAccept (c : Fin 128) (pe : Fin 16) (err : LookupErr)
  /-- SPILL_RETRY (R119): A held lane inserts its token once a spill record is released. `c` the cluster; `pe` the PE. -/
  | spillRetry (c : Fin 128) (pe : Fin 16)
  /-- INTEGER_OP (R72): An integer operation fires and emits its result to its destinations. `c` the cluster; `pe` the PE; `err` what the
  checkers meet. -/
  | integerOp (c : Fin 128) (pe : Fin 16) (err : FireErr)
  /-- COMPARISON (R74): A comparison fires and emits 1 or 0. `c` the cluster; `pe` the PE; `err` what the checkers meet. -/
  | comparison (c : Fin 128) (pe : Fin 16) (err : FireErr)
  /-- Q47_MULTIPLY (R76): QMUL or QMULS fires and emits the rounded Q47 product. `c` the cluster; `pe` the PE; `err` what the checkers
  meet. -/
  | q47Multiply (c : Fin 128) (pe : Fin 16) (err : FireErr)
  /-- FLOAT_OP (R76): An L48F arithmetic operation fires and emits its once-rounded result. `c` the cluster; `pe` the PE; `err` what the
  checkers meet. -/
  | floatOp (c : Fin 128) (pe : Fin 16) (err : FireErr)
  /-- CONVERSION (R77): A conversion between integer, Q47 and L48F fires and emits its result. `c` the cluster; `pe` the PE; `err` what
  the checkers meet. -/
  | conversion (c : Fin 128) (pe : Fin 16) (err : FireErr)
  /-- COMPLEX_OP (R78): A packed complex Q23 operation fires and emits its clamped result. `c` the cluster; `pe` the PE; `err` what the
  checkers meet. -/
  | complexOp (c : Fin 128) (pe : Fin 16) (err : FireErr)
  /-- SWITCH (R79): SWITCH fires and sends L to DST0 or DST1 according to G. `c` the cluster; `pe` the PE; `err` what the checkers meet.
  -/
  | switch (c : Fin 128) (pe : Fin 16) (err : FireErr)
  /-- MERGE (R80): MERGE fires once for each arriving token and passes it on. `c` the cluster; `pe` the PE; `err` what the checkers meet.
  -/
  | merge (c : Fin 128) (pe : Fin 16) (err : FireErr)
  /-- GATE (R79): GATE fires and passes L to every destination when G is true. `c` the cluster; `pe` the PE; `err` what the checkers meet.
  -/
  | gate (c : Fin 128) (pe : Fin 16) (err : FireErr)
  /-- SEL (R79): SEL fires and emits L or R according to G. `c` the cluster; `pe` the PE; `err` what the checkers meet. -/
  | sel (c : Fin 128) (pe : Fin 16) (err : FireErr)
  /-- CONST (R79): CONST fires and emits K. `c` the cluster; `pe` the PE; `err` what the checkers meet. -/
  | const (c : Fin 128) (pe : Fin 16) (err : FireErr)
  /-- SINK (R79): SINK fires, consumes its input and emits nothing. `c` the cluster; `pe` the PE; `err` what the checkers meet. -/
  | sink (c : Fin 128) (pe : Fin 16) (err : FireErr)
  /-- PRISM (R81): PRISM fires and sends L to up to six destinations. `c` the cluster; `pe` the PE; `err` what the checkers meet. -/
  | prism (c : Fin 128) (pe : Fin 16) (err : FireErr)
  /-- LINK (R84): LINK fires and emits a link word built from K and its input's context. `c` the cluster; `pe` the PE; `err` what the
  checkers meet. -/
  | link (c : Fin 128) (pe : Fin 16) (err : FireErr)
  /-- ALLOC (R83): ALLOC fires, sends a request to its region's allocator and waits in the wait list for a grant. `c` the cluster; `pe`
  the PE; `err` what the checkers meet. -/
  | alloc (c : Fin 128) (pe : Fin 16) (err : FireErr)
  /-- FREE (R131): FREE fires and sends a release for the block that holds its context. `c` the cluster; `pe` the PE; `err` what the
  checkers meet. -/
  | free (c : Fin 128) (pe : Fin 16) (err : FireErr)
  /-- NEXT (R83): NEXT fires and passes L on under the next context of its block. `c` the cluster; `pe` the PE; `err` what the checkers
  meet. -/
  | next (c : Fin 128) (pe : Fin 16) (err : FireErr)
  /-- RETURN (R84): RETURN fires and sends L to the tag that its link word names. `c` the cluster; `pe` the PE; `err` what the checkers
  meet. -/
  | return_ (c : Fin 128) (pe : Fin 16) (err : FireErr)
  /-- LOAD (R85): LOAD fires and requests a bank word's value. `c` the cluster; `pe` the PE; `err` what the checkers meet. -/
  | load (c : Fin 128) (pe : Fin 16) (err : FireErr)
  /-- STORE (R85): STORE fires and requests a bank write that leaves presence unchanged. `c` the cluster; `pe` the PE; `err` what the
  checkers meet. -/
  | store (c : Fin 128) (pe : Fin 16) (err : FireErr)
  /-- READ (R87): READ fires and requests a bank word, and is deferred while the word is empty. `c` the cluster; `pe` the PE; `err` what
  the checkers meet. -/
  | read (c : Fin 128) (pe : Fin 16) (err : FireErr)
  /-- WRITE (R87): WRITE fires and requests a bank write that sets the word present. `c` the cluster; `pe` the PE; `err` what the checkers
  meet. -/
  | write (c : Fin 128) (pe : Fin 16) (err : FireErr)
  /-- ICLR (R87): ICLR fires and requests that a bank word be set empty. `c` the cluster; `pe` the PE; `err` what the checkers meet. -/
  | iclr (c : Fin 128) (pe : Fin 16) (err : FireErr)
  /-- FETCH_ADD (R85): FETCH-ADD fires and requests an atomic add that returns the old value. `c` the cluster; `pe` the PE; `err` what the
  checkers meet. -/
  | fetchAdd (c : Fin 128) (pe : Fin 16) (err : FireErr)
  /-- SWAP (R85): SWAP fires and requests an atomic exchange that returns the old value. `c` the cluster; `pe` the PE; `err` what the
  checkers meet. -/
  | swap (c : Fin 128) (pe : Fin 16) (err : FireErr)
  /-- NOW (R88): NOW fires and emits the T read at first execute. `c` the cluster; `pe` the PE; `err` what the checkers meet. -/
  | now (c : Fin 128) (pe : Fin 16) (err : FireErr)
  /-- DUE (R88): DUE fires and emits its own output due. `c` the cluster; `pe` the PE; `err` what the checkers meet. -/
  | due (c : Fin 128) (pe : Fin 16) (err : FireErr)
  /-- TIGHTEN (R88): TIGHTEN fires and passes L on with R joining the due minimum. `c` the cluster; `pe` the PE; `err` what the checkers
  meet. -/
  | tighten (c : Fin 128) (pe : Fin 16) (err : FireErr)
  /-- ANGLE_AT (R89): ANGLE-AT fires and sends a coordinate query to Lens. `c` the cluster; `pe` the PE; `err` what the checkers meet. -/
  | angleAt (c : Fin 128) (pe : Fin 16) (err : FireErr)
  /-- TIME_AT (R90): TIME-AT fires and sends a crossing-time query to Lens. `c` the cluster; `pe` the PE; `err` what the checkers meet. -/
  | timeAt (c : Fin 128) (pe : Fin 16) (err : FireErr)
  /-- OUT (R92): OUT fires and sends an output flit that takes effect on arrival. `c` the cluster; `pe` the PE; `err` what the checkers
  meet. -/
  | out (c : Fin 128) (pe : Fin 16) (err : FireErr)
  /-- EMIT_AT (R92): EMIT-AT fires and sends an output flit to be held until its due. `c` the cluster; `pe` the PE; `err` what the
  checkers meet. -/
  | emitAt (c : Fin 128) (pe : Fin 16) (err : FireErr)
  /-- USER_OPERATION (R152): A user opcode fires and runs its microcode routine from the user region. `c` the cluster; `pe` the PE; `err`
  what the checkers meet. -/
  | userOperation (c : Fin 128) (pe : Fin 16) (err : FireErr)
  /-- RESPONSE (R154): A response reaches its PE and the parked firing resumes at the next microword. `c` the cluster; `p` the pass of the
  PE. -/
  | response (c : Fin 128) (p : PePass)
  /-- DEFERRED_ANSWER (R154): A deferred READ's answer reaches its PE and re-enters the routine at RESUME. `c` the cluster; `p` the pass of
  the PE. -/
  | deferredAnswer (c : Fin 128) (p : PePass)
  /-- BANK_OPERATION (R290): A queued or directly presented operation issues at a bank, or is refused. `b` the bank (cluster × 16 + bank);
  `direct` the best direct presentation, else the oldest queued operation; `err` what the memory's checker meets: 0 nothing, 1 a
  single-bit, 2 a double-bit error, 3 a presence state that cannot be read. -/
  | bankOperation (b : Fin 2048) (direct : Bool) (err : BankErr)
  /-- DEFERRED_READ_ANSWER (R295): After a WRITE makes a word present, the bank answers one deferred READ per cycle in deferral order. `b`
  the bank (cluster × 16 + bank). -/
  | deferredReadAnswer (b : Fin 2048)
  /-- SCRUB (R299): A scrub request reads the next word on a free read port and corrects single-bit errors. `b` the bank (cluster × 16 +
  bank); `err` the check of what is read: 0 good, 1 single-bit, 2 double-bit error. -/
  | scrub (b : Fin 2048) (err : Fin 3)
  /-- CORRECTED_WRITEBACK (R298): A corrected word is written back in the next cycle with a free write port. `b` the bank (cluster × 16 +
  bank). -/
  | correctedWriteback (b : Fin 2048)
  /-- BANK_OWN (R302): A write to BANK_OWN starts a handover of the bank to a new owner. `init` the initiator; `b` the bank (cluster × 16
  + bank); `owner` OWNER; `clr` CLR. -/
  | bankOwn (init : Fin 15) (b : Fin 2048) (owner : BitVec 4) (clr : Bool)
  /-- HANDOVER_COMPLETE (R302): Queued operations finish, the bank initialises if CLR was set, and OWNER takes the new value. `b` the bank
  (cluster × 16 + bank). -/
  | handoverComplete (b : Fin 2048)
  /-- BANK_PWR (R305): A write to BANK_PWR starts a move of the bank between ON, RETENTION and OFF. `b` the bank (cluster × 16 + bank);
  `st` STATE. -/
  | bankPwr (b : Fin 2048) (st : BitVec 2)
  /-- POWER_MOVE_COMPLETE (R305): A bank power move completes and CURRENT reports the new state. `b` the bank (cluster × 16 + bank). -/
  | powerMoveComplete (b : Fin 2048)
  /-- TAKE_OFFLINE (R309): The MC's write of TAKE_OFFLINE takes a bank offline. `init` the initiator; `b` the bank (cluster × 16 + bank).
  -/
  | takeOffline (init : Fin 15) (b : Fin 2048)
  /-- MATCH_DEBUG_READ (R30): A read of slot offset 0 of a matching-store entry copies the entry into the reader's holding register.
  `init` the initiator; `c` the cluster; `r` the read of the entry. -/
  | matchDebugRead (init : Fin 16) (c : Fin 128) (r : WayRead)
  /-- DEADLOCK_EVALUATION (R138): At each window boundary the detector may declare a deadlock for a partition. `p` the partition. -/
  | deadlockEvaluation (p : Fin 8)
  /-- RECLAIM_SWEEP_END (R141): The sweep ends, filters are entered, the pause ends and the reclaim notice is sent. `p` the partition. -/
  | reclaimSweepEnd (p : Fin 8)
  /-- FILTER_EXPIRY (R141): A reclaim filter entry expires and its block returns to its pool. `p` the partition. -/
  | filterExpiry (p : Fin 8)
  /-- CONTROL_STORE_RELOAD (R161): The MC's rewrite of a cluster's control store completes, and the PEs restart or the cluster is
  quarantined. `c` the cluster; `r` the outcome of the rewrite. -/
  | controlStoreReload (c : Fin 128) (r : Rewrite)
  /-- CLAIM (R167): The CLAIM command moves an unowned cluster to LOADING for the partition. -/
  | claim
  /-- ADMIT (R178): The ADMIT command verifies a certificate and, on PASS, writes the partition's configuration. `loadOk` microcode that
  is written reads back right. -/
  | admitGraph (loadOk : Rewrite)
  /-- COMMIT (R180): At T_go the partition's clusters enter RUNNING and its sources begin to inject. `p` the partition. -/
  | commit (p : Fin 8)
  /-- WITHDRAW (R168): The WITHDRAW command stops the partition and releases its clusters. -/
  | withdraw
  /-- WITHDRAW_COMPLETE (R168): Once every cluster is UNOWNED, the partition's configuration and charges are cleared and it enters FREE.
  `p` the partition. -/
  | withdrawComplete (p : Fin 8)
  /-- CLUSTER_EMPTIED (R120): A cluster released to UNOWNED finishes emptying its stores. `c` the cluster. -/
  | clusterEmptied (c : Fin 128)
  /-- STAGE (R193): The STAGE command stages a mode change for commit at T_c. -/
  | stage
  /-- MODE_DRAINED (R195): OLD_LIVE reaches 0, DONE is set and MODE_DONE is raised. `p` the partition. -/
  | modeDrained (p : Fin 8)
  /-- MODE_SWEEP (R195): DRAIN ticks pass before the old epoch drains, and old-epoch work is removed. `p` the partition. -/
  | modeSweep (p : Fin 8)
  /-- MODE_DISCARD_END (R195): The discard period after a sweep ends, and MODE_DONE is raised. `p` the partition. -/
  | modeDiscardEnd (p : Fin 8)
  /-- MIGRATE (R196): The MIGRATE command verifies a placement and begins copying FROM into TO. -/
  | migrate
  /-- MIGRATION_COPY_DONE (R197): The copy ends, and the switch tick T_s is staged. `p` the partition; `loadOk` microcode that is written
  reads back right. -/
  | migrationCopyDone (p : Fin 8) (loadOk : Rewrite)
  /-- MIGRATION_DRAINED (R199): At a boundary with DRAIN at 0, FROM moves to UNOWNED and MIG_DONE is raised. `p` the partition. -/
  | migrationDrained (p : Fin 8)
  /-- GUARANTEE_RESTORE (R188): A SUSPENDED partition returns to GUARANTEED once one chain bound has passed after its reload. `p` the
  partition. -/
  | guaranteeRestore (p : Fin 8)
  /-- LEDGER_REEXAMINE (R190): After a loss of capacity Aperture revokes, halts and re-checks guarantees until the rest fit. -/
  | ledgerReexamine
  /-- LOST_ACK (R201): A write of PART_STAT.ACK clears LOST. `who` the initiator and whether it is in supervisor mode; `p` the partition.
  -/
  | lostAck (who : From) (p : Fin 8)
  /-- ALU (R321): A K48 ALU-group instruction computes rd from ra and rb as the graph opcode in fn does. `k` the core, 8 the supervisor;
  `e` what the core's checkers meet. -/
  | alu (k : Fin 9) (e : CoreErr)
  /-- IMMEDIATE (R322): ADDI, ANDI, ORI, XORI, SLTI, SLTIU or an immediate shift computes rd. `k` the core, 8 the supervisor; `e` what the
  core's checkers meet. -/
  | immediate (k : Fin 9) (e : CoreErr)
  /-- LDK (R322): LDK loads a sign-filled 16-bit chunk into rd. `k` the core, 8 the supervisor; `e` what the core's checkers meet. -/
  | ldk (k : Fin 9) (e : CoreErr)
  /-- INK (R322): INK inserts a 16-bit chunk into rd. `k` the core, 8 the supervisor; `e` what the core's checkers meet. -/
  | ink (k : Fin 9) (e : CoreErr)
  /-- XRK (R322): XRK inverts bits of one chunk of rd. `k` the core, 8 the supervisor; `e` what the core's checkers meet. -/
  | xrk (k : Fin 9) (e : CoreErr)
  /-- LD (R324): A K48 load reads memory at ea into rd. `k` the core, 8 the supervisor; `e` what the core's checkers meet. -/
  | ld (k : Fin 9) (e : CoreErr)
  /-- ST (R324): A K48 store writes rs to memory at ea, posted beyond control-core memory. `k` the core, 8 the supervisor; `e` what the
  core's checkers meet. -/
  | st (k : Fin 9) (e : CoreErr)
  /-- POSTED_STORE_ERROR (R316): An error response to a posted store makes the core take an imprecise DATA trap. `k` the core, 8 the
  supervisor. -/
  | postedStoreError (k : Fin 9)
  /-- LR (R326): LR loads a word and takes a reservation on its slot. `k` the core, 8 the supervisor; `e` what the core's checkers meet.
  -/
  | lr (k : Fin 9) (e : CoreErr)
  /-- SC (R326): SC stores when the reservation holds, reports success or failure, and invalidates the reservation. `k` the core, 8 the
  supervisor; `e` what the core's checkers meet. -/
  | sc (k : Fin 9) (e : CoreErr)
  /-- TAS (R325): TAS atomically reads a word and writes 1 to it. `k` the core, 8 the supervisor; `e` what the core's checkers meet. -/
  | tas (k : Fin 9) (e : CoreErr)
  /-- BRANCH (R327): A conditional branch compares ra with rb and jumps when the condition holds. `k` the core, 8 the supervisor; `e` what
  the core's checkers meet. -/
  | branch (k : Fin 9) (e : CoreErr)
  /-- J (R327): J jumps to a PC-relative target. `k` the core, 8 the supervisor; `e` what the core's checkers meet. -/
  | j (k : Fin 9) (e : CoreErr)
  /-- CALL (R327): CALL jumps and pushes the return address. `k` the core, 8 the supervisor; `e` what the core's checkers meet. -/
  | call (k : Fin 9) (e : CoreErr)
  /-- JR (R327): JR jumps to ra. `k` the core, 8 the supervisor; `e` what the core's checkers meet. -/
  | jr (k : Fin 9) (e : CoreErr)
  /-- CALLR (R327): CALLR jumps to ra and pushes the return address. `k` the core, 8 the supervisor; `e` what the core's checkers meet. -/
  | callr (k : Fin 9) (e : CoreErr)
  /-- RET (R328): RET pops the return stack and jumps to the popped address. `k` the core, 8 the supervisor; `e` what the core's checkers
  meet. -/
  | ret (k : Fin 9) (e : CoreErr)
  /-- RSPUSH (R328): RSPUSH pushes ra onto the return stack. `k` the core, 8 the supervisor; `e` what the core's checkers meet. -/
  | rspush (k : Fin 9) (e : CoreErr)
  /-- RSPOP (R328): RSPOP pops the return stack into rd. `k` the core, 8 the supervisor; `e` what the core's checkers meet. -/
  | rspop (k : Fin 9) (e : CoreErr)
  /-- FP (R323): An FP-group instruction computes an L48F result or compare in STATUS.RM. `k` the core, 8 the supervisor; `e` what the
  core's checkers meet. -/
  | fp (k : Fin 9) (e : CoreErr)
  /-- FMA (R323): FMA or FMS computes ra × rb ± rc with one rounding. `k` the core, 8 the supervisor; `e` what the core's checkers meet.
  -/
  | fma (k : Fin 9) (e : CoreErr)
  /-- CPX (R323): A CPX-group instruction computes a packed complex result. `k` the core, 8 the supervisor; `e` what the core's checkers
  meet. -/
  | cpx (k : Fin 9) (e : CoreErr)
  /-- FENCE (R316): FENCE retires once every earlier store has been performed and answered. `k` the core, 8 the supervisor; `e` what the
  core's checkers meet. -/
  | fence (k : Fin 9) (e : CoreErr)
  /-- SRR (R313): SRR reads a system register into rd. `k` the core, 8 the supervisor; `e` what the core's checkers meet. -/
  | srr (k : Fin 9) (e : CoreErr)
  /-- SRW (R313): SRW writes a system register and serialises. `k` the core, 8 the supervisor; `e` what the core's checkers meet. -/
  | srw (k : Fin 9) (e : CoreErr)
  /-- TRAPI (R329): TRAPI takes the TRAPI trap with the value of rb. `k` the core, 8 the supervisor; `e` what the core's checkers meet. -/
  | trapi (k : Fin 9) (e : CoreErr)
  /-- TRET (R332): TRET restores STATUS and PC from ESTATUS and EPC. `k` the core, 8 the supervisor; `e` what the core's checkers meet. -/
  | tret (k : Fin 9) (e : CoreErr)
  /-- HALT (R329): HALT stops the core at retirement and sets HALTED. `k` the core, 8 the supervisor; `e` what the core's checkers meet.
  -/
  | halt (k : Fin 9) (e : CoreErr)
  /-- WAIT (R341): WAIT idles the core until an interrupt is pending. `k` the core, 8 the supervisor; `e` what the core's checkers meet.
  -/
  | wait (k : Fin 9) (e : CoreErr)
  /-- GINJ (R351): GINJ checks its token and places it in the core's injection queue, or takes the GPORT trap. `k` the core, 8 the
  supervisor; `e` what the core's checkers meet. -/
  | ginj (k : Fin 9) (e : CoreErr)
  /-- GINJ_FULL_TIMEOUT (R351): A GINJ held by a full injection queue for WAIT ticks takes the GPORT trap with reason FULL. `k` the core.
  -/
  | ginjFullTimeout (k : Fin 8)
  /-- GINJ_HANDOVER (R352): The injection queue hands its head token to the hub ring stop once injection credit allows. `c` the core. -/
  | ginjHandover (c : Fin 8)
  /-- GCOL (R353): GCOL removes the head entry of a mailbox and writes its data, due and tag at retirement. `k` the core, 8 the
  supervisor; `e` what the core's checkers meet. -/
  | gcol (k : Fin 9) (e : GcolPass)
  /-- INTR (R341): A core with an offer pending takes the INTR trap at a retirement boundary with IE = 1 and TL = 0. `k` the core. -/
  | intr (k : Fin 8)
  /-- CC_RUN (R336): A write of CC_CTL.RUN starts a core, or stops it at the next retirement boundary. `who` the initiator and whether it
  is in supervisor mode; `k` the core; `run` RUN. -/
  | ccRun (who : From) (k : Fin 8) (run : Bool)
  /-- CC_RESET (R336): A write of CC_CTL.RESET resets a core's registers and sets PC to CC_BOOT. `who` the initiator and whether it is in
  supervisor mode; `k` the core. -/
  | ccReset (who : From) (k : Fin 8)
  /-- HALT_REQ (R336): A change of HALT_REQ halts a core for debug at the next retirement boundary, or resumes it. `who` the initiator and
  whether it is in supervisor mode; `k` the core; `v` the value. -/
  | haltReq (who : From) (k : Fin 8) (v : Bool)
  /-- STEP (R336): A write of STEP to a debug-halted core retires one instruction or enters one trap. `who` the initiator and whether it
  is in supervisor mode; `k` the core. -/
  | step (who : From) (k : Fin 8)
  /-- CREATE (R339): THR_CFG.OP CREATE moves a FREE slot to READY. `who` the initiator and whether it is in supervisor mode; `i` the
  thread slot. -/
  | create (who : From) (i : Fin 256)
  /-- WAKE (R339): THR_CFG.OP WAKE moves a BLOCKED slot to READY. `who` the initiator and whether it is in supervisor mode; `i` the thread
  slot. -/
  | wake (who : From) (i : Fin 256)
  /-- KILL (R339): THR_CFG.OP KILL frees a slot that is not RUNNING. `who` the initiator and whether it is in supervisor mode; `i` the
  thread slot. -/
  | kill (who : From) (i : Fin 256)
  /-- YIELD (R339): SCHED_OP YIELD moves the writing core's slot to READY. `who` the initiator and whether it is in supervisor mode; `c`
  the core. -/
  | yield (who : From) (c : Fin 8)
  /-- BLOCK (R345): SCHED_OP BLOCK moves the writing core's slot to BLOCKED, or to READY when its wake condition holds. `who` the
  initiator and whether it is in supervisor mode; `c` the core. -/
  | block (who : From) (c : Fin 8)
  /-- EXIT (R339): SCHED_OP EXIT frees the writing core's slot. `who` the initiator and whether it is in supervisor mode; `c` the core. -/
  | exit (who : From) (c : Fin 8)
  /-- SCHED_CLAIM (R342): A read of SCHED_CLAIM takes the core's standing offer and moves the slots. `who` the initiator and whether it is
  in supervisor mode; `trans` the transaction; `c` the core. -/
  | schedClaim (who : From) (trans : Fin 128) (c : Fin 8)
  /-- SLOT_WAKE (R345): A BLOCKED slot whose wake condition holds becomes READY. `i` the thread slot. -/
  | slotWake (i : Fin 256)
  /-- RAISE (R344): A write of EV_CFG.RAISE raises an event source as hardware would. `who` the initiator and whether it is in supervisor
  mode; `n` the event source. -/
  | raise (who : From) (n : Fin 512)
  /-- DOORBELL (R346): A write to DOORBELL raises the named doorbell sources. `who` the initiator and whether it is in supervisor mode;
  `v` the value written. -/
  | doorbell (who : From) (v : BitVec 32)
  /-- TIMER (R346): A timer reaches its compare value, raises its source and disarms or advances. `k` the timer. -/
  | timer (k : Fin 16)
  /-- LOCK_ACQUIRE (R347): A read of LK acquires the lock when it is free and reports its owner. `who` the initiator and whether it is in
  supervisor mode; `trans` the transaction; `k` the lock. -/
  | lockAcquire (who : From) (trans : Fin 128) (k : Fin 64)
  /-- LOCK_RELEASE (R348): A write of RELEASE frees the lock when the writer owns it, or sets BADREL. `who` the initiator and whether it
  is in supervisor mode; `k` the lock. -/
  | lockRelease (who : From) (k : Fin 64)
  /-- LOCK_FORCE (R349): A write of FORCE frees the lock whoever holds it. `who` the initiator and whether it is in supervisor mode; `k`
  the lock. -/
  | lockForce (who : From) (k : Fin 64)
  /-- SV_RUN (R364): A write of SV_CTL.RUN = 1 in HELD with CMP_OK starts the lockstep pair. `who` the initiator and whether it is in
  supervisor mode. -/
  | svRun (who : From)
  /-- SV_RESET (R364): A write of SV_CTL.RESET puts the pair in RESET, and HELD follows. `who` the initiator and whether it is in
  supervisor mode. -/
  | svReset (who : From)
  /-- CMP_TEST (R364): A write of CMP_TEST in HELD runs the comparator self-test and sets CMP_OK or CMP_FAIL. `who` the initiator and
  whether it is in supervisor mode; `ok` it succeeds. -/
  | cmpTest (who : From) (ok : Bool)
  /-- LOCKSTEP_MISCOMPARE (R362): A miscompare or comparator disagreement stops the pair, fills SV_MISC and takes the fatal path. `group`
  the output groups that differ; `a` verdict A; `b` verdict B; `wire` a verdict pair reads 0b00 or 0b11. -/
  | lockstepMiscompare (group : BitVec 4) (a b wire : Bool)
  /-- SV_DEBUG_ACTION (R366): A debug action reaches the main core and is replayed to the checker two cycles later. `who` the initiator
  and whether it is in supervisor mode; `a` the action. -/
  | svDebugAction (who : From) (a : DbgAct)
  /-- KICK (R371): A supervisor write of SV_WDOG.KICK restarts the watchdog period. `who` the initiator and whether it is in supervisor
  mode. -/
  | kick (who : From)
  /-- WATCHDOG_EXPIRY (R371): The watchdog expires, every trip latch is set and a fault is raised. -/
  | watchdogExpiry
  /-- SV_TIMER (R372): The supervisor timer reaches SV_TMR and sets TMR. -/
  | svTimer
  /-- SV_INTR (R372): An enabled pending SV_EVT bit makes the supervisor take the INTR trap. -/
  | svIntr
  /-- SV_MBX_IN_WRITE (R373): The MC or the host writes SV_MBX_IN, which sets IN_FULL and MBX. `who` the initiator and whether it is in
  supervisor mode; `v` the value written. -/
  | svMbxInWrite (who : From) (v : W)
  /-- SV_MBX_IN_READ (R373): The supervisor's read of SV_MBX_IN clears IN_FULL. `who` the initiator and whether it is in supervisor mode;
  `trans` the transaction. -/
  | svMbxInRead (who : From) (trans : Fin 128)
  /-- SV_MBX_OUT_WRITE (R373): The supervisor writes SV_MBX_OUT, which sets OUT_FULL. `who` the initiator and whether it is in supervisor
  mode; `v` the value written. -/
  | svMbxOutWrite (who : From) (v : W)
  /-- SV_MBX_OUT_READ (R373): A read of SV_MBX_OUT by the MC or the host clears OUT_FULL. `who` the initiator and whether it is in
  supervisor mode; `trans` the transaction. -/
  | svMbxOutRead (who : From) (trans : Fin 128)
  /-- FAULT_EVENT (R382): A fault event reaches the root, is counted, escalated and recorded, and drives its actions. -/
  | faultEvent
  /-- FATAL_RECORD_WRITE (R391): The fatal record is written to VBAT memory with VALID written last. -/
  | fatalRecordWrite
  /-- WIRE_FAULT (R379): A complementary pair reads 0b00 or 0b11 on two samples and a wire fault is recorded. `kind` the fault kind; `l`
  the location; `wrong` reads wrong, else right again. -/
  | wireFault (kind : Fin 64) (l : BitVec 16) (wrong : Bool)
  /-- ACK (R384): A write of FK_STAT.ACK acknowledges a kind and resets its counts and classes. `who` the initiator and whether it is in
  supervisor mode; `k` the fault kind. -/
  | ack (who : From) (k : Fin 64)
  /-- POP (R385): A write of FLOG_STAT.POP removes the head record of the fault log. `who` the initiator and whether it is in supervisor
  mode. -/
  | pop (who : From)
  /-- ARM (R393): A write of INJ_CTL.ARM arms one fault injection at the selected checker. `who` the initiator and whether it is in
  supervisor mode; `pair` PAIR; `mask` MASK; `cycles` CYCLES. -/
  | arm (who : From) (pair : Bool) (mask : BitVec 10) (cycles : BitVec 16)
  /-- RECORD_CLEAR (R392): A write of FR_CTL.CLR sets the fatal record's VALID to 0. `who` the initiator and whether it is in supervisor
  mode. -/
  | recordClear (who : From)
  /-- COLD_RESET (R395): Power-on-reset release or nRESET starts boot from step 1. `b` what the package meets while it boots. -/
  | coldReset (b : BootIn)
  /-- BOOT_TIMEOUT (R397): BOOT_TMO expires before RUN and step 10 fails. -/
  | bootTimeout
  /-- UPD_BEGIN (R417): UPD_BEGIN erases a slot and opens an update. `fail` how the flash's operation ends. -/
  | updBegin (fail : FlashOut)
  /-- UPD_CHUNK (R417): UPD_CHUNK programs bytes of MC_BUF into the open slot. `fail` how the flash's operation ends. -/
  | updChunk (fail : FlashOut)
  /-- UPD_VERIFY (R417): UPD_VERIFY checks the open slot under R403 and marks it verified. -/
  | updVerify
  /-- UPD_ACTIVATE (R417): UPD_ACTIVATE writes the boot record naming the verified slot as pending. `ok` it succeeds. -/
  | updActivate (ok : Bool)
  /-- UPD_CONFIRM (R418): UPD_CONFIRM makes the booted slot active and programs SVN and revoke bits. `ok` it succeeds; `whole` power stays
  on past item 2. -/
  | updConfirm (ok whole : Bool)
  /-- UPD_ABORT (R417): UPD_ABORT closes the open update. -/
  | updAbort
  /-- BANK_OFFLINE (R417): The MC command takes a bank offline and logs BANK_OFFLINE. -/
  | bankOffline
  /-- LOAD_SECTION (R410): LOAD_SECTION loads a GRAPH or CERT section of the image in step 10. -/
  | loadSection
  /-- RUN (R410): The RUN command ends boot, logs RUN, raises MC_BOOT_DONE and opens BAR0. `fail` how the flash's operation ends. -/
  | run (fail : FlashOut)
  /-- CLUSTER_OFFLINE (R417): CLUSTER_OFFLINE moves a quarantined or unowned cluster to OFFLINE. -/
  | clusterOffline
  /-- CLUSTER_RELEASE (R417): CLUSTER_RELEASE empties and reloads a quarantined cluster and returns it to UNOWNED. `good` it passes its
  check. -/
  | clusterRelease (good : Rewrite)
  /-- SENSOR_READ (R411): Every 1 ms the MC reads the 40 thermal sensors into TS. -/
  | sensorRead
  /-- PMBUS_POLL (R412): Every 10 ms the MC reads each regulator's status, voltage, current and temperature. `answers` the regulators that
  answered with right PEC, and what. -/
  | pmbusPoll (answers : List (Fin 8 × PmbAns))
  /-- PMB_ALERT (R412): A falling edge of nPMB_ALERT makes the MC read the regulators at once. `answers` the regulators that answered with
  right PEC, and what. -/
  | pmbAlert (answers : List (Fin 8 × PmbAns))
  /-- WRITE_WORD (R413): The SMBus Write Word command sets the window pointer. `addr` the SMBus address; `code` the code; `ptr` the
  pointer; `pec` the PEC: absent, or right or wrong. -/
  | writeWord (addr : BitVec 7) (code : BitVec 8) (ptr : BitVec 16) (pec : Option Bool)
  /-- BLOCK_READ (R413): The SMBus Block Read command returns 32 bytes of the window and advances the pointer. `addr` the SMBus address;
  `code` the code. -/
  | blockRead (addr : BitVec 7) (code : BitVec 8)
  /-- LOG_PAGE_WRITE (R415): The MC writes a page of event-log entries to the flash ring. `fail` how the flash's operation ends. -/
  | logPageWrite (fail : FlashOut)
  /-- WEAR_MINUTE (R416): Every minute the MC updates the wear ledger's counts and CRC. -/
  | wearMinute
  /-- POWER_OFF (R453): Main power is removed, ending the device's operation and the fatal state. -/
  | powerOff
  /-- RAIL_FAULT (R454): A rail reading outside its window for 2 µs raises a fatal RAIL fault. `m` the rail monitor. -/
  | railFault (m : Fin 8)
  /-- SENSOR_CONVERSION (R461): A thermal sensor conversion ends and the hardware applies throttle, shed, re-examination or trip. `n` the
  sensor; `r` the reading, none when the conversion failed. -/
  | sensorConversion (n : Fin 40) (r : Option (BitVec 16))
  /-- THROTTLE_RELEASE (R462): After 1 ms below 97 °C throttle releases. `f` the facet. -/
  | throttleRelease (f : Fin 8)
  /-- SHED_STEP (R463): A shedding step halts the partitions of the next criticality that own clusters in the facet. `f` the facet. -/
  | shedStep (f : Fin 8)
  /-- POWER_ESTIMATE (R459): Every 1 µs the hub estimates package power and asserts or releases the power cap. `watts` the estimate. -/
  | powerEstimate (watts : BitVec 12)
  /-- CLOCK_RAMP_STEP (R23): A facet's fabric clock takes one 100 MHz step toward its target, floor or cap. `f` the facet. -/
  | clockRampStep (f : Fin 8)
  /-- VF_SET_WRITE (R457): A write of VF_SET changes VF_CAP and the MC applies the new VDD_F at the regulator. `who` the initiator and
  whether it is in supervisor mode; `v` the value written. -/
  | vfSetWrite (who : From) (v : BitVec 5)
  /-- BAR0_READ (R424): A host BAR0 read is served as an access of initiator 11 or completes with Completer Abort. `off` the offset in
  BAR0; `size` bytes; `malformed` a malformed TLP; `err` what the memory's checker meets: 0 nothing, 1 a single-bit, 2 a double-bit error,
  3 a presence state that cannot be read. -/
  | bar0Read (off : BitVec 26) (size : Fin 4097) (malformed : Bool) (err : Fin 4)
  /-- BAR0_WRITE (R424): A host BAR0 write is posted and takes effect, or is discarded and logged. `off` the offset in BAR0; `size` bytes;
  `v` the value written; `malformed` a malformed TLP; `poisoned` poisoned data; `err` what the memory's checker meets: 0 nothing, 1 a
  single-bit, 2 a double-bit error, 3 a presence state that cannot be read. -/
  | bar0Write (off : BitVec 26) (size : Fin 4097) (v : BitVec 64) (malformed poisoned : Bool) (err : Fin 4)
  /-- BAR2_READ (R425): A host BAR2 read returns capture memory. `off` the offset in BAR2; `len` bytes; `bad` what it meets. -/
  | bar2Read (off : BitVec 25) (len : Fin 4097) (bad : Bar2In)
  /-- BAR2_WRITE (R425): A host BAR2 write is discarded and reported as Unsupported Request. `q` the write. -/
  | bar2Write (q : Bar2Wr)
  /-- CONFIG_REQUEST (R422): A PCI Express configuration request is answered, or retried before step 2 ends. `q` the request. -/
  | configRequest (q : CfgReq)
  /-- MSIX_SEND (R426): A pending MSI-X message is sent once nothing withholds it. `n` the vector. -/
  | msixSend (n : Fin 512)
  /-- ENDPOINT_RESET (R427): nPERST, a hot reset, an FLR or a fall to Detect resets the endpoint alone. `r` its cause. -/
  | endpointReset (r : EpReset)
  /-- CAPTURE_RECORD (R431): Once the ring has room, the engine writes a packet's record and advances WP. `k` the capture stream; `errs`
  the checks of the words read. -/
  | captureRecord (k : Fin 64) (errs : List (Fin 3))
  /-- CAPTURE_SHORT_CLOSE (R429): A graph packet idle for CLOSE_T ticks is closed short. `k` the capture stream. -/
  | captureShortClose (k : Fin 64)
  /-- CAP_RP (R451): A write of CAP_RP moves a stream's read point, or sets BADRP. `who` the initiator and whether it is in supervisor
  mode; `k` the capture stream; `v` the value written. -/
  | capRp (who : From) (k : Fin 64) (v : BitVec 25)
  /-- CAP_ENABLE (R451): A write of CAP_CFG.EN = 1 enables a stream and sets WP and RP to 0. `who` the initiator and whether it is in
  supervisor mode; `k` the capture stream. -/
  | capEnable (who : From) (k : Fin 64)
  /-- ENUM (R439): A received ENUM numbers the package and loads T, or is answered with DONE in RUN. `number` the sender's number; `era`
  the era; `t` T; `blk` the types and CRCs. -/
  | enum (number : Fin 16) (era : BitVec 16) (t : W) (blk : EnumIn)
  /-- DONE (R408): A received DONE sets CHAIN_LEN as it passes upstream. `len` the chain length; `blk` its type and CRC. -/
  | done (len : BitVec 5) (blk : CtlIn)
  /-- FATAL (R440): A received FATAL block records PEER_FATAL and is forwarded to the other side. `up` the upstream side; `pkg` the failed
  package; `blk` its type and CRC. -/
  | fatal (up : Bool) (pkg : Fin 16) (blk : CtlIn)
  /-- CREDIT (R437): A received CREDIT block adds freed buffers to the sender's credit. `up` the upstream side; `content` the content of
  the block; `blk` its type and CRC. -/
  | credit (up : Bool) (content : W) (blk : CtlIn)
  /-- ALIGN (R433): ALIGN blocks received on all four lanes move a chain direction to UP. `up` the upstream side; `good` it passes its
  check. -/
  | align (up good : Bool)
  /-- CHAIN_DOWN (R440): A chain direction leaves UP and its held and in-flight flits are dropped. `up` the upstream side. -/
  | chainDown (up : Bool)
  /-- MIRROR_FLIP (R443): At FLIP_T the Mirror Port presents the write frame and advances FLIP_T. -/
  | mirrorFlip
  /-- MIRROR_READ (R441): A controller presents MP_A and the port drives the register of the presented frame. `a` MP_A; `oe` MP_nOE is
  low. -/
  | mirrorRead (a : Fin 1024) (oe : Bool)
  /-- AUX_SWITCH (R447): At the tick boundary after an AUX_CFG write, the pin changes function. `k` the pin. -/
  | auxSwitch (k : Fin 32)
  /-- EVIN (R446): An edge on an EVIN pin raises its event source. `k` the pin; `level` the new level outside; `early` before the first
  sample of a function that took the pin at this boundary. -/
  | evin (k : Fin 32) (level early : Bool)
  /-- JTAG_INSTRUCTION (R448): A JTAG instruction is loaded, or BYPASS in its place. `code` what the port is told; `nreset` nRESET is low. -/
  | jtagInstruction (code : JtagIn) (nreset : Bool)
  /-- DEBUG (R448): An update of the JTAG DEBUG register performs one access as initiator 14. `v` the DEBUG register; `err` what the
  memory's checker meets: 0 nothing, 1 a single-bit, 2 a double-bit error, 3 a presence state that cannot be read. -/
  | debug (v : BitVec 112) (err : Fin 4)
  /-- HWM_CLEAR (R120): A write of MATCH_HWM.CLR sets the high-water marks to the current values. `c` the cluster. -/
  | hwmClear (c : Fin 128)
  /-- LATE_CLEAR (R121): A write of LATE_CNT.CLR sets COUNT to 0. `c` the cluster. -/
  | lateClear (c : Fin 128)
  /-- LWM_CLEAR (R126): A write of POOL_STAT.CLR sets LWM to the current FREE. `r` the region; `p` the partition; `q` the pool. -/
  | lwmClear (r : Fin 32) (p : Fin 8) (q : Fin 4)
  /-- MAX_CLEAR (R419): A write of TS.CLR sets MAX to VALUE. `who` the initiator and whether it is in supervisor mode; `n` the sensor. -/
  | maxClear (who : From) (n : Fin 40)
  /-- REGISTER_WRITE (R7): A write to a register with no behaviour of its own updates its fields under the access codes and lock rules.
  `who` the initiator and whether it is in supervisor mode; `half` a 32-bit access; `a` the local address; `v` the value written. -/
  | registerWrite (who : From) (half : Bool) (a : BitVec 44) (v : BitVec 64)
  /-- REFERENCE_RETURN (R204): When a lost REF10M_IN or chain-time source returns, the time base leaves HOLDOVER and re-enters ACQUIRE or
  CHAIN_ACQUIRE. `chain` chain time, else REF10M_IN. -/
  | referenceReturn (chain : Bool)
  /-- LANE_ENABLE (R250): A supervisor write of LANE_CFG.EN enables or disables a sample lane, starting the input search or the output
  alignment run and setting every output register to its safe code. `who` the initiator and whether it is in supervisor mode; `k` the
  lane; `en` EN. -/
  | laneEnable (who : From) (k : Fin 32) (en : Bool)
  /-- BLOCK_LOCK (R433): After 64 consecutive valid sync headers on every lane, a chain direction moves from DOWN to LOCK and then waits
  for ALIGN in DESKEW. `up` the upstream side; `lanes` the lanes with block lock. -/
  | blockLock (up : Bool) (lanes : BitVec 4)
  /-- LINK_STATE_CHANGE (R427): The PCI Express link trains to L0, enters or leaves L1 or recovery, PCIE_STAT.LINK changes and PCIE_LINK
  is raised. `link` the link state; `speed` SPEED; `width` lanes; `expected` nPERST is low or a hot reset was requested. -/
  | linkStateChange (link speed : Fin 5) (width : Fin 9) (expected : Bool)
  /-- COORD_CFG (R218): A write of COORD_CFG that changes SRC or LINES restarts the coordinate at k = 0 with REFD = 0 and an empty
  history, which is a jump that moves trigger targets without a crossing. `who` the initiator and whether it is in supervisor mode; `n`
  the coordinate; `v` the value written. -/
  | coordCfg (who : From) (n : Fin 4) (v : BitVec 34)
  /-- LET_DATA (R213): An access to LET_DATA reads or writes the addressed line-error entry and, with AUTOINC set, advances
  LET_ADDR.INDEX. `who` the initiator and whether it is in supervisor mode; `trans` the transaction; `v` the value written, none for a
  read. -/
  | letData (who : From) (trans : Fin 128) (v : Option (BitVec 24))
  /-- RSC_DATA (R234): An access to RSC_DATA reads or writes the addressed resampler coefficient and, with AUTOINC set, advances
  RSC_ADDR.INDEX. `who` the initiator and whether it is in supervisor mode; `trans` the transaction; `v` the value written, none for a
  read. -/
  | rscData (who : From) (trans : Fin 128) (v : Option (BitVec 24))
  /-- CAP_DISABLE (R429): A write that clears CAP_CFG.EN closes the stream's open graph packet short and stops the stream. `who` the
  initiator and whether it is in supervisor mode; `k` the capture stream. -/
  | capDisable (who : From) (k : Fin 64)
  /-- ALERT_RESPONSE_ADDRESS (R413): A read at the SMBus Alert Response Address is answered by the MC's SMBus target while nSMB_ALERT is
  asserted. -/
  | alertResponseAddress
  deriving DecidableEq, Repr

end Sys2Proof
end

