-- ==== Sys2Proof/Decode.lean ====
section
/-!
DEFINITION. Sys2Proof/Decode.lean: the command that a word spells. No row of the opcode table gives bits: the package takes no command as a word, and
the words that it does decode (graph instructions, microwords, K48 instructions, flits) are the business of Machine/.
-/
namespace Sys2Proof

/-- No word spells a command, since no row of the table has bits (DESIGN CHOICE, log 3). -/
def decodeTableWord (_nbits _w : Nat) : Option Instr := none

end Sys2Proof
end

