-- ==== Sys2Proof/Machine/Flags.lean ====
section
/-!
DEFINITION. Sys2Proof/Machine/Flags.lean: the sticky arithmetic bits (R51, R57, R58) and every integer, Q47 and packed-complex
computation of the PEs and the K48 cores, each with the bits it sets. L48F is in Float.lean.
-/
namespace Sys2Proof.Machine

/-- The seven sticky bits in the order of ARITH_STAT [6:0]: V, DZ, FNV, FDZ, FOF, FUF, FNX. -/
abbrev Stk := BitVec 7

def Stk.none : Stk := 0
def Stk.v : Stk := 1
def Stk.dz : Stk := 2
def Stk.fnv : Stk := 4
def Stk.fdz : Stk := 8
def Stk.fof : Stk := 16
def Stk.fuf : Stk := 32
def Stk.fnx : Stk := 64

/-- A result and the sticky bits it sets. -/
abbrev AR := W × Stk

/-- A result that sets no sticky bit. -/
def plain (w : W) : AR := (w, Stk.none)

/-- R51: the exact result lies in the signed range. -/
def fitsS (x : Int) : Bool := -(2 ^ 47 : Int) ≤ x ∧ x < (2 ^ 47 : Int)

/-- R51: the exact result lies in the unsigned range. -/
def fitsU (x : Int) : Bool := 0 ≤ x ∧ x < (2 ^ 48 : Int)

/-- R51: the wrapping form of a signed operation. -/
def wrapS (x : Int) : AR := (BitVec.ofInt 48 x, if fitsS x then Stk.none else Stk.v)

/-- R51: the saturating form of a signed operation. -/
def satS (x : Int) : AR :=
  if fitsS x then plain (BitVec.ofInt 48 x) else (if x < 0 then wMin else wMax, Stk.v)

/-- R51: the saturating form of an unsigned operation. -/
def satU (x : Int) : AR :=
  if fitsU x then plain (BitVec.ofInt 48 x) else (if x < 0 then 0 else BitVec.allOnes 48, Stk.v)

/-- R51, R73: signed division, quotient rounded toward zero; the two edges. -/
def divS (sat : Bool) (a b : W) : AR :=
  if b = 0 then (if a.toInt < 0 then wMin else wMax, Stk.dz)
  else if a = wMin ∧ b = BitVec.allOnes 48 then (if sat then wMax else wMin, Stk.v)
  else plain (BitVec.ofInt 48 (a.toInt.tdiv b.toInt))

/-- R51: unsigned division. -/
def divU (a b : W) : AR :=
  if b = 0 then (BitVec.allOnes 48, Stk.dz) else plain (w48 (a.toNat / b.toNat))

/-- R51, R73: signed remainder, with the sign of the dividend. -/
def remS (a b : W) : AR :=
  if b = 0 then (a, Stk.dz)
  else if a = wMin ∧ b = BitVec.allOnes 48 then (0, Stk.v)
  else plain (BitVec.ofInt 48 (a.toInt.tmod b.toInt))

/-- R51: unsigned remainder. -/
def remU (a b : W) : AR :=
  if b = 0 then (a, Stk.dz) else plain (w48 (a.toNat % b.toNat))

/-- R51: the shift amount is the low 8 bits of the operand. -/
def shAmt (b : W) : Nat := b.toNat % 256

/-- R51: rotate amounts are taken modulo 48. -/
def rotAmt (b : W) : Nat := b.toNat % 256 % 48

/-- The number of leading zero bits; 48 for zero (R72). -/
def clz (a : W) : Nat := if a = 0 then 48 else 47 - a.toNat.log2

/-- The number of one bits among the low `n` bits. -/
def popN : Nat → Nat → Nat
  | 0, _ => 0
  | n + 1, v => v % 2 + popN n (v / 2)

/-- R72, R73: the integer operations by opcode 0x010–0x033; `none` for another opcode. -/
def intOp (opc : Nat) (l r : W) : Option AR :=
  match opc with
  | 0x010 => some (wrapS (l.toInt + r.toInt))
  | 0x011 => some (satS (l.toInt + r.toInt))
  | 0x012 => some (satU (l.toNat + r.toNat))
  | 0x013 => some (wrapS (l.toInt - r.toInt))
  | 0x014 => some (satS (l.toInt - r.toInt))
  | 0x015 => some (satU ((l.toNat : Int) - r.toNat))
  | 0x016 => some (wrapS (-l.toInt))
  | 0x017 => some (satS (-l.toInt))
  | 0x018 => some (wrapS l.toInt.natAbs)
  | 0x019 => some (satS l.toInt.natAbs)
  | 0x01A => some (wrapS (l.toInt * r.toInt))
  | 0x01B => some (satS (l.toInt * r.toInt))
  | 0x01C => some (satU (l.toNat * r.toNat))
  | 0x01D => some (plain (BitVec.ofInt 48 ((l.toInt * r.toInt) / 2 ^ 48)))
  | 0x01E => some (plain (w48 (l.toNat * r.toNat / 2 ^ 48)))
  | 0x01F => some (divS false l r)
  | 0x020 => some (divS true l r)
  | 0x021 => some (divU l r)
  | 0x022 => some (remS l r)
  | 0x023 => some (remU l r)
  | 0x024 => some (plain (l &&& r))
  | 0x025 => some (plain (l ||| r))
  | 0x026 => some (plain (l ^^^ r))
  | 0x027 => some (plain (l &&& ~~~r))
  | 0x028 => some (plain (~~~l))
  | 0x029 => some (plain (if shAmt r < 48 then l <<< shAmt r else 0))
  | 0x02A => some (plain (if shAmt r < 48 then l >>> shAmt r else 0))
  | 0x02B => some (plain (if shAmt r < 48 then l.sshiftRight (shAmt r) else l.sshiftRight 47))
  | 0x02C => some (plain (l.rotateLeft (rotAmt r)))
  | 0x02D => some (plain (l.rotateRight (rotAmt r)))
  | 0x02E => some (plain (if l.toInt ≤ r.toInt then l else r))
  | 0x02F => some (plain (if r.toInt ≤ l.toInt then l else r))
  | 0x030 => some (plain (if l.toNat ≤ r.toNat then l else r))
  | 0x031 => some (plain (if r.toNat ≤ l.toNat then l else r))
  | 0x032 => some (plain (w48 (clz l)))
  | 0x033 => some (plain (w48 (popN 48 l.toNat)))
  | _ => none

/-- The word 1 or 0 of a comparison (R74). -/
def truth (b : Bool) : W := if b then 1 else 0

/-- R74: the integer and coordinate comparisons, opcodes 0x040–0x047. -/
def cmpOp (opc : Nat) (l r : W) : Option AR :=
  match opc with
  | 0x040 => some (plain (truth (l = r)))
  | 0x041 => some (plain (truth (l ≠ r)))
  | 0x042 => some (plain (truth (l.toInt < r.toInt)))
  | 0x043 => some (plain (truth (l.toInt ≤ r.toInt)))
  | 0x044 => some (plain (truth (l.toNat < r.toNat)))
  | 0x045 => some (plain (truth (l.toNat ≤ r.toNat)))
  | 0x046 => some (plain (truth (earlier l r)))
  | 0x047 => some (plain (truth (earlier l r ∨ l = r)))
  | _ => none

/-- Divide by 2^k, to nearest with ties to even (R52, R54). -/
def rneShift (p : Int) (k : Nat) : Int :=
  let q := p / 2 ^ k
  let rem := p % 2 ^ k
  if 2 * rem > 2 ^ k ∨ (2 * rem = 2 ^ k ∧ q % 2 = 1) then q + 1 else q

/-- R52: the Q47 multiplies, opcodes 0x050 and 0x051. -/
def q47Op (opc : Nat) (l r : W) : Option AR :=
  match opc with
  | 0x050 => some (wrapS (rneShift (l.toInt * r.toInt) 47))
  | 0x051 => some (satS (rneShift (l.toInt * r.toInt) 47))
  | _ => none

/-- R53: the real part of a packed complex value. -/
def cRe (a : W) : Int := (a.extractLsb' 24 24).toInt

/-- R53: the imaginary part of a packed complex value. -/
def cIm (a : W) : Int := (a.extractLsb' 0 24).toInt

/-- R54: clamp a part to Q0.23; the flag says whether it clamped. -/
def clampC (x : Int) : Int × Bool :=
  if x < -(2 ^ 23 : Int) then (-(2 ^ 23 : Int), true)
  else if x ≥ (2 ^ 23 : Int) then (2 ^ 23 - 1, true) else (x, false)

/-- R54: pack two rounded parts, each clamped on its own; V when either clamps. -/
def packC (re im : Int) : AR :=
  let a := clampC re
  let b := clampC im
  ((BitVec.ofInt 24 a.1) ++ (BitVec.ofInt 24 b.1), if a.2 || b.2 then Stk.v else Stk.none)

/-- R78: the packed-complex operations, opcodes 0x080–0x088. -/
def cpxOp (opc : Nat) (l r : W) : Option AR :=
  match opc with
  | 0x080 => some (packC (cRe l + cRe r) (cIm l + cIm r))
  | 0x081 => some (packC (cRe l - cRe r) (cIm l - cIm r))
  | 0x082 => some (packC (rneShift (cRe l * cRe r - cIm l * cIm r) 23)
      (rneShift (cRe l * cIm r + cIm l * cRe r) 23))
  | 0x083 => some (packC (cRe l) (-cIm l))
  | 0x084 => some (satS (2 * (cRe l * cRe l + cIm l * cIm l)))
  | 0x085 => some (packC (rneShift (cRe l * r.toInt) 47) (rneShift (cIm l * r.toInt) 47))
  | 0x086 => some (packC (rneShift l.toInt 24) (rneShift r.toInt 24))
  | 0x087 => some (plain (BitVec.ofInt 48 (cRe l * 2 ^ 24)))
  | 0x088 => some (plain (BitVec.ofInt 48 (cIm l * 2 ^ 24)))
  | _ => none

end Sys2Proof.Machine
end

