-- ==== Sys2Proof/Machine/Float.lean ====
section
/-!
DEFINITION. Sys2Proof/Machine/Float.lean: L48F (R55–R57): every operation computes its exact result as an integer significand times a
power of two and rounds it once. Used by the PEs (R76, R77) and the K48 cores (R323).
-/
namespace Sys2Proof.Machine

/-- The value of an L48F word: a finite value is (−1)^s · m · 2^e. -/
inductive FVal where
  | fin (s : Bool) (m : Nat) (e : Int)
  | inf (s : Bool)
  | nan (quiet : Bool)
  deriving DecidableEq, Repr

/-- R55: read a word as L48F. -/
def fUnpack (w : W) : FVal :=
  let s := w.getLsbD 47
  let e := bits w.toNat 36 11
  let f := bits w.toNat 0 36
  if e = 2047 then
    if f = 0 then .inf s else .nan (f ≥ 2 ^ 35)
  else if e = 0 then .fin s f (-1058)
  else .fin s (2 ^ 36 + f) ((e : Int) - 1059)

/-- R55: the word of a sign, a biased exponent and a fraction. -/
def fWord (s : Bool) (e f : Nat) : W := w48 (b2n s * 2 ^ 47 + e * 2 ^ 36 + f)

def fInf (s : Bool) : W := fWord s 2047 0
def fZero (s : Bool) : W := fWord s 0 0
def fMaxNorm (s : Bool) : W := fWord s 2046 (2 ^ 36 - 1)
def fNaN : W := 0x7FF800000000

/-- The magnitude m shifted right by k and rounded in mode rm for sign s (R56). -/
def roundShift (rm : Nat) (s : Bool) (m k : Nat) : Nat :=
  let q := m >>> k
  let rem := m % 2 ^ k
  let up :=
    if rm = 0 then 2 * rem > 2 ^ k || (2 * rem = 2 ^ k && q % 2 = 1)
    else if rm = 1 then false
    else if rm = 2 then rem ≠ 0 && !s
    else rem ≠ 0 && s
  if up then q + 1 else q

/-- R57: the result of an overflow in mode rm. -/
def fOverflow (rm : Nat) (s : Bool) : AR :=
  let big :=
    if rm = 0 then fInf s
    else if rm = 1 then fMaxNorm s
    else if rm = 2 then (if s then fMaxNorm true else fInf false)
    else (if s then fInf true else fMaxNorm false)
  (big, Stk.fof ||| Stk.fnx)

/-- Shift left by k when k is not negative, else right with rounding. -/
def roundTo (rm : Nat) (s : Bool) (m : Nat) (k : Int) : Nat :=
  if k ≤ 0 then m <<< (-k).toNat else roundShift rm s m k.toNat

/-- R56, R57: round the exact value (−1)^s · m · 2^e once to L48F, with overflow, underflow (tiny after rounding) and inexact. -/
def fRound (rm : Nat) (s : Bool) (m : Nat) (e : Int) : AR :=
  if m = 0 then plain (fZero s)
  else
    let msb : Int := e + m.log2
    let q0 : Int := msb - 36
    let q : Int := if q0 < -1058 then -1058 else q0
    let n := roundTo rm s m (q - e)
    let inexact := decide (q - e > 0) && m % 2 ^ (q - e).toNat ≠ 0
    let nx := if inexact then Stk.fnx else Stk.none
    -- the same value rounded with an unbounded exponent range, for the tininess test
    let n0 := roundTo rm s m (q0 - e)
    let msb0 : Int := q0 + n0.log2
    let tiny := decide (msb0 < -1022)
    let uf := if tiny && inexact then Stk.fuf else Stk.none
    if n ≥ 2 ^ 37 then
      -- the rounding carried into the next binade: n = 2^37
      let be : Int := q + 1 + 36 + 1023
      if be > 2046 then fOverflow rm s else (fWord s be.toNat 0, nx ||| uf)
    else if n ≥ 2 ^ 36 then
      let be : Int := q + 36 + 1023
      if be > 2046 then fOverflow rm s else (fWord s be.toNat (n - 2 ^ 36), nx ||| uf)
    else (fWord s 0 n, nx ||| uf)

/-- The word is a NaN. -/
def isNaN (w : W) : Bool := match fUnpack w with | .nan _ => true | _ => false

/-- The word is a signalling NaN. -/
def isSNaN (w : W) : Bool := match fUnpack w with | .nan q => !q | _ => false

/-- R57: the NaN operand with f[35] set. -/
def quietOf (w : W) : W := w ||| 0x000800000000

/-- R57: the first NaN among the operands in the order left, right, gate, quieted; FNV when any operand is signalling. -/
def nanOf (ops : List W) : Option AR :=
  match ops.find? isNaN with
  | some w => some (quietOf w, if ops.any isSNaN then Stk.fnv else Stk.none)
  | none => none

/-- R57: an invalid operation with no NaN operand. -/
def fInvalid : AR := (fNaN, Stk.fnv)

/-- A signed integer significand. -/
def sInt (s : Bool) (m : Nat) : Int := if s then -(m : Int) else m

/-- The exact sum of two finite values, rounded once; an exact zero sum of opposite signs is +0, or −0 in RM 3 (R57). -/
def fAddFin (rm : Nat) (s1 : Bool) (m1 : Nat) (e1 : Int) (s2 : Bool) (m2 : Nat) (e2 : Int) : AR :=
  let e := min e1 e2
  let v := sInt s1 (m1 <<< (e1 - e).toNat) + sInt s2 (m2 <<< (e2 - e).toNat)
  if v = 0 then plain (fZero (if s1 = s2 then s1 else rm = 3))
  else fRound rm (v < 0) v.natAbs e

/-- The sum of two values with no NaN; the second sign may have been inverted. -/
def fAddV (rm : Nat) (a b : FVal) : AR :=
  match a, b with
  | .inf s, .inf t => if s = t then plain (fInf s) else fInvalid
  | .inf s, _ => plain (fInf s)
  | _, .inf t => plain (fInf t)
  | .fin s1 m1 e1, .fin s2 m2 e2 => fAddFin rm s1 m1 e1 s2 m2 e2
  | _, _ => fInvalid

/-- A value with its sign inverted. -/
def FVal.neg : FVal → FVal
  | .fin s m e => .fin (!s) m e
  | .inf s => .inf (!s)
  | .nan q => .nan q

def fAdd (rm : Nat) (l r : W) : AR := (nanOf [l, r]).getD (fAddV rm (fUnpack l) (fUnpack r))
def fSub (rm : Nat) (l r : W) : AR := (nanOf [l, r]).getD (fAddV rm (fUnpack l) (fUnpack r).neg)

/-- The exact product of two values with no NaN; `none` for 0 × ∞. -/
def fMulV (a b : FVal) : Option FVal :=
  match a, b with
  | .fin s m e, .fin t n f => some (.fin (s ^^ t) (m * n) (e + f))
  | .fin s m _, .inf t => if m = 0 then none else some (.inf (s ^^ t))
  | .inf s, .fin t n _ => if n = 0 then none else some (.inf (s ^^ t))
  | .inf s, .inf t => some (.inf (s ^^ t))
  | _, _ => none

def fMul (rm : Nat) (l r : W) : AR :=
  (nanOf [l, r]).getD <|
    match fMulV (fUnpack l) (fUnpack r) with
    | some (.fin s m e) => fRound rm s m e
    | some (.inf s) => plain (fInf s)
    | _ => fInvalid

/-- FMA and FMS: one rounding; 0 × ∞ with a NaN addend gives the addend and sets FNV (R57). -/
def fFma (rm : Nat) (neg : Bool) (l r g : W) : AR :=
  let p := fMulV (fUnpack l) (fUnpack r)
  match nanOf [l, r, g] with
  | some (w, st) =>
    let zeroInf := !isNaN l && !isNaN r && p.isNone
    (w, if zeroInf then st ||| Stk.fnv else st)
  | none =>
    match p with
    | some v => fAddV rm v (if neg then (fUnpack g).neg else fUnpack g)
    | none => fInvalid

def fDiv (rm : Nat) (l r : W) : AR :=
  (nanOf [l, r]).getD <|
    match fUnpack l, fUnpack r with
    | .fin s m e, .fin t n f =>
      if n = 0 then
        if m = 0 then fInvalid else (fInf (s ^^ t), Stk.fdz)
      else
        let num := m <<< 80
        let q := num / n
        let sticky := if num % n = 0 then 0 else 1
        fRound rm (s ^^ t) (2 * q + sticky) (e - f - 81)
    | .fin s _ _, .inf t => plain (fZero (s ^^ t))
    | .inf s, .fin t _ _ => plain (fInf (s ^^ t))
    | _, _ => fInvalid

/-- The integer square root, one result bit at a time from bit k − 1 down. -/
def isqrtLoop : Nat → Nat → Nat → Nat
  | 0, _, r => r
  | k + 1, n, r => isqrtLoop k n (if (r + 2 ^ k) * (r + 2 ^ k) ≤ n then r + 2 ^ k else r)

def fSqrt (rm : Nat) (l : W) : AR :=
  (nanOf [l]).getD <|
    match fUnpack l with
    | .fin s m e =>
      if m = 0 then plain l
      else if s then fInvalid
      else
        let sh := if e % 2 = 0 then 80 else 81
        let n := m <<< sh
        let r := isqrtLoop 60 n 0
        let sticky := if r * r = n then 0 else 1
        fRound rm false (2 * r + sticky) ((e - sh) / 2 - 1)
    | .inf s => if s then fInvalid else plain l
    | .nan _ => fInvalid

/-- The exact comparison l < r of two values with no NaN (R75: +0 and −0 are equal). -/
def fLtV (a b : FVal) : Bool :=
  match a, b with
  | .fin s m e, .fin t n f =>
    let x := min e f
    sInt s (m <<< (e - x).toNat) < sInt t (n <<< (f - x).toNat)
  | .inf s, .inf t => s && !t
  | .inf s, _ => s
  | _, .inf t => !t
  | _, _ => false

def fEqV (a b : FVal) : Bool := !fLtV a b && !fLtV b a

/-- R74, R75: the L48F comparisons, opcodes 0x048–0x04C. -/
def fcmpOp (opc : Nat) (l r : W) : Option AR :=
  let un := isNaN l || isNaN r
  let sn := isSNaN l || isSNaN r
  let a := fUnpack l
  let b := fUnpack r
  let quietSt := if sn then Stk.fnv else Stk.none
  let loudSt := if un then Stk.fnv else Stk.none
  match opc with
  | 0x048 => some (truth (!un && fEqV a b), quietSt)
  | 0x049 => some (truth (un || !fEqV a b), quietSt)
  | 0x04A => some (truth (!un && fLtV a b), loudSt)
  | 0x04B => some (truth (!un && !fLtV b a), loudSt)
  | 0x04C => some (truth un, quietSt)
  | _ => none

/-- R77: FMIN and FMAX. -/
def fMinMax (isMax : Bool) (l r : W) : AR :=
  if isSNaN l || isSNaN r || (isNaN l && isNaN r) then (nanOf [l, r]).getD fInvalid
  else if isNaN l then plain r
  else if isNaN r then plain l
  else
    let a := fUnpack l
    let b := fUnpack r
    if fEqV a b then
      -- equal values differ at most in the sign of zero
      plain (if isMax then l &&& r else l ||| r)
    else plain (if fLtV a b ^^ isMax then l else r)

/-- Convert a value times 2^sc to an integer in mode rm, clamped to [lo, hi] (R57, R77). -/
def fToInt (rm : Nat) (sc : Int) (lo hi : Int) (l : W) : AR :=
  match fUnpack l with
  | .nan _ => (0, Stk.fnv)
  | .inf s => (BitVec.ofInt 48 (if s then lo else hi), Stk.fnv)
  | .fin s m e =>
    let k : Int := -(e + sc)
    let n := roundTo rm s m k
    let v := sInt s n
    if v < lo then (BitVec.ofInt 48 lo, Stk.fnv)
    else if v > hi then (BitVec.ofInt 48 hi, Stk.fnv)
    else (BitVec.ofInt 48 v, if decide (k > 0) && m % 2 ^ k.toNat ≠ 0 then Stk.fnx else Stk.none)

def sMinI : Int := -(2 ^ 47)
def sMaxI : Int := 2 ^ 47 - 1
def uMaxI : Int := 2 ^ 48 - 1

/-- R76, R77: the L48F operations and conversions, opcodes 0x060–0x077. -/
def floatOp (opc rm : Nat) (l r g : W) : Option AR :=
  match opc with
  | 0x060 => some (fAdd rm l r)
  | 0x061 => some (fSub rm l r)
  | 0x062 => some (fMul rm l r)
  | 0x063 => some (fDiv rm l r)
  | 0x064 => some (fSqrt rm l)
  | 0x065 => some (fFma rm false l r g)
  | 0x066 => some (fFma rm true l r g)
  | 0x068 => some (plain (l ^^^ 0x800000000000))
  | 0x069 => some (plain (l &&& 0x7FFFFFFFFFFF))
  | 0x06A => some (fMinMax false l r)
  | 0x06B => some (fMinMax true l r)
  | _ => none

/-- R76, R77: the conversions, opcodes 0x070–0x077. -/
def convOp (opc rm : Nat) (l : W) : Option AR :=
  match opc with
  | 0x070 => some (fRound rm (l.toInt < 0) l.toInt.natAbs 0)
  | 0x071 => some (fRound rm false l.toNat 0)
  | 0x072 => some (fToInt rm 0 sMinI sMaxI l)
  | 0x073 => some (fToInt 1 0 sMinI sMaxI l)
  | 0x074 => some (fToInt rm 0 0 uMaxI l)
  | 0x075 => some (fToInt 1 0 0 uMaxI l)
  | 0x076 => some (fRound rm (l.toInt < 0) l.toInt.natAbs (-47))
  | 0x077 => some (fToInt rm 47 sMinI sMaxI l)
  | _ => none

/-- Every computation of one, two or three operand words, by graph opcode: R72–R78. -/
def compute (opc rm : Nat) (l r g : W) : Option AR :=
  (intOp opc l r).orElse fun _ =>
  (cmpOp opc l r).orElse fun _ =>
  (fcmpOp opc l r).orElse fun _ =>
  (q47Op opc l r).orElse fun _ =>
  (floatOp opc rm l r g).orElse fun _ =>
  (convOp opc rm l).orElse fun _ => cpxOp opc l r

end Sys2Proof.Machine
end

