-- ==== Sys2Proof/Machine/Maps.lean ====
section
/-!
DEFINITION. Sys2Proof/Machine/Maps.lean: finite maps as lists of (key, value) pairs with strictly rising keys, the one form in which
State keeps memory, registers and every sparse store.
-/
namespace Sys2Proof.Machine

variable {α : Type}

/-- The value at a key, if one is listed. -/
def mfind : List (Nat × α) → Nat → Option α
  | [], _ => none
  | (k, v) :: m, x => if k = x then some v else mfind m x

/-- The value at a key, or the default of an unlisted key. -/
def mget (d : α) (m : List (Nat × α)) (x : Nat) : α := (mfind m x).getD d

/-- Write a value at a key, keeping the keys strictly rising. -/
def mput : List (Nat × α) → Nat → α → List (Nat × α)
  | [], x, v => [(x, v)]
  | (k, w) :: m, x, v =>
    if x < k then (x, v) :: (k, w) :: m
    else if x = k then (x, v) :: m
    else (k, w) :: mput m x v

/-- Remove a key, wherever it stands. -/
def mdel : List (Nat × α) → Nat → List (Nat × α)
  | [], _ => []
  | (k, w) :: m, x => if k = x then mdel m x else (k, w) :: mdel m x

/-- Write a value in the canonical form: a value equal to the default removes the entry. -/
def mset [DecidableEq α] (d : α) (m : List (Nat × α)) (x : Nat) (v : α) : List (Nat × α) :=
  if v = d then mdel m x else mput m x v

/-- The keys of a map rise strictly from a lower bound. -/
def mrise : Nat → List (Nat × α) → Bool
  | _, [] => true
  | b, (k, _) :: m => b ≤ k && mrise (k + 1) m

/-- The canonical form: rising keys, and no entry with the default value. -/
def mwf [DecidableEq α] (d : α) (m : List (Nat × α)) : Bool :=
  mrise 0 m && m.all fun e => decide (e.2 ≠ d)

/-- Append to the list at a key. -/
def mpush (m : List (Nat × List α)) (x : Nat) (v : α) : List (Nat × List α) :=
  mput m x (mget [] m x ++ [v])

/-- Replace the list at a key; an empty list is not listed. -/
def mlist (m : List (Nat × List α)) (x : Nat) (l : List α) : List (Nat × List α) :=
  if l.isEmpty then mdel m x else mput m x l

/-- Remove the first element that satisfies a predicate, with that element. -/
def takeFirst (p : α → Bool) : List α → Option (α × List α)
  | [] => none
  | a :: l => if p a then some (a, l) else (takeFirst p l).map fun r => (r.1, a :: r.2)

/-- Replace the first element that satisfies a predicate. -/
def replaceFirst (p : α → Bool) (f : α → α) : List α → List α
  | [] => []
  | a :: l => if p a then f a :: l else a :: replaceFirst p f l

/-- The element with the least measure; the first of those that tie (DESIGN CHOICE, log 141). -/
def minBy (f : α → Int) : List α → Option α
  | [] => none
  | a :: l =>
    match minBy f l with
    | none => some a
    | some b => if f a ≤ f b then some a else some b

/-- The list with the element at a position replaced. -/
def setAt (l : List α) (i : Nat) (v : α) : List α := l.set i v

end Sys2Proof.Machine
end

