-- ==== Sys2Proof/Config.lean ====
section
/-!
DEFINITION. Sys2Proof/Config.lean: the free values, which the spec leaves open. Each is a constant without a body, so no proof can see
what it is; a counter of State is applied to it, and every use advances that counter.
-/
namespace Sys2Proof.Config

/-- A value that the spec does not fix; `w` is its width (DESIGN CHOICE, log 10). -/
opaque freeValue (w : Nat) : Nat → BitVec w

end Sys2Proof.Config
end

