-- ==== Sys2Proof/Machine/Regs.lean ====
section
/-!
DEFINITION. Sys2Proof/Machine/Regs.lean: the register map of the package as the register tables of the spec give it.
One constant `F.<register>_<FIELD>` per defined field (low bit, width, access code of R7, reset value, and the ranges of
values that are not reserved, R9), and one table per block that gives each register its offset, its repetition and its fields.
A field whose reset value the spec leaves to position, a strap, OTP or VBAT has 0 here and is computed where it is read.
-/
namespace Sys2Proof.Machine

/-- The access codes of R7. -/
inductive Acc where
  | ro | rw | w1c | wo | rws | rwl
  deriving DecidableEq, Repr

/-- A field of a register: R5 and R7. `ok` lists the value ranges that are not reserved; empty means every value. -/
structure Fld where
  id : Nat
  lo : Nat
  w : Nat
  acc : Acc
  rst : Nat
  ok : List (Nat × Nat)
  deriving DecidableEq, Repr

/-- The register blocks of R29 and R31 (the three `pf` blocks are the packing-FIFO registers of R256). -/
inductive Blk where

  | clctl | tokq | rtr | rtrs | pe | region | devid | pwr | ap | lens | sc | ring | cc | sched | lock | gport | sv | flt | mc | cap | pcie | cp | mp | aux | pfcfg | pfstat | pfcmd
  deriving DecidableEq, Repr

/-- Every register of the map, by the name the spec gives it. -/
inductive Reg where
  | clStatus | regTs | fclkCtl | devId | arithStat | rtEntry | bandOcc | spillCfg | matchStat | matchHwm | pressure 
  | lateCnt | lateTag | lateT | lateDue | msErrData | msErrDue | msErrTag | msErrInfo | poolCfg | poolStat | reclaimTgt 
  | dlCtl | tokProd | tokCons | progress | dlStat | reclaimLog | dispatch | peStat | tfState | tfStack | tfMt | tfTag 
  | mchkLog | csStat | apCmd | apStatus | apDetail | apTime | partStat | partCfg | missInfo | missTag | missT | missDue 
  | modeTc | modeStat | migCtl | migStat | rtAlt | lensCtl | lensStat | tNow | tLoad | ppsCfg | ppsMeas | chainTm 
  | coordCfg | coordModel | coordStat | coordZofs | mainsCfg | mainsStat | letAddr | letData | rscAddr | rscData 
  | rsCfg | rsStart | rsStep | rsMask | trigCfg | trigTarget | trigStep | trigDst | scCtl | laneCfg | laneTime 
  | laneTx | laneStat | laneStamp | pfCfg | pfStat | pfCmd | chCfg | chDst | chLim | chCmp | chStat | chSafe | ilkStat 
  | ilkLog | ilkLogt | ilkTest | rtrCfg | rtrStat | toAddr | toInfo | flitLog0 | flitLog1 | flitLog2 | lq | hubTo 
  | segSel | segQuota | barCfg | barMask0 | barMask1 | barStat | barArrive | gsched | gschedT | snapStat | snapBase 
  | bankOwn | bankPwr | bankStat | bankCtl | violAddr | violInfo | violCnt | ccCtl | ccBoot | ccStat | ccPc | ccDbg 
  | ccDbgData | thrCfg | schedCore | schedClaim | schedOp | evCfg | timerCmp | timerCfg | doorbell | lk | lkPeek 
  | gpCfg | gpCtl | gpStat | mbxStat | svCtl | svStat | svBoot | svPc | svDbg | svDbgData | svEvt | svEvtEn | svTmr 
  | svWdog | svMbxIn | svMbxOut | ilkForce | ilkRel | chForce | svMisc | fltCtl | fltSum | flogStat | flogW0 | flogW1 
  | injSel | injCtl | frCtl | fkCfg | fkWin | fkStat | bootStat | mcCmd | mcArg | mcStat | otpStat | logStat | logIdx 
  | logW0 | logW1 | smbCfg | pmbDev | ts | capLock | capCfg | capRing | capWp | capRp | capStat | pcieStat | pcieWin0 
  | pcieWin1 | pcieErraddr | pcieErrinfo | cpStat | mpCtl | mpFlipT | mpStat | mpOwn | auxCfg | auxOut | auxIn 
  | auxLock | pwrCtl | pwrStat | thermStat | railMon 
  deriving DecidableEq, Repr

/-- A register of a block: offset, then up to two repetitions (count and stride). -/
structure RegDef where
  reg : Reg
  off : Nat
  n1 : Nat
  s1 : Nat
  n2 : Nat
  s2 : Nat
  fs : List Fld
  deriving DecidableEq, Repr

namespace F

-- CL_STATUS: spec file 01, rule R17
/-- CL_STATUS.CLUSTER -/
def clStatus_CLUSTER : Fld := ⟨0, 0, 4, .ro, 0, []⟩
/-- CL_STATUS.DIE -/
def clStatus_DIE : Fld := ⟨1, 4, 4, .ro, 0, []⟩
/-- CL_STATUS.PKG -/
def clStatus_PKG : Fld := ⟨2, 8, 4, .ro, 0, []⟩
/-- CL_STATUS.STATE -/
def clStatus_STATE : Fld := ⟨3, 12, 3, .ro, 0, []⟩
/-- CL_STATUS.OWNER -/
def clStatus_OWNER : Fld := ⟨4, 16, 4, .ro, 15, []⟩
-- REG_TS: spec file 01, rule R18
/-- REG_TS.VALUE -/
def regTs_VALUE : Fld := ⟨5, 0, 16, .ro, 0, []⟩
/-- REG_TS.VALID -/
def regTs_VALID : Fld := ⟨6, 16, 1, .ro, 0, []⟩
/-- REG_TS.FAIL -/
def regTs_FAIL : Fld := ⟨7, 17, 1, .ro, 0, []⟩
-- FCLK_CTL: spec file 01, rule R23
/-- FCLK_CTL.TARGET -/
def fclkCtl_TARGET : Fld := ⟨8, 0, 3, .rw, 0, [(0, 4)]⟩
/-- FCLK_CTL.CURRENT -/
def fclkCtl_CURRENT : Fld := ⟨9, 4, 3, .ro, 0, []⟩
/-- FCLK_CTL.THROTTLED -/
def fclkCtl_THROTTLED : Fld := ⟨10, 8, 1, .ro, 0, []⟩
/-- FCLK_CTL.STOPPED -/
def fclkCtl_STOPPED : Fld := ⟨11, 9, 1, .ro, 1, []⟩
-- DEV_ID: spec file 01, rule R31
/-- DEV_ID.DEVICE -/
def devId_DEVICE : Fld := ⟨12, 0, 12, .ro, 2120, []⟩
/-- DEV_ID.STEP -/
def devId_STEP : Fld := ⟨13, 12, 4, .ro, 1, []⟩
/-- DEV_ID.VENDOR -/
def devId_VENDOR : Fld := ⟨14, 16, 12, .ro, 1703, []⟩
/-- DEV_ID.PKG -/
def devId_PKG : Fld := ⟨15, 28, 4, .ro, 0, []⟩
/-- DEV_ID.CHAIN_LEN -/
def devId_CHAIN_LEN : Fld := ⟨16, 32, 5, .ro, 0, []⟩
/-- DEV_ID.HEAD -/
def devId_HEAD : Fld := ⟨17, 37, 1, .ro, 0, []⟩
/-- DEV_ID.TAIL -/
def devId_TAIL : Fld := ⟨18, 38, 1, .ro, 0, []⟩
-- ARITH_STAT: spec file 02, rule R57
/-- ARITH_STAT.V -/
def arithStat_V : Fld := ⟨19, 0, 1, .w1c, 0, []⟩
/-- ARITH_STAT.DZ -/
def arithStat_DZ : Fld := ⟨20, 1, 1, .w1c, 0, []⟩
/-- ARITH_STAT.FNV -/
def arithStat_FNV : Fld := ⟨21, 2, 1, .w1c, 0, []⟩
/-- ARITH_STAT.FDZ -/
def arithStat_FDZ : Fld := ⟨22, 3, 1, .w1c, 0, []⟩
/-- ARITH_STAT.FOF -/
def arithStat_FOF : Fld := ⟨23, 4, 1, .w1c, 0, []⟩
/-- ARITH_STAT.FUF -/
def arithStat_FUF : Fld := ⟨24, 5, 1, .w1c, 0, []⟩
/-- ARITH_STAT.FNX -/
def arithStat_FNX : Fld := ⟨25, 6, 1, .w1c, 0, []⟩
/-- ARITH_STAT.TRAP -/
def arithStat_TRAP : Fld := ⟨26, 8, 7, .rw, 0, []⟩
/-- ARITH_STAT.RM -/
def arithStat_RM : Fld := ⟨27, 16, 2, .rw, 0, []⟩
-- RT_ENTRY: spec file 03, rule R65
/-- RT_ENTRY.CLUSTER -/
def rtEntry_CLUSTER : Fld := ⟨28, 0, 4, .rw, 0, []⟩
/-- RT_ENTRY.DIE -/
def rtEntry_DIE : Fld := ⟨29, 4, 4, .rw, 0, [(0, 7)]⟩
/-- RT_ENTRY.PKG -/
def rtEntry_PKG : Fld := ⟨30, 8, 4, .rw, 0, []⟩
/-- RT_ENTRY.VALID -/
def rtEntry_VALID : Fld := ⟨31, 15, 1, .rw, 0, []⟩
-- BAND_OCC: spec file 04, rule R120
/-- BAND_OCC.OCC0 -/
def bandOcc_OCC0 : Fld := ⟨32, 0, 5, .ro, 0, []⟩
/-- BAND_OCC.OCC1 -/
def bandOcc_OCC1 : Fld := ⟨33, 5, 5, .ro, 0, []⟩
/-- BAND_OCC.OCC2 -/
def bandOcc_OCC2 : Fld := ⟨34, 10, 5, .ro, 0, []⟩
/-- BAND_OCC.OCC3 -/
def bandOcc_OCC3 : Fld := ⟨35, 15, 5, .ro, 0, []⟩
/-- BAND_OCC.OCC4 -/
def bandOcc_OCC4 : Fld := ⟨36, 20, 5, .ro, 0, []⟩
/-- BAND_OCC.OCC5 -/
def bandOcc_OCC5 : Fld := ⟨37, 25, 5, .ro, 0, []⟩
/-- BAND_OCC.OCC6 -/
def bandOcc_OCC6 : Fld := ⟨38, 30, 5, .ro, 0, []⟩
/-- BAND_OCC.OCC7 -/
def bandOcc_OCC7 : Fld := ⟨39, 35, 5, .ro, 0, []⟩
/-- BAND_OCC.FREE -/
def bandOcc_FREE : Fld := ⟨40, 40, 5, .ro, 16, []⟩
-- SPILL_CFG: spec file 04, rule R120
/-- SPILL_CFG.BANK -/
def spillCfg_BANK : Fld := ⟨41, 0, 4, .rw, 0, []⟩
/-- SPILL_CFG.BASE -/
def spillCfg_BASE : Fld := ⟨42, 4, 10, .rw, 0, []⟩
/-- SPILL_CFG.COUNT -/
def spillCfg_COUNT : Fld := ⟨43, 16, 11, .rw, 0, []⟩
-- MATCH_STAT: spec file 04, rule R120
/-- MATCH_STAT.ENTRIES -/
def matchStat_ENTRIES : Fld := ⟨44, 0, 14, .ro, 0, []⟩
/-- MATCH_STAT.RECORDS -/
def matchStat_RECORDS : Fld := ⟨45, 14, 11, .ro, 0, []⟩
/-- MATCH_STAT.LONGEST -/
def matchStat_LONGEST : Fld := ⟨46, 25, 11, .ro, 0, []⟩
-- MATCH_HWM: spec file 04, rule R120
/-- MATCH_HWM.ENTRIES_HWM -/
def matchHwm_ENTRIES_HWM : Fld := ⟨47, 0, 14, .ro, 0, []⟩
/-- MATCH_HWM.RECORDS_HWM -/
def matchHwm_RECORDS_HWM : Fld := ⟨48, 14, 11, .ro, 0, []⟩
/-- MATCH_HWM.CHAIN_HWM -/
def matchHwm_CHAIN_HWM : Fld := ⟨49, 25, 11, .ro, 0, []⟩
/-- MATCH_HWM.CLR -/
def matchHwm_CLR : Fld := ⟨50, 47, 1, .wo, 0, []⟩
-- PRESSURE: spec file 04, rule R120
/-- PRESSURE.SPILL_HELD -/
def pressure_SPILL_HELD : Fld := ⟨51, 0, 1, .w1c, 0, []⟩
/-- PRESSURE.SLOT_HELD -/
def pressure_SLOT_HELD : Fld := ⟨52, 1, 1, .w1c, 0, []⟩
/-- PRESSURE.LANES -/
def pressure_LANES : Fld := ⟨53, 16, 16, .ro, 0, []⟩
/-- PRESSURE.EPISODES -/
def pressure_EPISODES : Fld := ⟨54, 32, 16, .ro, 0, []⟩
-- LATE_CNT: spec file 04, rule R120
/-- LATE_CNT.COUNT -/
def lateCnt_COUNT : Fld := ⟨55, 0, 32, .ro, 0, []⟩
/-- LATE_CNT.CLR -/
def lateCnt_CLR : Fld := ⟨56, 32, 1, .wo, 0, []⟩
/-- LATE_CNT.LOGV -/
def lateCnt_LOGV : Fld := ⟨57, 47, 1, .w1c, 0, []⟩
-- LATE_TAG: spec file 04, rule R120
/-- LATE_TAG.TAG -/
def lateTag_TAG : Fld := ⟨58, 0, 48, .ro, 0, []⟩
-- LATE_T: spec file 04, rule R120
/-- LATE_T.T -/
def lateT_T : Fld := ⟨59, 0, 48, .ro, 0, []⟩
-- LATE_DUE: spec file 04, rule R120
/-- LATE_DUE.DUE -/
def lateDue_DUE : Fld := ⟨60, 0, 48, .ro, 0, []⟩
-- MS_ERR_DATA: spec file 04, rule R120
/-- MS_ERR_DATA.DATA -/
def msErrData_DATA : Fld := ⟨61, 0, 48, .ro, 0, []⟩
-- MS_ERR_DUE: spec file 04, rule R120
/-- MS_ERR_DUE.DUE -/
def msErrDue_DUE : Fld := ⟨62, 0, 48, .ro, 0, []⟩
-- MS_ERR_TAG: spec file 04, rule R120
/-- MS_ERR_TAG.TAG -/
def msErrTag_TAG : Fld := ⟨63, 0, 48, .ro, 0, []⟩
-- MS_ERR_INFO: spec file 04, rule R120
/-- MS_ERR_INFO.ENTRY -/
def msErrInfo_ENTRY : Fld := ⟨64, 0, 13, .ro, 0, []⟩
/-- MS_ERR_INFO.POISON -/
def msErrInfo_POISON : Fld := ⟨65, 13, 1, .ro, 0, []⟩
/-- MS_ERR_INFO.T -/
def msErrInfo_T : Fld := ⟨66, 14, 28, .ro, 0, []⟩
/-- MS_ERR_INFO.VALID -/
def msErrInfo_VALID : Fld := ⟨67, 47, 1, .w1c, 0, []⟩
-- POOL_CFG: spec file 05, rule R126
/-- POOL_CFG.G -/
def poolCfg_G : Fld := ⟨68, 0, 3, .ro, 0, []⟩
/-- POOL_CFG.BASE -/
def poolCfg_BASE : Fld := ⟨69, 4, 8, .ro, 0, []⟩
/-- POOL_CFG.SPAN -/
def poolCfg_SPAN : Fld := ⟨70, 12, 9, .ro, 0, []⟩
/-- POOL_CFG.LEVEL -/
def poolCfg_LEVEL : Fld := ⟨71, 21, 4, .ro, 0, []⟩
-- POOL_STAT: spec file 05, rule R126
/-- POOL_STAT.FREE -/
def poolStat_FREE : Fld := ⟨72, 0, 15, .ro, 0, []⟩
/-- POOL_STAT.LWM -/
def poolStat_LWM : Fld := ⟨73, 15, 15, .ro, 0, []⟩
/-- POOL_STAT.WAITING -/
def poolStat_WAITING : Fld := ⟨74, 30, 9, .ro, 0, []⟩
/-- POOL_STAT.CLR -/
def poolStat_CLR : Fld := ⟨75, 47, 1, .wo, 0, []⟩
-- RECLAIM_TGT: spec file 05, rule R126
/-- RECLAIM_TGT.ADDR -/
def reclaimTgt_ADDR : Fld := ⟨76, 0, 15, .ro, 0, []⟩
/-- RECLAIM_TGT.PORT -/
def reclaimTgt_PORT : Fld := ⟨77, 15, 2, .ro, 0, []⟩
/-- RECLAIM_TGT.CLUSTER -/
def reclaimTgt_CLUSTER : Fld := ⟨78, 17, 4, .ro, 0, []⟩
/-- RECLAIM_TGT.DIE -/
def reclaimTgt_DIE : Fld := ⟨79, 21, 4, .ro, 0, []⟩
/-- RECLAIM_TGT.PKG -/
def reclaimTgt_PKG : Fld := ⟨80, 25, 4, .ro, 0, []⟩
/-- RECLAIM_TGT.VALID -/
def reclaimTgt_VALID : Fld := ⟨81, 29, 1, .ro, 0, []⟩
-- DL_CTL: spec file 05, rule R143
/-- DL_CTL.WIN -/
def dlCtl_WIN : Fld := ⟨82, 0, 5, .rw, 20, [(8, 31)]⟩
/-- DL_CTL.ACTION -/
def dlCtl_ACTION : Fld := ⟨83, 6, 2, .rw, 0, [(0, 2)]⟩
/-- DL_CTL.ENABLE -/
def dlCtl_ENABLE : Fld := ⟨84, 8, 1, .rw, 1, []⟩
-- TOK_PROD: spec file 05, rule R143
/-- TOK_PROD.COUNT -/
def tokProd_COUNT : Fld := ⟨85, 0, 48, .ro, 0, []⟩
-- TOK_CONS: spec file 05, rule R143
/-- TOK_CONS.COUNT -/
def tokCons_COUNT : Fld := ⟨86, 0, 48, .ro, 0, []⟩
-- PROGRESS: spec file 05, rule R143
/-- PROGRESS.COUNT -/
def progress_COUNT : Fld := ⟨87, 0, 48, .ro, 0, []⟩
-- DL_STAT: spec file 05, rule R143
/-- DL_STAT.BLOCKED -/
def dlStat_BLOCKED : Fld := ⟨88, 0, 1, .ro, 0, []⟩
/-- DL_STAT.DETECTED -/
def dlStat_DETECTED : Fld := ⟨89, 1, 1, .w1c, 0, []⟩
/-- DL_STAT.HALTED -/
def dlStat_HALTED : Fld := ⟨90, 2, 1, .ro, 0, []⟩
/-- DL_STAT.RECLAIMING -/
def dlStat_RECLAIMING : Fld := ⟨91, 3, 1, .ro, 0, []⟩
/-- DL_STAT.SRC_HOLD -/
def dlStat_SRC_HOLD : Fld := ⟨92, 4, 1, .ro, 0, []⟩
/-- DL_STAT.SRC_STALL -/
def dlStat_SRC_STALL : Fld := ⟨93, 5, 1, .ro, 0, []⟩
/-- DL_STAT.SRC_INST -/
def dlStat_SRC_INST : Fld := ⟨94, 6, 1, .ro, 0, []⟩
/-- DL_STAT.SRC_CREDIT -/
def dlStat_SRC_CREDIT : Fld := ⟨95, 7, 1, .ro, 0, []⟩
/-- DL_STAT.SRC_ALLOC -/
def dlStat_SRC_ALLOC : Fld := ⟨96, 8, 1, .ro, 0, []⟩
/-- DL_STAT.EPISODES -/
def dlStat_EPISODES : Fld := ⟨97, 12, 16, .ro, 0, []⟩
/-- DL_STAT.RECLAIMS -/
def dlStat_RECLAIMS : Fld := ⟨98, 28, 16, .ro, 0, []⟩
-- RECLAIM_LOG: spec file 05, rule R143
/-- RECLAIM_LOG.BASE -/
def reclaimLog_BASE : Fld := ⟨99, 0, 14, .ro, 0, []⟩
/-- RECLAIM_LOG.G -/
def reclaimLog_G : Fld := ⟨100, 14, 3, .ro, 0, []⟩
/-- RECLAIM_LOG.REGION -/
def reclaimLog_REGION : Fld := ⟨101, 17, 5, .ro, 0, []⟩
/-- RECLAIM_LOG.REMOVED -/
def reclaimLog_REMOVED : Fld := ⟨102, 22, 16, .ro, 0, []⟩
/-- RECLAIM_LOG.VALID -/
def reclaimLog_VALID : Fld := ⟨103, 38, 1, .w1c, 0, []⟩
-- DISPATCH: spec file 06, rule R151
/-- DISPATCH.ENTRY -/
def dispatch_ENTRY : Fld := ⟨104, 0, 11, .rw, 0, []⟩
/-- DISPATCH.RESUME -/
def dispatch_RESUME : Fld := ⟨105, 11, 11, .rw, 0, []⟩
/-- DISPATCH.PORTS -/
def dispatch_PORTS : Fld := ⟨106, 22, 3, .rw, 0, []⟩
/-- DISPATCH.KFORM -/
def dispatch_KFORM : Fld := ⟨107, 25, 1, .rw, 0, []⟩
/-- DISPATCH.DFORM -/
def dispatch_DFORM : Fld := ⟨108, 26, 1, .rw, 0, []⟩
/-- DISPATCH.KPARAM -/
def dispatch_KPARAM : Fld := ⟨109, 27, 1, .rw, 0, []⟩
/-- DISPATCH.VALID -/
def dispatch_VALID : Fld := ⟨110, 31, 1, .rw, 0, []⟩
-- PE_STAT: spec file 06, rule R163
/-- PE_STAT.STOPPED -/
def peStat_STOPPED : Fld := ⟨111, 0, 1, .ro, 1, []⟩
/-- PE_STAT.IN_TRAP -/
def peStat_IN_TRAP : Fld := ⟨112, 1, 1, .ro, 0, []⟩
/-- PE_STAT.MCHK -/
def peStat_MCHK : Fld := ⟨113, 2, 1, .w1c, 0, []⟩
/-- PE_STAT.PARKED -/
def peStat_PARKED : Fld := ⟨114, 4, 4, .ro, 0, []⟩
/-- PE_STAT.TRAPS -/
def peStat_TRAPS : Fld := ⟨115, 8, 24, .ro, 0, []⟩
/-- PE_STAT.MCHKS -/
def peStat_MCHKS : Fld := ⟨116, 32, 16, .ro, 0, []⟩
-- TF_STATE: spec file 06, rule R163
/-- TF_STATE.UPC -/
def tfState_UPC : Fld := ⟨117, 0, 11, .ro, 0, []⟩
/-- TF_STATE.DEPTH -/
def tfState_DEPTH : Fld := ⟨118, 11, 3, .ro, 0, []⟩
/-- TF_STATE.CAUSE -/
def tfState_CAUSE : Fld := ⟨119, 16, 3, .ro, 0, []⟩
/-- TF_STATE.SERVED -/
def tfState_SERVED : Fld := ⟨120, 24, 6, .ro, 0, []⟩
-- TF_STACK: spec file 06, rule R163
/-- TF_STACK.S0 -/
def tfStack_S0 : Fld := ⟨121, 0, 11, .ro, 0, []⟩
/-- TF_STACK.S1 -/
def tfStack_S1 : Fld := ⟨122, 11, 11, .ro, 0, []⟩
/-- TF_STACK.S2 -/
def tfStack_S2 : Fld := ⟨123, 22, 11, .ro, 0, []⟩
/-- TF_STACK.S3 -/
def tfStack_S3 : Fld := ⟨124, 33, 11, .ro, 0, []⟩
-- TF_MT: spec file 06, rule R163
/-- TF_MT.VALUE -/
def tfMt_VALUE : Fld := ⟨125, 0, 48, .ro, 0, []⟩
-- TF_TAG: spec file 06, rule R163
/-- TF_TAG.TAG -/
def tfTag_TAG : Fld := ⟨126, 0, 48, .ro, 0, []⟩
-- MCHK_LOG: spec file 06, rule R163
/-- MCHK_LOG.ADDR -/
def mchkLog_ADDR : Fld := ⟨127, 0, 11, .ro, 0, []⟩
/-- MCHK_LOG.DISP -/
def mchkLog_DISP : Fld := ⟨128, 11, 1, .ro, 0, []⟩
/-- MCHK_LOG.NESTED -/
def mchkLog_NESTED : Fld := ⟨129, 12, 1, .ro, 0, []⟩
/-- MCHK_LOG.GROUPS -/
def mchkLog_GROUPS : Fld := ⟨130, 13, 8, .ro, 0, []⟩
/-- MCHK_LOG.VALID -/
def mchkLog_VALID : Fld := ⟨131, 47, 1, .w1c, 0, []⟩
-- CS_STAT: spec file 06, rule R163
/-- CS_STAT.STD_VER -/
def csStat_STD_VER : Fld := ⟨132, 0, 16, .ro, 0, []⟩
/-- CS_STAT.USER_SET -/
def csStat_USER_SET : Fld := ⟨133, 16, 5, .ro, 0, []⟩
/-- CS_STAT.USER_VALID -/
def csStat_USER_VALID : Fld := ⟨134, 21, 1, .ro, 0, []⟩
/-- CS_STAT.RELOADING -/
def csStat_RELOADING : Fld := ⟨135, 22, 1, .ro, 0, []⟩
/-- CS_STAT.RELOADS -/
def csStat_RELOADS : Fld := ⟨136, 32, 16, .ro, 0, []⟩
-- AP_CMD: spec file 07, rule R200
/-- AP_CMD.PART -/
def apCmd_PART : Fld := ⟨137, 0, 3, .wo, 0, []⟩
/-- AP_CMD.OP -/
def apCmd_OP : Fld := ⟨138, 3, 3, .wo, 0, []⟩
/-- AP_CMD.CLUSTER -/
def apCmd_CLUSTER : Fld := ⟨139, 6, 7, .wo, 0, []⟩
/-- AP_CMD.OFFSET -/
def apCmd_OFFSET : Fld := ⟨140, 14, 20, .wo, 0, []⟩
/-- AP_CMD.MODE -/
def apCmd_MODE : Fld := ⟨141, 34, 4, .wo, 0, []⟩
-- AP_STATUS: spec file 07, rule R200
/-- AP_STATUS.BUSY -/
def apStatus_BUSY : Fld := ⟨142, 0, 1, .ro, 0, []⟩
/-- AP_STATUS.OVERRUN -/
def apStatus_OVERRUN : Fld := ⟨143, 1, 1, .w1c, 0, []⟩
/-- AP_STATUS.VERDICT -/
def apStatus_VERDICT : Fld := ⟨144, 8, 8, .ro, 0, []⟩
/-- AP_STATUS.PART -/
def apStatus_PART : Fld := ⟨145, 16, 3, .ro, 0, []⟩
/-- AP_STATUS.OP -/
def apStatus_OP : Fld := ⟨146, 19, 3, .ro, 0, []⟩
-- AP_DETAIL: spec file 07, rule R200
/-- AP_DETAIL.RESOURCE -/
def apDetail_RESOURCE : Fld := ⟨147, 0, 4, .ro, 15, []⟩
/-- AP_DETAIL.WORD -/
def apDetail_WORD : Fld := ⟨148, 4, 20, .ro, 0, []⟩
/-- AP_DETAIL.EXCESS -/
def apDetail_EXCESS : Fld := ⟨149, 24, 24, .ro, 0, []⟩
-- AP_TIME: spec file 07, rule R200
/-- AP_TIME.TICKS -/
def apTime_TICKS : Fld := ⟨150, 0, 32, .ro, 0, []⟩
-- PART_STAT: spec file 07, rule R200
/-- PART_STAT.STATE -/
def partStat_STATE : Fld := ⟨151, 0, 3, .ro, 0, []⟩
/-- PART_STAT.CRIT -/
def partStat_CRIT : Fld := ⟨152, 3, 2, .ro, 0, []⟩
/-- PART_STAT.EPOCH -/
def partStat_EPOCH : Fld := ⟨153, 5, 1, .ro, 0, []⟩
/-- PART_STAT.MODE -/
def partStat_MODE : Fld := ⟨154, 6, 4, .ro, 0, []⟩
/-- PART_STAT.REASON -/
def partStat_REASON : Fld := ⟨155, 10, 4, .ro, 0, []⟩
/-- PART_STAT.LOST -/
def partStat_LOST : Fld := ⟨156, 14, 1, .rws, 0, []⟩
/-- PART_STAT.ACK -/
def partStat_ACK : Fld := ⟨157, 15, 1, .wo, 0, []⟩
/-- PART_STAT.MISSES -/
def partStat_MISSES : Fld := ⟨158, 16, 16, .ro, 0, []⟩
-- PART_CFG: spec file 07, rule R200
/-- PART_CFG.CEIL -/
def partCfg_CEIL : Fld := ⟨159, 0, 4, .ro, 0, []⟩
/-- PART_CFG.REVOKE_ACT -/
def partCfg_REVOKE_ACT : Fld := ⟨160, 4, 1, .ro, 0, []⟩
/-- PART_CFG.CLUSTERS -/
def partCfg_CLUSTERS : Fld := ⟨161, 8, 8, .ro, 0, []⟩
/-- PART_CFG.CERT_ID -/
def partCfg_CERT_ID : Fld := ⟨162, 16, 32, .ro, 0, []⟩
-- MISS_INFO: spec file 07, rule R200
/-- MISS_INFO.PART -/
def missInfo_PART : Fld := ⟨163, 0, 3, .ro, 0, []⟩
/-- MISS_INFO.EMIT -/
def missInfo_EMIT : Fld := ⟨164, 3, 1, .ro, 0, []⟩
/-- MISS_INFO.KIND -/
def missInfo_KIND : Fld := ⟨165, 4, 4, .ro, 0, []⟩
/-- MISS_INFO.PKG -/
def missInfo_PKG : Fld := ⟨166, 8, 4, .ro, 0, []⟩
/-- MISS_INFO.INDEX -/
def missInfo_INDEX : Fld := ⟨167, 12, 16, .ro, 0, []⟩
/-- MISS_INFO.VALID -/
def missInfo_VALID : Fld := ⟨168, 47, 1, .w1c, 0, []⟩
-- MISS_TAG: spec file 07, rule R200
/-- MISS_TAG.TAG -/
def missTag_TAG : Fld := ⟨169, 0, 48, .ro, 0, []⟩
-- MISS_T: spec file 07, rule R200
/-- MISS_T.T -/
def missT_T : Fld := ⟨170, 0, 48, .ro, 0, []⟩
-- MISS_DUE: spec file 07, rule R200
/-- MISS_DUE.DUE -/
def missDue_DUE : Fld := ⟨171, 0, 48, .ro, 0, []⟩
-- MODE_TC: spec file 07, rule R200
/-- MODE_TC.T_C -/
def modeTc_T_C : Fld := ⟨172, 0, 48, .rw, 0, []⟩
-- MODE_STAT: spec file 07, rule R200
/-- MODE_STAT.STAGING -/
def modeStat_STAGING : Fld := ⟨173, 0, 1, .ro, 0, []⟩
/-- MODE_STAT.DRAINING -/
def modeStat_DRAINING : Fld := ⟨174, 1, 1, .ro, 0, []⟩
/-- MODE_STAT.DONE -/
def modeStat_DONE : Fld := ⟨175, 2, 1, .w1c, 0, []⟩
/-- MODE_STAT.ABORTED -/
def modeStat_ABORTED : Fld := ⟨176, 3, 1, .w1c, 0, []⟩
/-- MODE_STAT.SWEPT -/
def modeStat_SWEPT : Fld := ⟨177, 4, 1, .w1c, 0, []⟩
/-- MODE_STAT.TARGET -/
def modeStat_TARGET : Fld := ⟨178, 8, 4, .ro, 0, []⟩
/-- MODE_STAT.OLD_LIVE -/
def modeStat_OLD_LIVE : Fld := ⟨179, 16, 32, .ro, 0, []⟩
-- MIG_CTL: spec file 07, rule R200
/-- MIG_CTL.TO -/
def migCtl_TO : Fld := ⟨180, 0, 7, .ro, 0, []⟩
/-- MIG_CTL.ACTIVE -/
def migCtl_ACTIVE : Fld := ⟨181, 7, 1, .ro, 0, []⟩
-- MIG_STAT: spec file 07, rule R200
/-- MIG_STAT.DRAIN -/
def migStat_DRAIN : Fld := ⟨182, 0, 32, .ro, 0, []⟩
/-- MIG_STAT.FORWARDED -/
def migStat_FORWARDED : Fld := ⟨183, 32, 16, .ro, 0, []⟩
-- RT_ALT: spec file 07, rule R200
/-- RT_ALT.CLUSTER -/
def rtAlt_CLUSTER : Fld := ⟨184, 0, 4, .ro, 0, []⟩
/-- RT_ALT.DIE -/
def rtAlt_DIE : Fld := ⟨185, 4, 4, .ro, 0, []⟩
/-- RT_ALT.PKG -/
def rtAlt_PKG : Fld := ⟨186, 8, 4, .ro, 0, []⟩
/-- RT_ALT.VALID -/
def rtAlt_VALID : Fld := ⟨187, 15, 1, .ro, 0, []⟩
-- LENS_CTL: spec file 08, rule R236
/-- LENS_CTL.REF_SRC -/
def lensCtl_REF_SRC : Fld := ⟨188, 0, 2, .rw, 0, [(0, 2)]⟩
/-- LENS_CTL.PPS_EN -/
def lensCtl_PPS_EN : Fld := ⟨189, 2, 1, .rw, 0, []⟩
/-- LENS_CTL.PPS_POL -/
def lensCtl_PPS_POL : Fld := ⟨190, 3, 1, .rw, 0, []⟩
/-- LENS_CTL.SLEW_PPM -/
def lensCtl_SLEW_PPM : Fld := ⟨191, 8, 8, .rw, 50, [(1, 100)]⟩
-- LENS_STAT: spec file 08, rule R236
/-- LENS_STAT.TB_STATE -/
def lensStat_TB_STATE : Fld := ⟨192, 0, 3, .ro, 0, []⟩
/-- LENS_STAT.REF_PRESENT -/
def lensStat_REF_PRESENT : Fld := ⟨193, 3, 1, .ro, 0, []⟩
/-- LENS_STAT.PPS_PRESENT -/
def lensStat_PPS_PRESENT : Fld := ⟨194, 4, 1, .ro, 0, []⟩
/-- LENS_STAT.PPS_ALIGNED -/
def lensStat_PPS_ALIGNED : Fld := ⟨195, 5, 1, .ro, 0, []⟩
/-- LENS_STAT.HOLD_EVT -/
def lensStat_HOLD_EVT : Fld := ⟨196, 6, 1, .w1c, 0, []⟩
/-- LENS_STAT.SKEW_EVT -/
def lensStat_SKEW_EVT : Fld := ⟨197, 7, 1, .w1c, 0, []⟩
/-- LENS_STAT.FREQ_ADJ -/
def lensStat_FREQ_ADJ : Fld := ⟨198, 8, 24, .ro, 0, []⟩
-- T_NOW: spec file 08, rule R236
/-- T_NOW.T -/
def tNow_T : Fld := ⟨199, 0, 48, .ro, 0, []⟩
/-- T_NOW.ERA -/
def tNow_ERA : Fld := ⟨200, 48, 16, .ro, 0, []⟩
-- T_LOAD: spec file 08, rule R236
/-- T_LOAD.T -/
def tLoad_T : Fld := ⟨201, 0, 48, .wo, 0, []⟩
/-- T_LOAD.ERA -/
def tLoad_ERA : Fld := ⟨202, 48, 16, .wo, 0, []⟩
-- PPS_CFG: spec file 08, rule R236
/-- PPS_CFG.DELAY -/
def ppsCfg_DELAY : Fld := ⟨203, 0, 32, .rw, 0, []⟩
-- PPS_MEAS: spec file 08, rule R236
/-- PPS_MEAS.ERROR -/
def ppsMeas_ERROR : Fld := ⟨204, 0, 32, .ro, 0, []⟩
/-- PPS_MEAS.COUNT -/
def ppsMeas_COUNT : Fld := ⟨205, 32, 16, .ro, 0, []⟩
-- CHAIN_TM: spec file 08, rule R236
/-- CHAIN_TM.DELAY -/
def chainTm_DELAY : Fld := ⟨206, 0, 16, .ro, 0, []⟩
/-- CHAIN_TM.OFFSET -/
def chainTm_OFFSET : Fld := ⟨207, 16, 16, .ro, 0, []⟩
/-- CHAIN_TM.LOCK -/
def chainTm_LOCK : Fld := ⟨208, 32, 1, .ro, 0, []⟩
-- COORD_CFG: spec file 08, rule R236
/-- COORD_CFG.SRC -/
def coordCfg_SRC : Fld := ⟨209, 0, 3, .rw, 0, [(0, 6)]⟩
/-- COORD_CFG.INV -/
def coordCfg_INV : Fld := ⟨210, 3, 1, .rw, 0, []⟩
/-- COORD_CFG.ZGATE -/
def coordCfg_ZGATE : Fld := ⟨211, 4, 1, .rw, 0, []⟩
/-- COORD_CFG.LET_EN -/
def coordCfg_LET_EN : Fld := ⟨212, 5, 1, .rw, 0, []⟩
/-- COORD_CFG.LINES -/
def coordCfg_LINES : Fld := ⟨213, 6, 16, .rw, 0, []⟩
/-- COORD_CFG.STALL -/
def coordCfg_STALL : Fld := ⟨214, 22, 4, .rw, 10, []⟩
/-- COORD_CFG.FILT -/
def coordCfg_FILT : Fld := ⟨215, 26, 8, .rw, 0, []⟩
-- COORD_MODEL: spec file 08, rule R236
/-- COORD_MODEL.ACC_MAX -/
def coordModel_ACC_MAX : Fld := ⟨216, 0, 24, .rw, 1000, [(1, 16777215)]⟩
/-- COORD_MODEL.RES -/
def coordModel_RES : Fld := ⟨217, 24, 16, .rw, 0, []⟩
-- COORD_STAT: spec file 08, rule R236
/-- COORD_STAT.REFD -/
def coordStat_REFD : Fld := ⟨218, 0, 1, .ro, 0, []⟩
/-- COORD_STAT.DIR -/
def coordStat_DIR : Fld := ⟨219, 1, 1, .ro, 0, []⟩
/-- COORD_STAT.STOP -/
def coordStat_STOP : Fld := ⟨220, 2, 1, .ro, 0, []⟩
/-- COORD_STAT.REV_EVT -/
def coordStat_REV_EVT : Fld := ⟨221, 3, 1, .w1c, 0, []⟩
/-- COORD_STAT.JUMP -/
def coordStat_JUMP : Fld := ⟨222, 4, 1, .w1c, 0, []⟩
/-- COORD_STAT.ERR_EVT -/
def coordStat_ERR_EVT : Fld := ⟨223, 5, 1, .w1c, 0, []⟩
/-- COORD_STAT.QERR -/
def coordStat_QERR : Fld := ⟨224, 16, 16, .ro, 0, []⟩
/-- COORD_STAT.IDXERR -/
def coordStat_IDXERR : Fld := ⟨225, 32, 8, .ro, 0, []⟩
/-- COORD_STAT.MODELV -/
def coordStat_MODELV : Fld := ⟨226, 40, 8, .ro, 0, []⟩
-- COORD_ZOFS: spec file 08, rule R236
/-- COORD_ZOFS.ZOFS -/
def coordZofs_ZOFS : Fld := ⟨227, 0, 24, .rw, 0, []⟩
-- MAINS_CFG: spec file 08, rule R236
/-- MAINS_CFG.EN -/
def mainsCfg_EN : Fld := ⟨228, 0, 1, .rw, 0, []⟩
/-- MAINS_CFG.POL -/
def mainsCfg_POL : Fld := ⟨229, 1, 1, .rw, 0, []⟩
/-- MAINS_CFG.PHASE_OFS -/
def mainsCfg_PHASE_OFS : Fld := ⟨230, 2, 24, .rw, 0, []⟩
/-- MAINS_CFG.FILT -/
def mainsCfg_FILT : Fld := ⟨231, 26, 8, .rw, 0, []⟩
/-- MAINS_CFG.FSLEW -/
def mainsCfg_FSLEW : Fld := ⟨232, 34, 8, .rw, 2, [(1, 255)]⟩
-- MAINS_STAT: spec file 08, rule R236
/-- MAINS_STAT.LOCK -/
def mainsStat_LOCK : Fld := ⟨233, 0, 1, .ro, 0, []⟩
/-- MAINS_STAT.HOLD -/
def mainsStat_HOLD : Fld := ⟨234, 1, 1, .ro, 0, []⟩
/-- MAINS_STAT.LOST_EVT -/
def mainsStat_LOST_EVT : Fld := ⟨235, 2, 1, .w1c, 0, []⟩
/-- MAINS_STAT.GLITCH_EVT -/
def mainsStat_GLITCH_EVT : Fld := ⟨236, 3, 1, .w1c, 0, []⟩
/-- MAINS_STAT.PERIOD -/
def mainsStat_PERIOD : Fld := ⟨237, 8, 24, .ro, 0, []⟩
-- LET_ADDR: spec file 08, rule R236
/-- LET_ADDR.INDEX -/
def letAddr_INDEX : Fld := ⟨238, 0, 12, .rw, 0, []⟩
/-- LET_ADDR.ENC -/
def letAddr_ENC : Fld := ⟨239, 12, 2, .rw, 0, []⟩
/-- LET_ADDR.AUTOINC -/
def letAddr_AUTOINC : Fld := ⟨240, 14, 1, .rw, 1, []⟩
-- LET_DATA: spec file 08, rule R236
/-- LET_DATA.CORR -/
def letData_CORR : Fld := ⟨241, 0, 24, .rw, 0, []⟩
-- RSC_ADDR: spec file 08, rule R236
/-- RSC_ADDR.INDEX -/
def rscAddr_INDEX : Fld := ⟨242, 0, 15, .rw, 0, []⟩
/-- RSC_ADDR.AUTOINC -/
def rscAddr_AUTOINC : Fld := ⟨243, 15, 1, .rw, 1, []⟩
-- RSC_DATA: spec file 08, rule R236
/-- RSC_DATA.COEF -/
def rscData_COEF : Fld := ⟨244, 0, 24, .rw, 0, []⟩
-- RS_CFG: spec file 08, rule R236
/-- RS_CFG.EN -/
def rsCfg_EN : Fld := ⟨245, 0, 1, .rw, 0, []⟩
/-- RS_CFG.A_COORD -/
def rsCfg_A_COORD : Fld := ⟨246, 1, 2, .rw, 0, []⟩
/-- RS_CFG.CONFLICT -/
def rsCfg_CONFLICT : Fld := ⟨247, 16, 1, .ro, 0, []⟩
/-- RS_CFG.SKIP_EVT -/
def rsCfg_SKIP_EVT : Fld := ⟨248, 17, 1, .w1c, 0, []⟩
/-- RS_CFG.SKIPS -/
def rsCfg_SKIPS : Fld := ⟨249, 32, 16, .ro, 0, []⟩
-- RS_START: spec file 08, rule R236
/-- RS_START.VALUE -/
def rsStart_VALUE : Fld := ⟨250, 0, 48, .rw, 0, []⟩
-- RS_STEP: spec file 08, rule R236
/-- RS_STEP.VALUE -/
def rsStep_VALUE : Fld := ⟨251, 0, 48, .rw, 0, [(1, 281474976710655)]⟩
-- RS_MASK: spec file 08, rule R236
/-- RS_MASK.CH -/
def rsMask_CH : Fld := ⟨252, 0, 32, .rw, 0, []⟩
-- TRIG_CFG: spec file 08, rule R236
/-- TRIG_CFG.EN -/
def trigCfg_EN : Fld := ⟨253, 0, 1, .rw, 0, []⟩
/-- TRIG_CFG.COORD -/
def trigCfg_COORD : Fld := ⟨254, 1, 3, .rw, 0, [(0, 4)]⟩
/-- TRIG_CFG.DIR -/
def trigCfg_DIR : Fld := ⟨255, 4, 1, .rw, 0, []⟩
/-- TRIG_CFG.PERIODIC -/
def trigCfg_PERIODIC : Fld := ⟨256, 5, 1, .rw, 0, []⟩
/-- TRIG_CFG.DATA -/
def trigCfg_DATA : Fld := ⟨257, 6, 2, .rw, 0, []⟩
/-- TRIG_CFG.PART -/
def trigCfg_PART : Fld := ⟨258, 8, 3, .rw, 0, []⟩
/-- TRIG_CFG.FIRES -/
def trigCfg_FIRES : Fld := ⟨259, 12, 16, .ro, 0, []⟩
/-- TRIG_CFG.SKIPS -/
def trigCfg_SKIPS : Fld := ⟨260, 28, 16, .ro, 0, []⟩
/-- TRIG_CFG.SKIP_EVT -/
def trigCfg_SKIP_EVT : Fld := ⟨261, 44, 1, .w1c, 0, []⟩
/-- TRIG_CFG.DROP_EVT -/
def trigCfg_DROP_EVT : Fld := ⟨262, 45, 1, .w1c, 0, []⟩
-- TRIG_TARGET: spec file 08, rule R236
/-- TRIG_TARGET.VALUE -/
def trigTarget_VALUE : Fld := ⟨263, 0, 48, .rw, 0, []⟩
-- TRIG_STEP: spec file 08, rule R236
/-- TRIG_STEP.VALUE -/
def trigStep_VALUE : Fld := ⟨264, 0, 48, .rw, 0, [(1, 140737488355327)]⟩
-- TRIG_DST: spec file 08, rule R236
/-- TRIG_DST.ADDR -/
def trigDst_ADDR : Fld := ⟨265, 0, 15, .rw, 0, []⟩
/-- TRIG_DST.PORT -/
def trigDst_PORT : Fld := ⟨266, 15, 2, .rw, 0, [(0, 2)]⟩
/-- TRIG_DST.CLUSTER -/
def trigDst_CLUSTER : Fld := ⟨267, 17, 4, .rw, 0, []⟩
/-- TRIG_DST.DIE -/
def trigDst_DIE : Fld := ⟨268, 21, 4, .rw, 0, [(0, 7)]⟩
/-- TRIG_DST.PKG -/
def trigDst_PKG : Fld := ⟨269, 25, 4, .rw, 0, []⟩
-- SC_CTL: spec file 09, rule R268
/-- SC_CTL.LOCK -/
def scCtl_LOCK : Fld := ⟨270, 0, 1, .rw, 0, []⟩
-- LANE_CFG: spec file 09, rule R268
/-- LANE_CFG.DIR -/
def laneCfg_DIR : Fld := ⟨271, 0, 2, .rwl, 0, [(0, 2)]⟩
/-- LANE_CFG.FMT -/
def laneCfg_FMT : Fld := ⟨272, 2, 1, .rwl, 0, []⟩
/-- LANE_CFG.EN -/
def laneCfg_EN : Fld := ⟨273, 3, 1, .rw, 0, []⟩
/-- LANE_CFG.HF_EN -/
def laneCfg_HF_EN : Fld := ⟨274, 4, 1, .rw, 0, []⟩
/-- LANE_CFG.LANE_ILK -/
def laneCfg_LANE_ILK : Fld := ⟨275, 8, 8, .rw, 0, []⟩
/-- LANE_CFG.EXPECT -/
def laneCfg_EXPECT : Fld := ⟨276, 16, 10, .rw, 0, [(0, 0), (34, 1023)]⟩
/-- LANE_CFG.CERR_LIM -/
def laneCfg_CERR_LIM : Fld := ⟨277, 32, 8, .rw, 16, []⟩
-- LANE_TIME: spec file 09, rule R268
/-- LANE_TIME.LATC -/
def laneTime_LATC : Fld := ⟨278, 0, 32, .rw, 0, []⟩
-- LANE_TX: spec file 09, rule R268
/-- LANE_TX.OFPER -/
def laneTx_OFPER : Fld := ⟨279, 0, 24, .rw, 10000, [(10000, 16777215)]⟩
-- LANE_STAT: spec file 09, rule R268
/-- LANE_STAT.STATE -/
def laneStat_STATE : Fld := ⟨280, 0, 3, .ro, 0, []⟩
/-- LANE_STAT.FAULT -/
def laneStat_FAULT : Fld := ⟨281, 3, 1, .ro, 0, []⟩
/-- LANE_STAT.FAULT_EVT -/
def laneStat_FAULT_EVT : Fld := ⟨282, 4, 1, .w1c, 0, []⟩
/-- LANE_STAT.SEQ_EVT -/
def laneStat_SEQ_EVT : Fld := ⟨283, 5, 1, .w1c, 0, []⟩
/-- LANE_STAT.HEADER -/
def laneStat_HEADER : Fld := ⟨284, 8, 8, .ro, 0, []⟩
/-- LANE_STAT.CERR -/
def laneStat_CERR : Fld := ⟨285, 16, 16, .ro, 0, []⟩
/-- LANE_STAT.SEQERR -/
def laneStat_SEQERR : Fld := ⟨286, 32, 16, .ro, 0, []⟩
-- LANE_STAMP: spec file 09, rule R268
/-- LANE_STAMP.FRAC -/
def laneStamp_FRAC : Fld := ⟨287, 0, 4, .ro, 0, []⟩
/-- LANE_STAMP.T -/
def laneStamp_T : Fld := ⟨288, 4, 48, .ro, 0, []⟩
-- PF_CFG: spec file 09, rule R268
/-- PF_CFG.WIDTH -/
def pfCfg_WIDTH : Fld := ⟨289, 0, 2, .rwl, 0, [(0, 2)]⟩
/-- PF_CFG.PROT -/
def pfCfg_PROT : Fld := ⟨290, 2, 1, .rwl, 1, []⟩
/-- PF_CFG.FULL_ACT -/
def pfCfg_FULL_ACT : Fld := ⟨291, 3, 1, .rwl, 1, []⟩
/-- PF_CFG.IDLE -/
def pfCfg_IDLE : Fld := ⟨292, 8, 20, .rw, 64, []⟩
-- PF_STAT: spec file 09, rule R268
/-- PF_STAT.LEVEL -/
def pfStat_LEVEL : Fld := ⟨293, 0, 5, .ro, 0, []⟩
/-- PF_STAT.OVF_EVT -/
def pfStat_OVF_EVT : Fld := ⟨294, 5, 1, .w1c, 0, []⟩
/-- PF_STAT.PERR_EVT -/
def pfStat_PERR_EVT : Fld := ⟨295, 6, 1, .w1c, 0, []⟩
/-- PF_STAT.CORR -/
def pfStat_CORR : Fld := ⟨296, 8, 8, .ro, 0, []⟩
/-- PF_STAT.DROPPED -/
def pfStat_DROPPED : Fld := ⟨297, 16, 16, .ro, 0, []⟩
/-- PF_STAT.OVF -/
def pfStat_OVF : Fld := ⟨298, 32, 16, .ro, 0, []⟩
-- PF_CMD: spec file 09, rule R268
/-- PF_CMD.DROP -/
def pfCmd_DROP : Fld := ⟨299, 0, 1, .wo, 0, []⟩
-- CH_CFG: spec file 09, rule R268
/-- CH_CFG.EN -/
def chCfg_EN : Fld := ⟨300, 0, 1, .rw, 0, []⟩
/-- CH_CFG.PART -/
def chCfg_PART : Fld := ⟨301, 1, 3, .rw, 0, []⟩
/-- CH_CFG.LAYOUT -/
def chCfg_LAYOUT : Fld := ⟨302, 4, 2, .rw, 0, []⟩
-- CH_DST: spec file 09, rule R268
/-- CH_DST.ADDR -/
def chDst_ADDR : Fld := ⟨303, 0, 15, .rw, 0, []⟩
/-- CH_DST.PORT -/
def chDst_PORT : Fld := ⟨304, 15, 2, .rw, 0, [(0, 2)]⟩
/-- CH_DST.CLUSTER -/
def chDst_CLUSTER : Fld := ⟨305, 17, 4, .rw, 0, []⟩
/-- CH_DST.DIE -/
def chDst_DIE : Fld := ⟨306, 21, 4, .rw, 0, [(0, 7)]⟩
/-- CH_DST.PKG -/
def chDst_PKG : Fld := ⟨307, 25, 4, .rw, 0, []⟩
-- CH_LIM: spec file 09, rule R268
/-- CH_LIM.LOW -/
def chLim_LOW : Fld := ⟨308, 0, 24, .rw, 8388608, []⟩
/-- CH_LIM.HIGH -/
def chLim_HIGH : Fld := ⟨309, 24, 24, .rw, 8388607, []⟩
-- CH_CMP: spec file 09, rule R268
/-- CH_CMP.HEN -/
def chCmp_HEN : Fld := ⟨310, 0, 1, .rw, 0, []⟩
/-- CH_CMP.LEN -/
def chCmp_LEN : Fld := ⟨311, 1, 1, .rw, 0, []⟩
/-- CH_CMP.CONSEC -/
def chCmp_CONSEC : Fld := ⟨312, 2, 4, .rw, 0, []⟩
/-- CH_CMP.BADS -/
def chCmp_BADS : Fld := ⟨313, 6, 1, .rw, 0, []⟩
/-- CH_CMP.HMAP -/
def chCmp_HMAP : Fld := ⟨314, 8, 8, .rw, 0, []⟩
/-- CH_CMP.LMAP -/
def chCmp_LMAP : Fld := ⟨315, 16, 8, .rw, 0, []⟩
-- CH_STAT: spec file 09, rule R268
/-- CH_STAT.SAMPLE -/
def chStat_SAMPLE : Fld := ⟨316, 0, 24, .ro, 0, []⟩
/-- CH_STAT.STATUS -/
def chStat_STATUS : Fld := ⟨317, 24, 8, .ro, 0, []⟩
/-- CH_STAT.HTRIP -/
def chStat_HTRIP : Fld := ⟨318, 32, 1, .w1c, 0, []⟩
/-- CH_STAT.LTRIP -/
def chStat_LTRIP : Fld := ⟨319, 33, 1, .w1c, 0, []⟩
/-- CH_STAT.DROP_EVT -/
def chStat_DROP_EVT : Fld := ⟨320, 34, 1, .w1c, 0, []⟩
/-- CH_STAT.FORCED -/
def chStat_FORCED : Fld := ⟨321, 35, 1, .ro, 0, []⟩
-- CH_SAFE: spec file 09, rule R268
/-- CH_SAFE.SAFE -/
def chSafe_SAFE : Fld := ⟨322, 0, 24, .rw, 0, []⟩
/-- CH_SAFE.SAFE_ILK -/
def chSafe_SAFE_ILK : Fld := ⟨323, 24, 8, .rw, 255, []⟩
-- ILK_STAT: spec file 09, rule R268
/-- ILK_STAT.OUT -/
def ilkStat_OUT : Fld := ⟨324, 0, 8, .ro, 255, []⟩
/-- ILK_STAT.LATCH -/
def ilkStat_LATCH : Fld := ⟨325, 8, 8, .ro, 255, []⟩
/-- ILK_STAT.FLAG -/
def ilkStat_FLAG : Fld := ⟨326, 16, 8, .ro, 0, []⟩
/-- ILK_STAT.FORCE -/
def ilkStat_FORCE : Fld := ⟨327, 24, 8, .ro, 0, []⟩
/-- ILK_STAT.FATAL -/
def ilkStat_FATAL : Fld := ⟨328, 32, 1, .ro, 0, []⟩
-- ILK_LOG: spec file 09, rule R268
/-- ILK_LOG.SRC -/
def ilkLog_SRC : Fld := ⟨329, 0, 3, .ro, 0, []⟩
/-- ILK_LOG.TEST -/
def ilkLog_TEST : Fld := ⟨330, 3, 1, .ro, 0, []⟩
/-- ILK_LOG.INDEX -/
def ilkLog_INDEX : Fld := ⟨331, 4, 8, .ro, 0, []⟩
/-- ILK_LOG.VALUE -/
def ilkLog_VALUE : Fld := ⟨332, 12, 24, .ro, 0, []⟩
/-- ILK_LOG.VALID -/
def ilkLog_VALID : Fld := ⟨333, 47, 1, .w1c, 0, []⟩
-- ILK_LOGT: spec file 09, rule R268
/-- ILK_LOGT.FRAC -/
def ilkLogt_FRAC : Fld := ⟨334, 0, 4, .ro, 0, []⟩
/-- ILK_LOGT.T -/
def ilkLogt_T : Fld := ⟨335, 4, 48, .ro, 0, []⟩
-- ILK_TEST: spec file 09, rule R268
/-- ILK_TEST.VALUE -/
def ilkTest_VALUE : Fld := ⟨336, 0, 24, .rw, 0, []⟩
/-- ILK_TEST.CH -/
def ilkTest_CH : Fld := ⟨337, 24, 8, .rw, 0, []⟩
/-- ILK_TEST.ARM -/
def ilkTest_ARM : Fld := ⟨338, 32, 1, .rw, 0, []⟩
-- RTR_CFG: spec file 10, rule R286
/-- RTR_CFG.TIMEOUT -/
def rtrCfg_TIMEOUT : Fld := ⟨339, 0, 20, .rw, 1000, [(1, 1048575)]⟩
-- RTR_STAT: spec file 10, rule R286
/-- RTR_STAT.TIMEOUTS -/
def rtrStat_TIMEOUTS : Fld := ⟨340, 0, 16, .ro, 0, []⟩
/-- RTR_STAT.CORR -/
def rtrStat_CORR : Fld := ⟨341, 16, 16, .ro, 0, []⟩
/-- RTR_STAT.DROPS -/
def rtrStat_DROPS : Fld := ⟨342, 32, 8, .ro, 0, []⟩
/-- RTR_STAT.STRAY -/
def rtrStat_STRAY : Fld := ⟨343, 40, 8, .ro, 0, []⟩
-- TO_ADDR: spec file 10, rule R286
/-- TO_ADDR.ADDR -/
def toAddr_ADDR : Fld := ⟨344, 0, 48, .ro, 0, []⟩
-- TO_INFO: spec file 10, rule R286
/-- TO_INFO.RET -/
def toInfo_RET : Fld := ⟨345, 0, 19, .ro, 0, []⟩
/-- TO_INFO.OP -/
def toInfo_OP : Fld := ⟨346, 19, 4, .ro, 0, []⟩
/-- TO_INFO.PART -/
def toInfo_PART : Fld := ⟨347, 23, 3, .ro, 0, []⟩
/-- TO_INFO.T -/
def toInfo_T : Fld := ⟨348, 26, 21, .ro, 0, []⟩
/-- TO_INFO.VALID -/
def toInfo_VALID : Fld := ⟨349, 47, 1, .w1c, 0, []⟩
-- FLIT_LOG0: spec file 10, rule R286
/-- FLIT_LOG0.RAW -/
def flitLog0_RAW : Fld := ⟨350, 0, 64, .ro, 0, []⟩
-- FLIT_LOG1: spec file 10, rule R286
/-- FLIT_LOG1.RAW -/
def flitLog1_RAW : Fld := ⟨351, 0, 64, .ro, 0, []⟩
-- FLIT_LOG2: spec file 10, rule R286
/-- FLIT_LOG2.RAW -/
def flitLog2_RAW : Fld := ⟨352, 0, 32, .ro, 0, []⟩
/-- FLIT_LOG2.VALID -/
def flitLog2_VALID : Fld := ⟨353, 47, 1, .w1c, 0, []⟩
-- LQ: spec file 10, rule R286
/-- LQ.QUOTA -/
def lq_QUOTA : Fld := ⟨354, 0, 13, .ro, 0, []⟩
/-- LQ.COUNT -/
def lq_COUNT : Fld := ⟨355, 13, 13, .ro, 0, []⟩
-- HUB_TO: spec file 10, rule R286
/-- HUB_TO.TIMEOUT -/
def hubTo_TIMEOUT : Fld := ⟨356, 0, 20, .rw, 1000, [(1, 1048575)]⟩
/-- HUB_TO.TIMEOUTS -/
def hubTo_TIMEOUTS : Fld := ⟨357, 20, 16, .ro, 0, []⟩
-- SEG_SEL: spec file 10, rule R286
/-- SEG_SEL.SEG -/
def segSel_SEG : Fld := ⟨358, 0, 16, .rw, 0, [(16384, 49151)]⟩
/-- SEG_SEL.PART -/
def segSel_PART : Fld := ⟨359, 16, 3, .rw, 0, []⟩
-- SEG_QUOTA: spec file 10, rule R286
/-- SEG_QUOTA.QUOTA -/
def segQuota_QUOTA : Fld := ⟨360, 0, 13, .ro, 0, []⟩
/-- SEG_QUOTA.COUNT -/
def segQuota_COUNT : Fld := ⟨361, 13, 13, .ro, 0, []⟩
-- BAR_CFG: spec file 10, rule R286
/-- BAR_CFG.SCOPE -/
def barCfg_SCOPE : Fld := ⟨362, 0, 2, .rw, 0, []⟩
/-- BAR_CFG.UNIT -/
def barCfg_UNIT : Fld := ⟨363, 2, 7, .rw, 0, []⟩
/-- BAR_CFG.CORES -/
def barCfg_CORES : Fld := ⟨364, 9, 8, .rw, 0, []⟩
/-- BAR_CFG.ARM -/
def barCfg_ARM : Fld := ⟨365, 17, 1, .wo, 0, []⟩
/-- BAR_CFG.DISARM -/
def barCfg_DISARM : Fld := ⟨366, 18, 1, .wo, 0, []⟩
-- BAR_MASK0: spec file 10, rule R286
/-- BAR_MASK0.CL -/
def barMask0_CL : Fld := ⟨367, 0, 64, .rw, 0, []⟩
-- BAR_MASK1: spec file 10, rule R286
/-- BAR_MASK1.CL -/
def barMask1_CL : Fld := ⟨368, 0, 64, .rw, 0, []⟩
-- BAR_STAT: spec file 10, rule R286
/-- BAR_STAT.ARMED -/
def barStat_ARMED : Fld := ⟨369, 0, 1, .ro, 0, []⟩
/-- BAR_STAT.DONE -/
def barStat_DONE : Fld := ⟨370, 1, 1, .w1c, 0, []⟩
/-- BAR_STAT.STRAY -/
def barStat_STRAY : Fld := ⟨371, 2, 1, .w1c, 0, []⟩
/-- BAR_STAT.COMPLETIONS -/
def barStat_COMPLETIONS : Fld := ⟨372, 16, 16, .ro, 0, []⟩
-- BAR_ARRIVE: spec file 10, rule R286
/-- BAR_ARRIVE.CHANNEL -/
def barArrive_CHANNEL : Fld := ⟨373, 0, 4, .wo, 0, []⟩
-- GSCHED: spec file 10, rule R286
/-- GSCHED.KIND -/
def gsched_KIND : Fld := ⟨374, 0, 4, .wo, 0, []⟩
/-- GSCHED.SYSTEM -/
def gsched_SYSTEM : Fld := ⟨375, 4, 1, .wo, 0, []⟩
-- GSCHED_T: spec file 10, rule R286
/-- GSCHED_T.T_S -/
def gschedT_T_S : Fld := ⟨376, 0, 48, .rw, 0, []⟩
-- SNAP_STAT: spec file 10, rule R286
/-- SNAP_STAT.STAGED -/
def snapStat_STAGED : Fld := ⟨377, 0, 1, .ro, 0, []⟩
/-- SNAP_STAT.DONE -/
def snapStat_DONE : Fld := ⟨378, 1, 1, .w1c, 0, []⟩
/-- SNAP_STAT.ABORTED -/
def snapStat_ABORTED : Fld := ⟨379, 2, 1, .w1c, 0, []⟩
/-- SNAP_STAT.REFUSED -/
def snapStat_REFUSED : Fld := ⟨380, 3, 1, .w1c, 0, []⟩
/-- SNAP_STAT.SEQ -/
def snapStat_SEQ : Fld := ⟨381, 16, 32, .ro, 0, []⟩
-- SNAP_BASE: spec file 10, rule R286
/-- SNAP_BASE.OFFSET -/
def snapBase_OFFSET : Fld := ⟨382, 0, 20, .rw, 0, []⟩
-- BANK_OWN: spec file 11, rule R309
/-- BANK_OWN.OWNER -/
def bankOwn_OWNER : Fld := ⟨383, 0, 4, .rw, 15, [(0, 10), (15, 15)]⟩
/-- BANK_OWN.CLR -/
def bankOwn_CLR : Fld := ⟨384, 4, 1, .wo, 0, []⟩
/-- BANK_OWN.PENDING -/
def bankOwn_PENDING : Fld := ⟨385, 5, 1, .ro, 0, []⟩
-- BANK_PWR: spec file 11, rule R309
/-- BANK_PWR.STATE -/
def bankPwr_STATE : Fld := ⟨386, 0, 2, .rw, 0, [(0, 2)]⟩
/-- BANK_PWR.CURRENT -/
def bankPwr_CURRENT : Fld := ⟨387, 2, 2, .ro, 0, []⟩
/-- BANK_PWR.BUSY -/
def bankPwr_BUSY : Fld := ⟨388, 4, 1, .ro, 0, []⟩
/-- BANK_PWR.OFFLINE -/
def bankPwr_OFFLINE : Fld := ⟨389, 5, 1, .ro, 0, []⟩
/-- BANK_PWR.TAKE_OFFLINE -/
def bankPwr_TAKE_OFFLINE : Fld := ⟨390, 6, 1, .wo, 0, []⟩
-- BANK_STAT: spec file 11, rule R309
/-- BANK_STAT.CORR -/
def bankStat_CORR : Fld := ⟨391, 0, 16, .ro, 0, []⟩
/-- BANK_STAT.UNCORR -/
def bankStat_UNCORR : Fld := ⟨392, 16, 8, .ro, 0, []⟩
/-- BANK_STAT.DEFERRED -/
def bankStat_DEFERRED : Fld := ⟨393, 24, 9, .ro, 0, []⟩
/-- BANK_STAT.DEFER_OVF -/
def bankStat_DEFER_OVF : Fld := ⟨394, 33, 1, .w1c, 0, []⟩
/-- BANK_STAT.UNC_EVT -/
def bankStat_UNC_EVT : Fld := ⟨395, 34, 1, .w1c, 0, []⟩
/-- BANK_STAT.SPARES -/
def bankStat_SPARES : Fld := ⟨396, 35, 3, .ro, 0, []⟩
/-- BANK_STAT.BIST -/
def bankStat_BIST : Fld := ⟨397, 38, 2, .ro, 0, []⟩
-- BANK_CTL: spec file 11, rule R309
/-- BANK_CTL.SCRUB_EN -/
def bankCtl_SCRUB_EN : Fld := ⟨398, 0, 1, .rw, 1, []⟩
-- VIOL_ADDR: spec file 11, rule R309
/-- VIOL_ADDR.VALUE -/
def violAddr_VALUE : Fld := ⟨399, 0, 48, .ro, 0, []⟩
-- VIOL_INFO: spec file 11, rule R309
/-- VIOL_INFO.KIND -/
def violInfo_KIND : Fld := ⟨400, 0, 3, .ro, 0, []⟩
/-- VIOL_INFO.SYS -/
def violInfo_SYS : Fld := ⟨401, 3, 1, .ro, 0, []⟩
/-- VIOL_INFO.PART -/
def violInfo_PART : Fld := ⟨402, 4, 3, .ro, 0, []⟩
/-- VIOL_INFO.INIT -/
def violInfo_INIT : Fld := ⟨403, 7, 4, .ro, 0, []⟩
/-- VIOL_INFO.OP -/
def violInfo_OP : Fld := ⟨404, 11, 4, .ro, 0, []⟩
/-- VIOL_INFO.BANK -/
def violInfo_BANK : Fld := ⟨405, 15, 4, .ro, 0, []⟩
/-- VIOL_INFO.T -/
def violInfo_T : Fld := ⟨406, 19, 28, .ro, 0, []⟩
/-- VIOL_INFO.VALID -/
def violInfo_VALID : Fld := ⟨407, 47, 1, .w1c, 0, []⟩
-- VIOL_CNT: spec file 11, rule R309
/-- VIOL_CNT.COUNT -/
def violCnt_COUNT : Fld := ⟨408, 0, 32, .ro, 0, []⟩
-- CC_CTL: spec file 12, rule R336
/-- CC_CTL.RUN -/
def ccCtl_RUN : Fld := ⟨409, 0, 1, .rw, 0, []⟩
/-- CC_CTL.RESET -/
def ccCtl_RESET : Fld := ⟨410, 1, 1, .wo, 0, []⟩
-- CC_BOOT: spec file 12, rule R336
/-- CC_BOOT.PC -/
def ccBoot_PC : Fld := ⟨411, 0, 48, .rw, 0, []⟩
-- CC_STAT: spec file 12, rule R336
/-- CC_STAT.RUNNING -/
def ccStat_RUNNING : Fld := ⟨412, 0, 1, .ro, 0, []⟩
/-- CC_STAT.STOPPED -/
def ccStat_STOPPED : Fld := ⟨413, 1, 1, .ro, 1, []⟩
/-- CC_STAT.HALTED -/
def ccStat_HALTED : Fld := ⟨414, 2, 1, .ro, 0, []⟩
/-- CC_STAT.WAITING -/
def ccStat_WAITING : Fld := ⟨415, 3, 1, .ro, 0, []⟩
/-- CC_STAT.DBG_HALTED -/
def ccStat_DBG_HALTED : Fld := ⟨416, 4, 1, .ro, 0, []⟩
/-- CC_STAT.DOUBLE -/
def ccStat_DOUBLE : Fld := ⟨417, 5, 1, .w1c, 0, []⟩
/-- CC_STAT.LAST_CAUSE -/
def ccStat_LAST_CAUSE : Fld := ⟨418, 8, 4, .ro, 0, []⟩
/-- CC_STAT.TRAPS -/
def ccStat_TRAPS : Fld := ⟨419, 16, 32, .ro, 0, []⟩
-- CC_PC: spec file 12, rule R336
/-- CC_PC.PC -/
def ccPc_PC : Fld := ⟨420, 0, 48, .ro, 0, []⟩
-- CC_DBG: spec file 12, rule R336
/-- CC_DBG.HALT_REQ -/
def ccDbg_HALT_REQ : Fld := ⟨421, 0, 1, .rw, 0, []⟩
/-- CC_DBG.STEP -/
def ccDbg_STEP : Fld := ⟨422, 1, 1, .wo, 0, []⟩
/-- CC_DBG.SEL -/
def ccDbg_SEL : Fld := ⟨423, 3, 6, .rw, 0, []⟩
-- CC_DBG_DATA: spec file 12, rule R336
/-- CC_DBG_DATA.VALUE -/
def ccDbgData_VALUE : Fld := ⟨424, 0, 48, .rw, 0, []⟩
-- THR_CFG: spec file 13, rule R355
/-- THR_CFG.PRIO -/
def thrCfg_PRIO : Fld := ⟨425, 0, 5, .rw, 31, []⟩
/-- THR_CFG.AFF -/
def thrCfg_AFF : Fld := ⟨426, 5, 8, .rw, 0, []⟩
/-- THR_CFG.STATE -/
def thrCfg_STATE : Fld := ⟨427, 13, 2, .ro, 0, []⟩
/-- THR_CFG.LAST -/
def thrCfg_LAST : Fld := ⟨428, 15, 3, .ro, 0, []⟩
/-- THR_CFG.LAST_VALID -/
def thrCfg_LAST_VALID : Fld := ⟨429, 18, 1, .ro, 0, []⟩
/-- THR_CFG.CORE -/
def thrCfg_CORE : Fld := ⟨430, 19, 3, .ro, 0, []⟩
/-- THR_CFG.OP -/
def thrCfg_OP : Fld := ⟨431, 22, 2, .wo, 0, []⟩
-- SCHED_CORE: spec file 13, rule R355
/-- SCHED_CORE.CUR -/
def schedCore_CUR : Fld := ⟨432, 0, 8, .ro, 0, []⟩
/-- SCHED_CORE.CUR_VALID -/
def schedCore_CUR_VALID : Fld := ⟨433, 8, 1, .ro, 0, []⟩
/-- SCHED_CORE.OFFER -/
def schedCore_OFFER : Fld := ⟨434, 9, 8, .ro, 0, []⟩
/-- SCHED_CORE.OFFER_VALID -/
def schedCore_OFFER_VALID : Fld := ⟨435, 17, 1, .ro, 0, []⟩
/-- SCHED_CORE.BADOP -/
def schedCore_BADOP : Fld := ⟨436, 18, 1, .w1c, 0, []⟩
-- SCHED_CLAIM: spec file 13, rule R355
/-- SCHED_CLAIM.SLOT -/
def schedClaim_SLOT : Fld := ⟨437, 0, 8, .ro, 0, []⟩
/-- SCHED_CLAIM.VALID -/
def schedClaim_VALID : Fld := ⟨438, 8, 1, .ro, 0, []⟩
-- SCHED_OP: spec file 13, rule R355
/-- SCHED_OP.OP -/
def schedOp_OP : Fld := ⟨439, 0, 2, .wo, 0, []⟩
-- EV_CFG: spec file 13, rule R355
/-- EV_CFG.EN -/
def evCfg_EN : Fld := ⟨440, 0, 1, .rw, 0, []⟩
/-- EV_CFG.SLOT -/
def evCfg_SLOT : Fld := ⟨441, 1, 8, .rw, 0, []⟩
/-- EV_CFG.SLOT_EN -/
def evCfg_SLOT_EN : Fld := ⟨442, 9, 1, .rw, 0, []⟩
/-- EV_CFG.MSIX_EN -/
def evCfg_MSIX_EN : Fld := ⟨443, 10, 1, .rw, 0, []⟩
/-- EV_CFG.PEND -/
def evCfg_PEND : Fld := ⟨444, 11, 1, .w1c, 0, []⟩
/-- EV_CFG.RAISE -/
def evCfg_RAISE : Fld := ⟨445, 12, 1, .wo, 0, []⟩
/-- EV_CFG.COUNT -/
def evCfg_COUNT : Fld := ⟨446, 16, 16, .ro, 0, []⟩
-- TIMER_CMP: spec file 13, rule R355
/-- TIMER_CMP.T -/
def timerCmp_T : Fld := ⟨447, 0, 48, .rw, 0, []⟩
-- TIMER_CFG: spec file 13, rule R355
/-- TIMER_CFG.EN -/
def timerCfg_EN : Fld := ⟨448, 0, 1, .rw, 0, []⟩
/-- TIMER_CFG.PERIOD -/
def timerCfg_PERIOD : Fld := ⟨449, 1, 32, .rw, 0, []⟩
/-- TIMER_CFG.MISSED -/
def timerCfg_MISSED : Fld := ⟨450, 33, 15, .ro, 0, []⟩
-- DOORBELL: spec file 13, rule R355
/-- DOORBELL.RING -/
def doorbell_RING : Fld := ⟨451, 0, 32, .wo, 0, []⟩
-- LK: spec file 13, rule R355
/-- LK.ACQUIRED -/
def lk_ACQUIRED : Fld := ⟨452, 0, 1, .ro, 0, []⟩
/-- LK.HELD -/
def lk_HELD : Fld := ⟨453, 1, 1, .ro, 0, []⟩
/-- LK.SELF -/
def lk_SELF : Fld := ⟨454, 2, 1, .ro, 0, []⟩
/-- LK.OWNER -/
def lk_OWNER : Fld := ⟨455, 3, 4, .ro, 15, []⟩
/-- LK.RELEASE -/
def lk_RELEASE : Fld := ⟨456, 16, 1, .wo, 0, []⟩
/-- LK.FORCE -/
def lk_FORCE : Fld := ⟨457, 17, 1, .wo, 0, []⟩
-- LK_PEEK: spec file 13, rule R355
/-- LK_PEEK.HELD -/
def lkPeek_HELD : Fld := ⟨458, 0, 1, .ro, 0, []⟩
/-- LK_PEEK.OWNER -/
def lkPeek_OWNER : Fld := ⟨459, 1, 4, .ro, 15, []⟩
/-- LK_PEEK.THREAD -/
def lkPeek_THREAD : Fld := ⟨460, 5, 8, .ro, 0, []⟩
/-- LK_PEEK.THR_VALID -/
def lkPeek_THR_VALID : Fld := ⟨461, 13, 1, .ro, 0, []⟩
/-- LK_PEEK.FORCED_EVT -/
def lkPeek_FORCED_EVT : Fld := ⟨462, 14, 1, .w1c, 0, []⟩
/-- LK_PEEK.BADREL -/
def lkPeek_BADREL : Fld := ⟨463, 15, 1, .w1c, 0, []⟩
/-- LK_PEEK.ACQS -/
def lkPeek_ACQS : Fld := ⟨464, 16, 16, .ro, 0, []⟩
-- GP_CFG: spec file 13, rule R355
/-- GP_CFG.PMASK -/
def gpCfg_PMASK : Fld := ⟨465, 0, 8, .rw, 0, []⟩
/-- GP_CFG.THREAD_OK -/
def gpCfg_THREAD_OK : Fld := ⟨466, 8, 1, .rw, 0, []⟩
/-- GP_CFG.WAIT -/
def gpCfg_WAIT : Fld := ⟨467, 9, 20, .rw, 1000, []⟩
-- GP_CTL: spec file 13, rule R355
/-- GP_CTL.PNEXT -/
def gpCtl_PNEXT : Fld := ⟨468, 0, 1, .rw, 0, []⟩
-- GP_STAT: spec file 13, rule R355
/-- GP_STAT.LEVEL -/
def gpStat_LEVEL : Fld := ⟨469, 0, 4, .ro, 0, []⟩
/-- GP_STAT.REASON -/
def gpStat_REASON : Fld := ⟨470, 4, 4, .ro, 0, []⟩
/-- GP_STAT.INJECTED -/
def gpStat_INJECTED : Fld := ⟨471, 8, 16, .ro, 0, []⟩
/-- GP_STAT.DROPPED -/
def gpStat_DROPPED : Fld := ⟨472, 24, 16, .ro, 0, []⟩
-- MBX_STAT: spec file 13, rule R355
/-- MBX_STAT.LEVEL -/
def mbxStat_LEVEL : Fld := ⟨473, 0, 6, .ro, 0, []⟩
/-- MBX_STAT.PART -/
def mbxStat_PART : Fld := ⟨474, 6, 3, .ro, 0, []⟩
/-- MBX_STAT.ASSIGNED -/
def mbxStat_ASSIGNED : Fld := ⟨475, 9, 1, .ro, 0, []⟩
/-- MBX_STAT.UNC_EVT -/
def mbxStat_UNC_EVT : Fld := ⟨476, 10, 1, .w1c, 0, []⟩
/-- MBX_STAT.APPENDS -/
def mbxStat_APPENDS : Fld := ⟨477, 16, 16, .ro, 0, []⟩
-- SV_CTL: spec file 14, rule R374
/-- SV_CTL.RUN -/
def svCtl_RUN : Fld := ⟨478, 0, 1, .rw, 0, []⟩
/-- SV_CTL.RESET -/
def svCtl_RESET : Fld := ⟨479, 1, 1, .wo, 0, []⟩
/-- SV_CTL.CMP_TEST -/
def svCtl_CMP_TEST : Fld := ⟨480, 2, 1, .wo, 0, []⟩
/-- SV_CTL.DBG_EN -/
def svCtl_DBG_EN : Fld := ⟨481, 3, 1, .rwl, 0, []⟩
/-- SV_CTL.LOCK -/
def svCtl_LOCK : Fld := ⟨482, 4, 1, .rw, 0, []⟩
-- SV_STAT: spec file 14, rule R374
/-- SV_STAT.STATE -/
def svStat_STATE : Fld := ⟨483, 0, 3, .ro, 0, []⟩
/-- SV_STAT.CMP_OK -/
def svStat_CMP_OK : Fld := ⟨484, 3, 1, .ro, 0, []⟩
/-- SV_STAT.CMP_FAIL -/
def svStat_CMP_FAIL : Fld := ⟨485, 4, 1, .ro, 0, []⟩
/-- SV_STAT.WDOG_EVT -/
def svStat_WDOG_EVT : Fld := ⟨486, 5, 1, .w1c, 0, []⟩
/-- SV_STAT.IN_FULL -/
def svStat_IN_FULL : Fld := ⟨487, 6, 1, .ro, 0, []⟩
/-- SV_STAT.OUT_FULL -/
def svStat_OUT_FULL : Fld := ⟨488, 7, 1, .ro, 0, []⟩
/-- SV_STAT.TMR_ARMED -/
def svStat_TMR_ARMED : Fld := ⟨489, 8, 1, .ro, 0, []⟩
/-- SV_STAT.LAST_CAUSE -/
def svStat_LAST_CAUSE : Fld := ⟨490, 12, 4, .ro, 0, []⟩
/-- SV_STAT.TRAPS -/
def svStat_TRAPS : Fld := ⟨491, 16, 32, .ro, 0, []⟩
-- SV_BOOT: spec file 14, rule R374
/-- SV_BOOT.PC -/
def svBoot_PC : Fld := ⟨492, 0, 48, .rwl, 0, []⟩
-- SV_PC: spec file 14, rule R374
/-- SV_PC.PC -/
def svPc_PC : Fld := ⟨493, 0, 48, .ro, 0, []⟩
-- SV_DBG: spec file 12, rule R336
/-- SV_DBG.HALT_REQ -/
def svDbg_HALT_REQ : Fld := ⟨494, 0, 1, .rw, 0, []⟩
/-- SV_DBG.STEP -/
def svDbg_STEP : Fld := ⟨495, 1, 1, .wo, 0, []⟩
/-- SV_DBG.SEL -/
def svDbg_SEL : Fld := ⟨496, 3, 6, .rw, 0, []⟩
-- SV_DBG_DATA: spec file 12, rule R336
/-- SV_DBG_DATA.VALUE -/
def svDbgData_VALUE : Fld := ⟨497, 0, 48, .rw, 0, []⟩
-- SV_EVT: spec file 14, rule R374
/-- SV_EVT.TRIP -/
def svEvt_TRIP : Fld := ⟨498, 0, 8, .w1c, 0, []⟩
/-- SV_EVT.LANE -/
def svEvt_LANE : Fld := ⟨499, 8, 1, .w1c, 0, []⟩
/-- SV_EVT.FLT -/
def svEvt_FLT : Fld := ⟨500, 9, 1, .w1c, 0, []⟩
/-- SV_EVT.TMR -/
def svEvt_TMR : Fld := ⟨501, 10, 1, .w1c, 0, []⟩
/-- SV_EVT.MBX -/
def svEvt_MBX : Fld := ⟨502, 11, 1, .w1c, 0, []⟩
-- SV_EVT_EN: spec file 14, rule R374
/-- SV_EVT_EN.TRIP -/
def svEvtEn_TRIP : Fld := ⟨503, 0, 8, .rw, 0, []⟩
/-- SV_EVT_EN.LANE -/
def svEvtEn_LANE : Fld := ⟨504, 8, 1, .rw, 0, []⟩
/-- SV_EVT_EN.FLT -/
def svEvtEn_FLT : Fld := ⟨505, 9, 1, .rw, 0, []⟩
/-- SV_EVT_EN.TMR -/
def svEvtEn_TMR : Fld := ⟨506, 10, 1, .rw, 0, []⟩
/-- SV_EVT_EN.MBX -/
def svEvtEn_MBX : Fld := ⟨507, 11, 1, .rw, 0, []⟩
-- SV_TMR: spec file 14, rule R374
/-- SV_TMR.T -/
def svTmr_T : Fld := ⟨508, 0, 48, .rw, 0, []⟩
-- SV_WDOG: spec file 14, rule R374
/-- SV_WDOG.PERIOD -/
def svWdog_PERIOD : Fld := ⟨509, 0, 24, .rwl, 0, [(1, 16777215)]⟩
/-- SV_WDOG.EN -/
def svWdog_EN : Fld := ⟨510, 24, 1, .rwl, 0, []⟩
/-- SV_WDOG.KICK -/
def svWdog_KICK : Fld := ⟨511, 25, 1, .wo, 0, []⟩
-- SV_MBX_IN: spec file 14, rule R374
/-- SV_MBX_IN.DATA -/
def svMbxIn_DATA : Fld := ⟨512, 0, 48, .rw, 0, []⟩
-- SV_MBX_OUT: spec file 14, rule R374
/-- SV_MBX_OUT.DATA -/
def svMbxOut_DATA : Fld := ⟨513, 0, 48, .rw, 0, []⟩
-- ILK_FORCE: spec file 14, rule R374
/-- ILK_FORCE.FORCE -/
def ilkForce_FORCE : Fld := ⟨514, 0, 8, .rw, 0, []⟩
-- ILK_REL: spec file 14, rule R374
/-- ILK_REL.REL -/
def ilkRel_REL : Fld := ⟨515, 0, 8, .wo, 0, []⟩
-- CH_FORCE: spec file 14, rule R374
/-- CH_FORCE.CH -/
def chForce_CH : Fld := ⟨516, 0, 32, .rw, 0, []⟩
-- SV_MISC: spec file 14, rule R374
/-- SV_MISC.GROUP -/
def svMisc_GROUP : Fld := ⟨517, 0, 4, .ro, 0, []⟩
/-- SV_MISC.CMPA -/
def svMisc_CMPA : Fld := ⟨518, 4, 1, .ro, 0, []⟩
/-- SV_MISC.CMPB -/
def svMisc_CMPB : Fld := ⟨519, 5, 1, .ro, 0, []⟩
/-- SV_MISC.DISAGREE -/
def svMisc_DISAGREE : Fld := ⟨520, 6, 1, .ro, 0, []⟩
/-- SV_MISC.WIRE -/
def svMisc_WIRE : Fld := ⟨521, 7, 1, .ro, 0, []⟩
/-- SV_MISC.CYCLE -/
def svMisc_CYCLE : Fld := ⟨522, 8, 32, .ro, 0, []⟩
/-- SV_MISC.VALID -/
def svMisc_VALID : Fld := ⟨523, 47, 1, .ro, 0, []⟩
-- FLT_CTL: spec file 15, rule R394
/-- FLT_CTL.LOCK -/
def fltCtl_LOCK : Fld := ⟨524, 0, 1, .rw, 0, []⟩
/-- FLT_CTL.INJ_EN -/
def fltCtl_INJ_EN : Fld := ⟨525, 1, 1, .rwl, 0, []⟩
-- FLT_SUM: spec file 15, rule R394
/-- FLT_SUM.STICKY_C -/
def fltSum_STICKY_C : Fld := ⟨526, 0, 7, .ro, 0, []⟩
/-- FLT_SUM.STICKY_U -/
def fltSum_STICKY_U : Fld := ⟨527, 7, 7, .ro, 0, []⟩
/-- FLT_SUM.STICKY_F -/
def fltSum_STICKY_F : Fld := ⟨528, 14, 7, .ro, 0, []⟩
/-- FLT_SUM.NFLT -/
def fltSum_NFLT : Fld := ⟨529, 21, 1, .ro, 1, []⟩
/-- FLT_SUM.NFATAL -/
def fltSum_NFATAL : Fld := ⟨530, 22, 1, .ro, 0, []⟩
-- FLOG_STAT: spec file 15, rule R394
/-- FLOG_STAT.LEVEL -/
def flogStat_LEVEL : Fld := ⟨531, 0, 7, .ro, 0, []⟩
/-- FLOG_STAT.POP -/
def flogStat_POP : Fld := ⟨532, 7, 1, .wo, 0, []⟩
/-- FLOG_STAT.DISCARDS -/
def flogStat_DISCARDS : Fld := ⟨533, 8, 16, .ro, 0, []⟩
-- FLOG_W0: spec file 15, rule R394
/-- FLOG_W0.W0 -/
def flogW0_W0 : Fld := ⟨534, 0, 64, .ro, 0, []⟩
-- FLOG_W1: spec file 15, rule R394
/-- FLOG_W1.W1 -/
def flogW1_W1 : Fld := ⟨535, 0, 48, .ro, 0, []⟩
-- INJ_SEL: spec file 15, rule R394
/-- INJ_SEL.KIND -/
def injSel_KIND : Fld := ⟨536, 0, 6, .rw, 0, []⟩
/-- INJ_SEL.LOCATION -/
def injSel_LOCATION : Fld := ⟨537, 6, 16, .rw, 0, []⟩
-- INJ_CTL: spec file 15, rule R394
/-- INJ_CTL.ARM -/
def injCtl_ARM : Fld := ⟨538, 0, 1, .rw, 0, []⟩
/-- INJ_CTL.PAIR -/
def injCtl_PAIR : Fld := ⟨539, 1, 1, .rw, 0, []⟩
/-- INJ_CTL.MASK -/
def injCtl_MASK : Fld := ⟨540, 2, 10, .rw, 0, []⟩
/-- INJ_CTL.PAIRCYC -/
def injCtl_PAIRCYC : Fld := ⟨541, 12, 16, .rw, 0, [(2, 65535)]⟩
-- FR_CTL: spec file 15, rule R394
/-- FR_CTL.VALID -/
def frCtl_VALID : Fld := ⟨542, 0, 1, .ro, 0, []⟩
/-- FR_CTL.CLR -/
def frCtl_CLR : Fld := ⟨543, 1, 1, .wo, 0, []⟩
/-- FR_CTL.OVERWROTE -/
def frCtl_OVERWROTE : Fld := ⟨544, 2, 1, .ro, 0, []⟩
/-- FR_CTL.CRC_OK -/
def frCtl_CRC_OK : Fld := ⟨545, 3, 1, .ro, 0, []⟩
/-- FR_CTL.FATALS -/
def frCtl_FATALS : Fld := ⟨546, 4, 8, .ro, 0, []⟩
-- FK_CFG: spec file 15, rule R394
/-- FK_CFG.N -/
def fkCfg_N : Fld := ⟨547, 0, 8, .rwl, 16, [(1, 255)]⟩
/-- FK_CFG.MAXC -/
def fkCfg_MAXC : Fld := ⟨548, 8, 2, .rwl, 0, []⟩
/-- FK_CFG.MASK -/
def fkCfg_MASK : Fld := ⟨549, 10, 1, .rwl, 0, []⟩
-- FK_WIN: spec file 15, rule R394
/-- FK_WIN.W -/
def fkWin_W : Fld := ⟨550, 0, 47, .rwl, 250000000, []⟩
-- FK_STAT: spec file 15, rule R394
/-- FK_STAT.STICKY -/
def fkStat_STICKY : Fld := ⟨551, 0, 1, .rws, 0, []⟩
/-- FK_STAT.LIVE -/
def fkStat_LIVE : Fld := ⟨552, 1, 1, .ro, 0, []⟩
/-- FK_STAT.ACK -/
def fkStat_ACK : Fld := ⟨553, 2, 1, .wo, 0, []⟩
/-- FK_STAT.CLASS -/
def fkStat_CLASS : Fld := ⟨554, 3, 2, .ro, 0, []⟩
/-- FK_STAT.EXC -/
def fkStat_EXC : Fld := ⟨555, 5, 1, .rws, 0, []⟩
/-- FK_STAT.WIRE -/
def fkStat_WIRE : Fld := ⟨556, 6, 1, .ro, 0, []⟩
/-- FK_STAT.EVENTS -/
def fkStat_EVENTS : Fld := ⟨557, 16, 16, .ro, 0, []⟩
/-- FK_STAT.EXCS -/
def fkStat_EXCS : Fld := ⟨558, 32, 16, .ro, 0, []⟩
-- BOOT_STAT: spec file 16, rule R419
/-- BOOT_STAT.STEP -/
def bootStat_STEP : Fld := ⟨559, 0, 4, .ro, 1, []⟩
/-- BOOT_STAT.ERROR -/
def bootStat_ERROR : Fld := ⟨560, 4, 8, .ro, 0, []⟩
/-- BOOT_STAT.SLOT -/
def bootStat_SLOT : Fld := ⟨561, 12, 1, .ro, 0, []⟩
/-- BOOT_STAT.RECOVERY -/
def bootStat_RECOVERY : Fld := ⟨562, 13, 1, .ro, 0, []⟩
/-- BOOT_STAT.WARM -/
def bootStat_WARM : Fld := ⟨563, 14, 1, .ro, 0, []⟩
/-- BOOT_STAT.VERSION -/
def bootStat_VERSION : Fld := ⟨564, 16, 32, .ro, 0, []⟩
-- MC_CMD: spec file 16, rule R419
/-- MC_CMD.OP -/
def mcCmd_OP : Fld := ⟨565, 0, 4, .wo, 0, []⟩
-- MC_ARG: spec file 16, rule R419
/-- MC_ARG.ARG -/
def mcArg_ARG : Fld := ⟨566, 0, 48, .rw, 0, []⟩
-- MC_STAT: spec file 16, rule R419
/-- MC_STAT.BUSY -/
def mcStat_BUSY : Fld := ⟨567, 0, 1, .ro, 0, []⟩
/-- MC_STAT.OVERRUN -/
def mcStat_OVERRUN : Fld := ⟨568, 1, 1, .w1c, 0, []⟩
/-- MC_STAT.OPEN -/
def mcStat_OPEN : Fld := ⟨569, 2, 1, .ro, 0, []⟩
/-- MC_STAT.VERIFIED -/
def mcStat_VERIFIED : Fld := ⟨570, 3, 1, .ro, 0, []⟩
/-- MC_STAT.OP -/
def mcStat_OP : Fld := ⟨571, 4, 4, .ro, 0, []⟩
/-- MC_STAT.RESULT -/
def mcStat_RESULT : Fld := ⟨572, 8, 8, .ro, 0, []⟩
-- OTP_STAT: spec file 16, rule R419
/-- OTP_STAT.KEYS -/
def otpStat_KEYS : Fld := ⟨573, 0, 4, .ro, 0, []⟩
/-- OTP_STAT.REVOKED -/
def otpStat_REVOKED : Fld := ⟨574, 4, 4, .ro, 0, []⟩
/-- OTP_STAT.SVN -/
def otpStat_SVN : Fld := ⟨575, 8, 8, .ro, 0, []⟩
-- LOG_STAT: spec file 16, rule R419
/-- LOG_STAT.NEXT -/
def logStat_NEXT : Fld := ⟨576, 0, 32, .ro, 0, []⟩
/-- LOG_STAT.LEVEL -/
def logStat_LEVEL : Fld := ⟨577, 32, 13, .ro, 0, []⟩
-- LOG_IDX: spec file 16, rule R419
/-- LOG_IDX.SEQ -/
def logIdx_SEQ : Fld := ⟨578, 0, 32, .rw, 0, []⟩
-- LOG_W0: spec file 16, rule R419
/-- LOG_W0.W -/
def logW0_W : Fld := ⟨579, 0, 64, .ro, 0, []⟩
-- LOG_W1: spec file 16, rule R419
/-- LOG_W1.W -/
def logW1_W : Fld := ⟨580, 0, 64, .ro, 0, []⟩
-- SMB_CFG: spec file 16, rule R419
/-- SMB_CFG.ADDR -/
def smbCfg_ADDR : Fld := ⟨581, 0, 7, .rw, 82, []⟩
/-- SMB_CFG.PEC_REQ -/
def smbCfg_PEC_REQ : Fld := ⟨582, 7, 1, .rw, 0, []⟩
-- PMB_DEV: spec file 16, rule R419
/-- PMB_DEV.ADDR -/
def pmbDev_ADDR : Fld := ⟨583, 0, 7, .rw, 0, []⟩
/-- PMB_DEV.EN -/
def pmbDev_EN : Fld := ⟨584, 7, 1, .rw, 0, []⟩
/-- PMB_DEV.RAIL -/
def pmbDev_RAIL : Fld := ⟨585, 8, 3, .rw, 0, []⟩
-- TS: spec file 16, rule R419
/-- TS.VALUE -/
def ts_VALUE : Fld := ⟨586, 0, 16, .ro, 0, []⟩
/-- TS.MAX -/
def ts_MAX : Fld := ⟨587, 16, 16, .ro, 0, []⟩
/-- TS.VALID -/
def ts_VALID : Fld := ⟨588, 32, 1, .ro, 0, []⟩
/-- TS.CLR -/
def ts_CLR : Fld := ⟨589, 33, 1, .wo, 0, []⟩
-- CAP_LOCK: spec file 17, rule R451
/-- CAP_LOCK.LOCK -/
def capLock_LOCK : Fld := ⟨590, 0, 1, .rw, 0, []⟩
-- CAP_CFG: spec file 17, rule R451
/-- CAP_CFG.MODE -/
def capCfg_MODE : Fld := ⟨591, 0, 2, .rw, 0, [(0, 2)]⟩
/-- CAP_CFG.EN -/
def capCfg_EN : Fld := ⟨592, 2, 1, .rw, 0, []⟩
/-- CAP_CFG.LANE -/
def capCfg_LANE : Fld := ⟨593, 3, 5, .rw, 0, []⟩
/-- CAP_CFG.CHMASK -/
def capCfg_CHMASK : Fld := ⟨594, 8, 8, .rw, 0, []⟩
/-- CAP_CFG.PKT -/
def capCfg_PKT : Fld := ⟨595, 16, 12, .rw, 0, []⟩
/-- CAP_CFG.PART -/
def capCfg_PART : Fld := ⟨596, 28, 3, .ro, 0, []⟩
/-- CAP_CFG.ASSIGNED -/
def capCfg_ASSIGNED : Fld := ⟨597, 31, 1, .ro, 0, []⟩
/-- CAP_CFG.CLOSE_T -/
def capCfg_CLOSE_T : Fld := ⟨598, 32, 16, .rw, 0, []⟩
-- CAP_RING: spec file 17, rule R451
/-- CAP_RING.BASE -/
def capRing_BASE : Fld := ⟨599, 0, 13, .rw, 0, []⟩
/-- CAP_RING.SIZE -/
def capRing_SIZE : Fld := ⟨600, 13, 14, .rw, 16, [(16, 8192)]⟩
/-- CAP_RING.THRESH -/
def capRing_THRESH : Fld := ⟨601, 27, 13, .rw, 0, []⟩
-- CAP_WP: spec file 17, rule R451
/-- CAP_WP.PTR -/
def capWp_PTR : Fld := ⟨602, 0, 25, .ro, 0, []⟩
-- CAP_RP: spec file 17, rule R451
/-- CAP_RP.PTR -/
def capRp_PTR : Fld := ⟨603, 0, 25, .rw, 0, []⟩
-- CAP_STAT: spec file 17, rule R451
/-- CAP_STAT.READY -/
def capStat_READY : Fld := ⟨604, 0, 1, .w1c, 0, []⟩
/-- CAP_STAT.GAP_EVT -/
def capStat_GAP_EVT : Fld := ⟨605, 1, 1, .w1c, 0, []⟩
/-- CAP_STAT.BADRP -/
def capStat_BADRP : Fld := ⟨606, 2, 1, .w1c, 0, []⟩
/-- CAP_STAT.NOSRC -/
def capStat_NOSRC : Fld := ⟨607, 3, 1, .ro, 0, []⟩
/-- CAP_STAT.WAITING -/
def capStat_WAITING : Fld := ⟨608, 4, 1, .ro, 0, []⟩
/-- CAP_STAT.RECORDS -/
def capStat_RECORDS : Fld := ⟨609, 16, 32, .ro, 0, []⟩
-- PCIE_STAT: spec file 17, rule R451
/-- PCIE_STAT.LINK -/
def pcieStat_LINK : Fld := ⟨610, 0, 3, .ro, 0, []⟩
/-- PCIE_STAT.SPEED -/
def pcieStat_SPEED : Fld := ⟨611, 3, 3, .ro, 0, []⟩
/-- PCIE_STAT.WIDTH -/
def pcieStat_WIDTH : Fld := ⟨612, 6, 4, .ro, 0, []⟩
/-- PCIE_STAT.BME -/
def pcieStat_BME : Fld := ⟨613, 10, 1, .ro, 0, []⟩
/-- PCIE_STAT.MSIX_EN -/
def pcieStat_MSIX_EN : Fld := ⟨614, 11, 1, .ro, 0, []⟩
/-- PCIE_STAT.FMASK -/
def pcieStat_FMASK : Fld := ⟨615, 12, 1, .ro, 0, []⟩
/-- PCIE_STAT.LINK_EVT -/
def pcieStat_LINK_EVT : Fld := ⟨616, 13, 1, .w1c, 0, []⟩
/-- PCIE_STAT.LINKDOWNS -/
def pcieStat_LINKDOWNS : Fld := ⟨617, 16, 16, .ro, 0, []⟩
-- PCIE_WIN0: spec file 17, rule R451
/-- PCIE_WIN0.BASE -/
def pcieWin0_BASE : Fld := ⟨618, 24, 24, .rw, 0, []⟩
-- PCIE_WIN1: spec file 17, rule R451
/-- PCIE_WIN1.BASE -/
def pcieWin1_BASE : Fld := ⟨619, 24, 24, .rw, 0, []⟩
-- PCIE_ERRADDR: spec file 17, rule R451
/-- PCIE_ERRADDR.ADDR -/
def pcieErraddr_ADDR : Fld := ⟨620, 0, 48, .ro, 0, []⟩
-- PCIE_ERRINFO: spec file 17, rule R451
/-- PCIE_ERRINFO.VALID -/
def pcieErrinfo_VALID : Fld := ⟨621, 0, 1, .w1c, 0, []⟩
/-- PCIE_ERRINFO.WRITE -/
def pcieErrinfo_WRITE : Fld := ⟨622, 1, 1, .ro, 0, []⟩
/-- PCIE_ERRINFO.BAR2 -/
def pcieErrinfo_BAR2 : Fld := ⟨623, 2, 1, .ro, 0, []⟩
/-- PCIE_ERRINFO.REASON -/
def pcieErrinfo_REASON : Fld := ⟨624, 3, 4, .ro, 0, []⟩
/-- PCIE_ERRINFO.COUNT -/
def pcieErrinfo_COUNT : Fld := ⟨625, 7, 16, .ro, 0, []⟩
-- CP_STAT: spec file 17, rule R451
/-- CP_STAT.STATE -/
def cpStat_STATE : Fld := ⟨626, 0, 3, .ro, 0, []⟩
/-- CP_STAT.LOCKED -/
def cpStat_LOCKED : Fld := ⟨627, 3, 4, .ro, 0, []⟩
/-- CP_STAT.LINK_EVT -/
def cpStat_LINK_EVT : Fld := ⟨628, 7, 1, .w1c, 0, []⟩
/-- CP_STAT.DOWNS -/
def cpStat_DOWNS : Fld := ⟨629, 8, 16, .ro, 0, []⟩
/-- CP_STAT.CTLERR -/
def cpStat_CTLERR : Fld := ⟨630, 24, 16, .ro, 0, []⟩
/-- CP_STAT.DROPS -/
def cpStat_DROPS : Fld := ⟨631, 40, 8, .ro, 0, []⟩
-- MP_CTL: spec file 17, rule R451
/-- MP_CTL.EN -/
def mpCtl_EN : Fld := ⟨632, 0, 1, .rw, 0, []⟩
/-- MP_CTL.FLIP_EN -/
def mpCtl_FLIP_EN : Fld := ⟨633, 1, 1, .rw, 0, []⟩
/-- MP_CTL.PER -/
def mpCtl_PER : Fld := ⟨634, 8, 24, .rw, 2500, [(1, 16777215)]⟩
-- MP_FLIP_T: spec file 17, rule R451
/-- MP_FLIP_T.T -/
def mpFlipT_T : Fld := ⟨635, 0, 48, .rw, 0, []⟩
-- MP_STAT: spec file 17, rule R451
/-- MP_STAT.FSEL -/
def mpStat_FSEL : Fld := ⟨636, 0, 1, .ro, 0, []⟩
/-- MP_STAT.SKIPS -/
def mpStat_SKIPS : Fld := ⟨637, 1, 15, .ro, 0, []⟩
/-- MP_STAT.FLIPS -/
def mpStat_FLIPS : Fld := ⟨638, 16, 32, .ro, 0, []⟩
-- MP_OWN: spec file 17, rule R451
/-- MP_OWN.PART -/
def mpOwn_PART : Fld := ⟨639, 0, 3, .ro, 0, []⟩
/-- MP_OWN.ASSIGNED -/
def mpOwn_ASSIGNED : Fld := ⟨640, 3, 1, .ro, 0, []⟩
-- AUX_CFG: spec file 17, rule R451
/-- AUX_CFG.FUNC -/
def auxCfg_FUNC : Fld := ⟨641, 0, 4, .rwl, 0, []⟩
/-- AUX_CFG.SEL -/
def auxCfg_SEL : Fld := ⟨642, 4, 8, .rwl, 0, []⟩
/-- AUX_CFG.ACTIVE -/
def auxCfg_ACTIVE : Fld := ⟨643, 12, 4, .ro, 0, []⟩
/-- AUX_CFG.PENDING -/
def auxCfg_PENDING : Fld := ⟨644, 16, 1, .ro, 0, []⟩
-- AUX_OUT: spec file 17, rule R451
/-- AUX_OUT.PIN -/
def auxOut_PIN : Fld := ⟨645, 0, 32, .rw, 0, []⟩
-- AUX_IN: spec file 17, rule R451
/-- AUX_IN.PIN -/
def auxIn_PIN : Fld := ⟨646, 0, 32, .ro, 0, []⟩
-- AUX_LOCK: spec file 17, rule R451
/-- AUX_LOCK.LOCK -/
def auxLock_LOCK : Fld := ⟨647, 0, 1, .rw, 0, []⟩
-- PWR_CTL: spec file 18, rule R470
/-- PWR_CTL.LOCK -/
def pwrCtl_LOCK : Fld := ⟨648, 0, 1, .rw, 0, []⟩
/-- PWR_CTL.VF_SET -/
def pwrCtl_VF_SET : Fld := ⟨649, 1, 5, .rwl, 10, [(0, 30)]⟩
/-- PWR_CTL.PK_LIM -/
def pwrCtl_PK_LIM : Fld := ⟨650, 8, 20, .rwl, 19000, [(1000, 19990)]⟩
-- PWR_STAT: spec file 18, rule R470
/-- PWR_STAT.VF_CAP -/
def pwrStat_VF_CAP : Fld := ⟨651, 0, 3, .ro, 0, []⟩
/-- PWR_STAT.CAPPED -/
def pwrStat_CAPPED : Fld := ⟨652, 3, 1, .ro, 0, []⟩
/-- PWR_STAT.CAP_EVT -/
def pwrStat_CAP_EVT : Fld := ⟨653, 4, 1, .w1c, 0, []⟩
/-- PWR_STAT.VBAT_LOST -/
def pwrStat_VBAT_LOST : Fld := ⟨654, 5, 1, .w1c, 0, []⟩
/-- PWR_STAT.VBAT_LOW -/
def pwrStat_VBAT_LOW : Fld := ⟨655, 6, 1, .ro, 0, []⟩
/-- PWR_STAT.PEAK_US -/
def pwrStat_PEAK_US : Fld := ⟨656, 8, 20, .ro, 0, []⟩
/-- PWR_STAT.PKG_W -/
def pwrStat_PKG_W : Fld := ⟨657, 28, 12, .ro, 0, []⟩
-- THERM_STAT: spec file 18, rule R470
/-- THERM_STAT.THROT -/
def thermStat_THROT : Fld := ⟨658, 0, 1, .ro, 0, []⟩
/-- THERM_STAT.HOT -/
def thermStat_HOT : Fld := ⟨659, 1, 1, .ro, 0, []⟩
/-- THERM_STAT.SHED -/
def thermStat_SHED : Fld := ⟨660, 2, 1, .ro, 0, []⟩
/-- THERM_STAT.SHED_NEXT -/
def thermStat_SHED_NEXT : Fld := ⟨661, 3, 3, .ro, 3, []⟩
/-- THERM_STAT.HOTTEST_REG -/
def thermStat_HOTTEST_REG : Fld := ⟨662, 6, 2, .ro, 0, []⟩
/-- THERM_STAT.HOTTEST -/
def thermStat_HOTTEST : Fld := ⟨663, 16, 16, .ro, 0, []⟩
/-- THERM_STAT.SHEDS -/
def thermStat_SHEDS : Fld := ⟨664, 32, 16, .ro, 0, []⟩
-- RAIL_MON: spec file 18, rule R470
/-- RAIL_MON.VOLT -/
def railMon_VOLT : Fld := ⟨665, 0, 16, .ro, 0, []⟩
/-- RAIL_MON.UV -/
def railMon_UV : Fld := ⟨666, 16, 1, .ro, 0, []⟩
/-- RAIL_MON.OV -/
def railMon_OV : Fld := ⟨667, 17, 1, .ro, 0, []⟩

end F

/-- The registers of block clctl. -/
def regs_clctl : List RegDef := [
  ⟨.clStatus, 0x0, 1, 0, 1, 0, [F.clStatus_CLUSTER, F.clStatus_DIE, F.clStatus_PKG, F.clStatus_STATE, F.clStatus_OWNER]⟩,
  ⟨.rtEntry, 0x200, 32, 8, 1, 0, [F.rtEntry_CLUSTER, F.rtEntry_DIE, F.rtEntry_PKG, F.rtEntry_VALID]⟩,
  ⟨.dispatch, 0x8000, 1024, 8, 1, 0, [F.dispatch_ENTRY, F.dispatch_RESUME, F.dispatch_PORTS, F.dispatch_KFORM, F.dispatch_DFORM, F.dispatch_KPARAM, F.dispatch_VALID]⟩,
  ⟨.csStat, 0x180, 1, 0, 1, 0, [F.csStat_STD_VER, F.csStat_USER_SET, F.csStat_USER_VALID, F.csStat_RELOADING, F.csStat_RELOADS]⟩,
  ⟨.migCtl, 0x20, 1, 0, 1, 0, [F.migCtl_TO, F.migCtl_ACTIVE]⟩,
  ⟨.migStat, 0x28, 1, 0, 1, 0, [F.migStat_DRAIN, F.migStat_FORWARDED]⟩,
  ⟨.rtAlt, 0x300, 32, 8, 1, 0, [F.rtAlt_CLUSTER, F.rtAlt_DIE, F.rtAlt_PKG, F.rtAlt_VALID]⟩,
  ⟨.bankOwn, 0x400, 16, 32, 1, 0, [F.bankOwn_OWNER, F.bankOwn_CLR, F.bankOwn_PENDING]⟩,
  ⟨.bankPwr, 0x408, 16, 32, 1, 0, [F.bankPwr_STATE, F.bankPwr_CURRENT, F.bankPwr_BUSY, F.bankPwr_OFFLINE, F.bankPwr_TAKE_OFFLINE]⟩,
  ⟨.bankStat, 0x410, 16, 32, 1, 0, [F.bankStat_CORR, F.bankStat_UNCORR, F.bankStat_DEFERRED, F.bankStat_DEFER_OVF, F.bankStat_UNC_EVT, F.bankStat_SPARES, F.bankStat_BIST]⟩,
  ⟨.bankCtl, 0x600, 1, 0, 1, 0, [F.bankCtl_SCRUB_EN]⟩,
  ⟨.violAddr, 0x608, 1, 0, 1, 0, [F.violAddr_VALUE]⟩,
  ⟨.violInfo, 0x610, 1, 0, 1, 0, [F.violInfo_KIND, F.violInfo_SYS, F.violInfo_PART, F.violInfo_INIT, F.violInfo_OP, F.violInfo_BANK, F.violInfo_T, F.violInfo_VALID]⟩,
  ⟨.violCnt, 0x618, 1, 0, 1, 0, [F.violCnt_COUNT]⟩]

/-- The registers of block tokq. -/
def regs_tokq : List RegDef := [
  ⟨.bandOcc, 0x0, 16, 8, 1, 0, [F.bandOcc_OCC0, F.bandOcc_OCC1, F.bandOcc_OCC2, F.bandOcc_OCC3, F.bandOcc_OCC4, F.bandOcc_OCC5, F.bandOcc_OCC6, F.bandOcc_OCC7, F.bandOcc_FREE]⟩,
  ⟨.spillCfg, 0x100, 1, 0, 1, 0, [F.spillCfg_BANK, F.spillCfg_BASE, F.spillCfg_COUNT]⟩,
  ⟨.matchStat, 0x108, 1, 0, 1, 0, [F.matchStat_ENTRIES, F.matchStat_RECORDS, F.matchStat_LONGEST]⟩,
  ⟨.matchHwm, 0x110, 1, 0, 1, 0, [F.matchHwm_ENTRIES_HWM, F.matchHwm_RECORDS_HWM, F.matchHwm_CHAIN_HWM, F.matchHwm_CLR]⟩,
  ⟨.pressure, 0x118, 1, 0, 1, 0, [F.pressure_SPILL_HELD, F.pressure_SLOT_HELD, F.pressure_LANES, F.pressure_EPISODES]⟩,
  ⟨.lateCnt, 0x120, 1, 0, 1, 0, [F.lateCnt_COUNT, F.lateCnt_CLR, F.lateCnt_LOGV]⟩,
  ⟨.lateTag, 0x128, 1, 0, 1, 0, [F.lateTag_TAG]⟩,
  ⟨.lateT, 0x130, 1, 0, 1, 0, [F.lateT_T]⟩,
  ⟨.lateDue, 0x138, 1, 0, 1, 0, [F.lateDue_DUE]⟩,
  ⟨.msErrData, 0x140, 1, 0, 1, 0, [F.msErrData_DATA]⟩,
  ⟨.msErrDue, 0x148, 1, 0, 1, 0, [F.msErrDue_DUE]⟩,
  ⟨.msErrTag, 0x150, 1, 0, 1, 0, [F.msErrTag_TAG]⟩,
  ⟨.msErrInfo, 0x158, 1, 0, 1, 0, [F.msErrInfo_ENTRY, F.msErrInfo_POISON, F.msErrInfo_T, F.msErrInfo_VALID]⟩]

/-- The registers of block rtr. -/
def regs_rtr : List RegDef := [
  ⟨.rtrCfg, 0x0, 1, 0, 1, 0, [F.rtrCfg_TIMEOUT]⟩,
  ⟨.lq, 0x100, 5, 64, 8, 8, [F.lq_QUOTA, F.lq_COUNT]⟩]

/-- The registers of block rtrs. -/
def regs_rtrs : List RegDef := [
  ⟨.rtrStat, 0x8, 1, 0, 1, 0, [F.rtrStat_TIMEOUTS, F.rtrStat_CORR, F.rtrStat_DROPS, F.rtrStat_STRAY]⟩,
  ⟨.toAddr, 0x10, 1, 0, 1, 0, [F.toAddr_ADDR]⟩,
  ⟨.toInfo, 0x18, 1, 0, 1, 0, [F.toInfo_RET, F.toInfo_OP, F.toInfo_PART, F.toInfo_T, F.toInfo_VALID]⟩,
  ⟨.flitLog0, 0x20, 1, 0, 1, 0, [F.flitLog0_RAW]⟩,
  ⟨.flitLog1, 0x28, 1, 0, 1, 0, [F.flitLog1_RAW]⟩,
  ⟨.flitLog2, 0x30, 1, 0, 1, 0, [F.flitLog2_RAW, F.flitLog2_VALID]⟩]

/-- The registers of block pe. -/
def regs_pe : List RegDef := [
  ⟨.peStat, 0x0, 16, 4096, 1, 0, [F.peStat_STOPPED, F.peStat_IN_TRAP, F.peStat_MCHK, F.peStat_PARKED, F.peStat_TRAPS, F.peStat_MCHKS]⟩,
  ⟨.tfState, 0x8, 16, 4096, 1, 0, [F.tfState_UPC, F.tfState_DEPTH, F.tfState_CAUSE, F.tfState_SERVED]⟩,
  ⟨.tfStack, 0x10, 16, 4096, 1, 0, [F.tfStack_S0, F.tfStack_S1, F.tfStack_S2, F.tfStack_S3]⟩,
  ⟨.tfMt, 0x18, 16, 4096, 4, 8, [F.tfMt_VALUE]⟩,
  ⟨.tfTag, 0x38, 16, 4096, 1, 0, [F.tfTag_TAG]⟩,
  ⟨.mchkLog, 0x40, 16, 4096, 1, 0, [F.mchkLog_ADDR, F.mchkLog_DISP, F.mchkLog_NESTED, F.mchkLog_GROUPS, F.mchkLog_VALID]⟩]

/-- The registers of block region. -/
def regs_region : List RegDef := [
  ⟨.regTs, 0x0, 1, 0, 1, 0, [F.regTs_VALUE, F.regTs_VALID, F.regTs_FAIL]⟩,
  ⟨.poolCfg, 0x1000, 8, 256, 4, 8, [F.poolCfg_G, F.poolCfg_BASE, F.poolCfg_SPAN, F.poolCfg_LEVEL]⟩,
  ⟨.poolStat, 0x1020, 8, 256, 4, 8, [F.poolStat_FREE, F.poolStat_LWM, F.poolStat_WAITING, F.poolStat_CLR]⟩,
  ⟨.reclaimTgt, 0x1040, 8, 256, 4, 8, [F.reclaimTgt_ADDR, F.reclaimTgt_PORT, F.reclaimTgt_CLUSTER, F.reclaimTgt_DIE, F.reclaimTgt_PKG, F.reclaimTgt_VALID]⟩]

/-- The registers of block devid. -/
def regs_devid : List RegDef := [
  ⟨.devId, 0x0, 1, 0, 1, 0, [F.devId_DEVICE, F.devId_STEP, F.devId_VENDOR, F.devId_PKG, F.devId_CHAIN_LEN, F.devId_HEAD, F.devId_TAIL]⟩]

/-- The registers of block pwr. -/
def regs_pwr : List RegDef := [
  ⟨.fclkCtl, 0x100, 8, 8, 1, 0, [F.fclkCtl_TARGET, F.fclkCtl_CURRENT, F.fclkCtl_THROTTLED, F.fclkCtl_STOPPED]⟩,
  ⟨.pwrCtl, 0x0, 1, 0, 1, 0, [F.pwrCtl_LOCK, F.pwrCtl_VF_SET, F.pwrCtl_PK_LIM]⟩,
  ⟨.pwrStat, 0x8, 1, 0, 1, 0, [F.pwrStat_VF_CAP, F.pwrStat_CAPPED, F.pwrStat_CAP_EVT, F.pwrStat_VBAT_LOST, F.pwrStat_VBAT_LOW, F.pwrStat_PEAK_US, F.pwrStat_PKG_W]⟩,
  ⟨.thermStat, 0x200, 8, 8, 1, 0, [F.thermStat_THROT, F.thermStat_HOT, F.thermStat_SHED, F.thermStat_SHED_NEXT, F.thermStat_HOTTEST_REG, F.thermStat_HOTTEST, F.thermStat_SHEDS]⟩,
  ⟨.railMon, 0x300, 8, 8, 1, 0, [F.railMon_VOLT, F.railMon_UV, F.railMon_OV]⟩]

/-- The registers of block ap. -/
def regs_ap : List RegDef := [
  ⟨.arithStat, 0xe00, 8, 8, 1, 0, [F.arithStat_V, F.arithStat_DZ, F.arithStat_FNV, F.arithStat_FDZ, F.arithStat_FOF, F.arithStat_FUF, F.arithStat_FNX, F.arithStat_TRAP, F.arithStat_RM]⟩,
  ⟨.dlCtl, 0x1000, 8, 64, 1, 0, [F.dlCtl_WIN, F.dlCtl_ACTION, F.dlCtl_ENABLE]⟩,
  ⟨.tokProd, 0x1008, 8, 64, 1, 0, [F.tokProd_COUNT]⟩,
  ⟨.tokCons, 0x1010, 8, 64, 1, 0, [F.tokCons_COUNT]⟩,
  ⟨.progress, 0x1018, 8, 64, 1, 0, [F.progress_COUNT]⟩,
  ⟨.dlStat, 0x1020, 8, 64, 1, 0, [F.dlStat_BLOCKED, F.dlStat_DETECTED, F.dlStat_HALTED, F.dlStat_RECLAIMING, F.dlStat_SRC_HOLD, F.dlStat_SRC_STALL, F.dlStat_SRC_INST, F.dlStat_SRC_CREDIT, F.dlStat_SRC_ALLOC, F.dlStat_EPISODES, F.dlStat_RECLAIMS]⟩,
  ⟨.reclaimLog, 0x1028, 8, 64, 1, 0, [F.reclaimLog_BASE, F.reclaimLog_G, F.reclaimLog_REGION, F.reclaimLog_REMOVED, F.reclaimLog_VALID]⟩,
  ⟨.apCmd, 0x0, 1, 0, 1, 0, [F.apCmd_PART, F.apCmd_OP, F.apCmd_CLUSTER, F.apCmd_OFFSET, F.apCmd_MODE]⟩,
  ⟨.apStatus, 0x8, 1, 0, 1, 0, [F.apStatus_BUSY, F.apStatus_OVERRUN, F.apStatus_VERDICT, F.apStatus_PART, F.apStatus_OP]⟩,
  ⟨.apDetail, 0x10, 1, 0, 1, 0, [F.apDetail_RESOURCE, F.apDetail_WORD, F.apDetail_EXCESS]⟩,
  ⟨.apTime, 0x18, 1, 0, 1, 0, [F.apTime_TICKS]⟩,
  ⟨.partStat, 0x100, 8, 8, 1, 0, [F.partStat_STATE, F.partStat_CRIT, F.partStat_EPOCH, F.partStat_MODE, F.partStat_REASON, F.partStat_LOST, F.partStat_ACK, F.partStat_MISSES]⟩,
  ⟨.partCfg, 0x140, 8, 8, 1, 0, [F.partCfg_CEIL, F.partCfg_REVOKE_ACT, F.partCfg_CLUSTERS, F.partCfg_CERT_ID]⟩,
  ⟨.missInfo, 0x300, 1, 0, 1, 0, [F.missInfo_PART, F.missInfo_EMIT, F.missInfo_KIND, F.missInfo_PKG, F.missInfo_INDEX, F.missInfo_VALID]⟩,
  ⟨.missTag, 0x308, 1, 0, 1, 0, [F.missTag_TAG]⟩,
  ⟨.missT, 0x310, 1, 0, 1, 0, [F.missT_T]⟩,
  ⟨.missDue, 0x318, 1, 0, 1, 0, [F.missDue_DUE]⟩,
  ⟨.modeTc, 0x400, 8, 8, 1, 0, [F.modeTc_T_C]⟩,
  ⟨.modeStat, 0x440, 8, 8, 1, 0, [F.modeStat_STAGING, F.modeStat_DRAINING, F.modeStat_DONE, F.modeStat_ABORTED, F.modeStat_SWEPT, F.modeStat_TARGET, F.modeStat_OLD_LIVE]⟩]

/-- The registers of block lens. -/
def regs_lens : List RegDef := [
  ⟨.lensCtl, 0x0, 1, 0, 1, 0, [F.lensCtl_REF_SRC, F.lensCtl_PPS_EN, F.lensCtl_PPS_POL, F.lensCtl_SLEW_PPM]⟩,
  ⟨.lensStat, 0x8, 1, 0, 1, 0, [F.lensStat_TB_STATE, F.lensStat_REF_PRESENT, F.lensStat_PPS_PRESENT, F.lensStat_PPS_ALIGNED, F.lensStat_HOLD_EVT, F.lensStat_SKEW_EVT, F.lensStat_FREQ_ADJ]⟩,
  ⟨.tNow, 0x10, 1, 0, 1, 0, [F.tNow_T, F.tNow_ERA]⟩,
  ⟨.tLoad, 0x18, 1, 0, 1, 0, [F.tLoad_T, F.tLoad_ERA]⟩,
  ⟨.ppsCfg, 0x20, 1, 0, 1, 0, [F.ppsCfg_DELAY]⟩,
  ⟨.ppsMeas, 0x28, 1, 0, 1, 0, [F.ppsMeas_ERROR, F.ppsMeas_COUNT]⟩,
  ⟨.chainTm, 0x30, 1, 0, 1, 0, [F.chainTm_DELAY, F.chainTm_OFFSET, F.chainTm_LOCK]⟩,
  ⟨.coordCfg, 0x40, 4, 32, 1, 0, [F.coordCfg_SRC, F.coordCfg_INV, F.coordCfg_ZGATE, F.coordCfg_LET_EN, F.coordCfg_LINES, F.coordCfg_STALL, F.coordCfg_FILT]⟩,
  ⟨.coordModel, 0x48, 4, 32, 1, 0, [F.coordModel_ACC_MAX, F.coordModel_RES]⟩,
  ⟨.coordStat, 0x50, 4, 32, 1, 0, [F.coordStat_REFD, F.coordStat_DIR, F.coordStat_STOP, F.coordStat_REV_EVT, F.coordStat_JUMP, F.coordStat_ERR_EVT, F.coordStat_QERR, F.coordStat_IDXERR, F.coordStat_MODELV]⟩,
  ⟨.coordZofs, 0x58, 4, 32, 1, 0, [F.coordZofs_ZOFS]⟩,
  ⟨.mainsCfg, 0xc0, 1, 0, 1, 0, [F.mainsCfg_EN, F.mainsCfg_POL, F.mainsCfg_PHASE_OFS, F.mainsCfg_FILT, F.mainsCfg_FSLEW]⟩,
  ⟨.mainsStat, 0xc8, 1, 0, 1, 0, [F.mainsStat_LOCK, F.mainsStat_HOLD, F.mainsStat_LOST_EVT, F.mainsStat_GLITCH_EVT, F.mainsStat_PERIOD]⟩,
  ⟨.letAddr, 0x100, 1, 0, 1, 0, [F.letAddr_INDEX, F.letAddr_ENC, F.letAddr_AUTOINC]⟩,
  ⟨.letData, 0x108, 1, 0, 1, 0, [F.letData_CORR]⟩,
  ⟨.rscAddr, 0x110, 1, 0, 1, 0, [F.rscAddr_INDEX, F.rscAddr_AUTOINC]⟩,
  ⟨.rscData, 0x118, 1, 0, 1, 0, [F.rscData_COEF]⟩,
  ⟨.rsCfg, 0x400, 8, 128, 1, 0, [F.rsCfg_EN, F.rsCfg_A_COORD, F.rsCfg_CONFLICT, F.rsCfg_SKIP_EVT, F.rsCfg_SKIPS]⟩,
  ⟨.rsStart, 0x408, 8, 128, 1, 0, [F.rsStart_VALUE]⟩,
  ⟨.rsStep, 0x410, 8, 128, 1, 0, [F.rsStep_VALUE]⟩,
  ⟨.rsMask, 0x418, 8, 128, 8, 8, [F.rsMask_CH]⟩,
  ⟨.trigCfg, 0x2000, 256, 32, 1, 0, [F.trigCfg_EN, F.trigCfg_COORD, F.trigCfg_DIR, F.trigCfg_PERIODIC, F.trigCfg_DATA, F.trigCfg_PART, F.trigCfg_FIRES, F.trigCfg_SKIPS, F.trigCfg_SKIP_EVT, F.trigCfg_DROP_EVT]⟩,
  ⟨.trigTarget, 0x2008, 256, 32, 1, 0, [F.trigTarget_VALUE]⟩,
  ⟨.trigStep, 0x2010, 256, 32, 1, 0, [F.trigStep_VALUE]⟩,
  ⟨.trigDst, 0x2018, 256, 32, 1, 0, [F.trigDst_ADDR, F.trigDst_PORT, F.trigDst_CLUSTER, F.trigDst_DIE, F.trigDst_PKG]⟩]

/-- The registers of block sc. -/
def regs_sc : List RegDef := [
  ⟨.scCtl, 0x0, 1, 0, 1, 0, [F.scCtl_LOCK]⟩,
  ⟨.laneCfg, 0x100, 32, 64, 1, 0, [F.laneCfg_DIR, F.laneCfg_FMT, F.laneCfg_EN, F.laneCfg_HF_EN, F.laneCfg_LANE_ILK, F.laneCfg_EXPECT, F.laneCfg_CERR_LIM]⟩,
  ⟨.laneTime, 0x108, 32, 64, 1, 0, [F.laneTime_LATC]⟩,
  ⟨.laneTx, 0x110, 32, 64, 1, 0, [F.laneTx_OFPER]⟩,
  ⟨.laneStat, 0x118, 32, 64, 1, 0, [F.laneStat_STATE, F.laneStat_FAULT, F.laneStat_FAULT_EVT, F.laneStat_SEQ_EVT, F.laneStat_HEADER, F.laneStat_CERR, F.laneStat_SEQERR]⟩,
  ⟨.laneStamp, 0x120, 32, 64, 1, 0, [F.laneStamp_FRAC, F.laneStamp_T]⟩,
  ⟨.chCfg, 0x1000, 256, 64, 1, 0, [F.chCfg_EN, F.chCfg_PART, F.chCfg_LAYOUT]⟩,
  ⟨.chDst, 0x1008, 256, 64, 1, 0, [F.chDst_ADDR, F.chDst_PORT, F.chDst_CLUSTER, F.chDst_DIE, F.chDst_PKG]⟩,
  ⟨.chLim, 0x1010, 256, 64, 1, 0, [F.chLim_LOW, F.chLim_HIGH]⟩,
  ⟨.chCmp, 0x1018, 256, 64, 1, 0, [F.chCmp_HEN, F.chCmp_LEN, F.chCmp_CONSEC, F.chCmp_BADS, F.chCmp_HMAP, F.chCmp_LMAP]⟩,
  ⟨.chStat, 0x1020, 256, 64, 1, 0, [F.chStat_SAMPLE, F.chStat_STATUS, F.chStat_HTRIP, F.chStat_LTRIP, F.chStat_DROP_EVT, F.chStat_FORCED]⟩,
  ⟨.chSafe, 0x1028, 256, 64, 1, 0, [F.chSafe_SAFE, F.chSafe_SAFE_ILK]⟩,
  ⟨.ilkStat, 0x5000, 1, 0, 1, 0, [F.ilkStat_OUT, F.ilkStat_LATCH, F.ilkStat_FLAG, F.ilkStat_FORCE, F.ilkStat_FATAL]⟩,
  ⟨.ilkLog, 0x5100, 8, 32, 1, 0, [F.ilkLog_SRC, F.ilkLog_TEST, F.ilkLog_INDEX, F.ilkLog_VALUE, F.ilkLog_VALID]⟩,
  ⟨.ilkLogt, 0x5108, 8, 32, 1, 0, [F.ilkLogt_FRAC, F.ilkLogt_T]⟩,
  ⟨.ilkTest, 0x5200, 1, 0, 1, 0, [F.ilkTest_VALUE, F.ilkTest_CH, F.ilkTest_ARM]⟩]

/-- The registers of block ring. -/
def regs_ring : List RegDef := [
  ⟨.hubTo, 0x0, 14, 8, 1, 0, [F.hubTo_TIMEOUT, F.hubTo_TIMEOUTS]⟩,
  ⟨.segSel, 0x100, 1, 0, 1, 0, [F.segSel_SEG, F.segSel_PART]⟩,
  ⟨.segQuota, 0x108, 1, 0, 1, 0, [F.segQuota_QUOTA, F.segQuota_COUNT]⟩,
  ⟨.barCfg, 0x1000, 16, 32, 1, 0, [F.barCfg_SCOPE, F.barCfg_UNIT, F.barCfg_CORES, F.barCfg_ARM, F.barCfg_DISARM]⟩,
  ⟨.barMask0, 0x1008, 16, 32, 1, 0, [F.barMask0_CL]⟩,
  ⟨.barMask1, 0x1010, 16, 32, 1, 0, [F.barMask1_CL]⟩,
  ⟨.barStat, 0x1018, 16, 32, 1, 0, [F.barStat_ARMED, F.barStat_DONE, F.barStat_STRAY, F.barStat_COMPLETIONS]⟩,
  ⟨.barArrive, 0x1200, 1, 0, 1, 0, [F.barArrive_CHANNEL]⟩,
  ⟨.gsched, 0x1300, 1, 0, 1, 0, [F.gsched_KIND, F.gsched_SYSTEM]⟩,
  ⟨.gschedT, 0x1308, 1, 0, 1, 0, [F.gschedT_T_S]⟩,
  ⟨.snapStat, 0x1310, 1, 0, 1, 0, [F.snapStat_STAGED, F.snapStat_DONE, F.snapStat_ABORTED, F.snapStat_REFUSED, F.snapStat_SEQ]⟩,
  ⟨.snapBase, 0x1318, 1, 0, 1, 0, [F.snapBase_OFFSET]⟩]

/-- The registers of block cc. -/
def regs_cc : List RegDef := [
  ⟨.ccCtl, 0x0, 8, 256, 1, 0, [F.ccCtl_RUN, F.ccCtl_RESET]⟩,
  ⟨.ccBoot, 0x8, 8, 256, 1, 0, [F.ccBoot_PC]⟩,
  ⟨.ccStat, 0x10, 8, 256, 1, 0, [F.ccStat_RUNNING, F.ccStat_STOPPED, F.ccStat_HALTED, F.ccStat_WAITING, F.ccStat_DBG_HALTED, F.ccStat_DOUBLE, F.ccStat_LAST_CAUSE, F.ccStat_TRAPS]⟩,
  ⟨.ccPc, 0x18, 8, 256, 1, 0, [F.ccPc_PC]⟩,
  ⟨.ccDbg, 0x20, 8, 256, 1, 0, [F.ccDbg_HALT_REQ, F.ccDbg_STEP, F.ccDbg_SEL]⟩,
  ⟨.ccDbgData, 0x28, 8, 256, 1, 0, [F.ccDbgData_VALUE]⟩]

/-- The registers of block sched. -/
def regs_sched : List RegDef := [
  ⟨.thrCfg, 0x0, 256, 8, 1, 0, [F.thrCfg_PRIO, F.thrCfg_AFF, F.thrCfg_STATE, F.thrCfg_LAST, F.thrCfg_LAST_VALID, F.thrCfg_CORE, F.thrCfg_OP]⟩,
  ⟨.schedCore, 0x800, 8, 32, 1, 0, [F.schedCore_CUR, F.schedCore_CUR_VALID, F.schedCore_OFFER, F.schedCore_OFFER_VALID, F.schedCore_BADOP]⟩,
  ⟨.schedClaim, 0x808, 8, 32, 1, 0, [F.schedClaim_SLOT, F.schedClaim_VALID]⟩,
  ⟨.schedOp, 0x810, 8, 32, 1, 0, [F.schedOp_OP]⟩,
  ⟨.evCfg, 0x1000, 512, 8, 1, 0, [F.evCfg_EN, F.evCfg_SLOT, F.evCfg_SLOT_EN, F.evCfg_MSIX_EN, F.evCfg_PEND, F.evCfg_RAISE, F.evCfg_COUNT]⟩,
  ⟨.timerCmp, 0x2000, 16, 16, 1, 0, [F.timerCmp_T]⟩,
  ⟨.timerCfg, 0x2008, 16, 16, 1, 0, [F.timerCfg_EN, F.timerCfg_PERIOD, F.timerCfg_MISSED]⟩,
  ⟨.doorbell, 0x2100, 1, 0, 1, 0, [F.doorbell_RING]⟩]

/-- The registers of block lock. -/
def regs_lock : List RegDef := [
  ⟨.lk, 0x0, 64, 8, 1, 0, [F.lk_ACQUIRED, F.lk_HELD, F.lk_SELF, F.lk_OWNER, F.lk_RELEASE, F.lk_FORCE]⟩,
  ⟨.lkPeek, 0x800, 64, 8, 1, 0, [F.lkPeek_HELD, F.lkPeek_OWNER, F.lkPeek_THREAD, F.lkPeek_THR_VALID, F.lkPeek_FORCED_EVT, F.lkPeek_BADREL, F.lkPeek_ACQS]⟩]

/-- The registers of block gport. -/
def regs_gport : List RegDef := [
  ⟨.gpCfg, 0x0, 8, 256, 1, 0, [F.gpCfg_PMASK, F.gpCfg_THREAD_OK, F.gpCfg_WAIT]⟩,
  ⟨.gpCtl, 0x8, 8, 256, 1, 0, [F.gpCtl_PNEXT]⟩,
  ⟨.gpStat, 0x10, 8, 256, 1, 0, [F.gpStat_LEVEL, F.gpStat_REASON, F.gpStat_INJECTED, F.gpStat_DROPPED]⟩,
  ⟨.mbxStat, 0x1000, 64, 8, 1, 0, [F.mbxStat_LEVEL, F.mbxStat_PART, F.mbxStat_ASSIGNED, F.mbxStat_UNC_EVT, F.mbxStat_APPENDS]⟩]

/-- The registers of block sv. -/
def regs_sv : List RegDef := [
  ⟨.svCtl, 0x0, 1, 0, 1, 0, [F.svCtl_RUN, F.svCtl_RESET, F.svCtl_CMP_TEST, F.svCtl_DBG_EN, F.svCtl_LOCK]⟩,
  ⟨.svStat, 0x8, 1, 0, 1, 0, [F.svStat_STATE, F.svStat_CMP_OK, F.svStat_CMP_FAIL, F.svStat_WDOG_EVT, F.svStat_IN_FULL, F.svStat_OUT_FULL, F.svStat_TMR_ARMED, F.svStat_LAST_CAUSE, F.svStat_TRAPS]⟩,
  ⟨.svBoot, 0x10, 1, 0, 1, 0, [F.svBoot_PC]⟩,
  ⟨.svPc, 0x18, 1, 0, 1, 0, [F.svPc_PC]⟩,
  ⟨.svDbg, 0x20, 1, 0, 1, 0, [F.svDbg_HALT_REQ, F.svDbg_STEP, F.svDbg_SEL]⟩,
  ⟨.svDbgData, 0x28, 1, 0, 1, 0, [F.svDbgData_VALUE]⟩,
  ⟨.svEvt, 0x40, 1, 0, 1, 0, [F.svEvt_TRIP, F.svEvt_LANE, F.svEvt_FLT, F.svEvt_TMR, F.svEvt_MBX]⟩,
  ⟨.svEvtEn, 0x48, 1, 0, 1, 0, [F.svEvtEn_TRIP, F.svEvtEn_LANE, F.svEvtEn_FLT, F.svEvtEn_TMR, F.svEvtEn_MBX]⟩,
  ⟨.svTmr, 0x50, 1, 0, 1, 0, [F.svTmr_T]⟩,
  ⟨.svWdog, 0x58, 1, 0, 1, 0, [F.svWdog_PERIOD, F.svWdog_EN, F.svWdog_KICK]⟩,
  ⟨.svMbxIn, 0x60, 1, 0, 1, 0, [F.svMbxIn_DATA]⟩,
  ⟨.svMbxOut, 0x68, 1, 0, 1, 0, [F.svMbxOut_DATA]⟩,
  ⟨.ilkForce, 0x100, 1, 0, 1, 0, [F.ilkForce_FORCE]⟩,
  ⟨.ilkRel, 0x108, 1, 0, 1, 0, [F.ilkRel_REL]⟩,
  ⟨.chForce, 0x110, 8, 8, 1, 0, [F.chForce_CH]⟩,
  ⟨.svMisc, 0x200, 1, 0, 1, 0, [F.svMisc_GROUP, F.svMisc_CMPA, F.svMisc_CMPB, F.svMisc_DISAGREE, F.svMisc_WIRE, F.svMisc_CYCLE, F.svMisc_VALID]⟩]

/-- The registers of block flt. -/
def regs_flt : List RegDef := [
  ⟨.fltCtl, 0x0, 1, 0, 1, 0, [F.fltCtl_LOCK, F.fltCtl_INJ_EN]⟩,
  ⟨.fltSum, 0x8, 1, 0, 1, 0, [F.fltSum_STICKY_C, F.fltSum_STICKY_U, F.fltSum_STICKY_F, F.fltSum_NFLT, F.fltSum_NFATAL]⟩,
  ⟨.flogStat, 0x10, 1, 0, 1, 0, [F.flogStat_LEVEL, F.flogStat_POP, F.flogStat_DISCARDS]⟩,
  ⟨.flogW0, 0x18, 1, 0, 1, 0, [F.flogW0_W0]⟩,
  ⟨.flogW1, 0x20, 1, 0, 1, 0, [F.flogW1_W1]⟩,
  ⟨.injSel, 0x40, 1, 0, 1, 0, [F.injSel_KIND, F.injSel_LOCATION]⟩,
  ⟨.injCtl, 0x48, 1, 0, 1, 0, [F.injCtl_ARM, F.injCtl_PAIR, F.injCtl_MASK, F.injCtl_PAIRCYC]⟩,
  ⟨.frCtl, 0x80, 1, 0, 1, 0, [F.frCtl_VALID, F.frCtl_CLR, F.frCtl_OVERWROTE, F.frCtl_CRC_OK, F.frCtl_FATALS]⟩,
  ⟨.fkCfg, 0x100, 64, 16, 1, 0, [F.fkCfg_N, F.fkCfg_MAXC, F.fkCfg_MASK]⟩,
  ⟨.fkWin, 0x108, 64, 16, 1, 0, [F.fkWin_W]⟩,
  ⟨.fkStat, 0x800, 64, 8, 1, 0, [F.fkStat_STICKY, F.fkStat_LIVE, F.fkStat_ACK, F.fkStat_CLASS, F.fkStat_EXC, F.fkStat_WIRE, F.fkStat_EVENTS, F.fkStat_EXCS]⟩]

/-- The registers of block mc. -/
def regs_mc : List RegDef := [
  ⟨.bootStat, 0x0, 1, 0, 1, 0, [F.bootStat_STEP, F.bootStat_ERROR, F.bootStat_SLOT, F.bootStat_RECOVERY, F.bootStat_WARM, F.bootStat_VERSION]⟩,
  ⟨.mcCmd, 0x8, 1, 0, 1, 0, [F.mcCmd_OP]⟩,
  ⟨.mcArg, 0x10, 1, 0, 1, 0, [F.mcArg_ARG]⟩,
  ⟨.mcStat, 0x18, 1, 0, 1, 0, [F.mcStat_BUSY, F.mcStat_OVERRUN, F.mcStat_OPEN, F.mcStat_VERIFIED, F.mcStat_OP, F.mcStat_RESULT]⟩,
  ⟨.otpStat, 0x20, 1, 0, 1, 0, [F.otpStat_KEYS, F.otpStat_REVOKED, F.otpStat_SVN]⟩,
  ⟨.logStat, 0x100, 1, 0, 1, 0, [F.logStat_NEXT, F.logStat_LEVEL]⟩,
  ⟨.logIdx, 0x108, 1, 0, 1, 0, [F.logIdx_SEQ]⟩,
  ⟨.logW0, 0x110, 1, 0, 1, 0, [F.logW0_W]⟩,
  ⟨.logW1, 0x118, 1, 0, 1, 0, [F.logW1_W]⟩,
  ⟨.smbCfg, 0x180, 1, 0, 1, 0, [F.smbCfg_ADDR, F.smbCfg_PEC_REQ]⟩,
  ⟨.pmbDev, 0x1c0, 8, 8, 1, 0, [F.pmbDev_ADDR, F.pmbDev_EN, F.pmbDev_RAIL]⟩,
  ⟨.ts, 0x200, 40, 8, 1, 0, [F.ts_VALUE, F.ts_MAX, F.ts_VALID, F.ts_CLR]⟩]

/-- The registers of block cap. -/
def regs_cap : List RegDef := [
  ⟨.capLock, 0x0, 1, 0, 1, 0, [F.capLock_LOCK]⟩,
  ⟨.capCfg, 0x1000, 64, 64, 1, 0, [F.capCfg_MODE, F.capCfg_EN, F.capCfg_LANE, F.capCfg_CHMASK, F.capCfg_PKT, F.capCfg_PART, F.capCfg_ASSIGNED, F.capCfg_CLOSE_T]⟩,
  ⟨.capRing, 0x1008, 64, 64, 1, 0, [F.capRing_BASE, F.capRing_SIZE, F.capRing_THRESH]⟩,
  ⟨.capWp, 0x1010, 64, 64, 1, 0, [F.capWp_PTR]⟩,
  ⟨.capRp, 0x1018, 64, 64, 1, 0, [F.capRp_PTR]⟩,
  ⟨.capStat, 0x1020, 64, 64, 1, 0, [F.capStat_READY, F.capStat_GAP_EVT, F.capStat_BADRP, F.capStat_NOSRC, F.capStat_WAITING, F.capStat_RECORDS]⟩]

/-- The registers of block pcie. -/
def regs_pcie : List RegDef := [
  ⟨.pcieStat, 0x0, 1, 0, 1, 0, [F.pcieStat_LINK, F.pcieStat_SPEED, F.pcieStat_WIDTH, F.pcieStat_BME, F.pcieStat_MSIX_EN, F.pcieStat_FMASK, F.pcieStat_LINK_EVT, F.pcieStat_LINKDOWNS]⟩,
  ⟨.pcieWin0, 0x8, 1, 0, 1, 0, [F.pcieWin0_BASE]⟩,
  ⟨.pcieWin1, 0x10, 1, 0, 1, 0, [F.pcieWin1_BASE]⟩,
  ⟨.pcieErraddr, 0x18, 1, 0, 1, 0, [F.pcieErraddr_ADDR]⟩,
  ⟨.pcieErrinfo, 0x20, 1, 0, 1, 0, [F.pcieErrinfo_VALID, F.pcieErrinfo_WRITE, F.pcieErrinfo_BAR2, F.pcieErrinfo_REASON, F.pcieErrinfo_COUNT]⟩]

/-- The registers of block cp. -/
def regs_cp : List RegDef := [
  ⟨.cpStat, 0x0, 2, 32, 1, 0, [F.cpStat_STATE, F.cpStat_LOCKED, F.cpStat_LINK_EVT, F.cpStat_DOWNS, F.cpStat_CTLERR, F.cpStat_DROPS]⟩]

/-- The registers of block mp. -/
def regs_mp : List RegDef := [
  ⟨.mpCtl, 0x0, 1, 0, 1, 0, [F.mpCtl_EN, F.mpCtl_FLIP_EN, F.mpCtl_PER]⟩,
  ⟨.mpFlipT, 0x8, 1, 0, 1, 0, [F.mpFlipT_T]⟩,
  ⟨.mpStat, 0x10, 1, 0, 1, 0, [F.mpStat_FSEL, F.mpStat_SKIPS, F.mpStat_FLIPS]⟩,
  ⟨.mpOwn, 0x1000, 1024, 8, 1, 0, [F.mpOwn_PART, F.mpOwn_ASSIGNED]⟩]

/-- The registers of block aux. -/
def regs_aux : List RegDef := [
  ⟨.auxCfg, 0x0, 32, 8, 1, 0, [F.auxCfg_FUNC, F.auxCfg_SEL, F.auxCfg_ACTIVE, F.auxCfg_PENDING]⟩,
  ⟨.auxOut, 0x100, 1, 0, 1, 0, [F.auxOut_PIN]⟩,
  ⟨.auxIn, 0x108, 1, 0, 1, 0, [F.auxIn_PIN]⟩,
  ⟨.auxLock, 0x200, 1, 0, 1, 0, [F.auxLock_LOCK]⟩]

/-- The registers of block pfcfg. -/
def regs_pfcfg : List RegDef := [
  ⟨.pfCfg, 0x0, 96, 8, 1, 0, [F.pfCfg_WIDTH, F.pfCfg_PROT, F.pfCfg_FULL_ACT, F.pfCfg_IDLE]⟩]

/-- The registers of block pfstat. -/
def regs_pfstat : List RegDef := [
  ⟨.pfStat, 0x0, 96, 8, 1, 0, [F.pfStat_LEVEL, F.pfStat_OVF_EVT, F.pfStat_PERR_EVT, F.pfStat_CORR, F.pfStat_DROPPED, F.pfStat_OVF]⟩]

/-- The registers of block pfcmd. -/
def regs_pfcmd : List RegDef := [
  ⟨.pfCmd, 0x0, 96, 8, 1, 0, [F.pfCmd_DROP]⟩]

/-- The register table of a block. -/
def blkRegs : Blk → List RegDef
  | .clctl => regs_clctl
  | .tokq => regs_tokq
  | .rtr => regs_rtr
  | .rtrs => regs_rtrs
  | .pe => regs_pe
  | .region => regs_region
  | .devid => regs_devid
  | .pwr => regs_pwr
  | .ap => regs_ap
  | .lens => regs_lens
  | .sc => regs_sc
  | .ring => regs_ring
  | .cc => regs_cc
  | .sched => regs_sched
  | .lock => regs_lock
  | .gport => regs_gport
  | .sv => regs_sv
  | .flt => regs_flt
  | .mc => regs_mc
  | .cap => regs_cap
  | .pcie => regs_pcie
  | .cp => regs_cp
  | .mp => regs_mp
  | .aux => regs_aux
  | .pfcfg => regs_pfcfg
  | .pfstat => regs_pfstat
  | .pfcmd => regs_pfcmd

/-- The place of an offset in a register of one or two repetitions: the flat instance number. -/
def RegDef.locate (d : RegDef) (o : Nat) : Option Nat :=
  if o < d.off then none
  else
    let x := o - d.off
    let i := if d.n1 = 1 then 0 else x / d.s1
    let y := if d.n1 = 1 then x else x % d.s1
    let j := if d.n2 = 1 then 0 else y / d.s2
    let z := if d.n2 = 1 then y else y % d.s2
    if z = 0 ∧ i < d.n1 ∧ j < d.n2 then some (i * d.n2 + j) else none

/-- The number of instances of a register in one unit of its block. -/
def RegDef.count (d : RegDef) : Nat := d.n1 * d.n2

/-- The register of a list that lies at a slot offset, with its instance number in the unit. -/
def findReg : List RegDef → Nat → Option (RegDef × Nat)
  | [], _ => none
  | d :: ds, o =>
    match d.locate o with
    | some i => some (d, i)
    | none => findReg ds o

/-- R377: the reset value of FK_CFG.MAXC by fault kind. -/
def maxcReset (k : Nat) : Nat :=
  if k = 17 ∨ k = 22 ∨ k = 24 ∨ k = 27 then 0
  else if k = 32 ∨ k = 33 ∨ k = 34 then 2
  else if 1 ≤ k ∧ k ≤ 38 then 1 else 0

/-- The key of a field instance in the register map of State (DESIGN CHOICE, log 135). -/
def Fld.key (f : Fld) (i : Nat) : Nat := Nat.pair f.id i

/-- The register fields whose reset value depends on the instance (R377), as entries of the register map. -/
def regsReset : List (Nat × Nat) :=
  (List.range 39).filterMap fun k =>
    if maxcReset k = 0 then none else some (F.fkCfg_MAXC.key k, maxcReset k)

end Sys2Proof.Machine
end

