-- ==== Sys2Proof/Machine/State.lean ====
section
/-!
DEFINITION. Sys2Proof/Machine/State.lean: everything the spec gives one package, as plain data. Register fields live in one map keyed by
field and instance (Machine/Regs.lean); every store, queue and counter that is not a register has a field of its own.
-/
namespace Sys2Proof.Machine

/-! ## Tokens and packets (R33, R34, R274, R275) -/

/-- A token in a store: tag, due, data and the poison bit that travels beside it (R33, R38). -/
structure Token where
  tag : W
  due : W
  data : W
  poison : Bool
  deriving DecidableEq, Repr

/-- Nothing travels beside the packet. -/
def Side.none : Side := ⟨0, 0, 0⟩

/-- A packet waiting in a router, gateway, ring stop or chain-port buffer (R34, R273). A bulk packet carries its body flits
and moves as a whole, because it holds each link from its head flit to its last (R273). -/
structure Flit where
  /-- packet type of R36: 0 TOKEN, 1 REQ, 2 RSP, 3 BULK_HEAD -/
  ty : Nat
  poison : Bool
  pay : BitVec 144
  bodies : List (BitVec 144)
  /-- class of R273: partition 0–7, or 8 for the system class -/
  cls : Nat
  vc : Nat
  urg : Nat
  /-- cycle of its router's clock in which it entered the buffer (R277) -/
  since : Nat
  /-- where it waits: router number of R378 -/
  node : Nat
  /-- segment by which it arrived; none for injection at this node -/
  via : Option Nat
  /-- segment it waits for; none when it waits at the local port -/
  out : Option Nat
  /-- emitting PE of a token that stands at its emit stage (R96) -/
  pe : Option Nat
  side : Side
  deriving DecidableEq, Repr

/-- A request that its initiator is timing (R280). `park` is false for a hub initiator. -/
structure Timed where
  ret : Nat
  addr : W
  op : Nat
  part : Nat
  sys : Bool
  /-- tick count at which the request left -/
  left : Nat
  limit : Nat
  /-- the timer has expired and the late response is awaited (R281) -/
  dead : Bool
  /-- the request still waits for injection credit, so that its timer has not started -/
  held : Bool
  deriving DecidableEq, Repr

/-- A GLOBAL message of R282. -/
structure GMsg where
  gop : Nat
  chan : Nat
  scope : Nat
  src : Nat
  ts : W
  arg : Nat
  /-- the participant or unit it speaks for inside the package; 0 for messages of other packages -/
  who : Nat
  deriving DecidableEq, Repr

/-- A response held for a hub initiator until it takes it: its transaction, and value, or cause and detail for an error response, with
the extra word. -/
structure HubRsp where
  init : Nat
  trans : Nat
  ok : Bool
  data : BitVec 64
  extra : W
  deriving DecidableEq, Repr

/-- The data network and the global plane (chapter 10). -/
structure NetSt where
  flits : List Flit
  /-- per segment × 8 + partition: the cycles of the foreground sends of the last 4,096 cycles (R278) -/
  hist : List (Nat × List Nat)
  /-- per segment × 8 + partition: QUOTA (R278) -/
  quota : List (Nat × Nat)
  /-- per segment: the cycle of its last send -/
  last : List (Nat × Nat)
  /-- per segment: the last winner in the order of (input, VC, class) -/
  rr : List (Nat × Nat)
  /-- per router: the latest cycle of its clock that a command named -/
  cyc : List (Nat × Nat)
  /-- system-class requests that reached their target in this package (OP 1, 2, 13) -/
  sysQ : List Flit
  /-- Lens queries waiting at the hub port (OP 10) -/
  lensQ : List Flit
  /-- releases that reached an allocator (OP 11) -/
  relQ : List Flit
  /-- output packets that reached their target (OP 12) -/
  outQ : List Flit
  /-- responses at their PEs (RSP, ANS = 0) -/
  rspQ : List Flit
  /-- deferred answers at their PEs (RSP, ANS = 1) -/
  ansQ : List Flit
  timed : List Timed
  /-- responses that hub initiators have not taken yet, oldest first -/
  hubRsp : List HubRsp
  /-- flits handed to a chain segment, with the segment, oldest first -/
  sent : List (Nat × Flit)
  /-- credits of each chain segment out of the package: segment × 64 + class × 4 + VC (R437) -/
  credit : List (Nat × Nat)
  /-- the last cumulative count taken from CREDIT blocks, by the same key -/
  creditSeen : List (Nat × Nat)
  /-- buffers freed at each chain input, modulo 64, by the same key -/
  freed : List (Nat × Nat)
  /-- GLOBAL messages travelling inside the package -/
  gq : List GMsg
  /-- GLOBAL messages and control blocks handed to the chain: segment and payload, oldest first -/
  gsent : List (Nat × BitVec 144)
  /-- barrier arrivals per channel: core c as c, cluster i as 8 + i, package p as 136 + p -/
  arrived : List (Nat × List Nat)
  deriving DecidableEq, Repr

/-- A scheduled operation staged in this package (R284). -/
structure Staged where
  kind : Nat
  part : Nat
  mode : Nat
  ts : W
  system : Bool
  src : Nat
  /-- of a migration: FROM and TO, clusters of the package `src` (R197) -/
  frm : Nat
  dst : Nat
  /-- packages whose ACK has arrived (kept by the initiator) -/
  acks : List Nat
  /-- packages that must acknowledge (kept by the initiator) -/
  need : List Nat
  /-- the deadline T_s − 2,048 found the acknowledgements complete -/
  cleared : Bool
  deriving DecidableEq, Repr

/-! ## Data banks (chapter 11) -/

/-- An operation waiting at a bank: OP of R274, its word address and operand, and where the answer goes. -/
structure BReq where
  op : Nat
  addr : W
  data : W
  part : Nat
  sys : Bool
  ret : Nat
  urg : Nat
  /-- the firing's tag with port 0 and its output due, which a deferral entry takes (R294) -/
  tag : W
  due : W
  /-- a direct presentation of this PE; none for a queued request -/
  pe : Option Nat
  /-- it was queued when the bank's pending handover began, so it completes with its owner's rights (R302) -/
  pre : Bool
  /-- bit 0 of a system-class access's ARG: it is 32 bits wide -/
  half : Bool
  /-- it is 8 or 16 bits wide, which a bank does not accept (R26, R315) -/
  narrow : Bool
  /-- the words of a BWR in address order -/
  words : List W
  /-- its packet is one that R276 refuses -/
  bad : Bool
  deriving DecidableEq, Repr

/-- A deferral entry (R294). -/
structure Defer where
  tag : W
  due : W
  word : Nat
  /-- the urgency of the READ's request as it arrived, which its answer's band follows (R277) -/
  urg : Nat
  deriving DecidableEq, Repr

/-- The hidden state of the data banks; a bank is named by cluster index × 16 + bank (R378). -/
structure BankSt where
  /-- presence: bank × 4096 + word ↦ 1 when PRESENT -/
  present : List (Nat × Nat)
  /-- uncorrectable words: 1 data, 2 presence (R298) -/
  bad : List (Nat × Nat)
  /-- corrected words whose write-back is pending (R298) -/
  wb : List (Nat × Nat)
  queue : List (Nat × List BReq)
  /-- direct presentations per cluster -/
  direct : List (Nat × List BReq)
  defer : List (Nat × List Defer)
  /-- words locked while their deferred READs are answered, with the written value (R295) -/
  answering : List (Nat × W)
  scrub : List (Nat × Nat)
  /-- handovers: new owner × 2 + CLR (R302) -/
  handover : List (Nat × Nat)
  /-- power moves in progress: target state (R305) -/
  move : List (Nat × Nat)
  deriving DecidableEq, Repr

/-! ## Threads, locks and the graph port (chapter 13) -/

/-- A mailbox entry (R350); `unc` marks an entry with an uncorrectable error. -/
structure MbxEntry where
  data : W
  due : W
  tag : W
  unc : Bool
  deriving DecidableEq, Repr

/-- The hidden state of the scheduler and the graph port. -/
structure SchedSt where
  /-- READY_T of each slot, as the order number of its last entry into READY (R339) -/
  readyT : List (Nat × Nat)
  order : Nat
  mbx : List (Nat × List MbxEntry)
  /-- injection queue of each core, with the source record's due already applied (R352) -/
  inj : List (Nat × List Token)
  /-- the GCOLs that have executed and not retired, oldest first: mailbox, and the entry that each removed, whose place stays reserved
  (R353, R354) -/
  ahead : List (Nat × Option MbxEntry)
  /-- the tick count of a source's last raise by what Lens judges at a boundary (R344) -/
  raisedAt : List (Nat × Nat)
  deriving DecidableEq, Repr

/-! ## Output targets (R91–R93) -/

/-- An output at its target: kind and index of R91, and what the flit of R274 carries. -/
structure OutVal where
  kind : Nat
  index : Nat
  data : W
  due : W
  part : Nat
  ctx : Nat
  epoch : Bool
  emitAt : Bool
  ack : Bool
  ret : Nat
  urg : Nat
  /-- the tag of its firing, with port 0 (R186); of a packet from another package what the command brings (DESIGN CHOICE, log 126) -/
  tag : W
  deriving DecidableEq, Repr

/-- The hold stores and the outputs that wait for room, oldest first. -/
structure OutSt where
  held : List OutVal
  waiting : List OutVal
  /-- how many OUT values took effect at a target (kind × 65,536 + index) in this tick (R93) -/
  now : List (Nat × Nat)
  deriving DecidableEq, Repr

/-! ## Fault collector (chapter 15) -/

/-- A fault event on its way to the root (R376). -/
structure FaultEv where
  kind : Nat
  loc : Nat
  detail : Nat
  part : Option Nat
  t : W
  inj : Bool
  deriving DecidableEq, Repr

/-- Escalation state of one instance of a kind (R382). -/
structure FInst where
  kind : Nat
  loc : Nat
  cnt : Nat
  start : W
  eff : Nat
  deriving DecidableEq, Repr

/-- The hidden state of the fault collector. -/
structure FaultSt where
  queue : List FaultEv
  /-- records: word 0 and word 1 of R385, oldest first -/
  log : List (BitVec 64 × BitVec 64)
  insts : List FInst
  /-- level sources that hold their pair at present: kind × 65536 + location -/
  live : List Nat
  /-- pairs in wire fault, and pairs that read wrong on the last sample -/
  wire : List Nat
  suspect : List Nat
  nfatal : Bool
  /-- word 1 of the deciding record and the decision stamp, from the decision on (R388) -/
  decision : Option (BitVec 64 × BitVec 64)
  /-- the log as it stood at the decision (R391) -/
  decisionLog : List (BitVec 64 × BitVec 64)
  recordWritten : Bool
  /-- instances whose pair an injection holds at 0b00 (R393), with the cycles left -/
  pairHeld : List (Nat × Nat)
  /-- the fatal record of VBAT memory, 256 words; unlisted words are 0 (R391) -/
  vbat : List (Nat × BitVec 64)
  deriving DecidableEq, Repr

/-! ## Clusters (chapters 03–06) -/

/-- An operand of an enabled instance: its due, and its data and poison, or the spill record that holds it (R108). -/
structure SlotOp where
  due : W
  data : W
  poison : Bool
  record : Option Nat
  deriving DecidableEq, Repr

/-- An enabled instance in a queue slot (R108); the slots of a cluster stand in the order in which they were appended. -/
structure Slot where
  cluster : Nat
  pe : Nat
  /-- the instance's tag with port 0 and bit [0] clear -/
  tag : W
  band : Nat
  late : Bool
  l : Option SlotOp
  r : Option SlotOp
  g : Option SlotOp
  /-- the due that its band was chosen from -/
  due : W
  deriving DecidableEq, Repr

/-- The micro-sequencer's registers for one firing (R146–R154): μPC, micro-stack, MT0–MT3, the served mask, bits [95:48] of the last
full multiply, the last response with its poison bit, T at the first execute, the words executed, TEN of the last word, the sticky bits
gathered for the emit stage (R158), and TRAP × 4 + RM as the firing's first execute stage found them (R59). -/
structure MicroSt where
  upc : Nat
  stack : List Nat
  mt : List W
  served : Nat
  hi : Option W
  resp : Option (W × Bool)
  t0 : W
  count : Nat
  ten : Nat
  stk : BitVec 7
  arith : Nat
  deriving DecidableEq, Repr

/-- A firing that waits for a response in a park entry, or for a grant in the allocation wait list (R127, R154). -/
structure Park where
  cluster : Nat
  pe : Nat
  entry : Nat
  /-- the instruction word of the firing (R60) -/
  word : Nat
  tag : W
  due : W
  l : W
  r : W
  g : W
  /-- the address of its request -/
  addr : W
  user : Option MicroSt
  /-- nothing waits for the response: the entry keeps its number in use until the response comes (DESIGN CHOICE, log 159) -/
  detached : Bool
  deriving DecidableEq, Repr

/-- A granted block of contexts (R128, R129). -/
structure Block where
  part : Nat
  region : Nat
  pool : Nat
  base : Nat
  g : Nat
  t : W
  deriving DecidableEq, Repr

/-- A reclaim filter entry of a cluster (R141): discards until the tick count `ends`; it keeps its block out of the pool. -/
structure Filter where
  part : Nat
  block : Block
  ends : Nat
  deriving DecidableEq, Repr

/-- A reclaim step in progress (R141). -/
structure Reclaim where
  part : Nat
  block : Block
  removed : Nat
  deriving DecidableEq, Repr

/-- The hidden state of the clusters, the context allocators and the deadlock detector. -/
structure ClusterSt where
  /-- tokens at the emit stages that await a lane of their own cluster: cluster × 16 + PE, token -/
  emit : List (Nat × Token)
  /-- flits that wait for injection credit at their node (R273) -/
  injQ : List Flit
  /-- matching-store ways: cluster × 8192 + entry (R100) -/
  ways : List (Nat × Token)
  /-- spill chains: cluster × 2048 + set ↦ record indexes, head first (R105) -/
  chains : List (Nat × List Nat)
  /-- allocated spill records of each cluster -/
  records : List (Nat × List Nat)
  slots : List Slot
  /-- lanes in a slot hold: cluster × 16 + PE -/
  slotHold : List (Nat × Nat)
  /-- lanes in a spill hold, with the token that waits to be inserted -/
  spillHold : List (Nat × Token)
  /-- debug holding registers: cluster × 16 + initiator ↦ entry and copy (R30) -/
  holding : List (Nat × (Nat × Token × Bool))
  parks : List Park
  /-- firings whose request finds no free park entry, so that they hold the sequencer of their PE, oldest first (R154) -/
  seqHeld : List Park
  /-- allocation wait lists, in order of arrival (R127) -/
  waits : List Park
  blocks : List Block
  filters : List Filter
  reclaim : List Reclaim
  /-- running conservation counts: partition × 8 + (0 produced, 1 consumed, 2 progress, 3/4 produced and consumed in
  epoch 0, 5/6 in epoch 1); the registers take them at each tick boundary (R136) -/
  cnt : List (Nat × Nat)
  /-- PROGRESS at the previous detector boundary, by partition (R138) -/
  progPrev : List (Nat × Nat)
  /-- the tick count of the last detector evaluation, by partition -/
  evalT : List (Nat × Nat)
  /-- partitions whose reclaim step waits for a free filter entry (R143) -/
  reclaimWait : List Nat
  /-- partitions that were not blocked at some tick since their previous boundary -/
  unblocked : List (Nat × Nat)
  /-- rounding mode and trap enables in force, by partition: TRAP × 4 + RM (R59) -/
  arith : List (Nat × Nat)
  /-- partitions whose ARITH_STAT was written in this tick: the value is in force from the next boundary (R59) -/
  arithW : List Nat
  /-- EMPTYING clusters that were released to UNOWNED (R120) -/
  emptying : List (Nat × Nat)
  /-- uncorrected parity errors waiting for a control-store reload: cluster ↦ tick count of its start (R161) -/
  reload : List (Nat × Nat)
  /-- PEs (cluster × 16 + PE) that a machine check of their own stopped, until their cluster's reload ends (R160, R164) -/
  mchkPe : List Nat
  deriving DecidableEq, Repr

/-! ## PCI Express endpoint (chapter 17) -/

/-- A completion to the host: the BAR it answers (3 for configuration space), its status (0 successful, 1 Unsupported Request,
2 Configuration Request Retry Status, 4 Completer Abort), whether its data are poisoned, and the data bytes (R422–R425). -/
structure HostCpl where
  bar : Nat
  status : Nat
  ep : Bool
  data : List Nat
  deriving DecidableEq, Repr

/-- A BAR0 request: its offset, its size in bytes, whether it writes, its data, whether the TLP was poisoned, and the transaction under which
its access left through the network (R423, R424). -/
structure HostReq where
  off : Nat
  size : Nat
  write : Bool
  data : Nat
  poisoned : Bool
  trans : Option Nat
  deriving DecidableEq, Repr

/-- An MSI-X message: its vector, and the address and data of the vector's table entry as it was sent. -/
structure MsixMsg where
  vec : Nat
  addr : BitVec 64
  data : BitVec 32
  deriving DecidableEq, Repr

/-- The hidden state of the endpoint. -/
structure PcieSt where
  /-- MSI-X table dwords, vector × 4 + dword; unlisted vector-control dwords read 1 (masked), others 0 (R426, R427) -/
  msixTab : List (Nat × Nat)
  msixPend : List (Nat × Nat)
  /-- messages sent to the host, oldest first (R426) -/
  msixSent : List MsixMsg
  /-- configuration registers that the host has written (R422) -/
  cfg : List (Nat × Nat)
  /-- completions sent to the host, oldest first -/
  cpl : List HostCpl
  /-- BAR0 requests in order of arrival: the first is to be served, or awaits its response (R424) -/
  queue : List HostReq
  /-- posted BAR0 writes that await DONE -/
  posted : List HostReq
  deriving DecidableEq, Repr

/-! ## Aperture (chapter 07) -/

/-- A redirect entry of a partition (R197). -/
structure Redirect where
  part : Nat
  pkg : Nat
  frm : Nat
  dst : Nat
  deriving DecidableEq, Repr

/-- A source of a partition under its SOURCE record: D_s, PERIOD and BURST, staged values of a mode change, and the T before which a
further token overruns its declared rate (R180, R187). -/
structure SourceCfg where
  id : Nat
  part : Nat
  ds : Nat
  period : Nat
  burst : Nat
  tat : Option W
  deriving DecidableEq, Repr

/-- An output target assigned to a partition, with its hold entries (R172, R180). -/
structure Tgt where
  kind : Nat
  index : Nat
  part : Nat
  hold : Nat
  deriving DecidableEq, Repr

/-- An open migration (R196–R199): the certificate of the placement after the move, and the switch tick once it is staged. -/
structure Mig where
  part : Nat
  frm : Nat
  dst : Nat
  cert : List Nat
  /-- the certificate of the placement before the move, whose charges stay until the drain (R199) -/
  old : List Nat
  ts : Option W
  switched : Bool
  /-- the pairs of instruction slots of FROM whose copies have been sent to TO, of 16,384 (R197, R274) -/
  next : Nat
  deriving DecidableEq, Repr

/-- The command that Aperture is running (R167). -/
structure ApRun where
  part : Nat
  op : Nat
  cluster : Nat
  offset : Nat
  mode : Nat
  start : Nat
  /-- the certificate as it stood when the command started, or the word at which reading it fails (R173) -/
  cert : List Nat
  bad : Option Nat
  deriving DecidableEq, Repr

/-- The hidden state of Aperture. -/
structure ApSt where
  redirects : List Redirect
  /-- partitions whose clusters discard old-epoch arrivals, with the tick count at which that ends (R195) -/
  oldDiscard : List (Nat × Nat)
  /-- partitions that a loss of capacity affects directly, with its REASON, since the ledger was last re-examined (R189, R190) -/
  lost : List (Nat × Nat)
  reexamine : Bool
  /-- SUSPENDED partitions: the tick count of the end of their reload or of their last miss, whichever is later (R188) -/
  suspendedAt : List (Nat × Nat)
  cmd : Option ApRun
  /-- certificates of admitted partitions, as 64-bit words -/
  certs : List (Nat × List Nat)
  /-- partitions whose charges left the ledger (R190) -/
  uncharged : List Nat
  /-- route entries 1–31 that each cluster of an admitted partition held when it was admitted: the routes of mode 0 (R176) -/
  loaded : List (Nat × List Nat)
  /-- commit ticks T_go of admissions (R180) -/
  goAt : List (Nat × W)
  /-- sources by id × 8 + partition, and the values that a staged mode brings -/
  srcs : List SourceCfg
  tgts : List Tgt
  migs : List Mig
  /-- draining mode changes: the tick count at which the sweep is due (R195) -/
  drainEnd : List (Nat × Nat)
  /-- segments whose capacity is reduced: segment ↦ capacity (R189) -/
  segCap : List (Nat × Nat)
  /-- the mode that the ledger charges alone, for a partition that has completed a mode change (R195) -/
  alone : List (Nat × Nat)
  /-- targets that only the draining epoch's mode has (R195) -/
  oldTgts : List Tgt
  deriving DecidableEq, Repr

/-! ## Management controller (chapter 16) -/

/-- A section of microcode in the golden copy: control-store words and dispatch entries (R161, R162). -/
structure Golden where
  words : List (Nat × Nat)
  disp : List (Nat × Nat)
  deriving DecidableEq, Repr

/-- A section-table entry of a Semebor image (R402). -/
structure Section where
  type : Nat
  flags : Nat
  offset : Nat
  len : Nat
  dest : Nat
  digest : Nat
  deriving DecidableEq, Repr

/-- The fields of an image's header (R402). -/
structure Header where
  sections : List Section
  length : Nat
  version : Nat
  svn : Nat
  key : Nat
  revoke : Nat
  bootTmo : Nat
  /-- the 97 bytes of the public key -/
  pub : List Nat
  /-- the header's bytes 0–4,095 and the signature, r and s -/
  bytes : List Nat
  sigR : Nat
  sigS : Nat
  deriving DecidableEq, Repr

/-- What a regulator answers to VOUT_MODE in step 5 (R412). -/
structure PmbDevSt where
  last : PmbAns
  /-- consecutive failures -/
  fails : Nat
  /-- its VOUT_MODE is ULINEAR16, so VOUT_COMMAND may be written -/
  linear : Bool
  /-- the VF_SET code last applied with VOUT_COMMAND (R457) -/
  vf : Option Nat
  deriving DecidableEq, Repr

/-- The management controller. -/
structure McSt where
  /-- golden copies: the standard section and the user sets of the verified image (R161) -/
  gStd : Golden
  gUser : List (Nat × Golden)
  /-- event-log entries held, oldest first, at most 4,096; the last has sequence number NEXT − 1 (R414) -/
  log : List (BitVec 64 × BitVec 64)
  /-- the tick counts at which the entries at the end of the log that are not mirrored yet were made, oldest first (R415) -/
  unwritten : List Nat
  /-- next page of the flash ring -/
  page : Nat
  /-- the boot flash; an unlisted byte is erased, 0xFF (R399, R400) -/
  flash : List (Nat × BitVec 8)
  /-- OTP: the SHA-384 digests of the programmed key slots (R403); the revoke bits and the counter are in OTP_STAT -/
  otpKeys : List (Nat × Nat)
  /-- OTP: fuse entries, bank instance ↦ columns replaced (R307) -/
  fuses : List (Nat × List Nat)
  /-- the flash is read in 8D-8D-8D mode, otherwise in 1S-1S-1S (R399) -/
  octal : Bool
  /-- a boot that waits in step 5 for monitor 0, with what it meets (R457) -/
  boot : Option BootIn
  /-- the manifest of the booted image (R396) -/
  image : Option Header
  /-- the command that the MC is running, and its MC_ARG (R417) -/
  cmd : Option (Nat × Nat)
  /-- the slot of the open update -/
  updSlot : Nat
  /-- the tick count at which the boot step in progress began (R397, R409) -/
  stepAt : Nat
  /-- a boot step has failed (R397) -/
  failed : Bool
  pmb : List (Nat × PmbDevSt)
  /-- SMBus window pointer (R413) -/
  smbPtr : Nat
  /-- the last answer of the SMBus target -/
  smbAnswer : Option (List (BitVec 8))
  /-- wear ledger of VBAT memory, 128 words; unlisted words are 0 (R416) -/
  ledger : List (Nat × Nat)
  /-- highest readings of the running minute, domain ↦ 16-bit reading (R416) -/
  minuteMax : List (Nat × Nat)
  deriving DecidableEq, Repr

/-! ## Lens (chapter 08) -/

/-- A control block handed to a chain direction (R434, R435): the segment that carries it, its type and its content. -/
structure CtlBlk where
  seg : Nat
  type : Nat
  content : W
  deriving DecidableEq, Repr

/-- What waits for a block time of a chain direction (R436): its segment, the type of its first control block, and the contents of its blocks. -/
structure CtlWait where
  seg : Nat
  type : Nat
  words : List W
  deriving DecidableEq, Repr

/-- A recorded edge (R210–R216): its stamp in sixteenths of a tick, its boundary, its angle in units of 2⁻³² rev, its direction, whether
the history begins with it, whether it is a reversal, and whether it ended a stop (R217) or, for M, a holdover (R220). -/
structure Edge where
  stamp : BitVec 52
  b : Int
  ang : Int
  back : Bool
  start : Bool
  rev : Bool
  ended : Bool
  deriving DecidableEq, Repr

/-- A coordinate as a query sees it (R221): edges, newest first, and its flags. -/
structure View where
  hist : List Edge
  refd : Bool
  back : Bool
  stop : Bool
  /-- mains holdover -/
  hold : Bool
  /-- the last accepted mains period in sixteenths; 0 when there is none -/
  period : Nat
  deriving DecidableEq, Repr

/-- What a change of A, B or Z of an encoder found, for a further change within the same sixteenth (R210, R237): its stamp, its line (0 A, 1 B,
2 Z), how long its level lasts, and the coordinate and its status fields before it. -/
structure CoordUndo where
  stamp : BitVec 52
  line : Nat
  width : Nat
  k : Int
  hist : List Edge
  lastTick : Nat
  refJump : Bool
  stat : List Nat
  deriving DecidableEq, Repr

/-- The hidden state of a coordinate: count, filtered levels of A and B, edges newest first, its view as of the tick boundary, the
published values of this boundary and the one before, and what the next publication needs. -/
structure Coord where
  k : Int
  la : Bool
  lb : Bool
  hist : List Edge
  period : Nat
  /-- consecutive accepted mains edges -/
  good : Nat
  /-- tick count at which the last edge was recorded -/
  lastTick : Nat
  pub : W
  prev : W
  /-- the last change of the published value was a jump (R228) -/
  jumped : Bool
  /-- a jump is due at the next publication -/
  jump : Bool
  /-- the change of value on referencing is a jump of the publication that shows it (R212) -/
  refJump : Bool
  /-- T when the last edge was recorded -/
  lastT : W
  view : View
  /-- the last change of A or B, and the last qualified Z edge -/
  lastAb : Option CoordUndo
  lastZ : Option CoordUndo
  deriving DecidableEq, Repr

/-- The hidden state of Lens. -/
structure LensSt where
  /-- A0–A3, then M -/
  coords : List Coord
  /-- levels of A and B at the four encoder inputs -/
  enc : List (Bool × Bool)
  /-- a T_LOAD that waits: T, era, and whether it waits for a PPS edge (R206) -/
  load : Option (W × BitVec 16 × Bool)
  /-- the lower half of T_LOAD, held for the write of the upper half -/
  loadLow : Nat
  /-- the source that disciplines the tick: 0 none, 1 REF10M_IN, 2 chain time (R204) -/
  src : Nat
  /-- consecutive ticks with a frequency error below 0.01 ppm -/
  goodTicks : Nat
  /-- consecutive PPS edges within ±2 sixteenths, and the tick count of the last edge -/
  ppsGood : Nat
  ppsLast : Nat
  /-- consecutive TIME words within ±2 sixteenths, and the tick count of the last word -/
  chainGood : Nat
  chainLast : Nat
  /-- line-error tables: encoder × 4096 + entry -/
  letTab : List (Nat × Nat)
  /-- coefficients written over the default table -/
  rsc : List (Nat × Nat)
  /-- per trigger: the tick count for which its crossing was judged -/
  trigAt : List (Nat × Nat)
  /-- EN and TARGET as of the boundary, of triggers written in this tick (R231) -/
  trigOld : List (Nat × (Bool × W))
  /-- triggers whose EN, and triggers whose TRIG_TARGET, a write of this tick has given (R231, R237) -/
  trigEn : List Nat
  trigTgt : List Nat
  /-- PPS edges whose phase error PPS_MEAS will show: the tick count at which it does, and the error (R236) -/
  ppsDue : List (Nat × Nat)
  /-- firing count of each trigger (R229) -/
  fires : List (Nat × Nat)
  /-- tokens of the hub's sources that were created in this tick, by source id (R229, R235, R248) -/
  made : List (Nat × Token)
  /-- source tokens held during a reclaim pause (R141, R230) -/
  heldTok : List (Nat × Token)
  /-- upper halves of T_NOW that a 32-bit read of its lower half latched, by initiator -/
  tLatch : List (Nat × Nat)
  /-- resampler groups whose EN has taken effect, with the number of their next grid point (R232) -/
  rsNext : List (Nat × Nat)
  deriving DecidableEq, Repr

/-! ## Chain port (chapter 17) -/

/-- The stream of data blocks of a chain segment (R434): the bits that do not yet fill a block, or a flit, lowest first, and whether an outgoing
segment carries IDLE. -/
structure LineBits where
  n : Nat
  v : Nat
  idle : Bool
  deriving DecidableEq, Repr

/-- The hidden state of the chain port. -/
structure ChainSt where
  /-- control blocks other than GLOBAL handed to the chain, oldest first -/
  ctl : List CtlBlk
  /-- an ENUM downstream is due (R408) -/
  enumDue : Bool
  /-- an ENUM has given this package its number and T (R408) -/
  got : Bool
  /-- the counts last sent in CREDIT blocks, by the key of the input (R437) -/
  creditSent : List (Nat × Nat)
  /-- control blocks that wait for a block time, oldest first (R436) -/
  wait : List CtlWait
  /-- control blocks carried in the last 4,096 ring cycles: segment × 4 + lane, tick count, and whether it is a CREDIT block (R436) -/
  carried : List (Nat × Nat × Bool)
  /-- the streams of data blocks, by segment (R434) -/
  line : List (Nat × LineBits)
  /-- data blocks sent, with their segment, oldest first (R434) -/
  data : List (Nat × BitVec 64)
  /-- the next ALIGN sequence number, upstream and downstream (R435) -/
  alignUp : BitVec 16
  alignDown : BitVec 16
  /-- the pair whose count is repeated next, by side (R437) -/
  turn : List (Nat × Nat)
  /-- the one-way delay of the upstream and of the downstream link is measured (R408) -/
  measUp : Bool
  measDown : Bool
  /-- an ENUM that waits for the upstream delay: number, era, T, and the tick count of its arrival (R408) -/
  enumIn : Option (Nat × BitVec 16 × W × Nat)
  deriving DecidableEq, Repr

/-! ## Sample channels and packing FIFOs (chapter 09) -/

/-- A word of a packing FIFO with its side-band (R252); for an ingress FIFO also the frame's part it belongs to (0 the header, 1 + j slot
j) and the frame's sample instant. -/
structure PfWord where
  data : W
  vb : Nat
  last : Bool
  gap : Bool
  err : Bool
  pos : Nat
  t : BitVec 52
  /-- OR of the status bytes of a tap's entries (R430) -/
  st : Nat
  deriving DecidableEq, Repr

/-- A packing FIFO: the chain from its head, the word that fills in the assembly register with its bits, a full word that waits there
for room, and the marks of R254 and R255. -/
structure Fifo where
  chain : List PfWord
  part : Option (PfWord × Nat)
  done : Option PfWord
  gap : Bool
  discarding : Bool
  dropping : Bool
  deriving DecidableEq, Repr

/-- The hidden state of a lane: the 10-bit phase and the commas at it, whether ALIGNED was reached from RUN by an ALIGN, the ticks at which
EN was set, the block of 1,024 groups with its code errors, the SEQ reference, the fault bits of the last accepted header, the next
frame's φ in 1/256 group and SEQ, and the unpacker's header SEQ and whether it skips to the next header. Then the frame that is being
received: the stamp of the last accepted SOF, the number of the group that comes next (0 outside a frame), whether its SOF was accepted,
its sample instant, and the groups of the slot so far with their code errors; and for an output lane the running disparity of the
transmitter (R240) and the registers that the next frame's capture boundary latched: each slot's code and status byte, and whether a fatal
fault had occurred (R251). -/
structure Lane where
  phase : Nat
  commas : Nat
  soft : Bool
  enAt : Nat
  block : Nat
  blockErr : Nat
  seq : Option Nat
  hdrBad : Bool
  phi : Nat
  txSeq : Nat
  unSeq : Nat
  unSkip : Bool
  sofAt : BitVec 52
  rxPos : Nat
  rxOn : Bool
  rxT : BitVec 52
  rxAcc : List (Nat × Bool)
  txRd : Bool
  latch : Option (List (Nat × Nat) × Bool)
  /-- the forced channels and the fatal state as of the capture boundary of the next frame (R251) -/
  forced : Option (List Bool × Bool)
  deriving DecidableEq, Repr

/-- The settings of a channel's comparators (R258). -/
structure CmpCfg where
  low : Nat
  high : Nat
  hen : Bool
  len : Bool
  consec : Nat
  bads : Bool
  hmap : Nat
  lmap : Nat
  deriving DecidableEq, Repr

/-- A setting of ILK_TEST: the boundary from which it holds, whether it is armed and not yet used, the channel and the value (R264). -/
structure TestSet where
  from_ : W
  arm : Bool
  ch : Nat
  value : Nat
  deriving DecidableEq, Repr

/-- A channel's comparators: the settings in force, the counts, and settings written since with the boundary from which they hold and
whether they clear the counts, oldest first (R259). -/
structure Cmp where
  cfg : CmpCfg
  hc : Nat
  lc : Nat
  pend : List (W × CmpCfg × Bool)
  deriving DecidableEq, Repr

/-- An unpacked sample of a channel: value, status byte, header SEQ, instant, and the poison it carries. -/
structure Sample where
  ch : Nat
  x : BitVec 24
  status : Nat
  seq : Nat
  t : BitVec 52
  poison : Bool
  deriving DecidableEq, Repr

/-- A sample in a channel's history for the resampler, with its number and the tick count at which it was received. -/
structure Hist where
  n : Nat
  tick : Nat
  s : Sample
  deriving DecidableEq, Repr

/-- A grid point that waits for its samples: group, number of the point, its time (R233). -/
structure GridPt where
  g : Nat
  m : Nat
  t : BitVec 52
  deriving DecidableEq, Repr

/-- A frame sent on an output lane: header, the eight slots' codes and status bytes, and the 34 groups on the line (R240). -/
structure TxFrame where
  header : Nat
  slots : List (Nat × Nat)
  line : List (BitVec 10)
  deriving DecidableEq, Repr

/-- The hidden state of the sample channels. -/
structure ScSt where
  lanes : List (Nat × Lane)
  fifos : List (Nat × Fifo)
  cmps : List (Nat × Cmp)
  /-- settings of ILK_TEST that writes have given, newest first, each with the boundary from which it holds (R259) -/
  tests : List TestSet
  /-- samples unpacked in this tick: their tokens are created at the next boundary -/
  unpacked : List Sample
  hist : List (Nat × List Hist)
  grid : List (Nat × List GridPt)
  /-- per channel: the sample number of the last grid output and the outputs in its period (R235) -/
  outs : List (Nat × (Nat × Nat))
  /-- grid points counted as skipped that still wait at a channel -/
  skipped : List GridPt
  /-- output channels whose register took a value since the last capture (R242) -/
  fresh : List Nat
  /-- output channels whose force ends at this boundary (R266) -/
  ending : List Nat
  /-- the last frame sent on each output lane -/
  tx : List (Nat × TxFrame)
  deriving DecidableEq, Repr

/-! ## Control cores (chapters 12, 14) -/

/-- A K48 core: the programmer's state of R311–R313, and where it stands between commands: the transaction whose response it waits for
with its instruction word, posted stores that await DONE with their addresses (R316), the tick count at which a GINJ began to wait with its
word (R351), and whether a double trap has stopped it (R334). Core 8 is the supervisor pair, whose checker core holds the same state two cycles later (R356, R358). -/
structure Core where
  w : List W
  pc : W
  status : W
  epc : W
  estatus : W
  ecause : W
  eaddr : W
  tvec : W
  rs : List W
  depth : Nat
  ptr : Nat
  /-- the reservation: the slot's address (R326) -/
  resv : Option W
  wait : Option (Nat × Nat)
  posted : List (Nat × W)
  ginjAt : Option (Nat × Nat)
  /-- the core stands in a WAIT (R341) -/
  idle : Bool
  /-- a STEP of a halted core that has not retired its instruction yet (R336) -/
  step : Bool
  double : Bool
  /-- a register whose parity failed when the load that waits read it: MCHK, unless the response is an error (R333) -/
  waitReg : Option Nat
  /-- the tick count of the core's last reset, from which CYCLE counts (R313) -/
  resetAt : Nat
  deriving DecidableEq, Repr

/-- The control cores and the supervisor. -/
structure CcSt where
  cores : List Core
  /-- the moment from which the watchdog counts, as a tick count (R371) -/
  kickAt : Nat
  deriving DecidableEq, Repr

/-! ## Capture engine, Mirror Port, auxiliary pins, JTAG (chapter 17) -/

/-- A capture stream: its next packet number; of the graph packet whose words are being written, their number and the tick count of the
last; of the record being taken, its words, its stamp and its flags (R428–R431). -/
structure CapStream where
  seq : Nat
  count : Nat
  lastAt : Nat
  words : List (BitVec 64)
  t : BitVec 52
  short : Bool
  gap : Bool
  err : Bool
  poison : Bool
  st : Nat
  deriving DecidableEq, Repr

/-- An auxiliary pin: SEL in force, the level outside, the level that a first-event function or a held output drives, whether it drives,
whether its first event has come, the tick count at which its pulse ends, the tick count of its last switch, and that of the last write of its AUX_CFG (R446, R447). -/
structure AuxPin where
  sel : Nat
  ext : Bool
  level : Bool
  driven : Bool
  started : Bool
  ends : Nat
  switched : Nat
  written : Nat
  deriving DecidableEq, Repr

/-- The ports and pins of the hub. -/
structure PortSt where
  caps : List (Nat × CapStream)
  /-- the Mirror Port's pins: MP_A and MP_nOE as the controller last presented them -/
  mpA : Nat
  mpOe : Bool
  aux : List (Nat × AuxPin)
  /-- JTAG: the instruction in force and the DEBUG data register (R448) -/
  jtag : Nat
  /-- the boundary register: the drive that it holds for each pin; an unlisted pin is not driven (R448) -/
  boundary : List (Pad × Option Bool)
  dbgWord : BitVec 112
  /-- a DEBUG access that crossed the chain -/
  jtagReq : Option Nat
  deriving DecidableEq, Repr

/-! ## Power and temperature (chapter 18) -/

/-- The hidden state of the power and clock control. -/
structure PwrSt where
  /-- the last conversion of each sensor, and its consecutive failures (R460, R464) -/
  temp : List (Nat × Nat)
  fails : List (Nat × Nat)
  /-- per facet: the tick count since which every region sensor has read below 97 °C (R462) -/
  cool : List (Nat × Nat)
  /-- per facet: the tick count of the last shedding step (R463) -/
  shedAt : List (Nat × Nat)
  /-- facets whose clock is ramping, with the tick count of the next step (R23) -/
  ramp : List (Nat × Nat)
  /-- microseconds whose estimate exceeded 240 W within the last 1,000,000, and the number of estimates (R459) -/
  peaks : List Nat
  estimates : Nat
  /-- per rail monitor: the tick count since which it has read outside its window (R454) -/
  outside : List (Nat × Nat)
  /-- power-on reset is asserted: the tick count since which VDD_H, VDD_M and VDDIO have stayed within their ranges (R395, R453) -/
  por : Option Nat
  deriving DecidableEq, Repr

/-- The state of one package: all that its registers, stores, queues, engines and pins hold, and the queue of waiting commands. Electrical and
mechanical figures are no part of it (DESIGN CHOICE, log 144). -/
structure State where
  /-- the commands that are waiting, first in first out -/
  pending : List Instr
  /-- register fields by `Fld.key`; an unlisted field holds its reset value -/
  regs : List (Nat × Nat)
  /-- every addressed memory of the package by local device address (R25); an unlisted byte reads as 0 -/
  mem : List Host.Cell
  /-- T and the era (R47) -/
  t : W
  era : BitVec 16
  /-- tick boundaries passed: the model's own count, by which timers are judged (R280) -/
  ticks : Nat
  /-- the model's own counter of free values -/
  free : Nat
  net : NetSt
  bank : BankSt
  sched : SchedSt
  out : OutSt
  flt : FaultSt
  cl : ClusterSt
  staged : List Staged
  pcie : PcieSt
  ap : ApSt
  mc : McSt
  lens : LensSt
  chain : ChainSt
  sc : ScSt
  cc : CcSt
  port : PortSt
  pwr : PwrSt
  /-- fields written in this tick whose new value is in force from the next boundary, with the value in force now -/
  old : List (Nat × Nat)
  deriving DecidableEq, Repr

/-- Why a command faults. No meaning of this model faults: every command of the table runs. -/
inductive Fault where
  /-- raised by no meaning; present because a machine must name its faults (safe) -/
  | none
  deriving DecidableEq, Repr

/-- Why a command is refused. -/
inductive Refusal where
  /-- raised by an arm of Dispatch whose command has no meaning yet (safe) -/
  | notModelled (mnemonic : String)
  deriving DecidableEq, Repr

/-- A coordinate at reset: no edges, not referenced (R218). -/
def Coord.reset : Coord :=
  { k := 0, la := false, lb := false, hist := [], period := 0, good := 0, lastTick := 0, pub := 0, prev := 0, jumped := false, jump := false,
    refJump := false, lastT := 0, view := ⟨[], false, false, false, false, 0⟩, lastAb := none, lastZ := none }

/-- A K48 core at reset: STATUS has RSM and PRIV set, every other register is 0 (R311–R313) (DESIGN CHOICE, log 7). -/
def Core.reset : Core :=
  ⟨List.replicate 32 0, 0, 0xC0000, 0, 0, 0, 0, 0, List.replicate 16 0, 0, 0, none, none, [], none, false, false, false, none, 0⟩

/-- The package right after reset, before boot step 1 has done anything: every register at its reset value (Machine/Regs.lean), every store
and queue empty, every unlisted byte of memory 0. The straps CHAIN_HEAD and CHAIN_LOOP are both asserted, a package alone. The boot flash is
erased and OTP is not programmed (DESIGN CHOICE, log 4; DESIGN CHOICE, log 8; DESIGN CHOICE, log 9). -/
def State.reset : State where
  pending := []
  regs := mput (mput regsReset (F.devId_HEAD.key 0) 1) (F.devId_TAIL.key 0) 1
  mem := []
  t := 0
  era := 0
  ticks := 0
  free := 0
  net := ⟨[], [], [], [], [], [], [], [], [], [], [], [], [], [], [], [], [], [], [], [], []⟩
  bank := ⟨[], [], [], [], [], [], [], [], [], []⟩
  sched := ⟨[], 0, [], [], [], []⟩
  out := { held := [], waiting := [], now := [] }
  flt := ⟨[], [], [], [], [], [], false, none, [], false, [], []⟩
  cl := {
    emit := [], injQ := [], ways := [], chains := [], records := [], slots := [], slotHold := [], spillHold := [], holding := []
    parks := [], seqHeld := [], waits := [], blocks := [], filters := [], reclaim := [], cnt := [], progPrev := [], evalT := [], reclaimWait := []
    unblocked := [], arith := [], arithW := [], emptying := [], reload := [], mchkPe := [] }
  staged := []
  pcie := ⟨[], [], [], [], [], [], []⟩
  ap := {
    redirects := [], oldDiscard := [], lost := [], reexamine := false, suspendedAt := [], cmd := none, certs := [], uncharged := []
    loaded := [], goAt := [], srcs := [], tgts := [], migs := [], drainEnd := [], segCap := [], alone := [], oldTgts := [] }
  mc := {
    gStd := ⟨[], []⟩, gUser := [], log := [], unwritten := [], page := 0, flash := [], otpKeys := [], fuses := []
    octal := false, boot := none, image := none, cmd := none, updSlot := 0, stepAt := 0, failed := false, pmb := [], smbPtr := 0, smbAnswer := none, ledger := []
    minuteMax := [] }
  lens := {
    coords := List.replicate 5 Coord.reset, enc := List.replicate 4 (false, false), load := none, loadLow := 0, src := 0, goodTicks := 0
    ppsGood := 0, ppsLast := 0, chainGood := 0, chainLast := 0, letTab := [], rsc := [], trigAt := [], trigOld := [], trigEn := []
    trigTgt := [], ppsDue := [], fires := []
    made := [], heldTok := [], tLatch := [], rsNext := [] }
  chain := {
    ctl := [], enumDue := false, got := false, creditSent := [], wait := [], carried := [], line := [], data := [], alignUp := 0, alignDown := 0
    turn := [], measUp := false, measDown := false, enumIn := none }
  sc := {
    lanes := [], fifos := [], cmps := [], tests := [], unpacked := [], hist := [], grid := [], outs := [], skipped := [], fresh := []
    ending := [], tx := [] }
  cc := ⟨List.replicate 9 Core.reset, 0⟩
  port := ⟨[], 0, false, [], 0x01, [], 0, none⟩
  pwr := ⟨[], [], [], [], [], [], 0, [], none⟩
  old := []

end Sys2Proof.Machine
end

