-- ==== Sys2Proof/Machine/Ops.lean ====
section
/-!
DEFINITION. Sys2Proof/Machine/Ops.lean: the named operations over State that every meaning is written with: register fields (R5–R9),
memory slots (R27), events (R344), fault reports (R376–R380), counters (R135), tags (R40) and slack (R44, R45).
-/
namespace Sys2Proof.Machine
open Sys2Proof

/-- The value of a register field instance (R7): the last value set, or the reset value. -/
def State.get (s : State) (f : Fld) (i : Nat) : Nat := mget f.rst s.regs (f.key i)

/-- A one-bit field as a Bool. -/
def State.flag (s : State) (f : Fld) (i : Nat) : Bool := s.get f i ≠ 0

/-- Set a register field instance; a value is cut to the field's width. -/
def State.set (s : State) (f : Fld) (i v : Nat) : State :=
  { s with regs := mput s.regs (f.key i) (v % 2 ^ f.w) }

/-- Add one to a counter field, modulo its width. -/
def State.inc (s : State) (f : Fld) (i : Nat) : State := s.set f i (s.get f i + 1)

/-- Add one to a field that saturates at a limit. -/
def State.incSat (s : State) (f : Fld) (i lim : Nat) : State :=
  if s.get f i < lim then s.set f i (s.get f i + 1) else s

/-! ### Memory: one byte, one slot -/

/-- What an unlisted byte of memory reads as (DESIGN CHOICE, log 6). -/
def memDefault : BitVec 8 := 0

/-- The byte at a local device address. -/
def State.readByte (s : State) (a : Nat) : BitVec 8 := mget memDefault s.mem a

/-- Write one byte, keeping the canonical form. -/
def State.writeByte (s : State) (a : Nat) (v : BitVec 8) : State :=
  { s with mem := mset memDefault s.mem a v }

/-- `n` bytes from address `a`, lowest address least significant (R6, R27). -/
def State.readN (s : State) (a : Nat) : Nat → Nat
  | 0 => 0
  | n + 1 => (s.readByte a).toNat + 256 * State.readN s (a + 1) n

/-- Write the low `n` bytes of a number from address `a`, least significant first. -/
def State.writeN (s : State) (a v : Nat) : Nat → State
  | 0 => s
  | n + 1 => State.writeN (s.writeByte a (BitVec.ofNat 8 v)) (a + 1) (v / 256) n

/-- The 48 data bits of an 8-byte slot. -/
def State.readSlot (s : State) (a : Nat) : W := w48 (s.readN a 6)

/-- Write a word into an 8-byte slot; bits [63:48] stay zero (R27). -/
def State.writeSlot (s : State) (a : Nat) (v : W) : State := s.writeN a v.toNat 6

/-- The canonical form of memory: rising addresses, and no entry equal to an unlisted byte. -/
def Memory.wf (m : List Host.Cell) : Bool := mwf memDefault m

/-- The next free value of width `w`; the counter advances so that no two uses share one. -/
def State.freeVal (s : State) (w : Nat) : BitVec w × State :=
  (Config.freeValue w s.free, { s with free := s.free + 1 })

/-! ### Numbers and addresses -/

/-- R12, R13, R19: the cluster index of a die and a cluster number. -/
def cIdx (die n : Nat) : Nat := die * 16 + n

/-- The local device address of a cluster-local offset (R25). -/
def clAddr (c off : Nat) : Nat := c / 16 * 2 ^ 40 + c % 16 * 2 ^ 36 + off

/-- The local device address of a hub-local offset (R25). -/
def hubAddr (off : Nat) : Nat := 8 * 2 ^ 40 + off

/-- The address of a bank word (R29). -/
def bankAddr (c b w : Nat) : Nat := clAddr c (b * 0x8000 + w * 8)

/-- The address of a graph instruction (R29). -/
def instrAddr (c i : Nat) : Nat := clAddr c (0x100000 + i * 16)

/-- The 96 bits of a graph instruction (R27, R60). -/
def State.instr (s : State) (c i : Nat) : Nat := s.readN (instrAddr c i) 12

/-! ### Tags (R40) -/

def tagPkg (t : W) : Nat := bits t.toNat 44 4
def tagDie (t : W) : Nat := bits t.toNat 40 4
def tagCluster (t : W) : Nat := bits t.toNat 36 4
/-- The instruction address; its low four bits are the PE that executes it (R15). -/
def tagInstr (t : W) : Nat := bits t.toNat 21 15
/-- R41: the input of the destination at which the token arrives: 0 left, 1 right, 2 gate, 3 reserved. -/
def tagPort (t : W) : Nat := bits t.toNat 19 2
def tagPart (t : W) : Nat := bits t.toNat 16 3
def tagCtx (t : W) : Nat := bits t.toNat 2 14
def tagEpoch (t : W) : Nat := bits t.toNat 1 1
def tagBit0 (t : W) : Nat := bits t.toNat 0 1

/-- Build a tag from its fields (R40). -/
def mkTag (pkg die cl instr port part ctx epoch : Nat) : W :=
  w48 (pkg % 16 * 2 ^ 44 + die % 16 * 2 ^ 40 + cl % 16 * 2 ^ 36 + instr % 2 ^ 15 * 2 ^ 21 + port % 4 * 2 ^ 19
    + part % 8 * 2 ^ 16 + ctx % 2 ^ 14 * 4 + epoch % 2 * 2)

/-- The key of a token: its tag with the port field excluded (R42, R99). -/
def tagKey (t : W) : W := t &&& ~~~(0x000000180000 : W)

/-! ### Slack and bands (R45, R110, R112) -/

/-- R110: the band of a slack, before any hint. -/
def bandOf (s : Int) : Nat :=
  if s < 256 then 0
  else if s < 1024 then 1
  else if s < 4096 then 2
  else if s < 16384 then 3
  else if s < 65536 then 4
  else if s < 262144 then 5
  else if s < 1048576 then 6 else 7

/-- R46, R71: the due of a slack at T. -/
def dueOf (t : W) (s : Int) : W := t + BitVec.ofInt 48 s

/-- R46: tighten a slack by a due offset; the result never wraps into the future. -/
def tighten (s : Int) (d : Nat) : Int := max (s - d) (-(2 ^ 47 : Int))

/-! ### Partitions -/

/-- PRESUMED, log 134. -/
def pFree : Nat := 0
def pLoading : Nat := 1
def pGuaranteed : Nat := 2
def pBestEffort : Nat := 3
def pRevoked : Nat := 4
def pSuspended : Nat := 5
def pHalted : Nat := 6
def pReleasing : Nat := 7

/-- PART_STAT.STATE of a partition (R165). -/
def State.pState (s : State) (p : Nat) : Nat := s.get F.partStat_STATE p

/-- The partition runs: GUARANTEED, BEST_EFFORT, REVOKED or SUSPENDED (R351 reason 3). -/
def State.pRuns (s : State) (p : Nat) : Bool := 2 ≤ s.pState p && s.pState p ≤ 5

/-- The partition's current epoch (PART_STAT.EPOCH). -/
def State.epoch (s : State) (p : Nat) : Nat := s.get F.partStat_EPOCH p

/-- The package's own number and the chain length (R21, DEV_ID). -/
def State.pkg (s : State) : Nat := s.get F.devId_PKG 0
def State.chainLen (s : State) : Nat := s.get F.devId_CHAIN_LEN 0

/-- A package number names a package of the chain: before enumeration only the own one does (R26). -/
def State.pkgOk (s : State) (p : Nat) : Bool :=
  if s.chainLen = 0 then p = s.pkg else p < s.chainLen

/-- CL_STATUS.STATE of a cluster and its owner (R17). -/
def State.cState (s : State) (c : Nat) : Nat := s.get F.clStatus_STATE c
def State.cOwner (s : State) (c : Nat) : Nat := s.get F.clStatus_OWNER c

/-- The fatal decision has been taken (R388). -/
def State.fatal (s : State) : Bool := s.flt.decision.isSome

/-- R23, R388: the fabric clock of a cluster's facet runs (DEDUCED, log 39). -/
def State.fabricOn (s : State) (c : Nat) : Bool := !s.fatal && !s.flag F.fclkCtl_STOPPED (c / 16)

/-- A fabric step of a cluster happens only while its facet's clock runs (DESIGN CHOICE, log 5). -/
def onFabric (c : Nat) (f : State → State) (s : State) : State := if s.fabricOn c then f s else s

/-- R388, R389: from the fatal decision on this part of the device does nothing (DEDUCED, log 125). -/
def unlessFatal (f : State → State) (s : State) : State := if s.fatal then s else f s

/-! ### Events (R343, R344, R426) -/

/-- The message of vector `n`, by its table entry now. -/
def msixMsg (n : Nat) (s : State) : MsixMsg :=
  let dw (i : Nat) : Nat := mget 0 s.pcie.msixTab (n * 4 + i)
  ⟨n, BitVec.ofNat 64 (dw 0 + dw 1 * 2 ^ 32), BitVec.ofNat 32 (dw 2)⟩

/-- The message of vector `n` is sent. -/
def msixPut (n : Nat) (s : State) : State := { s with pcie := { s.pcie with msixSent := s.pcie.msixSent ++ [msixMsg n s] } }

/-- R426: a raised source with MSIX_EN asks the endpoint for its vector: nothing while MSI-X is disabled, pending while masked,
else sent at once; raises while it is pending send one message in total (PRESUMED, log 68). -/
def msixAsk (n : Nat) (s : State) : State :=
  if ! s.flag F.pcieStat_MSIX_EN 0 then s
  else if s.flag F.pcieStat_FMASK 0 || !s.flag F.pcieStat_BME 0 || mget 1 s.pcie.msixTab (n * 4 + 3) % 2 = 1 then
    { s with pcie := { s.pcie with msixPend := mput s.pcie.msixPend n 1 } }
  else if (mfind s.pcie.msixPend n).isSome then s
  else msixPut n s

/-- R344: one raise of event source `n`. -/
def raiseEvent (n : Nat) (s : State) : State :=
  let s := s.inc F.evCfg_COUNT n
  if ! s.flag F.evCfg_EN n then s
  else
    let s := s.set F.evCfg_PEND n 1
    if s.flag F.evCfg_MSIX_EN n then msixAsk n s else s

/-- A link-state change or a reset of the PCI Express endpoint is seen in LINK_EVT and raises PCIE_LINK (R427, R450). -/
def linkEvent (s : State) : State := raiseEvent 496 (s.set F.pcieStat_LINK_EVT 0 1)

/-- A raise of source `n` by what Lens judges at a tick boundary: raises of one source at one boundary stand in one cycle and count once (R344)
(DEDUCED, log 207). -/
def raiseAtBoundary (n : Nat) (s : State) : State :=
  if mfind s.sched.raisedAt n = some s.ticks then s
  else raiseEvent n { s with sched := { s.sched with raisedAt := mput s.sched.raisedAt n s.ticks } }

/-! ### Fault reports (R376–R380) -/

/-- R378: a location. -/
def loc (type idx : Nat) : Nat := type * 4096 + idx % 4096

/-- The name of a source's pair: kind and instance. -/
def pairKey (kind l : Nat) : Nat := kind * 65536 + l

/-- A fault event signalled at the current T. While the source's pair is wrong no event can be seen (R379). -/
def report (kind l detail : Nat) (part : Option Nat) (inj : Bool) (s : State) : State :=
  if s.flt.wire.contains (pairKey kind l) || (mfind s.flt.pairHeld (pairKey kind l)).isSome then s
  else { s with flt := { s.flt with queue := s.flt.queue ++ [⟨kind, l, detail % 65536, part, s.t, inj⟩] } }

/-- A fault raised against a partition, with no injection. -/
def reportP (kind l detail p : Nat) (s : State) : State := report kind l detail (some p) false s

/-- A fault raised for a unit, with no injection. -/
def reportU (kind l detail : Nat) (s : State) : State := report kind l detail none false s

/-- A level source's condition begins: its pair is held at present and one event is given at the onset (R379). -/
def holdFault (kind l detail : Nat) (s : State) : State :=
  if s.flt.live.contains (pairKey kind l) then s
  else
    let s := { s with flt := { s.flt with live := s.flt.live ++ [pairKey kind l] } }
    report kind l detail none false s

/-- A level source's condition ends. -/
def dropFault (kind l : Nat) (s : State) : State :=
  { s with flt := { s.flt with live := s.flt.live.filter (· ≠ pairKey kind l) } }

/-- R393: an armed injection meets the next check of its checker. The number of inverted check bits that the check sees, if any,
and the state with ARM cleared. -/
def takeInjection (kinds : List Nat) (l : Nat) (s : State) : Option Nat × State :=
  if s.flag F.injCtl_ARM 0 && !s.flag F.injCtl_PAIR 0 && s.flag F.fltCtl_INJ_EN 0
      && kinds.contains (s.get F.injSel_KIND 0) && s.get F.injSel_LOCATION 0 = l then
    (some (popBits 10 (s.get F.injCtl_MASK 0)), s.set F.injCtl_ARM 0 0)
  else (none, s)
where
  popBits : Nat → Nat → Nat
    | 0, _ => 0
    | n + 1, v => v % 2 + popBits n (v / 2)

/-- The outcome of a SECDED check (R35, R288): 0 good, 1 corrected, 2 uncorrectable; with whether an injection caused it (R393). -/
def secded (kinds : List Nat) (l natural : Nat) (s : State) : Nat × Bool × State :=
  match takeInjection kinds l s with
  | (some 0, s) => (natural, false, s)
  | (some 1, s) => (max 1 natural, true, s)
  | (some _, s) => (2, true, s)
  | (none, s) => (natural, false, s)

/-! ### Micro-traps (R158) -/

/-- Set a field to a free value. -/
def State.setFree (s : State) (f : Fld) (i : Nat) : State :=
  let (v, s) := s.freeVal f.w
  s.set f i v.toNat

/-- Set a field to a value where the model knows one, else to a free value. -/
def State.setOr (s : State) (f : Fld) (i : Nat) (v : Option Nat) : State :=
  match v with
  | some v => s.set f i v
  | none => s.setFree f i

/-- What a trap frame saves where it is known: μPC of the next word, micro-stack, served mask and MT words. Inside a standard routine
they belong to the loaded image (R145) and are open here. -/
structure Saved where
  upc : Option Nat
  stack : Option (List Nat)
  served : Option Nat
  mt : List W
  deriving DecidableEq, Repr

/-- A trap inside a standard routine. -/
def Saved.std : Saved := ⟨none, none, none, []⟩

/-- A trap before the first word of the routine that a dispatch entry names. -/
def Saved.before (upc : Nat) : Saved := ⟨some upc, some [], some 0, []⟩

/-- A micro-trap is taken: it is counted, and the trap frame holds the firing's tag, the cause and the saved state (R158) (DESIGN CHOICE, log 131). -/
def microTrap (c pe cause : Nat) (tag : W) (v : Saved) (s : State) : State :=
  let i := c * 16 + pe
  let s := (s.inc F.peStat_TRAPS i).set F.tfState_CAUSE i cause
  let s := s.set F.tfTag_TAG i (tag &&& ~~~(0x180000 : W)).toNat
  let s := s.setOr F.tfState_UPC i v.upc
  let s := match v.stack with
    | some l => s.set F.tfState_DEPTH i l.length
    | none => let (d, s) := s.freeVal 3; s.set F.tfState_DEPTH i (d.toNat % 5)
  let st := v.stack.getD []
  let s := (s.setOr F.tfStack_S0 i st[0]?).setOr F.tfStack_S1 i st[1]?
  let s := (s.setOr F.tfStack_S2 i st[2]?).setOr F.tfStack_S3 i st[3]?
  let s := s.setOr F.tfState_SERVED i v.served
  (List.range 4).foldl (fun s k => s.setOr F.tfMt_VALUE (i * 4 + k) (v.mt[k]?.map (·.toNat))) s

/-! ### Conservation counters (R135) -/

/-- Add one to a running count of a partition. -/
def addCnt (p k n : Nat) (s : State) : State :=
  { s with cl := { s.cl with cnt := mput s.cl.cnt (p * 8 + k) ((mget 0 s.cl.cnt (p * 8 + k) + n) % 2 ^ 48) } }

/-- A token produced for a partition in an epoch. -/
def countProd (p ep : Nat) (s : State) : State := addCnt p (3 + 2 * ep) 1 (addCnt p 0 1 s)

/-- `n` tokens consumed for a partition in an epoch. -/
def countCons (p ep n : Nat) (s : State) : State := addCnt p (4 + 2 * ep) n (addCnt p 1 n s)

/-- A progress event of a partition. -/
def countProg (p : Nat) (s : State) : State := addCnt p 2 1 s

/-! ### Violation log (R304) -/

/-- Enter a violation: the first after VALID was cleared is logged, and every one is counted. -/
def violation (c kind : Nat) (value : W) (sys : Bool) (part init op bank : Nat) (s : State) : State :=
  let s := s.inc F.violCnt_COUNT c
  if s.flag F.violInfo_VALID c then s
  else
    let s := s.set F.violAddr_VALUE c value.toNat
    let s := s.set F.violInfo_KIND c kind
    let s := s.set F.violInfo_SYS c (b2n sys)
    let s := s.set F.violInfo_PART c (if sys then 0 else part)
    let s := s.set F.violInfo_INIT c (if sys then init else 0)
    let s := s.set F.violInfo_OP c op
    let s := s.set F.violInfo_BANK c bank
    let s := s.set F.violInfo_T c s.t.toNat
    s.set F.violInfo_VALID c 1

/-- R43: discard a token at a cluster: log the tag, count it as consumed, raise TOKEN_DISCARD unless the discard is silent (R139). -/
def discardToken (c : Nat) (tag : W) (silent : Bool) (s : State) : State :=
  let p := tagPart tag
  let s := violation c 1 tag false p 0 0 0 s
  let s := countCons p (tagEpoch tag) 1 s
  if silent then s else reportP 5 (loc 2 c) 0 p s

/-! ### Poison (R38, R39) -/

/-- The data word of a poisoned token. -/
def poisonData (cause detail : Nat) : W := w48 (cause % 256 * 2 ^ 32 + detail % 2 ^ 32)

def causeErr : Nat := 1
def causeUncorr : Nat := 2
def causeIllegal : Nat := 3
def causeMchk : Nat := 4
def causeReclaimed : Nat := 5

end Sys2Proof.Machine
end

