-- ==== Sys2Proof/Machine/Net.lean ====
section
/-!
DEFINITION. Sys2Proof/Machine/Net.lean: the data network: segments (R270), routes (R271), virtual channels (R272), buffers and injection
credit (R273), packets and their destinations (R274–R276), urgency and arbitration (R277, R278), request timers (R280, R281).
-/
namespace Sys2Proof.Machine
open Sys2Proof

/-! ### Segments and nodes: a node is a router number of R378; 146 stands for the Lens query port and 147 for a neighbour package -/

def nodeHub : Nat := 144
def nodeLens : Nat := 146
def nodeOutside : Nat := 147

/-- The node of a package-ring stop (R20, R269). -/
def stopNode (k : Nat) : Nat := if k = 0 then nodeHub else 127 + k

/-- The package-ring stop of a node. -/
def nodeStop (n : Nat) : Nat := if n = nodeHub then 0 else n - 127

/-- The segment's class (R270). -/
def segClass (g : Nat) : Nat := g / 8192

/-- The node that a segment leaves. -/
def segFrom (g : Nat) : Nat :=
  match segClass g with
  | 0 => bits g 10 3 * 16 + bits g 8 2 * 4 + bits g 6 2
  | 1 => bits g 10 3 * 16 + bits g 6 2 * 4 + bits g 8 2
  | 2 =>
    let gw := 128 + 2 * bits g 10 3 + bits g 9 1
    let rt := bits g 10 3 * 16 + (if bits g 9 1 = 0 then 0 else 15)
    if bits g 8 1 = 0 then gw else rt
  | 3 => stopNode (bits g 4 5)
  | 4 => nodeHub
  | _ => if bits g 0 2 = 0 ∨ bits g 0 2 = 2 then nodeHub else nodeOutside

/-- The node that a segment enters. -/
def segTo (g : Nat) : Nat :=
  match segClass g with
  | 0 =>
    let c := if bits g 5 1 = 0 then (bits g 6 2 + 1) % 4 else (bits g 6 2 + 3) % 4
    bits g 10 3 * 16 + bits g 8 2 * 4 + c
  | 1 =>
    let r := if bits g 5 1 = 0 then (bits g 6 2 + 1) % 4 else (bits g 6 2 + 3) % 4
    bits g 10 3 * 16 + r * 4 + bits g 8 2
  | 2 =>
    let gw := 128 + 2 * bits g 10 3 + bits g 9 1
    let rt := bits g 10 3 * 16 + (if bits g 9 1 = 0 then 0 else 15)
    if bits g 8 1 = 0 then rt else gw
  | 3 => stopNode (if bits g 3 1 = 0 then (bits g 4 5 + 1) % 17 else (bits g 4 5 + 16) % 17)
  | 4 => nodeLens
  | _ => if bits g 0 2 = 1 ∨ bits g 0 2 = 3 then nodeHub else nodeOutside

def segX (die row pos dir : Nat) : Nat := die * 1024 + row * 256 + pos * 64 + dir * 32
def segY (die col row dir : Nat) : Nat := 8192 + die * 1024 + col * 256 + row * 64 + dir * 32
def segGw (die side out : Nat) : Nat := 16384 + die * 1024 + side * 512 + out * 256
def segRing (stop dir : Nat) : Nat := 24576 + stop * 16 + dir * 8
def segLens : Nat := 32768
def segChain (k : Nat) : Nat := 40960 + k

/-- R271: one hop of a 4-ring toward `dst`: 1 in the − direction at distance 3, else 0 in the + direction. -/
def ring4Dir (frm dst : Nat) : Nat := if (dst + 4 - frm) % 4 = 3 then 1 else 0

/-- A destination decoded from payload bits (R276). -/
structure Dest where
  pkg : Nat
  die : Nat
  cluster : Nat
  deriving DecidableEq, Repr

/-- The payload field `[lo + n - 1 : lo]` of a flit. -/
def pf (p : BitVec 144) (lo n : Nat) : Nat := bits p.toNat lo n

/-- RET of a response (R275) or of a request (R274). -/
def rspRet (p : BitVec 144) : Nat := pf p (96 + 29) 19
def reqRet (p : BitVec 144) : Nat := pf p 21 19
def reqOp (p : BitVec 144) : Nat := pf p 44 4
def reqAddr (p : BitVec 144) : W := w48 (pf p 96 48)
def reqData (p : BitVec 144) : W := w48 (pf p 48 48)
def reqPart (p : BitVec 144) : Nat := pf p 41 3
def reqSys (p : BitVec 144) : Bool := pf p 40 1 = 1
def reqArg (p : BitVec 144) : Nat := pf p 0 21
def rspAns (p : BitVec 144) : Bool := pf p 96 1 = 1

/-- The place that RET names (R274). -/
def retDest (r : Nat) : Dest := ⟨bits r 15 4, bits r 11 4, bits r 7 4⟩

/-- R276: where a packet goes. -/
def flitDest (f : Flit) : Dest :=
  if f.ty = 2 ∧ rspAns f.pay = false then retDest (rspRet f.pay)
  else ⟨pf f.pay 140 4, pf f.pay 136 4, pf f.pay 132 4⟩

/-- R271: hops clockwise from the east stop of a facet to a stop, and counter-clockwise from its west stop. -/
def exitDir (f : Nat) (d : Dest) (toHub : Bool) : Nat :=
  let cw := if toHub then (17 - (2 + 2 * f)) % 17 else (1 + 2 * d.die + 17 - (2 + 2 * f)) % 17
  let ccw := if toHub then (1 + 2 * f) % 17 else (1 + 2 * f + 17 - (2 + 2 * d.die)) % 17
  if cw < ccw then 0 else 1

/-- R271: from a router, one hop toward another router of its facet: X first, then Y; none at the router itself. -/
def facetHop (n dst : Nat) : Option Nat :=
  let die := n / 16
  let c := n % 4
  let r := n % 16 / 4
  let tc := dst % 4
  let tr := dst % 16 / 4
  if c ≠ tc then some (segX die r c (ring4Dir c tc))
  else if r ≠ tr then some (segY die c r (ring4Dir r tr))
  else none

/-- R271: the segment that a packet takes next from a node, by the segment it arrived on; `none` is the local port. -/
def routeAt (s : State) (n : Nat) (via : Option Nat) (d : Dest) (lens : Bool) : Option Nat :=
  let away := d.pkg ≠ s.pkg
  if n < 128 then
    let die := n / 16
    if !away ∧ d.die = die then facetHop n (cIdx die d.cluster)
    else
      let dir := exitDir die d (away || d.die = 8)
      let gwr := die * 16 + (if dir = 0 then 15 else 0)
      match facetHop n gwr with
      | some g => some g
      | none => some (segGw die (if dir = 0 then 1 else 0) 1)
  else if n < 144 then
    let die := (n - 128) / 2
    let side := (n - 128) % 2
    if !away ∧ d.die = die then some (segGw die side 0)
    else
      let dir :=
        match via with
        | some g => if segClass g = 3 then bits g 3 1 else (if side = 1 then 0 else 1)
        | none => if side = 1 then 0 else 1
      some (segRing (nodeStop n) dir)
  else
    if away then some (segChain (if d.pkg > s.pkg then 0 else 2))
    else if d.die = 8 then (if lens then some segLens else none)
    else
      let dir :=
        match via with
        | some g => if segClass g = 3 then bits g 3 1 else (if d.die < 4 then 0 else 1)
        | none => if d.die < 4 then 0 else 1
      some (segRing 0 dir)

/-- R272: the segment is a dateline link. -/
def dateline (g : Nat) : Bool :=
  match segClass g with
  | 0 => (bits g 6 2 = 3 && bits g 5 1 = 0) || (bits g 6 2 = 0 && bits g 5 1 = 1)
  | 1 => (bits g 6 2 = 3 && bits g 5 1 = 0) || (bits g 6 2 = 0 && bits g 5 1 = 1)
  | 3 => (bits g 4 5 = 16 && bits g 3 1 = 0) || (bits g 4 5 = 0 && bits g 3 1 = 1)
  | _ => false

/-- The segment lies on a ring: X, Y or the package ring. -/
def isRing (g : Nat) : Bool := segClass g = 0 || segClass g = 1 || segClass g = 3

/-- R272: the VC of a packet on a segment: the lower of its class on entering a ring, the upper from a dateline on. -/
def vcOn (f : Flit) (g : Nat) : Nat :=
  let base := if f.ty = 2 then 2 else 0
  if !isRing g then base
  else
    let keeps := match f.via with | some v => decide (segClass v = segClass g) | none => false
    let cur := if keeps then f.vc % 2 else 0
    base + (if dateline g then 1 else cur)

/-! ### Buffers -/

/-- The latest cycle that a command named for a node's clock. -/
def State.nodeCyc (s : State) (n : Nat) : Nat := mget 0 s.net.cyc n

/-- R273, R437: a flit of this class and VC sent on the segment would find a free buffer at its far end. -/
def hasCredit (s : State) (g cls vc : Nat) : Bool :=
  if segClass g = 5 then
    s.get F.cpStat_STATE (if g = segChain 0 then 1 else 0) = 3 && 0 < mget 0 s.net.credit (g * 64 + cls * 4 + vc)
  else if segClass g = 4 then true
  else !(s.net.flits.any fun f => f.node = segTo g && f.via = some g && f.cls = cls && f.vc = vc)

/-- R273: the injection buffer of a class and VC at a node is free. -/
def injectRoom (s : State) (n cls vc : Nat) : Bool :=
  !(s.net.flits.any fun f => f.node = n && f.via = none && f.cls = cls && f.vc = vc)

/-- R137: a flit of the partition waits for injection credit: at a node, or at the head of a graph port's injection queue. -/
def waitsCredit (s : State) (p : Nat) : Bool :=
  (s.cl.injQ.any fun f => f.cls = p)
  || ((s.sched.inj.any fun e => e.2.head?.any fun t => tagPart t.tag = p) && !injectRoom s nodeHub p 0)

/-- R97, R139: the lanes of the cluster keep what they accept: it is RUNNING or MIGRATING, and its partition is not halted. -/
def laneRuns (s : State) (c : Nat) : Bool :=
  (s.cState c = 2 || s.cState c = 3) && !(s.cOwner c < 8 && s.pState (s.cOwner c) = pHalted)

/-- R119: the lane is in a spill hold: it accepts no other token. -/
def spillHolds (s : State) (c pe : Nat) : Bool :=
  s.cState c = 2 && laneRuns s c && (mfind s.cl.spillHold (c * 16 + pe)).isSome

/-- R137: some condition holds the partition blocked. A slot hold and a band-select stall both stand beside an unfired instance. -/
def stillBlocked (s : State) (p : Nat) : Bool :=
  (s.cl.spillHold.any fun e => s.cOwner (e.1 / 16) = p && spillHolds s (e.1 / 16) (e.1 % 16)) || (s.cl.slots.any fun x => s.cOwner x.cluster = p) || waitsCredit s p
  || (s.get F.partStat_CRIT p = 3 && s.cl.waits.any fun x => tagPart x.tag = p)

/-- R138: a moment in which no blocked condition of a partition holds breaks the block. It is noted where a condition can end without
progress: every other end counts under PROGRESS, which rules the declaration out. -/
def noteBreak (p : Nat) (s : State) : State :=
  if 8 ≤ p || stillBlocked s p then s else { s with cl := { s.cl with unblocked := mput s.cl.unblocked p 1 } }

/-- R277: the urgency with which a partition's packet starts, from its band; a system-class packet starts at 0. -/
def startUrg (s : State) (cls band : Nat) : Nat :=
  if cls = 8 then 0 else min (s.get F.partCfg_CEIL cls) (14 - 2 * band)

/-- R112: the band of a due read at T. -/
def dueBand (s : State) (due : W) : Nat := bandOf (sdiff due s.t)

/-- R280: the limit of a request's timer; 1,000 ticks for the JTAG port (R448). -/
def timeLimit (s : State) (ret : Nat) : Nat :=
  if bits ret 11 4 = 8 then
    let i := bits ret 7 4
    if i < 14 then s.get F.hubTo_TIMEOUT i else 1000
  else s.get F.rtrCfg_TIMEOUT (cIdx (bits ret 11 4) (bits ret 7 4))

/-- Start the timer of a request that expects a response, as it leaves its initiator (R280). -/
def startTimer (ret : Nat) (addr : W) (op part : Nat) (sys : Bool) (extra : Nat) (s : State) : State :=
  { s with net := { s.net with timed := s.net.timed ++ [⟨ret, addr, op, part, sys, s.ticks, timeLimit s ret + extra, false, false⟩] } }

/-- R280: what the limit of an OUTPUT with ACK and EMIT-AT exceeds TIMEOUT by. -/
def emitExtra (s : State) (due : W) : Nat := (max 0 (sdiff due s.t)).toNat

/-! ### Payloads -/

/-- R274: the payload of a REQ or BULK_HEAD. -/
def reqPay (addr data : W) (op part : Nat) (sys : Bool) (ret arg : Nat) : BitVec 144 :=
  addr ++ data ++ BitVec.ofNat 4 op ++ BitVec.ofNat 3 part ++ BitVec.ofBool sys ++ BitVec.ofNat 19 ret ++ BitVec.ofNat 21 arg

/-- R275: the payload of an ordinary response; STATUS 0 DONE, 1 DEFER. -/
def rspPay (ret status : Nat) (data extra : W) : BitVec 144 :=
  w48 (ret % 2 ^ 19 * 2 ^ 29 + status % 16 * 2 ^ 25) ++ data ++ extra

/-- R275: the payload of a deferred answer: the firing's tag with bit [0] set, the value and the due. -/
def ansPay (tag data due : W) : BitVec 144 := (tag ||| 1) ++ data ++ due

/-- R33, R34: the payload of a TOKEN flit. -/
def tokPay (t : Token) : BitVec 144 := t.tag ++ t.due ++ t.data

/-- The token of a TOKEN flit. -/
def flitToken (f : Flit) : Token := ⟨w48 (pf f.pay 96 48), w48 (pf f.pay 48 48), w48 (pf f.pay 0 48), f.poison⟩

/-- A packet about to be injected at a node. -/
def mkFlit (ty : Nat) (poison : Bool) (pay : BitVec 144) (bodies : List (BitVec 144)) (cls urg node : Nat) : Flit :=
  ⟨ty, poison, pay, bodies, cls, if ty = 2 then 2 else 0, urg, 0, node, none, none, none, Side.none⟩

/-- The packet of a firing's request: its tag and due travel beside it. -/
def Flit.ofFiring (f : Flit) (tag due : W) : Flit := { f with side := ⟨0, tag, due⟩ }

/-! ### Delivery -/

/-- R281: a response reaches its initiator: it ends the timer; one that no timer awaits is stray. -/
def deliverRsp (f : Flit) (s : State) : State :=
  let ret := rspRet f.pay
  let hub := bits ret 11 4 = 8
  let c := cIdx (bits ret 11 4) (bits ret 7 4)
  match takeFirst (fun x : Timed => x.ret = ret) s.net.timed with
  | none => if hub then s else s.inc F.rtrStat_STRAY c
  | some (x, rest) =>
    let s := { s with net := { s.net with timed := rest } }
    if x.dead then (if hub then s else s.inc F.rtrStat_STRAY c)
    else
      -- an RSP with reserved bits set is a response with cause ERR (R276)
      let bad := pf f.pay 97 24 ≠ 0 || pf f.pay (96 + 25) 4 > 1
      let f := if bad then
          { f with poison := true, pay := rspPay ret 0 (poisonData causeErr x.addr.toNat) x.addr, side := Side.none } else f
      if hub then
        let r : HubRsp := ⟨bits ret 7 4, ret % 128, !f.poison, f.side.hi ++ w48 (pf f.pay 48 48), w48 (pf f.pay 0 48)⟩
        { s with net := { s.net with hubRsp := s.net.hubRsp ++ [r] } }
      else { s with net := { s.net with rspQ := s.net.rspQ ++ [f] } }

/-- R276: the request is one that its target must refuse: a reserved OP, a nonzero reserved bit, or a poisoned flit (DEDUCED, log 83). -/
def badReq (f : Flit) : Bool :=
  let op := reqOp f.pay
  let arg := reqArg f.pay
  let body : BitVec 144 := f.bodies.headD 0
  f.poison || (reqSys f.pay && reqPart f.pay ≠ 0) ||
  (if op = 1 ∨ op = 2 then arg / 2 ≠ 0
   else if 3 ≤ op ∧ op ≤ 10 then (op ≠ 10 && arg ≠ 0)
   else if op = 11 then (arg / 8 ≠ 0 || pf f.pay 62 34 ≠ 0)
   else if op = 12 then (arg % 4 ≠ 1 || bits arg 2 17 ≠ 0 || pf body 0 48 ≠ 0 || pf body 63 33 ≠ 0)
   else if op = 13 then (arg / 4 ≠ 0 || arg % 4 = 0)
   else true)

/-- The kinds of a REQ_ERR fault's class of initiator (R276): the partition, or the initiator for the system class. -/
def reqErr (l : Nat) (f : Flit) (s : State) : State :=
  if reqSys f.pay then reportU 20 (loc 7 (bits (reqRet f.pay) 7 4)) 0 s
  else reportP 20 l 0 (reqPart f.pay) s

/-- A packet stands at the local port of its node: hand it to what serves it there, or let it wait in its buffer. -/
def deliverOther (f : Flit) (s : State) : State :=
  let n := s.net
  if f.ty = 2 then
    if rspAns f.pay then { s with net := { n with ansQ := n.ansQ ++ [f] } } else deliverRsp f s
  else
    match reqOp f.pay with
    | 10 => { s with net := { n with lensQ := n.lensQ ++ [f] } }
    | 11 => { s with net := { n with relQ := n.relQ ++ [f] } }
    | 12 => { s with net := { n with outQ := n.outQ ++ [f] } }
    | _ => { s with net := { n with sysQ := n.sysQ ++ [f] } }

/-- The 48-bit words of a bulk packet, in address order. -/
def bulkWords (f : Flit) : List W := reqData f.pay :: f.bodies.flatMap fun b => [w48 (pf b 96 48), w48 (pf b 48 48), w48 (pf b 0 48)]

/-- A system-class RD or WR of 8 or 16 bits, which no bank or register takes (R315): a mark beside the flit says so (DESIGN CHOICE, log 46). -/
def Flit.narrow (f : Flit) : Bool := reqSys f.pay && reqOp f.pay ≤ 2 && f.side.tag ≠ 0

/-- The operation that a delivered bank request asks of its bank. -/
def reqToBank (f : Flit) : BReq :=
  ⟨reqOp f.pay, reqAddr f.pay, reqData f.pay, reqPart f.pay, reqSys f.pay, reqRet f.pay, f.urg, f.side.tag, f.side.due, none, false,
    reqOp f.pay ≤ 2 && reqArg f.pay % 2 = 1, f.narrow, bulkWords f, badReq f⟩

/-- The return word of a hub initiator's transaction (R274). -/
def hubRet (s : State) (init trans : Nat) : Nat := s.pkg * 2 ^ 15 + 8 * 2 ^ 11 + init % 16 * 2 ^ 7 + trans % 128

/-- R276, R471: the hub initiator that a RET names, as this package's targets see it: the chain port for other packages. -/
def retInit (s : State) (ret : Nat) : Nat := if bits ret 15 4 = s.pkg && bits ret 11 4 = 8 then bits ret 7 4 else 12

/-- The bank that an address names inside its cluster. -/
def addrBank (a : W) : Nat := bits a.toNat 15 4

/-- R29: the offset lies in the data-bank range. -/
def inBanks (a : W) : Bool := bits a.toNat 0 36 < 0x80000

/-- The packet is a request that a bank of the node serves: a graph operation, RD, WR or BWR, or one that R276 refuses there. -/
def forBank (f : Flit) : Bool :=
  (f.ty = 1 || f.ty = 3) && f.node < 128 && inBanks (reqAddr f.pay) && !(10 ≤ reqOp f.pay && reqOp f.pay ≤ 12)

/-- The bank that a request for a bank names. -/
def flitBank (f : Flit) : Nat := f.node * 16 + addrBank (reqAddr f.pay)

/-- Put a packet into the buffers of its node: its next segment is chosen (R271), and a token or a bank request that stands at the local
port waits there for its lane or its bank. -/
def enterNode (f : Flit) (s : State) : State :=
  let d := flitDest f
  let lens := f.ty = 1 && reqOp f.pay = 10
  let out := routeAt s f.node f.via d lens
  let f := { f with out := out, since := s.nodeCyc f.node }
  let wait := { s with net := { s.net with flits := s.net.flits ++ [f] } }
  match out with
  | some _ => wait
  | none =>
    if f.ty = 0 then wait
    else if forBank f then
      let b := flitBank f
      -- the queue takes requests in order of arrival (R290)
      if (mget [] s.bank.queue b).length < 8
          && !(s.net.flits.any fun x => x.out = none && forBank x && flitBank x = b) then
        { s with bank := { s.bank with queue := mpush s.bank.queue b (reqToBank f) } }
      else wait
    else deliverOther f s

/-- R276: the first router to decode a destination finds it undeliverable. -/
def undeliverable (s : State) (f : Flit) : Bool :=
  let d := flitDest f
  !s.pkgOk d.pkg || (if f.ty = 0 then d.die ≥ 8 else d.die > 8)

/-- R43, R276: a token that the first router cannot deliver is discarded; the location is the router that decodes it. -/
def discardAt (n : Nat) (tag : W) (s : State) : State :=
  if n < 128 then discardToken n tag false s
  else reportP 5 (loc 4 nodeHub) 0 (tagPart tag) (countCons (tagPart tag) (tagEpoch tag) 1 s)

/-- The request expects a response (R280). -/
def wantsRsp (f : Flit) : Bool :=
  let op := reqOp f.pay
  !(op = 11 || (op = 12 && bits (reqArg f.pay) 19 1 = 0))

/-- The packet is a request. -/
def Flit.isReq (f : Flit) : Bool := f.ty = 1 || f.ty = 3

/-- The timer of a request that waits for injection credit does not run (R280). -/
def holdTimer (f : Flit) (s : State) : State :=
  if !(f.isReq && wantsRsp f) then s
  else { s with net := { s.net with
    timed := replaceFirst (fun x : Timed => x.ret = reqRet f.pay && !x.dead) (fun x => { x with held := true }) s.net.timed } }

/-- A packet that waited for injection credit leaves: a token or a request takes the urgency of the band of its due now, and a request's
timer starts (R112, R277, R280). -/
def leaveInit (f : Flit) (s : State) : Flit × State :=
  if f.ty = 0 then ({ f with urg := startUrg s f.cls (dueBand s (flitToken f).due) }, s)
  else if !f.isReq then (f, s)
  else
    let extra := if reqOp f.pay = 12 && bits (reqArg f.pay) 20 1 = 1 then emitExtra s f.side.due else 0
    let start (x : Timed) : Timed := { x with left := s.ticks, limit := timeLimit s x.ret + extra, held := false }
    let mine (x : Timed) : Bool := wantsRsp f && x.ret = reqRet f.pay && x.held
    ({ f with urg := startUrg s f.cls (dueBand s f.side.due) },
      { s with net := { s.net with timed := replaceFirst mine start s.net.timed } })

/-- Queue a packet for injection at its node. -/
def queueInject (f : Flit) (s : State) : State :=
  holdTimer f { s with cl := { s.cl with injQ := s.cl.injQ ++ [f] } }

/-- R277: the urgency with which the response to a request starts: 0 for the system class, else that of the band of the request's urgency as
it arrived (DEDUCED, log 154). -/
def rspUrg (s : State) (cls urg : Nat) : Nat := startUrg s cls ((15 - urg) / 2)

/-- A response poisoned with ERR for an undeliverable or refused request (R276). -/
def errRsp (f : Flit) (n : Nat) (s : State) : Flit :=
  let cls := if reqSys f.pay then 8 else reqPart f.pay
  mkFlit 2 true (rspPay (reqRet f.pay) 0 (poisonData causeErr (reqAddr f.pay).toNat) (reqAddr f.pay)) [] cls (rspUrg s cls f.urg) n

/-- Inject a packet at its node: an undeliverable one is answered or discarded at once; others enter the node's buffers when the
injection buffer of their class and VC is free, and otherwise wait for injection credit (R273). -/
def inject (f : Flit) (s : State) : State :=
  if undeliverable s f then
    if f.ty = 0 then discardAt f.node (flitToken f).tag s
    else if f.ty = 2 then s
    else if wantsRsp f then queueInject (errRsp f f.node s) s
    else s
  else if injectRoom s f.node f.cls f.vc && !(s.cl.injQ.any fun x => x.node = f.node && x.cls = f.cls && x.vc = f.vc) then
    enterNode f s
  else queueInject f s

/-- Move flits that wait for injection credit at a node into its buffers, as far as there is room. -/
def drainNode (n : Nat) : Nat → State → State
  | 0, s => s
  | k + 1, s =>
    match takeFirst (fun f : Flit => f.node = n && injectRoom s n f.cls f.vc) s.cl.injQ with
    | none => s
    | some (f, rest) =>
      let (f, s) := leaveInit f { s with cl := { s.cl with injQ := rest } }
      drainNode n k (noteBreak f.cls (enterNode f s))

/-- Inject, then let whatever the injection queued at the node move in. -/
def send (f : Flit) (s : State) : State := drainNode f.node 4 (inject f s)

/-- Send a response from a target node to the place that RET names; `urg` is the urgency of its request as that arrived. -/
def respond (n ret : Nat) (poison : Bool) (status : Nat) (data extra : W) (cls urg : Nat) (s : State) : State :=
  send (mkFlit 2 poison (rspPay ret status data extra) [] cls (rspUrg s cls urg) n) s

/-! ### Arbitration and the move of one flit (R278) -/

/-- The urgency of a waiting flit: one more every 64 cycles, up to CEIL, or 15 for the system class (R277) (DESIGN CHOICE, log 137). -/
def agedUrg (s : State) (f : Flit) (cyc : Nat) : Nat :=
  let cap := if f.cls = 8 then 15 else s.get F.partCfg_CEIL f.cls
  max f.urg (min cap (f.urg + (cyc - f.since) / 64))

/-- COUNT of R278: foreground sends of the last 4,096 cycles. -/
def fgCount (s : State) (g p cyc : Nat) : Nat :=
  ((mget [] s.net.hist (g * 8 + p)).filter fun c => cyc < c + 4096).length

/-- The order of (input, VC, class) in the round-robin. -/
def rrKey (f : Flit) : Nat := (match f.via with | some g => g + 1 | none => 0) * 64 + f.vc * 16 + f.cls

/-- Among flits of equal urgency, the next after the last winner in round-robin order (DESIGN CHOICE, log 136). -/
def rrRank (last : Nat) (f : Flit) : Int :=
  let k := rrKey f
  if k > last then (k : Int) else (k : Int) + 2 ^ 32

/-- R278: the winner of a segment in a cycle, and whether it is foreground. -/
def winner (s : State) (g cyc : Nat) : Option (Flit × Bool) :=
  let cand := s.net.flits.filter fun f => f.out = some g && hasCredit s g f.cls (vcOn f g)
  let fg := cand.filter fun f => f.cls < 8 && fgCount s g f.cls cyc < mget 0 s.net.quota (g * 8 + f.cls)
  let set := if fg.isEmpty then cand else fg
  let top := set.foldl (fun a f => max a (agedUrg s f cyc)) 0
  let best := set.filter fun f => agedUrg s f cyc = top
  -- the round-robin starts after the last winner; with no winner yet, at the lowest
  match mfind s.net.rr g with
  | some last => (minBy (rrRank last) best).map fun f => (f, !fg.isEmpty)
  | none => (minBy (fun f => (rrKey f : Int)) best).map fun f => (f, !fg.isEmpty)

/-- The flits of a packet with their types (R36). -/
def Flit.all (f : Flit) : List (Nat × BitVec 144) := (f.ty, f.pay) :: f.bodies.map fun b => (4, b)

/-- The raw 160 bits of a flit of a packet (R34); the code of its check field is open (R35) (DESIGN CHOICE, log 157). -/
def rawOf (f : Flit) (x : Nat × BitVec 144) (s : State) : BitVec 160 × State :=
  let (v, s) := s.freeVal 9
  (BitVec.ofNat 160 (b2n f.poison * 2 ^ 158 + x.1 % 8 * 2 ^ 155 + f.vc % 4 * 2 ^ 153 + v.toNat * 2 ^ 144) ||| x.2.setWidth 160, s)

/-- The raw bits of every flit of a packet. -/
def rawsOf (f : Flit) : List (Nat × BitVec 144) → State → List (BitVec 160) × State
  | [], s => ([], s)
  | x :: l, s =>
    let (r, s) := rawOf f x s
    let (rs, s) := rawsOf f l s
    (r :: rs, s)

/-- Log the raw bits of the first dropped flit, count it and report FLIT_DROP (R37). -/
def dropFlit (n : Nat) (raw : BitVec 160) (inj : Bool) (s : State) : State :=
  let s :=
    if n < 144 then
      let s := s.inc F.rtrStat_DROPS n
      if s.flag F.flitLog2_VALID n then s
      else
        let s := s.set F.flitLog0_RAW n raw.toNat
        let s := s.set F.flitLog1_RAW n (raw.toNat / 2 ^ 64)
        let s := s.set F.flitLog2_RAW n (raw.toNat / 2 ^ 128)
        s.set F.flitLog2_VALID n 1
    else s
  report 18 (loc 4 n) 0 none inj s

/-- Report and count a corrected flit or urgency error (R37, R277). -/
def corrFlit (n : Nat) (inj : Bool) (s : State) : State :=
  let s := if n < 144 then s.inc F.rtrStat_CORR n else s
  report 17 (loc 4 n) 0 none inj s

/-- R37: the checks of a packet's flits at a node, one by one: false when some flit is dropped. The raw bits of a dropped flit are logged: those
that the link gave, or of a sound flit whose check an injection failed the flit's own, `raws` where they are known. -/
def flitChecks (n : Nat) (f : Flit) (raws : List (BitVec 160)) : List FlitErr → List (Nat × BitVec 144) → State → Bool × State
  | _, [], s => (true, s)
  | errs, x :: l, s =>
    let e := errs.headD ⟨0, 0⟩
    let (o, inj, s) := secded [17, 18] (loc 4 n) e.check s
    let (ok, s) :=
      if o ≥ 2 then
        let (r, s) := if e.check ≠ 0 then (e.raw, s) else match raws with | r :: _ => (r, s) | [] => rawOf f x s
        (false, dropFlit n r inj s)
      else (true, if o = 1 then corrFlit n inj s else s)
    let (rest, s) := flitChecks n f raws.tail errs.tail l s
    (ok && rest, s)

end Sys2Proof.Machine
end

