-- ==== Sys2Proof/Machine/Operands.lean ====
section
/-!
DEFINITION. Sys2Proof/Machine/Operands.lean: the graph instruction word and its operand forms (R60–R64), the ports that an operation reads
(R62, R98), route entries (R65, R192), destinations and output tags (R66), due inheritance (R46), and the decode checks (R67).
-/
namespace Sys2Proof.Machine
open Sys2Proof

/-! ### The instruction word (R60, R61) -/

def iOpc (w : Nat) : Nat := bits w 86 10
def iForm (w : Nat) : Nat := bits w 84 2
def iKsel (w : Nat) : Nat := bits w 82 2
def iBand (w : Nat) : Nat := bits w 79 3
def iDoff (w : Nat) : Nat := bits w 71 8
def iDst0 (w : Nat) : Nat := bits w 48 23
def iK (w : Nat) : Nat := bits w 0 48
def iDst1 (w : Nat) : Nat := bits w 25 23
def iDst2 (w : Nat) : Nat := bits w 2 23

/-- A destination field (R64). -/
def dstV (d : Nat) : Bool := bits d 22 1 = 1
def dstRoute (d : Nat) : Nat := bits d 17 5
def dstPort (d : Nat) : Nat := bits d 15 2
def dstAddr (d : Nat) : Nat := bits d 0 15

/-- The rows of the opcode table to which graph opcodes belong (R69). -/
inductive OpClass where
  | integer | comparison | q47 | float | conversion | complex
  | switch | merge | gate | sel | const | sink | prism | link
  | alloc | free | next | ret
  | load | store | read | write | iclr | fetchAdd | swap
  | now | due | tighten | angleAt | timeAt | out | emitAt | user
  deriving DecidableEq, Repr

/-- R69: the class of an opcode. Undefined and reserved opcodes, and XDST, stand with the integer operations: their firing is ILLEGAL
whatever the class. -/
def opClass (o : Nat) : OpClass :=
  if o ≥ 0x040 ∧ o ≤ 0x04C then .comparison
  else if o = 0x050 ∨ o = 0x051 then .q47
  else if (o ≥ 0x060 ∧ o ≤ 0x066) ∨ (o ≥ 0x068 ∧ o ≤ 0x06B) then .float
  else if o ≥ 0x070 ∧ o ≤ 0x077 then .conversion
  else if o ≥ 0x080 ∧ o ≤ 0x088 then .complex
  else if o = 0x0A0 then .switch
  else if o = 0x0A1 then .merge
  else if o = 0x0A2 then .gate
  else if o = 0x0A3 then .sel
  else if o = 0x0A4 then .const
  else if o = 0x0A5 then .sink
  else if o = 0x0A6 then .prism
  else if o = 0x0A8 then .link
  else if o = 0x0B0 then .alloc
  else if o = 0x0B1 then .free
  else if o = 0x0B2 then .next
  else if o = 0x0B3 then .ret
  else if o = 0x0C0 then .load
  else if o = 0x0C1 then .store
  else if o = 0x0C2 then .read
  else if o = 0x0C3 then .write
  else if o = 0x0C4 then .iclr
  else if o = 0x0C5 then .fetchAdd
  else if o = 0x0C6 then .swap
  else if o = 0x0D0 then .now
  else if o = 0x0D1 then .due
  else if o = 0x0D2 then .tighten
  else if o ≥ 0x0E0 ∧ o ≤ 0x0E4 then .angleAt
  else if o ≥ 0x0E8 ∧ o ≤ 0x0EC then .timeAt
  else if o = 0x0F0 then .out
  else if o = 0x0F1 then .emitAt
  else if o ≥ 768 ∧ o < 960 then .user
  else .integer

/-- R67 items 1, 2 and 12: the opcode names an operation that may fire. -/
def opDefined (o : Nat) : Bool :=
  (o ≥ 0x010 && o ≤ 0x033) || (opClass o ≠ .integer && o < 960)

/-- Ports as a mask: bit 0 left, bit 1 right, bit 2 gate. -/
def maskL : Nat := 1
def maskLR : Nat := 3

/-- The Ports column of the operation tables (R72–R91); MERGE reads L or R. -/
def opPorts (o : Nat) : Nat :=
  if (o ≥ 0x016 ∧ o ≤ 0x019) ∨ o = 0x028 ∨ o = 0x032 ∨ o = 0x033 then 1
  else if o ≥ 0x010 ∧ o ≤ 0x033 then 3
  else if o ≥ 0x040 ∧ o ≤ 0x051 then 3
  else if o = 0x064 ∨ o = 0x068 ∨ o = 0x069 then 1
  else if o = 0x065 ∨ o = 0x066 then 7
  else if o ≥ 0x060 ∧ o ≤ 0x06B then 3
  else if o ≥ 0x070 ∧ o ≤ 0x077 then 1
  else if o = 0x083 ∨ o = 0x084 ∨ o = 0x087 ∨ o = 0x088 then 1
  else if o ≥ 0x080 ∧ o ≤ 0x086 then 3
  else if o = 0x0A0 ∨ o = 0x0A2 then 5
  else if o = 0x0A1 then 3
  else if o = 0x0A3 then 7
  else if o = 0x0B3 then 3
  else if o = 0x0C1 ∨ o = 0x0C3 ∨ o = 0x0C5 ∨ o = 0x0C6 ∨ o = 0x0D2 then 3
  else 1

/-- The ports that the instruction's operation reads, from tokens or from K. -/
def readPorts (s : State) (c o : Nat) : Nat :=
  if opClass o = .user then
    if s.flag F.dispatch_VALID (c * 1024 + o) then s.get F.dispatch_PORTS (c * 1024 + o) else 1
  else if opDefined o then opPorts o else 1

/-- The port mask bit that KSEL supplies from K (R62). -/
def kselMask (w : Nat) : Nat :=
  if iForm w = 0 then (match iKsel w with | 1 => 1 | 2 => 2 | 3 => 4 | _ => 0) else 0

/-- The opcode has an operation: one of R69's tables, or a user operation whose dispatch entry is valid. -/
def opKnown (s : State) (c o : Nat) : Bool :=
  if opClass o = .user then s.flag F.dispatch_VALID (c * 1024 + o) else opDefined o

/-- R98: the ports at which the instruction accepts tokens. An opcode without an operation waits on L alone, whatever KSEL holds. -/
def portMask (s : State) (c w : Nat) : Nat :=
  let m := readPorts s c (iOpc w)
  if opKnown s c (iOpc w) then m - (m &&& kselMask w) else 1

/-- R65, R192: the cluster that a route entry names in the route set of an epoch; entry 0 is the cluster itself. -/
def routeEntry (s : State) (c n ep : Nat) : Option Dest :=
  if n = 0 then
    -- while the cluster migrates, outputs under entry 0 go to TO (R198)
    let x := if s.cState c = 3 then s.get F.migCtl_TO c else c
    some ⟨s.pkg, x / 16, x % 16⟩
  else
    let i := c * 32 + n
    if ep = 0 then
      if s.flag F.rtEntry_VALID i then
        some ⟨s.get F.rtEntry_PKG i, s.get F.rtEntry_DIE i, s.get F.rtEntry_CLUSTER i⟩ else none
    else
      if s.flag F.rtAlt_VALID i then
        some ⟨s.get F.rtAlt_PKG i, s.get F.rtAlt_DIE i, s.get F.rtAlt_CLUSTER i⟩ else none

/-- R67 item 9: a destination field keeps R64. -/
def dstOk (s : State) (c ep d : Nat) : Bool :=
  if dstV d then dstPort d ≠ 3 && (routeEntry s c (dstRoute d) ep).isSome else d = 0

/-- The destination fields of an instruction: one in K form, three in D form, six in P form (R61, R81). -/
def dstFields (s : State) (c iaddr w : Nat) : List Nat :=
  match iForm w with
  | 0 => [iDst0 w]
  | 1 => [iDst0 w, iDst1 w, iDst2 w]
  | 2 =>
    let x := s.instr c (iaddr + 16)
    [iDst0 w, iDst1 w, iDst2 w, iDst0 x, iDst1 x, iDst2 x]
  | _ => [iDst0 w]

/-- R67 item 4, R151: K and D form as the dispatch entry allows them; P form is PRISM's alone. -/
def formOk (s : State) (c o f : Nat) : Bool :=
  match f with
  | 0 => s.flag F.dispatch_KFORM (c * 1024 + o)
  | 1 => s.flag F.dispatch_DFORM (c * 1024 + o)
  | 2 => opClass o = .prism
  | _ => false

/-- The operation takes K as a parameter (R67 items 6 and 7, R151). -/
def takesParam (s : State) (c o : Nat) : Bool := s.flag F.dispatch_KPARAM (c * 1024 + o)

/-- R91: an output target word names a target. -/
def targetOk (k : Nat) : Bool :=
  let kind := bits k 44 4
  let idx := bits k 0 16
  bits k 16 24 = 0 &&
  (if kind = 1 then idx < 256 else if kind = 2 then idx < 1024 else if kind = 3 then idx < 64
   else if kind = 4 then idx < 8 else if kind = 5 then idx < 64 else false)

/-- R67 item 8: a parameter in K has no nonzero reserved bit and no reserved value. -/
def paramOk (s : State) (c ep o k : Nat) : Bool :=
  match opClass o with
  | .alloc | .free | .next => k < 7
  | .link => k / 2 ^ 23 = 0 && dstV k && dstOk s c ep k
  | .out | .emitAt => targetOk k
  | _ => true

/-- R67 item 10: the destination constraints stated with the operations (R79, R82, R89). -/
def constraintOk (o : Nat) (ds : List Nat) : Bool :=
  let v := fun i => dstV (ds.getD i 0)
  match opClass o with
  | .switch | .angleAt | .timeAt => !v 2
  | .sink | .free => !v 0
  | .ret => !v 0 && !v 1 && !v 2
  | _ => true

/-- R67 item 11, R81: the extension word of a P-form PRISM. -/
def prismOk (s : State) (c iaddr w : Nat) : Bool :=
  if iForm w = 2 ∧ opClass (iOpc w) = .prism then
    let x := s.instr c (iaddr + 16)
    iaddr < 32752 && iOpc x = 0x0A7 && iForm x = 1 && iKsel x = 0 && iBand x = 0 && iDoff x = 0 && bits x 0 2 = 0
  else true

/-- R67 items 1, 2, 5 and 9–12, with FORM = 3 of item 4: the decode checks that read no dispatch entry. -/
def wordOk (s : State) (c iaddr ep w : Nat) : Bool :=
  let o := iOpc w
  let ds := dstFields s c iaddr w
  o < 960 && opDefined o && iForm w ≠ 3
  && (iForm w = 0 || (iKsel w = 0 && bits w 0 2 = 0))
  && ds.all (dstOk s c ep)
  && constraintOk o ds
  && prismOk s c iaddr w

/-- R67: the decode checks of a firing, in a cluster and an epoch. -/
def decodeOk (s : State) (c iaddr ep w : Nat) : Bool :=
  let o := iOpc w
  let kf := iForm w = 0
  wordOk s c iaddr ep w && s.flag F.dispatch_VALID (c * 1024 + o)
  && formOk s c o (iForm w)
  && (!kf || iKsel w = 0 ||
      ((readPorts s c o &&& kselMask w) ≠ 0 && !takesParam s c o && opClass o ≠ .sink && opClass o ≠ .ret))
  && (!kf || iKsel w ≠ 0 || takesParam s c o || iK w = 0)
  && (!takesParam s c o || paramOk s c ep o (iK w))

/-! ### Due inheritance (R46) -/

/-- R46: the least slack of the input dues at T, less DOFF, as a slack. -/
def firingSlack (t : W) (dues : List W) (doff : Nat) : Int :=
  match dues.map (fun d => sdiff d t) with
  | [] => 0
  | x :: xs => tighten (xs.foldl min x) doff

/-- R46: the output due of a firing. -/
def firingDue (t : W) (dues : List W) (doff : Nat) : W := dueOf t (firingSlack t dues doff)

/-! ### Output tokens -/

/-- R66: the tag of an output token to a destination field. -/
def outTag (s : State) (c : Nat) (d : Nat) (part ctx ep : Nat) : Option W :=
  match routeEntry s c (dstRoute d) ep with
  | some r => some (mkTag r.pkg r.die r.cluster (dstAddr d) (dstPort d) part ctx ep)
  | none => none

/-- A token leaves a PE's emit stage: it is counted as produced, and becomes a candidate of its own cluster or a packet (R95, R135). -/
def emitToken (c pe : Nat) (t : Token) (s : State) : State :=
  let s := countProd (tagPart t.tag) (tagEpoch t.tag) s
  if tagPkg t.tag = s.pkg ∧ cIdx (tagDie t.tag) (tagCluster t.tag) = c ∧ tagDie t.tag < 8 then
    { s with cl := { s.cl with emit := s.cl.emit ++ [(c * 16 + pe, t)] } }
  else
    let urg := startUrg s (tagPart t.tag) (dueBand s t.due)
    send { mkFlit 0 t.poison (tokPay t) [] (tagPart t.tag) urg c with pe := some pe } s

/-- One token to one destination field; a field with V = 0 takes nothing (R80, R153). -/
def emitTo (c pe : Nat) (base : W) (ctx : Nat) (due data : W) (poison : Bool) (d : Nat) (s : State) : State :=
  if !dstV d then s
  else
    match outTag s c d (tagPart base) ctx (tagEpoch base) with
    | some tag => emitToken c pe ⟨tag, due, data, poison⟩ s
    | none => s

/-- One token to every listed field, in order (R66). -/
def emitAll (c pe : Nat) (base : W) (ctx : Nat) (due data : W) (poison : Bool) (ds : List Nat) (s : State) : State :=
  ds.foldl (fun s d => emitTo c pe base ctx due data poison d s) s

end Sys2Proof.Machine
end

