-- ==== Sys2Proof/Machine/Match.lean ====
section
/-!
DEFINITION. Sys2Proof/Machine/Match.lean: arrival lanes, the matching store, the spill area, queue slots and deadline bands (R95–R120),
forwarding at a migrating cluster (R198), and the meanings of TOKEN_ACCEPT, SPILL_RETRY and HWM_CLEAR's marks.
-/
namespace Sys2Proof.Machine
open Sys2Proof

/-! ### The matching store (R100) -/

/-- R100: the set of an instruction address, context and partition. -/
def setIndex (i ctx p : Nat) : Nat :=
  let h := bits i 4 7 ^^^ (bits i 11 4 * 8) ^^^ bits ctx 0 7 ^^^ bits ctx 7 7 ^^^ (p * 16)
  i % 16 * 128 + h % 128

def tokenSet (t : W) : Nat := setIndex (tagInstr t) (tagCtx t) (tagPart t)

/-- The token in a way of a cluster, if it holds one. -/
def State.way (s : State) (c e : Nat) : Option Token := mfind s.cl.ways (c * 8192 + e)

def State.setWay (s : State) (c e : Nat) (t : Option Token) : State :=
  { s with cl := { s.cl with ways :=
      match t with
      | some t => mput s.cl.ways (c * 8192 + e) t
      | none => mdel s.cl.ways (c * 8192 + e) } }

/-- The entries of the ways of a set. -/
def setWays (set : Nat) : List Nat := [set * 4, set * 4 + 1, set * 4 + 2, set * 4 + 3]

/-- Waiting tokens in the ways of a cluster (MATCH_STAT.ENTRIES). -/
def State.wayCount (s : State) (c : Nat) : Nat :=
  (s.cl.ways.filter fun e => e.1 / 8192 = c).length

/-! ### Words of the data banks (R288, R298) -/

/-- The key of a bank word in the sparse stores of BankSt. -/
def wordKey (b w : Nat) : Nat := b * 4096 + w

/-- Write a bank word: its error mark and any pending write-back end (R298). -/
def State.putWord (s : State) (b w : Nat) (v : W) : State :=
  let s := s.writeSlot (bankAddr (b / 16) (b % 16) w) v
  { s with bank := { s.bank with bad := mdel s.bank.bad (wordKey b w), wb := mdel s.bank.wb (wordKey b w) } }

/-- The owner's partition of a bank, if a partition owns it. -/
def State.bankPart (s : State) (b : Nat) : Option Nat :=
  if s.get F.bankOwn_OWNER b < 8 then some (s.get F.bankOwn_OWNER b) else none

/-- R288, R298: a read of a word is checked: 0 good, 1 corrected, 2 data uncorrectable, 3 presence uncorrectable. The faults name `part`. -/
def readCheckFor (part : Option Nat) (b w natural : Nat) (s : State) : Nat × State :=
  let marked := mget 0 s.bank.bad (wordKey b w)
  let nat := if marked = 1 then 2 else if marked = 2 then 3 else natural
  let (o, inj, s) := secded [8, 9] (loc 3 b) (min nat 2) s
  let o := if o = 2 && nat = 3 && !inj then 3 else o
  if o = 0 then (0, s)
  else if o = 1 then
    let s := s.inc F.bankStat_CORR b
    let s := { s with bank := { s.bank with wb := mput s.bank.wb (wordKey b w) 1 } }
    (1, report 8 (loc 3 b) w part inj s)
  else
    let s := (s.inc F.bankStat_UNCORR b).set F.bankStat_UNC_EVT b 1
    let s := if inj then s else { s with bank := { s.bank with bad := mput s.bank.bad (wordKey b w) (o - 1) } }
    (o, report 9 (loc 3 b) w part inj s)

/-- The check of a word that its bank's owner reads. -/
def readCheck (b w natural : Nat) (s : State) : Nat × State := readCheckFor (s.bankPart b) b w natural s

/-! ### The spill area (R104, R105) -/

def State.spillBank (s : State) (c : Nat) : Nat := s.get F.spillCfg_BANK c
def State.recordsOf (s : State) (c : Nat) : List Nat := mget [] s.cl.records c
def State.chainOf (s : State) (c set : Nat) : List Nat := mget [] s.cl.chains (c * 2048 + set)

/-- The address of word k of spill record r. -/
def recAddr (s : State) (c r k : Nat) : Nat := bankAddr c (s.spillBank c) (4 * r + k)

/-- The token and control word of a spill record. -/
def State.record (s : State) (c r : Nat) : Token :=
  ⟨s.readSlot (recAddr s c r 0), s.readSlot (recAddr s c r 1), s.readSlot (recAddr s c r 2),
    bits (s.readSlot (recAddr s c r 3)).toNat 1 1 = 1⟩

/-- The bank instance of a cluster's spill area, and a write of word k of record r there. -/
def State.spillInst (s : State) (c : Nat) : Nat := c * 16 + s.spillBank c
def State.putRec (s : State) (c r k : Nat) (v : W) : State := s.putWord (s.spillInst c) (4 * r + k) v

/-- Write a record's control word: VALID, POISON, ENABLED, LINKV and NEXT (R104). -/
def State.setControl (s : State) (c r : Nat) (poison enabled : Bool) (next : Option Nat) : State :=
  s.putRec c r 3
    (w48 (1 + b2n poison * 2 + b2n enabled * 4 + (match next with | some n => 8 + n % 1024 * 16 | none => 0)))

/-- Write every control word of a chain, so that each record names the next. -/
def State.writeLinks (s : State) (c : Nat) : List Nat → State
  | [] => s
  | r :: rs =>
    State.writeLinks (s.setControl c r (s.record c r).poison false rs.head?) c rs

/-- Set the chain of a set, in the directory and in the records. -/
def State.setChain (s : State) (c set : Nat) (ch : List Nat) : State :=
  State.writeLinks { s with cl := { s.cl with chains := mlist s.cl.chains (c * 2048 + set) ch } } c ch

/-- The lowest free record of the area, if any (R105). -/
def State.freeRecord (s : State) (c : Nat) : Option Nat :=
  let used := s.recordsOf c
  (List.range (s.get F.spillCfg_COUNT c)).map (· + s.get F.spillCfg_BASE c) |>.find? fun r => !used.contains r

/-- A bank is ON, not offline and not under handover (R301 items 1 and 2). -/
def State.bankServes (s : State) (b : Nat) : Bool :=
  !s.flag F.bankPwr_OFFLINE b && s.get F.bankPwr_CURRENT b = 0 && (mfind s.bank.move b).isNone

/-- R107: the spill area is full. -/
def State.spillFull (s : State) (c : Nat) : Bool :=
  let b := c * 16 + s.spillBank c
  s.get F.spillCfg_COUNT c = 0 || (s.freeRecord c).isNone
    || s.get F.bankOwn_OWNER b ≠ s.cOwner c || s.flag F.bankPwr_OFFLINE b

/-- Release a spill record to the free map. Its control word becomes 0; that of an unlinked record has LINKV and NEXT 0 (DESIGN CHOICE,
log 160). -/
def State.freeRec (s : State) (c r : Nat) : State :=
  let s := { s with cl := { s.cl with records := mlist s.cl.records c ((s.recordsOf c).filter (· ≠ r)) } }
  s.putRec c r 3 0

/-- The longest spill chain of a cluster. -/
def State.longest (s : State) (c : Nat) : Nat :=
  s.cl.chains.foldl (fun a e => if e.1 / 2048 = c then max a e.2.length else a) 0

/-- Raise the high-water marks to the current values where they exceed them. -/
def State.upMarks (s : State) (c : Nat) : State :=
  let s := s.set F.matchHwm_ENTRIES_HWM c (max (s.get F.matchHwm_ENTRIES_HWM c) (s.wayCount c))
  let s := s.set F.matchHwm_RECORDS_HWM c (max (s.get F.matchHwm_RECORDS_HWM c) (s.recordsOf c).length)
  s.set F.matchHwm_CHAIN_HWM c (max (s.get F.matchHwm_CHAIN_HWM c) (s.longest c))

/-- MATCH_HWM.CLR: the three marks take the current values. -/
def State.clearMarks (s : State) (c : Nat) : State :=
  let s := s.set F.matchHwm_ENTRIES_HWM c (s.wayCount c)
  let s := s.set F.matchHwm_RECORDS_HWM c (s.recordsOf c).length
  s.set F.matchHwm_CHAIN_HWM c (s.longest c)

/-! ### Queue slots and bands (R108–R113) -/

/-- The queue slots of a PE in use. -/
def State.slotCount (s : State) (c pe : Nat) : Nat :=
  (s.cl.slots.filter fun x => x.cluster = c && x.pe = pe).length

/-- The instance that band select takes: the head of the lowest non-empty band (R113). -/
def State.headSlot (s : State) (c pe : Nat) : Option Slot :=
  minBy (fun x => (x.band : Int)) (s.cl.slots.filter fun x => x.cluster = c && x.pe = pe)

/-- Free a queue slot; a slot hold of its lane ends (R119). -/
def State.freeSlot (s : State) (x : Slot) : State :=
  { s with cl := { s.cl with slots := s.cl.slots.erase x, slotHold := mdel s.cl.slotHold (x.cluster * 16 + x.pe) } }

/-- R88: the T-value operand that joins TIGHTEN's minimum: R from K or from a sound right token (DEDUCED, log 149). -/
def tightenDue (w : Nat) (r : Option (W × Bool)) : List W :=
  if opClass (iOpc w) = .tighten then
    if kselMask w = 2 then [w48 (iK w)]
    else match r with
      | some (d, false) => [d]
      | _ => []
  else []

/-- An operand from a token in a way or on arrival. -/
def opOfToken (t : Token) (r : Option Nat) : SlotOp := ⟨t.due, t.data, t.poison, r⟩

/-- R108, R110: append an enabled instance to its band. `ops` lists the operands with their ports. -/
def enableInstance (c pe : Nat) (tag : W) (ops : List (Nat × SlotOp)) (w : Nat) (s : State) : State :=
  let port := fun p => (ops.find? fun o => o.1 = p).map (·.2)
  let td := tightenDue w ((port 1).map fun o => (o.data, o.poison))
  let sl := firingSlack s.t (ops.map (·.2.due) ++ td) (iDoff w)
  let late := sl < 0
  let band := min (if late then 0 else bandOf sl) (iBand w)
  let x : Slot := ⟨c, pe, tagKey tag &&& ~~~(1 : W), band, late, port 0, port 1, port 2, dueOf s.t sl⟩
  { s with cl := { s.cl with slots := s.cl.slots ++ [x] } }

/-! ### Lanes (R96) -/

/-- Where a candidate stands. -/
inductive Src where
  | port (f : Flit)
  | stage (pe : Nat)
  | wayOf (e : Nat)
  | recOf (set r : Nat)
  deriving DecidableEq, Repr

/-- A candidate of a lane with its rank among candidates of equal slack (R96). -/
structure Cand where
  tok : Token
  rank : Nat
  src : Src
  deriving DecidableEq, Repr

/-- The router port at which a flit that arrived on a segment stands: X+, X−, Y+, Y−, gateway. A flit moving in the + direction
enters by the − port. A token injected at its own router came in by no segment: it ranks with the gateway port (DESIGN CHOICE,
log 199). -/
def portRank (via : Option Nat) : Nat :=
  match via with
  | some g =>
    if segClass g = 0 then (if bits g 5 1 = 0 then 1 else 0)
    else if segClass g = 1 then (if bits g 5 1 = 0 then 3 else 2)
    else 4
  | none => 4

/-- The dues that a migrating cluster still holds for a PE number: waiting tokens in ways and in spill records, inputs of enabled
instances, and parked firings (R198). -/
def heldDues (s : State) (c pe : Nat) : List W :=
  (s.cl.ways.filter fun e => e.1 / 8192 = c && e.1 % 8192 / 512 = pe).map (·.2.due)
    ++ (s.cl.chains.flatMap fun e => if e.1 / 2048 = c && e.1 % 2048 / 128 = pe then e.2.map fun r => (s.record c r).due else [])
    ++ (s.cl.slots.filter fun x => x.cluster = c && x.pe = pe).flatMap
        (fun x => [x.l, x.r, x.g].filterMap fun o => o.map (·.due))
    ++ ((s.cl.parks ++ s.cl.seqHeld).filter fun x => x.cluster = c && x.pe = pe && !x.detached).map (·.due)

/-- R198: a token that arrives directly at TO waits while its due is earlier than the earliest that FROM still holds for the same PE. -/
def directOk (s : State) (c pe : Nat) (f : Option Flit) (t : Token) : Bool :=
  match f with
  | some f => f.pe = some 16 || ok
  | none => ok
where
  ok : Bool :=
    (List.range 128).all fun frm =>
      !(s.cState frm = 3 && s.get F.migCtl_TO frm = c)
        || (heldDues s frm pe).isEmpty || (heldDues s frm pe).any fun d => !earlier t.due d

/-- R96, R198: the candidates of a lane. What a MIGRATING cluster of a halted partition holds is kept (R139), and so is what
FROM holds while TO is QUARANTINED (R199). -/
def candidates (s : State) (c pe : Nat) : List Cand :=
  let net := s.net.flits.filterMap fun f =>
    let t := flitToken f
    if f.ty = 0 ∧ f.node = c ∧ f.out = none ∧ tagInstr t.tag % 16 = pe ∧ directOk s c pe (some f) t then
      some ⟨t, portRank f.via, .port f⟩ else none
  let stages := (List.range 16).filterMap fun k =>
    match s.cl.emit.find? fun e => e.1 = c * 16 + k with
    | some (_, t) =>
      if tagInstr t.tag % 16 = pe ∧ directOk s c pe none t then some ⟨t, 5 + k, .stage k⟩ else none
    | none => none
  let waiting :=
    if s.cState c = 3 ∧ laneRuns s c ∧ s.cState (s.get F.migCtl_TO c) ≠ 4 then
      (s.cl.ways.filterMap fun e =>
        if e.1 / 8192 = c ∧ e.1 % 8192 / 512 = pe then some ⟨e.2, 21 + e.1 % 8192, .wayOf (e.1 % 8192)⟩ else none)
      ++ s.cl.chains.flatMap (fun e =>
        if e.1 / 2048 = c ∧ e.1 % 2048 / 128 = pe then
          e.2.map fun r => ⟨s.record c r, 9000 + r, .recOf (e.1 % 2048) r⟩
        else [])
    else []
  net ++ stages ++ waiting

/-- R96: the candidate of lowest slack, ties by rank. -/
def bestCand (s : State) (c pe : Nat) : Option Cand :=
  minBy (fun x => sdiff x.tok.due s.t * 2 ^ 20 + x.rank) (candidates s c pe)

/-- Take a candidate from where it stands; its buffer or emit stage is free from then on. -/
def takeCand (c : Nat) (x : Cand) (s : State) : State :=
  match x.src with
  | .port f => { s with net := { s.net with flits := s.net.flits.erase f } }
  | .stage k => { s with cl := { s.cl with emit := s.cl.emit.erase (c * 16 + k, x.tok) } }
  | .wayOf e => s.setWay c e none
  | .recOf set r => (s.setChain c set ((s.chainOf c set).filter (· ≠ r))).freeRec c r

/-- A value of a field of an uncorrectable entry as read: the stored value under an injection, which inverts check bits only (R393), else a
free one. -/
def asRead (inj : Bool) (v : Nat) (w : Nat) (s : State) : Nat × State :=
  if inj then (v, s) else let (x, s) := s.freeVal w; (x.toNat, s)

/-- R117: check one way of the set. A free way holds no entry, and nothing of it is checked (DESIGN CHOICE, log 197). The log takes the lowest failing way of a lookup, since ways are checked in order. What an
uncorrectable entry reads as is free, and the token counts under the epoch it was stored with (DESIGN CHOICE, log 161). -/
def checkWay (c e natural : Nat) (s : State) : State :=
  match s.way c e with
  | none => s
  | some t =>
    let (o, inj, s) := secded [6, 7] (loc 2 c) natural s
    if o = 0 then s
    else if o = 1 then report 6 (loc 2 c) e none inj s
    else
      let p := s.cOwner c
      let s := s.setWay c e none
      let s := countCons p (tagEpoch t.tag) 1 s
      let s := report 7 (loc 2 c) e (some p) inj s
      if s.flag F.msErrInfo_VALID c then s
      else
        let (data, s) := asRead inj t.data.toNat 48 s
        let (due, s) := asRead inj t.due.toNat 48 s
        let (tag, s) := asRead inj t.tag.toNat 48 s
        let (poison, s) := asRead inj (b2n t.poison) 1 s
        let s := (s.set F.msErrData_DATA c data).set F.msErrDue_DUE c due
        let s := (s.set F.msErrTag_TAG c tag).set F.msErrInfo_POISON c poison
        let s := s.set F.msErrInfo_ENTRY c e
        let s := s.set F.msErrInfo_T c s.t.toNat
        s.set F.msErrInfo_VALID c 1

/-- The way or record that holds a partner of a port under a key: the way comes first (R106). -/
def partner (s : State) (c set : Nat) (walk : List Nat) (key : W) (port : Nat) : Option (Sum Nat Nat) :=
  match (setWays set).find? fun e =>
      match s.way c e with | some t => tagKey t.tag = key && tagPort t.tag = port | none => false with
  | some e => some (.inl e)
  | none =>
    (walk.find? fun r => tagKey (s.record c r).tag = key && tagPort (s.record c r).tag = port).map .inr

/-- R105: insert a token at the head of its set's chain; `none` while the area is full. -/
def spillInsert (c : Nat) (t : Token) (s : State) : Option State :=
  if s.spillFull c then none
  else
    match s.freeRecord c with
    | none => none
    | some r =>
      let set := tokenSet t.tag
      let s := ((s.putRec c r 0 t.tag).putRec c r 1 t.due).putRec c r 2 t.data
      let s := s.setControl c r t.poison false none
      let s := { s with cl := { s.cl with records := mpush s.cl.records c r } }
      some ((s.setChain c set (r :: s.chainOf c set)).upMarks c)

/-- R119: a hold begins: its bit, one episode and MATCH_PRESSURE. -/
def beginHold (c : Nat) (f : Fld) (s : State) : State :=
  raiseEvent c ((s.set f c 1).inc F.pressure_EPISODES c)

/-- What became of a token that its lane looked at: kept (stored or in an enabled instance), discarded, or held at its source. -/
inductive Looked where
  | kept
  | gone
  | held
  deriving DecidableEq, Repr

/-- Store a token that completes nothing: lowest free way, else the spill area, else a spill hold (R101, R119). -/
def storeToken (c pe : Nat) (t : Token) (s : State) : Looked × State :=
  let set := tokenSet t.tag
  match (setWays set).find? fun e => (s.way c e).isNone with
  | some e => (.kept, (s.setWay c e (some t)).upMarks c)
  | none =>
    match spillInsert c t s with
    | some s => (.kept, s)
    | none =>
      let held := (mfind s.cl.spillHold (c * 16 + pe)).isSome
      let s := { s with cl := { s.cl with spillHold := mput s.cl.spillHold (c * 16 + pe) t } }
      (.held, if held then s else beginHold c F.pressure_SPILL_HELD s)

/-- R118: abandon a chain whose record failed in its tag, due or control word. The records stay allocated. All its tokens count under the
epoch of the token whose lookup walked it (DESIGN CHOICE, log 161). -/
def abandonChain (c set : Nat) (ep : Nat) (s : State) : State :=
  countCons (s.cOwner c) ep (s.chainOf c set).length { s with cl := { s.cl with chains := mdel s.cl.chains (c * 2048 + set) } }

/-- R118: the reads of a record's tag, due and control word; false when one of them is uncorrectable. An error found is reported against the
owning partition with its word index. -/
def recordSound (c r : Nat) (nat : Nat → Nat) (s : State) : Bool × State :=
  let b := s.spillInst c
  let p := some (s.cOwner c)
  let (o, s) := readCheckFor p b (4 * r) (nat 0) s
  if 2 ≤ o then (false, s)
  else
    let (o, s) := readCheckFor p b (4 * r + 1) (nat 1) s
    if 2 ≤ o then (false, s)
    else
      let (o, s) := readCheckFor p b (4 * r + 3) (nat 3) s
      (decide (o < 2), s)

/-- What the operand says of word k of the record at a place of the walk. -/
def recordErr (e : Option RecordErr) (place k : Nat) : Nat :=
  match e with
  | some x => if x.place = place ∧ x.word.val = k then x.bits.val else 0
  | none => 0

/-- R105, R118: the walk reads each record in chain order, and ends early at an uncorrectable one: false. -/
def walkChain (c : Nat) (e : Option RecordErr) : Nat → List Nat → State → Bool × State
  | _, [], s => (true, s)
  | k, r :: rs, s =>
    match recordSound c r (recordErr e k) s with
    | (true, s) => walkChain c e (k + 1) rs s
    | (false, s) => (false, s)

/-- R98–R106: look up an accepted token. -/
def lookup (c pe : Nat) (t : Token) (w mask : Nat) (err : LookupErr) (s : State) : Looked × State :=
  let port := tagPort t.tag
  let set := tokenSet t.tag
  let key := tagKey t.tag
  let single := mask = 1 ∨ mask = 2 ∨ mask = 4 ∨ opClass (iOpc w) = .merge
  if single then (.kept, enableInstance c pe t.tag [(port, opOfToken t none)] w s)
  else
    let s := checkWay c (set * 4) err.way0 s
    let s := checkWay c (set * 4 + 1) err.way1 s
    let s := checkWay c (set * 4 + 2) err.way2 s
    let s := checkWay c (set * 4 + 3) err.way3 s
    let dupWay := (setWays set).any fun e =>
      match s.way c e with | some u => tagKey u.tag = key && tagPort u.tag = port | none => false
    if dupWay then (.gone, discardToken c t.tag false s)
    else
      let (sound, s) := walkChain c err.record 0 (s.chainOf c set) s
      let s := if sound then s else abandonChain c set (tagEpoch t.tag) s
      let chain := s.chainOf c set
      let dupRec := chain.any fun r => tagKey (s.record c r).tag = key && tagPort (s.record c r).tag = port
      if dupRec then (.gone, discardToken c t.tag false s)
      else
        let others := [0, 1, 2].filter fun p => p ≠ port && (mask / 2 ^ p) % 2 = 1
        let found := others.map fun p => (p, partner s c set chain key p)
        if found.all fun x => x.2.isSome then
          let ops := found.filterMap fun x =>
            match x.2 with
            | some (.inl e) => (s.way c e).map fun u => (x.1, opOfToken u none)
            | some (.inr r) => some (x.1, opOfToken (s.record c r) (some r))
            | none => none
          let recs := found.filterMap fun x => match x.2 with | some (.inr r) => some r | _ => none
          let s := found.foldl (fun s x => match x.2 with | some (.inl e) => s.setWay c e none | _ => s) s
          let s := if recs.isEmpty then s else s.setChain c set (chain.filter fun r => !recs.contains r)
          let s := recs.foldl (fun s r => s.setControl c r (s.record c r).poison true none) s
          (.kept, enableInstance c pe t.tag ((port, opOfToken t none) :: ops) w s)
        else storeToken c pe t s

/-- R198: forward a token from a migrating cluster to TO. -/
def forwardToken (c : Nat) (t : Token) (s : State) : State :=
  let d := s.get F.migCtl_TO c
  let tag := mkTag s.pkg (d / 16) (d % 16) (tagInstr t.tag) (tagPort t.tag) (tagPart t.tag) (tagCtx t.tag) (tagEpoch t.tag)
  let s := s.inc F.migStat_FORWARDED c
  let urg := startUrg s (tagPart t.tag) (dueBand s t.due)
  send { mkFlit 0 t.poison (tokPay { t with tag := tag }) [] (tagPart t.tag) urg c with pe := some 16 } s

/-- R141: a live filter entry of the partition covers the context in this cluster. -/
def filtered (s : State) (p ctx : Nat) : Bool :=
  s.cl.filters.any fun f => f.part = p && f.block.base ≤ ctx && ctx < f.block.base + 2 ^ f.block.g

/-- The lane has just accepted this token from its source: discard it, forward it or look it up (R43, R97, R98, R139, R141, R195). -/
def acceptToken (c pe : Nat) (t : Token) (err : LookupErr) (s : State) : Looked × State :=
  let p := tagPart t.tag
  let st := s.cState c
  let own := s.cOwner c
  let w := s.instr c (tagInstr t.tag)
  let mask := portMask s c w
  let port := tagPort t.tag
  if st ≠ 2 ∧ st ≠ 3 then (.gone, discardToken c t.tag false s)
  else if own < 8 ∧ s.pState own = pHalted then (.gone, discardToken c t.tag true s)
  else if port = 3 ∨ tagBit0 t.tag = 1 ∨ p ≠ own then (.gone, discardToken c t.tag false s)
  else if filtered s p (tagCtx t.tag) then (.gone, countCons p (tagEpoch t.tag) 1 s)
  else if (mfind s.ap.oldDiscard p).isSome ∧ tagEpoch t.tag ≠ s.epoch p then (.gone, countCons p (tagEpoch t.tag) 1 s)
  else if st = 3 then (.gone, countProg p (forwardToken c t s))
  else if (mask / 2 ^ port) % 2 = 0 then (.gone, discardToken c t.tag false s)
  else
    let (k, s) := lookup c pe t w mask err s
    (k, if k = .kept then countProg p s else s)

/-- The errors of a forwarded record: it stands at place 0 of its own read. -/
def wayErr (e : LookupErr) (k : Nat) : Nat := ([e.way0, e.way1, e.way2, e.way3].getD k 0).val

/-- R117, R118: the entry or record from which a migrating cluster's lane takes a candidate is read, and checked. Nothing is left to forward
of an entry or chain that fails; an uncorrectable data word forwards a poisoned token (DESIGN CHOICE, log 161). -/
def readCand (c : Nat) (x : Cand) (err : LookupErr) (s : State) : Option Cand × State :=
  match x.src with
  | .wayOf e =>
    let s := checkWay c e (wayErr err (e % 4)) s
    (if (s.way c e).isSome then some x else none, s)
  | .recOf set r =>
    match recordSound c r (recordErr err.record 0) s with
    | (false, s) => (none, abandonChain c set (tagEpoch x.tok.tag) s)
    | (true, s) =>
      let (o, s) := readCheckFor (some (s.cOwner c)) (s.spillInst c) (4 * r + 2) (recordErr err.record 0 2) s
      if 2 ≤ o then (some { x with tok := { x.tok with data := poisonData causeUncorr (recAddr s c r 2), poison := true } }, s)
      else (some x, s)
  | _ => (some x, s)

/-- A hold mark of a lane ends (R119). -/
def endSlotHold (k : Nat) (s : State) : State :=
  if (mfind s.cl.slotHold k).isSome then { s with cl := { s.cl with slotHold := mdel s.cl.slotHold k } } else s

/-- A spill hold ends with nothing inserted: its cluster no longer keeps what it accepts, or forwards it (R97, R139, R198). -/
def endSpillHold (k : Nat) (s : State) : State :=
  if (mfind s.cl.spillHold k).isSome then
    noteBreak (s.cOwner (k / 16)) { s with cl := { s.cl with spillHold := mdel s.cl.spillHold k } }
  else s

/-- R119: the lane holds back now: a spill hold, or a slot hold whose candidate still stands while the PE has no free slot. -/
def holdsBack (s : State) (c pe : Nat) : Bool :=
  spillHolds s c pe
  || ((mfind s.cl.slotHold (c * 16 + pe)).isSome && laneRuns s c && 16 ≤ s.slotCount c pe && (bestCand s c pe).isSome)

/-- R96, R109, R119: one acceptance of lane `pe` of cluster `c`. -/
def tokenAccept (c pe : Nat) (err : LookupErr) (s : State) : State :=
  let k := c * 16 + pe
  if s.cl.reclaim.any fun r => r.part = s.cOwner c then s
  else if spillHolds s c pe then s
  else
    let s := endSpillHold k s
    match bestCand s c pe with
    | none => endSlotHold k s
    | some x =>
      if laneRuns s c ∧ 16 ≤ s.slotCount c pe then
        if (mfind s.cl.slotHold k).isSome then s
        else beginHold c F.pressure_SLOT_HELD { s with cl := { s.cl with slotHold := mput s.cl.slotHold k 1 } }
      else
        match readCand c x err (endSlotHold k s) with
        | (none, s) => s
        | (some x, s) =>
          let (l, s') := acceptToken c pe x.tok err s
          if l = .held then s' else drainNode c 4 (takeCand c x s')

/-- TOKEN_ACCEPT (R96). -/
def execTokenAccept (c : Fin 128) (pe : Fin 16) (err : LookupErr) (s : State) : Host.Outcome State Fault Refusal :=
  .next (onFabric c (tokenAccept c pe err) s)

/-- R119: a held lane of a RUNNING cluster whose partition is neither halted nor paused inserts its token once a record is free; the token
then leaves its source. A reclaim filter that began meanwhile does not reach it: the lane had accepted it before (DESIGN CHOICE, log 162). -/
def spillRetry (c pe : Nat) (s : State) : State :=
  match mfind s.cl.spillHold (c * 16 + pe) with
  | none => s
  | some t =>
    if !spillHolds s c pe || (s.cl.reclaim.any fun r => r.part = s.cOwner c) then s else
    match spillInsert c t s with
    | none => s
    | some s' =>
      let s' := { s' with cl := { s'.cl with spillHold := mdel s'.cl.spillHold (c * 16 + pe) } }
      let s' := countProg (tagPart t.tag) s'
      match (candidates s c pe).find? fun x => x.tok = t with
      | some x => drainNode c 4 (takeCand c x s')
      | none => s'

/-- SPILL_RETRY (R119). -/
def execSpillRetry (c : Fin 128) (pe : Fin 16) (s : State) : Host.Outcome State Fault Refusal :=
  .next (onFabric c (spillRetry c pe) s)

/-- HWM_CLEAR (R120). -/
def execHwmClear (c : Fin 128) (s : State) : Host.Outcome State Fault Refusal := .next (unlessFatal (fun s => s.clearMarks c) s)

/-- LATE_CLEAR (R121). -/
def execLateClear (c : Fin 128) (s : State) : Host.Outcome State Fault Refusal := .next (unlessFatal (fun s => s.set F.lateCnt_COUNT c 0) s)

end Sys2Proof.Machine
end

