-- ==== Sys2Proof/Machine/Banks.lean ====
section
/-!
DEFINITION. Sys2Proof/Machine/Banks.lean: the data banks (chapter 11): access checks (R300, R301), the effect of every operation on a word with
its errors (R85, R298), deferral and answers (R294–R297), ownership (R302, R303), power states (R305, R306), offline banks (R309), and
the meanings of the bank rows of the table.
-/
namespace Sys2Proof.Machine
open Sys2Proof

/-- The word index of a bank address. -/
def addrWord (a : W) : Nat := bits a.toNat 3 12
def State.isPresent (s : State) (b w : Nat) : Bool := mget 0 s.bank.present (wordKey b w) = 1
def State.setPresent (s : State) (b w : Nat) (v : Bool) : State :=
  { s with bank := { s.bank with present := mset 0 s.bank.present (wordKey b w) (b2n v) } }

def State.bankWord (s : State) (b w : Nat) : W := s.readSlot (bankAddr (b / 16) (b % 16) w)

/-- Deferral entries of a bank. -/
def State.deferOf (s : State) (b : Nat) : List Defer := mget [] s.bank.defer b
def State.setDefer (s : State) (b : Nat) (l : List Defer) : State :=
  { s with bank := { s.bank with defer := mlist s.bank.defer b l } }

/-- The word is locked while its deferred READs are answered (R295). -/
def State.locked (s : State) (b w : Nat) : Bool := (mfind s.bank.answering (wordKey b w)).isSome

/-- R289: initialise a bank: every word 0 and EMPTY. -/
def initBank (b : Nat) (s : State) : State :=
  let lo := bankAddr (b / 16) (b % 16) 0
  { s with
    mem := s.mem.filter fun e => e.1 < lo || lo + 0x8000 ≤ e.1
    bank := { s.bank with
      present := s.bank.present.filter fun e => e.1 / 4096 ≠ b
      bad := s.bank.bad.filter fun e => e.1 / 4096 ≠ b
      wb := s.bank.wb.filter fun e => e.1 / 4096 ≠ b } }

/-- R300: the owner accepts the initiator. -/
def ownerAccepts (s : State) (b op : Nat) (sys : Bool) (part init : Nat) : Bool :=
  let o := s.get F.bankOwn_OWNER b
  if !sys then decide (o < 8) && o = part && 3 ≤ op && op ≤ 9
  else
    (op = 1 && init = 8)
    || ((op = 1 || op = 2 || op = 13)
      && ((o = 8 && (init < 8 || init = 11 || init = 12)) || (o = 9 && init = 10) || (o = 10 && init = 8)))

/-- R104: the word lies in the cluster's spill area. -/
def inSpill (s : State) (b w : Nat) : Bool :=
  let c := b / 16
  let n := s.get F.spillCfg_COUNT c
  let base := s.get F.spillCfg_BASE c
  n ≠ 0 && s.spillBank c = b % 16 && 4 * base ≤ w && w < 4 * (base + n)

/-- R301: the first check that fails, as the KIND of R304; `half` is a 32-bit RD or WR (R27). -/
def bankCheck (s : State) (b op : Nat) (a : W) (sys : Bool) (part init : Nat) (pre half : Bool) : Option Nat :=
  if !s.bankServes b then some 3
  else if s.flag F.bankOwn_PENDING b && !pre then some 4
  else if !ownerAccepts s b op sys part init then some 2
  else if !sys && inSpill s b (addrWord a) then some 5
  else if a.toNat % (if half then 4 else 8) ≠ 0 then some 6
  else none

/-- R301, R304: a failed access is entered in the violation log and reported as ACCESS_ERR at the bank. -/
def failAccess (b kind : Nat) (a : W) (sys : Bool) (part init op : Nat) (s : State) : State :=
  let s := violation (b / 16) kind a sys part init op (b % 16) s
  report 10 (loc 3 b) 0 (if sys then none else some part) false s

/-- What an operation answers. -/
inductive BankAns where
  | ok (v : W)
  | poison (cause : Nat)
  | deferred
  deriving DecidableEq, Repr

/-- R87, R295: a WRITE has made the word present: its deferred READs are to be answered with the value. -/
def answerWaiters (b w : Nat) (v : W) (s : State) : State :=
  if (s.deferOf b).any fun d => d.word = w then
    { s with bank := { s.bank with answering := mput s.bank.answering (wordKey b w) v } }
  else s

/-- R298: a write that reads nothing meets presence copies that are uncorrectable: counted and reported, and the word becomes EMPTY. -/
def lostPresence (b w err : Nat) (s : State) : State :=
  if err = 3 ∨ mget 0 s.bank.bad (wordKey b w) = 2 then
    let s := (s.inc F.bankStat_UNCORR b).set F.bankStat_UNC_EVT b 1
    (report 9 (loc 3 b) w (s.bankPart b) false s).setPresent b w false
  else s

/-- R85, R87, R294–R298: the effect of a graph operation on a word that passed R301. -/
def bankEffect (b : Nat) (r : BReq) (err : Nat) (s : State) : BankAns × State :=
  let w := addrWord r.addr
  let v := s.bankWord b w
  let err48 := BankAns.poison causeErr
  match r.op with
  | 3 =>
    let (o, s) := readCheck b w err s
    if o ≥ 2 then (.poison causeUncorr, s) else (.ok v, s)
  | 4 =>
    (.ok 0, (lostPresence b w err s).putWord b w r.data)
  | 5 =>
    let (o, s) := readCheck b w err s
    if o ≥ 2 then (.poison causeUncorr, s)
    else if s.isPresent b w then (.ok v, s)
    else if 256 ≤ (s.deferOf b).length then
      let s := s.set F.bankStat_DEFER_OVF b 1
      (err48, report 10 (loc 3 b) 0 (some r.part) false s)
    else
      (.deferred, s.setDefer b (s.deferOf b ++ [⟨r.tag, r.due, w, r.urg⟩]))
  | 6 =>
    let bad := if err = 3 then 2 else mget 0 s.bank.bad (wordKey b w)
    if bad = 2 then
      let s := (s.inc F.bankStat_UNCORR b).set F.bankStat_UNC_EVT b 1
      let s := report 9 (loc 3 b) w (s.bankPart b) false s
      (.ok 0, answerWaiters b w r.data ((s.putWord b w r.data).setPresent b w true))
    else if s.isPresent b w then
      (err48, report 10 (loc 3 b) 0 (some r.part) false s)
    else
      (.ok 0, answerWaiters b w r.data ((s.putWord b w r.data).setPresent b w true))
  | 7 =>
    let s := if 2 ≤ err ∨ mget 0 s.bank.bad (wordKey b w) ≠ 0 then
        let s := (s.inc F.bankStat_UNCORR b).set F.bankStat_UNC_EVT b 1
        (report 9 (loc 3 b) w (s.bankPart b) false s).putWord b w 0
      else s
    (.ok 0, s.setPresent b w false)
  | 8 =>
    let (o, s) := readCheck b w err s
    if o ≥ 2 then (.poison causeUncorr, s) else (.ok v, s.putWord b w (v + r.data))
  | 9 =>
    let (o, s) := readCheck b w err s
    let s := s.putWord b w r.data
    if o ≥ 2 then (.poison causeUncorr, s) else (.ok v, s)
  | _ => (err48, s)

/-! ### System-class accesses (R27, R298, R300) -/

/-- The half of a slot that a 32-bit access names, or the whole slot. -/
def pick (full : Bool) (a : Nat) (v : BitVec 64) : BitVec 64 :=
  if full then v else BitVec.ofNat 64 (v.toNat / (if a % 8 = 4 then 2 ^ 32 else 1) % 2 ^ 32)

/-- The bits of a slot that a write reaches, and the written value in their place. -/
def maskAt (full : Bool) (a : Nat) : Nat := if full then 2 ^ 64 - 1 else if a % 8 = 4 then (2 ^ 32 - 1) * 2 ^ 32 else 2 ^ 32 - 1
def valueAt (full : Bool) (a v : Nat) : Nat := if full then v % 2 ^ 64 else if a % 8 = 4 then v % 2 ^ 32 * 2 ^ 32 else v % 2 ^ 32

/-- RD of a bank word that passed R301. -/
def bankRead (b : Nat) (full : Bool) (a err : Nat) (s : State) : BankAns × State :=
  let w := bits a 3 12
  let (o, s) := readCheck b w err s
  if 2 ≤ o then (.poison causeUncorr, s) else (.ok ((pick full a ((s.bankWord b w).setWidth 64)).setWidth 48), s)

/-- WR of a bank word that passed R301; presence stays (R300). -/
def bankWrite (b : Nat) (full : Bool) (a v err : Nat) (s : State) : State :=
  let w := bits a 3 12
  let m := maskAt full a
  let old := (s.bankWord b w).toNat
  (lostPresence b w err s).putWord b w (w48 ((old - (old &&& m)) ||| (valueAt full a v &&& m)))

/-- The words of a BWR go to consecutive slots, each checked in its bank; false when one is refused. `own` is the bank in whose queue the BWR
stood when that bank's pending handover began: there it completes with its owner's rights (R302). -/
def bankWords (init err c : Nat) (own : Option Nat) : Nat → List W → State → Bool × State
  | _, [], s => (true, s)
  | o, v :: vs, s =>
    let b := c * 16 + o / 0x8000
    let a := w48 (s.pkg * 2 ^ 44 + clAddr c o)
    let (ok, s) :=
      if 0x80000 ≤ o then (false, s)
      else
        match bankCheck s b 13 a true 0 init (own = some b) false with
        | some k => (false, failAccess b k a true 0 init 13 s)
        | none => (true, bankWrite b true a.toNat v.toNat err s)
    let (rest, s) := bankWords init err c own (o + 8) vs s
    (ok && rest, s)

/-- A system-class access that passed R301 at its first word. -/
def bankSystem (b init : Nat) (r : BReq) (err : Nat) (s : State) : BankAns × State :=
  let a := r.addr.toNat
  if r.narrow then (.poison causeErr, s)
  else if r.op = 1 then bankRead b (!r.half) a err s
  else if r.op = 2 then (.ok 0, bankWrite b (!r.half) a r.data.toNat err s)
  else
    let s := bankWrite b true a r.data.toNat err s
    let (ok, s) := bankWords init err (b / 16) (if r.pre then some b else none) (bits a 0 36 + 8) (r.words.drop 1) s
    (if ok then .ok 0 else .poison causeErr, s)

/-- Answer an operation: a direct presentation straight to its PE, a queued request through the network (R275). -/
def bankAnswer (b : Nat) (r : BReq) (a : BankAns) (s : State) : State :=
  let (poison, status, data, extra) : Bool × Nat × W × W :=
    match a with
    | .ok v => (false, 0, v, 0)
    | .poison c => (true, 0, poisonData c r.addr.toNat, r.addr)
    | .deferred => (false, 1, 0, 0)
  match r.pe with
  | some _ => deliverRsp (mkFlit 2 poison (rspPay r.ret status data extra) [] r.part r.urg (b / 16)) s
  | none => respond (b / 16) r.ret poison status data extra (if r.sys then 8 else r.part) r.urg s

/-- An operation issues at its bank: refused under R276, or R301, then its effect, then its answer (DESIGN CHOICE, log 133). One of a size that
the bank does not accept has no alignment to fail and gets the error response (R26, R315) (DESIGN CHOICE, log 46). -/
def bankIssue (b : Nat) (r : BReq) (err : Nat) (s : State) : State :=
  let init := retInit s r.ret
  if r.bad then
    bankAnswer b r (.poison causeErr) (if r.sys then reportU 20 (loc 7 (bits r.ret 7 4)) 0 s else reportP 20 (loc 3 b) 0 r.part s)
  else
    match bankCheck s b r.op r.addr r.sys r.part init r.pre r.half with
    | some k =>
      bankAnswer b r (.poison causeErr) (if r.sys && r.narrow && k = 6 then s else failAccess b k r.addr r.sys r.part init r.op s)
    | none =>
      let (a, s) := if r.sys then bankSystem b init r err s else bankEffect b r err s
      bankAnswer b r a s

/-- The words of a bank that an operation touches. -/
def BReq.touches (r : BReq) (w : Nat) : Bool := decide (addrWord r.addr ≤ w) && decide (w < addrWord r.addr + (if r.op = 13 then r.words.length else 1))

/-- Some word of the operation is locked (R290, R295). -/
def reqLocked (s : State) (b : Nat) (r : BReq) : Bool := s.bank.answering.any fun e => e.1 / 4096 = b && r.touches (e.1 % 4096)

/-- Room in a bank's input queue lets requests that wait at the router's local port move in, oldest first. -/
def refillBank (b : Nat) : Nat → State → State
  | 0, s => s
  | n + 1, s =>
    if 8 ≤ (mget [] s.bank.queue b).length then s
    else
      match takeFirst (fun f : Flit => f.out = none && forBank f && flitBank f = b) s.net.flits with
      | none => s
      | some (f, rest) =>
        refillBank b n { s with
          net := { s.net with flits := rest }
          bank := { s.bank with queue := mpush s.bank.queue b (reqToBank f) } }

/-- Send a deferred answer to the PE of its tag (R275, R295): through the network, or straight to it in the bank's own cluster. It starts at
the band of the READ's urgency as that arrived (R277). -/
def sendAnswer (b : Nat) (d : Defer) (poison : Bool) (v : W) (s : State) : State :=
  let f := mkFlit 2 poison (ansPay d.tag v d.due) [] (tagPart d.tag) (rspUrg s (tagPart d.tag) d.urg) (b / 16)
  if tagPkg d.tag = s.pkg ∧ cIdx (tagDie d.tag) (tagCluster d.tag) = b / 16 then
    { s with net := { s.net with ansQ := s.net.ansQ ++ [f] } }
  else send f s

/-- DEFERRED_READ_ANSWER: the bank answers the first deferred READ of a word that a WRITE made present (R295). -/
def deferredReadAnswer (b : Nat) (s : State) : State :=
  match s.bank.answering.find? fun e => e.1 / 4096 = b with
  | none => s
  | some (k, v) =>
    match takeFirst (fun d : Defer => d.word = k % 4096) (s.deferOf b) with
    | none => { s with bank := { s.bank with answering := mdel s.bank.answering k } }
    | some (d, rest) =>
      let s := s.setDefer b rest
      let s := if rest.any fun d => d.word = k % 4096 then s
        else { s with bank := { s.bank with answering := mdel s.bank.answering k } }
      sendAnswer b d false v s

/-- DEFERRED_READ_ANSWER (R295). -/
def execDeferredReadAnswer (b : Fin 2048) (s : State) : Host.Outcome State Fault Refusal :=
  .next (onFabric (b.val / 16) (deferredReadAnswer b) s)

/-- SCRUB: one word is read and checked; the address advances (R299). -/
def scrub (b : Nat) (err : Nat) (s : State) : State :=
  if s.flag F.bankCtl_SCRUB_EN (b / 16) && s.bankServes b then
    let w := mget 0 s.bank.scrub b
    let (_, s) := readCheck b w err s
    { s with bank := { s.bank with scrub := mset 0 s.bank.scrub b ((w + 1) % 4096) } }
  else s

/-- SCRUB (R299). -/
def execScrub (b : Fin 2048) (err : Fin 3) (s : State) : Host.Outcome State Fault Refusal := .next (onFabric (b.val / 16) (scrub b err) s)

/-- CORRECTED_WRITEBACK: the first corrected word of the bank is written back (R298). -/
def correctedWriteback (b : Nat) (s : State) : State :=
  match s.bank.wb.find? fun e => e.1 / 4096 = b with
  | none => s
  | some (k, _) =>
    let w := k % 4096
    s.putWord b w (s.bankWord b w)

/-- CORRECTED_WRITEBACK (R298). -/
def execCorrectedWriteback (b : Fin 2048) (s : State) : Host.Outcome State Fault Refusal := .next (onFabric (b.val / 16) (correctedWriteback b) s)

/-- Fail every queued operation of a bank under R301, in queue order. -/
def failQueue (b : Nat) (s : State) : State :=
  let q := mget [] s.bank.queue b
  let s := { s with bank := { s.bank with queue := mlist s.bank.queue b [] } }
  refillBank b 8 (q.foldl (fun s r =>
    bankAnswer b r (.poison causeErr) (failAccess b 3 r.addr r.sys r.part (retInit s r.ret) r.op s)) s)

/-- R302, R303: a write of BANK_OWN; `owner` is none when the write does not reach OWNER. A reserved owner leaves the field, so that nothing
begins (R9). False is the error response. -/
def bankOwnWrite (init b : Nat) (owner : Option Nat) (clr : Bool) (s : State) : Bool × State :=
  let partOk := fun o => o ≥ 8 || s.pState o = pFree || s.pState o = pLoading
  let old := s.get F.bankOwn_OWNER b
  if !(init < 8 || init = 8 || init = 11) || s.flag F.bankOwn_PENDING b || s.flag F.bankPwr_OFFLINE b then (false, s)
  else
  match owner with
  | none => (true, s)
  | some owner =>
  if 11 ≤ owner ∧ owner ≤ 14 then (true, s)
  else if !partOk old || !partOk owner then (false, s)
  else
    let s := s.set F.bankOwn_PENDING b 1
    let s := { s with bank := { s.bank with
      handover := mput s.bank.handover b (owner * 2 + b2n clr)
      answering := s.bank.answering.filter fun e => e.1 / 4096 ≠ b
      queue := mlist s.bank.queue b ((mget [] s.bank.queue b).map fun r : BReq => { r with pre := true }) } }
    (true, s.setDefer b [])

/-- BANK_OWN (R302). -/
def execBankOwn (init : Fin 15) (b : Fin 2048) (owner : BitVec 4) (clr : Bool) (s : State) :
    Host.Outcome State Fault Refusal :=
  .next (unlessFatal (fun s => (bankOwnWrite init b (some owner.toNat) clr s).2) s)

/-- HANDOVER_COMPLETE: once the queued operations have completed, the bank initialises if CLR was set and OWNER changes (R302). -/
def handoverComplete (b : Nat) (s : State) : State :=
  match mfind s.bank.handover b with
  | none => s
  | some x =>
    if !(mget [] s.bank.queue b).isEmpty then s
    else
      let s := if x % 2 = 1 then initBank b s else s
      let s := { s with bank := { s.bank with
        handover := mdel s.bank.handover b
        answering := s.bank.answering.filter fun e => e.1 / 4096 ≠ b } }
      ((s.setDefer b []).set F.bankOwn_OWNER b (x / 2)).set F.bankOwn_PENDING b 0

/-- HANDOVER_COMPLETE (R302). -/
def execHandoverComplete (b : Fin 2048) (s : State) : Host.Outcome State Fault Refusal := .next (unlessFatal (handoverComplete b) s)

/-- Begin a power move toward a state (R305): leaving ON, new accesses fail and so do queued operations that have not issued. -/
def startMove (b target : Nat) (s : State) : State :=
  let s := { s with bank := { s.bank with move := mput s.bank.move b target } }
  let s := s.set F.bankPwr_BUSY b 1
  if s.get F.bankPwr_CURRENT b = 0 then failQueue b s else s

/-- R305, R306: a write of BANK_PWR.STATE. False is the error response. -/
def bankPwrWrite (b st : Nat) (s : State) : Bool × State :=
  let o := s.get F.bankOwn_OWNER b
  let c := b / 16
  if s.flag F.bankPwr_OFFLINE b then (false, s)
  else if st = 3 then (true, s)
  else if st ≠ 0 ∧ (s.get F.bankPwr_CURRENT b = 0 ∨ mfind s.bank.move b = some 0)
      ∧ ((o < 8 ∧ s.pState o ≠ pFree ∧ s.pState o ≠ pLoading) ∨ !(s.deferOf b).isEmpty
        ∨ (s.get F.spillCfg_COUNT c ≠ 0 ∧ s.spillBank c = b % 16)) then (false, s)
  else
    let s := s.set F.bankPwr_STATE b st
    if s.flag F.bankPwr_BUSY b || s.get F.bankPwr_CURRENT b = st then (true, s) else (true, startMove b st s)

/-- BANK_PWR (R305). -/
def execBankPwr (b : Fin 2048) (st : BitVec 2) (s : State) : Host.Outcome State Fault Refusal :=
  .next (unlessFatal (fun s => (bankPwrWrite b st.toNat s).2) s)

/-- POWER_MOVE_COMPLETE: CURRENT reports the new state; a bank that leaves OFF is initialised; a move redirected meanwhile starts
again (R305, R289). -/
def powerMoveComplete (b : Nat) (s : State) : State :=
  match mfind s.bank.move b with
  | none => s
  | some target =>
    let s := if s.get F.bankPwr_CURRENT b = 2 ∧ target ≠ 2 then initBank b s else s
    let s := { s with bank := { s.bank with move := mdel s.bank.move b } }
    let s := (s.set F.bankPwr_CURRENT b target).set F.bankPwr_BUSY b 0
    if s.get F.bankPwr_STATE b = target then s else startMove b (s.get F.bankPwr_STATE b) s

/-- POWER_MOVE_COMPLETE (R305). -/
def execPowerMoveComplete (b : Fin 2048) (s : State) : Host.Outcome State Fault Refusal := .next (unlessFatal (powerMoveComplete b) s)

/-- R309: a bank goes offline: OFF, its queued operations fail, its deferred READs are answered with ERR, and the ledger is
re-examined. -/
def takeOffline (b : Nat) (s : State) : State :=
  if s.flag F.bankPwr_OFFLINE b then s
  else
    let ds := s.deferOf b
    let s := s.setDefer b []
    let s := ((s.set F.bankPwr_OFFLINE b 1).set F.bankPwr_STATE b 2).set F.bankPwr_CURRENT b 2
    let s := s.set F.bankPwr_BUSY b 0
    let s := { s with bank := { s.bank with
      move := mdel s.bank.move b
      answering := s.bank.answering.filter fun e => e.1 / 4096 ≠ b } }
    let s := failQueue b s
    let s := ds.foldl (fun s d =>
      sendAnswer b d true (poisonData causeErr (bankAddr (b / 16) (b % 16) d.word)) s) s
    { s with ap := { s.ap with reexamine := true, lost := s.ap.lost ++ ((s.bankPart b).map fun p => (p, 3)).toList } }

/-- TAKE_OFFLINE: only the MC's write takes a bank offline (R309, R310). -/
def execTakeOffline (init : Fin 15) (b : Fin 2048) (s : State) : Host.Outcome State Fault Refusal :=
  .next (unlessFatal (fun s => if init.val = 8 then takeOffline b s else s) s)

end Sys2Proof.Machine
end

