-- ==== Sys2Proof/Machine/Partition.lean ====
section
/-!
DEFINITION. Sys2Proof/Machine/Partition.lean: what befalls a partition as a whole: loss of its guarantee (R188, R190), halt (R139), the removal
of old or abandoned work from its clusters (R141, R195), and the fabric clock that every fabric step needs (R23).
-/
namespace Sys2Proof.Machine
open Sys2Proof

/-- The clusters that a partition owns. -/
def State.clustersOf (s : State) (p : Nat) : List Nat :=
  (List.range 128).filter fun c => s.cOwner c = p

/-- PART_CFG.CLUSTERS follows the clusters owned. -/
def countClusters (p : Nat) (s : State) : State := s.set F.partCfg_CLUSTERS p (s.clustersOf p).length

/-- A cluster goes to UNOWNED and begins to empty (R120); `p` is the partition that waits for it. Its wait-list entries go at once (R130),
and the routes bound at its admission bind nothing any more (R178). -/
def releaseCluster (p c : Nat) (s : State) : State :=
  let s := { s with
    cl := { s.cl with emptying := mput s.cl.emptying c p, waits := s.cl.waits.filter fun x => x.cluster ≠ c }
    ap := { s.ap with loaded := mdel s.ap.loaded c } }
  noteBreak (s.cOwner c) ((s.set F.clStatus_STATE c 0).set F.clStatus_OWNER c 15)

/-- A cluster that its partition gives up: released, or, when it is QUARANTINED or OFFLINE, without an owner and with its contents kept (R120, R199). -/
def giveUpCluster (p c : Nat) (s : State) : State :=
  if s.cState c = 4 ∨ s.cState c = 5 then { s with ap := { s.ap with loaded := mdel s.ap.loaded c } }.set F.clStatus_OWNER c 15
  else releaseCluster p c s

/-- R188, R190: a guarantee is lost: LOST and REASON are set and GUARANTEE_LOST is raised. -/
def markLost (p reason : Nat) (s : State) : State :=
  raiseEvent (216 + p) ((s.set F.partStat_LOST p 1).set F.partStat_REASON p reason)

/-- R188: a machine check in a cluster of a GUARANTEED partition suspends its guarantee; in a SUSPENDED one the interval restarts. -/
def suspend (p : Nat) (s : State) : State :=
  let s := { s with ap := { s.ap with suspendedAt := mput s.ap.suspendedAt p s.ticks } }
  if s.pState p = pGuaranteed then markLost p 6 (s.set F.partStat_STATE p pSuspended) else s

/-- The device address that an output's packet names (R274). -/
def OutVal.addr (o : OutVal) (s : State) : W := w48 (s.pkg * 2 ^ 44 + 8 * 2 ^ 40 + o.kind * 2 ^ 36 + o.index)

/-- R93: a held EMIT-AT that is discarded without effect is answered with ERR when its ACK is 1. -/
def discardHeld (o : OutVal) (s : State) : State :=
  if o.ack then respond nodeHub o.ret true 0 (poisonData causeErr (o.addr s).toNat) (o.addr s) o.part o.urg s else s

/-- Discard the held EMIT-AT values that satisfy a condition (R139, R168, R195). -/
def discardHeldIf (p : OutVal → Bool) (s : State) : State :=
  let gone := s.out.held.filter p
  let s := { s with out := { s.out with held := s.out.held.filter fun o => !p o } }
  gone.foldl (fun s o => discardHeld o s) s

/-- A reclaim step that has not swept yet ends with nothing removed: its block is held as before, and a step that waited for a filter entry
never starts (DESIGN CHOICE, log 162). -/
def dropReclaim (p : Nat) (s : State) : State :=
  let cut := (s.cl.reclaim.filter fun r => r.part = p).map (·.block)
  { s with cl := { s.cl with
    blocks := s.cl.blocks ++ cut
    reclaim := s.cl.reclaim.filter fun r => r.part ≠ p
    reclaimWait := s.cl.reclaimWait.filter (· ≠ p) } }.set F.dlStat_RECLAIMING p 0

/-- R139: nothing of the partition fires any more, nothing of what its clusters hold is removed, and its held EMIT-AT values are discarded. -/
def stopPartition (p : Nat) (s : State) : State :=
  let s := ((dropReclaim p s).set F.partStat_STATE p pHalted).set F.dlStat_HALTED p 1
  discardHeldIf (fun o => o.part = p) s

/-- R139: halt a partition: HALTED with REASON 8, and GUARANTEE_LOST where it held or had suspended its guarantee. -/
def haltPartition (p : Nat) (s : State) : State :=
  stopPartition p (if s.pState p = pGuaranteed ∨ s.pState p = pSuspended then markLost p 8 s else s.set F.partStat_REASON p 8)

/-- The number of token inputs of an instance. -/
def Slot.inputs (x : Slot) : Nat := b2n x.l.isSome + b2n x.r.isSome + b2n x.g.isSome

/-- The spill records that an instance names. -/
def Slot.recs (x : Slot) : List Nat :=
  [x.l, x.r, x.g].filterMap fun o => match o with | some o => o.record | none => none

/-- Remove from the clusters of a partition every waiting token, enabled instance, wait-list entry and deferred READ whose tag
satisfies a condition (R141, R195). Tokens count as consumed; the number of removed items is returned (DEDUCED, log 140). What is removed is not checked for errors (DESIGN
CHOICE, log 198). A QUARANTINED
cluster keeps what it holds (R120). -/
def removeWork (p : Nat) (cond : W → Bool) (s : State) : Nat × State :=
  let cs := (s.clustersOf p).filter fun c => s.cState c ≠ 4
  let mine := fun c => cs.contains c
  let ways := s.cl.ways.filter fun e => mine (e.1 / 8192) && cond e.2.tag
  let recs := s.cl.chains.flatMap fun e =>
    if mine (e.1 / 2048) then (e.2.filter fun r => cond (s.record (e.1 / 2048) r).tag).map fun r => (e.1, r) else []
  let slots := s.cl.slots.filter fun x => mine x.cluster && cond x.tag
  let waits := s.cl.waits.filter fun x => mine x.cluster && cond x.tag
  let banks := (List.range 2048).filter fun b => s.get F.bankOwn_OWNER b = p
  let defers := banks.flatMap fun b => ((s.deferOf b).filter fun d => cond d.tag).map fun d => (b, d)
  let s := ways.foldl (fun s e => countCons p (tagEpoch e.2.tag) 1 (s.setWay (e.1 / 8192) (e.1 % 8192) none)) s
  let s := recs.foldl (fun s e =>
    let c := e.1 / 2048
    let s := countCons p (tagEpoch (s.record c e.2).tag) 1 s
    (s.setChain c (e.1 % 2048) ((s.chainOf c (e.1 % 2048)).filter (· ≠ e.2))).freeRec c e.2) s
  let s := slots.foldl (fun s x =>
    let s := countCons p (tagEpoch x.tag) x.inputs s
    (x.recs.foldl (fun s r => s.freeRec x.cluster r) s).freeSlot x) s
  let s := { s with cl := { s.cl with waits := s.cl.waits.filter fun x => !(mine x.cluster && cond x.tag) } }
  let s := defers.foldl (fun s e => s.setDefer e.1 ((s.deferOf e.1).filter fun d => d ≠ e.2)) s
  let n := ways.length + recs.length + (slots.map Slot.inputs).foldl (· + ·) 0 + waits.length + defers.length
  (n, noteBreak p s)

/-! ### Sources (R180, R187) -/

/-- The SOURCE record in force for a source of a partition. -/
def sourceOf (s : State) (id p : Nat) : Option SourceCfg := s.ap.srcs.find? fun x => x.id = id && x.part = p

/-- R180: the due that a source stamps. -/
def sourceDue (s : State) (id p : Nat) : W :=
  match sourceOf s id p with
  | some x => s.t + BitVec.ofNat 48 x.ds
  | none => s.t + 1048576

/-- R187: a source injects a token: one earlier than PERIOD and BURST allow is a SRC_OVERRUN fault, and the token still goes. Early tokens move
the limiter's reference on as others do (DESIGN CHOICE, log 176). -/
def sourceRate (id p : Nat) (s : State) : State :=
  match sourceOf s id p with
  | none => s
  | some x =>
    let tat := x.tat.getD s.t
    let early := sdiff s.t tat < -(((x.burst - 1) * x.period : Nat) : Int)
    let base := if sdiff s.t tat < 0 then tat else s.t
    let x' := { x with tat := some (base + BitVec.ofNat 48 x.period) }
    let s := { s with ap := { s.ap with srcs := replaceFirst (fun y => y = x) (fun _ => x') s.ap.srcs } }
    if early then report 15 (loc 1 p) id (some p) false s else s

end Sys2Proof.Machine
end

