-- ==== Sys2Proof/Machine/Graph.lean ====
section
/-!
DEFINITION. Sys2Proof/Machine/Graph.lean: firing of graph instructions (chapter 03): what every firing does before its routine (decode checks,
operand read, lateness, poison, machine check), and the meaning of each operation row.
-/
namespace Sys2Proof.Machine
open Sys2Proof

/-- A firing whose operands have been read. -/
structure Firing where
  c : Nat
  pe : Nat
  iaddr : Nat
  w : Nat
  base : W
  l : W × Bool
  r : W × Bool
  g : W × Bool
  due : W
  /-- T as the first execute stage read it (R71) -/
  t0 : W
  deriving DecidableEq, Repr

def Firing.part (f : Firing) : Nat := tagPart f.base
def Firing.ctx (f : Firing) : Nat := tagCtx f.base
def Firing.ep (f : Firing) : Nat := tagEpoch f.base

/-- R39: PE index and instruction address, or micro-PC, as the detail of ILLEGAL and MACHINE_CHECK. -/
def Firing.detail (f : Firing) (hi : Nat) : Nat := (f.c * 16 + f.pe) + hi * 2 ^ 11

/-- The PE's sequencer may run: its cluster is owned and fires (R17), and its emit stage is empty (R96). -/
def seqReady (s : State) (c pe : Nat) : Bool :=
  s.fabricOn c && (s.cState c = 2 || s.cState c = 3) && s.cOwner c < 8
  && !(s.cl.emit.any fun e => e.1 = c * 16 + pe)
  && !(s.cl.injQ.any fun f => f.node = c && f.pe = some pe)

/-- R160, R164: no reload stops the PE. In the tick of another PE's machine check, a pass that reads a failing word itself is one that was in
progress: it takes its own machine check. -/
def notReloading (s : State) (c pe : Nat) (err : PassErr) : Bool :=
  match mfind s.cl.reload c with
  | none => !s.flag F.peStat_STOPPED (c * 16 + pe)
  | some t => err.parity.isSome && t = s.ticks && !s.cl.mchkPe.contains (c * 16 + pe)

/-- The firing that holds the sequencer of a PE because its request finds no free park entry (R154). -/
def State.heldSeq (s : State) (c pe : Nat) : Option Park := s.cl.seqHeld.find? fun p => p.cluster = c && p.pe = pe

/-- A PE can take a new firing from its band select (R17, R139, R141, R154, R160). -/
def canFire (s : State) (c pe : Nat) (err : PassErr) : Bool :=
  seqReady s c pe && s.pRuns (s.cOwner c) && notReloading s c pe err && !(s.cl.reclaim.any fun r => r.part = s.cOwner c)
  && (s.heldSeq c pe).isNone

/-- The sticky bits of a partition: ARITH_STAT [6:0] (R58). -/
def setSticky (p : Nat) (st : Stk) (s : State) : State :=
  let set := fun (k : Nat) (f : Fld) (s : State) => if st.toNat / 2 ^ k % 2 = 1 then s.set f p 1 else s
  set 0 F.arithStat_V (set 1 F.arithStat_DZ (set 2 F.arithStat_FNV (set 3 F.arithStat_FDZ
    (set 4 F.arithStat_FOF (set 5 F.arithStat_FUF (set 6 F.arithStat_FNX s))))))

/-- RM and TRAP in force for a partition and an epoch (R59, R192). -/
def State.rmOf (s : State) (p ep : Nat) : Nat := mget 0 s.cl.arith (p * 2 + ep) % 4
def State.trapOf (s : State) (p ep : Nat) : Nat := mget 0 s.cl.arith (p * 2 + ep) / 4

/-- R114: a late firing is counted, and the first is logged. -/
def lateFiring (c : Nat) (tag due : W) (s : State) : State :=
  let s := s.inc F.lateCnt_COUNT c
  if s.flag F.lateCnt_LOGV c then s
  else
    let s := (s.set F.lateTag_TAG c tag.toNat).set F.lateT_T c s.t.toNat
    (s.set F.lateDue_DUE c due.toNat).set F.lateCnt_LOGV c 1

/-- R118: read a spilled operand: its record is released; an uncorrectable data word gives a poisoned operand. -/
def readRecord (c pe r : Nat) (err : Nat) (tag : W) (s : State) : (W × Bool) × State :=
  let b := c * 16 + s.spillBank c
  let t := s.record c r
  let (o, s) := readCheck b (4 * r + 2) err s
  let s := microTrap c pe 1 tag (Saved.before (s.get F.dispatch_ENTRY (c * 1024 + iOpc (s.instr c (tagInstr tag))))) (s.freeRec c r)
  if o ≥ 2 then ((poisonData causeUncorr (recAddr s c r 2), true), s) else ((t.data, t.poison), s)

/-- The value of one port of an instance: from its token, from its spill record, or from K (R61, R62). -/
def readPort (c pe : Nat) (tag : W) (w bit : Nat) (o : Option SlotOp) (err : Nat) (s : State) : (W × Bool) × State :=
  match o with
  | some op =>
    match op.record with
    | some r => readRecord c pe r err tag s
    | none => ((op.data, op.poison), s)
  | none => ((if kselMask w = bit then w48 (iK w) else 0, false), s)

/-- R116: the first poisoned input in the order L, R, G. -/
def Firing.poison (f : Firing) : Option W :=
  if f.l.2 then some f.l.1 else if f.r.2 then some f.r.1 else if f.g.2 then some f.g.1 else none

/-- The destination fields of the firing's instruction. -/
def Firing.dsts (s : State) (f : Firing) : List Nat := dstFields s f.c f.iaddr f.w

/-- Emit a value to every valid destination, under the firing's own context and due. -/
def Firing.emit (f : Firing) (v : W) (poison : Bool) (ds : List Nat) (s : State) : State :=
  emitAll f.c f.pe f.base f.ctx f.due v poison ds s

/-- The destination fields of an ILLEGAL firing: one in K form, three in the other forms, and six of a P-form PRISM whose extension word
keeps its rules. A word with the reserved FORM = 3 is taken to have the fields of D form (DESIGN CHOICE, log 163). -/
def illegalDsts (s : State) (f : Firing) : List Nat :=
  if iForm f.w = 0 then [iDst0 f.w]
  else if iForm f.w = 2 && opClass (iOpc f.w) = .prism && prismOk s f.c f.iaddr f.w then f.dsts s
  else [iDst0 f.w, iDst1 f.w, iDst2 f.w]

/-- R10, R68: an ILLEGAL firing: poison to each destination field that is valid and passes R64, and a fault against the partition. -/
def illegal (f : Firing) (s : State) : State :=
  let own := illegalDsts s f
  let ds := own.filter fun d => dstV d && dstOk s f.c f.ep d
  let s := f.emit (poisonData causeIllegal (f.detail f.iaddr)) true ds s
  reportP 4 (loc 2 f.c) 0 f.part s

/-- R160: a machine check on a PE at a micro-address, or for an opcode's dispatch entry: the firing ends with MACHINE_CHECK tokens to the
fields not yet served, the PEs of the cluster stop, and the control store is to be reloaded. A dispatch entry has no parity groups (R159), and
in a bad microword none failed: GROUPS is then 0 (DEDUCED, log 201). -/
def machineCheck (f : Firing) (upc : Nat) (disp nested inj : Bool) (groups : Option Nat) (ds : List Nat) (s : State) : State :=
  let i := f.c * 16 + f.pe
  let s := f.emit (poisonData causeMchk (f.detail upc)) true ds s
  let s := (List.range 16).foldl (fun s k => s.set F.peStat_STOPPED (f.c * 16 + k) 1) s
  let s := (s.set F.peStat_MCHK i 1).inc F.peStat_MCHKS i
  let s :=
    if s.flag F.mchkLog_VALID i then s
    else
      let s := (s.set F.mchkLog_ADDR i upc).set F.mchkLog_DISP i (b2n disp)
      let s := (s.set F.mchkLog_NESTED i (b2n nested)).setOr F.mchkLog_GROUPS i (if disp || nested then some 0 else groups)
      s.set F.mchkLog_VALID i 1
  let s := s.set F.csStat_RELOADING f.c 1
  let s := { s with cl := { s.cl with reload := mput s.cl.reload f.c s.ticks, mchkPe := s.cl.mchkPe ++ [i] } }
  suspend f.part (report 1 (loc 2 f.c) upc (some f.part) inj s)

/-- R117: a double-bit error in a queue slot: the instance is discarded with its inputs and records. -/
def discardSlot (x : Slot) (inj : Bool) (s : State) : State :=
  let p := s.cOwner x.cluster
  let s := x.recs.foldl (fun s r => s.freeRec x.cluster r) (s.freeSlot x)
  let s := countCons p (tagEpoch x.tag) x.inputs s
  noteBreak p (report 7 (loc 2 x.cluster) 0 (some p) inj s)

/-- The failing word of a pass where it lies in the handler of a trap cause: 8 words per cause from 0x008 on (R145). -/
def handlerWord (e : PassErr) (cause : Nat) : Option Nat :=
  match e.parity with
  | some u => if u.toNat / 8 = cause then some u.toNat else none
  | none => none

/-- The failing word of a pass where it lies in a standard routine: below the user region and in no handler (R145). -/
def routineWord (e : PassErr) : Option Nat :=
  match e.parity with
  | some u => if u.toNat < 0x600 ∧ !(8 ≤ u.toNat ∧ u.toNat < 0x38) then some u.toNat else none
  | none => none

/-- R158–R160: a micro-trap has been taken, and its handler runs: a failing word of it is a machine check. -/
def runHandler (e : PassErr) (cause : Nat) (f : Firing) (ds : List Nat) (s : State) : State :=
  match handlerWord e cause with
  | some u => machineCheck f u false e.nested false none ds s
  | none => s

/-- R58: a firing sets its sticky bits, and takes the arithmetic micro-trap when one of them is trapped. The word whose result raises it has
emitted that result (DESIGN CHOICE, log 204). -/
def arithmetic (e : PassErr) (f : Firing) (st : Stk) (s : State) : State :=
  let s := setSticky f.part st s
  if st.toNat &&& s.trapOf f.part f.ep ≠ 0 then
    runHandler e 5 f [] (raiseEvent (208 + f.part) (microTrap f.c f.pe 5 f.base Saved.std s))
  else s

/-- R159: the reads of a standard routine's words in a pass: the micro-address of one that fails, by the error given or by an injection
(R393). The words are the standard section's (R145), so an injection's micro-address is free. -/
def stdPass (c : Nat) (e : PassErr) (s : State) : Option (Nat × Bool) × State :=
  match takeInjection [1] (loc 2 c) s with
  | (some (_ + 1), s) => let (u, s) := s.freeVal 11; (some (u.toNat, true), s)
  | (_, s) => ((routineWord e).map fun u => (u, false), s)

/-- A pass of a standard routine goes on where none of its words fails; a machine check leaves MACHINE_CHECK tokens to the fields given. -/
def stdGoOn (e : PassErr) (f : Firing) (ds : List Nat) (k : State → State) (s : State) : State :=
  match stdPass f.c e s with
  | (some (u, inj), s) => machineCheck f u false false inj none ds s
  | (none, s) => k s

/-- A trap before the first word of a firing's routine (R157). -/
def handlerTrap (f : Firing) (cause : Nat) (s : State) : State :=
  microTrap f.c f.pe cause f.base (Saved.before (s.get F.dispatch_ENTRY (f.c * 1024 + iOpc f.w))) s

/-- The firing of an instance whose operands have these values; TIGHTEN's operand joins the due minimum (R46, R88). -/
def firingOf (x : Slot) (w : Nat) (l r g : W × Bool) (s : State) : Firing × Int :=
  let td := tightenDue w (x.r.map fun _ => r)
  let sl := firingSlack s.t ([x.l, x.r, x.g].filterMap (fun o => o.map (·.due)) ++ td) (iDoff w)
  (⟨x.cluster, x.pe, tagInstr x.tag, w, x.tag, l, r, g, dueOf s.t sl, s.t⟩, sl)

/-- What every firing does up to the start of its routine, in the order of R116 and R157: a check that reads no dispatch entry comes before
the parity of the entry. `none` when the firing has already ended. Records of an ILLEGAL firing, of one whose dispatch entry fails, and of one
whose spill handler fails, are released unread; a dispatch error stands for opcode and micro-address alike (DESIGN CHOICE, log 164). -/
def beginFire (x : Slot) (w : Nat) (err : FireErr) (s : State) : Option Firing × State :=
  let c := x.cluster
  let pe := x.pe
  let (o, sinj, s) := secded [6, 7] (loc 2 c) err.slot s
  if o = 2 then (none, discardSlot x sinj s)
  else
    let s := if o = 1 then report 6 (loc 2 c) 0 none sinj s else s
    let s := s.freeSlot x
    let p := tagPart x.tag
    let s := countProg p (countCons p (tagEpoch x.tag) x.inputs s)
    let held (o : Option SlotOp) (bit : Nat) : W × Bool :=
      match o with | some o => (o.data, o.poison) | none => (if kselMask w = bit then w48 (iK w) else 0, false)
    let (f, sl) := firingOf x w (held x.l 1) (held x.r 2) (held x.g 4) s
    let ended (g : State → State) : Option Firing × State :=
      (none, g (x.recs.foldl (fun s r => s.freeRec c r) (if sl < 0 then lateFiring c x.tag f.due s else s)))
    if !wordOk s c f.iaddr f.ep w then ended (illegal f)
    else if err.pass.dispatch then ended fun s => machineCheck f (iOpc w) true false false none (illegalDsts s f) s
    else if !decodeOk s c f.iaddr f.ep w then ended (illegal f)
    else
      -- an injection meets the first word that is read: a handler's, or the routine's (R393)
      let first := if !x.recs.isEmpty then 8 else if f.poison.isSome then 32 else s.get F.dispatch_ENTRY (c * 1024 + iOpc w)
      let (i, s) := takeInjection [1] (loc 2 c) s
      let inj := match i with | some (_ + 1) => true | _ => false
      let fails (cause : Nat) : Option Nat := if inj && first = cause * 8 then some first else handlerWord err.pass cause
      let check (f : Firing) (u : Nat) (s : State) : State :=
        machineCheck f u false (err.pass.nested && !inj) inj none (f.dsts s) s
      match (if x.recs.isEmpty then none else fails 1) with
      | some u => ended fun s => check f u (handlerTrap f 1 s)
      | none =>
        let (l, s) := readPort c pe x.tag w 1 x.l err.recL s
        let (r, s) := readPort c pe x.tag w 2 x.r err.recR s
        let (g, s) := readPort c pe x.tag w 4 x.g err.recG s
        let (f, sl) := firingOf x w l r g s
        let s := if sl < 0 then lateFiring c x.tag f.due s else s
        if f.poison.isSome then
          match fails 4 with
          | some u => (none, check f u (handlerTrap f 4 s))
          | none => (some f, s)
        else if inj then (none, check f first s)
        -- a user routine meets its own failing word when it reads it (Micro.lean)
        else if opClass (iOpc w) = .user then (some f, s)
        else
          match routineWord err.pass with
          | some u => (none, machineCheck f u false false false none (f.dsts s) s)
          | none => (some f, s)

/-- The poisoned-input micro-trap: no word of the routine has executed (R157, R158). -/
def poisonTrap (f : Firing) (s : State) : State :=
  handlerTrap f 4 s

/-- The poisoned-input handler: the trap is counted, then the listed fields receive the cause (R116, R158). -/
def poisonOut (f : Firing) (cause : W) (ds : List Nat) (s : State) : State :=
  f.emit cause true ds (poisonTrap f s)

/-- One firing, with the micro-traps of R94, of an operation class on a PE, if the head of its lowest band is an instruction of that class. -/
def fireWith (cls : OpClass) (c pe : Nat) (err : FireErr) (body : Firing → State → State) (s : State) : State :=
  if !canFire s c pe err.pass then s
  else
    match s.headSlot c pe with
    | none => s
    | some x =>
      let w := s.instr c (tagInstr x.tag)
      if opClass (iOpc w) ≠ cls then s
      else
        match beginFire x w err s with
        | (none, s) => s
        | (some f, s) => body f s

/-- R72–R78: a computing operation: its result to every destination, with its sticky bits; a poisoned input passes on. -/
def computeBody (e : PassErr) (f : Firing) (s : State) : State :=
  match f.poison with
  | some cause => poisonOut f cause (f.dsts s) s
  | none =>
    match compute (iOpc f.w) (s.rmOf f.part f.ep) f.l.1 f.r.1 f.g.1 with
    | some (v, st) => arithmetic e f st (f.emit v false (f.dsts s) s)
    | none => s

/-- INTEGER_OP (R72, R73). -/
def execIntegerOp (c : Fin 128) (pe : Fin 16) (err : FireErr) (s : State) : Host.Outcome State Fault Refusal :=
  .next (fireWith .integer c pe err (computeBody err.pass) s)

/-- COMPARISON (R74, R75). -/
def execComparison (c : Fin 128) (pe : Fin 16) (err : FireErr) (s : State) : Host.Outcome State Fault Refusal :=
  .next (fireWith .comparison c pe err (computeBody err.pass) s)

/-- Q47_MULTIPLY (R52, R76). -/
def execQ47Multiply (c : Fin 128) (pe : Fin 16) (err : FireErr) (s : State) : Host.Outcome State Fault Refusal :=
  .next (fireWith .q47 c pe err (computeBody err.pass) s)

/-- FLOAT_OP (R56, R57, R76). -/
def execFloatOp (c : Fin 128) (pe : Fin 16) (err : FireErr) (s : State) : Host.Outcome State Fault Refusal :=
  .next (fireWith .float c pe err (computeBody err.pass) s)

/-- CONVERSION (R76, R77). -/
def execConversion (c : Fin 128) (pe : Fin 16) (err : FireErr) (s : State) : Host.Outcome State Fault Refusal :=
  .next (fireWith .conversion c pe err (computeBody err.pass) s)

/-- COMPLEX_OP (R54, R78). -/
def execComplexOp (c : Fin 128) (pe : Fin 16) (err : FireErr) (s : State) : Host.Outcome State Fault Refusal :=
  .next (fireWith .complex c pe err (computeBody err.pass) s)

/-- Pass an input on: sound, or as the poisoned-input handler does. -/
def passOn (f : Firing) (v : W × Bool) (ds : List Nat) (s : State) : State :=
  if v.2 then poisonOut f v.1 ds s else f.emit v.1 false ds s

/-- SWITCH: L to DST0 when G is true, else to DST1; a poisoned G poisons every valid field (R79, R116). -/
def switchBody (f : Firing) (s : State) : State :=
  if f.g.2 then poisonOut f (f.poison.getD f.g.1) (f.dsts s) s
  else passOn f f.l [if f.g.1 ≠ 0 then iDst0 f.w else iDst1 f.w] s

/-- SWITCH (R79). -/
def execSwitch (c : Fin 128) (pe : Fin 16) (err : FireErr) (s : State) : Host.Outcome State Fault Refusal :=
  .next (fireWith .switch c pe err switchBody s)

/-- MERGE: the arriving token passes on alone (R80). -/
def mergeBody (arrived : Bool) (f : Firing) (s : State) : State :=
  passOn f (if arrived then f.l else f.r) (f.dsts s) s

/-- MERGE (R79, R80): the port of the single token decides which operand passes. -/
def execMerge (c : Fin 128) (pe : Fin 16) (err : FireErr) (s : State) : Host.Outcome State Fault Refusal :=
  let left := match s.headSlot c pe with | some x => x.l.isSome | none => true
  .next (fireWith .merge c pe err (mergeBody left) s)

/-- GATE: L to every destination when G is true; nothing when it is false (R79, R80). -/
def gateBody (f : Firing) (s : State) : State :=
  if f.g.2 then poisonOut f (f.poison.getD f.g.1) (f.dsts s) s
  else if f.g.1 ≠ 0 then passOn f f.l (f.dsts s) s
  else if f.l.2 then poisonTrap f s
  else s

/-- GATE (R79). -/
def execGate (c : Fin 128) (pe : Fin 16) (err : FireErr) (s : State) : Host.Outcome State Fault Refusal :=
  .next (fireWith .gate c pe err gateBody s)

/-- SEL: L when G is true, else R. A poisoned input that is not chosen leaves the output sound, but its micro-trap is taken; a poisoned
choice carries the cause of the first poisoned input (R79, R116). -/
def selBody (f : Firing) (s : State) : State :=
  let v := if f.g.1 ≠ 0 then f.l else f.r
  match f.poison with
  | none => f.emit v.1 false (f.dsts s) s
  | some cause =>
    if f.g.2 || v.2 then poisonOut f cause (f.dsts s) s
    else f.emit v.1 false (f.dsts s) (poisonTrap f s)

/-- SEL (R79). -/
def execSel (c : Fin 128) (pe : Fin 16) (err : FireErr) (s : State) : Host.Outcome State Fault Refusal :=
  .next (fireWith .sel c pe err selBody s)

/-- CONST: K, whatever L's data; a poisoned L passes its poison on (R79, R116). -/
def constBody (f : Firing) (s : State) : State :=
  passOn f (if f.l.2 then f.l else (w48 (iK f.w), false)) (f.dsts s) s

/-- CONST (R79). -/
def execConst (c : Fin 128) (pe : Fin 16) (err : FireErr) (s : State) : Host.Outcome State Fault Refusal :=
  .next (fireWith .const c pe err constBody s)

/-- SINK: nothing is emitted (R79, R80). -/
def sinkBody (f : Firing) (s : State) : State :=
  if f.l.2 then poisonTrap f s else s

/-- SINK (R79). -/
def execSink (c : Fin 128) (pe : Fin 16) (err : FireErr) (s : State) : Host.Outcome State Fault Refusal :=
  .next (fireWith .sink c pe err sinkBody s)

/-- PRISM: L to every valid destination, up to six (R81). -/
def prismBody (f : Firing) (s : State) : State := passOn f f.l (f.dsts s) s

/-- PRISM (R81). -/
def execPrism (c : Fin 128) (pe : Fin 16) (err : FireErr) (s : State) : Host.Outcome State Fault Refusal :=
  .next (fireWith .prism c pe err prismBody s)

/-- R84: the link word of a destination-shaped K and a context: a tag with partition and epoch 0. -/
def linkWord (s : State) (f : Firing) : W :=
  let k := iK f.w
  match routeEntry s f.c (dstRoute k) f.ep with
  | some r => mkTag r.pkg r.die r.cluster (dstAddr k) (dstPort k) 0 f.ctx 0
  | none => 0

/-- LINK (R84). -/
def linkBody (f : Firing) (s : State) : State :=
  passOn f (if f.l.2 then f.l else (linkWord s f, false)) (f.dsts s) s

/-- LINK (R84). -/
def execLink (c : Fin 128) (pe : Fin 16) (err : FireErr) (s : State) : Host.Outcome State Fault Refusal :=
  .next (fireWith .link c pe err linkBody s)

/-- NOW (R88). -/
def nowBody (f : Firing) (s : State) : State := passOn f (if f.l.2 then f.l else (s.t, false)) (f.dsts s) s

/-- NOW (R88): T read at first execute. -/
def execNow (c : Fin 128) (pe : Fin 16) (err : FireErr) (s : State) : Host.Outcome State Fault Refusal :=
  .next (fireWith .now c pe err nowBody s)

/-- DUE (R88). -/
def dueBody (f : Firing) (s : State) : State := passOn f (if f.l.2 then f.l else (f.due, false)) (f.dsts s) s

/-- DUE (R88): the firing's own output due. -/
def execDue (c : Fin 128) (pe : Fin 16) (err : FireErr) (s : State) : Host.Outcome State Fault Refusal :=
  .next (fireWith .due c pe err dueBody s)

/-- TIGHTEN: L's data; R has joined the due minimum (R88). -/
def tightenBody (f : Firing) (s : State) : State :=
  passOn f (match f.poison with | some v => (v, true) | none => f.l) (f.dsts s) s

/-- TIGHTEN (R88). -/
def execTighten (c : Fin 128) (pe : Fin 16) (err : FireErr) (s : State) : Host.Outcome State Fault Refusal :=
  .next (fireWith .tighten c pe err tightenBody s)

/-! ### Contexts (R82–R84, R122–R132) -/

/-- The block size exponent g of a context operation: K[2:0]. -/
def gOf (w : Nat) : Nat := iK w % 8

/-- R83: the next context of a block of n. -/
def nextCtx (ctx g : Nat) : Nat := ctx / 2 ^ g * 2 ^ g + (ctx + 1) % 2 ^ g

/-- NEXT: L's data under the next context, poisoned or not (R83, R116). -/
def nextBody (f : Firing) (s : State) : State :=
  let s := if f.l.2 then poisonTrap f s else s
  emitAll f.c f.pe f.base (nextCtx f.ctx (gOf f.w)) f.due f.l.1 f.l.2 (f.dsts s) s

/-- NEXT (R83). -/
def execNext (c : Fin 128) (pe : Fin 16) (err : FireErr) (s : State) : Host.Outcome State Fault Refusal :=
  .next (fireWith .next c pe err nextBody s)

/-- The instance number of a pool register: region × 32 + partition × 4 + pool (R126). -/
def poolIdx (r p q : Nat) : Nat := r * 32 + p * 4 + q

/-- R126: the pool of an allocator whose G equals g and whose SPAN is not 0. -/
def poolOf (s : State) (r p g : Nat) : Option Nat :=
  [0, 1, 2, 3].find? fun q => s.get F.poolCfg_SPAN (poolIdx r p q) ≠ 0 && s.get F.poolCfg_G (poolIdx r p q) = g

/-- The base contexts of a pool's blocks, lowest first, less the block that contains context 0 (R123, R125). -/
def poolBlocks (s : State) (r p q : Nat) : List Nat :=
  let i := poolIdx r p q
  let g := s.get F.poolCfg_G i
  ((List.range (s.get F.poolCfg_SPAN i * 64 / 2 ^ g)).map fun b => s.get F.poolCfg_BASE i * 64 + b * 2 ^ g).filter (· ≠ 0)

/-- The block is granted, or held out of its pool by a reclaim filter. -/
def blockHeld (s : State) (p base : Nat) : Bool :=
  (s.cl.blocks.any fun b => b.part = p && b.base = base)
  || (s.cl.filters.any fun f => f.part = p && f.block.base = base)
  || (s.cl.reclaim.any fun r => r.part = p && r.block.base = base)

/-- The free blocks of a pool (POOL_STAT.FREE counts them). -/
def freeBlocks (s : State) (r p q : Nat) : List Nat := (poolBlocks s r p q).filter fun b => !blockHeld s p b

/-- The region index of a cluster (R13). -/
def regionOf (c : Nat) : Nat := c / 4

/-- The requests that wait for a pool, in order of arrival. A QUARANTINED cluster's entries stay but are never granted (R130). -/
def poolWaits (s : State) (r p q : Nat) : List Park :=
  s.cl.waits.filter fun x => regionOf x.cluster = r && tagPart x.tag = p
    && poolOf s r p (gOf x.word) = some q

/-- ALLOC: the request joins the cluster's wait list; with no pool to draw on, DST0 receives ERR and the partition a fault
(R83, R126, R127). -/
def allocBody (f : Firing) (s : State) : State :=
  match f.poison with
  | some v => poisonOut f v [iDst0 f.w] s
  | none =>
    let r := regionOf f.c
    match poolOf s r f.part (gOf f.w) with
    | none =>
      let a := 0x800000000 + 0x1000 + 0x100 * f.part
      reportP 11 (loc 2 f.c) 0 f.part (f.emit (poisonData causeErr a) true [iDst0 f.w] s)
    | some _ =>
      let x : Park := ⟨f.c, f.pe, 0, f.w, f.base, f.due, f.l.1, 0, 0, 0, none, false⟩
      { s with cl := { s.cl with waits := s.cl.waits ++ [x] } }

/-- ALLOC (R83): with the cluster's wait list full, band select does not take it (R130). -/
def execAlloc (c : Fin 128) (pe : Fin 16) (err : FireErr) (s : State) : Host.Outcome State Fault Refusal :=
  .next (if 64 ≤ (s.cl.waits.filter fun x => x.cluster = c.val).length then s else fireWith .alloc c pe err allocBody s)

/-- The region and pool whose granules hold a context (the granule map of R131). -/
def granuleOwner (s : State) (p ctx : Nat) : Option (Nat × Nat) :=
  let j := ctx / 64
  ((List.range 32).flatMap fun r => [0, 1, 2, 3].map fun q => (r, q)).find? fun x =>
    let i := poolIdx x.1 p x.2
    s.get F.poolCfg_BASE i ≤ j && j < s.get F.poolCfg_BASE i + s.get F.poolCfg_SPAN i

/-- FREE: a release to the allocator that owns the granule; a block with context 0, or a granule of no pool, is refused at once (R83,
R131). -/
def freeBody (f : Firing) (s : State) : State :=
  match f.poison with
  | some _ => poisonTrap f s
  | none =>
    let g := gOf f.w
    if f.ctx / 2 ^ g = 0 then reportP 11 (loc 2 f.c) 0 f.part s
    else
      match granuleOwner s f.part f.ctx with
      | none => reportP 11 (loc 2 f.c) 0 f.part s
      | some (r, _) =>
        let addr := mkTag s.pkg (r / 4) (r % 4 * 4) 0 0 0 0 0 ||| 0x800000000
        let ret := s.pkg * 2 ^ 15 + f.c / 16 * 2 ^ 11 + f.c % 16 * 2 ^ 7 + f.pe * 8
        let pay := reqPay addr (w48 f.ctx) 11 f.part false ret g
        send ((mkFlit 1 false pay [] f.part (startUrg s f.part (dueBand s f.due)) f.c).ofFiring f.base f.due) s

/-- FREE (R83, R131). -/
def execFree (c : Fin 128) (pe : Fin 16) (err : FireErr) (s : State) : Host.Outcome State Fault Refusal :=
  .next (fireWith .free c pe err freeBody s)

/-- R197: a cluster named in the partition's redirect entries stands for that entry's TO. -/
def redirect (s : State) (p pkg c : Nat) : Nat :=
  match s.ap.redirects.find? fun x => x.part = p && x.pkg = pkg && x.frm = c with
  | some x => x.dst
  | none => c

/-- R84: the tag that a sound link word names, for the firing's partition and epoch; none when the word breaks R84. -/
def linkTarget (s : State) (f : Firing) (v : W) : Option W :=
  if bits v.toNat 16 3 ≠ 0 ∨ bits v.toNat 0 2 ≠ 0 ∨ tagDie v ≥ 8 then none
  else
    let c := cIdx (tagDie v) (tagCluster v)
    let c := redirect s f.part (tagPkg v) c
    some (mkTag (tagPkg v) (c / 16) (c % 16) (tagInstr v) (tagPort v) f.part (tagCtx v) f.ep)

/-- RETURN: L to the tag of the link word; a word that breaks R84 is discarded with a fault; a poisoned R emits nothing (R84, R116). -/
def retBody (f : Firing) (s : State) : State :=
  if f.r.2 then poisonTrap f s
  else
    let s := if f.l.2 then poisonTrap f s else s
    match linkTarget s f f.r.1 with
    | none => reportP 5 (loc 2 f.c) 0 f.part s
    | some tag =>
      emitToken f.c f.pe ⟨tag, f.due, f.l.1, f.l.2⟩ s

/-- RETURN (R84). -/
def execReturn (c : Fin 128) (pe : Fin 16) (err : FireErr) (s : State) : Host.Outcome State Fault Refusal :=
  .next (fireWith .ret c pe err retBody s)

/-- R154: no park entry is free: the firing holds the sequencer of its PE, standing before the word or operation that makes the request. -/
def holdSeq (f : Firing) (m : Option MicroSt) (s : State) : State :=
  { s with cl := { s.cl with
      seqHeld := s.cl.seqHeld ++ [⟨f.c, f.pe, 8, f.w, f.base, f.due, f.l.1, f.r.1, f.g.1, f.t0, m, false⟩] } }

/-- The firing of a park entry. -/
def parkedFiring (p : Park) : Firing :=
  ⟨p.cluster, p.pe, tagInstr p.tag, p.word, p.tag, (p.l, false), (p.r, false), (p.g, false), p.due, p.addr⟩

/-- R139, R160: a firing that has begun may go on. -/
def canResume (s : State) (c pe : Nat) (err : PassErr) : Bool := seqReady s c pe && notReloading s c pe err

/-- ALLOC_GRANT: the pool's earliest-due waiting request takes the lowest free block, and its firing goes on (R128, R129, R154). A grant waits
while the PE of that request is stopped or its emit stage is full, and no later-due request passes it (DESIGN CHOICE, log 204). -/
def allocGrant (r p q : Nat) (e : PassErr) (s : State) : State :=
  let ws := (poolWaits s r p q).filter fun x => s.cState x.cluster = 2 || s.cState x.cluster = 3
  match minBy (fun x => sdiff x.due s.t) ws, freeBlocks s r p q with
  | some x, b :: _ =>
    if !canResume s x.cluster x.pe e then s else
    let i := poolIdx r p q
    let blk : Block := ⟨p, r, q, b, s.get F.poolCfg_G i, s.t⟩
    let s := { s with cl := { s.cl with waits := s.cl.waits.erase x, blocks := s.cl.blocks ++ [blk] } }
    let s := s.set F.poolStat_LWM i (min (s.get F.poolStat_LWM i) (freeBlocks s r p q).length)
    stdGoOn e (parkedFiring x) [iDst0 x.word] (emitTo x.cluster x.pe x.tag b x.due x.l false (iDst0 x.word)) (countProg p s)
  | _, _ => s

/-- ALLOC_GRANT (R128). A halted partition's wait lists stay unchanged (R139). -/
def execAllocGrant (r : Fin 32) (p : Fin 8) (q : PoolPass) (s : State) : Host.Outcome State Fault Refusal :=
  .next (if s.fabricOn (r.val * 4) && s.pState p ≠ pHalted then allocGrant r p q.pool q.err s else s)

/-- R131: the allocator applies a release, or refuses it with a fault and no change. -/
def applyRelease (p ctx g : Nat) (c : Nat) (s : State) : State :=
  let base := ctx / 2 ^ g * 2 ^ g
  match granuleOwner s p ctx with
  | none => reportP 11 (loc 2 c) 0 p s
  | some (r, q) =>
    if base = 0 ∨ s.get F.poolCfg_G (poolIdx r p q) ≠ g
        ∨ !(s.cl.blocks.any fun b => b.part = p && b.base = base) then
      reportP 11 (loc 2 c) 0 p s
    else
      { s with cl := { s.cl with blocks := s.cl.blocks.filter fun b => !(b.part = p && b.base = base) } }

/-- RELEASE: the oldest release at an allocator (R131). -/
def releaseStep (s : State) : State :=
  match s.net.relQ with
  | [] => s
  | f :: rest =>
    let s := { s with net := { s.net with relQ := rest } }
    if badReq f then reqErr (loc 2 f.node) f s
    else
      let ret := reqRet f.pay
      applyRelease (reqPart f.pay) ((reqData f.pay).toNat % 2 ^ 14) (reqArg f.pay % 8)
        (cIdx (bits ret 11 4) (bits ret 7 4)) s

/-- RELEASE (R131). -/
def execRelease (s : State) : Host.Outcome State Fault Refusal := .next (unlessFatal releaseStep s)

/-- LWM_CLEAR (R126): LWM takes the current FREE. -/
def execLwmClear (r : Fin 32) (p : Fin 8) (q : Fin 4) (s : State) : Host.Outcome State Fault Refusal :=
  .next (unlessFatal (fun s => s.set F.poolStat_LWM (poolIdx r p q) (freeBlocks s r p q).length) s)

/-! ### Operations that wait for a response (R85–R93, R154) -/

/-- The lowest free park entry of a PE: not held by a firing, and not waiting for a late response (R154, R281). -/
def freePark (s : State) (c pe : Nat) : Option Nat :=
  (List.range 8).find? fun e =>
    !(s.cl.parks.any fun p => p.cluster = c && p.pe = pe && p.entry = e)
    && !(s.net.timed.any fun t => t.ret = s.pkg * 2 ^ 15 + c / 16 * 2 ^ 11 + c % 16 * 2 ^ 7 + pe * 8 + e)

/-- RET of a park entry (R274). -/
def parkRet (s : State) (c pe e : Nat) : Nat := s.pkg * 2 ^ 15 + c / 16 * 2 ^ 11 + c % 16 * 2 ^ 7 + pe * 8 + e

/-- Park a firing in an entry. -/
def parkFiring (f : Firing) (e : Nat) (addr : W) (s : State) : State :=
  { s with cl := { s.cl with
      parks := s.cl.parks ++ [⟨f.c, f.pe, e, f.w, f.base, f.due, f.l.1, f.r.1, f.g.1, addr, none, false⟩] } }

/-- R86: the form of a bank address fails the PE's own check. -/
def addrBad (a : W) : Bool := a.toNat % 8 ≠ 0 || tagDie a ≥ 8 || !inBanks a

/-- A direct presentation of a PE to a bank of its own cluster (R290). -/
def directReq (op : Nat) (a d : W) (part ret urg : Nat) (tag due : W) (pe : Nat) : BReq :=
  ⟨op, a, d, part, false, ret, urg, tag, due, some pe, false, false, false, [], false⟩

/-- The request of a bank operation leaves its PE: a direct presentation to a bank of the own cluster, else a REQ packet. -/
def bankRequest (c pe op : Nat) (tag due a d : W) (ret : Nat) (s : State) : State :=
  let p := tagPart tag
  let urg := startUrg s p (dueBand s due)
  let s := startTimer ret a op p false 0 s
  if tagPkg a = s.pkg ∧ cIdx (tagDie a) (tagCluster a) = c then
    { s with bank := { s.bank with direct := mpush s.bank.direct c (directReq op a d p ret urg tag due pe) } }
  else send ((mkFlit 1 false (reqPay a d op p false ret 0) [] p urg c).ofFiring tag due) s

/-- R86: a bank operation fires: a bad address answers ERR at once; otherwise the firing parks and its request leaves. -/
def bankBody (op : Nat) (f : Firing) (s : State) : Option State :=
  match f.poison with
  | some v => some (poisonOut f v (f.dsts s) s)
  | none =>
    let a := f.l.1
    if addrBad a then
      some (reportP 10 (loc 2 f.c) 0 f.part (f.emit (poisonData causeErr a.toNat) true (f.dsts s) s))
    else
      (freePark s f.c f.pe).map fun e =>
        bankRequest f.c f.pe op f.base f.due a f.r.1 (parkRet s f.c f.pe e) (parkFiring f e a s)

/-- A firing that may need a park entry: while none is free it holds the sequencer (R154), and the next row of its class goes on with it. -/
def fireParking (cls : OpClass) (c pe : Nat) (err : FireErr) (body : Firing → State → Option State) (s : State) : State :=
  match s.heldSeq c pe with
  | some p =>
    if opClass (iOpc p.word) ≠ cls || !canResume s c pe err.pass then s
    else
      let f := parkedFiring p
      let s0 := { s with cl := { s.cl with seqHeld := s.cl.seqHeld.erase p } }
      if (freePark s c pe).isNone then s else stdGoOn err.pass f (f.dsts s) (fun s => (body f s).getD s) s0
  | none =>
    if !canFire s c pe err.pass then s
    else
      match s.headSlot c pe with
      | none => s
      | some x =>
        let w := s.instr c (tagInstr x.tag)
        if opClass (iOpc w) ≠ cls then s
        else
          match beginFire x w err s with
          | (none, s) => s
          | (some f, s) => (body f s).getD (holdSeq f none s)

/-- LOAD (R85). -/
def execLoad (c : Fin 128) (pe : Fin 16) (err : FireErr) (s : State) : Host.Outcome State Fault Refusal :=
  .next (fireParking .load c pe err (bankBody 3) s)

/-- STORE (R85). -/
def execStore (c : Fin 128) (pe : Fin 16) (err : FireErr) (s : State) : Host.Outcome State Fault Refusal :=
  .next (fireParking .store c pe err (bankBody 4) s)

/-- READ (R85, R87). -/
def execRead (c : Fin 128) (pe : Fin 16) (err : FireErr) (s : State) : Host.Outcome State Fault Refusal :=
  .next (fireParking .read c pe err (bankBody 5) s)

/-- WRITE (R85, R87). -/
def execWrite (c : Fin 128) (pe : Fin 16) (err : FireErr) (s : State) : Host.Outcome State Fault Refusal :=
  .next (fireParking .write c pe err (bankBody 6) s)

/-- ICLR (R85, R87). -/
def execIclr (c : Fin 128) (pe : Fin 16) (err : FireErr) (s : State) : Host.Outcome State Fault Refusal :=
  .next (fireParking .iclr c pe err (bankBody 7) s)

/-- FETCH_ADD (R85). -/
def execFetchAdd (c : Fin 128) (pe : Fin 16) (err : FireErr) (s : State) : Host.Outcome State Fault Refusal :=
  .next (fireParking .fetchAdd c pe err (bankBody 8) s)

/-- SWAP (R85). -/
def execSwap (c : Fin 128) (pe : Fin 16) (err : FireErr) (s : State) : Host.Outcome State Fault Refusal :=
  .next (fireParking .swap c pe err (bankBody 9) s)

/-- R89, R274: a Lens query leaves its PE. -/
def lensBody (timeAt : Bool) (f : Firing) (s : State) : Option State :=
  match f.poison with
  | some v => some (poisonOut f v (f.dsts s) s)
  | none =>
    (freePark s f.c f.pe).map fun e =>
      let k := iOpc f.w % 8
      let a := w48 (s.pkg * 2 ^ 44 + 8 * 2 ^ 40 + b2n timeAt * 8 + k)
      let ret := parkRet s f.c f.pe e
      let urg := startUrg s f.part (dueBand s f.due)
      let s := startTimer ret a 10 f.part false 0 (parkFiring { f with r := (f.t0, false) } e a s)
      send (mkFlit 1 false (reqPay a f.l.1 10 f.part false ret (f.t0.toNat % 2 ^ 21)) [] f.part urg f.c |>.ofFiring f.base f.due) s

/-- ANGLE_AT (R89). -/
def execAngleAt (c : Fin 128) (pe : Fin 16) (err : FireErr) (s : State) : Host.Outcome State Fault Refusal :=
  .next (fireParking .angleAt c pe err (lensBody false) s)

/-- TIME_AT (R90). -/
def execTimeAt (c : Fin 128) (pe : Fin 16) (err : FireErr) (s : State) : Host.Outcome State Fault Refusal :=
  .next (fireParking .timeAt c pe err (lensBody true) s)

/-- R91, R274: an output leaves its PE as a bulk packet to the hub of the package that its target word names. With DST0 valid the
firing parks for the acknowledgement. -/
def outBody (emitAt : Bool) (f : Firing) (s : State) : Option State :=
  match f.poison with
  | some v => some (poisonOut f v (f.dsts s) s)
  | none =>
    let k := iK f.w
    let ack := dstV (iDst0 f.w)
    (if ack then freePark s f.c f.pe else some 0).map fun e =>
      let a := w48 (bits k 40 4 * 2 ^ 44 + 8 * 2 ^ 40 + bits k 44 4 * 2 ^ 36 + bits k 0 16)
      let ret := parkRet s f.c f.pe e
      let arg := b2n emitAt * 2 ^ 20 + b2n ack * 2 ^ 19 + 1
      let body : BitVec 144 := f.due ++ w48 (f.ctx * 2 ^ 0) ++ (0 : W)
      let body := body ||| (BitVec.ofNat 144 (f.ep * 2 ^ 62))
      let urg := startUrg s f.part (dueBand s f.due)
      let extra := if emitAt then emitExtra s f.due else 0
      let s := if ack then startTimer ret a 12 f.part false extra (parkFiring f e a s) else s
      send ((mkFlit 3 false (reqPay a f.l.1 12 f.part false ret arg) [body] f.part urg f.c).ofFiring f.base f.due) s

/-- OUT (R91, R92). -/
def execOut (c : Fin 128) (pe : Fin 16) (err : FireErr) (s : State) : Host.Outcome State Fault Refusal :=
  .next (fireParking .out c pe err (outBody false) s)

/-- EMIT_AT (R91, R92). -/
def execEmitAt (c : Fin 128) (pe : Fin 16) (err : FireErr) (s : State) : Host.Outcome State Fault Refusal :=
  .next (fireParking .emitAt c pe err (outBody true) s)

end Sys2Proof.Machine
end

