-- ==== Sys2Proof/Machine/Micro.lean ====
section
/-!
DEFINITION. Sys2Proof/Machine/Micro.lean: the microword (R146–R150), the routines of user operations (R151–R157), and the rows that bring a
parked firing on: RESPONSE, DEFERRED_ANSWER, and CONTROL_STORE_RELOAD (R160, R161).
-/
namespace Sys2Proof.Machine
open Sys2Proof

/-! ### The microword (R146, R147) -/

def uSeq (w : Nat) : Nat := bits w 132 4
def uCond (w : Nat) : Nat := bits w 128 4
def uTarget (w : Nat) : Nat := bits w 117 11
def uAlu (w : Nat) : Nat := bits w 111 6
def uAsrc (w : Nat) : Nat := bits w 107 4
def uBsrc (w : Nat) : Nat := bits w 103 4
def uAdst (w : Nat) : Nat := bits w 100 3
def uXu (w : Nat) : Nat := bits w 97 3
def uXop (w : Nat) : Nat := bits w 92 5
def uXa (w : Nat) : Nat := bits w 88 4
def uXb (w : Nat) : Nat := bits w 84 4
def uXc (w : Nat) : Nat := bits w 80 4
def uXd (w : Nat) : Nat := bits w 77 3
def uReq (w : Nat) : Nat := bits w 73 4
def uRsrc (w : Nat) : Nat := bits w 69 4
def uEmit (w : Nat) : Nat := bits w 66 3
def uEsrc (w : Nat) : Nat := bits w 62 4
def uEdst (w : Nat) : Nat := bits w 59 3
def uEpoi (w : Nat) : Nat := bits w 57 2
def uStk (w : Nat) : Bool := bits w 56 1 = 1
def uTen (w : Nat) : Nat := bits w 53 3
def uImm (w : Nat) : Nat := bits w 5 48

/-- The address of a microword (R27, R146). -/
def uAddr (c u : Nat) : Nat := clAddr c (0x200000 + u * 0x20)

/-- The stored 144 bits of a microword. -/
def State.uword (s : State) (c u : Nat) : Nat := s.readN (uAddr c u) 18

/-- The number of ones in the low n bits. -/
def ones : Nat → Nat → Nat
  | 0, _ => 0
  | n + 1, v => v % 2 + ones n (v / 2)

/-- R146: the parity groups that fail, bit i for group i; 0 when the word is good. -/
def parityGroups (w : Nat) : Nat :=
  (List.range 8).foldl (fun a i =>
    if (ones 17 (bits w (17 * i) 17) + bits w (136 + i) 1) % 2 = 1 then a else a + 2 ^ i) 0

/-- The graph opcode of an ALU code: 1–36 and 37–49 (R148). -/
def aluOpc (a : Nat) : Option Nat :=
  if 1 ≤ a ∧ a ≤ 15 ∨ 21 ≤ a ∧ a ≤ 36 then some (0x010 + a - 1)
  else if 37 ≤ a ∧ a ≤ 49 then some (0x040 + a - 37)
  else none

/-- The sources that an ALU code reads: bit 0 A, bit 1 B; none for a reserved code. -/
def aluPorts (a : Nat) : Option Nat :=
  if a = 0 then some 0
  else if a = 50 then some 1
  else if a = 51 then some 3
  else (aluOpc a).map opPorts

/-- R150: the graph opcode of a unit operation, or 0 for a full multiply; none for an unlisted value. -/
def unitOpc (xu xop : Nat) : Option Nat :=
  match xu with
  | 1 => if xop ≤ 1 then some 0 else if xop ≤ 3 then some (0x01B + xop - 2) else if xop ≤ 5 then some (0x050 + xop - 4) else none
  | 2 => if xop ≤ 6 ∨ (8 ≤ xop ∧ xop ≤ 11) ∨ (16 ≤ xop ∧ xop ≤ 23) then some (0x060 + xop) else none
  | 3 => if xop ≤ 8 then some (0x080 + xop) else none
  | 4 => if xop ≤ 4 then some (0x01F + xop) else none
  | _ => none

/-- The sources that the unit reads: XA, XB, XC; none for a reserved operation. -/
def unitPorts (xu xop : Nat) : Option Nat :=
  if xu = 0 then (if xop = 0 then some 0 else none)
  else (unitOpc xu xop).map fun o => if o = 0 then 3 else opPorts o

/-- The request takes data from BSRC: STORE, WRITE, FETCH-ADD, SWAP and an output. -/
def reqTakesData (r : Nat) : Bool := r = 2 || r = 4 || r = 6 || r = 7 || r = 9

/-- R148, R155: the fields of a word that make it bad wherever it lies. -/
def uFieldsBad (w : Nat) : Bool :=
  let src := fun (read : Bool) (v : Nat) => v ≠ 15 && (read || v = 0)
  match aluPorts (uAlu w), unitPorts (uXu w) (uXop w) with
  | some pa, some px =>
    !(uSeq w ≤ 7 && uCond w ≤ 8 && (uSeq w = 2 || uCond w = 0)
      && ((1 ≤ uSeq w && uSeq w ≤ 3) || uTarget w = 0)
      && src (pa % 2 = 1) (uAsrc w) && src (pa / 2 % 2 = 1 || reqTakesData (uReq w)) (uBsrc w) && uAdst w ≤ 4
      && src (px % 2 = 1) (uXa w) && src (px / 2 % 2 = 1) (uXb w) && src (px / 4 % 2 = 1) (uXc w) && uXd w ≤ 4
      && uReq w ≤ 12 && uRsrc w ≠ 15 && uEmit w ≤ 5
      && (if uEmit w = 1 then uEdst w ≤ 5 else uEdst w = 0) && uEpoi w ≤ 2
      && !(uSeq w = 6 && uReq w = 0) && bits w 0 5 = 0)
  | _, _ => true

/-- R155: the word that a user operation is about to execute is bad. A user routine lies in 0x600–0x7FF, and the decoder enforces it
(R163). -/
def uBad (m : MicroSt) (w : Nat) : Bool :=
  uFieldsBad w
  || m.upc < 0x600
  || (uSeq w = 3 && 4 ≤ m.stack.length) || (uSeq w = 4 && m.stack.isEmpty)
  || (1 ≤ uSeq w && uSeq w ≤ 3 && uTarget w < 0x600)
  || (10 ≤ uReq w && uReq w ≤ 12) || (3 ≤ uEmit w && uEmit w ≤ 5) || uSeq w = 7
  || 512 ≤ m.count

/-! ### Sources and results (R149, R150) -/

/-- R149: the value of a source, where the spec gives one. -/
def uSource (s : State) (f : Firing) (m : MicroSt) (w code : Nat) : Option W :=
  let reads := readPorts s f.c (iOpc f.w)
  match code with
  | 0 => some 0
  | 1 => if reads % 2 = 1 then some f.l.1 else none
  | 2 => if reads / 2 % 2 = 1 then some f.r.1 else none
  | 3 => if reads / 4 % 2 = 1 then some f.g.1 else none
  | 4 => if iForm f.w = 0 then some (w48 (iK f.w)) else none
  | 5 => some (w48 (uImm w))
  | 6 => m.mt[0]?
  | 7 => m.mt[1]?
  | 8 => m.mt[2]?
  | 9 => m.mt[3]?
  | 10 => some m.t0
  | 11 => some f.due
  | 12 => m.resp.map (·.1)
  | 13 => some (w48 f.ctx)
  | 14 => m.hi
  | _ => none

/-- The value of a source: a free value where the spec gives none (DESIGN CHOICE, log 132). -/
def uRead (f : Firing) (m : MicroSt) (w code : Nat) (s : State) : W × State :=
  match uSource s f m w code with
  | some v => (v, s)
  | none => s.freeVal 48

/-- The ALU's result (R148), in the rounding mode that the firing began with (R59). -/
def aluResult (m : MicroSt) (code : Nat) (a b : W) : Option AR :=
  if code = 0 then none
  else if code = 50 then some (plain a)
  else if code = 51 then some (plain (BitVec.ofInt 48 (sdiff a b)))
  else (aluOpc code).bind fun o => compute o (m.arith % 4) a b 0

/-- The ALU's unsigned carry out, where the spec settles it: an addition. -/
def aluCarry (code : Nat) (a b : W) : Option Bool :=
  if 1 ≤ code ∧ code ≤ 3 then some (decide (2 ^ 48 ≤ a.toNat + b.toNat)) else none

/-- The ALU's signed overflow: of additions, subtractions, negations, magnitudes and products. -/
def aluOverflow (code : Nat) (a b : W) : Option Bool :=
  if 1 ≤ code ∧ code ≤ 3 then some (!fitsS (a.toInt + b.toInt))
  else if 4 ≤ code ∧ code ≤ 6 then some (!fitsS (a.toInt - b.toInt))
  else if code = 7 ∨ code = 8 then some (!fitsS (-a.toInt))
  else if code = 9 ∨ code = 10 then some (!fitsS a.toInt.natAbs)
  else if code = 11 ∨ code = 12 then some (!fitsS (a.toInt * b.toInt))
  else none

/-- The unit's result, with the high half of a full multiply (R150). -/
def unitResult (m : MicroSt) (xu xop : Nat) (a b c : W) : Option (AR × Option W) :=
  if xu = 0 then none
  else if xu = 1 ∧ xop = 0 then
    let p := a.toInt * b.toInt
    some (plain (BitVec.ofInt 48 p), some (BitVec.ofInt 48 (p / 2 ^ 48)))
  else if xu = 1 ∧ xop = 1 then
    let p := a.toNat * b.toNat
    some (plain (w48 p), some (w48 (p / 2 ^ 48)))
  else ((unitOpc xu xop).bind fun o => compute o (m.arith % 4) a b c).map fun r => (r, none)

/-- A free truth value. -/
def freeBool (s : State) : Bool × State :=
  let (v, s) := s.freeVal 1
  (decide (v = 1), s)

/-- A known truth value, or a free one. -/
def orFree (o : Option Bool) (s : State) : Bool × State :=
  match o with
  | some b => (b, s)
  | none => freeBool s

/-- R148: the condition of a BRANCH. -/
def uCondition (f : Firing) (m : MicroSt) (w : Nat) (alu : Option AR) (carry ovf : Option Bool) (unit : Option AR)
    (s : State) : Bool × State :=
  match uCond w with
  | 0 => (true, s)
  | 1 => orFree (alu.map fun r => decide (r.1 = 0)) s
  | 2 => orFree (alu.map fun r => decide (r.1.toInt < 0)) s
  | 3 => orFree carry s
  | 4 => orFree ovf s
  | 5 =>
    let (g, s) := uRead f m w 3 s
    (decide (g ≠ 0), s)
  | 6 => orFree (m.mt[0]?.map fun v => decide (v = 0)) s
  | 7 => orFree (m.resp.map (·.2)) s
  | _ => orFree (unit.map fun r => isNaN r.1) s

/-- Write an MT register: destination code 0 is none, 1–4 are MT0–MT3. -/
def setMt (m : MicroSt) (d : Nat) (v : W) : MicroSt := if d = 0 then m else { m with mt := setAt m.mt (d - 1) v }

/-! ### Emission (R153) -/

/-- The destination fields not yet served, with their indexes. -/
def unserved (s : State) (f : Firing) (m : MicroSt) : List (Nat × Nat) :=
  ((List.range 6).zip (f.dsts s)).filter fun x => dstV x.2 && m.served / 2 ^ x.1 % 2 = 0

/-- Emit to listed destinations and mark them served. -/
def uEmitTo (f : Firing) (m : MicroSt) (v : W) (poison : Bool) (ds : List (Nat × Nat)) (s : State) : MicroSt × State :=
  ({ m with served := ds.foldl (fun a x => a ||| 2 ^ x.1) m.served }, f.emit v poison (ds.map (·.2)) s)

/-- The token of a word: its data, or a cause (R148, field EPOI). -/
def uToken (f : Firing) (m : MicroSt) (w : Nat) (res : Option W) (s : State) : (W × Bool) × State :=
  match uEpoi w with
  | 0 =>
    if uEsrc w = 15 then
      match res with
      | some v => ((v, false), s)
      | none => let (v, s) := s.freeVal 48; ((v, false), s)
    else let (v, s) := uRead f m w (uEsrc w) s; ((v, false), s)
  | 1 =>
    match m.resp, f.poison with
    | some (v, true), _ => ((v, true), s)
    | _, some v => ((v, true), s)
    | _, none => let (v, s) := s.freeVal 48; ((v, true), s)
  | _ =>
    let (d, s) := match m.resp with
      | some (v, _) => (v, s)
      | none => s.freeVal 48
    ((poisonData causeErr d.toNat, true), s)

/-- A word's emission (R148, field EMIT). -/
def uEmission (f : Firing) (m : MicroSt) (w : Nat) (res : Option W) (s : State) : MicroSt × State :=
  if uEmit w = 0 then (m, s)
  else
    let ((v, poison), s) := uToken f m w res s
    let ds := if uEmit w = 1 then (unserved s f m).filter fun x => x.1 = uEdst w else unserved s f m
    uEmitTo f m v poison ds s

/-! ### Requests (R148, R154) -/

/-- What a request does at once: nothing more to wait for, a response already at hand, or a wait in a park entry. `none` while the WAIT
finds no free park entry (R154). -/
inductive UReq where
  | done
  | answered (v : W)
  | parked
  deriving DecidableEq, Repr

/-- Park a user firing in an entry; `detached` when its routine goes on without the response. -/
def parkUser (f : Firing) (m : MicroSt) (e : Nat) (addr : W) (detached : Bool) (s : State) : State :=
  { s with cl := { s.cl with
      parks := s.cl.parks ++ [⟨f.c, f.pe, e, f.w, f.base, f.due, f.l.1, f.r.1, f.g.1, addr, some m, detached⟩] } }

/-- A request to Lens or an output target leaves, and its timer starts. -/
def uSend (fl : Flit) (f : Firing) (ret : Nat) (a : W) (op : Nat) (s : State) : State :=
  send (fl.ofFiring f.base f.due) (startTimer ret a op f.part false 0 s)

/-- Issue the word's request. A request whose word does not wait holds its park entry too, so that its response names no other firing
(DESIGN CHOICE, log 159); an output that nothing waits for asks for no response. A Lens query of a kind above 4, and an output whose instruction
has no K form or names no legal target, is answered with ERR and a fault (DESIGN CHOICE, log 202). -/
def uRequest (f : Firing) (m : MicroSt) (w : Nat) (q d : W) (s : State) : Option (UReq × State) :=
  let r := uReq w
  let wait := decide (uSeq w = 6)
  let urg := startUrg s f.part (dueBand s f.due)
  let sent : UReq := if wait then .parked else .done
  if r = 0 then some (.done, s)
  else if r ≤ 7 then
    if addrBad q then
      some (.answered (poisonData causeErr q.toNat), reportP 10 (loc 2 f.c) 0 f.part s)
    else
      (freePark s f.c f.pe).map fun e =>
        (sent, bankRequest f.c f.pe (r + 2) f.base f.due q d (parkRet s f.c f.pe e) (parkUser f m e q (!wait) s))
  else if r = 8 then
    let k := bits (uImm w) 0 4
    if 4 < k then some (.answered (poisonData causeErr q.toNat), reportP 10 (loc 2 f.c) 0 f.part s)
    else
      (freePark s f.c f.pe).map fun e =>
        let a := w48 (s.pkg * 2 ^ 44 + 8 * 2 ^ 40 + bits (uImm w) 4 1 * 8 + k)
        let ret := parkRet s f.c f.pe e
        (sent, uSend (mkFlit 1 false (reqPay a q 10 f.part false ret (m.t0.toNat % 2 ^ 21)) [] f.part urg f.c) f ret a 10
          (parkUser f m e a (!wait) s))
  else
    let k := iK f.w
    if iForm f.w ≠ 0 ∨ !targetOk k then
      some (.answered (poisonData causeErr k), reportP 10 (loc 2 f.c) 0 f.part s)
    else
      (if wait then freePark s f.c f.pe else some 0).map fun e =>
        let a := w48 (bits k 40 4 * 2 ^ 44 + 8 * 2 ^ 40 + bits k 44 4 * 2 ^ 36 + bits k 0 16)
        let ret := parkRet s f.c f.pe e
        let body : BitVec 144 := (f.due ++ w48 f.ctx ++ (0 : W)) ||| BitVec.ofNat 144 (f.ep * 2 ^ 62)
        let fl := mkFlit 3 false (reqPay a d 12 f.part false ret (b2n wait * 2 ^ 19 + 1)) [body] f.part urg f.c
        (sent, if wait then uSend fl f ret a 12 (parkUser f m e a false s) else send (fl.ofFiring f.base f.due) s)

/-! ### The sequencer (R152–R157) -/

/-- The trap frame of a firing that its sequencer's registers describe. -/
def MicroSt.frame (m : MicroSt) : Saved := ⟨some m.upc, some m.stack, some m.served, m.mt⟩

/-- R58, R158: the sticky bits gathered so far are set when the firing reaches its emit stage: with a token, or at its end. -/
def setGathered (f : Firing) (m : MicroSt) (s : State) : MicroSt × State := ({ m with stk := 0 }, setSticky f.part m.stk s)

/-- A machine check ends a user firing: MACHINE_CHECK poison to each field not yet served, and the sticky bits that its words gathered are set
(R58, R158, R160; DESIGN CHOICE, log 164). -/
def userMachineCheck (f : Firing) (m : MicroSt) (u : Nat) (nested inj : Bool) (groups : Option Nat) (s : State) : State :=
  machineCheck f u false nested inj groups ((unserved s f m).map (·.2)) (setGathered f m s).2

/-- R156: the bad-microword trap and its standard handler: MACHINE_CHECK poison to each valid field not yet served, with the bad word's μPC;
the firing ends and the partition takes a fault. A failing word of the handler is a machine check instead, after the trap (R158, R160). The
frame holds the μPC of the next word, and the sticky bits of the words before are set (DESIGN CHOICE, log 164). -/
def badMicroword (e : PassErr) (f : Firing) (m : MicroSt) (s : State) : State :=
  let s := microTrap f.c f.pe 6 f.base { m.frame with upc := some ((m.upc + 1) % 2048) } s
  match handlerWord e 6 with
  | some u => userMachineCheck f m u e.nested false none s
  | none =>
    let s := f.emit (poisonData causeMchk (f.detail m.upc)) true ((unserved s f m).map (·.2)) s
    reportP 3 (loc 2 f.c) 0 f.part (setGathered f m s).2

/-- The firing that parked with a request ends before its response: the entry waits on alone, and the response only frees it (R154). -/
def detachPark (f : Firing) (s : State) : State :=
  let last := (s.cl.parks.filter fun p => p.cluster = f.c && p.pe = f.pe).getLast?
  { s with cl := { s.cl with parks := replaceFirst (fun p : Park => some p = last) (fun p => { p with detached := true }) s.cl.parks } }

/-- How the firing stands after a word: it goes on, has ended, or waits in a park entry. -/
inductive UNext where
  | go
  | ended
  | parked
  deriving DecidableEq, Repr

/-- The result of one word: the sequencer's registers, how the firing stands, and whether the word took the arithmetic trap. -/
structure UStep where
  m : MicroSt
  next : UNext
  trap : Bool
  deriving DecidableEq, Repr

/-- R157 item 4: a word takes the arithmetic trap when its TEN bit is 1 and the partition traps a sticky bit that it raises. -/
def uTraps (m : MicroSt) (w : Nat) (st : Stk) : Bool :=
  uStk w && uTen w % 2 = 1 && (st.toNat &&& (m.arith / 4)) ≠ 0

/-- R152: one microword: sources, ALU and unit, write-back, request, emission, sequencing. `none` while its request finds no free park
entry. -/
def uStep (f : Firing) (m : MicroSt) (w : Nat) (s : State) : Option (UStep × State) :=
  let (a, s) := uRead f m w (uAsrc w) s
  let (b, s) := uRead f m w (uBsrc w) s
  let (xa, s) := uRead f m w (uXa w) s
  let (xb, s) := uRead f m w (uXb w) s
  let (xc, s) := uRead f m w (uXc w) s
  let (q, s) := uRead f m w (uRsrc w) s
  let alu := aluResult m (uAlu w) a b
  let unit := unitResult m (uXu w) (uXop w) xa xb xc
  let (cond, s) := uCondition f m w alu (aluCarry (uAlu w) a b) (aluOverflow (uAlu w) a b) (unit.map (·.1)) s
  let res := match alu with | some r => some r.1 | none => unit.map (·.1.1)
  let (m1, s) := uEmission f m w res s
  let m1 := match alu with | some r => setMt m1 (uAdst w) r.1 | none => m1
  let m1 := match unit with
    | some (r, h) => { setMt m1 (uXd w) r.1 with hi := h.orElse fun _ => m1.hi }
    | none => m1
  -- two results written to one MT by one word: which one stands is open
  let (m1, s) :=
    if uAdst w ≠ 0 ∧ uAdst w = uXd w ∧ alu.isSome ∧ unit.isSome then
      let (v, s) := s.freeVal 48
      (setMt m1 (uAdst w) v, s)
    else (m1, s)
  let next := match uSeq w with
    | 1 => uTarget w
    | 2 => if cond then uTarget w else (m.upc + 1) % 2048
    | 3 => uTarget w
    | 4 => m.stack.getLastD 0
    | _ => (m.upc + 1) % 2048
  let stack := match uSeq w with
    | 3 => m.stack ++ [(m.upc + 1) % 2048]
    | 4 => m.stack.dropLast
    | _ => m.stack
  let m1 := { m1 with upc := next, stack := stack, count := m.count + 1, ten := uTen w }
  let st : Stk := (match alu with | some r => r.2 | none => Stk.none) ||| (match unit with | some (r, _) => r.2 | none => Stk.none)
  let m1 := if uStk w then { m1 with stk := m1.stk ||| st } else m1
  let (m1, s) := if uEmit w ≠ 0 ∨ uSeq w = 5 then setGathered f m1 s else (m1, s)
  let trap := uTraps m1 w st
  let s := if trap then raiseEvent (208 + f.part) (microTrap f.c f.pe 5 f.base m1.frame s) else s
  let next : UNext := if uSeq w = 5 then .ended else .go
  (uRequest f m1 w q b s).map fun (r, s) =>
    match r with
    | .parked => (⟨m1, .parked, trap⟩, s)
    | .answered v => (⟨if uSeq w = 6 then { m1 with resp := some (v, true) } else m1, next, trap⟩, s)
    | .done => (⟨m1, next, trap⟩, s)

/-- Run a routine until it ends, parks, or holds the sequencer for want of a park entry (R154). A word that fails parity, in the store or by
the error given, is a machine check, and so is a failing word of a handler that the routine's traps run (R156, R158–R160). -/
def uRun (e : PassErr) (f : Firing) : Nat → MicroSt → State → State
  | 0, _, s => s
  | n + 1, m, s =>
    let w := s.uword f.c m.upc
    let groups := parityGroups w
    if groups ≠ 0 ∨ e.parity.map (·.toNat) = some m.upc then
      userMachineCheck f m m.upc false false (if groups ≠ 0 then some groups else none) s
    else if uBad m w then badMicroword e f m s
    else
      match uStep f m w s with
      | none => holdSeq f (some m) s
      | some (r, s) =>
        match (if r.trap then handlerWord e 5 else none), r.next with
        | some u, next => userMachineCheck f r.m u e.nested false none (if next = .parked then detachPark f s else s)
        | none, .go => uRun e f n r.m s
        | none, _ => s

/-- The sequencer's state at the first word of a routine. The spec gives MT0–MT3 no value there. -/
def uStart (f : Firing) (upc : Nat) (s : State) : MicroSt × State :=
  let (a, s) := s.freeVal 48
  let (b, s) := s.freeVal 48
  let (c, s) := s.freeVal 48
  let (d, s) := s.freeVal 48
  (⟨upc, [], [a, b, c, d], 0, none, none, f.t0, 0, 0, 0, mget 0 s.cl.arith (f.part * 2 + f.ep)⟩, s)

/-- A user operation: a poisoned input goes to its handler; otherwise the routine that its dispatch entry names runs (R151, R157). -/
def userBody (e : PassErr) (f : Firing) (s : State) : State :=
  match f.poison with
  | some v => poisonOut f v (f.dsts s) s
  | none =>
    let (m, s) := uStart f (s.get F.dispatch_ENTRY (f.c * 1024 + iOpc f.w)) s
    uRun e f 514 m s

/-- A further pass of a user routine; an injection meets its first word. -/
def userResume (f : Firing) (m : MicroSt) (e : PassErr) (s : State) : State :=
  match takeInjection [1] (loc 2 f.c) s with
  | (some (_ + 1), s) => userMachineCheck f m m.upc false true none s
  | (_, s) => uRun e f 514 m s

/-- The user firing that holds a PE's sequencer goes on once a park entry is free (R154). -/
def continueUser (c pe : Nat) (e : PassErr) (s : State) : State :=
  match s.heldSeq c pe with
  | none => s
  | some p =>
    match p.user, freePark s c pe with
    | some m, some _ =>
      if canResume s c pe e then userResume (parkedFiring p) m e { s with cl := { s.cl with seqHeld := s.cl.seqHeld.erase p } } else s
    | _, _ => s

/-- USER_OPERATION (R152): the firing that holds the sequencer goes on, or a new one starts. -/
def execUserOperation (c : Fin 128) (pe : Fin 16) (err : FireErr) (s : State) : Host.Outcome State Fault Refusal :=
  .next (if (s.heldSeq c pe).isSome then continueUser c pe err.pass s else fireWith .user c pe err (userBody err.pass) s)

/-! ### Responses (R154, R275) -/

/-- R46, R90: TIME-AT's predicted T joins the minimum that its output due is formed from, as seen at T_fire, unless the answer is "no
crossing" or the coordinate has no source. The park entry holds T_fire in `r`. -/
def timeAtDue (p : Park) (v bound : W) : W :=
  let sl := tighten (sdiff v p.r) (iDoff p.word)
  if bits bound.toNat 36 1 = 1 ∨ bits bound.toNat 41 1 = 1 then p.due
  else if sl < sdiff p.due p.r then dueOf p.r sl else p.due

/-- The standard routine of a parked operation goes on with its response: a value to every destination, a Lens answer with its bound
word to DST1, or poison (R85, R89–R92). -/
def resumeStandard (p : Park) (v extra : W) (poison : Bool) (s : State) : State :=
  let f := parkedFiring p
  let cls := opClass (iOpc p.word)
  if poison then f.emit v true (f.dsts s) s
  else
    match cls with
    | .angleAt => f.emit extra false [iDst1 p.word] (f.emit v false [iDst0 p.word] s)
    | .timeAt =>
      let f := { f with due := timeAtDue p v extra }
      f.emit extra false [iDst1 p.word] (f.emit v false [iDst0 p.word] s)
    | .store | .write | .iclr => f.emit v false (f.dsts s) s
    | .out | .emitAt => f.emit v false [iDst0 p.word] s
    | _ => f.emit v false (f.dsts s) s

/-- A further pass of a parked standard routine. -/
def stdResume (p : Park) (v extra : W) (poison : Bool) (e : PassErr) (s : State) : State :=
  stdGoOn e (parkedFiring p) ((parkedFiring p).dsts s) (resumeStandard p v extra poison) s

/-- The response at a PE with the lowest park entry (R154). -/
def nextRsp (s : State) (c pe : Nat) : Option Flit :=
  minBy (fun f => (rspRet f.pay % 8 : Nat)) (s.net.rspQ.filter fun f =>
    bits (rspRet f.pay) 15 4 = s.pkg && cIdx (bits (rspRet f.pay) 11 4) (bits (rspRet f.pay) 7 4) = c
      && bits (rspRet f.pay) 3 4 = pe)

/-- R157, R294: the deferral micro-trap of a READ; a user word with TEN[54] = 0 takes none. What a user firing had gathered of sticky bits ends
with it unless its handler fails: it emits nothing (DESIGN CHOICE, log 164). -/
def deferTrap (e : PassErr) (p : Park) (s : State) : State :=
  let f := parkedFiring p
  match p.user with
  | some m => if m.ten / 2 % 2 = 1 then
      let s := microTrap p.cluster p.pe 3 p.tag m.frame s
      match handlerWord e 3 with
      | some u => userMachineCheck f m u e.nested false none s
      | none => s
    else s
  | none => runHandler e 3 f (f.dsts s) (microTrap p.cluster p.pe 3 p.tag Saved.std s)

/-- RESPONSE: the parked firing that a response names resumes (R154, R281); a response that nothing waits for only frees its entry. -/
def response (c pe : Nat) (err : PassErr) (s0 : State) : State :=
  match nextRsp s0 c pe with
  | none => s0
  | some f =>
      let e := rspRet f.pay % 8
      let s := { s0 with net := { s0.net with rspQ := s0.net.rspQ.erase f } }
      match takeFirst (fun p : Park => p.cluster = c && p.pe = pe && p.entry = e) s.cl.parks with
      | none => s.inc F.rtrStat_STRAY c
      | some (p, rest) =>
        if !canResume s0 c pe err then s0 else
        let part := tagPart p.tag
        let s' := { s with cl := { s.cl with parks := rest } }
        if filtered s part (tagCtx p.tag) then countCons part (tagEpoch p.tag) 1 s'
        else
          let v := w48 (pf f.pay 48 48)
          let s' := countProg part s'
          if pf f.pay (96 + 25) 4 = 1 ∧ !f.poison then deferTrap err p s'
          else if p.detached then s'
          else
            match p.user with
            | none => stdResume p v (w48 (pf f.pay 0 48)) f.poison err s'
            | some m =>
              -- the held state does not include source 14 (R154)
              userResume (parkedFiring p) { m with hi := none, resp := some (v, f.poison) } err s'

/-- RESPONSE (R154): the firing that the response resumes runs first; a user firing that holds the sequencer for want of a park entry then goes
on, in an entry that is free (DESIGN CHOICE, log 203). -/
def execResponse (c : Fin 128) (p : PePass) (s : State) : Host.Outcome State Fault Refusal :=
  .next (onFabric c (fun s => continueUser c p.pe p.err (response c p.pe p.err s)) s)

/-- The deferred answer at a PE that came first. -/
def nextAns (s : State) (c pe : Nat) : Option Flit :=
  s.net.ansQ.find? fun f =>
    let t := w48 (pf f.pay 96 48)
    tagPkg t = s.pkg && cIdx (tagDie t) (tagCluster t) = c && tagInstr t % 16 = pe

/-- The operand that a K-form READ holds in its instruction; other operands of a deferred READ are no longer held. -/
def reentryOperand (w bit : Nat) (s : State) : W × State :=
  if kselMask w = bit then (w48 (iK w), s) else s.freeVal 48

/-- DEFERRED_ANSWER: the answer of a deferred READ completes it: the standard READ emits it, and a user operation re-enters its routine
at RESUME with MT0–MT3 zero and nothing served, as a firing takes band select (R154). Such a pass works with the RM and TRAP in force when
it begins, has gathered no sticky bit, and counts its words from the first again (DESIGN CHOICE, log 164). -/
def deferredAnswer (c pe : Nat) (err : PassErr) (s : State) : State :=
  if !canFire s c pe err then s
  else
    match nextAns s c pe with
    | none => s
    | some f =>
      let tag := w48 (pf f.pay 96 48) &&& ~~~(0x180001 : W)
      let v := w48 (pf f.pay 48 48)
      let due := w48 (pf f.pay 0 48)
      let part := tagPart tag
      let s0 := { s with net := { s.net with ansQ := s.net.ansQ.erase f } }
      if filtered s part (tagCtx tag) then countCons part (tagEpoch tag) 1 s0
      else
        let s1 := countProg part s0
        let w := s.instr c (tagInstr tag)
        let (l, s1) := reentryOperand w 1 s1
        let (r, s1) := reentryOperand w 2 s1
        let (g, s1) := reentryOperand w 4 s1
        let fi : Firing := ⟨c, pe, tagInstr tag, w, tag, (l, false), (r, false), (g, false), due, s.t⟩
        if err.dispatch then machineCheck fi (iOpc w) true false false none (fi.dsts s1) s1
        else if opClass (iOpc w) = .user then
          userResume fi ⟨s.get F.dispatch_RESUME (c * 1024 + iOpc w), [], [0, 0, 0, 0], 0, none, some (v, f.poison), s.t, 0, 0, 0,
            mget 0 s.cl.arith (fi.part * 2 + fi.ep)⟩ err s1
        else
          stdGoOn err fi (fi.dsts s1) (fi.emit v f.poison (fi.dsts s1)) s1

/-- DEFERRED_ANSWER (R154). -/
def execDeferredAnswer (c : Fin 128) (p : PePass) (s : State) : Host.Outcome State Fault Refusal :=
  .next (onFabric c (deferredAnswer c p.pe p.err) s)

/-! ### Bank conflicts (R157, R290, R291) -/

/-- R291: the presentation that the bank considers (one issues at a time, which gives the meetings of R293 their arrival order): lowest output slack, then lower PE. -/
def bestDirect (s : State) (b : Nat) : Option BReq :=
  minBy (fun r : BReq => sdiff r.due s.t * 32 + (r.pe.getD 0 : Nat))
    ((mget [] s.bank.direct (b / 16)).filter fun r => addrBank r.addr = b % 16)

/-- Remove the presentation of a PE. -/
def dropDirect (c pe : Nat) (s : State) : State :=
  { s with bank := { s.bank with
      direct := mlist s.bank.direct c ((mget [] s.bank.direct c).filter fun r => r.pe ≠ some pe) } }

/-- The fields of a parked firing that no token has served yet. -/
def parkLeft (p : Park) (s : State) : List Nat :=
  match p.user with
  | some m => (unserved s (parkedFiring p) m).map (·.2)
  | none => (parkedFiring p).dsts s

/-- A firing whose presentation has not issued ends: its presentation, its park entry and its timer go. -/
def endPresented (p : Park) (ret : Nat) (s : State) : State :=
  let s := dropDirect p.cluster p.pe s
  { s with
    cl := { s.cl with parks := s.cl.parks.erase p }
    net := { s.net with timed := s.net.timed.filter fun x => x.ret ≠ ret } }

/-- R157, R291: a refused presentation takes the bank conflict retry trap, unless the user word that issued it has TEN[55] = 0. A failing word
of the handler on its PE is a machine check that ends the firing. -/
def retryTrap (b : Nat) (e : PePass) (r : BReq) (s : State) : State :=
  let c := b / 16
  let pe := r.pe.getD 0
  match s.cl.parks.find? fun p => p.cluster = c && p.pe = pe && p.entry = bits r.ret 0 3 with
  | none => s
  | some p =>
    if (match p.user with | some m => decide (m.ten / 4 % 2 = 1) | none => true) then
      let s := microTrap c pe 2 r.tag (match p.user with | some m => m.frame | none => Saved.std) s
      match (if e.pe.val = pe then handlerWord e.err 2 else none) with
      | some _ => runHandler e.err 2 (parkedFiring p) (parkLeft p s) (endPresented p r.ret s)
      | none => s
    else s

/-- BANK_OPERATION: the oldest queued operation, or the best direct presentation, issues unless its word is locked or an older queued
operation is on it; a refused presentation takes the bank conflict retry trap and presents again (R290, R291). -/
def bankOperation (b : Nat) (direct : Bool) (err : BankErr) (s : State) : State :=
  if direct then
    match bestDirect s b with
    | none => s
    | some r =>
      let w := addrWord r.addr
      let others := (mget [] s.bank.direct (b / 16)).filter fun x => addrBank x.addr = b % 16 && x ≠ r
      let s := others.foldl (fun s x => retryTrap b err.retry x s) s
      let older := (mget [] s.bank.queue b).any fun x => x.touches w
      if s.locked b w || older then retryTrap b err.retry r s
      else bankIssue b r err.mem (dropDirect (b / 16) (r.pe.getD 0) s)
  else
    match mget [] s.bank.queue b with
    | [] => s
    | r :: rest =>
      if reqLocked s b r then s
      else
        let s := { s with bank := { s.bank with queue := mlist s.bank.queue b rest } }
        refillBank b 8 (bankIssue b r err.mem s)

/-- BANK_OPERATION (R290). -/
def execBankOperation (b : Fin 2048) (direct : Bool) (err : BankErr) (s : State) : Host.Outcome State Fault Refusal :=
  .next (onFabric (b.val / 16) (bankOperation b direct err) s)

end Sys2Proof.Machine
end

