-- ==== Sys2Proof/Machine/Deadlock.lean ====
section
/-!
DEFINITION. Sys2Proof/Machine/Deadlock.lean: conservation reports (R135, R136), deadlock detection (R137, R138), its handling by halt or reclaim
(R139–R143), and the emptying of a released cluster (R120).
-/
namespace Sys2Proof.Machine
open Sys2Proof

/-! ### Blocked conditions (R137) -/

/-- A lane of one of the partition's clusters is in a slot or spill hold. -/
def blkHold (s : State) (p : Nat) : Bool :=
  (s.cl.slotHold.any fun e => s.cOwner (e.1 / 16) = p && holdsBack s (e.1 / 16) (e.1 % 16))
  || (s.cl.spillHold.any fun e => s.cOwner (e.1 / 16) = p && spillHolds s (e.1 / 16) (e.1 % 16))

/-- A PE of one of the partition's clusters is in a band-select stall: an ALLOC heads its lowest band and the cluster's wait list is full
(R130). -/
def blkStall (s : State) (p : Nat) : Bool :=
  (s.clustersOf p).any fun c =>
    64 ≤ (s.cl.waits.filter fun x => x.cluster = c).length
    && (List.range 16).any fun pe =>
      match s.headSlot c pe with
      | some x => opClass (iOpc (s.instr c (tagInstr x.tag))) = .alloc
      | none => false

/-- A queue slot of one of its clusters holds an enabled instance. -/
def blkInst (s : State) (p : Nat) : Bool := s.cl.slots.any fun x => s.cOwner x.cluster = p

/-- A flit of the partition waits for injection credit. -/
def blkCredit (s : State) (p : Nat) : Bool := waitsCredit s p

/-- An ALLOC of a best-effort partition waits in a wait list. -/
def blkAlloc (s : State) (p : Nat) : Bool :=
  s.get F.partStat_CRIT p = 3 && s.cl.waits.any fun x => tagPart x.tag = p

/-- R137: the partition is blocked. -/
def blocked (s : State) (p : Nat) : Bool := blkHold s p || blkStall s p || blkInst s p || blkCredit s p || blkAlloc s p

/-! ### Reports at a tick boundary (R136) -/

/-- R136: LIVE of a partition from its registers. -/
def live (s : State) (p : Nat) : Int := sdiff (w48 (s.get F.tokProd_COUNT p)) (w48 (s.get F.tokCons_COUNT p))

/-- Live tokens of an epoch, from the running counts (R195). -/
def epochLive (s : State) (p ep : Nat) : Int :=
  sdiff (w48 (mget 0 s.cl.cnt (p * 8 + 3 + 2 * ep))) (w48 (mget 0 s.cl.cnt (p * 8 + 4 + 2 * ep)))

/-- R136: the registers of a partition take the counts; a LIVE that turns negative is a COUNT_ERR fault. OLD_LIVE follows while a mode
change drains (R195). The blocked condition is sampled. -/
def reportCounts (p : Nat) (s : State) : State :=
  let was := live s p
  let s := s.set F.tokProd_COUNT p (mget 0 s.cl.cnt (p * 8))
  let s := s.set F.tokCons_COUNT p (mget 0 s.cl.cnt (p * 8 + 1))
  let s := s.set F.progress_COUNT p (mget 0 s.cl.cnt (p * 8 + 2))
  let s := if live s p < 0 ∧ 0 ≤ was then report 12 (loc 1 p) 0 (some p) false s else s
  let s := if s.flag F.modeStat_DRAINING p then
      s.set F.modeStat_OLD_LIVE p (min (epochLive s p (1 - s.epoch p)).toNat 0xFFFFFFFF) else s
  if blocked s p then s else { s with cl := { s.cl with unblocked := mput s.cl.unblocked p 1 } }

/-! ### Reclaim (R141–R143) -/

/-- R129: a block is younger than another. -/
def younger (s : State) (a b : Block) : Bool :=
  let x := sdiff a.t s.t
  let y := sdiff b.t s.t
  if x ≠ y then y < x
  else if a.region ≠ b.region then b.region < a.region
  else b.base < a.base

/-- The youngest block that a partition holds. -/
def youngest (s : State) (p : Nat) : Option Block :=
  (s.cl.blocks.filter fun b => b.part = p).foldl
    (fun acc b => match acc with | none => some b | some a => if younger s b a then some b else some a) none

/-- R141 item 1, R143: a reclaim step starts: the partition pauses. With no block held the partition is halted and takes a fault; with
four filter entries in use the step waits. From the start of its pause the block is no longer granted, so that a FREE of it which is applied
then is refused under R131 (DESIGN CHOICE, log 162). -/
def startReclaim (p : Nat) (s : State) : State :=
  match youngest s p with
  | none => report 13 (loc 1 p) 0 (some p) false (haltPartition p s)
  | some b =>
    if 4 ≤ (s.cl.filters.filter fun f => f.part = p).length then
      { s with cl := { s.cl with reclaimWait := s.cl.reclaimWait.filter (· ≠ p) ++ [p] } }
    else
      let s := { s with cl := { s.cl with
        blocks := s.cl.blocks.erase b
        reclaim := s.cl.reclaim ++ [(⟨p, b, 0⟩ : Reclaim)]
        reclaimWait := s.cl.reclaimWait.filter (· ≠ p) } }
      s.set F.dlStat_RECLAIMING p 1

/-- R138: a deadlock is declared for a partition. -/
def declare (p : Nat) (s : State) : State :=
  let s := (s.set F.dlStat_DETECTED p 1).inc F.dlStat_EPISODES p
  let s := (s.set F.dlStat_SRC_HOLD p (b2n (blkHold s p))).set F.dlStat_SRC_STALL p (b2n (blkStall s p))
  let s := (s.set F.dlStat_SRC_INST p (b2n (blkInst s p))).set F.dlStat_SRC_CREDIT p (b2n (blkCredit s p))
  let s := s.set F.dlStat_SRC_ALLOC p (b2n (blkAlloc s p))
  let s := raiseEvent (200 + p) s
  if s.pState p ≠ pBestEffort then
    -- admitted at criticality 0–2: a fault, and halt (R139)
    report 13 (loc 1 p) 0 (some p) false (haltPartition p s)
  else
    match s.get F.dlCtl_ACTION p with
    | 0 => startReclaim p s
    | 1 => haltPartition p s
    | _ => s

/-- R138: the detector evaluates a partition at a boundary of its window (DESIGN CHOICE, log 142). At a boundary inside a reclaim pause
nothing is declared (DESIGN CHOICE, log 162). -/
def evaluate (p : Nat) (s : State) : State :=
  if s.t.toNat % 2 ^ s.get F.dlCtl_WIN p ≠ 0 ∨ mfind s.cl.evalT p = some s.ticks then s
  else
    let was := mfind s.cl.progPrev p
    let unbroken := (mfind s.cl.unblocked p).isNone
    let prog := s.get F.progress_COUNT p
    let s := { s with cl := { s.cl with
      evalT := mput s.cl.evalT p s.ticks
      progPrev := mput s.cl.progPrev p prog
      unblocked := mdel s.cl.unblocked p } }
    let on := s.flag F.dlCtl_ENABLE p || s.pState p = pGuaranteed || s.pState p = pRevoked || s.pState p = pSuspended
    if s.pRuns p && on && was = some prog && live s p ≠ 0 && unbroken && blocked s p
        && !(s.cl.reclaim.any fun r => r.part = p) then declare p s else s

/-- DEADLOCK_EVALUATION (R138). -/
def execDeadlockEvaluation (p : Fin 8) (s : State) : Host.Outcome State Fault Refusal := .next (unlessFatal (evaluate p) s)

/-- R142: the notice of a reclaimed block. -/
def reclaimNotice (p : Nat) (b : Block) (win : Nat) (s : State) : State :=
  let i := poolIdx b.region p b.pool
  if !s.flag F.reclaimTgt_VALID i then s
  else
    let tag := mkTag (s.get F.reclaimTgt_PKG i) (s.get F.reclaimTgt_DIE i) (s.get F.reclaimTgt_CLUSTER i)
      (s.get F.reclaimTgt_ADDR i) (s.get F.reclaimTgt_PORT i) p 0 (s.epoch p)
    let t : Token := ⟨tag, s.t + BitVec.ofNat 48 (2 ^ win), poisonData causeReclaimed b.base, true⟩
    let s := countProd p (s.epoch p) s
    send (mkFlit 0 true (tokPay t) [] p (startUrg s p (dueBand s t.due)) (b.region * 4)) s

/-- RECLAIM_SWEEP_END: the sweep's removals, the log, the filter, the end of the pause and the notice (R141, R142). -/
def sweepEnd (p : Nat) (s : State) : State :=
  match s.cl.reclaim.find? fun r => r.part = p with
  | none => s
  | some r =>
    let b := r.block
    let win := s.get F.dlCtl_WIN p
    let (n, s) := removeWork p (fun t => tagPart t = p && b.base ≤ tagCtx t && tagCtx t < b.base + 2 ^ b.g) s
    let s := { s with cl := { s.cl with
      reclaim := s.cl.reclaim.filter fun r => r.part ≠ p
      filters := s.cl.filters ++ [(⟨p, b, s.ticks + 2 ^ win⟩ : Filter)] } }
    let s := ((s.set F.reclaimLog_BASE p b.base).set F.reclaimLog_G p b.g).set F.reclaimLog_REGION p b.region
    let s := (s.set F.reclaimLog_REMOVED p (min n 0xFFFF)).set F.reclaimLog_VALID p 1
    let s := (s.inc F.dlStat_RECLAIMS p).set F.dlStat_RECLAIMING p 0
    reclaimNotice p b win s

/-- RECLAIM_SWEEP_END (R141). -/
def execReclaimSweepEnd (p : Fin 8) (s : State) : Host.Outcome State Fault Refusal := .next (unlessFatal (sweepEnd p) s)

/-- FILTER_EXPIRY: the filter entry of the partition that ends first has lived its 2^WIN ticks: its block returns to its pool, and a step that waits for
an entry starts (R141, R143). A step that waited and then finds no block held ends as a declaration that finds none does: halt and a fault,
with no further declaration (DESIGN CHOICE, log 162). -/
def filterExpiry (p : Nat) (s : State) : State :=
  match minBy (fun f => (f.ends : Int)) (s.cl.filters.filter fun f => f.part = p) with
  | none => s
  | some f =>
    if s.ticks < f.ends then s
    else
      let s := { s with cl := { s.cl with filters := s.cl.filters.erase f } }
      if s.cl.reclaimWait.contains p then startReclaim p s else s

/-- FILTER_EXPIRY (R141). -/
def execFilterExpiry (p : Fin 8) (s : State) : Host.Outcome State Fault Refusal := .next (unlessFatal (filterExpiry p) s)

/-! ### Emptying a released cluster (R120, R130, R162) -/

/-- Empty a cluster's ways, queue slots, spill directory, record map, wait list, park entries and held lanes; user dispatch entries turn
invalid. -/
def emptyCluster (c : Nat) (s : State) : State :=
  let s := { s with cl := { s.cl with
    ways := s.cl.ways.filter fun e => e.1 / 8192 ≠ c
    chains := s.cl.chains.filter fun e => e.1 / 2048 ≠ c
    records := mdel s.cl.records c
    slots := s.cl.slots.filter fun x => x.cluster ≠ c
    slotHold := s.cl.slotHold.filter fun e => e.1 / 16 ≠ c
    spillHold := s.cl.spillHold.filter fun e => e.1 / 16 ≠ c
    waits := s.cl.waits.filter fun x => x.cluster ≠ c
    parks := s.cl.parks.filter fun x => x.cluster ≠ c
    seqHeld := s.cl.seqHeld.filter fun x => x.cluster ≠ c
    emptying := mdel s.cl.emptying c } }
  let s := s.set F.csStat_USER_VALID c 0
  (List.range 192).foldl (fun s k => s.set F.dispatch_VALID (c * 1024 + 768 + k) 0) s

/-- CLUSTER_EMPTIED: a cluster that Aperture released is empty (R120). -/
def execClusterEmptied (c : Fin 128) (s : State) : Host.Outcome State Fault Refusal :=
  .next (unlessFatal (fun s => if (mfind s.cl.emptying c).isSome then emptyCluster c s else s) s)

end Sys2Proof.Machine
end

