-- ==== Sys2Proof/Machine/Cert.lean ====
section
/-!
DEFINITION. Sys2Proof/Machine/Cert.lean: certificates: their words, records and scopes (R173–R177), as lists of numbers below 2^64.
-/
namespace Sys2Proof.Machine
open Sys2Proof

/-! ### CRC-32 (R173) -/

/-- One bit of the reflected CRC-32. -/
def crcBit (c : Nat) : Nat := if c % 2 = 1 then (c / 2) ^^^ 0xEDB88320 else c / 2

/-- One byte of the reflected CRC-32. -/
def crcByte (c b : Nat) : Nat := crcBit (crcBit (crcBit (crcBit (crcBit (crcBit (crcBit (crcBit (c ^^^ b))))))))

/-- The low n bytes of a number, lowest first. -/
def bytesOf : Nat → Nat → List Nat
  | 0, _ => []
  | n + 1, v => v % 256 :: bytesOf n (v / 256)

/-- CRC-32 of ISO/IEC 3309 over bytes. -/
def crc32 (bs : List Nat) : Nat := bs.foldl crcByte 0xFFFFFFFF ^^^ 0xFFFFFFFF

/-- CRC-32 over 64-bit words, byte 0 of a word being its bits [7:0]. -/
def crcWords (ws : List Nat) : Nat := (ws.foldl (fun c w => (bytesOf 8 w).foldl crcByte c) 0xFFFFFFFF) ^^^ 0xFFFFFFFF

/-! ### Records (R174) -/

/-- A record of a certificate: TYPE, KEY, the index of its header, its body words, and the mode of its bracket. -/
structure Rec where
  typ : Nat
  key : Nat
  at_ : Nat
  body : List Nat
  mode : Option Nat
  deriving DecidableEq, Repr

/-- Body word k (W1 is the first). -/
def Rec.word (r : Rec) (k : Nat) : Nat := r.body.getD (k - 1) 0

/-- A field of a body word. -/
def Rec.fld (r : Rec) (k lo n : Nat) : Nat := bits (r.word k) lo n

/-- The shared control memory: 6 MiB (R31). -/
def sharedBase : Nat := 0x800000
def sharedWords : Nat := 0xC0000

/-- Word i of the certificate at an offset, in 8-byte words. -/
def certWord (s : State) (off i : Nat) : Nat := s.readN (hubAddr (sharedBase + (off + i) * 8)) 8

/-- The words from an offset. -/
def certRead (s : State) (off n : Nat) : List Nat := (List.range n).map (certWord s off)

def tPartition : Nat := 0x01
def tCluster : Nat := 0x02
def tBank : Nat := 0x03
def tLink : Nat := 0x04
def tPool : Nat := 0x05
def tGranules : Nat := 0x06
def tSource : Nat := 0x07
def tTarget : Nat := 0x08
def tChain : Nat := 0x09
def tUserop : Nat := 0x0A
def tMode : Nat := 0x0B
def tRoutes : Nat := 0x0C
def tMigrate : Nat := 0x0D

/-- R177: the length of each type, header included; CHAIN has at least 4. -/
def lenOk (typ len : Nat) : Bool :=
  match typ with
  | 0x0D => len = 1
  | 0x01 | 0x03 | 0x04 | 0x08 | 0x0A => len = 2
  | 0x07 | 0x0B => len = 3
  | 0x05 => len = 4
  | 0x06 => len = 5
  | 0x0C => len = 32
  | 0x02 => len = 52
  | 0x09 => 4 ≤ len
  | _ => false

/-- R270: the number names a segment. -/
def segExists (g : Nat) : Bool :=
  match segClass g with
  | 0 | 1 => g < 16384 && g % 32 = 0
  | 2 => bits g 0 8 = 0
  | 3 => bits g 9 4 = 0 && bits g 4 5 ≤ 16 && bits g 0 3 = 0
  | 4 => g = segLens
  | 5 => g - 40960 < 4
  | _ => false

/-- R174: the KEY of a record: no bit outside the type's key, and within range. KEY holds bits [63:26]. -/
def keyOk (typ key modes : Nat) : Bool :=
  match typ with
  | 0x01 => key = 0
  | 0x02 | 0x0C => key < 128
  | 0x03 => key < 2048
  | 0x04 => key < 2 ^ 16 && segExists key
  | 0x05 => key < 128
  | 0x06 => key < 16
  | 0x07 => key ≤ 521
  | 0x08 =>
    let kind := bits key 0 4
    let idx := bits key 4 16
    key < 2 ^ 24 && targetOk (kind * 2 ^ 44 + idx)
  | 0x09 => key < 2 ^ 18
  | 0x0A => 768 ≤ key && key ≤ 959
  | 0x0B => key < modes
  | 0x0D => key < 2 ^ 14
  | _ => false

/-- R175: the three words of a PE in a CLUSTER record. -/
def peWordsOk (r : Rec) (p : Nat) : Bool :=
  let w := fun k => r.word (4 + 3 * p + k)
  let e := (List.range 4).map (fun i => bits (w 0) (13 * i) 13) ++ (List.range 4).map (fun i => bits (w 1) (13 * i) 13)
  let sorted := (e.zip (e.drop 1)).all fun x => x.1 ≤ x.2
  w 0 < 2 ^ 52 && w 1 < 2 ^ 52 && w 2 < 2 ^ 34 && sorted && e.getD 7 0 ≤ 4096
    && 1 ≤ bits (w 2) 25 5 && bits (w 2) 25 5 ≤ 16 && bits (w 2) 30 4 ≤ 8

/-- R174, R175, R177: the body of a record holds no reserved bit and no value out of range (DEDUCED, log 151). -/
def bodyOk (r : Rec) : Bool :=
  match r.typ with
  | 0x01 => r.word 1 < 2 ^ 12 && 8 ≤ r.fld 1 4 5 && r.fld 1 10 2 ≠ 3
  | 0x02 =>
    let cnt := r.fld 1 14 11
    r.word 1 < 2 ^ 47 && r.word 2 < 2 ^ 27 && cnt ≤ 1024
      && r.fld 1 36 11 ≤ cnt && r.fld 1 25 11 ≤ r.fld 1 36 11 && r.fld 2 14 7 ≤ 64
      && r.fld 1 4 10 + cnt ≤ 1024
      && (cnt ≠ 0 || (r.fld 1 0 4 = 0 && r.fld 1 4 10 = 0))
      && (List.range 16).all (peWordsOk r)
  | 0x03 | 0x04 => r.word 1 < 2 ^ 13
  | 0x05 => r.word 1 < 2 ^ 39 && r.fld 1 0 3 ≠ 7 && r.fld 1 11 9 ≤ 256 && r.word 2 < 2 ^ 32 && r.word 3 < 2 ^ 30
    && r.fld 3 15 2 ≠ 3 && r.fld 3 24 1 = 0
  | 0x06 => true
  | 0x07 => r.word 1 < 2 ^ 40 && 1 ≤ r.fld 1 32 8 && r.word 2 < 2 ^ 32
  | 0x08 => r.word 1 < 2 ^ 18 && r.fld 1 0 5 ≤ 16
  | 0x09 =>
    let kind := r.key % 4
    r.word 1 < 2 ^ 48 && r.word 2 < 2 ^ 48
      && (match kind with
          | 0 => r.fld 1 0 16 ≤ 521
          | 1 => r.fld 1 7 41 = 0 && r.word 2 = 0
          | 2 => r.fld 1 0 16 ≤ 521 && r.word 2 = 0
          | _ => r.fld 1 0 16 = 0)
      && (r.body.drop 2).all fun w => w < 2 ^ 35 && bits w 22 2 ≠ 3
  | 0x0A => r.word 1 < 2 ^ 34
  | 0x0B => r.word 1 < 2 ^ 9 && r.word 2 < 2 ^ 32
  | 0x0C => r.body.all fun w => w < 2 ^ 16 && bits w 12 3 = 0 && bits w 7 1 = 0
  | _ => true

/-- R176: the record may stand where it stands. -/
def placeOk (typ : Nat) (mode : Option Nat) : Bool :=
  match mode with
  | none => true
  | some m =>
    (typ = 0x02 || typ = 0x03 || typ = 0x04 || typ = 0x07 || typ = 0x08 || typ = 0x09 || typ = 0x0C)
      && !(typ = 0x0C && m = 0)

/-- The scope of a record: MODE records stand outside brackets. -/
def Rec.scope (r : Rec) : Option Nat := if r.typ = tMode then none else r.mode

/-- R173–R177: read the records from word i on. The result is the records, or the word of the first offending record. `ws` is the rest
of the certificate from word i. -/
def parseRecs (modes last : Nat) : Nat → Nat → Option Nat → List Nat → List Rec → Except Nat (List Rec)
  | 0, i, _, _, acc => if i = last then .ok acc.reverse else .error i
  | fuel + 1, i, mode, ws, acc =>
    if i = last then .ok acc.reverse
    else
      match ws with
      | [] => .error i
      | h :: rest =>
        let typ := h % 256
        let len := bits h 8 18
        let key := h / 2 ^ 26
        let mode' := if typ = tMode then some key else mode
        let r : Rec := ⟨typ, key, i, rest.take (len - 1), mode⟩
        if len = 0 ∨ last < i + len ∨ !lenOk typ len ∨ !keyOk typ key modes ∨ !bodyOk r
            ∨ !(typ = tMode || placeOk typ mode)
            ∨ (acc.any fun x => x.typ = typ && x.key = key && x.scope = r.scope)
            ∨ (typ = tPartition && acc.any fun x => x.typ = tPartition) then .error i
        else parseRecs modes last fuel (i + len) mode' (rest.drop (len - 1)) (r :: acc)

/-- A certificate that passed R177. -/
structure Cert where
  part : Nat
  crit : Nat
  pkgs : Nat
  modes : Nat
  id : Nat
  recs : List Rec
  deriving DecidableEq, Repr

/-- R177: parse the words of a certificate. -/
def parseCert (ws : List Nat) : Except Nat Cert :=
  let w := fun i => ws.getD i 0
  let n := ws.length
  if w 0 ≠ 0x014C4D4331 then .error 0
  else if n < 5 ∨ 131072 < n ∨ bits (w 1) 0 18 ≠ n ∨ w 1 / 2 ^ 44 ≠ 0 ∨ bits (w 1) 39 5 = 0 ∨ 16 < bits (w 1) 39 5 then .error 1
  else if w 2 / 2 ^ 32 ≠ 0 then .error 2
  else if w (n - 1) ≠ crcWords (ws.take (n - 1)) then .error (n - 1)
  else
    match parseRecs (bits (w 1) 39 5) (n - 1) n 3 none (ws.drop 3) [] with
    | .error e => .error e
    | .ok rs =>
      if rs.any fun r => r.typ = tPartition then
        .ok ⟨bits (w 1) 18 3, bits (w 1) 21 2, bits (w 1) 23 16, bits (w 1) 39 5, w 2, rs⟩
      else .error 0

/-- R177: the words of the certificate that a command names, or the word at which reading fails. -/
def fetchCert (s : State) (off : Nat) : Except Nat (List Nat) :=
  if sharedWords ≤ off + 1 then .error 0
  else
    let n := bits (certWord s off 1) 0 18
    if sharedWords < off + n then .error 1 else .ok (certRead s off n)

/-! ### What the records say (R176) -/

/-- The records of a type that describe a mode: those of its bracket, and those outside that none of its bracket replaces. -/
def Cert.of (k : Cert) (typ m : Nat) : List Rec :=
  let inside := k.recs.filter fun r => r.typ = typ && r.mode = some m && typ ≠ tMode
  let outside := k.recs.filter fun r => r.typ = typ && r.scope = none && !(inside.any fun x => x.key = r.key)
  if typ = tRoutes ∧ m = 0 then [] else outside ++ inside

/-- The record of a type and key for a mode. -/
def Cert.find (k : Cert) (typ key m : Nat) : Option Rec := (k.of typ m).find? fun r => r.key = key

/-- The PARTITION record. -/
def Cert.partition (k : Cert) : Rec := (k.recs.find? fun r => r.typ = tPartition).getD ⟨1, 0, 0, [], none⟩

/-- RM, TRAP and DRAIN of a mode. -/
def Cert.modeRec (k : Cert) (m : Nat) : Option Rec := k.recs.find? fun r => r.typ = tMode && r.key = m
def Cert.rm (k : Cert) (m : Nat) : Nat := match k.modeRec m with | some r => r.fld 1 0 2 | none => 0
def Cert.trap (k : Cert) (m : Nat) : Nat := match k.modeRec m with | some r => r.fld 1 2 7 | none => 0
def Cert.drain (k : Cert) (m : Nat) : Nat := match k.modeRec m with | some r => r.word 2 | none => 0

/-- The cluster indexes that the certificate names in any mode. -/
def Cert.clusters (k : Cert) : List Nat :=
  (List.range 128).filter fun c => k.recs.any fun r => r.typ = tCluster && r.key = c

/-- The modes. -/
def Cert.modeList (k : Cert) : List Nat := List.range k.modes

/-- The pairs of distinct modes. -/
def Cert.pairs (k : Cert) : List (Nat × Nat) :=
  k.modeList.flatMap fun a => (k.modeList.filter fun b => a < b).map fun b => (a, b)

/-- R178: the charge of a demand: the larger of any single mode's and, with two or more modes, the sum of any two distinct modes'. -/
def Cert.charge (k : Cert) (demand : Nat → Nat) : Nat :=
  let single := k.modeList.foldl (fun a m => max a (demand m)) 0
  k.pairs.foldl (fun a p => max a (demand p.1 + demand p.2)) single

/-- The charge of a demand over the modes that the ledger charges: given ones summed (R193, R195), or R178's figure. -/
def Cert.chargeOn (k : Cert) (ms : Option (List Nat)) (demand : Nat → Nat) : Nat :=
  match ms with
  | some l => (l.map demand).foldl (· + ·) 0
  | none => k.charge demand

end Sys2Proof.Machine
end

