-- ==== Sys2Proof/Machine/Admit.lean ====
section
/-!
DEFINITION. Sys2Proof/Machine/Admit.lean: the checks of an ADMIT or MIGRATE command in the order of R178: ownership, binding, code, contexts,
capacity (R170) and the response bound (R182–R185).
-/
namespace Sys2Proof.Machine
open Sys2Proof

/-- What a verification ends with: VERDICT, and RESOURCE, WORD and EXCESS of AP_DETAIL. -/
structure Verdict where
  code : Nat
  res : Nat
  word : Nat
  excess : Nat
  deriving DecidableEq, Repr

def vPass : Verdict := ⟨0x01, 15, 0, 0⟩
def vFail (code word : Nat) : Verdict := ⟨code, 15, word, 0⟩
def vBadcmd : Nat := 0x10
def vFormat : Nat := 0x11
def vOwnership : Nat := 0x12
def vBinding : Nat := 0x13
def vCode : Nat := 0x14
def vCapacity : Nat := 0x15
def vBound : Nat := 0x16
def vContext : Nat := 0x17
def vLoad : Nat := 0x18
def vTime : Nat := 0x19
def vAborted : Nat := 0x1A

/-- The move that a MIGRATE certificate describes; none for ADMIT. -/
structure Move where
  frm : Nat
  dst : Nat
  deriving DecidableEq, Repr

/-- The cluster whose stores hold what a cluster of the certificate will run: FROM's for TO. -/
def srcCluster (mv : Option Move) (c : Nat) : Nat :=
  match mv with | some m => if c = m.dst then m.frm else c | none => c

/-- A route that names FROM names TO after the move. -/
def dstCluster (mv : Option Move) (c : Nat) : Nat :=
  match mv with | some m => if c = m.frm then m.dst else c | none => c

/-! ### Ownership and binding (R178 items 2 and 3) -/

/-- Bank keys that a certificate names: BANK records, and the spill banks of CLUSTER records with SPILL_COUNT not 0. -/
def Cert.banks (k : Cert) : List (Nat × Nat) :=
  k.recs.filterMap fun r =>
    if r.typ = tBank then some (r.key % 128 * 16 + r.key / 128, r.at_)
    else if r.typ = tCluster ∧ r.fld 1 14 11 ≠ 0 then some (r.key * 16 + r.fld 1 0 4, r.at_)
    else none

/-- A target key of this package. -/
def targetHere (s : State) (key : Nat) : Bool := bits key 20 4 = s.pkg

/-- R428: a capture stream that is not in graph mode counts as assigned. -/
def streamTaken (s : State) (key : Nat) : Bool := bits key 0 4 = 3 && s.get F.capCfg_MODE (bits key 4 16) ≠ 1

/-- R172, R178: a target of this package belongs to another partition: assigned now, or by a mode of its certificate (DEDUCED, log 167). -/
def targetClaimed (s : State) (p key : Nat) : Bool :=
  let is := fun (t : Tgt) => t.kind = bits key 0 4 && t.index = bits key 4 16 && t.part ≠ p
  s.ap.tgts.any is || s.ap.oldTgts.any is
    || s.ap.certs.any fun e => e.1 ≠ p && (match parseCert e.2 with
        | .ok k => k.recs.any fun r => r.typ = tTarget && r.key = key
        | .error _ => false)

/-- A record that breaks the ownership check of an ADMIT, or 0 for a cluster with no record. -/
def ownershipAdmit (s : State) (p : Nat) (k : Cert) : Option Nat :=
  let mine := fun c => s.cState c = 1 && s.cOwner c = p
  let badC := k.recs.find? fun r => r.typ = tCluster && !mine r.key
  let missing := (List.range 128).any fun c => mine c && !k.clusters.contains c
  let badB := k.banks.find? fun b => s.get F.bankOwn_OWNER b.1 ≠ p || s.flag F.bankPwr_OFFLINE b.1
  let badT := k.recs.find? fun r => r.typ = tTarget && targetHere s r.key &&
    (streamTaken s r.key || targetClaimed s p r.key
      || s.ap.tgts.any fun t => t.kind = bits r.key 0 4 && t.index = bits r.key 4 16)
  match badC, missing, badB, badT with
  | some r, _, _, _ => some r.at_
  | none, true, _, _ => some 0
  | none, false, some b, _ => some b.2
  | none, false, none, some r => some r.at_
  | none, false, none, none => none

/-- The ownership check of a MIGRATE: its clusters are the partition's after the move, its banks and targets are the partition's own. -/
def ownershipMigrate (s : State) (p : Nat) (k : Cert) (mv : Move) : Option Nat :=
  let mine := fun c => if c = mv.dst then true else s.cOwner c = p && c ≠ mv.frm
  let badC := k.recs.find? fun r => r.typ = tCluster && !mine r.key
  let missing := (List.range 128).any fun c => mine c && s.cState c ≠ 4 && !k.clusters.contains c
  let badB := k.banks.find? fun b => s.get F.bankOwn_OWNER b.1 ≠ p || s.flag F.bankPwr_OFFLINE b.1
  let badT := k.recs.find? fun r => r.typ = tTarget && targetHere s r.key &&
    (streamTaken s r.key || targetClaimed s p r.key)
  match badC, missing, badB, badT with
  | some r, _, _, _ => some r.at_
  | none, true, _, _ => some 0
  | none, false, some b, _ => some b.2
  | none, false, none, some r => some r.at_
  | none, false, none, none => none

/-- A route entry as a word in the layout of RT_ENTRY. -/
def rtWord (s : State) (c n : Nat) : Nat :=
  let i := c * 32 + n
  s.get F.rtEntry_CLUSTER i + s.get F.rtEntry_DIE i * 16 + s.get F.rtEntry_PKG i * 256 + s.get F.rtEntry_VALID i * 2 ^ 15

/-- ICRC: CRC-32 over the 16-byte slots of all instructions, in address order (R175). -/
def icrc (s : State) (c : Nat) : Nat :=
  (List.range (32768 * 16)).foldl (fun a i => crcByte a (s.readByte (instrAddr c 0 + i)).toNat) 0xFFFFFFFF ^^^ 0xFFFFFFFF

/-- Mode 0's route entries 1–31 of a cluster: those loaded while it is LOADING, kept since admission afterwards. -/
def loadedRoutes (s : State) (c : Nat) : List Nat :=
  match (if s.cState c = 1 then none else mfind s.ap.loaded c) with
  | some l => l
  | none => (List.range 31).map fun n => rtWord s c (n + 1)

/-- R178 item 3: the CLUSTER record that breaks the binding. -/
def bindingBad (s : State) (k : Cert) (mv : Option Move) : Option Nat :=
  (k.recs.find? fun r => r.typ = tCluster &&
    (r.fld 3 0 32 ≠ icrc s (srcCluster mv r.key) || r.fld 3 32 32 ≠ crcWords (loadedRoutes s (srcCluster mv r.key)))).map (·.at_)

/-! ### Code (R178 item 4) -/

/-- A hop of a chain. -/
structure Hop where
  c : Nat
  addr : Nat
  port : Nat
  spilled : Nat
  refusals : Nat
  atrap : Nat
  deriving DecidableEq, Repr

def hopOf (w : Nat) : Hop := ⟨bits w 0 7, bits w 7 15, bits w 22 2, bits w 24 2, bits w 26 8, bits w 34 1⟩

/-- The hops of a CHAIN record. -/
def chainHops (r : Rec) : List Hop := (r.body.drop 2).map hopOf

def chainKind (r : Rec) : Nat := r.key % 4

/-- The verification of one certificate for a partition. -/
structure Vf where
  s : State
  p : Nat
  k : Cert
  mv : Option Move
  /-- a further certificate of the partition whose charges stand beside those of `k`: the other placement of a migration (R196, R199) -/
  also : Option Cert
  /-- the move whose stub costs a chain with a hop in TO (R196) -/
  stubMv : Option Move
  /-- the modes that the ledger charges; none stands for R178's rule -/
  modes : Option (List Nat)

/-- The instruction of a hop. -/
def Vf.instr (v : Vf) (h : Hop) : Nat := v.s.instr (srcCluster v.mv h.c) h.addr

/-- The route entry word n ≥ 1 of a cluster in a mode. -/
def Vf.routeWord (v : Vf) (m c n : Nat) : Nat :=
  match v.k.find tRoutes c m with
  | some r => if m = 0 then (loadedRoutes v.s (srcCluster v.mv c)).getD (n - 1) 0 else r.word n
  | none => (loadedRoutes v.s (srcCluster v.mv c)).getD (n - 1) 0

/-- The place that a destination field names in a mode: package and cluster index. -/
def Vf.dest (v : Vf) (m c d : Nat) : Option (Nat × Nat) :=
  if !dstV d then none
  else if dstRoute d = 0 then some (v.s.pkg, c)
  else
    let w := v.routeWord m c (dstRoute d)
    if bits w 15 1 = 0 then none
    else
      let x := cIdx (bits w 4 4) (bits w 0 4)
      if bits w 8 4 = v.s.pkg then some (v.s.pkg, dstCluster v.mv x) else some (bits w 8 4, x)

/-- The destination fields of a hop's instruction. -/
def Vf.dsts (v : Vf) (h : Hop) : List Nat := dstFields v.s (srcCluster v.mv h.c) h.addr (v.instr h)

/-- A hop is named by a valid destination field of the hop before it. -/
def Vf.linked (v : Vf) (m : Nat) (a b : Hop) : Bool :=
  (v.dsts a).any fun d => v.dest m a.c d = some (v.s.pkg, b.c) && dstAddr d = b.addr && dstPort d = b.port

/-- Consecutive hops are linked. -/
def Vf.chained (v : Vf) (m : Nat) (hs : List Hop) : Bool := (hs.zip (hs.drop 1)).all fun x => v.linked m x.1 x.2

/-- The first hop is the destination configured in the chain's source unit (TRIG_DST or CH_DST); firmware and the chain port name the
destinations of the other sources token by token. -/
def Vf.firstOk (v : Vf) (id : Nat) (h : Hop) : Bool :=
  let s := v.s
  if id < 256 then
    s.get F.trigDst_ADDR id = h.addr && s.get F.trigDst_PORT id = h.port && s.get F.trigDst_PKG id = s.pkg
      && dstCluster v.mv (cIdx (s.get F.trigDst_DIE id) (s.get F.trigDst_CLUSTER id)) = h.c
  else if id < 512 then
    let i := id - 256
    s.get F.chDst_ADDR i = h.addr && s.get F.chDst_PORT i = h.port && s.get F.chDst_PKG i = s.pkg
      && dstCluster v.mv (cIdx (s.get F.chDst_DIE i) (s.get F.chDst_CLUSTER i)) = h.c
  else true

/-- The last hop ends the chain as its kind asks. -/
def Vf.lastOk (v : Vf) (m : Nat) (r : Rec) (h : Hop) : Bool :=
  let w := v.instr h
  let cls := opClass (iOpc w)
  match chainKind r with
  | 1 => cls = .free
  | 2 => (v.dsts h).any fun d => match v.dest m h.c d with | some x => x.1 ≠ v.s.pkg | none => false
  | _ => (cls = .out || cls = .emitAt) && iK w = r.word 2

/-- The pool of the certificate that an ALLOC of size g in a region draws on: its key. -/
def Cert.poolFor (k : Cert) (region g : Nat) : Option Rec :=
  k.recs.find? fun r => r.typ = tPool && r.key % 32 = region && r.fld 1 0 3 = g && r.fld 1 11 9 ≠ 0

/-- The level of the pool that an ALLOC hop draws on. -/
def Vf.allocLevel (v : Vf) (h : Hop) : Option Nat :=
  let w := v.instr h
  if opClass (iOpc w) = .alloc then (v.k.poolFor (regionOf h.c) (iK w % 8)).map fun r => r.fld 1 20 4 else none

/-- R133 item 2 along a chain: each ALLOC draws on a higher level than the one before it. -/
def rising : List Nat → Bool
  | [] => true
  | [_] => true
  | a :: b :: l => a < b && rising (b :: l)

/-- R178 item 4 for one chain in one mode. Every hop lies in a cluster of the certificate, whose record gives its terms of R183 (DESIGN
CHOICE, log 147). -/
def Vf.chainOk (v : Vf) (m : Nat) (r : Rec) : Bool :=
  let hs := chainHops r
  match hs.head?, hs.getLast? with
  | some a, some z =>
    (match chainKind r with
     | 0 | 2 => v.firstOk (r.fld 1 0 16) a
     | 3 => opClass (iOpc (v.instr a)) = .timeAt
     | _ => true)
    && (hs.all fun h => (v.k.find tCluster h.c m).isSome) && v.chained m hs && v.lastOk m r z
    && (chainKind r = 3 || hs.all fun h =>
        let w := v.instr h
        !(opClass (iOpc w) = .timeAt) && !(opClass (iOpc w) = .tighten && kselMask w = 2))
    && rising (hs.filterMap v.allocLevel)
    && hs.all fun h => opClass (iOpc (v.instr h)) ≠ .alloc || (v.allocLevel h).isSome
  | _, _ => false

/-- The instructions of a class in the certificate's clusters: cluster and address. -/
def Vf.sites (v : Vf) (p : OpClass → Bool) : List (Nat × Nat) :=
  v.k.clusters.flatMap fun c =>
    ((List.range 32768).filter fun i =>
      let w := v.s.instr (srcCluster v.mv c) i
      w ≠ 0 && p (opClass (iOpc w))).map fun i => (c, i)

/-- What a USEROP record declares of its routine (R163, R174), and the destination fields that its widest form has. -/
structure UserDecl where
  issue : Nat
  lat : Nat
  parks : Nat
  reqs : Nat
  dsts : Nat
  deriving DecidableEq, Repr

/-- A path through a routine (R152): the next word, the micro-stack, the sequencer cycle of that word, the issue cost so far, the served
mask, the requests issued, the park entries that requests without WAIT hold, and the cycles from which MT0–MT3 can be read. -/
structure UserPath where
  upc : Nat
  stack : List Nat
  cyc : Nat
  issue : Nat
  served : Nat
  reqs : Nat
  held : Nat
  ready : List Nat
  deriving DecidableEq, Repr

/-- R150: the result delay of a unit operation, and the cycles for which it holds the sequencer. -/
def unitDelay (xu xop : Nat) : Nat × Nat :=
  match xu with
  | 2 => if xop = 3 ∨ xop = 4 then (22, 22) else if xop < 8 ∨ 16 ≤ xop then (2, 0) else (0, 0)
  | 3 => if xop = 2 ∨ xop = 4 ∨ xop = 5 then (2, 0) else (0, 0)
  | 4 => (25, 25)
  | _ => (0, 0)

/-- The source codes of a word (R149). -/
def uSources (w : Nat) : List Nat :=
  [uAsrc w, uBsrc w, uXa w, uXb w, uXc w, if uReq w = 0 then 0 else uRsrc w, if uEmit w = 0 then 0 else uEsrc w]

/-- The word reads a micro-temporary that is not ready before the given cycle; the cycle in which it executes (R152). -/
def uExecutes (w : Nat) (x : UserPath) : Nat :=
  let codes := uSources w ++ if uCond w = 6 then [6] else []
  codes.foldl (fun c k => if 6 ≤ k ∧ k ≤ 9 then max c (x.ready.getD (k - 6) 0) else c) x.cyc

/-- R152: a word of a path executes: the path after it, its successors' addresses aside, and the end of the cycle in which its first token
leaves the emit stage. A WAIT costs one cycle more before its successor (DEDUCED, log 168). -/
def uAdvance (d : UserDecl) (w : Nat) (x : UserPath) : UserPath × Nat :=
  let c := uExecutes w x
  let (delay, hold) := unitDelay (uXu w) (uXop w)
  let all := 2 ^ d.dsts - 1
  let left := d.dsts - ones 6 (x.served &&& all)
  let extra := if uEmit w = 2 then left - 1 else 0
  let put := fun (l : List Nat) (k at_ : Nat) => if k = 0 then l else l.set (k - 1) at_
  -- an output that nothing waits for takes no park entry
  let takes := uReq w ≠ 0 ∧ uReq w ≠ 9 ∧ uSeq w ≠ 6
  ({ x with
      cyc := c + 1 + hold + (if uSeq w = 6 then 1 else 0)
      issue := x.issue + 1 + (c - x.cyc) + hold + extra
      served := if uEmit w = 2 then x.served ||| all else if uEmit w = 1 then x.served ||| 2 ^ uEdst w else x.served
      reqs := if uReq w = 0 then x.reqs else x.reqs + 1
      held := if takes then x.held + 1 else x.held
      ready := put (put x.ready (uAdst w) (c + 1)) (uXd w) (c + 1 + delay) },
    5 + c + if uEsrc w = 15 ∧ uAlu w = 0 then delay else 0)

/-- R163: every path of a routine from a word on reaches END within the words left and within the user region, and keeps to its
declaration; a branch is followed both ways. A RESUME word's path reads no operand (`resume`). -/
def pathOk (g : Golden) (d : UserDecl) (resume : Bool) : Nat → UserPath → Bool
  | 0, _ => false
  | n + 1, x =>
    let w := mget 0 g.words x.upc
    let m : MicroSt := ⟨x.upc, x.stack, [], 0, none, none, 0, 0, 0, 0, 0⟩
    let (y, leaves) := uAdvance d w x
    parityGroups w = 0 && !uBad m w && y.reqs ≤ d.reqs && y.issue ≤ d.issue && (uEmit w = 0 || leaves ≤ d.lat)
    && y.held + (if uSeq w = 6 then 1 else 0) ≤ d.parks
    && !(resume && ((uSources w).any (fun k => 1 ≤ k && k ≤ 3) || uCond w = 5))
    && (match uSeq w with
     | 1 => pathOk g d resume n { y with upc := uTarget w }
     | 2 => pathOk g d resume n { y with upc := uTarget w } && (uCond w = 0 || pathOk g d resume n { y with upc := x.upc + 1 })
     | 3 => pathOk g d resume n { y with upc := uTarget w, stack := x.stack ++ [x.upc + 1] }
     | 4 => pathOk g d resume n { y with upc := x.stack.getLastD 0, stack := x.stack.dropLast }
     | 5 => true
     | _ => pathOk g d resume n { y with upc := x.upc + 1 })

/-- Some path of a routine issues a READ. -/
def issuesRead (g : Golden) (d : UserDecl) (entry : Nat) : Bool :=
  let rec go : Nat → UserPath → Bool
    | 0, _ => false
    | n + 1, x =>
      let w := mget 0 g.words x.upc
      let (y, _) := uAdvance d w x
      uReq w = 3 || (match uSeq w with
        | 1 => go n { y with upc := uTarget w }
        | 2 => go n { y with upc := uTarget w } || go n { y with upc := x.upc + 1 }
        | 3 => go n { y with upc := uTarget w, stack := x.stack ++ [x.upc + 1] }
        | 4 => go n { y with upc := x.stack.getLastD 0, stack := x.stack.dropLast }
        | 5 => false
        | _ => go n { y with upc := x.upc + 1 })
  go 512 ⟨entry, [], 1, 0, 0, 0, 0, [0, 0, 0, 0]⟩

/-- R163, R178: a USEROP record matches its dispatch entry in every user set that the certificate names, and its routine keeps to it. -/
def Vf.userOk (v : Vf) (r : Rec) : Bool :=
  let sets := (v.k.recs.filter fun x => x.typ = tCluster && x.fld 2 26 1 = 1).map fun x => x.fld 2 21 5
  !sets.isEmpty && sets.all fun n =>
    match mfind v.s.mc.gUser n with
    | none => false
    | some g =>
      let e := mget 0 g.disp r.key
      let d : UserDecl := ⟨r.fld 1 6 10, r.fld 1 16 10, r.fld 1 26 4, r.fld 1 30 4, if r.fld 1 4 1 = 1 then 3 else 1⟩
      let start := fun (u : Nat) => (⟨u, [], 1, 0, 0, 0, 0, [0, 0, 0, 0]⟩ : UserPath)
      bits e 31 1 = 1 && bits e 22 3 = r.fld 1 0 3 && bits e 25 1 = r.fld 1 3 1 && bits e 26 1 = r.fld 1 4 1
        && bits e 27 1 = r.fld 1 5 1
        && pathOk g d false 512 (start (bits e 0 11))
        && (!issuesRead g d (bits e 0 11) || pathOk g d true 512 (start (bits e 11 11)))

/-- R133 item 4: the pool holds a block that does not contain context 0. -/
def poolCredit (r : Rec) : Bool :=
  let blocks := r.fld 1 11 9 * 64 / 2 ^ r.fld 1 0 3
  r.fld 1 11 9 = 0 || (if r.fld 1 3 8 = 0 then 2 ≤ blocks else 1 ≤ blocks)

/-- R178 item 4 and R185: the record that breaks the code check, 0 where no record is at fault. -/
def Vf.codeBad (v : Vf) : Option Nat :=
  let chains := v.k.modeList.flatMap fun m => (v.k.of tChain m).map fun r => (m, r)
  let allocs := v.sites fun c => c = .alloc
  let poolOfSite := fun (x : Nat × Nat) => v.k.poolFor (regionOf x.1) (iK (v.s.instr (srcCluster v.mv x.1) x.2) % 8)
  match chains.find? fun x => !v.chainOk x.1 x.2 with
  | some x => some x.2.at_
  | none =>
    match v.k.recs.find? fun r => r.typ = tUserop && !v.userOk r with
    | some r => some r.at_
    | none =>
      if allocs.any fun x => (poolOfSite x).isNone then some 0
      else
        match v.k.recs.find? fun r => r.typ = tPool && (!poolCredit r
            || ((allocs.any fun x => poolOfSite x = some r)
              && !(v.k.recs.any fun c => c.typ = tChain && chainKind c = 1 && c.fld 1 0 5 = r.key % 32 && c.fld 1 5 2 = r.key / 32))) with
        | some r => some r.at_
        | none => none

/-! ### Contexts (R124, R125) -/

/-- The granules of a POOL record. -/
def poolGranules (r : Rec) : List Nat := (List.range (r.fld 1 11 9)).map (· + r.fld 1 3 8)

/-- R178 item 6: the record that breaks R125, or R124: the granules of this package are those of its pools and those listed for it. -/
def Vf.contextBad (v : Vf) : Option Nat :=
  let pools := v.k.recs.filter fun r => r.typ = tPool
  let others := v.k.recs.filter fun r => r.typ = tGranules && r.key ≠ v.s.pkg
  let own := v.k.recs.filter fun r => r.typ = tGranules && r.key = v.s.pkg
  let listed := fun (g : Nat) => others.any fun r => bits (r.word (g / 64 + 1)) (g % 64) 1 = 1
  (pools.find? fun r =>
    256 < r.fld 1 3 8 + r.fld 1 11 9
    || (pools.any fun x => x.at_ < r.at_ && (poolGranules x).any fun g => (poolGranules r).contains g)
    || (pools.any fun x => x.at_ < r.at_ && x.key % 32 = r.key % 32 && x.fld 1 0 3 = r.fld 1 0 3)
    || (poolGranules r).any listed
    ).orElse (fun _ => others.find? fun r => own.any fun x => (List.range 4).any fun k => r.word (k + 1) &&& x.word (k + 1) ≠ 0)
    |>.map (·.at_)

/-! ### Capacity (R170) -/

/-- F of R270: flit cycles that one flit occupies on a segment. -/
def segF (g : Nat) : Nat := if segClass g = 4 then 2 else if segClass g = 5 then 4 else 1

/-- The LINK quota of a mode on a segment, in flits. -/
def Cert.quota (k : Cert) (g m : Nat) : Nat := match k.find tLink g m with | some r => r.fld 1 0 13 | none => 0

/-- The LINK charge of a certificate on a segment under R178. -/
def Cert.link (k : Cert) (g : Nat) : Nat := k.charge (k.quota g)

/-- The packages of PKGS. -/
def Cert.packages (k : Cert) : List Nat := (List.range 16).filter fun i => k.pkgs / 2 ^ i % 2 = 1

/-- The certificate that an admitted partition holds. -/
def admitted (s : State) (p : Nat) : Option Cert :=
  match mfind s.ap.certs p with
  | some ws => match parseCert ws with | .ok k => some k | .error _ => none
  | none => none

/-- The certificate of the other placement while a partition migrates: TO's until the switch, then FROM's until the drain (R196, R199). -/
def otherPlacement (s : State) (p : Nat) : Option Cert :=
  (s.ap.migs.find? fun g => g.part = p).bind fun g =>
    match parseCert (if g.switched then g.old else g.cert) with | .ok k => some k | .error _ => none

/-- The modes that the ledger charges for an admitted partition: every mode under R178 until its first mode change has ended, then the
mode alone, with the mode that a further change brings beside it (R195; DEDUCED, log 169). -/
def chargedModes (s : State) (p : Nat) : Option (List Nat) :=
  (mfind s.ap.alone p).map fun m =>
    if s.flag F.modeStat_STAGING p || s.flag F.modeStat_DRAINING p then [m, s.get F.modeStat_TARGET p] else [m]

/-- A demand of a partition in the ledger: its certificate's, and during a migration both placements' (DESIGN CHOICE, log 170). -/
def ledgerDemand (k : Cert) (also : Option Cert) (ms : Option (List Nat)) (f : Cert → Nat → Nat) : Nat :=
  k.chargeOn ms (f k) + match also with | some o => o.chargeOn ms (f o) | none => 0

/-- A partition's LINK charge in the ledger. -/
def ledgerLink (s : State) (p g : Nat) : Nat :=
  match admitted s p with
  | some k => if s.ap.uncharged.contains p then 0 else ledgerDemand k (otherPlacement s p) (chargedModes s p) fun k => k.quota g
  | none => 0

/-- An admitted partition as the ledger stands. -/
def ledgerVf (s : State) (p : Nat) (k : Cert) : Vf :=
  let stub := (s.ap.migs.find? fun g => g.part = p && g.switched).map fun g => (⟨g.frm, g.dst⟩ : Move)
  ⟨s, p, k, none, otherPlacement s p, stub, chargedModes s p⟩

/-- A demand of the certificate under verification. -/
def Vf.demand (v : Vf) (f : Cert → Nat → Nat) : Nat := ledgerDemand v.k v.also v.modes f

/-- Q(ℓ) of R182, weighted with F: every other partition is taken at its full LINK quota (R171; DESIGN CHOICE, log 145). -/
def Vf.q (v : Vf) (g : Nat) : Nat :=
  segF g * (v.demand (fun k => k.quota g) + (((List.range 8).filter (· ≠ v.p)).map fun q => ledgerLink v.s q g).foldl (· + ·) 0)

/-- R169: the capacity of a segment in one accounting window: 4,096 flit cycles, or what the interconnect reports it reduced to. -/
def segCapacity (s : State) (g : Nat) : Nat := mget 4096 s.ap.segCap g

/-- A field of the CLUSTER record of a cluster in a mode. -/
def Cert.cl (k : Cert) (c m word lo n : Nat) : Nat := match k.find tCluster c m with | some r => r.fld word lo n | none => 0

/-- A PE field: word 0–2 of the PE's three words. -/
def Cert.pe (k : Cert) (c m p word lo n : Nat) : Nat := k.cl c m (4 + 3 * p + word) lo n

/-- E_b of a PE. -/
def Cert.e (k : Cert) (c m p b : Nat) : Nat := k.pe c m p (b / 4) (13 * (b % 4)) 13

/-- Spill records that a cluster holds: COUNT of its SPILL_CFG, for TO of a migration that of its record, which is written later (R170, R195). -/
def Vf.spillCap (v : Vf) (c : Nat) : Nat :=
  if v.mv.any fun m => c = m.dst then (v.k.modeList.map fun m => v.k.cl c m 1 14 11).foldl max 0 else v.s.get F.spillCfg_COUNT c

/-- Demands of a certificate with their resource, capacity and record: R170, in the order of the Ids (DESIGN CHOICE, log 148). -/
def Vf.demands (v : Vf) : List (Nat × Nat × Nat × Nat) :=
  let k := v.k
  let cs := k.clusters
  let at_ := fun c => ((k.recs.find? fun r => r.typ = tCluster && r.key = c).map (·.at_)).getD 0
  let d := fun (res cap rec : Nat) (f : Nat → Nat) => (res, k.chargeOn v.modes f, cap, rec)
  let both := fun (res cap rec : Nat) (f : Cert → Nat → Nat) => (res, v.demand f, cap, rec)
  let pes := List.range 16
  let keys := fun (t : Nat) => ((k.recs.filter fun r => r.typ = t).map fun r => (r.key, r.at_))
  (cs.flatMap fun c => pes.flatMap fun p =>
    [d 0 4096 (at_ c) (fun m => k.e c m p 7), d 0 8 (at_ c) (fun m => k.pe c m p 2 30 4)])
  ++ (cs.flatMap fun c => pes.map fun p => d 1 16 (at_ c) (fun m => k.pe c m p 2 25 5))
  ++ (cs.map fun c => d 1 64 (at_ c) (fun m => k.cl c m 2 14 7))
  ++ ((keys tTarget).map fun x => both 1 16 x.2 (fun k m => match k.find tTarget x.1 m with | some r => r.fld 1 0 5 | none => 0))
  ++ (cs.map fun c => d 2 8192 (at_ c) (fun m => k.cl c m 2 0 14))
  ++ (cs.flatMap fun c =>
      let cap := v.spillCap c
      [d 3 cap (at_ c) (fun m => k.cl c m 1 36 11), d 3 cap (at_ c) (fun m => k.cl c m 1 25 11)])
  ++ ((keys tBank).map fun x =>
      let cap := if v.s.flag F.bankPwr_OFFLINE (x.1 % 128 * 16 + x.1 / 128) then 0 else 4096
      both 4 cap x.2 (fun k m => match k.find tBank x.1 m with | some r => r.fld 1 0 13 | none => 0))
  ++ ((keys tLink).map fun x => (5, v.q x.1, segCapacity v.s x.1, x.2))

/-- R178 item 7: the first demand above its capacity. -/
def Vf.capacity (v : Vf) : Option Verdict :=
  (v.demands.find? fun x => x.2.2.1 < x.2.1).map fun x => ⟨vCapacity, x.1, x.2.2.2, min (x.2.1 - x.2.2.1) 0xFFFFFF⟩

/-! ### The response bound (R182–R185): `none` stands for infinity -/

/-- R182: fix(base, E). -/
def fixIter (base e : Nat) : Nat → Nat → Option Nat
  | 0, _ => none
  | n + 1, x =>
    if 2 ^ 32 ≤ x then none
    else
      let y := base + e * (x / 4096 + 1)
      if y ≤ x then some x else fixIter base e n y

def fix (base e : Nat) : Option Nat := fixIter base e 10000 (base + e)

/-- Sum of bounds. -/
def bSum (l : List (Option Nat)) : Option Nat := l.foldl (fun a x => a.bind fun a => x.map (a + ·)) (some 0)

/-- The segments of the route from a node. -/
def walk (s : State) (d : Dest) (lens : Bool) : Nat → Nat → Option Nat → List Nat
  | 0, _, _ => []
  | n + 1, node, via =>
    match routeAt s node via d lens with
    | none => []
    | some g => g :: (if 146 ≤ segTo g then [] else walk s d lens n (segTo g) (some g))

/-- The hop figures of R279 for a segment. -/
def segTau (g : Nat) : Nat :=
  match segClass g with
  | 0 | 1 => 4
  | 2 => 36
  | 3 => 16
  | _ => 0

/-- The figure of an end of a route: a cluster port 2, the hub ring stop 24. -/
def endTau (node : Nat) : Nat := if node < 128 then 2 else 24

/-- R183: xfer between two nodes, with the Lens query port at the end where asked. -/
def Vf.xfer (v : Vf) (a : Nat) (d : Dest) (lens : Bool) : Option Nat :=
  let b := if d.pkg ≠ v.s.pkg ∨ d.die = 8 then nodeHub else cIdx d.die d.cluster
  if a = b then some 0
  else
    let segs := walk v.s d lens 64 a none
    bSum (some (endTau a + endTau b + (segs.map segTau).foldl (· + ·) 0) :: segs.map fun g => fix 3 (v.q g))

/-- R279: the chain hops to another package: 192 cycles each, and the chain segments after the first with this package's charges on its own
(DESIGN CHOICE, log 171). -/
def Vf.hopsTo (v : Vf) (pkg : Nat) : Option Nat :=
  let n := if v.s.pkg < pkg then pkg - v.s.pkg else v.s.pkg - pkg
  bSum (some (192 * n) :: List.replicate (n - 1) (fix 3 (v.q (segChain (if v.s.pkg < pkg then 0 else 2)))))

/-- xfer from a node to a place in any package. A cluster of another package is reached from its hub, over segments charged as this
package's are (DESIGN CHOICE, log 171). -/
def Vf.xferFar (v : Vf) (a : Nat) (d : Dest) : Option Nat :=
  if d.pkg = v.s.pkg then v.xfer a d false
  else bSum [v.xfer a d false, v.hopsTo d.pkg, if d.die = 8 then some 0 else v.xfer nodeHub ⟨v.s.pkg, d.die, d.cluster⟩ false]

/-- The destination of a cluster or of the hub of this package. -/
def Vf.toCluster (v : Vf) (c : Nat) : Dest := ⟨v.s.pkg, c / 16, c % 16⟩
def Vf.toHub (v : Vf) : Dest := ⟨v.s.pkg, 8, 0⟩

/-- LAT of R70 and of R152 for a user operation; OUT and EMIT-AT are charged 6 cycles to their output flit. -/
def Vf.lat (v : Vf) (o : Nat) : Nat :=
  match opClass o with
  | .integer => if 0x01F ≤ o ∧ o ≤ 0x023 then 31 else 6
  | .float => if o = 0x063 ∨ o = 0x064 then 28 else if o ≤ 0x066 then 8 else 6
  | .conversion => 8
  | .complex => if o = 0x082 ∨ o = 0x084 ∨ o = 0x085 then 8 else 6
  | .alloc => 14
  | .load | .store | .read | .write | .iclr => 8
  | .fetchAdd | .swap => 10
  | .user => match v.k.recs.find? fun r => r.typ = tUserop && r.key = o with | some r => r.fld 1 16 10 | none => 6
  | _ => 6

/-- The operand ports that an instruction takes from tokens. -/
def Vf.ports (v : Vf) (h : Hop) : Nat :=
  let w := v.instr h
  if opClass (iOpc w) = .merge then 1 else ones 3 (portMask v.s (srcCluster v.mv h.c) w)

/-- resp(i) of R183, where OPS of a BANK record is the sum of R292's operation cycles. A bank operation with a fixed address meets that bank; one with a computed address any bank of the certificate. -/
def Vf.resp (v : Vf) (m : Nat) (h : Hop) : Option Nat :=
  let w := v.instr h
  let hub := bSum [some 39, v.xfer h.c v.toHub true, v.xfer nodeHub (v.toCluster h.c) false]
  let bank := fun (pkg b : Nat) =>
    let ops := match v.k.find tBank (b / 16 + 128 * (b % 16)) m with | some r => if pkg = v.s.pkg then r.fld 1 0 13 else 0 | none => 0
    let way := v.xferFar h.c ⟨pkg, b / 256, b / 16 % 16⟩
    bSum [fix 0 ops, way, way]
  match opClass (iOpc w) with
  | .angleAt | .timeAt => hub
  | .load | .store | .read | .write | .iclr | .fetchAdd | .swap =>
    if kselMask w = 1 then
      let a := w48 (iK w)
      bank (tagPkg a) (cIdx (tagDie a) (tagCluster a) * 16 + addrBank a)
    else
      (v.k.banks.map fun b => bank v.s.pkg b.1).foldl
        (fun a x => a.bind fun a => x.map (max a)) (some 0)
  | _ => some 0

/-- alloc(i) of R185. -/
def Vf.alloc (v : Vf) (h : Hop) : Nat :=
  let w := v.instr h
  if opClass (iOpc w) ≠ .alloc then 0
  else
    match v.k.poolFor (regionOf h.c) (iK w % 8) with
    | none => 0
    | some r =>
      let blocks := r.fld 1 11 9 * 64 / 2 ^ r.fld 1 0 3 - (if r.fld 1 3 8 = 0 then 1 else 0)
      let above := r.fld 1 24 15 - blocks
      if blocks = 0 then 0
      else (24 * r.word 2 * ((above + blocks - 1) / blocks) + 4) / 5

/-- hop(i) of R183, with the slack σ(i). -/
def Vf.hop (v : Vf) (m : Nat) (h : Hop) (sigma : Int) : Option Nat :=
  let w := v.instr h
  let p := h.addr % 16
  let b := min (iBand w) (bandOf sigma)
  let n := v.ports h
  bSum [fix 0 (v.k.pe h.c m p 2 0 13), some 1,
    some (if 2 ≤ n then 4 * (v.k.cl h.c m 1 25 11 + n) else 0), some 1,
    fix (v.k.pe h.c m p 2 13 12) (v.k.e h.c m p b),
    some (v.lat (iOpc w) + 7 * h.spilled + 4 * h.refusals + 3 * h.atrap), v.resp m h, some (v.alloc h)]

/-- D_s of a chain's source, HORIZON of a HORIZON chain; a source without a record stamps T + 1,048,576 (R180). A RELEASE chain has no
source: its hops are taken in the highest band (DESIGN CHOICE, log 147). -/
def Vf.d0 (v : Vf) (m : Nat) (r : Rec) : Int :=
  match chainKind r with
  | 1 => 2 ^ 40
  | 3 => r.fld 1 16 32
  | _ => match v.k.find tSource (r.fld 1 0 16) m with | some x => x.word 2 | none => 1048576

/-- The hops with σ(i), and D(c) last. -/
def Vf.sigmas (v : Vf) : Int → List Hop → List (Hop × Int) × Int
  | d, [] => ([], d)
  | d, h :: hs =>
    let d' := d - iDoff (v.instr h)
    let (l, e) := Vf.sigmas v d' hs
    ((h, d') :: l, e)

/-- D(c) of R182. -/
def Vf.dOf (v : Vf) (m : Nat) (r : Rec) : Int := (v.sigmas (v.d0 m r) (chainHops r)).2

/-- The stub's cost that a migration adds to a chain with a hop in TO (R196). -/
def Vf.stub (v : Vf) (m : Nat) (hs : List Hop) : Option Nat :=
  match v.stubMv with
  | none => some 0
  | some mv =>
    match hs.find? fun h => h.c = mv.dst with
    | none => some 0
    | some h =>
      let lane := match v.also with | some old => old.pe mv.frm m (h.addr % 16) 2 0 13 | none => 0
      bSum [v.xfer mv.frm (v.toCluster mv.dst) false, fix 0 lane, some 1]

/-- R(c) of R183. -/
def Vf.rOf (v : Vf) (m : Nat) (r : Rec) : Option Nat :=
  let hs := chainHops r
  match hs.head?, hs.getLast? with
  | some a, some z =>
    let start := match chainKind r with | 0 | 2 => v.xfer nodeHub (v.toCluster a.c) false | _ => some 0
    let fin :=
      match chainKind r with
      | 1 => v.xfer z.c (v.toCluster (r.fld 1 0 5 * 4)) false
      | 2 =>
        match (v.dsts z).filterMap (fun d => (v.dest m z.c d).bind fun x => if x.1 ≠ v.s.pkg then some x.1 else none) with
        | k :: _ => v.xfer z.c ⟨k, 8, 0⟩ false
        | [] => some 0
      | _ => v.xferFar z.c ⟨bits (r.word 2) 40 4, 8, 0⟩
    bSum ([start, fin, v.stub m hs]
      ++ ((v.sigmas (v.d0 m r) hs).1.map fun x => v.hop m x.1 x.2)
      ++ ((hs.zip (hs.drop 1)).map fun x => v.xfer x.1.c (v.toCluster x.2.c) false))
  | _, _ => some 0

/-- ticks(c) of R183. -/
def Vf.ticks (v : Vf) (m : Nat) (r : Rec) : Option Nat := (v.rOf m r).map fun x => (x * 5 + 23) / 24 + 1

/-- The limit that R184 and R185 set on ticks(c). -/
def Vf.limit (v : Vf) (m : Nat) (r : Rec) : Int :=
  match chainKind r with
  | 0 =>
    let z := (chainHops r).getLast?
    let same := (v.k.of tChain m).filter fun x => chainKind x = 0 && (chainHops x).getLast?.map (fun h => (h.c, h.addr)) = z.map fun h => (h.c, h.addr)
    same.foldl (fun a x => min a (v.dOf m x - x.fld 1 16 32)) (v.dOf m r - r.fld 1 16 32)
  | 1 =>
    match v.k.recs.find? fun x => x.typ = tPool && x.key % 32 = r.fld 1 0 5 && x.key / 32 = r.fld 1 5 2 with
    | some x => x.word 2
    | none => 2 ^ 40
  | 2 => v.dOf m r - r.fld 1 16 32
  | _ => r.fld 1 16 32

/-- R185: the RELEASE chains from the highest pool level downward, then the others. -/
def Vf.boundOrder (v : Vf) : List (Nat × Rec) :=
  let chains := v.k.modeList.flatMap fun m => (v.k.of tChain m).map fun r => (m, r)
  let level := fun (r : Rec) => ((v.k.recs.find? fun x => x.typ = tPool && x.key % 32 = r.fld 1 0 5 && x.key / 32 = r.fld 1 5 2).map fun x => x.fld 1 20 4).getD 0
  ((List.range 16).reverse.flatMap fun l => chains.filter fun x => chainKind x.2 = 1 && level x.2 = l) ++ chains.filter fun x => chainKind x.2 ≠ 1

/-- R180, R184: the Lens triggers and sample channels of the partition. -/
def Vf.sources (v : Vf) : List Nat :=
  ((List.range 256).filter fun i => v.s.flag F.trigCfg_EN i && v.s.get F.trigCfg_PART i = v.p)
  ++ ((List.range 256).filter fun i => v.s.flag F.chCfg_EN i && v.s.get F.chCfg_PART i = v.p).map (· + 256)

/-- R184, R185: the first failure of the bounds. -/
def Vf.boundBad (v : Vf) : Option Verdict :=
  let chains := v.boundOrder
  let above := fun (x : Nat × Rec) => match v.ticks x.1 x.2 with
    | some t => if (t : Int) ≤ v.limit x.1 x.2 then none else some (((t : Int) - v.limit x.1 x.2).toNat)
    | none => some 0xFFFFFF
  match chains.find? fun x => (above x).isSome with
  | some x => some ⟨vBound, 15, x.2.at_, min ((above x).getD 0) 0xFFFFFF⟩
  | none =>
    if v.k.crit = 3 then none
    else
      let outs := v.sites fun c => c = .out || c = .emitAt
      let ends := chains.filterMap fun x =>
        if chainKind x.2 = 0 ∨ chainKind x.2 = 3 then ((chainHops x.2).getLast?).map fun h => (h.c, h.addr) else none
      let missing := outs.any fun o => !ends.contains o
      let bare := v.k.modeList.any fun m => v.sources.any fun i => (v.k.find tSource i m).isNone
      let noSrc := chains.find? fun x => (chainKind x.2 = 0 || chainKind x.2 = 2) && (v.k.find tSource (x.2.fld 1 0 16) x.1).isNone
      match noSrc, missing || bare with
      | some x, _ => some ⟨vBound, 15, x.2.at_, 0⟩
      | none, true => some ⟨vBound, 15, 0, 0⟩
      | none, false => none

/-- The largest ticks(c) of the certificate's chains (R188). -/
def Vf.maxTicks (v : Vf) : Nat :=
  (v.k.modeList.flatMap fun m => (v.k.of tChain m).map fun r => (v.ticks m r).getD (2 ^ 32)).foldl max 0

/-! ### The whole verification (R178) -/

/-- R162: every word of the user sets that the certificate names passes its parity check. -/
def userSetsGood (s : State) (k : Cert) : Bool :=
  (k.recs.filter fun r => r.typ = tCluster && r.fld 2 26 1 = 1).all fun r =>
    match mfind s.mc.gUser (r.fld 2 21 5) with
    | some g => g.words.all fun w => parityGroups w.2 = 0
    | none => false

/-- Some CLUSTER record names a user set to load. -/
def Cert.loadsUser (k : Cert) : Bool := k.recs.any fun r => r.typ = tCluster && r.fld 2 26 1 = 1

/-- R178: verify the certificate that a command read at its start (R173) for a partition. `loadOk` is what the MC's read-back of the loaded words gives. -/
def verify (s : State) (p : Nat) (x : ApRun) (mig : Bool) (loadOk : Bool) : Verdict × Option (Cert × List Nat × Option Move) :=
  match x.bad with
  | some w => (vFail vFormat w, none)
  | none =>
    match parseCert x.cert with
    | .error w => (vFail vFormat w, none)
    | .ok k =>
      let mv := if mig then (k.recs.find? fun r => r.typ = tMigrate).map fun r => (⟨r.key % 128, r.key / 128⟩ : Move) else none
      let v : Vf := ⟨s, p, k, mv, if mig then admitted s p else none, mv, none⟩
      if k.part ≠ p then (vFail vFormat 1, none)
      else if mig && (mv.isNone || (k.recs.filter fun r => r.typ = tMigrate).length ≠ 1) then (vFail vFormat 1, none)
      else
        match (match mv with | some m => ownershipMigrate s p k m | none => ownershipAdmit s p k) with
        | some w => (vFail vOwnership w, none)
        | none =>
          match bindingBad s k mv with
          | some w => (vFail vBinding w, none)
          | none =>
            match v.codeBad with
            | some w => (vFail vCode w, none)
            | none =>
              if !mig && !(userSetsGood s k && (loadOk || !k.loadsUser)) then (vFail vLoad 0, none)
              else
                match v.contextBad with
                | some w => (vFail vContext w, none)
                | none =>
                  match v.capacity with
                  | some x => (x, none)
                  | none =>
                    match v.boundBad with
                    | some x => (x, none)
                    | none => (vPass, some (k, x.cert, mv))

/-- The certificates that parse. -/
def certsOf (l : List (List Nat)) : List Cert :=
  l.filterMap fun ws => match parseCert ws with | .ok k => some k | .error _ => none

/-- The segments that a certificate's LINK records name. -/
def Cert.segments (k : Cert) : List Nat := (k.recs.filter fun r => r.typ = tLink).map (·.key)

/-- QUOTA of every segment for a partition (R278): the charges under R178 of the certificates that it is charged with. -/
def writeQuota (p : Nat) (ks : List Cert) (s : State) : State :=
  let q := s.net.quota.filter fun e => e.1 % 8 ≠ p
  let put := fun (s : State) (g : Nat) =>
    { s with net := { s.net with quota := mset 0 s.net.quota (g * 8 + p) ((ks.map fun k => k.link g).foldl (· + ·) 0) } }
  (ks.flatMap Cert.segments).foldl put { s with net := { s.net with quota := q } }

/-- A partition in the ledger still keeps R170, R184 and R185 (R190). -/
def stillFits (s : State) (p : Nat) : Bool :=
  match admitted s p with
  | none => true
  | some k =>
    let v := ledgerVf s p k
    v.capacity.isNone && v.boundBad.isNone

end Sys2Proof.Machine
end

