-- ==== Sys2Proof/Machine/Ctl.lean ====
section
/-!
DEFINITION. Sys2Proof/Machine/Ctl.lean: what a chain direction carries in control blocks: their order, their limit per lane and the blocks that
wait for a block time (R434–R436).
-/
namespace Sys2Proof.Machine
open Sys2Proof

/-- A chain direction is UP: 0 upstream, 1 downstream (R433). -/
def cpUp (s : State) (side : Nat) : Bool := s.get F.cpStat_STATE side = 3

/-- The side and the outgoing segment of a neighbour. -/
def sideOf (up : Bool) : Nat := if up then 0 else 1
def segOut (up : Bool) : Nat := segChain (if up then 2 else 0)

/-! ### CRC-8 (R434) -/

/-- One bit, and one byte, of the CRC with polynomial 0x07 (DESIGN CHOICE, log 191). -/
def crc8Bit (c : Nat) : Nat := if c < 128 then c * 2 else (c * 2 % 256) ^^^ 7
def crc8Byte (c b : Nat) : Nat := crc8Bit (crc8Bit (crc8Bit (crc8Bit (crc8Bit (crc8Bit (crc8Bit (crc8Bit (c ^^^ b))))))))

/-- The CRC-8 of a control block over bits [55:0]: its type and its content, byte by byte from bit 0 up. -/
def ctlCrc (type : Nat) (content : W) : Nat :=
  ((List.range 7).map fun i => bits (type % 256 + content.toNat * 256) (8 * i) 8).foldl crc8Byte 0

/-- A received block with this content is intact: its CRC is right and its type is the one of its row (R435). -/
def ctlGood (type : Nat) (content : W) (b : CtlIn) : Bool := b.type.toNat = type && b.crc.toNat = ctlCrc type content

/-- The type and CRC of an intact block. -/
def ctlSound (type : Nat) (content : W) : CtlIn := ⟨BitVec.ofNat 8 type, BitVec.ofNat 8 (ctlCrc type content)⟩

/-- The 64 bits of a control block as it is sent (R434). -/
def CtlBlk.word (b : CtlBlk) : BitVec 64 :=
  BitVec.ofNat 64 (b.type % 256 + b.content.toNat * 2 ^ 8 + ctlCrc b.type b.content * 2 ^ 56)

/-! ### The stream of data blocks (R434) -/

def State.line (s : State) (g : Nat) : LineBits := mget ⟨0, 0, true⟩ s.chain.line g

/-- Flits join the stream of an outgoing segment end to end, bit 0 first; each full block of 64 bits is sent. -/
def lineSend (g : Nat) (l : List (BitVec 160)) (s : State) : State :=
  let x := s.line g
  let n := x.n + 160 * l.length
  let v := l.zipIdx.foldl (fun v e => v + e.1.toNat * 2 ^ (x.n + 160 * e.2)) x.v
  let full := (List.range (n / 64)).map fun i => (g, BitVec.ofNat 64 (v / 2 ^ (64 * i)))
  { s with chain := { s.chain with
    line := mput s.chain.line g ⟨n % 64, v / 2 ^ (64 * (n / 64)), false⟩
    data := s.chain.data ++ full } }

/-- A break: the bits that wait go in a last block, whose other bits the receiver discards and are open. -/
def lineBreak (g : Nat) (s : State) : State :=
  let x := s.line g
  if x.n = 0 then s
  else
    let (u, s) := s.freeVal 64
    { s with chain := { s.chain with
      line := mput s.chain.line g ⟨0, 0, x.idle⟩
      data := s.chain.data ++ [(g, BitVec.ofNat 64 (x.v + u.toNat * 2 ^ x.n))] } }

/-- A block joins the stream of an incoming segment; a break discards what follows the last whole flit. -/
def LineBits.feed (x : LineBits) : LinkBlk → LineBits
  | .data b => ⟨x.n + 64, x.v + b.toNat * 2 ^ x.n, x.idle⟩
  | .gap => ⟨x.n / 160 * 160, x.v % 2 ^ (x.n / 160 * 160), x.idle⟩

/-- The first `k` flits of an incoming stream, when they are there, and what is left. -/
def LineBits.flits (x : LineBits) (k : Nat) : Option (List (BitVec 160) × LineBits) :=
  if x.n < 160 * k then none
  else some ((List.range k).map fun i => BitVec.ofNat 160 (x.v / 2 ^ (160 * i)), ⟨x.n - 160 * k, x.v / 2 ^ (160 * k), x.idle⟩)

/-! ### Control blocks that wait (R435, R436) -/

/-- R435: a control block with a CRC error or a reserved type is discarded, counted and signalled. -/
def badCtl (up : Bool) (s : State) : State := raiseEvent 500 (s.inc F.cpStat_CTLERR (sideOf up))

/-- R436: the place of a block type in the order of competing blocks, lowest first. -/
def ctlOrder (type : Nat) : Nat :=
  match type with
  | 0x2D => 0
  | 0x66 => 1
  | 0x8B => 2
  | 0x33 => 3
  | 0x36 => 4
  | 0x4B => 5
  | 0x55 => 6
  | _ => 7

/-- R435: the lanes that a block takes; a CREDIT block may take any one, tried from lane 3 down (DESIGN CHOICE, log 178). -/
def ctlLanes (type : Nat) : List (List Nat) :=
  match type with
  | 0x2D => [[0, 1, 2, 3]]
  | 0x8B => [[1, 2, 3]]
  | 0x4B => [[0, 1]]
  | 0x78 => [[3], [2], [1], [0]]
  | _ => [[0]]

/-- The blocks that a lane has carried in the last 4,096 ring cycles, which are 853⅓ ticks. -/
def laneCarried (s : State) (seg lane : Nat) : List (Nat × Nat × Bool) :=
  s.chain.carried.filter fun e => e.1 = seg * 4 + lane && decide (s.ticks < e.2.1 + 854)

/-- R436: a lane has a block time for one more control block: at most 6 in 4,096 ring cycles, 3 of them CREDIT, and one in a tick, which is
0.76 block times (DESIGN CHOICE, log 178). -/
def laneFits (s : State) (seg lane : Nat) (credit : Bool) : Bool :=
  let l := laneCarried s seg lane
  l.length < 6 && (!credit || (l.filter fun e => e.2.2).length < 3) && !(l.any fun e => e.2.1 = s.ticks)

/-- The side of an outgoing chain segment. -/
def sideOut (seg : Nat) : Nat := if seg = segOut true then 0 else 1

/-- What a waiting block becomes once it is sent: an ALIGN block on every lane, which is a break in the stream, a GLOBAL payload, or control
blocks of consecutive types. -/
def sentCtl (x : CtlWait) (s : State) : State :=
  if x.type = 0x2D then
    let s := lineBreak x.seg s
    { s with chain := { s.chain with ctl := s.chain.ctl ++ List.replicate 4 ⟨x.seg, 0x2D, x.words.headD 0⟩ } }
  else if x.type = 0x8B then
    let p : BitVec 144 := (x.words.getD 2 0) ++ (x.words.getD 1 0) ++ (x.words.getD 0 0)
    { s with net := { s.net with gsent := s.net.gsent ++ [(x.seg, p)] } }
  else { s with chain := { s.chain with ctl := s.chain.ctl ++ x.words.zipIdx.map fun w => ⟨x.seg, x.type + w.2, w.1⟩ } }

/-- A waiting block is sent when its lanes have a block time for it (R436), and its direction is UP, for which ALIGN does not wait. -/
def tryCtl (s : State) (x : CtlWait) : State :=
  if x.type ≠ 0x2D && !cpUp s (sideOut x.seg) then s
  else
    match (ctlLanes x.type).find? fun ls => ls.all fun l => laneFits s x.seg l (x.type = 0x78) with
    | none => s
    | some ls =>
      sentCtl x { s with chain := { s.chain with
        wait := s.chain.wait.erase x
        carried := (s.chain.carried.filter fun e => decide (s.ticks < e.2.1 + 854))
          ++ ls.map fun l => (x.seg * 4 + l, s.ticks, decide (x.type = 0x78)) } }

/-- R436: the blocks that wait go in their order as block times come. -/
def pumpCtl (s : State) : State :=
  (List.range 8).foldl (fun s o => (s.chain.wait.filter fun x => ctlOrder x.type = o).foldl tryCtl s) s

/-- A block is to be sent on a segment. -/
def postCtl (seg type : Nat) (words : List W) (s : State) : State :=
  pumpCtl { s with chain := { s.chain with wait := s.chain.wait ++ [⟨seg, type, words⟩] } }

/-! ### ALIGN and IDLE (R434, R435) -/

/-- Block times, of 5.28 ns, that have passed at a tick count. -/
def blockTimes (ticks : Nat) : Nat := ticks * 100 / 132

/-- A link that no strap excludes runs: from step 9 of boot on. -/
def linkRuns (s : State) (up : Bool) : Bool := 9 ≤ s.get F.bootStat_STEP 0 && s.get F.cpStat_STATE (sideOf up) ≠ 4

/-- ALIGN goes on every lane of a link each 65,536 block times, with the next sequence number (DESIGN CHOICE, log 194). -/
def alignTick (s : State) : State :=
  if blockTimes s.ticks / 65536 = blockTimes (s.ticks - 1) / 65536 then s
  else
    let a := s.chain.alignUp
    let b := s.chain.alignDown
    let one (up : Bool) (n : BitVec 16) (s : State) : State := if linkRuns s up then postCtl (segOut up) 0x2D [n.setWidth 48] s else s
    let s' := one false b (one true a s)
    { s' with chain := { s'.chain with
      alignUp := if linkRuns s true then a + 1 else a
      alignDown := if linkRuns s false then b + 1 else b } }

/-- IDLE follows on a link that is UP once the port holds no flit for it; the first block of a run is recorded. -/
def idleTick (up : Bool) (s : State) : State :=
  let g := segOut up
  if !cpUp s (sideOf up) || (s.line g).idle || s.net.flits.any (fun f => f.out = some g) then s
  else
    let s := lineBreak g s
    { s with chain := { s.chain with line := mput s.chain.line g ⟨0, 0, true⟩, ctl := s.chain.ctl ++ [⟨g, 0x1E, 0⟩] } }

/-- Hand a control block to a direction that is UP. -/
def sendCtl (up : Bool) (type : Nat) (content : W) (s : State) : State :=
  if cpUp s (sideOf up) then postCtl (segOut up) type [content] s else s

end Sys2Proof.Machine
end

