-- ==== Sys2Proof/Machine/Global.lean ====
section
/-!
DEFINITION. Sys2Proof/Machine/Global.lean: the global plane (R282): barriers (R283), the messages of scheduled operations (R284, R193, R194), and
the moves of flits and request timers on the data network (R37, R273, R278, R281).
-/
namespace Sys2Proof.Machine
open Sys2Proof

/-! ### Messages -/

/-- The package has a neighbour upstream (toward the head), or downstream. -/
def State.hasUp (s : State) : Bool := s.chainLen ≠ 0 && 0 < s.pkg
def State.hasDown (s : State) : Bool := s.pkg + 1 < s.chainLen

/-- The payload of a GLOBAL flit (R282). -/
def gPayload (m : GMsg) : BitVec 144 :=
  BitVec.ofNat 144 (m.gop % 16 * 2 ^ 140 + m.chan % 16 * 2 ^ 136 + m.scope % 4 * 2 ^ 134 + m.src % 16 * 2 ^ 130
    + m.ts.toNat * 2 ^ 48 + m.arg % 2 ^ 48)

/-- The message of a payload. -/
def gMessage (p : BitVec 144) : GMsg :=
  ⟨pf p 140 4, pf p 136 4, pf p 134 2, pf p 130 4, w48 (pf p 48 48), pf p 0 48, 0⟩

/-- R282: a reserved GOP or a nonzero reserved bit. ARG is 0 in ARRIVE and RELEASE, and has 11 bits in the others. -/
def gBad (p : BitVec 144) : Bool :=
  pf p 140 4 = 0 || 6 ≤ pf p 140 4 || pf p 96 34 ≠ 0 || (if pf p 140 4 ≤ 2 then pf p 0 48 ≠ 0 else pf p 11 37 ≠ 0)

/-- Put a message on the plane inside the package. -/
def gPost (m : GMsg) (s : State) : State := { s with net := { s.net with gq := s.net.gq ++ [m] } }

/-- Hand a message to the upstream or the downstream neighbour, if there is one: it goes as G0–G2 in a block time of the link (R435, R436). -/
def gSend (up : Bool) (m : GMsg) (s : State) : State :=
  if (if up then s.hasUp else s.hasDown) then
    let p := gPayload m
    postCtl (segOut up) 0x8B [p.extractLsb' 0 48, p.extractLsb' 48 48, p.extractLsb' 96 48] s
  else s

/-- Hand a message to both neighbours. -/
def gBroadcast (m : GMsg) (s : State) : State := gSend false m (gSend true m s)

/-- R37: the check of a GLOBAL flit at a stop of the plane: false when it is dropped. -/
def gCheck (n : Nat) (m : GMsg) (e : FlitErr) (s : State) : Bool × State :=
  let f : Flit := ⟨5, false, gPayload m, [], 8, 0, 0, 0, n, none, none, none, ⟨0, 0, 0⟩⟩
  flitChecks n f [] [e] f.all s

/-- The checks along the way of a GLOBAL flit inside the package, up to the stop that drops it (DESIGN CHOICE, log 157). -/
def gWay (m : GMsg) : List GStop → State → Bool × State
  | [], s => (true, s)
  | x :: l, s =>
    match gCheck x.node m x.err s with
    | (true, s) => gWay m l s
    | (false, s) => (false, s)

/-- The blocks of a GLOBAL that arrive broken are discarded and counted (R435): the message is whole when none is, and all came in one block
time. -/
def gBroken (x : ChainGlobal) : Nat :=
  let part (k : Nat) : W := x.payload.extractLsb' (48 * k) 48
  b2n (!ctlGood 0x8B (part 0) x.g0) + b2n (!ctlGood 0x8D (part 1) x.g1) + b2n (!ctlGood 0x8E (part 2) x.g2)

/-- Take the message that a GLOBAL command acts on: one from the chain, or the oldest inside the package when it has that GOP, for messages
arrive in order (R282). Either is checked, and dropped as R37 says. The result names the side that the message came from. -/
def gTake (gop : Nat) (m : GlobalIn) (s : State) : Option (GMsg × Option Bool) × State :=
  match m with
  | .chain x =>
    if !cpUp s (sideOf x.up) then (none, s)
    else if gBroken x ≠ 0 then
      let s := (List.range (gBroken x - 1)).foldl (fun s _ => s.inc F.cpStat_CTLERR (sideOf x.up)) s
      (none, report 18 (loc 4 145) 0 none false (badCtl x.up s))
    else if !x.together || gBad x.payload then (none, report 18 (loc 4 145) 0 none false s)
    else
      let m := gMessage x.payload
      if m.gop = gop then (some (m, some x.up), s) else (none, s)
  | .inside way hub =>
    match s.net.gq with
    | [] => (none, s)
    | m :: rest =>
      if m.gop ≠ gop then (none, s)
      else
        let s := { s with net := { s.net with gq := rest } }
        match gWay m way s with
        | (false, s) => (none, s)
        | (true, s) =>
          match gCheck nodeHub m hub s with
          | (true, s) => (some (m, none), s)
          | (false, s) => (none, s)

/-! ### Barriers (R283) -/

/-- A channel's fields. -/
def State.barScope (s : State) (b : Nat) : Nat := s.get F.barCfg_SCOPE b
def State.barArmed (s : State) (b : Nat) : Bool := s.flag F.barStat_ARMED b

/-- The cluster takes part in the channel. -/
def barCluster (s : State) (b c : Nat) : Bool :=
  let m := if c < 64 then s.get F.barMask0_CL b else s.get F.barMask1_CL b
  let u := s.get F.barCfg_UNIT b
  m / 2 ^ (c % 64) % 2 = 1
    && (match s.barScope b with | 0 => c = u | 1 => c / 16 = u % 8 | _ => true)

/-- The participants of this package: core c as c, cluster i as 8 + i. -/
def barLocal (s : State) (b : Nat) : List Nat :=
  ((List.range 8).filter fun c => s.get F.barCfg_CORES b / 2 ^ c % 2 = 1)
    ++ ((List.range 128).filter fun c => barCluster s b c).map (· + 8)

/-- The arrivals recorded at a channel. -/
def State.barSeen (s : State) (b : Nat) : List Nat := mget [] s.net.arrived b

/-- Every participant that this package speaks for has arrived: its own, and at system scope those of the packages below it. -/
def barComplete (s : State) (b : Nat) : Bool :=
  (barLocal s b).all (fun x => (s.barSeen b).contains x)
    && (s.barScope b ≠ 3 || !s.hasDown || (s.barSeen b).contains (136 + s.pkg + 1))

/-- A channel that is complete here goes on: its arrival goes up the chain, or at the head of its scope RELEASE goes out. -/
def barGoOn (b : Nat) (s : State) : State :=
  if !barComplete s b then s
  else if s.barScope b = 3 ∧ s.hasUp then gSend true ⟨1, b, 3, s.pkg, 0, 0, 0⟩ s
  else gPost ⟨2, b, s.barScope b, s.pkg, 0, 0, 0⟩ s

/-- R283: an arrival at a channel. -/
def barArrive (b who : Nat) (s : State) : State :=
  if !s.barArmed b then s.set F.barStat_STRAY b 1
  else if (s.barSeen b).contains who then s
  else barGoOn b { s with net := { s.net with arrived := mput s.net.arrived b (s.barSeen b ++ [who]) } }

/-- The write of ARM: arrivals are cleared. At system scope a package that no participant of its own holds up, and that waits for none below,
arrives at once (DEDUCED, log 158). -/
def barArm (b : Nat) (s : State) : State :=
  let s := { s with net := { s.net with arrived := mdel s.net.arrived b } }.set F.barStat_ARMED b 1
  if s.barScope b = 3 then barGoOn b s else s

/-- GLOBAL_ARRIVE (R283). -/
def globalArrive (m : GlobalIn) (s : State) : State :=
  match gTake 1 m s with
  | (none, s) => s
  | (some (m, none), s) => barArrive m.chan m.who s
  | (some (m, some _), s) => barArrive m.chan (136 + m.src) s

/-- GLOBAL_ARRIVE (R283). -/
def execGlobalArrive (m : GlobalIn) (s : State) : Host.Outcome State Fault Refusal :=
  .next (unlessFatal (globalArrive m) s)

/-- GLOBAL_RELEASE: the barrier completes here, and the message goes on down the chain at system scope (R283). -/
def globalRelease (m : GlobalIn) (s : State) : State :=
  match gTake 2 m s with
  | (none, s) => s
  | (some (m, _), s) =>
    let b := m.chan
    let s := if m.scope = 3 then gSend false ⟨2, b, 3, s.pkg, 0, 0, 0⟩ s else s
    if !s.barArmed b then s
    else
      let s := { s with net := { s.net with arrived := mdel s.net.arrived b } }
      let s := (s.set F.barStat_DONE b 1).set F.barStat_ARMED b 0
      raiseEvent (264 + b) (s.inc F.barStat_COMPLETIONS b)

/-- GLOBAL_RELEASE (R283). -/
def execGlobalRelease (m : GlobalIn) (s : State) : Host.Outcome State Fault Refusal :=
  .next (unlessFatal (globalRelease m) s)

/-- A write of BAR_CFG: the fields while ARMED is 0, then ARM, then DISARM (R283). -/
def barCfgWrite (b v : Nat) (s : State) : State :=
  let s := if s.barArmed b then s
    else ((s.set F.barCfg_SCOPE b (bits v 0 2)).set F.barCfg_UNIT b (bits v 2 7)).set F.barCfg_CORES b (bits v 9 8)
  let s := if bits v 17 1 = 1 then barArm b s else s
  if bits v 18 1 = 1 then s.set F.barStat_ARMED b 0 else s

/-- A core's write of BAR_ARRIVE posts its arrival; one at a closed barrier is stray (R283). -/
def barArriveWrite (core chan : Nat) (s : State) : State :=
  if core < 8 then
    if s.barArmed chan then gPost ⟨1, chan, s.barScope chan, s.pkg, 0, 0, core⟩ s else s.set F.barStat_STRAY chan 1
  else s

/-- R283: a cluster is quiet. Of what waits for injection there only a response is no part of a firing. -/
def quiet (s : State) (c : Nat) : Bool :=
  !(s.cl.slots.any fun x => x.cluster = c) && !((s.cl.parks ++ s.cl.seqHeld).any fun x => x.cluster = c && !x.detached)
    && !(s.cl.waits.any fun x => x.cluster = c)
    && !(s.cl.emit.any fun e => e.1 / 16 = c) && !(s.cl.spillHold.any fun e => e.1 / 16 = c)
    && !(s.cl.injQ.any fun f => f.node = c && f.ty ≠ 2)
    && !(s.net.flits.any fun f => f.node = c && f.ty = 0 && f.out = none)

/-- CLUSTER_QUIET: a participating cluster that is quiet arrives, once (R283). -/
def clusterQuiet (b c : Nat) (s : State) : State :=
  if s.barArmed b && barCluster s b c && quiet s c && !(s.barSeen b).contains (8 + c)
      && !(s.net.gq.any fun m => m.gop = 1 && m.chan = b && m.who = 8 + c) then
    gPost ⟨1, b, s.barScope b, s.pkg, 0, 0, 8 + c⟩ s
  else s

/-- CLUSTER_QUIET (R283). -/
def execClusterQuiet (b : Fin 16) (c : Fin 128) (s : State) : Host.Outcome State Fault Refusal := .next (unlessFatal (clusterQuiet b c) s)

/-! ### Scheduled operations (R284) -/

/-- ARG of a STAGE: kind, partition and mode. -/
def stageArg (kind part mode : Nat) : Nat := kind + part * 16 + mode * 128

/-- The staged operation that a message is about. -/
def Staged.of (x : Staged) (m : GMsg) : Bool := x.ts = m.ts && stageArg x.kind x.part x.mode = m.arg % 2 ^ 11

/-- R284: the initiating package stages an operation and sends STAGE to every package in scope. A migration's has FROM and TO. -/
def stageStart (kind part mode frm dst : Nat) (ts : W) (pkgs : List Nat) (s : State) : State :=
  let away := pkgs.filter (· ≠ s.pkg)
  let x : Staged := ⟨kind, part, mode, ts, !away.isEmpty, s.pkg, frm, dst, [], s.pkg :: away, false⟩
  let m : GMsg := ⟨3, 0, if away.isEmpty then 2 else 3, s.pkg, ts, stageArg kind part mode, 0⟩
  let s := gPost m { s with staged := s.staged ++ [x] }
  if away.isEmpty then s else gBroadcast m s

/-- Write a route entry from a word in the layout of RT_ENTRY. -/
def setRtEntry (i w : Nat) (s : State) : State :=
  let s := (s.set F.rtEntry_CLUSTER i (bits w 0 4)).set F.rtEntry_DIE i (bits w 4 4)
  (s.set F.rtEntry_PKG i (bits w 8 4)).set F.rtEntry_VALID i (bits w 15 1)

/-- Write an epoch-1 route entry from a word in the layout of RT_ENTRY. -/
def setRtAlt (i w : Nat) (s : State) : State :=
  let s := (s.set F.rtAlt_CLUSTER i (bits w 0 4)).set F.rtAlt_DIE i (bits w 4 4)
  (s.set F.rtAlt_PKG i (bits w 8 4)).set F.rtAlt_VALID i (bits w 15 1)

/-- R192, R193: the units of a partition load the staging of a mode change: every cluster of the partition writes the route set of the
unused epoch from the staged mode. -/
def loadMode (p m : Nat) (s : State) : State :=
  match admitted s p with
  | none => s
  | some k =>
    let v := ledgerVf s p k
    (s.clustersOf p).foldl (fun s c =>
      (List.range 31).foldl (fun s n =>
        let w := v.routeWord m c (n + 1)
        let i := c * 32 + n + 1
        if s.epoch p = 0 then setRtAlt i w s else setRtEntry i w s) s) s

/-- The FROM and TO that a migration's STAGE is about. -/
def gMove (g : GlobalIn) : Nat × Nat :=
  match g with
  | .chain x => (x.frm.val, x.dst.val)
  | .inside _ _ => (0, 0)

/-- R193, R197, R284: a staging is for this package: a snapshot and a warm reset always, a mode change and a migration where PKGS of the
partition's certificate names it. -/
def stagesHere (s : State) (kind part : Nat) : Bool :=
  !(kind = 1 || kind = 2) || (match admitted s part with | some k => k.packages.contains s.pkg | none => false)

/-- GLOBAL_STAGE: this package loads the staging and acknowledges; at system scope the message goes on along the chain (R193, R284). What tells
another package the FROM and TO of a migration is open: R282 gives STAGE no place for them (DESIGN CHOICE, log 172). -/
def globalStage (g : GlobalIn) (s : State) : State :=
  match gTake 3 g s with
  | (none, s) => s
  | (some (m, side), s) =>
    let kind := m.arg % 16
    let part := bits m.arg 4 3
    let mode := bits m.arg 7 4
    let ack : GMsg := ⟨4, 0, m.scope, s.pkg, m.ts, m.arg, 0⟩
    match side with
    | none => gPost ack (if kind = 1 then loadMode part mode s else s)
    | some up =>
      let s := gSend (!up) m s
      if !stagesHere s kind part then s else
      let s := if kind = 1 then loadMode part mode s else s
      let (frm, dst) := gMove g
      let x : Staged := ⟨kind, part, mode, m.ts, true, m.src, frm, dst, [], [], true⟩
      let s := { s with staged := s.staged ++ [x] }
      let s := if kind = 3 ∨ kind = 4 then s.set F.snapStat_STAGED 0 1
        else if kind = 1 then (s.set F.modeStat_STAGING part 1).set F.modeStat_TARGET part mode else s
      gSend up ack s

/-- GLOBAL_STAGE (R284). -/
def execGlobalStage (m : GlobalIn) (s : State) : Host.Outcome State Fault Refusal :=
  .next (unlessFatal (globalStage m) s)

/-- GLOBAL_ACK: the initiator records the acknowledging package; other packages pass it on (R284). -/
def globalAck (m : GlobalIn) (s : State) : State :=
  match gTake 4 m s with
  | (none, s) => s
  | (some (m, side), s) =>
    if s.staged.any fun x => x.src = s.pkg && x.of m then
      let add := fun (x : Staged) => { x with acks := if x.acks.contains m.src then x.acks else x.acks ++ [m.src] }
      { s with staged := replaceFirst (fun x : Staged => x.src = s.pkg && x.of m) add s.staged }
    else
      match side with
      | some up => gSend (!up) m s
      | none => s

/-- GLOBAL_ACK (R284). -/
def execGlobalAck (m : GlobalIn) (s : State) : Host.Outcome State Fault Refusal :=
  .next (unlessFatal (globalAck m) s)

/-- Aperture writes a verdict for its last command when that command is still the one that AP_STATUS names (DEDUCED, log 127). -/
def lateVerdict (p op code : Nat) (s : State) : State :=
  if !s.flag F.apStatus_BUSY 0 && s.get F.apStatus_PART 0 = p && s.get F.apStatus_OP 0 = op then
    raiseEvent 248 (s.set F.apStatus_VERDICT 0 code)
  else s

/-- SNAP_STAT.STAGED falls once no snapshot or warm reset is staged any more. -/
def clearStaged (s : State) : State :=
  if s.staged.any fun y => y.kind = 3 || y.kind = 4 then s else s.set F.snapStat_STAGED 0 0

/-- A staged operation is discarded: ABORTED is set where it was staged from GSCHED, for a mode change MODE_ABORT is raised, and a
migration ends (R194, R197, R284). -/
def abortStaged (x : Staged) (s : State) : State :=
  let s := { s with staged := s.staged.erase x }
  match x.kind with
  | 1 =>
    let s := (s.set F.modeStat_STAGING x.part 0).set F.modeStat_ABORTED x.part 1
    let s := raiseEvent (232 + x.part) s
    if x.src = s.pkg then lateVerdict x.part 4 vAborted s else s
  | 2 =>
    match s.ap.migs.find? fun g => g.part = x.part && x.src = s.pkg with
    | none => s
    | some g =>
      let s := { s with ap := { s.ap with migs := s.ap.migs.erase g } }
      let s := giveUpCluster x.part g.dst (s.set F.migCtl_ACTIVE g.frm 0)
      lateVerdict x.part 5 vAborted (countClusters x.part (writeQuota x.part (certsOf [g.old]) s))
  | _ => (clearStaged s).set F.snapStat_ABORTED 0 1

/-- GLOBAL_ABORT: this package discards the staging that the message names, and passes the message on (R284). -/
def globalAbort (m : GlobalIn) (s : State) : State :=
  match gTake 5 m s with
  | (none, s) => s
  | (some (m, side), s) =>
    let s := match side with | some up => gSend (!up) m s | none => s
    match s.staged.find? fun x => x.of m with
    | some x => abortStaged x s
    | none => s

/-- GLOBAL_ABORT (R284). -/
def execGlobalAbort (m : GlobalIn) (s : State) : Host.Outcome State Fault Refusal :=
  .next (unlessFatal (globalAbort m) s)

/-- Every acknowledgement has reached the initiator. -/
def Staged.complete (x : Staged) : Bool := x.need.all fun p => x.acks.contains p

/-- SCHEDULE_DEADLINE: at T_s − 2,048 an operation of this package whose acknowledgements are complete stands; for another, ABORT is sent to
every unit (R194, R284). -/
def scheduleDeadline (s : State) : State :=
  match s.staged.find? fun x => x.src = s.pkg && !x.cleared && decide (sdiff x.ts s.t ≤ 2048) with
  | none => s
  | some x =>
    if x.complete then
      { s with staged := replaceFirst (fun y => y = x) (fun y => { y with cleared := true }) s.staged }
    else
      let m : GMsg := ⟨5, 0, if x.system then 3 else 2, s.pkg, x.ts, stageArg x.kind x.part x.mode, 0⟩
      let s := if x.system then gBroadcast m s else s
      gPost m s

/-- SCHEDULE_DEADLINE (R284). -/
def execScheduleDeadline (s : State) : Host.Outcome State Fault Refusal := .next (unlessFatal scheduleDeadline s)

/-- The staged operation of a kind (and partition) whose tick has come. -/
def dueStaged (s : State) (kind : Nat) (part : Option Nat) : Option Staged :=
  s.staged.find? fun x => x.kind = kind && x.cleared && (match part with | some p => x.part = p | none => true)
    && decide (sdiff x.ts s.t ≤ 0)

/-- Take a staged operation out. -/
def dropStaged (x : Staged) (s : State) : State := { s with staged := s.staged.erase x }

/-- R284: a write of GSCHED. -/
def gschedWrite (kind : Nat) (system : Bool) (s : State) : State :=
  let ts := w48 (s.get F.gschedT_T_S 0)
  let d := sdiff ts s.t
  if !(kind = 3 || kind = 4) || d < 4096 || d > 2 ^ 30 || s.flag F.snapStat_STAGED 0 then s.set F.snapStat_REFUSED 0 1
  else
    let s := s.set F.snapStat_STAGED 0 1
    stageStart kind 0 0 0 0 ts (if system then s.pkg :: List.range s.chainLen else [s.pkg]) s

/-! ### Request timeouts (R281) -/

/-- The timer has run out: the count of tick boundaries has reached the limit. -/
def Timed.expired (x : Timed) (s : State) : Bool := !x.dead && !x.held && x.left + x.limit ≤ s.ticks

/-- INITIATOR_TIMEOUT: the first expired timer gives a response poisoned with ERR, the log, the count and the fault (R281). -/
def initiatorTimeout (s : State) : State :=
  match s.net.timed.find? fun x => x.expired s with
  | none => s
  | some x =>
    let ret := x.ret
    let hub := bits ret 11 4 = 8
    let c := cIdx (bits ret 11 4) (bits ret 7 4)
    let i := bits ret 7 4
    let s := { s with net := { s.net with timed := replaceFirst (fun y => y = x) (fun y => { y with dead := true }) s.net.timed } }
    if hub then
      let r : HubRsp := ⟨i, ret % 128, false, (poisonData causeErr x.addr.toNat).setWidth 64, x.addr⟩
      let s := { s with net := { s.net with hubRsp := s.net.hubRsp ++ [r] } }
      let s := if i < 14 then s.inc F.hubTo_TIMEOUTS i else s
      reportU 19 (loc 7 i) 0 s
    else
      let f := mkFlit 2 true (rspPay ret 0 (poisonData causeErr x.addr.toNat) x.addr) [] x.part 0 c
      let s := { s with net := { s.net with rspQ := s.net.rspQ ++ [f] } }
      let s := s.inc F.rtrStat_TIMEOUTS c
      let s :=
        if s.flag F.toInfo_VALID c then s
        else
          let s := (s.set F.toAddr_ADDR c x.addr.toNat).set F.toInfo_RET c ret
          let s := (s.set F.toInfo_OP c x.op).set F.toInfo_PART c x.part
          (s.set F.toInfo_T c s.t.toNat).set F.toInfo_VALID c 1
      reportP 16 (loc 4 c) 0 x.part s

/-- INITIATOR_TIMEOUT (R281). -/
def execInitiatorTimeout (s : State) : Host.Outcome State Fault Refusal := .next (unlessFatal initiatorTimeout s)

/-! ### FLIT_RECEIVE (R37, R273, R278) -/

/-- The key of a chain credit: segment, class and VC. -/
def creditKey (g cls vc : Nat) : Nat := g * 64 + cls * 4 + vc

/-- A buffer of a chain input is freed (R437). -/
def freeChain (f : Flit) (s : State) : State :=
  match f.via with
  | some g =>
    if segClass g = 5 then
      { s with net := { s.net with freed := mput s.net.freed (creditKey g f.cls f.vc) ((mget 0 s.net.freed (creditKey g f.cls f.vc) + 1) % 64) } }
    else s
  | none => s

/-- A packet enters a node; what does not stay in a buffer has left it again. -/
def arriveAt (f : Flit) (s : State) : State :=
  let n := s.net.flits.length
  let s' := if f.node = nodeLens then deliverOther { f with node := nodeHub } s else enterNode f s
  if s'.net.flits.length = n then freeChain f s' else s'

/-- The class of a packet that comes in from the chain: its partition where the packet names one (R273). -/
def chainClass (ty : Nat) (p : BitVec 144) (given : Nat) : Nat :=
  if ty = 0 ∨ (ty = 2 ∧ rspAns p) then tagPart (w48 (pf p 96 48))
  else if ty = 2 then (if bits (rspRet p) 11 4 = 8 then 8 else given)
  else if reqSys p then 8 else reqPart p

/-- R37: what the receiving node's checks do to a packet: `none` when it is dropped. A packet of which a flit is dropped goes no further
(DESIGN CHOICE, log 157). -/
def receiveCheck (n : Nat) (f : Flit) (raws : List (BitVec 160)) (errs : List FlitErr) (urgErr : Bool) (s : State) : Option Flit × State :=
  let (ok, s) := flitChecks n f raws errs f.all s
  if !ok then (none, s)
  else if urgErr then (some { f with urg := 0 }, corrFlit n false s)
  else (some f, s)

/-- The packet that the stream of an incoming segment begins with, once it is whole, as the raw bits of its flits: a BULK_HEAD is followed by as
many flits as its ARG says (R274). -/
def nextPacket (x : LineBits) : Option (List (BitVec 160) × LineBits) :=
  let head := x.v % 2 ^ 160
  x.flits (if bits head 155 3 = 3 then 1 + reqArg (BitVec.ofNat 144 head) % 4 else 1)

/-- A packet from the chain arrives at the hub ring stop (R135, R437). A reserved packet type is dropped (R37), and so is a type that does not
open a packet on the data network: BULK_BODY without its head, and GLOBAL (DESIGN CHOICE, log 195). The chain is a source of its partitions: ids
520 and 521 (R174, R187). -/
def chainPacket (g rcyc : Nat) (x : ChainFlit) (raws : List (BitVec 160)) (errs : List FlitErr) (urgErr : Bool) (s : State) : State :=
  let head := raws.headD 0
  let ty := bits head.toNat 155 3
  let pay : BitVec 144 := head.setWidth 144
  let vc := bits head.toNat 153 2
  let cls := chainClass ty pay x.cls
  let full := 16 ≤ (s.net.flits.filter fun f => f.via = some g && f.cls = cls && f.vc = vc).length
  if full then s
  else
    let s := { s with net := { s.net with cyc := mput s.net.cyc nodeHub rcyc } }
    let e := errs.headD ⟨0, 0⟩
    let errs := if ty ≥ 4 then [⟨2, if e.check = 0 then head else e.raw⟩] else errs
    let f : Flit := ⟨ty, bits head.toNat 158 1 = 1, pay, raws.tail.map (·.setWidth 144), cls, vc, x.urg, 0, nodeHub, some g, none, none, x.side⟩
    match receiveCheck 145 f raws errs urgErr s with
    | (none, s) => freeChain f s
    | (some f, s) =>
      let id := if g = segChain 3 then 520 else 521
      let s := if f.ty = 0 then
          sourceRate id (tagPart (flitToken f).tag) (countProd (tagPart (flitToken f).tag) (tagEpoch (flitToken f).tag) s)
        else s
      if undeliverable s f then
        let s := freeChain f s
        if f.ty = 0 then discardAt nodeHub (flitToken f).tag s
        else if f.ty ≠ 2 && wantsRsp f then send (errRsp f nodeHub s) s
        else s
      else arriveAt f s

/-- Blocks arrive on a chain segment that is UP: they join its stream, and the packet that is then whole arrives (R434). -/
def receiveChain (g rcyc : Nat) (x : ChainFlit) (errs : List FlitErr) (urgErr : Bool) (s : State) : State :=
  if s.get F.cpStat_STATE (if g = segChain 3 then 0 else 1) ≠ 3 then s
  else
    let l := x.blocks.foldl LineBits.feed (s.line g)
    let put (l : LineBits) (s : State) : State := { s with chain := { s.chain with line := mput s.chain.line g l } }
    match nextPacket l with
    | none => put l s
    | some (raws, l) => chainPacket g rcyc x raws errs urgErr (put l s)

/-- The clock of a node runs: a cluster router runs on its facet's fabric clock, the rest on the ring clock. -/
def nodeOn (s : State) (n : Nat) : Bool := if n < 128 then s.fabricOn n else true

/-- One flit (or one whole bulk packet) crosses a segment in a cycle of its sender's clock. -/
def receiveInside (g cyc rcyc : Nat) (errs : List FlitErr) (urgErr : Bool) (s : State) : State :=
  let from_ := segFrom g
  let dst := segTo g
  let busy := match mfind s.net.last g with | some l => decide (cyc ≤ l) | none => false
  if !segExists g || busy || !nodeOn s from_ || (dst < nodeOutside && dst ≠ nodeLens && !nodeOn s dst) then s
  else
    match winner s g cyc with
    | none => s
    | some (f, fg) =>
      let old := (mget [] s.net.hist (g * 8 + f.cls)).filter fun c => cyc < c + 4096
      let s := { s with net := { s.net with
        flits := s.net.flits.erase f
        last := mput s.net.last g (cyc + f.bodies.length)
        rr := mput s.net.rr g (rrKey f)
        hist := if fg then mput s.net.hist (g * 8 + f.cls) (old ++ [cyc]) else s.net.hist
        cyc := mput s.net.cyc from_ (max cyc (s.nodeCyc from_)) } }
      let s := freeChain f s
      let vc := vcOn f g
      let f' := { f with via := some g, vc := vc, urg := agedUrg s f cyc, node := dst, out := none }
      let s :=
        if dst = nodeOutside then
          let k := creditKey g f.cls vc
          let s := { s with net := { s.net with
            sent := s.net.sent ++ [(g, f')]
            credit := mput s.net.credit k (mget 0 s.net.credit k - 1) } }
          let (raws, s) := rawsOf f' f'.all s
          let s := lineSend g raws s
          if f.ty = 0 then countCons (tagPart (flitToken f).tag) (tagEpoch (flitToken f).tag) 1 s else s
        else
          let s := if dst = nodeLens then s else { s with net := { s.net with cyc := mput s.net.cyc dst (max rcyc (s.nodeCyc dst)) } }
          match receiveCheck (if dst = nodeLens then nodeHub else dst) f' [] errs urgErr s with
          | (none, s) => s
          | (some f', s) => arriveAt f' s
      drainNode from_ 8 s

/-- FLIT_RECEIVE: a flit crosses segment `seg` (R37, R278). `ext` is what a neighbour package sends on an inbound chain segment. -/
def execFlitReceive (seg : Fin 49152) (cyc rcyc : Nat) (ext : Option ChainFlit) (err : List FlitErr) (urgErr : Bool) (s : State) :
    Host.Outcome State Fault Refusal :=
  .next (if s.fatal then s else
    if segFrom seg = nodeOutside then
      match ext with
      | some x => if segExists seg then receiveChain seg rcyc x err urgErr s else s
      | none => s
    else receiveInside seg cyc rcyc err urgErr s)

end Sys2Proof.Machine
end

