-- ==== Sys2Proof/Machine/Aperture.lean ====
section
/-!
DEFINITION. Sys2Proof/Machine/Aperture.lean: Aperture's commands (R167, R168, R178–R181, R193, R196), the events that carry them on
(R180, R188, R195, R197–R199), the ledger's re-examination (R189, R190), and what sources and outputs ask of it (R172, R180, R186, R187).
-/
namespace Sys2Proof.Machine
open Sys2Proof

/-! ### Commands and verdicts (R167, R200) -/

/-- A command ends: its verdict and detail are written and APERTURE_DONE is raised (R180). -/
def apDone (v : Verdict) (s : State) : State :=
  let start := match s.ap.cmd with | some x => x.start | none => s.ticks
  let s := { s with ap := { s.ap with cmd := none } }
  let s := (s.set F.apStatus_BUSY 0 0).set F.apStatus_VERDICT 0 v.code
  let s := (s.set F.apDetail_RESOURCE 0 v.res).set F.apDetail_WORD 0 v.word
  let s := (s.set F.apDetail_EXCESS 0 v.excess).set F.apTime_TICKS 0 (s.ticks - start)
  raiseEvent 248 s

/-- A write of AP_CMD: ignored with OVERRUN while a command runs. ADMIT and MIGRATE read their certificate now (R173); a reserved OP ends at
once with BADCMD (R200). -/
def apCmdWrite (v : Nat) (s : State) : State :=
  if s.flag F.apStatus_BUSY 0 then s.set F.apStatus_OVERRUN 0 1
  else
    let op := bits v 3 3
    let cert := if op = 2 ∨ op = 5 then fetchCert s (bits v 14 20) else .ok []
    let (ws, bad) := match cert with | .ok ws => (ws, none) | .error w => ([], some w)
    let x : ApRun := ⟨bits v 0 3, op, bits v 6 7, bits v 14 20, bits v 34 4, s.ticks, ws, bad⟩
    let s := { s with ap := { s.ap with cmd := some x } }
    let s := ((s.set F.apStatus_BUSY 0 1).set F.apStatus_PART 0 x.part).set F.apStatus_OP 0 x.op
    if op = 0 ∨ 6 ≤ op then apDone (vFail vBadcmd 0) s else s

/-- The running command, when its OP is the one that the row names. -/
def apTake (s : State) (op : Nat) : Option ApRun :=
  s.ap.cmd.bind fun x => if x.op = op then some x else none

/-- CLAIM (R167): the named cluster goes to LOADING under the partition. A cluster that is still emptying enters LOADING only after it is
empty (R120), and the command waits for that (DESIGN CHOICE, log 173). -/
def claim (s : State) : State :=
  match apTake s 1 with
  | none => s
  | some x =>
    let p := x.part
    let c := x.cluster
    if !(s.pState p = pFree || s.pState p = pLoading) || s.cState c ≠ 0 then apDone (vFail vBadcmd 0) s
    else if (mfind s.cl.emptying c).isSome then s
    else
      let s := ((s.set F.clStatus_STATE c 1).set F.clStatus_OWNER c p).set F.partStat_STATE p pLoading
      apDone vPass (countClusters p s)

/-- CLAIM (R167). -/
def execClaim (s : State) : Host.Outcome State Fault Refusal := .next (unlessFatal claim s)

/-! ### Loading microcode (R162) -/

/-- Write a dispatch entry from a word in the layout of R151. -/
def setDispatch (c op d : Nat) (s : State) : State :=
  let i := c * 1024 + op
  let s := (s.set F.dispatch_ENTRY i (bits d 0 11)).set F.dispatch_RESUME i (bits d 11 11)
  let s := (s.set F.dispatch_PORTS i (bits d 22 3)).set F.dispatch_KFORM i (bits d 25 1)
  let s := (s.set F.dispatch_DFORM i (bits d 26 1)).set F.dispatch_KPARAM i (bits d 27 1)
  s.set F.dispatch_VALID i (bits d 31 1)

/-- Write the words and dispatch entries of a golden copy into a cluster. -/
def writeGolden (c : Nat) (g : Golden) (s : State) : State :=
  let s := g.words.foldl (fun s w => s.writeN (uAddr c w.1) w.2 18) s
  g.disp.foldl (fun s d => setDispatch c d.1 d.2 s) s

/-- R161: the check of the golden copy in MC RAM as the MC reads it. False when a word of it is uncorrectable: no word of the store can then
be shown to agree with it (DESIGN CHOICE, log 165). -/
def goldenRead (ram : Nat) (s : State) : Bool × State :=
  let (o, inj, s) := secded [27, 28] (loc 8 9) ram s
  if o = 0 then (true, s) else if o = 1 then (true, report 27 (loc 8 9) 0 none inj s) else (false, report 28 (loc 8 9) 0 none inj s)

/-- The MC loads a user set into a cluster (R162) (DEDUCED, log 130). -/
def loadUserSet (c set : Nat) (s : State) : State :=
  match mfind s.mc.gUser set with
  | none => s
  | some g => ((writeGolden c g s).set F.csStat_USER_SET c set).set F.csStat_USER_VALID c 1

/-! ### ADMIT and COMMIT (R178–R181) -/

/-- The TARGET assignments of a mode in this package. -/
def Cert.targets (k : Cert) (s : State) (p m : Nat) : List Tgt :=
  ((k.of tTarget m).filter fun r => targetHere s r.key).map fun r => ⟨bits r.key 0 4, bits r.key 4 16, p, r.fld 1 0 5⟩

/-- The sources of a mode. -/
def Cert.sources (k : Cert) (p m : Nat) : List SourceCfg :=
  (k.of tSource m).map fun r => ⟨r.key, p, r.word 2, r.fld 1 0 32, r.fld 1 32 8, none⟩

/-- Set the RM and TRAP of a mode in one epoch, and in ARITH_STAT (R59, R192). -/
def setArith (k : Cert) (p m ep : Nat) (s : State) : State :=
  let s := (s.set F.arithStat_RM p (k.rm m)).set F.arithStat_TRAP p (k.trap m)
  { s with cl := { s.cl with
    arith := mput s.cl.arith (p * 2 + ep) (k.trap m * 4 + k.rm m), arithW := s.cl.arithW.filter (· ≠ p) } }

/-- Write the pools of a certificate: POOL_CFG, the low-water mark and RECLAIM_TGT (R126). -/
def writePools (p : Nat) (k : Cert) (s : State) : State :=
  (k.recs.filter fun r => r.typ = tPool).foldl (fun s r =>
    let i := poolIdx (r.key % 32) p (r.key / 32)
    let s := ((s.set F.poolCfg_G i (r.fld 1 0 3)).set F.poolCfg_BASE i (r.fld 1 3 8)).set F.poolCfg_SPAN i (r.fld 1 11 9)
    let s := s.set F.poolCfg_LEVEL i (r.fld 1 20 4)
    let s := (s.set F.reclaimTgt_ADDR i (r.fld 3 0 15)).set F.reclaimTgt_PORT i (r.fld 3 15 2)
    let s := (s.set F.reclaimTgt_CLUSTER i (r.fld 3 17 4)).set F.reclaimTgt_DIE i (r.fld 3 21 4)
    let s := (s.set F.reclaimTgt_PKG i (r.fld 3 25 4)).set F.reclaimTgt_VALID i (r.fld 3 29 1)
    s.set F.poolStat_LWM i (freeBlocks s (r.key % 32) p (r.key / 32)).length) s

/-- Clear the pools of a partition (R168). -/
def clearPools (p : Nat) (s : State) : State :=
  (List.range 32).foldl (fun s r => (List.range 4).foldl (fun s q =>
    let i := poolIdx r p q
    let s := ((s.set F.poolCfg_G i 0).set F.poolCfg_BASE i 0).set F.poolCfg_SPAN i 0
    ((s.set F.poolCfg_LEVEL i 0).set F.reclaimTgt_VALID i 0).set F.poolStat_LWM i 0) s) s

/-- Set the counters of R136 to 0. -/
def clearCounts (p : Nat) (s : State) : State :=
  let s := { s with cl := { s.cl with
    cnt := s.cl.cnt.filter fun e => e.1 / 8 ≠ p
    progPrev := mdel s.cl.progPrev p
    unblocked := mput s.cl.unblocked p 1 } }
  ((s.set F.tokProd_COUNT p 0).set F.tokCons_COUNT p 0).set F.progress_COUNT p 0

/-- The commit tick T_go: the first multiple of 256 at least 256 ticks ahead (R180). -/
def nextMultiple (t : W) (ahead : Nat) : W := w48 ((t.toNat + ahead + 255) / 256 * 256)

/-- R180: the writes of a PASS. -/
def admitWrites (p : Nat) (k : Cert) (ws : List Nat) (s : State) : State :=
  let pr := k.partition
  let s := (k.recs.filter fun r => r.typ = tCluster && r.fld 2 26 1 = 1).foldl (fun s r => loadUserSet r.key (r.fld 2 21 5) s) s
  let s := (s.set F.partCfg_CEIL p (pr.fld 1 0 4)).set F.partCfg_REVOKE_ACT p (pr.fld 1 9 1)
  let s := (s.set F.partCfg_CERT_ID p k.id).set F.partStat_CRIT p k.crit
  let s := writePools p k s
  let s := s.set F.dlCtl_WIN p (pr.fld 1 4 5)
  let s := if k.crit = 3 then s.set F.dlCtl_ACTION p (pr.fld 1 10 2) else s
  let s := setArith k p 0 1 (setArith k p 0 0 s)
  let s := { s with ap := { s.ap with
    srcs := (s.ap.srcs.filter fun x => x.part ≠ p) ++ k.sources p 0
    tgts := (s.ap.tgts.filter fun x => x.part ≠ p) ++ k.targets s p 0
    certs := mput s.ap.certs p ws
    uncharged := s.ap.uncharged.filter (· ≠ p)
    alone := mdel s.ap.alone p
    oldTgts := s.ap.oldTgts.filter fun x => x.part ≠ p
    loaded := k.clusters.foldl (fun l c => mput l c ((List.range 31).map fun n => rtWord s c (n + 1))) s.ap.loaded
    goAt := mput s.ap.goAt p (nextMultiple s.t 256) } }
  clearCounts p (writeQuota p [k] s)

/-- ADMIT (R178): the certificate is verified, and on PASS its configuration is written; a refusal writes nothing but the verdict (R181).
`r` says whether the loaded user words read back right, and what the reads of their golden copy meet (R161, R162). -/
def admitGraph (r : Rewrite) (s : State) : State :=
  match apTake s 2 with
  | none => s
  | some x =>
    if s.pState x.part ≠ pLoading then apDone (vFail vBadcmd 0) s
    else
      -- the verification comes to the load where only a failing load stops it there
      let loads := (verify s x.part x false false).1 = vFail vLoad 0 && (verify s x.part x false true).1 ≠ vFail vLoad 0
      let (sound, s) := if loads then goldenRead r.ram s else (true, s)
      match verify s x.part x false (r.good && sound) with
      | (v, some (k, ws, _)) => apDone v (admitWrites x.part k ws s)
      | (v, none) => apDone v s

/-- ADMIT (R178). -/
def execAdmit (loadOk : Rewrite) (s : State) : Host.Outcome State Fault Refusal := .next (unlessFatal (admitGraph loadOk) s)

/-- The source tokens that a partition's sources made in this tick carry the epoch and the due of the mode that takes over in it (R180, R195,
R231, R248). -/
def restampMade (p : Nat) (s : State) : State :=
  let ep := s.epoch p
  let mine := s.lens.made.filter fun x => tagPart x.2.tag = p
  let stamp := fun (x : Nat × Token) =>
    let t := x.2.tag
    let tag := mkTag (tagPkg t) (tagDie t) (tagCluster t) (tagInstr t) (tagPort t) p (tagCtx t) ep
    if tagPart t = p then (x.1, { x.2 with tag := tag, due := sourceDue s x.1 p }) else x
  -- one produced token moves from the old epoch's running count to the new one's
  let s := mine.foldl (fun s x => addCnt p (3 + 2 * ep) 1 (addCnt p (3 + 2 * tagEpoch x.2.tag) (2 ^ 48 - 1) s)) s
  { s with lens := { s.lens with made := s.lens.made.map stamp } }

/-- COMMIT: at T_go the clusters run and the partition is GUARANTEED or BEST_EFFORT, with epoch 0 and mode 0 (R180, R192). -/
def commit (p : Nat) (s : State) : State :=
  match mfind s.ap.goAt p with
  | none => s
  | some go =>
    if sdiff s.t go < 0 ∨ s.pState p ≠ pLoading then s
    else
      let s := { s with ap := { s.ap with goAt := mdel s.ap.goAt p } }
      let s := (s.clustersOf p).foldl (fun s c =>
        if s.cState c = 1 then
          (List.range 31).foldl (fun s n => setRtAlt (c * 32 + n + 1) (rtWord s c (n + 1)) s) (s.set F.clStatus_STATE c 2)
        else s) s
      let s := (s.set F.partStat_EPOCH p 0).set F.partStat_MODE p 0
      restampMade p (s.set F.partStat_STATE p (if s.get F.partStat_CRIT p = 3 then pBestEffort else pGuaranteed))

/-- COMMIT (R180). -/
def execCommit (p : Fin 8) (s : State) : Host.Outcome State Fault Refusal := .next (unlessFatal (commit p) s)

/-! ### WITHDRAW (R168) -/

/-- WITHDRAW: RELEASING, held values discarded, clusters to UNOWNED; a quarantined cluster leaves the partition as it is (DEDUCED, log 128).
In RELEASING it is accepted and finds its steps already taken (DESIGN CHOICE, log 166). -/
def withdraw (s : State) : State :=
  match apTake s 3 with
  | none => s
  | some x =>
    let p := x.part
    if s.pState p = pFree then apDone (vFail vBadcmd 0) s
    else if s.pState p = pReleasing then apDone vPass s
    else
      let s := s.set F.partStat_STATE p pReleasing
      let s := discardHeldIf (fun o => o.part = p) s
      let s := (s.clustersOf p).foldl (fun s c => giveUpCluster p c (s.set F.migCtl_ACTIVE c 0)) s
      let s := { s with
        staged := s.staged.filter fun y => !(y.part = p && (y.kind = 1 || y.kind = 2))
        cl := { s.cl with
          reclaim := s.cl.reclaim.filter fun r => r.part ≠ p
          reclaimWait := s.cl.reclaimWait.filter (· ≠ p) }
        ap := { s.ap with
          goAt := mdel s.ap.goAt p
          migs := s.ap.migs.filter fun g => g.part ≠ p
          drainEnd := mdel s.ap.drainEnd p
          oldDiscard := mdel s.ap.oldDiscard p } }
      let s := (s.set F.modeStat_STAGING p 0).set F.modeStat_DRAINING p 0
      apDone vPass (countClusters p (s.set F.dlStat_RECLAIMING p 0))

/-- WITHDRAW (R168). -/
def execWithdraw (s : State) : Host.Outcome State Fault Refusal := .next (unlessFatal withdraw s)

/-- R297: a partition enters FREE, so the deferral entries of its banks, and those that name it, go without an answer. -/
def dropDefers (p : Nat) (s : State) : State :=
  let keep := s.bank.defer.filter fun e => s.get F.bankOwn_OWNER e.1 ≠ p
  let left := keep.map fun e => (e.1, e.2.filter fun d => tagPart d.tag ≠ p)
  { s with bank := { s.bank with
    defer := left.filter fun e => !e.2.isEmpty
    answering := s.bank.answering.filter fun e => s.get F.bankOwn_OWNER (e.1 / 4096) ≠ p } }

/-- WITHDRAW_COMPLETE: every cluster is UNOWNED and empty, so the configuration, the charges and the deferred READs go and the
partition is FREE (R168, R297). -/
def withdrawComplete (p : Nat) (s : State) : State :=
  if s.pState p ≠ pReleasing ∨ s.cl.emptying.any (fun e => e.2 = p) ∨ !(s.clustersOf p).isEmpty then s
  else
    let s := dropDefers p (writeQuota p [] (clearPools p s))
    let s := { s with
      cl := { s.cl with
        blocks := s.cl.blocks.filter fun b => b.part ≠ p
        filters := s.cl.filters.filter fun f => f.part ≠ p }
      ap := { s.ap with
        redirects := s.ap.redirects.filter fun r => r.part ≠ p
        srcs := s.ap.srcs.filter fun x => x.part ≠ p
        tgts := s.ap.tgts.filter fun x => x.part ≠ p
        oldTgts := s.ap.oldTgts.filter fun x => x.part ≠ p
        alone := mdel s.ap.alone p
        certs := mdel s.ap.certs p
        uncharged := s.ap.uncharged.filter (· ≠ p)
        suspendedAt := mdel s.ap.suspendedAt p
        lost := s.ap.lost.filter fun x => x.1 ≠ p } }
    let s := s.set F.dlStat_HALTED p 0
    s.set F.partStat_STATE p pFree

/-- WITHDRAW_COMPLETE (R168). -/
def execWithdrawComplete (p : Fin 8) (s : State) : Host.Outcome State Fault Refusal := .next (unlessFatal (withdrawComplete p) s)

/-! ### Mode changes (R192–R195) -/

/-- The partition takes STAGE and MIGRATE: GUARANTEED, BEST_EFFORT or REVOKED, no mode change under way and no migration open (R167). One
that is staged and not yet committed counts as under way (DESIGN CHOICE, log 129). -/
def changeable (s : State) (p : Nat) : Bool :=
  (s.pState p = pGuaranteed || s.pState p = pBestEffort || s.pState p = pRevoked)
    && !s.flag F.modeStat_DRAINING p && !s.flag F.modeStat_STAGING p && !(s.ap.migs.any fun g => g.part = p)

/-- STAGE: a mode change is staged for T_c, or refused: with CAPACITY where the pair of modes does not fit the ledger, with TIME for the tick
or the mode (R193; DESIGN CHOICE, log 129). -/
def stage (s : State) : State :=
  match apTake s 4 with
  | none => s
  | some x =>
    let p := x.part
    let tc := w48 (s.get F.modeTc_T_C p)
    match admitted s p with
    | none => apDone (vFail vBadcmd 0) s
    | some k =>
      if !changeable s p then apDone (vFail vBadcmd 0) s
      else if x.mode = s.get F.partStat_MODE p ∨ k.modes ≤ x.mode ∨ sdiff tc s.t < 4096 ∨ 2 ^ 30 < sdiff tc s.t then
        apDone (vFail vTime 0) s
      else
        match ({ ledgerVf s p k with modes := some [s.get F.partStat_MODE p, x.mode] } : Vf).capacity with
        | some v => apDone v s
        | none =>
          let s := (s.set F.modeStat_STAGING p 1).set F.modeStat_TARGET p x.mode
          apDone vPass (stageStart 1 p x.mode 0 0 tc k.packages s)

/-- STAGE (R193). -/
def execStage (s : State) : Host.Outcome State Fault Refusal := .next (unlessFatal stage s)

/-- MODE_COMMIT: at T_c the epoch flips, the mode's sources, targets and arithmetic take over, and the old epoch drains with the targets it
had (R195). -/
def modeCommit (p : Nat) (s : State) : State :=
  match dueStaged s 1 (some p) with
  | none => s
  | some x =>
    let s := dropStaged x s
    let old := s.epoch p
    let s := (s.set F.partStat_EPOCH p (1 - old)).set F.partStat_MODE p x.mode
    let s := (s.set F.modeStat_STAGING p 0).set F.modeStat_DRAINING p 1
    match admitted s p with
    | none => s
    | some k =>
      let s := setArith k p x.mode (1 - old) s
      let s := restampMade p { s with ap := { s.ap with
        srcs := (s.ap.srcs.filter fun y => y.part ≠ p) ++ k.sources p x.mode
        tgts := (s.ap.tgts.filter fun y => y.part ≠ p) ++ k.targets s p x.mode
        oldTgts := (s.ap.oldTgts.filter fun y => y.part ≠ p) ++ s.ap.tgts.filter fun y => y.part = p
        drainEnd := mput s.ap.drainEnd p (s.ticks + k.drain x.mode) } }
      s.set F.modeStat_OLD_LIVE p (min (epochLive s p old).toNat 0xFFFFFFFF)

/-- A partition as it stands once the switches that are due at this tick's boundary have been made, whether or not their commands have come
yet: COMMIT at T_go and MODE_COMMIT at T_c. What retires or is made in such a tick belongs to the new epoch (R180, R195). -/
def switched (p : Nat) (s : State) : State := modeCommit p (commit p s)

/-- MODE_COMMIT (R195). -/
def execModeCommit (p : Fin 8) (s : State) : Host.Outcome State Fault Refusal := .next (unlessFatal (modeCommit p) s)

/-- A mode change is over: DONE and MODE_DONE, and the ledger charges the new mode alone (R195; after a sweep too: DEDUCED, log 169). The
counts of the old epoch start afresh. -/
def modeDone (p : Nat) (s : State) : State :=
  let old := 1 - s.epoch p
  let s := { s with
    cl := { s.cl with cnt := mdel (mdel s.cl.cnt (p * 8 + 3 + 2 * old)) (p * 8 + 4 + 2 * old) }
    ap := { s.ap with
      drainEnd := mdel s.ap.drainEnd p
      oldDiscard := mdel s.ap.oldDiscard p
      alone := mput s.ap.alone p (s.get F.partStat_MODE p)
      oldTgts := s.ap.oldTgts.filter fun x => x.part ≠ p } }
  raiseEvent (224 + p) ((s.set F.modeStat_DRAINING p 0).set F.modeStat_DONE p 1)

/-- MODE_DRAINED: OLD_LIVE has reached 0 (R195). -/
def modeDrained (p : Nat) (s : State) : State :=
  if s.flag F.modeStat_DRAINING p && s.get F.modeStat_OLD_LIVE p = 0 && (mfind s.ap.oldDiscard p).isNone then modeDone p s else s

/-- MODE_DRAINED (R195). -/
def execModeDrained (p : Fin 8) (s : State) : Host.Outcome State Fault Refusal := .next (unlessFatal (modeDrained p) s)

/-- MODE_SWEEP: DRAIN ticks have passed: old-epoch work is removed, and old-epoch arrivals are discarded for 2^WIN ticks (R195). -/
def modeSweep (p : Nat) (s : State) : State :=
  match mfind s.ap.drainEnd p with
  | none => s
  | some e =>
    if s.ticks < e ∨ !s.flag F.modeStat_DRAINING p then s
    else
      let old := 1 - s.epoch p
      let (_, s) := removeWork p (fun t => tagPart t = p && tagEpoch t = old) s
      let s := discardHeldIf (fun o => o.part = p && (b2n o.epoch = old)) s
      { s with ap := { s.ap with
        drainEnd := mdel s.ap.drainEnd p
        oldDiscard := mput s.ap.oldDiscard p (s.ticks + 2 ^ s.get F.dlCtl_WIN p) } }

/-- MODE_SWEEP (R195). -/
def execModeSweep (p : Fin 8) (s : State) : Host.Outcome State Fault Refusal := .next (unlessFatal (modeSweep p) s)

/-- MODE_DISCARD_END: the discard period after a sweep ends: SWEPT, DONE and MODE_DONE (R195). -/
def modeDiscardEnd (p : Nat) (s : State) : State :=
  match mfind s.ap.oldDiscard p with
  | none => s
  | some e => if s.ticks < e then s else modeDone p (s.set F.modeStat_SWEPT p 1)

/-- MODE_DISCARD_END (R195). -/
def execModeDiscardEnd (p : Fin 8) (s : State) : Host.Outcome State Fault Refusal := .next (unlessFatal (modeDiscardEnd p) s)

/-! ### Migration (R196–R199) -/

/-- MIGRATE: the placement is verified, and TO goes to LOADING under the partition while FROM is copied (R196, R197). FROM, TO and the
number of redirect entries are judged after the certificate, with OWNERSHIP and WORD 0 (DESIGN CHOICE, log 174). -/
def migrate (s : State) : State :=
  match apTake s 5 with
  | none => s
  | some x =>
    let p := x.part
    if !changeable s p then apDone (vFail vBadcmd 0) s
    else
      match verify s p x true true with
      | (v, some (_, ws, some mv)) =>
        if s.cState mv.frm ≠ 2 ∨ s.cOwner mv.frm ≠ p ∨ s.cState mv.dst ≠ 0 ∨ (mfind s.cl.emptying mv.dst).isSome
            ∨ 8 ≤ (s.ap.redirects.filter fun r => r.part = p).length then apDone (vFail vOwnership 0) s
        else
          let s := (s.set F.clStatus_STATE mv.dst 1).set F.clStatus_OWNER mv.dst p
          let s := (s.set F.migCtl_TO mv.frm mv.dst).set F.migCtl_ACTIVE mv.frm 1
          let s := s.set F.migStat_FORWARDED mv.frm 0
          let old := mget [] s.ap.certs p
          let s := { s with ap := { s.ap with migs := s.ap.migs ++ [⟨p, mv.frm, mv.dst, ws, old, none, false, 0⟩] } }
          apDone v (countClusters p (writeQuota p (certsOf [old, ws]) s))
      | (v, _) => apDone v s

/-- MIGRATE (R196). -/
def execMigrate (s : State) : Host.Outcome State Fault Refusal := .next (unlessFatal migrate s)

/-- R197, R274: Aperture copies FROM's instruction store into TO with bulk writes of four slots, two instructions each; `next` of the migration
counts them. -/
def copyPacket (s : State) (g : Mig) : Flit :=
  let a := g.next * 32
  let w := fun k => s.readN (instrAddr g.frm 0 + a + 8 * k) 8
  let hi := fun k => bits (w k) 48 16
  let body : BitVec 144 := w48 (w 1) ++ w48 (w 2) ++ w48 (w 3)
  let into : W := w48 (s.pkg * 2 ^ 44 + (instrAddr g.dst 0 + a))
  let f := mkFlit 3 false (reqPay into (w48 (w 0)) 13 0 true (hubRet s 9 g.next) 1) [body] 8 0 nodeHub
  { f with side := ⟨BitVec.ofNat 16 (hi 0), w48 (hi 1 + hi 2 * 2 ^ 16 + hi 3 * 2 ^ 32), 0⟩ }

/-- A transaction of Aperture awaits its response. -/
def apertureWaits (s : State) : Bool := s.net.timed.any fun x => bits x.ret 11 4 = 8 && bits x.ret 7 4 = 9 && !x.dead

/-- At a tick boundary a migration that is copying sends its next bulk write, where the hub has room for it and its transaction number is free
(DESIGN CHOICE, log 179). -/
def migCopyTick (s : State) : State :=
  let s := { s with net := { s.net with hubRsp := s.net.hubRsp.filter fun r => r.init ≠ 9 } }
  s.ap.migs.foldl (fun s g =>
    let ret := hubRet s 9 g.next
    if g.ts.isSome || 16384 ≤ g.next || !injectRoom s nodeHub 8 0 || s.net.timed.any fun x => x.ret = ret then s
    else
      let f := copyPacket s g
      let s := { s with ap := { s.ap with migs := replaceFirst (fun y => y = g) (fun y => { y with next := g.next + 1 }) s.ap.migs } }
      send f (startTimer ret (reqAddr f.pay) 13 0 true 0 s)) s

/-- The epoch-1 route entry as a word in the layout of RT_ENTRY. -/
def rtAltWord (s : State) (c n : Nat) : Nat :=
  let i := c * 32 + n
  s.get F.rtAlt_CLUSTER i + s.get F.rtAlt_DIE i * 16 + s.get F.rtAlt_PKG i * 256 + s.get F.rtAlt_VALID i * 2 ^ 15

/-- Write SPILL_CFG of a cluster from a CLUSTER record. -/
def spillFrom (k : Cert) (c : Nat) (s : State) : State :=
  match k.find tCluster c 0 with
  | none => s
  | some r =>
    ((s.set F.spillCfg_BANK c (r.fld 1 0 4)).set F.spillCfg_BASE c (r.fld 1 4 10)).set F.spillCfg_COUNT c (r.fld 1 14 11)

/-- MIGRATION_COPY_DONE: every bulk write of the copy has been answered; route sets, user set and SPILL_CFG follow, and the switch tick is staged.
A LOAD failure returns TO to UNOWNED (R197). -/
def migrationCopyDone (p : Nat) (r : Rewrite) (s : State) : State :=
  match s.ap.migs.find? fun g => g.part = p && g.ts.isNone && 16384 ≤ g.next && !apertureWaits s with
  | none => s
  | some g =>
    match parseCert g.cert with
    | .error _ => s
    | .ok k =>
      let sets := (k.recs.filter fun r => r.typ = tCluster && r.key = g.dst && r.fld 2 26 1 = 1).map fun r => r.fld 2 21 5
      let (sound, s) := if sets.isEmpty then (true, s) else goldenRead r.ram s
      if (!sets.isEmpty && !(r.good && sound)) ∨ !(sets.all fun n => (mfind s.mc.gUser n).isSome) then
        let s := { s with ap := { s.ap with migs := s.ap.migs.erase g } }
        let s := giveUpCluster p g.dst (s.set F.migCtl_ACTIVE g.frm 0)
        lateVerdict p 5 vLoad (countClusters p (writeQuota p (certsOf [g.old]) s))
      else
        let s := (List.range 31).foldl (fun s n =>
          setRtAlt (g.dst * 32 + n + 1) (rtAltWord s g.frm (n + 1)) (setRtEntry (g.dst * 32 + n + 1) (rtWord s g.frm (n + 1)) s)) s
        let s := sets.foldl (fun s n => loadUserSet g.dst n s) s
        let s := spillFrom k g.dst s
        let ts := nextMultiple s.t 4096
        let loaded := mput s.ap.loaded g.dst (loadedRoutes s g.frm)
        let s := { s with ap := { s.ap with
          migs := replaceFirst (fun y => y = g) (fun y => { y with ts := some ts }) s.ap.migs
          loaded := loaded } }
        stageStart 2 p 0 g.frm g.dst ts k.packages s

/-- MIGRATION_COPY_DONE (R197). -/
def execMigrationCopyDone (p : Fin 8) (loadOk : Rewrite) (s : State) : Host.Outcome State Fault Refusal :=
  .next (unlessFatal (migrationCopyDone p loadOk) s)

/-- A route word that names a cluster of a package is rewritten to name another. -/
def rerouteWord (pkg frm dst w : Nat) : Nat :=
  if bits w 15 1 = 1 ∧ bits w 8 4 = pkg ∧ cIdx (bits w 4 4) (bits w 0 4) = frm then
    dst % 16 + dst / 16 * 16 + pkg * 256 + 2 ^ 15
  else w

/-- A destination kept in three fields is rewritten. -/
def rerouteFields (pkg frm dst : Nat) (fc fd fp : Fld) (i : Nat) (s : State) : State :=
  if s.get fp i = pkg ∧ cIdx (s.get fd i) (s.get fc i) = frm then (s.set fc i (dst % 16)).set fd i (dst / 16) else s

/-- A tag of FROM names TO (R197). -/
def retagTo (p pkg frm dst : Nat) (t : W) : W :=
  if tagPart t = p ∧ tagPkg t = pkg ∧ cIdx (tagDie t) (tagCluster t) = frm then
    mkTag pkg (dst / 16) (dst % 16) (tagInstr t) (tagPort t) p (tagCtx t) (tagEpoch t)
  else t

/-- R197: every route entry, source destination and reclaim target of a partition in this package that names FROM names TO, with the source
tokens of this tick (R231, R248) and the deferred READs of its banks, and a RETURN that names FROM is redirected. FROM and TO lie in package `pkg`. -/
def rerouteAll (p pkg frm dst : Nat) (s : State) : State :=
  let s := (s.clustersOf p).foldl (fun s c => (List.range 31).foldl (fun s n =>
    let i := c * 32 + n + 1
    setRtAlt i (rerouteWord pkg frm dst (rtAltWord s c (n + 1))) (setRtEntry i (rerouteWord pkg frm dst (rtWord s c (n + 1))) s)) s) s
  let s := (List.range 256).foldl (fun s i =>
    let s := if s.get F.trigCfg_PART i = p then
      rerouteFields pkg frm dst F.trigDst_CLUSTER F.trigDst_DIE F.trigDst_PKG i s else s
    if s.get F.chCfg_PART i = p then rerouteFields pkg frm dst F.chDst_CLUSTER F.chDst_DIE F.chDst_PKG i s else s) s
  let s := (List.range 32).foldl (fun s r => (List.range 4).foldl (fun s q =>
    rerouteFields pkg frm dst F.reclaimTgt_CLUSTER F.reclaimTgt_DIE F.reclaimTgt_PKG (poolIdx r p q) s) s) s
  let held := s.clustersOf p
  { s with
    lens := { s.lens with made := s.lens.made.map fun (x : Nat × Token) => (x.1, { x.2 with tag := retagTo p pkg frm dst x.2.tag }) }
    bank := { s.bank with defer := s.bank.defer.map fun (e : Nat × List Defer) =>
      (e.1, e.2.map fun (d : Defer) => { d with tag := retagTo p pkg frm dst d.tag }) }
    ap := { s.ap with
    redirects := s.ap.redirects ++ [(⟨p, pkg, frm, dst⟩ : Redirect)]
    loaded := s.ap.loaded.map fun (e : Nat × List Nat) => if held.contains e.1 then (e.1, e.2.map (rerouteWord pkg frm dst)) else e } }

/-- MIGRATION_SWITCH: at T_s every route, source destination and reclaim target that names FROM names TO, in every package; in FROM's own TO
runs and FROM migrates, and its wait list goes to TO (R197). A FROM or TO that was QUARANTINED meanwhile stays so, and FROM then keeps what it
holds (R194, R199; DESIGN CHOICE, log 200). -/
def migrationSwitch (p : Nat) (s : State) : State :=
  match dueStaged s 2 (some p) with
  | none => s
  | some x =>
    let s := rerouteAll p x.src x.frm x.dst (dropStaged x s)
    if x.src ≠ s.pkg then s
    else
      match s.ap.migs.find? fun g => g.part = p && !g.switched with
      | none => s
      | some g =>
        let s := { s with
          ap := { s.ap with
            migs := replaceFirst (fun y => y = g) (fun y => { y with switched := true }) s.ap.migs
            alone := mdel s.ap.alone p
            certs := mput s.ap.certs p g.cert } }
        if s.cState g.dst ≠ 1 then s
        else
          let s := s.set F.clStatus_STATE g.dst 2
          if s.cState g.frm ≠ 2 then s
          else
            let waits := s.cl.waits.map fun (w : Park) => if w.cluster = g.frm then { w with cluster := g.dst } else w
            noteBreak p ({ s with cl := { s.cl with waits := waits } }.set F.clStatus_STATE g.frm 3)

/-- MIGRATION_SWITCH (R197). -/
def execMigrationSwitch (p : Fin 8) (s : State) : Host.Outcome State Fault Refusal := .next (unlessFatal (migrationSwitch p) s)

/-- DRAIN of R199: tokens of the partition on their way to FROM, and what FROM still holds. An enabled instance counts as its slot, whose
spill records do not count again. Tokens under way in other packages are not seen here (DEDUCED, log 175). -/
def migDrain (s : State) (c : Nat) : Nat :=
  let toward := fun (t : W) => tagPkg t = s.pkg && cIdx (tagDie t) (tagCluster t) = c
  (s.net.flits.filter fun f => f.ty = 0 && toward (flitToken f).tag).length
    + (s.cl.injQ.filter fun f => f.ty = 0 && toward (flitToken f).tag).length
    + (s.cl.emit.filter fun e => toward e.2.tag).length
    + s.wayCount c + ((List.range 2048).map fun i => (s.chainOf c i).length).foldl (· + ·) 0
    + (s.cl.slots.filter fun x => x.cluster = c).length
    + ((s.cl.parks ++ s.cl.seqHeld).filter fun x => x.cluster = c).length

/-- MIGRATION_DRAINED: at a boundary with DRAIN 0 FROM goes to UNOWNED, its charges and the stub leave the ledger, and MIG_DONE is raised
(R199). While TO is QUARANTINED FROM is kept (DESIGN CHOICE, log 200). -/
def migrationDrained (p : Nat) (s : State) : State :=
  match s.ap.migs.find? fun g => g.part = p && g.switched with
  | none => s
  | some g =>
    if migDrain s g.frm ≠ 0 ∨ s.cState g.frm ≠ 3 ∨ s.cState g.dst = 4 then s
    else
      let s := { s with ap := { s.ap with migs := s.ap.migs.erase g } }
      let s := releaseCluster p g.frm (s.set F.migCtl_ACTIVE g.frm 0)
      raiseEvent (240 + p) (countClusters p (writeQuota p (certsOf [g.cert]) s))

/-- MIGRATION_DRAINED (R199). -/
def execMigrationDrained (p : Fin 8) (s : State) : Host.Outcome State Fault Refusal := .next (unlessFatal (migrationDrained p) s)

/-! ### Guarantees (R186–R191) -/

/-- GUARANTEE_RESTORE: one full chain bound after the reload and after the last miss, a SUSPENDED partition is GUARANTEED again
(R188). -/
def guaranteeRestore (p : Nat) (s : State) : State :=
  match mfind s.ap.suspendedAt p, admitted s p with
  | some t0, some k =>
    let reloading := (s.clustersOf p).any fun c => (mfind s.cl.reload c).isSome
    if s.pState p = pSuspended ∧ !reloading ∧ t0 + (ledgerVf s p k).maxTicks ≤ s.ticks then
      { s with ap := { s.ap with suspendedAt := mdel s.ap.suspendedAt p } }.set F.partStat_STATE p pGuaranteed
    else s
  | _, _ => s

/-- GUARANTEE_RESTORE (R188). -/
def execGuaranteeRestore (p : Fin 8) (s : State) : Host.Outcome State Fault Refusal := .next (unlessFatal (guaranteeRestore p) s)

/-- A partition's quotas leave the ledger (R190, R278). -/
def uncharge (p : Nat) (s : State) : State :=
  writeQuota p [] { s with ap := { s.ap with uncharged := s.ap.uncharged.filter (· ≠ p) ++ [p] } }

/-- revoke(p) of R190. -/
def revoke (p reason : Nat) (s : State) : State :=
  let s := markLost p reason s
  if s.get F.partCfg_REVOKE_ACT p = 0 then s.set F.partStat_STATE p pRevoked
  else uncharge p (stopPartition p s)

/-- R166: the partitions that satisfy a condition, from the lowest criticality upwards. -/
def fromLowest (s : State) (c : Nat → Bool) : List Nat :=
  [3, 2, 1, 0].flatMap fun k => [7, 6, 5, 4, 3, 2, 1, 0].filter fun p => s.get F.partStat_CRIT p = k && c p

/-- REASON of a partition that the loop revokes: segment capacity where it uses a segment of reduced capacity, else the re-check (R200;
DESIGN CHOICE, log 177). -/
def refitReason (s : State) (p : Nat) : Nat :=
  match admitted s p with
  | some k => if k.segments.any fun g => (mfind s.ap.segCap g).isSome then 4 else 7
  | none => 7

/-- The loop of R190: while some GUARANTEED partition no longer fits, halt a best-effort partition or revoke the lowest. -/
def refit : Nat → State → State
  | 0, s => s
  | n + 1, s =>
    if (List.range 8).all fun p => s.pState p ≠ pGuaranteed || stillFits s p then s
    else
      match [7, 6, 5, 4, 3, 2, 1, 0].find? fun p => s.pState p = pBestEffort with
      | some p => refit n (uncharge p (stopPartition p s))
      | none =>
        match fromLowest s fun p => s.pState p = pGuaranteed with
        | p :: _ => refit n (revoke p (refitReason s p) s)
        | [] => s

/-- LEDGER_REEXAMINE: after a loss of capacity the directly affected partitions lose their guarantee, then the rest are fitted (R190). A mode
change or migration whose switch tick has come switches first (R201). -/
def ledgerReexamine (s : State) : State :=
  if !s.ap.reexamine || (dueStaged s 1 none).isSome || (dueStaged s 2 none).isSome then s
  else
    let lost := s.ap.lost
    let hit := fromLowest s fun p => (lost.any fun x => x.1 = p) && (s.pState p = pGuaranteed || s.pState p = pSuspended)
    let s := hit.foldl (fun s p => revoke p (((lost.find? fun x => x.1 = p).map (·.2)).getD 7) s) s
    refit 16 { s with ap := { s.ap with lost := [], reexamine := false } }

/-- LEDGER_REEXAMINE (R190). -/
def execLedgerReexamine (s : State) : Host.Outcome State Fault Refusal := .next (unlessFatal ledgerReexamine s)

/-- R189: a loss of capacity that affects a partition directly. -/
def loseCapacity (ps : List Nat) (reason : Nat) (s : State) : State :=
  { s with ap := { s.ap with reexamine := true, lost := s.ap.lost ++ ps.map fun p => (p, reason) } }

/-- The partition that owns a cluster, if any. -/
def ownerList (s : State) (c : Nat) : List Nat := if s.cOwner c < 8 then [s.cOwner c] else []

/-- R161, R383: a cluster is quarantined: its contents stay, its PEs stop, and the ledger is re-examined. -/
def quarantine (c : Nat) (s : State) : State :=
  if s.cState c = 4 ∨ s.cState c = 5 then s
  else
    let s := loseCapacity (ownerList s c) 1 s
    let s := noteBreak (s.cOwner c) (s.set F.clStatus_STATE c 4)
    (List.range 16).foldl (fun s pe => s.set F.peStat_STOPPED (c * 16 + pe) 1) s

/-! ### Targets (R172) -/

/-- R172: the target is assigned to the partition, for outputs of an epoch: while a mode change drains, the old epoch keeps the targets of the
old mode (R195). -/
def targetMine (s : State) (kind index p : Nat) (epoch : Bool) : Bool :=
  let old := s.flag F.modeStat_DRAINING p && b2n epoch ≠ s.epoch p
  (if old then s.ap.oldTgts else s.ap.tgts).any fun t => t.kind = kind && t.index = index && t.part = p

/-- R186: a delivery miss of a partition. -/
def deliveryMiss (p : Nat) (emitAt : Bool) (kind index : Nat) (tag due : W) (s : State) : State :=
  let st := s.pState p
  if !(st = pGuaranteed || st = pRevoked || st = pSuspended) then s
  else
    let s := s.inc F.partStat_MISSES p
    let s := if st = pSuspended then { s with ap := { s.ap with suspendedAt := mput s.ap.suspendedAt p s.ticks } } else s
    let s :=
      if s.flag F.missInfo_VALID 0 then s
      else
        let s := (s.set F.missInfo_PART 0 p).set F.missInfo_EMIT 0 (b2n emitAt)
        let s := (s.set F.missInfo_KIND 0 kind).set F.missInfo_PKG 0 s.pkg
        let s := (s.set F.missInfo_INDEX 0 index).set F.missTag_TAG 0 tag.toNat
        let s := (s.set F.missT_T 0 s.t.toNat).set F.missDue_DUE 0 due.toNat
        s.set F.missInfo_VALID 0 1
    if st = pGuaranteed then report 14 (loc 1 p) index (some p) false s else s

end Sys2Proof.Machine
end

