-- ==== Sys2Proof/Machine/Fifo.lean ====
section
/-!
DEFINITION. Sys2Proof/Machine/Fifo.lean: the packing FIFO (R252–R256). FIFOs 0–31 are the ingress FIFOs of the lanes, 32–95 those of the
capture streams.
-/
namespace Sys2Proof.Machine
open Sys2Proof

def Fifo.empty : Fifo := ⟨[], none, none, false, false, false⟩

def State.fifo (s : State) (k : Nat) : Fifo := mget Fifo.empty s.sc.fifos k
def State.setFifo (s : State) (k : Nat) (f : Fifo) : State :=
  { s with sc := { s.sc with fifos := mset Fifo.empty s.sc.fifos k f } }

/-- The stages of the register chain (R252). -/
def pfDepth : Nat := 16

/-- A finished word moves into the chain when it has room. -/
def Fifo.settle (f : Fifo) : Fifo :=
  match f.done with
  | some w => if f.chain.length < pfDepth then { f with chain := f.chain ++ [w], done := none } else f
  | none => f

/-- A write finds the chain and the assembly register full (R255). -/
def Fifo.isFull (f : Fifo) : Bool := f.done.isSome && pfDepth ≤ f.chain.length

/-- An entry: its bits, their number, the marks END and LAST, the ERR flag, and what goes with the word. -/
structure PfEntry where
  data : Nat
  width : Nat
  last : Bool
  fin : Bool
  err : Bool
  pos : Nat
  t : BitVec 52
  st : Nat
  deriving DecidableEq, Repr

/-- The assembly register pushes its word; VB counts its bytes (R252, R253). -/
def Fifo.close (f : Fifo) (w : PfWord) (bits : Nat) (last : Bool) : Fifo :=
  { f with part := none, done := some { w with vb := bits / 8, last := last, gap := f.gap }, gap := false }.settle

/-- An entry reaches the assembly register (R252, R254, R255); the answer names the discarded entries that OVF counts. -/
def Fifo.put (f : Fifo) (e : PfEntry) : Fifo × Nat :=
  let f := f.settle
  if f.discarding then ({ f with discarding := !e.last, dropping := f.dropping && !e.last }, 1)
  else if f.dropping then ({ f with dropping := !e.last }, 0)
  else if f.isFull then ({ f with gap := true, discarding := !e.last }, 1)
  else
    let (w, n) := f.part.getD (⟨0, 0, false, false, false, e.pos, e.t, 0⟩, 0)
    let w := { w with data := w48 (w.data.toNat + e.data % 2 ^ e.width * 2 ^ n), err := w.err || e.err, st := w.st ||| e.st }
    let n := n + e.width
    if e.last || e.fin || 48 ≤ n then (f.close w n e.last, 0) else ({ f with part := some (w, n) }, 0)

/-- Put the newest word's data before the data of the `n` words that came before it, as far as they still stand in the FIFO. -/
def Fifo.before (f : Fifo) (n : Nat) : Fifo :=
  let all := f.chain ++ f.done.toList
  let datas := all.map (·.data)
  let keep := datas.length - 1 - n
  let moved := datas.take keep ++ datas.drop (datas.length - 1) ++ (datas.drop keep).dropLast
  let words := (all.zip moved).map fun x => { x.1 with data := x.2 }
  match f.done with
  | some _ => { f with chain := words.dropLast, done := words.getLast? }
  | none => { f with chain := words }

/-- The event of a FIFO: SC_FIFO for an ingress FIFO (R343). -/
def pfEvent (k : Nat) (s : State) : State := if k < 32 then raiseEvent (168 + k) s else s

/-- Write an entry to FIFO `k`. A discarded entry counts in OVF and sets OVF_EVT (R255); the event is raised when OVF_EVT is set. -/
def pfPut (k : Nat) (e : PfEntry) (s : State) : State :=
  let f := s.fifo k
  let (f', ovf) := f.put e
  let s := s.setFifo k f'
  if ovf = 0 then s
  else
    let s := s.set F.pfStat_OVF k (s.get F.pfStat_OVF k + ovf)
    if f.discarding && s.flag F.pfStat_OVF_EVT k then s else pfEvent k (s.set F.pfStat_OVF_EVT k 1)

/-- FIFO_IDLE_FLUSH: a partial word that has been idle for IDLE cycles is pushed padded, never with LAST (R253). -/
def fifoIdleFlush (k : Nat) (s : State) : State :=
  let f := (s.fifo k).settle
  match f.part with
  | some (w, n) => if s.get F.pfCfg_IDLE k = 0 ∨ f.done.isSome then s else s.setFifo k (f.close w n false)
  | none => s

/-- R253. -/
def execFifoIdleFlush (k : Fin 96) (s : State) : Host.Outcome State Fault Refusal := .next (fifoIdleFlush k s)

/-- The words of a chain after the first one marked LAST, and the number of words up to it, if there is one (R254). -/
def afterLast : List PfWord → Option (List PfWord × Nat)
  | [] => none
  | w :: l => if w.last then some (l, 1) else (afterLast l).map fun r => (r.1, r.2 + 1)

/-- A DROP of FIFO `k` (R254). -/
def pfDrop (k : Nat) (s : State) : State :=
  let f := (s.fifo k).settle
  if f.dropping then s
  else
    let all := f.chain ++ f.done.toList
    match afterLast all with
    | some (rest, n) =>
      (s.setFifo k { f with chain := rest, done := none }).set F.pfStat_DROPPED k (s.get F.pfStat_DROPPED k + n)
    | none =>
      (s.setFifo k { f with chain := [], done := none, part := none, dropping := true }).set F.pfStat_DROPPED k
        (s.get F.pfStat_DROPPED k + all.length)

/-- A word of FIFO `k` is read at the head of its chain and checked (R256): the word, and whether it is poisoned. `natural` is the error
in its check: 0 none, 1 single, 2 double. -/
def pfTake (k natural : Nat) (s : State) : Option (PfWord × Bool) × State :=
  let f := (s.fifo k).settle
  match f.chain with
  | [] => (none, s)
  | w :: rest =>
    let s := s.setFifo k { f with chain := rest }.settle
    let (r, inj, s) := secded [24, 25] (loc 6 k) natural s
    let r := if r = 1 && !s.flag F.pfCfg_PROT k then 2 else r
    if r = 0 then (some (w, false), s)
    else if r = 1 then (some (w, false), report 24 (loc 6 k) 0 none inj (s.inc F.pfStat_CORR k))
    else (some (w, true), pfEvent k (report 25 (loc 6 k) 0 none inj (s.set F.pfStat_PERR_EVT k 1)))

end Sys2Proof.Machine
end

