-- ==== Sys2Proof/Machine/LineCode.lean ====
section
/-!
DEFINITION. Sys2Proof/Machine/LineCode.lean: the 8b/10b code groups and running disparity of the sample lanes (R240). The spec names the tables
of IEEE 802.3 Clause 36 and does not print them: they are written here from that standard (PRESUMED, log 182). A group is written as it is
sent, bit a first: bit 9 is a and bit 0 is j. A running disparity is true when it is positive.
-/
namespace Sys2Proof.Machine
open Sys2Proof

/-- What a received group is: a data group, a special group, or one that is in no table or breaks the running disparity. -/
inductive LineCode
  | data (b : Nat)
  | special (b : Nat)
  | invalid
  deriving DecidableEq, Repr

/-- The sub-blocks abcdei of D0–D31 and fghj of .0–.7 at negative disparity. -/
def sixNeg : List Nat :=
  [0b100111, 0b011101, 0b101101, 0b110001, 0b110101, 0b101001, 0b011001, 0b111000, 0b111001, 0b100101, 0b010101, 0b110100, 0b001101,
    0b101100, 0b011100, 0b010111] ++
  [0b011011, 0b100011, 0b010011, 0b110010, 0b001011, 0b101010, 0b011010, 0b111010, 0b110011, 0b100110, 0b010110, 0b110110, 0b001110,
    0b101110, 0b011110, 0b101011]
def fourNeg : List Nat := [0b1011, 0b1001, 0b0101, 0b1100, 0b1101, 0b1010, 0b0110, 0b1110]

/-- The ones of the low `n` bits of `v`. -/
def onesOf (v n : Nat) : Nat := ((List.range n).filter fun i => v.testBit i).length

/-- The sub-block abcdei of `x`, of K28 where `k` marks a special group. -/
def enc6 (k : Bool) (x : Nat) (rd : Bool) : Nat :=
  let c := if k && x = 28 then 0b001111 else sixNeg.getD x 0
  if rd && (onesOf c 6 ≠ 3 || c = 0b111000) then 63 - c else c

/-- The disparity after a sub-block of `n` bits. -/
def rdAfterSub (c n : Nat) (rd : Bool) : Bool :=
  let o := onesOf c n
  if n < 2 * o then true
  else if 2 * o < n then false
  else if c = 2 ^ (n / 2) - 1 then true
  else if c = 2 ^ n - 2 ^ (n / 2) then false
  else rd

/-- The sub-block fghj of `y` after `x`, at the disparity after abcdei. -/
def enc4 (k : Bool) (x y : Nat) (rd : Bool) : Nat :=
  let alt := y = 7 && (k || (if rd then [11, 13, 14] else [17, 18, 20]).contains x)
  let c := if alt then 0b0111 else fourNeg.getD y 0
  let flip := if k && x = 28 && [1, 2, 5, 6].contains y then !rd else rd && (onesOf c 4 ≠ 2 || c = 0b1100)
  if flip then 15 - c else c

/-- The group of a byte. -/
def encode10 (k : Bool) (b : Nat) (rd : Bool) : BitVec 10 :=
  let x := b % 32
  let six := enc6 k x rd
  BitVec.ofNat 10 (six * 16 + enc4 k x (b / 32) (rdAfterSub six 6 rd))

/-- The disparity after a group. -/
def rdAfter (g : BitVec 10) (rd : Bool) : Bool :=
  rdAfterSub (g.toNat % 16) 4 (rdAfterSub (g.toNat / 16) 6 rd)

/-- The meaning of a received group at a disparity. -/
def decode10 (g : BitVec 10) (rd : Bool) : LineCode :=
  let six := g.toNat / 16
  let four := g.toNat % 16
  let rd4 := rdAfterSub six 6 rd
  if enc6 true 28 rd = six then
    match (List.range 8).find? fun y => enc4 true 28 y rd4 = four with
    | some y => .special (y * 32 + 28)
    | none => .invalid
  else
    match (List.range 32).find? fun x => enc6 false x rd = six with
    | none => .invalid
    | some x =>
      match (List.range 8).find? fun y => enc4 false x y rd4 = four with
      | some y => .data (y * 32 + x)
      | none => if [23, 27, 29, 30].contains x && enc4 true x 7 rd4 = four then .special (224 + x) else .invalid

/-- The special groups that the lanes use (R240). -/
def sofCode : Nat := 0xBC
def alignCode : Nat := 0x3C
def idleCode : Nat := 0x1C

/-- A run of bytes as groups, with the disparity after it. -/
def encodeRun : Bool → List (Bool × Nat) → List (BitVec 10) × Bool
  | rd, [] => ([], rd)
  | rd, (k, b) :: l =>
    let g := encode10 k b rd
    let r := encodeRun (rdAfter g rd) l
    (g :: r.1, r.2)

end Sys2Proof.Machine
end

