-- ==== Sys2Proof/Machine/AuxPins.lean ====
section
/-!
DEFINITION. Sys2Proof/Machine/AuxPins.lean: the auxiliary pins' first-event functions: what second boundaries, timers and trigger crossings do
to the pins that show them (R446).
-/
namespace Sys2Proof.Machine
open Sys2Proof

def AuxPin.empty : AuxPin := ⟨0, false, false, false, false, 0, 0, 0⟩

def State.aux (s : State) (k : Nat) : AuxPin := mget AuxPin.empty s.port.aux k
def State.setAux (s : State) (k : Nat) (p : AuxPin) : State := { s with port := { s.port with aux := mset AuxPin.empty s.port.aux k p } }

def fHiz : Nat := 0
def fGpo : Nat := 1
def fEvin : Nat := 2
def fIlko : Nat := 3
def fFlto : Nat := 4
def fPpso : Nat := 5
def fTmro : Nat := 6
def fTrgo : Nat := 7
def fMpfs : Nat := 8

/-- A pin drives high for `n` ticks from now. -/
def auxPulse (k n : Nat) (s : State) : State :=
  s.setAux k { s.aux k with level := true, driven := true, started := true, ends := s.ticks + n }

/-- A pin toggles; the level of its first drive from high impedance is open. -/
def auxToggle (k : Nat) (s : State) : State :=
  let p := s.aux k
  if p.driven then s.setAux k { p with level := !p.level, started := true }
  else
    let (v, s) := s.freeVal 1
    s.setAux k { p with level := v = 1, driven := true, started := true }

/-- An event of a first-event function reaches the pins that show it (DESIGN CHOICE, log 120). -/
def auxEvent (func sel : Nat) (s : State) : State :=
  (List.range 32).foldl (fun s k =>
    if s.get F.auxCfg_ACTIVE k ≠ func then s
    else if func = fPpso then auxPulse k 25000 s
    else if (s.aux k).sel ≠ sel then s
    else if func = fTmro then auxToggle k s
    else if func = fTrgo then auxPulse k 16 s
    else s) s

/-- At a tick boundary: pulses that are over end, and a second boundary of R207 starts PPSO's pulses. -/
def auxTick (s : State) : State :=
  let s := (List.range 32).foldl (fun s k =>
    let p := s.aux k
    let f := s.get F.auxCfg_ACTIVE k
    if (f = fPpso ∨ f = fTrgo) ∧ p.started ∧ p.level ∧ p.ends ≤ s.ticks then s.setAux k { p with level := false } else s) s
  if (s.era.toNat * 2 ^ 48 + s.t.toNat) % 250000000 = 0 then auxEvent fPpso 0 s else s

end Sys2Proof.Machine
end

