-- ==== Sys2Proof/Machine/RscTable.lean ====
section
/-!
DEFINITION. Sys2Proof/Machine/RscTable.lean: the default coefficient table of the resampler (R234), from the formula of the rule. The
prototype is symmetric, so entries 0 to 16,384 are listed, 256 to a number, 24 bits each, entry 0 of a group lowest.
-/
namespace Sys2Proof.Machine

def rscChunk0 : Nat := 0xA20000A30000A30000A40000A40000A40000A50000A50000A60000A60000A70000A70000A70000A80000A80000A90000A90000AA0000AA0000AA0000AB0000AB0000AC0000AC0000AC0000AD0000AD0000AD0000AE0000AE0000AF0000AF0000AF0000B00000B00000B00000B10000B10000B10000B20000B20000B20000B30000B30000B30000B40000B40000B40000B50000B50000B50000B50000B60000B60000B60000B70000B70000B70000B70000B80000B80000B80000B90000B90000B90000B90000BA0000BA0000BA0000BA0000BB0000BB0000BB0000BB0000BB0000BC0000BC0000BC0000BC0000BD0000BD0000BD0000BD0000BD0000BE0000BE0000BE0000BE0000BE0000BF0000BF0000BF0000BF0000BF0000BF0000C00000C00000C00000C00000C00000C00000C10000C10000C10000C10000C10000C10000C10000C10000C20000C20000C20000C20000C20000C20000C20000C20000C30000C30000C30000C30000C30000C30000C30000C30000C30000C30000C30000C30000C40000C40000C40000C40000C40000C40000C40000C40000C40000C40000C40000C40000C40000C40000C40000C40000C40000C40000C40000C40000C40000C40000C40000C40000C40000C40000C40000C40000C40000C40000C40000C40000C40000C40000C40000C40000C40000C40000C40000C40000C40000C40000C40000C40000C40000C40000C40000C40000C40000C40000C40000C40000C40000C40000C40000C40000C30000C30000C30000C30000C30000C30000C30000C30000C30000C30000C30000C30000C20000C20000C20000C20000C20000C20000C20000C20000C20000C20000C10000C10000C10000C10000C10000C10000C10000C10000C00000C00000C00000C00000C00000C00000C00000BF0000BF0000BF0000BF0000BF0000BF0000BF0000BE0000BE0000BE0000BE0000BE0000BE0000BD0000BD0000BD0000BD0000BD0000BD0000BC0000BC0000BC0000BC0000BC0000BB0000BB0000BB0000BB0000BB0000BA0000BA0000BA0000BA0000BA
def rscChunk1 : Nat := 0xFFFFBAFFFFBCFFFFBDFFFFBEFFFFC0FFFFC1FFFFC2FFFFC4FFFFC5FFFFC6FFFFC7FFFFC9FFFFCAFFFFCBFFFFCDFFFFCEFFFFCFFFFFD1FFFFD2FFFFD3FFFFD4FFFFD6FFFFD7FFFFD8FFFFD9FFFFDBFFFFDCFFFFDDFFFFDEFFFFE0FFFFE1FFFFE2FFFFE3FFFFE5FFFFE6FFFFE7FFFFE8FFFFEAFFFFEBFFFFECFFFFEDFFFFEEFFFFF0FFFFF1FFFFF2FFFFF3FFFFF4FFFFF6FFFFF7FFFFF8FFFFF9FFFFFAFFFFFBFFFFFDFFFFFEFFFFFF00000000000100000200000400000500000600000700000800000900000A00000C00000D00000E00000F00001000001100001200001300001400001600001700001800001900001A00001B00001C00001D00001E00001F00002000002100002200002300002400002600002700002800002900002A00002B00002C00002D00002E00002F00003000003100003200003300003400003500003600003700003800003900003A00003B00003C00003D00003E00003E00003F00004000004100004200004300004400004500004600004700004800004900004A00004B00004C00004C00004D00004E00004F00005000005100005200005300005400005400005500005600005700005800005900005A00005A00005B00005C00005D00005E00005F00005F00006000006100006200006300006400006400006500006600006700006700006800006900006A00006B00006B00006C00006D00006E00006E00006F00007000007100007100007200007300007400007400007500007600007700007700007800007900007900007A00007B00007C00007C00007D00007E00007E00007F00008000008000008100008200008200008300008400008400008500008600008600008700008700008800008900008900008A00008B00008B00008C00008C00008D00008E00008E00008F00008F00009000009000009100009200009200009300009300009400009400009500009600009600009700009700009800009800009900009900009A00009A00009B00009B00009C00009C00009D00009D00009E00009E00009F00009F0000A00000A00000A10000A10000A2
def rscChunk2 : Nat := 0xFFFE20FFFE21FFFE23FFFE25FFFE26FFFE28FFFE2AFFFE2CFFFE2DFFFE2FFFFE31FFFE33FFFE34FFFE36FFFE38FFFE39FFFE3BFFFE3DFFFE3FFFFE40FFFE42FFFE44FFFE46FFFE47FFFE49FFFE4BFFFE4DFFFE4EFFFE50FFFE52FFFE53FFFE55FFFE57FFFE59FFFE5AFFFE5CFFFE5EFFFE60FFFE61FFFE63FFFE65FFFE67FFFE68FFFE6AFFFE6CFFFE6DFFFE6FFFFE71FFFE73FFFE74FFFE76FFFE78FFFE7AFFFE7BFFFE7DFFFE7FFFFE80FFFE82FFFE84FFFE86FFFE87FFFE89FFFE8BFFFE8DFFFE8EFFFE90FFFE92FFFE93FFFE95FFFE97FFFE99FFFE9AFFFE9CFFFE9EFFFE9FFFFEA1FFFEA3FFFEA4FFFEA6FFFEA8FFFEAAFFFEABFFFEADFFFEAFFFFEB0FFFEB2FFFEB4FFFEB6FFFEB7FFFEB9FFFEBBFFFEBCFFFEBEFFFEC0FFFEC1FFFEC3FFFEC5FFFEC6FFFEC8FFFECAFFFECBFFFECDFFFECFFFFED1FFFED2FFFED4FFFED6FFFED7FFFED9FFFEDBFFFEDCFFFEDEFFFEE0FFFEE1FFFEE3FFFEE5FFFEE6FFFEE8FFFEEAFFFEEBFFFEEDFFFEEFFFFEF0FFFEF2FFFEF3FFFEF5FFFEF7FFFEF8FFFEFAFFFEFCFFFEFDFFFEFFFFFF01FFFF02FFFF04FFFF05FFFF07FFFF09FFFF0AFFFF0CFFFF0EFFFF0FFFFF11FFFF12FFFF14FFFF16FFFF17FFFF19FFFF1BFFFF1CFFFF1EFFFF1FFFFF21FFFF23FFFF24FFFF26FFFF27FFFF29FFFF2AFFFF2CFFFF2EFFFF2FFFFF31FFFF32FFFF34FFFF36FFFF37FFFF39FFFF3AFFFF3CFFFF3DFFFF3FFFFF40FFFF42FFFF44FFFF45FFFF47FFFF48FFFF4AFFFF4BFFFF4DFFFF4EFFFF50FFFF51FFFF53FFFF54FFFF56FFFF58FFFF59FFFF5BFFFF5CFFFF5EFFFF5FFFFF61FFFF62FFFF64FFFF65FFFF67FFFF68FFFF6AFFFF6BFFFF6DFFFF6EFFFF70FFFF71FFFF73FFFF74FFFF75FFFF77FFFF78FFFF7AFFFF7BFFFF7DFFFF7EFFFF80FFFF81FFFF83FFFF84FFFF85FFFF87FFFF88FFFF8AFFFF8BFFFF8DFFFF8EFFFF90FFFF91FFFF92FFFF94FFFF95FFFF97FFFF98FFFF99FFFF9BFFFF9CFFFF9EFFFF9FFFFFA0FFFFA2FFFFA3FFFFA5FFFFA6FFFFA7FFFFA9FFFFAAFFFFABFFFFADFFFFAEFFFFB0FFFFB1FFFFB2FFFFB4FFFFB5FFFFB6FFFFB8FFFFB9
def rscChunk3 : Nat := 0xFFFCABFFFCABFFFCACFFFCADFFFCAEFFFCAFFFFCB0FFFCB1FFFCB2FFFCB3FFFCB4FFFCB5FFFCB6FFFCB7FFFCB8FFFCB9FFFCBAFFFCBCFFFCBDFFFCBEFFFCBFFFFCC0FFFCC1FFFCC2FFFCC3FFFCC4FFFCC5FFFCC6FFFCC7FFFCC8FFFCCAFFFCCBFFFCCCFFFCCDFFFCCEFFFCCFFFFCD0FFFCD2FFFCD3FFFCD4FFFCD5FFFCD6FFFCD7FFFCD9FFFCDAFFFCDBFFFCDCFFFCDDFFFCDFFFFCE0FFFCE1FFFCE2FFFCE3FFFCE5FFFCE6FFFCE7FFFCE8FFFCEAFFFCEBFFFCECFFFCEDFFFCEFFFFCF0FFFCF1FFFCF2FFFCF4FFFCF5FFFCF6FFFCF8FFFCF9FFFCFAFFFCFBFFFCFDFFFCFEFFFCFFFFFD01FFFD02FFFD03FFFD05FFFD06FFFD07FFFD09FFFD0AFFFD0BFFFD0DFFFD0EFFFD10FFFD11FFFD12FFFD14FFFD15FFFD16FFFD18FFFD19FFFD1BFFFD1CFFFD1DFFFD1FFFFD20FFFD22FFFD23FFFD25FFFD26FFFD27FFFD29FFFD2AFFFD2CFFFD2DFFFD2FFFFD30FFFD32FFFD33FFFD34FFFD36FFFD37FFFD39FFFD3AFFFD3CFFFD3DFFFD3FFFFD40FFFD42FFFD43FFFD45FFFD46FFFD48FFFD49FFFD4BFFFD4CFFFD4EFFFD4FFFFD51FFFD52FFFD54FFFD55FFFD57FFFD59FFFD5AFFFD5CFFFD5DFFFD5FFFFD60FFFD62FFFD63FFFD65FFFD66FFFD68FFFD6AFFFD6BFFFD6DFFFD6EFFFD70FFFD71FFFD73FFFD75FFFD76FFFD78FFFD79FFFD7BFFFD7DFFFD7EFFFD80FFFD81FFFD83FFFD85FFFD86FFFD88FFFD89FFFD8BFFFD8DFFFD8EFFFD90FFFD92FFFD93FFFD95FFFD96FFFD98FFFD9AFFFD9BFFFD9DFFFD9FFFFDA0FFFDA2FFFDA4FFFDA5FFFDA7FFFDA9FFFDAAFFFDACFFFDAEFFFDAFFFFDB1FFFDB3FFFDB4FFFDB6FFFDB8FFFDB9FFFDBBFFFDBDFFFDBEFFFDC0FFFDC2FFFDC3FFFDC5FFFDC7FFFDC8FFFDCAFFFDCCFFFDCDFFFDCFFFFDD1FFFDD2FFFDD4FFFDD6FFFDD7FFFDD9FFFDDBFFFDDDFFFDDEFFFDE0FFFDE2FFFDE3FFFDE5FFFDE7FFFDE8FFFDEAFFFDECFFFDEEFFFDEFFFFDF1FFFDF3FFFDF4FFFDF6FFFDF8FFFDFAFFFDFBFFFDFDFFFDFFFFFE00FFFE02FFFE04FFFE06FFFE07FFFE09FFFE0BFFFE0DFFFE0EFFFE10FFFE12FFFE13FFFE15FFFE17FFFE19FFFE1AFFFE1CFFFE1E
def rscChunk4 : Nat := 0xFFFCABFFFCAAFFFCA8FFFCA7FFFCA6FFFCA5FFFCA4FFFCA3FFFCA2FFFCA1FFFCA0FFFC9FFFFC9EFFFC9DFFFC9CFFFC9BFFFC9AFFFC99FFFC98FFFC97FFFC96FFFC95FFFC94FFFC93FFFC92FFFC91FFFC90FFFC90FFFC8FFFFC8EFFFC8DFFFC8CFFFC8BFFFC8BFFFC8AFFFC89FFFC88FFFC87FFFC87FFFC86FFFC85FFFC84FFFC84FFFC83FFFC82FFFC82FFFC81FFFC80FFFC7FFFFC7FFFFC7EFFFC7EFFFC7DFFFC7CFFFC7CFFFC7BFFFC7AFFFC7AFFFC79FFFC79FFFC78FFFC78FFFC77FFFC77FFFC76FFFC76FFFC75FFFC75FFFC74FFFC74FFFC73FFFC73FFFC72FFFC72FFFC71FFFC71FFFC70FFFC70FFFC70FFFC6FFFFC6FFFFC6FFFFC6EFFFC6EFFFC6EFFFC6DFFFC6DFFFC6DFFFC6CFFFC6CFFFC6CFFFC6BFFFC6BFFFC6BFFFC6BFFFC6AFFFC6AFFFC6AFFFC6AFFFC69FFFC69FFFC69FFFC69FFFC69FFFC69FFFC68FFFC68FFFC68FFFC68FFFC68FFFC68FFFC68FFFC68FFFC68FFFC67FFFC67FFFC67FFFC67FFFC67FFFC67FFFC67FFFC67FFFC67FFFC67FFFC67FFFC67FFFC67FFFC67FFFC67FFFC67FFFC67FFFC67FFFC67FFFC68FFFC68FFFC68FFFC68FFFC68FFFC68FFFC68FFFC68FFFC69FFFC69FFFC69FFFC69FFFC69FFFC69FFFC6AFFFC6AFFFC6AFFFC6AFFFC6AFFFC6BFFFC6BFFFC6BFFFC6BFFFC6CFFFC6CFFFC6CFFFC6DFFFC6DFFFC6DFFFC6DFFFC6EFFFC6EFFFC6EFFFC6FFFFC6FFFFC70FFFC70FFFC70FFFC71FFFC71FFFC71FFFC72FFFC72FFFC73FFFC73FFFC74FFFC74FFFC74FFFC75FFFC75FFFC76FFFC76FFFC77FFFC77FFFC78FFFC78FFFC79FFFC79FFFC7AFFFC7AFFFC7BFFFC7BFFFC7CFFFC7DFFFC7DFFFC7EFFFC7EFFFC7FFFFC7FFFFC80FFFC81FFFC81FFFC82FFFC83FFFC83FFFC84FFFC85FFFC85FFFC86FFFC87FFFC87FFFC88FFFC89FFFC89FFFC8AFFFC8BFFFC8BFFFC8CFFFC8DFFFC8EFFFC8EFFFC8FFFFC90FFFC91FFFC91FFFC92FFFC93FFFC94FFFC95FFFC95FFFC96FFFC97FFFC98FFFC99FFFC99FFFC9AFFFC9BFFFC9CFFFC9DFFFC9EFFFC9FFFFCA0FFFCA0FFFCA1FFFCA2FFFCA3FFFCA4FFFCA5FFFCA6FFFCA7FFFCA8FFFCA9FFFCAA
def rscChunk5 : Nat := 0xFFFF1BFFFF17FFFF14FFFF10FFFF0CFFFF09FFFF05FFFF01FFFEFEFFFEFAFFFEF7FFFEF3FFFEEFFFFEECFFFEE8FFFEE5FFFEE1FFFEDDFFFEDAFFFED6FFFED3FFFECFFFFECCFFFEC8FFFEC5FFFEC1FFFEBEFFFEBAFFFEB7FFFEB4FFFEB0FFFEADFFFEA9FFFEA6FFFEA3FFFE9FFFFE9CFFFE98FFFE95FFFE92FFFE8EFFFE8BFFFE88FFFE84FFFE81FFFE7EFFFE7BFFFE77FFFE74FFFE71FFFE6EFFFE6AFFFE67FFFE64FFFE61FFFE5DFFFE5AFFFE57FFFE54FFFE51FFFE4EFFFE4BFFFE47FFFE44FFFE41FFFE3EFFFE3BFFFE38FFFE35FFFE32FFFE2FFFFE2CFFFE29FFFE26FFFE23FFFE20FFFE1DFFFE1AFFFE17FFFE14FFFE11FFFE0EFFFE0BFFFE08FFFE05FFFE02FFFDFFFFFDFDFFFDFAFFFDF7FFFDF4FFFDF1FFFDEEFFFDECFFFDE9FFFDE6FFFDE3FFFDE0FFFDDEFFFDDBFFFDD8FFFDD5FFFDD3FFFDD0FFFDCDFFFDCBFFFDC8FFFDC5FFFDC3FFFDC0FFFDBDFFFDBBFFFDB8FFFDB5FFFDB3FFFDB0FFFDAEFFFDABFFFDA9FFFDA6FFFDA3FFFDA1FFFD9EFFFD9CFFFD99FFFD97FFFD94FFFD92FFFD90FFFD8DFFFD8BFFFD88FFFD86FFFD83FFFD81FFFD7FFFFD7CFFFD7AFFFD78FFFD75FFFD73FFFD71FFFD6EFFFD6CFFFD6AFFFD67FFFD65FFFD63FFFD61FFFD5EFFFD5CFFFD5AFFFD58FFFD56FFFD53FFFD51FFFD4FFFFD4DFFFD4BFFFD49FFFD46FFFD44FFFD42FFFD40FFFD3EFFFD3CFFFD3AFFFD38FFFD36FFFD34FFFD32FFFD30FFFD2EFFFD2CFFFD2AFFFD28FFFD26FFFD24FFFD22FFFD20FFFD1EFFFD1CFFFD1AFFFD18FFFD17FFFD15FFFD13FFFD11FFFD0FFFFD0DFFFD0CFFFD0AFFFD08FFFD06FFFD04FFFD03FFFD01FFFCFFFFFCFDFFFCFCFFFCFAFFFCF8FFFCF7FFFCF5FFFCF3FFFCF2FFFCF0FFFCEEFFFCEDFFFCEBFFFCE9FFFCE8FFFCE6FFFCE5FFFCE3FFFCE2FFFCE0FFFCDFFFFCDDFFFCDCFFFCDAFFFCD9FFFCD7FFFCD6FFFCD4FFFCD3FFFCD1FFFCD0FFFCCEFFFCCDFFFCCCFFFCCAFFFCC9FFFCC7FFFCC6FFFCC5FFFCC3FFFCC2FFFCC1FFFCBFFFFCBEFFFCBDFFFCBCFFFCBAFFFCB9FFFCB8FFFCB6FFFCB5FFFCB4FFFCB3FFFCB2FFFCB0FFFCAFFFFCAEFFFCADFFFCAC
def rscChunk6 : Nat := 0x3B00003AB0003A60003A100039C00039600039100038C00038700038200037D00037800037300036E00036900036300035E00035900035400034F00034A00034500034000033B00033600033100032C00032600032100031C00031700031200030D0003080003030002FE0002F90002F40002EF0002EA0002E50002E00002DB0002D60002D10002CC0002C70002C20002BC0002B70002B20002AD0002A80002A300029E00029900029400028F00028A00028500028000027B00027700027200026D00026800026300025E00025900025400024F00024A00024500024000023B00023600023100022C00022700022200021E00021900021400020F00020A0002050002000001FB0001F60001F20001ED0001E80001E30001DE0001D90001D40001D00001CB0001C60001C10001BC0001B70001B30001AE0001A90001A400019F00019B00019600019100018C00018800018300017E00017900017500017000016B00016600016200015D00015800015400014F00014A00014500014100013C00013700013300012E00012900012500012000011B00011700011200010E0001090001040001000000FB0000F70000F20000ED0000E90000E40000E00000DB0000D70000D20000CE0000C90000C50000C00000BC0000B70000B30000AE0000AA0000A50000A100009C00009800009300008F00008A00008600008200007D00007900007400007000006C00006700006300005F00005A00005600005100004D00004900004500004000003C00003800003300002F00002B00002700002200001E00001A00001600001100000D000009000005000000FFFFFCFFFFF8FFFFF4FFFFF0FFFFECFFFFE7FFFFE3FFFFDFFFFFDBFFFFD7FFFFD3FFFFCFFFFFCBFFFFC7FFFFC2FFFFBEFFFFBAFFFFB6FFFFB2FFFFAEFFFFAAFFFFA6FFFFA2FFFF9EFFFF9AFFFF96FFFF92FFFF8EFFFF8AFFFF86FFFF82FFFF7EFFFF7BFFFF77FFFF73FFFF6FFFFF6BFFFF67FFFF63FFFF5FFFFF5BFFFF58FFFF54FFFF50FFFF4CFFFF48FFFF44FFFF41FFFF3DFFFF39FFFF35FFFF32FFFF2EFFFF2AFFFF26FFFF23FFFF1F
def rscChunk7 : Nat := 0x86100085E00085A00085600085200084F00084B00084700084300083F00083C00083800083400083000082C00082800082400082000081C00081900081500081100080D0008090008050008010007FD0007F90007F50007F10007ED0007E90007E40007E00007DC0007D80007D40007D00007CC0007C80007C30007BF0007BB0007B70007B30007AF0007AA0007A60007A200079E00079900079500079100078D00078800078400078000077B00077700077300076E00076A00076600076100075D00075900075400075000074B00074700074200073E00073A00073500073100072C00072800072300071F00071A00071600071100070D0007080007040006FF0006FA0006F60006F10006ED0006E80006E40006DF0006DA0006D60006D10006CC0006C80006C30006BF0006BA0006B50006B10006AC0006A70006A200069E00069900069400069000068B00068600068100067D00067800067300066E00066A00066500066000065B00065700065200064D00064800064300063F00063A00063500063000062B00062600062100061D00061800061300060E0006090006040005FF0005FA0005F60005F10005EC0005E70005E20005DD0005D80005D30005CE0005C90005C40005BF0005BA0005B60005B10005AC0005A70005A200059D00059800059300058E00058900058400057F00057A00057500057000056B00056600056100055C00055700055200054D00054800054300053E00053900053400052E00052900052400051F00051A00051500051000050B0005060005010004FC0004F70004F20004ED0004E80004E30004DD0004D80004D30004CE0004C90004C40004BF0004BA0004B50004B00004AB0004A50004A000049B00049600049100048C00048700048200047D00047800047200046D00046800046300045E00045900045400044F00044900044400043F00043A00043500043000042B00042600042100041B00041600041100040C0004070004020003FD0003F80003F20003ED0003E80003E30003DE0003D90003D40003CF0003CA0003C40003BF0003BA0003B5
def rscChunk8 : Nat := 0xA06000A07000A08000A08000A09000A0A000A0B000A0C000A0C000A0D000A0E000A0E000A0F000A10000A10000A11000A11000A12000A12000A13000A13000A14000A14000A15000A15000A15000A16000A16000A16000A17000A17000A17000A17000A17000A18000A18000A18000A18000A18000A18000A18000A18000A18000A18000A18000A18000A18000A17000A17000A17000A17000A17000A17000A16000A16000A16000A15000A15000A15000A14000A14000A13000A13000A12000A12000A11000A11000A10000A10000A0F000A0F000A0E000A0D000A0D000A0C000A0B000A0A000A0A000A09000A08000A07000A06000A06000A05000A04000A03000A02000A01000A000009FF0009FE0009FD0009FC0009FB0009FA0009F80009F70009F60009F50009F40009F30009F10009F00009EF0009ED0009EC0009EB0009E90009E80009E70009E50009E40009E20009E10009DF0009DE0009DC0009DB0009D90009D80009D60009D40009D30009D10009CF0009CE0009CC0009CA0009C90009C70009C50009C30009C10009C00009BE0009BC0009BA0009B80009B60009B40009B20009B00009AE0009AC0009AA0009A80009A60009A40009A20009A000099D00099B00099900099700099500099200099000098E00098C00098900098700098500098200098000097E00097B00097900097600097400097100096F00096C00096A00096700096500096200096000095D00095B00095800095500095300095000094D00094B00094800094500094200094000093D00093A00093700093400093100092F00092C00092900092600092300092000091D00091A00091700091400091100090E00090B0009080009050009020008FF0008FC0008F80008F50008F20008EF0008EC0008E90008E50008E20008DF0008DC0008D80008D50008D20008CF0008CB0008C80008C50008C10008BE0008BA0008B70008B40008B00008AD0008A90008A60008A200089F00089B00089800089400089100088D00088900088600088200087F00087B00087700087400087000086C000869000865
def rscChunk9 : Nat := 0x60300060A00061100061900062000062700062E00063500063C00064300064900065000065700065E00066500066C00067200067900068000068700068D00069400069B0006A10006A80006AE0006B50006BB0006C20006C80006CF0006D50006DC0006E20006E80006EF0006F50006FB00070100070800070E00071400071A00072000072600072C00073200073900073F00074400074A00075000075600075C00076200076800076E00077300077900077F00078500078A00079000079600079B0007A10007A60007AC0007B10007B70007BC0007C20007C70007CD0007D20007D70007DD0007E20007E70007EC0007F20007F70007FC00080100080600080B00081000081500081A00081F00082400082900082E00083300083800083D00084200084600084B00085000085500085900085E00086300086700086C00087000087500087900087E00088200088700088B00089000089400089800089D0008A10008A50008A90008AE0008B20008B60008BA0008BE0008C20008C60008CA0008CF0008D30008D60008DA0008DE0008E20008E60008EA0008EE0008F20008F50008F90008FD00090000090400090800090B00090F00091300091600091A00091D00092100092400092700092B00092E00093200093500093800093B00093F00094200094500094800094B00094F00095200095500095800095B00095E00096100096400096700096A00096C00096F00097200097500097800097A00097D00098000098200098500098800098A00098D00099000099200099500099700099900099C00099E0009A10009A30009A50009A80009AA0009AC0009AF0009B10009B30009B50009B70009B90009BB0009BE0009C00009C20009C40009C60009C80009C90009CB0009CD0009CF0009D10009D30009D50009D60009D80009DA0009DB0009DD0009DF0009E00009E20009E30009E50009E70009E80009EA0009EB0009EC0009EE0009EF0009F10009F20009F30009F40009F60009F70009F80009F90009FB0009FC0009FD0009FE0009FF000A00000A01000A02000A03000A04000A05
def rscChunk10 : Nat := 0xFFFC57FFFC63FFFC6EFFFC7AFFFC85FFFC91FFFC9CFFFCA8FFFCB3FFFCBFFFFCCAFFFCD6FFFCE1FFFCEDFFFCF8FFFD04FFFD0FFFFD1AFFFD26FFFD31FFFD3DFFFD48FFFD53FFFD5FFFFD6AFFFD75FFFD81FFFD8CFFFD97FFFDA3FFFDAEFFFDB9FFFDC4FFFDD0FFFDDBFFFDE6FFFDF1FFFDFDFFFE08FFFE13FFFE1EFFFE29FFFE34FFFE40FFFE4BFFFE56FFFE61FFFE6CFFFE77FFFE82FFFE8DFFFE98FFFEA3FFFEAEFFFEB9FFFEC4FFFECFFFFEDAFFFEE5FFFEF0FFFEFBFFFF06FFFF11FFFF1BFFFF26FFFF31FFFF3CFFFF47FFFF52FFFF5CFFFF67FFFF72FFFF7DFFFF87FFFF92FFFF9DFFFFA8FFFFB2FFFFBDFFFFC7FFFFD2FFFFDDFFFFE7FFFFF2FFFFFC00000700001200001C00002700003100003C00004600005000005B00006500007000007A00008400008F0000990000A30000AE0000B80000C20000CD0000D70000E10000EB0000F500010000010A00011400011E00012800013200013C00014600015000015A00016400016E00017800018200018C0001960001A00001AA0001B40001BE0001C70001D10001DB0001E50001EE0001F800020200020C00021500021F00022900023200023C00024500024F00025900026200026C00027500027F00028800029100029B0002A40002AE0002B70002C00002CA0002D30002DC0002E50002EF0002F800030100030A00031300031D00032600032F00033800034100034A00035300035C00036500036E00037700038000038900039200039A0003A30003AC0003B50003BE0003C60003CF0003D80003E00003E90003F20003FA00040300040C00041400041D00042500042E00043600043F00044700045000045800046000046900047100047900048200048A00049200049A0004A20004AB0004B30004BB0004C30004CB0004D30004DB0004E30004EB0004F30004FB00050300050B00051300051B00052300052A00053200053A00054200054900055100055900056000056800057000057700057F00058600058E00059500059D0005A40005AC0005B30005BB0005C20005C90005D10005D80005DF0005E60005EE0005F50005FC
def rscChunk11 : Nat := 0xFFF0B6FFF0C0FFF0CBFFF0D5FFF0E0FFF0EAFFF0F5FFF100FFF10AFFF115FFF120FFF12BFFF135FFF140FFF14BFFF156FFF161FFF16BFFF176FFF181FFF18CFFF197FFF1A2FFF1ADFFF1B8FFF1C3FFF1CEFFF1D9FFF1E3FFF1EFFFF1FAFFF205FFF210FFF21BFFF226FFF231FFF23CFFF247FFF252FFF25DFFF269FFF274FFF27FFFF28AFFF295FFF2A1FFF2ACFFF2B7FFF2C2FFF2CEFFF2D9FFF2E4FFF2F0FFF2FBFFF306FFF312FFF31DFFF328FFF334FFF33FFFF34BFFF356FFF361FFF36DFFF378FFF384FFF38FFFF39BFFF3A6FFF3B2FFF3BDFFF3C9FFF3D4FFF3E0FFF3EBFFF3F7FFF403FFF40EFFF41AFFF425FFF431FFF43DFFF448FFF454FFF45FFFF46BFFF477FFF482FFF48EFFF49AFFF4A6FFF4B1FFF4BDFFF4C9FFF4D4FFF4E0FFF4ECFFF4F8FFF503FFF50FFFF51BFFF527FFF532FFF53EFFF54AFFF556FFF562FFF56DFFF579FFF585FFF591FFF59DFFF5A9FFF5B4FFF5C0FFF5CCFFF5D8FFF5E4FFF5F0FFF5FCFFF608FFF613FFF61FFFF62BFFF637FFF643FFF64FFFF65BFFF667FFF673FFF67FFFF68BFFF696FFF6A2FFF6AEFFF6BAFFF6C6FFF6D2FFF6DEFFF6EAFFF6F6FFF702FFF70EFFF71AFFF726FFF732FFF73EFFF74AFFF756FFF762FFF76EFFF77AFFF786FFF792FFF79EFFF7AAFFF7B5FFF7C1FFF7CDFFF7D9FFF7E5FFF7F1FFF7FDFFF809FFF815FFF821FFF82DFFF839FFF845FFF851FFF85DFFF869FFF875FFF881FFF88DFFF899FFF8A5FFF8B1FFF8BDFFF8C9FFF8D5FFF8E1FFF8EDFFF8F9FFF905FFF911FFF91DFFF929FFF935FFF941FFF94DFFF959FFF964FFF970FFF97CFFF988FFF994FFF9A0FFF9ACFFF9B8FFF9C4FFF9D0FFF9DCFFF9E8FFF9F4FFF9FFFFFA0BFFFA17FFFA23FFFA2FFFFA3BFFFA47FFFA53FFFA5FFFFA6AFFFA76FFFA82FFFA8EFFFA9AFFFAA6FFFAB1FFFABDFFFAC9FFFAD5FFFAE1FFFAEDFFFAF8FFFB04FFFB10FFFB1CFFFB27FFFB33FFFB3FFFFB4BFFFB56FFFB62FFFB6EFFFB7AFFFB85FFFB91FFFB9DFFFBA8FFFBB4FFFBC0FFFBCCFFFBD7FFFBE3FFFBEFFFFBFAFFFC06FFFC11FFFC1DFFFC29FFFC34FFFC40FFFC4B
def rscChunk12 : Nat := 0xFFE99FFFE9A1FFE9A4FFE9A7FFE9A9FFE9ACFFE9AFFFE9B2FFE9B4FFE9B7FFE9BAFFE9BDFFE9C0FFE9C3FFE9C6FFE9CAFFE9CDFFE9D0FFE9D3FFE9D7FFE9DAFFE9DDFFE9E1FFE9E4FFE9E8FFE9EBFFE9EFFFE9F3FFE9F6FFE9FAFFE9FEFFEA02FFEA05FFEA09FFEA0DFFEA11FFEA15FFEA19FFEA1DFFEA21FFEA26FFEA2AFFEA2EFFEA32FFEA37FFEA3BFFEA40FFEA44FFEA48FFEA4DFFEA52FFEA56FFEA5BFFEA60FFEA64FFEA69FFEA6EFFEA73FFEA78FFEA7CFFEA81FFEA86FFEA8BFFEA91FFEA96FFEA9BFFEAA0FFEAA5FFEAAAFFEAB0FFEAB5FFEABAFFEAC0FFEAC5FFEACBFFEAD0FFEAD6FFEADCFFEAE1FFEAE7FFEAEDFFEAF2FFEAF8FFEAFEFFEB04FFEB0AFFEB10FFEB16FFEB1BFFEB22FFEB28FFEB2EFFEB34FFEB3AFFEB40FFEB46FFEB4DFFEB53FFEB59FFEB60FFEB66FFEB6DFFEB73FFEB7AFFEB80FFEB87FFEB8DFFEB94FFEB9BFFEBA2FFEBA8FFEBAFFFEBB6FFEBBDFFEBC4FFEBCBFFEBD2FFEBD9FFEBE0FFEBE7FFEBEEFFEBF5FFEBFCFFEC03FFEC0AFFEC12FFEC19FFEC20FFEC28FFEC2FFFEC36FFEC3EFFEC45FFEC4DFFEC54FFEC5CFFEC64FFEC6BFFEC73FFEC7BFFEC82FFEC8AFFEC92FFEC9AFFECA2FFECA9FFECB1FFECB9FFECC1FFECC9FFECD1FFECD9FFECE1FFECEAFFECF2FFECFAFFED02FFED0AFFED13FFED1BFFED23FFED2BFFED34FFED3CFFED45FFED4DFFED56FFED5EFFED67FFED6FFFED78FFED80FFED89FFED92FFED9AFFEDA3FFEDACFFEDB5FFEDBEFFEDC6FFEDCFFFEDD8FFEDE1FFEDEAFFEDF3FFEDFCFFEE05FFEE0EFFEE17FFEE20FFEE29FFEE32FFEE3CFFEE45FFEE4EFFEE57FFEE61FFEE6AFFEE73FFEE7DFFEE86FFEE8FFFEE99FFEEA2FFEEACFFEEB5FFEEBFFFEEC8FFEED2FFEEDBFFEEE5FFEEEEFFEEF8FFEF02FFEF0BFFEF15FFEF1FFFEF29FFEF32FFEF3CFFEF46FFEF50FFEF5AFFEF64FFEF6EFFEF78FFEF82FFEF8BFFEF95FFEFA0FFEFAAFFEFB4FFEFBEFFEFC8FFEFD2FFEFDCFFEFE6FFEFF0FFEFFBFFF005FFF00FFFF019FFF024FFF02EFFF038FFF043FFF04DFFF057FFF062FFF06CFFF077FFF081FFF08BFFF096FFF0A0FFF0AB
def rscChunk13 : Nat := 0xFFED45FFED3BFFED31FFED27FFED1DFFED13FFED09FFECFFFFECF5FFECECFFECE2FFECD8FFECCFFFECC5FFECBCFFECB2FFECA9FFECA0FFEC96FFEC8DFFEC84FFEC7BFFEC72FFEC69FFEC60FFEC57FFEC4EFFEC45FFEC3CFFEC34FFEC2BFFEC22FFEC1AFFEC11FFEC09FFEC01FFEBF8FFEBF0FFEBE8FFEBE0FFEBD7FFEBCFFFEBC7FFEBBFFFEBB7FFEBB0FFEBA8FFEBA0FFEB98FFEB91FFEB89FFEB82FFEB7AFFEB73FFEB6BFFEB64FFEB5DFFEB55FFEB4EFFEB47FFEB40FFEB39FFEB32FFEB2BFFEB24FFEB1DFFEB16FFEB10FFEB09FFEB02FFEAFCFFEAF5FFEAEFFFEAE9FFEAE2FFEADCFFEAD6FFEACFFFEAC9FFEAC3FFEABDFFEAB7FFEAB1FFEAABFFEAA5FFEAA0FFEA9AFFEA94FFEA8FFFEA89FFEA84FFEA7EFFEA79FFEA73FFEA6EFFEA69FFEA63FFEA5EFFEA59FFEA54FFEA4FFFEA4AFFEA45FFEA40FFEA3CFFEA37FFEA32FFEA2DFFEA29FFEA24FFEA20FFEA1BFFEA17FFEA13FFEA0EFFEA0AFFEA06FFEA02FFE9FEFFE9FAFFE9F6FFE9F2FFE9EEFFE9EAFFE9E6FFE9E2FFE9DFFFE9DBFFE9D7FFE9D4FFE9D0FFE9CDFFE9CAFFE9C6FFE9C3FFE9C0FFE9BDFFE9BAFFE9B6FFE9B3FFE9B0FFE9ADFFE9ABFFE9A8FFE9A5FFE9A2FFE9A0FFE99DFFE99AFFE998FFE995FFE993FFE991FFE98EFFE98CFFE98AFFE988FFE985FFE983FFE981FFE97FFFE97DFFE97CFFE97AFFE978FFE976FFE974FFE973FFE971FFE970FFE96EFFE96DFFE96BFFE96AFFE969FFE968FFE966FFE965FFE964FFE963FFE962FFE961FFE960FFE95FFFE95EFFE95EFFE95DFFE95CFFE95CFFE95BFFE95BFFE95AFFE95AFFE959FFE959FFE959FFE959FFE958FFE958FFE958FFE958FFE958FFE958FFE958FFE958FFE959FFE959FFE959FFE959FFE95AFFE95AFFE95BFFE95BFFE95CFFE95CFFE95DFFE95EFFE95EFFE95FFFE960FFE961FFE962FFE963FFE964FFE965FFE966FFE967FFE968FFE96AFFE96BFFE96CFFE96EFFE96FFFE971FFE972FFE974FFE975FFE977FFE979FFE97AFFE97CFFE97EFFE980FFE982FFE984FFE986FFE988FFE98AFFE98CFFE98EFFE991FFE993FFE995FFE998FFE99AFFE99C
def rscChunk14 : Nat := 0xFFFD7EFFFD68FFFD53FFFD3EFFFD28FFFD13FFFCFEFFFCE9FFFCD4FFFCBEFFFCA9FFFC94FFFC7FFFFC6AFFFC55FFFC40FFFC2CFFFC17FFFC02FFFBEDFFFBD8FFFBC4FFFBAFFFFB9AFFFB86FFFB71FFFB5CFFFB48FFFB33FFFB1FFFFB0BFFFAF6FFFAE2FFFACEFFFAB9FFFAA5FFFA91FFFA7DFFFA69FFFA54FFFA40FFFA2CFFFA18FFFA04FFF9F1FFF9DDFFF9C9FFF9B5FFF9A1FFF98EFFF97AFFF966FFF953FFF93FFFF92BFFF918FFF904FFF8F1FFF8DEFFF8CAFFF8B7FFF8A4FFF890FFF87DFFF86AFFF857FFF844FFF831FFF81EFFF80BFFF7F8FFF7E5FFF7D2FFF7BFFFF7ADFFF79AFFF787FFF775FFF762FFF74FFFF73DFFF72AFFF718FFF706FFF6F3FFF6E1FFF6CFFFF6BCFFF6AAFFF698FFF686FFF674FFF662FFF650FFF63EFFF62CFFF61AFFF608FFF5F7FFF5E5FFF5D3FFF5C1FFF5B0FFF59EFFF58DFFF57BFFF56AFFF558FFF547FFF536FFF525FFF513FFF502FFF4F1FFF4E0FFF4CFFFF4BEFFF4ADFFF49CFFF48BFFF47AFFF46AFFF459FFF448FFF438FFF427FFF416FFF406FFF3F5FFF3E5FFF3D5FFF3C4FFF3B4FFF3A4FFF394FFF383FFF373FFF363FFF353FFF343FFF333FFF323FFF314FFF304FFF2F4FFF2E4FFF2D5FFF2C5FFF2B6FFF2A6FFF297FFF287FFF278FFF269FFF259FFF24AFFF23BFFF22CFFF21DFFF20EFFF1FFFFF1F0FFF1E1FFF1D2FFF1C3FFF1B4FFF1A6FFF197FFF189FFF17AFFF16BFFF15DFFF14FFFF140FFF132FFF124FFF115FFF107FFF0F9FFF0EBFFF0DDFFF0CFFFF0C1FFF0B3FFF0A5FFF098FFF08AFFF07CFFF06FFFF061FFF053FFF046FFF039FFF02BFFF01EFFF011FFF003FFEFF6FFEFE9FFEFDCFFEFCFFFEFC2FFEFB5FFEFA8FFEF9BFFEF8EFFEF82FFEF75FFEF68FFEF5CFFEF4FFFEF43FFEF36FFEF2AFFEF1EFFEF11FFEF05FFEEF9FFEEEDFFEEE1FFEED5FFEEC9FFEEBDFFEEB1FFEEA5FFEE99FFEE8DFFEE82FFEE76FFEE6AFFEE5FFFEE53FFEE48FFEE3DFFEE31FFEE26FFEE1BFFEE10FFEE04FFEDF9FFEDEEFFEDE3FFEDD8FFEDCEFFEDC3FFEDB8FFEDADFFEDA3FFED98FFED8DFFED83FFED79FFED6EFFED64FFED59FFED4F
def rscChunk15 : Nat := 0x150B0014F30014DC0014C40014AC00149400147D00146500144D00143500141D0014050013ED0013D60013BE0013A600138E00137600135E00134600132E0013160012FE0012E60012CE0012B600129E00128600126E00125600123D00122500120D0011F50011DD0011C50011AD00119500117C00116400114C00113400111C0011040010EB0010D30010BB0010A300108A00107200105A001042001029001011000FF9000FE1000FC8000FB0000F98000F80000F67000F4F000F37000F1E000F06000EEE000ED6000EBD000EA5000E8D000E74000E5C000E44000E2B000E13000DFB000DE2000DCA000DB2000D99000D81000D69000D51000D38000D20000D08000CEF000CD7000CBF000CA6000C8E000C76000C5D000C45000C2D000C15000BFC000BE4000BCC000BB4000B9B000B83000B6B000B53000B3A000B22000B0A000AF2000AD9000AC1000AA9000A91000A79000A60000A48000A30000A18000A000009E80009CF0009B700099F00098700096F00095700093F00092700090F0008F60008DE0008C60008AE00089600087E00086600084E00083600081E0008060007EE0007D70007BF0007A700078F00077700075F00074700072F0007180007000006E80006D00006B80006A100068900067100065900064200062A0006120005FB0005E30005CB0005B400059C00058500056D00055600053E00052700050F0004F80004E00004C90004B100049A00048200046B00045400043C00042500040E0003F70003DF0003C80003B100039A00038300036B00035400033D00032600030F0002F80002E10002CA0002B300029C00028500026E00025700024000022A0002130001FC0001E50001CE0001B80001A100018A00017400015D0001460001300001190001030000EC0000D60000BF0000A900009200007C00006600004F00003900002300000CFFFFF6FFFFE0FFFFCAFFFFB4FFFF9DFFFF87FFFF71FFFF5BFFFF45FFFF2FFFFF19FFFF03FFFEEDFFFED8FFFEC2FFFEACFFFE96FFFE80FFFE6BFFFE55FFFE3FFFFE2AFFFE14FFFDFEFFFDE9FFFDD3FFFDBEFFFDA8FFFD93
def rscChunk16 : Nat := 0x286800285B00284E00284100283400282700281A00280D0027FF0027F20027E50027D70027CA0027BC0027AF0027A100279300278500277700276900275B00274D00273F0027310027230027140027060026F70026E90026DA0026CB0026BD0026AE00269F0026900026810026720026630026540026450026350026260026170026070025F70025E80025D80025C80025B90025A90025990025890025790025690025590025490025380025280025180025070024F70024E60024D60024C50024B40024A300249300248200247100246000244F00243E00242D00241B00240A0023F90023E70023D60023C40023B30023A100239000237E00236C00235A0023490023370023250023130023010022EE0022DC0022CA0022B80022A600229300228100226E00225C0022490022370022240022110021FE0021EC0021D90021C60021B30021A000218D00217A00216700215300214000212D00211A0021060020F30020DF0020CC0020B80020A500209100207D00206A00205600204200202E00201A002006001FF2001FDE001FCA001FB6001FA2001F8E001F79001F65001F51001F3C001F28001F13001EFF001EEA001ED6001EC1001EAD001E98001E83001E6E001E5A001E45001E30001E1B001E06001DF1001DDC001DC7001DB2001D9C001D87001D72001D5D001D47001D32001D1D001D07001CF2001CDC001CC7001CB1001C9C001C86001C71001C5B001C45001C2F001C1A001C04001BEE001BD8001BC2001BAC001B96001B80001B6A001B54001B3E001B28001B12001AFC001AE5001ACF001AB9001AA3001A8C001A76001A5F001A49001A33001A1C001A060019EF0019D80019C20019AB00199500197E00196700195100193A00192300190C0018F50018DF0018C80018B100189A00188300186C00185500183E0018270018100017F90017E20017CA0017B300179C00178500176E00175600173F0017280017110016F90016E20016CB0016B300169C00168400166D00165500163E00162600160F0015F70015E00015C80015B100159900158100156A00155200153A001523
def rscChunk17 : Nat := 0x2AB8002AC1002ACA002AD3002ADC002AE5002AEE002AF7002AFF002B08002B10002B19002B21002B29002B31002B39002B41002B49002B50002B58002B5F002B67002B6E002B75002B7C002B83002B8A002B91002B98002B9E002BA5002BAB002BB1002BB8002BBE002BC4002BCA002BD0002BD5002BDB002BE0002BE6002BEB002BF0002BF6002BFB002C00002C04002C09002C0E002C13002C17002C1B002C20002C24002C28002C2C002C30002C34002C37002C3B002C3F002C42002C45002C49002C4C002C4F002C52002C55002C58002C5A002C5D002C5F002C62002C64002C66002C68002C6A002C6C002C6E002C70002C72002C73002C75002C76002C77002C79002C7A002C7B002C7C002C7D002C7D002C7E002C7F002C7F002C7F002C80002C80002C80002C80002C80002C80002C7F002C7F002C7F002C7E002C7D002C7D002C7C002C7B002C7A002C79002C78002C77002C75002C74002C72002C71002C6F002C6D002C6B002C69002C67002C65002C63002C61002C5E002C5C002C59002C56002C54002C51002C4E002C4B002C48002C45002C41002C3E002C3A002C37002C33002C30002C2C002C28002C24002C20002C1C002C17002C13002C0F002C0A002C06002C01002BFC002BF7002BF2002BED002BE8002BE3002BDE002BD9002BD3002BCE002BC8002BC2002BBD002BB7002BB1002BAB002BA5002B9F002B98002B92002B8C002B85002B7F002B78002B71002B6A002B63002B5C002B55002B4E002B47002B40002B38002B31002B29002B22002B1A002B12002B0A002B02002AFA002AF2002AEA002AE2002AD9002AD1002AC8002AC0002AB7002AAE002AA6002A9D002A94002A8B002A82002A78002A6F002A66002A5C002A53002A49002A40002A36002A2C002A22002A18002A0E002A040029FA0029F00029E50029DB0029D00029C60029BB0029B00029A600299B00299000298500297A00296F00296300295800294D00294100293600292A00291F0029130029070028FB0028EF0028E30028D70028CB0028BF0028B30028A600289A00288D002881002874
def rscChunk18 : Nat := 0x15240015450015660015870015A70015C80015E800160900162900164A00166A00168A0016AA0016CA0016EA00170A0017290017490017690017880017A70017C70017E60018050018240018430018620018810018A00018BE0018DD0018FC00191A0019380019570019750019930019B10019CF0019ED001A0A001A28001A46001A63001A81001A9E001ABB001AD8001AF5001B12001B2F001B4C001B69001B85001BA2001BBE001BDB001BF7001C13001C2F001C4B001C67001C83001C9F001CBB001CD6001CF2001D0D001D29001D44001D5F001D7A001D95001DB0001DCB001DE5001E00001E1B001E35001E4F001E6A001E84001E9E001EB8001ED2001EEC001F05001F1F001F39001F52001F6B001F85001F9E001FB7001FD0001FE900200200201A00203300204B00206400207C0020950020AD0020C50020DD0020F500210C00212400213C00215300216B0021820021990021B00021C70021DE0021F500220C00222300223900225000226600227D0022930022A90022BF0022D50022EB00230000231600232C00234100235600236C0023810023960023AB0023C00023D50023E90023FE00241200242700243B00244F00246300247700248B00249F0024B30024C70024DA0024EE00250100251400252700253A00254D0025600025730025860025980025AB0025BD0025CF0025E20025F400260600261800262A00263B00264D00265E0026700026810026920026A30026B40026C50026D60026E70026F80027080027190027290027390027490027590027690027790027890027990027A80027B80027C70027D60027E60027F500280400281300282100283000283F00284D00285B00286A0028780028860028940028A20028B00028BD0028CB0028D90028E60028F300290100290E00291B00292800293400294100294E00295A00296700297300297F00298C0029980029A40029AF0029BB0029C70029D20029DE0029E90029F4002A00002A0B002A16002A20002A2B002A36002A40002A4B002A55002A60002A6A002A74002A7E002A88002A92002A9B002AA5002AAE
def rscChunk19 : Nat := 0xFFECCEFFECFBFFED28FFED54FFED81FFEDAEFFEDDAFFEE07FFEE33FFEE60FFEE8DFFEEB9FFEEE6FFEF12FFEF3FFFEF6BFFEF98FFEFC4FFEFF1FFF01DFFF04AFFF076FFF0A3FFF0CFFFF0FBFFF128FFF154FFF181FFF1ADFFF1D9FFF206FFF232FFF25EFFF28AFFF2B7FFF2E3FFF30FFFF33BFFF367FFF394FFF3C0FFF3ECFFF418FFF444FFF470FFF49CFFF4C8FFF4F4FFF520FFF54CFFF578FFF5A4FFF5D0FFF5FBFFF627FFF653FFF67FFFF6AAFFF6D6FFF702FFF72EFFF759FFF785FFF7B0FFF7DCFFF807FFF833FFF85EFFF88AFFF8B5FFF8E1FFF90CFFF937FFF963FFF98EFFF9B9FFF9E4FFFA0FFFFA3BFFFA66FFFA91FFFABCFFFAE7FFFB12FFFB3DFFFB67FFFB92FFFBBDFFFBE8FFFC13FFFC3DFFFC68FFFC93FFFCBDFFFCE8FFFD12FFFD3DFFFD67FFFD92FFFDBCFFFDE7FFFE11FFFE3BFFFE65FFFE90FFFEBAFFFEE4FFFF0EFFFF38FFFF62FFFF8CFFFFB6FFFFDF00000900003300005D0000860000B00000DA00010300012D0001560001800001A90001D20001FB00022500024E0002770002A00002C90002F200031B00034400036D0003960003BE0003E70004100004380004610004890004B20004DA00050200052B00055300057B0005A30005CB0005F300061B00064300066B0006930006BB0006E200070A0007310007590007800007A80007CF0007F700081E00084500086C0008930008BA0008E100090800092F00095600097C0009A30009CA0009F0000A17000A3D000A63000A8A000AB0000AD6000AFC000B22000B48000B6E000B94000BBA000BE0000C05000C2B000C50000C76000C9B000CC1000CE6000D0B000D30000D55000D7A000D9F000DC4000DE9000E0E000E33000E57000E7C000EA0000EC5000EE9000F0D000F32000F56000F7A000F9E000FC2000FE600100900102D0010510010740010980010BB0010DF00110200112500114800116C00118F0011B20011D40011F700121A00123D00125F0012820012A40012C70012E900130B00132D00134F0013710013930013B50013D70013F800141A00143C00145D00147E0014A00014C10014E2001503
def rscChunk20 : Nat := 0xFFC35FFFC381FFC3A3FFC3C5FFC3E8FFC40AFFC42DFFC44FFFC472FFC495FFC4B8FFC4DBFFC4FEFFC521FFC545FFC568FFC58BFFC5AFFFC5D2FFC5F6FFC61AFFC63EFFC662FFC686FFC6AAFFC6CEFFC6F2FFC717FFC73BFFC760FFC784FFC7A9FFC7CDFFC7F2FFC817FFC83CFFC861FFC886FFC8ABFFC8D1FFC8F6FFC91CFFC941FFC967FFC98CFFC9B2FFC9D8FFC9FEFFCA23FFCA49FFCA70FFCA96FFCABCFFCAE2FFCB09FFCB2FFFCB55FFCB7CFFCBA3FFCBC9FFCBF0FFCC17FFCC3EFFCC65FFCC8CFFCCB3FFCCDAFFCD01FFCD29FFCD50FFCD77FFCD9FFFCDC6FFCDEEFFCE16FFCE3DFFCE65FFCE8DFFCEB5FFCEDDFFCF05FFCF2DFFCF55FFCF7DFFCFA6FFCFCEFFCFF6FFD01FFFD047FFD070FFD098FFD0C1FFD0EAFFD113FFD13BFFD164FFD18DFFD1B6FFD1DFFFD208FFD232FFD25BFFD284FFD2ADFFD2D7FFD300FFD329FFD353FFD37DFFD3A6FFD3D0FFD3F9FFD423FFD44DFFD477FFD4A1FFD4CBFFD4F5FFD51FFFD549FFD573FFD59DFFD5C7FFD5F1FFD61CFFD646FFD670FFD69BFFD6C5FFD6F0FFD71AFFD745FFD76FFFD79AFFD7C5FFD7F0FFD81AFFD845FFD870FFD89BFFD8C6FFD8F1FFD91CFFD947FFD972FFD99DFFD9C8FFD9F3FFDA1EFFDA4AFFDA75FFDAA0FFDACCFFDAF7FFDB22FFDB4EFFDB79FFDBA5FFDBD0FFDBFCFFDC27FFDC53FFDC7FFFDCAAFFDCD6FFDD02FFDD2DFFDD59FFDD85FFDDB1FFDDDDFFDE09FFDE35FFDE60FFDE8CFFDEB8FFDEE4FFDF10FFDF3CFFDF68FFDF95FFDFC1FFDFEDFFE019FFE045FFE071FFE09EFFE0CAFFE0F6FFE122FFE14FFFE17BFFE1A7FFE1D4FFE200FFE22CFFE259FFE285FFE2B1FFE2DEFFE30AFFE337FFE363FFE390FFE3BCFFE3E9FFE415FFE442FFE46EFFE49BFFE4C7FFE4F4FFE521FFE54DFFE57AFFE5A6FFE5D3FFE600FFE62CFFE659FFE686FFE6B2FFE6DFFFE70CFFE738FFE765FFE792FFE7BEFFE7EBFFE818FFE844FFE871FFE89EFFE8CAFFE8F7FFE924FFE951FFE97DFFE9AAFFE9D7FFEA03FFEA30FFEA5DFFEA8AFFEAB6FFEAE3FFEB10FFEB3CFFEB69FFEB96FFEBC2FFEBEFFFEC1CFFEC48FFEC75FFECA2
def rscChunk21 : Nat := 0xFFB043FFB044FFB045FFB046FFB048FFB04AFFB04CFFB04EFFB050FFB052FFB055FFB058FFB05BFFB05EFFB061FFB064FFB068FFB06BFFB06FFFB073FFB077FFB07CFFB080FFB085FFB089FFB08EFFB093FFB099FFB09EFFB0A4FFB0A9FFB0AFFFB0B5FFB0BBFFB0C2FFB0C8FFB0CFFFB0D6FFB0DCFFB0E4FFB0EBFFB0F2FFB0FAFFB101FFB109FFB111FFB11AFFB122FFB12AFFB133FFB13CFFB145FFB14EFFB157FFB160FFB16AFFB173FFB17DFFB187FFB191FFB19CFFB1A6FFB1B1FFB1BBFFB1C6FFB1D1FFB1DCFFB1E8FFB1F3FFB1FFFFB20AFFB216FFB222FFB22EFFB23BFFB247FFB254FFB261FFB26EFFB27BFFB288FFB295FFB2A3FFB2B0FFB2BEFFB2CCFFB2DAFFB2E8FFB2F7FFB305FFB314FFB322FFB331FFB340FFB350FFB35FFFB36EFFB37EFFB38EFFB39EFFB3AEFFB3BEFFB3CEFFB3DFFFB3EFFFB400FFB411FFB422FFB433FFB444FFB456FFB467FFB479FFB48BFFB49DFFB4AFFFB4C1FFB4D3FFB4E6FFB4F8FFB50BFFB51EFFB531FFB544FFB557FFB56BFFB57EFFB592FFB5A6FFB5BAFFB5CEFFB5E2FFB5F7FFB60BFFB620FFB634FFB649FFB65EFFB673FFB689FFB69EFFB6B3FFB6C9FFB6DFFFB6F5FFB70BFFB721FFB737FFB74EFFB764FFB77BFFB791FFB7A8FFB7BFFFB7D6FFB7EEFFB805FFB81DFFB834FFB84CFFB864FFB87CFFB894FFB8ACFFB8C5FFB8DDFFB8F6FFB90EFFB927FFB940FFB959FFB972FFB98CFFB9A5FFB9BFFFB9D8FFB9F2FFBA0CFFBA26FFBA40FFBA5AFFBA75FFBA8FFFBAAAFFBAC5FFBADFFFBAFAFFBB15FFBB31FFBB4CFFBB67FFBB83FFBB9EFFBBBAFFBBD6FFBBF2FFBC0EFFBC2AFFBC46FFBC63FFBC7FFFBC9CFFBCB9FFBCD5FFBCF2FFBD0FFFBD2CFFBD4AFFBD67FFBD85FFBDA2FFBDC0FFBDDEFFBDFBFFBE19FFBE38FFBE56FFBE74FFBE92FFBEB1FFBED0FFBEEEFFBF0DFFBF2CFFBF4BFFBF6AFFBF89FFBFA9FFBFC8FFBFE8FFC007FFC027FFC047FFC067FFC087FFC0A7FFC0C7FFC0E7FFC108FFC128FFC149FFC169FFC18AFFC1ABFFC1CCFFC1EDFFC20EFFC22FFFC251FFC272FFC294FFC2B5FFC2D7FFC2F9FFC31BFFC33C
def rscChunk22 : Nat := 0xFFC4A2FFC479FFC44FFFC426FFC3FDFFC3D3FFC3ABFFC382FFC359FFC331FFC309FFC2E1FFC2B9FFC291FFC269FFC242FFC21BFFC1F4FFC1CDFFC1A6FFC17FFFC159FFC133FFC10CFFC0E6FFC0C1FFC09BFFC076FFC050FFC02BFFC006FFBFE1FFBFBDFFBF98FFBF74FFBF50FFBF2CFFBF08FFBEE4FFBEC1FFBE9DFFBE7AFFBE57FFBE34FFBE12FFBDEFFFBDCDFFBDABFFBD89FFBD67FFBD45FFBD24FFBD02FFBCE1FFBCC0FFBC9FFFBC7EFFBC5EFFBC3EFFBC1DFFBBFDFFBBDEFFBBBEFFBB9EFFBB7FFFBB60FFBB41FFBB22FFBB03FFBAE5FFBAC7FFBAA8FFBA8AFFBA6DFFBA4FFFBA31FFBA14FFB9F7FFB9DAFFB9BDFFB9A1FFB984FFB968FFB94CFFB930FFB914FFB8F8FFB8DDFFB8C1FFB8A6FFB88BFFB871FFB856FFB83CFFB821FFB807FFB7EDFFB7D4FFB7BAFFB7A1FFB787FFB76EFFB755FFB73DFFB724FFB70CFFB6F3FFB6DBFFB6C3FFB6ACFFB694FFB67DFFB666FFB64FFFB638FFB621FFB60AFFB5F4FFB5DEFFB5C8FFB5B2FFB59CFFB587FFB572FFB55DFFB548FFB533FFB51EFFB50AFFB4F5FFB4E1FFB4CDFFB4B9FFB4A6FFB492FFB47FFFB46CFFB459FFB446FFB434FFB421FFB40FFFB3FDFFB3EBFFB3D9FFB3C8FFB3B6FFB3A5FFB394FFB383FFB373FFB362FFB352FFB341FFB331FFB322FFB312FFB302FFB2F3FFB2E4FFB2D5FFB2C6FFB2B7FFB2A9FFB29BFFB28CFFB27EFFB271FFB263FFB255FFB248FFB23BFFB22EFFB221FFB215FFB208FFB1FCFFB1F0FFB1E4FFB1D8FFB1CCFFB1C1FFB1B6FFB1ABFFB1A0FFB195FFB18AFFB180FFB176FFB16CFFB162FFB158FFB14EFFB145FFB13CFFB133FFB12AFFB121FFB118FFB110FFB108FFB100FFB0F8FFB0F0FFB0E8FFB0E1FFB0DAFFB0D3FFB0CCFFB0C5FFB0BFFFB0B8FFB0B2FFB0ACFFB0A6FFB0A0FFB09BFFB095FFB090FFB08BFFB086FFB081FFB07DFFB078FFB074FFB070FFB06CFFB068FFB065FFB061FFB05EFFB05BFFB058FFB055FFB053FFB050FFB04EFFB04CFFB04AFFB048FFB046FFB045FFB044FFB043FFB042FFB041FFB040FFB040FFB03FFFB03FFFB03FFFB03FFFB040FFB040FFB041FFB042
def rscChunk23 : Nat := 0xFFFFB8FFFF6FFFFF27FFFEDEFFFE96FFFE4EFFFE06FFFDBEFFFD76FFFD2EFFFCE6FFFC9FFFFC57FFFC0FFFFBC8FFFB80FFFB39FFFAF2FFFAABFFFA63FFFA1CFFF9D5FFF98FFFF948FFF901FFF8BAFFF874FFF82DFFF7E7FFF7A0FFF75AFFF714FFF6CEFFF688FFF642FFF5FCFFF5B6FFF571FFF52BFFF4E5FFF4A0FFF45BFFF415FFF3D0FFF38BFFF346FFF301FFF2BCFFF278FFF233FFF1EFFFF1AAFFF166FFF121FFF0DDFFF099FFF055FFF011FFEFCDFFEF8AFFEF46FFEF03FFEEBFFFEE7CFFEE39FFEDF6FFEDB3FFED70FFED2DFFECEAFFECA7FFEC65FFEC22FFEBE0FFEB9EFFEB5CFFEB1AFFEAD8FFEA96FFEA54FFEA13FFE9D1FFE990FFE94EFFE90DFFE8CCFFE88BFFE84AFFE809FFE7C9FFE788FFE748FFE707FFE6C7FFE687FFE647FFE607FFE5C7FFE588FFE548FFE509FFE4C9FFE48AFFE44BFFE40CFFE3CDFFE38FFFE350FFE311FFE2D3FFE295FFE256FFE218FFE1DAFFE19DFFE15FFFE121FFE0E4FFE0A6FFE069FFE02CFFDFEFFFDFB2FFDF75FFDF39FFDEFCFFDEC0FFDE84FFDE48FFDE0CFFDDD0FFDD94FFDD58FFDD1DFFDCE1FFDCA6FFDC6BFFDC30FFDBF5FFDBBAFFDB80FFDB45FFDB0BFFDAD1FFDA96FFDA5CFFDA23FFD9E9FFD9AFFFD976FFD93CFFD903FFD8CAFFD891FFD858FFD820FFD7E7FFD7AFFFD776FFD73EFFD706FFD6CEFFD697FFD65FFFD628FFD5F0FFD5B9FFD582FFD54BFFD514FFD4DEFFD4A7FFD471FFD43AFFD404FFD3CEFFD399FFD363FFD32DFFD2F8FFD2C3FFD28EFFD259FFD224FFD1EFFFD1BBFFD186FFD152FFD11EFFD0EAFFD0B6FFD082FFD04FFFD01BFFCFE8FFCFB5FFCF82FFCF4FFFCF1CFFCEEAFFCEB7FFCE85FFCE53FFCE21FFCDEFFFCDBEFFCD8CFFCD5BFFCD2AFFCCF9FFCCC8FFCC97FFCC66FFCC36FFCC05FFCBD5FFCBA5FFCB75FFCB46FFCB16FFCAE7FFCAB7FFCA88FFCA59FFCA2BFFC9FCFFC9CDFFC99FFFC971FFC943FFC915FFC8E7FFC8BAFFC88CFFC85FFFC832FFC805FFC7D8FFC7ABFFC77FFFC752FFC726FFC6FAFFC6CEFFC6A3FFC677FFC64CFFC620FFC5F5FFC5CAFFC5A0FFC575FFC54AFFC520FFC4F6FFC4CC
def rscChunk24 : Nat := 0x4A7E004A380049F10049AA00496300491D0048D600488F0048470048000047B900477200472A0046E300469B00465300460C0045C400457C0045340044EC0044A400445C0044130043CB00438300433A0042F10042A90042600042170041CF00418600413D0040F40040AB004061004018003FCF003F85003F3C003EF3003EA9003E5F003E16003DCC003D82003D38003CEE003CA4003C5A003C10003BC6003B7C003B32003AE8003A9D003A53003A080039BE0039730039290038DE0038930038490037FE0037B300376800371D0036D200368700363C0035F10035A600355B0035100034C500347900342E0033E300339700334C0033000032B500326900321E0031D200318600313B0030EF0030A300305700300C002FC0002F74002F28002EDC002E90002E44002DF8002DAC002D60002D14002CC8002C7C002C30002BE4002B98002B4B002AFF002AB3002A67002A1B0029CE0029820029360028E900289D0028510028040027B800276C00271F0026D300268600263A0025EE0025A10025550025080024BC00246F0024230023D600238A00233E0022F10022A500225800220C0021BF0021730021260020DA00208D002041001FF4001FA8001F5B001F0F001EC3001E76001E2A001DDD001D91001D45001CF8001CAC001C5F001C13001BC7001B7A001B2E001AE2001A95001A490019FD0019B10019640019180018CC0018800018340017E800179C00174F0017030016B700166B00161F0015D300158700153C0014F00014A400145800140C0013C00013750013290012DD0012910012460011FA0011AF0011630011180010CC001081001035000FEA000F9F000F53000F08000EBD000E72000E27000DDB000D90000D45000CFA000CAF000C65000C1A000BCF000B84000B39000AEF000AA4000A5A000A0F0009C400097A0009300008E500089B0008510008070007BC0007720007280006DE00069400064B0006010005B700056D0005240004DA0004900004470003FE0003B400036B0003220002D800028F0002460001FD0001B400016B0001230000DA000091000049000000
def rscChunk25 : Nat := 0x7F1F007F03007EE6007EC8007EAB007E8D007E70007E51007E33007E15007DF6007DD7007DB8007D98007D78007D58007D38007D18007CF7007CD7007CB6007C94007C73007C51007C2F007C0D007BEB007BC8007BA5007B82007B5F007B3C007B18007AF4007AD0007AAC007A87007A63007A3E007A190079F30079CE0079A800798200795C00793500790F0078E80078C100789900787200784A0078220077FA0077D20077A900778100775800772F0077050076DC0076B200768800765E0076340076090075DE0075B300758800755D0075310075060074DA0074AE0074810074550074280073FB0073CE0073A10073730073460073180072EA0072BB00728D00725E0072300072010071D10071A20071720071430071130070E30070B2007082007051007020006FEF006FBE006F8C006F5B006F29006EF7006EC5006E93006E60006E2E006DFB006DC8006D94006D61006D2E006CFA006CC6006C92006C5E006C29006BF5006BC0006B8B006B56006B21006AEB006AB6006A80006A4A006A140069DD0069A700697000693A0069030068CC00689400685D0068250067EE0067B600677E00674500670D0066D500669C00666300662A0065F10065B800657E00654500650B0064D100649700645D0064220063E80063AD0063720063370062FC0062C100628500624A00620E0061D200619600615A00611E0060E10060A500606800602B005FEE005FB1005F74005F36005EF9005EBB005E7D005E40005E01005DC3005D85005D46005D08005CC9005C8A005C4B005C0C005BCD005B8D005B4E005B0E005ACE005A8E005A4E005A0E0059CE00598E00594D00590C0058CC00588B00584A0058090057C70057860057440057030056C100567F00563D0055FB0055B90055770055340054F20054AF00546C00542A0053E70053A300536000531D0052DA00529600525200520F0051CB0051870051430050FF0050BB005076005032004FED004FA9004F64004F1F004EDA004E95004E50004E0B004DC5004D80004D3A004CF5004CAF004C69004C23004BDD004B97004B51004B0B004AC4
def rscChunk26 : Nat := 0x7ABC007AE3007B0A007B31007B58007B7E007BA4007BCA007BEF007C14007C39007C5E007C82007CA6007CCA007CED007D10007D33007D56007D78007D9A007DBC007DDD007DFF007E1F007E40007E60007E81007EA0007EC0007EDF007EFE007F1D007F3B007F59007F77007F95007FB2007FCF007FEC00800800802400804000805C0080770080920080AD0080C70080E10080FB00811500812E0081470081600081780081910081A90081C00081D80081EF00820600821C00823200824800825E00827300828900829D0082B20082C60082DA0082EE00830100831500832700833A00834C00835E0083700083820083930083A40083B50083C50083D50083E50083F400840400841300842100843000843E00844C00845900846700847400848100848D0084990084A50084B10084BC0084C70084D20084DD0084E70084F10084FB00850400850D00851600851F00852700852F00853700853F00854600854D00855400855A00856000856600856C00857100857600857B00857F00858400858800858B00858F00859200859500859800859A00859C00859E00859F0085A10085A20085A20085A30085A30085A30085A30085A20085A10085A000859F00859D00859B00859900859600859400859100858D00858A00858600858200857E00857900857400856F00856A00856400855E00855800855100854B00854400853C00853500852D00852500851D00851400850C0085030084F90084F00084E60084DC0084D10084C70084BC0084B10084A600849A00848E00848200847500846900845C00844F0084410084340084260084180084090083FA0083EC0083DC0083CD0083BD0083AD00839D00838D00837C00836B00835A0083480083370083250083130083000082ED0082DB0082C70082B40082A000828C00827800826400824F00823A0082250082100081FA0081E40081CE0081B80081A100818A00817300815C00814400812D0081150080FC0080E40080CB0080B200809900807F00806600804C008032008017007FFD007FE2007FC7007FAB007F90007F74007F58007F3C
def rscChunk27 : Nat := 0x31DB0032410032A700330D0033720033D800343D0034A200350600356B0035CF0036340036980036FB00375F0037C20038260038890038EB00394E0039B1003A13003A75003AD7003B38003B9A003BFB003C5C003CBD003D1E003D7E003DDE003E3E003E9E003EFE003F5D003FBC00401B00407A0040D90041370041950041F30042510042AE00430C0043690043C600442300447F0044DB0045370045930045EF00464A0046A500470000475B0047B600481000486A0048C400491D0049770049D0004A29004A82004ADA004B33004B8B004BE3004C3A004C92004CE9004D40004D97004DED004E43004E99004EEF004F45004F9A004FEF0050440050990050ED0051410051950051E900523D0052900052E30053360053880053DB00542D00547F0054D00055210055730055C40056140056650056B50057050057540057A40057F30058420058910058DF00592D00597B0059C9005A17005A64005AB1005AFE005B4A005B96005BE2005C2E005C7A005CC5005D10005D5B005DA5005DF0005E3A005E83005ECD005F16005F5F005FA8005FF10060390060810060C900611000615700619E0061E500622B0062720062B80062FD0063430063880063CD00641200645600649A0064DE0065220065650065A80065EB00662E0066700066B20066F40067360067770067B80067F90068390068790068B90068F90069390069780069B70069F5006A34006A72006AB0006AED006B2B006B68006BA4006BE1006C1D006C59006C95006CD0006D0C006D47006D81006DBC006DF6006E30006E69006EA2006EDB006F14006F4D006F85006FBD006FF500702C00706300709A0070D100710700713D0071730071A80071DE00721200724700727C0072B00072E400731700734A00737D0073B00073E30074150074470074790074AA0074DB00750C00753C00756D00759D0075CC0075FC00762B00765A0076890076B70076E500771300774000776E00779B0077C70077F400782000784C0078770078A20078CD0078F800792300794D0079770079A00079CA0079F3007A1B007A44007A6C007A94
def rscChunk28 : Nat := 0xFFBC75FFBCF0FFBD6BFFBDE7FFBE62FFBEDDFFBF59FFBFD4FFC04FFFC0CBFFC146FFC1C2FFC23DFFC2B9FFC334FFC3B0FFC42CFFC4A7FFC523FFC59FFFC61AFFC696FFC712FFC78DFFC809FFC885FFC901FFC97CFFC9F8FFCA74FFCAF0FFCB6CFFCBE7FFCC63FFCCDFFFCD5BFFCDD7FFCE52FFCECEFFCF4AFFCFC6FFD042FFD0BDFFD139FFD1B5FFD231FFD2ADFFD328FFD3A4FFD420FFD49CFFD517FFD593FFD60FFFD68AFFD706FFD782FFD7FDFFD879FFD8F4FFD970FFD9EBFFDA67FFDAE2FFDB5EFFDBD9FFDC55FFDCD0FFDD4BFFDDC6FFDE42FFDEBDFFDF38FFDFB3FFE02EFFE0AAFFE125FFE1A0FFE21BFFE295FFE310FFE38BFFE406FFE481FFE4FBFFE576FFE5F1FFE66BFFE6E6FFE760FFE7DBFFE855FFE8CFFFE94AFFE9C4FFEA3EFFEAB8FFEB32FFEBACFFEC26FFECA0FFED1AFFED94FFEE0DFFEE87FFEF00FFEF7AFFEFF3FFF06DFFF0E6FFF15FFFF1D8FFF251FFF2CAFFF343FFF3BCFFF435FFF4AEFFF526FFF59FFFF617FFF690FFF708FFF780FFF7F8FFF870FFF8E8FFF960FFF9D8FFFA50FFFAC8FFFB3FFFFBB7FFFC2EFFFCA5FFFD1CFFFD94FFFE0BFFFE81FFFEF8FFFF6FFFFFE600005C0000D30001490001BF0002350002AB00032100039700040D0004830004F800056D0005E30006580006CD0007420007B700082C0008A00009150009890009FE000A72000AE6000B5A000BCE000C41000CB5000D28000D9C000E0F000E82000EF5000F68000FDB00104D0010C00011320011A40012160012880012FA00136C0013DD00144F0014C00015310015A20016130016840016F50017650017D60018460018B6001926001995001A05001A75001AE4001B53001BC2001C31001CA0001D0E001D7D001DEB001E59001EC7001F35001FA300201000207E0020EB0021580021C500223200229E00230B0023770023E300244F0024BB0025270025920025FE0026690026D400273F0027A900281400287E0028E80029520029BC002A26002A8F002AF8002B61002BCA002C33002C9C002D04002D6C002DD4002E3C002EA4002F0C002F73002FDA0030410030A800310E003175
def rscChunk29 : Nat := 0xFF50CAFF511BFF516DFF51BFFF5211FF5264FF52B7FF530AFF535EFF53B2FF5406FF545AFF54AEFF5503FF5558FF55AEFF5604FF565AFF56B0FF5706FF575DFF57B4FF580BFF5863FF58BBFF5913FF596BFF59C4FF5A1DFF5A76FF5ACFFF5B29FF5B83FF5BDDFF5C38FF5C92FF5CEDFF5D48FF5DA4FF5E00FF5E5CFF5EB8FF5F14FF5F71FF5FCEFF602BFF6089FF60E6FF6144FF61A2FF6201FF625FFF62BEFF631EFF637DFF63DCFF643CFF649CFF64FDFF655DFF65BEFF661FFF6680FF66E2FF6744FF67A5FF6808FF686AFF68CDFF692FFF6992FF69F6FF6A59FF6ABDFF6B21FF6B85FF6BE9FF6C4EFF6CB3FF6D18FF6D7DFF6DE2FF6E48FF6EAEFF6F14FF6F7AFF6FE1FF7048FF70AEFF7116FF717DFF71E4FF724CFF72B4FF731CFF7384FF73EDFF7456FF74BEFF7528FF7591FF75FAFF7664FF76CEFF7738FF77A2FF780DFF7877FF78E2FF794DFF79B8FF7A23FF7A8FFF7AFBFF7B67FF7BD3FF7C3FFF7CABFF7D18FF7D85FF7DF2FF7E5FFF7ECCFF7F39FF7FA7FF8015FF8083FF80F1FF815FFF81CEFF823CFF82ABFF831AFF8389FF83F9FF8468FF84D8FF8547FF85B7FF8627FF8698FF8708FF8778FF87E9FF885AFF88CBFF893CFF89ADFF8A1FFF8A90FF8B02FF8B74FF8BE6FF8C58FF8CCAFF8D3CFF8DAFFF8E22FF8E94FF8F07FF8F7AFF8FEEFF9061FF90D4FF9148FF91BCFF9230FF92A4FF9318FF938CFF9400FF9475FF94E9FF955EFF95D3FF9648FF96BDFF9732FF97A7FF981DFF9892FF9908FF997EFF99F4FF9A6AFF9AE0FF9B56FF9BCCFF9C43FF9CB9FF9D30FF9DA6FF9E1DFF9E94FF9F0BFF9F82FF9FFAFFA071FFA0E8FFA160FFA1D7FFA24FFFA2C7FFA33FFFA3B7FFA42FFFA4A7FFA51FFFA597FFA610FFA688FFA701FFA779FFA7F2FFA86BFFA8E3FFA95CFFA9D5FFAA4FFFAAC8FFAB41FFABBAFFAC34FFACADFFAD26FFADA0FFAE1AFFAE93FFAF0DFFAF87FFB001FFB07BFFB0F5FFB16FFFB1E9FFB263FFB2DEFFB358FFB3D2FFB44DFFB4C7FFB542FFB5BCFFB637FFB6B1FFB72CFFB7A7FFB822FFB89DFFB917FFB992FFBA0DFFBA88FFBB03FFBB7FFFBBFA
def rscChunk30 : Nat := 0xFF2C14FF2C05FF2BF8FF2BEAFF2BDEFF2BD1FF2BC5FF2BBAFF2BAEFF2BA4FF2B9AFF2B90FF2B86FF2B7DFF2B75FF2B6DFF2B65FF2B5EFF2B57FF2B51FF2B4BFF2B45FF2B40FF2B3BFF2B37FF2B33FF2B30FF2B2DFF2B2BFF2B28FF2B27FF2B26FF2B25FF2B24FF2B24FF2B25FF2B26FF2B27FF2B29FF2B2BFF2B2EFF2B31FF2B34FF2B38FF2B3CFF2B41FF2B46FF2B4CFF2B51FF2B58FF2B5FFF2B66FF2B6DFF2B76FF2B7EFF2B87FF2B90FF2B9AFF2BA4FF2BAFFF2BBAFF2BC5FF2BD1FF2BDDFF2BEAFF2BF7FF2C04FF2C12FF2C20FF2C2FFF2C3EFF2C4EFF2C5EFF2C6EFF2C7FFF2C90FF2CA1FF2CB3FF2CC6FF2CD9FF2CECFF2CFFFF2D13FF2D28FF2D3DFF2D52FF2D68FF2D7EFF2D94FF2DABFF2DC2FF2DDAFF2DF2FF2E0AFF2E23FF2E3CFF2E56FF2E70FF2E8BFF2EA5FF2EC1FF2EDCFF2EF8FF2F15FF2F32FF2F4FFF2F6CFF2F8AFF2FA9FF2FC8FF2FE7FF3006FF3026FF3047FF3068FF3089FF30AAFF30CCFF30EEFF3111FF3134FF3158FF317BFF31A0FF31C4FF31E9FF320FFF3234FF325BFF3281FF32A8FF32CFFF32F7FF331FFF3347FF3370FF3399FF33C3FF33EDFF3417FF3442FF346DFF3498FF34C4FF34F0FF351DFF354AFF3577FF35A5FF35D3FF3601FF3630FF365FFF368EFF36BEFF36EEFF371FFF3750FF3781FF37B3FF37E5FF3817FF384AFF387DFF38B1FF38E4FF3919FF394DFF3982FF39B7FF39EDFF3A23FF3A59FF3A90FF3AC7FF3AFEFF3B36FF3B6EFF3BA6FF3BDFFF3C18FF3C52FF3C8BFF3CC6FF3D00FF3D3BFF3D76FF3DB2FF3DEDFF3E2AFF3E66FF3EA3FF3EE0FF3F1EFF3F5CFF3F9AFF3FD8FF4017FF4057FF4096FF40D6FF4116FF4157FF4198FF41D9FF421AFF425CFF429EFF42E1FF4324FF4367FF43AAFF43EEFF4432FF4477FF44BCFF4501FF4546FF458CFF45D2FF4618FF465FFF46A6FF46EDFF4735FF477DFF47C5FF480EFF4857FF48A0FF48E9FF4933FF497DFF49C8FF4A12FF4A5DFF4AA9FF4AF4FF4B40FF4B8DFF4BD9FF4C26FF4C73FF4CC0FF4D0EFF4D5CFF4DABFF4DF9FF4E48FF4E97FF4EE7FF4F37FF4F87FF4FD7FF5028FF5079
def rscChunk31 : Nat := 0xFF7223FF71A8FF712DFF70B3FF7039FF6FBFFF6F46FF6ECDFF6E54FF6DDCFF6D65FF6CEDFF6C76FF6C00FF6B8AFF6B14FF6A9EFF6A29FF69B5FF6941FF68CDFF6859FF67E6FF6774FF6701FF668FFF661EFF65ADFF653CFF64CCFF645CFF63EDFF637DFF630FFF62A0FF6232FF61C5FF6158FF60EBFF607FFF6013FF5FA7FF5F3CFF5ED2FF5E67FF5DFDFF5D94FF5D2BFF5CC2FF5C5AFF5BF2FF5B8BFF5B23FF5ABDFF5A57FF59F1FF598BFF5926FF58C2FF585EFF57FAFF5796FF5733FF56D1FF566FFF560DFF55ACFF554BFF54EAFF548AFF542BFF53CCFF536DFF530EFF52B0FF5253FF51F6FF5199FF513DFF50E1FF5085FF502AFF4FD0FF4F76FF4F1CFF4EC2FF4E6AFF4E11FF4DB9FF4D61FF4D0AFF4CB3FF4C5DFF4C07FF4BB1FF4B5CFF4B08FF4AB3FF4A60FF4A0CFF49B9FF4967FF4915FF48C3FF4872FF4821FF47D0FF4780FF4731FF46E2FF4693FF4645FF45F7FF45AAFF455DFF4510FF44C4FF4478FF442DFF43E2FF4398FF434EFF4305FF42BCFF4273FF422BFF41E3FF419CFF4155FF410EFF40C8FF4083FF403EFF3FF9FF3FB5FF3F71FF3F2EFF3EEBFF3EA8FF3E66FF3E24FF3DE3FF3DA2FF3D62FF3D22FF3CE3FF3CA4FF3C65FF3C27FF3BE9FF3BACFF3B6FFF3B33FF3AF7FF3ABBFF3A80FF3A46FF3A0CFF39D2FF3999FF3960FF3927FF38EFFF38B8FF3881FF384AFF3814FF37DEFF37A9FF3774FF373FFF370BFF36D8FF36A5FF3672FF3640FF360EFF35DDFF35ACFF357BFF354BFF351CFF34ECFF34BEFF348FFF3462FF3434FF3407FF33DBFF33AFFF3383FF3358FF332DFF3303FF32D9FF32B0FF3287FF325EFF3236FF320FFF31E7FF31C1FF319AFF3174FF314FFF312AFF3105FF30E1FF30BEFF309AFF3078FF3055FF3033FF3012FF2FF1FF2FD0FF2FB0FF2F91FF2F71FF2F53FF2F34FF2F16FF2EF9FF2EDCFF2EBFFF2EA3FF2E87FF2E6CFF2E51FF2E37FF2E1DFF2E03FF2DEAFF2DD2FF2DB9FF2DA2FF2D8AFF2D73FF2D5DFF2D47FF2D31FF2D1CFF2D08FF2CF3FF2CDFFF2CCCFF2CB9FF2CA7FF2C95FF2C83FF2C72FF2C61FF2C51FF2C41FF2C31FF2C22
def rscChunk32 : Nat := 0x140F0013530012960011DA00111D001061000FA5000EE9000E2D000D71000CB6000BFA000B3F000A830009C800090D0008520007970006DD0006220005680004AD0003F300033900027F0001C600010C000052FFFF99FFFEE0FFFE27FFFD6EFFFCB5FFFBFCFFFB44FFFA8CFFF9D3FFF91BFFF863FFF7ACFFF6F4FFF63DFFF585FFF4CEFFF417FFF360FFF2AAFFF1F3FFF13DFFF087FFEFD1FFEF1BFFEE66FFEDB0FFECFBFFEC46FFEB91FFEADCFFEA27FFE973FFE8BFFFE80BFFE757FFE6A3FFE5F0FFE53DFFE489FFE3D7FFE324FFE271FFE1BFFFE10DFFE05BFFDFA9FFDEF8FFDE46FFDD95FFDCE4FFDC33FFDB83FFDAD3FFDA23FFD973FFD8C3FFD813FFD764FFD6B5FFD606FFD558FFD4A9FFD3FBFFD34DFFD29FFFD1F2FFD144FFD097FFCFEBFFCF3EFFCE91FFCDE5FFCD39FFCC8EFFCBE2FFCB37FFCA8CFFC9E1FFC937FFC88CFFC7E2FFC738FFC68FFFC5E6FFC53CFFC494FFC3EBFFC343FFC29BFFC1F3FFC14BFFC0A4FFBFFDFFBF56FFBEAFFFBE09FFBD63FFBCBDFFBC17FFBB72FFBACDFFBA28FFB984FFB8E0FFB83CFFB798FFB6F5FFB651FFB5AEFFB50CFFB46AFFB3C7FFB326FFB284FFB1E3FFB142FFB0A1FFB001FFAF61FFAEC1FFAE21FFAD82FFACE3FFAC44FFABA6FFAB08FFAA6AFFA9CCFFA92FFFA892FFA7F5FFA759FFA6BDFFA621FFA586FFA4EBFFA450FFA3B5FFA31BFFA281FFA1E7FFA14EFFA0B5FFA01CFF9F84FF9EEBFF9E54FF9DBCFF9D25FF9C8EFF9BF7FF9B61FF9ACBFF9A35FF99A0FF990BFF9876FF97E2FF974EFF96BAFF9627FF9594FF9501FF946FFF93DCFF934BFF92B9FF9228FF9197FF9107FF9077FF8FE7FF8F57FF8EC8FF8E3AFF8DABFF8D1DFF8C8FFF8C02FF8B75FF8AE8FF8A5BFF89CFFF8944FF88B8FF882DFF87A2FF8718FF868EFF8604FF857BFF84F2FF8469FF83E1FF8359FF82D2FF824BFF81C4FF813DFF80B7FF8031FF7FACFF7F27FF7EA2FF7E1EFF7D9AFF7D16FF7C93FF7C10FF7B8DFF7B0BFF7A89FF7A08FF7987FF7906FF7886FF7806FF7786FF7707FF7688FF7609FF758BFF750DFF7490FF7413FF7396FF731AFF729E
def rscChunk33 : Nat := 0xCD9300CCEE00CC4700CBA100CAFB00CA5400C9AD00C90500C85D00C7B500C70D00C66500C5BC00C51300C46900C3C000C31600C26C00C1C100C11700C06C00BFC100BF1500BE6A00BDBE00BD1100BC6500BBB800BB0B00BA5E00B9B100B90300B85500B7A700B6F900B64A00B59B00B4EC00B43D00B38E00B2DE00B22E00B17E00B0CD00B01D00AF6C00AEBB00AE0900AD5800ACA600ABF400AB4200AA9000A9DD00A92A00A87700A7C400A71100A65D00A5A900A4F500A44100A38D00A2D800A22400A16F00A0B900A004009F4F009E99009DE3009D2D009C77009BC1009B0A009A5300999C0098E500982E0097770096BF00960700954F0094970093DF00932700926E0091B50090FD009044008F8A008ED1008E18008D5E008CA4008BEB008B31008A760089BC00890200884700878C0086D200861700855C0084A00083E500832A00826E0081B20080F600803B007F7E007EC2007E06007D4A007C8D007BD1007B14007A5700799A0078DD0078200077630076A60075E800752B00746D0073AF0072F20072340071760070B8006FFA006F3B006E7D006DBF006D00006C42006B83006AC5006A060069470068880067C900670A00664B00658C0064CD00640E00634F00628F0061D0006110006051005F91005ED2005E12005D52005C93005BD3005B13005A530059930058D40058140057540056940055D40055130054530053930052D3005213005153005093004FD2004F12004E52004D92004CD1004C11004B51004A910049D000491000485000478F0046CF00460F00454E00448E0043CE00430E00424D00418D0040CD00400D003F4D003E8C003DCC003D0C003C4C003B8C003ACC003A0C00394C00388C0037CC00370C00364C00358C0034CC00340C00334D00328D0031CD00310E00304E002F8F002ECF002E10002D50002C91002BD2002B13002A540029940028D50028170027580026990025DA00251B00245D00239E0022E00022210021630020A5001FE6001F28001E6A001DAC001CEF001C31001B73001AB60019F800193B00187D0017C00017030016460015890014CC
def rscChunk34 : Nat := 0x13F3B013F0B013EDA013EA8013E76013E43013E0F013DDB013DA7013D71013D3B013D05013CCE013C96013C5E013C25013BEC013BB2013B77013B3C013B00013AC4013A87013A4A013A0C0139CD01398E01394E01390E0138CD01388B0138490138060137C301377F01373B0136F60136B001366A0136230135DC01359401354C0135030134BA0134700134250133DA01338E0133420132F50132A801325A01320B0131BC01316C01311C0130CC01307A013028012FD6012F83012F30012EDC012E87012E32012DDD012D87012D30012CD9012C81012C29012BD0012B77012B1D012AC2012A67012A0C0129B00129530128F601289901283B0127DC01277D01271D0126BD01265D0125FB01259A0125370124D501247101240E0123A90123450122DF01227A0122130121AD0121450120DE01207501200C011FA3011F39011ECF011E64011DF9011D8D011D21011CB5011C47011BDA011B6B011AFD011A8E011A1E0119AE01193D0118CC01185B0117E901177601170301169001161C0115A80115330114BE0114480113D201135B0112E401126C0111F401117C01110301108901100F010F95010F1A010E9F010E23010DA7010D2A010CAD010C30010BB2010B34010AB5010A360109B60109360108B50108340107B30107310106AF01062C0105A90105260104A201041D01039901031301028E0102080101810100FA01007300FFEB00FF6300FEDB00FE5200FDC800FD3F00FCB500FC2A00FB9F00FB1400FA8800F9FC00F96F00F8E200F85500F7C700F73900F6AB00F61C00F58D00F4FD00F46D00F3DD00F34C00F2BB00F22900F19700F10500F07200EFDF00EF4C00EEB800EE2400ED9000ECFB00EC6600EBD000EB3A00EAA400EA0D00E97600E8DF00E84700E7AF00E71700E67E00E5E500E54B00E4B100E41700E37D00E2E200E24700E1AB00E11000E07300DFD700DF3A00DE9D00DE0000DD6200DCC400DC2500DB8600DAE700DA4800D9A800D90800D86800D7C700D72600D68500D5E300D54100D49F00D3FD00D35A00D2B700D21300D17000D0CC00D02700CF8300CEDE00CE39
def rscChunk35 : Nat := 0x11CDF011D56011DCC011E42011EB7011F2B011F9F0120120120840120F60121670121D70122470122B60123240123920123FF01246B0124D70125420125AC01261601267F0126E701274F0127B601281D0128820128E801294C0129B0012A13012A75012AD7012B38012B99012BF8012C58012CB6012D14012D71012DCD012E29012E84012EDF012F39012F92012FEA0130420130990130F001314501319A0131EF0132430132960132E801333A01338B0133DB01342B01347A0134C90135160135630135B00135FC0136470136910136DB01372401376C0137B40137FB0138410138870138CC0139100139540139970139D9013A1B013A5C013A9C013ADC013B1B013B59013B97013BD4013C10013C4B013C86013CC1013CFA013D33013D6B013DA3013DDA013E10013E46013E7A013EAF013EE2013F15013F47013F79013FAA013FDA0140090140380140660140940140C10140ED01411801414301416D0141970141BF0141E801420F01423601425C0142810142A60142CA0142EE0143100143330143540143750143950143B40143D30143F101440F01442B01444801446301447E0144980144B10144CA0144E20144FA01451001452701453C01455101456501457801458B01459D0145AF0145C00145D00145DF0145EE0145FD01460A01461701462301462F01463A01464401464D01465601465F01466601466D01467401467901467E01468301468601468901468C01468E01468F01468F01468F01468E01468C01468A01468801468401468001467B01467601467001466901466201465A01465101464801463E01463301462801461C0146100146030145F50145E70145D80145C80145B80145A701459501458301457001455D01454901453401451F0145090144F20144DB0144C30144AA01449101447701445D01444201442601440A0143ED0143D00143B10143930143730143530143330143110142EF0142CD0142AA01428601426201423D0142170141F10141CA0141A301417B0141520141290140FF0140D50140AA01407E014052014025013FF7013FC9013F9B013F6B
def rscChunk36 : Nat := 0x5AF0005BF0005CF0005DEF005EEE005FED0060EB0061E90062E60063E30064E00065DC0066D80067D40068CF0069CA006AC4006BBE006CB8006DB1006EAA006FA200709A00719200728900738000747700756D00766200775700784C007941007A35007B28007C1B007D0E007E00007EF2007FE40080D50081C50082B50083A500849400858300867200876000884D00893A008A27008B13008BFF008CEA008DD5008EC0008FAA00909300917C00926500934D00943500951C0096030096E90097CF0098B4009999009A7E009B62009C45009D28009E0B009EED009FCF00A0B000A19100A27100A35000A43000A50E00A5ED00A6CA00A7A800A88400A96100AA3C00AB1800ABF300ACCD00ADA700AE8000AF5900B03100B10900B1E000B2B700B38D00B46300B53800B60D00B6E100B7B500B88800B95B00BA2D00BAFE00BBD000BCA000BD7000BE4000BF0F00BFDD00C0AB00C17900C24500C31200C3DE00C4A900C57400C63E00C70800C7D100C89900C96100CA2900CAF000CBB600CC7C00CD4100CE0600CECA00CF8E00D05100D11400D1D600D29700D35800D41900D4D800D59800D65600D71400D7D200D88F00D94B00DA0700DAC200DB7D00DC3700DCF100DDAA00DE6200DF1A00DFD100E08800E13E00E1F400E2A900E35D00E41100E4C400E57700E62900E6DA00E78B00E83B00E8EB00E99A00EA4900EAF600EBA400EC5100ECFD00EDA800EE5300EEFE00EFA700F05000F0F900F1A100F24800F2EF00F39500F43B00F4E000F58400F62800F6CB00F76E00F81000F8B100F95200F9F200FA9100FB3000FBCE00FC6C00FD0900FDA500FE4100FEDC00FF770100110100AA0101430101DB01027201030901039F0104350104CA01055E0105F20106850107170107A901083A0108CB01095B0109EA010A79010B07010B94010C21010CAD010D39010DC4010E4E010ED7010F60010FE90110700110F701117E01120401128901130D01139101141401149701151901159A01161B01169B01171A01179901181701189401191101198D011A08011A83011AFD011B77011BEF011C68
def rscChunk37 : Nat := 0xFF41A1FF42BCFF43D8FF44F3FF460FFF472BFF4847FF4963FF4A7FFF4B9CFF4CB8FF4DD5FF4EF2FF500FFF512CFF524AFF5367FF5485FF55A3FF56C1FF57DFFF58FDFF5A1CFF5B3AFF5C59FF5D78FF5E96FF5FB5FF60D4FF61F4FF6313FF6432FF6552FF6672FF6791FF68B1FF69D1FF6AF1FF6C11FF6D32FF6E52FF6F72FF7093FF71B3FF72D4FF73F5FF7516FF7636FF7757FF7878FF799AFF7ABBFF7BDCFF7CFDFF7E1EFF7F40FF8061FF8183FF82A4FF83C6FF84E7FF8609FF872BFF884CFF896EFF8A90FF8BB2FF8CD4FF8DF5FF8F17FF9039FF915BFF927DFF939FFF94C1FF95E3FF9705FF9827FF9949FF9A6BFF9B8DFF9CAFFF9DD1FF9EF3FFA015FFA137FFA259FFA37BFFA49CFFA5BEFFA6E0FFA802FFA924FFAA45FFAB67FFAC89FFADAAFFAECCFFAFEEFFB10FFFB230FFB352FFB473FFB595FFB6B6FFB7D7FFB8F8FFBA19FFBB3AFFBC5BFFBD7CFFBE9DFFBFBDFFC0DEFFC1FFFFC31FFFC43FFFC560FFC680FFC7A0FFC8C0FFC9E0FFCB00FFCC20FFCD3FFFCE5FFFCF7EFFD09EFFD1BDFFD2DCFFD3FBFFD51AFFD639FFD757FFD876FFD994FFDAB2FFDBD1FFDCEFFFDE0DFFDF2AFFE048FFE165FFE283FFE3A0FFE4BDFFE5DAFFE6F7FFE813FFE930FFEA4CFFEB68FFEC84FFEDA0FFEEBBFFEFD7FFF0F2FFF20DFFF328FFF443FFF55EFFF678FFF792FFF8ACFFF9C6FFFAE0FFFBF9FFFD13FFFE2CFFFF4500005E00017600028E0003A70004BE0005D60006EE00080500091C000A33000B4A000C60000D76000E8C000FA20010B70011CD0012E20013F700150B00161F00173400184700195B001A6E001B82001C94001DA7001EB9001FCC0020DD0021EF002300002411002522002633002743002853002963002A72002B81002C90002D9F002EAD002FBB0030C90031D70032E40033F10034FD00360A00371600382100392D003A38003B43003C4D003D57003E61003F6B00407400417D00428600438E00449600459D0046A50047AC0048B20049B9004ABF004BC4004CCA004DCF004ED3004FD80050DC0051DF0052E20053E50054E80055EA0056EC0057EE0058EF0059F0
def rscChunk38 : Nat := 0xFE566CFE5710FE57B5FE585AFE5900FE59A7FE5A4FFE5AF7FE5BA0FE5C4AFE5CF4FE5DA0FE5E4BFE5EF8FE5FA5FE6053FE6102FE61B1FE6261FE6312FE63C4FE6476FE6529FE65DCFE6691FE6746FE67FBFE68B2FE6969FE6A20FE6AD9FE6B92FE6C4BFE6D06FE6DC1FE6E7CFE6F39FE6FF6FE70B4FE7172FE7231FE72F1FE73B1FE7472FE7534FE75F6FE76B9FE777CFE7841FE7905FE79CBFE7A91FE7B58FE7C1FFE7CE7FE7DB0FE7E79FE7F43FE800EFE80D9FE81A5FE8271FE833EFE840CFE84DAFE85A9FE8678FE8748FE8819FE88EAFE89BCFE8A8EFE8B61FE8C35FE8D09FE8DDEFE8EB3FE8F89FE9060FE9137FE920FFE92E7FE93C0FE9499FE9573FE964EFE9729FE9805FE98E1FE99BEFE9A9BFE9B79FE9C58FE9D37FE9E16FE9EF6FE9FD7FEA0B8FEA19AFEA27CFEA35FFEA443FEA527FEA60BFEA6F0FEA7D5FEA8BBFEA9A2FEAA89FEAB71FEAC59FEAD41FEAE2AFEAF14FEAFFEFEB0E9FEB1D4FEB2BFFEB3ABFEB498FEB585FEB673FEB761FEB84FFEB93EFEBA2EFEBB1EFEBC0EFEBCFFFEBDF1FEBEE3FEBFD5FEC0C8FEC1BBFEC2AFFEC3A3FEC498FEC58DFEC683FEC779FEC86FFEC966FECA5DFECB55FECC4DFECD46FECE3FFECF39FED033FED12DFED228FED323FED41FFED51BFED618FED714FED812FED910FEDA0EFEDB0CFEDC0BFEDD0BFEDE0AFEDF0BFEE00BFEE10CFEE20DFEE30FFEE411FEE514FEE617FEE71AFEE81EFEE922FEEA26FEEB2BFEEC30FEED35FEEE3BFEEF41FEF048FEF14FFEF256FEF35EFEF466FEF56EFEF677FEF780FEF889FEF993FEFA9DFEFBA7FEFCB2FEFDBDFEFEC8FEFFD4FF00E0FF01ECFF02F8FF0405FF0513FF0620FF072EFF083CFF094BFF0A59FF0B68FF0C78FF0D87FF0E97FF0FA8FF10B8FF11C9FF12DAFF13EBFF14FDFF160FFF1721FF1833FF1946FF1A59FF1B6CFF1C80FF1D94FF1EA8FF1FBCFF20D0FF21E5FF22FAFF240FFF2525FF263BFF2751FF2867FF297DFF2A94FF2BABFF2CC2FF2DD9FF2EF1FF3009FF3121FF3239FF3351FF346AFF3583FF369CFF37B5FF38CFFF39E8FF3B02FF3C1CFF3D36FF3E51FF3F6BFF4086
def rscChunk39 : Nat := 0xFE2028FE1FE6FE1FA5FE1F65FE1F26FE1EE8FE1EABFE1E6EFE1E33FE1DF9FE1DC0FE1D88FE1D51FE1D1BFE1CE5FE1CB1FE1C7EFE1C4CFE1C1BFE1BEBFE1BBBFE1B8DFE1B60FE1B34FE1B09FE1ADEFE1AB5FE1A8DFE1A66FE1A3FFE1A1AFE19F6FE19D2FE19B0FE198FFE196FFE194FFE1931FE1914FE18F7FE18DCFE18C1FE18A8FE188FFE1878FE1862FE184CFE1838FE1824FE1812FE1800FE17EFFE17E0FE17D1FE17C4FE17B7FE17ABFE17A0FE1797FE178EFE1786FE177FFE177AFE1775FE1771FE176EFE176CFE176BFE176BFE176CFE176EFE1771FE1775FE177AFE177FFE1786FE178EFE1797FE17A0FE17ABFE17B6FE17C3FE17D0FE17DFFE17EEFE17FFFE1810FE1822FE1836FE184AFE185FFE1875FE188CFE18A4FE18BDFE18D7FE18F2FE190EFE192AFE1948FE1967FE1986FE19A7FE19C8FE19EBFE1A0EFE1A33FE1A58FE1A7EFE1AA5FE1ACDFE1AF6FE1B20FE1B4BFE1B77FE1BA3FE1BD1FE1C00FE1C2FFE1C60FE1C91FE1CC3FE1CF6FE1D2AFE1D60FE1D96FE1DCCFE1E04FE1E3DFE1E77FE1EB1FE1EEDFE1F29FE1F66FE1FA4FE1FE4FE2024FE2065FE20A6FE20E9FE212DFE2171FE21B7FE21FDFE2244FE228DFE22D6FE2320FE236AFE23B6FE2403FE2450FE249FFE24EEFE253EFE258FFE25E1FE2634FE2688FE26DCFE2732FE2788FE27E0FE2838FE2891FE28EBFE2945FE29A1FE29FDFE2A5BFE2AB9FE2B18FE2B78FE2BD9FE2C3AFE2C9DFE2D00FE2D65FE2DCAFE2E30FE2E97FE2EFEFE2F67FE2FD0FE303AFE30A5FE3111FE317EFE31ECFE325AFE32C9FE3339FE33AAFE341CFE348FFE3502FE3577FE35ECFE3662FE36D8FE3750FE37C8FE3842FE38BCFE3936FE39B2FE3A2FFE3AACFE3B2AFE3BA9FE3C29FE3CA9FE3D2BFE3DADFE3E30FE3EB4FE3F38FE3FBEFE4044FE40CBFE4152FE41DBFE4264FE42EEFE4379FE4405FE4492FE451FFE45ADFE463CFE46CBFE475CFE47EDFE487FFE4911FE49A5FE4A39FE4ACEFE4B64FE4BFAFE4C92FE4D2AFE4DC3FE4E5CFE4EF6FE4F91FE502DFE50CAFE5167FE5205FE52A4FE5344FE53E4FE5485FE5527FE55C9
def rscChunk40 : Nat := 0xFEDEF6FEDDC4FEDC93FEDB64FEDA35FED906FED7D9FED6ACFED580FED455FED32BFED201FED0D9FECFB1FECE8AFECD63FECC3EFECB19FEC9F5FEC8D2FEC7B0FEC68FFEC56EFEC44EFEC32FFEC211FEC0F4FEBFD8FEBEBCFEBDA1FEBC87FEBB6EFEBA56FEB93FFEB828FEB712FEB5FDFEB4E9FEB3D6FEB2C4FEB1B2FEB0A2FEAF92FEAE83FEAD75FEAC68FEAB5BFEAA50FEA945FEA83BFEA732FEA62AFEA523FEA41DFEA317FEA213FEA10FFEA00CFE9F0AFE9E09FE9D09FE9C0AFE9B0BFE9A0EFE9911FE9815FE971AFE9620FE9527FE942FFE9338FE9241FE914CFE9057FE8F63FE8E71FE8D7FFE8C8EFE8B9DFE8AAEFE89C0FE88D2FE87E6FE86FAFE8610FE8526FE843DFE8355FE826EFE8188FE80A3FE7FBEFE7EDBFE7DF9FE7D17FE7C36FE7B57FE7A78FE799AFE78BDFE77E1FE7706FE762CFE7553FE747BFE73A3FE72CDFE71F8FE7123FE704FFE6F7DFE6EABFE6DDAFE6D0BFE6C3CFE6B6EFE6AA1FE69D5FE690AFE6840FE6776FE66AEFE65E7FE6521FE645BFE6397FE62D3FE6211FE614FFE608EFE5FCFFE5F10FE5E52FE5D96FE5CDAFE5C1FFE5B65FE5AACFE59F4FE593DFE5887FE57D2FE571EFE566BFE55B9FE5507FE5457FE53A8FE52FAFE524CFE51A0FE50F4FE504AFE4FA1FE4EF8FE4E51FE4DAAFE4D05FE4C60FE4BBDFE4B1AFE4A78FE49D8FE4938FE4899FE47FCFE475FFE46C3FE4628FE458FFE44F6FE445EFE43C7FE4331FE429DFE4209FE4176FE40E4FE4053FE3FC3FE3F34FE3EA6FE3E19FE3D8DFE3D02FE3C79FE3BF0FE3B68FE3AE1FE3A5BFE39D6FE3952FE38CEFE384CFE37CBFE374BFE36CCFE364EFE35D1FE3555FE34DAFE3460FE33E7FE336FFE32F8FE3282FE320DFE3199FE3125FE30B3FE3042FE2FD2FE2F63FE2EF5FE2E88FE2E1CFE2DB1FE2D47FE2CDDFE2C75FE2C0EFE2BA8FE2B43FE2ADFFE2A7CFE2A1AFE29B9FE2958FE28F9FE289BFE283EFE27E2FE2787FE272DFE26D4FE267CFE2624FE25CEFE2579FE2525FE24D2FE2480FE242FFE23DFFE2390FE2341FE22F4FE22A8FE225DFE2213FE21CAFE2182FE213BFE20F5FE20AFFE206B
def rscChunk41 : Nat := 0x5C73005AC600591A00576E0055C300541700526B0050C0004F15004D69004BBE004A130048690046BE0045140043690041BF004015003E6C003CC2003B1800396F0037C600361D0034740032CC003124002F7B002DD3002C2C002A840028DD00273600258F0023E800224200209B001EF5001D50001BAA001A0500185F0016BB0015160013720011CE00102A000E86000CE3000B4000099D0007FA0006580004B6000314000173FFFFD2FFFE31FFFC90FFFAF0FFF950FFF7B0FFF611FFF472FFF2D3FFF135FFEF96FFEDF9FFEC5BFFEABEFFE921FFE784FFE5E8FFE44CFFE2B1FFE116FFDF7BFFDDE0FFDC46FFDAACFFD913FFD77AFFD5E1FFD449FFD2B1FFD119FFCF82FFCDEBFFCC55FFCABFFFC929FFC794FFC5FFFFC46AFFC2D6FFC142FFBFAFFFBE1CFFBC89FFBAF7FFB966FFB7D4FFB643FFB4B3FFB323FFB193FFB004FFAE75FFACE7FFAB59FFA9CCFFA83FFFA6B2FFA526FFA39BFFA20FFFA085FF9EFAFF9D71FF9BE7FF9A5FFF98D6FF974EFF95C7FF9440FF92B9FF9133FF8FAEFF8E29FF8CA4FF8B20FF899DFF881AFF8697FF8515FF8394FF8213FF8092FF7F12FF7D93FF7C14FF7A96FF7918FF779BFF761EFF74A2FF7326FF71ABFF7030FF6EB6FF6D3CFF6BC3FF6A4BFF68D3FF675CFF65E5FF646FFF62F9FF6184FF6010FF5E9CFF5D28FF5BB6FF5A44FF58D2FF5761FF55F0FF5481FF5311FF51A3FF5035FF4EC7FF4D5AFF4BEEFF4A83FF4918FF47ADFF4643FF44DAFF4372FF420AFF40A2FF3F3CFF3DD6FF3C70FF3B0BFF39A7FF3844FF36E1FF357FFF341DFF32BCFF315CFF2FFCFF2E9DFF2D3FFF2BE1FF2A84FF2928FF27CCFF2671FF2517FF23BDFF2264FF210CFF1FB4FF1E5EFF1D07FF1BB2FF1A5DFF1909FF17B5FF1662FF1510FF13BFFF126EFF111EFF0FCFFF0E80FF0D32FF0BE5FF0A99FF094DFF0802FF06B7FF056EFF0425FF02DDFF0195FF004FFEFF09FEFDC4FEFC7FFEFB3BFEF9F8FEF8B6FEF775FEF634FEF4F4FEF3B5FEF276FEF138FEEFFBFEEEBFFEED84FEEC49FEEB0FFEE9D6FEE89DFEE766FEE62FFEE4F9FEE3C3FEE28FFEE15BFEE028
def rscChunk42 : Nat := 0x1F24101F0E701EF8B01EE2F01ECD201EB7401EA1601E8B701E75701E5F601E49501E33301E1D001E06C01DF0801DDA301DC3E01DAD701D97001D80901D6A001D53701D3CE01D26301D0F801CF8C01CE2001CCB301CB4501C9D701C86801C6F801C58801C41701C2A501C13301BFC001BE4C01BCD801BB6301B9EE01B87801B70101B58A01B41201B29A01B12101AFA701AE2D01ACB201AB3601A9BA01A83E01A6C001A54301A3C401A24501A0C6019F46019DC5019C44019AC20199400197BD01963A0194B60193310191AD019027018EA1018D1A018B93018A0C0188840186FB0185720183E901825E0180D4017F49017DBD017C31017AA501791801778A0175FC01746E0172DF017150016FC0016E2F016C9F016B0E01697C0167EA0166580164C501633101619E016009015E75015CE0015B4A0159B401581E0156880154F10153590151C1015029014E90014CF7014B5E0149C401482A0146900144F501435A0141BE014022013E86013CE9013B4C0139AF0138110136730134D5013336013197012FF8012E59012CB9012B180129780127D70126360124940122F3012151011FAE011E0C011C69011AC601192201177F0115DB0114370112920110ED010F49010DA3010BFE010A580108B201070C0105660103BF01021801007100FECA00FD2200FB7B00F9D300F82B00F68200F4DA00F33100F18800EFDF00EE3600EC8C00EAE300E93900E78F00E5E500E43A00E29000E0E500DF3B00DD9000DBE500DA3900D88E00D6E200D53700D38B00D1DF00D03300CE8700CCDB00CB2F00C98200C7D600C62900C47C00C2CF00C12200BF7500BDC800BC1B00BA6E00B8C100B71300B56600B3B800B20B00B05D00AEAF00AD0100AB5400A9A600A7F800A64A00A49C00A2EE00A140009F92009DE4009C36009A880098D900972B00957D0093CF009221009073008EC5008D17008B690089BB00880D00865F0084B1008303008155007FA7007DF9007C4B007A9E0078F00077420075950073E700723A00708C006EDF006D32006B850069D800682B00667E0064D1006324006178005FCB005E1F
def rscChunk43 : Nat := 0x2CD5402CD1302CCD002CC8C02CC4602CC0002CBB702CB6E02CB2302CAD602CA8802CA3902C9E902C99702C94402C8EF02C89902C84202C7E902C79002C73402C6D802C67A02C61A02C5BA02C55802C4F402C49002C42A02C3C202C35A02C2F002C28402C21802C1AA02C13A02C0CA02C05802BFE502BF7002BEFA02BE8302BE0A02BD9102BD1502BC9902BC1B02BB9C02BB1C02BA9A02BA1702B99302B90E02B88702B7FF02B77602B6EB02B65F02B5D202B54302B4B402B42302B39002B2FD02B26802B1D202B13B02B0A202B00802AF6D02AED102AE3302AD9402ACF402AC5302ABB002AB0C02AA6702A9C102A91902A87002A7C602A71B02A66F02A5C102A51202A46202A3B002A2FE02A24A02A19502A0DF02A027029F6F029EB5029DFA029D3E029C80029BC2029B02029A4102997F0298BB0297F702973102966A0295A20294D902940E0293430292760291A80290D9029009028F37028E65028D91028CBC028BE6028B0F028A3702895D0288830287A70286CA0285EC02850D02842D02834B0282690281850280A1027FBB027ED4027DEC027D03027C19027B2D027A410279540278650277750276850275930274A00273AC0272B70271C10270C9026FD1026ED8026DDD026CE2026BE5026AE80269E90268E90267E90266E70265E40264E00263DB0262D50261CE0260C6025FBD025EB3025DA8025C9C025B8F025A8102597202586202575102563F02552C0254180253030251ED0250D6024FBE024EA5024D8B024C70024B54024A370249190247FA0246DA0245BA02449802437502425202412D024008023EE1023DBA023C92023B68023A3E0239130237E70236BA02358C02345E02332E0231FE0230CC022F9A022E66022D32022BFD022AC70229910228590227200225E70224AD0223710222350220F8021FBB021E7C021D3C021BFC021ABB0219790218360216F20215AE0214680213220211DB021093020F4A020E01020CB6020B6B020A1F0208D30207850206370204E70203970202470200F501FFA301FE5001FCFC01FBA701FA5201F8FC01F7A501F64D01F4F401F39B
def rscChunk44 : Nat := 0x255600256910257C00258EE025A1B025B46025C70025D98025EBF025FE502610902622C02634E02646E02658C0266A90267C50268E00269F8026B10026C26026D3B026E4E026F6002707002717F02728D0273990274A40275AD0276B50277BB0278C00279C4027AC6027BC7027CC6027DC4027EC0027FBB0280B50281AD0282A302839802848C02857E02866F02875F02884D028939028A24028B0E028BF6028CDC028DC2028EA6028F880290690291480292260293030293DE0294B702958F02966602973B02980F0298E10299B2029A82029B4F029C1C029CE7029DB0029E78029F3F02A00402A0C802A18A02A24B02A30A02A3C802A48402A53F02A5F802A6B002A76702A81C02A8CF02A98102AA3202AAE102AB8E02AC3B02ACE502AD8E02AE3602AEDC02AF8102B02402B0C602B16602B20502B2A302B33F02B3D902B47202B50902B59F02B63402B6C702B75902B7E902B87702B90402B99002BA1A02BAA302BB2A02BBB002BC3402BCB702BD3802BDB802BE3702BEB302BF2F02BFA902C02102C09802C10E02C18202C1F402C26502C2D502C34302C3B002C41B02C48502C4ED02C55302C5B902C61D02C67F02C6E002C73F02C79D02C7F902C85402C8AE02C90602C95C02C9B102CA0502CA5702CAA802CAF702CB4402CB9102CBDB02CC2502CC6D02CCB302CCF802CD3B02CD7D02CDBE02CDFD02CE3A02CE7602CEB102CEEA02CF2202CF5802CF8D02CFC002CFF202D02202D05102D07F02D0AB02D0D502D0FF02D12602D14C02D17102D19402D1B602D1D702D1F602D21302D22F02D24A02D26302D27A02D29102D2A502D2B902D2CB02D2DB02D2EA02D2F802D30402D30F02D31802D32002D32602D32B02D32F02D33102D33102D33002D32E02D32B02D32502D31F02D31702D30E02D30302D2F702D2E902D2DA02D2CA02D2B802D2A402D29002D27902D26202D24902D22E02D21302D1F502D1D702D1B702D19502D17302D14E02D12902D10202D0D902D0AF02D08402D05702D02902CFFA02CFC902CF9702CF6302CF2E02CEF802CEC002CE8702CE4C02CE1002CDD302CD94
def rscChunk45 : Nat := 0x8863008AAD008CF6008F3E0091850093CC009612009857009A9B009CDF009F2200A16500A3A600A5E700A82800AA6700ACA600AEE400B12100B35E00B59900B7D400BA0F00BC4800BE8100C0B900C2F000C52600C75C00C99000CBC400CDF700D02A00D25B00D48C00D6BC00D8EB00DB1A00DD4700DF7400E19F00E3CA00E5F500E81E00EA4600EC6E00EE9500F0BB00F2E000F50400F72700F94A00FB6B00FD8C00FFAC0101CB0103E9010606010822010A3D010C58010E7101108A0112A20114B80116CE0118E3011AF7011D0A011F1C01212E01233E01254D01275C012969012B75012D81012F8B01319501339E0135A50137AC0139B2013BB6013DBA013FBD0141BE0143BF0145BF0147BE0149BB014BB8014DB4014FAE0151A80153A101559801578F015985015B79015D6D015F5F01615101634101653001671F01690C016AF8016CE3016ECD0170B601729E01748501766A01784F017A33017C15017DF7017FD70181B601839401857101874D018928018B02018CDA018EB201908801925D0194320196050197D60199A7019B77019D45019F1301A0DF01A2AA01A47401A63C01A80401A9CA01AB9001AD5401AF1701B0D801B29901B45801B61701B7D401B99001BB4A01BD0401BEBC01C07301C22901C3DE01C59201C74401C8F501CAA501CC5401CE0101CFAE01D15901D30301D4AB01D65301D7F901D99E01DB4201DCE401DE8601E02601E1C401E36201E4FE01E69901E83301E9CC01EB6301ECF901EE8E01F02201F1B401F34501F4D501F66301F7F001F97C01FB0701FC9001FE1801FF9F0201250202A902042C0205AE02072E0208AD020A2B020BA8020D23020E9D02101502118C0213020214770215EA02175C0218CD021A3D021BAB021D17021E83021FED0221560222BD0224230225880226EC02284E0229AE022B0E022C6C022DC9022F2402307E0231D702332E0234840235D902372C02387E0239CF023B1E023C6C023DB8023F0302404D0241950242DC0244220245660246A90247EB02492B024A69024BA7024CE3024E1D024F5702508E0251C50252FA02542D
def rscChunk46 : Nat := 0xFE1829FE1A8CFE1CF0FE1F53FE21B8FE241DFE2682FE28E8FE2B4FFE2DB5FE301DFE3285FE34EDFE3756FE39BFFE3C29FE3E93FE40FEFE4369FE45D5FE4841FE4AADFE4D1AFE4F87FE51F5FE5463FE56D1FE5940FE5BAFFE5E1FFE608FFE6300FE6570FE67E2FE6A53FE6CC5FE6F37FE71AAFE741DFE7690FE7904FE7B78FE7DECFE8060FE82D5FE854BFE87C0FE8A36FE8CACFE8F22FE9199FE9410FE9687FE98FFFE9B77FE9DEFFEA067FEA2DFFEA558FEA7D1FEAA4AFEACC4FEAF3DFEB1B7FEB431FEB6ACFEB926FEBBA1FEBE1CFEC097FEC312FEC58EFEC809FECA85FECD01FECF7DFED1FAFED476FED6F3FED96FFEDBECFEDE69FEE0E6FEE363FEE5E1FEE85EFEEADCFEED59FEEFD7FEF255FEF4D3FEF751FEF9CFFEFC4DFEFECBFF0149FF03C7FF0646FF08C4FF0B42FF0DC1FF103FFF12BEFF153CFF17BBFF1A39FF1CB8FF1F36FF21B5FF2434FF26B2FF2931FF2BAFFF2E2DFF30ACFF332AFF35A8FF3827FF3AA5FF3D23FF3FA1FF421FFF449DFF471BFF4999FF4C16FF4E94FF5111FF538FFF560CFF5889FF5B06FF5D83FF6000FF627DFF64F9FF6776FF69F2FF6C6EFF6EEAFF7166FF73E1FF765DFF78D8FF7B53FF7DCEFF8048FF82C3FF853DFF87B7FF8A31FF8CABFF8F24FF919EFF9417FF968FFF9908FF9B80FF9DF8FFA070FFA2E8FFA55FFFA7D6FFAA4DFFACC3FFAF39FFB1AFFFB425FFB69AFFB90FFFBB84FFBDF9FFC06DFFC2E0FFC554FFC7C7FFCA3AFFCCACFFCF1FFFD190FFD402FFD673FFD8E4FFDB54FFDDC4FFE034FFE2A3FFE512FFE780FFE9EEFFEC5CFFEECAFFF136FFF3A3FFF60FFFF87BFFFAE6FFFD51FFFFBB00022500048F0006F8000961000BC9000E310010980012FF0015650017CB001A30001C95001EFA00215E0023C1002624002886002AE8002D4A002FAB00320B00346B0036CA003929003B87003DE500404200429F0044FB0047560049B1004C0C004E650050BE00531700556F0057C7005A1D005C74005EC900611E0063730065C700681A006A6C006CBE006F100071600073B000760000784F007A9D007CEA007F370081830083CF008619
def rscChunk47 : Nat := 0xFC2F32FC306FFC31AFFC32F0FC3433FC3577FC36BEFC3805FC394FFC3A9AFC3BE7FC3D36FC3E86FC3FD8FC412BFC4281FC43D8FC4530FC468AFC47E6FC4943FC4AA2FC4C03FC4D65FC4EC9FC502FFC5196FC52FFFC5469FC55D5FC5742FC58B1FC5A22FC5B94FC5D08FC5E7EFC5FF5FC616DFC62E7FC6463FC65E0FC675FFC68DFFC6A61FC6BE4FC6D69FC6EF0FC7078FC7201FC738CFC7519FC76A7FC7836FC79C7FC7B5AFC7CEEFC7E83FC801AFC81B3FC834DFC84E8FC8685FC8823FC89C3FC8B64FC8D07FC8EABFC9051FC91F8FC93A0FC954AFC96F5FC98A2FC9A50FC9C00FC9DB0FC9F63FCA117FCA2CCFCA482FCA63AFCA7F3FCA9AEFCAB6AFCAD27FCAEE6FCB0A6FCB268FCB42BFCB5EFFCB7B4FCB97BFCBB43FCBD0DFCBED8FCC0A4FCC271FCC440FCC610FCC7E1FCC9B4FCCB88FCCD5DFCCF34FCD10CFCD2E5FCD4BFFCD69BFCD877FCDA56FCDC35FCDE16FCDFF7FCE1DBFCE3BFFCE5A4FCE78BFCE973FCEB5CFCED47FCEF32FCF11FFCF30DFCF4FCFCF6EDFCF8DEFCFAD1FCFCC5FCFEBAFD00B0FD02A8FD04A0FD069AFD0895FD0A91FD0C8EFD0E8CFD108CFD128CFD148EFD1690FD1894FD1A99FD1C9FFD1EA6FD20AFFD22B8FD24C2FD26CEFD28DAFD2AE8FD2CF6FD2F06FD3117FD3328FD353BFD374FFD3964FD3B7AFD3D91FD3FA9FD41C2FD43DCFD45F6FD4812FD4A2FFD4C4DFD4E6CFD508CFD52ADFD54CFFD56F1FD5915FD5B3AFD5D5FFD5F86FD61AEFD63D6FD65FFFD682AFD6A55FD6C81FD6EAEFD70DCFD730BFD753AFD776BFD799CFD7BCFFD7E02FD8036FD826BFD84A1FD86D8FD890FFD8B47FD8D81FD8FBBFD91F6FD9431FD966EFD98ABFD9AE9FD9D28FD9F68FDA1A8FDA3EAFDA62CFDA86FFDAAB2FDACF7FDAF3CFDB182FDB3C8FDB610FDB858FDBAA1FDBCEBFDBF35FDC180FDC3CCFDC618FDC866FDCAB4FDCD02FDCF52FDD1A2FDD3F2FDD644FDD896FDDAE9FDDD3CFDDF90FDE1E5FDE43AFDE690FDE8E7FDEB3EFDED96FDEFEEFDF247FDF4A1FDF6FCFDF956FDFBB2FDFE0EFE006BFE02C8FE0526FE0785FE09E4FE0C43FE0EA3FE1104FE1365FE15C7
def rscChunk48 : Nat := 0xFBEBD2FBEB07FBEA3EFBE977FBE8B3FBE7F0FBE730FBE672FBE5B6FBE4FDFBE446FBE390FBE2DEFBE22DFBE17EFBE0D2FBE028FBDF80FBDEDBFBDE37FBDD96FBDCF7FBDC5AFBDBC0FBDB27FBDA91FBD9FDFBD96CFBD8DCFBD84FFBD7C4FBD73BFBD6B4FBD630FBD5ADFBD52DFBD4AFFBD434FBD3BAFBD343FBD2CEFBD25BFBD1EAFBD17CFBD10FFBD0A5FBD03EFBCFD8FBCF74FBCF13FBCEB4FBCE57FBCDFCFBCDA4FBCD4DFBCCF9FBCCA7FBCC57FBCC0AFBCBBEFBCB75FBCB2EFBCAE9FBCAA7FBCA66FBCA28FBC9ECFBC9B2FBC97AFBC944FBC911FBC8DFFBC8B0FBC883FBC858FBC830FBC809FBC7E5FBC7C3FBC7A3FBC785FBC769FBC750FBC739FBC723FBC710FBC700FBC6F1FBC6E4FBC6DAFBC6D1FBC6CBFBC6C7FBC6C5FBC6C6FBC6C8FBC6CDFBC6D3FBC6DCFBC6E7FBC6F4FBC703FBC714FBC728FBC73DFBC755FBC76FFBC78BFBC7A9FBC7C9FBC7EBFBC810FBC836FBC85FFBC889FBC8B6FBC8E5FBC916FBC949FBC97EFBC9B5FBC9EFFBCA2AFBCA68FBCAA7FBCAE9FBCB2DFBCB73FBCBBBFBCC05FBCC51FBCC9FFBCCEFFBCD42FBCD96FBCDECFBCE45FBCE9FFBCEFCFBCF5BFBCFBBFBD01EFBD083FBD0EAFBD153FBD1BDFBD22AFBD299FBD30AFBD37DFBD3F3FBD46AFBD4E3FBD55EFBD5DBFBD65AFBD6DCFBD75FFBD7E4FBD86BFBD8F4FBD980FBDA0DFBDA9CFBDB2DFBDBC1FBDC56FBDCEDFBDD86FBDE21FBDEBFFBDF5EFBDFFFFBE0A2FBE147FBE1EEFBE297FBE342FBE3EEFBE49DFBE54EFBE601FBE6B5FBE76CFBE825FBE8DFFBE99CFBEA5AFBEB1AFBEBDCFBECA0FBED67FBEE2FFBEEF8FBEFC4FBF092FBF161FBF233FBF306FBF3DCFBF4B3FBF58CFBF667FBF744FBF823FBF903FBF9E6FBFACAFBFBB0FBFC98FBFD82FBFE6EFBFF5CFC004BFC013DFC0230FC0325FC041CFC0515FC060FFC070CFC080AFC090AFC0A0CFC0B10FC0C15FC0D1CFC0E26FC0F31FC103DFC114CFC125CFC136EFC1482FC1598FC16AFFC17C9FC18E4FC1A00FC1B1FFC1C3FFC1D61FC1E85FC1FABFC20D2FC21FBFC2326FC2453FC2581FC26B1FC27E3FC2916FC2A4CFC2B82FC2CBBFC2DF5
def rscChunk49 : Nat := 0xFDC8B7FDC5E1FDC30DFDC03BFDBD6BFDBA9CFDB7CFFDB504FDB23AFDAF72FDACACFDA9E8FDA725FDA464FDA1A5FD9EE7FD9C2BFD9971FD96B9FD9402FD914DFD8E9AFD8BE9FD8939FD868CFD83E0FD8135FD7E8DFD7BE6FD7941FD769EFD73FDFD715DFD6EC0FD6C24FD698AFD66F1FD645BFD61C6FD5F34FD5CA3FD5A14FD5786FD54FBFD5271FD4FE9FD4D63FD4ADFFD485DFD45DDFD435EFD40E2FD3E67FD3BEEFD3977FD3702FD348FFD321DFD2FAEFD2D40FD2AD5FD286BFD2603FD239DFD2139FD1ED7FD1C77FD1A19FD17BCFD1562FD1309FD10B3FD0E5EFD0C0CFD09BBFD076CFD051FFD02D4FD008BFCFE44FCFBFFFCF9BCFCF77BFCF53CFCF2FFFCF0C4FCEE8BFCEC54FCEA1EFCE7EBFCE5BAFCE38BFCE15DFCDF32FCDD09FCDAE2FCD8BCFCD699FCD478FCD259FCD03BFCCE20FCCC07FCC9F0FCC7DBFCC5C8FCC3B7FCC1A8FCBF9BFCBD90FCBB87FCB980FCB77BFCB579FCB378FCB179FCAF7DFCAD82FCAB8AFCA993FCA79FFCA5ADFCA3BDFCA1CFFC9FE2FC9DF9FC9C11FC9A2BFC9847FC9665FC9486FC92A8FC90CDFC8EF4FC8D1DFC8B48FC8975FC87A4FC85D5FC8408FC823EFC8075FC7EAFFC7CEBFC7B29FC7969FC77ABFC75EFFC7435FC727EFC70C8FC6F15FC6D64FC6BB5FC6A08FC685EFC66B5FC650FFC636AFC61C8FC6028FC5E8AFC5CEEFC5B55FC59BDFC5828FC5695FC5504FC5375FC51E9FC505EFC4ED6FC4D50FC4BCCFC4A4AFC48CAFC474DFC45D1FC4458FC42E1FC416CFC3FF9FC3E89FC3D1BFC3BAEFC3A45FC38DDFC3777FC3614FC34B2FC3353FC31F6FC309CFC2F43FC2DEDFC2C99FC2B47FC29F7FC28AAFC275EFC2615FC24CEFC2389FC2247FC2106FC1FC8FC1E8CFC1D52FC1C1BFC1AE5FC19B2FC1881FC1752FC1626FC14FBFC13D3FC12ADFC1189FC1068FC0F48FC0E2BFC0D10FC0BF7FC0AE1FC09CCFC08BAFC07AAFC069DFC0591FC0488FC0381FC027CFC0179FC0079FBFF7BFBFE7FFBFD85FBFC8DFBFB98FBFAA5FBF9B4FBF8C5FBF7D9FBF6EEFBF606FBF521FBF43DFBF35CFBF27CFBF19FFBF0C5FBEFECFBEF16FBEE42FBED70FBECA0
def rscChunk50 : Nat := 0x13CBA0138EB01351B01314B012D7C0129AC0125DD01220E011E3F011A710116A30112D4010F07010B3901076B01039E00FFD100FC0500F83800F46C00F0A000ECD500E90A00E53F00E17400DDAA00D9E000D61600D24D00CE8400CABB00C6F300C32B00BF6400BB9C00B7D600B40F00B04900AC8400A8BF00A4FA00A136009D720099AF0095EC009229008E67008AA60086E5008324007F64007BA50077E6007427007069006CAC0068EF006532006176005DBB005A0000564600528D004ED4004B1B0047630043AC003FF5003C3F00388A0034D5003121002D6E0029BB002609002257001EA7001AF6001747001398000FEA000C3D0008900004E4000139FFFD8EFFF9E5FFF63CFFF293FFEEECFFEB45FFE79FFFE3FAFFE056FFDCB2FFD90FFFD56DFFD1CCFFCE2CFFCA8CFFC6EDFFC34FFFBFB2FFBC16FFB87BFFB4E0FFB146FFADAEFFAA16FFA67FFFA2E9FF9F53FF9BBFFF982CFF9499FF9108FF8D77FF89E7FF8658FF82CBFF7F3EFF7BB2FF7827FF749DFF7114FF6D8CFF6A05FF667FFF62FAFF5F76FF5BF3FF5871FF54F0FF5170FF4DF1FF4A73FF46F6FF437BFF4000FF3C86FF390EFF3597FF3220FF2EABFF2B37FF27C4FF2452FF20E1FF1D71FF1A03FF1695FF1329FF0FBEFF0C54FF08EBFF0583FF021DFEFEB7FEFB53FEF7F0FEF48EFEF12EFEEDCEFEEA70FEE713FEE3B7FEE05DFEDD03FED9ABFED655FED2FFFECFABFECC58FEC906FEC5B5FEC266FEBF18FEBBCBFEB880FEB536FEB1EDFEAEA5FEAB5FFEA81AFEA4D7FEA195FE9E54FE9B14FE97D6FE9499FE915EFE8E23FE8AEBFE87B3FE847DFE8149FE7E15FE7AE3FE77B3FE7484FE7156FE6E2AFE6AFFFE67D6FE64AEFE6187FE5E62FE5B3EFE581CFE54FBFE51DCFE4EBEFE4BA2FE4887FE456EFE4256FE3F3FFE3C2AFE3917FE3605FE32F4FE2FE5FE2CD8FE29CCFE26C2FE23B9FE20B1FE1DACFE1AA7FE17A5FE14A4FE11A4FE0EA6FE0BAAFE08AFFE05B5FE02BEFDFFC8FDFCD3FDF9E0FDF6EFFDF3FFFDF111FDEE24FDEB39FDE850FDE569FDE283FDDF9EFDDCBBFDD9DAFDD6FBFDD41DFDD141FDCE67FDCB8E
def rscChunk51 : Nat := 0x4CCBF04C9C204C6C304C3C204C0BF04BDBB04BAB404B7AC04B4A304B19704AE8A04AB7B04A86A04A55804A244049F2E049C170498FE0495E30492C6048FA8048C8904896704864404831F047FF9047CD10479A804767D047350047022046CF20469C004668D046359046023045CEB0459B204567704533B044FFD044CBE04497D04463B0442F7043FB2043C6C0439240435DA04328F042F43042BF50428A6042555042203041EB0041B5B0418050414AD041154040DFA040A9E0407410403E304008303FD2203F9C003F65C03F2F803EF9103EC2A03E8C103E55703E1EC03DE7F03DB1203D7A303D43303D0C103CD4E03C9DB03C66603C2EF03BF7803BBFF03B88603B50B03B18F03AE1103AA9303A71403A39303A011039C8E03990B039586039200038E78038AF00387670383DD038051037CC50379370375A9037219036E89036AF80367650363D203603D035CA803591103557A0351E2034E49034AAF034714034378033FDB033C3D03389F0334FF03315F032DBE032A1B0326790322D5031F30031B8B0317E403143D031096030CED0309430305990301EE02FE4202FA9602F6E902F33B02EF8C02EBDC02E82C02E47B02E0CA02DD1702D96402D5B102D1FC02CE4702CA9202C6DB02C32402BF6D02BBB402B7FC02B44202B08802ACCE02A91202A55602A19A029DDD029A200296620292A3028EE4028B240287640283A3027FE2027C2102785E02749C0270D9026D1502695102658D0261C8025E02025A3D0256760252B0024EE9024B2102475A024391023FC9023C0002383702346D0230A3022CD902290E022543022178021DAC0219E1021615021248020E7B020AAE0206E102031401FF4601FB7801F7AA01F3DC01F00D01EC3E01E86F01E4A001E0D101DD0101D93201D56201D19201CDC101C9F101C62101C25001BE8001BAAF01B6DE01B30D01AF3C01AB6B01A79A01A3C8019FF7019C260198540194830190B1018CE001890F01853D01816C017D9A0179C90175F7017226016E55016A830166B20162E1015F10015B3F01576E01539D014FCC014BFC01482B01445B01408B
def rscChunk52 : Nat := 0x69B1D069ABA069A530699EA06997D06990D06989A0698230697AA06972D0696AD0696290695A306951906948C0693FC0693680692D206923806919B0690FB069057068FB1068F07068E5A068DAA068CF7068C41068B87068ACA068A0B0689480688820687B80686EC06861D06854A06847406839C0682C00681E10680FE068019067F31067E46067D57067C66067B71067A7906797F06788106778006767C06757506746B06735E06724E06713B067025066F0C066DF0066CD1066BAF066A8A0669610668360667080665D70664A306636C0662320660F5065FB6065E73065D2D065BE4065A9906594A0657F90656A406554D0653F3065296065136064FD3064E6D064D04064B99064A2A0648B90647450645CE0644540642D7064158063FD5063E50063CC8063B3D0639AF06381F06368C0634F606335D0631C1063023062E81062CDD062B3706298D0627E10626320624800622CB062114061F5A061D9E061BDE061A1C0618570616900614C60612F9061129060F57060D82060BAA0609D00607F306061406043206024D06006505FE7B05FC8F05FA9F05F8AE05F6B905F4C205F2C805F0CC05EECD05ECCC05EAC805E8C105E6B805E4AD05E29F05E08E05DE7B05DC6505DA4D05D83205D61505D3F505D1D305CFAE05CD8705CB5E05C93105C70305C4D205C29E05C06805BE3005BBF505B9B805B77905B53705B2F205B0AB05AE6205AC1705A9C905A77805A52605A2D105A079059E20059BC40599650597050594A105923C058FD5058D6B058AFE05889005861F0583AC058137057EBF057C450579C905774B0574CA057248056FC3056D3B056AB2056826056599056309056077055DE2055B4C0558B305561805537B0550DC054E3B054B980548F205464B0543A10540F5053E48053B980538E605363205337C0530C3052E09052B4D05288F0525CE05230C052048051D82051AB90517EF051523051254050F84050CB20509DE05070805042F05015504FE7A04FB9C04F8BC04F5DA04F2F704F01104ED2A04EA4104E75604E46904E17A04DE8904DB9704D8A304D5AD04D2B504CFBB
def rscChunk53 : Nat := 0x544B50547C8054AD7054DE30550EB0553F00556F20559F0055CEB055FE30562D70565C70568B4056B9E056E840571670574470577230579FB057CD0057FA205827005853B058802058AC6058D870590440592FD0595B3059866059B15059DC105A06905A30E05A5AF05A84D05AAE705AD7E05B01205B2A205B52E05B7B705BA3D05BCBF05BF3D05C1B805C43005C6A405C91405CB8105CDEB05D05105D2B405D51305D76E05D9C605DC1B05DE6C05E0B905E30305E54A05E78D05E9CD05EC0905EE4105F07605F2A705F4D505F70005F92705FB4A05FD6A05FF8606019F0603B40605C60607D40609DF060BE6060DEA060FEA0611E70613E00615D60617C80619B6061BA1061D88061F6C06214D06232A0625030626D90628AB062A7A062C45062E0D062FD106319106334E0635080636BE063870063A1F063BCA063D72063F170640B70642550643EE0645840647170648A6064A32064BBA064D3E064EBF06503D0651B606532D0654A006560F06577B0658E3065A48065BA9065D06065E61065FB706610A06625A0663A60664EE0666330667750668B20669ED066B24066C57066D87066EB3066FDC06710106722306734106745C0675730676870677970678A30679AD067AB2067BB4067CB3067DAE067EA6067F9A06808A06817706826106834706842A0685090685E50686BD0687910688620689300689FA068AC1068B84068C44068D00068DB9068E6E068F20068FCF0690790691210691C506926506930206939C0694320694C50695540695DF0696680696ED06976E0697EC0698660698DD0699510699C1069A2E069A97069AFD069B60069BBF069C1A069C72069CC7069D19069D66069DB1069DF8069E3C069E7C069EB9069EF2069F29069F5B069F8B069FB6069FDF06A00406A02606A04406A05F06A07706A08B06A09C06A0AA06A0B406A0BB06A0BE06A0BE06A0BB06A0B406A0AB06A09D06A08D06A07906A06106A04706A02906A008069FE3069FBB069F90069F61069F30069EFA069EC2069E86069E47069E05069DBF069D77069D2A069CDB069C88069C32069BD9069B7D
def rscChunk54 : Nat := 0xAEAB00B47F00BA5100C02100C5F000CBBC00D18700D75000DD1700E2DC00E89F00EE6000F42000F9DD00FF98010552010B090110BF011672011C240121D3012781012D2C0132D601387D013E220143C6014967014F060154A3015A3E015FD701656D016B02017095017625017BB301813F0186C9018C510191D601975A019CDB01A25A01A7D701AD5101B2CA01B84001BDB401C32501C89501CE0201D36D01D8D501DE3B01E39F01E90101EE6001F3BD01F91801FE700203C602091A020E6B0213BA021906021E510223980228DE022E2102336102389F023DDB02431402484B024D7F0252B10257E0025D0D026238026760026C850271A80276C9027BE702810202861B028B31029045029556029A65029F7102A47A02A98102AE8502B38702B88602BD8302C27D02C77402CC6902D15A02D64A02DB3702E02102E50802E9ED02EECF02F3AE02F88A02FD6403023C030710030BE20310B103157D031A47031F0E0323D2032893032D5103320D0336C6033B7C0340300344E003498E034E390352E1035787035C290360C9036566036A00036E9703732B0377BD037C4B0380D70385600389E6038E690392E9039766039BE103A05803A4CC03A93E03ADAD03B21803B68103BAE703BF4A03C3A903C80603CC6003D0B703D50B03D95C03DDAA03E1F503E63D03EA8203EEC403F30303F73F03FB7703FFAD0403E0040810040C3C04106604148D0418B0041CD00420EE04250804291F042D3304314404355204395D043D6404416904456A044969044D6404515C045551045943045D3104611D0465050468EA046CCC0470AB04748604785F047C340480060483D50487A1048B69048F2E0492F00496AF049A6B049E2304A1D804A58A04A93904ACE404B08D04B43204B7D304BB7204BF0D04C2A504C63A04C9CB04CD5904D0E404D46C04D7F004DB7104DEEF04E26904E5E004E95404ECC504F03204F39C04F70204FA6604FDC605012205047B0507D1050B24050E730511BF05150805184D051B8F051ECE052209052541052875052BA6052ED40531FE053525053849053B69053E8605419F
def rscChunk55 : Nat := 0xFA60E9FA6732FA6D7DFA73C9FA7A16FA8064FA86B3FA8D03FA9354FA99A6FA9FF9FAA64DFAACA2FAB2F8FAB94FFABFA6FAC5FFFACC58FAD2B3FAD90EFADF6AFAE5C6FAEC24FAF282FAF8E2FAFF42FB05A2FB0C04FB1266FB18C9FB1F2DFB2591FB2BF6FB325CFB38C2FB3F29FB4591FB4BF9FB5262FB58CCFB5F36FB65A1FB6C0CFB7278FB78E4FB7F51FB85BEFB8C2CFB929AFB9909FB9F79FBA5E8FBAC58FBB2C9FBB93AFBBFABFBC61DFBCC8FFBD302FBD975FBDFE8FBE65CFBECCFFBF344FBF9B8FC002DFC06A2FC0D17FC138CFC1A02FC2078FC26EEFC2D64FC33DBFC3A51FC40C8FC473FFC4DB6FC542DFC5AA4FC611CFC6793FC6E0AFC7482FC7AF9FC8171FC87E9FC8E60FC94D8FC9B4FFCA1C7FCA83FFCAEB6FCB52DFCBBA5FCC21CFCC893FCCF0AFCD581FCDBF7FCE26EFCE8E4FCEF5BFCF5D1FCFC46FD02BCFD0931FD0FA7FD161CFD1C90FD2305FD2979FD2FECFD3660FD3CD3FD4346FD49B8FD502BFD569CFD5D0EFD637FFD69EFFD7060FD76CFFD7D3FFD83ADFD8A1CFD908AFD96F7FD9D64FDA3D1FDAA3DFDB0A8FDB713FDBD7DFDC3E7FDCA50FDD0B9FDD721FDDD88FDE3EFFDEA55FDF0BBFDF720FDFD84FE03E7FE0A4AFE10ACFE170EFE1D6EFE23CEFE2A2DFE308CFE36E9FE3D46FE43A2FE49FEFE5058FE56B2FE5D0BFE6363FE69BAFE7010FE7665FE7CBAFE830EFE8960FE8FB2FE9603FE9C53FEA2A2FEA8EFFEAF3CFEB588FEBBD3FEC21DFEC866FECEAEFED4F5FEDB3BFEE180FEE7C3FEEE06FEF448FEFA88FF00C7FF0705FF0D42FF137EFF19B9FF1FF3FF262BFF2C62FF3298FF38CDFF3F00FF4533FF4B64FF5193FF57C2FF5DEFFF641BFF6A46FF706FFF7697FF7CBEFF82E3FF8907FF8F2AFF954BFF9B6BFFA18AFFA7A7FFADC3FFB3DDFFB9F6FFC00DFFC623FFCC38FFD24BFFD85DFFDE6DFFE47BFFEA88FFF094FFF69EFFFCA70002AE0008B3000EB70014B9001ABA0020B90026B6002CB20032AC0038A5003E9C004491004A85005077005667005C5600624300682E006E170073FF0079E5007FC90085AC008B8C00916B009748009D2400A2FD00A8D5
def rscChunk56 : Nat := 0xF530EFF5347BF5380BF53BA0F53F39F542D7F54679F54A1FF54DC9F55178F5552AF558E1F55C9DF5605CF56420F567E8F56BB4F56F84F57359F57732F57B0EF57EEFF582D4F586BDF58AAAF58E9CF59291F5968AF59A88F59E89F5A28EF5A698F5AAA5F5AEB7F5B2CCF5B6E5F5BB03F5BF24F5C349F5C772F5CB9FF5CFCFF5D404F5D83DF5DC79F5E0B9F5E4FDF5E945F5ED90F5F1E0F5F633F5FA8AF5FEE4F60343F607A5F60C0AF61074F614E1F61952F61DC6F6223EF626BAF62B39F62FBCF63443F638CDF63D5BF641ECF64681F64B19F64FB5F65454F658F7F65D9DF66247F666F4F66BA5F67059F67511F679CBF67E8AF6834BF68810F68CD9F691A5F69674F69B46F6A01CF6A4F5F6A9D1F6AEB0F6B393F6B879F6BD62F6C24FF6C73FF6CC31F6D127F6D620F6DB1DF6E01CF6E51FF6EA24F6EF2DF6F439F6F948F6FE5AF7036FF70887F70DA2F712C0F717E1F71D05F7222CF72756F72C83F731B3F736E6F73C1BF74154F7468FF74BCEF7510FF75653F75B9AF760E3F76630F76B7FF770D1F77625F77B7DF780D7F78634F78B94F790F6F7965BF79BC3F7A12DF7A69AF7AC0AF7B17CF7B6F1F7BC68F7C1E2F7C75FF7CCDEF7D25FF7D7E3F7DD6AF7E2F3F7E87FF7EE0DF7F39EF7F931F7FEC6F8045EF809F8F80F95F81534F81AD5F82079F8261FF82BC8F83173F83720F83CCFF84281F84835F84DEBF853A3F8595EF85F1AF864D9F86A9BF8705EF87624F87BEBF881B5F88781F88D4FF8931FF898F1F89EC5F8A49CF8AA74F8B04EF8B62BF8BC09F8C1EAF8C7CCF8CDB0F8D397F8D97FF8DF69F8E555F8EB43F8F132F8F724F8FD18F9030DF90904F90EFDF914F8F91AF5F920F3F926F3F92CF5F932F8F938FEF93F05F9450EF94B18F95124F95732F95D41F96352F96965F96F79F9758FF97BA7F981C0F987DAF98DF6F99414F99A33F9A054F9A676F9AC99F9B2BEF9B8E5F9BF0DF9C536F9CB61F9D18DF9D7BBF9DDEAF9E41AF9EA4CF9F07EF9F6B3F9FCE8FA031FFA0957FA0F91FA15CBFA1C07FA2245FA2883FA2EC2FA3503FA3B45FA4188FA47CCFA4E12FA5458FA5AA0
def rscChunk57 : Nat := 0xF4486FF44656F44443F44238F44033F43E34F43C3CF43A4BF43861F4367DF434A0F432C9F430F9F42F30F42D6DF42BB1F429FBF4284CF426A4F42502F42366F421D2F42043F41EBCF41D3AF41BC0F41A4CF418DEF41777F41616F414BCF41369F4121BF410D5F40F95F40E5BF40D28F40BFBF40AD4F409B5F4089BF40788F4067BF40575F40475F4037CF40289F4019CF400B6F3FFD6F3FEFCF3FE29F3FD5CF3FC96F3FBD6F3FB1CF3FA68F3F9BBF3F914F3F873F3F7D9F3F745F3F6B7F3F630F3F5AEF3F533F3F4BFF3F450F3F3E8F3F386F3F32AF3F2D4F3F285F3F23CF3F1F9F3F1BCF3F185F3F154F3F12AF3F106F3F0E8F3F0D0F3F0BEF3F0B2F3F0ACF3F0ADF3F0B3F3F0C0F3F0D3F3F0EBF3F10AF3F12FF3F15AF3F18BF3F1C2F3F1FFF3F242F3F28BF3F2DAF3F32FF3F38AF3F3EAF3F451F3F4BEF3F531F3F5A9F3F628F3F6ACF3F737F3F7C7F3F85DF3F8F9F3F99BF3FA43F3FAF1F3FBA4F3FC5EF3FD1DF3FDE2F3FEADF3FF7DF40053F40130F40212F402F9F403E7F404DAF405D3F406D1F407D6F408E0F409F0F40B05F40C20F40D41F40E67F40F93F410C5F411FDF4133AF4147CF415C5F41712F41866F419BFF41B1DF41C81F41DEBF41F5AF420CFF42249F423C9F4254EF426D9F42869F429FFF42B9AF42D3BF42EE1F4308CF4323DF433F3F435AFF43770F43937F43B02F43CD4F43EAAF44086F44267F4444EF4463AF4482BF44A21F44C1DF44E1EF45024F45230F45440F45656F45871F45A92F45CB7F45EE2F46112F46347F46581F467C1F46A05F46C4FF46E9EF470F2F4734BF475A9F4780CF47A74F47CE1F47F53F481CAF48447F486C8F4894EF48BDAF48E6AF490FFF49399F49638F498DCF49B85F49E33F4A0E6F4A39DF4A65AF4A91BF4ABE1F4AEADF4B17CF4B451F4B72BF4BA09F4BCECF4BFD4F4C2C1F4C5B2F4C8A8F4CBA3F4CEA2F4D1A7F4D4B0F4D7BDF4DAD0F4DDE7F4E102F4E423F4E747F4EA71F4ED9FF4F0D2F4F409F4F745F4FA85F4FDCAF50114F50462F507B4F50B0BF50E67F511C7F5152BF51894F51C02F51F74F522EAF52664F529E3F52D67
def rscChunk58 : Nat := 0xF9DE5EF9D547F9CC38F9C32FF9BA2EF9B133F9A840F99F53F9966DF98D8EF984B6F97BE5F9731BF96A58F9619BF958E6F95038F94790F93EF0F93657F92DC4F92539F91CB4F91437F90BC0F90351F8FAE8F8F287F8EA2CF8E1D8F8D98CF8D146F8C908F8C0D0F8B8A0F8B076F8A854F8A038F89824F89016F88810F88010F87818F87027F8683DF86059F8587DF850A8F848DAF84113F83953F8319AF829E8F8223DF81A99F812FDF80B67F803D8F7FC51F7F4D0F7ED57F7E5E5F7DE79F7D715F7CFB8F7C862F7C113F7B9CBF7B28AF7AB51F7A41EF79CF3F795CEF78EB1F7879AF7808BF77983F77282F76B88F76495F75DAAF756C5F74FE8F74911F74242F73B7AF734B8F72DFEF7274BF720A0F719FBF7135DF70CC7F70637F6FFAFF6F92EF6F2B4F6EC41F6E5D5F6DF70F6D912F6D2BCF6CC6CF6C624F6BFE2F6B9A8F6B375F6AD49F6A724F6A106F69AF0F694E0F68ED8F688D6F682DCF67CE9F676FDF67118F66B3AF66564F65F94F659CBF6540AF64E50F6489CF642F0F63D4BF637ADF63216F62C87F626FEF6217CF61C02F6168EF61122F60BBDF6065FF60107F5FBB7F5F66FF5F12DF5EBF2F5E6BEF5E192F5DC6CF5D74EF5D236F5CD26F5C81DF5C31BF5BE1FF5B92BF5B43EF5AF58F5AA79F5A5A2F5A0D1F59C07F59744F59289F58DD4F58927F58480F57FE1F57B48F576B7F5722CF56DA9F5692DF564B7F56049F55BE2F55782F55328F54ED6F54A8BF54647F5420AF53DD3F539A4F5357CF5315BF52D40F5292DF52521F5211CF51D1DF51926F51536F5114CF50D6AF5098EF505BAF501ECF4FE26F4FA66F4F6ADF4F2FBF4EF51F4EBADF4E810F4E47AF4E0EAF4DD62F4D9E1F4D667F4D2F3F4CF86F4CC21F4C8C2F4C56AF4C219F4BECFF4BB8CF4B84FF4B51AF4B1EBF4AEC3F4ABA3F4A889F4A575F4A269F49F63F49C65F4996DF4967CF49392F490AEF48DD2F48AFCF4882DF48565F482A4F47FE9F47D36F47A89F477E2F47543F472AAF47018F46D8DF46B09F4688BF46615F463A4F4613BF45ED8F45C7CF45A27F457D9F45591F45350F45115F44EE2F44CB5F44A8E
def rscChunk59 : Nat := 0x625190616080606FC05F7F505E8F205D9F405CAFB05BC0605AD16059E2B058F450580630571860562AE0553DB05450D05364305277F0518BF050A0404FB4E04EC9D04DDF104CF4904C0A704B20A04A3710494DE0486500477C6046942045AC2044C48043DD3042F630420F804129204043103F5D503E77E03D92D03CAE003BC9903AE5703A01A0391E30383B003758303675B035938034B1B033D03032EF00320E20312DA0304D702F6D902E8E102DAEE02CD0002BF1802B13502A3580295800287AD0279E0026C18025E560250990242E20235300227830219DC020C3B01FE9F01F10901E37801D5ED01C86801BAE801AD6D019FF80192890185200177BC016A5D015D05014FB201426501351D0127DB011A9F010D6801003800F30D00E5E800D8C800CBAE00BE9A00B18C00A484009781008A85007D8E00709D0063B20056CC0049ED003D130030400023720016AA0009E8FFFD2CFFF076FFE3C6FFD71CFFCA77FFBDD9FFB141FFA4AFFF9822FF8B9CFF7F1CFF72A2FF662EFF59BFFF4D57FF40F5FF3499FF2844FF1BF4FF0FAAFF0367FEF729FEEAF2FEDEC1FED296FEC671FEBA52FEAE3AFEA227FE961BFE8A15FE7E15FE721CFE6629FE5A3BFE4E55FE4274FE369AFE2AC6FE1EF8FE1330FE076FFDFBB4FDEFFFFDE451FDD8A9FDCD07FDC16CFDB5D7FDAA48FD9EC0FD933EFD87C2FD7C4DFD70DEFD6575FD5A13FD4EB8FD4362FD3814FD2CCBFD2189FD164EFD0B19FCFFEAFCF4C2FCE9A0FCDE85FCD371FCC862FCBD5BFCB259FCA75FFC9C6BFC917DFC8696FC7BB5FC70DBFC6608FC5B3BFC5075FC45B5FC3AFCFC3049FC259DFC1AF8FC1059FC05C1FBFB2FFBF0A4FBE620FBDBA2FBD12BFBC6BBFBBC51FBB1EEFBA792FB9D3CFB92EDFB88A5FB7E63FB7428FB69F4FB5FC6FB559FFB4B7FFB4166FB3753FB2D47FB2342FB1943FB0F4CFB055BFAFB71FAF18DFAE7B0FADDDAFAD40BFACA43FAC081FAB6C7FAAD13FAA366FA99BFFA9020FA8687FA7CF5FA736AFA69E6FA6069FA56F2FA4D82FA4419FA3AB7FA315CFA2808FA1EBBFA1574FA0C35FA02FCF9F9CAF9F09FF9E77B
def rscChunk60 : Nat := 0x16E69D16D4E316C32816B16E169FB5168DFC167C43166A8B1658D416471D1635671623B21611FD16004815EE9515DCE215CB3015B97E15A7CE15961E15846F1572C0156113154F66153DBA152C0F151A651508BC14F71414E56D14D3C614C22114B07D149EDA148D37147B961469F61458571446B914351D1423811411E714004E13EEB613DD1F13CB8913B9F513A8621396D01385401373B1136223135097133F0C132D83131BFB130A7412F8EF12E76B12D5E912C46812B2E912A16C128FF0127E75126CFD125B85124A1012389C12272A1215B912044A11F2DD11E17211D00811BEA111AD3B119BD7118A741179141167B51156591144FE1133A511224E1110F910FFA610EE5510DD0610CBB910BA6E10A9261097DF10869A1075581064171052D910419D103063101F2C100DF60FFCC30FEB920FDA630FC9370FB80D0FA6E50F95C00F849D0F737C0F625E0F51420F40290F2F120F1DFD0F0CEB0EFBDB0EEACE0ED9C40EC8BC0EB7B70EA6B40E95B40E84B60E73BB0E62C30E51CD0E40DA0E2FEA0E1EFC0E0E120DFD290DEC440DDB620DCA820DB9A50DA8CB0D97F40D871F0D764E0D657F0D54B40D43EB0D33250D22620D11A20D00E60CF02C0CDF750CCEC10CBE100CAD630C9CB80C8C110C7B6C0C6ACB0C5A2D0C49920C38FB0C28660C17D50C07470BF6BC0BE6350BD5B10BC5300BB4B20BA4380B93C10B834E0B72DE0B62710B52080B41A20B313F0B20E00B10850B002D0AEFD80ADF870ACF3A0ABEF00AAEAA0A9E670A8E280A7DEC0A6DB40A5D800A4D4F0A3D230A2CF90A1CD40A0CB209FC9409EC7A09DC6309CC5009BC4109AC36099C2F098C2B097C2B096C30095C38094C44093C54092C68091C7F090C9B08FCBB08ECDF08DD0608CD3208BD6208AD96089DCD088E09087E49086E8E085ED6084F22083F73082FC708202008107D0800DF07F14407E1AE07D21C07C28E07B30507A3800793FF07848207750A0765960756270746BB0737550727F207189407093B06F9E606EA9506DB4906CC0106BCBE06AD80069E46068F10067FDF0670B306618B06526706434906342F
def rscChunk61 : Nat := 0x2808AC27F8F127E93227D96E27C9A527B9D927AA08279A32278A59277A7B276A99275AB2274AC8273AD9272AE6271AEF270AF426FAF426EAF126DAE926CADE26BACE26AABA269AA3268A87267A67266A43265A1C2649F02639C126298D26195626091B25F8DC25E89925D85325C80925B7BB25A7692597132586BA25765D2565FD2555982545312534C52524562513E425036D24F2F424E27624D1F624C17224B0EA24A05F248FD0247F3E246EA9245E10244D74243CD5242C32241B8C240AE323FA3723E98723D8D423C81E23B76523A6A82395E82385262374602363972352CB2341FC23312A232055230F7D22FEA222EDC422DCE322CBFF22BB1822AA2F22994222885322776122666C22557422447A22337C22227C22117A22007421EF6C21DE6221CD5521BC4521AB32219A1D2189062177EB2166CF2155B021448E21336A21224321111B20FFEF20EEC120DD9120CC5F20BB2A20A9F32098BA20877E2076402065002053BE20427A203133201FEA200E9F1FFD521FEC031FDAB21FC95F1FB8091FA6B21F95591F83FE1F72A01F61411F4FE01F3E7D1F2D181F1BB11F0A491EF8DE1EE7721ED6041EC4941EB3231EA1B01E903B1E7EC41E6D4C1E5BD21E4A561E38D91E275A1E15DA1E04581DF2D51DE1501DCFC91DBE411DACB81D9B2D1D89A11D78131D66841D54F31D43621D31CF1D203A1D0EA51CFD0E1CEB761CD9DC1CC8421CB6A61CA5091C936B1C81CB1C702B1C5E8A1C4CE71C3B431C299F1C17F91C06531BF4AB1BE3021BD1591BBFAE1BAE031B9C571B8AAA1B78FC1B674D1B559E1B43ED1B323C1B208A1B0ED81AFD251AEB711AD9BC1AC8071AB6511AA49A1A92E31A812C1A6F731A5DBB1A4C011A3A471A288D1A16D21A051719F35C19E1A019CFE319BE2719AC69199AAC1988EE1977301965721953B41941F5193036191E77190CB718FAF818E93818D77818C5B918B3F918A239189079187EB9186CF9185B391849791837B91825F918143918027917F0BA17DEFB17CD3B17BB7C17A9BD1797FF1786411774821762C5175107173F4A172D8D171BD1170A1416F859
def rscChunk62 : Nat := 0x34D66234CD2034C3D534BA8234B12734A7C4349E593494E5348B6A3481E634785A346EC6346529345B853451D9344824343E683434A3342AD6342102341725340D4034035333F95E33EF6233E55D33DB5033D13C33C71F33BCFB33B2CE33A89A339E5E33941A3389CE337F7A33751E336ABB3360503355DD334B623340DF333655332BC3332129331688330BDE33012D32F67532EBB432E0EC32D61D32CB4632C06732B58032AA92329F9C32949F32899A327E8E32737A32685F325D3C3252113246E0323BA632306532251D3219CE320E7632031831F7B231EC4531E0D031D55431C9D131BE4731B2B531A71B319B7B318FD331842431786E316CB13160EC31552031494D313D733131923125A93119BA310DC33101C530F5C030E9B430DDA130D18730C56630B93E30AD0F30A0D930949C308858307C0D306FBB306362305702304A9C303E2E3031BA30253F3018BD300C342FFFA52FF30E2FE6712FD9CD2FCD232FC0722FB3BA2FA6FB2F9A362F8D6A2F80972F73BE2F66DE2F59F72F4D0A2F40162F331C2F261B2F19142F0C062EFEF22EF1D72EE4B62ED78E2ECA602EBD2B2EAFF02EA2AF2E95672E88192E7AC52E6D6A2E60092E52A22E45342E37C02E2A462E1CC62E0F3F2E01B32DF4202DE6872DD8E72DCB422DBD962DAFE52DA22D2D946F2D86AB2D78E22D6B122D5D3C2D4F602D417E2D33962D25A82D17B52D09BB2CFBBB2CEDB62CDFAB2CD19A2CC3832CB5662CA7442C991B2C8AED2C7CB92C6E802C60402C51FB2C43B12C35612C270B2C18AF2C0A4E2BFBE72BED7B2BDF092BD0912BC2142BB3922BA5092B967C2B87E92B79512B6AB32B5C0F2B4D672B3EB92B30052B214D2B128E2B03CB2AF5022AE6342AD7612AC8892AB9AB2AAAC82A9BE02A8CF32A7E002A6F092A600C2A510A2A42032A32F72A23E62A14D02A05B529F69529E77029D84629C91729B9E329AAAB299B6D298C2A297CE3296D97295E46294EF0293F952930362920D12911682901FB28F28828E31128D39528C41528B49028A5062895782885E528764E2866B228571228476D2837C3282816281863
def rscChunk63 : Nat := 0x39999539998639996E39994C3999203998EB3998AC3998633998113997B539974F3996DF3996663995E33995573994C03994203993773992C339920639913F39906F398F95398EB1398DC4398CCC398BCC398AC13989AD39888F3987673986363984FB3983B6398268398110397FAF397E43397CCE397B503979C739783539769A3974F539734639718D396FCB396DFF396C2A396A4A39686239666F39647339626D39605E395E45395C223959F63957C03955813953383950E5394E89394C233949B339473A3944B839422B393F95393CF6393A4D39379A3934DE393218392F49392C7039298D3926A13923AB3920AC391DA3391A91391775391450391121390DE8390AA639075B3904063900A738FD3F38F9CD38F65238F2CE38EF3F38EBA838E80738E45C38E0A838DCEA38D92338D55338D17938CD9638C9A938C5B238C1B338BDA938B99738B57B38B15538AD2638A8EE38A4AC38A061389C0D3897AF389347388ED7388A5D3885D938814C387CB638781738736E386EBC386A0038653B38606D385B953856B43851CA384CD73847DA3842D4383DC43838AC38338A382E5F38292A3823EC381EA53819553813FC380E9938092D3803B837FE3A37F8B237F32137ED8737E7E437E23837DC8337D6C437D0FC37CB2B37C55137BF6E37B98237B38C37AD8D37A78637A175379B5B379538378F0C3788D7378299377C51377601376FA83769453762DA375C653755E8374F623748D237423A373B983734EE372E3A37277E3720B93719EB371314370C3437054B36FE5936F75E36F05A36E94E36E23836DB1A36D3F336CCC336C58A36BE4836B6FE36AFAA36A84E36A0E936997C369205368A863682FE367B6D3673D4366C31366486365CD3365516364D51364584363DAD3635CE362DE63625F6361DFD3615FB360DF13605DE35FDC235F59E35ED7135E53C35DCFE35D4B835CC6935C41135BBB135B34935AAD835A25E3599DC3591523588BF35802335777F356ED335661E355D6135549C354BCE3542F7353A19353132352842351F4B35164B350D4235043234FB1934F1F734E8CE34DF9C

/-- Group `g` of the listed entries. -/
def rscChunk : Nat → Nat
  | 0 => rscChunk0
  | 1 => rscChunk1
  | 2 => rscChunk2
  | 3 => rscChunk3
  | 4 => rscChunk4
  | 5 => rscChunk5
  | 6 => rscChunk6
  | 7 => rscChunk7
  | 8 => rscChunk8
  | 9 => rscChunk9
  | 10 => rscChunk10
  | 11 => rscChunk11
  | 12 => rscChunk12
  | 13 => rscChunk13
  | 14 => rscChunk14
  | 15 => rscChunk15
  | 16 => rscChunk16
  | 17 => rscChunk17
  | 18 => rscChunk18
  | 19 => rscChunk19
  | 20 => rscChunk20
  | 21 => rscChunk21
  | 22 => rscChunk22
  | 23 => rscChunk23
  | 24 => rscChunk24
  | 25 => rscChunk25
  | 26 => rscChunk26
  | 27 => rscChunk27
  | 28 => rscChunk28
  | 29 => rscChunk29
  | 30 => rscChunk30
  | 31 => rscChunk31
  | 32 => rscChunk32
  | 33 => rscChunk33
  | 34 => rscChunk34
  | 35 => rscChunk35
  | 36 => rscChunk36
  | 37 => rscChunk37
  | 38 => rscChunk38
  | 39 => rscChunk39
  | 40 => rscChunk40
  | 41 => rscChunk41
  | 42 => rscChunk42
  | 43 => rscChunk43
  | 44 => rscChunk44
  | 45 => rscChunk45
  | 46 => rscChunk46
  | 47 => rscChunk47
  | 48 => rscChunk48
  | 49 => rscChunk49
  | 50 => rscChunk50
  | 51 => rscChunk51
  | 52 => rscChunk52
  | 53 => rscChunk53
  | 54 => rscChunk54
  | 55 => rscChunk55
  | 56 => rscChunk56
  | 57 => rscChunk57
  | 58 => rscChunk58
  | 59 => rscChunk59
  | 60 => rscChunk60
  | 61 => rscChunk61
  | 62 => rscChunk62
  | 63 => rscChunk63
  | _ => 3774874

/-- The prototype before the correction of each phase: entry `j`, as a signed number of LSB 2⁻²². -/
def rscBase (j : Nat) : Int :=
  let i := if j ≤ 16384 then j else 32768 - j
  (BitVec.ofNat 24 (rscChunk (i / 256) / 2 ^ (24 * (i % 256)))).toInt

/-- The sum of a phase's 32 entries before the correction. -/
def rscSum (p : Nat) : Nat → Int
  | 0 => 0
  | k + 1 => rscBase (1024 * k + p) + rscSum p k

/-- R234: the default table, whose every phase sums to 2²². -/
def rscDefault (j : Nat) : Int :=
  let p := j % 1024
  if j = 1024 * (if p < 512 then 16 else 15) + p then rscBase j + 2 ^ 22 - rscSum p 32 else rscBase j

end Sys2Proof.Machine
end

