-- ==== Sys2Proof/Machine/Lens.lean ====
section
/-!
DEFINITION. Sys2Proof/Machine/Lens.lean: the time base, the angle and mains coordinates, their queries and the angle triggers
(chapter 08, R202–R231, R237).
-/
namespace Sys2Proof.Machine
open Sys2Proof

/-! ### Numbers -/

/-- The signed serial difference of two stamps, in sixteenths of a tick (R210). -/
def sd52 (a b : BitVec 52) : Int := (a - b).toInt

/-- The stamp of a tick boundary. -/
def stampOf (t : W) : BitVec 52 := BitVec.ofNat 52 (t.toNat * 16)

/-- Round to nearest, ties to even (R211). -/
def rneRat (q : Rat) : Int :=
  let f := q.floor
  let d := q - f
  if d < 1 / 2 then f else if 1 / 2 < d then f + 1 else if f % 2 = 0 then f else f + 1

def ratAbs (q : Rat) : Rat := if q < 0 then -q else q

/-- A non-negative bound, saturating at 32 bits (R224). -/
def sat32 (x : Int) : Nat := if x < 0 then 0 else if 2 ^ 32 - 1 ≤ x then 2 ^ 32 - 1 else x.toNat

/-! ### The curve (R214) -/

/-- Multiply a polynomial, lowest coefficient first, by `(x - r)`. -/
def polyLin (p : List Rat) (r : Rat) : List Rat :=
  let up := (0 : Rat) :: p
  let down := p.map (fun c => -(r * c)) ++ [0]
  List.zipWith (· + ·) up down

def polyEval : List Rat → Rat → Rat
  | [], _ => 0
  | c :: p, x => c + x * polyEval p x

/-- The Lagrange polynomial through points. -/
def lagrange (pts : List (Int × Int)) : List Rat :=
  pts.foldl (fun acc p =>
    let others := pts.filter fun q => q.1 ≠ p.1
    let den := others.foldl (fun (d : Rat) q => d * ((p.1 - q.1 : Int) : Rat)) 1
    let num := others.foldl (fun (n : List Rat) q => polyLin n (q.1 : Rat)) [1]
    List.zipWith (· + ·) acc (num.map fun c => c * (p.2 : Rat) / den)) (pts.map fun _ => (0 : Rat))

/-- The derivative of a polynomial. -/
def polyDeriv (p : List Rat) : List Rat := (p.zipIdx.map fun (c : Rat × Nat) => c.1 * (c.2 : Rat)).drop 1

/-- A polynomial without zero leading coefficients. -/
def polyTrim (p : List Rat) : List Rat := (p.reverse.dropWhile (· == 0)).reverse

/-- The remainder of a polynomial by another, both trimmed. -/
def polyRem : Nat → List Rat → List Rat → List Rat
  | 0, a, _ => a
  | n + 1, a, b =>
    if a.length < b.length ∨ b = [] then a
    else
      let f := a.getLastD 0 / b.getLastD 1
      let shifted := List.replicate (a.length - b.length) 0 ++ b
      polyRem n (polyTrim (List.zipWith (fun x y => x - f * y) a shifted).dropLast) b

/-- The Sturm chain of two trimmed polynomials. -/
def sturmFrom : Nat → List Rat → List Rat → List (List Rat)
  | 0, a, _ => [a]
  | n + 1, a, b => if b = [] then [a] else a :: sturmFrom n b ((polyRem 8 a b).map (-·))

def sturm (p : List Rat) : List (List Rat) := sturmFrom 8 (polyTrim p) (polyTrim (polyDeriv p))

/-- The changes of sign in a list of values, zeros left out. -/
def signChanges (l : List Rat) : Nat :=
  let m := l.filter (· ≠ 0)
  ((m.zip (m.drop 1)).filter fun x => decide (x.1 * x.2 < 0)).length

/-- A polynomial that is negative at `lo` has reached 0 by the time `x`: by Sturm's theorem it has a root in (lo, x], or it is not negative
at x. -/
def reached (p : List Rat) (lo x : Rat) : Bool :=
  let c := sturm p
  decide (0 ≤ polyEval p x) || decide (signChanges (c.map (polyEval · x)) < signChanges (c.map (polyEval · lo)))

/-- The edges of a history up to the one with which it begins, newest first (R216, R217). -/
def cutStart : List Edge → List Edge
  | [] => []
  | e :: es => e :: (if e.start then [] else cutStart es)

/-- R215, R221: the history of a view for tick `t`: the last 256 edges stamped before `t` − 2. -/
def usable (v : View) (t : W) : List Edge :=
  (cutStart (v.hist.filter fun e => decide (sd52 e.stamp (stampOf (t - 2)) < 0))).take 256

/-- The view of tick `t`: an edge that ended a stop or a holdover leaves it standing until the edge itself is usable (R217, R220; DEDUCED,
log 180). -/
def View.asOf (v : View) (t : W) (mains : Bool) : View :=
  let still := (v.hist.takeWhile fun e => decide (0 ≤ sd52 e.stamp (stampOf (t - 2)))).any (·.ended)
  if mains then { v with hold := v.hold || still } else { v with stop := v.stop || still }

/-- The points of edges, with times relative to a stamp. -/
def points (z : BitVec 52) (es : List Edge) : List (Int × Int) := es.map fun e => (sd52 e.stamp z, e.ang)

/-- Angle, velocity and half the acceleration at the newest edge, in units of 2⁻³² rev and sixteenths; for M the velocity is one cycle
per the last period (R214, R219). -/
def motion (m : Bool) (v : View) (es : List Edge) : Rat × Rat × Rat :=
  match es with
  | [] => (0, 0, 0)
  | e :: _ =>
    if m then (e.ang, if v.period = 0 then 0 else (2 ^ 32 : Rat) / v.period, 0)
    else if v.stop then (e.ang, 0, 0)
    else
      let p := lagrange (points e.stamp (es.take 4))
      (e.ang, p.getD 1 0, p.getD 2 0)

/-- The extrapolation `x` sixteenths after the newest edge (DEDUCED, log 99). -/
def extrapolate (c : Rat × Rat × Rat) (x : Rat) : Rat := c.1 + c.2.1 * x + c.2.2 * x * x

/-- The newest index of the edges that interpolate between the edge at `j + 1` and the newer one at `j`, of `n` edges newest first. -/
def spanFrom (n j : Nat) : Nat := if n ≤ 4 then 0 else if j = 0 then 0 else min (j - 1) (n - 4)

/-- The four edges used between two neighbours. -/
def spanEdges (es : List Edge) (j : Nat) : List Edge := (es.drop (spanFrom es.length j)).take 4

/-- The index of the newer of the two edges that bracket a time within the history. -/
def bracket (z : BitVec 52) (x : Int) : List Edge → Nat → Nat
  | _ :: f :: es, j => if sd52 f.stamp z ≤ x then j else bracket z x (f :: es) (j + 1)
  | _, j => j - 1

/-! ### Angles of boundaries (R211–R213) -/

/-- Counts per revolution. -/
def countsPerRev (s : State) (i : Nat) : Nat :=
  let lines := s.get F.coordCfg_LINES i
  if s.get F.coordCfg_SRC i ≤ 4 then 4 * lines else lines

/-- R213: an entry of a line-error table. -/
def letEntry (s : State) (e j : Nat) : Int := (BitVec.ofNat 24 (mget 0 s.lens.letTab (e * 4096 + j))).toInt

/-- The angle of boundary `b` of coordinate A`i`, in units of 2⁻³² rev. -/
def angleOf (s : State) (i : Nat) (b : Int) (refd : Bool) : Int :=
  let c := countsPerRev s i
  let src := s.get F.coordCfg_SRC i
  let nominal := rneRat ((b * 2 ^ 32 : Int) / (c : Rat))
  let corr :=
    if refd && 1 ≤ src && src ≤ 4 && s.flag F.coordCfg_LET_EN i then
      letEntry s (src - 1) (((b % (c : Int)) * 4096 / (c : Int)).toNat)
    else 0
  nominal + corr + (if refd then (s.get F.coordZofs_ZOFS i : Int) * 256 else 0)

/-- The angle of mains cycle `n`. -/
def mainsAngle (s : State) (n : Int) : Int := (n * 2 ^ 24 + s.get F.mainsCfg_PHASE_OFS 0) * 256

/-! ### Access to coordinates -/

def View.none : View := ⟨[], false, false, false, false, 0⟩
def Coord.empty : Coord := Coord.reset

def State.coord (s : State) (i : Nat) : Coord := s.lens.coords.getD i Coord.empty
def State.setCoord (s : State) (i : Nat) (c : Coord) : State :=
  { s with lens := { s.lens with coords := setAt s.lens.coords i c } }

/-- The view of a coordinate at this moment. -/
def State.viewNow (s : State) (i : Nat) : View :=
  let c := s.coord i
  if i = 4 then ⟨c.hist, true, false, false, s.flag F.mainsStat_HOLD 0, c.period⟩
  else ⟨c.hist, s.flag F.coordStat_REFD i, s.flag F.coordStat_DIR i, s.flag F.coordStat_STOP i, false, 0⟩

/-- The coordinate has a source: SRC names one and LINES is not 0, or EN of M is 1 (R218, R221) (DEDUCED, log 103). -/
def coordOn (s : State) (i : Nat) : Bool :=
  if i = 4 then s.flag F.mainsCfg_EN 0 else s.get F.coordCfg_LINES i ≠ 0 && s.get F.coordCfg_SRC i ≠ 0

/-! ### Bounds (R225) -/

/-- Sixteenths to seconds. -/
def seconds (x : Rat) : Rat := x / 4000000000

/-- ACC_MAX and RES; for M they are FSLEW and 0. -/
def accMax (s : State) (i : Nat) : Nat := if i = 4 then s.get F.mainsCfg_FSLEW 0 else s.get F.coordModel_ACC_MAX i
def resOf (s : State) (i : Nat) : Nat := if i = 4 then 0 else s.get F.coordModel_RES i

/-- RES + ⌈|ω|/16⌉ + ⌈2²⁴ × ACC_MAX × δ²⌉, with ω in units of 2⁻³² rev per sixteenth and δ in sixteenths. -/
def boundOf (s : State) (i : Nat) (omega delta : Rat) : Int :=
  resOf s i + (ratAbs (omega / 16) / 16).ceil + ((2 ^ 24 : Rat) * accMax s i * (seconds delta * seconds delta)).ceil

/-- The interval between the edges at index `j + 1` and `j`, where both exist. -/
def gap (es : List Edge) (j : Nat) : Option Int :=
  match es[j]?, es[j + 1]? with
  | some e, some f => some (sd52 e.stamp f.stamp)
  | _, _ => none

/-- B_pred at `x` sixteenths after the newest edge. With fewer than two edges the rule gives no interval: the bound is open. -/
def boundPred (s : State) (i : Nat) (es : List Edge) (omega x : Rat) : Option Int :=
  (gap es 0).map fun d => boundOf s i omega (x + d)

/-- B_meas between the edges at index `j + 1` and `j`. -/
def boundMeas (s : State) (i : Nat) (es : List Edge) (omega : Rat) (j : Nat) : Option Int :=
  (gap es j).map fun d => boundOf s i omega d

/-- A bound as the BOUND field takes it (R224), or a free value where the spec gives none. -/
def orBound (b : Option Int) (s : State) : Nat × State :=
  match b with
  | some x => (sat32 x, s)
  | none => let (v, s) := s.freeVal 32; (v.toNat, s)

/-! ### Publication (R215, R219, R220) -/

/-- The value of a coordinate at tick `t` in units of 2⁻³² rev, clamped; with its direction. -/
def publishAngle (s : State) (i : Nat) (v : View) (t : W) : Rat × Bool :=
  match usable v t with
  | [] => (0, v.back)
  | e :: es =>
    let v := v.asOf t (i = 4)
    let x := extrapolate (motion (i = 4) v (e :: es)) (sd52 (stampOf t) e.stamp : Int)
    let next := if i = 4 then mainsAngle s (e.b + 1) else angleOf s i (if e.back then e.b - 1 else e.b + 1) v.refd
    if i = 4 && v.hold then (x, false)
    else if e.back then (min (e.ang : Rat) (max x ((next + 256 : Int) : Rat)), true)
    else (max (e.ang : Rat) (min x ((next - 256 : Int) : Rat)), false)

/-- A resumption of M that this publication takes into account first: the newest usable edge ended a holdover, and the publication before did
not have it (R220, R228). -/
def resumes (before v : View) (t : W) : Bool :=
  match (usable v t).head? with
  | some e => e.ended && (usable before (t - 1)).head? ≠ some e
  | none => false

/-- COORDINATE_PUBLISH of one coordinate at the boundary that begins tick `t`. -/
def publish (i : Nat) (s : State) : State :=
  let c := s.coord i
  let v := s.viewNow i
  if !coordOn s i then s.setCoord i { c with pub := 0, prev := c.pub, jumped := c.jump, jump := false, view := v }
  else
    let (a, back) := publishAngle s i v s.t
    let val : W := BitVec.ofInt 48 (rneRat (a / 256))
    -- a referencing shows once an edge is usable
    let shown := c.refJump && !(usable v s.t).isEmpty
    let jump := c.jump || shown
    let jumped := jump || (i = 4 && resumes c.view v s.t)
    let against := if back then 0 < sdiff val c.pub else sdiff val c.pub < 0
    let same := i = 4 || decide ((usable c.view (s.t - 1)).head?.map (·.back) = (usable v s.t).head?.map (·.back))
    let val := if (i = 4 || (same && !jump)) && against then c.pub else val
    s.setCoord i { c with pub := val, prev := c.pub, jumped := jumped, jump := false, refJump := c.refJump && !shown, view := v }

/-! ### Edges (R210–R212, R216, R217, R226) -/

/-- R226: a new edge is checked against the extrapolation of the edges before it. -/
def modelCheck (i : Nat) (stamp : BitVec 52) (ang : Int) (s : State) : State :=
  let v := s.viewNow i
  match cutStart v.hist with
  | [] => s
  | e :: es =>
    let c := motion false v (e :: es)
    let x : Rat := (sd52 stamp e.stamp : Int)
    let off := ratAbs ((ang : Rat) - extrapolate c x) / 256
    let (b, s) : Int × State := match boundPred s i (e :: es) c.2.1 x with
      | some b => (b, s)
      | none => let (v, s) := s.freeVal 32; ((v.toNat : Int), s)
    if (b : Rat) < off then
      raiseEvent (254 + i) ((s.inc F.coordStat_MODELV i).set F.coordStat_ERR_EVT i 1)
    else s

/-- Record a count edge of coordinate A`i` in a direction (R211, R212, R216, R217). An edge not stamped later than the newest, which a step
of T can bring, begins the history anew and is not checked against the model (DESIGN CHOICE, log 95; DEDUCED, log 97). -/
def recordEdge (i : Nat) (stamp : BitVec 52) (back : Bool) (s : State) : State :=
  let c := s.coord i
  let late := match c.hist with | e :: _ => decide (sd52 stamp e.stamp ≤ 0) | [] => false
  let tach := 5 ≤ s.get F.coordCfg_SRC i
  let first := tach && !s.flag F.coordStat_REFD i
  let k0 : Int := if first then (if back then 0 else -1) else c.k
  let b : Int := if back then k0 else k0 + 1
  let s := if first then (s.set F.coordStat_REFD i 1).set F.coordStat_JUMP i 1 else s
  let ang := angleOf s i b (s.flag F.coordStat_REFD i)
  let s := if first || late then s else modelCheck i stamp ang s
  let rev := match c.hist with | e :: _ => e.back ≠ back | [] => false
  let stopped := s.flag F.coordStat_STOP i
  let e : Edge := ⟨stamp, b, ang, back, c.hist.isEmpty || rev || stopped || first || late, rev, stopped⟩
  let s := s.setCoord i { c with
    k := if back then k0 - 1 else k0 + 1, hist := (e :: c.hist).take 260, lastTick := s.ticks, refJump := c.refJump || first }
  let s := (s.set F.coordStat_STOP i 0).set F.coordStat_DIR i (b2n back)
  if rev then raiseEvent (250 + i) (s.set F.coordStat_REV_EVT i 1) else s

/-- The status fields that an edge or a Z edge changes. -/
def coordFlds : List Fld :=
  [F.coordStat_REFD, F.coordStat_DIR, F.coordStat_STOP, F.coordStat_REV_EVT, F.coordStat_JUMP, F.coordStat_ERR_EVT,
    F.coordStat_QERR, F.coordStat_IDXERR, F.coordStat_MODELV]

/-- The coordinate as a change of A, B or Z finds it. -/
def undoOf (s : State) (i : Nat) (stamp : BitVec 52) (line width : Nat) : CoordUndo :=
  let c := s.coord i
  ⟨stamp, line, width, c.k, c.hist, c.lastTick, c.refJump, coordFlds.map fun f => s.get f i⟩

/-- Take a change of this sixteenth back; an event that it raised stays raised (DESIGN CHOICE, log 96). -/
def takeBack (i : Nat) (u : CoordUndo) (s : State) : State :=
  let s := s.setCoord i { s.coord i with k := u.k, hist := u.hist, lastTick := u.lastTick, refJump := u.refJump }
  (coordFlds.zip u.stat).foldl (fun s x => s.set x.1 i x.2) s

/-- R210: a change of A or B of an encoder as a coordinate sees it: its levels after the change. Two lines that change within one sixteenth, in
one command or in two, are a quadrature error. -/
def abChange (i : Nat) (stamp : BitVec 52) (a b : Bool) (width : Nat) (s : State) : State :=
  let c := s.coord i
  let da := a != c.la
  let db := b != c.lb
  let qerr (s : State) : State := (s.inc F.coordStat_QERR i).set F.coordStat_ERR_EVT i 1
  let s' := s.setCoord i { c with la := a, lb := b }
  match da, db with
  | false, false => s
  | true, true => qerr s'
  | _, _ =>
    let line := if da then 0 else 1
    match c.lastAb.bind fun u => if u.stamp = stamp ∧ u.line ≠ line then some u else none with
    | some u => qerr (takeBack i u s')
    | none =>
      let u := undoOf s i stamp line width
      let forward := if da then a != b else a == b
      let s := recordEdge i stamp (forward == s.flag F.coordCfg_INV i) s'
      s.setCoord i { s.coord i with lastAb := some u }

/-- R212: the edges of a history, moved by `d` counts and given the angles of a referenced coordinate. -/
def rebase (s : State) (i : Nat) (d : Int) (es : List Edge) : List Edge :=
  es.map fun e => { e with b := e.b + d, ang := angleOf s i (e.b + d) true }

/-- A Z edge as a coordinate sees it: the first qualified one references it, a later one tests the count (R212). -/
def zSeen (i : Nat) (stamp : BitVec 52) (width : Nat) (s : State) : State :=
  let c := s.coord i
  let counts : Int := countsPerRev s i
  if width < s.get F.coordCfg_FILT i then s
  else
    let u := undoOf s i stamp 2 width
    let s := s.setCoord i { c with lastZ := some u }
    if s.flag F.coordCfg_ZGATE i && !(c.la && c.lb) then s
    else if s.flag F.coordStat_REFD i then
      if c.k % counts = 0 then s else (s.inc F.coordStat_IDXERR i).set F.coordStat_ERR_EVT i 1
    else
      let k := (2 * c.k + counts) / (2 * counts) * counts
      let s := s.setCoord i { s.coord i with k := k, hist := rebase s i (k - c.k) c.hist, refJump := true }
      (s.set F.coordStat_REFD i 1).set F.coordStat_JUMP i 1

/-- R210: a change of A or B that lasts `width` sixteenths (DESIGN CHOICE, log 96). A Z edge of the same sixteenth is taken after it (R237). -/
def encoderChange (i : Nat) (stamp : BitVec 52) (a b : Bool) (width : Nat) (s : State) : State :=
  let c := s.coord i
  if width < s.get F.coordCfg_FILT i then s
  else
    match c.lastZ.bind fun u => if u.stamp = stamp then some u else none with
    | some u => zSeen i stamp u.width (abChange i stamp a b width (takeBack i u s))
    | none => abChange i stamp a b width s

/-- COUNT_EDGE at encoder 0–3 (`src` 0–3, levels of A and B after the change) or a rising edge at tachometer 0–1 (`src` 4, 5). -/
def countEdge (src : Nat) (stamp : BitVec 52) (a b : Bool) (width : Nat) (s : State) : State :=
  let s := if src < 4 then { s with lens := { s.lens with enc := setAt s.lens.enc src (a, b) } } else s
  (List.range 4).foldl (fun s i =>
    if s.get F.coordCfg_SRC i ≠ src + 1 || !coordOn s i then s
    else if src < 4 then encoderChange i stamp a b width s
    else if width < s.get F.coordCfg_FILT i then s
    else recordEdge i stamp (s.flag F.coordCfg_INV i) s) s

/-- R211. -/
def execCountEdge (src : Fin 6) (stamp : BitVec 52) (a b : Bool) (width : Nat) (s : State) : Host.Outcome State Fault Refusal :=
  .next (countEdge src stamp a b width s)

/-- Z_EDGE of an encoder. -/
def zEdge (e : Nat) (stamp : BitVec 52) (width : Nat) (s : State) : State :=
  (List.range 4).foldl (fun s i => if s.get F.coordCfg_SRC i = e + 1 && coordOn s i then zSeen i stamp width s else s) s

/-- R212. -/
def execZEdge (e : Fin 4) (p : Pulse) (s : State) : Host.Outcome State Fault Refusal := .next (zEdge e p.stamp p.width s)

/-- COORDINATE_STALL: no edge within 2^(STALL + 14) ticks of the last one (R217). -/
def coordinateStall (i : Nat) (s : State) : State :=
  let c := s.coord i
  if !coordOn s i || c.hist.isEmpty || s.ticks < c.lastTick + 2 ^ (s.get F.coordCfg_STALL i + 14) then s
  else s.set F.coordStat_STOP i 1

/-- R217. -/
def execCoordinateStall (n : Fin 4) (s : State) : Host.Outcome State Fault Refusal := .next (coordinateStall n s)

/-- R218: a coordinate restarts at k = 0, not referenced, with an empty history. -/
def restartCoord (i : Nat) (s : State) : State :=
  let c := s.coord i
  let src := s.get F.coordCfg_SRC i
  let l := if 1 ≤ src ∧ src ≤ 4 then s.lens.enc.getD (src - 1) (false, false) else (false, false)
  let s := s.setCoord i { c with k := 0, la := l.1, lb := l.2, hist := [], jump := true, refJump := false, lastAb := none, lastZ := none }
  ((s.set F.coordStat_REFD i 0).set F.coordStat_STOP i 0).set F.coordStat_DIR i 0

/-! ### Mains (R219, R220) -/

/-- M at a stamp, in units of 2⁻³² cycle, by its extrapolation. -/
def mainsAt (v : View) (stamp : BitVec 52) : Rat :=
  match v.hist with
  | [] => 0
  | e :: es => extrapolate (motion true v (e :: es)) (sd52 stamp e.stamp : Int)

/-- A MAINS_IN edge with its polarity, stamped at its first transition; the change lasts `width` sixteenths (DEDUCED, log 98). Where T has been
stepped since the last edge, the interval is that of the ticks counted and the history begins anew (DESIGN CHOICE, log 181). -/
def mainsEdge (rising : Bool) (stamp : BitVec 52) (width : Nat) (s : State) : State :=
  let c := s.coord 4
  if !s.flag F.mainsCfg_EN 0 || rising == s.flag F.mainsCfg_POL 0 || width < s.get F.mainsCfg_FILT 0 then s
  else
    let stepped := s.t ≠ c.lastT + BitVec.ofNat 48 (s.ticks - c.lastTick)
    let push (n : Int) (resumed : Bool) (period : Nat) (s : State) : State :=
      s.setCoord 4 { c with
        k := n, hist := (⟨stamp, n, mainsAngle s n, false, c.hist.isEmpty || stepped, false, resumed⟩ :: c.hist).take 260, period := period,
        good := if resumed then 1 else c.good + 1, lastTick := s.ticks, lastT := s.t }
    match c.hist with
    | [] => push 0 false 0 s
    | e :: _ =>
      let gapT : Int := if stepped then 16 * ((s.ticks - c.lastTick : Nat) : Int) else sd52 stamp e.stamp
      if gapT < 3000000 * 16 then s.set F.mainsStat_GLITCH_EVT 0 1
      else if s.flag F.mainsStat_HOLD 0 then
        let m := mainsAt (s.viewNow 4) stamp
        let n := rneRat ((m / 256 - s.get F.mainsCfg_PHASE_OFS 0) / 2 ^ 24)
        (push n true c.period s).set F.mainsStat_HOLD 0 0
      else
        let s := (push (c.k + 1) false gapT.toNat s).set F.mainsStat_PERIOD 0 (rneRat ((gapT : Rat) / 16)).toNat
        if 3 ≤ c.good then s.set F.mainsStat_LOCK 0 1 else s

/-- R219. -/
def execMainsEdge (rising : Bool) (stamp : BitVec 52) (width : Nat) (s : State) : Host.Outcome State Fault Refusal :=
  .next (mainsEdge rising stamp width s)

/-- MAINS_HOLDOVER: no edge accepted within 7,500,000 ticks of the last (R220). -/
def mainsHoldover (s : State) : State :=
  let c := s.coord 4
  if !s.flag F.mainsCfg_EN 0 || c.hist.isEmpty || s.flag F.mainsStat_HOLD 0 || s.ticks < c.lastTick + 7500000 then s
  else
    let s := s.setCoord 4 { c with good := 0 }
    let s := ((s.set F.mainsStat_HOLD 0 1).set F.mainsStat_LOST_EVT 0 1).set F.mainsStat_LOCK 0 0
    raiseEvent 258 s

/-- R220. -/
def execMainsHoldover (s : State) : Host.Outcome State Fault Refusal := .next (mainsHoldover s)

/-- A write of MAINS_CFG that clears EN ends M: with EN = 1 again, M is 0 until the first accepted edge (R219). -/
def stopMains (s : State) : State :=
  let s := s.setCoord 4 { s.coord 4 with k := 0, hist := [], period := 0, good := 0 }
  (s.set F.mainsStat_HOLD 0 0).set F.mainsStat_LOCK 0 0

/-! ### Queries (R221–R225) -/

/-- R274: the T nearest the arrival T whose low 21 bits match. -/
def rebuildT (t : W) (low : Nat) : W :=
  let d := (low + 2 ^ 21 - t.toNat % 2 ^ 21) % 2 ^ 21
  if d < 2 ^ 20 then t + BitVec.ofNat 48 d else t + BitVec.ofNat 48 d - BitVec.ofNat 48 (2 ^ 21)

/-- The bound word of R224 from its flags and BOUND (DESIGN CHOICE, log 100). -/
def boundWord (nosrc beyond hold unref stale nocross stop rev dir pred : Bool) (bound : Nat) : W :=
  w48 (b2n nosrc * 2 ^ 41 + b2n beyond * 2 ^ 40 + b2n hold * 2 ^ 39 + b2n unref * 2 ^ 38 + b2n stale * 2 ^ 37 + b2n nocross * 2 ^ 36
    + b2n stop * 2 ^ 35 + b2n rev * 2 ^ 34 + b2n dir * 2 ^ 33 + b2n pred * 2 ^ 32 + bound)

/-- The flags that belong to the coordinate and the moment, and the direction as of T_fire. -/
def dirAt (v : View) (es : List Edge) (tf : W) : Bool :=
  match es.find? fun e => decide (sd52 e.stamp (stampOf tf) ≤ 0) with
  | some e => e.back
  | none => match es.getLast? with | some e => e.back | none => v.back

/-- An answer: value, bound (none where it is open), and its flags. -/
structure LensAns where
  value : W
  bound : Option Int
  beyond : Bool
  stale : Bool
  nocross : Bool
  rev : Bool
  pred : Bool
  deriving DecidableEq, Repr

/-- The saturated bound. -/
def boundMax : Option Int := some (2 ^ 32)

/-- A value in units of 2⁻³² rev as a published coordinate in the 24.24 format of R49. -/
def toCoord (q : Rat) : W := BitVec.ofInt 48 (rneRat (q / 256))

/-- ANGLE-AT: θ(L) (R222). -/
def angleAt (s : State) (i : Nat) (v : View) (l tq : W) : LensAns :=
  match usable v tq with
  | [] => ⟨0, none, false, false, false, false, true⟩
  | e :: es =>
    let v := v.asOf tq (i = 4)
    let all := e :: es
    let c := motion (i = 4) v all
    let x := sd52 (stampOf l) e.stamp
    let oldest := all.getLast?.getD e
    if x < sd52 oldest.stamp e.stamp then ⟨toCoord oldest.ang, boundMax, false, true, false, oldest.rev, false⟩
    else if x ≤ 0 then
      let j := bracket e.stamp x all 0
      let used := spanEdges all j
      ⟨toCoord (polyEval (lagrange (points e.stamp used)) x), boundMeas s i all c.2.1 j, false, false, false, used.any (·.rev), false⟩
    else
      let far := (2 ^ 30 * 16 : Int) < x
      let flips := c.2.2 ≠ 0 && decide (c.2.1 * (c.2.1 + 2 * c.2.2 * x) < 0)
      ⟨toCoord (extrapolate c x), if far then boundMax else boundPred s i all c.2.1 x, far, false, false,
        (all.take 4).any (·.rev) || flips, true⟩

/-- The least integer in `(lo, hi]` at which a condition that stays once it holds does hold. -/
def bisect (f : Int → Bool) : Nat → Int → Int → Int
  | 0, _, hi => hi
  | k + 1, lo, hi =>
    if hi ≤ lo + 1 then hi
    else
      let mid := (lo + hi) / 2
      if f mid then bisect f k lo mid else bisect f k mid hi

/-- A crossing between half ticks `n - 1` and `n` of T, rounded to the nearest tick; one exactly between two ticks goes to the even
one. -/
def halfToTick (n : Int) (exact : Bool) : Int :=
  if n % 2 = 0 then n / 2
  else
    let t := n / 2
    if exact && t % 2 ≠ 0 then t + 1 else t

/-- The first time from `lo` on, by `hi` at the latest, at which a polynomial of the time in sixteenths reaches 0 from below, in units of twice
`h` sixteenths, rounded to the nearest. -/
def crossing (h : Rat) (p : List Rat) (lo hi : Rat) : Int :=
  if 0 ≤ polyEval p lo then rneRat (lo / (2 * h))
  else
    let n := bisect (fun n => reached p lo (n * h)) 200 (lo / h).floor (hi / h).ceil
    let c := sturm p
    let roots := signChanges (c.map (polyEval · lo)) - signChanges (c.map (polyEval · (n * h)))
    halfToTick n (decide (polyEval p (n * h) = 0 ∧ roots ≤ 1))

/-- The curve less a target, in the direction of motion: it rises to 0 where the coordinate reaches the target. -/
def toward (sg y : Rat) (p : List Rat) : List Rat :=
  match p.map (sg * ·) with
  | [] => [-(sg * y)]
  | c :: cs => (c - sg * y) :: cs

/-- The extrapolation after the newest edge as a polynomial of the time since a base, when that edge stands at `z`. -/
def extrapPoly (c : Rat × Rat × Rat) (z : Rat) : List Rat := [c.1 - c.2.1 * z + c.2.2 * z * z, c.2.1 - 2 * c.2.2 * z, c.2.2]

/-- The recorded spans after a time, oldest first, as (newer edge's index, from, to) in sixteenths relative to the newest edge. -/
def spansAfter (z : BitVec 52) (all : List Edge) (x : Rat) : List (Nat × Rat × Rat) :=
  ((List.range (all.length - 1)).reverse.map fun j =>
    let hi : Rat := match all[j]? with | some e => (sd52 e.stamp z : Int) | none => 0
    let lo : Rat := match all[j + 1]? with | some e => (sd52 e.stamp z : Int) | none => 0
    (j, max lo x, hi)).filter fun r => decide (r.2.1 ≤ r.2.2)

/-- B_time of a measured crossing (R225). -/
def timeMeas (omega : Rat) (b : Option Int) : Option Int :=
  b.map fun b => if omega = 0 then 2 ^ 32 else ((16 * b : Int) / ratAbs (omega / 16)).ceil

/-- The time at which a polynomial of degree at most 2 that rises on `[lo, hi]` first is 0 or more: it may be irrational, and is known by its
comparison with rational times. -/
structure RootAt where
  p : List Rat
  lo : Rat
  hi : Rat
  deriving DecidableEq, Repr

/-- The time is at most `x`. -/
def RootAt.le (r : RootAt) (x : Rat) : Bool := decide (r.lo ≤ x) && (decide (0 ≤ polyEval r.p r.lo) || decide (r.hi ≤ x) || decide (0 ≤ polyEval r.p x))

/-- The time is at least `x`. -/
def RootAt.ge (r : RootAt) (x : Rat) : Bool :=
  if 0 ≤ polyEval r.p r.lo then decide (x ≤ r.lo)
  else decide (x ≤ r.lo) || (decide (x ≤ r.hi) && decide (polyEval r.p x ≤ 0))

/-- `a` × the time + `b` is at most `m`. -/
def RootAt.linLe (r : RootAt) (a b m : Rat) : Bool :=
  if a = 0 then decide (b ≤ m) else if 0 < a then r.le ((m - b) / a) else r.ge ((m - b) / a)

/-- The square of the time + `d` as a linear function of the time, where the time is a root of a polynomial of degree 2. -/
def RootAt.square (r : RootAt) (d : Rat) : Rat × Rat :=
  let p2 := r.p.getD 2 0
  (2 * d - r.p.getD 1 0 / p2, d * d - r.p.getD 0 0 / p2)

/-- R225: B_pred and B_time at a predicted crossing, `z` the newest edge's time and `v` the velocity there in the direction of motion as a linear
function of the time, with each ceiling taken of the exact value. -/
def boundCrossing (s : State) (i : Nat) (es : List Edge) (omega z : Rat) (r : RootAt) (v : Rat × Rat) : Option Int :=
  (gap es 0).map fun d =>
    let k : Rat := (2 ^ 24 : Rat) * accMax s i * (seconds 1 * seconds 1)
    let (a, b) := r.square (d - z)
    let acc := bisect (fun n => r.linLe (k * a) (k * b) n) 100 (-1) (2 ^ 90)
    let pred : Int := resOf s i + (ratAbs (omega / 16) / 16).ceil + acc
    bisect (fun m => r.linLe (-(m * v.1 / 16)) (16 * pred - m * v.2 / 16) 0) 40 (-1) (2 ^ 32)

/-- TIME-AT: the first time from T_fire on at which the coordinate reaches L in its direction (R223). -/
def timeAt (s : State) (i : Nat) (v : View) (l tf tq : W) : LensAns :=
  let none' (rev : Bool) : LensAns := ⟨tf + BitVec.ofNat 48 (2 ^ 47 - 1), none, false, false, true, rev, true⟩
  match usable v tq with
  | [] => none' false
  | e :: es =>
    let v := v.asOf tq (i = 4)
    let all := e :: es
    let c := motion (i = 4) v all
    let back := dirAt v all tf
    let sg : Rat := if back then -1 else 1
    -- times are in sixteenths relative to the tick in which the newest edge lies
    let base : BitVec 52 := stampOf ((e.stamp.extractLsb' 4 48))
    let z : Rat := (sd52 e.stamp base : Int)
    let rel (t : Int) : W := e.stamp.extractLsb' 4 48 + BitVec.ofInt 48 t
    let oldest := all.getLast?.getD e
    let start : Rat := max (sd52 (stampOf tf) base : Int) (sd52 oldest.stamp base : Int)
    let inner (j : Nat) : List Rat := lagrange (points base (spanEdges all j))
    let after := extrapPoly c z
    -- the curve and the edges that hold at T_fire
    let (curve, used) :=
      if z ≤ start then (after, if v.stop then [e] else all.take 4)
      else
        let j := bracket base start.floor all 0
        (inner j, spanEdges all j)
    let now : Rat := polyEval curve start
    -- the target as the unwrapped angle nearest the coordinate at T_fire
    let d : Int := (BitVec.ofInt 56 ((l.toNat : Int) * 256 - now.floor)).toInt
    let y : Rat := (now.floor : Rat) + d
    if v.stop || sg * y < sg * now then none' (used.any (·.rev))
    else
      let q (j : Nat) : List Rat := toward sg y (inner j)
      match (spansAfter base all start).find? fun r => decide (0 ≤ polyEval (q r.1) r.2.1) || reached (q r.1) r.2.1 r.2.2 with
      | some (j, lo, hi) =>
        ⟨rel (crossing 8 (q j) lo hi), timeMeas c.2.1 (boundMeas s i all c.2.1 j), false, false, false,
          (spanEdges all j).any (·.rev), false⟩
      | none =>
        let lo := max start z
        let p := toward sg y after
        let w0 := sg * (c.2.1 + 2 * c.2.2 * (lo - z))
        -- where the extrapolation turns, if it turns against the direction
        let top : Option Rat := if sg * c.2.2 < 0 then some (z - c.2.1 / (2 * c.2.2)) else none
        let falls : Bool := match top with | some h => decide (polyEval p h < 0) | none => false
        if polyEval p lo < 0 && (w0 ≤ 0 || falls) then none' true
        else
          let line := if c.2.1 = 0 then lo else z + (y - c.1) / c.2.1
          let hi := max lo (match top with | some h => h | none => if sg * c.2.1 ≤ 0 then lo + 2 ^ 60 else line)
          let r : RootAt := ⟨p, lo, hi⟩
          let measured := r.le (sd52 (stampOf tq) base : Int)
          let far := !r.le (z + 2 ^ 30 * 16)
          let b :=
            if far && !measured then boundMax
            else if measured then timeMeas c.2.1 (boundMeas s i all c.2.1 0)
            else if c.2.2 ≠ 0 ∧ polyEval p lo < 0 then
              boundCrossing s i all c.2.1 z r (sg * 2 * c.2.2, sg * (c.2.1 - 2 * c.2.2 * z))
            else
              let x := (if 0 ≤ polyEval p lo then lo else line) - z
              let w := ratAbs ((c.2.1 + 2 * c.2.2 * x) / 16)
              (boundPred s i all c.2.1 x).map fun b => if w = 0 then 2 ^ 32 else ((16 * b : Int) / w).ceil
          ⟨rel (crossing 8 p lo hi), b, far && !measured, false, false, (all.take 4).any (·.rev), !measured⟩

/-- The answer to a query with its bound word, from the state as of the tick boundary (R221, R224). -/
def lensAnswer (i : Nat) (isTime : Bool) (l tf : W) (s : State) : (W × W) × State :=
  let v := (s.coord i).view
  let now := v.asOf s.t (i = 4)
  let hold := now.hold || s.get F.lensStat_TB_STATE 0 = 3
  if !coordOn s i then
    ((0, boundWord true false hold (!v.refd) false false now.stop false (dirAt v (usable v s.t) tf) false (2 ^ 32 - 1)), s)
  else
    let a := if isTime then timeAt s i v l tf s.t else angleAt s i v l s.t
    let (b, s) := orBound a.bound s
    ((a.value, boundWord false a.beyond hold (!v.refd) a.stale a.nocross now.stop a.rev (dirAt v (usable v s.t) tf) a.pred b), s)

/-- LENS_QUERY: the oldest query at the Lens port is answered (R221). A k above 4 names no coordinate (R276). -/
def lensQuery (s : State) : State :=
  match s.net.lensQ with
  | [] => s
  | f :: rest =>
    let s := { s with net := { s.net with lensQ := rest } }
    let k := (reqAddr f.pay).toNat % 8
    if 4 < k || badReq f then send (errRsp f nodeHub s) (reqErr (loc 4 nodeHub) f s)
    else
      let tf := rebuildT s.t (reqArg f.pay)
      let ((v, b), s) := lensAnswer k (bits (reqAddr f.pay).toNat 3 1 = 1) (reqData f.pay) tf s
      respond nodeHub (reqRet f.pay) false 0 v b f.cls f.urg s

/-- R221. -/
def execLensQuery (s : State) : Host.Outcome State Fault Refusal := .next (unlessFatal lensQuery s)

/-- The instant at which the curve of a view at tick `t` reached an angle that the published value has just passed, relative to the tick
of `t`, in units of twice `h` sixteenths: on the recorded spans, or on the extrapolation of R214 up to `t`. -/
def instantOf (h : Rat) (i : Nat) (v : View) (t : W) (target : W) : Int :=
  match usable v t with
  | [] => 0
  | e :: es =>
    let v := v.asOf t (i = 4)
    let all := e :: es
    let base := stampOf t
    let z : Rat := (sd52 e.stamp base : Int)
    let sg : Rat := if e.back then -1 else 1
    let y : Rat := (e.ang : Rat) + (BitVec.ofInt 56 ((target.toNat : Int) * 256 - e.ang)).toInt
    if sg * (e.ang : Rat) < sg * y then
      let p := toward sg y (extrapPoly (motion (i = 4) v all) z)
      if reached p z 0 then crossing h p z 0 else 0
    else
      let q (j : Nat) : List Rat := toward sg y (lagrange (points base (spanEdges all j)))
      match (spansAfter base all (sd52 (all.getLast?.getD e).stamp base : Int)).reverse.find? fun r =>
          decide (polyEval (q r.1) r.2.1 ≤ 0) with
      | some (j, lo, hi) => crossing h (q j) lo hi
      | none => halfToTick ((z / h).floor) false

end Sys2Proof.Machine
end

