-- ==== Sys2Proof/Machine/Source.lean ====
section
/-!
DEFINITION. Sys2Proof/Machine/Source.lean: the source tokens that the hub creates (R141, R174, R180, R187) and the angle triggers
(R227–R231).
-/
namespace Sys2Proof.Machine
open Sys2Proof

/-- R141: the partition is paused for a reclaim step. -/
def pausedP (s : State) (p : Nat) : Bool := s.cl.reclaim.any fun r => r.part = p

/-- R230: a source's partition is one that runs in this tick: its sources begin to inject in the tick of its T_go (R180). -/
def srcRuns (s : State) (p : Nat) : Bool :=
  s.pRuns p || (s.pState p = pLoading && (mfind s.ap.goAt p).any fun go => decide (0 ≤ sdiff s.t go))

/-- A token of source `id` for partition `p`: its due is T_inj + D_s, its context 0, its epoch the current one (R180, R195, R229). -/
def sourceTok (s : State) (id p pkg die cl addr port : Nat) (data : W) : Token :=
  ⟨mkTag pkg die cl addr port p 0 (s.epoch p), sourceDue s id p, data, false⟩

/-- Create a source token in this tick: it counts as produced and meets the rate check of R187; the hub hands it over in the next tick, or
the source holds it then while the partition is paused. After the fatal decision no source makes a token (R389). -/
def createSource (id p : Nat) (t : Token) (s : State) : State :=
  if s.fatal then s else
  let s := countProd p (tagEpoch t.tag) (sourceRate id p s)
  { s with lens := { s.lens with made := s.lens.made ++ [(id, t)] } }

/-- A source holds a token of its own, or has made one that it will hold (R141). -/
def holdsToken (s : State) (id : Nat) : Bool := (s.lens.heldTok ++ s.lens.made).any fun h => h.1 = id

/-- Hand a token to the hub's ring stop (DEDUCED, log 111). -/
def handOver (t : Token) (s : State) : State :=
  let p := tagPart t.tag
  send (mkFlit 0 t.poison (tokPay t) [] p (startUrg s p (dueBand s t.due)) nodeHub) s

/-- Insert by source number, after those of the same number. -/
def insertId (x : Nat × Token) : List (Nat × Token) → List (Nat × Token)
  | [] => [x]
  | y :: l => if x.1 < y.1 then x :: y :: l else y :: insertId x l

/-- The boundary after their creation: source tokens are handed over in source-number order (R229, R231), and held ones of partitions
whose pause has ended with them. Tokens of a partition whose pause began since they were made are held at their source (R141). -/
def handOverMade (s : State) : State :=
  if s.fatal then s else
  let ready := s.lens.heldTok.filter fun x => !pausedP s (tagPart x.2.tag)
  let (hold, made) := s.lens.made.partition fun x => pausedP s (tagPart x.2.tag)
  let all := (ready ++ made).foldl (fun l x => insertId x l) []
  let s := { s with lens := { s.lens with made := [], heldTok := (s.lens.heldTok.filter fun x => pausedP s (tagPart x.2.tag)) ++ hold } }
  all.foldl (fun s x => handOver x.2 s) s

/-! ### Angle triggers (R227–R231) -/

/-- EN and TARGET of a trigger as of the tick boundary (R231). -/
def trigAtBoundary (s : State) (i : Nat) : Bool × W :=
  match mfind s.lens.trigOld i with
  | some x => x
  | none => (s.flag F.trigCfg_EN i, w48 (s.get F.trigTarget_VALUE i))

/-- A write of EN or TRIG_TARGET takes effect at the next boundary: what the boundary saw is kept (R231). -/
def keepTrig (i : Nat) (s : State) : State :=
  if (mfind s.lens.trigOld i).isSome then s
  else { s with lens := { s.lens with trigOld := mput s.lens.trigOld i (trigAtBoundary s i) } }

/-- A write of TRIG_CFG that gives EN: it overrides a firing's own clear of this tick (R231). -/
def noteEn (i : Nat) (touched : Bool) (s : State) : State :=
  if touched then { s with lens := { s.lens with trigEn := i :: s.lens.trigEn } } else s

/-- A write of TRIG_TARGET: it overrides Lens's own advance of this tick (R237). -/
def noteTarget (i : Nat) (s : State) : State := { s with lens := { s.lens with trigTgt := i :: s.lens.trigTgt } }

/-- A firing's own change of EN, and of TARGET; a write of the same field in this tick overrides it (R231, R237). -/
def trigDisarm (i : Nat) (s : State) : State := if s.lens.trigEn.contains i then s else s.set F.trigCfg_EN i 0
def trigMove (i : Nat) (v : Nat) (s : State) : State := if s.lens.trigTgt.contains i then s else s.set F.trigTarget_VALUE i v

/-- R228: the test of a crossing between two published values. -/
def crosses (back : Bool) (prev cur target : W) : Bool :=
  if back then decide (sdiff cur prev < 0 ∧ 0 < sdiff prev target ∧ sdiff cur target ≤ 0)
  else decide (0 < sdiff cur prev ∧ sdiff prev target < 0 ∧ 0 ≤ sdiff cur target)

/-- R230: the number of steps until a target lies ahead of a value. -/
def stepsPast (back : Bool) (cur target : W) (step : Nat) : Nat :=
  let d := if back then sdiff target cur else sdiff cur target
  if d < 0 ∨ step = 0 then 0 else d.toNat / step + 1

/-- A target moved by a number of steps in the trigger's direction. -/
def moveTarget (back : Bool) (target : W) (n step : Nat) : W :=
  if back then target - BitVec.ofNat 48 (n * step) else target + BitVec.ofNat 48 (n * step)

/-- R230: skips are counted and flagged, and raise LENS_TRIG_SKIP. -/
def trigSkip (i n : Nat) (s : State) : State :=
  if n = 0 then s
  else raiseAtBoundary 259 ((s.set F.trigCfg_SKIPS i (s.get F.trigCfg_SKIPS i + n)).set F.trigCfg_SKIP_EVT i 1)

/-- TRIGGER_CROSSING (R228–R231): an armed trigger is judged once at each boundary (DEDUCED, log 110). -/
def triggerCrossing (i : Nat) (s : State) : State :=
  let (en, target) := trigAtBoundary s i
  let x := s.get F.trigCfg_COORD i
  let c := s.coord x
  let back := s.flag F.trigCfg_DIR i
  if !en || c.jumped || mfind s.lens.trigAt i = some s.ticks || !crosses back c.prev c.pub target then s
  else
    let s := auxEvent fTrgo i { s with lens := { s.lens with trigAt := mput s.lens.trigAt i s.ticks } }
    let p := s.get F.trigCfg_PART i
    let step := s.get F.trigStep_VALUE i
    let n := stepsPast back c.pub target step
    let passed := if s.flag F.trigCfg_PERIODIC i then n - 1 else 0
    let s := if s.flag F.trigCfg_PERIODIC i then trigMove i (moveTarget back target n step).toNat s else trigDisarm i s
    if !srcRuns s p then (trigSkip i passed s).set F.trigCfg_DROP_EVT i 1
    else if pausedP s p && holdsToken s i then trigSkip i (passed + 1) s
    else
      let s := trigSkip i passed s
      let fires := mget 0 s.lens.fires i + 1
      let s := { s with lens := { s.lens with fires := mput s.lens.fires i fires } }
      let data : W :=
        match s.get F.trigCfg_DATA i with
        | 0 => s.t
        | 1 => s.t + BitVec.ofInt 48 (instantOf 8 x c.view s.t target)
        | 2 => c.pub
        | _ => w48 fires
      let t := sourceTok s i p (s.get F.trigDst_PKG i) (s.get F.trigDst_DIE i) (s.get F.trigDst_CLUSTER i)
        (s.get F.trigDst_ADDR i) (s.get F.trigDst_PORT i) data
      createSource i p t (s.inc F.trigCfg_FIRES i)

/-- R228. -/
def execTriggerCrossing (i : Fin 256) (s : State) : Host.Outcome State Fault Refusal := .next (unlessFatal (triggerCrossing i) s)

/-- R228: a jump carries the targets of armed periodic triggers along, with no skip and no token. -/
def carryTargets (x : Nat) (s : State) : State :=
  let c := s.coord x
  if !c.jumped then s
  else
    (List.range 256).foldl (fun s i =>
      let target := w48 (s.get F.trigTarget_VALUE i)
      let back := s.flag F.trigCfg_DIR i
      let past := if back then decide (0 < sdiff c.prev target ∧ sdiff c.pub target ≤ 0)
        else decide (sdiff c.prev target < 0 ∧ 0 ≤ sdiff c.pub target)
      if s.flag F.trigCfg_EN i && s.flag F.trigCfg_PERIODIC i && s.get F.trigCfg_COORD i = x && past then
        let step := s.get F.trigStep_VALUE i
        s.set F.trigTarget_VALUE i (moveTarget back target (stepsPast back c.pub target step) step).toNat
      else s) s

end Sys2Proof.Machine
end

