-- ==== Sys2Proof/Machine/Sample.lean ====
section
/-!
DEFINITION. Sys2Proof/Machine/Sample.lean: sample lanes, the interlock path and the source tokens of sample channels (chapter 09), with
the resampler (R232–R235).
-/
namespace Sys2Proof.Machine
open Sys2Proof

/-! ### Values in force at the boundary -/

/-- The value of a field that a write of this tick has not yet changed (R249, R259, R370). -/
def State.getB (s : State) (f : Fld) (i : Nat) : Nat := mget (s.get f i) s.old (f.key i)
def State.flagB (s : State) (f : Fld) (i : Nat) : Bool := s.getB f i ≠ 0

/-- Keep the value in force of a field that a write changes. -/
def keepOld (f : Fld) (i : Nat) (s : State) : State :=
  if (mfind s.old (f.key i)).isSome then s else { s with old := mput s.old (f.key i) (s.get f i) }

/-! ### Lanes -/

def Lane.empty : Lane := ⟨0, 0, false, 0, 0, 0, none, false, 0, 0, 0, false, 0, 0, false, 0, [], false, none, none⟩
def State.lane (s : State) (k : Nat) : Lane := mget Lane.empty s.sc.lanes k
def State.setLane (s : State) (k : Nat) (l : Lane) : State :=
  { s with sc := { s.sc with lanes := mset Lane.empty s.sc.lanes k l } }

/-- The lane is enabled for input, or for output. A write of EN acts from the next boundary on (R259). -/
def laneIn (s : State) (k : Nat) : Bool := s.flagB F.laneCfg_EN k && s.get F.laneCfg_DIR k = 1
def laneOut (s : State) (k : Nat) : Bool := s.flagB F.laneCfg_EN k && s.get F.laneCfg_DIR k = 2

/-! ### Interlock outputs (R260, R263, R265) -/

/-- The level driven on ILK_OUT[7:0]. -/
def ilkOut (s : State) : Nat :=
  s.get F.ilkStat_LATCH 0 ||| s.get F.ilkStat_FLAG 0 ||| s.get F.ilkForce_FORCE 0 ||| (if s.fatal then 255 else 0)

/-- Bit `k` of CH_FORCE as in force (R370). -/
def chForced (s : State) (c : Nat) : Bool := bits (s.getB F.chForce_CH (c / 32)) (c % 32) 1 = 1

/-- R265: the conditions that force an output channel. -/
def forceCond (s : State) (c : Nat) : Bool :=
  chForced s c || (s.getB F.chSafe_SAFE_ILK c &&& ilkOut s) ≠ 0 || s.fatal

/-- A force begins at once on the output channels whose condition holds. -/
def beginForces (s : State) : State :=
  (List.range 32).foldl (fun s k =>
    if !laneOut s k then s
    else (List.range 8).foldl (fun s j => if forceCond s (8 * k + j) then s.set F.chStat_FORCED (8 * k + j) 1 else s) s) s

/-- R266: at a tick boundary, the forced channels whose conditions have cleared: their forces end here (DESIGN CHOICE, log 109). -/
def endForces (s : State) : State :=
  { s with sc := { s.sc with ending := (List.range 256).filter fun c => s.flag F.chStat_FORCED c && !forceCond s c } }

/-- FORCE_RELEASE: a force that ends at this boundary: the register first takes the safe code (R266). -/
def forceRelease (c : Nat) (s : State) : State :=
  if !s.sc.ending.contains c then s
  else
    let s := s.set F.chStat_SAMPLE c (s.getB F.chSafe_SAFE c)
    let s := s.set F.chStat_FORCED c (b2n (forceCond s c))
    { s with sc := { s.sc with
      ending := s.sc.ending.filter (· ≠ c)
      fresh := if s.sc.fresh.contains c then s.sc.fresh else s.sc.fresh ++ [c] } }

/-- The first-trip log of output `k` takes a term (R263). -/
def logTrip (k src : Nat) (test : Bool) (index value : Nat) (at_ : BitVec 52) (s : State) : State :=
  let s := ((s.set F.ilkLog_SRC k src).set F.ilkLog_TEST k (b2n test)).set F.ilkLog_INDEX k index
  let s := (s.set F.ilkLog_VALUE k value).set F.ilkLog_VALID k 1
  (s.set F.ilkLogt_FRAC k (at_.toNat % 16)).set F.ilkLogt_T k (at_.toNat / 16)

/-- The log of output `k` holds a term that comes after this one: of a later instant, or of this very instant and later in R263's order. -/
def logsLater (s : State) (k src index : Nat) (at_ : BitVec 52) : Bool :=
  let d := sd52 at_ (BitVec.ofNat 52 (s.get F.ilkLogt_T k * 16 + s.get F.ilkLogt_FRAC k))
  s.flag F.ilkLog_VALID k && (decide (d < 0) || (d = 0
    && (decide (src < s.get F.ilkLog_SRC k) || (src = s.get F.ilkLog_SRC k && decide (index < s.get F.ilkLog_INDEX k)))))

/-- R263: a term sets the latches of a mask at an instant. A clear latch trips: the first trip is logged, and SC_TRIP and SV_EVT.TRIP
are raised. The log takes the term of the earliest instant, and of one instant the one with the lowest SRC, then the lowest INDEX, in whatever
order they come (DEDUCED, log 183). -/
def trip (mask src : Nat) (test : Bool) (index value : Nat) (at_ : BitVec 52) (s : State) : State :=
  let s := (List.range 8).foldl (fun s k =>
    if bits mask k 1 = 0 then s
    else if bits (s.get F.ilkStat_LATCH 0) k 1 = 1 then
      if logsLater s k src index at_ then logTrip k src test index value at_ s else s
    else
      let s := s.set F.ilkStat_LATCH 0 (s.get F.ilkStat_LATCH 0 + 2 ^ k)
      let s := s.set F.svEvt_TRIP 0 (s.get F.svEvt_TRIP 0 ||| 2 ^ k)
      let s := if s.flag F.ilkLog_VALID k then s else logTrip k src test index value at_ s
      raiseEvent (160 + k) s) s
  if mask = 0 then s else beginForces s

/-! ### Comparators (R258, R259, R264) -/

/-- The settings that a channel's registers hold. -/
def cmpRegs (s : State) (c : Nat) : CmpCfg :=
  ⟨s.get F.chLim_LOW c, s.get F.chLim_HIGH c, s.flag F.chCmp_HEN c, s.flag F.chCmp_LEN c, s.get F.chCmp_CONSEC c,
    s.flag F.chCmp_BADS c, s.get F.chCmp_HMAP c, s.get F.chCmp_LMAP c⟩

def Cmp.empty : Cmp := ⟨⟨0x800000, 0x7FFFFF, false, false, 0, false, 0, 0⟩, 0, 0, []⟩
def State.cmp (s : State) (c : Nat) : Cmp := mget Cmp.empty s.sc.cmps c
def State.setCmp (s : State) (c : Nat) (m : Cmp) : State := { s with sc := { s.sc with cmps := mset Cmp.empty s.sc.cmps c m } }

/-- After a write of CH_LIM or CH_CMP: the registers' values hold from the next boundary, and a change of HEN, LEN or CONSEC clears the
counts there. -/
def cmpWritten (c : Nat) (clear : Bool) (s : State) : State :=
  let m := s.cmp c
  s.setCmp c { m with pend := m.pend ++ [(s.t + 1, cmpRegs s c, clear)] }

/-- Settings whose boundary a reference instant has reached come into force. -/
def Cmp.apply (ref : BitVec 52) : List (W × CmpCfg × Bool) → Cmp → Cmp
  | [], m => { m with pend := [] }
  | (b, cfg, clear) :: rest, m =>
    if 0 ≤ sd52 ref (stampOf b) then
      Cmp.apply ref rest { m with cfg := cfg, hc := if clear then 0 else m.hc, lc := if clear then 0 else m.lc }
    else { m with pend := (b, cfg, clear) :: rest }

/-- One comparator on one sample: its new count, and whether it trips. -/
def compare (violates : Bool) (consec count : Nat) : Nat × Bool :=
  if !violates then (0, false) else if count + 1 = consec + 1 then (0, true) else (count + 1, false)

/-- The place, newest first, of the ILK_TEST setting in force at a reference instant (R259). -/
def testAt (s : State) (ref : BitVec 52) : Option Nat := s.sc.tests.findIdx? fun x => decide (0 ≤ sd52 ref (stampOf x.from_))

/-- A test sample is used: its setting is no longer armed, and ARM clears unless a later write has armed another (R264). -/
def testUsed (j : Nat) (s : State) : State :=
  let s := { s with sc := { s.sc with tests := s.sc.tests.zipIdx.map fun x => if x.2 = j then { x.1 with arm := false } else x.1 } }
  if j = 0 then s.set F.ilkTest_ARM 0 0 else s

/-- A received sample of channel `c` meets the comparators at its reference instant (R258, R264). `bad` marks a code error in its groups. -/
def interlock (c : Nat) (x : BitVec 24) (bad : Bool) (ref : BitVec 52) (s : State) : State :=
  let m := Cmp.apply ref (s.cmp c).pend (s.cmp c)
  let at_ := testAt s ref
  let set := (at_.bind fun j => s.sc.tests[j]?).filter fun x => x.arm && x.ch = c
  let test := set.isSome
  let x := match set with | some v => BitVec.ofNat 24 v.value | none => x
  let bad := bad && !test
  let s := if test then testUsed (at_.getD 0) s else s
  if bad && !m.cfg.bads then s.setCmp c m
  else
    let hv := m.cfg.hen && (bad || decide ((BitVec.ofNat 24 m.cfg.high).toInt < x.toInt))
    let lv := m.cfg.len && (bad || decide (x.toInt < (BitVec.ofNat 24 m.cfg.low).toInt))
    let (hc, ht) := compare hv m.cfg.consec m.hc
    let (lc, lt) := compare lv m.cfg.consec m.lc
    let s := s.setCmp c { m with hc := hc, lc := lc }
    let (v, s) := if bad && (ht || lt) then s.freeVal 24 else (x, s)
    let s := if ht then trip m.cfg.hmap 1 test c v.toNat ref (s.set F.chStat_HTRIP c 1) else s
    if lt then trip m.cfg.lmap 2 test c v.toNat ref (s.set F.chStat_LTRIP c 1) else s

/-! ### Lane states (R244, R245) -/

/-- Enter a lane state: a change clears every comparator count of the lane. -/
def laneState (k st : Nat) (s : State) : State :=
  let was := s.get F.laneStat_STATE k
  if was = st then s
  else
    let s := (List.range 8).foldl (fun s j => let c := 8 * k + j; s.setCmp c { s.cmp c with hc := 0, lc := 0 }) s
    let l := s.lane k
    let l := { l with
      soft := st = 3 && was = 4
      commas := if st = 1 then 0 else l.commas
      block := if st = 2 then 0 else l.block
      blockErr := if st = 2 then 0 else l.blockErr
      seq := if st = 4 then l.seq else none
      rxPos := if st ≤ 1 then 0 else l.rxPos
      rxOn := l.rxOn && st = 4 }
    (s.setLane k l).set F.laneStat_STATE k st

/-- R245: whether a lane is in lane fault. -/
def laneBad (s : State) (k : Nat) : Bool :=
  let l := s.lane k
  laneIn s k && ((s.get F.laneStat_STATE k ≠ 4 && !l.soft && l.enAt + 2 ^ 20 ≤ s.ticks) || (s.flagB F.laneCfg_HF_EN k && l.hdrBad))

/-- LANE_FAULT: the onset and the end of a lane fault, decided at an instant (R245). -/
def laneJudge (k : Nat) (at_ : BitVec 52) (s : State) : State :=
  let bad := laneBad s k
  if bad && !s.flag F.laneStat_FAULT k then
    let s := (s.set F.laneStat_FAULT k 1).set F.laneStat_FAULT_EVT k 1
    let s := holdFault 23 (loc 5 k) 0 s
    let s := raiseEvent (128 + k) (s.set F.svEvt_LANE 0 1)
    trip (s.getB F.laneCfg_LANE_ILK k) 3 false k 0 at_ s
  else if !bad && s.flag F.laneStat_FAULT k then dropFault 23 (loc 5 k) (s.set F.laneStat_FAULT k 0)
  else s

/-- CODE_ERROR: a code error in BIT_LOCK, ALIGNED or RUN, in a block of 1,024 groups (R240, R244). -/
def codeError (k block : Nat) (at_ : BitVec 52) (s : State) : State :=
  let st := s.get F.laneStat_STATE k
  if st < 2 ∨ 4 < st then s
  else
    let s := reportU 22 (loc 5 k) 0 (s.inc F.laneStat_CERR k)
    let l := s.lane k
    let n := if l.block = block then l.blockErr + 1 else 1
    let s := s.setLane k { l with block := block, blockErr := n }
    let lim := s.getB F.laneCfg_CERR_LIM k
    if lim ≠ 0 ∧ lim ≤ n then laneJudge k at_ (laneState k 1 s) else s

/-- LANE_COMMA: a comma at a 10-bit phase. What it decides, it decides at the end of its group (R262). -/
def laneComma (k phase : Nat) (at_ : BitVec 52) (s : State) : State :=
  if !laneIn s k then s
  else
    let ends := at_ + 100
    let l := s.lane k
    let st := s.get F.laneStat_STATE k
    if st = 1 then
      let n := if l.phase = phase then l.commas + 1 else 1
      let s := s.setLane k { l with phase := phase, commas := n }
      if 4 ≤ n then laneJudge k ends (laneState k 2 s) else s
    else if l.phase = phase then s
    else
      let s := laneJudge k ends (laneState k 1 s)
      s.setLane k { s.lane k with phase := phase, commas := 1 }

/-- R244. -/
def execLaneComma (k : Fin 32) (phase : Fin 10) (at_ : BitVec 52) (s : State) : Host.Outcome State Fault Refusal :=
  .next (laneComma k phase at_ s)

/-- LANE_ALIGN: the `n`-th of consecutive ALIGN groups at the locked phase (DEDUCED, log 107). -/
def laneAlign (k n : Nat) (at_ : BitVec 52) (s : State) : State :=
  let st := s.get F.laneStat_STATE k
  if !laneIn s k then s
  else if (st = 2 ∧ 64 ≤ n) ∨ (st = 4 ∧ 1 ≤ n) then laneJudge k (at_ + 100) (laneState k 3 s)
  else s

/-- R244. -/
def execLaneAlign (k : Fin 32) (n : Nat) (at_ : BitVec 52) (s : State) : Host.Outcome State Fault Refusal := .next (laneAlign k n at_ s)

/-- LANE_SOF_TIMEOUT: an instant from the end of group 2 × EXPECT on, counted from the last SOF as group 0, up to which none has come; the timeout
runs on in ALIGNED reached from RUN. An instant before that is no timeout. -/
def laneSofTimeout (k : Nat) (at_ : BitVec 52) (s : State) : State :=
  let st := s.get F.laneStat_STATE k
  let l := s.lane k
  if !laneIn s k || s.get F.laneCfg_EXPECT k = 0 || !(st = 4 || (st = 3 && l.soft)) then s
  else if sd52 at_ l.sofAt < 200 * s.get F.laneCfg_EXPECT k + 100 then s
  else laneJudge k at_ (laneState k 1 s)

/-- R244. -/
def execLaneSofTimeout (k : Fin 32) (at_ : BitVec 52) (s : State) : Host.Outcome State Fault Refusal := .next (laneSofTimeout k at_ s)

/-- LANE_GRACE_EXPIRY: 2^20 ticks after EN, a lane that is not in RUN enters lane fault. -/
def laneGraceExpiry (k : Nat) (s : State) : State := laneJudge k (stampOf s.t) s

/-- R245. -/
def execLaneGraceExpiry (k : Fin 32) (s : State) : Host.Outcome State Fault Refusal := .next (laneGraceExpiry k s)

/-! ### Frames (R241–R247, R257) -/

/-- The entries of a frame in the ingress FIFO. -/
def frameEntry (data : Nat) (fin last err : Bool) (pos : Nat) (t : BitVec 52) : PfEntry := ⟨data, 8, last, fin, err, pos, t, 0⟩

/-- R247: the sample of a slot. -/
def fmtSample (s : State) (k : Nat) (x : BitVec 24) : BitVec 24 := if s.flag F.laneCfg_FMT k then x ^^^ 0x800000 else x

/-- The frame that a lane receives ends here. -/
def rxStop (k : Nat) (s : State) : State := s.setLane k { s.lane k with rxPos := 0, rxOn := false, rxAcc := [] }

/-- A SOF with its leading edge at an instant: in ALIGNED or RUN it starts an accepted frame and is stamped (R244, R246); in BIT_LOCK its
frame only passes. -/
def rxSof (k : Nat) (start : BitVec 52) (s : State) : State :=
  if s.get F.laneStat_STATE k < 3 then s.setLane k { s.lane k with rxPos := 1 }
  else
    let s := laneJudge k start (laneState k 4 s)
    let t := start - BitVec.ofNat 52 (s.get F.laneTime_LATC k)
    let s := (s.set F.laneStamp_FRAC k (t.toNat % 16)).set F.laneStamp_T k (t.toNat / 16)
    s.setLane k { s.lane k with sofAt := start, rxPos := 1, rxOn := true, rxT := t, rxAcc := [] }

/-- The header group of an accepted frame (R243, R245). A header with a code error leaves no reference for SEQ (DEDUCED, log 150). -/
def rxHeader (k b : Nat) (bad : Bool) (ends : BitVec 52) (s : State) : State :=
  let s :=
    if bad then s.setLane k { s.lane k with seq := none }
    else
      let seq := b / 16
      let gap := match (s.lane k).seq with | some q => decide (seq ≠ (q + 1) % 16) | none => false
      let s := if gap then (s.inc F.laneStat_SEQERR k).set F.laneStat_SEQ_EVT k 1 else s
      let s := s.set F.laneStat_HEADER k b
      laneJudge k ends (s.setLane k { s.lane k with seq := some seq, hdrBad := bits b 2 2 ≠ 0 })
  pfPut k (frameEntry b true false bad 0 (s.lane k).rxT) s

/-- The third sample group of slot `j`: the sample after R247 meets the comparators (R258) and, with no code error, is the channel's. -/
def rxSample (k j : Nat) (xs : List (Nat × Bool)) (ends : BitVec 52) (s : State) : State :=
  let c := 8 * k + j
  let v := fmtSample s k (BitVec.ofNat 24 (xs.foldl (fun a x => a * 256 + x.1) 0))
  let bad := xs.any (·.2)
  let s := interlock c v bad ends s
  if bad then s else s.set F.chStat_SAMPLE c v.toNat

/-- The status group of slot `j`: the slot is complete, and its four entries go into the ingress FIFO (R257). -/
def rxSlot (k j b : Nat) (bad : Bool) (xs : List (Nat × Bool)) (s : State) : State :=
  let c := 8 * k + j
  let t := (s.lane k).rxT
  let s := if bad then s else s.set F.chStat_STATUS c b
  let v := (fmtSample s k (BitVec.ofNat 24 (xs.foldl (fun a x => a * 256 + x.1) 0))).toNat
  let e (i : Nat) : Bool := (xs.getD i (0, false)).2
  let put (d : Nat) (fin last e : Bool) (s : State) : State := pfPut k (frameEntry d fin last e (1 + j) t) s
  put b true (j = 7) bad (put (v % 256) false false (e 2) (put (bits v 8 8) false false (e 1) (put (bits v 16 8) false false (e 0) s)))

/-- A group at one of positions 1–33 of a frame, a data group or one with a code error (R241). In a frame that was not accepted it only
passes. -/
def rxByte (k b : Nat) (bad : Bool) (ends : BitVec 52) (s : State) : State :=
  let l := s.lane k
  let p := l.rxPos
  if p = 0 then s
  else
    let i := (p - 2) % 4
    let acc := if p = 1 ∨ i = 3 then [] else l.rxAcc ++ [(b, bad)]
    let s := s.setLane k { l with rxPos := if p = 33 then 0 else p + 1, rxAcc := acc }
    if !l.rxOn then s
    else if p = 1 then rxHeader k b bad ends s
    else if i = 2 then rxSample k ((p - 2) / 4) acc ends s
    else if i = 3 then rxSlot k ((p - 2) / 4) b bad l.rxAcc s
    else s

/-- A group of a lane in BIT_LOCK, ALIGNED or RUN: its code error, and what it is (R240, R241, R244). `block` is its block of 1,024 groups. -/
def rxGroup (k block : Nat) (start : BitVec 52) (g : LineCode) (s : State) : State :=
  let ends := start + 100
  let inFrame := (s.lane k).rxPos ≠ 0
  let err (b : Bool) (s : State) : State := if b then codeError k block ends s else s
  match g with
  | .data b => if inFrame then rxByte k b false ends s else err true s
  | .invalid => rxByte k 0 true ends (err true s)
  | .special b =>
    let s := rxStop k (err (inFrame || !([sofCode, alignCode, idleCode].contains b)) s)
    let st := s.get F.laneStat_STATE k
    if st < 2 ∨ 4 < st then s
    else if b = sofCode then rxSof k start s
    else if b = alignCode ∧ st = 4 then laneJudge k ends (laneState k 3 s)
    else s

/-- FRAME: groups arrive on an input lane, each checked and taken at its own instant (R240–R246) (DEDUCED, log 184). A lane that is not in
BIT_LOCK, ALIGNED or RUN takes none. -/
def frame (k : Nat) (f : FrameIn) (s : State) : State :=
  if !laneIn s k then s
  else
    (f.groups.zipIdx.foldl (fun (r : Bool × State) x =>
      let (g, i) := x
      let (rd, s) := r
      let st := s.get F.laneStat_STATE k
      (rdAfter g rd,
        if st < 2 ∨ 4 < st then s
        else rxGroup k (f.block + (f.pos.val + i) / 1024) (f.stamp + BitVec.ofNat 52 (100 * i)) (decode10 g rd) s)) (f.rd, s)).2

/-- R241. -/
def execFrame (k : Fin 32) (f : FrameIn) (s : State) : Host.Outcome State Fault Refusal := .next (frame k f s)

/-! ### Unpacking (R248, R257) -/

/-- The sample that a slot word holds. -/
def slotSample (k : Nat) (w : PfWord) (seq : Nat) (poison : Bool) : Sample :=
  let d := w.data.toNat
  ⟨8 * k + (w.pos - 1), BitVec.ofNat 24 (d % 256 * 65536 + bits d 8 8 * 256 + bits d 16 8), bits d 24 8, seq, w.t, poison⟩

/-- An unpacked sample waits for its token, and enters its channel's history. -/
def takeSample (x : Sample) (s : State) : State :=
  let h := mget [] s.sc.hist x.ch
  let n := match h with | e :: _ => e.n + 1 | [] => 0
  { s with sc := { s.sc with unpacked := s.sc.unpacked ++ [x], hist := mput s.sc.hist x.ch ((⟨n, s.ticks, x⟩ :: h).take 96) } }

/-- A capture tap takes a channel's sample: the top WIDTH bits, LAST on the last selected channel of the frame (R428) (DEDUCED, log 108). -/
def tapStream (c : Nat) (x : Sample) (s : State) : State :=
  let lane := x.ch / 8
  let j := x.ch % 8
  let mask := s.get F.capCfg_CHMASK c
  if s.get F.capCfg_MODE c ≠ 2 || !s.flag F.capCfg_EN c || s.get F.capCfg_LANE c ≠ lane || bits mask j 1 = 0 then s
  else
    let n := 8 * (s.get F.pfCfg_WIDTH (32 + c) + 1)
    let (v, s) := if x.poison then s.freeVal 24 else (x.x, s)
    pfPut (32 + c) ⟨v.toNat / 2 ^ (24 - n), n, mask / 2 ^ (j + 1) = 0, false, x.poison, 0, x.t, x.status⟩ s

def tapSample (x : Sample) (s : State) : State := (List.range 64).foldl (fun s c => tapStream c x s) s

/-- FIFO_WORD_READ: a word at the head of an ingress FIFO is checked and unpacked (R256, R257). -/
def fifoWordRead (k natural : Nat) (s : State) : State :=
  match pfTake k natural s with
  | (none, s) => s
  | (some (w, poison), s) =>
    let l := s.lane k
    if w.gap then (s.setLane k { l with unSkip := true }).set F.laneStat_SEQ_EVT k 1
    else if w.pos = 0 then
      let s := s.setLane k { l with unSkip := false, unSeq := bits w.data.toNat 4 4 }
      if w.err || poison then pfDrop k s else s
    else if l.unSkip then s
    else
      let x := slotSample k w l.unSeq (w.err || poison)
      tapSample x (takeSample x s)

/-- R257. -/
def execFifoWordRead (k : Fin 32) (err : Fin 3) (s : State) : Host.Outcome State Fault Refusal :=
  .next (unlessFatal (fifoWordRead k err) s)

/-! ### Tokens of sample channels (R248) -/

/-- The enabled resampler group that serves a channel: the lowest numbered one (R232). -/
def servedBy (s : State) (c : Nat) : Option Nat :=
  (List.range 8).find? fun g => (mfind s.lens.rsNext g).isSome && bits (s.get F.rsMask_CH (g * 8 + c / 32)) (c % 32) 1 = 1

/-- The data of a sample token. -/
def layoutData (layout : Nat) (x : BitVec 24) (status seq : Nat) (t : BitVec 52) : W :=
  let top := x.toNat * 2 ^ 24
  match layout with
  | 0 => BitVec.ofInt 48 x.toInt
  | 1 => w48 top
  | 2 => w48 (top + status % 256 * 2 ^ 16 + seq % 16 * 2 ^ 12)
  | _ => w48 (top + (t.toNat + 8) / 16 % 2 ^ 24)

/-- A token of channel `c` in this tick, or DROP_EVT when its partition does not run or it holds a token in a reclaim pause. -/
def channelToken (c : Nat) (data : W) (poison : Bool) (s : State) : State :=
  let p := s.get F.chCfg_PART c
  if !srcRuns s p || (pausedP s p && holdsToken s (256 + c)) then s.set F.chStat_DROP_EVT c 1
  else
    let t := sourceTok s (256 + c) p (s.get F.chDst_PKG c) (s.get F.chDst_DIE c) (s.get F.chDst_CLUSTER c)
      (s.get F.chDst_ADDR c) (s.get F.chDst_PORT c) data
    createSource (256 + c) p { t with poison := poison } s

/-- SAMPLE_TOKEN: the samples unpacked in the tick before make their tokens. -/
def sampleTokens (s : State) : State :=
  let xs := s.sc.unpacked
  let s := { s with sc := { s.sc with unpacked := [] } }
  xs.foldl (fun s x =>
    if !s.flag F.chCfg_EN x.ch || (servedBy s x.ch).isSome then s
    else
      let data := if x.poison then poisonData causeUncorr (x.ch / 8)
        else layoutData (s.get F.chCfg_LAYOUT x.ch) x.x x.status x.seq x.t
      channelToken x.ch data x.poison s) s

/-! ### The resampler (R232–R235) -/

/-- GRID_POINT: the group's coordinate has crossed its next grid point: every channel that the group serves waits for its samples. -/
def gridPoint (g : Nat) (s : State) : State :=
  match mfind s.lens.rsNext g with
  | none => s
  | some m =>
    let i := s.get F.rsCfg_A_COORD g
    let c := s.coord i
    let target : W := w48 (s.get F.rsStart_VALUE g) + BitVec.ofNat 48 (m * s.get F.rsStep_VALUE g)
    if c.jumped || !crosses false c.prev c.pub target then s
    else
      let t := stampOf s.t + BitVec.ofInt 52 (instantOf (1 / 2) i c.view s.t target)
      let s := { s with lens := { s.lens with rsNext := mput s.lens.rsNext g (m + 1) } }
      (List.range 256).foldl (fun s ch =>
        if servedBy s ch = some g then { s with sc := { s.sc with grid := mpush s.sc.grid ch ⟨g, m, t⟩ } } else s) s

/-- R233. -/
def execGridPoint (g : Fin 8) (s : State) : Host.Outcome State Fault Refusal := .next (unlessFatal (gridPoint g) s)

/-- Coefficient `j` of the table (R234). -/
def rscCoef (s : State) (j : Nat) : Int :=
  match mfind s.lens.rsc j with
  | some v => (BitVec.ofNat 24 v).toInt
  | none => rscDefault j

/-- The 24-bit output of 32 samples, newest first, at phase `p` (R233). -/
def polyphase (s : State) (p : Nat) (xs : List Hist) : BitVec 24 :=
  let sum := xs.zipIdx.foldl (fun (a : Int) (x, k) => a + rscCoef s (1024 * k + p) * x.s.x.toInt) 0
  let y := rneRat ((sum : Rat) / 2 ^ 22)
  BitVec.ofInt 24 (max (-(2 ^ 23)) (min (2 ^ 23 - 1) y))

/-- The sample number n0 and phase of a grid time in a history, newest first, or none while sample n0 + 1 has not been received. The
sample period is the interval to the next sample. -/
def gridPhase (t : BitVec 52) : List Hist → Option (Nat × Nat)
  | a :: b :: rest =>
    if sd52 a.s.t t ≤ 0 then none
    else if sd52 b.s.t t ≤ 0 then
      let p := rneRat ((1024 * sd52 t b.s.t : Int) / ((sd52 a.s.t b.s.t : Int) : Rat))
      if p = 1024 then some (a.n, 0) else some (b.n, p.toNat)
    else gridPhase t (b :: rest)
  | _ => none

/-- R235: a grid point counts once in its group's SKIPS, however many channels skip it (DEDUCED, log 106). -/
def gridSkip (q : GridPt) (s : State) : State :=
  let live := s.sc.skipped.filter fun x => s.sc.grid.any fun e => e.2.contains x
  if s.sc.skipped.contains q then { s with sc := { s.sc with skipped := live } }
  else
    let s := { s with sc := { s.sc with skipped := live ++ [q] } }
    raiseAtBoundary 260 ((s.inc F.rsCfg_SKIPS q.g).set F.rsCfg_SKIP_EVT q.g 1)

/-- RESAMPLER_TOKEN: the oldest grid point of a channel whose sample n0 + 16 was received before this tick makes its token (R235). Samples
of before the history are open, and a grid point before them has no n0 and goes (DESIGN CHOICE, log 102). -/
def resamplerToken (ch : Nat) (s : State) : State :=
  match mget [] s.sc.grid ch with
  | [] => s
  | q :: rest =>
    let h := (mget [] s.sc.hist ch)
    let drop (s : State) : State := { s with sc := { s.sc with grid := mlist s.sc.grid ch rest } }
    match gridPhase q.t h with
    | none => if (h.getLast?.map fun x => decide (0 < sd52 x.s.t q.t)).getD false then drop s else s
    | some (n0, p) =>
      if !(h.any fun x => x.n = n0 + 16 && x.tick < s.ticks) then s
      else
        let o := mget (0, 0) s.sc.outs ch
        let cnt := if o.1 = n0 + 1 then o.2 else 0
        if 2 ≤ cnt then gridSkip q (drop s)
        else
          let s := drop { s with sc := { s.sc with outs := mput s.sc.outs ch (n0 + 1, cnt + 1) } }
          let xs := h.filter fun x => decide (x.n ≤ n0 + 16 ∧ n0 < x.n + 16)
          let full := xs.length = 32
          let (y, s) := if full then (polyphase s p xs, s) else s.freeVal 24
          let poison := xs.any (·.s.poison)
          let status := xs.foldl (fun a x => a ||| x.s.status) 0
          let (seq, s) := s.freeVal 4
          let data := if poison then poisonData causeUncorr (ch / 8)
            else layoutData (s.get F.chCfg_LAYOUT ch) y status seq.toNat q.t
          if !s.flagB F.chCfg_EN ch then s else channelToken ch data poison s

/-- R235. -/
def execResamplerToken (ch : Fin 256) (s : State) : Host.Outcome State Fault Refusal := .next (unlessFatal (resamplerToken ch) s)

/-! ### Output lanes (R250, R251, R265–R267) -/

/-- The 64-bit timestamp of the current tick (R47). -/
def State.stamp64 (s : State) : Nat := s.era.toNat * 2 ^ 48 + s.t.toNat

/-- The channels of a lane, each once, join those whose register took a value since the last capture (R242). -/
def freshen (l : List Nat) (s : State) : State :=
  { s with sc := { s.sc with fresh := s.sc.fresh ++ l.filter fun c => !s.sc.fresh.contains c } }

/-- A change of LANE_CFG.EN comes into force at a tick boundary. An input lane searches for commas; an output lane sends 64 ALIGN groups from
the first group boundary, at negative disparity, and its registers take their safe codes (R240, R244, R250, R251). -/
def laneEnabled (k : Nat) (s : State) : State :=
  let l := s.lane k
  let chans := (List.range 8).map fun j => 8 * k + j
  if laneIn s k then
    laneState k 1 (s.setLane k { Lane.empty with enAt := s.ticks, unSkip := l.unSkip, unSeq := l.unSeq })
  else if laneOut s k && !s.fatal then
    let first := (s.stamp64 * 16 + 99) / 100
    let s := s.setLane k { l with phi := (first + 64) * 256, enAt := s.ticks, txRd := false, latch := none, forced := none }
    let s := freshen chans (chans.foldl (fun s c => s.set F.chStat_SAMPLE c (s.get F.chSafe_SAFE c)) s)
    beginForces (laneState k 5 s)
  else
    let s := laneState k 0 s
    let s := chans.foldl (fun s c => s.set F.chStat_FORCED c 0) s
    let s := s.setLane k { s.lane k with hdrBad := false, soft := false, latch := none, forced := none }
    laneJudge k (stampOf s.t) s

/-- R265, R266: the channel is forced, and its force does not end at this boundary. -/
def forcedNow (s : State) (c : Nat) : Bool := (s.flag F.chStat_FORCED c && !s.sc.ending.contains c) || forceCond s c

/-- The slot of a channel in a frame: its code as sent and its status byte (R242, R247, R265). -/
def txSlot (s : State) (c : Nat) (forced : Bool) : Nat × Nat :=
  let code := if forced then s.getB F.chSafe_SAFE c else s.get F.chStat_SAMPLE c
  let code := if s.flag F.laneCfg_FMT (c / 8) then code ^^^ 0x800000 else code
  (code, b2n forced * 128 + b2n (s.sc.fresh.contains c) * 64)

/-- The capture boundary of a lane's next frame: the last tick boundary at least 4 ticks before its SOF (R251). -/
def Lane.capture (l : Lane) : Nat := ((l.phi + 255) / 256 * 100 - 64) / 16

/-- The lane captures at the boundary of this tick. -/
def captures (s : State) (k : Nat) : Bool :=
  let st := s.get F.laneStat_STATE k
  let l := s.lane k
  laneOut s k && (st = 6 || (st = 5 && !s.fatal)) && l.latch.isNone && decide (l.capture ≤ s.stamp64)

/-- R251: at a lane's capture boundary the forces and the fatal state are taken as they stand there. -/
def noteForced (k : Nat) (s : State) : State :=
  if !captures s k then s
  else s.setLane k { s.lane k with forced := some ((List.range 8).map fun j => forcedNow s (8 * k + j), s.fatal) }

/-- The tick of a lane's capture boundary ends: every value that took effect at that boundary or before is latched for the frame, with the forces
that stood at the boundary. -/
def captureLane (k : Nat) (s : State) : State :=
  let l := s.lane k
  if l.latch.isSome || !(l.forced.isSome || captures s k) then s
  else
    let (forced, fatal) := l.forced.getD ((List.range 8).map fun j => forcedNow s (8 * k + j), s.fatal)
    let s := s.setLane k { l with
      latch := some ((List.range 8).map fun j => txSlot s (8 * k + j) (forced.getD j false), fatal), forced := none }
    { s with sc := { s.sc with fresh := s.sc.fresh.filter fun c => c / 8 ≠ k } }

/-- What Sample does as a tick ends: a force that ended at its boundary is over, and the captures of that boundary close. -/
def sampleTickEnd (s : State) : State :=
  let s := s.sc.ending.foldl (fun s c => forceRelease c s) s
  (List.range 32).foldl (fun s k => captureLane k s) s

/-- The bytes of a frame as groups: SOF, header and slots (R241). -/
def frameBytes (header : Nat) (slots : List (Nat × Nat)) : List (Bool × Nat) :=
  (true, sofCode) :: (false, header) ::
    slots.flatMap fun x => [(false, bits x.1 16 8), (false, bits x.1 8 8), (false, x.1 % 256), (false, x.2)]

/-- OUTPUT_FRAME: the next frame of an output lane goes with what its capture boundary latched (R250, R251). The ALIGN groups before the
first frame and the IDLE groups between frames leave the disparity as it is. -/
def outputFrame (k : Nat) (s : State) : State :=
  let l := s.lane k
  match l.latch with
  | none => s
  | some (slots, fatal) =>
    if !(laneOut s k) || (s.get F.laneStat_STATE k = 5 && s.fatal) then s
    else
      let any := slots.any fun x => 128 ≤ x.2
      let header := l.txSeq % 16 * 16 + b2n any * 8 + b2n fatal * 4
      let (line, rd) := encodeRun l.txRd (frameBytes header slots)
      let s := laneState k 6 s
      let s := s.setLane k { s.lane k with phi := l.phi + s.get F.laneTx_OFPER k, txSeq := (l.txSeq + 1) % 16, txRd := rd, latch := none, forced := none }
      let s := s.set F.laneStat_HEADER k header
      let s := slots.zipIdx.foldl (fun s (x, j) => s.set F.chStat_STATUS (8 * k + j) x.2) s
      { s with sc := { s.sc with tx := mput s.sc.tx k ⟨header, slots, line⟩ } }

/-- R250. -/
def execOutputFrame (k : Fin 32) (s : State) : Host.Outcome State Fault Refusal := .next (outputFrame k s)

/-- R266. -/
def execForceRelease (c : Fin 256) (s : State) : Host.Outcome State Fault Refusal := .next (forceRelease c s)

/-! ### Writes by the supervisor (R264, R368–R370) -/

/-- ILK_REL: the named trip latches are released. -/
def ilkRelease (mask : Nat) (s : State) : State :=
  let m := s.get F.ilkStat_LATCH 0
  s.set F.ilkStat_LATCH 0 (m - (m &&& mask))

/-- The lanes with a field that was written in the tick before. -/
def lanesWritten (f : Fld) (s : State) : List Nat := (List.range 32).filter fun k => (mfind s.old (f.key k)).isSome

/-- What Sample does at a tick boundary: the supervisor's writes of the tick before come into force, so that lanes start and end, header faults
are judged (R245) and forces begin (R265, R370); forces whose conditions have cleared end, and unpacked samples make their tokens. -/
def sampleTick (s : State) : State :=
  let en := (lanesWritten F.laneCfg_EN s).filter fun k => s.flagB F.laneCfg_EN k ≠ s.flag F.laneCfg_EN k
  let hf := lanesWritten F.laneCfg_HF_EN s
  let s := { s with old := [] }
  let s := en.foldl (fun s k => laneEnabled k s) s
  let s := hf.foldl (fun s k => laneJudge k (stampOf s.t) s) s
  let s := endForces (beginForces s)
  sampleTokens ((List.range 32).foldl (fun s k => noteForced k s) s)

end Sys2Proof.Machine
end

