-- ==== Sys2Proof/Machine/Time.lean ====
section
/-!
DEFINITION. Sys2Proof/Machine/Time.lean: the time base (R204–R209), chain time (R438) and what Lens does at a tick boundary.
-/
namespace Sys2Proof.Machine
open Sys2Proof

/-- R204, R408: the source that disciplines the tick: chain time on a package that is not the head once an ENUM has reached it, else what REF_SRC names. -/
def tbSource (s : State) : Nat :=
  if (s.chainLen ≠ 0 ∨ s.chain.got) ∧ s.get F.devId_HEAD 0 = 0 then 2 else s.get F.lensCtl_REF_SRC 0

/-- Enter HOLDOVER (R204, R209). -/
def enterHoldover (s : State) : State :=
  raiseEvent 249 (((s.set F.lensStat_TB_STATE 0 3).set F.lensStat_HOLD_EVT 0 1).set F.chainTm_LOCK 0 0)

/-- A change of source: the time base starts over with it. -/
def takeSource (s : State) : State :=
  let src := tbSource s
  if src = s.lens.src then s
  else
    let s := { s with lens := { s.lens with src := src, goodTicks := 0, chainGood := 0, chainLast := s.ticks } }
    let s := s.set F.chainTm_LOCK 0 0
    match src with
    | 1 => s.set F.lensStat_TB_STATE 0 (if s.flag F.lensStat_REF_PRESENT 0 then 1 else 0)
    | 2 => s.set F.lensStat_TB_STATE 0 4
    | _ => s.set F.lensStat_TB_STATE 0 0

/-- R204: LOCKED is reached after 1 s of a frequency error below 0.01 ppm, and left when the error is larger (DEDUCED, log 104). -/
def judgeFreq (ok : Bool) (s : State) : State :=
  let st := s.get F.lensStat_TB_STATE 0
  if st ≠ 1 ∧ st ≠ 2 then s
  else if !ok then { s with lens := { s.lens with goodTicks := 0 } }.set F.lensStat_TB_STATE 0 1
  else
    let n := s.lens.goodTicks + 1
    let s := { s with lens := { s.lens with goodTicks := n } }
    if 250000000 ≤ n then s.set F.lensStat_TB_STATE 0 2 else s

/-- R205: the correction in force: none without a source, held in HOLDOVER, else open within ±SLEW_PPM (DESIGN CHOICE, log 101). -/
def freqAdj (s : State) : State :=
  let st := s.get F.lensStat_TB_STATE 0
  if st = 0 then s.set F.lensStat_FREQ_ADJ 0 0
  else if st = 3 then s
  else
    let lim := s.get F.lensCtl_SLEW_PPM 0 * 1000
    let (v, s) := s.freeVal 24
    s.set F.lensStat_FREQ_ADJ 0 (BitVec.ofInt 24 (((v.toNat % (2 * lim + 1) : Nat) : Int) - lim)).toNat

/-- R47, R205, R206: the step of T, or the value that a T_LOAD brings at this boundary. The era is written to VBAT with it (DESIGN CHOICE, log 11). -/
def stepT (s : State) : State :=
  match s.lens.load with
  | some (t, e, false) => { s with t := t, era := e, ticks := s.ticks + 1, lens := { s.lens with load := none } }
  | _ => { s with t := s.t + 1, era := if s.t + 1 = 0 then s.era + 1 else s.era, ticks := s.ticks + 1 }

/-- R232: the number of the first grid point ahead of a value. -/
def alignGrid (start : W) (step m : Nat) (x : W) : Nat :=
  let d := sdiff (start + BitVec.ofNat 48 (m * step)) x
  if step = 0 then m
  else if 0 < d then m - min m ((d.toNat - 1) / step)
  else m + (-d).toNat / step + 1

/-- EN of the resampler groups takes effect, and their next grid points follow the coordinate (R232, R235). -/
def alignGroups (s : State) : State :=
  (List.range 8).foldl (fun s g =>
    let c := s.coord (s.get F.rsCfg_A_COORD g)
    let start := w48 (s.get F.rsStart_VALUE g)
    let step := s.get F.rsStep_VALUE g
    let next :=
      if !s.flag F.rsCfg_EN g then mdel s.lens.rsNext g
      else
        match mfind s.lens.rsNext g with
        | none => mput s.lens.rsNext g (alignGrid start step 0 c.pub)
        | some m => mput s.lens.rsNext g (alignGrid start step m (if c.jumped then c.pub else c.prev))
    { s with lens := { s.lens with rsNext := next } }) s

/-- R236: PPS_MEAS shows a phase error four ticks after its edge. -/
def ppsShow (s : State) : State :=
  let (now, rest) := s.lens.ppsDue.partition fun x => decide (x.1 ≤ s.ticks)
  now.foldl (fun s x => (s.set F.ppsMeas_ERROR 0 x.2).inc F.ppsMeas_COUNT 0) { s with lens := { s.lens with ppsDue := rest } }

/-- What Lens does at a tick boundary, after T has stepped: it hands over the tokens of the tick before, publishes the coordinates, and
sends TIME when T is a multiple of 4,096 (R208, R215, R229, R438). -/
def lensTick (freqOk : Bool) (s : State) : State :=
  let s := freqAdj (judgeFreq freqOk (takeSource s))
  let s := handOverMade (ppsShow { s with lens := { s.lens with trigOld := [], trigEn := [], trigTgt := [] } })
  let s := (List.range 5).foldl (fun s i => carryTargets i (publish i s)) s
  let s := alignGroups s
  if s.t.toNat % 4096 = 0 then sendCtl false 0x33 s.t (sendCtl true 0x33 s.t s) else s

/-! ### T_LOAD and PPS (R206, R207) -/

/-- A full write of T_LOAD, accepted before enumeration. -/
def tLoad (t : W) (era : BitVec 16) (s : State) : State :=
  let wait := s.flag F.lensCtl_PPS_EN 0 && s.flag F.lensStat_PPS_PRESENT 0
  { s with lens := { s.lens with load := some (t, era, wait) } }

/-- PPS alignment is honoured on the head or a single package in ACQUIRE or LOCKED (R207). -/
def ppsHonoured (s : State) : Bool :=
  s.lens.src = 1 && (s.get F.lensStat_TB_STATE 0 = 1 || s.get F.lensStat_TB_STATE 0 = 2)

/-- R207: the phase error of a stamp on the 64-bit timestamp, in sixteenths. -/
def phaseError (stamp : Nat) : Int :=
  let m := 4000000000
  let r := stamp % m
  if r ≤ m / 2 then r else (r : Int) - m

/-- PPS_EDGE: an edge in the current tick, `frac` sixteenths after its boundary (R206, R207). -/
def ppsEdge (frac : Nat) (rising : Bool) (s : State) : State :=
  if rising == s.flag F.lensCtl_PPS_POL 0 then s
  else
    let s := (s.set F.lensStat_PPS_PRESENT 0 1)
    let s := { s with lens := { s.lens with ppsLast := s.ticks } }
    let s := match s.lens.load with
      | some (t, e, true) => { s with t := t, era := e, lens := { s.lens with load := none } }
      | _ => s
    if !s.flag F.lensCtl_PPS_EN 0 then s
    else
      let stamp := (s.era.toNat * 2 ^ 48 + s.t.toNat) * 16 + frac + 2 ^ 68 - s.get F.ppsCfg_DELAY 0
      let e := phaseError (stamp % 2 ^ 68)
      let s := { s with lens := { s.lens with ppsDue := s.lens.ppsDue ++ [(s.ticks + 4, (BitVec.ofInt 32 e).toNat)] } }
      let good := if e.natAbs ≤ 2 ∧ ppsHonoured s then s.lens.ppsGood + 1 else 0
      let s := { s with lens := { s.lens with ppsGood := good } }
      if 16 < e.natAbs then s.set F.lensStat_PPS_ALIGNED 0 0
      else if 4 ≤ good then s.set F.lensStat_PPS_ALIGNED 0 1 else s

/-- R207. -/
def execPpsEdge (frac : Fin 16) (rising : Bool) (s : State) : Host.Outcome State Fault Refusal := .next (ppsEdge frac rising s)

/-- PPS_TIMEOUT: 2 s without a PPS edge (R207). -/
def ppsTimeout (s : State) : State :=
  if !s.flag F.lensStat_PPS_PRESENT 0 || s.ticks < s.lens.ppsLast + 500000000 then s
  else
    let s := { s with lens := { s.lens with ppsGood := 0 } }
    (s.set F.lensStat_PPS_PRESENT 0 0).set F.lensStat_PPS_ALIGNED 0 0

/-- R207. -/
def execPpsTimeout (s : State) : Host.Outcome State Fault Refusal := .next (ppsTimeout s)

/-! ### Loss and return of the reference (R202, R204, R209) -/

/-- REF_LOSS: 2 µs without an edge of REF10M_IN. -/
def refLoss (s : State) : State :=
  let st := s.get F.lensStat_TB_STATE 0
  let s := s.set F.lensStat_REF_PRESENT 0 0
  if st = 1 ∨ st = 2 then enterHoldover s else s

/-- R204. -/
def execRefLoss (s : State) : Host.Outcome State Fault Refusal := .next (refLoss s)

/-- REFERENCE_RETURN: REF10M_IN toggles again, or TIME words arrive again. -/
def referenceReturn (chain : Bool) (s : State) : State :=
  let st := s.get F.lensStat_TB_STATE 0
  if chain then
    if s.lens.src = 2 ∧ st = 3 ∧ s.ticks < s.lens.chainLast + 65536 then
      { s with lens := { s.lens with chainGood := 0 } }.set F.lensStat_TB_STATE 0 4
    else s
  else
    let s := s.set F.lensStat_REF_PRESENT 0 1
    if s.lens.src = 1 ∧ (st = 0 ∨ st = 3) then { s with lens := { s.lens with goodTicks := 0 } }.set F.lensStat_TB_STATE 0 1 else s

/-- R204. -/
def execReferenceReturn (chain : Bool) (s : State) : Host.Outcome State Fault Refusal := .next (referenceReturn chain s)

/-- CHAIN_TIME_LOSS: 65,536 ticks without a TIME word from upstream (R209). -/
def chainTimeLoss (s : State) : State :=
  let st := s.get F.lensStat_TB_STATE 0
  if (st ≠ 4 ∧ st ≠ 5) ∨ s.ticks < s.lens.chainLast + 65536 then s
  else dropFault 21 (loc 0 s.pkg) (enterHoldover { s with lens := { s.lens with chainGood := 0 } })

/-- R209. -/
def execChainTimeLoss (s : State) : Host.Outcome State Fault Refusal := .next (chainTimeLoss s)

/-! ### TIME and TECHO (R208, R209, R438) -/

/-- The offset of a TIME word from upstream is judged: 16 good words lock, and a large offset in lock is a skew fault. The filter of R208 is
not given, so the filtered OFFSET is open. -/
def judgeOffset (word : W) (stamp : BitVec 52) (s : State) : State :=
  let off := sd52 (stamp - BitVec.ofNat 52 (s.get F.chainTm_DELAY 0)) (stampOf word)
  let good := if off.natAbs ≤ 2 then s.lens.chainGood + 1 else 0
  let s := { s with lens := { s.lens with chainGood := good, chainLast := s.ticks } }
  let s := s.setFree F.chainTm_OFFSET 0
  let st := s.get F.lensStat_TB_STATE 0
  if st = 4 ∧ 16 ≤ good then (s.set F.lensStat_TB_STATE 0 5).set F.chainTm_LOCK 0 1
  else if st = 5 ∧ 8 < off.natAbs then holdFault 21 (loc 0 s.pkg) 0 (s.set F.lensStat_SKEW_EVT 0 1)
  else dropFault 21 (loc 0 s.pkg) s

/-- R435: the content of a TECHO block: T[31:0] of the TIME echoed, and HOLD. -/
def echoContent (word : W) (hold : Nat) : W := w48 (hold * 2 ^ 32 + word.toNat % 2 ^ 32)

/-- TIME: a word from the upstream or the downstream neighbour is stamped and echoed; `hold` is the time to the echo's send stamp. -/
def timeWord (up : Bool) (word : W) (stamp : BitVec 52) (hold : Nat) (intact : Bool) (s : State) : State :=
  if !cpUp s (sideOf up) then s
  else if !intact then badCtl up s
  else
    let s := sendCtl up 0x36 (echoContent word hold) s
    if up ∧ s.lens.src = 2 then judgeOffset word stamp s else s

/-- R208. -/
def execTime (up : Bool) (word : W) (stamp : BitVec 52) (hold : BitVec 16) (blk : CtlIn) (s : State) :
    Host.Outcome State Fault Refusal :=
  .next (timeWord up word stamp hold.toNat (ctlGood 0x33 word blk) s)

/-- TECHO: the round trip of a TIME word sent at `sent` gives the one-way delay, which CHAIN_TM shows for the upstream link (R208, R438)
(DEDUCED, log 105). -/
def techo (up : Bool) (sent received : BitVec 52) (hold : Nat) (intact : Bool) (s : State) : State :=
  if !cpUp s (sideOf up) then s
  else if !intact then badCtl up s
  else if up then { s with chain := { s.chain with measUp := true } }.set F.chainTm_DELAY 0 (((sd52 received sent - hold) / 2).toNat)
  else { s with chain := { s.chain with measDown := true } }

/-- R438. -/
def execTecho (up : Bool) (sent received : BitVec 52) (hold : BitVec 16) (blk : CtlIn) (s : State) :
    Host.Outcome State Fault Refusal :=
  .next (techo up sent received hold.toNat (ctlGood 0x36 (echoContent (sent.extractLsb' 4 48) hold.toNat) blk) s)

end Sys2Proof.Machine
end

