-- ==== Sys2Proof/Machine/Sched.lean ====
section
/-!
DEFINITION. Sys2Proof/Machine/Sched.lean: thread slots and offers, the event router, timers, hardware locks, mailboxes and injection queues
(chapter 13).
-/
namespace Sys2Proof.Machine
open Sys2Proof

/-! ### Thread slots and offers (R339, R340, R345) -/

def thrFree : Nat := 0
def thrBlocked : Nat := 1
def thrReady : Nat := 2
def thrRunning : Nat := 3

/-- Slot `i` enters READY: its READY_T is the place of this moment in the order of such entries. -/
def toReady (i : Nat) (s : State) : State :=
  { s with sched := { s.sched with readyT := mput s.sched.readyT i s.sched.order, order := s.sched.order + 1 } }.set F.thrCfg_STATE i
    thrReady

/-- The slot RUNNING on core `k`. -/
def runningOn (s : State) (k : Nat) : Option Nat :=
  (List.range 256).find? fun i => s.get F.thrCfg_STATE i = thrRunning && s.get F.thrCfg_CORE i = k

/-- R345: the wake condition of a slot: a pending enabled source that wakes it. -/
def wakes (s : State) (i : Nat) : Bool :=
  (List.range 512).any fun n =>
    s.flag F.evCfg_EN n && s.flag F.evCfg_SLOT_EN n && s.get F.evCfg_SLOT n = i && s.flag F.evCfg_PEND n

/-- The order of candidates for core `k`: PRIO, then LAST = k, then READY_T, then the slot number. A slot that has not run has no LAST (DEDUCED,
log 187). -/
def candRank (s : State) (k i : Nat) : Int :=
  let last := s.flag F.thrCfg_LAST_VALID i && s.get F.thrCfg_LAST i = k
  ((s.get F.thrCfg_PRIO i * 2 + b2n (!last)) * 2 ^ 64 + mget 0 s.sched.readyT i) * 256 + i

/-- The pass of R340 for cores `k`, `k + 1`, …, with the slots that lower cores took. -/
def offersFrom (s : State) (taken : List Nat) : Nat → Nat → List (Option Nat)
  | 0, _ => []
  | n + 1, k =>
    let cur := match runningOn s k with | some i => s.get F.thrCfg_PRIO i | none => 32
    let cand := (List.range 256).filter fun i =>
      s.get F.thrCfg_STATE i = thrReady && bits (s.get F.thrCfg_AFF i) k 1 = 1 && !taken.contains i
    match minBy (candRank s k) cand with
    | some b =>
      if s.get F.thrCfg_PRIO b < cur then some b :: offersFrom s (b :: taken) n (k + 1) else none :: offersFrom s taken n (k + 1)
    | none => none :: offersFrom s taken n (k + 1)

/-- OFFER(k) of R340. -/
def offer (s : State) (k : Nat) : Option Nat := ((offersFrom s [] 8 0)[k]?).getD none

/-- The operation of a THR_CFG write: 1 CREATE, 2 WAKE, 3 KILL; none when the transition is refused (R339). -/
def thrOp (i op : Nat) (s : State) : Option State :=
  let st := s.get F.thrCfg_STATE i
  match op with
  | 1 => if st = thrFree then some (toReady i s) else none
  | 2 => if st = thrBlocked then some (toReady i s) else none
  | 3 => if st = thrRunning then none else some (s.set F.thrCfg_STATE i thrFree)
  | _ => some s

/-- A SCHED_OP write at SCHED_CORE `c` by initiator `init`: it acts on the writing core's slot, and is otherwise ignored with BADOP
(R339, R345). -/
def schedOp (init c op : Nat) (s : State) : State :=
  if op = 0 then s
  else
    match (if init < 8 then runningOn s init else none) with
    | none => s.set F.schedCore_BADOP (if init < 8 then init else c) 1
    | some i =>
      match op with
      | 1 => toReady i s
      | 2 => if wakes s i then toReady i s else s.set F.thrCfg_STATE i thrBlocked
      | _ => s.set F.thrCfg_STATE i thrFree

/-- A read of SCHED_CLAIM by core `k`: the slot of its standing offer becomes RUNNING, its previous slot READY (R342). Outside RUNNING a slot's
CORE keeps its last value (DESIGN CHOICE, log 190). -/
def schedClaim (k : Nat) (s : State) : Option Nat × State :=
  match offer s k with
  | none => (none, s)
  | some i =>
    let s := match runningOn s k with | some j => toReady j s | none => s
    let s := ((s.set F.thrCfg_STATE i thrRunning).set F.thrCfg_CORE i k).set F.thrCfg_LAST i k
    (some i, s.set F.thrCfg_LAST_VALID i 1)

/-- SLOT_WAKE: a BLOCKED slot whose wake condition holds. -/
def slotWake (i : Nat) (s : State) : State :=
  if s.get F.thrCfg_STATE i = thrBlocked && wakes s i then toReady i s else s

/-- R345. -/
def execSlotWake (i : Fin 256) (s : State) : Host.Outcome State Fault Refusal := .next (unlessFatal (slotWake i) s)

/-! ### Timers (R346) -/

/-- TIMER: timer `k` reaches its compare value. -/
def timer (k : Nat) (s : State) : State :=
  let cmp := w48 (s.get F.timerCmp_T k)
  let d := sdiff s.t cmp
  if !s.flag F.timerCfg_EN k || d < 0 then s
  else
    let s := auxEvent fTmro k (raiseEvent (408 + k) s)
    let p := s.get F.timerCfg_PERIOD k
    if p = 0 then s.set F.timerCfg_EN k 0
    else
      let n := d.toNat / p + 1
      let s := s.set F.timerCmp_T k (cmp + BitVec.ofNat 48 (n * p)).toNat
      s.set F.timerCfg_MISSED k (s.get F.timerCfg_MISSED k + (n - 1))

/-- R346. -/
def execTimer (k : Fin 16) (s : State) : Host.Outcome State Fault Refusal := .next (unlessFatal (timer k) s)

/-- A write of DOORBELL. -/
def doorbell (v : Nat) (s : State) : State :=
  (List.range 32).foldl (fun s i => if bits v i 1 = 1 then raiseEvent (424 + i) s else s) s

/-! ### Locks (R347–R349) -/

/-- The value that a read of LK returns. -/
def lkValue (acquired held self : Bool) (owner : Nat) : Nat := b2n acquired + b2n held * 2 + b2n self * 4 + owner * 8

/-- An acquire of lock `k` by an initiator of this package. -/
def lockAcquire (init k : Nat) (s : State) : Nat × State :=
  if s.flag F.lkPeek_HELD k then
    let o := s.get F.lkPeek_OWNER k
    (lkValue false true (o = init) o, s)
  else
    let s := ((s.set F.lkPeek_HELD k 1).set F.lkPeek_OWNER k init).inc F.lkPeek_ACQS k
    let thr := if init < 8 then runningOn s init else none
    let s := (s.set F.lkPeek_THREAD k (thr.getD 0)).set F.lkPeek_THR_VALID k (b2n thr.isSome)
    (lkValue true true true init, s)

/-- Lock `k` becomes free, and LOCK_FREE is raised; LK_PEEK.THREAD takes its reset value (DESIGN CHOICE, log 189). -/
def lockFree (k : Nat) (s : State) : State :=
  let s := (s.set F.lkPeek_HELD k 0).set F.lkPeek_OWNER k 15
  raiseEvent (344 + k) ((s.set F.lkPeek_THREAD k 0).set F.lkPeek_THR_VALID k 0)

/-- A write of RELEASE (R348). -/
def lockRelease (init k : Nat) (s : State) : State :=
  if s.flag F.lkPeek_HELD k && s.get F.lkPeek_OWNER k = init then lockFree k s else s.set F.lkPeek_BADREL k 1

/-- A write of FORCE frees the lock whoever holds it, sets FORCED_EVT and raises LOCK_FREE (R349). -/
def lockForce (k : Nat) (s : State) : State := lockFree k (s.set F.lkPeek_FORCED_EVT k 1)

/-! ### Mailboxes (R350, R353) -/

def State.mbx (s : State) (i : Nat) : List MbxEntry := mget [] s.sched.mbx i
def State.setMbx (s : State) (i : Nat) (l : List MbxEntry) : State := { s with sched := { s.sched with mbx := mlist s.sched.mbx i l } }

def mbxDepth : Nat := 32

/-- The entries that a mailbox holds, with the places that GCOLs in flight keep reserved (R354). -/
def mbxHeld (s : State) (i : Nat) : Nat := (s.mbx i).length + (s.sched.ahead.filter fun e => e.1 = i && e.2.isSome).length

/-- R354: the GCOLs of core `k` in flight are squashed: each entry returns to the head of its mailbox, the youngest first. -/
def SchedSt.squash (k : Nat) (x : SchedSt) : SchedSt :=
  let mine := x.ahead.filter fun e => e.1 / 8 = k
  { x with
    mbx := mine.foldr (fun e q => match e.2 with | some v => mlist q e.1 (v :: mget [] q e.1) | none => q) x.mbx
    ahead := x.ahead.filter fun e => e.1 / 8 ≠ k }

def squashGcol (k : Nat) (s : State) : State := { s with sched := s.sched.squash k }

/-- An entry is appended to a mailbox that has room. -/
def mbxAppend (i : Nat) (e : MbxEntry) (s : State) : State :=
  raiseEvent (280 + i) ((s.setMbx i (s.mbx i ++ [e])).inc F.mbxStat_APPENDS i)

/-- The tag word of a mailbox entry. -/
def mbxTag (part ctx : Nat) (ep : Bool) : W := w48 (part % 8 * 2 ^ 16 + ctx % 2 ^ 14 * 4 + b2n ep * 2)

/-! ### The graph port (R351, R352) -/

def State.injList (s : State) (c : Nat) : List Token := mget [] s.sched.inj c
def State.setInj (s : State) (c : Nat) (l : List Token) : State := { s with sched := { s.sched with inj := mlist s.sched.inj c l } }

def injDepth : Nat := 8

/-- The reason for which a GINJ of core `c` is refused, before the queue is considered: 0 none (R351). -/
def ginjReason (s : State) (c : Nat) (tag : W) (priv : Bool) : Nat :=
  let p := tagPart tag
  if bits (s.get F.gpCfg_PMASK c) p 1 = 0 || (!priv && !s.flag F.gpCfg_THREAD_OK c) then 1
  else if tagBit0 tag = 1 || tagPort tag = 3 || 8 ≤ tagDie tag || !s.pkgOk (tagPkg tag) then 2
  else if !s.pRuns p then 3
  else if s.get F.partStat_CRIT p < 3 && (sourceOf s (512 + c) p).isNone then 4
  else 0

/-- The token that a GINJ places in the queue (R352) (DEDUCED, log 58). -/
def ginjToken (s : State) (c : Nat) (tag data due : W) : Token :=
  let p := tagPart tag
  let tag := if s.epoch p = 1 then tag ||| 2 else tag &&& ~~~(2 : W)
  let due :=
    match sourceOf s (512 + c) p with
    | some x =>
      let d := s.t + BitVec.ofNat 48 x.ds
      if sdiff d s.t < sdiff due s.t then d else due
    | none => due
  ⟨tag, due, data, s.flag F.gpCtl_PNEXT c⟩

/-- GINJ_HANDOVER: the head of a core's injection queue goes to the hub ring stop when its partition's injection credit allows. -/
def ginjHandover (c : Nat) (s : State) : State :=
  match s.injList c with
  | [] => s
  | t :: rest =>
    let p := tagPart t.tag
    let pop (s : State) : State :=
      let full := (s.injList c).length = injDepth
      let s := noteBreak p (s.setInj c rest)
      if full then raiseEvent (456 + c) s else s
    if !s.pRuns p then (pop s).inc F.gpStat_DROPPED c
    else if pausedP s p || !injectRoom s nodeHub p 0 || (s.cl.injQ.any fun f => f.node = nodeHub && f.cls = p) then s
    else
      let s := (pop s).inc F.gpStat_INJECTED c
      handOver t (countProd p (tagEpoch t.tag) (sourceRate (512 + c) p s))

/-- R352. -/
def execGinjHandover (c : Fin 8) (s : State) : Host.Outcome State Fault Refusal := .next (unlessFatal (ginjHandover c) s)

end Sys2Proof.Machine
end

