-- ==== Sys2Proof/Machine/CoreOps.lean ====
section
/-!
DEFINITION. Sys2Proof/Machine/CoreOps.lean: the state operations of the K48 cores (chapter 12): registers, reset, taking a trap, returning
from one, debug; and of the interlock supervisor (chapter 14). Cores 0–7 are the control cores, 8 is the supervisor pair.
-/
namespace Sys2Proof.Machine
open Sys2Proof

def Core.empty : Core :=
  ⟨List.replicate 32 0, 0, 0xC0000, 0, 0, 0, 0, 0, List.replicate 16 0, 0, 0, none, none, [], none, false, false, false, none, 0⟩

def State.core (s : State) (k : Nat) : Core := s.cc.cores.getD k Core.empty
def State.setCore (s : State) (k : Nat) (c : Core) : State := { s with cc := { s.cc with cores := setAt s.cc.cores k c } }

/-- R311: w0 reads as zero. -/
def Core.get (c : Core) (n : Nat) : W := if n = 0 then 0 else c.w.getD n 0

/-- R311: a write to w0 is discarded. -/
def Core.set (c : Core) (n : Nat) (v : W) : Core := if n = 0 then c else { c with w := setAt c.w n v }

/-! ### STATUS (R312) -/

def stBit (st : W) (i : Nat) : Bool := bits st.toNat i 1 = 1
def Core.priv (c : Core) : Bool := stBit c.status 19
def Core.ie (c : Core) : Bool := stBit c.status 20
def Core.tl (c : Core) : Bool := stBit c.status 21
def Core.rsm (c : Core) : Bool := stBit c.status 18
def Core.rm (c : Core) : Nat := bits c.status.toNat 16 2
def Core.trapMask (c : Core) : Nat := bits c.status.toNat 8 7

/-- The defined bits of STATUS (DEDUCED, log 47). -/
def statusMask : W := 0x3F7F7F

/-- The hub initiator of a core (R274, R356). -/
def coreInit (k : Nat) : Nat := if k = 8 then 13 else k

/-- The core of a hub initiator. -/
def initCore (i : Nat) : Option Nat := if i < 8 then some i else if i = 13 then some 8 else none

/-- The location of a core as a hub initiator (R378). -/
def coreLoc (k : Nat) : Nat := loc 7 (coreInit k)

/-! ### Running, halting, debug (R336, R364–R366) -/

/-- R313: CYCLE counts from the core's last reset, four control-core cycles to a tick (R22). Where in their ticks the reset and the reading fall
is open (DESIGN CHOICE, log 48). -/
def cycleOf (k : Nat) (s : State) : W × State :=
  let (v, s) := s.freeVal 48
  let n := s.ticks - (s.core k).resetAt
  (w48 (if n = 0 then v.toNat % 4 else 4 * n + v.toNat % 7 - 3), s)

/-- DEDUCED, log 53. -/
def svReset : Nat := 0
def svHeld : Nat := 1
def svRun : Nat := 2
def svDbg : Nat := 3
def svHalted : Nat := 4
def svDouble : Nat := 5
def svFailed : Nat := 6

def State.svState (s : State) : Nat := s.get F.svStat_STATE 0

/-- The core is halted for debug. -/
def dbgHalted (s : State) (k : Nat) : Bool := if k = 8 then s.svState = svDbg else s.flag F.ccStat_DBG_HALTED k

/-- HALT_REQ of a core. -/
def haltReq (s : State) (k : Nat) : Bool := if k = 8 then s.flag F.svDbg_HALT_REQ 0 else s.flag F.ccDbg_HALT_REQ k

/-- The device executes nothing for cores after the fatal decision (R389). -/
def coreRuns (s : State) (k : Nat) : Bool :=
  let c := s.core k
  if s.fatal then false
  else if k = 8 then s.svState = svRun || (s.svState = svDbg && c.step)
  else s.flag F.ccCtl_RUN k && !s.flag F.ccStat_HALTED k && !c.double && (!s.flag F.ccStat_DBG_HALTED k || c.step)

/-- A retirement boundary: a pending debug halt is served, and a STEP is over (R333, R336). -/
def boundary (k : Nat) (s : State) : State :=
  let s := s.setCore k { s.core k with step := false }
  if !haltReq s k then s
  else if k = 8 then (if s.svState = svRun then s.set F.svStat_STATE 0 svDbg else s)
  else s.set F.ccStat_DBG_HALTED k 1

/-- A core stands between two instructions: nothing that it has begun is outstanding. -/
def atBoundary (s : State) (k : Nat) : Bool := (s.core k).wait.isNone && (s.core k).ginjAt.isNone

/-- A write of HALT_REQ (R336, R366). With the pair's return to RUN the watchdog's period starts (R371) (DEDUCED, log 186). -/
def haltReqWrite (k : Nat) (v : Bool) (s : State) : State :=
  let s := if k = 8 then s.set F.svDbg_HALT_REQ 0 (b2n v) else s.set F.ccDbg_HALT_REQ k (b2n v)
  if v then
    if !atBoundary s k then s
    else if k = 8 then (if s.svState = svRun then s.set F.svStat_STATE 0 svDbg else s)
    else s.set F.ccStat_DBG_HALTED k 1
  else
    let s := s.setCore k { s.core k with step := false }
    if k = 8 then (if s.svState = svDbg then { s with cc := { s.cc with kickAt := s.ticks } }.set F.svStat_STATE 0 svRun else s)
    else s.set F.ccStat_DBG_HALTED k 0

/-- A write of STEP to a halted core. -/
def stepWrite (k : Nat) (s : State) : State :=
  if dbgHalted s k && !(s.core k).double && !(k < 8 && s.flag F.ccStat_HALTED k) then s.setCore k { s.core k with step := true } else s

/-- CC_RESET: registers, STATUS, system registers, return stack and reservation take their reset values, and PC the start address
(R336). What the core has in flight is squashed (DEDUCED, log 146). -/
def coreReset (k : Nat) (s : State) : State :=
  let boot := if k = 8 then w48 (s.get F.svBoot_PC 0) else w48 (s.get F.ccBoot_PC k)
  let s := squashGcol k (s.setCore k { Core.empty with pc := boot &&& ~~~(3 : W), resetAt := s.ticks })
  let s := { s with net := { s.net with hubRsp := s.net.hubRsp.filter (·.init ≠ coreInit k) } }
  if k = 8 then s else (s.set F.ccStat_HALTED k 0).set F.ccStat_WAITING k 0

/-- The state that SEL selects (R336). -/
def dbgRead (s : State) (k sel : Nat) : W :=
  let c := s.core k
  if sel < 32 then c.get sel
  else if sel = 32 then c.pc
  else if sel = 33 then c.status
  else if sel = 34 then w48 (c.depth + c.ptr * 32)
  else 0

/-- R313: a write of RSCTL; a reserved DEPTH leaves it unchanged. -/
def Core.setRsctl (c : Core) (v : W) : Core :=
  let d := bits v.toNat 0 5
  if 16 < d then c else { c with depth := d, ptr := bits v.toNat 5 4 }

/-- A write through CC_DBG_DATA. One of PC squashes what the core has in flight (DEDUCED, log 146). -/
def dbgWrite (k sel : Nat) (v : W) (s : State) : State :=
  let c := s.core k
  if sel < 32 then s.setCore k (c.set sel v)
  else if sel = 32 then squashGcol k (s.setCore k { c with pc := v &&& ~~~(3 : W) })
  else if sel = 33 then s.setCore k { c with status := v &&& statusMask }
  else if sel = 34 then s.setCore k (c.setRsctl v)
  else s

/-! ### Taking a trap and returning from one (R331, R332, R334) -/

def tIllegal : Nat := 1
def tPriv : Nat := 2
def tFetch : Nat := 3
def tAlign : Nat := 4
def tData : Nat := 5
def tRsovf : Nat := 6
def tRsund : Nat := 7
def tArith : Nat := 8
def tTrapi : Nat := 9
def tGport : Nat := 10
def tMchk : Nat := 11
def tIntr : Nat := 12

/-- R334: a double trap stops the core. SV_PC keeps the last instruction that retired (R374). -/
def doubleTrap (k code : Nat) (pc : W) (s : State) : State :=
  let s := s.setCore k { s.core k with double := true, wait := none, waitReg := none, ginjAt := none, idle := false, step := false }
  let s :=
    if k = 8 then (s.set F.svStat_STATE 0 svDouble).set F.svStat_LAST_CAUSE 0 code
    else
      (((s.set F.ccStat_DOUBLE k 1).set F.ccStat_LAST_CAUSE k code).set F.ccPc_PC k pc.toNat).set F.ccStat_WAITING k 0
  reportU 26 (coreLoc k) 0 s

/-- R332: trap entry of a core: `epc` and `eaddr` as R331 gives them, ARG and IMPRECISE of ECAUSE. `pc` is the instruction at which it
arises (DEDUCED, log 52). GCOLs in flight behind it are squashed (R330, R354). -/
def takeTrap (k code : Nat) (epc eaddr : W) (arg : Nat) (imprecise : Bool) (pc : W) (s : State) : State :=
  let c := s.core k
  if c.tl && code ≠ tArith then doubleTrap k code pc (squashGcol k s)
  else if c.tl then s
  else
    let st := (c.status ||| 0x280000) &&& ~~~(0x100000 : W)
    let c := { c with
      epc := epc &&& ~~~(3 : W), eaddr := eaddr, ecause := w48 (code + b2n imprecise * 16 + arg % 1024 * 256), estatus := c.status, status := st
      resv := none, pc := c.tvec + BitVec.ofNat 48 (0x40 * code), wait := none, waitReg := none, ginjAt := none, idle := false }
    let s := squashGcol k (s.setCore k c)
    let s :=
      if k = 8 then (s.inc F.svStat_TRAPS 0).set F.svStat_LAST_CAUSE 0 code
      else ((s.inc F.ccStat_TRAPS k).set F.ccStat_LAST_CAUSE k code).set F.ccStat_WAITING k 0
    boundary k s

/-- R332: TRET. -/
def trapReturn (c : Core) : Core := { c with status := c.estatus, resv := none }

/-! ### Reservations and control-core memory (R315, R326, R357) -/

/-- The local address lies in control-core memory: local memories or shared memory of the hub (R31). -/
def inCtlMem (a : Nat) : Bool :=
  let o := a % 2 ^ 40
  a / 2 ^ 40 = 8 && (o < 0x200000 || (0x800000 ≤ o && o < 0xE00000))

/-- The memory of a control-core address (R378): its core's local memory, or 8. -/
def memOf (a : Nat) : Nat := let o := a % 2 ^ 40; if o < 0x200000 then o / 0x40000 else 8

/-- R357: the supervisor's window. -/
def inSvWindow (a : Nat) : Bool := a / 2 ^ 40 = 8 && (0xD80000 ≤ a % 2 ^ 40 && a % 2 ^ 40 < 0xE00000)

/-- R326: a write to a slot ends every reservation on it. -/
def endReservations (a : Nat) (s : State) : State :=
  let slot : W := w48 (a / 8 * 8)
  { s with cc := { s.cc with cores := s.cc.cores.map fun c =>
      match c.resv with
      | some r => if r.toNat % 2 ^ 44 = slot.toNat % 2 ^ 44 then { c with resv := none } else c
      | none => c } }

/-- Write `n` bytes of control-core memory. -/
def ctlWrite (a n v : Nat) (s : State) : State := endReservations a (s.writeN a v n)

/-- R317: the check of a slot of control-core memory that a read meets: 0 good or corrected, 2 uncorrectable. -/
def ctlCheck (a natural : Nat) (s : State) : Nat × State :=
  let m := memOf a
  let (r, inj, s) := secded [27, 28] (loc 8 m) natural s
  if r = 1 then (0, report 27 (loc 8 m) 0 none inj s)
  else if r = 2 then (2, report 28 (loc 8 m) 0 none inj s)
  else (0, s)

/-! ### The interlock supervisor (R362, R364, R371–R373) -/

/-- SV_RESET: RESET, then HELD, from any state but FAILED. -/
def svResetWrite (s : State) : State :=
  if s.svState = svFailed then s
  else
    let s := coreReset 8 s
    (((s.set F.svStat_STATE 0 svHeld).set F.svCtl_RUN 0 0).set F.svStat_CMP_OK 0 0).set F.svStat_CMP_FAIL 0 0

/-- CMP_TEST: the comparator self-test in HELD, with its result. -/
def cmpTest (ok : Bool) (s : State) : State :=
  if s.svState ≠ svHeld then s
  else if ok then s.set F.svStat_CMP_OK 0 1
  else reportU 30 (coreLoc 8) 0 (s.set F.svStat_CMP_FAIL 0 1)

/-- SV_RUN: RUN = 1 starts the pair in HELD with CMP_OK. -/
def svRunWrite (s : State) : State :=
  if s.svState = svHeld && s.flag F.svStat_CMP_OK 0 then
    let s := s.setCore 8 { s.core 8 with pc := w48 (s.get F.svBoot_PC 0) &&& ~~~(3 : W) }
    let s := { s with cc := { s.cc with kickAt := s.ticks } }
    boundary 8 ((s.set F.svStat_STATE 0 svRun).set F.svCtl_RUN 0 1)
  else s

/-- KICK. -/
def kick (s : State) : State := { s with cc := { s.cc with kickAt := s.ticks } }

/-- WATCHDOG_EXPIRY (R371): PERIOD boundaries since the last KICK, the pair's entry to RUN or EN becoming 1; the trip time is the T of that boundary,
and the next period begins there (DEDUCED, log 186). With the reserved PERIOD 0 of reset nothing expires (DESIGN CHOICE, log 185). -/
def watchdogExpiry (s : State) : State :=
  let p := s.get F.svWdog_PERIOD 0
  let b := s.cc.kickAt + p
  if s.svState ≠ svRun || !s.flag F.svWdog_EN 0 || p = 0 || s.ticks < b then s
  else
    let s := trip 255 4 false 0 0 (stampOf (s.t - BitVec.ofNat 48 (s.ticks - b))) s
    let s := reportU 31 (coreLoc 8) 0 (s.set F.svStat_WDOG_EVT 0 1)
    { s with cc := { s.cc with kickAt := b } }

/-- R371. -/
def execWatchdogExpiry (s : State) : Host.Outcome State Fault Refusal := .next (unlessFatal watchdogExpiry s)

/-- SV_TIMER: the first boundary at which T has reached SV_TMR, once for each write (R372). -/
def svTimer (s : State) : State :=
  if !s.flag F.svStat_TMR_ARMED 0 || sdiff s.t (w48 (s.get F.svTmr_T 0)) < 0 then s
  else (s.set F.svStat_TMR_ARMED 0 0).set F.svEvt_TMR 0 1

/-- R372. -/
def execSvTimer (s : State) : Host.Outcome State Fault Refusal := .next (unlessFatal svTimer s)

/-- R372: the lowest pending enabled event of the supervisor. -/
def svPending (s : State) : Option Nat :=
  let v := (s.get F.svEvt_TRIP 0 &&& s.get F.svEvtEn_TRIP 0)
    + b2n (s.flag F.svEvt_LANE 0 && s.flag F.svEvtEn_LANE 0) * 256
    + b2n (s.flag F.svEvt_FLT 0 && s.flag F.svEvtEn_FLT 0) * 512
    + b2n (s.flag F.svEvt_TMR 0 && s.flag F.svEvtEn_TMR 0) * 1024
    + b2n (s.flag F.svEvt_MBX 0 && s.flag F.svEvtEn_MBX 0) * 2048
  (List.range 12).find? fun i => bits v i 1 = 1

/-- R341, R372: the interrupt that a core has pending, as ECAUSE.ARG. -/
def pendingIntr (s : State) (k : Nat) : Option Nat :=
  if k = 8 then svPending s
  else (offer s k).map fun i => i + b2n (runningOn s k).isSome * 256

end Sys2Proof.Machine
end

