-- ==== Sys2Proof/Machine/Faults.lean ====
section
/-!
DEFINITION. Sys2Proof/Machine/Faults.lean: the fault collector (chapter 15): counting and escalation, records and the log, nFLT, the fatal path,
wire faults, acknowledges and injection; and the MC's event log, into which every record goes (R414).
-/
namespace Sys2Proof.Machine
open Sys2Proof

/-! ### Stamps and the event log (R48, R414) -/

/-- R48: the era of a captured T when it is stamped now. -/
def eraOf (s : State) (t : W) : BitVec 16 :=
  let d := sdiff t s.t
  if d ≤ 0 ∧ s.t < t then s.era - 1 else if 0 < d ∧ t < s.t then s.era + 1 else s.era

/-- R48: the 64-bit stamp of a captured T. -/
def stampEra (s : State) (t : W) : BitVec 64 := eraOf s t ++ t

/-- R414: the MC appends an entry of a TYPE; the oldest of 4,096 is overwritten. -/
def mcEntry (type : Nat) (w0 : BitVec 64) (content : Nat) (s : State) : State :=
  let seq := s.get F.logStat_NEXT 0
  let w1 := BitVec.ofNat 64 (type * 2 ^ 62 + seq % 2 ^ 14 * 2 ^ 48 + content % 2 ^ 48)
  let log := s.mc.log ++ [(w0, w1)]
  let log := log.drop (log.length - 4096)
  let s := (s.set F.logStat_NEXT 0 (seq + 1)).set F.logStat_LEVEL 0 log.length
  { s with mc := { s.mc with
    log := log
    unwritten := (s.mc.unwritten ++ [s.ticks]).drop (s.mc.unwritten.length + 1 - 4096) } }

/-- An MC event: code in [15:0], argument in [47:16]. -/
def mcEvent (code arg : Nat) (s : State) : State := mcEntry 1 (stampEra s s.t) (code + arg % 2 ^ 32 * 65536) s

/-! ### Kinds, classes and instances (R375–R378) -/

def clsC : Nat := 0
def clsU : Nat := 1
def clsF : Nat := 2

/-- R377: the class at which a kind is raised. -/
def baseClass (k : Nat) : Nat :=
  if [6, 8, 17, 22, 24, 27].contains k then clsC else if [32, 33, 34].contains k then clsF else clsU

/-- R377: the highest class of promotion. -/
def highestClass (k : Nat) : Nat :=
  if [18, 19, 21, 23, 25, 26, 28, 30, 31, 32, 33, 34, 37, 38].contains k then clsF else clsU

/-- R378: an index exists under a location type. -/
def indexOk (type i : Nat) : Bool :=
  match type with
  | 0 => i < 16
  | 1 => i < 8
  | 2 => i < 128
  | 3 => i < 2048
  | 4 => i < 146
  | 5 => i < 32
  | 6 => i < 96
  | 7 => i < 15
  | 8 => i < 10
  | 9 => i < 64
  | 10 => i < 40 || (64 ≤ i && i < 72)
  | 11 => 1 ≤ i / 256 && i / 256 < 6
  | _ => false

/-- R377: the location types of a kind's instances. -/
def kindTypes (k : Nat) : List Nat :=
  if k = 5 then [2, 4]
  else if k ≤ 7 then [2]
  else if k ≤ 9 then [3]
  else if k = 10 then [2, 3, 11]
  else if k = 11 then [2]
  else if k ≤ 15 then [1]
  else if k ≤ 18 then [4]
  else if k = 19 then [7]
  else if k = 20 then [0, 1, 2, 3, 4, 7, 8, 9, 11]
  else if k = 21 ∨ k = 35 ∨ k = 36 then [0]
  else if k = 22 ∨ k = 23 then [5]
  else if k = 24 ∨ k = 25 then [6]
  else if k = 27 ∨ k = 28 then [8]
  else if k = 29 then [9]
  else if k = 33 ∨ k = 34 then [10]
  else [7]

/-- An instance of a kind exists (R377, R378). -/
def instanceOk (k l : Nat) : Bool :=
  1 ≤ k && k ≤ 38 && (kindTypes k).contains (l / 4096) && indexOk (l / 4096) (l % 4096)
    && (k ≠ 33 || l % 4096 < 40) && (k ≠ 34 || 64 ≤ l % 4096) && (k ≠ 5 || l / 4096 = 2 || l % 4096 = 144)
    -- tokens of the hub are discarded at its ring stop (R43); a core or the supervisor, the supervisor, the endpoint, the MC
    && (k ≠ 26 || l % 4096 < 8 || l % 4096 = 13) && (k < 30 || 32 < k || l % 4096 = 13)
    && (k ≠ 37 || l % 4096 = 11) && (k ≠ 38 || l % 4096 = 8)

/-! ### nFLT (R380, R386) -/

/-- The collector runs: from step 3 of boot (R386, R396) (DEDUCED, log 113). -/
def collectorOn (s : State) : Bool := 3 ≤ s.get F.bootStat_STEP 0

/-- nFLT is asserted, which its name says is low (R11, R386). -/
def nFlt (s : State) : Bool :=
  s.fatal || !collectorOn s || (List.range 64).any fun k => s.flag F.fkStat_STICKY k && !s.flag F.fkCfg_MASK k

/-- A change of the kinds' state: nFLT going low raises FC_NFLT and sets SV_EVT.FLT (R372, R385). -/
def withNFlt (f : State → State) (s : State) : State :=
  let was := nFlt s
  let s := f s
  if nFlt s && !was then raiseEvent 471 (s.set F.svEvt_FLT 0 1) else s

/-- The pairs that read wrong: those in wire fault, and those that an injection holds (R379, R393). -/
def wrongPairs (s : State) : List Nat := s.flt.wire ++ s.flt.pairHeld.map (·.1)

/-- A kind is live: some instance holds its pair at present or is in wire fault (R380). -/
def kindLive (s : State) (k : Nat) : Bool := (s.flt.live ++ wrongPairs s).any fun x => x / 65536 = k

/-- Some instance of a kind is in wire fault. -/
def kindWire (s : State) (k : Nat) : Bool := (wrongPairs s).any fun x => x / 65536 = k

/-! ### Records (R385) -/

/-- Word 1 of a record. -/
def recordWord1 (kind cls : Nat) (exc wire inj : Bool) (part : Option Nat) (l detail : Nat) : BitVec 64 :=
  BitVec.ofNat 64 (kind % 64 + cls * 64 + b2n exc * 256 + b2n wire * 512 + b2n inj * 1024 + b2n part.isSome * 2048
    + part.getD 0 % 8 * 4096 + l % 65536 * 2 ^ 16 + detail % 65536 * 2 ^ 32)

/-- The class of a record. -/
def recordClass (w1 : BitVec 64) : Nat := bits w1.toNat 6 2

/-- Remove the newest C record. -/
def dropNewestC (l : List (BitVec 64 × BitVec 64)) : Option (List (BitVec 64 × BitVec 64)) :=
  (takeFirst (fun r => recordClass r.2 = clsC) l.reverse).map fun r => r.2.reverse

/-- A record reaches the log of 64. -/
def appendRecord (r : BitVec 64 × BitVec 64) (s : State) : State :=
  let put (l : List (BitVec 64 × BitVec 64)) : State := { s with flt := { s.flt with log := l } }
  let lost (s : State) : State := raiseEvent 470 (s.inc F.flogStat_DISCARDS 0)
  if s.flt.log.length < 64 then put (s.flt.log ++ [r])
  else if recordClass r.2 = clsC then lost s
  else
    match dropNewestC s.flt.log with
    | some l => lost (put (l ++ [r]))
    | none => lost s

/-- A record of class `cls` is made: log, MC event log, STICKY, CLASS and the record events. -/
def makeRecord (kind cls : Nat) (exc wire inj : Bool) (part : Option Nat) (l detail : Nat) (t : W) (s : State) : State :=
  let w0 := stampEra s t
  let w1 := recordWord1 kind cls exc wire inj part l detail
  let s := appendRecord (w0, w1) s
  let s := if s.fatal then s else mcEntry 0 w0 w1.toNat s
  let s := s.set F.fkStat_CLASS kind (max cls (s.get F.fkStat_CLASS kind))
  let s := withNFlt (fun s => s.set F.fkStat_STICKY kind 1) s
  if cls = clsC then raiseEvent 464 s else if cls = clsU then raiseEvent 465 s else s

/-! ### The fatal path (R388, R389) -/

/-- The fatal decision: nFATAL (low from here until main power is removed, R387), the fatal term, clocks and engines stopped, output channels forced, and the notice to both neighbours. A
further decision repeats nothing (DEDUCED, log 89). -/
def fatalPath (w1 : BitVec 64) (s : State) : State :=
  if s.fatal then s
  else
    let s := withNFlt (fun s =>
      { s with flt := { s.flt with nfatal := true, decision := some (w1, stampEra s s.t), decisionLog := s.flt.log } }) s
    let s := (List.range 8).foldl (fun s f => s.set F.fclkCtl_STOPPED f 1) s
    let s := beginForces s
    sendCtl true 0x66 (w48 s.pkg) (sendCtl false 0x66 (w48 s.pkg) s)

/-! ### Counting and escalation (R382, R383) -/

/-- The state of an instance; after reset or acknowledge its class is the kind's base class. -/
def faultInst (s : State) (k l : Nat) : FInst :=
  (s.flt.insts.find? fun i => i.kind = k && i.loc = l).getD ⟨k, l, 0, 0, baseClass k⟩

def setInst (i : FInst) (s : State) : State :=
  { s with flt := { s.flt with insts := (s.flt.insts.filter fun j => !(j.kind = i.kind && j.loc = i.loc)) ++ [i] } }

/-- Quarantine of a cluster by the collector; one that is quarantined or offline is left as it stands. -/
def collectQuarantine (c : Nat) (s : State) : State :=
  if s.fatal ∨ s.cState c = 4 ∨ s.cState c = 5 then s else raiseEvent 467 (quarantine c s)

/-- The collector asks the MC, which takes the bank offline (R309); a bank that is offline already is left as it stands
(DEDUCED, log 114). -/
def collectOffline (b : Nat) (s : State) : State :=
  if s.fatal then s
  else
    let s := raiseEvent 468 s
    if s.flag F.bankPwr_OFFLINE b then s else mcEvent 0x000A b (takeOffline b s)

/-- The action of R377 on exceedance at U. -/
def faultAction (k l : Nat) (s : State) : State :=
  if k = 1 ∨ k = 6 ∨ k = 7 then collectQuarantine (l % 4096) s
  else if k = 8 ∨ k = 9 then collectOffline (l % 4096) s
  else s

/-- R382: the collector counts, escalates and records an event, and drives what follows. -/
def takeEvent (e : FaultEv) (s : State) : State :=
  let k := e.kind
  let i := faultInst s k e.loc
  let w := s.get F.fkWin_W k
  let i := if i.cnt = 0 ∨ (w : Int) ≤ sdiff e.t i.start then { i with start := e.t, cnt := 0 } else i
  let i := { i with cnt := i.cnt + 1 }
  let exc := w ≠ 0 ∧ s.get F.fkCfg_N k < i.cnt
  let i := if exc then { i with cnt := 0, eff := if i.eff < s.get F.fkCfg_MAXC k then i.eff + 1 else i.eff } else i
  let s := (setInst i s).inc F.fkStat_EVENTS k
  let s := if exc then raiseEvent 466 ((s.set F.fkStat_EXC k 1).inc F.fkStat_EXCS k) else s
  let s := makeRecord k i.eff exc false e.inj e.part e.loc e.detail e.t s
  let s := if exc ∧ i.eff = clsU then faultAction k e.loc s else s
  let s := if k = 2 then collectQuarantine (e.loc % 4096) s else s
  if i.eff = clsF then fatalPath (recordWord1 k i.eff exc false e.inj e.part e.loc e.detail) s else s

/-- The next event at the root: of those signalled with the oldest, the lowest kind, then the lowest location (R381) (DEDUCED, log 112). -/
def nextFault (q : List FaultEv) : Option FaultEv :=
  match q with
  | [] => none
  | e :: _ => minBy (fun x => ((x.kind * 65536 + x.loc : Nat) : Int)) (q.filter fun x => x.t = e.t)

/-- FAULT_EVENT (R382). -/
def faultEvent (s : State) : State :=
  if !collectorOn s then s
  else
    match nextFault s.flt.queue with
    | none => s
    | some e =>
      match takeFirst (fun x => x = e) s.flt.queue with
      | none => s
      | some (_, q) => takeEvent e { s with flt := { s.flt with queue := q } }

/-- R382. -/
def execFaultEvent (s : State) : Host.Outcome State Fault Refusal := .next (faultEvent s)

/-! ### Wire faults (R379) -/

/-- A pair begins to read wrong, or goes on while it does so already: a record at the onset. -/
def wrongPair (kind l : Nat) (inj : Bool) (s : State) : State :=
  if (wrongPairs s).contains (pairKey kind l) then s else raiseEvent 469 (makeRecord kind clsU false true inj none l 0 s.t s)

/-- WIRE_FAULT: a pair has read wrong on two consecutive samples, or reads right again. Kind 0 names a facet's subtree link. -/
def wireFault (kind l : Nat) (wrong : Bool) (s : State) : State :=
  let key := pairKey kind l
  let known := instanceOk kind l || (kind = 0 && l / 4096 = 4 && 128 ≤ l % 4096 && l % 4096 < 144 && l % 2 = 0)
  if !known || !collectorOn s then s
  else if !wrong then { s with flt := { s.flt with wire := s.flt.wire.filter (· ≠ key) } }
  else if s.flt.wire.contains key then s
  else
    let s := wrongPair kind l false s
    { s with flt := { s.flt with wire := s.flt.wire ++ [key] } }

/-- R379. -/
def execWireFault (kind : Fin 64) (l : BitVec 16) (wrong : Bool) (s : State) : Host.Outcome State Fault Refusal :=
  .next (wireFault kind l.toNat wrong s)

/-- At a tick boundary: pairs that an injection holds count down by the four control-core cycles of a tick (R393). -/
def pairTick (s : State) : State :=
  { s with flt := { s.flt with pairHeld := (s.flt.pairHeld.filter fun x => 4 < x.2).map fun x => (x.1, x.2 - 4) } }

/-! ### Acknowledge, log head, fatal record, injection (R384, R385, R392, R393) -/

/-- A write of FK_STAT.ACK (R384). -/
def ackKind (k : Nat) (s : State) : State :=
  let s := s.set F.fkStat_EXC k 0
  let s := { s with flt := { s.flt with insts := s.flt.insts.filter fun i => i.kind ≠ k } }
  if kindLive s k then s else (s.set F.fkStat_STICKY k 0).set F.fkStat_CLASS k 0

/-- A write of FLOG_STAT.POP (R385). -/
def popLog (s : State) : State := { s with flt := { s.flt with log := s.flt.log.drop 1 } }

/-- The VBAT word 0 of the fatal record (R391). -/
def vbatWord (s : State) (i : Nat) : BitVec 64 := mget 0 s.flt.vbat i

/-- A write of FR_CTL.CLR: VALID goes to 0 (R392). -/
def clearRecord (s : State) : State :=
  let w := vbatWord s 0 &&& ~~~(0x2000000000000 : BitVec 64)
  { s with flt := { s.flt with vbat := mset 0 s.flt.vbat 0 w } }

/-- R392: the collector starts with every STICKY clear, checks the record, and records PRIOR_FATAL when it is valid. nFLT, low until then, does
not fall with that STICKY (R385, R386). -/
def startCollector (s : State) : State :=
  let w0 := vbatWord s 0
  let valid := bits w0.toNat 49 1 = 1
  if !valid then s
  else
    let crc := crcWords ((List.range 254).map fun i => (vbatWord s (i + 1)).toNat)
    let s := (s.set F.frCtl_CRC_OK 0 (b2n ((vbatWord s 255).toNat = crc))).set F.fkStat_STICKY 36 1
    let w2 := (vbatWord s 2).toNat
    takeEvent ⟨36, loc 0 s.pkg, bits w2 0 6 + bits w2 6 2 * 64, none, s.t, false⟩ s

/-- R393: the check bits of a kind's checker; all ten of MASK where the spec gives none. -/
def checkBits (k : Nat) : Nat :=
  if k = 1 then 8 else if k = 8 ∨ k = 9 then 7 else if k = 17 ∨ k = 18 then 9 else if k = 24 ∨ k = 25 then 7
  else if k = 27 ∨ k = 28 then 8 else 10

/-- R393: the kinds that accept injection. -/
def injectable (k : Nat) : Bool := [1, 6, 7, 8, 9, 17, 18, 24, 25, 27, 28, 29].contains k

/-- A write of INJ_CTL (R393): refused for a MASK beyond the checker's check bits, or when it arms at a kind or instance that takes no
injection; `hits` says that the write reaches the lower half of the slot, where every field stands (R6). While INJ_EN is 0 nothing is armed (DEDUCED, log 115). -/
def injCtlWrite (v : Nat) (hits : Bool) (s : State) : Bool × State :=
  let kind := s.get F.injSel_KIND 0
  let l := s.get F.injSel_LOCATION 0
  let arm := bits v 0 1 = 1
  let pair := bits v 1 1 = 1
  if !hits then (true, s)
  else if 2 ^ checkBits kind ≤ bits v 2 10 then (false, s)
  else if arm && s.flag F.fltCtl_INJ_EN 0 && (!(pair || injectable kind) || !instanceOk kind l) then (false, s)
  else
    let s := (s.set F.injCtl_PAIR 0 (b2n pair)).set F.injCtl_MASK 0 (bits v 2 10)
    let s := if 2 ≤ bits v 12 16 then s.set F.injCtl_PAIRCYC 0 (bits v 12 16) else s
    if !(arm && s.flag F.fltCtl_INJ_EN 0) then (true, s.set F.injCtl_ARM 0 0)
    else if pair then
      let s := s.set F.injCtl_ARM 0 0
      let s := if collectorOn s then wrongPair kind l true s else s
      (true, { s with flt := { s.flt with pairHeld := mput s.flt.pairHeld (pairKey kind l) (s.get F.injCtl_PAIRCYC 0) } })
    else (true, s.set F.injCtl_ARM 0 1)

/-! ### Lockstep (R361, R362) -/

/-- LOCKSTEP_MISCOMPARE: the comparators' verdicts at the end of a cycle (R361, R362): the groups that differ, the two verdicts, and
whether a verdict pair read 0b00 or 0b11. Only in FAILED, where both cores have stopped, nothing more is compared; the verdicts of the self-test
belong to the row CMP_TEST (R364). The groups are those of R359; a fault in a delay register is found here too (R363). The fault is
decided here, by its own path to the root (R388). -/
def lockstepMiscompare (group : Nat) (a b wire : Bool) (s : State) : State :=
  let st := s.svState
  if (!a && !b && !wire) || st = svFailed then s
  else
    let s := s.set F.svStat_STATE 0 svFailed
    let s := s.setCore 8 { s.core 8 with wait := none, waitReg := none, step := false }
    let s :=
      if s.flag F.svMisc_VALID 0 then s
      else
        let s := ((s.set F.svMisc_GROUP 0 group).set F.svMisc_CMPA 0 (b2n a)).set F.svMisc_CMPB 0 (b2n b)
        let s := (s.set F.svMisc_DISAGREE 0 (b2n (a != b || wire))).set F.svMisc_WIRE 0 (b2n wire)
        let (n, s) := cycleOf 8 s
        (s.set F.svMisc_CYCLE 0 (n.toNat % 2 ^ 32)).set F.svMisc_VALID 0 1
    takeEvent ⟨32, coreLoc 8, 0, none, s.t, false⟩ s

/-- R362. -/
def execLockstepMiscompare (group : BitVec 4) (a b wire : Bool) (s : State) : Host.Outcome State Fault Refusal :=
  .next (lockstepMiscompare group.toNat a b wire s)

end Sys2Proof.Machine
end

