-- ==== Sys2Proof/Machine/Capture.lean ====
section
/-!
DEFINITION. Sys2Proof/Machine/Capture.lean: the capture streams and their engine (R428–R431, R451).
-/
namespace Sys2Proof.Machine
open Sys2Proof

def CapStream.empty : CapStream := ⟨0, 0, 0, [], 0, false, false, false, false, 0⟩

def State.cap (s : State) (k : Nat) : CapStream := mget CapStream.empty s.port.caps k
def State.setCap (s : State) (k : Nat) (c : CapStream) : State :=
  { s with port := { s.port with caps := mset CapStream.empty s.port.caps k c } }

/-- The words of a graph packet: PKT, where 0 stands for 4,096. -/
def capPkt (s : State) (k : Nat) : Nat := if s.get F.capCfg_PKT k = 0 then 4096 else s.get F.capCfg_PKT k

/-- The bytes of a stream's ring. -/
def ringBytes (s : State) (k : Nat) : Nat := s.get F.capRing_SIZE k * 4096

/-- The unread span U of a ring (R431). -/
def unread (s : State) (k : Nat) : Nat :=
  let n := ringBytes s k
  (s.get F.capWp_PTR k + n - s.get F.capRp_PTR k % n) % n

/-- The engine's room for a whole record (R431): 6 slots for a tap packet, PKT + 2 in graph mode. -/
def ringRoom (s : State) (k : Nat) : Bool :=
  let need := if s.get F.capCfg_MODE k = 1 then 8 * (capPkt s k + 2) else 48
  need + 8 + unread s k ≤ ringBytes s k

/-- A word of an output reaches a graph stream: it is one full word with VB = 6, and the PKT-th of a packet is LAST (R428). -/
def captureWord (k : Nat) (data : W) (s : State) : State :=
  let c := s.cap k
  let last := capPkt s k ≤ c.count + 1
  let s := s.setCap k { c with count := if last then 0 else c.count + 1, lastAt := s.ticks }
  pfPut (32 + k) ⟨data.toNat, 48, last, false, false, 0, stampOf s.t, 0⟩ s

/-- A stream's FIFO holds back a writer: FULL_ACT = 0 and no room (R255, R431). -/
def streamHolds (s : State) (k : Nat) : Bool :=
  !s.flag F.pfCfg_FULL_ACT (32 + k) && (s.fifo (32 + k)).settle.isFull

/-- Write the 8-byte slots of a record from a ring offset on. -/
def writeRing (k : Nat) : Nat → List (BitVec 64) → State → State
  | _, [], s => s
  | o, w :: ws, s =>
    writeRing k (o + 8) ws (s.writeN (hubAddr (0x2000000 + s.get F.capRing_BASE k * 4096 + o % ringBytes s k)) w.toNat 8)

/-- The tick of a stamp in sixteenths, with ties upward (R430). -/
def tickOf (x : BitVec 52) : W := w48 ((x.toNat + 8) / 16)

/-- A record is complete: its slots are written, WP moves past it, and READY and GAP_EVT follow (R430, R431). -/
def finishRecord (k : Nat) (s : State) : State :=
  let c := s.cap k
  let wp := s.get F.capWp_PTR k
  let h0 := stampEra s (tickOf c.t)
  let h1 := BitVec.ofNat 64 (k + b2n c.short * 64 + b2n c.gap * 128 + b2n c.err * 256 + b2n c.poison * 512 + c.st % 256 * 1024
    + c.words.length % 8192 * 2 ^ 18 + c.seq % 2 ^ 32 * 2 ^ 32)
  let s := writeRing k wp (h0 :: h1 :: c.words) s
  let before := unread s k
  let s := s.set F.capWp_PTR k ((wp + 8 * (c.words.length + 2)) % ringBytes s k)
  let s := s.inc F.capStat_RECORDS k
  let s := s.setCap k { CapStream.empty with seq := (c.seq + 1) % 2 ^ 32, count := c.count, lastAt := c.lastAt }
  let thresh := s.get F.capRing_THRESH k * 4096
  let ready := thresh = 0 || (before < thresh && thresh ≤ unread s k)
  let s := if ready then s.set F.capStat_READY k 1 else s
  let s := if c.gap then s.set F.capStat_GAP_EVT k 1 else s
  if ready || c.gap then raiseEvent (488 + k / 8) s else s

/-- A word's slot in a record. -/
def ringWord (k : Nat) (w : PfWord) (poison : Bool) : BitVec 64 :=
  let data := if poison then poisonData causeUncorr (32 + k) else w.data
  BitVec.ofNat 64 (data.toNat + w.vb % 8 * 2 ^ 48 + b2n w.last * 2 ^ 51 + b2n w.gap * 2 ^ 52 + b2n w.err * 2 ^ 53 + b2n poison * 2 ^ 54)

/-- A word joins the record that the engine is taking. -/
def joinRecord (k : Nat) (w : PfWord) (poison : Bool) (s : State) : State :=
  let c := s.cap k
  let first := c.words.isEmpty
  let s := s.setCap k { c with
    words := c.words ++ [ringWord k w poison]
    t := if first then w.t else c.t
    gap := if first then w.gap else c.gap
    err := c.err || w.err, poison := c.poison || poison, st := c.st ||| w.st
    short := c.short || (w.last && w.pos = 1) }
  if w.last then finishRecord k s else s

/-- A word after a discard does not join a packet that the discard cut: the record ends before it (DEDUCED, log 118). -/
def endCut (k : Nat) (s : State) : State :=
  match (s.fifo (32 + k)).settle.chain with
  | w :: _ => if w.gap && !(s.cap k).words.isEmpty then finishRecord k s else s
  | [] => s

/-- The engine takes words until a packet ends, the FIFO is empty, or a new packet finds no room (R431). -/
def takeWords (k : Nat) : List Nat → Nat → State → State
  | _, 0, s => s
  | errs, n + 1, s =>
    let s := endCut k s
    if (s.fifo (32 + k)).settle.chain.isEmpty then s
    else if (s.cap k).words.isEmpty && !ringRoom s k then s.set F.capStat_WAITING k 1
    else
      match pfTake (32 + k) (errs.headD 0) (s.set F.capStat_WAITING k 0) with
      | (none, s) => s
      | (some (w, poison), s) =>
        let s := joinRecord k w poison s
        if w.last then s else takeWords k (errs.drop 1) n s

/-- CAPTURE_RECORD: the engine serves a stream (R431). `errs` are the errors in the checks of the words taken, in their order. -/
def captureRecord (k : Nat) (errs : List Nat) (s : State) : State :=
  takeWords k errs (2 * pfDepth + 2) s

/-- R431. -/
def execCaptureRecord (k : Fin 64) (errs : List (Fin 3)) (s : State) : Host.Outcome State Fault Refusal :=
  .next (unlessFatal (captureRecord k (errs.map (·.val))) s)

/-- Close the open graph packet of a stream short (R429): its newest accepted word takes LAST, or the record being taken ends. A discard that
the packet met ends with it. -/
def closeShort (k : Nat) (s : State) : State :=
  let c := s.cap k
  if s.get F.capCfg_MODE k ≠ 1 ∨ c.count = 0 then s
  else
    let s := s.setCap k { c with count := 0 }
    let f := { (s.fifo (32 + k)).settle with discarding := false }
    -- the newest word is of an earlier packet where it is LAST already
    let mark (w : PfWord) : PfWord := if w.last then w else { w with last := true, pos := 1 }
    match f.done with
    | some w => s.setFifo (32 + k) { f with done := some (mark w) }
    | none =>
      match f.chain.reverse with
      | w :: rest => s.setFifo (32 + k) { f with chain := (mark w :: rest).reverse }
      | [] =>
        let s := s.setFifo (32 + k) f
        if (s.cap k).words.isEmpty then s
        else finishRecord k (s.setCap k { s.cap k with short := true })

/-- CAPTURE_SHORT_CLOSE: no word for CLOSE_T ticks (R429). -/
def captureShortClose (k : Nat) (s : State) : State :=
  let t := s.get F.capCfg_CLOSE_T k
  if t = 0 ∨ !s.flag F.capCfg_EN k ∨ s.ticks < (s.cap k).lastAt + t then s else closeShort k s

/-- R429. -/
def execCaptureShortClose (k : Fin 64) (s : State) : Host.Outcome State Fault Refusal := .next (unlessFatal (captureShortClose k) s)

/-- A write of CAP_RP (R451): within the unread span or equal to WP, else ignored with BADRP. -/
def capRpWrite (k v : Nat) (s : State) : State :=
  let n := ringBytes s k
  let rp := s.get F.capRp_PTR k
  let wp := s.get F.capWp_PTR k
  let inSpan := v % 8 = 0 && v < n && (v = wp || (v + n - rp) % n ≤ unread s k)
  if inSpan then s.set F.capRp_PTR k v else s.set F.capStat_BADRP k 1

/-- The rings of two enabled streams overlap. -/
def ringsMeet (s : State) (a sa b : Nat) : Bool :=
  let bb := s.get F.capRing_BASE b
  let sb := s.get F.capRing_SIZE b
  a < bb + sb && bb < a + sa

/-- A write of EN = 1 sets WP and RP to 0; the packet numbers go on (DEDUCED, log 119). -/
def capRestart (k : Nat) (s : State) : State :=
  let s := s.setCap k { CapStream.empty with seq := (s.cap k).seq }
  (s.set F.capWp_PTR k 0).set F.capRp_PTR k 0

/-- A write of CAP_CFG (R451): the register's bits after it, and whether it reaches EN (R6). While EN is 1 only EN may change, by a write that
leaves the rest as it stands; EN = 1 needs a ring inside capture memory that meets no other enabled ring. -/
def capCfgWrite (k v : Nat) (hitsEn : Bool) (s : State) : Bool × State :=
  let on := s.flag F.capCfg_EN k
  let en := bits v 2 1 = 1
  let mode := bits v 0 2
  let same := (mode = 3 || mode = s.get F.capCfg_MODE k) && bits v 3 5 = s.get F.capCfg_LANE k && bits v 8 8 = s.get F.capCfg_CHMASK k
    && bits v 16 12 = s.get F.capCfg_PKT k && bits v 32 16 = s.get F.capCfg_CLOSE_T k
  let base := s.get F.capRing_BASE k
  let size := s.get F.capRing_SIZE k
  if on then
    if !same || !hitsEn then (false, s)
    else if en then (true, capRestart k s)
    else (true, (closeShort k s).set F.capCfg_EN k 0)
  else if en && (8192 < base + size
      || (List.range 64).any fun j => j ≠ k && s.flag F.capCfg_EN j && ringsMeet s base size j) then (false, s)
  else
    let s := if mode = 3 then s else s.set F.capCfg_MODE k mode
    let s := (s.set F.capCfg_LANE k (bits v 3 5)).set F.capCfg_CHMASK k (bits v 8 8)
    let s := (s.set F.capCfg_PKT k (bits v 16 12)).set F.capCfg_CLOSE_T k (bits v 32 16)
    if en then (true, (capRestart k s).set F.capCfg_EN k 1) else (true, s)

end Sys2Proof.Machine
end

