-- ==== Sys2Proof/Machine/Chain.lean ====
section
/-!
DEFINITION. Sys2Proof/Machine/Chain.lean: the chain port's links (R432–R437, R440), the FATAL notice (R389), and enumeration (R408, R409, R439).
-/
namespace Sys2Proof.Machine
open Sys2Proof

/-! ### Boot failure (R397) -/

/-- A boot step fails: ERROR, the log entry, MC_BOOT_FAIL and an MGMT fault; a failure in step 10 stops the control cores. -/
def bootFail (err : Nat) (s : State) : State :=
  let step := s.get F.bootStat_STEP 0
  let s := { s with mc := { s.mc with failed := true } }.set F.bootStat_ERROR 0 err
  let s := raiseEvent 481 (mcEvent 0x0002 (step + err * 16) s)
  let s := reportU 38 (loc 7 8) 0 s
  if step = 10 then (List.range 8).foldl (fun s k => s.set F.ccCtl_RUN k 0) s else s

/-! ### Link states (R433) -/

/-- STATE of a direction changes: LINK_EVT and the link's event source (R450). -/
def linkTo (up : Bool) (st : Nat) (s : State) : State :=
  let d := sideOf up
  if s.get F.cpStat_STATE d = st then s
  else raiseEvent (498 + d) ((s.set F.cpStat_STATE d st).set F.cpStat_LINK_EVT d 1)

/-- The inbound segment of a direction. -/
def segIn (up : Bool) : Nat := segChain (if up then 3 else 1)

/-- The (class, VC) pairs of a chain segment, as credit keys. -/
def segKeys (g : Nat) : List Nat := (List.range 9).flatMap fun c => (List.range 4).map fun v => creditKey g c v

/-- R437: credits restart: 16 for each pair, and both counts at 0. -/
def restartCredits (up : Bool) (s : State) : State :=
  let out := segKeys (segOut up)
  let inn := segKeys (segIn up)
  { s with
    net := { s.net with
      credit := out.foldl (fun m k => mput m k 16) s.net.credit
      creditSeen := s.net.creditSeen.filter fun e => !out.contains e.1
      freed := s.net.freed.filter fun e => !inn.contains e.1 }
    chain := { s.chain with creditSent := s.chain.creditSent.filter fun e => !inn.contains e.1 } }

/-- R435: the content of an ENUM block. -/
def enumContent (number : Nat) (era : BitVec 16) : W := w48 (number % 16 + era.toNat * 16)

/-- R408: ENUM and ENUM_T, downstream, with the package's own number. -/
def sendEnum (s : State) : State :=
  if cpUp s 1 then postCtl (segOut false) 0x4B [enumContent s.pkg s.era, s.t] s else s

/-- BLOCK_LOCK: lanes of a direction reach block lock; with all four the direction passes LOCK and waits in DESKEW (R433) (DEDUCED, log 116). -/
def blockLock (up : Bool) (lanes : Nat) (s : State) : State :=
  let d := sideOf up
  let st := s.get F.cpStat_STATE d
  if s.fatal ∨ s.get F.bootStat_STEP 0 < 9 ∨ (st ≠ 0 ∧ st ≠ 1) then s
  else
    let s := s.set F.cpStat_LOCKED d (s.get F.cpStat_LOCKED d ||| lanes)
    if s.get F.cpStat_LOCKED d = 15 then linkTo up 2 (linkTo up 1 s) else s

/-- R433. -/
def execBlockLock (up : Bool) (lanes : BitVec 4) (s : State) : Host.Outcome State Fault Refusal := .next (blockLock up lanes.toNat s)

/-- A flit of the chain port is dropped under R37 and counted (R440). -/
def dropChain (up : Bool) (s : State) : State := report 18 (loc 4 145) 0 none false (s.inc F.cpStat_DROPS (sideOf up))

/-- R440: the flits that wait in the chain port for a link that leaves UP are dropped under R37, each flit of a packet and each waiting GLOBAL;
the streams of the link are empty (DEDUCED, log 91). -/
def dropHeld (up : Bool) (s : State) : State :=
  let gone := s.net.flits.filter fun f => f.out = some (segOut up)
  let s := { s with net := { s.net with flits := s.net.flits.filter fun f => f.out ≠ some (segOut up) } }
  let s := gone.foldl (fun s f => f.all.foldl (fun s _ => dropChain up s) (freeChain f s)) s
  let s := (s.chain.wait.filter fun x => x.seg = segOut up && x.type = 0x8B).foldl (fun s _ => dropChain up s) s
  { s with chain := { s.chain with
    wait := s.chain.wait.filter fun x => x.seg ≠ segOut up
    line := mdel (mdel s.chain.line (segOut up)) (segIn up) } }

/-- The delay of a link that leaves UP is to be measured anew (R408). -/
def unmeasured (up : Bool) (s : State) : State :=
  { s with chain := { s.chain with measUp := s.chain.measUp && !up, measDown := s.chain.measDown && up } }

/-- R189: the segments of a link that has left UP carry nothing: the interconnect reports a capacity of 0 until the link is UP again (DESIGN
CHOICE, log 177). -/
def linkCapacity (up lost : Bool) (s : State) : State :=
  if lost then
    let cap := mput (mput s.ap.segCap (segOut up) 0) (segIn up) 0
    loseCapacity [] 4 { s with ap := { s.ap with segCap := cap } }
  else { s with ap := { s.ap with segCap := mdel (mdel s.ap.segCap (segOut up)) (segIn up) } }

/-- A direction returns to DOWN (R433, R440). -/
def chainDown (up : Bool) (s : State) : State :=
  let d := sideOf up
  let st := s.get F.cpStat_STATE d
  if st = 0 ∨ st = 4 then s
  else
    let s := ((linkTo up 0 s).set F.cpStat_LOCKED d 0).inc F.cpStat_DOWNS d
    if st = 3 then linkCapacity up true (dropHeld up (unmeasured up s)) else s

/-- CHAIN_DOWN (R440). -/
def execChainDown (up : Bool) (s : State) : Host.Outcome State Fault Refusal := .next (chainDown up s)

/-- ALIGN: the ALIGN blocks due on the four lanes; `good` says that all four came in time (R433). -/
def chainAlign (up good : Bool) (s : State) : State :=
  let st := s.get F.cpStat_STATE (sideOf up)
  if st = 2 ∧ good then
    let s := linkCapacity up false (restartCredits up (linkTo up 3 s))
    if !up && 10 ≤ s.get F.bootStat_STEP 0 then sendEnum s else s
  else if st = 3 ∧ !good then chainDown up s
  else s

/-- R433. -/
def execAlign (up good : Bool) (s : State) : Host.Outcome State Fault Refusal := .next (chainAlign up good s)

/-! ### CREDIT (R437) -/

/-- One entry of a CREDIT block: the credit of its pair grows by the difference from the last count taken. -/
def takeCredit (up : Bool) (e : Nat) (s : State) : State :=
  let cls := e % 16
  if 8 < cls then s
  else
    let k := creditKey (segOut up) cls (bits e 4 2)
    let n := bits e 6 6
    let d := (n + 64 - mget 0 s.net.creditSeen k) % 64
    { s with net := { s.net with
      credit := mput s.net.credit k (mget 0 s.net.credit k + d)
      creditSeen := mput s.net.creditSeen k n } }

/-- CREDIT: a block of four entries arrives. -/
def credit (up : Bool) (content : W) (intact : Bool) (s : State) : State :=
  if !cpUp s (sideOf up) then s
  else if !intact then badCtl up s
  else (List.range 4).foldl (fun s j => takeCredit up (bits content.toNat (12 * j) 12) s) s

/-- R437. -/
def execCredit (up : Bool) (content : W) (blk : CtlIn) (s : State) : Host.Outcome State Fault Refusal :=
  .next (unlessFatal (credit up content (ctlGood 0x78 content blk)) s)

/-- A lane has two CREDIT slots left, one of them for a count that changes. -/
def spareCredit (s : State) (g : Nat) : Bool :=
  (List.range 4).any fun l => laneFits s g l true && decide (((laneCarried s g l).filter fun e => e.2.2).length < 2)

/-- R437: the pairs of an input whose counts a CREDIT block carries: four whose count has changed, or, with fewer, the pairs whose turn it is to
be repeated after them. -/
def creditBlock (up : Bool) (s : State) : List (Nat × Nat) × State :=
  let keys := segKeys (segIn up)
  let due := (s.net.freed.filter fun e => keys.contains e.1 && mget 0 s.chain.creditSent e.1 ≠ e.2).take 4
  let k := mget 0 s.chain.turn (sideOf up)
  let again := (List.range (4 - due.length)).map fun j =>
    let x := keys.getD ((k + j) % keys.length) 0
    (x, mget 0 s.net.freed x)
  (due ++ again, { s with chain := { s.chain with
    creditSent := due.foldl (fun m x => mput m x.1 x.2) s.chain.creditSent
    turn := mput s.chain.turn (sideOf up) ((k + (4 - due.length)) % keys.length) } })

/-- CREDIT blocks go while none waits for its block time: when a count has changed, and else while a slot is spare (R436, R437) (DEDUCED,
log 92). -/
def sendCredits (up : Bool) (s : State) : State :=
  let keys := segKeys (segIn up)
  let changed := s.net.freed.any fun e => keys.contains e.1 && mget 0 s.chain.creditSent e.1 ≠ e.2
  if !cpUp s (sideOf up) || (s.chain.wait.any fun x => x.seg = segOut up && x.type = 0x78) || !(changed || spareCredit s (segOut up)) then s
  else
    let (l, s) := creditBlock up s
    let entry (x : Nat × Nat) : Nat := x.1 % 64 / 4 + x.1 % 4 * 16 + x.2 % 64 * 64
    sendCtl up 0x78 (w48 ((l.zipIdx.map fun (x, j) => entry x * 2 ^ (12 * j)).foldl (· + ·) 0)) s

/-! ### Enumeration (R408, R409, R439) -/

/-- R409: step 9 is in progress and has not failed (DEDUCED, log 117). -/
def inStep9 (s : State) : Bool := s.get F.bootStat_STEP 0 = 9 && !s.mc.failed

/-- R408: the package takes its number, and loads T with ENUM's T plus D at the next tick boundary; `n` ticks have passed since the ENUM came. -/
def enumTake (number : Nat) (era : BitVec 16) (t : W) (n : Nat) (s : State) : State :=
  let d := (s.get F.chainTm_DELAY 0 + 8) / 16
  let t' := t + BitVec.ofNat 48 (d + n)
  let era' := if t' < t then era + 1 else era
  let s := s.set F.devId_PKG 0 (number + 1)
  { s with
    lens := { s.lens with load := some (t', era', false) }
    chain := { s.chain with enumDue := true, got := true, enumIn := none } }

/-- ENUM: an ENUM and ENUM_T from upstream. In RUN, and from step 10 on, it is answered with DONE (R439). In step 9 it numbers the package, once
the delay of the link is measured (R408) (DEDUCED, log 196), and fails the step on a package with CHAIN_HEAD = 1, whatever its excluded port has
of it (R409). -/
def enum (number : Nat) (era : BitVec 16) (t : W) (intact : Bool) (s : State) : State :=
  if inStep9 s && s.flag F.devId_HEAD 0 && intact then bootFail 11 s
  else if !cpUp s 0 then s
  else if !intact then badCtl true s
  else if 10 ≤ s.get F.bootStat_STEP 0 then sendCtl true 0x55 (w48 s.chainLen) s
  else if !inStep9 s then s
  else if 15 < number + 1 then bootFail 11 s
  else if s.chain.measUp then enumTake number era t 0 s
  else { s with chain := { s.chain with enumIn := some (number, era, t, s.ticks) } }

/-- R439. -/
def execEnum (number : Fin 16) (era : BitVec 16) (t : W) (blk : EnumIn) (s : State) : Host.Outcome State Fault Refusal :=
  .next (unlessFatal (enum number era t (ctlGood 0x4B (enumContent number era) blk.enum && ctlGood 0x4C t blk.enumT)) s)

/-- DONE: from downstream; it sets CHAIN_LEN as it passes upstream (R408), and fails step 9 on a package with CHAIN_LOOP = 1 (R409). -/
def done (len : Nat) (intact : Bool) (s : State) : State :=
  if inStep9 s && s.flag F.devId_TAIL 0 && intact then bootFail 11 s
  else if !cpUp s 1 then s
  else if !intact then badCtl false s
  else if !inStep9 s then s
  else
    let s := s.set F.devId_CHAIN_LEN 0 len
    if s.flag F.devId_HEAD 0 then s else sendCtl true 0x55 (w48 len) s

/-- R408. -/
def execDone (len : BitVec 5) (blk : CtlIn) (s : State) : Host.Outcome State Fault Refusal :=
  .next (unlessFatal (done len.toNat (ctlGood 0x55 (w48 len.toNat) blk)) s)

/-- What the chain port does at a tick boundary: an ENUM that waited for its delay, the ENUM or DONE that is due once T is loaded and the delay
of the link downstream is measured (R408), and CREDIT blocks. -/
def chainTick (s : State) : State :=
  let s := match s.chain.enumIn with
    | some (number, era, t, at_) => if s.chain.measUp && inStep9 s then enumTake number era t (s.ticks - at_) s else s
    | none => s
  let s :=
    if !s.chain.enumDue || s.lens.load.isSome || !inStep9 s then s
    else if s.flag F.devId_TAIL 0 then
      let s := { s with chain := { s.chain with enumDue := false } }
      let s := s.set F.devId_CHAIN_LEN 0 (s.pkg + 1)
      sendCtl true 0x55 (w48 (s.pkg + 1)) s
    else if cpUp s 1 && s.chain.measDown then sendEnum { s with chain := { s.chain with enumDue := false } }
    else s
  sendCredits false (sendCredits true s)

/-! ### FATAL (R389, R440) -/

/-- FATAL: a neighbour's notice: a PEER_FATAL event for the failed package, and the block goes on to the other side. -/
def fatalNotice (up : Bool) (pkg : Nat) (intact : Bool) (s : State) : State :=
  if !cpUp s (sideOf up) then s
  else if !intact then badCtl up s
  else sendCtl (!up) 0x66 (w48 pkg) (reportU 35 (loc 0 pkg) 0 s)

/-- R440. -/
def execFatal (up : Bool) (pkg : Fin 16) (blk : CtlIn) (s : State) : Host.Outcome State Fault Refusal :=
  .next (fatalNotice up pkg (ctlGood 0x66 (w48 pkg) blk) s)

end Sys2Proof.Machine
end

