-- ==== Sys2Proof/Machine/Output.lean ====
section
/-!
DEFINITION. Sys2Proof/Machine/Output.lean: graph outputs at their targets (R91–R93, R172, R186, R350): sample-output channels, Mirror registers,
capture streams, interlock flags and mailboxes.
-/
namespace Sys2Proof.Machine
open Sys2Proof

/-- The address of a register in a Mirror frame (R31). -/
def mirrorAddr (frame i : Nat) : Nat := hubAddr (0x1000100000 + frame * 0x2000 + i * 8)

/-- The Mirror Port's write frame (R442). -/
def writeFrame (s : State) : Nat := 1 - s.get F.mpStat_FSEL 0

/-- The output of a packet that reached its target (R274). -/
def outOf (f : Flit) : OutVal :=
  let a := (reqAddr f.pay).toNat
  let body : BitVec 144 := f.bodies.headD 0
  let arg := reqArg f.pay
  ⟨bits a 36 4, bits a 0 16, reqData f.pay, w48 (pf body 96 48), reqPart f.pay, pf body 48 14, pf body 62 1 = 1, bits arg 20 1 = 1,
    bits arg 19 1 = 1, reqRet f.pay, f.urg, f.side.tag⟩

/-- The target of an output. -/
def OutVal.same (a b : OutVal) : Bool := a.kind = b.kind && a.index = b.index

/-- The index lies in its kind's range (R91). -/
def targetExists (o : OutVal) : Bool :=
  match o.kind with
  | 1 => o.index < 256
  | 2 => o.index < 1024
  | 3 => o.index < 64
  | 4 => o.index < 8
  | 5 => o.index < 64
  | _ => false

/-- The output is performed (R91, R172, R251, R428): its target is assigned to its partition, and is a channel of an enabled output lane
or an enabled graph stream where it is one of those kinds. -/
def performed (s : State) (o : OutVal) : Bool :=
  targetExists o && targetMine s o.kind o.index o.part o.epoch
    && (o.kind ≠ 1 || laneOut s (o.index / 8))
    && (o.kind ≠ 3 || (s.get F.capCfg_MODE o.index = 1 && s.flag F.capCfg_EN o.index))

/-- The target has no room for the value now: a full mailbox, or a stream that holds (R93, R350, R431). -/
def targetFull (s : State) (o : OutVal) : Bool :=
  (o.kind = 5 && mbxDepth ≤ mbxHeld s o.index) || (o.kind = 3 && streamHolds s o.index)

/-- The effect of an output's data (R91). Where a force of the channel ends at this boundary, its register takes the safe code first (R266). -/
def outEffect (o : OutVal) (s : State) : State :=
  match o.kind with
  | 1 =>
    let s := (forceRelease o.index s).set F.chStat_SAMPLE o.index (bits o.data.toNat 24 24)
    { s with sc := { s.sc with fresh := if s.sc.fresh.contains o.index then s.sc.fresh else s.sc.fresh ++ [o.index] } }
  | 2 => s.writeSlot (mirrorAddr (writeFrame s) o.index) o.data
  | 3 => captureWord o.index o.data s
  | 4 =>
    let b := 2 ^ o.index
    let f := s.get F.ilkStat_FLAG 0
    let f := if bits f o.index 1 = 1 then f - b else f
    beginForces (s.set F.ilkStat_FLAG 0 (if o.data ≠ 0 then f + b else f))
  | 5 => mbxAppend o.index ⟨o.data, o.due, mbxTag o.part o.ctx o.epoch, false⟩ s
  | _ => s

/-- The OUT values that took effect at the output's target in this tick. -/
def outsNow (s : State) (o : OutVal) : Nat := mget 0 s.out.now (o.kind * 65536 + o.index)

/-- R93: the effect of an EMIT-AT on its due tick comes before that of the OUT values that its target took in this tick: in a mailbox or a stream
its value stands before theirs, and at any other target the last of theirs stands (DEDUCED, log 205). -/
def emitEffect (o : OutVal) (s : State) : State :=
  let n := outsNow s o
  if n = 0 then outEffect o s
  else
    match o.kind with
    | 3 => let s := outEffect o s; s.setFifo (32 + o.index) ((s.fifo (32 + o.index)).before n)
    | 5 =>
      let s := outEffect o s
      let l := s.mbx o.index
      let keep := l.length - 1 - n
      s.setMbx o.index (l.take keep ++ l.drop (l.length - 1) ++ (l.drop keep).dropLast)
    | _ => s

/-- An output takes effect now; with ACK it is answered with T. -/
def applyOut (o : OutVal) (late : Bool) (s : State) : State :=
  let s := if late then deliveryMiss o.part o.emitAt o.kind o.index o.tag o.due s else s
  let s := if !o.emitAt then
      outEffect o { s with out := { s.out with now := mput s.out.now (o.kind * 65536 + o.index) (outsNow s o + 1) } }
    else if sdiff o.due s.t = 0 then emitEffect o s
    else outEffect o s
  if o.ack then respond nodeHub o.ret false 0 s.t 0 o.part o.urg s else s

/-- An output that is not performed: ACCESS_ERR at the target, and a poisoned acknowledgement (R91). -/
def refuseOut (o : OutVal) (s : State) : State :=
  let s := report 10 (loc 11 (o.kind * 256 + o.index % 256)) o.index (some o.part) false s
  if o.ack then respond nodeHub o.ret true 0 (poisonData causeErr (o.addr s).toNat) (o.addr s) o.part o.urg s else s

/-- The entries that a target holds. -/
def heldAt (s : State) (o : OutVal) : Nat := (s.out.held.filter fun h => h.same o).length

/-- The target cannot take the output now, so that it waits in the interconnect (R93): an EMIT-AT for a full hold store, any value for
a full mailbox or stream (R350, R431), or a value that would come before a held one of its target whose due has come (DEDUCED, log 93). -/
def mustWait (s : State) (o : OutVal) : Bool :=
  targetFull s o || (o.emitAt && 16 ≤ heldAt s o)
  || (!(o.emitAt && 0 < sdiff o.due s.t) && s.out.held.any fun h => h.same o && sdiff h.due s.t ≤ 0)

/-- An output waits behind an earlier one of its target: one for the same stream or mailbox, an EMIT-AT behind an EMIT-AT, and an OUT behind
an OUT (R93). -/
def waitsBehind (w o : OutVal) : Bool := w.same o && (o.kind = 3 || o.kind = 5 || w.emitAt == o.emitAt)

/-- The first waiting output whose target has room and that no earlier one blocks; `pre` holds the earlier ones. -/
def firstRoom (s : State) : List OutVal → List OutVal → Option (OutVal × List OutVal)
  | _, [] => none
  | pre, o :: rest =>
    if !mustWait s o && !(pre.any fun w => waitsBehind w o) then some (o, pre ++ rest) else firstRoom s (pre ++ [o]) rest

/-- The target takes an output: refused, held until its due, or in effect at once (R91–R93) (DEDUCED, log 94). -/
def takeOut (o : OutVal) (s : State) : State :=
  if !performed s o then refuseOut o s
  else if o.emitAt && 0 < sdiff o.due s.t then { s with out := { s.out with held := s.out.held ++ [o] } }
  else applyOut o (sdiff o.due s.t < 0) s

/-- OUTPUT: the oldest output packet at the hub reaches its target, which refuses it under R276 or takes it. Behind one that waits for the same stream or mailbox, or as an EMIT-AT
behind another EMIT-AT, it waits too. -/
def output (s : State) : State :=
  match s.net.outQ with
  | [] => s
  | f :: q =>
    let o := outOf f
    let s := { s with net := { s.net with outQ := q } }
    if badReq f then
      let s := reqErr (loc 4 nodeHub) f s
      if wantsRsp f then send (errRsp f nodeHub s) s else s
    else
    let behind := s.out.waiting.any fun w => waitsBehind w o
    if performed s o && (behind || mustWait s o) then { s with out := { s.out with waiting := s.out.waiting ++ [o] } } else takeOut o s

/-- R93. -/
def execOutput (s : State) : Host.Outcome State Fault Refusal := .next (unlessFatal output s)

/-- EMIT_AT_DUE: the oldest held value whose due has come takes effect; into a full mailbox or stream it goes as soon as there is room,
and is a miss when that is more than one tick after its due (R92, R350). -/
def emitAtDue (s : State) : State :=
  match takeFirst (fun o => sdiff o.due s.t ≤ 0 && !targetFull s o) s.out.held with
  | none => s
  | some (o, rest) =>
    let s := { s with out := { s.out with held := rest } }
    if !performed s o then refuseOut o s else applyOut o (sdiff o.due s.t < -1) s

/-- R92. -/
def execEmitAtDue (s : State) : Host.Outcome State Fault Refusal := .next (unlessFatal emitAtDue s)

/-- OUTPUT_ROOM: the first output that waits for a target with room is taken (R93). -/
def outputRoom (s : State) : State :=
  match firstRoom s [] s.out.waiting with
  | none => s
  | some (o, rest) => takeOut o { s with out := { s.out with waiting := rest } }

/-- R93. -/
def execOutputRoom (s : State) : Host.Outcome State Fault Refusal := .next (unlessFatal outputRoom s)

end Sys2Proof.Machine
end

