-- ==== Sys2Proof/Machine/Pins.lean ====
section
/-!
DEFINITION. Sys2Proof/Machine/Pins.lean: the Mirror Port (R441–R445), the auxiliary pins (R446, R447) and JTAG's instruction register (R448).
-/
namespace Sys2Proof.Machine
open Sys2Proof

/-! ### Mirror Port (R441–R445) -/

/-- The presented frame's contents are copied into the other frame. -/
def copyFrame (frm dst : Nat) (s : State) : State :=
  (List.range 1024).foldl (fun s i => s.writeSlot (mirrorAddr dst i) (s.readSlot (mirrorAddr frm i))) s

/-- MIRROR_FLIP: the flip of a tick boundary at or past FLIP_T (R443). FLIP_EN is in force as of the boundary (R451). -/
def mirrorFlip (s : State) : State :=
  let ft := w48 (s.get F.mpFlipT_T 0)
  let d := sdiff s.t ft
  if !s.flagB F.mpCtl_FLIP_EN 0 || d < 0 then s
  else
    let per := s.get F.mpCtl_PER 0
    let n := d.toNat / per + 1
    let w := writeFrame s
    let s := copyFrame w (1 - w) (s.set F.mpStat_FSEL 0 w)
    let s := s.set F.mpFlipT_T 0 (ft + BitVec.ofNat 48 (n * per)).toNat
    let s := s.set F.mpStat_SKIPS 0 (s.get F.mpStat_SKIPS 0 + (n - 1))
    raiseEvent 501 (s.inc F.mpStat_FLIPS 0)

/-- R443. -/
def execMirrorFlip (s : State) : Host.Outcome State Fault Refusal := .next (unlessFatal mirrorFlip s)

/-- MP_D: the addressed register of the presented frame while EN is 1 and MP_nOE is low, and high impedance otherwise (R441). -/
def mpD (s : State) : Option W :=
  if s.flagB F.mpCtl_EN 0 && s.port.mpOe then some (s.readSlot (mirrorAddr (s.get F.mpStat_FSEL 0) s.port.mpA)) else none

/-- MIRROR_READ: a controller presents MP_A and MP_nOE (R441); the port answers in the fatal state too (R445). -/
def mirrorRead (a : Nat) (oe : Bool) (s : State) : State := { s with port := { s.port with mpA := a, mpOe := oe } }

/-- R441. `oe` is MP_nOE low. -/
def execMirrorRead (a : Fin 1024) (oe : Bool) (s : State) : Host.Outcome State Fault Refusal := .next (mirrorRead a oe s)

/-! ### Auxiliary pins (R446, R447) -/

/-- The function drives its pin. -/
def auxOutput (f : Nat) : Bool := f = fGpo || (fIlko ≤ f && f ≤ fMpfs)

/-- The function drives only from its first event on. -/
def auxFirst (f : Nat) : Bool := f = fPpso || f = fTmro || f = fTrgo

/-- The level that a pin drives, if it drives (R446). -/
def auxDrive (s : State) (k : Nat) : Option Bool :=
  let p := s.aux k
  let f := s.get F.auxCfg_ACTIVE k
  if f = fGpo then some (bits (s.get F.auxOut_PIN 0) k 1 = 1)
  else if f = fIlko then some (bits (ilkOut s) (p.sel % 8) 1 = 1)
  else if f = fFlto then some (if p.sel % 2 = 0 then !nFlt s else !s.flt.nfatal)
  else if f = fMpfs then some (s.flag F.mpStat_FSEL 0)
  else if auxFirst f then (if p.driven then some p.level else none)
  else none

/-- The level at a pin. -/
def auxLevel (s : State) (k : Nat) : Bool := (auxDrive s k).getD (s.aux k).ext

/-- The SEL bits that a function uses (R446). -/
def auxSelOk (f sel : Nat) : Bool :=
  match f with
  | 2 => sel < 16
  | 3 => sel < 8
  | 4 => sel < 2
  | 6 => sel < 16
  | 7 => true
  | _ => f ≤ 8 && sel = 0

/-- A write of AUX_CFG: a reserved function, or a parameter reserved under the function that the write leaves, keeps that field (R9, R446); a
change awaits the next tick boundary (R447) (DEDUCED, log 156). -/
def auxCfgWrite (k f sel : Nat) (s : State) : State :=
  if s.flag F.auxLock_LOCK 0 then s
  else
    let f := if f ≤ 8 then f else s.get F.auxCfg_FUNC k
    let s := if auxSelOk f sel then s.set F.auxCfg_SEL k sel else s
    ((s.set F.auxCfg_FUNC k f).set F.auxCfg_PENDING k 1).setAux k { s.aux k with written := s.ticks }

/-- AUX_SWITCH: at the first tick boundary after the last write the pin changes function (R447). -/
def auxSwitch (k : Nat) (s : State) : State :=
  if !s.flag F.auxCfg_PENDING k || s.ticks ≤ (s.aux k).written then s
  else
    let f := s.get F.auxCfg_FUNC k
    let was := auxDrive s k
    let p := s.aux k
    let p := { p with
      sel := s.get F.auxCfg_SEL k
      level := if auxFirst f then was.getD false else false
      driven := auxFirst f && was.isSome
      started := false, ends := 0, switched := s.ticks }
    ((s.setAux k p).set F.auxCfg_ACTIVE k f).set F.auxCfg_PENDING k 0

/-- R447. -/
def execAuxSwitch (k : Fin 32) (s : State) : Host.Outcome State Fault Refusal := .next (unlessFatal (auxSwitch k) s)

/-- EVIN: the level outside a pin becomes `level`; `early` says that this is before the first sample of a function that took the pin at
this tick boundary, which sets the reference and is no edge (R446, R447). -/
def evin (k : Nat) (level early : Bool) (s : State) : State :=
  let p := s.aux k
  let s' := s.setAux k { p with ext := level }
  if p.ext = level || s.fatal || s.get F.auxCfg_ACTIVE k ≠ fEvin || (early && p.switched = s.ticks) || level = (bits p.sel 3 1 = 1) then s'
  else raiseEvent (504 + p.sel % 8) s'

/-- R446. -/
def execEvin (k : Fin 32) (level early : Bool) (s : State) : Host.Outcome State Fault Refusal := .next (evin k level early s)

/-! ### JTAG instructions (R448) -/

/-- R448: what IDCODE shifts out. -/
def idcode (s : State) : BitVec 32 :=
  BitVec.ofNat 32 (1 + 0x6A7 * 2 + 0x0848 * 2 ^ 12 + s.get F.devId_STEP 0 * 2 ^ 28)

/-- A code is loaded, or BYPASS in its place. `nreset` is nRESET held low. -/
def jtagLoad (code : Nat) (nreset : Bool) (s : State) : State :=
  let scan := code = 0x03 || code = 0x04 || code = 0x05
  let ok := if s.fatal then code = 0xFF || code = 0x01 || code = 0x02
    else code = 0xFF || code = 0x01 || code = 0x02 || code = 0x10 || (scan && nreset)
  { s with port := { s.port with jtag := if ok then code else 0xFF } }

/-- JTAG_INSTRUCTION: a code, a TAP reset, which loads IDCODE, or an update of the boundary register, which SAMPLE/PRELOAD and EXTEST place between
TDI and TDO (R448). -/
def jtagInstruction (q : JtagIn) (nreset : Bool) (s : State) : State :=
  match q with
  | .load code => jtagLoad code.toNat nreset s
  | .reset => { s with port := { s.port with jtag := 0x01 } }
  | .boundary cells =>
    if s.port.jtag = 0x02 ∨ s.port.jtag = 0x03 then { s with port := { s.port with boundary := cells } } else s

/-- R448. -/
def execJtagInstruction (q : JtagIn) (nreset : Bool) (s : State) : Host.Outcome State Fault Refusal :=
  .next (jtagInstruction q nreset s)

/-! ### The pins (R398) -/

/-- What the device's own logic drives on a pin; none is high impedance, or an open-drain output that is released. The xSPI pins idle between
transfers from step 2 on; a sample link's pair carries its frames (`txSlot`). -/
def padSystem (s : State) (p : Pad) : Option Bool :=
  let started := 2 ≤ s.get F.bootStat_STEP 0
  let low (b : Bool) : Option Bool := if b then some false else none
  match p with
  | .ilkOut k => some (bits (ilkOut s) k.val 1 = 1)
  | .nFatal => low s.flt.nfatal
  | .nFlt => low (nFlt s)
  | .mpD i => (mpD s).map fun v => bits v.toNat i.val 1 = 1
  | .mpFsel => if s.flagB F.mpCtl_EN 0 then some (s.flag F.mpStat_FSEL 0) else none
  | .aux k => auxDrive s k.val
  | .xspiCs => if started then some true else none
  | .xspiClk => low started
  | .smbAlert => low (started && nFlt s)
  | .xspiDq _ | .pmbScl | .pmbSda | .smbScl | .smbSda | .sltx _ => none

/-- What a pin drives: HIGHZ releases it, and EXTEST and CLAMP drive it from the boundary register (R448), which drives nothing until an update
(DESIGN CHOICE, log 211). -/
def pad (s : State) (p : Pad) : Option Bool :=
  if s.port.jtag = 0x05 then none
  else if s.port.jtag = 0x03 ∨ s.port.jtag = 0x04 then ((s.port.boundary.find? fun x => x.1 = p).bind (·.2))
  else padSystem s p

/-- The receiver pair of a lane is terminated: from step 8 on, where the lane is an input (R398). -/
def slrxTerminated (s : State) (k : Nat) : Bool := 8 ≤ s.get F.bootStat_STEP 0 && s.get F.laneCfg_DIR k = 1

end Sys2Proof.Machine
end

