-- ==== Sys2Proof/Machine/Power.lean ====
section
/-!
DEFINITION. Sys2Proof/Machine/Power.lean: rails and the voltage cap (R452–R457), peak power (R459), thermal action (R460–R465), the fabric
clock ramp (R23) and the wear ledger's counters (R416, R466).
-/
namespace Sys2Proof.Machine
open Sys2Proof

/-! ### Wear ledger (R416) -/

def ledgerWord (s : State) (i : Nat) : Nat := mget 0 s.mc.ledger i

/-- Set a word of the wear ledger. -/
def setLedger (i v : Nat) (s : State) : State := { s with mc := { s.mc with ledger := mset 0 s.mc.ledger i (v % 2 ^ 48) } }

/-- Rewrite the ledger's CRC. -/
def ledgerCrc (s : State) : State := setLedger 127 (crcWords ((List.range 127).map (ledgerWord s))) s

/-- Add one to a 24-bit half of a word, the low half or the high half, and rewrite the CRC (DEDUCED, log 76). -/
def ledgerInc (i : Nat) (high : Bool) (s : State) : State :=
  let w := ledgerWord s i
  let lo := w % 2 ^ 24
  let hi := w / 2 ^ 24
  ledgerCrc (setLedger i (if high then lo + (hi + 1) % 2 ^ 24 * 2 ^ 24 else (lo + 1) % 2 ^ 24 + hi * 2 ^ 24) s)

/-- R466: the acceleration factors of the eight temperature bins, in thousandths. -/
def lifeFactor : List Nat := [141, 282, 540, 1000, 1344, 1792, 2373, 3118]

/-- R466: the consumed life of a domain, from its eight bins of the ledger: within its rating while at most 1. -/
def consumedLife (s : State) (d : Nat) : Rat :=
  ((lifeFactor.zipIdx.map fun x => ledgerWord s (4 + 8 * d + x.2) * x.1).foldl (· + ·) 0 : Nat) / ((13149000 * 1000 : Nat) : Rat)

/-! ### Rails (R452–R454, R457) -/

/-- Some fabric clock runs. -/
def anyFabric (s : State) : Bool := (List.range 8).any fun f => !s.flag F.fclkCtl_STOPPED f

/-- The limits of a monitor in units of 0.5 mV (R452, R454): low and high; monitor 7 has none (DEDUCED, log 123). -/
def railLimits (s : State) (m : Nat) : Option (Nat × Nat) :=
  match m with
  | 0 => some (if anyFabric s then 1370 else 1240, 1680)
  | 1 => some (1455, 1545)
  | 2 => some (1552, 1648)
  | 3 => some (3420, 3780)
  | 4 => some (3240, 3960)
  | 5 => some (1615, 1785)
  | 6 => some (3420, 3780)
  | _ => none

/-- The monitors whose windows make a RAIL fault. -/
def railWindowed (m : Nat) : Bool := m = 0 || (4 ≤ m && m ≤ 6)

/-- R457: the highest step that VF_SET and monitor 0 permit. -/
def vfCap (s : State) : Nat :=
  let set := 650 + 5 * s.get F.pwrCtl_VF_SET 0
  let v := s.get F.railMon_VOLT 0
  let ok (k : Nat) : Bool := 700 + 25 * k ≤ set && 1370 + 50 * k ≤ v
  if ok 4 then 4 else if ok 3 then 3 else if ok 2 then 2 else if ok 1 then 1 else 0

def setCap (s : State) : State := s.set F.pwrStat_VF_CAP 0 (vfCap s)

/-- R457: the MC writes VF_SET to the regulators of rail 0: a higher voltage at once, a lower one when every facet's CURRENT is within the
cap. -/
def applyVf (s : State) : State :=
  let v := s.get F.pwrCtl_VF_SET 0
  let safe := (List.range 8).all fun f => s.flag F.fclkCtl_STOPPED f || s.get F.fclkCtl_CURRENT f ≤ s.get F.pwrStat_VF_CAP 0
  if s.fatal || s.get F.bootStat_STEP 0 < 5 then s
  else
    { s with mc := { s.mc with pmb := s.mc.pmb.map fun x =>
      let mine := s.flag F.pmbDev_EN x.1 && s.get F.pmbDev_RAIL x.1 = 0 && x.2.linear
      let up := match x.2.vf with | some old => old ≤ v | none => true
      if mine && (up || safe) then (x.1, { x.2 with vf := some v }) else x } }

/-- VDD_H, VDD_M and VDDIO, monitors 1–3, all read within their ranges (R453). -/
def mainRailsOk (s : State) : Bool :=
  [1, 2, 3].all fun m => match railLimits s m with | some (lo, hi) => lo ≤ s.get F.railMon_VOLT m && s.get F.railMon_VOLT m ≤ hi | none => true

/-- What the readings of a tick assert of power-on reset, where it is not asserted yet (R453): one of VDD_H, VDD_M or VDDIO outside its range, and,
in the fatal state, only one of VDD_H below 0.40 V (DEDUCED, log 188). -/
def porAsserted (rails : RailIn) (s : State) : Bool :=
  s.pwr.por = none && rails.any fun x =>
    (x.1 = 1 && x.2.toNat < 800) ||
    (!s.fatal && 1 ≤ x.1.val && x.1.val ≤ 3 && match railLimits s x.1 with | some (lo, hi) => x.2.toNat < lo || hi < x.2.toNat | none => false)

/-- R457: monitor 0 reads VF_SET − 15 mV or more. -/
def vfReached (s : State) : Bool := 2 * (635 + 5 * s.get F.pwrCtl_VF_SET 0) ≤ s.get F.railMon_VOLT 0

/-- A reading of a rail monitor, refreshed at a tick (R454) (DEDUCED, log 122). What monitors 1–3 bring about is power-on reset (R453). -/
def railReading (m v : Nat) (s : State) : State :=
  let s := s.set F.railMon_VOLT m v
  if m = 7 then s.set F.pwrStat_VBAT_LOW 0 (b2n (v < 3400))
  else
    match railLimits s m with
    | none => s
    | some (lo, hi) =>
      let s := (s.set F.railMon_UV m (b2n (v < lo))).set F.railMon_OV m (b2n (hi < v))
      let s := if m = 0 then setCap s else s
      if !railWindowed m then s
      else if v < lo ∨ hi < v then
        { s with pwr := { s.pwr with outside := mput s.pwr.outside m ((mfind s.pwr.outside m).getD s.ticks) } }
      else dropFault 34 (loc 10 (64 + m)) { s with pwr := { s.pwr with outside := mdel s.pwr.outside m } }

/-- RAIL_FAULT: a reading has stood outside its window for 2 µs, 500 ticks, from step 3 of boot on (R454). -/
def railFault (m : Nat) (s : State) : State :=
  match mfind s.pwr.outside m with
  | some since => if since + 500 ≤ s.ticks ∧ collectorOn s then holdFault 34 (loc 10 (64 + m)) 0 s else s
  | none => s

/-- R454. The monitors run in the fatal state too (R388, R389). -/
def execRailFault (m : Fin 8) (s : State) : Host.Outcome State Fault Refusal := .next (railFault m s)

/-- A write of PWR_CTL (R8, R457, R470): the written bits in their places, and whether the write reaches the lower half, where every field
stands. VF_SET and PK_LIM obey the lock as it stood and their reserved encodings; codes 0–9 of VF_SET are reserved while any fabric clock runs;
LOCK only sets. -/
def pwrCtlWrite (v : Nat) (hits : Bool) (s : State) : State :=
  if !hits then s
  else
    let locked := s.flag F.pwrCtl_LOCK 0
    let vf := bits v 1 5
    let pk := bits v 8 20
    let s := if locked || vf = 31 || (vf < 10 && anyFabric s) then s else s.set F.pwrCtl_VF_SET 0 vf
    let s := if locked || pk < 1000 || 19990 < pk then s else s.set F.pwrCtl_PK_LIM 0 pk
    applyVf (setCap (if bits v 0 1 = 1 then s.set F.pwrCtl_LOCK 0 1 else s))

/-! ### Peak power (R459) -/

/-- POWER_ESTIMATE: the hub's estimate of the last microsecond. -/
def powerEstimate (watts : Nat) (s : State) : State :=
  let n := s.pwr.estimates + 1
  let peaks := (s.pwr.peaks.filter fun x => n < x + 1000000) ++ (if 240 < watts then [n] else [])
  let s := { s with pwr := { s.pwr with estimates := n, peaks := peaks } }
  let us := peaks.length
  let s := (s.set F.pwrStat_PKG_W 0 watts).set F.pwrStat_PEAK_US 0 us
  let lim := s.get F.pwrCtl_PK_LIM 0
  if s.flag F.pwrStat_CAPPED 0 then (if 2 * us < lim then s.set F.pwrStat_CAPPED 0 0 else s)
  else if lim ≤ us then (s.set F.pwrStat_CAPPED 0 1).set F.pwrStat_CAP_EVT 0 1
  else s

/-- R459. -/
def execPowerEstimate (watts : BitVec 12) (s : State) : Host.Outcome State Fault Refusal :=
  .next (unlessFatal (powerEstimate watts.toNat) s)

/-! ### The fabric clock ramp (R23, R457, R459, R462, R465) -/

/-- Where a facet's ramp heads. -/
def rampGoal (s : State) (f : Nat) : Nat :=
  if s.flag F.fclkCtl_THROTTLED f || s.flag F.pwrStat_CAPPED 0 then 0
  else min (s.get F.fclkCtl_TARGET f) (s.get F.pwrStat_VF_CAP 0)

/-- A facet's ramp begins, or ends. -/
def setRamp (f : Nat) (o : Option Nat) (s : State) : State :=
  { s with pwr := { s.pwr with ramp := match o with | some d => mput s.pwr.ramp f d | none => mdel s.pwr.ramp f } }

/-- At a tick boundary: a facet whose frequency is not the one it heads for starts to ramp, with its first step at this boundary; a ramp
that was redirected to the frequency that runs ends at its step boundary (R23). -/
def rampWatch (s : State) : State :=
  (List.range 8).foldl (fun s f =>
    let there := s.get F.fclkCtl_CURRENT f = rampGoal s f
    if s.flag F.fclkCtl_STOPPED f then setRamp f none s
    else
      match mfind s.pwr.ramp f with
      | none => if there then s else setRamp f (some s.ticks) s
      | some d => if there && d ≤ s.ticks then setRamp f none s else s) s

/-- CLOCK_RAMP_STEP: one step of 100 MHz; a further one is due 64 ticks later (DEDUCED, log 121). -/
def clockRampStep (f : Nat) (s : State) : State :=
  let cur := s.get F.fclkCtl_CURRENT f
  let goal := rampGoal s f
  match mfind s.pwr.ramp f with
  | none => s
  | some d =>
    if s.flag F.fclkCtl_STOPPED f || s.ticks < d || cur = goal then s
    else
      let next := if cur < goal then cur + 1 else cur - 1
      applyVf ((setRamp f (if next = goal then none else some (s.ticks + 64)) s).set F.fclkCtl_CURRENT f next)

/-- R23. -/
def execClockRampStep (f : Fin 8) (s : State) : Host.Outcome State Fault Refusal := .next (unlessFatal (clockRampStep f) s)

/-! ### Temperature (R460–R464) -/

/-- A reading in units of 1/16 °C. -/
def degrees (v : Nat) : Int := (BitVec.ofNat 16 v).toInt

/-- What a sensor reads as: its last conversion, or 150 °C from the second failure in a row on (R464). -/
def reading (s : State) (n : Nat) : Option Nat := if 2 ≤ mget 0 s.pwr.fails n then some 2400 else mfind s.pwr.temp n

/-- The reading of a sensor in units of 1/16 °C. -/
def sensor (s : State) (n : Nat) : Int := degrees ((reading s n).getD 0)

/-- The sensors of facet `f`'s regions. -/
def facetSensors (f : Nat) : List Nat := [4 * f, 4 * f + 1, 4 * f + 2, 4 * f + 3]

/-- The shed condition: a region sensor at 110 °C or above while the facet is at floor. -/
def shedCond (s : State) (f : Nat) : Bool :=
  s.get F.fclkCtl_CURRENT f = 0 && (facetSensors f).any fun n => 1760 ≤ sensor s n

/-- A partition owns a cluster in a facet. -/
def inFacet (s : State) (f p : Nat) : Bool := (List.range 16).any fun k => s.cOwner (16 * f + k) = p

/-- The partitions of a criticality that a step would halt. -/
def shedSet (s : State) (f k : Nat) : List Nat :=
  (List.range 8).filter fun p => s.get F.partStat_CRIT p = k && inFacet s f p && s.pState p ≠ pHalted

/-- R463: a shedding step: the next criticality, in the order 3, 2, 1, 0, that has a partition to halt (DEDUCED, log 152). -/
def shedStepAt (f : Nat) (s : State) : State :=
  let next := s.get F.thermStat_SHED_NEXT f
  let order := if next = 7 then [] else (List.range (next + 1)).reverse
  let k := order.find? fun k => !(shedSet s f k).isEmpty
  let s := { s with pwr := { s.pwr with shedAt := mput s.pwr.shedAt f s.ticks } }
  let s := s.inc F.thermStat_SHEDS f
  match k with
  | none => s.set F.thermStat_SHED_NEXT f 7
  | some k =>
    let s := (shedSet s f k).foldl (fun s p =>
      let s := if s.pState p = pGuaranteed ∨ s.pState p = pSuspended then markLost p 5 s
        else (s.set F.partStat_LOST p 1).set F.partStat_REASON p 5
      stopPartition p s) s
    s.set F.thermStat_SHED_NEXT f (if k = 0 then 7 else k - 1)

/-- SHED_STEP: 10 ms after the step before: a further step, or the end of the episode (R463). -/
def shedStep (f : Nat) (s : State) : State :=
  match mfind s.pwr.shedAt f with
  | none => s
  | some x =>
    if !s.flag F.thermStat_SHED f || s.ticks < x + 2500000 then s
    else if shedCond s f then shedStepAt f s
    else
      let s := { s with pwr := { s.pwr with shedAt := mdel s.pwr.shedAt f } }
      (s.set F.thermStat_SHED f 0).set F.thermStat_SHED_NEXT f 3

/-- R463. -/
def execShedStep (f : Fin 8) (s : State) : Host.Outcome State Fault Refusal := .next (unlessFatal (shedStep f) s)

/-- THERM_STAT's view of the hottest region sensor. -/
def setHottest (f : Nat) (s : State) : State :=
  let hot := (facetSensors f).foldl (fun b n => if sensor s b < sensor s n then n else b) (4 * f)
  let s := (s.set F.thermStat_HOTTEST_REG f (hot % 4)).set F.thermStat_HOTTEST f ((reading s hot).getD 0)
  s.set F.thermStat_HOT f (b2n (1680 < sensor s hot))

/-- Throttle of a facet begins (R462); the MC counts the entry. -/
def throttle (f : Nat) (s : State) : State :=
  if s.flag F.thermStat_THROT f then s
  else ledgerInc 3 false ((s.set F.thermStat_THROT f 1).set F.fclkCtl_THROTTLED f 1)

/-- R462: how long every region sensor of a facet has read below 97 °C. -/
def coolWatch (f : Nat) (s : State) : State :=
  if (facetSensors f).all fun n => sensor s n < 1552 then
    { s with pwr := { s.pwr with cool := mput s.pwr.cool f ((mfind s.pwr.cool f).getD s.ticks) } }
  else { s with pwr := { s.pwr with cool := mdel s.pwr.cool f } }

/-- A conversion has ended and the sensor reads `v`: R461's actions (DESIGN CHOICE, log 90). In the fatal state the sensors go on, and only the
level of THERMAL_TRIP follows them (R388, R389). -/
def convert (n v : Nat) (s : State) : State :=
  let d := degrees v
  let f := n / 4
  let s := if n < 32 then coolWatch f (setHottest f s) else s
  if 1840 ≤ d then holdFault 33 (loc 10 n) 0 s
  else
    let s := dropFault 33 (loc 10 n) s
    if 32 ≤ n || s.fatal then s
    else
      let s := if 1600 ≤ d then throttle f s else s
      let s := if 1680 < d then loseCapacity ((List.range 8).filter (inFacet s f)) 5 s else s
      if 1760 ≤ d && shedCond s f && !s.flag F.thermStat_SHED f then ledgerInc 3 true (shedStepAt f (s.set F.thermStat_SHED f 1)) else s

/-- SENSOR_CONVERSION: the reading, or none when the conversion failed: two failures in a row read as 150 °C (R464). -/
def sensorConversion (n : Nat) (r : Option Nat) (s : State) : State :=
  match r with
  | some v => convert n v { s with pwr := { s.pwr with temp := mput s.pwr.temp n v, fails := mdel s.pwr.fails n } }
  | none =>
    let k := mget 0 s.pwr.fails n + 1
    let s := { s with pwr := { s.pwr with fails := mput s.pwr.fails n k } }
    if 2 ≤ k then convert n 2400 s else s

/-- R461. -/
def execSensorConversion (n : Fin 40) (r : Option (BitVec 16)) (s : State) : Host.Outcome State Fault Refusal :=
  .next (sensorConversion n (r.map (·.toNat)) s)

/-- THROTTLE_RELEASE: after 1 ms, 250,000 ticks, below 97 °C without a break (R462). -/
def throttleRelease (f : Nat) (s : State) : State :=
  match mfind s.pwr.cool f with
  | some x =>
    if s.flag F.thermStat_THROT f ∧ x + 250000 ≤ s.ticks then (s.set F.thermStat_THROT f 0).set F.fclkCtl_THROTTLED f 0 else s
  | none => s

/-- R462. -/
def execThrottleRelease (f : Fin 8) (s : State) : Host.Outcome State Fault Refusal := .next (unlessFatal (throttleRelease f) s)

/-! ### Reading the sensors (R411) and the wear minute (R416) -/

/-- SENSOR_READ: the MC reads the 40 sensors into TS (DESIGN CHOICE, log 30). -/
def sensorRead (s : State) : State :=
  (List.range 40).foldl (fun s n =>
    match reading s n with
    | none => s
    | some v =>
      let s := if s.flag F.ts_VALID n && degrees v ≤ degrees (s.get F.ts_MAX n) then s else s.set F.ts_MAX n v
      let s := (s.set F.ts_VALUE n v).set F.ts_VALID n 1
      let d := min 8 (n / 4)
      let top := match mfind s.mc.minuteMax d with
        | some x => if degrees x < degrees v then v else x
        | none => v
      { s with mc := { s.mc with minuteMax := mput s.mc.minuteMax d top } }) s

/-- R411. -/
def execSensorRead (s : State) : Host.Outcome State Fault Refusal := .next (unlessFatal sensorRead s)

/-- A write of TS.CLR (R419). -/
def maxClear (n : Nat) (s : State) : State := s.set F.ts_MAX n (s.get F.ts_VALUE n)

/-- R416: the bin of a reading. -/
def wearBin (v : Nat) : Nat :=
  let d := degrees v
  if d < 1040 then 0 else if d < 1200 then 1 else if d < 1360 then 2 else if d < 1520 then 3
  else if d < 1600 then 4 else if d < 1680 then 5 else if d < 1760 then 6 else 7

/-- WEAR_MINUTE: the minute is counted in word 1 and in each domain's bin for its highest reading (DEDUCED, log 76). -/
def wearMinute (s : State) : State :=
  let s := setLedger 1 (ledgerWord s 1 + 1) s
  let s := s.mc.minuteMax.foldl (fun s x =>
    let i := 4 + 8 * x.1 + wearBin x.2
    setLedger i (ledgerWord s i + 1) s) s
  ledgerCrc { s with mc := { s.mc with minuteMax := [] } }

/-- R416. -/
def execWearMinute (s : State) : Host.Outcome State Fault Refusal := .next (unlessFatal wearMinute s)

end Sys2Proof.Machine
end

