-- ==== Sys2Proof/Machine/Views.lean ====
section
/-!
DEFINITION. Sys2Proof/Machine/Views.lean: the 64-bit value that a read of each register returns (R5–R7). Fields that report other state of the
package are computed here from that state, so that every value has one home; and the fatal record, which copies registers (R390, R391).
-/
namespace Sys2Proof.Machine
open Sys2Proof

/-- The bits of a set of numbers below 48. -/
def maskOf (l : List Nat) : Nat := l.foldl (fun a i => a ||| 2 ^ i) 0

/-- R116's occupancy of a band of a PE. -/
def bandCount (s : State) (c pe b : Nat) : Nat := (s.cl.slots.filter fun x => x.cluster = c && x.pe = pe && x.band = b).length

/-- The lanes of a cluster that hold back (R119). -/
def heldLanes (s : State) (c : Nat) : Nat :=
  maskOf ((List.range 16).filter fun p => holdsBack s c p)

/-- The segment of a router output: X+, X−, Y+, Y−, or the gateway port of clusters 0 and 15. -/
def lqSeg (c o : Nat) : Option Nat :=
  let die := c / 16
  let row := c % 16 / 4
  let col := c % 4
  match o with
  | 0 => some (segX die row col 0)
  | 1 => some (segX die row col 1)
  | 2 => some (segY die col row 0)
  | 3 => some (segY die col row 1)
  | _ => if c % 16 = 0 then some (segGw die 0 1) else if c % 16 = 15 then some (segGw die 1 1) else none

/-- COUNT of a partition on a segment, in the latest cycle of its clock (R278). -/
def segCount (s : State) (g p : Nat) : Nat := fgCount s g p (s.nodeCyc (segFrom g))

/-- A core executes instructions (CC_STAT.RUNNING): with RUN = 0 it does so up to the next retirement boundary, where it is STOPPED (R336). -/
def ccRunning (s : State) (c : Nat) : Bool := (coreRuns s c || (!s.fatal && !atBoundary s c)) && !dbgHalted s c

/-- The target assigned to a partition under a kind and index of R91. -/
def targetPart (s : State) (kind i : Nat) : Option Nat := ((s.ap.tgts ++ s.ap.oldTgts).find? fun t => t.kind = kind && t.index = i).map (·.part)

/-- PART and ASSIGNED of a target. -/
def ownFields (fp fa : Fld) (o : Option Nat) : List (Fld × Nat) := [(fp, o.getD 0), (fa, b2n o.isSome)]

/-- The log entry that LOG_IDX selects (R414). -/
def logEntry (s : State) : Option (BitVec 64 × BitVec 64) :=
  let n := s.mc.log.length
  let back := (s.get F.logStat_NEXT 0 + 2 ^ 32 - s.get F.logIdx_SEQ 0) % 2 ^ 32
  if 1 ≤ back ∧ back ≤ n then s.mc.log[n - back]? else none

/-- The kinds that are sticky with a class, as FLT_SUM counts them. -/
def stickyCount (s : State) (cls : Nat) : Nat :=
  ((List.range 64).filter fun k => s.flag F.fkStat_STICKY k && s.get F.fkStat_CLASS k = cls).length

/-- A masked channel of a group is served by a lower enabled group (R232). -/
def rsConflict (s : State) (g : Nat) : Bool :=
  s.flag F.rsCfg_EN g && (List.range g).any fun h => s.flag F.rsCfg_EN h
    && (List.range 8).any fun k => s.get F.rsMask_CH (g * 8 + k) &&& s.get F.rsMask_CH (h * 8 + k) ≠ 0

/-- The latest conversion of a sensor, as REG_TS shows it (R18). -/
def sensorFields (s : State) (n : Nat) : List (Fld × Nat) :=
  [(F.regTs_VALUE, (reading s n).getD 0), (F.regTs_VALID, b2n (mfind s.pwr.temp n).isSome),
   (F.regTs_FAIL, b2n (2 ≤ mget 0 s.pwr.fails n))]

/-- Fields of register `r`, instance `i`, that report other state. -/
def viewFields (s : State) (r : Reg) (i : Nat) : List (Fld × Nat) :=
  match r with
  | .clStatus => [(F.clStatus_CLUSTER, i % 16), (F.clStatus_DIE, i / 16), (F.clStatus_PKG, s.pkg)]
  | .regTs => sensorFields s i
  | .bandOcc =>
    let n (b : Nat) := bandCount s (i / 16) (i % 16) b
    [(F.bandOcc_OCC0, n 0), (F.bandOcc_OCC1, n 1), (F.bandOcc_OCC2, n 2), (F.bandOcc_OCC3, n 3), (F.bandOcc_OCC4, n 4),
     (F.bandOcc_OCC5, n 5), (F.bandOcc_OCC6, n 6), (F.bandOcc_OCC7, n 7), (F.bandOcc_FREE, 16 - s.slotCount (i / 16) (i % 16))]
  | .matchStat => [(F.matchStat_ENTRIES, s.wayCount i), (F.matchStat_RECORDS, (s.recordsOf i).length), (F.matchStat_LONGEST, s.longest i)]
  | .pressure => [(F.pressure_LANES, heldLanes s i)]
  | .poolStat =>
    let r := i / 32
    let p := i / 4 % 8
    let q := i % 4
    [(F.poolStat_FREE, (freeBlocks s r p q).length), (F.poolStat_WAITING, (poolWaits s r p q).length)]
  | .dlStat => [(F.dlStat_BLOCKED, b2n (blocked s i))]
  | .peStat => [(F.peStat_PARKED, (s.cl.parks.filter fun p => p.cluster = i / 16 && p.pe = i % 16).length)]
  | .migStat => [(F.migStat_DRAIN, migDrain s i)]
  | .rtEntry => if i % 32 = 0 then [(F.rtEntry_CLUSTER, i / 32 % 16), (F.rtEntry_DIE, i / 512), (F.rtEntry_PKG, s.pkg), (F.rtEntry_VALID, 1)] else []
  | .rtAlt => if i % 32 = 0 then [(F.rtAlt_CLUSTER, i / 32 % 16), (F.rtAlt_DIE, i / 512), (F.rtAlt_PKG, s.pkg), (F.rtAlt_VALID, 1)] else []
  | .tNow => [(F.tNow_T, s.t.toNat), (F.tNow_ERA, s.era.toNat)]
  | .letData => [(F.letData_CORR, mget 0 s.lens.letTab (s.get F.letAddr_ENC 0 * 4096 + s.get F.letAddr_INDEX 0))]
  | .rscData => [(F.rscData_COEF, (rscCoef s (s.get F.rscAddr_INDEX 0)).emod (2 ^ 24) |>.toNat)]
  | .rsCfg => [(F.rsCfg_CONFLICT, b2n (rsConflict s i))]
  | .pfStat => [(F.pfStat_LEVEL, (s.fifo i).chain.length)]
  | .ilkStat => [(F.ilkStat_OUT, ilkOut s), (F.ilkStat_FORCE, s.get F.ilkForce_FORCE 0), (F.ilkStat_FATAL, b2n s.fatal)]
  | .lq =>
    match lqSeg (i / 40) (i % 40 / 8) with
    | some g => [(F.lq_QUOTA, mget 0 s.net.quota (g * 8 + i % 8)), (F.lq_COUNT, segCount s g (i % 8))]
    | none => []
  | .segQuota =>
    let g := s.get F.segSel_SEG 0
    let p := s.get F.segSel_PART 0
    if 2 ≤ segClass g && segClass g ≤ 5 then
      [(F.segQuota_QUOTA, mget 0 s.net.quota (g * 8 + p)), (F.segQuota_COUNT, segCount s g p)] else []
  | .bankStat => [(F.bankStat_DEFERRED, (s.deferOf i).length)]
  | .ccStat => [(F.ccStat_RUNNING, b2n (ccRunning s i)), (F.ccStat_STOPPED, b2n (!s.flag F.ccCtl_RUN i && atBoundary s i))]
  | .ccDbgData => [(F.ccDbgData_VALUE, (dbgRead s i (s.get F.ccDbg_SEL i)).toNat)]
  | .svDbgData => [(F.svDbgData_VALUE, (dbgRead s 8 (s.get F.svDbg_SEL 0)).toNat)]
  | .schedCore =>
    let cur := runningOn s i
    let off := offer s i
    [(F.schedCore_CUR, cur.getD 0), (F.schedCore_CUR_VALID, b2n cur.isSome), (F.schedCore_OFFER, off.getD 0),
     (F.schedCore_OFFER_VALID, b2n off.isSome)]
  | .gpStat => [(F.gpStat_LEVEL, (s.injList i).length)]
  | .mbxStat => (F.mbxStat_LEVEL, mbxHeld s i) :: ownFields F.mbxStat_PART F.mbxStat_ASSIGNED (targetPart s 5 i)
  | .fltSum => [(F.fltSum_STICKY_C, stickyCount s clsC), (F.fltSum_STICKY_U, stickyCount s clsU), (F.fltSum_STICKY_F, stickyCount s clsF),
      (F.fltSum_NFLT, b2n (nFlt s)), (F.fltSum_NFATAL, b2n s.flt.nfatal)]
  | .frCtl =>
    let w := (vbatWord s 0).toNat
    [(F.frCtl_VALID, bits w 49 1), (F.frCtl_OVERWROTE, bits w 48 1), (F.frCtl_FATALS, bits w 40 8)]
  | .flogStat => [(F.flogStat_LEVEL, s.flt.log.length)]
  | .flogW0 => [(F.flogW0_W0, (s.flt.log.head?.map (·.1.toNat)).getD 0)]
  | .flogW1 => [(F.flogW1_W1, (s.flt.log.head?.map (·.2.toNat)).getD 0)]
  | .fkStat => [(F.fkStat_LIVE, b2n (kindLive s i)), (F.fkStat_WIRE, b2n (kindWire s i))]
  | .logW0 => [(F.logW0_W, ((logEntry s).map (·.1.toNat)).getD 0)]
  | .logW1 => [(F.logW1_W, ((logEntry s).map (·.2.toNat)).getD 0)]
  | .capCfg => ownFields F.capCfg_PART F.capCfg_ASSIGNED (targetPart s 3 i)
  | .capStat => [(F.capStat_NOSRC, b2n (s.get F.capCfg_MODE i = 2 && s.get F.laneCfg_DIR (s.get F.capCfg_LANE i) ≠ 1))]
  | .mpOwn => ownFields F.mpOwn_PART F.mpOwn_ASSIGNED (targetPart s 2 i)
  | .auxIn => [(F.auxIn_PIN, maskOf ((List.range 32).filter (auxLevel s)))]
  | _ => []

/-- What a read of a field returns: zero for a WO field (R7). -/
def fieldRead (s : State) (ov : List (Fld × Nat)) (f : Fld) (i : Nat) : Nat :=
  if f.acc = .wo then 0
  else
    match ov.find? fun x => x.1.id = f.id with
    | some x => x.2 % 2 ^ f.w
    | none => s.get f i

/-- The 64-bit value of a register; bits of no field read as zero (R5, R9). -/
def regView (s : State) (d : RegDef) (i : Nat) : BitVec 64 :=
  let ov := viewFields s d.reg i
  BitVec.ofNat 64 (d.fs.foldl (fun a f => a + fieldRead s ov f i * 2 ^ f.lo) 0)

/-- The value of a register by its name. -/
def viewOf (s : State) (b : Blk) (r : Reg) (i : Nat) : BitVec 64 :=
  match (blkRegs b).find? fun d => d.reg = r with
  | some d => regView s d i
  | none => 0

/-! ### The fatal record (R388, R391) -/

/-- Word `i` of the fatal record, 1–254. -/
def recordWord (s : State) (i : Nat) : Nat :=
  let kinds (p : Nat → Bool) (lo n : Nat) : Nat := maskOf ((List.range n).filter fun k => p (lo + k))
  if i = 1 then (s.flt.decision.map (·.2.toNat)).getD 0
  else if i = 2 then (s.flt.decision.map (·.1.toNat)).getD 0
  else if i = 3 then (viewOf s .devid .devId 0).toNat
  else if i = 4 then (viewOf s .sv .svMisc 0).toNat
  else if i = 5 then (viewOf s .sc .ilkStat 0).toNat
  else if i = 6 then (viewOf s .flt .fltSum 0).toNat
  else if i = 7 then (viewOf s .lens .lensStat 0).toNat
  else if 8 ≤ i ∧ i < 16 then (viewOf s .ap .partStat (i - 8)).toNat
  else if i = 16 then kinds (s.flag F.fkStat_STICKY) 0 48
  else if i = 17 then kinds (s.flag F.fkStat_STICKY) 48 16
  else if i = 18 then kinds (kindLive s) 0 48
  else if i = 19 then kinds (kindLive s) 48 16
  else if 24 ≤ i ∧ i < 64 then (reading s (i - 24)).getD 0
  else if 64 ≤ i ∧ i < 192 then
    match s.flt.decisionLog[(i - 64) / 2]? with
    | some r => (if i % 2 = 0 then r.1 else r.2).toNat
    | none => 0
  else if 192 ≤ i ∧ i < 200 then (viewOf s .pwr .railMon (i - 192)).toNat
  else 0

/-- FATAL_RECORD_WRITE: step 5 of R388: words 1–255, then word 0 with VALID (DEDUCED, log 77). -/
def fatalRecordWrite (s : State) : State :=
  if !s.fatal || s.flt.recordWritten then s
  else
    let w0 := (vbatWord s 0).toNat
    let body := (List.range 254).map fun i => recordWord s (i + 1)
    let held := bits w0 49 1 = 1
    let head := 0x4C465243 + 2 ^ 32 + min 255 (bits w0 40 8 + 1) * 2 ^ 40 + b2n held * 2 ^ 48 + 2 ^ 49
    let words := head :: (body ++ [crcWords body])
    let vbat := (words.zipIdx).foldl (fun m x => mset 0 m x.2 (BitVec.ofNat 64 x.1)) s.flt.vbat
    -- the wear ledger counts the decision (R416)
    ledgerInc 2 true { s with flt := { s.flt with vbat := vbat, recordWritten := true } }

/-- R391. -/
def execFatalRecordWrite (s : State) : Host.Outcome State Fault Refusal := .next (fatalRecordWrite s)

end Sys2Proof.Machine
end

