-- ==== Sys2Proof/Machine/Address.lean ====
section
/-!
DEFINITION. Sys2Proof/Machine/Address.lean: the device address map (R25–R31): what stands at a local address, and the plain write of a register's
fields under its access codes (R7–R9).
-/
namespace Sys2Proof.Machine
open Sys2Proof

/-- What stands at an address of the package. -/
inductive Place where
  /-- a register of a block, with its instance -/
  | reg (b : Blk) (d : RegDef) (i : Nat)
  /-- an unassigned offset of a listed block (R9) -/
  | hole
  /-- a bank word: bank and word -/
  | bank (b w : Nat)
  /-- the upper or lower half of a graph instruction's slot: cluster, and whether it is the upper one -/
  | instr (c : Nat) (upper : Bool)
  /-- an 8-byte part of a microword's slot: cluster and part 0–3 -/
  | micro (c part : Nat)
  /-- a part of a matching-store entry in the debug window -/
  | window (c e part : Nat)
  /-- control-core memory, and MC RAM -/
  | ctlMem
  | mcRam
  | capMem
  | mcBuf
  /-- the MSI-X table and the Pending Bit Array, by offset -/
  | msix (o : Nat)
  | pba (o : Nat)
  /-- a word of the fatal record -/
  | record (i : Nat)
  /-- a Mirror register slot: frame and register -/
  | frame (f i : Nat)
  deriving DecidableEq, Repr

/-- The register of a unit's block at an offset; `u` is the unit's number. -/
def regAt (b : Blk) (u o : Nat) : Place :=
  match findReg (blkRegs b) o with
  | some (d, i) => .reg b d (u * d.count + i)
  | none => .hole

/-- The first register found at an offset in several tables. -/
def regOr (x y : Place) : Place := match x with | .hole => y | p => p

/-- R256: the packing-FIFO registers among a block's registers: `base` is the offset of PF_CFG of the block's first FIFO, number `first`,
of `n`. -/
def pfAt (base first n o : Nat) : Place :=
  if o < base then .hole
  else
    let k := (o - base) / 0x40
    if n ≤ k then .hole
    else
      match (o - base) % 0x40 with
      | 0 => regAt .pfcfg 0 ((first + k) * 8)
      | 8 => regAt .pfstat 0 ((first + k) * 8)
      | 16 => regAt .pfcmd 0 ((first + k) * 8)
      | _ => .hole

/-- R29: the map of a cluster's offset space, by slot offset. -/
def clusterPlace (c o : Nat) : Option Place :=
  if o < 0x80000 then some (.bank (c * 16 + o / 0x8000) (o % 0x8000 / 8))
  else if 0x100000 ≤ o ∧ o < 0x180000 then some (.instr c (o % 16 = 8))
  else if 0x200000 ≤ o ∧ o < 0x210000 then some (.micro c (o % 32 / 8))
  else if 0x300000 ≤ o ∧ o < 0x340000 then some (.window c ((o - 0x300000) / 32) (o % 32 / 8))
  else if o / 0x10000 = 0x40 then some (regAt .tokq c (o % 0x10000))
  else if o / 0x10000 = 0x41 then some (regOr (regAt .rtr c (o % 0x10000)) (regAt .rtrs c (o % 0x10000)))
  else if o / 0x10000 = 0x42 then some (regAt .pe c (o % 0x10000))
  else if o / 0x10000 = 0x43 then some (regAt .clctl c (o % 0x10000))
  else if o / 0x10000 = 0x80000 ∧ c % 4 = 0 then some (regAt .region (c / 4) (o % 0x10000))
  else if o / 0x10000 = 0xC0000 ∧ c % 16 = 0 then
    let f := c / 16
    let x := o % 0x10000
    if 0x100 ≤ x ∧ x < 0x180 then some (regAt .rtrs (128 + 2 * f) (x - 0x100))
    else if 0x180 ≤ x ∧ x < 0x200 then some (regAt .rtrs (129 + 2 * f) (x - 0x180))
    else some .hole
  else none

/-- R31: the map of the hub's register blocks, by block number and slot offset. -/
def blockPlace (k o : Nat) : Option Place :=
  match k with
  | 0x00 => some (regAt .devid 0 o)
  | 0x01 => some (regAt .pwr 0 o)
  | 0x02 => some (regAt .ap 0 o)
  | 0x03 => some (regAt .lens 0 o)
  | 0x04 => some (regOr (regAt .sc 0 o) (pfAt 0x128 0 32 o))
  | 0x05 => some (regAt .sv 0 o)
  | 0x06 => some (regOr (regAt .cap 0 o) (pfAt 0x1028 32 64 o))
  | 0x07 => some (if 0x2000 ≤ o ∧ o < 0x2800 then .record ((o - 0x2000) / 8) else regAt .flt 0 o)
  | 0x08 => some (if 0x8000 ≤ o then .mcBuf else regAt .mc 0 o)
  | 0x09 => some (regAt .sched 0 o)
  | 0x0A => some (regAt .lock 0 o)
  | 0x0B => some (regAt .gport 0 o)
  | 0x0C => some (regAt .cc 0 o)
  | 0x0D => some (if 0x8000 ≤ o ∧ o < 0xA000 then .msix (o - 0x8000) else if 0xA000 ≤ o ∧ o < 0xA040 then .pba (o - 0xA000)
      else regAt .pcie 0 o)
  | 0x0E => some (regAt .cp 0 o)
  | 0x0F => some (regAt .mp 0 o)
  | 0x10 => some (if o < 0x4000 then .frame (o / 0x2000) (o % 0x2000 / 8) else .hole)
  | 0x11 => some .hole
  | 0x12 => some (regAt .aux 0 o)
  | 0x13 => some (regAt .ring 0 o)
  | _ => none

/-- R31: the hub-local map. -/
def hubPlace (o : Nat) : Option Place :=
  if o < 0x200000 ∨ (0x800000 ≤ o ∧ o < 0xE00000) then some .ctlMem
  else if 0x1000000 ≤ o ∧ o < 0x1040000 then some .mcRam
  else if 0x2000000 ≤ o ∧ o < 0x4000000 then some .capMem
  else if o / 0x10000 / 0x100000 = 1 then blockPlace (o / 0x10000 % 0x100000) (o % 0x10000)
  else none

/-- R25, R26: what stands at the slot of a local device address (R3); none outside every block. -/
def placeOf (a : Nat) : Option Place :=
  let slot := a / 8 * 8
  let die := a / 2 ^ 40 % 16
  if die < 8 then clusterPlace (die * 16 + a / 2 ^ 36 % 16) (slot % 2 ^ 36)
  else if die = 8 then hubPlace (slot % 2 ^ 40)
  else none

/-! ### Field writes (R7–R9) -/

/-- The field is a LOCK bit (R8). -/
def isLock (f : Fld) : Bool :=
  [F.scCtl_LOCK.id, F.svCtl_LOCK.id, F.fltCtl_LOCK.id, F.capLock_LOCK.id, F.auxLock_LOCK.id, F.pwrCtl_LOCK.id].contains f.id

/-- The LOCK bit that governs a block's RWL fields is set. -/
def blkLocked (s : State) (b : Blk) (i : Nat) : Bool :=
  match b with
  | .sc => s.flag F.scCtl_LOCK 0
  | .pfcfg => if i < 32 then s.flag F.scCtl_LOCK 0 else s.flag F.capLock_LOCK 0
  | .sv => s.flag F.svCtl_LOCK 0
  | .flt => s.flag F.fltCtl_LOCK 0
  | .cap => s.flag F.capLock_LOCK 0
  | .aux => s.flag F.auxLock_LOCK 0
  | .pwr => s.flag F.pwrCtl_LOCK 0
  | _ => false

/-- The value is no reserved encoding of the field (R9). -/
def Fld.takes (f : Fld) (x : Nat) : Bool := f.ok.isEmpty || f.ok.any fun r => r.1 ≤ x && x ≤ r.2

/-- A written value reaches a field that accepts values: a LOCK bit only sets, a reserved encoding leaves the field (R8, R9). -/
def putField (f : Fld) (i x : Nat) (s : State) : State :=
  if isLock f then (if x = 1 then s.set f i 1 else s) else if f.takes x then s.set f i x else s

/-- A register write: the instance, the bits written (in `m`), and what the register's bits become. -/
structure Wr where
  i : Nat
  m : Nat
  v : Nat
  /-- the written bits over the bits that stand in the rest of the register -/
  full : Nat
  locked : Bool
  deriving DecidableEq, Repr

/-- The value that a write gives a field. -/
def Wr.at_ (w : Wr) (f : Fld) : Nat := bits w.full f.lo f.w

/-- A one-bit field is written with 1. -/
def Wr.hit (w : Wr) (f : Fld) : Bool := bits (w.v &&& w.m) f.lo 1 = 1

/-- The write reaches some bit of a field. -/
def Wr.touches (w : Wr) (f : Fld) : Bool := bits w.m f.lo f.w ≠ 0

/-- A field after a write, by its access code (R7). -/
def writeField (w : Wr) (f : Fld) (s : State) : State :=
  if !w.touches f then s
  else
    match f.acc with
    | .ro | .rws | .wo => s
    | .w1c => let x := s.get f w.i; s.set f w.i (x - (x &&& bits (w.v &&& w.m) f.lo f.w))
    | .rwl => if w.locked then s else putField f w.i (w.at_ f) s
    | .rw => putField f w.i (w.at_ f) s

/-- REGISTER_WRITE: every field of a register takes its bits (R6–R9). -/
def writeFields (w : Wr) (fs : List Fld) (s : State) : State := fs.foldl (fun s f => writeField w f s) s

/-- Some listed field would change. -/
def Wr.changes (w : Wr) (s : State) (fs : List Fld) : Bool := fs.any fun f => w.touches f && w.at_ f ≠ s.get f w.i

end Sys2Proof.Machine
end

