-- ==== Sys2Proof/Machine/RegWrite.lean ====
section
/-!
DEFINITION. Sys2Proof/Machine/RegWrite.lean: what a write does at each register that restricts its writers, acts on other state, or takes effect
later. The answer is whether the write was accepted; a refused write changes nothing and gives an error response (R26, R471).
-/
namespace Sys2Proof.Machine
open Sys2Proof

abbrev WOut := Bool × State

/-- The initiators that R471 names: control-core firmware, the host, the MC, Aperture, and the interlock supervisor. -/
def fromCore (init : Nat) : Bool := init < 8
def fromMc (init : Nat) : Bool := init = 8
def fromAperture (init : Nat) : Bool := init = 9
def fromHost (init : Nat) : Bool := init = 11
def fromSv (init : Nat) : Bool := init = 13

/-- Carry out a write if it is permitted (DEDUCED, log 87). -/
def permit (ok : Bool) (f : State → State) (s : State) : WOut := if ok then (true, f s) else (false, s)

/-- R227, R249: the partition is FREE or LOADING. -/
def settled (s : State) (p : Nat) : Bool := s.pState p = pFree || s.pState p = pLoading

/-- R163, R30: the cluster's PEs are stopped. -/
def pesStopped (s : State) (c : Nat) : Bool := (List.range 16).all fun p => s.flag F.peStat_STOPPED (c * 16 + p)

/-! ### Lens (R206, R213, R218, R227, R232, R234) -/

/-- A trigger with EN = 1 selects a coordinate. -/
def trigUses (s : State) (n : Nat) : Bool := (List.range 256).any fun i => s.flag F.trigCfg_EN i && s.get F.trigCfg_COORD i = n

/-- A resampler group with EN = 1 selects a coordinate. -/
def groupUses (s : State) (n : Nat) : Bool := (List.range 8).any fun g => s.flag F.rsCfg_EN g && s.get F.rsCfg_A_COORD g = n

/-- COORD_CFG (R218): a change of SRC or LINES restarts the coordinate. -/
def coordCfgWrite (w : Wr) (fs : List Fld) (s : State) : State :=
  let s' := writeFields w fs s
  if s'.get F.coordCfg_SRC w.i = s.get F.coordCfg_SRC w.i ∧ s'.get F.coordCfg_LINES w.i = s.get F.coordCfg_LINES w.i then s'
  else restartCoord w.i s'

/-- MAINS_CFG: clearing EN ends the coordinate. -/
def mainsCfgWrite (w : Wr) (fs : List Fld) (s : State) : State :=
  let s' := writeFields w fs s
  if s.flag F.mainsCfg_EN 0 && !s'.flag F.mainsCfg_EN 0 then stopMains s' else s'

/-- R213: the table of an encoder may be written. -/
def letOpen (s : State) (e : Nat) : Bool :=
  !(List.range 4).any fun n => s.get F.coordCfg_SRC n = e + 1 && s.flag F.coordCfg_LET_EN n && s.get F.coordCfg_LINES n ≠ 0

/-- An access to LET_DATA or RSC_DATA moves INDEX on while AUTOINC is set. -/
def letStep (s : State) : State :=
  if s.flag F.letAddr_AUTOINC 0 then s.set F.letAddr_INDEX 0 (s.get F.letAddr_INDEX 0 + 1) else s
def rscStep (s : State) : State :=
  if s.flag F.rscAddr_AUTOINC 0 then s.set F.rscAddr_INDEX 0 (s.get F.rscAddr_INDEX 0 + 1) else s

/-- LET_DATA: the addressed entry takes the value. -/
def letWrite (v : Nat) (s : State) : State :=
  let k := s.get F.letAddr_ENC 0 * 4096 + s.get F.letAddr_INDEX 0
  letStep { s with lens := { s.lens with letTab := mset 0 s.lens.letTab k (v % 2 ^ 24) } }

/-- RSC_DATA: the addressed coefficient takes the value. -/
def rscWrite (v : Nat) (s : State) : State :=
  rscStep { s with lens := { s.lens with rsc := mput s.lens.rsc (s.get F.rscAddr_INDEX 0) (v % 2 ^ 24) } }

/-- T_LOAD (R206): a 64-bit write, or the write of the upper half after that of the lower. -/
def tLoadWrite (w : Wr) (s : State) : State :=
  let low := w.v % 2 ^ 32
  let high := w.v / 2 ^ 32 % 2 ^ 32
  let go (lo : Nat) : State := tLoad (w48 (lo + high % 2 ^ 16 * 2 ^ 32)) (BitVec.ofNat 16 (high / 2 ^ 16)) s
  if bits w.m 0 32 = 0 then go s.lens.loadLow
  else if bits w.m 32 32 = 0 then { s with lens := { s.lens with loadLow := low } }
  else go low

/-- TRIG_CFG (R227, R230): EN at any time; the rest, and a change of PART, only while the partitions are FREE or LOADING; EN = 1 with a
reserved step of a periodic trigger is refused. -/
def trigCfgWrite (w : Wr) (fs : List Fld) (s : State) : WOut :=
  let fixed := w.changes s [F.trigCfg_COORD, F.trigCfg_DIR, F.trigCfg_PERIODIC, F.trigCfg_DATA, F.trigCfg_PART]
  let free := settled s (s.get F.trigCfg_PART w.i) && settled s (w.at_ F.trigCfg_PART)
  let badStep := w.touches F.trigCfg_EN && w.at_ F.trigCfg_EN = 1 && w.at_ F.trigCfg_PERIODIC = 1
    && !F.trigStep_VALUE.takes (s.get F.trigStep_VALUE w.i)
  permit (!(fixed && !free) && !badStep) (fun s => writeFields w fs (noteEn w.i (w.touches F.trigCfg_EN) (keepTrig w.i s))) s

/-- RS_CFG (R232): EN at any time, A_COORD only while EN is 0. -/
def rsCfgWrite (w : Wr) (fs : List Fld) (s : State) : WOut :=
  permit (!(s.flag F.rsCfg_EN w.i && w.changes s [F.rsCfg_A_COORD])) (writeFields w fs) s

/-! ### Sample channels (R249, R250, R259, R264) and the supervisor's block (R364–R374) -/

/-- The fields of LANE_CFG that only the supervisor writes (R259). -/
def laneSvFields : List Fld := [F.laneCfg_EN, F.laneCfg_HF_EN, F.laneCfg_LANE_ILK, F.laneCfg_CERR_LIM]

/-- LANE_CFG: the supervisor's fields, EN among them, take effect at the next tick boundary (R259); DIR and FMT stay while EN is 1 (R238). -/
def laneCfgWrite (w : Wr) (fs : List Fld) (s : State) : State :=
  let k := w.i
  let s0 := keepOld F.laneCfg_EN k (keepOld F.laneCfg_HF_EN k (keepOld F.laneCfg_LANE_ILK k (keepOld F.laneCfg_CERR_LIM k s)))
  let fs := if s.flag F.laneCfg_EN k then fs.filter fun f => f.id ≠ F.laneCfg_DIR.id && f.id ≠ F.laneCfg_FMT.id else fs
  writeFields w fs s0

/-- CH_CFG (R249). -/
def chCfgWrite (w : Wr) (fs : List Fld) (s : State) : WOut :=
  let fixed := w.changes s [F.chCfg_PART, F.chCfg_LAYOUT]
  let free := settled s (s.get F.chCfg_PART w.i) && settled s (w.at_ F.chCfg_PART)
  permit (!(fixed && !free)) (fun s => writeFields w fs (keepOld F.chCfg_EN w.i s)) s

/-- CH_CMP: a change of HEN, LEN or CONSEC clears the channel's counts (R259). -/
def chCmpWrite (w : Wr) (fs : List Fld) (s : State) : State :=
  cmpWritten w.i (w.changes s [F.chCmp_HEN, F.chCmp_LEN, F.chCmp_CONSEC]) (writeFields w fs s)

/-- ILK_TEST: the first sample whose instant lies at or after the next boundary is replaced (R264). -/
def ilkTestWrite (w : Wr) (fs : List Fld) (s : State) : State :=
  let s := writeFields w fs s
  let x : TestSet := ⟨s.t + 1, s.flag F.ilkTest_ARM 0, s.get F.ilkTest_CH 0, s.get F.ilkTest_VALUE 0⟩
  { s with sc := { s.sc with tests := (x :: s.sc.tests).take 8 } }

/-- ILK_FORCE acts at once (R369). -/
def ilkForceWrite (w : Wr) (fs : List Fld) (s : State) : State := beginForces (writeFields w fs s)

/-- SV_CTL (R364): RESET, the comparator self-test, RUN, DBG_EN and LOCK. Each is judged by the state that the write finds; with RESET the others
find no HELD state (DEDUCED, log 57). -/
def svCtlWrite (w : Wr) (s : State) : State :=
  let s' := writeField w F.svCtl_LOCK (writeField w F.svCtl_DBG_EN s)
  let s' := if w.hit F.svCtl_RESET then svResetWrite s' else s'
  let held := s.svState = svHeld && !w.hit F.svCtl_RESET
  let s' := if w.hit F.svCtl_CMP_TEST && held then cmpTest true s' else s'
  if w.hit F.svCtl_RUN && held && s.flag F.svStat_CMP_OK 0 then svRunWrite s' else s'

/-- SV_BOOT must name an address in the supervisor's window (R357); bits [1:0] read as 0 (DEDUCED, log 56). -/
def svBootWrite (w : Wr) (s : State) : State :=
  let pc := w.at_ F.svBoot_PC / 4 * 4
  if w.locked || !(inSvWindow (pc % 2 ^ 44) && pc / 2 ^ 44 = s.pkg) then s else s.set F.svBoot_PC 0 pc

/-- SV_WDOG: PERIOD and EN from the MC and the supervisor (R374), KICK from the supervisor in supervisor mode (R367). -/
def svWdogWrite (init : Nat) (priv : Bool) (w : Wr) (s : State) : WOut :=
  let kicks := w.hit F.svWdog_KICK
  if !(fromMc init || fromSv init) || (kicks && !(fromSv init && priv)) then (false, s)
  else
    let s' := writeField w F.svWdog_EN (writeField w F.svWdog_PERIOD s)
    let s' := if s'.flag F.svWdog_EN 0 && !s.flag F.svWdog_EN 0 then kick s' else s'
    (true, if kicks then kick s' else s')

/-- SV_MBX_IN (R373): from the MC and the host, while it holds no message. -/
def mbxInWrite (init : Nat) (w : Wr) (fs : List Fld) (s : State) : WOut :=
  permit ((fromMc init || fromHost init) && !s.flag F.svStat_IN_FULL 0)
    (fun s => ((writeFields w fs s).set F.svStat_IN_FULL 0 1).set F.svEvt_MBX 0 1) s

/-- SV_MBX_OUT (R367, R373): from the supervisor in supervisor mode, while it holds no message. -/
def mbxOutWrite (init : Nat) (priv : Bool) (w : Wr) (fs : List Fld) (s : State) : WOut :=
  permit (fromSv init && priv && !s.flag F.svStat_OUT_FULL 0) (fun s => (writeFields w fs s).set F.svStat_OUT_FULL 0 1) s

/-! ### Cores, scheduler, locks, graph port (R336, R338, R339, R344, R348, R349, R356) -/

/-- CC_CTL: RUN and RESET (R336). -/
def ccCtlWrite (w : Wr) (s : State) : State :=
  let s := writeField w F.ccCtl_RUN s
  if w.hit F.ccCtl_RESET then coreReset w.i s else s

/-- CC_DBG or SV_DBG of core `k`: SEL, HALT_REQ and STEP. -/
def dbgCtlWrite (k : Nat) (fHalt fStep fSel : Fld) (w : Wr) (s : State) : State :=
  let s := writeField w fSel s
  let s := if w.touches fHalt then haltReqWrite k (w.at_ fHalt = 1) s else s
  if w.hit fStep then stepWrite k s else s

/-- R338: what a thread-mode core may write in the scheduler, lock and graph-port blocks. -/
def threadMay (s : State) (r : Reg) (w : Wr) : Bool :=
  match r with
  | .evCfg => w.hit F.evCfg_PEND && !w.hit F.evCfg_RAISE
      && !w.changes s [F.evCfg_EN, F.evCfg_SLOT, F.evCfg_SLOT_EN, F.evCfg_MSIX_EN]
  | .doorbell => true
  | .lk => w.hit F.lk_RELEASE && !w.hit F.lk_FORCE
  | _ => false

/-- R338, R356: the initiator may write the register of its block, as far as the block decides it. -/
def hubRights (init : Nat) (priv : Bool) (b : Blk) (r : Reg) (w : Wr) (s : State) : Bool :=
  match b with
  | .sched | .gport => if fromCore init then priv || threadMay s r w else fromHost init || fromMc init
  -- the registers of Lens belong to the host and control-core firmware, and to the MC during boot (R236, R396)
  | .lens => fromHost init || fromCore init || (fromMc init && s.get F.bootStat_STEP 0 ≠ 11)
  | .lock => fromHost init || fromMc init || (fromCore init && priv) || threadMay s r w
  | _ => true

/-- THR_CFG: PRIO and AFF, and the operation, which may be refused (R339). -/
def thrCfgWrite (w : Wr) (fs : List Fld) (s : State) : WOut :=
  let op := if w.touches F.thrCfg_OP then w.at_ F.thrCfg_OP else 0
  if op = 0 then (true, writeFields w fs s)
  else
    match thrOp w.i op s with
    | some s' => (true, writeFields w fs s')
    | none => (false, s)

/-- EV_CFG: the fields, and RAISE (R344) (DEDUCED, log 55). -/
def evCfgWrite (w : Wr) (fs : List Fld) (s : State) : State :=
  let s := writeFields w fs s
  if w.hit F.evCfg_RAISE then raiseEvent w.i s else s

/-- LK: RELEASE, then FORCE (R348, R349). When both free the lock LOCK_FREE is raised once (R344). -/
def lkWrite (init : Nat) (w : Wr) (s : State) : State :=
  let owns := s.flag F.lkPeek_HELD w.i && s.get F.lkPeek_OWNER w.i = init
  let s := if w.hit F.lk_RELEASE && !(w.hit F.lk_FORCE && owns) then lockRelease init w.i s else s
  if w.hit F.lk_FORCE then lockForce w.i s else s

/-! ### Fault collector, MC, capture, power -/

/-- FK_CFG: MAXC lies between the kind's base and highest class (R377); MASK may release or assert nFLT. -/
def fkCfgWrite (w : Wr) (s : State) : State :=
  let k := w.i
  let x := w.at_ F.fkCfg_MAXC
  let s := writeField w F.fkCfg_N s
  let s := if baseClass k ≤ x && x ≤ highestClass k then writeField w F.fkCfg_MAXC s else s
  withNFlt (writeField w F.fkCfg_MASK) s

/-- MC_CMD (R417): one command at a time; a reserved OP ends with BADCMD (DEDUCED, log 13). -/
def mcCmdWrite (op : Nat) (s : State) : State :=
  if s.flag F.mcStat_BUSY 0 then s.set F.mcStat_OVERRUN 0 1
  else if op = 0 || 12 ≤ op then raiseEvent 482 ((s.set F.mcStat_OP 0 op).set F.mcStat_RESULT 0 0x10)
  else
    let s := { s with mc := { s.mc with cmd := some (op, s.get F.mcArg_ARG 0) } }
    (s.set F.mcStat_BUSY 0 1).set F.mcStat_OP 0 op

/-- R419: SMB_CFG and PMB_DEV accept writes before RUN from the MC and the host. -/
def setupOpen (init : Nat) (s : State) : Bool := s.get F.bootStat_STEP 0 ≠ 11 && (fromMc init || fromHost init)

/-- DL_CTL: WIN keeps its value while the partition is admitted at criticality 0–2. -/
def dlCtlWrite (w : Wr) (s : State) : State :=
  let p := w.i
  let st := s.pState p
  let admitted := st ≠ pFree && st ≠ pLoading && s.get F.partStat_CRIT p < 3
  let s := if admitted then s else writeField w F.dlCtl_WIN s
  writeField w F.dlCtl_ENABLE (writeField w F.dlCtl_ACTION s)

/-- SPILL_CFG: an area inside 1,024 records, while the cluster is LOADING. -/
def spillCfgWrite (w : Wr) (fs : List Fld) (s : State) : WOut :=
  permit (s.cState w.i = 1 && w.at_ F.spillCfg_BASE + w.at_ F.spillCfg_COUNT ≤ 1024) (writeFields w fs) s

/-- BANK_PWR: TAKE_OFFLINE from the MC, or a move. Every write of STATE to an offline bank gets the error response (R306, R310). -/
def bankPwrRegWrite (init : Nat) (w : Wr) (s : State) : WOut :=
  if !w.touches F.bankPwr_STATE then (true, s)
  else if w.hit F.bankPwr_TAKE_OFFLINE then permit (fromMc init && !s.flag F.bankPwr_OFFLINE w.i) (takeOffline w.i) s
  else bankPwrWrite w.i (w.at_ F.bankPwr_STATE) s

/-- ARITH_STAT: RM and TRAP hold from the next tick boundary (R59). -/
def arithWrite (w : Wr) (fs : List Fld) (s : State) : State :=
  let s := writeFields w fs s
  { s with cl := { s.cl with arithW := if s.cl.arithW.contains w.i then s.cl.arithW else s.cl.arithW ++ [w.i] } }

/-- A write at a register of a block: whether it is accepted, and the state after it. Commands reach a register one at a time (R472), so a
field update that meets a write (R8, R144, R164, R287, R337) is the command before or after it (DEDUCED, log 86; DEDUCED, log 88). -/
def regWrite (init : Nat) (priv full : Bool) (b : Blk) (d : RegDef) (w : Wr) (s : State) : WOut :=
  let fs := d.fs
  let i := w.i
  let plainW : WOut := (true, writeFields w fs s)
  let svMode := fromSv init && priv
  let fw := fromHost init || fromCore init
  if !hubRights init priv b d.reg w s then (false, s)
  else
    match d.reg with
    -- clusters
    | .rtEntry => permit (s.cState (i / 32) = 1 || (fromAperture init && s.ap.migs.any fun x => x.part = s.cOwner (i / 32))) (fun s => if i % 32 = 0 then s else writeFields w fs s) s
    | .spillCfg => spillCfgWrite w fs s
    | .matchHwm => (true, if w.hit F.matchHwm_CLR then s.clearMarks i else s)
    | .lateCnt =>
      let s := writeFields w fs s
      (true, if w.hit F.lateCnt_CLR then s.set F.lateCnt_COUNT i 0 else s)
    | .poolStat =>
      let q := i % 4
      (true, if w.hit F.poolStat_CLR then s.set F.poolStat_LWM i (freeBlocks s (i / 32) (i / 4 % 8) q).length else s)
    -- entries 960–1,023 ignore writes; entries 0–767 come from the standard section alone (R151)
    | .dispatch =>
      if 960 ≤ i % 1024 then (true, s)
      else permit (fromMc init && pesStopped s (i / 1024) && 768 ≤ i % 1024) (writeFields w fs) s
    | .rtAlt | .migCtl | .migStat | .lq | .segQuota | .mpOwn => permit (fromAperture init) (writeFields w fs) s
    | .bankOwn => bankOwnWrite init i (if w.touches F.bankOwn_OWNER then some (w.at_ F.bankOwn_OWNER) else none) (w.hit F.bankOwn_CLR) s
    | .bankPwr => bankPwrRegWrite init w s
    -- Aperture
    | .arithStat => (true, arithWrite w fs s)
    | .dlCtl => (true, dlCtlWrite w s)
    | .apCmd => permit fw (fun s => if w.touches F.apCmd_OP then apCmdWrite w.full s else s) s
    | .apStatus | .apDetail | .apTime | .missInfo | .missTag | .missT | .missDue | .modeTc => permit fw (writeFields w fs) s
    | .partStat => (true, if w.hit F.partStat_ACK then s.set F.partStat_LOST i 0 else s)
    -- Lens
    | .tLoad => permit (s.chainLen = 0) (tLoadWrite w) s
    | .coordCfg => permit (!trigUses s i && !groupUses s i) (coordCfgWrite w fs) s
    | .coordModel | .coordZofs => permit (!trigUses s i && !groupUses s i) (writeFields w fs) s
    | .mainsCfg => permit (!trigUses s 4) (mainsCfgWrite w fs) s
    | .letData => permit (letOpen s (s.get F.letAddr_ENC 0)) (letWrite w.full) s
    | .rscData => permit (!(List.range 8).any fun g => s.flag F.rsCfg_EN g) (rscWrite w.full) s
    | .rsCfg => rsCfgWrite w fs s
    | .rsStart | .rsStep => permit (!s.flag F.rsCfg_EN i) (writeFields w fs) s
    | .rsMask => permit (!s.flag F.rsCfg_EN (i / 8)) (writeFields w fs) s
    | .trigCfg => trigCfgWrite w fs s
    | .trigTarget => (true, writeFields w fs (noteTarget i (keepTrig i s)))
    | .trigStep | .trigDst => permit (settled s (s.get F.trigCfg_PART i)) (writeFields w fs) s
    -- sample channels
    | .laneCfg => permit (svMode || !w.changes s laneSvFields) (laneCfgWrite w fs) s
    | .pfCfg =>
      if i < 32 then (true, writeField w F.pfCfg_IDLE (writeField w F.pfCfg_PROT s))
      else permit (!s.flag F.capCfg_EN (i - 32)) (writeFields w fs) s
    | .pfStat => permit (i < 32 || !s.flag F.capCfg_EN (i - 32)) (writeFields w fs) s
    | .pfCmd => permit (i < 32 || !s.flag F.capCfg_EN (i - 32)) (fun s => if w.hit F.pfCmd_DROP then pfDrop i s else s) s
    | .chCfg => chCfgWrite w fs s
    | .chDst => permit (settled s (s.get F.chCfg_PART i)) (writeFields w fs) s
    | .chLim => permit (svMode && full) (fun s => cmpWritten i false (writeFields w fs s)) s
    | .chCmp => permit svMode (chCmpWrite w fs) s
    | .chSafe => permit svMode (fun s => writeFields w fs (keepOld F.chSafe_SAFE i (keepOld F.chSafe_SAFE_ILK i s))) s
    | .ilkTest => permit svMode (ilkTestWrite w fs) s
    -- package ring and global plane
    | .hubTo => permit (i ≠ 13 || fromSv init || fromMc init) (writeFields w fs) s
    | .barCfg => (true, barCfgWrite i w.full s)
    | .barArrive => (true, if w.touches F.barArrive_CHANNEL then barArriveWrite init (w.at_ F.barArrive_CHANNEL) s else s)
    | .gsched => (true, if w.touches F.gsched_KIND then gschedWrite (w.at_ F.gsched_KIND) (w.hit F.gsched_SYSTEM) s else s)
    -- control cores
    | .ccCtl => permit (fw || fromMc init) (ccCtlWrite w) s
    | .ccBoot => permit (fw || fromMc init) (fun s => s.set F.ccBoot_PC i (w.at_ F.ccBoot_PC / 4 * 4)) s
    | .ccDbg => (true, dbgCtlWrite i F.ccDbg_HALT_REQ F.ccDbg_STEP F.ccDbg_SEL w s)
    | .ccDbgData => permit (s.flag F.ccStat_DBG_HALTED i) (dbgWrite i (s.get F.ccDbg_SEL i) (w48 w.full)) s
    -- scheduler, locks
    | .thrCfg => thrCfgWrite w fs s
    | .schedOp => (true, if w.touches F.schedOp_OP then schedOp init i (w.at_ F.schedOp_OP) s else s)
    | .evCfg => (true, evCfgWrite w fs s)
    | .doorbell => (true, doorbell (w.v &&& w.m) s)
    | .lk => (true, lkWrite init w s)
    -- supervisor
    | .svCtl => permit (fromMc init) (svCtlWrite w) s
    | .svBoot => (true, svBootWrite w s)
    | .svDbg => permit (s.flag F.svCtl_DBG_EN 0) (dbgCtlWrite 8 F.svDbg_HALT_REQ F.svDbg_STEP F.svDbg_SEL w) s
    | .svDbgData => permit (s.flag F.svCtl_DBG_EN 0 && s.svState = svDbg) (dbgWrite 8 (s.get F.svDbg_SEL 0) (w48 w.full)) s
    | .svTmr => (true, (writeFields w fs s).set F.svStat_TMR_ARMED 0 1)
    | .svWdog => svWdogWrite init priv w s
    | .svMbxIn => mbxInWrite init w fs s
    | .svMbxOut => mbxOutWrite init priv w fs s
    | .ilkForce => permit svMode (ilkForceWrite w fs) s
    | .ilkRel => permit svMode (ilkRelease (w.v &&& w.m)) s
    | .chForce => permit svMode (fun s => writeFields w fs (keepOld F.chForce_CH i s)) s
    -- fault collector
    | .flogStat => if w.hit F.flogStat_POP then permit (fw || fromMc init) popLog s else (true, s)
    | .injSel => permit (fw || fromMc init) (writeFields w fs) s
    | .injCtl => if fw || fromMc init then injCtlWrite w.full (w.touches F.injCtl_ARM) s else (false, s)
    | .frCtl => if w.hit F.frCtl_CLR then permit (fromMc init || fromHost init) clearRecord s else (true, s)
    | .fkCfg => (true, fkCfgWrite w s)
    | .fkStat => if w.hit F.fkStat_ACK then permit (fw || fromMc init) (withNFlt (ackKind i)) s else (true, s)
    -- management controller
    | .mcCmd => permit fw (fun s => if w.touches F.mcCmd_OP then mcCmdWrite (w.at_ F.mcCmd_OP) s else s) s
    | .mcArg => permit fw (writeFields w fs) s
    | .smbCfg | .pmbDev => permit (setupOpen init s) (writeFields w fs) s
    | .ts => (true, if w.hit F.ts_CLR then maxClear i s else s)
    -- capture, pins, power
    | .capCfg => capCfgWrite i w.full (w.touches F.capCfg_EN) s
    | .capRing => permit (!s.flag F.capCfg_EN i) (writeFields w fs) s
    | .capRp => (true, capRpWrite i (w.at_ F.capRp_PTR) s)
    | .mpCtl => (true, writeFields w fs (keepOld F.mpCtl_EN 0 (keepOld F.mpCtl_FLIP_EN 0 s)))
    | .auxCfg => (true, if w.touches F.auxCfg_FUNC then auxCfgWrite i (w.at_ F.auxCfg_FUNC) (w.at_ F.auxCfg_SEL) s else s)
    | .pwrCtl => permit (fw || fromMc init) (pwrCtlWrite w.full (w.touches F.pwrCtl_LOCK || w.touches F.pwrCtl_VF_SET || w.touches F.pwrCtl_PK_LIM)) s
    | _ => plainW

end Sys2Proof.Machine
end

