-- ==== Sys2Proof/Machine/Access.lean ====
section
/-!
DEFINITION. Sys2Proof/Machine/Access.lean: reads and writes of the device address map (R25–R31) by the hub's initiators and by requests that
arrive through the network (R274), with their error responses (R26).
-/
namespace Sys2Proof.Machine
open Sys2Proof

/-- What a read answers: a value, or an error response with its cause (R38, R39). -/
inductive Rd where
  | ok (v : BitVec 64)
  | bad (cause : Nat)
  deriving DecidableEq, Repr

/-- The access is aligned to its size (R6, R27). -/
def aligned (full : Bool) (a : Nat) : Bool := a % (if full then 8 else 4) = 0

/-- After the fatal decision only the fault collector's block (R389) and SV_MISC (R362) are read (DEDUCED, log 208). -/
def fatalOpen (s : State) (a : Nat) : Bool :=
  !s.fatal || (a / 2 ^ 40 = 8 && (a % 2 ^ 40 / 0x10000 = 0x100007 || a % 2 ^ 40 / 8 * 8 = 0x1000050200))

/-- The device address of a local address of this package. -/
def deviceAddr (s : State) (a : Nat) : W := w48 (s.pkg * 2 ^ 44 + a)

/-! ### Windows -/

/-- MATCH_DEBUG_READ: the entry is read, and so checked (R117), and is copied into the reader's holding register (R30). `natural` is what the
check meets: 0 nothing, 1 a single-bit, 2 a double-bit error, after which the way is free. -/
def holdEntry (init c e natural : Nat) (s : State) : State :=
  let s := checkWay c e natural s
  let x : Nat × Token × Bool := (e, (s.way c e).getD ⟨0, 0, 0, false⟩, (s.way c e).isSome)
  { s with cl := { s.cl with holding := mput s.cl.holding (c * 16 + init) x } }

/-- R103: the parts of an entry's slot, of the reader's copy. -/
def windowPart (s : State) (init c e part : Nat) : Nat :=
  match mfind s.cl.holding (c * 16 + init) with
  | some (n, t, valid) =>
    if n ≠ e || !valid then 0
    else
      match part with
      | 0 => t.data.toNat
      | 1 => t.due.toNat
      | 2 => t.tag.toNat
      | _ => 1 + b2n t.poison * 2
  | none => 0

/-- A read of the debug window: one at slot offset 0 copies the entry first, one at offset 4 reads the copy (R30). -/
def windowRead (init c e part : Nat) (lower : Bool) (natural : Nat) (s : State) : BitVec 64 × State :=
  let s := if part = 0 && lower then holdEntry init c e natural s else s
  (BitVec.ofNat 64 (windowPart s init c e part), s)

/-- A dword of the MSI-X table (R426). -/
def msixDword (s : State) (i : Nat) : Nat := mget (if i % 4 = 3 then 1 else 0) s.pcie.msixTab i

/-- A dword of the Pending Bit Array. -/
def pbaDword (s : State) (i : Nat) : Nat := maskOf ((List.range 32).filter fun b => (mfind s.pcie.msixPend (i * 32 + b)).isSome)

/-- A write of a table dword: reserved bits of the address and vector-control dwords stay 0. -/
def msixWrite (i v : Nat) (s : State) : State :=
  let v := match i % 4 with
    | 0 => v / 4 * 4
    | 3 => v % 2
    | _ => v
  { s with pcie := { s.pcie with msixTab := mput s.pcie.msixTab i (v % 2 ^ 32) } }

/-! ### Reads with an effect -/

/-- T_NOW: a 32-bit read of the lower half latches the upper half, which the initiator's next read of the upper half returns; a 64-bit
read takes both from one tick. -/
def tNowRead (init : Nat) (full lower : Bool) (v : BitVec 64) (s : State) : BitVec 64 × State :=
  if full then (v, s)
  else if lower then (v, { s with lens := { s.lens with tLatch := mput s.lens.tLatch init (v.toNat / 2 ^ 32) } })
  else
    match mfind s.lens.tLatch init with
    | some h => (BitVec.ofNat 64 (h * 2 ^ 32), { s with lens := { s.lens with tLatch := mdel s.lens.tLatch init } })
    | none => (v, s)

/-- A register's value to a reader, and what the read does (R6). `full` is a 64-bit access, `lower` one that reaches the lower half. -/
def regRead (init : Nat) (priv full lower : Bool) (d : RegDef) (i : Nat) (s : State) : Rd × State :=
  let value : BitVec 64 := regView s d i
  match d.reg with
  | .tNow => let (v, s) := tNowRead init full lower value s; (.ok v, s)
  | .lk =>
    if !lower then (.ok 0, s)
    else if init = 12 then (.bad causeErr, s)
    else let (v, s) := lockAcquire init i s; (.ok (BitVec.ofNat 64 v), s)
  | .schedClaim =>
    if fromSv init || (fromCore init && !priv) then (.bad causeErr, s)
    else if fromCore init && lower then
      match schedClaim init s with
      | (some slot, s) => (.ok (BitVec.ofNat 64 (slot + 256)), s)
      | (none, s) => (.ok 0, s)
    else (.ok 0, s)
  | .letData => (.ok value, letStep s)
  | .rscData => (.ok value, rscStep s)
  | .ccDbgData => if s.flag F.ccStat_DBG_HALTED i then (.ok value, s) else (.bad causeErr, s)
  | .svDbg => if s.flag F.svCtl_DBG_EN 0 then (.ok value, s) else (.bad causeErr, s)
  | .svDbgData => if s.flag F.svCtl_DBG_EN 0 && s.svState = svDbg then (.ok value, s) else (.bad causeErr, s)
  | .svMbxIn => (.ok value, if fromSv init then s.set F.svStat_IN_FULL 0 0 else s)
  | .svMbxOut => (.ok value, if fromMc init || fromHost init then s.set F.svStat_OUT_FULL 0 0 else s)
  | .pfCfg =>
    -- in tap mode FULL_ACT reads 1 (R431, R451)
    let tap := 32 ≤ i && s.get F.capCfg_MODE (i - 32) = 2
    (.ok (if tap then value ||| 8 else value), s)
  | _ => (.ok value, s)

/-- The check of a slot of MC RAM or control-core memory that a read meets: true when it is uncorrectable (R317). -/
def memCheck (a natural : Nat) (s : State) : Bool × State :=
  if placeOf a = some .mcRam then
    let (r, inj, s) := secded [27, 28] (loc 8 9) natural s
    if r = 1 then (false, report 27 (loc 8 9) 0 none inj s)
    else if r = 2 then (true, report 28 (loc 8 9) 0 none inj s)
    else (false, s)
  else
    let (r, s) := ctlCheck a natural s
    (r = 2, s)

/-- A bank word is read by the system class (R298, R301). `op` is the OP of R274 that the violation log shows. -/
def bankSysCheck (b op : Nat) (full : Bool) (a init : Nat) (s : State) : Option Nat :=
  bankCheck s b op (deviceAddr s a) true 0 init false (!full)

/-- A read of a local address: its answer, and the state after it. `natural` is what the memory's checker meets: 0 nothing, 1 a single-bit
error, 2 a double-bit error, 3 a presence state that cannot be read (DEDUCED, log 69). -/
def accRead (init : Nat) (priv full : Bool) (natural a : Nat) (s : State) : Rd × State :=
  if !fatalOpen s a then (.bad causeErr, s)
  else
    match placeOf a with
    | none => (.bad causeErr, s)
    | some (.bank b _) =>
      (match bankSysCheck b 1 full a init s with
      | some k => (.bad causeErr, failAccess b k (deviceAddr s a) true 0 init 1 s)
      | none =>
        match bankRead b full a natural s with
        | (.ok v, s) => (.ok (v.setWidth 64), s)
        | (_, s) => (.bad causeUncorr, s))
    | some p =>
      if !aligned full a then (.bad causeErr, s)
      else
        let slot := a / 8 * 8
        let raw : BitVec 64 := BitVec.ofNat 64 (s.readN slot 8)
        match p with
        | .reg _ d i =>
          let (r, s) := regRead init priv full (a % 8 = 0) d i s
          (match r with
          | .ok v => (.ok (pick full a v), s)
          | .bad c => (.bad c, s))
        | .hole => (.ok 0, s)
        | .bank _ _ => (.bad causeErr, s)
        | .instr _ _ | .micro _ _ | .mcBuf => (.ok (pick full a raw), s)
        | .window c e part =>
          let (v, s) := windowRead init c e part (a % 8 = 0) (min natural 2) s
          (.ok (pick full a v), s)
        | .ctlMem | .mcRam =>
          let (bad, s) := memCheck slot natural s
          if bad then (.bad causeUncorr, s) else (.ok (pick full a raw), s)
        | .capMem => if natural = 2 then (.bad causeUncorr, s) else (.ok (pick full a raw), s)
        | .msix o =>
          let i := o / 8 * 2
          (.ok (pick full a (BitVec.ofNat 64 (msixDword s i + msixDword s (i + 1) * 2 ^ 32))), s)
        | .pba o =>
          let i := o / 8 * 2
          (.ok (pick full a (BitVec.ofNat 64 (pbaDword s i + pbaDword s (i + 1) * 2 ^ 32))), s)
        | .record i => (.ok (pick full a (vbatWord s i)), s)
        | .frame _ _ => (.ok (pick full a ((s.readSlot slot).setWidth 64)), s)

/-- The new content of a slot's low `n` bytes after a write. -/
def slotWrite (full : Bool) (n a v : Nat) (s : State) : State :=
  let slot := a / 8 * 8
  let m := maskAt full a
  let old := s.readN slot n
  let new := (old - (old &&& m)) ||| (valueAt full a v &&& m)
  s.writeN slot (new % 2 ^ (8 * n)) n

/-- A write of a local address: whether it was accepted, and the state after it. -/
def accWrite (init : Nat) (priv full : Bool) (op natural a v : Nat) (s : State) : WOut :=
  if s.fatal then (false, s)
  else
    match placeOf a with
    | none => (false, s)
    | some (.bank b _) =>
      (match bankSysCheck b op full a init s with
      | some k => (false, failAccess b k (deviceAddr s a) true 0 init op s)
      | none =>
        (true, bankWrite b full a v natural s))
    | some p =>
      if !aligned full a then (false, s)
      else
        match p with
        | .reg b d i =>
          let cur := (regView s d i).toNat
          let m := maskAt full a
          let x := valueAt full a v
          regWrite init priv full b d ⟨i, m, x, (cur - (cur &&& m)) ||| (x &&& m), blkLocked s b i⟩ s
        | .hole | .window _ _ _ | .pba _ | .record _ => (true, s)
        | .bank _ _ => (false, s)
        | .instr c upper => permit (s.cState c = 1) (slotWrite full (if upper then 4 else 8) a v) s
        | .micro c part =>
          permit (fromMc init && pesStopped s c) (slotWrite full (if part < 2 then 8 else if part = 2 then 2 else 0) a v) s
        | .ctlMem | .mcRam =>
          if inSvWindow a && s.flag F.svCtl_LOCK 0 && !fromSv init then (false, s)
          else
            let (bad, s) := if full then (false, s) else memCheck (a / 8 * 8) natural s
            if bad then (false, s) else (true, endReservations a (slotWrite full 8 a v s))
        | .capMem | .mcBuf => (true, slotWrite full 8 a v s)
        | .msix o =>
          let i := o / 8 * 2
          let x := valueAt full a v
          let s := if maskAt full a % 2 ^ 32 ≠ 0 then msixWrite i (x % 2 ^ 32) s else s
          (true, if maskAt full a / 2 ^ 32 ≠ 0 then msixWrite (i + 1) (x / 2 ^ 32) s else s)
        | .frame f _ =>
          let i := a % 0x2000 / 8
          permit (f = writeFrame s && (targetPart s 2 i).isNone) (slotWrite full 6 a v) s

/-! ### Requests of the hub's initiators (R274, R280) -/

/-- A transaction number of an initiator that no timer and none of its accesses in `used` holds (R281). -/
def freeTrans (s : State) (init : Nat) (used : List Nat) : Option Nat :=
  (List.range 128).find? fun n => !(s.net.timed.any fun x => x.ret = hubRet s init n) && !used.contains n

/-- An access that stays in the hub of this package is served by its target at once; every other one crosses the network. -/
def direct (s : State) (a : W) : Bool := (a.toNat / 2 ^ 44 = s.pkg && 8 ≤ a.toNat / 2 ^ 40 % 16) || !s.pkgOk (a.toNat / 2 ^ 44)

/-- The local part of a device address; one that names no package of the chain stands outside every block. -/
def localOf (s : State) (a : W) : Nat := if a.toNat / 2 ^ 44 = s.pkg then a.toNat % 2 ^ 44 else 9 * 2 ^ 40

/-- Send a request of a hub initiator into the network and time it; `side` travels beside it. A transaction whose timer stands, running or
expired, is in use (R281) (DEDUCED, log 155). -/
def sendBeside (side : Side) (init trans op : Nat) (full : Bool) (a : W) (data : W) (s : State) : State :=
  let ret := hubRet s init trans
  if s.net.timed.any fun x => x.ret = ret then s
  else
  let f := mkFlit 1 false (reqPay a data op 0 true ret (b2n !full)) [] 8 0 nodeHub
  let f := { f with side := side }
  let s := { s with net := { s.net with hubRsp := s.net.hubRsp.filter fun r => !(r.init = init && r.trans = trans) } }
  send f (startTimer ret a op 0 true 0 s)

/-- An RD or WR of 64 or 32 bits; bits [63:48] of the data travel beside the flit. -/
def sendReq (init trans op : Nat) (full : Bool) (a : W) (data : BitVec 64) (s : State) : State :=
  sendBeside ⟨data.extractLsb' 48 16, 0, 0⟩ init trans op full a (data.setWidth 48) s

/-- A response that a hub initiator has and takes. -/
def takeRsp (init trans : Nat) (s : State) : Option (HubRsp × State) :=
  (takeFirst (fun r : HubRsp => r.init = init && r.trans = trans) s.net.hubRsp).map fun (r, q) =>
    (r, { s with net := { s.net with hubRsp := q } })

/-- A response is left for a hub initiator; an older one of the same transaction is replaced (DESIGN CHOICE, log 82). -/
def leaveRsp (r : HubRsp) (s : State) : State :=
  { s with net := { s.net with hubRsp := (s.net.hubRsp.filter fun x => !(x.init = r.init && x.trans = r.trans)) ++ [r] } }

/-- A read by a hub initiator (DESIGN CHOICE, log 81). -/
def hubRead (init trans : Nat) (priv full : Bool) (natural : Nat) (a : W) (s : State) : State :=
  if direct s a then
    let (r, s) := accRead init priv full natural (localOf s a) s
    match r with
    | .ok v => leaveRsp ⟨init, trans, true, v, 0⟩ s
    | .bad c => leaveRsp ⟨init, trans, false, (poisonData c a.toNat).setWidth 64, a⟩ s
  else sendReq init trans 1 full a 0 s

/-- A write by a hub initiator. -/
def hubWrite (init trans : Nat) (priv full : Bool) (natural : Nat) (a : W) (v : Nat) (s : State) : State :=
  if direct s a then
    match accWrite init priv full 2 natural (localOf s a) v s with
    | (true, s) => leaveRsp ⟨init, trans, true, 0, 0⟩ s
    | (false, s) => leaveRsp ⟨init, trans, false, (poisonData causeErr a.toNat).setWidth 64, a⟩ s
  else sendReq init trans 2 full a (BitVec.ofNat 64 v) s

/-- An 8-bit or 16-bit RD or WR, of which no target outside control-core memory accepts the size (R315): it reaches its target, which answers
with an error response (R26). Beside its flit stands a mark of the size, for which R274 has no place (DESIGN CHOICE, log 46). -/
def hubNarrow (init trans op : Nat) (a : W) (s : State) : State :=
  if direct s a then leaveRsp ⟨init, trans, false, (poisonData causeErr a.toNat).setWidth 64, a⟩ s
  else sendBeside ⟨0, 1, 0⟩ init trans op false a 0 s

/-! ### RD, WR, BWR (R274) -/

/-- The initiator that a request's target sees (R471): the chain port for requests of other packages. -/
def sysInit (s : State) (f : Flit) : Nat := retInit s (reqRet f.pay)

/-- R5, R27: the bytes of the slot at a local address: 16 of a graph instruction, 32 of a microword or a matching-store entry, else 8. -/
def slotBytes (a : Nat) : Nat :=
  match placeOf a with
  | some (.instr _ _) => 16
  | some (.micro _ _) | some (.window _ _ _) => 32
  | _ => 8

/-- The bytes of the slots that a request touches: the first, and the first after them. -/
def reqSlots (s : State) (f : Flit) : Nat × Nat :=
  let a := localOf s (reqAddr f.pay)
  let n := slotBytes a
  let last := a + 8 * (if reqOp f.pay = 13 then (bulkWords f).length - 1 else 0)
  (a / n * n, last / n * n + n)

/-- Two requests of one initiator that meet at a slot, which take effect in the order of their issue (R28). -/
def sameSource (s : State) (f g : Flit) : Bool :=
  reqRet f.pay / 128 = reqRet g.pay / 128
    && decide ((reqSlots s f).1 < (reqSlots s g).2) && decide ((reqSlots s g).1 < (reqSlots s f).2)

/-- The first request with an OP in `p` that meets none of those before it. -/
def firstSys (s : State) (p : Nat → Bool) : List Flit → List Flit → Option (Flit × List Flit)
  | _, [] => none
  | pre, f :: l => if p (reqOp f.pay) && !pre.any (sameSource s f) then some (f, pre ++ l) else firstSys s p (pre ++ [f]) l

/-- The oldest request, among those of some OPs, that stands at its target in this package and may go (R28). -/
def takeSys (p : Nat → Bool) (s : State) : Option (Flit × State) :=
  (firstSys s p [] s.net.sysQ).map fun (f, q) => (f, { s with net := { s.net with sysQ := q } })

/-- A response with bits [63:48] of its value beside it (R27). -/
def respondWide (n ret : Nat) (v : BitVec 64) (cls urg : Nat) (s : State) : State :=
  send { mkFlit 2 false (rspPay ret 0 (v.setWidth 48) 0) [] cls (rspUrg s cls urg) n with side := ⟨v.extractLsb' 48 16, 0, 0⟩ } s

/-- The answer to a request that arrived through the network. -/
def sysAnswer (f : Flit) (r : Rd) (s : State) : State :=
  let cls := if reqSys f.pay then 8 else reqPart f.pay
  match r with
  | .ok v => respondWide f.node (reqRet f.pay) v cls f.urg s
  | .bad c => respond f.node (reqRet f.pay) true 0 (poisonData c (reqAddr f.pay).toNat) (reqAddr f.pay) cls f.urg s

/-- A request that its target refuses under R276. -/
def sysRefuse (f : Flit) (s : State) : State := sysAnswer f (.bad causeErr) (reqErr (loc 0 s.pkg) f s)

/-- The words of a bulk write with what travels beside them: bits [63:48] of the first four. -/
def bulkWide (f : Flit) : List Nat :=
  let his := bits f.side.hi.toNat 0 16 :: (List.range 3).map fun k => bits f.side.tag.toNat (16 * k) 16
  (bulkWords f).zipIdx.map fun x => x.1.toNat + his.getD x.2 0 * 2 ^ 48

/-- Write consecutive slots; false when some slot refused its word. -/
def writeSlots (init natural : Nat) : Nat → List Nat → State → WOut
  | _, [], s => (true, s)
  | a, v :: vs, s =>
    let (ok, s) := accWrite init true true 13 natural a v s
    let (rest, s) := writeSlots init natural (a + 8) vs s
    (ok && rest, s)

/-- RD: a hub initiator's own read, or the oldest request at its target that writes nothing: an RD, a reserved OP, or a bank operation that
names no bank (R26, R276) (DEDUCED, log 84). -/
def sysRead (src : Option HubAcc) (natural : Nat) (s : State) : State :=
  match src with
  | some x => hubRead x.init x.trans x.priv (!x.half) natural x.addr s
  | none =>
    match takeSys (fun o => o ≠ 2 && o ≠ 13) s with
    | none => s
    | some (f, s) =>
      if badReq f then sysRefuse f s
      else if reqOp f.pay ≠ 1 ∨ f.narrow then sysAnswer f (.bad causeErr) s
      else
        let (r, s) := accRead (sysInit s f) true (reqArg f.pay % 2 = 0) natural (localOf s (reqAddr f.pay)) s
        sysAnswer f r s

/-- RD (R274). -/
def execRd (src : Option HubAcc) (err : Fin 4) (s : State) : Host.Outcome State Fault Refusal := .next (unlessFatal (sysRead src err) s)

/-- WR: a hub initiator's own write, or the oldest WR request at its target. -/
def sysWrite (src : Option HubAcc) (v : BitVec 64) (natural : Nat) (s : State) : State :=
  match src with
  | some x => hubWrite x.init x.trans x.priv (!x.half) natural x.addr v.toNat s
  | none =>
    match takeSys (· = 2) s with
    | none => s
    | some (f, s) =>
      if badReq f then sysRefuse f s
      else if f.narrow then sysAnswer f (.bad causeErr) s
      else
        match accWrite (sysInit s f) true (reqArg f.pay % 2 = 0) 2 natural (localOf s (reqAddr f.pay)) (f.side.hi ++ reqData f.pay).toNat s with
        | (true, s) => sysAnswer f (.ok 0) s
        | (false, s) => sysAnswer f (.bad causeErr) s

/-- WR (R274). -/
def execWr (src : Option HubAcc) (v : BitVec 64) (err : Fin 4) (s : State) : Host.Outcome State Fault Refusal :=
  .next (unlessFatal (sysWrite src v err) s)

/-- BWR: the oldest bulk write at its target writes its slots in address order and is answered DONE (DEDUCED, log 85). -/
def bulkWrite (natural : Nat) (s : State) : State :=
  match takeSys (· = 13) s with
  | none => s
  | some (f, s) =>
    if badReq f then sysRefuse f s
    else
      match writeSlots (sysInit s f) natural (localOf s (reqAddr f.pay)) (bulkWide f) s with
      | (true, s) => sysAnswer f (.ok 0) s
      | (false, s) => sysAnswer f (.bad causeErr) s

/-- BWR (R274). -/
def execBwr (err : Fin 4) (s : State) : Host.Outcome State Fault Refusal := .next (unlessFatal (bulkWrite err) s)

/-- MATCH_DEBUG_READ (R30, R103). -/
def execMatchDebugRead (init : Fin 16) (c : Fin 128) (r : WayRead) (s : State) : Host.Outcome State Fault Refusal :=
  .next (unlessFatal (holdEntry init c r.entry r.err) s)

end Sys2Proof.Machine
end

