-- ==== Sys2Proof/Machine/Crypto.lean ====
section
/-!
DEFINITION. Sys2Proof/Machine/Crypto.lean: SHA-384 and ECDSA over P-384, which verify an image (R403). The spec names FIPS 186-5; the
algorithms' constants and steps are those of the published standards (PRESUMED).
-/
namespace Sys2Proof.Machine
open Sys2Proof

/-! ### SHA-384 -/

/-- Binary search from bit `n` − 1 down for the greatest number whose `k`-th power does not exceed `v`. -/
def rootLoop (k v : Nat) : Nat → Nat → Nat
  | 0, x => x
  | n + 1, x => rootLoop k v n (if (x + 2 ^ n) ^ k ≤ v then x + 2 ^ n else x)

/-- The first 64 bits of the fractional part of a square root, and of a cube root. -/
def sqrtFrac (p : Nat) : Nat := rootLoop 2 (p * 2 ^ 128) 70 0 % 2 ^ 64
def cbrtFrac (p : Nat) : Nat := rootLoop 3 (p * 2 ^ 192) 70 0 % 2 ^ 64

def isPrime (n : Nat) : Bool := 2 ≤ n && (List.range n).all fun d => d < 2 || n % d ≠ 0

/-- The first 80 primes. -/
def shaPrimes : List Nat := (List.range 410).filter isPrime

/-- The initial hash value of SHA-384: square roots of the ninth to sixteenth primes. -/
def sha384Init : List (BitVec 64) := ((shaPrimes.drop 8).take 8).map fun p => BitVec.ofNat 64 (sqrtFrac p)

/-- The round constants of SHA-512: cube roots of the first 80 primes. -/
def shaK : List (BitVec 64) := shaPrimes.map fun p => BitVec.ofNat 64 (cbrtFrac p)

def shaRotr (x : BitVec 64) (n : Nat) : BitVec 64 := x.rotateRight n

/-- The message schedule, newest word first: words 0–15, then 64 more. -/
def shaSchedule : Nat → List (BitVec 64) → List (BitVec 64)
  | 0, l => l
  | n + 1, l =>
    let w (i : Nat) : BitVec 64 := l.getD (i - 1) 0
    let s0 := shaRotr (w 15) 1 ^^^ shaRotr (w 15) 8 ^^^ (w 15 >>> 7)
    let s1 := shaRotr (w 2) 19 ^^^ shaRotr (w 2) 61 ^^^ (w 2 >>> 6)
    shaSchedule n ((s1 + w 7 + s0 + w 16) :: l)

/-- One round with its constant and its schedule word. -/
def shaRound (h : List (BitVec 64)) (kw : BitVec 64 × BitVec 64) : List (BitVec 64) :=
  match h with
  | [a, b, c, d, e, f, g, h] =>
    let s1 := shaRotr e 14 ^^^ shaRotr e 18 ^^^ shaRotr e 41
    let ch := (e &&& f) ^^^ (~~~e &&& g)
    let t1 := h + s1 + ch + kw.1 + kw.2
    let s0 := shaRotr a 28 ^^^ shaRotr a 34 ^^^ shaRotr a 39
    let maj := (a &&& b) ^^^ (a &&& c) ^^^ (b &&& c)
    [t1 + s0 + maj, a, b, c, d + t1, e, f, g]
  | l => l

/-- One block of 128 bytes. -/
def shaBlock (h : List (BitVec 64)) (block : List Nat) : List (BitVec 64) :=
  let word (i : Nat) : BitVec 64 := BitVec.ofNat 64 (((block.drop (8 * i)).take 8).foldl (fun a b => a * 256 + b) 0)
  let w := (shaSchedule 64 ((List.range 16).map word).reverse).reverse
  List.zipWith (· + ·) h ((shaK.zip w).foldl shaRound h)

/-- The blocks of a padded message. -/
def shaBlocks : Nat → List Nat → List (BitVec 64) → List (BitVec 64)
  | 0, _, h => h
  | n + 1, l, h => shaBlocks n (l.drop 128) (shaBlock h (l.take 128))

/-- SHA-384 of a list of bytes, as a number whose first byte is the most significant. -/
def sha384 (m : List Nat) : Nat :=
  let n := m.length
  let zeros := (239 - n % 128) % 128
  let padded := m ++ [128] ++ List.replicate zeros 0 ++ (bytesOf 16 (8 * n)).reverse
  ((shaBlocks (padded.length / 128) padded sha384Init).take 6).foldl (fun a w => a * 2 ^ 64 + w.toNat) 0

/-! ### ECDSA over P-384 -/

def p384P : Nat := 2 ^ 384 - 2 ^ 128 - 2 ^ 96 + 2 ^ 32 - 1
def p384N : Nat :=
  0xFFFFFFFFFFFFFFFFFFFFFFFFFFFFFFFFFFFFFFFFFFFFFFFFC7634D81F4372DDF581A0DB248B0A77AECEC196ACCC52973
def p384B : Nat :=
  0xB3312FA7E23EE7E4988E056BE3F82D19181D9C6EFE8141120314088F5013875AC656398D8A2ED19D2A85C8EDD3EC2AEF
def p384Gx : Nat :=
  0xAA87CA22BE8B05378EB1C71EF320AD746E1D3B628BA79B9859F741E082542A385502F25DBF55296C3A545E3872760AB7
def p384Gy : Nat :=
  0x3617DE4A96262C6F5D9E98BF9292DC29F8F41DBD289A147CE9DA3113B5F0B8C00A60B1CE1D7E819D7A431D7C90EA0E5F

/-- `b ^ e mod m`, over `n` bits of the exponent. -/
def powMod (m : Nat) : Nat → Nat → Nat → Nat
  | 0, _, _ => 1 % m
  | n + 1, b, e => (if e % 2 = 1 then b else 1) * powMod m n (b * b % m) (e / 2) % m

/-- The inverse modulo a prime of 384 bits. -/
def invMod (m a : Nat) : Nat := powMod m 384 (a % m) (m - 2)

def subMod (m a b : Nat) : Nat := (a + m - b % m) % m

/-- A point of the curve; none is the point at infinity. -/
abbrev EcPoint := Option (Nat × Nat)

def ecOn (x y : Nat) : Bool := x < p384P && y < p384P && y * y % p384P = (x * x * x + (p384P - 3) * x + p384B) % p384P

def ecAdd (a b : EcPoint) : EcPoint :=
  match a, b with
  | none, b => b
  | a, none => a
  | some (x1, y1), some (x2, y2) =>
    let p := p384P
    if x1 = x2 ∧ (y1 + y2) % p = 0 then none
    else
      let l :=
        if x1 = x2 then (3 * x1 * x1 + (p - 3)) * invMod p (2 * y1) % p
        else subMod p y2 y1 * invMod p (subMod p x2 x1) % p
      let x := subMod p (subMod p (l * l) x1) x2
      some (x, subMod p (l * subMod p x1 x) y1)

/-- `k` times a point, over `n` bits of `k`. -/
def ecMul : Nat → Nat → EcPoint → EcPoint
  | 0, _, _ => none
  | n + 1, k, q => ecAdd (if k % 2 = 1 then q else none) (ecMul n (k / 2) (ecAdd q q))

/-- FIPS 186-5: the signature (r, s) over a digest of 384 bits verifies with the public key (x, y). -/
def ecdsaOk (x y digest r s : Nat) : Bool :=
  ecOn x y && 1 ≤ r && r < p384N && 1 ≤ s && s < p384N &&
    (let w := invMod p384N s
     match ecAdd (ecMul 384 (digest * w % p384N) (some (p384Gx, p384Gy))) (ecMul 384 (r * w % p384N) (some (x, y))) with
     | none => false
     | some (px, _) => px % p384N = r)

end Sys2Proof.Machine
end

