-- ==== Sys2Proof/Machine/Image.lean ====
section
/-!
DEFINITION. Sys2Proof/Machine/Image.lean: the boot flash and its boot record (R399–R401), the Semebor image (R402) and its verification (R403).
-/
namespace Sys2Proof.Machine
open Sys2Proof

/-! ### Flash (R399, R400) -/

/-- A byte of the flash; an erased byte reads as 0xFF. -/
def flashByte (s : State) (a : Nat) : Nat := (mget (0xFF : BitVec 8) s.mc.flash a).toNat

def flashBytes (s : State) (a n : Nat) : List Nat := (List.range n).map fun i => flashByte s (a + i)

/-- Erase `n` bytes. -/
def flashErase (a n : Nat) (s : State) : State :=
  { s with mc := { s.mc with flash := s.mc.flash.filter fun e => e.1 < a || a + n ≤ e.1 } }

/-- Program bytes from an address on. -/
def flashWrite : Nat → List Nat → State → State
  | _, [], s => s
  | a, b :: l, s =>
    flashWrite (a + 1) l { s with mc := { s.mc with flash := mset (0xFF : BitVec 8) s.mc.flash a (BitVec.ofNat 8 b) } }

/-- A little-endian number. -/
def leNat (l : List Nat) : Nat := l.foldr (fun b a => b + 256 * a) 0

/-- A big-endian number. -/
def beNat (l : List Nat) : Nat := l.foldl (fun a b => a * 256 + b) 0

/-- Bytes `a` to `a + n − 1` of a list. -/
def slice (l : List Nat) (a n : Nat) : List Nat := (l.drop a).take n

def field (l : List Nat) (a n : Nat) : Nat := leNat (slice l a n)

/-- The first byte of an image slot. -/
def slotBase (slot : Nat) : Nat := if slot = 0 then 0x01000000 else 0x05000000
def slotSize : Nat := 0x04000000

/-! ### The boot record (R400, R401) -/

/-- The fields of a boot record. -/
structure BootRec where
  seq : Nat
  active : Nat
  pendv : Bool
  pending : Nat
  tries : Nat
  deriving DecidableEq, Repr

/-- The four words of a record without its CRC. -/
def BootRec.words (r : BootRec) : List Nat :=
  [0x4C425231 + 2 ^ 32, r.seq % 2 ^ 32, r.active % 2 + b2n r.pendv * 2 + r.pending % 2 * 4 + r.tries % 8 * 8]

/-- Copy `c` of the record when its magic, format, reserved bits and CRC hold. -/
def bootCopy (s : State) (c : Nat) : Option BootRec :=
  let w (i : Nat) : Nat := leNat (flashBytes s (c * 0x10000 + 8 * i) 8)
  let r : BootRec := ⟨bits (w 1) 0 32, bits (w 2) 0 1, bits (w 2) 1 1 = 1, bits (w 2) 2 1, bits (w 2) 3 3⟩
  if [w 0, w 1, w 2] = r.words && w 3 = crcWords r.words then some r else none

/-- The copy with the later SEQ. -/
def newerCopy (s : State) : Option (Nat × BootRec) :=
  match bootCopy s 0, bootCopy s 1 with
  | some a, some b => if bits (b.seq + 2 ^ 32 - a.seq) 0 32 < 2 ^ 31 ∧ b.seq ≠ a.seq then some (1, b) else some (0, a)
  | some a, none => some (0, a)
  | none, some b => some (1, b)
  | none, none => none

/-- The record in force: with no valid copy ACTIVE is A and PENDV 0. -/
def bootRec (s : State) : BootRec := match newerCopy s with | some (_, r) => r | none => ⟨0, 0, false, 0, 0⟩

/-- Change the record: the older or invalid copy's sector is erased, and the new record written there with the next SEQ (DEDUCED, log 72). -/
def putBootRec (r : BootRec) (s : State) : State :=
  let c := match newerCopy s with | some (0, _) => 1 | _ => 0
  let r := { r with seq := ((bootRec s).seq + 1) % 2 ^ 32 }
  let ws := r.words ++ [crcWords r.words]
  flashWrite (c * 0x10000) (ws.flatMap (bytesOf 8)) (flashErase (c * 0x10000) 0x10000 s)

/-! ### The image (R402) -/

def sConfig : Nat := 0x01
def sUcodeStd : Nat := 0x02
def sUcodeUser : Nat := 0x03
def sCoreFw : Nat := 0x05
def sSvFw : Nat := 0x06
def sRsCoef : Nat := 0x07
def sLet : Nat := 0x08
def sGraph : Nat := 0x09
def sCert : Nat := 0x0A

/-- The entry of a section table at byte `o` of a header. -/
def sectionAt (h : List Nat) (o : Nat) : Section :=
  ⟨field h o 2, field h (o + 2) 2, field h (o + 4) 4, field h (o + 8) 4, field h (o + 16) 8, beNat (slice h (o + 24) 48)⟩

/-- The header of the image in a slot, as its bytes give it. -/
def headerAt (s : State) (slot : Nat) : Header :=
  let h := flashBytes s (slotBase slot) 4096
  let sig := flashBytes s (slotBase slot + 4096) 96
  let n := min (field h 6 2) 48
  ⟨(List.range n).map fun i => sectionAt h (256 + 80 * i), field h 8 4, field h 12 4, field h 16 1, field h 17 1, field h 18 1,
    field h 20 4, slice h 32 97, h, beNat (slice sig 0 48), beNat (slice sig 48 48)⟩

/-- The bytes of a section, as the flash holds them now. -/
def sectionBytes (s : State) (slot : Nat) (x : Section) : List Nat := flashBytes s (slotBase slot + x.offset) x.len

/-- A DEST with the package field replaced by the own package number, as a local address. -/
def destLocal (d : Nat) : Nat := d % 2 ^ 44

/-- The range of a section's destination lies in control-core memory, inside the supervisor's window or outside it: in the local memories,
which are one range (R378), or in the shared memory. -/
def inCtlRange (d n : Nat) (window : Bool) : Bool :=
  let a := destLocal d
  let b := a + (n - 1)
  inCtlMem a && inCtlMem b && (memOf a = 8) == (memOf b = 8) && inSvWindow a == window && inSvWindow b == window

/-- The rule of a section's type for FLAGS, DEST and LEN. -/
def Section.legal (x : Section) : Bool :=
  let d := x.dest
  match x.type with
  | 0x01 => 5 ≤ x.flags && x.flags ≤ 10 && d = 0 && x.len % 16 = 0
  | 0x02 => d = 0 && x.len = 55296
  | 0x03 => x.flags < 32 && d = 0 && x.len = 17920
  | 0x05 => x.flags = 0 && x.len % 8 = 0 && inCtlRange d x.len false
  | 0x06 => x.flags = 0 && x.len % 8 = 0 && inCtlRange d x.len true
  | 0x07 => x.flags = 0 && d = 0 && x.len = 131072
  | 0x08 => x.flags < 4 && d = 0 && x.len = 16384
  | 0x09 =>
    x.flags < 8 && x.len % 16 = 0 &&
      (match placeOf (destLocal d) with | some (.instr _ false) => d % 16 = 0 | _ => false)
  | 0x0A => x.flags < 8 && x.len % 8 = 0 && inCtlRange d x.len false && memOf (destLocal d) = 8
  | _ => false

def Section.overlaps (a b : Section) : Bool := a.offset < b.offset + b.len && b.offset < a.offset + a.len

/-- No two members of a list are related. -/
def pairwiseNot (r : Section → Section → Bool) : List Section → Bool
  | [] => true
  | x :: l => l.all (fun y => !r x y) && pairwiseNot r l

/-- R402, R403 item 1: every byte of the image that neither the header, the signature nor a section holds is 0. -/
def gapsOk (s : State) (slot : Nat) (h : Header) : Bool :=
  (List.range (h.length - 4192)).all fun i =>
    let p := 4192 + i
    (h.sections.any fun x => x.offset ≤ p && p < x.offset + x.len) || (flashBytes s (slotBase slot + p) 1).headD 0 = 0

/-- R402: the bits of a section's body that are given as 0: [62:48] of a CONFIG entry's address word, [31:24] of an entry of RS_COEF and LET. -/
def sectionBodyOk (s : State) (slot : Nat) (x : Section) : Bool :=
  let b := sectionBytes s slot x
  if x.type = sConfig then (List.range (x.len / 16)).all fun i => bits (field b (16 * i) 8) 48 15 = 0
  else if x.type = sRsCoef || x.type = sLet then (List.range (x.len / 4)).all fun i => field b (4 * i + 3) 1 = 0
  else true

/-- R403, item 1: the header. -/
def formatOk (h : Header) : Bool :=
  let b := h.bytes
  let n := field b 6 2
  let zero (a len : Nat) : Bool := (slice b a len).all (· = 0)
  let count (t : Nat) : Nat := (h.sections.filter fun x => x.type = t).length
  let same (t : Nat) (x y : Section) : Bool := x.type = t && y.type = t && x.flags = y.flags
  field b 0 4 = 0x53454D31 && field b 4 2 = 1 && 1 ≤ n && n ≤ 48 && h.length ≤ slotSize && h.svn ≤ 128 && h.key ≤ 3
    && h.revoke < 16 && zero 19 1 && zero 24 8 && h.pub.headD 0 = 4 && zero 129 127
    && ((List.range 48).all fun i =>
      if i < n then zero (256 + 80 * i + 12) 4 && zero (256 + 80 * i + 72) 8 else zero (256 + 80 * i) 80)
    && h.sections.all (fun x => x.offset % 8192 = 0 && 8192 ≤ x.offset && x.offset + x.len ≤ h.length && x.dest < 2 ^ 48 && x.legal)
    && pairwiseNot Section.overlaps h.sections
    && count sUcodeStd = 1 && count sRsCoef = 1 && 1 ≤ count sSvFw
    && pairwiseNot (same sUcodeUser) h.sections && pairwiseNot (same sLet) h.sections

/-- R403, item 2. -/
def imageKeyOk (s : State) (h : Header) : Bool :=
  bits (s.get F.otpStat_KEYS 0) h.key 1 = 1 && bits (s.get F.otpStat_REVOKED 0) h.key 1 = 0 && mfind s.mc.otpKeys h.key = some (sha384 h.pub)

/-- R403, item 3. -/
def signatureOk (h : Header) : Bool :=
  ecdsaOk (beNat (slice h.pub 1 48)) (beNat (slice h.pub 49 48)) (sha384 h.bytes) h.sigR h.sigS

/-- The section's bytes have its digest. -/
def digestOk (s : State) (slot : Nat) (x : Section) : Bool := sha384 (sectionBytes s slot x) = x.digest

/-- The microwords of a section: `n` slots of 32 bytes, each with a word in its low 144 bits. -/
def ucodeWords (b : List Nat) (n : Nat) : List Nat := (List.range n).map fun i => field b (32 * i) 18

/-- The number of microwords in a section, by its type. -/
def ucodeCount (x : Section) : Nat := if x.type = sUcodeStd then 1536 else if x.type = sUcodeUser then 512 else 0

/-- R146, R403 item 6: every microword of the section has good parity. -/
def ucodeOk (s : State) (slot : Nat) (x : Section) : Bool :=
  ucodeCount x = 0 || (ucodeWords (sectionBytes s slot x) (ucodeCount x)).all fun w => parityGroups w = 0

def eNoFlash : Nat := 1
def eFormat : Nat := 2
def eKey : Nat := 3
def eSignature : Nat := 4
def eRollback : Nat := 5
def eDigest : Nat := 6
def eUcode : Nat := 7
def eBist : Nat := 8
def eConfig : Nat := 9
def eSvTest : Nat := 10
def eChain : Nat := 11
def eTimeout : Nat := 12
def eRom : Nat := 13

/-- R403: the error code of the first check that fails; 0 when the image verifies. FORMAT covers the reserved bytes of the whole image
(DEDUCED, log 70). -/
def verifyImage (s : State) (slot : Nat) : Nat :=
  let h := headerAt s slot
  if !(formatOk h && gapsOk s slot h && h.sections.all (sectionBodyOk s slot)) then eFormat
  else if !imageKeyOk s h then eKey
  else if !signatureOk h then eSignature
  else if h.svn < s.get F.otpStat_SVN 0 then eRollback
  else if !h.sections.all (digestOk s slot) then eDigest
  else if !h.sections.all (ucodeOk s slot) then eUcode
  else 0

/-- The words and dispatch entries that a UCODE section carries. -/
def goldenOf (b : List Nat) (base words disp entries : Nat) : Golden :=
  ⟨(ucodeWords b words).zipIdx.map fun (w, i) => (base + i, w),
    (List.range entries).map fun i => (disp + i, field b (32 * words + 8 * i) 8)⟩

/-! ### Loading sections (R405, R406, R410) -/

/-- Write bytes to control-core memory or another plain memory of the package. -/
def loadBytes : Nat → List Nat → State → State
  | _, [], s => s
  | a, b :: l, s => loadBytes (a + 1) l (s.writeByte a (BitVec.ofNat 8 b))

/-- The entries of a CONFIG section: address, size and value. -/
def configEntries (b : List Nat) : List (Nat × Bool × Nat) :=
  (List.range (b.length / 16)).map fun i =>
    let w := field b (16 * i) 8
    (w % 2 ^ 48, bits w 63 1 = 1, field b (16 * i + 8) 8)

/-- The MC writes CONFIG entries in order, with its own package number in each address; false at the first that receives an error
response. -/
def applyConfig : List (Nat × Bool × Nat) → State → WOut
  | [], s => (true, s)
  | (a, half, v) :: l, s =>
    match accWrite 8 true (!half) 2 0 (a % 2 ^ 44) v s with
    | (true, s) => applyConfig l s
    | (false, s) => (false, s)

/-- Write the entries of a LET or RS_COEF section at consecutive indexes. -/
def loadLet (e : Nat) (b : List Nat) (s : State) : State :=
  (List.range 4096).foldl (fun s i =>
    { s with lens := { s.lens with letTab := mset 0 s.lens.letTab (e * 4096 + i) (field b (4 * i) 3) } }) s
def loadRsCoef (b : List Nat) (s : State) : State :=
  (List.range 32768).foldl (fun s i => { s with lens := { s.lens with rsc := mput s.lens.rsc i (field b (4 * i) 3) } }) s

end Sys2Proof.Machine
end

