-- ==== Sys2Proof/Machine/Boot.lean ====
section
/-!
DEFINITION. Sys2Proof/Machine/Boot.lean: resets and the boot sequence (R395–R410, R453, R456), and the snapshot and warm reset of R284, R285.
-/
namespace Sys2Proof.Machine
open Sys2Proof

/-! ### Steps (R396, R397) -/

/-- A step runs unless one before it has failed. -/
def unlessFailed (f : State → State) (s : State) : State := if s.mc.failed then s else f s

/-- A step starts: BOOT_STAT.STEP, and BOOT_STEP in the event log. -/
def startStep (n : Nat) (s : State) : State :=
  let s := s.set F.bootStat_STEP 0 n
  mcEvent 0x0001 (n + s.get F.bootStat_SLOT 0 * 16) { s with mc := { s.mc with stepAt := s.ticks } }

/-- The sections of a type in the booted image, in its order. -/
def sectionsOf (s : State) (t : Nat) : List Section :=
  match s.mc.image with
  | some h => h.sections.filter fun x => x.type = t
  | none => []

/-- Read a section of the booted image again, and use it when its digest still matches; DIGEST otherwise. -/
def withSection (x : Section) (f : List Nat → State → State) (s : State) : State :=
  let slot := s.get F.bootStat_SLOT 0
  if digestOk s slot x then f (sectionBytes s slot x) s else bootFail eDigest s

/-- Load every section of a type. -/
def loadSections (t : Nat) (f : Section → List Nat → State → State) (s : State) : State :=
  (sectionsOf s t).foldl (fun s x => unlessFailed (withSection x (f x)) s) s

/-- Apply the CONFIG entries of a step; one that receives an error response fails the step. -/
def configStep (n : Nat) (s : State) : State :=
  ((sectionsOf s sConfig).filter fun x => x.flags = n).foldl (fun s x =>
    unlessFailed (withSection x fun b s =>
      match applyConfig (configEntries b) s with
      | (true, s) => s
      | (false, s) => bootFail eConfig s) s) s

/-- Write a section to control-core memory, slot by slot. -/
def loadCtl : Nat → Nat → List Nat → State → State
  | 0, _, _, s => s
  | n + 1, a, b, s => loadCtl n (a + 8) (b.drop 8) (ctlWrite a 8 (leNat (b.take 8)) s)

/-- DEDUCED, log 71. -/
def loadFw (x : Section) (b : List Nat) (s : State) : State := loadCtl (b.length / 8) (destLocal x.dest) b s

/-! ### Steps 1–4 -/

/-- The event log takes up its numbering after the newest valid page of the ring (R415): the page that begins at `a`, if it is valid. -/
def logPage (s : State) (a : Nat) : Option (Nat × Nat) :=
  let p := flashBytes s a 256
  let n := field p 4 1
  let crc := crc32 (slice p 0 8 ++ slice p 16 240)
  if 1 ≤ n && n ≤ 15 && field p 8 4 = crc then some (field p 0 4, n) else none

def ringBase : Nat := 0x09000000
def ringPages : Nat := 65536

/-- The newest valid page: its number, the sequence number of its first entry, and its count. -/
def newestPage (s : State) : Option (Nat × Nat × Nat) :=
  let pages := ((s.mc.flash.filter fun e => ringBase ≤ e.1 && e.1 < ringBase + 0x1000000).map fun e => (e.1 - ringBase) / 256).dedup
  pages.foldl (fun best p =>
    match logPage s (ringBase + 256 * p), best with
    | some (q, n), some (_, q', _) => if q ≠ q' ∧ bits (q + 2 ^ 32 - q') 0 32 < 2 ^ 31 then some (p, q, n) else best
    | some (q, n), none => some (p, q, n)
    | none, _ => best) none

/-- DEDUCED, log 79. -/
def logDiscovery (s : State) : State :=
  match newestPage s with
  | some (p, q, n) =>
    let s := s.set F.logStat_NEXT 0 (q + n)
    { s with mc := { s.mc with page := (p + 1) % ringPages } }
  | none => s

/-- Copy the values of register fields from one state to another. -/
def carry (src : State) (l : List (Fld × Nat)) (s : State) : State :=
  l.foldl (fun s x => (List.range x.2).foldl (fun s i => s.set x.1 i (src.get x.1 i)) s) s

/-- The auxiliary pins at reset, each with the level it has outside. -/
def auxOutside (s : State) : List (Nat × AuxPin) := s.port.aux.map fun x => (x.1, { AuxPin.empty with ext := x.2.ext })

/-- What a loss of main power leaves: VBAT memory and the era, flash and OTP; levels outside the pins, and the model's own counters. -/
def coldBase (s : State) : State :=
  let r := State.reset
  let r := { r with
    pending := s.pending, era := s.era, ticks := s.ticks, free := s.free
    flt := { r.flt with vbat := s.flt.vbat }
    mc := { r.mc with flash := s.mc.flash, otpKeys := s.mc.otpKeys, fuses := s.mc.fuses, ledger := s.mc.ledger }
    lens := { r.lens with enc := s.lens.enc }
    cc := { r.cc with cores := r.cc.cores.map fun (c : Core) => { c with resetAt := s.ticks } }
    port := { r.port with aux := auxOutside s } }
  carry s [(F.otpStat_KEYS, 1), (F.otpStat_REVOKED, 1), (F.otpStat_SVN, 1), (F.devId_HEAD, 1), (F.devId_TAIL, 1)] r

/-- R416, R456: the backup domain's integrity word is checked; where it fails its contents are lost, and where only the ledger's CRC fails the
counts are kept. VBAT_LOST shows what this power-up found (DEDUCED, log 192). -/
def checkVbat (ok : Bool) (s : State) : State :=
  if !ok then
    let s := { s with era := 0, flt := { s.flt with vbat := [] }, mc := { s.mc with ledger := [] } }
    mcEvent 0x000C 0 (ledgerCrc (setLedger 0 (0x4C574C31 + 2 ^ 32) (s.set F.pwrStat_VBAT_LOST 0 1)))
  else if ledgerWord s 127 ≠ crcWords ((List.range 127).map (ledgerWord s)) then mcEvent 0x000C 0 (ledgerCrc s)
  else s

/-- R399: the flash answers and meets what it must provide. -/
def flashOk (b : BootIn) : Bool :=
  match b.flash with
  | some f => 2 ≤ f.rev && f.rev ≤ 6 && f.addr4 && 160 ≤ f.mib && f.sectors
  | none => false

/-- Steps 1 and 2: link training starts, the supervisor enters HELD, the ROM and MC RAM are checked (DESIGN CHOICE, log 80). -/
def steps12 (b : BootIn) (s : State) : State :=
  let s := (s.set F.devId_HEAD 0 (b2n b.head)).set F.devId_TAIL 0 (b2n b.tail)
  let s := if flashOk b then logDiscovery s else s
  let s := startStep 1 s
  let s := linkEvent ((s.set F.svStat_STATE 0 svHeld).set F.pcieStat_LINK 0 1)
  let s := ledgerInc 2 false (checkVbat b.vbat s)
  let s := startStep 2 s
  if b.rom then s else bootFail eRom s

/-- R401: the slot that is tried first, with the record rewritten. -/
def chooseSlot (s : State) : Nat × State :=
  let r := bootRec s
  if r.pendv && r.tries < 3 then (r.pending, putBootRec { r with tries := r.tries + 1 } s)
  else if r.pendv then (r.active, mcEvent 0x0005 r.pending (putBootRec { r with pendv := false } s))
  else (r.active, s)

/-- The image of a slot is booted: its header is kept as the manifest (DEDUCED, log 73). -/
def bootSlot (slot : Nat) (s : State) : State :=
  let h := headerAt s slot
  let s := (s.set F.bootStat_SLOT 0 slot).set F.bootStat_VERSION 0 h.version
  mcEvent 0x0004 (slot + h.svn * 2) { s with mc := { s.mc with image := some h } }

/-- Steps 3 and 4: the fault collector starts, the flash is found and its mode chosen (R399), and an image is chosen and verified. What the flash
says of itself is the command's (DESIGN CHOICE, log 193). -/
def steps34 (b : BootIn) (s : State) : State :=
  let s := startCollector (startStep 3 s)
  if !flashOk b then bootFail eNoFlash (s.set F.bootStat_RECOVERY 0 1)
  else
    let s := { s with mc := { s.mc with octal := b.flash.any (·.octal) } }
    let (first, s) := chooseSlot s
    let s := startStep 4 s
    if verifyImage s first = 0 then bootSlot first s
    else
      let s := mcEvent 0x0005 first s
      let other := 1 - first
      let e := verifyImage s other
      if e = 0 then bootSlot other s else bootFail e (s.set F.bootStat_RECOVERY 0 1)

/-! ### Steps 5–8 (R307, R308, R404–R407, R412, R457) -/

/-- Step 5: CONFIG, fuses, and the regulators; a warm reset keeps the MC's last readings of them (R395). -/
def step5 (b : BootIn) (s : State) : State :=
  let s := configStep 5 (startStep 5 s)
  unlessFailed (fun s =>
    let s := s.mc.fuses.foldl (fun s e => s.set F.bankStat_SPARES e.1 e.2.length) s
    let s := (List.range 8).foldl (fun s r =>
      if !s.flag F.pmbDev_EN r then s
      else
        let lin := bits b.linear.toNat r 1 = 1
        let s := if lin then s else reportU 38 (loc 7 8) 0 s
        let old := (mfind s.mc.pmb r).getD ⟨⟨0, 0, 0, 0⟩, 0, lin, none⟩
        { s with mc := { s.mc with pmb := mput s.mc.pmb r { old with linear := lin, vf := none } } }) s
    applyVf s) s

/-- R308: the outcome of BIST in a bank, with the spare columns then in use. -/
def bistOutcome (s : State) (b : Nat) (x : Option BistFind) : Nat × Nat :=
  let fused := (mget [] s.mc.fuses b).length
  match x with
  | some f =>
    if f.unexplained || 4 < fused + f.columns then (3, fused)
    else if f.columns = 0 then (if fused = 0 then 0 else 1, fused)
    else (2, fused + f.columns)
  | none => (if fused = 0 then 0 else 1, fused)

/-- A bank's BIST outcome: BANK_STAT, the event log, and an offline bank is powered off (R309). -/
def bistBank (b : Nat) (o : Nat × Nat) (s : State) : State :=
  let s := (s.set F.bankStat_BIST b o.1).set F.bankStat_SPARES b o.2
  let s := if o.1 = 0 then s else mcEvent 0x0003 (b + o.1 * 2 ^ 11) s
  if o.1 = 3 then ((s.set F.bankPwr_OFFLINE b 1).set F.bankPwr_STATE b 2).set F.bankPwr_CURRENT b 2 else s

/-- R416: words 76–84 of the wear ledger: SOFT and OFFLINE counts of this BIST, and the highest OFFLINE count ever. -/
def ledgerBist (i soft off : Nat) (s : State) : State :=
  setLedger i (soft % 2 ^ 16 + off % 2 ^ 16 * 2 ^ 16 + max off (bits (ledgerWord s i) 32 16) * 2 ^ 32) s

/-- Step 6: the fabric clocks start at floor, and BIST runs. -/
def step6 (b : BootIn) (s : State) : State :=
  let s := configStep 6 (startStep 6 s)
  unlessFailed (fun s =>
    if s.get F.pwrCtl_VF_SET 0 < 10 then bootFail eConfig s
    else
      let s := (List.range 8).foldl (fun s f => s.set F.fclkCtl_STOPPED f 0) s
      let banks := (s.mc.fuses.map (·.1) ++ b.bist.map fun x => x.bank.val).dedup
      let out := banks.map fun k => (k, bistOutcome s k (b.bist.find? fun x => x.bank.val = k))
      let s := out.foldl (fun s x => bistBank x.1 x.2 s) s
      let cnt (f o : Nat) : Nat := (out.filter fun x => x.1 / 256 = f && x.2.1 = o).length
      let s := (List.range 8).foldl (fun s f => ledgerBist (76 + f) (cnt f 2) (cnt f 3) s) s
      let s := ledgerCrc (ledgerBist 84 b.hubSoft.toNat b.hubOff.toNat s)
      if b.hubOff = 0 then s else bootFail eBist s) s

/-- The PEs of a cluster are no longer stopped. -/
def startPes (c : Nat) (s : State) : State :=
  (List.range 16).foldl (fun s pe => s.set F.peStat_STOPPED (c * 16 + pe) 0) s

/-- Step 7: UCODE_STD goes to every cluster, whose PEs then start, and the golden copies to MC RAM (R161, R162, R405). -/
def step7 (s : State) : State :=
  let s := startStep 7 s
  let slot := s.get F.bootStat_SLOT 0
  let s := (sectionsOf s sUcodeUser).foldl (fun s x => unlessFailed (withSection x fun b s =>
    { s with mc := { s.mc with gUser := mput s.mc.gUser x.flags (goldenOf b 0x600 512 768 192) } }) s) s
  let s := loadSections sUcodeStd (fun x b s =>
    if !ucodeOk s slot x then bootFail eUcode s
    else
      let g := goldenOf b 0 1536 0 768
      let s := { s with mc := { s.mc with gStd := g } }
      (List.range 128).foldl (fun s c => startPes c ((writeGolden c g s).set F.csStat_STD_VER c x.flags)) s) s
  unlessFailed (configStep 7) s

/-- RSC_ADDR, and LET_ADDR of an image with LET sections, after the MC has written the tables through them: ENC names the encoder written last,
and where the MC leaves the rest the spec does not say. -/
def addrsOpen (s : State) : State :=
  let s := match (sectionsOf s sLet).getLast? with
    | none => s
    | some x => ((s.setFree F.letAddr_INDEX 0).set F.letAddr_ENC 0 x.flags).setFree F.letAddr_AUTOINC 0
  (s.setFree F.rscAddr_INDEX 0).setFree F.rscAddr_AUTOINC 0

/-- R407: the supervisor's bring-up. -/
def bringUp (b : BootIn) (s : State) : State :=
  let s := cmpTest b.cmp s
  if s.flag F.svStat_CMP_OK 0 then svRunWrite s else bootFail eSvTest s

/-- Step 8: tables, supervisor firmware, CONFIG, and the supervisor (R406, R407) (DEDUCED, log 75). -/
def step8 (b : BootIn) (s : State) : State :=
  let s := loadSections sLet (fun x => loadLet x.flags) (startStep 8 s)
  let s := addrsOpen (loadSections sRsCoef (fun _ => loadRsCoef) s)
  let s := loadSections sSvFw loadFw s
  unlessFailed (bringUp b) (unlessFailed (configStep 8) s)

/-! ### Steps 9 and 10 (R408–R410) -/

/-- Step 9 starts: a port that a strap excludes trains no link; the head takes number 0 and an ENUM is due. -/
def step9 (s : State) : State :=
  let s := configStep 9 (startStep 9 s)
  let head := s.flag F.devId_HEAD 0
  let s := if head then linkTo true 4 s else s
  let s := if s.flag F.devId_TAIL 0 then linkTo false 4 s else s
  { s with chain := { s.chain with enumDue := head } }

/-- Step 10 starts: CORE_FW, then CONFIG, which releases the control cores. -/
def step10 (s : State) : State :=
  let s := loadSections sCoreFw loadFw (startStep 10 s)
  unlessFailed (configStep 10) s

/-- R409: a link that the straps require, ENUM or DONE is missing. -/
def chainMissing (s : State) : Bool :=
  (!s.flag F.devId_HEAD 0 && (!s.chain.got || !cpUp s 0)) || (!s.flag F.devId_TAIL 0 && !cpUp s 1) || s.chainLen = 0

/-- At a tick boundary: step 9 ends once CHAIN_LEN is nonzero and the package is the head or locked to chain time; it fails where a link, ENUM or
DONE is missing 200 ms, 50,000,000 ticks, after its start (R408, R409). -/
def bootTick (s : State) : State :=
  if !inStep9 s || s.fatal then s
  else if s.chainLen ≠ 0 && (s.flag F.devId_HEAD 0 || s.get F.lensStat_TB_STATE 0 = 5) then step10 s
  else if s.ticks = s.mc.stepAt + 50000000 && chainMissing s then bootFail eChain s
  else s

/-- The steps after step 5: after a warm reset 6–8 and 10, else 6–9 (R395). -/
def stepsOn (b : BootIn) (s : State) : State :=
  let warm := s.flag F.bootStat_WARM 0
  let s := unlessFailed (step8 b) (unlessFailed step7 (step6 b s))
  unlessFailed (if warm then step10 else step9) s

/-- Step 5 ends, and the steps after it run, once monitor 0 reads VF_SET − 15 mV or more (R457). -/
def awaitVf (s : State) : State :=
  match s.mc.boot with
  | some b => if vfReached s then stepsOn b { s with mc := { s.mc with boot := none } } else s
  | none => s

/-- Step 5 with its wait. -/
def step5Wait (b : BootIn) (s : State) : State :=
  unlessFailed (fun s => awaitVf { s with mc := { s.mc with boot := some b } }) (step5 b s)

/-- Power-on reset may be released, or is not asserted: VDD_H, VDD_M and VDDIO have stayed within their ranges for 10 ms, 2,500,000 ticks
(R395, R453). -/
def porOver (s : State) : Bool :=
  match s.pwr.por with
  | some n => mainRailsOk s && n + 2500000 ≤ s.ticks
  | none => true

/-- COLD_RESET: boot from step 1, by the release of power-on reset or by nRESET (R395); the command returns while step 5 waits for monitor 0.
While the fatal state holds it is ignored (R390). -/
def coldReset (b : BootIn) (s : State) : State :=
  if s.fatal || !porOver s then s
  else
    let s := steps12 b (coldBase s)
    unlessFailed (step5Wait b) (unlessFailed (steps34 b) s)

/-- R395, R396. -/
def execColdReset (b : BootIn) (s : State) : Host.Outcome State Fault Refusal := .next (coldReset b s)

/-- BOOT_TIMEOUT: BOOT_TMO runs out in step 10 (R397, R402). -/
def bootTimeout (s : State) : State :=
  match s.mc.image with
  | none => s
  | some h =>
    if s.get F.bootStat_STEP 0 = 10 && !s.mc.failed && h.bootTmo ≠ 0 && s.mc.stepAt + h.bootTmo * 250000 ≤ s.ticks then
      bootFail eTimeout s
    else s

/-- R397. -/
def execBootTimeout (s : State) : Host.Outcome State Fault Refusal := .next (unlessFatal bootTimeout s)

/-- Power-on reset is asserted (R453): every block is at reset; what VBAT, flash and OTP hold stays (R455) (DEDUCED, log 124). -/
def powerReset (s : State) : State :=
  let r := coldBase s
  { r with pwr := { r.pwr with por := some s.ticks } }

/-- POWER_OFF: main power is removed: VDD_H falls below 0.40 V, which ends the fatal state too (R390, R453). -/
def execPowerOff (s : State) : Host.Outcome State Fault Refusal := .next (powerReset s)

/-- The rails at a tick: their readings (R454), and power-on reset (R453), asserted by them or, once asserted, waiting for its 10 ms. -/
def railTick (rails : RailIn) (s : State) : State :=
  let s := applyVf (rails.foldl (fun s x => railReading x.1.val x.2.toNat s) s)
  match s.pwr.por with
  | some n => { s with pwr := { s.pwr with por := some (if mainRailsOk s then n else s.ticks) } }
  | none => if porAsserted rails s then powerReset s else if s.fatal then s else awaitVf s

/-! ### Snapshot and warm reset (R284, R285, R395) -/

/-- The size of shared control memory in slots. -/
def sharedSlots : Nat := 0xC0000

/-- Word `i` of a snapshot record (R285) (DEDUCED, log 74). -/
def snapWord (s : State) (ts : W) (i : Nat) : Nat :=
  if i = 0 then (stampEra s ts).toNat
  else if i = 1 then s.pkg % 16 + s.get F.snapStat_SEQ 0 * 2 ^ 16
  else if i < 7 then ((s.coord (i - 2)).pub).toNat
  else if i < 31 then
    let p := (i - 7) / 3
    match (i - 7) % 3 with
    | 0 => s.get F.tokProd_COUNT p
    | 1 => s.get F.tokCons_COUNT p
    | _ => s.get F.progress_COUNT p
  else if i < 287 then (viewOf s .sc .chStat (i - 31)).toNat % 2 ^ 32
  else (viewOf s .sc .laneStamp (i - 287)).toNat

/-- A word of the snapshot's record is written, but for one in the supervisor's window while that is locked (R357) (DEDUCED, log 206). -/
def snapWrite (off : Nat) (w : Nat × Nat) (s : State) : State :=
  let a := hubAddr (sharedBase + (off + w.2) * 8)
  if inSvWindow a && s.flag F.svCtl_LOCK 0 then s else ctlWrite a 8 w.1 s

/-- SNAPSHOT: at T_s the record is written at SNAP_BASE. -/
def snapshot (s : State) : State :=
  match dueStaged s 3 none with
  | none => s
  | some x =>
    let s := dropStaged x s
    let s := clearStaged s
    let off := s.get F.snapBase_OFFSET 0
    if sharedSlots < off + 319 then s.set F.snapStat_ABORTED 0 1
    else
      let s := s.inc F.snapStat_SEQ 0
      let words := (List.range 319).map (snapWord s x.ts)
      let s := words.zipIdx.foldl (fun s w => snapWrite off w s) s
      s.set F.snapStat_DONE 0 1

/-- R285. -/
def execSnapshot (s : State) : Host.Outcome State Fault Refusal := .next (unlessFatal snapshot s)

/-- The register fields that a warm reset keeps, with their instances. -/
def warmFields : List (Fld × Nat) :=
  let of (ds : List RegDef) : List (Fld × Nat) := ds.flatMap fun d => d.fs.map fun f => (f, d.count)
  of regs_devid ++ of regs_mc ++ of regs_pcie
    ++ of (regs_flt.filter fun d => d.reg ≠ .injSel && d.reg ≠ .injCtl && d.reg ≠ .fltSum)
    ++ of (regs_lens.filter fun d => [.lensCtl, .lensStat, .ppsCfg, .ppsMeas, .chainTm].contains d.reg)
    ++ ([(F.pwrStat_VBAT_LOST, 1)] : List (Fld × Nat))

/-- R395: the state that a warm reset leaves before boot runs: every block at its reset values but for what it names (DEDUCED, log 78). -/
def warmBase (s : State) : State :=
  let r := State.reset
  let keepLive (k : Nat) : Bool := [21, 33, 34].contains (k / 65536)
  let r := { r with
    pending := s.pending, t := s.t, era := s.era, ticks := s.ticks, free := s.free
    mem := s.mem.filter fun x => placeOf x.1 == some Place.mcBuf || placeOf x.1 == some Place.mcRam
    flt := { s.flt with live := s.flt.live.filter keepLive }
    mc := { s.mc with failed := false, boot := none }
    cc := { r.cc with cores := r.cc.cores.map fun (c : Core) => { c with resetAt := s.ticks } }
    pcie := { s.pcie with queue := [], posted := [] }
    lens := { r.lens with
      enc := s.lens.enc, load := s.lens.load, src := s.lens.src, goodTicks := s.lens.goodTicks, ppsGood := s.lens.ppsGood
      ppsLast := s.lens.ppsLast, chainGood := s.lens.chainGood, chainLast := s.lens.chainLast }
    chain := { r.chain with got := s.chain.got }
    port := { r.port with jtag := s.port.jtag, aux := auxOutside s } }
  let r := { r with regs := State.reset.regs }
  let r := carry s warmFields r
  let r := (r.set F.bootStat_ERROR 0 0).set F.bootStat_WARM 0 1
  let r := if s.flag F.devId_HEAD 0 then r.set F.cpStat_STATE 0 4 else r
  let r := if s.flag F.devId_TAIL 0 then r.set F.cpStat_STATE 1 4 else r
  r.set F.svStat_STATE 0 svHeld

/-- WARM_RESET: at T_s the package returns to reset and boots through steps 5–8 and 10 (R395); the command returns while step 5 waits for
monitor 0. A snapshot of the same T_s comes first
(R284). -/
def warmReset (b : BootIn) (s : State) : State :=
  match dueStaged s 4 none with
  | none => s
  | some x =>
    if s.staged.any fun y => y.kind = 3 && y.cleared && y.ts = x.ts then s
    else
      step5Wait b (warmBase s)

/-- R395. -/
def execWarmReset (b : BootIn) (s : State) : Host.Outcome State Fault Refusal := .next (unlessFatal (warmReset b) s)

/-! ### Control-store reload (R160, R161) -/

/-- The standard section and the loaded user set go to a cluster from their golden copies. -/
def rewriteStore (c : Nat) (s : State) : State :=
  let s := writeGolden c s.mc.gStd s
  if !s.flag F.csStat_USER_VALID c then s
  else
    match mfind s.mc.gUser (s.get F.csStat_USER_SET c) with
    | some g => writeGolden c g s
    | none => s

/-- The reload of a cluster's control store is over. -/
def reloadOver (c : Nat) (s : State) : State :=
  { s with cl := { s.cl with reload := mdel s.cl.reload c, mchkPe := s.cl.mchkPe.filter fun i => i / 16 ≠ c } }.set F.csStat_RELOADING c 0

/-- The PEs of a cluster start again. -/
def restartPes (c : Nat) (s : State) : State :=
  reloadOver c (startPes c s)

/-- R161: what a word that twice reads back wrong holds, and which word it is, are free. -/
def wrongWord (c : Nat) (s : State) : State :=
  let (u, s) := s.freeVal 11
  let (v, s) := s.freeVal 144
  s.writeN (uAddr c u.toNat) v.toNat 18

/-- CONTROL_STORE_RELOAD: the rewrite of a cluster that waits for it completes; `good` says that every word read back as the golden copy has
it, or did so when it was written once more. -/
def controlStoreReload (c : Nat) (good : Bool) (ram : Nat) (s : State) : State :=
  if (mfind s.cl.reload c).isNone then s
  else
    let (sound, s) := goldenRead ram s
    let s := (if sound then rewriteStore c s else s).inc F.csStat_RELOADS c
    if good && sound then
      let o := s.cOwner c
      let s := if s.cState c = 4 ∨ s.cState c = 5 then reloadOver c s else restartPes c s
      if o < 8 ∧ s.pState o = pSuspended then { s with ap := { s.ap with suspendedAt := mput s.ap.suspendedAt o s.ticks } } else s
    else
      let s := reloadOver c (if sound then wrongWord c s else s)
      let s := (List.range 16).foldl (fun s pe => s.set F.peStat_STOPPED (c * 16 + pe) 1) s
      reportU 2 (loc 2 c) 0 s

/-- R161. -/
def execControlStoreReload (c : Fin 128) (r : Rewrite) (s : State) : Host.Outcome State Fault Refusal :=
  .next (unlessFatal (controlStoreReload c r.good r.ram) s)

end Sys2Proof.Machine
end

