-- ==== Sys2Proof/Machine/K48.lean ====
section
/-!
DEFINITION. Sys2Proof/Machine/K48.lean: the K48 instruction word (R318–R320), the return stack (R328), and the steps that every instruction
shares: fetch, the order of its traps, retirement (R314–R317, R330–R334).
-/
namespace Sys2Proof.Machine
open Sys2Proof

/-! ### The instruction word (R318) -/

def kOp (w : Nat) : Nat := bits w 26 6
def kRd (w : Nat) : Nat := bits w 21 5
def kRa (w : Nat) : Nat := bits w 16 5
def kRb (w : Nat) : Nat := bits w 11 5
def kRc (w : Nat) : Nat := bits w 6 5
def kFn (w : Nat) : Nat := bits w 0 11
def kCh (w : Nat) : Nat := bits w 19 2

/-- imm16 sign-extended and zero-extended. -/
def kImmS (w : Nat) : W := (BitVec.ofNat 16 w).signExtend 48
def kImmU (w : Nat) : W := w48 (w % 2 ^ 16)

/-- The byte offsets of a branch and of a jump (R318). -/
def kOff16 (w : Nat) : W := BitVec.ofInt 48 (4 * (BitVec.ofNat 16 w).toInt)
def kOff26 (w : Nat) : W := BitVec.ofInt 48 (4 * (BitVec.ofNat 26 w).toInt)

/-- The rows of the opcode table to which K48 words belong. -/
inductive KRow where
  | alu | immediate | ldk | ink | xrk | ld | st | lr | sc | tas | branch | j | call | jr | callr | ret | rspush | rspop
  | fp | fma | cpx | fence | srr | srw | trapi | tret | halt | wait | ginj | gcol
  deriving DecidableEq, Repr

/-- R321, R323: fn of a one-operand operation, for which rb must be 0. -/
def kOne (fn : Nat) : Bool :=
  [0x16, 0x17, 0x18, 0x19, 0x28, 0x32, 0x33, 0x64, 0x68, 0x69, 0x83, 0x84, 0x87, 0x88].contains fn || (0x70 ≤ fn && fn ≤ 0x77)

/-- A word of the ALU, FP or CPX group is legal where fn is the group's and a one-operand fn has rb = 0. -/
def kGroup (ok : Bool) (w : Nat) (r : KRow) : Option KRow := if ok && !(kOne (kFn w) && kRb w ≠ 0) then some r else none

/-- The system registers that SRR reads and SRW writes (R313). -/
def kSysRead (n : Nat) : Bool := n ≤ 9 || 16 ≤ n
def kSysWrite (n : Nat) : Bool := kSysRead n && n ≠ 6 && n ≠ 7 && n ≠ 8

/-- R319, R320, R329: the row of a word; none when it is ILLEGAL (DEDUCED, log 42). -/
def kRow (w : Nat) : Option KRow :=
  let fn := kFn w
  let when_ (ok : Bool) (r : KRow) : Option KRow := if ok then some r else none
  let chunk := kCh w ≠ 3 && bits w 16 3 = 0
  match kOp w with
  | 0x01 => kGroup ((0x10 ≤ fn && fn ≤ 0x33) || (0x40 ≤ fn && fn ≤ 0x47) || fn = 0x50 || fn = 0x51) w .alu
  | 0x02 | 0x03 | 0x04 | 0x05 | 0x06 | 0x07 => some .immediate
  | 0x08 | 0x09 | 0x0A | 0x0B => when_ (bits w 8 8 = 0) .immediate
  | 0x0C => when_ chunk .ldk
  | 0x0D => when_ chunk .ink
  | 0x0E => when_ chunk .xrk
  | 0x10 | 0x11 | 0x12 | 0x13 | 0x14 | 0x15 | 0x16 => some .ld
  | 0x18 | 0x19 | 0x1A | 0x1B => some .st
  | 0x1C => some .lr
  | 0x1D => when_ (fn = 0) .sc
  | 0x1E => some .tas
  | 0x20 | 0x21 | 0x22 | 0x23 | 0x24 | 0x25 => some .branch
  | 0x28 => some .j
  | 0x29 => some .call
  | 0x2A => when_ (kRd w = 0 && bits w 0 16 = 0) .jr
  | 0x2B => when_ (kRd w = 0 && bits w 0 16 = 0) .callr
  | 0x2C => if fn = 0 then some .ret else if fn = 1 then some .rspush else if fn = 2 then some .rspop else none
  | 0x30 => kGroup ((0x48 ≤ fn && fn ≤ 0x4C) || (0x60 ≤ fn && fn ≤ 0x64) || (0x68 ≤ fn && fn ≤ 0x6B) || (0x70 ≤ fn && fn ≤ 0x77)) w .fp
  | 0x31 => when_ (bits w 0 6 ≤ 1) .fma
  | 0x34 => kGroup (0x80 ≤ fn && fn ≤ 0x88) w .cpx
  | 0x38 =>
    (match fn with
    | 0 => when_ (bits w 11 15 = 0) .fence
    | 1 => when_ (kRa w = 0 && kSysRead (kRb w)) .srr
    | 2 => when_ (kRb w = 0 && kSysWrite (kRd w)) .srw
    | 3 => when_ (kRd w = 0 && kRa w = 0) .trapi
    | 4 => when_ (bits w 11 15 = 0) .tret
    | 5 => when_ (bits w 11 15 = 0) .halt
    | 6 => when_ (bits w 11 15 = 0) .wait
    | _ => none)
  | 0x3C => if fn = 1 then some .ginj else when_ (fn = 2 && kRb w = 0 && kRd w ≠ 0 && kRd w ≤ 29) .gcol
  | _ => none

/-- The general registers that an instruction reads (R311). -/
def kReads (r : KRow) (w : Nat) : List Nat :=
  let l := match r with
    | .alu | .fp | .cpx | .sc => [kRa w, kRb w]
    | .immediate | .ld | .lr | .tas | .jr | .callr | .rspush | .srw | .gcol => [kRa w]
    | .ink | .xrk => [kRd w]
    | .st | .branch => [kRd w, kRa w]
    | .fma => [kRa w, kRb w, kRc w]
    | .trapi => [kRb w]
    | .ginj => [kRd w, kRa w, kRb w]
    | .ldk | .j | .call | .ret | .rspop | .fence | .srr | .tret | .halt | .wait => []
  l.filter (· ≠ 0)

/-! ### The return stack (R328) -/

/-- A push meets depth 16, or a pop depth 0, with RSM = 1. -/
def Core.pushTraps (c : Core) : Bool := c.depth = 16 && c.rsm
def Core.popTraps (c : Core) : Bool := c.depth = 0 && c.rsm

def Core.push (c : Core) (x : W) : Core :=
  { c with rs := setAt c.rs c.ptr x, ptr := (c.ptr + 1) % 16, depth := min (c.depth + 1) 16 }

/-- The popped address, and the core after the pop. -/
def Core.pop (c : Core) : W × Core :=
  let p := (c.ptr + 15) % 16
  (c.rs.getD p 0, { c with ptr := p, depth := c.depth - 1 })

/-! ### Retirement -/

/-- CC_STAT.WAITING of a control core, and the core's place in a WAIT (R341). -/
def setIdle (k : Nat) (v : Bool) (s : State) : State :=
  let s := s.setCore k { s.core k with idle := v }
  if k < 8 then s.set F.ccStat_WAITING k (b2n v) else s

/-- CC_PC or SV_PC: the address of the last retired instruction (R336). -/
def setLastPc (k : Nat) (pc : W) (s : State) : State := if k < 8 then s.set F.ccPc_PC k pc.toNat else s.set F.svPc_PC 0 pc.toNat

/-- An instruction at `old` retires and leaves the core as `c`, without the boundary that follows. -/
def retired (k : Nat) (old : W) (c : Core) (s : State) : State :=
  setLastPc k old (setIdle k false (s.setCore k { c with wait := none, waitReg := none, ginjAt := none }))

/-- An instruction retires (R330). -/
def retire (k : Nat) (c : Core) (s : State) : State := boundary k (retired k (s.core k).pc c s)

/-- The next instruction in program order. -/
def Core.next (c : Core) : Core := { c with pc := c.pc + 4 }

/-- An instruction retires with a result for `rd` and the sticky bits that it sets, and takes the ARITH trap where one of them is enabled; at
TL = 1 it takes none (R312, R321, R332). -/
def retireWith (k rd : Nat) (r : AR) (s : State) : State :=
  let c := s.core k
  let c' := (c.set rd r.1).next
  let c' := { c' with status := c'.status ||| r.2.setWidth 48 }
  let s := retired k c.pc c' s
  if r.2.toNat &&& c'.trapMask ≠ 0 ∧ !c'.tl then takeTrap k tArith c'.pc (r.2.setWidth 48) 0 false c.pc s else boundary k s

/-- A faulting trap of the instruction at PC: EPC and PC of the cause are its address (R331). -/
def faulting (k code : Nat) (eaddr : W) (arg : Nat) (s : State) : State :=
  takeTrap k code (s.core k).pc eaddr arg false (s.core k).pc s

/-! ### Posted stores (R316) -/

/-- Posted stores whose DONE has arrived are over. -/
def settlePosted (k : Nat) (s : State) : State :=
  let i := coreInit k
  let isDone (t : Nat) : Bool := s.net.hubRsp.any fun r => r.init = i && r.trans = t && r.ok
  let ended := (s.core k).posted.filter fun p => isDone p.1
  let c := s.core k
  let s := { s with net := { s.net with hubRsp := s.net.hubRsp.filter fun r => !(r.init = i && ended.any fun p => p.1 = r.trans) } }
  s.setCore k { c with posted := c.posted.filter fun p => !isDone p.1 }

/-- The first posted store that has received an error response. -/
def postedError (s : State) (k : Nat) : Option (Nat × W) :=
  (s.core k).posted.find? fun p => s.net.hubRsp.any fun r => r.init = coreInit k && r.trans = p.1 && !r.ok

/-- The transactions that a core's own accesses hold. -/
def usedTrans (s : State) (k : Nat) : List Nat :=
  (match (s.core k).wait with | some x => [x.1] | none => []) ++ (s.core k).posted.map (·.1)

/-! ### When a core takes its next instruction (R333, R341) -/

/-- An interrupt is due: it is pending, IE is 1 and TL is 0 (DEDUCED, log 41). -/
def intrDue (s : State) (k : Nat) : Bool := (s.core k).ie && !(s.core k).tl && (pendingIntr s k).isSome

/-- The core stands at a retirement boundary from which an instruction is next: it runs, and no posted error and no interrupt comes first. -/
def coreReady (s : State) (k : Nat) : Bool := coreRuns s k && atBoundary s k && (postedError s k).isNone && !intrDue s k

/-- R315, R357: the core may fetch from an address. -/
def fetchable (s : State) (k : Nat) (pc : W) : Bool :=
  let a := pc.toNat % 2 ^ 44
  pc.toNat / 2 ^ 44 = s.pkg && (if k = 8 then inSvWindow a else inCtlMem a)

/-- An address of control-core memory of the own package. -/
def ownMem (s : State) (a : W) : Bool := a.toNat / 2 ^ 44 = s.pkg && inCtlMem (a.toNat % 2 ^ 44)

/-- A register whose parity fails when the instruction reads it takes MCHK (R311) (DEDUCED, log 43). -/
def parityTrap (r : KRow) (w : Nat) (e : CoreErr) : Option Nat :=
  match e.reg with
  | some n => if (kReads r w).contains n.val then some n.val else none
  | none => none

/-- R313, R329: a supervisor-only instruction or register access. -/
def kPriv (r : KRow) (w : Nat) : Bool :=
  match r with
  | .tret | .halt => true
  | .srr => !([0, 6, 7, 8, 9].contains (kRb w))
  | .srw => kRd w ≠ 0
  | _ => false

/-- The traps that come before the access to memory: PRIV, RSOVF, RSUND (R333). -/
def earlyTrap (c : Core) (r : KRow) (w : Nat) : Option (Nat × W) :=
  if kPriv r w && !c.priv then some (tPriv, w48 w)
  else
    match r with
    | .call | .callr | .rspush => if c.pushTraps then some (tRsovf, 0) else none
    | .ret | .rspop => if c.popTraps then some (tRsund, 0) else none
    | _ => none

/-- The effective address of an access, and its size in bytes; none for an instruction that makes none (R324–R326). -/
def access (c : Core) (r : KRow) (w : Nat) : Option (W × Nat) :=
  let ea := c.get (kRa w) + kImmS w
  match r with
  | .ld =>
    let n := match kOp w with | 0x10 => 6 | 0x11 | 0x12 => 4 | 0x13 | 0x14 => 2 | _ => 1
    some (ea, n)
  | .st =>
    let n := match kOp w with | 0x18 => 6 | 0x19 => 4 | 0x1A => 2 | _ => 1
    some (ea, n)
  | .lr | .tas => some (ea, 6)
  | .sc => some (c.get (kRa w), 6)
  | _ => none

/-- ALIGN on the data, then DATA for an atomic outside control-core memory, and for one to a window that is locked against the core. -/
def accessTrap (s : State) (k : Nat) (r : KRow) (x : W × Nat) : Option (Nat × W) :=
  let align := if x.2 = 6 then 8 else x.2
  if x.1.toNat % align ≠ 0 then some (tAlign, x.1)
  else if (r = .lr || r = .tas || r = .sc) && !ownMem s x.1 then some (tData, x.1)
  else if r = .tas && k < 8 && inSvWindow (x.1.toNat % 2 ^ 44) && s.flag F.svCtl_LOCK 0 then some (tData, x.1)
  else none

/-- MCHK of a register whose parity fails (R311). -/
def regMchk (k n : Nat) (s : State) : State := faulting k tMchk (w48 n) 0 (reportU 26 (coreLoc k) 0 s)

/-- The rows whose own access may be answered with an error, which comes before MCHK (R333): their bodies take the parity trap. -/
def lateParity (r : KRow) : Bool := r = .ld || r = .sc

/-- An instruction of row `r` whose word is `w` runs up to its own effect `body` (DESIGN CHOICE, log 40). -/
def runInstr (k : Nat) (r : KRow) (w : Nat) (e : CoreErr) (body : Nat → State → State) (s : State) : State :=
  let c := s.core k
  match earlyTrap c r w with
  | some (code, a) => faulting k code a 0 s
  | none =>
    match (access c r w).bind (accessTrap s k r) with
    | some (code, a) => faulting k code a (if code = tData && ownMem s a then causeErr else 0) s
    | none =>
      match if lateParity r then none else parityTrap r w e with
      | some n => regMchk k n s
      | none => body w s

/-- The next instruction of core `k` when it belongs to row `r`; a fetch that traps, and an ILLEGAL word, belong to no row and trap under any
(R315, R317, R320, R333). -/
def coreInstr (r : KRow) (k : Nat) (e : CoreErr) (body : Nat → State → State) (s : State) : State :=
  if !coreReady s k then s
  else
    let pc := (s.core k).pc
    let a := pc.toNat % 2 ^ 44
    if !fetchable s k pc then faulting k tFetch pc 0 s
    else if pc.toNat % 4 ≠ 0 then faulting k tAlign pc 0 s
    else
      let w := s.readN a 4
      let (bad, s') := ctlCheck (a / 8 * 8) e.fetch s
      if bad = 2 then faulting k tMchk (pc &&& ~~~(7 : W)) 0 s'
      else
        match kRow w with
        | none => faulting k tIllegal (w48 w) 0 s'
        | some x => if x = r then runInstr k r w e body s' else s

end Sys2Proof.Machine
end

