-- ==== Sys2Proof/Machine/Cores.lean ====
section
/-!
DEFINITION. Sys2Proof/Machine/Cores.lean: the K48 instructions (R321–R329, R341, R351–R353, R356, R372). The command of each row runs the next
instruction of a core when that instruction belongs to the row. Core 8 is the interlock supervisor.
-/
namespace Sys2Proof.Machine
open Sys2Proof

/-! ### Computation (R321–R323) -/

/-- The result of an operation of the ALU, FP and CPX groups: fn is the graph opcode of the same operation. -/
def kCompute (c : Core) (w : Nat) : AR := (compute (kFn w) c.rm (c.get (kRa w)) (c.get (kRb w)) 0).getD (plain 0)

def kComputeBody (k : Nat) (w : Nat) (s : State) : State := retireWith k (kRd w) (kCompute (s.core k) w) s

/-- ALU (R321). -/
def execAlu (k : Fin 9) (e : CoreErr) (s : State) : Host.Outcome State Fault Refusal :=
  .next (coreInstr .alu k e (kComputeBody k) s)

/-- R322: the immediate operations. -/
def kImmediate (c : Core) (w : Nat) : AR :=
  let a := c.get (kRa w)
  let amount : W := w48 (w % 256)
  match kOp w with
  | 0x02 => wrapS (a.toInt + (kImmS w).toInt)
  | 0x03 => plain (a &&& kImmU w)
  | 0x04 => plain (a ||| kImmU w)
  | 0x05 => plain (a ^^^ kImmU w)
  | 0x06 => plain (truth (a.toInt < (kImmS w).toInt))
  | 0x07 => plain (truth (a.toNat < (kImmS w).toNat))
  | 0x08 => (intOp 0x029 a amount).getD (plain 0)
  | 0x09 => (intOp 0x02A a amount).getD (plain 0)
  | 0x0A => (intOp 0x02B a amount).getD (plain 0)
  | _ => (intOp 0x02D a amount).getD (plain 0)

def kImmediateBody (k : Nat) (w : Nat) (s : State) : State := retireWith k (kRd w) (kImmediate (s.core k) w) s

/-- ADDI, ANDI, ORI, XORI, SLTI, SLTIU, SHLI, SHRI, SARI, RORI (R322). -/
def execImmediate (k : Fin 9) (e : CoreErr) (s : State) : Host.Outcome State Fault Refusal :=
  .next (coreInstr .immediate k e (kImmediateBody k) s)

/-- A chunk of ones, and imm16, at chunk `ch`. -/
def chunkAt (w : Nat) (x : Nat) : W := w48 (x * 2 ^ (16 * kCh w))

/-- LDK. -/
def kLdkBody (k : Nat) (w : Nat) (s : State) : State := retireWith k (kRd w) (plain (kImmS w <<< (16 * kCh w))) s

/-- LDK (R322). -/
def execLdk (k : Fin 9) (e : CoreErr) (s : State) : Host.Outcome State Fault Refusal := .next (coreInstr .ldk k e (kLdkBody k) s)

/-- INK. -/
def kInkBody (k : Nat) (w : Nat) (s : State) : State :=
  retireWith k (kRd w) (plain (((s.core k).get (kRd w) &&& ~~~chunkAt w 0xFFFF) ||| chunkAt w (w % 2 ^ 16))) s

/-- INK (R322). -/
def execInk (k : Fin 9) (e : CoreErr) (s : State) : Host.Outcome State Fault Refusal := .next (coreInstr .ink k e (kInkBody k) s)

/-- XRK. -/
def kXrkBody (k : Nat) (w : Nat) (s : State) : State :=
  retireWith k (kRd w) (plain ((s.core k).get (kRd w) ^^^ chunkAt w (w % 2 ^ 16))) s

/-- XRK (R322). -/
def execXrk (k : Fin 9) (e : CoreErr) (s : State) : Host.Outcome State Fault Refusal := .next (coreInstr .xrk k e (kXrkBody k) s)

/-- FP (R323). -/
def execFp (k : Fin 9) (e : CoreErr) (s : State) : Host.Outcome State Fault Refusal := .next (coreInstr .fp k e (kComputeBody k) s)

/-- FMA and FMS, as opcodes 0x065 and 0x066. -/
def kFmaBody (k : Nat) (w : Nat) (s : State) : State :=
  let c := s.core k
  retireWith k (kRd w) (fFma c.rm (w % 64 = 1) (c.get (kRa w)) (c.get (kRb w)) (c.get (kRc w))) s

/-- FMA (R323). -/
def execFma (k : Fin 9) (e : CoreErr) (s : State) : Host.Outcome State Fault Refusal := .next (coreInstr .fma k e (kFmaBody k) s)

/-- CPX (R323). -/
def execCpx (k : Fin 9) (e : CoreErr) (s : State) : Host.Outcome State Fault Refusal := .next (coreInstr .cpx k e (kComputeBody k) s)

/-! ### Loads, stores and atomics (R315, R316, R324–R326) -/

/-- The value that a load gives rd: the access's bits, sign-extended or zero-extended. -/
def loadValue (op v : Nat) : W :=
  match op with
  | 0x10 => w48 v
  | 0x11 => (BitVec.ofNat 32 v).signExtend 48
  | 0x12 => w48 (v % 2 ^ 32)
  | 0x13 => (BitVec.ofNat 16 v).signExtend 48
  | 0x14 => w48 (v % 2 ^ 16)
  | 0x15 => (BitVec.ofNat 8 v).signExtend 48
  | _ => w48 (v % 2 ^ 8)

/-- The response to a load has arrived: rd takes the value, or the core takes DATA with the response's cause. A register that the load read
with bad parity gives MCHK where the response is no error (R333). -/
def finishLoad (k : Nat) (s : State) : State :=
  match (s.core k).wait with
  | none => s
  | some (n, w) =>
    match takeRsp (coreInit k) n s with
    | none => s
    | some (r, s) =>
      let c := s.core k
      let ea := c.get (kRa w) + kImmS w
      if !r.ok then faulting k tData ea (r.data.toNat / 2 ^ 32 % 256) s
      else
        match c.waitReg with
        | some i => regMchk k i s
        | none => retire k ((c.set (kRd w) (loadValue (kOp w) r.data.toNat)).next) s

/-- The access of a load outside control-core memory: one of a size that no target there accepts reaches its target all the same (R315). -/
def loadAccess (k t n natural : Nat) (a : W) (s : State) : State :=
  if n < 4 then hubNarrow (coreInit k) t 1 a s else hubRead (coreInit k) t (s.core k).priv (n = 6) natural a s

/-- The state before a load's access, where a register's parity has failed and the hub answers the access at once with a value: the load
has no effect there but its trap (R331, R333) (DEDUCED, log 43). -/
def unreadFor (k t : Nat) (a : W) (before after : State) : State :=
  if (before.core k).waitReg.isSome && direct before a && after.net.hubRsp.any fun r => r.init = coreInit k && r.trans = t && r.ok then
    leaveRsp ⟨coreInit k, t, true, 0, 0⟩ before
  else after

/-- A load: from control-core memory of the own package at once, from every other address by an access for whose response the core waits. -/
def kLoadBody (k : Nat) (e : CoreErr) (w : Nat) (s : State) : State :=
  let c := s.core k
  let x := (access c .ld w).getD (0, 6)
  let a := x.1.toNat % 2 ^ 44
  if ownMem s x.1 then
    match parityTrap .ld w e with
    | some n => regMchk k n s
    | none =>
      let (bad, s) := ctlCheck (a / 8 * 8) e.data s
      if bad = 2 then faulting k tMchk (x.1 &&& ~~~(7 : W)) 0 s
      else retire k ((c.set (kRd w) (loadValue (kOp w) (s.readN a x.2))).next) s
  else
    match freeTrans s (coreInit k) (usedTrans s k) with
    | none => s
    | some t =>
      let s := s.setCore k { c with wait := some (t, w), waitReg := parityTrap .ld w e }
      finishLoad k (unreadFor k t x.1 s (loadAccess k t x.2 e.data x.1 s))

/-- LD, LDW, LDWU, LDH, LDHU, LDB, LDBU (R324): the next instruction, or the end of a load that waits for its response. -/
def execLd (k : Fin 9) (e : CoreErr) (s : State) : Host.Outcome State Fault Refusal :=
  .next (if (s.core k).wait.isSome then unlessFatal (finishLoad k) s else coreInstr .ld k e (kLoadBody k e) s)

/-- An error response to a store of the core is due to be taken (R316). -/
def postError (k trans : Nat) (a : W) (s : State) : State :=
  let c := s.core k
  let s := s.setCore k { c with posted := c.posted ++ [(trans, a)] }
  leaveRsp ⟨coreInit k, trans, false, (poisonData causeErr a.toNat).setWidth 64, a⟩ s

/-- The core may not write the address: the supervisor's window while it is locked (R357). -/
def windowShut (s : State) (k : Nat) (a : Nat) : Bool := k < 8 && inSvWindow a && s.flag F.svCtl_LOCK 0

/-- A store retires, and then writes: control-core memory at once, every other address by a posted access (DESIGN
CHOICE, log 46). -/
def kStoreBody (k : Nat) (e : CoreErr) (w : Nat) (s : State) : State :=
  let c := s.core k
  let x := (access c .st w).getD (0, 6)
  let a := x.1.toNat % 2 ^ 44
  let v := (c.get (kRd w)).toNat
  let s := settlePosted k s
  match freeTrans s (coreInit k) (usedTrans s k) with
  | none => s
  | some t =>
    let s := retire k (s.core k).next s
    if ownMem s x.1 then
      if windowShut s k a then postError k t x.1 s
      else
        let (bad, s) := ctlCheck (a / 8 * 8) e.data s
        if bad = 2 then postError k t x.1 s else ctlWrite a x.2 (v % 2 ^ (8 * x.2)) s
    else
      let c := s.core k
      let s := s.setCore k { c with posted := c.posted ++ [(t, x.1)] }
      settlePosted k (
        if x.2 < 4 then hubNarrow (coreInit k) t 2 x.1 s
        else hubWrite (coreInit k) t ((s.core k).priv) (x.2 = 6) e.data x.1 (v % 2 ^ (8 * x.2)) s)

/-- ST, STW, STH, STB (R324). -/
def execSt (k : Fin 9) (e : CoreErr) (s : State) : Host.Outcome State Fault Refusal := .next (coreInstr .st k e (kStoreBody k e) s)

/-- POSTED_STORE_ERROR: at a retirement boundary the core takes the imprecise DATA trap of a posted store (R316). -/
def postedStoreError (k : Nat) (s : State) : State :=
  if !coreRuns s k || !atBoundary s k then s
  else
    match postedError s k with
    | none => s
    | some (t, a) =>
      let c := s.core k
      let s := { s with net := { s.net with hubRsp := s.net.hubRsp.filter fun r => !(r.init = coreInit k && r.trans = t) } }
      let s := s.setCore k { c with posted := c.posted.filter fun p => p.1 ≠ t }
      takeTrap k tData c.pc a 0 true c.pc s

/-- R316. -/
def execPostedStoreError (k : Fin 9) (s : State) : Host.Outcome State Fault Refusal := .next (unlessFatal (postedStoreError k) s)

/-- LR. -/
def kLrBody (k : Nat) (e : CoreErr) (w : Nat) (s : State) : State :=
  let c := s.core k
  let ea := c.get (kRa w) + kImmS w
  let a := ea.toNat % 2 ^ 44
  let (bad, s) := ctlCheck a e.data s
  if bad = 2 then faulting k tMchk ea 0 s
  else retire k { (c.set (kRd w) (s.readSlot a)).next with resv := some ea } s

/-- LR (R326). -/
def execLr (k : Fin 9) (e : CoreErr) (s : State) : Host.Outcome State Fault Refusal := .next (coreInstr .lr k e (kLrBody k e) s)

/-- SC: the store happens when the reservation names the slot. -/
def kScBody (k : Nat) (e : CoreErr) (w : Nat) (s : State) : State :=
  let c := s.core k
  let ea := c.get (kRa w)
  let a := ea.toNat % 2 ^ 44
  if c.resv = some ea then
    if windowShut s k a then faulting k tData ea causeErr s
    else
      let (bad, s) := ctlCheck a e.data s
      if bad = 2 then faulting k tData ea causeErr s
      else
        match parityTrap .sc w e with
        | some n => regMchk k n s
        | none =>
          let v := c.get (kRb w)
          retire k { (c.set (kRd w) 0).next with resv := none } (ctlWrite a 6 v.toNat s)
  else
    match parityTrap .sc w e with
    | some n => regMchk k n s
    | none => retire k { (c.set (kRd w) 1).next with resv := none } s

/-- SC (R326). -/
def execSc (k : Fin 9) (e : CoreErr) (s : State) : Host.Outcome State Fault Refusal := .next (coreInstr .sc k e (kScBody k e) s)

/-- TAS: the old word to rd, and 1 to the word (DEDUCED, log 50). -/
def kTasBody (k : Nat) (e : CoreErr) (w : Nat) (s : State) : State :=
  let c := s.core k
  let ea := c.get (kRa w) + kImmS w
  let a := ea.toNat % 2 ^ 44
  let (bad, s) := ctlCheck a e.data s
  if bad = 2 then faulting k tMchk ea 0 s
  else
    let old := s.readSlot a
    let s := ctlWrite a 6 1 s
    retire k ((s.core k).set (kRd w) old).next s

/-- TAS (R325). -/
def execTas (k : Fin 9) (e : CoreErr) (s : State) : Host.Outcome State Fault Refusal := .next (coreInstr .tas k e (kTasBody k e) s)

/-! ### Control transfer and the return stack (R327, R328) -/

/-- The condition of a branch: ra and rb are the fields of format B. -/
def branchTaken (c : Core) (w : Nat) : Bool :=
  let a := c.get (kRd w)
  let b := c.get (kRa w)
  match kOp w with
  | 0x20 => a = b
  | 0x21 => a ≠ b
  | 0x22 => a.toInt < b.toInt
  | 0x23 => b.toInt ≤ a.toInt
  | 0x24 => a.toNat < b.toNat
  | _ => b.toNat ≤ a.toNat

/-- R330: a conditional branch is predicted taken when its offset is negative. -/
def mispredicted (c : Core) (w : Nat) : Bool := branchTaken c w != (bits w 15 1 == 1)

/-- A squash where a control transfer was mispredicted (R330, R354). -/
def squashIf (bad : Bool) (k : Nat) (s : State) : State := if bad then squashGcol k s else s

def kBranchBody (k : Nat) (w : Nat) (s : State) : State :=
  let c := s.core k
  let s := squashIf (mispredicted c w) k s
  retire k (if branchTaken c w then { c with pc := c.pc + kOff16 w } else c.next) s

/-- BEQ, BNE, BLT, BGE, BLTU, BGEU (R327). -/
def execBranch (k : Fin 9) (e : CoreErr) (s : State) : Host.Outcome State Fault Refusal := .next (coreInstr .branch k e (kBranchBody k) s)

def kJBody (k : Nat) (w : Nat) (s : State) : State :=
  let c := s.core k
  retire k { c with pc := c.pc + kOff26 w } s

/-- J (R327). -/
def execJ (k : Fin 9) (e : CoreErr) (s : State) : Host.Outcome State Fault Refusal := .next (coreInstr .j k e (kJBody k) s)

def kCallBody (k : Nat) (w : Nat) (s : State) : State :=
  let c := s.core k
  retire k { c.push (c.pc + 4) with pc := c.pc + kOff26 w } s

/-- CALL (R327, R328). -/
def execCall (k : Fin 9) (e : CoreErr) (s : State) : Host.Outcome State Fault Refusal := .next (coreInstr .call k e (kCallBody k) s)

/-- A JR or CALLR is predicted not taken (R330). -/
def kJrBody (k : Nat) (w : Nat) (s : State) : State :=
  let c := s.core k
  let s := squashIf (c.get (kRa w) ≠ c.pc + 4) k s
  retire k { c with pc := c.get (kRa w) } s

/-- JR (R327). -/
def execJr (k : Fin 9) (e : CoreErr) (s : State) : Host.Outcome State Fault Refusal := .next (coreInstr .jr k e (kJrBody k) s)

def kCallrBody (k : Nat) (w : Nat) (s : State) : State :=
  let c := s.core k
  let s := squashIf (c.get (kRa w) ≠ c.pc + 4) k s
  retire k { c.push (c.pc + 4) with pc := c.get (kRa w) } s

/-- CALLR (R327, R328). -/
def execCallr (k : Fin 9) (e : CoreErr) (s : State) : Host.Outcome State Fault Refusal := .next (coreInstr .callr k e (kCallrBody k) s)

def kRetBody (k : Nat) (_ : Nat) (s : State) : State :=
  let (x, c) := (s.core k).pop
  retire k { c with pc := x } s

/-- RET (R328). -/
def execRet (k : Fin 9) (e : CoreErr) (s : State) : Host.Outcome State Fault Refusal := .next (coreInstr .ret k e (kRetBody k) s)

/-- DEDUCED, log 45. -/
def kRspushBody (k : Nat) (w : Nat) (s : State) : State :=
  let c := s.core k
  retire k (c.push (c.get (kRa w))).next s

/-- RSPUSH (R328). -/
def execRspush (k : Fin 9) (e : CoreErr) (s : State) : Host.Outcome State Fault Refusal := .next (coreInstr .rspush k e (kRspushBody k) s)

def kRspopBody (k : Nat) (w : Nat) (s : State) : State :=
  let (x, c) := (s.core k).pop
  retire k (c.set (kRd w) x).next s

/-- RSPOP (R328). -/
def execRspop (k : Fin 9) (e : CoreErr) (s : State) : Host.Outcome State Fault Refusal := .next (coreInstr .rspop k e (kRspopBody k) s)

/-! ### System instructions (R313, R316, R329, R332, R341) -/

/-- FENCE retires once every posted store has its response. -/
def kFenceBody (k : Nat) (_ : Nat) (s : State) : State :=
  let s := settlePosted k s
  if (s.core k).posted.isEmpty then retire k (s.core k).next s else s

/-- FENCE (R316). -/
def execFence (k : Fin 9) (e : CoreErr) (s : State) : Host.Outcome State Fault Refusal := .next (coreInstr .fence k e (kFenceBody k) s)

/-- R313: the value that SRR reads (DEDUCED, log 49). -/
def sysReg (k n : Nat) (s : State) : W × State :=
  let c := s.core k
  match n with
  | 0 => (c.status, s)
  | 1 => (c.epc, s)
  | 2 => (c.estatus, s)
  | 3 => (c.ecause, s)
  | 4 => (c.eaddr, s)
  | 5 => (c.tvec, s)
  | 6 => (w48 ((if k = 8 then 8 else k) + s.pkg * 16), s)
  | 7 => cycleOf k s
  | 8 => (s.t, s)
  | 9 => (w48 (c.depth + c.ptr * 32), s)
  | _ => (c.rs.getD (n - 16) 0 &&& ~~~(3 : W), s)

def kSrrBody (k : Nat) (w : Nat) (s : State) : State :=
  let (v, s) := sysReg k (kRb w) s
  retire k ((s.core k).set (kRd w) v).next s

/-- SRR (R313). -/
def execSrr (k : Fin 9) (e : CoreErr) (s : State) : Host.Outcome State Fault Refusal := .next (coreInstr .srr k e (kSrrBody k) s)

/-- R312, R313: a core after a write of a system register; in thread mode STATUS keeps [21:19] (DEDUCED, log 44). -/
def Core.writeSys (c : Core) (n : Nat) (v : W) : Core :=
  match n with
  | 0 => if c.priv then { c with status := v &&& statusMask }
      else { c with status := (v &&& statusMask &&& 0x7FFFF) ||| (c.status &&& 0x380000) }
  | 1 => { c with epc := v &&& ~~~(3 : W) }
  | 2 => { c with estatus := v &&& statusMask }
  | 3 => { c with ecause := v &&& 0x3FF1F }
  | 4 => { c with eaddr := v }
  | 5 => { c with tvec := v &&& ~~~(0x3FF : W) }
  | 9 => c.setRsctl v
  | _ => { c with rs := setAt c.rs (n - 16) (v &&& ~~~(3 : W)) }

def kSrwBody (k : Nat) (w : Nat) (s : State) : State :=
  let c := s.core k
  retire k (c.writeSys (kRd w) (c.get (kRa w))).next (squashGcol k s)

/-- SRW (R313). -/
def execSrw (k : Fin 9) (e : CoreErr) (s : State) : Host.Outcome State Fault Refusal := .next (coreInstr .srw k e (kSrwBody k) s)

/-- TRAPI retires into its trap. -/
def kTrapiBody (k : Nat) (w : Nat) (s : State) : State :=
  let c := s.core k
  let v := c.get (kRb w)
  takeTrap k tTrapi (c.pc + 4) v v.toNat false c.pc (retired k c.pc c.next s)

/-- TRAPI (R329). -/
def execTrapi (k : Fin 9) (e : CoreErr) (s : State) : Host.Outcome State Fault Refusal := .next (coreInstr .trapi k e (kTrapiBody k) s)

def kTretBody (k : Nat) (_ : Nat) (s : State) : State :=
  let c := s.core k
  retire k { trapReturn c with pc := c.epc } (squashGcol k s)

/-- TRET (R332). -/
def execTret (k : Fin 9) (e : CoreErr) (s : State) : Host.Outcome State Fault Refusal := .next (coreInstr .tret k e (kTretBody k) s)

def kHaltBody (k : Nat) (_ : Nat) (s : State) : State :=
  let c := s.core k
  let s := retired k c.pc c.next s
  boundary k (if k = 8 then s.set F.svStat_STATE 0 svHalted else s.set F.ccStat_HALTED k 1)

/-- HALT (R329). -/
def execHalt (k : Fin 9) (e : CoreErr) (s : State) : Host.Outcome State Fault Refusal := .next (coreInstr .halt k e (kHaltBody k) s)

/-- WAIT retires once an interrupt is pending, and idles until then (DEDUCED, log 51). -/
def kWaitBody (k : Nat) (_ : Nat) (s : State) : State :=
  if (pendingIntr s k).isSome then retire k (s.core k).next s else setIdle k true s

/-- WAIT (R341). -/
def execWait (k : Fin 9) (e : CoreErr) (s : State) : Host.Outcome State Fault Refusal := .next (coreInstr .wait k e (kWaitBody k) s)

/-- A core at a retirement boundary takes INTR; one that stands in a WAIT leaves it first. -/
def interrupt (k : Nat) (s : State) : State :=
  if !coreRuns s k || !atBoundary s k || (postedError s k).isSome || !intrDue s k then s
  else
    match pendingIntr s k with
    | none => s
    | some arg =>
      let c := s.core k
      let s := if c.idle then retired k c.pc c.next s else s
      let c := s.core k
      takeTrap k tIntr c.pc 0 arg false c.pc s

/-- INTR (R341): a control core. -/
def execIntr (k : Fin 8) (s : State) : Host.Outcome State Fault Refusal := .next (unlessFatal (interrupt k) s)

/-- SV_INTR (R372): the supervisor. -/
def execSvIntr (s : State) : Host.Outcome State Fault Refusal := .next (unlessFatal (interrupt 8) s)

/-! ### The graph port (R351–R353, R356) -/

/-- The GPORT trap with a reason. -/
def gportTrap (k reason : Nat) (s : State) : State :=
  faulting k tGport (w48 reason) 0 (if k < 8 then s.set F.gpStat_REASON k reason else s)

/-- A GINJ that passed its checks retires into the injection queue; in tick T_c of a mode change its token is of the new epoch (R352). -/
def ginjRetire (k : Nat) (w : Nat) (s : State) : State :=
  let c := s.core k
  let tag := c.get (kRd w)
  let s := s.setInj k (s.injList k ++ [ginjToken (switched (tagPart tag) s) k tag (c.get (kRa w)) (c.get (kRb w))])
  retire k c.next (s.set F.gpCtl_PNEXT k 0)

/-- GINJ: its checks, and the queue; while the queue is full the core waits. -/
def kGinjBody (k : Nat) (w : Nat) (s : State) : State :=
  let c := s.core k
  if k = 8 then gportTrap k 1 s
  else
    match ginjReason (switched (tagPart (c.get (kRd w))) s) k (c.get (kRd w)) c.priv with
    | 0 => if (s.injList k).length < injDepth then ginjRetire k w s else s.setCore k { c with ginjAt := some (s.ticks, w) }
    | r => gportTrap k r s

/-- A GINJ that waits for room. -/
def ginjAgain (k : Nat) (s : State) : State :=
  match (s.core k).ginjAt with
  | some (_, w) => if (s.injList k).length < injDepth then ginjRetire k w s else s
  | none => s

/-- GINJ (R351, R352): the next instruction, or the end of a GINJ that waits for room. -/
def execGinj (k : Fin 9) (e : CoreErr) (s : State) : Host.Outcome State Fault Refusal :=
  .next (if (s.core k).ginjAt.isSome then unlessFatal (ginjAgain k) s else coreInstr .ginj k e (kGinjBody k) s)

/-- GINJ_FULL_TIMEOUT: the queue stayed full for WAIT ticks. -/
def ginjTimeout (k : Nat) (s : State) : State :=
  match (s.core k).ginjAt with
  | none => s
  | some (t0, _) =>
    let limit := s.get F.gpCfg_WAIT k
    if limit = 0 || s.ticks < t0 + limit || (s.injList k).length < injDepth then s else gportTrap k 5 s

/-- R351. -/
def execGinjFullTimeout (k : Fin 8) (s : State) : Host.Outcome State Fault Refusal := .next (unlessFatal (ginjTimeout k) s)

/-- The core may use GCOL: reason 1 of R351 fails otherwise. -/
def gcolAllowed (s : State) (k : Nat) : Bool := k ≠ 8 && ((s.core k).priv || s.flag F.gpCfg_THREAD_OK k)

/-- A GCOL executes behind instructions of its core that have not retired: it removes the head entry of its mailbox, whose place stays
reserved, or finds the mailbox empty (R353, R354). Three stages of the pipeline stand between execute and retirement (R330) (DEDUCED, log 146). -/
def gcolExecute (k m : Nat) (s : State) : State :=
  if !coreRuns s k || !gcolAllowed s k || 3 ≤ (s.sched.ahead.filter fun e => e.1 / 8 = k).length then s
  else
    let i := k * 8 + m
    let l := s.mbx i
    let s := s.setMbx i l.tail
    { s with sched := { s.sched with ahead := s.sched.ahead ++ [(i, l.head?)] } }

/-- What the GCOL that retires removed: at its own execute before this moment, or now. Where its oldest GCOL in flight names another mailbox
those in flight were fetched wrongly and are squashed. -/
def gcolTake (k i : Nat) (s : State) : Option MbxEntry × State :=
  match takeFirst (fun e : Nat × Option MbxEntry => e.1 / 8 = k) s.sched.ahead with
  | some (e, rest) =>
    if e.1 = i then (e.2, { s with sched := { s.sched with ahead := rest } })
    else
      let s := squashGcol k s
      ((s.mbx i).head?, s.setMbx i (s.mbx i).tail)
  | none => ((s.mbx i).head?, s.setMbx i (s.mbx i).tail)

/-- GCOL: reasons 1, 6 and 7, then the head entry, or the EMPTY word (R353). -/
def kGcolBody (k : Nat) (e : CoreErr) (w : Nat) (s : State) : State :=
  let c := s.core k
  let m := (c.get (kRa w)).toNat
  let i := k * 8 + m
  let rd := kRd w
  if !gcolAllowed s k then gportTrap k 1 s
  else if 7 < m then gportTrap k 6 s
  else
    match gcolTake k i s with
    | (none, s) => retire k (((c.set rd 0).set (rd + 1) 0).set (rd + 2) 1).next s
    | (some x, s) =>
      let (bad, inj, s) := secded [29] (loc 9 i) (if x.unc then 2 else e.data.val) s
      if bad = 2 then gportTrap k 7 (report 29 (loc 9 i) 0 none inj (s.set F.mbxStat_UNC_EVT i 1))
      else retire k (((c.set rd x.data).set (rd + 1) x.due).set (rd + 2) x.tag).next s

/-- GCOL (R353, R354): the next instruction, or the execute stage of one that stands behind it in the pipeline. -/
def execGcol (k : Fin 9) (e : GcolPass) (s : State) : Host.Outcome State Fault Refusal :=
  .next (match e.ahead with
    | some m => gcolExecute k m s
    | none => coreInstr .gcol k e.err (kGcolBody k e.err) s)

end Sys2Proof.Machine
end

