-- ==== Sys2Proof/Machine/RegCmds.lean ====
section
/-!
DEFINITION. Sys2Proof/Machine/RegCmds.lean: the commands that are a write or a read of one register by an initiator: its number (R471), and whether
it is in supervisor mode. Each goes through the write or read of RegWrite.lean and Access.lean, so that a refused write changes nothing.
-/
namespace Sys2Proof.Machine
open Sys2Proof


/-- The description of a register of a block. -/
def regOf (b : Blk) (r : Reg) : Option RegDef := (blkRegs b).find? fun d => d.reg = r

/-- A write of the bits in `m` of register instance `i` by an initiator. -/
def regMasked (who : From) (b : Blk) (r : Reg) (i m v : Nat) (s : State) : State :=
  if s.fatal then s
  else
    match regOf b r with
    | none => s
    | some d =>
      let cur := (regView s d i).toNat
      (regWrite who.1 who.2 true b d ⟨i, m, v, (cur - (cur &&& m)) ||| (v &&& m), blkLocked s b i⟩ s).2

/-- A 64-bit write of a register. -/
def regCmd (who : From) (b : Blk) (r : Reg) (i v : Nat) (s : State) : State := regMasked who b r i (2 ^ 64 - 1) v s

/-- A write that gives one field a value and leaves the register's other bits as they are. -/
def fieldCmd (who : From) (b : Blk) (r : Reg) (f : Fld) (i x : Nat) (s : State) : State :=
  regMasked who b r i ((2 ^ f.w - 1) * 2 ^ f.lo) (x % 2 ^ f.w * 2 ^ f.lo) s

/-- A read of a register by an initiator, whose answer is left for its transaction. -/
def readCmd (who : From) (trans : Nat) (b : Blk) (r : Reg) (i : Nat) (s : State) : State :=
  if s.fatal then s
  else
    match regOf b r with
    | none => s
    | some d =>
      match regRead who.1 who.2 true true d i s with
      | (.ok v, s) => leaveRsp ⟨who.1, trans, true, v, 0⟩ s
      | (.bad c, s) => leaveRsp ⟨who.1, trans, false, (poisonData c 0).setWidth 64, 0⟩ s

/-! ### Lens -/

/-- T_LOAD (R206). -/
def execTLoad (who : From) (t : W) (era : BitVec 16) (s : State) : Host.Outcome State Fault Refusal :=
  .next (regCmd who .lens .tLoad 0 (t.toNat + era.toNat * 2 ^ 48) s)

/-- COORD_CFG (R218). -/
def execCoordCfg (who : From) (n : Fin 4) (v : BitVec 34) (s : State) : Host.Outcome State Fault Refusal :=
  .next (regCmd who .lens .coordCfg n v.toNat s)

/-- LET_DATA: a write of the addressed entry, or a read of it (R213). -/
def execLetData (who : From) (trans : Fin 128) (v : Option (BitVec 24)) (s : State) : Host.Outcome State Fault Refusal :=
  .next (match v with
    | some v => regCmd who .lens .letData 0 v.toNat s
    | none => readCmd who trans .lens .letData 0 s)

/-- RSC_DATA: a write of the addressed coefficient, or a read of it (R234). -/
def execRscData (who : From) (trans : Fin 128) (v : Option (BitVec 24)) (s : State) : Host.Outcome State Fault Refusal :=
  .next (match v with
    | some v => regCmd who .lens .rscData 0 v.toNat s
    | none => readCmd who trans .lens .rscData 0 s)

/-! ### Sample channels -/

/-- LANE_ENABLE: a write of LANE_CFG.EN (R250). -/
def execLaneEnable (who : From) (k : Fin 32) (en : Bool) (s : State) : Host.Outcome State Fault Refusal :=
  .next (fieldCmd who .sc .laneCfg F.laneCfg_EN k (b2n en) s)

/-- DROP: a write of PF_CMD.DROP (R254). -/
def execDrop (who : From) (k : Fin 96) (s : State) : Host.Outcome State Fault Refusal :=
  .next (fieldCmd who .pfcmd .pfCmd F.pfCmd_DROP k 1 s)

/-- ILK_TEST (R264). -/
def execIlkTest (who : From) (ch : Fin 256) (v : BitVec 24) (s : State) : Host.Outcome State Fault Refusal :=
  .next (regCmd who .sc .ilkTest 0 (v.toNat + ch * 2 ^ 24 + 2 ^ 32) s)

/-- ILK_REL (R368). -/
def execIlkRel (who : From) (v : BitVec 8) (s : State) : Host.Outcome State Fault Refusal := .next (regCmd who .sv .ilkRel 0 v.toNat s)

/-- ILK_FORCE (R369). -/
def execIlkForce (who : From) (v : BitVec 8) (s : State) : Host.Outcome State Fault Refusal :=
  .next (regCmd who .sv .ilkForce 0 v.toNat s)

/-- CH_FORCE (R370): 32 channels. -/
def execChForce (who : From) (i : Fin 8) (v : BitVec 32) (s : State) : Host.Outcome State Fault Refusal :=
  .next (regCmd who .sv .chForce i v.toNat s)

/-! ### The package ring and the global plane -/

/-- BAR_ARM (R283). -/
def execBarArm (who : From) (b : Fin 16) (s : State) : Host.Outcome State Fault Refusal :=
  .next (fieldCmd who .ring .barCfg F.barCfg_ARM b 1 s)

/-- BAR_DISARM (R283). -/
def execBarDisarm (who : From) (b : Fin 16) (s : State) : Host.Outcome State Fault Refusal :=
  .next (fieldCmd who .ring .barCfg F.barCfg_DISARM b 1 s)

/-- BAR_ARRIVE (R283). -/
def execBarArrive (who : From) (b : Fin 16) (s : State) : Host.Outcome State Fault Refusal :=
  .next (regCmd who .ring .barArrive 0 b s)

/-- GSCHED_SNAPSHOT (R284). -/
def execGschedSnapshot (who : From) (system : Bool) (s : State) : Host.Outcome State Fault Refusal :=
  .next (regCmd who .ring .gsched 0 (3 + b2n system * 16) s)

/-- GSCHED_WARM_RESET (R284). -/
def execGschedWarmReset (who : From) (system : Bool) (s : State) : Host.Outcome State Fault Refusal :=
  .next (regCmd who .ring .gsched 0 (4 + b2n system * 16) s)

/-- LOST_ACK (R201). -/
def execLostAck (who : From) (p : Fin 8) (s : State) : Host.Outcome State Fault Refusal :=
  .next (fieldCmd who .ap .partStat F.partStat_ACK p 1 s)

/-! ### Cores -/

/-- CC_RUN (R336). -/
def execCcRun (who : From) (k : Fin 8) (run : Bool) (s : State) : Host.Outcome State Fault Refusal :=
  .next (fieldCmd who .cc .ccCtl F.ccCtl_RUN k (b2n run) s)

/-- CC_RESET (R336). -/
def execCcReset (who : From) (k : Fin 8) (s : State) : Host.Outcome State Fault Refusal :=
  .next (fieldCmd who .cc .ccCtl F.ccCtl_RESET k 1 s)

/-- HALT_REQ (R336). -/
def execHaltReq (who : From) (k : Fin 8) (v : Bool) (s : State) : Host.Outcome State Fault Refusal :=
  .next (fieldCmd who .cc .ccDbg F.ccDbg_HALT_REQ k (b2n v) s)

/-- STEP (R336). -/
def execStep (who : From) (k : Fin 8) (s : State) : Host.Outcome State Fault Refusal :=
  .next (fieldCmd who .cc .ccDbg F.ccDbg_STEP k 1 s)

/-! ### Threads, events and locks -/

/-- CREATE (R339). -/
def execCreate (who : From) (i : Fin 256) (s : State) : Host.Outcome State Fault Refusal :=
  .next (fieldCmd who .sched .thrCfg F.thrCfg_OP i 1 s)

/-- WAKE (R339). -/
def execWake (who : From) (i : Fin 256) (s : State) : Host.Outcome State Fault Refusal :=
  .next (fieldCmd who .sched .thrCfg F.thrCfg_OP i 2 s)

/-- KILL (R339). -/
def execKill (who : From) (i : Fin 256) (s : State) : Host.Outcome State Fault Refusal :=
  .next (fieldCmd who .sched .thrCfg F.thrCfg_OP i 3 s)

/-- YIELD: a write at SCHED_OP of core `c` (R339). -/
def execYield (who : From) (c : Fin 8) (s : State) : Host.Outcome State Fault Refusal := .next (regCmd who .sched .schedOp c 1 s)

/-- BLOCK (R345). -/
def execBlock (who : From) (c : Fin 8) (s : State) : Host.Outcome State Fault Refusal := .next (regCmd who .sched .schedOp c 2 s)

/-- EXIT (R339). -/
def execExit (who : From) (c : Fin 8) (s : State) : Host.Outcome State Fault Refusal := .next (regCmd who .sched .schedOp c 3 s)

/-- SCHED_CLAIM: a read at SCHED_CLAIM of core `c` (R342) (DEDUCED, log 54). -/
def execSchedClaim (who : From) (trans : Fin 128) (c : Fin 8) (s : State) : Host.Outcome State Fault Refusal :=
  .next (readCmd who trans .sched .schedClaim c s)

/-- RAISE (R344). -/
def execRaise (who : From) (n : Fin 512) (s : State) : Host.Outcome State Fault Refusal :=
  .next (fieldCmd who .sched .evCfg F.evCfg_RAISE n 1 s)

/-- DOORBELL (R346). -/
def execDoorbell (who : From) (v : BitVec 32) (s : State) : Host.Outcome State Fault Refusal :=
  .next (regCmd who .sched .doorbell 0 v.toNat s)

/-- LOCK_ACQUIRE (R347). -/
def execLockAcquire (who : From) (trans : Fin 128) (k : Fin 64) (s : State) : Host.Outcome State Fault Refusal :=
  .next (readCmd who trans .lock .lk k s)

/-- LOCK_RELEASE (R348). -/
def execLockRelease (who : From) (k : Fin 64) (s : State) : Host.Outcome State Fault Refusal :=
  .next (fieldCmd who .lock .lk F.lk_RELEASE k 1 s)

/-- LOCK_FORCE (R349). -/
def execLockForce (who : From) (k : Fin 64) (s : State) : Host.Outcome State Fault Refusal :=
  .next (fieldCmd who .lock .lk F.lk_FORCE k 1 s)

/-! ### The interlock supervisor -/

/-- SV_RUN (R364). -/
def execSvRun (who : From) (s : State) : Host.Outcome State Fault Refusal := .next (fieldCmd who .sv .svCtl F.svCtl_RUN 0 1 s)

/-- SV_RESET (R364). -/
def execSvReset (who : From) (s : State) : Host.Outcome State Fault Refusal := .next (fieldCmd who .sv .svCtl F.svCtl_RESET 0 1 s)

/-- CMP_TEST, with the verdicts' result (R364). -/
def execCmpTest (who : From) (ok : Bool) (s : State) : Host.Outcome State Fault Refusal :=
  .next (unlessFatal (fun s => if fromMc who.1 then cmpTest ok s else s) s)

/-- SV_DEBUG_ACTION (R366). -/
def execSvDebugAction (who : From) (a : DbgAct) (s : State) : Host.Outcome State Fault Refusal :=
  .next (match a with
    | .halt v => fieldCmd who .sv .svDbg F.svDbg_HALT_REQ 0 (b2n v) s
    | .step => fieldCmd who .sv .svDbg F.svDbg_STEP 0 1 s
    | .select n => fieldCmd who .sv .svDbg F.svDbg_SEL 0 n.toNat s
    | .data v => regCmd who .sv .svDbgData 0 v.toNat s)

/-- KICK (R371). -/
def execKick (who : From) (s : State) : Host.Outcome State Fault Refusal := .next (fieldCmd who .sv .svWdog F.svWdog_KICK 0 1 s)

/-- SV_MBX_IN_WRITE (R373). -/
def execSvMbxInWrite (who : From) (v : W) (s : State) : Host.Outcome State Fault Refusal :=
  .next (regCmd who .sv .svMbxIn 0 v.toNat s)

/-- SV_MBX_IN_READ (R373). -/
def execSvMbxInRead (who : From) (trans : Fin 128) (s : State) : Host.Outcome State Fault Refusal :=
  .next (readCmd who trans .sv .svMbxIn 0 s)

/-- SV_MBX_OUT_WRITE (R373). -/
def execSvMbxOutWrite (who : From) (v : W) (s : State) : Host.Outcome State Fault Refusal :=
  .next (regCmd who .sv .svMbxOut 0 v.toNat s)

/-- SV_MBX_OUT_READ (R373). -/
def execSvMbxOutRead (who : From) (trans : Fin 128) (s : State) : Host.Outcome State Fault Refusal :=
  .next (readCmd who trans .sv .svMbxOut 0 s)

/-! ### The fault collector -/

/-- ACK (R384). -/
def execAck (who : From) (k : Fin 64) (s : State) : Host.Outcome State Fault Refusal :=
  .next (fieldCmd who .flt .fkStat F.fkStat_ACK k 1 s)

/-- POP (R385). -/
def execPop (who : From) (s : State) : Host.Outcome State Fault Refusal := .next (fieldCmd who .flt .flogStat F.flogStat_POP 0 1 s)

/-- ARM: a write of INJ_CTL with ARM = 1 (R393). -/
def execArm (who : From) (pair : Bool) (mask : BitVec 10) (cycles : BitVec 16) (s : State) : Host.Outcome State Fault Refusal :=
  .next (regCmd who .flt .injCtl 0 (1 + b2n pair * 2 + mask.toNat * 4 + cycles.toNat * 2 ^ 12) s)

/-- RECORD_CLEAR (R392). -/
def execRecordClear (who : From) (s : State) : Host.Outcome State Fault Refusal := .next (fieldCmd who .flt .frCtl F.frCtl_CLR 0 1 s)

/-! ### Capture, management and power -/

/-- CAP_RP (R451). -/
def execCapRp (who : From) (k : Fin 64) (v : BitVec 25) (s : State) : Host.Outcome State Fault Refusal :=
  .next (regCmd who .cap .capRp k v.toNat s)

/-- CAP_ENABLE (R451). -/
def execCapEnable (who : From) (k : Fin 64) (s : State) : Host.Outcome State Fault Refusal :=
  .next (fieldCmd who .cap .capCfg F.capCfg_EN k 1 s)

/-- CAP_DISABLE (R429). -/
def execCapDisable (who : From) (k : Fin 64) (s : State) : Host.Outcome State Fault Refusal :=
  .next (fieldCmd who .cap .capCfg F.capCfg_EN k 0 s)

/-- MAX_CLEAR (R419). -/
def execMaxClear (who : From) (n : Fin 40) (s : State) : Host.Outcome State Fault Refusal :=
  .next (fieldCmd who .mc .ts F.ts_CLR n 1 s)

/-- VF_SET_WRITE (R457). -/
def execVfSetWrite (who : From) (v : BitVec 5) (s : State) : Host.Outcome State Fault Refusal :=
  .next (fieldCmd who .pwr .pwrCtl F.pwrCtl_VF_SET 0 v.toNat s)

/-- REGISTER_WRITE: a write at a local address of the package where a register stands (R7–R9). -/
def execRegisterWrite (who : From) (half : Bool) (a : BitVec 44) (v : BitVec 64) (s : State) : Host.Outcome State Fault Refusal :=
  .next (match placeOf a.toNat with
    | some (.reg _ _ _) => (accWrite who.1 who.2 (!half) 2 0 a.toNat v.toNat s).2
    | _ => s)

end Sys2Proof.Machine
end

