-- ==== Sys2Proof/Machine/Host.lean ====
section
/-!
DEFINITION. Sys2Proof/Machine/Host.lean: the PCI Express endpoint: BAR0 and BAR2, configuration space, MSI-X, endpoint resets and the link
(R422–R427); and accesses through the JTAG DEBUG register (R448).
-/
namespace Sys2Proof.Machine
open Sys2Proof

def hostInit : Nat := 11
def jtagInit : Nat := 14

/-- Completion statuses: successful, Unsupported Request, Configuration Request Retry Status, Completer Abort. -/
def cplOk : Nat := 0
def cplUr : Nat := 1
def cplCrs : Nat := 2
def cplCa : Nat := 4

/-- A completion goes to the host. -/
def complete (c : HostCpl) (s : State) : State := { s with pcie := { s.pcie with cpl := s.pcie.cpl ++ [c] } }

/-- The function is in D3hot (R422). -/
def inD3 (s : State) : Bool := mget 0 s.pcie.cfg 4096 = 1

/-- A host failure is logged when the log is empty, is counted, and raises PCIE_ERR (R424). An access that reaches nothing has no device
address, so that the one shown is open. -/
def hostFail (write bar2 : Bool) (reason : Nat) (addr : Option Nat) (s : State) : State :=
  let s := s.inc F.pcieErrinfo_COUNT 0
  let s :=
    if s.flag F.pcieErrinfo_VALID 0 then s
    else
      let s := (s.setOr F.pcieErraddr_ADDR 0 addr).set F.pcieErrinfo_VALID 0 1
      let s := (s.set F.pcieErrinfo_WRITE 0 (b2n write)).set F.pcieErrinfo_BAR2 0 (b2n bar2)
      s.set F.pcieErrinfo_REASON 0 reason
  raiseEvent 497 s

/-- A malformed or poisoned request TLP is a HOST_LINK fault (R427). -/
def badTlp (s : State) : State := if s.fatal then s else reportU 37 (loc 7 hostInit) 0 s

/-! ### BAR0 (R397, R423, R424) -/

/-- R423: the device address that a BAR0 offset reaches. -/
def bar0Addr (s : State) (off : Nat) : Option W :=
  if off < 0x140000 then some (deviceAddr s (hubAddr (0x1000000000 + off)))
  else if off < 0x1000000 then none
  else if off < 0x2000000 then some (deviceAddr s (hubAddr (off - 0x1000000)))
  else if off < 0x3000000 then some (w48 (s.get F.pcieWin0_BASE 0 * 2 ^ 24 + (off - 0x2000000)))
  else some (w48 (s.get F.pcieWin1_BASE 0 * 2 ^ 24 + (off - 0x3000000)))

/-- The hub block of this package that a device address names. -/
def hubBlock (s : State) (a : W) : Option Nat :=
  if a.toNat / 2 ^ 44 = s.pkg && a.toNat / 2 ^ 40 % 16 = 8 && a.toNat % 2 ^ 40 / 2 ^ 36 = 1 then some (a.toNat % 2 ^ 36 / 0x10000) else none

/-- The reason for which a BAR0 access fails before it is made: 6 size or alignment, 8 poisoned data, 1 nothing reached, 3 the fatal state,
2 before RUN, 4 a window access to MC RAM (DEDUCED, log 59). -/
def bar0Refused (s : State) (r : HostReq) : Option Nat :=
  if !(r.size = 4 || r.size = 8) || r.off % r.size ≠ 0 then some 6
  else if r.poisoned then some 8
  else
    match bar0Addr s r.off with
    | none => some 1
    | some a =>
      if s.fatal && (r.write || hubBlock s a ≠ some 7) then some 3
      else if s.get F.bootStat_STEP 0 ≠ 11 && !([some 0, some 7, some 8].contains (hubBlock s a)) then some 2
      else if 0x2000000 ≤ r.off && placeOf (a.toNat % 2 ^ 44) = some .mcRam then some 4
      else none

/-- A BAR0 request has failed. -/
def bar0Fail (r : HostReq) (reason : Nat) (s : State) : State :=
  let s := hostFail r.write false reason ((bar0Addr s r.off).map (·.toNat)) s
  if r.write then s else complete ⟨0, cplCa, false, []⟩ s

/-- A BAR0 read has its value. -/
def bar0Done (r : HostReq) (v : Nat) (s : State) : State :=
  if r.write then s else complete ⟨0, cplOk, false, bytesOf r.size v⟩ s

/-- The initiator's timer for a transaction has run out (R281). -/
def timedOut (s : State) (init n : Nat) : Bool := s.net.timed.any fun x => x.ret = hubRet s init n && x.dead

/-- The first posted write whose DONE or error response has arrived is over. -/
def settleHost : Nat → State → State
  | 0, s => s
  | n + 1, s =>
    match takeFirst (fun r : HostReq => s.net.hubRsp.any fun x => x.init = hostInit && some x.trans = r.trans) s.pcie.posted with
    | none => s
    | some (r, rest) =>
      let t := r.trans.getD 0
      match takeRsp hostInit t { s with pcie := { s.pcie with posted := rest } } with
      | none => s
      | some (x, s) => settleHost n (if x.ok then s else bar0Fail r (if timedOut s hostInit t then 5 else 4) s)

/-- The transactions that the host's accesses hold. -/
def hostTrans (s : State) : List Nat := (s.pcie.queue ++ s.pcie.posted).filterMap (·.trans)

/-- BAR0 requests are served in order of arrival: each takes effect, or leaves through the network; a read that left is awaited (R424) (DEDUCED,
log 60). -/
def serveQueue (natural : Nat) : Nat → State → State
  | 0, s => s
  | n + 1, s =>
    match s.pcie.queue with
    | [] => s
    | r :: q =>
      let popped (s : State) : State := { s with pcie := { s.pcie with queue := q } }
      match r.trans with
      | some t =>
        if s.fatal then serveQueue natural n (bar0Fail r 3 (popped s))
        else
          match takeRsp hostInit t s with
          | none => s
          | some (x, s) =>
            serveQueue natural n
              (if x.ok then bar0Done r x.data.toNat (popped s) else bar0Fail r (if timedOut s hostInit t then 5 else 4) (popped s))
      | none =>
        match bar0Refused s r with
        | some why => serveQueue natural n (bar0Fail r why (popped s))
        | none =>
          let a := (bar0Addr s r.off).getD 0
          let full := r.size = 8
          if direct s a then
            if r.write then
              match accWrite hostInit true full 2 natural (localOf s a) r.data (popped s) with
              | (true, s) => serveQueue natural n s
              | (false, s) => serveQueue natural n (bar0Fail r 4 s)
            else
              match accRead hostInit true full natural (localOf s a) (popped s) with
              | (.ok v, s) => serveQueue natural n (bar0Done r v.toNat s)
              | (.bad _, s) => serveQueue natural n (bar0Fail r 4 s)
          else
            match freeTrans s hostInit (hostTrans s) with
            | none => s
            | some t =>
              let s := sendReq hostInit t (if r.write then 2 else 1) full a (BitVec.ofNat 64 r.data) (popped s)
              let r := { r with trans := some t }
              if r.write then serveQueue natural n { s with pcie := { s.pcie with posted := s.pcie.posted ++ [r] } }
              else { s with pcie := { s.pcie with queue := r :: q } }

/-- What the endpoint can do for its requests now. -/
def serveHost (natural : Nat) (s : State) : State :=
  let s := settleHost s.pcie.posted.length s
  serveQueue natural s.pcie.queue.length s

/-- A BAR0 request arrives (DESIGN CHOICE, log 66). -/
def bar0 (r : HostReq) (natural : Nat) (s : State) : State :=
  if inD3 s then (if r.write then s else complete ⟨0, cplUr, false, []⟩ s)
  else serveHost natural { s with pcie := { s.pcie with queue := s.pcie.queue ++ [r] } }

/-- BAR0_READ (R424): `malformed` is a request TLP that is malformed; `err` is what the memory's checker meets. -/
def execBar0Read (off : BitVec 26) (size : Fin 4097) (malformed : Bool) (err : Fin 4) (s : State) : Host.Outcome State Fault Refusal :=
  .next (if malformed then badTlp s else bar0 ⟨off.toNat, size, false, 0, false, none⟩ err s)

/-- BAR0_WRITE (R424). -/
def execBar0Write (off : BitVec 26) (size : Fin 4097) (v : BitVec 64) (malformed poisoned : Bool) (err : Fin 4) (s : State) :
    Host.Outcome State Fault Refusal :=
  .next (if malformed then badTlp s
    else bar0 ⟨off.toNat, size, true, v.toNat, poisoned, none⟩ err (if poisoned then badTlp s else s))

/-! ### BAR2 (R425) -/

/-- The completions of a BAR2 read: each ends at a multiple of 256 bytes; one that meets the slot `bad` is poisoned (DEDUCED, log 62). -/
def bar2Cpls (s : State) (bad : Option Nat) : Nat → Nat → Nat → List HostCpl
  | 0, _, _ => []
  | fuel + 1, off, len =>
    if len = 0 then []
    else
      let n := min len (256 - off % 256)
      let ep := match bad with | some b => decide (off / 8 ≤ b ∧ b * 8 < off + n) | none => false
      let data := (List.range n).map fun i => (s.readByte (hubAddr (0x2000000 + off + i))).toNat
      ⟨2, cplOk, ep, data⟩ :: bar2Cpls s bad fuel (off + n) (len - n)

/-- BAR2_READ: `bad` is a slot of capture memory with a double-bit error (DEDUCED, log 38; PRESUMED, log 61). -/
def bar2Read (off len : Nat) (bad : Option Nat) (s : State) : State :=
  if inD3 s || 2 ^ 25 < off + len then complete ⟨2, cplUr, false, []⟩ s
  else
    let l := bar2Cpls s bad len off len
    let s := { s with pcie := { s.pcie with cpl := s.pcie.cpl ++ l } }
    match l.find? (·.ep) with
    | some _ => hostFail false true 8 (some off) s
    | none => s

/-- R425, R427. -/
def execBar2Read (off : BitVec 25) (len : Fin 4097) (bad : Bar2In) (s : State) : Host.Outcome State Fault Refusal :=
  .next (match bad with
    | .malformed => badTlp s
    | .slot i => bar2Read off.toNat len (some i.toNat) s
    | .good => bar2Read off.toNat len none s)

/-- BAR2_WRITE: discarded, logged with reason 7 and reported under Advanced Error Reporting (PRESUMED, log 63). -/
def bar2Write (off : Nat) (s : State) : State :=
  if inD3 s then s
  else hostFail true true 7 (some off) { s with pcie := { s.pcie with cfg := mput s.pcie.cfg 4097 1 } }

/-- R425, R427. -/
def execBar2Write (q : Bar2Wr) (s : State) : Host.Outcome State Fault Refusal :=
  .next (match q with
    | .malformed => badTlp s
    | .poisoned off => bar2Write off.toNat (badTlp s)
    | .write off => bar2Write off.toNat s)

/-! ### Configuration space (R422) -/

/-- A value with a field of it replaced. -/
def withBits (v lo n x : Nat) : Nat := v - bits v lo n * 2 ^ lo + x % 2 ^ n * 2 ^ lo

/-- R421: what a capability's register holds: 512 vectors; payloads of 256 bytes and Function Level Reset; 16.0 GT/s, ×8 and ASPM L1 alone; D0 and
D3hot alone; Unsupported Requests reported, and ECRC neither generated nor checked. Its other bits are free (PRESUMED, log 209). -/
def capRead (c : CfgCap) (s : State) : Nat × State :=
  let (v, s) := s.freeVal 32
  let v := v.toNat
  (match c with
    | .msix =>
      withBits (withBits (withBits (withBits v 0 8 0x11) 16 11 511) 30 1 (s.get F.pcieStat_FMASK 0)) 31 1 (s.get F.pcieStat_MSIX_EN 0)
    | .device => withBits (withBits v 0 3 1) 28 1 1
    | .link => withBits (withBits (withBits v 0 4 4) 4 6 8) 10 2 2
    | .power => withBits (withBits v 0 8 1) 25 2 0
    | .aerStatus => withBits v 20 1 (mget 0 s.pcie.cfg 4097)
    | .aerControl => withBits (withBits v 5 1 0) 7 1 0, s)

/-- A dword of configuration space of the endpoint of R421: the header's fields that R422 gives, the header type of one function, what the host
wrote to the BARs and the command register, and a free value where the spec gives no content or no place (PRESUMED, log 64; DESIGN CHOICE,
log 65). -/
def cfgRead (dw : Nat) (s : State) : Nat × State :=
  let held := mget 0 s.pcie.cfg dw
  match dw with
  | 0 | 11 => (0x08481E4A, s)
  | 1 =>
    let (v, s) := s.freeVal 32
    (v.toNat / 8 * 8 + held % 4 + b2n (s.flag F.pcieStat_BME 0) * 4, s)
  | 2 => (0x118000 * 256 + s.get F.devId_STEP 0, s)
  | 4 => (held / 2 ^ 26 * 2 ^ 26 + 4, s)
  | 6 => (held / 2 ^ 25 * 2 ^ 25 + 12, s)
  | 5 | 7 => (held, s)
  | 3 =>
    let (v, s) := s.freeVal 32
    (withBits v.toNat 16 8 0, s)
  | 8 | 9 | 12 => (0, s)
  | 15 => (held % 256, s)
  | _ =>
    let (v, s) := s.freeVal 32
    (v.toNat, s)

/-- CONFIG_REQUEST. A poisoned write changes nothing (PRESUMED, log 210). -/
def configRequest (q : CfgReq) (s : State) : State :=
  let cpl (status : Nat) (d : List Nat) (s : State) : State := complete ⟨3, status, false, d⟩ s
  if q = .malformed then badTlp s
  else if s.get F.bootStat_STEP 0 ≤ 2 then cpl cplCrs [] s
  else
    match q with
    | .read dw =>
      let (v, s) := cfgRead dw s
      cpl cplOk (bytesOf 4 v) s
    | .write dw v =>
      let s := { s with pcie := { s.pcie with cfg := mput s.pcie.cfg dw v.toNat } }
      cpl cplOk [] (if dw = 1 then s.set F.pcieStat_BME 0 (bits v.toNat 2 1) else s)
    | .cap c =>
      let (v, s) := capRead c s
      cpl cplOk (bytesOf 4 v) s
    | .malformed => s
    | .poisoned _ => cpl cplUr [] (badTlp s)
    | .msix en fm => cpl cplOk [] ((s.set F.pcieStat_MSIX_EN 0 (b2n en)).set F.pcieStat_FMASK 0 (b2n fm))
    | .power d3 => cpl cplOk [] { s with pcie := { s.pcie with cfg := mput s.pcie.cfg 4096 (b2n d3) } }

/-- R422. -/
def execConfigRequest (q : CfgReq) (s : State) : Host.Outcome State Fault Refusal := .next (configRequest q s)

/-! ### MSI-X (R426) -/

/-- MSIX_SEND: a pending message goes out when nothing withholds it. -/
def msixSend (n : Nat) (s : State) : State :=
  let held := !s.flag F.pcieStat_MSIX_EN 0 || s.flag F.pcieStat_FMASK 0 || !s.flag F.pcieStat_BME 0
    || mget 1 s.pcie.msixTab (n * 4 + 3) % 2 = 1
  if held || (mfind s.pcie.msixPend n).isNone then s
  else msixPut n { s with pcie := { s.pcie with msixPend := mdel s.pcie.msixPend n } }

/-- R426. -/
def execMsixSend (n : Fin 512) (s : State) : Host.Outcome State Fault Refusal := .next (unlessFatal (msixSend n) s)

/-! ### Endpoint resets and the link (R427) -/

/-- Configuration space takes its reset values, the MSI-X table is masked and the Pending Bit Array clear; reads in flight are not
completed (DEDUCED, log 67). -/
def endpointReset (s : State) : State :=
  let s := ((s.set F.pcieStat_BME 0 0).set F.pcieStat_MSIX_EN 0 0).set F.pcieStat_FMASK 0 0
  { s with pcie := { s.pcie with cfg := [], msixTab := [], msixPend := [], queue := s.pcie.queue.filter (·.write) } }

/-- The link falls to Detect: the fault of R427 in RUN, unless nPERST or a hot reset brought it about. -/
def linkFalls (expected : Bool) (s : State) : State :=
  let s := endpointReset ((s.set F.pcieStat_LINK 0 0).inc F.pcieStat_LINKDOWNS 0)
  if s.get F.bootStat_STEP 0 = 11 && !expected then badTlp s else s

/-- ENDPOINT_RESET (R427). -/
def execEndpointReset (r : EpReset) (s : State) : Host.Outcome State Fault Refusal :=
  .next (linkEvent (if r = .detect then linkFalls false s else endpointReset s))

/-- LINK_STATE_CHANGE: the link's state, speed and width; `expected` says that nPERST is low or a hot reset was requested. -/
def linkStateChange (link speed width : Nat) (expected : Bool) (s : State) : State :=
  let old := s.get F.pcieStat_LINK 0
  let s := (s.set F.pcieStat_SPEED 0 speed).set F.pcieStat_WIDTH 0 width
  if link = old then s
  else linkEvent (if link = 0 then linkFalls expected s else s.set F.pcieStat_LINK 0 link)

/-- R427. -/
def execLinkStateChange (link speed : Fin 5) (width : Fin 9) (expected : Bool) (s : State) : Host.Outcome State Fault Refusal :=
  .next (linkStateChange link speed width expected s)

/-! ### JTAG DEBUG (R448) -/

/-- The fields of the DEBUG register. -/
def dbgAddr (v : BitVec 112) : W := v.extractLsb' 0 48
def dbgData (v : BitVec 112) : W := v.extractLsb' 48 48
def dbgWriteBit (v : BitVec 112) : Bool := bits v.toNat 96 1 = 1
def dbgHalf (v : BitVec 112) : Bool := bits v.toNat 97 1 = 1

/-- The access is over: status, and the data of a read. -/
def debugDone (ok : Bool) (data : Option W) (s : State) : State :=
  let v := s.port.dbgWord
  let d := data.getD (dbgData v)
  let st := if ok then 0 else 1
  let n := v.toNat % 2 ^ 48 + d.toNat * 2 ^ 48 + bits v.toNat 96 8 * 2 ^ 96 + st * 2 ^ 104
  { s with port := { s.port with dbgWord := BitVec.ofNat 112 n, jtagReq := none } }

/-- DEBUG: an update performs one access as initiator 14. -/
def debugAccess (v : BitVec 112) (natural : Nat) (s : State) : State :=
  if s.fatal || s.port.jtag ≠ 0x10 || s.port.jtagReq.isSome then s
  else
    let s := { s with port := { s.port with dbgWord := v } }
    let a := dbgAddr v
    let full := !dbgHalf v
    if direct s a then
      if dbgWriteBit v then
        let (ok, s) := accWrite jtagInit true full 2 natural (localOf s a) (dbgData v).toNat s
        debugDone ok none s
      else
        match accRead jtagInit true full natural (localOf s a) s with
        | (.ok x, s) => debugDone true (some (w48 x.toNat)) s
        | (.bad _, s) => debugDone false none s
    else
      match freeTrans s jtagInit [] with
      | none => s
      | some t =>
        let s := sendReq jtagInit t (if dbgWriteBit v then 2 else 1) full a ((dbgData v).setWidth 64) s
        { s with port := { s.port with jtagReq := some t } }

/-- R448. -/
def execDebug (v : BitVec 112) (err : Fin 4) (s : State) : Host.Outcome State Fault Refusal := .next (debugAccess v err s)

/-- The response to a DEBUG access that left through the network. -/
def serveJtag (s : State) : State :=
  match s.port.jtagReq with
  | none => s
  | some t =>
    match takeRsp jtagInit t s with
    | none => s
    | some (r, s) => debugDone r.ok (if r.ok && !dbgWriteBit s.port.dbgWord then some (w48 r.data.toNat) else none) s

end Sys2Proof.Machine
end

