-- ==== Sys2Proof/Machine/Manage.lean ====
section
/-!
DEFINITION. Sys2Proof/Machine/Manage.lean: the management controller in service: its commands (R410, R417, R418), the mirror of the event log
(R415), PMBus (R412) and the SMBus target (R413).
-/
namespace Sys2Proof.Machine
open Sys2Proof

/-! ### Commands (R417) -/

def rOk : Nat := 0x01
def rState : Nat := 0x11
def rRange : Nat := 0x12
def rFlash : Nat := 0x13
def rDigest : Nat := 0x17
def rRevoke : Nat := 0x19
def rDest : Nat := 0x1A
def rUcode : Nat := 0x1B

/-- The RESULT that reports a failure of R403. -/
def resultOf (e : Nat) : Nat :=
  if e = eFormat then 0x14 else if e = eKey then 0x15 else if e = eSignature then 0x16 else if e = eDigest then rDigest
  else if e = eRollback then 0x18 else if e = eUcode then rUcode else rOk

/-- The argument of the command that the MC is running, when its OP is `op`. -/
def mcArgOf (s : State) (op : Nat) : Option Nat :=
  match s.mc.cmd with
  | some (o, a) => if o = op then some a else none
  | none => none

/-- The running command ends with a RESULT, and MC_CMD_DONE is raised. -/
def mcEnd (result : Nat) (s : State) : State :=
  raiseEvent 482 (({ s with mc := { s.mc with cmd := none } }.set F.mcStat_BUSY 0 0).set F.mcStat_RESULT 0 result)

/-- A command of an update ends: it is logged as UPDATE (DEDUCED, log 14). -/
def updEnd (op result : Nat) (s : State) : State := mcEvent 0x0006 (op + result * 16) (mcEnd result s)

/-- Run the MC command `op` when it is the one that waits: `ok` is its acceptance rule; a command that is not accepted ends with STATE and
changes nothing (DEDUCED, log 12). -/
def mcRun (op : Nat) (ok : Nat → Bool) (f : Nat → State → State) (s : State) : State :=
  match mcArgOf s op with
  | none => s
  | some a => if ok a then f a s else mcEnd rState s

/-- What a failed operation leaves in the flash. -/
def flashFailed (base size : Nat) (l : List (Nat × BitVec 8)) (s : State) : State :=
  l.foldl (fun s x => if x.1 < size then flashWrite (base + x.1) [x.2.toNat] s else s) s

def updOpen (s : State) : Bool := s.flag F.mcStat_OPEN 0

/-- The open update closes. -/
def updClose (s : State) : State := (s.set F.mcStat_OPEN 0 0).set F.mcStat_VERIFIED 0 0

/-- UPD_BEGIN: erases the slot, drops a pending name of it, and opens an update. -/
def updBegin (fail : FlashOut) (s : State) : State :=
  mcRun 1 (fun a => !updOpen s && (bits a 0 1 ≠ s.get F.bootStat_SLOT 0 || s.flag F.bootStat_RECOVERY 0)) (fun a s =>
    let slot := bits a 0 1
    match fail with
    | some l => updEnd 1 rFlash (flashFailed (slotBase slot) slotSize l s)
    | none =>
      let s := flashErase (slotBase slot) slotSize s
      let r := bootRec s
      let s := if r.pendv && r.pending = slot then putBootRec { r with pendv := false } s else s
      let s := (s.set F.mcStat_OPEN 0 1).set F.mcStat_VERIFIED 0 0
      updEnd 1 rOk { s with mc := { s.mc with updSlot := slot } }) s

/-- R417. -/
def execUpdBegin (fail : FlashOut) (s : State) : Host.Outcome State Fault Refusal := .next (unlessFatal (updBegin fail) s)

/-- The first byte of MC_BUF. -/
def mcBufBase : Nat := hubAddr 0x1000088000

/-- UPD_CHUNK: programs bytes of MC_BUF (DEDUCED, log 17). -/
def updChunk (fail : FlashOut) (s : State) : State :=
  mcRun 2 (fun _ => updOpen s) (fun a s =>
    let off := bits a 0 32
    let len := bits a 32 16
    if off % 256 ≠ 0 || len = 0 || 32768 < len || slotSize < off + len then updEnd 2 rRange s
    else
      let s := s.set F.mcStat_VERIFIED 0 0
      let base := slotBase s.mc.updSlot + off
      match fail with
      | some l => updEnd 2 rFlash (flashFailed base len l s)
      | none => updEnd 2 rOk (flashWrite base ((List.range len).map fun i => (s.readByte (mcBufBase + i)).toNat) s)) s

/-- R417. -/
def execUpdChunk (fail : FlashOut) (s : State) : Host.Outcome State Fault Refusal := .next (unlessFatal (updChunk fail) s)

/-- UPD_VERIFY: R403 over the slot (DEDUCED, log 18). -/
def updVerify (s : State) : State :=
  mcRun 3 (fun _ => updOpen s) (fun _ s =>
    let e := verifyImage s s.mc.updSlot
    updEnd 3 (resultOf e) (s.set F.mcStat_VERIFIED 0 (b2n (e = 0)))) s

/-- R417. -/
def execUpdVerify (s : State) : Host.Outcome State Fault Refusal := .next (unlessFatal updVerify s)

/-- UPD_ACTIVATE: the boot record names the verified slot as pending, and the update closes. `ok` is that the flash takes the record (DEDUCED,
log 16). -/
def updActivate (ok : Bool) (s : State) : State :=
  mcRun 4 (fun _ => s.flag F.mcStat_VERIFIED 0) (fun _ s =>
    if !ok then updEnd 4 rFlash s
    else
      let r := bootRec s
      updEnd 4 rOk (updClose (putBootRec { r with pendv := true, pending := s.mc.updSlot, tries := 0 } s))) s

/-- R417. -/
def execUpdActivate (ok : Bool) (s : State) : Host.Outcome State Fault Refusal := .next (unlessFatal (updActivate ok) s)

/-- R418, item 1: REVOKE names neither the image's own KEY nor every programmed slot that is not already revoked. -/
def revokeOk (s : State) (h : Header) : Bool :=
  let left := (List.range 4).filter fun k => bits (s.get F.otpStat_KEYS 0) k 1 = 1 && bits (s.get F.otpStat_REVOKED 0) k 1 = 0
  bits h.revoke h.key 1 = 0 && !left.all fun k => bits h.revoke k 1 = 1

/-- R418, items 3 and 4: the OTP counter goes up to SVN, and the revoke bits are programmed (DEDUCED, log 21). -/
def programOtp (h : Header) (s : State) : State :=
  let s := if s.get F.otpStat_SVN 0 < h.svn then mcEvent 0x0008 h.svn (s.set F.otpStat_SVN 0 h.svn) else s
  let now := s.get F.otpStat_REVOKED 0
  let new := h.revoke % 16 &&& (15 - now)
  if new = 0 then s else mcEvent 0x0007 new (s.set F.otpStat_REVOKED 0 (now ||| new))

/-- UPD_CONFIRM (R418): `ok` is that the flash takes the record; `whole` is that power stays on after item 2 (DEDUCED, log 19). -/
def updConfirm (ok whole : Bool) (s : State) : State :=
  let r := bootRec s
  let slot := s.get F.bootStat_SLOT 0
  mcRun 5 (fun _ => s.get F.bootStat_STEP 0 = 11 && r.pendv && r.pending = slot && s.mc.image.isSome) (fun _ s =>
    match s.mc.image with
    | none => s
    | some h =>
      if !revokeOk s h then updEnd 5 rRevoke s
      else if !ok then updEnd 5 rFlash s
      else
        let s := putBootRec { r with active := slot, pendv := false } s
        if whole then updEnd 5 rOk (programOtp h s) else { s with mc := { s.mc with cmd := none } }) s

/-- R418. -/
def execUpdConfirm (ok whole : Bool) (s : State) : Host.Outcome State Fault Refusal := .next (unlessFatal (updConfirm ok whole) s)

/-- UPD_ABORT: closes the update. -/
def updAbort (s : State) : State := mcRun 6 (fun _ => updOpen s) (fun _ s => updEnd 6 rOk (updClose s)) s

/-- R417. -/
def execUpdAbort (s : State) : Host.Outcome State Fault Refusal := .next (unlessFatal updAbort s)

/-- BANK_OFFLINE: takes a bank offline. -/
def bankOffline (s : State) : State :=
  mcRun 7 (fun _ => true) (fun a s => mcEnd rOk (mcEvent 0x000A (bits a 0 11) (takeOffline (bits a 0 11) s))) s

/-- R309, R417. -/
def execBankOffline (s : State) : Host.Outcome State Fault Refusal := .next (unlessFatal bankOffline s)

/-! ### Step 10 (R410) -/

/-- BOOT_STAT.STEP reports step 10, in progress or failed (R417) (DEDUCED, log 23). -/
def inStep10 (s : State) : Bool := s.get F.bootStat_STEP 0 = 10

/-- Every instruction slot of a GRAPH section lies in a cluster in LOADING that the section's partition owns. -/
def graphDest (s : State) (p a n : Nat) : Bool :=
  (List.range n).all fun i =>
    match placeOf (a + 16 * i) with
    | some (.instr c _) => s.cState c = 1 && s.cOwner c = p
    | _ => false

/-- The instructions of a GRAPH section go to their slots: 96 bits each, in slots of 16 bytes (DEDUCED, log 24). -/
def loadGraph (a n : Nat) (b : List Nat) (s : State) : State :=
  (List.range n).foldl (fun s i => s.writeN (a + 16 * i) (field b (16 * i) 12) 12) s

/-- LOAD_SECTION: loads a GRAPH or CERT section (DEDUCED, log 22). -/
def loadSection (s : State) : State :=
  mcRun 8 (fun _ => inStep10 s) (fun a s =>
    let slot := s.get F.bootStat_SLOT 0
    match (s.mc.image.map (·.sections)).getD [] |>.drop (bits a 0 6) |>.head? with
    | none => mcEnd rRange s
    | some x =>
      if !(x.type = sGraph || x.type = sCert) then mcEnd rRange s
      else if !digestOk s slot x then mcEnd rDigest s
      else if x.type = sCert then mcEnd rOk (loadFw x (sectionBytes s slot x) s)
      else if !graphDest s x.flags (destLocal x.dest) (x.len / 16) then mcEnd rDest s
      else mcEnd rOk (loadGraph (destLocal x.dest) (x.len / 16) (sectionBytes s slot x) s)) s

/-- R410. -/
def execLoadSection (s : State) : Host.Outcome State Fault Refusal := .next (unlessFatal loadSection s)

/-! ### The mirror of the event log (R415) -/

/-- The bytes of a page: the sequence number of its first entry, the count, the CRC and the entries; the rest is 0xFF (DESIGN CHOICE, log 25). -/
def pageBytes (seq : Nat) (es : List (BitVec 64 × BitVec 64)) : List Nat :=
  let head := bytesOf 4 seq ++ [es.length, 0xFF, 0xFF, 0xFF]
  let body := es.flatMap fun e => bytesOf 8 e.1.toNat ++ bytesOf 8 e.2.toNat
  let body := body ++ List.replicate (240 - body.length) 0xFF
  head ++ bytesOf 4 (crc32 (head ++ body)) ++ [0xFF, 0xFF, 0xFF, 0xFF] ++ body

/-- A page with up to 15 of the entries that wait goes to the ring; a failure is an MGMT fault, and the next page is tried later. -/
def writePage (fail : FlashOut) (s : State) : State :=
  let n := min 15 s.mc.unwritten.length
  let es := (s.mc.log.drop (s.mc.log.length - s.mc.unwritten.length)).take n
  let seq := (s.get F.logStat_NEXT 0 + 2 ^ 32 - s.mc.unwritten.length) % 2 ^ 32
  let a := ringBase + 256 * s.mc.page
  if n = 0 then s
  else
    let s := if s.mc.page % 16 = 0 then flashErase a 4096 s else s
    let s := { s with mc := { s.mc with page := (s.mc.page + 1) % ringPages } }
    match fail with
    | some l => reportU 38 (loc 7 8) 0 (flashFailed a 256 l s)
    | none => flashWrite a (pageBytes seq es) { s with mc := { s.mc with unwritten := s.mc.unwritten.drop n } }

/-- LOG_PAGE_WRITE: 15 entries wait, or the oldest has waited for 1 s, 250,000,000 ticks (DEDUCED, log 26). -/
def logPageWrite (fail : FlashOut) (s : State) : State :=
  let due := 15 ≤ s.mc.unwritten.length || s.mc.unwritten.any fun x => x + 250000000 ≤ s.ticks
  if due && s.get F.bootStat_ERROR 0 ≠ eNoFlash then writePage fail s else s

/-- R415. -/
def execLogPageWrite (fail : FlashOut) (s : State) : Host.Outcome State Fault Refusal := .next (unlessFatal (logPageWrite fail) s)

/-- R418: a confirmation that was interrupted after item 2 is completed at RUN: the record then names the booted slot as ACTIVE, with nothing
pending (DEDUCED, log 20). -/
def completeConfirm (s : State) : State :=
  match s.mc.image, newerCopy s with
  | some h, some (_, r) =>
    if !r.pendv && r.active = s.get F.bootStat_SLOT 0 && revokeOk s { h with revoke := h.revoke &&& (15 - s.get F.otpStat_REVOKED 0) } then
      programOtp h s
    else s
  | _, _ => s

/-- RUN: the package enters RUN; the log is mirrored, with the outcome `fail` of the flash. -/
def enterRun (fail : FlashOut) (s : State) : State :=
  mcRun 9 (fun _ => inStep10 s) (fun _ s =>
    let s := mcEvent 0x000B (s.get F.bootStat_SLOT 0) (s.set F.bootStat_STEP 0 11)
    mcEnd rOk (writePage fail (completeConfirm (raiseEvent 480 s)))) s

/-- R410. -/
def execRun (fail : FlashOut) (s : State) : Host.Outcome State Fault Refusal := .next (unlessFatal (enterRun fail) s)

/-! ### Clusters (R17, R120, R161) -/

/-- CLUSTER_OFFLINE: a quarantined or unowned cluster without an owner goes to OFFLINE. -/
def clusterOffline (s : State) : State :=
  mcRun 10 (fun a => (s.cState (bits a 0 7) = 4 || s.cState (bits a 0 7) = 0) && s.cOwner (bits a 0 7) = 15) (fun a s =>
    let c := bits a 0 7
    let s := s.set F.clStatus_STATE c 5
    mcEnd rOk (mcEvent 0x000D c { s with ap := { s.ap with reexamine := true } })) s

/-- R417. -/
def execClusterOffline (s : State) : Host.Outcome State Fault Refusal := .next (unlessFatal clusterOffline s)

/-- CLUSTER_RELEASE: the cluster is emptied and its control store written from the golden copy; `r` says whether every word read back right,
or did so when it was written once more (DEDUCED, log 36). The read of the copy meets MC RAM's check (DESIGN CHOICE, log 165). -/
def clusterRelease (r : Rewrite) (s : State) : State :=
  mcRun 11 (fun a => s.cState (bits a 0 7) = 4 && s.cOwner (bits a 0 7) = 15) (fun a s =>
    let c := bits a 0 7
    let (sound, s) := goldenRead r.ram (emptyCluster c s)
    let s := if sound then writeGolden c s.mc.gStd s else s
    if !sound then mcEnd rUcode s
    else if !r.good then mcEnd rUcode (wrongWord c s)
    else mcEnd rOk (mcEvent 0x000E c ((restartPes c s).set F.clStatus_STATE c 0))) s

/-- R417. -/
def execClusterRelease (good : Rewrite) (s : State) : Host.Outcome State Fault Refusal := .next (unlessFatal (clusterRelease good) s)

/-! ### PMBus (R412) -/

/-- The bits of STATUS_WORD that report a fault (PRESUMED, log 28). -/
def statusFaults : Nat := 0xF73F

/-- A regulator's answer to a poll, or none: it did not answer or its PEC was wrong (DEDUCED, log 27; DEDUCED, log 29). -/
def pollOne (r : Nat) (a : Option PmbAns) (s : State) : State :=
  let d := mget ⟨⟨0, 0, 0, 0⟩, 0, false, none⟩ s.mc.pmb r
  let put (d : PmbDevSt) (s : State) : State := { s with mc := { s.mc with pmb := mput s.mc.pmb r d } }
  match a with
  | none =>
    let s := put { d with fails := d.fails + 1 } s
    if d.fails + 1 = 3 then reportU 38 (loc 7 8) 0 s else s
  | some x =>
    let s := put { d with last := x, fails := 0 } s
    if x.status.toNat &&& statusFaults = 0 then s else raiseEvent 483 (mcEvent 0x0009 (r + x.status.toNat * 8) s)

/-- The MC reads every regulator that it serves, from the end of step 5's CONFIG entries on. -/
def pollAll (answers : List (Fin 8 × PmbAns)) (s : State) : State :=
  if s.get F.bootStat_STEP 0 < 5 then s
  else
    (List.range 8).foldl (fun s r =>
      if s.flag F.pmbDev_EN r then pollOne r ((answers.find? fun x => x.1.val = r).map (·.2)) s else s) s

/-- R412. -/
def execPmbusPoll (answers : List (Fin 8 × PmbAns)) (s : State) : Host.Outcome State Fault Refusal :=
  .next (unlessFatal (pollAll answers) s)

/-- R412: the falling edge of nPMB_ALERT. -/
def execPmbAlert (answers : List (Fin 8 × PmbAns)) (s : State) : Host.Outcome State Fault Refusal :=
  .next (unlessFatal (pollAll answers) s)

/-! ### The SMBus target (R413) -/

/-- The target runs, from step 2 on, and is addressed (DESIGN CHOICE, log 31). -/
def smbMine (s : State) (addr : Nat) : Bool := 2 ≤ s.get F.bootStat_STEP 0 && addr = s.get F.smbCfg_ADDR 0

def smbAnswer (a : Option (List (BitVec 8))) (s : State) : State := { s with mc := { s.mc with smbAnswer := a } }

/-- Byte `i` of a word. -/
def byteOf (v : BitVec 64) (i : Nat) : BitVec 8 := BitVec.ofNat 8 (v.toNat / 2 ^ (8 * i))

/-- A byte of the window; bytes beyond the content of each range read as 0 (DEDUCED, log 32; DEDUCED, log 34). -/
def smbByte (s : State) (o : Nat) : BitVec 8 :=
  let word (base : Nat) (f : Nat → BitVec 64) : BitVec 8 := byteOf (f ((o - base) / 8)) ((o - base) % 8)
  if 0x800 ≤ o ∧ o < 0x1000 then word 0x800 (vbatWord s)
  else if s.fatal then 0
  else if o < 8 then word 0 fun _ => viewOf s .devid .devId 0
  else if o < 16 then word 8 fun _ => viewOf s .mc .bootStat 0
  else if 0x100 ≤ o ∧ o < 0x240 then word 0x100 fun n => viewOf s .mc .ts n
  else if 0x400 ≤ o ∧ o < 0x440 then
    word 0x400 fun r =>
      match mfind s.mc.pmb r with
      | some d => d.last.status ++ d.last.temp ++ d.last.iout ++ d.last.vout
      | none => 0
  else if 0x1000 ≤ o ∧ o < 0x1400 then word 0x1000 fun i => BitVec.ofNat 64 (ledgerWord s i)
  else if 0x2000 ≤ o ∧ o < 0x2010 then word 0x2000 fun i => if i = 0 then viewOf s .mc .logW0 0 else viewOf s .mc .logW1 0
  else 0

/-- WRITE_WORD: command code, pointer, and the PEC: absent, right or wrong. A NACK leaves the pointer (DEDUCED, log 33). -/
def writeWord (addr code ptr : Nat) (pec : Option Bool) (s : State) : State :=
  let pecOk := match pec with | some ok => ok | none => !s.flag F.smbCfg_PEC_REQ 0
  if smbMine s addr && code = 1 && pecOk then smbAnswer (some []) { s with mc := { s.mc with smbPtr := ptr } }
  else smbAnswer none s

/-- R413. -/
def execWriteWord (addr : BitVec 7) (code : BitVec 8) (ptr : BitVec 16) (pec : Option Bool) (s : State) :
    Host.Outcome State Fault Refusal :=
  .next (writeWord addr.toNat code.toNat ptr.toNat pec s)

/-- BLOCK_READ: 32 bytes from the pointer, which advances by 32. In the fatal state only the fatal record is served (R389). -/
def blockRead (addr code : Nat) (s : State) : State :=
  let p := s.mc.smbPtr
  let served := !s.fatal || (0x800 < p + 32 && p < 0x1000)
  if smbMine s addr && code = 2 && served then
    smbAnswer (some ((List.range 32).map fun i => smbByte s ((p + i) % 65536))) { s with mc := { s.mc with smbPtr := (p + 32) % 65536 } }
  else smbAnswer none s

/-- R413. -/
def execBlockRead (addr : BitVec 7) (code : BitVec 8) (s : State) : Host.Outcome State Fault Refusal :=
  .next (blockRead addr.toNat code.toNat s)

/-- ALERT_RESPONSE_ADDRESS: while nSMB_ALERT is asserted, as nFLT is, the target answers with its address (DEDUCED, log 35). -/
def alertResponse (s : State) : State :=
  if 2 ≤ s.get F.bootStat_STEP 0 && nFlt s then smbAnswer (some [BitVec.ofNat 8 (2 * s.get F.smbCfg_ADDR 0)]) s else smbAnswer none s

/-- R413. -/
def execAlertResponseAddress (s : State) : Host.Outcome State Fault Refusal := .next (alertResponse s)

end Sys2Proof.Machine
end

