-- ==== Sys2Proof/Machine/Tick.lean ====
section
/-!
DEFINITION. Sys2Proof/Machine/Tick.lean: the tick boundary (R24, R205): T steps, and what the rules place at a tick boundary happens.
-/
namespace Sys2Proof.Machine
open Sys2Proof

/-- R59, R192: RM and TRAP that were written in the tick before are in force, in both epochs. -/
def arithTick (s : State) : State :=
  let s := s.cl.arithW.foldl (fun s p =>
    let v := s.get F.arithStat_TRAP p * 4 + s.get F.arithStat_RM p
    { s with cl := { s.cl with arith := mput (mput s.cl.arith (p * 2) v) (p * 2 + 1) v } }) s
  { s with cl := { s.cl with arithW := [] } }

/-- What stops in the fatal state: the clock ramps, counts, RM and TRAP, injected pairs, copies, the chain port, boot, and accesses of the JTAG
port that wait for the network. -/
def serviceTick (s : State) : State :=
  let s := arithTick (rampWatch s)
  let s := (List.range 8).foldl (fun s p => reportCounts p s) s
  serveJtag (bootTick (chainTick (migCopyTick (pairTick s))))

/-- T_ADVANCE: one tick boundary, before which the tick that ends closes the output lanes' captures (R251), and at whose end the control blocks that wait for a block time go (R436). `freqOk` is that the reference is within 0.01 ppm of the local clock (R204), and `rails` holds the readings
of the rail monitors that this tick brings (DESIGN CHOICE, log 37). The rails and the endpoint go on in the fatal state (R389). -/
def tAdvance (freqOk : Bool) (rails : RailIn) (s : State) : State :=
  let s := { s with out := { s.out with now := [] } }
  let s := auxTick (sampleTick (lensTick freqOk (alignTick (stepT (sampleTickEnd s)))))
  let s := pumpCtl (idleTick false (idleTick true (unlessFatal serviceTick s)))
  serveHost 0 (railTick rails s)

/-- R205. -/
def execTAdvance (freqOk : Bool) (rails : RailIn) (s : State) : Host.Outcome State Fault Refusal := .next (tAdvance freqOk rails s)

end Sys2Proof.Machine
end

