-- ==== Sys2Proof/Machine/Dispatch.lean ====
section
/-!
DEFINITION. Sys2Proof/Machine/Dispatch.lean: one arm for each command.
-/
namespace Sys2Proof.Machine
open Sys2Proof

def exec (i : Instr) (s : State) : Host.Outcome State Fault Refusal :=
  match i with
  | .tAdvance freqOk rails => Sys2Proof.Machine.execTAdvance freqOk rails s
  | .tLoad who t era => Sys2Proof.Machine.execTLoad who t era s
  | .ppsEdge frac rising => Sys2Proof.Machine.execPpsEdge frac rising s
  | .ppsTimeout => Sys2Proof.Machine.execPpsTimeout s
  | .refLoss => Sys2Proof.Machine.execRefLoss s
  | .time up word stamp hold intact => Sys2Proof.Machine.execTime up word stamp hold intact s
  | .techo up sent received hold intact => Sys2Proof.Machine.execTecho up sent received hold intact s
  | .chainTimeLoss => Sys2Proof.Machine.execChainTimeLoss s
  | .countEdge src stamp a b width => Sys2Proof.Machine.execCountEdge src stamp a b width s
  | .zEdge e p => Sys2Proof.Machine.execZEdge e p s
  | .coordinateStall n => Sys2Proof.Machine.execCoordinateStall n s
  | .mainsEdge rising stamp width => Sys2Proof.Machine.execMainsEdge rising stamp width s
  | .mainsHoldover => Sys2Proof.Machine.execMainsHoldover s
  | .triggerCrossing n => Sys2Proof.Machine.execTriggerCrossing n s
  | .gridPoint g => Sys2Proof.Machine.execGridPoint g s
  | .resamplerToken ch => Sys2Proof.Machine.execResamplerToken ch s
  | .lensQuery => Sys2Proof.Machine.execLensQuery s
  | .laneComma k phase at_ => Sys2Proof.Machine.execLaneComma k phase at_ s
  | .laneAlign k n at_ => Sys2Proof.Machine.execLaneAlign k n at_ s
  | .frame k f => Sys2Proof.Machine.execFrame k f s
  | .laneSofTimeout k at_ => Sys2Proof.Machine.execLaneSofTimeout k at_ s
  | .laneGraceExpiry k => Sys2Proof.Machine.execLaneGraceExpiry k s
  | .fifoIdleFlush k => Sys2Proof.Machine.execFifoIdleFlush k s
  | .fifoWordRead k err => Sys2Proof.Machine.execFifoWordRead k err s
  | .drop who k => Sys2Proof.Machine.execDrop who k s
  | .outputFrame k => Sys2Proof.Machine.execOutputFrame k s
  | .forceRelease c => Sys2Proof.Machine.execForceRelease c s
  | .ilkRel who v => Sys2Proof.Machine.execIlkRel who v s
  | .ilkForce who v => Sys2Proof.Machine.execIlkForce who v s
  | .chForce who n v => Sys2Proof.Machine.execChForce who n v s
  | .ilkTest who ch v => Sys2Proof.Machine.execIlkTest who ch v s
  | .flitReceive seg cyc rcyc ext err urgErr => Sys2Proof.Machine.execFlitReceive seg cyc rcyc ext err urgErr s
  | .initiatorTimeout => Sys2Proof.Machine.execInitiatorTimeout s
  | .rd src err => Sys2Proof.Machine.execRd src err s
  | .wr src v err => Sys2Proof.Machine.execWr src v err s
  | .bwr err => Sys2Proof.Machine.execBwr err s
  | .output => Sys2Proof.Machine.execOutput s
  | .emitAtDue => Sys2Proof.Machine.execEmitAtDue s
  | .outputRoom => Sys2Proof.Machine.execOutputRoom s
  | .release => Sys2Proof.Machine.execRelease s
  | .allocGrant r p q => Sys2Proof.Machine.execAllocGrant r p q s
  | .globalArrive m => Sys2Proof.Machine.execGlobalArrive m s
  | .globalRelease m => Sys2Proof.Machine.execGlobalRelease m s
  | .globalStage m => Sys2Proof.Machine.execGlobalStage m s
  | .globalAck m => Sys2Proof.Machine.execGlobalAck m s
  | .globalAbort m => Sys2Proof.Machine.execGlobalAbort m s
  | .scheduleDeadline => Sys2Proof.Machine.execScheduleDeadline s
  | .snapshot => Sys2Proof.Machine.execSnapshot s
  | .warmReset b => Sys2Proof.Machine.execWarmReset b s
  | .modeCommit p => Sys2Proof.Machine.execModeCommit p s
  | .migrationSwitch p => Sys2Proof.Machine.execMigrationSwitch p s
  | .barArm who b => Sys2Proof.Machine.execBarArm who b s
  | .barDisarm who b => Sys2Proof.Machine.execBarDisarm who b s
  | .barArrive who b => Sys2Proof.Machine.execBarArrive who b s
  | .clusterQuiet b c => Sys2Proof.Machine.execClusterQuiet b c s
  | .gschedSnapshot who system => Sys2Proof.Machine.execGschedSnapshot who system s
  | .gschedWarmReset who system => Sys2Proof.Machine.execGschedWarmReset who system s
  | .tokenAccept c pe err => Sys2Proof.Machine.execTokenAccept c pe err s
  | .spillRetry c pe => Sys2Proof.Machine.execSpillRetry c pe s
  | .integerOp c pe err => Sys2Proof.Machine.execIntegerOp c pe err s
  | .comparison c pe err => Sys2Proof.Machine.execComparison c pe err s
  | .q47Multiply c pe err => Sys2Proof.Machine.execQ47Multiply c pe err s
  | .floatOp c pe err => Sys2Proof.Machine.execFloatOp c pe err s
  | .conversion c pe err => Sys2Proof.Machine.execConversion c pe err s
  | .complexOp c pe err => Sys2Proof.Machine.execComplexOp c pe err s
  | .switch c pe err => Sys2Proof.Machine.execSwitch c pe err s
  | .merge c pe err => Sys2Proof.Machine.execMerge c pe err s
  | .gate c pe err => Sys2Proof.Machine.execGate c pe err s
  | .sel c pe err => Sys2Proof.Machine.execSel c pe err s
  | .const c pe err => Sys2Proof.Machine.execConst c pe err s
  | .sink c pe err => Sys2Proof.Machine.execSink c pe err s
  | .prism c pe err => Sys2Proof.Machine.execPrism c pe err s
  | .link c pe err => Sys2Proof.Machine.execLink c pe err s
  | .alloc c pe err => Sys2Proof.Machine.execAlloc c pe err s
  | .free c pe err => Sys2Proof.Machine.execFree c pe err s
  | .next c pe err => Sys2Proof.Machine.execNext c pe err s
  | .return_ c pe err => Sys2Proof.Machine.execReturn c pe err s
  | .load c pe err => Sys2Proof.Machine.execLoad c pe err s
  | .store c pe err => Sys2Proof.Machine.execStore c pe err s
  | .read c pe err => Sys2Proof.Machine.execRead c pe err s
  | .write c pe err => Sys2Proof.Machine.execWrite c pe err s
  | .iclr c pe err => Sys2Proof.Machine.execIclr c pe err s
  | .fetchAdd c pe err => Sys2Proof.Machine.execFetchAdd c pe err s
  | .swap c pe err => Sys2Proof.Machine.execSwap c pe err s
  | .now c pe err => Sys2Proof.Machine.execNow c pe err s
  | .due c pe err => Sys2Proof.Machine.execDue c pe err s
  | .tighten c pe err => Sys2Proof.Machine.execTighten c pe err s
  | .angleAt c pe err => Sys2Proof.Machine.execAngleAt c pe err s
  | .timeAt c pe err => Sys2Proof.Machine.execTimeAt c pe err s
  | .out c pe err => Sys2Proof.Machine.execOut c pe err s
  | .emitAt c pe err => Sys2Proof.Machine.execEmitAt c pe err s
  | .userOperation c pe err => Sys2Proof.Machine.execUserOperation c pe err s
  | .response c p => Sys2Proof.Machine.execResponse c p s
  | .deferredAnswer c p => Sys2Proof.Machine.execDeferredAnswer c p s
  | .bankOperation b direct err => Sys2Proof.Machine.execBankOperation b direct err s
  | .deferredReadAnswer b => Sys2Proof.Machine.execDeferredReadAnswer b s
  | .scrub b err => Sys2Proof.Machine.execScrub b err s
  | .correctedWriteback b => Sys2Proof.Machine.execCorrectedWriteback b s
  | .bankOwn init b owner clr => Sys2Proof.Machine.execBankOwn init b owner clr s
  | .handoverComplete b => Sys2Proof.Machine.execHandoverComplete b s
  | .bankPwr b st => Sys2Proof.Machine.execBankPwr b st s
  | .powerMoveComplete b => Sys2Proof.Machine.execPowerMoveComplete b s
  | .takeOffline init b => Sys2Proof.Machine.execTakeOffline init b s
  | .matchDebugRead init c r => Sys2Proof.Machine.execMatchDebugRead init c r s
  | .deadlockEvaluation p => Sys2Proof.Machine.execDeadlockEvaluation p s
  | .reclaimSweepEnd p => Sys2Proof.Machine.execReclaimSweepEnd p s
  | .filterExpiry p => Sys2Proof.Machine.execFilterExpiry p s
  | .controlStoreReload c r => Sys2Proof.Machine.execControlStoreReload c r s
  | .claim => Sys2Proof.Machine.execClaim s
  | .admitGraph loadOk => Sys2Proof.Machine.execAdmit loadOk s
  | .commit p => Sys2Proof.Machine.execCommit p s
  | .withdraw => Sys2Proof.Machine.execWithdraw s
  | .withdrawComplete p => Sys2Proof.Machine.execWithdrawComplete p s
  | .clusterEmptied c => Sys2Proof.Machine.execClusterEmptied c s
  | .stage => Sys2Proof.Machine.execStage s
  | .modeDrained p => Sys2Proof.Machine.execModeDrained p s
  | .modeSweep p => Sys2Proof.Machine.execModeSweep p s
  | .modeDiscardEnd p => Sys2Proof.Machine.execModeDiscardEnd p s
  | .migrate => Sys2Proof.Machine.execMigrate s
  | .migrationCopyDone p loadOk => Sys2Proof.Machine.execMigrationCopyDone p loadOk s
  | .migrationDrained p => Sys2Proof.Machine.execMigrationDrained p s
  | .guaranteeRestore p => Sys2Proof.Machine.execGuaranteeRestore p s
  | .ledgerReexamine => Sys2Proof.Machine.execLedgerReexamine s
  | .lostAck who p => Sys2Proof.Machine.execLostAck who p s
  | .alu k e => Sys2Proof.Machine.execAlu k e s
  | .immediate k e => Sys2Proof.Machine.execImmediate k e s
  | .ldk k e => Sys2Proof.Machine.execLdk k e s
  | .ink k e => Sys2Proof.Machine.execInk k e s
  | .xrk k e => Sys2Proof.Machine.execXrk k e s
  | .ld k e => Sys2Proof.Machine.execLd k e s
  | .st k e => Sys2Proof.Machine.execSt k e s
  | .postedStoreError k => Sys2Proof.Machine.execPostedStoreError k s
  | .lr k e => Sys2Proof.Machine.execLr k e s
  | .sc k e => Sys2Proof.Machine.execSc k e s
  | .tas k e => Sys2Proof.Machine.execTas k e s
  | .branch k e => Sys2Proof.Machine.execBranch k e s
  | .j k e => Sys2Proof.Machine.execJ k e s
  | .call k e => Sys2Proof.Machine.execCall k e s
  | .jr k e => Sys2Proof.Machine.execJr k e s
  | .callr k e => Sys2Proof.Machine.execCallr k e s
  | .ret k e => Sys2Proof.Machine.execRet k e s
  | .rspush k e => Sys2Proof.Machine.execRspush k e s
  | .rspop k e => Sys2Proof.Machine.execRspop k e s
  | .fp k e => Sys2Proof.Machine.execFp k e s
  | .fma k e => Sys2Proof.Machine.execFma k e s
  | .cpx k e => Sys2Proof.Machine.execCpx k e s
  | .fence k e => Sys2Proof.Machine.execFence k e s
  | .srr k e => Sys2Proof.Machine.execSrr k e s
  | .srw k e => Sys2Proof.Machine.execSrw k e s
  | .trapi k e => Sys2Proof.Machine.execTrapi k e s
  | .tret k e => Sys2Proof.Machine.execTret k e s
  | .halt k e => Sys2Proof.Machine.execHalt k e s
  | .wait k e => Sys2Proof.Machine.execWait k e s
  | .ginj k e => Sys2Proof.Machine.execGinj k e s
  | .ginjFullTimeout k => Sys2Proof.Machine.execGinjFullTimeout k s
  | .ginjHandover c => Sys2Proof.Machine.execGinjHandover c s
  | .gcol k e => Sys2Proof.Machine.execGcol k e s
  | .intr k => Sys2Proof.Machine.execIntr k s
  | .ccRun who k run => Sys2Proof.Machine.execCcRun who k run s
  | .ccReset who k => Sys2Proof.Machine.execCcReset who k s
  | .haltReq who k v => Sys2Proof.Machine.execHaltReq who k v s
  | .step who k => Sys2Proof.Machine.execStep who k s
  | .create who n => Sys2Proof.Machine.execCreate who n s
  | .wake who n => Sys2Proof.Machine.execWake who n s
  | .kill who n => Sys2Proof.Machine.execKill who n s
  | .yield who c => Sys2Proof.Machine.execYield who c s
  | .block who c => Sys2Proof.Machine.execBlock who c s
  | .exit who c => Sys2Proof.Machine.execExit who c s
  | .schedClaim who tr c => Sys2Proof.Machine.execSchedClaim who tr c s
  | .slotWake n => Sys2Proof.Machine.execSlotWake n s
  | .raise who n => Sys2Proof.Machine.execRaise who n s
  | .doorbell who v => Sys2Proof.Machine.execDoorbell who v s
  | .timer k => Sys2Proof.Machine.execTimer k s
  | .lockAcquire who tr k => Sys2Proof.Machine.execLockAcquire who tr k s
  | .lockRelease who k => Sys2Proof.Machine.execLockRelease who k s
  | .lockForce who k => Sys2Proof.Machine.execLockForce who k s
  | .svRun who => Sys2Proof.Machine.execSvRun who s
  | .svReset who => Sys2Proof.Machine.execSvReset who s
  | .cmpTest who ok => Sys2Proof.Machine.execCmpTest who ok s
  | .lockstepMiscompare group a b wire => Sys2Proof.Machine.execLockstepMiscompare group a b wire s
  | .svDebugAction who a => Sys2Proof.Machine.execSvDebugAction who a s
  | .kick who => Sys2Proof.Machine.execKick who s
  | .watchdogExpiry => Sys2Proof.Machine.execWatchdogExpiry s
  | .svTimer => Sys2Proof.Machine.execSvTimer s
  | .svIntr => Sys2Proof.Machine.execSvIntr s
  | .svMbxInWrite who v => Sys2Proof.Machine.execSvMbxInWrite who v s
  | .svMbxInRead who tr => Sys2Proof.Machine.execSvMbxInRead who tr s
  | .svMbxOutWrite who v => Sys2Proof.Machine.execSvMbxOutWrite who v s
  | .svMbxOutRead who tr => Sys2Proof.Machine.execSvMbxOutRead who tr s
  | .faultEvent => Sys2Proof.Machine.execFaultEvent s
  | .fatalRecordWrite => Sys2Proof.Machine.execFatalRecordWrite s
  | .wireFault kind l wrong => Sys2Proof.Machine.execWireFault kind l wrong s
  | .ack who k => Sys2Proof.Machine.execAck who k s
  | .pop who => Sys2Proof.Machine.execPop who s
  | .arm who pair mask cycles => Sys2Proof.Machine.execArm who pair mask cycles s
  | .recordClear who => Sys2Proof.Machine.execRecordClear who s
  | .coldReset b => Sys2Proof.Machine.execColdReset b s
  | .bootTimeout => Sys2Proof.Machine.execBootTimeout s
  | .updBegin fail => Sys2Proof.Machine.execUpdBegin fail s
  | .updChunk fail => Sys2Proof.Machine.execUpdChunk fail s
  | .updVerify => Sys2Proof.Machine.execUpdVerify s
  | .updActivate ok => Sys2Proof.Machine.execUpdActivate ok s
  | .updConfirm ok whole => Sys2Proof.Machine.execUpdConfirm ok whole s
  | .updAbort => Sys2Proof.Machine.execUpdAbort s
  | .bankOffline => Sys2Proof.Machine.execBankOffline s
  | .loadSection => Sys2Proof.Machine.execLoadSection s
  | .run fail => Sys2Proof.Machine.execRun fail s
  | .clusterOffline => Sys2Proof.Machine.execClusterOffline s
  | .clusterRelease good => Sys2Proof.Machine.execClusterRelease good s
  | .sensorRead => Sys2Proof.Machine.execSensorRead s
  | .pmbusPoll answers => Sys2Proof.Machine.execPmbusPoll answers s
  | .pmbAlert answers => Sys2Proof.Machine.execPmbAlert answers s
  | .writeWord addr code ptr pec => Sys2Proof.Machine.execWriteWord addr code ptr pec s
  | .blockRead addr code => Sys2Proof.Machine.execBlockRead addr code s
  | .logPageWrite fail => Sys2Proof.Machine.execLogPageWrite fail s
  | .wearMinute => Sys2Proof.Machine.execWearMinute s
  | .powerOff => Sys2Proof.Machine.execPowerOff s
  | .railFault m => Sys2Proof.Machine.execRailFault m s
  | .sensorConversion n r => Sys2Proof.Machine.execSensorConversion n r s
  | .throttleRelease f => Sys2Proof.Machine.execThrottleRelease f s
  | .shedStep f => Sys2Proof.Machine.execShedStep f s
  | .powerEstimate watts => Sys2Proof.Machine.execPowerEstimate watts s
  | .clockRampStep f => Sys2Proof.Machine.execClockRampStep f s
  | .vfSetWrite who v => Sys2Proof.Machine.execVfSetWrite who v s
  | .bar0Read off size malformed err => Sys2Proof.Machine.execBar0Read off size malformed err s
  | .bar0Write off size v malformed poisoned err => Sys2Proof.Machine.execBar0Write off size v malformed poisoned err s
  | .bar2Read off len bad => Sys2Proof.Machine.execBar2Read off len bad s
  | .bar2Write off => Sys2Proof.Machine.execBar2Write off s
  | .configRequest q => Sys2Proof.Machine.execConfigRequest q s
  | .msixSend n => Sys2Proof.Machine.execMsixSend n s
  | .endpointReset r => Sys2Proof.Machine.execEndpointReset r s
  | .captureRecord k errs => Sys2Proof.Machine.execCaptureRecord k errs s
  | .captureShortClose k => Sys2Proof.Machine.execCaptureShortClose k s
  | .capRp who k v => Sys2Proof.Machine.execCapRp who k v s
  | .capEnable who k => Sys2Proof.Machine.execCapEnable who k s
  | .enum number era t intact => Sys2Proof.Machine.execEnum number era t intact s
  | .done len intact => Sys2Proof.Machine.execDone len intact s
  | .fatal up pkg intact => Sys2Proof.Machine.execFatal up pkg intact s
  | .credit up content intact => Sys2Proof.Machine.execCredit up content intact s
  | .align up good => Sys2Proof.Machine.execAlign up good s
  | .chainDown up => Sys2Proof.Machine.execChainDown up s
  | .mirrorFlip => Sys2Proof.Machine.execMirrorFlip s
  | .mirrorRead a oe => Sys2Proof.Machine.execMirrorRead a oe s
  | .auxSwitch k => Sys2Proof.Machine.execAuxSwitch k s
  | .evin k level early => Sys2Proof.Machine.execEvin k level early s
  | .jtagInstruction code nreset => Sys2Proof.Machine.execJtagInstruction code nreset s
  | .debug v err => Sys2Proof.Machine.execDebug v err s
  | .hwmClear c => Sys2Proof.Machine.execHwmClear c s
  | .lateClear c => Sys2Proof.Machine.execLateClear c s
  | .lwmClear r p q => Sys2Proof.Machine.execLwmClear r p q s
  | .maxClear who n => Sys2Proof.Machine.execMaxClear who n s
  | .registerWrite who half a v => Sys2Proof.Machine.execRegisterWrite who half a v s
  | .referenceReturn chain => Sys2Proof.Machine.execReferenceReturn chain s
  | .laneEnable who k en => Sys2Proof.Machine.execLaneEnable who k en s
  | .blockLock up lanes => Sys2Proof.Machine.execBlockLock up lanes s
  | .linkStateChange link speed width expected => Sys2Proof.Machine.execLinkStateChange link speed width expected s
  | .coordCfg who n v => Sys2Proof.Machine.execCoordCfg who n v s
  | .letData who tr v => Sys2Proof.Machine.execLetData who tr v s
  | .rscData who tr v => Sys2Proof.Machine.execRscData who tr v s
  | .capDisable who k => Sys2Proof.Machine.execCapDisable who k s
  | .alertResponseAddress => Sys2Proof.Machine.execAlertResponseAddress s

end Sys2Proof.Machine
end

