-- ==== Sys2Proof/Machine/Step.lean ====
section
/-!
DEFINITION. Sys2Proof/Machine/Step.lean: one step of the package: the command at the front of the queue runs.
-/
namespace Sys2Proof.Machine
open Sys2Proof

/-- One step: the front command runs with the queue's rest; on an empty queue the package idles (DESIGN CHOICE, log 1;
DESIGN CHOICE, log 2; DESIGN CHOICE, log 143). -/
def step (s : State) : Host.Outcome State Fault Refusal :=
  match s.pending with
  | [] => .next s
  | c :: rest => exec c { s with pending := rest }

/-- The state with the command that a word spells at the front of its queue. -/
def State.withFetchWord (s : State) (nbits w : Nat) : State :=
  match decodeTableWord nbits w with
  | some c => { s with pending := c :: s.pending }
  | none => s

end Sys2Proof.Machine
end

