-- ==== Sys2Proof/Safety.lean ====
section
/-!
DEFINITION. Sys2Proof/Safety.lean: the terms in which statements speak: what a command answers, what it leaves, and what holds in every sound
state.
-/
namespace Sys2Proof.Machine
open Sys2Proof

/-- The command completes from a state: it answers a next state, and that state meets `p`. -/
def Completes (c : Instr) (s : State) (p : State → Prop) : Prop := ∃ t, exec c s = .next t ∧ p t

/-- Every register field but those named has the same value in two states. -/
def RegsBut (l : List Fld) (s t : State) : Prop := ∀ f i, (∀ g ∈ l, g.id ≠ f.id) → t.get f i = s.get f i

/-- Every instance but `i` of a register field has the same value in two states. -/
def InstBut (f : Fld) (i : Nat) (s t : State) : Prop := ∀ j, j ≠ i → t.get f j = s.get f j

/-- Two states differ in no part but the register fields, and there only in those named. -/
def OnlyRegs (l : List Fld) (s t : State) : Prop := t = { s with regs := t.regs } ∧ RegsBut l s t

/-- The firing that the head instance of a PE begins, and the state at the start of its routine; none where the PE cannot fire, where the
head is of another class, or where the firing has ended before its routine (R67, R117, R160). -/
def fired (s : State) (c pe : Nat) (cls : OpClass) (err : FireErr) : Option (Firing × State) :=
  if !canFire s c pe err.pass then none
  else
    match s.headSlot c pe with
    | none => none
    | some x =>
      let w := s.instr c (tagInstr x.tag)
      if opClass (iOpc w) ≠ cls then none
      else
        match beginFire x w err s with
        | (none, _) => none
        | (some f, u) => some (f, u)

/-- A direct presentation is the one that its bank serves next, and nothing refuses or alters it: no other presentation to the bank, no lock
and no older operation on its word, no failed check of R301, no error mark and no armed injection. -/
def directClean (s : State) (b : Nat) (r : BReq) : Bool :=
  bestDirect s b = some r && r.pe.isSome
    && ((mget [] s.bank.direct (b / 16)).filter fun x => addrBank x.addr = b % 16 && x ≠ r).isEmpty
    && !s.locked b (addrWord r.addr) && !((mget [] s.bank.queue b).any fun x => x.touches (addrWord r.addr))
    && !r.bad && !r.sys && (bankCheck s b r.op r.addr false r.part (retInit s r.ret) r.pre r.half).isNone
    && mget 0 s.bank.bad (wordKey b (addrWord r.addr)) = 0 && !s.flag F.injCtl_ARM 0

/-- A core stands at a fetchable word `w`, with no interrupt or posted error first and no armed injection (R315, R333). The two lengths hold
in every state that keeps the shape of the cores. -/
def nextWord (s : State) (k w : Nat) : Bool :=
  coreReady s k && fetchable s k (s.core k).pc && (s.core k).pc.toNat % 4 = 0 && s.readN ((s.core k).pc.toNat % 2 ^ 44) 4 = w
    && !s.flag F.injCtl_ARM 0 && s.cc.cores.length = 9 && (s.core k).w.length = 32

/-- The next instruction of a core is `w`, of row `r`, and no trap comes before its own effect (R333). -/
def nextIs (s : State) (k : Nat) (r : KRow) (w : Nat) : Bool :=
  nextWord s k w && kRow w = some r && (earlyTrap (s.core k) r w).isNone && ((access (s.core k) r w).bind (accessTrap s k r)).isNone

/-- Only core `k` moves: it stands as `c` at a retirement boundary, the address of the instruction is its last, every other core is as
before, and of the rest only the core's own WAITING and debug halt can change, and, where the instruction squashes what stands behind it in the
pipeline, the GCOLs that the core has in flight. -/
def CoreMoves (k : Nat) (c : Core) (squashes : Bool) (s t : State) : Prop :=
  t.core k = { c with wait := none, waitReg := none, ginjAt := none, idle := false, step := false } ∧ (∀ j, j ≠ k → t.core j = s.core j) ∧
  (if k < 8 then t.get F.ccPc_PC k = (s.core k).pc.toNat else t.get F.svPc_PC 0 = (s.core k).pc.toNat) ∧
  t = { s with regs := t.regs, cc := t.cc, sched := if squashes then s.sched.squash k else s.sched } ∧
  RegsBut [F.ccPc_PC, F.svPc_PC, F.ccStat_WAITING, F.ccStat_DBG_HALTED, F.svStat_STATE] s t

/-- A tag is waiting work of partition `p` in a cluster it owns, from the epoch before the one in force; a QUARANTINED cluster keeps what it
holds (R120, R195). -/
def OldWork (s : State) (p c : Nat) (tag : W) : Prop :=
  c < 128 ∧ s.cOwner c = p ∧ s.cState c ≠ 4 ∧ tagPart tag = p ∧ tagEpoch tag = 1 - s.epoch p

/-- Core `k`, which stood as `c`, has entered the trap `code` (R332): the saved registers, STATUS, the vector, the count and LAST_CAUSE; no
byte of memory changes. -/
def TrapEntered (k : Nat) (c : Core) (code : Nat) (epc eaddr : W) (arg : Nat) (imprecise : Bool) (s t : State) : Prop :=
  t.core k = { c with
    epc := epc &&& ~~~(3 : W), eaddr := eaddr, ecause := w48 (code + b2n imprecise * 16 + arg % 1024 * 256), estatus := c.status,
    status := (c.status ||| 0x280000) &&& ~~~(0x100000 : W), resv := none, pc := c.tvec + BitVec.ofNat 48 (0x40 * code),
    wait := none, waitReg := none, ginjAt := none, idle := false, step := false } ∧
  (∀ j, j ≠ k → t.core j = s.core j) ∧
  (k < 8 → t.get F.ccStat_TRAPS k = (s.get F.ccStat_TRAPS k + 1) % 2 ^ F.ccStat_TRAPS.w ∧ t.get F.ccStat_LAST_CAUSE k = code % 16) ∧
  (k = 8 → t.get F.svStat_TRAPS 0 = (s.get F.svStat_TRAPS 0 + 1) % 2 ^ F.svStat_TRAPS.w ∧ t.get F.svStat_LAST_CAUSE 0 = code % 16) ∧
  t.mem = s.mem ∧ t.pending = s.pending ∧ t.t = s.t

/-- Every byte of memory reads alike in two states. -/
def MemSame (s t : State) : Prop := ∀ a, t.readByte a = s.readByte a

/-- The memory stands in its one canonical form. -/
def MemSound (s : State) : Prop := Memory.wf s.mem = true

/-- The fixed sizes of the state: nine cores of 32 registers and 16 return-stack entries, five coordinates and four encoders. -/
def Shape (s : State) : Prop :=
  s.cc.cores.length = 9 ∧ (∀ c ∈ s.cc.cores, c.w.length = 32 ∧ c.rs.length = 16) ∧ s.lens.coords.length = 5 ∧ s.lens.enc.length = 4

/-- The commands of the parts that R389 keeps running after the fatal decision: time and its references, input lanes and forced output
frames, sensors and rail monitors, the fault collector, the endpoint, the SMBus target, the links and pins; and the loss of main power. -/
def outlivesFatal : Instr → Bool
  | .tAdvance _ _ | .ppsEdge _ _ | .ppsTimeout | .refLoss | .time _ _ _ _ _ | .techo _ _ _ _ _ | .chainTimeLoss |
    .countEdge _ _ _ _ _ | .zEdge _ _ | .coordinateStall _ | .mainsEdge _ _ _ | .mainsHoldover | .laneComma _ _ _ | .laneAlign _ _ _ |
    .frame _ _ | .laneSofTimeout _ _ | .laneGraceExpiry _ | .fifoIdleFlush _ | .outputFrame _ | .forceRelease _ |
    .lockstepMiscompare _ _ _ _ | .faultEvent | .fatalRecordWrite | .wireFault _ _ _ | .writeWord _ _ _ _ | .blockRead _ _ |
    .powerOff | .bar0Read _ _ _ _ | .bar0Write _ _ _ _ _ _ | .bar2Read _ _ _ | .bar2Write _ | .configRequest _ | .endpointReset _ |
    .fatal _ _ _ | .align _ _ | .chainDown _ | .mirrorRead _ _ | .evin _ _ _ | .jtagInstruction _ _ | .referenceReturn _ |
    .linkStateChange _ _ _ _ | .alertResponseAddress | .sensorConversion _ _ | .railFault _ => true
  | _ => false

end Sys2Proof.Machine
end

