-- ==== Sys2Proof/Certificates/Slice0/Obligations.lean ====
section
/-!
DEFINITION. Sys2Proof/Certificates/Slice0/Obligations.lean: the statements for the provers.
-/
open Sys2Proof Sys2Proof.Machine

/-- Loss and return of the time base and of PPS move LENS_STAT as R204, R207 and R209 say. -/
def Obligations.ReferenceLossAndReturn : Prop :=
  (∀  (s : State),
      s.flag F.lensStat_PPS_PRESENT 0 = true →
      s.lens.ppsLast + 500000000 ≤ s.ticks →
      exec (.ppsTimeout) s = .next (({ s with lens := { s.lens with ppsGood := 0 } }.set F.lensStat_PPS_PRESENT 0 0).set F.lensStat_PPS_ALIGNED 0 0)) ∧
  (∀  (s : State),
      (s.get F.lensStat_TB_STATE 0 = 1 ∨ s.get F.lensStat_TB_STATE 0 = 2) →
      Completes (.refLoss) s fun t => t.get F.lensStat_REF_PRESENT 0 = 0 ∧ t.get F.lensStat_TB_STATE 0 = 3 ∧ t.get F.lensStat_HOLD_EVT 0 = 1 ∧ t.get F.chainTm_LOCK 0 = 0 ∧ t.get F.evCfg_COUNT 249 = (s.get F.evCfg_COUNT 249 + 1) % 2 ^ 16 ∧ t = { s with regs := t.regs, pcie := t.pcie } ∧ RegsBut [F.lensStat_REF_PRESENT, F.lensStat_TB_STATE, F.lensStat_HOLD_EVT, F.chainTm_LOCK, F.evCfg_COUNT, F.evCfg_PEND] s t) ∧
  (∀  (s : State),
      s.get F.lensStat_TB_STATE 0 ≠ 1 →
      s.get F.lensStat_TB_STATE 0 ≠ 2 →
      exec (.refLoss) s = .next (s.set F.lensStat_REF_PRESENT 0 0)) ∧
  (∀  (s : State),
      s.lens.src = 1 →
      s.get F.lensStat_TB_STATE 0 = 3 →
      exec (.referenceReturn false) s = .next ({ s.set F.lensStat_REF_PRESENT 0 1 with lens := { s.lens with goodTicks := 0 } }.set F.lensStat_TB_STATE 0 1)) ∧
  (∀  (s : State),
      s.lens.src = 2 →
      s.get F.lensStat_TB_STATE 0 = 3 →
      s.ticks < s.lens.chainLast + 65536 →
      exec (.referenceReturn true) s = .next ({ s with lens := { s.lens with chainGood := 0 } }.set F.lensStat_TB_STATE 0 4)) ∧
  (∀  (s : State),
      (s.get F.lensStat_TB_STATE 0 = 4 ∨ s.get F.lensStat_TB_STATE 0 = 5) →
      s.lens.chainLast + 65536 ≤ s.ticks →
      Completes (.chainTimeLoss) s fun t => t.get F.lensStat_TB_STATE 0 = 3 ∧ t.get F.lensStat_HOLD_EVT 0 = 1 ∧ t.get F.chainTm_LOCK 0 = 0 ∧ t.lens.chainGood = 0 ∧ t.get F.evCfg_COUNT 249 = (s.get F.evCfg_COUNT 249 + 1) % 2 ^ 16 ∧ t = { s with regs := t.regs, pcie := t.pcie, lens := t.lens, flt := t.flt } ∧ RegsBut [F.lensStat_TB_STATE, F.lensStat_HOLD_EVT, F.chainTm_LOCK, F.evCfg_COUNT, F.evCfg_PEND] s t)

/-- A count edge moves the count of the coordinate that it feeds by one, and a Z edge references the count or tests it (R210–R212). -/
def Obligations.CountEdgeMovesTheCount : Prop :=
  (∀ (e n : Fin 4) (stamp : BitVec 52) (a b : Bool) (width : Nat) (s : State),
      s.get F.coordCfg_SRC n = e.val + 1 →
      (∀ m : Fin 4, m ≠ n → s.get F.coordCfg_SRC m ≠ e.val + 1) →
      s.get F.coordCfg_LINES n ≠ 0 →
      s.get F.coordCfg_FILT n ≤ width →
      n.val < s.lens.coords.length →
      ((a ≠ (s.coord n).la ∧ b = (s.coord n).lb) ∨ (a = (s.coord n).la ∧ b ≠ (s.coord n).lb)) →
      ((s.coord n).lastZ.all (fun u => decide (u.stamp ≠ stamp)) = true) →
      ((s.coord n).lastAb.all (fun u => decide (u.stamp ≠ stamp)) = true) →
      Completes (.countEdge ⟨e.val, by omega⟩ stamp a b width) s fun t => (let fwd : Bool := if a ≠ (s.coord n).la then a != b else a == b;
      let back : Bool := fwd == s.flag F.coordCfg_INV n;
      (t.coord n).k = (s.coord n).k + (if back then -1 else 1) ∧ (t.coord n).la = a ∧ (t.coord n).lb = b ∧
      ((t.coord n).hist.head?.map fun x => (x.stamp, x.b, x.back)) = some (stamp, max (t.coord n).k (s.coord n).k, back) ∧ (t.coord n).hist.drop 1 = (s.coord n).hist.take 259 ∧
      t.get F.coordStat_STOP n = 0 ∧ t.get F.coordStat_DIR n = b2n back ∧ t = { s with regs := t.regs, pcie := t.pcie, free := t.free, lens := { s.lens with coords := t.lens.coords, enc := t.lens.enc } }) ∧ RegsBut (coordFlds ++ [F.evCfg_COUNT, F.evCfg_PEND]) s t ∧ (∀ j, j ≠ n.val → t.coord j = s.coord j)) ∧
  (∀ (e n : Fin 4) (stamp : BitVec 52) (a b : Bool) (width : Nat) (s : State),
      s.get F.coordCfg_SRC n = e.val + 1 →
      (∀ m : Fin 4, m ≠ n → s.get F.coordCfg_SRC m ≠ e.val + 1) →
      s.get F.coordCfg_LINES n ≠ 0 →
      s.get F.coordCfg_FILT n ≤ width →
      n.val < s.lens.coords.length →
      a ≠ (s.coord n).la →
      b ≠ (s.coord n).lb →
      ((s.coord n).lastZ.all (fun u => decide (u.stamp ≠ stamp)) = true) →
      Completes (.countEdge ⟨e.val, by omega⟩ stamp a b width) s fun t => t.coord n = { s.coord n with la := a, lb := b } ∧ t.get F.coordStat_QERR n = (s.get F.coordStat_QERR n + 1) % 2 ^ F.coordStat_QERR.w ∧ t.get F.coordStat_ERR_EVT n = 1 ∧ t = { s with regs := t.regs, pcie := t.pcie, free := t.free, lens := { s.lens with coords := t.lens.coords, enc := t.lens.enc } } ∧ RegsBut [F.coordStat_QERR, F.coordStat_ERR_EVT] s t ∧ (∀ j, j ≠ n.val → t.coord j = s.coord j)) ∧
  (∀ (e : Fin 2) (n : Fin 4) (stamp : BitVec 52) (a b : Bool) (width : Nat) (s : State),
      s.get F.coordCfg_SRC n = e.val + 5 →
      (∀ m : Fin 4, m ≠ n → s.get F.coordCfg_SRC m ≠ e.val + 5) →
      s.get F.coordCfg_LINES n ≠ 0 →
      s.get F.coordCfg_FILT n ≤ width →
      n.val < s.lens.coords.length →
      s.flag F.coordStat_REFD n = true →
      Completes (.countEdge ⟨e.val + 4, by omega⟩ stamp a b width) s fun t => (t.coord n).k = (s.coord n).k + (if s.flag F.coordCfg_INV n then -1 else 1) ∧ ((t.coord n).hist.head?.map fun x => (x.stamp, x.b, x.back)) = some (stamp, max (t.coord n).k (s.coord n).k, s.flag F.coordCfg_INV n) ∧
      t.get F.coordStat_STOP n = 0 ∧ t.get F.coordStat_DIR n = b2n (s.flag F.coordCfg_INV n) ∧ t = { s with regs := t.regs, pcie := t.pcie, free := t.free, lens := { s.lens with coords := t.lens.coords, enc := t.lens.enc } } ∧ RegsBut (coordFlds ++ [F.evCfg_COUNT, F.evCfg_PEND]) s t ∧ (∀ j, j ≠ n.val → t.coord j = s.coord j)) ∧
  (∀ (e : Fin 2) (n : Fin 4) (stamp : BitVec 52) (a b : Bool) (width : Nat) (s : State),
      s.get F.coordCfg_SRC n = e.val + 5 →
      (∀ m : Fin 4, m ≠ n → s.get F.coordCfg_SRC m ≠ e.val + 5) →
      s.get F.coordCfg_LINES n ≠ 0 →
      s.get F.coordCfg_FILT n ≤ width →
      n.val < s.lens.coords.length →
      s.flag F.coordStat_REFD n = false →
      Completes (.countEdge ⟨e.val + 4, by omega⟩ stamp a b width) s fun t => ((t.coord n).hist.head?.map fun x => (x.stamp, x.b, x.start)) = some (stamp, 0, true) ∧ (t.coord n).k = (if s.flag F.coordCfg_INV n then -1 else 0) ∧ (t.coord n).refJump = true ∧
      t.get F.coordStat_REFD n = 1 ∧ t.get F.coordStat_JUMP n = 1 ∧ t.get F.coordStat_STOP n = 0 ∧ t.get F.coordStat_DIR n = b2n (s.flag F.coordCfg_INV n) ∧ t = { s with regs := t.regs, pcie := t.pcie, free := t.free, lens := { s.lens with coords := t.lens.coords, enc := t.lens.enc } } ∧ RegsBut (coordFlds ++ [F.evCfg_COUNT, F.evCfg_PEND]) s t ∧ (∀ j, j ≠ n.val → t.coord j = s.coord j)) ∧
  (∀ (e n : Fin 4) (stamp : BitVec 52) (width : Nat) (s : State),
      s.get F.coordCfg_SRC n = e.val + 1 →
      (∀ m : Fin 4, m ≠ n → s.get F.coordCfg_SRC m ≠ e.val + 1) →
      s.get F.coordCfg_LINES n ≠ 0 →
      s.get F.coordCfg_FILT n ≤ width →
      n.val < s.lens.coords.length →
      (s.flag F.coordCfg_ZGATE n = true → (s.coord n).la = true ∧ (s.coord n).lb = true) →
      s.flag F.coordStat_REFD n = false →
      Completes (.zEdge e ⟨stamp, width⟩) s fun t => (let c : Int := countsPerRev s n; (t.coord n).k = (2 * (s.coord n).k + c) / (2 * c) * c ∧ (t.coord n).refJump = true ∧
      ((t.coord n).hist.map fun x => (x.stamp, x.b)) = ((s.coord n).hist.map fun x => (x.stamp, x.b + ((t.coord n).k - (s.coord n).k))) ∧
      t.get F.coordStat_REFD n = 1 ∧ t.get F.coordStat_JUMP n = 1 ∧ t = { s with regs := t.regs, lens := { s.lens with coords := t.lens.coords } }) ∧ RegsBut [F.coordStat_REFD, F.coordStat_JUMP] s t ∧ (∀ j, j ≠ n.val → t.coord j = s.coord j)) ∧
  (∀ (e n : Fin 4) (stamp : BitVec 52) (width : Nat) (s : State),
      s.get F.coordCfg_SRC n = e.val + 1 →
      (∀ m : Fin 4, m ≠ n → s.get F.coordCfg_SRC m ≠ e.val + 1) →
      s.get F.coordCfg_LINES n ≠ 0 →
      s.get F.coordCfg_FILT n ≤ width →
      n.val < s.lens.coords.length →
      (s.flag F.coordCfg_ZGATE n = true → (s.coord n).la = true ∧ (s.coord n).lb = true) →
      s.flag F.coordStat_REFD n = true →
      Completes (.zEdge e ⟨stamp, width⟩) s fun t => (let off : Nat := if (s.coord n).k % (countsPerRev s n : Int) = 0 then 0 else 1;
      t.get F.coordStat_IDXERR n = (s.get F.coordStat_IDXERR n % 2 ^ F.coordStat_IDXERR.w + off) % 2 ^ F.coordStat_IDXERR.w ∧ (t.flag F.coordStat_ERR_EVT n = (off = 1 || s.flag F.coordStat_ERR_EVT n)) ∧
      (t.coord n).k = (s.coord n).k ∧ (t.coord n).hist = (s.coord n).hist ∧ t = { s with regs := t.regs, lens := { s.lens with coords := t.lens.coords } }) ∧ RegsBut [F.coordStat_IDXERR, F.coordStat_ERR_EVT] s t ∧ (∀ j, j ≠ n.val → t.coord j = s.coord j)) ∧
  (∀ (e n : Fin 4) (stamp : BitVec 52) (width : Nat) (s : State),
      s.get F.coordCfg_SRC n = e.val + 1 →
      (∀ m : Fin 4, m ≠ n → s.get F.coordCfg_SRC m ≠ e.val + 1) →
      (width < s.get F.coordCfg_FILT n ∨ (s.flag F.coordCfg_ZGATE n = true ∧ ((s.coord n).la = false ∨ (s.coord n).lb = false))) →
      Completes (.zEdge e ⟨stamp, width⟩) s fun t => t = s.setCoord n { s.coord n with lastZ := (t.coord n).lastZ } ∧ (width < s.get F.coordCfg_FILT n → t = s))

/-- A coordinate without an edge for 2^(STALL + 14) ticks is stopped, holds its angle, and restarts with its next edge (R217). -/
def Obligations.CoordinateStopsWithoutEdges : Prop :=
  (∀ (n : Fin 4) (s : State),
      s.get F.coordCfg_LINES n ≠ 0 →
      s.get F.coordCfg_SRC n ≠ 0 →
      (s.coord n).hist ≠ [] →
      (s.coord n).lastTick + 2 ^ (s.get F.coordCfg_STALL n + 14) ≤ s.ticks →
      Completes (.coordinateStall n) s fun t => t = s.set F.coordStat_STOP n 1 ∧ (t.viewNow n).stop = true ∧ (∀ (e : Edge) (es : List Edge) (x : Rat), motion false (t.viewNow n) (e :: es) = ((e.ang : Rat), 0, 0) ∧ extrapolate (motion false (t.viewNow n) (e :: es)) x = e.ang)) ∧
  (∀ (e n : Fin 4) (stamp : BitVec 52) (a b : Bool) (width : Nat) (s : State),
      s.get F.coordCfg_SRC n = e.val + 1 →
      (∀ m : Fin 4, m ≠ n → s.get F.coordCfg_SRC m ≠ e.val + 1) →
      s.get F.coordCfg_LINES n ≠ 0 →
      s.get F.coordCfg_FILT n ≤ width →
      n.val < s.lens.coords.length →
      ((a ≠ (s.coord n).la ∧ b = (s.coord n).lb) ∨ (a = (s.coord n).la ∧ b ≠ (s.coord n).lb)) →
      ((s.coord n).lastZ.all (fun u => decide (u.stamp ≠ stamp)) = true) →
      ((s.coord n).lastAb.all (fun u => decide (u.stamp ≠ stamp)) = true) →
      s.flag F.coordStat_STOP n = true →
      Completes (.countEdge ⟨e.val, by omega⟩ stamp a b width) s fun t => t.get F.coordStat_STOP n = 0 ∧ (cutStart (t.coord n).hist).map (fun x => x.stamp) = [stamp]) ∧
  (∀ (e : Fin 2) (n : Fin 4) (stamp : BitVec 52) (a b : Bool) (width : Nat) (s : State),
      s.get F.coordCfg_SRC n = e.val + 5 →
      (∀ m : Fin 4, m ≠ n → s.get F.coordCfg_SRC m ≠ e.val + 5) →
      s.get F.coordCfg_LINES n ≠ 0 →
      s.get F.coordCfg_FILT n ≤ width →
      n.val < s.lens.coords.length →
      s.flag F.coordStat_STOP n = true →
      Completes (.countEdge ⟨e.val + 4, by omega⟩ stamp a b width) s fun t => t.get F.coordStat_STOP n = 0 ∧ (cutStart (t.coord n).hist).map (fun x => x.stamp) = [stamp])

/-- A mains edge begins the next cycle, is ignored as a glitch, or its absence enters holdover (R219, R220). -/
def Obligations.MainsEdgesAndHoldover : Prop :=
  (∀ (rising : Bool) (stamp : BitVec 52) (width : Nat) (s : State),
      s.flag F.mainsCfg_EN 0 = true →
      s.flag F.mainsCfg_POL 0 ≠ rising →
      s.get F.mainsCfg_FILT 0 ≤ width →
      4 < s.lens.coords.length →
      (s.coord 4).hist = [] →
      Completes (.mainsEdge rising stamp width) s fun t => (t.coord 4).k = 0 ∧ ((t.coord 4).hist.map fun x => (x.stamp, x.b)) = [(stamp, (0 : Int))] ∧ t = { s with lens := t.lens }) ∧
  (∀ (rising : Bool) (stamp : BitVec 52) (width : Nat) (x : Edge) (xs : List Edge) (s : State),
      s.flag F.mainsCfg_EN 0 = true →
      s.flag F.mainsCfg_POL 0 ≠ rising →
      s.get F.mainsCfg_FILT 0 ≤ width →
      (s.coord 4).hist = x :: xs →
      (if s.t = (s.coord 4).lastT + BitVec.ofNat 48 (s.ticks - (s.coord 4).lastTick) then sd52 stamp x.stamp else (16 * (s.ticks - (s.coord 4).lastTick : Nat) : Int)) < 3000000 * 16 →
      exec (.mainsEdge rising stamp width) s = .next (s.set F.mainsStat_GLITCH_EVT 0 1)) ∧
  (∀ (rising : Bool) (stamp : BitVec 52) (width : Nat) (x : Edge) (xs : List Edge) (s : State),
      s.flag F.mainsCfg_EN 0 = true →
      s.flag F.mainsCfg_POL 0 ≠ rising →
      s.get F.mainsCfg_FILT 0 ≤ width →
      4 < s.lens.coords.length →
      (s.coord 4).hist = x :: xs →
      3000000 * 16 ≤ (if s.t = (s.coord 4).lastT + BitVec.ofNat 48 (s.ticks - (s.coord 4).lastTick) then sd52 stamp x.stamp else (16 * (s.ticks - (s.coord 4).lastTick : Nat) : Int)) →
      s.flag F.mainsStat_HOLD 0 = false →
      Completes (.mainsEdge rising stamp width) s fun t => (t.coord 4).k = (s.coord 4).k + 1 ∧ ((t.coord 4).hist.head?.map fun y => (y.stamp, y.b, y.ang)) = some (stamp, (s.coord 4).k + 1, mainsAngle s ((s.coord 4).k + 1)) ∧ (t.coord 4).period = ((if s.t = (s.coord 4).lastT + BitVec.ofNat 48 (s.ticks - (s.coord 4).lastTick) then sd52 stamp x.stamp else (16 * (s.ticks - (s.coord 4).lastTick : Nat) : Int))).toNat ∧ (3 ≤ (s.coord 4).good → t.get F.mainsStat_LOCK 0 = 1) ∧ ((s.coord 4).good < 3 → t.get F.mainsStat_LOCK 0 = s.get F.mainsStat_LOCK 0) ∧ t = { s with regs := t.regs, lens := t.lens } ∧ RegsBut [F.mainsStat_PERIOD, F.mainsStat_LOCK] s t) ∧
  (∀ (rising : Bool) (stamp : BitVec 52) (width : Nat) (x : Edge) (xs : List Edge) (s : State),
      s.flag F.mainsCfg_EN 0 = true →
      s.flag F.mainsCfg_POL 0 ≠ rising →
      s.get F.mainsCfg_FILT 0 ≤ width →
      4 < s.lens.coords.length →
      (s.coord 4).hist = x :: xs →
      3000000 * 16 ≤ (if s.t = (s.coord 4).lastT + BitVec.ofNat 48 (s.ticks - (s.coord 4).lastTick) then sd52 stamp x.stamp else (16 * (s.ticks - (s.coord 4).lastTick : Nat) : Int)) →
      s.flag F.mainsStat_HOLD 0 = true →
      Completes (.mainsEdge rising stamp width) s fun t => (let n : Int := rneRat ((mainsAt (s.viewNow 4) stamp / 256 - s.get F.mainsCfg_PHASE_OFS 0) / 2 ^ 24); (t.coord 4).k = n ∧ ((t.coord 4).hist.head?.map fun y => (y.stamp, y.b, y.ang)) = some (stamp, n, mainsAngle s n) ∧ (t.coord 4).period = (s.coord 4).period ∧ t.get F.mainsStat_HOLD 0 = 0 ∧ t = { s with regs := t.regs, lens := t.lens }) ∧ RegsBut [F.mainsStat_HOLD] s t) ∧
  (∀  (s : State),
      s.flag F.mainsCfg_EN 0 = true →
      (s.coord 4).hist ≠ [] →
      s.flag F.mainsStat_HOLD 0 = false →
      (s.coord 4).lastTick + 7500000 ≤ s.ticks →
      Completes (.mainsHoldover) s fun t => t.get F.mainsStat_HOLD 0 = 1 ∧ t.get F.mainsStat_LOST_EVT 0 = 1 ∧ t.get F.mainsStat_LOCK 0 = 0 ∧ t.get F.evCfg_COUNT 258 = (s.get F.evCfg_COUNT 258 + 1) % 2 ^ 16 ∧ t = { s with regs := t.regs, lens := t.lens, pcie := t.pcie } ∧ RegsBut [F.mainsStat_HOLD, F.mainsStat_LOST_EVT, F.mainsStat_LOCK, F.evCfg_COUNT, F.evCfg_PEND] s t)

/-- A trigger whose coordinate crosses its target creates one token and disarms, or moves its target (R228, R229, R230). -/
def Obligations.TriggerFiresOnItsCrossing : Prop :=
  (∀ (i : Fin 256) (s : State),
      s.fatal = false →
      mfind s.lens.trigOld i = none →
      s.flag F.trigCfg_EN i = true →
      (s.coord (s.get F.trigCfg_COORD i)).jumped = false →
      mfind s.lens.trigAt i ≠ some s.ticks →
      crosses (s.flag F.trigCfg_DIR i) (s.coord (s.get F.trigCfg_COORD i)).prev (s.coord (s.get F.trigCfg_COORD i)).pub (w48 (s.get F.trigTarget_VALUE i)) = true →
      s.pRuns (s.get F.trigCfg_PART i) = true →
      (∀ r ∈ s.cl.reclaim, r.part ≠ s.get F.trigCfg_PART i) →
      s.lens.trigEn.contains i.val = false →
      s.flag F.trigCfg_PERIODIC i = false →
      Completes (.triggerCrossing i) s fun t => t.get F.trigCfg_EN i = 0 ∧ t.get F.trigCfg_FIRES i = (s.get F.trigCfg_FIRES i + 1) % 2 ^ F.trigCfg_FIRES.w ∧ mget 0 t.lens.fires i = mget 0 s.lens.fires i + 1 ∧ t.lens.made = s.lens.made ++ [(i.val, ⟨mkTag (s.get F.trigDst_PKG i) (s.get F.trigDst_DIE i) (s.get F.trigDst_CLUSTER i) (s.get F.trigDst_ADDR i) (s.get F.trigDst_PORT i) (s.get F.trigCfg_PART i) 0 (s.epoch (s.get F.trigCfg_PART i)),
        sourceDue s i (s.get F.trigCfg_PART i), (let x := s.get F.trigCfg_COORD i; match s.get F.trigCfg_DATA i with
          | 0 => s.t | 1 => s.t + BitVec.ofInt 48 (instantOf 8 x (s.coord x).view s.t (w48 (s.get F.trigTarget_VALUE i))) | 2 => (s.coord x).pub | _ => w48 (mget 0 s.lens.fires i + 1)), false⟩)] ∧ t.mem = s.mem ∧ t.pending = s.pending ∧ t.t = s.t) ∧
  (∀ (i : Fin 256) (s : State),
      s.fatal = false →
      mfind s.lens.trigOld i = none →
      s.flag F.trigCfg_EN i = true →
      (s.coord (s.get F.trigCfg_COORD i)).jumped = false →
      mfind s.lens.trigAt i ≠ some s.ticks →
      crosses (s.flag F.trigCfg_DIR i) (s.coord (s.get F.trigCfg_COORD i)).prev (s.coord (s.get F.trigCfg_COORD i)).pub (w48 (s.get F.trigTarget_VALUE i)) = true →
      s.pRuns (s.get F.trigCfg_PART i) = true →
      (∀ r ∈ s.cl.reclaim, r.part ≠ s.get F.trigCfg_PART i) →
      s.lens.trigTgt.contains i.val = false →
      s.flag F.trigCfg_PERIODIC i = true →
      Completes (.triggerCrossing i) s fun t => t.get F.trigCfg_EN i = s.get F.trigCfg_EN i ∧ t.get F.trigCfg_FIRES i = (s.get F.trigCfg_FIRES i + 1) % 2 ^ F.trigCfg_FIRES.w ∧ t.lens.made = s.lens.made ++ [(i.val, ⟨mkTag (s.get F.trigDst_PKG i) (s.get F.trigDst_DIE i) (s.get F.trigDst_CLUSTER i) (s.get F.trigDst_ADDR i) (s.get F.trigDst_PORT i) (s.get F.trigCfg_PART i) 0 (s.epoch (s.get F.trigCfg_PART i)),
        sourceDue s i (s.get F.trigCfg_PART i), (let x := s.get F.trigCfg_COORD i; match s.get F.trigCfg_DATA i with
          | 0 => s.t | 1 => s.t + BitVec.ofInt 48 (instantOf 8 x (s.coord x).view s.t (w48 (s.get F.trigTarget_VALUE i))) | 2 => (s.coord x).pub | _ => w48 (mget 0 s.lens.fires i + 1)), false⟩)] ∧
      t.get F.trigTarget_VALUE i = (moveTarget (s.flag F.trigCfg_DIR i) (w48 (s.get F.trigTarget_VALUE i)) (stepsPast (s.flag F.trigCfg_DIR i)
        (s.coord (s.get F.trigCfg_COORD i)).pub (w48 (s.get F.trigTarget_VALUE i)) (s.get F.trigStep_VALUE i)) (s.get F.trigStep_VALUE i)).toNat ∧ t.mem = s.mem ∧ t.pending = s.pending)

/-- A grid point waits at every channel of its group, becomes a resampled token or is skipped, and a Lens query is answered (R221–R224, R233, R235). -/
def Obligations.ResamplerAndQueries : Prop :=
  (∀ (g : Fin 8) (m : Nat) (s : State),
      s.fatal = false →
      mfind s.lens.rsNext g = some m →
      (s.coord (s.get F.rsCfg_A_COORD g)).jumped = false →
      crosses false (s.coord (s.get F.rsCfg_A_COORD g)).prev (s.coord (s.get F.rsCfg_A_COORD g)).pub (w48 (s.get F.rsStart_VALUE g) + BitVec.ofNat 48 (m * s.get F.rsStep_VALUE g)) = true →
      Completes (.gridPoint g) s fun t => t = { s with lens := { s.lens with rsNext := mput s.lens.rsNext g (m + 1) }, sc := { s.sc with grid := t.sc.grid } } ∧ (∀ ch : Fin 256, mget [] t.sc.grid ch = mget [] s.sc.grid ch ++ (if servedBy s ch = some g.val then [⟨g, m, stampOf s.t + BitVec.ofInt 52 (instantOf (1 / 2) (s.get F.rsCfg_A_COORD g) (s.coord (s.get F.rsCfg_A_COORD g)).view s.t (w48 (s.get F.rsStart_VALUE g) + BitVec.ofNat 48 (m * s.get F.rsStep_VALUE g)))⟩] else []))) ∧
  (∀ (g : Fin 8) (m : Nat) (s : State),
      mfind s.lens.rsNext g = some m →
      ((s.coord (s.get F.rsCfg_A_COORD g)).jumped = true ∨ crosses false (s.coord (s.get F.rsCfg_A_COORD g)).prev (s.coord (s.get F.rsCfg_A_COORD g)).pub (w48 (s.get F.rsStart_VALUE g) + BitVec.ofNat 48 (m * s.get F.rsStep_VALUE g)) = false) →
      exec (.gridPoint g) s = .next (s)) ∧
  (∀ (ch : Fin 256) (q : GridPt) (rs : List GridPt) (n p : Nat) (s : State),
      s.fatal = false →
      mget [] s.sc.grid ch = q :: rs →
      gridPhase q.t (mget [] s.sc.hist ch) = some (n, p) →
      ((mget [] s.sc.hist ch).any fun x => x.n = n + 16 && x.tick < s.ticks) = true →
      (mget (0, 0) s.sc.outs ch).1 ≠ n + 1 →
      ((mget [] s.sc.hist ch).filter fun x => decide (x.n ≤ n + 16 ∧ n < x.n + 16)).length = 32 →
      (((mget [] s.sc.hist ch).filter fun x => decide (x.n ≤ n + 16 ∧ n < x.n + 16)).any (·.s.poison)) = false →
      s.flagB F.chCfg_EN ch = true →
      s.get F.chCfg_LAYOUT ch ≠ 2 →
      srcRuns s (s.get F.chCfg_PART ch) = true →
      pausedP s (s.get F.chCfg_PART ch) = false →
      Completes (.resamplerToken ch) s fun t => mget [] t.sc.grid ch = rs ∧ mget (0, 0) t.sc.outs ch = (n + 1, 1) ∧
      t.lens.made = s.lens.made ++ [(256 + ch.val, ⟨mkTag (s.get F.chDst_PKG ch) (s.get F.chDst_DIE ch) (s.get F.chDst_CLUSTER ch) (s.get F.chDst_ADDR ch) (s.get F.chDst_PORT ch) (s.get F.chCfg_PART ch) 0 (s.epoch (s.get F.chCfg_PART ch)),
        sourceDue s (256 + ch) (s.get F.chCfg_PART ch), layoutData (s.get F.chCfg_LAYOUT ch) (polyphase s p ((mget [] s.sc.hist ch).filter fun x => decide (x.n ≤ n + 16 ∧ n < x.n + 16))) 0 0 q.t, false⟩)] ∧ t.mem = s.mem ∧ t.pending = s.pending ∧ t.t = s.t ∧ t.net = s.net) ∧
  (∀ (ch : Fin 256) (q : GridPt) (rs : List GridPt) (n p : Nat) (s : State),
      s.fatal = false →
      mget [] s.sc.grid ch = q :: rs →
      gridPhase q.t (mget [] s.sc.hist ch) = some (n, p) →
      ((mget [] s.sc.hist ch).any fun x => x.n = n + 16 && x.tick < s.ticks) = true →
      (mget (0, 0) s.sc.outs ch).1 = n + 1 →
      2 ≤ (mget (0, 0) s.sc.outs ch).2 →
      Completes (.resamplerToken ch) s fun t => mget [] t.sc.grid ch = rs ∧ (s.sc.skipped.contains q = false → t.get F.rsCfg_SKIP_EVT q.g = 1 ∧ t.get F.rsCfg_SKIPS q.g = (s.get F.rsCfg_SKIPS q.g + 1) % 2 ^ F.rsCfg_SKIPS.w) ∧ (s.sc.skipped.contains q = true → t.regs = s.regs) ∧
      t.lens.made = s.lens.made ∧ t.sc.outs = s.sc.outs ∧ t = { s with regs := t.regs, sc := t.sc, sched := t.sched, pcie := t.pcie } ∧ RegsBut [F.rsCfg_SKIP_EVT, F.rsCfg_SKIPS, F.evCfg_COUNT, F.evCfg_PEND] s t) ∧
  (∀ (f : Flit) (fs : List Flit) (s : State),
      s.fatal = false →
      s.net.lensQ = f :: fs →
      badReq f = false →
      bits (reqRet f.pay) 11 4 < 8 →
      s.pkgOk (bits (reqRet f.pay) 15 4) = true →
      ((reqAddr f.pay).toNat % 8) ≤ 4 →
      coordOn s ((reqAddr f.pay).toNat % 8) = false →
      Completes (.lensQuery) s fun t => (let i := ((reqAddr f.pay).toNat % 8); let v := (s.coord i).view; let now := v.asOf s.t (i = 4);
      let w := boundWord true false (now.hold || s.get F.lensStat_TB_STATE 0 = 3) (!v.refd) false false now.stop false (dirAt v (usable v s.t) (rebuildT s.t (reqArg f.pay))) false (2 ^ 32 - 1);
      t.net.lensQ = fs ∧ ((t.net.flits ++ t.cl.injQ).any fun x => decide (x.ty = 2 ∧ x.node = nodeHub ∧ x.pay = rspPay (reqRet f.pay) 0 0 w)) = true ∧ t.mem = s.mem ∧ t.regs = s.regs ∧ t.lens = s.lens ∧ t.pending = s.pending ∧ t.t = s.t)) ∧
  (∀ (f : Flit) (fs : List Flit) (b : Int) (s : State),
      s.fatal = false →
      s.net.lensQ = f :: fs →
      badReq f = false →
      bits (reqRet f.pay) 11 4 < 8 →
      s.pkgOk (bits (reqRet f.pay) 15 4) = true →
      ((reqAddr f.pay).toNat % 8) ≤ 4 →
      coordOn s ((reqAddr f.pay).toNat % 8) = true →
      bits (reqAddr f.pay).toNat 3 1 = 0 →
      (angleAt s ((reqAddr f.pay).toNat % 8) (s.coord ((reqAddr f.pay).toNat % 8)).view (reqData f.pay) s.t).bound = some b →
      Completes (.lensQuery) s fun t => (let i := ((reqAddr f.pay).toNat % 8); let v := (s.coord i).view; let tf := rebuildT s.t (reqArg f.pay);
      let a := angleAt s i v (reqData f.pay) s.t;
      let now := v.asOf s.t (i = 4);
      let w := boundWord false a.beyond (now.hold || s.get F.lensStat_TB_STATE 0 = 3) (!v.refd) a.stale a.nocross now.stop a.rev (dirAt v (usable v s.t) tf) a.pred (sat32 b);
      t.net.lensQ = fs ∧ ((t.net.flits ++ t.cl.injQ).any fun x => decide (x.ty = 2 ∧ x.node = nodeHub ∧ x.pay = rspPay (reqRet f.pay) 0 a.value w)) = true ∧ t.mem = s.mem ∧ t.regs = s.regs ∧ t.lens = s.lens ∧ t.pending = s.pending ∧ t.t = s.t)) ∧
  (∀ (f : Flit) (fs : List Flit) (b : Int) (s : State),
      s.fatal = false →
      s.net.lensQ = f :: fs →
      badReq f = false →
      bits (reqRet f.pay) 11 4 < 8 →
      s.pkgOk (bits (reqRet f.pay) 15 4) = true →
      ((reqAddr f.pay).toNat % 8) ≤ 4 →
      coordOn s ((reqAddr f.pay).toNat % 8) = true →
      bits (reqAddr f.pay).toNat 3 1 = 1 →
      (timeAt s ((reqAddr f.pay).toNat % 8) (s.coord ((reqAddr f.pay).toNat % 8)).view (reqData f.pay) (rebuildT s.t (reqArg f.pay)) s.t).bound = some b →
      Completes (.lensQuery) s fun t => (let i := ((reqAddr f.pay).toNat % 8); let v := (s.coord i).view; let tf := rebuildT s.t (reqArg f.pay);
      let a := timeAt s i v (reqData f.pay) tf s.t;
      let now := v.asOf s.t (i = 4);
      let w := boundWord false a.beyond (now.hold || s.get F.lensStat_TB_STATE 0 = 3) (!v.refd) a.stale a.nocross now.stop a.rev (dirAt v (usable v s.t) tf) a.pred (sat32 b);
      t.net.lensQ = fs ∧ ((t.net.flits ++ t.cl.injQ).any fun x => decide (x.ty = 2 ∧ x.node = nodeHub ∧ x.pay = rspPay (reqRet f.pay) 0 a.value w)) = true ∧ t.mem = s.mem ∧ t.regs = s.regs ∧ t.lens = s.lens ∧ t.pending = s.pending ∧ t.t = s.t))

/-- T_ADVANCE steps T by one, carries its wrap into the era, and moves the count of ticks (R47, R205). -/
def Obligations.TickStepsTime : Prop :=
  (∀ (freqOk : Bool) (rails : RailIn) (s : State),
      s.lens.load = none →
      porAsserted rails s = false →
      Completes (.tAdvance freqOk rails) s fun t => t.t = s.t + 1 ∧ t.era = (if s.t = 0xFFFFFFFFFFFF then s.era + 1 else s.era) ∧ t.ticks = s.ticks + 1 ∧ t.pending = s.pending ∧ (∀ u : State, u.stamp64 = u.era.toNat * 2 ^ 48 + u.t.toNat)) ∧
  (∀ (freqOk : Bool) (rails : RailIn) (s : State),
      s.lens.load = none →
      porAsserted rails s = true →
      Completes (.tAdvance freqOk rails) s fun t => t.t = 0 ∧ t.era = (if s.t = 0xFFFFFFFFFFFF then s.era + 1 else s.era) ∧ t.ticks = s.ticks + 1 ∧ t.pending = s.pending) ∧
  -- the era is held in the VBAT domain: it survives a loss of main power
  (∀  (s : State),
      Completes (.powerOff) s fun t => t.era = s.era)

/-- T_LOAD waits for the next boundary or PPS edge, and an edge is stamped and measured (R206, R207). -/
def Obligations.TimeLoadAndPps : Prop :=
  (∀ (who : From) (v : W) (era : BitVec 16) (s : State),
      (fromHost who.1 = true ∨ fromCore who.1 = true) →
      s.fatal = false →
      s.chainLen = 0 →
      exec (.tLoad who v era) s = .next ({ s with lens := { s.lens with load := some (v, era, s.flag F.lensCtl_PPS_EN 0 && s.flag F.lensStat_PPS_PRESENT 0) } })) ∧
  (∀ (freqOk : Bool) (rails : RailIn) (v : W) (era : BitVec 16) (s : State),
      s.lens.load = some (v, era, false) →
      porAsserted rails s = false →
      Completes (.tAdvance freqOk rails) s fun t => t.t = v ∧ t.era = era ∧ t.ticks = s.ticks + 1 ∧ t.pending = s.pending) ∧
  (∀ (frac : Fin 16) (rising : Bool) (v : W) (era : BitVec 16) (s : State),
      s.flag F.lensCtl_PPS_POL 0 ≠ rising →
      s.lens.load = some (v, era, true) →
      Completes (.ppsEdge frac rising) s fun t => t.t = v ∧ t.era = era ∧ t.lens.load = none ∧ t.get F.lensStat_PPS_PRESENT 0 = 1 ∧ t.lens.ppsLast = s.ticks ∧ t.ticks = s.ticks ∧ t = { s with regs := t.regs, lens := t.lens, t := t.t, era := t.era } ∧ RegsBut [F.lensStat_PPS_PRESENT, F.lensStat_PPS_ALIGNED] s t) ∧
  (∀ (frac : Fin 16) (rising : Bool) (s : State),
      s.flag F.lensCtl_PPS_POL 0 ≠ rising →
      s.lens.load = none →
      s.flag F.lensCtl_PPS_EN 0 = true →
      Completes (.ppsEdge frac rising) s fun t => (let e := phaseError (((s.era.toNat * 2 ^ 48 + s.t.toNat) * 16 + frac.val + 2 ^ 68 - s.get F.ppsCfg_DELAY 0) % 2 ^ 68);
      t.lens.ppsDue = s.lens.ppsDue ++ [(s.ticks + 4, (BitVec.ofInt 32 e).toNat)] ∧
      t.get F.lensStat_PPS_PRESENT 0 = 1 ∧ (16 < e.natAbs → t.get F.lensStat_PPS_ALIGNED 0 = 0) ∧ (e.natAbs ≤ 2 → ppsHonoured s = true → 3 ≤ s.lens.ppsGood → t.get F.lensStat_PPS_ALIGNED 0 = 1) ∧ t.lens.ppsLast = s.ticks ∧
      t = { s with regs := t.regs, lens := { s.lens with ppsLast := s.ticks, ppsGood := t.lens.ppsGood, ppsDue := t.lens.ppsDue } }) ∧ RegsBut [F.lensStat_PPS_PRESENT, F.lensStat_PPS_ALIGNED] s t) ∧
  (∀ (freqOk : Bool) (rails : RailIn) (d v : Nat) (s : State),
      s.lens.ppsDue = [(d, v)] →
      d ≤ s.ticks + 1 →
      porAsserted rails s = false →
      Completes (.tAdvance freqOk rails) s fun t => t.get F.ppsMeas_ERROR 0 = v % 2 ^ F.ppsMeas_ERROR.w ∧ t.get F.ppsMeas_COUNT 0 = (s.get F.ppsMeas_COUNT 0 + 1) % 2 ^ F.ppsMeas_COUNT.w ∧ t.lens.ppsDue = [])

/-- A TIME word is echoed, sixteen good ones lock, and a TECHO gives the delay (R208, R209, R438). -/
def Obligations.ChainTimeWords : Prop :=
  (∀ (up : Bool) (word : W) (stamp : BitVec 52) (hold : BitVec 16) (b : CtlIn) (s : State),
      ctlGood 0x33 word b = true →
      cpUp s (sideOf up) = true →
      (up = false ∨ s.lens.src ≠ 2) →
      s.chain.wait = [] →
      laneFits s (segOut up) 0 false = true →
      Completes (.time up word stamp hold b) s fun t => t.chain.ctl = s.chain.ctl ++ [⟨segOut up, 0x36, w48 (hold.toNat * 2 ^ 32 + word.toNat % 2 ^ 32)⟩] ∧ t = { s with chain := { s.chain with ctl := t.chain.ctl, carried := t.chain.carried } }) ∧
  (∀ (up : Bool) (word : W) (stamp : BitVec 52) (hold : BitVec 16) (b : CtlIn) (s : State),
      ctlGood 0x33 word b = true →
      cpUp s (sideOf up) = true →
      (up = false ∨ s.lens.src ≠ 2) →
      Completes (.time up word stamp hold b) s fun t => (⟨segOut up, 0x36, w48 (hold.toNat * 2 ^ 32 + word.toNat % 2 ^ 32)⟩ ∈ t.chain.ctl ∨ ⟨segOut up, 0x36, [w48 (hold.toNat * 2 ^ 32 + word.toNat % 2 ^ 32)]⟩ ∈ t.chain.wait) ∧ t = { s with chain := t.chain, net := { s.net with gsent := t.net.gsent } }) ∧
  (∀ (word : W) (stamp : BitVec 52) (hold : BitVec 16) (b : CtlIn) (s : State),
      ctlGood 0x33 word b = true →
      cpUp s 0 = true →
      s.lens.src = 2 →
      s.get F.lensStat_TB_STATE 0 = 4 →
      15 ≤ s.lens.chainGood →
      (sd52 (stamp - BitVec.ofNat 52 (s.get F.chainTm_DELAY 0)) (stampOf word)).natAbs ≤ 2 →
      Completes (.time true word stamp hold b) s fun t => t.get F.lensStat_TB_STATE 0 = 5 ∧ t.get F.chainTm_LOCK 0 = 1 ∧ t.lens.chainGood = s.lens.chainGood + 1 ∧ t.lens.chainLast = s.ticks ∧ (⟨segOut true, 0x36, w48 (hold.toNat * 2 ^ 32 + word.toNat % 2 ^ 32)⟩ ∈ t.chain.ctl ∨ ⟨segOut true, 0x36, [w48 (hold.toNat * 2 ^ 32 + word.toNat % 2 ^ 32)]⟩ ∈ t.chain.wait) ∧ t = { s with regs := t.regs, lens := t.lens, chain := t.chain, free := t.free, net := { s.net with gsent := t.net.gsent } } ∧ RegsBut [F.lensStat_TB_STATE, F.chainTm_LOCK, F.chainTm_OFFSET] s t) ∧
  (∀ (sent received : BitVec 52) (hold : BitVec 16) (b : CtlIn) (s : State),
      ctlGood 0x36 (echoContent (sent.extractLsb' 4 48) hold.toNat) b = true →
      cpUp s 0 = true →
      exec (.techo true sent received hold b) s = .next ({ s with chain := { s.chain with measUp := true } }.set F.chainTm_DELAY 0 ((sd52 received sent - hold.toNat) / 2).toNat)) ∧
  (∀ (sent received : BitVec 52) (hold : BitVec 16) (b : CtlIn) (s : State),
      ctlGood 0x36 (echoContent (sent.extractLsb' 4 48) hold.toNat) b = true →
      cpUp s 1 = true →
      exec (.techo false sent received hold b) s = .next ({ s with chain := { s.chain with measDown := true } })) ∧
  (∀ (up : Bool) (word : W) (stamp : BitVec 52) (hold : BitVec 16) (b : CtlIn) (s : State),
      ctlGood 0x33 word b = false →
      cpUp s (sideOf up) = true →
      exec (.time up word stamp hold b) s = .next (raiseEvent 500 (s.inc F.cpStat_CTLERR (sideOf up)))) ∧
  (∀ (up : Bool) (sent received : BitVec 52) (hold : BitVec 16) (b : CtlIn) (s : State),
      ctlGood 0x36 (echoContent (sent.extractLsb' 4 48) hold.toNat) b = false →
      cpUp s (sideOf up) = true →
      exec (.techo up sent received hold b) s = .next (raiseEvent 500 (s.inc F.cpStat_CTLERR (sideOf up))))

/-- COORD_CFG restarts a coordinate, and LET_DATA and RSC_DATA reach their tables (R213, R218, R234). -/
def Obligations.LensRegisterCommands : Prop :=
  (∀ (who : From) (n : Fin 4) (v : BitVec 34) (s : State),
      (fromHost who.1 = true ∨ fromCore who.1 = true) →
      s.fatal = false →
      trigUses s n = false →
      groupUses s n = false →
      n.val < s.lens.coords.length →
      F.coordCfg_SRC.takes (bits v.toNat F.coordCfg_SRC.lo F.coordCfg_SRC.w) = true →
      bits v.toNat F.coordCfg_SRC.lo F.coordCfg_SRC.w ≠ s.get F.coordCfg_SRC n →
      Completes (.coordCfg who n v) s fun t => t.get F.coordCfg_SRC n = bits v.toNat F.coordCfg_SRC.lo F.coordCfg_SRC.w ∧ (t.coord n).k = 0 ∧ (t.coord n).hist = [] ∧ (t.coord n).jump = true ∧ t.get F.coordStat_REFD n = 0 ∧ t.get F.coordStat_STOP n = 0 ∧ t.get F.coordStat_DIR n = 0 ∧ t = { s with regs := t.regs, lens := t.lens }) ∧
  (∀ (who : From) (n : Fin 4) (v : BitVec 34) (s : State),
      (trigUses s n = true ∨ groupUses s n = true) →
      exec (.coordCfg who n v) s = .next (s)) ∧
  (∀ (who : From) (trans : Fin 128) (v : BitVec 24) (s : State),
      (fromHost who.1 = true ∨ fromCore who.1 = true) →
      s.fatal = false →
      (letOpen s (s.get F.letAddr_ENC 0) = true) →
      exec (.letData who trans (some v)) s = .next (letStep { s with lens := { s.lens with letTab := mset 0 s.lens.letTab (s.get F.letAddr_ENC 0 * 4096 + s.get F.letAddr_INDEX 0) v.toNat } })) ∧
  (∀ (who : From) (trans : Fin 128) (s : State),
      s.fatal = false →
      Completes (.letData who trans none) s fun t => ⟨who.1, trans, true, BitVec.ofNat 64 (mget 0 s.lens.letTab (s.get F.letAddr_ENC 0 * 4096 + s.get F.letAddr_INDEX 0) % 2 ^ 24), 0⟩ ∈ t.net.hubRsp ∧ t.regs = (letStep s).regs ∧ t = { s with regs := t.regs, net := t.net }) ∧
  (∀ (who : From) (trans : Fin 128) (v : BitVec 24) (s : State),
      (fromHost who.1 = true ∨ fromCore who.1 = true) →
      s.fatal = false →
      (∀ g : Fin 8, s.flag F.rsCfg_EN g = false) →
      exec (.rscData who trans (some v)) s = .next (rscStep { s with lens := { s.lens with rsc := mput s.lens.rsc (s.get F.rscAddr_INDEX 0) v.toNat } })) ∧
  (∀ (who : From) (trans : Fin 128) (s : State),
      s.fatal = false →
      Completes (.rscData who trans none) s fun t => ⟨who.1, trans, true, BitVec.ofNat 64 ((rscCoef s (s.get F.rscAddr_INDEX 0)).emod (2 ^ 24)).toNat, 0⟩ ∈ t.net.hubRsp ∧ t.regs = (rscStep s).regs ∧ t = { s with regs := t.regs, net := t.net })

/-- An input lane moves through BIT_LOCK, ALIGNED and DOWN as R244 says, and meets lane fault after its grace. -/
def Obligations.LaneStates : Prop :=
  (∀ (k : Fin 32) (phase : Fin 10) (at_ : BitVec 52) (s : State),
      laneIn s k = true →
      s.flag F.laneStat_FAULT k = false →
      s.getB F.laneCfg_HF_EN k = 0 →
      s.ticks < (s.lane k).enAt + 2 ^ 20 →
      s.get F.laneStat_STATE k = 1 →
      (s.lane k).phase = phase →
      3 ≤ (s.lane k).commas →
      Completes (.laneComma k phase at_) s fun t => t.get F.laneStat_STATE k = 2 ∧ (t.lane k).phase = phase ∧ t = { s with regs := t.regs, sc := t.sc } ∧ RegsBut [F.laneStat_STATE] s t ∧ InstBut F.laneStat_STATE k s t) ∧
  (∀ (k : Fin 32) (phase : Fin 10) (at_ : BitVec 52) (s : State),
      laneIn s k = true →
      s.flag F.laneStat_FAULT k = false →
      s.getB F.laneCfg_HF_EN k = 0 →
      s.ticks < (s.lane k).enAt + 2 ^ 20 →
      2 ≤ s.get F.laneStat_STATE k →
      s.get F.laneStat_STATE k ≤ 4 →
      (s.lane k).phase ≠ phase →
      Completes (.laneComma k phase at_) s fun t => t.get F.laneStat_STATE k = 1 ∧ (t.lane k).phase = phase ∧ (t.lane k).commas = 1 ∧ t = { s with regs := t.regs, sc := t.sc } ∧ RegsBut [F.laneStat_STATE] s t ∧ InstBut F.laneStat_STATE k s t) ∧
  (∀ (k : Fin 32) (n : Nat) (at_ : BitVec 52) (s : State),
      laneIn s k = true →
      s.flag F.laneStat_FAULT k = false →
      s.getB F.laneCfg_HF_EN k = 0 →
      s.ticks < (s.lane k).enAt + 2 ^ 20 →
      ((s.get F.laneStat_STATE k = 2 ∧ 64 ≤ n) ∨ (s.get F.laneStat_STATE k = 4 ∧ 1 ≤ n)) →
      Completes (.laneAlign k n at_) s fun t => t.get F.laneStat_STATE k = 3 ∧ t.flt = s.flt ∧ t = { s with regs := t.regs, sc := t.sc } ∧ RegsBut [F.laneStat_STATE] s t ∧ InstBut F.laneStat_STATE k s t) ∧
  (∀ (k : Fin 32) (at_ : BitVec 52) (s : State),
      laneIn s k = true →
      s.flag F.laneStat_FAULT k = false →
      s.getB F.laneCfg_HF_EN k = 0 →
      s.ticks < (s.lane k).enAt + 2 ^ 20 →
      (s.get F.laneStat_STATE k = 4 ∨ (s.get F.laneStat_STATE k = 3 ∧ (s.lane k).soft = true)) →
      s.get F.laneCfg_EXPECT k ≠ 0 →
      200 * (s.get F.laneCfg_EXPECT k : Int) + 100 ≤ sd52 at_ (s.lane k).sofAt →
      Completes (.laneSofTimeout k at_) s fun t => t.get F.laneStat_STATE k = 1 ∧ t = { s with regs := t.regs, sc := t.sc } ∧ RegsBut [F.laneStat_STATE] s t ∧ InstBut F.laneStat_STATE k s t) ∧
  (∀ (k : Fin 32) (at_ : BitVec 52) (s : State),
      sd52 at_ (s.lane k).sofAt < 200 * (s.get F.laneCfg_EXPECT k : Int) + 100 →
      exec (.laneSofTimeout k at_) s = .next (s)) ∧
  (∀ (k : Fin 32) (s : State),
      laneIn s k = true →
      s.flag F.laneStat_FAULT k = false →
      s.get F.laneStat_STATE k ≠ 4 →
      (s.lane k).soft = false →
      (s.lane k).enAt + 2 ^ 20 ≤ s.ticks →
      s.getB F.laneCfg_LANE_ILK k = 0 →
      s.flt.live.contains (pairKey 23 (loc 5 k)) = false →
      Completes (.laneGraceExpiry k) s fun t => t.get F.laneStat_FAULT k = 1 ∧ t.get F.laneStat_FAULT_EVT k = 1 ∧ t.get F.svEvt_LANE 0 = 1 ∧ t.get F.evCfg_COUNT (128 + k) = (s.get F.evCfg_COUNT (128 + k) + 1) % 2 ^ 16 ∧
      t.flt.live = s.flt.live ++ [pairKey 23 (loc 5 k)] ∧ t = { s with regs := t.regs, flt := t.flt, pcie := t.pcie } ∧ RegsBut [F.laneStat_FAULT, F.laneStat_FAULT_EVT, F.svEvt_LANE, F.evCfg_COUNT, F.evCfg_PEND] s t)

/-- A clean frame is accepted in ALIGNED or RUN, and the packing FIFO closes, drops and hands on its words. -/
def Obligations.FramesAndPackingFifos : Prop :=
  (∀ (k : Fin 32) (f : FrameIn) (h : BitVec 8) (xs : List (BitVec 24 × BitVec 8)) (s : State),
      laneIn s k = true →
      s.flag F.laneStat_FAULT k = false →
      s.getB F.laneCfg_HF_EN k = 0 →
      s.ticks < (s.lane k).enAt + 2 ^ 20 →
      (s.get F.laneStat_STATE k = 3 ∨ s.get F.laneStat_STATE k = 4) →
      (s.lane k).rxPos = 0 →
      xs.length = 8 →
      f.groups = (encodeRun f.rd (frameBytes h.toNat (xs.map fun x => (x.1.toNat, x.2.toNat)))).1 →
      Completes (.frame k f) s fun t => (let i := f.stamp - BitVec.ofNat 52 (s.get F.laneTime_LATC k);
      t.get F.laneStat_STATE k = 4 ∧ t.get F.laneStat_HEADER k = h.toNat ∧ t.get F.laneStamp_T k = i.toNat / 16 ∧ t.get F.laneStamp_FRAC k = i.toNat % 16 ∧ (t.lane k).sofAt = f.stamp ∧
      (∀ j : Fin 8, (xs[j.val]?).all (fun x => decide (t.get F.chStat_SAMPLE (8 * k + j) = (fmtSample s k x.1).toNat ∧
        t.get F.chStat_STATUS (8 * k + j) = x.2.toNat)) = true) ∧ t.mem = s.mem ∧ t.pending = s.pending ∧ t.t = s.t)) ∧
  (∀ (k : Fin 32) (f : FrameIn) (s : State),
      laneIn s k = true →
      s.flag F.laneStat_FAULT k = false →
      s.getB F.laneCfg_HF_EN k = 0 →
      s.ticks < (s.lane k).enAt + 2 ^ 20 →
      (s.get F.laneStat_STATE k = 3 ∨ s.get F.laneStat_STATE k = 4) →
      (s.lane k).rxPos = 0 →
      f.groups = [encode10 true sofCode f.rd] →
      Completes (.frame k f) s fun t => (let i := f.stamp - BitVec.ofNat 52 (s.get F.laneTime_LATC k);
      t.get F.laneStat_STATE k = 4 ∧ t.get F.laneStamp_T k = i.toNat / 16 ∧ t.get F.laneStamp_FRAC k = i.toNat % 16 ∧
      (t.lane k).sofAt = f.stamp ∧ (t.lane k).rxPos = 1 ∧ (t.lane k).rxOn = true ∧ (t.lane k).rxT = i ∧ t = { s with regs := t.regs, sc := t.sc }) ∧ RegsBut [F.laneStat_STATE, F.laneStamp_T, F.laneStamp_FRAC] s t ∧ InstBut F.laneStat_STATE k s t) ∧
  (∀ (k : Fin 32) (f : FrameIn) (g : BitVec 10) (s : State),
      laneIn s k = true →
      s.flag F.laneStat_FAULT k = false →
      s.getB F.laneCfg_HF_EN k = 0 →
      s.ticks < (s.lane k).enAt + 2 ^ 20 →
      (s.get F.laneStat_STATE k = 3 ∨ s.get F.laneStat_STATE k = 4) →
      (s.lane k).rxPos = 0 →
      f.groups = [g] →
      decode10 g f.rd = .invalid →
      s.getB F.laneCfg_CERR_LIM k = 0 →
      Completes (.frame k f) s fun t => t.get F.laneStat_CERR k = (s.get F.laneStat_CERR k + 1) % 2 ^ F.laneStat_CERR.w ∧ t.get F.laneStat_STATE k = s.get F.laneStat_STATE k ∧ t = { s with regs := t.regs, sc := t.sc, flt := t.flt } ∧ RegsBut [F.laneStat_CERR] s t ∧ InstBut F.laneStat_CERR k s t) ∧
  (∀ (k : Fin 96) (w : PfWord) (n : Nat) (s : State),
      (s.fifo k).part = some (w, n) →
      (s.fifo k).done = none →
      (s.fifo k).chain.length < 16 →
      s.get F.pfCfg_IDLE k ≠ 0 →
      Completes (.fifoIdleFlush k) s fun t => (t.fifo k).chain = (s.fifo k).chain ++ [{ w with vb := n / 8, last := false, gap := (s.fifo k).gap }] ∧ (t.fifo k).part = none ∧ t = { s with sc := { s.sc with fifos := t.sc.fifos } }) ∧
  (∀ (k : Fin 32) (w : PfWord) (l : List PfWord) (s : State),
      s.fatal = false →
      (s.fifo k).chain = w :: l →
      (s.fifo k).done = none →
      s.flag F.injCtl_ARM 0 = false →
      w.gap = false →
      w.err = false →
      w.pos = 0 →
      exec (.fifoWordRead k 0) s = .next ((s.setFifo k { s.fifo k with chain := l }).setLane k { s.lane k with unSkip := false, unSeq := bits w.data.toNat 4 4 })) ∧
  (∀ (k : Fin 32) (w : PfWord) (l : List PfWord) (s : State),
      s.fatal = false →
      (s.fifo k).chain = w :: l →
      (s.fifo k).done = none →
      s.flag F.injCtl_ARM 0 = false →
      w.gap = false →
      w.err = false →
      w.pos ≠ 0 →
      (s.lane k).unSkip = false →
      Completes (.fifoWordRead k 0) s fun t => t.sc.unpacked = s.sc.unpacked ++ [⟨8 * k + (w.pos - 1), BitVec.ofNat 24 (bits w.data.toNat 0 8 * 65536 + bits w.data.toNat 8 8 * 256 + bits w.data.toNat 16 8),
        bits w.data.toNat 24 8, (s.lane k).unSeq, w.t, false⟩] ∧ t.mem = s.mem ∧ t.pending = s.pending ∧ t.cl = s.cl) ∧
  (∀ (who : From) (k : Fin 96) (l : List PfWord) (n : Nat) (s : State),
      s.fatal = false →
      (k.val < 32 ∨ s.flag F.capCfg_EN (k - 32) = false) →
      (s.fifo k).done = none →
      (s.fifo k).dropping = false →
      afterLast (s.fifo k).chain = some (l, n) →
      exec (.drop who k) s = .next ((s.setFifo k { s.fifo k with chain := l }).set F.pfStat_DROPPED k (s.get F.pfStat_DROPPED k + n))) ∧
  (∀ (who : From) (k : Fin 96) (s : State),
      s.fatal = false →
      (k.val < 32 ∨ s.flag F.capCfg_EN (k - 32) = false) →
      (s.fifo k).done = none →
      (s.fifo k).dropping = false →
      afterLast (s.fifo k).chain = none →
      exec (.drop who k) s = .next ((s.setFifo k { s.fifo k with chain := [], part := none, dropping := true }).set F.pfStat_DROPPED k (s.get F.pfStat_DROPPED k + (s.fifo k).chain.length)))

/-- Output frames carry the registers, a force ends with the safe code, and the supervisor moves the interlock outputs. -/
def Obligations.OutputLanesAndInterlockWrites : Prop :=
  (∀ (k : Fin 32) (slots : List (Nat × Nat)) (fatal : Bool) (s : State),
      laneOut s k = true →
      s.get F.laneStat_STATE k = 6 →
      (s.lane k).latch = some (slots, fatal) →
      Completes (.outputFrame k) s fun t => (let header := (s.lane k).txSeq % 16 * 16 + b2n (slots.any fun x => 128 ≤ x.2) * 8 + b2n fatal * 4;
      let line := encodeRun (s.lane k).txRd (frameBytes header slots);
      mfind t.sc.tx k = some ⟨header, slots, line.1⟩ ∧ t.get F.laneStat_HEADER k = header ∧ (∀ j : Fin 8, (slots[j.val]?).all (fun x => decide (t.get F.chStat_STATUS (8 * k + j) = x.2 % 256)) = true) ∧
      t.sc.lanes = mset Lane.empty s.sc.lanes k { s.lane k with phi := (s.lane k).phi + s.get F.laneTx_OFPER k, txSeq := ((s.lane k).txSeq + 1) % 16, txRd := line.2, latch := none, forced := none } ∧
      t = { s with regs := t.regs, sc := t.sc }) ∧ RegsBut [F.laneStat_HEADER, F.chStat_STATUS] s t) ∧
  (∀ (k : Fin 32) (freqOk : Bool) (rails : RailIn) (s : State),
      laneOut s k = true →
      s.get F.laneStat_STATE k = 6 →
      (s.lane k).latch = none →
      s.sc.ending = [] →
      (s.lane k).capture ≤ s.stamp64 →
      mfind s.old (F.laneCfg_EN.key k) = none →
      porAsserted rails s = false →
      Completes (.tAdvance freqOk rails) s fun t => (let x := (s.lane k).forced.getD ((List.range 8).map fun j => forcedNow s (8 * k + j), s.fatal); (t.lane k).latch = some ((List.range 8).map fun j => txSlot s (8 * k + j) (x.1.getD j false), x.2))) ∧
  (∀ (c : Fin 256) (s : State),
      s.sc.ending.contains c.val = true →
      Completes (.forceRelease c) s fun t => t.get F.chStat_SAMPLE c = s.getB F.chSafe_SAFE c % 2 ^ 24 ∧ t.get F.chStat_FORCED c = b2n (forceCond s c) ∧ t.sc.ending = s.sc.ending.filter (· ≠ c.val) ∧ c.val ∈ t.sc.fresh ∧ t = { s with regs := t.regs, sc := t.sc } ∧ RegsBut [F.chStat_SAMPLE, F.chStat_FORCED] s t) ∧
  (∀ (who : From) (k : Fin 32) (en : Bool) (s : State),
      s.fatal = false →
      fromSv who.1 = true →
      who.2 = true →
      Completes (.laneEnable who k en) s fun t => t.get F.laneCfg_EN k = b2n en ∧ t.getB F.laneCfg_EN k = s.getB F.laneCfg_EN k ∧ t = { s with regs := t.regs, old := t.old } ∧ RegsBut [F.laneCfg_EN] s t ∧ InstBut F.laneCfg_EN k s t ∧ (∀ f i, (∀ g ∈ [F.laneCfg_EN, F.laneCfg_HF_EN, F.laneCfg_LANE_ILK, F.laneCfg_CERR_LIM], g.id ≠ f.id) → t.getB f i = s.getB f i)) ∧
  (∀ (k : Fin 32) (freqOk : Bool) (rails : RailIn) (s : State),
      mfind s.old (F.laneCfg_EN.key k) = some 0 →
      s.flag F.laneCfg_EN k = true →
      s.get F.laneCfg_DIR k = 1 →
      porAsserted rails s = false →
      Completes (.tAdvance freqOk rails) s fun t => t.get F.laneStat_STATE k = 1 ∧ (t.lane k).enAt = s.ticks + 1 ∧ (t.lane k).commas = 0 ∧ laneIn t k = true) ∧
  (∀ (who : From) (v : BitVec 8) (s : State),
      s.fatal = false →
      fromSv who.1 = true →
      who.2 = true →
      exec (.ilkRel who v) s = .next (s.set F.ilkStat_LATCH 0 (s.get F.ilkStat_LATCH 0 - (s.get F.ilkStat_LATCH 0 &&& v.toNat)))) ∧
  (∀ (who : From) (v : BitVec 8) (s : State),
      s.fatal = false →
      fromSv who.1 = true →
      who.2 = true →
      Completes (.ilkForce who v) s fun t => t.get F.ilkForce_FORCE 0 = v.toNat ∧ (∀ c : Fin 256, s.get F.laneCfg_DIR (c / 8) = 2 → s.flag F.laneCfg_EN (c / 8) = true → forceCond t c = true → t.get F.chStat_FORCED c = 1) ∧ t = { s with regs := t.regs } ∧ RegsBut [F.ilkForce_FORCE, F.chStat_FORCED] s t) ∧
  (∀ (who : From) (i : Fin 8) (v : BitVec 32) (s : State),
      s.fatal = false →
      fromSv who.1 = true →
      who.2 = true →
      exec (.chForce who i v) s = .next ((keepOld F.chForce_CH i s).set F.chForce_CH i v.toNat)) ∧
  (∀ (who : From) (ch : Fin 256) (v : BitVec 24) (s : State),
      s.fatal = false →
      fromSv who.1 = true →
      who.2 = true →
      Completes (.ilkTest who ch v) s fun t => t.get F.ilkTest_ARM 0 = 1 ∧ t.get F.ilkTest_CH 0 = ch ∧ t.get F.ilkTest_VALUE 0 = v.toNat ∧ t.sc.tests = (⟨s.t + 1, true, ch, v.toNat⟩ :: s.sc.tests).take 8 ∧ t = { s with regs := t.regs, sc := { s.sc with tests := t.sc.tests } } ∧ RegsBut [F.ilkTest_ARM, F.ilkTest_CH, F.ilkTest_VALUE] s t) ∧
  (∀ (who : From) (i : Fin 8) (ch : Fin 256) (v : BitVec 8) (s : State),
      (fromSv who.1 = false ∨ who.2 = false) →
      exec (.ilkRel who v) s = .next s ∧ exec (.ilkForce who v) s = .next s ∧ exec (.chForce who i (v.setWidth 32)) s = .next s ∧ exec (.ilkTest who ch (v.setWidth 24)) s = .next s)

/-- The winner of a segment crosses it and stands at the next node, a bad flit is dropped there, and a timer that runs out answers ERR. -/
def Obligations.FlitsCrossSegmentsAndTimersExpire : Prop :=
  (∀ (seg : Fin 49152) (cyc rcyc g2 : Nat) (f : Flit) (fg : Bool) (errs : List FlitErr) (s : State),
      s.fatal = false →
      segFrom seg ≠ nodeOutside →
      segTo seg < 128 →
      segExists seg = true →
      (match mfind s.net.last seg with | some l => decide (cyc ≤ l) | none => false) = false →
      nodeOn s (segFrom seg) = true →
      nodeOn s (segTo seg) = true →
      winner s seg cyc = some (f, fg) →
      s.flag F.injCtl_ARM 0 = false →
      (errs.all fun e => e.check = 0) = true →
      f.ty ≠ 1 →
      routeAt s (segTo seg) (some seg.val) (flitDest f) (f.ty = 1 && reqOp f.pay = 10) = some g2 →
      Completes (.flitReceive seg cyc rcyc none errs false) s fun t => mfind t.net.last seg = some (cyc + f.bodies.length) ∧ mfind t.net.rr seg = some (rrKey f) ∧
      (t.net.flits.any fun x => decide (x.ty = f.ty ∧ x.pay = f.pay ∧ x.bodies = f.bodies ∧ x.side = f.side ∧ x.poison = f.poison ∧ x.cls = f.cls ∧ x.node = segTo seg ∧ x.via = some seg.val ∧ x.out = some g2 ∧ x.urg = agedUrg s f cyc)) = true ∧ t.mem = s.mem ∧ t.pending = s.pending ∧ t.t = s.t) ∧
  (∀ (seg : Fin 49152) (cyc rcyc : Nat) (f : Flit) (fg : Bool) (raw : BitVec 160) (s : State),
      s.fatal = false →
      segFrom seg ≠ nodeOutside →
      segTo seg < 128 →
      segExists seg = true →
      (match mfind s.net.last seg with | some l => decide (cyc ≤ l) | none => false) = false →
      nodeOn s (segFrom seg) = true →
      nodeOn s (segTo seg) = true →
      winner s seg cyc = some (f, fg) →
      s.flag F.injCtl_ARM 0 = false →
      Completes (.flitReceive seg cyc rcyc none [⟨2, raw⟩] false) s fun t => mfind t.net.last seg = some (cyc + f.bodies.length) ∧ t.get F.rtrStat_DROPS (segTo seg) = (s.get F.rtrStat_DROPS (segTo seg) + 1) % 2 ^ F.rtrStat_DROPS.w ∧ t.get F.flitLog2_VALID (segTo seg) ≠ 0 ∧
      t.get F.flitLog0_RAW (segTo seg) = (if s.get F.flitLog2_VALID (segTo seg) = 0 then raw.toNat % 2 ^ 64 else s.get F.flitLog0_RAW (segTo seg)) ∧
      t.get F.flitLog1_RAW (segTo seg) = (if s.get F.flitLog2_VALID (segTo seg) = 0 then raw.toNat / 2 ^ 64 % 2 ^ 64 else s.get F.flitLog1_RAW (segTo seg)) ∧
      t.get F.flitLog2_RAW (segTo seg) = (if s.get F.flitLog2_VALID (segTo seg) = 0 then raw.toNat / 2 ^ 128 else s.get F.flitLog2_RAW (segTo seg)) ∧
      t.mem = s.mem ∧ t.pending = s.pending ∧ t.t = s.t) ∧
  (∀ (x : Timed) (s : State),
      s.fatal = false →
      (s.net.timed.find? fun y => y.expired s) = some x →
      bits x.ret 11 4 = 8 →
      bits x.ret 7 4 < 14 →
      Completes (.initiatorTimeout) s fun t => t.net.hubRsp = s.net.hubRsp ++ [⟨bits x.ret 7 4, x.ret % 128, false, (poisonData causeErr x.addr.toNat).setWidth 64, x.addr⟩] ∧
      t.get F.hubTo_TIMEOUTS (bits x.ret 7 4) = (s.get F.hubTo_TIMEOUTS (bits x.ret 7 4) + 1) % 2 ^ F.hubTo_TIMEOUTS.w ∧ t = { s with regs := t.regs, net := t.net, flt := t.flt } ∧ RegsBut [F.hubTo_TIMEOUTS] s t) ∧
  (∀ (x : Timed) (s : State),
      s.fatal = false →
      (s.net.timed.find? fun y => y.expired s) = some x →
      bits x.ret 11 4 < 8 →
      s.flag F.toInfo_VALID (cIdx (bits x.ret 11 4) (bits x.ret 7 4)) = false →
      Completes (.initiatorTimeout) s fun t => (let c := cIdx (bits x.ret 11 4) (bits x.ret 7 4);
      t.net.rspQ = s.net.rspQ ++ [mkFlit 2 true (rspPay x.ret 0 (poisonData causeErr x.addr.toNat) x.addr) [] x.part 0 c] ∧
      t.get F.rtrStat_TIMEOUTS c = (s.get F.rtrStat_TIMEOUTS c + 1) % 2 ^ F.rtrStat_TIMEOUTS.w ∧ t.get F.toInfo_VALID c = 1 ∧ t.get F.toAddr_ADDR c = x.addr.toNat ∧ t.get F.toInfo_RET c = x.ret % 2 ^ F.toInfo_RET.w ∧
      t.get F.toInfo_OP c = x.op % 2 ^ F.toInfo_OP.w ∧ t.get F.toInfo_PART c = x.part % 2 ^ F.toInfo_PART.w ∧ t.get F.toInfo_T c = s.t.toNat % 2 ^ F.toInfo_T.w ∧ t = { s with regs := t.regs, net := t.net, flt := t.flt }) ∧ RegsBut [F.rtrStat_TIMEOUTS, F.toInfo_VALID, F.toAddr_ADDR, F.toInfo_RET, F.toInfo_OP, F.toInfo_PART, F.toInfo_T] s t)

/-- RD, WR and BWR of control-core memory and MC RAM read and write exactly the addressed slots (R274). -/
def Obligations.SystemReadsAndWritesReachMemory : Prop :=
  (∀ (x : HubAcc) (s : State),
      s.fatal = false →
      direct s x.addr = true →
      x.half = false →
      (localOf s x.addr) % 8 = 0 →
      (placeOf (localOf s x.addr) = some .ctlMem ∨ placeOf (localOf s x.addr) = some .mcRam) →
      s.flag F.injCtl_ARM 0 = false →
      exec (.rd (some x) 0) s = .next (leaveRsp ⟨x.init, x.trans, true, BitVec.ofNat 64 (s.readN (localOf s x.addr) 8), 0⟩ s)) ∧
  (∀ (x : HubAcc) (v : BitVec 64) (s : State),
      s.fatal = false →
      direct s x.addr = true →
      x.half = false →
      (localOf s x.addr) % 8 = 0 →
      (placeOf (localOf s x.addr) = some .ctlMem ∨ placeOf (localOf s x.addr) = some .mcRam) →
      s.flag F.svCtl_LOCK 0 = false →
      Completes (.wr (some x) v 0) s fun t => t.readN (localOf s x.addr) 8 = v.toNat ∧ ⟨x.init, x.trans, true, 0, 0⟩ ∈ t.net.hubRsp ∧ t = { s with mem := t.mem, net := t.net, cc := t.cc } ∧ ∀ a, a < localOf s x.addr ∨ localOf s x.addr + 8 ≤ a → t.readByte a = s.readByte a) ∧
  (∀ (f : Flit) (u : State) (s : State),
      s.fatal = false →
      takeSys (fun o => o ≠ 2 && o ≠ 13) s = some (f, u) →
      badReq f = false →
      reqOp f.pay = 1 →
      reqArg f.pay % 2 = 0 →
      (localOf u (reqAddr f.pay)) % 8 = 0 →
      (placeOf (localOf u (reqAddr f.pay)) = some .ctlMem ∨ placeOf (localOf u (reqAddr f.pay)) = some .mcRam) →
      u.flag F.injCtl_ARM 0 = false →
      exec (.rd none 0) s = .next (sysAnswer f (.ok (BitVec.ofNat 64 (u.readN (localOf u (reqAddr f.pay)) 8))) u)) ∧
  (∀ (f : Flit) (u : State) (v : BitVec 64) (s : State),
      s.fatal = false →
      takeSys (· = 2) s = some (f, u) →
      badReq f = false →
      reqArg f.pay % 2 = 0 →
      (localOf u (reqAddr f.pay)) % 8 = 0 →
      placeOf (localOf u (reqAddr f.pay)) = some .ctlMem →
      u.flag F.svCtl_LOCK 0 = false →
      Completes (.wr none v 0) s fun t => ∀ i : Fin 8, t.readByte (localOf u (reqAddr f.pay) + i) = BitVec.ofNat 8 ((f.side.hi ++ reqData f.pay).toNat / 2 ^ (8 * i.val) % 256) ∧ ∀ a, a < localOf u (reqAddr f.pay) ∨ localOf u (reqAddr f.pay) + 8 ≤ a → t.readByte a = s.readByte a) ∧
  (∀ (f : Flit) (q : List Flit) (s : State),
      s.fatal = false →
      s.net.sysQ = f :: q →
      reqOp f.pay = 13 →
      badReq f = false →
      localOf s (reqAddr f.pay) % 8 = 0 →
      s.flag F.svCtl_LOCK 0 = false →
      (∀ i : Fin 32, i.val < (bulkWords f).length → placeOf (localOf s (reqAddr f.pay) + 8 * i) = some .ctlMem) →
      (bulkWords f).length ≤ 32 →
      Completes (.bwr 0) s fun t => (∀ i : Fin 32, i.val < (bulkWords f).length → t.readN (localOf s (reqAddr f.pay) + 8 * i) 8 = ((bulkWords f).getD i 0).toNat) ∧ t.t = s.t ∧ t.pending = s.pending ∧ ∀ a, a < localOf s (reqAddr f.pay) ∨ localOf s (reqAddr f.pay) + 8 * (bulkWords f).length ≤ a → t.readByte a = s.readByte a)

/-- OUTPUT gives its target the value, holds it, lets it wait, refuses it, acknowledges it or counts a miss; EMIT_AT_DUE and OUTPUT_ROOM give it later. -/
def Obligations.OutputsReachTheirTargets : Prop :=
  (∀ (f : Flit) (q : List Flit) (s : State),
      s.fatal = false →
      s.net.outQ = f :: q →
      badReq f = false →
      performed s (outOf f) = true →
      (s.out.waiting.any fun w => waitsBehind w (outOf f)) = false →
      mustWait s (outOf f) = false →
      (outOf f).emitAt = false →
      (outOf f).ack = false →
      0 ≤ sdiff (outOf f).due s.t →
      (outOf f).kind = 2 →
      exec (.output) s = .next ({ s with net := { s.net with outQ := q }, out := { s.out with now := mput s.out.now ((outOf f).kind * 65536 + (outOf f).index) (outsNow s (outOf f) + 1) } }.writeSlot (mirrorAddr (writeFrame s) (outOf f).index) (outOf f).data)) ∧
  (∀ (f : Flit) (q : List Flit) (s : State),
      s.fatal = false →
      s.net.outQ = f :: q →
      badReq f = false →
      performed s (outOf f) = true →
      (s.out.waiting.any fun w => waitsBehind w (outOf f)) = false →
      mustWait s (outOf f) = false →
      (outOf f).emitAt = false →
      (outOf f).ack = false →
      0 ≤ sdiff (outOf f).due s.t →
      (outOf f).kind = 1 →
      Completes (.output) s fun t => t.get F.chStat_SAMPLE (outOf f).index = bits (outOf f).data.toNat 24 24 ∧ (outOf f).index ∈ t.sc.fresh ∧
      t.get F.chStat_FORCED (outOf f).index = (if s.sc.ending.contains (outOf f).index then b2n (forceCond s (outOf f).index) else s.get F.chStat_FORCED (outOf f).index) ∧
      t = { s with regs := t.regs, sc := t.sc, net := t.net, out := t.out } ∧ t.net = { s.net with outQ := q } ∧ t.out.held = s.out.held ∧ t.out.waiting = s.out.waiting ∧ RegsBut [F.chStat_SAMPLE, F.chStat_FORCED] s t ∧ InstBut F.chStat_SAMPLE (outOf f).index s t ∧ InstBut F.chStat_FORCED (outOf f).index s t) ∧
  (∀ (f : Flit) (q : List Flit) (s : State),
      s.fatal = false →
      s.net.outQ = f :: q →
      badReq f = false →
      performed s (outOf f) = true →
      (s.out.waiting.any fun w => waitsBehind w (outOf f)) = false →
      mustWait s (outOf f) = false →
      (outOf f).emitAt = false →
      (outOf f).ack = false →
      0 ≤ sdiff (outOf f).due s.t →
      (outOf f).kind = 4 →
      Completes (.output) s fun t => bits (t.get F.ilkStat_FLAG 0) (outOf f).index 1 = b2n (decide ((outOf f).data ≠ 0)) ∧ (∀ j : Fin 8, j.val ≠ (outOf f).index → bits (t.get F.ilkStat_FLAG 0) j 1 = bits (s.get F.ilkStat_FLAG 0) j 1) ∧
      t.net = { s.net with outQ := q } ∧ t.mem = s.mem ∧ t.t = s.t ∧ t.pending = s.pending ∧ RegsBut [F.ilkStat_FLAG, F.chStat_FORCED] s t) ∧
  (∀ (f : Flit) (q : List Flit) (s : State),
      s.fatal = false →
      s.net.outQ = f :: q →
      badReq f = false →
      performed s (outOf f) = true →
      (s.out.waiting.any fun w => waitsBehind w (outOf f)) = false →
      mustWait s (outOf f) = false →
      (outOf f).emitAt = false →
      (outOf f).ack = false →
      0 ≤ sdiff (outOf f).due s.t →
      (outOf f).kind = 5 →
      Completes (.output) s fun t => t.mbx (outOf f).index = s.mbx (outOf f).index ++ [⟨(outOf f).data, (outOf f).due, mbxTag (outOf f).part (outOf f).ctx (outOf f).epoch, false⟩] ∧
      t.get F.mbxStat_APPENDS (outOf f).index = (s.get F.mbxStat_APPENDS (outOf f).index + 1) % 2 ^ F.mbxStat_APPENDS.w ∧ t.net = { s.net with outQ := q } ∧ t.mem = s.mem ∧ t.t = s.t ∧ t.pending = s.pending) ∧
  (∀ (f : Flit) (q : List Flit) (s : State),
      s.fatal = false →
      s.net.outQ = f :: q →
      badReq f = false →
      performed s (outOf f) = true →
      (s.out.waiting.any fun w => waitsBehind w (outOf f)) = false →
      mustWait s (outOf f) = false →
      (outOf f).emitAt = false →
      (outOf f).ack = false →
      0 ≤ sdiff (outOf f).due s.t →
      (outOf f).kind = 3 →
      exec (.output) s = .next (captureWord (outOf f).index (outOf f).data { s with net := { s.net with outQ := q }, out := { s.out with now := mput s.out.now ((outOf f).kind * 65536 + (outOf f).index) (outsNow s (outOf f) + 1) } })) ∧
  (∀ (f : Flit) (q : List Flit) (s : State),
      s.fatal = false →
      s.net.outQ = f :: q →
      badReq f = false →
      performed s (outOf f) = true →
      (s.out.waiting.any fun w => waitsBehind w (outOf f)) = false →
      mustWait s (outOf f) = false →
      (outOf f).emitAt = true →
      0 < sdiff (outOf f).due s.t →
      exec (.output) s = .next ({ s with net := { s.net with outQ := q }, out := { s.out with held := s.out.held ++ [outOf f] } })) ∧
  (∀ (f : Flit) (q : List Flit) (s : State),
      s.fatal = false →
      s.net.outQ = f :: q →
      badReq f = false →
      performed s (outOf f) = true →
      (s.out.waiting.any fun w => waitsBehind w (outOf f)) = true ∨ mustWait s (outOf f) = true →
      exec (.output) s = .next ({ s with net := { s.net with outQ := q }, out := { s.out with waiting := s.out.waiting ++ [outOf f] } })) ∧
  (∀ (f : Flit) (q : List Flit) (s : State),
      s.fatal = false →
      s.net.outQ = f :: q →
      badReq f = false →
      performed s (outOf f) = false →
      (outOf f).ack = false →
      exec (.output) s = .next (report 10 (loc 11 ((outOf f).kind * 256 + (outOf f).index % 256)) (outOf f).index (some (outOf f).part) false { s with net := { s.net with outQ := q } })) ∧
  (∀ (f : Flit) (q : List Flit) (s : State),
      s.fatal = false →
      s.net.outQ = f :: q →
      badReq f = true →
      wantsRsp f = false →
      exec (.output) s = .next (reqErr (loc 4 nodeHub) f { s with net := { s.net with outQ := q } })) ∧
  (∀ (f : Flit) (q : List Flit) (s : State),
      s.fatal = false →
      s.net.outQ = f :: q →
      badReq f = false →
      performed s (outOf f) = true →
      (s.out.waiting.any fun w => waitsBehind w (outOf f)) = false →
      mustWait s (outOf f) = false →
      (outOf f).emitAt = false →
      (outOf f).kind = 2 →
      (outOf f).ack = true →
      0 ≤ sdiff (outOf f).due s.t →
      bits (outOf f).ret 11 4 < 8 →
      undeliverable s (mkFlit 2 false (rspPay (outOf f).ret 0 s.t 0) [] (outOf f).part (rspUrg s (outOf f).part (outOf f).urg) nodeHub) = false →
      Completes (.output) s fun t => t.readN (mirrorAddr (writeFrame s) (outOf f).index) 6 = (outOf f).data.toNat ∧
      ((t.net.flits ++ t.cl.injQ).any fun x => decide (x.ty = 2 ∧ x.poison = false ∧ x.pay = rspPay (outOf f).ret 0 s.t 0)) = true ∧ t.t = s.t ∧ t.pending = s.pending) ∧
  (∀ (f : Flit) (q : List Flit) (s : State),
      s.fatal = false →
      s.net.outQ = f :: q →
      badReq f = false →
      performed s (outOf f) = true →
      (s.out.waiting.any fun w => waitsBehind w (outOf f)) = false →
      mustWait s (outOf f) = false →
      (outOf f).emitAt = false →
      (outOf f).kind = 2 →
      (outOf f).ack = false →
      sdiff (outOf f).due s.t < 0 →
      s.pState (outOf f).part = pGuaranteed →
      s.flag F.missInfo_VALID 0 = false →
      Completes (.output) s fun t => t.get F.partStat_MISSES (outOf f).part = (s.get F.partStat_MISSES (outOf f).part + 1) % 2 ^ F.partStat_MISSES.w ∧
      t.get F.missInfo_VALID 0 = 1 ∧ t.get F.missInfo_EMIT 0 = 0 ∧ t.get F.missInfo_KIND 0 = 2 ∧ t.get F.missInfo_INDEX 0 = (outOf f).index % 2 ^ F.missInfo_INDEX.w ∧ t.get F.missInfo_PART 0 = (outOf f).part % 8 ∧
      t.get F.missInfo_PKG 0 = s.pkg % 16 ∧ t.get F.missT_T 0 = s.t.toNat ∧ t.get F.missDue_DUE 0 = (outOf f).due.toNat ∧ t.get F.missTag_TAG 0 = (outOf f).tag.toNat ∧
      t.readN (mirrorAddr (writeFrame s) (outOf f).index) 6 = (outOf f).data.toNat ∧ t.t = s.t ∧ t.pending = s.pending ∧ RegsBut [F.partStat_MISSES, F.missInfo_VALID, F.missInfo_EMIT, F.missInfo_KIND, F.missInfo_INDEX, F.missInfo_PART, F.missInfo_PKG, F.missT_T, F.missDue_DUE, F.missTag_TAG] s t) ∧
  (∀ (o : OutVal) (r : List OutVal) (s : State),
      s.fatal = false →
      takeFirst (fun o => sdiff o.due s.t ≤ 0 && !targetFull s o) s.out.held = some (o, r) →
      o.ack = false →
      performed s o = true →
      o.emitAt = true →
      (sdiff o.due s.t = -1 ∨ sdiff o.due s.t = 0 ∧ outsNow s o = 0) →
      exec (.emitAtDue) s = .next (outEffect o { s with out := { s.out with held := r } })) ∧
  (∀ (o : OutVal) (r : List OutVal) (s : State),
      s.fatal = false →
      takeFirst (fun o => sdiff o.due s.t ≤ 0 && !targetFull s o) s.out.held = some (o, r) →
      o.ack = false →
      performed s o = true →
      o.emitAt = true →
      sdiff o.due s.t = 0 →
      0 < outsNow s o →
      o.kind ≠ 3 →
      o.kind ≠ 5 →
      exec (.emitAtDue) s = .next ({ s with out := { s.out with held := r } })) ∧
  (∀ (o : OutVal) (r : List OutVal) (s : State),
      s.fatal = false →
      takeFirst (fun o => sdiff o.due s.t ≤ 0 && !targetFull s o) s.out.held = some (o, r) →
      o.ack = false →
      performed s o = true →
      o.emitAt = true →
      sdiff o.due s.t = 0 →
      0 < outsNow s o →
      o.kind = 5 →
      Completes (.emitAtDue) s fun t => (let m := s.mbx o.index; let k := m.length - outsNow s o; t.mbx o.index = m.take k ++ [⟨o.data, o.due, mbxTag o.part o.ctx o.epoch, false⟩] ++ m.drop k ∧ t.get F.mbxStat_APPENDS o.index = (s.get F.mbxStat_APPENDS o.index + 1) % 2 ^ F.mbxStat_APPENDS.w ∧ t.out = { s.out with held := r } ∧ t.mem = s.mem ∧ t.t = s.t ∧ t.pending = s.pending)) ∧
  (∀ (o : OutVal) (r : List OutVal) (s : State),
      s.fatal = false →
      firstRoom s [] s.out.waiting = some (o, r) →
      o.ack = false →
      performed s o = true →
      (o.emitAt = false ∨ sdiff o.due s.t ≤ 0 ∧ outsNow s o = 0) →
      0 ≤ sdiff o.due s.t →
      exec (.outputRoom) s = .next (outEffect o { s with out := { s.out with waiting := r, now := if o.emitAt then s.out.now else mput s.out.now (o.kind * 65536 + o.index) (outsNow s o + 1) } })) ∧
  (∀ (o : OutVal) (r : List OutVal) (s : State),
      s.fatal = false →
      firstRoom s [] s.out.waiting = some (o, r) →
      performed s o = true →
      o.emitAt = true →
      0 < sdiff o.due s.t →
      exec (.outputRoom) s = .next ({ s with out := { s.out with waiting := r, held := s.out.held ++ [o] } }))

/-- A barrier channel opens, takes arrivals once, and its release completes it (R283). -/
def Obligations.BarriersGatherAndRelease : Prop :=
  (∀ (who : From) (b : Fin 16) (s : State),
      s.fatal = false →
      s.barArmed b = false →
      Completes (.barArm who b) s fun t => t.get F.barStat_ARMED b = 1 ∧ t.barSeen b = [] ∧ (∀ f ∈ [F.barCfg_SCOPE, F.barCfg_UNIT, F.barCfg_CORES], t.get f b = s.get f b % 2 ^ f.w) ∧ (let on := s.barScope b = 3 && barComplete { s with net := { s.net with arrived := mdel s.net.arrived b } } b;
      t.net.gq = (if on && !s.hasUp then s.net.gq ++ [⟨2, b, 3, s.pkg, 0, 0, 0⟩] else s.net.gq) ∧ t.chain = (if on && s.hasUp then (gSend true ⟨1, b, 3, s.pkg, 0, 0, 0⟩ s).chain else s.chain)) ∧
      t = { s with regs := t.regs, net := { s.net with arrived := t.net.arrived, gq := t.net.gq, gsent := t.net.gsent }, chain := t.chain } ∧ RegsBut [F.barStat_ARMED, F.barCfg_SCOPE, F.barCfg_UNIT, F.barCfg_CORES] s t ∧ InstBut F.barStat_ARMED b s t) ∧
  (∀ (who : From) (b : Fin 16) (s : State),
      s.fatal = false →
      s.barArmed b = true →
      exec (.barDisarm who b) s = .next (s.set F.barStat_ARMED b 0)) ∧
  (∀ (who : From) (b : Fin 16) (s : State),
      s.fatal = false →
      who.1.val < 8 →
      s.barArmed b = true →
      exec (.barArrive who b) s = .next ({ s with net := { s.net with gq := s.net.gq ++ [⟨1, b, s.barScope b, s.pkg, 0, 0, who.1⟩] } })) ∧
  (∀ (who : From) (b : Fin 16) (s : State),
      s.fatal = false →
      who.1.val < 8 →
      s.barArmed b = false →
      exec (.barArrive who b) s = .next (s.set F.barStat_STRAY b 1)) ∧
  (∀ (m : GMsg) (q : List GMsg) (s : State),
      s.fatal = false →
      s.net.gq = m :: q →
      m.gop = 1 →
      s.flag F.injCtl_ARM 0 = false →
      s.barArmed m.chan = true →
      (s.barSeen m.chan).contains m.who = false →
      barComplete { s with net := { s.net with arrived := mput s.net.arrived m.chan (s.barSeen m.chan ++ [m.who]) } } m.chan = false →
      exec (.globalArrive (.inside [] ⟨0, 0⟩)) s = .next ({ s with net := { s.net with gq := q, arrived := mput s.net.arrived m.chan (s.barSeen m.chan ++ [m.who]) } })) ∧
  (∀ (m : GMsg) (q : List GMsg) (s : State),
      s.fatal = false →
      s.net.gq = m :: q →
      m.gop = 1 →
      s.flag F.injCtl_ARM 0 = false →
      s.barArmed m.chan = true →
      (s.barSeen m.chan).contains m.who = false →
      s.barScope m.chan ≠ 3 →
      barComplete { s with net := { s.net with arrived := mput s.net.arrived m.chan (s.barSeen m.chan ++ [m.who]) } } m.chan = true →
      exec (.globalArrive (.inside [] ⟨0, 0⟩)) s = .next ({ s with net := { s.net with gq := q ++ [⟨2, m.chan, s.barScope m.chan, s.pkg, 0, 0, 0⟩], arrived := mput s.net.arrived m.chan (s.barSeen m.chan ++ [m.who]) } })) ∧
  (∀ (m : GMsg) (q : List GMsg) (s : State),
      s.fatal = false →
      s.net.gq = m :: q →
      m.gop = 2 →
      s.flag F.injCtl_ARM 0 = false →
      s.barArmed m.chan = true →
      m.scope ≠ 3 →
      m.chan < 16 →
      Completes (.globalRelease (.inside [] ⟨0, 0⟩)) s fun t => t.get F.barStat_DONE m.chan = 1 ∧ t.get F.barStat_ARMED m.chan = 0 ∧ t.get F.barStat_COMPLETIONS m.chan = (s.get F.barStat_COMPLETIONS m.chan + 1) % 2 ^ F.barStat_COMPLETIONS.w ∧ t.get F.evCfg_COUNT (264 + m.chan) = (s.get F.evCfg_COUNT (264 + m.chan) + 1) % 2 ^ 16 ∧ t.barSeen m.chan = [] ∧ t.net = { s.net with gq := q, arrived := t.net.arrived } ∧ t = { s with regs := t.regs, net := t.net, pcie := t.pcie } ∧ RegsBut [F.barStat_DONE, F.barStat_ARMED, F.barStat_COMPLETIONS, F.evCfg_COUNT, F.evCfg_PEND] s t) ∧
  (∀ (x : ChainGlobal) (s : State),
      s.fatal = false →
      cpUp s (sideOf x.up) = true →
      gBroken x = 0 →
      x.together = true →
      gBad x.payload = false →
      (gMessage x.payload).gop = 1 →
      s.barArmed (gMessage x.payload).chan = true →
      (s.barSeen (gMessage x.payload).chan).contains (136 + (gMessage x.payload).src) = false →
      barComplete { s with net := { s.net with arrived := mput s.net.arrived (gMessage x.payload).chan (s.barSeen (gMessage x.payload).chan ++ [136 + (gMessage x.payload).src]) } } (gMessage x.payload).chan = false →
      exec (.globalArrive (.chain x)) s = .next ({ s with net := { s.net with arrived := mput s.net.arrived (gMessage x.payload).chan (s.barSeen (gMessage x.payload).chan ++ [136 + (gMessage x.payload).src]) } })) ∧
  (∀ (x : ChainGlobal) (s : State),
      s.fatal = false →
      cpUp s (sideOf x.up) = true →
      gBroken x = 0 →
      x.together = true →
      gBad x.payload = false →
      (gMessage x.payload).gop = 2 →
      s.barArmed (gMessage x.payload).chan = true →
      (s.hasDown = false ∨ (gMessage x.payload).scope ≠ 3) →
      Completes (.globalRelease (.chain x)) s fun t => t.get F.barStat_DONE (gMessage x.payload).chan = 1 ∧ t.get F.barStat_ARMED (gMessage x.payload).chan = 0 ∧ t.get F.barStat_COMPLETIONS (gMessage x.payload).chan = (s.get F.barStat_COMPLETIONS (gMessage x.payload).chan + 1) % 2 ^ F.barStat_COMPLETIONS.w ∧ t.barSeen (gMessage x.payload).chan = [] ∧ t = { s with regs := t.regs, net := t.net, pcie := t.pcie } ∧ RegsBut [F.barStat_DONE, F.barStat_ARMED, F.barStat_COMPLETIONS, F.evCfg_COUNT, F.evCfg_PEND] s t) ∧
  (∀ (b : Fin 16) (c : Fin 128) (s : State),
      s.fatal = false →
      s.barArmed b = true →
      barCluster s b c = true →
      quiet s c = true →
      (s.barSeen b).contains (8 + c.val) = false →
      s.net.gq = [] →
      exec (.clusterQuiet b c) s = .next ({ s with net := { s.net with gq := [⟨1, b, s.barScope b, s.pkg, 0, 0, 8 + c⟩] } }))

/-- GSCHED stages a snapshot or warm reset for its tick, acknowledgements gather, and the deadline clears or aborts it (R282, R284). -/
def Obligations.ScheduledOperationsAreStaged : Prop :=
  (∀ (who : From) (s : State),
      s.fatal = false →
      4096 ≤ sdiff (w48 (s.get F.gschedT_T_S 0)) s.t →
      sdiff (w48 (s.get F.gschedT_T_S 0)) s.t ≤ 2 ^ 30 →
      s.flag F.snapStat_STAGED 0 = false →
      exec (.gschedSnapshot who false) s = .next ((({ s with staged := s.staged ++ [⟨3, 0, 0, w48 (s.get F.gschedT_T_S 0), false, s.pkg, 0, 0, [], [s.pkg], false⟩], net := { s.net with gq := s.net.gq ++ [⟨3, 0, 2, s.pkg, w48 (s.get F.gschedT_T_S 0), 3, 0⟩] } } : State).set F.snapStat_STAGED 0 1))) ∧
  (∀ (who : From) (s : State),
      s.fatal = false →
      4096 ≤ sdiff (w48 (s.get F.gschedT_T_S 0)) s.t →
      sdiff (w48 (s.get F.gschedT_T_S 0)) s.t ≤ 2 ^ 30 →
      s.flag F.snapStat_STAGED 0 = false →
      exec (.gschedWarmReset who false) s = .next ((({ s with staged := s.staged ++ [⟨4, 0, 0, w48 (s.get F.gschedT_T_S 0), false, s.pkg, 0, 0, [], [s.pkg], false⟩], net := { s.net with gq := s.net.gq ++ [⟨3, 0, 2, s.pkg, w48 (s.get F.gschedT_T_S 0), 4, 0⟩] } } : State).set F.snapStat_STAGED 0 1))) ∧
  (∀ (who : From) (s : State),
      s.fatal = false →
      4096 ≤ sdiff (w48 (s.get F.gschedT_T_S 0)) s.t →
      sdiff (w48 (s.get F.gschedT_T_S 0)) s.t ≤ 2 ^ 30 →
      s.flag F.snapStat_STAGED 0 = false →
      ((List.range s.chainLen).any (· ≠ s.pkg)) = true →
      exec (.gschedSnapshot who true) s = .next (gBroadcast ⟨3, 0, 3, s.pkg, w48 (s.get F.gschedT_T_S 0), 3, 0⟩ (({ s with staged := s.staged ++ [⟨3, 0, 0, w48 (s.get F.gschedT_T_S 0), true, s.pkg, 0, 0, [], s.pkg :: (List.range s.chainLen).filter (· ≠ s.pkg), false⟩], net := { s.net with gq := s.net.gq ++ [⟨3, 0, 3, s.pkg, w48 (s.get F.gschedT_T_S 0), 3, 0⟩] } } : State).set F.snapStat_STAGED 0 1))) ∧
  (∀ (who : From) (s : State),
      s.fatal = false →
      4096 ≤ sdiff (w48 (s.get F.gschedT_T_S 0)) s.t →
      sdiff (w48 (s.get F.gschedT_T_S 0)) s.t ≤ 2 ^ 30 →
      s.flag F.snapStat_STAGED 0 = false →
      ((List.range s.chainLen).any (· ≠ s.pkg)) = true →
      exec (.gschedWarmReset who true) s = .next (gBroadcast ⟨3, 0, 3, s.pkg, w48 (s.get F.gschedT_T_S 0), 4, 0⟩ (({ s with staged := s.staged ++ [⟨4, 0, 0, w48 (s.get F.gschedT_T_S 0), true, s.pkg, 0, 0, [], s.pkg :: (List.range s.chainLen).filter (· ≠ s.pkg), false⟩], net := { s.net with gq := s.net.gq ++ [⟨3, 0, 3, s.pkg, w48 (s.get F.gschedT_T_S 0), 4, 0⟩] } } : State).set F.snapStat_STAGED 0 1))) ∧
  (∀ (who : From) (sys : Bool) (s : State),
      s.fatal = false →
      (sdiff (w48 (s.get F.gschedT_T_S 0)) s.t < 4096 ∨ 2 ^ 30 < sdiff (w48 (s.get F.gschedT_T_S 0)) s.t ∨ s.flag F.snapStat_STAGED 0 = true) →
      exec (.gschedSnapshot who sys) s = .next (s.set F.snapStat_REFUSED 0 1) ∧ exec (.gschedWarmReset who sys) s = .next (s.set F.snapStat_REFUSED 0 1)) ∧
  (∀ (m : GMsg) (q : List GMsg) (s : State),
      s.fatal = false →
      s.net.gq = m :: q →
      m.gop = 3 →
      s.flag F.injCtl_ARM 0 = false →
      m.arg % 16 ≠ 1 →
      exec (.globalStage (.inside [] ⟨0, 0⟩)) s = .next ({ s with net := { s.net with gq := q ++ [⟨4, 0, m.scope, s.pkg, m.ts, m.arg, 0⟩] } })) ∧
  (∀ (x : ChainGlobal) (s : State),
      s.fatal = false →
      cpUp s (sideOf x.up) = true →
      gBroken x = 0 →
      x.together = true →
      gBad x.payload = false →
      (gMessage x.payload).gop = 3 →
      (gMessage x.payload).arg % 16 = 3 ∨ (gMessage x.payload).arg % 16 = 4 →
      s.hasUp = false →
      s.hasDown = false →
      Completes (.globalStage (.chain x)) s fun t => t.get F.snapStat_STAGED 0 = 1 ∧ t.staged.length = s.staged.length + 1 ∧ (t.staged.any fun y => decide (y.kind = (gMessage x.payload).arg % 16 ∧ y.ts = (gMessage x.payload).ts ∧ y.src = (gMessage x.payload).src ∧ y.cleared = true)) = true ∧
      t = { s with regs := t.regs, staged := t.staged, free := t.free } ∧ RegsBut [F.snapStat_STAGED] s t) ∧
  (∀ (m : GMsg) (q : List GMsg) (x : Staged) (r : List Staged) (s : State),
      s.fatal = false →
      s.net.gq = m :: q →
      m.gop = 4 →
      s.flag F.injCtl_ARM 0 = false →
      s.staged = x :: r →
      x.src = s.pkg →
      x.of m = true →
      x.acks.contains m.src = false →
      exec (.globalAck (.inside [] ⟨0, 0⟩)) s = .next ({ s with net := { s.net with gq := q }, staged := { x with acks := x.acks ++ [m.src] } :: r })) ∧
  (∀ (m : GMsg) (q : List GMsg) (x : Staged) (s : State),
      s.fatal = false →
      s.net.gq = m :: q →
      m.gop = 5 →
      s.flag F.injCtl_ARM 0 = false →
      (s.staged.find? fun x => x.of m) = some x →
      (x.kind = 3 ∨ x.kind = 4) →
      Completes (.globalAbort (.inside [] ⟨0, 0⟩)) s fun t => t.staged = s.staged.erase x ∧ t.get F.snapStat_STAGED 0 = (if (s.staged.erase x).any (fun y => y.kind = 3 || y.kind = 4) then s.get F.snapStat_STAGED 0 else 0) ∧ t.get F.snapStat_ABORTED 0 = 1 ∧ t.net = { s.net with gq := q } ∧ t = { s with regs := t.regs, net := t.net, staged := t.staged } ∧ RegsBut [F.snapStat_STAGED, F.snapStat_ABORTED] s t) ∧
  (∀ (x : Staged) (s : State),
      s.fatal = false →
      (s.staged.find? fun x => x.src = s.pkg && !x.cleared && decide (sdiff x.ts s.t ≤ 2048)) = some x →
      x.complete = true →
      exec (.scheduleDeadline) s = .next ({ s with staged := replaceFirst (fun y => y = x) (fun y => { y with cleared := true }) s.staged })) ∧
  (∀ (x : Staged) (s : State),
      s.fatal = false →
      (s.staged.find? fun x => x.src = s.pkg && !x.cleared && decide (sdiff x.ts s.t ≤ 2048)) = some x →
      x.complete = false →
      x.system = false →
      exec (.scheduleDeadline) s = .next ({ s with net := { s.net with gq := s.net.gq ++ [⟨5, 0, 2, s.pkg, x.ts, stageArg x.kind x.part x.mode, 0⟩] } })) ∧
  (∀ (m : GMsg) (q : List GMsg) (raw : BitVec 160) (s : State),
      s.fatal = false →
      s.net.gq = m :: q →
      s.flag F.injCtl_ARM 0 = false →
      (m.gop = 1 → exec (.globalArrive (.inside [] ⟨2, raw⟩)) s = .next (dropFlit nodeHub raw false { s with net := { s.net with gq := q } })) ∧
      (m.gop = 2 → exec (.globalRelease (.inside [] ⟨2, raw⟩)) s = .next (dropFlit nodeHub raw false { s with net := { s.net with gq := q } })) ∧
      (m.gop = 3 → exec (.globalStage (.inside [] ⟨2, raw⟩)) s = .next (dropFlit nodeHub raw false { s with net := { s.net with gq := q } })) ∧
      (m.gop = 4 → exec (.globalAck (.inside [] ⟨2, raw⟩)) s = .next (dropFlit nodeHub raw false { s with net := { s.net with gq := q } })) ∧
      (m.gop = 5 → exec (.globalAbort (.inside [] ⟨2, raw⟩)) s = .next (dropFlit nodeHub raw false { s with net := { s.net with gq := q } }))) ∧
  (∀ (m : GMsg) (q : List GMsg) (n : Fin 144) (raw : BitVec 160) (e : FlitErr) (s : State),
      s.fatal = false →
      s.net.gq = m :: q →
      s.flag F.injCtl_ARM 0 = false →
      (m.gop = 1 → exec (.globalArrive (.inside [⟨n, ⟨2, raw⟩⟩] e)) s = .next (dropFlit n raw false { s with net := { s.net with gq := q } })) ∧
      (m.gop = 2 → exec (.globalRelease (.inside [⟨n, ⟨2, raw⟩⟩] e)) s = .next (dropFlit n raw false { s with net := { s.net with gq := q } })) ∧
      (m.gop = 3 → exec (.globalStage (.inside [⟨n, ⟨2, raw⟩⟩] e)) s = .next (dropFlit n raw false { s with net := { s.net with gq := q } })) ∧
      (m.gop = 4 → exec (.globalAck (.inside [⟨n, ⟨2, raw⟩⟩] e)) s = .next (dropFlit n raw false { s with net := { s.net with gq := q } })) ∧
      (m.gop = 5 → exec (.globalAbort (.inside [⟨n, ⟨2, raw⟩⟩] e)) s = .next (dropFlit n raw false { s with net := { s.net with gq := q } }))) ∧
  (∀ (x : ChainGlobal) (s : State),
      s.fatal = false →
      cpUp s (sideOf x.up) = true →
      gBroken x = 1 →
      exec (.globalArrive (.chain x)) s = .next (report 18 (loc 4 145) 0 none false (raiseEvent 500 (s.inc F.cpStat_CTLERR (sideOf x.up)))) ∧
      exec (.globalRelease (.chain x)) s = .next (report 18 (loc 4 145) 0 none false (raiseEvent 500 (s.inc F.cpStat_CTLERR (sideOf x.up)))) ∧
      exec (.globalStage (.chain x)) s = .next (report 18 (loc 4 145) 0 none false (raiseEvent 500 (s.inc F.cpStat_CTLERR (sideOf x.up)))) ∧
      exec (.globalAck (.chain x)) s = .next (report 18 (loc 4 145) 0 none false (raiseEvent 500 (s.inc F.cpStat_CTLERR (sideOf x.up)))) ∧
      exec (.globalAbort (.chain x)) s = .next (report 18 (loc 4 145) 0 none false (raiseEvent 500 (s.inc F.cpStat_CTLERR (sideOf x.up))))) ∧
  (∀ (x : ChainGlobal) (s : State),
      s.fatal = false →
      cpUp s (sideOf x.up) = true →
      gBroken x = 0 →
      (x.together = false ∨ gBad x.payload = true) →
      exec (.globalArrive (.chain x)) s = .next (report 18 (loc 4 145) 0 none false s) ∧
      exec (.globalRelease (.chain x)) s = .next (report 18 (loc 4 145) 0 none false s) ∧
      exec (.globalStage (.chain x)) s = .next (report 18 (loc 4 145) 0 none false s) ∧
      exec (.globalAck (.chain x)) s = .next (report 18 (loc 4 145) 0 none false s) ∧
      exec (.globalAbort (.chain x)) s = .next (report 18 (loc 4 145) 0 none false s))

/-- At T_s a snapshot is written, a warm reset keeps T and boots, a mode commits, and a migration switches (R195, R197, R285, R395). -/
def Obligations.ScheduledOperationsRun : Prop :=
  (∀ (x : Staged) (s : State),
      s.fatal = false →
      dueStaged s 3 none = some x →
      s.get F.snapBase_OFFSET 0 + 319 ≤ 0xC0000 →
      ((s.staged.erase x).any fun y => y.kind = 3 || y.kind = 4) = false →
      Completes (.snapshot) s fun t => (let u := ((dropStaged x s).set F.snapStat_STAGED 0 0).inc F.snapStat_SEQ 0;
      t.get F.snapStat_SEQ 0 = (s.get F.snapStat_SEQ 0 + 1) % 2 ^ F.snapStat_SEQ.w ∧ t.get F.snapStat_DONE 0 = 1 ∧ t.get F.snapStat_STAGED 0 = 0 ∧
      (∀ i : Fin 319, (let a := hubAddr (sharedBase + (s.get F.snapBase_OFFSET 0 + i) * 8); t.readN a 8 = (if inSvWindow a && s.flag F.svCtl_LOCK 0 then s.readN a 8 else snapWord u x.ts i % 2 ^ 64))) ∧ t.staged = s.staged.erase x ∧ t.pending = s.pending ∧ t.t = s.t) ∧ ∀ a, a < hubAddr (sharedBase + s.get F.snapBase_OFFSET 0 * 8) ∨ hubAddr (sharedBase + s.get F.snapBase_OFFSET 0 * 8) + 319 * 8 ≤ a → t.readByte a = s.readByte a) ∧
  (∀ (b : BootIn) (x : Staged) (s : State),
      s.fatal = false →
      dueStaged s 4 none = some x →
      (s.staged.any fun y => y.kind = 3 && y.cleared && y.ts = x.ts) = false →
      Completes (.warmReset b) s fun t => t.t = s.t ∧ t.era = s.era ∧ t.pending = s.pending ∧ t.ticks = s.ticks ∧ t.mc.flash = s.mc.flash ∧ t.mc.otpKeys = s.mc.otpKeys ∧ t.get F.bootStat_WARM 0 = 1 ∧ t.cl = State.reset.cl ∧ t.net = State.reset.net ∧ t.ap = State.reset.ap ∧ t.out = State.reset.out ∧ t.staged = [] ∧
      (∀ p : Fin 8, t.get F.partStat_STATE p = 0 ∧ t.get F.partStat_EPOCH p = 0) ∧ (∀ c : Fin 128, t.get F.clStatus_STATE c = 0)) ∧
  (∀ (p : Fin 8) (x : Staged) (s : State),
      s.fatal = false →
      dueStaged s 1 (some p.val) = some x →
      Completes (.modeCommit p) s fun t => t.get F.partStat_EPOCH p = 1 - s.epoch p ∧ t.get F.partStat_MODE p = x.mode % 2 ^ F.partStat_MODE.w ∧ t.get F.modeStat_STAGING p = 0 ∧ t.get F.modeStat_DRAINING p = 1 ∧
      t.staged = s.staged.erase x ∧ t = { s with regs := t.regs, staged := t.staged, cl := t.cl, ap := t.ap, lens := t.lens } ∧ RegsBut [F.partStat_EPOCH, F.partStat_MODE, F.modeStat_STAGING, F.modeStat_DRAINING, F.modeStat_OLD_LIVE, F.arithStat_RM, F.arithStat_TRAP] s t) ∧
  (∀ (p : Fin 8) (x : Staged) (k : Cert) (s : State),
      s.fatal = false →
      dueStaged s 1 (some p.val) = some x →
      admitted s p = some k →
      Completes (.modeCommit p) s fun t => t.ap.srcs = (s.ap.srcs.filter fun y => y.part ≠ p.val) ++ k.sources p x.mode ∧ t.ap.tgts = (s.ap.tgts.filter fun y => y.part ≠ p.val) ++ k.targets s p x.mode ∧
      t.ap.oldTgts = (s.ap.oldTgts.filter fun y => y.part ≠ p.val) ++ s.ap.tgts.filter (fun y => y.part = p.val) ∧ mfind t.ap.drainEnd p = some (s.ticks + k.drain x.mode) ∧
      t.get F.arithStat_RM p = k.rm x.mode % 2 ^ F.arithStat_RM.w ∧ t.get F.arithStat_TRAP p = k.trap x.mode % 2 ^ F.arithStat_TRAP.w) ∧
  (∀ (p : Fin 8) (x : Staged) (s : State),
      s.fatal = false →
      dueStaged s 2 (some p.val) = some x →
      x.frm < 128 →
      x.dst < 128 →
      x.src < 16 →
      Completes (.migrationSwitch p) s fun t => t.ap.redirects = s.ap.redirects ++ [⟨p, x.src, x.frm, x.dst⟩] ∧ t.staged = s.staged.erase x ∧
      (∀ c : Fin 128, ∀ n : Fin 31, (s.clustersOf p).contains c.val = true → rtWord t c (n + 1) = rerouteWord x.src x.frm x.dst (rtWord s c (n + 1)) ∧ rtAltWord t c (n + 1) = rerouteWord x.src x.frm x.dst (rtAltWord s c (n + 1))) ∧
      (∀ i : Fin 256, s.get F.trigCfg_PART i = p → s.get F.trigDst_PKG i = x.src → cIdx (s.get F.trigDst_DIE i) (s.get F.trigDst_CLUSTER i) = x.frm → cIdx (t.get F.trigDst_DIE i) (t.get F.trigDst_CLUSTER i) = x.dst) ∧
      (∀ i : Fin 256, s.get F.chCfg_PART i = p → s.get F.chDst_PKG i = x.src → cIdx (s.get F.chDst_DIE i) (s.get F.chDst_CLUSTER i) = x.frm → cIdx (t.get F.chDst_DIE i) (t.get F.chDst_CLUSTER i) = x.dst) ∧
      (x.src ≠ s.pkg → t.ap = { s.ap with redirects := t.ap.redirects } ∧ (∀ c : Fin 128, t.get F.clStatus_STATE c = s.get F.clStatus_STATE c)) ∧ t.mem = s.mem ∧ t.pending = s.pending ∧ t.t = s.t ∧ RegsBut [F.clStatus_STATE, F.rtEntry_CLUSTER, F.rtEntry_DIE, F.rtEntry_PKG, F.rtEntry_VALID, F.rtAlt_CLUSTER, F.rtAlt_DIE, F.rtAlt_PKG, F.rtAlt_VALID, F.trigDst_CLUSTER, F.trigDst_DIE, F.chDst_CLUSTER, F.chDst_DIE, F.reclaimTgt_CLUSTER, F.reclaimTgt_DIE] s t) ∧
  (∀ (p : Fin 8) (x : Staged) (g : Mig) (s : State),
      s.fatal = false →
      dueStaged s 2 (some p.val) = some x →
      x.src = s.pkg →
      (s.ap.migs.find? fun g => g.part = p.val && !g.switched) = some g →
      g.frm ≠ g.dst →
      s.cState g.dst = 1 →
      s.cState g.frm = 2 →
      Completes (.migrationSwitch p) s fun t => t.cState g.dst = 2 ∧ t.cState g.frm = 3 ∧ t.ap.migs = replaceFirst (fun y => y = g) (fun y => { y with switched := true }) s.ap.migs ∧ mfind t.ap.certs p = some g.cert ∧
      (∀ w ∈ s.cl.waits, (if w.cluster = g.frm then { w with cluster := g.dst } else w) ∈ t.cl.waits)) ∧
  (∀ (p : Fin 8) (x : Staged) (g : Mig) (s : State),
      s.fatal = false →
      dueStaged s 2 (some p.val) = some x →
      x.src = s.pkg →
      (s.ap.migs.find? fun g => g.part = p.val && !g.switched) = some g →
      g.frm ≠ g.dst →
      (s.cState g.dst = 4 ∨ s.cState g.frm = 4) →
      Completes (.migrationSwitch p) s fun t => (s.cState g.frm = 4 → t.cState g.frm = 4) ∧ (s.cState g.dst = 4 → t.cState g.dst = 4) ∧ t.cl.waits = s.cl.waits)

/-- A computing operation sends its result to every valid destination under its due, and sets its sticky bits (R58, R66, R72–R78). -/
def Obligations.ComputingOperationsEmit : Prop :=
  (∀ (c : Fin 128) (pe : Fin 16) (err : FireErr) (f : Firing) (u : State) (v : W) (b : Stk) (s : State),
      fired s c pe .integer err = some (f, u) →
      f.poison = none →
      compute (iOpc f.w) (u.rmOf f.part f.ep) f.l.1 f.r.1 f.g.1 = some (v, b) →
      b.toNat &&& u.trapOf f.part f.ep = 0 →
      exec (.integerOp c pe err) s = .next (setSticky f.part b (f.emit v false (f.dsts u) u))) ∧
  (∀ (c : Fin 128) (pe : Fin 16) (err : FireErr) (f : Firing) (u : State) (v : W) (b : Stk) (s : State),
      fired s c pe .comparison err = some (f, u) →
      f.poison = none →
      compute (iOpc f.w) (u.rmOf f.part f.ep) f.l.1 f.r.1 f.g.1 = some (v, b) →
      b.toNat &&& u.trapOf f.part f.ep = 0 →
      exec (.comparison c pe err) s = .next (setSticky f.part b (f.emit v false (f.dsts u) u))) ∧
  (∀ (c : Fin 128) (pe : Fin 16) (err : FireErr) (f : Firing) (u : State) (v : W) (b : Stk) (s : State),
      fired s c pe .q47 err = some (f, u) →
      f.poison = none →
      compute (iOpc f.w) (u.rmOf f.part f.ep) f.l.1 f.r.1 f.g.1 = some (v, b) →
      b.toNat &&& u.trapOf f.part f.ep = 0 →
      exec (.q47Multiply c pe err) s = .next (setSticky f.part b (f.emit v false (f.dsts u) u))) ∧
  (∀ (c : Fin 128) (pe : Fin 16) (err : FireErr) (f : Firing) (u : State) (v : W) (b : Stk) (s : State),
      fired s c pe .float err = some (f, u) →
      f.poison = none →
      compute (iOpc f.w) (u.rmOf f.part f.ep) f.l.1 f.r.1 f.g.1 = some (v, b) →
      b.toNat &&& u.trapOf f.part f.ep = 0 →
      exec (.floatOp c pe err) s = .next (setSticky f.part b (f.emit v false (f.dsts u) u))) ∧
  (∀ (c : Fin 128) (pe : Fin 16) (err : FireErr) (f : Firing) (u : State) (v : W) (b : Stk) (s : State),
      fired s c pe .conversion err = some (f, u) →
      f.poison = none →
      compute (iOpc f.w) (u.rmOf f.part f.ep) f.l.1 f.r.1 f.g.1 = some (v, b) →
      b.toNat &&& u.trapOf f.part f.ep = 0 →
      exec (.conversion c pe err) s = .next (setSticky f.part b (f.emit v false (f.dsts u) u))) ∧
  (∀ (c : Fin 128) (pe : Fin 16) (err : FireErr) (f : Firing) (u : State) (v : W) (b : Stk) (s : State),
      fired s c pe .complex err = some (f, u) →
      f.poison = none →
      compute (iOpc f.w) (u.rmOf f.part f.ep) f.l.1 f.r.1 f.g.1 = some (v, b) →
      b.toNat &&& u.trapOf f.part f.ep = 0 →
      exec (.complexOp c pe err) s = .next (setSticky f.part b (f.emit v false (f.dsts u) u))) ∧
  (∀ (c : Fin 128) (pe : Fin 16) (err : FireErr) (f : Firing) (u : State) (v : W) (s : State),
      fired s c pe .integer err = some (f, u) →
      f.poison = some v →
      exec (.integerOp c pe err) s = .next (poisonOut f v (f.dsts u) u)) ∧
  (∀ (c : Fin 128) (pe : Fin 16) (err : FireErr) (f : Firing) (u : State) (v : W) (b : Stk) (s : State),
      fired s c pe .integer err = some (f, u) →
      f.poison = none →
      compute (iOpc f.w) (u.rmOf f.part f.ep) f.l.1 f.r.1 f.g.1 = some (v, b) →
      b.toNat &&& u.trapOf f.part f.ep ≠ 0 →
      Completes (.integerOp c pe err) s fun t => t.get F.peStat_TRAPS (c * 16 + pe) = (u.get F.peStat_TRAPS (c * 16 + pe) + 1) % 2 ^ F.peStat_TRAPS.w ∧ t.get F.tfState_CAUSE (f.c * 16 + f.pe) = 5 ∧ t.get F.evCfg_COUNT (208 + f.part) = (u.get F.evCfg_COUNT (208 + f.part) + 1) % 2 ^ 16 ∧ t.mem = u.mem)

/-- Steering, fan-out, link, context and time operations send the word that their rule names (R79–R84, R88). -/
def Obligations.SteeringOperationsEmit : Prop :=
  (∀ (c : Fin 128) (pe : Fin 16) (err : FireErr) (f : Firing) (u : State) (s : State),
      fired s c pe .switch err = some (f, u) →
      f.l.2 = false →
      f.g.2 = false →
      f.g.1 ≠ 0 →
      exec (.switch c pe err) s = .next (f.emit f.l.1 false [iDst0 f.w] u)) ∧
  (∀ (c : Fin 128) (pe : Fin 16) (err : FireErr) (f : Firing) (u : State) (s : State),
      fired s c pe .switch err = some (f, u) →
      f.l.2 = false →
      f.g = (0, false) →
      exec (.switch c pe err) s = .next (f.emit f.l.1 false [iDst1 f.w] u)) ∧
  (∀ (c : Fin 128) (pe : Fin 16) (err : FireErr) (f : Firing) (u : State) (s : State),
      fired s c pe .merge err = some (f, u) →
      (s.headSlot c pe).any (fun x => x.l.isSome) = true →
      f.l.2 = false →
      exec (.merge c pe err) s = .next (f.emit f.l.1 false (f.dsts u) u)) ∧
  (∀ (c : Fin 128) (pe : Fin 16) (err : FireErr) (f : Firing) (u : State) (s : State),
      fired s c pe .merge err = some (f, u) →
      (s.headSlot c pe).any (fun x => x.l.isNone) = true →
      f.r.2 = false →
      exec (.merge c pe err) s = .next (f.emit f.r.1 false (f.dsts u) u)) ∧
  (∀ (c : Fin 128) (pe : Fin 16) (err : FireErr) (f : Firing) (u : State) (s : State),
      fired s c pe .gate err = some (f, u) →
      f.l.2 = false →
      f.g.2 = false →
      f.g.1 ≠ 0 →
      exec (.gate c pe err) s = .next (f.emit f.l.1 false (f.dsts u) u)) ∧
  (∀ (c : Fin 128) (pe : Fin 16) (err : FireErr) (f : Firing) (u : State) (s : State),
      fired s c pe .gate err = some (f, u) →
      f.l.2 = false →
      f.g = (0, false) →
      exec (.gate c pe err) s = .next (u)) ∧
  (∀ (c : Fin 128) (pe : Fin 16) (err : FireErr) (f : Firing) (u : State) (s : State),
      fired s c pe .sel err = some (f, u) →
      f.poison = none →
      f.g.1 ≠ 0 →
      exec (.sel c pe err) s = .next (f.emit f.l.1 false (f.dsts u) u)) ∧
  (∀ (c : Fin 128) (pe : Fin 16) (err : FireErr) (f : Firing) (u : State) (s : State),
      fired s c pe .sel err = some (f, u) →
      f.poison = none →
      f.g.1 = 0 →
      exec (.sel c pe err) s = .next (f.emit f.r.1 false (f.dsts u) u)) ∧
  (∀ (c : Fin 128) (pe : Fin 16) (err : FireErr) (f : Firing) (u : State) (s : State),
      fired s c pe .gate err = some (f, u) →
      f.l.2 = true →
      f.g = (0, false) →
      exec (.gate c pe err) s = .next (poisonTrap f u)) ∧
  (∀ (c : Fin 128) (pe : Fin 16) (err : FireErr) (f : Firing) (u : State) (s : State),
      fired s c pe .sel err = some (f, u) →
      f.l.2 = false →
      f.r.2 = true →
      f.g.2 = false →
      f.g.1 ≠ 0 →
      exec (.sel c pe err) s = .next (f.emit f.l.1 false (f.dsts u) (poisonTrap f u))) ∧
  (∀ (c : Fin 128) (pe : Fin 16) (err : FireErr) (f : Firing) (u : State) (s : State),
      fired s c pe .sel err = some (f, u) →
      f.l.2 = true →
      f.r.2 = true →
      f.g = (0, false) →
      exec (.sel c pe err) s = .next (poisonOut f f.l.1 (f.dsts u) u)) ∧
  (∀ (c : Fin 128) (pe : Fin 16) (err : FireErr) (f : Firing) (u : State) (s : State),
      fired s c pe .const err = some (f, u) →
      f.l.2 = false →
      exec (.const c pe err) s = .next (f.emit (w48 (iK f.w)) false (f.dsts u) u)) ∧
  (∀ (c : Fin 128) (pe : Fin 16) (err : FireErr) (f : Firing) (u : State) (s : State),
      fired s c pe .sink err = some (f, u) →
      f.l.2 = false →
      exec (.sink c pe err) s = .next (u)) ∧
  (∀ (c : Fin 128) (pe : Fin 16) (err : FireErr) (f : Firing) (u : State) (s : State),
      fired s c pe .prism err = some (f, u) →
      f.l.2 = false →
      exec (.prism c pe err) s = .next (f.emit f.l.1 false (f.dsts u) u)) ∧
  (∀ (c : Fin 128) (pe : Fin 16) (err : FireErr) (f : Firing) (u : State) (r : Dest) (s : State),
      fired s c pe .link err = some (f, u) →
      f.l.2 = false →
      routeEntry u f.c (dstRoute (iK f.w)) f.ep = some r →
      exec (.link c pe err) s = .next (f.emit (mkTag r.pkg r.die r.cluster (dstAddr (iK f.w)) (dstPort (iK f.w)) 0 f.ctx 0) false (f.dsts u) u)) ∧
  (∀ (c : Fin 128) (pe : Fin 16) (err : FireErr) (f : Firing) (u : State) (s : State),
      fired s c pe .now err = some (f, u) →
      f.l.2 = false →
      exec (.now c pe err) s = .next (f.emit s.t false (f.dsts u) u)) ∧
  (∀ (c : Fin 128) (pe : Fin 16) (err : FireErr) (f : Firing) (u : State) (s : State),
      fired s c pe .due err = some (f, u) →
      f.l.2 = false →
      exec (.due c pe err) s = .next (f.emit f.due false (f.dsts u) u)) ∧
  (∀ (c : Fin 128) (pe : Fin 16) (err : FireErr) (f : Firing) (u : State) (s : State),
      fired s c pe .tighten err = some (f, u) →
      f.poison = none →
      exec (.tighten c pe err) s = .next (f.emit f.l.1 false (f.dsts u) u)) ∧
  (∀ (c : Fin 128) (pe : Fin 16) (err : FireErr) (f : Firing) (u : State) (s : State),
      fired s c pe .next err = some (f, u) →
      f.l.2 = false →
      exec (.next c pe err) s = .next (emitAll f.c f.pe f.base (f.ctx / 2 ^ (iK f.w % 8) * 2 ^ (iK f.w % 8) + (f.ctx + 1) % 2 ^ (iK f.w % 8)) f.due f.l.1 false (f.dsts u) u))

/-- A firing takes its instance from the queue, counts its tokens as consumed, and changes no memory where no operand was spilled (R80, R113, R135). -/
def Obligations.FiringConsumesItsInstance : Prop :=
  (∀ (c : Fin 128) (pe : Fin 16) (cls : OpClass) (x : Slot) (f : Firing) (u : State) (s : State),
      s.headSlot c pe = some x →
      x.recs = [] →
      s.flag F.injCtl_ARM 0 = false →
      fired s c pe cls ⟨0, 0, 0, 0, .good⟩ = some (f, u) →
      (let sl := firingSlack s.t ([x.l, x.r, x.g].filterMap (fun o => o.map (·.due)) ++ tightenDue f.w (x.r.map fun _ => f.r)) (iDoff f.w);
      u.cl.slots = s.cl.slots.erase x ∧ f.base = x.tag ∧ f.w = s.instr c (tagInstr x.tag) ∧ f.t0 = s.t ∧ f.due = dueOf s.t sl ∧
      (x.l.all fun o => decide (f.l = (o.data, o.poison))) = true ∧ (x.r.all fun o => decide (f.r = (o.data, o.poison))) = true ∧ (x.g.all fun o => decide (f.g = (o.data, o.poison))) = true ∧
      (x.l = none → f.l = (if kselMask f.w = 1 then w48 (iK f.w) else 0, false)) ∧ (x.r = none → f.r = (if kselMask f.w = 2 then w48 (iK f.w) else 0, false)) ∧
      (x.g = none → f.g = (if kselMask f.w = 4 then w48 (iK f.w) else 0, false)) ∧
      mget 0 u.cl.cnt (tagPart x.tag * 8 + 1) = (mget 0 s.cl.cnt (tagPart x.tag * 8 + 1) + x.inputs) % 2 ^ 48 ∧
      mget 0 u.cl.cnt (tagPart x.tag * 8 + 2) = (mget 0 s.cl.cnt (tagPart x.tag * 8 + 2) + 1) % 2 ^ 48 ∧
      u.get F.lateCnt_COUNT c = (if sl < 0 then (s.get F.lateCnt_COUNT c + 1) % 2 ^ F.lateCnt_COUNT.w else s.get F.lateCnt_COUNT c) ∧
      u = { s with cl := u.cl, regs := u.regs } ∧
      RegsBut [F.lateCnt_COUNT, F.lateCnt_LOGV, F.lateTag_TAG, F.lateT_T, F.lateDue_DUE] s u))

/-- Integer results wrap, clamp, divide and shift at their edges as R51 and R72 say. -/
def Obligations.IntegerEdgesFollowTheTable : Prop :=
  ∀ (l r : W),
      let inS : Int → Bool := fun x => decide (-(2 ^ 47) ≤ x ∧ x < 2 ^ 47);
      let ov : Int → Stk := fun x => if inS x then Stk.none else Stk.v;
      let clamp : Int → W := fun x => if x < -(2 ^ 47) then wMin else if 2 ^ 47 ≤ x then wMax else BitVec.ofInt 48 x;
      intOp 0x010 l r = some (l + r, ov (l.toInt + r.toInt)) ∧
      intOp 0x013 l r = some (l - r, ov (l.toInt - r.toInt)) ∧
      intOp 0x01A l r = some (l * r, ov (l.toInt * r.toInt)) ∧
      intOp 0x011 l r = some (clamp (l.toInt + r.toInt), ov (l.toInt + r.toInt)) ∧
      intOp 0x014 l r = some (clamp (l.toInt - r.toInt), ov (l.toInt - r.toInt)) ∧
      intOp 0x01B l r = some (clamp (l.toInt * r.toInt), ov (l.toInt * r.toInt)) ∧
      intOp 0x01F l 0 = some (if 0 ≤ l.toInt then wMax else wMin, Stk.dz) ∧ intOp 0x020 l 0 = intOp 0x01F l 0 ∧
      intOp 0x022 l 0 = some (l, Stk.dz) ∧ intOp 0x021 l 0 = some (BitVec.allOnes 48, Stk.dz) ∧ intOp 0x023 l 0 = some (l, Stk.dz) ∧
      intOp 0x01F wMin (BitVec.allOnes 48) = some (wMin, Stk.v) ∧ intOp 0x020 wMin (BitVec.allOnes 48) = some (wMax, Stk.v) ∧
      intOp 0x022 wMin (BitVec.allOnes 48) = some (0, Stk.v) ∧
      (r ≠ 0 → ¬(l = wMin ∧ r = BitVec.allOnes 48) → ∃ q m : W,
        intOp 0x01F l r = some (q, Stk.none) ∧ intOp 0x020 l r = some (q, Stk.none) ∧ intOp 0x022 l r = some (m, Stk.none) ∧
        l.toInt = q.toInt * r.toInt + m.toInt ∧ m.toInt.natAbs < r.toInt.natAbs ∧ (m.toInt = 0 ∨ (m.toInt < 0 ↔ l.toInt < 0))) ∧
      (r ≠ 0 → ∃ q m : W, intOp 0x021 l r = some (q, Stk.none) ∧ intOp 0x023 l r = some (m, Stk.none) ∧
        l.toNat = q.toNat * r.toNat + m.toNat ∧ m.toNat < r.toNat) ∧
      (48 ≤ r.toNat % 256 → intOp 0x029 l r = some (0, Stk.none) ∧ intOp 0x02A l r = some (0, Stk.none) ∧
        intOp 0x02B l r = some (if l.toInt < 0 then BitVec.allOnes 48 else 0, Stk.none)) ∧
      (r.toNat % 256 < 48 → intOp 0x029 l r = some (BitVec.ofNat 48 (l.toNat * 2 ^ (r.toNat % 256)), Stk.none) ∧
        intOp 0x02A l r = some (BitVec.ofNat 48 (l.toNat / 2 ^ (r.toNat % 256)), Stk.none)) ∧
      intOp 0x02C l r = some (l.rotateLeft (r.toNat % 256 % 48), Stk.none) ∧ intOp 0x02D l r = some (l.rotateRight (r.toNat % 256 % 48), Stk.none)

/-- L48F comparisons of zeros are equal, and of NaNs unordered with FNV as R75 says. -/
def Obligations.FloatComparisonsOfZerosAndNaNs : Prop :=
  ∀ (rm : Nat) (l r g : W),
      let zero : W → Bool := fun w => decide (bits w.toNat 0 47 = 0);
      let nan : W → Bool := fun w => decide (bits w.toNat 36 11 = 2047 ∧ bits w.toNat 0 36 ≠ 0);
      let snan : W → Bool := fun w => nan w && !w.getLsbD 35;
      let sig : Stk := if snan l || snan r then Stk.fnv else Stk.none;
      let any : Stk := if nan l || nan r then Stk.fnv else Stk.none;
      (zero l = true → zero r = true → compute 0x048 rm l r g = some (1, Stk.none) ∧ compute 0x049 rm l r g = some (0, Stk.none) ∧
        compute 0x04A rm l r g = some (0, Stk.none) ∧ compute 0x04B rm l r g = some (1, Stk.none) ∧ compute 0x04C rm l r g = some (0, Stk.none)) ∧
      ((nan l || nan r) = true → compute 0x048 rm l r g = some (0, sig) ∧ compute 0x049 rm l r g = some (1, sig) ∧
        compute 0x04A rm l r g = some (0, Stk.fnv) ∧ compute 0x04B rm l r g = some (0, Stk.fnv) ∧ compute 0x04C rm l r g = some (1, sig)) ∧
      (∃ a b c d e : W, compute 0x048 rm l r g = some (a, sig) ∧ compute 0x049 rm l r g = some (b, sig) ∧ compute 0x04A rm l r g = some (c, any) ∧
        compute 0x04B rm l r g = some (d, any) ∧ compute 0x04C rm l r g = some (e, sig))

/-- A lane enables, stores, discards or holds its best candidate, and a spill hold ends in a record (R96–R106, R110, R119). -/
def Obligations.TokensAreMatched : Prop :=
  (∀ (c : Fin 128) (pe : Fin 16) (x : Cand) (err : LookupErr) (s : State),
      s.fabricOn c = true →
      mfind s.cl.spillHold (c.val * 16 + pe.val) = none →
      s.flag F.injCtl_ARM 0 = false →
      (s.cl.reclaim.any fun r => r.part = s.cOwner c) = false →
      bestCand s c pe = some x →
      s.cState c = 2 →
      s.slotCount c pe < 16 →
      s.pState (s.cOwner c) ≠ pHalted →
      tagPort x.tok.tag ≠ 3 →
      tagBit0 x.tok.tag = 0 →
      tagPart x.tok.tag = s.cOwner c →
      filtered s (s.cOwner c) (tagCtx x.tok.tag) = false →
      mfind s.ap.oldDiscard (s.cOwner c) = none →
      portMask s c (s.instr c (tagInstr x.tok.tag)) = 2 ^ tagPort x.tok.tag →
      Completes (.tokenAccept c pe err) s fun t => t.cl.slots.length = s.cl.slots.length + 1 ∧ (t.cl.slots.getLast?).map (fun e => (e.cluster, e.pe, e.tag)) = some (c.val, pe.val, tagKey x.tok.tag &&& ~~~(1 : W)) ∧ (t.cl.slots.getLast?).map (fun e => (if tagPort x.tok.tag = 0 then e.l else if tagPort x.tok.tag = 1 then e.r else e.g)) = some (some ⟨x.tok.due, x.tok.data, x.tok.poison, none⟩) ∧ mget 0 t.cl.cnt (s.cOwner c * 8 + 2) = (mget 0 s.cl.cnt (s.cOwner c * 8 + 2) + 1) % 2 ^ 48 ∧ t.cl.ways = s.cl.ways ∧ t.mem = s.mem ∧ t.pending = s.pending ∧ t.t = s.t) ∧
  (∀ (c : Fin 128) (pe : Fin 16) (x : Cand) (s : State),
      s.fabricOn c = true →
      mfind s.cl.spillHold (c.val * 16 + pe.val) = none →
      s.flag F.injCtl_ARM 0 = false →
      (s.cl.reclaim.any fun r => r.part = s.cOwner c) = false →
      bestCand s c pe = some x →
      s.cState c = 2 →
      s.slotCount c pe < 16 →
      s.pState (s.cOwner c) ≠ pHalted →
      tagPort x.tok.tag ≠ 3 →
      tagBit0 x.tok.tag = 0 →
      tagPart x.tok.tag = s.cOwner c →
      filtered s (s.cOwner c) (tagCtx x.tok.tag) = false →
      mfind s.ap.oldDiscard (s.cOwner c) = none →
      portMask s c (s.instr c (tagInstr x.tok.tag)) = 3 →
      tagPort x.tok.tag < 2 →
      opClass (iOpc (s.instr c (tagInstr x.tok.tag))) ≠ .merge →
      (∀ e ∈ setWays (tokenSet x.tok.tag), s.way c e = none) →
      s.chainOf c (tokenSet x.tok.tag) = [] →
      Completes (.tokenAccept c pe ⟨0, 0, 0, 0, none⟩) s fun t => t.way c (tokenSet x.tok.tag * 4) = some x.tok ∧ t.cl.slots = s.cl.slots ∧ mget 0 t.cl.cnt (s.cOwner c * 8 + 2) = (mget 0 s.cl.cnt (s.cOwner c * 8 + 2) + 1) % 2 ^ 48 ∧ t.mem = s.mem ∧ t.pending = s.pending ∧ t.t = s.t) ∧
  (∀ (c : Fin 128) (pe : Fin 16) (x : Cand) (u : Token) (e : Fin 4) (s : State),
      s.fabricOn c = true →
      mfind s.cl.spillHold (c.val * 16 + pe.val) = none →
      s.flag F.injCtl_ARM 0 = false →
      (s.cl.reclaim.any fun r => r.part = s.cOwner c) = false →
      bestCand s c pe = some x →
      s.cState c = 2 →
      s.slotCount c pe < 16 →
      s.pState (s.cOwner c) ≠ pHalted →
      tagPort x.tok.tag ≠ 3 →
      tagBit0 x.tok.tag = 0 →
      tagPart x.tok.tag = s.cOwner c →
      filtered s (s.cOwner c) (tagCtx x.tok.tag) = false →
      mfind s.ap.oldDiscard (s.cOwner c) = none →
      portMask s c (s.instr c (tagInstr x.tok.tag)) = 3 →
      tagPort x.tok.tag < 2 →
      opClass (iOpc (s.instr c (tagInstr x.tok.tag))) ≠ .merge →
      s.way c (tokenSet x.tok.tag * 4 + e) = some u →
      tagKey u.tag = tagKey x.tok.tag →
      tagPort u.tag = 1 - tagPort x.tok.tag →
      (∀ e ∈ setWays (tokenSet x.tok.tag), s.way c e = some u ∨ s.way c e = none) →
      s.chainOf c (tokenSet x.tok.tag) = [] →
      (∀ d : Fin 4, d < e → s.way c (tokenSet x.tok.tag * 4 + d) = none) →
      Completes (.tokenAccept c pe ⟨0, 0, 0, 0, none⟩) s fun t => t.cl.slots.length = s.cl.slots.length + 1 ∧ (t.cl.slots.getLast?).map (fun y => (y.cluster, y.pe, y.tag)) = some (c.val, pe.val, tagKey x.tok.tag &&& ~~~(1 : W)) ∧
      (t.cl.slots.getLast?).map (fun y => (y.l, y.r)) = some (if tagPort x.tok.tag = 0 then (some ⟨x.tok.due, x.tok.data, x.tok.poison, none⟩, some ⟨u.due, u.data, u.poison, none⟩) else (some ⟨u.due, u.data, u.poison, none⟩, some ⟨x.tok.due, x.tok.data, x.tok.poison, none⟩)) ∧
      t.way c (tokenSet x.tok.tag * 4 + e) = none ∧ t.mem = s.mem ∧ t.pending = s.pending ∧ t.t = s.t) ∧
  (∀ (c : Fin 128) (pe : Fin 16) (x : Cand) (err : LookupErr) (s : State),
      s.fabricOn c = true →
      mfind s.cl.spillHold (c.val * 16 + pe.val) = none →
      s.flag F.injCtl_ARM 0 = false →
      (s.cl.reclaim.any fun r => r.part = s.cOwner c) = false →
      bestCand s c pe = some x →
      s.cState c = 2 →
      s.slotCount c pe < 16 →
      s.pState (s.cOwner c) ≠ pHalted →
      tagPart x.tok.tag ≠ s.cOwner c →
      Completes (.tokenAccept c pe err) s fun t => t.get F.violCnt_COUNT c = (s.get F.violCnt_COUNT c + 1) % 2 ^ F.violCnt_COUNT.w ∧ (s.flag F.violInfo_VALID c = false → t.get F.violInfo_KIND c = 1 ∧ t.get F.violAddr_VALUE c = x.tok.tag.toNat) ∧ t.cl.slots = s.cl.slots ∧ t.mem = s.mem ∧ t.pending = s.pending ∧ t.t = s.t) ∧
  (∀ (c : Fin 128) (pe : Fin 16) (x : Cand) (err : LookupErr) (s : State),
      s.fabricOn c = true →
      mfind s.cl.spillHold (c.val * 16 + pe.val) = none →
      s.flag F.injCtl_ARM 0 = false →
      (s.cl.reclaim.any fun r => r.part = s.cOwner c) = false →
      bestCand s c pe = some x →
      s.cState c = 2 →
      s.pState (s.cOwner c) ≠ pHalted →
      16 ≤ s.slotCount c pe →
      mfind s.cl.slotHold (c.val * 16 + pe.val) = none →
      Completes (.tokenAccept c pe err) s fun t => t.get F.pressure_SLOT_HELD c = 1 ∧ t.get F.pressure_EPISODES c = (s.get F.pressure_EPISODES c + 1) % 2 ^ F.pressure_EPISODES.w ∧ mfind t.cl.slotHold (c.val * 16 + pe.val) = some 1 ∧ t.get F.evCfg_COUNT c = (s.get F.evCfg_COUNT c + 1) % 2 ^ 16 ∧ t = { s with regs := t.regs, pcie := t.pcie, cl := { s.cl with slotHold := t.cl.slotHold } } ∧ RegsBut [F.pressure_SLOT_HELD, F.pressure_EPISODES, F.evCfg_COUNT, F.evCfg_PEND] s t) ∧
  (∀ (c : Fin 128) (pe : Fin 16) (k : Token) (r : Nat) (s : State),
      s.fabricOn c = true →
      s.cState c = 2 →
      laneRuns s c = true →
      (s.cl.reclaim.any fun r => r.part = s.cOwner c) = false →
      mfind s.cl.spillHold (c.val * 16 + pe.val) = some k →
      s.spillFull c = false →
      s.freeRecord c = some r →
      Completes (.spillRetry c pe) s fun t => t.record c r = k ∧ t.recordsOf c = s.recordsOf c ++ [r] ∧ mfind t.cl.spillHold (c.val * 16 + pe.val) = none ∧ t.cl.slots = s.cl.slots ∧ t.pending = s.pending ∧ t.t = s.t) ∧
  (∀ (c : Fin 128) (s : State),
      s.fatal = false →
      Completes (.hwmClear c) s fun t => t.get F.matchHwm_ENTRIES_HWM c = s.wayCount c % 2 ^ F.matchHwm_ENTRIES_HWM.w ∧ t.get F.matchHwm_RECORDS_HWM c = (s.recordsOf c).length % 2 ^ F.matchHwm_RECORDS_HWM.w ∧ t.get F.matchHwm_CHAIN_HWM c = s.longest c % 2 ^ F.matchHwm_CHAIN_HWM.w ∧ t = { s with regs := t.regs } ∧ RegsBut [F.matchHwm_ENTRIES_HWM, F.matchHwm_RECORDS_HWM, F.matchHwm_CHAIN_HWM] s t) ∧
  (∀ (c : Fin 128) (s : State),
      s.fatal = false →
      exec (.lateClear c) s = .next (s.set F.lateCnt_COUNT c 0)) ∧
  (∀ (r : Fin 32) (p : Fin 8) (q : Fin 4) (s : State),
      s.fatal = false →
      exec (.lwmClear r p q) s = .next (s.set F.poolStat_LWM (r.val * 32 + p.val * 4 + q.val) (freeBlocks s r p q).length))

/-- ALLOC waits for a block, the allocator grants the lowest, FREE releases it, RETURN goes where its link word says (R82–R84, R123–R132). -/
def Obligations.ContextsAreGrantedAndReleased : Prop :=
  (∀ (c : Fin 128) (pe : Fin 16) (err : FireErr) (f : Firing) (u : State) (q : Nat) (s : State),
      fired s c pe .alloc err = some (f, u) →
      f.poison = none →
      (s.cl.waits.filter fun x => x.cluster = c.val).length < 64 →
      poolOf u (f.c / 4) f.part (iK f.w % 8) = some q →
      exec (.alloc c pe err) s = .next ({ u with cl := { u.cl with waits := u.cl.waits ++ [⟨f.c, f.pe, 0, f.w, f.base, f.due, f.l.1, 0, 0, 0, none, false⟩] } })) ∧
  (∀ (c : Fin 128) (pe : Fin 16) (err : FireErr) (f : Firing) (u : State) (s : State),
      fired s c pe .alloc err = some (f, u) →
      f.poison = none →
      (s.cl.waits.filter fun x => x.cluster = c.val).length < 64 →
      poolOf u (f.c / 4) f.part (iK f.w % 8) = none →
      exec (.alloc c pe err) s = .next (reportP 11 (loc 2 f.c) 0 f.part (f.emit (poisonData causeErr (0x800001000 + 0x100 * f.part)) true [iDst0 f.w] u))) ∧
  (∀ (c : Fin 128) (pe : Fin 16) (err : FireErr) (s : State),
      64 ≤ (s.cl.waits.filter fun x => x.cluster = c.val).length →
      exec (.alloc c pe err) s = .next (s)) ∧
  (∀ (r : Fin 32) (p : Fin 8) (q : PoolPass) (x : Park) (b : Nat) (bs : List Nat) (s : State),
      s.fabricOn (r.val * 4) = true →
      minBy (fun x => sdiff x.due s.t) ((poolWaits s r p q.pool).filter fun x => s.cState x.cluster = 2 || s.cState x.cluster = 3) = some x →
      freeBlocks s r p q.pool = b :: bs →
      canResume s x.cluster x.pe q.err = true →
      routineWord q.err = none →
      s.flag F.injCtl_ARM 0 = false →
      s.pState p ≠ pHalted →
      Completes (.allocGrant r p q) s fun t => (let u : State := { s with cl := { s.cl with waits := s.cl.waits.erase x, blocks := s.cl.blocks ++ [⟨p, r, q.pool, b, s.get F.poolCfg_G (r.val * 32 + p.val * 4 + q.pool.val), s.t⟩] } };
      t = emitTo x.cluster x.pe x.tag b x.due x.l false (iDst0 x.word) (countProg p (u.set F.poolStat_LWM (r.val * 32 + p.val * 4 + q.pool.val) (min (s.get F.poolStat_LWM (r.val * 32 + p.val * 4 + q.pool.val)) (freeBlocks u r p q.pool).length)))) ∧
      (∀ c ∈ bs, b ≤ c) ∧ t.cl.waits = s.cl.waits.erase x ∧ t.cl.blocks = s.cl.blocks ++ [⟨p, r, q.pool, b, s.get F.poolCfg_G (r.val * 32 + p.val * 4 + q.pool.val), s.t⟩] ∧ t.mem = s.mem ∧ t.pending = s.pending ∧ t.t = s.t) ∧
  (∀ (r : Fin 32) (p : Fin 8) (q : PoolPass) (x : Park) (b u : Nat) (bs : List Nat) (s : State),
      s.fabricOn (r.val * 4) = true →
      minBy (fun x => sdiff x.due s.t) ((poolWaits s r p q.pool).filter fun x => s.cState x.cluster = 2 || s.cState x.cluster = 3) = some x →
      freeBlocks s r p q.pool = b :: bs →
      canResume s x.cluster x.pe q.err = true →
      routineWord q.err = some u →
      s.flag F.injCtl_ARM 0 = false →
      s.pState p ≠ pHalted →
      Completes (.allocGrant r p q) s fun t => (let v : State := { s with cl := { s.cl with waits := s.cl.waits.erase x, blocks := s.cl.blocks ++ [⟨p, r, q.pool, b, s.get F.poolCfg_G (r.val * 32 + p.val * 4 + q.pool.val), s.t⟩] } };
      t = machineCheck (parkedFiring x) u false false false none [iDst0 x.word] (countProg p (v.set F.poolStat_LWM (r.val * 32 + p.val * 4 + q.pool.val) (min (s.get F.poolStat_LWM (r.val * 32 + p.val * 4 + q.pool.val)) (freeBlocks v r p q.pool).length))))) ∧
  (∀ (r : Fin 32) (p : Fin 8) (q : PoolPass) (x : Park) (s : State),
      s.fabricOn (r.val * 4) = true →
      minBy (fun x => sdiff x.due s.t) ((poolWaits s r p q.pool).filter fun x => s.cState x.cluster = 2 || s.cState x.cluster = 3) = some x →
      canResume s x.cluster x.pe q.err = false →
      s.pState p ≠ pHalted →
      exec (.allocGrant r p q) s = .next (s)) ∧
  (∀ (c : Fin 128) (pe : Fin 16) (err : FireErr) (f : Firing) (u : State) (s : State),
      fired s c pe .free err = some (f, u) →
      f.poison = none →
      (f.ctx / 2 ^ (iK f.w % 8) = 0 ∨ granuleOwner u f.part f.ctx = none) →
      exec (.free c pe err) s = .next (reportP 11 (loc 2 f.c) 0 f.part u)) ∧
  (∀ (c : Fin 128) (pe : Fin 16) (err : FireErr) (f : Firing) (u : State) (r q : Nat) (s : State),
      fired s c pe .free err = some (f, u) →
      f.poison = none →
      f.ctx / 2 ^ (iK f.w % 8) ≠ 0 →
      granuleOwner u f.part f.ctx = some (r, q) →
      exec (.free c pe err) s = .next (send (Flit.ofFiring (mkFlit 1 false (reqPay (mkTag u.pkg (r / 4) (r % 4 * 4) 0 0 0 0 0 ||| 0x800000000) (w48 f.ctx) 11 f.part false (u.pkg * 2 ^ 15 + f.c / 16 * 2 ^ 11 + f.c % 16 * 2 ^ 7 + f.pe * 8) (iK f.w % 8)) [] f.part (startUrg u f.part (dueBand u f.due)) f.c) f.base f.due) u)) ∧
  (∀ (f : Flit) (rest : List Flit) (s : State),
      s.fatal = false →
      s.net.relQ = f :: rest →
      badReq f = false →
      (match granuleOwner s (reqPart f.pay) ((reqData f.pay).toNat % 2 ^ 14) with | some (r, q) => decide (s.get F.poolCfg_G (r * 32 + reqPart f.pay * 4 + q) = (reqArg f.pay % 8)) && decide ((((reqData f.pay).toNat % 2 ^ 14) / 2 ^ (reqArg f.pay % 8) * 2 ^ (reqArg f.pay % 8)) ≠ 0) && (s.cl.blocks.any fun b => b.part = reqPart f.pay && b.base = (((reqData f.pay).toNat % 2 ^ 14) / 2 ^ (reqArg f.pay % 8) * 2 ^ (reqArg f.pay % 8))) | none => false) = true →
      exec (.release) s = .next ({ s with net := { s.net with relQ := rest }, cl := { s.cl with blocks := s.cl.blocks.filter fun b => !(b.part = reqPart f.pay && b.base = (((reqData f.pay).toNat % 2 ^ 14) / 2 ^ (reqArg f.pay % 8) * 2 ^ (reqArg f.pay % 8))) } })) ∧
  (∀ (f : Flit) (rest : List Flit) (s : State),
      s.fatal = false →
      s.net.relQ = f :: rest →
      badReq f = false →
      (match granuleOwner s (reqPart f.pay) ((reqData f.pay).toNat % 2 ^ 14) with | some (r, q) => decide (s.get F.poolCfg_G (r * 32 + reqPart f.pay * 4 + q) = (reqArg f.pay % 8)) && decide ((((reqData f.pay).toNat % 2 ^ 14) / 2 ^ (reqArg f.pay % 8) * 2 ^ (reqArg f.pay % 8)) ≠ 0) && (s.cl.blocks.any fun b => b.part = reqPart f.pay && b.base = (((reqData f.pay).toNat % 2 ^ 14) / 2 ^ (reqArg f.pay % 8) * 2 ^ (reqArg f.pay % 8))) | none => false) = false →
      exec (.release) s = .next (reportP 11 (loc 2 (cIdx (bits (reqRet f.pay) 11 4) (bits (reqRet f.pay) 7 4))) 0 (reqPart f.pay) { s with net := { s.net with relQ := rest } })) ∧
  (∀ (f : Flit) (rest : List Flit) (s : State),
      s.fatal = false →
      s.net.relQ = f :: rest →
      badReq f = true →
      exec (.release) s = .next (reqErr (loc 2 f.node) f { s with net := { s.net with relQ := rest } })) ∧
  (∀ (c : Fin 128) (pe : Fin 16) (err : FireErr) (f : Firing) (u : State) (g : W) (s : State),
      fired s c pe .ret err = some (f, u) →
      f.l.2 = false →
      f.r.2 = false →
      linkTarget u f f.r.1 = some g →
      exec (.return_ c pe err) s = .next (emitToken f.c f.pe ⟨g, f.due, f.l.1, false⟩ u)) ∧
  (∀ (c : Fin 128) (pe : Fin 16) (err : FireErr) (f : Firing) (u : State) (s : State),
      fired s c pe .ret err = some (f, u) →
      f.l.2 = false →
      f.r.2 = false →
      linkTarget u f f.r.1 = none →
      exec (.return_ c pe err) s = .next (reportP 5 (loc 2 f.c) 0 f.part u)) ∧
  (∀ (c : Fin 128) (pe : Fin 16) (err : FireErr) (f : Firing) (u : State) (s : State),
      fired s c pe .ret err = some (f, u) →
      f.r.2 = true →
      exec (.return_ c pe err) s = .next (poisonTrap f u))

/-- A bank, Lens or output operation parks its firing and times its request; a bad bank address answers ERR at once (R85–R92, R154, R280). -/
def Obligations.RequestsLeaveTheirPe : Prop :=
  (∀ (c : Fin 128) (pe : Fin 16) (err : FireErr) (f : Firing) (u : State) (e : Nat) (s : State),
      s.heldSeq c pe = none →
      fired s c pe .load err = some (f, u) →
      f.poison = none →
      addrBad f.l.1 = false →
      freePark u f.c f.pe = some e →
      tagPkg f.l.1 = u.pkg →
      cIdx (tagDie f.l.1) (tagCluster f.l.1) = f.c →
      Completes (.load c pe err) s fun t => (let ret := u.pkg * 2 ^ 15 + f.c / 16 * 2 ^ 11 + f.c % 16 * 2 ^ 7 + f.pe * 8 + e;
      t.cl.parks = u.cl.parks ++ [⟨f.c, f.pe, e, f.w, f.base, f.due, f.l.1, f.r.1, f.g.1, f.l.1, none, false⟩] ∧ (t.net.timed.getLast?).map (fun y => (y.ret, y.addr, y.op, y.part, y.left)) = some (ret, f.l.1, 3, f.part, u.ticks) ∧
      (mget [] t.bank.direct f.c) = mget [] u.bank.direct f.c ++ [directReq 3 f.l.1 f.r.1 f.part ret (startUrg u f.part (dueBand u f.due)) f.base f.due f.pe] ∧ t = { u with cl := t.cl, net := t.net, bank := t.bank })) ∧
  (∀ (c : Fin 128) (pe : Fin 16) (err : FireErr) (f : Firing) (u : State) (e : Nat) (s : State),
      s.heldSeq c pe = none →
      fired s c pe .load err = some (f, u) →
      f.poison = none →
      addrBad f.l.1 = false →
      freePark u f.c f.pe = some e →
      (tagPkg f.l.1 ≠ u.pkg ∨ cIdx (tagDie f.l.1) (tagCluster f.l.1) ≠ f.c) →
      Completes (.load c pe err) s fun t => (let ret := u.pkg * 2 ^ 15 + f.c / 16 * 2 ^ 11 + f.c % 16 * 2 ^ 7 + f.pe * 8 + e;
      t = send (Flit.ofFiring (mkFlit 1 false (reqPay f.l.1 f.r.1 3 f.part false ret 0) [] f.part (startUrg u f.part (dueBand u f.due)) f.c) f.base f.due) (startTimer ret f.l.1 3 f.part false 0 (parkFiring f e f.l.1 u)))) ∧
  (∀ (c : Fin 128) (pe : Fin 16) (err : FireErr) (f : Firing) (u : State) (e : Nat) (s : State),
      s.heldSeq c pe = none →
      fired s c pe .store err = some (f, u) →
      f.poison = none →
      addrBad f.l.1 = false →
      freePark u f.c f.pe = some e →
      tagPkg f.l.1 = u.pkg →
      cIdx (tagDie f.l.1) (tagCluster f.l.1) = f.c →
      Completes (.store c pe err) s fun t => (let ret := u.pkg * 2 ^ 15 + f.c / 16 * 2 ^ 11 + f.c % 16 * 2 ^ 7 + f.pe * 8 + e;
      t.cl.parks = u.cl.parks ++ [⟨f.c, f.pe, e, f.w, f.base, f.due, f.l.1, f.r.1, f.g.1, f.l.1, none, false⟩] ∧ (t.net.timed.getLast?).map (fun y => (y.ret, y.addr, y.op, y.part, y.left)) = some (ret, f.l.1, 4, f.part, u.ticks) ∧
      (mget [] t.bank.direct f.c) = mget [] u.bank.direct f.c ++ [directReq 4 f.l.1 f.r.1 f.part ret (startUrg u f.part (dueBand u f.due)) f.base f.due f.pe] ∧ t = { u with cl := t.cl, net := t.net, bank := t.bank })) ∧
  (∀ (c : Fin 128) (pe : Fin 16) (err : FireErr) (f : Firing) (u : State) (e : Nat) (s : State),
      s.heldSeq c pe = none →
      fired s c pe .store err = some (f, u) →
      f.poison = none →
      addrBad f.l.1 = false →
      freePark u f.c f.pe = some e →
      (tagPkg f.l.1 ≠ u.pkg ∨ cIdx (tagDie f.l.1) (tagCluster f.l.1) ≠ f.c) →
      Completes (.store c pe err) s fun t => (let ret := u.pkg * 2 ^ 15 + f.c / 16 * 2 ^ 11 + f.c % 16 * 2 ^ 7 + f.pe * 8 + e;
      t = send (Flit.ofFiring (mkFlit 1 false (reqPay f.l.1 f.r.1 4 f.part false ret 0) [] f.part (startUrg u f.part (dueBand u f.due)) f.c) f.base f.due) (startTimer ret f.l.1 4 f.part false 0 (parkFiring f e f.l.1 u)))) ∧
  (∀ (c : Fin 128) (pe : Fin 16) (err : FireErr) (f : Firing) (u : State) (e : Nat) (s : State),
      s.heldSeq c pe = none →
      fired s c pe .read err = some (f, u) →
      f.poison = none →
      addrBad f.l.1 = false →
      freePark u f.c f.pe = some e →
      tagPkg f.l.1 = u.pkg →
      cIdx (tagDie f.l.1) (tagCluster f.l.1) = f.c →
      Completes (.read c pe err) s fun t => (let ret := u.pkg * 2 ^ 15 + f.c / 16 * 2 ^ 11 + f.c % 16 * 2 ^ 7 + f.pe * 8 + e;
      t.cl.parks = u.cl.parks ++ [⟨f.c, f.pe, e, f.w, f.base, f.due, f.l.1, f.r.1, f.g.1, f.l.1, none, false⟩] ∧ (t.net.timed.getLast?).map (fun y => (y.ret, y.addr, y.op, y.part, y.left)) = some (ret, f.l.1, 5, f.part, u.ticks) ∧
      (mget [] t.bank.direct f.c) = mget [] u.bank.direct f.c ++ [directReq 5 f.l.1 f.r.1 f.part ret (startUrg u f.part (dueBand u f.due)) f.base f.due f.pe] ∧ t = { u with cl := t.cl, net := t.net, bank := t.bank })) ∧
  (∀ (c : Fin 128) (pe : Fin 16) (err : FireErr) (f : Firing) (u : State) (e : Nat) (s : State),
      s.heldSeq c pe = none →
      fired s c pe .read err = some (f, u) →
      f.poison = none →
      addrBad f.l.1 = false →
      freePark u f.c f.pe = some e →
      (tagPkg f.l.1 ≠ u.pkg ∨ cIdx (tagDie f.l.1) (tagCluster f.l.1) ≠ f.c) →
      Completes (.read c pe err) s fun t => (let ret := u.pkg * 2 ^ 15 + f.c / 16 * 2 ^ 11 + f.c % 16 * 2 ^ 7 + f.pe * 8 + e;
      t = send (Flit.ofFiring (mkFlit 1 false (reqPay f.l.1 f.r.1 5 f.part false ret 0) [] f.part (startUrg u f.part (dueBand u f.due)) f.c) f.base f.due) (startTimer ret f.l.1 5 f.part false 0 (parkFiring f e f.l.1 u)))) ∧
  (∀ (c : Fin 128) (pe : Fin 16) (err : FireErr) (f : Firing) (u : State) (e : Nat) (s : State),
      s.heldSeq c pe = none →
      fired s c pe .write err = some (f, u) →
      f.poison = none →
      addrBad f.l.1 = false →
      freePark u f.c f.pe = some e →
      tagPkg f.l.1 = u.pkg →
      cIdx (tagDie f.l.1) (tagCluster f.l.1) = f.c →
      Completes (.write c pe err) s fun t => (let ret := u.pkg * 2 ^ 15 + f.c / 16 * 2 ^ 11 + f.c % 16 * 2 ^ 7 + f.pe * 8 + e;
      t.cl.parks = u.cl.parks ++ [⟨f.c, f.pe, e, f.w, f.base, f.due, f.l.1, f.r.1, f.g.1, f.l.1, none, false⟩] ∧ (t.net.timed.getLast?).map (fun y => (y.ret, y.addr, y.op, y.part, y.left)) = some (ret, f.l.1, 6, f.part, u.ticks) ∧
      (mget [] t.bank.direct f.c) = mget [] u.bank.direct f.c ++ [directReq 6 f.l.1 f.r.1 f.part ret (startUrg u f.part (dueBand u f.due)) f.base f.due f.pe] ∧ t = { u with cl := t.cl, net := t.net, bank := t.bank })) ∧
  (∀ (c : Fin 128) (pe : Fin 16) (err : FireErr) (f : Firing) (u : State) (e : Nat) (s : State),
      s.heldSeq c pe = none →
      fired s c pe .write err = some (f, u) →
      f.poison = none →
      addrBad f.l.1 = false →
      freePark u f.c f.pe = some e →
      (tagPkg f.l.1 ≠ u.pkg ∨ cIdx (tagDie f.l.1) (tagCluster f.l.1) ≠ f.c) →
      Completes (.write c pe err) s fun t => (let ret := u.pkg * 2 ^ 15 + f.c / 16 * 2 ^ 11 + f.c % 16 * 2 ^ 7 + f.pe * 8 + e;
      t = send (Flit.ofFiring (mkFlit 1 false (reqPay f.l.1 f.r.1 6 f.part false ret 0) [] f.part (startUrg u f.part (dueBand u f.due)) f.c) f.base f.due) (startTimer ret f.l.1 6 f.part false 0 (parkFiring f e f.l.1 u)))) ∧
  (∀ (c : Fin 128) (pe : Fin 16) (err : FireErr) (f : Firing) (u : State) (e : Nat) (s : State),
      s.heldSeq c pe = none →
      fired s c pe .iclr err = some (f, u) →
      f.poison = none →
      addrBad f.l.1 = false →
      freePark u f.c f.pe = some e →
      tagPkg f.l.1 = u.pkg →
      cIdx (tagDie f.l.1) (tagCluster f.l.1) = f.c →
      Completes (.iclr c pe err) s fun t => (let ret := u.pkg * 2 ^ 15 + f.c / 16 * 2 ^ 11 + f.c % 16 * 2 ^ 7 + f.pe * 8 + e;
      t.cl.parks = u.cl.parks ++ [⟨f.c, f.pe, e, f.w, f.base, f.due, f.l.1, f.r.1, f.g.1, f.l.1, none, false⟩] ∧ (t.net.timed.getLast?).map (fun y => (y.ret, y.addr, y.op, y.part, y.left)) = some (ret, f.l.1, 7, f.part, u.ticks) ∧
      (mget [] t.bank.direct f.c) = mget [] u.bank.direct f.c ++ [directReq 7 f.l.1 f.r.1 f.part ret (startUrg u f.part (dueBand u f.due)) f.base f.due f.pe] ∧ t = { u with cl := t.cl, net := t.net, bank := t.bank })) ∧
  (∀ (c : Fin 128) (pe : Fin 16) (err : FireErr) (f : Firing) (u : State) (e : Nat) (s : State),
      s.heldSeq c pe = none →
      fired s c pe .iclr err = some (f, u) →
      f.poison = none →
      addrBad f.l.1 = false →
      freePark u f.c f.pe = some e →
      (tagPkg f.l.1 ≠ u.pkg ∨ cIdx (tagDie f.l.1) (tagCluster f.l.1) ≠ f.c) →
      Completes (.iclr c pe err) s fun t => (let ret := u.pkg * 2 ^ 15 + f.c / 16 * 2 ^ 11 + f.c % 16 * 2 ^ 7 + f.pe * 8 + e;
      t = send (Flit.ofFiring (mkFlit 1 false (reqPay f.l.1 f.r.1 7 f.part false ret 0) [] f.part (startUrg u f.part (dueBand u f.due)) f.c) f.base f.due) (startTimer ret f.l.1 7 f.part false 0 (parkFiring f e f.l.1 u)))) ∧
  (∀ (c : Fin 128) (pe : Fin 16) (err : FireErr) (f : Firing) (u : State) (e : Nat) (s : State),
      s.heldSeq c pe = none →
      fired s c pe .fetchAdd err = some (f, u) →
      f.poison = none →
      addrBad f.l.1 = false →
      freePark u f.c f.pe = some e →
      tagPkg f.l.1 = u.pkg →
      cIdx (tagDie f.l.1) (tagCluster f.l.1) = f.c →
      Completes (.fetchAdd c pe err) s fun t => (let ret := u.pkg * 2 ^ 15 + f.c / 16 * 2 ^ 11 + f.c % 16 * 2 ^ 7 + f.pe * 8 + e;
      t.cl.parks = u.cl.parks ++ [⟨f.c, f.pe, e, f.w, f.base, f.due, f.l.1, f.r.1, f.g.1, f.l.1, none, false⟩] ∧ (t.net.timed.getLast?).map (fun y => (y.ret, y.addr, y.op, y.part, y.left)) = some (ret, f.l.1, 8, f.part, u.ticks) ∧
      (mget [] t.bank.direct f.c) = mget [] u.bank.direct f.c ++ [directReq 8 f.l.1 f.r.1 f.part ret (startUrg u f.part (dueBand u f.due)) f.base f.due f.pe] ∧ t = { u with cl := t.cl, net := t.net, bank := t.bank })) ∧
  (∀ (c : Fin 128) (pe : Fin 16) (err : FireErr) (f : Firing) (u : State) (e : Nat) (s : State),
      s.heldSeq c pe = none →
      fired s c pe .fetchAdd err = some (f, u) →
      f.poison = none →
      addrBad f.l.1 = false →
      freePark u f.c f.pe = some e →
      (tagPkg f.l.1 ≠ u.pkg ∨ cIdx (tagDie f.l.1) (tagCluster f.l.1) ≠ f.c) →
      Completes (.fetchAdd c pe err) s fun t => (let ret := u.pkg * 2 ^ 15 + f.c / 16 * 2 ^ 11 + f.c % 16 * 2 ^ 7 + f.pe * 8 + e;
      t = send (Flit.ofFiring (mkFlit 1 false (reqPay f.l.1 f.r.1 8 f.part false ret 0) [] f.part (startUrg u f.part (dueBand u f.due)) f.c) f.base f.due) (startTimer ret f.l.1 8 f.part false 0 (parkFiring f e f.l.1 u)))) ∧
  (∀ (c : Fin 128) (pe : Fin 16) (err : FireErr) (f : Firing) (u : State) (e : Nat) (s : State),
      s.heldSeq c pe = none →
      fired s c pe .swap err = some (f, u) →
      f.poison = none →
      addrBad f.l.1 = false →
      freePark u f.c f.pe = some e →
      tagPkg f.l.1 = u.pkg →
      cIdx (tagDie f.l.1) (tagCluster f.l.1) = f.c →
      Completes (.swap c pe err) s fun t => (let ret := u.pkg * 2 ^ 15 + f.c / 16 * 2 ^ 11 + f.c % 16 * 2 ^ 7 + f.pe * 8 + e;
      t.cl.parks = u.cl.parks ++ [⟨f.c, f.pe, e, f.w, f.base, f.due, f.l.1, f.r.1, f.g.1, f.l.1, none, false⟩] ∧ (t.net.timed.getLast?).map (fun y => (y.ret, y.addr, y.op, y.part, y.left)) = some (ret, f.l.1, 9, f.part, u.ticks) ∧
      (mget [] t.bank.direct f.c) = mget [] u.bank.direct f.c ++ [directReq 9 f.l.1 f.r.1 f.part ret (startUrg u f.part (dueBand u f.due)) f.base f.due f.pe] ∧ t = { u with cl := t.cl, net := t.net, bank := t.bank })) ∧
  (∀ (c : Fin 128) (pe : Fin 16) (err : FireErr) (f : Firing) (u : State) (e : Nat) (s : State),
      s.heldSeq c pe = none →
      fired s c pe .swap err = some (f, u) →
      f.poison = none →
      addrBad f.l.1 = false →
      freePark u f.c f.pe = some e →
      (tagPkg f.l.1 ≠ u.pkg ∨ cIdx (tagDie f.l.1) (tagCluster f.l.1) ≠ f.c) →
      Completes (.swap c pe err) s fun t => (let ret := u.pkg * 2 ^ 15 + f.c / 16 * 2 ^ 11 + f.c % 16 * 2 ^ 7 + f.pe * 8 + e;
      t = send (Flit.ofFiring (mkFlit 1 false (reqPay f.l.1 f.r.1 9 f.part false ret 0) [] f.part (startUrg u f.part (dueBand u f.due)) f.c) f.base f.due) (startTimer ret f.l.1 9 f.part false 0 (parkFiring f e f.l.1 u)))) ∧
  (∀ (c : Fin 128) (pe : Fin 16) (err : FireErr) (f : Firing) (u : State) (s : State),
      s.heldSeq c pe = none →
      fired s c pe .load err = some (f, u) →
      f.poison = none →
      addrBad f.l.1 = false →
      freePark u f.c f.pe = none →
      exec (.load c pe err) s = .next (holdSeq f none u)) ∧
  (∀ (c : Fin 128) (pe : Fin 16) (err : FireErr) (f : Firing) (u : State) (s : State),
      s.heldSeq c pe = none →
      fired s c pe .load err = some (f, u) →
      f.poison = none →
      addrBad f.l.1 = true →
      exec (.load c pe err) s = .next (reportP 10 (loc 2 f.c) 0 f.part (f.emit (poisonData causeErr f.l.1.toNat) true (f.dsts u) u))) ∧
  (∀ (c : Fin 128) (pe : Fin 16) (err : FireErr) (f : Firing) (u : State) (e : Nat) (s : State),
      s.heldSeq c pe = none →
      fired s c pe .angleAt err = some (f, u) →
      f.poison = none →
      freePark u f.c f.pe = some e →
      (u.cl.injQ.any fun g => g.ty = 2 && rspRet g.pay = (u.pkg * 2 ^ 15 + f.c / 16 * 2 ^ 11 + f.c % 16 * 2 ^ 7 + f.pe * 8 + e)) = false →
      u.pkgOk (u.pkg % 16) = true →
      Completes (.angleAt c pe err) s fun t => (let a := w48 (u.pkg * 2 ^ 44 + 8 * 2 ^ 40 + 0 + iOpc f.w % 8);
      (t.cl.parks.getLast?).map (fun y => (y.cluster, y.pe, y.entry, y.addr)) = some (f.c, f.pe, e, a) ∧ t.cl.parks.length = u.cl.parks.length + 1 ∧
      (t.net.timed.getLast?).map (fun y => (y.addr, y.op, y.part, y.left)) = some (a, 10, f.part, u.ticks) ∧
      ((t.net.flits ++ t.cl.injQ).any fun x => decide (x.node = f.c ∧ x.pay = reqPay a f.l.1 10 f.part false (u.pkg * 2 ^ 15 + f.c / 16 * 2 ^ 11 + f.c % 16 * 2 ^ 7 + f.pe * 8 + e) (f.t0.toNat % 2 ^ 21) ∧ x.side = ⟨0, f.base, f.due⟩)) = true ∧ t.mem = u.mem ∧ t.pending = u.pending ∧ t.t = u.t)) ∧
  (∀ (c : Fin 128) (pe : Fin 16) (err : FireErr) (f : Firing) (u : State) (e : Nat) (s : State),
      s.heldSeq c pe = none →
      fired s c pe .timeAt err = some (f, u) →
      f.poison = none →
      freePark u f.c f.pe = some e →
      (u.cl.injQ.any fun g => g.ty = 2 && rspRet g.pay = (u.pkg * 2 ^ 15 + f.c / 16 * 2 ^ 11 + f.c % 16 * 2 ^ 7 + f.pe * 8 + e)) = false →
      u.pkgOk (u.pkg % 16) = true →
      Completes (.timeAt c pe err) s fun t => (let a := w48 (u.pkg * 2 ^ 44 + 8 * 2 ^ 40 + 8 + iOpc f.w % 8);
      (t.cl.parks.getLast?).map (fun y => (y.cluster, y.pe, y.entry, y.addr)) = some (f.c, f.pe, e, a) ∧ t.cl.parks.length = u.cl.parks.length + 1 ∧
      (t.net.timed.getLast?).map (fun y => (y.addr, y.op, y.part, y.left)) = some (a, 10, f.part, u.ticks) ∧
      ((t.net.flits ++ t.cl.injQ).any fun x => decide (x.node = f.c ∧ x.pay = reqPay a f.l.1 10 f.part false (u.pkg * 2 ^ 15 + f.c / 16 * 2 ^ 11 + f.c % 16 * 2 ^ 7 + f.pe * 8 + e) (f.t0.toNat % 2 ^ 21) ∧ x.side = ⟨0, f.base, f.due⟩)) = true ∧ t.mem = u.mem ∧ t.pending = u.pending ∧ t.t = u.t)) ∧
  (∀ (c : Fin 128) (pe : Fin 16) (err : FireErr) (f : Firing) (u : State) (e : Nat) (s : State),
      s.heldSeq c pe = none →
      fired s c pe .out err = some (f, u) →
      f.poison = none →
      dstV (iDst0 f.w) = true →
      freePark u f.c f.pe = some e →
      (u.cl.injQ.any fun g => g.ty = 2 && rspRet g.pay = (u.pkg * 2 ^ 15 + f.c / 16 * 2 ^ 11 + f.c % 16 * 2 ^ 7 + f.pe * 8 + e)) = false →
      u.pkgOk (bits (iK f.w) 40 4) = true →
      Completes (.out c pe err) s fun t => (t.cl.parks.getLast?).map (fun y => (y.cluster, y.pe, y.entry)) = some (f.c, f.pe, e) ∧ t.cl.parks.length = u.cl.parks.length + 1 ∧
      (t.net.timed.getLast?).map (fun y => (y.op, y.part, y.left)) = some (12, f.part, u.ticks) ∧ ((t.net.flits ++ t.cl.injQ).any fun x => decide (x.node = f.c ∧ x.ty = 3 ∧ x.pay = reqPay (w48 (bits (iK f.w) 40 4 * 2 ^ 44 + 8 * 2 ^ 40 + bits (iK f.w) 44 4 * 2 ^ 36 + bits (iK f.w) 0 16)) f.l.1 12 f.part false (u.pkg * 2 ^ 15 + f.c / 16 * 2 ^ 11 + f.c % 16 * 2 ^ 7 + f.pe * 8 + e) (0 * 2 ^ 20 + 1 * 2 ^ 19 + 1) ∧ x.bodies = [f.due ++ w48 (f.ctx + f.ep * 2 ^ 14) ++ (0 : W)] ∧ x.side = ⟨0, f.base, f.due⟩)) = true ∧ t.mem = u.mem ∧ t.pending = u.pending ∧ t.t = u.t) ∧
  (∀ (c : Fin 128) (pe : Fin 16) (err : FireErr) (f : Firing) (u : State) (s : State),
      s.heldSeq c pe = none →
      fired s c pe .out err = some (f, u) →
      f.poison = none →
      dstV (iDst0 f.w) = false →
      u.pkgOk (bits (iK f.w) 40 4) = true →
      Completes (.out c pe err) s fun t => t.cl.parks = u.cl.parks ∧ ((t.net.flits ++ t.cl.injQ).any fun x => decide (x.node = f.c ∧ x.ty = 3 ∧ x.pay = reqPay (w48 (bits (iK f.w) 40 4 * 2 ^ 44 + 8 * 2 ^ 40 + bits (iK f.w) 44 4 * 2 ^ 36 + bits (iK f.w) 0 16)) f.l.1 12 f.part false (u.pkg * 2 ^ 15 + f.c / 16 * 2 ^ 11 + f.c % 16 * 2 ^ 7 + f.pe * 8) (0 * 2 ^ 20 + 0 * 2 ^ 19 + 1) ∧ x.bodies = [f.due ++ w48 (f.ctx + f.ep * 2 ^ 14) ++ (0 : W)] ∧ x.side = ⟨0, f.base, f.due⟩)) = true ∧ t.mem = u.mem ∧ t.pending = u.pending ∧ t.t = u.t) ∧
  (∀ (c : Fin 128) (pe : Fin 16) (err : FireErr) (f : Firing) (u : State) (e : Nat) (s : State),
      s.heldSeq c pe = none →
      fired s c pe .emitAt err = some (f, u) →
      f.poison = none →
      dstV (iDst0 f.w) = true →
      freePark u f.c f.pe = some e →
      (u.cl.injQ.any fun g => g.ty = 2 && rspRet g.pay = (u.pkg * 2 ^ 15 + f.c / 16 * 2 ^ 11 + f.c % 16 * 2 ^ 7 + f.pe * 8 + e)) = false →
      u.pkgOk (bits (iK f.w) 40 4) = true →
      Completes (.emitAt c pe err) s fun t => (t.cl.parks.getLast?).map (fun y => (y.cluster, y.pe, y.entry)) = some (f.c, f.pe, e) ∧ t.cl.parks.length = u.cl.parks.length + 1 ∧
      (t.net.timed.getLast?).map (fun y => (y.op, y.part, y.left)) = some (12, f.part, u.ticks) ∧ ((t.net.flits ++ t.cl.injQ).any fun x => decide (x.node = f.c ∧ x.ty = 3 ∧ x.pay = reqPay (w48 (bits (iK f.w) 40 4 * 2 ^ 44 + 8 * 2 ^ 40 + bits (iK f.w) 44 4 * 2 ^ 36 + bits (iK f.w) 0 16)) f.l.1 12 f.part false (u.pkg * 2 ^ 15 + f.c / 16 * 2 ^ 11 + f.c % 16 * 2 ^ 7 + f.pe * 8 + e) (1 * 2 ^ 20 + 1 * 2 ^ 19 + 1) ∧ x.bodies = [f.due ++ w48 (f.ctx + f.ep * 2 ^ 14) ++ (0 : W)] ∧ x.side = ⟨0, f.base, f.due⟩)) = true ∧ t.mem = u.mem ∧ t.pending = u.pending ∧ t.t = u.t) ∧
  (∀ (c : Fin 128) (pe : Fin 16) (err : FireErr) (f : Firing) (u : State) (s : State),
      s.heldSeq c pe = none →
      fired s c pe .emitAt err = some (f, u) →
      f.poison = none →
      dstV (iDst0 f.w) = false →
      u.pkgOk (bits (iK f.w) 40 4) = true →
      Completes (.emitAt c pe err) s fun t => t.cl.parks = u.cl.parks ∧ ((t.net.flits ++ t.cl.injQ).any fun x => decide (x.node = f.c ∧ x.ty = 3 ∧ x.pay = reqPay (w48 (bits (iK f.w) 40 4 * 2 ^ 44 + 8 * 2 ^ 40 + bits (iK f.w) 44 4 * 2 ^ 36 + bits (iK f.w) 0 16)) f.l.1 12 f.part false (u.pkg * 2 ^ 15 + f.c / 16 * 2 ^ 11 + f.c % 16 * 2 ^ 7 + f.pe * 8) (1 * 2 ^ 20 + 0 * 2 ^ 19 + 1) ∧ x.bodies = [f.due ++ w48 (f.ctx + f.ep * 2 ^ 14) ++ (0 : W)] ∧ x.side = ⟨0, f.base, f.due⟩)) = true ∧ t.mem = u.mem ∧ t.pending = u.pending ∧ t.t = u.t)

/-- A one-word user routine emits its ALU result; a response resumes the parked firing it names; a deferred answer completes its READ (R148, R152, R154, R295). -/
def Obligations.UserRoutinesAndResponses : Prop :=
  (∀ (c : Fin 128) (pe : Fin 16) (err : FireErr) (f : Firing) (u : State) (w : Nat) (v : W) (b : Stk) (s : State),
      fired s c pe .user err = some (f, u) →
      f.poison = none →
      err.pass = .good →
      u.get F.dispatch_ENTRY (f.c * 1024 + iOpc f.w) ≥ 0x600 →
      w = u.uword f.c (u.get F.dispatch_ENTRY (f.c * 1024 + iOpc f.w)) →
      parityGroups w = 0 →
      uFieldsBad w = false →
      uSeq w = 5 →
      uReq w = 0 →
      uXu w = 0 →
      uEmit w = 2 →
      uEpoi w = 0 →
      uEsrc w = 15 →
      uTen w % 2 = 0 →
      uAsrc w = 1 →
      uBsrc w = 2 →
      readPorts u f.c (iOpc f.w) % 4 = 3 →
      aluResult ⟨0, [], [], 0, none, none, 0, 0, 0, 0, mget 0 u.cl.arith (f.part * 2 + f.ep)⟩ (uAlu w) f.l.1 f.r.1 = some (v, b) →
      Completes (.userOperation c pe err) s fun t => ∃ n : Nat, t = (if uStk w then setSticky f.part b else id) (f.emit v false ((f.dsts u).filter dstV) { u with free := n })) ∧
  (∀ (c : Fin 128) (pe : Fin 16) (err : FireErr) (f : Firing) (u : State) (v : W) (s : State),
      fired s c pe .user err = some (f, u) →
      f.poison = some v →
      exec (.userOperation c pe err) s = .next (poisonOut f v (f.dsts u) u)) ∧
  (∀ (c : Fin 128) (pe : Fin 16) (err : PassErr) (f : Flit) (s : State),
      s.fabricOn c = true →
      s.heldSeq c pe = none →
      nextRsp s c pe = some f →
      takeFirst (fun p : Park => p.cluster = c.val && p.pe = pe.val && p.entry = rspRet f.pay % 8) s.cl.parks = none →
      exec (.response c ⟨pe, err⟩) s = .next ((({ s with net := { s.net with rspQ := s.net.rspQ.erase f } } : State).inc F.rtrStat_STRAY c))) ∧
  (∀ (c : Fin 128) (pe : Fin 16) (err : PassErr) (f : Flit) (p : Park) (rest : List Park) (s : State),
      s.fabricOn c = true →
      s.heldSeq c pe = none →
      nextRsp s c pe = some f →
      takeFirst (fun p : Park => p.cluster = c.val && p.pe = pe.val && p.entry = rspRet f.pay % 8) s.cl.parks = some (p, rest) →
      canResume s c pe err = true →
      err.parity = none →
      s.flag F.injCtl_ARM 0 = false →
      filtered s (tagPart p.tag) (tagCtx p.tag) = false →
      (pf f.pay 121 4 ≠ 1 ∨ f.poison = true) →
      p.detached = false →
      p.user = none →
      f.poison = false →
      opClass (iOpc p.word) ∉ [OpClass.angleAt, OpClass.timeAt, OpClass.out, OpClass.emitAt] →
      exec (.response c ⟨pe, err⟩) s = .next ((let u := countProg (tagPart p.tag) { s with net := { s.net with rspQ := s.net.rspQ.erase f }, cl := { s.cl with parks := rest } };
        (parkedFiring p).emit (w48 (pf f.pay 48 48)) false ((parkedFiring p).dsts u) u))) ∧
  (∀ (c : Fin 128) (pe : Fin 16) (err : PassErr) (f : Flit) (p : Park) (rest : List Park) (s : State),
      s.fabricOn c = true →
      s.heldSeq c pe = none →
      nextRsp s c pe = some f →
      takeFirst (fun p : Park => p.cluster = c.val && p.pe = pe.val && p.entry = rspRet f.pay % 8) s.cl.parks = some (p, rest) →
      canResume s c pe err = true →
      err.parity = none →
      s.flag F.injCtl_ARM 0 = false →
      filtered s (tagPart p.tag) (tagCtx p.tag) = false →
      (pf f.pay 121 4 ≠ 1 ∨ f.poison = true) →
      p.detached = false →
      p.user = none →
      f.poison = false →
      opClass (iOpc p.word) = .angleAt →
      exec (.response c ⟨pe, err⟩) s = .next ((let u := countProg (tagPart p.tag) { s with net := { s.net with rspQ := s.net.rspQ.erase f }, cl := { s.cl with parks := rest } };
        (parkedFiring p).emit (w48 (pf f.pay 0 48)) false [iDst1 p.word] ((parkedFiring p).emit (w48 (pf f.pay 48 48)) false [iDst0 p.word] u)))) ∧
  (∀ (c : Fin 128) (pe : Fin 16) (err : PassErr) (f : Flit) (p : Park) (rest : List Park) (s : State),
      s.fabricOn c = true →
      s.heldSeq c pe = none →
      nextRsp s c pe = some f →
      takeFirst (fun p : Park => p.cluster = c.val && p.pe = pe.val && p.entry = rspRet f.pay % 8) s.cl.parks = some (p, rest) →
      canResume s c pe err = true →
      err.parity = none →
      s.flag F.injCtl_ARM 0 = false →
      filtered s (tagPart p.tag) (tagCtx p.tag) = false →
      (pf f.pay 121 4 ≠ 1 ∨ f.poison = true) →
      p.detached = false →
      p.user = none →
      f.poison = false →
      opClass (iOpc p.word) = .timeAt →
      exec (.response c ⟨pe, err⟩) s = .next ((let u := countProg (tagPart p.tag) { s with net := { s.net with rspQ := s.net.rspQ.erase f }, cl := { s.cl with parks := rest } };
        let fi := { parkedFiring p with due := timeAtDue p (w48 (pf f.pay 48 48)) (w48 (pf f.pay 0 48)) };
        fi.emit (w48 (pf f.pay 0 48)) false [iDst1 p.word] (fi.emit (w48 (pf f.pay 48 48)) false [iDst0 p.word] u)))) ∧
  (∀ (c : Fin 128) (pe : Fin 16) (err : PassErr) (f : Flit) (p : Park) (rest : List Park) (s : State),
      s.fabricOn c = true →
      s.heldSeq c pe = none →
      nextRsp s c pe = some f →
      takeFirst (fun p : Park => p.cluster = c.val && p.pe = pe.val && p.entry = rspRet f.pay % 8) s.cl.parks = some (p, rest) →
      canResume s c pe err = true →
      err.parity = none →
      s.flag F.injCtl_ARM 0 = false →
      filtered s (tagPart p.tag) (tagCtx p.tag) = false →
      (pf f.pay 121 4 ≠ 1 ∨ f.poison = true) →
      p.detached = false →
      p.user = none →
      f.poison = false →
      (opClass (iOpc p.word) = .out ∨ opClass (iOpc p.word) = .emitAt) →
      exec (.response c ⟨pe, err⟩) s = .next ((let u := countProg (tagPart p.tag) { s with net := { s.net with rspQ := s.net.rspQ.erase f }, cl := { s.cl with parks := rest } };
        (parkedFiring p).emit (w48 (pf f.pay 48 48)) false [iDst0 p.word] u))) ∧
  (∀ (c : Fin 128) (pe : Fin 16) (err : PassErr) (f : Flit) (p : Park) (rest : List Park) (s : State),
      s.fabricOn c = true →
      s.heldSeq c pe = none →
      nextRsp s c pe = some f →
      takeFirst (fun p : Park => p.cluster = c.val && p.pe = pe.val && p.entry = rspRet f.pay % 8) s.cl.parks = some (p, rest) →
      canResume s c pe err = true →
      err.parity = none →
      s.flag F.injCtl_ARM 0 = false →
      filtered s (tagPart p.tag) (tagCtx p.tag) = false →
      (pf f.pay 121 4 ≠ 1 ∨ f.poison = true) →
      p.detached = false →
      p.user = none →
      f.poison = true →
      exec (.response c ⟨pe, err⟩) s = .next ((let u := countProg (tagPart p.tag) { s with net := { s.net with rspQ := s.net.rspQ.erase f }, cl := { s.cl with parks := rest } };
        (parkedFiring p).emit (w48 (pf f.pay 48 48)) true ((parkedFiring p).dsts u) u))) ∧
  (∀ (c : Fin 128) (pe : Fin 16) (err : PassErr) (f : Flit) (p : Park) (rest : List Park) (s : State),
      s.fabricOn c = true →
      s.heldSeq c pe = none →
      nextRsp s c pe = some f →
      takeFirst (fun p : Park => p.cluster = c.val && p.pe = pe.val && p.entry = rspRet f.pay % 8) s.cl.parks = some (p, rest) →
      canResume s c pe err = true →
      err.parity = none →
      s.flag F.injCtl_ARM 0 = false →
      filtered s (tagPart p.tag) (tagCtx p.tag) = false →
      pf f.pay 121 4 = 1 →
      f.poison = false →
      p.user = none →
      exec (.response c ⟨pe, err⟩) s = .next ((let u := countProg (tagPart p.tag) { s with net := { s.net with rspQ := s.net.rspQ.erase f }, cl := { s.cl with parks := rest } };
        microTrap p.cluster p.pe 3 p.tag Saved.std u))) ∧
  (∀ (c : Fin 128) (pe : Fin 16) (err : PassErr) (f : Flit) (p : Park) (rest : List Park) (s : State),
      s.fabricOn c = true →
      s.heldSeq c pe = none →
      nextRsp s c pe = some f →
      takeFirst (fun p : Park => p.cluster = c.val && p.pe = pe.val && p.entry = rspRet f.pay % 8) s.cl.parks = some (p, rest) →
      canResume s c pe err = true →
      err.parity = none →
      s.flag F.injCtl_ARM 0 = false →
      filtered s (tagPart p.tag) (tagCtx p.tag) = false →
      (pf f.pay 121 4 ≠ 1 ∨ f.poison = true) →
      p.detached = true →
      exec (.response c ⟨pe, err⟩) s = .next ((let u := countProg (tagPart p.tag) { s with net := { s.net with rspQ := s.net.rspQ.erase f }, cl := { s.cl with parks := rest } };
        u))) ∧
  (∀ (c : Fin 128) (pe : Fin 16) (err : PassErr) (f : Flit) (p : Park) (rest : List Park) (m : MicroSt) (s : State),
      s.fabricOn c = true →
      s.heldSeq c pe = none →
      nextRsp s c pe = some f →
      takeFirst (fun p : Park => p.cluster = c.val && p.pe = pe.val && p.entry = rspRet f.pay % 8) s.cl.parks = some (p, rest) →
      canResume s c pe err = true →
      err.parity = none →
      s.flag F.injCtl_ARM 0 = false →
      filtered s (tagPart p.tag) (tagCtx p.tag) = false →
      (pf f.pay 121 4 ≠ 1 ∨ f.poison = true) →
      p.detached = false →
      p.user = some m →
      exec (.response c ⟨pe, err⟩) s = .next ((let u := countProg (tagPart p.tag) { s with net := { s.net with rspQ := s.net.rspQ.erase f }, cl := { s.cl with parks := rest } };
        continueUser c pe err (uRun err (parkedFiring p) 514 { m with hi := none, resp := some ((w48 (pf f.pay 48 48)), f.poison) } u)))) ∧
  (∀ (c : Fin 128) (pe : Fin 16) (err : PassErr) (f : Flit) (tag : W) (s : State),
      s.fabricOn c = true →
      canFire s c pe err = true →
      err.parity = none →
      err.dispatch = false →
      s.flag F.injCtl_ARM 0 = false →
      nextAns s c pe = some f →
      tag = w48 (pf f.pay 96 48) &&& ~~~(0x180001 : W) →
      filtered s (tagPart tag) (tagCtx tag) = false →
      opClass (iOpc (s.instr c (tagInstr tag))) ≠ .user →
      Completes (.deferredAnswer c ⟨pe, err⟩) s fun t => ∃ (n : Nat) (l r g : W), (let u := countProg (tagPart tag) { s with net := { s.net with ansQ := s.net.ansQ.erase f }, free := n };
      let fi : Firing := ⟨c, pe, tagInstr tag, s.instr c (tagInstr tag), tag, (l, false), (r, false), (g, false), w48 (pf f.pay 0 48), s.t⟩;
      t = fi.emit (w48 (pf f.pay 48 48)) f.poison (fi.dsts u) u)) ∧
  (∀ (c : Fin 128) (pe : Fin 16) (err : PassErr) (f : Flit) (tag : W) (s : State),
      s.fabricOn c = true →
      canFire s c pe err = true →
      err.parity = none →
      err.dispatch = false →
      s.flag F.injCtl_ARM 0 = false →
      nextAns s c pe = some f →
      tag = w48 (pf f.pay 96 48) &&& ~~~(0x180001 : W) →
      filtered s (tagPart tag) (tagCtx tag) = false →
      opClass (iOpc (s.instr c (tagInstr tag))) = .user →
      Completes (.deferredAnswer c ⟨pe, err⟩) s fun t => ∃ (n : Nat) (l r g : W), (let u := countProg (tagPart tag) { s with net := { s.net with ansQ := s.net.ansQ.erase f }, free := n };
      let fi : Firing := ⟨c, pe, tagInstr tag, s.instr c (tagInstr tag), tag, (l, false), (r, false), (g, false), w48 (pf f.pay 0 48), s.t⟩;
      t = uRun err fi 514 ⟨s.get F.dispatch_RESUME (c * 1024 + iOpc (s.instr c (tagInstr tag))), [], [0, 0, 0, 0], 0, none, some (w48 (pf f.pay 48 48), f.poison), s.t, 0, 0, 0, mget 0 s.cl.arith (fi.part * 2 + fi.ep)⟩ u))

/-- A bank serves each graph operation on its word, defers a READ of an EMPTY word, and refuses what R301 forbids (R85, R87, R294–R298, R304). -/
def Obligations.BankOperationsActOnTheirWord : Prop :=
  (∀ (b : Fin 2048) (r : BReq) (e : PePass) (s : State),
      s.fabricOn (b.val / 16) = true →
      directClean s b r = true →
      r.op = 3 →
      exec (.bankOperation b true ⟨0, e⟩) s = .next (bankAnswer b r (.ok (s.bankWord b (addrWord r.addr))) (dropDirect (b.val / 16) (r.pe.getD 0) s))) ∧
  (∀ (b : Fin 2048) (r : BReq) (e : PePass) (s : State),
      s.fabricOn (b.val / 16) = true →
      directClean s b r = true →
      r.op = 4 →
      exec (.bankOperation b true ⟨0, e⟩) s = .next (bankAnswer b r (.ok 0) ((dropDirect (b.val / 16) (r.pe.getD 0) s).putWord b (addrWord r.addr) r.data))) ∧
  (∀ (b : Fin 2048) (r : BReq) (e : PePass) (s : State),
      s.fabricOn (b.val / 16) = true →
      directClean s b r = true →
      r.op = 5 →
      s.isPresent b (addrWord r.addr) = true →
      exec (.bankOperation b true ⟨0, e⟩) s = .next (bankAnswer b r (.ok (s.bankWord b (addrWord r.addr))) (dropDirect (b.val / 16) (r.pe.getD 0) s))) ∧
  (∀ (b : Fin 2048) (r : BReq) (e : PePass) (s : State),
      s.fabricOn (b.val / 16) = true →
      directClean s b r = true →
      r.op = 5 →
      s.isPresent b (addrWord r.addr) = false →
      (s.deferOf b).length < 256 →
      exec (.bankOperation b true ⟨0, e⟩) s = .next (bankAnswer b r .deferred ((dropDirect (b.val / 16) (r.pe.getD 0) s).setDefer b (s.deferOf b ++ [⟨r.tag, r.due, addrWord r.addr, r.urg⟩])))) ∧
  (∀ (b : Fin 2048) (r : BReq) (e : PePass) (s : State),
      s.fabricOn (b.val / 16) = true →
      directClean s b r = true →
      r.op = 6 →
      s.isPresent b (addrWord r.addr) = false →
      ((s.deferOf b).any fun d => d.word = addrWord r.addr) = false →
      exec (.bankOperation b true ⟨0, e⟩) s = .next (bankAnswer b r (.ok 0) (((dropDirect (b.val / 16) (r.pe.getD 0) s).putWord b (addrWord r.addr) r.data).setPresent b (addrWord r.addr) true))) ∧
  (∀ (b : Fin 2048) (r : BReq) (e : PePass) (s : State),
      s.fabricOn (b.val / 16) = true →
      directClean s b r = true →
      r.op = 6 →
      s.isPresent b (addrWord r.addr) = false →
      ((s.deferOf b).any fun d => d.word = addrWord r.addr) = true →
      exec (.bankOperation b true ⟨0, e⟩) s = .next (bankAnswer b r (.ok 0) (let u := ((dropDirect (b.val / 16) (r.pe.getD 0) s).putWord b (addrWord r.addr) r.data).setPresent b (addrWord r.addr) true;
        { u with bank := { u.bank with answering := mput u.bank.answering (wordKey b (addrWord r.addr)) r.data } }))) ∧
  (∀ (b : Fin 2048) (r : BReq) (e : PePass) (s : State),
      s.fabricOn (b.val / 16) = true →
      directClean s b r = true →
      r.op = 6 →
      s.isPresent b (addrWord r.addr) = true →
      exec (.bankOperation b true ⟨0, e⟩) s = .next (bankAnswer b r (.poison causeErr) (report 10 (loc 3 b) 0 (some r.part) false (dropDirect (b.val / 16) (r.pe.getD 0) s)))) ∧
  (∀ (b : Fin 2048) (r : BReq) (e : PePass) (s : State),
      s.fabricOn (b.val / 16) = true →
      directClean s b r = true →
      r.op = 7 →
      exec (.bankOperation b true ⟨0, e⟩) s = .next (bankAnswer b r (.ok 0) ((dropDirect (b.val / 16) (r.pe.getD 0) s).setPresent b (addrWord r.addr) false))) ∧
  (∀ (b : Fin 2048) (r : BReq) (e : PePass) (s : State),
      s.fabricOn (b.val / 16) = true →
      directClean s b r = true →
      r.op = 8 →
      exec (.bankOperation b true ⟨0, e⟩) s = .next (bankAnswer b r (.ok (s.bankWord b (addrWord r.addr))) ((dropDirect (b.val / 16) (r.pe.getD 0) s).putWord b (addrWord r.addr) (s.bankWord b (addrWord r.addr) + r.data)))) ∧
  (∀ (b : Fin 2048) (r : BReq) (e : PePass) (s : State),
      s.fabricOn (b.val / 16) = true →
      directClean s b r = true →
      r.op = 9 →
      exec (.bankOperation b true ⟨0, e⟩) s = .next (bankAnswer b r (.ok (s.bankWord b (addrWord r.addr))) ((dropDirect (b.val / 16) (r.pe.getD 0) s).putWord b (addrWord r.addr) r.data))) ∧
  (∀ (b : Fin 2048) (r : BReq) (e : PePass) (k : Nat) (s : State),
      s.fabricOn (b.val / 16) = true →
      bestDirect s b = some r →
      r.pe.isSome = true →
      ((mget [] s.bank.direct (b.val / 16)).filter fun x => addrBank x.addr = b.val % 16 && x ≠ r) = [] →
      s.locked b (addrWord r.addr) = false →
      ((mget [] s.bank.queue b).any fun x => x.touches (addrWord r.addr)) = false →
      r.bad = false →
      r.sys = false →
      bankCheck s b r.op r.addr false r.part (retInit s r.ret) r.pre r.half = some k →
      Completes (.bankOperation b true ⟨0, e⟩) s fun t => t.get F.violCnt_COUNT (b.val / 16) = (s.get F.violCnt_COUNT (b.val / 16) + 1) % 2 ^ F.violCnt_COUNT.w ∧ (s.flag F.violInfo_VALID (b.val / 16) = false → t.get F.violInfo_KIND (b.val / 16) = k ∧ t.get F.violAddr_VALUE (b.val / 16) = r.addr.toNat) ∧ t.bank = { s.bank with direct := t.bank.direct } ∧ t.mem = s.mem ∧ t.pending = s.pending ∧ t.t = s.t) ∧
  (∀ (b : Fin 2048) (r : BReq) (e : PePass) (q : List BReq) (s : State),
      s.fabricOn (b.val / 16) = true →
      mget [] s.bank.queue b = r :: q →
      reqLocked s b r = false →
      r.bad = false →
      r.sys = false →
      bankCheck s b r.op r.addr false r.part (retInit s r.ret) r.pre r.half = none →
      r.op = 4 →
      Completes (.bankOperation b false ⟨0, e⟩) s fun t => t.bankWord b (addrWord r.addr) = r.data ∧ t.pending = s.pending ∧ t.t = s.t ∧ ∀ a, a < bankAddr (b.val / 16) (b.val % 16) (addrWord r.addr) ∨ bankAddr (b.val / 16) (b.val % 16) (addrWord r.addr) + 6 ≤ a → t.readByte a = s.readByte a) ∧
  (∀ (b w : Nat) (v : W) (s : State), (s.putWord b w v).bankWord b w = v ∧
    ∀ a, a < bankAddr (b / 16) (b % 16) w ∨ bankAddr (b / 16) (b % 16) w + 6 ≤ a → (s.putWord b w v).readByte a = s.readByte a) ∧
  (∀ (b w : Nat) (v : Bool) (s : State), (s.setPresent b w v).isPresent b w = v)

/-- Deferred answers, scrub, write-back, handover, power moves, take-offline and the debug window change what their rules say (R103, R295–R309). -/
def Obligations.BankUpkeepAndOwnership : Prop :=
  (∀ (b : Fin 2048) (k : Nat) (v : W) (d : Defer) (rest : List Defer) (s : State),
      s.fabricOn (b.val / 16) = true →
      (s.bank.answering.find? fun e => e.1 / 4096 = b.val) = some (k, v) →
      takeFirst (fun d : Defer => d.word = k % 4096) (s.deferOf b) = some (d, rest) →
      tagPkg d.tag = s.pkg →
      cIdx (tagDie d.tag) (tagCluster d.tag) = b.val / 16 →
      Completes (.deferredReadAnswer b) s fun t => (t.net.ansQ.dropLast = s.net.ansQ ∧ (t.net.ansQ.getLast?).map (fun f => (f.pay, f.poison)) = some (ansPay d.tag v d.due, false) ∧ t.deferOf b = rest ∧ ((rest.any fun d => d.word = k % 4096) = false → mfind t.bank.answering k = none) ∧ t = { s with bank := t.bank, net := { s.net with ansQ := t.net.ansQ } })) ∧
  (∀ (b : Fin 2048) (s : State),
      s.fabricOn (b.val / 16) = true →
      s.flag F.bankCtl_SCRUB_EN (b.val / 16) = true →
      s.bankServes b = true →
      s.flag F.injCtl_ARM 0 = false →
      mget 0 s.bank.bad (wordKey b (mget 0 s.bank.scrub b)) = 0 →
      exec (.scrub b 0) s = .next ({ s with bank := { s.bank with scrub := mset 0 s.bank.scrub b ((mget 0 s.bank.scrub b + 1) % 4096) } })) ∧
  (∀ (b : Fin 2048) (s : State),
      s.fabricOn (b.val / 16) = true →
      s.flag F.bankCtl_SCRUB_EN (b.val / 16) = true →
      s.bankServes b = true →
      s.flag F.injCtl_ARM 0 = false →
      mget 0 s.bank.bad (wordKey b (mget 0 s.bank.scrub b)) = 0 →
      Completes (.scrub b 1) s fun t => t.get F.bankStat_CORR b = (s.get F.bankStat_CORR b + 1) % 2 ^ F.bankStat_CORR.w ∧ mfind t.bank.wb (wordKey b (mget 0 s.bank.scrub b)) = some 1 ∧ mget 0 t.bank.scrub b = (mget 0 s.bank.scrub b + 1) % 4096 ∧ t = { s with regs := t.regs, bank := t.bank, flt := t.flt } ∧ RegsBut [F.bankStat_CORR] s t) ∧
  (∀ (b : Fin 2048) (s : State),
      s.fabricOn (b.val / 16) = true →
      s.flag F.bankCtl_SCRUB_EN (b.val / 16) = true →
      s.bankServes b = true →
      s.flag F.injCtl_ARM 0 = false →
      mget 0 s.bank.bad (wordKey b (mget 0 s.bank.scrub b)) = 0 →
      Completes (.scrub b 2) s fun t => t.get F.bankStat_UNCORR b = (s.get F.bankStat_UNCORR b + 1) % 2 ^ F.bankStat_UNCORR.w ∧ t.get F.bankStat_UNC_EVT b = 1 ∧ mget 0 t.bank.bad (wordKey b (mget 0 s.bank.scrub b)) = 1 ∧ mget 0 t.bank.scrub b = (mget 0 s.bank.scrub b + 1) % 4096 ∧ t = { s with regs := t.regs, bank := t.bank, flt := t.flt } ∧ RegsBut [F.bankStat_UNCORR, F.bankStat_UNC_EVT] s t) ∧
  (∀ (b : Fin 2048) (k n : Nat) (s : State),
      s.fabricOn (b.val / 16) = true →
      (s.bank.wb.find? fun e => e.1 / 4096 = b.val) = some (k, n) →
      Completes (.correctedWriteback b) s fun t => mfind t.bank.wb k = none ∧ t.bankWord b (k % 4096) = s.bankWord b (k % 4096) ∧ t = { s with bank := t.bank, mem := t.mem } ∧ MemSame s t) ∧
  (∀ (init : Fin 15) (b : Fin 2048) (owner : BitVec 4) (clr : Bool) (s : State),
      s.fatal = false →
      (init.val ≤ 8 ∨ init.val = 11) →
      (owner.toNat ≤ 10 ∨ owner.toNat = 15) →
      (∀ o ∈ [s.get F.bankOwn_OWNER b, owner.toNat], 8 ≤ o ∨ s.pState o = pFree ∨ s.pState o = pLoading) →
      s.flag F.bankOwn_PENDING b = false →
      s.flag F.bankPwr_OFFLINE b = false →
      Completes (.bankOwn init b owner clr) s fun t => t.get F.bankOwn_PENDING b = 1 ∧ mfind t.bank.handover b = some (owner.toNat * 2 + b2n clr) ∧ t.deferOf b = [] ∧ t = { s with regs := t.regs, bank := t.bank } ∧ RegsBut [F.bankOwn_PENDING] s t ∧ InstBut F.bankOwn_PENDING b s t) ∧
  (∀ (init : Fin 15) (b : Fin 2048) (owner : BitVec 4) (clr : Bool) (s : State),
      (¬((init.val ≤ 8 ∨ init.val = 11) ∧ (owner.toNat ≤ 10 ∨ owner.toNat = 15) ∧ (∀ o ∈ [s.get F.bankOwn_OWNER b, owner.toNat], 8 ≤ o ∨ s.pState o = pFree ∨ s.pState o = pLoading) ∧ s.flag F.bankOwn_PENDING b = false ∧ s.flag F.bankPwr_OFFLINE b = false)) →
      exec (.bankOwn init b owner clr) s = .next (s)) ∧
  (∀ (b : Fin 2048) (s : State),
      (mfind s.bank.handover b = none ∨ mget [] s.bank.queue b ≠ []) →
      exec (.handoverComplete b) s = .next (s)) ∧
  (∀ (b : Fin 2048) (err : Fin 3) (s : State),
      (s.flag F.bankCtl_SCRUB_EN (b.val / 16) = false ∨ s.bankServes b = false) →
      exec (.scrub b err) s = .next (s)) ∧
  (∀ (b : Fin 2048) (st : BitVec 2) (s : State),
      (s.flag F.bankPwr_OFFLINE b = true ∨ st = 3) →
      exec (.bankPwr b st) s = .next (s)) ∧
  (∀ (b : Fin 2048) (st : BitVec 2) (s : State),
      s.fatal = false →
      st ≠ 3 →
      s.flag F.bankPwr_OFFLINE b = false →
      (s.get F.bankPwr_CURRENT b ≠ 0 ∨ st = 0) →
      (mfind s.bank.move b ≠ some 0 ∨ st = 0) →
      (s.flag F.bankPwr_BUSY b = true ∨ s.get F.bankPwr_CURRENT b = st.toNat) →
      exec (.bankPwr b st) s = .next (s.set F.bankPwr_STATE b st.toNat)) ∧
  (∀ (b : Fin 2048) (x : Nat) (s : State),
      s.fatal = false →
      mfind s.bank.move b = some x →
      x ≠ 0 →
      x < 4 →
      s.get F.bankPwr_STATE b ≠ x →
      Completes (.powerMoveComplete b) s fun t => t.get F.bankPwr_CURRENT b = x ∧ t.get F.bankPwr_BUSY b = 1 ∧ mfind t.bank.move b = some (s.get F.bankPwr_STATE b) ∧ t = { s with regs := t.regs, bank := t.bank, mem := t.mem } ∧ RegsBut [F.bankPwr_CURRENT, F.bankPwr_BUSY] s t) ∧
  (∀ (b : Fin 2048) (k : Nat) (v : W) (d : Defer) (rest : List Defer) (s : State),
      s.fabricOn (b.val / 16) = true →
      (s.bank.answering.find? fun e => e.1 / 4096 = b.val) = some (k, v) →
      takeFirst (fun d : Defer => d.word = k % 4096) (s.deferOf b) = some (d, rest) →
      (tagPkg d.tag ≠ s.pkg ∨ cIdx (tagDie d.tag) (tagCluster d.tag) ≠ b.val / 16) →
      (rest.any fun d => d.word = k % 4096) = false →
      exec (.deferredReadAnswer b) s = .next ((let u := s.setDefer b rest; send (mkFlit 2 false (ansPay d.tag v d.due) [] (tagPart d.tag) (rspUrg s (tagPart d.tag) d.urg) (b.val / 16)) { u with bank := { u.bank with answering := mdel u.bank.answering k } }))) ∧
  (∀ (init : Fin 16) (c : Fin 128) (e : Fin 8192) (s : State),
      s.fatal = false →
      s.flag F.injCtl_ARM 0 = false →
      (s.way c e).isSome = true →
      Completes (.matchDebugRead init c ⟨e, 2⟩) s fun t => windowPart t init c e 3 = 0 ∧ s.way c e ≠ none ∧ t.way c e = none ∧ t.get F.msErrInfo_VALID c ≠ 0 ∧ t.mem = s.mem ∧ t.pending = s.pending ∧ t.t = s.t) ∧
  (∀ (b : Fin 2048) (x : Nat) (s : State),
      s.fatal = false →
      mfind s.bank.handover b = some x →
      mget [] s.bank.queue b = [] →
      Completes (.handoverComplete b) s fun t => t.get F.bankOwn_OWNER b = x / 2 % 16 ∧ t.get F.bankOwn_PENDING b = 0 ∧ mfind t.bank.handover b = none ∧ t = { s with regs := t.regs, bank := t.bank, mem := t.mem } ∧ (x % 2 = 1 → ∀ w, w < 4096 → t.bankWord b w = 0 ∧ t.isPresent b w = false) ∧ (x % 2 = 0 → t.mem = s.mem) ∧
      (∀ a, a < bankAddr (b.val / 16) (b.val % 16) 0 ∨ bankAddr (b.val / 16) (b.val % 16) 0 + 0x8000 ≤ a → t.readByte a = s.readByte a) ∧ RegsBut [F.bankOwn_OWNER, F.bankOwn_PENDING] s t) ∧
  (∀ (b : Fin 2048) (st : BitVec 2) (s : State),
      s.fatal = false →
      st.toNat ≠ 3 →
      s.flag F.bankPwr_OFFLINE b = false →
      8 ≤ s.get F.bankOwn_OWNER b →
      s.deferOf b = [] →
      s.get F.spillCfg_COUNT (b.val / 16) = 0 →
      s.flag F.bankPwr_BUSY b = false →
      s.get F.bankPwr_CURRENT b ≠ st.toNat →
      mget [] s.bank.queue b = [] →
      (s.net.flits.any fun f => f.out = none && forBank f && flitBank f = b.val) = false →
      Completes (.bankPwr b st) s fun t => t.get F.bankPwr_STATE b = st.toNat ∧ t.get F.bankPwr_BUSY b = 1 ∧ mfind t.bank.move b = some st.toNat ∧ t = { s with regs := t.regs, bank := t.bank } ∧ RegsBut [F.bankPwr_STATE, F.bankPwr_BUSY] s t) ∧
  (∀ (b : Fin 2048) (x : Nat) (s : State),
      s.fatal = false →
      mfind s.bank.move b = some x →
      s.get F.bankPwr_STATE b = x →
      x < 4 →
      Completes (.powerMoveComplete b) s fun t => t.get F.bankPwr_CURRENT b = x ∧ t.get F.bankPwr_BUSY b = 0 ∧ mfind t.bank.move b = none ∧ t = { s with regs := t.regs, bank := t.bank, mem := t.mem } ∧ (s.get F.bankPwr_CURRENT b = 2 → x ≠ 2 → ∀ w, w < 4096 → t.bankWord b w = 0 ∧ t.isPresent b w = false) ∧ (s.get F.bankPwr_CURRENT b ≠ 2 → t.mem = s.mem) ∧ RegsBut [F.bankPwr_CURRENT, F.bankPwr_BUSY] s t) ∧
  (∀ (b : Fin 2048) (s : State),
      s.fatal = false →
      s.flag F.bankPwr_OFFLINE b = false →
      s.deferOf b = [] →
      mget [] s.bank.queue b = [] →
      (s.net.flits.any fun f => f.out = none && forBank f && flitBank f = b.val) = false →
      Completes (.takeOffline 8 b) s fun t => t.get F.bankPwr_OFFLINE b = 1 ∧ t.get F.bankPwr_STATE b = 2 ∧ t.get F.bankPwr_CURRENT b = 2 ∧ t.get F.bankPwr_BUSY b = 0 ∧ t.ap.reexamine = true ∧ (s.bankPart b = none ∨ ∃ p : Fin 8, s.bankPart b = some p.val ∧ t.ap.lost = s.ap.lost ++ [(p.val, 3)]) ∧ t = { s with regs := t.regs, bank := t.bank, ap := t.ap } ∧ RegsBut [F.bankPwr_OFFLINE, F.bankPwr_STATE, F.bankPwr_CURRENT, F.bankPwr_BUSY] s t) ∧
  (∀ (init : Fin 15) (b : Fin 2048) (s : State),
      init.val ≠ 8 →
      exec (.takeOffline init b) s = .next (s)) ∧
  (∀ (init : Fin 16) (c : Fin 128) (e : Fin 8192) (s : State),
      s.fatal = false →
      s.flag F.injCtl_ARM 0 = false →
      Completes (.matchDebugRead init c ⟨e, 0⟩) s fun t => (mfind t.cl.holding (c.val * 16 + init.val)).isSome = true ∧ windowPart t init c e 0 = ((s.way c e).map fun k => k.data.toNat).getD 0 ∧ windowPart t init c e 1 = ((s.way c e).map fun k => k.due.toNat).getD 0 ∧
      windowPart t init c e 2 = ((s.way c e).map fun k => k.tag.toNat).getD 0 ∧ windowPart t init c e 3 = ((s.way c e).map fun k => 1 + b2n k.poison * 2).getD 0 ∧ t = { s with cl := { s.cl with holding := t.cl.holding } })

/-- The detector declares a blocked partition, a reclaim sweep removes its block, and a filter ends (R137–R143, R160, R161). -/
def Obligations.DeadlocksAreDetectedAndReclaimed : Prop :=
  (∀ (p : Fin 8) (s : State),
      (s.t.toNat % 2 ^ s.get F.dlCtl_WIN p ≠ 0 ∨ mfind s.cl.evalT p = some s.ticks) →
      exec (.deadlockEvaluation p) s = .next (s)) ∧
  (∀ (p : Fin 8) (s : State),
      s.fatal = false →
      s.t.toNat % 2 ^ s.get F.dlCtl_WIN p = 0 →
      mfind s.cl.evalT p ≠ some s.ticks →
      (s.pRuns p && (s.flag F.dlCtl_ENABLE p || s.pState p = pGuaranteed || s.pState p = pRevoked || s.pState p = pSuspended) && mfind s.cl.progPrev p = some (s.get F.progress_COUNT p) && live s p ≠ 0 && (mfind s.cl.unblocked p).isNone && blocked s p && !(s.cl.reclaim.any fun r => r.part = p.val)) = false →
      exec (.deadlockEvaluation p) s = .next ({ s with cl := { s.cl with evalT := mput s.cl.evalT p s.ticks, progPrev := mput s.cl.progPrev p (s.get F.progress_COUNT p), unblocked := mdel s.cl.unblocked p } })) ∧
  (∀ (p : Fin 8) (s : State),
      s.fatal = false →
      s.t.toNat % 2 ^ s.get F.dlCtl_WIN p = 0 →
      mfind s.cl.evalT p ≠ some s.ticks →
      (s.pRuns p && (s.flag F.dlCtl_ENABLE p || s.pState p = pGuaranteed || s.pState p = pRevoked || s.pState p = pSuspended) && mfind s.cl.progPrev p = some (s.get F.progress_COUNT p) && live s p ≠ 0 && (mfind s.cl.unblocked p).isNone && blocked s p && !(s.cl.reclaim.any fun r => r.part = p.val)) = true →
      s.pState p = pBestEffort →
      2 ≤ s.get F.dlCtl_ACTION p →
      Completes (.deadlockEvaluation p) s fun t => t.get F.dlStat_DETECTED p = 1 ∧ t.get F.dlStat_EPISODES p = (s.get F.dlStat_EPISODES p + 1) % 2 ^ F.dlStat_EPISODES.w ∧ t.get F.dlStat_SRC_INST p = b2n (blkInst s p) ∧ t.get F.dlStat_SRC_HOLD p = b2n (blkHold s p) ∧ t.get F.dlStat_SRC_STALL p = b2n (blkStall s p) ∧ t.get F.dlStat_SRC_CREDIT p = b2n (blkCredit s p) ∧ t.get F.dlStat_SRC_ALLOC p = b2n (blkAlloc s p) ∧ t.get F.evCfg_COUNT (200 + p.val) = (s.get F.evCfg_COUNT (200 + p.val) + 1) % 2 ^ 16 ∧ t = { s with regs := t.regs, cl := t.cl, pcie := t.pcie } ∧ t.cl.slots = s.cl.slots ∧ RegsBut [F.dlStat_DETECTED, F.dlStat_EPISODES, F.dlStat_SRC_HOLD, F.dlStat_SRC_STALL, F.dlStat_SRC_INST, F.dlStat_SRC_CREDIT, F.dlStat_SRC_ALLOC, F.evCfg_COUNT, F.evCfg_PEND] s t) ∧
  (∀ (p : Fin 8) (s : State),
      s.fatal = false →
      s.t.toNat % 2 ^ s.get F.dlCtl_WIN p = 0 →
      mfind s.cl.evalT p ≠ some s.ticks →
      (s.pRuns p && (s.flag F.dlCtl_ENABLE p || s.pState p = pGuaranteed || s.pState p = pRevoked || s.pState p = pSuspended) && mfind s.cl.progPrev p = some (s.get F.progress_COUNT p) && live s p ≠ 0 && (mfind s.cl.unblocked p).isNone && blocked s p && !(s.cl.reclaim.any fun r => r.part = p.val)) = true →
      s.pState p = pBestEffort →
      s.get F.dlCtl_ACTION p = 1 →
      Completes (.deadlockEvaluation p) s fun t => t.get F.dlStat_DETECTED p = 1 ∧ t.get F.dlStat_EPISODES p = (s.get F.dlStat_EPISODES p + 1) % 2 ^ F.dlStat_EPISODES.w ∧ t.get F.dlStat_SRC_INST p = b2n (blkInst s p) ∧ t.get F.dlStat_SRC_HOLD p = b2n (blkHold s p) ∧ t.get F.dlStat_SRC_STALL p = b2n (blkStall s p) ∧ t.get F.dlStat_SRC_CREDIT p = b2n (blkCredit s p) ∧ t.get F.dlStat_SRC_ALLOC p = b2n (blkAlloc s p) ∧ t.get F.evCfg_COUNT (200 + p.val) = (s.get F.evCfg_COUNT (200 + p.val) + 1) % 2 ^ 16 ∧ t.pState p = pHalted ∧ t.get F.dlStat_HALTED p = 1 ∧ t.cl.slots = s.cl.slots ∧ t.mem = s.mem ∧ t.pending = s.pending ∧ t.t = s.t) ∧
  (∀ (p : Fin 8) (s : State),
      s.fatal = false →
      s.t.toNat % 2 ^ s.get F.dlCtl_WIN p = 0 →
      mfind s.cl.evalT p ≠ some s.ticks →
      (s.pRuns p && (s.flag F.dlCtl_ENABLE p || s.pState p = pGuaranteed || s.pState p = pRevoked || s.pState p = pSuspended) && mfind s.cl.progPrev p = some (s.get F.progress_COUNT p) && live s p ≠ 0 && (mfind s.cl.unblocked p).isNone && blocked s p && !(s.cl.reclaim.any fun r => r.part = p.val)) = true →
      s.pState p ≠ pBestEffort →
      Completes (.deadlockEvaluation p) s fun t => t.get F.dlStat_DETECTED p = 1 ∧ t.get F.dlStat_EPISODES p = (s.get F.dlStat_EPISODES p + 1) % 2 ^ F.dlStat_EPISODES.w ∧ t.get F.dlStat_SRC_INST p = b2n (blkInst s p) ∧ t.get F.dlStat_SRC_HOLD p = b2n (blkHold s p) ∧ t.get F.dlStat_SRC_STALL p = b2n (blkStall s p) ∧ t.get F.dlStat_SRC_CREDIT p = b2n (blkCredit s p) ∧ t.get F.dlStat_SRC_ALLOC p = b2n (blkAlloc s p) ∧ t.get F.evCfg_COUNT (200 + p.val) = (s.get F.evCfg_COUNT (200 + p.val) + 1) % 2 ^ 16 ∧ t.pState p = pHalted ∧ t.get F.dlStat_HALTED p = 1 ∧ t.cl.slots = s.cl.slots ∧ t.mem = s.mem ∧ t.pending = s.pending ∧ t.t = s.t) ∧
  (∀ (p : Fin 8) (k : Block) (s : State),
      s.fatal = false →
      s.t.toNat % 2 ^ s.get F.dlCtl_WIN p = 0 →
      mfind s.cl.evalT p ≠ some s.ticks →
      (s.pRuns p && (s.flag F.dlCtl_ENABLE p || s.pState p = pGuaranteed || s.pState p = pRevoked || s.pState p = pSuspended) && mfind s.cl.progPrev p = some (s.get F.progress_COUNT p) && live s p ≠ 0 && (mfind s.cl.unblocked p).isNone && blocked s p && !(s.cl.reclaim.any fun r => r.part = p.val)) = true →
      s.pState p = pBestEffort →
      s.get F.dlCtl_ACTION p = 0 →
      youngest s p = some k →
      (s.cl.filters.filter fun f => f.part = p.val).length < 4 →
      Completes (.deadlockEvaluation p) s fun t => t.get F.dlStat_DETECTED p = 1 ∧ t.get F.dlStat_EPISODES p = (s.get F.dlStat_EPISODES p + 1) % 2 ^ F.dlStat_EPISODES.w ∧ t.get F.dlStat_SRC_INST p = b2n (blkInst s p) ∧ t.get F.dlStat_SRC_HOLD p = b2n (blkHold s p) ∧ t.get F.dlStat_SRC_STALL p = b2n (blkStall s p) ∧ t.get F.dlStat_SRC_CREDIT p = b2n (blkCredit s p) ∧ t.get F.dlStat_SRC_ALLOC p = b2n (blkAlloc s p) ∧ t.get F.evCfg_COUNT (200 + p.val) = (s.get F.evCfg_COUNT (200 + p.val) + 1) % 2 ^ 16 ∧ t.get F.dlStat_RECLAIMING p = 1 ∧ t.cl.blocks = s.cl.blocks.erase k ∧ t.cl.reclaim = s.cl.reclaim ++ [⟨p, k, 0⟩] ∧ t = { s with regs := t.regs, cl := t.cl, pcie := t.pcie } ∧ t.cl.slots = s.cl.slots ∧ RegsBut [F.dlStat_DETECTED, F.dlStat_EPISODES, F.dlStat_SRC_HOLD, F.dlStat_SRC_STALL, F.dlStat_SRC_INST, F.dlStat_SRC_CREDIT, F.dlStat_SRC_ALLOC, F.evCfg_COUNT, F.evCfg_PEND, F.dlStat_RECLAIMING] s t) ∧
  (∀ (p : Fin 8) (s : State),
      s.fatal = false →
      s.t.toNat % 2 ^ s.get F.dlCtl_WIN p = 0 →
      mfind s.cl.evalT p ≠ some s.ticks →
      (s.pRuns p && (s.flag F.dlCtl_ENABLE p || s.pState p = pGuaranteed || s.pState p = pRevoked || s.pState p = pSuspended) && mfind s.cl.progPrev p = some (s.get F.progress_COUNT p) && live s p ≠ 0 && (mfind s.cl.unblocked p).isNone && blocked s p && !(s.cl.reclaim.any fun r => r.part = p.val)) = true →
      s.pState p = pBestEffort →
      s.get F.dlCtl_ACTION p = 0 →
      youngest s p = none →
      Completes (.deadlockEvaluation p) s fun t => t.get F.dlStat_DETECTED p = 1 ∧ t.get F.dlStat_EPISODES p = (s.get F.dlStat_EPISODES p + 1) % 2 ^ F.dlStat_EPISODES.w ∧ t.get F.dlStat_SRC_INST p = b2n (blkInst s p) ∧ t.get F.dlStat_SRC_HOLD p = b2n (blkHold s p) ∧ t.get F.dlStat_SRC_STALL p = b2n (blkStall s p) ∧ t.get F.dlStat_SRC_CREDIT p = b2n (blkCredit s p) ∧ t.get F.dlStat_SRC_ALLOC p = b2n (blkAlloc s p) ∧ t.get F.evCfg_COUNT (200 + p.val) = (s.get F.evCfg_COUNT (200 + p.val) + 1) % 2 ^ 16 ∧ t.pState p = pHalted ∧ t.get F.dlStat_HALTED p = 1 ∧ t.cl.slots = s.cl.slots ∧ t.mem = s.mem ∧ t.pending = s.pending ∧ t.t = s.t) ∧
  (∀ (p : Fin 8) (f : Filter) (s : State),
      minBy (fun f => (f.ends : Int)) (s.cl.filters.filter fun f => f.part = p.val) = some f →
      s.ticks < f.ends →
      exec (.filterExpiry p) s = .next (s)) ∧
  (∀ (p : Fin 8) (f : Filter) (k : Block) (s : State),
      s.fatal = false →
      minBy (fun f => (f.ends : Int)) (s.cl.filters.filter fun f => f.part = p.val) = some f →
      f.ends ≤ s.ticks →
      s.cl.reclaimWait.contains p.val = true →
      youngest s p = some k →
      ((s.cl.filters.erase f).filter fun f => f.part = p.val).length < 4 →
      Completes (.filterExpiry p) s fun t => t.get F.dlStat_RECLAIMING p = 1 ∧ t.cl.filters = s.cl.filters.erase f ∧ t.cl.blocks = s.cl.blocks.erase k ∧ t.cl.reclaim = s.cl.reclaim ++ [⟨p, k, 0⟩] ∧ t.cl.reclaimWait.contains p.val = false ∧ t = { s with regs := t.regs, cl := t.cl } ∧ RegsBut [F.dlStat_RECLAIMING] s t) ∧
  (∀ (p : Fin 8) (r : Reclaim) (s : State),
      s.fatal = false →
      (s.cl.reclaim.find? fun r => r.part = p.val) = some r →
      s.flag F.reclaimTgt_VALID (poolIdx r.block.region p r.block.pool) = false →
      Completes (.reclaimSweepEnd p) s fun t => t.get F.reclaimLog_VALID p = 1 ∧ t.get F.reclaimLog_BASE p = r.block.base % 2 ^ F.reclaimLog_BASE.w ∧ t.get F.dlStat_RECLAIMING p = 0 ∧ t.get F.dlStat_RECLAIMS p = (s.get F.dlStat_RECLAIMS p + 1) % 2 ^ F.dlStat_RECLAIMS.w ∧ t.cl.filters = s.cl.filters ++ [⟨p, r.block, s.ticks + 2 ^ s.get F.dlCtl_WIN p⟩] ∧ (t.cl.slots.any fun x => s.cOwner x.cluster = p.val && tagPart x.tag = p.val && r.block.base ≤ tagCtx x.tag && tagCtx x.tag < r.block.base + 2 ^ r.block.g) = false ∧ t.pending = s.pending ∧ t.t = s.t) ∧
  (∀ (p : Fin 8) (f : Filter) (s : State),
      s.fatal = false →
      minBy (fun f => (f.ends : Int)) (s.cl.filters.filter fun f => f.part = p.val) = some f →
      f.ends ≤ s.ticks →
      s.cl.reclaimWait.contains p.val = false →
      exec (.filterExpiry p) s = .next ({ s with cl := { s.cl with filters := s.cl.filters.erase f } })) ∧
  (∀ (c : Fin 128) (ram : Fin 3) (s : State),
      s.fatal = false →
      s.flag F.injCtl_ARM 0 = false →
      ram.val < 2 →
      (mfind s.cl.reload c).isSome = true →
      s.cState c ≠ 4 →
      s.cState c ≠ 5 →
      Completes (.controlStoreReload c ⟨true, ram⟩) s fun t => t.get F.csStat_RELOADS c = (s.get F.csStat_RELOADS c + 1) % 2 ^ F.csStat_RELOADS.w ∧ t.get F.csStat_RELOADING c = 0 ∧ (∀ i : Fin 16, t.get F.peStat_STOPPED (c.val * 16 + i.val) = 0) ∧ mfind t.cl.reload c = none ∧ t.mem = (rewriteStore c s).mem ∧ t.pending = s.pending ∧ t.t = s.t) ∧
  (∀ (c : Fin 128) (good : Bool) (ram : Fin 3) (s : State),
      s.fatal = false →
      s.flag F.injCtl_ARM 0 = false →
      (good = false ∨ ram = 2) →
      (mfind s.cl.reload c).isSome = true →
      Completes (.controlStoreReload c ⟨good, ram⟩) s fun t => t.get F.csStat_RELOADS c = (s.get F.csStat_RELOADS c + 1) % 2 ^ F.csStat_RELOADS.w ∧ t.get F.csStat_RELOADING c = 0 ∧ (∀ i : Fin 16, t.get F.peStat_STOPPED (c.val * 16 + i.val) = 1) ∧ mfind t.cl.reload c = none ∧ t.pending = s.pending ∧ t.t = s.t) ∧
  (∀ (c : Fin 128) (good : Bool) (ram : Fin 3) (s : State),
      mfind s.cl.reload c = none →
      exec (.controlStoreReload c ⟨good, ram⟩) s = .next (s))

/-- ALU, FP, complex, fused, immediate and constant K48 instructions write rd and the sticky bits, move PC by 4, and change nothing else (R321–R323). -/
def Obligations.CoresCompute : Prop :=
  (∀ (k : Fin 9) (w : Nat) (v : W) (b : Stk) (s : State),
      nextIs s k .alu w = true →
      kCompute (s.core k) w = (v, b) →
      ((s.core k).tl = true ∨ b.toNat &&& (s.core k).trapMask = 0) →
      Completes (.alu k CoreErr.good) s fun t => CoreMoves k { ((s.core k).set (kRd w) v).next with status := (s.core k).status ||| b.setWidth 48 } false s t) ∧
  (∀ (k : Fin 9) (w : Nat) (v : W) (b : Stk) (s : State),
      nextIs s k .fp w = true →
      kCompute (s.core k) w = (v, b) →
      ((s.core k).tl = true ∨ b.toNat &&& (s.core k).trapMask = 0) →
      Completes (.fp k CoreErr.good) s fun t => CoreMoves k { ((s.core k).set (kRd w) v).next with status := (s.core k).status ||| b.setWidth 48 } false s t) ∧
  (∀ (k : Fin 9) (w : Nat) (v : W) (b : Stk) (s : State),
      nextIs s k .cpx w = true →
      kCompute (s.core k) w = (v, b) →
      ((s.core k).tl = true ∨ b.toNat &&& (s.core k).trapMask = 0) →
      Completes (.cpx k CoreErr.good) s fun t => CoreMoves k { ((s.core k).set (kRd w) v).next with status := (s.core k).status ||| b.setWidth 48 } false s t) ∧
  (∀ (k : Fin 9) (w : Nat) (v : W) (b : Stk) (s : State),
      nextIs s k .fma w = true →
      fFma (s.core k).rm (w % 64 = 1) ((s.core k).get (kRa w)) ((s.core k).get (kRb w)) ((s.core k).get (kRc w)) = (v, b) →
      ((s.core k).tl = true ∨ b.toNat &&& (s.core k).trapMask = 0) →
      Completes (.fma k CoreErr.good) s fun t => CoreMoves k { ((s.core k).set (kRd w) v).next with status := (s.core k).status ||| b.setWidth 48 } false s t) ∧
  (∀ (k : Fin 9) (w : Nat) (v : W) (b : Stk) (s : State),
      nextIs s k .immediate w = true →
      kImmediate (s.core k) w = (v, b) →
      ((s.core k).tl = true ∨ b.toNat &&& (s.core k).trapMask = 0) →
      Completes (.immediate k CoreErr.good) s fun t => CoreMoves k { ((s.core k).set (kRd w) v).next with status := (s.core k).status ||| b.setWidth 48 } false s t) ∧
  (∀ (k : Fin 9) (w : Nat) (s : State),
      nextIs s k .ldk w = true →
      Completes (.ldk k CoreErr.good) s fun t => CoreMoves k ((s.core k).set (kRd w) (kImmS w <<< (16 * kCh w))).next false s t) ∧
  (∀ (k : Fin 9) (w : Nat) (s : State),
      nextIs s k .ink w = true →
      Completes (.ink k CoreErr.good) s fun t => CoreMoves k ((s.core k).set (kRd w) (((s.core k).get (kRd w) &&& ~~~((0xFFFF : W) <<< (16 * kCh w))) ||| (kImmU w <<< (16 * kCh w)))).next false s t) ∧
  (∀ (k : Fin 9) (w : Nat) (s : State),
      nextIs s k .xrk w = true →
      Completes (.xrk k CoreErr.good) s fun t => CoreMoves k ((s.core k).set (kRd w) ((s.core k).get (kRd w) ^^^ (kImmU w <<< (16 * kCh w)))).next false s t) ∧
  (∀ (c : Core) (w : Nat), let a := c.get (kRa w);
    (kOp w = 0x02 → (kImmediate c w).1 = a + kImmS w ∧ ((kImmediate c w).2 = Stk.v ↔ ¬(-(2 ^ 47) ≤ a.toInt + (kImmS w).toInt ∧ a.toInt + (kImmS w).toInt < 2 ^ 47))) ∧
    (kOp w = 0x03 → kImmediate c w = (a &&& kImmU w, 0)) ∧ (kOp w = 0x04 → kImmediate c w = (a ||| kImmU w, 0)) ∧ (kOp w = 0x05 → kImmediate c w = (a ^^^ kImmU w, 0)) ∧
    (kOp w = 0x06 → kImmediate c w = (if a.toInt < (kImmS w).toInt then 1 else 0, 0)) ∧ (kOp w = 0x07 → kImmediate c w = (if a.toNat < (kImmS w).toNat then 1 else 0, 0)) ∧
    (kOp w = 0x08 → kImmediate c w = (if w % 256 < 48 then a <<< (w % 256) else 0, 0)) ∧ (kOp w = 0x09 → kImmediate c w = (if w % 256 < 48 then a >>> (w % 256) else 0, 0)) ∧
    (kOp w = 0x0A → kImmediate c w = (a.sshiftRight (w % 256), 0)) ∧ (kOp w = 0x0B → kImmediate c w = (a.rotateRight (w % 256 % 48), 0)))

/-- Loads, stores, LR, SC, TAS and FENCE act on control-core memory as R316 and R324–R326 say. -/
def Obligations.CoresAccessMemory : Prop :=
  (∀ (k : Fin 9) (w : Nat) (n : Nat) (s : State),
      nextIs s k .ld w = true →
      ownMem s ((s.core k).get (kRa w) + kImmS w) = true →
      access (s.core k) .ld w = some (((s.core k).get (kRa w) + kImmS w), n) →
      Completes (.ld k CoreErr.good) s fun t => CoreMoves k ((s.core k).set (kRd w) (loadValue (kOp w) (s.readN (((s.core k).get (kRa w) + kImmS w).toNat % 2 ^ 44) n))).next false s t) ∧
  (∀ (k : Fin 9) (w : Nat) (n : Nat) (s : State),
      nextIs s k .st w = true →
      ownMem s ((s.core k).get (kRa w) + kImmS w) = true →
      access (s.core k) .st w = some (((s.core k).get (kRa w) + kImmS w), n) →
      windowShut s k (((s.core k).get (kRa w) + kImmS w).toNat % 2 ^ 44) = false →
      (s.core k).posted = [] →
      (freeTrans s (coreInit k) (usedTrans s k)).isSome = true →
      Completes (.st k CoreErr.good) s fun t => t.readN (((s.core k).get (kRa w) + kImmS w).toNat % 2 ^ 44) n = ((s.core k).get (kRd w)).toNat % 2 ^ (8 * n) ∧ (t.core k).pc = (s.core k).pc + 4 ∧ (t.core k).w = (s.core k).w ∧ (t.core k).status = (s.core k).status ∧ t.pending = s.pending ∧ t.t = s.t ∧
      (∀ a, a < ((s.core k).get (kRa w) + kImmS w).toNat % 2 ^ 44 ∨ ((s.core k).get (kRa w) + kImmS w).toNat % 2 ^ 44 + n ≤ a → t.readByte a = s.readByte a) ∧ RegsBut [F.ccPc_PC, F.svPc_PC, F.ccStat_WAITING, F.ccStat_DBG_HALTED, F.svStat_STATE] s t) ∧
  (∀ (k : Fin 9) (w : Nat) (s : State),
      nextIs s k .lr w = true →
      Completes (.lr k CoreErr.good) s fun t => CoreMoves k { ((s.core k).set (kRd w) (s.readSlot (((s.core k).get (kRa w) + kImmS w).toNat % 2 ^ 44))).next with resv := some ((s.core k).get (kRa w) + kImmS w) } false s t) ∧
  (∀ (k : Fin 9) (w : Nat) (s : State),
      nextIs s k .sc w = true →
      (s.core k).resv = some ((s.core k).get (kRa w)) →
      windowShut s k (((s.core k).get (kRa w)).toNat % 2 ^ 44) = false →
      Completes (.sc k CoreErr.good) s fun t => t.readSlot (((s.core k).get (kRa w)).toNat % 2 ^ 44) = (s.core k).get (kRb w) ∧ (t.core k).w = ((s.core k).set (kRd w) 0).w ∧ (t.core k).resv = none ∧ (t.core k).pc = (s.core k).pc + 4 ∧ t.pending = s.pending ∧ t.t = s.t ∧ (∀ a, a < ((s.core k).get (kRa w)).toNat % 2 ^ 44 ∨ ((s.core k).get (kRa w)).toNat % 2 ^ 44 + 6 ≤ a → t.readByte a = s.readByte a) ∧ (∀ j, (t.core j).w = if j = k.val then ((s.core k).set (kRd w) 0).w else (s.core j).w)) ∧
  (∀ (k : Fin 9) (w : Nat) (s : State),
      nextIs s k .sc w = true →
      (s.core k).resv ≠ some ((s.core k).get (kRa w)) →
      Completes (.sc k CoreErr.good) s fun t => CoreMoves k { ((s.core k).set (kRd w) 1).next with resv := none } false s t) ∧
  (∀ (k : Fin 9) (w : Nat) (s : State),
      nextIs s k .tas w = true →
      Completes (.tas k CoreErr.good) s fun t => t.readSlot (((s.core k).get (kRa w) + kImmS w).toNat % 2 ^ 44) = 1 ∧ (t.core k).w = ((s.core k).set (kRd w) (s.readSlot (((s.core k).get (kRa w) + kImmS w).toNat % 2 ^ 44))).w ∧ (t.core k).pc = (s.core k).pc + 4 ∧ t.pending = s.pending ∧ t.t = s.t ∧ (∀ a, a < ((s.core k).get (kRa w) + kImmS w).toNat % 2 ^ 44 ∨ ((s.core k).get (kRa w) + kImmS w).toNat % 2 ^ 44 + 6 ≤ a → t.readByte a = s.readByte a) ∧ (∀ j, j ≠ k.val → (t.core j).w = (s.core j).w)) ∧
  (∀ (k : Fin 9) (w : Nat) (n m : Nat) (s : State),
      nextIs s k .ld w = true →
      ownMem s ((s.core k).get (kRa w) + kImmS w) = false →
      access (s.core k) .ld w = some (((s.core k).get (kRa w) + kImmS w), n) →
      freeTrans s (coreInit k) (usedTrans s k) = some m →
      exec (.ld k CoreErr.good) s = .next (finishLoad k (let u := s.setCore k { (s.core k) with wait := some (m, w), waitReg := none }; if n < 4 then hubNarrow (coreInit k) m 1 ((s.core k).get (kRa w) + kImmS w) u else hubRead (coreInit k) m (s.core k).priv (decide (n = 6)) 0 ((s.core k).get (kRa w) + kImmS w) u))) ∧
  (∀ (k : Fin 9) (m w : Nat) (r : HubRsp) (u : State) (s : State),
      s.fatal = false →
      (s.core k).wait = some (m, w) →
      takeRsp (coreInit k) m s = some (r, u) →
      r.ok = true →
      (s.core k).waitReg = none →
      exec (.ld k CoreErr.good) s = .next (retire k (((s.core k).set (kRd w) (loadValue (kOp w) r.data.toNat)).next) u)) ∧
  (∀ (k : Fin 9) (w : Nat) (n m : Nat) (s : State),
      nextIs s k .st w = true →
      ownMem s ((s.core k).get (kRa w) + kImmS w) = false →
      access (s.core k) .st w = some (((s.core k).get (kRa w) + kImmS w), n) →
      (s.core k).posted = [] →
      freeTrans s (coreInit k) (usedTrans s k) = some m →
      exec (.st k CoreErr.good) s = .next ((let v := retire k (s.core k).next s; let x := v.setCore k { v.core k with posted := (v.core k).posted ++ [(m, ((s.core k).get (kRa w) + kImmS w))] };
      settlePosted k (if n < 4 then hubNarrow (coreInit k) m 2 ((s.core k).get (kRa w) + kImmS w) x else hubWrite (coreInit k) m (v.core k).priv (decide (n = 6)) 0 ((s.core k).get (kRa w) + kImmS w) (((s.core k).get (kRd w)).toNat % 2 ^ (8 * n)) x)))) ∧
  (∀ (k : Fin 9) (w : Nat) (s : State),
      nextIs s k .fence w = true →
      (s.core k).posted = [] →
      Completes (.fence k CoreErr.good) s fun t => CoreMoves k (s.core k).next false s t)

/-- Branches, jumps, the return stack, system registers, TRET, WAIT and HALT move a core as R313 and R327–R332 say. -/
def Obligations.CoresTransferControl : Prop :=
  (∀ (k : Fin 9) (w : Nat) (s : State),
      nextIs s k .branch w = true →
      Completes (.branch k CoreErr.good) s fun t => CoreMoves k (if branchTaken (s.core k) w then { (s.core k) with pc := (s.core k).pc + BitVec.ofInt 48 (4 * (BitVec.ofNat 16 w).toInt) } else (s.core k).next) (branchTaken (s.core k) w != (bits w 15 1 == 1)) s t) ∧
  (∀ (k : Fin 9) (w : Nat) (s : State),
      nextIs s k .j w = true →
      Completes (.j k CoreErr.good) s fun t => CoreMoves k { (s.core k) with pc := (s.core k).pc + BitVec.ofInt 48 (4 * (BitVec.ofNat 26 w).toInt) } false s t) ∧
  (∀ (k : Fin 9) (w : Nat) (s : State),
      nextIs s k .call w = true →
      Completes (.call k CoreErr.good) s fun t => CoreMoves k { (s.core k) with pc := (s.core k).pc + BitVec.ofInt 48 (4 * (BitVec.ofNat 26 w).toInt), rs := (s.core k).rs.set (s.core k).ptr ((s.core k).pc + 4), ptr := ((s.core k).ptr + 1) % 16, depth := min ((s.core k).depth + 1) 16 } false s t) ∧
  (∀ (k : Fin 9) (w : Nat) (s : State),
      nextIs s k .jr w = true →
      Completes (.jr k CoreErr.good) s fun t => CoreMoves k { (s.core k) with pc := (s.core k).get (kRa w) } (decide ((s.core k).get (kRa w) ≠ (s.core k).pc + 4)) s t) ∧
  (∀ (k : Fin 9) (w : Nat) (s : State),
      nextIs s k .callr w = true →
      Completes (.callr k CoreErr.good) s fun t => CoreMoves k { (s.core k) with pc := (s.core k).get (kRa w), rs := (s.core k).rs.set (s.core k).ptr ((s.core k).pc + 4), ptr := ((s.core k).ptr + 1) % 16, depth := min ((s.core k).depth + 1) 16 } (decide ((s.core k).get (kRa w) ≠ (s.core k).pc + 4)) s t) ∧
  (∀ (k : Fin 9) (w : Nat) (s : State),
      nextIs s k .ret w = true →
      Completes (.ret k CoreErr.good) s fun t => CoreMoves k { (s.core k) with pc := (s.core k).rs.getD (((s.core k).ptr + 15) % 16) 0, ptr := ((s.core k).ptr + 15) % 16, depth := (s.core k).depth - 1 } false s t) ∧
  (∀ (k : Fin 9) (w : Nat) (s : State),
      nextIs s k .rspush w = true →
      Completes (.rspush k CoreErr.good) s fun t => CoreMoves k { (s.core k).next with rs := (s.core k).rs.set (s.core k).ptr ((s.core k).get (kRa w)), ptr := ((s.core k).ptr + 1) % 16, depth := min ((s.core k).depth + 1) 16 } false s t) ∧
  (∀ (k : Fin 9) (w : Nat) (s : State),
      nextIs s k .rspop w = true →
      Completes (.rspop k CoreErr.good) s fun t => CoreMoves k (({ (s.core k) with ptr := ((s.core k).ptr + 15) % 16, depth := (s.core k).depth - 1 } : Core).set (kRd w) ((s.core k).rs.getD (((s.core k).ptr + 15) % 16) 0)).next false s t) ∧
  (∀ (k : Fin 9) (w : Nat) (v : W) (s : State),
      nextIs s k .srr w = true →
      kRb w ≠ 7 →
      (sysReg k (kRb w) s).1 = v →
      Completes (.srr k CoreErr.good) s fun t => CoreMoves k ((s.core k).set (kRd w) v).next false s t) ∧
  (∀ (k : Fin 9) (w : Nat) (s : State),
      nextIs s k .srr w = true →
      kRb w = 7 →
      Completes (.srr k CoreErr.good) s fun t => (∃ v : W, t.core k = { ((s.core k).set (kRd w) v).next with wait := none, waitReg := none, ginjAt := none, idle := false, step := false } ∧ (let n := s.ticks - (s.core k).resetAt; 4 * n + 3 < 2 ^ 48 → 4 * n ≤ v.toNat + 3 ∧ v.toNat ≤ 4 * n + 3)) ∧ t.mem = s.mem ∧ t.pending = s.pending ∧ t.t = s.t) ∧
  (∀ (k : Fin 9) (w : Nat) (s : State),
      nextIs s k .srw w = true →
      Completes (.srw k CoreErr.good) s fun t => CoreMoves k ((s.core k).writeSys (kRd w) ((s.core k).get (kRa w))).next true s t) ∧
  (∀ (k : Fin 9) (w : Nat) (s : State),
      nextIs s k .tret w = true →
      Completes (.tret k CoreErr.good) s fun t => CoreMoves k { (s.core k) with pc := (s.core k).epc, status := (s.core k).estatus, resv := none } true s t) ∧
  (∀ (k : Fin 9) (w : Nat) (s : State),
      nextIs s k .wait w = true →
      (pendingIntr s k).isSome = true →
      Completes (.wait k CoreErr.good) s fun t => CoreMoves k (s.core k).next false s t) ∧
  (∀ (k : Fin 9) (w : Nat) (s : State),
      nextIs s k .wait w = true →
      (pendingIntr s k) = none →
      exec (.wait k CoreErr.good) s = .next (setIdle k true s)) ∧
  (∀ (k : Fin 9) (w : Nat) (s : State),
      nextIs s k .halt w = true →
      Completes (.halt k CoreErr.good) s fun t => (if k.val = 8 then t.get F.svStat_STATE 0 = svHalted else t.get F.ccStat_HALTED k = 1) ∧ (t.core k).pc = (s.core k).pc + 4 ∧ (t.core k).w = (s.core k).w ∧ t = { s with regs := t.regs, cc := t.cc } ∧ RegsBut [F.ccPc_PC, F.svPc_PC, F.ccStat_WAITING, F.ccStat_DBG_HALTED, F.ccStat_HALTED, F.svStat_STATE] s t) ∧
  (∀ (c : Core) (w : Nat), let a := c.get (kRd w); let b := c.get (kRa w);
    (kOp w = 0x20 → (branchTaken c w = true ↔ a = b)) ∧ (kOp w = 0x21 → (branchTaken c w = true ↔ a ≠ b)) ∧
    (kOp w = 0x22 → (branchTaken c w = true ↔ a.toInt < b.toInt)) ∧ (kOp w = 0x23 → (branchTaken c w = true ↔ ¬ a.toInt < b.toInt)) ∧
    (kOp w = 0x24 → (branchTaken c w = true ↔ a.toNat < b.toNat)) ∧ (kOp w = 0x25 → (branchTaken c w = true ↔ ¬ a.toNat < b.toNat)))

/-- Each trap enters its vector with EPC, EADDR, ECAUSE, ESTATUS and STATUS as R331 and R332 say; a trap at trap level stops the core (R334). -/
def Obligations.CoresTakeTraps : Prop :=
  (∀ (k : Fin 9) (w : Nat) (s : State),
      nextWord s k w = true →
      (s.core k).tl = false →
      kRow w = none →
      Completes (.alu k CoreErr.good) s fun t => TrapEntered k (s.core k) tIllegal ((s.core k).pc) (w48 w) (0) false s t) ∧
  (∀ (k : Fin 9) (w : Nat) (s : State),
      nextWord s k w = true →
      (s.core k).tl = false →
      kRow w = some .halt →
      (s.core k).priv = false →
      Completes (.halt k CoreErr.good) s fun t => TrapEntered k (s.core k) tPriv ((s.core k).pc) (w48 w) (0) false s t) ∧
  (∀ (k : Fin 9) (w : Nat) (s : State),
      nextWord s k w = true →
      (s.core k).tl = false →
      kRow w = some .srw →
      kRd w ≠ 0 →
      (s.core k).priv = false →
      Completes (.srw k CoreErr.good) s fun t => TrapEntered k (s.core k) tPriv ((s.core k).pc) (w48 w) (0) false s t) ∧
  (∀ (k : Fin 9) (s : State),
      s.cc.cores.length = 9 →
      (s.core k).tl = false →
      coreReady s k = true →
      fetchable s k (s.core k).pc = false →
      Completes (.alu k CoreErr.good) s fun t => TrapEntered k (s.core k) tFetch ((s.core k).pc) ((s.core k).pc) (0) false s t) ∧
  (∀ (k : Fin 9) (s : State),
      s.cc.cores.length = 9 →
      (s.core k).tl = false →
      coreReady s k = true →
      fetchable s k (s.core k).pc = true →
      (s.core k).pc.toNat % 4 ≠ 0 →
      Completes (.alu k CoreErr.good) s fun t => TrapEntered k (s.core k) tAlign ((s.core k).pc) ((s.core k).pc) (0) false s t) ∧
  (∀ (k : Fin 9) (w : Nat) (a : W) (n : Nat) (s : State),
      nextWord s k w = true →
      (s.core k).tl = false →
      kRow w = some .ld →
      access (s.core k) .ld w = some (a, n) →
      a.toNat % (if n = 6 then 8 else n) ≠ 0 →
      Completes (.ld k CoreErr.good) s fun t => TrapEntered k (s.core k) tAlign ((s.core k).pc) (a) (0) false s t) ∧
  (∀ (k : Fin 9) (w : Nat) (a : W) (n : Nat) (s : State),
      nextWord s k w = true →
      (s.core k).tl = false →
      kRow w = some .st →
      access (s.core k) .st w = some (a, n) →
      a.toNat % (if n = 6 then 8 else n) ≠ 0 →
      Completes (.st k CoreErr.good) s fun t => TrapEntered k (s.core k) tAlign ((s.core k).pc) (a) (0) false s t) ∧
  (∀ (k : Fin 9) (w : Nat) (a : W) (n : Nat) (s : State),
      nextWord s k w = true →
      (s.core k).tl = false →
      kRow w = some .tas →
      access (s.core k) .tas w = some (a, n) →
      a.toNat % 8 = 0 →
      ownMem s a = false →
      Completes (.tas k CoreErr.good) s fun t => TrapEntered k (s.core k) tData ((s.core k).pc) (a) (0) false s t) ∧
  (∀ (k : Fin 9) (w : Nat) (s : State),
      nextWord s k w = true →
      (s.core k).tl = false →
      kRow w = some .call →
      (s.core k).depth = 16 →
      (s.core k).rsm = true →
      Completes (.call k CoreErr.good) s fun t => TrapEntered k (s.core k) tRsovf ((s.core k).pc) (0) (0) false s t) ∧
  (∀ (k : Fin 9) (w : Nat) (s : State),
      nextWord s k w = true →
      (s.core k).tl = false →
      kRow w = some .ret →
      (s.core k).depth = 0 →
      (s.core k).rsm = true →
      Completes (.ret k CoreErr.good) s fun t => TrapEntered k (s.core k) tRsund ((s.core k).pc) (0) (0) false s t) ∧
  (∀ (k : Fin 9) (w : Nat) (v : W) (b : Stk) (s : State),
      nextWord s k w = true →
      (s.core k).tl = false →
      kRow w = some .alu →
      kCompute (s.core k) w = (v, b) →
      b.toNat &&& (s.core k).trapMask ≠ 0 →
      Completes (.alu k CoreErr.good) s fun t => TrapEntered k { ((s.core k).set (kRd w) v).next with status := (s.core k).status ||| b.setWidth 48 } tArith ((s.core k).pc + 4) (b.setWidth 48) (0) false s t) ∧
  (∀ (k : Fin 9) (w : Nat) (v : W) (s : State),
      nextWord s k w = true →
      (s.core k).tl = false →
      kRow w = some .trapi →
      v = (s.core k).get (kRb w) →
      Completes (.trapi k CoreErr.good) s fun t => TrapEntered k (s.core k) tTrapi ((s.core k).pc + 4) (v) (v.toNat) false s t) ∧
  (∀ (k : Fin 9) (w : Nat) (r : Nat) (s : State),
      nextWord s k w = true →
      (s.core k).tl = false →
      kRow w = some .ginj →
      k.val < 8 →
      ginjReason s k ((s.core k).get (kRd w)) (s.core k).priv = r →
      r ≠ 0 →
      Completes (.ginj k CoreErr.good) s fun t => TrapEntered k (s.core k) tGport ((s.core k).pc) (w48 r) (0) false s t) ∧
  (∀ (k : Fin 9) (n : Nat) (a : W) (s : State),
      s.cc.cores.length = 9 →
      (s.core k).tl = false →
      coreRuns s k = true →
      atBoundary s k = true →
      postedError s k = some (n, a) →
      Completes (.postedStoreError k) s fun t => TrapEntered k { (s.core k) with posted := (s.core k).posted.filter fun p => p.1 ≠ n } tData ((s.core k).pc) (a) (0) true s t) ∧
  (∀ (k : Fin 8) (n : Nat) (s : State),
      s.cc.cores.length = 9 →
      coreRuns s k = true →
      atBoundary s k = true →
      postedError s k = none →
      intrDue s k = true →
      (s.core k).idle = false →
      pendingIntr s k = some n →
      Completes (.intr k) s fun t => TrapEntered k (s.core k) tIntr ((s.core k).pc) 0 n false s t) ∧
  (∀ (n : Nat) (s : State),
      s.cc.cores.length = 9 →
      coreRuns s 8 = true →
      atBoundary s 8 = true →
      postedError s 8 = none →
      intrDue s 8 = true →
      (s.core 8).idle = false →
      pendingIntr s 8 = some n →
      Completes (.svIntr) s fun t => TrapEntered 8 (s.core 8) tIntr ((s.core 8).pc) 0 n false s t) ∧
  (∀ (k : Fin 8) (w : Nat) (s : State),
      nextWord s k w = true →
      (s.core k).tl = true →
      kRow w = none →
      Completes (.alu (k.castSucc) CoreErr.good) s fun t => t.get F.ccStat_DOUBLE k = 1 ∧ t.get F.ccStat_LAST_CAUSE k = tIllegal ∧ t.get F.ccPc_PC k = (s.core k).pc.toNat ∧ t.core k = { (s.core k) with double := true, wait := none, waitReg := none, ginjAt := none, idle := false, step := false } ∧ coreRuns t k = false ∧ t.mem = s.mem ∧ t.pending = s.pending)

/-- GINJ queues its token, waits or times out, the hand-over injects or drops it, and GCOL collects from a mailbox (R351–R353). -/
def Obligations.GraphPortQueuesAndMailboxes : Prop :=
  (∀ (k : Fin 8) (w : Nat) (s : State),
      nextIs s k .ginj w = true →
      ginjReason s k ((s.core k).get (kRd w)) (s.core k).priv = 0 →
      (s.injList k).length < injDepth →
      Completes (.ginj (k.castSucc) CoreErr.good) s fun t => t.injList k = s.injList k ++ [ginjToken s k ((s.core k).get (kRd w)) ((s.core k).get (kRa w)) ((s.core k).get (kRb w))] ∧ t.get F.gpCtl_PNEXT k = 0 ∧ (t.core k).pc = (s.core k).pc + 4 ∧ (t.core k).w = (s.core k).w ∧ t = { s with regs := t.regs, cc := t.cc, sched := t.sched } ∧ RegsBut [F.ccPc_PC, F.ccStat_WAITING, F.ccStat_DBG_HALTED, F.gpCtl_PNEXT] s t) ∧
  (∀ (k : Fin 8) (w : Nat) (s : State),
      nextIs s k .ginj w = true →
      ginjReason s k ((s.core k).get (kRd w)) (s.core k).priv = 0 →
      injDepth ≤ (s.injList k).length →
      exec (.ginj (k.castSucc) CoreErr.good) s = .next (s.setCore k { (s.core k) with ginjAt := some (s.ticks, w) })) ∧
  (∀ (k : Fin 8) (t0 w : Nat) (s : State),
      s.fatal = false →
      s.cc.cores.length = 9 →
      (s.core k).ginjAt = some (t0, w) →
      s.get F.gpCfg_WAIT k ≠ 0 →
      t0 + s.get F.gpCfg_WAIT k ≤ s.ticks →
      injDepth ≤ (s.injList k).length →
      (s.core k).tl = false →
      Completes (.ginjFullTimeout k) s fun t => TrapEntered k (s.core k) tGport (s.core k).pc 5 0 false s t ∧ t.get F.gpStat_REASON k = 5 ∧ t.injList k = s.injList k) ∧
  (∀ (c : Fin 8) (x : Token) (rest : List Token) (s : State),
      s.fatal = false →
      s.injList c = x :: rest →
      s.pRuns (tagPart x.tag) = false →
      Completes (.ginjHandover c) s fun t => t.injList c = rest ∧ t.get F.gpStat_DROPPED c = (s.get F.gpStat_DROPPED c + 1) % 2 ^ F.gpStat_DROPPED.w ∧ t = { s with regs := t.regs, sched := t.sched, pcie := t.pcie, cl := { s.cl with unblocked := t.cl.unblocked } } ∧ RegsBut [F.gpStat_DROPPED, F.evCfg_COUNT, F.evCfg_PEND] s t) ∧
  (∀ (c : Fin 8) (x : Token) (rest : List Token) (s : State),
      s.fatal = false →
      s.injList c = x :: rest →
      s.pRuns (tagPart x.tag) = true →
      pausedP s (tagPart x.tag) = false →
      injectRoom s nodeHub (tagPart x.tag) 0 = true →
      (s.cl.injQ.any fun f => f.node = nodeHub && f.cls = tagPart x.tag) = false →
      Completes (.ginjHandover c) s fun t => (let u := noteBreak (tagPart x.tag) (s.setInj c rest); t = handOver x (countProd (tagPart x.tag) (tagEpoch x.tag) (sourceRate (512 + c) (tagPart x.tag) ((if (s.injList c).length = injDepth then raiseEvent (456 + c) u else u).inc F.gpStat_INJECTED c)))) ∧ t.injList c = rest ∧ t.get F.gpStat_INJECTED c = (s.get F.gpStat_INJECTED c + 1) % 2 ^ F.gpStat_INJECTED.w ∧ mget 0 t.cl.cnt (tagPart x.tag * 8) = (mget 0 s.cl.cnt (tagPart x.tag * 8) + 1) % 2 ^ 48 ∧ t.mem = s.mem ∧ t.pending = s.pending ∧ t.t = s.t) ∧
  (∀ (k : Fin 8) (w : Nat) (m : Fin 8) (s : State),
      nextIs s k .gcol w = true →
      ((s.core k).priv = true ∨ s.flag F.gpCfg_THREAD_OK k = true) →
      ((s.core k).get (kRa w)).toNat = m.val →
      (takeFirst (fun e : Nat × Option MbxEntry => e.1 / 8 = k.val) s.sched.ahead) = none →
      s.mbx (k.val * 8 + m.val) = [] →
      Completes (.gcol (k.castSucc) ⟨.good, none⟩) s fun t => CoreMoves k ((((s.core k).set (kRd w) 0).set (kRd w + 1) 0).set (kRd w + 2) 1).next false s t) ∧
  (∀ (k : Fin 8) (w : Nat) (m : Fin 8) (x : MbxEntry) (rest : List MbxEntry) (s : State),
      nextIs s k .gcol w = true →
      ((s.core k).priv = true ∨ s.flag F.gpCfg_THREAD_OK k = true) →
      ((s.core k).get (kRa w)).toNat = m.val →
      (takeFirst (fun e : Nat × Option MbxEntry => e.1 / 8 = k.val) s.sched.ahead) = none →
      s.mbx (k.val * 8 + m.val) = x :: rest →
      x.unc = false →
      Completes (.gcol (k.castSucc) ⟨.good, none⟩) s fun t => t.mbx (k.val * 8 + m.val) = rest ∧ (t.core k).w = ((((s.core k).set (kRd w) x.data).set (kRd w + 1) x.due).set (kRd w + 2) x.tag).w ∧ (t.core k).pc = (s.core k).pc + 4 ∧ t = { s with regs := t.regs, cc := t.cc, sched := t.sched } ∧ RegsBut [F.ccPc_PC, F.ccStat_WAITING, F.ccStat_DBG_HALTED] s t) ∧
  (∀ (k : Fin 8) (w : Nat) (m : Fin 8) (x : MbxEntry) (rest : List (Nat × Option MbxEntry)) (s : State),
      nextIs s k .gcol w = true →
      ((s.core k).priv = true ∨ s.flag F.gpCfg_THREAD_OK k = true) →
      ((s.core k).get (kRa w)).toNat = m.val →
      (takeFirst (fun e : Nat × Option MbxEntry => e.1 / 8 = k.val) s.sched.ahead) = some ((k.val * 8 + m.val, some x), rest) →
      x.unc = false →
      Completes (.gcol (k.castSucc) ⟨.good, none⟩) s fun t => t.mbx (k.val * 8 + m.val) = s.mbx (k.val * 8 + m.val) ∧ t.sched.ahead = rest ∧ (t.core k).w = ((((s.core k).set (kRd w) x.data).set (kRd w + 1) x.due).set (kRd w + 2) x.tag).w ∧ (t.core k).pc = (s.core k).pc + 4 ∧ t = { s with regs := t.regs, cc := t.cc, sched := t.sched }) ∧
  (∀ (k : Fin 8) (m : Fin 8) (err : CoreErr) (x : MbxEntry) (rest : List MbxEntry) (s : State),
      s.fatal = false →
      coreRuns s k = true →
      ((s.core k).priv = true ∨ s.flag F.gpCfg_THREAD_OK k = true) →
      (s.sched.ahead.filter fun e => e.1 / 8 = k.val).length < 3 →
      s.mbx (k.val * 8 + m.val) = x :: rest →
      Completes (.gcol (k.castSucc) ⟨err, some m⟩) s fun t => t.mbx (k.val * 8 + m.val) = rest ∧ t.sched.ahead = s.sched.ahead ++ [(k.val * 8 + m.val, some x)] ∧ mbxHeld t (k.val * 8 + m.val) = mbxHeld s (k.val * 8 + m.val) ∧ t = { s with sched := t.sched }) ∧
  (∀ (k i : Nat) (v : MbxEntry) (x : SchedSt), i / 8 = k → (x.ahead.filter fun e => e.1 / 8 = k) = [(i, some v)] →
    mget [] (x.squash k).mbx i = v :: mget [] x.mbx i ∧ (x.squash k).ahead = x.ahead.filter fun e => e.1 / 8 ≠ k)

/-- Core control, debug and the thread operations make exactly the moves of R336, R339, R342 and R345. -/
def Obligations.ThreadsMoveBetweenStates : Prop :=
  (∀ (who : From) (k : Fin 8) (run : Bool) (s : State),
      s.fatal = false →
      (fromHost who.1 = true ∨ fromCore who.1 = true) →
      exec (.ccRun who k run) s = .next (s.set F.ccCtl_RUN k (b2n run))) ∧
  (∀ (who : From) (k : Fin 8) (s : State),
      s.fatal = false →
      (fromHost who.1 = true ∨ fromCore who.1 = true) →
      s.cc.cores.length = 9 →
      Completes (.ccReset who k) s fun t => t.core k = { Core.empty with pc := w48 (s.get F.ccBoot_PC k) &&& ~~~(3 : W), resetAt := s.ticks } ∧ t.get F.ccStat_HALTED k = 0 ∧ t.get F.ccStat_WAITING k = 0 ∧ t = { s with regs := t.regs, cc := t.cc, net := t.net, sched := s.sched.squash k } ∧ (∀ j, j ≠ k.val → t.core j = s.core j) ∧ RegsBut [F.ccStat_HALTED, F.ccStat_WAITING] s t) ∧
  (∀ (who : From) (k : Fin 8) (s : State),
      s.fatal = false →
      s.cc.cores.length = 9 →
      atBoundary s k = true →
      Completes (.haltReq who k true) s fun t => t.get F.ccDbg_HALT_REQ k = 1 ∧ t.get F.ccStat_DBG_HALTED k = 1 ∧ t = { s with regs := t.regs } ∧ RegsBut [F.ccDbg_HALT_REQ, F.ccStat_DBG_HALTED] s t) ∧
  (∀ (who : From) (k : Fin 8) (s : State),
      s.fatal = false →
      s.cc.cores.length = 9 →
      Completes (.haltReq who k false) s fun t => t.get F.ccDbg_HALT_REQ k = 0 ∧ t.get F.ccStat_DBG_HALTED k = 0 ∧ t.core k = { s.core k with step := false } ∧ t = { s with regs := t.regs, cc := t.cc } ∧ RegsBut [F.ccDbg_HALT_REQ, F.ccStat_DBG_HALTED] s t) ∧
  (∀ (who : From) (k : Fin 8) (s : State),
      s.fatal = false →
      s.flag F.ccStat_DBG_HALTED k = true →
      (s.core k).double = false →
      s.flag F.ccStat_HALTED k = false →
      exec (.step who k) s = .next (s.setCore k { s.core k with step := true })) ∧
  (∀ (who : From) (i : Fin 256) (s : State),
      s.fatal = false →
      (fromHost who.1 = true ∨ fromCore who.1 = true ∧ who.2 = true) →
      s.get F.thrCfg_STATE i = thrFree →
      Completes (.create who i) s fun t => t.get F.thrCfg_STATE i = thrReady ∧ mget 0 t.sched.readyT i = s.sched.order ∧ t.sched.order = s.sched.order + 1 ∧ t = { s with regs := t.regs, sched := { s.sched with readyT := t.sched.readyT, order := t.sched.order } } ∧ RegsBut [F.thrCfg_STATE] s t ∧ InstBut F.thrCfg_STATE i s t) ∧
  (∀ (who : From) (i : Fin 256) (s : State),
      s.fatal = false →
      (fromHost who.1 = true ∨ fromCore who.1 = true ∧ who.2 = true) →
      s.get F.thrCfg_STATE i = thrBlocked →
      Completes (.wake who i) s fun t => t.get F.thrCfg_STATE i = thrReady ∧ mget 0 t.sched.readyT i = s.sched.order ∧ t = { s with regs := t.regs, sched := { s.sched with readyT := t.sched.readyT, order := s.sched.order + 1 } } ∧ RegsBut [F.thrCfg_STATE] s t ∧ InstBut F.thrCfg_STATE i s t) ∧
  (∀ (who : From) (i : Fin 256) (s : State),
      s.fatal = false →
      (fromHost who.1 = true ∨ fromCore who.1 = true ∧ who.2 = true) →
      s.get F.thrCfg_STATE i ≠ thrRunning →
      exec (.kill who i) s = .next (s.set F.thrCfg_STATE i thrFree)) ∧
  (∀ (who : From) (i : Fin 256) (s : State),
      (s.get F.thrCfg_STATE i = thrRunning ∨ fromSv who.1 = true) →
      exec (.kill who i) s = .next (s)) ∧
  (∀ (who : From) (c : Fin 8) (i : Nat) (s : State),
      s.fatal = false →
      fromCore who.1 = true →
      who.2 = true →
      runningOn s who.1 = some i →
      exec (.yield who c) s = .next (toReady i s)) ∧
  (∀ (who : From) (c : Fin 8) (i : Nat) (s : State),
      s.fatal = false →
      fromCore who.1 = true →
      who.2 = true →
      runningOn s who.1 = some i →
      wakes s i = false →
      exec (.block who c) s = .next (s.set F.thrCfg_STATE i thrBlocked)) ∧
  (∀ (who : From) (c : Fin 8) (i : Nat) (s : State),
      s.fatal = false →
      fromCore who.1 = true →
      who.2 = true →
      runningOn s who.1 = some i →
      exec (.exit who c) s = .next (s.set F.thrCfg_STATE i thrFree)) ∧
  (∀ (who : From) (tr : Fin 128) (c : Fin 8) (s : State),
      s.fatal = false →
      fromCore who.1 = true →
      who.2 = true →
      offer s who.1 = none →
      exec (.schedClaim who tr c) s = .next (leaveRsp ⟨who.1, tr, true, 0, 0⟩ s)) ∧
  (∀ (who : From) (tr : Fin 128) (c : Fin 8) (i : Nat) (s : State),
      s.fatal = false →
      fromCore who.1 = true →
      who.2 = true →
      offer s who.1 = some i →
      runningOn s who.1 = none →
      Completes (.schedClaim who tr c) s fun t => t.get F.thrCfg_STATE i = thrRunning ∧ t.get F.thrCfg_CORE i = who.1.val ∧ t.get F.thrCfg_LAST i = who.1.val ∧ t.get F.thrCfg_LAST_VALID i = 1 ∧ ⟨who.1, tr, true, BitVec.ofNat 64 (i + 256), 0⟩ ∈ t.net.hubRsp ∧ t = { s with regs := t.regs, net := t.net } ∧ RegsBut [F.thrCfg_STATE, F.thrCfg_CORE, F.thrCfg_LAST, F.thrCfg_LAST_VALID] s t) ∧
  (∀ (i : Fin 256) (s : State),
      s.fatal = false →
      s.get F.thrCfg_STATE i = thrBlocked →
      wakes s i = true →
      exec (.slotWake i) s = .next (toReady i s)) ∧
  (∀ (i : Fin 256) (s : State),
      (s.get F.thrCfg_STATE i ≠ thrBlocked ∨ wakes s i = false) →
      exec (.slotWake i) s = .next (s))

/-- RAISE and DOORBELL count and pend events, timers fire once or by period, and locks change hands (R343, R344, R346–R349, R426). -/
def Obligations.EventsTimersAndLocks : Prop :=
  (∀ (who : From) (n : Fin 512) (s : State),
      s.fatal = false →
      (fromHost who.1 = true ∨ fromCore who.1 = true ∧ who.2 = true) →
      s.flag F.evCfg_MSIX_EN n = false →
      Completes (.raise who n) s fun t => t.get F.evCfg_COUNT n = (s.get F.evCfg_COUNT n + 1) % 2 ^ 16 ∧ t.get F.evCfg_PEND n = (if s.flag F.evCfg_EN n then 1 else s.get F.evCfg_PEND n) ∧ t = { s with regs := t.regs } ∧ RegsBut [F.evCfg_COUNT, F.evCfg_PEND] s t ∧ InstBut F.evCfg_COUNT n s t ∧ InstBut F.evCfg_PEND n s t) ∧
  (∀ (who : From) (n : Fin 512) (s : State),
      s.fatal = false →
      (fromHost who.1 = true ∨ fromCore who.1 = true ∧ who.2 = true) →
      s.flag F.evCfg_EN n = true →
      s.flag F.evCfg_MSIX_EN n = true →
      s.flag F.pcieStat_MSIX_EN 0 = true →
      s.flag F.pcieStat_FMASK 0 = false →
      s.flag F.pcieStat_BME 0 = true →
      mget 1 s.pcie.msixTab (n.val * 4 + 3) % 2 = 0 →
      mfind s.pcie.msixPend n = none →
      Completes (.raise who n) s fun t => t.pcie = { s.pcie with msixSent := s.pcie.msixSent ++ [⟨n.val, BitVec.ofNat 64 (mget 0 s.pcie.msixTab (n.val * 4) + mget 0 s.pcie.msixTab (n.val * 4 + 1) * 2 ^ 32), BitVec.ofNat 32 (mget 0 s.pcie.msixTab (n.val * 4 + 2))⟩] } ∧ t.get F.evCfg_PEND n = 1 ∧ t = { s with regs := t.regs, pcie := t.pcie } ∧ RegsBut [F.evCfg_COUNT, F.evCfg_PEND] s t) ∧
  (∀ (who : From) (n : Fin 512) (s : State),
      s.fatal = false →
      (fromHost who.1 = true ∨ fromCore who.1 = true ∧ who.2 = true) →
      s.flag F.evCfg_EN n = true →
      s.flag F.evCfg_MSIX_EN n = true →
      (mfind s.pcie.msixPend n).isSome = true →
      Completes (.raise who n) s fun t => t.pcie.msixSent = s.pcie.msixSent ∧ (mfind t.pcie.msixPend n).isSome = true ∧ t.get F.evCfg_PEND n = 1 ∧ t = { s with regs := t.regs, pcie := t.pcie } ∧ RegsBut [F.evCfg_COUNT, F.evCfg_PEND] s t) ∧
  (∀ (who : From) (v : BitVec 32) (s : State),
      s.fatal = false →
      (fromHost who.1 = true ∨ fromCore who.1 = true) →
      (∀ i : Fin 32, s.flag F.evCfg_MSIX_EN (424 + i.val) = false) →
      Completes (.doorbell who v) s fun t => (∀ i : Fin 32, t.get F.evCfg_COUNT (424 + i.val) = if v.getLsbD i then (s.get F.evCfg_COUNT (424 + i.val) + 1) % 2 ^ 16 else s.get F.evCfg_COUNT (424 + i.val)) ∧ t = { s with regs := t.regs } ∧ RegsBut [F.evCfg_COUNT, F.evCfg_PEND] s t) ∧
  (∀ (k : Fin 16) (s : State),
      s.fatal = false →
      s.flag F.timerCfg_EN k = true →
      0 ≤ sdiff s.t (w48 (s.get F.timerCmp_T k)) →
      s.get F.timerCfg_PERIOD k = 0 →
      Completes (.timer k) s fun t => t.get F.timerCfg_EN k = 0 ∧ t.get F.evCfg_COUNT (408 + k.val) = (s.get F.evCfg_COUNT (408 + k.val) + 1) % 2 ^ 16 ∧ t.get F.timerCmp_T k = s.get F.timerCmp_T k ∧ t.mem = s.mem ∧ t.pending = s.pending ∧ t.t = s.t) ∧
  (∀ (k : Fin 16) (m : Nat) (s : State),
      s.fatal = false →
      s.flag F.timerCfg_EN k = true →
      sdiff s.t (w48 (s.get F.timerCmp_T k)) = (m : Int) →
      s.get F.timerCfg_PERIOD k ≠ 0 →
      Completes (.timer k) s fun t => t.get F.timerCfg_EN k = s.get F.timerCfg_EN k ∧ t.get F.timerCmp_T k = (w48 (s.get F.timerCmp_T k) + BitVec.ofNat 48 ((m / s.get F.timerCfg_PERIOD k + 1) * s.get F.timerCfg_PERIOD k)).toNat ∧ t.get F.timerCfg_MISSED k = (s.get F.timerCfg_MISSED k + m / s.get F.timerCfg_PERIOD k) % 2 ^ F.timerCfg_MISSED.w ∧ t.get F.evCfg_COUNT (408 + k.val) = (s.get F.evCfg_COUNT (408 + k.val) + 1) % 2 ^ 16 ∧ t.mem = s.mem ∧ t.pending = s.pending) ∧
  (∀ (who : From) (tr : Fin 128) (k : Fin 64) (s : State),
      s.fatal = false →
      who.1.val ≠ 12 →
      s.flag F.lkPeek_HELD k = false →
      Completes (.lockAcquire who tr k) s fun t => t.get F.lkPeek_HELD k = 1 ∧ t.get F.lkPeek_OWNER k = who.1.val ∧ t.get F.lkPeek_ACQS k = (s.get F.lkPeek_ACQS k + 1) % 2 ^ F.lkPeek_ACQS.w ∧ ⟨who.1, tr, true, BitVec.ofNat 64 (7 + who.1.val * 8), 0⟩ ∈ t.net.hubRsp ∧ t = { s with regs := t.regs, net := t.net } ∧ RegsBut [F.lkPeek_HELD, F.lkPeek_OWNER, F.lkPeek_ACQS, F.lkPeek_THREAD, F.lkPeek_THR_VALID] s t) ∧
  (∀ (who : From) (tr : Fin 128) (k : Fin 64) (s : State),
      s.fatal = false →
      who.1.val ≠ 12 →
      s.flag F.lkPeek_HELD k = true →
      exec (.lockAcquire who tr k) s = .next (leaveRsp ⟨who.1, tr, true, BitVec.ofNat 64 (2 + (if s.get F.lkPeek_OWNER k = who.1.val then 4 else 0) + s.get F.lkPeek_OWNER k * 8), 0⟩ s)) ∧
  (∀ (who : From) (k : Fin 64) (s : State),
      s.fatal = false →
      s.flag F.lkPeek_HELD k = true →
      s.get F.lkPeek_OWNER k = who.1.val →
      Completes (.lockRelease who k) s fun t => t.get F.lkPeek_HELD k = 0 ∧ t.get F.lkPeek_OWNER k = 15 ∧ t.get F.evCfg_COUNT (344 + k.val) = (s.get F.evCfg_COUNT (344 + k.val) + 1) % 2 ^ 16 ∧ t = { s with regs := t.regs, pcie := t.pcie } ∧ RegsBut [F.lkPeek_HELD, F.lkPeek_OWNER, F.lkPeek_THREAD, F.lkPeek_THR_VALID, F.evCfg_COUNT, F.evCfg_PEND] s t) ∧
  (∀ (who : From) (k : Fin 64) (s : State),
      s.fatal = false →
      (s.flag F.lkPeek_HELD k = false ∨ s.get F.lkPeek_OWNER k ≠ who.1.val) →
      exec (.lockRelease who k) s = .next (s.set F.lkPeek_BADREL k 1)) ∧
  (∀ (who : From) (k : Fin 64) (s : State),
      s.fatal = false →
      fromHost who.1 = true →
      Completes (.lockForce who k) s fun t => t.get F.lkPeek_FORCED_EVT k = 1 ∧ t.get F.lkPeek_HELD k = 0 ∧ t.get F.lkPeek_OWNER k = 15 ∧ t.get F.evCfg_COUNT (344 + k.val) = (s.get F.evCfg_COUNT (344 + k.val) + 1) % 2 ^ 16 ∧ t = { s with regs := t.regs, pcie := t.pcie } ∧ RegsBut [F.lkPeek_FORCED_EVT, F.lkPeek_HELD, F.lkPeek_OWNER, F.lkPeek_THREAD, F.lkPeek_THR_VALID, F.evCfg_COUNT, F.evCfg_PEND] s t)

/-- The interlock supervisor resets, tests, runs, is debugged, watched and failed, and passes messages, as R361–R373 say. -/
def Obligations.SupervisorRunsAndFails : Prop :=
  (∀ (who : From) (s : State),
      s.fatal = false →
      fromMc who.1 = true →
      s.svState = svHeld →
      s.flag F.svStat_CMP_OK 0 = true →
      s.cc.cores.length = 9 →
      s.flag F.svDbg_HALT_REQ 0 = false →
      Completes (.svRun who) s fun t => t.svState = svRun ∧ t.get F.svCtl_RUN 0 = 1 ∧ (t.core 8).pc = w48 (s.get F.svBoot_PC 0) &&& ~~~(3 : W) ∧ t.cc.kickAt = s.ticks ∧ t = { s with regs := t.regs, cc := t.cc } ∧ RegsBut [F.svStat_STATE, F.svCtl_RUN] s t ∧ (∀ j, j ≠ 8 → t.core j = s.core j)) ∧
  (∀ (who : From) (s : State),
      (fromMc who.1 = false ∨ s.svState ≠ svHeld ∨ s.flag F.svStat_CMP_OK 0 = false) →
      exec (.svRun who) s = .next (s)) ∧
  (∀ (who : From) (s : State),
      s.fatal = false →
      fromMc who.1 = true →
      s.svState ≠ svFailed →
      s.cc.cores.length = 9 →
      Completes (.svReset who) s fun t => t.svState = svHeld ∧ t.get F.svCtl_RUN 0 = 0 ∧ t.get F.svStat_CMP_OK 0 = 0 ∧ t.get F.svStat_CMP_FAIL 0 = 0 ∧ t.core 8 = { Core.empty with pc := w48 (s.get F.svBoot_PC 0) &&& ~~~(3 : W), resetAt := s.ticks } ∧ t = { s with regs := t.regs, cc := t.cc, net := t.net, sched := s.sched.squash 8 } ∧ RegsBut [F.svStat_STATE, F.svCtl_RUN, F.svStat_CMP_OK, F.svStat_CMP_FAIL] s t ∧ (∀ j, j ≠ 8 → t.core j = s.core j)) ∧
  (∀ (who : From) (s : State),
      s.svState = svFailed →
      exec (.svReset who) s = .next (s)) ∧
  (∀ (who : From) (s : State),
      s.fatal = false →
      fromMc who.1 = true →
      s.svState = svHeld →
      exec (.cmpTest who true) s = .next (s.set F.svStat_CMP_OK 0 1)) ∧
  (∀ (who : From) (s : State),
      s.fatal = false →
      fromMc who.1 = true →
      s.svState = svHeld →
      exec (.cmpTest who false) s = .next (reportU 30 (coreLoc 8) 0 (s.set F.svStat_CMP_FAIL 0 1))) ∧
  (∀ (group : BitVec 4) (a b wire : Bool) (s : State),
      s.fatal = false →
      (a = true ∨ b = true ∨ wire = true) →
      s.svState ≠ svFailed →
      s.flag F.svMisc_VALID 0 = false →
      (faultInst s 32 (coreLoc 8)).eff = clsF →
      s.get F.fkCfg_MAXC 32 ≤ clsF →
      Completes (.lockstepMiscompare group a b wire) s fun t => t.svState = svFailed ∧ t.get F.svMisc_VALID 0 = 1 ∧ t.get F.svMisc_GROUP 0 = group.toNat ∧ t.get F.svMisc_CMPA 0 = b2n a ∧ t.get F.svMisc_CMPB 0 = b2n b ∧ t.get F.svMisc_WIRE 0 = b2n wire ∧ t.fatal = true ∧ t.flt.nfatal = true ∧ t.pending = s.pending ∧ t.t = s.t) ∧
  (∀ (who : From) (n : BitVec 6) (s : State),
      s.fatal = false →
      s.flag F.svCtl_DBG_EN 0 = true →
      exec (.svDebugAction who (.select n)) s = .next (s.set F.svDbg_SEL 0 n.toNat)) ∧
  (∀ (who : From) (s : State),
      s.fatal = false →
      s.flag F.svCtl_DBG_EN 0 = true →
      s.svState = svRun →
      atBoundary s 8 = true →
      Completes (.svDebugAction who (.halt true)) s fun t => t.svState = svDbg ∧ t.get F.svDbg_HALT_REQ 0 = 1 ∧ t = { s with regs := t.regs } ∧ RegsBut [F.svStat_STATE, F.svDbg_HALT_REQ] s t) ∧
  (∀ (who : From) (s : State),
      s.fatal = false →
      s.flag F.svCtl_DBG_EN 0 = true →
      s.svState = svDbg →
      (s.core 8).double = false →
      exec (.svDebugAction who .step) s = .next (s.setCore 8 { s.core 8 with step := true })) ∧
  (∀ (who : From) (v : W) (s : State),
      s.fatal = false →
      s.flag F.svCtl_DBG_EN 0 = true →
      s.svState = svDbg →
      s.get F.svDbg_SEL 0 = 32 →
      exec (.svDebugAction who (.data v)) s = .next (squashGcol 8 (s.setCore 8 { s.core 8 with pc := v &&& ~~~(3 : W) }))) ∧
  (∀ (who : From) (s : State),
      s.fatal = false →
      s.flag F.svCtl_DBG_EN 0 = true →
      s.svState = svDbg →
      Completes (.svDebugAction who (.halt false)) s fun t => t.svState = svRun ∧ t.get F.svDbg_HALT_REQ 0 = 0 ∧ t.cc.kickAt = s.ticks ∧ t = { s with regs := t.regs, cc := t.cc } ∧ RegsBut [F.svStat_STATE, F.svDbg_HALT_REQ] s t) ∧
  (∀ (who : From) (a : DbgAct) (s : State),
      s.flag F.svCtl_DBG_EN 0 = false →
      exec (.svDebugAction who a) s = .next (s)) ∧
  (∀ (who : From) (s : State),
      s.fatal = false →
      fromSv who.1 = true →
      who.2 = true →
      exec (.kick who) s = .next ({ s with cc := { s.cc with kickAt := s.ticks } })) ∧
  (∀ (who : From) (s : State),
      (fromSv who.1 = false ∨ who.2 = false) →
      exec (.kick who) s = .next (s)) ∧
  (∀  (s : State),
      s.fatal = false →
      s.svState = svRun →
      s.flag F.svWdog_EN 0 = true →
      s.get F.svWdog_PERIOD 0 ≠ 0 →
      s.cc.kickAt + s.get F.svWdog_PERIOD 0 ≤ s.ticks →
      Completes (.watchdogExpiry) s fun t => t.get F.svStat_WDOG_EVT 0 = 1 ∧ t.cc = { s.cc with kickAt := s.cc.kickAt + s.get F.svWdog_PERIOD 0 } ∧ t.get F.ilkStat_LATCH 0 = 255 ∧ t.mem = s.mem ∧ t.pending = s.pending ∧ t.t = s.t) ∧
  (∀  (s : State),
      s.fatal = false →
      s.flag F.svStat_TMR_ARMED 0 = true →
      0 ≤ sdiff s.t (w48 (s.get F.svTmr_T 0)) →
      exec (.svTimer) s = .next ((s.set F.svStat_TMR_ARMED 0 0).set F.svEvt_TMR 0 1)) ∧
  (∀ (who : From) (v : W) (s : State),
      s.fatal = false →
      (fromMc who.1 = true ∨ fromHost who.1 = true) →
      s.flag F.svStat_IN_FULL 0 = false →
      exec (.svMbxInWrite who v) s = .next ((((s.set F.svMbxIn_DATA 0 v.toNat).set F.svStat_IN_FULL 0 1).set F.svEvt_MBX 0 1))) ∧
  (∀ (who : From) (tr : Fin 128) (s : State),
      s.fatal = false →
      fromSv who.1 = true →
      Completes (.svMbxInRead who tr) s fun t => t.get F.svStat_IN_FULL 0 = 0 ∧ ⟨who.1, tr, true, BitVec.ofNat 64 (s.get F.svMbxIn_DATA 0), 0⟩ ∈ t.net.hubRsp ∧ t = { s with regs := t.regs, net := t.net } ∧ RegsBut [F.svStat_IN_FULL] s t) ∧
  (∀ (who : From) (v : W) (s : State),
      s.fatal = false →
      fromSv who.1 = true →
      who.2 = true →
      s.flag F.svStat_OUT_FULL 0 = false →
      exec (.svMbxOutWrite who v) s = .next (((s.set F.svMbxOut_DATA 0 v.toNat).set F.svStat_OUT_FULL 0 1))) ∧
  (∀ (who : From) (tr : Fin 128) (s : State),
      s.fatal = false →
      (fromMc who.1 = true ∨ fromHost who.1 = true) →
      Completes (.svMbxOutRead who tr) s fun t => t.get F.svStat_OUT_FULL 0 = 0 ∧ ⟨who.1, tr, true, BitVec.ofNat 64 (s.get F.svMbxOut_DATA 0), 0⟩ ∈ t.net.hubRsp ∧ t = { s with regs := t.regs, net := t.net } ∧ RegsBut [F.svStat_OUT_FULL] s t)

/-- A fault event is counted, recorded and escalated; fatal stops the clocks and writes its record; wires, acknowledges and injection (R376–R393). -/
def Obligations.FaultsAreRecordedAndEscalated : Prop :=
  (∀ (e : FaultEv) (q : List FaultEv) (s : State),
      s.fatal = false →
      collectorOn s = true →
      nextFault s.flt.queue = some e →
      takeFirst (fun x => x = e) s.flt.queue = some (e, q) →
      s.get F.fkWin_W e.kind = 0 →
      (faultInst s e.kind e.loc).eff < clsF →
      e.kind ≠ 2 →
      s.flt.log.length < 64 →
      Completes (.faultEvent) s fun t => (let cls := (faultInst s e.kind e.loc).eff;
      t.flt.log = s.flt.log ++ [(stampEra s e.t, recordWord1 e.kind cls false false e.inj e.part e.loc e.detail)] ∧ t.flt.queue = q ∧
      t.get F.fkStat_EVENTS e.kind = (s.get F.fkStat_EVENTS e.kind + 1) % 2 ^ F.fkStat_EVENTS.w ∧ t.get F.fkStat_STICKY e.kind = 1 ∧
      t.get F.fkStat_CLASS e.kind = max cls (s.get F.fkStat_CLASS e.kind) % 4 ∧ t.fatal = false ∧ t.mem = s.mem ∧ t.pending = s.pending ∧ t.t = s.t) ∧ RegsBut [F.fkStat_EVENTS, F.fkStat_STICKY, F.fkStat_CLASS, F.logStat_NEXT, F.logStat_LEVEL, F.svEvt_FLT, F.evCfg_COUNT, F.evCfg_PEND] s t) ∧
  (∀ (e : FaultEv) (q : List FaultEv) (s : State),
      s.fatal = false →
      collectorOn s = true →
      nextFault s.flt.queue = some e →
      takeFirst (fun x => x = e) s.flt.queue = some (e, q) →
      s.get F.fkWin_W e.kind ≠ 0 →
      sdiff e.t (faultInst s e.kind e.loc).start < (s.get F.fkWin_W e.kind : Int) →
      (faultInst s e.kind e.loc).cnt ≠ 0 →
      s.get F.fkCfg_N e.kind < (faultInst s e.kind e.loc).cnt + 1 →
      Completes (.faultEvent) s fun t => t.get F.fkStat_EXC e.kind = 1 ∧ t.get F.fkStat_EXCS e.kind = (s.get F.fkStat_EXCS e.kind + 1) % 2 ^ F.fkStat_EXCS.w ∧ t.get F.fkStat_EVENTS e.kind = (s.get F.fkStat_EVENTS e.kind + 1) % 2 ^ F.fkStat_EVENTS.w ∧ (∃ i ∈ t.flt.insts, i.kind = e.kind ∧ i.loc = e.loc ∧ i.cnt = 0) ∧ t.pending = s.pending ∧ t.t = s.t) ∧
  (∀ (e : FaultEv) (q : List FaultEv) (s : State),
      s.fatal = false →
      collectorOn s = true →
      nextFault s.flt.queue = some e →
      takeFirst (fun x => x = e) s.flt.queue = some (e, q) →
      s.get F.fkWin_W e.kind = 0 →
      (faultInst s e.kind e.loc).eff = clsF →
      e.kind ≠ 2 →
      Completes (.faultEvent) s fun t => t.fatal = true ∧ t.flt.nfatal = true ∧ t.flt.decision = some (recordWord1 e.kind clsF false false e.inj e.part e.loc e.detail, stampEra s s.t) ∧ (∀ i : Fin 8, t.get F.fclkCtl_STOPPED i = 1) ∧ t.mem = s.mem ∧ t.pending = s.pending ∧ t.t = s.t) ∧
  (∀  (s : State),
      collectorOn s = false →
      exec (.faultEvent) s = .next (s)) ∧
  (∀  (s : State),
      s.fatal = true →
      s.flt.recordWritten = false →
      Completes (.fatalRecordWrite) s fun t => t.flt.recordWritten = true ∧ bits (vbatWord t 0).toNat 49 1 = 1 ∧ bits (vbatWord t 0).toNat 48 1 = bits (vbatWord s 0).toNat 49 1 ∧ (∀ i : Fin 254, vbatWord t (i.val + 1) = BitVec.ofNat 64 (recordWord s (i.val + 1))) ∧ t.mem = s.mem ∧ t.pending = s.pending ∧ t.regs = s.regs) ∧
  (∀  (s : State),
      (s.fatal = false ∨ s.flt.recordWritten = true) →
      exec (.fatalRecordWrite) s = .next (s)) ∧
  (∀ (kind : Fin 64) (l : BitVec 16) (s : State),
      s.fatal = false →
      instanceOk kind l.toNat = true →
      collectorOn s = true →
      (wrongPairs s).contains (pairKey kind l.toNat) = false →
      s.flt.log.length < 64 →
      Completes (.wireFault kind l true) s fun t => t.flt.wire = s.flt.wire ++ [pairKey kind l.toNat] ∧ t.get F.fkStat_STICKY kind = 1 ∧ t.get F.fkStat_EVENTS kind = s.get F.fkStat_EVENTS kind ∧ t.flt.log = s.flt.log ++ [(stampEra s s.t, recordWord1 kind clsU false true false none l.toNat 0)] ∧ t.mem = s.mem ∧ t.pending = s.pending ∧ RegsBut [F.fkStat_STICKY, F.fkStat_CLASS, F.logStat_NEXT, F.logStat_LEVEL, F.svEvt_FLT, F.evCfg_COUNT, F.evCfg_PEND] s t) ∧
  (∀ (kind : Fin 64) (l : BitVec 16) (s : State),
      instanceOk kind l.toNat = true →
      collectorOn s = true →
      (mfind s.flt.pairHeld (pairKey kind l.toNat)).isSome = true →
      s.flt.wire.contains (pairKey kind l.toNat) = false →
      exec (.wireFault kind l true) s = .next ({ s with flt := { s.flt with wire := s.flt.wire ++ [pairKey kind l.toNat] } })) ∧
  (∀ (kind : Fin 64) (l : BitVec 16) (s : State),
      instanceOk kind l.toNat = true →
      collectorOn s = true →
      exec (.wireFault kind l false) s = .next ({ s with flt := { s.flt with wire := s.flt.wire.filter (· ≠ pairKey kind l.toNat) } })) ∧
  (∀ (who : From) (k : Fin 64) (s : State),
      s.fatal = false →
      (fromHost who.1 = true ∨ fromCore who.1 = true ∨ fromMc who.1 = true) →
      Completes (.ack who k) s fun t => t.get F.fkStat_EXC k = 0 ∧ (∀ i ∈ t.flt.insts, i.kind ≠ k.val) ∧ (kindLive s k = false → t.get F.fkStat_STICKY k = 0 ∧ t.get F.fkStat_CLASS k = 0) ∧ (kindLive s k = true → t.get F.fkStat_STICKY k = s.get F.fkStat_STICKY k) ∧ t.flt = { s.flt with insts := t.flt.insts } ∧ t = { s with regs := t.regs, flt := t.flt } ∧ RegsBut [F.fkStat_EXC, F.fkStat_STICKY, F.fkStat_CLASS] s t ∧ InstBut F.fkStat_STICKY k s t) ∧
  (∀ (who : From) (s : State),
      s.fatal = false →
      (fromHost who.1 = true ∨ fromCore who.1 = true ∨ fromMc who.1 = true) →
      exec (.pop who) s = .next ({ s with flt := { s.flt with log := s.flt.log.drop 1 } })) ∧
  (∀ (who : From) (mask : BitVec 10) (cycles : BitVec 16) (s : State),
      s.fatal = false →
      (fromHost who.1 = true ∨ fromCore who.1 = true ∨ fromMc who.1 = true) →
      s.flag F.fltCtl_INJ_EN 0 = true →
      injectable (s.get F.injSel_KIND 0) = true →
      instanceOk (s.get F.injSel_KIND 0) (s.get F.injSel_LOCATION 0) = true →
      mask.toNat < 2 ^ checkBits (s.get F.injSel_KIND 0) →
      Completes (.arm who false mask cycles) s fun t => t.get F.injCtl_ARM 0 = 1 ∧ t.get F.injCtl_PAIR 0 = 0 ∧ t.get F.injCtl_MASK 0 = mask.toNat ∧ t = { s with regs := t.regs } ∧ RegsBut [F.injCtl_ARM, F.injCtl_PAIR, F.injCtl_MASK, F.injCtl_PAIRCYC] s t) ∧
  (∀ (who : From) (pair : Bool) (mask : BitVec 10) (cycles : BitVec 16) (s : State),
      2 ^ checkBits (s.get F.injSel_KIND 0) ≤ mask.toNat →
      exec (.arm who pair mask cycles) s = .next (s)) ∧
  (∀ (who : From) (s : State),
      s.fatal = false →
      (fromMc who.1 = true ∨ fromHost who.1 = true) →
      Completes (.recordClear who) s fun t => bits (vbatWord t 0).toNat 49 1 = 0 ∧ t = { s with flt := { s.flt with vbat := t.flt.vbat } } ∧ ∀ i, i ≠ 0 → vbatWord t i = vbatWord s i)

/-- The update commands erase, program, verify, activate, confirm and abort as R417 and R418 say, each ending with its RESULT. RANGE for a bad offset or length of a chunk is the choice of log 17, and flash left as it is by a failed UPD_ACTIVATE that of log 16. -/
def Obligations.UpdatesRunTheirCommands : Prop :=
  (∀ (a : Nat) (s : State),
      s.fatal = false →
      s.mc.cmd = some (1, a) →
      s.flag F.mcStat_OPEN 0 = false →
      (bits a 0 1 ≠ s.get F.bootStat_SLOT 0 ∨ s.flag F.bootStat_RECOVERY 0 = true) →
      Completes (.updBegin none) s fun t => t.get F.mcStat_RESULT 0 = 1 ∧ t.get F.mcStat_OPEN 0 = 1 ∧ t.get F.mcStat_VERIFIED 0 = 0 ∧ t.mc.updSlot = bits a 0 1 ∧ t.get F.mcStat_BUSY 0 = 0 ∧ t.mc.cmd = none ∧ t.get F.evCfg_COUNT 482 = (s.get F.evCfg_COUNT 482 + 1) % 2 ^ 16 ∧ t.mem = s.mem ∧ t.pending = s.pending ∧ t.t = s.t ∧ (∀ o, o < slotSize → flashByte t (slotBase (bits a 0 1) + o) = 0xFF) ∧ (∀ x, x < slotBase (1 - bits a 0 1) + slotSize → slotBase (1 - bits a 0 1) ≤ x → flashByte t x = flashByte s x)) ∧
  (∀ (a : Nat) (l : List (Nat × BitVec 8)) (s : State),
      s.fatal = false →
      s.mc.cmd = some (1, a) →
      s.flag F.mcStat_OPEN 0 = false →
      (bits a 0 1 ≠ s.get F.bootStat_SLOT 0 ∨ s.flag F.bootStat_RECOVERY 0 = true) →
      Completes (.updBegin (some l)) s fun t => t.get F.mcStat_RESULT 0 = 0x13 ∧ t.get F.mcStat_OPEN 0 = 0 ∧ t.get F.mcStat_BUSY 0 = 0 ∧ t.mc.cmd = none ∧ t.get F.evCfg_COUNT 482 = (s.get F.evCfg_COUNT 482 + 1) % 2 ^ 16 ∧ t.mem = s.mem ∧ t.pending = s.pending ∧ t.t = s.t) ∧
  (∀ (a : Nat) (s : State),
      s.fatal = false →
      s.mc.cmd = some (2, a) →
      s.flag F.mcStat_OPEN 0 = true →
      bits a 0 32 % 256 = 0 →
      bits a 32 16 ≠ 0 →
      bits a 32 16 ≤ 32768 →
      bits a 0 32 + bits a 32 16 ≤ slotSize →
      Completes (.updChunk none) s fun t => t.get F.mcStat_RESULT 0 = 1 ∧ t.get F.mcStat_VERIFIED 0 = 0 ∧ t.get F.mcStat_BUSY 0 = 0 ∧ t.mc.cmd = none ∧ t.get F.evCfg_COUNT 482 = (s.get F.evCfg_COUNT 482 + 1) % 2 ^ 16 ∧ t.mem = s.mem ∧ t.pending = s.pending ∧ t.t = s.t ∧ (∀ i, i < bits a 32 16 → flashByte t (slotBase s.mc.updSlot + bits a 0 32 + i) = (s.readByte (mcBufBase + i)).toNat) ∧ (∀ x, x < slotBase s.mc.updSlot + bits a 0 32 ∨ slotBase s.mc.updSlot + bits a 0 32 + bits a 32 16 ≤ x → flashByte t x = flashByte s x)) ∧
  (∀ (a : Nat) (s : State),
      s.fatal = false →
      s.mc.cmd = some (2, a) →
      s.flag F.mcStat_OPEN 0 = true →
      (bits a 0 32 % 256 ≠ 0 ∨ bits a 32 16 = 0 ∨ 32768 < bits a 32 16 ∨ slotSize < bits a 0 32 + bits a 32 16) →
      Completes (.updChunk none) s fun t => t.get F.mcStat_RESULT 0 = 0x12 ∧ t.mc.flash = s.mc.flash ∧ t.get F.mcStat_BUSY 0 = 0 ∧ t.mc.cmd = none ∧ t.get F.evCfg_COUNT 482 = (s.get F.evCfg_COUNT 482 + 1) % 2 ^ 16 ∧ t.mem = s.mem ∧ t.pending = s.pending ∧ t.t = s.t) ∧
  (∀ (a : Nat) (s : State),
      s.fatal = false →
      s.mc.cmd = some (3, a) →
      s.flag F.mcStat_OPEN 0 = true →
      Completes (.updVerify) s fun t => t.get F.mcStat_RESULT 0 = resultOf (verifyImage s s.mc.updSlot) ∧ t.get F.mcStat_VERIFIED 0 = b2n (verifyImage s s.mc.updSlot = 0) ∧ t.mc.flash = s.mc.flash ∧ t.get F.mcStat_BUSY 0 = 0 ∧ t.mc.cmd = none ∧ t.get F.evCfg_COUNT 482 = (s.get F.evCfg_COUNT 482 + 1) % 2 ^ 16 ∧ t.mem = s.mem ∧ t.pending = s.pending ∧ t.t = s.t) ∧
  (∀ (a : Nat) (s : State),
      s.fatal = false →
      s.mc.cmd = some (4, a) →
      s.flag F.mcStat_VERIFIED 0 = true →
      Completes (.updActivate true) s fun t => t.get F.mcStat_RESULT 0 = 1 ∧ t.get F.mcStat_OPEN 0 = 0 ∧ t.get F.mcStat_VERIFIED 0 = 0 ∧ t.get F.mcStat_BUSY 0 = 0 ∧ t.mc.cmd = none ∧ t.get F.evCfg_COUNT 482 = (s.get F.evCfg_COUNT 482 + 1) % 2 ^ 16 ∧ t.mem = s.mem ∧ t.pending = s.pending ∧ t.t = s.t ∧ ((bootRec s).active < 2 → s.mc.updSlot < 2 → bootRec t = ⟨((bootRec s).seq + 1) % 2 ^ 32, (bootRec s).active, true, s.mc.updSlot, 0⟩)) ∧
  (∀ (a : Nat) (s : State),
      s.fatal = false →
      s.mc.cmd = some (4, a) →
      s.flag F.mcStat_VERIFIED 0 = true →
      Completes (.updActivate false) s fun t => t.get F.mcStat_RESULT 0 = 0x13 ∧ t.mc.flash = s.mc.flash ∧ t.get F.mcStat_BUSY 0 = 0 ∧ t.mc.cmd = none ∧ t.get F.evCfg_COUNT 482 = (s.get F.evCfg_COUNT 482 + 1) % 2 ^ 16 ∧ t.mem = s.mem ∧ t.pending = s.pending ∧ t.t = s.t) ∧
  (∀ (a : Nat) (h : Header) (s : State),
      s.fatal = false →
      s.mc.cmd = some (5, a) →
      s.get F.bootStat_STEP 0 = 11 →
      (bootRec s).pendv = true →
      (bootRec s).pending = s.get F.bootStat_SLOT 0 →
      s.mc.image = some h →
      revokeOk s h = false →
      Completes (.updConfirm true true) s fun t => t.get F.mcStat_RESULT 0 = 0x19 ∧ t.mc.flash = s.mc.flash ∧ t.get F.otpStat_SVN 0 = s.get F.otpStat_SVN 0 ∧ t.get F.mcStat_BUSY 0 = 0 ∧ t.mc.cmd = none ∧ t.get F.evCfg_COUNT 482 = (s.get F.evCfg_COUNT 482 + 1) % 2 ^ 16 ∧ t.mem = s.mem ∧ t.pending = s.pending ∧ t.t = s.t) ∧
  (∀ (a : Nat) (h : Header) (s : State),
      s.fatal = false →
      s.mc.cmd = some (5, a) →
      s.get F.bootStat_STEP 0 = 11 →
      (bootRec s).pendv = true →
      (bootRec s).pending = s.get F.bootStat_SLOT 0 →
      s.mc.image = some h →
      revokeOk s h = true →
      Completes (.updConfirm true true) s fun t => t.get F.mcStat_RESULT 0 = 1 ∧ t.get F.otpStat_SVN 0 = (if s.get F.otpStat_SVN 0 < h.svn then h.svn % 2 ^ 8 else s.get F.otpStat_SVN 0) ∧ t.get F.mcStat_BUSY 0 = 0 ∧ t.mc.cmd = none ∧ t.get F.evCfg_COUNT 482 = (s.get F.evCfg_COUNT 482 + 1) % 2 ^ 16 ∧ t.mem = s.mem ∧ t.pending = s.pending ∧ t.t = s.t ∧ (s.get F.bootStat_SLOT 0 < 2 → bootRec t = { bootRec s with seq := ((bootRec s).seq + 1) % 2 ^ 32, active := s.get F.bootStat_SLOT 0, pendv := false })) ∧
  (∀ (a : Nat) (s : State),
      s.fatal = false →
      s.mc.cmd = some (6, a) →
      s.flag F.mcStat_OPEN 0 = true →
      Completes (.updAbort) s fun t => t.get F.mcStat_RESULT 0 = 1 ∧ t.get F.mcStat_OPEN 0 = 0 ∧ t.get F.mcStat_VERIFIED 0 = 0 ∧ t.mc.flash = s.mc.flash ∧ t.get F.mcStat_BUSY 0 = 0 ∧ t.mc.cmd = none ∧ t.get F.evCfg_COUNT 482 = (s.get F.evCfg_COUNT 482 + 1) % 2 ^ 16 ∧ t.mem = s.mem ∧ t.pending = s.pending ∧ t.t = s.t) ∧
  (∀ (a : Nat) (s : State),
      s.fatal = false →
      (s.mc.cmd = some (2, a) ∨ s.mc.cmd = some (3, a) ∨ s.mc.cmd = some (6, a)) →
      s.flag F.mcStat_OPEN 0 = false →
      ((s.mc.cmd = some (2, a) → exec (.updChunk none) s = .next (mcEnd rState s)) ∧ (s.mc.cmd = some (3, a) → exec (.updVerify) s = .next (mcEnd rState s)) ∧
      (s.mc.cmd = some (6, a) → exec (.updAbort) s = .next (mcEnd rState s)))) ∧
  (∀ (a : Nat) (s : State),
      s.fatal = false →
      s.mc.cmd = some (7, a) →
      Completes (.bankOffline) s fun t => t.get F.mcStat_RESULT 0 = 1 ∧ t.get F.bankPwr_OFFLINE (bits a 0 11) ≠ 0 ∧ (s.flag F.bankPwr_OFFLINE (bits a 0 11) = false → t.ap.reexamine = true) ∧ t.get F.mcStat_BUSY 0 = 0 ∧ t.mc.cmd = none ∧ t.get F.evCfg_COUNT 482 = (s.get F.evCfg_COUNT 482 + 1) % 2 ^ 16 ∧ t.mem = s.mem ∧ t.pending = s.pending ∧ t.t = s.t)

/-- Resets, boot failures, power-off, and the boot and cluster commands of the MC leave what R390, R395–R410 and R417 say. The model decides RANGE for a section that is not there (log 22), that LOAD_SECTION and RUN ask for step 10 alone (log 23), what CLUSTER_RELEASE rewrites and when it fails (logs 36, 165), and that POWER_OFF takes every other field to its reset value (log 124). -/
def Obligations.BootLoadsAndRuns : Prop :=
  (∀ (b : BootIn) (s : State),
      (s.fatal = true ∨ porOver s = false) →
      exec (.coldReset b) s = .next (s)) ∧
  (∀ (b : BootIn) (s : State),
      s.fatal = false →
      porOver s = true →
      b.rom = false →
      Completes (.coldReset b) s fun t => t.get F.bootStat_STEP 0 = 2 ∧ t.get F.bootStat_ERROR 0 = eRom ∧ t.t = 0 ∧ t.mem = [] ∧ t.fatal = false ∧ t.svState = svHeld ∧ t.ticks = s.ticks ∧ t.pending = s.pending ∧ t.mc.flash = s.mc.flash ∧ t.mc.otpKeys = s.mc.otpKeys ∧ (∀ c : Fin 128, t.cState c = 0) ∧ (∀ p : Fin 8, t.pState p = 0)) ∧
  (∀ (b : BootIn) (s : State),
      s.fatal = false →
      porOver s = true →
      b.rom = true →
      flashOk b = false →
      b.vbat = true →
      bits (vbatWord s 0).toNat 49 1 = 0 →
      Completes (.coldReset b) s fun t => t.get F.bootStat_STEP 0 = 3 ∧ t.get F.bootStat_ERROR 0 = eNoFlash ∧ t.get F.bootStat_RECOVERY 0 = 1 ∧ t.t = 0 ∧ t.era = s.era ∧ t.mem = [] ∧ t.fatal = false ∧ t.pending = s.pending ∧ t.mc.flash = s.mc.flash) ∧
  (∀ (b : BootIn) (s : State),
      s.fatal = false →
      porOver s = true →
      Completes (.coldReset b) s fun t => t.t = 0 ∧ t.ticks = s.ticks ∧ t.pending = s.pending ∧ t.fatal = false ∧ t.mc.flash = s.mc.flash ∧ t.mc.otpKeys = s.mc.otpKeys ∧ (t.get F.bootStat_STEP 0 = 9 ∨ t.get F.bootStat_STEP 0 = 5 ∧ t.mc.boot = some b ∧ vfReached t = false ∨ t.mc.failed = true ∧ 2 ≤ t.get F.bootStat_STEP 0 ∧ t.get F.bootStat_STEP 0 < 9)) ∧
  (∀  (s : State),
      s.fatal = false →
      s.get F.bootStat_STEP 0 = 10 →
      s.mc.failed = false →
      (s.mc.image.any fun h => h.bootTmo ≠ 0 && s.mc.stepAt + h.bootTmo * 250000 ≤ s.ticks) = true →
      Completes (.bootTimeout) s fun t => t.get F.bootStat_ERROR 0 = eTimeout ∧ t.mc.failed = true ∧ (∀ k : Fin 8, t.get F.ccCtl_RUN k = 0) ∧ t.get F.evCfg_COUNT 481 = (s.get F.evCfg_COUNT 481 + 1) % 2 ^ 16 ∧ t.mem = s.mem ∧ t.pending = s.pending ∧ t.t = s.t) ∧
  (∀  (s : State),
      Completes (.powerOff) s fun t => t.fatal = false ∧ t.pwr.por = some s.ticks ∧ t.flt.vbat = s.flt.vbat ∧ t.era = s.era ∧ t.mc.flash = s.mc.flash ∧ t.mc.otpKeys = s.mc.otpKeys ∧ t.mc.fuses = s.mc.fuses ∧ t.mc.ledger = s.mc.ledger ∧ t.t = 0 ∧ t.mem = [] ∧ t.ticks = s.ticks ∧ t.pending = s.pending ∧ (∀ f i, (∀ g ∈ [F.otpStat_KEYS, F.otpStat_REVOKED, F.otpStat_SVN, F.devId_HEAD, F.devId_TAIL], g.id ≠ f.id) → t.get f i = State.reset.get f i)) ∧
  (∀ (a : Nat) (s : State),
      s.fatal = false →
      s.mc.cmd = some (8, a) →
      s.get F.bootStat_STEP 0 = 10 →
      ((s.mc.image.map (·.sections)).getD [])[bits a 0 6]? = none →
      Completes (.loadSection) s fun t => t.get F.mcStat_RESULT 0 = 0x12 ∧ t.mc.flash = s.mc.flash ∧ t.get F.mcStat_BUSY 0 = 0 ∧ t.mc.cmd = none ∧ t.get F.evCfg_COUNT 482 = (s.get F.evCfg_COUNT 482 + 1) % 2 ^ 16 ∧ t.mem = s.mem ∧ t.pending = s.pending ∧ t.t = s.t) ∧
  (∀ (a : Nat) (h : Header) (x : Section) (s : State),
      s.fatal = false →
      s.mc.cmd = some (8, a) →
      s.get F.bootStat_STEP 0 = 10 →
      s.mc.image = some h →
      h.sections[bits a 0 6]? = some x →
      x.type = sCert →
      x.len = 8 →
      inCtlMem (destLocal x.dest) = true →
      destLocal x.dest % 8 = 0 →
      digestOk s (s.get F.bootStat_SLOT 0) x = true →
      Completes (.loadSection) s fun t => t.readN (destLocal x.dest) 8 = leNat (sectionBytes s (s.get F.bootStat_SLOT 0) x) ∧ t.get F.mcStat_RESULT 0 = 1 ∧ t.get F.mcStat_BUSY 0 = 0 ∧ t.mc.cmd = none ∧ t.pending = s.pending ∧ (∀ y, y < destLocal x.dest ∨ destLocal x.dest + 8 ≤ y → t.readByte y = s.readByte y)) ∧
  (∀ (a : Nat) (s : State),
      s.fatal = false →
      s.mc.cmd = some (9, a) →
      s.get F.bootStat_STEP 0 = 10 →
      Completes (.run none) s fun t => t.get F.mcStat_RESULT 0 = 1 ∧ t.get F.bootStat_STEP 0 = 11 ∧ t.get F.evCfg_COUNT 480 = (s.get F.evCfg_COUNT 480 + 1) % 2 ^ 16 ∧ t.get F.mcStat_BUSY 0 = 0 ∧ t.mc.cmd = none ∧ t.get F.evCfg_COUNT 482 = (s.get F.evCfg_COUNT 482 + 1) % 2 ^ 16 ∧ t.mem = s.mem ∧ t.pending = s.pending ∧ t.t = s.t) ∧
  (∀ (a : Nat) (s : State),
      s.fatal = false →
      s.mc.cmd = some (10, a) →
      (s.cState (bits a 0 7) = 4 ∨ s.cState (bits a 0 7) = 0) →
      s.cOwner (bits a 0 7) = 15 →
      Completes (.clusterOffline) s fun t => t.get F.mcStat_RESULT 0 = 1 ∧ t.cState (bits a 0 7) = 5 ∧ t.ap.reexamine = true ∧ t.get F.mcStat_BUSY 0 = 0 ∧ t.mc.cmd = none ∧ t.get F.evCfg_COUNT 482 = (s.get F.evCfg_COUNT 482 + 1) % 2 ^ 16 ∧ t.mem = s.mem ∧ t.pending = s.pending ∧ t.t = s.t) ∧
  (∀ (a : Nat) (s : State),
      s.fatal = false →
      s.mc.cmd = some (11, a) →
      s.flag F.injCtl_ARM 0 = false →
      s.cState (bits a 0 7) = 4 →
      s.cOwner (bits a 0 7) = 15 →
      Completes (.clusterRelease ⟨true, 0⟩) s fun t => t.get F.mcStat_RESULT 0 = 1 ∧ t.cState (bits a 0 7) = 0 ∧ (∀ i : Fin 16, t.get F.peStat_STOPPED (bits a 0 7 * 16 + i.val) = 0) ∧ (∀ x ∈ t.cl.slots, x.cluster ≠ bits a 0 7) ∧ t.get F.csStat_USER_VALID (bits a 0 7) = 0 ∧ t.get F.mcStat_BUSY 0 = 0 ∧ t.mc.cmd = none ∧ t.pending = s.pending) ∧
  (∀ (a : Nat) (r : Rewrite) (s : State),
      s.fatal = false →
      s.mc.cmd = some (11, a) →
      (r.good = false ∨ r.ram.val = 2) →
      s.cState (bits a 0 7) = 4 →
      s.cOwner (bits a 0 7) = 15 →
      Completes (.clusterRelease r) s fun t => t.get F.mcStat_RESULT 0 = rUcode ∧ t.cState (bits a 0 7) = 4 ∧ (∀ x ∈ t.cl.slots, x.cluster ≠ bits a 0 7) ∧ t.get F.mcStat_BUSY 0 = 0 ∧ t.mc.cmd = none ∧ t.pending = s.pending) ∧
  (∀ (a : Nat) (s : State),
      s.fatal = false →
      s.mc.cmd = some (11, a) →
      s.cState (bits a 0 7) ≠ 4 →
      exec (.clusterRelease ⟨true, 0⟩) s = .next (mcEnd rState s))

/-- The MC reads sensors and regulators, answers the SMBus, mirrors its log and counts wear as R411–R416 say. The layout of a log page and the order of its erase are the choice of log 25, the alert response exactly while nFLT is low that of log 35. -/
def Obligations.ManagementReadsAndReports : Prop :=
  (∀  (s : State),
      s.fatal = false →
      Completes (.sensorRead) s fun t => (∀ n : Fin 40, ∀ v, reading s n = some v → t.get F.ts_VALUE n = v % 2 ^ F.ts_VALUE.w ∧ t.get F.ts_VALID n = 1) ∧ (∀ n : Fin 40, reading s n = none → t.get F.ts_VALUE n = s.get F.ts_VALUE n ∧ t.get F.ts_VALID n = s.get F.ts_VALID n) ∧ t = { s with regs := t.regs, mc := { s.mc with minuteMax := t.mc.minuteMax } } ∧ RegsBut [F.ts_VALUE, F.ts_VALID, F.ts_MAX] s t) ∧
  (∀ (who : From) (n : Fin 40) (s : State),
      s.fatal = false →
      exec (.maxClear who n) s = .next (s.set F.ts_MAX n (s.get F.ts_VALUE n))) ∧
  (∀ (l : List (Fin 8 × PmbAns)) (r : Fin 8) (x : PmbAns) (s : State),
      s.fatal = false →
      5 ≤ s.get F.bootStat_STEP 0 →
      (l.find? fun y => y.1.val = r.val) = some (r, x) →
      s.flag F.pmbDev_EN r = true →
      (Completes (.pmbusPoll l) s fun t => (mfind t.mc.pmb r).map (fun d => (d.last, d.fails)) = some (x, 0) ∧ t.mem = s.mem ∧ t.pending = s.pending ∧ t.t = s.t) ∧
      exec (.pmbAlert l) s = exec (.pmbusPoll l) s) ∧
  (∀ (l : List (Fin 8 × PmbAns)) (s : State),
      s.fatal = false →
      Completes (.pmbAlert l) s fun t => t.mem = s.mem ∧ t.pending = s.pending ∧ t.t = s.t) ∧
  (∀ (addr : BitVec 7) (ptr : BitVec 16) (s : State),
      2 ≤ s.get F.bootStat_STEP 0 →
      addr.toNat = s.get F.smbCfg_ADDR 0 →
      exec (.writeWord addr 1 ptr (some true)) s = .next ({ s with mc := { s.mc with smbPtr := ptr.toNat, smbAnswer := some [] } })) ∧
  (∀ (addr : BitVec 7) (code : BitVec 8) (ptr : BitVec 16) (s : State),
      (addr.toNat ≠ s.get F.smbCfg_ADDR 0 ∨ code ≠ 1) →
      exec (.writeWord addr code ptr (some true)) s = .next ({ s with mc := { s.mc with smbAnswer := none } })) ∧
  (∀ (addr : BitVec 7) (s : State),
      s.fatal = false →
      2 ≤ s.get F.bootStat_STEP 0 →
      addr.toNat = s.get F.smbCfg_ADDR 0 →
      exec (.blockRead addr 2) s = .next ({ s with mc := { s.mc with smbPtr := (s.mc.smbPtr + 32) % 65536, smbAnswer := some ((List.range 32).map fun i => smbByte s ((s.mc.smbPtr + i) % 65536)) } })) ∧
  (∀  (s : State),
      2 ≤ s.get F.bootStat_STEP 0 →
      exec (.alertResponseAddress) s = .next ({ s with mc := { s.mc with smbAnswer := if nFlt s then some [BitVec.ofNat 8 (2 * s.get F.smbCfg_ADDR 0)] else none } })) ∧
  (∀  (s : State),
      s.fatal = false →
      15 ≤ s.mc.unwritten.length →
      s.mc.unwritten.length ≤ s.mc.log.length →
      s.get F.bootStat_ERROR 0 ≠ eNoFlash →
      s.mc.page < ringPages →
      Completes (.logPageWrite none) s fun t => t.mc.unwritten = s.mc.unwritten.drop 15 ∧ t.mc.page = (s.mc.page + 1) % ringPages ∧ t = { s with mc := t.mc } ∧ (flashBytes t (ringBase + 256 * s.mc.page) 256 = pageBytes ((s.get F.logStat_NEXT 0 + 2 ^ 32 - s.mc.unwritten.length) % 2 ^ 32) ((s.mc.log.drop (s.mc.log.length - s.mc.unwritten.length)).take 15)) ∧
      (∀ x, x < ringBase + s.mc.page / 16 * 4096 ∨ ringBase + s.mc.page / 16 * 4096 + 4096 ≤ x → flashByte t x = flashByte s x)) ∧
  (∀  (s : State),
      s.fatal = false →
      (15 ≤ s.mc.unwritten.length || s.mc.unwritten.any fun x => x + 250000000 ≤ s.ticks) = false →
      exec (.logPageWrite none) s = .next (s)) ∧
  (∀  (s : State),
      s.fatal = false →
      s.mc.minuteMax = [] →
      Completes (.wearMinute) s fun t => ledgerWord t 1 = (ledgerWord s 1 + 1) % 2 ^ 48 ∧ (∀ i : Fin 125, ledgerWord t (i.val + 2) = ledgerWord s (i.val + 2)) ∧ ledgerWord t 127 = crcWords ((List.range 127).map (ledgerWord t)) % 2 ^ 48 ∧ t = { s with mc := { s.mc with ledger := t.mc.ledger } }) ∧
  (∀ (d : Fin 9) (v : Nat) (s : State),
      s.fatal = false →
      s.mc.minuteMax = [(d.val, v)] →
      Completes (.wearMinute) s fun t => ledgerWord t (4 + 8 * d.val + wearBin v) = (ledgerWord s (4 + 8 * d.val + wearBin v) + 1) % 2 ^ 48 ∧ ledgerWord t 1 = (ledgerWord s 1 + 1) % 2 ^ 48 ∧ t.mc.minuteMax = [] ∧ t = { s with mc := { s.mc with ledger := t.mc.ledger, minuteMax := [] } })

/-- Rails, sensors, throttling, shedding, the power estimate and the clock ramp act as R23, R454 and R457–R464 say. -/
def Obligations.PowerAndHeatAreManaged : Prop :=
  (∀ (m : Fin 8) (x : Nat) (s : State),
      mfind s.pwr.outside m = some x →
      x + 500 ≤ s.ticks →
      collectorOn s = true →
      s.flt.live.contains (pairKey 34 (loc 10 (64 + m.val))) = false →
      s.flt.wire.contains (pairKey 34 (loc 10 (64 + m.val))) = false →
      mfind s.flt.pairHeld (pairKey 34 (loc 10 (64 + m.val))) = none →
      exec (.railFault m) s = .next ({ s with flt := { s.flt with live := s.flt.live ++ [pairKey 34 (loc 10 (64 + m.val))], queue := s.flt.queue ++ [⟨34, loc 10 (64 + m.val), 0, none, s.t, false⟩] } })) ∧
  (∀ (m : Fin 8) (s : State),
      mfind s.pwr.outside m = none →
      exec (.railFault m) s = .next (s)) ∧
  (∀ (n : Fin 40) (v : BitVec 16) (s : State),
      s.fatal = false →
      n.val < 32 →
      1600 ≤ v.toInt →
      v.toInt ≤ 1680 →
      s.flag F.thermStat_THROT (n.val / 4) = false →
      Completes (.sensorConversion n (some v)) s fun t => t.get F.thermStat_THROT (n.val / 4) = 1 ∧ t.get F.fclkCtl_THROTTLED (n.val / 4) = 1 ∧ mfind t.pwr.temp n = some v.toNat ∧ mfind t.pwr.cool (n.val / 4) = none ∧ ledgerWord t 3 % 2 ^ 24 = (ledgerWord s 3 + 1) % 2 ^ 24 ∧ t = { s with regs := t.regs, pwr := t.pwr, flt := t.flt, mc := t.mc } ∧ RegsBut [F.thermStat_THROT, F.fclkCtl_THROTTLED, F.thermStat_HOTTEST, F.thermStat_HOTTEST_REG, F.thermStat_HOT] s t) ∧
  (∀ (n : Fin 40) (v : BitVec 16) (s : State),
      1840 ≤ v.toInt →
      s.flt.live.contains (pairKey 33 (loc 10 n.val)) = false →
      s.flt.wire.contains (pairKey 33 (loc 10 n.val)) = false →
      mfind s.flt.pairHeld (pairKey 33 (loc 10 n.val)) = none →
      Completes (.sensorConversion n (some v)) s fun t => t.flt.live = s.flt.live ++ [pairKey 33 (loc 10 n.val)] ∧ t.flt.queue = s.flt.queue ++ [⟨33, loc 10 n.val, 0, none, s.t, false⟩] ∧ mfind t.pwr.temp n = some v.toNat ∧ t.mem = s.mem ∧ t.pending = s.pending) ∧
  (∀ (n : Fin 40) (v : BitVec 16) (s : State),
      s.fatal = false →
      n.val < 32 →
      1760 ≤ v.toInt →
      v.toInt < 1840 →
      s.get F.fclkCtl_CURRENT (n.val / 4) = 0 →
      s.flag F.thermStat_SHED (n.val / 4) = false →
      s.get F.thermStat_SHED_NEXT (n.val / 4) = 3 →
      shedSet s (n.val / 4) 3 ≠ [] →
      Completes (.sensorConversion n (some v)) s fun t => t.get F.thermStat_SHED (n.val / 4) = 1 ∧ t.get F.thermStat_SHED_NEXT (n.val / 4) = 2 ∧ t.get F.thermStat_SHEDS (n.val / 4) = (s.get F.thermStat_SHEDS (n.val / 4) + 1) % 2 ^ F.thermStat_SHEDS.w ∧ (∀ p ∈ shedSet s (n.val / 4) 3, t.pState p = pHalted) ∧ (∀ p : Fin 8, p.val ∉ shedSet s (n.val / 4) 3 → t.pState p = s.pState p) ∧ mfind t.pwr.shedAt (n.val / 4) = some s.ticks ∧ t.pending = s.pending ∧ t.t = s.t) ∧
  (∀ (n : Fin 40) (s : State),
      mget 0 s.pwr.fails n = 0 →
      exec (.sensorConversion n none) s = .next ({ s with pwr := { s.pwr with fails := mput s.pwr.fails n 1 } })) ∧
  (∀ (f : Fin 8) (x : Nat) (s : State),
      s.fatal = false →
      mfind s.pwr.cool f = some x →
      s.flag F.thermStat_THROT f = true →
      x + 250000 ≤ s.ticks →
      exec (.throttleRelease f) s = .next (((s.set F.thermStat_THROT f 0).set F.fclkCtl_THROTTLED f 0))) ∧
  (∀ (f : Fin 8) (x : Nat) (s : State),
      s.fatal = false →
      mfind s.pwr.cool f = some x →
      s.ticks < x + 250000 →
      exec (.throttleRelease f) s = .next (s)) ∧
  (∀ (f : Fin 8) (x : Nat) (s : State),
      s.fatal = false →
      mfind s.pwr.shedAt f = some x →
      s.flag F.thermStat_SHED f = true →
      x + 2500000 ≤ s.ticks →
      shedCond s f = false →
      Completes (.shedStep f) s fun t => t.get F.thermStat_SHED f = 0 ∧ t.get F.thermStat_SHED_NEXT f = 3 ∧ mfind t.pwr.shedAt f = none ∧ t = { s with regs := t.regs, pwr := t.pwr } ∧ RegsBut [F.thermStat_SHED, F.thermStat_SHED_NEXT] s t) ∧
  (∀ (f : Fin 8) (x : Nat) (s : State),
      s.fatal = false →
      mfind s.pwr.shedAt f = some x →
      s.flag F.thermStat_SHED f = true →
      x + 2500000 ≤ s.ticks →
      shedCond s f = true →
      s.get F.thermStat_SHED_NEXT f = 3 →
      shedSet s f 3 ≠ [] →
      Completes (.shedStep f) s fun t => t.get F.thermStat_SHED_NEXT f = 2 ∧ t.get F.thermStat_SHEDS f = (s.get F.thermStat_SHEDS f + 1) % 2 ^ F.thermStat_SHEDS.w ∧ (∀ p ∈ shedSet s f 3, t.pState p = pHalted) ∧ (∀ p : Fin 8, p.val ∉ shedSet s f 3 → t.pState p = s.pState p) ∧ mfind t.pwr.shedAt f = some s.ticks ∧ t.pending = s.pending ∧ t.t = s.t) ∧
  (∀ (w : BitVec 12) (s : State),
      s.fatal = false →
      w.toNat ≤ 240 →
      s.flag F.pwrStat_CAPPED 0 = false →
      s.pwr.peaks = [] →
      s.get F.pwrCtl_PK_LIM 0 ≠ 0 →
      Completes (.powerEstimate w) s fun t => t.get F.pwrStat_PKG_W 0 = w.toNat % 2 ^ F.pwrStat_PKG_W.w ∧ t.get F.pwrStat_PEAK_US 0 = 0 ∧ t.pwr = { s.pwr with estimates := s.pwr.estimates + 1 } ∧ t = { s with regs := t.regs, pwr := t.pwr } ∧ RegsBut [F.pwrStat_PKG_W, F.pwrStat_PEAK_US] s t) ∧
  (∀ (w : BitVec 12) (s : State),
      s.fatal = false →
      240 < w.toNat →
      s.flag F.pwrStat_CAPPED 0 = false →
      s.get F.pwrCtl_PK_LIM 0 ≤ (s.pwr.peaks.filter fun x => s.pwr.estimates + 1 < x + 1000000).length + 1 →
      Completes (.powerEstimate w) s fun t => t.get F.pwrStat_CAPPED 0 = 1 ∧ t.get F.pwrStat_CAP_EVT 0 = 1 ∧ t = { s with regs := t.regs, pwr := t.pwr } ∧ RegsBut [F.pwrStat_PKG_W, F.pwrStat_PEAK_US, F.pwrStat_CAPPED, F.pwrStat_CAP_EVT] s t) ∧
  (∀ (w : BitVec 12) (s : State),
      s.fatal = false →
      w.toNat ≤ 240 →
      s.flag F.pwrStat_CAPPED 0 = true →
      2 * (s.pwr.peaks.filter fun x => s.pwr.estimates + 1 < x + 1000000).length < s.get F.pwrCtl_PK_LIM 0 →
      Completes (.powerEstimate w) s fun t => t.get F.pwrStat_CAPPED 0 = 0 ∧ t.get F.pwrStat_CAP_EVT 0 = s.get F.pwrStat_CAP_EVT 0 ∧ t = { s with regs := t.regs, pwr := t.pwr } ∧ RegsBut [F.pwrStat_PKG_W, F.pwrStat_PEAK_US, F.pwrStat_CAPPED] s t) ∧
  (∀ (f : Fin 8) (d : Nat) (s : State),
      s.fatal = false →
      s.flag F.fclkCtl_STOPPED f = false →
      mfind s.pwr.ramp f = some d →
      d ≤ s.ticks →
      s.get F.fclkCtl_CURRENT f < rampGoal s f →
      Completes (.clockRampStep f) s fun t => t.get F.fclkCtl_CURRENT f = (s.get F.fclkCtl_CURRENT f + 1) % 2 ^ F.fclkCtl_CURRENT.w ∧ mfind t.pwr.ramp f = (if s.get F.fclkCtl_CURRENT f + 1 = rampGoal s f then none else some (s.ticks + 64)) ∧ t = { s with regs := t.regs, pwr := t.pwr, mc := t.mc } ∧ RegsBut [F.fclkCtl_CURRENT] s t ∧ InstBut F.fclkCtl_CURRENT f s t) ∧
  (∀ (f : Fin 8) (d : Nat) (s : State),
      s.fatal = false →
      s.flag F.fclkCtl_STOPPED f = false →
      mfind s.pwr.ramp f = some d →
      d ≤ s.ticks →
      rampGoal s f < s.get F.fclkCtl_CURRENT f →
      Completes (.clockRampStep f) s fun t => t.get F.fclkCtl_CURRENT f = (s.get F.fclkCtl_CURRENT f - 1) % 2 ^ F.fclkCtl_CURRENT.w ∧ mfind t.pwr.ramp f = (if s.get F.fclkCtl_CURRENT f - 1 = rampGoal s f then none else some (s.ticks + 64)) ∧ t = { s with regs := t.regs, pwr := t.pwr, mc := t.mc } ∧ RegsBut [F.fclkCtl_CURRENT] s t ∧ InstBut F.fclkCtl_CURRENT f s t) ∧
  (∀ (f : Fin 8) (d : Nat) (s : State),
      mfind s.pwr.ramp f = some d →
      s.ticks < d →
      exec (.clockRampStep f) s = .next (s)) ∧
  (∀ (f : Fin 8) (s : State),
      (s.flag F.fclkCtl_STOPPED f = true ∨ s.get F.fclkCtl_CURRENT f = rampGoal s f) →
      exec (.clockRampStep f) s = .next (s)) ∧
  (∀ (who : From) (v : BitVec 5) (s : State),
      s.fatal = false →
      (fromHost who.1 = true ∨ fromCore who.1 = true ∨ fromMc who.1 = true) →
      s.flag F.pwrCtl_LOCK 0 = false →
      v.toNat ≠ 31 →
      10 ≤ v.toNat →
      Completes (.vfSetWrite who v) s fun t => t.get F.pwrCtl_VF_SET 0 = v.toNat ∧ t = { s with regs := t.regs, mc := { s.mc with pmb := t.mc.pmb } } ∧ RegsBut [F.pwrCtl_VF_SET, F.pwrCtl_PK_LIM, F.pwrCtl_LOCK, F.pwrStat_VF_CAP] s t)

/-- CLAIM, ADMIT, COMMIT and WITHDRAW end with their verdicts and effects. The model chooses that CLAIM waits while its cluster empties (log 173), that WITHDRAW of a RELEASING partition passes (log 166), the values of WORD (log 148), and that a double-bit error in the golden copy fails a load (log 165). -/
def Obligations.ApertureAdmitsAndReleases : Prop :=
  (∀ (v : Verdict) (s : State), (apDone v s).get F.apStatus_BUSY 0 = 0 ∧ (apDone v s).get F.apStatus_VERDICT 0 = v.code % 2 ^ F.apStatus_VERDICT.w ∧
      (apDone v s).get F.apDetail_WORD 0 = v.word % 2 ^ F.apDetail_WORD.w ∧ (apDone v s).get F.evCfg_COUNT 248 = (s.get F.evCfg_COUNT 248 + 1) % 2 ^ F.evCfg_COUNT.w ∧
      (apDone v s).ap = { s.ap with cmd := none } ∧ (apDone v s).mem = s.mem ∧ (apDone v s).cl = s.cl ∧ (apDone v s).pending = s.pending ∧
      RegsBut [F.apStatus_BUSY, F.apStatus_VERDICT, F.apDetail_RESOURCE, F.apDetail_WORD, F.apDetail_EXCESS, F.apTime_TICKS, F.evCfg_COUNT, F.evCfg_PEND] s (apDone v s)) ∧
  (∀ (v : Nat) (s : State), s.flag F.apStatus_BUSY 0 = true → apCmdWrite v s = s.set F.apStatus_OVERRUN 0 1) ∧
  (∀ (v : Nat) (s : State), s.flag F.apStatus_BUSY 0 = false → (bits v 3 3 = 0 ∨ 6 ≤ bits v 3 3) → (apCmdWrite v s).get F.apStatus_BUSY 0 = 0 ∧
      (apCmdWrite v s).get F.apStatus_VERDICT 0 = vBadcmd % 2 ^ F.apStatus_VERDICT.w ∧ (apCmdWrite v s).ap = { s.ap with cmd := none }) ∧
  (∀ (v : Nat) (s : State) (ws : List Nat), s.flag F.apStatus_BUSY 0 = false → (bits v 3 3 = 2 ∨ bits v 3 3 = 5) → fetchCert s (bits v 14 20) = .ok ws →
      (apCmdWrite v s).get F.apStatus_BUSY 0 = 1 ∧ (apCmdWrite v s).mem = s.mem ∧
      (apCmdWrite v s).ap = { s.ap with cmd := some ⟨bits v 0 3, bits v 3 3, bits v 6 7, bits v 14 20, bits v 34 4, s.ticks, ws, none⟩ }) ∧
  (∀ (v : Nat) (s : State), s.flag F.apStatus_BUSY 0 = false → (bits v 3 3 = 1 ∨ bits v 3 3 = 3 ∨ bits v 3 3 = 4) →
      (apCmdWrite v s).get F.apStatus_BUSY 0 = 1 ∧ (apCmdWrite v s).mem = s.mem ∧
      (apCmdWrite v s).ap = { s.ap with cmd := some ⟨bits v 0 3, bits v 3 3, bits v 6 7, bits v 14 20, bits v 34 4, s.ticks, [], none⟩ }) ∧
  (∀ (x : ApRun) (s : State),
      s.fatal = false →
      s.ap.cmd = some x →
      x.op = 1 →
      x.part < 8 →
      x.cluster < 128 →
      (s.pState x.part = pFree ∨ s.pState x.part = pLoading) →
      s.cState x.cluster = 0 →
      mfind s.cl.emptying x.cluster = none →
      Completes (.claim) s fun t => t.cState x.cluster = 1 ∧ t.cOwner x.cluster = x.part ∧ t.pState x.part = pLoading ∧ t.get F.partCfg_CLUSTERS x.part = (t.clustersOf x.part).length % 2 ^ F.partCfg_CLUSTERS.w ∧ t.mem = s.mem ∧ t.cl = s.cl ∧ t.get F.apStatus_BUSY 0 = 0 ∧ t.get F.apStatus_VERDICT 0 = 1 ∧ t.ap.cmd = none ∧ t.pending = s.pending ∧ t.t = s.t ∧ InstBut F.clStatus_STATE x.cluster s t ∧ InstBut F.clStatus_OWNER x.cluster s t ∧ InstBut F.partStat_STATE x.part s t) ∧
  (∀ (x : ApRun) (s : State),
      s.fatal = false →
      s.ap.cmd = some x →
      x.op = 1 →
      x.part < 8 →
      x.cluster < 128 →
      mfind s.cl.emptying x.cluster ≠ none →
      (s.pState x.part = pFree ∨ s.pState x.part = pLoading) →
      s.cState x.cluster = 0 →
      exec (.claim) s = .next (s)) ∧
  (∀ (x : ApRun) (s : State),
      s.fatal = false →
      s.ap.cmd = some x →
      x.op = 1 →
      x.part < 8 →
      x.cluster < 128 →
      (¬(s.pState x.part = pFree ∨ s.pState x.part = pLoading) ∨ s.cState x.cluster ≠ 0) →
      exec (.claim) s = .next (apDone (vFail vBadcmd 0) s)) ∧
  (∀ (ok : Bool) (x : ApRun) (k : Cert) (ws : List Nat) (s : State),
      s.fatal = false →
      s.ap.cmd = some x →
      x.op = 2 →
      x.part < 8 →
      x.cluster < 128 →
      s.flag F.injCtl_ARM 0 = false →
      s.pState x.part = pLoading →
      verify s x.part x false ok = (vPass, some (k, ws, none)) →
      Completes (.admitGraph ⟨ok, 0⟩) s fun t => t.get F.partCfg_CERT_ID x.part = k.id % 2 ^ F.partCfg_CERT_ID.w ∧ t.get F.partStat_CRIT x.part = k.crit % 2 ^ F.partStat_CRIT.w ∧ t.get F.partCfg_CEIL x.part = k.partition.fld 1 0 4 % 2 ^ F.partCfg_CEIL.w ∧ t.get F.dlCtl_WIN x.part = k.partition.fld 1 4 5 % 2 ^ F.dlCtl_WIN.w ∧ mfind t.ap.certs x.part = some ws ∧ mfind t.ap.goAt x.part = some (nextMultiple s.t 256) ∧ t.ap.srcs = (s.ap.srcs.filter fun y => y.part ≠ x.part) ++ k.sources x.part 0 ∧ t.get F.progress_COUNT x.part = 0 ∧ t.pState x.part = pLoading ∧ t.get F.apStatus_BUSY 0 = 0 ∧ t.get F.apStatus_VERDICT 0 = 1 ∧ t.ap.cmd = none ∧ t.pending = s.pending ∧ t.t = s.t) ∧
  (∀ (ok : Bool) (x : ApRun) (v : Verdict) (s : State),
      s.fatal = false →
      s.ap.cmd = some x →
      x.op = 2 →
      x.part < 8 →
      x.cluster < 128 →
      s.flag F.injCtl_ARM 0 = false →
      s.pState x.part = pLoading →
      verify s x.part x false ok = (v, none) →
      exec (.admitGraph ⟨ok, 0⟩) s = .next (apDone v s)) ∧
  (∀ (r : Rewrite) (x : ApRun) (w : Nat) (s : State),
      s.fatal = false →
      s.ap.cmd = some x →
      x.op = 2 →
      x.part < 8 →
      x.cluster < 128 →
      s.pState x.part = pLoading →
      x.bad = some w →
      exec (.admitGraph r) s = .next (apDone (vFail vFormat w) s)) ∧
  (∀ (r : Rewrite) (x : ApRun) (s : State),
      s.fatal = false →
      s.ap.cmd = some x →
      x.op = 2 →
      x.part < 8 →
      x.cluster < 128 →
      s.pState x.part = pLoading →
      x.bad = none →
      x.cert.head? ≠ some 0x014C4D4331 →
      exec (.admitGraph r) s = .next (apDone (vFail vFormat 0) s)) ∧
  (∀ (r : Rewrite) (x : ApRun) (s : State),
      s.fatal = false →
      s.ap.cmd = some x →
      x.op = 2 →
      x.part < 8 →
      x.cluster < 128 →
      s.pState x.part ≠ pLoading →
      exec (.admitGraph r) s = .next (apDone (vFail vBadcmd 0) s)) ∧
  (∀ (p : Fin 8) (go : W) (s : State),
      s.fatal = false →
      s.pState p = pLoading →
      mfind s.ap.goAt p = some go →
      0 ≤ sdiff s.t go →
      Completes (.commit p) s fun t => t.pState p = (if s.get F.partStat_CRIT p = 3 then pBestEffort else pGuaranteed) ∧ t.get F.partStat_EPOCH p = 0 ∧ t.get F.partStat_MODE p = 0 ∧ mfind t.ap.goAt p = none ∧ (∀ c : Fin 128, t.cState c = if s.cOwner c = p.val ∧ s.cState c = 1 then 2 else s.cState c) ∧ t = { s with regs := t.regs, ap := t.ap }) ∧
  (∀ (p : Fin 8) (go : W) (s : State),
      s.fatal = false →
      mfind s.ap.goAt p = some go →
      (sdiff s.t go < 0 ∨ s.pState p ≠ pLoading) →
      exec (.commit p) s = .next (s)) ∧
  (∀ (x : ApRun) (s : State),
      s.fatal = false →
      s.ap.cmd = some x →
      x.op = 3 →
      x.part < 8 →
      x.cluster < 128 →
      s.pState x.part ≠ pFree →
      s.pState x.part ≠ pReleasing →
      Completes (.withdraw) s fun t => t.pState x.part = pReleasing ∧ (∀ c : Fin 128, s.cOwner c = x.part → t.cOwner c = 15 ∧ t.cState c = (if s.cState c = 4 then 4 else 0) ∧ (s.cState c ≠ 4 → mfind t.cl.emptying c = some x.part)) ∧ (∀ c : Fin 128, s.cOwner c ≠ x.part → t.cOwner c = s.cOwner c ∧ t.cState c = s.cState c) ∧ (∀ o ∈ t.out.held, o.part ≠ x.part) ∧ mfind t.ap.goAt x.part = none ∧ t.get F.modeStat_STAGING x.part = 0 ∧ t.get F.modeStat_DRAINING x.part = 0 ∧ t.mem = s.mem ∧ t.get F.apStatus_BUSY 0 = 0 ∧ t.get F.apStatus_VERDICT 0 = 1 ∧ t.ap.cmd = none ∧ t.pending = s.pending ∧ t.t = s.t) ∧
  (∀ (x : ApRun) (s : State),
      s.fatal = false →
      s.ap.cmd = some x →
      x.op = 3 →
      x.part < 8 →
      x.cluster < 128 →
      s.pState x.part = pFree →
      exec (.withdraw) s = .next (apDone (vFail vBadcmd 0) s)) ∧
  (∀ (x : ApRun) (s : State),
      s.fatal = false →
      s.ap.cmd = some x →
      x.op = 3 →
      x.part < 8 →
      x.cluster < 128 →
      s.pState x.part = pReleasing →
      exec (.withdraw) s = .next (apDone vPass s)) ∧
  (∀ (p : Fin 8) (s : State),
      s.fatal = false →
      s.pState p = pReleasing →
      s.cl.emptying.any (fun e => e.2 = p.val) = false →
      s.clustersOf p = [] →
      Completes (.withdrawComplete p) s fun t => t.pState p = pFree ∧ t.get F.dlStat_HALTED p = 0 ∧ mfind t.ap.certs p = none ∧ t.ap.srcs = (s.ap.srcs.filter fun y => y.part ≠ p.val) ∧ t.ap.tgts = (s.ap.tgts.filter fun y => y.part ≠ p.val) ∧ t.ap.redirects = (s.ap.redirects.filter fun y => y.part ≠ p.val) ∧ (∀ r : Fin 32, ∀ q : Fin 4, t.get F.poolCfg_SPAN (poolIdx r p q) = 0) ∧ (∀ e ∈ t.net.quota, e.1 % 8 ≠ p.val) ∧ (∀ b : Fin 2048, s.get F.bankOwn_OWNER b = p → t.deferOf b = []) ∧ (∀ b : Fin 2048, ∀ d ∈ t.deferOf b, tagPart d.tag ≠ p.val) ∧ t.mem = s.mem ∧ t.pending = s.pending ∧ t.t = s.t) ∧
  (∀ (p : Fin 8) (s : State),
      (s.pState p ≠ pReleasing ∨ s.cl.emptying.any (fun e => e.2 = p.val) = true ∨ s.clustersOf p ≠ []) →
      exec (.withdrawComplete p) s = .next (s)) ∧
  (∀ (c : Fin 128) (p : Nat) (s : State),
      s.fatal = false →
      mfind s.cl.emptying c = some p →
      Completes (.clusterEmptied c) s fun t => (∀ x ∈ t.cl.slots, x.cluster ≠ c.val) ∧ (∀ x ∈ t.cl.waits, x.cluster ≠ c.val) ∧ (∀ e ∈ t.cl.ways, e.1 / 8192 ≠ c.val) ∧ (∀ e ∈ t.cl.chains, e.1 / 2048 ≠ c.val) ∧ mfind t.cl.records c = none ∧ mfind t.cl.emptying c = none ∧ t.get F.csStat_USER_VALID c = 0 ∧ (∀ k : Fin 192, t.get F.dispatch_VALID (c.val * 1024 + 768 + k.val) = 0) ∧ t = { s with regs := t.regs, cl := t.cl } ∧ RegsBut [F.csStat_USER_VALID, F.dispatch_VALID] s t) ∧
  (∀ (c : Fin 128) (s : State),
      mfind s.cl.emptying c = none →
      exec (.clusterEmptied c) s = .next (s))

/-- STAGE, the drain of a mode change, and the parts of a migration do what R192–R199 say. That the bulk writes of the copy are counted as they are sent and answered is the choice of log 179; TIME for a mode that is none of the certificate that of log 129; FROM kept while TO is quarantined that of log 200. -/
def Obligations.ModesChangeAndPlacementsMove : Prop :=
  (∀ (x : ApRun) (k : Cert) (s : State),
      s.fatal = false →
      s.ap.cmd = some x →
      x.op = 4 →
      x.part < 8 →
      x.cluster < 128 →
      admitted s x.part = some k →
      changeable s x.part = true →
      x.mode ≠ s.get F.partStat_MODE x.part →
      x.mode < k.modes →
      4096 ≤ sdiff (w48 (s.get F.modeTc_T_C x.part)) s.t →
      sdiff (w48 (s.get F.modeTc_T_C x.part)) s.t ≤ 2 ^ 30 →
      ({ ledgerVf s x.part k with modes := some [s.get F.partStat_MODE x.part, x.mode] } : Vf).capacity.isNone = true →
      k.packages = [s.pkg] →
      Completes (.stage) s fun t => t.get F.modeStat_STAGING x.part = 1 ∧ t.get F.modeStat_TARGET x.part = x.mode % 2 ^ F.modeStat_TARGET.w ∧ t.staged = s.staged ++ [⟨1, x.part, x.mode, w48 (s.get F.modeTc_T_C x.part), false, s.pkg, 0, 0, [], [s.pkg], false⟩] ∧ t.mem = s.mem ∧ t.get F.apStatus_BUSY 0 = 0 ∧ t.get F.apStatus_VERDICT 0 = 1 ∧ t.ap.cmd = none ∧ t.pending = s.pending ∧ t.t = s.t) ∧
  (∀ (x : ApRun) (s : State),
      s.fatal = false →
      s.ap.cmd = some x →
      x.op = 4 →
      x.part < 8 →
      x.cluster < 128 →
      (admitted s x.part = none ∨ changeable s x.part = false) →
      exec (.stage) s = .next (apDone (vFail vBadcmd 0) s)) ∧
  (∀ (x : ApRun) (k : Cert) (v : Verdict) (s : State),
      s.fatal = false →
      s.ap.cmd = some x →
      x.op = 4 →
      x.part < 8 →
      x.cluster < 128 →
      admitted s x.part = some k →
      changeable s x.part = true →
      x.mode ≠ s.get F.partStat_MODE x.part →
      x.mode < k.modes →
      4096 ≤ sdiff (w48 (s.get F.modeTc_T_C x.part)) s.t →
      sdiff (w48 (s.get F.modeTc_T_C x.part)) s.t ≤ 2 ^ 30 →
      ({ ledgerVf s x.part k with modes := some [s.get F.partStat_MODE x.part, x.mode] } : Vf).capacity = some v →
      exec (.stage) s = .next (apDone v s)) ∧
  (∀ (x : ApRun) (k : Cert) (s : State),
      s.fatal = false →
      s.ap.cmd = some x →
      x.op = 4 →
      x.part < 8 →
      x.cluster < 128 →
      admitted s x.part = some k →
      changeable s x.part = true →
      (sdiff (w48 (s.get F.modeTc_T_C x.part)) s.t < 4096 ∨ 2 ^ 30 < sdiff (w48 (s.get F.modeTc_T_C x.part)) s.t ∨ x.mode = s.get F.partStat_MODE x.part ∨ k.modes ≤ x.mode) →
      exec (.stage) s = .next (apDone (vFail vTime 0) s)) ∧
  (∀ (p : Fin 8) (s : State),
      s.fatal = false →
      s.flag F.modeStat_DRAINING p = true →
      s.get F.modeStat_OLD_LIVE p = 0 →
      mfind s.ap.oldDiscard p = none →
      Completes (.modeDrained p) s fun t => t.get F.modeStat_DRAINING p = 0 ∧ t.get F.modeStat_DONE p = 1 ∧ t.get F.evCfg_COUNT (224 + p.val) = (s.get F.evCfg_COUNT (224 + p.val) + 1) % 2 ^ F.evCfg_COUNT.w ∧ mfind t.ap.drainEnd p = none ∧ t.mem = s.mem ∧ t.pending = s.pending ∧ t.t = s.t ∧ InstBut F.modeStat_DRAINING p s t ∧ InstBut F.modeStat_DONE p s t) ∧
  (∀ (p : Fin 8) (s : State),
      (s.flag F.modeStat_DRAINING p = false ∨ s.get F.modeStat_OLD_LIVE p ≠ 0) →
      exec (.modeDrained p) s = .next (s)) ∧
  (∀ (p : Fin 8) (e : Nat) (s : State),
      s.fatal = false →
      mfind s.ap.drainEnd p = some e →
      e ≤ s.ticks →
      s.flag F.modeStat_DRAINING p = true →
      Completes (.modeSweep p) s fun t => mfind t.ap.drainEnd p = none ∧ mfind t.ap.oldDiscard p = some (s.ticks + 2 ^ s.get F.dlCtl_WIN p) ∧ (∀ y ∈ t.cl.waits, ¬(OldWork s p y.cluster y.tag)) ∧ (∀ y ∈ t.cl.slots, ¬(OldWork s p y.cluster y.tag)) ∧ (∀ c : Fin 128, ∀ k : Fin 8192, ∀ x, t.way c k = some x → ¬(OldWork s p c x.tag)) ∧ (∀ c : Fin 128, ∀ k : Fin 2048, ∀ r ∈ t.chainOf c k, ¬(OldWork s p c (s.record c r).tag)) ∧ (∀ b : Fin 2048, s.get F.bankOwn_OWNER b = p → ∀ d ∈ t.deferOf b, ¬(tagPart d.tag = p.val ∧ tagEpoch d.tag = 1 - s.epoch p)) ∧ (∀ o ∈ t.out.held, ¬(o.part = p.val ∧ b2n o.epoch = 1 - s.epoch p)) ∧ t.pState p = s.pState p ∧ t.epoch p = s.epoch p ∧ t.pending = s.pending ∧ t.t = s.t) ∧
  (∀ (p : Fin 8) (e : Nat) (s : State),
      mfind s.ap.drainEnd p = some e →
      s.ticks < e →
      exec (.modeSweep p) s = .next (s)) ∧
  (∀ (p : Fin 8) (e : Nat) (s : State),
      s.fatal = false →
      mfind s.ap.oldDiscard p = some e →
      e ≤ s.ticks →
      Completes (.modeDiscardEnd p) s fun t => t.get F.modeStat_SWEPT p = 1 ∧ t.get F.modeStat_DRAINING p = 0 ∧ t.get F.modeStat_DONE p = 1 ∧ mfind t.ap.oldDiscard p = none ∧ t.mem = s.mem ∧ t.pending = s.pending ∧ t.t = s.t) ∧
  (∀ (p : Fin 8) (e : Nat) (s : State),
      mfind s.ap.oldDiscard p = some e →
      s.ticks < e →
      exec (.modeDiscardEnd p) s = .next (s)) ∧
  (∀ (x : ApRun) (s : State),
      s.fatal = false →
      s.ap.cmd = some x →
      x.op = 5 →
      x.part < 8 →
      x.cluster < 128 →
      changeable s x.part = false →
      exec (.migrate) s = .next (apDone (vFail vBadcmd 0) s)) ∧
  (∀ (x : ApRun) (k : Cert) (ws : List Nat) (mv : Move) (s : State),
      s.fatal = false → s.ap.cmd = some x → x.op = 5 → x.part < 8 → changeable s x.part = true →
      verify s x.part x true true = (vPass, some (k, ws, some mv)) → s.cState mv.frm = 2 → s.cOwner mv.frm = x.part →
      s.cState mv.dst = 0 → mfind s.cl.emptying mv.dst = none → (s.ap.redirects.filter fun r => r.part = x.part).length < 8 →
      Completes (.migrate) s fun t => t.cState mv.dst = 1 ∧ t.cOwner mv.dst = x.part ∧ t.cState mv.frm = 2 ∧
        t.get F.migCtl_TO mv.frm = mv.dst % 2 ^ F.migCtl_TO.w ∧ t.get F.migCtl_ACTIVE mv.frm = 1 ∧ t.get F.migStat_FORWARDED mv.frm = 0 ∧
        t.ap.migs = s.ap.migs ++ [⟨x.part, mv.frm, mv.dst, ws, mget [] s.ap.certs x.part, none, false, 0⟩] ∧ t.mem = s.mem ∧ t.cl = s.cl ∧
        t.get F.apStatus_BUSY 0 = 0 ∧ t.get F.apStatus_VERDICT 0 = 1 ∧ t.pending = s.pending ∧ t.t = s.t) ∧
  (∀ (p : Fin 8) (r : Rewrite) (g : Mig) (k : Cert) (s : State),
      s.fatal = false →
      (s.ap.migs.find? fun g => g.part = p.val && g.ts.isNone && 16384 ≤ g.next && !apertureWaits s) = some g →
      parseCert g.cert = .ok k →
      (k.recs.filter fun r => r.typ = tCluster && r.key = g.dst && r.fld 2 26 1 = 1) ≠ [] →
      r.good = false →
      g.dst < 128 →
      Completes (.migrationCopyDone p r) s fun t => t.cState g.dst = 0 ∧ t.cOwner g.dst = 15 ∧ t.get F.migCtl_ACTIVE g.frm = 0 ∧ t.ap.migs = s.ap.migs.erase g ∧ mfind t.cl.emptying g.dst = some p.val ∧ t.mem = s.mem ∧ t.pending = s.pending ∧ t.t = s.t) ∧
  (∀ (p : Fin 8) (r : Rewrite) (g : Mig) (k : Cert) (s : State),
      s.fatal = false →
      (s.ap.migs.find? fun g => g.part = p.val && g.ts.isNone && 16384 ≤ g.next && !apertureWaits s) = some g →
      parseCert g.cert = .ok k →
      (k.recs.filter fun r => r.typ = tCluster && r.key = g.dst && r.fld 2 26 1 = 1) = [] →
      k.packages = [s.pkg] →
      g.frm < 128 →
      g.dst < 128 →
      g.frm ≠ g.dst →
      Completes (.migrationCopyDone p r) s fun t => t.staged = s.staged ++ [⟨2, p.val, 0, nextMultiple s.t 4096, false, s.pkg, g.frm, g.dst, [], [s.pkg], false⟩] ∧ (t.ap.migs.find? fun y => y.part = p.val && y.frm = g.frm && y.ts = some (nextMultiple s.t 4096)).isSome = true ∧ t.cState g.dst = s.cState g.dst ∧ t.pending = s.pending ∧ t.t = s.t ∧ t.mem = s.mem) ∧
  (∀ (p : Fin 8) (r : Rewrite) (s : State),
      (s.ap.migs.find? fun g => g.part = p.val && g.ts.isNone && 16384 ≤ g.next && !apertureWaits s) = none →
      exec (.migrationCopyDone p r) s = .next (s)) ∧
  (∀ (g : Mig) (s : State), s.pkg < 16 → g.dst < 128 → g.next < 16384 → reqOp (copyPacket s g).pay = 13 ∧ reqSys (copyPacket s g).pay = true ∧
      (reqAddr (copyPacket s g).pay).toNat = s.pkg * 2 ^ 44 + instrAddr g.dst 0 + g.next * 32 ∧
      bulkWide (copyPacket s g) = (List.range 4).map fun k => s.readN (instrAddr g.frm 0 + g.next * 32 + 8 * k) 8) ∧
  (∀ (p : Fin 8) (g : Mig) (s : State),
      s.fatal = false →
      (s.ap.migs.find? fun g => g.part = p.val && g.switched) = some g →
      migDrain s g.frm = 0 →
      s.cState g.frm = 3 →
      s.cState g.dst ≠ 4 →
      g.frm < 128 →
      Completes (.migrationDrained p) s fun t => t.cState g.frm = 0 ∧ t.cOwner g.frm = 15 ∧ t.get F.migCtl_ACTIVE g.frm = 0 ∧ t.ap.migs = s.ap.migs.erase g ∧ t.get F.evCfg_COUNT (240 + p.val) = (s.get F.evCfg_COUNT (240 + p.val) + 1) % 2 ^ F.evCfg_COUNT.w ∧ t.mem = s.mem ∧ t.pending = s.pending ∧ t.t = s.t ∧ InstBut F.clStatus_STATE g.frm s t ∧ InstBut F.clStatus_OWNER g.frm s t) ∧
  (∀ (p : Fin 8) (g : Mig) (s : State),
      (s.ap.migs.find? fun g => g.part = p.val && g.switched) = some g →
      (migDrain s g.frm ≠ 0 ∨ s.cState g.dst = 4) →
      exec (.migrationDrained p) s = .next (s))

/-- A lost capacity revokes, a suspended guarantee returns after one bound, and LOST is acknowledged (R188, R190, R201). -/
def Obligations.GuaranteesAreLostAndRestored : Prop :=
  (∀ (p : Fin 8) (t0 : Nat) (k : Cert) (s : State),
      s.fatal = false →
      mfind s.ap.suspendedAt p = some t0 →
      admitted s p = some k →
      s.pState p = pSuspended →
      ((s.clustersOf p).any fun c => (mfind s.cl.reload c).isSome) = false →
      t0 + (ledgerVf s p k).maxTicks ≤ s.ticks →
      Completes (.guaranteeRestore p) s fun t => t.pState p = pGuaranteed ∧ mfind t.ap.suspendedAt p = none ∧ t = { s with regs := t.regs, ap := { s.ap with suspendedAt := t.ap.suspendedAt } } ∧ RegsBut [F.partStat_STATE] s t ∧ InstBut F.partStat_STATE p s t) ∧
  (∀ (p : Fin 8) (t0 : Nat) (s : State),
      mfind s.ap.suspendedAt p = some t0 →
      s.ticks < t0 →
      exec (.guaranteeRestore p) s = .next (s)) ∧
  (∀  (s : State),
      s.ap.reexamine = false →
      exec (.ledgerReexamine) s = .next (s)) ∧
  (∀  (s : State),
      ((dueStaged s 1 none).isSome || (dueStaged s 2 none).isSome) = true →
      exec (.ledgerReexamine) s = .next (s)) ∧
  (∀  (s : State),
      s.fatal = false →
      s.ap.reexamine = true →
      dueStaged s 1 none = none →
      dueStaged s 2 none = none →
      s.ap.lost = [] →
      ((List.range 8).all fun p => s.pState p ≠ pGuaranteed || stillFits s p) = true →
      exec (.ledgerReexamine) s = .next ({ s with ap := { s.ap with reexamine := false } })) ∧
  (∀ (p : Fin 8) (r : Nat) (s : State),
      s.fatal = false →
      s.ap.reexamine = true →
      dueStaged s 1 none = none →
      dueStaged s 2 none = none →
      s.ap.lost = [(p.val, r)] →
      s.pState p = pGuaranteed →
      s.get F.partStat_CRIT p < 4 →
      s.get F.partCfg_REVOKE_ACT p = 0 →
      (∀ q : Fin 8, q ≠ p → s.pState q ≠ pGuaranteed) →
      Completes (.ledgerReexamine) s fun t => t.pState p = pRevoked ∧ t.get F.partStat_LOST p = 1 ∧ t.get F.partStat_REASON p = r % 16 ∧ t.get F.evCfg_COUNT (216 + p.val) = (s.get F.evCfg_COUNT (216 + p.val) + 1) % 2 ^ F.evCfg_COUNT.w ∧ t.ap = { s.ap with lost := [], reexamine := false } ∧ t.mem = s.mem ∧ t.pending = s.pending ∧ t.t = s.t ∧ InstBut F.partStat_STATE p s t) ∧
  (∀ (who : From) (p : Fin 8) (s : State),
      s.fatal = false →
      exec (.lostAck who p) s = .next (s.set F.partStat_LOST p 0))

/-- BAR0 and BAR2 accesses, configuration requests, MSI-X, endpoint resets and the link do what R421–R427 say. The model decides the order of the reasons of a failure (log 59) and of service (log 60), a BAR2 read past the end (log 61), the reporting of a BAR2 write (log 63), and the places of the capabilities bits (log 209). -/
def Obligations.HostAccessesAndLink : Prop :=
  (∀ (wr b2 : Bool) (why : Nat) (a : Option Nat) (s : State), (hostFail wr b2 why a s).get F.pcieErrinfo_COUNT 0 = (s.get F.pcieErrinfo_COUNT 0 + 1) % 2 ^ F.pcieErrinfo_COUNT.w ∧
      (hostFail wr b2 why a s).get F.evCfg_COUNT 497 = (s.get F.evCfg_COUNT 497 + 1) % 2 ^ F.evCfg_COUNT.w ∧
      (s.flag F.pcieErrinfo_VALID 0 = false → (hostFail wr b2 why a s).get F.pcieErrinfo_VALID 0 = 1 ∧ (hostFail wr b2 why a s).get F.pcieErrinfo_REASON 0 = why % 2 ^ F.pcieErrinfo_REASON.w ∧ (hostFail wr b2 why a s).get F.pcieErrinfo_WRITE 0 = b2n wr ∧ (hostFail wr b2 why a s).get F.pcieErrinfo_BAR2 0 = b2n b2) ∧
      (s.flag F.pcieErrinfo_VALID 0 = true → RegsBut [F.pcieErrinfo_COUNT, F.evCfg_COUNT, F.evCfg_PEND] s (hostFail wr b2 why a s)) ∧
      (hostFail wr b2 why a s).mem = s.mem ∧ (hostFail wr b2 why a s).pending = s.pending ∧ (hostFail wr b2 why a s).t = s.t) ∧
  (∀ (off : BitVec 26) (size : Fin 4097) (err : Fin 4) (x : BitVec 64) (s : State),
      inD3 s = false →
      s.pcie.queue = [] →
      s.pcie.posted = [] →
      bar0Refused s ⟨off.toNat, size.val, false, 0, false, none⟩ = none →
      direct s ((bar0Addr s off.toNat).getD 0) = true →
      (accRead hostInit true (size.val = 8) err (localOf s ((bar0Addr s off.toNat).getD 0)) s).1 = .ok x →
      exec (.bar0Read off size false err) s = .next (complete ⟨0, cplOk, false, bytesOf size.val x.toNat⟩ (accRead hostInit true (size.val = 8) err (localOf s ((bar0Addr s off.toNat).getD 0)) s).2)) ∧
  (∀ (off : BitVec 26) (size : Fin 4097) (err : Fin 4) (why : Nat) (s : State),
      inD3 s = false →
      s.pcie.queue = [] →
      s.pcie.posted = [] →
      bar0Refused s ⟨off.toNat, size.val, false, 0, false, none⟩ = some why →
      exec (.bar0Read off size false err) s = .next (complete ⟨0, cplCa, false, []⟩ (hostFail false false why ((bar0Addr s off.toNat).map (·.toNat)) s))) ∧
  (∀ (off : BitVec 26) (size : Fin 4097) (err : Fin 4) (s : State),
      (size.val ≠ 4 ∧ size.val ≠ 8 ∨ off.toNat % size.val ≠ 0) →
      inD3 s = false →
      s.pcie.queue = [] →
      s.pcie.posted = [] →
      exec (.bar0Read off size false err) s = .next (complete ⟨0, cplCa, false, []⟩ (hostFail false false 6 ((bar0Addr s off.toNat).map (·.toNat)) s))) ∧
  (∀ (off : BitVec 26) (size : Fin 4097) (err : Fin 4) (s : State),
      inD3 s = true →
      exec (.bar0Read off size false err) s = .next (complete ⟨0, cplUr, false, []⟩ s)) ∧
  (∀ (off : BitVec 26) (size : Fin 4097) (err : Fin 4) (s : State),
      s.fatal = false →
      exec (.bar0Read off size true err) s = .next (reportU 37 (loc 7 11) 0 s)) ∧
  (∀ (off : BitVec 26) (size : Fin 4097) (v : BitVec 64) (err : Fin 4) (s : State),
      inD3 s = false →
      s.pcie.queue = [] →
      s.pcie.posted = [] →
      bar0Refused s ⟨off.toNat, size.val, true, v.toNat, false, none⟩ = none →
      direct s ((bar0Addr s off.toNat).getD 0) = true →
      (accWrite hostInit true (size.val = 8) 2 err (localOf s ((bar0Addr s off.toNat).getD 0)) v.toNat s).1 = true →
      exec (.bar0Write off size v false false err) s = .next ((accWrite hostInit true (size.val = 8) 2 err (localOf s ((bar0Addr s off.toNat).getD 0)) v.toNat s).2)) ∧
  (∀ (off : BitVec 26) (size : Fin 4097) (v : BitVec 64) (err : Fin 4) (s : State),
      inD3 s = false →
      s.pcie.queue = [] →
      s.pcie.posted = [] →
      s.fatal = true →
      (size.val = 4 ∨ size.val = 8) →
      off.toNat % size.val = 0 →
      (bar0Addr s off.toNat).isSome = true →
      exec (.bar0Write off size v false false err) s = .next (hostFail true false 3 ((bar0Addr s off.toNat).map (·.toNat)) s)) ∧
  (∀ (off : BitVec 25) (len : Fin 4097) (s : State),
      inD3 s = false →
      off.toNat + len.val ≤ 2 ^ 25 →
      exec (.bar2Read off len .good) s = .next ({ s with pcie := { s.pcie with cpl := s.pcie.cpl ++ bar2Cpls s none len off.toNat len } })) ∧
  (∀ (s : State) (off len : Nat), ((bar2Cpls s none len off len).flatMap fun c => c.data) = (List.range len).map (fun i => (s.readByte (hubAddr (0x2000000 + off + i))).toNat) ∧
      (∀ c ∈ bar2Cpls s none len off len, c.status = cplOk ∧ c.ep = false ∧ c.data.length ≤ 256)) ∧
  (∀ (off : BitVec 25) (len : Fin 4097) (bad : Bar2In) (s : State),
      bad ≠ .malformed →
      (inD3 s = true ∨ 2 ^ 25 < off.toNat + len.val) →
      exec (.bar2Read off len bad) s = .next (complete ⟨2, cplUr, false, []⟩ s)) ∧
  (∀ (off : BitVec 25) (len : Fin 4097) (s : State),
      s.fatal = false →
      (exec (.bar2Read off len .malformed) s = .next (reportU 37 (loc 7 11) 0 s) ∧ exec (.bar2Write .malformed) s = .next (reportU 37 (loc 7 11) 0 s) ∧
      exec (.configRequest .malformed) s = .next (reportU 37 (loc 7 11) 0 s))) ∧
  (∀ (off : BitVec 25) (s : State),
      inD3 s = true →
      exec (.bar2Write (.write off)) s = .next (s)) ∧
  (∀ (off : BitVec 25) (s : State),
      inD3 s = false →
      exec (.bar2Write (.write off)) s = .next (hostFail true true 7 (some off.toNat) { s with pcie := { s.pcie with cfg := mput s.pcie.cfg 4097 1 } })) ∧
  (∀  (s : State),
      2 < s.get F.bootStat_STEP 0 →
      exec (.configRequest (.read 0)) s = .next (complete ⟨3, cplOk, false, [0x4A, 0x1E, 0x48, 0x08]⟩ s)) ∧
  (∀ (dw : Fin 1024) (v : BitVec 32) (s : State),
      2 < s.get F.bootStat_STEP 0 →
      dw.val ≠ 1 →
      exec (.configRequest (.write dw v)) s = .next (complete ⟨3, cplOk, false, []⟩ { s with pcie := { s.pcie with cfg := mput s.pcie.cfg dw v.toNat } })) ∧
  (∀ (en fm : Bool) (s : State),
      2 < s.get F.bootStat_STEP 0 →
      exec (.configRequest (.msix en fm)) s = .next (complete ⟨3, cplOk, false, []⟩ ((s.set F.pcieStat_MSIX_EN 0 (b2n en)).set F.pcieStat_FMASK 0 (b2n fm)))) ∧
  (∀ (dw : Fin 1024) (s : State),
      s.fatal = false →
      2 < s.get F.bootStat_STEP 0 →
      exec (.configRequest (.poisoned dw)) s = .next (complete ⟨3, cplUr, false, []⟩ (reportU 37 (loc 7 11) 0 s))) ∧
  (∀  (s : State),
      2 < s.get F.bootStat_STEP 0 →
      Completes (.configRequest (.cap .link)) s fun t => (∃ v : Nat, t.pcie.cpl = s.pcie.cpl ++ [⟨3, cplOk, false, bytesOf 4 v⟩] ∧ bits v 0 4 = 4 ∧ bits v 4 6 = 8 ∧ bits v 10 2 = 2) ∧ t = { s with pcie := t.pcie, free := t.free }) ∧
  (∀  (s : State),
      2 < s.get F.bootStat_STEP 0 →
      Completes (.configRequest (.cap .msix)) s fun t => (∃ v : Nat, t.pcie.cpl = s.pcie.cpl ++ [⟨3, cplOk, false, bytesOf 4 v⟩] ∧ bits v 16 11 = 511 ∧ (bits v 31 1 = 1 ↔ s.flag F.pcieStat_MSIX_EN 0 = true)) ∧ t = { s with pcie := t.pcie, free := t.free }) ∧
  (∀ (q : CfgReq) (s : State),
      q ≠ .malformed →
      s.get F.bootStat_STEP 0 ≤ 2 →
      exec (.configRequest q) s = .next (complete ⟨3, cplCrs, false, []⟩ s)) ∧
  (∀ (n : Fin 512) (s : State),
      s.fatal = false →
      s.flag F.pcieStat_MSIX_EN 0 = true →
      s.flag F.pcieStat_FMASK 0 = false →
      s.flag F.pcieStat_BME 0 = true →
      mget 1 s.pcie.msixTab (n * 4 + 3) % 2 = 0 →
      (mfind s.pcie.msixPend n).isSome = true →
      exec (.msixSend n) s = .next ({ s with pcie := { s.pcie with msixPend := mdel s.pcie.msixPend n, msixSent := s.pcie.msixSent ++ [⟨n.val, BitVec.ofNat 64 (mget 0 s.pcie.msixTab (n * 4) + mget 0 s.pcie.msixTab (n * 4 + 1) * 2 ^ 32), BitVec.ofNat 32 (mget 0 s.pcie.msixTab (n * 4 + 2))⟩] } })) ∧
  (∀ (n : Fin 512) (s : State),
      (s.flag F.pcieStat_MSIX_EN 0 = false ∨ s.flag F.pcieStat_FMASK 0 = true ∨ s.flag F.pcieStat_BME 0 = false ∨ mget 1 s.pcie.msixTab (n * 4 + 3) % 2 = 1) →
      exec (.msixSend n) s = .next (s)) ∧
  (∀ (r : EpReset) (s : State),
      r ≠ .detect →
      Completes (.endpointReset r) s fun t => t.pcie.cfg = [] ∧ t.pcie.msixTab = [] ∧ t.pcie.msixPend = [] ∧ t.pcie.queue = s.pcie.queue.filter (·.write) ∧ t.get F.pcieStat_BME 0 = 0 ∧ t.get F.pcieStat_MSIX_EN 0 = 0 ∧ t.get F.pcieStat_FMASK 0 = 0 ∧ t.get F.pcieStat_LINK_EVT 0 = 1 ∧ t.get F.evCfg_COUNT 496 = (s.get F.evCfg_COUNT 496 + 1) % 2 ^ F.evCfg_COUNT.w ∧ t = { s with regs := t.regs, pcie := t.pcie } ∧ RegsBut [F.pcieStat_BME, F.pcieStat_MSIX_EN, F.pcieStat_FMASK, F.pcieStat_LINK_EVT, F.evCfg_COUNT, F.evCfg_PEND] s t) ∧
  (∀  (s : State),
      s.fatal = false →
      s.get F.bootStat_STEP 0 = 11 →
      Completes (.endpointReset .detect) s fun t => t.get F.pcieStat_LINK 0 = 0 ∧ t.get F.pcieStat_LINKDOWNS 0 = (s.get F.pcieStat_LINKDOWNS 0 + 1) % 2 ^ F.pcieStat_LINKDOWNS.w ∧ t.pcie.cfg = [] ∧ t.get F.pcieStat_LINK_EVT 0 = 1 ∧ t.flt = (reportU 37 (loc 7 11) 0 s).flt ∧ t.mem = s.mem ∧ t.pending = s.pending) ∧
  (∀ (link speed : Fin 5) (width : Fin 9) (ex : Bool) (s : State),
      link.val ≠ s.get F.pcieStat_LINK 0 →
      link.val ≠ 0 →
      Completes (.linkStateChange link speed width ex) s fun t => t.get F.pcieStat_LINK 0 = link.val ∧ t.get F.pcieStat_SPEED 0 = speed.val ∧ t.get F.pcieStat_WIDTH 0 = width.val % 2 ^ F.pcieStat_WIDTH.w ∧ t.get F.pcieStat_LINK_EVT 0 = 1 ∧ t.get F.evCfg_COUNT 496 = (s.get F.evCfg_COUNT 496 + 1) % 2 ^ F.evCfg_COUNT.w ∧ t = { s with regs := t.regs, pcie := t.pcie } ∧ RegsBut [F.pcieStat_LINK, F.pcieStat_SPEED, F.pcieStat_WIDTH, F.pcieStat_LINK_EVT, F.evCfg_COUNT, F.evCfg_PEND] s t) ∧
  (∀ (link speed : Fin 5) (width : Fin 9) (ex : Bool) (s : State),
      link.val = s.get F.pcieStat_LINK 0 →
      exec (.linkStateChange link speed width ex) s = .next ((s.set F.pcieStat_SPEED 0 speed).set F.pcieStat_WIDTH 0 width))

/-- A capture stream writes its records into its ring and no other byte, and CAP_RP and CAP_CFG act as R451 says. -/
def Obligations.CaptureStreamsRecord : Prop :=
  (∀ (k : Fin 64) (s : State), 8 * ((s.cap k).words.length + 2) ≤ ringBytes s k → s.get F.capWp_PTR k % 8 = 0 → ringBytes s k ≤ 2 ^ 25 →
      (finishRecord k s).get F.capWp_PTR k = (s.get F.capWp_PTR k + 8 * ((s.cap k).words.length + 2)) % ringBytes s k ∧
      (finishRecord k s).get F.capStat_RECORDS k = (s.get F.capStat_RECORDS k + 1) % 2 ^ F.capStat_RECORDS.w ∧
      (finishRecord k s).readN (hubAddr (0x2000000 + s.get F.capRing_BASE k * 4096 + s.get F.capWp_PTR k % ringBytes s k)) 8 = (stampEra s (tickOf (s.cap k).t)).toNat ∧
      (∀ i, i < (s.cap k).words.length → (finishRecord k s).readN (hubAddr (0x2000000 + s.get F.capRing_BASE k * 4096 + (s.get F.capWp_PTR k + 8 * (i + 2)) % ringBytes s k)) 8 = ((s.cap k).words.getD i 0).toNat) ∧
      (∀ a, a < hubAddr (0x2000000 + s.get F.capRing_BASE k * 4096) ∨ hubAddr (0x2000000 + s.get F.capRing_BASE k * 4096 + ringBytes s k) ≤ a → (finishRecord k s).readByte a = s.readByte a) ∧
      ((finishRecord k s).cap k).words = [] ∧ ((finishRecord k s).cap k).seq = ((s.cap k).seq + 1) % 2 ^ 32) ∧
  (∀ (k : Fin 64) (errs : List (Fin 3)) (w : PfWord) (poison : Bool) (s : State),
      s.fatal = false →
      (s.fifo (32 + k.val)).settle.chain.isEmpty = false →
      (s.cap k).words = [] →
      ringRoom s k = true →
      (pfTake (32 + k.val) ((errs.map (·.val)).headD 0) (s.set F.capStat_WAITING k 0)).1 = some (w, poison) →
      w.last = true →
      exec (.captureRecord k errs) s = .next (joinRecord k w poison (pfTake (32 + k.val) ((errs.map (·.val)).headD 0) (s.set F.capStat_WAITING k 0)).2)) ∧
  (∀ (k : Fin 64) (errs : List (Fin 3)) (s : State),
      s.fatal = false →
      (s.fifo (32 + k.val)).settle.chain.isEmpty = false →
      (s.cap k).words = [] →
      ringRoom s k = false →
      exec (.captureRecord k errs) s = .next (s.set F.capStat_WAITING k 1)) ∧
  (∀ (k : Fin 64) (errs : List (Fin 3)) (w : PfWord) (rest : List PfWord) (s : State),
      s.fatal = false →
      (s.fifo (32 + k.val)).settle.chain = w :: rest →
      w.gap = true →
      (s.cap k).words ≠ [] →
      ringRoom (finishRecord k s) k = false →
      exec (.captureRecord k errs) s = .next ((finishRecord k s).set F.capStat_WAITING k 1)) ∧
  (∀ (k : Fin 64) (errs : List (Fin 3)) (s : State),
      (s.fifo (32 + k.val)).settle.chain.isEmpty = true →
      exec (.captureRecord k errs) s = .next (s)) ∧
  (∀ (k : Fin 64) (ws : List PfWord) (w : PfWord) (s : State),
      s.fatal = false →
      s.get F.capCfg_CLOSE_T k ≠ 0 →
      s.flag F.capCfg_EN k = true →
      (s.cap k).lastAt + s.get F.capCfg_CLOSE_T k ≤ s.ticks →
      s.get F.capCfg_MODE k = 1 →
      (s.cap k).count ≠ 0 →
      (s.fifo (32 + k.val)).settle.done = none →
      (s.fifo (32 + k.val)).settle.chain = ws ++ [w] →
      w.last = false →
      exec (.captureShortClose k) s = .next ((s.setCap k { s.cap k with count := 0 }).setFifo (32 + k.val) { (s.fifo (32 + k.val)).settle with discarding := false, chain := ws ++ [{ w with last := true, pos := 1 }] })) ∧
  (∀ (k : Fin 64) (s : State),
      (s.get F.capCfg_CLOSE_T k = 0 ∨ s.flag F.capCfg_EN k = false ∨ s.ticks < (s.cap k).lastAt + s.get F.capCfg_CLOSE_T k) →
      exec (.captureShortClose k) s = .next (s)) ∧
  (∀ (who : From) (k : Fin 64) (v : BitVec 25) (s : State),
      s.fatal = false →
      v.toNat % 8 = 0 →
      v.toNat < ringBytes s k →
      (v.toNat + ringBytes s k - s.get F.capRp_PTR k) % ringBytes s k ≤ unread s k →
      exec (.capRp who k v) s = .next (s.set F.capRp_PTR k v.toNat)) ∧
  (∀ (who : From) (k : Fin 64) (v : BitVec 25) (s : State),
      s.fatal = false →
      (v.toNat % 8 ≠ 0 ∨ ringBytes s k ≤ v.toNat) →
      exec (.capRp who k v) s = .next (s.set F.capStat_BADRP k 1)) ∧
  (∀ (who : From) (k : Fin 64) (s : State),
      s.fatal = false →
      s.flag F.capCfg_EN k = false →
      s.get F.capRing_BASE k + s.get F.capRing_SIZE k ≤ 8192 →
      (∀ j : Fin 64, j ≠ k → s.flag F.capCfg_EN j = true → ringsMeet s (s.get F.capRing_BASE k) (s.get F.capRing_SIZE k) j = false) →
      Completes (.capEnable who k) s fun t => t.get F.capCfg_EN k = 1 ∧ t.get F.capWp_PTR k = 0 ∧ t.get F.capRp_PTR k = 0 ∧ t.cap k = { CapStream.empty with seq := (s.cap k).seq } ∧ t = { s with regs := t.regs, port := { s.port with caps := t.port.caps } } ∧ RegsBut [F.capCfg_EN, F.capCfg_MODE, F.capCfg_LANE, F.capCfg_CHMASK, F.capCfg_PKT, F.capCfg_CLOSE_T, F.capWp_PTR, F.capRp_PTR] s t) ∧
  (∀ (who : From) (k j : Fin 64) (s : State),
      s.flag F.capCfg_EN k = false →
      j ≠ k →
      s.flag F.capCfg_EN j = true →
      ringsMeet s (s.get F.capRing_BASE k) (s.get F.capRing_SIZE k) j = true →
      exec (.capEnable who k) s = .next (s)) ∧
  (∀ (who : From) (k : Fin 64) (s : State),
      s.fatal = false →
      s.flag F.capCfg_EN k = true →
      s.get F.capCfg_MODE k < 4 →
      s.get F.capCfg_LANE k < 32 →
      s.get F.capCfg_CHMASK k < 256 →
      s.get F.capCfg_PKT k < 4096 →
      s.get F.capCfg_CLOSE_T k < 65536 →
      (s.get F.capCfg_MODE k ≠ 1 ∨ (s.cap k).count = 0) →
      exec (.capDisable who k) s = .next (s.set F.capCfg_EN k 0))

/-- Chain links lock, align and fall, credits are taken, and ENUM, DONE and FATAL act as R389, R408, R409, R433–R440 say. How 6 blocks in 4,096 ring cycles are judged is the choice of log 178, that ENUM is answered from step 10 on that of log 117, and that it waits for the measured delay that of log 196. -/
def Obligations.ChainLinksAndEnumeration : Prop :=
  (∀ (up : Bool) (lanes : BitVec 4) (s : State),
      s.fatal = false →
      9 ≤ s.get F.bootStat_STEP 0 →
      (s.get F.cpStat_STATE (sideOf up) = 0 ∨ s.get F.cpStat_STATE (sideOf up) = 1) →
      (s.get F.cpStat_LOCKED (sideOf up) ||| lanes.toNat) % 16 = 15 →
      Completes (.blockLock up lanes) s fun t => t.get F.cpStat_STATE (sideOf up) = 2 ∧ t.get F.cpStat_LOCKED (sideOf up) = 15 ∧ t.get F.cpStat_LINK_EVT (sideOf up) = 1 ∧ t = { s with regs := t.regs, pcie := t.pcie } ∧ RegsBut [F.cpStat_STATE, F.cpStat_LOCKED, F.cpStat_LINK_EVT, F.evCfg_COUNT, F.evCfg_PEND] s t ∧ InstBut F.cpStat_STATE (sideOf up) s t) ∧
  (∀ (up : Bool) (lanes : BitVec 4) (s : State),
      s.fatal = false →
      9 ≤ s.get F.bootStat_STEP 0 →
      (s.get F.cpStat_STATE (sideOf up) = 0 ∨ s.get F.cpStat_STATE (sideOf up) = 1) →
      (s.get F.cpStat_LOCKED (sideOf up) ||| lanes.toNat) % 16 ≠ 15 →
      exec (.blockLock up lanes) s = .next (s.set F.cpStat_LOCKED (sideOf up) (s.get F.cpStat_LOCKED (sideOf up) ||| lanes.toNat))) ∧
  (∀ (up : Bool) (s : State),
      s.get F.cpStat_STATE (sideOf up) = 2 →
      Completes (.align up true) s fun t => t.get F.cpStat_STATE (sideOf up) = 3 ∧ (∀ (c : Fin 9) (v : Fin 4), mget 0 t.net.credit (creditKey (segOut up) c v) = 16) ∧ t.mem = s.mem ∧ t.pending = s.pending ∧ t.t = s.t) ∧
  (∀ (up : Bool) (s : State),
      s.get F.cpStat_STATE (sideOf up) = 3 →
      exec (.align up false) s = exec (.chainDown up) s) ∧
  (∀ (up good : Bool) (s : State),
      s.get F.cpStat_STATE (sideOf up) = 3 →
      good = true →
      exec (.align up good) s = .next (s)) ∧
  (∀ (up : Bool) (s : State),
      s.get F.cpStat_STATE (sideOf up) ≠ 0 →
      s.get F.cpStat_STATE (sideOf up) ≠ 4 →
      Completes (.chainDown up) s fun t => t.get F.cpStat_STATE (sideOf up) = 0 ∧ t.get F.cpStat_LOCKED (sideOf up) = 0 ∧ t.get F.cpStat_DOWNS (sideOf up) = (s.get F.cpStat_DOWNS (sideOf up) + 1) % 2 ^ F.cpStat_DOWNS.w ∧ t.get F.cpStat_LINK_EVT (sideOf up) = 1 ∧ t.mem = s.mem ∧ t.pending = s.pending ∧ t.t = s.t) ∧
  (∀ (up : Bool) (s : State),
      (s.get F.cpStat_STATE (sideOf up) = 0 ∨ s.get F.cpStat_STATE (sideOf up) = 4) →
      exec (.chainDown up) s = .next (s)) ∧
  (∀ (up : Bool) (content : W) (blk : CtlIn) (s : State),
      s.fatal = false →
      cpUp s (sideOf up) = true →
      ctlGood 0x78 content blk = true →
      exec (.credit up content blk) s = .next ((List.range 4).foldl (fun s j => takeCredit up (bits content.toNat (12 * j) 12) s) s)) ∧
  (∀ (up : Bool) (e : Nat) (s : State), e % 16 ≤ 8 →
      (let k := creditKey (segOut up) (e % 16) (bits e 4 2);
      mget 0 (takeCredit up e s).net.credit k = mget 0 s.net.credit k + (bits e 6 6 + 64 - mget 0 s.net.creditSeen k) % 64 ∧
      mget 0 (takeCredit up e s).net.creditSeen k = bits e 6 6 ∧ ∀ j, j ≠ k → mfind (takeCredit up e s).net.credit j = mfind s.net.credit j)) ∧
  (∀ (up : Bool) (content : W) (blk : CtlIn) (s : State),
      s.fatal = false →
      cpUp s (sideOf up) = true →
      (blk.type ≠ 0x78 ∨ blk.crc.toNat ≠ ctlCrc 0x78 content) →
      exec (.credit up content blk) s = .next (raiseEvent 500 (s.inc F.cpStat_CTLERR (sideOf up)))) ∧
  (∀ s : State, (∀ g l : Nat, (laneCarried s g l).length ≤ 6 ∧ ((laneCarried s g l).filter fun e => e.2.2).length ≤ 3) →
      ∀ g l : Nat, (laneCarried (pumpCtl s) g l).length ≤ 6 ∧ ((laneCarried (pumpCtl s) g l).filter fun e => e.2.2).length ≤ 3) ∧
  (∀ (s : State) (g ty : Nat) (v : W), cpUp s (sideOut g) = true → ty ≠ 0x8B → ty ≠ 0x4B → ty ≠ 0x78 → s.chain.wait = [] → laneFits s g 0 false = false →
      postCtl g ty [v] s = { s with chain := { s.chain with wait := [⟨g, ty, [v]⟩] } }) ∧
  (∀ (number : Fin 16) (era : BitVec 16) (v : W) (blk : EnumIn) (s : State),
      s.fatal = false →
      ctlGood 0x4B (enumContent number era) blk.enum = true →
      ctlGood 0x4C v blk.enumT = true →
      cpUp s 0 = true →
      10 ≤ s.get F.bootStat_STEP 0 →
      s.chain.wait = [] →
      laneFits s (segOut true) 0 false = true →
      exec (.enum number era v blk) s = .next ({ s with chain := { s.chain with ctl := s.chain.ctl ++ [⟨segOut true, 0x55, w48 s.chainLen⟩], carried := (s.chain.carried.filter fun e => decide (s.ticks < e.2.1 + 854)) ++ [(segOut true * 4 + 0, s.ticks, false)] } })) ∧
  (∀ (number : Fin 16) (era : BitVec 16) (v : W) (blk : EnumIn) (s : State),
      s.fatal = false →
      ctlGood 0x4B (enumContent number era) blk.enum = true →
      ctlGood 0x4C v blk.enumT = true →
      cpUp s 0 = true →
      s.chain.measUp = true →
      s.get F.bootStat_STEP 0 = 9 →
      s.mc.failed = false →
      s.flag F.devId_HEAD 0 = false →
      number.val < 15 →
      Completes (.enum number era v blk) s fun t => (let u := v + BitVec.ofNat 48 ((s.get F.chainTm_DELAY 0 + 8) / 16);
      t.get F.devId_PKG 0 = number.val + 1 ∧ t.lens.load = some (u, (if u < v then era + 1 else era), false) ∧ t.chain.enumDue = true ∧ t = { s with regs := t.regs, lens := { s.lens with load := t.lens.load }, chain := { s.chain with enumDue := true, got := true, enumIn := none } }) ∧ RegsBut [F.devId_PKG] s t) ∧
  (∀ (number : Fin 16) (era : BitVec 16) (v : W) (blk : EnumIn) (s : State),
      s.fatal = false →
      ctlGood 0x4B (enumContent number era) blk.enum = true →
      ctlGood 0x4C v blk.enumT = true →
      cpUp s 0 = true →
      s.chain.measUp = false →
      s.get F.bootStat_STEP 0 = 9 →
      s.mc.failed = false →
      s.flag F.devId_HEAD 0 = false →
      number.val < 15 →
      exec (.enum number era v blk) s = .next ({ s with chain := { s.chain with enumIn := some (number.val, era, v, s.ticks) } })) ∧
  (∀ (number : Fin 16) (era : BitVec 16) (v : W) (blk : EnumIn) (s : State),
      s.fatal = false →
      ctlGood 0x4B (enumContent number era) blk.enum = true →
      ctlGood 0x4C v blk.enumT = true →
      s.get F.bootStat_STEP 0 = 9 →
      s.mc.failed = false →
      (s.flag F.devId_HEAD 0 = true ∨ cpUp s 0 = true ∧ number.val = 15) →
      Completes (.enum number era v blk) s fun t => t.get F.bootStat_ERROR 0 = 11 ∧ t.mc.failed = true ∧ t.get F.devId_PKG 0 = s.get F.devId_PKG 0 ∧ t.lens = s.lens ∧ t.mem = s.mem ∧ t.pending = s.pending) ∧
  (∀ (len : BitVec 5) (blk : CtlIn) (s : State),
      s.fatal = false →
      ctlGood 0x55 (w48 len.toNat) blk = true →
      cpUp s 1 = true →
      s.get F.bootStat_STEP 0 = 9 →
      s.mc.failed = false →
      s.flag F.devId_TAIL 0 = false →
      s.flag F.devId_HEAD 0 = true →
      exec (.done len blk) s = .next (s.set F.devId_CHAIN_LEN 0 len.toNat)) ∧
  (∀ (len : BitVec 5) (blk : CtlIn) (s : State),
      s.fatal = false →
      ctlGood 0x55 (w48 len.toNat) blk = true →
      cpUp s 1 = true →
      cpUp s 0 = true →
      s.get F.bootStat_STEP 0 = 9 →
      s.mc.failed = false →
      s.flag F.devId_TAIL 0 = false →
      s.flag F.devId_HEAD 0 = false →
      s.chain.wait = [] →
      laneFits s (segOut true) 0 false = true →
      Completes (.done len blk) s fun t => t.get F.devId_CHAIN_LEN 0 = len.toNat ∧ t.chain.ctl = s.chain.ctl ++ [⟨segOut true, 0x55, w48 len.toNat⟩] ∧ t = { s with regs := t.regs, chain := { s.chain with ctl := t.chain.ctl, carried := (s.chain.carried.filter fun e => decide (s.ticks < e.2.1 + 854)) ++ [(segOut true * 4 + 0, s.ticks, false)] } } ∧ RegsBut [F.devId_CHAIN_LEN] s t) ∧
  (∀ (len : BitVec 5) (blk : CtlIn) (s : State),
      s.fatal = false →
      ctlGood 0x55 (w48 len.toNat) blk = true →
      s.get F.bootStat_STEP 0 = 9 →
      s.mc.failed = false →
      s.flag F.devId_TAIL 0 = true →
      Completes (.done len blk) s fun t => t.get F.bootStat_ERROR 0 = 11 ∧ t.mc.failed = true ∧ t.get F.devId_CHAIN_LEN 0 = s.get F.devId_CHAIN_LEN 0 ∧ t.mem = s.mem ∧ t.pending = s.pending) ∧
  (∀ (len : BitVec 5) (blk : CtlIn) (s : State),
      ctlGood 0x55 (w48 len.toNat) blk = true →
      cpUp s 1 = true →
      s.get F.bootStat_STEP 0 ≠ 9 →
      exec (.done len blk) s = .next (s)) ∧
  (∀ (up : Bool) (pkg : Fin 16) (blk : CtlIn) (s : State),
      s.fatal = false →
      ctlGood 0x66 (w48 pkg) blk = true →
      cpUp s (sideOf up) = true →
      cpUp s (sideOf (!up)) = true →
      s.flt.wire.contains (pairKey 35 (loc 0 pkg)) = false →
      mfind s.flt.pairHeld (pairKey 35 (loc 0 pkg)) = none →
      s.chain.wait = [] →
      laneFits s (segOut (!up)) 0 false = true →
      exec (.fatal up pkg blk) s = .next ({ s with flt := { s.flt with queue := s.flt.queue ++ [⟨35, loc 0 pkg, 0, none, s.t, false⟩] }, chain := { s.chain with ctl := s.chain.ctl ++ [⟨segOut (!up), 0x66, w48 pkg.val⟩], carried := (s.chain.carried.filter fun e => decide (s.ticks < e.2.1 + 854)) ++ [(segOut (!up) * 4 + 0, s.ticks, false)] } }))

/-- The Mirror Port flips and answers, auxiliary pins switch and see edges, and JTAG selects and reads (R441–R448). -/
def Obligations.PinsMirrorAndJtag : Prop :=
  (∀  (s : State),
      s.fatal = false →
      s.flagB F.mpCtl_FLIP_EN 0 = true →
      0 ≤ sdiff s.t (w48 (s.get F.mpFlipT_T 0)) →
      Completes (.mirrorFlip) s fun t => (let w := writeFrame s; let n := (sdiff s.t (w48 (s.get F.mpFlipT_T 0))).toNat / s.get F.mpCtl_PER 0 + 1;
      t.get F.mpStat_FSEL 0 = w ∧ t.get F.mpStat_FLIPS 0 = (s.get F.mpStat_FLIPS 0 + 1) % 2 ^ F.mpStat_FLIPS.w ∧ t.get F.mpStat_SKIPS 0 = (s.get F.mpStat_SKIPS 0 + (n - 1)) % 2 ^ F.mpStat_SKIPS.w ∧
      t.get F.mpFlipT_T 0 = (w48 (s.get F.mpFlipT_T 0) + BitVec.ofNat 48 (n * s.get F.mpCtl_PER 0)).toNat ∧ (∀ i : Fin 1024, t.readSlot (mirrorAddr (1 - w) i) = s.readSlot (mirrorAddr w i)) ∧
      (∀ a, a < mirrorAddr (1 - w) 0 ∨ mirrorAddr (1 - w) 0 + 0x2000 ≤ a → t.readByte a = s.readByte a) ∧ t = { s with regs := t.regs, mem := t.mem, pcie := t.pcie }) ∧ RegsBut [F.mpStat_FSEL, F.mpStat_FLIPS, F.mpStat_SKIPS, F.mpFlipT_T, F.evCfg_COUNT, F.evCfg_PEND] s t) ∧
  (∀  (s : State),
      (s.flagB F.mpCtl_FLIP_EN 0 = false ∨ sdiff s.t (w48 (s.get F.mpFlipT_T 0)) < 0) →
      exec (.mirrorFlip) s = .next (s)) ∧
  (∀ (a : Fin 1024) (oe : Bool) (s : State),
      (Completes (.mirrorRead a oe) s fun t => t = { s with port := t.port } ∧ mpD t = if s.flagB F.mpCtl_EN 0 && oe then some (s.readSlot (mirrorAddr (s.get F.mpStat_FSEL 0) a)) else none)) ∧
  (∀ (k : Fin 32) (s : State),
      s.fatal = false →
      s.flag F.auxCfg_PENDING k = true →
      (s.aux k).written < s.ticks →
      Completes (.auxSwitch k) s fun t => t.get F.auxCfg_ACTIVE k = s.get F.auxCfg_FUNC k % 2 ^ F.auxCfg_ACTIVE.w ∧ t.get F.auxCfg_PENDING k = 0 ∧ (t.aux k).sel = s.get F.auxCfg_SEL k ∧ (t.aux k).ext = (s.aux k).ext ∧ (t.aux k).switched = s.ticks ∧ (t.aux k).written = (s.aux k).written ∧ t = { s with regs := t.regs, port := { s.port with aux := t.port.aux } } ∧ RegsBut [F.auxCfg_ACTIVE, F.auxCfg_PENDING] s t ∧ InstBut F.auxCfg_ACTIVE k s t ∧ (∀ j, j ≠ k.val → t.aux j = s.aux j)) ∧
  (∀ (k : Fin 32) (s : State),
      (s.flag F.auxCfg_PENDING k = false ∨ s.ticks ≤ (s.aux k).written) →
      exec (.auxSwitch k) s = .next (s)) ∧
  (∀ (k : Fin 32) (level : Bool) (s : State),
      s.fatal = false →
      (s.aux k).ext ≠ level →
      s.get F.auxCfg_ACTIVE k = fEvin →
      level ≠ decide (bits (s.aux k).sel 3 1 = 1) →
      exec (.evin k level false) s = .next (raiseEvent (504 + (s.aux k).sel % 8) (s.setAux k { s.aux k with ext := level }))) ∧
  (∀ (k : Fin 32) (level early : Bool) (s : State),
      ((s.aux k).ext = level ∨ s.get F.auxCfg_ACTIVE k ≠ fEvin ∨ s.fatal = true) →
      exec (.evin k level early) s = .next (s.setAux k { s.aux k with ext := level })) ∧
  (∀ (code : BitVec 8) (nreset : Bool) (s : State),
      s.fatal = false →
      (code = 0xFF ∨ code = 0x01 ∨ code = 0x02 ∨ code = 0x10) →
      exec (.jtagInstruction (.load code) nreset) s = .next ({ s with port := { s.port with jtag := code.toNat } })) ∧
  (∀ (code : BitVec 8) (s : State),
      code ≠ 0x01 →
      code ≠ 0x02 →
      code ≠ 0x10 →
      exec (.jtagInstruction (.load code) false) s = .next ({ s with port := { s.port with jtag := 0xFF } })) ∧
  (∀ (nreset : Bool) (s : State),
      exec (.jtagInstruction .reset nreset) s = .next ({ s with port := { s.port with jtag := 0x01 } })) ∧
  (∀ (cells : List (Pad × Option Bool)) (nreset : Bool) (s : State),
      s.port.jtag = 0x03 →
      Completes (.jtagInstruction (.boundary cells) nreset) s fun t => (∀ p, pad t p = (cells.find? fun x => x.1 = p).bind (·.2)) ∧ t = { s with port := { s.port with boundary := cells } }) ∧
  (∀ (v : BitVec 112) (err : Fin 4) (x : BitVec 64) (s : State),
      s.fatal = false →
      s.port.jtag = 0x10 →
      s.port.jtagReq = none →
      direct s (dbgAddr v) = true →
      dbgWriteBit v = false →
      (accRead jtagInit true (!dbgHalf v) err (localOf s (dbgAddr v)) { s with port := { s.port with dbgWord := v } }).1 = .ok x →
      Completes (.debug v err) s fun t => dbgData t.port.dbgWord = w48 x.toNat ∧ dbgAddr t.port.dbgWord = dbgAddr v ∧ bits t.port.dbgWord.toNat 104 8 = 0 ∧ t.port.jtagReq = none ∧ t.pending = s.pending) ∧
  (∀ (v : BitVec 112) (err : Fin 4) (s : State),
      s.port.jtag ≠ 0x10 →
      exec (.debug v err) s = .next (s))

/-- A register write follows the access codes, the lock rule and the reserved-encoding rule (R6–R9). -/
def Obligations.RegisterFieldsFollowTheirCodes : Prop :=
  (∀ (w : Wr) (f : Fld) (s : State), (f.acc = .ro ∨ f.acc = .wo ∨ f.acc = .rws ∨ w.touches f = false) → writeField w f s = s) ∧
  (∀ (w : Wr) (f : Fld) (s : State), w.touches f = true → f.acc = .rw ∨ f.acc = .rwl ∧ w.locked = false → isLock f = false → f.takes (w.at_ f) = true →
      writeField w f s = s.set f w.i (w.at_ f)) ∧
  (∀ (w : Wr) (f : Fld) (s : State), f.acc = .rw ∨ f.acc = .rwl → isLock f = false → f.takes (w.at_ f) = false → writeField w f s = s) ∧
  (∀ (w : Wr) (f : Fld) (s : State), f.acc = .rwl → w.locked = true → writeField w f s = s) ∧
  (∀ (w : Wr) (f : Fld) (s : State), isLock f = true → f.acc ≠ .w1c → 1 ≤ f.w → s.flag f w.i = true → (writeField w f s).flag f w.i = true) ∧
  (∀ (w : Wr) (f : Fld) (s : State), w.touches f = true → f.acc = .w1c → f.w = 1 → s.get f w.i ≤ 1 →
      (writeField w f s).get f w.i = if w.hit f then 0 else s.get f w.i) ∧
  (∀ (init : Nat) (priv full : Bool) (b : Blk) (d : RegDef) (w : Wr) (s : State), (regWrite init priv full b d w s).1 = false → (regWrite init priv full b d w s).2 = s) ∧
  (∀ (who : From) (a : BitVec 44) (v : BitVec 64) (b : Blk) (d : RegDef) (i : Nat) (s : State),
      s.fatal = false →
      placeOf a.toNat = some (.reg b d i) →
      a.toNat % 8 = 0 →
      exec (.registerWrite who false a v) s = .next ((regWrite who.1 who.2 true b d ⟨i, 2 ^ 64 - 1, v.toNat, v.toNat, blkLocked s b i⟩ s).2)) ∧
  (∀ (who : From) (v : BitVec 64) (s : State),
      s.fatal = false →
      exec (.registerWrite who false (BitVec.ofNat 44 (hubAddr 0x1000131318)) v) s = .next (s.set F.snapBase_OFFSET 0 (v.toNat % 2 ^ 20))) ∧
  (∀ (who : From) (half : Bool) (a : BitVec 44) (v : BitVec 64) (s : State),
      (a.toNat % 8 ≠ 0 ∧ half = false ∨ a.toNat % 4 ≠ 0 ∨ s.fatal = true) →
      exec (.registerWrite who half a v) s = .next (s)) ∧
  (∀ (who : From) (half : Bool) (a : BitVec 44) (v : BitVec 64) (s : State),
      placeOf a.toNat = none →
      exec (.registerWrite who half a v) s = .next (s))

/-- A step runs the command at the front of the queue on the state with the queue's rest; an empty queue idles (log 2). -/
def Obligations.StepTakesTheFront : Prop :=
  (∀ (c : Instr) (rest : List Instr) (s : State), step { s with pending := c :: rest } = exec c { s with pending := rest }) ∧
  (∀ s : State, s.pending = [] → step s = .next s)

/-- After reset every cluster is UNOWNED, every partition FREE, every bank without owner, and the invariants hold (R17, R120, R165, R302, R397). -/
def Obligations.ResetIsAsTheSpecLeavesIt : Prop :=
  State.reset.pending = [] ∧ State.reset.mem = [] ∧ MemSound State.reset ∧ Shape State.reset ∧ State.reset.fatal = false ∧
  (∀ c : Fin 128, State.reset.cState c = 0 ∧ State.reset.cOwner c = 15) ∧ (∀ i : Fin 2048, State.reset.get F.peStat_STOPPED i = 1) ∧
  (∀ p : Fin 8, State.reset.pState p = pFree) ∧ (∀ b : Fin 2048, State.reset.get F.bankOwn_OWNER b = 15) ∧
  State.reset.get F.bootStat_STEP 0 = 1 ∧ State.reset.get F.bootStat_ERROR 0 = 0 ∧
  (∀ (f : Fld) (i : Nat), mfind regsReset (f.key i) = none → State.reset.get f i = f.rst)

/-- Every step keeps the memory in its canonical form. -/
def Obligations.MemoryKeepsItsForm : Prop :=
  ∀ s t : State, MemSound s → step s = .next t → MemSound t

/-- Once taken, the fatal decision stands, unchanged, through every command but a loss of main power (R388, R390). -/
def Obligations.FatalEndsOnlyWithPower : Prop :=
  (∀ (c : Instr) (s t : State), s.fatal = true → c ≠ .powerOff → (∀ f r, c = .tAdvance f r → porAsserted r s = false) →
    exec c s = .next t → t.flt.decision = s.flt.decision ∧ t.fatal = true) ∧
  (∀ (f : Bool) (r : RailIn) (s t : State), s.fatal = true → porAsserted r s = true → exec (.tAdvance f r) s = .next t → t.fatal = false) ∧
  (∀ s t : State, exec .powerOff s = .next t → t.fatal = false)

/-- In the fatal state every command of a part that R389 does not keep running changes nothing. -/
def Obligations.FatalFreezesTheRest : Prop :=
  ∀ (c : Instr) (s : State), s.fatal = true → outlivesFatal c = false → exec c s = .next s

/-- No command touches the queue, only T_ADVANCE counts ticks, and T moves only by time events and resets (R47, R206, R395). -/
def Obligations.QueueAndTimeMoveOnlyAsSaid : Prop :=
  ∀ (c : Instr) (s t : State), exec c s = .next t → t.pending = s.pending ∧
    ((∀ f r, c ≠ .tAdvance f r) → t.ticks = s.ticks) ∧ (∀ f r, c = .tAdvance f r → t.ticks = s.ticks + 1) ∧
    ((∀ f r, c ≠ .tAdvance f r) → (∀ f r, c ≠ .ppsEdge f r) → (∀ b, c ≠ .coldReset b) → c ≠ .powerOff → t.t = s.t)

/-- Every step keeps the fixed sizes of the state. -/
def Obligations.SizesAreKept : Prop :=
  ∀ s t : State, Shape s → step s = .next t → Shape t

/-- CL_STATUS.STATE 6 and 7 are never reported (R17). -/
def Obligations.ClusterStatesStayLegal : Prop :=
  ∀ s t : State, (∀ c : Fin 128, s.cState c ≤ 5) → step s = .next t → ∀ c : Fin 128, t.cState c ≤ 5
end

