-- ==== Sys2Proof/Laws/Crc.lean ====
section
/-!
SUPPORT. Sys2Proof/Laws/Crc.lean: CRC-32 over zero bytes is linear over GF(2); the ICRC of an instruction store that is all zeros (R173, R175).
-/
namespace Sys2Proof.Machine
open Sys2Proof

/-- A list of images of the powers of two, applied to a number. -/
def gfApp : List Nat → Nat → Nat
  | [], _ => 0
  | m :: M, x => (if x % 2 = 1 then m else 0) ^^^ gfApp M (x / 2)

def gfSq (M : List Nat) : List Nat := M.map (gfApp M)
def gfPow : Nat → List Nat → List Nat
  | 0, M => M
  | n + 1, M => gfPow n (gfSq M)
def gfZero : List Nat := (List.range 32).map fun i => crcByte (2 ^ i) 0
theorem gf_value : gfApp (gfPow 19 gfZero) 0xFFFFFFFF ^^^ 0xFFFFFFFF = 1969621676 := by decide +kernel
def Lin (f : Nat → Nat) : Prop := ∀ a b, f (a ^^^ b) = f a ^^^ f b

theorem xor_half (a b : Nat) : (a ^^^ b) / 2 = a / 2 ^^^ b / 2 := by
  apply Nat.eq_of_testBit_eq; intro i; simp [Nat.testBit_xor, ← Nat.testBit_succ]

theorem crcBit_lin : Lin crcBit := by
  intro a b
  have h : ∀ c, crcBit c = c / 2 ^^^ (if c.testBit 0 then 0xEDB88320 else 0) := by
    intro c; simp only [crcBit, Nat.testBit_zero]; split <;> simp_all
  rw [h, h, h, xor_half, Nat.testBit_xor]
  have e : ∀ x y p : Nat, x ^^^ p ^^^ (y ^^^ p) = x ^^^ y := by
    intro x y p; rw [Nat.xor_assoc, Nat.xor_comm y p, ← Nat.xor_assoc p p y]; simp
  cases a.testBit 0 <;> cases b.testBit 0 <;> simp [e]
  · rw [Nat.xor_assoc]
  · rw [Nat.xor_assoc, Nat.xor_comm (b / 2), ← Nat.xor_assoc]

theorem lin_comp {f g : Nat → Nat} (hf : Lin f) (hg : Lin g) : Lin (f ∘ g) := by
  intro a b; simp only [Function.comp, hg a b]; exact hf _ _

theorem lin_zero {f : Nat → Nat} (hf : Lin f) : f 0 = 0 := by
  have := hf 0 0; simpa using this

def zbyte (c : Nat) : Nat := crcByte c 0

theorem zbyte_lin : Lin zbyte := by
  have h := crcBit_lin
  have h2 := lin_comp h h
  have h4 := lin_comp h2 h2
  have h8 := lin_comp h4 h4
  intro a b
  have := h8 a b
  simpa [zbyte, crcByte, Function.comp] using this

theorem lin_app (n : Nat) : ∀ (f : Nat → Nat), Lin f → ∀ x, x < 2 ^ n → f x = gfApp ((List.range n).map fun i => f (2 ^ i)) x := by
  induction n with
  | zero => intro f hf x hx; have : x = 0 := by omega
            subst this; simp [gfApp, lin_zero hf]
  | succ n ih =>
    intro f hf x hx
    have hx2 : x / 2 < 2 ^ n := by rw [Nat.pow_succ] at hx; omega
    have hd : ∀ a b : Nat, 2 * (a ^^^ b) = 2 * a ^^^ 2 * b := by
      intro a b; apply Nat.eq_of_testBit_eq; intro i
      cases i <;> simp [Nat.testBit_xor, Nat.testBit_succ, xor_half]
    have hl : Lin fun y => f (2 * y) := by intro a b; simp only [hd, hf (2 * a)]
    have hs : x = (x % 2) ^^^ 2 * (x / 2) := by
      apply Nat.eq_of_testBit_eq; intro i
      cases i with
      | zero => simp
      | succ i => simp [Nat.testBit_succ, xor_half]
    rw [List.range_succ_eq_map]
    simp only [List.map_cons, List.map_map, gfApp]
    have h := ih _ hl (x / 2) hx2
    conv => lhs; rw [hs, hf]
    rw [h]
    congr 1
    · rcases Nat.mod_two_eq_zero_or_one x with h | h <;> simp [h, lin_zero hf]
    · congr 1; apply List.map_congr_left; intro i _; simp [Function.comp, Nat.pow_succ, Nat.mul_comm]

theorem crcBit_lt (c : Nat) (h : c < 2 ^ 32) : crcBit c < 2 ^ 32 := by
  unfold crcBit; split
  · exact Nat.xor_lt_two_pow (by omega) (by decide)
  · omega

theorem zbyte_lt (c : Nat) (h : c < 2 ^ 32) : zbyte c < 2 ^ 32 := by
  unfold zbyte crcByte
  have : c ^^^ 0 = c := by simp
  rw [this]
  exact crcBit_lt _ (crcBit_lt _ (crcBit_lt _ (crcBit_lt _ (crcBit_lt _ (crcBit_lt _ (crcBit_lt _ (crcBit_lt _ h)))))))

/-- The table of a function: the images of the powers of two. -/
def gfTab (f : Nat → Nat) : List Nat := (List.range 32).map fun i => f (2 ^ i)

theorem gfSq_tab {f : Nat → Nat} (hf : Lin f) (hl : ∀ x, x < 2 ^ 32 → f x < 2 ^ 32) : gfSq (gfTab f) = gfTab (f ∘ f) := by
  unfold gfSq; simp only [gfTab, List.map_map]
  apply List.map_congr_left; intro i hi
  simp only [Function.comp]
  exact (lin_app 32 f hf _ (hl _ (Nat.pow_lt_pow_right (by decide) (by simpa using hi)))).symm

theorem gfPow_tab (n : Nat) : ∀ (f : Nat → Nat), Lin f → (∀ x, x < 2 ^ 32 → f x < 2 ^ 32) → gfPow n (gfTab f) = gfTab f^[2 ^ n] := by
  induction n with
  | zero => intro f _ _; simp [gfPow]
  | succ n ih =>
    intro f hf hl
    rw [gfPow, gfSq_tab hf hl, ih _ (lin_comp hf hf) (fun x hx => hl _ (hl _ hx))]
    congr 1
    have : f ∘ f = f^[2] := rfl
    rw [this, ← Function.iterate_mul, Nat.pow_succ, Nat.mul_comm]

theorem foldl_const {f : Nat → Nat} (n : Nat) : ∀ a, (List.range n).foldl (fun c _ => f c) a = f^[n] a := by
  induction n with
  | zero => intro a; rfl
  | succ n ih => intro a; rw [List.range_succ, List.foldl_append, ih, Function.iterate_succ_apply']; rfl

theorem foldl_congr_mem {f g : Nat → Nat → Nat} (l : List Nat) : ∀ a, (∀ c, ∀ i ∈ l, f c i = g c i) → l.foldl f a = l.foldl g a := by
  induction l with
  | nil => intro a _; rfl
  | cons x l ih =>
    intro a h
    rw [List.foldl_cons, List.foldl_cons, h a x (by simp), ih _ (fun c i hi => h c i (by simp [hi]))]

/-- The ICRC of an instruction store that is all zeros. -/
theorem icrc_zeros (s : State) (c : Nat) (h : ∀ i, i < 32768 * 16 → s.readByte (instrAddr c 0 + i) = 0) : icrc s c = 1969621676 := by
  have hz : ∀ a : Nat, (List.range (32768 * 16)).foldl (fun a i => crcByte a (s.readByte (instrAddr c 0 + i)).toNat) a = zbyte^[2 ^ 19] a := by
    intro a
    rw [show (2 : Nat) ^ 19 = 32768 * 16 from rfl, ← foldl_const]
    exact foldl_congr_mem _ _ fun c i hi => by rw [h i (List.mem_range.mp hi)]; rfl
  have hl : Lin zbyte^[2 ^ 19] := by
    generalize 2 ^ 19 = n
    induction n with
    | zero => intro a b; rfl
    | succ n ih => rw [Function.iterate_succ']; exact lin_comp zbyte_lin ih
  unfold icrc
  rw [hz, lin_app 32 _ hl 0xFFFFFFFF (by decide)]
  have := gfPow_tab 19 zbyte zbyte_lin zbyte_lt
  have e : gfTab zbyte = gfZero := rfl
  rw [e] at this
  unfold gfTab at this
  rw [← this]
  exact gf_value
end Sys2Proof.Machine
end

