-- ==== Sys2Proof/Laws/Maps.lean ====
section
/-!
SUPPORT. Sys2Proof/Laws/Maps.lean: reads after writes of the finite maps, and their canonical form.
-/
namespace Sys2Proof.Machine

variable {α : Type}

/-- A read at the key just written. -/
@[simp] theorem mfind_mput_same (m : List (Nat × α)) (x : Nat) (v : α) : mfind (mput m x v) x = some v := by
  induction m with
  | nil => simp [mput, mfind]
  | cons e m ih =>
    obtain ⟨k, w⟩ := e
    simp only [mput]
    split_ifs with h1 h2
    · simp [mfind]
    · simp [mfind]
    · have : k ≠ x := fun h => h2 h.symm
      simp [mfind, this, ih]

/-- A write leaves every other key. -/
theorem mfind_mput_ne (m : List (Nat × α)) {x y : Nat} (v : α) (h : x ≠ y) : mfind (mput m x v) y = mfind m y := by
  induction m with
  | nil => simp [mput, mfind, h]
  | cons e m ih =>
    obtain ⟨k, w⟩ := e
    simp only [mput]
    split_ifs with h1 h2
    · simp [mfind, h]
    · subst h2; simp [mfind, h]
    · simp only [mfind, ih]

/-- A read after a write. -/
theorem mfind_mput (m : List (Nat × α)) (x y : Nat) (v : α) : mfind (mput m x v) y = if x = y then some v else mfind m y := by
  split_ifs with h
  · subst h; simp
  · exact mfind_mput_ne m v h

/-- A read after a write, with a default. -/
theorem mget_mput (d : α) (m : List (Nat × α)) (x y : Nat) (v : α) :
    mget d (mput m x v) y = if x = y then v else mget d m y := by
  simp only [mget, mfind_mput]; split_ifs <;> rfl

@[simp] theorem mget_mput_same (d : α) (m : List (Nat × α)) (x : Nat) (v : α) : mget d (mput m x v) x = v := by
  simp [mget]

/-- Keys that rise from a bound lie at or above it. -/
theorem mfind_of_mrise (m : List (Nat × α)) (b x : Nat) (h : mrise b m = true) (hx : x < b) : mfind m x = none := by
  induction m generalizing b with
  | nil => rfl
  | cons e m ih =>
    obtain ⟨k, w⟩ := e
    simp only [mrise, Bool.and_eq_true, decide_eq_true_eq] at h
    have hk : k ≠ x := by omega
    simp only [mfind, hk, if_false]
    exact ih (k + 1) h.2 (by omega)

/-- Keys that rise from a bound rise from every lower one. -/
theorem mrise_mono (m : List (Nat × α)) (b c : Nat) (h : mrise b m = true) (hc : c ≤ b) : mrise c m = true := by
  cases m with
  | nil => rfl
  | cons e m =>
    obtain ⟨k, w⟩ := e
    simp only [mrise, Bool.and_eq_true, decide_eq_true_eq] at h ⊢
    exact ⟨by omega, h.2⟩

/-- A write keeps the keys rising. -/
theorem mrise_mput (m : List (Nat × α)) (b x : Nat) (v : α) (h : mrise b m = true) (hx : b ≤ x) :
    mrise b (mput m x v) = true := by
  induction m generalizing b with
  | nil => simp [mput, mrise, hx]
  | cons e m ih =>
    obtain ⟨k, w⟩ := e
    simp only [mrise, Bool.and_eq_true, decide_eq_true_eq] at h
    simp only [mput]
    split_ifs with h1 h2
    · simp only [mrise, Bool.and_eq_true, decide_eq_true_eq]
      exact ⟨hx, by omega, h.2⟩
    · subst h2; simp only [mrise, Bool.and_eq_true, decide_eq_true_eq]; exact ⟨hx, h.2⟩
    · simp only [mrise, Bool.and_eq_true, decide_eq_true_eq]
      exact ⟨h.1, ih (k + 1) h.2 (by omega)⟩

/-- Removing a key keeps the keys rising. -/
theorem mrise_mdel (m : List (Nat × α)) (b x : Nat) (h : mrise b m = true) : mrise b (mdel m x) = true := by
  induction m generalizing b with
  | nil => rfl
  | cons e m ih =>
    obtain ⟨k, w⟩ := e
    simp only [mrise, Bool.and_eq_true, decide_eq_true_eq] at h
    simp only [mdel]
    split_ifs with h1
    · exact ih b (mrise_mono m (k + 1) b h.2 (by omega))
    · simp only [mrise, Bool.and_eq_true, decide_eq_true_eq]; exact ⟨h.1, ih (k + 1) h.2⟩

/-- A removed key reads as unlisted, and every other key as before. -/
theorem mfind_mdel (m : List (Nat × α)) (x y : Nat) : mfind (mdel m x) y = if x = y then none else mfind m y := by
  induction m with
  | nil => simp [mdel, mfind]
  | cons e m ih =>
    obtain ⟨k, w⟩ := e
    by_cases h1 : k = x <;> by_cases h2 : x = y <;> by_cases h3 : k = y <;> simp_all [mdel, mfind]

/-- The entries after a write are old ones or the one written. -/
theorem all_mput (p : Nat × α → Bool) (m : List (Nat × α)) (x : Nat) (v : α) (h : m.all p = true) (hv : p (x, v) = true) :
    (mput m x v).all p = true := by
  induction m with
  | nil => simp [mput, hv]
  | cons e m ih =>
    obtain ⟨k, w⟩ := e
    simp only [List.all_cons, Bool.and_eq_true] at h
    simp only [mput]
    split_ifs with h1 h2
    · simp only [List.all_cons, Bool.and_eq_true]; exact ⟨hv, h⟩
    · simp only [List.all_cons, Bool.and_eq_true]; exact ⟨hv, h.2⟩
    · simp only [List.all_cons, Bool.and_eq_true]; exact ⟨h.1, ih h.2⟩

/-- The entries after a removal are old ones. -/
theorem all_mdel (p : Nat × α → Bool) (m : List (Nat × α)) (x : Nat) (h : m.all p = true) : (mdel m x).all p = true := by
  induction m with
  | nil => rfl
  | cons e m ih =>
    obtain ⟨k, w⟩ := e
    simp only [List.all_cons, Bool.and_eq_true] at h
    simp only [mdel]
    split_ifs with h1
    · exact ih h.2
    · simp only [List.all_cons, Bool.and_eq_true]; exact ⟨h.1, ih h.2⟩

variable [DecidableEq α]

/-- A canonical write keeps the canonical form. -/
theorem mwf_mset (d : α) (m : List (Nat × α)) (x : Nat) (v : α) (h : mwf d m = true) : mwf d (mset d m x v) = true := by
  simp only [mwf, Bool.and_eq_true] at h ⊢
  simp only [mset]
  split_ifs with hv
  · exact ⟨mrise_mdel m 0 x h.1, all_mdel _ m x h.2⟩
  · exact ⟨mrise_mput m 0 x v h.1 (Nat.zero_le x), all_mput _ m x v h.2 (by simpa using hv)⟩

/-- A read after a write. -/
theorem mget_mset (d : α) (m : List (Nat × α)) (x y : Nat) (v : α) : mget d (mset d m x v) y = if x = y then v else mget d m y := by
  simp only [mset, mget]
  split_ifs with hv hy hy
  · subst hv; subst hy; rw [mfind_mdel]; simp
  · rw [mfind_mdel]; simp [hy]
  · subst hy; simp
  · rw [mfind_mput_ne m v hy]

/-- Two canonical maps that read alike are equal. -/
theorem mwf_ext_aux (d : α) (m n : List (Nat × α)) (b : Nat) (hm : mrise b m = true) (hn : mrise b n = true)
    (hm' : m.all (fun e => decide (e.2 ≠ d)) = true) (hn' : n.all (fun e => decide (e.2 ≠ d)) = true)
    (h : ∀ x, mget d m x = mget d n x) : m = n := by
  induction m generalizing n b with
  | nil =>
    cases n with
    | nil => rfl
    | cons e n =>
      obtain ⟨k, w⟩ := e
      simp only [List.all_cons, Bool.and_eq_true, decide_eq_true_eq] at hn'
      have := h k
      simp [mget, mfind] at this
      exact absurd this.symm hn'.1
  | cons e m ih =>
    obtain ⟨k, w⟩ := e
    simp only [List.all_cons, Bool.and_eq_true, decide_eq_true_eq] at hm'
    simp only [mrise, Bool.and_eq_true, decide_eq_true_eq] at hm
    cases n with
    | nil =>
      have := h k
      simp [mget, mfind] at this
      exact absurd this hm'.1
    | cons e' n =>
      obtain ⟨k', w'⟩ := e'
      simp only [List.all_cons, Bool.and_eq_true, decide_eq_true_eq] at hn'
      simp only [mrise, Bool.and_eq_true, decide_eq_true_eq] at hn
      have hk : k = k' := by
        rcases Nat.lt_trichotomy k k' with hlt | heq | hgt
        · have := h k
          have e1 : mfind n k = none := mfind_of_mrise n (k' + 1) k hn.2 (by omega)
          have e2 : k' ≠ k := by omega
          simp [mget, mfind, e1, e2] at this
          exact absurd this hm'.1
        · exact heq
        · have := h k'
          have e1 : mfind m k' = none := mfind_of_mrise m (k + 1) k' hm.2 (by omega)
          have e2 : k ≠ k' := by omega
          simp [mget, mfind, e1, e2] at this
          exact absurd this.symm hn'.1
      subst hk
      have hw : w = w' := by
        have := h k
        simpa [mget, mfind] using this
      subst hw
      have : m = n := by
        apply ih n (k + 1) hm.2 hn.2 hm'.2 hn'.2
        intro x
        rcases Nat.lt_or_ge x (k + 1) with hx | hx
        · simp [mget, mfind_of_mrise m (k + 1) x hm.2 hx, mfind_of_mrise n (k + 1) x hn.2 hx]
        · have := h x
          have e2 : k ≠ x := by omega
          simpa [mget, mfind, e2] using this
      subst this; rfl

theorem mwf_ext (d : α) (m n : List (Nat × α)) (hm : mwf d m = true) (hn : mwf d n = true)
    (h : ∀ x, mget d m x = mget d n x) : m = n := by
  simp only [mwf, Bool.and_eq_true] at hm hn
  exact mwf_ext_aux d m n 0 hm.1 hn.1 hm.2 hn.2 h

end Sys2Proof.Machine
end

