-- ==== Sys2Proof/Laws/State.lean ====
section
/-!
SUPPORT. Sys2Proof/Laws/State.lean: register fields read after they are set, what each small operation leaves as it was, and the canonical
form of memory under every memory operation.
-/
namespace Sys2Proof.Machine
open Sys2Proof

/-! ### Register fields -/

/-- Two field instances share a key only when they are the same instance. -/
theorem Fld.key_eq (f g : Fld) (i j : Nat) : f.key i = g.key j ↔ f.id = g.id ∧ i = j := by
  simp [Fld.key, Nat.pair_eq_pair]

/-- A field reads as it was set, cut to its width. -/
@[simp] theorem State.get_set_same (s : State) (f : Fld) (i v : Nat) : (s.set f i v).get f i = v % 2 ^ f.w := by
  simp [State.get, State.set]

/-- Setting a field leaves every other field. -/
theorem State.get_set_ne (s : State) (f g : Fld) (i j v : Nat) (h : f.id ≠ g.id) : (s.set f i v).get g j = s.get g j := by
  have : f.key i ≠ g.key j := fun e => h ((Fld.key_eq f g i j).1 e).1
  simp [State.get, State.set, mget, mfind_mput_ne _ _ this]

/-- Setting an instance leaves every other instance. -/
theorem State.get_set_idx (s : State) (f g : Fld) (i j v : Nat) (h : i ≠ j) : (s.set f i v).get g j = s.get g j := by
  have : f.key i ≠ g.key j := fun e => h ((Fld.key_eq f g i j).1 e).2
  simp [State.get, State.set, mget, mfind_mput_ne _ _ this]

/-- A field after another is set. -/
theorem State.get_set (s : State) (f g : Fld) (i j v : Nat) (hw : f.id = g.id → f = g) :
    (s.set f i v).get g j = if f.id = g.id ∧ i = j then v % 2 ^ f.w else s.get g j := by
  split_ifs with h
  · obtain ⟨h1, h2⟩ := h; subst h2; rw [← hw h1]; simp
  · rcases Classical.em (f.id = g.id) with h1 | h1
    · exact State.get_set_idx s f g i j v fun e => h ⟨h1, e⟩
    · exact State.get_set_ne s f g i j v h1

/-- A flag as it was set. -/
@[simp] theorem State.flag_set_same (s : State) (f : Fld) (i v : Nat) : (s.set f i v).flag f i = decide (v % 2 ^ f.w ≠ 0) := by
  simp [State.flag]

theorem State.flag_set_ne (s : State) (f g : Fld) (i j v : Nat) (h : f.id ≠ g.id) : (s.set f i v).flag g j = s.flag g j := by
  simp [State.flag, State.get_set_ne s f g i j v h]

theorem State.flag_set_idx (s : State) (f g : Fld) (i j v : Nat) (h : i ≠ j) : (s.set f i v).flag g j = s.flag g j := by
  simp [State.flag, State.get_set_idx s f g i j v h]

/-- A counter after it is incremented. -/
@[simp] theorem State.get_inc_same (s : State) (f : Fld) (i : Nat) : (s.inc f i).get f i = (s.get f i + 1) % 2 ^ f.w := by
  simp [State.inc]

theorem State.get_inc_ne (s : State) (f g : Fld) (i j : Nat) (h : f.id ≠ g.id) : (s.inc f i).get g j = s.get g j := by
  simp [State.inc, State.get_set_ne s f g i j _ h]

theorem State.flag_inc_ne (s : State) (f g : Fld) (i j : Nat) (h : f.id ≠ g.id) : (s.inc f i).flag g j = s.flag g j := by
  simp [State.flag, State.get_inc_ne s f g i j h]

/-- A register field reads from the register map alone. -/
theorem State.get_congr (s t : State) (f : Fld) (i : Nat) (h : s.regs = t.regs) : s.get f i = t.get f i := by
  simp [State.get, h]

theorem State.flag_congr (s t : State) (f : Fld) (i : Nat) (h : s.regs = t.regs) : s.flag f i = t.flag f i := by
  unfold State.flag; rw [State.get_congr s t f i h]

/-! ### What setting a register field leaves -/

@[simp] theorem State.set_pending (s : State) (f : Fld) (i v : Nat) : (s.set f i v).pending = s.pending := rfl
@[simp] theorem State.inc_pending (s : State) (f : Fld) (i : Nat) : (s.inc f i).pending = s.pending := rfl
@[simp] theorem State.set_mem (s : State) (f : Fld) (i v : Nat) : (s.set f i v).mem = s.mem := rfl
@[simp] theorem State.inc_mem (s : State) (f : Fld) (i : Nat) : (s.inc f i).mem = s.mem := rfl
@[simp] theorem State.set_t (s : State) (f : Fld) (i v : Nat) : (s.set f i v).t = s.t := rfl
@[simp] theorem State.inc_t (s : State) (f : Fld) (i : Nat) : (s.inc f i).t = s.t := rfl
@[simp] theorem State.set_era (s : State) (f : Fld) (i v : Nat) : (s.set f i v).era = s.era := rfl
@[simp] theorem State.inc_era (s : State) (f : Fld) (i : Nat) : (s.inc f i).era = s.era := rfl
@[simp] theorem State.set_ticks (s : State) (f : Fld) (i v : Nat) : (s.set f i v).ticks = s.ticks := rfl
@[simp] theorem State.inc_ticks (s : State) (f : Fld) (i : Nat) : (s.inc f i).ticks = s.ticks := rfl
@[simp] theorem State.set_free (s : State) (f : Fld) (i v : Nat) : (s.set f i v).free = s.free := rfl
@[simp] theorem State.inc_free (s : State) (f : Fld) (i : Nat) : (s.inc f i).free = s.free := rfl
@[simp] theorem State.set_net (s : State) (f : Fld) (i v : Nat) : (s.set f i v).net = s.net := rfl
@[simp] theorem State.inc_net (s : State) (f : Fld) (i : Nat) : (s.inc f i).net = s.net := rfl
@[simp] theorem State.set_bank (s : State) (f : Fld) (i v : Nat) : (s.set f i v).bank = s.bank := rfl
@[simp] theorem State.inc_bank (s : State) (f : Fld) (i : Nat) : (s.inc f i).bank = s.bank := rfl
@[simp] theorem State.set_sched (s : State) (f : Fld) (i v : Nat) : (s.set f i v).sched = s.sched := rfl
@[simp] theorem State.inc_sched (s : State) (f : Fld) (i : Nat) : (s.inc f i).sched = s.sched := rfl
@[simp] theorem State.set_out (s : State) (f : Fld) (i v : Nat) : (s.set f i v).out = s.out := rfl
@[simp] theorem State.inc_out (s : State) (f : Fld) (i : Nat) : (s.inc f i).out = s.out := rfl
@[simp] theorem State.set_flt (s : State) (f : Fld) (i v : Nat) : (s.set f i v).flt = s.flt := rfl
@[simp] theorem State.inc_flt (s : State) (f : Fld) (i : Nat) : (s.inc f i).flt = s.flt := rfl
@[simp] theorem State.set_cl (s : State) (f : Fld) (i v : Nat) : (s.set f i v).cl = s.cl := rfl
@[simp] theorem State.inc_cl (s : State) (f : Fld) (i : Nat) : (s.inc f i).cl = s.cl := rfl
@[simp] theorem State.set_staged (s : State) (f : Fld) (i v : Nat) : (s.set f i v).staged = s.staged := rfl
@[simp] theorem State.inc_staged (s : State) (f : Fld) (i : Nat) : (s.inc f i).staged = s.staged := rfl
@[simp] theorem State.set_pcie (s : State) (f : Fld) (i v : Nat) : (s.set f i v).pcie = s.pcie := rfl
@[simp] theorem State.inc_pcie (s : State) (f : Fld) (i : Nat) : (s.inc f i).pcie = s.pcie := rfl
@[simp] theorem State.set_ap (s : State) (f : Fld) (i v : Nat) : (s.set f i v).ap = s.ap := rfl
@[simp] theorem State.inc_ap (s : State) (f : Fld) (i : Nat) : (s.inc f i).ap = s.ap := rfl
@[simp] theorem State.set_mc (s : State) (f : Fld) (i v : Nat) : (s.set f i v).mc = s.mc := rfl
@[simp] theorem State.inc_mc (s : State) (f : Fld) (i : Nat) : (s.inc f i).mc = s.mc := rfl
@[simp] theorem State.set_lens (s : State) (f : Fld) (i v : Nat) : (s.set f i v).lens = s.lens := rfl
@[simp] theorem State.inc_lens (s : State) (f : Fld) (i : Nat) : (s.inc f i).lens = s.lens := rfl
@[simp] theorem State.set_chain (s : State) (f : Fld) (i v : Nat) : (s.set f i v).chain = s.chain := rfl
@[simp] theorem State.inc_chain (s : State) (f : Fld) (i : Nat) : (s.inc f i).chain = s.chain := rfl
@[simp] theorem State.set_sc (s : State) (f : Fld) (i v : Nat) : (s.set f i v).sc = s.sc := rfl
@[simp] theorem State.inc_sc (s : State) (f : Fld) (i : Nat) : (s.inc f i).sc = s.sc := rfl
@[simp] theorem State.set_cc (s : State) (f : Fld) (i v : Nat) : (s.set f i v).cc = s.cc := rfl
@[simp] theorem State.inc_cc (s : State) (f : Fld) (i : Nat) : (s.inc f i).cc = s.cc := rfl
@[simp] theorem State.set_port (s : State) (f : Fld) (i v : Nat) : (s.set f i v).port = s.port := rfl
@[simp] theorem State.inc_port (s : State) (f : Fld) (i : Nat) : (s.inc f i).port = s.port := rfl
@[simp] theorem State.set_pwr (s : State) (f : Fld) (i v : Nat) : (s.set f i v).pwr = s.pwr := rfl
@[simp] theorem State.inc_pwr (s : State) (f : Fld) (i : Nat) : (s.inc f i).pwr = s.pwr := rfl
@[simp] theorem State.set_old (s : State) (f : Fld) (i v : Nat) : (s.set f i v).old = s.old := rfl
@[simp] theorem State.inc_old (s : State) (f : Fld) (i : Nat) : (s.inc f i).old = s.old := rfl

@[simp] theorem State.setFree_pending (s : State) (f : Fld) (i : Nat) : (s.setFree f i).pending = s.pending := rfl
@[simp] theorem State.setFree_mem (s : State) (f : Fld) (i : Nat) : (s.setFree f i).mem = s.mem := rfl
@[simp] theorem State.setFree_t (s : State) (f : Fld) (i : Nat) : (s.setFree f i).t = s.t := rfl
@[simp] theorem State.setFree_era (s : State) (f : Fld) (i : Nat) : (s.setFree f i).era = s.era := rfl
@[simp] theorem State.setFree_ticks (s : State) (f : Fld) (i : Nat) : (s.setFree f i).ticks = s.ticks := rfl
@[simp] theorem State.setFree_net (s : State) (f : Fld) (i : Nat) : (s.setFree f i).net = s.net := rfl
@[simp] theorem State.setFree_bank (s : State) (f : Fld) (i : Nat) : (s.setFree f i).bank = s.bank := rfl
@[simp] theorem State.setFree_sched (s : State) (f : Fld) (i : Nat) : (s.setFree f i).sched = s.sched := rfl
@[simp] theorem State.setFree_out (s : State) (f : Fld) (i : Nat) : (s.setFree f i).out = s.out := rfl
@[simp] theorem State.setFree_flt (s : State) (f : Fld) (i : Nat) : (s.setFree f i).flt = s.flt := rfl
@[simp] theorem State.setFree_cl (s : State) (f : Fld) (i : Nat) : (s.setFree f i).cl = s.cl := rfl
@[simp] theorem State.setFree_staged (s : State) (f : Fld) (i : Nat) : (s.setFree f i).staged = s.staged := rfl
@[simp] theorem State.setFree_pcie (s : State) (f : Fld) (i : Nat) : (s.setFree f i).pcie = s.pcie := rfl
@[simp] theorem State.setFree_ap (s : State) (f : Fld) (i : Nat) : (s.setFree f i).ap = s.ap := rfl
@[simp] theorem State.setFree_mc (s : State) (f : Fld) (i : Nat) : (s.setFree f i).mc = s.mc := rfl
@[simp] theorem State.setFree_lens (s : State) (f : Fld) (i : Nat) : (s.setFree f i).lens = s.lens := rfl
@[simp] theorem State.setFree_chain (s : State) (f : Fld) (i : Nat) : (s.setFree f i).chain = s.chain := rfl
@[simp] theorem State.setFree_sc (s : State) (f : Fld) (i : Nat) : (s.setFree f i).sc = s.sc := rfl
@[simp] theorem State.setFree_cc (s : State) (f : Fld) (i : Nat) : (s.setFree f i).cc = s.cc := rfl
@[simp] theorem State.setFree_port (s : State) (f : Fld) (i : Nat) : (s.setFree f i).port = s.port := rfl
@[simp] theorem State.setFree_pwr (s : State) (f : Fld) (i : Nat) : (s.setFree f i).pwr = s.pwr := rfl
@[simp] theorem State.setFree_old (s : State) (f : Fld) (i : Nat) : (s.setFree f i).old = s.old := rfl
@[simp] theorem State.setOr_pending (s : State) (f : Fld) (i : Nat) (v : Option Nat) : (s.setOr f i v).pending = s.pending := by cases v <;> rfl
@[simp] theorem State.setOr_mem (s : State) (f : Fld) (i : Nat) (v : Option Nat) : (s.setOr f i v).mem = s.mem := by cases v <;> rfl
@[simp] theorem State.setOr_t (s : State) (f : Fld) (i : Nat) (v : Option Nat) : (s.setOr f i v).t = s.t := by cases v <;> rfl
@[simp] theorem State.setOr_era (s : State) (f : Fld) (i : Nat) (v : Option Nat) : (s.setOr f i v).era = s.era := by cases v <;> rfl
@[simp] theorem State.setOr_ticks (s : State) (f : Fld) (i : Nat) (v : Option Nat) : (s.setOr f i v).ticks = s.ticks := by cases v <;> rfl
@[simp] theorem State.setOr_net (s : State) (f : Fld) (i : Nat) (v : Option Nat) : (s.setOr f i v).net = s.net := by cases v <;> rfl
@[simp] theorem State.setOr_bank (s : State) (f : Fld) (i : Nat) (v : Option Nat) : (s.setOr f i v).bank = s.bank := by cases v <;> rfl
@[simp] theorem State.setOr_sched (s : State) (f : Fld) (i : Nat) (v : Option Nat) : (s.setOr f i v).sched = s.sched := by cases v <;> rfl
@[simp] theorem State.setOr_out (s : State) (f : Fld) (i : Nat) (v : Option Nat) : (s.setOr f i v).out = s.out := by cases v <;> rfl
@[simp] theorem State.setOr_flt (s : State) (f : Fld) (i : Nat) (v : Option Nat) : (s.setOr f i v).flt = s.flt := by cases v <;> rfl
@[simp] theorem State.setOr_cl (s : State) (f : Fld) (i : Nat) (v : Option Nat) : (s.setOr f i v).cl = s.cl := by cases v <;> rfl
@[simp] theorem State.setOr_staged (s : State) (f : Fld) (i : Nat) (v : Option Nat) : (s.setOr f i v).staged = s.staged := by cases v <;> rfl
@[simp] theorem State.setOr_pcie (s : State) (f : Fld) (i : Nat) (v : Option Nat) : (s.setOr f i v).pcie = s.pcie := by cases v <;> rfl
@[simp] theorem State.setOr_ap (s : State) (f : Fld) (i : Nat) (v : Option Nat) : (s.setOr f i v).ap = s.ap := by cases v <;> rfl
@[simp] theorem State.setOr_mc (s : State) (f : Fld) (i : Nat) (v : Option Nat) : (s.setOr f i v).mc = s.mc := by cases v <;> rfl
@[simp] theorem State.setOr_lens (s : State) (f : Fld) (i : Nat) (v : Option Nat) : (s.setOr f i v).lens = s.lens := by cases v <;> rfl
@[simp] theorem State.setOr_chain (s : State) (f : Fld) (i : Nat) (v : Option Nat) : (s.setOr f i v).chain = s.chain := by cases v <;> rfl
@[simp] theorem State.setOr_sc (s : State) (f : Fld) (i : Nat) (v : Option Nat) : (s.setOr f i v).sc = s.sc := by cases v <;> rfl
@[simp] theorem State.setOr_cc (s : State) (f : Fld) (i : Nat) (v : Option Nat) : (s.setOr f i v).cc = s.cc := by cases v <;> rfl
@[simp] theorem State.setOr_port (s : State) (f : Fld) (i : Nat) (v : Option Nat) : (s.setOr f i v).port = s.port := by cases v <;> rfl
@[simp] theorem State.setOr_pwr (s : State) (f : Fld) (i : Nat) (v : Option Nat) : (s.setOr f i v).pwr = s.pwr := by cases v <;> rfl
@[simp] theorem State.setOr_old (s : State) (f : Fld) (i : Nat) (v : Option Nat) : (s.setOr f i v).old = s.old := by cases v <;> rfl

/-- A field that saturates changes the register map alone. -/
theorem State.incSat_cases (s : State) (f : Fld) (i n : Nat) : s.incSat f i n = s ∨ s.incSat f i n = s.set f i (s.get f i + 1) := by
  simp only [State.incSat]; split_ifs <;> simp

@[simp] theorem State.incSat_pending (s : State) (f : Fld) (i n : Nat) : (s.incSat f i n).pending = s.pending := by simp only [State.incSat]; split_ifs <;> rfl
@[simp] theorem State.incSat_mem (s : State) (f : Fld) (i n : Nat) : (s.incSat f i n).mem = s.mem := by simp only [State.incSat]; split_ifs <;> rfl
@[simp] theorem State.incSat_t (s : State) (f : Fld) (i n : Nat) : (s.incSat f i n).t = s.t := by simp only [State.incSat]; split_ifs <;> rfl
@[simp] theorem State.incSat_era (s : State) (f : Fld) (i n : Nat) : (s.incSat f i n).era = s.era := by simp only [State.incSat]; split_ifs <;> rfl
@[simp] theorem State.incSat_ticks (s : State) (f : Fld) (i n : Nat) : (s.incSat f i n).ticks = s.ticks := by simp only [State.incSat]; split_ifs <;> rfl
@[simp] theorem State.incSat_free (s : State) (f : Fld) (i n : Nat) : (s.incSat f i n).free = s.free := by simp only [State.incSat]; split_ifs <;> rfl
@[simp] theorem State.incSat_net (s : State) (f : Fld) (i n : Nat) : (s.incSat f i n).net = s.net := by simp only [State.incSat]; split_ifs <;> rfl
@[simp] theorem State.incSat_bank (s : State) (f : Fld) (i n : Nat) : (s.incSat f i n).bank = s.bank := by simp only [State.incSat]; split_ifs <;> rfl
@[simp] theorem State.incSat_sched (s : State) (f : Fld) (i n : Nat) : (s.incSat f i n).sched = s.sched := by simp only [State.incSat]; split_ifs <;> rfl
@[simp] theorem State.incSat_out (s : State) (f : Fld) (i n : Nat) : (s.incSat f i n).out = s.out := by simp only [State.incSat]; split_ifs <;> rfl
@[simp] theorem State.incSat_flt (s : State) (f : Fld) (i n : Nat) : (s.incSat f i n).flt = s.flt := by simp only [State.incSat]; split_ifs <;> rfl
@[simp] theorem State.incSat_cl (s : State) (f : Fld) (i n : Nat) : (s.incSat f i n).cl = s.cl := by simp only [State.incSat]; split_ifs <;> rfl
@[simp] theorem State.incSat_staged (s : State) (f : Fld) (i n : Nat) : (s.incSat f i n).staged = s.staged := by simp only [State.incSat]; split_ifs <;> rfl
@[simp] theorem State.incSat_pcie (s : State) (f : Fld) (i n : Nat) : (s.incSat f i n).pcie = s.pcie := by simp only [State.incSat]; split_ifs <;> rfl
@[simp] theorem State.incSat_ap (s : State) (f : Fld) (i n : Nat) : (s.incSat f i n).ap = s.ap := by simp only [State.incSat]; split_ifs <;> rfl
@[simp] theorem State.incSat_mc (s : State) (f : Fld) (i n : Nat) : (s.incSat f i n).mc = s.mc := by simp only [State.incSat]; split_ifs <;> rfl
@[simp] theorem State.incSat_lens (s : State) (f : Fld) (i n : Nat) : (s.incSat f i n).lens = s.lens := by simp only [State.incSat]; split_ifs <;> rfl
@[simp] theorem State.incSat_chain (s : State) (f : Fld) (i n : Nat) : (s.incSat f i n).chain = s.chain := by simp only [State.incSat]; split_ifs <;> rfl
@[simp] theorem State.incSat_sc (s : State) (f : Fld) (i n : Nat) : (s.incSat f i n).sc = s.sc := by simp only [State.incSat]; split_ifs <;> rfl
@[simp] theorem State.incSat_cc (s : State) (f : Fld) (i n : Nat) : (s.incSat f i n).cc = s.cc := by simp only [State.incSat]; split_ifs <;> rfl
@[simp] theorem State.incSat_port (s : State) (f : Fld) (i n : Nat) : (s.incSat f i n).port = s.port := by simp only [State.incSat]; split_ifs <;> rfl
@[simp] theorem State.incSat_pwr (s : State) (f : Fld) (i n : Nat) : (s.incSat f i n).pwr = s.pwr := by simp only [State.incSat]; split_ifs <;> rfl
@[simp] theorem State.incSat_old (s : State) (f : Fld) (i n : Nat) : (s.incSat f i n).old = s.old := by simp only [State.incSat]; split_ifs <;> rfl

@[simp] theorem State.set_fatal (s : State) (f : Fld) (i v : Nat) : (s.set f i v).fatal = s.fatal := rfl
@[simp] theorem State.inc_fatal (s : State) (f : Fld) (i : Nat) : (s.inc f i).fatal = s.fatal := rfl

/-! ### Memory -/


@[simp] theorem State.writeByte_pending (s : State) (a : Nat) (v : BitVec 8) : (s.writeByte a v).pending = s.pending := rfl
@[simp] theorem State.writeByte_regs (s : State) (a : Nat) (v : BitVec 8) : (s.writeByte a v).regs = s.regs := rfl
@[simp] theorem State.writeByte_t (s : State) (a : Nat) (v : BitVec 8) : (s.writeByte a v).t = s.t := rfl
@[simp] theorem State.writeByte_era (s : State) (a : Nat) (v : BitVec 8) : (s.writeByte a v).era = s.era := rfl
@[simp] theorem State.writeByte_ticks (s : State) (a : Nat) (v : BitVec 8) : (s.writeByte a v).ticks = s.ticks := rfl
@[simp] theorem State.writeByte_free (s : State) (a : Nat) (v : BitVec 8) : (s.writeByte a v).free = s.free := rfl
@[simp] theorem State.writeByte_net (s : State) (a : Nat) (v : BitVec 8) : (s.writeByte a v).net = s.net := rfl
@[simp] theorem State.writeByte_bank (s : State) (a : Nat) (v : BitVec 8) : (s.writeByte a v).bank = s.bank := rfl
@[simp] theorem State.writeByte_sched (s : State) (a : Nat) (v : BitVec 8) : (s.writeByte a v).sched = s.sched := rfl
@[simp] theorem State.writeByte_out (s : State) (a : Nat) (v : BitVec 8) : (s.writeByte a v).out = s.out := rfl
@[simp] theorem State.writeByte_flt (s : State) (a : Nat) (v : BitVec 8) : (s.writeByte a v).flt = s.flt := rfl
@[simp] theorem State.writeByte_cl (s : State) (a : Nat) (v : BitVec 8) : (s.writeByte a v).cl = s.cl := rfl
@[simp] theorem State.writeByte_staged (s : State) (a : Nat) (v : BitVec 8) : (s.writeByte a v).staged = s.staged := rfl
@[simp] theorem State.writeByte_pcie (s : State) (a : Nat) (v : BitVec 8) : (s.writeByte a v).pcie = s.pcie := rfl
@[simp] theorem State.writeByte_ap (s : State) (a : Nat) (v : BitVec 8) : (s.writeByte a v).ap = s.ap := rfl
@[simp] theorem State.writeByte_mc (s : State) (a : Nat) (v : BitVec 8) : (s.writeByte a v).mc = s.mc := rfl
@[simp] theorem State.writeByte_lens (s : State) (a : Nat) (v : BitVec 8) : (s.writeByte a v).lens = s.lens := rfl
@[simp] theorem State.writeByte_chain (s : State) (a : Nat) (v : BitVec 8) : (s.writeByte a v).chain = s.chain := rfl
@[simp] theorem State.writeByte_sc (s : State) (a : Nat) (v : BitVec 8) : (s.writeByte a v).sc = s.sc := rfl
@[simp] theorem State.writeByte_cc (s : State) (a : Nat) (v : BitVec 8) : (s.writeByte a v).cc = s.cc := rfl
@[simp] theorem State.writeByte_port (s : State) (a : Nat) (v : BitVec 8) : (s.writeByte a v).port = s.port := rfl
@[simp] theorem State.writeByte_pwr (s : State) (a : Nat) (v : BitVec 8) : (s.writeByte a v).pwr = s.pwr := rfl
@[simp] theorem State.writeByte_old (s : State) (a : Nat) (v : BitVec 8) : (s.writeByte a v).old = s.old := rfl
@[simp] theorem State.writeN_pending (s : State) (a v n : Nat) : (s.writeN a v n).pending = s.pending := by
  induction n generalizing s a v with
  | zero => rfl
  | succ n ih => simp [State.writeN, ih]
@[simp] theorem State.writeN_regs (s : State) (a v n : Nat) : (s.writeN a v n).regs = s.regs := by
  induction n generalizing s a v with
  | zero => rfl
  | succ n ih => simp [State.writeN, ih]
@[simp] theorem State.writeN_t (s : State) (a v n : Nat) : (s.writeN a v n).t = s.t := by
  induction n generalizing s a v with
  | zero => rfl
  | succ n ih => simp [State.writeN, ih]
@[simp] theorem State.writeN_era (s : State) (a v n : Nat) : (s.writeN a v n).era = s.era := by
  induction n generalizing s a v with
  | zero => rfl
  | succ n ih => simp [State.writeN, ih]
@[simp] theorem State.writeN_ticks (s : State) (a v n : Nat) : (s.writeN a v n).ticks = s.ticks := by
  induction n generalizing s a v with
  | zero => rfl
  | succ n ih => simp [State.writeN, ih]
@[simp] theorem State.writeN_free (s : State) (a v n : Nat) : (s.writeN a v n).free = s.free := by
  induction n generalizing s a v with
  | zero => rfl
  | succ n ih => simp [State.writeN, ih]
@[simp] theorem State.writeN_net (s : State) (a v n : Nat) : (s.writeN a v n).net = s.net := by
  induction n generalizing s a v with
  | zero => rfl
  | succ n ih => simp [State.writeN, ih]
@[simp] theorem State.writeN_bank (s : State) (a v n : Nat) : (s.writeN a v n).bank = s.bank := by
  induction n generalizing s a v with
  | zero => rfl
  | succ n ih => simp [State.writeN, ih]
@[simp] theorem State.writeN_sched (s : State) (a v n : Nat) : (s.writeN a v n).sched = s.sched := by
  induction n generalizing s a v with
  | zero => rfl
  | succ n ih => simp [State.writeN, ih]
@[simp] theorem State.writeN_out (s : State) (a v n : Nat) : (s.writeN a v n).out = s.out := by
  induction n generalizing s a v with
  | zero => rfl
  | succ n ih => simp [State.writeN, ih]
@[simp] theorem State.writeN_flt (s : State) (a v n : Nat) : (s.writeN a v n).flt = s.flt := by
  induction n generalizing s a v with
  | zero => rfl
  | succ n ih => simp [State.writeN, ih]
@[simp] theorem State.writeN_cl (s : State) (a v n : Nat) : (s.writeN a v n).cl = s.cl := by
  induction n generalizing s a v with
  | zero => rfl
  | succ n ih => simp [State.writeN, ih]
@[simp] theorem State.writeN_staged (s : State) (a v n : Nat) : (s.writeN a v n).staged = s.staged := by
  induction n generalizing s a v with
  | zero => rfl
  | succ n ih => simp [State.writeN, ih]
@[simp] theorem State.writeN_pcie (s : State) (a v n : Nat) : (s.writeN a v n).pcie = s.pcie := by
  induction n generalizing s a v with
  | zero => rfl
  | succ n ih => simp [State.writeN, ih]
@[simp] theorem State.writeN_ap (s : State) (a v n : Nat) : (s.writeN a v n).ap = s.ap := by
  induction n generalizing s a v with
  | zero => rfl
  | succ n ih => simp [State.writeN, ih]
@[simp] theorem State.writeN_mc (s : State) (a v n : Nat) : (s.writeN a v n).mc = s.mc := by
  induction n generalizing s a v with
  | zero => rfl
  | succ n ih => simp [State.writeN, ih]
@[simp] theorem State.writeN_lens (s : State) (a v n : Nat) : (s.writeN a v n).lens = s.lens := by
  induction n generalizing s a v with
  | zero => rfl
  | succ n ih => simp [State.writeN, ih]
@[simp] theorem State.writeN_chain (s : State) (a v n : Nat) : (s.writeN a v n).chain = s.chain := by
  induction n generalizing s a v with
  | zero => rfl
  | succ n ih => simp [State.writeN, ih]
@[simp] theorem State.writeN_sc (s : State) (a v n : Nat) : (s.writeN a v n).sc = s.sc := by
  induction n generalizing s a v with
  | zero => rfl
  | succ n ih => simp [State.writeN, ih]
@[simp] theorem State.writeN_cc (s : State) (a v n : Nat) : (s.writeN a v n).cc = s.cc := by
  induction n generalizing s a v with
  | zero => rfl
  | succ n ih => simp [State.writeN, ih]
@[simp] theorem State.writeN_port (s : State) (a v n : Nat) : (s.writeN a v n).port = s.port := by
  induction n generalizing s a v with
  | zero => rfl
  | succ n ih => simp [State.writeN, ih]
@[simp] theorem State.writeN_pwr (s : State) (a v n : Nat) : (s.writeN a v n).pwr = s.pwr := by
  induction n generalizing s a v with
  | zero => rfl
  | succ n ih => simp [State.writeN, ih]
@[simp] theorem State.writeN_old (s : State) (a v n : Nat) : (s.writeN a v n).old = s.old := by
  induction n generalizing s a v with
  | zero => rfl
  | succ n ih => simp [State.writeN, ih]

@[simp] theorem State.readByte_set (s : State) (f : Fld) (i v a : Nat) : (s.set f i v).readByte a = s.readByte a := rfl

/-- A byte written keeps the canonical form of memory. -/
theorem writeByte_wf (s : State) (a : Nat) (v : BitVec 8) (h : Memory.wf s.mem = true) : Memory.wf (s.writeByte a v).mem = true :=
  mwf_mset memDefault s.mem a v h

/-- Bytes written keep the canonical form of memory. -/
theorem writeN_wf (s : State) (a v n : Nat) (h : Memory.wf s.mem = true) : Memory.wf (s.writeN a v n).mem = true := by
  induction n generalizing s a v with
  | zero => exact h
  | succ n ih => exact ih _ _ _ (writeByte_wf s a _ h)

/-- A slot written keeps the canonical form of memory. -/
theorem writeSlot_wf (s : State) (a : Nat) (v : W) (h : Memory.wf s.mem = true) : Memory.wf (s.writeSlot a v).mem = true :=
  writeN_wf s a _ 6 h

/-- A byte read after a byte is written. -/
theorem readByte_writeByte (s : State) (a b : Nat) (v : BitVec 8) :
    (s.writeByte a v).readByte b = if a = b then v else s.readByte b :=
  mget_mset memDefault s.mem a b v

/-- Bytes outside those written read as before. -/
theorem readByte_writeN_out (s : State) (a v n b : Nat) (hb : b < a ∨ a + n ≤ b) :
    (s.writeN a v n).readByte b = s.readByte b := by
  induction n generalizing s a v with
  | zero => rfl
  | succ n ih =>
    rw [State.writeN, ih _ _ _ (by omega), readByte_writeByte s a b _]
    have : a ≠ b := by omega
    simp [this]

/-- Each byte of a number written. -/
theorem readByte_writeN_in (s : State) (a v n k : Nat) (hk : k < n) :
    (s.writeN a v n).readByte (a + k) = BitVec.ofNat 8 (v / 256 ^ k) := by
  induction n generalizing s a v k with
  | zero => omega
  | succ n ih =>
    rw [State.writeN]
    rcases Nat.eq_zero_or_pos k with rfl | hk0
    · rw [readByte_writeN_out _ _ _ _ _ (by omega), readByte_writeByte s a _ _]
      simp
    · have e : a + k = (a + 1) + (k - 1) := by omega
      rw [e, ih _ _ _ (k - 1) (by omega), Nat.div_div_eq_div_mul, ← Nat.pow_succ']
      congr 3
      omega

/-- A number read depends on its bytes alone. -/
theorem readN_congr (s t : State) (a n : Nat) (h : ∀ k, k < n → s.readByte (a + k) = t.readByte (a + k)) : s.readN a n = t.readN a n := by
  induction n generalizing a with
  | zero => rfl
  | succ n ih =>
    have h0 := h 0 (by omega)
    rw [Nat.add_zero] at h0
    rw [State.readN, State.readN, h0, ih (a + 1) fun k hk => by
      have e : a + 1 + k = a + (k + 1) := by omega
      rw [e]; exact h (k + 1) (by omega)]

/-- A number written reads back, cut to the bytes written. -/
theorem readN_writeN (s : State) (a v n : Nat) : (s.writeN a v n).readN a n = v % 256 ^ n := by
  induction n generalizing s a v with
  | zero => simp [State.readN, Nat.mod_one]
  | succ n ih =>
    rw [State.readN, State.writeN, ih, readByte_writeN_out _ _ _ _ _ (by omega),
      readByte_writeByte s a a _, Nat.pow_succ', Nat.mod_mul]
    simp

/-- A slot written reads back (R27). -/
theorem readSlot_writeSlot (s : State) (a : Nat) (v : W) : (s.writeSlot a v).readSlot a = v := by
  have e := readN_writeN s a v.toNat 6
  have hv : v.toNat % 256 ^ 6 = v.toNat := Nat.mod_eq_of_lt (by have := v.isLt; omega)
  simp only [State.readSlot, State.writeSlot, e, hv, w48]
  simp

/-- Memory at reset has the canonical form. -/
theorem reset_mem_wf : Memory.wf State.reset.mem = true := rfl

/-- Two memories of canonical form that read alike are equal. -/
theorem Memory.ext (m n : List Host.Cell) (hm : Memory.wf m = true) (hn : Memory.wf n = true)
    (h : ∀ a, mget memDefault m a = mget memDefault n a) : m = n := mwf_ext memDefault m n hm hn h

end Sys2Proof.Machine
end

