-- ==== Sys2Proof/Laws/Ops.lean ====
section
/-!
SUPPORT. Sys2Proof/Laws/Ops.lean: what each shared operation can do, said once.
-/
namespace Sys2Proof.Machine
open Sys2Proof

/-! ### Events (R344) -/

/-- Asking for a vector touches the endpoint alone. -/
theorem msixAsk_frame (n : Nat) (s : State) : msixAsk n s = { s with pcie := (msixAsk n s).pcie } := by
  unfold msixAsk; split_ifs <;> rfl

/-- A raise touches registers and the endpoint alone. -/
theorem raiseEvent_frame (n : Nat) (s : State) :
    raiseEvent n s = { s with regs := (raiseEvent n s).regs, pcie := (raiseEvent n s).pcie } := by
  unfold raiseEvent
  simp only
  split_ifs
  · rfl
  · rw [msixAsk_frame]; rfl
  · rfl

@[simp] theorem msixAsk_regs (n : Nat) (s : State) : (msixAsk n s).regs = s.regs := by
  unfold msixAsk; split_ifs <;> rfl

@[simp] theorem msixAsk_get (n : Nat) (s : State) (f : Fld) (i : Nat) : (msixAsk n s).get f i = s.get f i :=
  State.get_congr _ _ _ _ (msixAsk_regs n s)

/-- A raise changes COUNT and PEND of its source alone. -/
theorem raiseEvent_get_ne (n : Nat) (s : State) (f : Fld) (i : Nat) (h : f.id ≠ F.evCfg_COUNT.id ∧ f.id ≠ F.evCfg_PEND.id) :
    (raiseEvent n s).get f i = s.get f i := by
  unfold raiseEvent
  simp only
  split_ifs <;> simp [State.get_set_ne _ _ _ _ _ _ (Ne.symm h.2), State.get_inc_ne _ _ _ _ _ (Ne.symm h.1)]

/-- Every raise counts, modulo the counter's width. -/
theorem raiseEvent_count (n : Nat) (s : State) :
    (raiseEvent n s).get F.evCfg_COUNT n = (s.get F.evCfg_COUNT n + 1) % 2 ^ F.evCfg_COUNT.w := by
  unfold raiseEvent
  simp only
  split_ifs <;> simp [State.get_set_ne _ F.evCfg_PEND F.evCfg_COUNT _ _ _ (by decide)]

/-- A raise of an enabled source sets PEND. -/
theorem raiseEvent_pend (n : Nat) (s : State) (h : s.flag F.evCfg_EN n = true) : (raiseEvent n s).get F.evCfg_PEND n = 1 := by
  have e : (s.inc F.evCfg_COUNT n).flag F.evCfg_EN n = true := by
    rw [State.flag_inc_ne _ _ _ _ _ (by decide)]; exact h
  unfold raiseEvent
  simp only [e]
  split_ifs <;> simp_all [F.evCfg_PEND]

end Sys2Proof.Machine
end

