-- ==== Sys2Proof/WellFormed.lean ====
section
/-!
DEFINITION. Sys2Proof/WellFormed.lean: the operands that a command can carry, where their types take more. The meanings are total all the same.
-/
namespace Sys2Proof

/-- No number stands twice. -/
def distinct : List Nat → Bool
  | [] => true
  | x :: l => !l.contains x && distinct l

/-- A hub initiator has a number of R471's table, 0–14. -/
def HubAcc.wellFormed (a : HubAcc) : Bool := decide (a.init.val < 15)

/-- A packet of four flits fills ten data blocks (R36, R434); a break may stand beside each. -/
def ChainFlit.wellFormed (x : ChainFlit) : Bool := decide (x.blocks.length ≤ 20)

/-- Groups in a row are at least one (R241). -/
def FrameIn.wellFormed (f : FrameIn) : Bool := !f.groups.isEmpty

/-- A place of the walk through a spill chain lies within the 1,024 records of a spill area (R107). -/
def LookupErr.wellFormed (e : LookupErr) : Bool := match e.record with | some r => decide (r.place < 1024) | none => true

/-- BIST reports a bank once, with something to report. -/
def BootIn.wellFormed (b : BootIn) : Bool :=
  distinct (b.bist.map (·.bank.val)) && b.bist.all fun x => x.unexplained || decide (1 ≤ x.columns)

/-- A failed flash operation names each offset of what it wrote at most once. -/
def failsWithin (n : Nat) (f : FlashOut) : Bool :=
  match f with
  | some l => distinct (l.map (·.1)) && l.all fun x => decide (x.1 < n)
  | none => true

/-- The command's operands are ones that it can carry (DESIGN CHOICE, log 139). -/
def Instr.wellFormed : Instr → Bool
  | .tAdvance _ rails => distinct (rails.map (·.1.val))
  | .tLoad _ _ _ => true
  | .ppsEdge _ _ => true
  | .ppsTimeout => true
  | .refLoss => true
  | .time _ _ _ _ _ => true
  | .techo _ _ _ _ _ => true
  | .chainTimeLoss => true
  | .countEdge _ _ _ _ _ => true
  | .zEdge _ _ => true
  | .coordinateStall _ => true
  | .mainsEdge _ _ _ => true
  | .mainsHoldover => true
  | .triggerCrossing _ => true
  | .gridPoint _ => true
  | .resamplerToken _ => true
  | .lensQuery => true
  | .laneComma _ _ _ => true
  | .laneAlign _ n _ => decide (1 ≤ n)
  | .frame _ f => f.wellFormed
  | .laneSofTimeout _ _ => true
  | .laneGraceExpiry _ => true
  | .fifoIdleFlush _ => true
  | .fifoWordRead _ _ => true
  | .drop _ _ => true
  | .outputFrame _ => true
  | .forceRelease _ => true
  | .ilkRel _ _ => true
  | .ilkForce _ _ => true
  | .chForce _ _ _ => true
  | .ilkTest _ _ _ => true
  | .flitReceive _ _ _ ext err _ => (match ext with | some x => x.wellFormed | none => true) && decide (err.length ≤ 4)
  | .initiatorTimeout => true
  | .rd src _ => (match src with | some a => a.wellFormed | none => true)
  | .wr src _ _ => (match src with | some a => a.wellFormed | none => true)
  | .bwr _ => true
  | .output => true
  | .emitAtDue => true
  | .outputRoom => true
  | .release => true
  | .allocGrant _ _ _ => true
  | .globalArrive _ => true
  | .globalRelease _ => true
  | .globalStage _ => true
  | .globalAck _ => true
  | .globalAbort _ => true
  | .scheduleDeadline => true
  | .snapshot => true
  | .warmReset b => b.wellFormed
  | .modeCommit _ => true
  | .migrationSwitch _ => true
  | .barArm _ _ => true
  | .barDisarm _ _ => true
  | .barArrive _ _ => true
  | .clusterQuiet _ _ => true
  | .gschedSnapshot _ _ => true
  | .gschedWarmReset _ _ => true
  | .tokenAccept _ _ err => err.wellFormed
  | .spillRetry _ _ => true
  | .integerOp _ _ _ => true
  | .comparison _ _ _ => true
  | .q47Multiply _ _ _ => true
  | .floatOp _ _ _ => true
  | .conversion _ _ _ => true
  | .complexOp _ _ _ => true
  | .switch _ _ _ => true
  | .merge _ _ _ => true
  | .gate _ _ _ => true
  | .sel _ _ _ => true
  | .const _ _ _ => true
  | .sink _ _ _ => true
  | .prism _ _ _ => true
  | .link _ _ _ => true
  | .alloc _ _ _ => true
  | .free _ _ _ => true
  | .next _ _ _ => true
  | .return_ _ _ _ => true
  | .load _ _ _ => true
  | .store _ _ _ => true
  | .read _ _ _ => true
  | .write _ _ _ => true
  | .iclr _ _ _ => true
  | .fetchAdd _ _ _ => true
  | .swap _ _ _ => true
  | .now _ _ _ => true
  | .due _ _ _ => true
  | .tighten _ _ _ => true
  | .angleAt _ _ _ => true
  | .timeAt _ _ _ => true
  | .out _ _ _ => true
  | .emitAt _ _ _ => true
  | .userOperation _ _ _ => true
  | .response _ _ => true
  | .deferredAnswer _ _ => true
  | .bankOperation _ _ _ => true
  | .deferredReadAnswer _ => true
  | .scrub _ _ => true
  | .correctedWriteback _ => true
  | .bankOwn _ _ _ _ => true
  | .handoverComplete _ => true
  | .bankPwr _ _ => true
  | .powerMoveComplete _ => true
  | .takeOffline _ _ => true
  | .matchDebugRead init _ _ => decide (init.val < 15)
  | .deadlockEvaluation _ => true
  | .reclaimSweepEnd _ => true
  | .filterExpiry _ => true
  | .controlStoreReload _ _ => true
  | .claim => true
  | .admitGraph _ => true
  | .commit _ => true
  | .withdraw => true
  | .withdrawComplete _ => true
  | .clusterEmptied _ => true
  | .stage => true
  | .modeDrained _ => true
  | .modeSweep _ => true
  | .modeDiscardEnd _ => true
  | .migrate => true
  | .migrationCopyDone _ _ => true
  | .migrationDrained _ => true
  | .guaranteeRestore _ => true
  | .ledgerReexamine => true
  | .lostAck _ _ => true
  | .alu _ _ => true
  | .immediate _ _ => true
  | .ldk _ _ => true
  | .ink _ _ => true
  | .xrk _ _ => true
  | .ld _ _ => true
  | .st _ _ => true
  | .postedStoreError _ => true
  | .lr _ _ => true
  | .sc _ _ => true
  | .tas _ _ => true
  | .branch _ _ => true
  | .j _ _ => true
  | .call _ _ => true
  | .jr _ _ => true
  | .callr _ _ => true
  | .ret _ _ => true
  | .rspush _ _ => true
  | .rspop _ _ => true
  | .fp _ _ => true
  | .fma _ _ => true
  | .cpx _ _ => true
  | .fence _ _ => true
  | .srr _ _ => true
  | .srw _ _ => true
  | .trapi _ _ => true
  | .tret _ _ => true
  | .halt _ _ => true
  | .wait _ _ => true
  | .ginj _ _ => true
  | .ginjFullTimeout _ => true
  | .ginjHandover _ => true
  | .gcol _ _ => true
  | .intr _ => true
  | .ccRun _ _ _ => true
  | .ccReset _ _ => true
  | .haltReq _ _ _ => true
  | .step _ _ => true
  | .create _ _ => true
  | .wake _ _ => true
  | .kill _ _ => true
  | .yield _ _ => true
  | .block _ _ => true
  | .exit _ _ => true
  | .schedClaim _ _ _ => true
  | .slotWake _ => true
  | .raise _ _ => true
  | .doorbell _ _ => true
  | .timer _ => true
  | .lockAcquire _ _ _ => true
  | .lockRelease _ _ => true
  | .lockForce _ _ => true
  | .svRun _ => true
  | .svReset _ => true
  | .cmpTest _ _ => true
  | .lockstepMiscompare _ _ _ _ => true
  | .svDebugAction _ _ => true
  | .kick _ => true
  | .watchdogExpiry => true
  | .svTimer => true
  | .svIntr => true
  | .svMbxInWrite _ _ => true
  | .svMbxInRead _ _ => true
  | .svMbxOutWrite _ _ => true
  | .svMbxOutRead _ _ => true
  | .faultEvent => true
  | .fatalRecordWrite => true
  | .wireFault _ _ _ => true
  | .ack _ _ => true
  | .pop _ => true
  | .arm _ _ _ _ => true
  | .recordClear _ => true
  | .coldReset b => b.wellFormed
  | .bootTimeout => true
  | .updBegin fail => failsWithin 67108864 fail
  | .updChunk fail => failsWithin 32768 fail
  | .updVerify => true
  | .updActivate _ => true
  | .updConfirm _ _ => true
  | .updAbort => true
  | .bankOffline => true
  | .loadSection => true
  | .run fail => failsWithin 256 fail
  | .clusterOffline => true
  | .clusterRelease _ => true
  | .sensorRead => true
  | .pmbusPoll answers => distinct (answers.map (·.1.val))
  | .pmbAlert answers => distinct (answers.map (·.1.val))
  | .writeWord _ _ _ _ => true
  | .blockRead _ _ => true
  | .logPageWrite fail => failsWithin 256 fail
  | .wearMinute => true
  | .powerOff => true
  | .railFault _ => true
  | .sensorConversion _ _ => true
  | .throttleRelease _ => true
  | .shedStep _ => true
  | .powerEstimate _ => true
  | .clockRampStep _ => true
  | .vfSetWrite _ _ => true
  | .bar0Read _ size _ _ => decide (1 ≤ size.val)
  | .bar0Write _ size _ _ _ _ => decide (1 ≤ size.val)
  | .bar2Read _ len _ => decide (1 ≤ len.val)
  | .bar2Write _ => true
  | .configRequest _ => true
  | .msixSend _ => true
  | .endpointReset _ => true
  | .captureRecord _ _ => true
  | .captureShortClose _ => true
  | .capRp _ _ _ => true
  | .capEnable _ _ => true
  | .enum _ _ _ _ => true
  | .done _ _ => true
  | .fatal _ _ _ => true
  | .credit _ _ _ => true
  | .align _ _ => true
  | .chainDown _ => true
  | .mirrorFlip => true
  | .mirrorRead _ _ => true
  | .auxSwitch _ => true
  | .evin _ _ _ => true
  | .jtagInstruction _ _ => true
  | .debug _ _ => true
  | .hwmClear _ => true
  | .lateClear _ => true
  | .lwmClear _ _ _ => true
  | .maxClear _ _ => true
  | .registerWrite _ _ _ _ => true
  | .referenceReturn _ => true
  | .laneEnable _ _ _ => true
  | .blockLock _ _ => true
  | .linkStateChange _ _ width _ => [0, 1, 2, 4, 8].contains width.val
  | .coordCfg _ _ _ => true
  | .letData _ _ _ => true
  | .rscData _ _ _ => true
  | .capDisable _ _ => true
  | .alertResponseAddress => true

end Sys2Proof
end

