-- ==== Sys2Proof/Tests/Slice0.lean ====
section
/-!
SUPPORT. Sys2Proof/Tests/Slice0.lean: the checks of WellFormed refuse an ill-formed term each; worked examples of the spec; and for every
statement with hypotheses a state and operands that meet all of them.
-/
namespace Sys2Proof.Tests
open Sys2Proof Sys2Proof.Machine

set_option maxRecDepth 100000
set_option Elab.async false
set_option linter.unusedVariables false

/-! ### Ill-formed terms -/

theorem test_wf_duplicateRail : Instr.wellFormed (.tAdvance true [(1, 5), (1, 6)]) = false := by decide +kernel
theorem test_wf_laneAlignZero : Instr.wellFormed (.laneAlign 3 0 0) = false := by decide +kernel
theorem test_wf_frameOfNothing : Instr.wellFormed (.frame 3 ⟨0, 0, 0, false, []⟩) = false := by decide +kernel
theorem test_wf_packetOfFive : Instr.wellFormed (.flitReceive 0 0 0 (some ⟨List.replicate 21 .gap, ⟨0, 0, 0⟩, 0, 0⟩) [] false) = false := by decide +kernel
theorem test_wf_readByFifteen : Instr.wellFormed (.rd (some ⟨15, 0, true, 0, false⟩) 0) = false := by decide +kernel
theorem test_wf_writeByFifteen : Instr.wellFormed (.wr (some ⟨15, 0, true, 0, false⟩) 0 0) = false := by decide +kernel
theorem test_wf_spillRecord1024 : Instr.wellFormed (.tokenAccept 0 0 ⟨0, 0, 0, 0, some ⟨1024, 0, 1⟩⟩) = false := by decide +kernel
theorem test_wf_matchReadByFifteen : Instr.wellFormed (.matchDebugRead 15 0 ⟨0, 0⟩) = false := by decide +kernel
theorem test_wf_coldBistTwice : Instr.wellFormed (.coldReset ⟨true, true, true, none, true, 0, [⟨3, 1, false⟩, ⟨3, 2, false⟩], 0, 0, true⟩) = false := by decide +kernel
theorem test_wf_coldBistNothing : Instr.wellFormed (.coldReset ⟨true, true, true, none, true, 0, [⟨3, 0, false⟩], 0, 0, true⟩) = false := by decide +kernel
theorem test_wf_warmBistTwice : Instr.wellFormed (.warmReset ⟨true, true, true, none, true, 0, [⟨3, 1, false⟩, ⟨3, 2, false⟩], 0, 0, true⟩) = false := by decide +kernel
theorem test_wf_beginPastFlash : Instr.wellFormed (.updBegin (some [(67108864, 0)])) = false := by decide +kernel
theorem test_wf_beginTwice : Instr.wellFormed (.updBegin (some [(5, 0), (5, 1)])) = false := by decide +kernel
theorem test_wf_chunkPastBuffer : Instr.wellFormed (.updChunk (some [(32768, 0)])) = false := by decide +kernel
theorem test_wf_runPastRecord : Instr.wellFormed (.run (some [(256, 0)])) = false := by decide +kernel
theorem test_wf_pageTwice : Instr.wellFormed (.logPageWrite (some [(5, 0), (5, 1)])) = false := by decide +kernel
theorem test_wf_pagePastEnd : Instr.wellFormed (.logPageWrite (some [(256, 0)])) = false := by decide +kernel
theorem test_wf_pollTwice : Instr.wellFormed (.pmbusPoll [(2, ⟨0, 0, 0, 0⟩), (2, ⟨1, 0, 0, 0⟩)]) = false := by decide +kernel
theorem test_wf_alertTwice : Instr.wellFormed (.pmbAlert [(2, ⟨0, 0, 0, 0⟩), (2, ⟨1, 0, 0, 0⟩)]) = false := by decide +kernel
theorem test_wf_bar0ReadOfNothing : Instr.wellFormed (.bar0Read 0 0 false 0) = false := by decide +kernel
theorem test_wf_bar0WriteOfNothing : Instr.wellFormed (.bar0Write 0 0 0 false false 0) = false := by decide +kernel
theorem test_wf_bar2ReadOfNothing : Instr.wellFormed (.bar2Read 0 0 .good) = false := by decide +kernel
theorem test_wf_linkWidth3 : Instr.wellFormed (.linkStateChange 4 4 3 false) = false := by decide +kernel
theorem test_wf_good : Instr.wellFormed (.linkStateChange 4 4 8 false) = true := by decide

/-! ### Small states -/

/-- The state after reset with register fields set. -/
def withRegs (l : List (Fld × Nat × Nat)) : State := l.foldl (fun s x => s.set x.1 x.2.1 x.2.2) State.reset

def answers (o : Host.Outcome State Fault Refusal) (p : State → Bool) : Bool := match o with | .next t => p t | _ => false

/-- An intact GLOBAL message from a neighbour. -/
def soundGlobal (up : Bool) (p : BitVec 144) : ChainGlobal :=
  ⟨up, p, ctlSound 0x8B (p.extractLsb' 0 48), ctlSound 0x8D (p.extractLsb' 48 48), ctlSound 0x8E (p.extractLsb' 96 48), true, 0, 0⟩

/-- The tag of the instance in a firing test: cluster 3, instruction 21 (PE 5), partition 1, context 4, epoch 0. -/
def tag0 : W := mkTag 0 0 3 21 0 1 4 0

/-- A word of an instruction (R60, R61). -/
def iw (opc form dst0 k : Nat) : Nat := opc * 2 ^ 86 + form * 2 ^ 84 + dst0 * 2 ^ 48 + k

/-- A valid destination in the own cluster. -/
def dLocal : Nat := 2 ^ 22 + 7

def opnd (d : W) : SlotOp := ⟨2000, d, false, none⟩

/-- A running cluster whose PE 5 holds one enabled instance of an instruction whose dispatch entry allows it (R151). -/
def fireState (w : Nat) (l r g : Option SlotOp) : State :=
  let e := 3 * 1024 + iOpc w
  { (withRegs [(F.fclkCtl_STOPPED, 0, 0), (F.clStatus_STATE, 3, 2), (F.clStatus_OWNER, 3, 1), (F.partStat_STATE, 1, 2), (F.peStat_STOPPED, 53, 0),
      (F.dispatch_VALID, e, 1), (F.dispatch_KFORM, e, 1), (F.dispatch_DFORM, e, 1),
      (F.dispatch_KPARAM, e, if iForm w = 0 ∧ iKsel w = 0 ∧ iK w ≠ 0 then 1 else 0)]).writeN (instrAddr 3 21) w 12 with
    t := 1000, cl := { State.reset.cl with slots := [⟨3, 5, tag0, 7, false, l, r, g, 2000⟩] } }

def okErr : FireErr := ⟨0, 0, 0, 0, .good⟩

def gotF (s : State) (cls : OpClass) : Firing := match fired s 3 5 cls okErr with | some (f, _) => f | none => ⟨0, 0, 0, 0, 0, (0, false), (0, false), (0, false), 0, 0⟩
def gotU (s : State) (cls : OpClass) : State := match fired s 3 5 cls okErr with | some (_, u) => u | none => s

/-- The user microword END with ALU ADD of L and R, emitted to every field, with its parity bits (R146, R148). -/
def userWord : Nat :=
  let w := 5 * 2 ^ 132 + 1 * 2 ^ 111 + 1 * 2 ^ 107 + 2 * 2 ^ 103 + 2 * 2 ^ 66 + 15 * 2 ^ 62
  (List.range 8).foldl (fun a i => if ones 17 (bits w (17 * i) 17) % 2 = 0 then a + 2 ^ (136 + i) else a) w

/-- A cluster whose PE 5 holds a user operation with that routine. -/
def userState (l : SlotOp) : State :=
  ((((fireState (iw 0x300 0 dLocal 0) (some l) (some (opnd 7)) none).set F.dispatch_VALID 3840 1).set F.dispatch_PORTS 3840 3).set
    F.dispatch_KFORM 3840 1 |>.set F.dispatch_ENTRY 3840 0x600).writeN (uAddr 3 0x600) userWord 18

/-- A K48 word of formats R and I (R318). -/
def kw (op rd ra rb fn : Nat) : Nat := op * 2 ^ 26 + rd * 2 ^ 21 + ra * 2 ^ 16 + rb * 2 ^ 11 + fn

/-- A core that runs and stands before a word in its control-core memory. -/
def coreState (k w : Nat) (f : Core → Core) : State :=
  ((withRegs [(F.ccCtl_RUN, k, 1), (F.svStat_STATE, 0, 2)]).writeN (hubAddr 0x1000) w 4).setCore k
    (f { Core.empty with pc := BitVec.ofNat 48 (hubAddr 0x1000) })

/-- The same for the supervisor, in its window of shared memory. -/
def svState (w : Nat) (f : Core → Core) : State :=
  ((withRegs [(F.svStat_STATE, 0, 2)]).writeN (hubAddr 0xD81000) w 4).setCore 8
    (f { Core.empty with pc := BitVec.ofNat 48 (hubAddr 0xD81000) })

/-- The header of a small image with SVN 7. -/
def hdr : Header := ⟨[], 0, 7, 7, 0, 0, 0, [], [], 0, 0⟩

/-- A package in RUN that booted slot 1 while it was pending, with an MC command waiting. -/
def confState (keys op : Nat) : State :=
  putBootRec ⟨0, 0, true, 1, 0⟩
    { (withRegs [(F.bootStat_STEP, 0, 11), (F.bootStat_SLOT, 0, 1), (F.mcStat_BUSY, 0, 1), (F.otpStat_KEYS, 0, keys)]) with
      mc := { State.reset.mc with image := some hdr, cmd := some (op, 0) } }

/-- A CERT section of one word that is erased flash; its digest is SHA-384 of eight bytes of 0xFF. -/
def certSec : Section := ⟨0x0A, 0, 0x2000, 8, hubAddr 0x800000, sha384 (List.replicate 8 255)⟩

/-- The words of a small best-effort certificate: package 0, ID 0x77, a PARTITION record with WIN 8, and more records; then its CRC. -/
def certW (part modes : Nat) (recs : List Nat) : List Nat :=
  let ws := [0x014C4D4331, recs.length + 6 + part * 2 ^ 18 + 3 * 2 ^ 21 + 1 * 2 ^ 23 + modes * 2 ^ 39, 0x77, 0x201, 0x80] ++ recs
  ws ++ [crcWords ws]

/-- A CLUSTER record for cluster 9 that loads user set 5. -/
def userCl : List Nat := [2 + 52 * 256 + 9 * 2 ^ 26, 0, 5 * 2 ^ 21 + 2 ^ 26, 0] ++ (List.replicate 16 [0, 0, 2 ^ 25]).flatten

/-- The certificate that words spell. -/
def certOf (ws : List Nat) : Cert := match parseCert ws with | .ok k => k | .error _ => ⟨0, 0, 0, 0, 0, []⟩

/-- Words stored in shared control memory from an offset on. -/
def storeCert (off : Nat) (ws : List Nat) (s : State) : State :=
  ws.zipIdx.foldl (fun s x => s.writeN (hubAddr (sharedBase + (off + x.2) * 8)) x.1 8) s

/-- A package in which Aperture runs a command with an offset and a mode for cluster 5 and partition 1. -/
def apState (op off mode : Nat) (regs : List (Fld × Nat × Nat)) : State :=
  { (withRegs regs) with t := 1000, ticks := 40, ap := { State.reset.ap with cmd := some ⟨1, op, 5, off, mode, 30, [], none⟩ } }

/-- A package in which Aperture runs ADMIT for partition 1 with a certificate that it has read. -/
def admitState (ws : List Nat) (regs : List (Fld × Nat × Nat)) : State :=
  { (withRegs regs) with t := 1000, ticks := 40, ap := { State.reset.ap with cmd := some ⟨1, 2, 5, 100, 0, 30, ws, none⟩ } }

/-- A package in which partition 1 holds a small certificate. -/
def admState (modes : Nat) (regs : List (Fld × Nat × Nat)) : State :=
  { (withRegs regs) with t := 1000, ticks := 40, ap := { State.reset.ap with certs := [(1, certW 1 modes [])] } }

/-- A package in RUN, with register fields set. -/
def runState (l : List (Fld × Nat × Nat)) : State := withRegs ((F.bootStat_STEP, 0, 11) :: l)

/-- One word at the head of a capture stream's FIFO, the last of its packet. -/
def capWord : PfWord := ⟨0x123456, 6, true, false, false, 0, 160, 0⟩

/-- A capture stream with a ring of 16 pages whose FIFO holds one word. -/
def capState (l : List (Fld × Nat × Nat)) (c : CapStream) (w : PfWord) : State :=
  (((withRegs ([(F.capRing_SIZE, 5, 16), (F.capRing_BASE, 5, 32)] ++ l)).setFifo 37 ⟨[w], none, none, false, false, false⟩).setCap 5 c)


/-! ### Worked examples of the spec -/

/-- Chapter 04: the token of instruction 0x125 in context 0x143 of partition 3 computes set 739, which holds PE 5's sets from 640 on. -/
theorem test_set_index : setIndex 0x125 0x143 3 = 739 := by decide +kernel

/-- Chapter 03: the FMA whose words are 0x194F_9440_0340 and 0x3FF0_0000_0000 (R60, R61). -/
theorem test_fma_fields :
    let w := 0x194F94400340 * 2 ^ 48 + 0x3FF000000000
    iOpc w = 0x065 ∧ iForm w = 0 ∧ kselMask w = 4 ∧ iBand w = 7 ∧ iDoff w = 40 ∧ iK w = 0x3FF000000000 := by decide +kernel

/-- Chapter 03: NEXT over a block of eight contexts wraps. -/
theorem test_next_wraps : nextCtx 0x147 3 = 0x140 ∧ nextCtx 0x143 3 = 0x144 := by decide

/-- Chapter 02: a fault at 0xFFFF_FFFF_FFC0, logged after T's wrap in era 5, is stamped with era 4. -/
theorem test_stamp_before_wrap : stampEra { State.reset with era := 5, t := 0x40 } 0xFFFFFFFFFFC0 = 0x0004FFFFFFFFFFC0 := by decide +kernel

/-- Chapter 06: the last word of FCLIP has good parity, and one flipped bit has not. -/
theorem test_microword_parity :
    parityGroups 0xD75000000004B760000BC120000000000000 = 0 ∧ parityGroups 0xD75000000004B760000BC120000000000001 ≠ 0 := by decide +kernel

/-- Chapter 07: the fixed points of the worked admission. -/
theorem test_bound_terms : fix 3 256 = some 259 ∧ fix 25 900 = some 925 ∧ fix 1 700 = some 701 ∧ fix 0 1200 = some 1200 := by decide +kernel

/-- Chapter 10: the route from the hub of package 0 to cluster 39. -/
theorem test_route_to_cluster :
    walk State.reset ⟨0, 2, 7⟩ false 64 nodeHub none = [0x6000, 0x6010, 0x6020, 0x6030, 0x6040, 0x4800, 0x0820, 0x2B00] := by decide +kernel

/-- Chapters 10 and 07: with no other charge the transport costs τ = 150 cycles and a fix(3, 0) on each of 8 segments. -/
theorem test_route_cycles : (⟨State.reset, 3, ⟨3, 1, 1, 1, 0, []⟩, none, none, none, none⟩ : Vf).xfer nodeHub ⟨0, 2, 7⟩ false = some (150 + 8 * 3) := by decide +kernel

/-- Chapter 15: the second word of the fourth record. -/
theorem test_record_word : recordWord1 8 clsU true false false (some 3) 0x3275 0x064 = 0x006432753948 := by decide +kernel

/-- Chapter 12: LDK w1, 0x8000, ch = 2 gives MIN. -/
theorem test_ldk : answers (exec (.ldk 2 ⟨0, none, 0⟩) (coreState 2 0x30308000 id)) (fun t => (t.core 2).get 1 = 0x800000000000) = true := by
  decide +kernel

/-- Chapter 12: ADDI w2, w0, -1. -/
theorem test_addi : answers (exec (.immediate 2 ⟨0, none, 0⟩) (coreState 2 0x0840FFFF id)) (fun t => (t.core 2).get 2 = 0xFFFFFFFFFFFF) = true := by
  decide +kernel

/-- Chapter 12: DIV of MIN by -1 gives MIN, sets V and traps to TVEC + 0x200 with TRAP[0] = 1. -/
theorem test_div_traps :
    answers (exec (.alu 2 ⟨0, none, 0⟩) (coreState 2 0x0461101F fun c =>
        { (c.set 1 0x800000000000).set 2 0xFFFFFFFFFFFF with status := c.status ||| 0x100, tvec := 0x080000080000 })) (fun t =>
      (t.core 2).get 3 = 0x800000000000 && (t.core 2).ecause = 8 && (t.core 2).eaddr = 1 && (t.core 2).pc = 0x080000080200) = true := by
  decide +kernel

/-- Chapter 12: after 17 pushes in wrap mode the pointer is 1, the depth 16, and the first pop gives the seventeenth address. -/
theorem test_return_stack_wraps :
    let c := (List.range 17).foldl (fun (c : Core) n => c.push (BitVec.ofNat 48 (n + 1))) Core.empty
    c.ptr = 1 ∧ c.depth = 16 ∧ c.pop.1 = 17 := by decide +kernel

/-- The check value of CRC-32 of ISO/IEC 3309 (R173): the nine digits. -/
theorem test_crc32 : crc32 [0x31, 0x32, 0x33, 0x34, 0x35, 0x36, 0x37, 0x38, 0x39] = 0xCBF43926 := by decide +kernel

/-- SHA-384 of the three letters abc, as its standard gives it (R403). -/
theorem test_sha384 : sha384 [0x61, 0x62, 0x63] =
    0xCB00753F45A35E8BB5A03D699AC65007272C32AB0EDED1631A8B605A43FF5BED8086072BA1E7CC2358BAECA134C825A7 := by decide +kernel

/-- The edges of chapter 08's worked TIME-AT, which stand eight lines apart, where the stamps are whole sixteenths. -/
def steadyEdges : List Edge := (List.range 6).map fun (j : Nat) =>
  ⟨BitVec.ofInt 52 (0x300000000 - 78125 * (j : Int)), 37 * 4096 + 103 - 8 * (j : Int), (37 * 4096 + 103 - 8 * (j : Int)) * 4096 * 256, false, j = 5, false,
    false⟩

/-- Chapter 08: the crossing that the worked TIME-AT predicts. -/
theorem test_time_at :
    let a := timeAt State.reset 0 ⟨steadyEdges, true, false, false, false, 0⟩ 0x26400000 0x30000100 0x30000140
    a.value = 0x302EB976 ∧ a.pred = true ∧ a.rev = false := by decide +kernel

/-- Chapter 08: its bounds in angle and in time, with an edge every 610.3516 ticks. -/
theorem test_time_bounds :
    let omega : Rat := 2 ^ 32 / 40000000
    boundOf (withRegs [(F.coordModel_ACC_MAX, 0, 200), (F.coordModel_RES, 0, 40)]) 0 omega (16 * (20549632 / (67108864 / 10000000)) + 78125 / 8) = 503648 ∧
      timeMeas omega (some 503648) = some 1200791 := by decide +kernel

/-- IEEE 802.3 Clause 36 (R240): D21.5 is the same at both disparities, the comma K28.5 is not, and each decodes as itself. -/
theorem test_groups : encode10 false 0xB5 false = 0b1010101010 ∧ encode10 false 0xB5 true = 0b1010101010 ∧
    encode10 true 0xBC false = 0b0011111010 ∧ encode10 true 0xBC true = 0b1100000101 ∧
    decode10 0b0011111010 false = .special 0xBC ∧ decode10 0b0011111010 true = .invalid := by decide +kernel

/-- Every byte decodes from its group at both disparities. -/
theorem test_groups_decode : ((List.range 256).all fun b => [false, true].all fun rd => decode10 (encode10 false b rd) rd = .data b) = true := by
  decide +kernel

/-- Chapter 21: facet F3's year in bins 2, 3 and 4 consumes 486,570.24 of 13,149,000 minutes of life. -/
theorem test_consumed_life :
    consumedLife (setLedger 30 120000 (setLedger 31 360000 (setLedger 32 45960 State.reset))) 3 = 48657024 / 1314900000 := by
  decide +kernel

/-! ### The hypotheses of the statements are met -/

/-- States and operands that meet the hypotheses of ReferenceLossAndReturn. -/
theorem witness_ReferenceLossAndReturn :
    (∃  (s : State), s.flag F.lensStat_PPS_PRESENT 0 = true ∧ s.lens.ppsLast + 500000000 ≤ s.ticks) ∧
    (∃  (s : State), (s.get F.lensStat_TB_STATE 0 = 1 ∨ s.get F.lensStat_TB_STATE 0 = 2)) ∧
    (∃  (s : State), s.get F.lensStat_TB_STATE 0 ≠ 1 ∧ s.get F.lensStat_TB_STATE 0 ≠ 2) ∧
    (∃  (s : State), s.lens.src = 1 ∧ s.get F.lensStat_TB_STATE 0 = 3) ∧
    (∃  (s : State), s.lens.src = 2 ∧ s.get F.lensStat_TB_STATE 0 = 3 ∧ s.ticks < s.lens.chainLast + 65536) ∧
    (∃  (s : State), (s.get F.lensStat_TB_STATE 0 = 4 ∨ s.get F.lensStat_TB_STATE 0 = 5) ∧ s.lens.chainLast + 65536 ≤ s.ticks) :=
  ⟨⟨{ withRegs [(F.lensStat_PPS_PRESENT, 0, 1)] with ticks := 500000000 }, by decide +kernel⟩,
    ⟨withRegs [(F.lensStat_TB_STATE, 0, 1)], by decide +kernel⟩,
    ⟨State.reset, by decide +kernel⟩,
    ⟨{ withRegs [(F.lensStat_TB_STATE, 0, 3)] with lens := { State.reset.lens with src := 1 } }, by decide +kernel⟩,
    ⟨{ withRegs [(F.lensStat_TB_STATE, 0, 3)] with lens := { State.reset.lens with src := 2 } }, by decide +kernel⟩,
    ⟨{ withRegs [(F.lensStat_TB_STATE, 0, 5)] with ticks := 65536 }, by decide +kernel⟩⟩

/-- States and operands that meet the hypotheses of CountEdgeMovesTheCount. -/
theorem witness_CountEdgeMovesTheCount :
    (∃ (e n : Fin 4) (stamp : BitVec 52) (a b : Bool) (width : Nat) (s : State), s.get F.coordCfg_SRC n = e.val + 1 ∧ (∀ m : Fin 4, m ≠ n → s.get F.coordCfg_SRC m ≠ e.val + 1) ∧ s.get F.coordCfg_LINES n ≠ 0 ∧ s.get F.coordCfg_FILT n ≤ width ∧ n.val < s.lens.coords.length ∧ ((a ≠ (s.coord n).la ∧ b = (s.coord n).lb) ∨ (a = (s.coord n).la ∧ b ≠ (s.coord n).lb)) ∧ ((s.coord n).lastZ.all (fun u => decide (u.stamp ≠ stamp)) = true) ∧ ((s.coord n).lastAb.all (fun u => decide (u.stamp ≠ stamp)) = true)) ∧
    (∃ (e n : Fin 4) (stamp : BitVec 52) (a b : Bool) (width : Nat) (s : State), s.get F.coordCfg_SRC n = e.val + 1 ∧ (∀ m : Fin 4, m ≠ n → s.get F.coordCfg_SRC m ≠ e.val + 1) ∧ s.get F.coordCfg_LINES n ≠ 0 ∧ s.get F.coordCfg_FILT n ≤ width ∧ n.val < s.lens.coords.length ∧ a ≠ (s.coord n).la ∧ b ≠ (s.coord n).lb ∧ ((s.coord n).lastZ.all (fun u => decide (u.stamp ≠ stamp)) = true)) ∧
    (∃ (e : Fin 2) (n : Fin 4) (stamp : BitVec 52) (a b : Bool) (width : Nat) (s : State), s.get F.coordCfg_SRC n = e.val + 5 ∧ (∀ m : Fin 4, m ≠ n → s.get F.coordCfg_SRC m ≠ e.val + 5) ∧ s.get F.coordCfg_LINES n ≠ 0 ∧ s.get F.coordCfg_FILT n ≤ width ∧ n.val < s.lens.coords.length ∧ s.flag F.coordStat_REFD n = true) ∧
    (∃ (e : Fin 2) (n : Fin 4) (stamp : BitVec 52) (a b : Bool) (width : Nat) (s : State), s.get F.coordCfg_SRC n = e.val + 5 ∧ (∀ m : Fin 4, m ≠ n → s.get F.coordCfg_SRC m ≠ e.val + 5) ∧ s.get F.coordCfg_LINES n ≠ 0 ∧ s.get F.coordCfg_FILT n ≤ width ∧ n.val < s.lens.coords.length ∧ s.flag F.coordStat_REFD n = false) ∧
    (∃ (e n : Fin 4) (stamp : BitVec 52) (width : Nat) (s : State), s.get F.coordCfg_SRC n = e.val + 1 ∧ (∀ m : Fin 4, m ≠ n → s.get F.coordCfg_SRC m ≠ e.val + 1) ∧ s.get F.coordCfg_LINES n ≠ 0 ∧ s.get F.coordCfg_FILT n ≤ width ∧ n.val < s.lens.coords.length ∧ (s.flag F.coordCfg_ZGATE n = true → (s.coord n).la = true ∧ (s.coord n).lb = true) ∧ s.flag F.coordStat_REFD n = false) ∧
    (∃ (e n : Fin 4) (stamp : BitVec 52) (width : Nat) (s : State), s.get F.coordCfg_SRC n = e.val + 1 ∧ (∀ m : Fin 4, m ≠ n → s.get F.coordCfg_SRC m ≠ e.val + 1) ∧ s.get F.coordCfg_LINES n ≠ 0 ∧ s.get F.coordCfg_FILT n ≤ width ∧ n.val < s.lens.coords.length ∧ (s.flag F.coordCfg_ZGATE n = true → (s.coord n).la = true ∧ (s.coord n).lb = true) ∧ s.flag F.coordStat_REFD n = true) ∧
    (∃ (e n : Fin 4) (stamp : BitVec 52) (width : Nat) (s : State), s.get F.coordCfg_SRC n = e.val + 1 ∧ (∀ m : Fin 4, m ≠ n → s.get F.coordCfg_SRC m ≠ e.val + 1) ∧ (width < s.get F.coordCfg_FILT n ∨ (s.flag F.coordCfg_ZGATE n = true ∧ ((s.coord n).la = false ∨ (s.coord n).lb = false)))) :=
  ⟨⟨0, 1, 320, true, false, 100, (withRegs [(F.coordCfg_SRC, 1, 1), (F.coordCfg_LINES, 1, 8), (F.coordStat_STOP, 1, 1)]).setCoord 1 { Coord.reset with k := 3, hist := [{ stamp := 160, b := 1, ang := 0, back := false, start := false, rev := false, ended := false }, { stamp := 60, b := 0, ang := 0, back := false, start := true, rev := false, ended := false }] }, by decide +kernel⟩,
    ⟨0, 1, 320, true, true, 100, (withRegs [(F.coordCfg_SRC, 1, 1), (F.coordCfg_LINES, 1, 8)]).setCoord 1 { Coord.reset with k := 3, hist := [{ stamp := 160, b := 1, ang := 0, back := false, start := false, rev := false, ended := false }, { stamp := 60, b := 0, ang := 0, back := false, start := true, rev := false, ended := false }] }, by decide +kernel⟩,
    ⟨1, 2, 320, true, false, 100, (withRegs [(F.coordCfg_SRC, 2, 6), (F.coordCfg_LINES, 2, 8), (F.coordStat_REFD, 2, 1), (F.coordCfg_INV, 2, 1)]).setCoord 2 { Coord.reset with k := -3, hist := [{ stamp := 160, b := 1, ang := 0, back := false, start := false, rev := false, ended := false }, { stamp := 60, b := 0, ang := 0, back := false, start := true, rev := false, ended := false }] }, by decide +kernel⟩,
    ⟨1, 2, 320, true, false, 100, (withRegs [(F.coordCfg_SRC, 2, 6), (F.coordCfg_LINES, 2, 8)]).setCoord 2 { Coord.reset with k := 5 }, by decide +kernel⟩,
    ⟨0, 1, 77, 100, (withRegs [(F.coordCfg_SRC, 1, 1), (F.coordCfg_LINES, 1, 8)]).setCoord 1 { Coord.reset with k := 35, hist := [{ stamp := 160, b := 1, ang := 0, back := false, start := false, rev := false, ended := false }, { stamp := 60, b := 0, ang := 0, back := false, start := true, rev := false, ended := false }] }, by decide +kernel⟩,
    ⟨0, 1, 77, 100, (withRegs [(F.coordCfg_SRC, 1, 1), (F.coordCfg_LINES, 1, 8), (F.coordStat_REFD, 1, 1)]).setCoord 1 { Coord.reset with k := 35 }, by decide +kernel⟩,
    ⟨0, 1, 77, 100, withRegs [(F.coordCfg_SRC, 1, 1), (F.coordCfg_LINES, 1, 8), (F.coordCfg_ZGATE, 1, 1)], by decide +kernel⟩⟩

/-- States and operands that meet the hypotheses of CoordinateStopsWithoutEdges. -/
theorem witness_CoordinateStopsWithoutEdges :
    (∃ (n : Fin 4) (s : State), s.get F.coordCfg_LINES n ≠ 0 ∧ s.get F.coordCfg_SRC n ≠ 0 ∧ (s.coord n).hist ≠ [] ∧ (s.coord n).lastTick + 2 ^ (s.get F.coordCfg_STALL n + 14) ≤ s.ticks) ∧
    (∃ (e n : Fin 4) (stamp : BitVec 52) (a b : Bool) (width : Nat) (s : State), s.get F.coordCfg_SRC n = e.val + 1 ∧ (∀ m : Fin 4, m ≠ n → s.get F.coordCfg_SRC m ≠ e.val + 1) ∧ s.get F.coordCfg_LINES n ≠ 0 ∧ s.get F.coordCfg_FILT n ≤ width ∧ n.val < s.lens.coords.length ∧ ((a ≠ (s.coord n).la ∧ b = (s.coord n).lb) ∨ (a = (s.coord n).la ∧ b ≠ (s.coord n).lb)) ∧ ((s.coord n).lastZ.all (fun u => decide (u.stamp ≠ stamp)) = true) ∧ ((s.coord n).lastAb.all (fun u => decide (u.stamp ≠ stamp)) = true) ∧ s.flag F.coordStat_STOP n = true) ∧
    (∃ (e : Fin 2) (n : Fin 4) (stamp : BitVec 52) (a b : Bool) (width : Nat) (s : State), s.get F.coordCfg_SRC n = e.val + 5 ∧ (∀ m : Fin 4, m ≠ n → s.get F.coordCfg_SRC m ≠ e.val + 5) ∧ s.get F.coordCfg_LINES n ≠ 0 ∧ s.get F.coordCfg_FILT n ≤ width ∧ n.val < s.lens.coords.length ∧ s.flag F.coordStat_STOP n = true) :=
  ⟨⟨1, { (withRegs [(F.coordCfg_SRC, 1, 1), (F.coordCfg_LINES, 1, 8)]).setCoord 1 { Coord.reset with hist := [{ stamp := 160, b := 1, ang := 0, back := false, start := false, rev := false, ended := false }] } with ticks := 2 ^ 40 }, by decide +kernel⟩,
    ⟨0, 1, 320, true, false, 100, (withRegs [(F.coordCfg_SRC, 1, 1), (F.coordCfg_LINES, 1, 8), (F.coordStat_STOP, 1, 1)]).setCoord 1 { Coord.reset with k := 3, hist := [{ stamp := 160, b := 1, ang := 0, back := false, start := false, rev := false, ended := false }, { stamp := 60, b := 0, ang := 0, back := false, start := true, rev := false, ended := false }] }, by decide +kernel⟩,
    ⟨1, 2, 320, true, false, 100, (withRegs [(F.coordCfg_SRC, 2, 6), (F.coordCfg_LINES, 2, 8), (F.coordStat_REFD, 2, 1), (F.coordStat_STOP, 2, 1)]).setCoord 2 { Coord.reset with k := -3, hist := [{ stamp := 160, b := 1, ang := 0, back := false, start := false, rev := false, ended := false }, { stamp := 60, b := 0, ang := 0, back := false, start := true, rev := false, ended := false }] }, by decide +kernel⟩⟩

/-- States and operands that meet the hypotheses of MainsEdgesAndHoldover. -/
theorem witness_MainsEdgesAndHoldover :
    (∃ (rising : Bool) (stamp : BitVec 52) (width : Nat) (s : State), s.flag F.mainsCfg_EN 0 = true ∧ s.flag F.mainsCfg_POL 0 ≠ rising ∧ s.get F.mainsCfg_FILT 0 ≤ width ∧ 4 < s.lens.coords.length ∧ (s.coord 4).hist = []) ∧
    (∃ (rising : Bool) (stamp : BitVec 52) (width : Nat) (x : Edge) (xs : List Edge) (s : State), s.flag F.mainsCfg_EN 0 = true ∧ s.flag F.mainsCfg_POL 0 ≠ rising ∧ s.get F.mainsCfg_FILT 0 ≤ width ∧ (s.coord 4).hist = x :: xs ∧ (if s.t = (s.coord 4).lastT + BitVec.ofNat 48 (s.ticks - (s.coord 4).lastTick) then sd52 stamp x.stamp else (16 * (s.ticks - (s.coord 4).lastTick : Nat) : Int)) < 3000000 * 16) ∧
    (∃ (rising : Bool) (stamp : BitVec 52) (width : Nat) (x : Edge) (xs : List Edge) (s : State), s.flag F.mainsCfg_EN 0 = true ∧ s.flag F.mainsCfg_POL 0 ≠ rising ∧ s.get F.mainsCfg_FILT 0 ≤ width ∧ 4 < s.lens.coords.length ∧ (s.coord 4).hist = x :: xs ∧ 3000000 * 16 ≤ (if s.t = (s.coord 4).lastT + BitVec.ofNat 48 (s.ticks - (s.coord 4).lastTick) then sd52 stamp x.stamp else (16 * (s.ticks - (s.coord 4).lastTick : Nat) : Int)) ∧ s.flag F.mainsStat_HOLD 0 = false) ∧
    (∃ (rising : Bool) (stamp : BitVec 52) (width : Nat) (x : Edge) (xs : List Edge) (s : State), s.flag F.mainsCfg_EN 0 = true ∧ s.flag F.mainsCfg_POL 0 ≠ rising ∧ s.get F.mainsCfg_FILT 0 ≤ width ∧ 4 < s.lens.coords.length ∧ (s.coord 4).hist = x :: xs ∧ 3000000 * 16 ≤ (if s.t = (s.coord 4).lastT + BitVec.ofNat 48 (s.ticks - (s.coord 4).lastTick) then sd52 stamp x.stamp else (16 * (s.ticks - (s.coord 4).lastTick : Nat) : Int)) ∧ s.flag F.mainsStat_HOLD 0 = true) ∧
    (∃  (s : State), s.flag F.mainsCfg_EN 0 = true ∧ (s.coord 4).hist ≠ [] ∧ s.flag F.mainsStat_HOLD 0 = false ∧ (s.coord 4).lastTick + 7500000 ≤ s.ticks) :=
  ⟨⟨true, 320, 100, withRegs [(F.mainsCfg_EN, 0, 1)], by decide +kernel⟩,
    ⟨true, 320, 100, { stamp := 160, b := 1, ang := 0, back := false, start := false, rev := false, ended := false }, [], (withRegs [(F.mainsCfg_EN, 0, 1)]).setCoord 4 { Coord.reset with hist := [{ stamp := 160, b := 1, ang := 0, back := false, start := false, rev := false, ended := false }] }, by decide +kernel⟩,
    ⟨true, 48000160, 100, { stamp := 160, b := 1, ang := 0, back := false, start := false, rev := false, ended := false }, [], (withRegs [(F.mainsCfg_EN, 0, 1)]).setCoord 4 { Coord.reset with k := 7, hist := [{ stamp := 160, b := 1, ang := 0, back := false, start := false, rev := false, ended := false }] }, by decide +kernel⟩,
    ⟨true, 160000160, 100, { stamp := 160, b := 1, ang := 0, back := false, start := false, rev := false, ended := false }, [], (withRegs [(F.mainsCfg_EN, 0, 1), (F.mainsStat_HOLD, 0, 1)]).setCoord 4 { Coord.reset with k := 7, period := 80000000, hist := [{ stamp := 160, b := 1, ang := 0, back := false, start := false, rev := false, ended := false }] }, by decide +kernel⟩,
    ⟨{ (withRegs [(F.mainsCfg_EN, 0, 1)]).setCoord 4 { Coord.reset with hist := [{ stamp := 160, b := 1, ang := 0, back := false, start := false, rev := false, ended := false }] } with ticks := 7500000 }, by decide +kernel⟩⟩

/-- States and operands that meet the hypotheses of TriggerFiresOnItsCrossing. -/
theorem witness_TriggerFiresOnItsCrossing :
    (∃ (i : Fin 256) (s : State), s.fatal = false ∧ mfind s.lens.trigOld i = none ∧ s.flag F.trigCfg_EN i = true ∧ (s.coord (s.get F.trigCfg_COORD i)).jumped = false ∧ mfind s.lens.trigAt i ≠ some s.ticks ∧ crosses (s.flag F.trigCfg_DIR i) (s.coord (s.get F.trigCfg_COORD i)).prev (s.coord (s.get F.trigCfg_COORD i)).pub (w48 (s.get F.trigTarget_VALUE i)) = true ∧ s.pRuns (s.get F.trigCfg_PART i) = true ∧ (∀ r ∈ s.cl.reclaim, r.part ≠ s.get F.trigCfg_PART i) ∧ s.lens.trigEn.contains i.val = false ∧ s.flag F.trigCfg_PERIODIC i = false) ∧
    (∃ (i : Fin 256) (s : State), s.fatal = false ∧ mfind s.lens.trigOld i = none ∧ s.flag F.trigCfg_EN i = true ∧ (s.coord (s.get F.trigCfg_COORD i)).jumped = false ∧ mfind s.lens.trigAt i ≠ some s.ticks ∧ crosses (s.flag F.trigCfg_DIR i) (s.coord (s.get F.trigCfg_COORD i)).prev (s.coord (s.get F.trigCfg_COORD i)).pub (w48 (s.get F.trigTarget_VALUE i)) = true ∧ s.pRuns (s.get F.trigCfg_PART i) = true ∧ (∀ r ∈ s.cl.reclaim, r.part ≠ s.get F.trigCfg_PART i) ∧ s.lens.trigTgt.contains i.val = false ∧ s.flag F.trigCfg_PERIODIC i = true) :=
  ⟨⟨3, { withRegs [(F.trigCfg_EN, 3, 1), (F.trigTarget_VALUE, 3, 100), (F.trigCfg_DATA, 3, 2), (F.partStat_STATE, 0, 2)] with lens := { State.reset.lens with coords := [{ Coord.reset with prev := 99, pub := 101 }, Coord.reset, Coord.reset, Coord.reset, Coord.reset] } }, by decide +kernel⟩,
    ⟨3, { withRegs [(F.trigCfg_EN, 3, 1), (F.trigTarget_VALUE, 3, 100), (F.trigCfg_DATA, 3, 2), (F.partStat_STATE, 0, 2), (F.trigCfg_PERIODIC, 3, 1), (F.trigStep_VALUE, 3, 10)] with lens := { State.reset.lens with coords := [{ Coord.reset with prev := 99, pub := 101 }, Coord.reset, Coord.reset, Coord.reset, Coord.reset] } }, by decide +kernel⟩⟩

/-- States and operands that meet the hypotheses of ResamplerAndQueries. -/
theorem witness_ResamplerAndQueries :
    (∃ (g : Fin 8) (m : Nat) (s : State), s.fatal = false ∧ mfind s.lens.rsNext g = some m ∧ (s.coord (s.get F.rsCfg_A_COORD g)).jumped = false ∧ crosses false (s.coord (s.get F.rsCfg_A_COORD g)).prev (s.coord (s.get F.rsCfg_A_COORD g)).pub (w48 (s.get F.rsStart_VALUE g) + BitVec.ofNat 48 (m * s.get F.rsStep_VALUE g)) = true) ∧
    (∃ (g : Fin 8) (m : Nat) (s : State), mfind s.lens.rsNext g = some m ∧ ((s.coord (s.get F.rsCfg_A_COORD g)).jumped = true ∨ crosses false (s.coord (s.get F.rsCfg_A_COORD g)).prev (s.coord (s.get F.rsCfg_A_COORD g)).pub (w48 (s.get F.rsStart_VALUE g) + BitVec.ofNat 48 (m * s.get F.rsStep_VALUE g)) = false)) ∧
    (∃ (ch : Fin 256) (q : GridPt) (rs : List GridPt) (n p : Nat) (s : State), s.fatal = false ∧ mget [] s.sc.grid ch = q :: rs ∧ gridPhase q.t (mget [] s.sc.hist ch) = some (n, p) ∧ ((mget [] s.sc.hist ch).any fun x => x.n = n + 16 && x.tick < s.ticks) = true ∧ (mget (0, 0) s.sc.outs ch).1 ≠ n + 1 ∧ ((mget [] s.sc.hist ch).filter fun x => decide (x.n ≤ n + 16 ∧ n < x.n + 16)).length = 32 ∧ (((mget [] s.sc.hist ch).filter fun x => decide (x.n ≤ n + 16 ∧ n < x.n + 16)).any (·.s.poison)) = false ∧ s.flagB F.chCfg_EN ch = true ∧ s.get F.chCfg_LAYOUT ch ≠ 2 ∧ srcRuns s (s.get F.chCfg_PART ch) = true ∧ pausedP s (s.get F.chCfg_PART ch) = false) ∧
    (∃ (ch : Fin 256) (q : GridPt) (rs : List GridPt) (n p : Nat) (s : State), s.fatal = false ∧ mget [] s.sc.grid ch = q :: rs ∧ gridPhase q.t (mget [] s.sc.hist ch) = some (n, p) ∧ ((mget [] s.sc.hist ch).any fun x => x.n = n + 16 && x.tick < s.ticks) = true ∧ (mget (0, 0) s.sc.outs ch).1 = n + 1 ∧ 2 ≤ (mget (0, 0) s.sc.outs ch).2) ∧
    (∃ (f : Flit) (fs : List Flit) (s : State), s.fatal = false ∧ s.net.lensQ = f :: fs ∧ badReq f = false ∧ bits (reqRet f.pay) 11 4 < 8 ∧ s.pkgOk (bits (reqRet f.pay) 15 4) = true ∧ ((reqAddr f.pay).toNat % 8) ≤ 4 ∧ coordOn s ((reqAddr f.pay).toNat % 8) = false) ∧
    (∃ (f : Flit) (fs : List Flit) (b : Int) (s : State), s.fatal = false ∧ s.net.lensQ = f :: fs ∧ badReq f = false ∧ bits (reqRet f.pay) 11 4 < 8 ∧ s.pkgOk (bits (reqRet f.pay) 15 4) = true ∧ ((reqAddr f.pay).toNat % 8) ≤ 4 ∧ coordOn s ((reqAddr f.pay).toNat % 8) = true ∧ bits (reqAddr f.pay).toNat 3 1 = 0 ∧ (angleAt s ((reqAddr f.pay).toNat % 8) (s.coord ((reqAddr f.pay).toNat % 8)).view (reqData f.pay) s.t).bound = some b) ∧
    (∃ (f : Flit) (fs : List Flit) (b : Int) (s : State), s.fatal = false ∧ s.net.lensQ = f :: fs ∧ badReq f = false ∧ bits (reqRet f.pay) 11 4 < 8 ∧ s.pkgOk (bits (reqRet f.pay) 15 4) = true ∧ ((reqAddr f.pay).toNat % 8) ≤ 4 ∧ coordOn s ((reqAddr f.pay).toNat % 8) = true ∧ bits (reqAddr f.pay).toNat 3 1 = 1 ∧ (timeAt s ((reqAddr f.pay).toNat % 8) (s.coord ((reqAddr f.pay).toNat % 8)).view (reqData f.pay) (rebuildT s.t (reqArg f.pay)) s.t).bound = some b) :=
  ⟨⟨2, 4, { withRegs [(F.rsStart_VALUE, 2, 60), (F.rsStep_VALUE, 2, 10), (F.rsMask_CH, 16, 8)] with lens := { State.reset.lens with rsNext := [(2, 4)], coords := [{ Coord.reset with prev := 99, pub := 101 }, Coord.reset, Coord.reset, Coord.reset, Coord.reset] } }, by decide +kernel⟩,
    ⟨2, 4, { withRegs [(F.rsStart_VALUE, 2, 65), (F.rsStep_VALUE, 2, 10), (F.rsMask_CH, 16, 8)] with lens := { State.reset.lens with rsNext := [(2, 4)], coords := [{ Coord.reset with prev := 99, pub := 101 }, Coord.reset, Coord.reset, Coord.reset, Coord.reset] } }, by decide +kernel⟩,
    ⟨3, ⟨2, 7, 155⟩, [⟨2, 8, 170⟩], 15, 512, { withRegs [(F.chCfg_EN, 3, 1), (F.partStat_STATE, 0, 2), (F.chDst_CLUSTER, 3, 5)] with ticks := 9, sc := { State.reset.sc with grid := [(3, [⟨2, 7, 155⟩, ⟨2, 8, 170⟩])], hist := [(3, (List.range 32).reverse.map fun i => ⟨i, 1, ⟨3, BitVec.ofNat 24 (i * 1000), 0x40, 0, BitVec.ofNat 52 (10 * i), false⟩⟩)] } }, by decide +kernel⟩,
    ⟨3, ⟨2, 7, 165⟩, [⟨2, 8, 170⟩], 0, 512, { State.reset with ticks := 9, sc := { State.reset.sc with grid := [(3, [⟨2, 7, 165⟩, ⟨2, 8, 170⟩])], outs := [(3, (1, 2))], hist := [(3, [⟨16, 5, ⟨3, 0, 0, 0, 400, false⟩⟩, ⟨1, 1, ⟨3, 0, 0, 0, 170, false⟩⟩, ⟨0, 1, ⟨3, 0, 0, 0, 160, false⟩⟩])] } }, by decide +kernel⟩,
    ⟨mkFlit 1 false (reqPay 0 0 10 5 false (3 * 2 ^ 7) 0) [] 0 3 0, [], { State.reset with t := 1000, net := { State.reset.net with lensQ := [mkFlit 1 false (reqPay 0 0 10 5 false (3 * 2 ^ 7) 0) [] 0 3 0] } }, by decide +kernel⟩,
    ⟨mkFlit 1 false (reqPay 1 500 10 5 false (3 * 2 ^ 7) 0) [] 0 3 0, [], 660, { (withRegs [(F.coordCfg_SRC, 1, 1), (F.coordCfg_LINES, 1, 8), (F.coordModel_RES, 1, 3)]) with t := 1000, net := { State.reset.net with lensQ := [mkFlit 1 false (reqPay 1 500 10 5 false (3 * 2 ^ 7) 0) [] 0 3 0] }, lens := { State.reset.lens with coords := [Coord.reset, { Coord.reset with view := ⟨[{ stamp := 160, b := 1, ang := 2 ^ 24, back := false, start := false, rev := false, ended := false }, { stamp := 60, b := 0, ang := 0, back := false, start := true, rev := false, ended := false }], true, false, false, false, 0⟩ }, Coord.reset, Coord.reset, Coord.reset] } }, by decide +kernel⟩,
    ⟨mkFlit 1 false (reqPay 9 500 10 5 false (3 * 2 ^ 7) 0) [] 0 3 0, [], 2, { (withRegs [(F.coordCfg_SRC, 1, 1), (F.coordCfg_LINES, 1, 8), (F.coordModel_RES, 1, 3)]) with t := 1000, net := { State.reset.net with lensQ := [mkFlit 1 false (reqPay 9 500 10 5 false (3 * 2 ^ 7) 0) [] 0 3 0] }, lens := { State.reset.lens with coords := [Coord.reset, { Coord.reset with view := ⟨[{ stamp := 160, b := 1, ang := 2 ^ 24, back := false, start := false, rev := false, ended := false }, { stamp := 60, b := 0, ang := 0, back := false, start := true, rev := false, ended := false }], true, false, false, false, 0⟩ }, Coord.reset, Coord.reset, Coord.reset] } }, by decide +kernel⟩⟩

/-- States and operands that meet the hypotheses of TickStepsTime. -/
theorem witness_TickStepsTime :
    (∃ (freqOk : Bool) (rails : RailIn) (s : State), s.lens.load = none ∧ porAsserted rails s = false) ∧
    (∃ (freqOk : Bool) (rails : RailIn) (s : State), s.lens.load = none ∧ porAsserted rails s = true) :=
  ⟨⟨true, [], { State.reset with t := 0xFFFFFFFFFFFF }, by decide +kernel⟩,
    ⟨true, [(1, 700)], { State.reset with t := 0xFFFFFFFFFFFF, flt := { State.reset.flt with decision := some (0, 0) } }, by decide +kernel⟩⟩

/-- States and operands that meet the hypotheses of TimeLoadAndPps. -/
theorem witness_TimeLoadAndPps :
    (∃ (who : From) (v : W) (era : BitVec 16) (s : State), (fromHost who.1 = true ∨ fromCore who.1 = true) ∧ s.fatal = false ∧ s.chainLen = 0) ∧
    (∃ (freqOk : Bool) (rails : RailIn) (v : W) (era : BitVec 16) (s : State), s.lens.load = some (v, era, false) ∧ porAsserted rails s = false) ∧
    (∃ (frac : Fin 16) (rising : Bool) (v : W) (era : BitVec 16) (s : State), s.flag F.lensCtl_PPS_POL 0 ≠ rising ∧ s.lens.load = some (v, era, true)) ∧
    (∃ (frac : Fin 16) (rising : Bool) (s : State), s.flag F.lensCtl_PPS_POL 0 ≠ rising ∧ s.lens.load = none ∧ s.flag F.lensCtl_PPS_EN 0 = true) ∧
    (∃ (freqOk : Bool) (rails : RailIn) (d v : Nat) (s : State), s.lens.ppsDue = [(d, v)] ∧ d ≤ s.ticks + 1 ∧ porAsserted rails s = false) :=
  ⟨⟨(11, true), 0x123456789ABC, 0xFEDC, State.reset, by decide +kernel⟩,
    ⟨true, [], 77, 3, { State.reset with lens := { State.reset.lens with load := some (77, 3, false) } }, by decide +kernel⟩,
    ⟨3, true, 77, 3, { State.reset with lens := { State.reset.lens with load := some (77, 3, true) } }, by decide +kernel⟩,
    ⟨3, true, withRegs [(F.lensCtl_PPS_EN, 0, 1), (F.lensStat_PPS_ALIGNED, 0, 1)], by decide +kernel⟩,
    ⟨true, [], 5, 77, { State.reset with ticks := 4, lens := { State.reset.lens with ppsDue := [(5, 77)] } }, by decide +kernel⟩⟩

/-- States and operands that meet the hypotheses of ChainTimeWords. -/
theorem witness_ChainTimeWords :
    (∃ (up : Bool) (word : W) (stamp : BitVec 52) (hold : BitVec 16) (b : CtlIn) (s : State), ctlGood 0x33 word b = true ∧ cpUp s (sideOf up) = true ∧ (up = false ∨ s.lens.src ≠ 2) ∧ s.chain.wait = [] ∧ laneFits s (segOut up) 0 false = true) ∧
    (∃ (up : Bool) (word : W) (stamp : BitVec 52) (hold : BitVec 16) (b : CtlIn) (s : State), ctlGood 0x33 word b = true ∧ cpUp s (sideOf up) = true ∧ (up = false ∨ s.lens.src ≠ 2)) ∧
    (∃ (word : W) (stamp : BitVec 52) (hold : BitVec 16) (b : CtlIn) (s : State), ctlGood 0x33 word b = true ∧ cpUp s 0 = true ∧ s.lens.src = 2 ∧ s.get F.lensStat_TB_STATE 0 = 4 ∧ 15 ≤ s.lens.chainGood ∧ (sd52 (stamp - BitVec.ofNat 52 (s.get F.chainTm_DELAY 0)) (stampOf word)).natAbs ≤ 2) ∧
    (∃ (sent received : BitVec 52) (hold : BitVec 16) (b : CtlIn) (s : State), ctlGood 0x36 (echoContent (sent.extractLsb' 4 48) hold.toNat) b = true ∧ cpUp s 0 = true) ∧
    (∃ (sent received : BitVec 52) (hold : BitVec 16) (b : CtlIn) (s : State), ctlGood 0x36 (echoContent (sent.extractLsb' 4 48) hold.toNat) b = true ∧ cpUp s 1 = true) ∧
    (∃ (up : Bool) (word : W) (stamp : BitVec 52) (hold : BitVec 16) (b : CtlIn) (s : State), ctlGood 0x33 word b = false ∧ cpUp s (sideOf up) = true) ∧
    (∃ (up : Bool) (sent received : BitVec 52) (hold : BitVec 16) (b : CtlIn) (s : State), ctlGood 0x36 (echoContent (sent.extractLsb' 4 48) hold.toNat) b = false ∧ cpUp s (sideOf up) = true) :=
  ⟨⟨true, 4096, 65536, 7, ctlSound 0x33 4096, withRegs [(F.cpStat_STATE, 0, 3)], by decide +kernel⟩,
    ⟨true, 4096, 65536, 7, ctlSound 0x33 4096, withRegs [(F.cpStat_STATE, 0, 3)], by decide +kernel⟩,
    ⟨4096, 65537, 7, ctlSound 0x33 4096, { withRegs [(F.cpStat_STATE, 0, 3), (F.lensStat_TB_STATE, 0, 4)] with lens := { State.reset.lens with src := 2, chainGood := 15 } }, by decide +kernel⟩,
    ⟨100, 200, 20, ctlSound 0x36 (echoContent ((100 : BitVec 52).extractLsb' 4 48) 20), withRegs [(F.cpStat_STATE, 0, 3)], by decide +kernel⟩,
    ⟨100, 200, 20, ctlSound 0x36 (echoContent ((100 : BitVec 52).extractLsb' 4 48) 20), withRegs [(F.cpStat_STATE, 1, 3)], by decide +kernel⟩,
    ⟨true, 4096, 65536, 7, ⟨0x33, 0⟩, withRegs [(F.cpStat_STATE, 0, 3)], by decide +kernel⟩,
    ⟨true, 100, 200, 20, ⟨0x33, 0⟩, withRegs [(F.cpStat_STATE, 0, 3)], by decide +kernel⟩⟩

/-- States and operands that meet the hypotheses of LensRegisterCommands. -/
theorem witness_LensRegisterCommands :
    (∃ (who : From) (n : Fin 4) (v : BitVec 34) (s : State), (fromHost who.1 = true ∨ fromCore who.1 = true) ∧ s.fatal = false ∧ trigUses s n = false ∧ groupUses s n = false ∧ n.val < s.lens.coords.length ∧ F.coordCfg_SRC.takes (bits v.toNat F.coordCfg_SRC.lo F.coordCfg_SRC.w) = true ∧ bits v.toNat F.coordCfg_SRC.lo F.coordCfg_SRC.w ≠ s.get F.coordCfg_SRC n) ∧
    (∃ (who : From) (n : Fin 4) (v : BitVec 34) (s : State), (trigUses s n = true ∨ groupUses s n = true)) ∧
    (∃ (who : From) (trans : Fin 128) (v : BitVec 24) (s : State), (fromHost who.1 = true ∨ fromCore who.1 = true) ∧ s.fatal = false ∧ (letOpen s (s.get F.letAddr_ENC 0) = true)) ∧
    (∃ (who : From) (trans : Fin 128) (s : State), s.fatal = false) ∧
    (∃ (who : From) (trans : Fin 128) (v : BitVec 24) (s : State), (fromHost who.1 = true ∨ fromCore who.1 = true) ∧ s.fatal = false ∧ (∀ g : Fin 8, s.flag F.rsCfg_EN g = false)) ∧
    (∃ (who : From) (trans : Fin 128) (s : State), s.fatal = false) :=
  ⟨⟨(11, true), 1, BitVec.ofNat 34 (2 * 2 ^ F.coordCfg_SRC.lo), (withRegs [(F.coordStat_REFD, 1, 1)]).setCoord 1 { Coord.reset with k := 4 }, by decide +kernel⟩,
    ⟨(11, true), 1, 5, withRegs [(F.trigCfg_EN, 3, 1), (F.trigCfg_COORD, 3, 1)], by decide +kernel⟩,
    ⟨(11, true), 3, 9, withRegs [(F.letAddr_AUTOINC, 0, 1), (F.letAddr_INDEX, 0, 4)], by decide +kernel⟩,
    ⟨(11, true), 3, { withRegs [(F.letAddr_AUTOINC, 0, 1), (F.letAddr_INDEX, 0, 4)] with lens := { State.reset.lens with letTab := [(4, 77)] } }, by decide +kernel⟩,
    ⟨(11, true), 3, 9, withRegs [(F.rscAddr_AUTOINC, 0, 1), (F.rscAddr_INDEX, 0, 4)], by decide +kernel⟩,
    ⟨(11, true), 3, { withRegs [(F.rscAddr_AUTOINC, 0, 1), (F.rscAddr_INDEX, 0, 4)] with lens := { State.reset.lens with rsc := [(4, 77)] } }, by decide +kernel⟩⟩

/-- States and operands that meet the hypotheses of LaneStates. -/
theorem witness_LaneStates :
    (∃ (k : Fin 32) (phase : Fin 10) (at_ : BitVec 52) (s : State), laneIn s k = true ∧ s.flag F.laneStat_FAULT k = false ∧ s.getB F.laneCfg_HF_EN k = 0 ∧ s.ticks < (s.lane k).enAt + 2 ^ 20 ∧ s.get F.laneStat_STATE k = 1 ∧ (s.lane k).phase = phase ∧ 3 ≤ (s.lane k).commas) ∧
    (∃ (k : Fin 32) (phase : Fin 10) (at_ : BitVec 52) (s : State), laneIn s k = true ∧ s.flag F.laneStat_FAULT k = false ∧ s.getB F.laneCfg_HF_EN k = 0 ∧ s.ticks < (s.lane k).enAt + 2 ^ 20 ∧ 2 ≤ s.get F.laneStat_STATE k ∧ s.get F.laneStat_STATE k ≤ 4 ∧ (s.lane k).phase ≠ phase) ∧
    (∃ (k : Fin 32) (n : Nat) (at_ : BitVec 52) (s : State), laneIn s k = true ∧ s.flag F.laneStat_FAULT k = false ∧ s.getB F.laneCfg_HF_EN k = 0 ∧ s.ticks < (s.lane k).enAt + 2 ^ 20 ∧ ((s.get F.laneStat_STATE k = 2 ∧ 64 ≤ n) ∨ (s.get F.laneStat_STATE k = 4 ∧ 1 ≤ n))) ∧
    (∃ (k : Fin 32) (at_ : BitVec 52) (s : State), laneIn s k = true ∧ s.flag F.laneStat_FAULT k = false ∧ s.getB F.laneCfg_HF_EN k = 0 ∧ s.ticks < (s.lane k).enAt + 2 ^ 20 ∧ (s.get F.laneStat_STATE k = 4 ∨ (s.get F.laneStat_STATE k = 3 ∧ (s.lane k).soft = true)) ∧ s.get F.laneCfg_EXPECT k ≠ 0 ∧ 200 * (s.get F.laneCfg_EXPECT k : Int) + 100 ≤ sd52 at_ (s.lane k).sofAt) ∧
    (∃ (k : Fin 32) (at_ : BitVec 52) (s : State), sd52 at_ (s.lane k).sofAt < 200 * (s.get F.laneCfg_EXPECT k : Int) + 100) ∧
    (∃ (k : Fin 32) (s : State), laneIn s k = true ∧ s.flag F.laneStat_FAULT k = false ∧ s.get F.laneStat_STATE k ≠ 4 ∧ (s.lane k).soft = false ∧ (s.lane k).enAt + 2 ^ 20 ≤ s.ticks ∧ s.getB F.laneCfg_LANE_ILK k = 0 ∧ s.flt.live.contains (pairKey 23 (loc 5 k)) = false) :=
  ⟨⟨3, 7, 0, { withRegs [(F.laneCfg_EN, 3, 1), (F.laneCfg_DIR, 3, 1), (F.laneStat_STATE, 3, 1)] with sc := { State.reset.sc with lanes := [(3, { Lane.empty with phase := 7, commas := 3, enAt := 5 })] } }, by decide +kernel⟩,
    ⟨3, 8, 0, { withRegs [(F.laneCfg_EN, 3, 1), (F.laneCfg_DIR, 3, 1), (F.laneStat_STATE, 3, 4)] with sc := { State.reset.sc with lanes := [(3, { Lane.empty with phase := 7, commas := 4, enAt := 5 })] } }, by decide +kernel⟩,
    ⟨3, 64, 0, { withRegs [(F.laneCfg_EN, 3, 1), (F.laneCfg_DIR, 3, 1), (F.laneStat_STATE, 3, 2)] with sc := { State.reset.sc with lanes := [(3, { Lane.empty with phase := 7, commas := 4, enAt := 5 })] } }, by decide +kernel⟩,
    ⟨3, 8100, { withRegs [(F.laneCfg_EN, 3, 1), (F.laneCfg_DIR, 3, 1), (F.laneCfg_EXPECT, 3, 40), (F.laneStat_STATE, 3, 4)] with sc := { State.reset.sc with lanes := [(3, { Lane.empty with phase := 7, commas := 4, enAt := 5 })] } }, by decide +kernel⟩,
    ⟨3, 8099, { withRegs [(F.laneCfg_EN, 3, 1), (F.laneCfg_DIR, 3, 1), (F.laneCfg_EXPECT, 3, 40), (F.laneStat_STATE, 3, 4)] with sc := { State.reset.sc with lanes := [(3, { Lane.empty with phase := 7, commas := 4, enAt := 5 })] } }, by decide +kernel⟩,
    ⟨3, { { withRegs [(F.laneCfg_EN, 3, 1), (F.laneCfg_DIR, 3, 1), (F.laneStat_STATE, 3, 1)] with sc := { State.reset.sc with lanes := [(3, { Lane.empty with phase := 7, commas := 0, enAt := 5 })] } } with ticks := 1048590 }, by decide +kernel⟩⟩

/-- States and operands that meet the hypotheses of FramesAndPackingFifos. -/
theorem witness_FramesAndPackingFifos :
    (∃ (k : Fin 32) (f : FrameIn) (h : BitVec 8) (xs : List (BitVec 24 × BitVec 8)) (s : State), laneIn s k = true ∧ s.flag F.laneStat_FAULT k = false ∧ s.getB F.laneCfg_HF_EN k = 0 ∧ s.ticks < (s.lane k).enAt + 2 ^ 20 ∧ (s.get F.laneStat_STATE k = 3 ∨ s.get F.laneStat_STATE k = 4) ∧ (s.lane k).rxPos = 0 ∧ xs.length = 8 ∧ f.groups = (encodeRun f.rd (frameBytes h.toNat (xs.map fun x => (x.1.toNat, x.2.toNat)))).1) ∧
    (∃ (k : Fin 32) (f : FrameIn) (s : State), laneIn s k = true ∧ s.flag F.laneStat_FAULT k = false ∧ s.getB F.laneCfg_HF_EN k = 0 ∧ s.ticks < (s.lane k).enAt + 2 ^ 20 ∧ (s.get F.laneStat_STATE k = 3 ∨ s.get F.laneStat_STATE k = 4) ∧ (s.lane k).rxPos = 0 ∧ f.groups = [encode10 true sofCode f.rd]) ∧
    (∃ (k : Fin 32) (f : FrameIn) (g : BitVec 10) (s : State), laneIn s k = true ∧ s.flag F.laneStat_FAULT k = false ∧ s.getB F.laneCfg_HF_EN k = 0 ∧ s.ticks < (s.lane k).enAt + 2 ^ 20 ∧ (s.get F.laneStat_STATE k = 3 ∨ s.get F.laneStat_STATE k = 4) ∧ (s.lane k).rxPos = 0 ∧ f.groups = [g] ∧ decode10 g f.rd = .invalid ∧ s.getB F.laneCfg_CERR_LIM k = 0) ∧
    (∃ (k : Fin 96) (w : PfWord) (n : Nat) (s : State), (s.fifo k).part = some (w, n) ∧ (s.fifo k).done = none ∧ (s.fifo k).chain.length < 16 ∧ s.get F.pfCfg_IDLE k ≠ 0) ∧
    (∃ (k : Fin 32) (w : PfWord) (l : List PfWord) (s : State), s.fatal = false ∧ (s.fifo k).chain = w :: l ∧ (s.fifo k).done = none ∧ s.flag F.injCtl_ARM 0 = false ∧ w.gap = false ∧ w.err = false ∧ w.pos = 0) ∧
    (∃ (k : Fin 32) (w : PfWord) (l : List PfWord) (s : State), s.fatal = false ∧ (s.fifo k).chain = w :: l ∧ (s.fifo k).done = none ∧ s.flag F.injCtl_ARM 0 = false ∧ w.gap = false ∧ w.err = false ∧ w.pos ≠ 0 ∧ (s.lane k).unSkip = false) ∧
    (∃ (who : From) (k : Fin 96) (l : List PfWord) (n : Nat) (s : State), s.fatal = false ∧ (k.val < 32 ∨ s.flag F.capCfg_EN (k - 32) = false) ∧ (s.fifo k).done = none ∧ (s.fifo k).dropping = false ∧ afterLast (s.fifo k).chain = some (l, n)) ∧
    (∃ (who : From) (k : Fin 96) (s : State), s.fatal = false ∧ (k.val < 32 ∨ s.flag F.capCfg_EN (k - 32) = false) ∧ (s.fifo k).done = none ∧ (s.fifo k).dropping = false ∧ afterLast (s.fifo k).chain = none) :=
  ⟨⟨3, { stamp := 5000, block := 2, pos := 9, rd := true, groups := (encodeRun true (frameBytes 0x50 (((List.range 8).map fun j => (BitVec.ofNat 24 (0x123456 + j), BitVec.ofNat 8 (0x40 + j))).map fun x => (x.1.toNat, x.2.toNat)))).1 }, 0x50, ((List.range 8).map fun j => (BitVec.ofNat 24 (0x123456 + j), BitVec.ofNat 8 (0x40 + j))), { withRegs [(F.laneCfg_EN, 3, 1), (F.laneCfg_DIR, 3, 1), (F.laneCfg_FMT, 3, 1), (F.laneStat_STATE, 3, 3)] with sc := { State.reset.sc with lanes := [(3, { Lane.empty with phase := 7, commas := 4, enAt := 5 })] } }, by decide +kernel⟩,
    ⟨3, { stamp := 5000, block := 2, pos := 9, rd := true, groups := [encode10 true 0xBC true] }, { withRegs [(F.laneCfg_EN, 3, 1), (F.laneCfg_DIR, 3, 1), (F.laneStat_STATE, 3, 3)] with sc := { State.reset.sc with lanes := [(3, { Lane.empty with phase := 7, commas := 4, enAt := 5 })] } }, by decide +kernel⟩,
    ⟨3, { stamp := 5000, block := 2, pos := 9, rd := true, groups := [0] }, 0, { withRegs [(F.laneCfg_EN, 3, 1), (F.laneCfg_DIR, 3, 1), (F.laneCfg_CERR_LIM, 3, 0), (F.laneStat_STATE, 3, 3)] with sc := { State.reset.sc with lanes := [(3, { Lane.empty with phase := 7, commas := 4, enAt := 5 })] } }, by decide +kernel⟩,
    ⟨3, { data := 5, vb := 0, last := false, gap := false, err := false, pos := 1, t := 9, st := 0 }, 16, { withRegs [(F.pfCfg_IDLE, 3, 5)] with sc := { State.reset.sc with fifos := [(3, { Fifo.empty with part := some ({ data := 5, vb := 0, last := false, gap := false, err := false, pos := 1, t := 9, st := 0 }, 16) })] } }, by decide +kernel⟩,
    ⟨3, { data := 0x50, vb := 1, last := false, gap := false, err := false, pos := 0, t := 9, st := 0 }, [], { State.reset with sc := { State.reset.sc with fifos := [(3, { Fifo.empty with chain := [{ data := 0x50, vb := 1, last := false, gap := false, err := false, pos := 0, t := 9, st := 0 }] })] } }, by decide +kernel⟩,
    ⟨3, { data := 0x40563412, vb := 4, last := false, gap := false, err := false, pos := 2, t := 9, st := 0 }, [], { State.reset with sc := { State.reset.sc with fifos := [(3, { Fifo.empty with chain := [{ data := 0x40563412, vb := 4, last := false, gap := false, err := false, pos := 2, t := 9, st := 0 }] })] } }, by decide +kernel⟩,
    ⟨(11, true), 3, [], 1, { State.reset with sc := { State.reset.sc with fifos := [(3, { Fifo.empty with chain := [{ data := 5, vb := 1, last := true, gap := false, err := false, pos := 0, t := 9, st := 0 }] })] } }, by decide +kernel⟩,
    ⟨(11, true), 3, { State.reset with sc := { State.reset.sc with fifos := [(3, { Fifo.empty with chain := [{ data := 5, vb := 1, last := false, gap := false, err := false, pos := 0, t := 9, st := 0 }] })] } }, by decide +kernel⟩⟩

/-- States and operands that meet the hypotheses of OutputLanesAndInterlockWrites. -/
theorem witness_OutputLanesAndInterlockWrites :
    (∃ (k : Fin 32) (slots : List (Nat × Nat)) (fatal : Bool) (s : State), laneOut s k = true ∧ s.get F.laneStat_STATE k = 6 ∧ (s.lane k).latch = some (slots, fatal)) ∧
    (∃ (k : Fin 32) (freqOk : Bool) (rails : RailIn) (s : State), laneOut s k = true ∧ s.get F.laneStat_STATE k = 6 ∧ (s.lane k).latch = none ∧ s.sc.ending = [] ∧ (s.lane k).capture ≤ s.stamp64 ∧ mfind s.old (F.laneCfg_EN.key k) = none ∧ porAsserted rails s = false) ∧
    (∃ (c : Fin 256) (s : State), s.sc.ending.contains c.val = true) ∧
    (∃ (who : From) (k : Fin 32) (en : Bool) (s : State), s.fatal = false ∧ fromSv who.1 = true ∧ who.2 = true) ∧
    (∃ (k : Fin 32) (freqOk : Bool) (rails : RailIn) (s : State), mfind s.old (F.laneCfg_EN.key k) = some 0 ∧ s.flag F.laneCfg_EN k = true ∧ s.get F.laneCfg_DIR k = 1 ∧ porAsserted rails s = false) ∧
    (∃ (who : From) (v : BitVec 8) (s : State), s.fatal = false ∧ fromSv who.1 = true ∧ who.2 = true) ∧
    (∃ (who : From) (v : BitVec 8) (s : State), s.fatal = false ∧ fromSv who.1 = true ∧ who.2 = true) ∧
    (∃ (who : From) (i : Fin 8) (v : BitVec 32) (s : State), s.fatal = false ∧ fromSv who.1 = true ∧ who.2 = true) ∧
    (∃ (who : From) (ch : Fin 256) (v : BitVec 24) (s : State), s.fatal = false ∧ fromSv who.1 = true ∧ who.2 = true) ∧
    (∃ (who : From) (i : Fin 8) (ch : Fin 256) (v : BitVec 8) (s : State), (fromSv who.1 = false ∨ who.2 = false)) :=
  ⟨⟨3, [(77, 0x40), (5, 0x80)], false, { withRegs [(F.laneCfg_EN, 3, 1), (F.laneCfg_DIR, 3, 2), (F.laneStat_STATE, 3, 6)] with sc := { State.reset.sc with lanes := [(3, { Lane.empty with latch := some ([(77, 0x40), (5, 0x80)], false) })] } }, by decide +kernel⟩,
    ⟨3, true, [], withRegs [(F.laneCfg_EN, 3, 1), (F.laneCfg_DIR, 3, 2), (F.laneStat_STATE, 3, 6), (F.chStat_SAMPLE, 25, 77)], by decide +kernel⟩,
    ⟨25, { withRegs [(F.chStat_SAMPLE, 25, 77), (F.chStat_FORCED, 25, 1)] with sc := { State.reset.sc with ending := [24, 25] } }, by decide +kernel⟩,
    ⟨(13, true), 3, true, { withRegs [(F.laneCfg_DIR, 3, 1)] with ticks := 9 }, by decide +kernel⟩,
    ⟨3, true, [], { withRegs [(F.laneCfg_EN, 3, 1), (F.laneCfg_DIR, 3, 1)] with ticks := 9, old := [(F.laneCfg_EN.key 3, 0)] }, by decide +kernel⟩,
    ⟨(13, true), 0x0F, State.reset, by decide +kernel⟩,
    ⟨(13, true), 0x10, withRegs [(F.laneCfg_EN, 3, 1), (F.laneCfg_DIR, 3, 2), (F.chSafe_SAFE_ILK, 25, 16), (F.ilkStat_LATCH, 0, 0)], by decide +kernel⟩,
    ⟨(13, true), 2, 9, State.reset, by decide +kernel⟩,
    ⟨(13, true), 25, 77, State.reset, by decide +kernel⟩,
    ⟨(11, true), 0, 0, 1, State.reset, by decide +kernel⟩⟩

/-- States and operands that meet the hypotheses of FlitsCrossSegmentsAndTimersExpire. -/
theorem witness_FlitsCrossSegmentsAndTimersExpire :
    (∃ (seg : Fin 49152) (cyc rcyc g2 : Nat) (f : Flit) (fg : Bool) (errs : List FlitErr) (s : State), s.fatal = false ∧ segFrom seg ≠ nodeOutside ∧ segTo seg < 128 ∧ segExists seg = true ∧ (match mfind s.net.last seg with | some l => decide (cyc ≤ l) | none => false) = false ∧ nodeOn s (segFrom seg) = true ∧ nodeOn s (segTo seg) = true ∧ winner s seg cyc = some (f, fg) ∧ s.flag F.injCtl_ARM 0 = false ∧ (errs.all fun e => e.check = 0) = true ∧ f.ty ≠ 1 ∧ routeAt s (segTo seg) (some seg.val) (flitDest f) (f.ty = 1 && reqOp f.pay = 10) = some g2) ∧
    (∃ (seg : Fin 49152) (cyc rcyc : Nat) (f : Flit) (fg : Bool) (raw : BitVec 160) (s : State), s.fatal = false ∧ segFrom seg ≠ nodeOutside ∧ segTo seg < 128 ∧ segExists seg = true ∧ (match mfind s.net.last seg with | some l => decide (cyc ≤ l) | none => false) = false ∧ nodeOn s (segFrom seg) = true ∧ nodeOn s (segTo seg) = true ∧ winner s seg cyc = some (f, fg) ∧ s.flag F.injCtl_ARM 0 = false) ∧
    (∃ (x : Timed) (s : State), s.fatal = false ∧ (s.net.timed.find? fun y => y.expired s) = some x ∧ bits x.ret 11 4 = 8 ∧ bits x.ret 7 4 < 14) ∧
    (∃ (x : Timed) (s : State), s.fatal = false ∧ (s.net.timed.find? fun y => y.expired s) = some x ∧ bits x.ret 11 4 < 8 ∧ s.flag F.toInfo_VALID (cIdx (bits x.ret 11 4) (bits x.ret 7 4)) = false) :=
  ⟨⟨0, 40, 60, 64, (⟨0, false, tokPay (⟨mkTag 0 0 2 5 1 0 3 0, 100, 77, false⟩ : Token), [], 0, 0, 3, 0, 0, none, some 0, none, ⟨7, 8, 9⟩⟩ : Flit), false, [], { withRegs [(F.fclkCtl_STOPPED, 0, 0)] with net := { State.reset.net with flits := [(⟨0, false, tokPay (⟨mkTag 0 0 2 5 1 0 3 0, 100, 77, false⟩ : Token), [], 0, 0, 3, 0, 0, none, some 0, none, ⟨7, 8, 9⟩⟩ : Flit)] } }, by decide +kernel⟩,
    ⟨0, 40, 60, (⟨0, false, tokPay (⟨mkTag 0 0 2 5 1 0 3 0, 100, 77, false⟩ : Token), [], 0, 0, 3, 0, 0, none, some 0, none, ⟨7, 8, 9⟩⟩ : Flit), false, 0x123456789ABCDEF0123456789ABCDEF012345678, { withRegs [(F.fclkCtl_STOPPED, 0, 0)] with net := { State.reset.net with flits := [(⟨0, false, tokPay (⟨mkTag 0 0 2 5 1 0 3 0, 100, 77, false⟩ : Token), [], 0, 0, 3, 0, 0, none, some 0, none, ⟨7, 8, 9⟩⟩ : Flit)] } }, by decide +kernel⟩,
    ⟨⟨8 * 2 ^ 11 + 11 * 2 ^ 7 + 5, 100, 1, 0, true, 0, 50, false, false⟩, { State.reset with ticks := 50, net := { State.reset.net with timed := [⟨8 * 2 ^ 11 + 11 * 2 ^ 7 + 5, 100, 1, 0, true, 0, 50, false, false⟩] } }, by decide +kernel⟩,
    ⟨⟨3 * 2 ^ 7 + 5, 100, 1, 2, false, 0, 50, false, false⟩, { State.reset with ticks := 50, net := { State.reset.net with timed := [⟨3 * 2 ^ 7 + 5, 100, 1, 2, false, 0, 50, false, false⟩] } }, by decide +kernel⟩⟩

/-- States and operands that meet the hypotheses of SystemReadsAndWritesReachMemory. -/
theorem witness_SystemReadsAndWritesReachMemory :
    (∃ (x : HubAcc) (s : State), s.fatal = false ∧ direct s x.addr = true ∧ x.half = false ∧ (localOf s x.addr) % 8 = 0 ∧ (placeOf (localOf s x.addr) = some .ctlMem ∨ placeOf (localOf s x.addr) = some .mcRam) ∧ s.flag F.injCtl_ARM 0 = false) ∧
    (∃ (x : HubAcc) (v : BitVec 64) (s : State), s.fatal = false ∧ direct s x.addr = true ∧ x.half = false ∧ (localOf s x.addr) % 8 = 0 ∧ (placeOf (localOf s x.addr) = some .ctlMem ∨ placeOf (localOf s x.addr) = some .mcRam) ∧ s.flag F.svCtl_LOCK 0 = false) ∧
    (∃ (f : Flit) (u : State) (s : State), s.fatal = false ∧ takeSys (fun o => o ≠ 2 && o ≠ 13) s = some (f, u) ∧ badReq f = false ∧ reqOp f.pay = 1 ∧ reqArg f.pay % 2 = 0 ∧ (localOf u (reqAddr f.pay)) % 8 = 0 ∧ (placeOf (localOf u (reqAddr f.pay)) = some .ctlMem ∨ placeOf (localOf u (reqAddr f.pay)) = some .mcRam) ∧ u.flag F.injCtl_ARM 0 = false) ∧
    (∃ (f : Flit) (u : State) (v : BitVec 64) (s : State), s.fatal = false ∧ takeSys (· = 2) s = some (f, u) ∧ badReq f = false ∧ reqArg f.pay % 2 = 0 ∧ (localOf u (reqAddr f.pay)) % 8 = 0 ∧ placeOf (localOf u (reqAddr f.pay)) = some .ctlMem ∧ u.flag F.svCtl_LOCK 0 = false) ∧
    (∃ (f : Flit) (q : List Flit) (s : State), s.fatal = false ∧ s.net.sysQ = f :: q ∧ reqOp f.pay = 13 ∧ badReq f = false ∧ localOf s (reqAddr f.pay) % 8 = 0 ∧ s.flag F.svCtl_LOCK 0 = false ∧ (∀ i : Fin 32, i.val < (bulkWords f).length → placeOf (localOf s (reqAddr f.pay) + 8 * i) = some .ctlMem) ∧ (bulkWords f).length ≤ 32) :=
  ⟨⟨⟨11, 5, true, BitVec.ofNat 48 (hubAddr 0x1008), false⟩, { State.reset with mem := [(hubAddr 0x1008, 5), (hubAddr 0x100F, 1)] }, by decide +kernel⟩,
    ⟨⟨11, 5, true, BitVec.ofNat 48 (hubAddr 0x1008), false⟩, 0x0102030405060708, State.reset, by decide +kernel⟩,
    ⟨(mkFlit 1 false (reqPay (BitVec.ofNat 48 (hubAddr 0x1008)) 0 1 0 true (3 * 2 ^ 7) 0) [] 8 0 nodeHub), ((takeSys (fun o => o ≠ 2 && o ≠ 13) { State.reset with net := { State.reset.net with sysQ := [(mkFlit 1 false (reqPay (BitVec.ofNat 48 (hubAddr 0x1008)) 0 1 0 true (3 * 2 ^ 7) 0) [] 8 0 nodeHub)] } }).map (·.2)).getD State.reset, { State.reset with net := { State.reset.net with sysQ := [(mkFlit 1 false (reqPay (BitVec.ofNat 48 (hubAddr 0x1008)) 0 1 0 true (3 * 2 ^ 7) 0) [] 8 0 nodeHub)] } }, by decide +kernel⟩,
    ⟨({ mkFlit 1 false (reqPay (BitVec.ofNat 48 (hubAddr 0x1008)) 7 2 0 true (3 * 2 ^ 7) 0) [] 8 0 nodeHub with side := ⟨5, 0, 0⟩ } : Flit), ((takeSys (· = 2) { State.reset with net := { State.reset.net with sysQ := [({ mkFlit 1 false (reqPay (BitVec.ofNat 48 (hubAddr 0x1008)) 7 2 0 true (3 * 2 ^ 7) 0) [] 8 0 nodeHub with side := ⟨5, 0, 0⟩ } : Flit)] } }).map (·.2)).getD State.reset, 0, { State.reset with net := { State.reset.net with sysQ := [({ mkFlit 1 false (reqPay (BitVec.ofNat 48 (hubAddr 0x1008)) 7 2 0 true (3 * 2 ^ 7) 0) [] 8 0 nodeHub with side := ⟨5, 0, 0⟩ } : Flit)] } }, by decide +kernel⟩,
    ⟨(mkFlit 3 false (reqPay (BitVec.ofNat 48 (hubAddr 0x1008)) 7 13 0 true (8 * 2 ^ 11 + 11 * 2 ^ 7) 3) [0x5] 8 0 nodeHub), [], { State.reset with net := { State.reset.net with sysQ := [(mkFlit 3 false (reqPay (BitVec.ofNat 48 (hubAddr 0x1008)) 7 13 0 true (8 * 2 ^ 11 + 11 * 2 ^ 7) 3) [0x5] 8 0 nodeHub)] } }, by decide +kernel⟩⟩

/-- States and operands that meet the hypotheses of OutputsReachTheirTargets. -/
theorem witness_OutputsReachTheirTargets :
    (∃ (f : Flit) (q : List Flit) (s : State), s.fatal = false ∧ s.net.outQ = f :: q ∧ badReq f = false ∧ performed s (outOf f) = true ∧ (s.out.waiting.any fun w => waitsBehind w (outOf f)) = false ∧ mustWait s (outOf f) = false ∧ (outOf f).emitAt = false ∧ (outOf f).ack = false ∧ 0 ≤ sdiff (outOf f).due s.t ∧ (outOf f).kind = 2) ∧
    (∃ (f : Flit) (q : List Flit) (s : State), s.fatal = false ∧ s.net.outQ = f :: q ∧ badReq f = false ∧ performed s (outOf f) = true ∧ (s.out.waiting.any fun w => waitsBehind w (outOf f)) = false ∧ mustWait s (outOf f) = false ∧ (outOf f).emitAt = false ∧ (outOf f).ack = false ∧ 0 ≤ sdiff (outOf f).due s.t ∧ (outOf f).kind = 1) ∧
    (∃ (f : Flit) (q : List Flit) (s : State), s.fatal = false ∧ s.net.outQ = f :: q ∧ badReq f = false ∧ performed s (outOf f) = true ∧ (s.out.waiting.any fun w => waitsBehind w (outOf f)) = false ∧ mustWait s (outOf f) = false ∧ (outOf f).emitAt = false ∧ (outOf f).ack = false ∧ 0 ≤ sdiff (outOf f).due s.t ∧ (outOf f).kind = 4) ∧
    (∃ (f : Flit) (q : List Flit) (s : State), s.fatal = false ∧ s.net.outQ = f :: q ∧ badReq f = false ∧ performed s (outOf f) = true ∧ (s.out.waiting.any fun w => waitsBehind w (outOf f)) = false ∧ mustWait s (outOf f) = false ∧ (outOf f).emitAt = false ∧ (outOf f).ack = false ∧ 0 ≤ sdiff (outOf f).due s.t ∧ (outOf f).kind = 5) ∧
    (∃ (f : Flit) (q : List Flit) (s : State), s.fatal = false ∧ s.net.outQ = f :: q ∧ badReq f = false ∧ performed s (outOf f) = true ∧ (s.out.waiting.any fun w => waitsBehind w (outOf f)) = false ∧ mustWait s (outOf f) = false ∧ (outOf f).emitAt = false ∧ (outOf f).ack = false ∧ 0 ≤ sdiff (outOf f).due s.t ∧ (outOf f).kind = 3) ∧
    (∃ (f : Flit) (q : List Flit) (s : State), s.fatal = false ∧ s.net.outQ = f :: q ∧ badReq f = false ∧ performed s (outOf f) = true ∧ (s.out.waiting.any fun w => waitsBehind w (outOf f)) = false ∧ mustWait s (outOf f) = false ∧ (outOf f).emitAt = true ∧ 0 < sdiff (outOf f).due s.t) ∧
    (∃ (f : Flit) (q : List Flit) (s : State), s.fatal = false ∧ s.net.outQ = f :: q ∧ badReq f = false ∧ performed s (outOf f) = true ∧ (s.out.waiting.any fun w => waitsBehind w (outOf f)) = true ∨ mustWait s (outOf f) = true) ∧
    (∃ (f : Flit) (q : List Flit) (s : State), s.fatal = false ∧ s.net.outQ = f :: q ∧ badReq f = false ∧ performed s (outOf f) = false ∧ (outOf f).ack = false) ∧
    (∃ (f : Flit) (q : List Flit) (s : State), s.fatal = false ∧ s.net.outQ = f :: q ∧ badReq f = true ∧ wantsRsp f = false) ∧
    (∃ (f : Flit) (q : List Flit) (s : State), s.fatal = false ∧ s.net.outQ = f :: q ∧ badReq f = false ∧ performed s (outOf f) = true ∧ (s.out.waiting.any fun w => waitsBehind w (outOf f)) = false ∧ mustWait s (outOf f) = false ∧ (outOf f).emitAt = false ∧ (outOf f).kind = 2 ∧ (outOf f).ack = true ∧ 0 ≤ sdiff (outOf f).due s.t ∧ bits (outOf f).ret 11 4 < 8 ∧ undeliverable s (mkFlit 2 false (rspPay (outOf f).ret 0 s.t 0) [] (outOf f).part (rspUrg s (outOf f).part (outOf f).urg) nodeHub) = false) ∧
    (∃ (f : Flit) (q : List Flit) (s : State), s.fatal = false ∧ s.net.outQ = f :: q ∧ badReq f = false ∧ performed s (outOf f) = true ∧ (s.out.waiting.any fun w => waitsBehind w (outOf f)) = false ∧ mustWait s (outOf f) = false ∧ (outOf f).emitAt = false ∧ (outOf f).kind = 2 ∧ (outOf f).ack = false ∧ sdiff (outOf f).due s.t < 0 ∧ s.pState (outOf f).part = pGuaranteed ∧ s.flag F.missInfo_VALID 0 = false) ∧
    (∃ (o : OutVal) (r : List OutVal) (s : State), s.fatal = false ∧ takeFirst (fun o => sdiff o.due s.t ≤ 0 && !targetFull s o) s.out.held = some (o, r) ∧ o.ack = false ∧ performed s o = true ∧ o.emitAt = true ∧ (sdiff o.due s.t = -1 ∨ sdiff o.due s.t = 0 ∧ outsNow s o = 0)) ∧
    (∃ (o : OutVal) (r : List OutVal) (s : State), s.fatal = false ∧ takeFirst (fun o => sdiff o.due s.t ≤ 0 && !targetFull s o) s.out.held = some (o, r) ∧ o.ack = false ∧ performed s o = true ∧ o.emitAt = true ∧ sdiff o.due s.t = 0 ∧ 0 < outsNow s o ∧ o.kind ≠ 3 ∧ o.kind ≠ 5) ∧
    (∃ (o : OutVal) (r : List OutVal) (s : State), s.fatal = false ∧ takeFirst (fun o => sdiff o.due s.t ≤ 0 && !targetFull s o) s.out.held = some (o, r) ∧ o.ack = false ∧ performed s o = true ∧ o.emitAt = true ∧ sdiff o.due s.t = 0 ∧ 0 < outsNow s o ∧ o.kind = 5) ∧
    (∃ (o : OutVal) (r : List OutVal) (s : State), s.fatal = false ∧ firstRoom s [] s.out.waiting = some (o, r) ∧ o.ack = false ∧ performed s o = true ∧ (o.emitAt = false ∨ sdiff o.due s.t ≤ 0 ∧ outsNow s o = 0) ∧ 0 ≤ sdiff o.due s.t) ∧
    (∃ (o : OutVal) (r : List OutVal) (s : State), s.fatal = false ∧ firstRoom s [] s.out.waiting = some (o, r) ∧ performed s o = true ∧ o.emitAt = true ∧ 0 < sdiff o.due s.t) :=
  ⟨⟨(mkFlit 3 false (reqPay (BitVec.ofNat 48 (2 * 2 ^ 36 + 5)) 0x123456789ABC 12 2 false 0 1) [0] 2 0 nodeHub), [], { withRegs [] with net := { State.reset.net with outQ := [(mkFlit 3 false (reqPay (BitVec.ofNat 48 (2 * 2 ^ 36 + 5)) 0x123456789ABC 12 2 false 0 1) [0] 2 0 nodeHub)] }, ap := { State.reset.ap with tgts := [⟨2, 5, 2, 0⟩] } }, by decide +kernel⟩,
    ⟨(mkFlit 3 false (reqPay (BitVec.ofNat 48 (1 * 2 ^ 36 + 5)) 0x123456789ABC 12 2 false 0 1) [0] 2 0 nodeHub), [], { withRegs [(F.laneCfg_DIR, 0, 2), (F.laneCfg_EN, 0, 1)] with net := { State.reset.net with outQ := [(mkFlit 3 false (reqPay (BitVec.ofNat 48 (1 * 2 ^ 36 + 5)) 0x123456789ABC 12 2 false 0 1) [0] 2 0 nodeHub)] }, ap := { State.reset.ap with tgts := [⟨1, 5, 2, 0⟩] } }, by decide +kernel⟩,
    ⟨(mkFlit 3 false (reqPay (BitVec.ofNat 48 (4 * 2 ^ 36 + 5)) 0x123456789ABC 12 2 false 0 1) [0] 2 0 nodeHub), [], { withRegs [(F.ilkStat_FLAG, 0, 0x81)] with net := { State.reset.net with outQ := [(mkFlit 3 false (reqPay (BitVec.ofNat 48 (4 * 2 ^ 36 + 5)) 0x123456789ABC 12 2 false 0 1) [0] 2 0 nodeHub)] }, ap := { State.reset.ap with tgts := [⟨4, 5, 2, 0⟩] } }, by decide +kernel⟩,
    ⟨(mkFlit 3 false (reqPay (BitVec.ofNat 48 (5 * 2 ^ 36 + 5)) 0x123456789ABC 12 2 false 0 1) [0] 2 0 nodeHub), [], { withRegs [] with net := { State.reset.net with outQ := [(mkFlit 3 false (reqPay (BitVec.ofNat 48 (5 * 2 ^ 36 + 5)) 0x123456789ABC 12 2 false 0 1) [0] 2 0 nodeHub)] }, ap := { State.reset.ap with tgts := [⟨5, 5, 2, 0⟩] } }, by decide +kernel⟩,
    ⟨(mkFlit 3 false (reqPay (BitVec.ofNat 48 (3 * 2 ^ 36 + 5)) 0x123456789ABC 12 2 false 0 1) [0] 2 0 nodeHub), [], { withRegs [(F.capCfg_MODE, 5, 1), (F.capCfg_EN, 5, 1)] with net := { State.reset.net with outQ := [(mkFlit 3 false (reqPay (BitVec.ofNat 48 (3 * 2 ^ 36 + 5)) 0x123456789ABC 12 2 false 0 1) [0] 2 0 nodeHub)] }, ap := { State.reset.ap with tgts := [⟨3, 5, 2, 0⟩] } }, by decide +kernel⟩,
    ⟨(mkFlit 3 false (reqPay (BitVec.ofNat 48 (2 * 2 ^ 36 + 5)) 0x123456789ABC 12 2 false 0 (1 + 2 ^ 20)) [0] 2 0 nodeHub), [], { withRegs [] with net := { State.reset.net with outQ := [(mkFlit 3 false (reqPay (BitVec.ofNat 48 (2 * 2 ^ 36 + 5)) 0x123456789ABC 12 2 false 0 (1 + 2 ^ 20)) [0] 2 0 nodeHub)] }, ap := { State.reset.ap with tgts := [⟨2, 5, 2, 0⟩] }, t := 0xFFFFFFFFFF00 }, by decide +kernel⟩,
    ⟨(mkFlit 3 false (reqPay (BitVec.ofNat 48 (2 * 2 ^ 36 + 5)) 0x123456789ABC 12 2 false 0 1) [0] 2 0 nodeHub), [], { withRegs [] with net := { State.reset.net with outQ := [(mkFlit 3 false (reqPay (BitVec.ofNat 48 (2 * 2 ^ 36 + 5)) 0x123456789ABC 12 2 false 0 1) [0] 2 0 nodeHub)] }, ap := { State.reset.ap with tgts := [⟨2, 5, 2, 0⟩] }, out := ⟨[], [⟨2, 5, 0x123456789ABC, 100, 2, 0, false, false, false, 0, 0, 0⟩], []⟩ }, by decide +kernel⟩,
    ⟨(mkFlit 3 false (reqPay (BitVec.ofNat 48 (2 * 2 ^ 36 + 6)) 0x123456789ABC 12 2 false 0 1) [0] 2 0 nodeHub), [], { withRegs [] with net := { State.reset.net with outQ := [(mkFlit 3 false (reqPay (BitVec.ofNat 48 (2 * 2 ^ 36 + 6)) 0x123456789ABC 12 2 false 0 1) [0] 2 0 nodeHub)] }, ap := { State.reset.ap with tgts := [⟨2, 5, 2, 0⟩] } }, by decide +kernel⟩,
    ⟨(mkFlit 3 false (reqPay (BitVec.ofNat 48 (2 * 2 ^ 36 + 5)) 0x123456789ABC 12 2 false 0 3) [0] 2 0 nodeHub), [], { withRegs [] with net := { State.reset.net with outQ := [(mkFlit 3 false (reqPay (BitVec.ofNat 48 (2 * 2 ^ 36 + 5)) 0x123456789ABC 12 2 false 0 3) [0] 2 0 nodeHub)] }, ap := { State.reset.ap with tgts := [⟨2, 5, 2, 0⟩] } }, by decide +kernel⟩,
    ⟨(mkFlit 3 false (reqPay (BitVec.ofNat 48 (2 * 2 ^ 36 + 5)) 0x123456789ABC 12 2 false 0 (1 + 2 ^ 19)) [0] 2 0 nodeHub), [], { withRegs [] with net := { State.reset.net with outQ := [(mkFlit 3 false (reqPay (BitVec.ofNat 48 (2 * 2 ^ 36 + 5)) 0x123456789ABC 12 2 false 0 (1 + 2 ^ 19)) [0] 2 0 nodeHub)] }, ap := { State.reset.ap with tgts := [⟨2, 5, 2, 0⟩] } }, by decide +kernel⟩,
    ⟨(mkFlit 3 false (reqPay (BitVec.ofNat 48 (2 * 2 ^ 36 + 5)) 0x123456789ABC 12 2 false 0 1) [0] 2 0 nodeHub), [], { withRegs [(F.partStat_STATE, 2, 2)] with net := { State.reset.net with outQ := [(mkFlit 3 false (reqPay (BitVec.ofNat 48 (2 * 2 ^ 36 + 5)) 0x123456789ABC 12 2 false 0 1) [0] 2 0 nodeHub)] }, ap := { State.reset.ap with tgts := [⟨2, 5, 2, 0⟩] }, t := 9 }, by decide +kernel⟩,
    ⟨⟨2, 5, 0x123456789ABC, 100, 2, 0, false, true, false, 0, 0, 0⟩, [], { State.reset with t := 101, out := ⟨[⟨2, 5, 0x123456789ABC, 100, 2, 0, false, true, false, 0, 0, 0⟩], [], []⟩, ap := { State.reset.ap with tgts := [⟨2, 5, 2, 0⟩] } }, by decide +kernel⟩,
    ⟨⟨2, 5, 0x123456789ABC, 100, 2, 0, false, true, false, 0, 0, 0⟩, [], { State.reset with t := 100, out := ⟨[⟨2, 5, 0x123456789ABC, 100, 2, 0, false, true, false, 0, 0, 0⟩], [], [(2 * 65536 + 5, 1)]⟩, ap := { State.reset.ap with tgts := [⟨2, 5, 2, 0⟩] } }, by decide +kernel⟩,
    ⟨⟨5, 5, 0x123456789ABC, 100, 2, 0, false, true, false, 0, 0, 0⟩, [], { State.reset with t := 100, out := ⟨[⟨5, 5, 0x123456789ABC, 100, 2, 0, false, true, false, 0, 0, 0⟩], [], [(5 * 65536 + 5, 1)]⟩, sched := { State.reset.sched with mbx := [(5, [⟨1, 90, 0, false⟩, ⟨2, 95, 0, false⟩])] }, ap := { State.reset.ap with tgts := [⟨5, 5, 2, 0⟩] } }, by decide +kernel⟩,
    ⟨⟨1, 5, 0x123456789ABC, 100, 2, 0, false, false, false, 0, 0, 0⟩, [], { withRegs [(F.laneCfg_DIR, 0, 2), (F.laneCfg_EN, 0, 1)] with out := ⟨[], [⟨1, 5, 0x123456789ABC, 100, 2, 0, false, false, false, 0, 0, 0⟩], []⟩, ap := { State.reset.ap with tgts := [⟨1, 5, 2, 0⟩] } }, by decide +kernel⟩,
    ⟨⟨2, 5, 0x123456789ABC, 100, 2, 0, false, true, false, 0, 0, 0⟩, [], { State.reset with t := 50, out := ⟨[], [⟨2, 5, 0x123456789ABC, 100, 2, 0, false, true, false, 0, 0, 0⟩], []⟩, ap := { State.reset.ap with tgts := [⟨2, 5, 2, 0⟩] } }, by decide +kernel⟩⟩

/-- States and operands that meet the hypotheses of BarriersGatherAndRelease. -/
theorem witness_BarriersGatherAndRelease :
    (∃ (who : From) (b : Fin 16) (s : State), s.fatal = false ∧ s.barArmed b = false) ∧
    (∃ (who : From) (b : Fin 16) (s : State), s.fatal = false ∧ s.barArmed b = true) ∧
    (∃ (who : From) (b : Fin 16) (s : State), s.fatal = false ∧ who.1.val < 8 ∧ s.barArmed b = true) ∧
    (∃ (who : From) (b : Fin 16) (s : State), s.fatal = false ∧ who.1.val < 8 ∧ s.barArmed b = false) ∧
    (∃ (m : GMsg) (q : List GMsg) (s : State), s.fatal = false ∧ s.net.gq = m :: q ∧ m.gop = 1 ∧ s.flag F.injCtl_ARM 0 = false ∧ s.barArmed m.chan = true ∧ (s.barSeen m.chan).contains m.who = false ∧ barComplete { s with net := { s.net with arrived := mput s.net.arrived m.chan (s.barSeen m.chan ++ [m.who]) } } m.chan = false) ∧
    (∃ (m : GMsg) (q : List GMsg) (s : State), s.fatal = false ∧ s.net.gq = m :: q ∧ m.gop = 1 ∧ s.flag F.injCtl_ARM 0 = false ∧ s.barArmed m.chan = true ∧ (s.barSeen m.chan).contains m.who = false ∧ s.barScope m.chan ≠ 3 ∧ barComplete { s with net := { s.net with arrived := mput s.net.arrived m.chan (s.barSeen m.chan ++ [m.who]) } } m.chan = true) ∧
    (∃ (m : GMsg) (q : List GMsg) (s : State), s.fatal = false ∧ s.net.gq = m :: q ∧ m.gop = 2 ∧ s.flag F.injCtl_ARM 0 = false ∧ s.barArmed m.chan = true ∧ m.scope ≠ 3 ∧ m.chan < 16) ∧
    (∃ (x : ChainGlobal) (s : State), s.fatal = false ∧ cpUp s (sideOf x.up) = true ∧ gBroken x = 0 ∧ x.together = true ∧ gBad x.payload = false ∧ (gMessage x.payload).gop = 1 ∧ s.barArmed (gMessage x.payload).chan = true ∧ (s.barSeen (gMessage x.payload).chan).contains (136 + (gMessage x.payload).src) = false ∧ barComplete { s with net := { s.net with arrived := mput s.net.arrived (gMessage x.payload).chan (s.barSeen (gMessage x.payload).chan ++ [136 + (gMessage x.payload).src]) } } (gMessage x.payload).chan = false) ∧
    (∃ (x : ChainGlobal) (s : State), s.fatal = false ∧ cpUp s (sideOf x.up) = true ∧ gBroken x = 0 ∧ x.together = true ∧ gBad x.payload = false ∧ (gMessage x.payload).gop = 2 ∧ s.barArmed (gMessage x.payload).chan = true ∧ (s.hasDown = false ∨ (gMessage x.payload).scope ≠ 3)) ∧
    (∃ (b : Fin 16) (c : Fin 128) (s : State), s.fatal = false ∧ s.barArmed b = true ∧ barCluster s b c = true ∧ quiet s c = true ∧ (s.barSeen b).contains (8 + c.val) = false ∧ s.net.gq = []) :=
  ⟨⟨(3, true), 2, { withRegs [(F.barCfg_CORES, 2, 3), (F.barCfg_SCOPE, 2, 3)] with net := { State.reset.net with arrived := [(2, [0])] } }, by decide +kernel⟩,
    ⟨(3, true), 2, withRegs [(F.barStat_ARMED, 2, 1), (F.barCfg_CORES, 2, 3)], by decide +kernel⟩,
    ⟨(3, true), 2, withRegs [(F.barStat_ARMED, 2, 1), (F.barCfg_CORES, 2, 3)], by decide +kernel⟩,
    ⟨(3, true), 2, State.reset, by decide +kernel⟩,
    ⟨⟨1, 2, 2, 0, 0, 0, 1⟩, [], { withRegs [(F.barStat_ARMED, 2, 1), (F.barCfg_CORES, 2, 3)] with net := { State.reset.net with gq := [⟨1, 2, 2, 0, 0, 0, 1⟩] } }, by decide +kernel⟩,
    ⟨⟨1, 2, 2, 0, 0, 0, 1⟩, [], { withRegs [(F.barStat_ARMED, 2, 1), (F.barCfg_CORES, 2, 2)] with net := { State.reset.net with gq := [⟨1, 2, 2, 0, 0, 0, 1⟩] } }, by decide +kernel⟩,
    ⟨⟨2, 2, 2, 0, 0, 0, 1⟩, [], { withRegs [(F.barStat_ARMED, 2, 1), (F.barCfg_CORES, 2, 2)] with net := { State.reset.net with gq := [⟨2, 2, 2, 0, 0, 0, 1⟩] } }, by decide +kernel⟩,
    ⟨soundGlobal false (gPayload ⟨1, 2, 3, 4, 0, 0, 0⟩), withRegs [(F.cpStat_STATE, 1, 3), (F.barStat_ARMED, 2, 1), (F.barCfg_CORES, 2, 3), (F.barCfg_SCOPE, 2, 3)], by decide +kernel⟩,
    ⟨soundGlobal true (gPayload ⟨2, 2, 3, 4, 0, 0, 0⟩), withRegs [(F.cpStat_STATE, 0, 3), (F.barStat_ARMED, 2, 1), (F.barCfg_SCOPE, 2, 3)], by decide +kernel⟩,
    ⟨2, 5, withRegs [(F.barStat_ARMED, 2, 1), (F.barMask0_CL, 2, 32), (F.barCfg_SCOPE, 2, 2)], by decide +kernel⟩⟩

/-- States and operands that meet the hypotheses of ScheduledOperationsAreStaged. -/
theorem witness_ScheduledOperationsAreStaged :
    (∃ (who : From) (s : State), s.fatal = false ∧ 4096 ≤ sdiff (w48 (s.get F.gschedT_T_S 0)) s.t ∧ sdiff (w48 (s.get F.gschedT_T_S 0)) s.t ≤ 2 ^ 30 ∧ s.flag F.snapStat_STAGED 0 = false) ∧
    (∃ (who : From) (s : State), s.fatal = false ∧ 4096 ≤ sdiff (w48 (s.get F.gschedT_T_S 0)) s.t ∧ sdiff (w48 (s.get F.gschedT_T_S 0)) s.t ≤ 2 ^ 30 ∧ s.flag F.snapStat_STAGED 0 = false) ∧
    (∃ (who : From) (s : State), s.fatal = false ∧ 4096 ≤ sdiff (w48 (s.get F.gschedT_T_S 0)) s.t ∧ sdiff (w48 (s.get F.gschedT_T_S 0)) s.t ≤ 2 ^ 30 ∧ s.flag F.snapStat_STAGED 0 = false ∧ ((List.range s.chainLen).any (· ≠ s.pkg)) = true) ∧
    (∃ (who : From) (s : State), s.fatal = false ∧ 4096 ≤ sdiff (w48 (s.get F.gschedT_T_S 0)) s.t ∧ sdiff (w48 (s.get F.gschedT_T_S 0)) s.t ≤ 2 ^ 30 ∧ s.flag F.snapStat_STAGED 0 = false ∧ ((List.range s.chainLen).any (· ≠ s.pkg)) = true) ∧
    (∃ (who : From) (sys : Bool) (s : State), s.fatal = false ∧ (sdiff (w48 (s.get F.gschedT_T_S 0)) s.t < 4096 ∨ 2 ^ 30 < sdiff (w48 (s.get F.gschedT_T_S 0)) s.t ∨ s.flag F.snapStat_STAGED 0 = true)) ∧
    (∃ (m : GMsg) (q : List GMsg) (s : State), s.fatal = false ∧ s.net.gq = m :: q ∧ m.gop = 3 ∧ s.flag F.injCtl_ARM 0 = false ∧ m.arg % 16 ≠ 1) ∧
    (∃ (x : ChainGlobal) (s : State), s.fatal = false ∧ cpUp s (sideOf x.up) = true ∧ gBroken x = 0 ∧ x.together = true ∧ gBad x.payload = false ∧ (gMessage x.payload).gop = 3 ∧ (gMessage x.payload).arg % 16 = 3 ∨ (gMessage x.payload).arg % 16 = 4 ∧ s.hasUp = false ∧ s.hasDown = false) ∧
    (∃ (m : GMsg) (q : List GMsg) (x : Staged) (r : List Staged) (s : State), s.fatal = false ∧ s.net.gq = m :: q ∧ m.gop = 4 ∧ s.flag F.injCtl_ARM 0 = false ∧ s.staged = x :: r ∧ x.src = s.pkg ∧ x.of m = true ∧ x.acks.contains m.src = false) ∧
    (∃ (m : GMsg) (q : List GMsg) (x : Staged) (s : State), s.fatal = false ∧ s.net.gq = m :: q ∧ m.gop = 5 ∧ s.flag F.injCtl_ARM 0 = false ∧ (s.staged.find? fun x => x.of m) = some x ∧ (x.kind = 3 ∨ x.kind = 4)) ∧
    (∃ (x : Staged) (s : State), s.fatal = false ∧ (s.staged.find? fun x => x.src = s.pkg && !x.cleared && decide (sdiff x.ts s.t ≤ 2048)) = some x ∧ x.complete = true) ∧
    (∃ (x : Staged) (s : State), s.fatal = false ∧ (s.staged.find? fun x => x.src = s.pkg && !x.cleared && decide (sdiff x.ts s.t ≤ 2048)) = some x ∧ x.complete = false ∧ x.system = false) ∧
    (∃ (m : GMsg) (q : List GMsg) (raw : BitVec 160) (s : State), s.fatal = false ∧ s.net.gq = m :: q ∧ s.flag F.injCtl_ARM 0 = false) ∧
    (∃ (m : GMsg) (q : List GMsg) (n : Fin 144) (raw : BitVec 160) (e : FlitErr) (s : State), s.fatal = false ∧ s.net.gq = m :: q ∧ s.flag F.injCtl_ARM 0 = false) ∧
    (∃ (x : ChainGlobal) (s : State), s.fatal = false ∧ cpUp s (sideOf x.up) = true ∧ gBroken x = 1) ∧
    (∃ (x : ChainGlobal) (s : State), s.fatal = false ∧ cpUp s (sideOf x.up) = true ∧ gBroken x = 0 ∧ (x.together = false ∨ gBad x.payload = true)) :=
  ⟨⟨(11, true), withRegs [(F.gschedT_T_S, 0, 5000)], by decide +kernel⟩,
    ⟨(11, true), withRegs [(F.gschedT_T_S, 0, 5000)], by decide +kernel⟩,
    ⟨(11, true), withRegs [(F.gschedT_T_S, 0, 5000), (F.devId_CHAIN_LEN, 0, 2)], by decide +kernel⟩,
    ⟨(11, true), withRegs [(F.gschedT_T_S, 0, 5000), (F.devId_CHAIN_LEN, 0, 2)], by decide +kernel⟩,
    ⟨(11, true), true, withRegs [(F.gschedT_T_S, 0, 50)], by decide +kernel⟩,
    ⟨⟨3, 0, 2, 0, 5000, 3, 0⟩, [], { State.reset with net := { State.reset.net with gq := [⟨3, 0, 2, 0, 5000, 3, 0⟩] } }, by decide +kernel⟩,
    ⟨soundGlobal true (gPayload ⟨3, 2, 3, 4, 5000, 3, 0⟩), withRegs [(F.cpStat_STATE, 0, 3)], by decide +kernel⟩,
    ⟨⟨4, 0, 2, 0, 5000, 3, 0⟩, [], ⟨3, 0, 0, 5000, false, 0, 0, 0, [], [0], false⟩, [], { { State.reset with net := { State.reset.net with gq := [⟨4, 0, 2, 0, 5000, 3, 0⟩] } } with staged := [⟨3, 0, 0, 5000, false, 0, 0, 0, [], [0], false⟩] }, by decide +kernel⟩,
    ⟨⟨5, 0, 2, 0, 5000, 3, 0⟩, [], ⟨3, 0, 0, 5000, false, 0, 0, 0, [], [0], false⟩, { { State.reset with net := { State.reset.net with gq := [⟨5, 0, 2, 0, 5000, 3, 0⟩] } } with staged := [⟨3, 0, 0, 5000, false, 0, 0, 0, [], [0], false⟩] }, by decide +kernel⟩,
    ⟨⟨3, 0, 0, 2048, false, 0, 0, 0, [0], [0], false⟩, { State.reset with staged := [⟨3, 0, 0, 2048, false, 0, 0, 0, [0], [0], false⟩] }, by decide +kernel⟩,
    ⟨⟨3, 0, 0, 2048, false, 0, 0, 0, [], [0], false⟩, { State.reset with staged := [⟨3, 0, 0, 2048, false, 0, 0, 0, [], [0], false⟩] }, by decide +kernel⟩,
    ⟨⟨5, 0, 2, 0, 5000, 3, 0⟩, [], 77, { State.reset with net := { State.reset.net with gq := [⟨5, 0, 2, 0, 5000, 3, 0⟩] } }, by decide +kernel⟩,
    ⟨⟨5, 0, 2, 0, 5000, 3, 0⟩, [], 130, 77, ⟨0, 0⟩, { State.reset with net := { State.reset.net with gq := [⟨5, 0, 2, 0, 5000, 3, 0⟩] } }, by decide +kernel⟩,
    ⟨{ soundGlobal true 0 with g1 := ⟨0x8D, 0x55⟩ }, withRegs [(F.cpStat_STATE, 0, 3)], by decide +kernel⟩,
    ⟨soundGlobal true 0, withRegs [(F.cpStat_STATE, 0, 3)], by decide +kernel⟩⟩

/-- States and operands that meet the hypotheses of ScheduledOperationsRun. -/
theorem witness_ScheduledOperationsRun :
    (∃ (x : Staged) (s : State), s.fatal = false ∧ dueStaged s 3 none = some x ∧ s.get F.snapBase_OFFSET 0 + 319 ≤ 0xC0000 ∧ ((s.staged.erase x).any fun y => y.kind = 3 || y.kind = 4) = false) ∧
    (∃ (b : BootIn) (x : Staged) (s : State), s.fatal = false ∧ dueStaged s 4 none = some x ∧ (s.staged.any fun y => y.kind = 3 && y.cleared && y.ts = x.ts) = false) ∧
    (∃ (p : Fin 8) (x : Staged) (s : State), s.fatal = false ∧ dueStaged s 1 (some p.val) = some x) ∧
    (∃ (p : Fin 8) (x : Staged) (k : Cert) (s : State), s.fatal = false ∧ dueStaged s 1 (some p.val) = some x ∧ admitted s p = some k) ∧
    (∃ (p : Fin 8) (x : Staged) (s : State), s.fatal = false ∧ dueStaged s 2 (some p.val) = some x ∧ x.frm < 128 ∧ x.dst < 128 ∧ x.src < 16) ∧
    (∃ (p : Fin 8) (x : Staged) (g : Mig) (s : State), s.fatal = false ∧ dueStaged s 2 (some p.val) = some x ∧ x.src = s.pkg ∧ (s.ap.migs.find? fun g => g.part = p.val && !g.switched) = some g ∧ g.frm ≠ g.dst ∧ s.cState g.dst = 1 ∧ s.cState g.frm = 2) ∧
    (∃ (p : Fin 8) (x : Staged) (g : Mig) (s : State), s.fatal = false ∧ dueStaged s 2 (some p.val) = some x ∧ x.src = s.pkg ∧ (s.ap.migs.find? fun g => g.part = p.val && !g.switched) = some g ∧ g.frm ≠ g.dst ∧ (s.cState g.dst = 4 ∨ s.cState g.frm = 4)) :=
  ⟨⟨⟨3, 0, 0, 5000, false, 0, 0, 0, [0], [0], true⟩, { State.reset with t := 5000, staged := [⟨3, 0, 0, 5000, false, 0, 0, 0, [0], [0], true⟩] }, by decide +kernel⟩,
    ⟨⟨true, true, true, none, true, 0, [], 0, 0, true⟩, ⟨4, 0, 0, 5000, false, 0, 0, 0, [0], [0], true⟩, { State.reset with t := 5000, staged := [⟨4, 0, 0, 5000, false, 0, 0, 0, [0], [0], true⟩] }, by decide +kernel⟩,
    ⟨0, ⟨1, 0, 3, 5000, false, 0, 0, 0, [0], [0], true⟩, { State.reset with t := 5000, staged := [⟨1, 0, 3, 5000, false, 0, 0, 0, [0], [0], true⟩] }, by decide +kernel⟩,
    ⟨1, ⟨1, 1, 1, 5000, false, 0, 0, 0, [0], [0], true⟩, certOf (certW 1 2 []), { admState 2 [] with t := 5000, staged := [⟨1, 1, 1, 5000, false, 0, 0, 0, [0], [0], true⟩], ap := { (admState 2 []).ap with tgts := [⟨2, 5, 1, 0⟩, ⟨2, 6, 2, 0⟩] } }, by decide +kernel⟩,
    ⟨2, ⟨2, 2, 0, 5000, false, 1, 3, 4, [0], [0, 1], true⟩, { withRegs [(F.clStatus_OWNER, 9, 2), (F.clStatus_STATE, 9, 2), (F.rtEntry_CLUSTER, 289, 3), (F.rtEntry_PKG, 289, 1), (F.rtEntry_VALID, 289, 1), (F.trigCfg_PART, 7, 2), (F.trigDst_PKG, 7, 1), (F.trigDst_CLUSTER, 7, 3)] with t := 5000, staged := [⟨2, 2, 0, 5000, false, 1, 3, 4, [0], [0, 1], true⟩] }, by decide +kernel⟩,
    ⟨2, ⟨2, 2, 0, 5000, false, 0, 3, 4, [0], [0], true⟩, ⟨2, 3, 4, [7], [], none, false, 16384⟩, { withRegs [(F.clStatus_STATE, 4, 1), (F.clStatus_STATE, 3, 2)] with t := 5000, staged := [⟨2, 2, 0, 5000, false, 0, 3, 4, [0], [0], true⟩], ap := { State.reset.ap with migs := [⟨2, 3, 4, [7], [], none, false, 16384⟩] } }, by decide +kernel⟩,
    ⟨2, ⟨2, 2, 0, 5000, false, 0, 3, 4, [0], [0], true⟩, ⟨2, 3, 4, [7], [], none, false, 16384⟩, { withRegs [(F.clStatus_STATE, 4, 1), (F.clStatus_STATE, 3, 4)] with t := 5000, staged := [⟨2, 2, 0, 5000, false, 0, 3, 4, [0], [0], true⟩], ap := { State.reset.ap with migs := [⟨2, 3, 4, [7], [], none, false, 16384⟩] } }, by decide +kernel⟩⟩

/-- States and operands that meet the hypotheses of ComputingOperationsEmit. -/
theorem witness_ComputingOperationsEmit :
    (∃ (c : Fin 128) (pe : Fin 16) (err : FireErr) (f : Firing) (u : State) (v : W) (b : Stk) (s : State), fired s c pe .integer err = some (f, u) ∧ f.poison = none ∧ compute (iOpc f.w) (u.rmOf f.part f.ep) f.l.1 f.r.1 f.g.1 = some (v, b) ∧ b.toNat &&& u.trapOf f.part f.ep = 0) ∧
    (∃ (c : Fin 128) (pe : Fin 16) (err : FireErr) (f : Firing) (u : State) (v : W) (b : Stk) (s : State), fired s c pe .comparison err = some (f, u) ∧ f.poison = none ∧ compute (iOpc f.w) (u.rmOf f.part f.ep) f.l.1 f.r.1 f.g.1 = some (v, b) ∧ b.toNat &&& u.trapOf f.part f.ep = 0) ∧
    (∃ (c : Fin 128) (pe : Fin 16) (err : FireErr) (f : Firing) (u : State) (v : W) (b : Stk) (s : State), fired s c pe .q47 err = some (f, u) ∧ f.poison = none ∧ compute (iOpc f.w) (u.rmOf f.part f.ep) f.l.1 f.r.1 f.g.1 = some (v, b) ∧ b.toNat &&& u.trapOf f.part f.ep = 0) ∧
    (∃ (c : Fin 128) (pe : Fin 16) (err : FireErr) (f : Firing) (u : State) (v : W) (b : Stk) (s : State), fired s c pe .float err = some (f, u) ∧ f.poison = none ∧ compute (iOpc f.w) (u.rmOf f.part f.ep) f.l.1 f.r.1 f.g.1 = some (v, b) ∧ b.toNat &&& u.trapOf f.part f.ep = 0) ∧
    (∃ (c : Fin 128) (pe : Fin 16) (err : FireErr) (f : Firing) (u : State) (v : W) (b : Stk) (s : State), fired s c pe .conversion err = some (f, u) ∧ f.poison = none ∧ compute (iOpc f.w) (u.rmOf f.part f.ep) f.l.1 f.r.1 f.g.1 = some (v, b) ∧ b.toNat &&& u.trapOf f.part f.ep = 0) ∧
    (∃ (c : Fin 128) (pe : Fin 16) (err : FireErr) (f : Firing) (u : State) (v : W) (b : Stk) (s : State), fired s c pe .complex err = some (f, u) ∧ f.poison = none ∧ compute (iOpc f.w) (u.rmOf f.part f.ep) f.l.1 f.r.1 f.g.1 = some (v, b) ∧ b.toNat &&& u.trapOf f.part f.ep = 0) ∧
    (∃ (c : Fin 128) (pe : Fin 16) (err : FireErr) (f : Firing) (u : State) (v : W) (s : State), fired s c pe .integer err = some (f, u) ∧ f.poison = some v) ∧
    (∃ (c : Fin 128) (pe : Fin 16) (err : FireErr) (f : Firing) (u : State) (v : W) (b : Stk) (s : State), fired s c pe .integer err = some (f, u) ∧ f.poison = none ∧ compute (iOpc f.w) (u.rmOf f.part f.ep) f.l.1 f.r.1 f.g.1 = some (v, b) ∧ b.toNat &&& u.trapOf f.part f.ep ≠ 0) :=
  ⟨⟨3, 5, okErr, gotF (fireState (iw 0x010 0 (dLocal) (0)) (some (opnd 5)) (some (opnd 7)) (none)) .integer, gotU (fireState (iw 0x010 0 (dLocal) (0)) (some (opnd 5)) (some (opnd 7)) (none)) .integer, ((compute (iOpc (gotF (fireState (iw 0x010 0 (dLocal) (0)) (some (opnd 5)) (some (opnd 7)) (none)) .integer).w) ((gotU (fireState (iw 0x010 0 (dLocal) (0)) (some (opnd 5)) (some (opnd 7)) (none)) .integer).rmOf (gotF (fireState (iw 0x010 0 (dLocal) (0)) (some (opnd 5)) (some (opnd 7)) (none)) .integer).part (gotF (fireState (iw 0x010 0 (dLocal) (0)) (some (opnd 5)) (some (opnd 7)) (none)) .integer).ep) (gotF (fireState (iw 0x010 0 (dLocal) (0)) (some (opnd 5)) (some (opnd 7)) (none)) .integer).l.1 (gotF (fireState (iw 0x010 0 (dLocal) (0)) (some (opnd 5)) (some (opnd 7)) (none)) .integer).r.1 (gotF (fireState (iw 0x010 0 (dLocal) (0)) (some (opnd 5)) (some (opnd 7)) (none)) .integer).g.1).getD (0, 0)).1, ((compute (iOpc (gotF (fireState (iw 0x010 0 (dLocal) (0)) (some (opnd 5)) (some (opnd 7)) (none)) .integer).w) ((gotU (fireState (iw 0x010 0 (dLocal) (0)) (some (opnd 5)) (some (opnd 7)) (none)) .integer).rmOf (gotF (fireState (iw 0x010 0 (dLocal) (0)) (some (opnd 5)) (some (opnd 7)) (none)) .integer).part (gotF (fireState (iw 0x010 0 (dLocal) (0)) (some (opnd 5)) (some (opnd 7)) (none)) .integer).ep) (gotF (fireState (iw 0x010 0 (dLocal) (0)) (some (opnd 5)) (some (opnd 7)) (none)) .integer).l.1 (gotF (fireState (iw 0x010 0 (dLocal) (0)) (some (opnd 5)) (some (opnd 7)) (none)) .integer).r.1 (gotF (fireState (iw 0x010 0 (dLocal) (0)) (some (opnd 5)) (some (opnd 7)) (none)) .integer).g.1).getD (0, 0)).2, fireState (iw 0x010 0 (dLocal) (0)) (some (opnd 5)) (some (opnd 7)) (none), by decide +kernel⟩,
    ⟨3, 5, okErr, gotF (fireState (iw 0x042 0 (dLocal) (0)) (some (opnd 5)) (some (opnd 7)) (none)) .comparison, gotU (fireState (iw 0x042 0 (dLocal) (0)) (some (opnd 5)) (some (opnd 7)) (none)) .comparison, ((compute (iOpc (gotF (fireState (iw 0x042 0 (dLocal) (0)) (some (opnd 5)) (some (opnd 7)) (none)) .comparison).w) ((gotU (fireState (iw 0x042 0 (dLocal) (0)) (some (opnd 5)) (some (opnd 7)) (none)) .comparison).rmOf (gotF (fireState (iw 0x042 0 (dLocal) (0)) (some (opnd 5)) (some (opnd 7)) (none)) .comparison).part (gotF (fireState (iw 0x042 0 (dLocal) (0)) (some (opnd 5)) (some (opnd 7)) (none)) .comparison).ep) (gotF (fireState (iw 0x042 0 (dLocal) (0)) (some (opnd 5)) (some (opnd 7)) (none)) .comparison).l.1 (gotF (fireState (iw 0x042 0 (dLocal) (0)) (some (opnd 5)) (some (opnd 7)) (none)) .comparison).r.1 (gotF (fireState (iw 0x042 0 (dLocal) (0)) (some (opnd 5)) (some (opnd 7)) (none)) .comparison).g.1).getD (0, 0)).1, ((compute (iOpc (gotF (fireState (iw 0x042 0 (dLocal) (0)) (some (opnd 5)) (some (opnd 7)) (none)) .comparison).w) ((gotU (fireState (iw 0x042 0 (dLocal) (0)) (some (opnd 5)) (some (opnd 7)) (none)) .comparison).rmOf (gotF (fireState (iw 0x042 0 (dLocal) (0)) (some (opnd 5)) (some (opnd 7)) (none)) .comparison).part (gotF (fireState (iw 0x042 0 (dLocal) (0)) (some (opnd 5)) (some (opnd 7)) (none)) .comparison).ep) (gotF (fireState (iw 0x042 0 (dLocal) (0)) (some (opnd 5)) (some (opnd 7)) (none)) .comparison).l.1 (gotF (fireState (iw 0x042 0 (dLocal) (0)) (some (opnd 5)) (some (opnd 7)) (none)) .comparison).r.1 (gotF (fireState (iw 0x042 0 (dLocal) (0)) (some (opnd 5)) (some (opnd 7)) (none)) .comparison).g.1).getD (0, 0)).2, fireState (iw 0x042 0 (dLocal) (0)) (some (opnd 5)) (some (opnd 7)) (none), by decide +kernel⟩,
    ⟨3, 5, okErr, gotF (fireState (iw 0x050 0 (dLocal) (0)) (some (opnd 0x400000000000)) (some (opnd 0x400000000000)) (none)) .q47, gotU (fireState (iw 0x050 0 (dLocal) (0)) (some (opnd 0x400000000000)) (some (opnd 0x400000000000)) (none)) .q47, ((compute (iOpc (gotF (fireState (iw 0x050 0 (dLocal) (0)) (some (opnd 0x400000000000)) (some (opnd 0x400000000000)) (none)) .q47).w) ((gotU (fireState (iw 0x050 0 (dLocal) (0)) (some (opnd 0x400000000000)) (some (opnd 0x400000000000)) (none)) .q47).rmOf (gotF (fireState (iw 0x050 0 (dLocal) (0)) (some (opnd 0x400000000000)) (some (opnd 0x400000000000)) (none)) .q47).part (gotF (fireState (iw 0x050 0 (dLocal) (0)) (some (opnd 0x400000000000)) (some (opnd 0x400000000000)) (none)) .q47).ep) (gotF (fireState (iw 0x050 0 (dLocal) (0)) (some (opnd 0x400000000000)) (some (opnd 0x400000000000)) (none)) .q47).l.1 (gotF (fireState (iw 0x050 0 (dLocal) (0)) (some (opnd 0x400000000000)) (some (opnd 0x400000000000)) (none)) .q47).r.1 (gotF (fireState (iw 0x050 0 (dLocal) (0)) (some (opnd 0x400000000000)) (some (opnd 0x400000000000)) (none)) .q47).g.1).getD (0, 0)).1, ((compute (iOpc (gotF (fireState (iw 0x050 0 (dLocal) (0)) (some (opnd 0x400000000000)) (some (opnd 0x400000000000)) (none)) .q47).w) ((gotU (fireState (iw 0x050 0 (dLocal) (0)) (some (opnd 0x400000000000)) (some (opnd 0x400000000000)) (none)) .q47).rmOf (gotF (fireState (iw 0x050 0 (dLocal) (0)) (some (opnd 0x400000000000)) (some (opnd 0x400000000000)) (none)) .q47).part (gotF (fireState (iw 0x050 0 (dLocal) (0)) (some (opnd 0x400000000000)) (some (opnd 0x400000000000)) (none)) .q47).ep) (gotF (fireState (iw 0x050 0 (dLocal) (0)) (some (opnd 0x400000000000)) (some (opnd 0x400000000000)) (none)) .q47).l.1 (gotF (fireState (iw 0x050 0 (dLocal) (0)) (some (opnd 0x400000000000)) (some (opnd 0x400000000000)) (none)) .q47).r.1 (gotF (fireState (iw 0x050 0 (dLocal) (0)) (some (opnd 0x400000000000)) (some (opnd 0x400000000000)) (none)) .q47).g.1).getD (0, 0)).2, fireState (iw 0x050 0 (dLocal) (0)) (some (opnd 0x400000000000)) (some (opnd 0x400000000000)) (none), by decide +kernel⟩,
    ⟨3, 5, okErr, gotF (fireState (iw 0x060 0 (dLocal) (0)) (some (opnd 0x3FF000000000)) (some (opnd 0xC00000000000)) (none)) .float, gotU (fireState (iw 0x060 0 (dLocal) (0)) (some (opnd 0x3FF000000000)) (some (opnd 0xC00000000000)) (none)) .float, ((compute (iOpc (gotF (fireState (iw 0x060 0 (dLocal) (0)) (some (opnd 0x3FF000000000)) (some (opnd 0xC00000000000)) (none)) .float).w) ((gotU (fireState (iw 0x060 0 (dLocal) (0)) (some (opnd 0x3FF000000000)) (some (opnd 0xC00000000000)) (none)) .float).rmOf (gotF (fireState (iw 0x060 0 (dLocal) (0)) (some (opnd 0x3FF000000000)) (some (opnd 0xC00000000000)) (none)) .float).part (gotF (fireState (iw 0x060 0 (dLocal) (0)) (some (opnd 0x3FF000000000)) (some (opnd 0xC00000000000)) (none)) .float).ep) (gotF (fireState (iw 0x060 0 (dLocal) (0)) (some (opnd 0x3FF000000000)) (some (opnd 0xC00000000000)) (none)) .float).l.1 (gotF (fireState (iw 0x060 0 (dLocal) (0)) (some (opnd 0x3FF000000000)) (some (opnd 0xC00000000000)) (none)) .float).r.1 (gotF (fireState (iw 0x060 0 (dLocal) (0)) (some (opnd 0x3FF000000000)) (some (opnd 0xC00000000000)) (none)) .float).g.1).getD (0, 0)).1, ((compute (iOpc (gotF (fireState (iw 0x060 0 (dLocal) (0)) (some (opnd 0x3FF000000000)) (some (opnd 0xC00000000000)) (none)) .float).w) ((gotU (fireState (iw 0x060 0 (dLocal) (0)) (some (opnd 0x3FF000000000)) (some (opnd 0xC00000000000)) (none)) .float).rmOf (gotF (fireState (iw 0x060 0 (dLocal) (0)) (some (opnd 0x3FF000000000)) (some (opnd 0xC00000000000)) (none)) .float).part (gotF (fireState (iw 0x060 0 (dLocal) (0)) (some (opnd 0x3FF000000000)) (some (opnd 0xC00000000000)) (none)) .float).ep) (gotF (fireState (iw 0x060 0 (dLocal) (0)) (some (opnd 0x3FF000000000)) (some (opnd 0xC00000000000)) (none)) .float).l.1 (gotF (fireState (iw 0x060 0 (dLocal) (0)) (some (opnd 0x3FF000000000)) (some (opnd 0xC00000000000)) (none)) .float).r.1 (gotF (fireState (iw 0x060 0 (dLocal) (0)) (some (opnd 0x3FF000000000)) (some (opnd 0xC00000000000)) (none)) .float).g.1).getD (0, 0)).2, fireState (iw 0x060 0 (dLocal) (0)) (some (opnd 0x3FF000000000)) (some (opnd 0xC00000000000)) (none), by decide +kernel⟩,
    ⟨3, 5, okErr, gotF (fireState (iw 0x070 0 (dLocal) (0)) (some (opnd 5)) (none) (none)) .conversion, gotU (fireState (iw 0x070 0 (dLocal) (0)) (some (opnd 5)) (none) (none)) .conversion, ((compute (iOpc (gotF (fireState (iw 0x070 0 (dLocal) (0)) (some (opnd 5)) (none) (none)) .conversion).w) ((gotU (fireState (iw 0x070 0 (dLocal) (0)) (some (opnd 5)) (none) (none)) .conversion).rmOf (gotF (fireState (iw 0x070 0 (dLocal) (0)) (some (opnd 5)) (none) (none)) .conversion).part (gotF (fireState (iw 0x070 0 (dLocal) (0)) (some (opnd 5)) (none) (none)) .conversion).ep) (gotF (fireState (iw 0x070 0 (dLocal) (0)) (some (opnd 5)) (none) (none)) .conversion).l.1 (gotF (fireState (iw 0x070 0 (dLocal) (0)) (some (opnd 5)) (none) (none)) .conversion).r.1 (gotF (fireState (iw 0x070 0 (dLocal) (0)) (some (opnd 5)) (none) (none)) .conversion).g.1).getD (0, 0)).1, ((compute (iOpc (gotF (fireState (iw 0x070 0 (dLocal) (0)) (some (opnd 5)) (none) (none)) .conversion).w) ((gotU (fireState (iw 0x070 0 (dLocal) (0)) (some (opnd 5)) (none) (none)) .conversion).rmOf (gotF (fireState (iw 0x070 0 (dLocal) (0)) (some (opnd 5)) (none) (none)) .conversion).part (gotF (fireState (iw 0x070 0 (dLocal) (0)) (some (opnd 5)) (none) (none)) .conversion).ep) (gotF (fireState (iw 0x070 0 (dLocal) (0)) (some (opnd 5)) (none) (none)) .conversion).l.1 (gotF (fireState (iw 0x070 0 (dLocal) (0)) (some (opnd 5)) (none) (none)) .conversion).r.1 (gotF (fireState (iw 0x070 0 (dLocal) (0)) (some (opnd 5)) (none) (none)) .conversion).g.1).getD (0, 0)).2, fireState (iw 0x070 0 (dLocal) (0)) (some (opnd 5)) (none) (none), by decide +kernel⟩,
    ⟨3, 5, okErr, gotF (fireState (iw 0x080 0 (dLocal) (0)) (some (opnd 5)) (some (opnd 7)) (none)) .complex, gotU (fireState (iw 0x080 0 (dLocal) (0)) (some (opnd 5)) (some (opnd 7)) (none)) .complex, ((compute (iOpc (gotF (fireState (iw 0x080 0 (dLocal) (0)) (some (opnd 5)) (some (opnd 7)) (none)) .complex).w) ((gotU (fireState (iw 0x080 0 (dLocal) (0)) (some (opnd 5)) (some (opnd 7)) (none)) .complex).rmOf (gotF (fireState (iw 0x080 0 (dLocal) (0)) (some (opnd 5)) (some (opnd 7)) (none)) .complex).part (gotF (fireState (iw 0x080 0 (dLocal) (0)) (some (opnd 5)) (some (opnd 7)) (none)) .complex).ep) (gotF (fireState (iw 0x080 0 (dLocal) (0)) (some (opnd 5)) (some (opnd 7)) (none)) .complex).l.1 (gotF (fireState (iw 0x080 0 (dLocal) (0)) (some (opnd 5)) (some (opnd 7)) (none)) .complex).r.1 (gotF (fireState (iw 0x080 0 (dLocal) (0)) (some (opnd 5)) (some (opnd 7)) (none)) .complex).g.1).getD (0, 0)).1, ((compute (iOpc (gotF (fireState (iw 0x080 0 (dLocal) (0)) (some (opnd 5)) (some (opnd 7)) (none)) .complex).w) ((gotU (fireState (iw 0x080 0 (dLocal) (0)) (some (opnd 5)) (some (opnd 7)) (none)) .complex).rmOf (gotF (fireState (iw 0x080 0 (dLocal) (0)) (some (opnd 5)) (some (opnd 7)) (none)) .complex).part (gotF (fireState (iw 0x080 0 (dLocal) (0)) (some (opnd 5)) (some (opnd 7)) (none)) .complex).ep) (gotF (fireState (iw 0x080 0 (dLocal) (0)) (some (opnd 5)) (some (opnd 7)) (none)) .complex).l.1 (gotF (fireState (iw 0x080 0 (dLocal) (0)) (some (opnd 5)) (some (opnd 7)) (none)) .complex).r.1 (gotF (fireState (iw 0x080 0 (dLocal) (0)) (some (opnd 5)) (some (opnd 7)) (none)) .complex).g.1).getD (0, 0)).2, fireState (iw 0x080 0 (dLocal) (0)) (some (opnd 5)) (some (opnd 7)) (none), by decide +kernel⟩,
    ⟨3, 5, okErr, gotF (fireState (iw 0x010 0 (dLocal) (0)) (some ⟨2000, 5, true, none⟩) (some (opnd 7)) (none)) .integer, gotU (fireState (iw 0x010 0 (dLocal) (0)) (some ⟨2000, 5, true, none⟩) (some (opnd 7)) (none)) .integer, 5, fireState (iw 0x010 0 (dLocal) (0)) (some ⟨2000, 5, true, none⟩) (some (opnd 7)) (none), by decide +kernel⟩,
    ⟨3, 5, okErr, gotF ({ fireState (iw 0x010 0 (dLocal) (0)) (some (opnd wMax)) (some (opnd 7)) (none) with cl := { (fireState (iw 0x010 0 (dLocal) (0)) (some (opnd wMax)) (some (opnd 7)) (none)).cl with arith := [(2, 4)] } }) .integer, gotU ({ fireState (iw 0x010 0 (dLocal) (0)) (some (opnd wMax)) (some (opnd 7)) (none) with cl := { (fireState (iw 0x010 0 (dLocal) (0)) (some (opnd wMax)) (some (opnd 7)) (none)).cl with arith := [(2, 4)] } }) .integer, 0x800000000006, 1, { fireState (iw 0x010 0 (dLocal) (0)) (some (opnd wMax)) (some (opnd 7)) (none) with cl := { (fireState (iw 0x010 0 (dLocal) (0)) (some (opnd wMax)) (some (opnd 7)) (none)).cl with arith := [(2, 4)] } }, by decide +kernel⟩⟩

/-- States and operands that meet the hypotheses of SteeringOperationsEmit. -/
theorem witness_SteeringOperationsEmit :
    (∃ (c : Fin 128) (pe : Fin 16) (err : FireErr) (f : Firing) (u : State) (s : State), fired s c pe .switch err = some (f, u) ∧ f.l.2 = false ∧ f.g.2 = false ∧ f.g.1 ≠ 0) ∧
    (∃ (c : Fin 128) (pe : Fin 16) (err : FireErr) (f : Firing) (u : State) (s : State), fired s c pe .switch err = some (f, u) ∧ f.l.2 = false ∧ f.g = (0, false)) ∧
    (∃ (c : Fin 128) (pe : Fin 16) (err : FireErr) (f : Firing) (u : State) (s : State), fired s c pe .merge err = some (f, u) ∧ (s.headSlot c pe).any (fun x => x.l.isSome) = true ∧ f.l.2 = false) ∧
    (∃ (c : Fin 128) (pe : Fin 16) (err : FireErr) (f : Firing) (u : State) (s : State), fired s c pe .merge err = some (f, u) ∧ (s.headSlot c pe).any (fun x => x.l.isNone) = true ∧ f.r.2 = false) ∧
    (∃ (c : Fin 128) (pe : Fin 16) (err : FireErr) (f : Firing) (u : State) (s : State), fired s c pe .gate err = some (f, u) ∧ f.l.2 = false ∧ f.g.2 = false ∧ f.g.1 ≠ 0) ∧
    (∃ (c : Fin 128) (pe : Fin 16) (err : FireErr) (f : Firing) (u : State) (s : State), fired s c pe .gate err = some (f, u) ∧ f.l.2 = false ∧ f.g = (0, false)) ∧
    (∃ (c : Fin 128) (pe : Fin 16) (err : FireErr) (f : Firing) (u : State) (s : State), fired s c pe .sel err = some (f, u) ∧ f.poison = none ∧ f.g.1 ≠ 0) ∧
    (∃ (c : Fin 128) (pe : Fin 16) (err : FireErr) (f : Firing) (u : State) (s : State), fired s c pe .sel err = some (f, u) ∧ f.poison = none ∧ f.g.1 = 0) ∧
    (∃ (c : Fin 128) (pe : Fin 16) (err : FireErr) (f : Firing) (u : State) (s : State), fired s c pe .gate err = some (f, u) ∧ f.l.2 = true ∧ f.g = (0, false)) ∧
    (∃ (c : Fin 128) (pe : Fin 16) (err : FireErr) (f : Firing) (u : State) (s : State), fired s c pe .sel err = some (f, u) ∧ f.l.2 = false ∧ f.r.2 = true ∧ f.g.2 = false ∧ f.g.1 ≠ 0) ∧
    (∃ (c : Fin 128) (pe : Fin 16) (err : FireErr) (f : Firing) (u : State) (s : State), fired s c pe .sel err = some (f, u) ∧ f.l.2 = true ∧ f.r.2 = true ∧ f.g = (0, false)) ∧
    (∃ (c : Fin 128) (pe : Fin 16) (err : FireErr) (f : Firing) (u : State) (s : State), fired s c pe .const err = some (f, u) ∧ f.l.2 = false) ∧
    (∃ (c : Fin 128) (pe : Fin 16) (err : FireErr) (f : Firing) (u : State) (s : State), fired s c pe .sink err = some (f, u) ∧ f.l.2 = false) ∧
    (∃ (c : Fin 128) (pe : Fin 16) (err : FireErr) (f : Firing) (u : State) (s : State), fired s c pe .prism err = some (f, u) ∧ f.l.2 = false) ∧
    (∃ (c : Fin 128) (pe : Fin 16) (err : FireErr) (f : Firing) (u : State) (r : Dest) (s : State), fired s c pe .link err = some (f, u) ∧ f.l.2 = false ∧ routeEntry u f.c (dstRoute (iK f.w)) f.ep = some r) ∧
    (∃ (c : Fin 128) (pe : Fin 16) (err : FireErr) (f : Firing) (u : State) (s : State), fired s c pe .now err = some (f, u) ∧ f.l.2 = false) ∧
    (∃ (c : Fin 128) (pe : Fin 16) (err : FireErr) (f : Firing) (u : State) (s : State), fired s c pe .due err = some (f, u) ∧ f.l.2 = false) ∧
    (∃ (c : Fin 128) (pe : Fin 16) (err : FireErr) (f : Firing) (u : State) (s : State), fired s c pe .tighten err = some (f, u) ∧ f.poison = none) ∧
    (∃ (c : Fin 128) (pe : Fin 16) (err : FireErr) (f : Firing) (u : State) (s : State), fired s c pe .next err = some (f, u) ∧ f.l.2 = false) :=
  ⟨⟨3, 5, okErr, gotF (fireState (iw 0x0A0 1 (dLocal) (0)) (some (opnd 5)) (none) (some (opnd 7))) .switch, gotU (fireState (iw 0x0A0 1 (dLocal) (0)) (some (opnd 5)) (none) (some (opnd 7))) .switch, fireState (iw 0x0A0 1 (dLocal) (0)) (some (opnd 5)) (none) (some (opnd 7)), by decide +kernel⟩,
    ⟨3, 5, okErr, gotF (fireState (iw 0x0A0 1 (0) (dLocal * 2 ^ 25)) (some (opnd 5)) (none) (some (opnd 0))) .switch, gotU (fireState (iw 0x0A0 1 (0) (dLocal * 2 ^ 25)) (some (opnd 5)) (none) (some (opnd 0))) .switch, fireState (iw 0x0A0 1 (0) (dLocal * 2 ^ 25)) (some (opnd 5)) (none) (some (opnd 0)), by decide +kernel⟩,
    ⟨3, 5, okErr, gotF (fireState (iw 0x0A1 0 (dLocal) (0)) (some (opnd 5)) (none) (none)) .merge, gotU (fireState (iw 0x0A1 0 (dLocal) (0)) (some (opnd 5)) (none) (none)) .merge, fireState (iw 0x0A1 0 (dLocal) (0)) (some (opnd 5)) (none) (none), by decide +kernel⟩,
    ⟨3, 5, okErr, gotF (fireState (iw 0x0A1 0 (dLocal) (0)) (none) (some (opnd 5)) (none)) .merge, gotU (fireState (iw 0x0A1 0 (dLocal) (0)) (none) (some (opnd 5)) (none)) .merge, fireState (iw 0x0A1 0 (dLocal) (0)) (none) (some (opnd 5)) (none), by decide +kernel⟩,
    ⟨3, 5, okErr, gotF (fireState (iw 0x0A2 0 (dLocal) (0)) (some (opnd 5)) (none) (some (opnd 7))) .gate, gotU (fireState (iw 0x0A2 0 (dLocal) (0)) (some (opnd 5)) (none) (some (opnd 7))) .gate, fireState (iw 0x0A2 0 (dLocal) (0)) (some (opnd 5)) (none) (some (opnd 7)), by decide +kernel⟩,
    ⟨3, 5, okErr, gotF (fireState (iw 0x0A2 0 (dLocal) (0)) (some (opnd 5)) (none) (some (opnd 0))) .gate, gotU (fireState (iw 0x0A2 0 (dLocal) (0)) (some (opnd 5)) (none) (some (opnd 0))) .gate, fireState (iw 0x0A2 0 (dLocal) (0)) (some (opnd 5)) (none) (some (opnd 0)), by decide +kernel⟩,
    ⟨3, 5, okErr, gotF (fireState (iw 0x0A3 0 (dLocal) (0)) (some (opnd 5)) (some (opnd 6)) (some (opnd 7))) .sel, gotU (fireState (iw 0x0A3 0 (dLocal) (0)) (some (opnd 5)) (some (opnd 6)) (some (opnd 7))) .sel, fireState (iw 0x0A3 0 (dLocal) (0)) (some (opnd 5)) (some (opnd 6)) (some (opnd 7)), by decide +kernel⟩,
    ⟨3, 5, okErr, gotF (fireState (iw 0x0A3 0 (dLocal) (0)) (some (opnd 5)) (some (opnd 6)) (some (opnd 0))) .sel, gotU (fireState (iw 0x0A3 0 (dLocal) (0)) (some (opnd 5)) (some (opnd 6)) (some (opnd 0))) .sel, fireState (iw 0x0A3 0 (dLocal) (0)) (some (opnd 5)) (some (opnd 6)) (some (opnd 0)), by decide +kernel⟩,
    ⟨3, 5, okErr, gotF (fireState (iw 0x0A2 0 (dLocal) (0)) (some ⟨2000, 5, true, none⟩) (none) (some (opnd 0))) .gate, gotU (fireState (iw 0x0A2 0 (dLocal) (0)) (some ⟨2000, 5, true, none⟩) (none) (some (opnd 0))) .gate, fireState (iw 0x0A2 0 (dLocal) (0)) (some ⟨2000, 5, true, none⟩) (none) (some (opnd 0)), by decide +kernel⟩,
    ⟨3, 5, okErr, gotF (fireState (iw 0x0A3 0 (dLocal) (0)) (some (opnd 5)) (some ⟨2000, 6, true, none⟩) (some (opnd 7))) .sel, gotU (fireState (iw 0x0A3 0 (dLocal) (0)) (some (opnd 5)) (some ⟨2000, 6, true, none⟩) (some (opnd 7))) .sel, fireState (iw 0x0A3 0 (dLocal) (0)) (some (opnd 5)) (some ⟨2000, 6, true, none⟩) (some (opnd 7)), by decide +kernel⟩,
    ⟨3, 5, okErr, gotF (fireState (iw 0x0A3 0 (dLocal) (0)) (some ⟨2000, 5, true, none⟩) (some ⟨2000, 6, true, none⟩) (some (opnd 0))) .sel, gotU (fireState (iw 0x0A3 0 (dLocal) (0)) (some ⟨2000, 5, true, none⟩) (some ⟨2000, 6, true, none⟩) (some (opnd 0))) .sel, fireState (iw 0x0A3 0 (dLocal) (0)) (some ⟨2000, 5, true, none⟩) (some ⟨2000, 6, true, none⟩) (some (opnd 0)), by decide +kernel⟩,
    ⟨3, 5, okErr, gotF (fireState (iw 0x0A4 0 (dLocal) (77)) (some (opnd 5)) (none) (none)) .const, gotU (fireState (iw 0x0A4 0 (dLocal) (77)) (some (opnd 5)) (none) (none)) .const, fireState (iw 0x0A4 0 (dLocal) (77)) (some (opnd 5)) (none) (none), by decide +kernel⟩,
    ⟨3, 5, okErr, gotF (fireState (iw 0x0A5 0 (0) (0)) (some (opnd 5)) (none) (none)) .sink, gotU (fireState (iw 0x0A5 0 (0) (0)) (some (opnd 5)) (none) (none)) .sink, fireState (iw 0x0A5 0 (0) (0)) (some (opnd 5)) (none) (none), by decide +kernel⟩,
    ⟨3, 5, okErr, gotF (fireState (iw 0x0A6 0 (dLocal) (0)) (some (opnd 5)) (none) (none)) .prism, gotU (fireState (iw 0x0A6 0 (dLocal) (0)) (some (opnd 5)) (none) (none)) .prism, fireState (iw 0x0A6 0 (dLocal) (0)) (some (opnd 5)) (none) (none), by decide +kernel⟩,
    ⟨3, 5, okErr, gotF (fireState (iw 0x0A8 0 (dLocal) (dLocal)) (some (opnd 5)) (none) (none)) .link, gotU (fireState (iw 0x0A8 0 (dLocal) (dLocal)) (some (opnd 5)) (none) (none)) .link, ⟨0, 0, 3⟩, fireState (iw 0x0A8 0 (dLocal) (dLocal)) (some (opnd 5)) (none) (none), by decide +kernel⟩,
    ⟨3, 5, okErr, gotF (fireState (iw 0x0D0 0 (dLocal) (0)) (some (opnd 5)) (none) (none)) .now, gotU (fireState (iw 0x0D0 0 (dLocal) (0)) (some (opnd 5)) (none) (none)) .now, fireState (iw 0x0D0 0 (dLocal) (0)) (some (opnd 5)) (none) (none), by decide +kernel⟩,
    ⟨3, 5, okErr, gotF (fireState (iw 0x0D1 0 (dLocal) (0)) (some (opnd 5)) (none) (none)) .due, gotU (fireState (iw 0x0D1 0 (dLocal) (0)) (some (opnd 5)) (none) (none)) .due, fireState (iw 0x0D1 0 (dLocal) (0)) (some (opnd 5)) (none) (none), by decide +kernel⟩,
    ⟨3, 5, okErr, gotF (fireState (iw 0x0D2 0 (dLocal) (0)) (some (opnd 5)) (some (opnd 900)) (none)) .tighten, gotU (fireState (iw 0x0D2 0 (dLocal) (0)) (some (opnd 5)) (some (opnd 900)) (none)) .tighten, fireState (iw 0x0D2 0 (dLocal) (0)) (some (opnd 5)) (some (opnd 900)) (none), by decide +kernel⟩,
    ⟨3, 5, okErr, gotF (fireState (iw 0x0B2 0 (dLocal) (2)) (some (opnd 5)) (none) (none)) .next, gotU (fireState (iw 0x0B2 0 (dLocal) (2)) (some (opnd 5)) (none) (none)) .next, fireState (iw 0x0B2 0 (dLocal) (2)) (some (opnd 5)) (none) (none), by decide +kernel⟩⟩

/-- States and operands that meet the hypotheses of FiringConsumesItsInstance. -/
theorem witness_FiringConsumesItsInstance :
    (∃ (c : Fin 128) (pe : Fin 16) (cls : OpClass) (x : Slot) (f : Firing) (u : State) (s : State), s.headSlot c pe = some x ∧ x.recs = [] ∧ s.flag F.injCtl_ARM 0 = false ∧ fired s c pe cls ⟨0, 0, 0, 0, .good⟩ = some (f, u)) :=
  ⟨3, 5, .integer, ⟨3, 5, tag0, 7, false, some (opnd 5), some (opnd 7), none, 2000⟩, gotF (fireState (iw 0x010 0 (dLocal) (0)) (some (opnd 5)) (some (opnd 7)) (none)) .integer, gotU (fireState (iw 0x010 0 (dLocal) (0)) (some (opnd 5)) (some (opnd 7)) (none)) .integer, fireState (iw 0x010 0 (dLocal) (0)) (some (opnd 5)) (some (opnd 7)) (none), by decide +kernel⟩

/-- Words at the boundary of each clause of FloatComparisonsOfZerosAndNaNs. -/
theorem witness_FloatComparisonsOfZerosAndNaNs :
    (∃ l r : W, bits l.toNat 0 47 = 0 ∧ bits r.toNat 0 47 = 0 ∧ l ≠ r) ∧ (∃ l : W, bits l.toNat 36 11 = 2047 ∧ bits l.toNat 0 36 = 1) :=
  ⟨⟨0, 0x800000000000, by decide⟩, ⟨0x7FF000000001, by decide⟩⟩

/-- States and operands that meet the hypotheses of TokensAreMatched. -/
theorem witness_TokensAreMatched :
    (∃ (c : Fin 128) (pe : Fin 16) (x : Cand) (err : LookupErr) (s : State), s.fabricOn c = true ∧ mfind s.cl.spillHold (c.val * 16 + pe.val) = none ∧ s.flag F.injCtl_ARM 0 = false ∧ (s.cl.reclaim.any fun r => r.part = s.cOwner c) = false ∧ bestCand s c pe = some x ∧ s.cState c = 2 ∧ s.slotCount c pe < 16 ∧ s.pState (s.cOwner c) ≠ pHalted ∧ tagPort x.tok.tag ≠ 3 ∧ tagBit0 x.tok.tag = 0 ∧ tagPart x.tok.tag = s.cOwner c ∧ filtered s (s.cOwner c) (tagCtx x.tok.tag) = false ∧ mfind s.ap.oldDiscard (s.cOwner c) = none ∧ portMask s c (s.instr c (tagInstr x.tok.tag)) = 2 ^ tagPort x.tok.tag) ∧
    (∃ (c : Fin 128) (pe : Fin 16) (x : Cand) (s : State), s.fabricOn c = true ∧ mfind s.cl.spillHold (c.val * 16 + pe.val) = none ∧ s.flag F.injCtl_ARM 0 = false ∧ (s.cl.reclaim.any fun r => r.part = s.cOwner c) = false ∧ bestCand s c pe = some x ∧ s.cState c = 2 ∧ s.slotCount c pe < 16 ∧ s.pState (s.cOwner c) ≠ pHalted ∧ tagPort x.tok.tag ≠ 3 ∧ tagBit0 x.tok.tag = 0 ∧ tagPart x.tok.tag = s.cOwner c ∧ filtered s (s.cOwner c) (tagCtx x.tok.tag) = false ∧ mfind s.ap.oldDiscard (s.cOwner c) = none ∧ portMask s c (s.instr c (tagInstr x.tok.tag)) = 3 ∧ tagPort x.tok.tag < 2 ∧ opClass (iOpc (s.instr c (tagInstr x.tok.tag))) ≠ .merge ∧ (∀ e ∈ setWays (tokenSet x.tok.tag), s.way c e = none) ∧ s.chainOf c (tokenSet x.tok.tag) = []) ∧
    (∃ (c : Fin 128) (pe : Fin 16) (x : Cand) (u : Token) (e : Fin 4) (s : State), s.fabricOn c = true ∧ mfind s.cl.spillHold (c.val * 16 + pe.val) = none ∧ s.flag F.injCtl_ARM 0 = false ∧ (s.cl.reclaim.any fun r => r.part = s.cOwner c) = false ∧ bestCand s c pe = some x ∧ s.cState c = 2 ∧ s.slotCount c pe < 16 ∧ s.pState (s.cOwner c) ≠ pHalted ∧ tagPort x.tok.tag ≠ 3 ∧ tagBit0 x.tok.tag = 0 ∧ tagPart x.tok.tag = s.cOwner c ∧ filtered s (s.cOwner c) (tagCtx x.tok.tag) = false ∧ mfind s.ap.oldDiscard (s.cOwner c) = none ∧ portMask s c (s.instr c (tagInstr x.tok.tag)) = 3 ∧ tagPort x.tok.tag < 2 ∧ opClass (iOpc (s.instr c (tagInstr x.tok.tag))) ≠ .merge ∧ s.way c (tokenSet x.tok.tag * 4 + e) = some u ∧ tagKey u.tag = tagKey x.tok.tag ∧ tagPort u.tag = 1 - tagPort x.tok.tag ∧ (∀ e ∈ setWays (tokenSet x.tok.tag), s.way c e = some u ∨ s.way c e = none) ∧ s.chainOf c (tokenSet x.tok.tag) = [] ∧ (∀ d : Fin 4, d < e → s.way c (tokenSet x.tok.tag * 4 + d) = none)) ∧
    (∃ (c : Fin 128) (pe : Fin 16) (x : Cand) (err : LookupErr) (s : State), s.fabricOn c = true ∧ mfind s.cl.spillHold (c.val * 16 + pe.val) = none ∧ s.flag F.injCtl_ARM 0 = false ∧ (s.cl.reclaim.any fun r => r.part = s.cOwner c) = false ∧ bestCand s c pe = some x ∧ s.cState c = 2 ∧ s.slotCount c pe < 16 ∧ s.pState (s.cOwner c) ≠ pHalted ∧ tagPart x.tok.tag ≠ s.cOwner c) ∧
    (∃ (c : Fin 128) (pe : Fin 16) (x : Cand) (err : LookupErr) (s : State), s.fabricOn c = true ∧ mfind s.cl.spillHold (c.val * 16 + pe.val) = none ∧ s.flag F.injCtl_ARM 0 = false ∧ (s.cl.reclaim.any fun r => r.part = s.cOwner c) = false ∧ bestCand s c pe = some x ∧ s.cState c = 2 ∧ s.pState (s.cOwner c) ≠ pHalted ∧ 16 ≤ s.slotCount c pe ∧ mfind s.cl.slotHold (c.val * 16 + pe.val) = none) ∧
    (∃ (c : Fin 128) (pe : Fin 16) (k : Token) (r : Nat) (s : State), s.fabricOn c = true ∧ s.cState c = 2 ∧ laneRuns s c = true ∧ (s.cl.reclaim.any fun r => r.part = s.cOwner c) = false ∧ mfind s.cl.spillHold (c.val * 16 + pe.val) = some k ∧ s.spillFull c = false ∧ s.freeRecord c = some r) ∧
    (∃ (c : Fin 128) (s : State), s.fatal = false) ∧
    (∃ (c : Fin 128) (s : State), s.fatal = false) ∧
    (∃ (r : Fin 32) (p : Fin 8) (q : Fin 4) (s : State), s.fatal = false) :=
  ⟨⟨3, 5, ⟨(⟨mkTag 0 0 3 21 0 1 4 0, 2000, 77, false⟩ : Token), 10, .stage 5⟩, ⟨0, 0, 0, 0, none⟩, { fireState (iw 0x0D0 0 dLocal 0) none none none with cl := { State.reset.cl with emit := [(53, (⟨mkTag 0 0 3 21 0 1 4 0, 2000, 77, false⟩ : Token))] } }, by decide +kernel⟩,
    ⟨3, 5, ⟨(⟨mkTag 0 0 3 21 0 1 4 0, 2000, 77, false⟩ : Token), 10, .stage 5⟩, { fireState (iw 0x010 0 dLocal 0) none none none with cl := { State.reset.cl with emit := [(53, (⟨mkTag 0 0 3 21 0 1 4 0, 2000, 77, false⟩ : Token))] } }, by decide +kernel⟩,
    ⟨3, 5, ⟨(⟨mkTag 0 0 3 21 0 1 4 0, 2000, 77, false⟩ : Token), 10, .stage 5⟩, (⟨mkTag 0 0 3 21 1 1 4 0, 1500, 66, false⟩ : Token), 0, ({ fireState (iw 0x010 0 dLocal 0) none none none with cl := { State.reset.cl with emit := [(53, (⟨mkTag 0 0 3 21 0 1 4 0, 2000, 77, false⟩ : Token))] } }).setWay 3 (tokenSet tag0 * 4) (some (⟨mkTag 0 0 3 21 1 1 4 0, 1500, 66, false⟩ : Token)), by decide +kernel⟩,
    ⟨3, 5, ⟨(⟨mkTag 0 0 3 21 0 1 4 0, 2000, 77, false⟩ : Token), 10, .stage 5⟩, ⟨0, 0, 0, 0, none⟩, ({ fireState (iw 0x010 0 dLocal 0) none none none with cl := { State.reset.cl with emit := [(53, (⟨mkTag 0 0 3 21 0 1 4 0, 2000, 77, false⟩ : Token))] } }).set F.clStatus_OWNER 3 2, by decide +kernel⟩,
    ⟨3, 5, ⟨(⟨mkTag 0 0 3 21 0 1 4 0, 2000, 77, false⟩ : Token), 10, .stage 5⟩, ⟨0, 0, 0, 0, none⟩, { (fireState (iw 0x010 0 dLocal 0) none none none) with cl := { State.reset.cl with emit := [(53, (⟨mkTag 0 0 3 21 0 1 4 0, 2000, 77, false⟩ : Token))], slots := List.replicate 16 ⟨3, 5, tag0, 7, false, none, none, none, 0⟩ } }, by decide +kernel⟩,
    ⟨3, 5, (⟨mkTag 0 0 3 21 0 1 4 0, 2000, 77, false⟩ : Token), 0, { (fireState (iw 0x010 0 dLocal 0) none none none) with regs := (withRegs [(F.fclkCtl_STOPPED, 0, 0), (F.clStatus_STATE, 3, 2), (F.clStatus_OWNER, 3, 1), (F.spillCfg_COUNT, 3, 4), (F.bankOwn_OWNER, 48, 1)]).regs, cl := { State.reset.cl with spillHold := [(53, (⟨mkTag 0 0 3 21 0 1 4 0, 2000, 77, false⟩ : Token))] } }, by decide +kernel⟩,
    ⟨3, { (fireState (iw 0x010 0 dLocal 0) none none none) with regs := (withRegs [(F.fclkCtl_STOPPED, 0, 0), (F.clStatus_STATE, 3, 2), (F.clStatus_OWNER, 3, 1), (F.spillCfg_COUNT, 3, 4), (F.bankOwn_OWNER, 48, 1)]).regs, cl := { State.reset.cl with spillHold := [(53, (⟨mkTag 0 0 3 21 0 1 4 0, 2000, 77, false⟩ : Token))] } }, by decide +kernel⟩,
    ⟨3, State.reset, by decide +kernel⟩,
    ⟨3, 1, 2, State.reset, by decide +kernel⟩⟩

/-- States and operands that meet the hypotheses of ContextsAreGrantedAndReleased. -/
theorem witness_ContextsAreGrantedAndReleased :
    (∃ (c : Fin 128) (pe : Fin 16) (err : FireErr) (f : Firing) (u : State) (q : Nat) (s : State), fired s c pe .alloc err = some (f, u) ∧ f.poison = none ∧ (s.cl.waits.filter fun x => x.cluster = c.val).length < 64 ∧ poolOf u (f.c / 4) f.part (iK f.w % 8) = some q) ∧
    (∃ (c : Fin 128) (pe : Fin 16) (err : FireErr) (f : Firing) (u : State) (s : State), fired s c pe .alloc err = some (f, u) ∧ f.poison = none ∧ (s.cl.waits.filter fun x => x.cluster = c.val).length < 64 ∧ poolOf u (f.c / 4) f.part (iK f.w % 8) = none) ∧
    (∃ (c : Fin 128) (pe : Fin 16) (err : FireErr) (s : State), 64 ≤ (s.cl.waits.filter fun x => x.cluster = c.val).length) ∧
    (∃ (r : Fin 32) (p : Fin 8) (q : PoolPass) (x : Park) (b : Nat) (bs : List Nat) (s : State), s.fabricOn (r.val * 4) = true ∧ minBy (fun x => sdiff x.due s.t) ((poolWaits s r p q.pool).filter fun x => s.cState x.cluster = 2 || s.cState x.cluster = 3) = some x ∧ freeBlocks s r p q.pool = b :: bs ∧ canResume s x.cluster x.pe q.err = true ∧ routineWord q.err = none ∧ s.flag F.injCtl_ARM 0 = false ∧ s.pState p ≠ pHalted) ∧
    (∃ (r : Fin 32) (p : Fin 8) (q : PoolPass) (x : Park) (b u : Nat) (bs : List Nat) (s : State), s.fabricOn (r.val * 4) = true ∧ minBy (fun x => sdiff x.due s.t) ((poolWaits s r p q.pool).filter fun x => s.cState x.cluster = 2 || s.cState x.cluster = 3) = some x ∧ freeBlocks s r p q.pool = b :: bs ∧ canResume s x.cluster x.pe q.err = true ∧ routineWord q.err = some u ∧ s.flag F.injCtl_ARM 0 = false ∧ s.pState p ≠ pHalted) ∧
    (∃ (r : Fin 32) (p : Fin 8) (q : PoolPass) (x : Park) (s : State), s.fabricOn (r.val * 4) = true ∧ minBy (fun x => sdiff x.due s.t) ((poolWaits s r p q.pool).filter fun x => s.cState x.cluster = 2 || s.cState x.cluster = 3) = some x ∧ canResume s x.cluster x.pe q.err = false ∧ s.pState p ≠ pHalted) ∧
    (∃ (c : Fin 128) (pe : Fin 16) (err : FireErr) (f : Firing) (u : State) (s : State), fired s c pe .free err = some (f, u) ∧ f.poison = none ∧ (f.ctx / 2 ^ (iK f.w % 8) = 0 ∨ granuleOwner u f.part f.ctx = none)) ∧
    (∃ (c : Fin 128) (pe : Fin 16) (err : FireErr) (f : Firing) (u : State) (r q : Nat) (s : State), fired s c pe .free err = some (f, u) ∧ f.poison = none ∧ f.ctx / 2 ^ (iK f.w % 8) ≠ 0 ∧ granuleOwner u f.part f.ctx = some (r, q)) ∧
    (∃ (f : Flit) (rest : List Flit) (s : State), s.fatal = false ∧ s.net.relQ = f :: rest ∧ badReq f = false ∧ (match granuleOwner s (reqPart f.pay) ((reqData f.pay).toNat % 2 ^ 14) with | some (r, q) => decide (s.get F.poolCfg_G (r * 32 + reqPart f.pay * 4 + q) = (reqArg f.pay % 8)) && decide ((((reqData f.pay).toNat % 2 ^ 14) / 2 ^ (reqArg f.pay % 8) * 2 ^ (reqArg f.pay % 8)) ≠ 0) && (s.cl.blocks.any fun b => b.part = reqPart f.pay && b.base = (((reqData f.pay).toNat % 2 ^ 14) / 2 ^ (reqArg f.pay % 8) * 2 ^ (reqArg f.pay % 8))) | none => false) = true) ∧
    (∃ (f : Flit) (rest : List Flit) (s : State), s.fatal = false ∧ s.net.relQ = f :: rest ∧ badReq f = false ∧ (match granuleOwner s (reqPart f.pay) ((reqData f.pay).toNat % 2 ^ 14) with | some (r, q) => decide (s.get F.poolCfg_G (r * 32 + reqPart f.pay * 4 + q) = (reqArg f.pay % 8)) && decide ((((reqData f.pay).toNat % 2 ^ 14) / 2 ^ (reqArg f.pay % 8) * 2 ^ (reqArg f.pay % 8)) ≠ 0) && (s.cl.blocks.any fun b => b.part = reqPart f.pay && b.base = (((reqData f.pay).toNat % 2 ^ 14) / 2 ^ (reqArg f.pay % 8) * 2 ^ (reqArg f.pay % 8))) | none => false) = false) ∧
    (∃ (f : Flit) (rest : List Flit) (s : State), s.fatal = false ∧ s.net.relQ = f :: rest ∧ badReq f = true) ∧
    (∃ (c : Fin 128) (pe : Fin 16) (err : FireErr) (f : Firing) (u : State) (g : W) (s : State), fired s c pe .ret err = some (f, u) ∧ f.l.2 = false ∧ f.r.2 = false ∧ linkTarget u f f.r.1 = some g) ∧
    (∃ (c : Fin 128) (pe : Fin 16) (err : FireErr) (f : Firing) (u : State) (s : State), fired s c pe .ret err = some (f, u) ∧ f.l.2 = false ∧ f.r.2 = false ∧ linkTarget u f f.r.1 = none) ∧
    (∃ (c : Fin 128) (pe : Fin 16) (err : FireErr) (f : Firing) (u : State) (s : State), fired s c pe .ret err = some (f, u) ∧ f.r.2 = true) :=
  ⟨⟨3, 5, okErr, gotF (((fireState (iw 0x0B0 0 (dLocal) (2)) (some (opnd 5)) (none) (none)).set F.poolCfg_SPAN 6 1).set F.poolCfg_G 6 2) .alloc, gotU (((fireState (iw 0x0B0 0 (dLocal) (2)) (some (opnd 5)) (none) (none)).set F.poolCfg_SPAN 6 1).set F.poolCfg_G 6 2) .alloc, 2, ((fireState (iw 0x0B0 0 (dLocal) (2)) (some (opnd 5)) (none) (none)).set F.poolCfg_SPAN 6 1).set F.poolCfg_G 6 2, by decide +kernel⟩,
    ⟨3, 5, okErr, gotF (fireState (iw 0x0B0 0 (dLocal) (2)) (some (opnd 5)) (none) (none)) .alloc, gotU (fireState (iw 0x0B0 0 (dLocal) (2)) (some (opnd 5)) (none) (none)) .alloc, fireState (iw 0x0B0 0 (dLocal) (2)) (some (opnd 5)) (none) (none), by decide +kernel⟩,
    ⟨3, 5, okErr, { State.reset with cl := { State.reset.cl with waits := List.replicate 64 ⟨3, 5, 0, iw 0x0B0 0 dLocal 2, tag0, 2000, 5, 0, 0, 0, none, false⟩ } }, by decide +kernel⟩,
    ⟨0, 1, ⟨2, .good⟩, ⟨3, 5, 0, iw 0x0B0 0 dLocal 2, tag0, 2000, 5, 0, 0, 0, none, false⟩, 4, [8, 12, 16, 20, 24, 28, 32, 36, 40, 44, 48, 52, 56, 60], { ((fireState (iw 0x0B0 0 (dLocal) (2)) (some (opnd 5)) (none) (none)).set F.poolCfg_SPAN 6 1).set F.poolCfg_G 6 2 with cl := { State.reset.cl with waits := [⟨3, 5, 0, iw 0x0B0 0 dLocal 2, tag0, 2000, 5, 0, 0, 0, none, false⟩] } }, by decide +kernel⟩,
    ⟨0, 1, ⟨2, ⟨some 0x300, false, false⟩⟩, ⟨3, 5, 0, iw 0x0B0 0 dLocal 2, tag0, 2000, 5, 0, 0, 0, none, false⟩, 4, 0x300, [8, 12, 16, 20, 24, 28, 32, 36, 40, 44, 48, 52, 56, 60], { ((fireState (iw 0x0B0 0 (dLocal) (2)) (some (opnd 5)) (none) (none)).set F.poolCfg_SPAN 6 1).set F.poolCfg_G 6 2 with cl := { State.reset.cl with waits := [⟨3, 5, 0, iw 0x0B0 0 dLocal 2, tag0, 2000, 5, 0, 0, 0, none, false⟩] } }, by decide +kernel⟩,
    ⟨0, 1, ⟨2, .good⟩, ⟨3, 5, 0, iw 0x0B0 0 dLocal 2, tag0, 2000, 5, 0, 0, 0, none, false⟩, ({ ((fireState (iw 0x0B0 0 (dLocal) (2)) (some (opnd 5)) (none) (none)).set F.poolCfg_SPAN 6 1).set F.poolCfg_G 6 2 with cl := { State.reset.cl with waits := [⟨3, 5, 0, iw 0x0B0 0 dLocal 2, tag0, 2000, 5, 0, 0, 0, none, false⟩] } }).set F.peStat_STOPPED 53 1, by decide +kernel⟩,
    ⟨3, 5, okErr, gotF (fireState (iw 0x0B1 0 (0) (6)) (some (opnd 5)) (none) (none)) .free, gotU (fireState (iw 0x0B1 0 (0) (6)) (some (opnd 5)) (none) (none)) .free, fireState (iw 0x0B1 0 (0) (6)) (some (opnd 5)) (none) (none), by decide +kernel⟩,
    ⟨3, 5, okErr, gotF (((fireState (iw 0x0B1 0 0 2) (some (opnd 5)) none none).set F.poolCfg_SPAN 6 1).set F.poolCfg_G 6 2) .free, gotU (((fireState (iw 0x0B1 0 0 2) (some (opnd 5)) none none).set F.poolCfg_SPAN 6 1).set F.poolCfg_G 6 2) .free, 0, 2, ((fireState (iw 0x0B1 0 0 2) (some (opnd 5)) none none).set F.poolCfg_SPAN 6 1).set F.poolCfg_G 6 2, by decide +kernel⟩,
    ⟨(mkFlit 1 false (reqPay 0 4 11 1 false (3 * 2 ^ 7) 2) [] 1 0 0), [], { ((fireState (iw 0x0B0 0 (dLocal) (2)) (some (opnd 5)) (none) (none)).set F.poolCfg_SPAN 6 1).set F.poolCfg_G 6 2 with cl := { State.reset.cl with blocks := [⟨1, 0, 2, 4, 2, 0⟩] }, net := { State.reset.net with relQ := [(mkFlit 1 false (reqPay 0 4 11 1 false (3 * 2 ^ 7) 2) [] 1 0 0)] } }, by decide +kernel⟩,
    ⟨(mkFlit 1 false (reqPay 0 8 11 1 false (3 * 2 ^ 7) 2) [] 1 0 0), [], { ((fireState (iw 0x0B0 0 (dLocal) (2)) (some (opnd 5)) (none) (none)).set F.poolCfg_SPAN 6 1).set F.poolCfg_G 6 2 with cl := { State.reset.cl with blocks := [⟨1, 0, 2, 4, 2, 0⟩] }, net := { State.reset.net with relQ := [(mkFlit 1 false (reqPay 0 8 11 1 false (3 * 2 ^ 7) 2) [] 1 0 0)] } }, by decide +kernel⟩,
    ⟨(mkFlit 1 false (reqPay 0 4 11 1 false (3 * 2 ^ 7) 9) [] 1 0 0), [], { ((fireState (iw 0x0B0 0 (dLocal) (2)) (some (opnd 5)) (none) (none)).set F.poolCfg_SPAN 6 1).set F.poolCfg_G 6 2 with cl := { State.reset.cl with blocks := [⟨1, 0, 2, 4, 2, 0⟩] }, net := { State.reset.net with relQ := [(mkFlit 1 false (reqPay 0 4 11 1 false (3 * 2 ^ 7) 9) [] 1 0 0)] } }, by decide +kernel⟩,
    ⟨3, 5, okErr, gotF (fireState (iw 0x0B3 0 (0) (0)) (some (opnd 5)) (some (opnd (mkTag 0 0 3 21 0 0 7 0))) (none)) .ret, gotU (fireState (iw 0x0B3 0 (0) (0)) (some (opnd 5)) (some (opnd (mkTag 0 0 3 21 0 0 7 0))) (none)) .ret, mkTag 0 0 3 21 0 1 7 0, fireState (iw 0x0B3 0 (0) (0)) (some (opnd 5)) (some (opnd (mkTag 0 0 3 21 0 0 7 0))) (none), by decide +kernel⟩,
    ⟨3, 5, okErr, gotF (fireState (iw 0x0B3 0 (0) (0)) (some (opnd 5)) (some (opnd 3)) (none)) .ret, gotU (fireState (iw 0x0B3 0 (0) (0)) (some (opnd 5)) (some (opnd 3)) (none)) .ret, fireState (iw 0x0B3 0 (0) (0)) (some (opnd 5)) (some (opnd 3)) (none), by decide +kernel⟩,
    ⟨3, 5, okErr, gotF (fireState (iw 0x0B3 0 (0) (0)) (some (opnd 5)) (some ⟨2000, 3, true, none⟩) (none)) .ret, gotU (fireState (iw 0x0B3 0 (0) (0)) (some (opnd 5)) (some ⟨2000, 3, true, none⟩) (none)) .ret, fireState (iw 0x0B3 0 (0) (0)) (some (opnd 5)) (some ⟨2000, 3, true, none⟩) (none), by decide +kernel⟩⟩

/-- States and operands that meet the hypotheses of RequestsLeaveTheirPe. -/
theorem witness_RequestsLeaveTheirPe :
    (∃ (c : Fin 128) (pe : Fin 16) (err : FireErr) (f : Firing) (u : State) (e : Nat) (s : State), s.heldSeq c pe = none ∧ fired s c pe .load err = some (f, u) ∧ f.poison = none ∧ addrBad f.l.1 = false ∧ freePark u f.c f.pe = some e ∧ tagPkg f.l.1 = u.pkg ∧ cIdx (tagDie f.l.1) (tagCluster f.l.1) = f.c) ∧
    (∃ (c : Fin 128) (pe : Fin 16) (err : FireErr) (f : Firing) (u : State) (e : Nat) (s : State), s.heldSeq c pe = none ∧ fired s c pe .load err = some (f, u) ∧ f.poison = none ∧ addrBad f.l.1 = false ∧ freePark u f.c f.pe = some e ∧ (tagPkg f.l.1 ≠ u.pkg ∨ cIdx (tagDie f.l.1) (tagCluster f.l.1) ≠ f.c)) ∧
    (∃ (c : Fin 128) (pe : Fin 16) (err : FireErr) (f : Firing) (u : State) (e : Nat) (s : State), s.heldSeq c pe = none ∧ fired s c pe .store err = some (f, u) ∧ f.poison = none ∧ addrBad f.l.1 = false ∧ freePark u f.c f.pe = some e ∧ tagPkg f.l.1 = u.pkg ∧ cIdx (tagDie f.l.1) (tagCluster f.l.1) = f.c) ∧
    (∃ (c : Fin 128) (pe : Fin 16) (err : FireErr) (f : Firing) (u : State) (e : Nat) (s : State), s.heldSeq c pe = none ∧ fired s c pe .store err = some (f, u) ∧ f.poison = none ∧ addrBad f.l.1 = false ∧ freePark u f.c f.pe = some e ∧ (tagPkg f.l.1 ≠ u.pkg ∨ cIdx (tagDie f.l.1) (tagCluster f.l.1) ≠ f.c)) ∧
    (∃ (c : Fin 128) (pe : Fin 16) (err : FireErr) (f : Firing) (u : State) (e : Nat) (s : State), s.heldSeq c pe = none ∧ fired s c pe .read err = some (f, u) ∧ f.poison = none ∧ addrBad f.l.1 = false ∧ freePark u f.c f.pe = some e ∧ tagPkg f.l.1 = u.pkg ∧ cIdx (tagDie f.l.1) (tagCluster f.l.1) = f.c) ∧
    (∃ (c : Fin 128) (pe : Fin 16) (err : FireErr) (f : Firing) (u : State) (e : Nat) (s : State), s.heldSeq c pe = none ∧ fired s c pe .read err = some (f, u) ∧ f.poison = none ∧ addrBad f.l.1 = false ∧ freePark u f.c f.pe = some e ∧ (tagPkg f.l.1 ≠ u.pkg ∨ cIdx (tagDie f.l.1) (tagCluster f.l.1) ≠ f.c)) ∧
    (∃ (c : Fin 128) (pe : Fin 16) (err : FireErr) (f : Firing) (u : State) (e : Nat) (s : State), s.heldSeq c pe = none ∧ fired s c pe .write err = some (f, u) ∧ f.poison = none ∧ addrBad f.l.1 = false ∧ freePark u f.c f.pe = some e ∧ tagPkg f.l.1 = u.pkg ∧ cIdx (tagDie f.l.1) (tagCluster f.l.1) = f.c) ∧
    (∃ (c : Fin 128) (pe : Fin 16) (err : FireErr) (f : Firing) (u : State) (e : Nat) (s : State), s.heldSeq c pe = none ∧ fired s c pe .write err = some (f, u) ∧ f.poison = none ∧ addrBad f.l.1 = false ∧ freePark u f.c f.pe = some e ∧ (tagPkg f.l.1 ≠ u.pkg ∨ cIdx (tagDie f.l.1) (tagCluster f.l.1) ≠ f.c)) ∧
    (∃ (c : Fin 128) (pe : Fin 16) (err : FireErr) (f : Firing) (u : State) (e : Nat) (s : State), s.heldSeq c pe = none ∧ fired s c pe .iclr err = some (f, u) ∧ f.poison = none ∧ addrBad f.l.1 = false ∧ freePark u f.c f.pe = some e ∧ tagPkg f.l.1 = u.pkg ∧ cIdx (tagDie f.l.1) (tagCluster f.l.1) = f.c) ∧
    (∃ (c : Fin 128) (pe : Fin 16) (err : FireErr) (f : Firing) (u : State) (e : Nat) (s : State), s.heldSeq c pe = none ∧ fired s c pe .iclr err = some (f, u) ∧ f.poison = none ∧ addrBad f.l.1 = false ∧ freePark u f.c f.pe = some e ∧ (tagPkg f.l.1 ≠ u.pkg ∨ cIdx (tagDie f.l.1) (tagCluster f.l.1) ≠ f.c)) ∧
    (∃ (c : Fin 128) (pe : Fin 16) (err : FireErr) (f : Firing) (u : State) (e : Nat) (s : State), s.heldSeq c pe = none ∧ fired s c pe .fetchAdd err = some (f, u) ∧ f.poison = none ∧ addrBad f.l.1 = false ∧ freePark u f.c f.pe = some e ∧ tagPkg f.l.1 = u.pkg ∧ cIdx (tagDie f.l.1) (tagCluster f.l.1) = f.c) ∧
    (∃ (c : Fin 128) (pe : Fin 16) (err : FireErr) (f : Firing) (u : State) (e : Nat) (s : State), s.heldSeq c pe = none ∧ fired s c pe .fetchAdd err = some (f, u) ∧ f.poison = none ∧ addrBad f.l.1 = false ∧ freePark u f.c f.pe = some e ∧ (tagPkg f.l.1 ≠ u.pkg ∨ cIdx (tagDie f.l.1) (tagCluster f.l.1) ≠ f.c)) ∧
    (∃ (c : Fin 128) (pe : Fin 16) (err : FireErr) (f : Firing) (u : State) (e : Nat) (s : State), s.heldSeq c pe = none ∧ fired s c pe .swap err = some (f, u) ∧ f.poison = none ∧ addrBad f.l.1 = false ∧ freePark u f.c f.pe = some e ∧ tagPkg f.l.1 = u.pkg ∧ cIdx (tagDie f.l.1) (tagCluster f.l.1) = f.c) ∧
    (∃ (c : Fin 128) (pe : Fin 16) (err : FireErr) (f : Firing) (u : State) (e : Nat) (s : State), s.heldSeq c pe = none ∧ fired s c pe .swap err = some (f, u) ∧ f.poison = none ∧ addrBad f.l.1 = false ∧ freePark u f.c f.pe = some e ∧ (tagPkg f.l.1 ≠ u.pkg ∨ cIdx (tagDie f.l.1) (tagCluster f.l.1) ≠ f.c)) ∧
    (∃ (c : Fin 128) (pe : Fin 16) (err : FireErr) (f : Firing) (u : State) (s : State), s.heldSeq c pe = none ∧ fired s c pe .load err = some (f, u) ∧ f.poison = none ∧ addrBad f.l.1 = false ∧ freePark u f.c f.pe = none) ∧
    (∃ (c : Fin 128) (pe : Fin 16) (err : FireErr) (f : Firing) (u : State) (s : State), s.heldSeq c pe = none ∧ fired s c pe .load err = some (f, u) ∧ f.poison = none ∧ addrBad f.l.1 = true) ∧
    (∃ (c : Fin 128) (pe : Fin 16) (err : FireErr) (f : Firing) (u : State) (e : Nat) (s : State), s.heldSeq c pe = none ∧ fired s c pe .angleAt err = some (f, u) ∧ f.poison = none ∧ freePark u f.c f.pe = some e ∧ (u.cl.injQ.any fun g => g.ty = 2 && rspRet g.pay = (u.pkg * 2 ^ 15 + f.c / 16 * 2 ^ 11 + f.c % 16 * 2 ^ 7 + f.pe * 8 + e)) = false ∧ u.pkgOk (u.pkg % 16) = true) ∧
    (∃ (c : Fin 128) (pe : Fin 16) (err : FireErr) (f : Firing) (u : State) (e : Nat) (s : State), s.heldSeq c pe = none ∧ fired s c pe .timeAt err = some (f, u) ∧ f.poison = none ∧ freePark u f.c f.pe = some e ∧ (u.cl.injQ.any fun g => g.ty = 2 && rspRet g.pay = (u.pkg * 2 ^ 15 + f.c / 16 * 2 ^ 11 + f.c % 16 * 2 ^ 7 + f.pe * 8 + e)) = false ∧ u.pkgOk (u.pkg % 16) = true) ∧
    (∃ (c : Fin 128) (pe : Fin 16) (err : FireErr) (f : Firing) (u : State) (e : Nat) (s : State), s.heldSeq c pe = none ∧ fired s c pe .out err = some (f, u) ∧ f.poison = none ∧ dstV (iDst0 f.w) = true ∧ freePark u f.c f.pe = some e ∧ (u.cl.injQ.any fun g => g.ty = 2 && rspRet g.pay = (u.pkg * 2 ^ 15 + f.c / 16 * 2 ^ 11 + f.c % 16 * 2 ^ 7 + f.pe * 8 + e)) = false ∧ u.pkgOk (bits (iK f.w) 40 4) = true) ∧
    (∃ (c : Fin 128) (pe : Fin 16) (err : FireErr) (f : Firing) (u : State) (s : State), s.heldSeq c pe = none ∧ fired s c pe .out err = some (f, u) ∧ f.poison = none ∧ dstV (iDst0 f.w) = false ∧ u.pkgOk (bits (iK f.w) 40 4) = true) ∧
    (∃ (c : Fin 128) (pe : Fin 16) (err : FireErr) (f : Firing) (u : State) (e : Nat) (s : State), s.heldSeq c pe = none ∧ fired s c pe .emitAt err = some (f, u) ∧ f.poison = none ∧ dstV (iDst0 f.w) = true ∧ freePark u f.c f.pe = some e ∧ (u.cl.injQ.any fun g => g.ty = 2 && rspRet g.pay = (u.pkg * 2 ^ 15 + f.c / 16 * 2 ^ 11 + f.c % 16 * 2 ^ 7 + f.pe * 8 + e)) = false ∧ u.pkgOk (bits (iK f.w) 40 4) = true) ∧
    (∃ (c : Fin 128) (pe : Fin 16) (err : FireErr) (f : Firing) (u : State) (s : State), s.heldSeq c pe = none ∧ fired s c pe .emitAt err = some (f, u) ∧ f.poison = none ∧ dstV (iDst0 f.w) = false ∧ u.pkgOk (bits (iK f.w) 40 4) = true) :=
  ⟨⟨3, 5, okErr, gotF (fireState (iw 0x0C0 0 (dLocal) (0)) (some (opnd (clAddr 3 0x8010))) (none) (none)) .load, gotU (fireState (iw 0x0C0 0 (dLocal) (0)) (some (opnd (clAddr 3 0x8010))) (none) (none)) .load, 0, fireState (iw 0x0C0 0 (dLocal) (0)) (some (opnd (clAddr 3 0x8010))) (none) (none), by decide +kernel⟩,
    ⟨3, 5, okErr, gotF (fireState (iw 0x0C0 0 (dLocal) (0)) (some (opnd (clAddr 4 0x8010))) (none) (none)) .load, gotU (fireState (iw 0x0C0 0 (dLocal) (0)) (some (opnd (clAddr 4 0x8010))) (none) (none)) .load, 0, fireState (iw 0x0C0 0 (dLocal) (0)) (some (opnd (clAddr 4 0x8010))) (none) (none), by decide +kernel⟩,
    ⟨3, 5, okErr, gotF (fireState (iw 0x0C1 0 (dLocal) (0)) (some (opnd (clAddr 3 0x8010))) (some (opnd 9)) (none)) .store, gotU (fireState (iw 0x0C1 0 (dLocal) (0)) (some (opnd (clAddr 3 0x8010))) (some (opnd 9)) (none)) .store, 0, fireState (iw 0x0C1 0 (dLocal) (0)) (some (opnd (clAddr 3 0x8010))) (some (opnd 9)) (none), by decide +kernel⟩,
    ⟨3, 5, okErr, gotF (fireState (iw 0x0C1 0 (dLocal) (0)) (some (opnd (clAddr 4 0x8010))) (some (opnd 9)) (none)) .store, gotU (fireState (iw 0x0C1 0 (dLocal) (0)) (some (opnd (clAddr 4 0x8010))) (some (opnd 9)) (none)) .store, 0, fireState (iw 0x0C1 0 (dLocal) (0)) (some (opnd (clAddr 4 0x8010))) (some (opnd 9)) (none), by decide +kernel⟩,
    ⟨3, 5, okErr, gotF (fireState (iw 0x0C2 0 (dLocal) (0)) (some (opnd (clAddr 3 0x8010))) (none) (none)) .read, gotU (fireState (iw 0x0C2 0 (dLocal) (0)) (some (opnd (clAddr 3 0x8010))) (none) (none)) .read, 0, fireState (iw 0x0C2 0 (dLocal) (0)) (some (opnd (clAddr 3 0x8010))) (none) (none), by decide +kernel⟩,
    ⟨3, 5, okErr, gotF (fireState (iw 0x0C2 0 (dLocal) (0)) (some (opnd (clAddr 4 0x8010))) (none) (none)) .read, gotU (fireState (iw 0x0C2 0 (dLocal) (0)) (some (opnd (clAddr 4 0x8010))) (none) (none)) .read, 0, fireState (iw 0x0C2 0 (dLocal) (0)) (some (opnd (clAddr 4 0x8010))) (none) (none), by decide +kernel⟩,
    ⟨3, 5, okErr, gotF (fireState (iw 0x0C3 0 (dLocal) (0)) (some (opnd (clAddr 3 0x8010))) (some (opnd 9)) (none)) .write, gotU (fireState (iw 0x0C3 0 (dLocal) (0)) (some (opnd (clAddr 3 0x8010))) (some (opnd 9)) (none)) .write, 0, fireState (iw 0x0C3 0 (dLocal) (0)) (some (opnd (clAddr 3 0x8010))) (some (opnd 9)) (none), by decide +kernel⟩,
    ⟨3, 5, okErr, gotF (fireState (iw 0x0C3 0 (dLocal) (0)) (some (opnd (clAddr 4 0x8010))) (some (opnd 9)) (none)) .write, gotU (fireState (iw 0x0C3 0 (dLocal) (0)) (some (opnd (clAddr 4 0x8010))) (some (opnd 9)) (none)) .write, 0, fireState (iw 0x0C3 0 (dLocal) (0)) (some (opnd (clAddr 4 0x8010))) (some (opnd 9)) (none), by decide +kernel⟩,
    ⟨3, 5, okErr, gotF (fireState (iw 0x0C4 0 (dLocal) (0)) (some (opnd (clAddr 3 0x8010))) (none) (none)) .iclr, gotU (fireState (iw 0x0C4 0 (dLocal) (0)) (some (opnd (clAddr 3 0x8010))) (none) (none)) .iclr, 0, fireState (iw 0x0C4 0 (dLocal) (0)) (some (opnd (clAddr 3 0x8010))) (none) (none), by decide +kernel⟩,
    ⟨3, 5, okErr, gotF (fireState (iw 0x0C4 0 (dLocal) (0)) (some (opnd (clAddr 4 0x8010))) (none) (none)) .iclr, gotU (fireState (iw 0x0C4 0 (dLocal) (0)) (some (opnd (clAddr 4 0x8010))) (none) (none)) .iclr, 0, fireState (iw 0x0C4 0 (dLocal) (0)) (some (opnd (clAddr 4 0x8010))) (none) (none), by decide +kernel⟩,
    ⟨3, 5, okErr, gotF (fireState (iw 0x0C5 0 (dLocal) (0)) (some (opnd (clAddr 3 0x8010))) (some (opnd 9)) (none)) .fetchAdd, gotU (fireState (iw 0x0C5 0 (dLocal) (0)) (some (opnd (clAddr 3 0x8010))) (some (opnd 9)) (none)) .fetchAdd, 0, fireState (iw 0x0C5 0 (dLocal) (0)) (some (opnd (clAddr 3 0x8010))) (some (opnd 9)) (none), by decide +kernel⟩,
    ⟨3, 5, okErr, gotF (fireState (iw 0x0C5 0 (dLocal) (0)) (some (opnd (clAddr 4 0x8010))) (some (opnd 9)) (none)) .fetchAdd, gotU (fireState (iw 0x0C5 0 (dLocal) (0)) (some (opnd (clAddr 4 0x8010))) (some (opnd 9)) (none)) .fetchAdd, 0, fireState (iw 0x0C5 0 (dLocal) (0)) (some (opnd (clAddr 4 0x8010))) (some (opnd 9)) (none), by decide +kernel⟩,
    ⟨3, 5, okErr, gotF (fireState (iw 0x0C6 0 (dLocal) (0)) (some (opnd (clAddr 3 0x8010))) (some (opnd 9)) (none)) .swap, gotU (fireState (iw 0x0C6 0 (dLocal) (0)) (some (opnd (clAddr 3 0x8010))) (some (opnd 9)) (none)) .swap, 0, fireState (iw 0x0C6 0 (dLocal) (0)) (some (opnd (clAddr 3 0x8010))) (some (opnd 9)) (none), by decide +kernel⟩,
    ⟨3, 5, okErr, gotF (fireState (iw 0x0C6 0 (dLocal) (0)) (some (opnd (clAddr 4 0x8010))) (some (opnd 9)) (none)) .swap, gotU (fireState (iw 0x0C6 0 (dLocal) (0)) (some (opnd (clAddr 4 0x8010))) (some (opnd 9)) (none)) .swap, 0, fireState (iw 0x0C6 0 (dLocal) (0)) (some (opnd (clAddr 4 0x8010))) (some (opnd 9)) (none), by decide +kernel⟩,
    ⟨3, 5, okErr, gotF ({ fireState (iw 0x0C0 0 (dLocal) (0)) (some (opnd (clAddr 3 0x8010))) (none) (none) with cl := { (fireState (iw 0x0C0 0 (dLocal) (0)) (some (opnd (clAddr 3 0x8010))) (none) (none)).cl with parks := (List.range 8).map fun e => ⟨3, 5, e, 0, tag0, 0, 0, 0, 0, 0, none, false⟩ } }) .load, gotU ({ fireState (iw 0x0C0 0 (dLocal) (0)) (some (opnd (clAddr 3 0x8010))) (none) (none) with cl := { (fireState (iw 0x0C0 0 (dLocal) (0)) (some (opnd (clAddr 3 0x8010))) (none) (none)).cl with parks := (List.range 8).map fun e => ⟨3, 5, e, 0, tag0, 0, 0, 0, 0, 0, none, false⟩ } }) .load, { fireState (iw 0x0C0 0 (dLocal) (0)) (some (opnd (clAddr 3 0x8010))) (none) (none) with cl := { (fireState (iw 0x0C0 0 (dLocal) (0)) (some (opnd (clAddr 3 0x8010))) (none) (none)).cl with parks := (List.range 8).map fun e => ⟨3, 5, e, 0, tag0, 0, 0, 0, 0, 0, none, false⟩ } }, by decide +kernel⟩,
    ⟨3, 5, okErr, gotF (fireState (iw 0x0C0 0 (dLocal) (0)) (some (opnd 4)) (none) (none)) .load, gotU (fireState (iw 0x0C0 0 (dLocal) (0)) (some (opnd 4)) (none) (none)) .load, fireState (iw 0x0C0 0 (dLocal) (0)) (some (opnd 4)) (none) (none), by decide +kernel⟩,
    ⟨3, 5, okErr, gotF (fireState (iw 0x0E0 1 (dLocal) (0)) (some (opnd 9)) (none) (none)) .angleAt, gotU (fireState (iw 0x0E0 1 (dLocal) (0)) (some (opnd 9)) (none) (none)) .angleAt, 0, fireState (iw 0x0E0 1 (dLocal) (0)) (some (opnd 9)) (none) (none), by decide +kernel⟩,
    ⟨3, 5, okErr, gotF (fireState (iw 0x0E8 1 (dLocal) (0)) (some (opnd 9)) (none) (none)) .timeAt, gotU (fireState (iw 0x0E8 1 (dLocal) (0)) (some (opnd 9)) (none) (none)) .timeAt, 0, fireState (iw 0x0E8 1 (dLocal) (0)) (some (opnd 9)) (none) (none), by decide +kernel⟩,
    ⟨3, 5, okErr, gotF (fireState (iw 0x0F0 0 (dLocal) (2 * 2 ^ 44 + 5)) (some (opnd 9)) (none) (none)) .out, gotU (fireState (iw 0x0F0 0 (dLocal) (2 * 2 ^ 44 + 5)) (some (opnd 9)) (none) (none)) .out, 0, fireState (iw 0x0F0 0 (dLocal) (2 * 2 ^ 44 + 5)) (some (opnd 9)) (none) (none), by decide +kernel⟩,
    ⟨3, 5, okErr, gotF (fireState (iw 0x0F0 0 (0) (2 * 2 ^ 44 + 5)) (some (opnd 9)) (none) (none)) .out, gotU (fireState (iw 0x0F0 0 (0) (2 * 2 ^ 44 + 5)) (some (opnd 9)) (none) (none)) .out, fireState (iw 0x0F0 0 (0) (2 * 2 ^ 44 + 5)) (some (opnd 9)) (none) (none), by decide +kernel⟩,
    ⟨3, 5, okErr, gotF (fireState (iw 0x0F1 0 (dLocal) (2 * 2 ^ 44 + 5)) (some (opnd 9)) (none) (none)) .emitAt, gotU (fireState (iw 0x0F1 0 (dLocal) (2 * 2 ^ 44 + 5)) (some (opnd 9)) (none) (none)) .emitAt, 0, fireState (iw 0x0F1 0 (dLocal) (2 * 2 ^ 44 + 5)) (some (opnd 9)) (none) (none), by decide +kernel⟩,
    ⟨3, 5, okErr, gotF (fireState (iw 0x0F1 0 (0) (2 * 2 ^ 44 + 5)) (some (opnd 9)) (none) (none)) .emitAt, gotU (fireState (iw 0x0F1 0 (0) (2 * 2 ^ 44 + 5)) (some (opnd 9)) (none) (none)) .emitAt, fireState (iw 0x0F1 0 (0) (2 * 2 ^ 44 + 5)) (some (opnd 9)) (none) (none), by decide +kernel⟩⟩

/-- States and operands that meet the hypotheses of UserRoutinesAndResponses. -/
theorem witness_UserRoutinesAndResponses :
    (∃ (c : Fin 128) (pe : Fin 16) (err : FireErr) (f : Firing) (u : State) (w : Nat) (v : W) (b : Stk) (s : State), fired s c pe .user err = some (f, u) ∧ f.poison = none ∧ err.pass = .good ∧ u.get F.dispatch_ENTRY (f.c * 1024 + iOpc f.w) ≥ 0x600 ∧ w = u.uword f.c (u.get F.dispatch_ENTRY (f.c * 1024 + iOpc f.w)) ∧ parityGroups w = 0 ∧ uFieldsBad w = false ∧ uSeq w = 5 ∧ uReq w = 0 ∧ uXu w = 0 ∧ uEmit w = 2 ∧ uEpoi w = 0 ∧ uEsrc w = 15 ∧ uTen w % 2 = 0 ∧ uAsrc w = 1 ∧ uBsrc w = 2 ∧ readPorts u f.c (iOpc f.w) % 4 = 3 ∧ aluResult ⟨0, [], [], 0, none, none, 0, 0, 0, 0, mget 0 u.cl.arith (f.part * 2 + f.ep)⟩ (uAlu w) f.l.1 f.r.1 = some (v, b)) ∧
    (∃ (c : Fin 128) (pe : Fin 16) (err : FireErr) (f : Firing) (u : State) (v : W) (s : State), fired s c pe .user err = some (f, u) ∧ f.poison = some v) ∧
    (∃ (c : Fin 128) (pe : Fin 16) (err : PassErr) (f : Flit) (s : State), s.fabricOn c = true ∧ s.heldSeq c pe = none ∧ nextRsp s c pe = some f ∧ takeFirst (fun p : Park => p.cluster = c.val && p.pe = pe.val && p.entry = rspRet f.pay % 8) s.cl.parks = none) ∧
    (∃ (c : Fin 128) (pe : Fin 16) (err : PassErr) (f : Flit) (p : Park) (rest : List Park) (s : State), s.fabricOn c = true ∧ s.heldSeq c pe = none ∧ nextRsp s c pe = some f ∧ takeFirst (fun p : Park => p.cluster = c.val && p.pe = pe.val && p.entry = rspRet f.pay % 8) s.cl.parks = some (p, rest) ∧ canResume s c pe err = true ∧ err.parity = none ∧ s.flag F.injCtl_ARM 0 = false ∧ filtered s (tagPart p.tag) (tagCtx p.tag) = false ∧ (pf f.pay 121 4 ≠ 1 ∨ f.poison = true) ∧ p.detached = false ∧ p.user = none ∧ f.poison = false ∧ opClass (iOpc p.word) ∉ [OpClass.angleAt, OpClass.timeAt, OpClass.out, OpClass.emitAt]) ∧
    (∃ (c : Fin 128) (pe : Fin 16) (err : PassErr) (f : Flit) (p : Park) (rest : List Park) (s : State), s.fabricOn c = true ∧ s.heldSeq c pe = none ∧ nextRsp s c pe = some f ∧ takeFirst (fun p : Park => p.cluster = c.val && p.pe = pe.val && p.entry = rspRet f.pay % 8) s.cl.parks = some (p, rest) ∧ canResume s c pe err = true ∧ err.parity = none ∧ s.flag F.injCtl_ARM 0 = false ∧ filtered s (tagPart p.tag) (tagCtx p.tag) = false ∧ (pf f.pay 121 4 ≠ 1 ∨ f.poison = true) ∧ p.detached = false ∧ p.user = none ∧ f.poison = false ∧ opClass (iOpc p.word) = .angleAt) ∧
    (∃ (c : Fin 128) (pe : Fin 16) (err : PassErr) (f : Flit) (p : Park) (rest : List Park) (s : State), s.fabricOn c = true ∧ s.heldSeq c pe = none ∧ nextRsp s c pe = some f ∧ takeFirst (fun p : Park => p.cluster = c.val && p.pe = pe.val && p.entry = rspRet f.pay % 8) s.cl.parks = some (p, rest) ∧ canResume s c pe err = true ∧ err.parity = none ∧ s.flag F.injCtl_ARM 0 = false ∧ filtered s (tagPart p.tag) (tagCtx p.tag) = false ∧ (pf f.pay 121 4 ≠ 1 ∨ f.poison = true) ∧ p.detached = false ∧ p.user = none ∧ f.poison = false ∧ opClass (iOpc p.word) = .timeAt) ∧
    (∃ (c : Fin 128) (pe : Fin 16) (err : PassErr) (f : Flit) (p : Park) (rest : List Park) (s : State), s.fabricOn c = true ∧ s.heldSeq c pe = none ∧ nextRsp s c pe = some f ∧ takeFirst (fun p : Park => p.cluster = c.val && p.pe = pe.val && p.entry = rspRet f.pay % 8) s.cl.parks = some (p, rest) ∧ canResume s c pe err = true ∧ err.parity = none ∧ s.flag F.injCtl_ARM 0 = false ∧ filtered s (tagPart p.tag) (tagCtx p.tag) = false ∧ (pf f.pay 121 4 ≠ 1 ∨ f.poison = true) ∧ p.detached = false ∧ p.user = none ∧ f.poison = false ∧ (opClass (iOpc p.word) = .out ∨ opClass (iOpc p.word) = .emitAt)) ∧
    (∃ (c : Fin 128) (pe : Fin 16) (err : PassErr) (f : Flit) (p : Park) (rest : List Park) (s : State), s.fabricOn c = true ∧ s.heldSeq c pe = none ∧ nextRsp s c pe = some f ∧ takeFirst (fun p : Park => p.cluster = c.val && p.pe = pe.val && p.entry = rspRet f.pay % 8) s.cl.parks = some (p, rest) ∧ canResume s c pe err = true ∧ err.parity = none ∧ s.flag F.injCtl_ARM 0 = false ∧ filtered s (tagPart p.tag) (tagCtx p.tag) = false ∧ (pf f.pay 121 4 ≠ 1 ∨ f.poison = true) ∧ p.detached = false ∧ p.user = none ∧ f.poison = true) ∧
    (∃ (c : Fin 128) (pe : Fin 16) (err : PassErr) (f : Flit) (p : Park) (rest : List Park) (s : State), s.fabricOn c = true ∧ s.heldSeq c pe = none ∧ nextRsp s c pe = some f ∧ takeFirst (fun p : Park => p.cluster = c.val && p.pe = pe.val && p.entry = rspRet f.pay % 8) s.cl.parks = some (p, rest) ∧ canResume s c pe err = true ∧ err.parity = none ∧ s.flag F.injCtl_ARM 0 = false ∧ filtered s (tagPart p.tag) (tagCtx p.tag) = false ∧ pf f.pay 121 4 = 1 ∧ f.poison = false ∧ p.user = none) ∧
    (∃ (c : Fin 128) (pe : Fin 16) (err : PassErr) (f : Flit) (p : Park) (rest : List Park) (s : State), s.fabricOn c = true ∧ s.heldSeq c pe = none ∧ nextRsp s c pe = some f ∧ takeFirst (fun p : Park => p.cluster = c.val && p.pe = pe.val && p.entry = rspRet f.pay % 8) s.cl.parks = some (p, rest) ∧ canResume s c pe err = true ∧ err.parity = none ∧ s.flag F.injCtl_ARM 0 = false ∧ filtered s (tagPart p.tag) (tagCtx p.tag) = false ∧ (pf f.pay 121 4 ≠ 1 ∨ f.poison = true) ∧ p.detached = true) ∧
    (∃ (c : Fin 128) (pe : Fin 16) (err : PassErr) (f : Flit) (p : Park) (rest : List Park) (m : MicroSt) (s : State), s.fabricOn c = true ∧ s.heldSeq c pe = none ∧ nextRsp s c pe = some f ∧ takeFirst (fun p : Park => p.cluster = c.val && p.pe = pe.val && p.entry = rspRet f.pay % 8) s.cl.parks = some (p, rest) ∧ canResume s c pe err = true ∧ err.parity = none ∧ s.flag F.injCtl_ARM 0 = false ∧ filtered s (tagPart p.tag) (tagCtx p.tag) = false ∧ (pf f.pay 121 4 ≠ 1 ∨ f.poison = true) ∧ p.detached = false ∧ p.user = some m) ∧
    (∃ (c : Fin 128) (pe : Fin 16) (err : PassErr) (f : Flit) (tag : W) (s : State), s.fabricOn c = true ∧ canFire s c pe err = true ∧ err.parity = none ∧ err.dispatch = false ∧ s.flag F.injCtl_ARM 0 = false ∧ nextAns s c pe = some f ∧ tag = w48 (pf f.pay 96 48) &&& ~~~(0x180001 : W) ∧ filtered s (tagPart tag) (tagCtx tag) = false ∧ opClass (iOpc (s.instr c (tagInstr tag))) ≠ .user) ∧
    (∃ (c : Fin 128) (pe : Fin 16) (err : PassErr) (f : Flit) (tag : W) (s : State), s.fabricOn c = true ∧ canFire s c pe err = true ∧ err.parity = none ∧ err.dispatch = false ∧ s.flag F.injCtl_ARM 0 = false ∧ nextAns s c pe = some f ∧ tag = w48 (pf f.pay 96 48) &&& ~~~(0x180001 : W) ∧ filtered s (tagPart tag) (tagCtx tag) = false ∧ opClass (iOpc (s.instr c (tagInstr tag))) = .user) :=
  ⟨⟨3, 5, okErr, gotF (userState (opnd 5)) .user, gotU (userState (opnd 5)) .user, userWord, 12, 0, (userState (opnd 5)), by decide +kernel⟩,
    ⟨3, 5, okErr, gotF (userState ⟨2000, 5, true, none⟩) .user, gotU (userState ⟨2000, 5, true, none⟩) .user, 5, (userState ⟨2000, 5, true, none⟩), by decide +kernel⟩,
    ⟨3, 5, .good, (mkFlit 2 false (rspPay (3 * 2 ^ 7 + 5 * 2 ^ 3 + 2) 0 77 0) [] 1 0 3), { fireState (iw 0x0C2 0 dLocal 0) none none none with net := { State.reset.net with rspQ := [(mkFlit 2 false (rspPay (3 * 2 ^ 7 + 5 * 2 ^ 3 + 2) 0 77 0) [] 1 0 3)] } }, by decide +kernel⟩,
    ⟨3, 5, .good, (mkFlit 2 false (rspPay (3 * 2 ^ 7 + 5 * 2 ^ 3 + 2) 0 77 0) [] 1 0 3), ⟨3, 5, 2, iw 0x0C0 0 dLocal 0, tag0, 2000, 5, 0, 0, 0, none, false⟩, [], { fireState (iw 0x0C2 0 dLocal 0) none none none with net := { State.reset.net with rspQ := [(mkFlit 2 false (rspPay (3 * 2 ^ 7 + 5 * 2 ^ 3 + 2) 0 77 0) [] 1 0 3)] }, cl := { State.reset.cl with parks := [⟨3, 5, 2, iw 0x0C0 0 dLocal 0, tag0, 2000, 5, 0, 0, 0, none, false⟩] } }, by decide +kernel⟩,
    ⟨3, 5, .good, (mkFlit 2 false (rspPay (3 * 2 ^ 7 + 5 * 2 ^ 3 + 2) 0 77 0) [] 1 0 3), ⟨3, 5, 2, iw 0x0E0 1 dLocal 0, tag0, 2000, 5, 0, 0, 0, none, false⟩, [], { fireState (iw 0x0C2 0 dLocal 0) none none none with net := { State.reset.net with rspQ := [(mkFlit 2 false (rspPay (3 * 2 ^ 7 + 5 * 2 ^ 3 + 2) 0 77 0) [] 1 0 3)] }, cl := { State.reset.cl with parks := [⟨3, 5, 2, iw 0x0E0 1 dLocal 0, tag0, 2000, 5, 0, 0, 0, none, false⟩] } }, by decide +kernel⟩,
    ⟨3, 5, .good, (mkFlit 2 false (rspPay (3 * 2 ^ 7 + 5 * 2 ^ 3 + 2) 0 77 0) [] 1 0 3), ⟨3, 5, 2, iw 0x0E8 1 dLocal 0, tag0, 2000, 5, 0, 0, 0, none, false⟩, [], { fireState (iw 0x0C2 0 dLocal 0) none none none with net := { State.reset.net with rspQ := [(mkFlit 2 false (rspPay (3 * 2 ^ 7 + 5 * 2 ^ 3 + 2) 0 77 0) [] 1 0 3)] }, cl := { State.reset.cl with parks := [⟨3, 5, 2, iw 0x0E8 1 dLocal 0, tag0, 2000, 5, 0, 0, 0, none, false⟩] } }, by decide +kernel⟩,
    ⟨3, 5, .good, (mkFlit 2 false (rspPay (3 * 2 ^ 7 + 5 * 2 ^ 3 + 2) 0 77 0) [] 1 0 3), ⟨3, 5, 2, iw 0x0F0 0 dLocal 0, tag0, 2000, 5, 0, 0, 0, none, false⟩, [], { fireState (iw 0x0C2 0 dLocal 0) none none none with net := { State.reset.net with rspQ := [(mkFlit 2 false (rspPay (3 * 2 ^ 7 + 5 * 2 ^ 3 + 2) 0 77 0) [] 1 0 3)] }, cl := { State.reset.cl with parks := [⟨3, 5, 2, iw 0x0F0 0 dLocal 0, tag0, 2000, 5, 0, 0, 0, none, false⟩] } }, by decide +kernel⟩,
    ⟨3, 5, .good, (mkFlit 2 true (rspPay (3 * 2 ^ 7 + 5 * 2 ^ 3 + 2) 0 77 0) [] 1 0 3), ⟨3, 5, 2, iw 0x0C0 0 dLocal 0, tag0, 2000, 5, 0, 0, 0, none, false⟩, [], { fireState (iw 0x0C2 0 dLocal 0) none none none with net := { State.reset.net with rspQ := [(mkFlit 2 true (rspPay (3 * 2 ^ 7 + 5 * 2 ^ 3 + 2) 0 77 0) [] 1 0 3)] }, cl := { State.reset.cl with parks := [⟨3, 5, 2, iw 0x0C0 0 dLocal 0, tag0, 2000, 5, 0, 0, 0, none, false⟩] } }, by decide +kernel⟩,
    ⟨3, 5, .good, (mkFlit 2 false (rspPay (3 * 2 ^ 7 + 5 * 2 ^ 3 + 2) 1 0 0) [] 1 0 3), ⟨3, 5, 2, iw 0x0C0 0 dLocal 0, tag0, 2000, 5, 0, 0, 0, none, false⟩, [], { fireState (iw 0x0C2 0 dLocal 0) none none none with net := { State.reset.net with rspQ := [(mkFlit 2 false (rspPay (3 * 2 ^ 7 + 5 * 2 ^ 3 + 2) 1 0 0) [] 1 0 3)] }, cl := { State.reset.cl with parks := [⟨3, 5, 2, iw 0x0C0 0 dLocal 0, tag0, 2000, 5, 0, 0, 0, none, false⟩] } }, by decide +kernel⟩,
    ⟨3, 5, .good, (mkFlit 2 false (rspPay (3 * 2 ^ 7 + 5 * 2 ^ 3 + 2) 0 77 0) [] 1 0 3), ⟨3, 5, 2, iw 0x300 0 dLocal 0, tag0, 2000, 5, 0, 0, 0, none, true⟩, [], { fireState (iw 0x0C2 0 dLocal 0) none none none with net := { State.reset.net with rspQ := [(mkFlit 2 false (rspPay (3 * 2 ^ 7 + 5 * 2 ^ 3 + 2) 0 77 0) [] 1 0 3)] }, cl := { State.reset.cl with parks := [⟨3, 5, 2, iw 0x300 0 dLocal 0, tag0, 2000, 5, 0, 0, 0, none, true⟩] } }, by decide +kernel⟩,
    ⟨3, 5, .good, (mkFlit 2 false (rspPay (3 * 2 ^ 7 + 5 * 2 ^ 3 + 2) 0 77 0) [] 1 0 3), ⟨3, 5, 2, iw 0x300 0 dLocal 0, tag0, 2000, 5, 0, 0, 0, (some ⟨0x600, [], [0, 0, 0, 0], 0, none, none, 0, 1, 0, 0, 0⟩), false⟩, [], ⟨0x600, [], [0, 0, 0, 0], 0, none, none, 0, 1, 0, 0, 0⟩, { fireState (iw 0x0C2 0 dLocal 0) none none none with net := { State.reset.net with rspQ := [(mkFlit 2 false (rspPay (3 * 2 ^ 7 + 5 * 2 ^ 3 + 2) 0 77 0) [] 1 0 3)] }, cl := { State.reset.cl with parks := [⟨3, 5, 2, iw 0x300 0 dLocal 0, tag0, 2000, 5, 0, 0, 0, (some ⟨0x600, [], [0, 0, 0, 0], 0, none, none, 0, 1, 0, 0, 0⟩), false⟩] } }, by decide +kernel⟩,
    ⟨3, 5, .good, (mkFlit 2 false (ansPay tag0 77 2000) [] 1 0 3), tag0, { fireState (iw 0x0C2 0 dLocal 0) none none none with net := { State.reset.net with ansQ := [(mkFlit 2 false (ansPay tag0 77 2000) [] 1 0 3)] }, cl := State.reset.cl }, by decide +kernel⟩,
    ⟨3, 5, .good, (mkFlit 2 false (ansPay tag0 77 2000) [] 1 0 3), tag0, { userState (opnd 5) with net := { State.reset.net with ansQ := [(mkFlit 2 false (ansPay tag0 77 2000) [] 1 0 3)] }, cl := State.reset.cl }, by decide +kernel⟩⟩

/-- States and operands that meet the hypotheses of BankOperationsActOnTheirWord. -/
theorem witness_BankOperationsActOnTheirWord :
    (∃ (b : Fin 2048) (r : BReq) (e : PePass) (s : State), s.fabricOn (b.val / 16) = true ∧ directClean s b r = true ∧ r.op = 3) ∧
    (∃ (b : Fin 2048) (r : BReq) (e : PePass) (s : State), s.fabricOn (b.val / 16) = true ∧ directClean s b r = true ∧ r.op = 4) ∧
    (∃ (b : Fin 2048) (r : BReq) (e : PePass) (s : State), s.fabricOn (b.val / 16) = true ∧ directClean s b r = true ∧ r.op = 5 ∧ s.isPresent b (addrWord r.addr) = true) ∧
    (∃ (b : Fin 2048) (r : BReq) (e : PePass) (s : State), s.fabricOn (b.val / 16) = true ∧ directClean s b r = true ∧ r.op = 5 ∧ s.isPresent b (addrWord r.addr) = false ∧ (s.deferOf b).length < 256) ∧
    (∃ (b : Fin 2048) (r : BReq) (e : PePass) (s : State), s.fabricOn (b.val / 16) = true ∧ directClean s b r = true ∧ r.op = 6 ∧ s.isPresent b (addrWord r.addr) = false ∧ ((s.deferOf b).any fun d => d.word = addrWord r.addr) = false) ∧
    (∃ (b : Fin 2048) (r : BReq) (e : PePass) (s : State), s.fabricOn (b.val / 16) = true ∧ directClean s b r = true ∧ r.op = 6 ∧ s.isPresent b (addrWord r.addr) = false ∧ ((s.deferOf b).any fun d => d.word = addrWord r.addr) = true) ∧
    (∃ (b : Fin 2048) (r : BReq) (e : PePass) (s : State), s.fabricOn (b.val / 16) = true ∧ directClean s b r = true ∧ r.op = 6 ∧ s.isPresent b (addrWord r.addr) = true) ∧
    (∃ (b : Fin 2048) (r : BReq) (e : PePass) (s : State), s.fabricOn (b.val / 16) = true ∧ directClean s b r = true ∧ r.op = 7) ∧
    (∃ (b : Fin 2048) (r : BReq) (e : PePass) (s : State), s.fabricOn (b.val / 16) = true ∧ directClean s b r = true ∧ r.op = 8) ∧
    (∃ (b : Fin 2048) (r : BReq) (e : PePass) (s : State), s.fabricOn (b.val / 16) = true ∧ directClean s b r = true ∧ r.op = 9) ∧
    (∃ (b : Fin 2048) (r : BReq) (e : PePass) (k : Nat) (s : State), s.fabricOn (b.val / 16) = true ∧ bestDirect s b = some r ∧ r.pe.isSome = true ∧ ((mget [] s.bank.direct (b.val / 16)).filter fun x => addrBank x.addr = b.val % 16 && x ≠ r) = [] ∧ s.locked b (addrWord r.addr) = false ∧ ((mget [] s.bank.queue b).any fun x => x.touches (addrWord r.addr)) = false ∧ r.bad = false ∧ r.sys = false ∧ bankCheck s b r.op r.addr false r.part (retInit s r.ret) r.pre r.half = some k) ∧
    (∃ (b : Fin 2048) (r : BReq) (e : PePass) (q : List BReq) (s : State), s.fabricOn (b.val / 16) = true ∧ mget [] s.bank.queue b = r :: q ∧ reqLocked s b r = false ∧ r.bad = false ∧ r.sys = false ∧ bankCheck s b r.op r.addr false r.part (retInit s r.ret) r.pre r.half = none ∧ r.op = 4) :=
  ⟨⟨48, ⟨3, (BitVec.ofNat 48 (bankAddr 3 0 5)), 9, 1, false, 3 * 2 ^ 7 + 5 * 2 ^ 3, 0, tag0, 2000, some 5, false, false, false, [], false⟩, ⟨0, .good⟩, { (withRegs [(F.fclkCtl_STOPPED, 0, 0), (F.bankOwn_OWNER, 48, 1)]) with t := 1000, mem := [(bankAddr 3 0 5, 4)], bank := { State.reset.bank with direct := [(3, [⟨3, (BitVec.ofNat 48 (bankAddr 3 0 5)), 9, 1, false, 3 * 2 ^ 7 + 5 * 2 ^ 3, 0, tag0, 2000, some 5, false, false, false, [], false⟩])] } }, by decide +kernel⟩,
    ⟨48, ⟨4, (BitVec.ofNat 48 (bankAddr 3 0 5)), 9, 1, false, 3 * 2 ^ 7 + 5 * 2 ^ 3, 0, tag0, 2000, some 5, false, false, false, [], false⟩, ⟨0, .good⟩, { (withRegs [(F.fclkCtl_STOPPED, 0, 0), (F.bankOwn_OWNER, 48, 1)]) with t := 1000, mem := [(bankAddr 3 0 5, 4)], bank := { State.reset.bank with direct := [(3, [⟨4, (BitVec.ofNat 48 (bankAddr 3 0 5)), 9, 1, false, 3 * 2 ^ 7 + 5 * 2 ^ 3, 0, tag0, 2000, some 5, false, false, false, [], false⟩])] } }, by decide +kernel⟩,
    ⟨48, ⟨5, (BitVec.ofNat 48 (bankAddr 3 0 5)), 9, 1, false, 3 * 2 ^ 7 + 5 * 2 ^ 3, 0, tag0, 2000, some 5, false, false, false, [], false⟩, ⟨0, .good⟩, { (withRegs [(F.fclkCtl_STOPPED, 0, 0), (F.bankOwn_OWNER, 48, 1)]) with t := 1000, mem := [(bankAddr 3 0 5, 4)], bank := { State.reset.bank with direct := [(3, [⟨5, (BitVec.ofNat 48 (bankAddr 3 0 5)), 9, 1, false, 3 * 2 ^ 7 + 5 * 2 ^ 3, 0, tag0, 2000, some 5, false, false, false, [], false⟩])], present := [(wordKey 48 5, 1)] } }, by decide +kernel⟩,
    ⟨48, ⟨5, (BitVec.ofNat 48 (bankAddr 3 0 5)), 9, 1, false, 3 * 2 ^ 7 + 5 * 2 ^ 3, 0, tag0, 2000, some 5, false, false, false, [], false⟩, ⟨0, .good⟩, { (withRegs [(F.fclkCtl_STOPPED, 0, 0), (F.bankOwn_OWNER, 48, 1)]) with t := 1000, mem := [(bankAddr 3 0 5, 4)], bank := { State.reset.bank with direct := [(3, [⟨5, (BitVec.ofNat 48 (bankAddr 3 0 5)), 9, 1, false, 3 * 2 ^ 7 + 5 * 2 ^ 3, 0, tag0, 2000, some 5, false, false, false, [], false⟩])] } }, by decide +kernel⟩,
    ⟨48, ⟨6, (BitVec.ofNat 48 (bankAddr 3 0 5)), 9, 1, false, 3 * 2 ^ 7 + 5 * 2 ^ 3, 0, tag0, 2000, some 5, false, false, false, [], false⟩, ⟨0, .good⟩, { (withRegs [(F.fclkCtl_STOPPED, 0, 0), (F.bankOwn_OWNER, 48, 1)]) with t := 1000, mem := [(bankAddr 3 0 5, 4)], bank := { State.reset.bank with direct := [(3, [⟨6, (BitVec.ofNat 48 (bankAddr 3 0 5)), 9, 1, false, 3 * 2 ^ 7 + 5 * 2 ^ 3, 0, tag0, 2000, some 5, false, false, false, [], false⟩])] } }, by decide +kernel⟩,
    ⟨48, ⟨6, (BitVec.ofNat 48 (bankAddr 3 0 5)), 9, 1, false, 3 * 2 ^ 7 + 5 * 2 ^ 3, 0, tag0, 2000, some 5, false, false, false, [], false⟩, ⟨0, .good⟩, { (withRegs [(F.fclkCtl_STOPPED, 0, 0), (F.bankOwn_OWNER, 48, 1)]) with t := 1000, mem := [(bankAddr 3 0 5, 4)], bank := { State.reset.bank with direct := [(3, [⟨6, (BitVec.ofNat 48 (bankAddr 3 0 5)), 9, 1, false, 3 * 2 ^ 7 + 5 * 2 ^ 3, 0, tag0, 2000, some 5, false, false, false, [], false⟩])], defer := [(48, [⟨tag0, 2000, 5, 0⟩])] } }, by decide +kernel⟩,
    ⟨48, ⟨6, (BitVec.ofNat 48 (bankAddr 3 0 5)), 9, 1, false, 3 * 2 ^ 7 + 5 * 2 ^ 3, 0, tag0, 2000, some 5, false, false, false, [], false⟩, ⟨0, .good⟩, { (withRegs [(F.fclkCtl_STOPPED, 0, 0), (F.bankOwn_OWNER, 48, 1)]) with t := 1000, mem := [(bankAddr 3 0 5, 4)], bank := { State.reset.bank with direct := [(3, [⟨6, (BitVec.ofNat 48 (bankAddr 3 0 5)), 9, 1, false, 3 * 2 ^ 7 + 5 * 2 ^ 3, 0, tag0, 2000, some 5, false, false, false, [], false⟩])], present := [(wordKey 48 5, 1)] } }, by decide +kernel⟩,
    ⟨48, ⟨7, (BitVec.ofNat 48 (bankAddr 3 0 5)), 9, 1, false, 3 * 2 ^ 7 + 5 * 2 ^ 3, 0, tag0, 2000, some 5, false, false, false, [], false⟩, ⟨0, .good⟩, { (withRegs [(F.fclkCtl_STOPPED, 0, 0), (F.bankOwn_OWNER, 48, 1)]) with t := 1000, mem := [(bankAddr 3 0 5, 4)], bank := { State.reset.bank with direct := [(3, [⟨7, (BitVec.ofNat 48 (bankAddr 3 0 5)), 9, 1, false, 3 * 2 ^ 7 + 5 * 2 ^ 3, 0, tag0, 2000, some 5, false, false, false, [], false⟩])], present := [(wordKey 48 5, 1)] } }, by decide +kernel⟩,
    ⟨48, ⟨8, (BitVec.ofNat 48 (bankAddr 3 0 5)), 9, 1, false, 3 * 2 ^ 7 + 5 * 2 ^ 3, 0, tag0, 2000, some 5, false, false, false, [], false⟩, ⟨0, .good⟩, { (withRegs [(F.fclkCtl_STOPPED, 0, 0), (F.bankOwn_OWNER, 48, 1)]) with t := 1000, mem := [(bankAddr 3 0 5, 4)], bank := { State.reset.bank with direct := [(3, [⟨8, (BitVec.ofNat 48 (bankAddr 3 0 5)), 9, 1, false, 3 * 2 ^ 7 + 5 * 2 ^ 3, 0, tag0, 2000, some 5, false, false, false, [], false⟩])] } }, by decide +kernel⟩,
    ⟨48, ⟨9, (BitVec.ofNat 48 (bankAddr 3 0 5)), 9, 1, false, 3 * 2 ^ 7 + 5 * 2 ^ 3, 0, tag0, 2000, some 5, false, false, false, [], false⟩, ⟨0, .good⟩, { (withRegs [(F.fclkCtl_STOPPED, 0, 0), (F.bankOwn_OWNER, 48, 1)]) with t := 1000, mem := [(bankAddr 3 0 5, 4)], bank := { State.reset.bank with direct := [(3, [⟨9, (BitVec.ofNat 48 (bankAddr 3 0 5)), 9, 1, false, 3 * 2 ^ 7 + 5 * 2 ^ 3, 0, tag0, 2000, some 5, false, false, false, [], false⟩])] } }, by decide +kernel⟩,
    ⟨48, ⟨4, (BitVec.ofNat 48 (bankAddr 3 0 5)), 9, 1, false, 3 * 2 ^ 7 + 5 * 2 ^ 3, 0, tag0, 2000, some 5, false, false, false, [], false⟩, ⟨0, .good⟩, 2, ({ (withRegs [(F.fclkCtl_STOPPED, 0, 0), (F.bankOwn_OWNER, 48, 1)]) with t := 1000, mem := [(bankAddr 3 0 5, 4)], bank := { State.reset.bank with direct := [(3, [⟨4, (BitVec.ofNat 48 (bankAddr 3 0 5)), 9, 1, false, 3 * 2 ^ 7 + 5 * 2 ^ 3, 0, tag0, 2000, some 5, false, false, false, [], false⟩])] } }).set F.bankOwn_OWNER 48 2, by decide +kernel⟩,
    ⟨48, ⟨4, (BitVec.ofNat 48 (bankAddr 3 0 5)), 9, 1, false, 3 * 2 ^ 7 + 5 * 2 ^ 3, 0, tag0, 2000, some 5, false, false, false, [], false⟩, ⟨0, .good⟩, [], { (withRegs [(F.fclkCtl_STOPPED, 0, 0), (F.bankOwn_OWNER, 48, 1)]) with t := 1000, mem := [(bankAddr 3 0 5, 4)], bank := { State.reset.bank with direct := [], queue := [(48, [⟨4, (BitVec.ofNat 48 (bankAddr 3 0 5)), 9, 1, false, 3 * 2 ^ 7 + 5 * 2 ^ 3, 0, tag0, 2000, some 5, false, false, false, [], false⟩])] } }, by decide +kernel⟩⟩

/-- States and operands that meet the hypotheses of BankUpkeepAndOwnership. -/
theorem witness_BankUpkeepAndOwnership :
    (∃ (b : Fin 2048) (k : Nat) (v : W) (d : Defer) (rest : List Defer) (s : State), s.fabricOn (b.val / 16) = true ∧ (s.bank.answering.find? fun e => e.1 / 4096 = b.val) = some (k, v) ∧ takeFirst (fun d : Defer => d.word = k % 4096) (s.deferOf b) = some (d, rest) ∧ tagPkg d.tag = s.pkg ∧ cIdx (tagDie d.tag) (tagCluster d.tag) = b.val / 16) ∧
    (∃ (b : Fin 2048) (s : State), s.fabricOn (b.val / 16) = true ∧ s.flag F.bankCtl_SCRUB_EN (b.val / 16) = true ∧ s.bankServes b = true ∧ s.flag F.injCtl_ARM 0 = false ∧ mget 0 s.bank.bad (wordKey b (mget 0 s.bank.scrub b)) = 0) ∧
    (∃ (b : Fin 2048) (s : State), s.fabricOn (b.val / 16) = true ∧ s.flag F.bankCtl_SCRUB_EN (b.val / 16) = true ∧ s.bankServes b = true ∧ s.flag F.injCtl_ARM 0 = false ∧ mget 0 s.bank.bad (wordKey b (mget 0 s.bank.scrub b)) = 0) ∧
    (∃ (b : Fin 2048) (s : State), s.fabricOn (b.val / 16) = true ∧ s.flag F.bankCtl_SCRUB_EN (b.val / 16) = true ∧ s.bankServes b = true ∧ s.flag F.injCtl_ARM 0 = false ∧ mget 0 s.bank.bad (wordKey b (mget 0 s.bank.scrub b)) = 0) ∧
    (∃ (b : Fin 2048) (k n : Nat) (s : State), s.fabricOn (b.val / 16) = true ∧ (s.bank.wb.find? fun e => e.1 / 4096 = b.val) = some (k, n)) ∧
    (∃ (init : Fin 15) (b : Fin 2048) (owner : BitVec 4) (clr : Bool) (s : State), s.fatal = false ∧ (init.val ≤ 8 ∨ init.val = 11) ∧ (owner.toNat ≤ 10 ∨ owner.toNat = 15) ∧ (∀ o ∈ [s.get F.bankOwn_OWNER b, owner.toNat], 8 ≤ o ∨ s.pState o = pFree ∨ s.pState o = pLoading) ∧ s.flag F.bankOwn_PENDING b = false ∧ s.flag F.bankPwr_OFFLINE b = false) ∧
    (∃ (init : Fin 15) (b : Fin 2048) (owner : BitVec 4) (clr : Bool) (s : State), (¬((init.val ≤ 8 ∨ init.val = 11) ∧ (owner.toNat ≤ 10 ∨ owner.toNat = 15) ∧ (∀ o ∈ [s.get F.bankOwn_OWNER b, owner.toNat], 8 ≤ o ∨ s.pState o = pFree ∨ s.pState o = pLoading) ∧ s.flag F.bankOwn_PENDING b = false ∧ s.flag F.bankPwr_OFFLINE b = false))) ∧
    (∃ (b : Fin 2048) (s : State), (mfind s.bank.handover b = none ∨ mget [] s.bank.queue b ≠ [])) ∧
    (∃ (b : Fin 2048) (err : Fin 3) (s : State), (s.flag F.bankCtl_SCRUB_EN (b.val / 16) = false ∨ s.bankServes b = false)) ∧
    (∃ (b : Fin 2048) (st : BitVec 2) (s : State), (s.flag F.bankPwr_OFFLINE b = true ∨ st = 3)) ∧
    (∃ (b : Fin 2048) (st : BitVec 2) (s : State), s.fatal = false ∧ st ≠ 3 ∧ s.flag F.bankPwr_OFFLINE b = false ∧ (s.get F.bankPwr_CURRENT b ≠ 0 ∨ st = 0) ∧ (mfind s.bank.move b ≠ some 0 ∨ st = 0) ∧ (s.flag F.bankPwr_BUSY b = true ∨ s.get F.bankPwr_CURRENT b = st.toNat)) ∧
    (∃ (b : Fin 2048) (x : Nat) (s : State), s.fatal = false ∧ mfind s.bank.move b = some x ∧ x ≠ 0 ∧ x < 4 ∧ s.get F.bankPwr_STATE b ≠ x) ∧
    (∃ (b : Fin 2048) (k : Nat) (v : W) (d : Defer) (rest : List Defer) (s : State), s.fabricOn (b.val / 16) = true ∧ (s.bank.answering.find? fun e => e.1 / 4096 = b.val) = some (k, v) ∧ takeFirst (fun d : Defer => d.word = k % 4096) (s.deferOf b) = some (d, rest) ∧ (tagPkg d.tag ≠ s.pkg ∨ cIdx (tagDie d.tag) (tagCluster d.tag) ≠ b.val / 16) ∧ (rest.any fun d => d.word = k % 4096) = false) ∧
    (∃ (init : Fin 16) (c : Fin 128) (e : Fin 8192) (s : State), s.fatal = false ∧ s.flag F.injCtl_ARM 0 = false ∧ (s.way c e).isSome = true) ∧
    (∃ (b : Fin 2048) (x : Nat) (s : State), s.fatal = false ∧ mfind s.bank.handover b = some x ∧ mget [] s.bank.queue b = []) ∧
    (∃ (b : Fin 2048) (st : BitVec 2) (s : State), s.fatal = false ∧ st.toNat ≠ 3 ∧ s.flag F.bankPwr_OFFLINE b = false ∧ 8 ≤ s.get F.bankOwn_OWNER b ∧ s.deferOf b = [] ∧ s.get F.spillCfg_COUNT (b.val / 16) = 0 ∧ s.flag F.bankPwr_BUSY b = false ∧ s.get F.bankPwr_CURRENT b ≠ st.toNat ∧ mget [] s.bank.queue b = [] ∧ (s.net.flits.any fun f => f.out = none && forBank f && flitBank f = b.val) = false) ∧
    (∃ (b : Fin 2048) (x : Nat) (s : State), s.fatal = false ∧ mfind s.bank.move b = some x ∧ s.get F.bankPwr_STATE b = x ∧ x < 4) ∧
    (∃ (b : Fin 2048) (s : State), s.fatal = false ∧ s.flag F.bankPwr_OFFLINE b = false ∧ s.deferOf b = [] ∧ mget [] s.bank.queue b = [] ∧ (s.net.flits.any fun f => f.out = none && forBank f && flitBank f = b.val) = false) ∧
    (∃ (init : Fin 15) (b : Fin 2048) (s : State), init.val ≠ 8) ∧
    (∃ (init : Fin 16) (c : Fin 128) (e : Fin 8192) (s : State), s.fatal = false ∧ s.flag F.injCtl_ARM 0 = false) :=
  ⟨⟨48, wordKey 48 5, 7, ⟨tag0, 2000, 5, 0⟩, [], { (withRegs [(F.fclkCtl_STOPPED, 0, 0)]) with bank := { State.reset.bank with defer := [(48, [⟨tag0, 2000, 5, 0⟩])], answering := [(wordKey 48 5, 7)] } }, by decide +kernel⟩,
    ⟨48, { (withRegs [(F.fclkCtl_STOPPED, 0, 0)]) with bank := { State.reset.bank with wb := [] } }, by decide +kernel⟩,
    ⟨48, { (withRegs [(F.fclkCtl_STOPPED, 0, 0)]) with bank := { State.reset.bank with wb := [] } }, by decide +kernel⟩,
    ⟨48, { (withRegs [(F.fclkCtl_STOPPED, 0, 0)]) with bank := { State.reset.bank with wb := [] } }, by decide +kernel⟩,
    ⟨48, wordKey 48 5, 1, { (withRegs [(F.fclkCtl_STOPPED, 0, 0)]) with bank := { State.reset.bank with wb := [(wordKey 48 5, 1)] }, mem := [(bankAddr 3 0 5, 9)] }, by decide +kernel⟩,
    ⟨11, 48, 1, true, State.reset, by decide +kernel⟩,
    ⟨10, 48, 1, true, State.reset, by decide +kernel⟩,
    ⟨48, State.reset, by decide +kernel⟩,
    ⟨48, 0, State.reset.set F.bankCtl_SCRUB_EN 3 0, by decide +kernel⟩,
    ⟨48, 3, State.reset, by decide +kernel⟩,
    ⟨48, 1, (withRegs [(F.bankPwr_CURRENT, 48, 2), (F.bankPwr_BUSY, 48, 1)]), by decide +kernel⟩,
    ⟨48, 1, (withRegs [(F.bankPwr_CURRENT, 48, 2), (F.bankPwr_BUSY, 48, 1)] |> fun s => { s with bank := { s.bank with move := [(48, 1)] } }), by decide +kernel⟩,
    ⟨48, wordKey 48 5, 7, ⟨mkTag 0 0 5 1 0 1 0 0, 2000, 5, 0⟩, [], { (withRegs [(F.fclkCtl_STOPPED, 0, 0)]) with bank := { State.reset.bank with defer := [(48, [⟨mkTag 0 0 5 1 0 1 0 0, 2000, 5, 0⟩])], answering := [(wordKey 48 5, 7)] } }, by decide +kernel⟩,
    ⟨11, 3, 7, State.reset.setWay 3 7 (some (⟨tag0, 1, 2, false⟩ : Token)), by decide +kernel⟩,
    ⟨48, 3, { (withRegs [(F.fclkCtl_STOPPED, 0, 0)]) with bank := { State.reset.bank with handover := [(48, 3)] } }, by decide +kernel⟩,
    ⟨48, 1, State.reset, by decide +kernel⟩,
    ⟨48, 0, (withRegs [(F.bankPwr_CURRENT, 48, 2), (F.bankPwr_BUSY, 48, 1)] |> fun s => { s with bank := { s.bank with move := [(48, 0)] } }), by decide +kernel⟩,
    ⟨48, State.reset, by decide +kernel⟩,
    ⟨11, 48, State.reset, by decide +kernel⟩,
    ⟨11, 3, 7, State.reset, by decide +kernel⟩⟩

/-- States and operands that meet the hypotheses of DeadlocksAreDetectedAndReclaimed. -/
theorem witness_DeadlocksAreDetectedAndReclaimed :
    (∃ (p : Fin 8) (s : State), (s.t.toNat % 2 ^ s.get F.dlCtl_WIN p ≠ 0 ∨ mfind s.cl.evalT p = some s.ticks)) ∧
    (∃ (p : Fin 8) (s : State), s.fatal = false ∧ s.t.toNat % 2 ^ s.get F.dlCtl_WIN p = 0 ∧ mfind s.cl.evalT p ≠ some s.ticks ∧ (s.pRuns p && (s.flag F.dlCtl_ENABLE p || s.pState p = pGuaranteed || s.pState p = pRevoked || s.pState p = pSuspended) && mfind s.cl.progPrev p = some (s.get F.progress_COUNT p) && live s p ≠ 0 && (mfind s.cl.unblocked p).isNone && blocked s p && !(s.cl.reclaim.any fun r => r.part = p.val)) = false) ∧
    (∃ (p : Fin 8) (s : State), s.fatal = false ∧ s.t.toNat % 2 ^ s.get F.dlCtl_WIN p = 0 ∧ mfind s.cl.evalT p ≠ some s.ticks ∧ (s.pRuns p && (s.flag F.dlCtl_ENABLE p || s.pState p = pGuaranteed || s.pState p = pRevoked || s.pState p = pSuspended) && mfind s.cl.progPrev p = some (s.get F.progress_COUNT p) && live s p ≠ 0 && (mfind s.cl.unblocked p).isNone && blocked s p && !(s.cl.reclaim.any fun r => r.part = p.val)) = true ∧ s.pState p = pBestEffort ∧ 2 ≤ s.get F.dlCtl_ACTION p) ∧
    (∃ (p : Fin 8) (s : State), s.fatal = false ∧ s.t.toNat % 2 ^ s.get F.dlCtl_WIN p = 0 ∧ mfind s.cl.evalT p ≠ some s.ticks ∧ (s.pRuns p && (s.flag F.dlCtl_ENABLE p || s.pState p = pGuaranteed || s.pState p = pRevoked || s.pState p = pSuspended) && mfind s.cl.progPrev p = some (s.get F.progress_COUNT p) && live s p ≠ 0 && (mfind s.cl.unblocked p).isNone && blocked s p && !(s.cl.reclaim.any fun r => r.part = p.val)) = true ∧ s.pState p = pBestEffort ∧ s.get F.dlCtl_ACTION p = 1) ∧
    (∃ (p : Fin 8) (s : State), s.fatal = false ∧ s.t.toNat % 2 ^ s.get F.dlCtl_WIN p = 0 ∧ mfind s.cl.evalT p ≠ some s.ticks ∧ (s.pRuns p && (s.flag F.dlCtl_ENABLE p || s.pState p = pGuaranteed || s.pState p = pRevoked || s.pState p = pSuspended) && mfind s.cl.progPrev p = some (s.get F.progress_COUNT p) && live s p ≠ 0 && (mfind s.cl.unblocked p).isNone && blocked s p && !(s.cl.reclaim.any fun r => r.part = p.val)) = true ∧ s.pState p ≠ pBestEffort) ∧
    (∃ (p : Fin 8) (k : Block) (s : State), s.fatal = false ∧ s.t.toNat % 2 ^ s.get F.dlCtl_WIN p = 0 ∧ mfind s.cl.evalT p ≠ some s.ticks ∧ (s.pRuns p && (s.flag F.dlCtl_ENABLE p || s.pState p = pGuaranteed || s.pState p = pRevoked || s.pState p = pSuspended) && mfind s.cl.progPrev p = some (s.get F.progress_COUNT p) && live s p ≠ 0 && (mfind s.cl.unblocked p).isNone && blocked s p && !(s.cl.reclaim.any fun r => r.part = p.val)) = true ∧ s.pState p = pBestEffort ∧ s.get F.dlCtl_ACTION p = 0 ∧ youngest s p = some k ∧ (s.cl.filters.filter fun f => f.part = p.val).length < 4) ∧
    (∃ (p : Fin 8) (s : State), s.fatal = false ∧ s.t.toNat % 2 ^ s.get F.dlCtl_WIN p = 0 ∧ mfind s.cl.evalT p ≠ some s.ticks ∧ (s.pRuns p && (s.flag F.dlCtl_ENABLE p || s.pState p = pGuaranteed || s.pState p = pRevoked || s.pState p = pSuspended) && mfind s.cl.progPrev p = some (s.get F.progress_COUNT p) && live s p ≠ 0 && (mfind s.cl.unblocked p).isNone && blocked s p && !(s.cl.reclaim.any fun r => r.part = p.val)) = true ∧ s.pState p = pBestEffort ∧ s.get F.dlCtl_ACTION p = 0 ∧ youngest s p = none) ∧
    (∃ (p : Fin 8) (f : Filter) (s : State), minBy (fun f => (f.ends : Int)) (s.cl.filters.filter fun f => f.part = p.val) = some f ∧ s.ticks < f.ends) ∧
    (∃ (p : Fin 8) (f : Filter) (k : Block) (s : State), s.fatal = false ∧ minBy (fun f => (f.ends : Int)) (s.cl.filters.filter fun f => f.part = p.val) = some f ∧ f.ends ≤ s.ticks ∧ s.cl.reclaimWait.contains p.val = true ∧ youngest s p = some k ∧ ((s.cl.filters.erase f).filter fun f => f.part = p.val).length < 4) ∧
    (∃ (p : Fin 8) (r : Reclaim) (s : State), s.fatal = false ∧ (s.cl.reclaim.find? fun r => r.part = p.val) = some r ∧ s.flag F.reclaimTgt_VALID (poolIdx r.block.region p r.block.pool) = false) ∧
    (∃ (p : Fin 8) (f : Filter) (s : State), s.fatal = false ∧ minBy (fun f => (f.ends : Int)) (s.cl.filters.filter fun f => f.part = p.val) = some f ∧ f.ends ≤ s.ticks ∧ s.cl.reclaimWait.contains p.val = false) ∧
    (∃ (c : Fin 128) (ram : Fin 3) (s : State), s.fatal = false ∧ s.flag F.injCtl_ARM 0 = false ∧ ram.val < 2 ∧ (mfind s.cl.reload c).isSome = true ∧ s.cState c ≠ 4 ∧ s.cState c ≠ 5) ∧
    (∃ (c : Fin 128) (good : Bool) (ram : Fin 3) (s : State), s.fatal = false ∧ s.flag F.injCtl_ARM 0 = false ∧ (good = false ∨ ram = 2) ∧ (mfind s.cl.reload c).isSome = true) ∧
    (∃ (c : Fin 128) (good : Bool) (ram : Fin 3) (s : State), mfind s.cl.reload c = none) :=
  ⟨⟨1, { State.reset with t := 1 }, by decide +kernel⟩,
    ⟨1, State.reset, by decide +kernel⟩,
    ⟨1, ((({ fireState (iw 0x010 0 (dLocal) (0)) (some (opnd 5)) (some (opnd 7)) (none) with t := 0x100000, ticks := 9, cl := { (fireState (iw 0x010 0 (dLocal) (0)) (some (opnd 5)) (some (opnd 7)) (none)).cl with progPrev := [(1, 0)] } }).set F.dlCtl_ACTION 1 2).set F.partStat_STATE 1 3).set F.tokProd_COUNT 1 1, by decide +kernel⟩,
    ⟨1, ((({ fireState (iw 0x010 0 (dLocal) (0)) (some (opnd 5)) (some (opnd 7)) (none) with t := 0x100000, ticks := 9, cl := { (fireState (iw 0x010 0 (dLocal) (0)) (some (opnd 5)) (some (opnd 7)) (none)).cl with progPrev := [(1, 0)] } }).set F.dlCtl_ACTION 1 1).set F.partStat_STATE 1 3).set F.tokProd_COUNT 1 1, by decide +kernel⟩,
    ⟨1, (((({ fireState (iw 0x010 0 (dLocal) (0)) (some (opnd 5)) (some (opnd 7)) (none) with t := 0x100000, ticks := 9, cl := { (fireState (iw 0x010 0 (dLocal) (0)) (some (opnd 5)) (some (opnd 7)) (none)).cl with progPrev := [(1, 0)] } }).set F.dlCtl_ACTION 1 2).set F.partStat_STATE 1 3).set F.tokProd_COUNT 1 1).set F.partStat_STATE 1 2, by decide +kernel⟩,
    ⟨1, ⟨1, 0, 2, 4, 2, 0⟩, { ((({ fireState (iw 0x010 0 (dLocal) (0)) (some (opnd 5)) (some (opnd 7)) (none) with t := 0x100000, ticks := 9, cl := { (fireState (iw 0x010 0 (dLocal) (0)) (some (opnd 5)) (some (opnd 7)) (none)).cl with progPrev := [(1, 0)] } }).set F.dlCtl_ACTION 1 0).set F.partStat_STATE 1 3).set F.tokProd_COUNT 1 1 with cl := { (((({ fireState (iw 0x010 0 (dLocal) (0)) (some (opnd 5)) (some (opnd 7)) (none) with t := 0x100000, ticks := 9, cl := { (fireState (iw 0x010 0 (dLocal) (0)) (some (opnd 5)) (some (opnd 7)) (none)).cl with progPrev := [(1, 0)] } }).set F.dlCtl_ACTION 1 0).set F.partStat_STATE 1 3).set F.tokProd_COUNT 1 1).cl with blocks := [⟨1, 0, 2, 4, 2, 0⟩] } }, by decide +kernel⟩,
    ⟨1, ((({ fireState (iw 0x010 0 (dLocal) (0)) (some (opnd 5)) (some (opnd 7)) (none) with t := 0x100000, ticks := 9, cl := { (fireState (iw 0x010 0 (dLocal) (0)) (some (opnd 5)) (some (opnd 7)) (none)).cl with progPrev := [(1, 0)] } }).set F.dlCtl_ACTION 1 0).set F.partStat_STATE 1 3).set F.tokProd_COUNT 1 1, by decide +kernel⟩,
    ⟨1, ⟨1, ⟨1, 0, 2, 4, 2, 0⟩, 5⟩, { State.reset with cl := { State.reset.cl with filters := [⟨1, ⟨1, 0, 2, 4, 2, 0⟩, 5⟩] } }, by decide +kernel⟩,
    ⟨1, ⟨1, ⟨1, 0, 2, 4, 2, 0⟩, 0⟩, ⟨1, 0, 2, 8, 2, 0⟩, { State.reset with cl := { State.reset.cl with filters := [⟨1, ⟨1, 0, 2, 4, 2, 0⟩, 0⟩], reclaimWait := [1], blocks := [⟨1, 0, 2, 8, 2, 0⟩] } }, by decide +kernel⟩,
    ⟨1, ⟨1, ⟨1, 0, 2, 4, 2, 0⟩, 0⟩, { fireState (iw 0x010 0 (dLocal) (0)) (some (opnd 5)) (some (opnd 7)) (none) with cl := { (fireState (iw 0x010 0 (dLocal) (0)) (some (opnd 5)) (some (opnd 7)) (none)).cl with reclaim := [⟨1, ⟨1, 0, 2, 4, 2, 0⟩, 0⟩] } }, by decide +kernel⟩,
    ⟨1, ⟨1, ⟨1, 0, 2, 4, 2, 0⟩, 0⟩, { State.reset with cl := { State.reset.cl with filters := [⟨1, ⟨1, 0, 2, 4, 2, 0⟩, 0⟩] } }, by decide +kernel⟩,
    ⟨3, 0, { State.reset with cl := { State.reset.cl with reload := [(3, 0)] } }, by decide +kernel⟩,
    ⟨3, true, 2, { State.reset with cl := { State.reset.cl with reload := [(3, 0)] } }, by decide +kernel⟩,
    ⟨3, true, 2, State.reset, by decide +kernel⟩⟩

/-- States and operands that meet the hypotheses of CoresCompute. -/
theorem witness_CoresCompute :
    (∃ (k : Fin 9) (w : Nat) (v : W) (b : Stk) (s : State), nextIs s k .alu w = true ∧ kCompute (s.core k) w = (v, b) ∧ ((s.core k).tl = true ∨ b.toNat &&& (s.core k).trapMask = 0)) ∧
    (∃ (k : Fin 9) (w : Nat) (v : W) (b : Stk) (s : State), nextIs s k .fp w = true ∧ kCompute (s.core k) w = (v, b) ∧ ((s.core k).tl = true ∨ b.toNat &&& (s.core k).trapMask = 0)) ∧
    (∃ (k : Fin 9) (w : Nat) (v : W) (b : Stk) (s : State), nextIs s k .cpx w = true ∧ kCompute (s.core k) w = (v, b) ∧ ((s.core k).tl = true ∨ b.toNat &&& (s.core k).trapMask = 0)) ∧
    (∃ (k : Fin 9) (w : Nat) (v : W) (b : Stk) (s : State), nextIs s k .fma w = true ∧ fFma (s.core k).rm (w % 64 = 1) ((s.core k).get (kRa w)) ((s.core k).get (kRb w)) ((s.core k).get (kRc w)) = (v, b) ∧ ((s.core k).tl = true ∨ b.toNat &&& (s.core k).trapMask = 0)) ∧
    (∃ (k : Fin 9) (w : Nat) (v : W) (b : Stk) (s : State), nextIs s k .immediate w = true ∧ kImmediate (s.core k) w = (v, b) ∧ ((s.core k).tl = true ∨ b.toNat &&& (s.core k).trapMask = 0)) ∧
    (∃ (k : Fin 9) (w : Nat) (s : State), nextIs s k .ldk w = true) ∧
    (∃ (k : Fin 9) (w : Nat) (s : State), nextIs s k .ink w = true) ∧
    (∃ (k : Fin 9) (w : Nat) (s : State), nextIs s k .xrk w = true) :=
  ⟨⟨0, kw 1 3 1 2 0x010, ((compute (kFn (kw 1 3 1 2 0x010)) 0 5 7 0).getD (0, 0)).1, ((compute (kFn (kw 1 3 1 2 0x010)) 0 5 7 0).getD (0, 0)).2, coreState 0 (kw 1 3 1 2 0x010) (fun (c : Core) => (c.set 1 5).set 2 7), by decide +kernel⟩,
    ⟨0, kw 0x30 3 1 2 0x060, ((compute (kFn (kw 0x30 3 1 2 0x060)) 0 5 7 0).getD (0, 0)).1, ((compute (kFn (kw 0x30 3 1 2 0x060)) 0 5 7 0).getD (0, 0)).2, coreState 0 (kw 0x30 3 1 2 0x060) (fun (c : Core) => (c.set 1 5).set 2 7), by decide +kernel⟩,
    ⟨0, kw 0x34 3 1 2 0x080, ((compute (kFn (kw 0x34 3 1 2 0x080)) 0 5 7 0).getD (0, 0)).1, ((compute (kFn (kw 0x34 3 1 2 0x080)) 0 5 7 0).getD (0, 0)).2, coreState 0 (kw 0x34 3 1 2 0x080) (fun (c : Core) => (c.set 1 5).set 2 7), by decide +kernel⟩,
    ⟨0, kw 0x31 3 1 2 (4 * 64), (fFma 0 false 5 7 0).1, (fFma 0 false 5 7 0).2, coreState 0 (kw 0x31 3 1 2 (4 * 64)) (fun (c : Core) => (c.set 1 5).set 2 7), by decide +kernel⟩,
    ⟨0, 2 * 2 ^ 26 + 3 * 2 ^ 21 + 1 * 2 ^ 16 + 0xFFFF, 4, 0, coreState 0 (2 * 2 ^ 26 + 3 * 2 ^ 21 + 1 * 2 ^ 16 + 0xFFFF) (fun (c : Core) => (c.set 1 5).set 2 7), by decide +kernel⟩,
    ⟨0, 0x0C * 2 ^ 26 + 3 * 2 ^ 21 + 0 * 2 ^ 16 + 0x8000 + 1 * 2 ^ 19, coreState 0 (0x0C * 2 ^ 26 + 3 * 2 ^ 21 + 0 * 2 ^ 16 + 0x8000 + 1 * 2 ^ 19) (id), by decide +kernel⟩,
    ⟨0, 0x0D * 2 ^ 26 + 3 * 2 ^ 21 + 0 * 2 ^ 16 + 0x5678, coreState 0 (0x0D * 2 ^ 26 + 3 * 2 ^ 21 + 0 * 2 ^ 16 + 0x5678) (fun (c : Core) => c.set 3 (BitVec.allOnes 48)), by decide +kernel⟩,
    ⟨0, 0x0E * 2 ^ 26 + 3 * 2 ^ 21 + 0 * 2 ^ 16 + 0x5678 + 2 * 2 ^ 19, coreState 0 (0x0E * 2 ^ 26 + 3 * 2 ^ 21 + 0 * 2 ^ 16 + 0x5678 + 2 * 2 ^ 19) (fun (c : Core) => c.set 3 (BitVec.allOnes 48)), by decide +kernel⟩⟩

/-- States and operands that meet the hypotheses of CoresAccessMemory. -/
theorem witness_CoresAccessMemory :
    (∃ (k : Fin 9) (w : Nat) (n : Nat) (s : State), nextIs s k .ld w = true ∧ ownMem s ((s.core k).get (kRa w) + kImmS w) = true ∧ access (s.core k) .ld w = some (((s.core k).get (kRa w) + kImmS w), n)) ∧
    (∃ (k : Fin 9) (w : Nat) (n : Nat) (s : State), nextIs s k .st w = true ∧ ownMem s ((s.core k).get (kRa w) + kImmS w) = true ∧ access (s.core k) .st w = some (((s.core k).get (kRa w) + kImmS w), n) ∧ windowShut s k (((s.core k).get (kRa w) + kImmS w).toNat % 2 ^ 44) = false ∧ (s.core k).posted = [] ∧ (freeTrans s (coreInit k) (usedTrans s k)).isSome = true) ∧
    (∃ (k : Fin 9) (w : Nat) (s : State), nextIs s k .lr w = true) ∧
    (∃ (k : Fin 9) (w : Nat) (s : State), nextIs s k .sc w = true ∧ (s.core k).resv = some ((s.core k).get (kRa w)) ∧ windowShut s k (((s.core k).get (kRa w)).toNat % 2 ^ 44) = false) ∧
    (∃ (k : Fin 9) (w : Nat) (s : State), nextIs s k .sc w = true ∧ (s.core k).resv ≠ some ((s.core k).get (kRa w))) ∧
    (∃ (k : Fin 9) (w : Nat) (s : State), nextIs s k .tas w = true) ∧
    (∃ (k : Fin 9) (w : Nat) (n m : Nat) (s : State), nextIs s k .ld w = true ∧ ownMem s ((s.core k).get (kRa w) + kImmS w) = false ∧ access (s.core k) .ld w = some (((s.core k).get (kRa w) + kImmS w), n) ∧ freeTrans s (coreInit k) (usedTrans s k) = some m) ∧
    (∃ (k : Fin 9) (m w : Nat) (r : HubRsp) (u : State) (s : State), s.fatal = false ∧ (s.core k).wait = some (m, w) ∧ takeRsp (coreInit k) m s = some (r, u) ∧ r.ok = true ∧ (s.core k).waitReg = none) ∧
    (∃ (k : Fin 9) (w : Nat) (n m : Nat) (s : State), nextIs s k .st w = true ∧ ownMem s ((s.core k).get (kRa w) + kImmS w) = false ∧ access (s.core k) .st w = some (((s.core k).get (kRa w) + kImmS w), n) ∧ (s.core k).posted = [] ∧ freeTrans s (coreInit k) (usedTrans s k) = some m) ∧
    (∃ (k : Fin 9) (w : Nat) (s : State), nextIs s k .fence w = true ∧ (s.core k).posted = []) :=
  ⟨⟨0, 0x10 * 2 ^ 26 + 3 * 2 ^ 21 + 1 * 2 ^ 16 + 8, 6, coreState 0 (0x10 * 2 ^ 26 + 3 * 2 ^ 21 + 1 * 2 ^ 16 + 8) (fun (c : Core) => c.set 1 (BitVec.ofNat 48 (hubAddr 0x1100))), by decide +kernel⟩,
    ⟨0, 0x18 * 2 ^ 26 + 3 * 2 ^ 21 + 1 * 2 ^ 16 + 8, 6, coreState 0 (0x18 * 2 ^ 26 + 3 * 2 ^ 21 + 1 * 2 ^ 16 + 8) (fun (c : Core) => (c.set 1 (BitVec.ofNat 48 (hubAddr 0x1100))).set 3 9), by decide +kernel⟩,
    ⟨0, 0x1C * 2 ^ 26 + 3 * 2 ^ 21 + 1 * 2 ^ 16 + 8, coreState 0 (0x1C * 2 ^ 26 + 3 * 2 ^ 21 + 1 * 2 ^ 16 + 8) (fun (c : Core) => c.set 1 (BitVec.ofNat 48 (hubAddr 0x1100))), by decide +kernel⟩,
    ⟨0, kw 0x1D 3 1 2 0, coreState 0 (kw 0x1D 3 1 2 0) (fun (c : Core) => { (c.set 1 (BitVec.ofNat 48 (hubAddr 0x1100))).set 2 9 with resv := some (BitVec.ofNat 48 (hubAddr 0x1100)) }), by decide +kernel⟩,
    ⟨0, kw 0x1D 3 1 2 0, coreState 0 (kw 0x1D 3 1 2 0) (fun (c : Core) => { (c.set 1 (BitVec.ofNat 48 (hubAddr 0x1100))).set 2 9 with resv := some (BitVec.ofNat 48 (hubAddr 0x1108)) }), by decide +kernel⟩,
    ⟨0, 0x1E * 2 ^ 26 + 3 * 2 ^ 21 + 1 * 2 ^ 16 + 8, coreState 0 (0x1E * 2 ^ 26 + 3 * 2 ^ 21 + 1 * 2 ^ 16 + 8) (fun (c : Core) => c.set 1 (BitVec.ofNat 48 (hubAddr 0x1100))), by decide +kernel⟩,
    ⟨0, 0x10 * 2 ^ 26 + 3 * 2 ^ 21 + 1 * 2 ^ 16 + 8, 6, 0, coreState 0 (0x10 * 2 ^ 26 + 3 * 2 ^ 21 + 1 * 2 ^ 16 + 8) (fun (c : Core) => c.set 1 (BitVec.ofNat 48 (hubAddr 0x1000000000))), by decide +kernel⟩,
    ⟨0, 3, 0x10 * 2 ^ 26 + 3 * 2 ^ 21 + 1 * 2 ^ 16 + 8, ⟨0, 3, true, 99, 0⟩, ((takeRsp 0 3 { (coreState 0 0 fun (c : Core) => { c with wait := some (3, 0x10 * 2 ^ 26 + 3 * 2 ^ 21 + 1 * 2 ^ 16 + 8) }) with net := { State.reset.net with hubRsp := [⟨0, 3, true, 99, 0⟩] } }).map (·.2)).getD State.reset, { (coreState 0 0 fun (c : Core) => { c with wait := some (3, 0x10 * 2 ^ 26 + 3 * 2 ^ 21 + 1 * 2 ^ 16 + 8) }) with net := { State.reset.net with hubRsp := [⟨0, 3, true, 99, 0⟩] } }, by decide +kernel⟩,
    ⟨0, 0x18 * 2 ^ 26 + 3 * 2 ^ 21 + 1 * 2 ^ 16 + 8, 6, 0, coreState 0 (0x18 * 2 ^ 26 + 3 * 2 ^ 21 + 1 * 2 ^ 16 + 8) (fun (c : Core) => (c.set 1 (BitVec.ofNat 48 (hubAddr 0x1000000000))).set 3 9), by decide +kernel⟩,
    ⟨0, kw 0x38 0 0 0 0, coreState 0 (kw 0x38 0 0 0 0) (id), by decide +kernel⟩⟩

/-- States and operands that meet the hypotheses of CoresTransferControl. -/
theorem witness_CoresTransferControl :
    (∃ (k : Fin 9) (w : Nat) (s : State), nextIs s k .branch w = true) ∧
    (∃ (k : Fin 9) (w : Nat) (s : State), nextIs s k .j w = true) ∧
    (∃ (k : Fin 9) (w : Nat) (s : State), nextIs s k .call w = true) ∧
    (∃ (k : Fin 9) (w : Nat) (s : State), nextIs s k .jr w = true) ∧
    (∃ (k : Fin 9) (w : Nat) (s : State), nextIs s k .callr w = true) ∧
    (∃ (k : Fin 9) (w : Nat) (s : State), nextIs s k .ret w = true) ∧
    (∃ (k : Fin 9) (w : Nat) (s : State), nextIs s k .rspush w = true) ∧
    (∃ (k : Fin 9) (w : Nat) (s : State), nextIs s k .rspop w = true) ∧
    (∃ (k : Fin 9) (w : Nat) (v : W) (s : State), nextIs s k .srr w = true ∧ kRb w ≠ 7 ∧ (sysReg k (kRb w) s).1 = v) ∧
    (∃ (k : Fin 9) (w : Nat) (s : State), nextIs s k .srr w = true ∧ kRb w = 7) ∧
    (∃ (k : Fin 9) (w : Nat) (s : State), nextIs s k .srw w = true) ∧
    (∃ (k : Fin 9) (w : Nat) (s : State), nextIs s k .tret w = true) ∧
    (∃ (k : Fin 9) (w : Nat) (s : State), nextIs s k .wait w = true ∧ (pendingIntr s k).isSome = true) ∧
    (∃ (k : Fin 9) (w : Nat) (s : State), nextIs s k .wait w = true ∧ (pendingIntr s k) = none) ∧
    (∃ (k : Fin 9) (w : Nat) (s : State), nextIs s k .halt w = true) :=
  ⟨⟨0, 0x20 * 2 ^ 26 + 1 * 2 ^ 21 + 2 * 2 ^ 16 + 0xFFFE, coreState 0 (0x20 * 2 ^ 26 + 1 * 2 ^ 21 + 2 * 2 ^ 16 + 0xFFFE) (id), by decide +kernel⟩,
    ⟨0, 0x28 * 2 ^ 26 + 5, coreState 0 (0x28 * 2 ^ 26 + 5) (id), by decide +kernel⟩,
    ⟨0, 0x29 * 2 ^ 26 + 5, coreState 0 (0x29 * 2 ^ 26 + 5) (id), by decide +kernel⟩,
    ⟨0, kw 0x2A 0 1 0 0, coreState 0 (kw 0x2A 0 1 0 0) (fun (c : Core) => c.set 1 (BitVec.ofNat 48 (hubAddr 0x1100))), by decide +kernel⟩,
    ⟨0, kw 0x2B 0 1 0 0, coreState 0 (kw 0x2B 0 1 0 0) (fun (c : Core) => c.set 1 (BitVec.ofNat 48 (hubAddr 0x1100))), by decide +kernel⟩,
    ⟨0, kw 0x2C 0 0 0 0, coreState 0 (kw 0x2C 0 0 0 0) (fun (c : Core) => c.push 64), by decide +kernel⟩,
    ⟨0, kw 0x2C 0 1 0 1, coreState 0 (kw 0x2C 0 1 0 1) (fun (c : Core) => c.set 1 (BitVec.ofNat 48 (hubAddr 0x1100))), by decide +kernel⟩,
    ⟨0, kw 0x2C 3 0 0 2, coreState 0 (kw 0x2C 3 0 0 2) (fun (c : Core) => c.push 64), by decide +kernel⟩,
    ⟨0, kw 0x38 3 0 0 1, 0xC0000, coreState 0 (kw 0x38 3 0 0 1) (id), by decide +kernel⟩,
    ⟨0, kw 0x38 3 0 7 1, coreState 0 (kw 0x38 3 0 7 1) (id), by decide +kernel⟩,
    ⟨0, kw 0x38 5 1 0 2, coreState 0 (kw 0x38 5 1 0 2) (fun (c : Core) => c.set 1 (BitVec.ofNat 48 (hubAddr 0x1100))), by decide +kernel⟩,
    ⟨0, kw 0x38 0 0 0 4, coreState 0 (kw 0x38 0 0 0 4) (fun (c : Core) => { c with epc := 64, estatus := 0x40000 }), by decide +kernel⟩,
    ⟨0, kw 0x38 0 0 0 6, (coreState 0 (kw 0x38 0 0 0 6) id).set F.thrCfg_STATE 3 2 |>.set F.thrCfg_AFF 3 255, by decide +kernel⟩,
    ⟨8, kw 0x38 0 0 0 6, svState (kw 0x38 0 0 0 6) id, by decide +kernel⟩,
    ⟨0, kw 0x38 0 0 0 5, coreState 0 (kw 0x38 0 0 0 5) (id), by decide +kernel⟩⟩

/-- States and operands that meet the hypotheses of CoresTakeTraps. -/
theorem witness_CoresTakeTraps :
    (∃ (k : Fin 9) (w : Nat) (s : State), nextWord s k w = true ∧ (s.core k).tl = false ∧ kRow w = none) ∧
    (∃ (k : Fin 9) (w : Nat) (s : State), nextWord s k w = true ∧ (s.core k).tl = false ∧ kRow w = some .halt ∧ (s.core k).priv = false) ∧
    (∃ (k : Fin 9) (w : Nat) (s : State), nextWord s k w = true ∧ (s.core k).tl = false ∧ kRow w = some .srw ∧ kRd w ≠ 0 ∧ (s.core k).priv = false) ∧
    (∃ (k : Fin 9) (s : State), s.cc.cores.length = 9 ∧ (s.core k).tl = false ∧ coreReady s k = true ∧ fetchable s k (s.core k).pc = false) ∧
    (∃ (k : Fin 9) (s : State), s.cc.cores.length = 9 ∧ (s.core k).tl = false ∧ coreReady s k = true ∧ fetchable s k (s.core k).pc = true ∧ (s.core k).pc.toNat % 4 ≠ 0) ∧
    (∃ (k : Fin 9) (w : Nat) (a : W) (n : Nat) (s : State), nextWord s k w = true ∧ (s.core k).tl = false ∧ kRow w = some .ld ∧ access (s.core k) .ld w = some (a, n) ∧ a.toNat % (if n = 6 then 8 else n) ≠ 0) ∧
    (∃ (k : Fin 9) (w : Nat) (a : W) (n : Nat) (s : State), nextWord s k w = true ∧ (s.core k).tl = false ∧ kRow w = some .st ∧ access (s.core k) .st w = some (a, n) ∧ a.toNat % (if n = 6 then 8 else n) ≠ 0) ∧
    (∃ (k : Fin 9) (w : Nat) (a : W) (n : Nat) (s : State), nextWord s k w = true ∧ (s.core k).tl = false ∧ kRow w = some .tas ∧ access (s.core k) .tas w = some (a, n) ∧ a.toNat % 8 = 0 ∧ ownMem s a = false) ∧
    (∃ (k : Fin 9) (w : Nat) (s : State), nextWord s k w = true ∧ (s.core k).tl = false ∧ kRow w = some .call ∧ (s.core k).depth = 16 ∧ (s.core k).rsm = true) ∧
    (∃ (k : Fin 9) (w : Nat) (s : State), nextWord s k w = true ∧ (s.core k).tl = false ∧ kRow w = some .ret ∧ (s.core k).depth = 0 ∧ (s.core k).rsm = true) ∧
    (∃ (k : Fin 9) (w : Nat) (v : W) (b : Stk) (s : State), nextWord s k w = true ∧ (s.core k).tl = false ∧ kRow w = some .alu ∧ kCompute (s.core k) w = (v, b) ∧ b.toNat &&& (s.core k).trapMask ≠ 0) ∧
    (∃ (k : Fin 9) (w : Nat) (v : W) (s : State), nextWord s k w = true ∧ (s.core k).tl = false ∧ kRow w = some .trapi ∧ v = (s.core k).get (kRb w)) ∧
    (∃ (k : Fin 9) (w : Nat) (r : Nat) (s : State), nextWord s k w = true ∧ (s.core k).tl = false ∧ kRow w = some .ginj ∧ k.val < 8 ∧ ginjReason s k ((s.core k).get (kRd w)) (s.core k).priv = r ∧ r ≠ 0) ∧
    (∃ (k : Fin 9) (n : Nat) (a : W) (s : State), s.cc.cores.length = 9 ∧ (s.core k).tl = false ∧ coreRuns s k = true ∧ atBoundary s k = true ∧ postedError s k = some (n, a)) ∧
    (∃ (k : Fin 8) (n : Nat) (s : State), s.cc.cores.length = 9 ∧ coreRuns s k = true ∧ atBoundary s k = true ∧ postedError s k = none ∧ intrDue s k = true ∧ (s.core k).idle = false ∧ pendingIntr s k = some n) ∧
    (∃ (n : Nat) (s : State), s.cc.cores.length = 9 ∧ coreRuns s 8 = true ∧ atBoundary s 8 = true ∧ postedError s 8 = none ∧ intrDue s 8 = true ∧ (s.core 8).idle = false ∧ pendingIntr s 8 = some n) ∧
    (∃ (k : Fin 8) (w : Nat) (s : State), nextWord s k w = true ∧ (s.core k).tl = true ∧ kRow w = none) :=
  ⟨⟨0, 0, coreState 0 (0) (id), by decide +kernel⟩,
    ⟨0, kw 0x38 0 0 0 5, coreState 0 (kw 0x38 0 0 0 5) (fun (c : Core) => { c with status := 0, tvec := 0x80000010000 }), by decide +kernel⟩,
    ⟨0, kw 0x38 5 1 0 2, coreState 0 (kw 0x38 5 1 0 2) (fun (c : Core) => { c with status := 0, tvec := 0x80000010000 }), by decide +kernel⟩,
    ⟨0, coreState 0 (0) (fun (c : Core) => { c with pc := 4096 }), by decide +kernel⟩,
    ⟨0, coreState 0 (0) (fun (c : Core) => { c with pc := c.pc + 2 }), by decide +kernel⟩,
    ⟨0, 0x10 * 2 ^ 26 + 3 * 2 ^ 21 + 0 * 2 ^ 16 + 4, 4, 6, coreState 0 (0x10 * 2 ^ 26 + 3 * 2 ^ 21 + 0 * 2 ^ 16 + 4) (id), by decide +kernel⟩,
    ⟨0, 0x18 * 2 ^ 26 + 3 * 2 ^ 21 + 0 * 2 ^ 16 + 4, 4, 6, coreState 0 (0x18 * 2 ^ 26 + 3 * 2 ^ 21 + 0 * 2 ^ 16 + 4) (id), by decide +kernel⟩,
    ⟨0, 0x1E * 2 ^ 26 + 3 * 2 ^ 21 + 0 * 2 ^ 16 + 8, 8, 6, coreState 0 (0x1E * 2 ^ 26 + 3 * 2 ^ 21 + 0 * 2 ^ 16 + 8) (id), by decide +kernel⟩,
    ⟨0, 0x29 * 2 ^ 26 + 5, coreState 0 (0x29 * 2 ^ 26 + 5) (fun (c : Core) => { c with depth := 16 }), by decide +kernel⟩,
    ⟨0, kw 0x2C 0 0 0 0, coreState 0 (kw 0x2C 0 0 0 0) (id), by decide +kernel⟩,
    ⟨0, kw 1 3 1 2 0x01F, wMax, 2, coreState 0 (kw 1 3 1 2 0x01F) (fun (c : Core) => { c.set 1 5 with status := 0xC0200 }), by decide +kernel⟩,
    ⟨0, kw 0x38 0 0 1 3, 5000, coreState 0 (kw 0x38 0 0 1 3) (fun (c : Core) => c.set 1 5000), by decide +kernel⟩,
    ⟨0, kw 0x3C 1 2 3 1, 1, coreState 0 (kw 0x3C 1 2 3 1) (id), by decide +kernel⟩,
    ⟨0, 3, 80, (coreState 0 0 fun (c : Core) => { c with posted := [(3, 80)] }) |> fun s => { s with net := { s.net with hubRsp := [⟨0, 3, false, 0, 80⟩] } }, by decide +kernel⟩,
    ⟨0, 3, (coreState 0 0 (fun (c : Core) => { c with status := 0x1C0000 })).set F.thrCfg_STATE 3 2 |>.set F.thrCfg_AFF 3 255, by decide +kernel⟩,
    ⟨8, (svState 0 (fun (c : Core) => { c with status := 0x1C0000 })).set F.svEvt_LANE 0 1 |>.set F.svEvtEn_LANE 0 1, by decide +kernel⟩,
    ⟨0, 0, coreState 0 0 fun (c : Core) => { c with status := 0x2C0000 }, by decide +kernel⟩⟩

/-- States and operands that meet the hypotheses of GraphPortQueuesAndMailboxes. -/
theorem witness_GraphPortQueuesAndMailboxes :
    (∃ (k : Fin 8) (w : Nat) (s : State), nextIs s k .ginj w = true ∧ ginjReason s k ((s.core k).get (kRd w)) (s.core k).priv = 0 ∧ (s.injList k).length < injDepth) ∧
    (∃ (k : Fin 8) (w : Nat) (s : State), nextIs s k .ginj w = true ∧ ginjReason s k ((s.core k).get (kRd w)) (s.core k).priv = 0 ∧ injDepth ≤ (s.injList k).length) ∧
    (∃ (k : Fin 8) (t0 w : Nat) (s : State), s.fatal = false ∧ s.cc.cores.length = 9 ∧ (s.core k).ginjAt = some (t0, w) ∧ s.get F.gpCfg_WAIT k ≠ 0 ∧ t0 + s.get F.gpCfg_WAIT k ≤ s.ticks ∧ injDepth ≤ (s.injList k).length ∧ (s.core k).tl = false) ∧
    (∃ (c : Fin 8) (x : Token) (rest : List Token) (s : State), s.fatal = false ∧ s.injList c = x :: rest ∧ s.pRuns (tagPart x.tag) = false) ∧
    (∃ (c : Fin 8) (x : Token) (rest : List Token) (s : State), s.fatal = false ∧ s.injList c = x :: rest ∧ s.pRuns (tagPart x.tag) = true ∧ pausedP s (tagPart x.tag) = false ∧ injectRoom s nodeHub (tagPart x.tag) 0 = true ∧ (s.cl.injQ.any fun f => f.node = nodeHub && f.cls = tagPart x.tag) = false) ∧
    (∃ (k : Fin 8) (w : Nat) (m : Fin 8) (s : State), nextIs s k .gcol w = true ∧ ((s.core k).priv = true ∨ s.flag F.gpCfg_THREAD_OK k = true) ∧ ((s.core k).get (kRa w)).toNat = m.val ∧ (takeFirst (fun e : Nat × Option MbxEntry => e.1 / 8 = k.val) s.sched.ahead) = none ∧ s.mbx (k.val * 8 + m.val) = []) ∧
    (∃ (k : Fin 8) (w : Nat) (m : Fin 8) (x : MbxEntry) (rest : List MbxEntry) (s : State), nextIs s k .gcol w = true ∧ ((s.core k).priv = true ∨ s.flag F.gpCfg_THREAD_OK k = true) ∧ ((s.core k).get (kRa w)).toNat = m.val ∧ (takeFirst (fun e : Nat × Option MbxEntry => e.1 / 8 = k.val) s.sched.ahead) = none ∧ s.mbx (k.val * 8 + m.val) = x :: rest ∧ x.unc = false) ∧
    (∃ (k : Fin 8) (w : Nat) (m : Fin 8) (x : MbxEntry) (rest : List (Nat × Option MbxEntry)) (s : State), nextIs s k .gcol w = true ∧ ((s.core k).priv = true ∨ s.flag F.gpCfg_THREAD_OK k = true) ∧ ((s.core k).get (kRa w)).toNat = m.val ∧ (takeFirst (fun e : Nat × Option MbxEntry => e.1 / 8 = k.val) s.sched.ahead) = some ((k.val * 8 + m.val, some x), rest) ∧ x.unc = false) ∧
    (∃ (k : Fin 8) (m : Fin 8) (err : CoreErr) (x : MbxEntry) (rest : List MbxEntry) (s : State), s.fatal = false ∧ coreRuns s k = true ∧ ((s.core k).priv = true ∨ s.flag F.gpCfg_THREAD_OK k = true) ∧ (s.sched.ahead.filter fun e => e.1 / 8 = k.val).length < 3 ∧ s.mbx (k.val * 8 + m.val) = x :: rest) :=
  ⟨⟨0, kw 0x3C 1 2 3 1, (coreState 0 (kw 0x3C 1 2 3 1) fun (c : Core) => ((c.set 1 tag0).set 2 77).set 3 5000) |> fun s => ((s.set F.gpCfg_PMASK 0 255).set F.partStat_STATE 1 3).set F.partStat_CRIT 1 3, by decide +kernel⟩,
    ⟨0, kw 0x3C 1 2 3 1, { ((coreState 0 (kw 0x3C 1 2 3 1) fun (c : Core) => ((c.set 1 tag0).set 2 77).set 3 5000) |> fun s => ((s.set F.gpCfg_PMASK 0 255).set F.partStat_STATE 1 3).set F.partStat_CRIT 1 3) with sched := { State.reset.sched with inj := [(0, List.replicate 8 ⟨tag0, 5000, 77, false⟩)] } }, by decide +kernel⟩,
    ⟨0, 0, 0, { (coreState 0 0 fun (c : Core) => { c with ginjAt := some (0, 0) }) with ticks := 1000, sched := { State.reset.sched with inj := [(0, List.replicate 8 ⟨tag0, 5000, 77, false⟩)] } }, by decide +kernel⟩,
    ⟨0, ⟨tag0, 5000, 77, false⟩, [], { State.reset with sched := { State.reset.sched with inj := [(0, [⟨tag0, 5000, 77, false⟩])] } }, by decide +kernel⟩,
    ⟨0, ⟨tag0, 5000, 77, false⟩, [], { (State.reset.set F.partStat_STATE 1 3) with sched := { State.reset.sched with inj := [(0, [⟨tag0, 5000, 77, false⟩])] } }, by decide +kernel⟩,
    ⟨0, kw 0x3C 3 0 0 2, 0, coreState 0 (kw 0x3C 3 0 0 2) id, by decide +kernel⟩,
    ⟨0, kw 0x3C 3 0 0 2, 0, ⟨7, 9, 11, false⟩, [], { coreState 0 (kw 0x3C 3 0 0 2) id with sched := { State.reset.sched with mbx := [(0, [⟨7, 9, 11, false⟩])] } }, by decide +kernel⟩,
    ⟨0, kw 0x3C 3 0 0 2, 0, ⟨7, 9, 11, false⟩, [], { coreState 0 (kw 0x3C 3 0 0 2) id with sched := { State.reset.sched with ahead := [(0, some ⟨7, 9, 11, false⟩)] } }, by decide +kernel⟩,
    ⟨0, 0, .good, ⟨7, 9, 11, false⟩, [], { coreState 0 (kw 0x3C 3 0 0 2) id with sched := { State.reset.sched with mbx := [(0, [⟨7, 9, 11, false⟩])] } }, by decide +kernel⟩⟩

/-- States and operands that meet the hypotheses of ThreadsMoveBetweenStates. -/
theorem witness_ThreadsMoveBetweenStates :
    (∃ (who : From) (k : Fin 8) (run : Bool) (s : State), s.fatal = false ∧ (fromHost who.1 = true ∨ fromCore who.1 = true)) ∧
    (∃ (who : From) (k : Fin 8) (s : State), s.fatal = false ∧ (fromHost who.1 = true ∨ fromCore who.1 = true) ∧ s.cc.cores.length = 9) ∧
    (∃ (who : From) (k : Fin 8) (s : State), s.fatal = false ∧ s.cc.cores.length = 9 ∧ atBoundary s k = true) ∧
    (∃ (who : From) (k : Fin 8) (s : State), s.fatal = false ∧ s.cc.cores.length = 9) ∧
    (∃ (who : From) (k : Fin 8) (s : State), s.fatal = false ∧ s.flag F.ccStat_DBG_HALTED k = true ∧ (s.core k).double = false ∧ s.flag F.ccStat_HALTED k = false) ∧
    (∃ (who : From) (i : Fin 256) (s : State), s.fatal = false ∧ (fromHost who.1 = true ∨ fromCore who.1 = true ∧ who.2 = true) ∧ s.get F.thrCfg_STATE i = thrFree) ∧
    (∃ (who : From) (i : Fin 256) (s : State), s.fatal = false ∧ (fromHost who.1 = true ∨ fromCore who.1 = true ∧ who.2 = true) ∧ s.get F.thrCfg_STATE i = thrBlocked) ∧
    (∃ (who : From) (i : Fin 256) (s : State), s.fatal = false ∧ (fromHost who.1 = true ∨ fromCore who.1 = true ∧ who.2 = true) ∧ s.get F.thrCfg_STATE i ≠ thrRunning) ∧
    (∃ (who : From) (i : Fin 256) (s : State), (s.get F.thrCfg_STATE i = thrRunning ∨ fromSv who.1 = true)) ∧
    (∃ (who : From) (c : Fin 8) (i : Nat) (s : State), s.fatal = false ∧ fromCore who.1 = true ∧ who.2 = true ∧ runningOn s who.1 = some i) ∧
    (∃ (who : From) (c : Fin 8) (i : Nat) (s : State), s.fatal = false ∧ fromCore who.1 = true ∧ who.2 = true ∧ runningOn s who.1 = some i ∧ wakes s i = false) ∧
    (∃ (who : From) (c : Fin 8) (i : Nat) (s : State), s.fatal = false ∧ fromCore who.1 = true ∧ who.2 = true ∧ runningOn s who.1 = some i) ∧
    (∃ (who : From) (tr : Fin 128) (c : Fin 8) (s : State), s.fatal = false ∧ fromCore who.1 = true ∧ who.2 = true ∧ offer s who.1 = none) ∧
    (∃ (who : From) (tr : Fin 128) (c : Fin 8) (i : Nat) (s : State), s.fatal = false ∧ fromCore who.1 = true ∧ who.2 = true ∧ offer s who.1 = some i ∧ runningOn s who.1 = none) ∧
    (∃ (i : Fin 256) (s : State), s.fatal = false ∧ s.get F.thrCfg_STATE i = thrBlocked ∧ wakes s i = true) ∧
    (∃ (i : Fin 256) (s : State), (s.get F.thrCfg_STATE i ≠ thrBlocked ∨ wakes s i = false)) :=
  ⟨⟨(11, true), 3, true, State.reset, by decide +kernel⟩,
    ⟨(11, true), 3, coreState 3 0 fun (c : Core) => { c with double := true }, by decide +kernel⟩,
    ⟨(11, true), 3, coreState 3 0 id, by decide +kernel⟩,
    ⟨(11, true), 3, coreState 3 0 id, by decide +kernel⟩,
    ⟨(11, true), 3, (coreState 3 0 id).set F.ccStat_DBG_HALTED 3 1, by decide +kernel⟩,
    ⟨(11, true), 7, State.reset, by decide +kernel⟩,
    ⟨(11, true), 7, withRegs [(F.thrCfg_STATE, 7, 1)], by decide +kernel⟩,
    ⟨(11, true), 7, withRegs [(F.thrCfg_STATE, 7, 1)], by decide +kernel⟩,
    ⟨(11, true), 7, withRegs [(F.thrCfg_STATE, 7, 3)], by decide +kernel⟩,
    ⟨(2, true), 2, 7, withRegs [(F.thrCfg_STATE, 7, 3), (F.thrCfg_CORE, 7, 2)], by decide +kernel⟩,
    ⟨(2, true), 2, 7, withRegs [(F.thrCfg_STATE, 7, 3), (F.thrCfg_CORE, 7, 2)], by decide +kernel⟩,
    ⟨(2, true), 2, 7, withRegs [(F.thrCfg_STATE, 7, 3), (F.thrCfg_CORE, 7, 2)], by decide +kernel⟩,
    ⟨(2, true), 5, 2, State.reset, by decide +kernel⟩,
    ⟨(2, true), 5, 2, 7, withRegs [(F.thrCfg_STATE, 7, 2), (F.thrCfg_AFF, 7, 4)], by decide +kernel⟩,
    ⟨7, withRegs [(F.thrCfg_STATE, 7, 1), (F.evCfg_EN, 3, 1), (F.evCfg_SLOT_EN, 3, 1), (F.evCfg_SLOT, 3, 7), (F.evCfg_PEND, 3, 1)], by decide +kernel⟩,
    ⟨7, State.reset, by decide +kernel⟩⟩

/-- States and operands that meet the hypotheses of EventsTimersAndLocks. -/
theorem witness_EventsTimersAndLocks :
    (∃ (who : From) (n : Fin 512) (s : State), s.fatal = false ∧ (fromHost who.1 = true ∨ fromCore who.1 = true ∧ who.2 = true) ∧ s.flag F.evCfg_MSIX_EN n = false) ∧
    (∃ (who : From) (n : Fin 512) (s : State), s.fatal = false ∧ (fromHost who.1 = true ∨ fromCore who.1 = true ∧ who.2 = true) ∧ s.flag F.evCfg_EN n = true ∧ s.flag F.evCfg_MSIX_EN n = true ∧ s.flag F.pcieStat_MSIX_EN 0 = true ∧ s.flag F.pcieStat_FMASK 0 = false ∧ s.flag F.pcieStat_BME 0 = true ∧ mget 1 s.pcie.msixTab (n.val * 4 + 3) % 2 = 0 ∧ mfind s.pcie.msixPend n = none) ∧
    (∃ (who : From) (n : Fin 512) (s : State), s.fatal = false ∧ (fromHost who.1 = true ∨ fromCore who.1 = true ∧ who.2 = true) ∧ s.flag F.evCfg_EN n = true ∧ s.flag F.evCfg_MSIX_EN n = true ∧ (mfind s.pcie.msixPend n).isSome = true) ∧
    (∃ (who : From) (v : BitVec 32) (s : State), s.fatal = false ∧ (fromHost who.1 = true ∨ fromCore who.1 = true) ∧ (∀ i : Fin 32, s.flag F.evCfg_MSIX_EN (424 + i.val) = false)) ∧
    (∃ (k : Fin 16) (s : State), s.fatal = false ∧ s.flag F.timerCfg_EN k = true ∧ 0 ≤ sdiff s.t (w48 (s.get F.timerCmp_T k)) ∧ s.get F.timerCfg_PERIOD k = 0) ∧
    (∃ (k : Fin 16) (m : Nat) (s : State), s.fatal = false ∧ s.flag F.timerCfg_EN k = true ∧ sdiff s.t (w48 (s.get F.timerCmp_T k)) = (m : Int) ∧ s.get F.timerCfg_PERIOD k ≠ 0) ∧
    (∃ (who : From) (tr : Fin 128) (k : Fin 64) (s : State), s.fatal = false ∧ who.1.val ≠ 12 ∧ s.flag F.lkPeek_HELD k = false) ∧
    (∃ (who : From) (tr : Fin 128) (k : Fin 64) (s : State), s.fatal = false ∧ who.1.val ≠ 12 ∧ s.flag F.lkPeek_HELD k = true) ∧
    (∃ (who : From) (k : Fin 64) (s : State), s.fatal = false ∧ s.flag F.lkPeek_HELD k = true ∧ s.get F.lkPeek_OWNER k = who.1.val) ∧
    (∃ (who : From) (k : Fin 64) (s : State), s.fatal = false ∧ (s.flag F.lkPeek_HELD k = false ∨ s.get F.lkPeek_OWNER k ≠ who.1.val)) ∧
    (∃ (who : From) (k : Fin 64) (s : State), s.fatal = false ∧ fromHost who.1 = true) :=
  ⟨⟨(11, true), 30, withRegs [(F.evCfg_EN, 30, 1)], by decide +kernel⟩,
    ⟨(11, true), 30, { withRegs [(F.evCfg_EN, 30, 1), (F.evCfg_MSIX_EN, 30, 1), (F.pcieStat_MSIX_EN, 0, 1), (F.pcieStat_BME, 0, 1), (F.pcieStat_FMASK, 0, 0)] with pcie := { State.reset.pcie with msixTab := [(123, 0)] } }, by decide +kernel⟩,
    ⟨(11, true), 30, { withRegs [(F.evCfg_EN, 30, 1), (F.evCfg_MSIX_EN, 30, 1)] with pcie := { State.reset.pcie with msixPend := [(30, 1)] } }, by decide +kernel⟩,
    ⟨(11, true), 0x80000001, State.reset, by decide +kernel⟩,
    ⟨3, { (withRegs [(F.timerCfg_EN, 3, 1), (F.timerCmp_T, 3, 100)]) with t := 100 }, by decide +kernel⟩,
    ⟨3, 25, { (withRegs [(F.timerCfg_EN, 3, 1), (F.timerCmp_T, 3, 100), (F.timerCfg_PERIOD, 3, 10)]) with t := 125 }, by decide +kernel⟩,
    ⟨(11, true), 5, 9, State.reset, by decide +kernel⟩,
    ⟨(11, true), 5, 9, withRegs [(F.lkPeek_HELD, 9, 1), (F.lkPeek_OWNER, 9, 3)], by decide +kernel⟩,
    ⟨(11, true), 9, withRegs [(F.lkPeek_HELD, 9, 1), (F.lkPeek_OWNER, 9, 11)], by decide +kernel⟩,
    ⟨(11, true), 9, State.reset, by decide +kernel⟩,
    ⟨(11, true), 9, withRegs [(F.lkPeek_HELD, 9, 1), (F.lkPeek_OWNER, 9, 3)], by decide +kernel⟩⟩

/-- States and operands that meet the hypotheses of SupervisorRunsAndFails. -/
theorem witness_SupervisorRunsAndFails :
    (∃ (who : From) (s : State), s.fatal = false ∧ fromMc who.1 = true ∧ s.svState = svHeld ∧ s.flag F.svStat_CMP_OK 0 = true ∧ s.cc.cores.length = 9 ∧ s.flag F.svDbg_HALT_REQ 0 = false) ∧
    (∃ (who : From) (s : State), (fromMc who.1 = false ∨ s.svState ≠ svHeld ∨ s.flag F.svStat_CMP_OK 0 = false)) ∧
    (∃ (who : From) (s : State), s.fatal = false ∧ fromMc who.1 = true ∧ s.svState ≠ svFailed ∧ s.cc.cores.length = 9) ∧
    (∃ (who : From) (s : State), s.svState = svFailed) ∧
    (∃ (who : From) (s : State), s.fatal = false ∧ fromMc who.1 = true ∧ s.svState = svHeld) ∧
    (∃ (who : From) (s : State), s.fatal = false ∧ fromMc who.1 = true ∧ s.svState = svHeld) ∧
    (∃ (group : BitVec 4) (a b wire : Bool) (s : State), s.fatal = false ∧ (a = true ∨ b = true ∨ wire = true) ∧ s.svState ≠ svFailed ∧ s.flag F.svMisc_VALID 0 = false ∧ (faultInst s 32 (coreLoc 8)).eff = clsF ∧ s.get F.fkCfg_MAXC 32 ≤ clsF) ∧
    (∃ (who : From) (n : BitVec 6) (s : State), s.fatal = false ∧ s.flag F.svCtl_DBG_EN 0 = true) ∧
    (∃ (who : From) (s : State), s.fatal = false ∧ s.flag F.svCtl_DBG_EN 0 = true ∧ s.svState = svRun ∧ atBoundary s 8 = true) ∧
    (∃ (who : From) (s : State), s.fatal = false ∧ s.flag F.svCtl_DBG_EN 0 = true ∧ s.svState = svDbg ∧ (s.core 8).double = false) ∧
    (∃ (who : From) (v : W) (s : State), s.fatal = false ∧ s.flag F.svCtl_DBG_EN 0 = true ∧ s.svState = svDbg ∧ s.get F.svDbg_SEL 0 = 32) ∧
    (∃ (who : From) (s : State), s.fatal = false ∧ s.flag F.svCtl_DBG_EN 0 = true ∧ s.svState = svDbg) ∧
    (∃ (who : From) (a : DbgAct) (s : State), s.flag F.svCtl_DBG_EN 0 = false) ∧
    (∃ (who : From) (s : State), s.fatal = false ∧ fromSv who.1 = true ∧ who.2 = true) ∧
    (∃ (who : From) (s : State), (fromSv who.1 = false ∨ who.2 = false)) ∧
    (∃  (s : State), s.fatal = false ∧ s.svState = svRun ∧ s.flag F.svWdog_EN 0 = true ∧ s.get F.svWdog_PERIOD 0 ≠ 0 ∧ s.cc.kickAt + s.get F.svWdog_PERIOD 0 ≤ s.ticks) ∧
    (∃  (s : State), s.fatal = false ∧ s.flag F.svStat_TMR_ARMED 0 = true ∧ 0 ≤ sdiff s.t (w48 (s.get F.svTmr_T 0))) ∧
    (∃ (who : From) (v : W) (s : State), s.fatal = false ∧ (fromMc who.1 = true ∨ fromHost who.1 = true) ∧ s.flag F.svStat_IN_FULL 0 = false) ∧
    (∃ (who : From) (tr : Fin 128) (s : State), s.fatal = false ∧ fromSv who.1 = true) ∧
    (∃ (who : From) (v : W) (s : State), s.fatal = false ∧ fromSv who.1 = true ∧ who.2 = true ∧ s.flag F.svStat_OUT_FULL 0 = false) ∧
    (∃ (who : From) (tr : Fin 128) (s : State), s.fatal = false ∧ (fromMc who.1 = true ∨ fromHost who.1 = true)) :=
  ⟨⟨(8, true), withRegs [(F.svStat_STATE, 0, 1), (F.svStat_CMP_OK, 0, 1)], by decide +kernel⟩,
    ⟨(11, true), State.reset, by decide +kernel⟩,
    ⟨(8, true), State.reset, by decide +kernel⟩,
    ⟨(8, true), withRegs [(F.svStat_STATE, 0, 6)], by decide +kernel⟩,
    ⟨(8, true), withRegs [(F.svStat_STATE, 0, 1)], by decide +kernel⟩,
    ⟨(8, true), withRegs [(F.svStat_STATE, 0, 1)], by decide +kernel⟩,
    ⟨3, true, false, false, withRegs [(F.svStat_STATE, 0, 2)], by decide +kernel⟩,
    ⟨(11, true), 33, withRegs [(F.svCtl_DBG_EN, 0, 1)], by decide +kernel⟩,
    ⟨(11, true), withRegs [(F.svCtl_DBG_EN, 0, 1), (F.svStat_STATE, 0, 2)], by decide +kernel⟩,
    ⟨(11, true), withRegs [(F.svCtl_DBG_EN, 0, 1), (F.svStat_STATE, 0, 3)], by decide +kernel⟩,
    ⟨(11, true), 4099, withRegs [(F.svCtl_DBG_EN, 0, 1), (F.svStat_STATE, 0, 3), (F.svDbg_SEL, 0, 32)], by decide +kernel⟩,
    ⟨(11, true), withRegs [(F.svCtl_DBG_EN, 0, 1), (F.svStat_STATE, 0, 3)], by decide +kernel⟩,
    ⟨(11, true), .step, State.reset, by decide +kernel⟩,
    ⟨(13, true), State.reset, by decide +kernel⟩,
    ⟨(11, true), State.reset, by decide +kernel⟩,
    ⟨{ (withRegs [(F.svStat_STATE, 0, 2), (F.svWdog_EN, 0, 1), (F.ilkStat_LATCH, 0, 0), (F.svWdog_PERIOD, 0, 5)]) with ticks := 7, t := 7 }, by decide +kernel⟩,
    ⟨withRegs [(F.svStat_TMR_ARMED, 0, 1)], by decide +kernel⟩,
    ⟨(11, true), 77, State.reset, by decide +kernel⟩,
    ⟨(13, true), 5, withRegs [(F.svStat_IN_FULL, 0, 1), (F.svMbxIn_DATA, 0, 77)], by decide +kernel⟩,
    ⟨(13, true), 77, State.reset, by decide +kernel⟩,
    ⟨(11, true), 5, withRegs [(F.svStat_OUT_FULL, 0, 1), (F.svMbxOut_DATA, 0, 77)], by decide +kernel⟩⟩

/-- States and operands that meet the hypotheses of FaultsAreRecordedAndEscalated. -/
theorem witness_FaultsAreRecordedAndEscalated :
    (∃ (e : FaultEv) (q : List FaultEv) (s : State), s.fatal = false ∧ collectorOn s = true ∧ nextFault s.flt.queue = some e ∧ takeFirst (fun x => x = e) s.flt.queue = some (e, q) ∧ s.get F.fkWin_W e.kind = 0 ∧ (faultInst s e.kind e.loc).eff < clsF ∧ e.kind ≠ 2 ∧ s.flt.log.length < 64) ∧
    (∃ (e : FaultEv) (q : List FaultEv) (s : State), s.fatal = false ∧ collectorOn s = true ∧ nextFault s.flt.queue = some e ∧ takeFirst (fun x => x = e) s.flt.queue = some (e, q) ∧ s.get F.fkWin_W e.kind ≠ 0 ∧ sdiff e.t (faultInst s e.kind e.loc).start < (s.get F.fkWin_W e.kind : Int) ∧ (faultInst s e.kind e.loc).cnt ≠ 0 ∧ s.get F.fkCfg_N e.kind < (faultInst s e.kind e.loc).cnt + 1) ∧
    (∃ (e : FaultEv) (q : List FaultEv) (s : State), s.fatal = false ∧ collectorOn s = true ∧ nextFault s.flt.queue = some e ∧ takeFirst (fun x => x = e) s.flt.queue = some (e, q) ∧ s.get F.fkWin_W e.kind = 0 ∧ (faultInst s e.kind e.loc).eff = clsF ∧ e.kind ≠ 2) ∧
    (∃  (s : State), collectorOn s = false) ∧
    (∃  (s : State), s.fatal = true ∧ s.flt.recordWritten = false) ∧
    (∃  (s : State), (s.fatal = false ∨ s.flt.recordWritten = true)) ∧
    (∃ (kind : Fin 64) (l : BitVec 16) (s : State), s.fatal = false ∧ instanceOk kind l.toNat = true ∧ collectorOn s = true ∧ (wrongPairs s).contains (pairKey kind l.toNat) = false ∧ s.flt.log.length < 64) ∧
    (∃ (kind : Fin 64) (l : BitVec 16) (s : State), instanceOk kind l.toNat = true ∧ collectorOn s = true ∧ (mfind s.flt.pairHeld (pairKey kind l.toNat)).isSome = true ∧ s.flt.wire.contains (pairKey kind l.toNat) = false) ∧
    (∃ (kind : Fin 64) (l : BitVec 16) (s : State), instanceOk kind l.toNat = true ∧ collectorOn s = true) ∧
    (∃ (who : From) (k : Fin 64) (s : State), s.fatal = false ∧ (fromHost who.1 = true ∨ fromCore who.1 = true ∨ fromMc who.1 = true)) ∧
    (∃ (who : From) (s : State), s.fatal = false ∧ (fromHost who.1 = true ∨ fromCore who.1 = true ∨ fromMc who.1 = true)) ∧
    (∃ (who : From) (mask : BitVec 10) (cycles : BitVec 16) (s : State), s.fatal = false ∧ (fromHost who.1 = true ∨ fromCore who.1 = true ∨ fromMc who.1 = true) ∧ s.flag F.fltCtl_INJ_EN 0 = true ∧ injectable (s.get F.injSel_KIND 0) = true ∧ instanceOk (s.get F.injSel_KIND 0) (s.get F.injSel_LOCATION 0) = true ∧ mask.toNat < 2 ^ checkBits (s.get F.injSel_KIND 0)) ∧
    (∃ (who : From) (pair : Bool) (mask : BitVec 10) (cycles : BitVec 16) (s : State), 2 ^ checkBits (s.get F.injSel_KIND 0) ≤ mask.toNat) ∧
    (∃ (who : From) (s : State), s.fatal = false ∧ (fromMc who.1 = true ∨ fromHost who.1 = true)) :=
  ⟨⟨⟨10, loc 3 5, 7, none, 0, false⟩, [], { (withRegs [(F.bootStat_STEP, 0, 11), (F.fkWin_W, 10, 0)]) with flt := { State.reset.flt with queue := [⟨10, loc 3 5, 7, none, 0, false⟩] } }, by decide +kernel⟩,
    ⟨⟨10, loc 3 5, 7, none, 0, false⟩, [], { (withRegs [(F.bootStat_STEP, 0, 11), (F.fkWin_W, 10, 100), (F.fkCfg_N, 10, 1)]) with flt := { State.reset.flt with queue := [⟨10, loc 3 5, 7, none, 0, false⟩], insts := [⟨10, loc 3 5, 1, 0, 1⟩] } }, by decide +kernel⟩,
    ⟨⟨32, coreLoc 8, 7, none, 0, false⟩, [], { (withRegs [(F.bootStat_STEP, 0, 11), (F.fkWin_W, 32, 0)]) with flt := { State.reset.flt with queue := [⟨32, coreLoc 8, 7, none, 0, false⟩] } }, by decide +kernel⟩,
    ⟨withRegs [(F.bootStat_STEP, 0, 1)], by decide +kernel⟩,
    ⟨{ State.reset with flt := { State.reset.flt with decision := some (0, 0) } }, by decide +kernel⟩,
    ⟨State.reset, by decide +kernel⟩,
    ⟨10, BitVec.ofNat 16 (loc 3 5), withRegs [(F.bootStat_STEP, 0, 11)], by decide +kernel⟩,
    ⟨10, BitVec.ofNat 16 (loc 3 5), { (withRegs [(F.bootStat_STEP, 0, 11)]) with flt := { State.reset.flt with pairHeld := [(pairKey 10 (loc 3 5), 16)] } }, by decide +kernel⟩,
    ⟨10, BitVec.ofNat 16 (loc 3 5), withRegs [(F.bootStat_STEP, 0, 11)], by decide +kernel⟩,
    ⟨(11, true), 10, withRegs [(F.bootStat_STEP, 0, 11), (F.fkStat_STICKY, 10, 1)], by decide +kernel⟩,
    ⟨(11, true), { State.reset with flt := { State.reset.flt with log := [(1, 2)] } }, by decide +kernel⟩,
    ⟨(11, true), 3, 0, withRegs [(F.fltCtl_INJ_EN, 0, 1), (F.injSel_KIND, 0, 8), (F.injSel_LOCATION, 0, loc 3 5)], by decide +kernel⟩,
    ⟨(11, true), false, 128, 0, withRegs [(F.fltCtl_INJ_EN, 0, 1), (F.injSel_KIND, 0, 8)], by decide +kernel⟩,
    ⟨(11, true), { State.reset with flt := { State.reset.flt with vbat := [(0, 0x2000000000000)] } }, by decide +kernel⟩⟩

/-- States and operands that meet the hypotheses of UpdatesRunTheirCommands. -/
theorem witness_UpdatesRunTheirCommands :
    (∃ (a : Nat) (s : State), s.fatal = false ∧ s.mc.cmd = some (1, a) ∧ s.flag F.mcStat_OPEN 0 = false ∧ (bits a 0 1 ≠ s.get F.bootStat_SLOT 0 ∨ s.flag F.bootStat_RECOVERY 0 = true)) ∧
    (∃ (a : Nat) (l : List (Nat × BitVec 8)) (s : State), s.fatal = false ∧ s.mc.cmd = some (1, a) ∧ s.flag F.mcStat_OPEN 0 = false ∧ (bits a 0 1 ≠ s.get F.bootStat_SLOT 0 ∨ s.flag F.bootStat_RECOVERY 0 = true)) ∧
    (∃ (a : Nat) (s : State), s.fatal = false ∧ s.mc.cmd = some (2, a) ∧ s.flag F.mcStat_OPEN 0 = true ∧ bits a 0 32 % 256 = 0 ∧ bits a 32 16 ≠ 0 ∧ bits a 32 16 ≤ 32768 ∧ bits a 0 32 + bits a 32 16 ≤ slotSize) ∧
    (∃ (a : Nat) (s : State), s.fatal = false ∧ s.mc.cmd = some (2, a) ∧ s.flag F.mcStat_OPEN 0 = true ∧ (bits a 0 32 % 256 ≠ 0 ∨ bits a 32 16 = 0 ∨ 32768 < bits a 32 16 ∨ slotSize < bits a 0 32 + bits a 32 16)) ∧
    (∃ (a : Nat) (s : State), s.fatal = false ∧ s.mc.cmd = some (3, a) ∧ s.flag F.mcStat_OPEN 0 = true) ∧
    (∃ (a : Nat) (s : State), s.fatal = false ∧ s.mc.cmd = some (4, a) ∧ s.flag F.mcStat_VERIFIED 0 = true) ∧
    (∃ (a : Nat) (s : State), s.fatal = false ∧ s.mc.cmd = some (4, a) ∧ s.flag F.mcStat_VERIFIED 0 = true) ∧
    (∃ (a : Nat) (h : Header) (s : State), s.fatal = false ∧ s.mc.cmd = some (5, a) ∧ s.get F.bootStat_STEP 0 = 11 ∧ (bootRec s).pendv = true ∧ (bootRec s).pending = s.get F.bootStat_SLOT 0 ∧ s.mc.image = some h ∧ revokeOk s h = false) ∧
    (∃ (a : Nat) (h : Header) (s : State), s.fatal = false ∧ s.mc.cmd = some (5, a) ∧ s.get F.bootStat_STEP 0 = 11 ∧ (bootRec s).pendv = true ∧ (bootRec s).pending = s.get F.bootStat_SLOT 0 ∧ s.mc.image = some h ∧ revokeOk s h = true) ∧
    (∃ (a : Nat) (s : State), s.fatal = false ∧ s.mc.cmd = some (6, a) ∧ s.flag F.mcStat_OPEN 0 = true) ∧
    (∃ (a : Nat) (s : State), s.fatal = false ∧ (s.mc.cmd = some (2, a) ∨ s.mc.cmd = some (3, a) ∨ s.mc.cmd = some (6, a)) ∧ s.flag F.mcStat_OPEN 0 = false) ∧
    (∃ (a : Nat) (s : State), s.fatal = false ∧ s.mc.cmd = some (7, a)) :=
  ⟨⟨1, { (withRegs [(F.bootStat_STEP, 0, 11), (F.mcStat_BUSY, 0, 1)]) with mc := { State.reset.mc with cmd := some (1, 1), flash := [(0x05000000, 3), (0x01000000, 3)] } }, by decide +kernel⟩,
    ⟨1, [(5, 7)], { (withRegs [(F.bootStat_STEP, 0, 11), (F.mcStat_BUSY, 0, 1)]) with mc := { State.reset.mc with cmd := some (1, 1) } }, by decide +kernel⟩,
    ⟨4 * 2 ^ 32 + 256, { (withRegs [(F.bootStat_STEP, 0, 11), (F.mcStat_BUSY, 0, 1), (F.mcStat_OPEN, 0, 1)]) with mc := { State.reset.mc with cmd := some (2, 4 * 2 ^ 32 + 256) } }, by decide +kernel⟩,
    ⟨1, { (withRegs [(F.bootStat_STEP, 0, 11), (F.mcStat_BUSY, 0, 1), (F.mcStat_OPEN, 0, 1)]) with mc := { State.reset.mc with cmd := some (2, 1) } }, by decide +kernel⟩,
    ⟨0, { (withRegs [(F.bootStat_STEP, 0, 11), (F.mcStat_BUSY, 0, 1), (F.mcStat_OPEN, 0, 1)]) with mc := { State.reset.mc with cmd := some (3, 0) } }, by decide +kernel⟩,
    ⟨0, { (withRegs [(F.bootStat_STEP, 0, 11), (F.mcStat_BUSY, 0, 1), (F.mcStat_VERIFIED, 0, 1)]) with mc := { State.reset.mc with cmd := some (4, 0) } }, by decide +kernel⟩,
    ⟨0, { (withRegs [(F.bootStat_STEP, 0, 11), (F.mcStat_BUSY, 0, 1), (F.mcStat_VERIFIED, 0, 1)]) with mc := { State.reset.mc with cmd := some (4, 0) } }, by decide +kernel⟩,
    ⟨0, hdr, confState 0 5, by decide +kernel⟩,
    ⟨0, hdr, confState 1 5, by decide +kernel⟩,
    ⟨0, { (withRegs [(F.bootStat_STEP, 0, 11), (F.mcStat_BUSY, 0, 1), (F.mcStat_OPEN, 0, 1)]) with mc := { State.reset.mc with cmd := some (6, 0) } }, by decide +kernel⟩,
    ⟨0, { (withRegs [(F.bootStat_STEP, 0, 11), (F.mcStat_BUSY, 0, 1)]) with mc := { State.reset.mc with cmd := some (2, 0) } }, by decide +kernel⟩,
    ⟨5, { (withRegs [(F.bootStat_STEP, 0, 11), (F.mcStat_BUSY, 0, 1)]) with mc := { State.reset.mc with cmd := some (7, 5) } }, by decide +kernel⟩⟩

/-- States and operands that meet the hypotheses of BootLoadsAndRuns. -/
theorem witness_BootLoadsAndRuns :
    (∃ (b : BootIn) (s : State), (s.fatal = true ∨ porOver s = false)) ∧
    (∃ (b : BootIn) (s : State), s.fatal = false ∧ porOver s = true ∧ b.rom = false) ∧
    (∃ (b : BootIn) (s : State), s.fatal = false ∧ porOver s = true ∧ b.rom = true ∧ flashOk b = false ∧ b.vbat = true ∧ bits (vbatWord s 0).toNat 49 1 = 0) ∧
    (∃ (b : BootIn) (s : State), s.fatal = false ∧ porOver s = true) ∧
    (∃  (s : State), s.fatal = false ∧ s.get F.bootStat_STEP 0 = 10 ∧ s.mc.failed = false ∧ (s.mc.image.any fun h => h.bootTmo ≠ 0 && s.mc.stepAt + h.bootTmo * 250000 ≤ s.ticks) = true) ∧
    (∃ (a : Nat) (s : State), s.fatal = false ∧ s.mc.cmd = some (8, a) ∧ s.get F.bootStat_STEP 0 = 10 ∧ ((s.mc.image.map (·.sections)).getD [])[bits a 0 6]? = none) ∧
    (∃ (a : Nat) (h : Header) (x : Section) (s : State), s.fatal = false ∧ s.mc.cmd = some (8, a) ∧ s.get F.bootStat_STEP 0 = 10 ∧ s.mc.image = some h ∧ h.sections[bits a 0 6]? = some x ∧ x.type = sCert ∧ x.len = 8 ∧ inCtlMem (destLocal x.dest) = true ∧ destLocal x.dest % 8 = 0 ∧ digestOk s (s.get F.bootStat_SLOT 0) x = true) ∧
    (∃ (a : Nat) (s : State), s.fatal = false ∧ s.mc.cmd = some (9, a) ∧ s.get F.bootStat_STEP 0 = 10) ∧
    (∃ (a : Nat) (s : State), s.fatal = false ∧ s.mc.cmd = some (10, a) ∧ (s.cState (bits a 0 7) = 4 ∨ s.cState (bits a 0 7) = 0) ∧ s.cOwner (bits a 0 7) = 15) ∧
    (∃ (a : Nat) (s : State), s.fatal = false ∧ s.mc.cmd = some (11, a) ∧ s.flag F.injCtl_ARM 0 = false ∧ s.cState (bits a 0 7) = 4 ∧ s.cOwner (bits a 0 7) = 15) ∧
    (∃ (a : Nat) (r : Rewrite) (s : State), s.fatal = false ∧ s.mc.cmd = some (11, a) ∧ (r.good = false ∨ r.ram.val = 2) ∧ s.cState (bits a 0 7) = 4 ∧ s.cOwner (bits a 0 7) = 15) ∧
    (∃ (a : Nat) (s : State), s.fatal = false ∧ s.mc.cmd = some (11, a) ∧ s.cState (bits a 0 7) ≠ 4) :=
  ⟨⟨⟨true, true, true, (some ⟨6, true, true, 160, true⟩), true, 0, [], 0, 0, true⟩, { State.reset with flt := { State.reset.flt with decision := some (0, 0) } }, by decide +kernel⟩,
    ⟨⟨true, true, false, (some ⟨6, true, true, 160, true⟩), true, 0, [], 0, 0, true⟩, { State.reset with t := 5, ticks := 9 }, by decide +kernel⟩,
    ⟨⟨true, true, true, none, true, 0, [], 0, 0, true⟩, { State.reset with era := 5, ticks := 9 }, by decide +kernel⟩,
    ⟨⟨true, true, true, (some ⟨6, true, true, 160, true⟩), true, 0, [], 0, 0, true⟩, State.reset, by decide +kernel⟩,
    ⟨{ (withRegs [(F.bootStat_STEP, 0, 10)]) with ticks := 250000, mc := { State.reset.mc with image := some { hdr with bootTmo := 1 } } }, by decide +kernel⟩,
    ⟨0, { (withRegs [(F.bootStat_STEP, 0, 10), (F.mcStat_BUSY, 0, 1)]) with mc := { State.reset.mc with cmd := some (8, 0) } }, by decide +kernel⟩,
    ⟨0, { hdr with sections := [certSec] }, certSec, { (withRegs [(F.bootStat_STEP, 0, 10)]) with mc := { State.reset.mc with cmd := some (8, 0), image := some { hdr with sections := [certSec] } } }, by decide +kernel⟩,
    ⟨0, { (withRegs [(F.bootStat_STEP, 0, 10), (F.mcStat_BUSY, 0, 1)]) with mc := { State.reset.mc with cmd := some (9, 0) } }, by decide +kernel⟩,
    ⟨5, { (withRegs [(F.bootStat_STEP, 0, 11), (F.mcStat_BUSY, 0, 1)]) with mc := { State.reset.mc with cmd := some (10, 5) } }, by decide +kernel⟩,
    ⟨5, { (withRegs [(F.bootStat_STEP, 0, 11), (F.mcStat_BUSY, 0, 1), (F.clStatus_STATE, 5, 4), (F.clStatus_OWNER, 5, 15)]) with mc := { State.reset.mc with cmd := some (11, 5) } }, by decide +kernel⟩,
    ⟨5, ⟨true, 2⟩, { (withRegs [(F.bootStat_STEP, 0, 11), (F.mcStat_BUSY, 0, 1), (F.clStatus_STATE, 5, 4), (F.clStatus_OWNER, 5, 15)]) with mc := { State.reset.mc with cmd := some (11, 5) } }, by decide +kernel⟩,
    ⟨5, { (withRegs [(F.bootStat_STEP, 0, 11), (F.mcStat_BUSY, 0, 1)]) with mc := { State.reset.mc with cmd := some (11, 5) } }, by decide +kernel⟩⟩

/-- States and operands that meet the hypotheses of ManagementReadsAndReports. -/
theorem witness_ManagementReadsAndReports :
    (∃  (s : State), s.fatal = false) ∧
    (∃ (who : From) (n : Fin 40) (s : State), s.fatal = false) ∧
    (∃ (l : List (Fin 8 × PmbAns)) (r : Fin 8) (x : PmbAns) (s : State), s.fatal = false ∧ 5 ≤ s.get F.bootStat_STEP 0 ∧ (l.find? fun y => y.1.val = r.val) = some (r, x) ∧ s.flag F.pmbDev_EN r = true) ∧
    (∃ (l : List (Fin 8 × PmbAns)) (s : State), s.fatal = false) ∧
    (∃ (addr : BitVec 7) (ptr : BitVec 16) (s : State), 2 ≤ s.get F.bootStat_STEP 0 ∧ addr.toNat = s.get F.smbCfg_ADDR 0) ∧
    (∃ (addr : BitVec 7) (code : BitVec 8) (ptr : BitVec 16) (s : State), (addr.toNat ≠ s.get F.smbCfg_ADDR 0 ∨ code ≠ 1)) ∧
    (∃ (addr : BitVec 7) (s : State), s.fatal = false ∧ 2 ≤ s.get F.bootStat_STEP 0 ∧ addr.toNat = s.get F.smbCfg_ADDR 0) ∧
    (∃  (s : State), 2 ≤ s.get F.bootStat_STEP 0) ∧
    (∃  (s : State), s.fatal = false ∧ 15 ≤ s.mc.unwritten.length ∧ s.mc.unwritten.length ≤ s.mc.log.length ∧ s.get F.bootStat_ERROR 0 ≠ eNoFlash ∧ s.mc.page < ringPages) ∧
    (∃  (s : State), s.fatal = false ∧ (15 ≤ s.mc.unwritten.length || s.mc.unwritten.any fun x => x + 250000000 ≤ s.ticks) = false) ∧
    (∃  (s : State), s.fatal = false ∧ s.mc.minuteMax = []) ∧
    (∃ (d : Fin 9) (v : Nat) (s : State), s.fatal = false ∧ s.mc.minuteMax = [(d.val, v)]) :=
  ⟨⟨{ (withRegs [(F.ts_VALID, 3, 1), (F.ts_MAX, 3, 100)]) with pwr := { State.reset.pwr with temp := [(3, 0x320)] } }, by decide +kernel⟩,
    ⟨(11, true), 3, { (withRegs [(F.ts_VALID, 3, 1), (F.ts_MAX, 3, 100)]) with pwr := { State.reset.pwr with temp := [(3, 0x320)] } }, by decide +kernel⟩,
    ⟨[(2, ⟨1, 2, 3, 0⟩)], 2, ⟨1, 2, 3, 0⟩, withRegs [(F.bootStat_STEP, 0, 11), (F.pmbDev_EN, 2, 1)], by decide +kernel⟩,
    ⟨[], withRegs [(F.bootStat_STEP, 0, 11), (F.pmbDev_EN, 2, 1)], by decide +kernel⟩,
    ⟨82, 256, withRegs [(F.bootStat_STEP, 0, 11)], by decide +kernel⟩,
    ⟨83, 1, 256, withRegs [(F.bootStat_STEP, 0, 11)], by decide +kernel⟩,
    ⟨82, withRegs [(F.bootStat_STEP, 0, 11)], by decide +kernel⟩,
    ⟨withRegs [(F.bootStat_STEP, 0, 11), (F.fkStat_STICKY, 5, 1)], by decide +kernel⟩,
    ⟨{ State.reset with mc := { State.reset.mc with log := List.replicate 15 (1, 2), unwritten := List.replicate 15 0 } }, by decide +kernel⟩,
    ⟨State.reset, by decide +kernel⟩,
    ⟨State.reset, by decide +kernel⟩,
    ⟨2, 0x500, { State.reset with mc := { State.reset.mc with minuteMax := [(2, 0x500)] } }, by decide +kernel⟩⟩

/-- States and operands that meet the hypotheses of PowerAndHeatAreManaged. -/
theorem witness_PowerAndHeatAreManaged :
    (∃ (m : Fin 8) (x : Nat) (s : State), mfind s.pwr.outside m = some x ∧ x + 500 ≤ s.ticks ∧ collectorOn s = true ∧ s.flt.live.contains (pairKey 34 (loc 10 (64 + m.val))) = false ∧ s.flt.wire.contains (pairKey 34 (loc 10 (64 + m.val))) = false ∧ mfind s.flt.pairHeld (pairKey 34 (loc 10 (64 + m.val))) = none) ∧
    (∃ (m : Fin 8) (s : State), mfind s.pwr.outside m = none) ∧
    (∃ (n : Fin 40) (v : BitVec 16) (s : State), s.fatal = false ∧ n.val < 32 ∧ 1600 ≤ v.toInt ∧ v.toInt ≤ 1680 ∧ s.flag F.thermStat_THROT (n.val / 4) = false) ∧
    (∃ (n : Fin 40) (v : BitVec 16) (s : State), 1840 ≤ v.toInt ∧ s.flt.live.contains (pairKey 33 (loc 10 n.val)) = false ∧ s.flt.wire.contains (pairKey 33 (loc 10 n.val)) = false ∧ mfind s.flt.pairHeld (pairKey 33 (loc 10 n.val)) = none) ∧
    (∃ (n : Fin 40) (v : BitVec 16) (s : State), s.fatal = false ∧ n.val < 32 ∧ 1760 ≤ v.toInt ∧ v.toInt < 1840 ∧ s.get F.fclkCtl_CURRENT (n.val / 4) = 0 ∧ s.flag F.thermStat_SHED (n.val / 4) = false ∧ s.get F.thermStat_SHED_NEXT (n.val / 4) = 3 ∧ shedSet s (n.val / 4) 3 ≠ []) ∧
    (∃ (n : Fin 40) (s : State), mget 0 s.pwr.fails n = 0) ∧
    (∃ (f : Fin 8) (x : Nat) (s : State), s.fatal = false ∧ mfind s.pwr.cool f = some x ∧ s.flag F.thermStat_THROT f = true ∧ x + 250000 ≤ s.ticks) ∧
    (∃ (f : Fin 8) (x : Nat) (s : State), s.fatal = false ∧ mfind s.pwr.cool f = some x ∧ s.ticks < x + 250000) ∧
    (∃ (f : Fin 8) (x : Nat) (s : State), s.fatal = false ∧ mfind s.pwr.shedAt f = some x ∧ s.flag F.thermStat_SHED f = true ∧ x + 2500000 ≤ s.ticks ∧ shedCond s f = false) ∧
    (∃ (f : Fin 8) (x : Nat) (s : State), s.fatal = false ∧ mfind s.pwr.shedAt f = some x ∧ s.flag F.thermStat_SHED f = true ∧ x + 2500000 ≤ s.ticks ∧ shedCond s f = true ∧ s.get F.thermStat_SHED_NEXT f = 3 ∧ shedSet s f 3 ≠ []) ∧
    (∃ (w : BitVec 12) (s : State), s.fatal = false ∧ w.toNat ≤ 240 ∧ s.flag F.pwrStat_CAPPED 0 = false ∧ s.pwr.peaks = [] ∧ s.get F.pwrCtl_PK_LIM 0 ≠ 0) ∧
    (∃ (w : BitVec 12) (s : State), s.fatal = false ∧ 240 < w.toNat ∧ s.flag F.pwrStat_CAPPED 0 = false ∧ s.get F.pwrCtl_PK_LIM 0 ≤ (s.pwr.peaks.filter fun x => s.pwr.estimates + 1 < x + 1000000).length + 1) ∧
    (∃ (w : BitVec 12) (s : State), s.fatal = false ∧ w.toNat ≤ 240 ∧ s.flag F.pwrStat_CAPPED 0 = true ∧ 2 * (s.pwr.peaks.filter fun x => s.pwr.estimates + 1 < x + 1000000).length < s.get F.pwrCtl_PK_LIM 0) ∧
    (∃ (f : Fin 8) (d : Nat) (s : State), s.fatal = false ∧ s.flag F.fclkCtl_STOPPED f = false ∧ mfind s.pwr.ramp f = some d ∧ d ≤ s.ticks ∧ s.get F.fclkCtl_CURRENT f < rampGoal s f) ∧
    (∃ (f : Fin 8) (d : Nat) (s : State), s.fatal = false ∧ s.flag F.fclkCtl_STOPPED f = false ∧ mfind s.pwr.ramp f = some d ∧ d ≤ s.ticks ∧ rampGoal s f < s.get F.fclkCtl_CURRENT f) ∧
    (∃ (f : Fin 8) (d : Nat) (s : State), mfind s.pwr.ramp f = some d ∧ s.ticks < d) ∧
    (∃ (f : Fin 8) (s : State), (s.flag F.fclkCtl_STOPPED f = true ∨ s.get F.fclkCtl_CURRENT f = rampGoal s f)) ∧
    (∃ (who : From) (v : BitVec 5) (s : State), s.fatal = false ∧ (fromHost who.1 = true ∨ fromCore who.1 = true ∨ fromMc who.1 = true) ∧ s.flag F.pwrCtl_LOCK 0 = false ∧ v.toNat ≠ 31 ∧ 10 ≤ v.toNat) :=
  ⟨⟨4, 3, { (withRegs [(F.bootStat_STEP, 0, 11)]) with ticks := 600, pwr := { State.reset.pwr with outside := [(4, 3)] } }, by decide +kernel⟩,
    ⟨4, State.reset, by decide +kernel⟩,
    ⟨5, 1650, State.reset, by decide +kernel⟩,
    ⟨33, 1840, State.reset, by decide +kernel⟩,
    ⟨8, 1770, { (withRegs [(F.thermStat_SHED_NEXT, 2, 3), (F.partStat_CRIT, 1, 3), (F.partStat_STATE, 1, 3), (F.clStatus_OWNER, 33, 1)]) with ticks := 2500000 }, by decide +kernel⟩,
    ⟨5, State.reset, by decide +kernel⟩,
    ⟨2, 0, { (withRegs [(F.thermStat_THROT, 2, 1)]) with ticks := 250000, pwr := { State.reset.pwr with cool := [(2, 0)] } }, by decide +kernel⟩,
    ⟨2, 0, { State.reset with ticks := 249999, pwr := { State.reset.pwr with cool := [(2, 0)] } }, by decide +kernel⟩,
    ⟨2, 0, { (withRegs [(F.thermStat_SHED, 2, 1)]) with ticks := 2500000, pwr := { State.reset.pwr with shedAt := [(2, 0)] } }, by decide +kernel⟩,
    ⟨2, 0, { (withRegs [(F.thermStat_SHED, 2, 1), (F.thermStat_SHED_NEXT, 2, 3), (F.partStat_CRIT, 1, 3), (F.partStat_STATE, 1, 3), (F.clStatus_OWNER, 33, 1)]) with ticks := 2500000, pwr := { State.reset.pwr with shedAt := [(2, 0)], temp := [(8, 1760)] } }, by decide +kernel⟩,
    ⟨200, State.reset, by decide +kernel⟩,
    ⟨300, withRegs [(F.pwrCtl_PK_LIM, 0, 1)], by decide +kernel⟩,
    ⟨200, withRegs [(F.pwrStat_CAPPED, 0, 1), (F.pwrCtl_PK_LIM, 0, 1)], by decide +kernel⟩,
    ⟨2, 7, { (withRegs [(F.fclkCtl_STOPPED, 2, 0), (F.fclkCtl_TARGET, 2, 3), (F.pwrStat_VF_CAP, 0, 4)]) with ticks := 8, pwr := { State.reset.pwr with ramp := [(2, 7)] } }, by decide +kernel⟩,
    ⟨2, 7, { (withRegs [(F.fclkCtl_STOPPED, 2, 0), (F.fclkCtl_CURRENT, 2, 3), (F.fclkCtl_THROTTLED, 2, 1)]) with ticks := 7, pwr := { State.reset.pwr with ramp := [(2, 7)] } }, by decide +kernel⟩,
    ⟨2, 7, { (withRegs [(F.fclkCtl_STOPPED, 2, 0), (F.fclkCtl_CURRENT, 2, 3), (F.fclkCtl_THROTTLED, 2, 1)]) with ticks := 6, pwr := { State.reset.pwr with ramp := [(2, 7)] } }, by decide +kernel⟩,
    ⟨2, State.reset, by decide +kernel⟩,
    ⟨(11, true), 20, State.reset, by decide +kernel⟩⟩

/-- States and operands that meet the hypotheses of ApertureAdmitsAndReleases. -/
theorem witness_ApertureAdmitsAndReleases :
    (∃ (x : ApRun) (s : State), s.fatal = false ∧ s.ap.cmd = some x ∧ x.op = 1 ∧ x.part < 8 ∧ x.cluster < 128 ∧ (s.pState x.part = pFree ∨ s.pState x.part = pLoading) ∧ s.cState x.cluster = 0 ∧ mfind s.cl.emptying x.cluster = none) ∧
    (∃ (x : ApRun) (s : State), s.fatal = false ∧ s.ap.cmd = some x ∧ x.op = 1 ∧ x.part < 8 ∧ x.cluster < 128 ∧ mfind s.cl.emptying x.cluster ≠ none ∧ (s.pState x.part = pFree ∨ s.pState x.part = pLoading) ∧ s.cState x.cluster = 0) ∧
    (∃ (x : ApRun) (s : State), s.fatal = false ∧ s.ap.cmd = some x ∧ x.op = 1 ∧ x.part < 8 ∧ x.cluster < 128 ∧ (¬(s.pState x.part = pFree ∨ s.pState x.part = pLoading) ∨ s.cState x.cluster ≠ 0)) ∧
    (∃ (ok : Bool) (x : ApRun) (k : Cert) (ws : List Nat) (s : State), s.fatal = false ∧ s.ap.cmd = some x ∧ x.op = 2 ∧ x.part < 8 ∧ x.cluster < 128 ∧ s.flag F.injCtl_ARM 0 = false ∧ s.pState x.part = pLoading ∧ verify s x.part x false ok = (vPass, some (k, ws, none))) ∧
    (∃ (ok : Bool) (x : ApRun) (v : Verdict) (s : State), s.fatal = false ∧ s.ap.cmd = some x ∧ x.op = 2 ∧ x.part < 8 ∧ x.cluster < 128 ∧ s.flag F.injCtl_ARM 0 = false ∧ s.pState x.part = pLoading ∧ verify s x.part x false ok = (v, none)) ∧
    (∃ (r : Rewrite) (x : ApRun) (w : Nat) (s : State), s.fatal = false ∧ s.ap.cmd = some x ∧ x.op = 2 ∧ x.part < 8 ∧ x.cluster < 128 ∧ s.pState x.part = pLoading ∧ x.bad = some w) ∧
    (∃ (r : Rewrite) (x : ApRun) (s : State), s.fatal = false ∧ s.ap.cmd = some x ∧ x.op = 2 ∧ x.part < 8 ∧ x.cluster < 128 ∧ s.pState x.part = pLoading ∧ x.bad = none ∧ x.cert.head? ≠ some 0x014C4D4331) ∧
    (∃ (r : Rewrite) (x : ApRun) (s : State), s.fatal = false ∧ s.ap.cmd = some x ∧ x.op = 2 ∧ x.part < 8 ∧ x.cluster < 128 ∧ s.pState x.part ≠ pLoading) ∧
    (∃ (p : Fin 8) (go : W) (s : State), s.fatal = false ∧ s.pState p = pLoading ∧ mfind s.ap.goAt p = some go ∧ 0 ≤ sdiff s.t go) ∧
    (∃ (p : Fin 8) (go : W) (s : State), s.fatal = false ∧ mfind s.ap.goAt p = some go ∧ (sdiff s.t go < 0 ∨ s.pState p ≠ pLoading)) ∧
    (∃ (x : ApRun) (s : State), s.fatal = false ∧ s.ap.cmd = some x ∧ x.op = 3 ∧ x.part < 8 ∧ x.cluster < 128 ∧ s.pState x.part ≠ pFree ∧ s.pState x.part ≠ pReleasing) ∧
    (∃ (x : ApRun) (s : State), s.fatal = false ∧ s.ap.cmd = some x ∧ x.op = 3 ∧ x.part < 8 ∧ x.cluster < 128 ∧ s.pState x.part = pFree) ∧
    (∃ (x : ApRun) (s : State), s.fatal = false ∧ s.ap.cmd = some x ∧ x.op = 3 ∧ x.part < 8 ∧ x.cluster < 128 ∧ s.pState x.part = pReleasing) ∧
    (∃ (p : Fin 8) (s : State), s.fatal = false ∧ s.pState p = pReleasing ∧ s.cl.emptying.any (fun e => e.2 = p.val) = false ∧ s.clustersOf p = []) ∧
    (∃ (p : Fin 8) (s : State), (s.pState p ≠ pReleasing ∨ s.cl.emptying.any (fun e => e.2 = p.val) = true ∨ s.clustersOf p ≠ [])) ∧
    (∃ (c : Fin 128) (p : Nat) (s : State), s.fatal = false ∧ mfind s.cl.emptying c = some p) ∧
    (∃ (c : Fin 128) (s : State), mfind s.cl.emptying c = none) :=
  ⟨⟨⟨1, 1, 5, 0, 0, 30, [], none⟩, apState 1 0 0 [], by decide +kernel⟩,
    ⟨⟨1, 1, 5, 0, 0, 30, [], none⟩, { (apState 1 0 0 []) with cl := { State.reset.cl with emptying := [(5, 2)] } }, by decide +kernel⟩,
    ⟨⟨1, 1, 5, 0, 0, 30, [], none⟩, apState 1 0 0 [(F.clStatus_STATE, 5, 4)], by decide +kernel⟩,
    ⟨true, ⟨1, 2, 5, 100, 0, 30, (certW 1 1 []), none⟩, certOf (certW 1 1 []), (certW 1 1 []), admitState (certW 1 1 []) [(F.partStat_STATE, 1, 1)], by decide +kernel⟩,
    ⟨true, ⟨1, 2, 5, 100, 0, 30, [], none⟩, vFail vFormat 0, apState 2 100 0 [(F.partStat_STATE, 1, 1)], by decide +kernel⟩,
    ⟨⟨true, 0⟩, ⟨1, 2, 5, 100, 0, 30, [], some 1⟩, 1, { (apState 2 100 0 [(F.partStat_STATE, 1, 1)]) with ap := { State.reset.ap with cmd := some ⟨1, 2, 5, 100, 0, 30, [], some 1⟩ } }, by decide +kernel⟩,
    ⟨⟨true, 0⟩, ⟨1, 2, 5, 100, 0, 30, [], none⟩, apState 2 100 0 [(F.partStat_STATE, 1, 1)], by decide +kernel⟩,
    ⟨⟨true, 0⟩, ⟨1, 2, 5, 0, 0, 30, [], none⟩, apState 2 0 0 [], by decide +kernel⟩,
    ⟨1, 768, { (withRegs [(F.partStat_STATE, 1, 1), (F.clStatus_STATE, 5, 1), (F.clStatus_OWNER, 5, 1)]) with t := 1000, ap := { State.reset.ap with goAt := [(1, 768)] } }, by decide +kernel⟩,
    ⟨1, 1024, { State.reset with t := 1000, ap := { State.reset.ap with goAt := [(1, 1024)] } }, by decide +kernel⟩,
    ⟨⟨1, 3, 5, 0, 0, 30, [], none⟩, apState 3 0 0 [(F.partStat_STATE, 1, 2), (F.clStatus_STATE, 5, 2), (F.clStatus_OWNER, 5, 1)], by decide +kernel⟩,
    ⟨⟨1, 3, 5, 0, 0, 30, [], none⟩, apState 3 0 0 [], by decide +kernel⟩,
    ⟨⟨1, 3, 5, 0, 0, 30, [], none⟩, apState 3 0 0 [(F.partStat_STATE, 1, 7)], by decide +kernel⟩,
    ⟨1, admState 1 [(F.partStat_STATE, 1, 7)], by decide +kernel⟩,
    ⟨1, State.reset, by decide +kernel⟩,
    ⟨5, 1, { State.reset with cl := { State.reset.cl with emptying := [(5, 1)] } }, by decide +kernel⟩,
    ⟨5, State.reset, by decide +kernel⟩⟩

theorem mfind_absent {α : Type} (m : List (Nat × α)) (a : Nat) (h : ∀ e ∈ m, e.1 ≠ a) : mfind m a = none := by
  induction m with
  | nil => rfl
  | cons e m ih =>
    obtain ⟨k, v⟩ := e
    have : k ≠ a := h (k, v) (by simp)
    simp only [mfind, this, if_false]
    exact ih fun e he => h e (by simp [he])

/-- A byte below the hub window reads as zero when memory lists hub bytes only. -/
theorem readByte_low (s : State) (a : Nat) (h : (s.mem.all fun e => 8 * 2 ^ 40 ≤ e.1) = true) (ha : a < 8 * 2 ^ 40) : s.readByte a = 0 := by
  unfold State.readByte mget
  rw [mfind_absent s.mem a]
  · rfl
  · intro e he
    have := List.all_eq_true.mp h e he
    simp only [decide_eq_true_eq] at this
    omega

theorem readN_low (s : State) (h : (s.mem.all fun e => 8 * 2 ^ 40 ≤ e.1) = true) : ∀ n a, a + n ≤ 8 * 2 ^ 40 → s.readN a n = 0
  | 0, _, _ => rfl
  | n + 1, a, ha => by
    rw [State.readN, readByte_low s a h (by omega), readN_low s h n (a + 1) (by omega)]; rfl

/-- The certificate of a move of cluster 5 to cluster 9 for partition 1, whose store is all zeros. -/
def migCert : List Nat :=
  certW 1 1 ([0x10D + (5 + 9 * 128) * 2 ^ 26, 2 + 52 * 256 + 9 * 2 ^ 26, 0, 0, 1969621676 + crcWords (List.replicate 31 0) * 2 ^ 32]
    ++ (List.replicate 16 [0, 0, 2 ^ 25]).flatten)

/-- MIGRATE for partition 1 with that certificate. -/
def migRun : ApRun := ⟨1, 5, 5, 100, 0, 30, migCert, none⟩

/-- A package about to move cluster 5 of partition 1 to cluster 9. -/
def migState : State :=
  { (withRegs [(F.partStat_STATE, 1, 2), (F.clStatus_STATE, 5, 2), (F.clStatus_OWNER, 5, 1)]) with
    t := 1000, ticks := 40, ap := { State.reset.ap with cmd := some migRun } }

theorem migState_mem : (migState.mem.all fun e => 8 * 2 ^ 40 ≤ e.1) = true := by decide +kernel

theorem migState_icrc (c : Nat) (h : c < 128) : icrc migState c = 1969621676 :=
  icrc_zeros _ _ fun i hi => readByte_low _ _ migState_mem (by unfold instrAddr clAddr; omega)

theorem migState_instr (c i : Nat) (h : c < 128) (hi : i < 32768) : migState.instr c i = 0 :=
  readN_low _ migState_mem _ _ (by unfold instrAddr clAddr; omega)
theorem mig_parse : parseCert migCert = .ok (certOf migCert) := by decide +kernel


/-- The verification of the move. -/
def migVf : Vf := ⟨migState, 1, certOf migCert, some ⟨5, 9⟩, none, some ⟨5, 9⟩, none⟩

theorem mig_sites (p : OpClass → Bool) : migVf.sites p = [] := by
  unfold Vf.sites
  have hc : migVf.k.clusters = [9] := by decide +kernel
  rw [hc]
  simp only [List.flatMap_cons, List.flatMap_nil, List.append_nil, List.map_eq_nil_iff, List.filter_eq_nil_iff, List.mem_range]
  intro i hi
  rw [show migVf.s.instr (srcCluster migVf.mv 9) i = 0 from migState_instr 5 i (by decide) hi]
  simp

theorem mig_binding : bindingBad migState (certOf migCert) (some ⟨5, 9⟩) = none := by
  have h : icrc migState = fun c => if c = 5 then 1969621676 else icrc migState c := by
    funext c; split
    · subst c; exact migState_icrc 5 (by decide)
    · rfl
  unfold bindingBad
  rw [h]
  decide +kernel

theorem mig_code : migVf.codeBad = none := by
  unfold Vf.codeBad
  simp only [mig_sites]
  decide +kernel

/-- A MIGRATE certificate that passes every check passes. -/
theorem verify_move (s : State) (p : Nat) (x : ApRun) (k : Cert) (mv : Move) (hx : x.bad = none)
    (hk : parseCert x.cert = .ok k) (hm : ((k.recs.find? fun r => r.typ = tMigrate).map fun r => (⟨r.key % 128, r.key / 128⟩ : Move)) = some mv)
    (hp : k.part = p) (hl : (k.recs.filter fun r => r.typ = tMigrate).length = 1) (ho : ownershipMigrate s p k mv = none)
    (hb : bindingBad s k (some mv) = none) (hc : (⟨s, p, k, some mv, admitted s p, some mv, none⟩ : Vf).codeBad = none)
    (hn : (⟨s, p, k, some mv, admitted s p, some mv, none⟩ : Vf).contextBad = none)
    (hd : (⟨s, p, k, some mv, admitted s p, some mv, none⟩ : Vf).capacity = none)
    (hr : (⟨s, p, k, some mv, admitted s p, some mv, none⟩ : Vf).boundBad = none) : verify s p x true true = (vPass, some (k, x.cert, some mv)) := by
  simp [verify, hx, hk, hm, hp, hl, ho, hb, hc, hn, hd, hr]

theorem mig_verify : verify migState 1 migRun true true = (vPass, some (certOf migCert, migCert, some ⟨5, 9⟩)) := by
  have ha : admitted migState 1 = none := by decide +kernel
  exact verify_move migState 1 migRun (certOf migCert) ⟨5, 9⟩ rfl mig_parse (by decide +kernel) (by decide +kernel) (by decide +kernel)
    (by decide +kernel) mig_binding (by rw [ha]; exact mig_code) (by rw [ha]; decide +kernel) (by rw [ha]; decide +kernel) (by rw [ha]; decide +kernel)

/-- A state that meets the hypotheses of the completion of MIGRATE. -/
theorem witness_Migrate : ∃ (x : ApRun) (k : Cert) (ws : List Nat) (mv : Move) (s : State), s.fatal = false ∧ s.ap.cmd = some x ∧ x.op = 5 ∧
    x.part < 8 ∧ changeable s x.part = true ∧ verify s x.part x true true = (vPass, some (k, ws, some mv)) ∧ s.cState mv.frm = 2 ∧
    s.cOwner mv.frm = x.part ∧ s.cState mv.dst = 0 ∧ mfind s.cl.emptying mv.dst = none ∧
    (s.ap.redirects.filter fun r => r.part = x.part).length < 8 :=
  ⟨migRun, certOf migCert, migCert, ⟨5, 9⟩, migState, by decide +kernel, by decide +kernel, by decide +kernel, by decide +kernel,
    by decide +kernel, mig_verify, by decide +kernel, by decide +kernel, by decide +kernel, by decide +kernel, by decide +kernel⟩

/-- States and operands that meet the hypotheses of ModesChangeAndPlacementsMove. -/
theorem witness_ModesChangeAndPlacementsMove :
    (∃ (x : ApRun) (k : Cert) (s : State), s.fatal = false ∧ s.ap.cmd = some x ∧ x.op = 4 ∧ x.part < 8 ∧ x.cluster < 128 ∧ admitted s x.part = some k ∧ changeable s x.part = true ∧ x.mode ≠ s.get F.partStat_MODE x.part ∧ x.mode < k.modes ∧ 4096 ≤ sdiff (w48 (s.get F.modeTc_T_C x.part)) s.t ∧ sdiff (w48 (s.get F.modeTc_T_C x.part)) s.t ≤ 2 ^ 30 ∧ ({ ledgerVf s x.part k with modes := some [s.get F.partStat_MODE x.part, x.mode] } : Vf).capacity.isNone = true ∧ k.packages = [s.pkg]) ∧
    (∃ (x : ApRun) (s : State), s.fatal = false ∧ s.ap.cmd = some x ∧ x.op = 4 ∧ x.part < 8 ∧ x.cluster < 128 ∧ (admitted s x.part = none ∨ changeable s x.part = false)) ∧
    (∃ (x : ApRun) (k : Cert) (v : Verdict) (s : State), s.fatal = false ∧ s.ap.cmd = some x ∧ x.op = 4 ∧ x.part < 8 ∧ x.cluster < 128 ∧ admitted s x.part = some k ∧ changeable s x.part = true ∧ x.mode ≠ s.get F.partStat_MODE x.part ∧ x.mode < k.modes ∧ 4096 ≤ sdiff (w48 (s.get F.modeTc_T_C x.part)) s.t ∧ sdiff (w48 (s.get F.modeTc_T_C x.part)) s.t ≤ 2 ^ 30 ∧ ({ ledgerVf s x.part k with modes := some [s.get F.partStat_MODE x.part, x.mode] } : Vf).capacity = some v) ∧
    (∃ (x : ApRun) (k : Cert) (s : State), s.fatal = false ∧ s.ap.cmd = some x ∧ x.op = 4 ∧ x.part < 8 ∧ x.cluster < 128 ∧ admitted s x.part = some k ∧ changeable s x.part = true ∧ (sdiff (w48 (s.get F.modeTc_T_C x.part)) s.t < 4096 ∨ 2 ^ 30 < sdiff (w48 (s.get F.modeTc_T_C x.part)) s.t ∨ x.mode = s.get F.partStat_MODE x.part ∨ k.modes ≤ x.mode)) ∧
    (∃ (p : Fin 8) (s : State), s.fatal = false ∧ s.flag F.modeStat_DRAINING p = true ∧ s.get F.modeStat_OLD_LIVE p = 0 ∧ mfind s.ap.oldDiscard p = none) ∧
    (∃ (p : Fin 8) (s : State), (s.flag F.modeStat_DRAINING p = false ∨ s.get F.modeStat_OLD_LIVE p ≠ 0)) ∧
    (∃ (p : Fin 8) (e : Nat) (s : State), s.fatal = false ∧ mfind s.ap.drainEnd p = some e ∧ e ≤ s.ticks ∧ s.flag F.modeStat_DRAINING p = true) ∧
    (∃ (p : Fin 8) (e : Nat) (s : State), mfind s.ap.drainEnd p = some e ∧ s.ticks < e) ∧
    (∃ (p : Fin 8) (e : Nat) (s : State), s.fatal = false ∧ mfind s.ap.oldDiscard p = some e ∧ e ≤ s.ticks) ∧
    (∃ (p : Fin 8) (e : Nat) (s : State), mfind s.ap.oldDiscard p = some e ∧ s.ticks < e) ∧
    (∃ (x : ApRun) (s : State), s.fatal = false ∧ s.ap.cmd = some x ∧ x.op = 5 ∧ x.part < 8 ∧ x.cluster < 128 ∧ changeable s x.part = false) ∧
    (∃ (p : Fin 8) (r : Rewrite) (g : Mig) (k : Cert) (s : State), s.fatal = false ∧ (s.ap.migs.find? fun g => g.part = p.val && g.ts.isNone && 16384 ≤ g.next && !apertureWaits s) = some g ∧ parseCert g.cert = .ok k ∧ (k.recs.filter fun r => r.typ = tCluster && r.key = g.dst && r.fld 2 26 1 = 1) ≠ [] ∧ r.good = false ∧ g.dst < 128) ∧
    (∃ (p : Fin 8) (r : Rewrite) (g : Mig) (k : Cert) (s : State), s.fatal = false ∧ (s.ap.migs.find? fun g => g.part = p.val && g.ts.isNone && 16384 ≤ g.next && !apertureWaits s) = some g ∧ parseCert g.cert = .ok k ∧ (k.recs.filter fun r => r.typ = tCluster && r.key = g.dst && r.fld 2 26 1 = 1) = [] ∧ k.packages = [s.pkg] ∧ g.frm < 128 ∧ g.dst < 128 ∧ g.frm ≠ g.dst) ∧
    (∃ (p : Fin 8) (r : Rewrite) (s : State), (s.ap.migs.find? fun g => g.part = p.val && g.ts.isNone && 16384 ≤ g.next && !apertureWaits s) = none) ∧
    (∃ (p : Fin 8) (g : Mig) (s : State), s.fatal = false ∧ (s.ap.migs.find? fun g => g.part = p.val && g.switched) = some g ∧ migDrain s g.frm = 0 ∧ s.cState g.frm = 3 ∧ s.cState g.dst ≠ 4 ∧ g.frm < 128) ∧
    (∃ (p : Fin 8) (g : Mig) (s : State), (s.ap.migs.find? fun g => g.part = p.val && g.switched) = some g ∧ (migDrain s g.frm ≠ 0 ∨ s.cState g.dst = 4)) :=
  ⟨⟨⟨1, 4, 5, 0, 1, 30, [], none⟩, certOf (certW 1 2 []), { (admState 2 [(F.partStat_STATE, 1, 2), (F.modeTc_T_C, 1, 6000)]) with ap := { State.reset.ap with certs := [(1, certW 1 2 [])], cmd := some ⟨1, 4, 5, 0, 1, 30, [], none⟩ } }, by decide +kernel⟩,
    ⟨⟨1, 4, 5, 0, 0, 30, [], none⟩, apState 4 0 0 [], by decide +kernel⟩,
    ⟨⟨1, 4, 5, 0, 1, 30, [], none⟩, certOf (certW 1 2 [0x203, 1]), ⟨vCapacity, 4, 5, 2⟩, { (admState 2 [(F.partStat_STATE, 1, 2), (F.modeTc_T_C, 1, 6000), (F.bankPwr_OFFLINE, 0, 1)]) with ap := { State.reset.ap with certs := [(1, certW 1 2 [0x203, 1])], cmd := some ⟨1, 4, 5, 0, 1, 30, [], none⟩ } }, by decide +kernel⟩,
    ⟨⟨1, 4, 5, 0, 1, 30, [], none⟩, certOf (certW 1 2 []), { (admState 2 [(F.partStat_STATE, 1, 2), (F.modeTc_T_C, 1, 5095)]) with ap := { State.reset.ap with certs := [(1, certW 1 2 [])], cmd := some ⟨1, 4, 5, 0, 1, 30, [], none⟩ } }, by decide +kernel⟩,
    ⟨1, withRegs [(F.modeStat_DRAINING, 1, 1)], by decide +kernel⟩,
    ⟨1, withRegs [(F.modeStat_DRAINING, 1, 1), (F.modeStat_OLD_LIVE, 1, 2)], by decide +kernel⟩,
    ⟨1, 40, { (withRegs [(F.modeStat_DRAINING, 1, 1), (F.dlCtl_WIN, 1, 8)]) with ticks := 40, ap := { State.reset.ap with drainEnd := [(1, 40)] } }, by decide +kernel⟩,
    ⟨1, 41, { (withRegs [(F.modeStat_DRAINING, 1, 1), (F.dlCtl_WIN, 1, 8)]) with ticks := 40, ap := { State.reset.ap with drainEnd := [(1, 41)] } }, by decide +kernel⟩,
    ⟨1, 40, { (withRegs [(F.modeStat_DRAINING, 1, 1)]) with ticks := 40, ap := { State.reset.ap with oldDiscard := [(1, 40)] } }, by decide +kernel⟩,
    ⟨1, 41, { (withRegs [(F.modeStat_DRAINING, 1, 1)]) with ticks := 40, ap := { State.reset.ap with oldDiscard := [(1, 41)] } }, by decide +kernel⟩,
    ⟨⟨1, 5, 5, 0, 0, 30, [], none⟩, apState 5 0 0 [], by decide +kernel⟩,
    ⟨1, ⟨false, 0⟩, ⟨1, 5, 9, certW 1 1 userCl, [], none, false, 16384⟩, certOf (certW 1 1 userCl), { (withRegs [(F.clStatus_STATE, 9, 1), (F.clStatus_OWNER, 9, 1)]) with ap := { State.reset.ap with migs := [⟨1, 5, 9, certW 1 1 userCl, [], none, false, 16384⟩] } }, by decide +kernel⟩,
    ⟨1, ⟨true, 0⟩, ⟨1, 5, 9, certW 1 1 [], [], none, false, 16384⟩, certOf (certW 1 1 []), { (withRegs [(F.clStatus_STATE, 9, 1), (F.clStatus_OWNER, 9, 1)]) with t := 1000, ap := { State.reset.ap with migs := [⟨1, 5, 9, certW 1 1 [], [], none, false, 16384⟩] } }, by decide +kernel⟩,
    ⟨1, ⟨true, 0⟩, { State.reset with ap := { State.reset.ap with migs := [⟨1, 5, 9, certW 1 1 [], [], none, false, 16383⟩] } }, by decide +kernel⟩,
    ⟨1, ⟨1, 5, 9, [], [], some 4096, true, 16384⟩, { (withRegs [(F.clStatus_STATE, 5, 3), (F.clStatus_OWNER, 5, 1)]) with ap := { State.reset.ap with migs := [⟨1, 5, 9, [], [], some 4096, true, 16384⟩] } }, by decide +kernel⟩,
    ⟨1, ⟨1, 5, 9, [], [], some 4096, true, 16384⟩, { (withRegs [(F.clStatus_STATE, 5, 3), (F.clStatus_OWNER, 5, 1)]) with ap := { State.reset.ap with migs := [⟨1, 5, 9, [], [], some 4096, true, 16384⟩] }, cl := { State.reset.cl with slots := [⟨5, 5, tag0, 7, false, none, none, none, 0⟩] } }, by decide +kernel⟩⟩

/-- States and operands that meet the hypotheses of GuaranteesAreLostAndRestored. -/
theorem witness_GuaranteesAreLostAndRestored :
    (∃ (p : Fin 8) (t0 : Nat) (k : Cert) (s : State), s.fatal = false ∧ mfind s.ap.suspendedAt p = some t0 ∧ admitted s p = some k ∧ s.pState p = pSuspended ∧ ((s.clustersOf p).any fun c => (mfind s.cl.reload c).isSome) = false ∧ t0 + (ledgerVf s p k).maxTicks ≤ s.ticks) ∧
    (∃ (p : Fin 8) (t0 : Nat) (s : State), mfind s.ap.suspendedAt p = some t0 ∧ s.ticks < t0) ∧
    (∃  (s : State), s.ap.reexamine = false) ∧
    (∃  (s : State), ((dueStaged s 1 none).isSome || (dueStaged s 2 none).isSome) = true) ∧
    (∃  (s : State), s.fatal = false ∧ s.ap.reexamine = true ∧ dueStaged s 1 none = none ∧ dueStaged s 2 none = none ∧ s.ap.lost = [] ∧ ((List.range 8).all fun p => s.pState p ≠ pGuaranteed || stillFits s p) = true) ∧
    (∃ (p : Fin 8) (r : Nat) (s : State), s.fatal = false ∧ s.ap.reexamine = true ∧ dueStaged s 1 none = none ∧ dueStaged s 2 none = none ∧ s.ap.lost = [(p.val, r)] ∧ s.pState p = pGuaranteed ∧ s.get F.partStat_CRIT p < 4 ∧ s.get F.partCfg_REVOKE_ACT p = 0 ∧ (∀ q : Fin 8, q ≠ p → s.pState q ≠ pGuaranteed)) ∧
    (∃ (who : From) (p : Fin 8) (s : State), s.fatal = false) :=
  ⟨⟨1, 10, certOf (certW 1 1 []), { (admState 1 [(F.partStat_STATE, 1, 5)]) with ap := { State.reset.ap with certs := [(1, certW 1 1 [])], suspendedAt := [(1, 10)] } }, by decide +kernel⟩,
    ⟨1, 41, { (admState 1 [(F.partStat_STATE, 1, 5)]) with ap := { State.reset.ap with certs := [(1, certW 1 1 [])], suspendedAt := [(1, 41)] } }, by decide +kernel⟩,
    ⟨State.reset, by decide +kernel⟩,
    ⟨{ State.reset with t := 5, ap := { State.reset.ap with reexamine := true }, staged := [⟨1, 1, 0, 5, false, 0, 0, 0, [], [0], true⟩] }, by decide +kernel⟩,
    ⟨{ (admState 1 [(F.partStat_STATE, 1, 2)]) with ap := { State.reset.ap with certs := [(1, certW 1 1 [])], reexamine := true } }, by decide +kernel⟩,
    ⟨1, 1, { (withRegs [(F.partStat_STATE, 1, 2)]) with ap := { State.reset.ap with lost := [(1, 1)], reexamine := true } }, by decide +kernel⟩,
    ⟨(11, true), 1, withRegs [(F.partStat_LOST, 1, 1)], by decide +kernel⟩⟩

/-- States and operands that meet the hypotheses of HostAccessesAndLink. -/
theorem witness_HostAccessesAndLink :
    (∃ (off : BitVec 26) (size : Fin 4097) (err : Fin 4) (x : BitVec 64) (s : State), inD3 s = false ∧ s.pcie.queue = [] ∧ s.pcie.posted = [] ∧ bar0Refused s ⟨off.toNat, size.val, false, 0, false, none⟩ = none ∧ direct s ((bar0Addr s off.toNat).getD 0) = true ∧ (accRead hostInit true (size.val = 8) err (localOf s ((bar0Addr s off.toNat).getD 0)) s).1 = .ok x) ∧
    (∃ (off : BitVec 26) (size : Fin 4097) (err : Fin 4) (why : Nat) (s : State), inD3 s = false ∧ s.pcie.queue = [] ∧ s.pcie.posted = [] ∧ bar0Refused s ⟨off.toNat, size.val, false, 0, false, none⟩ = some why) ∧
    (∃ (off : BitVec 26) (size : Fin 4097) (err : Fin 4) (s : State), (size.val ≠ 4 ∧ size.val ≠ 8 ∨ off.toNat % size.val ≠ 0) ∧ inD3 s = false ∧ s.pcie.queue = [] ∧ s.pcie.posted = []) ∧
    (∃ (off : BitVec 26) (size : Fin 4097) (err : Fin 4) (s : State), inD3 s = true) ∧
    (∃ (off : BitVec 26) (size : Fin 4097) (err : Fin 4) (s : State), s.fatal = false) ∧
    (∃ (off : BitVec 26) (size : Fin 4097) (v : BitVec 64) (err : Fin 4) (s : State), inD3 s = false ∧ s.pcie.queue = [] ∧ s.pcie.posted = [] ∧ bar0Refused s ⟨off.toNat, size.val, true, v.toNat, false, none⟩ = none ∧ direct s ((bar0Addr s off.toNat).getD 0) = true ∧ (accWrite hostInit true (size.val = 8) 2 err (localOf s ((bar0Addr s off.toNat).getD 0)) v.toNat s).1 = true) ∧
    (∃ (off : BitVec 26) (size : Fin 4097) (v : BitVec 64) (err : Fin 4) (s : State), inD3 s = false ∧ s.pcie.queue = [] ∧ s.pcie.posted = [] ∧ s.fatal = true ∧ (size.val = 4 ∨ size.val = 8) ∧ off.toNat % size.val = 0 ∧ (bar0Addr s off.toNat).isSome = true) ∧
    (∃ (off : BitVec 25) (len : Fin 4097) (s : State), inD3 s = false ∧ off.toNat + len.val ≤ 2 ^ 25) ∧
    (∃ (off : BitVec 25) (len : Fin 4097) (bad : Bar2In) (s : State), bad ≠ .malformed ∧ (inD3 s = true ∨ 2 ^ 25 < off.toNat + len.val)) ∧
    (∃ (off : BitVec 25) (len : Fin 4097) (s : State), s.fatal = false) ∧
    (∃ (off : BitVec 25) (s : State), inD3 s = true) ∧
    (∃ (off : BitVec 25) (s : State), inD3 s = false) ∧
    (∃  (s : State), 2 < s.get F.bootStat_STEP 0) ∧
    (∃ (dw : Fin 1024) (v : BitVec 32) (s : State), 2 < s.get F.bootStat_STEP 0 ∧ dw.val ≠ 1) ∧
    (∃ (en fm : Bool) (s : State), 2 < s.get F.bootStat_STEP 0) ∧
    (∃ (dw : Fin 1024) (s : State), s.fatal = false ∧ 2 < s.get F.bootStat_STEP 0) ∧
    (∃  (s : State), 2 < s.get F.bootStat_STEP 0) ∧
    (∃  (s : State), 2 < s.get F.bootStat_STEP 0) ∧
    (∃ (q : CfgReq) (s : State), q ≠ .malformed ∧ s.get F.bootStat_STEP 0 ≤ 2) ∧
    (∃ (n : Fin 512) (s : State), s.fatal = false ∧ s.flag F.pcieStat_MSIX_EN 0 = true ∧ s.flag F.pcieStat_FMASK 0 = false ∧ s.flag F.pcieStat_BME 0 = true ∧ mget 1 s.pcie.msixTab (n * 4 + 3) % 2 = 0 ∧ (mfind s.pcie.msixPend n).isSome = true) ∧
    (∃ (n : Fin 512) (s : State), (s.flag F.pcieStat_MSIX_EN 0 = false ∨ s.flag F.pcieStat_FMASK 0 = true ∨ s.flag F.pcieStat_BME 0 = false ∨ mget 1 s.pcie.msixTab (n * 4 + 3) % 2 = 1)) ∧
    (∃ (r : EpReset) (s : State), r ≠ .detect) ∧
    (∃  (s : State), s.fatal = false ∧ s.get F.bootStat_STEP 0 = 11) ∧
    (∃ (link speed : Fin 5) (width : Fin 9) (ex : Bool) (s : State), link.val ≠ s.get F.pcieStat_LINK 0 ∧ link.val ≠ 0) ∧
    (∃ (link speed : Fin 5) (width : Fin 9) (ex : Bool) (s : State), link.val = s.get F.pcieStat_LINK 0) :=
  ⟨⟨0x131318, 8, 0, 1234, runState [(F.snapBase_OFFSET, 0, 1234)], by decide +kernel⟩,
    ⟨0x131318, 8, 0, 2, State.reset, by decide +kernel⟩,
    ⟨4, 8, 0, runState [], by decide +kernel⟩,
    ⟨0, 8, 0, { State.reset with pcie := { State.reset.pcie with cfg := [(4096, 1)] } }, by decide +kernel⟩,
    ⟨0, 8, 0, State.reset, by decide +kernel⟩,
    ⟨0x131318, 8, 77, 0, runState [], by decide +kernel⟩,
    ⟨0x131318, 8, 77, 0, { (runState []) with flt := { State.reset.flt with decision := some (0, 0) } }, by decide +kernel⟩,
    ⟨250, 16, State.reset, by decide +kernel⟩,
    ⟨33554431, 2, .good, State.reset, by decide +kernel⟩,
    ⟨0, 2, State.reset, by decide +kernel⟩,
    ⟨0, { State.reset with pcie := { State.reset.pcie with cfg := [(4096, 1)] } }, by decide +kernel⟩,
    ⟨0, State.reset, by decide +kernel⟩,
    ⟨runState [], by decide +kernel⟩,
    ⟨4, 5, runState [], by decide +kernel⟩,
    ⟨true, false, runState [], by decide +kernel⟩,
    ⟨4, runState [], by decide +kernel⟩,
    ⟨runState [], by decide +kernel⟩,
    ⟨runState [], by decide +kernel⟩,
    ⟨.power true, State.reset, by decide +kernel⟩,
    ⟨9, { (withRegs [(F.pcieStat_MSIX_EN, 0, 1), (F.pcieStat_BME, 0, 1)]) with pcie := { State.reset.pcie with msixTab := [(39, 0)], msixPend := [(9, 1)] } }, by decide +kernel⟩,
    ⟨9, State.reset, by decide +kernel⟩,
    ⟨.flr, withRegs [(F.pcieStat_BME, 0, 1)], by decide +kernel⟩,
    ⟨runState [(F.pcieStat_LINK, 0, 4)], by decide +kernel⟩,
    ⟨3, 4, 8, false, State.reset, by decide +kernel⟩,
    ⟨0, 4, 8, false, State.reset, by decide +kernel⟩⟩

/-- States and operands that meet the hypotheses of CaptureStreamsRecord. -/
theorem witness_CaptureStreamsRecord :
    (∃ (k : Fin 64) (errs : List (Fin 3)) (w : PfWord) (poison : Bool) (s : State), s.fatal = false ∧ (s.fifo (32 + k.val)).settle.chain.isEmpty = false ∧ (s.cap k).words = [] ∧ ringRoom s k = true ∧ (pfTake (32 + k.val) ((errs.map (·.val)).headD 0) (s.set F.capStat_WAITING k 0)).1 = some (w, poison) ∧ w.last = true) ∧
    (∃ (k : Fin 64) (errs : List (Fin 3)) (s : State), s.fatal = false ∧ (s.fifo (32 + k.val)).settle.chain.isEmpty = false ∧ (s.cap k).words = [] ∧ ringRoom s k = false) ∧
    (∃ (k : Fin 64) (errs : List (Fin 3)) (w : PfWord) (rest : List PfWord) (s : State), s.fatal = false ∧ (s.fifo (32 + k.val)).settle.chain = w :: rest ∧ w.gap = true ∧ (s.cap k).words ≠ [] ∧ ringRoom (finishRecord k s) k = false) ∧
    (∃ (k : Fin 64) (errs : List (Fin 3)) (s : State), (s.fifo (32 + k.val)).settle.chain.isEmpty = true) ∧
    (∃ (k : Fin 64) (ws : List PfWord) (w : PfWord) (s : State), s.fatal = false ∧ s.get F.capCfg_CLOSE_T k ≠ 0 ∧ s.flag F.capCfg_EN k = true ∧ (s.cap k).lastAt + s.get F.capCfg_CLOSE_T k ≤ s.ticks ∧ s.get F.capCfg_MODE k = 1 ∧ (s.cap k).count ≠ 0 ∧ (s.fifo (32 + k.val)).settle.done = none ∧ (s.fifo (32 + k.val)).settle.chain = ws ++ [w] ∧ w.last = false) ∧
    (∃ (k : Fin 64) (s : State), (s.get F.capCfg_CLOSE_T k = 0 ∨ s.flag F.capCfg_EN k = false ∨ s.ticks < (s.cap k).lastAt + s.get F.capCfg_CLOSE_T k)) ∧
    (∃ (who : From) (k : Fin 64) (v : BitVec 25) (s : State), s.fatal = false ∧ v.toNat % 8 = 0 ∧ v.toNat < ringBytes s k ∧ (v.toNat + ringBytes s k - s.get F.capRp_PTR k) % ringBytes s k ≤ unread s k) ∧
    (∃ (who : From) (k : Fin 64) (v : BitVec 25) (s : State), s.fatal = false ∧ (v.toNat % 8 ≠ 0 ∨ ringBytes s k ≤ v.toNat)) ∧
    (∃ (who : From) (k : Fin 64) (s : State), s.fatal = false ∧ s.flag F.capCfg_EN k = false ∧ s.get F.capRing_BASE k + s.get F.capRing_SIZE k ≤ 8192 ∧ (∀ j : Fin 64, j ≠ k → s.flag F.capCfg_EN j = true → ringsMeet s (s.get F.capRing_BASE k) (s.get F.capRing_SIZE k) j = false)) ∧
    (∃ (who : From) (k j : Fin 64) (s : State), s.flag F.capCfg_EN k = false ∧ j ≠ k ∧ s.flag F.capCfg_EN j = true ∧ ringsMeet s (s.get F.capRing_BASE k) (s.get F.capRing_SIZE k) j = true) ∧
    (∃ (who : From) (k : Fin 64) (s : State), s.fatal = false ∧ s.flag F.capCfg_EN k = true ∧ s.get F.capCfg_MODE k < 4 ∧ s.get F.capCfg_LANE k < 32 ∧ s.get F.capCfg_CHMASK k < 256 ∧ s.get F.capCfg_PKT k < 4096 ∧ s.get F.capCfg_CLOSE_T k < 65536 ∧ (s.get F.capCfg_MODE k ≠ 1 ∨ (s.cap k).count = 0)) :=
  ⟨⟨5, [], capWord, false, capState [] CapStream.empty capWord, by decide +kernel⟩,
    ⟨5, [], capState [(F.capRp_PTR, 5, 8)] CapStream.empty capWord, by decide +kernel⟩,
    ⟨5, [], { capWord with gap := true }, [], capState [(F.capRp_PTR, 5, 32)] { CapStream.empty with words := [7] } { capWord with gap := true }, by decide +kernel⟩,
    ⟨5, [], State.reset, by decide +kernel⟩,
    ⟨5, [], { capWord with last := false }, { (capState [(F.capCfg_CLOSE_T, 5, 100), (F.capCfg_EN, 5, 1), (F.capCfg_MODE, 5, 1)] { CapStream.empty with count := 1, lastAt := 7 } { capWord with last := false }) with ticks := 107 }, by decide +kernel⟩,
    ⟨5, State.reset, by decide +kernel⟩,
    ⟨(11, true), 5, 48, withRegs [(F.capRing_SIZE, 5, 16), (F.capWp_PTR, 5, 96)], by decide +kernel⟩,
    ⟨(11, true), 5, 44, withRegs [(F.capRing_SIZE, 5, 16), (F.capWp_PTR, 5, 96)], by decide +kernel⟩,
    ⟨(11, true), 5, State.reset, by decide +kernel⟩,
    ⟨(11, true), 5, 6, withRegs [(F.capCfg_EN, 6, 1)], by decide +kernel⟩,
    ⟨(11, true), 5, withRegs [(F.capCfg_EN, 5, 1)], by decide +kernel⟩⟩

/-- States and operands that meet the hypotheses of ChainLinksAndEnumeration. -/
theorem witness_ChainLinksAndEnumeration :
    (∃ (up : Bool) (lanes : BitVec 4) (s : State), s.fatal = false ∧ 9 ≤ s.get F.bootStat_STEP 0 ∧ (s.get F.cpStat_STATE (sideOf up) = 0 ∨ s.get F.cpStat_STATE (sideOf up) = 1) ∧ (s.get F.cpStat_LOCKED (sideOf up) ||| lanes.toNat) % 16 = 15) ∧
    (∃ (up : Bool) (lanes : BitVec 4) (s : State), s.fatal = false ∧ 9 ≤ s.get F.bootStat_STEP 0 ∧ (s.get F.cpStat_STATE (sideOf up) = 0 ∨ s.get F.cpStat_STATE (sideOf up) = 1) ∧ (s.get F.cpStat_LOCKED (sideOf up) ||| lanes.toNat) % 16 ≠ 15) ∧
    (∃ (up : Bool) (s : State), s.get F.cpStat_STATE (sideOf up) = 2) ∧
    (∃ (up : Bool) (s : State), s.get F.cpStat_STATE (sideOf up) = 3) ∧
    (∃ (up good : Bool) (s : State), s.get F.cpStat_STATE (sideOf up) = 3 ∧ good = true) ∧
    (∃ (up : Bool) (s : State), s.get F.cpStat_STATE (sideOf up) ≠ 0 ∧ s.get F.cpStat_STATE (sideOf up) ≠ 4) ∧
    (∃ (up : Bool) (s : State), (s.get F.cpStat_STATE (sideOf up) = 0 ∨ s.get F.cpStat_STATE (sideOf up) = 4)) ∧
    (∃ (up : Bool) (content : W) (blk : CtlIn) (s : State), s.fatal = false ∧ cpUp s (sideOf up) = true ∧ ctlGood 0x78 content blk = true) ∧
    (∃ (up : Bool) (content : W) (blk : CtlIn) (s : State), s.fatal = false ∧ cpUp s (sideOf up) = true ∧ (blk.type ≠ 0x78 ∨ blk.crc.toNat ≠ ctlCrc 0x78 content)) ∧
    (∃ (number : Fin 16) (era : BitVec 16) (v : W) (blk : EnumIn) (s : State), s.fatal = false ∧ ctlGood 0x4B (enumContent number era) blk.enum = true ∧ ctlGood 0x4C v blk.enumT = true ∧ cpUp s 0 = true ∧ 10 ≤ s.get F.bootStat_STEP 0 ∧ s.chain.wait = [] ∧ laneFits s (segOut true) 0 false = true) ∧
    (∃ (number : Fin 16) (era : BitVec 16) (v : W) (blk : EnumIn) (s : State), s.fatal = false ∧ ctlGood 0x4B (enumContent number era) blk.enum = true ∧ ctlGood 0x4C v blk.enumT = true ∧ cpUp s 0 = true ∧ s.chain.measUp = true ∧ s.get F.bootStat_STEP 0 = 9 ∧ s.mc.failed = false ∧ s.flag F.devId_HEAD 0 = false ∧ number.val < 15) ∧
    (∃ (number : Fin 16) (era : BitVec 16) (v : W) (blk : EnumIn) (s : State), s.fatal = false ∧ ctlGood 0x4B (enumContent number era) blk.enum = true ∧ ctlGood 0x4C v blk.enumT = true ∧ cpUp s 0 = true ∧ s.chain.measUp = false ∧ s.get F.bootStat_STEP 0 = 9 ∧ s.mc.failed = false ∧ s.flag F.devId_HEAD 0 = false ∧ number.val < 15) ∧
    (∃ (number : Fin 16) (era : BitVec 16) (v : W) (blk : EnumIn) (s : State), s.fatal = false ∧ ctlGood 0x4B (enumContent number era) blk.enum = true ∧ ctlGood 0x4C v blk.enumT = true ∧ s.get F.bootStat_STEP 0 = 9 ∧ s.mc.failed = false ∧ (s.flag F.devId_HEAD 0 = true ∨ cpUp s 0 = true ∧ number.val = 15)) ∧
    (∃ (len : BitVec 5) (blk : CtlIn) (s : State), s.fatal = false ∧ ctlGood 0x55 (w48 len.toNat) blk = true ∧ cpUp s 1 = true ∧ s.get F.bootStat_STEP 0 = 9 ∧ s.mc.failed = false ∧ s.flag F.devId_TAIL 0 = false ∧ s.flag F.devId_HEAD 0 = true) ∧
    (∃ (len : BitVec 5) (blk : CtlIn) (s : State), s.fatal = false ∧ ctlGood 0x55 (w48 len.toNat) blk = true ∧ cpUp s 1 = true ∧ cpUp s 0 = true ∧ s.get F.bootStat_STEP 0 = 9 ∧ s.mc.failed = false ∧ s.flag F.devId_TAIL 0 = false ∧ s.flag F.devId_HEAD 0 = false ∧ s.chain.wait = [] ∧ laneFits s (segOut true) 0 false = true) ∧
    (∃ (len : BitVec 5) (blk : CtlIn) (s : State), s.fatal = false ∧ ctlGood 0x55 (w48 len.toNat) blk = true ∧ s.get F.bootStat_STEP 0 = 9 ∧ s.mc.failed = false ∧ s.flag F.devId_TAIL 0 = true) ∧
    (∃ (len : BitVec 5) (blk : CtlIn) (s : State), ctlGood 0x55 (w48 len.toNat) blk = true ∧ cpUp s 1 = true ∧ s.get F.bootStat_STEP 0 ≠ 9) ∧
    (∃ (up : Bool) (pkg : Fin 16) (blk : CtlIn) (s : State), s.fatal = false ∧ ctlGood 0x66 (w48 pkg) blk = true ∧ cpUp s (sideOf up) = true ∧ cpUp s (sideOf (!up)) = true ∧ s.flt.wire.contains (pairKey 35 (loc 0 pkg)) = false ∧ mfind s.flt.pairHeld (pairKey 35 (loc 0 pkg)) = none ∧ s.chain.wait = [] ∧ laneFits s (segOut (!up)) 0 false = true) :=
  ⟨⟨true, 5, runState [(F.cpStat_LOCKED, 0, 10)], by decide +kernel⟩,
    ⟨true, 4, runState [(F.cpStat_LOCKED, 0, 10)], by decide +kernel⟩,
    ⟨true, withRegs [(F.cpStat_STATE, 0, 2)], by decide +kernel⟩,
    ⟨true, withRegs [(F.cpStat_STATE, 0, 3)], by decide +kernel⟩,
    ⟨true, true, withRegs [(F.cpStat_STATE, 0, 3)], by decide +kernel⟩,
    ⟨true, withRegs [(F.cpStat_STATE, 0, 3)], by decide +kernel⟩,
    ⟨true, State.reset, by decide +kernel⟩,
    ⟨true, 0x0C1, ctlSound 0x78 0x0C1, withRegs [(F.cpStat_STATE, 0, 3)], by decide +kernel⟩,
    ⟨true, 0x0C1, ⟨0x78, 0⟩, withRegs [(F.cpStat_STATE, 0, 3)], by decide +kernel⟩,
    ⟨2, 0, 99, ⟨ctlSound 0x4B (enumContent 2 0), ctlSound 0x4C 99⟩, runState [(F.cpStat_STATE, 0, 3)], by decide +kernel⟩,
    ⟨2, 0, 99, ⟨ctlSound 0x4B (enumContent 2 0), ctlSound 0x4C 99⟩, { (withRegs [(F.bootStat_STEP, 0, 9), (F.cpStat_STATE, 0, 3), (F.devId_HEAD, 0, 0)]) with chain := { State.reset.chain with measUp := true } }, by decide +kernel⟩,
    ⟨2, 0, 99, ⟨ctlSound 0x4B (enumContent 2 0), ctlSound 0x4C 99⟩, withRegs [(F.bootStat_STEP, 0, 9), (F.cpStat_STATE, 0, 3), (F.devId_HEAD, 0, 0)], by decide +kernel⟩,
    ⟨15, 0, 99, ⟨ctlSound 0x4B (enumContent 15 0), ctlSound 0x4C 99⟩, withRegs [(F.bootStat_STEP, 0, 9), (F.cpStat_STATE, 0, 3)], by decide +kernel⟩,
    ⟨4, ctlSound 0x55 4, withRegs [(F.bootStat_STEP, 0, 9), (F.cpStat_STATE, 1, 3), (F.devId_HEAD, 0, 1), (F.devId_TAIL, 0, 0)], by decide +kernel⟩,
    ⟨4, ctlSound 0x55 4, withRegs [(F.bootStat_STEP, 0, 9), (F.cpStat_STATE, 0, 3), (F.cpStat_STATE, 1, 3), (F.devId_HEAD, 0, 0), (F.devId_TAIL, 0, 0)], by decide +kernel⟩,
    ⟨4, ctlSound 0x55 4, withRegs [(F.bootStat_STEP, 0, 9), (F.devId_TAIL, 0, 1)], by decide +kernel⟩,
    ⟨4, ctlSound 0x55 4, runState [(F.cpStat_STATE, 1, 3)], by decide +kernel⟩,
    ⟨true, 7, ctlSound 0x66 7, withRegs [(F.cpStat_STATE, 0, 3), (F.cpStat_STATE, 1, 3)], by decide +kernel⟩⟩

/-- States and operands that meet the hypotheses of PinsMirrorAndJtag. -/
theorem witness_PinsMirrorAndJtag :
    (∃  (s : State), s.fatal = false ∧ s.flagB F.mpCtl_FLIP_EN 0 = true ∧ 0 ≤ sdiff s.t (w48 (s.get F.mpFlipT_T 0))) ∧
    (∃  (s : State), (s.flagB F.mpCtl_FLIP_EN 0 = false ∨ sdiff s.t (w48 (s.get F.mpFlipT_T 0)) < 0)) ∧
    (∃ (k : Fin 32) (s : State), s.fatal = false ∧ s.flag F.auxCfg_PENDING k = true ∧ (s.aux k).written < s.ticks) ∧
    (∃ (k : Fin 32) (s : State), (s.flag F.auxCfg_PENDING k = false ∨ s.ticks ≤ (s.aux k).written)) ∧
    (∃ (k : Fin 32) (level : Bool) (s : State), s.fatal = false ∧ (s.aux k).ext ≠ level ∧ s.get F.auxCfg_ACTIVE k = fEvin ∧ level ≠ decide (bits (s.aux k).sel 3 1 = 1)) ∧
    (∃ (k : Fin 32) (level early : Bool) (s : State), ((s.aux k).ext = level ∨ s.get F.auxCfg_ACTIVE k ≠ fEvin ∨ s.fatal = true)) ∧
    (∃ (code : BitVec 8) (nreset : Bool) (s : State), s.fatal = false ∧ (code = 0xFF ∨ code = 0x01 ∨ code = 0x02 ∨ code = 0x10)) ∧
    (∃ (code : BitVec 8) (s : State), code ≠ 0x01 ∧ code ≠ 0x02 ∧ code ≠ 0x10) ∧
    (∃ (cells : List (Pad × Option Bool)) (nreset : Bool) (s : State), s.port.jtag = 0x03) ∧
    (∃ (v : BitVec 112) (err : Fin 4) (x : BitVec 64) (s : State), s.fatal = false ∧ s.port.jtag = 0x10 ∧ s.port.jtagReq = none ∧ direct s (dbgAddr v) = true ∧ dbgWriteBit v = false ∧ (accRead jtagInit true (!dbgHalf v) err (localOf s (dbgAddr v)) { s with port := { s.port with dbgWord := v } }).1 = .ok x) ∧
    (∃ (v : BitVec 112) (err : Fin 4) (s : State), s.port.jtag ≠ 0x10) :=
  ⟨⟨{ (withRegs [(F.mpCtl_FLIP_EN, 0, 1), (F.mpFlipT_T, 0, 100), (F.mpCtl_PER, 0, 50)]) with t := 210, mem := [(mirrorAddr 1 3, 7)] }, by decide +kernel⟩,
    ⟨{ (withRegs [(F.mpCtl_FLIP_EN, 0, 1), (F.mpFlipT_T, 0, 100), (F.mpCtl_PER, 0, 50)]) with t := 99 }, by decide +kernel⟩,
    ⟨3, { (withRegs [(F.auxCfg_PENDING, 3, 1), (F.auxCfg_FUNC, 3, 2), (F.auxCfg_SEL, 3, 9)]) with ticks := 1 }, by decide +kernel⟩,
    ⟨3, withRegs [(F.auxCfg_PENDING, 3, 1)], by decide +kernel⟩,
    ⟨3, true, (withRegs [(F.auxCfg_ACTIVE, 3, 2)]).setAux 3 { AuxPin.empty with sel := 2 }, by decide +kernel⟩,
    ⟨3, true, false, State.reset, by decide +kernel⟩,
    ⟨0x10, false, State.reset, by decide +kernel⟩,
    ⟨0x03, State.reset, by decide +kernel⟩,
    ⟨[(.nFatal, some true)], true, { State.reset with port := { State.reset.port with jtag := 3 } }, by decide +kernel⟩,
    ⟨BitVec.ofNat 112 (hubAddr 0x1000131318), 0, 1234, { (runState [(F.snapBase_OFFSET, 0, 1234)]) with port := { State.reset.port with jtag := 0x10 } }, by decide +kernel⟩,
    ⟨5, 0, State.reset, by decide +kernel⟩⟩

/-- States and operands that meet the hypotheses of RegisterFieldsFollowTheirCodes. -/
theorem witness_RegisterFieldsFollowTheirCodes :
    (∃ (who : From) (a : BitVec 44) (v : BitVec 64) (b : Blk) (d : RegDef) (i : Nat) (s : State), s.fatal = false ∧ placeOf a.toNat = some (.reg b d i) ∧ a.toNat % 8 = 0) ∧
    (∃ (who : From) (v : BitVec 64) (s : State), s.fatal = false) ∧
    (∃ (who : From) (half : Bool) (a : BitVec 44) (v : BitVec 64) (s : State), (a.toNat % 8 ≠ 0 ∧ half = false ∨ a.toNat % 4 ≠ 0 ∨ s.fatal = true)) ∧
    (∃ (who : From) (half : Bool) (a : BitVec 44) (v : BitVec 64) (s : State), placeOf a.toNat = none) :=
  ⟨⟨(11, true), BitVec.ofNat 44 (hubAddr 0x1000131318), 77, .ring, ⟨.snapBase, 0x1318, 1, 0, 1, 0, [F.snapBase_OFFSET]⟩, 0, State.reset, by decide +kernel⟩,
    ⟨(11, true), 77, State.reset, by decide +kernel⟩,
    ⟨(11, true), false, BitVec.ofNat 44 (hubAddr 0x1000131318 + 4), 77, State.reset, by decide +kernel⟩,
    ⟨(11, true), false, BitVec.ofNat 44 (9 * 2 ^ 40), 77, State.reset, by decide +kernel⟩⟩

/-- The hypothesis of StepTakesTheFront is met. -/
theorem witness_StepTakesTheFront : State.reset.pending = [] := rfl

/-- A field whose reset value does not depend on its instance. -/
theorem witness_ResetIsAsTheSpecLeavesIt : ∃ (f : Fld) (i : Nat), mfind regsReset (f.key i) = none := ⟨F.clStatus_OWNER, 3, by decide +kernel⟩

/-- A step from a sound state. -/
theorem witness_MemoryKeepsItsForm : ∃ s t : State, MemSound s ∧ step s = .next t := ⟨State.reset, State.reset, rfl, rfl⟩

/-- A fatal state and a command that answers a next state. -/
theorem witness_FatalEndsOnlyWithPower : ∃ (c : Instr) (s t : State), s.fatal = true ∧ c ≠ .powerOff ∧ (∀ f r, c = .tAdvance f r → porAsserted r s = false) ∧ exec c s = .next t :=
  ⟨.ccReset (11, true) 0, { State.reset with flt := { State.reset.flt with decision := some (0, 0) } }, _, by decide +kernel, by decide, (by intro f r h; cases h), rfl⟩
/-- A tick of a fatal state with VDD_H at 0. -/
theorem witness_RailEndsFatal : ∃ (f : Bool) (r : RailIn) (s t : State), s.fatal = true ∧ porAsserted r s = true ∧ exec (.tAdvance f r) s = .next t :=
  ⟨true, [(1, 0)], { State.reset with flt := { State.reset.flt with decision := some (0, 0) } }, _, by decide +kernel, by decide +kernel, rfl⟩
theorem witness_PowerEndsFatal : ∃ s t : State, s.fatal = true ∧ exec .powerOff s = .next t :=
  ⟨{ State.reset with flt := { State.reset.flt with decision := some (0, 0) } }, _, by decide +kernel, rfl⟩

/-- A frozen command in a fatal state. -/
theorem witness_FatalFreezesTheRest : ∃ (c : Instr) (s : State), s.fatal = true ∧ outlivesFatal c = false :=
  ⟨.ccReset (11, true) 0, { State.reset with flt := { State.reset.flt with decision := some (0, 0) } }, by decide +kernel, rfl⟩

/-- A command that answers a next state. -/
theorem witness_QueueAndTimeMoveOnlyAsSaid : ∃ (c : Instr) (s t : State), exec c s = .next t ∧ ∀ f r, c ≠ .tAdvance f r :=
  ⟨.refLoss, State.reset, _, rfl, by intro f r h; cases h⟩

/-- A step from a state with those sizes. -/
theorem witness_SizesAreKept : ∃ s t : State, Shape s ∧ step s = .next t := ⟨State.reset, State.reset, by unfold Shape; decide +kernel, rfl⟩

/-- A step from such a state. -/
theorem witness_ClusterStatesStayLegal : ∃ s t : State, (∀ c : Fin 128, s.cState c ≤ 5) ∧ step s = .next t := ⟨State.reset, State.reset, by decide +kernel, rfl⟩

end Sys2Proof.Tests
end

section
/-!
SUPPORT. The access codes of R7 to R9: what a write does to one field, that a register write answered with an error changes nothing (R26, R471),
and what REGISTER_WRITE comes to at each kind of address. From these the statement on register writes (O52).
-/
namespace Sys2Proof.Machine
open Sys2Proof

/-! ### One field under its access code (R7–R9) -/

/-- A LOCK bit takes a 1 and nothing else (R8). -/
theorem putField_lock {f : Fld} (h : isLock f = true) (i x : Nat) (s : State) :
    putField f i x s = if x = 1 then s.set f i 1 else s := by
  simp [putField, h]

theorem putField_value {f : Fld} (hl : isLock f = false) {x : Nat} (hx : f.takes x = true) (i : Nat) (s : State) :
    putField f i x s = s.set f i x := by
  simp [putField, hl, hx]

theorem putField_reserved {f : Fld} (hl : isLock f = false) {x : Nat} (hx : f.takes x = false) (i : Nat) (s : State) :
    putField f i x s = s := by
  simp [putField, hl, hx]

/-- A LOCK bit that is set stays set, whatever is put into it. -/
theorem putField_lock_stays {f : Fld} (h : isLock f = true) (hw : 1 ≤ f.w) (i x : Nat) {s : State} (hs : s.flag f i = true) :
    (putField f i x s).flag f i = true := by
  rw [putField_lock h]
  split_ifs
  · have : 1 < 2 ^ f.w := Nat.one_lt_two_pow (by omega)
    simp [Nat.mod_eq_of_lt this]
  · exact hs

theorem writeField_untouched {w : Wr} {f : Fld} (h : w.touches f = false) (s : State) : writeField w f s = s := by
  simp [writeField, h]

theorem writeField_readOnly (w : Wr) {f : Fld} (h : f.acc = .ro ∨ f.acc = .wo ∨ f.acc = .rws) (s : State) :
    writeField w f s = s := by
  rcases h with h | h | h <;> simp [writeField, h]

theorem writeField_locked {w : Wr} {f : Fld} (h : f.acc = .rwl) (hl : w.locked = true) (s : State) : writeField w f s = s := by
  simp [writeField, h, hl]

theorem writeField_open {w : Wr} {f : Fld} (ht : w.touches f = true) (h : f.acc = .rw ∨ f.acc = .rwl ∧ w.locked = false)
    (s : State) : writeField w f s = putField f w.i (w.at_ f) s := by
  rcases h with h | ⟨h, hl⟩
  · simp [writeField, ht, h]
  · simp [writeField, ht, h, hl]

theorem writeField_w1c {w : Wr} {f : Fld} (ht : w.touches f = true) (h : f.acc = .w1c) (s : State) :
    writeField w f s = s.set f w.i (s.get f w.i - (s.get f w.i &&& bits (w.v &&& w.m) f.lo f.w)) := by
  simp [writeField, ht, h]

/-- All that a write can do to a field that is not W1C: leave it, or put the written value into it. -/
theorem writeField_keeps_or_puts (w : Wr) {f : Fld} (h : f.acc ≠ .w1c) (s : State) :
    writeField w f s = s ∨ writeField w f s = putField f w.i (w.at_ f) s := by
  cases ht : w.touches f with
  | false => exact .inl (writeField_untouched ht s)
  | true =>
    cases ha : f.acc with
    | ro => exact .inl (writeField_readOnly w (.inl ha) s)
    | wo => exact .inl (writeField_readOnly w (.inr (.inl ha)) s)
    | rws => exact .inl (writeField_readOnly w (.inr (.inr ha)) s)
    | rw => exact .inr (writeField_open ht (.inl ha) s)
    | w1c => exact absurd ha h
    | rwl =>
      cases hl : w.locked with
      | true => exact .inl (writeField_locked ha hl s)
      | false => exact .inr (writeField_open ht (.inr ⟨ha, hl⟩) s)

theorem writeField_takes {w : Wr} {f : Fld} {s : State} (ht : w.touches f = true)
    (ha : f.acc = .rw ∨ f.acc = .rwl ∧ w.locked = false) (hl : isLock f = false) (hx : f.takes (w.at_ f) = true) :
    writeField w f s = s.set f w.i (w.at_ f) := by
  rw [writeField_open ht ha, putField_value hl hx]

theorem writeField_reserved {w : Wr} {f : Fld} {s : State} (ha : f.acc = .rw ∨ f.acc = .rwl) (hl : isLock f = false)
    (hx : f.takes (w.at_ f) = false) : writeField w f s = s := by
  have hne : f.acc ≠ .w1c := by rcases ha with ha | ha <;> simp [ha]
  rcases writeField_keeps_or_puts w hne s with h | h
  · exact h
  · rw [h, putField_reserved hl hx]

theorem writeField_lock_stays {w : Wr} {f : Fld} {s : State} (hl : isLock f = true) (ha : f.acc ≠ .w1c) (hw : 1 ≤ f.w)
    (hs : s.flag f w.i = true) : (writeField w f s).flag f w.i = true := by
  rcases writeField_keeps_or_puts w ha s with h | h
  · rw [h]; exact hs
  · rw [h]; exact putField_lock_stays hl hw _ _ hs

/-- A one-bit W1C field is cleared by a 1 and left by a 0 (R7). -/
theorem writeField_w1c_bit {w : Wr} {f : Fld} {s : State} (ht : w.touches f = true) (ha : f.acc = .w1c) (hw : f.w = 1)
    (hs : s.get f w.i ≤ 1) : (writeField w f s).get f w.i = if w.hit f then 0 else s.get f w.i := by
  rw [writeField_w1c ht ha, State.get_set_same, hw]
  have hbit : bits (w.v &&& w.m) f.lo 1 < 2 := Nat.mod_lt _ (by decide)
  cases hh : w.hit f with
  | true =>
    have hone : bits (w.v &&& w.m) f.lo 1 = 1 := by simpa [Wr.hit] using hh
    rw [hone, Nat.and_one_is_mod, if_pos rfl]
    omega
  | false =>
    have hne : bits (w.v &&& w.m) f.lo 1 ≠ 1 := by simpa [Wr.hit] using hh
    have hzero : bits (w.v &&& w.m) f.lo 1 = 0 := by omega
    rw [hzero, Nat.and_zero, if_neg (by decide)]
    omega

/-! ### A refused register write changes nothing (R26, R471) -/

/-- The answer of a write at `s`: where it is an error, the state is `s`. -/
def KeepsWhenRefused (s : State) (r : WOut) : Prop := r.1 = false → r.2 = s

@[simp] theorem keepsWhenRefused_accepted (s t : State) : KeepsWhenRefused s (true, t) := by simp [KeepsWhenRefused]

@[simp] theorem keepsWhenRefused_refused (s : State) : KeepsWhenRefused s (false, s) := fun _ => rfl

@[simp] theorem keepsWhenRefused_permit (ok : Bool) (f : State → State) (s : State) : KeepsWhenRefused s (permit ok f s) := by
  cases ok
  · exact keepsWhenRefused_refused s
  · exact keepsWhenRefused_accepted s _

/-- A write with two branches keeps the state at an error where both do. -/
@[simp] theorem keepsWhenRefused_ite (s : State) (c : Prop) [Decidable c] (x y : WOut) :
    KeepsWhenRefused s (if c then x else y) ↔ (c → KeepsWhenRefused s x) ∧ (¬c → KeepsWhenRefused s y) := by
  split_ifs with h <;> simp [h]

@[simp] theorem bankOwnWrite_keepsWhenRefused (init b : Nat) (owner : Option Nat) (clr : Bool) (s : State) :
    KeepsWhenRefused s (bankOwnWrite init b owner clr s) := by
  cases owner <;> simp [bankOwnWrite]

@[simp] theorem bankPwrWrite_keepsWhenRefused (b st : Nat) (s : State) : KeepsWhenRefused s (bankPwrWrite b st s) := by
  simp [bankPwrWrite]

@[simp] theorem bankPwrRegWrite_keepsWhenRefused (init : Nat) (w : Wr) (s : State) :
    KeepsWhenRefused s (bankPwrRegWrite init w s) := by
  simp [bankPwrRegWrite]

@[simp] theorem thrCfgWrite_keepsWhenRefused (w : Wr) (fs : List Fld) (s : State) : KeepsWhenRefused s (thrCfgWrite w fs s) := by
  simp only [thrCfgWrite, keepsWhenRefused_ite]
  refine ⟨fun _ => keepsWhenRefused_accepted s _, fun _ => ?_⟩
  split
  · exact keepsWhenRefused_accepted s _
  · exact keepsWhenRefused_refused s

@[simp] theorem svWdogWrite_keepsWhenRefused (init : Nat) (priv : Bool) (w : Wr) (s : State) :
    KeepsWhenRefused s (svWdogWrite init priv w s) := by
  simp [svWdogWrite]

@[simp] theorem injCtlWrite_keepsWhenRefused (v : Nat) (hits : Bool) (s : State) : KeepsWhenRefused s (injCtlWrite v hits s) := by
  simp [injCtlWrite]

@[simp] theorem capCfgWrite_keepsWhenRefused (k v : Nat) (hits : Bool) (s : State) : KeepsWhenRefused s (capCfgWrite k v hits s) := by
  simp [capCfgWrite]

/-- Every register write either is accepted or leaves the state: by the block's writers (R338, R356), then register by register. -/
theorem regWrite_keepsWhenRefused (init : Nat) (priv full : Bool) (b : Blk) (d : RegDef) (w : Wr) (s : State) :
    KeepsWhenRefused s (regWrite init priv full b d w s) := by
  simp only [regWrite, keepsWhenRefused_ite]
  refine ⟨fun _ => keepsWhenRefused_refused s, fun _ => ?_⟩
  split <;> simp [spillCfgWrite, rsCfgWrite, trigCfgWrite, chCfgWrite, mbxInWrite, mbxOutWrite]

/-! ### REGISTER_WRITE by what stands at its address (R6, R9) -/

theorem exec_registerWrite (who : From) (half : Bool) (a : BitVec 44) (v : BitVec 64) (s : State) :
    exec (.registerWrite who half a v) s = execRegisterWrite who half a v s := rfl

theorem execRegisterWrite_noRegister {a : BitVec 44} (h : ∀ b d i, placeOf a.toNat ≠ some (.reg b d i)) (who : From) (half : Bool)
    (v : BitVec 64) (s : State) : execRegisterWrite who half a v s = .next s := by
  unfold execRegisterWrite
  split
  · exact absurd ‹_› (h _ _ _)
  · rfl

theorem execRegisterWrite_register {a : BitVec 44} {b : Blk} {d : RegDef} {i : Nat} (h : placeOf a.toNat = some (.reg b d i))
    (who : From) (half : Bool) (v : BitVec 64) (s : State) :
    execRegisterWrite who half a v s = .next (accWrite who.1 who.2 (!half) 2 0 a.toNat v.toNat s).2 := by
  simp [execRegisterWrite, h]

theorem accWrite_fatal {s : State} (h : s.fatal = true) (init : Nat) (priv full : Bool) (op natural a v : Nat) :
    accWrite init priv full op natural a v s = (false, s) := by
  simp [accWrite, h]

/-- An access to a register that is not aligned to its size is refused (R6). -/
theorem accWrite_register_misaligned {a : Nat} {b : Blk} {d : RegDef} {i : Nat} (h : placeOf a = some (.reg b d i)) {full : Bool}
    (ha : aligned full a = false) (init : Nat) (priv : Bool) (op natural v : Nat) (s : State) :
    accWrite init priv full op natural a v s = (false, s) := by
  simp [accWrite, h, ha]

/-- A 64-bit write replaces every bit of the register, whatever stood there. -/
theorem whole_write_replaces (cur v : BitVec 64) : (cur.toNat - (cur.toNat &&& 2 ^ 64 - 1)) ||| (v.toNat &&& 2 ^ 64 - 1) = v.toNat := by
  rw [Nat.and_two_pow_sub_one_of_lt_two_pow cur.isLt, Nat.and_two_pow_sub_one_of_lt_two_pow v.isLt, Nat.sub_self, Nat.zero_or]

theorem accWrite_register_whole {a : Nat} {b : Blk} {d : RegDef} {i : Nat} (h : placeOf a = some (.reg b d i)) (ha : a % 8 = 0)
    {s : State} (hf : s.fatal = false) (init : Nat) (priv : Bool) (op natural : Nat) (v : BitVec 64) :
    accWrite init priv true op natural a v.toNat s
      = regWrite init priv true b d ⟨i, 2 ^ 64 - 1, v.toNat, v.toNat, blkLocked s b i⟩ s := by
  have hv : valueAt true a v.toNat = v.toNat := Nat.mod_eq_of_lt v.isLt
  have hm : maskAt true a = 2 ^ 64 - 1 := rfl
  have hal : aligned true a = true := by simp [aligned, ha]
  simp only [accWrite, hf, h, hal, hv, hm, whole_write_replaces, Bool.not_true, Bool.false_eq_true, if_false]

theorem exec_registerWrite_whole {a : BitVec 44} {b : Blk} {d : RegDef} {i : Nat} {s : State} (hf : s.fatal = false)
    (h : placeOf a.toNat = some (.reg b d i)) (ha : a.toNat % 8 = 0) (who : From) (v : BitVec 64) :
    exec (.registerWrite who false a v) s
      = .next (regWrite who.1 who.2 true b d ⟨i, 2 ^ 64 - 1, v.toNat, v.toNat, blkLocked s b i⟩ s).2 := by
  rw [exec_registerWrite, execRegisterWrite_register h, Bool.not_false, accWrite_register_whole h ha hf]

/-- REGISTER_WRITE in the fatal state, or not aligned to its size, changes nothing. -/
theorem exec_registerWrite_unserved {half : Bool} {a : BitVec 44} {s : State}
    (h : a.toNat % 8 ≠ 0 ∧ half = false ∨ a.toNat % 4 ≠ 0 ∨ s.fatal = true) (who : From) (v : BitVec 64) :
    exec (.registerWrite who half a v) s = .next s := by
  rw [exec_registerWrite]
  by_cases hp : ∃ b d i, placeOf a.toNat = some (.reg b d i)
  · obtain ⟨b, d, i, hp⟩ := hp
    rw [execRegisterWrite_register hp]
    by_cases hf : s.fatal = true
    · rw [accWrite_fatal hf]
    · have hal : aligned (!half) a.toNat = false := by
        simp only [hf, Bool.false_eq_true, or_false] at h
        cases half <;> simp [aligned] at h ⊢ <;> omega
      rw [accWrite_register_misaligned hp hal]
  · exact execRegisterWrite_noRegister (fun b d i e => hp ⟨b, d, i, e⟩) who half v s

/-- The description of SNAP_BASE in the ring's block. -/
def snapBaseDef : RegDef := ⟨.snapBase, 0x1318, 1, 0, 1, 0, [F.snapBase_OFFSET]⟩

theorem placeOf_snapBase : placeOf (BitVec.ofNat 44 (hubAddr 0x1000131318)).toNat = some (.reg .ring snapBaseDef 0) := by
  decide +kernel

/-- SNAP_BASE has no rule of its own: a write gives OFFSET its 20 bits. -/
theorem regWrite_snapBase (init : Nat) (priv full locked : Bool) (v : Nat) (s : State) :
    (regWrite init priv full .ring snapBaseDef ⟨0, 2 ^ 64 - 1, v, v, locked⟩ s).2 = s.set F.snapBase_OFFSET 0 (v % 2 ^ 20) := by
  have hplain : (regWrite init priv full .ring snapBaseDef ⟨0, 2 ^ 64 - 1, v, v, locked⟩ s).2
      = writeField ⟨0, 2 ^ 64 - 1, v, v, locked⟩ F.snapBase_OFFSET s := rfl
  have hat : Wr.at_ ⟨0, 2 ^ 64 - 1, v, v, locked⟩ F.snapBase_OFFSET = v % 2 ^ 20 := by
    simp [Wr.at_, bits, F.snapBase_OFFSET]
  have ht : Wr.touches ⟨0, 2 ^ 64 - 1, v, v, locked⟩ F.snapBase_OFFSET = true := by
    simp [Wr.touches, bits, F.snapBase_OFFSET]
  rw [hplain, writeField_takes ht (.inl rfl) rfl rfl, hat]

/-- Settles O52: field by field from the access codes, the refused write register by register, and REGISTER_WRITE by its address. -/
theorem registerFieldsFollowTheirCodes : Obligations.RegisterFieldsFollowTheirCodes := by
  unfold Obligations.RegisterFieldsFollowTheirCodes
  refine ⟨fun w f s h => ?readOnly, fun w f s ht ha hl hx => writeField_takes ht ha hl hx,
    fun w f s ha hl hx => writeField_reserved ha hl hx, fun w f s ha hl => writeField_locked ha hl s,
    fun w f s hl ha hw hs => writeField_lock_stays hl ha hw hs, fun w f s ht ha hw hs => writeField_w1c_bit ht ha hw hs,
    regWrite_keepsWhenRefused, fun who a v b d i s hf hp ha => exec_registerWrite_whole hf hp ha who v,
    fun who v s hf => ?snapBase, fun who half a v s h => exec_registerWrite_unserved h who v,
    fun who half a v s h => ?noPlace⟩
  case readOnly =>
    rcases h with h | h | h | h
    · exact writeField_readOnly w (.inl h) s
    · exact writeField_readOnly w (.inr (.inl h)) s
    · exact writeField_readOnly w (.inr (.inr h)) s
    · exact writeField_untouched h s
  case snapBase =>
    rw [exec_registerWrite_whole hf placeOf_snapBase (by decide +kernel), regWrite_snapBase]
  case noPlace =>
    exact execRegisterWrite_noRegister (fun b d i e => by simp [h] at e) who half v s

end Sys2Proof.Machine
end

section
/-!
SUPPORT. The state after reset (R21, R397): the straps of a package alone, against the statement that every field with one reset value for all its
instances reads its table's (O54).
-/
namespace Sys2Proof.Machine
open Sys2Proof

/-- After reset DEV_ID.HEAD reads 1: the CHAIN_HEAD strap of a package alone is asserted, which the reset value 0 of the table does not say. -/
theorem reset_get_devId_HEAD : State.reset.get F.devId_HEAD 0 = 1 := by
  have hne : F.devId_TAIL.key 0 ≠ F.devId_HEAD.key 0 := by simp [Fld.key_eq, F.devId_TAIL, F.devId_HEAD]
  rw [State.get, State.reset, mget, mfind_mput_ne _ _ hne, mfind_mput_same, Option.getD_some]

/-- Refutes O54: DEV_ID.HEAD is not among the fields whose reset value depends on the instance, and reads 1 where its table says 0. -/
theorem not_resetIsAsTheSpecLeavesIt : ¬ Obligations.ResetIsAsTheSpecLeavesIt := by
  unfold Obligations.ResetIsAsTheSpecLeavesIt
  rintro ⟨-, -, -, -, -, -, -, -, -, -, -, hreg⟩
  have hlisted : mfind regsReset (F.devId_HEAD.key 0) = none := by decide +kernel
  have hget := hreg F.devId_HEAD 0 hlisted
  rw [reset_get_devId_HEAD] at hget
  exact absurd hget (by decide)

end Sys2Proof.Machine
end

section
/-!
SUPPORT. Reads and writes by the system class (R26, R274, R315): a write of 8 bits that arrives through the network, against the statement that every
WR with aligned address writes its value (O15).
-/
set_option Elab.async false
namespace Sys2Proof.Machine
open Sys2Proof

/-- A core's WR of 8 bits, of value 7, to the control-core memory slot 0x1008: the mark beside the flit says that it is narrow (R315). -/
def narrowWrite : Flit :=
  { mkFlit 1 false (reqPay (BitVec.ofNat 48 (hubAddr 0x1008)) 7 2 0 true (3 * 2 ^ 7) 0) [] 8 0 nodeHub with side := ⟨0, 1, 0⟩ }

/-- The state after reset, with this request at its target. -/
def narrowWriteWaits : State := { State.reset with net := { State.reset.net with sysQ := [narrowWrite] } }

theorem takeSys_narrowWriteWaits : takeSys (· = 2) narrowWriteWaits = some (narrowWrite, State.reset) := rfl

/-- The narrow write is answered with an error response, and writes nothing. -/
theorem sysWrite_narrowWriteWaits (v : BitVec 64) :
    sysWrite none v 0 narrowWriteWaits = sysAnswer narrowWrite (.bad causeErr) State.reset := by
  have hbad : badReq narrowWrite = false := by decide +kernel
  have hnarrow : narrowWrite.narrow = true := by decide +kernel
  simp [sysWrite, takeSys_narrowWriteWaits, hbad, hnarrow]

/-- Refutes O15: its network WR has no premise on the size, and a narrow WR of the value 7 leaves the byte of its slot 0. -/
theorem not_systemReadsAndWritesReachMemory : ¬ Obligations.SystemReadsAndWritesReachMemory := by
  unfold Obligations.SystemReadsAndWritesReachMemory
  rintro ⟨-, -, -, hwr, -⟩
  have hplace : localOf State.reset (reqAddr narrowWrite.pay) % 8 = 0 ∧
      placeOf (localOf State.reset (reqAddr narrowWrite.pay)) = some .ctlMem := by decide +kernel
  obtain ⟨t, he, ht⟩ := hwr narrowWrite State.reset 0 narrowWriteWaits (by decide +kernel) takeSys_narrowWriteWaits (by decide +kernel)
    (by decide +kernel) hplace.1 hplace.2 (by decide +kernel)
  have hlive : narrowWriteWaits.fatal = false := by decide +kernel
  have hstep : sysAnswer narrowWrite (.bad causeErr) State.reset = t := by
    rw [← sysWrite_narrowWriteWaits 0]
    simpa [exec, execWr, unlessFatal, hlive] using he
  have hbyte : (sysAnswer narrowWrite (.bad causeErr) State.reset).readByte (localOf State.reset (reqAddr narrowWrite.pay)) = 0 := by
    decide +kernel
  have hfirst := (ht 0).1
  rw [← hstep] at hfirst
  exact absurd (hbyte.symm.trans hfirst) (by decide +kernel)

end Sys2Proof.Machine
end

section
/-!
SUPPORT. What every command keeps (O55, O60): the canonical form of memory and the six states of a cluster (R17). One relation `Keeps` says both, and
each function of the model that returns a state has a lemma that appends it to a path; the commands' lemma puts them together.
-/
set_option Elab.async false
namespace Sys2Proof.Machine
open Sys2Proof

/-! ### What no command breaks: the form of memory, and the six states of a cluster (R17) -/

/-- Every cluster is in one of the six states of R17. -/
def StatesLegal (s : State) : Prop := ∀ c : Fin 128, s.cState c ≤ 5

/-- From `s` to `t` the memory keeps its canonical form and the clusters keep to the states of R17. Each function of the model has a lemma
`Keeps.<function>`, which appends the function to such a path; the proof of each is the chain of the functions that its definition calls. -/
structure Keeps (s t : State) : Prop where
  mem : MemSound s → MemSound t
  states : StatesLegal s → StatesLegal t

/-- What is left of a canonical map, its keys still rising. -/
theorem mrise_filter {γ : Type} (p : Nat × γ → Bool) (m : List (Nat × γ)) (b : Nat) (h : mrise b m = true) : mrise b (m.filter p) = true := by
  induction m generalizing b with
  | nil => rfl
  | cons e m ih =>
    obtain ⟨k, w⟩ := e
    simp only [mrise, Bool.and_eq_true, decide_eq_true_eq] at h
    rw [List.filter_cons]
    split
    · simp only [mrise, Bool.and_eq_true, decide_eq_true_eq]
      exact ⟨h.1, ih _ h.2⟩
    · exact ih _ (mrise_mono m (k + 1) b h.2 (by omega))

/-- A canonical map stays canonical when entries are taken out. -/
theorem mwf_filter {γ : Type} [DecidableEq γ] (d : γ) (m : List (Nat × γ)) (p : Nat × γ → Bool) (h : mwf d m = true) :
    mwf d (m.filter p) = true := by
  simp only [mwf, Bool.and_eq_true, List.all_eq_true] at h ⊢
  exact ⟨mrise_filter p m 0 h.1, fun e he => h.2 e (List.mem_filter.1 he).1⟩

variable {s t u : State} {α β : Type}

theorem Keeps.refl (s : State) : Keeps s s := ⟨id, id⟩

theorem Keeps.trans (h : Keeps s t) (h' : Keeps t u) : Keeps s u := ⟨h'.mem ∘ h.mem, h'.states ∘ h.states⟩

/-- A change of any part of the state but memory and registers. -/
theorem Keeps.rest {pending : List Instr} {now : W} {era : BitVec 16} {ticks free : Nat} {net : NetSt} {bank : BankSt} {sched : SchedSt}
    {out : OutSt} {flt : FaultSt} {cl : ClusterSt} {staged : List Staged} {pcie : PcieSt} {ap : ApSt} {mc : McSt} {lens : LensSt}
    {chain : ChainSt} {sc : ScSt} {cc : CcSt} {port : PortSt} {pwr : PwrSt} {old : List (Nat × Nat)} (h : Keeps s t) :
    Keeps s ⟨pending, t.regs, t.mem, now, era, ticks, free, net, bank, sched, out, flt, cl, staged, pcie, ap, mc, lens, chain, sc, cc, port,
      pwr, old⟩ :=
  ⟨h.mem, h.states⟩

/-! ### The register fields -/

theorem Keeps.set {f : Fld} {i v : Nat} (h : Keeps s t) (hf : f.id ≠ F.clStatus_STATE.id := by decide) : Keeps s (t.set f i v) where
  mem := h.mem
  states hs c := by rw [State.cState, State.get_set_ne _ _ _ _ _ _ hf]; exact h.states hs c

theorem Keeps.inc {f : Fld} {i : Nat} (h : Keeps s t) (hf : f.id ≠ F.clStatus_STATE.id := by decide) : Keeps s (t.inc f i) := h.set hf

theorem Keeps.ite {c : Prop} [Decidable c] {a b : State} (ha : Keeps s a) (hb : Keeps s b) : Keeps s (if c then a else b) := by
  split <;> assumption

theorem Keeps.incSat {f : Fld} {i lim : Nat} (h : Keeps s t) (hf : f.id ≠ F.clStatus_STATE.id := by decide) : Keeps s (t.incSat f i lim) :=
  Keeps.ite (h.set hf) h

/-- A cluster moves to one of the six states. -/
theorem Keeps.setState {i v : Nat} (h : Keeps s t) (hv : v ≤ 5 := by decide) : Keeps s (t.set F.clStatus_STATE i v) where
  mem := h.mem
  states hs c := by
    rcases eq_or_ne i c with rfl | hc
    · rw [State.cState, State.get_set_same]; exact (Nat.mod_le _ _).trans hv
    · rw [State.cState, State.get_set_idx _ _ _ _ _ _ hc]; exact h.states hs c

/-- Where STATE stands among the fields of a register it is read-only, as R17 has it. -/
def StateReadOnly (fs : List Fld) : Prop := ∀ f ∈ fs, f.id = F.clStatus_STATE.id → f.acc = .ro

/-! ### The branches of a definition -/

theorem Keeps.dite {c : Prop} [Decidable c] {a : c → State} {b : ¬c → State} (ha : ∀ hc, Keeps s (a hc)) (hb : ∀ hc, Keeps s (b hc)) :
    Keeps s (if hc : c then a hc else b hc) := by
  split <;> apply_assumption

theorem Keeps.iteSnd {c : Prop} [Decidable c] {a b : α × State} (ha : Keeps s a.2) (hb : Keeps s b.2) : Keeps s (if c then a else b).2 := by
  split <;> assumption

theorem Keeps.diteSnd {c : Prop} [Decidable c] {a : c → α × State} {b : ¬c → α × State} (ha : ∀ hc, Keeps s (a hc).2)
    (hb : ∀ hc, Keeps s (b hc).2) : Keeps s (if hc : c then a hc else b hc).2 := by
  split <;> apply_assumption

theorem Keeps.iteSnd2 {c : Prop} [Decidable c] {a b : α × β × State} (ha : Keeps s a.2.2) (hb : Keeps s b.2.2) :
    Keeps s (if c then a else b).2.2 := by
  split <;> assumption

/-- The state beside an answer. -/
theorem Keeps.pair {a : α} (h : Keeps s t) : Keeps s (a, t).2 := h

theorem Keeps.pair2 {a : α} {b : β} (h : Keeps s t) : Keeps s (a, b, t).2.2 := h

/-- The state beside an answer, under the names of a match. -/
theorem Keeps.snd {r : α × State} {a : α} (h : Keeps s r.2) (e : r = (a, u)) : Keeps s u := by subst e; exact h

theorem Keeps.eqPair {a b : α} (h : Keeps s t) (e : (a, t) = (b, u)) : Keeps s u := by cases e; exact h

theorem Keeps.snd2 {r : α × β × State} {a : α} {b : β} (h : Keeps s r.2.2) (e : r = (a, b, u)) : Keeps s u := by subst e; exact h

theorem Keeps.foldl {g : State → α → State} {l : List α} (h : Keeps s t) (hg : ∀ {u : State} {a : α}, Keeps s u → Keeps s (g u a)) :
    Keeps s (l.foldl g t) := by
  induction l generalizing t with
  | nil => exact h
  | cons a l ih => exact ih (hg h)

/-- A path that the rest of a definition uses in several branches. -/
theorem Keeps.bind (h : Keeps s t) (k : Keeps s t → Keeps s u) : Keeps s u := k h

theorem Keeps.foldlMem {g : State → α → State} {l : List α} (h : Keeps s t)
    (hg : ∀ {u : State} {a : α}, a ∈ l → Keeps s u → Keeps s (g u a)) : Keeps s (l.foldl g t) := by
  induction l generalizing t with
  | nil => exact h
  | cons a l ih => exact ih (hg List.mem_cons_self h) fun ha => hg (List.mem_cons_of_mem _ ha)

theorem Keeps.foldlSnd {g : β × State → α → β × State} {l : List α} {r : β × State} (h : Keeps s r.2)
    (hg : ∀ {r : β × State} {a : α}, Keeps s r.2 → Keeps s (g r a).2) : Keeps s (l.foldl g r).2 := by
  induction l generalizing r with
  | nil => exact h
  | cons a l ih => exact ih (hg h)

theorem Keeps.getD {o : Option State} (h : Keeps s t) (ho : ∀ {u : State}, o = some u → Keeps s u) : Keeps s (o.getD t) := by
  cases o with
  | none => exact h
  | some u => exact ho rfl

theorem Keeps.onFabric {c : Nat} {f : State → State} (h : Keeps s t) (hf : ∀ {u : State}, Keeps s u → Keeps s (f u)) :
    Keeps s (onFabric c f t) :=
  Keeps.ite (hf h) h

theorem Keeps.unlessFatal {f : State → State} (h : Keeps s t) (hf : ∀ {u : State}, Keeps s u → Keeps s (f u)) : Keeps s (unlessFatal f t) :=
  Keeps.ite h (hf h)

/-! ### What the functions of Ops keep -/

/-- Every byte goes to memory through the canonical form (R25). -/
theorem Keeps.writeByte {a : ℕ} {v : BitVec 8} (h : Keeps s t) : Keeps s (t.writeByte a v) where
  mem hs := writeByte_wf t a v (h.mem hs)
  states := h.states

theorem Keeps.writeN {a v n : ℕ} (h : Keeps s t) : Keeps s (t.writeN a v n) := by
  induction n generalizing t a v with
  | zero => exact h
  | succ n ih => exact ih h.writeByte

theorem Keeps.writeSlot {a : ℕ} {v : W} (h : Keeps s t) : Keeps s (t.writeSlot a v) :=
  h.writeN

theorem Keeps.freeVal {w : ℕ} (h : Keeps s t) : Keeps s (t.freeVal w).2 :=
  h.rest.pair

theorem Keeps.msixPut {n : ℕ} (h : Keeps s t) : Keeps s (msixPut n t) :=
  h.rest

theorem Keeps.msixAsk {n : ℕ} (h : Keeps s t) : Keeps s (msixAsk n t) :=
  Keeps.ite h (Keeps.ite h.rest (Keeps.ite h h.msixPut))

theorem Keeps.raiseEvent {n : ℕ} (h : Keeps s t) : Keeps s (raiseEvent n t) :=
  Keeps.ite h.inc (Keeps.ite h.inc.set.msixAsk h.inc.set)

theorem Keeps.linkEvent (h : Keeps s t) : Keeps s (linkEvent t) :=
  h.set.raiseEvent

theorem Keeps.raiseAtBoundary {n : ℕ} (h : Keeps s t) : Keeps s (raiseAtBoundary n t) :=
  Keeps.ite h h.rest.raiseEvent

theorem Keeps.report {kind l detail : ℕ} {part : Option ℕ} {inj : Bool} (h : Keeps s t) : Keeps s (report kind l detail part inj t) :=
  Keeps.ite h h.rest

theorem Keeps.reportP {kind l detail p : ℕ} (h : Keeps s t) : Keeps s (reportP kind l detail p t) :=
  h.report

theorem Keeps.reportU {kind l detail : ℕ} (h : Keeps s t) : Keeps s (reportU kind l detail t) :=
  h.report

theorem Keeps.holdFault {kind l detail : ℕ} (h : Keeps s t) : Keeps s (holdFault kind l detail t) :=
  Keeps.ite h h.rest.report

theorem Keeps.dropFault {kind l : ℕ} (h : Keeps s t) : Keeps s (dropFault kind l t) :=
  h.rest

theorem Keeps.takeInjection {kinds : List ℕ} {l : ℕ} (h : Keeps s t) : Keeps s (takeInjection kinds l t).2 :=
  Keeps.iteSnd h.set.pair h

theorem Keeps.secded {kinds : List ℕ} {l natural : ℕ} (h : Keeps s t) :
    Keeps s (secded kinds l natural t).2.2 := by
  unfold Machine.secded
  split
  · rename_i e
    exact (h.takeInjection.snd e).pair2
  · rename_i e
    exact (h.takeInjection.snd e).pair2
  · rename_i e
    exact (h.takeInjection.snd e).pair2
  · rename_i e
    exact (h.takeInjection.snd e).pair2

theorem Keeps.setFree {f : Fld} {i : ℕ} (h : Keeps s t) (hf : f.id ≠ F.clStatus_STATE.id := by decide) : Keeps s (t.setFree f i) :=
  (h.freeVal (w := f.w)).set hf

theorem Keeps.setOr {f : Fld} {i : ℕ} {v : Option ℕ} (h : Keeps s t) (hf : f.id ≠ F.clStatus_STATE.id := by decide) :
    Keeps s (t.setOr f i v) := by
  cases v with
  | none => exact h.setFree hf
  | some v => exact h.set hf

theorem Keeps.microTrap {c pe cause : ℕ} {tag : W} {v : Saved} (h : Keeps s t) : Keeps s (microTrap c pe cause tag v t) := by
  unfold Machine.microTrap
  extract_lets i t₁ t₂ t₃ t₄ st
  have h₃ : Keeps s t₃ := h.inc.set.set.setOr
  have h₄ : Keeps s t₄ := by
    unfold t₄
    split
    · exact h₃.set
    · exact (h₃.freeVal (w := 3)).set
  exact h₄.setOr.setOr.setOr.setOr.setOr.foldl (·.setOr)

theorem Keeps.addCnt {p k n : ℕ} (h : Keeps s t) : Keeps s (addCnt p k n t) :=
  h.rest

theorem Keeps.countProd {p ep : ℕ} (h : Keeps s t) : Keeps s (countProd p ep t) :=
  h.addCnt.addCnt

theorem Keeps.countCons {p ep n : ℕ} (h : Keeps s t) : Keeps s (countCons p ep n t) :=
  h.addCnt.addCnt

theorem Keeps.countProg {p : ℕ} (h : Keeps s t) : Keeps s (countProg p t) :=
  h.addCnt

theorem Keeps.violation {c kind : ℕ} {value : W} {sys : Bool} {part init op bank : ℕ} (h : Keeps s t) :
    Keeps s (violation c kind value sys part init op bank t) :=
  Keeps.ite h.inc h.inc.set.set.set.set.set.set.set.set.set

theorem Keeps.discardToken {c : ℕ} {tag : W} {silent : Bool} (h : Keeps s t) : Keeps s (discardToken c tag silent t) :=
  h.violation.countCons.bind fun h3 => (Keeps.ite h3 h3.reportP)

/-! ### What the functions of Net keep -/

theorem Keeps.noteBreak {p : ℕ} (h : Keeps s t) : Keeps s (noteBreak p t) :=
  Keeps.ite h h.rest

theorem Keeps.startTimer {ret : ℕ} {addr : W} {op part : ℕ} {sys : Bool} {extra : ℕ} (h : Keeps s t) :
    Keeps s (startTimer ret addr op part sys extra t) :=
  h.rest

theorem Keeps.deliverRsp {f : Flit} (h : Keeps s t) :
    Keeps s (deliverRsp f t) := by
  unfold Machine.deliverRsp
  extract_lets
  split
  · exact Keeps.ite h h.inc
  · exact h.rest.bind fun h4 => (Keeps.ite (Keeps.ite h4 h4.inc) (Keeps.ite h4.rest h4.rest))

theorem Keeps.reqErr {l : ℕ} {f : Flit} (h : Keeps s t) : Keeps s (reqErr l f t) :=
  Keeps.ite h.reportU h.reportP

theorem Keeps.deliverOther {f : Flit} (h : Keeps s t) :
    Keeps s (deliverOther f t) := by
  unfold Machine.deliverOther
  refine Keeps.ite ?_ ?_
  · exact Keeps.ite h.rest h.deliverRsp
  · split <;> exact h.rest

theorem Keeps.enterNode {f : Flit} (h : Keeps s t) : Keeps s (enterNode f t) := by
  unfold Machine.enterNode
  dsimp only
  split
  · exact h.rest
  · exact Keeps.ite h.rest (Keeps.ite (Keeps.ite h.rest h.rest) h.deliverOther)

theorem Keeps.discardAt {n : ℕ} {tag : W} (h : Keeps s t) : Keeps s (discardAt n tag t) :=
  Keeps.ite h.discardToken h.countCons.reportP

theorem Keeps.holdTimer {f : Flit} (h : Keeps s t) : Keeps s (holdTimer f t) :=
  Keeps.ite h h.rest

theorem Keeps.leaveInit {f : Flit} (h : Keeps s t) : Keeps s (leaveInit f t).2 :=
  Keeps.iteSnd h (Keeps.iteSnd h h.rest.pair)

theorem Keeps.queueInject {f : Flit} (h : Keeps s t) : Keeps s (queueInject f t) :=
  h.rest.holdTimer

theorem Keeps.inject {f : Flit} (h : Keeps s t) : Keeps s (inject f t) :=
  Keeps.ite (Keeps.ite h.discardAt (Keeps.ite h (Keeps.ite h.queueInject h))) (Keeps.ite h.enterNode h.queueInject)

theorem Keeps.drainNode {n k : ℕ} (h : Keeps s t) : Keeps s (drainNode n k t) := by
  induction k generalizing t with
  | zero => exact h
  | succ k ih =>
    rw [Machine.drainNode]
    split
    · exact h
    · split
      rename_i e
      exact ih (h.rest.leaveInit.snd e).enterNode.noteBreak

theorem Keeps.send {f : Flit} (h : Keeps s t) : Keeps s (send f t) :=
  h.inject.drainNode

theorem Keeps.respond {n ret : ℕ} {poison : Bool} {status : ℕ} {data extra : W} {cls urg : ℕ} (h : Keeps s t) :
    Keeps s (respond n ret poison status data extra cls urg t) :=
  h.send

theorem Keeps.rawOf {f : Flit} {x : ℕ × BitVec 144} (h : Keeps s t) :
    Keeps s (rawOf f x t).2 := by
  unfold Machine.rawOf
  split
  rename_i e
  exact (h.freeVal.snd e).pair

theorem Keeps.rawsOf {f : Flit} {l : List (ℕ × BitVec 144)} (h : Keeps s t) : Keeps s (rawsOf f l t).2 := by
  induction l generalizing t with
  | nil => exact h
  | cons x l ih => exact ih (h.rawOf (f := f) (x := x))

theorem Keeps.dropFlit {n : ℕ} {raw : BitVec 160} {inj : Bool} (h : Keeps s t) : Keeps s (dropFlit n raw inj t) :=
  (Keeps.ite (Keeps.ite h.inc h.inc.set.set.set.set) h).report

theorem Keeps.corrFlit {n : ℕ} {inj : Bool} (h : Keeps s t) : Keeps s (corrFlit n inj t) :=
  (Keeps.ite h.inc h).report

theorem Keeps.flitChecks {n : ℕ} {f : Flit} {raws : List (BitVec 160)} {errs : List FlitErr} {l : List (ℕ × BitVec 144)} (h : Keeps s t) :
    Keeps s (flitChecks n f raws errs l t).2 := by
  induction l generalizing t raws errs with
  | nil => exact h
  | cons x l ih =>
    rw [Machine.flitChecks]
    split
    rename_i e
    have h1 := h.secded.snd2 e
    refine ih ?_
    split
    · split
      rename_i e'
      refine Keeps.dropFlit (Keeps.snd ?_ e')
      split
      · exact h1
      · split
        · exact h1
        · exact h1.rawOf
    · exact Keeps.ite h1.corrFlit h1

/-! ### What the functions of Operands keep -/

theorem Keeps.emitToken {c pe : ℕ} {t' : Token} (h : Keeps s t) : Keeps s (emitToken c pe t' t) :=
  h.countProd.bind fun h2 => (Keeps.ite h2.rest h2.send)

theorem Keeps.emitTo {c pe : ℕ} {base : W} {ctx : ℕ} {due data : W} {poison : Bool} {d : ℕ} (h : Keeps s t) :
    Keeps s (emitTo c pe base ctx due data poison d t) := by
  unfold Machine.emitTo
  refine Keeps.ite ?_ ?_
  · exact h
  · split
    · exact h.emitToken
    · exact h

theorem Keeps.emitAll {c pe : ℕ} {base : W} {ctx : ℕ} {due data : W} {poison : Bool} {ds : List ℕ} (h : Keeps s t) :
    Keeps s (emitAll c pe base ctx due data poison ds t) :=
  h.foldl (·.emitTo)

/-! ### What the functions of Match keep -/

theorem Keeps.setWay {c e : ℕ} {t' : Option Token} (h : Keeps s t) : Keeps s (t.setWay c e t') :=
  h.rest

theorem Keeps.putWord {b w : ℕ} {v : W} (h : Keeps s t) : Keeps s (t.putWord b w v) :=
  h.writeSlot.rest

theorem Keeps.readCheckFor {part : Option ℕ} {b w natural : ℕ} (h : Keeps s t) :
    Keeps s (readCheckFor part b w natural t).2 := by
  unfold Machine.readCheckFor
  extract_lets
  split
  rename_i e
  have h1 := (h.secded.snd2 e)
  exact Keeps.iteSnd h1.pair (Keeps.iteSnd h1.inc.rest.report.pair (h1.inc.set.bind fun h6 => (Keeps.ite h6 h6.rest).report.pair))

theorem Keeps.readCheck {b w natural : ℕ} (h : Keeps s t) : Keeps s (readCheck b w natural t).2 :=
  h.readCheckFor

theorem Keeps.putRec {c r k : ℕ} {v : W} (h : Keeps s t) : Keeps s (t.putRec c r k v) :=
  h.putWord

theorem Keeps.setControl {c r : ℕ} {poison enabled : Bool} {next : Option ℕ} (h : Keeps s t) : Keeps s (t.setControl c r poison enabled next) :=
  h.putRec

theorem Keeps.writeLinks {c : ℕ} {ch : List ℕ} (h : Keeps s t) : Keeps s (t.writeLinks c ch) := by
  induction ch generalizing t with
  | nil => exact h
  | cons r rs ih => exact ih h.setControl

theorem Keeps.setChain {c set : ℕ} {ch : List ℕ} (h : Keeps s t) : Keeps s (t.setChain c set ch) :=
  h.rest.writeLinks

theorem Keeps.freeRec {c r : ℕ} (h : Keeps s t) : Keeps s (t.freeRec c r) :=
  h.rest.putRec

theorem Keeps.upMarks {c : ℕ} (h : Keeps s t) : Keeps s (t.upMarks c) :=
  h.set.set.set

theorem Keeps.clearMarks {c : ℕ} (h : Keeps s t) : Keeps s (t.clearMarks c) :=
  h.set.set.set

theorem Keeps.freeSlot {x : Slot} (h : Keeps s t) : Keeps s (t.freeSlot x) :=
  h.rest

theorem Keeps.enableInstance {c pe : ℕ} {tag : W} {ops : List (ℕ × SlotOp)} {w : ℕ} (h : Keeps s t) :
    Keeps s (enableInstance c pe tag ops w t) :=
  h.rest

theorem Keeps.takeCand {c : ℕ} {x : Cand} (h : Keeps s t) :
    Keeps s (takeCand c x t) := by
  unfold Machine.takeCand
  split
  · exact h.rest
  · exact h.rest
  · exact h.setWay
  · exact h.setChain.freeRec

theorem Keeps.asRead {inj : Bool} {v w : ℕ} (h : Keeps s t) :
    Keeps s (asRead inj v w t).2 := by
  unfold Machine.asRead
  refine Keeps.iteSnd ?_ ?_
  · exact h
  · split
    rename_i e
    exact (h.freeVal.snd e).pair

theorem Keeps.checkWay {c e natural : ℕ} (h : Keeps s t) :
    Keeps s (checkWay c e natural t) := by
  unfold Machine.checkWay
  split
  · exact h
  · split
    rename_i e1
    have h3 := (h.secded.snd2 e1)
    refine Keeps.ite ?_ ?_
    · exact h3
    · refine Keeps.ite ?_ ?_
      · exact h3.report
      · refine Keeps.ite ?_ ?_
        · exact h3.setWay.countCons.report
        · split
          rename_i e2
          split
          rename_i e3
          split
          rename_i e4
          split
          rename_i e5
          exact ((((h3.setWay.countCons.report.asRead.snd e2).asRead.snd e3).asRead.snd e4).asRead.snd e5).set.set.set.set.set.set.set

theorem Keeps.spillInsert {c : ℕ} {x : Token} (h : Keeps s t) (e : spillInsert c x t = some u) : Keeps s u := by
  unfold Machine.spillInsert at e
  split at e
  · cases e
  · split at e
    · cases e
    · cases e
      exact h.putRec.putRec.putRec.setControl.rest.setChain.upMarks

theorem Keeps.beginHold {c : ℕ} {f : Fld} (h : Keeps s t) (hf : f.id ≠ F.clStatus_STATE.id := by decide) : Keeps s (beginHold c f t) :=
  (h.set hf).inc.raiseEvent

theorem Keeps.storeToken {c pe : ℕ} {t' : Token} (h : Keeps s t) :
    Keeps s (storeToken c pe t' t).2 := by
  unfold Machine.storeToken
  extract_lets
  split
  · exact h.setWay.upMarks.pair
  · split
    · rename_i e1
      exact (h.spillInsert e1).pair
    · exact (Keeps.ite h.rest h.rest.beginHold).pair

theorem Keeps.abandonChain {c set ep : ℕ} (h : Keeps s t) : Keeps s (abandonChain c set ep t) :=
  h.rest.countCons

theorem Keeps.recordSound {c r : ℕ} {nat : ℕ → ℕ} (h : Keeps s t) :
    Keeps s (recordSound c r nat t).2 := by
  unfold Machine.recordSound
  extract_lets
  split
  rename_i e
  have h1 := (h.readCheckFor.snd e)
  refine Keeps.iteSnd ?_ ?_
  · exact h1.pair
  · split
    rename_i e1
    have h2 := (h1.readCheckFor.snd e1)
    refine Keeps.iteSnd ?_ ?_
    · exact h2.pair
    · split
      rename_i e2
      exact (h2.readCheckFor.snd e2).pair

theorem Keeps.walkChain {c k : ℕ} {err : Option RecordErr} {rs : List ℕ} (h : Keeps s t) : Keeps s (walkChain c err k rs t).2 := by
  induction rs generalizing t k with
  | nil => unfold Machine.walkChain; exact h
  | cons r rs ih =>
    unfold Machine.walkChain
    split
    · rename_i e
      exact ih (h.recordSound.snd e)
    · rename_i e
      exact h.recordSound.snd e

theorem Keeps.lookup {c pe : ℕ} {x : Token} {w mask : ℕ} {err : LookupErr} (h : Keeps s t) : Keeps s (lookup c pe x w mask err t).2 := by
  unfold Machine.lookup
  extract_lets port set key single t₁ t₂ t₃ t₄ dupWay others
  have h₄ : Keeps s t₄ := h.checkWay.checkWay.checkWay.checkWay
  refine Keeps.iteSnd h.enableInstance.pair (Keeps.iteSnd h₄.discardToken.pair ?_)
  split
  rename_i e
  extract_lets t₅ chain dupRec found ops recs t₆ t₇ t₈
  have h₅ : Keeps s t₅ := Keeps.ite (h₄.walkChain.snd e) (h₄.walkChain.snd e).abandonChain
  have h₆ : Keeps s t₆ := h₅.foldl fun h => by
    split
    · exact h.setWay
    · exact h
  have h₇ : Keeps s t₇ := Keeps.ite h₆ h₆.setChain
  have h₈ : Keeps s t₈ := h₇.foldl (·.setControl)
  exact Keeps.iteSnd h₅.discardToken.pair (Keeps.iteSnd h₈.enableInstance.pair h₅.storeToken)

theorem Keeps.forwardToken {c : ℕ} {t' : Token} (h : Keeps s t) : Keeps s (forwardToken c t' t) :=
  h.inc.send

theorem Keeps.acceptToken {c pe : ℕ} {x : Token} {err : LookupErr} (h : Keeps s t) : Keeps s (acceptToken c pe x err t).2 := by
  unfold Machine.acceptToken
  extract_lets
  refine Keeps.iteSnd h.discardToken.pair (Keeps.iteSnd h.discardToken.pair (Keeps.iteSnd h.discardToken.pair ?_))
  refine Keeps.iteSnd h.countCons.pair (Keeps.iteSnd h.countCons.pair (Keeps.iteSnd h.forwardToken.countProg.pair ?_))
  refine Keeps.iteSnd h.discardToken.pair ?_
  split
  rename_i e
  have h1 := h.lookup.snd e
  exact (Keeps.ite h1.countProg h1).pair

theorem Keeps.readCand {c : ℕ} {x : Cand} {err : LookupErr} (h : Keeps s t) :
    Keeps s (readCand c x err t).2 := by
  unfold Machine.readCand
  split
  · exact h.checkWay.pair
  · split
    · rename_i e1
      exact (h.recordSound.snd e1).abandonChain.pair
    · rename_i e1
      split
      rename_i e2
      have h6 := ((h.recordSound.snd e1).readCheckFor.snd e2)
      exact Keeps.iteSnd h6.pair h6.pair
  · exact h

theorem Keeps.endSlotHold {k : ℕ} (h : Keeps s t) : Keeps s (endSlotHold k t) :=
  Keeps.ite h.rest h

theorem Keeps.endSpillHold {k : ℕ} (h : Keeps s t) : Keeps s (endSpillHold k t) :=
  Keeps.ite h.rest.noteBreak h

theorem Keeps.tokenAccept {c pe : ℕ} {err : LookupErr} (h : Keeps s t) : Keeps s (tokenAccept c pe err t) := by
  unfold Machine.tokenAccept
  refine Keeps.ite h (Keeps.ite h ?_)
  have h1 : Keeps s (Machine.endSpillHold (c * 16 + pe) t) := h.endSpillHold
  extract_lets
  split
  · exact h1.endSlotHold
  · refine Keeps.ite (Keeps.ite h1 h1.rest.beginHold) ?_
    split
    · rename_i e
      exact h1.endSlotHold.readCand.snd e
    · rename_i e
      split
      rename_i e'
      have h2 := (h1.endSlotHold.readCand.snd e).acceptToken.snd e'
      exact Keeps.ite h2 h2.takeCand.drainNode

theorem Keeps.spillRetry {c pe : ℕ} (h : Keeps s t) :
    Keeps s (spillRetry c pe t) := by
  unfold Machine.spillRetry
  split
  · exact h
  · refine Keeps.ite ?_ ?_
    · exact h
    · split
      · exact h
      · rename_i e1
        have h4 := (h.spillInsert e1)
        extract_lets
        split
        · exact h4.rest.countProg.takeCand.drainNode
        · exact h4.rest.countProg

/-! ### What the functions of Banks keep -/

theorem Keeps.setPresent {b w : ℕ} {v : Bool} (h : Keeps s t) : Keeps s (t.setPresent b w v) :=
  h.rest

theorem Keeps.setDefer {b : ℕ} {l : List Defer} (h : Keeps s t) : Keeps s (t.setDefer b l) :=
  h.rest

/-- An initialised bank lists nothing: the bytes outside it keep their order (R289). -/
theorem Keeps.initBank {b : ℕ} (h : Keeps s t) : Keeps s (initBank b t) where
  mem hs := mwf_filter _ _ _ (h.mem hs)
  states := h.states

theorem Keeps.failAccess {b kind : ℕ} {a : W} {sys : Bool} {part init op : ℕ} (h : Keeps s t) :
    Keeps s (failAccess b kind a sys part init op t) :=
  h.violation.report

theorem Keeps.answerWaiters {b w : ℕ} {v : W} (h : Keeps s t) : Keeps s (answerWaiters b w v t) :=
  Keeps.ite h.rest h

theorem Keeps.lostPresence {b w err : ℕ} (h : Keeps s t) : Keeps s (lostPresence b w err t) :=
  Keeps.ite h.inc.set.report.setPresent h

theorem Keeps.bankEffect {b : ℕ} {r : BReq} {err : ℕ} (h : Keeps s t) :
    Keeps s (bankEffect b r err t).2 := by
  unfold Machine.bankEffect
  extract_lets
  split
  · split
    rename_i e1
    have h2 := (h.readCheck.snd e1)
    exact Keeps.iteSnd h2.pair h2.pair
  · exact h.lostPresence.putWord.pair
  · split
    rename_i e1
    have h5 := (h.readCheck.snd e1)
    exact Keeps.iteSnd h5.pair (Keeps.iteSnd h5.pair (Keeps.iteSnd h5.set.report.pair h5.setDefer.pair))
  · exact Keeps.iteSnd h.inc.set.report.putWord.setPresent.answerWaiters.pair (Keeps.iteSnd h.report.pair h.putWord.setPresent.answerWaiters.pair)
  · exact (Keeps.ite h.inc.set.report.putWord h).setPresent.pair
  · split
    rename_i e1
    have h14 := (h.readCheck.snd e1)
    exact Keeps.iteSnd h14.pair h14.putWord.pair
  · split
    rename_i e1
    exact (h.readCheck.snd e1).putWord.bind fun h18 => (Keeps.iteSnd h18.pair h18.pair)
  · exact h

theorem Keeps.bankRead {b : ℕ} {full : Bool} {a err : ℕ} (h : Keeps s t) :
    Keeps s (bankRead b full a err t).2 := by
  unfold Machine.bankRead
  extract_lets
  split
  rename_i e
  have h1 := (h.readCheck.snd e)
  exact Keeps.iteSnd h1.pair h1.pair

theorem Keeps.bankWrite {b : ℕ} {full : Bool} {a v err : ℕ} (h : Keeps s t) : Keeps s (bankWrite b full a v err t) :=
  h.lostPresence.putWord

theorem Keeps.bankWords {init err c o : ℕ} {own : Option ℕ} {ws : List W} (h : Keeps s t) : Keeps s (bankWords init err c own o ws t).2 := by
  induction ws generalizing t o with
  | nil => exact h
  | cons v vs ih =>
    rw [Machine.bankWords]
    refine ih ?_
    split
    · exact h
    · split
      · exact h.failAccess
      · exact h.bankWrite

theorem Keeps.bankSystem {b init : ℕ} {r : BReq} {err : ℕ} (h : Keeps s t) :
    Keeps s (bankSystem b init r err t).2 := by
  unfold Machine.bankSystem
  refine Keeps.iteSnd ?_ ?_
  · exact h
  · refine Keeps.iteSnd ?_ ?_
    · exact h.bankRead
    · refine Keeps.iteSnd ?_ ?_
      · exact h.bankWrite.pair
      · extract_lets
        split
        rename_i e
        exact (h.bankWrite.bankWords.snd e).pair

theorem Keeps.bankAnswer {b : ℕ} {r : BReq} {a : BankAns} (h : Keeps s t) :
    Keeps s (bankAnswer b r a t) := by
  unfold Machine.bankAnswer
  split
  split
  · exact h.deliverRsp
  · exact h.respond

theorem Keeps.bankIssue {b : ℕ} {r : BReq} {err : ℕ} (h : Keeps s t) :
    Keeps s (bankIssue b r err t) := by
  unfold Machine.bankIssue
  refine Keeps.ite ?_ ?_
  · exact (Keeps.ite h.reportU h.reportP).bankAnswer
  · split
    · exact (Keeps.ite h h.failAccess).bankAnswer
    · split
      rename_i e1
      exact ((Keeps.iteSnd h.bankSystem h.bankEffect).snd e1).bankAnswer

theorem Keeps.refillBank {b n : ℕ} (h : Keeps s t) : Keeps s (refillBank b n t) := by
  induction n generalizing t with
  | zero => exact h
  | succ n ih =>
    rw [Machine.refillBank]
    refine Keeps.ite h ?_
    split
    · exact h
    · exact ih h.rest

theorem Keeps.sendAnswer {b : ℕ} {d : Defer} {poison : Bool} {v : W} (h : Keeps s t) : Keeps s (sendAnswer b d poison v t) :=
  Keeps.ite h.rest h.send

theorem Keeps.deferredReadAnswer {b : ℕ} (h : Keeps s t) :
    Keeps s (deferredReadAnswer b t) := by
  unfold Machine.deferredReadAnswer
  split
  · exact h
  · split
    · exact h.rest
    · exact (Keeps.ite h.setDefer h.setDefer.rest).sendAnswer

theorem Keeps.scrub {b err : ℕ} (h : Keeps s t) :
    Keeps s (scrub b err t) := by
  unfold Machine.scrub
  refine Keeps.ite ?_ ?_
  · extract_lets
    split
    rename_i e
    exact (h.readCheck.snd e).rest
  · exact h

theorem Keeps.correctedWriteback {b : ℕ} (h : Keeps s t) :
    Keeps s (correctedWriteback b t) := by
  unfold Machine.correctedWriteback
  split
  · exact h
  · exact h.putWord

theorem Keeps.failQueue {b : ℕ} (h : Keeps s t) : Keeps s (failQueue b t) :=
  (h.rest.foldl (·.failAccess.bankAnswer)).refillBank

theorem Keeps.bankOwnWrite {init b : ℕ} {owner : Option ℕ} {clr : Bool} (h : Keeps s t) :
    Keeps s (bankOwnWrite init b owner clr t).2 := by
  unfold Machine.bankOwnWrite
  refine Keeps.iteSnd ?_ ?_
  · exact h
  · split
    · exact h
    · exact Keeps.iteSnd h (Keeps.iteSnd h h.set.rest.setDefer.pair)

theorem Keeps.handoverComplete {b : ℕ} (h : Keeps s t) :
    Keeps s (handoverComplete b t) := by
  unfold Machine.handoverComplete
  split
  · exact h
  · exact Keeps.ite h (Keeps.ite h.initBank h).rest.setDefer.set.set

theorem Keeps.startMove {b target : ℕ} (h : Keeps s t) : Keeps s (startMove b target t) :=
  Keeps.ite h.rest.set.failQueue h.rest.set

theorem Keeps.bankPwrWrite {b st : ℕ} (h : Keeps s t) : Keeps s (bankPwrWrite b st t).2 :=
  Keeps.iteSnd h (Keeps.iteSnd h (Keeps.iteSnd h (Keeps.iteSnd h.set.pair h.set.startMove.pair)))

theorem Keeps.powerMoveComplete {b : ℕ} (h : Keeps s t) :
    Keeps s (powerMoveComplete b t) := by
  unfold Machine.powerMoveComplete
  split
  · exact h
  · exact (Keeps.ite h.initBank h).rest.set.set.bind fun h6 => (Keeps.ite h6 h6.startMove)

theorem Keeps.takeOffline {b : ℕ} (h : Keeps s t) : Keeps s (takeOffline b t) :=
  Keeps.ite h (h.setDefer.set.set.set.set.rest.failQueue.foldl (·.sendAnswer)).rest

/-! ### What the functions of Partition keep -/

theorem Keeps.countClusters {p : ℕ} (h : Keeps s t) : Keeps s (countClusters p t) :=
  h.set

theorem Keeps.releaseCluster {p c : ℕ} (h : Keeps s t) : Keeps s (releaseCluster p c t) :=
  h.rest.setState.set.noteBreak

theorem Keeps.giveUpCluster {p c : ℕ} (h : Keeps s t) : Keeps s (giveUpCluster p c t) :=
  Keeps.ite h.rest.set h.releaseCluster

theorem Keeps.markLost {p reason : ℕ} (h : Keeps s t) : Keeps s (markLost p reason t) :=
  h.set.set.raiseEvent

theorem Keeps.suspend {p : ℕ} (h : Keeps s t) : Keeps s (suspend p t) :=
  Keeps.ite h.rest.set.markLost h.rest

theorem Keeps.discardHeld {o : OutVal} (h : Keeps s t) : Keeps s (discardHeld o t) :=
  Keeps.ite h.respond h

theorem Keeps.discardHeldIf {p : OutVal → Bool} (h : Keeps s t) : Keeps s (discardHeldIf p t) :=
  h.rest.foldl (·.discardHeld)

theorem Keeps.dropReclaim {p : ℕ} (h : Keeps s t) : Keeps s (dropReclaim p t) :=
  h.rest.set

theorem Keeps.stopPartition {p : ℕ} (h : Keeps s t) : Keeps s (stopPartition p t) :=
  h.dropReclaim.set.set.discardHeldIf

theorem Keeps.haltPartition {p : ℕ} (h : Keeps s t) : Keeps s (haltPartition p t) :=
  (Keeps.ite h.markLost h.set).stopPartition

theorem Keeps.removeWork {p : ℕ} {cond : W → Bool} (h : Keeps s t) : Keeps s (removeWork p cond t).2 := by
  unfold Machine.removeWork
  extract_lets cs mine ways recs slots waits banks defers t₁ t₂ t₃ src t₄ t₅ n
  have h₁ : Keeps s t₁ := h.foldl (·.setWay.countCons)
  have h₂ : Keeps s t₂ := h₁.foldl (·.countCons.setChain.freeRec)
  have h₃ : Keeps s t₃ := h₂.foldl fun h => (h.countCons.foldl (·.freeRec)).freeSlot
  have h₅ : Keeps s t₅ := h₃.rest.foldl (·.setDefer)
  exact h₅.noteBreak.pair

theorem Keeps.sourceRate {id p : ℕ} (h : Keeps s t) :
    Keeps s (sourceRate id p t) := by
  unfold Machine.sourceRate
  split
  · exact h
  · exact Keeps.ite h.rest.report h.rest

/-! ### What the functions of Graph keep -/

theorem Keeps.setSticky {p : ℕ} {st : Stk} (h : Keeps s t) : Keeps s (setSticky p st t) := by
  have one {k : ℕ} {f : Fld} {u : State} (h : Keeps s u) (hf : f.id ≠ F.clStatus_STATE.id := by decide) :
      Keeps s (if st.toNat / 2 ^ k % 2 = 1 then u.set f p 1 else u) := Keeps.ite (h.set hf) h
  exact one (one (one (one (one (one (one h))))))

theorem Keeps.lateFiring {c : ℕ} {tag due : W} (h : Keeps s t) : Keeps s (lateFiring c tag due t) :=
  Keeps.ite h.inc h.inc.set.set.set.set

theorem Keeps.readRecord {c pe r err : ℕ} {tag : W} (h : Keeps s t) : Keeps s (readRecord c pe r err tag t).2 := by
  unfold Machine.readRecord
  extract_lets
  split
  rename_i e
  refine Keeps.iteSnd ?_ ?_ <;> exact (h.readCheck.snd e).freeRec.microTrap.pair

theorem Keeps.readPort {c pe : ℕ} {tag : W} {w bit : ℕ} {o : Option SlotOp} {err : ℕ} (h : Keeps s t) :
    Keeps s (readPort c pe tag w bit o err t).2 := by
  unfold Machine.readPort
  split
  · split
    · exact h.readRecord
    · exact h
  · exact h

theorem Keeps.emit {f : Firing} {v : W} {poison : Bool} {ds : List ℕ} (h : Keeps s t) : Keeps s (f.emit v poison ds t) :=
  h.emitAll

theorem Keeps.illegal {f : Firing} (h : Keeps s t) : Keeps s (illegal f t) :=
  h.emit.reportP

theorem Keeps.machineCheck {f : Firing} {upc : ℕ} {disp nested inj : Bool} {groups : Option ℕ} {ds : List ℕ} (h : Keeps s t) :
    Keeps s (machineCheck f upc disp nested inj groups ds t) := by
  unfold Machine.machineCheck
  exact (h.emit.foldl (·.set)).set.inc.bind fun h10 => (Keeps.ite h10 h10.set.set.set.setOr.set).set.rest.report.suspend

theorem Keeps.discardSlot {x : Slot} {inj : Bool} (h : Keeps s t) : Keeps s (discardSlot x inj t) :=
  (h.freeSlot.foldl (·.freeRec)).countCons.report.noteBreak

theorem Keeps.runHandler {e : PassErr} {cause : ℕ} {f : Firing} {ds : List ℕ} (h : Keeps s t) :
    Keeps s (runHandler e cause f ds t) := by
  unfold Machine.runHandler
  split
  · exact h.machineCheck
  · exact h

theorem Keeps.arithmetic {e : PassErr} {f : Firing} {st : Stk} (h : Keeps s t) : Keeps s (arithmetic e f st t) :=
  h.setSticky.bind fun h2 => (Keeps.ite h2.microTrap.raiseEvent.runHandler h2)

theorem Keeps.stdPass {c : ℕ} {e : PassErr} (h : Keeps s t) :
    Keeps s (stdPass c e t).2 := by
  unfold Machine.stdPass
  split
  · rename_i e
    split
    rename_i e1
    exact ((h.takeInjection.snd e).freeVal.snd e1).pair
  · rename_i e
    exact (h.takeInjection.snd e).pair

theorem Keeps.stdGoOn {e : PassErr} {f : Firing} {ds : List ℕ} {k : State → State} (h : Keeps s t)
    (hk : ∀ {u : State}, Keeps s u → Keeps s (k u)) :
    Keeps s (stdGoOn e f ds k t) := by
  unfold Machine.stdGoOn
  split
  · rename_i e
    exact (h.stdPass.snd e).machineCheck
  · rename_i e
    exact hk (h.stdPass.snd e)

theorem Keeps.handlerTrap {f : Firing} {cause : ℕ} (h : Keeps s t) : Keeps s (handlerTrap f cause t) :=
  h.microTrap

theorem Keeps.beginFire {x : Slot} {w : ℕ} {err : FireErr} (h : Keeps s t) : Keeps s (beginFire x w err t).2 := by
  unfold Machine.beginFire
  extract_lets c pe p held
  split
  rename_i e
  have h₀ := h.secded.snd2 e
  refine Keeps.iteSnd h₀.discardSlot.pair ?_
  extract_lets t₁ t₂ t₃
  have h₃ : Keeps s t₃ := (Keeps.ite h₀.report h₀).freeSlot.countCons.countProg
  split
  extract_lets ended
  have hend {g : State → State} (hg : ∀ {u : State}, Keeps s u → Keeps s (g u)) : Keeps s (ended g).2 :=
    hg ((Keeps.ite h₃.lateFiring h₃).foldl (·.freeRec))
  clear_value ended
  refine Keeps.iteSnd (hend (·.illegal)) (Keeps.iteSnd (hend (·.machineCheck)) (Keeps.iteSnd (hend (·.illegal)) ?_))
  extract_lets
  split
  rename_i e'
  have h₄ := h₃.takeInjection.snd e'
  extract_lets inj fails check
  have hcheck {f : Firing} {n : ℕ} {u : State} (h : Keeps s u) : Keeps s (check f n u) := h.machineCheck
  clear_value check
  split
  · exact hend fun h => hcheck h.handlerTrap
  · split
    rename_i el
    split
    rename_i er
    split
    rename_i eg
    have h₅ := ((h₄.readPort.snd el).readPort.snd er).readPort.snd eg
    split
    extract_lets t₆
    have h₆ : Keeps s t₆ := Keeps.ite h₅.lateFiring h₅
    refine Keeps.iteSnd ?_ (Keeps.iteSnd (hcheck h₆).pair (Keeps.iteSnd h₆.pair ?_))
    · split
      · exact (hcheck h₆.handlerTrap).pair
      · exact h₆.pair
    · split
      · exact h₆.machineCheck.pair
      · exact h₆.pair

theorem Keeps.poisonTrap {f : Firing} (h : Keeps s t) : Keeps s (poisonTrap f t) :=
  h.handlerTrap

theorem Keeps.poisonOut {f : Firing} {cause : W} {ds : List ℕ} (h : Keeps s t) : Keeps s (poisonOut f cause ds t) :=
  h.poisonTrap.emit

theorem Keeps.fireWith {cls : OpClass} {c pe : ℕ} {err : FireErr} {body : Firing → State → State} (h : Keeps s t)
    (hbody : ∀ {y : Firing} {u : State}, Keeps s u → Keeps s (body y u)) :
    Keeps s (fireWith cls c pe err body t) := by
  unfold Machine.fireWith
  refine Keeps.ite ?_ ?_
  · exact h
  · split
    · exact h
    · refine Keeps.ite ?_ ?_
      · exact h
      · split
        · rename_i e1
          exact h.beginFire.snd e1
        · rename_i e1
          exact hbody (h.beginFire.snd e1)

theorem Keeps.computeBody {e : PassErr} {f : Firing} (h : Keeps s t) :
    Keeps s (computeBody e f t) := by
  unfold Machine.computeBody
  split
  · exact h.poisonOut
  · split
    · exact h.emit.arithmetic
    · exact h

theorem Keeps.passOn {f : Firing} {v : W × Bool} {ds : List ℕ} (h : Keeps s t) : Keeps s (passOn f v ds t) :=
  Keeps.ite h.poisonOut h.emit

theorem Keeps.switchBody {f : Firing} (h : Keeps s t) : Keeps s (switchBody f t) :=
  Keeps.ite h.poisonOut h.passOn

theorem Keeps.mergeBody {arrived : Bool} {f : Firing} (h : Keeps s t) : Keeps s (mergeBody arrived f t) :=
  h.passOn

theorem Keeps.gateBody {f : Firing} (h : Keeps s t) : Keeps s (gateBody f t) :=
  Keeps.ite h.poisonOut (Keeps.ite h.passOn (Keeps.ite h.poisonTrap h))

theorem Keeps.selBody {f : Firing} (h : Keeps s t) :
    Keeps s (selBody f t) := by
  unfold Machine.selBody
  extract_lets
  split
  · exact h.emit
  · exact Keeps.ite h.poisonOut h.poisonTrap.emit

theorem Keeps.constBody {f : Firing} (h : Keeps s t) : Keeps s (constBody f t) :=
  h.passOn

theorem Keeps.sinkBody {f : Firing} (h : Keeps s t) : Keeps s (sinkBody f t) :=
  Keeps.ite h.poisonTrap h

theorem Keeps.prismBody {f : Firing} (h : Keeps s t) : Keeps s (prismBody f t) :=
  h.passOn

theorem Keeps.linkBody {f : Firing} (h : Keeps s t) : Keeps s (linkBody f t) :=
  h.passOn

theorem Keeps.nowBody {f : Firing} (h : Keeps s t) : Keeps s (nowBody f t) :=
  h.passOn

theorem Keeps.dueBody {f : Firing} (h : Keeps s t) : Keeps s (dueBody f t) :=
  h.passOn

theorem Keeps.tightenBody {f : Firing} (h : Keeps s t) : Keeps s (tightenBody f t) :=
  h.passOn

theorem Keeps.nextBody {f : Firing} (h : Keeps s t) : Keeps s (nextBody f t) :=
  (Keeps.ite h.poisonTrap h).emitAll

theorem Keeps.allocBody {f : Firing} (h : Keeps s t) :
    Keeps s (allocBody f t) := by
  unfold Machine.allocBody
  split
  · exact h.poisonOut
  · extract_lets
    split
    · exact h.emit.reportP
    · exact h.rest

theorem Keeps.freeBody {f : Firing} (h : Keeps s t) :
    Keeps s (freeBody f t) := by
  unfold Machine.freeBody
  split
  · exact h.poisonTrap
  · refine Keeps.ite ?_ ?_
    · exact h.reportP
    · split
      · exact h.reportP
      · exact h.send

theorem Keeps.retBody {f : Firing} (h : Keeps s t) :
    Keeps s (retBody f t) := by
  unfold Machine.retBody
  refine Keeps.ite ?_ ?_
  · exact h.poisonTrap
  · extract_lets
    split
    · exact (Keeps.ite h.poisonTrap h).reportP
    · exact (Keeps.ite h.poisonTrap h).emitToken

theorem Keeps.holdSeq {f : Firing} {m : Option MicroSt} (h : Keeps s t) : Keeps s (holdSeq f m t) :=
  h.rest

theorem Keeps.allocGrant {r p q : ℕ} {e : PassErr} (h : Keeps s t) :
    Keeps s (allocGrant r p q e t) := by
  unfold Machine.allocGrant
  extract_lets
  split
  · exact Keeps.ite h (h.rest.set.countProg.stdGoOn (·.emitTo))
  · exact h

theorem Keeps.applyRelease {p ctx g c : ℕ} (h : Keeps s t) :
    Keeps s (applyRelease p ctx g c t) := by
  unfold Machine.applyRelease
  extract_lets
  split
  · exact h.reportP
  · exact Keeps.ite h.reportP h.rest

theorem Keeps.releaseStep (h : Keeps s t) :
    Keeps s (releaseStep t) := by
  unfold Machine.releaseStep
  split
  · exact h
  · exact Keeps.ite h.rest.reqErr h.rest.applyRelease

theorem Keeps.parkFiring {f : Firing} {e : ℕ} {addr : W} (h : Keeps s t) : Keeps s (parkFiring f e addr t) :=
  h.rest

theorem Keeps.bankRequest {c pe op : ℕ} {tag due a d : W} {ret : ℕ} (h : Keeps s t) : Keeps s (bankRequest c pe op tag due a d ret t) :=
  h.startTimer.bind fun h2 => (Keeps.ite h2.rest h2.send)

theorem Keeps.bankBody {op : ℕ} {f : Firing} (h : Keeps s t) (e : bankBody op f t = some u) : Keeps s u := by
  unfold Machine.bankBody at e
  split at e
  · cases e
    exact h.poisonOut
  · dsimp only at e
    split at e
    · cases e
      exact h.emit.reportP
    · obtain ⟨p, -, rfl⟩ := Option.map_eq_some_iff.1 e
      exact h.parkFiring.bankRequest

theorem Keeps.fireParking {cls : OpClass} {c pe : ℕ} {err : FireErr} {body : Firing → State → Option State} (h : Keeps s t)
    (hbody : ∀ {f : Firing} {u v : State}, Keeps s u → body f u = some v → Keeps s v) : Keeps s (fireParking cls c pe err body t) := by
  unfold Machine.fireParking
  split
  · exact Keeps.ite h (Keeps.ite h.rest (h.rest.stdGoOn fun h => h.getD (hbody h)))
  · refine Keeps.ite h ?_
    split
    · exact h
    · refine Keeps.ite h ?_
      split
      · rename_i e
        exact h.beginFire.snd e
      · rename_i e
        exact (h.beginFire.snd e).holdSeq.getD (hbody (h.beginFire.snd e))

theorem Keeps.lensBody {timeAt : Bool} {f : Firing} (h : Keeps s t) (e : lensBody timeAt f t = some u) : Keeps s u := by
  unfold Machine.lensBody at e
  split at e
  · cases e
    exact h.poisonOut
  · obtain ⟨p, -, rfl⟩ := Option.map_eq_some_iff.1 e
    exact h.parkFiring.startTimer.send

theorem Keeps.outBody {emitAt : Bool} {f : Firing} (h : Keeps s t) (e : outBody emitAt f t = some u) : Keeps s u := by
  unfold Machine.outBody at e
  split at e
  · cases e
    exact h.poisonOut
  · obtain ⟨p, -, rfl⟩ := Option.map_eq_some_iff.1 e
    exact (Keeps.ite h.parkFiring.startTimer h).send

/-! ### What the functions of Micro keep -/

theorem Keeps.uRead {f : Firing} {m : MicroSt} {w code : ℕ} (h : Keeps s t) :
    Keeps s (uRead f m w code t).2 := by
  unfold Machine.uRead
  split
  · exact h
  · exact h.freeVal

theorem Keeps.freeBool (h : Keeps s t) :
    Keeps s (freeBool t).2 := by
  unfold Machine.freeBool
  split
  rename_i e
  exact (h.freeVal.snd e).pair

theorem Keeps.orFree {o : Option Bool} (h : Keeps s t) :
    Keeps s (orFree o t).2 := by
  unfold Machine.orFree
  split
  · exact h
  · exact h.freeBool

theorem Keeps.uCondition {f : Firing} {m : MicroSt} {w : ℕ} {alu : Option AR} {carry ovf : Option Bool} {unit : Option AR} (h : Keeps s t) :
    Keeps s (uCondition f m w alu carry ovf unit t).2 := by
  unfold Machine.uCondition
  split
  · exact h
  · exact h.orFree
  · exact h.orFree
  · exact h.orFree
  · exact h.orFree
  · split
    rename_i e1
    exact (h.uRead.snd e1).pair
  · exact h.orFree
  · exact h.orFree
  · exact h.orFree

theorem Keeps.uEmitTo {f : Firing} {m : MicroSt} {v : W} {poison : Bool} {ds : List (ℕ × ℕ)} (h : Keeps s t) :
    Keeps s (uEmitTo f m v poison ds t).2 :=
  h.emit.pair

theorem Keeps.uToken {f : Firing} {m : MicroSt} {w : ℕ} {res : Option W} (h : Keeps s t) : Keeps s (uToken f m w res t).2 := by
  unfold Machine.uToken
  split
  · refine Keeps.iteSnd ?_ h.uRead.pair
    split
    · exact h
    · exact (h.freeVal (w := 48)).pair
  · split
    · exact h
    · exact h
    · exact (h.freeVal (w := 48)).pair
  · split
    rename_i e
    refine Keeps.snd ?_ e
    split
    · exact h
    · exact (h.freeVal (w := 48)).pair

theorem Keeps.uEmission {f : Firing} {m : MicroSt} {w : ℕ} {res : Option W} (h : Keeps s t) :
    Keeps s (uEmission f m w res t).2 := by
  unfold Machine.uEmission
  refine Keeps.iteSnd ?_ ?_
  · exact h
  · split
    rename_i e
    exact (h.uToken.snd e).uEmitTo

theorem Keeps.parkUser {f : Firing} {m : MicroSt} {e : ℕ} {addr : W} {detached : Bool} (h : Keeps s t) : Keeps s (parkUser f m e addr detached t) :=
  h.rest

theorem Keeps.uSend {fl : Flit} {f : Firing} {ret : ℕ} {a : W} {op : ℕ} (h : Keeps s t) : Keeps s (uSend fl f ret a op t) :=
  h.startTimer.send

theorem Keeps.uRequest {f : Firing} {m : MicroSt} {w : ℕ} {q d : W} {r : UReq} (h : Keeps s t) (e : uRequest f m w q d t = some (r, u)) :
    Keeps s u := by
  unfold Machine.uRequest at e
  extract_lets n wait urg sent at e
  split at e
  · cases e
    exact h
  · split at e
    · split at e
      · cases e
        exact h.reportP
      · obtain ⟨p, -, e⟩ := Option.map_eq_some_iff.1 e
        exact h.parkUser.bankRequest.eqPair e
    · split at e
      · split at e
        · cases e
          exact h.reportP
        · obtain ⟨p, -, e⟩ := Option.map_eq_some_iff.1 e
          exact h.parkUser.uSend.eqPair e
      · split at e
        · cases e
          exact h.reportP
        · obtain ⟨p, -, e⟩ := Option.map_eq_some_iff.1 e
          exact (Keeps.ite h.parkUser.uSend h.send).eqPair e

theorem Keeps.setGathered {f : Firing} {m : MicroSt} (h : Keeps s t) : Keeps s (setGathered f m t).2 :=
  h.setSticky.pair

theorem Keeps.userMachineCheck {f : Firing} {m : MicroSt} {u' : ℕ} {nested inj : Bool} {groups : Option ℕ} (h : Keeps s t) :
    Keeps s (userMachineCheck f m u' nested inj groups t) :=
  h.setGathered.machineCheck

theorem Keeps.badMicroword {e : PassErr} {f : Firing} {m : MicroSt} (h : Keeps s t) :
    Keeps s (badMicroword e f m t) := by
  unfold Machine.badMicroword
  extract_lets
  split
  · exact h.microTrap.userMachineCheck
  · exact h.microTrap.emit.setGathered.reportP

theorem Keeps.detachPark {f : Firing} (h : Keeps s t) : Keeps s (detachPark f t) :=
  h.rest

theorem Keeps.uStep {f : Firing} {m : MicroSt} {w : ℕ} {r : UStep} (h : Keeps s t) (e : uStep f m w t = some (r, u)) : Keeps s u := by
  unfold Machine.uStep at e
  split at e
  rename_i ea
  split at e
  rename_i eb
  split at e
  rename_i exa
  split at e
  rename_i exb
  split at e
  rename_i exc
  split at e
  rename_i eq
  have h₁ := (((((h.uRead.snd ea).uRead.snd eb).uRead.snd exa).uRead.snd exb).uRead.snd exc).uRead.snd eq
  extract_lets at e
  split at e
  rename_i ec
  split at e
  rename_i ee
  have h₂ := (h₁.uCondition.snd ec).uEmission.snd ee
  extract_lets at e
  split at e
  rename_i em
  have h₃ := (Keeps.iteSnd (h₂.freeVal (w := 48)).pair h₂.pair).snd em
  extract_lets at e
  split at e
  rename_i eg
  have h₄ := (Keeps.iteSnd h₃.setGathered h₃.pair).snd eg
  extract_lets at e
  obtain ⟨⟨q, v⟩, eq, e⟩ := Option.map_eq_some_iff.1 e
  have h₅ := (Keeps.ite h₄.microTrap.raiseEvent h₄).uRequest eq
  cases q <;> exact h₅.eqPair e

theorem Keeps.uRun {err : PassErr} {f : Firing} {n : ℕ} {m : MicroSt} (h : Keeps s t) : Keeps s (uRun err f n m t) := by
  induction n generalizing t m with
  | zero => exact h
  | succ n ih =>
    rw [Machine.uRun]
    refine Keeps.ite h.userMachineCheck (Keeps.ite h.badMicroword ?_)
    split
    · exact h.holdSeq
    · rename_i e
      have h1 := h.uStep e
      split
      · exact (Keeps.ite h1.detachPark h1).userMachineCheck
      · exact ih h1
      · exact h1

theorem Keeps.uStart {f : Firing} {upc : ℕ} (h : Keeps s t) :
    Keeps s (uStart f upc t).2 := by
  unfold Machine.uStart
  split
  rename_i e
  split
  rename_i e1
  split
  rename_i e2
  split
  rename_i e3
  exact ((((h.freeVal.snd e).freeVal.snd e1).freeVal.snd e2).freeVal.snd e3).pair

theorem Keeps.userBody {e : PassErr} {f : Firing} (h : Keeps s t) :
    Keeps s (userBody e f t) := by
  unfold Machine.userBody
  split
  · exact h.poisonOut
  · split
    rename_i e1
    exact (h.uStart.snd e1).uRun

theorem Keeps.userResume {f : Firing} {m : MicroSt} {e : PassErr} (h : Keeps s t) :
    Keeps s (userResume f m e t) := by
  unfold Machine.userResume
  split
  · rename_i e
    exact (h.takeInjection.snd e).userMachineCheck
  · rename_i e
    exact (h.takeInjection.snd e).uRun

theorem Keeps.continueUser {c pe : ℕ} {e : PassErr} (h : Keeps s t) :
    Keeps s (continueUser c pe e t) := by
  unfold Machine.continueUser
  split
  · exact h
  · split
    · exact Keeps.ite h.rest.userResume h
    · exact h

theorem Keeps.resumeStandard {p : Park} {v extra : W} {poison : Bool} (h : Keeps s t) :
    Keeps s (resumeStandard p v extra poison t) := by
  unfold Machine.resumeStandard
  refine Keeps.ite ?_ ?_
  · exact h.emit
  · split
    · exact h.emit.emit
    · exact h.emit.emit
    · exact h.emit
    · exact h.emit
    · exact h.emit
    · exact h.emit
    · exact h.emit
    · exact h.emit

theorem Keeps.stdResume {p : Park} {v extra : W} {poison : Bool} {e : PassErr} (h : Keeps s t) : Keeps s (stdResume p v extra poison e t) :=
  h.stdGoOn (·.resumeStandard)

theorem Keeps.deferTrap {e : PassErr} {p : Park} (h : Keeps s t) :
    Keeps s (deferTrap e p t) := by
  unfold Machine.deferTrap
  extract_lets
  split
  · refine Keeps.ite ?_ ?_
    · extract_lets
      split
      · exact h.microTrap.userMachineCheck
      · exact h.microTrap
    · exact h
  · exact h.microTrap.runHandler

theorem Keeps.response {c pe : ℕ} {err : PassErr} (h : Keeps s t) :
    Keeps s (response c pe err t) := by
  unfold Machine.response
  split
  · exact h
  · extract_lets
    split
    · exact h.rest.inc
    · refine Keeps.ite ?_ ?_
      · exact h
      · refine Keeps.ite ?_ ?_
        · exact h.rest.rest.countCons
        · refine Keeps.ite ?_ ?_
          · exact h.rest.rest.countProg.deferTrap
          · refine Keeps.ite ?_ ?_
            · exact h.rest.rest.countProg
            · split
              · exact h.rest.rest.countProg.stdResume
              · exact h.rest.rest.countProg.userResume

theorem Keeps.reentryOperand {w bit : ℕ} (h : Keeps s t) : Keeps s (reentryOperand w bit t).2 :=
  Keeps.iteSnd h h.freeVal

theorem Keeps.deferredAnswer {c pe : ℕ} {err : PassErr} (h : Keeps s t) :
    Keeps s (deferredAnswer c pe err t) := by
  unfold Machine.deferredAnswer
  refine Keeps.ite ?_ ?_
  · exact h
  · split
    · exact h
    · refine Keeps.ite ?_ ?_
      · exact h.rest.countCons
      · extract_lets
        split
        rename_i e1
        split
        rename_i e2
        split
        rename_i e3
        have h19 := (((h.rest.countProg.reentryOperand.snd e1).reentryOperand.snd e2).reentryOperand.snd e3)
        exact Keeps.ite h19.machineCheck (Keeps.ite h19.userResume (h19.stdGoOn (·.emit)))

theorem Keeps.dropDirect {c pe : ℕ} (h : Keeps s t) : Keeps s (dropDirect c pe t) :=
  h.rest

theorem Keeps.endPresented {p : Park} {ret : ℕ} (h : Keeps s t) : Keeps s (endPresented p ret t) :=
  h.dropDirect.rest

theorem Keeps.retryTrap {b : ℕ} {e : PePass} {r : BReq} (h : Keeps s t) :
    Keeps s (retryTrap b e r t) := by
  unfold Machine.retryTrap
  extract_lets
  split
  · exact h
  · refine Keeps.ite ?_ ?_
    · extract_lets
      split
      · exact h.microTrap.endPresented.runHandler
      · exact h.microTrap
    · exact h

theorem Keeps.bankOperation {b : ℕ} {direct : Bool} {err : BankErr} (h : Keeps s t) :
    Keeps s (bankOperation b direct err t) := by
  unfold Machine.bankOperation
  refine Keeps.ite ?_ ?_
  · split
    · exact h
    · exact (h.foldl (·.retryTrap)).bind fun h5 => (Keeps.ite h5.retryTrap h5.dropDirect.bankIssue)
  · split
    · exact h
    · exact Keeps.ite h h.rest.bankIssue.refillBank

/-! ### What the functions of Deadlock keep -/

theorem Keeps.reportCounts {p : ℕ} (h : Keeps s t) : Keeps s (reportCounts p t) :=
  (Keeps.ite h.set.set.set.report h.set.set.set).bind fun h7 => ((Keeps.ite h7.set h7).bind fun h6 => (Keeps.ite h6 h6.rest))

theorem Keeps.startReclaim {p : ℕ} (h : Keeps s t) :
    Keeps s (startReclaim p t) := by
  unfold Machine.startReclaim
  split
  · exact h.haltPartition.report
  · exact Keeps.ite h.rest h.rest.set

theorem Keeps.declare {p : ℕ} (h : Keeps s t) :
    Keeps s (declare p t) := by
  unfold Machine.declare
  refine Keeps.ite ?_ ?_
  · exact h.set.inc.set.set.set.set.set.raiseEvent.haltPartition.report
  · split
    · exact h.set.inc.set.set.set.set.set.raiseEvent.startReclaim
    · exact h.set.inc.set.set.set.set.set.raiseEvent.haltPartition
    · exact h.set.inc.set.set.set.set.set.raiseEvent

theorem Keeps.evaluate {p : ℕ} (h : Keeps s t) : Keeps s (evaluate p t) :=
  Keeps.ite h (Keeps.ite h.rest.declare h.rest)

theorem Keeps.reclaimNotice {p : ℕ} {b : Block} {win : ℕ} (h : Keeps s t) : Keeps s (reclaimNotice p b win t) :=
  Keeps.ite h h.countProd.send

theorem Keeps.sweepEnd {p : ℕ} (h : Keeps s t) :
    Keeps s (sweepEnd p t) := by
  unfold Machine.sweepEnd
  split
  · exact h
  · extract_lets
    split
    rename_i e1
    exact (h.removeWork.snd e1).rest.set.set.set.set.set.inc.set.reclaimNotice

theorem Keeps.filterExpiry {p : ℕ} (h : Keeps s t) :
    Keeps s (filterExpiry p t) := by
  unfold Machine.filterExpiry
  split
  · exact h
  · exact Keeps.ite h (Keeps.ite h.rest.startReclaim h.rest)

theorem Keeps.emptyCluster {c : ℕ} (h : Keeps s t) : Keeps s (emptyCluster c t) :=
  h.rest.set.foldl (·.set)

/-! ### What the functions of Admit keep -/

theorem Keeps.writeQuota {p : ℕ} {ks : List Cert} (h : Keeps s t) : Keeps s (writeQuota p ks t) :=
  h.rest.foldl (·.rest)

/-! ### What the functions of Ctl keep -/

theorem Keeps.lineSend {g : ℕ} {l : List (BitVec 160)} (h : Keeps s t) : Keeps s (lineSend g l t) :=
  h.rest

theorem Keeps.lineBreak {g : ℕ} (h : Keeps s t) :
    Keeps s (lineBreak g t) := by
  unfold Machine.lineBreak
  refine Keeps.ite ?_ ?_
  · exact h
  · split
    rename_i e
    exact (h.freeVal.snd e).rest

theorem Keeps.badCtl {up : Bool} (h : Keeps s t) : Keeps s (badCtl up t) :=
  h.inc.raiseEvent

theorem Keeps.sentCtl {x : CtlWait} (h : Keeps s t) : Keeps s (sentCtl x t) :=
  Keeps.ite h.lineBreak.rest (Keeps.ite h.rest h.rest)

theorem Keeps.tryCtl {x : CtlWait} (h : Keeps s t) :
    Keeps s (tryCtl t x) := by
  unfold Machine.tryCtl
  refine Keeps.ite ?_ ?_
  · exact h
  · split
    · exact h
    · exact h.rest.sentCtl

theorem Keeps.pumpCtl (h : Keeps s t) : Keeps s (pumpCtl t) :=
  h.foldl (fun h => h.foldl (·.tryCtl))

theorem Keeps.postCtl {seg type : ℕ} {words : List W} (h : Keeps s t) : Keeps s (postCtl seg type words t) :=
  h.rest.pumpCtl

theorem Keeps.alignTick (h : Keeps s t) : Keeps s (alignTick t) :=
  Keeps.ite h (Keeps.ite (Keeps.ite h.postCtl h).postCtl (Keeps.ite h.postCtl h)).rest

theorem Keeps.idleTick {up : Bool} (h : Keeps s t) : Keeps s (idleTick up t) :=
  Keeps.ite h h.lineBreak.rest

theorem Keeps.sendCtl {up : Bool} {type : ℕ} {content : W} (h : Keeps s t) : Keeps s (sendCtl up type content t) :=
  Keeps.ite h.postCtl h

/-! ### What the functions of Global keep -/

theorem Keeps.gPost {m : GMsg} (h : Keeps s t) : Keeps s (gPost m t) :=
  h.rest

theorem Keeps.gSend {up : Bool} {m : GMsg} (h : Keeps s t) : Keeps s (gSend up m t) :=
  Keeps.ite h.postCtl h

theorem Keeps.gBroadcast {m : GMsg} (h : Keeps s t) : Keeps s (gBroadcast m t) :=
  h.gSend.gSend

theorem Keeps.gCheck {n : ℕ} {m : GMsg} {e : FlitErr} (h : Keeps s t) : Keeps s (gCheck n m e t).2 :=
  h.flitChecks

theorem Keeps.gWay {m : GMsg} {l : List GStop} (h : Keeps s t) : Keeps s (gWay m l t).2 := by
  induction l generalizing t with
  | nil => exact h
  | cons x l ih =>
    unfold Machine.gWay
    split
    · rename_i e
      exact ih (h.gCheck.snd e)
    · rename_i e
      exact (h.gCheck.snd e).pair

theorem Keeps.gTake {gop : ℕ} {m : GlobalIn} (h : Keeps s t) :
    Keeps s (gTake gop m t).2 := by
  unfold Machine.gTake
  split
  · exact Keeps.iteSnd h (Keeps.iteSnd (h.foldl (·.inc)).badCtl.report.pair (Keeps.iteSnd h.report.pair (Keeps.iteSnd h h)))
  · split
    · exact h
    · refine Keeps.iteSnd ?_ ?_
      · exact h
      · extract_lets
        split
        · rename_i e2
          exact (h.rest.gWay.snd e2).pair
        · rename_i e2
          have h11 := (h.rest.gWay.snd e2)
          split
          · rename_i e3
            exact (h11.gCheck.snd e3).pair
          · rename_i e3
            exact (h11.gCheck.snd e3).pair

theorem Keeps.barGoOn {b : ℕ} (h : Keeps s t) : Keeps s (barGoOn b t) :=
  Keeps.ite h (Keeps.ite h.gSend h.gPost)

theorem Keeps.barArrive {b who : ℕ} (h : Keeps s t) : Keeps s (barArrive b who t) :=
  Keeps.ite h.set (Keeps.ite h h.rest.barGoOn)

theorem Keeps.barArm {b : ℕ} (h : Keeps s t) : Keeps s (barArm b t) :=
  Keeps.ite h.rest.set.barGoOn h.rest.set

theorem Keeps.globalArrive {m : GlobalIn} (h : Keeps s t) :
    Keeps s (globalArrive m t) := by
  unfold Machine.globalArrive
  split
  · rename_i e
    exact h.gTake.snd e
  · rename_i e
    exact (h.gTake.snd e).barArrive
  · rename_i e
    exact (h.gTake.snd e).barArrive

theorem Keeps.globalRelease {m : GlobalIn} (h : Keeps s t) :
    Keeps s (globalRelease m t) := by
  unfold Machine.globalRelease
  split
  · rename_i e
    exact h.gTake.snd e
  · rename_i e
    have h2 := (h.gTake.snd e)
    exact (Keeps.ite h2.gSend h2).bind fun h6 => (Keeps.ite h6 h6.rest.set.set.inc.raiseEvent)

theorem Keeps.barCfgWrite {b v : ℕ} (h : Keeps s t) : Keeps s (barCfgWrite b v t) :=
  (Keeps.ite h h.set.set.set).bind fun h4 => ((Keeps.ite h4.barArm h4).bind fun h3 => (Keeps.ite h3.set h3))

theorem Keeps.barArriveWrite {core chan : ℕ} (h : Keeps s t) : Keeps s (barArriveWrite core chan t) :=
  Keeps.ite (Keeps.ite h.gPost h.set) h

theorem Keeps.clusterQuiet {b c : ℕ} (h : Keeps s t) : Keeps s (clusterQuiet b c t) :=
  Keeps.ite h.gPost h

theorem Keeps.stageStart {kind part mode frm dst : ℕ} {ts : W} {pkgs : List ℕ} (h : Keeps s t) :
    Keeps s (stageStart kind part mode frm dst ts pkgs t) :=
  h.rest.gPost.bind fun h2 => (Keeps.ite h2 h2.gBroadcast)

theorem Keeps.setRtEntry {i w : ℕ} (h : Keeps s t) : Keeps s (setRtEntry i w t) :=
  h.set.set.set.set

theorem Keeps.setRtAlt {i w : ℕ} (h : Keeps s t) : Keeps s (setRtAlt i w t) :=
  h.set.set.set.set

theorem Keeps.loadMode {p m : ℕ} (h : Keeps s t) :
    Keeps s (loadMode p m t) := by
  unfold Machine.loadMode
  split
  · exact h
  · exact h.foldl (fun h => h.foldl (fun h => (Keeps.ite h.setRtAlt h.setRtEntry)))

theorem Keeps.globalStage {g : GlobalIn} (h : Keeps s t) :
    Keeps s (globalStage g t) := by
  unfold Machine.globalStage
  split
  · rename_i e
    exact h.gTake.snd e
  · rename_i e
    have h2 := (h.gTake.snd e)
    extract_lets
    split
    · exact (Keeps.ite h2.loadMode h2).gPost
    · exact Keeps.ite h2.gSend ((Keeps.ite h2.gSend.loadMode h2.gSend).bind fun h9 => (Keeps.ite h9.rest.set
        (Keeps.ite h9.rest.set.set h9.rest)).gSend)

theorem Keeps.globalAck {m : GlobalIn} (h : Keeps s t) :
    Keeps s (globalAck m t) := by
  unfold Machine.globalAck
  split
  · rename_i e
    exact h.gTake.snd e
  · rename_i e
    have h2 := (h.gTake.snd e)
    refine Keeps.ite ?_ ?_
    · exact h2.rest
    · split
      · exact h2.gSend
      · exact h2

theorem Keeps.lateVerdict {p op code : ℕ} (h : Keeps s t) : Keeps s (lateVerdict p op code t) :=
  Keeps.ite h.set.raiseEvent h

theorem Keeps.clearStaged (h : Keeps s t) : Keeps s (clearStaged t) :=
  Keeps.ite h h.set

theorem Keeps.abortStaged {x : Staged} (h : Keeps s t) :
    Keeps s (abortStaged x t) := by
  unfold Machine.abortStaged
  extract_lets
  split
  · exact h.rest.set.set.raiseEvent.bind fun h6 => (Keeps.ite h6.lateVerdict h6)
  · split
    · exact h.rest
    · exact h.rest.rest.set.giveUpCluster.writeQuota.countClusters.lateVerdict
  · exact h.rest.clearStaged.set

theorem Keeps.globalAbort {m : GlobalIn} (h : Keeps s t) : Keeps s (globalAbort m t) := by
  unfold Machine.globalAbort
  split
  · rename_i e
    exact h.gTake.snd e
  · rename_i e
    extract_lets t₁
    have h₁ : Keeps s t₁ := by
      unfold t₁
      split
      · exact (h.gTake.snd e).gSend
      · exact h.gTake.snd e
    split
    · exact h₁.abortStaged
    · exact h₁

theorem Keeps.scheduleDeadline (h : Keeps s t) :
    Keeps s (scheduleDeadline t) := by
  unfold Machine.scheduleDeadline
  split
  · exact h
  · exact Keeps.ite h.rest (Keeps.ite h.gBroadcast h).gPost

theorem Keeps.dropStaged {x : Staged} (h : Keeps s t) : Keeps s (dropStaged x t) :=
  h.rest

theorem Keeps.gschedWrite {kind : ℕ} {system : Bool} (h : Keeps s t) : Keeps s (gschedWrite kind system t) :=
  Keeps.ite h.set h.set.stageStart

theorem Keeps.initiatorTimeout (h : Keeps s t) :
    Keeps s (initiatorTimeout t) := by
  unfold Machine.initiatorTimeout
  split
  · exact h
  · exact h.rest.bind fun h11 => (Keeps.ite (Keeps.ite h11.rest.inc h11.rest).reportU
      (Keeps.ite h11.rest.inc h11.rest.inc.set.set.set.set.set.set).reportP)

theorem Keeps.freeChain {f : Flit} (h : Keeps s t) :
    Keeps s (freeChain f t) := by
  unfold Machine.freeChain
  split
  · exact Keeps.ite h.rest h
  · exact h

theorem Keeps.arriveAt {f : Flit} (h : Keeps s t) : Keeps s (arriveAt f t) :=
  (Keeps.ite h.deliverOther h.enterNode).bind fun h2 => (Keeps.ite h2.freeChain h2)

theorem Keeps.receiveCheck {n : ℕ} {f : Flit} {raws : List (BitVec 160)} {errs : List FlitErr} {urgErr : Bool} (h : Keeps s t) :
    Keeps s (receiveCheck n f raws errs urgErr t).2 := by
  unfold Machine.receiveCheck
  split
  rename_i e
  have h1 := (h.flitChecks.snd e)
  exact Keeps.iteSnd h1.pair (Keeps.iteSnd h1.corrFlit.pair h1.pair)

theorem Keeps.chainPacket {g rcyc : ℕ} {x2 : ChainFlit} {raws : List (BitVec 160)} {errs : List FlitErr} {urgErr : Bool} (h : Keeps s t) :
    Keeps s (chainPacket g rcyc x2 raws errs urgErr t) := by
  unfold Machine.chainPacket
  refine Keeps.ite ?_ ?_
  · exact h
  · extract_lets
    split
    · rename_i e
      exact (h.rest.receiveCheck.snd e).freeChain
    · rename_i e
      have h11 := (h.rest.receiveCheck.snd e)
      exact (Keeps.ite h11.countProd.sourceRate h11).bind fun h15 => (Keeps.ite (h15.freeChain.bind fun h14 => (Keeps.ite h14.discardAt
        (Keeps.ite h14.send h14))) h15.arriveAt)

theorem Keeps.receiveChain {g rcyc : ℕ} {x2 : ChainFlit} {errs : List FlitErr} {urgErr : Bool} (h : Keeps s t) :
    Keeps s (receiveChain g rcyc x2 errs urgErr t) := by
  unfold Machine.receiveChain
  refine Keeps.ite ?_ ?_
  · exact h
  · extract_lets
    split
    · exact h.rest
    · exact h.rest.chainPacket

theorem Keeps.receiveInside {g cyc rcyc : ℕ} {errs : List FlitErr} {urgErr : Bool} (h : Keeps s t) :
    Keeps s (receiveInside g cyc rcyc errs urgErr t) := by
  unfold Machine.receiveInside
  extract_lets from_ dst busy
  refine Keeps.ite h ?_
  split
  · exact h
  · extract_lets old t₁ t₂ vc f' k src t₃ t₄
    have h₂ : Keeps s t₂ := h.rest.freeChain
    refine Keeps.drainNode (Keeps.ite ?_ ?_)
    · split
      rename_i e
      have h₃ := h₂.rest.rawsOf.snd e
      exact Keeps.ite h₃.lineSend.countCons h₃.lineSend
    · have h₄ : Keeps s t₄ := Keeps.ite h₂ h₂.rest
      split
      · rename_i e
        exact h₄.receiveCheck.snd e
      · rename_i e
        exact (h₄.receiveCheck.snd e).arriveAt

/-! ### What the functions of Aperture keep -/

theorem Keeps.apDone {v : Verdict} (h : Keeps s t) : Keeps s (apDone v t) :=
  h.rest.set.set.set.set.set.set.raiseEvent

theorem Keeps.apCmdWrite {v : ℕ} (h : Keeps s t) : Keeps s (apCmdWrite v t) :=
  Keeps.ite h.set (h.rest.set.set.set.bind fun h3 => (Keeps.ite h3.apDone h3))

theorem Keeps.claim (h : Keeps s t) :
    Keeps s (claim t) := by
  unfold Machine.claim
  split
  · exact h
  · exact Keeps.ite h.apDone (Keeps.ite h h.setState.set.set.countClusters.apDone)

theorem Keeps.setDispatch {c op d : ℕ} (h : Keeps s t) : Keeps s (setDispatch c op d t) :=
  h.set.set.set.set.set.set.set

theorem Keeps.writeGolden {c : ℕ} {g : Golden} (h : Keeps s t) : Keeps s (writeGolden c g t) :=
  (h.foldl (·.writeN)).foldl (fun h => h.setDispatch)

theorem Keeps.goldenRead {ram : ℕ} (h : Keeps s t) :
    Keeps s (goldenRead ram t).2 := by
  unfold Machine.goldenRead
  split
  rename_i e
  have h1 := (h.secded.snd2 e)
  exact Keeps.iteSnd h1.pair (Keeps.iteSnd h1.report.pair h1.report.pair)

theorem Keeps.loadUserSet {c set : ℕ} (h : Keeps s t) :
    Keeps s (loadUserSet c set t) := by
  unfold Machine.loadUserSet
  split
  · exact h
  · exact h.writeGolden.set.set

theorem Keeps.setArith {k : Cert} {p m ep : ℕ} (h : Keeps s t) : Keeps s (setArith k p m ep t) :=
  h.set.set.rest

theorem Keeps.writePools {p : ℕ} {k : Cert} (h : Keeps s t) : Keeps s (writePools p k t) :=
  h.foldl (·.set.set.set.set.set.set.set.set.set.set.set)

theorem Keeps.clearPools {p : ℕ} (h : Keeps s t) : Keeps s (clearPools p t) :=
  h.foldl (fun h => h.foldl (·.set.set.set.set.set.set))

theorem Keeps.clearCounts {p : ℕ} (h : Keeps s t) : Keeps s (clearCounts p t) :=
  h.rest.set.set.set

theorem Keeps.admitWrites {p : ℕ} {k : Cert} {ws : List ℕ} (h : Keeps s t) : Keeps s (admitWrites p k ws t) :=
  (h.foldl (·.loadUserSet)).set.set.set.set.writePools.bind fun h10 => (Keeps.ite h10.set.set h10.set).setArith.setArith.rest.writeQuota.clearCounts

theorem Keeps.admitGraph {r : Rewrite} (h : Keeps s t) :
    Keeps s (admitGraph r t) := by
  unfold Machine.admitGraph
  split
  · exact h
  · refine Keeps.ite ?_ ?_
    · exact h.apDone
    · extract_lets
      split
      rename_i e1
      have h3 := ((Keeps.iteSnd h.goldenRead h).snd e1)
      split
      · exact h3.admitWrites.apDone
      · exact h3.apDone

theorem Keeps.restampMade {p : ℕ} (h : Keeps s t) : Keeps s (restampMade p t) :=
  (h.foldl (·.addCnt.addCnt)).rest

theorem Keeps.commit {p : ℕ} (h : Keeps s t) :
    Keeps s (commit p t) := by
  unfold Machine.commit
  split
  · exact h
  · exact Keeps.ite h (h.rest.foldl (fun h => (Keeps.ite (h.setState.foldl (·.setRtAlt)) h))).set.set.set.restampMade

theorem Keeps.withdraw (h : Keeps s t) :
    Keeps s (withdraw t) := by
  unfold Machine.withdraw
  split
  · exact h
  · exact Keeps.ite h.apDone (Keeps.ite h.apDone (h.set.discardHeldIf.foldl (·.set.giveUpCluster)).rest.set.set.set.countClusters.apDone)

theorem Keeps.dropDefers {p : ℕ} (h : Keeps s t) : Keeps s (dropDefers p t) :=
  h.rest

theorem Keeps.withdrawComplete {p : ℕ} (h : Keeps s t) : Keeps s (withdrawComplete p t) :=
  Keeps.ite h h.clearPools.writeQuota.dropDefers.rest.set.set

theorem Keeps.stage (h : Keeps s t) :
    Keeps s (stage t) := by
  unfold Machine.stage
  split
  · exact h
  · extract_lets
    split
    · exact h.apDone
    · refine Keeps.ite ?_ ?_
      · exact h.apDone
      · refine Keeps.ite ?_ ?_
        · exact h.apDone
        · split
          · exact h.apDone
          · exact h.set.set.stageStart.apDone

theorem Keeps.modeCommit {p : ℕ} (h : Keeps s t) :
    Keeps s (modeCommit p t) := by
  unfold Machine.modeCommit
  split
  · exact h
  · extract_lets
    split
    · exact h.dropStaged.set.set.set.set
    · exact h.dropStaged.set.set.set.set.setArith.rest.restampMade.set

theorem Keeps.switched {p : ℕ} (h : Keeps s t) : Keeps s (switched p t) :=
  h.commit.modeCommit

theorem Keeps.modeDone {p : ℕ} (h : Keeps s t) : Keeps s (modeDone p t) :=
  h.rest.set.set.raiseEvent

theorem Keeps.modeDrained {p : ℕ} (h : Keeps s t) : Keeps s (modeDrained p t) :=
  Keeps.ite h.modeDone h

theorem Keeps.modeSweep {p : ℕ} (h : Keeps s t) :
    Keeps s (modeSweep p t) := by
  unfold Machine.modeSweep
  split
  · exact h
  · refine Keeps.ite ?_ ?_
    · exact h
    · extract_lets
      split
      rename_i e1
      exact (h.removeWork.snd e1).discardHeldIf.rest

theorem Keeps.modeDiscardEnd {p : ℕ} (h : Keeps s t) :
    Keeps s (modeDiscardEnd p t) := by
  unfold Machine.modeDiscardEnd
  split
  · exact h
  · exact Keeps.ite h h.set.modeDone

theorem Keeps.migrate (h : Keeps s t) :
    Keeps s (migrate t) := by
  unfold Machine.migrate
  split
  · exact h
  · refine Keeps.ite ?_ ?_
    · exact h.apDone
    · split
      · exact Keeps.ite h.apDone h.setState.set.set.set.set.rest.writeQuota.countClusters.apDone
      · exact h.apDone

theorem Keeps.migCopyTick (h : Keeps s t) : Keeps s (migCopyTick t) :=
  h.rest.foldl (fun h => (Keeps.ite h h.rest.startTimer.send))

theorem Keeps.spillFrom {k : Cert} {c : ℕ} (h : Keeps s t) :
    Keeps s (spillFrom k c t) := by
  unfold Machine.spillFrom
  split
  · exact h
  · exact h.set.set.set

theorem Keeps.migrationCopyDone {p : ℕ} {r : Rewrite} (h : Keeps s t) :
    Keeps s (migrationCopyDone p r t) := by
  unfold Machine.migrationCopyDone
  split
  · exact h
  · split
    · exact h
    · extract_lets
      split
      rename_i e2
      have h5 := ((Keeps.iteSnd h h.goldenRead).snd e2)
      exact Keeps.ite h5.rest.set.giveUpCluster.writeQuota.countClusters.lateVerdict ((h5.foldl (·.setRtEntry.setRtAlt)).foldl
        (·.loadUserSet)).spillFrom.rest.stageStart

theorem Keeps.rerouteFields {pkg frm dst i : ℕ} {fc fd fp : Fld} (h : Keeps s t) (hc : fc.id ≠ F.clStatus_STATE.id := by decide)
    (hd : fd.id ≠ F.clStatus_STATE.id := by decide) : Keeps s (rerouteFields pkg frm dst fc fd fp i t) :=
  Keeps.ite ((h.set hc).set hd) h

theorem Keeps.rerouteAll {p pkg frm dst : ℕ} (h : Keeps s t) : Keeps s (rerouteAll p pkg frm dst t) := by
  unfold Machine.rerouteAll
  extract_lets t₁ t₂ t₃
  have h₁ : Keeps s t₁ := h.foldl fun h => h.foldl fun h => h.setRtEntry.setRtAlt
  have h₂ : Keeps s t₂ := h₁.foldl fun h => (Keeps.ite h.rerouteFields h).bind fun h => Keeps.ite h.rerouteFields h
  have h₃ : Keeps s t₃ := h₂.foldl fun h => h.foldl (·.rerouteFields)
  exact h₃.rest

theorem Keeps.migrationSwitch {p : ℕ} (h : Keeps s t) : Keeps s (migrationSwitch p t) := by
  unfold Machine.migrationSwitch
  split
  · exact h
  · refine h.dropStaged.rerouteAll.bind fun h₁ => Keeps.ite h₁ ?_
    split
    · exact h₁
    · exact Keeps.ite h₁.rest (Keeps.ite h₁.rest.setState h₁.rest.setState.rest.setState.noteBreak)

theorem Keeps.migrationDrained {p : ℕ} (h : Keeps s t) :
    Keeps s (migrationDrained p t) := by
  unfold Machine.migrationDrained
  split
  · exact h
  · exact Keeps.ite h h.rest.set.releaseCluster.writeQuota.countClusters.raiseEvent

theorem Keeps.guaranteeRestore {p : ℕ} (h : Keeps s t) :
    Keeps s (guaranteeRestore p t) := by
  unfold Machine.guaranteeRestore
  split
  · exact Keeps.ite h.rest.set h
  · exact h

theorem Keeps.uncharge {p : ℕ} (h : Keeps s t) : Keeps s (uncharge p t) :=
  h.rest.writeQuota

theorem Keeps.revoke {p reason : ℕ} (h : Keeps s t) : Keeps s (revoke p reason t) :=
  Keeps.ite h.markLost.set h.markLost.stopPartition.uncharge

theorem Keeps.refit {n : ℕ} (h : Keeps s t) : Keeps s (refit n t) := by
  induction n generalizing t with
  | zero => exact h
  | succ n ih =>
    unfold Machine.refit
    refine Keeps.ite h ?_
    split
    · exact ih h.stopPartition.uncharge
    · split
      · exact ih h.revoke
      · exact h

theorem Keeps.ledgerReexamine (h : Keeps s t) : Keeps s (ledgerReexamine t) :=
  Keeps.ite h (h.foldl (·.revoke)).rest.refit

theorem Keeps.loseCapacity {ps : List ℕ} {reason : ℕ} (h : Keeps s t) : Keeps s (loseCapacity ps reason t) :=
  h.rest

theorem Keeps.quarantine {c : ℕ} (h : Keeps s t) : Keeps s (quarantine c t) :=
  Keeps.ite h (h.loseCapacity.setState.noteBreak.foldl (·.set))

theorem Keeps.deliveryMiss {p : ℕ} {emitAt : Bool} {kind index : ℕ} {tag due : W} (h : Keeps s t) :
    Keeps s (deliveryMiss p emitAt kind index tag due t) :=
  Keeps.ite h ((Keeps.ite h.inc.rest h.inc).bind fun h9 => ((Keeps.ite h9 h9.set.set.set.set.set.set.set.set.set).bind fun h8 =>
    (Keeps.ite h8.report h8)))

/-! ### What the functions of Fifo keep -/

theorem Keeps.setFifo {k : ℕ} {f : Fifo} (h : Keeps s t) : Keeps s (t.setFifo k f) :=
  h.rest

theorem Keeps.pfEvent {k : ℕ} (h : Keeps s t) : Keeps s (pfEvent k t) :=
  Keeps.ite h.raiseEvent h

theorem Keeps.pfPut {k : ℕ} {e : PfEntry} (h : Keeps s t) : Keeps s (pfPut k e t) :=
  Keeps.ite h.setFifo (Keeps.ite h.setFifo.set h.setFifo.set.set.pfEvent)

theorem Keeps.fifoIdleFlush {k : ℕ} (h : Keeps s t) :
    Keeps s (fifoIdleFlush k t) := by
  unfold Machine.fifoIdleFlush
  extract_lets
  split
  · exact Keeps.ite h h.setFifo
  · exact h

theorem Keeps.pfDrop {k : ℕ} (h : Keeps s t) :
    Keeps s (pfDrop k t) := by
  unfold Machine.pfDrop
  refine Keeps.ite ?_ ?_
  · exact h
  · extract_lets
    split <;> exact h.setFifo.set

theorem Keeps.pfTake {k natural : ℕ} (h : Keeps s t) :
    Keeps s (pfTake k natural t).2 := by
  unfold Machine.pfTake
  extract_lets
  split
  · exact h
  · extract_lets
    split
    rename_i e1
    have h5 := (h.setFifo.secded.snd2 e1)
    exact Keeps.iteSnd h5.pair (Keeps.iteSnd h5.inc.report.pair h5.set.report.pfEvent.pair)

/-! ### What the functions of AuxPins keep -/

theorem Keeps.setAux {k : ℕ} {p : AuxPin} (h : Keeps s t) : Keeps s (t.setAux k p) :=
  h.rest

theorem Keeps.auxPulse {k n : ℕ} (h : Keeps s t) : Keeps s (auxPulse k n t) :=
  h.setAux

theorem Keeps.auxToggle {k : ℕ} (h : Keeps s t) :
    Keeps s (auxToggle k t) := by
  unfold Machine.auxToggle
  refine Keeps.ite ?_ ?_
  · exact h.setAux
  · split
    rename_i e
    exact (h.freeVal.snd e).setAux

theorem Keeps.auxEvent {func sel : ℕ} (h : Keeps s t) : Keeps s (auxEvent func sel t) :=
  h.foldl (fun h => (Keeps.ite h (Keeps.ite h.auxPulse (Keeps.ite h (Keeps.ite h.auxToggle (Keeps.ite h.auxPulse h))))))

theorem Keeps.auxTick (h : Keeps s t) :
    Keeps s (auxTick t) := by
  unfold Machine.auxTick
  exact (h.foldl (fun h => (Keeps.ite h.setAux h))).bind fun h3 => (Keeps.ite h3.auxEvent h3)

/-! ### What the functions of Lens keep -/

theorem Keeps.setCoord {i : ℕ} {c : Coord} (h : Keeps s t) : Keeps s (t.setCoord i c) :=
  h.rest

theorem Keeps.orBound {b : Option ℤ} (h : Keeps s t) :
    Keeps s (orBound b t).2 := by
  unfold Machine.orBound
  split
  · exact h
  · split
    rename_i e1
    exact (h.freeVal.snd e1).pair

theorem Keeps.publish {i : ℕ} (h : Keeps s t) : Keeps s (publish i t) :=
  Keeps.ite h.setCoord h.setCoord

theorem Keeps.modelCheck {i : ℕ} {stamp : BitVec 52} {ang : ℤ} (h : Keeps s t) : Keeps s (modelCheck i stamp ang t) := by
  unfold Machine.modelCheck
  extract_lets v
  split
  · exact h
  · extract_lets c x off
    split
    rename_i e
    refine Keeps.bind (Keeps.snd ?_ e) fun h => Keeps.ite h.inc.set.raiseEvent h
    split
    · exact h
    · exact (h.freeVal (w := 32)).pair

theorem Keeps.recordEdge {i : ℕ} {stamp : BitVec 52} {back : Bool} (h : Keeps s t) : Keeps s (recordEdge i stamp back t) :=
  (Keeps.ite h.set.set h).bind fun h6 => ((Keeps.ite h6 h6.modelCheck).setCoord.set.set.bind fun h5 => (Keeps.ite h5.set.raiseEvent h5))

theorem Keeps.takeBack {i : ℕ} {c : CoordUndo} (h : Keeps s t) : Keeps s (takeBack i c t) := by
  have hid : ∀ f ∈ coordFlds, f.id ≠ F.clStatus_STATE.id := by decide
  exact h.setCoord.foldlMem fun ha h => h.set (hid _ (List.of_mem_zip ha).1)

theorem Keeps.abChange {i : ℕ} {stamp : BitVec 52} {a b : Bool} {width : ℕ} (h : Keeps s t) : Keeps s (abChange i stamp a b width t) := by
  unfold Machine.abChange
  extract_lets c da db qerr t'
  have hq {u : State} (h : Keeps s u) : Keeps s (qerr u) := h.inc.set
  have h' : Keeps s t' := h.setCoord
  clear_value qerr da db
  split
  · exact h
  · exact hq h'
  · split
    · exact hq h'.takeBack
    · exact h'.recordEdge.setCoord

theorem Keeps.zSeen {i : ℕ} {stamp : BitVec 52} {width : ℕ} (h : Keeps s t) : Keeps s (zSeen i stamp width t) :=
  Keeps.ite h (h.setCoord.bind fun h3 => (Keeps.ite h3 (Keeps.ite (Keeps.ite h3 h3.inc.set) h3.setCoord.set.set)))

theorem Keeps.encoderChange {i : ℕ} {stamp : BitVec 52} {a b : Bool} {width : ℕ} (h : Keeps s t) :
    Keeps s (encoderChange i stamp a b width t) := by
  unfold Machine.encoderChange
  refine Keeps.ite ?_ ?_
  · exact h
  · split
    · exact h.takeBack.abChange.zSeen
    · exact h.abChange

theorem Keeps.countEdge {src : ℕ} {stamp : BitVec 52} {a b : Bool} {width : ℕ} (h : Keeps s t) : Keeps s (countEdge src stamp a b width t) :=
  (Keeps.ite h.rest h).foldl (fun h => (Keeps.ite h (Keeps.ite h.encoderChange (Keeps.ite h h.recordEdge))))

theorem Keeps.zEdge {e : ℕ} {stamp : BitVec 52} {width : ℕ} (h : Keeps s t) : Keeps s (zEdge e stamp width t) :=
  h.foldl (fun h => (Keeps.ite h.zSeen h))

theorem Keeps.coordinateStall {i : ℕ} (h : Keeps s t) : Keeps s (coordinateStall i t) :=
  Keeps.ite h h.set

theorem Keeps.restartCoord {i : ℕ} (h : Keeps s t) : Keeps s (restartCoord i t) :=
  h.setCoord.set.set.set

theorem Keeps.mainsEdge {rising : Bool} {stamp : BitVec 52} {width : ℕ} (h : Keeps s t) :
    Keeps s (mainsEdge rising stamp width t) := by
  unfold Machine.mainsEdge
  refine Keeps.ite ?_ ?_
  · exact h
  · extract_lets
    split
    · exact h.setCoord
    · exact Keeps.ite h.set (Keeps.ite h.setCoord.set (h.setCoord.set.bind fun h4 => (Keeps.ite h4.set h4)))

theorem Keeps.mainsHoldover (h : Keeps s t) : Keeps s (mainsHoldover t) :=
  Keeps.ite h h.setCoord.set.set.set.raiseEvent

theorem Keeps.stopMains (h : Keeps s t) : Keeps s (stopMains t) :=
  h.setCoord.set.set

theorem Keeps.lensAnswer {i : ℕ} {isTime : Bool} {l tf : W} (h : Keeps s t) :
    Keeps s (lensAnswer i isTime l tf t).2 := by
  unfold Machine.lensAnswer
  refine Keeps.iteSnd ?_ ?_
  · exact h
  · extract_lets
    split
    rename_i e
    exact (h.orBound.snd e).pair

theorem Keeps.lensQuery (h : Keeps s t) :
    Keeps s (lensQuery t) := by
  unfold Machine.lensQuery
  split
  · exact h
  · refine Keeps.ite ?_ ?_
    · exact h.rest.reqErr.send
    · extract_lets
      split
      rename_i e1
      exact (h.rest.lensAnswer.snd e1).respond

/-! ### What the functions of Source keep -/

theorem Keeps.createSource {id p : ℕ} {t' : Token} (h : Keeps s t) : Keeps s (createSource id p t' t) :=
  Keeps.ite h h.sourceRate.countProd.rest

theorem Keeps.handOver {t' : Token} (h : Keeps s t) : Keeps s (handOver t' t) :=
  h.send

theorem Keeps.handOverMade (h : Keeps s t) : Keeps s (handOverMade t) :=
  Keeps.ite h (h.rest.foldl (fun h => h.handOver))

theorem Keeps.keepTrig {i : ℕ} (h : Keeps s t) : Keeps s (keepTrig i t) :=
  Keeps.ite h h.rest

theorem Keeps.noteEn {i : ℕ} {touched : Bool} (h : Keeps s t) : Keeps s (noteEn i touched t) :=
  Keeps.ite h.rest h

theorem Keeps.noteTarget {i : ℕ} (h : Keeps s t) : Keeps s (noteTarget i t) :=
  h.rest

theorem Keeps.trigDisarm {i : ℕ} (h : Keeps s t) : Keeps s (trigDisarm i t) :=
  Keeps.ite h h.set

theorem Keeps.trigMove {i v : ℕ} (h : Keeps s t) : Keeps s (trigMove i v t) :=
  Keeps.ite h h.set

theorem Keeps.trigSkip {i n : ℕ} (h : Keeps s t) : Keeps s (trigSkip i n t) :=
  Keeps.ite h h.set.set.raiseAtBoundary

theorem Keeps.triggerCrossing {i : ℕ} (h : Keeps s t) : Keeps s (triggerCrossing i t) :=
  Keeps.ite h (h.rest.auxEvent.bind fun h6 => ((Keeps.ite h6.trigMove h6.trigDisarm).bind fun h5 => (Keeps.ite h5.trigSkip.set
    (Keeps.ite h5.trigSkip h5.trigSkip.rest.inc.createSource))))

theorem Keeps.carryTargets {x : ℕ} (h : Keeps s t) : Keeps s (carryTargets x t) :=
  Keeps.ite h (h.foldl (fun h => (Keeps.ite h.set h)))

/-! ### What the functions of Sample keep -/

theorem Keeps.keepOld {f : Fld} {i : ℕ} (h : Keeps s t) : Keeps s (keepOld f i t) :=
  Keeps.ite h h.rest

theorem Keeps.setLane {k : ℕ} {l : Lane} (h : Keeps s t) : Keeps s (t.setLane k l) :=
  h.rest

theorem Keeps.beginForces (h : Keeps s t) : Keeps s (beginForces t) :=
  h.foldl (fun h => (Keeps.ite h (h.foldl (fun h => (Keeps.ite h.set h)))))

theorem Keeps.endForces (h : Keeps s t) : Keeps s (endForces t) :=
  h.rest

theorem Keeps.forceRelease {c : ℕ} (h : Keeps s t) : Keeps s (forceRelease c t) :=
  Keeps.ite h h.set.set.rest

theorem Keeps.logTrip {k src : ℕ} {test : Bool} {index value : ℕ} {at_ : BitVec 52} (h : Keeps s t) :
    Keeps s (logTrip k src test index value at_ t) :=
  h.set.set.set.set.set.set.set

theorem Keeps.trip {mask src : ℕ} {test : Bool} {index value : ℕ} {at_ : BitVec 52} (h : Keeps s t) :
    Keeps s (trip mask src test index value at_ t) :=
  (h.foldl (fun h => (Keeps.ite h (Keeps.ite (Keeps.ite h.logTrip h) (Keeps.ite h.set.set h.set.set.logTrip).raiseEvent)))).bind fun h6 =>
    (Keeps.ite h6 h6.beginForces)

theorem Keeps.setCmp {c : ℕ} {m : Cmp} (h : Keeps s t) : Keeps s (t.setCmp c m) :=
  h.rest

theorem Keeps.cmpWritten {c : ℕ} {clear : Bool} (h : Keeps s t) : Keeps s (cmpWritten c clear t) :=
  h.setCmp

theorem Keeps.testUsed {j : ℕ} (h : Keeps s t) : Keeps s (testUsed j t) :=
  Keeps.ite h.rest.set h.rest

theorem Keeps.interlock {c : ℕ} {x : BitVec 24} {bad : Bool} {ref : BitVec 52} (h : Keeps s t) : Keeps s (interlock c x bad ref t) := by
  unfold Machine.interlock
  extract_lets m at_ set test x' bad' t₁
  have h₁ : Keeps s t₁ := Keeps.ite h.testUsed h
  refine Keeps.ite h₁.setCmp ?_
  extract_lets
  split
  split
  extract_lets t₂
  have h₂ : Keeps s t₂ := h₁.setCmp
  split
  rename_i e
  have h₃ := (Keeps.iteSnd (h₂.freeVal (w := 24)) h₂).snd e
  extract_lets t₄
  have h₄ : Keeps s t₄ := Keeps.ite h₃.set.trip h₃
  exact Keeps.ite h₄.set.trip h₄

theorem Keeps.laneState {k st : ℕ} (h : Keeps s t) : Keeps s (laneState k st t) :=
  Keeps.ite h (h.foldl (·.setCmp)).setLane.set

theorem Keeps.laneJudge {k : ℕ} {at_ : BitVec 52} (h : Keeps s t) : Keeps s (laneJudge k at_ t) :=
  Keeps.ite h.set.set.holdFault.set.raiseEvent.trip (Keeps.ite h.set.dropFault h)

theorem Keeps.codeError {k block : ℕ} {at_ : BitVec 52} (h : Keeps s t) : Keeps s (codeError k block at_ t) :=
  Keeps.ite h (h.inc.reportU.setLane.bind fun h3 => (Keeps.ite h3.laneState.laneJudge h3))

theorem Keeps.laneComma {k phase : ℕ} {at_ : BitVec 52} (h : Keeps s t) : Keeps s (laneComma k phase at_ t) :=
  Keeps.ite h (Keeps.ite (Keeps.ite h.setLane.laneState.laneJudge h.setLane) (Keeps.ite h h.laneState.laneJudge.setLane))

theorem Keeps.laneAlign {k n : ℕ} {at_ : BitVec 52} (h : Keeps s t) : Keeps s (laneAlign k n at_ t) :=
  Keeps.ite h (Keeps.ite h.laneState.laneJudge h)

theorem Keeps.laneSofTimeout {k : ℕ} {at_ : BitVec 52} (h : Keeps s t) : Keeps s (laneSofTimeout k at_ t) :=
  Keeps.ite h (Keeps.ite h h.laneState.laneJudge)

theorem Keeps.laneGraceExpiry {k : ℕ} (h : Keeps s t) : Keeps s (laneGraceExpiry k t) :=
  h.laneJudge

theorem Keeps.rxStop {k : ℕ} (h : Keeps s t) : Keeps s (rxStop k t) :=
  h.setLane

theorem Keeps.rxSof {k : ℕ} {start : BitVec 52} (h : Keeps s t) : Keeps s (rxSof k start t) :=
  Keeps.ite h.setLane h.laneState.laneJudge.set.set.setLane

theorem Keeps.rxHeader {k b : ℕ} {bad : Bool} {ends : BitVec 52} (h : Keeps s t) : Keeps s (rxHeader k b bad ends t) :=
  (Keeps.ite h.setLane (Keeps.ite h.inc.set h).set.setLane.laneJudge).pfPut

theorem Keeps.rxSample {k j : ℕ} {xs : List (ℕ × Bool)} {ends : BitVec 52} (h : Keeps s t) : Keeps s (rxSample k j xs ends t) :=
  h.interlock.bind fun h2 => (Keeps.ite h2 h2.set)

theorem Keeps.rxSlot {k j b : ℕ} {bad : Bool} {xs : List (ℕ × Bool)} (h : Keeps s t) : Keeps s (rxSlot k j b bad xs t) := by
  unfold Machine.rxSlot
  extract_lets c d t₁ v e put
  have h₁ : Keeps s t₁ := Keeps.ite h h.set
  have hput {d : ℕ} {fin last e : Bool} {u : State} (h : Keeps s u) : Keeps s (put d fin last e u) := h.pfPut
  clear_value put
  exact hput (hput (hput (hput h₁)))

theorem Keeps.rxByte {k b : ℕ} {bad : Bool} {ends : BitVec 52} (h : Keeps s t) : Keeps s (rxByte k b bad ends t) :=
  Keeps.ite h (h.setLane.bind fun h2 => (Keeps.ite h2 (Keeps.ite h2.rxHeader (Keeps.ite h2.rxSample (Keeps.ite h2.rxSlot h2)))))

theorem Keeps.rxGroup {k block : ℕ} {start : BitVec 52} {g : LineCode} (h : Keeps s t) :
    Keeps s (rxGroup k block start g t) := by
  unfold Machine.rxGroup
  extract_lets
  split
  · exact Keeps.ite h.rxByte (Keeps.ite h.codeError h)
  · exact (Keeps.ite h.codeError h).rxByte
  · exact (Keeps.ite h.codeError h).rxStop.bind fun h5 => (Keeps.ite h5 (Keeps.ite h5.rxSof (Keeps.ite h5.laneState.laneJudge h5)))

theorem Keeps.frame {k : ℕ} {f : FrameIn} (h : Keeps s t) : Keeps s (frame k f t) :=
  Keeps.ite h (h.foldlSnd fun h => Keeps.ite h h.rxGroup)

theorem Keeps.takeSample {x : Sample} (h : Keeps s t) : Keeps s (takeSample x t) :=
  h.rest

theorem Keeps.tapStream {c : ℕ} {x : Sample} (h : Keeps s t) :
    Keeps s (tapStream c x t) := by
  unfold Machine.tapStream
  refine Keeps.ite ?_ ?_
  · exact h
  · extract_lets
    split
    rename_i e
    exact ((Keeps.iteSnd h.freeVal h).snd e).pfPut

theorem Keeps.tapSample {x : Sample} (h : Keeps s t) : Keeps s (tapSample x t) :=
  h.foldl (·.tapStream)

theorem Keeps.fifoWordRead {k natural : ℕ} (h : Keeps s t) :
    Keeps s (fifoWordRead k natural t) := by
  unfold Machine.fifoWordRead
  split
  · rename_i e
    exact h.pfTake.snd e
  · rename_i e
    have h2 := (h.pfTake.snd e)
    exact Keeps.ite h2.setLane.set (Keeps.ite (h2.setLane.bind fun h4 => (Keeps.ite h4.pfDrop h4)) (Keeps.ite h2 h2.takeSample.tapSample))

theorem Keeps.channelToken {c : ℕ} {data : W} {poison : Bool} (h : Keeps s t) : Keeps s (channelToken c data poison t) :=
  Keeps.ite h.set h.createSource

theorem Keeps.sampleTokens (h : Keeps s t) : Keeps s (sampleTokens t) :=
  h.rest.foldl (fun h => (Keeps.ite h h.channelToken))

theorem Keeps.gridPoint {g : ℕ} (h : Keeps s t) :
    Keeps s (gridPoint g t) := by
  unfold Machine.gridPoint
  split
  · exact h
  · exact Keeps.ite h (h.rest.foldl (fun h => (Keeps.ite h.rest h)))

theorem Keeps.gridSkip {q : GridPt} (h : Keeps s t) : Keeps s (gridSkip q t) :=
  Keeps.ite h.rest h.rest.inc.set.raiseAtBoundary

theorem Keeps.resamplerToken {ch : ℕ} (h : Keeps s t) : Keeps s (resamplerToken ch t) := by
  unfold Machine.resamplerToken
  split
  · exact h
  · extract_lets xs drop
    have hdrop {u : State} (h : Keeps s u) : Keeps s (drop u) := h.rest
    clear_value drop
    split
    · exact Keeps.ite (hdrop h) h
    · refine Keeps.ite h ?_
      extract_lets cnt t₁
      have h₁ : Keeps s t₁ := hdrop h.rest
      refine Keeps.ite (hdrop h).gridSkip ?_
      extract_lets
      split
      rename_i e
      have h₂ := (Keeps.iteSnd h₁ (h₁.freeVal (w := 24))).snd e
      split
      rename_i e'
      have h₃ := (h₂.freeVal (w := 4)).snd e'
      exact Keeps.ite h₃ h₃.channelToken

theorem Keeps.freshen {l : List ℕ} (h : Keeps s t) : Keeps s (freshen l t) :=
  h.rest

theorem Keeps.laneEnabled {k : ℕ} (h : Keeps s t) : Keeps s (laneEnabled k t) :=
  Keeps.ite h.setLane.laneState (Keeps.ite (h.setLane.foldl (·.set)).freshen.laneState.beginForces (h.laneState.foldl (·.set)).setLane.laneJudge)

theorem Keeps.noteForced {k : ℕ} (h : Keeps s t) : Keeps s (noteForced k t) :=
  Keeps.ite h h.setLane

theorem Keeps.captureLane {k : ℕ} (h : Keeps s t) : Keeps s (captureLane k t) :=
  Keeps.ite h h.setLane.rest

theorem Keeps.sampleTickEnd (h : Keeps s t) : Keeps s (sampleTickEnd t) :=
  (h.foldl (·.forceRelease)).foldl (·.captureLane)

theorem Keeps.outputFrame {k : ℕ} (h : Keeps s t) :
    Keeps s (outputFrame k t) := by
  unfold Machine.outputFrame
  extract_lets
  split
  · exact h
  · exact Keeps.ite h (h.laneState.setLane.set.foldl (·.set)).rest

theorem Keeps.ilkRelease {mask : ℕ} (h : Keeps s t) : Keeps s (ilkRelease mask t) :=
  h.set

theorem Keeps.sampleTick (h : Keeps s t) : Keeps s (sampleTick t) :=
  (((h.rest.foldl (·.laneEnabled)).foldl (·.laneJudge)).beginForces.endForces.foldl (·.noteForced)).sampleTokens

/-! ### What the functions of Time keep -/

theorem Keeps.enterHoldover (h : Keeps s t) : Keeps s (enterHoldover t) :=
  h.set.set.set.raiseEvent

theorem Keeps.takeSource (h : Keeps s t) :
    Keeps s (takeSource t) := by
  unfold Machine.takeSource
  refine Keeps.ite ?_ ?_
  · exact h
  · extract_lets
    split <;> exact h.rest.set.set

theorem Keeps.judgeFreq {ok : Bool} (h : Keeps s t) : Keeps s (judgeFreq ok t) :=
  Keeps.ite h (Keeps.ite h.rest.set (Keeps.ite h.rest.set h.rest))

theorem Keeps.freqAdj (h : Keeps s t) :
    Keeps s (freqAdj t) := by
  unfold Machine.freqAdj
  refine Keeps.ite ?_ ?_
  · exact h.set
  · refine Keeps.ite ?_ ?_
    · exact h
    · extract_lets
      split
      rename_i e
      exact (h.freeVal.snd e).set

theorem Keeps.stepT (h : Keeps s t) :
    Keeps s (stepT t) := by
  unfold Machine.stepT
  split <;> exact h.rest

theorem Keeps.alignGroups (h : Keeps s t) : Keeps s (alignGroups t) :=
  h.foldl (·.rest)

theorem Keeps.ppsShow (h : Keeps s t) : Keeps s (ppsShow t) :=
  h.rest.foldl (·.set.inc)

theorem Keeps.lensTick {freqOk : Bool} (h : Keeps s t) :
    Keeps s (lensTick freqOk t) := by
  unfold Machine.lensTick
  exact (h.takeSource.judgeFreq.freqAdj.rest.ppsShow.handOverMade.foldl (fun h => h.publish.carryTargets)).alignGroups.bind fun h6 =>
    (Keeps.ite h6.sendCtl.sendCtl h6)

theorem Keeps.tLoad {t' : W} {era : BitVec 16} (h : Keeps s t) : Keeps s (tLoad t' era t) :=
  h.rest

theorem Keeps.ppsEdge {frac : ℕ} {rising : Bool} (h : Keeps s t) : Keeps s (ppsEdge frac rising t) := by
  unfold Machine.ppsEdge
  refine Keeps.ite h ?_
  extract_lets t₁ _ t₂ _ t₃
  have h₃ : Keeps s t₃ := by
    unfold t₃
    split
    · exact h.set.rest.rest
    · exact h.set.rest
  exact Keeps.ite h₃ (Keeps.ite h₃.rest.rest.set (Keeps.ite h₃.rest.rest.set h₃.rest.rest))

theorem Keeps.ppsTimeout (h : Keeps s t) : Keeps s (ppsTimeout t) :=
  Keeps.ite h h.rest.set.set

theorem Keeps.refLoss (h : Keeps s t) : Keeps s (refLoss t) :=
  Keeps.ite h.set.enterHoldover h.set

theorem Keeps.referenceReturn {chain : Bool} (h : Keeps s t) : Keeps s (referenceReturn chain t) :=
  Keeps.ite (Keeps.ite h.rest.set h) (Keeps.ite h.set.rest.set h.set)

theorem Keeps.chainTimeLoss (h : Keeps s t) : Keeps s (chainTimeLoss t) :=
  Keeps.ite h h.rest.enterHoldover.dropFault

theorem Keeps.judgeOffset {word : W} {stamp : BitVec 52} (h : Keeps s t) : Keeps s (judgeOffset word stamp t) :=
  h.rest.setFree.bind fun h3 => (Keeps.ite h3.set.set (Keeps.ite h3.set.holdFault h3.dropFault))

theorem Keeps.timeWord {up : Bool} {word : W} {stamp : BitVec 52} {hold : ℕ} {intact : Bool} (h : Keeps s t) :
    Keeps s (timeWord up word stamp hold intact t) :=
  Keeps.ite h (Keeps.ite h.badCtl (Keeps.ite h.sendCtl.judgeOffset h.sendCtl))

theorem Keeps.techo {up : Bool} {sent received : BitVec 52} {hold : ℕ} {intact : Bool} (h : Keeps s t) :
    Keeps s (techo up sent received hold intact t) :=
  Keeps.ite h (Keeps.ite h.badCtl (Keeps.ite h.rest.set h.rest))

/-! ### What the functions of Sched keep -/

theorem Keeps.toReady {i : ℕ} (h : Keeps s t) : Keeps s (toReady i t) :=
  h.rest.set

theorem Keeps.thrOp {i op : ℕ} (h : Keeps s t) (e : thrOp i op t = some u) : Keeps s u := by
  unfold Machine.thrOp at e
  extract_lets at e
  split at e <;> (try split at e) <;> cases e
  · exact h.toReady
  · exact h.toReady
  · exact h.set
  · exact h

theorem Keeps.schedOp {init c op : ℕ} (h : Keeps s t) :
    Keeps s (schedOp init c op t) := by
  unfold Machine.schedOp
  refine Keeps.ite ?_ ?_
  · exact h
  · split
    · exact h.set
    · split
      · exact h.toReady
      · exact Keeps.ite h.toReady h.set
      · exact h.set

theorem Keeps.schedClaim {k : ℕ} (h : Keeps s t) : Keeps s (schedClaim k t).2 := by
  unfold Machine.schedClaim
  split
  · exact h
  · extract_lets t₁ t₂
    have h₁ : Keeps s t₁ := by
      unfold t₁
      split
      · exact h.toReady
      · exact h
    exact h₁.set.set.set.set.pair

theorem Keeps.slotWake {i : ℕ} (h : Keeps s t) : Keeps s (slotWake i t) :=
  Keeps.ite h.toReady h

theorem Keeps.timer {k : ℕ} (h : Keeps s t) : Keeps s (timer k t) :=
  Keeps.ite h (h.raiseEvent.auxEvent.bind fun h3 => (Keeps.ite h3.set h3.set.set))

theorem Keeps.doorbell {v : ℕ} (h : Keeps s t) : Keeps s (doorbell v t) :=
  h.foldl (fun h => (Keeps.ite h.raiseEvent h))

theorem Keeps.lockAcquire {init k : ℕ} (h : Keeps s t) : Keeps s (lockAcquire init k t).2 :=
  Keeps.iteSnd h h.set.set.inc.set.set.pair

theorem Keeps.lockFree {k : ℕ} (h : Keeps s t) : Keeps s (lockFree k t) :=
  h.set.set.set.set.raiseEvent

theorem Keeps.lockRelease {init k : ℕ} (h : Keeps s t) : Keeps s (lockRelease init k t) :=
  Keeps.ite h.lockFree h.set

theorem Keeps.lockForce {k : ℕ} (h : Keeps s t) : Keeps s (lockForce k t) :=
  h.set.lockFree

theorem Keeps.setMbx {i : ℕ} {l : List MbxEntry} (h : Keeps s t) : Keeps s (t.setMbx i l) :=
  h.rest

theorem Keeps.squashGcol {k : ℕ} (h : Keeps s t) : Keeps s (squashGcol k t) :=
  h.rest

theorem Keeps.mbxAppend {i : ℕ} {e : MbxEntry} (h : Keeps s t) : Keeps s (mbxAppend i e t) :=
  h.setMbx.inc.raiseEvent

theorem Keeps.setInj {c : ℕ} {l : List Token} (h : Keeps s t) : Keeps s (t.setInj c l) :=
  h.rest

theorem Keeps.ginjHandover {c : ℕ} (h : Keeps s t) :
    Keeps s (ginjHandover c t) := by
  unfold Machine.ginjHandover
  split
  · exact h
  · exact Keeps.ite (h.setInj.noteBreak.bind fun h4 => (Keeps.ite h4.raiseEvent h4)).inc (Keeps.ite h (h.setInj.noteBreak.bind fun h6 =>
      (Keeps.ite h6.raiseEvent h6)).inc.sourceRate.countProd.handOver)

/-! ### What the functions of CoreOps keep -/

theorem Keeps.setCore {k : ℕ} {c : Core} (h : Keeps s t) : Keeps s (t.setCore k c) :=
  h.rest

theorem Keeps.cycleOf {k : ℕ} (h : Keeps s t) :
    Keeps s (cycleOf k t).2 := by
  unfold Machine.cycleOf
  split
  rename_i e
  exact (h.freeVal.snd e).pair

theorem Keeps.boundary {k : ℕ} (h : Keeps s t) : Keeps s (boundary k t) :=
  h.setCore.bind fun h2 => (Keeps.ite h2 (Keeps.ite (Keeps.ite h2.set h2) h2.set))

theorem Keeps.haltReqWrite {k : ℕ} {v : Bool} (h : Keeps s t) : Keeps s (haltReqWrite k v t) :=
  (Keeps.ite h.set h.set).bind fun h4 => (Keeps.ite (Keeps.ite h4 (Keeps.ite (Keeps.ite h4.set h4) h4.set)) (h4.setCore.bind fun h3 => (Keeps.ite
    (Keeps.ite h3.rest.set h3) h3.set)))

theorem Keeps.stepWrite {k : ℕ} (h : Keeps s t) : Keeps s (stepWrite k t) :=
  Keeps.ite h.setCore h

theorem Keeps.coreReset {k : ℕ} (h : Keeps s t) : Keeps s (coreReset k t) :=
  h.setCore.squashGcol.bind fun h3 => (Keeps.ite h3.rest h3.rest.set.set)

theorem Keeps.dbgWrite {k sel : ℕ} {v : W} (h : Keeps s t) : Keeps s (dbgWrite k sel v t) :=
  Keeps.ite h.setCore (Keeps.ite h.setCore.squashGcol (Keeps.ite h.setCore (Keeps.ite h.setCore h)))

theorem Keeps.doubleTrap {k code : ℕ} {pc : W} (h : Keeps s t) : Keeps s (doubleTrap k code pc t) :=
  (Keeps.ite h.setCore.set.set h.setCore.set.set.set.set).reportU

theorem Keeps.takeTrap {k code : ℕ} {epc eaddr : W} {arg : ℕ} {imprecise : Bool} {pc : W} (h : Keeps s t) :
    Keeps s (takeTrap k code epc eaddr arg imprecise pc t) :=
  Keeps.ite h.squashGcol.doubleTrap (Keeps.ite h (h.setCore.squashGcol.bind fun h3 => (Keeps.ite h3.inc.set h3.inc.set.set).boundary))

theorem Keeps.endReservations {a : ℕ} (h : Keeps s t) : Keeps s (endReservations a t) :=
  h.rest

theorem Keeps.ctlWrite {a n v : ℕ} (h : Keeps s t) : Keeps s (ctlWrite a n v t) :=
  h.writeN.endReservations

theorem Keeps.ctlCheck {a natural : ℕ} (h : Keeps s t) :
    Keeps s (ctlCheck a natural t).2 := by
  unfold Machine.ctlCheck
  extract_lets
  split
  rename_i e
  have h1 := (h.secded.snd2 e)
  exact Keeps.iteSnd h1.report.pair (Keeps.iteSnd h1.report.pair h1.pair)

theorem Keeps.svResetWrite (h : Keeps s t) : Keeps s (svResetWrite t) :=
  Keeps.ite h h.coreReset.set.set.set.set

theorem Keeps.cmpTest {ok : Bool} (h : Keeps s t) : Keeps s (cmpTest ok t) :=
  Keeps.ite h (Keeps.ite h.set h.set.reportU)

theorem Keeps.svRunWrite (h : Keeps s t) : Keeps s (svRunWrite t) :=
  Keeps.ite h.setCore.rest.set.set.boundary h

theorem Keeps.kick (h : Keeps s t) : Keeps s (kick t) :=
  h.rest

theorem Keeps.watchdogExpiry (h : Keeps s t) : Keeps s (watchdogExpiry t) :=
  Keeps.ite h h.trip.set.reportU.rest

theorem Keeps.svTimer (h : Keeps s t) : Keeps s (svTimer t) :=
  Keeps.ite h h.set.set

/-! ### What the functions of Faults keep -/

theorem Keeps.mcEntry {type : ℕ} {w0 : BitVec 64} {content : ℕ} (h : Keeps s t) : Keeps s (mcEntry type w0 content t) :=
  h.set.set.rest

theorem Keeps.mcEvent {code arg : ℕ} (h : Keeps s t) : Keeps s (mcEvent code arg t) :=
  h.mcEntry

theorem Keeps.withNFlt {f : State → State} (h : Keeps s t) (hf : ∀ {u : State}, Keeps s u → Keeps s (f u)) : Keeps s (withNFlt f t) :=
  Keeps.ite (hf h).set.raiseEvent (hf h)

theorem Keeps.appendRecord {r : BitVec 64 × BitVec 64} (h : Keeps s t) :
    Keeps s (appendRecord r t) := by
  unfold Machine.appendRecord
  refine Keeps.ite ?_ ?_
  · exact h.rest
  · refine Keeps.ite ?_ ?_
    · exact h.inc.raiseEvent
    · split
      · exact h.rest.inc.raiseEvent
      · exact h.inc.raiseEvent

theorem Keeps.makeRecord {kind cls : ℕ} {exc wire inj : Bool} {part : Option ℕ} {l detail : ℕ} {t' : W} (h : Keeps s t) :
    Keeps s (makeRecord kind cls exc wire inj part l detail t' t) :=
  h.appendRecord.bind fun h7 => (((Keeps.ite h7 h7.mcEntry).set.withNFlt (·.set)).bind fun h6 => (Keeps.ite h6.raiseEvent
    (Keeps.ite h6.raiseEvent h6)))

theorem Keeps.fatalPath {w1 : BitVec 64} (h : Keeps s t) : Keeps s (fatalPath w1 t) :=
  Keeps.ite h ((h.withNFlt (·.rest)).foldl (·.set)).beginForces.sendCtl.sendCtl

theorem Keeps.setInst {i : FInst} (h : Keeps s t) : Keeps s (setInst i t) :=
  h.rest

theorem Keeps.collectQuarantine {c : ℕ} (h : Keeps s t) : Keeps s (collectQuarantine c t) :=
  Keeps.ite h h.quarantine.raiseEvent

theorem Keeps.collectOffline {b : ℕ} (h : Keeps s t) : Keeps s (collectOffline b t) :=
  Keeps.ite h (h.raiseEvent.bind fun h2 => (Keeps.ite h2 h2.takeOffline.mcEvent))

theorem Keeps.faultAction {k l : ℕ} (h : Keeps s t) : Keeps s (faultAction k l t) :=
  Keeps.ite h.collectQuarantine (Keeps.ite h.collectOffline h)

theorem Keeps.takeEvent {e : FaultEv} (h : Keeps s t) : Keeps s (takeEvent e t) :=
  h.setInst.inc.bind fun h9 => ((Keeps.ite h9.set.inc.raiseEvent h9).makeRecord.bind fun h8 => ((Keeps.ite h8.faultAction h8).bind fun h7 =>
    ((Keeps.ite h7.collectQuarantine h7).bind fun h6 => (Keeps.ite h6.fatalPath h6))))

theorem Keeps.faultEvent (h : Keeps s t) :
    Keeps s (faultEvent t) := by
  unfold Machine.faultEvent
  refine Keeps.ite ?_ ?_
  · exact h
  · split
    · exact h
    · split
      · exact h
      · exact h.rest.takeEvent

theorem Keeps.wrongPair {kind l : ℕ} {inj : Bool} (h : Keeps s t) : Keeps s (wrongPair kind l inj t) :=
  Keeps.ite h h.makeRecord.raiseEvent

theorem Keeps.wireFault {kind l : ℕ} {wrong : Bool} (h : Keeps s t) : Keeps s (wireFault kind l wrong t) :=
  Keeps.ite h (Keeps.ite h.rest (Keeps.ite h h.wrongPair.rest))

theorem Keeps.pairTick (h : Keeps s t) : Keeps s (pairTick t) :=
  h.rest

theorem Keeps.ackKind {k : ℕ} (h : Keeps s t) : Keeps s (ackKind k t) :=
  Keeps.ite h.set.rest h.set.rest.set.set

theorem Keeps.popLog (h : Keeps s t) : Keeps s (popLog t) :=
  h.rest

theorem Keeps.clearRecord (h : Keeps s t) : Keeps s (clearRecord t) :=
  h.rest

theorem Keeps.startCollector (h : Keeps s t) : Keeps s (startCollector t) :=
  Keeps.ite h h.set.set.takeEvent

theorem Keeps.injCtlWrite {v : ℕ} {hits : Bool} (h : Keeps s t) : Keeps s (injCtlWrite v hits t).2 :=
  Keeps.iteSnd h (Keeps.iteSnd h (Keeps.iteSnd h ((Keeps.ite h.set.set.set h.set.set).bind fun h5 => (Keeps.iteSnd h5.set.pair (Keeps.iteSnd
    (Keeps.ite h5.set.wrongPair h5.set).rest.pair h5.set.pair)))))

theorem Keeps.lockstepMiscompare {group : ℕ} {a b wire : Bool} (h : Keeps s t) : Keeps s (lockstepMiscompare group a b wire t) := by
  unfold Machine.lockstepMiscompare
  extract_lets st t₁ _ t₂ t₃ t₄
  have h₂ : Keeps s t₂ := h.set.setCore
  refine Keeps.ite h (Keeps.takeEvent (Keeps.ite h₂ ?_))
  split
  rename_i e
  have h₄ : Keeps s t₄ := h₂.set.set.set.set.set
  exact (h₄.cycleOf.snd e).set.set

/-! ### What the functions of Capture keep -/

theorem Keeps.setCap {k : ℕ} {c : CapStream} (h : Keeps s t) : Keeps s (t.setCap k c) :=
  h.rest

theorem Keeps.captureWord {k : ℕ} {data : W} (h : Keeps s t) : Keeps s (captureWord k data t) :=
  h.setCap.pfPut

theorem Keeps.writeRing {k o : ℕ} {ws : List (BitVec 64)} (h : Keeps s t) : Keeps s (writeRing k o ws t) := by
  induction ws generalizing t o with
  | nil => unfold Machine.writeRing; exact h
  | cons w ws ih => unfold Machine.writeRing; exact ih h.writeN

theorem Keeps.finishRecord {k : ℕ} (h : Keeps s t) : Keeps s (finishRecord k t) :=
  h.writeRing.bind fun h9 => ((Keeps.ite h9.set.inc.setCap.set h9.set.inc.setCap).bind fun h8 => ((Keeps.ite h8.set h8).bind fun h7 =>
    (Keeps.ite h7.raiseEvent h7)))

theorem Keeps.joinRecord {k : ℕ} {w : PfWord} {poison : Bool} (h : Keeps s t) : Keeps s (joinRecord k w poison t) :=
  Keeps.ite h.setCap.finishRecord h.setCap

theorem Keeps.endCut {k : ℕ} (h : Keeps s t) :
    Keeps s (endCut k t) := by
  unfold Machine.endCut
  split
  · exact Keeps.ite h.finishRecord h
  · exact h

theorem Keeps.takeWords {k n : ℕ} {errs : List ℕ} (h : Keeps s t) : Keeps s (takeWords k errs n t) := by
  induction n generalizing t errs with
  | zero => unfold Machine.takeWords; exact h
  | succ n ih =>
    unfold Machine.takeWords
    extract_lets t₁
    have h₁ : Keeps s t₁ := h.endCut
    refine Keeps.ite h₁ (Keeps.ite h₁.set ?_)
    split
    · rename_i e
      exact h₁.set.pfTake.snd e
    · rename_i e
      exact (h₁.set.pfTake.snd e).joinRecord.bind fun h => Keeps.ite h (ih h)

theorem Keeps.captureRecord {k : ℕ} {errs : List ℕ} (h : Keeps s t) : Keeps s (captureRecord k errs t) :=
  h.takeWords

theorem Keeps.closeShort {k : ℕ} (h : Keeps s t) :
    Keeps s (closeShort k t) := by
  unfold Machine.closeShort
  refine Keeps.ite ?_ ?_
  · exact h
  · extract_lets
    split
    · exact h.setCap.setFifo
    · split
      · exact h.setCap.setFifo
      · exact h.setCap.setFifo.bind fun h10 => (Keeps.ite h10 h10.setCap.finishRecord)

theorem Keeps.captureShortClose {k : ℕ} (h : Keeps s t) : Keeps s (captureShortClose k t) :=
  Keeps.ite h h.closeShort

theorem Keeps.capRpWrite {k v : ℕ} (h : Keeps s t) : Keeps s (capRpWrite k v t) :=
  Keeps.ite h.set h.set

theorem Keeps.capRestart {k : ℕ} (h : Keeps s t) : Keeps s (capRestart k t) :=
  h.setCap.set.set

theorem Keeps.capCfgWrite {k v : ℕ} {hitsEn : Bool} (h : Keeps s t) : Keeps s (capCfgWrite k v hitsEn t).2 :=
  Keeps.iteSnd (Keeps.iteSnd h (Keeps.iteSnd h.capRestart.pair h.closeShort.set.pair)) (Keeps.iteSnd h
    ((Keeps.ite h h.set).set.set.set.set.bind fun h4 => (Keeps.iteSnd h4.capRestart.set.pair h4.pair)))

/-! ### What the functions of Chain keep -/

theorem Keeps.bootFail {err : ℕ} (h : Keeps s t) : Keeps s (bootFail err t) :=
  h.rest.set.mcEvent.raiseEvent.reportU.bind fun h5 => (Keeps.ite (h5.foldl (·.set)) h5)

theorem Keeps.linkTo {up : Bool} {st : ℕ} (h : Keeps s t) : Keeps s (linkTo up st t) :=
  Keeps.ite h h.set.set.raiseEvent

theorem Keeps.restartCredits {up : Bool} (h : Keeps s t) : Keeps s (restartCredits up t) :=
  h.rest

theorem Keeps.sendEnum (h : Keeps s t) : Keeps s (sendEnum t) :=
  Keeps.ite h.postCtl h

theorem Keeps.blockLock {up : Bool} {lanes : ℕ} (h : Keeps s t) : Keeps s (blockLock up lanes t) :=
  Keeps.ite h (Keeps.ite h.set.linkTo.linkTo h.set)

theorem Keeps.dropChain {up : Bool} (h : Keeps s t) : Keeps s (dropChain up t) :=
  h.inc.report

theorem Keeps.dropHeld {up : Bool} (h : Keeps s t) : Keeps s (dropHeld up t) :=
  ((h.rest.foldl (fun h => h.freeChain.foldl (fun h => h.dropChain))).foldl (fun h => h.dropChain)).rest

theorem Keeps.unmeasured {up : Bool} (h : Keeps s t) : Keeps s (unmeasured up t) :=
  h.rest

theorem Keeps.linkCapacity {up lost : Bool} (h : Keeps s t) : Keeps s (linkCapacity up lost t) :=
  Keeps.ite h.rest.loseCapacity h.rest

theorem Keeps.chainDown {up : Bool} (h : Keeps s t) : Keeps s (chainDown up t) :=
  Keeps.ite h (h.linkTo.set.inc.bind fun h2 => (Keeps.ite h2.unmeasured.dropHeld.linkCapacity h2))

theorem Keeps.chainAlign {up good : Bool} (h : Keeps s t) : Keeps s (chainAlign up good t) :=
  Keeps.ite (h.linkTo.restartCredits.linkCapacity.bind fun h2 => (Keeps.ite h2.sendEnum h2)) (Keeps.ite h.chainDown h)

theorem Keeps.takeCredit {up : Bool} {e : ℕ} (h : Keeps s t) : Keeps s (takeCredit up e t) :=
  Keeps.ite h h.rest

theorem Keeps.credit {up : Bool} {content : W} {intact : Bool} (h : Keeps s t) : Keeps s (credit up content intact t) :=
  Keeps.ite h (Keeps.ite h.badCtl (h.foldl (·.takeCredit)))

theorem Keeps.creditBlock {up : Bool} (h : Keeps s t) : Keeps s (creditBlock up t).2 :=
  h.rest.pair

theorem Keeps.sendCredits {up : Bool} (h : Keeps s t) :
    Keeps s (sendCredits up t) := by
  unfold Machine.sendCredits
  refine Keeps.ite ?_ ?_
  · exact h
  · split
    rename_i e
    exact (h.creditBlock.snd e).sendCtl

theorem Keeps.enumTake {number : ℕ} {era : BitVec 16} {t' : W} {n : ℕ} (h : Keeps s t) : Keeps s (enumTake number era t' n t) :=
  h.set.rest

theorem Keeps.enum {number : ℕ} {era : BitVec 16} {t' : W} {intact : Bool} (h : Keeps s t) : Keeps s (enum number era t' intact t) :=
  Keeps.ite h.bootFail (Keeps.ite h (Keeps.ite h.badCtl (Keeps.ite h.sendCtl (Keeps.ite h (Keeps.ite h.bootFail (Keeps.ite h.enumTake h.rest))))))

theorem Keeps.done {len : ℕ} {intact : Bool} (h : Keeps s t) : Keeps s (done len intact t) :=
  Keeps.ite h.bootFail (Keeps.ite h (Keeps.ite h.badCtl (Keeps.ite h (Keeps.ite h.set h.set.sendCtl))))

theorem Keeps.chainTick (h : Keeps s t) : Keeps s (chainTick t) := by
  unfold Machine.chainTick
  extract_lets t₁
  have h₁ : Keeps s t₁ := by
    unfold t₁
    split
    · exact Keeps.ite h.enumTake h
    · exact h
  clear_value t₁
  exact (Keeps.ite h₁ (Keeps.ite h₁.rest.set.sendCtl (Keeps.ite h₁.rest.sendEnum h₁))).sendCredits.sendCredits

theorem Keeps.fatalNotice {up : Bool} {pkg : ℕ} {intact : Bool} (h : Keeps s t) : Keeps s (fatalNotice up pkg intact t) :=
  Keeps.ite h (Keeps.ite h.badCtl h.reportU.sendCtl)

/-! ### What the functions of Output keep -/

theorem Keeps.outEffect {o : OutVal} (h : Keeps s t) :
    Keeps s (outEffect o t) := by
  unfold Machine.outEffect
  split
  · exact h.forceRelease.set.rest
  · exact h.writeSlot
  · exact h.captureWord
  · exact h.set.beginForces
  · exact h.mbxAppend
  · exact h

theorem Keeps.emitEffect {o : OutVal} (h : Keeps s t) :
    Keeps s (emitEffect o t) := by
  unfold Machine.emitEffect
  refine Keeps.ite ?_ ?_
  · exact h.outEffect
  · split
    · exact h.outEffect.setFifo
    · exact h.outEffect.setMbx
    · exact h

theorem Keeps.applyOut {o : OutVal} {late : Bool} (h : Keeps s t) : Keeps s (applyOut o late t) :=
  (Keeps.ite h.deliveryMiss h).bind fun h4 => ((Keeps.ite h4.rest.outEffect (Keeps.ite h4.emitEffect h4.outEffect)).bind fun h3 =>
    (Keeps.ite h3.respond h3))

theorem Keeps.refuseOut {o : OutVal} (h : Keeps s t) : Keeps s (refuseOut o t) :=
  Keeps.ite h.report.respond h.report

theorem Keeps.takeOut {o : OutVal} (h : Keeps s t) : Keeps s (takeOut o t) :=
  Keeps.ite h.refuseOut (Keeps.ite h.rest h.applyOut)

theorem Keeps.output (h : Keeps s t) :
    Keeps s (output t) := by
  unfold Machine.output
  split
  · exact h
  · exact h.rest.bind fun h5 => (Keeps.ite (Keeps.ite h5.reqErr.send h5.reqErr) (Keeps.ite h5.rest h5.takeOut))

theorem Keeps.emitAtDue (h : Keeps s t) :
    Keeps s (emitAtDue t) := by
  unfold Machine.emitAtDue
  split
  · exact h
  · exact Keeps.ite h.rest.refuseOut h.rest.applyOut

theorem Keeps.outputRoom (h : Keeps s t) :
    Keeps s (outputRoom t) := by
  unfold Machine.outputRoom
  split
  · exact h
  · exact h.rest.takeOut

/-! ### What the functions of Pins keep -/

theorem Keeps.copyFrame {frm dst : ℕ} (h : Keeps s t) : Keeps s (copyFrame frm dst t) :=
  h.foldl (·.writeSlot)

theorem Keeps.mirrorFlip (h : Keeps s t) : Keeps s (mirrorFlip t) :=
  Keeps.ite h h.set.copyFrame.set.set.inc.raiseEvent

theorem Keeps.mirrorRead {a : ℕ} {oe : Bool} (h : Keeps s t) : Keeps s (mirrorRead a oe t) :=
  h.rest

theorem Keeps.auxCfgWrite {k f sel : ℕ} (h : Keeps s t) : Keeps s (auxCfgWrite k f sel t) :=
  Keeps.ite h (Keeps.ite h.set h).set.set.setAux

theorem Keeps.auxSwitch {k : ℕ} (h : Keeps s t) : Keeps s (auxSwitch k t) :=
  Keeps.ite h h.setAux.set.set

theorem Keeps.evin {k : ℕ} {level early : Bool} (h : Keeps s t) : Keeps s (evin k level early t) :=
  Keeps.ite h.setAux h.setAux.raiseEvent

theorem Keeps.jtagLoad {code : ℕ} {nreset : Bool} (h : Keeps s t) : Keeps s (jtagLoad code nreset t) :=
  h.rest

theorem Keeps.jtagInstruction {q : JtagIn} {nreset : Bool} (h : Keeps s t) :
    Keeps s (jtagInstruction q nreset t) := by
  unfold Machine.jtagInstruction
  split
  · exact h.jtagLoad
  · exact h.rest
  · exact Keeps.ite h.rest h

/-! ### What the functions of Power keep -/

theorem Keeps.setLedger {i v : ℕ} (h : Keeps s t) : Keeps s (setLedger i v t) :=
  h.rest

theorem Keeps.ledgerCrc (h : Keeps s t) : Keeps s (ledgerCrc t) :=
  h.setLedger

theorem Keeps.ledgerInc {i : ℕ} {high : Bool} (h : Keeps s t) : Keeps s (ledgerInc i high t) :=
  h.setLedger.ledgerCrc

theorem Keeps.setVfCap (h : Keeps s t) : Keeps s (Machine.setCap t) := h.set

theorem Keeps.applyVf (h : Keeps s t) : Keeps s (applyVf t) :=
  Keeps.ite h h.rest

theorem Keeps.railReading {m v : ℕ} (h : Keeps s t) : Keeps s (railReading m v t) := by
  unfold Machine.railReading
  refine Keeps.ite h.set.set ?_
  split
  · exact h.set
  · extract_lets t₁ t₂
    have h₂ : Keeps s t₂ := Keeps.ite h.set.set.set.setVfCap h.set.set.set
    exact Keeps.ite h₂ (Keeps.ite h₂.rest h₂.rest.dropFault)

theorem Keeps.railFault {m : ℕ} (h : Keeps s t) :
    Keeps s (railFault m t) := by
  unfold Machine.railFault
  split
  · exact Keeps.ite h.holdFault h
  · exact h

theorem Keeps.pwrCtlWrite {v : ℕ} {hits : Bool} (h : Keeps s t) : Keeps s (pwrCtlWrite v hits t) := by
  unfold Machine.pwrCtlWrite
  refine Keeps.ite h ?_
  extract_lets locked vf pk t₁ t₂
  have h₁ : Keeps s t₁ := Keeps.ite h h.set
  have h₂ : Keeps s t₂ := Keeps.ite h₁ h₁.set
  exact (Keeps.ite h₂.set h₂).setVfCap.applyVf

theorem Keeps.powerEstimate {watts : ℕ} (h : Keeps s t) : Keeps s (powerEstimate watts t) :=
  h.rest.set.set.bind fun h3 => (Keeps.ite (Keeps.ite h3.set h3) (Keeps.ite h3.set.set h3))

theorem Keeps.setRamp {f : ℕ} {o : Option ℕ} (h : Keeps s t) : Keeps s (setRamp f o t) :=
  h.rest

theorem Keeps.rampWatch (h : Keeps s t) : Keeps s (rampWatch t) := by
  refine h.foldl fun h => Keeps.ite h.setRamp ?_
  split
  · exact Keeps.ite h h.setRamp
  · exact Keeps.ite h.setRamp h

theorem Keeps.clockRampStep {f : ℕ} (h : Keeps s t) :
    Keeps s (clockRampStep f t) := by
  unfold Machine.clockRampStep
  extract_lets
  split
  · exact h
  · exact Keeps.ite h h.setRamp.set.applyVf

theorem Keeps.shedStepAt {f : ℕ} (h : Keeps s t) : Keeps s (shedStepAt f t) := by
  unfold Machine.shedStepAt
  extract_lets next order k _ t₁ t₂
  have h₂ : Keeps s t₂ := h.rest.inc
  clear_value k
  split
  · exact h₂.set
  · exact (h₂.foldl fun h => (Keeps.ite h.markLost h.set.set).stopPartition).set

theorem Keeps.shedStep {f : ℕ} (h : Keeps s t) :
    Keeps s (shedStep f t) := by
  unfold Machine.shedStep
  split
  · exact h
  · exact Keeps.ite h (Keeps.ite h.shedStepAt h.rest.set.set)

theorem Keeps.setHottest {f : ℕ} (h : Keeps s t) : Keeps s (setHottest f t) :=
  h.set.set.set

theorem Keeps.throttle {f : ℕ} (h : Keeps s t) : Keeps s (throttle f t) :=
  Keeps.ite h h.set.set.ledgerInc

theorem Keeps.coolWatch {f : ℕ} (h : Keeps s t) : Keeps s (coolWatch f t) :=
  Keeps.ite h.rest h.rest

theorem Keeps.convert {n v : ℕ} (h : Keeps s t) : Keeps s (convert n v t) :=
  (Keeps.ite h.setHottest.coolWatch h).bind fun h8 => (Keeps.ite h8.holdFault (h8.dropFault.bind fun h7 => (Keeps.ite h7
    ((Keeps.ite h7.throttle h7).bind fun h6 => ((Keeps.ite h6.loseCapacity h6).bind fun h5 => (Keeps.ite h5.set.shedStepAt.ledgerInc h5))))))

theorem Keeps.sensorConversion {n : ℕ} {r : Option ℕ} (h : Keeps s t) :
    Keeps s (sensorConversion n r t) := by
  unfold Machine.sensorConversion
  split
  · exact h.rest.convert
  · exact Keeps.ite h.rest.convert h.rest

theorem Keeps.throttleRelease {f : ℕ} (h : Keeps s t) :
    Keeps s (throttleRelease f t) := by
  unfold Machine.throttleRelease
  split
  · exact Keeps.ite h.set.set h
  · exact h

theorem Keeps.sensorRead (h : Keeps s t) : Keeps s (sensorRead t) := by
  refine h.foldl fun h => ?_
  split
  · exact h
  · exact (Keeps.ite h h.set).set.set.rest

theorem Keeps.maxClear {n : ℕ} (h : Keeps s t) : Keeps s (maxClear n t) :=
  h.set

theorem Keeps.wearMinute (h : Keeps s t) : Keeps s (wearMinute t) :=
  (h.setLedger.foldl (·.setLedger)).rest.ledgerCrc

/-! ### What the functions of Views keep -/

theorem Keeps.fatalRecordWrite (h : Keeps s t) : Keeps s (fatalRecordWrite t) :=
  Keeps.ite h h.rest.ledgerInc

/-! ### What the functions of Address keep -/

theorem Keeps.putField {f : Fld} {i x : ℕ} (h : Keeps s t) (hf : f.id ≠ F.clStatus_STATE.id := by decide) : Keeps s (putField f i x t) :=
  Keeps.ite (Keeps.ite (h.set hf) h) (Keeps.ite (h.set hf) h)

/-- A write by the access codes leaves STATE, which is read-only (R17). -/
theorem Keeps.writeField {w : Wr} {f : Fld} (h : Keeps s t) (hf : f.id = F.clStatus_STATE.id → f.acc = .ro := by decide) :
    Keeps s (writeField w f t) := by
  by_cases hro : f.acc = .ro
  · rw [writeField_readOnly w (.inl hro)]
    exact h
  · have hid : f.id ≠ F.clStatus_STATE.id := fun e => hro (hf e)
    by_cases hw : f.acc = .w1c
    · cases ht : w.touches f with
      | false => rw [writeField_untouched ht]; exact h
      | true => rw [writeField_w1c ht hw]; exact h.set hid
    · rcases writeField_keeps_or_puts w hw t with e | e
      · rw [e]; exact h
      · rw [e]; exact h.putField hid

theorem Keeps.writeFields {w : Wr} {fs : List Fld} (h : Keeps s t) (hfs : StateReadOnly fs := by assumption) : Keeps s (writeFields w fs t) :=
  h.foldlMem fun hf h => h.writeField (hfs _ hf)

/-! ### What the functions of RegWrite keep -/

theorem Keeps.permit {ok : Bool} {f : State → State} (h : Keeps s t) (hf : ∀ {u : State}, Keeps s u → Keeps s (f u)) :
    Keeps s (permit ok f t).2 :=
  Keeps.iteSnd (hf h).pair h

theorem Keeps.coordCfgWrite {w : Wr} {fs : List Fld} (h : Keeps s t) (hfs : StateReadOnly fs := by assumption) : Keeps s (coordCfgWrite w fs t) :=
  h.writeFields.bind fun h2 => (Keeps.ite h2 h2.restartCoord)

theorem Keeps.mainsCfgWrite {w : Wr} {fs : List Fld} (h : Keeps s t) (hfs : StateReadOnly fs := by assumption) : Keeps s (mainsCfgWrite w fs t) :=
  h.writeFields.bind fun h2 => (Keeps.ite h2.stopMains h2)

theorem Keeps.letStep (h : Keeps s t) : Keeps s (letStep t) :=
  Keeps.ite h.set h

theorem Keeps.rscStep (h : Keeps s t) : Keeps s (rscStep t) :=
  Keeps.ite h.set h

theorem Keeps.letWrite {v : ℕ} (h : Keeps s t) : Keeps s (letWrite v t) :=
  h.rest.letStep

theorem Keeps.rscWrite {v : ℕ} (h : Keeps s t) : Keeps s (rscWrite v t) :=
  h.rest.rscStep

theorem Keeps.tLoadWrite {w : Wr} (h : Keeps s t) : Keeps s (tLoadWrite w t) :=
  Keeps.ite h.tLoad (Keeps.ite h.rest h.tLoad)

theorem Keeps.trigCfgWrite {w : Wr} {fs : List Fld} (h : Keeps s t) (hfs : StateReadOnly fs := by assumption) : Keeps s (trigCfgWrite w fs t).2 :=
  h.permit (·.keepTrig.noteEn.writeFields)

theorem Keeps.rsCfgWrite {w : Wr} {fs : List Fld} (h : Keeps s t) (hfs : StateReadOnly fs := by assumption) : Keeps s (rsCfgWrite w fs t).2 :=
  h.permit (·.writeFields)

theorem Keeps.laneCfgWrite {w : Wr} {fs : List Fld} (h : Keeps s t) (hfs : StateReadOnly fs := by assumption) : Keeps s (laneCfgWrite w fs t) := by
  refine h.keepOld.keepOld.keepOld.keepOld.writeFields ?_
  split
  · exact fun f hf => hfs f (List.mem_filter.1 hf).1
  · exact hfs

theorem Keeps.chCfgWrite {w : Wr} {fs : List Fld} (h : Keeps s t) (hfs : StateReadOnly fs := by assumption) : Keeps s (chCfgWrite w fs t).2 :=
  h.permit (·.keepOld.writeFields)

theorem Keeps.chCmpWrite {w : Wr} {fs : List Fld} (h : Keeps s t) (hfs : StateReadOnly fs := by assumption) : Keeps s (chCmpWrite w fs t) :=
  h.writeFields.cmpWritten

theorem Keeps.ilkTestWrite {w : Wr} {fs : List Fld} (h : Keeps s t) (hfs : StateReadOnly fs := by assumption) : Keeps s (ilkTestWrite w fs t) :=
  h.writeFields.rest

theorem Keeps.ilkForceWrite {w : Wr} {fs : List Fld} (h : Keeps s t) (hfs : StateReadOnly fs := by assumption) : Keeps s (ilkForceWrite w fs t) :=
  h.writeFields.beginForces

theorem Keeps.svCtlWrite {w : Wr} (h : Keeps s t) : Keeps s (svCtlWrite w t) :=
  h.writeField.writeField.bind fun h6 => ((Keeps.ite h6.svResetWrite h6).bind fun h5 => ((Keeps.ite h5.cmpTest h5).bind fun h4 =>
    (Keeps.ite h4.svRunWrite h4)))

theorem Keeps.svBootWrite {w : Wr} (h : Keeps s t) : Keeps s (svBootWrite w t) :=
  Keeps.ite h h.set

theorem Keeps.svWdogWrite {init : ℕ} {priv : Bool} {w : Wr} (h : Keeps s t) : Keeps s (svWdogWrite init priv w t).2 :=
  Keeps.iteSnd h (h.writeField.writeField.bind fun h4 => ((Keeps.ite h4.kick h4).bind fun h3 => (Keeps.ite h3.kick h3).pair))

theorem Keeps.mbxInWrite {init : ℕ} {w : Wr} {fs : List Fld} (h : Keeps s t) (hfs : StateReadOnly fs := by assumption) :
    Keeps s (mbxInWrite init w fs t).2 :=
  h.permit (·.writeFields.set.set)

theorem Keeps.mbxOutWrite {init : ℕ} {priv : Bool} {w : Wr} {fs : List Fld} (h : Keeps s t) (hfs : StateReadOnly fs := by assumption) :
    Keeps s (mbxOutWrite init priv w fs t).2 :=
  h.permit (·.writeFields.set)

theorem Keeps.ccCtlWrite {w : Wr} (h : Keeps s t) : Keeps s (ccCtlWrite w t) :=
  h.writeField.bind fun h2 => (Keeps.ite h2.coreReset h2)

theorem Keeps.dbgCtlWrite {k : ℕ} {fHalt fStep fSel : Fld} {w : Wr} (h : Keeps s t)
    (hf : fSel.id = F.clStatus_STATE.id → fSel.acc = .ro := by decide) : Keeps s (dbgCtlWrite k fHalt fStep fSel w t) := by
  unfold Machine.dbgCtlWrite
  extract_lets t₁ t₂
  have h₂ : Keeps s t₂ := Keeps.ite (h.writeField hf).haltReqWrite (h.writeField hf)
  exact Keeps.ite h₂.stepWrite h₂

theorem Keeps.thrCfgWrite {w : Wr} {fs : List Fld} (h : Keeps s t) (hfs : StateReadOnly fs := by assumption) :
    Keeps s (thrCfgWrite w fs t).2 := by
  unfold Machine.thrCfgWrite
  refine Keeps.iteSnd ?_ ?_
  · exact h.writeFields.pair
  · split
    · rename_i e
      exact (h.thrOp e).writeFields.pair
    · exact h

theorem Keeps.evCfgWrite {w : Wr} {fs : List Fld} (h : Keeps s t) (hfs : StateReadOnly fs := by assumption) : Keeps s (evCfgWrite w fs t) :=
  h.writeFields.bind fun h2 => (Keeps.ite h2.raiseEvent h2)

theorem Keeps.lkWrite {init : ℕ} {w : Wr} (h : Keeps s t) : Keeps s (lkWrite init w t) :=
  (Keeps.ite h.lockRelease h).bind fun h2 => (Keeps.ite h2.lockForce h2)

theorem Keeps.fkCfgWrite {w : Wr} (h : Keeps s t) : Keeps s (fkCfgWrite w t) :=
  h.writeField.bind fun h4 => (Keeps.ite h4.writeField h4).withNFlt (·.writeField)

theorem Keeps.mcCmdWrite {op : ℕ} (h : Keeps s t) : Keeps s (mcCmdWrite op t) :=
  Keeps.ite h.set (Keeps.ite h.set.set.raiseEvent h.rest.set.set)

theorem Keeps.dlCtlWrite {w : Wr} (h : Keeps s t) : Keeps s (dlCtlWrite w t) :=
  (Keeps.ite h h.writeField).writeField.writeField

theorem Keeps.spillCfgWrite {w : Wr} {fs : List Fld} (h : Keeps s t) (hfs : StateReadOnly fs := by assumption) : Keeps s (spillCfgWrite w fs t).2 :=
  h.permit (·.writeFields)

theorem Keeps.bankPwrRegWrite {init : ℕ} {w : Wr} (h : Keeps s t) : Keeps s (bankPwrRegWrite init w t).2 :=
  Keeps.iteSnd h (Keeps.iteSnd (h.permit (·.takeOffline)) h.bankPwrWrite)

theorem Keeps.arithWrite {w : Wr} {fs : List Fld} (h : Keeps s t) (hfs : StateReadOnly fs := by assumption) : Keeps s (arithWrite w fs t) :=
  h.writeFields.rest

theorem Keeps.regWrite {init : ℕ} {priv full : Bool} {b : Blk} {d : RegDef} {w : Wr} (h : Keeps s t) (hfs : StateReadOnly d.fs := by assumption) :
    Keeps s (regWrite init priv full b d w t).2 := by
  unfold Machine.regWrite
  refine Keeps.iteSnd ?_ ?_
  · exact h
  · split
    · exact h.permit (fun h => (Keeps.ite h h.writeFields))
    · exact h.spillCfgWrite
    · exact (Keeps.ite h.clearMarks h).pair
    · exact h.writeFields.bind fun h11 => (Keeps.ite h11.set h11).pair
    · exact (Keeps.ite h.set h).pair
    · exact Keeps.iteSnd h (h.permit (·.writeFields))
    · exact h.permit (·.writeFields)
    · exact h.permit (·.writeFields)
    · exact h.permit (·.writeFields)
    · exact h.permit (·.writeFields)
    · exact h.permit (·.writeFields)
    · exact h.permit (·.writeFields)
    · exact h.bankOwnWrite
    · exact h.bankPwrRegWrite
    · exact h.arithWrite.pair
    · exact h.dlCtlWrite.pair
    · exact h.permit (fun h => (Keeps.ite h.apCmdWrite h))
    · exact h.permit (·.writeFields)
    · exact h.permit (·.writeFields)
    · exact h.permit (·.writeFields)
    · exact h.permit (·.writeFields)
    · exact h.permit (·.writeFields)
    · exact h.permit (·.writeFields)
    · exact h.permit (·.writeFields)
    · exact h.permit (·.writeFields)
    · exact (Keeps.ite h.set h).pair
    · exact h.permit (·.tLoadWrite)
    · exact h.permit (·.coordCfgWrite)
    · exact h.permit (·.writeFields)
    · exact h.permit (·.writeFields)
    · exact h.permit (·.mainsCfgWrite)
    · exact h.permit (·.letWrite)
    · exact h.permit (·.rscWrite)
    · exact h.rsCfgWrite
    · exact h.permit (·.writeFields)
    · exact h.permit (·.writeFields)
    · exact h.permit (·.writeFields)
    · exact h.trigCfgWrite
    · exact h.keepTrig.noteTarget.writeFields.pair
    · exact h.permit (·.writeFields)
    · exact h.permit (·.writeFields)
    · exact h.permit (·.laneCfgWrite)
    · exact Keeps.iteSnd h.writeField.writeField.pair (h.permit (·.writeFields))
    · exact h.permit (·.writeFields)
    · exact h.permit (fun h => (Keeps.ite h.pfDrop h))
    · exact h.chCfgWrite
    · exact h.permit (·.writeFields)
    · exact h.permit (·.writeFields.cmpWritten)
    · exact h.permit (fun h => h.chCmpWrite)
    · exact h.permit (·.keepOld.keepOld.writeFields)
    · exact h.permit (·.ilkTestWrite)
    · exact h.permit (·.writeFields)
    · exact h.barCfgWrite.pair
    · exact (Keeps.ite h.barArriveWrite h).pair
    · exact (Keeps.ite h.gschedWrite h).pair
    · exact h.permit (·.ccCtlWrite)
    · exact h.permit (·.set)
    · exact h.dbgCtlWrite.pair
    · exact h.permit (·.dbgWrite)
    · exact h.thrCfgWrite
    · exact (Keeps.ite h.schedOp h).pair
    · exact h.evCfgWrite.pair
    · exact h.doorbell.pair
    · exact h.lkWrite.pair
    · exact h.permit (·.svCtlWrite)
    · exact h.svBootWrite.pair
    · exact h.permit (·.dbgCtlWrite)
    · exact h.permit (·.dbgWrite)
    · exact h.writeFields.set.pair
    · exact h.svWdogWrite
    · exact h.mbxInWrite
    · exact h.mbxOutWrite
    · exact h.permit (·.ilkForceWrite)
    · exact h.permit (·.ilkRelease)
    · exact h.permit (·.keepOld.writeFields)
    · exact Keeps.iteSnd (h.permit (·.popLog)) h
    · exact h.permit (·.writeFields)
    · exact Keeps.iteSnd h.injCtlWrite h
    · exact Keeps.iteSnd (h.permit (·.clearRecord)) h
    · exact h.fkCfgWrite.pair
    · exact Keeps.iteSnd (h.permit (fun h => h.withNFlt (·.ackKind))) h
    · exact h.permit (fun h => (Keeps.ite h.mcCmdWrite h))
    · exact h.permit (·.writeFields)
    · exact h.permit (·.writeFields)
    · exact h.permit (·.writeFields)
    · exact (Keeps.ite h.maxClear h).pair
    · exact h.capCfgWrite
    · exact h.permit (·.writeFields)
    · exact h.capRpWrite.pair
    · exact h.keepOld.keepOld.writeFields.pair
    · exact (Keeps.ite h.auxCfgWrite h).pair
    · exact h.permit (·.pwrCtlWrite)
    · exact h.writeFields.pair

/-! ### What the functions of Access keep -/

theorem Keeps.holdEntry {init c e natural : ℕ} (h : Keeps s t) : Keeps s (holdEntry init c e natural t) :=
  h.checkWay.rest

theorem Keeps.windowRead {init c e part : ℕ} {lower : Bool} {natural : ℕ} (h : Keeps s t) :
    Keeps s (windowRead init c e part lower natural t).2 :=
  (Keeps.ite h.holdEntry h).pair

theorem Keeps.msixWrite {i v : ℕ} (h : Keeps s t) : Keeps s (msixWrite i v t) :=
  h.rest

theorem Keeps.tNowRead {init : ℕ} {full lower : Bool} {v : BitVec 64} (h : Keeps s t) :
    Keeps s (tNowRead init full lower v t).2 := by
  unfold Machine.tNowRead
  refine Keeps.iteSnd ?_ ?_
  · exact h
  · refine Keeps.iteSnd ?_ ?_
    · exact h.rest.pair
    · split
      · exact h.rest.pair
      · exact h

theorem Keeps.regRead {init : ℕ} {priv full lower : Bool} {d : RegDef} {i : ℕ} (h : Keeps s t) :
    Keeps s (regRead init priv full lower d i t).2 := by
  unfold Machine.regRead
  extract_lets
  split
  · split
    rename_i e1
    exact (h.tNowRead.snd e1).pair
  · refine Keeps.iteSnd ?_ ?_
    · exact h
    · refine Keeps.iteSnd ?_ ?_
      · exact h
      · split
        rename_i e1
        exact (h.lockAcquire.snd e1).pair
  · refine Keeps.iteSnd ?_ ?_
    · exact h
    · refine Keeps.iteSnd ?_ ?_
      · split
        · rename_i e1
          exact (h.schedClaim.snd e1).pair
        · rename_i e1
          exact (h.schedClaim.snd e1).pair
      · exact h
  · exact h.letStep.pair
  · exact h.rscStep.pair
  · exact Keeps.iteSnd h h
  · exact Keeps.iteSnd h h
  · exact Keeps.iteSnd h h
  · exact (Keeps.ite h.set h).pair
  · exact (Keeps.ite h.set h).pair
  · exact h
  · exact h

theorem Keeps.memCheck {a natural : ℕ} (h : Keeps s t) :
    Keeps s (memCheck a natural t).2 := by
  unfold Machine.memCheck
  refine Keeps.iteSnd ?_ ?_
  · split
    rename_i e
    have h1 := (h.secded.snd2 e)
    exact Keeps.iteSnd h1.report.pair (Keeps.iteSnd h1.report.pair h1.pair)
  · split
    rename_i e
    exact (h.ctlCheck.snd e).pair

theorem Keeps.accRead {init : ℕ} {priv full : Bool} {natural a : ℕ} (h : Keeps s t) :
    Keeps s (accRead init priv full natural a t).2 := by
  unfold Machine.accRead
  refine Keeps.iteSnd ?_ ?_
  · exact h
  · split
    · exact h
    · split
      · exact h.failAccess.pair
      · split
        · rename_i e2
          exact (h.bankRead.snd e2).pair
        · rename_i e2
          exact (h.bankRead.snd e2).pair
    · refine Keeps.iteSnd ?_ ?_
      · exact h
      · extract_lets
        split
        · split
          rename_i e2
          split <;> exact (h.regRead.snd e2).pair
        · exact h
        · exact h
        · exact h
        · exact h
        · exact h
        · split
          rename_i e2
          exact (h.windowRead.snd e2).pair
        · split
          rename_i e2
          have h20 := (h.memCheck.snd e2)
          exact Keeps.iteSnd h20.pair h20.pair
        · split
          rename_i e2
          have h22 := (h.memCheck.snd e2)
          exact Keeps.iteSnd h22.pair h22.pair
        · exact Keeps.iteSnd h h
        · exact h
        · exact h
        · exact h
        · exact h

theorem Keeps.slotWrite {full : Bool} {n a v : ℕ} (h : Keeps s t) : Keeps s (slotWrite full n a v t) :=
  h.writeN

/-! ### STATE is read-only wherever it stands (R17) -/

theorem findReg_mem {l : List RegDef} {o i : ℕ} {d : RegDef} (h : findReg l o = some (d, i)) : d ∈ l := by
  induction l with
  | nil => cases h
  | cons e l ih =>
    rw [findReg] at h
    split at h
    · cases h
      exact List.mem_cons_self
    · exact List.mem_cons_of_mem _ (ih h)

theorem stateReadOnly_blkRegs (b : Blk) : ∀ d ∈ blkRegs b, StateReadOnly d.fs := by
  unfold StateReadOnly
  cases b <;> decide +kernel

/-- No register that stands at the place takes a write of STATE. -/
def Place.StateReadOnly : Place → Prop
  | .reg _ d _ => Machine.StateReadOnly d.fs
  | _ => True

theorem regAt_stateReadOnly (b : Blk) (n o : ℕ) : (regAt b n o).StateReadOnly := by
  unfold regAt
  split
  · exact stateReadOnly_blkRegs b _ (findReg_mem ‹_›)
  · trivial

theorem regOr_stateReadOnly {x y : Place} (hx : x.StateReadOnly) (hy : y.StateReadOnly) : (regOr x y).StateReadOnly := by
  unfold regOr
  split
  · exact hy
  · exact hx

theorem pfAt_stateReadOnly (base first n o : ℕ) : (pfAt base first n o).StateReadOnly := by
  unfold pfAt
  split
  · trivial
  · dsimp only
    split
    · trivial
    · split
      · exact regAt_stateReadOnly _ _ _
      · exact regAt_stateReadOnly _ _ _
      · exact regAt_stateReadOnly _ _ _
      · trivial

/-- The same of a place that may be none. -/
def PlaceReadOnly (o : Option Place) : Prop := ∀ p, o = some p → p.StateReadOnly

theorem PlaceReadOnly.none : PlaceReadOnly none := by rintro p ⟨⟩

theorem PlaceReadOnly.some {p : Place} (h : p.StateReadOnly) : PlaceReadOnly (some p) := by
  rintro q ⟨⟩
  exact h

theorem PlaceReadOnly.ite {c : Prop} [Decidable c] {x y : Option Place} (hx : PlaceReadOnly x) (hy : PlaceReadOnly y) :
    PlaceReadOnly (if c then x else y) := by
  split <;> assumption

theorem placeReadOnly_regAt (b : Blk) (n o : ℕ) : PlaceReadOnly (some (regAt b n o)) := .some (regAt_stateReadOnly b n o)

theorem placeReadOnly_clusterPlace (c o : ℕ) : PlaceReadOnly (clusterPlace c o) := by
  unfold clusterPlace
  refine .ite (.some trivial) (.ite (.some trivial) (.ite (.some trivial) (.ite (.some trivial) ?_)))
  refine .ite (placeReadOnly_regAt _ _ _) (.ite (.some (regOr_stateReadOnly (regAt_stateReadOnly _ _ _) (regAt_stateReadOnly _ _ _))) ?_)
  refine .ite (placeReadOnly_regAt _ _ _) (.ite (placeReadOnly_regAt _ _ _) (.ite (placeReadOnly_regAt _ _ _) ?_))
  exact .ite (.ite (placeReadOnly_regAt _ _ _) (.ite (placeReadOnly_regAt _ _ _) (.some trivial))) .none

theorem placeReadOnly_blockPlace (k o : ℕ) : PlaceReadOnly (blockPlace k o) := by
  have two (b : Blk) (base first n : ℕ) : PlaceReadOnly (some (regOr (regAt b 0 o) (pfAt base first n o))) :=
    .some (regOr_stateReadOnly (regAt_stateReadOnly _ _ _) (pfAt_stateReadOnly _ _ _ _))
  have one {c : Prop} [Decidable c] {x y : Place} (hx : x.StateReadOnly) (hy : y.StateReadOnly) :
      PlaceReadOnly (some (if c then x else y)) := .some (by split <;> assumption)
  have ifTwo {c c' : Prop} [Decidable c] [Decidable c'] {x y z : Place} (hx : x.StateReadOnly) (hy : y.StateReadOnly)
      (hz : z.StateReadOnly) : PlaceReadOnly (some (if c then x else if c' then y else z)) := .some (by split_ifs <;> assumption)
  unfold blockPlace
  split
  case h_5 => exact two _ _ _ _
  case h_7 => exact two _ _ _ _
  case h_8 => exact one trivial (regAt_stateReadOnly _ _ _)
  case h_9 => exact one trivial (regAt_stateReadOnly _ _ _)
  case h_14 => exact ifTwo trivial trivial (regAt_stateReadOnly _ _ _)
  case h_17 => exact one trivial trivial
  case h_18 => exact .some trivial
  case h_21 => exact .none
  all_goals exact placeReadOnly_regAt _ _ _

/-- No register of the device address map takes a write of STATE. -/
theorem placeOf_stateReadOnly {a : ℕ} {p : Place} (h : placeOf a = some p) : p.StateReadOnly := by
  have hub (o : ℕ) : PlaceReadOnly (hubPlace o) :=
    .ite (.some trivial) (.ite (.some trivial) (.ite (.some trivial) (.ite (placeReadOnly_blockPlace _ _) .none)))
  have all : PlaceReadOnly (placeOf a) := .ite (placeReadOnly_clusterPlace _ _) (.ite (hub _) .none)
  exact all p h

theorem Keeps.accWrite {init : ℕ} {priv full : Bool} {op natural a v : ℕ} (h : Keeps s t) :
    Keeps s (accWrite init priv full op natural a v t).2 := by
  unfold Machine.accWrite
  refine Keeps.iteSnd h ?_
  split
  · exact h
  · split
    · exact h.failAccess.pair
    · exact h.bankWrite.pair
  · rename_i p _ hp
    have hplace := placeOf_stateReadOnly hp
    refine Keeps.iteSnd h ?_
    have mem {u : State} (h : Keeps s u) : Keeps s (if inSvWindow a && u.flag F.svCtl_LOCK 0 && !fromSv init then (false, u)
          else
            let (bad, s) := if full then (false, u) else Machine.memCheck (a / 8 * 8) natural u
            if bad then (false, s) else (true, Machine.endReservations a (Machine.slotWrite full 8 a v s))).2 := by
      refine Keeps.iteSnd h ?_
      split
      rename_i e
      have h' := (Keeps.iteSnd h h.memCheck).snd e
      exact Keeps.iteSnd h'.pair h'.slotWrite.endReservations.pair
    split
    · have hfs := hplace
      exact h.regWrite
    · exact h
    · exact h
    · exact h
    · exact h
    · exact h
    · exact h.permit (·.slotWrite)
    · exact h.permit (·.slotWrite)
    · exact mem h
    · exact mem h
    · exact h.slotWrite.pair
    · exact h.slotWrite.pair
    · exact (Keeps.ite h.msixWrite h).bind fun h => (Keeps.ite h.msixWrite h).pair
    · exact h.permit (·.slotWrite)

theorem Keeps.sendBeside {side : Side} {init trans op : ℕ} {full : Bool} {a data : W} (h : Keeps s t) :
    Keeps s (sendBeside side init trans op full a data t) :=
  Keeps.ite h h.rest.startTimer.send

theorem Keeps.sendReq {init trans op : ℕ} {full : Bool} {a : W} {data : BitVec 64} (h : Keeps s t) :
    Keeps s (sendReq init trans op full a data t) :=
  h.sendBeside

theorem Keeps.takeRsp {init trans : ℕ} {r : HubRsp} (h : Keeps s t) (e : takeRsp init trans t = some (r, u)) : Keeps s u := by
  obtain ⟨q, -, e⟩ := Option.map_eq_some_iff.1 e
  exact h.rest.eqPair e

theorem Keeps.leaveRsp {r : HubRsp} (h : Keeps s t) : Keeps s (leaveRsp r t) :=
  h.rest

theorem Keeps.hubRead {init trans : ℕ} {priv full : Bool} {natural : ℕ} {a : W} (h : Keeps s t) :
    Keeps s (hubRead init trans priv full natural a t) := by
  unfold Machine.hubRead
  refine Keeps.ite ?_ ?_
  · split
    rename_i e
    split <;> exact (h.accRead.snd e).leaveRsp
  · exact h.sendReq

theorem Keeps.hubWrite {init trans : ℕ} {priv full : Bool} {natural : ℕ} {a : W} {v : ℕ} (h : Keeps s t) :
    Keeps s (hubWrite init trans priv full natural a v t) := by
  unfold Machine.hubWrite
  refine Keeps.ite ?_ ?_
  · split
    · rename_i e
      exact (h.accWrite.snd e).leaveRsp
    · rename_i e
      exact (h.accWrite.snd e).leaveRsp
  · exact h.sendReq

theorem Keeps.hubNarrow {init trans op : ℕ} {a : W} (h : Keeps s t) : Keeps s (hubNarrow init trans op a t) :=
  Keeps.ite h.leaveRsp h.sendBeside

theorem Keeps.takeSys {p : ℕ → Bool} {f : Flit} (h : Keeps s t) (e : takeSys p t = some (f, u)) : Keeps s u := by
  obtain ⟨q, -, e⟩ := Option.map_eq_some_iff.1 e
  exact h.rest.eqPair e

theorem Keeps.respondWide {n ret : ℕ} {v : BitVec 64} {cls urg : ℕ} (h : Keeps s t) : Keeps s (respondWide n ret v cls urg t) :=
  h.send

theorem Keeps.sysAnswer {f : Flit} {r : Rd} (h : Keeps s t) :
    Keeps s (sysAnswer f r t) := by
  unfold Machine.sysAnswer
  extract_lets
  split
  · exact h.respondWide
  · exact h.respond

theorem Keeps.sysRefuse {f : Flit} (h : Keeps s t) : Keeps s (sysRefuse f t) :=
  h.reqErr.sysAnswer

theorem Keeps.writeSlots {init natural a : ℕ} {vs : List ℕ} (h : Keeps s t) : Keeps s (writeSlots init natural a vs t).2 := by
  induction vs generalizing t a with
  | nil => exact h
  | cons v vs ih =>
    unfold Machine.writeSlots
    exact ih h.accWrite

theorem Keeps.sysRead {src : Option HubAcc} {natural : ℕ} (h : Keeps s t) :
    Keeps s (sysRead src natural t) := by
  unfold Machine.sysRead
  split
  · exact h.hubRead
  · split
    · exact h
    · rename_i e1
      have h4 := (h.takeSys e1)
      refine Keeps.ite ?_ ?_
      · exact h4.sysRefuse
      · refine Keeps.ite ?_ ?_
        · exact h4.sysAnswer
        · split
          rename_i e2
          exact (h4.accRead.snd e2).sysAnswer

theorem Keeps.sysWrite {src : Option HubAcc} {v : BitVec 64} {natural : ℕ} (h : Keeps s t) :
    Keeps s (sysWrite src v natural t) := by
  unfold Machine.sysWrite
  split
  · exact h.hubWrite
  · split
    · exact h
    · rename_i e1
      have h4 := (h.takeSys e1)
      refine Keeps.ite ?_ ?_
      · exact h4.sysRefuse
      · refine Keeps.ite ?_ ?_
        · exact h4.sysAnswer
        · split
          · rename_i e2
            exact (h4.accWrite.snd e2).sysAnswer
          · rename_i e2
            exact (h4.accWrite.snd e2).sysAnswer

theorem Keeps.bulkWrite {natural : ℕ} (h : Keeps s t) :
    Keeps s (bulkWrite natural t) := by
  unfold Machine.bulkWrite
  split
  · exact h
  · rename_i e
    have h2 := (h.takeSys e)
    refine Keeps.ite ?_ ?_
    · exact h2.sysRefuse
    · split
      · rename_i e1
        exact (h2.writeSlots.snd e1).sysAnswer
      · rename_i e1
        exact (h2.writeSlots.snd e1).sysAnswer

/-! ### What the functions of Image keep -/

theorem Keeps.flashErase {a n : ℕ} (h : Keeps s t) : Keeps s (flashErase a n t) :=
  h.rest

theorem Keeps.flashWrite {a : ℕ} {l : List ℕ} (h : Keeps s t) : Keeps s (flashWrite a l t) := by
  induction l generalizing a t with
  | nil => exact h
  | cons b l ih => exact ih h.rest

theorem Keeps.putBootRec {r : BootRec} (h : Keeps s t) : Keeps s (putBootRec r t) :=
  h.flashErase.flashWrite

theorem Keeps.applyConfig {l : List (ℕ × Bool × ℕ)} (h : Keeps s t) : Keeps s (applyConfig l t).2 := by
  induction l generalizing t with
  | nil => exact h
  | cons x l ih =>
    unfold Machine.applyConfig
    split
    · rename_i e
      exact ih (h.accWrite.snd e)
    · rename_i e
      exact h.accWrite.snd e

theorem Keeps.loadLet {e : ℕ} {b : List ℕ} (h : Keeps s t) : Keeps s (loadLet e b t) :=
  h.foldl (·.rest)

theorem Keeps.loadRsCoef {b : List ℕ} (h : Keeps s t) : Keeps s (loadRsCoef b t) :=
  h.foldl (·.rest)

/-! ### What the functions of Boot keep -/

theorem Keeps.unlessFailed {f : State → State} (h : Keeps s t) (hf : ∀ {u : State}, Keeps s u → Keeps s (f u)) : Keeps s (unlessFailed f t) :=
  Keeps.ite h (hf h)

theorem Keeps.startStep {n : ℕ} (h : Keeps s t) : Keeps s (startStep n t) :=
  h.set.rest.mcEvent

theorem Keeps.withSection {x : Section} {f : List ℕ → State → State} (h : Keeps s t)
    (hf : ∀ {y : List ℕ} {u : State}, Keeps s u → Keeps s (f y u)) : Keeps s (withSection x f t) :=
  Keeps.ite (hf h) h.bootFail

theorem Keeps.loadSections {t' : ℕ} {f : Section → List ℕ → State → State} (h : Keeps s t)
    (hf : ∀ {y : Section} {z : List ℕ} {u : State}, Keeps s u → Keeps s (f y z u)) : Keeps s (loadSections t' f t) :=
  h.foldl (fun h => h.unlessFailed (fun h => h.withSection (fun h => (hf h))))

theorem Keeps.configStep {n : ℕ} (h : Keeps s t) : Keeps s (configStep n t) := by
  refine h.foldl fun h => h.unlessFailed fun h => h.withSection fun h => ?_
  split
  · rename_i e
    exact h.applyConfig.snd e
  · rename_i e
    exact (h.applyConfig.snd e).bootFail

theorem Keeps.loadCtl {n a : ℕ} {b : List ℕ} (h : Keeps s t) : Keeps s (loadCtl n a b t) := by
  induction n generalizing a b t with
  | zero => exact h
  | succ n ih => exact ih h.ctlWrite

theorem Keeps.loadFw {x : Section} {b : List ℕ} (h : Keeps s t) : Keeps s (loadFw x b t) :=
  h.loadCtl

theorem Keeps.logDiscovery (h : Keeps s t) :
    Keeps s (logDiscovery t) := by
  unfold Machine.logDiscovery
  split
  · exact h.set.rest
  · exact h

theorem Keeps.carry {src : State} {l : List (Fld × ℕ)} (h : Keeps s t) (hl : ∀ x ∈ l, x.1.id ≠ F.clStatus_STATE.id := by decide) :
    Keeps s (carry src l t) :=
  h.foldlMem fun hx h => h.foldl fun h => h.set (hl _ hx)

theorem reset_statesLegal : StatesLegal State.reset := by
  unfold StatesLegal
  decide +kernel

/-- Reset leaves every cluster UNOWNED and the memory with the bytes `m`. -/
theorem Keeps.reset {m : List Host.Cell} (hm : MemSound s → Memory.wf m = true) : Keeps s { State.reset with mem := m } :=
  ⟨hm, fun _ => reset_statesLegal⟩

theorem Keeps.coldBase : Keeps s (coldBase t) := by
  have h : Keeps s State.reset := .reset fun _ => reset_mem_wf
  exact h.rest.carry

theorem Keeps.checkVbat {ok : Bool} (h : Keeps s t) : Keeps s (checkVbat ok t) :=
  Keeps.ite h.rest.set.setLedger.ledgerCrc.mcEvent (Keeps.ite h.ledgerCrc.mcEvent h)

theorem Keeps.steps12 {b : BootIn} (h : Keeps s t) : Keeps s (steps12 b t) :=
  (Keeps.ite h.set.set.logDiscovery h.set.set).startStep.set.set.linkEvent.checkVbat.ledgerInc.startStep.bind fun h7 => (Keeps.ite h7 h7.bootFail)

theorem Keeps.chooseSlot (h : Keeps s t) :
    Keeps s (chooseSlot t).2 := by
  unfold Machine.chooseSlot
  exact Keeps.iteSnd h.putBootRec.pair (Keeps.iteSnd h.putBootRec.mcEvent.pair h)

theorem Keeps.bootSlot {slot : ℕ} (h : Keeps s t) : Keeps s (bootSlot slot t) :=
  h.set.set.rest.mcEvent

theorem Keeps.steps34 {b : BootIn} (h : Keeps s t) :
    Keeps s (steps34 b t) := by
  unfold Machine.steps34
  refine Keeps.ite ?_ ?_
  · exact h.startStep.startCollector.set.bootFail
  · extract_lets
    split
    rename_i e
    exact (h.startStep.startCollector.rest.chooseSlot.snd e).startStep.bind fun h11 => (Keeps.ite h11.bootSlot (h11.mcEvent.bind fun h10 =>
      (Keeps.ite h10.bootSlot h10.set.bootFail)))

theorem Keeps.step5 {b : BootIn} (h : Keeps s t) :
    Keeps s (step5 b t) := by
  unfold Machine.step5
  exact h.startStep.configStep.unlessFailed (fun h => ((h.foldl (·.set)).foldl (fun h => (Keeps.ite h (Keeps.ite h h.reportU).rest))).applyVf)

theorem Keeps.bistBank {b : ℕ} {o : ℕ × ℕ} (h : Keeps s t) : Keeps s (bistBank b o t) :=
  (Keeps.ite h.set.set h.set.set.mcEvent).bind fun h3 => (Keeps.ite h3.set.set.set h3)

theorem Keeps.ledgerBist {i soft off : ℕ} (h : Keeps s t) : Keeps s (ledgerBist i soft off t) :=
  h.setLedger

theorem Keeps.step6 {b : BootIn} (h : Keeps s t) :
    Keeps s (step6 b t) := by
  unfold Machine.step6
  exact h.startStep.configStep.unlessFailed (fun h => (Keeps.ite h.bootFail ((((h.foldl (·.set)).foldl (·.bistBank)).foldl
    (·.ledgerBist)).ledgerBist.ledgerCrc.bind fun h10 => (Keeps.ite h10 h10.bootFail))))

theorem Keeps.startPes {c : ℕ} (h : Keeps s t) : Keeps s (startPes c t) :=
  h.foldl (·.set)

theorem Keeps.step7 (h : Keeps s t) : Keeps s (step7 t) :=
  ((h.startStep.foldl (fun h => h.unlessFailed (fun h => h.withSection (·.rest)))).loadSections (fun h => (Keeps.ite h.bootFail (h.rest.foldl
    (·.writeGolden.set.startPes))))).unlessFailed (·.configStep)

theorem Keeps.addrsOpen (h : Keeps s t) : Keeps s (addrsOpen t) := by
  unfold Machine.addrsOpen
  extract_lets t₁
  have h₁ : Keeps s t₁ := by
    unfold t₁
    split
    · exact h
    · exact h.setFree.set.setFree
  exact h₁.setFree.setFree

theorem Keeps.bringUp {b : BootIn} (h : Keeps s t) : Keeps s (bringUp b t) :=
  Keeps.ite h.cmpTest.svRunWrite h.cmpTest.bootFail

theorem Keeps.step8 {b : BootIn} (h : Keeps s t) : Keeps s (step8 b t) :=
  ((((h.startStep.loadSections (·.loadLet)).loadSections (·.loadRsCoef)).addrsOpen.loadSections (·.loadFw)).unlessFailed
    (·.configStep)).unlessFailed (·.bringUp)

theorem Keeps.step9 (h : Keeps s t) : Keeps s (step9 t) :=
  h.startStep.configStep.bind fun h5 => ((Keeps.ite h5.linkTo h5).bind fun h4 => (Keeps.ite h4.linkTo h4).rest)

theorem Keeps.step10 (h : Keeps s t) : Keeps s (step10 t) :=
  (h.startStep.loadSections (·.loadFw)).unlessFailed (·.configStep)

theorem Keeps.bootTick (h : Keeps s t) : Keeps s (bootTick t) :=
  Keeps.ite h (Keeps.ite h.step10 (Keeps.ite h.bootFail h))

theorem Keeps.stepsOn {b : BootIn} (h : Keeps s t) : Keeps s (stepsOn b t) := by
  refine ((h.step6.unlessFailed (·.step7)).unlessFailed (·.step8)).unlessFailed fun h => ?_
  split
  · exact h.step10
  · exact h.step9

theorem Keeps.awaitVf (h : Keeps s t) :
    Keeps s (awaitVf t) := by
  unfold Machine.awaitVf
  split
  · exact Keeps.ite h.rest.stepsOn h
  · exact h

theorem Keeps.step5Wait {b : BootIn} (h : Keeps s t) : Keeps s (step5Wait b t) :=
  h.step5.unlessFailed (·.rest.awaitVf)

theorem Keeps.coldReset {b : BootIn} (h : Keeps s t) : Keeps s (coldReset b t) :=
  Keeps.ite h ((Keeps.coldBase.steps12.unlessFailed (·.steps34)).unlessFailed (·.step5Wait))

theorem Keeps.bootTimeout (h : Keeps s t) :
    Keeps s (bootTimeout t) := by
  unfold Machine.bootTimeout
  split
  · exact h
  · exact Keeps.ite h.bootFail h

theorem Keeps.powerReset : Keeps s (powerReset t) :=
  Keeps.coldBase.rest

theorem Keeps.railTick {rails : RailIn} (h : Keeps s t) : Keeps s (railTick rails t) := by
  unfold Machine.railTick
  extract_lets t₁
  have h₁ : Keeps s t₁ := (h.foldl (·.railReading)).applyVf
  clear_value t₁
  split
  · exact h₁.rest
  · exact Keeps.ite Keeps.powerReset (Keeps.ite h₁ h₁.awaitVf)

theorem Keeps.snapWrite {off : ℕ} {w : ℕ × ℕ} (h : Keeps s t) : Keeps s (snapWrite off w t) :=
  Keeps.ite h h.ctlWrite

theorem Keeps.snapshot (h : Keeps s t) :
    Keeps s (snapshot t) := by
  unfold Machine.snapshot
  split
  · exact h
  · exact h.dropStaged.clearStaged.bind fun h8 => (Keeps.ite h8.set (h8.inc.foldl (·.snapWrite)).set)

theorem warmFields_noState : ∀ x ∈ warmFields, x.1.id ≠ F.clStatus_STATE.id := by decide +kernel

theorem Keeps.warmBase (h : Keeps s t) : Keeps s (warmBase t) := by
  have h₁ : Keeps s { State.reset with mem := t.mem.filter fun x => placeOf x.1 == some .mcBuf || placeOf x.1 == some .mcRam } :=
    .reset fun hs => mwf_filter _ _ _ (h.mem hs)
  exact (h₁.rest.rest.carry warmFields_noState).set.set.bind fun h => (Keeps.ite h.set h).bind fun h => (Keeps.ite h.set h).set

theorem Keeps.warmReset {b : BootIn} (h : Keeps s t) :
    Keeps s (warmReset b t) := by
  unfold Machine.warmReset
  split
  · exact h
  · exact Keeps.ite h h.warmBase.step5Wait

theorem Keeps.rewriteStore {c : ℕ} (h : Keeps s t) :
    Keeps s (rewriteStore c t) := by
  unfold Machine.rewriteStore
  refine Keeps.ite ?_ ?_
  · exact h.writeGolden
  · split
    · exact h.writeGolden.writeGolden
    · exact h.writeGolden

theorem Keeps.reloadOver {c : ℕ} (h : Keeps s t) : Keeps s (reloadOver c t) :=
  h.rest.set

theorem Keeps.restartPes {c : ℕ} (h : Keeps s t) : Keeps s (restartPes c t) :=
  h.startPes.reloadOver

theorem Keeps.wrongWord {c : ℕ} (h : Keeps s t) :
    Keeps s (wrongWord c t) := by
  unfold Machine.wrongWord
  split
  rename_i e
  split
  rename_i e1
  exact ((h.freeVal.snd e).freeVal.snd e1).writeN

theorem Keeps.controlStoreReload {c : ℕ} {good : Bool} {ram : ℕ} (h : Keeps s t) :
    Keeps s (controlStoreReload c good ram t) := by
  unfold Machine.controlStoreReload
  refine Keeps.ite ?_ ?_
  · exact h
  · split
    rename_i e
    have h1 := (h.goldenRead.snd e)
    exact (Keeps.ite h1.rewriteStore h1).inc.bind fun h8 => (Keeps.ite ((Keeps.ite h8.reloadOver h8.restartPes).bind fun h4 =>
      (Keeps.ite h4.rest h4)) ((Keeps.ite h8.wrongWord h8).reloadOver.foldl (·.set)).reportU)

/-! ### What the functions of K48 keep -/

theorem Keeps.setIdle {k : ℕ} {v : Bool} (h : Keeps s t) : Keeps s (setIdle k v t) :=
  Keeps.ite h.setCore.set h.setCore

theorem Keeps.setLastPc {k : ℕ} {pc : W} (h : Keeps s t) : Keeps s (setLastPc k pc t) :=
  Keeps.ite h.set h.set

theorem Keeps.retired {k : ℕ} {old : W} {c : Core} (h : Keeps s t) : Keeps s (retired k old c t) :=
  h.setCore.setIdle.setLastPc

theorem Keeps.retire {k : ℕ} {c : Core} (h : Keeps s t) : Keeps s (retire k c t) :=
  h.retired.boundary

theorem Keeps.retireWith {k rd : ℕ} {r : AR} (h : Keeps s t) : Keeps s (retireWith k rd r t) :=
  Keeps.ite h.retired.takeTrap h.retired.boundary

theorem Keeps.faulting {k code : ℕ} {eaddr : W} {arg : ℕ} (h : Keeps s t) : Keeps s (faulting k code eaddr arg t) :=
  h.takeTrap

theorem Keeps.settlePosted {k : ℕ} (h : Keeps s t) : Keeps s (settlePosted k t) :=
  h.rest.setCore

theorem Keeps.regMchk {k n : ℕ} (h : Keeps s t) : Keeps s (regMchk k n t) :=
  h.reportU.faulting

theorem Keeps.runInstr {k : ℕ} {r : KRow} {w : ℕ} {e : CoreErr} {body : ℕ → State → State} (h : Keeps s t)
    (hbody : ∀ {y : ℕ} {u : State}, Keeps s u → Keeps s (body y u)) :
    Keeps s (runInstr k r w e body t) := by
  unfold Machine.runInstr
  extract_lets
  split
  · exact h.faulting
  · split
    · exact h.faulting
    · split
      · exact h.regMchk
      · exact hbody h

theorem Keeps.coreInstr {r : KRow} {k : ℕ} {e : CoreErr} {body : ℕ → State → State} (h : Keeps s t)
    (hbody : ∀ {y : ℕ} {u : State}, Keeps s u → Keeps s (body y u)) :
    Keeps s (coreInstr r k e body t) := by
  unfold Machine.coreInstr
  refine Keeps.ite ?_ ?_
  · exact h
  · refine Keeps.ite ?_ ?_
    · exact h.faulting
    · refine Keeps.ite ?_ ?_
      · exact h.faulting
      · extract_lets
        split
        rename_i e
        have h1 := (h.ctlCheck.snd e)
        refine Keeps.ite ?_ ?_
        · exact h1.faulting
        · split
          · exact h1.faulting
          · exact Keeps.ite (h1.runInstr (fun h => (hbody h))) h

/-! ### What the functions of Cores keep -/

theorem Keeps.kComputeBody {k w : ℕ} (h : Keeps s t) : Keeps s (kComputeBody k w t) :=
  h.retireWith

theorem Keeps.kImmediateBody {k w : ℕ} (h : Keeps s t) : Keeps s (kImmediateBody k w t) :=
  h.retireWith

theorem Keeps.kLdkBody {k w : ℕ} (h : Keeps s t) : Keeps s (kLdkBody k w t) :=
  h.retireWith

theorem Keeps.kInkBody {k w : ℕ} (h : Keeps s t) : Keeps s (kInkBody k w t) :=
  h.retireWith

theorem Keeps.kXrkBody {k w : ℕ} (h : Keeps s t) : Keeps s (kXrkBody k w t) :=
  h.retireWith

theorem Keeps.kFmaBody {k w : ℕ} (h : Keeps s t) : Keeps s (kFmaBody k w t) :=
  h.retireWith

theorem Keeps.finishLoad {k : ℕ} (h : Keeps s t) :
    Keeps s (finishLoad k t) := by
  unfold Machine.finishLoad
  split
  · exact h
  · split
    · exact h
    · rename_i e1
      have h4 := (h.takeRsp e1)
      refine Keeps.ite ?_ ?_
      · exact h4.faulting
      · split
        · exact h4.regMchk
        · exact h4.retire

theorem Keeps.loadAccess {k t' n natural : ℕ} {a : W} (h : Keeps s t) : Keeps s (loadAccess k t' n natural a t) :=
  Keeps.ite h.hubNarrow h.hubRead

theorem Keeps.unreadFor {k n : ℕ} {a : W} {before after : State} (h : Keeps s before) (h' : Keeps s after) :
    Keeps s (unreadFor k n a before after) :=
  Keeps.ite h.leaveRsp h'

theorem Keeps.kLoadBody {k w : ℕ} {e : CoreErr} (h : Keeps s t) : Keeps s (kLoadBody k e w t) := by
  unfold Machine.kLoadBody
  extract_lets c x a
  clear_value c x a
  refine Keeps.ite ?_ ?_
  · split
    · exact h.regMchk
    · split
      rename_i e
      have h' := h.ctlCheck.snd e
      exact Keeps.ite h'.faulting h'.retire
  · split
    · exact h
    · refine Keeps.finishLoad ?_
      exact h.setCore.unreadFor h.setCore.loadAccess

theorem Keeps.postError {k trans : ℕ} {a : W} (h : Keeps s t) : Keeps s (postError k trans a t) :=
  h.setCore.leaveRsp

theorem Keeps.kStoreBody {k : ℕ} {e : CoreErr} {w : ℕ} (h : Keeps s t) :
    Keeps s (kStoreBody k e w t) := by
  unfold Machine.kStoreBody
  extract_lets
  split
  · exact h.settlePosted
  · refine Keeps.ite ?_ ?_
    · refine Keeps.ite ?_ ?_
      · exact h.settlePosted.retire.postError
      · split
        rename_i e1
        have h11 := (h.settlePosted.retire.ctlCheck.snd e1)
        exact Keeps.ite h11.postError h11.ctlWrite
    · exact h.settlePosted.retire.setCore.bind fun h13 => (Keeps.ite h13.hubNarrow h13.hubWrite).settlePosted

theorem Keeps.postedStoreError {k : ℕ} (h : Keeps s t) :
    Keeps s (postedStoreError k t) := by
  unfold Machine.postedStoreError
  refine Keeps.ite ?_ ?_
  · exact h
  · split
    · exact h
    · exact h.rest.setCore.takeTrap

theorem Keeps.kLrBody {k : ℕ} {e : CoreErr} {w : ℕ} (h : Keeps s t) :
    Keeps s (kLrBody k e w t) := by
  unfold Machine.kLrBody
  extract_lets
  split
  rename_i e
  have h1 := (h.ctlCheck.snd e)
  exact Keeps.ite h1.faulting h1.retire

theorem Keeps.kScBody {k : ℕ} {e : CoreErr} {w : ℕ} (h : Keeps s t) :
    Keeps s (kScBody k e w t) := by
  unfold Machine.kScBody
  refine Keeps.ite ?_ ?_
  · refine Keeps.ite ?_ ?_
    · exact h.faulting
    · split
      rename_i e
      have h1 := (h.ctlCheck.snd e)
      refine Keeps.ite ?_ ?_
      · exact h1.faulting
      · split
        · exact h1.regMchk
        · exact h1.ctlWrite.retire
  · split
    · exact h.regMchk
    · exact h.retire

theorem Keeps.kTasBody {k : ℕ} {e : CoreErr} {w : ℕ} (h : Keeps s t) :
    Keeps s (kTasBody k e w t) := by
  unfold Machine.kTasBody
  extract_lets
  split
  rename_i e
  have h1 := (h.ctlCheck.snd e)
  exact Keeps.ite h1.faulting h1.ctlWrite.retire

theorem Keeps.squashIf {bad : Bool} {k : ℕ} (h : Keeps s t) : Keeps s (squashIf bad k t) :=
  Keeps.ite h.squashGcol h

theorem Keeps.kBranchBody {k w : ℕ} (h : Keeps s t) : Keeps s (kBranchBody k w t) :=
  h.squashIf.retire

theorem Keeps.kJBody {k w : ℕ} (h : Keeps s t) : Keeps s (kJBody k w t) :=
  h.retire

theorem Keeps.kCallBody {k w : ℕ} (h : Keeps s t) : Keeps s (kCallBody k w t) :=
  h.retire

theorem Keeps.kJrBody {k w : ℕ} (h : Keeps s t) : Keeps s (kJrBody k w t) :=
  h.squashIf.retire

theorem Keeps.kCallrBody {k w : ℕ} (h : Keeps s t) : Keeps s (kCallrBody k w t) :=
  h.squashIf.retire

theorem Keeps.kRetBody {k x : ℕ} (h : Keeps s t) : Keeps s (kRetBody k x t) :=
  h.retire

theorem Keeps.kRspushBody {k w : ℕ} (h : Keeps s t) : Keeps s (kRspushBody k w t) :=
  h.retire

theorem Keeps.kRspopBody {k w : ℕ} (h : Keeps s t) : Keeps s (kRspopBody k w t) :=
  h.retire

theorem Keeps.kFenceBody {k x : ℕ} (h : Keeps s t) : Keeps s (kFenceBody k x t) :=
  h.settlePosted.bind fun h2 => (Keeps.ite h2.retire h2)

theorem Keeps.sysReg {k n : ℕ} (h : Keeps s t) :
    Keeps s (sysReg k n t).2 := by
  unfold Machine.sysReg
  extract_lets
  split
  · exact h
  · exact h
  · exact h
  · exact h
  · exact h
  · exact h
  · exact h
  · exact h.cycleOf
  · exact h
  · exact h
  · exact h

theorem Keeps.kSrrBody {k w : ℕ} (h : Keeps s t) :
    Keeps s (kSrrBody k w t) := by
  unfold Machine.kSrrBody
  split
  rename_i e
  exact (h.sysReg.snd e).retire

theorem Keeps.kSrwBody {k w : ℕ} (h : Keeps s t) : Keeps s (kSrwBody k w t) :=
  h.squashGcol.retire

theorem Keeps.kTrapiBody {k w : ℕ} (h : Keeps s t) : Keeps s (kTrapiBody k w t) :=
  h.retired.takeTrap

theorem Keeps.kTretBody {k x : ℕ} (h : Keeps s t) : Keeps s (kTretBody k x t) :=
  h.squashGcol.retire

theorem Keeps.kHaltBody {k x : ℕ} (h : Keeps s t) : Keeps s (kHaltBody k x t) :=
  (Keeps.ite h.retired.set h.retired.set).boundary

theorem Keeps.kWaitBody {k x : ℕ} (h : Keeps s t) : Keeps s (kWaitBody k x t) :=
  Keeps.ite h.retire h.setIdle

theorem Keeps.interrupt {k : ℕ} (h : Keeps s t) :
    Keeps s (interrupt k t) := by
  unfold Machine.interrupt
  refine Keeps.ite ?_ ?_
  · exact h
  · split
    · exact h
    · exact (Keeps.ite h.retired h).takeTrap

theorem Keeps.gportTrap {k reason : ℕ} (h : Keeps s t) : Keeps s (gportTrap k reason t) :=
  (Keeps.ite h.set h).faulting

theorem Keeps.ginjRetire {k w : ℕ} (h : Keeps s t) : Keeps s (ginjRetire k w t) :=
  h.setInj.set.retire

theorem Keeps.kGinjBody {k w : ℕ} (h : Keeps s t) :
    Keeps s (kGinjBody k w t) := by
  unfold Machine.kGinjBody
  refine Keeps.ite ?_ ?_
  · exact h.gportTrap
  · split
    · exact Keeps.ite h.ginjRetire h.setCore
    · exact h.gportTrap

theorem Keeps.ginjAgain {k : ℕ} (h : Keeps s t) :
    Keeps s (ginjAgain k t) := by
  unfold Machine.ginjAgain
  split
  · exact Keeps.ite h.ginjRetire h
  · exact h

theorem Keeps.ginjTimeout {k : ℕ} (h : Keeps s t) :
    Keeps s (ginjTimeout k t) := by
  unfold Machine.ginjTimeout
  split
  · exact h
  · exact Keeps.ite h h.gportTrap

theorem Keeps.gcolExecute {k m : ℕ} (h : Keeps s t) : Keeps s (gcolExecute k m t) :=
  Keeps.ite h h.setMbx.rest

theorem Keeps.gcolTake {k i : ℕ} (h : Keeps s t) :
    Keeps s (gcolTake k i t).2 := by
  unfold Machine.gcolTake
  split
  · exact Keeps.iteSnd h.rest.pair h.squashGcol.setMbx.pair
  · exact h.setMbx.pair

theorem Keeps.kGcolBody {k : ℕ} {e : CoreErr} {w : ℕ} (h : Keeps s t) :
    Keeps s (kGcolBody k e w t) := by
  unfold Machine.kGcolBody
  refine Keeps.ite ?_ ?_
  · exact h.gportTrap
  · refine Keeps.ite ?_ ?_
    · exact h.gportTrap
    · split
      · rename_i e
        exact (h.gcolTake.snd e).retire
      · rename_i e
        split
        rename_i e1
        have h3 := ((h.gcolTake.snd e).secded.snd2 e1)
        exact Keeps.ite h3.set.report.gportTrap h3.retire

/-! ### What the functions of RegCmds keep -/

theorem Keeps.regMasked {who : From} {b : Blk} {r : Reg} {i m v : ℕ} (h : Keeps s t) : Keeps s (regMasked who b r i m v t) := by
  unfold Machine.regMasked
  refine Keeps.ite h ?_
  split
  · exact h
  · rename_i e
    have hfs := stateReadOnly_blkRegs b _ (List.mem_of_find?_eq_some e)
    exact h.regWrite

theorem Keeps.regCmd {who : From} {b : Blk} {r : Reg} {i v : ℕ} (h : Keeps s t) : Keeps s (regCmd who b r i v t) :=
  h.regMasked

theorem Keeps.fieldCmd {who : From} {b : Blk} {r : Reg} {f : Fld} {i x5 : ℕ} (h : Keeps s t) : Keeps s (fieldCmd who b r f i x5 t) :=
  h.regMasked

theorem Keeps.readCmd {who : From} {trans : ℕ} {b : Blk} {r : Reg} {i : ℕ} (h : Keeps s t) :
    Keeps s (readCmd who trans b r i t) := by
  unfold Machine.readCmd
  refine Keeps.ite ?_ ?_
  · exact h
  · split
    · exact h
    · split
      · rename_i e1
        exact (h.regRead.snd e1).leaveRsp
      · rename_i e1
        exact (h.regRead.snd e1).leaveRsp

/-! ### What the functions of Host keep -/

theorem Keeps.complete {c : HostCpl} (h : Keeps s t) : Keeps s (complete c t) :=
  h.rest

theorem Keeps.hostFail {write bar2 : Bool} {reason : ℕ} {addr : Option ℕ} (h : Keeps s t) : Keeps s (hostFail write bar2 reason addr t) :=
  (Keeps.ite h.inc h.inc.setOr.set.set.set.set).raiseEvent

theorem Keeps.badTlp (h : Keeps s t) : Keeps s (badTlp t) :=
  Keeps.ite h h.reportU

theorem Keeps.bar0Fail {r : HostReq} {reason : ℕ} (h : Keeps s t) : Keeps s (bar0Fail r reason t) :=
  Keeps.ite h.hostFail h.hostFail.complete

theorem Keeps.bar0Done {r : HostReq} {v : ℕ} (h : Keeps s t) : Keeps s (bar0Done r v t) :=
  Keeps.ite h h.complete

theorem Keeps.settleHost {n : ℕ} (h : Keeps s t) : Keeps s (settleHost n t) := by
  induction n generalizing t with
  | zero => exact h
  | succ n ih =>
    unfold Machine.settleHost
    split
    · exact h
    · extract_lets n
      split
      · exact h
      · rename_i e
        have h' := h.rest.takeRsp e
        exact ih (Keeps.ite h' h'.bar0Fail)

theorem Keeps.serveQueue {natural n : ℕ} (h : Keeps s t) : Keeps s (serveQueue natural n t) := by
  induction n generalizing t with
  | zero => exact h
  | succ n ih =>
    unfold Machine.serveQueue
    split
    · exact h
    · extract_lets popped
      have hpopped {u : State} (h : Keeps s u) : Keeps s (popped u) := h.rest
      clear_value popped
      split
      · refine Keeps.ite (ih (hpopped h).bar0Fail) ?_
        split
        · exact h
        · rename_i e
          have h' := h.takeRsp e
          exact ih (Keeps.ite (hpopped h').bar0Done (hpopped h').bar0Fail)
      · split
        · exact ih (hpopped h).bar0Fail
        · refine Keeps.ite (Keeps.ite ?_ ?_) ?_
          · split
            · rename_i e
              exact ih ((hpopped h).accWrite.snd e)
            · rename_i e
              exact ih ((hpopped h).accWrite.snd e).bar0Fail
          · split
            · rename_i e
              exact ih ((hpopped h).accRead.snd e).bar0Done
            · rename_i e
              exact ih ((hpopped h).accRead.snd e).bar0Fail
          · split
            · exact h
            · exact Keeps.ite (ih (hpopped h).sendReq.rest) (hpopped h).sendReq.rest

theorem Keeps.serveHost {natural : ℕ} (h : Keeps s t) : Keeps s (serveHost natural t) :=
  h.settleHost.serveQueue

theorem Keeps.bar0 {r : HostReq} {natural : ℕ} (h : Keeps s t) : Keeps s (bar0 r natural t) :=
  Keeps.ite (Keeps.ite h h.complete) h.rest.serveHost

theorem Keeps.bar2Read {off len : ℕ} {bad : Option ℕ} (h : Keeps s t) :
    Keeps s (bar2Read off len bad t) := by
  unfold Machine.bar2Read
  refine Keeps.ite ?_ ?_
  · exact h.complete
  · extract_lets
    split
    · exact h.rest.hostFail
    · exact h.rest

theorem Keeps.bar2Write {off : ℕ} (h : Keeps s t) : Keeps s (bar2Write off t) :=
  Keeps.ite h h.rest.hostFail

theorem Keeps.capRead {c : CfgCap} (h : Keeps s t) :
    Keeps s (capRead c t).2 := by
  unfold Machine.capRead
  split
  rename_i e
  exact (h.freeVal.snd e).pair

theorem Keeps.cfgRead {dw : ℕ} (h : Keeps s t) :
    Keeps s (cfgRead dw t).2 := by
  unfold Machine.cfgRead
  extract_lets
  split
  · exact h
  · exact h
  · split
    rename_i e1
    exact (h.freeVal.snd e1).pair
  · exact h
  · exact h
  · exact h
  · exact h
  · exact h
  · split
    rename_i e1
    exact (h.freeVal.snd e1).pair
  · exact h
  · exact h
  · exact h
  · exact h
  · split
    rename_i e1
    exact (h.freeVal.snd e1).pair

theorem Keeps.configRequest {q : CfgReq} (h : Keeps s t) : Keeps s (configRequest q t) := by
  unfold Machine.configRequest
  extract_lets cpl
  have hcpl {n : ℕ} {d : List ℕ} {u : State} (h : Keeps s u) : Keeps s (cpl n d u) := h.complete
  clear_value cpl
  refine Keeps.ite h.badTlp (Keeps.ite (hcpl h) ?_)
  split
  · split
    rename_i e
    exact hcpl (h.cfgRead.snd e)
  · exact hcpl (Keeps.ite h.rest.set h.rest)
  · split
    rename_i e
    exact hcpl (h.capRead.snd e)
  · exact h
  · exact hcpl h.badTlp
  · exact hcpl h.set.set
  · exact hcpl h.rest

theorem Keeps.msixSend {n : ℕ} (h : Keeps s t) : Keeps s (msixSend n t) :=
  Keeps.ite h h.rest.msixPut

theorem Keeps.endpointReset (h : Keeps s t) : Keeps s (endpointReset t) :=
  h.set.set.set.rest

theorem Keeps.linkFalls {expected : Bool} (h : Keeps s t) : Keeps s (linkFalls expected t) :=
  h.set.inc.endpointReset.bind fun h2 => (Keeps.ite h2.badTlp h2)

theorem Keeps.linkStateChange {link speed width : ℕ} {expected : Bool} (h : Keeps s t) : Keeps s (linkStateChange link speed width expected t) :=
  Keeps.ite h.set.set (Keeps.ite h.set.set.linkFalls h.set.set.set).linkEvent

theorem Keeps.debugDone {ok : Bool} {data : Option W} (h : Keeps s t) : Keeps s (debugDone ok data t) :=
  h.rest

theorem Keeps.debugAccess {v : BitVec 112} {natural : ℕ} (h : Keeps s t) :
    Keeps s (debugAccess v natural t) := by
  unfold Machine.debugAccess
  refine Keeps.ite ?_ ?_
  · exact h
  · refine Keeps.ite ?_ ?_
    · refine Keeps.ite ?_ ?_
      · split
        rename_i e
        exact (h.rest.accWrite.snd e).debugDone
      · split
        · rename_i e
          exact (h.rest.accRead.snd e).debugDone
        · rename_i e
          exact (h.rest.accRead.snd e).debugDone
    · split
      · exact h.rest
      · exact h.rest.sendReq.rest

theorem Keeps.serveJtag (h : Keeps s t) :
    Keeps s (serveJtag t) := by
  unfold Machine.serveJtag
  split
  · exact h
  · split
    · exact h
    · rename_i e1
      exact (h.takeRsp e1).debugDone

/-! ### What the functions of Manage keep -/

theorem Keeps.mcEnd {result : ℕ} (h : Keeps s t) : Keeps s (mcEnd result t) :=
  h.rest.set.set.raiseEvent

theorem Keeps.updEnd {op result : ℕ} (h : Keeps s t) : Keeps s (updEnd op result t) :=
  h.mcEnd.mcEvent

theorem Keeps.mcRun {op : ℕ} {ok : ℕ → Bool} {f : ℕ → State → State} (h : Keeps s t)
    (hf : ∀ {y : ℕ} {u : State}, Keeps s u → Keeps s (f y u)) :
    Keeps s (mcRun op ok f t) := by
  unfold Machine.mcRun
  split
  · exact h
  · exact Keeps.ite (hf h) h.mcEnd

theorem Keeps.flashFailed {base size : ℕ} {l : List (ℕ × BitVec 8)} (h : Keeps s t) : Keeps s (flashFailed base size l t) :=
  h.foldl (fun h => (Keeps.ite h.flashWrite h))

theorem Keeps.updClose (h : Keeps s t) : Keeps s (updClose t) :=
  h.set.set

theorem Keeps.updBegin {fail : FlashOut} (h : Keeps s t) : Keeps s (updBegin fail t) := by
  refine h.mcRun fun h => ?_
  split
  · exact h.flashFailed.updEnd
  · exact h.flashErase.bind fun h₁ => (Keeps.ite h₁.putBootRec h₁).set.set.rest.updEnd

theorem Keeps.updChunk {fail : FlashOut} (h : Keeps s t) : Keeps s (updChunk fail t) := by
  refine h.mcRun fun h => Keeps.ite h.updEnd ?_
  split
  · exact h.set.flashFailed.updEnd
  · exact h.set.flashWrite.updEnd

theorem Keeps.updVerify (h : Keeps s t) : Keeps s (updVerify t) :=
  h.mcRun (·.set.updEnd)

theorem Keeps.updActivate {ok : Bool} (h : Keeps s t) : Keeps s (updActivate ok t) :=
  h.mcRun (fun h => (Keeps.ite h.updEnd h.putBootRec.updClose.updEnd))

theorem Keeps.programOtp {h' : Header} (h : Keeps s t) : Keeps s (programOtp h' t) :=
  (Keeps.ite h.set.mcEvent h).bind fun h2 => (Keeps.ite h2 h2.set.mcEvent)

theorem Keeps.updConfirm {ok whole : Bool} (h : Keeps s t) : Keeps s (updConfirm ok whole t) := by
  unfold Machine.updConfirm
  extract_lets
  refine h.mcRun fun h => ?_
  split
  · exact h
  · exact Keeps.ite h.updEnd (Keeps.ite h.updEnd (Keeps.ite h.putBootRec.programOtp.updEnd h.putBootRec.rest))

theorem Keeps.updAbort (h : Keeps s t) : Keeps s (updAbort t) :=
  h.mcRun (·.updClose.updEnd)

theorem Keeps.bankOffline (h : Keeps s t) : Keeps s (bankOffline t) :=
  h.mcRun (·.takeOffline.mcEvent.mcEnd)

theorem Keeps.loadGraph {a n : ℕ} {b : List ℕ} (h : Keeps s t) : Keeps s (loadGraph a n b t) :=
  h.foldl (·.writeN)

theorem Keeps.loadSection (h : Keeps s t) : Keeps s (loadSection t) := by
  refine h.mcRun fun h => ?_
  split
  · exact h.mcEnd
  · exact Keeps.ite h.mcEnd (Keeps.ite h.mcEnd (Keeps.ite h.loadFw.mcEnd (Keeps.ite h.mcEnd h.loadGraph.mcEnd)))

theorem Keeps.writePage {fail : FlashOut} (h : Keeps s t) :
    Keeps s (writePage fail t) := by
  unfold Machine.writePage
  refine Keeps.ite ?_ ?_
  · exact h
  · extract_lets
    split
    · exact (Keeps.ite h.flashErase h).rest.flashFailed.reportU
    · exact (Keeps.ite h.flashErase h).rest.rest.flashWrite

theorem Keeps.logPageWrite {fail : FlashOut} (h : Keeps s t) : Keeps s (logPageWrite fail t) :=
  Keeps.ite h.writePage h

theorem Keeps.completeConfirm (h : Keeps s t) :
    Keeps s (completeConfirm t) := by
  unfold Machine.completeConfirm
  split
  · exact Keeps.ite h.programOtp h
  · exact h

theorem Keeps.enterRun {fail : FlashOut} (h : Keeps s t) : Keeps s (enterRun fail t) :=
  h.mcRun (·.set.mcEvent.raiseEvent.completeConfirm.writePage.mcEnd)

theorem Keeps.clusterOffline (h : Keeps s t) : Keeps s (clusterOffline t) :=
  h.mcRun (·.setState.rest.mcEvent.mcEnd)

theorem Keeps.clusterRelease {r : Rewrite} (h : Keeps s t) : Keeps s (clusterRelease r t) := by
  refine h.mcRun fun h => ?_
  extract_lets c
  clear_value c
  split
  rename_i sound t₁ e
  have h₁ : Keeps s t₁ := h.emptyCluster.goldenRead.snd e
  extract_lets t₂
  have h₂ : Keeps s t₂ := Keeps.ite h₁.writeGolden h₁
  clear_value t₂
  exact Keeps.ite h₂.mcEnd (Keeps.ite h₂.wrongWord.mcEnd h₂.restartPes.setState.mcEvent.mcEnd)

theorem Keeps.pollOne {r : ℕ} {a : Option PmbAns} (h : Keeps s t) :
    Keeps s (pollOne r a t) := by
  unfold Machine.pollOne
  extract_lets
  split
  · exact Keeps.ite h.rest.reportU h.rest
  · exact Keeps.ite h.rest h.rest.mcEvent.raiseEvent

theorem Keeps.pollAll {answers : List (Fin 8 × PmbAns)} (h : Keeps s t) : Keeps s (pollAll answers t) :=
  Keeps.ite h (h.foldl (fun h => (Keeps.ite h.pollOne h)))

theorem Keeps.smbAnswer {a : Option (List (BitVec 8))} (h : Keeps s t) : Keeps s (smbAnswer a t) :=
  h.rest

theorem Keeps.writeWord {addr code ptr : ℕ} {pec : Option Bool} (h : Keeps s t) : Keeps s (writeWord addr code ptr pec t) :=
  Keeps.ite h.rest.smbAnswer h.smbAnswer

theorem Keeps.blockRead {addr code : ℕ} (h : Keeps s t) : Keeps s (blockRead addr code t) :=
  Keeps.ite h.rest.smbAnswer h.smbAnswer

theorem Keeps.alertResponse (h : Keeps s t) : Keeps s (alertResponse t) :=
  Keeps.ite h.smbAnswer h.smbAnswer

/-! ### What the functions of Tick keep -/

theorem Keeps.arithTick (h : Keeps s t) : Keeps s (arithTick t) :=
  (h.foldl (·.rest)).rest

theorem Keeps.serviceTick (h : Keeps s t) :
    Keeps s (serviceTick t) := by
  unfold Machine.serviceTick
  exact (h.rampWatch.arithTick.foldl (·.reportCounts)).pairTick.migCopyTick.chainTick.bootTick.serveJtag

theorem Keeps.tAdvance {freqOk : Bool} {rails : RailIn} (h : Keeps s t) : Keeps s (tAdvance freqOk rails t) :=
  (h.rest.sampleTickEnd.stepT.alignTick.lensTick.sampleTick.auxTick.unlessFatal (·.serviceTick)).idleTick.idleTick.pumpCtl.railTick.serveHost

/-! ### The commands -/

/-- A next state that the outcome gives is on a path from `s`. -/
def KeepsNext (s : State) (o : Host.Outcome State Fault Refusal) : Prop := ∀ u, o = .next u → Keeps s u

theorem KeepsNext.next (h : Keeps s t) : KeepsNext s (.next t) := by
  rintro u ⟨⟩
  exact h

theorem Keeps.execFlitReceive {seg : Fin 49152} {cyc rcyc : ℕ} {ext : Option ChainFlit} {err : List FlitErr} {urgErr : Bool} (h : Keeps s t) :
    KeepsNext s (execFlitReceive seg cyc rcyc ext err urgErr t) := by
  refine .next (Keeps.ite h (Keeps.ite ?_ h.receiveInside))
  split
  · exact Keeps.ite h.receiveChain h
  · exact h

theorem Keeps.execGcol {k : Fin 9} {e : GcolPass} (h : Keeps s t) : KeepsNext s (execGcol k e t) := by
  refine .next ?_
  split
  · exact h.gcolExecute
  · exact h.coreInstr (·.kGcolBody)

theorem Keeps.execLetData {who : From} {n : Fin 128} {v : Option (BitVec 24)} (h : Keeps s t) : KeepsNext s (execLetData who n v t) := by
  refine .next ?_
  split
  · exact h.regCmd
  · exact h.readCmd

theorem Keeps.execRscData {who : From} {n : Fin 128} {v : Option (BitVec 24)} (h : Keeps s t) : KeepsNext s (execRscData who n v t) := by
  refine .next ?_
  split
  · exact h.regCmd
  · exact h.readCmd

theorem Keeps.execSvDebugAction {who : From} {a : DbgAct} (h : Keeps s t) : KeepsNext s (execSvDebugAction who a t) := by
  refine .next ?_
  split
  · exact h.fieldCmd
  · exact h.fieldCmd
  · exact h.fieldCmd
  · exact h.regCmd

theorem Keeps.execRegisterWrite {who : From} {half : Bool} {a : BitVec 44} {v : BitVec 64} (h : Keeps s t) :
    KeepsNext s (execRegisterWrite who half a v t) := by
  refine .next ?_
  split
  · exact h.accWrite
  · exact h

theorem Keeps.execBar2Read {off : BitVec 25} {len : Fin 4097} {b : Bar2In} (h : Keeps s t) : KeepsNext s (execBar2Read off len b t) := by
  refine .next ?_
  split
  · exact h.badTlp
  · exact h.bar2Read
  · exact h.bar2Read

theorem Keeps.execBar2Write {q : Bar2Wr} (h : Keeps s t) : KeepsNext s (execBar2Write q t) := by
  refine .next ?_
  split
  · exact h.badTlp
  · exact h.badTlp.bar2Write
  · exact h.bar2Write

/-- Every command of the table. -/
theorem Keeps.exec (h : Keeps s t) : (c : Instr) → KeepsNext s (exec c t)
  | .tAdvance _ _ => .next h.tAdvance
  | .tLoad _ _ _ => .next h.regCmd
  | .ppsEdge _ _ => .next h.ppsEdge
  | .ppsTimeout => .next h.ppsTimeout
  | .refLoss => .next h.refLoss
  | .time _ _ _ _ _ => .next h.timeWord
  | .techo _ _ _ _ _ => .next h.techo
  | .chainTimeLoss => .next h.chainTimeLoss
  | .countEdge _ _ _ _ _ => .next h.countEdge
  | .zEdge _ _ => .next h.zEdge
  | .coordinateStall _ => .next h.coordinateStall
  | .mainsEdge _ _ _ => .next h.mainsEdge
  | .mainsHoldover => .next h.mainsHoldover
  | .triggerCrossing _ => .next (h.unlessFatal (·.triggerCrossing))
  | .gridPoint _ => .next (h.unlessFatal (·.gridPoint))
  | .resamplerToken _ => .next (h.unlessFatal (·.resamplerToken))
  | .lensQuery => .next (h.unlessFatal (·.lensQuery))
  | .laneComma _ _ _ => .next h.laneComma
  | .laneAlign _ _ _ => .next h.laneAlign
  | .frame _ _ => .next h.frame
  | .laneSofTimeout _ _ => .next h.laneSofTimeout
  | .laneGraceExpiry _ => .next h.laneGraceExpiry
  | .fifoIdleFlush _ => .next h.fifoIdleFlush
  | .fifoWordRead _ _ => .next (h.unlessFatal (·.fifoWordRead))
  | .drop _ _ => .next h.fieldCmd
  | .outputFrame _ => .next h.outputFrame
  | .forceRelease _ => .next h.forceRelease
  | .ilkRel _ _ => .next h.regCmd
  | .ilkForce _ _ => .next h.regCmd
  | .chForce _ _ _ => .next h.regCmd
  | .ilkTest _ _ _ => .next h.regCmd
  | .flitReceive _ _ _ _ _ _ => h.execFlitReceive
  | .initiatorTimeout => .next (h.unlessFatal (·.initiatorTimeout))
  | .rd _ _ => .next (h.unlessFatal (·.sysRead))
  | .wr _ _ _ => .next (h.unlessFatal (·.sysWrite))
  | .bwr _ => .next (h.unlessFatal (·.bulkWrite))
  | .output => .next (h.unlessFatal (·.output))
  | .emitAtDue => .next (h.unlessFatal (·.emitAtDue))
  | .outputRoom => .next (h.unlessFatal (·.outputRoom))
  | .release => .next (h.unlessFatal (·.releaseStep))
  | .allocGrant _ _ _ => .next (Keeps.ite h.allocGrant h)
  | .globalArrive _ => .next (h.unlessFatal (·.globalArrive))
  | .globalRelease _ => .next (h.unlessFatal (·.globalRelease))
  | .globalStage _ => .next (h.unlessFatal (·.globalStage))
  | .globalAck _ => .next (h.unlessFatal (·.globalAck))
  | .globalAbort _ => .next (h.unlessFatal (·.globalAbort))
  | .scheduleDeadline => .next (h.unlessFatal (·.scheduleDeadline))
  | .snapshot => .next (h.unlessFatal (·.snapshot))
  | .warmReset _ => .next (h.unlessFatal (·.warmReset))
  | .modeCommit _ => .next (h.unlessFatal (·.modeCommit))
  | .migrationSwitch _ => .next (h.unlessFatal (·.migrationSwitch))
  | .barArm _ _ => .next h.fieldCmd
  | .barDisarm _ _ => .next h.fieldCmd
  | .barArrive _ _ => .next h.regCmd
  | .clusterQuiet _ _ => .next (h.unlessFatal (·.clusterQuiet))
  | .gschedSnapshot _ _ => .next h.regCmd
  | .gschedWarmReset _ _ => .next h.regCmd
  | .tokenAccept _ _ _ => .next (h.onFabric (·.tokenAccept))
  | .spillRetry _ _ => .next (h.onFabric (·.spillRetry))
  | .integerOp _ _ _ => .next (h.fireWith (·.computeBody))
  | .comparison _ _ _ => .next (h.fireWith (·.computeBody))
  | .q47Multiply _ _ _ => .next (h.fireWith (·.computeBody))
  | .floatOp _ _ _ => .next (h.fireWith (·.computeBody))
  | .conversion _ _ _ => .next (h.fireWith (·.computeBody))
  | .complexOp _ _ _ => .next (h.fireWith (·.computeBody))
  | .switch _ _ _ => .next (h.fireWith (·.switchBody))
  | .merge _ _ _ => .next (h.fireWith (·.mergeBody))
  | .gate _ _ _ => .next (h.fireWith (·.gateBody))
  | .sel _ _ _ => .next (h.fireWith (·.selBody))
  | .const _ _ _ => .next (h.fireWith (·.constBody))
  | .sink _ _ _ => .next (h.fireWith (·.sinkBody))
  | .prism _ _ _ => .next (h.fireWith (·.prismBody))
  | .link _ _ _ => .next (h.fireWith (·.linkBody))
  | .alloc _ _ _ => .next (Keeps.ite h (h.fireWith (·.allocBody)))
  | .free _ _ _ => .next (h.fireWith (·.freeBody))
  | .next _ _ _ => .next (h.fireWith (·.nextBody))
  | .return_ _ _ _ => .next (h.fireWith (·.retBody))
  | .load _ _ _ => .next (h.fireParking (·.bankBody))
  | .store _ _ _ => .next (h.fireParking (·.bankBody))
  | .read _ _ _ => .next (h.fireParking (·.bankBody))
  | .write _ _ _ => .next (h.fireParking (·.bankBody))
  | .iclr _ _ _ => .next (h.fireParking (·.bankBody))
  | .fetchAdd _ _ _ => .next (h.fireParking (·.bankBody))
  | .swap _ _ _ => .next (h.fireParking (·.bankBody))
  | .now _ _ _ => .next (h.fireWith (·.nowBody))
  | .due _ _ _ => .next (h.fireWith (·.dueBody))
  | .tighten _ _ _ => .next (h.fireWith (·.tightenBody))
  | .angleAt _ _ _ => .next (h.fireParking (·.lensBody))
  | .timeAt _ _ _ => .next (h.fireParking (·.lensBody))
  | .out _ _ _ => .next (h.fireParking (·.outBody))
  | .emitAt _ _ _ => .next (h.fireParking (·.outBody))
  | .userOperation _ _ _ => .next (Keeps.ite h.continueUser (h.fireWith (·.userBody)))
  | .response _ _ => .next (h.onFabric (·.response.continueUser))
  | .deferredAnswer _ _ => .next (h.onFabric (·.deferredAnswer))
  | .bankOperation _ _ _ => .next (h.onFabric (·.bankOperation))
  | .deferredReadAnswer _ => .next (h.onFabric (·.deferredReadAnswer))
  | .scrub _ _ => .next (h.onFabric (·.scrub))
  | .correctedWriteback _ => .next (h.onFabric (·.correctedWriteback))
  | .bankOwn _ _ _ _ => .next (h.unlessFatal (·.bankOwnWrite))
  | .handoverComplete _ => .next (h.unlessFatal (·.handoverComplete))
  | .bankPwr _ _ => .next (h.unlessFatal (·.bankPwrWrite))
  | .powerMoveComplete _ => .next (h.unlessFatal (·.powerMoveComplete))
  | .takeOffline _ _ => .next (h.unlessFatal (fun h => (Keeps.ite h.takeOffline h)))
  | .matchDebugRead _ _ _ => .next (h.unlessFatal (·.holdEntry))
  | .deadlockEvaluation _ => .next (h.unlessFatal (·.evaluate))
  | .reclaimSweepEnd _ => .next (h.unlessFatal (·.sweepEnd))
  | .filterExpiry _ => .next (h.unlessFatal (·.filterExpiry))
  | .controlStoreReload _ _ => .next (h.unlessFatal (·.controlStoreReload))
  | .claim => .next (h.unlessFatal (·.claim))
  | .admitGraph _ => .next (h.unlessFatal (·.admitGraph))
  | .commit _ => .next (h.unlessFatal (·.commit))
  | .withdraw => .next (h.unlessFatal (·.withdraw))
  | .withdrawComplete _ => .next (h.unlessFatal (·.withdrawComplete))
  | .clusterEmptied _ => .next (h.unlessFatal (fun h => (Keeps.ite h.emptyCluster h)))
  | .stage => .next (h.unlessFatal (·.stage))
  | .modeDrained _ => .next (h.unlessFatal (·.modeDrained))
  | .modeSweep _ => .next (h.unlessFatal (·.modeSweep))
  | .modeDiscardEnd _ => .next (h.unlessFatal (·.modeDiscardEnd))
  | .migrate => .next (h.unlessFatal (·.migrate))
  | .migrationCopyDone _ _ => .next (h.unlessFatal (·.migrationCopyDone))
  | .migrationDrained _ => .next (h.unlessFatal (·.migrationDrained))
  | .guaranteeRestore _ => .next (h.unlessFatal (·.guaranteeRestore))
  | .ledgerReexamine => .next (h.unlessFatal (·.ledgerReexamine))
  | .lostAck _ _ => .next h.fieldCmd
  | .alu _ _ => .next (h.coreInstr (·.kComputeBody))
  | .immediate _ _ => .next (h.coreInstr (·.kImmediateBody))
  | .ldk _ _ => .next (h.coreInstr (·.kLdkBody))
  | .ink _ _ => .next (h.coreInstr (·.kInkBody))
  | .xrk _ _ => .next (h.coreInstr (·.kXrkBody))
  | .ld _ _ => .next (Keeps.ite (h.unlessFatal (·.finishLoad)) (h.coreInstr (·.kLoadBody)))
  | .st _ _ => .next (h.coreInstr (·.kStoreBody))
  | .postedStoreError _ => .next (h.unlessFatal (·.postedStoreError))
  | .lr _ _ => .next (h.coreInstr (·.kLrBody))
  | .sc _ _ => .next (h.coreInstr (·.kScBody))
  | .tas _ _ => .next (h.coreInstr (·.kTasBody))
  | .branch _ _ => .next (h.coreInstr (·.kBranchBody))
  | .j _ _ => .next (h.coreInstr (·.kJBody))
  | .call _ _ => .next (h.coreInstr (·.kCallBody))
  | .jr _ _ => .next (h.coreInstr (·.kJrBody))
  | .callr _ _ => .next (h.coreInstr (·.kCallrBody))
  | .ret _ _ => .next (h.coreInstr (·.kRetBody))
  | .rspush _ _ => .next (h.coreInstr (·.kRspushBody))
  | .rspop _ _ => .next (h.coreInstr (·.kRspopBody))
  | .fp _ _ => .next (h.coreInstr (·.kComputeBody))
  | .fma _ _ => .next (h.coreInstr (·.kFmaBody))
  | .cpx _ _ => .next (h.coreInstr (·.kComputeBody))
  | .fence _ _ => .next (h.coreInstr (·.kFenceBody))
  | .srr _ _ => .next (h.coreInstr (·.kSrrBody))
  | .srw _ _ => .next (h.coreInstr (·.kSrwBody))
  | .trapi _ _ => .next (h.coreInstr (·.kTrapiBody))
  | .tret _ _ => .next (h.coreInstr (·.kTretBody))
  | .halt _ _ => .next (h.coreInstr (·.kHaltBody))
  | .wait _ _ => .next (h.coreInstr (·.kWaitBody))
  | .ginj _ _ => .next (Keeps.ite (h.unlessFatal (·.ginjAgain)) (h.coreInstr (·.kGinjBody)))
  | .ginjFullTimeout _ => .next (h.unlessFatal (·.ginjTimeout))
  | .ginjHandover _ => .next (h.unlessFatal (·.ginjHandover))
  | .gcol _ _ => h.execGcol
  | .intr _ => .next (h.unlessFatal (·.interrupt))
  | .ccRun _ _ _ => .next h.fieldCmd
  | .ccReset _ _ => .next h.fieldCmd
  | .haltReq _ _ _ => .next h.fieldCmd
  | .step _ _ => .next h.fieldCmd
  | .create _ _ => .next h.fieldCmd
  | .wake _ _ => .next h.fieldCmd
  | .kill _ _ => .next h.fieldCmd
  | .yield _ _ => .next h.regCmd
  | .block _ _ => .next h.regCmd
  | .exit _ _ => .next h.regCmd
  | .schedClaim _ _ _ => .next h.readCmd
  | .slotWake _ => .next (h.unlessFatal (·.slotWake))
  | .raise _ _ => .next h.fieldCmd
  | .doorbell _ _ => .next h.regCmd
  | .timer _ => .next (h.unlessFatal (·.timer))
  | .lockAcquire _ _ _ => .next h.readCmd
  | .lockRelease _ _ => .next h.fieldCmd
  | .lockForce _ _ => .next h.fieldCmd
  | .svRun _ => .next h.fieldCmd
  | .svReset _ => .next h.fieldCmd
  | .cmpTest _ _ => .next (h.unlessFatal (fun h => (Keeps.ite h.cmpTest h)))
  | .lockstepMiscompare _ _ _ _ => .next h.lockstepMiscompare
  | .svDebugAction _ _ => h.execSvDebugAction
  | .kick _ => .next h.fieldCmd
  | .watchdogExpiry => .next (h.unlessFatal (·.watchdogExpiry))
  | .svTimer => .next (h.unlessFatal (·.svTimer))
  | .svIntr => .next (h.unlessFatal (·.interrupt))
  | .svMbxInWrite _ _ => .next h.regCmd
  | .svMbxInRead _ _ => .next h.readCmd
  | .svMbxOutWrite _ _ => .next h.regCmd
  | .svMbxOutRead _ _ => .next h.readCmd
  | .faultEvent => .next h.faultEvent
  | .fatalRecordWrite => .next h.fatalRecordWrite
  | .wireFault _ _ _ => .next h.wireFault
  | .ack _ _ => .next h.fieldCmd
  | .pop _ => .next h.fieldCmd
  | .arm _ _ _ _ => .next h.regCmd
  | .recordClear _ => .next h.fieldCmd
  | .coldReset _ => .next h.coldReset
  | .bootTimeout => .next (h.unlessFatal (·.bootTimeout))
  | .updBegin _ => .next (h.unlessFatal (·.updBegin))
  | .updChunk _ => .next (h.unlessFatal (·.updChunk))
  | .updVerify => .next (h.unlessFatal (·.updVerify))
  | .updActivate _ => .next (h.unlessFatal (·.updActivate))
  | .updConfirm _ _ => .next (h.unlessFatal (·.updConfirm))
  | .updAbort => .next (h.unlessFatal (·.updAbort))
  | .bankOffline => .next (h.unlessFatal (·.bankOffline))
  | .loadSection => .next (h.unlessFatal (·.loadSection))
  | .run _ => .next (h.unlessFatal (·.enterRun))
  | .clusterOffline => .next (h.unlessFatal (·.clusterOffline))
  | .clusterRelease _ => .next (h.unlessFatal (·.clusterRelease))
  | .sensorRead => .next (h.unlessFatal (·.sensorRead))
  | .pmbusPoll _ => .next (h.unlessFatal (·.pollAll))
  | .pmbAlert _ => .next (h.unlessFatal (·.pollAll))
  | .writeWord _ _ _ _ => .next h.writeWord
  | .blockRead _ _ => .next h.blockRead
  | .logPageWrite _ => .next (h.unlessFatal (·.logPageWrite))
  | .wearMinute => .next (h.unlessFatal (·.wearMinute))
  | .powerOff => .next Keeps.powerReset
  | .railFault _ => .next h.railFault
  | .sensorConversion _ _ => .next h.sensorConversion
  | .throttleRelease _ => .next (h.unlessFatal (·.throttleRelease))
  | .shedStep _ => .next (h.unlessFatal (·.shedStep))
  | .powerEstimate _ => .next (h.unlessFatal (·.powerEstimate))
  | .clockRampStep _ => .next (h.unlessFatal (·.clockRampStep))
  | .vfSetWrite _ _ => .next h.fieldCmd
  | .bar0Read _ _ _ _ => .next (Keeps.ite h.badTlp h.bar0)
  | .bar0Write _ _ _ _ _ _ => .next (Keeps.ite h.badTlp (Keeps.ite h.badTlp h).bar0)
  | .bar2Read _ _ _ => h.execBar2Read
  | .bar2Write _ => h.execBar2Write
  | .configRequest _ => .next h.configRequest
  | .msixSend _ => .next (h.unlessFatal (·.msixSend))
  | .endpointReset _ => .next (Keeps.ite h.linkFalls h.endpointReset).linkEvent
  | .captureRecord _ _ => .next (h.unlessFatal (·.captureRecord))
  | .captureShortClose _ => .next (h.unlessFatal (·.captureShortClose))
  | .capRp _ _ _ => .next h.regCmd
  | .capEnable _ _ => .next h.fieldCmd
  | .enum _ _ _ _ => .next (h.unlessFatal (·.enum))
  | .done _ _ => .next (h.unlessFatal (·.done))
  | .fatal _ _ _ => .next h.fatalNotice
  | .credit _ _ _ => .next (h.unlessFatal (·.credit))
  | .align _ _ => .next h.chainAlign
  | .chainDown _ => .next h.chainDown
  | .mirrorFlip => .next (h.unlessFatal (·.mirrorFlip))
  | .mirrorRead _ _ => .next h.mirrorRead
  | .auxSwitch _ => .next (h.unlessFatal (·.auxSwitch))
  | .evin _ _ _ => .next h.evin
  | .jtagInstruction _ _ => .next h.jtagInstruction
  | .debug _ _ => .next h.debugAccess
  | .hwmClear _ => .next (h.unlessFatal (·.clearMarks))
  | .lateClear _ => .next (h.unlessFatal (·.set))
  | .lwmClear _ _ _ => .next (h.unlessFatal (·.set))
  | .maxClear _ _ => .next h.fieldCmd
  | .registerWrite _ _ _ _ => h.execRegisterWrite
  | .referenceReturn _ => .next h.referenceReturn
  | .laneEnable _ _ _ => .next h.fieldCmd
  | .blockLock _ _ => .next h.blockLock
  | .linkStateChange _ _ _ _ => .next h.linkStateChange
  | .coordCfg _ _ _ => .next h.regCmd
  | .letData _ _ _ => h.execLetData
  | .rscData _ _ _ => h.execRscData
  | .capDisable _ _ => .next h.fieldCmd
  | .alertResponseAddress => .next h.alertResponse

theorem Keeps.step (e : step s = .next t) : Keeps s t := by
  unfold Machine.step at e
  split at e
  · cases e
    exact .refl s
  · exact (Keeps.refl s).rest.exec _ _ e

/-- Settles O55: the memory half of `Keeps.step`. -/
theorem memoryKeepsItsForm : Obligations.MemoryKeepsItsForm := by
  unfold Obligations.MemoryKeepsItsForm
  intro s t hs e
  exact (Keeps.step e).mem hs

/-- Settles O60: the other half of `Keeps.step`. -/
theorem clusterStatesStayLegal : Obligations.ClusterStatesStayLegal := by
  unfold Obligations.ClusterStatesStayLegal
  intro s t hs e
  exact (Keeps.step e).states hs

end Sys2Proof.Machine
end

section
/-!
SUPPORT. The data banks (chapter 11): deferred answers, scrub, write-back, ownership, power moves, banks out of service, and the debug window (O30).
-/
set_option Elab.async false
namespace Sys2Proof.Machine
open Sys2Proof

/-! ### Commands that run, and what they leave -/

theorem completes_next {c : Instr} {s t : State} {p : State → Prop} (he : exec c s = .next t) (hp : p t) : Completes c s p := ⟨t, he, hp⟩

theorem unlessFatal_live {s : State} (h : s.fatal = false) (f : State → State) : unlessFatal f s = f s := by simp [unlessFatal, h]

/-- A function that leaves a state leaves it in the fatal state too. -/
theorem unlessFatal_eq_self {s : State} {f : State → State} (h : f s = s) : unlessFatal f s = s := by
  unfold unlessFatal
  split
  · rfl
  · exact h

theorem onFabric_on {s : State} {c : ℕ} (h : s.fabricOn c = true) (f : State → State) : onFabric c f s = f s := by simp [onFabric, h]

theorem onFabric_eq_self {s : State} {c : ℕ} {f : State → State} (h : f s = s) : onFabric c f s = s := by
  unfold onFabric
  split
  · exact h
  · rfl

theorem RegsBut.refl (l : List Fld) (s : State) : RegsBut l s s := fun _ _ _ => rfl

theorem RegsBut.set {l : List Fld} {s t : State} {f : Fld} {i v : ℕ} (h : RegsBut l s t) (hf : f ∈ l := by simp) : RegsBut l s (t.set f i v) :=
  fun g j hg => by rw [State.get_set_ne _ _ _ _ _ _ (hg f hf)]; exact h g j hg

theorem RegsBut.inc {l : List Fld} {s t : State} {f : Fld} {i : ℕ} (h : RegsBut l s t) (hf : f ∈ l := by simp) :
    RegsBut l s (t.inc f i) := h.set hf

theorem RegsBut.regs {l : List Fld} {s t u : State} (h : RegsBut l s t) (e : u.regs = t.regs) : RegsBut l s u := fun g j hg =>
  (State.get_congr u t g j e).trans (h g j hg)

theorem InstBut.set {f : Fld} {i v : ℕ} (s : State) : InstBut f i s (s.set f i v) := fun _ hj => State.get_set_idx _ _ _ _ _ _ hj.symm

/-! ### Reports -/

theorem report_frame (kind l detail : ℕ) (part : Option ℕ) (inj : Bool) (s : State) :
    report kind l detail part inj s = { s with flt := (report kind l detail part inj s).flt } := by
  unfold report
  split <;> rfl

@[simp] theorem report_regs (kind l detail : ℕ) (part : Option ℕ) (inj : Bool) (s : State) : (report kind l detail part inj s).regs = s.regs := by
  rw [report_frame]

@[simp] theorem report_bank (kind l detail : ℕ) (part : Option ℕ) (inj : Bool) (s : State) : (report kind l detail part inj s).bank = s.bank := by
  rw [report_frame]

@[simp] theorem report_get (kind l detail : ℕ) (part : Option ℕ) (inj : Bool) (s : State) (f : Fld) (i : ℕ) :
    (report kind l detail part inj s).get f i = s.get f i := State.get_congr _ _ f i (report_regs ..)

/-! ### The checks of a word (R298, R299) -/

theorem takeInjection_unarmed {s : State} (h : s.flag F.injCtl_ARM 0 = false) (kinds : List ℕ) (l : ℕ) : takeInjection kinds l s = (none, s) := by
  simp [takeInjection, h]

theorem secded_unarmed {s : State} (h : s.flag F.injCtl_ARM 0 = false) (kinds : List ℕ) (l natural : ℕ) :
    secded kinds l natural s = (natural, false, s) := by
  simp [secded, takeInjection_unarmed h]

section
variable {s : State} {b w : ℕ} (harm : s.flag F.injCtl_ARM 0 = false) (hmark : mget 0 s.bank.bad (wordKey b w) = 0)
include harm hmark

theorem readCheck_good : readCheck b w 0 s = (0, s) := by
  simp [readCheck, readCheckFor, hmark, secded_unarmed harm]

/-- The state after a single-bit error in a word. -/
def corrected (b w : ℕ) (s : State) : State :=
  report 8 (loc 3 b) w (s.bankPart b) false
    { s.inc F.bankStat_CORR b with bank := { s.bank with wb := mput s.bank.wb (wordKey b w) 1 } }

theorem readCheck_corrected : readCheck b w 1 s = (1, corrected b w s) := by
  simp [readCheck, readCheckFor, hmark, secded_unarmed harm, corrected]

/-- The state after a double-bit error in a word. -/
def uncorrectable (b w : ℕ) (s : State) : State :=
  report 9 (loc 3 b) w (s.bankPart b) false
    { (s.inc F.bankStat_UNCORR b).set F.bankStat_UNC_EVT b 1 with bank := { s.bank with bad := mput s.bank.bad (wordKey b w) 1 } }

theorem readCheck_uncorrectable : readCheck b w 2 s = (2, uncorrectable b w s) := by
  simp [readCheck, readCheckFor, hmark, secded_unarmed harm, uncorrectable]
end

/-- The scrub address of a bank moves on. -/
def scrubNext (b w : ℕ) (s : State) : State := { s with bank := { s.bank with scrub := mset 0 s.bank.scrub b ((w + 1) % 4096) } }

theorem scrub_on {s : State} {b err : ℕ} (hen : s.flag F.bankCtl_SCRUB_EN (b / 16) = true) (hb : s.bankServes b = true) :
    scrub b err s = scrubNext b (mget 0 s.bank.scrub b) (readCheck b (mget 0 s.bank.scrub b) err s).2 := by
  simp [scrub, hen, hb, scrubNext]

theorem scrub_off {s : State} {b err : ℕ} (h : s.flag F.bankCtl_SCRUB_EN (b / 16) = false ∨ s.bankServes b = false) : scrub b err s = s := by
  unfold scrub
  rw [if_neg]
  rcases h with h | h <;> simp [h]

theorem exec_scrub_off {s : State} {b : Fin 2048} (err : Fin 3)
    (h : s.flag F.bankCtl_SCRUB_EN (b.val / 16) = false ∨ s.bankServes b = false) : exec (.scrub b err) s = .next s :=
  congrArg _ (onFabric_eq_self (scrub_off h))

section
variable {s : State} {b : Fin 2048} (hon : s.fabricOn (b.val / 16) = true) (hen : s.flag F.bankCtl_SCRUB_EN (b.val / 16) = true)
  (hb : s.bankServes b = true)
include hon hen hb

theorem exec_scrub_on (err : Fin 3) : exec (.scrub b err) s =
    .next (scrubNext b (mget 0 s.bank.scrub b) (readCheck b (mget 0 s.bank.scrub b) err s).2) := by
  rw [← scrub_on hen hb, ← onFabric_on hon (scrub b err)]
  rfl

variable (harm : s.flag F.injCtl_ARM 0 = false) (hmark : mget 0 s.bank.bad (wordKey b (mget 0 s.bank.scrub b)) = 0)
include harm hmark

theorem exec_scrub_good : exec (.scrub b 0) s = .next (scrubNext b (mget 0 s.bank.scrub b) s) := by
  rw [exec_scrub_on hon hen hb, show ((0 : Fin 3) : ℕ) = 0 from rfl, readCheck_good harm hmark]

theorem exec_scrub_corrected :
    exec (.scrub b 1) s = .next (scrubNext b (mget 0 s.bank.scrub b) (corrected b (mget 0 s.bank.scrub b) s)) := by
  rw [exec_scrub_on hon hen hb, show ((1 : Fin 3) : ℕ) = 1 from rfl, readCheck_corrected harm hmark]

theorem exec_scrub_uncorrectable :
    exec (.scrub b 2) s = .next (scrubNext b (mget 0 s.bank.scrub b) (uncorrectable b (mget 0 s.bank.scrub b) s)) := by
  rw [exec_scrub_on hon hen hb, show ((2 : Fin 3) : ℕ) = 2 from rfl, readCheck_uncorrectable harm hmark]
end

@[simp] theorem scrubNext_get (b w : ℕ) (s : State) (f : Fld) (i : ℕ) : (scrubNext b w s).get f i = s.get f i := rfl
@[simp] theorem scrubNext_bad (b w : ℕ) (s : State) : (scrubNext b w s).bank.bad = s.bank.bad := rfl
@[simp] theorem scrubNext_wb (b w : ℕ) (s : State) : (scrubNext b w s).bank.wb = s.bank.wb := rfl

theorem scrubNext_scrub (b w : ℕ) (s : State) : mget 0 (scrubNext b w s).bank.scrub b = (w + 1) % 4096 := by
  simp [scrubNext, mget_mset]

theorem scrubNext_regsBut {l : List Fld} {b w : ℕ} {s t : State} (h : RegsBut l s t) : RegsBut l s (scrubNext b w t) := h

/-- What a corrected word leaves. -/
theorem scrubbed_corrected (b w : ℕ) (s : State) :
    (scrubNext b w (corrected b w s)).get F.bankStat_CORR b = (s.get F.bankStat_CORR b + 1) % 2 ^ F.bankStat_CORR.w ∧
      mfind (scrubNext b w (corrected b w s)).bank.wb (wordKey b w) = some 1 ∧
      mget 0 (scrubNext b w (corrected b w s)).bank.scrub b = (w + 1) % 4096 ∧
      scrubNext b w (corrected b w s) = { s with
        regs := (scrubNext b w (corrected b w s)).regs, bank := (scrubNext b w (corrected b w s)).bank
        flt := (scrubNext b w (corrected b w s)).flt } ∧
      RegsBut [F.bankStat_CORR] s (scrubNext b w (corrected b w s)) := by
  refine ⟨?_, ?_, scrubNext_scrub b w _, ?_, ?_⟩
  · rw [scrubNext_get, corrected, report_get]
    exact State.get_inc_same s F.bankStat_CORR b
  · simp [corrected]
  · rw [scrubNext, corrected, report_frame]
    rfl
  · exact scrubNext_regsBut ((RegsBut.refl _ s).inc.regs (report_regs ..))

/-- What an uncorrectable word leaves. -/
theorem scrubbed_uncorrectable (b w : ℕ) (s : State) :
    (scrubNext b w (uncorrectable b w s)).get F.bankStat_UNCORR b = (s.get F.bankStat_UNCORR b + 1) % 2 ^ F.bankStat_UNCORR.w ∧
      (scrubNext b w (uncorrectable b w s)).get F.bankStat_UNC_EVT b = 1 ∧
      mget 0 (scrubNext b w (uncorrectable b w s)).bank.bad (wordKey b w) = 1 ∧
      mget 0 (scrubNext b w (uncorrectable b w s)).bank.scrub b = (w + 1) % 4096 ∧
      scrubNext b w (uncorrectable b w s) = { s with
        regs := (scrubNext b w (uncorrectable b w s)).regs, bank := (scrubNext b w (uncorrectable b w s)).bank
        flt := (scrubNext b w (uncorrectable b w s)).flt } ∧
      RegsBut [F.bankStat_UNCORR, F.bankStat_UNC_EVT] s (scrubNext b w (uncorrectable b w s)) := by
  refine ⟨?_, ?_, ?_, scrubNext_scrub b w _, ?_, ?_⟩
  · rw [scrubNext_get, uncorrectable, report_get]
    exact (State.get_set_ne _ F.bankStat_UNC_EVT F.bankStat_UNCORR _ _ _ (by decide)).trans (State.get_inc_same s F.bankStat_UNCORR b)
  · rw [scrubNext_get, uncorrectable, report_get]
    exact State.get_set_same _ F.bankStat_UNC_EVT b 1
  · simp [uncorrectable]
  · rw [scrubNext, uncorrectable, report_frame]
    rfl
  · exact scrubNext_regsBut ((RegsBut.refl _ s).inc.set.regs (report_regs ..))

/-! ### Deferred answers (R295) -/

@[simp] theorem mget_mlist {α : Type} (m : List (ℕ × List α)) (x : ℕ) (l : List α) : mget [] (mlist m x l) x = l := by
  unfold mlist
  split
  · rename_i h
    rw [List.isEmpty_iff.1 h, mget, mfind_mdel, if_pos rfl, Option.getD_none]
  · exact mget_mput_same [] m x l

@[simp] theorem deferOf_setDefer (s : State) (b : ℕ) (l : List Defer) : (s.setDefer b l).deferOf b = l := mget_mlist _ _ _

/-- The deferred READ `d` has left the bank's list, and the word of key `k` is unlocked unless further ones wait for it. -/
def answered (b k : ℕ) (rest : List Defer) (s : State) : State :=
  if rest.any fun d => d.word = k % 4096 then s.setDefer b rest
  else { s.setDefer b rest with bank := { (s.setDefer b rest).bank with answering := mdel s.bank.answering k } }

theorem answered_frame (b k : ℕ) (rest : List Defer) (s : State) : answered b k rest s = { s with bank := (answered b k rest s).bank } := by
  unfold answered
  split <;> rfl

theorem answered_deferOf (b k : ℕ) (rest : List Defer) (s : State) : (answered b k rest s).deferOf b = rest := by
  unfold answered
  split
  · exact deferOf_setDefer s b rest
  · exact deferOf_setDefer s b rest

theorem answered_last {b k : ℕ} {rest : List Defer} {s : State} (h : (rest.any fun d => d.word = k % 4096) = false) :
    answered b k rest s =
      { s.setDefer b rest with bank := { (s.setDefer b rest).bank with answering := mdel s.bank.answering k } } := by
  simp only [answered, h]
  rfl

section
variable {s : State} {b : Fin 2048} {k : ℕ} {v : W} {d : Defer} {rest : List Defer}
  (hon : s.fabricOn (b.val / 16) = true) (hfind : (s.bank.answering.find? fun e => e.1 / 4096 = b.val) = some (k, v))
  (hfirst : takeFirst (fun d : Defer => d.word = k % 4096) (s.deferOf b) = some (d, rest))
include hon hfind hfirst

theorem exec_deferredReadAnswer : exec (.deferredReadAnswer b) s = .next (sendAnswer b d false v (answered b k rest s)) := by
  have h : deferredReadAnswer b s = sendAnswer b d false v (answered b k rest s) := by
    simp only [deferredReadAnswer, hfind, hfirst, answered]
    rfl
  rw [← h, ← onFabric_on hon (deferredReadAnswer b)]
  rfl

/-- A READ of the bank's own cluster is answered there. -/
theorem deferredReadAnswer_here (hpkg : tagPkg d.tag = s.pkg) (hcl : cIdx (tagDie d.tag) (tagCluster d.tag) = b.val / 16) :
    Completes (.deferredReadAnswer b) s fun t => (t.net.ansQ.dropLast = s.net.ansQ ∧
      (t.net.ansQ.getLast?).map (fun f => (f.pay, f.poison)) = some (ansPay d.tag v d.due, false) ∧ t.deferOf b = rest ∧
      ((rest.any fun d => d.word = k % 4096) = false → mfind t.bank.answering k = none) ∧
      t = { s with bank := t.bank, net := { s.net with ansQ := t.net.ansQ } }) := by
  refine completes_next (exec_deferredReadAnswer hon hfind hfirst) ?_
  have hfr := answered_frame b k rest s
  have hq := answered_deferOf b k rest s
  have hlast := @answered_last b k rest s
  have hpkg' : tagPkg d.tag = (answered b k rest s).pkg := by rw [hfr]; exact hpkg
  generalize answered b k rest s = u at hfr hq hlast hpkg'
  rw [sendAnswer, if_pos ⟨hpkg', hcl⟩]
  have hnet : u.net = s.net := by rw [hfr]
  refine ⟨?_, ?_, hq, fun h => ?_, ?_⟩
  · simp [hnet]
  · simp [mkFlit]
  · rw [hlast h]
    exact (mfind_mdel _ _ _).trans (if_pos rfl)
  · rw [hnet, hfr]

/-- A READ of another cluster is answered through the network. -/
theorem deferredReadAnswer_away (haway : tagPkg d.tag ≠ s.pkg ∨ cIdx (tagDie d.tag) (tagCluster d.tag) ≠ b.val / 16)
    (hrest : (rest.any fun d => d.word = k % 4096) = false) :
    exec (.deferredReadAnswer b) s = .next (let u := s.setDefer b rest;
      send (mkFlit 2 false (ansPay d.tag v d.due) [] (tagPart d.tag) (rspUrg s (tagPart d.tag) d.urg) (b.val / 16))
        { u with bank := { u.bank with answering := mdel u.bank.answering k } }) := by
  rw [exec_deferredReadAnswer hon hfind hfirst, answered_last hrest, sendAnswer, if_neg]
  · rfl
  · rintro ⟨hp, hc⟩
    exact haway.elim (· hp) (· hc)
end

/-! ### Words of a bank -/

theorem bankAddr_add (c b w : ℕ) : bankAddr c b w = bankAddr c b 0 + 8 * w := by
  simp only [bankAddr, clAddr]
  omega

/-- A map of which the entries of some keys are left. -/
theorem mfind_filter_key {α : Type} (q : ℕ → Bool) (m : List (ℕ × α)) (x : ℕ) :
    mfind (m.filter fun e => q e.1) x = if q x then mfind m x else none := by
  induction m with
  | nil => simp [mfind]
  | cons e m ih =>
    obtain ⟨k, v⟩ := e
    rw [List.filter_cons]
    by_cases hk : k = x
    · subst hk
      cases hq : q k <;> simp [hq, mfind, ih]
    · cases hq : q k <;> simp [mfind, ih, hk]

theorem readN_eq_zero {s : State} {a n : ℕ} (h : ∀ k, k < n → s.readByte (a + k) = 0) : s.readN a n = 0 := by
  induction n generalizing a with
  | zero => rfl
  | succ n ih =>
    have h0 := h 0 n.succ_pos
    rw [Nat.add_zero] at h0
    rw [State.readN, h0, ih fun k hk => by rw [Nat.add_assoc, Nat.add_comm 1 k]; exact h (k + 1) (by omega)]
    rfl

theorem initBank_frame (b : ℕ) (s : State) : initBank b s = { s with mem := (initBank b s).mem, bank := (initBank b s).bank } := rfl

theorem readByte_initBank (b : ℕ) (s : State) (a : ℕ) :
    (initBank b s).readByte a = if a < bankAddr (b / 16) (b % 16) 0 ∨ bankAddr (b / 16) (b % 16) 0 + 0x8000 ≤ a then s.readByte a else 0 := by
  unfold State.readByte mget initBank
  dsimp only
  rw [mfind_filter_key fun e => e < bankAddr (b / 16) (b % 16) 0 || bankAddr (b / 16) (b % 16) 0 + 0x8000 ≤ e]
  simp only [Bool.or_eq_true, decide_eq_true_eq]
  split <;> rfl

/-- A bank is initialised: every word is 0 and EMPTY (R289). -/
def BankClear (b : ℕ) (t : State) : Prop := ∀ w, w < 4096 → t.bankWord b w = 0 ∧ t.isPresent b w = false

theorem initBank_clear (b : ℕ) (s : State) : BankClear b (initBank b s) := by
  intro w hw
  constructor
  · have hzero : (initBank b s).readN (bankAddr (b / 16) (b % 16) w) 6 = 0 := readN_eq_zero fun k hk => by
      rw [readByte_initBank, if_neg]
      have := bankAddr_add (b / 16) (b % 16) w
      omega
    rw [State.bankWord, State.readSlot, hzero]
    rfl
  · have hkey : wordKey b w / 4096 = b := by
      unfold wordKey
      omega
    have hnone : mfind (s.bank.present.filter fun e => e.1 / 4096 ≠ b) (wordKey b w) = none := by
      rw [mfind_filter_key fun e => decide (e / 4096 ≠ b), if_neg (by simp [hkey])]
    simp only [State.isPresent, initBank, mget, hnone, Option.getD_none]
    rfl

theorem readN_lt (s : State) (a n : ℕ) : s.readN a n < 256 ^ n := by
  induction n generalizing a with
  | zero => exact Nat.one_pos
  | succ n ih =>
    have hb := (s.readByte a).isLt
    have := ih (a + 1)
    rw [State.readN, Nat.pow_succ']
    omega

theorem byte_readN (s : State) {a n k : ℕ} (hk : k < n) : BitVec.ofNat 8 (s.readN a n / 256 ^ k) = s.readByte (a + k) := by
  induction n generalizing a k with
  | zero => omega
  | succ n ih =>
    have hb := (s.readByte a).isLt
    rw [State.readN]
    cases k with
    | zero =>
      apply BitVec.eq_of_toNat_eq
      simp only [Nat.pow_zero, Nat.div_one, BitVec.toNat_ofNat, Nat.add_zero]
      omega
    | succ k =>
      have hdiv : ((s.readByte a).toNat + 256 * s.readN (a + 1) n) / 256 = s.readN (a + 1) n := by omega
      rw [Nat.pow_succ', ← Nat.div_div_eq_div_mul, hdiv, ih (by omega), Nat.add_assoc, Nat.add_comm 1 k]

theorem readSlot_toNat (s : State) (a : ℕ) : (s.readSlot a).toNat = s.readN a 6 := by
  rw [State.readSlot, w48, BitVec.toNat_ofNat]
  exact Nat.mod_eq_of_lt (readN_lt s a 6)

/-- A slot that is written back with its own value keeps every byte. -/
theorem writeSlot_readSlot_memSame (s : State) (p : ℕ) : MemSame s (s.writeSlot p (s.readSlot p)) := by
  intro a
  rw [State.writeSlot, readSlot_toNat]
  by_cases ha : a < p ∨ p + 6 ≤ a
  · exact readByte_writeN_out _ _ _ _ _ ha
  · obtain ⟨k, rfl⟩ : ∃ k, a = p + k := ⟨a - p, by omega⟩
    have hk : k < 6 := by omega
    rw [readByte_writeN_in _ _ _ _ _ hk, byte_readN s hk]

/-! ### The write-back of a corrected word (R298) -/

theorem writeN_frame (s : State) (a v n : ℕ) : s.writeN a v n = { s with mem := (s.writeN a v n).mem } := by
  induction n generalizing s a v with
  | zero => rfl
  | succ n ih =>
    rw [State.writeN, ih]
    rfl

theorem readN_of_mem {s t : State} (h : s.mem = t.mem) (a n : ℕ) : s.readN a n = t.readN a n :=
  readN_congr s t a n fun k _ => by rw [State.readByte, State.readByte, h]

theorem putWord_mem (s : State) (b w : ℕ) (v : W) : (s.putWord b w v).mem = (s.writeSlot (bankAddr (b / 16) (b % 16) w) v).mem := rfl

theorem putWord_frame (s : State) (b w : ℕ) (v : W) :
    s.putWord b w v = { s with bank := (s.putWord b w v).bank, mem := (s.putWord b w v).mem } := by
  rw [State.putWord, State.writeSlot, writeN_frame]

theorem bankWord_putWord (s : State) (b w : ℕ) (v : W) : (s.putWord b w v).bankWord b w = v := by
  rw [State.bankWord, State.readSlot, readN_of_mem (putWord_mem s b w v)]
  exact readSlot_writeSlot s _ v

theorem putWord_wb (s : State) (b w : ℕ) (v : W) : mfind (s.putWord b w v).bank.wb (wordKey b w) = none := by
  rw [State.putWord]
  dsimp only
  rw [mfind_mdel, if_pos rfl]

theorem putWord_bankWord_memSame (s : State) (b w : ℕ) : MemSame s (s.putWord b w (s.bankWord b w)) := by
  intro a
  rw [State.readByte, putWord_mem, ← State.readByte]
  exact writeSlot_readSlot_memSame s _ a

theorem correctedWriteback_found {s : State} {b : Fin 2048} {k n : ℕ} (hon : s.fabricOn (b.val / 16) = true)
    (hfind : (s.bank.wb.find? fun e => e.1 / 4096 = b.val) = some (k, n)) :
    Completes (.correctedWriteback b) s fun t => mfind t.bank.wb k = none ∧ t.bankWord b (k % 4096) = s.bankWord b (k % 4096) ∧
      t = { s with bank := t.bank, mem := t.mem } ∧ MemSame s t := by
  have hkey : wordKey b (k % 4096) = k := by
    have := List.find?_some hfind
    simp only [decide_eq_true_eq] at this
    unfold wordKey
    omega
  have hexec : exec (.correctedWriteback b) s = .next (s.putWord b (k % 4096) (s.bankWord b (k % 4096))) := by
    have hput : correctedWriteback b s = s.putWord b (k % 4096) (s.bankWord b (k % 4096)) := by
      simp only [correctedWriteback, hfind]
    rw [← hput, ← onFabric_on hon (correctedWriteback b)]
    rfl
  have hwb := putWord_wb s b (k % 4096) (s.bankWord b (k % 4096))
  rw [hkey] at hwb
  exact completes_next hexec ⟨hwb, bankWord_putWord s b _ _, putWord_frame s b _ _, putWord_bankWord_memSame s b _⟩

/-! ### Ownership (R302, R303) -/

theorem deferOf_nil_of_setDefer (s : State) (b : ℕ) : (s.setDefer b []).deferOf b = [] := deferOf_setDefer s b []

/-- The initiators whose write of BANK_OWN is taken, the owners it may name, and a bank that can take it. -/
def OwnTaken (init b owner : ℕ) (s : State) : Prop :=
  (init ≤ 8 ∨ init = 11) ∧ (owner ≤ 10 ∨ owner = 15) ∧
    (∀ o ∈ [s.get F.bankOwn_OWNER b, owner], 8 ≤ o ∨ s.pState o = pFree ∨ s.pState o = pLoading) ∧
    s.flag F.bankOwn_PENDING b = false ∧ s.flag F.bankPwr_OFFLINE b = false

/-- A handover is pending: the deferred READs are dropped, and the queue completes with the present owner's rights. -/
def handoverBegun (b owner : ℕ) (clr : Bool) (s : State) : State :=
  let s := s.set F.bankOwn_PENDING b 1
  { s with bank := { s.bank with
    handover := mput s.bank.handover b (owner * 2 + b2n clr)
    answering := s.bank.answering.filter fun e => e.1 / 4096 ≠ b
    queue := mlist s.bank.queue b ((mget [] s.bank.queue b).map fun r : BReq => { r with pre := true }) } }.setDefer b []

theorem bankOwnWrite_taken {init b owner : ℕ} {s : State} (h : OwnTaken init b owner s) (clr : Bool) :
    bankOwnWrite init b (some owner) clr s = (true, handoverBegun b owner clr s) := by
  obtain ⟨hinit, howner, hparts, hpending, hoffline⟩ := h
  simp only [List.mem_cons, List.not_mem_nil, or_false, forall_eq_or_imp, forall_eq] at hparts
  obtain ⟨hold, hnew⟩ := hparts
  rw [bankOwnWrite]
  dsimp only
  rw [if_neg, if_neg (by omega), if_neg]
  · rfl
  · simp only [Bool.or_eq_true, Bool.not_eq_true', decide_eq_false_iff_not, Bool.or_eq_false_iff, ge_iff_le]
    tauto
  · simp only [hpending, hoffline, Bool.or_false, Bool.not_eq_true', Bool.or_eq_false_iff, decide_eq_false_iff_not]
    omega

theorem bankOwnWrite_refused {init b owner : ℕ} {s : State} (h : ¬ OwnTaken init b owner s) (hw : owner < 16) (clr : Bool) :
    (bankOwnWrite init b (some owner) clr s).2 = s := by
  rw [bankOwnWrite]
  dsimp only
  split
  · rfl
  · rename_i hopen
    split
    · rfl
    · rename_i howner
      split
      · rfl
      · rename_i hparts
        simp only [Bool.or_eq_true, Bool.not_eq_true', decide_eq_false_iff_not, Bool.or_eq_false_iff, ge_iff_le, Bool.not_eq_true,
          not_or] at hopen hparts
        obtain ⟨⟨hinit, hpending⟩, hoffline⟩ := hopen
        refine absurd ⟨by omega, by omega, ?_, hpending, hoffline⟩ h
        simp only [List.mem_cons, List.not_mem_nil, or_false, forall_eq_or_imp, forall_eq]
        tauto

theorem exec_bankOwn_taken {init : Fin 15} {b : Fin 2048} {owner : BitVec 4} {s : State} (hf : s.fatal = false)
    (h : OwnTaken init b owner.toNat s) (clr : Bool) :
    Completes (.bankOwn init b owner clr) s fun t => t.get F.bankOwn_PENDING b = 1 ∧
      mfind t.bank.handover b = some (owner.toNat * 2 + b2n clr) ∧ t.deferOf b = [] ∧ t = { s with regs := t.regs, bank := t.bank } ∧
      RegsBut [F.bankOwn_PENDING] s t ∧ InstBut F.bankOwn_PENDING b s t := by
  have hexec : exec (.bankOwn init b owner clr) s = .next (handoverBegun b owner.toNat clr s) := by
    have : (bankOwnWrite init b (some owner.toNat) clr s).2 = handoverBegun b owner.toNat clr s := by rw [bankOwnWrite_taken h]
    rw [← this, ← unlessFatal_live hf fun s => (bankOwnWrite init b (some owner.toNat) clr s).2]
    rfl
  refine completes_next hexec ⟨?_, ?_, deferOf_setDefer _ _ _, rfl, (RegsBut.refl _ s).set, InstBut.set s⟩
  · exact State.get_set_same s F.bankOwn_PENDING b 1
  · exact mfind_mput_same s.bank.handover b _

theorem exec_bankOwn_refused {init : Fin 15} {b : Fin 2048} {owner : BitVec 4} {s : State} (h : ¬ OwnTaken init b owner.toNat s)
    (clr : Bool) : exec (.bankOwn init b owner clr) s = .next s :=
  congrArg _ (unlessFatal_eq_self (bankOwnWrite_refused h owner.isLt clr))

theorem exec_handoverComplete_waits {b : Fin 2048} {s : State} (h : mfind s.bank.handover b = none ∨ mget [] s.bank.queue b ≠ []) :
    exec (.handoverComplete b) s = .next s := by
  refine congrArg _ (unlessFatal_eq_self ?_)
  unfold handoverComplete
  split
  · rfl
  · rename_i x hx
    rw [if_pos]
    simpa [hx] using h

/-- The part of HANDOVER_COMPLETE after the bank is initialised or not. -/
def handedOver (b x : ℕ) (s : State) : State :=
  (({ s with bank := { s.bank with
    handover := mdel s.bank.handover b
    answering := s.bank.answering.filter fun e => e.1 / 4096 ≠ b } }.setDefer b []).set F.bankOwn_OWNER b (x / 2)).set F.bankOwn_PENDING b 0

theorem handoverComplete_ready {b x : ℕ} {s : State} (hx : mfind s.bank.handover b = some x) (hq : mget [] s.bank.queue b = []) :
    handoverComplete b s = handedOver b x (if x % 2 = 1 then initBank b s else s) := by
  simp only [handoverComplete, hx, hq, List.isEmpty_nil]
  rfl

theorem handedOver_mem (b x : ℕ) (s : State) : (handedOver b x s).mem = s.mem := rfl

theorem handedOver_present (b x : ℕ) (s : State) : (handedOver b x s).bank.present = s.bank.present := rfl

/-- Whether a bank is clear depends on memory and presence. -/
theorem BankClear.of_same {b : ℕ} {s t : State} (h : BankClear b s) (hm : t.mem = s.mem) (hp : t.bank.present = s.bank.present) :
    BankClear b t := by
  intro w hw
  obtain ⟨hword, hpresent⟩ := h w hw
  rw [State.bankWord, State.readSlot] at hword
  rw [State.isPresent] at hpresent
  rw [State.bankWord, State.readSlot, readN_of_mem hm, State.isPresent, hp]
  exact ⟨hword, hpresent⟩

theorem readByte_initBank_out (b : ℕ) (s : State) {a : ℕ}
    (ha : a < bankAddr (b / 16) (b % 16) 0 ∨ bankAddr (b / 16) (b % 16) 0 + 0x8000 ≤ a) : (initBank b s).readByte a = s.readByte a := by
  rw [readByte_initBank, if_pos ha]

theorem exec_handoverComplete_ready {b : Fin 2048} {x : ℕ} {s : State} (hf : s.fatal = false) (hx : mfind s.bank.handover b = some x)
    (hq : mget [] s.bank.queue b = []) :
    exec (.handoverComplete b) s = .next (handedOver b x (if x % 2 = 1 then initBank b s else s)) := by
  rw [← handoverComplete_ready hx hq, ← unlessFatal_live hf (handoverComplete b)]
  rfl

theorem handedOver_leaves (b x : ℕ) (s : State) :
    (handedOver b x s).get F.bankOwn_OWNER b = x / 2 % 16 ∧ (handedOver b x s).get F.bankOwn_PENDING b = 0 ∧
      mfind (handedOver b x s).bank.handover b = none ∧
      handedOver b x s = { s with regs := (handedOver b x s).regs, bank := (handedOver b x s).bank } ∧
      RegsBut [F.bankOwn_OWNER, F.bankOwn_PENDING] s (handedOver b x s) := by
  refine ⟨?_, State.get_set_same _ F.bankOwn_PENDING b 0, ?_, rfl, (RegsBut.refl _ s).set.set⟩
  · exact (State.get_set_ne _ F.bankOwn_PENDING F.bankOwn_OWNER _ _ _ (by decide)).trans (State.get_set_same _ F.bankOwn_OWNER b (x / 2))
  · exact (mfind_mdel s.bank.handover b b).trans (if_pos rfl)

theorem handoverComplete_completes {b : Fin 2048} {x : ℕ} {s : State} (hf : s.fatal = false) (hx : mfind s.bank.handover b = some x)
    (hq : mget [] s.bank.queue b = []) :
    Completes (.handoverComplete b) s fun t => t.get F.bankOwn_OWNER b = x / 2 % 16 ∧ t.get F.bankOwn_PENDING b = 0 ∧
      mfind t.bank.handover b = none ∧ t = { s with regs := t.regs, bank := t.bank, mem := t.mem } ∧
      (x % 2 = 1 → ∀ w, w < 4096 → t.bankWord b w = 0 ∧ t.isPresent b w = false) ∧ (x % 2 = 0 → t.mem = s.mem) ∧
      (∀ a, a < bankAddr (b.val / 16) (b.val % 16) 0 ∨ bankAddr (b.val / 16) (b.val % 16) 0 + 0x8000 ≤ a → t.readByte a = s.readByte a) ∧
      RegsBut [F.bankOwn_OWNER, F.bankOwn_PENDING] s t := by
  refine completes_next (exec_handoverComplete_ready hf hx hq) ?_
  by_cases hclr : x % 2 = 1
  · rw [if_pos hclr]
    obtain ⟨howner, hpending, hhandover, hframe, hregs⟩ := handedOver_leaves b x (initBank b s)
    refine ⟨howner, hpending, hhandover, ?_, fun _ => ?_, fun h => by omega, fun a ha => readByte_initBank_out b s ha, hregs⟩
    · exact hframe
    · exact (initBank_clear b s).of_same rfl rfl
  · rw [if_neg hclr]
    obtain ⟨howner, hpending, hhandover, hframe, hregs⟩ := handedOver_leaves b x s
    exact ⟨howner, hpending, hhandover, hframe, fun h => absurd h hclr, fun _ => rfl, fun _ _ => rfl, hregs⟩

/-! ### Power moves (R305, R306) -/

theorem takeFirst_none {α : Type} {p : α → Bool} {l : List α} (h : l.any p = false) : takeFirst p l = none := by
  induction l with
  | nil => rfl
  | cons a l ih =>
    rw [List.any_cons, Bool.or_eq_false_iff] at h
    rw [takeFirst, if_neg (by simp [h.1]), ih h.2]
    rfl

/-- No operation stands at a bank or waits for room in its queue. -/
def BankQuiet (b : ℕ) (s : State) : Prop :=
  mget [] s.bank.queue b = [] ∧ (s.net.flits.any fun f => f.out = none && forBank f && flitBank f = b) = false

/-- With no operation to fail, the queue stays empty. -/
theorem failQueue_quiet {b : ℕ} {s : State} (h : BankQuiet b s) :
    failQueue b s = { s with bank := { s.bank with queue := mlist s.bank.queue b [] } } := by
  obtain ⟨hq, hf⟩ := h
  rw [failQueue, hq, List.foldl_nil, refillBank, if_neg (by simp), takeFirst_none hf]

/-- Where the write of STATE, to a bank with nothing to lose, leaves the bank. -/
def moveBegun (b st : ℕ) (s : State) : State :=
  { s.set F.bankPwr_BUSY b 1 with bank := { s.bank with move := mput s.bank.move b st } }

theorem moveBegun_leaves (b st : ℕ) (s : State) : (moveBegun b st s).get F.bankPwr_BUSY b = 1 ∧
    mfind (moveBegun b st s).bank.move b = some st ∧
    moveBegun b st s = { s with regs := (moveBegun b st s).regs, bank := (moveBegun b st s).bank } :=
  ⟨State.get_set_same s F.bankPwr_BUSY b 1, mfind_mput_same _ b st, rfl⟩

/-- A move from another state than ON fails no operation. -/
theorem startMove_notOn {b st : ℕ} {s : State} (h : s.get F.bankPwr_CURRENT b ≠ 0) : startMove b st s = moveBegun b st s := by
  have hcur : (s.set F.bankPwr_BUSY b 1).get F.bankPwr_CURRENT b ≠ 0 := by
    rwa [State.get_set_ne _ _ _ _ _ _ (by decide)]
  exact if_neg hcur

/-- Of a quiet bank a move fails no operation. -/
theorem startMove_quiet {b st : ℕ} {s : State} (h : BankQuiet b s) : startMove b st s = moveBegun b st s ∨
    startMove b st s = { moveBegun b st s with bank := { (moveBegun b st s).bank with queue := mlist s.bank.queue b [] } } := by
  have hquiet : BankQuiet b (moveBegun b st s) := h
  by_cases hcur : (moveBegun b st s).get F.bankPwr_CURRENT b = 0
  · refine .inr ?_
    have : startMove b st s = failQueue b (moveBegun b st s) := if_pos hcur
    rw [this, failQueue_quiet hquiet]
    rfl
  · exact .inl (if_neg hcur)

theorem startMove_quiet_leaves {b st : ℕ} {s : State} (h : BankQuiet b s) : (startMove b st s).regs = (moveBegun b st s).regs ∧
    mfind (startMove b st s).bank.move b = some st ∧
    startMove b st s = { s with regs := (startMove b st s).regs, bank := (startMove b st s).bank } := by
  have hmove : mfind (mput s.bank.move b st) b = some st := mfind_mput_same _ b st
  rcases startMove_quiet (st := st) h with e | e
  · rw [e]
    exact ⟨rfl, hmove, rfl⟩
  · rw [e]
    exact ⟨rfl, hmove, rfl⟩

theorem bankPwrWrite_kept {b st : ℕ} {s : State} (h : s.flag F.bankPwr_OFFLINE b = true ∨ st = 3) : (bankPwrWrite b st s).2 = s := by
  rw [bankPwrWrite]
  dsimp only
  split
  · rfl
  · rename_i hon
    rw [if_pos (h.resolve_left hon)]

theorem exec_bankPwr_kept {b : Fin 2048} {st : BitVec 2} {s : State} (h : s.flag F.bankPwr_OFFLINE b = true ∨ st = 3) :
    exec (.bankPwr b st) s = .next s :=
  congrArg _ (unlessFatal_eq_self (bankPwrWrite_kept (h.imp_right fun h => by rw [h]; rfl)))

/-- A write of STATE that R306 does not refuse is taken, and a move starts unless one runs or the bank is there. -/
theorem bankPwrWrite_taken {b st : ℕ} {s : State} (hst : st ≠ 3) (hoff : s.flag F.bankPwr_OFFLINE b = false)
    (hok : ¬(st ≠ 0 ∧ (s.get F.bankPwr_CURRENT b = 0 ∨ mfind s.bank.move b = some 0) ∧
      ((s.get F.bankOwn_OWNER b < 8 ∧ s.pState (s.get F.bankOwn_OWNER b) ≠ pFree ∧ s.pState (s.get F.bankOwn_OWNER b) ≠ pLoading) ∨
        !(s.deferOf b).isEmpty ∨ (s.get F.spillCfg_COUNT (b / 16) ≠ 0 ∧ s.spillBank (b / 16) = b % 16)))) :
    (bankPwrWrite b st s).2 =
      if s.flag F.bankPwr_BUSY b = true ∨ s.get F.bankPwr_CURRENT b = st then s.set F.bankPwr_STATE b st
      else startMove b st (s.set F.bankPwr_STATE b st) := by
  have hbusy : (s.set F.bankPwr_STATE b st).flag F.bankPwr_BUSY b = s.flag F.bankPwr_BUSY b := State.flag_set_ne _ _ _ _ _ _ (by decide)
  have hcur : (s.set F.bankPwr_STATE b st).get F.bankPwr_CURRENT b = s.get F.bankPwr_CURRENT b := State.get_set_ne _ _ _ _ _ _ (by decide)
  rw [bankPwrWrite]
  dsimp only
  rw [if_neg (by simp [hoff]), if_neg hst, if_neg hok, hbusy, hcur]
  simp only [Bool.or_eq_true, decide_eq_true_eq]
  split <;> rfl

theorem exec_bankPwr {b : Fin 2048} {s : State} (hf : s.fatal = false) (st : BitVec 2) :
    exec (.bankPwr b st) s = .next (bankPwrWrite b st.toNat s).2 := by
  rw [← unlessFatal_live hf fun s => (bankPwrWrite b st.toNat s).2]
  rfl

/-- During a move, or where the bank is already, the write sets STATE alone. -/
theorem exec_bankPwr_state {b : Fin 2048} {st : BitVec 2} {s : State} (hf : s.fatal = false) (hst : st ≠ 3)
    (hoff : s.flag F.bankPwr_OFFLINE b = false) (hcur : s.get F.bankPwr_CURRENT b ≠ 0 ∨ st = 0)
    (hmove : mfind s.bank.move b ≠ some 0 ∨ st = 0) (hrun : s.flag F.bankPwr_BUSY b = true ∨ s.get F.bankPwr_CURRENT b = st.toNat) :
    exec (.bankPwr b st) s = .next (s.set F.bankPwr_STATE b st.toNat) := by
  have hst' : st.toNat ≠ 3 := fun e => hst (BitVec.eq_of_toNat_eq e)
  have hzero : st = 0 → st.toNat = 0 := fun e => by rw [e]; rfl
  rw [exec_bankPwr hf, bankPwrWrite_taken hst' hoff, if_pos hrun]
  rintro ⟨hne, hat, -⟩
  have hnz : st ≠ 0 := fun e => hne (hzero e)
  exact hat.elim (hcur.resolve_right hnz) (hmove.resolve_right hnz)

/-- A bank that no partition owns, with no deferral, no spill area and no operation, starts to move. -/
theorem exec_bankPwr_move {b : Fin 2048} {st : BitVec 2} {s : State} (hf : s.fatal = false) (hst : st.toNat ≠ 3)
    (hoff : s.flag F.bankPwr_OFFLINE b = false) (howner : 8 ≤ s.get F.bankOwn_OWNER b) (hdefer : s.deferOf b = [])
    (hspill : s.get F.spillCfg_COUNT (b.val / 16) = 0) (hbusy : s.flag F.bankPwr_BUSY b = false)
    (hcur : s.get F.bankPwr_CURRENT b ≠ st.toNat) (hquiet : BankQuiet b s) :
    Completes (.bankPwr b st) s fun t => t.get F.bankPwr_STATE b = st.toNat ∧ t.get F.bankPwr_BUSY b = 1 ∧
      mfind t.bank.move b = some st.toNat ∧ t = { s with regs := t.regs, bank := t.bank } ∧
      RegsBut [F.bankPwr_STATE, F.bankPwr_BUSY] s t := by
  have hexec : exec (.bankPwr b st) s = .next (startMove b st.toNat (s.set F.bankPwr_STATE b st.toNat)) := by
    rw [exec_bankPwr hf, bankPwrWrite_taken hst hoff, if_neg (by simp [hbusy, hcur])]
    rintro ⟨-, -, ⟨hlt, -⟩ | hne | ⟨hne, -⟩⟩
    · omega
    · simp [hdefer] at hne
    · exact hne hspill
  have hquiet' : BankQuiet b (s.set F.bankPwr_STATE b st.toNat) := hquiet
  obtain ⟨hregs, hmove, hframe⟩ := startMove_quiet_leaves (st := st.toNat) hquiet'
  have hget (g : Fld) := State.get_congr _ _ g b hregs
  refine completes_next hexec ⟨?_, ?_, hmove, hframe, ?_⟩
  · have hset : (moveBegun b st.toNat (s.set F.bankPwr_STATE b st.toNat)).get F.bankPwr_STATE b = st.toNat % 2 ^ 2 :=
      (State.get_set_ne _ F.bankPwr_BUSY F.bankPwr_STATE _ _ _ (by decide)).trans (State.get_set_same s F.bankPwr_STATE b st.toNat)
    rw [hget, hset]
    exact Nat.mod_eq_of_lt st.isLt
  · exact (hget _).trans (moveBegun_leaves _ _ _).1
  · exact ((RegsBut.refl _ s).set.set (f := F.bankPwr_BUSY)).regs hregs

/-- The part of POWER_MOVE_COMPLETE after the bank is initialised or not. -/
def moved (b x : ℕ) (s : State) : State :=
  ({ s with bank := { s.bank with move := mdel s.bank.move b } }.set F.bankPwr_CURRENT b x).set F.bankPwr_BUSY b 0

/-- A bank that leaves OFF is initialised (R289). -/
def leavesOff (b x : ℕ) (s : State) : State := if s.get F.bankPwr_CURRENT b = 2 ∧ x ≠ 2 then initBank b s else s

theorem leavesOff_frame (b x : ℕ) (s : State) :
    leavesOff b x s = { s with mem := (leavesOff b x s).mem, bank := (leavesOff b x s).bank } := by
  unfold leavesOff
  split
  · exact initBank_frame b s
  · rfl

theorem leavesOff_regs (b x : ℕ) (s : State) : (leavesOff b x s).regs = s.regs := by rw [leavesOff_frame]

theorem powerMoveComplete_found {b x : ℕ} {s : State} (hx : mfind s.bank.move b = some x) :
    powerMoveComplete b s =
      if s.get F.bankPwr_STATE b = x then moved b x (leavesOff b x s) else startMove b (s.get F.bankPwr_STATE b) (moved b x (leavesOff b x s)) := by
  have hstate : (moved b x (leavesOff b x s)).get F.bankPwr_STATE b = s.get F.bankPwr_STATE b :=
    (State.get_set_ne _ F.bankPwr_BUSY F.bankPwr_STATE _ _ _ (by decide)).trans
      ((State.get_set_ne _ F.bankPwr_CURRENT F.bankPwr_STATE _ _ _ (by decide)).trans (State.get_congr _ _ _ _ (leavesOff_regs b x s)))
  rw [← hstate]
  simp only [powerMoveComplete, hx]
  rfl

theorem moved_leaves {b x : ℕ} (hx : x < 4) (s : State) : (moved b x s).get F.bankPwr_CURRENT b = x ∧ (moved b x s).get F.bankPwr_BUSY b = 0 ∧
    mfind (moved b x s).bank.move b = none ∧ RegsBut [F.bankPwr_CURRENT, F.bankPwr_BUSY] s (moved b x s) := by
  refine ⟨?_, State.get_set_same _ F.bankPwr_BUSY b 0, ?_, (RegsBut.refl _ s).set.set⟩
  · have hset : (moved b x s).get F.bankPwr_CURRENT b = x % 2 ^ 2 :=
      (State.get_set_ne _ F.bankPwr_BUSY F.bankPwr_CURRENT _ _ _ (by decide)).trans (State.get_set_same _ F.bankPwr_CURRENT b x)
    rw [hset]
    exact Nat.mod_eq_of_lt hx
  · exact (mfind_mdel s.bank.move b b).trans (if_pos rfl)

theorem exec_powerMoveComplete {b : Fin 2048} {s : State} (hf : s.fatal = false) :
    exec (.powerMoveComplete b) s = .next (powerMoveComplete b s) := by
  rw [← unlessFatal_live hf (powerMoveComplete b)]
  rfl

section
variable {b : Fin 2048} {x : ℕ} {s : State} (hf : s.fatal = false) (hx : mfind s.bank.move b = some x) (hlt : x < 4)
include hf hx hlt

/-- The move is over. -/
theorem powerMoveComplete_ends (hstate : s.get F.bankPwr_STATE b = x) :
    Completes (.powerMoveComplete b) s fun t => t.get F.bankPwr_CURRENT b = x ∧ t.get F.bankPwr_BUSY b = 0 ∧ mfind t.bank.move b = none ∧
      t = { s with regs := t.regs, bank := t.bank, mem := t.mem } ∧
      (s.get F.bankPwr_CURRENT b = 2 → x ≠ 2 → ∀ w, w < 4096 → t.bankWord b w = 0 ∧ t.isPresent b w = false) ∧
      (s.get F.bankPwr_CURRENT b ≠ 2 → t.mem = s.mem) ∧ RegsBut [F.bankPwr_CURRENT, F.bankPwr_BUSY] s t := by
  have hexec : exec (.powerMoveComplete b) s = .next (moved b x (leavesOff b x s)) := by
    rw [exec_powerMoveComplete hf, powerMoveComplete_found hx, if_pos hstate]
  obtain ⟨hcur, hbusy, hmove, hregs⟩ := moved_leaves (b := b) hlt (leavesOff b x s)
  refine completes_next hexec ⟨hcur, hbusy, hmove, ?_, fun h2 hne => ?_, fun hne => ?_, ?_⟩
  · rw [leavesOff_frame]
    rfl
  · have hinit : leavesOff b x s = initBank b s := if_pos ⟨h2, hne⟩
    rw [hinit]
    exact (initBank_clear b s).of_same rfl rfl
  · have hkept : leavesOff b x s = s := if_neg fun h => hne h.1
    rw [hkept]
    rfl
  · exact fun f i h => (hregs f i h).trans (State.get_congr _ _ f i (leavesOff_regs b x s))

/-- A move redirected meanwhile goes on to the new state. -/
theorem powerMoveComplete_redirected (hne : x ≠ 0) (hstate : s.get F.bankPwr_STATE b ≠ x) :
    Completes (.powerMoveComplete b) s fun t => t.get F.bankPwr_CURRENT b = x ∧ t.get F.bankPwr_BUSY b = 1 ∧
      mfind t.bank.move b = some (s.get F.bankPwr_STATE b) ∧ t = { s with regs := t.regs, bank := t.bank, mem := t.mem } ∧
      RegsBut [F.bankPwr_CURRENT, F.bankPwr_BUSY] s t := by
  obtain ⟨hcur, -, -, hregs⟩ := moved_leaves (b := b) hlt (leavesOff b x s)
  have hexec : exec (.powerMoveComplete b) s = .next (moveBegun b (s.get F.bankPwr_STATE b) (moved b x (leavesOff b x s))) := by
    rw [exec_powerMoveComplete hf, powerMoveComplete_found hx, if_neg hstate, startMove_notOn (by rwa [hcur])]
  obtain ⟨hbusy, hmove, -⟩ := moveBegun_leaves b (s.get F.bankPwr_STATE b) (moved b x (leavesOff b x s))
  refine completes_next hexec ⟨?_, hbusy, hmove, ?_, ?_⟩
  · exact (State.get_set_ne _ F.bankPwr_BUSY F.bankPwr_CURRENT _ _ _ (by decide)).trans hcur
  · rw [leavesOff_frame]
    rfl
  · have hall : RegsBut [F.bankPwr_CURRENT, F.bankPwr_BUSY] s (moved b x (leavesOff b x s)) := fun f i h =>
      (hregs f i h).trans (State.get_congr _ _ f i (leavesOff_regs b x s))
    exact hall.set (f := F.bankPwr_BUSY)
end

/-! ### Banks out of service (R309) -/

theorem exec_takeOffline_other {init : Fin 15} (h : init.val ≠ 8) (b : Fin 2048) (s : State) : exec (.takeOffline init b) s = .next s :=
  congrArg _ (unlessFatal_eq_self (if_neg h))

/-- The registers of a bank that is offline. -/
def offlineRegs (b : ℕ) (s : State) : State :=
  (((s.set F.bankPwr_OFFLINE b 1).set F.bankPwr_STATE b 2).set F.bankPwr_CURRENT b 2).set F.bankPwr_BUSY b 0

theorem offlineRegs_leaves (b : ℕ) (s : State) : (offlineRegs b s).get F.bankPwr_OFFLINE b = 1 ∧ (offlineRegs b s).get F.bankPwr_STATE b = 2 ∧
    (offlineRegs b s).get F.bankPwr_CURRENT b = 2 ∧ (offlineRegs b s).get F.bankPwr_BUSY b = 0 ∧ (offlineRegs b s).bankPart b = s.bankPart b ∧
    RegsBut [F.bankPwr_OFFLINE, F.bankPwr_STATE, F.bankPwr_CURRENT, F.bankPwr_BUSY] s (offlineRegs b s) := by
  have howner : (offlineRegs b s).get F.bankOwn_OWNER b = s.get F.bankOwn_OWNER b := by
    simp (disch := decide) only [offlineRegs, State.get_set_ne]
  refine ⟨?_, ?_, ?_, ?_, ?_, (RegsBut.refl _ s).set.set.set.set⟩
  · simp (disch := decide) only [offlineRegs, State.get_set_ne, State.get_set_same]
    rfl
  · simp (disch := decide) only [offlineRegs, State.get_set_ne, State.get_set_same]
    rfl
  · simp (disch := decide) only [offlineRegs, State.get_set_ne, State.get_set_same]
    rfl
  · simp (disch := decide) only [offlineRegs, State.get_set_same]
    rfl
  · rw [State.bankPart, State.bankPart, howner]

/-- A bank goes offline: its registers show it, and what it was about to do ends. -/
def goingOffline (b : ℕ) (s : State) : State :=
  { offlineRegs b (s.setDefer b []) with
    bank := { (s.setDefer b []).bank with
      move := mdel s.bank.move b
      answering := s.bank.answering.filter fun e => e.1 / 4096 ≠ b } }

/-- The ledger is to be examined again, and the bank's partition has lost it. -/
def bankLost (b : ℕ) (s : State) : State :=
  { s with ap := { s.ap with reexamine := true, lost := s.ap.lost ++ ((s.bankPart b).map fun p => (p, 3)).toList } }

/-- A quiet bank without deferred READs after TAKE_OFFLINE. -/
def offline (b : ℕ) (s : State) : State :=
  bankLost b { goingOffline b s with bank := { (goingOffline b s).bank with queue := mlist s.bank.queue b [] } }

theorem takeOffline_idle {b : ℕ} {s : State} (hoff : s.flag F.bankPwr_OFFLINE b = false) (hdefer : s.deferOf b = []) :
    takeOffline b s = bankLost b (failQueue b (goingOffline b s)) := by
  rw [takeOffline, if_neg (by simp [hoff]), hdefer]
  rfl

theorem takeOffline_quiet {b : ℕ} {s : State} (hoff : s.flag F.bankPwr_OFFLINE b = false) (hdefer : s.deferOf b = []) (hquiet : BankQuiet b s) :
    takeOffline b s = offline b s := by
  have hquiet' : BankQuiet b (goingOffline b s) := hquiet
  rw [takeOffline_idle hoff hdefer, failQueue_quiet hquiet']
  rfl

theorem takeOffline_completes {b : Fin 2048} {s : State} (hf : s.fatal = false) (hoff : s.flag F.bankPwr_OFFLINE b = false)
    (hdefer : s.deferOf b = []) (hquiet : BankQuiet b s) :
    Completes (.takeOffline 8 b) s fun t => t.get F.bankPwr_OFFLINE b = 1 ∧ t.get F.bankPwr_STATE b = 2 ∧ t.get F.bankPwr_CURRENT b = 2 ∧
      t.get F.bankPwr_BUSY b = 0 ∧ t.ap.reexamine = true ∧
      (s.bankPart b = none ∨ ∃ p : Fin 8, s.bankPart b = some p.val ∧ t.ap.lost = s.ap.lost ++ [(p.val, 3)]) ∧
      t = { s with regs := t.regs, bank := t.bank, ap := t.ap } ∧
      RegsBut [F.bankPwr_OFFLINE, F.bankPwr_STATE, F.bankPwr_CURRENT, F.bankPwr_BUSY] s t := by
  have hexec : exec (.takeOffline 8 b) s = .next (offline b s) := by
    rw [← takeOffline_quiet hoff hdefer hquiet, ← unlessFatal_live hf (takeOffline b)]
    rfl
  obtain ⟨hoffline, hstate, hcurrent, hbusy, hpart, hregs⟩ := offlineRegs_leaves b s
  refine completes_next hexec ⟨hoffline, hstate, hcurrent, hbusy, rfl, ?_, rfl, hregs⟩
  by_cases howner : s.get F.bankOwn_OWNER b < 8
  · have hsome : s.bankPart b = some (s.get F.bankOwn_OWNER b) := if_pos howner
    refine .inr ⟨⟨_, howner⟩, hsome, ?_⟩
    have hlost : (offline b s).ap.lost = s.ap.lost ++ (((offlineRegs b s).bankPart b).map fun p => (p, 3)).toList := rfl
    rw [hlost, hpart, hsome]
    rfl
  · exact .inl (if_neg howner)

/-! ### The debug window's copy of an entry (R30, R103) -/

theorem exec_matchDebugRead {s : State} (hf : s.fatal = false) (init : Fin 16) (c : Fin 128) (r : WayRead) :
    exec (.matchDebugRead init c r) s = .next (holdEntry init c r.entry r.err s) := by
  rw [← unlessFatal_live hf (holdEntry init c r.entry r.err)]
  rfl

/-- A part of an entry's slot (R103). -/
def entryPart (part : ℕ) (k : Token) : ℕ :=
  if part = 0 then k.data.toNat else if part = 1 then k.due.toNat else if part = 2 then k.tag.toNat else 1 + b2n k.poison * 2

/-- What the reader's copy shows, of the entry as the check leaves it. -/
theorem windowPart_holdEntry (init c e natural part : ℕ) (s : State) :
    windowPart (holdEntry init c e natural s) init c e part = (((checkWay c e natural s).way c e).map (entryPart part)).getD 0 := by
  simp only [windowPart, holdEntry, mfind_mput_same]
  cases (checkWay c e natural s).way c e with
  | none => simp
  | some k =>
    match part with
    | 0 | 1 | 2 | n + 3 => simp [entryPart]

section
variable {s : State} (harm : s.flag F.injCtl_ARM 0 = false)
include harm

theorem checkWay_good (c e : ℕ) : checkWay c e 0 s = s := by
  unfold checkWay
  split
  · rfl
  · rw [secded_unarmed harm]
    rfl

theorem matchDebugRead_good (hf : s.fatal = false) (init : Fin 16) (c : Fin 128) (e : Fin 8192) :
    Completes (.matchDebugRead init c ⟨e, 0⟩) s fun t => (mfind t.cl.holding (c.val * 16 + init.val)).isSome = true ∧
      windowPart t init c e 0 = ((s.way c e).map fun k => k.data.toNat).getD 0 ∧
      windowPart t init c e 1 = ((s.way c e).map fun k => k.due.toNat).getD 0 ∧
      windowPart t init c e 2 = ((s.way c e).map fun k => k.tag.toNat).getD 0 ∧
      windowPart t init c e 3 = ((s.way c e).map fun k => 1 + b2n k.poison * 2).getD 0 ∧
      t = { s with cl := { s.cl with holding := t.cl.holding } } := by
  have hcheck : checkWay c e ((0 : Fin 3) : ℕ) s = s := checkWay_good harm c e
  have hpart (part : ℕ) := windowPart_holdEntry init c e ((0 : Fin 3) : ℕ) part s
  rw [hcheck] at hpart
  exact completes_next (exec_matchDebugRead hf init c _)
    ⟨by simp [holdEntry], hpart 0, hpart 1, hpart 2, hpart 3, by rw [holdEntry, hcheck]⟩

/-- An uncorrectable entry leaves its way (R117). -/
def wayDiscarded (c e : ℕ) (k : Token) (s : State) : State :=
  report 7 (loc 2 c) e (some (s.cOwner c)) false (countCons (s.cOwner c) (tagEpoch k.tag) 1 (s.setWay c e none))

omit harm in
theorem wayDiscarded_leaves (c e : ℕ) (k : Token) (s : State) : (wayDiscarded c e k s).way c e = none ∧ (wayDiscarded c e k s).mem = s.mem ∧
    (wayDiscarded c e k s).pending = s.pending ∧ (wayDiscarded c e k s).t = s.t := by
  rw [wayDiscarded, report_frame]
  exact ⟨(mfind_mdel s.cl.ways _ _).trans (if_pos rfl), rfl, rfl, rfl⟩

/-- The error log of the cluster takes the entry, whose bits cannot be read. -/
def errorLogged (c e : ℕ) (k : Token) (s : State) : State :=
  let (data, s) := asRead false k.data.toNat 48 s
  let (due, s) := asRead false k.due.toNat 48 s
  let (tag, s) := asRead false k.tag.toNat 48 s
  let (poison, s) := asRead false (b2n k.poison) 1 s
  let s := (s.set F.msErrData_DATA c data).set F.msErrDue_DUE c due
  let s := (s.set F.msErrTag_TAG c tag).set F.msErrInfo_POISON c poison
  let s := s.set F.msErrInfo_ENTRY c e
  let s := s.set F.msErrInfo_T c s.t.toNat
  s.set F.msErrInfo_VALID c 1

omit harm in
theorem errorLogged_frame (c e : ℕ) (k : Token) (s : State) :
    errorLogged c e k s = { s with regs := (errorLogged c e k s).regs, free := (errorLogged c e k s).free } := rfl

omit harm in
theorem errorLogged_valid (c e : ℕ) (k : Token) (s : State) : (errorLogged c e k s).get F.msErrInfo_VALID c = 1 :=
  State.get_set_same _ F.msErrInfo_VALID c 1

theorem checkWay_uncorrectable {c e : ℕ} {k : Token} (hway : s.way c e = some k) :
    checkWay c e 2 s =
      if (wayDiscarded c e k s).flag F.msErrInfo_VALID c then wayDiscarded c e k s else errorLogged c e k (wayDiscarded c e k s) := by
  simp only [checkWay, hway, secded_unarmed harm]
  rfl

theorem checkWay_uncorrectable_leaves {c e : ℕ} {k : Token} (hway : s.way c e = some k) : (checkWay c e 2 s).way c e = none ∧
    (checkWay c e 2 s).get F.msErrInfo_VALID c ≠ 0 ∧ (checkWay c e 2 s).mem = s.mem ∧ (checkWay c e 2 s).pending = s.pending ∧
    (checkWay c e 2 s).t = s.t := by
  obtain ⟨hgone, hmem, hpending, ht⟩ := wayDiscarded_leaves c e k s
  rw [checkWay_uncorrectable harm hway]
  generalize wayDiscarded c e k s = u at *
  split
  · rename_i hvalid
    exact ⟨hgone, by simpa [State.flag] using hvalid, hmem, hpending, ht⟩
  · have hvalid : (errorLogged c e k u).get F.msErrInfo_VALID c ≠ 0 := by rw [errorLogged_valid]; decide
    rw [errorLogged_frame] at hvalid ⊢
    exact ⟨hgone, hvalid, hmem, hpending, ht⟩

theorem matchDebugRead_uncorrectable (hf : s.fatal = false) (init : Fin 16) (c : Fin 128) (e : Fin 8192) (hway : (s.way c e).isSome = true) :
    Completes (.matchDebugRead init c ⟨e, 2⟩) s fun t => windowPart t init c e 3 = 0 ∧ s.way c e ≠ none ∧ t.way c e = none ∧
      t.get F.msErrInfo_VALID c ≠ 0 ∧ t.mem = s.mem ∧ t.pending = s.pending ∧ t.t = s.t := by
  obtain ⟨k, hk⟩ := Option.isSome_iff_exists.1 hway
  have hexec : exec (.matchDebugRead init c ⟨e, 2⟩) s = .next (holdEntry init c e 2 s) := exec_matchDebugRead hf init c ⟨e, 2⟩
  have hpart := windowPart_holdEntry init c e 2 3 s
  obtain ⟨hgone, hvalid, hmem, hpending, ht⟩ := checkWay_uncorrectable_leaves harm hk
  rw [hgone] at hpart
  rw [holdEntry] at hexec hpart
  generalize checkWay c e 2 s = u at *
  exact completes_next hexec ⟨hpart, by simp [hk], hgone, hvalid, hmem, hpending, ht⟩
end

/-! ### The statement -/

/-- Settles O30, clause by clause. -/
theorem bankUpkeepAndOwnership : Obligations.BankUpkeepAndOwnership := by
  unfold Obligations.BankUpkeepAndOwnership
  refine ⟨?answerHere, ?scrubGood, ?scrubCorrected, ?scrubUncorrectable, ?writeback, ?ownTaken, ?ownRefused, ?handoverWaits, ?scrubOff,
    ?powerKept, ?powerState, ?moveRedirected, ?answerAway, ?debugUncorrectable, ?handover, ?powerMove, ?moveEnds, ?offline, ?offlineOther,
    ?debugGood⟩
  case answerHere => exact fun b k v d rest s hon hfind hfirst hpkg hcl => deferredReadAnswer_here hon hfind hfirst hpkg hcl
  case scrubGood => exact fun b s hon hen hb harm hmark => exec_scrub_good hon hen hb harm hmark
  case scrubCorrected =>
    exact fun b s hon hen hb harm hmark => completes_next (exec_scrub_corrected hon hen hb harm hmark) (scrubbed_corrected _ _ s)
  case scrubUncorrectable =>
    exact fun b s hon hen hb harm hmark => completes_next (exec_scrub_uncorrectable hon hen hb harm hmark) (scrubbed_uncorrectable _ _ s)
  case writeback => exact fun b k n s hon hfind => correctedWriteback_found hon hfind
  case ownTaken =>
    exact fun init b owner clr s hf hinit howner hparts hpending hoff => exec_bankOwn_taken hf ⟨hinit, howner, hparts, hpending, hoff⟩ clr
  case ownRefused => exact fun init b owner clr s h => exec_bankOwn_refused h clr
  case handoverWaits => exact fun b s h => exec_handoverComplete_waits h
  case scrubOff => exact fun b err s h => exec_scrub_off err h
  case powerKept => exact fun b st s h => exec_bankPwr_kept h
  case powerState => exact fun b st s hf hst hoff hcur hmove hrun => exec_bankPwr_state hf hst hoff hcur hmove hrun
  case moveRedirected => exact fun b x s hf hx hne hlt hstate => powerMoveComplete_redirected hf hx hlt hne hstate
  case answerAway => exact fun b k v d rest s hon hfind hfirst haway hrest => deferredReadAnswer_away hon hfind hfirst haway hrest
  case debugUncorrectable => exact fun init c e s hf harm hway => matchDebugRead_uncorrectable harm hf init c e hway
  case handover => exact fun b x s hf hx hq => handoverComplete_completes hf hx hq
  case powerMove =>
    exact fun b st s hf hst hoff howner hdefer hspill hbusy hcur hq hflits =>
      exec_bankPwr_move hf hst hoff howner hdefer hspill hbusy hcur ⟨hq, hflits⟩
  case moveEnds => exact fun b x s hf hx hstate hlt => powerMoveComplete_ends hf hx hlt hstate
  case offline => exact fun b s hf hoff hdefer hq hflits => takeOffline_completes hf hoff hdefer ⟨hq, hflits⟩
  case offlineOther => exact fun init b s h => exec_takeOffline_other h b s
  case debugGood => exact fun init c e s hf harm => matchDebugRead_good harm hf init c e

end Sys2Proof.Machine
end

section
/-!
SUPPORT. Power and heat (chapter 18): rails, the power estimate, the clock ramp, VF_SET, conversions, throttle and shedding (O44).
-/
set_option Elab.async false
namespace Sys2Proof.Machine
open Sys2Proof

/-! ### Rails (R454) -/

theorem report_entered {kind l : ℕ} {s : State} (hwire : s.flt.wire.contains (pairKey kind l) = false)
    (hheld : mfind s.flt.pairHeld (pairKey kind l) = none) (detail : ℕ) (part : Option ℕ) (inj : Bool) :
    report kind l detail part inj s = { s with flt := { s.flt with queue := s.flt.queue ++ [⟨kind, l, detail % 65536, part, s.t, inj⟩] } } := by
  rw [report, hwire, hheld, if_neg (by simp)]

/-- A fault that is not held yet begins: its level and its event. -/
theorem holdFault_new {kind l : ℕ} {s : State} (hlive : s.flt.live.contains (pairKey kind l) = false)
    (hwire : s.flt.wire.contains (pairKey kind l) = false) (hheld : mfind s.flt.pairHeld (pairKey kind l) = none) (detail : ℕ) :
    holdFault kind l detail s = { s with flt := { s.flt with
      live := s.flt.live ++ [pairKey kind l], queue := s.flt.queue ++ [⟨kind, l, detail % 65536, none, s.t, false⟩] } } := by
  rw [holdFault, if_neg (by rw [hlive]; exact Bool.false_ne_true)]
  exact report_entered (s := { s with flt := { s.flt with live := s.flt.live ++ [pairKey kind l] } }) hwire hheld detail none false

theorem exec_railFault_due {m : Fin 8} {x : ℕ} {s : State} (hout : mfind s.pwr.outside m = some x) (hdue : x + 500 ≤ s.ticks)
    (hon : collectorOn s = true) (hlive : s.flt.live.contains (pairKey 34 (loc 10 (64 + m.val))) = false)
    (hwire : s.flt.wire.contains (pairKey 34 (loc 10 (64 + m.val))) = false)
    (hheld : mfind s.flt.pairHeld (pairKey 34 (loc 10 (64 + m.val))) = none) :
    exec (.railFault m) s = .next ({ s with flt := { s.flt with
      live := s.flt.live ++ [pairKey 34 (loc 10 (64 + m.val))]
      queue := s.flt.queue ++ [⟨34, loc 10 (64 + m.val), 0, none, s.t, false⟩] } }) := by
  have hrail : railFault m s = holdFault 34 (loc 10 (64 + m.val)) 0 s := by
    simp only [railFault, hout]
    exact if_pos ⟨hdue, hon⟩
  exact congrArg _ (hrail.trans (holdFault_new hlive hwire hheld 0))

theorem exec_railFault_inside {m : Fin 8} {s : State} (hout : mfind s.pwr.outside m = none) : exec (.railFault m) s = .next s := by
  have hrail : railFault m s = s := by simp only [railFault, hout]
  exact congrArg _ hrail

/-! ### Release of the throttle (R462) -/

theorem exec_throttleRelease_due {f : Fin 8} {x : ℕ} {s : State} (hf : s.fatal = false) (hcool : mfind s.pwr.cool f = some x)
    (hthrot : s.flag F.thermStat_THROT f = true) (hdue : x + 250000 ≤ s.ticks) :
    exec (.throttleRelease f) s = .next ((s.set F.thermStat_THROT f 0).set F.fclkCtl_THROTTLED f 0) := by
  have hrel : throttleRelease f s = (s.set F.thermStat_THROT f 0).set F.fclkCtl_THROTTLED f 0 := by
    simp only [throttleRelease, hcool]
    exact if_pos ⟨hthrot, hdue⟩
  rw [← hrel, ← unlessFatal_live hf (throttleRelease f)]
  rfl

theorem exec_throttleRelease_early {f : Fin 8} {x : ℕ} {s : State} (hcool : mfind s.pwr.cool f = some x) (hearly : s.ticks < x + 250000) :
    exec (.throttleRelease f) s = .next s := by
  refine congrArg _ (unlessFatal_eq_self ?_)
  simp only [throttleRelease, hcool]
  exact if_neg fun h => absurd h.2 (by omega)

/-! ### The power estimate (R459) -/

/-- The microseconds of the last million that drew more than 240 W, with the present estimate of `watts`. -/
def peaksNow (watts : ℕ) (s : State) : List ℕ :=
  (s.pwr.peaks.filter fun x => s.pwr.estimates + 1 < x + 1000000) ++ if 240 < watts then [s.pwr.estimates + 1] else []

/-- What an estimate shows, before it caps or releases. -/
def estimated (watts : ℕ) (s : State) : State :=
  (({ s with pwr := { s.pwr with estimates := s.pwr.estimates + 1, peaks := peaksNow watts s } }).set F.pwrStat_PKG_W 0 watts).set
    F.pwrStat_PEAK_US 0 (peaksNow watts s).length

theorem powerEstimate_eq (watts : ℕ) (s : State) : powerEstimate watts s =
    if s.flag F.pwrStat_CAPPED 0 then
      (if 2 * (peaksNow watts s).length < s.get F.pwrCtl_PK_LIM 0 then (estimated watts s).set F.pwrStat_CAPPED 0 0 else estimated watts s)
    else if s.get F.pwrCtl_PK_LIM 0 ≤ (peaksNow watts s).length then
      ((estimated watts s).set F.pwrStat_CAPPED 0 1).set F.pwrStat_CAP_EVT 0 1
    else estimated watts s := by
  have hcapped : (estimated watts s).flag F.pwrStat_CAPPED 0 = s.flag F.pwrStat_CAPPED 0 :=
    (State.flag_set_ne _ _ _ _ _ _ (by decide)).trans (State.flag_set_ne _ _ _ _ _ _ (by decide))
  have hlim : (estimated watts s).get F.pwrCtl_PK_LIM 0 = s.get F.pwrCtl_PK_LIM 0 :=
    (State.get_set_ne _ _ _ _ _ _ (by decide)).trans (State.get_set_ne _ _ _ _ _ _ (by decide))
  rw [← hcapped, ← hlim]
  rfl

theorem exec_powerEstimate {s : State} (hf : s.fatal = false) (w : BitVec 12) :
    exec (.powerEstimate w) s = .next (powerEstimate w.toNat s) := by
  rw [← unlessFatal_live hf (powerEstimate w.toNat)]
  rfl

theorem estimated_regsBut (watts : ℕ) (s : State) : RegsBut [F.pwrStat_PKG_W, F.pwrStat_PEAK_US] s (estimated watts s) :=
  (RegsBut.refl _ s).set.set

theorem RegsBut.mono {l l' : List Fld} {s t : State} (h : RegsBut l s t) (hl : ∀ f ∈ l, f ∈ l' := by simp) : RegsBut l' s t :=
  fun f i hf => h f i fun g hg => hf g (hl g hg)

theorem powerEstimate_shown {w : BitVec 12} {s : State} (hf : s.fatal = false) (hw : w.toNat ≤ 240) (hcap : s.flag F.pwrStat_CAPPED 0 = false)
    (hpeaks : s.pwr.peaks = []) (hlim : s.get F.pwrCtl_PK_LIM 0 ≠ 0) :
    Completes (.powerEstimate w) s fun t => t.get F.pwrStat_PKG_W 0 = w.toNat % 2 ^ F.pwrStat_PKG_W.w ∧ t.get F.pwrStat_PEAK_US 0 = 0 ∧
      t.pwr = { s.pwr with estimates := s.pwr.estimates + 1 } ∧ t = { s with regs := t.regs, pwr := t.pwr } ∧
      RegsBut [F.pwrStat_PKG_W, F.pwrStat_PEAK_US] s t := by
  have hnone : peaksNow w.toNat s = [] := by
    rw [peaksNow, hpeaks, if_neg (by omega)]
    rfl
  have hexec : exec (.powerEstimate w) s = .next (estimated w.toNat s) := by
    rw [exec_powerEstimate hf, powerEstimate_eq, hcap, if_neg Bool.false_ne_true, hnone, if_neg (by simpa using hlim)]
  refine completes_next hexec ⟨?_, ?_, ?_, rfl, estimated_regsBut _ s⟩
  · exact (State.get_set_ne _ F.pwrStat_PEAK_US F.pwrStat_PKG_W _ _ _ (by decide)).trans (State.get_set_same _ F.pwrStat_PKG_W 0 _)
  · rw [estimated, State.get_set_same, hnone]
    rfl
  · change { s.pwr with estimates := s.pwr.estimates + 1, peaks := peaksNow w.toNat s } = _
    rw [hnone.trans hpeaks.symm]

theorem powerEstimate_caps {w : BitVec 12} {s : State} (hf : s.fatal = false) (hw : 240 < w.toNat) (hcap : s.flag F.pwrStat_CAPPED 0 = false)
    (hlim : s.get F.pwrCtl_PK_LIM 0 ≤ (s.pwr.peaks.filter fun x => s.pwr.estimates + 1 < x + 1000000).length + 1) :
    Completes (.powerEstimate w) s fun t => t.get F.pwrStat_CAPPED 0 = 1 ∧ t.get F.pwrStat_CAP_EVT 0 = 1 ∧
      t = { s with regs := t.regs, pwr := t.pwr } ∧
      RegsBut [F.pwrStat_PKG_W, F.pwrStat_PEAK_US, F.pwrStat_CAPPED, F.pwrStat_CAP_EVT] s t := by
  have hlen : (peaksNow w.toNat s).length = (s.pwr.peaks.filter fun x => s.pwr.estimates + 1 < x + 1000000).length + 1 := by
    rw [peaksNow, if_pos hw, List.length_append, List.length_singleton]
  have hexec : exec (.powerEstimate w) s = .next (((estimated w.toNat s).set F.pwrStat_CAPPED 0 1).set F.pwrStat_CAP_EVT 0 1) := by
    rw [exec_powerEstimate hf, powerEstimate_eq, hcap, if_neg Bool.false_ne_true, if_pos (hlim.trans_eq hlen.symm)]
  refine completes_next hexec ⟨?_, State.get_set_same _ F.pwrStat_CAP_EVT 0 1, rfl, (estimated_regsBut _ s).mono.set.set⟩
  exact (State.get_set_ne _ F.pwrStat_CAP_EVT F.pwrStat_CAPPED _ _ _ (by decide)).trans (State.get_set_same _ F.pwrStat_CAPPED 0 1)

theorem powerEstimate_releases {w : BitVec 12} {s : State} (hf : s.fatal = false) (hw : w.toNat ≤ 240) (hcap : s.flag F.pwrStat_CAPPED 0 = true)
    (hlim : 2 * (s.pwr.peaks.filter fun x => s.pwr.estimates + 1 < x + 1000000).length < s.get F.pwrCtl_PK_LIM 0) :
    Completes (.powerEstimate w) s fun t => t.get F.pwrStat_CAPPED 0 = 0 ∧ t.get F.pwrStat_CAP_EVT 0 = s.get F.pwrStat_CAP_EVT 0 ∧
      t = { s with regs := t.regs, pwr := t.pwr } ∧ RegsBut [F.pwrStat_PKG_W, F.pwrStat_PEAK_US, F.pwrStat_CAPPED] s t := by
  have hlen : (peaksNow w.toNat s).length = (s.pwr.peaks.filter fun x => s.pwr.estimates + 1 < x + 1000000).length := by
    rw [peaksNow, if_neg (by omega), List.append_nil]
  have hexec : exec (.powerEstimate w) s = .next ((estimated w.toNat s).set F.pwrStat_CAPPED 0 0) := by
    rw [exec_powerEstimate hf, powerEstimate_eq, if_pos hcap, if_pos (by rwa [hlen])]
  have hregs : RegsBut [F.pwrStat_PKG_W, F.pwrStat_PEAK_US, F.pwrStat_CAPPED] s ((estimated w.toNat s).set F.pwrStat_CAPPED 0 0) :=
    (estimated_regsBut _ s).mono.set
  exact completes_next hexec ⟨State.get_set_same _ F.pwrStat_CAPPED 0 0, hregs F.pwrStat_CAP_EVT 0 (by decide), rfl, hregs⟩

/-! ### The clock ramp (R23) -/

theorem applyVf_frame (s : State) : applyVf s = { s with mc := { s.mc with pmb := (applyVf s).mc.pmb } } := by
  unfold applyVf
  split <;> rfl

theorem applyVf_regs (s : State) : (applyVf s).regs = s.regs := by rw [applyVf_frame]

theorem applyVf_pwr (s : State) : (applyVf s).pwr = s.pwr := by rw [applyVf_frame]

/-- A step of the ramp to the frequency `next`. -/
def rampStepped (f next : ℕ) (s : State) : State :=
  applyVf ((setRamp f (if next = rampGoal s f then none else some (s.ticks + 64)) s).set F.fclkCtl_CURRENT f next)

theorem clockRampStep_due {f d : ℕ} {s : State} (hrun : s.flag F.fclkCtl_STOPPED f = false) (hramp : mfind s.pwr.ramp f = some d)
    (hdue : d ≤ s.ticks) (hne : s.get F.fclkCtl_CURRENT f ≠ rampGoal s f) :
    clockRampStep f s =
      rampStepped f (if s.get F.fclkCtl_CURRENT f < rampGoal s f then s.get F.fclkCtl_CURRENT f + 1 else s.get F.fclkCtl_CURRENT f - 1) s := by
  simp only [clockRampStep, hramp]
  rw [if_neg (by simp [hrun, hne, hdue])]
  rfl

theorem clockRampStep_waits {f : ℕ} {s : State} (h : s.flag F.fclkCtl_STOPPED f = true ∨ s.get F.fclkCtl_CURRENT f = rampGoal s f ∨
    ∃ d, mfind s.pwr.ramp f = some d ∧ s.ticks < d) : clockRampStep f s = s := by
  rw [clockRampStep]
  dsimp only
  split
  · rfl
  · rename_i d hd
    rw [if_pos]
    simp only [Bool.or_eq_true, decide_eq_true_eq]
    rcases h with h | h | ⟨x, hx, h⟩
    · exact .inl (.inl h)
    · exact .inr h
    · rw [hx, Option.some_inj] at hd
      exact .inl (.inr (hd ▸ h))

theorem exec_clockRampStep_waits {f : Fin 8} {s : State} (h : s.flag F.fclkCtl_STOPPED f = true ∨
    s.get F.fclkCtl_CURRENT f = rampGoal s f ∨ ∃ d, mfind s.pwr.ramp f = some d ∧ s.ticks < d) : exec (.clockRampStep f) s = .next s :=
  congrArg _ (unlessFatal_eq_self (clockRampStep_waits h))

theorem setRamp_ramp (f : ℕ) (o : Option ℕ) (s : State) : mfind (setRamp f o s).pwr.ramp f = o := by
  cases o with
  | none => exact (mfind_mdel s.pwr.ramp f f).trans (if_pos rfl)
  | some d => exact mfind_mput_same s.pwr.ramp f d

theorem rampStepped_leaves (f next : ℕ) (s : State) :
    (rampStepped f next s).get F.fclkCtl_CURRENT f = next % 2 ^ F.fclkCtl_CURRENT.w ∧
      mfind (rampStepped f next s).pwr.ramp f = (if next = rampGoal s f then none else some (s.ticks + 64)) ∧
      rampStepped f next s = { s with regs := (rampStepped f next s).regs, pwr := (rampStepped f next s).pwr, mc := (rampStepped f next s).mc } ∧
      RegsBut [F.fclkCtl_CURRENT] s (rampStepped f next s) ∧ InstBut F.fclkCtl_CURRENT f s (rampStepped f next s) := by
  have hget (g : Fld) (i : ℕ) := State.get_congr (rampStepped f next s) _ g i (applyVf_regs _)
  refine ⟨?_, ?_, ?_, fun g i hg => ?_, fun i hi => ?_⟩
  · rw [hget, State.get_set_same]
  · rw [rampStepped, applyVf_pwr]
    exact setRamp_ramp f _ s
  · rw [rampStepped, applyVf_frame]
    rfl
  · exact (hget g i).trans (((RegsBut.refl _ s).set (f := F.fclkCtl_CURRENT)) g i hg)
  · exact (hget _ i).trans (InstBut.set s i hi)

section
variable {f : Fin 8} {d : ℕ} {s : State} (hf : s.fatal = false) (hrun : s.flag F.fclkCtl_STOPPED f = false)
  (hramp : mfind s.pwr.ramp f = some d) (hdue : d ≤ s.ticks)
include hf hrun hramp hdue

theorem exec_clockRampStep_due (hne : s.get F.fclkCtl_CURRENT f ≠ rampGoal s f) : exec (.clockRampStep f) s =
    .next (rampStepped f (if s.get F.fclkCtl_CURRENT f < rampGoal s f then s.get F.fclkCtl_CURRENT f + 1 else s.get F.fclkCtl_CURRENT f - 1) s) := by
  rw [← clockRampStep_due hrun hramp hdue hne, ← unlessFatal_live hf (clockRampStep f)]
  rfl

theorem clockRampStep_up (hlt : s.get F.fclkCtl_CURRENT f < rampGoal s f) :
    Completes (.clockRampStep f) s fun t => t.get F.fclkCtl_CURRENT f = (s.get F.fclkCtl_CURRENT f + 1) % 2 ^ F.fclkCtl_CURRENT.w ∧
      mfind t.pwr.ramp f = (if s.get F.fclkCtl_CURRENT f + 1 = rampGoal s f then none else some (s.ticks + 64)) ∧
      t = { s with regs := t.regs, pwr := t.pwr, mc := t.mc } ∧ RegsBut [F.fclkCtl_CURRENT] s t ∧ InstBut F.fclkCtl_CURRENT f s t := by
  have hexec := exec_clockRampStep_due hf hrun hramp hdue hlt.ne
  rw [if_pos hlt] at hexec
  exact completes_next hexec (rampStepped_leaves f _ s)

theorem clockRampStep_down (hlt : rampGoal s f < s.get F.fclkCtl_CURRENT f) :
    Completes (.clockRampStep f) s fun t => t.get F.fclkCtl_CURRENT f = (s.get F.fclkCtl_CURRENT f - 1) % 2 ^ F.fclkCtl_CURRENT.w ∧
      mfind t.pwr.ramp f = (if s.get F.fclkCtl_CURRENT f - 1 = rampGoal s f then none else some (s.ticks + 64)) ∧
      t = { s with regs := t.regs, pwr := t.pwr, mc := t.mc } ∧ RegsBut [F.fclkCtl_CURRENT] s t ∧ InstBut F.fclkCtl_CURRENT f s t := by
  have hexec := exec_clockRampStep_due hf hrun hramp hdue hlt.ne'
  rw [if_neg hlt.not_gt] at hexec
  exact completes_next hexec (rampStepped_leaves f _ s)
end

/-! ### A write of VF_SET (R457, R470) -/

/-- The register PWR_CTL. -/
def pwrCtlDef : RegDef := ⟨.pwrCtl, 0x0, 1, 0, 1, 0, [F.pwrCtl_LOCK, F.pwrCtl_VF_SET, F.pwrCtl_PK_LIM]⟩

theorem regOf_pwrCtl : regOf .pwr .pwrCtl = some pwrCtlDef := by decide +kernel

/-- The five bits above the lowest. -/
theorem and_62 (x : ℕ) : x &&& 62 = 2 * (x / 2 % 32) := by
  have hbits : (x &&& 62) / 2 = x / 2 % 32 := by
    rw [Nat.and_div_two]
    exact Nat.and_two_pow_sub_one_eq_mod (x / 2) 5
  have heven : (x &&& 62) % 2 = 0 := by
    have := Nat.and_mod_two_pow (a := x) (b := 62) (n := 1)
    simpa using this
  omega

/-- VF_SET of a value in which it replaces the bits that stood there. -/
theorem bits_vfSet (cur v : ℕ) (hv : v < 32) : bits ((cur - (cur &&& 62)) ||| (v * 2 &&& 62)) 1 5 = v := by
  have hold : (cur - (cur &&& 62)) / 2 ^ 1 % 2 ^ 5 = 0 := by
    rw [and_62]
    omega
  have hnew : (v * 2 &&& 62) / 2 ^ 1 % 2 ^ 5 = v := by
    rw [and_62]
    omega
  rw [bits, Nat.or_div_two_pow, Nat.or_mod_two_pow, hold, hnew, Nat.zero_or]

theorem pwrCtl_hubRights (init : ℕ) (priv : Bool) (w : Wr) (s : State) : hubRights init priv .pwr .pwrCtl w s = true := rfl

/-- The writers of PWR_CTL. -/
def pwrCtlWriter (who : From) : Prop := fromHost who.1 = true ∨ fromCore who.1 = true ∨ fromMc who.1 = true

theorem regWrite_pwrCtl {who : From} (hwho : pwrCtlWriter who) (w : Wr) (s : State) :
    (regWrite who.1 who.2 true .pwr pwrCtlDef w s).2 =
      pwrCtlWrite w.full (w.touches F.pwrCtl_LOCK || w.touches F.pwrCtl_VF_SET || w.touches F.pwrCtl_PK_LIM) s := by
  have hok : (fromHost who.1 || fromCore who.1 || fromMc who.1) = true := by
    simpa [pwrCtlWriter, or_assoc] using hwho
  have hreg : regWrite who.1 who.2 true .pwr pwrCtlDef w s = permit (fromHost who.1 || fromCore who.1 || fromMc who.1)
      (pwrCtlWrite w.full (w.touches F.pwrCtl_LOCK || w.touches F.pwrCtl_VF_SET || w.touches F.pwrCtl_PK_LIM)) s := rfl
  rw [hreg, hok]
  rfl

theorem RegsBut.trans {l : List Fld} {s t u : State} (h : RegsBut l s t) (h' : RegsBut l t u) : RegsBut l s u := fun g i hg =>
  (h' g i hg).trans (h g i hg)

theorem OnlyRegs.refl (l : List Fld) (s : State) : OnlyRegs l s s := ⟨rfl, RegsBut.refl l s⟩

theorem OnlyRegs.set {l : List Fld} {s t : State} {f : Fld} {i v : ℕ} (h : OnlyRegs l s t) (hf : f ∈ l := by simp) :
    OnlyRegs l s (t.set f i v) := by
  refine ⟨?_, h.2.set hf⟩
  rw [h.1]
  rfl

theorem OnlyRegs.ite {l : List Fld} {c : Prop} [Decidable c] {s t u : State} (ht : OnlyRegs l s t) (hu : OnlyRegs l s u) :
    OnlyRegs l s (if c then t else u) := by
  split <;> assumption

/-- What a write of PWR_CTL does after VF_SET is in its place: the limit, the lock and the cap. -/
def pwrCtlRest (v : ℕ) (s : State) : State :=
  let s := if s.flag F.pwrCtl_LOCK 0 || bits v 8 20 < 1000 || 19990 < bits v 8 20 then s else s.set F.pwrCtl_PK_LIM 0 (bits v 8 20)
  setCap (if bits v 0 1 = 1 then s.set F.pwrCtl_LOCK 0 1 else s)

theorem pwrCtlRest_onlyRegs (v : ℕ) (s : State) : OnlyRegs [F.pwrCtl_PK_LIM, F.pwrCtl_LOCK, F.pwrStat_VF_CAP] s (pwrCtlRest v s) := by
  have hlim (t : State) (ht : OnlyRegs [F.pwrCtl_PK_LIM, F.pwrCtl_LOCK, F.pwrStat_VF_CAP] s t) :
      OnlyRegs [F.pwrCtl_PK_LIM, F.pwrCtl_LOCK, F.pwrStat_VF_CAP] s (setCap (if bits v 0 1 = 1 then t.set F.pwrCtl_LOCK 0 1 else t)) :=
    (OnlyRegs.ite ht.set ht).set
  exact hlim _ (.ite (.refl _ s) (OnlyRegs.refl _ s).set)

theorem pwrCtlWrite_vfSet {v : ℕ} {s : State} (hlock : s.flag F.pwrCtl_LOCK 0 = false) (hne : bits v 1 5 ≠ 31) (hge : 10 ≤ bits v 1 5) :
    pwrCtlWrite v true s = applyVf (pwrCtlRest v (s.set F.pwrCtl_VF_SET 0 (bits v 1 5))) := by
  have hlock' : (s.set F.pwrCtl_VF_SET 0 (bits v 1 5)).flag F.pwrCtl_LOCK 0 = s.flag F.pwrCtl_LOCK 0 := State.flag_set_ne _ _ _ _ _ _ (by decide)
  have htaken : ¬(s.flag F.pwrCtl_LOCK 0 || decide (bits v 1 5 = 31) || (decide (bits v 1 5 < 10) && anyFabric s)) = true := by
    simp [hlock, hne, Nat.not_lt.2 hge]
  rw [pwrCtlRest, hlock', pwrCtlWrite]
  dsimp only
  rw [if_neg (by simp), if_neg htaken]

/-- The written code is in VF_SET, and only the regulators of rail 0 follow. -/
theorem pwrCtlWrite_vfSet_leaves {v : ℕ} {s : State} (hlock : s.flag F.pwrCtl_LOCK 0 = false) (hne : bits v 1 5 ≠ 31) (hge : 10 ≤ bits v 1 5) :
    (pwrCtlWrite v true s).get F.pwrCtl_VF_SET 0 = bits v 1 5 ∧
      pwrCtlWrite v true s = { s with regs := (pwrCtlWrite v true s).regs, mc := { s.mc with pmb := (pwrCtlWrite v true s).mc.pmb } } ∧
      RegsBut [F.pwrCtl_VF_SET, F.pwrCtl_PK_LIM, F.pwrCtl_LOCK, F.pwrStat_VF_CAP] s (pwrCtlWrite v true s) := by
  have hset : OnlyRegs [F.pwrCtl_VF_SET] s (s.set F.pwrCtl_VF_SET 0 (bits v 1 5)) := (OnlyRegs.refl _ s).set
  obtain ⟨hframe, hregs⟩ := pwrCtlRest_onlyRegs v (s.set F.pwrCtl_VF_SET 0 (bits v 1 5))
  rw [pwrCtlWrite_vfSet hlock hne hge]
  generalize pwrCtlRest v (s.set F.pwrCtl_VF_SET 0 (bits v 1 5)) = u at hframe hregs ⊢
  refine ⟨?_, ?_, (hset.2.mono.trans hregs.mono).regs (applyVf_regs u)⟩
  · rw [State.get_congr _ u _ _ (applyVf_regs u), hregs F.pwrCtl_VF_SET 0 (by decide), State.get_set_same]
    exact Nat.mod_mod _ _
  · rw [applyVf_frame, hframe]
    rfl

theorem exec_vfSetWrite {who : From} {v : BitVec 5} {s : State} (hf : s.fatal = false) (hwho : pwrCtlWriter who) :
    ∃ x, bits x 1 5 = v.toNat ∧ exec (.vfSetWrite who v) s = .next (pwrCtlWrite x true s) := by
  refine ⟨((regView s pwrCtlDef 0).toNat - ((regView s pwrCtlDef 0).toNat &&& 62)) ||| (v.toNat % 32 * 2 &&& 62), ?_, ?_⟩
  · rw [Nat.mod_eq_of_lt v.isLt]
    exact bits_vfSet _ _ v.isLt
  · have hcmd : fieldCmd who .pwr .pwrCtl F.pwrCtl_VF_SET 0 v.toNat s = (regWrite who.1 who.2 true .pwr pwrCtlDef
        ⟨0, 62, v.toNat % 32 * 2, ((regView s pwrCtlDef 0).toNat - ((regView s pwrCtlDef 0).toNat &&& 62)) ||| (v.toNat % 32 * 2 &&& 62),
          blkLocked s .pwr 0⟩ s).2 := by
      rw [fieldCmd, regMasked, hf, if_neg Bool.false_ne_true, regOf_pwrCtl]
      rfl
    have hhit : (Wr.touches ⟨0, 62, v.toNat % 32 * 2, ((regView s pwrCtlDef 0).toNat - ((regView s pwrCtlDef 0).toNat &&& 62)) |||
        (v.toNat % 32 * 2 &&& 62), blkLocked s .pwr 0⟩ F.pwrCtl_VF_SET) = true := by
      simp [Wr.touches, bits, F.pwrCtl_VF_SET]
    rw [regWrite_pwrCtl hwho, hhit, Bool.or_true, Bool.true_or] at hcmd
    exact congrArg _ hcmd

theorem vfSetWrite_taken {who : From} {v : BitVec 5} {s : State} (hf : s.fatal = false) (hwho : pwrCtlWriter who)
    (hlock : s.flag F.pwrCtl_LOCK 0 = false) (hne : v.toNat ≠ 31) (hge : 10 ≤ v.toNat) :
    Completes (.vfSetWrite who v) s fun t => t.get F.pwrCtl_VF_SET 0 = v.toNat ∧
      t = { s with regs := t.regs, mc := { s.mc with pmb := t.mc.pmb } } ∧
      RegsBut [F.pwrCtl_VF_SET, F.pwrCtl_PK_LIM, F.pwrCtl_LOCK, F.pwrStat_VF_CAP] s t := by
  obtain ⟨x, hx, hexec⟩ := exec_vfSetWrite (v := v) hf hwho
  rw [← hx] at hne hge ⊢
  exact completes_next hexec (pwrCtlWrite_vfSet_leaves hlock hne hge)

/-! ### The wear ledger (R416) -/

theorem ledgerInc_frame (i : ℕ) (high : Bool) (s : State) : ledgerInc i high s = { s with mc := (ledgerInc i high s).mc } := rfl

theorem ledgerInc_regs (i : ℕ) (high : Bool) (s : State) : (ledgerInc i high s).regs = s.regs := by rw [ledgerInc_frame]

theorem ledgerInc_pwr (i : ℕ) (high : Bool) (s : State) : (ledgerInc i high s).pwr = s.pwr := by rw [ledgerInc_frame]

theorem ledgerWord_setLedger (s : State) (i j v : ℕ) : ledgerWord (setLedger i v s) j = if i = j then v % 2 ^ 48 else ledgerWord s j :=
  mget_mset 0 s.mc.ledger i j (v % 2 ^ 48)

/-- The low half of a word counts one entry. -/
theorem ledgerInc_low {i : ℕ} (hi : i ≠ 127) (s : State) : ledgerWord (ledgerInc i false s) i % 2 ^ 24 = (ledgerWord s i + 1) % 2 ^ 24 := by
  rw [ledgerInc, ledgerCrc, ledgerWord_setLedger, if_neg hi.symm, ledgerWord_setLedger, if_pos rfl, if_neg Bool.false_ne_true]
  omega

/-! ### Readings (R460–R464) -/

/-- The register fields that show a facet's hottest sensor. -/
def hottestFields : List Fld := [F.thermStat_HOTTEST, F.thermStat_HOTTEST_REG, F.thermStat_HOT]

/-- These and the fields of its throttle. -/
def heatFields : List Fld := [F.thermStat_THROT, F.fclkCtl_THROTTLED, F.thermStat_HOTTEST, F.thermStat_HOTTEST_REG, F.thermStat_HOT]

theorem setHottest_onlyRegs (f : ℕ) (s : State) : OnlyRegs hottestFields s (setHottest f s) :=
  (((OnlyRegs.refl _ s).set (hf := by simp [hottestFields])).set (hf := by simp [hottestFields])).set (hf := by simp [hottestFields])

theorem coolWatch_frame (f : ℕ) (s : State) : coolWatch f s = { s with pwr := { s.pwr with cool := (coolWatch f s).pwr.cool } } := by
  unfold coolWatch
  split <;> rfl

theorem degrees_toNat (v : BitVec 16) : degrees v.toNat = v.toInt := by
  rw [degrees, BitVec.ofNat_toNat, BitVec.setWidth_eq]

theorem mem_facetSensors (n : ℕ) : n ∈ facetSensors (n / 4) := by
  simp only [facetSensors, List.mem_cons, List.not_mem_nil, or_false]
  omega

/-- A region sensor at 97 °C or above ends the facet's cool time. -/
theorem coolWatch_warm {n : ℕ} {s : State} (h : 1552 ≤ sensor s n) : mfind (coolWatch (n / 4) s).pwr.cool (n / 4) = none := by
  have hwarm : ¬((facetSensors (n / 4)).all fun n => sensor s n < 1552) = true := fun hall => by
    have := List.all_eq_true.1 hall n (mem_facetSensors n)
    simp only [decide_eq_true_eq] at this
    omega
  rw [coolWatch, if_neg hwarm]
  exact (mfind_mdel s.pwr.cool _ _).trans (if_pos rfl)

/-- A conversion has given the sensor a reading. -/
def converted (n v : ℕ) (s : State) : State :=
  { s with pwr := { s.pwr with temp := mput s.pwr.temp n v, fails := mdel s.pwr.fails n } }

theorem sensor_of_pwr {s t : State} (htemp : t.pwr.temp = s.pwr.temp) (hfails : t.pwr.fails = s.pwr.fails) (n : ℕ) : sensor t n = sensor s n := by
  simp only [sensor, reading, htemp, hfails]

theorem sensor_converted (n : ℕ) (v : BitVec 16) (s : State) : sensor (converted n v.toNat s) n = v.toInt := by
  have hfails : mget 0 (mdel s.pwr.fails n) n = 0 := by rw [mget, mfind_mdel, if_pos rfl, Option.getD_none]
  rw [sensor, reading]
  simp only [converted, hfails]
  rw [if_neg (by omega), mfind_mput_same, Option.getD_some, degrees_toNat]

theorem exec_sensorConversion (n : Fin 40) (v : BitVec 16) (s : State) :
    exec (.sensorConversion n (some v)) s = .next (convert n v.toNat (converted n v.toNat s)) := rfl

/-- What the facet's registers and cool time are after a reading. -/
def heatSeen (n : ℕ) (s : State) : State := if n < 32 then coolWatch (n / 4) (setHottest (n / 4) s) else s

theorem heatSeen_frame (n : ℕ) (s : State) :
    heatSeen n s = { s with regs := (heatSeen n s).regs, pwr := { s.pwr with cool := (heatSeen n s).pwr.cool } } := by
  unfold heatSeen
  split
  · rw [coolWatch_frame, (setHottest_onlyRegs (n / 4) s).1]
  · rfl

theorem heatSeen_regsBut (n : ℕ) (s : State) : RegsBut hottestFields s (heatSeen n s) := by
  unfold heatSeen
  split
  · refine (setHottest_onlyRegs (n / 4) s).2.regs ?_
    rw [coolWatch_frame]
  · exact .refl _ s

theorem convert_eq (n v : ℕ) (s : State) : convert n v s =
    if 1840 ≤ degrees v then holdFault 33 (loc 10 n) 0 (heatSeen n s)
    else
      let u := dropFault 33 (loc 10 n) (heatSeen n s)
      if 32 ≤ n || u.fatal then u
      else
        let u := if 1600 ≤ degrees v then throttle (n / 4) u else u
        let u := if 1680 < degrees v then loseCapacity ((List.range 8).filter (inFacet u (n / 4))) 5 u else u
        if 1760 ≤ degrees v && shedCond u (n / 4) && !u.flag F.thermStat_SHED (n / 4) then
          ledgerInc 3 true (shedStepAt (n / 4) (u.set F.thermStat_SHED (n / 4) 1))
        else u := rfl

/-- A reading of 115 °C or above holds the fault of its sensor. -/
theorem sensorConversion_overtemp {n : Fin 40} {v : BitVec 16} {s : State} (hv : 1840 ≤ v.toInt)
    (hlive : s.flt.live.contains (pairKey 33 (loc 10 n.val)) = false) (hwire : s.flt.wire.contains (pairKey 33 (loc 10 n.val)) = false)
    (hheld : mfind s.flt.pairHeld (pairKey 33 (loc 10 n.val)) = none) :
    Completes (.sensorConversion n (some v)) s fun t => t.flt.live = s.flt.live ++ [pairKey 33 (loc 10 n.val)] ∧
      t.flt.queue = s.flt.queue ++ [⟨33, loc 10 n.val, 0, none, s.t, false⟩] ∧ mfind t.pwr.temp n = some v.toNat ∧ t.mem = s.mem ∧
      t.pending = s.pending := by
  have hconv : convert n v.toNat (converted n v.toNat s) = holdFault 33 (loc 10 n) 0 (heatSeen n (converted n v.toNat s)) := by
    rw [convert_eq, if_pos (by rwa [degrees_toNat])]
  have hexec := exec_sensorConversion n v s
  have hframe := heatSeen_frame n (converted n v.toNat s)
  rw [hconv] at hexec
  generalize heatSeen n (converted n v.toNat s) = u at hexec hframe
  have hflt : u.flt = s.flt := by rw [hframe]; rfl
  have ht : u.t = s.t := by rw [hframe]; rfl
  have htemp : u.pwr.temp = mput s.pwr.temp n v.toNat := by rw [hframe]; rfl
  rw [holdFault_new (by rwa [hflt]) (by rwa [hflt]) (by rwa [hflt]), hflt, ht] at hexec
  refine completes_next hexec ⟨rfl, rfl, ?_, ?_, ?_⟩
  · exact (congrArg (fun m => mfind m n) htemp).trans (mfind_mput_same _ _ _)
  · rw [hframe]
    rfl
  · rw [hframe]
    rfl

/-- The first failed conversion is counted, and nothing else. -/
theorem sensorConversion_fails {n : Fin 40} {s : State} (h : mget 0 s.pwr.fails n = 0) :
    exec (.sensorConversion n none) s = .next { s with pwr := { s.pwr with fails := mput s.pwr.fails n 1 } } := by
  have hconv : sensorConversion n none s = { s with pwr := { s.pwr with fails := mput s.pwr.fails n 1 } } := by
    rw [sensorConversion, h]
    rfl
  exact congrArg _ hconv

/-- The throttle of a facet that is not throttled begins. -/
def throttled (f : ℕ) (s : State) : State := (s.set F.thermStat_THROT f 1).set F.fclkCtl_THROTTLED f 1

theorem throttle_begins {f : ℕ} {s : State} (h : s.flag F.thermStat_THROT f = false) : throttle f s = ledgerInc 3 false (throttled f s) := by
  rw [throttle, h, if_neg Bool.false_ne_true]
  rfl

theorem throttled_regsBut (f : ℕ) (s : State) : RegsBut heatFields s (throttled f s) :=
  ((RegsBut.refl _ s).set (hf := by simp [heatFields])).set (hf := by simp [heatFields])

theorem throttle_frame (f : ℕ) (s : State) : throttle f s = { s with regs := (throttle f s).regs, mc := (throttle f s).mc } := by
  unfold throttle
  split
  · rfl
  · rw [ledgerInc_frame]
    rfl

theorem throttle_regsBut (f : ℕ) (s : State) : RegsBut heatFields s (throttle f s) := by
  unfold throttle
  split
  · exact .refl _ s
  · exact (throttled_regsBut f s).regs (ledgerInc_regs ..)

theorem dropFault_frame (kind l : ℕ) (s : State) : dropFault kind l s = { s with flt := (dropFault kind l s).flt } := rfl

theorem dropFault_fatal (kind l : ℕ) (s : State) : (dropFault kind l s).fatal = s.fatal := rfl

theorem dropFault_regs (kind l : ℕ) (s : State) : (dropFault kind l s).regs = s.regs := rfl

theorem dropFault_pwr (kind l : ℕ) (s : State) : (dropFault kind l s).pwr = s.pwr := rfl

/-- The state in which a reading is judged for its throttle. -/
def heatJudged (n v : ℕ) (s : State) : State := dropFault 33 (loc 10 n) (heatSeen n (converted n v s))

theorem heatJudged_frame (n v : ℕ) (s : State) :
    heatJudged n v s = { s with
      regs := (heatJudged n v s).regs, pwr := { (converted n v s).pwr with cool := (heatJudged n v s).pwr.cool }
      flt := (heatJudged n v s).flt } := by
  rw [heatJudged, dropFault_frame, heatSeen_frame]
  rfl

theorem heatJudged_fatal (n v : ℕ) (s : State) : (heatJudged n v s).fatal = s.fatal := by
  rw [heatJudged, dropFault_fatal, heatSeen_frame]
  rfl

theorem heatJudged_regsBut (n v : ℕ) (s : State) : RegsBut hottestFields s (heatJudged n v s) :=
  (heatSeen_regsBut n (converted n v s)).regs (dropFault_regs ..)

/-- The cool time of a facet with a warm region sensor has ended. -/
theorem heatJudged_cool {n : ℕ} {v : BitVec 16} {s : State} (hn : n < 32) (hv : 1552 ≤ v.toInt) :
    mfind (heatJudged n v.toNat s).pwr.cool (n / 4) = none := by
  have hpwr : (setHottest (n / 4) (converted n v.toNat s)).pwr = (converted n v.toNat s).pwr := by rw [(setHottest_onlyRegs _ _).1]
  have hseen : heatSeen n (converted n v.toNat s) = coolWatch (n / 4) (setHottest (n / 4) (converted n v.toNat s)) := if_pos hn
  have hsensor : 1552 ≤ sensor (setHottest (n / 4) (converted n v.toNat s)) n := by
    rwa [sensor_of_pwr (s := converted n v.toNat s) (by rw [hpwr]) (by rw [hpwr]), sensor_converted]
  rw [heatJudged, dropFault_pwr, hseen]
  exact coolWatch_warm hsensor

/-- The actions on a reading below 115 °C, while the package lives. -/
theorem convert_judged {n : ℕ} {v : BitVec 16} {s : State} (hf : s.fatal = false) (hn : n < 32) (hv : v.toInt < 1840) :
    convert n v.toNat (converted n v.toNat s) =
      let u := if 1600 ≤ v.toInt then throttle (n / 4) (heatJudged n v.toNat s) else heatJudged n v.toNat s
      let u := if 1680 < v.toInt then loseCapacity ((List.range 8).filter (inFacet u (n / 4))) 5 u else u
      if 1760 ≤ v.toInt && shedCond u (n / 4) && !u.flag F.thermStat_SHED (n / 4) then
        ledgerInc 3 true (shedStepAt (n / 4) (u.set F.thermStat_SHED (n / 4) 1))
      else u := by
  have hfatal : (heatJudged n v.toNat s).fatal = false := (heatJudged_fatal n v.toNat s).trans hf
  rw [convert_eq, degrees_toNat, if_neg (by omega)]
  rw [heatJudged] at hfatal ⊢
  dsimp only
  rw [if_neg (by simp [hfatal, Nat.not_le.2 hn])]

/-- A reading from 100 to 105 °C throttles the facet. -/
theorem sensorConversion_throttles {n : Fin 40} {v : BitVec 16} {s : State} (hf : s.fatal = false) (hn : n.val < 32) (hlo : 1600 ≤ v.toInt)
    (hhi : v.toInt ≤ 1680) (hthrot : s.flag F.thermStat_THROT (n.val / 4) = false) :
    Completes (.sensorConversion n (some v)) s fun t => t.get F.thermStat_THROT (n.val / 4) = 1 ∧ t.get F.fclkCtl_THROTTLED (n.val / 4) = 1 ∧
      mfind t.pwr.temp n = some v.toNat ∧ mfind t.pwr.cool (n.val / 4) = none ∧ ledgerWord t 3 % 2 ^ 24 = (ledgerWord s 3 + 1) % 2 ^ 24 ∧
      t = { s with regs := t.regs, pwr := t.pwr, flt := t.flt, mc := t.mc } ∧
      RegsBut [F.thermStat_THROT, F.fclkCtl_THROTTLED, F.thermStat_HOTTEST, F.thermStat_HOTTEST_REG, F.thermStat_HOT] s t := by
  have hregs := heatJudged_regsBut n v.toNat s
  have hcool := heatJudged_cool (s := s) hn (by omega : 1552 ≤ v.toInt)
  have hframe := heatJudged_frame n v.toNat s
  have hnot : decide (1760 ≤ v.toInt) = false := decide_eq_false (by omega)
  have hnocap : ¬1680 < v.toInt := by omega
  have hconv : convert n v.toNat (converted n v.toNat s) = ledgerInc 3 false (throttled (n.val / 4) (heatJudged n v.toNat s)) := by
    have hoff : (heatJudged n v.toNat s).flag F.thermStat_THROT (n.val / 4) = false := by
      rwa [State.flag, hregs F.thermStat_THROT _ (by decide), ← State.flag]
    rw [convert_judged hf hn (by omega), if_pos hlo]
    dsimp only
    rw [if_neg hnocap, hnot, Bool.false_and, Bool.false_and, if_neg Bool.false_ne_true, throttle_begins hoff]
  have hexec := exec_sensorConversion n v s
  rw [hconv] at hexec
  generalize heatJudged n v.toNat s = u at *
  refine completes_next hexec ⟨?_, ?_, ?_, ?_, ?_, ?_, ?_⟩
  · rw [State.get_congr _ _ _ _ (ledgerInc_regs ..)]
    exact (State.get_set_ne _ F.fclkCtl_THROTTLED F.thermStat_THROT _ _ _ (by decide)).trans (State.get_set_same _ F.thermStat_THROT _ 1)
  · rw [State.get_congr _ _ _ _ (ledgerInc_regs ..)]
    exact State.get_set_same _ F.fclkCtl_THROTTLED _ 1
  · rw [ledgerInc_pwr]
    change mfind u.pwr.temp n = _
    rw [hframe]
    exact mfind_mput_same s.pwr.temp n v.toNat
  · rw [ledgerInc_pwr]
    exact hcool
  · rw [ledgerInc_low (by decide), hframe]
    rfl
  · rw [ledgerInc_frame, hframe]
    rfl
  · have hheat : RegsBut heatFields s u := hregs.mono (by simp [hottestFields, heatFields])
    exact (hheat.trans (throttled_regsBut _ u)).regs (ledgerInc_regs ..)

/-! ### What the discard of a held output leaves (R463)

A stopped partition's held outputs are answered with an error through the network, which counts stray answers and refused tokens in registers of its
own. -/

/-- The register fields that a packet's way through the network may change. -/
def wayFields : List Fld :=
  [F.rtrStat_STRAY, F.violCnt_COUNT, F.violAddr_VALUE, F.violInfo_KIND, F.violInfo_SYS, F.violInfo_PART, F.violInfo_INIT, F.violInfo_OP,
    F.violInfo_BANK, F.violInfo_T, F.violInfo_VALID]

/-- From `s` to `t` packets have moved: queue, time and power are as before, and so are the registers but those of `wayFields`. -/
structure Sends (s t : State) : Prop where
  pending : t.pending = s.pending
  time : t.t = s.t
  power : t.pwr = s.pwr
  regs : RegsBut wayFields s t

section
variable {s t u : State}

theorem Sends.refl (s : State) : Sends s s := ⟨rfl, rfl, rfl, RegsBut.refl _ s⟩

/-- A change of other parts than queue, registers, time and power. -/
theorem Sends.rest {mem : List Host.Cell} {era : BitVec 16} {ticks free : ℕ} {net : NetSt} {bank : BankSt} {sched : SchedSt} {out : OutSt}
    {flt : FaultSt} {cl : ClusterSt} {staged : List Staged} {pcie : PcieSt} {ap : ApSt} {mc : McSt} {lens : LensSt} {chain : ChainSt} {sc : ScSt}
    {cc : CcSt} {port : PortSt} {old : List (ℕ × ℕ)} (h : Sends s t) :
    Sends s ⟨t.pending, t.regs, mem, t.t, era, ticks, free, net, bank, sched, out, flt, cl, staged, pcie, ap, mc, lens, chain, sc, cc, port,
      t.pwr, old⟩ :=
  ⟨h.pending, h.time, h.power, h.regs⟩

theorem Sends.set {f : Fld} {i v : ℕ} (h : Sends s t) (hf : f ∈ wayFields := by simp [wayFields]) : Sends s (t.set f i v) :=
  ⟨h.pending, h.time, h.power, h.regs.set hf⟩

theorem Sends.inc {f : Fld} {i : ℕ} (h : Sends s t) (hf : f ∈ wayFields := by simp [wayFields]) : Sends s (t.inc f i) := h.set hf

theorem Sends.ite {c : Prop} [Decidable c] {a b : State} (ha : Sends s a) (hb : Sends s b) : Sends s (if c then a else b) := by
  split <;> assumption

theorem Sends.foldl {α : Type} {g : State → α → State} {l : List α} (h : Sends s t)
    (hg : ∀ {u : State} {a : α}, Sends s u → Sends s (g u a)) : Sends s (l.foldl g t) := by
  induction l generalizing t with
  | nil => exact h
  | cons a l ih => exact ih (hg h)

theorem Sends.report {kind l detail : ℕ} {part : Option ℕ} {inj : Bool} (h : Sends s t) : Sends s (report kind l detail part inj t) := by
  rw [report_frame]
  exact h.rest

theorem Sends.violation {c kind : ℕ} {value : W} {sys : Bool} {part init op bank : ℕ} (h : Sends s t) :
    Sends s (violation c kind value sys part init op bank t) :=
  Sends.ite h.inc h.inc.set.set.set.set.set.set.set.set.set

theorem Sends.countCons {p ep n : ℕ} (h : Sends s t) : Sends s (countCons p ep n t) := h.rest.rest

theorem Sends.discardToken {c : ℕ} {tag : W} {silent : Bool} (h : Sends s t) : Sends s (discardToken c tag silent t) :=
  Sends.ite h.violation.countCons h.violation.countCons.report

theorem Sends.discardAt {n : ℕ} {tag : W} (h : Sends s t) : Sends s (discardAt n tag t) := Sends.ite h.discardToken h.countCons.report

theorem Sends.queueInject {f : Flit} (h : Sends s t) : Sends s (queueInject f t) := Sends.ite h.rest h.rest.rest

theorem Sends.noteBreak {p : ℕ} (h : Sends s t) : Sends s (noteBreak p t) := Sends.ite h h.rest

theorem Sends.deliverRsp {f : Flit} (h : Sends s t) : Sends s (deliverRsp f t) := by
  unfold Machine.deliverRsp
  extract_lets
  split
  · exact Sends.ite h h.inc
  · exact Sends.ite (Sends.ite h.rest h.rest.inc) (Sends.ite h.rest.rest h.rest.rest)

theorem Sends.deliverOther {f : Flit} (h : Sends s t) : Sends s (deliverOther f t) := by
  unfold Machine.deliverOther
  refine Sends.ite (Sends.ite h.rest h.deliverRsp) ?_
  split <;> exact h.rest

theorem Sends.enterNode {f : Flit} (h : Sends s t) : Sends s (enterNode f t) := by
  unfold Machine.enterNode
  dsimp only
  split
  · exact h.rest
  · exact Sends.ite h.rest (Sends.ite (Sends.ite h.rest h.rest) h.deliverOther)

theorem Sends.inject {f : Flit} (h : Sends s t) : Sends s (inject f t) :=
  Sends.ite (Sends.ite h.discardAt (Sends.ite h (Sends.ite h.queueInject h))) (Sends.ite h.enterNode h.queueInject)

theorem Sends.leaveInit {f : Flit} (h : Sends s t) : Sends s (leaveInit f t).2 := by
  unfold Machine.leaveInit
  split
  · exact h
  · split
    · exact h
    · exact h.rest

theorem Sends.drainNode {n k : ℕ} (h : Sends s t) : Sends s (drainNode n k t) := by
  induction k generalizing t with
  | zero => exact h
  | succ k ih =>
    rw [Machine.drainNode]
    split
    · exact h
    · exact ih h.rest.leaveInit.enterNode.noteBreak

theorem Sends.respond {n ret : ℕ} {poison : Bool} {status : ℕ} {data extra : W} {cls urg : ℕ} (h : Sends s t) :
    Sends s (respond n ret poison status data extra cls urg t) :=
  h.inject.drainNode

theorem Sends.discardHeldIf {p : OutVal → Bool} (h : Sends s t) : Sends s (discardHeldIf p t) :=
  h.rest.foldl fun h => Sends.ite h.respond h
end

/-! ### Shedding (R463) -/

/-- The register fields that stopping a partition may change. -/
def haltFields : List Fld := F.partStat_STATE :: F.dlStat_HALTED :: F.dlStat_RECLAIMING :: wayFields

/-- The partition's registers when it stops. -/
def haltRegs (p : ℕ) (s : State) : State := ((dropReclaim p s).set F.partStat_STATE p pHalted).set F.dlStat_HALTED p 1

theorem stopPartition_sends (p : ℕ) (s : State) : Sends (haltRegs p s) (stopPartition p s) := (Sends.refl _).discardHeldIf

theorem haltRegs_regsBut (p : ℕ) (s : State) : RegsBut [F.partStat_STATE, F.dlStat_HALTED, F.dlStat_RECLAIMING] s (haltRegs p s) :=
  (((RegsBut.refl _ s).set (f := F.dlStat_RECLAIMING)).set (f := F.partStat_STATE)).set (f := F.dlStat_HALTED)

theorem haltRegs_pState_same (p : ℕ) (s : State) : (haltRegs p s).pState p = pHalted :=
  (State.get_set_ne _ F.dlStat_HALTED F.partStat_STATE _ _ _ (by decide)).trans (State.get_set_same _ F.partStat_STATE p pHalted)

theorem haltRegs_pState_ne {p q : ℕ} (h : p ≠ q) (s : State) : (haltRegs p s).pState q = s.pState q :=
  (State.get_set_ne _ F.dlStat_HALTED F.partStat_STATE _ _ _ (by decide)).trans
    ((State.get_set_idx _ F.partStat_STATE F.partStat_STATE _ _ _ h).trans
      (State.get_set_ne _ F.dlStat_RECLAIMING F.partStat_STATE _ _ _ (by decide)))

/-- The reason of the loss, and its event for a guaranteed partition. -/
def shedNoted (p : ℕ) (s : State) : State :=
  if s.pState p = pGuaranteed ∨ s.pState p = pSuspended then markLost p 5 s else (s.set F.partStat_LOST p 1).set F.partStat_REASON p 5

/-- What a shedding step does to one partition. -/
def shedPart (s : State) (p : ℕ) : State := stopPartition p (shedNoted p s)

/-- The register fields that shedding a partition may change, but for the partition's state. -/
def shedFields : List Fld :=
  F.partStat_LOST :: F.partStat_REASON :: F.evCfg_COUNT :: F.evCfg_PEND :: F.dlStat_HALTED :: F.dlStat_RECLAIMING :: wayFields

theorem raiseEvent_regsBut {l : List Fld} {s t : State} {n : ℕ} (h : RegsBut l s t) (hc : F.evCfg_COUNT ∈ l) (hp : F.evCfg_PEND ∈ l) :
    RegsBut l s (raiseEvent n t) := fun f i hf =>
  (raiseEvent_get_ne n t f i ⟨(hf _ hc).symm, (hf _ hp).symm⟩).trans (h f i hf)

theorem shedNoted_regsBut (p : ℕ) (s : State) : RegsBut shedFields s (shedNoted p s) := by
  have hset : RegsBut shedFields s ((s.set F.partStat_LOST p 1).set F.partStat_REASON p 5) :=
    ((RegsBut.refl _ s).set (hf := by simp [shedFields])).set (hf := by simp [shedFields])
  unfold shedNoted
  split
  · exact raiseEvent_regsBut hset (by simp [shedFields]) (by simp [shedFields])
  · exact hset

theorem markLost_frame (p reason : ℕ) (s : State) :
    markLost p reason s = { s with regs := (markLost p reason s).regs, pcie := (markLost p reason s).pcie } := by
  rw [markLost, raiseEvent_frame]
  rfl

theorem shedNoted_frame (p : ℕ) (s : State) : shedNoted p s = { s with regs := (shedNoted p s).regs, pcie := (shedNoted p s).pcie } := by
  unfold shedNoted
  split
  · exact markLost_frame p 5 s
  · rfl

/-- From `s` to `t` the partitions `ps` have been shed. -/
structure Sheds (ps : List ℕ) (s t : State) : Prop where
  pending : t.pending = s.pending
  time : t.t = s.t
  power : t.pwr = s.pwr
  regs : RegsBut (F.partStat_STATE :: shedFields) s t
  halted : ∀ p ∈ ps, t.pState p = pHalted
  others : ∀ p, p ∉ ps → t.pState p = s.pState p

theorem shedPart_sheds (p : ℕ) (s : State) : Sheds [p] s (shedPart s p) := by
  have hnoted := shedNoted_regsBut p s
  have hframe := shedNoted_frame p s
  rw [shedPart]
  generalize shedNoted p s = u at *
  obtain ⟨hpending, htime, hpower, hregs⟩ := stopPartition_sends p u
  have hstate (q : ℕ) : (stopPartition p u).pState q = (haltRegs p u).pState q := hregs F.partStat_STATE q (by decide)
  have hpart (q : ℕ) : u.pState q = s.pState q := hnoted F.partStat_STATE q (by decide)
  refine ⟨?_, ?_, ?_, ?_, fun q hq => ?_, fun q hq => ?_⟩
  · rw [hpending, hframe]
    rfl
  · rw [htime, hframe]
    rfl
  · rw [hpower, hframe]
    rfl
  · have h₁ : RegsBut (F.partStat_STATE :: shedFields) s u := hnoted.mono fun f hf => List.mem_cons_of_mem _ hf
    have h₂ : RegsBut (F.partStat_STATE :: shedFields) u (haltRegs p u) := (haltRegs_regsBut p u).mono (by simp [shedFields])
    have h₃ : RegsBut (F.partStat_STATE :: shedFields) (haltRegs p u) (stopPartition p u) := hregs.mono (by simp [shedFields]; tauto)
    exact (h₁.trans h₂).trans h₃
  · rw [List.mem_singleton.1 hq, hstate, haltRegs_pState_same]
  · rw [hstate, haltRegs_pState_ne (fun e => hq (List.mem_singleton.2 e.symm)), hpart]

theorem Sheds.nil (s : State) : Sheds [] s s := ⟨rfl, rfl, rfl, RegsBut.refl _ s, by simp, fun _ _ => rfl⟩

theorem Sheds.cons {p : ℕ} {ps : List ℕ} {s t u : State} (h : Sheds [p] s t) (h' : Sheds ps t u) : Sheds (p :: ps) s u := by
  refine ⟨h'.pending.trans h.pending, h'.time.trans h.time, h'.power.trans h.power, h.regs.trans h'.regs, fun q hq => ?_, fun q hq => ?_⟩
  · by_cases hps : q ∈ ps
    · exact h'.halted q hps
    · rw [h'.others q hps]
      exact h.halted q (List.mem_singleton.2 ((List.mem_cons.1 hq).resolve_right hps))
  · rw [List.mem_cons, not_or] at hq
    rw [h'.others q hq.2, h.others q (fun e => hq.1 (List.mem_singleton.1 e))]

theorem foldl_shedPart_sheds (ps : List ℕ) (s : State) : Sheds ps s (ps.foldl shedPart s) := by
  induction ps generalizing s with
  | nil => exact .nil s
  | cons p ps ih => exact (shedPart_sheds p s).cons (ih _)

/-- What a step sheds depends on owners, criticalities and states of partitions. -/
theorem shedSet_regsBut {l : List Fld} {s t : State} (h : RegsBut l s t)
    (hl : ∀ g ∈ l, g.id ≠ F.partStat_CRIT.id ∧ g.id ≠ F.clStatus_OWNER.id ∧ g.id ≠ F.partStat_STATE.id) (f k : ℕ) :
    shedSet t f k = shedSet s f k := by
  have hcrit (p : ℕ) : t.get F.partStat_CRIT p = s.get F.partStat_CRIT p := h _ p fun g hg => (hl g hg).1
  have howner (c : ℕ) : t.cOwner c = s.cOwner c := h _ c fun g hg => (hl g hg).2.1
  have hstate (p : ℕ) : t.pState p = s.pState p := h _ p fun g hg => (hl g hg).2.2
  simp only [shedSet, inFacet, hcrit, howner, hstate]

/-- The step begins: its time and its count. -/
def shedBegun (f : ℕ) (s : State) : State :=
  { s with pwr := { s.pwr with shedAt := mput s.pwr.shedAt f s.ticks } }.inc F.thermStat_SHEDS f

theorem shedBegun_regsBut (f : ℕ) (s : State) : RegsBut [F.thermStat_SHEDS] s (shedBegun f s) :=
  (RegsBut.refl _ s).inc (f := F.thermStat_SHEDS)

/-- The first step of an episode, where a partition of criticality 3 is to be halted. -/
theorem shedStepAt_first {f : ℕ} {s : State} (hnext : s.get F.thermStat_SHED_NEXT f = 3) (hset : shedSet s f 3 ≠ []) :
    shedStepAt f s = ((shedSet s f 3).foldl shedPart (shedBegun f s)).set F.thermStat_SHED_NEXT f 2 := by
  have hsame : shedSet (shedBegun f s) f 3 = shedSet s f 3 := shedSet_regsBut (shedBegun_regsBut f s) (by decide) f 3
  have hk : ((List.range (3 + 1)).reverse.find? fun k => !(shedSet s f k).isEmpty) = some 3 := by
    have hne : (fun k => !(shedSet s f k).isEmpty) 3 = true := by simpa using hset
    exact List.find?_cons_of_pos (l := [2, 1, 0]) hne
  have horder : (if 3 = 7 then [] else (List.range (3 + 1)).reverse) = (List.range (3 + 1)).reverse := rfl
  rw [shedStepAt, hnext]
  dsimp only
  rw [horder, hk]
  change ((shedSet (shedBegun f s) f 3).foldl shedPart (shedBegun f s)).set F.thermStat_SHED_NEXT f 2 = _
  rw [hsame]

/-- What the first step leaves. -/
theorem shedStepAt_first_leaves {f : ℕ} {s : State} (hnext : s.get F.thermStat_SHED_NEXT f = 3) (hset : shedSet s f 3 ≠ []) :
    (shedStepAt f s).get F.thermStat_SHED_NEXT f = 2 ∧
      (shedStepAt f s).get F.thermStat_SHEDS f = (s.get F.thermStat_SHEDS f + 1) % 2 ^ F.thermStat_SHEDS.w ∧
      (shedStepAt f s).get F.thermStat_SHED f = s.get F.thermStat_SHED f ∧
      (∀ p ∈ shedSet s f 3, (shedStepAt f s).pState p = pHalted) ∧ (∀ p, p ∉ shedSet s f 3 → (shedStepAt f s).pState p = s.pState p) ∧
      mfind (shedStepAt f s).pwr.shedAt f = some s.ticks ∧ (shedStepAt f s).pending = s.pending ∧ (shedStepAt f s).t = s.t := by
  obtain ⟨hpending, htime, hpower, hregs, hhalted, hothers⟩ := foldl_shedPart_sheds (shedSet s f 3) (shedBegun f s)
  rw [shedStepAt_first hnext hset]
  generalize (shedSet s f 3).foldl shedPart (shedBegun f s) = u at *
  have hpState (p : ℕ) : (u.set F.thermStat_SHED_NEXT f 2).pState p = u.pState p := State.get_set_ne _ _ _ _ _ _ (by decide)
  refine ⟨State.get_set_same u F.thermStat_SHED_NEXT f 2, ?_, ?_, fun p hp => ?_, fun p hp => ?_, ?_, hpending, htime⟩
  · rw [State.get_set_ne _ _ _ _ _ _ (by decide), hregs F.thermStat_SHEDS f (by decide)]
    exact State.get_inc_same _ F.thermStat_SHEDS f
  · rw [State.get_set_ne _ _ _ _ _ _ (by decide), hregs F.thermStat_SHED f (by decide), shedBegun_regsBut f s F.thermStat_SHED f (by decide)]
  · rw [hpState, hhalted p hp]
  · rw [hpState, hothers p hp]
    exact shedBegun_regsBut f s F.partStat_STATE p (by decide)
  · exact (congrArg (fun m : PwrSt => mfind m.shedAt f) hpower).trans (mfind_mput_same s.pwr.shedAt f s.ticks)

section
variable {f : Fin 8} {x : ℕ} {s : State} (hf : s.fatal = false) (hat : mfind s.pwr.shedAt f = some x)
  (hshed : s.flag F.thermStat_SHED f = true) (hdue : x + 2500000 ≤ s.ticks)
include hf hat hshed hdue

theorem exec_shedStep : exec (.shedStep f) s = .next (if shedCond s f then shedStepAt f s else
    ({ s with pwr := { s.pwr with shedAt := mdel s.pwr.shedAt f } }.set F.thermStat_SHED f 0).set F.thermStat_SHED_NEXT f 3) := by
  have hstep : shedStep f s = if shedCond s f then shedStepAt f s else
      ({ s with pwr := { s.pwr with shedAt := mdel s.pwr.shedAt f } }.set F.thermStat_SHED f 0).set F.thermStat_SHED_NEXT f 3 := by
    simp only [shedStep, hat]
    exact if_neg (by simp [hshed, Nat.not_lt.2 hdue])
  rw [← hstep, ← unlessFatal_live hf (shedStep f)]
  rfl

/-- Without the condition the episode ends. -/
theorem shedStep_ends (hcond : shedCond s f = false) :
    Completes (.shedStep f) s fun t => t.get F.thermStat_SHED f = 0 ∧ t.get F.thermStat_SHED_NEXT f = 3 ∧ mfind t.pwr.shedAt f = none ∧
      t = { s with regs := t.regs, pwr := t.pwr } ∧ RegsBut [F.thermStat_SHED, F.thermStat_SHED_NEXT] s t := by
  have hexec := exec_shedStep hf hat hshed hdue
  rw [hcond, if_neg Bool.false_ne_true] at hexec
  refine completes_next hexec ⟨?_, State.get_set_same _ F.thermStat_SHED_NEXT f 3, ?_, rfl, (RegsBut.refl _ s).set.set⟩
  · exact (State.get_set_ne _ F.thermStat_SHED_NEXT F.thermStat_SHED _ _ _ (by decide)).trans (State.get_set_same _ F.thermStat_SHED f 0)
  · exact (mfind_mdel s.pwr.shedAt f f).trans (if_pos rfl)

/-- With the condition the partitions of the next criticality halt. -/
theorem shedStep_halts (hcond : shedCond s f = true) (hnext : s.get F.thermStat_SHED_NEXT f = 3) (hset : shedSet s f 3 ≠ []) :
    Completes (.shedStep f) s fun t => t.get F.thermStat_SHED_NEXT f = 2 ∧
      t.get F.thermStat_SHEDS f = (s.get F.thermStat_SHEDS f + 1) % 2 ^ F.thermStat_SHEDS.w ∧ (∀ p ∈ shedSet s f 3, t.pState p = pHalted) ∧
      (∀ p : Fin 8, p.val ∉ shedSet s f 3 → t.pState p = s.pState p) ∧ mfind t.pwr.shedAt f = some s.ticks ∧ t.pending = s.pending ∧
      t.t = s.t := by
  have hexec := exec_shedStep hf hat hshed hdue
  rw [hcond, if_pos rfl] at hexec
  obtain ⟨hnext', hsheds, -, hhalted, hothers, hat', hpending, htime⟩ := shedStepAt_first_leaves hnext hset
  exact completes_next hexec ⟨hnext', hsheds, hhalted, fun p => hothers p, hat', hpending, htime⟩
end

/-! ### The first step of an episode (R461, R463) -/

/-- The state in which a reading of more than 105 °C is judged for shedding: the partitions of the facet lose capacity. -/
def hotJudged (n v : ℕ) (s : State) : State :=
  loseCapacity ((List.range 8).filter (inFacet (throttle (n / 4) (heatJudged n v s)) (n / 4))) 5 (throttle (n / 4) (heatJudged n v s))

theorem loseCapacity_frame (ps : List ℕ) (reason : ℕ) (s : State) :
    loseCapacity ps reason s = { s with ap := (loseCapacity ps reason s).ap } := rfl

theorem hotJudged_frame (n v : ℕ) (s : State) : hotJudged n v s = { s with
    regs := (hotJudged n v s).regs, pwr := { (converted n v s).pwr with cool := (hotJudged n v s).pwr.cool }
    flt := (hotJudged n v s).flt, mc := (hotJudged n v s).mc, ap := (hotJudged n v s).ap } := by
  rw [hotJudged, loseCapacity_frame, throttle_frame, heatJudged_frame]

theorem hotJudged_regsBut (n v : ℕ) (s : State) : RegsBut heatFields s (hotJudged n v s) := by
  have h : RegsBut heatFields s (heatJudged n v s) := (heatJudged_regsBut n v s).mono (by simp [hottestFields, heatFields])
  exact (h.trans (throttle_regsBut _ _)).regs (by rw [hotJudged, loseCapacity_frame])

/-- A region sensor at 110 °C or above, in a facet at floor, meets the shed condition. -/
theorem hotJudged_shedCond {n : ℕ} {v : BitVec 16} {s : State} (hv : 1760 ≤ v.toInt) (hcur : s.get F.fclkCtl_CURRENT (n / 4) = 0) :
    shedCond (hotJudged n v.toNat s) (n / 4) = true := by
  have hcur' : (hotJudged n v.toNat s).get F.fclkCtl_CURRENT (n / 4) = 0 :=
    (hotJudged_regsBut n v.toNat s F.fclkCtl_CURRENT _ (by decide)).trans hcur
  have hsensor : sensor (hotJudged n v.toNat s) n = v.toInt := by
    rw [sensor_of_pwr (s := converted n v.toNat s) (by rw [hotJudged_frame]) (by rw [hotJudged_frame]), sensor_converted]
  rw [shedCond, hcur']
  simp only [decide_true, Bool.true_and, List.any_eq_true, decide_eq_true_eq]
  exact ⟨n, mem_facetSensors n, by rwa [hsensor]⟩

/-- A reading from 110 to 115 °C in a facet at floor begins an episode with its first step. -/
theorem sensorConversion_sheds {n : Fin 40} {v : BitVec 16} {s : State} (hf : s.fatal = false) (hn : n.val < 32) (hlo : 1760 ≤ v.toInt)
    (hhi : v.toInt < 1840) (hcur : s.get F.fclkCtl_CURRENT (n.val / 4) = 0) (hshed : s.flag F.thermStat_SHED (n.val / 4) = false)
    (hnext : s.get F.thermStat_SHED_NEXT (n.val / 4) = 3) (hset : shedSet s (n.val / 4) 3 ≠ []) :
    Completes (.sensorConversion n (some v)) s fun t => t.get F.thermStat_SHED (n.val / 4) = 1 ∧
      t.get F.thermStat_SHED_NEXT (n.val / 4) = 2 ∧
      t.get F.thermStat_SHEDS (n.val / 4) = (s.get F.thermStat_SHEDS (n.val / 4) + 1) % 2 ^ F.thermStat_SHEDS.w ∧
      (∀ p ∈ shedSet s (n.val / 4) 3, t.pState p = pHalted) ∧ (∀ p : Fin 8, p.val ∉ shedSet s (n.val / 4) 3 → t.pState p = s.pState p) ∧
      mfind t.pwr.shedAt (n.val / 4) = some s.ticks ∧ t.pending = s.pending ∧ t.t = s.t := by
  have hcond := hotJudged_shedCond (s := s) hlo hcur
  have hframe := hotJudged_frame n v.toNat s
  have hregs : RegsBut (F.thermStat_SHED :: heatFields) s ((hotJudged n v.toNat s).set F.thermStat_SHED (n.val / 4) 1) :=
    ((hotJudged_regsBut n v.toNat s).mono fun f hf => List.mem_cons_of_mem _ hf).set
  have hconv : convert n v.toNat (converted n v.toNat s) =
      ledgerInc 3 true (shedStepAt (n.val / 4) ((hotJudged n v.toNat s).set F.thermStat_SHED (n.val / 4) 1)) := by
    have hoff : (hotJudged n v.toNat s).flag F.thermStat_SHED (n.val / 4) = false := by
      rwa [State.flag, hotJudged_regsBut n v.toNat s F.thermStat_SHED _ (by decide), ← State.flag]
    have hthrot : 1600 ≤ v.toInt := by omega
    have hcap : 1680 < v.toInt := by omega
    rw [convert_judged hf hn hhi, if_pos hthrot]
    dsimp only
    rw [if_pos hcap]
    rw [hotJudged] at hcond hoff ⊢
    rw [hcond, hoff, decide_eq_true hlo]
    rfl
  have hexec := exec_sensorConversion n v s
  rw [hconv] at hexec
  have hset' : shedSet ((hotJudged n v.toNat s).set F.thermStat_SHED (n.val / 4) 1) (n.val / 4) 3 = shedSet s (n.val / 4) 3 :=
    shedSet_regsBut hregs (by decide) _ 3
  have hnext' := (hregs F.thermStat_SHED_NEXT (n.val / 4) (by decide)).trans hnext
  obtain ⟨hnext₂, hsheds, hshed₂, hhalted, hothers, hat, hpending, htime⟩ := shedStepAt_first_leaves hnext' (by rwa [hset'])
  rw [hset'] at hhalted hothers
  have hget (g : Fld) (i : ℕ) := State.get_congr _ _ g i (ledgerInc_regs 3 true
    (shedStepAt (n.val / 4) ((hotJudged n v.toNat s).set F.thermStat_SHED (n.val / 4) 1)))
  have hticks : ((hotJudged n v.toNat s).set F.thermStat_SHED (n.val / 4) 1).ticks = s.ticks := by
    rw [State.set_ticks, hframe]
  refine completes_next hexec ⟨?_, ?_, ?_, fun p hp => ?_, fun p hp => ?_, ?_, ?_, ?_⟩
  · rw [hget, hshed₂]
    exact State.get_set_same _ F.thermStat_SHED _ 1
  · rw [hget, hnext₂]
  · rw [hget, hsheds, hregs F.thermStat_SHEDS _ (by decide)]
  · exact (hget _ p).trans (hhalted p hp)
  · exact ((hget _ p.val).trans (hothers p hp)).trans (hregs F.partStat_STATE p (by decide))
  · rw [ledgerInc_pwr, hat, hticks]
  · rw [ledgerInc_frame]
    refine hpending.trans ?_
    rw [State.set_pending, hframe]
  · rw [ledgerInc_frame]
    refine htime.trans ?_
    rw [State.set_t, hframe]

/-! ### The statement -/

/-- Settles O44, clause by clause. -/
theorem powerAndHeatAreManaged : Obligations.PowerAndHeatAreManaged := by
  unfold Obligations.PowerAndHeatAreManaged
  refine ⟨?railDue, ?railInside, ?throttles, ?overtemp, ?sheds, ?fails, ?releaseDue, ?releaseEarly, ?shedEnds, ?shedHalts, ?estimate, ?caps,
    ?uncaps, ?rampUp, ?rampDown, ?rampEarly, ?rampThere, ?vfSet⟩
  case railDue => exact fun m x s hout hdue hon hlive hwire hheld => exec_railFault_due hout hdue hon hlive hwire hheld
  case railInside => exact fun m s hout => exec_railFault_inside hout
  case throttles => exact fun n v s hf hn hlo hhi hthrot => sensorConversion_throttles hf hn hlo hhi hthrot
  case overtemp => exact fun n v s hv hlive hwire hheld => sensorConversion_overtemp hv hlive hwire hheld
  case sheds => exact fun n v s hf hn hlo hhi hcur hshed hnext hset => sensorConversion_sheds hf hn hlo hhi hcur hshed hnext hset
  case fails => exact fun n s h => sensorConversion_fails h
  case releaseDue => exact fun f x s hf hcool hthrot hdue => exec_throttleRelease_due hf hcool hthrot hdue
  case releaseEarly => exact fun f x s _ hcool hearly => exec_throttleRelease_early hcool hearly
  case shedEnds => exact fun f x s hf hat hshed hdue hcond => shedStep_ends hf hat hshed hdue hcond
  case shedHalts => exact fun f x s hf hat hshed hdue hcond hnext hset => shedStep_halts hf hat hshed hdue hcond hnext hset
  case estimate => exact fun w s hf hw hcap hpeaks hlim => powerEstimate_shown hf hw hcap hpeaks hlim
  case caps => exact fun w s hf hw hcap hlim => powerEstimate_caps hf hw hcap hlim
  case uncaps => exact fun w s hf hw hcap hlim => powerEstimate_releases hf hw hcap hlim
  case rampUp => exact fun f d s hf hrun hramp hdue hlt => clockRampStep_up hf hrun hramp hdue hlt
  case rampDown => exact fun f d s hf hrun hramp hdue hlt => clockRampStep_down hf hrun hramp hdue hlt
  case rampEarly => exact fun f d s hramp hearly => exec_clockRampStep_waits (.inr (.inr ⟨d, hramp, hearly⟩))
  case rampThere => exact fun f s h => exec_clockRampStep_waits (h.imp_right .inl)
  case vfSet => exact fun who v s hf hwho hlock hne hge => vfSetWrite_taken hf hwho hlock hne hge

end Sys2Proof.Machine
end

section
/-!
SUPPORT. What every command keeps of the queue and of time: the queue, T, the era and the count of ticks stay but for the few commands
that are about them, and so do the fatal decision and the assertion of power-on reset. One relation `Steady` says so, and each function of the
model that returns a state has a lemma that appends it to a path.
-/
set_option Elab.async false
namespace Sys2Proof.Machine
open Sys2Proof

/-! ### What no command but a few breaks -/

/-- From `s` to `t` the queue, T and the count of ticks stay. -/
structure KeepsClock (s t : State) : Prop where
  pending : t.pending = s.pending
  time : t.t = s.t
  ticks : t.ticks = s.ticks

/-- From `s` to `t` the queue, T and the count of ticks stay, and with them the era, the fatal decision and the assertion of power-on reset. -/
structure Steady (s t : State) : Prop extends KeepsClock s t where
  era : t.era = s.era
  decision : t.flt.decision = s.flt.decision
  por : t.pwr.por = s.pwr.por

variable {s t u : State} {α β : Type}

theorem KeepsClock.refl (s : State) : KeepsClock s s := ⟨rfl, rfl, rfl⟩

theorem KeepsClock.trans (h : KeepsClock s t) (h' : KeepsClock t u) : KeepsClock s u :=
  ⟨h'.pending.trans h.pending, h'.time.trans h.time, h'.ticks.trans h.ticks⟩

theorem KeepsClock.steady (h : KeepsClock s t) (h' : Steady t u) : KeepsClock s u := h.trans h'.toKeepsClock

/-- Both branches leave queue and count of ticks. -/
theorem ite_leaves {c : Prop} [Decidable c] {a b : State} (ha : a.pending = s.pending ∧ a.ticks = s.ticks)
    (hb : b.pending = s.pending ∧ b.ticks = s.ticks) : (if c then a else b).pending = s.pending ∧ (if c then a else b).ticks = s.ticks := by
  split <;> assumption

theorem Steady.refl (s : State) : Steady s s := ⟨.refl s, rfl, rfl, rfl⟩

theorem Steady.trans (h : Steady s t) (h' : Steady t u) : Steady s u :=
  ⟨h.toKeepsClock.trans h'.toKeepsClock, h'.era.trans h.era, h'.decision.trans h.decision, h'.por.trans h.por⟩

/-- A change of any other part of the state. -/
theorem Steady.rest {regs : List (Nat × Nat)} {mem : List Host.Cell} {free : Nat} {net : NetSt} {bank : BankSt} {sched : SchedSt}
    {out : OutSt} {flt : FaultSt} {cl : ClusterSt} {staged : List Staged} {pcie : PcieSt} {ap : ApSt} {mc : McSt} {lens : LensSt}
    {chain : ChainSt} {sc : ScSt} {cc : CcSt} {port : PortSt} {pwr : PwrSt} {old : List (Nat × Nat)} (h : Steady s t)
    (hd : flt.decision = t.flt.decision := by rfl) (hp : pwr.por = t.pwr.por := by rfl) :
    Steady s ⟨t.pending, regs, mem, t.t, t.era, t.ticks, free, net, bank, sched, out, flt, cl, staged, pcie, ap, mc, lens, chain, sc, cc, port,
      pwr, old⟩ :=
  ⟨⟨h.pending, h.time, h.ticks⟩, h.era, hd.trans h.decision, hp.trans h.por⟩

/-! ### The register fields -/

theorem Steady.set {f : Fld} {i v : Nat} (h : Steady s t) : Steady s (t.set f i v) := h.rest

theorem Steady.inc {f : Fld} {i : Nat} (h : Steady s t) : Steady s (t.inc f i) := h.set

theorem Steady.ite {c : Prop} [Decidable c] {a b : State} (ha : Steady s a) (hb : Steady s b) : Steady s (if c then a else b) := by
  split <;> assumption

theorem Steady.incSat {f : Fld} {i lim : Nat} (h : Steady s t) : Steady s (t.incSat f i lim) := Steady.ite h.set h

/-! ### The branches of a definition -/

theorem Steady.iteSnd {c : Prop} [Decidable c] {a b : α × State} (ha : Steady s a.2) (hb : Steady s b.2) : Steady s (if c then a else b).2 := by
  split <;> assumption

/-- The state beside an answer. -/
theorem Steady.pair {a : α} (h : Steady s t) : Steady s (a, t).2 := h

theorem Steady.pair2 {a : α} {b : β} (h : Steady s t) : Steady s (a, b, t).2.2 := h

/-- The state beside an answer, under the names of a match. -/
theorem Steady.snd {r : α × State} {a : α} (h : Steady s r.2) (e : r = (a, u)) : Steady s u := by subst e; exact h

theorem Steady.eqPair {a b : α} (h : Steady s t) (e : (a, t) = (b, u)) : Steady s u := by cases e; exact h

theorem Steady.snd2 {r : α × β × State} {a : α} {b : β} (h : Steady s r.2.2) (e : r = (a, b, u)) : Steady s u := by subst e; exact h

theorem Steady.foldl {g : State → α → State} {l : List α} (h : Steady s t) (hg : ∀ {u : State} {a : α}, Steady s u → Steady s (g u a)) :
    Steady s (l.foldl g t) := by
  induction l generalizing t with
  | nil => exact h
  | cons a l ih => exact ih (hg h)

/-- A path that the rest of a definition uses in several branches. -/
theorem Steady.bind (h : Steady s t) (k : Steady s t → Steady s u) : Steady s u := k h

theorem Steady.foldlSnd {g : β × State → α → β × State} {l : List α} {r : β × State} (h : Steady s r.2)
    (hg : ∀ {r : β × State} {a : α}, Steady s r.2 → Steady s (g r a).2) : Steady s (l.foldl g r).2 := by
  induction l generalizing r with
  | nil => exact h
  | cons a l ih => exact ih (hg h)

theorem Steady.getD {o : Option State} (h : Steady s t) (ho : ∀ {u : State}, o = some u → Steady s u) : Steady s (o.getD t) := by
  cases o with
  | none => exact h
  | some u => exact ho rfl

theorem Steady.onFabric {c : Nat} {f : State → State} (h : Steady s t) (hf : ∀ {u : State}, Steady s u → Steady s (f u)) :
    Steady s (onFabric c f t) :=
  Steady.ite (hf h) h

theorem Steady.unlessFatal {f : State → State} (h : Steady s t) (hf : ∀ {u : State}, Steady s u → Steady s (f u)) : Steady s (unlessFatal f t) :=
  Steady.ite h (hf h)

/-! ### What the functions of Ops keep -/

theorem Steady.writeByte {a : ℕ} {v : BitVec 8} (h : Steady s t) : Steady s (t.writeByte a v) := h.rest

theorem Steady.writeN {a v n : ℕ} (h : Steady s t) : Steady s (t.writeN a v n) := by
  induction n generalizing t a v with
  | zero => exact h
  | succ n ih => exact ih h.writeByte

theorem Steady.writeSlot {a : ℕ} {v : W} (h : Steady s t) : Steady s (t.writeSlot a v) := h.writeN

theorem Steady.freeVal {w : ℕ} (h : Steady s t) : Steady s (t.freeVal w).2 := h.rest.pair

theorem Steady.msixPut {n : ℕ} (h : Steady s t) : Steady s (msixPut n t) := h.rest

theorem Steady.msixAsk {n : ℕ} (h : Steady s t) : Steady s (msixAsk n t) := Steady.ite h (Steady.ite h.rest (Steady.ite h h.msixPut))

theorem Steady.raiseEvent {n : ℕ} (h : Steady s t) : Steady s (raiseEvent n t) := Steady.ite h.inc (Steady.ite h.inc.set.msixAsk h.inc.set)

theorem Steady.linkEvent (h : Steady s t) : Steady s (linkEvent t) := h.set.raiseEvent

theorem Steady.raiseAtBoundary {n : ℕ} (h : Steady s t) : Steady s (raiseAtBoundary n t) := Steady.ite h h.rest.raiseEvent

theorem Steady.report {kind l detail : ℕ} {part : Option ℕ} {inj : Bool} (h : Steady s t) : Steady s (report kind l detail part inj t) :=
  Steady.ite h h.rest

theorem Steady.reportP {kind l detail p : ℕ} (h : Steady s t) : Steady s (reportP kind l detail p t) := h.report

theorem Steady.reportU {kind l detail : ℕ} (h : Steady s t) : Steady s (reportU kind l detail t) := h.report

theorem Steady.holdFault {kind l detail : ℕ} (h : Steady s t) : Steady s (holdFault kind l detail t) := Steady.ite h h.rest.report

theorem Steady.dropFault {kind l : ℕ} (h : Steady s t) : Steady s (dropFault kind l t) := h.rest

theorem Steady.takeInjection {kinds : List ℕ} {l : ℕ} (h : Steady s t) : Steady s (takeInjection kinds l t).2 := Steady.iteSnd h.set.pair h

theorem Steady.secded {kinds : List ℕ} {l natural : ℕ} (h : Steady s t) : Steady s (secded kinds l natural t).2.2 := by
  unfold Machine.secded
  split
  · rename_i e
    exact (h.takeInjection.snd e).pair2
  · rename_i e
    exact (h.takeInjection.snd e).pair2
  · rename_i e
    exact (h.takeInjection.snd e).pair2
  · rename_i e
    exact (h.takeInjection.snd e).pair2

theorem Steady.setFree {f : Fld} {i : ℕ} (h : Steady s t) : Steady s (t.setFree f i) := (h.freeVal (w := f.w)).set

theorem Steady.setOr {f : Fld} {i : ℕ} {v : Option ℕ} (h : Steady s t) : Steady s (t.setOr f i v) := by
  cases v with
  | none => exact h.setFree
  | some v => exact h.set

theorem Steady.microTrap {c pe cause : ℕ} {tag : W} {v : Saved} (h : Steady s t) : Steady s (microTrap c pe cause tag v t) := by
  unfold Machine.microTrap
  extract_lets i t₁ t₂ t₃ t₄ st
  have h₃ : Steady s t₃ := h.inc.set.set.setOr
  have h₄ : Steady s t₄ := by
    unfold t₄
    split
    · exact h₃.set
    · exact (h₃.freeVal (w := 3)).set
  exact h₄.setOr.setOr.setOr.setOr.setOr.foldl (·.setOr)

theorem Steady.addCnt {p k n : ℕ} (h : Steady s t) : Steady s (addCnt p k n t) := h.rest

theorem Steady.countProd {p ep : ℕ} (h : Steady s t) : Steady s (countProd p ep t) := h.addCnt.addCnt

theorem Steady.countCons {p ep n : ℕ} (h : Steady s t) : Steady s (countCons p ep n t) := h.addCnt.addCnt

theorem Steady.countProg {p : ℕ} (h : Steady s t) : Steady s (countProg p t) := h.addCnt

theorem Steady.violation {c kind : ℕ} {value : W} {sys : Bool} {part init op bank : ℕ} (h : Steady s t) :
    Steady s (violation c kind value sys part init op bank t) :=
  Steady.ite h.inc h.inc.set.set.set.set.set.set.set.set.set

theorem Steady.discardToken {c : ℕ} {tag : W} {silent : Bool} (h : Steady s t) : Steady s (discardToken c tag silent t) :=
  h.violation.countCons.bind fun h3 => (Steady.ite h3 h3.reportP)

/-! ### What the functions of Net keep -/

theorem Steady.noteBreak {p : ℕ} (h : Steady s t) : Steady s (noteBreak p t) := Steady.ite h h.rest

theorem Steady.startTimer {ret : ℕ} {addr : W} {op part : ℕ} {sys : Bool} {extra : ℕ} (h : Steady s t) :
    Steady s (startTimer ret addr op part sys extra t) :=
  h.rest

theorem Steady.deliverRsp {f : Flit} (h : Steady s t) : Steady s (deliverRsp f t) := by
  unfold Machine.deliverRsp
  extract_lets
  split
  · exact Steady.ite h h.inc
  · exact h.rest.bind fun h4 => (Steady.ite (Steady.ite h4 h4.inc) (Steady.ite h4.rest h4.rest))

theorem Steady.reqErr {l : ℕ} {f : Flit} (h : Steady s t) : Steady s (reqErr l f t) := Steady.ite h.reportU h.reportP

theorem Steady.deliverOther {f : Flit} (h : Steady s t) : Steady s (deliverOther f t) := by
  unfold Machine.deliverOther
  refine Steady.ite ?_ ?_
  · exact Steady.ite h.rest h.deliverRsp
  · split <;> exact h.rest

theorem Steady.enterNode {f : Flit} (h : Steady s t) : Steady s (enterNode f t) := by
  unfold Machine.enterNode
  dsimp only
  split
  · exact h.rest
  · exact Steady.ite h.rest (Steady.ite (Steady.ite h.rest h.rest) h.deliverOther)

theorem Steady.discardAt {n : ℕ} {tag : W} (h : Steady s t) : Steady s (discardAt n tag t) := Steady.ite h.discardToken h.countCons.reportP

theorem Steady.holdTimer {f : Flit} (h : Steady s t) : Steady s (holdTimer f t) := Steady.ite h h.rest

theorem Steady.leaveInit {f : Flit} (h : Steady s t) : Steady s (leaveInit f t).2 := Steady.iteSnd h (Steady.iteSnd h h.rest.pair)

theorem Steady.queueInject {f : Flit} (h : Steady s t) : Steady s (queueInject f t) := h.rest.holdTimer

theorem Steady.inject {f : Flit} (h : Steady s t) : Steady s (inject f t) :=
  Steady.ite (Steady.ite h.discardAt (Steady.ite h (Steady.ite h.queueInject h))) (Steady.ite h.enterNode h.queueInject)

theorem Steady.drainNode {n k : ℕ} (h : Steady s t) : Steady s (drainNode n k t) := by
  induction k generalizing t with
  | zero => exact h
  | succ k ih =>
    rw [Machine.drainNode]
    split
    · exact h
    · split
      rename_i e
      exact ih (h.rest.leaveInit.snd e).enterNode.noteBreak

theorem Steady.send {f : Flit} (h : Steady s t) : Steady s (send f t) := h.inject.drainNode

theorem Steady.respond {n ret : ℕ} {poison : Bool} {status : ℕ} {data extra : W} {cls urg : ℕ} (h : Steady s t) :
    Steady s (respond n ret poison status data extra cls urg t) :=
  h.send

theorem Steady.rawOf {f : Flit} {x : ℕ × BitVec 144} (h : Steady s t) : Steady s (rawOf f x t).2 := by
  unfold Machine.rawOf
  split
  rename_i e
  exact (h.freeVal.snd e).pair

theorem Steady.rawsOf {f : Flit} {l : List (ℕ × BitVec 144)} (h : Steady s t) : Steady s (rawsOf f l t).2 := by
  induction l generalizing t with
  | nil => exact h
  | cons x l ih => exact ih (h.rawOf (f := f) (x := x))

theorem Steady.dropFlit {n : ℕ} {raw : BitVec 160} {inj : Bool} (h : Steady s t) : Steady s (dropFlit n raw inj t) :=
  (Steady.ite (Steady.ite h.inc h.inc.set.set.set.set) h).report

theorem Steady.corrFlit {n : ℕ} {inj : Bool} (h : Steady s t) : Steady s (corrFlit n inj t) := (Steady.ite h.inc h).report

theorem Steady.flitChecks {n : ℕ} {f : Flit} {raws : List (BitVec 160)} {errs : List FlitErr} {l : List (ℕ × BitVec 144)} (h : Steady s t) :
    Steady s (flitChecks n f raws errs l t).2 := by
  induction l generalizing t raws errs with
  | nil => exact h
  | cons x l ih =>
    rw [Machine.flitChecks]
    split
    rename_i e
    have h1 := h.secded.snd2 e
    refine ih ?_
    split
    · split
      rename_i e'
      refine Steady.dropFlit (Steady.snd ?_ e')
      split
      · exact h1
      · split
        · exact h1
        · exact h1.rawOf
    · exact Steady.ite h1.corrFlit h1

/-! ### What the functions of Operands keep -/

theorem Steady.emitToken {c pe : ℕ} {t' : Token} (h : Steady s t) : Steady s (emitToken c pe t' t) :=
  h.countProd.bind fun h2 => (Steady.ite h2.rest h2.send)

theorem Steady.emitTo {c pe : ℕ} {base : W} {ctx : ℕ} {due data : W} {poison : Bool} {d : ℕ} (h : Steady s t) :
    Steady s (emitTo c pe base ctx due data poison d t) := by
  unfold Machine.emitTo
  refine Steady.ite ?_ ?_
  · exact h
  · split
    · exact h.emitToken
    · exact h

theorem Steady.emitAll {c pe : ℕ} {base : W} {ctx : ℕ} {due data : W} {poison : Bool} {ds : List ℕ} (h : Steady s t) :
    Steady s (emitAll c pe base ctx due data poison ds t) :=
  h.foldl (·.emitTo)

/-! ### What the functions of Match keep -/

theorem Steady.setWay {c e : ℕ} {t' : Option Token} (h : Steady s t) : Steady s (t.setWay c e t') := h.rest

theorem Steady.putWord {b w : ℕ} {v : W} (h : Steady s t) : Steady s (t.putWord b w v) := h.writeSlot.rest

theorem Steady.readCheckFor {part : Option ℕ} {b w natural : ℕ} (h : Steady s t) : Steady s (readCheckFor part b w natural t).2 := by
  unfold Machine.readCheckFor
  extract_lets
  split
  rename_i e
  have h1 := (h.secded.snd2 e)
  exact Steady.iteSnd h1.pair (Steady.iteSnd h1.inc.rest.report.pair (h1.inc.set.bind fun h6 => (Steady.ite h6 h6.rest).report.pair))

theorem Steady.readCheck {b w natural : ℕ} (h : Steady s t) : Steady s (readCheck b w natural t).2 := h.readCheckFor

theorem Steady.putRec {c r k : ℕ} {v : W} (h : Steady s t) : Steady s (t.putRec c r k v) := h.putWord

theorem Steady.setControl {c r : ℕ} {poison enabled : Bool} {next : Option ℕ} (h : Steady s t) : Steady s (t.setControl c r poison enabled next) :=
  h.putRec

theorem Steady.writeLinks {c : ℕ} {ch : List ℕ} (h : Steady s t) : Steady s (t.writeLinks c ch) := by
  induction ch generalizing t with
  | nil => exact h
  | cons r rs ih => exact ih h.setControl

theorem Steady.setChain {c set : ℕ} {ch : List ℕ} (h : Steady s t) : Steady s (t.setChain c set ch) := h.rest.writeLinks

theorem Steady.freeRec {c r : ℕ} (h : Steady s t) : Steady s (t.freeRec c r) := h.rest.putRec

theorem Steady.upMarks {c : ℕ} (h : Steady s t) : Steady s (t.upMarks c) := h.set.set.set

theorem Steady.clearMarks {c : ℕ} (h : Steady s t) : Steady s (t.clearMarks c) := h.set.set.set

theorem Steady.freeSlot {x : Slot} (h : Steady s t) : Steady s (t.freeSlot x) := h.rest

theorem Steady.enableInstance {c pe : ℕ} {tag : W} {ops : List (ℕ × SlotOp)} {w : ℕ} (h : Steady s t) : Steady s (enableInstance c pe tag ops w t) :=
  h.rest

theorem Steady.takeCand {c : ℕ} {x : Cand} (h : Steady s t) : Steady s (takeCand c x t) := by
  unfold Machine.takeCand
  split
  · exact h.rest
  · exact h.rest
  · exact h.setWay
  · exact h.setChain.freeRec

theorem Steady.asRead {inj : Bool} {v w : ℕ} (h : Steady s t) : Steady s (asRead inj v w t).2 := by
  unfold Machine.asRead
  refine Steady.iteSnd ?_ ?_
  · exact h
  · split
    rename_i e
    exact (h.freeVal.snd e).pair

theorem Steady.checkWay {c e natural : ℕ} (h : Steady s t) : Steady s (checkWay c e natural t) := by
  unfold Machine.checkWay
  split
  · exact h
  · split
    rename_i e1
    have h3 := (h.secded.snd2 e1)
    refine Steady.ite ?_ ?_
    · exact h3
    · refine Steady.ite ?_ ?_
      · exact h3.report
      · refine Steady.ite ?_ ?_
        · exact h3.setWay.countCons.report
        · split
          rename_i e2
          split
          rename_i e3
          split
          rename_i e4
          split
          rename_i e5
          exact ((((h3.setWay.countCons.report.asRead.snd e2).asRead.snd e3).asRead.snd e4).asRead.snd e5).set.set.set.set.set.set.set

theorem Steady.spillInsert {c : ℕ} {x : Token} (h : Steady s t) (e : spillInsert c x t = some u) : Steady s u := by
  unfold Machine.spillInsert at e
  split at e
  · cases e
  · split at e
    · cases e
    · cases e
      exact h.putRec.putRec.putRec.setControl.rest.setChain.upMarks

theorem Steady.beginHold {c : ℕ} {f : Fld} (h : Steady s t) : Steady s (beginHold c f t) := (h.set).inc.raiseEvent

theorem Steady.storeToken {c pe : ℕ} {t' : Token} (h : Steady s t) : Steady s (storeToken c pe t' t).2 := by
  unfold Machine.storeToken
  extract_lets
  split
  · exact h.setWay.upMarks.pair
  · split
    · rename_i e1
      exact (h.spillInsert e1).pair
    · exact (Steady.ite h.rest h.rest.beginHold).pair

theorem Steady.abandonChain {c set ep : ℕ} (h : Steady s t) : Steady s (abandonChain c set ep t) := h.rest.countCons

theorem Steady.recordSound {c r : ℕ} {nat : ℕ → ℕ} (h : Steady s t) : Steady s (recordSound c r nat t).2 := by
  unfold Machine.recordSound
  extract_lets
  split
  rename_i e
  have h1 := (h.readCheckFor.snd e)
  refine Steady.iteSnd ?_ ?_
  · exact h1.pair
  · split
    rename_i e1
    have h2 := (h1.readCheckFor.snd e1)
    refine Steady.iteSnd ?_ ?_
    · exact h2.pair
    · split
      rename_i e2
      exact (h2.readCheckFor.snd e2).pair

theorem Steady.walkChain {c k : ℕ} {err : Option RecordErr} {rs : List ℕ} (h : Steady s t) : Steady s (walkChain c err k rs t).2 := by
  induction rs generalizing t k with
  | nil => unfold Machine.walkChain; exact h
  | cons r rs ih =>
    unfold Machine.walkChain
    split
    · rename_i e
      exact ih (h.recordSound.snd e)
    · rename_i e
      exact h.recordSound.snd e

theorem Steady.lookup {c pe : ℕ} {x : Token} {w mask : ℕ} {err : LookupErr} (h : Steady s t) : Steady s (lookup c pe x w mask err t).2 := by
  unfold Machine.lookup
  extract_lets port set key single t₁ t₂ t₃ t₄ dupWay others
  have h₄ : Steady s t₄ := h.checkWay.checkWay.checkWay.checkWay
  refine Steady.iteSnd h.enableInstance.pair (Steady.iteSnd h₄.discardToken.pair ?_)
  split
  rename_i e
  extract_lets t₅ chain dupRec found ops recs t₆ t₇ t₈
  have h₅ : Steady s t₅ := Steady.ite (h₄.walkChain.snd e) (h₄.walkChain.snd e).abandonChain
  have h₆ : Steady s t₆ := h₅.foldl fun h => by
    split
    · exact h.setWay
    · exact h
  have h₇ : Steady s t₇ := Steady.ite h₆ h₆.setChain
  have h₈ : Steady s t₈ := h₇.foldl (·.setControl)
  exact Steady.iteSnd h₅.discardToken.pair (Steady.iteSnd h₈.enableInstance.pair h₅.storeToken)

theorem Steady.forwardToken {c : ℕ} {t' : Token} (h : Steady s t) : Steady s (forwardToken c t' t) := h.inc.send

theorem Steady.acceptToken {c pe : ℕ} {x : Token} {err : LookupErr} (h : Steady s t) : Steady s (acceptToken c pe x err t).2 := by
  unfold Machine.acceptToken
  extract_lets
  refine Steady.iteSnd h.discardToken.pair (Steady.iteSnd h.discardToken.pair (Steady.iteSnd h.discardToken.pair ?_))
  refine Steady.iteSnd h.countCons.pair (Steady.iteSnd h.countCons.pair (Steady.iteSnd h.forwardToken.countProg.pair ?_))
  refine Steady.iteSnd h.discardToken.pair ?_
  split
  rename_i e
  have h1 := h.lookup.snd e
  exact (Steady.ite h1.countProg h1).pair

theorem Steady.readCand {c : ℕ} {x : Cand} {err : LookupErr} (h : Steady s t) : Steady s (readCand c x err t).2 := by
  unfold Machine.readCand
  split
  · exact h.checkWay.pair
  · split
    · rename_i e1
      exact (h.recordSound.snd e1).abandonChain.pair
    · rename_i e1
      split
      rename_i e2
      have h6 := ((h.recordSound.snd e1).readCheckFor.snd e2)
      exact Steady.iteSnd h6.pair h6.pair
  · exact h

theorem Steady.endSlotHold {k : ℕ} (h : Steady s t) : Steady s (endSlotHold k t) := Steady.ite h.rest h

theorem Steady.endSpillHold {k : ℕ} (h : Steady s t) : Steady s (endSpillHold k t) := Steady.ite h.rest.noteBreak h

theorem Steady.tokenAccept {c pe : ℕ} {err : LookupErr} (h : Steady s t) : Steady s (tokenAccept c pe err t) := by
  unfold Machine.tokenAccept
  refine Steady.ite h (Steady.ite h ?_)
  have h1 : Steady s (Machine.endSpillHold (c * 16 + pe) t) := h.endSpillHold
  extract_lets
  split
  · exact h1.endSlotHold
  · refine Steady.ite (Steady.ite h1 h1.rest.beginHold) ?_
    split
    · rename_i e
      exact h1.endSlotHold.readCand.snd e
    · rename_i e
      split
      rename_i e'
      have h2 := (h1.endSlotHold.readCand.snd e).acceptToken.snd e'
      exact Steady.ite h2 h2.takeCand.drainNode

theorem Steady.spillRetry {c pe : ℕ} (h : Steady s t) : Steady s (spillRetry c pe t) := by
  unfold Machine.spillRetry
  split
  · exact h
  · refine Steady.ite ?_ ?_
    · exact h
    · split
      · exact h
      · rename_i e1
        have h4 := (h.spillInsert e1)
        extract_lets
        split
        · exact h4.rest.countProg.takeCand.drainNode
        · exact h4.rest.countProg

/-! ### What the functions of Banks keep -/

theorem Steady.setPresent {b w : ℕ} {v : Bool} (h : Steady s t) : Steady s (t.setPresent b w v) := h.rest

theorem Steady.setDefer {b : ℕ} {l : List Defer} (h : Steady s t) : Steady s (t.setDefer b l) := h.rest

theorem Steady.initBank {b : ℕ} (h : Steady s t) : Steady s (initBank b t) := h.rest

theorem Steady.failAccess {b kind : ℕ} {a : W} {sys : Bool} {part init op : ℕ} (h : Steady s t) : Steady s (failAccess b kind a sys part init op t) :=
  h.violation.report

theorem Steady.answerWaiters {b w : ℕ} {v : W} (h : Steady s t) : Steady s (answerWaiters b w v t) := Steady.ite h.rest h

theorem Steady.lostPresence {b w err : ℕ} (h : Steady s t) : Steady s (lostPresence b w err t) := Steady.ite h.inc.set.report.setPresent h

theorem Steady.bankEffect {b : ℕ} {r : BReq} {err : ℕ} (h : Steady s t) : Steady s (bankEffect b r err t).2 := by
  unfold Machine.bankEffect
  extract_lets
  split
  · split
    rename_i e1
    have h2 := (h.readCheck.snd e1)
    exact Steady.iteSnd h2.pair h2.pair
  · exact h.lostPresence.putWord.pair
  · split
    rename_i e1
    have h5 := (h.readCheck.snd e1)
    exact Steady.iteSnd h5.pair (Steady.iteSnd h5.pair (Steady.iteSnd h5.set.report.pair h5.setDefer.pair))
  · exact Steady.iteSnd h.inc.set.report.putWord.setPresent.answerWaiters.pair (Steady.iteSnd h.report.pair h.putWord.setPresent.answerWaiters.pair)
  · exact (Steady.ite h.inc.set.report.putWord h).setPresent.pair
  · split
    rename_i e1
    have h14 := (h.readCheck.snd e1)
    exact Steady.iteSnd h14.pair h14.putWord.pair
  · split
    rename_i e1
    exact (h.readCheck.snd e1).putWord.bind fun h18 => (Steady.iteSnd h18.pair h18.pair)
  · exact h

theorem Steady.bankRead {b : ℕ} {full : Bool} {a err : ℕ} (h : Steady s t) : Steady s (bankRead b full a err t).2 := by
  unfold Machine.bankRead
  extract_lets
  split
  rename_i e
  have h1 := (h.readCheck.snd e)
  exact Steady.iteSnd h1.pair h1.pair

theorem Steady.bankWrite {b : ℕ} {full : Bool} {a v err : ℕ} (h : Steady s t) : Steady s (bankWrite b full a v err t) := h.lostPresence.putWord

theorem Steady.bankWords {init err c o : ℕ} {own : Option ℕ} {ws : List W} (h : Steady s t) : Steady s (bankWords init err c own o ws t).2 := by
  induction ws generalizing t o with
  | nil => exact h
  | cons v vs ih =>
    rw [Machine.bankWords]
    refine ih ?_
    split
    · exact h
    · split
      · exact h.failAccess
      · exact h.bankWrite

theorem Steady.bankSystem {b init : ℕ} {r : BReq} {err : ℕ} (h : Steady s t) : Steady s (bankSystem b init r err t).2 := by
  unfold Machine.bankSystem
  refine Steady.iteSnd ?_ ?_
  · exact h
  · refine Steady.iteSnd ?_ ?_
    · exact h.bankRead
    · refine Steady.iteSnd ?_ ?_
      · exact h.bankWrite.pair
      · extract_lets
        split
        rename_i e
        exact (h.bankWrite.bankWords.snd e).pair

theorem Steady.bankAnswer {b : ℕ} {r : BReq} {a : BankAns} (h : Steady s t) : Steady s (bankAnswer b r a t) := by
  unfold Machine.bankAnswer
  split
  split
  · exact h.deliverRsp
  · exact h.respond

theorem Steady.bankIssue {b : ℕ} {r : BReq} {err : ℕ} (h : Steady s t) : Steady s (bankIssue b r err t) := by
  unfold Machine.bankIssue
  refine Steady.ite ?_ ?_
  · exact (Steady.ite h.reportU h.reportP).bankAnswer
  · split
    · exact (Steady.ite h h.failAccess).bankAnswer
    · split
      rename_i e1
      exact ((Steady.iteSnd h.bankSystem h.bankEffect).snd e1).bankAnswer

theorem Steady.refillBank {b n : ℕ} (h : Steady s t) : Steady s (refillBank b n t) := by
  induction n generalizing t with
  | zero => exact h
  | succ n ih =>
    rw [Machine.refillBank]
    refine Steady.ite h ?_
    split
    · exact h
    · exact ih h.rest

theorem Steady.sendAnswer {b : ℕ} {d : Defer} {poison : Bool} {v : W} (h : Steady s t) : Steady s (sendAnswer b d poison v t) :=
  Steady.ite h.rest h.send

theorem Steady.deferredReadAnswer {b : ℕ} (h : Steady s t) : Steady s (deferredReadAnswer b t) := by
  unfold Machine.deferredReadAnswer
  split
  · exact h
  · split
    · exact h.rest
    · exact (Steady.ite h.setDefer h.setDefer.rest).sendAnswer

theorem Steady.scrub {b err : ℕ} (h : Steady s t) : Steady s (scrub b err t) := by
  unfold Machine.scrub
  refine Steady.ite ?_ ?_
  · extract_lets
    split
    rename_i e
    exact (h.readCheck.snd e).rest
  · exact h

theorem Steady.correctedWriteback {b : ℕ} (h : Steady s t) : Steady s (correctedWriteback b t) := by
  unfold Machine.correctedWriteback
  split
  · exact h
  · exact h.putWord

theorem Steady.failQueue {b : ℕ} (h : Steady s t) : Steady s (failQueue b t) := (h.rest.foldl (·.failAccess.bankAnswer)).refillBank

theorem Steady.bankOwnWrite {init b : ℕ} {owner : Option ℕ} {clr : Bool} (h : Steady s t) : Steady s (bankOwnWrite init b owner clr t).2 := by
  unfold Machine.bankOwnWrite
  refine Steady.iteSnd ?_ ?_
  · exact h
  · split
    · exact h
    · exact Steady.iteSnd h (Steady.iteSnd h h.set.rest.setDefer.pair)

theorem Steady.handoverComplete {b : ℕ} (h : Steady s t) : Steady s (handoverComplete b t) := by
  unfold Machine.handoverComplete
  split
  · exact h
  · exact Steady.ite h (Steady.ite h.initBank h).rest.setDefer.set.set

theorem Steady.startMove {b target : ℕ} (h : Steady s t) : Steady s (startMove b target t) := Steady.ite h.rest.set.failQueue h.rest.set

theorem Steady.bankPwrWrite {b st : ℕ} (h : Steady s t) : Steady s (bankPwrWrite b st t).2 :=
  Steady.iteSnd h (Steady.iteSnd h (Steady.iteSnd h (Steady.iteSnd h.set.pair h.set.startMove.pair)))

theorem Steady.powerMoveComplete {b : ℕ} (h : Steady s t) : Steady s (powerMoveComplete b t) := by
  unfold Machine.powerMoveComplete
  split
  · exact h
  · exact (Steady.ite h.initBank h).rest.set.set.bind fun h6 => (Steady.ite h6 h6.startMove)

theorem Steady.takeOffline {b : ℕ} (h : Steady s t) : Steady s (takeOffline b t) :=
  Steady.ite h (h.setDefer.set.set.set.set.rest.failQueue.foldl (·.sendAnswer)).rest

/-! ### What the functions of Partition keep -/

theorem Steady.countClusters {p : ℕ} (h : Steady s t) : Steady s (countClusters p t) := h.set

theorem Steady.releaseCluster {p c : ℕ} (h : Steady s t) : Steady s (releaseCluster p c t) := h.rest.set.set.noteBreak

theorem Steady.giveUpCluster {p c : ℕ} (h : Steady s t) : Steady s (giveUpCluster p c t) := Steady.ite h.rest.set h.releaseCluster

theorem Steady.markLost {p reason : ℕ} (h : Steady s t) : Steady s (markLost p reason t) := h.set.set.raiseEvent

theorem Steady.suspend {p : ℕ} (h : Steady s t) : Steady s (suspend p t) := Steady.ite h.rest.set.markLost h.rest

theorem Steady.discardHeld {o : OutVal} (h : Steady s t) : Steady s (discardHeld o t) := Steady.ite h.respond h

theorem Steady.discardHeldIf {p : OutVal → Bool} (h : Steady s t) : Steady s (discardHeldIf p t) := h.rest.foldl (·.discardHeld)

theorem Steady.dropReclaim {p : ℕ} (h : Steady s t) : Steady s (dropReclaim p t) := h.rest.set

theorem Steady.stopPartition {p : ℕ} (h : Steady s t) : Steady s (stopPartition p t) := h.dropReclaim.set.set.discardHeldIf

theorem Steady.haltPartition {p : ℕ} (h : Steady s t) : Steady s (haltPartition p t) := (Steady.ite h.markLost h.set).stopPartition

theorem Steady.removeWork {p : ℕ} {cond : W → Bool} (h : Steady s t) : Steady s (removeWork p cond t).2 := by
  unfold Machine.removeWork
  extract_lets cs mine ways recs slots waits banks defers t₁ t₂ t₃ src t₄ t₅ n
  have h₁ : Steady s t₁ := h.foldl (·.setWay.countCons)
  have h₂ : Steady s t₂ := h₁.foldl (·.countCons.setChain.freeRec)
  have h₃ : Steady s t₃ := h₂.foldl fun h => (h.countCons.foldl (·.freeRec)).freeSlot
  have h₅ : Steady s t₅ := h₃.rest.foldl (·.setDefer)
  exact h₅.noteBreak.pair

theorem Steady.sourceRate {id p : ℕ} (h : Steady s t) : Steady s (sourceRate id p t) := by
  unfold Machine.sourceRate
  split
  · exact h
  · exact Steady.ite h.rest.report h.rest

/-! ### What the functions of Graph keep -/

theorem Steady.setSticky {p : ℕ} {st : Stk} (h : Steady s t) : Steady s (setSticky p st t) := by
  have one {k : ℕ} {f : Fld} {u : State} (h : Steady s u) :
      Steady s (if st.toNat / 2 ^ k % 2 = 1 then u.set f p 1 else u) := Steady.ite (h.set) h
  exact one (one (one (one (one (one (one h))))))

theorem Steady.lateFiring {c : ℕ} {tag due : W} (h : Steady s t) : Steady s (lateFiring c tag due t) := Steady.ite h.inc h.inc.set.set.set.set

theorem Steady.readRecord {c pe r err : ℕ} {tag : W} (h : Steady s t) : Steady s (readRecord c pe r err tag t).2 := by
  unfold Machine.readRecord
  extract_lets
  split
  rename_i e
  refine Steady.iteSnd ?_ ?_ <;> exact (h.readCheck.snd e).freeRec.microTrap.pair

theorem Steady.readPort {c pe : ℕ} {tag : W} {w bit : ℕ} {o : Option SlotOp} {err : ℕ} (h : Steady s t) :
    Steady s (readPort c pe tag w bit o err t).2 := by
  unfold Machine.readPort
  split
  · split
    · exact h.readRecord
    · exact h
  · exact h

theorem Steady.emit {f : Firing} {v : W} {poison : Bool} {ds : List ℕ} (h : Steady s t) : Steady s (f.emit v poison ds t) := h.emitAll

theorem Steady.illegal {f : Firing} (h : Steady s t) : Steady s (illegal f t) := h.emit.reportP

theorem Steady.machineCheck {f : Firing} {upc : ℕ} {disp nested inj : Bool} {groups : Option ℕ} {ds : List ℕ} (h : Steady s t) :
    Steady s (machineCheck f upc disp nested inj groups ds t) := by
  unfold Machine.machineCheck
  extract_lets _ t₁ t₂ t₃ t₄ t₅ t₆ t₇ _ t₈
  have h₃ : Steady s t₃ := (h.emit.foldl (·.set)).set.inc
  have h₇ : Steady s t₇ := (Steady.ite h₃ h₃.set.set.set.setOr.set).set
  have h₈ : Steady s t₈ := h₇.rest
  exact h₈.report.suspend

theorem Steady.discardSlot {x : Slot} {inj : Bool} (h : Steady s t) : Steady s (discardSlot x inj t) :=
  (h.freeSlot.foldl (·.freeRec)).countCons.report.noteBreak

theorem Steady.runHandler {e : PassErr} {cause : ℕ} {f : Firing} {ds : List ℕ} (h : Steady s t) : Steady s (runHandler e cause f ds t) := by
  unfold Machine.runHandler
  split
  · exact h.machineCheck
  · exact h

theorem Steady.arithmetic {e : PassErr} {f : Firing} {st : Stk} (h : Steady s t) : Steady s (arithmetic e f st t) :=
  h.setSticky.bind fun h2 => (Steady.ite h2.microTrap.raiseEvent.runHandler h2)

theorem Steady.stdPass {c : ℕ} {e : PassErr} (h : Steady s t) : Steady s (stdPass c e t).2 := by
  unfold Machine.stdPass
  split
  · rename_i e
    split
    rename_i e1
    exact ((h.takeInjection.snd e).freeVal.snd e1).pair
  · rename_i e
    exact (h.takeInjection.snd e).pair

theorem Steady.stdGoOn {e : PassErr} {f : Firing} {ds : List ℕ} {k : State → State} (h : Steady s t)
    (hk : ∀ {u : State}, Steady s u → Steady s (k u)) :
    Steady s (stdGoOn e f ds k t) := by
  unfold Machine.stdGoOn
  split
  · rename_i e
    exact (h.stdPass.snd e).machineCheck
  · rename_i e
    exact hk (h.stdPass.snd e)

theorem Steady.handlerTrap {f : Firing} {cause : ℕ} (h : Steady s t) : Steady s (handlerTrap f cause t) := h.microTrap

theorem Steady.beginFire {x : Slot} {w : ℕ} {err : FireErr} (h : Steady s t) : Steady s (beginFire x w err t).2 := by
  unfold Machine.beginFire
  extract_lets c pe p held
  split
  rename_i e
  have h₀ := h.secded.snd2 e
  refine Steady.iteSnd h₀.discardSlot.pair ?_
  extract_lets t₁ t₂ t₃
  have h₃ : Steady s t₃ := (Steady.ite h₀.report h₀).freeSlot.countCons.countProg
  split
  extract_lets ended
  have hend {g : State → State} (hg : ∀ {u : State}, Steady s u → Steady s (g u)) : Steady s (ended g).2 :=
    hg ((Steady.ite h₃.lateFiring h₃).foldl (·.freeRec))
  clear_value ended
  refine Steady.iteSnd (hend (·.illegal)) (Steady.iteSnd (hend (·.machineCheck)) (Steady.iteSnd (hend (·.illegal)) ?_))
  extract_lets
  split
  rename_i e'
  have h₄ := h₃.takeInjection.snd e'
  extract_lets inj fails check
  have hcheck {f : Firing} {n : ℕ} {u : State} (h : Steady s u) : Steady s (check f n u) := h.machineCheck
  clear_value check
  split
  · exact hend fun h => hcheck h.handlerTrap
  · split
    rename_i el
    split
    rename_i er
    split
    rename_i eg
    have h₅ := ((h₄.readPort.snd el).readPort.snd er).readPort.snd eg
    split
    extract_lets t₆
    have h₆ : Steady s t₆ := Steady.ite h₅.lateFiring h₅
    refine Steady.iteSnd ?_ (Steady.iteSnd (hcheck h₆).pair (Steady.iteSnd h₆.pair ?_))
    · split
      · exact (hcheck h₆.handlerTrap).pair
      · exact h₆.pair
    · split
      · exact h₆.machineCheck.pair
      · exact h₆.pair

theorem Steady.poisonTrap {f : Firing} (h : Steady s t) : Steady s (poisonTrap f t) := h.handlerTrap

theorem Steady.poisonOut {f : Firing} {cause : W} {ds : List ℕ} (h : Steady s t) : Steady s (poisonOut f cause ds t) := h.poisonTrap.emit

theorem Steady.fireWith {cls : OpClass} {c pe : ℕ} {err : FireErr} {body : Firing → State → State} (h : Steady s t)
    (hbody : ∀ {y : Firing} {u : State}, Steady s u → Steady s (body y u)) :
    Steady s (fireWith cls c pe err body t) := by
  unfold Machine.fireWith
  refine Steady.ite ?_ ?_
  · exact h
  · split
    · exact h
    · refine Steady.ite ?_ ?_
      · exact h
      · split
        · rename_i e1
          exact h.beginFire.snd e1
        · rename_i e1
          exact hbody (h.beginFire.snd e1)

theorem Steady.computeBody {e : PassErr} {f : Firing} (h : Steady s t) : Steady s (computeBody e f t) := by
  unfold Machine.computeBody
  split
  · exact h.poisonOut
  · split
    · exact h.emit.arithmetic
    · exact h

theorem Steady.passOn {f : Firing} {v : W × Bool} {ds : List ℕ} (h : Steady s t) : Steady s (passOn f v ds t) := Steady.ite h.poisonOut h.emit

theorem Steady.switchBody {f : Firing} (h : Steady s t) : Steady s (switchBody f t) := Steady.ite h.poisonOut h.passOn

theorem Steady.mergeBody {arrived : Bool} {f : Firing} (h : Steady s t) : Steady s (mergeBody arrived f t) := h.passOn

theorem Steady.gateBody {f : Firing} (h : Steady s t) : Steady s (gateBody f t) :=
  Steady.ite h.poisonOut (Steady.ite h.passOn (Steady.ite h.poisonTrap h))

theorem Steady.selBody {f : Firing} (h : Steady s t) : Steady s (selBody f t) := by
  unfold Machine.selBody
  extract_lets
  split
  · exact h.emit
  · exact Steady.ite h.poisonOut h.poisonTrap.emit

theorem Steady.constBody {f : Firing} (h : Steady s t) : Steady s (constBody f t) := h.passOn

theorem Steady.sinkBody {f : Firing} (h : Steady s t) : Steady s (sinkBody f t) := Steady.ite h.poisonTrap h

theorem Steady.prismBody {f : Firing} (h : Steady s t) : Steady s (prismBody f t) := h.passOn

theorem Steady.linkBody {f : Firing} (h : Steady s t) : Steady s (linkBody f t) := h.passOn

theorem Steady.nowBody {f : Firing} (h : Steady s t) : Steady s (nowBody f t) := h.passOn

theorem Steady.dueBody {f : Firing} (h : Steady s t) : Steady s (dueBody f t) := h.passOn

theorem Steady.tightenBody {f : Firing} (h : Steady s t) : Steady s (tightenBody f t) := h.passOn

theorem Steady.nextBody {f : Firing} (h : Steady s t) : Steady s (nextBody f t) := (Steady.ite h.poisonTrap h).emitAll

theorem Steady.allocBody {f : Firing} (h : Steady s t) : Steady s (allocBody f t) := by
  unfold Machine.allocBody
  split
  · exact h.poisonOut
  · extract_lets
    split
    · exact h.emit.reportP
    · exact h.rest

theorem Steady.freeBody {f : Firing} (h : Steady s t) : Steady s (freeBody f t) := by
  unfold Machine.freeBody
  split
  · exact h.poisonTrap
  · refine Steady.ite ?_ ?_
    · exact h.reportP
    · split
      · exact h.reportP
      · exact h.send

theorem Steady.retBody {f : Firing} (h : Steady s t) : Steady s (retBody f t) := by
  unfold Machine.retBody
  refine Steady.ite ?_ ?_
  · exact h.poisonTrap
  · extract_lets
    split
    · exact (Steady.ite h.poisonTrap h).reportP
    · exact (Steady.ite h.poisonTrap h).emitToken

theorem Steady.holdSeq {f : Firing} {m : Option MicroSt} (h : Steady s t) : Steady s (holdSeq f m t) := h.rest

theorem Steady.allocGrant {r p q : ℕ} {e : PassErr} (h : Steady s t) : Steady s (allocGrant r p q e t) := by
  unfold Machine.allocGrant
  extract_lets
  split
  · exact Steady.ite h (h.rest.set.countProg.stdGoOn (·.emitTo))
  · exact h

theorem Steady.applyRelease {p ctx g c : ℕ} (h : Steady s t) : Steady s (applyRelease p ctx g c t) := by
  unfold Machine.applyRelease
  extract_lets
  split
  · exact h.reportP
  · exact Steady.ite h.reportP h.rest

theorem Steady.releaseStep (h : Steady s t) : Steady s (releaseStep t) := by
  unfold Machine.releaseStep
  split
  · exact h
  · exact Steady.ite h.rest.reqErr h.rest.applyRelease

theorem Steady.parkFiring {f : Firing} {e : ℕ} {addr : W} (h : Steady s t) : Steady s (parkFiring f e addr t) := h.rest

theorem Steady.bankRequest {c pe op : ℕ} {tag due a d : W} {ret : ℕ} (h : Steady s t) : Steady s (bankRequest c pe op tag due a d ret t) :=
  h.startTimer.bind fun h2 => (Steady.ite h2.rest h2.send)

theorem Steady.bankBody {op : ℕ} {f : Firing} (h : Steady s t) (e : bankBody op f t = some u) : Steady s u := by
  unfold Machine.bankBody at e
  split at e
  · cases e
    exact h.poisonOut
  · dsimp only at e
    split at e
    · cases e
      exact h.emit.reportP
    · obtain ⟨p, -, rfl⟩ := Option.map_eq_some_iff.1 e
      exact h.parkFiring.bankRequest

theorem Steady.fireParking {cls : OpClass} {c pe : ℕ} {err : FireErr} {body : Firing → State → Option State} (h : Steady s t)
    (hbody : ∀ {f : Firing} {u v : State}, Steady s u → body f u = some v → Steady s v) : Steady s (fireParking cls c pe err body t) := by
  unfold Machine.fireParking
  split
  · exact Steady.ite h (Steady.ite h.rest (h.rest.stdGoOn fun h => h.getD (hbody h)))
  · refine Steady.ite h ?_
    split
    · exact h
    · refine Steady.ite h ?_
      split
      · rename_i e
        exact h.beginFire.snd e
      · rename_i e
        exact (h.beginFire.snd e).holdSeq.getD (hbody (h.beginFire.snd e))

theorem Steady.lensBody {timeAt : Bool} {f : Firing} (h : Steady s t) (e : lensBody timeAt f t = some u) : Steady s u := by
  unfold Machine.lensBody at e
  split at e
  · cases e
    exact h.poisonOut
  · obtain ⟨p, -, rfl⟩ := Option.map_eq_some_iff.1 e
    exact h.parkFiring.startTimer.send

theorem Steady.outBody {emitAt : Bool} {f : Firing} (h : Steady s t) (e : outBody emitAt f t = some u) : Steady s u := by
  unfold Machine.outBody at e
  split at e
  · cases e
    exact h.poisonOut
  · obtain ⟨p, -, rfl⟩ := Option.map_eq_some_iff.1 e
    exact (Steady.ite h.parkFiring.startTimer h).send

/-! ### What the functions of Micro keep -/

theorem Steady.uRead {f : Firing} {m : MicroSt} {w code : ℕ} (h : Steady s t) : Steady s (uRead f m w code t).2 := by
  unfold Machine.uRead
  split
  · exact h
  · exact h.freeVal

theorem Steady.freeBool (h : Steady s t) : Steady s (freeBool t).2 := by
  unfold Machine.freeBool
  split
  rename_i e
  exact (h.freeVal.snd e).pair

theorem Steady.orFree {o : Option Bool} (h : Steady s t) : Steady s (orFree o t).2 := by
  unfold Machine.orFree
  split
  · exact h
  · exact h.freeBool

theorem Steady.uCondition {f : Firing} {m : MicroSt} {w : ℕ} {alu : Option AR} {carry ovf : Option Bool} {unit : Option AR} (h : Steady s t) :
    Steady s (uCondition f m w alu carry ovf unit t).2 := by
  unfold Machine.uCondition
  split
  · exact h
  · exact h.orFree
  · exact h.orFree
  · exact h.orFree
  · exact h.orFree
  · split
    rename_i e1
    exact (h.uRead.snd e1).pair
  · exact h.orFree
  · exact h.orFree
  · exact h.orFree

theorem Steady.uEmitTo {f : Firing} {m : MicroSt} {v : W} {poison : Bool} {ds : List (ℕ × ℕ)} (h : Steady s t) :
    Steady s (uEmitTo f m v poison ds t).2 :=
  h.emit.pair

theorem Steady.uToken {f : Firing} {m : MicroSt} {w : ℕ} {res : Option W} (h : Steady s t) : Steady s (uToken f m w res t).2 := by
  unfold Machine.uToken
  split
  · refine Steady.iteSnd ?_ h.uRead.pair
    split
    · exact h
    · exact (h.freeVal (w := 48)).pair
  · split
    · exact h
    · exact h
    · exact (h.freeVal (w := 48)).pair
  · split
    rename_i e
    refine Steady.snd ?_ e
    split
    · exact h
    · exact (h.freeVal (w := 48)).pair

theorem Steady.uEmission {f : Firing} {m : MicroSt} {w : ℕ} {res : Option W} (h : Steady s t) : Steady s (uEmission f m w res t).2 := by
  unfold Machine.uEmission
  refine Steady.iteSnd ?_ ?_
  · exact h
  · split
    rename_i e
    exact (h.uToken.snd e).uEmitTo

theorem Steady.parkUser {f : Firing} {m : MicroSt} {e : ℕ} {addr : W} {detached : Bool} (h : Steady s t) : Steady s (parkUser f m e addr detached t) :=
  h.rest

theorem Steady.uSend {fl : Flit} {f : Firing} {ret : ℕ} {a : W} {op : ℕ} (h : Steady s t) : Steady s (uSend fl f ret a op t) := h.startTimer.send

theorem Steady.uRequest {f : Firing} {m : MicroSt} {w : ℕ} {q d : W} {r : UReq} (h : Steady s t) (e : uRequest f m w q d t = some (r, u)) :
    Steady s u := by
  unfold Machine.uRequest at e
  extract_lets n wait urg sent at e
  split at e
  · cases e
    exact h
  · split at e
    · split at e
      · cases e
        exact h.reportP
      · obtain ⟨p, -, e⟩ := Option.map_eq_some_iff.1 e
        exact h.parkUser.bankRequest.eqPair e
    · split at e
      · split at e
        · cases e
          exact h.reportP
        · obtain ⟨p, -, e⟩ := Option.map_eq_some_iff.1 e
          exact h.parkUser.uSend.eqPair e
      · split at e
        · cases e
          exact h.reportP
        · obtain ⟨p, -, e⟩ := Option.map_eq_some_iff.1 e
          exact (Steady.ite h.parkUser.uSend h.send).eqPair e

theorem Steady.setGathered {f : Firing} {m : MicroSt} (h : Steady s t) : Steady s (setGathered f m t).2 := h.setSticky.pair

theorem Steady.userMachineCheck {f : Firing} {m : MicroSt} {u' : ℕ} {nested inj : Bool} {groups : Option ℕ} (h : Steady s t) :
    Steady s (userMachineCheck f m u' nested inj groups t) :=
  h.setGathered.machineCheck

theorem Steady.badMicroword {e : PassErr} {f : Firing} {m : MicroSt} (h : Steady s t) : Steady s (badMicroword e f m t) := by
  unfold Machine.badMicroword
  extract_lets
  split
  · exact h.microTrap.userMachineCheck
  · exact h.microTrap.emit.setGathered.reportP

theorem Steady.detachPark {f : Firing} (h : Steady s t) : Steady s (detachPark f t) := h.rest

theorem Steady.uStep {f : Firing} {m : MicroSt} {w : ℕ} {r : UStep} (h : Steady s t) (e : uStep f m w t = some (r, u)) : Steady s u := by
  unfold Machine.uStep at e
  split at e
  rename_i ea
  split at e
  rename_i eb
  split at e
  rename_i exa
  split at e
  rename_i exb
  split at e
  rename_i exc
  split at e
  rename_i eq
  have h₁ := (((((h.uRead.snd ea).uRead.snd eb).uRead.snd exa).uRead.snd exb).uRead.snd exc).uRead.snd eq
  extract_lets at e
  split at e
  rename_i ec
  split at e
  rename_i ee
  have h₂ := (h₁.uCondition.snd ec).uEmission.snd ee
  extract_lets at e
  split at e
  rename_i em
  have h₃ := (Steady.iteSnd (h₂.freeVal (w := 48)).pair h₂.pair).snd em
  extract_lets at e
  split at e
  rename_i eg
  have h₄ := (Steady.iteSnd h₃.setGathered h₃.pair).snd eg
  extract_lets at e
  obtain ⟨⟨q, v⟩, eq, e⟩ := Option.map_eq_some_iff.1 e
  have h₅ := (Steady.ite h₄.microTrap.raiseEvent h₄).uRequest eq
  cases q <;> exact h₅.eqPair e

theorem Steady.uRun {err : PassErr} {f : Firing} {n : ℕ} {m : MicroSt} (h : Steady s t) : Steady s (uRun err f n m t) := by
  induction n generalizing t m with
  | zero => exact h
  | succ n ih =>
    rw [Machine.uRun]
    refine Steady.ite h.userMachineCheck (Steady.ite h.badMicroword ?_)
    split
    · exact h.holdSeq
    · rename_i e
      have h1 := h.uStep e
      split
      · exact (Steady.ite h1.detachPark h1).userMachineCheck
      · exact ih h1
      · exact h1

theorem Steady.uStart {f : Firing} {upc : ℕ} (h : Steady s t) : Steady s (uStart f upc t).2 := by
  unfold Machine.uStart
  split
  rename_i e
  split
  rename_i e1
  split
  rename_i e2
  split
  rename_i e3
  exact ((((h.freeVal.snd e).freeVal.snd e1).freeVal.snd e2).freeVal.snd e3).pair

theorem Steady.userBody {e : PassErr} {f : Firing} (h : Steady s t) : Steady s (userBody e f t) := by
  unfold Machine.userBody
  split
  · exact h.poisonOut
  · split
    rename_i e1
    exact (h.uStart.snd e1).uRun

theorem Steady.userResume {f : Firing} {m : MicroSt} {e : PassErr} (h : Steady s t) : Steady s (userResume f m e t) := by
  unfold Machine.userResume
  split
  · rename_i e
    exact (h.takeInjection.snd e).userMachineCheck
  · rename_i e
    exact (h.takeInjection.snd e).uRun

theorem Steady.continueUser {c pe : ℕ} {e : PassErr} (h : Steady s t) : Steady s (continueUser c pe e t) := by
  unfold Machine.continueUser
  split
  · exact h
  · split
    · exact Steady.ite h.rest.userResume h
    · exact h

theorem Steady.resumeStandard {p : Park} {v extra : W} {poison : Bool} (h : Steady s t) : Steady s (resumeStandard p v extra poison t) := by
  unfold Machine.resumeStandard
  refine Steady.ite ?_ ?_
  · exact h.emit
  · split
    · exact h.emit.emit
    · exact h.emit.emit
    · exact h.emit
    · exact h.emit
    · exact h.emit
    · exact h.emit
    · exact h.emit
    · exact h.emit

theorem Steady.stdResume {p : Park} {v extra : W} {poison : Bool} {e : PassErr} (h : Steady s t) : Steady s (stdResume p v extra poison e t) :=
  h.stdGoOn (·.resumeStandard)

theorem Steady.deferTrap {e : PassErr} {p : Park} (h : Steady s t) : Steady s (deferTrap e p t) := by
  unfold Machine.deferTrap
  extract_lets
  split
  · refine Steady.ite ?_ ?_
    · extract_lets
      split
      · exact h.microTrap.userMachineCheck
      · exact h.microTrap
    · exact h
  · exact h.microTrap.runHandler

theorem Steady.response {c pe : ℕ} {err : PassErr} (h : Steady s t) : Steady s (response c pe err t) := by
  unfold Machine.response
  split
  · exact h
  · extract_lets
    split
    · exact h.rest.inc
    · refine Steady.ite ?_ ?_
      · exact h
      · refine Steady.ite ?_ ?_
        · exact h.rest.rest.countCons
        · refine Steady.ite ?_ ?_
          · exact h.rest.rest.countProg.deferTrap
          · refine Steady.ite ?_ ?_
            · exact h.rest.rest.countProg
            · split
              · exact h.rest.rest.countProg.stdResume
              · exact h.rest.rest.countProg.userResume

theorem Steady.reentryOperand {w bit : ℕ} (h : Steady s t) : Steady s (reentryOperand w bit t).2 := Steady.iteSnd h h.freeVal

theorem Steady.deferredAnswer {c pe : ℕ} {err : PassErr} (h : Steady s t) : Steady s (deferredAnswer c pe err t) := by
  unfold Machine.deferredAnswer
  refine Steady.ite ?_ ?_
  · exact h
  · split
    · exact h
    · refine Steady.ite ?_ ?_
      · exact h.rest.countCons
      · extract_lets
        split
        rename_i e1
        split
        rename_i e2
        split
        rename_i e3
        have h19 := (((h.rest.countProg.reentryOperand.snd e1).reentryOperand.snd e2).reentryOperand.snd e3)
        exact Steady.ite h19.machineCheck (Steady.ite h19.userResume (h19.stdGoOn (·.emit)))

theorem Steady.dropDirect {c pe : ℕ} (h : Steady s t) : Steady s (dropDirect c pe t) := h.rest

theorem Steady.endPresented {p : Park} {ret : ℕ} (h : Steady s t) : Steady s (endPresented p ret t) := h.dropDirect.rest

theorem Steady.retryTrap {b : ℕ} {e : PePass} {r : BReq} (h : Steady s t) : Steady s (retryTrap b e r t) := by
  unfold Machine.retryTrap
  extract_lets
  split
  · exact h
  · refine Steady.ite ?_ ?_
    · extract_lets
      split
      · exact h.microTrap.endPresented.runHandler
      · exact h.microTrap
    · exact h

theorem Steady.bankOperation {b : ℕ} {direct : Bool} {err : BankErr} (h : Steady s t) : Steady s (bankOperation b direct err t) := by
  unfold Machine.bankOperation
  refine Steady.ite ?_ ?_
  · split
    · exact h
    · exact (h.foldl (·.retryTrap)).bind fun h5 => (Steady.ite h5.retryTrap h5.dropDirect.bankIssue)
  · split
    · exact h
    · exact Steady.ite h h.rest.bankIssue.refillBank

/-! ### What the functions of Deadlock keep -/

theorem Steady.reportCounts {p : ℕ} (h : Steady s t) : Steady s (reportCounts p t) :=
  (Steady.ite h.set.set.set.report h.set.set.set).bind fun h7 => ((Steady.ite h7.set h7).bind fun h6 => (Steady.ite h6 h6.rest))

theorem Steady.startReclaim {p : ℕ} (h : Steady s t) : Steady s (startReclaim p t) := by
  unfold Machine.startReclaim
  split
  · exact h.haltPartition.report
  · exact Steady.ite h.rest h.rest.set

theorem Steady.declare {p : ℕ} (h : Steady s t) : Steady s (declare p t) := by
  unfold Machine.declare
  refine Steady.ite ?_ ?_
  · exact h.set.inc.set.set.set.set.set.raiseEvent.haltPartition.report
  · split
    · exact h.set.inc.set.set.set.set.set.raiseEvent.startReclaim
    · exact h.set.inc.set.set.set.set.set.raiseEvent.haltPartition
    · exact h.set.inc.set.set.set.set.set.raiseEvent

theorem Steady.evaluate {p : ℕ} (h : Steady s t) : Steady s (evaluate p t) := Steady.ite h (Steady.ite h.rest.declare h.rest)

theorem Steady.reclaimNotice {p : ℕ} {b : Block} {win : ℕ} (h : Steady s t) : Steady s (reclaimNotice p b win t) := Steady.ite h h.countProd.send

theorem Steady.sweepEnd {p : ℕ} (h : Steady s t) : Steady s (sweepEnd p t) := by
  unfold Machine.sweepEnd
  split
  · exact h
  · extract_lets
    split
    rename_i e1
    exact (h.removeWork.snd e1).rest.set.set.set.set.set.inc.set.reclaimNotice

theorem Steady.filterExpiry {p : ℕ} (h : Steady s t) : Steady s (filterExpiry p t) := by
  unfold Machine.filterExpiry
  split
  · exact h
  · exact Steady.ite h (Steady.ite h.rest.startReclaim h.rest)

theorem Steady.emptyCluster {c : ℕ} (h : Steady s t) : Steady s (emptyCluster c t) := h.rest.set.foldl (·.set)

/-! ### What the functions of Admit keep -/

theorem Steady.writeQuota {p : ℕ} {ks : List Cert} (h : Steady s t) : Steady s (writeQuota p ks t) := h.rest.foldl (·.rest)

/-! ### What the functions of Ctl keep -/

theorem Steady.lineSend {g : ℕ} {l : List (BitVec 160)} (h : Steady s t) : Steady s (lineSend g l t) := h.rest

theorem Steady.lineBreak {g : ℕ} (h : Steady s t) : Steady s (lineBreak g t) := by
  unfold Machine.lineBreak
  refine Steady.ite ?_ ?_
  · exact h
  · split
    rename_i e
    exact (h.freeVal.snd e).rest

theorem Steady.badCtl {up : Bool} (h : Steady s t) : Steady s (badCtl up t) := h.inc.raiseEvent

theorem Steady.sentCtl {x : CtlWait} (h : Steady s t) : Steady s (sentCtl x t) := Steady.ite h.lineBreak.rest (Steady.ite h.rest h.rest)

theorem Steady.tryCtl {x : CtlWait} (h : Steady s t) : Steady s (tryCtl t x) := by
  unfold Machine.tryCtl
  refine Steady.ite ?_ ?_
  · exact h
  · split
    · exact h
    · exact h.rest.sentCtl

theorem Steady.pumpCtl (h : Steady s t) : Steady s (pumpCtl t) := h.foldl (fun h => h.foldl (·.tryCtl))

theorem Steady.postCtl {seg type : ℕ} {words : List W} (h : Steady s t) : Steady s (postCtl seg type words t) := h.rest.pumpCtl

theorem Steady.alignTick (h : Steady s t) : Steady s (alignTick t) :=
  Steady.ite h (Steady.ite (Steady.ite h.postCtl h).postCtl (Steady.ite h.postCtl h)).rest

theorem Steady.idleTick {up : Bool} (h : Steady s t) : Steady s (idleTick up t) := Steady.ite h h.lineBreak.rest

theorem Steady.sendCtl {up : Bool} {type : ℕ} {content : W} (h : Steady s t) : Steady s (sendCtl up type content t) := Steady.ite h.postCtl h

/-! ### What the functions of Global keep -/

theorem Steady.gPost {m : GMsg} (h : Steady s t) : Steady s (gPost m t) := h.rest

theorem Steady.gSend {up : Bool} {m : GMsg} (h : Steady s t) : Steady s (gSend up m t) := Steady.ite h.postCtl h

theorem Steady.gBroadcast {m : GMsg} (h : Steady s t) : Steady s (gBroadcast m t) := h.gSend.gSend

theorem Steady.gCheck {n : ℕ} {m : GMsg} {e : FlitErr} (h : Steady s t) : Steady s (gCheck n m e t).2 := h.flitChecks

theorem Steady.gWay {m : GMsg} {l : List GStop} (h : Steady s t) : Steady s (gWay m l t).2 := by
  induction l generalizing t with
  | nil => exact h
  | cons x l ih =>
    unfold Machine.gWay
    split
    · rename_i e
      exact ih (h.gCheck.snd e)
    · rename_i e
      exact (h.gCheck.snd e).pair

theorem Steady.gTake {gop : ℕ} {m : GlobalIn} (h : Steady s t) : Steady s (gTake gop m t).2 := by
  unfold Machine.gTake
  split
  · exact Steady.iteSnd h (Steady.iteSnd (h.foldl (·.inc)).badCtl.report.pair (Steady.iteSnd h.report.pair (Steady.iteSnd h h)))
  · split
    · exact h
    · refine Steady.iteSnd ?_ ?_
      · exact h
      · extract_lets
        split
        · rename_i e2
          exact (h.rest.gWay.snd e2).pair
        · rename_i e2
          have h11 := (h.rest.gWay.snd e2)
          split
          · rename_i e3
            exact (h11.gCheck.snd e3).pair
          · rename_i e3
            exact (h11.gCheck.snd e3).pair

theorem Steady.barGoOn {b : ℕ} (h : Steady s t) : Steady s (barGoOn b t) := Steady.ite h (Steady.ite h.gSend h.gPost)

theorem Steady.barArrive {b who : ℕ} (h : Steady s t) : Steady s (barArrive b who t) := Steady.ite h.set (Steady.ite h h.rest.barGoOn)

theorem Steady.barArm {b : ℕ} (h : Steady s t) : Steady s (barArm b t) := Steady.ite h.rest.set.barGoOn h.rest.set

theorem Steady.globalArrive {m : GlobalIn} (h : Steady s t) : Steady s (globalArrive m t) := by
  unfold Machine.globalArrive
  split
  · rename_i e
    exact h.gTake.snd e
  · rename_i e
    exact (h.gTake.snd e).barArrive
  · rename_i e
    exact (h.gTake.snd e).barArrive

theorem Steady.globalRelease {m : GlobalIn} (h : Steady s t) : Steady s (globalRelease m t) := by
  unfold Machine.globalRelease
  split
  · rename_i e
    exact h.gTake.snd e
  · rename_i e
    have h2 := (h.gTake.snd e)
    exact (Steady.ite h2.gSend h2).bind fun h6 => (Steady.ite h6 h6.rest.set.set.inc.raiseEvent)

theorem Steady.barCfgWrite {b v : ℕ} (h : Steady s t) : Steady s (barCfgWrite b v t) :=
  (Steady.ite h h.set.set.set).bind fun h4 => ((Steady.ite h4.barArm h4).bind fun h3 => (Steady.ite h3.set h3))

theorem Steady.barArriveWrite {core chan : ℕ} (h : Steady s t) : Steady s (barArriveWrite core chan t) := Steady.ite (Steady.ite h.gPost h.set) h

theorem Steady.clusterQuiet {b c : ℕ} (h : Steady s t) : Steady s (clusterQuiet b c t) := Steady.ite h.gPost h

theorem Steady.stageStart {kind part mode frm dst : ℕ} {ts : W} {pkgs : List ℕ} (h : Steady s t) :
    Steady s (stageStart kind part mode frm dst ts pkgs t) :=
  h.rest.gPost.bind fun h2 => (Steady.ite h2 h2.gBroadcast)

theorem Steady.setRtEntry {i w : ℕ} (h : Steady s t) : Steady s (setRtEntry i w t) := h.set.set.set.set

theorem Steady.setRtAlt {i w : ℕ} (h : Steady s t) : Steady s (setRtAlt i w t) := h.set.set.set.set

theorem Steady.loadMode {p m : ℕ} (h : Steady s t) : Steady s (loadMode p m t) := by
  unfold Machine.loadMode
  split
  · exact h
  · exact h.foldl (fun h => h.foldl (fun h => (Steady.ite h.setRtAlt h.setRtEntry)))

theorem Steady.globalStage {g : GlobalIn} (h : Steady s t) : Steady s (globalStage g t) := by
  unfold Machine.globalStage
  split
  · rename_i e
    exact h.gTake.snd e
  · rename_i e
    have h2 := (h.gTake.snd e)
    extract_lets
    split
    · exact (Steady.ite h2.loadMode h2).gPost
    · exact Steady.ite h2.gSend ((Steady.ite h2.gSend.loadMode h2.gSend).bind fun h9 => (Steady.ite h9.rest.set
        (Steady.ite h9.rest.set.set h9.rest)).gSend)

theorem Steady.globalAck {m : GlobalIn} (h : Steady s t) : Steady s (globalAck m t) := by
  unfold Machine.globalAck
  split
  · rename_i e
    exact h.gTake.snd e
  · rename_i e
    have h2 := (h.gTake.snd e)
    refine Steady.ite ?_ ?_
    · exact h2.rest
    · split
      · exact h2.gSend
      · exact h2

theorem Steady.lateVerdict {p op code : ℕ} (h : Steady s t) : Steady s (lateVerdict p op code t) := Steady.ite h.set.raiseEvent h

theorem Steady.clearStaged (h : Steady s t) : Steady s (clearStaged t) := Steady.ite h h.set

theorem Steady.abortStaged {x : Staged} (h : Steady s t) : Steady s (abortStaged x t) := by
  unfold Machine.abortStaged
  extract_lets
  split
  · exact h.rest.set.set.raiseEvent.bind fun h6 => (Steady.ite h6.lateVerdict h6)
  · split
    · exact h.rest
    · exact h.rest.rest.set.giveUpCluster.writeQuota.countClusters.lateVerdict
  · exact h.rest.clearStaged.set

theorem Steady.globalAbort {m : GlobalIn} (h : Steady s t) : Steady s (globalAbort m t) := by
  unfold Machine.globalAbort
  split
  · rename_i e
    exact h.gTake.snd e
  · rename_i e
    extract_lets t₁
    have h₁ : Steady s t₁ := by
      unfold t₁
      split
      · exact (h.gTake.snd e).gSend
      · exact h.gTake.snd e
    split
    · exact h₁.abortStaged
    · exact h₁

theorem Steady.scheduleDeadline (h : Steady s t) : Steady s (scheduleDeadline t) := by
  unfold Machine.scheduleDeadline
  split
  · exact h
  · exact Steady.ite h.rest (Steady.ite h.gBroadcast h).gPost

theorem Steady.dropStaged {x : Staged} (h : Steady s t) : Steady s (dropStaged x t) := h.rest

theorem Steady.gschedWrite {kind : ℕ} {system : Bool} (h : Steady s t) : Steady s (gschedWrite kind system t) := Steady.ite h.set h.set.stageStart

theorem Steady.initiatorTimeout (h : Steady s t) : Steady s (initiatorTimeout t) := by
  unfold Machine.initiatorTimeout
  split
  · exact h
  · exact h.rest.bind fun h11 => (Steady.ite (Steady.ite h11.rest.inc h11.rest).reportU
      (Steady.ite h11.rest.inc h11.rest.inc.set.set.set.set.set.set).reportP)

theorem Steady.freeChain {f : Flit} (h : Steady s t) : Steady s (freeChain f t) := by
  unfold Machine.freeChain
  split
  · exact Steady.ite h.rest h
  · exact h

theorem Steady.arriveAt {f : Flit} (h : Steady s t) : Steady s (arriveAt f t) :=
  (Steady.ite h.deliverOther h.enterNode).bind fun h2 => (Steady.ite h2.freeChain h2)

theorem Steady.receiveCheck {n : ℕ} {f : Flit} {raws : List (BitVec 160)} {errs : List FlitErr} {urgErr : Bool} (h : Steady s t) :
    Steady s (receiveCheck n f raws errs urgErr t).2 := by
  unfold Machine.receiveCheck
  split
  rename_i e
  have h1 := (h.flitChecks.snd e)
  exact Steady.iteSnd h1.pair (Steady.iteSnd h1.corrFlit.pair h1.pair)

theorem Steady.chainPacket {g rcyc : ℕ} {x2 : ChainFlit} {raws : List (BitVec 160)} {errs : List FlitErr} {urgErr : Bool} (h : Steady s t) :
    Steady s (chainPacket g rcyc x2 raws errs urgErr t) := by
  unfold Machine.chainPacket
  refine Steady.ite ?_ ?_
  · exact h
  · extract_lets
    split
    · rename_i e
      exact (h.rest.receiveCheck.snd e).freeChain
    · rename_i e
      have h11 := (h.rest.receiveCheck.snd e)
      exact (Steady.ite h11.countProd.sourceRate h11).bind fun h15 => (Steady.ite (h15.freeChain.bind fun h14 => (Steady.ite h14.discardAt
        (Steady.ite h14.send h14))) h15.arriveAt)

theorem Steady.receiveChain {g rcyc : ℕ} {x2 : ChainFlit} {errs : List FlitErr} {urgErr : Bool} (h : Steady s t) :
    Steady s (receiveChain g rcyc x2 errs urgErr t) := by
  unfold Machine.receiveChain
  refine Steady.ite ?_ ?_
  · exact h
  · extract_lets
    split
    · exact h.rest
    · exact h.rest.chainPacket

theorem Steady.receiveInside {g cyc rcyc : ℕ} {errs : List FlitErr} {urgErr : Bool} (h : Steady s t) :
    Steady s (receiveInside g cyc rcyc errs urgErr t) := by
  unfold Machine.receiveInside
  extract_lets from_ dst busy
  refine Steady.ite h ?_
  split
  · exact h
  · extract_lets old t₁ t₂ vc f' k src t₃ t₄
    have h₂ : Steady s t₂ := h.rest.freeChain
    refine Steady.drainNode (Steady.ite ?_ ?_)
    · split
      rename_i e
      have h₃ := h₂.rest.rawsOf.snd e
      exact Steady.ite h₃.lineSend.countCons h₃.lineSend
    · have h₄ : Steady s t₄ := Steady.ite h₂ h₂.rest
      split
      · rename_i e
        exact h₄.receiveCheck.snd e
      · rename_i e
        exact (h₄.receiveCheck.snd e).arriveAt

/-! ### What the functions of Aperture keep -/

theorem Steady.apDone {v : Verdict} (h : Steady s t) : Steady s (apDone v t) := h.rest.set.set.set.set.set.set.raiseEvent

theorem Steady.apCmdWrite {v : ℕ} (h : Steady s t) : Steady s (apCmdWrite v t) :=
  Steady.ite h.set (h.rest.set.set.set.bind fun h3 => (Steady.ite h3.apDone h3))

theorem Steady.claim (h : Steady s t) : Steady s (claim t) := by
  unfold Machine.claim
  split
  · exact h
  · exact Steady.ite h.apDone (Steady.ite h h.set.set.set.countClusters.apDone)

theorem Steady.setDispatch {c op d : ℕ} (h : Steady s t) : Steady s (setDispatch c op d t) := h.set.set.set.set.set.set.set

theorem Steady.writeGolden {c : ℕ} {g : Golden} (h : Steady s t) : Steady s (writeGolden c g t) := (h.foldl (·.writeN)).foldl (fun h => h.setDispatch)

theorem Steady.goldenRead {ram : ℕ} (h : Steady s t) : Steady s (goldenRead ram t).2 := by
  unfold Machine.goldenRead
  split
  rename_i e
  have h1 := (h.secded.snd2 e)
  exact Steady.iteSnd h1.pair (Steady.iteSnd h1.report.pair h1.report.pair)

theorem Steady.loadUserSet {c set : ℕ} (h : Steady s t) : Steady s (loadUserSet c set t) := by
  unfold Machine.loadUserSet
  split
  · exact h
  · exact h.writeGolden.set.set

theorem Steady.setArith {k : Cert} {p m ep : ℕ} (h : Steady s t) : Steady s (setArith k p m ep t) := h.set.set.rest

theorem Steady.writePools {p : ℕ} {k : Cert} (h : Steady s t) : Steady s (writePools p k t) := h.foldl (·.set.set.set.set.set.set.set.set.set.set.set)

theorem Steady.clearPools {p : ℕ} (h : Steady s t) : Steady s (clearPools p t) := h.foldl (fun h => h.foldl (·.set.set.set.set.set.set))

theorem Steady.clearCounts {p : ℕ} (h : Steady s t) : Steady s (clearCounts p t) := h.rest.set.set.set

theorem Steady.admitWrites {p : ℕ} {k : Cert} {ws : List ℕ} (h : Steady s t) : Steady s (admitWrites p k ws t) :=
  (h.foldl (·.loadUserSet)).set.set.set.set.writePools.bind fun h10 => (Steady.ite h10.set.set h10.set).setArith.setArith.rest.writeQuota.clearCounts

theorem Steady.admitGraph {r : Rewrite} (h : Steady s t) : Steady s (admitGraph r t) := by
  unfold Machine.admitGraph
  split
  · exact h
  · refine Steady.ite ?_ ?_
    · exact h.apDone
    · extract_lets
      split
      rename_i e1
      have h3 := ((Steady.iteSnd h.goldenRead h).snd e1)
      split
      · exact h3.admitWrites.apDone
      · exact h3.apDone

theorem Steady.restampMade {p : ℕ} (h : Steady s t) : Steady s (restampMade p t) := (h.foldl (·.addCnt.addCnt)).rest

theorem Steady.commit {p : ℕ} (h : Steady s t) : Steady s (commit p t) := by
  unfold Machine.commit
  split
  · exact h
  · exact Steady.ite h (h.rest.foldl (fun h => (Steady.ite (h.set.foldl (·.setRtAlt)) h))).set.set.set.restampMade

theorem Steady.withdraw (h : Steady s t) : Steady s (withdraw t) := by
  unfold Machine.withdraw
  split
  · exact h
  · exact Steady.ite h.apDone (Steady.ite h.apDone (h.set.discardHeldIf.foldl (·.set.giveUpCluster)).rest.set.set.set.countClusters.apDone)

theorem Steady.dropDefers {p : ℕ} (h : Steady s t) : Steady s (dropDefers p t) := h.rest

theorem Steady.withdrawComplete {p : ℕ} (h : Steady s t) : Steady s (withdrawComplete p t) :=
  Steady.ite h h.clearPools.writeQuota.dropDefers.rest.set.set

theorem Steady.stage (h : Steady s t) : Steady s (stage t) := by
  unfold Machine.stage
  split
  · exact h
  · extract_lets
    split
    · exact h.apDone
    · refine Steady.ite ?_ ?_
      · exact h.apDone
      · refine Steady.ite ?_ ?_
        · exact h.apDone
        · split
          · exact h.apDone
          · exact h.set.set.stageStart.apDone

theorem Steady.modeCommit {p : ℕ} (h : Steady s t) : Steady s (modeCommit p t) := by
  unfold Machine.modeCommit
  split
  · exact h
  · extract_lets
    split
    · exact h.dropStaged.set.set.set.set
    · exact h.dropStaged.set.set.set.set.setArith.rest.restampMade.set

theorem Steady.modeDone {p : ℕ} (h : Steady s t) : Steady s (modeDone p t) := h.rest.set.set.raiseEvent

theorem Steady.modeDrained {p : ℕ} (h : Steady s t) : Steady s (modeDrained p t) := Steady.ite h.modeDone h

theorem Steady.modeSweep {p : ℕ} (h : Steady s t) : Steady s (modeSweep p t) := by
  unfold Machine.modeSweep
  split
  · exact h
  · refine Steady.ite ?_ ?_
    · exact h
    · extract_lets
      split
      rename_i e1
      exact (h.removeWork.snd e1).discardHeldIf.rest

theorem Steady.modeDiscardEnd {p : ℕ} (h : Steady s t) : Steady s (modeDiscardEnd p t) := by
  unfold Machine.modeDiscardEnd
  split
  · exact h
  · exact Steady.ite h h.set.modeDone

theorem Steady.migrate (h : Steady s t) : Steady s (migrate t) := by
  unfold Machine.migrate
  split
  · exact h
  · refine Steady.ite ?_ ?_
    · exact h.apDone
    · split
      · exact Steady.ite h.apDone h.set.set.set.set.set.rest.writeQuota.countClusters.apDone
      · exact h.apDone

theorem Steady.migCopyTick (h : Steady s t) : Steady s (migCopyTick t) := h.rest.foldl (fun h => (Steady.ite h h.rest.startTimer.send))

theorem Steady.spillFrom {k : Cert} {c : ℕ} (h : Steady s t) : Steady s (spillFrom k c t) := by
  unfold Machine.spillFrom
  split
  · exact h
  · exact h.set.set.set

theorem Steady.migrationCopyDone {p : ℕ} {r : Rewrite} (h : Steady s t) : Steady s (migrationCopyDone p r t) := by
  unfold Machine.migrationCopyDone
  split
  · exact h
  · split
    · exact h
    · extract_lets
      split
      rename_i e2
      have h5 := ((Steady.iteSnd h h.goldenRead).snd e2)
      exact Steady.ite h5.rest.set.giveUpCluster.writeQuota.countClusters.lateVerdict ((h5.foldl (·.setRtEntry.setRtAlt)).foldl
        (·.loadUserSet)).spillFrom.rest.stageStart

theorem Steady.rerouteFields {pkg frm dst i : ℕ} {fc fd fp : Fld} (h : Steady s t) : Steady s (rerouteFields pkg frm dst fc fd fp i t) :=
  Steady.ite h.set.set h

theorem Steady.rerouteAll {p pkg frm dst : ℕ} (h : Steady s t) : Steady s (rerouteAll p pkg frm dst t) := by
  unfold Machine.rerouteAll
  extract_lets t₁ t₂ t₃
  have h₁ : Steady s t₁ := h.foldl fun h => h.foldl fun h => h.setRtEntry.setRtAlt
  have h₂ : Steady s t₂ := h₁.foldl fun h => (Steady.ite h.rerouteFields h).bind fun h => Steady.ite h.rerouteFields h
  have h₃ : Steady s t₃ := h₂.foldl fun h => h.foldl (·.rerouteFields)
  exact h₃.rest

theorem Steady.migrationSwitch {p : ℕ} (h : Steady s t) : Steady s (migrationSwitch p t) := by
  unfold Machine.migrationSwitch
  split
  · exact h
  · refine h.dropStaged.rerouteAll.bind fun h₁ => Steady.ite h₁ ?_
    split
    · exact h₁
    · exact Steady.ite h₁.rest (Steady.ite h₁.rest.set h₁.rest.set.rest.set.noteBreak)

theorem Steady.migrationDrained {p : ℕ} (h : Steady s t) : Steady s (migrationDrained p t) := by
  unfold Machine.migrationDrained
  split
  · exact h
  · exact Steady.ite h h.rest.set.releaseCluster.writeQuota.countClusters.raiseEvent

theorem Steady.guaranteeRestore {p : ℕ} (h : Steady s t) : Steady s (guaranteeRestore p t) := by
  unfold Machine.guaranteeRestore
  split
  · exact Steady.ite h.rest.set h
  · exact h

theorem Steady.uncharge {p : ℕ} (h : Steady s t) : Steady s (uncharge p t) := h.rest.writeQuota

theorem Steady.revoke {p reason : ℕ} (h : Steady s t) : Steady s (revoke p reason t) := Steady.ite h.markLost.set h.markLost.stopPartition.uncharge

theorem Steady.refit {n : ℕ} (h : Steady s t) : Steady s (refit n t) := by
  induction n generalizing t with
  | zero => exact h
  | succ n ih =>
    unfold Machine.refit
    refine Steady.ite h ?_
    split
    · exact ih h.stopPartition.uncharge
    · split
      · exact ih h.revoke
      · exact h

theorem Steady.ledgerReexamine (h : Steady s t) : Steady s (ledgerReexamine t) := Steady.ite h (h.foldl (·.revoke)).rest.refit

theorem Steady.loseCapacity {ps : List ℕ} {reason : ℕ} (h : Steady s t) : Steady s (loseCapacity ps reason t) := h.rest

theorem Steady.quarantine {c : ℕ} (h : Steady s t) : Steady s (quarantine c t) := Steady.ite h (h.loseCapacity.set.noteBreak.foldl (·.set))

theorem Steady.deliveryMiss {p : ℕ} {emitAt : Bool} {kind index : ℕ} {tag due : W} (h : Steady s t) :
    Steady s (deliveryMiss p emitAt kind index tag due t) :=
  Steady.ite h ((Steady.ite h.inc.rest h.inc).bind fun h9 => ((Steady.ite h9 h9.set.set.set.set.set.set.set.set.set).bind fun h8 =>
    (Steady.ite h8.report h8)))

/-! ### What the functions of Fifo keep -/

theorem Steady.setFifo {k : ℕ} {f : Fifo} (h : Steady s t) : Steady s (t.setFifo k f) := h.rest

theorem Steady.pfEvent {k : ℕ} (h : Steady s t) : Steady s (pfEvent k t) := Steady.ite h.raiseEvent h

theorem Steady.pfPut {k : ℕ} {e : PfEntry} (h : Steady s t) : Steady s (pfPut k e t) :=
  Steady.ite h.setFifo (Steady.ite h.setFifo.set h.setFifo.set.set.pfEvent)

theorem Steady.fifoIdleFlush {k : ℕ} (h : Steady s t) : Steady s (fifoIdleFlush k t) := by
  unfold Machine.fifoIdleFlush
  extract_lets
  split
  · exact Steady.ite h h.setFifo
  · exact h

theorem Steady.pfDrop {k : ℕ} (h : Steady s t) : Steady s (pfDrop k t) := by
  unfold Machine.pfDrop
  refine Steady.ite ?_ ?_
  · exact h
  · extract_lets
    split <;> exact h.setFifo.set

theorem Steady.pfTake {k natural : ℕ} (h : Steady s t) : Steady s (pfTake k natural t).2 := by
  unfold Machine.pfTake
  extract_lets
  split
  · exact h
  · extract_lets
    split
    rename_i e1
    have h5 := (h.setFifo.secded.snd2 e1)
    exact Steady.iteSnd h5.pair (Steady.iteSnd h5.inc.report.pair h5.set.report.pfEvent.pair)

/-! ### What the functions of AuxPins keep -/

theorem Steady.setAux {k : ℕ} {p : AuxPin} (h : Steady s t) : Steady s (t.setAux k p) := h.rest

theorem Steady.auxPulse {k n : ℕ} (h : Steady s t) : Steady s (auxPulse k n t) := h.setAux

theorem Steady.auxToggle {k : ℕ} (h : Steady s t) : Steady s (auxToggle k t) := by
  unfold Machine.auxToggle
  refine Steady.ite ?_ ?_
  · exact h.setAux
  · split
    rename_i e
    exact (h.freeVal.snd e).setAux

theorem Steady.auxEvent {func sel : ℕ} (h : Steady s t) : Steady s (auxEvent func sel t) :=
  h.foldl (fun h => (Steady.ite h (Steady.ite h.auxPulse (Steady.ite h (Steady.ite h.auxToggle (Steady.ite h.auxPulse h))))))

theorem Steady.auxTick (h : Steady s t) : Steady s (auxTick t) := by
  unfold Machine.auxTick
  exact (h.foldl (fun h => (Steady.ite h.setAux h))).bind fun h3 => (Steady.ite h3.auxEvent h3)

/-! ### What the functions of Lens keep -/

theorem Steady.setCoord {i : ℕ} {c : Coord} (h : Steady s t) : Steady s (t.setCoord i c) := h.rest

theorem Steady.orBound {b : Option ℤ} (h : Steady s t) : Steady s (orBound b t).2 := by
  unfold Machine.orBound
  split
  · exact h
  · split
    rename_i e1
    exact (h.freeVal.snd e1).pair

theorem Steady.publish {i : ℕ} (h : Steady s t) : Steady s (publish i t) := Steady.ite h.setCoord h.setCoord

theorem Steady.modelCheck {i : ℕ} {stamp : BitVec 52} {ang : ℤ} (h : Steady s t) : Steady s (modelCheck i stamp ang t) := by
  unfold Machine.modelCheck
  extract_lets v
  split
  · exact h
  · extract_lets c x off
    split
    rename_i e
    refine Steady.bind (Steady.snd ?_ e) fun h => Steady.ite h.inc.set.raiseEvent h
    split
    · exact h
    · exact (h.freeVal (w := 32)).pair

theorem Steady.recordEdge {i : ℕ} {stamp : BitVec 52} {back : Bool} (h : Steady s t) : Steady s (recordEdge i stamp back t) :=
  (Steady.ite h.set.set h).bind fun h6 => ((Steady.ite h6 h6.modelCheck).setCoord.set.set.bind fun h5 => (Steady.ite h5.set.raiseEvent h5))

theorem Steady.takeBack {i : ℕ} {c : CoordUndo} (h : Steady s t) : Steady s (takeBack i c t) := by
  exact h.setCoord.foldl (·.set)

theorem Steady.abChange {i : ℕ} {stamp : BitVec 52} {a b : Bool} {width : ℕ} (h : Steady s t) : Steady s (abChange i stamp a b width t) := by
  unfold Machine.abChange
  extract_lets c da db qerr t'
  have hq {u : State} (h : Steady s u) : Steady s (qerr u) := h.inc.set
  have h' : Steady s t' := h.setCoord
  clear_value qerr da db
  split
  · exact h
  · exact hq h'
  · split
    · exact hq h'.takeBack
    · exact h'.recordEdge.setCoord

theorem Steady.zSeen {i : ℕ} {stamp : BitVec 52} {width : ℕ} (h : Steady s t) : Steady s (zSeen i stamp width t) :=
  Steady.ite h (h.setCoord.bind fun h3 => (Steady.ite h3 (Steady.ite (Steady.ite h3 h3.inc.set) h3.setCoord.set.set)))

theorem Steady.encoderChange {i : ℕ} {stamp : BitVec 52} {a b : Bool} {width : ℕ} (h : Steady s t) :
    Steady s (encoderChange i stamp a b width t) := by
  unfold Machine.encoderChange
  refine Steady.ite ?_ ?_
  · exact h
  · split
    · exact h.takeBack.abChange.zSeen
    · exact h.abChange

theorem Steady.countEdge {src : ℕ} {stamp : BitVec 52} {a b : Bool} {width : ℕ} (h : Steady s t) : Steady s (countEdge src stamp a b width t) :=
  (Steady.ite h.rest h).foldl (fun h => (Steady.ite h (Steady.ite h.encoderChange (Steady.ite h h.recordEdge))))

theorem Steady.zEdge {e : ℕ} {stamp : BitVec 52} {width : ℕ} (h : Steady s t) : Steady s (zEdge e stamp width t) :=
  h.foldl (fun h => (Steady.ite h.zSeen h))

theorem Steady.coordinateStall {i : ℕ} (h : Steady s t) : Steady s (coordinateStall i t) := Steady.ite h h.set

theorem Steady.restartCoord {i : ℕ} (h : Steady s t) : Steady s (restartCoord i t) := h.setCoord.set.set.set

theorem Steady.mainsEdge {rising : Bool} {stamp : BitVec 52} {width : ℕ} (h : Steady s t) : Steady s (mainsEdge rising stamp width t) := by
  unfold Machine.mainsEdge
  refine Steady.ite ?_ ?_
  · exact h
  · extract_lets
    split
    · exact h.setCoord
    · exact Steady.ite h.set (Steady.ite h.setCoord.set (h.setCoord.set.bind fun h4 => (Steady.ite h4.set h4)))

theorem Steady.mainsHoldover (h : Steady s t) : Steady s (mainsHoldover t) := Steady.ite h h.setCoord.set.set.set.raiseEvent

theorem Steady.stopMains (h : Steady s t) : Steady s (stopMains t) := h.setCoord.set.set

theorem Steady.lensAnswer {i : ℕ} {isTime : Bool} {l tf : W} (h : Steady s t) : Steady s (lensAnswer i isTime l tf t).2 := by
  unfold Machine.lensAnswer
  refine Steady.iteSnd ?_ ?_
  · exact h
  · extract_lets
    split
    rename_i e
    exact (h.orBound.snd e).pair

theorem Steady.lensQuery (h : Steady s t) : Steady s (lensQuery t) := by
  unfold Machine.lensQuery
  split
  · exact h
  · refine Steady.ite ?_ ?_
    · exact h.rest.reqErr.send
    · extract_lets
      split
      rename_i e1
      exact (h.rest.lensAnswer.snd e1).respond

/-! ### What the functions of Source keep -/

theorem Steady.createSource {id p : ℕ} {t' : Token} (h : Steady s t) : Steady s (createSource id p t' t) := Steady.ite h h.sourceRate.countProd.rest

theorem Steady.handOver {t' : Token} (h : Steady s t) : Steady s (handOver t' t) := h.send

theorem Steady.handOverMade (h : Steady s t) : Steady s (handOverMade t) := Steady.ite h (h.rest.foldl (fun h => h.handOver))

theorem Steady.keepTrig {i : ℕ} (h : Steady s t) : Steady s (keepTrig i t) := Steady.ite h h.rest

theorem Steady.noteEn {i : ℕ} {touched : Bool} (h : Steady s t) : Steady s (noteEn i touched t) := Steady.ite h.rest h

theorem Steady.noteTarget {i : ℕ} (h : Steady s t) : Steady s (noteTarget i t) := h.rest

theorem Steady.trigDisarm {i : ℕ} (h : Steady s t) : Steady s (trigDisarm i t) := Steady.ite h h.set

theorem Steady.trigMove {i v : ℕ} (h : Steady s t) : Steady s (trigMove i v t) := Steady.ite h h.set

theorem Steady.trigSkip {i n : ℕ} (h : Steady s t) : Steady s (trigSkip i n t) := Steady.ite h h.set.set.raiseAtBoundary

theorem Steady.triggerCrossing {i : ℕ} (h : Steady s t) : Steady s (triggerCrossing i t) :=
  Steady.ite h (h.rest.auxEvent.bind fun h6 => ((Steady.ite h6.trigMove h6.trigDisarm).bind fun h5 => (Steady.ite h5.trigSkip.set
    (Steady.ite h5.trigSkip h5.trigSkip.rest.inc.createSource))))

theorem Steady.carryTargets {x : ℕ} (h : Steady s t) : Steady s (carryTargets x t) := Steady.ite h (h.foldl (fun h => (Steady.ite h.set h)))

/-! ### What the functions of Sample keep -/

theorem Steady.keepOld {f : Fld} {i : ℕ} (h : Steady s t) : Steady s (keepOld f i t) := Steady.ite h h.rest

theorem Steady.setLane {k : ℕ} {l : Lane} (h : Steady s t) : Steady s (t.setLane k l) := h.rest

theorem Steady.beginForces (h : Steady s t) : Steady s (beginForces t) := h.foldl (fun h => (Steady.ite h (h.foldl (fun h => (Steady.ite h.set h)))))

theorem Steady.endForces (h : Steady s t) : Steady s (endForces t) := h.rest

theorem Steady.forceRelease {c : ℕ} (h : Steady s t) : Steady s (forceRelease c t) := Steady.ite h h.set.set.rest

theorem Steady.logTrip {k src : ℕ} {test : Bool} {index value : ℕ} {at_ : BitVec 52} (h : Steady s t) :
    Steady s (logTrip k src test index value at_ t) :=
  h.set.set.set.set.set.set.set

theorem Steady.trip {mask src : ℕ} {test : Bool} {index value : ℕ} {at_ : BitVec 52} (h : Steady s t) :
    Steady s (trip mask src test index value at_ t) :=
  (h.foldl (fun h => (Steady.ite h (Steady.ite (Steady.ite h.logTrip h) (Steady.ite h.set.set h.set.set.logTrip).raiseEvent)))).bind fun h6 =>
    (Steady.ite h6 h6.beginForces)

theorem Steady.setCmp {c : ℕ} {m : Cmp} (h : Steady s t) : Steady s (t.setCmp c m) := h.rest

theorem Steady.cmpWritten {c : ℕ} {clear : Bool} (h : Steady s t) : Steady s (cmpWritten c clear t) := h.setCmp

theorem Steady.testUsed {j : ℕ} (h : Steady s t) : Steady s (testUsed j t) := Steady.ite h.rest.set h.rest

theorem Steady.interlock {c : ℕ} {x : BitVec 24} {bad : Bool} {ref : BitVec 52} (h : Steady s t) : Steady s (interlock c x bad ref t) := by
  unfold Machine.interlock
  extract_lets m at_ set test x' bad' t₁
  have h₁ : Steady s t₁ := Steady.ite h.testUsed h
  refine Steady.ite h₁.setCmp ?_
  extract_lets
  split
  split
  extract_lets t₂
  have h₂ : Steady s t₂ := h₁.setCmp
  split
  rename_i e
  have h₃ := (Steady.iteSnd (h₂.freeVal (w := 24)) h₂).snd e
  extract_lets t₄
  have h₄ : Steady s t₄ := Steady.ite h₃.set.trip h₃
  exact Steady.ite h₄.set.trip h₄

theorem Steady.laneState {k st : ℕ} (h : Steady s t) : Steady s (laneState k st t) := Steady.ite h (h.foldl (·.setCmp)).setLane.set

theorem Steady.laneJudge {k : ℕ} {at_ : BitVec 52} (h : Steady s t) : Steady s (laneJudge k at_ t) :=
  Steady.ite h.set.set.holdFault.set.raiseEvent.trip (Steady.ite h.set.dropFault h)

theorem Steady.codeError {k block : ℕ} {at_ : BitVec 52} (h : Steady s t) : Steady s (codeError k block at_ t) :=
  Steady.ite h (h.inc.reportU.setLane.bind fun h3 => (Steady.ite h3.laneState.laneJudge h3))

theorem Steady.laneComma {k phase : ℕ} {at_ : BitVec 52} (h : Steady s t) : Steady s (laneComma k phase at_ t) :=
  Steady.ite h (Steady.ite (Steady.ite h.setLane.laneState.laneJudge h.setLane) (Steady.ite h h.laneState.laneJudge.setLane))

theorem Steady.laneAlign {k n : ℕ} {at_ : BitVec 52} (h : Steady s t) : Steady s (laneAlign k n at_ t) :=
  Steady.ite h (Steady.ite h.laneState.laneJudge h)

theorem Steady.laneSofTimeout {k : ℕ} {at_ : BitVec 52} (h : Steady s t) : Steady s (laneSofTimeout k at_ t) :=
  Steady.ite h (Steady.ite h h.laneState.laneJudge)

theorem Steady.laneGraceExpiry {k : ℕ} (h : Steady s t) : Steady s (laneGraceExpiry k t) := h.laneJudge

theorem Steady.rxStop {k : ℕ} (h : Steady s t) : Steady s (rxStop k t) := h.setLane

theorem Steady.rxSof {k : ℕ} {start : BitVec 52} (h : Steady s t) : Steady s (rxSof k start t) :=
  Steady.ite h.setLane h.laneState.laneJudge.set.set.setLane

theorem Steady.rxHeader {k b : ℕ} {bad : Bool} {ends : BitVec 52} (h : Steady s t) : Steady s (rxHeader k b bad ends t) :=
  (Steady.ite h.setLane (Steady.ite h.inc.set h).set.setLane.laneJudge).pfPut

theorem Steady.rxSample {k j : ℕ} {xs : List (ℕ × Bool)} {ends : BitVec 52} (h : Steady s t) : Steady s (rxSample k j xs ends t) :=
  h.interlock.bind fun h2 => (Steady.ite h2 h2.set)

theorem Steady.rxSlot {k j b : ℕ} {bad : Bool} {xs : List (ℕ × Bool)} (h : Steady s t) : Steady s (rxSlot k j b bad xs t) := by
  unfold Machine.rxSlot
  extract_lets c d t₁ v e put
  have h₁ : Steady s t₁ := Steady.ite h h.set
  have hput {d : ℕ} {fin last e : Bool} {u : State} (h : Steady s u) : Steady s (put d fin last e u) := h.pfPut
  clear_value put
  exact hput (hput (hput (hput h₁)))

theorem Steady.rxByte {k b : ℕ} {bad : Bool} {ends : BitVec 52} (h : Steady s t) : Steady s (rxByte k b bad ends t) :=
  Steady.ite h (h.setLane.bind fun h2 => (Steady.ite h2 (Steady.ite h2.rxHeader (Steady.ite h2.rxSample (Steady.ite h2.rxSlot h2)))))

theorem Steady.rxGroup {k block : ℕ} {start : BitVec 52} {g : LineCode} (h : Steady s t) : Steady s (rxGroup k block start g t) := by
  unfold Machine.rxGroup
  extract_lets
  split
  · exact Steady.ite h.rxByte (Steady.ite h.codeError h)
  · exact (Steady.ite h.codeError h).rxByte
  · exact (Steady.ite h.codeError h).rxStop.bind fun h5 => (Steady.ite h5 (Steady.ite h5.rxSof (Steady.ite h5.laneState.laneJudge h5)))

theorem Steady.frame {k : ℕ} {f : FrameIn} (h : Steady s t) : Steady s (frame k f t) := Steady.ite h (h.foldlSnd fun h => Steady.ite h h.rxGroup)

theorem Steady.takeSample {x : Sample} (h : Steady s t) : Steady s (takeSample x t) := h.rest

theorem Steady.tapStream {c : ℕ} {x : Sample} (h : Steady s t) : Steady s (tapStream c x t) := by
  unfold Machine.tapStream
  refine Steady.ite ?_ ?_
  · exact h
  · extract_lets
    split
    rename_i e
    exact ((Steady.iteSnd h.freeVal h).snd e).pfPut

theorem Steady.tapSample {x : Sample} (h : Steady s t) : Steady s (tapSample x t) := h.foldl (·.tapStream)

theorem Steady.fifoWordRead {k natural : ℕ} (h : Steady s t) : Steady s (fifoWordRead k natural t) := by
  unfold Machine.fifoWordRead
  split
  · rename_i e
    exact h.pfTake.snd e
  · rename_i e
    have h2 := (h.pfTake.snd e)
    exact Steady.ite h2.setLane.set (Steady.ite (h2.setLane.bind fun h4 => (Steady.ite h4.pfDrop h4)) (Steady.ite h2 h2.takeSample.tapSample))

theorem Steady.channelToken {c : ℕ} {data : W} {poison : Bool} (h : Steady s t) : Steady s (channelToken c data poison t) :=
  Steady.ite h.set h.createSource

theorem Steady.sampleTokens (h : Steady s t) : Steady s (sampleTokens t) := h.rest.foldl (fun h => (Steady.ite h h.channelToken))

theorem Steady.gridPoint {g : ℕ} (h : Steady s t) : Steady s (gridPoint g t) := by
  unfold Machine.gridPoint
  split
  · exact h
  · exact Steady.ite h (h.rest.foldl (fun h => (Steady.ite h.rest h)))

theorem Steady.gridSkip {q : GridPt} (h : Steady s t) : Steady s (gridSkip q t) := Steady.ite h.rest h.rest.inc.set.raiseAtBoundary

theorem Steady.resamplerToken {ch : ℕ} (h : Steady s t) : Steady s (resamplerToken ch t) := by
  unfold Machine.resamplerToken
  split
  · exact h
  · extract_lets xs drop
    have hdrop {u : State} (h : Steady s u) : Steady s (drop u) := h.rest
    clear_value drop
    split
    · exact Steady.ite (hdrop h) h
    · refine Steady.ite h ?_
      extract_lets cnt t₁
      have h₁ : Steady s t₁ := hdrop h.rest
      refine Steady.ite (hdrop h).gridSkip ?_
      extract_lets
      split
      rename_i e
      have h₂ := (Steady.iteSnd h₁ (h₁.freeVal (w := 24))).snd e
      split
      rename_i e'
      have h₃ := (h₂.freeVal (w := 4)).snd e'
      exact Steady.ite h₃ h₃.channelToken

theorem Steady.freshen {l : List ℕ} (h : Steady s t) : Steady s (freshen l t) := h.rest

theorem Steady.laneEnabled {k : ℕ} (h : Steady s t) : Steady s (laneEnabled k t) :=
  Steady.ite h.setLane.laneState (Steady.ite (h.setLane.foldl (·.set)).freshen.laneState.beginForces (h.laneState.foldl (·.set)).setLane.laneJudge)

theorem Steady.noteForced {k : ℕ} (h : Steady s t) : Steady s (noteForced k t) := Steady.ite h h.setLane

theorem Steady.captureLane {k : ℕ} (h : Steady s t) : Steady s (captureLane k t) := Steady.ite h h.setLane.rest

theorem Steady.sampleTickEnd (h : Steady s t) : Steady s (sampleTickEnd t) := (h.foldl (·.forceRelease)).foldl (·.captureLane)

theorem Steady.outputFrame {k : ℕ} (h : Steady s t) : Steady s (outputFrame k t) := by
  unfold Machine.outputFrame
  extract_lets
  split
  · exact h
  · exact Steady.ite h (h.laneState.setLane.set.foldl (·.set)).rest

theorem Steady.ilkRelease {mask : ℕ} (h : Steady s t) : Steady s (ilkRelease mask t) := h.set

theorem Steady.sampleTick (h : Steady s t) : Steady s (sampleTick t) :=
  (((h.rest.foldl (·.laneEnabled)).foldl (·.laneJudge)).beginForces.endForces.foldl (·.noteForced)).sampleTokens

/-! ### What the functions of Time keep -/

theorem Steady.enterHoldover (h : Steady s t) : Steady s (enterHoldover t) := h.set.set.set.raiseEvent

theorem Steady.takeSource (h : Steady s t) : Steady s (takeSource t) := by
  unfold Machine.takeSource
  refine Steady.ite ?_ ?_
  · exact h
  · extract_lets
    split <;> exact h.rest.set.set

theorem Steady.judgeFreq {ok : Bool} (h : Steady s t) : Steady s (judgeFreq ok t) :=
  Steady.ite h (Steady.ite h.rest.set (Steady.ite h.rest.set h.rest))

theorem Steady.freqAdj (h : Steady s t) : Steady s (freqAdj t) := by
  unfold Machine.freqAdj
  refine Steady.ite ?_ ?_
  · exact h.set
  · refine Steady.ite ?_ ?_
    · exact h
    · extract_lets
      split
      rename_i e
      exact (h.freeVal.snd e).set

theorem Steady.alignGroups (h : Steady s t) : Steady s (alignGroups t) := h.foldl (·.rest)

theorem Steady.ppsShow (h : Steady s t) : Steady s (ppsShow t) := h.rest.foldl (·.set.inc)

theorem Steady.lensTick {freqOk : Bool} (h : Steady s t) : Steady s (lensTick freqOk t) := by
  unfold Machine.lensTick
  exact (h.takeSource.judgeFreq.freqAdj.rest.ppsShow.handOverMade.foldl (fun h => h.publish.carryTargets)).alignGroups.bind fun h6 =>
    (Steady.ite h6.sendCtl.sendCtl h6)

theorem Steady.tLoad {t' : W} {era : BitVec 16} (h : Steady s t) : Steady s (tLoad t' era t) := h.rest

/-- An edge of PPS may load T and the era, and nothing else that tells the time. -/
theorem ppsEdge_leaves {frac : ℕ} {rising : Bool} : (ppsEdge frac rising t).pending = t.pending ∧ (ppsEdge frac rising t).ticks = t.ticks := by
  unfold Machine.ppsEdge
  refine ite_leaves ⟨rfl, rfl⟩ ?_
  extract_lets t₁ _ t₂ _ t₃
  have h₃ : t₃.pending = t.pending ∧ t₃.ticks = t.ticks := by
    unfold t₃
    split
    · exact ⟨rfl, rfl⟩
    · exact ⟨rfl, rfl⟩
  exact ite_leaves h₃ (ite_leaves h₃ (ite_leaves h₃ h₃))

theorem Steady.ppsTimeout (h : Steady s t) : Steady s (ppsTimeout t) := Steady.ite h h.rest.set.set

theorem Steady.refLoss (h : Steady s t) : Steady s (refLoss t) := Steady.ite h.set.enterHoldover h.set

theorem Steady.referenceReturn {chain : Bool} (h : Steady s t) : Steady s (referenceReturn chain t) :=
  Steady.ite (Steady.ite h.rest.set h) (Steady.ite h.set.rest.set h.set)

theorem Steady.chainTimeLoss (h : Steady s t) : Steady s (chainTimeLoss t) := Steady.ite h h.rest.enterHoldover.dropFault

theorem Steady.judgeOffset {word : W} {stamp : BitVec 52} (h : Steady s t) : Steady s (judgeOffset word stamp t) :=
  h.rest.setFree.bind fun h3 => (Steady.ite h3.set.set (Steady.ite h3.set.holdFault h3.dropFault))

theorem Steady.timeWord {up : Bool} {word : W} {stamp : BitVec 52} {hold : ℕ} {intact : Bool} (h : Steady s t) :
    Steady s (timeWord up word stamp hold intact t) :=
  Steady.ite h (Steady.ite h.badCtl (Steady.ite h.sendCtl.judgeOffset h.sendCtl))

theorem Steady.techo {up : Bool} {sent received : BitVec 52} {hold : ℕ} {intact : Bool} (h : Steady s t) :
    Steady s (techo up sent received hold intact t) :=
  Steady.ite h (Steady.ite h.badCtl (Steady.ite h.rest.set h.rest))

/-! ### What the functions of Sched keep -/

theorem Steady.toReady {i : ℕ} (h : Steady s t) : Steady s (toReady i t) := h.rest.set

theorem Steady.thrOp {i op : ℕ} (h : Steady s t) (e : thrOp i op t = some u) : Steady s u := by
  unfold Machine.thrOp at e
  extract_lets at e
  split at e <;> (try split at e) <;> cases e
  · exact h.toReady
  · exact h.toReady
  · exact h.set
  · exact h

theorem Steady.schedOp {init c op : ℕ} (h : Steady s t) : Steady s (schedOp init c op t) := by
  unfold Machine.schedOp
  refine Steady.ite ?_ ?_
  · exact h
  · split
    · exact h.set
    · split
      · exact h.toReady
      · exact Steady.ite h.toReady h.set
      · exact h.set

theorem Steady.schedClaim {k : ℕ} (h : Steady s t) : Steady s (schedClaim k t).2 := by
  unfold Machine.schedClaim
  split
  · exact h
  · extract_lets t₁ t₂
    have h₁ : Steady s t₁ := by
      unfold t₁
      split
      · exact h.toReady
      · exact h
    exact h₁.set.set.set.set.pair

theorem Steady.slotWake {i : ℕ} (h : Steady s t) : Steady s (slotWake i t) := Steady.ite h.toReady h

theorem Steady.timer {k : ℕ} (h : Steady s t) : Steady s (timer k t) :=
  Steady.ite h (h.raiseEvent.auxEvent.bind fun h3 => (Steady.ite h3.set h3.set.set))

theorem Steady.doorbell {v : ℕ} (h : Steady s t) : Steady s (doorbell v t) := h.foldl (fun h => (Steady.ite h.raiseEvent h))

theorem Steady.lockAcquire {init k : ℕ} (h : Steady s t) : Steady s (lockAcquire init k t).2 := Steady.iteSnd h h.set.set.inc.set.set.pair

theorem Steady.lockFree {k : ℕ} (h : Steady s t) : Steady s (lockFree k t) := h.set.set.set.set.raiseEvent

theorem Steady.lockRelease {init k : ℕ} (h : Steady s t) : Steady s (lockRelease init k t) := Steady.ite h.lockFree h.set

theorem Steady.lockForce {k : ℕ} (h : Steady s t) : Steady s (lockForce k t) := h.set.lockFree

theorem Steady.setMbx {i : ℕ} {l : List MbxEntry} (h : Steady s t) : Steady s (t.setMbx i l) := h.rest

theorem Steady.squashGcol {k : ℕ} (h : Steady s t) : Steady s (squashGcol k t) := h.rest

theorem Steady.mbxAppend {i : ℕ} {e : MbxEntry} (h : Steady s t) : Steady s (mbxAppend i e t) := h.setMbx.inc.raiseEvent

theorem Steady.setInj {c : ℕ} {l : List Token} (h : Steady s t) : Steady s (t.setInj c l) := h.rest

theorem Steady.ginjHandover {c : ℕ} (h : Steady s t) : Steady s (ginjHandover c t) := by
  unfold Machine.ginjHandover
  split
  · exact h
  · exact Steady.ite (h.setInj.noteBreak.bind fun h4 => (Steady.ite h4.raiseEvent h4)).inc (Steady.ite h (h.setInj.noteBreak.bind fun h6 =>
      (Steady.ite h6.raiseEvent h6)).inc.sourceRate.countProd.handOver)

/-! ### What the functions of CoreOps keep -/

theorem Steady.setCore {k : ℕ} {c : Core} (h : Steady s t) : Steady s (t.setCore k c) := h.rest

theorem Steady.cycleOf {k : ℕ} (h : Steady s t) : Steady s (cycleOf k t).2 := by
  unfold Machine.cycleOf
  split
  rename_i e
  exact (h.freeVal.snd e).pair

theorem Steady.boundary {k : ℕ} (h : Steady s t) : Steady s (boundary k t) :=
  h.setCore.bind fun h2 => (Steady.ite h2 (Steady.ite (Steady.ite h2.set h2) h2.set))

theorem Steady.haltReqWrite {k : ℕ} {v : Bool} (h : Steady s t) : Steady s (haltReqWrite k v t) :=
  (Steady.ite h.set h.set).bind fun h4 => (Steady.ite (Steady.ite h4 (Steady.ite (Steady.ite h4.set h4) h4.set)) (h4.setCore.bind fun h3 => (Steady.ite
    (Steady.ite h3.rest.set h3) h3.set)))

theorem Steady.stepWrite {k : ℕ} (h : Steady s t) : Steady s (stepWrite k t) := Steady.ite h.setCore h

theorem Steady.coreReset {k : ℕ} (h : Steady s t) : Steady s (coreReset k t) :=
  h.setCore.squashGcol.bind fun h3 => (Steady.ite h3.rest h3.rest.set.set)

theorem Steady.dbgWrite {k sel : ℕ} {v : W} (h : Steady s t) : Steady s (dbgWrite k sel v t) :=
  Steady.ite h.setCore (Steady.ite h.setCore.squashGcol (Steady.ite h.setCore (Steady.ite h.setCore h)))

theorem Steady.doubleTrap {k code : ℕ} {pc : W} (h : Steady s t) : Steady s (doubleTrap k code pc t) :=
  (Steady.ite h.setCore.set.set h.setCore.set.set.set.set).reportU

theorem Steady.takeTrap {k code : ℕ} {epc eaddr : W} {arg : ℕ} {imprecise : Bool} {pc : W} (h : Steady s t) :
    Steady s (takeTrap k code epc eaddr arg imprecise pc t) :=
  Steady.ite h.squashGcol.doubleTrap (Steady.ite h (h.setCore.squashGcol.bind fun h3 => (Steady.ite h3.inc.set h3.inc.set.set).boundary))

theorem Steady.endReservations {a : ℕ} (h : Steady s t) : Steady s (endReservations a t) := h.rest

theorem Steady.ctlWrite {a n v : ℕ} (h : Steady s t) : Steady s (ctlWrite a n v t) := h.writeN.endReservations

theorem Steady.ctlCheck {a natural : ℕ} (h : Steady s t) : Steady s (ctlCheck a natural t).2 := by
  unfold Machine.ctlCheck
  extract_lets
  split
  rename_i e
  have h1 := (h.secded.snd2 e)
  exact Steady.iteSnd h1.report.pair (Steady.iteSnd h1.report.pair h1.pair)

theorem Steady.svResetWrite (h : Steady s t) : Steady s (svResetWrite t) := Steady.ite h h.coreReset.set.set.set.set

theorem Steady.cmpTest {ok : Bool} (h : Steady s t) : Steady s (cmpTest ok t) := Steady.ite h (Steady.ite h.set h.set.reportU)

theorem Steady.svRunWrite (h : Steady s t) : Steady s (svRunWrite t) := Steady.ite h.setCore.rest.set.set.boundary h

theorem Steady.kick (h : Steady s t) : Steady s (kick t) := h.rest

theorem Steady.watchdogExpiry (h : Steady s t) : Steady s (watchdogExpiry t) := Steady.ite h h.trip.set.reportU.rest

theorem Steady.svTimer (h : Steady s t) : Steady s (svTimer t) := Steady.ite h h.set.set

/-! ### What the functions of Faults keep -/

theorem Steady.mcEntry {type : ℕ} {w0 : BitVec 64} {content : ℕ} (h : Steady s t) : Steady s (mcEntry type w0 content t) := h.set.set.rest

theorem Steady.mcEvent {code arg : ℕ} (h : Steady s t) : Steady s (mcEvent code arg t) := h.mcEntry

theorem Steady.withNFlt {f : State → State} (h : Steady s t) (hf : ∀ {u : State}, Steady s u → Steady s (f u)) : Steady s (withNFlt f t) :=
  Steady.ite (hf h).set.raiseEvent (hf h)

theorem Steady.appendRecord {r : BitVec 64 × BitVec 64} (h : Steady s t) : Steady s (appendRecord r t) := by
  unfold Machine.appendRecord
  refine Steady.ite ?_ ?_
  · exact h.rest
  · refine Steady.ite ?_ ?_
    · exact h.inc.raiseEvent
    · split
      · exact h.rest.inc.raiseEvent
      · exact h.inc.raiseEvent

theorem Steady.makeRecord {kind cls : ℕ} {exc wire inj : Bool} {part : Option ℕ} {l detail : ℕ} {t' : W} (h : Steady s t) :
    Steady s (makeRecord kind cls exc wire inj part l detail t' t) :=
  h.appendRecord.bind fun h7 => (((Steady.ite h7 h7.mcEntry).set.withNFlt (·.set)).bind fun h6 => (Steady.ite h6.raiseEvent
    (Steady.ite h6.raiseEvent h6)))

/-- The fatal decision leaves the clock (R388). -/
theorem fatalPath_keepsClock {w1 : BitVec 64} : KeepsClock t (fatalPath w1 t) := by
  unfold Machine.fatalPath
  split
  · exact .refl t
  · have hdecided : KeepsClock t { t with
        flt := { t.flt with nfatal := true, decision := some (w1, stampEra t t.t), decisionLog := t.flt.log } } := ⟨rfl, rfl, rfl⟩
    have hnoted : KeepsClock t (withNFlt (fun s =>
        { s with flt := { s.flt with nfatal := true, decision := some (w1, stampEra s s.t), decisionLog := s.flt.log } }) t) := by
      unfold Machine.withNFlt
      dsimp only
      split
      · exact hdecided.steady (Steady.refl _).set.raiseEvent
      · exact hdecided
    exact hnoted.steady ((Steady.refl _).foldl (·.set)).beginForces.sendCtl.sendCtl

theorem Steady.setInst {i : FInst} (h : Steady s t) : Steady s (setInst i t) := h.rest

theorem Steady.collectQuarantine {c : ℕ} (h : Steady s t) : Steady s (collectQuarantine c t) := Steady.ite h h.quarantine.raiseEvent

theorem Steady.collectOffline {b : ℕ} (h : Steady s t) : Steady s (collectOffline b t) :=
  Steady.ite h (h.raiseEvent.bind fun h2 => (Steady.ite h2 h2.takeOffline.mcEvent))

theorem Steady.faultAction {k l : ℕ} (h : Steady s t) : Steady s (faultAction k l t) := Steady.ite h.collectQuarantine (Steady.ite h.collectOffline h)

/-- An event is counted, recorded and answered; only the fatal path that it may take is not steady. -/
theorem KeepsClock.takeEvent {e : FaultEv} (h : KeepsClock s t) : KeepsClock s (takeEvent e t) := by
  unfold Machine.takeEvent
  extract_lets k i w i₁ i₂ exc i₃ t₁ t₂ t₃ t₄ t₅
  have h₁ : Steady t t₁ := (Steady.refl t).setInst.inc
  have h₂ : Steady t t₂ := Steady.ite h₁.set.inc.raiseEvent h₁
  have h₄ : Steady t t₄ := Steady.ite h₂.makeRecord.faultAction h₂.makeRecord
  have h₅ : Steady t t₅ := Steady.ite h₄.collectQuarantine h₄
  split
  · exact (h.steady h₅).trans fatalPath_keepsClock
  · exact h.steady h₅

theorem faultEvent_keepsClock : KeepsClock t (faultEvent t) := by
  unfold Machine.faultEvent
  split
  · exact .refl t
  · split
    · exact .refl t
    · split
      · exact .refl t
      · exact ((KeepsClock.refl t).steady (Steady.refl t).rest).takeEvent

theorem Steady.wrongPair {kind l : ℕ} {inj : Bool} (h : Steady s t) : Steady s (wrongPair kind l inj t) := Steady.ite h h.makeRecord.raiseEvent

theorem Steady.wireFault {kind l : ℕ} {wrong : Bool} (h : Steady s t) : Steady s (wireFault kind l wrong t) :=
  Steady.ite h (Steady.ite h.rest (Steady.ite h h.wrongPair.rest))

theorem Steady.pairTick (h : Steady s t) : Steady s (pairTick t) := h.rest

theorem Steady.ackKind {k : ℕ} (h : Steady s t) : Steady s (ackKind k t) := Steady.ite h.set.rest h.set.rest.set.set

theorem Steady.popLog (h : Steady s t) : Steady s (popLog t) := h.rest

theorem Steady.clearRecord (h : Steady s t) : Steady s (clearRecord t) := h.rest

theorem startCollector_keepsClock : KeepsClock t (startCollector t) := by
  unfold Machine.startCollector
  extract_lets
  split
  · exact .refl t
  · exact ((KeepsClock.refl t).steady (Steady.refl t).set.set).takeEvent

theorem Steady.injCtlWrite {v : ℕ} {hits : Bool} (h : Steady s t) : Steady s (injCtlWrite v hits t).2 :=
  Steady.iteSnd h (Steady.iteSnd h (Steady.iteSnd h ((Steady.ite h.set.set.set h.set.set).bind fun h5 => (Steady.iteSnd h5.set.pair (Steady.iteSnd
    (Steady.ite h5.set.wrongPair h5.set).rest.pair h5.set.pair)))))

theorem lockstepMiscompare_keepsClock {group : ℕ} {a b wire : Bool} : KeepsClock t (lockstepMiscompare group a b wire t) := by
  unfold Machine.lockstepMiscompare
  extract_lets st t₁ _ t₂ t₃ t₄
  split
  · exact .refl t
  · have h₂ : Steady t t₂ := (Steady.refl t).set.setCore
    refine ((KeepsClock.refl t).steady (Steady.ite h₂ ?_)).takeEvent
    split
    rename_i e
    have h₄ : Steady t t₄ := h₂.set.set.set.set.set
    exact (h₄.cycleOf.snd e).set.set

/-! ### What the functions of Capture keep -/

theorem Steady.setCap {k : ℕ} {c : CapStream} (h : Steady s t) : Steady s (t.setCap k c) := h.rest

theorem Steady.captureWord {k : ℕ} {data : W} (h : Steady s t) : Steady s (captureWord k data t) := h.setCap.pfPut

theorem Steady.writeRing {k o : ℕ} {ws : List (BitVec 64)} (h : Steady s t) : Steady s (writeRing k o ws t) := by
  induction ws generalizing t o with
  | nil => unfold Machine.writeRing; exact h
  | cons w ws ih => unfold Machine.writeRing; exact ih h.writeN

theorem Steady.finishRecord {k : ℕ} (h : Steady s t) : Steady s (finishRecord k t) :=
  h.writeRing.bind fun h9 => ((Steady.ite h9.set.inc.setCap.set h9.set.inc.setCap).bind fun h8 => ((Steady.ite h8.set h8).bind fun h7 =>
    (Steady.ite h7.raiseEvent h7)))

theorem Steady.joinRecord {k : ℕ} {w : PfWord} {poison : Bool} (h : Steady s t) : Steady s (joinRecord k w poison t) :=
  Steady.ite h.setCap.finishRecord h.setCap

theorem Steady.endCut {k : ℕ} (h : Steady s t) : Steady s (endCut k t) := by
  unfold Machine.endCut
  split
  · exact Steady.ite h.finishRecord h
  · exact h

theorem Steady.takeWords {k n : ℕ} {errs : List ℕ} (h : Steady s t) : Steady s (takeWords k errs n t) := by
  induction n generalizing t errs with
  | zero => unfold Machine.takeWords; exact h
  | succ n ih =>
    unfold Machine.takeWords
    extract_lets t₁
    have h₁ : Steady s t₁ := h.endCut
    refine Steady.ite h₁ (Steady.ite h₁.set ?_)
    split
    · rename_i e
      exact h₁.set.pfTake.snd e
    · rename_i e
      exact (h₁.set.pfTake.snd e).joinRecord.bind fun h => Steady.ite h (ih h)

theorem Steady.captureRecord {k : ℕ} {errs : List ℕ} (h : Steady s t) : Steady s (captureRecord k errs t) := h.takeWords

theorem Steady.closeShort {k : ℕ} (h : Steady s t) : Steady s (closeShort k t) := by
  unfold Machine.closeShort
  refine Steady.ite ?_ ?_
  · exact h
  · extract_lets
    split
    · exact h.setCap.setFifo
    · split
      · exact h.setCap.setFifo
      · exact h.setCap.setFifo.bind fun h10 => (Steady.ite h10 h10.setCap.finishRecord)

theorem Steady.captureShortClose {k : ℕ} (h : Steady s t) : Steady s (captureShortClose k t) := Steady.ite h h.closeShort

theorem Steady.capRpWrite {k v : ℕ} (h : Steady s t) : Steady s (capRpWrite k v t) := Steady.ite h.set h.set

theorem Steady.capRestart {k : ℕ} (h : Steady s t) : Steady s (capRestart k t) := h.setCap.set.set

theorem Steady.capCfgWrite {k v : ℕ} {hitsEn : Bool} (h : Steady s t) : Steady s (capCfgWrite k v hitsEn t).2 :=
  Steady.iteSnd (Steady.iteSnd h (Steady.iteSnd h.capRestart.pair h.closeShort.set.pair)) (Steady.iteSnd h
    ((Steady.ite h h.set).set.set.set.set.bind fun h4 => (Steady.iteSnd h4.capRestart.set.pair h4.pair)))

/-! ### What the functions of Chain keep -/

theorem Steady.bootFail {err : ℕ} (h : Steady s t) : Steady s (bootFail err t) :=
  h.rest.set.mcEvent.raiseEvent.reportU.bind fun h5 => (Steady.ite (h5.foldl (·.set)) h5)

theorem Steady.linkTo {up : Bool} {st : ℕ} (h : Steady s t) : Steady s (linkTo up st t) := Steady.ite h h.set.set.raiseEvent

theorem Steady.restartCredits {up : Bool} (h : Steady s t) : Steady s (restartCredits up t) := h.rest

theorem Steady.sendEnum (h : Steady s t) : Steady s (sendEnum t) := Steady.ite h.postCtl h

theorem Steady.blockLock {up : Bool} {lanes : ℕ} (h : Steady s t) : Steady s (blockLock up lanes t) :=
  Steady.ite h (Steady.ite h.set.linkTo.linkTo h.set)

theorem Steady.dropChain {up : Bool} (h : Steady s t) : Steady s (dropChain up t) := h.inc.report

theorem Steady.dropHeld {up : Bool} (h : Steady s t) : Steady s (dropHeld up t) :=
  ((h.rest.foldl (fun h => h.freeChain.foldl (fun h => h.dropChain))).foldl (fun h => h.dropChain)).rest

theorem Steady.unmeasured {up : Bool} (h : Steady s t) : Steady s (unmeasured up t) := h.rest

theorem Steady.linkCapacity {up lost : Bool} (h : Steady s t) : Steady s (linkCapacity up lost t) := Steady.ite h.rest.loseCapacity h.rest

theorem Steady.chainDown {up : Bool} (h : Steady s t) : Steady s (chainDown up t) :=
  Steady.ite h (h.linkTo.set.inc.bind fun h2 => (Steady.ite h2.unmeasured.dropHeld.linkCapacity h2))

theorem Steady.chainAlign {up good : Bool} (h : Steady s t) : Steady s (chainAlign up good t) :=
  Steady.ite (h.linkTo.restartCredits.linkCapacity.bind fun h2 => (Steady.ite h2.sendEnum h2)) (Steady.ite h.chainDown h)

theorem Steady.takeCredit {up : Bool} {e : ℕ} (h : Steady s t) : Steady s (takeCredit up e t) := Steady.ite h h.rest

theorem Steady.credit {up : Bool} {content : W} {intact : Bool} (h : Steady s t) : Steady s (credit up content intact t) :=
  Steady.ite h (Steady.ite h.badCtl (h.foldl (·.takeCredit)))

theorem Steady.creditBlock {up : Bool} (h : Steady s t) : Steady s (creditBlock up t).2 := h.rest.pair

theorem Steady.sendCredits {up : Bool} (h : Steady s t) : Steady s (sendCredits up t) := by
  unfold Machine.sendCredits
  refine Steady.ite ?_ ?_
  · exact h
  · split
    rename_i e
    exact (h.creditBlock.snd e).sendCtl

theorem Steady.enumTake {number : ℕ} {era : BitVec 16} {t' : W} {n : ℕ} (h : Steady s t) : Steady s (enumTake number era t' n t) := h.set.rest

theorem Steady.enum {number : ℕ} {era : BitVec 16} {t' : W} {intact : Bool} (h : Steady s t) : Steady s (enum number era t' intact t) :=
  Steady.ite h.bootFail (Steady.ite h (Steady.ite h.badCtl (Steady.ite h.sendCtl (Steady.ite h (Steady.ite h.bootFail (Steady.ite h.enumTake h.rest))))))

theorem Steady.done {len : ℕ} {intact : Bool} (h : Steady s t) : Steady s (done len intact t) :=
  Steady.ite h.bootFail (Steady.ite h (Steady.ite h.badCtl (Steady.ite h (Steady.ite h.set h.set.sendCtl))))

theorem Steady.chainTick (h : Steady s t) : Steady s (chainTick t) := by
  unfold Machine.chainTick
  extract_lets t₁
  have h₁ : Steady s t₁ := by
    unfold t₁
    split
    · exact Steady.ite h.enumTake h
    · exact h
  clear_value t₁
  exact (Steady.ite h₁ (Steady.ite h₁.rest.set.sendCtl (Steady.ite h₁.rest.sendEnum h₁))).sendCredits.sendCredits

theorem Steady.fatalNotice {up : Bool} {pkg : ℕ} {intact : Bool} (h : Steady s t) : Steady s (fatalNotice up pkg intact t) :=
  Steady.ite h (Steady.ite h.badCtl h.reportU.sendCtl)

/-! ### What the functions of Output keep -/

theorem Steady.outEffect {o : OutVal} (h : Steady s t) : Steady s (outEffect o t) := by
  unfold Machine.outEffect
  split
  · exact h.forceRelease.set.rest
  · exact h.writeSlot
  · exact h.captureWord
  · exact h.set.beginForces
  · exact h.mbxAppend
  · exact h

theorem Steady.emitEffect {o : OutVal} (h : Steady s t) : Steady s (emitEffect o t) := by
  unfold Machine.emitEffect
  refine Steady.ite ?_ ?_
  · exact h.outEffect
  · split
    · exact h.outEffect.setFifo
    · exact h.outEffect.setMbx
    · exact h

theorem Steady.applyOut {o : OutVal} {late : Bool} (h : Steady s t) : Steady s (applyOut o late t) :=
  (Steady.ite h.deliveryMiss h).bind fun h4 => ((Steady.ite h4.rest.outEffect (Steady.ite h4.emitEffect h4.outEffect)).bind fun h3 =>
    (Steady.ite h3.respond h3))

theorem Steady.refuseOut {o : OutVal} (h : Steady s t) : Steady s (refuseOut o t) := Steady.ite h.report.respond h.report

theorem Steady.takeOut {o : OutVal} (h : Steady s t) : Steady s (takeOut o t) := Steady.ite h.refuseOut (Steady.ite h.rest h.applyOut)

theorem Steady.output (h : Steady s t) : Steady s (output t) := by
  unfold Machine.output
  split
  · exact h
  · exact h.rest.bind fun h5 => (Steady.ite (Steady.ite h5.reqErr.send h5.reqErr) (Steady.ite h5.rest h5.takeOut))

theorem Steady.emitAtDue (h : Steady s t) : Steady s (emitAtDue t) := by
  unfold Machine.emitAtDue
  split
  · exact h
  · exact Steady.ite h.rest.refuseOut h.rest.applyOut

theorem Steady.outputRoom (h : Steady s t) : Steady s (outputRoom t) := by
  unfold Machine.outputRoom
  split
  · exact h
  · exact h.rest.takeOut

/-! ### What the functions of Pins keep -/

theorem Steady.copyFrame {frm dst : ℕ} (h : Steady s t) : Steady s (copyFrame frm dst t) := h.foldl (·.writeSlot)

theorem Steady.mirrorFlip (h : Steady s t) : Steady s (mirrorFlip t) := Steady.ite h h.set.copyFrame.set.set.inc.raiseEvent

theorem Steady.mirrorRead {a : ℕ} {oe : Bool} (h : Steady s t) : Steady s (mirrorRead a oe t) := h.rest

theorem Steady.auxCfgWrite {k f sel : ℕ} (h : Steady s t) : Steady s (auxCfgWrite k f sel t) := Steady.ite h (Steady.ite h.set h).set.set.setAux

theorem Steady.auxSwitch {k : ℕ} (h : Steady s t) : Steady s (auxSwitch k t) := Steady.ite h h.setAux.set.set

theorem Steady.evin {k : ℕ} {level early : Bool} (h : Steady s t) : Steady s (evin k level early t) := Steady.ite h.setAux h.setAux.raiseEvent

theorem Steady.jtagLoad {code : ℕ} {nreset : Bool} (h : Steady s t) : Steady s (jtagLoad code nreset t) := h.rest

theorem Steady.jtagInstruction {q : JtagIn} {nreset : Bool} (h : Steady s t) : Steady s (jtagInstruction q nreset t) := by
  unfold Machine.jtagInstruction
  split
  · exact h.jtagLoad
  · exact h.rest
  · exact Steady.ite h.rest h

/-! ### What the functions of Power keep -/

theorem Steady.setLedger {i v : ℕ} (h : Steady s t) : Steady s (setLedger i v t) := h.rest

theorem Steady.ledgerCrc (h : Steady s t) : Steady s (ledgerCrc t) := h.setLedger

theorem Steady.ledgerInc {i : ℕ} {high : Bool} (h : Steady s t) : Steady s (ledgerInc i high t) := h.setLedger.ledgerCrc

theorem Steady.setVfCap (h : Steady s t) : Steady s (Machine.setCap t) := h.set

theorem Steady.applyVf (h : Steady s t) : Steady s (applyVf t) := Steady.ite h h.rest

theorem Steady.railReading {m v : ℕ} (h : Steady s t) : Steady s (railReading m v t) := by
  unfold Machine.railReading
  refine Steady.ite h.set.set ?_
  split
  · exact h.set
  · extract_lets t₁ t₂
    have h₂ : Steady s t₂ := Steady.ite h.set.set.set.setVfCap h.set.set.set
    exact Steady.ite h₂ (Steady.ite h₂.rest h₂.rest.dropFault)

theorem Steady.railFault {m : ℕ} (h : Steady s t) : Steady s (railFault m t) := by
  unfold Machine.railFault
  split
  · exact Steady.ite h.holdFault h
  · exact h

theorem Steady.pwrCtlWrite {v : ℕ} {hits : Bool} (h : Steady s t) : Steady s (pwrCtlWrite v hits t) := by
  unfold Machine.pwrCtlWrite
  refine Steady.ite h ?_
  extract_lets locked vf pk t₁ t₂
  have h₁ : Steady s t₁ := Steady.ite h h.set
  have h₂ : Steady s t₂ := Steady.ite h₁ h₁.set
  exact (Steady.ite h₂.set h₂).setVfCap.applyVf

theorem Steady.powerEstimate {watts : ℕ} (h : Steady s t) : Steady s (powerEstimate watts t) :=
  h.rest.set.set.bind fun h3 => (Steady.ite (Steady.ite h3.set h3) (Steady.ite h3.set.set h3))

theorem Steady.setRamp {f : ℕ} {o : Option ℕ} (h : Steady s t) : Steady s (setRamp f o t) := h.rest

theorem Steady.rampWatch (h : Steady s t) : Steady s (rampWatch t) := by
  refine h.foldl fun h => Steady.ite h.setRamp ?_
  split
  · exact Steady.ite h h.setRamp
  · exact Steady.ite h.setRamp h

theorem Steady.clockRampStep {f : ℕ} (h : Steady s t) : Steady s (clockRampStep f t) := by
  unfold Machine.clockRampStep
  extract_lets
  split
  · exact h
  · exact Steady.ite h h.setRamp.set.applyVf

theorem Steady.shedStepAt {f : ℕ} (h : Steady s t) : Steady s (shedStepAt f t) := by
  unfold Machine.shedStepAt
  extract_lets next order k _ t₁ t₂
  have h₂ : Steady s t₂ := h.rest.inc
  clear_value k
  split
  · exact h₂.set
  · exact (h₂.foldl fun h => (Steady.ite h.markLost h.set.set).stopPartition).set

theorem Steady.shedStep {f : ℕ} (h : Steady s t) : Steady s (shedStep f t) := by
  unfold Machine.shedStep
  split
  · exact h
  · exact Steady.ite h (Steady.ite h.shedStepAt h.rest.set.set)

theorem Steady.setHottest {f : ℕ} (h : Steady s t) : Steady s (setHottest f t) := h.set.set.set

theorem Steady.throttle {f : ℕ} (h : Steady s t) : Steady s (throttle f t) := Steady.ite h h.set.set.ledgerInc

theorem Steady.coolWatch {f : ℕ} (h : Steady s t) : Steady s (coolWatch f t) := Steady.ite h.rest h.rest

theorem Steady.convert {n v : ℕ} (h : Steady s t) : Steady s (convert n v t) :=
  (Steady.ite h.setHottest.coolWatch h).bind fun h8 => (Steady.ite h8.holdFault (h8.dropFault.bind fun h7 => (Steady.ite h7
    ((Steady.ite h7.throttle h7).bind fun h6 => ((Steady.ite h6.loseCapacity h6).bind fun h5 => (Steady.ite h5.set.shedStepAt.ledgerInc h5))))))

theorem Steady.sensorConversion {n : ℕ} {r : Option ℕ} (h : Steady s t) : Steady s (sensorConversion n r t) := by
  unfold Machine.sensorConversion
  split
  · exact h.rest.convert
  · exact Steady.ite h.rest.convert h.rest

theorem Steady.throttleRelease {f : ℕ} (h : Steady s t) : Steady s (throttleRelease f t) := by
  unfold Machine.throttleRelease
  split
  · exact Steady.ite h.set.set h
  · exact h

theorem Steady.sensorRead (h : Steady s t) : Steady s (sensorRead t) := by
  refine h.foldl fun h => ?_
  split
  · exact h
  · exact (Steady.ite h h.set).set.set.rest

theorem Steady.maxClear {n : ℕ} (h : Steady s t) : Steady s (maxClear n t) := h.set

theorem Steady.wearMinute (h : Steady s t) : Steady s (wearMinute t) := (h.setLedger.foldl (·.setLedger)).rest.ledgerCrc

/-! ### What the functions of Views keep -/

theorem Steady.fatalRecordWrite (h : Steady s t) : Steady s (fatalRecordWrite t) := Steady.ite h h.rest.ledgerInc

/-! ### What the functions of Address keep -/

theorem Steady.putField {f : Fld} {i x : ℕ} (h : Steady s t) : Steady s (putField f i x t) := Steady.ite (Steady.ite h.set h) (Steady.ite h.set h)

theorem Steady.writeField {w : Wr} {f : Fld} (h : Steady s t) : Steady s (writeField w f t) := by
  by_cases hro : f.acc = .ro
  · rw [writeField_readOnly w (.inl hro)]
    exact h
  · by_cases hw : f.acc = .w1c
    · cases ht : w.touches f with
      | false => rw [writeField_untouched ht]; exact h
      | true => rw [writeField_w1c ht hw]; exact h.set
    · rcases writeField_keeps_or_puts w hw t with e | e
      · rw [e]; exact h
      · rw [e]; exact h.putField

theorem Steady.writeFields {w : Wr} {fs : List Fld} (h : Steady s t) : Steady s (writeFields w fs t) := h.foldl (·.writeField)

/-! ### What the functions of RegWrite keep -/

theorem Steady.permit {ok : Bool} {f : State → State} (h : Steady s t) (hf : ∀ {u : State}, Steady s u → Steady s (f u)) :
    Steady s (permit ok f t).2 :=
  Steady.iteSnd (hf h).pair h

theorem Steady.coordCfgWrite {w : Wr} {fs : List Fld} (h : Steady s t) : Steady s (coordCfgWrite w fs t) :=
  h.writeFields.bind fun h2 => (Steady.ite h2 h2.restartCoord)

theorem Steady.mainsCfgWrite {w : Wr} {fs : List Fld} (h : Steady s t) : Steady s (mainsCfgWrite w fs t) :=
  h.writeFields.bind fun h2 => (Steady.ite h2.stopMains h2)

theorem Steady.letStep (h : Steady s t) : Steady s (letStep t) := Steady.ite h.set h

theorem Steady.rscStep (h : Steady s t) : Steady s (rscStep t) := Steady.ite h.set h

theorem Steady.letWrite {v : ℕ} (h : Steady s t) : Steady s (letWrite v t) := h.rest.letStep

theorem Steady.rscWrite {v : ℕ} (h : Steady s t) : Steady s (rscWrite v t) := h.rest.rscStep

theorem Steady.tLoadWrite {w : Wr} (h : Steady s t) : Steady s (tLoadWrite w t) := Steady.ite h.tLoad (Steady.ite h.rest h.tLoad)

theorem Steady.trigCfgWrite {w : Wr} {fs : List Fld} (h : Steady s t) : Steady s (trigCfgWrite w fs t).2 := h.permit (·.keepTrig.noteEn.writeFields)

theorem Steady.rsCfgWrite {w : Wr} {fs : List Fld} (h : Steady s t) : Steady s (rsCfgWrite w fs t).2 := h.permit (·.writeFields)

theorem Steady.laneCfgWrite {w : Wr} {fs : List Fld} (h : Steady s t) : Steady s (laneCfgWrite w fs t) :=
  h.keepOld.keepOld.keepOld.keepOld.writeFields

theorem Steady.chCfgWrite {w : Wr} {fs : List Fld} (h : Steady s t) : Steady s (chCfgWrite w fs t).2 := h.permit (·.keepOld.writeFields)

theorem Steady.chCmpWrite {w : Wr} {fs : List Fld} (h : Steady s t) : Steady s (chCmpWrite w fs t) := h.writeFields.cmpWritten

theorem Steady.ilkTestWrite {w : Wr} {fs : List Fld} (h : Steady s t) : Steady s (ilkTestWrite w fs t) := h.writeFields.rest

theorem Steady.ilkForceWrite {w : Wr} {fs : List Fld} (h : Steady s t) : Steady s (ilkForceWrite w fs t) := h.writeFields.beginForces

theorem Steady.svCtlWrite {w : Wr} (h : Steady s t) : Steady s (svCtlWrite w t) :=
  h.writeField.writeField.bind fun h6 => ((Steady.ite h6.svResetWrite h6).bind fun h5 => ((Steady.ite h5.cmpTest h5).bind fun h4 =>
    (Steady.ite h4.svRunWrite h4)))

theorem Steady.svBootWrite {w : Wr} (h : Steady s t) : Steady s (svBootWrite w t) := Steady.ite h h.set

theorem Steady.svWdogWrite {init : ℕ} {priv : Bool} {w : Wr} (h : Steady s t) : Steady s (svWdogWrite init priv w t).2 :=
  Steady.iteSnd h (h.writeField.writeField.bind fun h4 => ((Steady.ite h4.kick h4).bind fun h3 => (Steady.ite h3.kick h3).pair))

theorem Steady.mbxInWrite {init : ℕ} {w : Wr} {fs : List Fld} (h : Steady s t) : Steady s (mbxInWrite init w fs t).2 :=
  h.permit (·.writeFields.set.set)

theorem Steady.mbxOutWrite {init : ℕ} {priv : Bool} {w : Wr} {fs : List Fld} (h : Steady s t) : Steady s (mbxOutWrite init priv w fs t).2 :=
  h.permit (·.writeFields.set)

theorem Steady.ccCtlWrite {w : Wr} (h : Steady s t) : Steady s (ccCtlWrite w t) := h.writeField.bind fun h2 => (Steady.ite h2.coreReset h2)

theorem Steady.dbgCtlWrite {k : ℕ} {fHalt fStep fSel : Fld} {w : Wr} (h : Steady s t) : Steady s (dbgCtlWrite k fHalt fStep fSel w t) := by
  unfold Machine.dbgCtlWrite
  extract_lets t₁ t₂
  have h₂ : Steady s t₂ := Steady.ite h.writeField.haltReqWrite h.writeField
  exact Steady.ite h₂.stepWrite h₂

theorem Steady.thrCfgWrite {w : Wr} {fs : List Fld} (h : Steady s t) : Steady s (thrCfgWrite w fs t).2 := by
  unfold Machine.thrCfgWrite
  refine Steady.iteSnd ?_ ?_
  · exact h.writeFields.pair
  · split
    · rename_i e
      exact (h.thrOp e).writeFields.pair
    · exact h

theorem Steady.evCfgWrite {w : Wr} {fs : List Fld} (h : Steady s t) : Steady s (evCfgWrite w fs t) :=
  h.writeFields.bind fun h2 => (Steady.ite h2.raiseEvent h2)

theorem Steady.lkWrite {init : ℕ} {w : Wr} (h : Steady s t) : Steady s (lkWrite init w t) :=
  (Steady.ite h.lockRelease h).bind fun h2 => (Steady.ite h2.lockForce h2)

theorem Steady.fkCfgWrite {w : Wr} (h : Steady s t) : Steady s (fkCfgWrite w t) :=
  h.writeField.bind fun h4 => (Steady.ite h4.writeField h4).withNFlt (·.writeField)

theorem Steady.mcCmdWrite {op : ℕ} (h : Steady s t) : Steady s (mcCmdWrite op t) := Steady.ite h.set (Steady.ite h.set.set.raiseEvent h.rest.set.set)

theorem Steady.dlCtlWrite {w : Wr} (h : Steady s t) : Steady s (dlCtlWrite w t) := (Steady.ite h h.writeField).writeField.writeField

theorem Steady.spillCfgWrite {w : Wr} {fs : List Fld} (h : Steady s t) : Steady s (spillCfgWrite w fs t).2 := h.permit (·.writeFields)

theorem Steady.bankPwrRegWrite {init : ℕ} {w : Wr} (h : Steady s t) : Steady s (bankPwrRegWrite init w t).2 :=
  Steady.iteSnd h (Steady.iteSnd (h.permit (·.takeOffline)) h.bankPwrWrite)

theorem Steady.arithWrite {w : Wr} {fs : List Fld} (h : Steady s t) : Steady s (arithWrite w fs t) := h.writeFields.rest

theorem Steady.regWrite {init : ℕ} {priv full : Bool} {b : Blk} {d : RegDef} {w : Wr} (h : Steady s t) :
    Steady s (regWrite init priv full b d w t).2 := by
  unfold Machine.regWrite
  refine Steady.iteSnd ?_ ?_
  · exact h
  · split
    · exact h.permit (fun h => (Steady.ite h h.writeFields))
    · exact h.spillCfgWrite
    · exact (Steady.ite h.clearMarks h).pair
    · exact h.writeFields.bind fun h11 => (Steady.ite h11.set h11).pair
    · exact (Steady.ite h.set h).pair
    · exact Steady.iteSnd h (h.permit (·.writeFields))
    · exact h.permit (·.writeFields)
    · exact h.permit (·.writeFields)
    · exact h.permit (·.writeFields)
    · exact h.permit (·.writeFields)
    · exact h.permit (·.writeFields)
    · exact h.permit (·.writeFields)
    · exact h.bankOwnWrite
    · exact h.bankPwrRegWrite
    · exact h.arithWrite.pair
    · exact h.dlCtlWrite.pair
    · exact h.permit (fun h => (Steady.ite h.apCmdWrite h))
    · exact h.permit (·.writeFields)
    · exact h.permit (·.writeFields)
    · exact h.permit (·.writeFields)
    · exact h.permit (·.writeFields)
    · exact h.permit (·.writeFields)
    · exact h.permit (·.writeFields)
    · exact h.permit (·.writeFields)
    · exact h.permit (·.writeFields)
    · exact (Steady.ite h.set h).pair
    · exact h.permit (·.tLoadWrite)
    · exact h.permit (·.coordCfgWrite)
    · exact h.permit (·.writeFields)
    · exact h.permit (·.writeFields)
    · exact h.permit (·.mainsCfgWrite)
    · exact h.permit (·.letWrite)
    · exact h.permit (·.rscWrite)
    · exact h.rsCfgWrite
    · exact h.permit (·.writeFields)
    · exact h.permit (·.writeFields)
    · exact h.permit (·.writeFields)
    · exact h.trigCfgWrite
    · exact h.keepTrig.noteTarget.writeFields.pair
    · exact h.permit (·.writeFields)
    · exact h.permit (·.writeFields)
    · exact h.permit (·.laneCfgWrite)
    · exact Steady.iteSnd h.writeField.writeField.pair (h.permit (·.writeFields))
    · exact h.permit (·.writeFields)
    · exact h.permit (fun h => (Steady.ite h.pfDrop h))
    · exact h.chCfgWrite
    · exact h.permit (·.writeFields)
    · exact h.permit (·.writeFields.cmpWritten)
    · exact h.permit (fun h => h.chCmpWrite)
    · exact h.permit (·.keepOld.keepOld.writeFields)
    · exact h.permit (·.ilkTestWrite)
    · exact h.permit (·.writeFields)
    · exact h.barCfgWrite.pair
    · exact (Steady.ite h.barArriveWrite h).pair
    · exact (Steady.ite h.gschedWrite h).pair
    · exact h.permit (·.ccCtlWrite)
    · exact h.permit (·.set)
    · exact h.dbgCtlWrite.pair
    · exact h.permit (·.dbgWrite)
    · exact h.thrCfgWrite
    · exact (Steady.ite h.schedOp h).pair
    · exact h.evCfgWrite.pair
    · exact h.doorbell.pair
    · exact h.lkWrite.pair
    · exact h.permit (·.svCtlWrite)
    · exact h.svBootWrite.pair
    · exact h.permit (·.dbgCtlWrite)
    · exact h.permit (·.dbgWrite)
    · exact h.writeFields.set.pair
    · exact h.svWdogWrite
    · exact h.mbxInWrite
    · exact h.mbxOutWrite
    · exact h.permit (·.ilkForceWrite)
    · exact h.permit (·.ilkRelease)
    · exact h.permit (·.keepOld.writeFields)
    · exact Steady.iteSnd (h.permit (·.popLog)) h
    · exact h.permit (·.writeFields)
    · exact Steady.iteSnd h.injCtlWrite h
    · exact Steady.iteSnd (h.permit (·.clearRecord)) h
    · exact h.fkCfgWrite.pair
    · exact Steady.iteSnd (h.permit (fun h => h.withNFlt (·.ackKind))) h
    · exact h.permit (fun h => (Steady.ite h.mcCmdWrite h))
    · exact h.permit (·.writeFields)
    · exact h.permit (·.writeFields)
    · exact h.permit (·.writeFields)
    · exact (Steady.ite h.maxClear h).pair
    · exact h.capCfgWrite
    · exact h.permit (·.writeFields)
    · exact h.capRpWrite.pair
    · exact h.keepOld.keepOld.writeFields.pair
    · exact (Steady.ite h.auxCfgWrite h).pair
    · exact h.permit (·.pwrCtlWrite)
    · exact h.writeFields.pair

/-! ### What the functions of Access keep -/

theorem Steady.holdEntry {init c e natural : ℕ} (h : Steady s t) : Steady s (holdEntry init c e natural t) := h.checkWay.rest

theorem Steady.windowRead {init c e part : ℕ} {lower : Bool} {natural : ℕ} (h : Steady s t) : Steady s (windowRead init c e part lower natural t).2 :=
  (Steady.ite h.holdEntry h).pair

theorem Steady.msixWrite {i v : ℕ} (h : Steady s t) : Steady s (msixWrite i v t) := h.rest

theorem Steady.tNowRead {init : ℕ} {full lower : Bool} {v : BitVec 64} (h : Steady s t) : Steady s (tNowRead init full lower v t).2 := by
  unfold Machine.tNowRead
  refine Steady.iteSnd ?_ ?_
  · exact h
  · refine Steady.iteSnd ?_ ?_
    · exact h.rest.pair
    · split
      · exact h.rest.pair
      · exact h

theorem Steady.regRead {init : ℕ} {priv full lower : Bool} {d : RegDef} {i : ℕ} (h : Steady s t) :
    Steady s (regRead init priv full lower d i t).2 := by
  unfold Machine.regRead
  extract_lets
  split
  · split
    rename_i e1
    exact (h.tNowRead.snd e1).pair
  · refine Steady.iteSnd ?_ ?_
    · exact h
    · refine Steady.iteSnd ?_ ?_
      · exact h
      · split
        rename_i e1
        exact (h.lockAcquire.snd e1).pair
  · refine Steady.iteSnd ?_ ?_
    · exact h
    · refine Steady.iteSnd ?_ ?_
      · split
        · rename_i e1
          exact (h.schedClaim.snd e1).pair
        · rename_i e1
          exact (h.schedClaim.snd e1).pair
      · exact h
  · exact h.letStep.pair
  · exact h.rscStep.pair
  · exact Steady.iteSnd h h
  · exact Steady.iteSnd h h
  · exact Steady.iteSnd h h
  · exact (Steady.ite h.set h).pair
  · exact (Steady.ite h.set h).pair
  · exact h
  · exact h

theorem Steady.memCheck {a natural : ℕ} (h : Steady s t) : Steady s (memCheck a natural t).2 := by
  unfold Machine.memCheck
  refine Steady.iteSnd ?_ ?_
  · split
    rename_i e
    have h1 := (h.secded.snd2 e)
    exact Steady.iteSnd h1.report.pair (Steady.iteSnd h1.report.pair h1.pair)
  · split
    rename_i e
    exact (h.ctlCheck.snd e).pair

theorem Steady.accRead {init : ℕ} {priv full : Bool} {natural a : ℕ} (h : Steady s t) : Steady s (accRead init priv full natural a t).2 := by
  unfold Machine.accRead
  refine Steady.iteSnd ?_ ?_
  · exact h
  · split
    · exact h
    · split
      · exact h.failAccess.pair
      · split
        · rename_i e2
          exact (h.bankRead.snd e2).pair
        · rename_i e2
          exact (h.bankRead.snd e2).pair
    · refine Steady.iteSnd ?_ ?_
      · exact h
      · extract_lets
        split
        · split
          rename_i e2
          split <;> exact (h.regRead.snd e2).pair
        · exact h
        · exact h
        · exact h
        · exact h
        · exact h
        · split
          rename_i e2
          exact (h.windowRead.snd e2).pair
        · split
          rename_i e2
          have h20 := (h.memCheck.snd e2)
          exact Steady.iteSnd h20.pair h20.pair
        · split
          rename_i e2
          have h22 := (h.memCheck.snd e2)
          exact Steady.iteSnd h22.pair h22.pair
        · exact Steady.iteSnd h h
        · exact h
        · exact h
        · exact h
        · exact h

theorem Steady.slotWrite {full : Bool} {n a v : ℕ} (h : Steady s t) : Steady s (slotWrite full n a v t) := h.writeN

/-! ### STATE is read-only wherever it stands (R17) -/

theorem Steady.accWrite {init : ℕ} {priv full : Bool} {op natural a v : ℕ} (h : Steady s t) :
    Steady s (accWrite init priv full op natural a v t).2 := by
  unfold Machine.accWrite
  refine Steady.iteSnd h ?_
  split
  · exact h
  · split
    · exact h.failAccess.pair
    · exact h.bankWrite.pair
  · rename_i p _ hp
    refine Steady.iteSnd h ?_
    have mem {u : State} (h : Steady s u) : Steady s (if inSvWindow a && u.flag F.svCtl_LOCK 0 && !fromSv init then (false, u)
          else
            let (bad, s) := if full then (false, u) else Machine.memCheck (a / 8 * 8) natural u
            if bad then (false, s) else (true, Machine.endReservations a (Machine.slotWrite full 8 a v s))).2 := by
      refine Steady.iteSnd h ?_
      split
      rename_i e
      have h' := (Steady.iteSnd h h.memCheck).snd e
      exact Steady.iteSnd h'.pair h'.slotWrite.endReservations.pair
    split
    · exact h.regWrite
    · exact h
    · exact h
    · exact h
    · exact h
    · exact h
    · exact h.permit (·.slotWrite)
    · exact h.permit (·.slotWrite)
    · exact mem h
    · exact mem h
    · exact h.slotWrite.pair
    · exact h.slotWrite.pair
    · exact (Steady.ite h.msixWrite h).bind fun h => (Steady.ite h.msixWrite h).pair
    · exact h.permit (·.slotWrite)

theorem Steady.sendBeside {side : Side} {init trans op : ℕ} {full : Bool} {a data : W} (h : Steady s t) :
    Steady s (sendBeside side init trans op full a data t) :=
  Steady.ite h h.rest.startTimer.send

theorem Steady.sendReq {init trans op : ℕ} {full : Bool} {a : W} {data : BitVec 64} (h : Steady s t) :
    Steady s (sendReq init trans op full a data t) :=
  h.sendBeside

theorem Steady.takeRsp {init trans : ℕ} {r : HubRsp} (h : Steady s t) (e : takeRsp init trans t = some (r, u)) : Steady s u := by
  obtain ⟨q, -, e⟩ := Option.map_eq_some_iff.1 e
  exact h.rest.eqPair e

theorem Steady.leaveRsp {r : HubRsp} (h : Steady s t) : Steady s (leaveRsp r t) := h.rest

theorem Steady.hubRead {init trans : ℕ} {priv full : Bool} {natural : ℕ} {a : W} (h : Steady s t) :
    Steady s (hubRead init trans priv full natural a t) := by
  unfold Machine.hubRead
  refine Steady.ite ?_ ?_
  · split
    rename_i e
    split <;> exact (h.accRead.snd e).leaveRsp
  · exact h.sendReq

theorem Steady.hubWrite {init trans : ℕ} {priv full : Bool} {natural : ℕ} {a : W} {v : ℕ} (h : Steady s t) :
    Steady s (hubWrite init trans priv full natural a v t) := by
  unfold Machine.hubWrite
  refine Steady.ite ?_ ?_
  · split
    · rename_i e
      exact (h.accWrite.snd e).leaveRsp
    · rename_i e
      exact (h.accWrite.snd e).leaveRsp
  · exact h.sendReq

theorem Steady.hubNarrow {init trans op : ℕ} {a : W} (h : Steady s t) : Steady s (hubNarrow init trans op a t) := Steady.ite h.leaveRsp h.sendBeside

theorem Steady.takeSys {p : ℕ → Bool} {f : Flit} (h : Steady s t) (e : takeSys p t = some (f, u)) : Steady s u := by
  obtain ⟨q, -, e⟩ := Option.map_eq_some_iff.1 e
  exact h.rest.eqPair e

theorem Steady.respondWide {n ret : ℕ} {v : BitVec 64} {cls urg : ℕ} (h : Steady s t) : Steady s (respondWide n ret v cls urg t) := h.send

theorem Steady.sysAnswer {f : Flit} {r : Rd} (h : Steady s t) : Steady s (sysAnswer f r t) := by
  unfold Machine.sysAnswer
  extract_lets
  split
  · exact h.respondWide
  · exact h.respond

theorem Steady.sysRefuse {f : Flit} (h : Steady s t) : Steady s (sysRefuse f t) := h.reqErr.sysAnswer

theorem Steady.writeSlots {init natural a : ℕ} {vs : List ℕ} (h : Steady s t) : Steady s (writeSlots init natural a vs t).2 := by
  induction vs generalizing t a with
  | nil => exact h
  | cons v vs ih =>
    unfold Machine.writeSlots
    exact ih h.accWrite

theorem Steady.sysRead {src : Option HubAcc} {natural : ℕ} (h : Steady s t) : Steady s (sysRead src natural t) := by
  unfold Machine.sysRead
  split
  · exact h.hubRead
  · split
    · exact h
    · rename_i e1
      have h4 := (h.takeSys e1)
      refine Steady.ite ?_ ?_
      · exact h4.sysRefuse
      · refine Steady.ite ?_ ?_
        · exact h4.sysAnswer
        · split
          rename_i e2
          exact (h4.accRead.snd e2).sysAnswer

theorem Steady.sysWrite {src : Option HubAcc} {v : BitVec 64} {natural : ℕ} (h : Steady s t) : Steady s (sysWrite src v natural t) := by
  unfold Machine.sysWrite
  split
  · exact h.hubWrite
  · split
    · exact h
    · rename_i e1
      have h4 := (h.takeSys e1)
      refine Steady.ite ?_ ?_
      · exact h4.sysRefuse
      · refine Steady.ite ?_ ?_
        · exact h4.sysAnswer
        · split
          · rename_i e2
            exact (h4.accWrite.snd e2).sysAnswer
          · rename_i e2
            exact (h4.accWrite.snd e2).sysAnswer

theorem Steady.bulkWrite {natural : ℕ} (h : Steady s t) : Steady s (bulkWrite natural t) := by
  unfold Machine.bulkWrite
  split
  · exact h
  · rename_i e
    have h2 := (h.takeSys e)
    refine Steady.ite ?_ ?_
    · exact h2.sysRefuse
    · split
      · rename_i e1
        exact (h2.writeSlots.snd e1).sysAnswer
      · rename_i e1
        exact (h2.writeSlots.snd e1).sysAnswer

/-! ### What the functions of Image keep -/

theorem Steady.flashErase {a n : ℕ} (h : Steady s t) : Steady s (flashErase a n t) := h.rest

theorem Steady.flashWrite {a : ℕ} {l : List ℕ} (h : Steady s t) : Steady s (flashWrite a l t) := by
  induction l generalizing a t with
  | nil => exact h
  | cons b l ih => exact ih h.rest

theorem Steady.putBootRec {r : BootRec} (h : Steady s t) : Steady s (putBootRec r t) := h.flashErase.flashWrite

theorem Steady.applyConfig {l : List (ℕ × Bool × ℕ)} (h : Steady s t) : Steady s (applyConfig l t).2 := by
  induction l generalizing t with
  | nil => exact h
  | cons x l ih =>
    unfold Machine.applyConfig
    split
    · rename_i e
      exact ih (h.accWrite.snd e)
    · rename_i e
      exact h.accWrite.snd e

theorem Steady.loadLet {e : ℕ} {b : List ℕ} (h : Steady s t) : Steady s (loadLet e b t) := h.foldl (·.rest)

theorem Steady.loadRsCoef {b : List ℕ} (h : Steady s t) : Steady s (loadRsCoef b t) := h.foldl (·.rest)

/-! ### What the functions of Boot keep -/

theorem Steady.unlessFailed {f : State → State} (h : Steady s t) (hf : ∀ {u : State}, Steady s u → Steady s (f u)) : Steady s (unlessFailed f t) :=
  Steady.ite h (hf h)

theorem Steady.startStep {n : ℕ} (h : Steady s t) : Steady s (startStep n t) := h.set.rest.mcEvent

theorem Steady.withSection {x : Section} {f : List ℕ → State → State} (h : Steady s t)
    (hf : ∀ {y : List ℕ} {u : State}, Steady s u → Steady s (f y u)) : Steady s (withSection x f t) :=
  Steady.ite (hf h) h.bootFail

theorem Steady.loadSections {t' : ℕ} {f : Section → List ℕ → State → State} (h : Steady s t)
    (hf : ∀ {y : Section} {z : List ℕ} {u : State}, Steady s u → Steady s (f y z u)) : Steady s (loadSections t' f t) :=
  h.foldl (fun h => h.unlessFailed (fun h => h.withSection (fun h => (hf h))))

theorem Steady.configStep {n : ℕ} (h : Steady s t) : Steady s (configStep n t) := by
  refine h.foldl fun h => h.unlessFailed fun h => h.withSection fun h => ?_
  split
  · rename_i e
    exact h.applyConfig.snd e
  · rename_i e
    exact (h.applyConfig.snd e).bootFail

theorem Steady.loadCtl {n a : ℕ} {b : List ℕ} (h : Steady s t) : Steady s (loadCtl n a b t) := by
  induction n generalizing a b t with
  | zero => exact h
  | succ n ih => exact ih h.ctlWrite

theorem Steady.loadFw {x : Section} {b : List ℕ} (h : Steady s t) : Steady s (loadFw x b t) := h.loadCtl

theorem Steady.logDiscovery (h : Steady s t) : Steady s (logDiscovery t) := by
  unfold Machine.logDiscovery
  split
  · exact h.set.rest
  · exact h

theorem Steady.carry {src : State} {l : List (Fld × ℕ)} (h : Steady s t) : Steady s (carry src l t) := h.foldl (·.foldl (·.set))

/-- Where the backup domain lost its contents the era goes with them (R416, R456). -/
theorem checkVbat_keepsClock {ok : Bool} : KeepsClock t (checkVbat ok t) := by
  unfold Machine.checkVbat
  split
  · have hlost : KeepsClock t { t with era := 0, flt := { t.flt with vbat := [] }, mc := { t.mc with ledger := [] } } := ⟨rfl, rfl, rfl⟩
    exact hlost.steady (Steady.refl _).set.setLedger.ledgerCrc.mcEvent
  · exact (KeepsClock.refl t).steady (Steady.ite (Steady.refl t).ledgerCrc.mcEvent (Steady.refl t))

theorem steps12_keepsClock {b : BootIn} : KeepsClock t (steps12 b t) := by
  unfold Machine.steps12
  extract_lets t₁ t₂ t₃ t₄ t₅ t₆
  have h₁ : Steady t t₁ := (Steady.refl t).set.set
  have h₄ : Steady t t₄ := (Steady.ite h₁.logDiscovery h₁).startStep.set.set.linkEvent
  have h₅ : KeepsClock t t₅ := (((KeepsClock.refl t).steady h₄).trans checkVbat_keepsClock).steady (Steady.refl _).ledgerInc
  have h₆ : KeepsClock t t₆ := h₅.steady (Steady.refl _).startStep
  split
  · exact h₆
  · exact h₆.steady (Steady.refl _).bootFail

theorem Steady.chooseSlot (h : Steady s t) : Steady s (chooseSlot t).2 := by
  unfold Machine.chooseSlot
  exact Steady.iteSnd h.putBootRec.pair (Steady.iteSnd h.putBootRec.mcEvent.pair h)

theorem Steady.bootSlot {slot : ℕ} (h : Steady s t) : Steady s (bootSlot slot t) := h.set.set.rest.mcEvent

theorem steps34_keepsClock {b : BootIn} : KeepsClock t (steps34 b t) := by
  unfold Machine.steps34
  extract_lets t₁ _ t₂
  have h₁ : KeepsClock t t₁ := ((KeepsClock.refl t).steady (Steady.refl t).startStep).trans startCollector_keepsClock
  clear_value t₁
  have h : Steady t₁ t₁ := .refl t₁
  refine h₁.steady (Steady.ite h.set.bootFail ?_)
  have h₂ : Steady t₁ t₂ := h.rest
  split
  rename_i e
  exact (h₂.chooseSlot.snd e).startStep.bind fun h₃ => Steady.ite h₃.bootSlot (h₃.mcEvent.bind fun h₄ =>
    Steady.ite h₄.bootSlot h₄.set.bootFail)

theorem Steady.step5 {b : BootIn} (h : Steady s t) : Steady s (step5 b t) := by
  unfold Machine.step5
  exact h.startStep.configStep.unlessFailed (fun h => ((h.foldl (·.set)).foldl (fun h => (Steady.ite h (Steady.ite h h.reportU).rest))).applyVf)

theorem Steady.bistBank {b : ℕ} {o : ℕ × ℕ} (h : Steady s t) : Steady s (bistBank b o t) :=
  (Steady.ite h.set.set h.set.set.mcEvent).bind fun h3 => (Steady.ite h3.set.set.set h3)

theorem Steady.ledgerBist {i soft off : ℕ} (h : Steady s t) : Steady s (ledgerBist i soft off t) := h.setLedger

theorem Steady.step6 {b : BootIn} (h : Steady s t) : Steady s (step6 b t) := by
  unfold Machine.step6
  exact h.startStep.configStep.unlessFailed (fun h => (Steady.ite h.bootFail ((((h.foldl (·.set)).foldl (·.bistBank)).foldl
    (·.ledgerBist)).ledgerBist.ledgerCrc.bind fun h10 => (Steady.ite h10 h10.bootFail))))

theorem Steady.startPes {c : ℕ} (h : Steady s t) : Steady s (startPes c t) := h.foldl (·.set)

theorem Steady.step7 (h : Steady s t) : Steady s (step7 t) :=
  ((h.startStep.foldl (fun h => h.unlessFailed (fun h => h.withSection (·.rest)))).loadSections (fun h => (Steady.ite h.bootFail (h.rest.foldl
    (·.writeGolden.set.startPes))))).unlessFailed (·.configStep)

theorem Steady.addrsOpen (h : Steady s t) : Steady s (addrsOpen t) := by
  unfold Machine.addrsOpen
  extract_lets t₁
  have h₁ : Steady s t₁ := by
    unfold t₁
    split
    · exact h
    · exact h.setFree.set.setFree
  exact h₁.setFree.setFree

theorem Steady.bringUp {b : BootIn} (h : Steady s t) : Steady s (bringUp b t) := Steady.ite h.cmpTest.svRunWrite h.cmpTest.bootFail

theorem Steady.step8 {b : BootIn} (h : Steady s t) : Steady s (step8 b t) :=
  ((((h.startStep.loadSections (·.loadLet)).loadSections (·.loadRsCoef)).addrsOpen.loadSections (·.loadFw)).unlessFailed
    (·.configStep)).unlessFailed (·.bringUp)

theorem Steady.step9 (h : Steady s t) : Steady s (step9 t) :=
  h.startStep.configStep.bind fun h5 => ((Steady.ite h5.linkTo h5).bind fun h4 => (Steady.ite h4.linkTo h4).rest)

theorem Steady.step10 (h : Steady s t) : Steady s (step10 t) := (h.startStep.loadSections (·.loadFw)).unlessFailed (·.configStep)

theorem Steady.bootTick (h : Steady s t) : Steady s (bootTick t) := Steady.ite h (Steady.ite h.step10 (Steady.ite h.bootFail h))

theorem Steady.stepsOn {b : BootIn} (h : Steady s t) : Steady s (stepsOn b t) := by
  refine ((h.step6.unlessFailed (·.step7)).unlessFailed (·.step8)).unlessFailed fun h => ?_
  split
  · exact h.step10
  · exact h.step9

theorem Steady.awaitVf (h : Steady s t) : Steady s (awaitVf t) := by
  unfold Machine.awaitVf
  split
  · exact Steady.ite h.rest.stepsOn h
  · exact h

theorem Steady.step5Wait {b : BootIn} (h : Steady s t) : Steady s (step5Wait b t) := h.step5.unlessFailed (·.rest.awaitVf)

theorem coldBase_leaves : (coldBase t).t = 0 ∧ (coldBase t).pending = t.pending ∧ (coldBase t).era = t.era ∧ (coldBase t).ticks = t.ticks := by
  unfold Machine.coldBase
  extract_lets _ _ _ _ _ _ r
  obtain ⟨⟨hpending, htime, hticks⟩, hera, -, -⟩ := (Steady.refl r).carry (src := t)
    (l := [(F.otpStat_KEYS, 1), (F.otpStat_REVOKED, 1), (F.otpStat_SVN, 1), (F.devId_HEAD, 1), (F.devId_TAIL, 1)])
  exact ⟨htime, hpending, hera, hticks⟩

theorem KeepsClock.unlessFailed {f : State → State} (h : KeepsClock s t) (hf : ∀ {u : State}, KeepsClock u (f u)) :
    KeepsClock s (unlessFailed f t) := by
  unfold Machine.unlessFailed
  split
  · exact h
  · exact h.trans hf

/-- A cold reset keeps the queue and the count of ticks. -/
theorem coldReset_leaves {b : BootIn} : (coldReset b t).pending = t.pending ∧ (coldReset b t).ticks = t.ticks := by
  unfold Machine.coldReset
  refine ite_leaves ⟨rfl, rfl⟩ ?_
  obtain ⟨-, hpending, -, hticks⟩ := coldBase_leaves (t := t)
  have hboot : KeepsClock (coldBase t) (Machine.unlessFailed (Machine.step5Wait b) (Machine.unlessFailed (Machine.steps34 b) (Machine.steps12 b (coldBase t)))) :=
    (steps12_keepsClock.unlessFailed steps34_keepsClock).unlessFailed fun {u} => (Steady.refl u).step5Wait.toKeepsClock
  exact ⟨hboot.pending.trans hpending, hboot.ticks.trans hticks⟩

theorem Steady.bootTimeout (h : Steady s t) : Steady s (bootTimeout t) := by
  unfold Machine.bootTimeout
  split
  · exact h
  · exact Steady.ite h.bootFail h

/-- Power-on reset takes T to zero, and leaves queue, era and the count of ticks (R453, R455). -/
theorem powerReset_leaves : (powerReset t).t = 0 ∧ (powerReset t).pending = t.pending ∧ (powerReset t).era = t.era ∧
    (powerReset t).ticks = t.ticks := by
  unfold Machine.powerReset
  dsimp only
  exact coldBase_leaves

theorem Steady.snapWrite {off : ℕ} {w : ℕ × ℕ} (h : Steady s t) : Steady s (snapWrite off w t) := Steady.ite h h.ctlWrite

theorem Steady.snapshot (h : Steady s t) : Steady s (snapshot t) := by
  unfold Machine.snapshot
  split
  · exact h
  · exact h.dropStaged.clearStaged.bind fun h8 => (Steady.ite h8.set (h8.inc.foldl (·.snapWrite)).set)

theorem warmBase_keepsClock : KeepsClock t (warmBase t) := by
  unfold Machine.warmBase
  extract_lets _ _ _ _ _ _ _ _ _ _ r₂ r₃ r₄ r₅ r₆
  have h₂ : KeepsClock t r₂ := ⟨rfl, rfl, rfl⟩
  have h₄ : Steady r₂ r₄ := (Steady.refl r₂).carry.set.set
  have h₅ : Steady r₂ r₅ := Steady.ite h₄.set h₄
  have h₆ : Steady r₂ r₆ := Steady.ite h₅.set h₅
  exact h₂.steady h₆.set

theorem warmReset_keepsClock {b : BootIn} : KeepsClock t (warmReset b t) := by
  unfold Machine.warmReset
  split
  · exact .refl t
  · split
    · exact .refl t
    · exact warmBase_keepsClock.steady (Steady.refl _).step5Wait

theorem Steady.rewriteStore {c : ℕ} (h : Steady s t) : Steady s (rewriteStore c t) := by
  unfold Machine.rewriteStore
  refine Steady.ite ?_ ?_
  · exact h.writeGolden
  · split
    · exact h.writeGolden.writeGolden
    · exact h.writeGolden

theorem Steady.reloadOver {c : ℕ} (h : Steady s t) : Steady s (reloadOver c t) := h.rest.set

theorem Steady.restartPes {c : ℕ} (h : Steady s t) : Steady s (restartPes c t) := h.startPes.reloadOver

theorem Steady.wrongWord {c : ℕ} (h : Steady s t) : Steady s (wrongWord c t) := by
  unfold Machine.wrongWord
  split
  rename_i e
  split
  rename_i e1
  exact ((h.freeVal.snd e).freeVal.snd e1).writeN

theorem Steady.controlStoreReload {c : ℕ} {good : Bool} {ram : ℕ} (h : Steady s t) : Steady s (controlStoreReload c good ram t) := by
  unfold Machine.controlStoreReload
  refine Steady.ite ?_ ?_
  · exact h
  · split
    rename_i e
    have h1 := (h.goldenRead.snd e)
    exact (Steady.ite h1.rewriteStore h1).inc.bind fun h8 => (Steady.ite ((Steady.ite h8.reloadOver h8.restartPes).bind fun h4 =>
      (Steady.ite h4.rest h4)) ((Steady.ite h8.wrongWord h8).reloadOver.foldl (·.set)).reportU)

/-! ### What the functions of K48 keep -/

theorem Steady.setIdle {k : ℕ} {v : Bool} (h : Steady s t) : Steady s (setIdle k v t) := Steady.ite h.setCore.set h.setCore

theorem Steady.setLastPc {k : ℕ} {pc : W} (h : Steady s t) : Steady s (setLastPc k pc t) := Steady.ite h.set h.set

theorem Steady.retired {k : ℕ} {old : W} {c : Core} (h : Steady s t) : Steady s (retired k old c t) := h.setCore.setIdle.setLastPc

theorem Steady.retire {k : ℕ} {c : Core} (h : Steady s t) : Steady s (retire k c t) := h.retired.boundary

theorem Steady.retireWith {k rd : ℕ} {r : AR} (h : Steady s t) : Steady s (retireWith k rd r t) := Steady.ite h.retired.takeTrap h.retired.boundary

theorem Steady.faulting {k code : ℕ} {eaddr : W} {arg : ℕ} (h : Steady s t) : Steady s (faulting k code eaddr arg t) := h.takeTrap

theorem Steady.settlePosted {k : ℕ} (h : Steady s t) : Steady s (settlePosted k t) := h.rest.setCore

theorem Steady.regMchk {k n : ℕ} (h : Steady s t) : Steady s (regMchk k n t) := h.reportU.faulting

theorem Steady.runInstr {k : ℕ} {r : KRow} {w : ℕ} {e : CoreErr} {body : ℕ → State → State} (h : Steady s t)
    (hbody : ∀ {y : ℕ} {u : State}, Steady s u → Steady s (body y u)) :
    Steady s (runInstr k r w e body t) := by
  unfold Machine.runInstr
  extract_lets
  split
  · exact h.faulting
  · split
    · exact h.faulting
    · split
      · exact h.regMchk
      · exact hbody h

theorem Steady.coreInstr {r : KRow} {k : ℕ} {e : CoreErr} {body : ℕ → State → State} (h : Steady s t)
    (hbody : ∀ {y : ℕ} {u : State}, Steady s u → Steady s (body y u)) :
    Steady s (coreInstr r k e body t) := by
  unfold Machine.coreInstr
  refine Steady.ite ?_ ?_
  · exact h
  · refine Steady.ite ?_ ?_
    · exact h.faulting
    · refine Steady.ite ?_ ?_
      · exact h.faulting
      · extract_lets
        split
        rename_i e
        have h1 := (h.ctlCheck.snd e)
        refine Steady.ite ?_ ?_
        · exact h1.faulting
        · split
          · exact h1.faulting
          · exact Steady.ite (h1.runInstr (fun h => (hbody h))) h

/-! ### What the functions of Cores keep -/

theorem Steady.kComputeBody {k w : ℕ} (h : Steady s t) : Steady s (kComputeBody k w t) := h.retireWith

theorem Steady.kImmediateBody {k w : ℕ} (h : Steady s t) : Steady s (kImmediateBody k w t) := h.retireWith

theorem Steady.kLdkBody {k w : ℕ} (h : Steady s t) : Steady s (kLdkBody k w t) := h.retireWith

theorem Steady.kInkBody {k w : ℕ} (h : Steady s t) : Steady s (kInkBody k w t) := h.retireWith

theorem Steady.kXrkBody {k w : ℕ} (h : Steady s t) : Steady s (kXrkBody k w t) := h.retireWith

theorem Steady.kFmaBody {k w : ℕ} (h : Steady s t) : Steady s (kFmaBody k w t) := h.retireWith

theorem Steady.finishLoad {k : ℕ} (h : Steady s t) : Steady s (finishLoad k t) := by
  unfold Machine.finishLoad
  split
  · exact h
  · split
    · exact h
    · rename_i e1
      have h4 := (h.takeRsp e1)
      refine Steady.ite ?_ ?_
      · exact h4.faulting
      · split
        · exact h4.regMchk
        · exact h4.retire

theorem Steady.loadAccess {k t' n natural : ℕ} {a : W} (h : Steady s t) : Steady s (loadAccess k t' n natural a t) := Steady.ite h.hubNarrow h.hubRead

theorem Steady.unreadFor {k n : ℕ} {a : W} {before after : State} (h : Steady s before) (h' : Steady s after) :
    Steady s (unreadFor k n a before after) :=
  Steady.ite h.leaveRsp h'

theorem Steady.kLoadBody {k w : ℕ} {e : CoreErr} (h : Steady s t) : Steady s (kLoadBody k e w t) := by
  unfold Machine.kLoadBody
  extract_lets c x a
  clear_value c x a
  refine Steady.ite ?_ ?_
  · split
    · exact h.regMchk
    · split
      rename_i e
      have h' := h.ctlCheck.snd e
      exact Steady.ite h'.faulting h'.retire
  · split
    · exact h
    · refine Steady.finishLoad ?_
      exact h.setCore.unreadFor h.setCore.loadAccess

theorem Steady.postError {k trans : ℕ} {a : W} (h : Steady s t) : Steady s (postError k trans a t) := h.setCore.leaveRsp

theorem Steady.kStoreBody {k : ℕ} {e : CoreErr} {w : ℕ} (h : Steady s t) : Steady s (kStoreBody k e w t) := by
  unfold Machine.kStoreBody
  extract_lets
  split
  · exact h.settlePosted
  · refine Steady.ite ?_ ?_
    · refine Steady.ite ?_ ?_
      · exact h.settlePosted.retire.postError
      · split
        rename_i e1
        have h11 := (h.settlePosted.retire.ctlCheck.snd e1)
        exact Steady.ite h11.postError h11.ctlWrite
    · exact h.settlePosted.retire.setCore.bind fun h13 => (Steady.ite h13.hubNarrow h13.hubWrite).settlePosted

theorem Steady.postedStoreError {k : ℕ} (h : Steady s t) : Steady s (postedStoreError k t) := by
  unfold Machine.postedStoreError
  refine Steady.ite ?_ ?_
  · exact h
  · split
    · exact h
    · exact h.rest.setCore.takeTrap

theorem Steady.kLrBody {k : ℕ} {e : CoreErr} {w : ℕ} (h : Steady s t) : Steady s (kLrBody k e w t) := by
  unfold Machine.kLrBody
  extract_lets
  split
  rename_i e
  have h1 := (h.ctlCheck.snd e)
  exact Steady.ite h1.faulting h1.retire

theorem Steady.kScBody {k : ℕ} {e : CoreErr} {w : ℕ} (h : Steady s t) : Steady s (kScBody k e w t) := by
  unfold Machine.kScBody
  refine Steady.ite ?_ ?_
  · refine Steady.ite ?_ ?_
    · exact h.faulting
    · split
      rename_i e
      have h1 := (h.ctlCheck.snd e)
      refine Steady.ite ?_ ?_
      · exact h1.faulting
      · split
        · exact h1.regMchk
        · exact h1.ctlWrite.retire
  · split
    · exact h.regMchk
    · exact h.retire

theorem Steady.kTasBody {k : ℕ} {e : CoreErr} {w : ℕ} (h : Steady s t) : Steady s (kTasBody k e w t) := by
  unfold Machine.kTasBody
  extract_lets
  split
  rename_i e
  have h1 := (h.ctlCheck.snd e)
  exact Steady.ite h1.faulting h1.ctlWrite.retire

theorem Steady.squashIf {bad : Bool} {k : ℕ} (h : Steady s t) : Steady s (squashIf bad k t) := Steady.ite h.squashGcol h

theorem Steady.kBranchBody {k w : ℕ} (h : Steady s t) : Steady s (kBranchBody k w t) := h.squashIf.retire

theorem Steady.kJBody {k w : ℕ} (h : Steady s t) : Steady s (kJBody k w t) := h.retire

theorem Steady.kCallBody {k w : ℕ} (h : Steady s t) : Steady s (kCallBody k w t) := h.retire

theorem Steady.kJrBody {k w : ℕ} (h : Steady s t) : Steady s (kJrBody k w t) := h.squashIf.retire

theorem Steady.kCallrBody {k w : ℕ} (h : Steady s t) : Steady s (kCallrBody k w t) := h.squashIf.retire

theorem Steady.kRetBody {k x : ℕ} (h : Steady s t) : Steady s (kRetBody k x t) := h.retire

theorem Steady.kRspushBody {k w : ℕ} (h : Steady s t) : Steady s (kRspushBody k w t) := h.retire

theorem Steady.kRspopBody {k w : ℕ} (h : Steady s t) : Steady s (kRspopBody k w t) := h.retire

theorem Steady.kFenceBody {k x : ℕ} (h : Steady s t) : Steady s (kFenceBody k x t) := h.settlePosted.bind fun h2 => (Steady.ite h2.retire h2)

theorem Steady.sysReg {k n : ℕ} (h : Steady s t) : Steady s (sysReg k n t).2 := by
  unfold Machine.sysReg
  extract_lets
  split
  · exact h
  · exact h
  · exact h
  · exact h
  · exact h
  · exact h
  · exact h
  · exact h.cycleOf
  · exact h
  · exact h
  · exact h

theorem Steady.kSrrBody {k w : ℕ} (h : Steady s t) : Steady s (kSrrBody k w t) := by
  unfold Machine.kSrrBody
  split
  rename_i e
  exact (h.sysReg.snd e).retire

theorem Steady.kSrwBody {k w : ℕ} (h : Steady s t) : Steady s (kSrwBody k w t) := h.squashGcol.retire

theorem Steady.kTrapiBody {k w : ℕ} (h : Steady s t) : Steady s (kTrapiBody k w t) := h.retired.takeTrap

theorem Steady.kTretBody {k x : ℕ} (h : Steady s t) : Steady s (kTretBody k x t) := h.squashGcol.retire

theorem Steady.kHaltBody {k x : ℕ} (h : Steady s t) : Steady s (kHaltBody k x t) := (Steady.ite h.retired.set h.retired.set).boundary

theorem Steady.kWaitBody {k x : ℕ} (h : Steady s t) : Steady s (kWaitBody k x t) := Steady.ite h.retire h.setIdle

theorem Steady.interrupt {k : ℕ} (h : Steady s t) : Steady s (interrupt k t) := by
  unfold Machine.interrupt
  refine Steady.ite ?_ ?_
  · exact h
  · split
    · exact h
    · exact (Steady.ite h.retired h).takeTrap

theorem Steady.gportTrap {k reason : ℕ} (h : Steady s t) : Steady s (gportTrap k reason t) := (Steady.ite h.set h).faulting

theorem Steady.ginjRetire {k w : ℕ} (h : Steady s t) : Steady s (ginjRetire k w t) := h.setInj.set.retire

theorem Steady.kGinjBody {k w : ℕ} (h : Steady s t) : Steady s (kGinjBody k w t) := by
  unfold Machine.kGinjBody
  refine Steady.ite ?_ ?_
  · exact h.gportTrap
  · split
    · exact Steady.ite h.ginjRetire h.setCore
    · exact h.gportTrap

theorem Steady.ginjAgain {k : ℕ} (h : Steady s t) : Steady s (ginjAgain k t) := by
  unfold Machine.ginjAgain
  split
  · exact Steady.ite h.ginjRetire h
  · exact h

theorem Steady.ginjTimeout {k : ℕ} (h : Steady s t) : Steady s (ginjTimeout k t) := by
  unfold Machine.ginjTimeout
  split
  · exact h
  · exact Steady.ite h h.gportTrap

theorem Steady.gcolExecute {k m : ℕ} (h : Steady s t) : Steady s (gcolExecute k m t) := Steady.ite h h.setMbx.rest

theorem Steady.gcolTake {k i : ℕ} (h : Steady s t) : Steady s (gcolTake k i t).2 := by
  unfold Machine.gcolTake
  split
  · exact Steady.iteSnd h.rest.pair h.squashGcol.setMbx.pair
  · exact h.setMbx.pair

theorem Steady.kGcolBody {k : ℕ} {e : CoreErr} {w : ℕ} (h : Steady s t) : Steady s (kGcolBody k e w t) := by
  unfold Machine.kGcolBody
  refine Steady.ite ?_ ?_
  · exact h.gportTrap
  · refine Steady.ite ?_ ?_
    · exact h.gportTrap
    · split
      · rename_i e
        exact (h.gcolTake.snd e).retire
      · rename_i e
        split
        rename_i e1
        have h3 := ((h.gcolTake.snd e).secded.snd2 e1)
        exact Steady.ite h3.set.report.gportTrap h3.retire

/-! ### What the functions of RegCmds keep -/

theorem Steady.regMasked {who : From} {b : Blk} {r : Reg} {i m v : ℕ} (h : Steady s t) : Steady s (regMasked who b r i m v t) := by
  unfold Machine.regMasked
  refine Steady.ite h ?_
  split
  · exact h
  · rename_i e
    exact h.regWrite

theorem Steady.regCmd {who : From} {b : Blk} {r : Reg} {i v : ℕ} (h : Steady s t) : Steady s (regCmd who b r i v t) := h.regMasked

theorem Steady.fieldCmd {who : From} {b : Blk} {r : Reg} {f : Fld} {i x5 : ℕ} (h : Steady s t) : Steady s (fieldCmd who b r f i x5 t) := h.regMasked

theorem Steady.readCmd {who : From} {trans : ℕ} {b : Blk} {r : Reg} {i : ℕ} (h : Steady s t) : Steady s (readCmd who trans b r i t) := by
  unfold Machine.readCmd
  refine Steady.ite ?_ ?_
  · exact h
  · split
    · exact h
    · split
      · rename_i e1
        exact (h.regRead.snd e1).leaveRsp
      · rename_i e1
        exact (h.regRead.snd e1).leaveRsp

/-! ### What the functions of Host keep -/

theorem Steady.complete {c : HostCpl} (h : Steady s t) : Steady s (complete c t) := h.rest

theorem Steady.hostFail {write bar2 : Bool} {reason : ℕ} {addr : Option ℕ} (h : Steady s t) : Steady s (hostFail write bar2 reason addr t) :=
  (Steady.ite h.inc h.inc.setOr.set.set.set.set).raiseEvent

theorem Steady.badTlp (h : Steady s t) : Steady s (badTlp t) := Steady.ite h h.reportU

theorem Steady.bar0Fail {r : HostReq} {reason : ℕ} (h : Steady s t) : Steady s (bar0Fail r reason t) := Steady.ite h.hostFail h.hostFail.complete

theorem Steady.bar0Done {r : HostReq} {v : ℕ} (h : Steady s t) : Steady s (bar0Done r v t) := Steady.ite h h.complete

theorem Steady.settleHost {n : ℕ} (h : Steady s t) : Steady s (settleHost n t) := by
  induction n generalizing t with
  | zero => exact h
  | succ n ih =>
    unfold Machine.settleHost
    split
    · exact h
    · extract_lets n
      split
      · exact h
      · rename_i e
        have h' := h.rest.takeRsp e
        exact ih (Steady.ite h' h'.bar0Fail)

theorem Steady.serveQueue {natural n : ℕ} (h : Steady s t) : Steady s (serveQueue natural n t) := by
  induction n generalizing t with
  | zero => exact h
  | succ n ih =>
    unfold Machine.serveQueue
    split
    · exact h
    · extract_lets popped
      have hpopped {u : State} (h : Steady s u) : Steady s (popped u) := h.rest
      clear_value popped
      split
      · refine Steady.ite (ih (hpopped h).bar0Fail) ?_
        split
        · exact h
        · rename_i e
          have h' := h.takeRsp e
          exact ih (Steady.ite (hpopped h').bar0Done (hpopped h').bar0Fail)
      · split
        · exact ih (hpopped h).bar0Fail
        · refine Steady.ite (Steady.ite ?_ ?_) ?_
          · split
            · rename_i e
              exact ih ((hpopped h).accWrite.snd e)
            · rename_i e
              exact ih ((hpopped h).accWrite.snd e).bar0Fail
          · split
            · rename_i e
              exact ih ((hpopped h).accRead.snd e).bar0Done
            · rename_i e
              exact ih ((hpopped h).accRead.snd e).bar0Fail
          · split
            · exact h
            · exact Steady.ite (ih (hpopped h).sendReq.rest) (hpopped h).sendReq.rest

theorem Steady.serveHost {natural : ℕ} (h : Steady s t) : Steady s (serveHost natural t) := h.settleHost.serveQueue

theorem Steady.bar0 {r : HostReq} {natural : ℕ} (h : Steady s t) : Steady s (bar0 r natural t) :=
  Steady.ite (Steady.ite h h.complete) h.rest.serveHost

theorem Steady.bar2Read {off len : ℕ} {bad : Option ℕ} (h : Steady s t) : Steady s (bar2Read off len bad t) := by
  unfold Machine.bar2Read
  refine Steady.ite ?_ ?_
  · exact h.complete
  · extract_lets
    split
    · exact h.rest.hostFail
    · exact h.rest

theorem Steady.bar2Write {off : ℕ} (h : Steady s t) : Steady s (bar2Write off t) := Steady.ite h h.rest.hostFail

theorem Steady.capRead {c : CfgCap} (h : Steady s t) : Steady s (capRead c t).2 := by
  unfold Machine.capRead
  split
  rename_i e
  exact (h.freeVal.snd e).pair

theorem Steady.cfgRead {dw : ℕ} (h : Steady s t) : Steady s (cfgRead dw t).2 := by
  unfold Machine.cfgRead
  extract_lets
  split
  · exact h
  · exact h
  · split
    rename_i e1
    exact (h.freeVal.snd e1).pair
  · exact h
  · exact h
  · exact h
  · exact h
  · exact h
  · split
    rename_i e1
    exact (h.freeVal.snd e1).pair
  · exact h
  · exact h
  · exact h
  · exact h
  · split
    rename_i e1
    exact (h.freeVal.snd e1).pair

theorem Steady.configRequest {q : CfgReq} (h : Steady s t) : Steady s (configRequest q t) := by
  unfold Machine.configRequest
  extract_lets cpl
  have hcpl {n : ℕ} {d : List ℕ} {u : State} (h : Steady s u) : Steady s (cpl n d u) := h.complete
  clear_value cpl
  refine Steady.ite h.badTlp (Steady.ite (hcpl h) ?_)
  split
  · split
    rename_i e
    exact hcpl (h.cfgRead.snd e)
  · exact hcpl (Steady.ite h.rest.set h.rest)
  · split
    rename_i e
    exact hcpl (h.capRead.snd e)
  · exact h
  · exact hcpl h.badTlp
  · exact hcpl h.set.set
  · exact hcpl h.rest

theorem Steady.msixSend {n : ℕ} (h : Steady s t) : Steady s (msixSend n t) := Steady.ite h h.rest.msixPut

theorem Steady.endpointReset (h : Steady s t) : Steady s (endpointReset t) := h.set.set.set.rest

theorem Steady.linkFalls {expected : Bool} (h : Steady s t) : Steady s (linkFalls expected t) :=
  h.set.inc.endpointReset.bind fun h2 => (Steady.ite h2.badTlp h2)

theorem Steady.linkStateChange {link speed width : ℕ} {expected : Bool} (h : Steady s t) : Steady s (linkStateChange link speed width expected t) :=
  Steady.ite h.set.set (Steady.ite h.set.set.linkFalls h.set.set.set).linkEvent

theorem Steady.debugDone {ok : Bool} {data : Option W} (h : Steady s t) : Steady s (debugDone ok data t) := h.rest

theorem Steady.debugAccess {v : BitVec 112} {natural : ℕ} (h : Steady s t) : Steady s (debugAccess v natural t) := by
  unfold Machine.debugAccess
  refine Steady.ite ?_ ?_
  · exact h
  · refine Steady.ite ?_ ?_
    · refine Steady.ite ?_ ?_
      · split
        rename_i e
        exact (h.rest.accWrite.snd e).debugDone
      · split
        · rename_i e
          exact (h.rest.accRead.snd e).debugDone
        · rename_i e
          exact (h.rest.accRead.snd e).debugDone
    · split
      · exact h.rest
      · exact h.rest.sendReq.rest

theorem Steady.serveJtag (h : Steady s t) : Steady s (serveJtag t) := by
  unfold Machine.serveJtag
  split
  · exact h
  · split
    · exact h
    · rename_i e1
      exact (h.takeRsp e1).debugDone

/-! ### What the functions of Manage keep -/

theorem Steady.mcEnd {result : ℕ} (h : Steady s t) : Steady s (mcEnd result t) := h.rest.set.set.raiseEvent

theorem Steady.updEnd {op result : ℕ} (h : Steady s t) : Steady s (updEnd op result t) := h.mcEnd.mcEvent

theorem Steady.mcRun {op : ℕ} {ok : ℕ → Bool} {f : ℕ → State → State} (h : Steady s t) (hf : ∀ {y : ℕ} {u : State}, Steady s u → Steady s (f y u)) :
    Steady s (mcRun op ok f t) := by
  unfold Machine.mcRun
  split
  · exact h
  · exact Steady.ite (hf h) h.mcEnd

theorem Steady.flashFailed {base size : ℕ} {l : List (ℕ × BitVec 8)} (h : Steady s t) : Steady s (flashFailed base size l t) :=
  h.foldl (fun h => (Steady.ite h.flashWrite h))

theorem Steady.updClose (h : Steady s t) : Steady s (updClose t) := h.set.set

theorem Steady.updBegin {fail : FlashOut} (h : Steady s t) : Steady s (updBegin fail t) := by
  refine h.mcRun fun h => ?_
  split
  · exact h.flashFailed.updEnd
  · exact h.flashErase.bind fun h₁ => (Steady.ite h₁.putBootRec h₁).set.set.rest.updEnd

theorem Steady.updChunk {fail : FlashOut} (h : Steady s t) : Steady s (updChunk fail t) := by
  refine h.mcRun fun h => Steady.ite h.updEnd ?_
  split
  · exact h.set.flashFailed.updEnd
  · exact h.set.flashWrite.updEnd

theorem Steady.updVerify (h : Steady s t) : Steady s (updVerify t) := h.mcRun (·.set.updEnd)

theorem Steady.updActivate {ok : Bool} (h : Steady s t) : Steady s (updActivate ok t) :=
  h.mcRun (fun h => (Steady.ite h.updEnd h.putBootRec.updClose.updEnd))

theorem Steady.programOtp {h' : Header} (h : Steady s t) : Steady s (programOtp h' t) :=
  (Steady.ite h.set.mcEvent h).bind fun h2 => (Steady.ite h2 h2.set.mcEvent)

theorem Steady.updConfirm {ok whole : Bool} (h : Steady s t) : Steady s (updConfirm ok whole t) := by
  unfold Machine.updConfirm
  extract_lets
  refine h.mcRun fun h => ?_
  split
  · exact h
  · exact Steady.ite h.updEnd (Steady.ite h.updEnd (Steady.ite h.putBootRec.programOtp.updEnd h.putBootRec.rest))

theorem Steady.updAbort (h : Steady s t) : Steady s (updAbort t) := h.mcRun (·.updClose.updEnd)

theorem Steady.bankOffline (h : Steady s t) : Steady s (bankOffline t) := h.mcRun (·.takeOffline.mcEvent.mcEnd)

theorem Steady.loadGraph {a n : ℕ} {b : List ℕ} (h : Steady s t) : Steady s (loadGraph a n b t) := h.foldl (·.writeN)

theorem Steady.loadSection (h : Steady s t) : Steady s (loadSection t) := by
  refine h.mcRun fun h => ?_
  split
  · exact h.mcEnd
  · exact Steady.ite h.mcEnd (Steady.ite h.mcEnd (Steady.ite h.loadFw.mcEnd (Steady.ite h.mcEnd h.loadGraph.mcEnd)))

theorem Steady.writePage {fail : FlashOut} (h : Steady s t) : Steady s (writePage fail t) := by
  unfold Machine.writePage
  refine Steady.ite ?_ ?_
  · exact h
  · extract_lets
    split
    · exact (Steady.ite h.flashErase h).rest.flashFailed.reportU
    · exact (Steady.ite h.flashErase h).rest.rest.flashWrite

theorem Steady.logPageWrite {fail : FlashOut} (h : Steady s t) : Steady s (logPageWrite fail t) := Steady.ite h.writePage h

theorem Steady.completeConfirm (h : Steady s t) : Steady s (completeConfirm t) := by
  unfold Machine.completeConfirm
  split
  · exact Steady.ite h.programOtp h
  · exact h

theorem Steady.enterRun {fail : FlashOut} (h : Steady s t) : Steady s (enterRun fail t) :=
  h.mcRun (·.set.mcEvent.raiseEvent.completeConfirm.writePage.mcEnd)

theorem Steady.clusterOffline (h : Steady s t) : Steady s (clusterOffline t) := h.mcRun (·.set.rest.mcEvent.mcEnd)

theorem Steady.clusterRelease {r : Rewrite} (h : Steady s t) : Steady s (clusterRelease r t) := by
  refine h.mcRun fun h => ?_
  extract_lets c
  clear_value c
  split
  rename_i sound t₁ e
  have h₁ : Steady s t₁ := h.emptyCluster.goldenRead.snd e
  extract_lets t₂
  have h₂ : Steady s t₂ := Steady.ite h₁.writeGolden h₁
  clear_value t₂
  exact Steady.ite h₂.mcEnd (Steady.ite h₂.wrongWord.mcEnd h₂.restartPes.set.mcEvent.mcEnd)

theorem Steady.pollOne {r : ℕ} {a : Option PmbAns} (h : Steady s t) : Steady s (pollOne r a t) := by
  unfold Machine.pollOne
  extract_lets
  split
  · exact Steady.ite h.rest.reportU h.rest
  · exact Steady.ite h.rest h.rest.mcEvent.raiseEvent

theorem Steady.pollAll {answers : List (Fin 8 × PmbAns)} (h : Steady s t) : Steady s (pollAll answers t) :=
  Steady.ite h (h.foldl (fun h => (Steady.ite h.pollOne h)))

theorem Steady.smbAnswer {a : Option (List (BitVec 8))} (h : Steady s t) : Steady s (smbAnswer a t) := h.rest

theorem Steady.writeWord {addr code ptr : ℕ} {pec : Option Bool} (h : Steady s t) : Steady s (writeWord addr code ptr pec t) :=
  Steady.ite h.rest.smbAnswer h.smbAnswer

theorem Steady.blockRead {addr code : ℕ} (h : Steady s t) : Steady s (blockRead addr code t) := Steady.ite h.rest.smbAnswer h.smbAnswer

theorem Steady.alertResponse (h : Steady s t) : Steady s (alertResponse t) := Steady.ite h.smbAnswer h.smbAnswer

/-! ### What the functions of Tick keep -/

theorem Steady.arithTick (h : Steady s t) : Steady s (arithTick t) := (h.foldl (·.rest)).rest

theorem Steady.serviceTick (h : Steady s t) : Steady s (serviceTick t) := by
  unfold Machine.serviceTick
  exact (h.rampWatch.arithTick.foldl (·.reportCounts)).pairTick.migCopyTick.chainTick.bootTick.serveJtag

/-! ### The commands -/

/-- A next state that the outcome gives is on a path from `s`. -/
def SteadyNext (s : State) (o : Host.Outcome State Fault Refusal) : Prop := ∀ u, o = .next u → Steady s u

theorem SteadyNext.next (h : Steady s t) : SteadyNext s (.next t) := by
  rintro u ⟨⟩
  exact h

theorem Steady.execFlitReceive {seg : Fin 49152} {cyc rcyc : ℕ} {ext : Option ChainFlit} {err : List FlitErr} {urgErr : Bool} (h : Steady s t) :
    SteadyNext s (execFlitReceive seg cyc rcyc ext err urgErr t) := by
  refine .next (Steady.ite h (Steady.ite ?_ h.receiveInside))
  split
  · exact Steady.ite h.receiveChain h
  · exact h

theorem Steady.execGcol {k : Fin 9} {e : GcolPass} (h : Steady s t) : SteadyNext s (execGcol k e t) := by
  refine .next ?_
  split
  · exact h.gcolExecute
  · exact h.coreInstr (·.kGcolBody)

theorem Steady.execLetData {who : From} {n : Fin 128} {v : Option (BitVec 24)} (h : Steady s t) : SteadyNext s (execLetData who n v t) := by
  refine .next ?_
  split
  · exact h.regCmd
  · exact h.readCmd

theorem Steady.execRscData {who : From} {n : Fin 128} {v : Option (BitVec 24)} (h : Steady s t) : SteadyNext s (execRscData who n v t) := by
  refine .next ?_
  split
  · exact h.regCmd
  · exact h.readCmd

theorem Steady.execSvDebugAction {who : From} {a : DbgAct} (h : Steady s t) : SteadyNext s (execSvDebugAction who a t) := by
  refine .next ?_
  split
  · exact h.fieldCmd
  · exact h.fieldCmd
  · exact h.fieldCmd
  · exact h.regCmd

theorem Steady.execRegisterWrite {who : From} {half : Bool} {a : BitVec 44} {v : BitVec 64} (h : Steady s t) :
    SteadyNext s (execRegisterWrite who half a v t) := by
  refine .next ?_
  split
  · exact h.accWrite
  · exact h

theorem Steady.execBar2Read {off : BitVec 25} {len : Fin 4097} {b : Bar2In} (h : Steady s t) : SteadyNext s (execBar2Read off len b t) := by
  refine .next ?_
  split
  · exact h.badTlp
  · exact h.bar2Read
  · exact h.bar2Read

theorem Steady.execBar2Write {q : Bar2Wr} (h : Steady s t) : SteadyNext s (execBar2Write q t) := by
  refine .next ?_
  split
  · exact h.badTlp
  · exact h.badTlp.bar2Write
  · exact h.bar2Write

/-- The commands that move T, the era or the count of ticks, reset the device, or may take the fatal decision. -/
def movesClock : Instr → Bool
  | .tAdvance _ _ | .ppsEdge _ _ | .coldReset _ | .powerOff | .warmReset _ | .faultEvent | .lockstepMiscompare _ _ _ _ => true
  | _ => false

/-- Every other command of the table. -/
theorem Steady.exec (h : Steady s t) : (c : Instr) → movesClock c = false → SteadyNext s (exec c t)
  | .tAdvance _ _, hc => nomatch hc
  | .tLoad _ _ _, _ => .next h.regCmd
  | .ppsEdge _ _, hc => nomatch hc
  | .ppsTimeout, _ => .next h.ppsTimeout
  | .refLoss, _ => .next h.refLoss
  | .time _ _ _ _ _, _ => .next h.timeWord
  | .techo _ _ _ _ _, _ => .next h.techo
  | .chainTimeLoss, _ => .next h.chainTimeLoss
  | .countEdge _ _ _ _ _, _ => .next h.countEdge
  | .zEdge _ _, _ => .next h.zEdge
  | .coordinateStall _, _ => .next h.coordinateStall
  | .mainsEdge _ _ _, _ => .next h.mainsEdge
  | .mainsHoldover, _ => .next h.mainsHoldover
  | .triggerCrossing _, _ => .next (h.unlessFatal (·.triggerCrossing))
  | .gridPoint _, _ => .next (h.unlessFatal (·.gridPoint))
  | .resamplerToken _, _ => .next (h.unlessFatal (·.resamplerToken))
  | .lensQuery, _ => .next (h.unlessFatal (·.lensQuery))
  | .laneComma _ _ _, _ => .next h.laneComma
  | .laneAlign _ _ _, _ => .next h.laneAlign
  | .frame _ _, _ => .next h.frame
  | .laneSofTimeout _ _, _ => .next h.laneSofTimeout
  | .laneGraceExpiry _, _ => .next h.laneGraceExpiry
  | .fifoIdleFlush _, _ => .next h.fifoIdleFlush
  | .fifoWordRead _ _, _ => .next (h.unlessFatal (·.fifoWordRead))
  | .drop _ _, _ => .next h.fieldCmd
  | .outputFrame _, _ => .next h.outputFrame
  | .forceRelease _, _ => .next h.forceRelease
  | .ilkRel _ _, _ => .next h.regCmd
  | .ilkForce _ _, _ => .next h.regCmd
  | .chForce _ _ _, _ => .next h.regCmd
  | .ilkTest _ _ _, _ => .next h.regCmd
  | .flitReceive _ _ _ _ _ _, _ => h.execFlitReceive
  | .initiatorTimeout, _ => .next (h.unlessFatal (·.initiatorTimeout))
  | .rd _ _, _ => .next (h.unlessFatal (·.sysRead))
  | .wr _ _ _, _ => .next (h.unlessFatal (·.sysWrite))
  | .bwr _, _ => .next (h.unlessFatal (·.bulkWrite))
  | .output, _ => .next (h.unlessFatal (·.output))
  | .emitAtDue, _ => .next (h.unlessFatal (·.emitAtDue))
  | .outputRoom, _ => .next (h.unlessFatal (·.outputRoom))
  | .release, _ => .next (h.unlessFatal (·.releaseStep))
  | .allocGrant _ _ _, _ => .next (Steady.ite h.allocGrant h)
  | .globalArrive _, _ => .next (h.unlessFatal (·.globalArrive))
  | .globalRelease _, _ => .next (h.unlessFatal (·.globalRelease))
  | .globalStage _, _ => .next (h.unlessFatal (·.globalStage))
  | .globalAck _, _ => .next (h.unlessFatal (·.globalAck))
  | .globalAbort _, _ => .next (h.unlessFatal (·.globalAbort))
  | .scheduleDeadline, _ => .next (h.unlessFatal (·.scheduleDeadline))
  | .snapshot, _ => .next (h.unlessFatal (·.snapshot))
  | .warmReset _, hc => nomatch hc
  | .modeCommit _, _ => .next (h.unlessFatal (·.modeCommit))
  | .migrationSwitch _, _ => .next (h.unlessFatal (·.migrationSwitch))
  | .barArm _ _, _ => .next h.fieldCmd
  | .barDisarm _ _, _ => .next h.fieldCmd
  | .barArrive _ _, _ => .next h.regCmd
  | .clusterQuiet _ _, _ => .next (h.unlessFatal (·.clusterQuiet))
  | .gschedSnapshot _ _, _ => .next h.regCmd
  | .gschedWarmReset _ _, _ => .next h.regCmd
  | .tokenAccept _ _ _, _ => .next (h.onFabric (·.tokenAccept))
  | .spillRetry _ _, _ => .next (h.onFabric (·.spillRetry))
  | .integerOp _ _ _, _ => .next (h.fireWith (·.computeBody))
  | .comparison _ _ _, _ => .next (h.fireWith (·.computeBody))
  | .q47Multiply _ _ _, _ => .next (h.fireWith (·.computeBody))
  | .floatOp _ _ _, _ => .next (h.fireWith (·.computeBody))
  | .conversion _ _ _, _ => .next (h.fireWith (·.computeBody))
  | .complexOp _ _ _, _ => .next (h.fireWith (·.computeBody))
  | .switch _ _ _, _ => .next (h.fireWith (·.switchBody))
  | .merge _ _ _, _ => .next (h.fireWith (·.mergeBody))
  | .gate _ _ _, _ => .next (h.fireWith (·.gateBody))
  | .sel _ _ _, _ => .next (h.fireWith (·.selBody))
  | .const _ _ _, _ => .next (h.fireWith (·.constBody))
  | .sink _ _ _, _ => .next (h.fireWith (·.sinkBody))
  | .prism _ _ _, _ => .next (h.fireWith (·.prismBody))
  | .link _ _ _, _ => .next (h.fireWith (·.linkBody))
  | .alloc _ _ _, _ => .next (Steady.ite h (h.fireWith (·.allocBody)))
  | .free _ _ _, _ => .next (h.fireWith (·.freeBody))
  | .next _ _ _, _ => .next (h.fireWith (·.nextBody))
  | .return_ _ _ _, _ => .next (h.fireWith (·.retBody))
  | .load _ _ _, _ => .next (h.fireParking (·.bankBody))
  | .store _ _ _, _ => .next (h.fireParking (·.bankBody))
  | .read _ _ _, _ => .next (h.fireParking (·.bankBody))
  | .write _ _ _, _ => .next (h.fireParking (·.bankBody))
  | .iclr _ _ _, _ => .next (h.fireParking (·.bankBody))
  | .fetchAdd _ _ _, _ => .next (h.fireParking (·.bankBody))
  | .swap _ _ _, _ => .next (h.fireParking (·.bankBody))
  | .now _ _ _, _ => .next (h.fireWith (·.nowBody))
  | .due _ _ _, _ => .next (h.fireWith (·.dueBody))
  | .tighten _ _ _, _ => .next (h.fireWith (·.tightenBody))
  | .angleAt _ _ _, _ => .next (h.fireParking (·.lensBody))
  | .timeAt _ _ _, _ => .next (h.fireParking (·.lensBody))
  | .out _ _ _, _ => .next (h.fireParking (·.outBody))
  | .emitAt _ _ _, _ => .next (h.fireParking (·.outBody))
  | .userOperation _ _ _, _ => .next (Steady.ite h.continueUser (h.fireWith (·.userBody)))
  | .response _ _, _ => .next (h.onFabric (·.response.continueUser))
  | .deferredAnswer _ _, _ => .next (h.onFabric (·.deferredAnswer))
  | .bankOperation _ _ _, _ => .next (h.onFabric (·.bankOperation))
  | .deferredReadAnswer _, _ => .next (h.onFabric (·.deferredReadAnswer))
  | .scrub _ _, _ => .next (h.onFabric (·.scrub))
  | .correctedWriteback _, _ => .next (h.onFabric (·.correctedWriteback))
  | .bankOwn _ _ _ _, _ => .next (h.unlessFatal (·.bankOwnWrite))
  | .handoverComplete _, _ => .next (h.unlessFatal (·.handoverComplete))
  | .bankPwr _ _, _ => .next (h.unlessFatal (·.bankPwrWrite))
  | .powerMoveComplete _, _ => .next (h.unlessFatal (·.powerMoveComplete))
  | .takeOffline _ _, _ => .next (h.unlessFatal (fun h => (Steady.ite h.takeOffline h)))
  | .matchDebugRead _ _ _, _ => .next (h.unlessFatal (·.holdEntry))
  | .deadlockEvaluation _, _ => .next (h.unlessFatal (·.evaluate))
  | .reclaimSweepEnd _, _ => .next (h.unlessFatal (·.sweepEnd))
  | .filterExpiry _, _ => .next (h.unlessFatal (·.filterExpiry))
  | .controlStoreReload _ _, _ => .next (h.unlessFatal (·.controlStoreReload))
  | .claim, _ => .next (h.unlessFatal (·.claim))
  | .admitGraph _, _ => .next (h.unlessFatal (·.admitGraph))
  | .commit _, _ => .next (h.unlessFatal (·.commit))
  | .withdraw, _ => .next (h.unlessFatal (·.withdraw))
  | .withdrawComplete _, _ => .next (h.unlessFatal (·.withdrawComplete))
  | .clusterEmptied _, _ => .next (h.unlessFatal (fun h => (Steady.ite h.emptyCluster h)))
  | .stage, _ => .next (h.unlessFatal (·.stage))
  | .modeDrained _, _ => .next (h.unlessFatal (·.modeDrained))
  | .modeSweep _, _ => .next (h.unlessFatal (·.modeSweep))
  | .modeDiscardEnd _, _ => .next (h.unlessFatal (·.modeDiscardEnd))
  | .migrate, _ => .next (h.unlessFatal (·.migrate))
  | .migrationCopyDone _ _, _ => .next (h.unlessFatal (·.migrationCopyDone))
  | .migrationDrained _, _ => .next (h.unlessFatal (·.migrationDrained))
  | .guaranteeRestore _, _ => .next (h.unlessFatal (·.guaranteeRestore))
  | .ledgerReexamine, _ => .next (h.unlessFatal (·.ledgerReexamine))
  | .lostAck _ _, _ => .next h.fieldCmd
  | .alu _ _, _ => .next (h.coreInstr (·.kComputeBody))
  | .immediate _ _, _ => .next (h.coreInstr (·.kImmediateBody))
  | .ldk _ _, _ => .next (h.coreInstr (·.kLdkBody))
  | .ink _ _, _ => .next (h.coreInstr (·.kInkBody))
  | .xrk _ _, _ => .next (h.coreInstr (·.kXrkBody))
  | .ld _ _, _ => .next (Steady.ite (h.unlessFatal (·.finishLoad)) (h.coreInstr (·.kLoadBody)))
  | .st _ _, _ => .next (h.coreInstr (·.kStoreBody))
  | .postedStoreError _, _ => .next (h.unlessFatal (·.postedStoreError))
  | .lr _ _, _ => .next (h.coreInstr (·.kLrBody))
  | .sc _ _, _ => .next (h.coreInstr (·.kScBody))
  | .tas _ _, _ => .next (h.coreInstr (·.kTasBody))
  | .branch _ _, _ => .next (h.coreInstr (·.kBranchBody))
  | .j _ _, _ => .next (h.coreInstr (·.kJBody))
  | .call _ _, _ => .next (h.coreInstr (·.kCallBody))
  | .jr _ _, _ => .next (h.coreInstr (·.kJrBody))
  | .callr _ _, _ => .next (h.coreInstr (·.kCallrBody))
  | .ret _ _, _ => .next (h.coreInstr (·.kRetBody))
  | .rspush _ _, _ => .next (h.coreInstr (·.kRspushBody))
  | .rspop _ _, _ => .next (h.coreInstr (·.kRspopBody))
  | .fp _ _, _ => .next (h.coreInstr (·.kComputeBody))
  | .fma _ _, _ => .next (h.coreInstr (·.kFmaBody))
  | .cpx _ _, _ => .next (h.coreInstr (·.kComputeBody))
  | .fence _ _, _ => .next (h.coreInstr (·.kFenceBody))
  | .srr _ _, _ => .next (h.coreInstr (·.kSrrBody))
  | .srw _ _, _ => .next (h.coreInstr (·.kSrwBody))
  | .trapi _ _, _ => .next (h.coreInstr (·.kTrapiBody))
  | .tret _ _, _ => .next (h.coreInstr (·.kTretBody))
  | .halt _ _, _ => .next (h.coreInstr (·.kHaltBody))
  | .wait _ _, _ => .next (h.coreInstr (·.kWaitBody))
  | .ginj _ _, _ => .next (Steady.ite (h.unlessFatal (·.ginjAgain)) (h.coreInstr (·.kGinjBody)))
  | .ginjFullTimeout _, _ => .next (h.unlessFatal (·.ginjTimeout))
  | .ginjHandover _, _ => .next (h.unlessFatal (·.ginjHandover))
  | .gcol _ _, _ => h.execGcol
  | .intr _, _ => .next (h.unlessFatal (·.interrupt))
  | .ccRun _ _ _, _ => .next h.fieldCmd
  | .ccReset _ _, _ => .next h.fieldCmd
  | .haltReq _ _ _, _ => .next h.fieldCmd
  | .step _ _, _ => .next h.fieldCmd
  | .create _ _, _ => .next h.fieldCmd
  | .wake _ _, _ => .next h.fieldCmd
  | .kill _ _, _ => .next h.fieldCmd
  | .yield _ _, _ => .next h.regCmd
  | .block _ _, _ => .next h.regCmd
  | .exit _ _, _ => .next h.regCmd
  | .schedClaim _ _ _, _ => .next h.readCmd
  | .slotWake _, _ => .next (h.unlessFatal (·.slotWake))
  | .raise _ _, _ => .next h.fieldCmd
  | .doorbell _ _, _ => .next h.regCmd
  | .timer _, _ => .next (h.unlessFatal (·.timer))
  | .lockAcquire _ _ _, _ => .next h.readCmd
  | .lockRelease _ _, _ => .next h.fieldCmd
  | .lockForce _ _, _ => .next h.fieldCmd
  | .svRun _, _ => .next h.fieldCmd
  | .svReset _, _ => .next h.fieldCmd
  | .cmpTest _ _, _ => .next (h.unlessFatal (fun h => (Steady.ite h.cmpTest h)))
  | .lockstepMiscompare _ _ _ _, hc => nomatch hc
  | .svDebugAction _ _, _ => h.execSvDebugAction
  | .kick _, _ => .next h.fieldCmd
  | .watchdogExpiry, _ => .next (h.unlessFatal (·.watchdogExpiry))
  | .svTimer, _ => .next (h.unlessFatal (·.svTimer))
  | .svIntr, _ => .next (h.unlessFatal (·.interrupt))
  | .svMbxInWrite _ _, _ => .next h.regCmd
  | .svMbxInRead _ _, _ => .next h.readCmd
  | .svMbxOutWrite _ _, _ => .next h.regCmd
  | .svMbxOutRead _ _, _ => .next h.readCmd
  | .faultEvent, hc => nomatch hc
  | .fatalRecordWrite, _ => .next h.fatalRecordWrite
  | .wireFault _ _ _, _ => .next h.wireFault
  | .ack _ _, _ => .next h.fieldCmd
  | .pop _, _ => .next h.fieldCmd
  | .arm _ _ _ _, _ => .next h.regCmd
  | .recordClear _, _ => .next h.fieldCmd
  | .coldReset _, hc => nomatch hc
  | .bootTimeout, _ => .next (h.unlessFatal (·.bootTimeout))
  | .updBegin _, _ => .next (h.unlessFatal (·.updBegin))
  | .updChunk _, _ => .next (h.unlessFatal (·.updChunk))
  | .updVerify, _ => .next (h.unlessFatal (·.updVerify))
  | .updActivate _, _ => .next (h.unlessFatal (·.updActivate))
  | .updConfirm _ _, _ => .next (h.unlessFatal (·.updConfirm))
  | .updAbort, _ => .next (h.unlessFatal (·.updAbort))
  | .bankOffline, _ => .next (h.unlessFatal (·.bankOffline))
  | .loadSection, _ => .next (h.unlessFatal (·.loadSection))
  | .run _, _ => .next (h.unlessFatal (·.enterRun))
  | .clusterOffline, _ => .next (h.unlessFatal (·.clusterOffline))
  | .clusterRelease _, _ => .next (h.unlessFatal (·.clusterRelease))
  | .sensorRead, _ => .next (h.unlessFatal (·.sensorRead))
  | .pmbusPoll _, _ => .next (h.unlessFatal (·.pollAll))
  | .pmbAlert _, _ => .next (h.unlessFatal (·.pollAll))
  | .writeWord _ _ _ _, _ => .next h.writeWord
  | .blockRead _ _, _ => .next h.blockRead
  | .logPageWrite _, _ => .next (h.unlessFatal (·.logPageWrite))
  | .wearMinute, _ => .next (h.unlessFatal (·.wearMinute))
  | .powerOff, hc => nomatch hc
  | .railFault _, _ => .next h.railFault
  | .sensorConversion _ _, _ => .next h.sensorConversion
  | .throttleRelease _, _ => .next (h.unlessFatal (·.throttleRelease))
  | .shedStep _, _ => .next (h.unlessFatal (·.shedStep))
  | .powerEstimate _, _ => .next (h.unlessFatal (·.powerEstimate))
  | .clockRampStep _, _ => .next (h.unlessFatal (·.clockRampStep))
  | .vfSetWrite _ _, _ => .next h.fieldCmd
  | .bar0Read _ _ _ _, _ => .next (Steady.ite h.badTlp h.bar0)
  | .bar0Write _ _ _ _ _ _, _ => .next (Steady.ite h.badTlp (Steady.ite h.badTlp h).bar0)
  | .bar2Read _ _ _, _ => h.execBar2Read
  | .bar2Write _, _ => h.execBar2Write
  | .configRequest _, _ => .next h.configRequest
  | .msixSend _, _ => .next (h.unlessFatal (·.msixSend))
  | .endpointReset _, _ => .next (Steady.ite h.linkFalls h.endpointReset).linkEvent
  | .captureRecord _ _, _ => .next (h.unlessFatal (·.captureRecord))
  | .captureShortClose _, _ => .next (h.unlessFatal (·.captureShortClose))
  | .capRp _ _ _, _ => .next h.regCmd
  | .capEnable _ _, _ => .next h.fieldCmd
  | .enum _ _ _ _, _ => .next (h.unlessFatal (·.enum))
  | .done _ _, _ => .next (h.unlessFatal (·.done))
  | .fatal _ _ _, _ => .next h.fatalNotice
  | .credit _ _ _, _ => .next (h.unlessFatal (·.credit))
  | .align _ _, _ => .next h.chainAlign
  | .chainDown _, _ => .next h.chainDown
  | .mirrorFlip, _ => .next (h.unlessFatal (·.mirrorFlip))
  | .mirrorRead _ _, _ => .next h.mirrorRead
  | .auxSwitch _, _ => .next (h.unlessFatal (·.auxSwitch))
  | .evin _ _ _, _ => .next h.evin
  | .jtagInstruction _ _, _ => .next h.jtagInstruction
  | .debug _ _, _ => .next h.debugAccess
  | .hwmClear _, _ => .next (h.unlessFatal (·.clearMarks))
  | .lateClear _, _ => .next (h.unlessFatal (·.set))
  | .lwmClear _ _ _, _ => .next (h.unlessFatal (·.set))
  | .maxClear _ _, _ => .next h.fieldCmd
  | .registerWrite _ _ _ _, _ => h.execRegisterWrite
  | .referenceReturn _, _ => .next h.referenceReturn
  | .laneEnable _ _ _, _ => .next h.fieldCmd
  | .blockLock _ _, _ => .next h.blockLock
  | .linkStateChange _ _ _ _, _ => .next h.linkStateChange
  | .coordCfg _ _ _, _ => .next h.regCmd
  | .letData _ _ _, _ => h.execLetData
  | .rscData _ _ _, _ => h.execRscData
  | .capDisable _ _, _ => .next h.fieldCmd
  | .alertResponseAddress, _ => .next h.alertResponse

end Sys2Proof.Machine
end

section
/-!
SUPPORT. The tick, and the commands that move T (O7, O58): what each of them leaves of the queue and of time, on the steady paths of all the rest.
-/
set_option Elab.async false
namespace Sys2Proof.Machine
open Sys2Proof

variable {s t : State} {α β : Type}

/-! ### The tick -/

/-- What a tick does between the step of T and the readings of the rails. -/
def tickServed (freqOk : Bool) (s : State) : State :=
  pumpCtl (idleTick false (idleTick true (unlessFatal serviceTick (auxTick (sampleTick (lensTick freqOk (alignTick s)))))))

theorem tAdvance_eq (freqOk : Bool) (rails : RailIn) : tAdvance freqOk rails t =
    serveHost 0 (railTick rails (tickServed freqOk (stepT (sampleTickEnd { t with out := { t.out with now := [] } })))) := rfl

theorem Steady.tickServed {freqOk : Bool} (h : Steady s t) : Steady s (tickServed freqOk t) :=
  (h.alignTick.lensTick.sampleTick.auxTick.unlessFatal (·.serviceTick)).idleTick.idleTick.pumpCtl

/-- Monitors other than 0 have fixed limits. -/
theorem railLimits_eq {m : ℕ} (h : m ≠ 0) : railLimits t m = railLimits s m := by
  unfold railLimits
  split
  · exact absurd rfl h
  all_goals rfl

/-- What the readings assert of power-on reset does not change on a steady path (R453). -/
theorem Steady.porAsserted_eq {rails : RailIn} (h : Steady s t) : porAsserted rails t = porAsserted rails s := by
  have hfatal : t.fatal = s.fatal := congrArg Option.isSome h.decision
  unfold porAsserted
  rw [h.por, hfatal]
  congr 2
  funext x
  by_cases hm : x.1.val = 0
  · simp [hm]
  · rw [railLimits_eq hm]

/-- The rails at a tick: power-on reset where the readings assert it, and else no change of queue or time. -/
theorem railTick_leaves {rails : RailIn} : (railTick rails t).pending = t.pending ∧ (railTick rails t).ticks = t.ticks ∧
    (railTick rails t).era = t.era ∧ (railTick rails t).t = if porAsserted rails t then 0 else t.t := by
  have hread : Steady t (applyVf (rails.foldl (fun s x => railReading x.1.val x.2.toNat s) t)) := ((Steady.refl t).foldl (·.railReading)).applyVf
  unfold Machine.railTick
  extract_lets t₁
  rw [← hread.porAsserted_eq]
  change Steady t t₁ at hread
  change _ ∧ _ ∧ _ ∧ _ = if porAsserted rails t₁ then 0 else t.t
  obtain ⟨⟨hpending, htime, hticks⟩, hera, -, -⟩ := hread
  split
  · rename_i n hpor
    have hnot : porAsserted rails t₁ = false := by simp [porAsserted, hpor]
    rw [hnot]
    exact ⟨hpending, hticks, hera, htime⟩
  · cases porAsserted rails t₁ with
    | true =>
      obtain ⟨htime', hpending', hera', hticks'⟩ := powerReset_leaves (t := t₁)
      exact ⟨hpending'.trans hpending, hticks'.trans hticks, hera'.trans hera, htime'⟩
    | false =>
      have hwait : Steady t₁ (if t₁.fatal then t₁ else awaitVf t₁) := Steady.ite (.refl t₁) (Steady.refl t₁).awaitVf
      exact ⟨hwait.pending.trans hpending, hwait.ticks.trans hticks, hwait.era.trans hera, hwait.time.trans htime⟩

/-- A step of T counts a tick (R205). -/
theorem stepT_leaves : (stepT t).pending = t.pending ∧ (stepT t).ticks = t.ticks + 1 := by
  unfold Machine.stepT
  split
  · exact ⟨rfl, rfl⟩
  · exact ⟨rfl, rfl⟩

theorem stepT_unloaded (h : t.lens.load = none) : stepT t =
    { t with t := t.t + 1, era := if t.t + 1 = 0 then t.era + 1 else t.era, ticks := t.ticks + 1 } := by
  unfold Machine.stepT
  rw [h]

theorem tAdvance_leaves {freqOk : Bool} {rails : RailIn} : (tAdvance freqOk rails t).pending = t.pending ∧
    (tAdvance freqOk rails t).ticks = t.ticks + 1 := by
  have hend : Steady t (sampleTickEnd { t with out := { t.out with now := [] } }) := (Steady.refl t).rest.sampleTickEnd
  rw [tAdvance_eq]
  generalize sampleTickEnd { t with out := { t.out with now := [] } } = a at hend
  obtain ⟨hpending₁, hticks₁⟩ := stepT_leaves (t := a)
  have hserved : Steady (stepT a) (tickServed freqOk (stepT a)) := (Steady.refl _).tickServed
  generalize tickServed freqOk (stepT a) = b at hserved
  obtain ⟨hpending₂, hticks₂, -, -⟩ := railTick_leaves (t := b) (rails := rails)
  have hhost : Steady (railTick rails b) (serveHost 0 (railTick rails b)) := (Steady.refl _).serveHost
  constructor
  · rw [hhost.pending, hpending₂, hserved.pending, hpending₁, hend.pending]
  · rw [hhost.ticks, hticks₂, hserved.ticks, hticks₁, hend.ticks]

/-! ### Every command (O58) -/

/-- Of a command that does not step or load T, and no loss of main power: the clock stays. -/
theorem exec_keepsClock (c : Instr) (e : exec c s = .next t) (htick : ∀ f r, c ≠ .tAdvance f r) (hpps : ∀ f r, c ≠ .ppsEdge f r)
    (hcold : ∀ b, c ≠ .coldReset b) (hoff : c ≠ .powerOff) : KeepsClock s t := by
  cases hc : movesClock c with
  | false => exact ((Steady.refl s).exec c hc t e).toKeepsClock
  | true =>
    unfold movesClock at hc
    split at hc
    · exact absurd rfl (htick _ _)
    · exact absurd rfl (hpps _ _)
    · exact absurd rfl (hcold _)
    · exact absurd rfl hoff
    · cases e
      unfold Machine.unlessFatal
      split
      · exact .refl s
      · exact warmReset_keepsClock
    · cases e
      exact faultEvent_keepsClock
    · cases e
      exact lockstepMiscompare_keepsClock
    · cases hc

/-- A command that does not step T leaves the queue and the count of ticks. -/
theorem exec_leaves (c : Instr) (e : exec c s = .next t) (htick : ∀ f r, c ≠ .tAdvance f r) : t.pending = s.pending ∧ t.ticks = s.ticks := by
  cases hc : movesClock c with
  | false =>
    have h := (Steady.refl s).exec c hc t e
    exact ⟨h.pending, h.ticks⟩
  | true =>
    unfold movesClock at hc
    split at hc
    case h_1 => exact absurd rfl (htick _ _)
    case h_2 => cases e; exact ppsEdge_leaves
    case h_3 => cases e; exact coldReset_leaves
    case h_4 =>
      cases e
      obtain ⟨-, hpending, -, hticks⟩ := powerReset_leaves (t := s)
      exact ⟨hpending, hticks⟩
    case h_8 => cases hc
    all_goals
      have h := exec_keepsClock _ e nofun nofun nofun nofun
      exact ⟨h.pending, h.ticks⟩

/-- Settles O58: the commands that move T, one by one, and the steady rest. -/
theorem queueAndTimeMoveOnlyAsSaid : Obligations.QueueAndTimeMoveOnlyAsSaid := by
  unfold Obligations.QueueAndTimeMoveOnlyAsSaid
  intro c s t e
  by_cases htick : ∃ f r, c = .tAdvance f r
  · obtain ⟨f, r, rfl⟩ := htick
    cases e
    exact ⟨tAdvance_leaves.1, fun h => absurd rfl (h f r), fun _ _ _ => tAdvance_leaves.2, fun h => absurd rfl (h f r)⟩
  · have hne (f : Bool) (r : RailIn) : c ≠ .tAdvance f r := fun h => htick ⟨f, r, h⟩
    obtain ⟨hpending, hticks⟩ := exec_leaves c e hne
    exact ⟨hpending, fun _ => hticks, fun f r h => absurd h (hne f r), fun _ hpps hcold hoff =>
      (exec_keepsClock c e hne hpps hcold hoff).time⟩

/-! ### The step of T (O7) -/

/-- A fold leaves what each of its steps leaves. -/
theorem foldl_leaves {p : State → β} {g : State → α → State} (hg : ∀ (u : State) (a : α), p (g u a) = p u) (l : List α) (t : State) :
    p (l.foldl g t) = p t := by
  induction l generalizing t with
  | nil => rfl
  | cons a l ih => exact (ih _).trans (hg t a)

theorem forceRelease_lens (c : ℕ) (t : State) : (forceRelease c t).lens = t.lens := by
  unfold Machine.forceRelease
  split <;> rfl

theorem captureLane_lens (k : ℕ) (t : State) : (captureLane k t).lens = t.lens := by
  unfold Machine.captureLane
  dsimp only
  split <;> rfl

theorem sampleTickEnd_lens (t : State) : (sampleTickEnd t).lens = t.lens :=
  (foldl_leaves (fun u k => captureLane_lens k u) _ _).trans (foldl_leaves (fun u c => forceRelease_lens c u) _ _)

theorem add_one_eq_zero_iff (x : W) : x + 1 = 0 ↔ x = 0xFFFFFFFFFFFF := by bv_omega

/-- A tick at whose boundary no T_LOAD is due: T steps, or is 0 where power-on reset is asserted, and its wrap goes into the era (R47, R205). -/
theorem tAdvance_time {freqOk : Bool} {rails : RailIn} (hload : t.lens.load = none) :
    (tAdvance freqOk rails t).t = (if porAsserted rails t then 0 else t.t + 1) ∧
      (tAdvance freqOk rails t).era = if t.t = 0xFFFFFFFFFFFF then t.era + 1 else t.era := by
  have hend : Steady t (sampleTickEnd { t with out := { t.out with now := [] } }) := (Steady.refl t).rest.sampleTickEnd
  have hlens := sampleTickEnd_lens { t with out := { t.out with now := [] } }
  rw [tAdvance_eq]
  generalize sampleTickEnd { t with out := { t.out with now := [] } } = a at hend hlens
  have hstep : stepT a = { a with t := a.t + 1, era := if a.t + 1 = 0 then a.era + 1 else a.era, ticks := a.ticks + 1 } :=
    stepT_unloaded (by rw [hlens]; exact hload)
  have hpor : porAsserted rails (stepT a) = porAsserted rails t := by
    rw [← hend.porAsserted_eq, hstep]
    rfl
  have hserved : Steady (stepT a) (tickServed freqOk (stepT a)) := (Steady.refl _).tickServed
  generalize tickServed freqOk (stepT a) = b at hserved
  obtain ⟨-, -, hera, htime⟩ := railTick_leaves (t := b) (rails := rails)
  have hhost : Steady (railTick rails b) (serveHost 0 (railTick rails b)) := (Steady.refl _).serveHost
  have hT : (stepT a).t = t.t + 1 := by rw [hstep, ← hend.time]
  have hE : (stepT a).era = if t.t = 0xFFFFFFFFFFFF then t.era + 1 else t.era := by
    rw [hstep, ← hend.time, ← hend.era]
    simp only [add_one_eq_zero_iff]
  constructor
  · rw [hhost.time, htime, hserved.porAsserted_eq, hpor, hserved.time, hT]
  · rw [hhost.era, hera, hserved.era, hE]

/-- Settles O7, from what the parts of a tick leave. -/
theorem tickStepsTime : Obligations.TickStepsTime := by
  unfold Obligations.TickStepsTime
  refine ⟨?runs, ?resets, ?off⟩
  case runs =>
    intro freqOk rails s hload hpor
    obtain ⟨htime, hera⟩ := tAdvance_time (freqOk := freqOk) (rails := rails) hload
    obtain ⟨hpending, hticks⟩ := tAdvance_leaves (t := s) (freqOk := freqOk) (rails := rails)
    rw [hpor] at htime
    exact completes_next rfl ⟨htime, hera, hticks, hpending, fun _ => rfl⟩
  case resets =>
    intro freqOk rails s hload hpor
    obtain ⟨htime, hera⟩ := tAdvance_time (freqOk := freqOk) (rails := rails) hload
    obtain ⟨hpending, hticks⟩ := tAdvance_leaves (t := s) (freqOk := freqOk) (rails := rails)
    rw [hpor] at htime
    exact completes_next rfl ⟨htime, hera, hticks, hpending⟩
  case off =>
    intro s
    obtain ⟨-, -, hera, -⟩ := powerReset_leaves (t := s)
    exact completes_next rfl hera

end Sys2Proof.Machine
end

section
/-!
SUPPORT. Integer arithmetic at its edges (R51, R72, R73): wrapped and clamped results, division, shifts and rotates (O23).
-/
set_option Elab.async false
namespace Sys2Proof.Machine
open Sys2Proof

/-! ### The wrapped word is the modular one (R51) -/

theorem ofInt_toInt_sub (l r : W) : BitVec.ofInt 48 (l.toInt - r.toInt) = l - r := by
  rw [Int.sub_eq_add_neg, BitVec.ofInt_add, BitVec.ofInt_neg, BitVec.ofInt_toInt, BitVec.ofInt_toInt, BitVec.sub_eq_add_neg]

theorem wrapS_add (l r : W) : (wrapS (l.toInt + r.toInt)).1 = l + r := by
  rw [wrapS, BitVec.ofInt_add, BitVec.ofInt_toInt, BitVec.ofInt_toInt]

theorem wrapS_sub (l r : W) : (wrapS (l.toInt - r.toInt)).1 = l - r := ofInt_toInt_sub l r

theorem wrapS_mul (l r : W) : (wrapS (l.toInt * r.toInt)).1 = l * r := by
  rw [wrapS, BitVec.ofInt_mul, BitVec.ofInt_toInt, BitVec.ofInt_toInt]

/-- A saturated result is the exact one, clamped to the signed range, with V outside it. -/
theorem satS_eq (x : ℤ) : satS x = (if x < -(2 ^ 47) then wMin else if 2 ^ 47 ≤ x then wMax else BitVec.ofInt 48 x,
    if fitsS x then Stk.none else Stk.v) := by
  have hfits : fitsS x = decide (¬x < -(2 ^ 47) ∧ ¬2 ^ 47 ≤ x) := decide_eq_decide.2 (by rw [not_lt, not_le])
  rw [satS, hfits]
  by_cases hlow : x < -(2 ^ 47)
  · have hneg : x < 0 := by omega
    simp only [hlow, hneg, not_true, false_and, decide_false, if_true, if_false, Bool.false_eq_true]
  · by_cases hhigh : 2 ^ 47 ≤ x
    · have hpos : ¬x < 0 := by omega
      simp only [hlow, hhigh, hpos, not_true, and_false, decide_false, if_true, if_false, Bool.false_eq_true]
    · simp only [hlow, hhigh, not_false_eq_true, and_self, decide_true, if_true, if_false, plain]

/-! ### Division (R51, R73) -/

theorem divS_zero (sat : Bool) (l : W) : divS sat l 0 = (if 0 ≤ l.toInt then wMax else wMin, Stk.dz) := by
  rw [divS, if_pos rfl]
  by_cases h : 0 ≤ l.toInt
  · rw [if_pos h, if_neg (not_lt.2 h)]
  · rw [if_neg h, if_pos (not_le.1 h)]

section
variable {l r : W} (hr : r ≠ 0)
include hr

theorem divS_inside (h : ¬(l = wMin ∧ r = BitVec.allOnes 48)) (sat : Bool) : divS sat l r = plain (l.sdiv r) := by
  rw [divS, if_neg hr, if_neg h]
  congr 1
  exact BitVec.eq_of_toInt_eq (by rw [BitVec.toInt_ofInt, BitVec.toInt_sdiv])

theorem remS_inside (h : ¬(l = wMin ∧ r = BitVec.allOnes 48)) : remS l r = plain (l.srem r) := by
  rw [remS, if_neg hr, if_neg h, ← BitVec.toInt_srem, BitVec.ofInt_toInt]

theorem divU_inside : divU l r = plain (l / r) := by
  rw [divU, if_neg hr, w48, ← BitVec.toNat_udiv, BitVec.ofNat_toNat, BitVec.setWidth_eq]

theorem remU_inside : remU l r = plain (l % r) := by
  rw [remU, if_neg hr, w48, ← BitVec.toNat_umod, BitVec.ofNat_toNat, BitVec.setWidth_eq]

theorem srem_natAbs_lt : (l.srem r).toInt.natAbs < r.toInt.natAbs := by
  rw [BitVec.toInt_srem, Int.natAbs_tmod]
  exact Nat.mod_lt _ (Int.natAbs_pos.2 fun e => hr (BitVec.eq_of_toInt_eq (e.trans rfl)))
end

/-- Off the overflow, the quotient of two words and their remainder make up the dividend. -/
theorem sdiv_mul_add_srem {l r : W} (h : ¬(l = wMin ∧ r = BitVec.allOnes 48)) : l.toInt = (l.sdiv r).toInt * r.toInt + (l.srem r).toInt := by
  have hne : l ≠ BitVec.intMin 48 ∨ r ≠ -1#48 := by
    by_contra hboth
    simp only [not_or, not_not] at hboth
    exact h ⟨hboth.1, hboth.2⟩
  rw [BitVec.toInt_sdiv_of_ne_or_ne l r hne, BitVec.toInt_srem, Int.mul_comm, Int.mul_tdiv_add_tmod]

/-- A remainder has the dividend's sign, or is 0. -/
theorem srem_sign (l r : W) : (l.srem r).toInt = 0 ∨ ((l.srem r).toInt < 0 ↔ l.toInt < 0) := by
  rw [BitVec.toInt_srem]
  have hsign := Int.sign_tmod l.toInt r.toInt
  by_cases hdvd : r.toInt ∣ l.toInt
  · rw [if_pos hdvd] at hsign
    exact .inl (Int.sign_eq_zero_iff_zero.1 hsign)
  · rw [if_neg hdvd] at hsign
    right
    rw [← Int.sign_eq_neg_one_iff_neg, hsign, Int.sign_eq_neg_one_iff_neg]

theorem udiv_mul_add_umod (l r : W) : l.toNat = (l / r).toNat * r.toNat + (l % r).toNat := by
  rw [BitVec.toNat_udiv, BitVec.toNat_umod, Nat.div_add_mod']

theorem umod_toNat_lt {l r : W} (hr : r ≠ 0) : (l % r).toNat < r.toNat := by
  rw [BitVec.toNat_umod]
  exact Nat.mod_lt _ (Nat.pos_of_ne_zero fun e => hr (BitVec.eq_of_toNat_eq e))

/-! ### Shifts (R51) -/

theorem shiftLeft_eq_ofNat (l : W) (n : ℕ) : l <<< n = BitVec.ofNat 48 (l.toNat * 2 ^ n) :=
  BitVec.eq_of_toNat_eq (by rw [BitVec.toNat_shiftLeft, BitVec.toNat_ofNat, Nat.shiftLeft_eq])

theorem shiftRight_eq_ofNat (l : W) (n : ℕ) : l >>> n = BitVec.ofNat 48 (l.toNat / 2 ^ n) := by
  refine BitVec.eq_of_toNat_eq ?_
  rw [BitVec.toNat_ushiftRight, BitVec.toNat_ofNat, Nat.shiftRight_eq_div_pow]
  exact (Nat.mod_eq_of_lt ((Nat.div_le_self _ _).trans_lt l.isLt)).symm

/-- An arithmetic shift by 47 leaves the sign in every bit. -/
theorem sshiftRight_47 (l : W) : l.sshiftRight 47 = if l.toInt < 0 then BitVec.allOnes 48 else 0 := by
  refine BitVec.eq_of_toInt_eq ?_
  have hlow := BitVec.le_toInt l
  have hhigh := BitVec.toInt_lt (x := l)
  rw [BitVec.toInt_sshiftRight, Int.shiftRight_eq_div_pow]
  by_cases h : l.toInt < 0
  · rw [if_pos h, BitVec.toInt_allOnes]
    omega
  · rw [if_neg h]
    change l.toInt / ↑(2 ^ 47) = 0
    omega

/-! ### The statement -/

/-- Settles O23, from the lemmas on each operation. -/
theorem integerEdgesFollowTheTable : Obligations.IntegerEdgesFollowTheTable := by
  unfold Obligations.IntegerEdgesFollowTheTable
  intro l r inS ov clamp
  have hexact (x : ℤ) (w : W) (h : (wrapS x).1 = w) : some (wrapS x) = some (w, ov x) := congrArg some (Prod.ext h rfl)
  have hclamped (x : ℤ) : some (satS x) = some (clamp x, ov x) := congrArg some (satS_eq x)
  refine ⟨hexact _ _ (wrapS_add l r), hexact _ _ (wrapS_sub l r), hexact _ _ (wrapS_mul l r), hclamped _, hclamped _, hclamped _,
    congrArg some (divS_zero false l), ?_, rfl, rfl, rfl, by decide, by decide, by decide, ?signed, ?unsigned, ?far, ?near, rfl, rfl⟩
  · exact congrArg some ((divS_zero true l).trans (divS_zero false l).symm)
  case signed =>
    exact fun hr h => ⟨l.sdiv r, l.srem r, congrArg some (divS_inside hr h false), congrArg some (divS_inside hr h true),
      congrArg some (remS_inside hr h), sdiv_mul_add_srem h, srem_natAbs_lt hr, srem_sign l r⟩
  case unsigned =>
    exact fun hr => ⟨l / r, l % r, congrArg some (divU_inside hr), congrArg some (remU_inside hr), udiv_mul_add_umod l r, umod_toNat_lt hr⟩
  case far =>
    intro h
    have hfar : ¬shAmt r < 48 := not_lt.2 h
    refine ⟨?_, ?_, ?_⟩
    · exact congrArg (some ∘ plain) (if_neg hfar)
    · exact congrArg (some ∘ plain) (if_neg hfar)
    · exact congrArg (some ∘ plain) ((if_neg hfar).trans (sshiftRight_47 l))
  case near =>
    intro h
    exact ⟨congrArg (some ∘ plain) ((if_pos h).trans (shiftLeft_eq_ofNat l _)), congrArg (some ∘ plain) ((if_pos h).trans (shiftRight_eq_ofNat l _))⟩

end Sys2Proof.Machine
end

section
/-!
SUPPORT. The move of a flit across a segment (R37, R278) and the timers of the initiators (R280, R281), with what a packet's way through the network
leaves (O14).
-/
set_option Elab.async false
namespace Sys2Proof.Machine
open Sys2Proof

/-! ### What a packet's way leaves, besides what `Sends` says -/

/-- From `s` to `t` packets have moved into the buffers of nodes: memory, the modes of arithmetic and the segments' arbitration are as before, and
every packet that stood in a buffer stands there still. -/
structure Carries (s t : State) : Prop where
  mem : t.mem = s.mem
  arith : t.cl.arith = s.cl.arith
  last : t.net.last = s.net.last
  rr : t.net.rr = s.net.rr
  flits : ∀ f ∈ s.net.flits, f ∈ t.net.flits

section
variable {s t : State}

theorem Carries.refl (s : State) : Carries s s := ⟨rfl, rfl, rfl, rfl, fun _ h => h⟩

/-- A change of other parts than memory, and in network and clusters of what `Carries` does not name. -/
theorem Carries.rest {pending : List Instr} {regs : List (ℕ × ℕ)} {now : W} {era : BitVec 16} {ticks free : ℕ} {net : NetSt} {bank : BankSt}
    {sched : SchedSt} {out : OutSt} {flt : FaultSt} {cl : ClusterSt} {staged : List Staged} {pcie : PcieSt} {ap : ApSt} {mc : McSt}
    {lens : LensSt} {chain : ChainSt} {sc : ScSt} {cc : CcSt} {port : PortSt} {pwr : PwrSt} {old : List (ℕ × ℕ)} (h : Carries s t)
    (ha : cl.arith = t.cl.arith := by rfl) (hl : net.last = t.net.last := by rfl) (hr : net.rr = t.net.rr := by rfl)
    (hf : ∀ f ∈ t.net.flits, f ∈ net.flits := by exact fun _ h => h) :
    Carries s ⟨pending, regs, t.mem, now, era, ticks, free, net, bank, sched, out, flt, cl, staged, pcie, ap, mc, lens, chain, sc, cc, port, pwr,
      old⟩ :=
  ⟨h.mem, ha.trans h.arith, hl.trans h.last, hr.trans h.rr, fun f hm => hf f (h.flits f hm)⟩

theorem Carries.set {f : Fld} {i v : ℕ} (h : Carries s t) : Carries s (t.set f i v) := h.rest

theorem Carries.inc {f : Fld} {i : ℕ} (h : Carries s t) : Carries s (t.inc f i) := h.set

theorem Carries.ite {c : Prop} [Decidable c] {a b : State} (ha : Carries s a) (hb : Carries s b) : Carries s (if c then a else b) := by
  split <;> assumption

theorem Carries.report {kind l detail : ℕ} {part : Option ℕ} {inj : Bool} (h : Carries s t) : Carries s (report kind l detail part inj t) :=
  Carries.ite h h.rest

theorem Carries.violation {c kind : ℕ} {value : W} {sys : Bool} {part init op bank : ℕ} (h : Carries s t) :
    Carries s (violation c kind value sys part init op bank t) :=
  Carries.ite h.inc h.inc.set.set.set.set.set.set.set.set.set

theorem Carries.addCnt {p k n : ℕ} (h : Carries s t) : Carries s (addCnt p k n t) := h.rest

theorem Carries.countCons {p ep n : ℕ} (h : Carries s t) : Carries s (countCons p ep n t) := h.addCnt.addCnt

theorem Carries.discardToken {c : ℕ} {tag : W} {silent : Bool} (h : Carries s t) : Carries s (discardToken c tag silent t) :=
  Carries.ite h.violation.countCons h.violation.countCons.report

theorem Carries.discardAt {n : ℕ} {tag : W} (h : Carries s t) : Carries s (discardAt n tag t) := Carries.ite h.discardToken h.countCons.report

theorem Carries.queueInject {f : Flit} (h : Carries s t) : Carries s (queueInject f t) := Carries.ite h.rest h.rest

theorem Carries.noteBreak {p : ℕ} (h : Carries s t) : Carries s (noteBreak p t) := Carries.ite h h.rest

theorem Carries.deliverRsp {f : Flit} (h : Carries s t) : Carries s (deliverRsp f t) := by
  unfold Machine.deliverRsp
  extract_lets
  split
  · exact Carries.ite h h.inc
  · exact Carries.ite (Carries.ite h.rest h.rest) (Carries.ite h.rest h.rest)

theorem Carries.deliverOther {f : Flit} (h : Carries s t) : Carries s (deliverOther f t) := by
  unfold Machine.deliverOther
  refine Carries.ite (Carries.ite h.rest h.deliverRsp) ?_
  split <;> exact h.rest

/-- A packet joins the buffers of its node. -/
theorem Carries.wait {f : Flit} (h : Carries s t) : Carries s { t with net := { t.net with flits := t.net.flits ++ [f] } } :=
  h.rest (hf := fun _ hm => List.mem_append_left _ hm)

theorem Carries.enterNode {f : Flit} (h : Carries s t) : Carries s (enterNode f t) := by
  unfold Machine.enterNode
  dsimp only
  split
  · exact h.wait
  · exact Carries.ite h.wait (Carries.ite (Carries.ite h.rest h.wait) h.deliverOther)

theorem Carries.inject {f : Flit} (h : Carries s t) : Carries s (inject f t) :=
  Carries.ite (Carries.ite h.discardAt (Carries.ite h (Carries.ite h.queueInject h))) (Carries.ite h.enterNode h.queueInject)

theorem Carries.leaveInit {f : Flit} (h : Carries s t) : Carries s (leaveInit f t).2 := by
  unfold Machine.leaveInit
  split
  · exact h
  · split
    · exact h
    · exact h.rest

theorem Carries.drainNode {n k : ℕ} (h : Carries s t) : Carries s (drainNode n k t) := by
  induction k generalizing t with
  | zero => exact h
  | succ k ih =>
    rw [Machine.drainNode]
    split
    · exact h
    · have h' : Carries s { t with cl := { t.cl with injQ := ‹_› } } := h.rest
      exact ih h'.leaveInit.enterNode.noteBreak

theorem Carries.send {f : Flit} (h : Carries s t) : Carries s (send f t) := h.inject.drainNode

theorem Sends.send {f : Flit} (h : Sends s t) : Sends s (send f t) := h.inject.drainNode
end

/-! ### The crossing of a segment (R278) -/

/-- The flit of a packet as it stands on the far side of a segment. -/
def crossed (g cyc : ℕ) (f : Flit) (s : State) : Flit := { f with via := some g, vc := vcOn f g, urg := agedUrg s f cyc, node := segTo g, out := none }

/-- The sender's side when a segment's winner has left: its buffer is free, and the segment is busy until the packet has passed. -/
def departed (g cyc : ℕ) (f : Flit) (fg : Bool) (s : State) : State :=
  freeChain f { s with net := { s.net with
    flits := s.net.flits.erase f
    last := mput s.net.last g (cyc + f.bodies.length)
    rr := mput s.net.rr g (rrKey f)
    hist := if fg then mput s.net.hist (g * 8 + f.cls) (((mget [] s.net.hist (g * 8 + f.cls)).filter fun c => cyc < c + 4096) ++ [cyc])
      else s.net.hist
    cyc := mput s.net.cyc (segFrom g) (max cyc (s.nodeCyc (segFrom g))) } }

/-- The receiver's clock has come to the cycle in which the packet is received. -/
def clocked (n rcyc : ℕ) (s : State) : State := { s with net := { s.net with cyc := mput s.net.cyc n (max rcyc (s.nodeCyc n)) } }

theorem freeChain_frame (f : Flit) (s : State) : freeChain f s = { s with net := { s.net with freed := (freeChain f s).net.freed } } := by
  unfold freeChain
  split
  · split <;> rfl
  · rfl

/-- What a winner's departure and the receiver's clock leave. -/
theorem clocked_departed (n g cyc rcyc : ℕ) (f : Flit) (fg : Bool) (s : State) :
    ∃ net : NetSt, clocked n rcyc (departed g cyc f fg s) = { s with net := net } ∧ mfind net.last g = some (cyc + f.bodies.length) ∧
      mfind net.rr g = some (rrKey f) := by
  rw [departed, freeChain_frame]
  exact ⟨_, rfl, mfind_mput_same _ _ _, mfind_mput_same _ _ _⟩

section
variable {g cyc rcyc : ℕ} {f : Flit} {fg : Bool} {s : State} (hout : segTo g < 128) (hexists : segExists g = true)
  (hfree : ∀ l, mfind s.net.last g = some l → l < cyc) (hfrom : nodeOn s (segFrom g) = true)
  (hto : nodeOn s (segTo g) = true) (hwin : winner s g cyc = some (f, fg))
include hout hexists hfree hfrom hto hwin

/-- A segment inside the package that is free takes its winner to the next node. -/
theorem receiveInside_crosses (errs : List FlitErr) (urgErr : Bool) : receiveInside g cyc rcyc errs urgErr s =
    drainNode (segFrom g) 8 (match receiveCheck (segTo g) (crossed g cyc f (departed g cyc f fg s)) [] errs urgErr
        (clocked (segTo g) rcyc (departed g cyc f fg s)) with
      | (none, s) => s
      | (some f', s) => arriveAt f' s) := by
  have hlens : segTo g ≠ nodeLens := fun e => by rw [e] at hout; exact absurd hout (by decide)
  have houtside : segTo g ≠ nodeOutside := fun e => by rw [e] at hout; exact absurd hout (by decide)
  cases hlast : mfind s.net.last g with
  | none =>
    simp only [receiveInside, hexists, hfrom, hto, hwin, hlens, houtside, hlast, if_false, Bool.not_true, Bool.or_false, Bool.and_false,
      Bool.false_eq_true]
    rfl
  | some l =>
    simp only [receiveInside, hexists, hfrom, hto, hwin, hlens, houtside, hlast, not_le.2 (hfree l hlast), decide_false, if_false,
      Bool.not_true, Bool.or_false, Bool.and_false, Bool.false_eq_true]
    rfl

end

/-! ### The checks at the receiving node (R37) -/

section
variable {n : ℕ} {f : Flit} {s : State} (harm : s.flag F.injCtl_ARM 0 = false)
include harm

/-- A packet whose flits are all clean passes. -/
theorem flitChecks_clean {errs : List FlitErr} (raws : List (BitVec 160)) (l : List (ℕ × BitVec 144))
    (hclean : (errs.all fun e => e.check = 0) = true) : flitChecks n f raws errs l s = (true, s) := by
  induction l generalizing errs raws with
  | nil => rfl
  | cons x l ih =>
    have hhead : (errs.headD ⟨0, 0⟩).check = 0 := by
      cases errs with
      | nil => rfl
      | cons e errs => simpa using (List.all_eq_true.1 hclean e List.mem_cons_self)
    have htail : (errs.tail.all fun e => e.check = 0) = true :=
      List.all_eq_true.2 fun e he => List.all_eq_true.1 hclean e (List.mem_of_mem_tail he)
    rw [flitChecks]
    generalize errs.headD ⟨0, 0⟩ = e at hhead ⊢
    simp [hhead, secded_unarmed harm, ih raws.tail htail]

theorem receiveCheck_clean {errs : List FlitErr} (hclean : (errs.all fun e => e.check = 0) = true) :
    receiveCheck n f [] errs false s = (some f, s) := by
  simp [receiveCheck, flitChecks_clean harm [] f.all hclean]
end

/-- The raw bits of a flit go into the log of a router. -/
def logRaw (n : ℕ) (raw : BitVec 160) (s : State) : State :=
  (((s.set F.flitLog0_RAW n raw.toNat).set F.flitLog1_RAW n (raw.toNat / 2 ^ 64)).set F.flitLog2_RAW n (raw.toNat / 2 ^ 128)).set
    F.flitLog2_VALID n 1

/-- The register fields of a router that a dropped flit changes. -/
def dropFields : List Fld := [F.rtrStat_DROPS, F.flitLog0_RAW, F.flitLog1_RAW, F.flitLog2_RAW, F.flitLog2_VALID]

theorem logRaw_regsBut (n : ℕ) (raw : BitVec 160) (s : State) :
    RegsBut [F.flitLog0_RAW, F.flitLog1_RAW, F.flitLog2_RAW, F.flitLog2_VALID] s (logRaw n raw s) :=
  (RegsBut.refl _ s).set.set.set.set

section
variable {n : ℕ} (hn : n < 144) (raw : BitVec 160) (inj : Bool) (s : State)
include hn

theorem dropFlit_router : dropFlit n raw inj s = report 18 (loc 4 n) 0 none inj
    (if s.flag F.flitLog2_VALID n then s.inc F.rtrStat_DROPS n else logRaw n raw (s.inc F.rtrStat_DROPS n)) := by
  have hflag : (s.inc F.rtrStat_DROPS n).flag F.flitLog2_VALID n = s.flag F.flitLog2_VALID n := State.flag_inc_ne _ _ _ _ _ (by decide)
  unfold dropFlit
  rw [if_pos hn]
  dsimp only
  rw [hflag]
  rfl

theorem dropFlit_regsBut : RegsBut dropFields s (dropFlit n raw inj s) := by
  have hinc : RegsBut dropFields s (s.inc F.rtrStat_DROPS n) := (RegsBut.refl _ s).inc (hf := by simp [dropFields])
  rw [dropFlit_router hn]
  refine RegsBut.regs ?_ (report_regs ..)
  split
  · exact hinc
  · exact hinc.trans ((logRaw_regsBut n raw _).mono (by simp [dropFields]))

theorem dropFlit_carries : Carries s (dropFlit n raw inj s) := by
  rw [dropFlit_router hn]
  exact (Carries.ite (Carries.refl s).inc (Carries.refl s).inc.set.set.set.set).report

/-- A dropped flit is counted. -/
theorem dropFlit_counts : (dropFlit n raw inj s).get F.rtrStat_DROPS n = (s.get F.rtrStat_DROPS n + 1) % 2 ^ F.rtrStat_DROPS.w := by
  rw [dropFlit_router hn, report_get]
  split
  · exact State.get_inc_same s F.rtrStat_DROPS n
  · exact (logRaw_regsBut n raw _ F.rtrStat_DROPS n (by decide)).trans (State.get_inc_same s F.rtrStat_DROPS n)

/-- The log of a router holds a flit after a drop. -/
theorem dropFlit_valid : (dropFlit n raw inj s).get F.flitLog2_VALID n ≠ 0 := by
  rw [dropFlit_router hn, report_get]
  split
  · rename_i h
    rw [State.get_inc_ne _ _ _ _ _ (by decide)]
    simpa [State.flag] using h
  · rw [logRaw, State.get_set_same]
    decide

/-- A field of the log takes the dropped flit where the log is empty. -/
theorem dropFlit_log {g : Fld} {v : ℕ} (hg : F.rtrStat_DROPS.id ≠ g.id)
    (hlog : (logRaw n raw (s.inc F.rtrStat_DROPS n)).get g n = v) :
    (dropFlit n raw inj s).get g n = if s.get F.flitLog2_VALID n = 0 then v else s.get g n := by
  rw [dropFlit_router hn, report_get]
  by_cases h : s.get F.flitLog2_VALID n = 0
  · have hflag : s.flag F.flitLog2_VALID n = false := by simp [State.flag, h]
    rw [hflag, if_pos h]
    exact hlog
  · have hflag : s.flag F.flitLog2_VALID n = true := by simp [State.flag, h]
    rw [hflag, if_neg h, if_pos rfl, State.get_inc_ne _ _ _ _ _ hg]
end

theorem logRaw_low (n : ℕ) (raw : BitVec 160) (s : State) : (logRaw n raw s).get F.flitLog0_RAW n = raw.toNat % 2 ^ 64 := by
  have hlog : RegsBut [F.flitLog1_RAW, F.flitLog2_RAW, F.flitLog2_VALID] (s.set F.flitLog0_RAW n raw.toNat) (logRaw n raw s) :=
    (RegsBut.refl _ _).set.set.set
  rw [hlog _ _ (by decide)]
  exact State.get_set_same s F.flitLog0_RAW n raw.toNat

theorem logRaw_mid (n : ℕ) (raw : BitVec 160) (s : State) : (logRaw n raw s).get F.flitLog1_RAW n = raw.toNat / 2 ^ 64 % 2 ^ 64 := by
  have hlog : RegsBut [F.flitLog2_RAW, F.flitLog2_VALID] ((s.set F.flitLog0_RAW n raw.toNat).set F.flitLog1_RAW n (raw.toNat / 2 ^ 64))
      (logRaw n raw s) := (RegsBut.refl _ _).set.set
  rw [hlog _ _ (by decide)]
  exact State.get_set_same _ F.flitLog1_RAW n _

theorem logRaw_high (n : ℕ) (raw : BitVec 160) (s : State) : (logRaw n raw s).get F.flitLog2_RAW n = raw.toNat / 2 ^ 128 := by
  have hsmall : raw.toNat / 2 ^ 128 < 2 ^ 32 := Nat.div_lt_of_lt_mul (raw.isLt.trans_eq (by norm_num))
  rw [logRaw, State.get_set_ne _ _ _ _ _ _ (by decide), State.get_set_same]
  exact Nat.mod_eq_of_lt hsmall

/-- A packet of which the first flit has an uncorrectable error is dropped. -/
theorem receiveCheck_bad {n : ℕ} (hn : n < 144) (f : Flit) (raw : BitVec 160) {s : State} (harm : s.flag F.injCtl_ARM 0 = false) :
    receiveCheck n f [] [⟨2, raw⟩] false s = (none, dropFlit n raw false s) := by
  have harm' : (dropFlit n raw false s).flag F.injCtl_ARM 0 = false := by
    rw [State.flag, dropFlit_regsBut hn raw false s _ _ (by decide)]
    exact harm
  have hchecks : flitChecks n f [] [⟨2, raw⟩] f.all s = (false, dropFlit n raw false s) := by
    have hrest : flitChecks n f [] [] (f.bodies.map fun b => (4, b)) (dropFlit n raw false s) = (true, dropFlit n raw false s) :=
      flitChecks_clean harm' [] _ rfl
    rw [Flit.all, flitChecks]
    simp [secded_unarmed harm, hrest]
  simp [receiveCheck, hchecks]

/-! ### Arrival at a node whose route goes on (R271) -/

/-- A packet in the buffers of its node, with the segment that it takes next. -/
def routed (g : ℕ) (f : Flit) (s : State) : Flit := { f with out := some g, since := s.nodeCyc f.node }

/-- A packet joins the buffers of its node. -/
def buffered (f : Flit) (s : State) : State := { s with net := { s.net with flits := s.net.flits ++ [f] } }

theorem arriveAt_waits {g : ℕ} {f : Flit} {s : State} (hlens : f.node ≠ nodeLens)
    (hroute : routeAt s f.node f.via (flitDest f) (f.ty = 1 && reqOp f.pay = 10) = some g) :
    arriveAt f s = buffered (routed g f s) s := by
  have henter : enterNode f s = buffered (routed g f s) s := by
    unfold enterNode
    dsimp only
    rw [hroute]
    rfl
  have hlong : (buffered (routed g f s) s).net.flits.length ≠ s.net.flits.length := by simp [buffered]
  unfold arriveAt
  rw [if_neg hlens, henter]
  exact if_neg hlong

/-! ### FLIT_RECEIVE, clean and bad -/

theorem exec_flitReceive {seg : Fin 49152} {s : State} (hf : s.fatal = false) (hfrom : segFrom seg ≠ nodeOutside) (cyc rcyc : ℕ)
    (errs : List FlitErr) : exec (.flitReceive seg cyc rcyc none errs false) s = .next (receiveInside seg cyc rcyc errs false s) := by
  change Host.Outcome.next (if s.fatal then s else if segFrom seg = nodeOutside then _ else receiveInside seg cyc rcyc errs false s) = _
  rw [hf, if_neg Bool.false_ne_true, if_neg hfrom]

/-- The sender's node takes in what waited there, and keeps what the move has left. -/
theorem drainNode_leaves (n k : ℕ) (s : State) : (drainNode n k s).pending = s.pending ∧ (drainNode n k s).t = s.t ∧
    Carries s (drainNode n k s) ∧ RegsBut wayFields s (drainNode n k s) :=
  have h : Sends s (drainNode n k s) := (Sends.refl s).drainNode
  ⟨h.pending, h.time, (Carries.refl s).drainNode, h.regs⟩

section
variable {seg : Fin 49152} {cyc rcyc g2 : ℕ} {f : Flit} {fg : Bool} {s : State} (hf : s.fatal = false) (hside : segFrom seg ≠ nodeOutside)
  (hout : segTo seg < 128) (hexists : segExists seg = true) (hfree : ∀ l, mfind s.net.last seg = some l → l < cyc)
  (hfrom : nodeOn s (segFrom seg) = true) (hto : nodeOn s (segTo seg) = true) (hwin : winner s seg cyc = some (f, fg))
  (harm : s.flag F.injCtl_ARM 0 = false)
include hf hside hout hexists hfree hfrom hto hwin harm

/-- The winner of a segment crosses it, and waits at the next node for the segment that its route names. -/
theorem flitReceive_clean {errs : List FlitErr} (hclean : (errs.all fun e => e.check = 0) = true)
    (hroute : routeAt s (segTo seg) (some seg.val) (flitDest f) (f.ty = 1 && reqOp f.pay = 10) = some g2) :
    Completes (.flitReceive seg cyc rcyc none errs false) s fun t => mfind t.net.last seg = some (cyc + f.bodies.length) ∧
      mfind t.net.rr seg = some (rrKey f) ∧
      (t.net.flits.any fun x => decide (x.ty = f.ty ∧ x.pay = f.pay ∧ x.bodies = f.bodies ∧ x.side = f.side ∧ x.poison = f.poison ∧
        x.cls = f.cls ∧ x.node = segTo seg ∧ x.via = some seg.val ∧ x.out = some g2 ∧ x.urg = agedUrg s f cyc)) = true ∧
      t.mem = s.mem ∧ t.pending = s.pending ∧ t.t = s.t := by
  have hlens : segTo seg ≠ nodeLens := fun e => by rw [e] at hout; exact absurd hout (by decide)
  have hcross := receiveInside_crosses (rcyc := rcyc) hout hexists hfree hfrom hto hwin errs false
  have hurg : agedUrg (departed seg cyc f fg s) f cyc = agedUrg s f cyc := by
    rw [departed, freeChain_frame]
    rfl
  obtain ⟨net, hstate, hlast, hrr⟩ := clocked_departed (segTo seg) seg cyc rcyc f fg s
  rw [hstate, receiveCheck_clean (s := { s with net := net }) harm hclean] at hcross
  have harrive : arriveAt (crossed seg cyc f (departed seg cyc f fg s)) { s with net := net } =
    buffered (routed g2 (crossed seg cyc f (departed seg cyc f fg s)) { s with net := net }) { s with net := net } :=
      arriveAt_waits hlens hroute
  have hnext := hcross.trans (congrArg (drainNode (segFrom seg) 8) harrive)
  obtain ⟨hpending, htime, hcarries, -⟩ := drainNode_leaves (segFrom seg) 8
    (buffered (routed g2 (crossed seg cyc f (departed seg cyc f fg s)) { s with net := net }) { s with net := net })
  refine completes_next ((exec_flitReceive hf hside cyc rcyc errs).trans (congrArg _ hnext)) ⟨?_, ?_, ?_, hcarries.mem, hpending, htime⟩
  · rw [hcarries.last]
    exact hlast
  · rw [hcarries.rr]
    exact hrr
  · refine List.any_eq_true.2 ⟨_, hcarries.flits _ (List.mem_append_right _ (List.mem_singleton_self _)), decide_eq_true ?_⟩
    exact ⟨rfl, rfl, rfl, rfl, rfl, rfl, rfl, rfl, rfl, hurg⟩

/-- A packet with an uncorrectable error is dropped at the receiving router, counted and logged. -/
theorem flitReceive_bad (raw : BitVec 160) : Completes (.flitReceive seg cyc rcyc none [⟨2, raw⟩] false) s fun t =>
    mfind t.net.last seg = some (cyc + f.bodies.length) ∧
      t.get F.rtrStat_DROPS (segTo seg) = (s.get F.rtrStat_DROPS (segTo seg) + 1) % 2 ^ F.rtrStat_DROPS.w ∧
      t.get F.flitLog2_VALID (segTo seg) ≠ 0 ∧
      t.get F.flitLog0_RAW (segTo seg) =
        (if s.get F.flitLog2_VALID (segTo seg) = 0 then raw.toNat % 2 ^ 64 else s.get F.flitLog0_RAW (segTo seg)) ∧
      t.get F.flitLog1_RAW (segTo seg) =
        (if s.get F.flitLog2_VALID (segTo seg) = 0 then raw.toNat / 2 ^ 64 % 2 ^ 64 else s.get F.flitLog1_RAW (segTo seg)) ∧
      t.get F.flitLog2_RAW (segTo seg) =
        (if s.get F.flitLog2_VALID (segTo seg) = 0 then raw.toNat / 2 ^ 128 else s.get F.flitLog2_RAW (segTo seg)) ∧
      t.mem = s.mem ∧ t.pending = s.pending ∧ t.t = s.t := by
  have hn : segTo seg < 144 := hout.trans (by decide)
  have hcross := receiveInside_crosses (rcyc := rcyc) hout hexists hfree hfrom hto hwin [⟨2, raw⟩] false
  obtain ⟨net, hstate, hlast, -⟩ := clocked_departed (segTo seg) seg cyc rcyc f fg s
  rw [hstate, receiveCheck_bad (s := { s with net := net }) hn _ raw harm] at hcross
  have hcounts := dropFlit_counts hn raw false { s with net := net }
  have hvalid := dropFlit_valid hn raw false { s with net := net }
  have hlow := dropFlit_log hn raw false { s with net := net } (g := F.flitLog0_RAW) (by decide) (logRaw_low _ _ _)
  have hmid := dropFlit_log hn raw false { s with net := net } (g := F.flitLog1_RAW) (by decide) (logRaw_mid _ _ _)
  have hhigh := dropFlit_log hn raw false { s with net := net } (g := F.flitLog2_RAW) (by decide) (logRaw_high _ _ _)
  have hdrop := dropFlit_carries hn raw false { s with net := net }
  have hsteady : Steady { s with net := net } (dropFlit (segTo seg) raw false { s with net := net }) := (Steady.refl _).dropFlit
  generalize dropFlit (segTo seg) raw false { s with net := net } = u at *
  obtain ⟨hpending, htime, hcarries, hregs⟩ := drainNode_leaves (segFrom seg) 8 u
  refine completes_next ((exec_flitReceive hf hside cyc rcyc _).trans (congrArg _ hcross))
    ⟨?_, ?_, ?_, ?_, ?_, ?_, hcarries.mem.trans hdrop.mem, hpending.trans hsteady.pending, htime.trans hsteady.time⟩
  · rw [hcarries.last, hdrop.last]
    exact hlast
  · exact (hregs _ _ (by decide)).trans hcounts
  · rw [hregs _ _ (by decide)]
    exact hvalid
  · exact (hregs _ _ (by decide)).trans hlow
  · exact (hregs _ _ (by decide)).trans hmid
  · exact (hregs _ _ (by decide)).trans hhigh
end

/-! ### Timers (R280, R281) -/

/-- The timer of a hub initiator is dead, and a response with ERR stands at the initiator. -/
def hubAnswered (x : Timed) (s : State) : State :=
  { s with net := { s.net with
    timed := replaceFirst (fun y => y = x) (fun y => { y with dead := true }) s.net.timed
    hubRsp := s.net.hubRsp ++ [⟨bits x.ret 7 4, x.ret % 128, false, (poisonData causeErr x.addr.toNat).setWidth 64, x.addr⟩] } }

/-- The timer of a PE's request is dead, and a poisoned response stands at its cluster `c`. -/
def peAnswered (c : ℕ) (x : Timed) (s : State) : State :=
  { s with net := { s.net with
    timed := replaceFirst (fun y => y = x) (fun y => { y with dead := true }) s.net.timed
    rspQ := s.net.rspQ ++ [mkFlit 2 true (rspPay x.ret 0 (poisonData causeErr x.addr.toNat) x.addr) [] x.part 0 c] } }

theorem exec_initiatorTimeout {s : State} (hf : s.fatal = false) : exec .initiatorTimeout s = .next (initiatorTimeout s) :=
  congrArg _ (unlessFatal_live hf _)

/-- A timer of a hub initiator that runs out. -/
theorem initiatorTimeout_hub {x : Timed} {s : State} (hf : s.fatal = false) (hfind : (s.net.timed.find? fun y => y.expired s) = some x)
    (hhub : bits x.ret 11 4 = 8) (hinit : bits x.ret 7 4 < 14) :
    Completes .initiatorTimeout s fun t => t.net.hubRsp = s.net.hubRsp ++
        [⟨bits x.ret 7 4, x.ret % 128, false, (poisonData causeErr x.addr.toNat).setWidth 64, x.addr⟩] ∧
      t.get F.hubTo_TIMEOUTS (bits x.ret 7 4) = (s.get F.hubTo_TIMEOUTS (bits x.ret 7 4) + 1) % 2 ^ F.hubTo_TIMEOUTS.w ∧
      t = { s with regs := t.regs, net := t.net, flt := t.flt } ∧ RegsBut [F.hubTo_TIMEOUTS] s t := by
  have hstep : initiatorTimeout s = reportU 19 (loc 7 (bits x.ret 7 4)) 0 ((hubAnswered x s).inc F.hubTo_TIMEOUTS (bits x.ret 7 4)) := by
    simp only [initiatorTimeout, hfind, hhub, hinit, if_true]
    rfl
  refine completes_next ((exec_initiatorTimeout hf).trans (congrArg _ hstep)) ?_
  rw [reportU]
  refine ⟨?_, ?_, ?_, ?_⟩
  · rw [report_frame]
    rfl
  · rw [report_get]
    exact State.get_inc_same _ F.hubTo_TIMEOUTS _
  · rw [report_frame]
    rfl
  · exact RegsBut.regs (t := s.inc F.hubTo_TIMEOUTS (bits x.ret 7 4)) (RegsBut.refl _ s).inc (report_regs ..)

/-- The log of request timeouts of a cluster's PEs takes a request. -/
def logTimeout (c : ℕ) (x : Timed) (s : State) : State :=
  (((((s.set F.toAddr_ADDR c x.addr.toNat).set F.toInfo_RET c x.ret).set F.toInfo_OP c x.op).set F.toInfo_PART c x.part).set F.toInfo_T c
    s.t.toNat).set F.toInfo_VALID c 1

theorem logTimeout_regsBut (c : ℕ) (x : Timed) (s : State) :
    RegsBut [F.toInfo_VALID, F.toAddr_ADDR, F.toInfo_RET, F.toInfo_OP, F.toInfo_PART, F.toInfo_T] s (logTimeout c x s) :=
  (RegsBut.refl _ s).set.set.set.set.set.set

/-- What the log shows of the request. -/
theorem logTimeout_get (c : ℕ) (x : Timed) (s : State) : (logTimeout c x s).get F.toInfo_VALID c = 1 ∧
    (logTimeout c x s).get F.toAddr_ADDR c = x.addr.toNat ∧ (logTimeout c x s).get F.toInfo_RET c = x.ret % 2 ^ F.toInfo_RET.w ∧
    (logTimeout c x s).get F.toInfo_OP c = x.op % 2 ^ F.toInfo_OP.w ∧ (logTimeout c x s).get F.toInfo_PART c = x.part % 2 ^ F.toInfo_PART.w ∧
    (logTimeout c x s).get F.toInfo_T c = s.t.toNat % 2 ^ F.toInfo_T.w := by
  have haddr : x.addr.toNat % 2 ^ F.toAddr_ADDR.w = x.addr.toNat := Nat.mod_eq_of_lt x.addr.isLt
  have hne {u : State} {f g : Fld} {v : ℕ} (h : f.id ≠ g.id) : (u.set f c v).get g c = u.get g c := State.get_set_ne u f g c c v h
  refine ⟨State.get_set_same _ _ c 1, ?_, ?_, ?_, ?_, ?_⟩
  · rw [logTimeout, hne (by decide), hne (by decide), hne (by decide), hne (by decide), hne (by decide), State.get_set_same, haddr]
  · rw [logTimeout, hne (by decide), hne (by decide), hne (by decide), hne (by decide), State.get_set_same]
  · rw [logTimeout, hne (by decide), hne (by decide), hne (by decide), State.get_set_same]
  · rw [logTimeout, hne (by decide), hne (by decide), State.get_set_same]
  · rw [logTimeout, hne (by decide), State.get_set_same]

/-- A timer of a PE that runs out, where the log of its cluster is empty. -/
theorem initiatorTimeout_pe {x : Timed} {s : State} (hf : s.fatal = false) (hfind : (s.net.timed.find? fun y => y.expired s) = some x)
    (hpe : bits x.ret 11 4 < 8) (hvalid : s.flag F.toInfo_VALID (cIdx (bits x.ret 11 4) (bits x.ret 7 4)) = false) :
    Completes .initiatorTimeout s fun t => (let c := cIdx (bits x.ret 11 4) (bits x.ret 7 4);
      t.net.rspQ = s.net.rspQ ++ [mkFlit 2 true (rspPay x.ret 0 (poisonData causeErr x.addr.toNat) x.addr) [] x.part 0 c] ∧
      t.get F.rtrStat_TIMEOUTS c = (s.get F.rtrStat_TIMEOUTS c + 1) % 2 ^ F.rtrStat_TIMEOUTS.w ∧ t.get F.toInfo_VALID c = 1 ∧
      t.get F.toAddr_ADDR c = x.addr.toNat ∧ t.get F.toInfo_RET c = x.ret % 2 ^ F.toInfo_RET.w ∧
      t.get F.toInfo_OP c = x.op % 2 ^ F.toInfo_OP.w ∧ t.get F.toInfo_PART c = x.part % 2 ^ F.toInfo_PART.w ∧
      t.get F.toInfo_T c = s.t.toNat % 2 ^ F.toInfo_T.w ∧ t = { s with regs := t.regs, net := t.net, flt := t.flt }) ∧
      RegsBut [F.rtrStat_TIMEOUTS, F.toInfo_VALID, F.toAddr_ADDR, F.toInfo_RET, F.toInfo_OP, F.toInfo_PART, F.toInfo_T] s t := by
  generalize hc : cIdx (bits x.ret 11 4) (bits x.ret 7 4) = c at hvalid ⊢
  have hne : bits x.ret 11 4 ≠ 8 := Nat.ne_of_lt hpe
  have hstep : initiatorTimeout s = reportP 16 (loc 4 c) 0 x.part (logTimeout c x ((peAnswered c x s).inc F.rtrStat_TIMEOUTS c)) := by
    have hflag (net : NetSt) : (State.inc { s with net := net } F.rtrStat_TIMEOUTS c).flag F.toInfo_VALID c = false :=
      (State.flag_inc_ne _ _ _ _ _ (by decide)).trans hvalid
    simp only [initiatorTimeout, hfind, hne, if_false, hc, hflag, Bool.false_eq_true]
    rfl
  refine completes_next ((exec_initiatorTimeout hf).trans (congrArg _ hstep)) ?_
  rw [reportP]
  dsimp only
  simp only [report_get]
  obtain ⟨hval, haddr, hret, hop, hpart, ht⟩ := logTimeout_get c x ((peAnswered c x s).inc F.rtrStat_TIMEOUTS c)
  refine ⟨⟨?_, ?_, ?_, ?_, ?_, ?_, ?_, ?_, ?_⟩, ?_⟩
  · rw [report_frame]
    rfl
  · exact (logTimeout_regsBut c x _ _ _ (by decide)).trans (State.get_inc_same _ F.rtrStat_TIMEOUTS c)
  · exact hval
  · exact haddr
  · exact hret
  · exact hop
  · exact hpart
  · exact ht
  · rw [report_frame]
    rfl
  · exact RegsBut.regs (t := logTimeout c x (s.inc F.rtrStat_TIMEOUTS c)) (RegsBut.refl _ s).inc.set.set.set.set.set.set (report_regs ..)

/-! ### The statement -/

/-- Settles O14, clause by clause. -/
theorem flitsCrossSegmentsAndTimersExpire : Obligations.FlitsCrossSegmentsAndTimersExpire := by
  unfold Obligations.FlitsCrossSegmentsAndTimersExpire
  refine ⟨?clean, ?bad, ?hub, ?pe⟩
  case clean =>
    intro seg cyc rcyc g2 f fg errs s hf hside hout hexists hfree hfrom hto hwin harm hclean _ hroute
    exact flitReceive_clean hf hside hout hexists (fun l hl => by rw [hl] at hfree; simpa using hfree) hfrom hto hwin harm hclean hroute
  case bad =>
    intro seg cyc rcyc f fg raw s hf hside hout hexists hfree hfrom hto hwin harm
    exact flitReceive_bad hf hside hout hexists (fun l hl => by rw [hl] at hfree; simpa using hfree) hfrom hto hwin harm raw
  case hub => exact fun x s hf hfind hhub hinit => initiatorTimeout_hub hf hfind hhub hinit
  case pe => exact fun x s hf hfind hpe hvalid => initiatorTimeout_pe hf hfind hpe hvalid

end Sys2Proof.Machine
end

section
/-!
SUPPORT. The firing of a slot (R46, R80, R113–R118, R135): what it takes from its queue and leaves, and how an operation follows it (O20, O22).
-/
set_option Elab.async false
namespace Sys2Proof.Machine
open Sys2Proof

/-! ### The slot that fires (R113) -/

theorem mem_of_minBy {α : Type} {p : α → ℤ} {l : List α} {a : α} (h : minBy p l = some a) : a ∈ l := by
  induction l generalizing a with
  | nil => cases h
  | cons b l ih =>
    rw [minBy] at h
    cases hrest : minBy p l with
    | none =>
      simp only [hrest, Option.some.injEq] at h
      exact h ▸ List.mem_cons_self
    | some c =>
      simp only [hrest] at h
      split at h
      · cases h
        exact List.mem_cons_self
      · cases h
        exact List.mem_cons_of_mem _ (ih hrest)

theorem headSlot_place {s : State} {c pe : ℕ} {x : Slot} (h : s.headSlot c pe = some x) : x.cluster = c ∧ x.pe = pe := by
  have hx := (List.mem_filter.1 (mem_of_minBy h)).2
  simpa using hx

/-- A firing has begun: the PE can fire, and its head slot is of the class. -/
theorem fired_some {s u : State} {c pe : ℕ} {cls : OpClass} {err : FireErr} {f : Firing} (h : fired s c pe cls err = some (f, u)) :
    canFire s c pe err.pass = true ∧ ∃ x, s.headSlot c pe = some x ∧ opClass (iOpc (s.instr c (tagInstr x.tag))) = cls ∧
      beginFire x (s.instr c (tagInstr x.tag)) err s = (some f, u) := by
  unfold fired at h
  split at h
  · cases h
  · rename_i hcan
    split at h
    · cases h
    · rename_i x hx
      dsimp only at h
      split at h
      · cases h
      · rename_i hcls
        split at h
        · cases h
        · rename_i hbegin
          cases h
          exact ⟨by simpa using hcan, x, hx, not_not.1 hcls, hbegin⟩

/-- An operation does to the state of its firing what its row says. -/
theorem fireWith_fired {s u : State} {c pe : ℕ} {cls : OpClass} {err : FireErr} {f : Firing} (h : fired s c pe cls err = some (f, u))
    (body : Firing → State → State) : fireWith cls c pe err body s = body f u := by
  obtain ⟨hcan, x, hx, hcls, hbegin⟩ := fired_some h
  simp [fireWith, hcan, hx, hcls, hbegin]

/-! ### The start of a firing whose operands stand in its slot, without errors -/

/-- The value of a port of a slot that has no spilled operand: from its token, or from K (R61, R62). -/
def heldPort (w bit : ℕ) (o : Option SlotOp) : W × Bool :=
  match o with
  | some o => (o.data, o.poison)
  | none => (if kselMask w = bit then w48 (iK w) else 0, false)

/-- The slot is free, and the tokens count as consumed (R135). -/
def taken (x : Slot) (s : State) : State :=
  countProg (tagPart x.tag) (countCons (tagPart x.tag) (tagEpoch x.tag) x.inputs (s.freeSlot x))

theorem taken_frame (x : Slot) (s : State) : taken x s = { s with cl := (taken x s).cl } := by
  simp only [taken, countProg, countCons, addCnt, State.freeSlot]

@[simp] theorem taken_regs (x : Slot) (s : State) : (taken x s).regs = s.regs := by
  rw [taken_frame]

@[simp] theorem taken_t (x : Slot) (s : State) : (taken x s).t = s.t := by
  rw [taken_frame]

/-- The state in which a firing reads its operands: its slot checked and taken, an injection met (R113, R135, R393). -/
def opened (x : Slot) (err : FireErr) (s : State) : State :=
  let a := secded [6, 7] (loc 2 x.cluster) err.slot s
  (takeInjection [1] (loc 2 x.cluster) (taken x (if a.1 = 1 then report 6 (loc 2 x.cluster) 0 none a.2.1 a.2.2 else a.2.2))).2

/-- The firing whose operands are read from `t`, and the state after it: with the log of late firings where the slack is negative (R46, R114). -/
def begun (x : Slot) (w : ℕ) (err : FireErr) (t : State) : Firing × State :=
  let l := readPort x.cluster x.pe x.tag w 1 x.l err.recL t
  let r := readPort x.cluster x.pe x.tag w 2 x.r err.recR l.2
  let g := readPort x.cluster x.pe x.tag w 4 x.g err.recG r.2
  let y := firingOf x w l.1 r.1 g.1 g.2
  (y.1, if y.2 < 0 then lateFiring x.cluster x.tag y.1.due g.2 else g.2)

/-- What a firing is where it begins at all. -/
theorem beginFire_some {x : Slot} {w : ℕ} {err : FireErr} {s u : State} {f : Firing} (h : beginFire x w err s = (some f, u)) :
    (f, u) = begun x w err (opened x err s) := by
  revert h
  unfold beginFire
  extract_lets c pe p held
  split
  rename_i o sinj s₀ hs₀
  split
  · exact nofun
  extract_lets s₁ s₂ s₃
  split
  extract_lets ended
  split
  · exact nofun
  split
  · exact nofun
  split
  · exact nofun
  split
  rename_i i s₄ hs₄
  have hopened : opened x err s = s₄ := by
    simp only [opened, taken]
    rw [hs₀]
    exact congrArg Prod.snd hs₄
  rw [hopened]
  extract_lets inj fails check
  split
  · exact nofun
  split
  rename_i l t₁ hl
  split
  rename_i r t₂ hr
  split
  rename_i g t₃ hg
  split
  rename_i f' sl hf
  extract_lets t₄
  have hbegun : begun x w err s₄ = (f', t₄) := by
    simp only [begun]
    rw [hl, hr, hg]
    dsimp only
    rw [hf]
  rw [hbegun]
  clear_value t₄ check fails inj
  have hrun : (some f', t₄) = (some f, u) → (f, u) = (f', t₄) := fun h => by cases h; rfl
  split
  · split
    · exact nofun
    · exact hrun
  split
  · exact nofun
  split
  · exact hrun
  split
  · exact nofun
  · exact hrun

/-- A firing stands at the PE that fires. -/
theorem fired_place {s u : State} {c pe : ℕ} {cls : OpClass} {err : FireErr} {f : Firing} (h : fired s c pe cls err = some (f, u)) :
    f.c = c ∧ f.pe = pe := by
  obtain ⟨-, x, hx, -, hbegin⟩ := fired_some h
  obtain ⟨hc, hpe⟩ := headSlot_place hx
  obtain ⟨rfl, -⟩ := Prod.mk.inj (beginFire_some hbegin)
  exact ⟨hc, hpe⟩

theorem record_none {x : Slot} (h : x.recs = []) {o : Option SlotOp} (ho : o = x.l ∨ o = x.r ∨ o = x.g) {y : SlotOp} (hy : o = some y) :
    y.record = none := by
  have hmem : o ∈ [x.l, x.r, x.g] := by simpa using ho
  have hnone := List.filterMap_eq_nil_iff.1 h o hmem
  rw [hy] at hnone
  exact hnone

theorem readPort_held {x : Slot} (h : x.recs = []) {o : Option SlotOp} (ho : o = x.l ∨ o = x.r ∨ o = x.g) (c pe : ℕ) (tag : W) (w bit err : ℕ)
    (s : State) : readPort c pe tag w bit o err s = (heldPort w bit o, s) := by
  cases o with
  | none => rfl
  | some y => simp only [readPort, record_none h ho rfl, heldPort]

/-- With no operand in a spill record, the operands of a firing are those of its slot, or K. -/
theorem begun_held {x : Slot} (hrecs : x.recs = []) (w : ℕ) (err : FireErr) (t : State) : begun x w err t =
    (let y := firingOf x w (heldPort w 1 x.l) (heldPort w 2 x.r) (heldPort w 4 x.g) t;
      (y.1, if y.2 < 0 then lateFiring x.cluster x.tag y.1.due t else t)) := by
  simp only [begun, readPort_held hrecs (.inl rfl), readPort_held hrecs (.inr (.inl rfl)), readPort_held hrecs (.inr (.inr rfl))]

/-- With no error in the slot and no injection armed, a slot is taken and nothing else happens. -/
theorem opened_sound {x : Slot} {err : FireErr} {s : State} (herr : err.slot = 0) (harm : s.flag F.injCtl_ARM 0 = false) :
    opened x err s = taken x s := by
  have harm' : (taken x s).flag F.injCtl_ARM 0 = false := (State.flag_congr _ _ _ _ (taken_regs x s)).trans harm
  simp [opened, secded_unarmed harm, herr, takeInjection_unarmed harm']

theorem heldPort_slot (w bit : ℕ) (o : Option SlotOp) : (o.all fun y => decide (heldPort w bit o = (y.data, y.poison))) = true := by
  cases o <;> simp [heldPort]

theorem heldPort_none {o : Option SlotOp} (h : o = none) (w bit : ℕ) :
    heldPort w bit o = (if kselMask w = bit then w48 (iK w) else 0, false) := by
  rw [h, heldPort]

/-! ### What a firing counts and leaves -/

theorem addCnt_ne {p k n j : ℕ} (s : State) (h : p * 8 + k ≠ j) : mget 0 (addCnt p k n s).cl.cnt j = mget 0 s.cl.cnt j := by
  rw [addCnt, mget_mput, if_neg h]

theorem addCnt_same (p k n : ℕ) (s : State) : mget 0 (addCnt p k n s).cl.cnt (p * 8 + k) = (mget 0 s.cl.cnt (p * 8 + k) + n) % 2 ^ 48 := by
  rw [addCnt, mget_mput_same]


/-- The inputs of the slot that fires count as consumed (R135). -/
theorem taken_consumed (x : Slot) (s : State) : mget 0 (taken x s).cl.cnt (tagPart x.tag * 8 + 1) =
    (mget 0 s.cl.cnt (tagPart x.tag * 8 + 1) + x.inputs) % 2 ^ 48 := by
  rw [taken, countProg, addCnt_ne _ (by omega), countCons, addCnt_ne _ (by omega), addCnt_same]
  rfl

/-- A firing is a progress event of its partition (R135). -/
theorem taken_progress (x : Slot) (s : State) : mget 0 (taken x s).cl.cnt (tagPart x.tag * 8 + 2) =
    (mget 0 s.cl.cnt (tagPart x.tag * 8 + 2) + 1) % 2 ^ 48 := by
  rw [taken, countProg, addCnt_same, countCons, addCnt_ne _ (by omega), addCnt_ne _ (by omega)]
  rfl

/-- The register fields of the log of late firings (R114). -/
def lateFields : List Fld := [F.lateCnt_COUNT, F.lateCnt_LOGV, F.lateTag_TAG, F.lateT_T, F.lateDue_DUE]

theorem lateFiring_frame (c : ℕ) (tag due : W) (s : State) : lateFiring c tag due s = { s with regs := (lateFiring c tag due s).regs } := by
  unfold lateFiring
  dsimp only
  split <;> rfl

theorem lateFiring_regsBut {c : ℕ} {tag due : W} (s : State) : RegsBut lateFields s (lateFiring c tag due s) := by
  have hinc : RegsBut lateFields s (s.inc F.lateCnt_COUNT c) := (RegsBut.refl _ s).inc (hf := by simp [lateFields])
  unfold lateFiring
  dsimp only
  split
  · exact hinc
  · exact hinc.trans ((((RegsBut.refl lateFields _).set (hf := by simp [lateFields])).set (hf := by simp [lateFields])).set
      (hf := by simp [lateFields]) |>.set (hf := by simp [lateFields]))

/-- A late firing is counted. -/
theorem lateFiring_counts (c : ℕ) (tag due : W) (s : State) :
    (lateFiring c tag due s).get F.lateCnt_COUNT c = (s.get F.lateCnt_COUNT c + 1) % 2 ^ F.lateCnt_COUNT.w := by
  have hinc : (s.inc F.lateCnt_COUNT c).get F.lateCnt_COUNT c = (s.get F.lateCnt_COUNT c + 1) % 2 ^ F.lateCnt_COUNT.w := State.get_inc_same ..
  have hlog (t : State) : ((((t.set F.lateTag_TAG c tag.toNat).set F.lateT_T c t.t.toNat).set F.lateDue_DUE c due.toNat).set
      F.lateCnt_LOGV c 1).get F.lateCnt_COUNT c = t.get F.lateCnt_COUNT c := by
    rw [State.get_set_ne _ _ _ _ _ _ (by decide), State.get_set_ne _ _ _ _ _ _ (by decide), State.get_set_ne _ _ _ _ _ _ (by decide),
      State.get_set_ne _ _ _ _ _ _ (by decide)]
  unfold lateFiring
  dsimp only
  split
  · exact hinc
  · exact (hlog _).trans hinc

/-- A firing's slot is taken, and the firing enters the log where it is late. -/
def begunState (x : Slot) (sl : ℤ) (due : W) (s : State) : State := if sl < 0 then lateFiring x.cluster x.tag due (taken x s) else taken x s

section
variable (x : Slot) (sl : ℤ) (due : W) (s : State)

theorem begunState_frame : begunState x sl due s = { s with cl := (taken x s).cl, regs := (begunState x sl due s).regs } := by
  have hframe : ∃ regs, begunState x sl due s = { s with cl := (taken x s).cl, regs := regs } := by
    unfold begunState
    split
    · exact ⟨_, (lateFiring_frame ..).trans (congrArg (fun t : State => { t with regs := (lateFiring x.cluster x.tag due (taken x s)).regs })
        (taken_frame x s))⟩
    · exact ⟨s.regs, taken_frame x s⟩
  obtain ⟨regs, hregs⟩ := hframe
  rw [hregs]

theorem begunState_regsBut : RegsBut lateFields s (begunState x sl due s) := by
  have htaken : RegsBut lateFields s (taken x s) := fun f i _ => State.get_congr _ _ f i (taken_regs x s)
  unfold begunState
  split
  · exact htaken.trans (lateFiring_regsBut _)
  · exact htaken

theorem begunState_counts : (begunState x sl due s).get F.lateCnt_COUNT x.cluster =
    if sl < 0 then (s.get F.lateCnt_COUNT x.cluster + 1) % 2 ^ F.lateCnt_COUNT.w else s.get F.lateCnt_COUNT x.cluster := by
  unfold begunState
  rw [← State.get_congr _ _ F.lateCnt_COUNT x.cluster (taken_regs x s)]
  split
  · exact lateFiring_counts ..
  · rfl
end

/-- Settles O22: a firing that begins is the one whose operands are read once its slot is taken; with no spilled operand the reads leave the state. -/
theorem firingConsumesItsInstance : Obligations.FiringConsumesItsInstance := by
  intro c pe cls x f u s hx hrecs harm hfired
  obtain ⟨-, y, hy, -, hbegin⟩ := fired_some hfired
  obtain rfl : x = y := Option.some.inj (hx.symm.trans hy)
  obtain ⟨hc, -⟩ := headSlot_place hx
  have hrun := beginFire_some hbegin
  rw [opened_sound rfl harm, begun_held hrecs] at hrun
  simp only [firingOf, taken_t] at hrun
  obtain ⟨rfl, hu⟩ := Prod.mk.inj hrun
  intro sl
  replace hu : u = begunState x sl (dueOf s.t sl) s := hu
  have hcl : u.cl = (taken x s).cl := by rw [hu, begunState_frame]
  have hframe : u = { s with cl := u.cl, regs := u.regs } := by
    rw [hcl, hu]
    exact begunState_frame ..
  have hcount : u.get F.lateCnt_COUNT c = if sl < 0 then (s.get F.lateCnt_COUNT c + 1) % 2 ^ F.lateCnt_COUNT.w else s.get F.lateCnt_COUNT c := by
    rw [hu, ← hc]
    exact begunState_counts ..
  exact ⟨congrArg ClusterSt.slots hcl, rfl, rfl, rfl, rfl, heldPort_slot .., heldPort_slot .., heldPort_slot .., (heldPort_none · _ _),
    (heldPort_none · _ _), (heldPort_none · _ _), (congrArg (fun k : ClusterSt => mget 0 k.cnt _) hcl).trans (taken_consumed x s),
    (congrArg (fun k : ClusterSt => mget 0 k.cnt _) hcl).trans (taken_progress x s), hcount, hframe,
    hu ▸ begunState_regsBut _ _ _ _⟩

end Sys2Proof.Machine
end

section
/-!
SUPPORT. What a computing operation sends and what the arithmetic micro-trap writes (R58, R72–R78, R158, R160), for the rows of the computing
operations (O20).
-/
set_option Elab.async false
namespace Sys2Proof.Machine
open Sys2Proof

/-! ### The tokens that a firing sends -/

section
variable {s t : State}

theorem Carries.foldl {α : Type} {g : State → α → State} {l : List α} (h : Carries s t)
    (hg : ∀ {u : State} {a : α}, Carries s u → Carries s (g u a)) : Carries s (l.foldl g t) := by
  induction l generalizing t with
  | nil => exact h
  | cons a l ih => exact ih (hg h)

theorem Carries.countProd {p ep : ℕ} (h : Carries s t) : Carries s (countProd p ep t) := h.addCnt.addCnt

theorem Sends.countProd {p ep : ℕ} (h : Sends s t) : Sends s (countProd p ep t) := h.rest.rest

theorem Carries.emitToken {c pe : ℕ} {k : Token} (h : Carries s t) : Carries s (emitToken c pe k t) := Carries.ite h.countProd.rest h.countProd.send

theorem Sends.emitToken {c pe : ℕ} {k : Token} (h : Sends s t) : Sends s (emitToken c pe k t) := Sends.ite h.countProd.rest h.countProd.send

theorem Carries.emitTo {c pe ctx d : ℕ} {base due data : W} {poison : Bool} (h : Carries s t) :
    Carries s (emitTo c pe base ctx due data poison d t) := by
  refine Carries.ite h ?_
  split
  · exact h.emitToken
  · exact h

theorem Sends.emitTo {c pe ctx d : ℕ} {base due data : W} {poison : Bool} (h : Sends s t) :
    Sends s (emitTo c pe base ctx due data poison d t) := by
  refine Sends.ite h ?_
  split
  · exact h.emitToken
  · exact h

theorem Carries.emit {f : Firing} {v : W} {poison : Bool} {ds : List ℕ} (h : Carries s t) : Carries s (f.emit v poison ds t) := h.foldl (·.emitTo)

theorem Sends.emit {f : Firing} {v : W} {poison : Bool} {ds : List ℕ} (h : Sends s t) : Sends s (f.emit v poison ds t) := h.foldl (·.emitTo)
end

/-! ### What writes to registers leave -/

/-- From `s` to `t` memory is as before, and so is every register field outside a list. -/
structure Writes (l : List Fld) (s t : State) : Prop where
  mem : t.mem = s.mem
  regs : RegsBut l s t

section
variable {l : List Fld} {s t u : State}

theorem Writes.refl (l : List Fld) (s : State) : Writes l s s := ⟨rfl, RegsBut.refl l s⟩

theorem Writes.trans (h : Writes l s t) (h' : Writes l t u) : Writes l s u := ⟨h'.mem.trans h.mem, h.regs.trans h'.regs⟩

theorem Writes.mono {l' : List Fld} (h : Writes l s t) (hl : ∀ f ∈ l, f ∈ l') : Writes l' s t := ⟨h.mem, h.regs.mono hl⟩

theorem Writes.congr (h : Writes l s t) (hm : u.mem = t.mem) (hr : u.regs = t.regs) : Writes l s u := ⟨hm.trans h.mem, h.regs.regs hr⟩

theorem Writes.set {f : Fld} {i v : ℕ} (h : Writes l s t) (hf : f ∈ l) : Writes l s (t.set f i v) := ⟨h.mem, h.regs.set hf⟩

theorem Writes.inc {f : Fld} {i : ℕ} (h : Writes l s t) (hf : f ∈ l) : Writes l s (t.inc f i) := h.set hf

theorem Writes.setFree {f : Fld} {i : ℕ} (h : Writes l s t) (hf : f ∈ l) : Writes l s (t.setFree f i) := by
  have hval : Writes l s (t.freeVal f.w).2 := h.congr rfl rfl
  exact hval.set hf

theorem Writes.setOr {f : Fld} {i : ℕ} {v : Option ℕ} (h : Writes l s t) (hf : f ∈ l) : Writes l s (t.setOr f i v) := by
  cases v with
  | none => exact h.setFree hf
  | some v => exact h.set hf

theorem Writes.ite {c : Prop} [Decidable c] {a b : State} (ha : Writes l s a) (hb : Writes l s b) : Writes l s (if c then a else b) := by
  split <;> assumption

theorem Writes.foldl {α : Type} {g : State → α → State} {as : List α} (h : Writes l s t)
    (hg : ∀ {u : State} {a : α}, Writes l s u → Writes l s (g u a)) : Writes l s (as.foldl g t) := by
  induction as generalizing t with
  | nil => exact h
  | cons a as ih => exact ih (hg h)

theorem Writes.report {kind i detail : ℕ} {part : Option ℕ} {inj : Bool} (h : Writes l s t) : Writes l s (report kind i detail part inj t) :=
  h.congr (by rw [report_frame]) (report_regs ..)

theorem raiseEvent_mem (n : ℕ) (s : State) : (raiseEvent n s).mem = s.mem := by
  rw [raiseEvent_frame]

theorem Writes.raiseEvent {n : ℕ} (h : Writes l s t) (hc : F.evCfg_COUNT ∈ l) (hp : F.evCfg_PEND ∈ l) : Writes l s (raiseEvent n t) :=
  ⟨(raiseEvent_mem n t).trans h.mem, raiseEvent_regsBut h.regs hc hp⟩

theorem Writes.emit {f : Firing} {v : W} {poison : Bool} {ds : List ℕ} (h : Writes l s t) (hl : ∀ g ∈ wayFields, g ∈ l) :
    Writes l s (f.emit v poison ds t) :=
  h.trans ⟨(Carries.refl t).emit.mem, (Sends.refl t).emit.regs.mono hl⟩
end

/-! ### The sticky bits (R58) -/

/-- The register fields of the sticky bits of a partition. -/
def stickyFields : List Fld :=
  [F.arithStat_V, F.arithStat_DZ, F.arithStat_FNV, F.arithStat_FDZ, F.arithStat_FOF, F.arithStat_FUF, F.arithStat_FNX]

theorem setSticky_cl (p : ℕ) (b : Stk) (s : State) : (setSticky p b s).cl = s.cl := by
  have hset (k : ℕ) (f : Fld) (t : State) : (if b.toNat / 2 ^ k % 2 = 1 then t.set f p 1 else t).cl = t.cl := by split <;> rfl
  simp only [setSticky, hset]

theorem setSticky_writes (p : ℕ) (b : Stk) (s : State) : Writes stickyFields s (setSticky p b s) := by
  have hset {k : ℕ} {f : Fld} {t : State} (h : Writes stickyFields s t) (hf : f ∈ stickyFields) :
      Writes stickyFields s (if b.toNat / 2 ^ k % 2 = 1 then t.set f p 1 else t) := Writes.ite (h.set hf) h
  unfold stickyFields at hset ⊢
  exact hset (hset (hset (hset (hset (hset (hset (Writes.refl _ s) (by simp)) (by simp)) (by simp)) (by simp)) (by simp)) (by simp)) (by simp)

/-! ### The trap frame (R158) -/

/-- The register fields of a trap frame besides its cause. -/
def frameFields : List Fld :=
  [F.tfTag_TAG, F.tfState_UPC, F.tfState_DEPTH, F.tfStack_S0, F.tfStack_S1, F.tfStack_S2, F.tfStack_S3, F.tfState_SERVED, F.tfMt_VALUE]

/-- A micro-trap counts, names its cause, and saves the rest of the frame. -/
theorem microTrap_writes (c pe cause : ℕ) (tag : W) (v : Saved) (s : State) :
    Writes frameFields ((s.inc F.peStat_TRAPS (c * 16 + pe)).set F.tfState_CAUSE (c * 16 + pe) cause) (microTrap c pe cause tag v s) := by
  unfold microTrap
  extract_lets i s₁ s₂ s₃ s₄ st s₅ s₆ s₇
  have h₃ : Writes frameFields s₁ s₃ := ((Writes.refl _ s₁).set (by simp [frameFields])).setOr (by simp [frameFields])
  have hval : Writes frameFields s₁ (s₃.freeVal 3).2 := h₃.congr rfl rfl
  have h₄ : Writes frameFields s₁ s₄ := by
    unfold s₄
    split
    · exact h₃.set (by simp [frameFields])
    · exact hval.set (by simp [frameFields])
  have h₇ : Writes frameFields s₁ s₇ := ((((h₄.setOr (by simp [frameFields])).setOr (by simp [frameFields])).setOr (by simp [frameFields])).setOr
    (by simp [frameFields])).setOr (by simp [frameFields])
  exact h₇.foldl fun h => h.setOr (by simp [frameFields])

theorem microTrap_mem (c pe cause : ℕ) (tag : W) (v : Saved) (s : State) : (microTrap c pe cause tag v s).mem = s.mem :=
  (microTrap_writes c pe cause tag v s).mem

theorem microTrap_counts (c pe cause : ℕ) (tag : W) (v : Saved) (s : State) : (microTrap c pe cause tag v s).get F.peStat_TRAPS (c * 16 + pe) =
    (s.get F.peStat_TRAPS (c * 16 + pe) + 1) % 2 ^ F.peStat_TRAPS.w := by
  rw [(microTrap_writes ..).regs _ _ (by decide), State.get_set_ne _ _ _ _ _ _ (by decide), State.get_inc_same]

theorem microTrap_cause (c pe cause : ℕ) (tag : W) (v : Saved) (s : State) :
    (microTrap c pe cause tag v s).get F.tfState_CAUSE (c * 16 + pe) = cause % 2 ^ F.tfState_CAUSE.w := by
  rw [(microTrap_writes ..).regs _ _ (by decide), State.get_set_same]

/-! ### The machine check of a handler (R160, R188) -/

/-- The register fields that a machine check changes before it suspends a guarantee: those of its tokens' way and of its log. -/
def checkFields : List Fld :=
  wayFields ++ [F.peStat_STOPPED, F.peStat_MCHK, F.peStat_MCHKS, F.mchkLog_ADDR, F.mchkLog_DISP, F.mchkLog_NESTED, F.mchkLog_GROUPS,
    F.mchkLog_VALID, F.csStat_RELOADING]

/-- The register fields that the loss of a guarantee changes. -/
def lossFields : List Fld := [F.partStat_STATE, F.partStat_LOST, F.partStat_REASON, F.evCfg_COUNT, F.evCfg_PEND]

theorem machineCheck_suspends (f : Firing) (upc : ℕ) (disp nested inj : Bool) (groups : Option ℕ) (ds : List ℕ) (s : State) :
    ∃ t, machineCheck f upc disp nested inj groups ds s = suspend f.part t ∧ Writes checkFields s t := by
  unfold machineCheck
  extract_lets i s₁ s₂ s₃ s₄ s₅ s₆ s₇ k s₈
  have h₁ : Writes checkFields s s₁ := (Writes.refl _ s).emit fun g hg => List.mem_append_left _ hg
  have h₂ : Writes checkFields s s₂ := h₁.foldl fun h => h.set (by simp [checkFields])
  have h₃ : Writes checkFields s s₃ := (h₂.set (by simp [checkFields])).inc (by simp [checkFields])
  have h₄ : Writes checkFields s s₄ := (h₃.set (by simp [checkFields])).set (by simp [checkFields])
  have h₅ : Writes checkFields s s₅ := (h₄.set (by simp [checkFields])).setOr (by simp [checkFields])
  have h₆ : Writes checkFields s s₆ := Writes.ite h₃ (h₅.set (by simp [checkFields]))
  have h₇ : Writes checkFields s s₇ := h₆.set (by simp [checkFields])
  clear_value s₇
  have h₈ : Writes checkFields s s₈ := h₇.congr rfl rfl
  exact ⟨_, rfl, h₈.report⟩

theorem suspend_writes (p : ℕ) (s : State) : Writes lossFields s (suspend p s) := by
  have hnote : Writes lossFields s { s with ap := { s.ap with suspendedAt := mput s.ap.suspendedAt p s.ticks } } := (Writes.refl _ s).congr rfl rfl
  unfold suspend
  refine Writes.ite (Writes.raiseEvent ?_ (by simp [lossFields]) (by simp [lossFields])) hnote
  exact ((hnote.set (by simp [lossFields])).set (by simp [lossFields])).set (by simp [lossFields])

/-- Raises of one source leave the counts of the others. -/
theorem raiseEvent_count_ne {n j : ℕ} (h : n ≠ j) (s : State) : (raiseEvent n s).get F.evCfg_COUNT j = s.get F.evCfg_COUNT j := by
  have hinc : (s.inc F.evCfg_COUNT n).get F.evCfg_COUNT j = s.get F.evCfg_COUNT j := State.get_set_idx _ _ _ _ _ _ h
  unfold raiseEvent
  simp only
  split_ifs <;> simp [State.get_set_ne _ F.evCfg_PEND F.evCfg_COUNT _ _ _ (by decide), hinc]

theorem suspend_count_ne {p j : ℕ} (h : 216 + p ≠ j) (s : State) : (suspend p s).get F.evCfg_COUNT j = s.get F.evCfg_COUNT j := by
  unfold suspend
  dsimp only
  split
  · rw [markLost, raiseEvent_count_ne h, State.get_set_ne _ _ _ _ _ _ (by decide), State.get_set_ne _ _ _ _ _ _ (by decide),
      State.get_set_ne _ _ _ _ _ _ (by decide)]
    rfl
  · rfl

theorem runHandler_writes (e : PassErr) (cause : ℕ) (f : Firing) (ds : List ℕ) (s : State) :
    Writes (checkFields ++ lossFields) s (runHandler e cause f ds s) := by
  unfold runHandler
  split
  · obtain ⟨t, ht, hw⟩ := machineCheck_suspends f ‹_› false e.nested false none ds s
    rw [ht]
    exact (hw.mono fun g hg => List.mem_append_left _ hg).trans ((suspend_writes f.part t).mono fun g hg => List.mem_append_right _ hg)
  · exact Writes.refl _ s

theorem runHandler_count_ne {f : Firing} {j : ℕ} (h : 216 + f.part ≠ j) (e : PassErr) (cause : ℕ) (ds : List ℕ) (s : State) :
    (runHandler e cause f ds s).get F.evCfg_COUNT j = s.get F.evCfg_COUNT j := by
  unfold runHandler
  split
  · obtain ⟨t, ht, hw⟩ := machineCheck_suspends f ‹_› false e.nested false none ds s
    rw [ht, suspend_count_ne h, hw.regs _ _ (by decide)]
  · rfl

/-! ### The arithmetic of a result (R58, R158) -/

section
variable {f : Firing} {b : Stk} {s u : State} (e : PassErr) (hu : Carries u s)

include hu in
/-- The traps in force are those of the firing's start: neither the tokens nor the sticky bits change them. -/
theorem setSticky_trapOf : (setSticky f.part b s).trapOf f.part f.ep = u.trapOf f.part f.ep := by
  simp only [State.trapOf, setSticky_cl, hu.arith]

include hu in
/-- Sticky bits of which none is trapped are set, and nothing else happens. -/
theorem arithmetic_untrapped (h : b.toNat &&& u.trapOf f.part f.ep = 0) : arithmetic e f b s = setSticky f.part b s := by
  rw [arithmetic, setSticky_trapOf hu, if_neg (not_not.2 h)]

include hu in
/-- A trapped sticky bit takes the arithmetic micro-trap and raises its event. -/
theorem arithmetic_trapped (h : b.toNat &&& u.trapOf f.part f.ep ≠ 0) : arithmetic e f b s =
    runHandler e 5 f [] (raiseEvent (208 + f.part) (microTrap f.c f.pe 5 f.base Saved.std (setSticky f.part b s))) := by
  rw [arithmetic, setSticky_trapOf hu, if_pos h]
end

/-- The result of a firing with its sticky bits set. -/
def resulted (f : Firing) (v : W) (b : Stk) (s : State) : State := setSticky f.part b (f.emit v false (f.dsts s) s)

theorem resulted_writes (f : Firing) (v : W) (b : Stk) (s : State) : Writes (wayFields ++ stickyFields) s (resulted f v b s) :=
  ((Writes.refl _ s).emit fun _ hg => List.mem_append_left _ hg).trans ((setSticky_writes ..).mono fun _ hg => List.mem_append_right _ hg)

section
variable (e : PassErr) (f : Firing) (v : W) (b : Stk) (s : State)

/-- The state after the arithmetic micro-trap of a result. -/
def trapped : State := runHandler e 5 f [] (raiseEvent (208 + f.part) (microTrap f.c f.pe 5 f.base Saved.std (resulted f v b s)))

/-- The handler and the event leave a register field that is none of theirs. -/
theorem trapped_get {g : Fld} {i : ℕ} (hhandler : ∀ h ∈ checkFields ++ lossFields, h.id ≠ g.id) :
    (trapped e f v b s).get g i = (microTrap f.c f.pe 5 f.base Saved.std (resulted f v b s)).get g i := by
  rw [trapped, (runHandler_writes ..).regs _ _ hhandler, raiseEvent_get_ne _ _ _ _
    ⟨(hhandler F.evCfg_COUNT (by simp [lossFields])).symm, (hhandler F.evCfg_PEND (by simp [lossFields])).symm⟩]

theorem trapped_traps : (trapped e f v b s).get F.peStat_TRAPS (f.c * 16 + f.pe) =
    (s.get F.peStat_TRAPS (f.c * 16 + f.pe) + 1) % 2 ^ F.peStat_TRAPS.w := by
  rw [trapped_get _ _ _ _ _ (by decide), microTrap_counts, (resulted_writes ..).regs _ _ (by decide)]

theorem trapped_cause : (trapped e f v b s).get F.tfState_CAUSE (f.c * 16 + f.pe) = 5 := by
  rw [trapped_get _ _ _ _ _ (by decide), microTrap_cause]
  rfl

theorem trapped_count : (trapped e f v b s).get F.evCfg_COUNT (208 + f.part) = (s.get F.evCfg_COUNT (208 + f.part) + 1) % 2 ^ 16 := by
  have hframe : (microTrap f.c f.pe 5 f.base Saved.std (resulted f v b s)).get F.evCfg_COUNT (208 + f.part) = s.get F.evCfg_COUNT (208 + f.part) := by
    rw [(microTrap_writes ..).regs _ _ (by decide), State.get_set_ne _ _ _ _ _ _ (by decide), State.get_inc_ne _ _ _ _ _ (by decide),
      (resulted_writes ..).regs _ _ (by decide)]
  rw [trapped, runHandler_count_ne (by omega), raiseEvent_count, hframe]
  rfl

theorem trapped_mem : (trapped e f v b s).mem = s.mem := by
  rw [trapped, (runHandler_writes ..).mem, raiseEvent_mem, microTrap_mem, (resulted_writes ..).mem]
end

/-! ### The computing operations (R72–R78) -/

section
variable {e : PassErr} {f : Firing} {v : W} {b : Stk} {u : State} (hsound : f.poison = none)
  (hresult : compute (iOpc f.w) (u.rmOf f.part f.ep) f.l.1 f.r.1 f.g.1 = some (v, b))
include hsound hresult

theorem computeBody_sound : computeBody e f u = arithmetic e f b (f.emit v false (f.dsts u) u) := by
  simp only [computeBody, hsound, hresult]

/-- A result without a trapped bit goes to the destinations, and its sticky bits are set. -/
theorem computeBody_untrapped (h : b.toNat &&& u.trapOf f.part f.ep = 0) : computeBody e f u = resulted f v b u := by
  rw [computeBody_sound hsound hresult, arithmetic_untrapped e (Carries.refl u).emit h, resulted]

theorem computeBody_trapped (h : b.toNat &&& u.trapOf f.part f.ep ≠ 0) : computeBody e f u = trapped e f v b u := by
  rw [computeBody_sound hsound hresult, arithmetic_trapped e (Carries.refl u).emit h, trapped, resulted]
end

/-- A poisoned operand passes on as poison. -/
theorem computeBody_poisoned {e : PassErr} {f : Firing} {v : W} (u : State) (h : f.poison = some v) :
    computeBody e f u = poisonOut f v (f.dsts u) u := by
  simp only [computeBody, h]

/-! ### The rows of the computing operations -/

section
variable {i : Instr} {c pe : ℕ} {cls : OpClass} {err : FireErr} {f : Firing} {u s : State}
  (hexec : exec i s = .next (fireWith cls c pe err (computeBody err.pass) s)) (hfired : fired s c pe cls err = some (f, u))
include hexec hfired

/-- A computing operation whose result traps no bit sends it to the destinations and sets its sticky bits. -/
theorem exec_computing_untrapped {v : W} {b : Stk} (hsound : f.poison = none)
    (hresult : compute (iOpc f.w) (u.rmOf f.part f.ep) f.l.1 f.r.1 f.g.1 = some (v, b)) (h : b.toNat &&& u.trapOf f.part f.ep = 0) :
    exec i s = .next (resulted f v b u) := by
  rw [hexec, fireWith_fired hfired, computeBody_untrapped hsound hresult h]

theorem exec_computing_poisoned {v : W} (h : f.poison = some v) : exec i s = .next (poisonOut f v (f.dsts u) u) := by
  rw [hexec, fireWith_fired hfired, computeBody_poisoned u h]

theorem exec_computing_trapped {v : W} {b : Stk} (hsound : f.poison = none)
    (hresult : compute (iOpc f.w) (u.rmOf f.part f.ep) f.l.1 f.r.1 f.g.1 = some (v, b)) (h : b.toNat &&& u.trapOf f.part f.ep ≠ 0) :
    exec i s = .next (trapped err.pass f v b u) := by
  rw [hexec, fireWith_fired hfired, computeBody_trapped hsound hresult h]
end

/-- Settles O20: an operation is its body on the firing that begins; traps are judged in the state of the firing, and what the handler of a trap
does afterwards reaches neither the trap's frame nor its event. -/
theorem computingOperationsEmit : Obligations.ComputingOperationsEmit := by
  refine ⟨?integer, ?comparison, ?q47, ?float, ?conversion, ?complex, ?poisoned, ?trapped⟩
  case integer => exact fun c pe err f u v b s hfired => exec_computing_untrapped rfl hfired
  case comparison => exact fun c pe err f u v b s hfired => exec_computing_untrapped rfl hfired
  case q47 => exact fun c pe err f u v b s hfired => exec_computing_untrapped rfl hfired
  case float => exact fun c pe err f u v b s hfired => exec_computing_untrapped rfl hfired
  case conversion => exact fun c pe err f u v b s hfired => exec_computing_untrapped rfl hfired
  case complex => exact fun c pe err f u v b s hfired => exec_computing_untrapped rfl hfired
  case poisoned => exact fun c pe err f u v s hfired => exec_computing_poisoned rfl hfired
  case trapped =>
    intro c pe err f u v b s hfired hsound hresult htrap
    obtain ⟨hc, hpe⟩ := fired_place hfired
    refine completes_next (exec_computing_trapped rfl hfired hsound hresult htrap) ⟨?_, trapped_cause .., trapped_count .., trapped_mem ..⟩
    rw [← hc, ← hpe]
    exact trapped_traps ..

end Sys2Proof.Machine
end

section
/-!
SUPPORT. L48F comparisons (R55, R75): how a word of a NaN and of a zero is read, and what the comparisons of them give (O24).
-/
set_option Elab.async false
namespace Sys2Proof.Machine
open Sys2Proof

/-! ### Words of NaNs and zeros (R55) -/

/-- The quiet bit of a word is the highest bit of its fraction. -/
theorem quiet_iff (w : W) : 2 ^ 35 ≤ bits w.toNat 0 36 ↔ w.getLsbD 35 = true := by
  rw [BitVec.getLsbD, Nat.testBit_eq_decide_div_mod_eq, decide_eq_true_iff, bits]
  omega

theorem isNaN_eq (w : W) : isNaN w = decide (bits w.toNat 36 11 = 2047 ∧ bits w.toNat 0 36 ≠ 0) := by
  unfold isNaN fUnpack
  by_cases hexp : bits w.toNat 36 11 = 2047
  · by_cases hfrac : bits w.toNat 0 36 = 0 <;> simp [hexp, hfrac]
  · by_cases hsub : bits w.toNat 36 11 = 0 <;> simp [hexp, hsub]

/-- A signalling NaN is a NaN whose quiet bit is 0. -/
theorem isSNaN_eq (w : W) : isSNaN w = (isNaN w && !w.getLsbD 35) := by
  have hquiet : decide (2 ^ 35 ≤ bits w.toNat 0 36) = w.getLsbD 35 := by simp only [quiet_iff, Bool.decide_eq_true]
  unfold isSNaN isNaN
  cases hval : fUnpack w with
  | fin s m e => rfl
  | inf s => rfl
  | nan q =>
    have hq : q = w.getLsbD 35 := by
      unfold fUnpack at hval
      dsimp only at hval
      split at hval
      · split at hval
        · cases hval
        · injection hval with h
          exact h.symm.trans hquiet
      · split at hval <;> cases hval
    simp [hq]

/-- A zero of either sign. -/
theorem fUnpack_zero {w : W} (h : bits w.toNat 0 47 = 0) : fUnpack w = .fin (w.getLsbD 47) 0 (-1058) := by
  have hexp : bits w.toNat 36 11 = 0 := by
    unfold bits at h ⊢
    omega
  have hfrac : bits w.toNat 0 36 = 0 := by
    unfold bits at h ⊢
    omega
  simp [fUnpack, hexp, hfrac]

theorem isNaN_zero {w : W} (h : bits w.toNat 0 47 = 0) : isNaN w = false := by
  rw [isNaN, fUnpack_zero h]

/-- Of two zeros neither is the lesser, whatever their signs (R75). -/
theorem fLtV_zeros {v w : W} (hv : bits v.toNat 0 47 = 0) (hw : bits w.toNat 0 47 = 0) : fLtV (fUnpack v) (fUnpack w) = false := by
  rw [fUnpack_zero hv, fUnpack_zero hw]
  cases v.getLsbD 47 <;> cases w.getLsbD 47 <;> rfl

/-! ### The comparisons, opcode by opcode (R74, R75) -/

/-- FNV of a quiet comparison: an operand is a signalling NaN. -/
def quietBits (l r : W) : Stk := if isSNaN l || isSNaN r then Stk.fnv else Stk.none

/-- FNV of an ordering: an operand is a NaN. -/
def orderBits (l r : W) : Stk := if isNaN l || isNaN r then Stk.fnv else Stk.none

section
variable (rm : ℕ) (l r g : W)

theorem compute_feq : compute 0x048 rm l r g = some (truth (!(isNaN l || isNaN r) && fEqV (fUnpack l) (fUnpack r)), quietBits l r) := rfl

theorem compute_fne : compute 0x049 rm l r g = some (truth ((isNaN l || isNaN r) || !fEqV (fUnpack l) (fUnpack r)), quietBits l r) := rfl

theorem compute_flt : compute 0x04A rm l r g = some (truth (!(isNaN l || isNaN r) && fLtV (fUnpack l) (fUnpack r)), orderBits l r) := rfl

theorem compute_fle : compute 0x04B rm l r g = some (truth (!(isNaN l || isNaN r) && !fLtV (fUnpack r) (fUnpack l)), orderBits l r) := rfl

theorem compute_fun : compute 0x04C rm l r g = some (truth (isNaN l || isNaN r), quietBits l r) := rfl
end

/-- Settles O24: the opcodes' equations, read at zeros, at NaNs, and for their sticky bits alone. -/
theorem floatComparisonsOfZerosAndNaNs : Obligations.FloatComparisonsOfZerosAndNaNs := by
  unfold Obligations.FloatComparisonsOfZerosAndNaNs
  intro rm l r g zero nan snan sig any
  have hnan (w : W) : nan w = isNaN w := (isNaN_eq w).symm
  have hsnan (w : W) : snan w = isSNaN w := by rw [isSNaN_eq, ← hnan]
  have hsig : sig = quietBits l r := by rw [quietBits, ← hsnan, ← hsnan]
  have hany : any = orderBits l r := by rw [orderBits, ← hnan, ← hnan]
  rw [hsig, hany, hnan, hnan, compute_feq, compute_fne, compute_flt, compute_fle, compute_fun]
  refine ⟨?zeros, ?nans, _, _, _, _, _, rfl, rfl, rfl, rfl, rfl⟩
  case zeros =>
    intro hl hr
    replace hl := of_decide_eq_true hl
    replace hr := of_decide_eq_true hr
    simp [quietBits, orderBits, isSNaN_eq, isNaN_zero hl, isNaN_zero hr, fEqV, fLtV_zeros hl hr, fLtV_zeros hr hl, truth]
  case nans =>
    intro h
    simp [orderBits, h, truth]

end Sys2Proof.Machine
end

section
/-!
SUPPORT. The operations that steer a token, and those of links, contexts and time (R79–R84, R88, R116): what each body does, for the rows of O21.
-/
set_option Elab.async false
namespace Sys2Proof.Machine
open Sys2Proof

/-! ### Operations and their bodies -/

/-- A row whose meaning is a firing runs its body where the firing begins. -/
theorem exec_fired {i : Instr} {c pe : ℕ} {cls : OpClass} {err : FireErr} {body : Firing → State → State} {f : Firing} {u s : State}
    (hexec : exec i s = .next (fireWith cls c pe err body s)) (hfired : fired s c pe cls err = some (f, u)) : exec i s = .next (body f u) := by
  rw [hexec, fireWith_fired hfired]

/-- The start of a firing leaves the queue and time. -/
theorem fired_steady {s u : State} {c pe : ℕ} {cls : OpClass} {err : FireErr} {f : Firing} (h : fired s c pe cls err = some (f, u)) :
    Steady s u := by
  obtain ⟨-, x, -, -, hbegin⟩ := fired_some h
  exact (Steady.refl s).beginFire.snd hbegin

/-- A firing without a poisoned input has three sound operands. -/
theorem poison_none_iff {f : Firing} : f.poison = none ↔ f.l.2 = false ∧ f.r.2 = false ∧ f.g.2 = false := by
  unfold Firing.poison
  cases f.l.2 <;> cases f.r.2 <;> cases f.g.2 <;> simp

theorem poison_left {f : Firing} (h : f.l.2 = true) : f.poison = some f.l.1 := by simp [Firing.poison, h]

section
variable {f : Firing} {s : State}

theorem passOn_sound {v : W × Bool} (h : v.2 = false) (ds : List ℕ) : passOn f v ds s = f.emit v.1 false ds s := by simp [passOn, h]

/-! ### Steering (R79, R80) -/

theorem switchBody_sound (hl : f.l.2 = false) (hg : f.g.2 = false) :
    switchBody f s = f.emit f.l.1 false [if f.g.1 ≠ 0 then iDst0 f.w else iDst1 f.w] s := by
  rw [switchBody, hg, passOn_sound hl]
  rfl

theorem mergeBody_left (h : f.l.2 = false) : mergeBody true f s = f.emit f.l.1 false (f.dsts s) s := passOn_sound h _

theorem mergeBody_right (h : f.r.2 = false) : mergeBody false f s = f.emit f.r.1 false (f.dsts s) s := passOn_sound h _

theorem gateBody_open (hl : f.l.2 = false) (hg : f.g.2 = false) (h : f.g.1 ≠ 0) : gateBody f s = f.emit f.l.1 false (f.dsts s) s := by
  rw [gateBody, hg, if_neg Bool.false_ne_true, if_pos h, passOn_sound hl]

theorem gateBody_shut (hg : f.g = (0, false)) : gateBody f s = if f.l.2 then poisonTrap f s else s := by
  simp [gateBody, hg]

/-- The operand that a SEL chooses. -/
def selChoice (f : Firing) : W × Bool := if f.g.1 ≠ 0 then f.l else f.r

theorem selBody_sound (h : f.poison = none) : selBody f s = f.emit (selChoice f).1 false (f.dsts s) s := by
  simp only [selBody, h]
  rfl

/-- A poisoned input that is not chosen leaves the output sound, after the trap (R116). -/
theorem selBody_unchosen {v : W} (h : f.poison = some v) (hg : f.g.2 = false) (hchoice : (selChoice f).2 = false) :
    selBody f s = f.emit (selChoice f).1 false (f.dsts s) (poisonTrap f s) := by
  unfold selChoice at hchoice ⊢
  simp only [selBody, h, hg, hchoice]
  rfl

theorem selBody_chosen {v : W} (h : f.poison = some v) (hchoice : (selChoice f).2 = true) : selBody f s = poisonOut f v (f.dsts s) s := by
  unfold selChoice at hchoice
  simp only [selBody, h, hchoice, Bool.or_true]
  rfl

/-! ### Constants, links and time (R79, R84, R88) -/

theorem constBody_sound (h : f.l.2 = false) : constBody f s = f.emit (w48 (iK f.w)) false (f.dsts s) s := by
  simp [constBody, h, passOn]

theorem sinkBody_sound (h : f.l.2 = false) : sinkBody f s = s := by simp [sinkBody, h]

theorem linkBody_sound (h : f.l.2 = false) : linkBody f s = f.emit (linkWord s f) false (f.dsts s) s := by
  simp [linkBody, h, passOn]

theorem linkWord_routed {r : Dest} (h : routeEntry s f.c (dstRoute (iK f.w)) f.ep = some r) :
    linkWord s f = mkTag r.pkg r.die r.cluster (dstAddr (iK f.w)) (dstPort (iK f.w)) 0 f.ctx 0 := by
  simp [linkWord, h]

theorem nowBody_sound (h : f.l.2 = false) : nowBody f s = f.emit s.t false (f.dsts s) s := by simp [nowBody, h, passOn]

theorem dueBody_sound (h : f.l.2 = false) : dueBody f s = f.emit f.due false (f.dsts s) s := by simp [dueBody, h, passOn]

theorem tightenBody_sound (h : f.poison = none) : tightenBody f s = f.emit f.l.1 false (f.dsts s) s := by
  simp only [tightenBody, h, passOn_sound (poison_none_iff.1 h).1]

theorem nextBody_sound (h : f.l.2 = false) :
    nextBody f s = emitAll f.c f.pe f.base (nextCtx f.ctx (gOf f.w)) f.due f.l.1 false (f.dsts s) s := by
  simp [nextBody, h]
end

/-- MERGE passes on the operand whose token stands at the head of its PE. -/
theorem exec_merge {c : Fin 128} {pe : Fin 16} {err : FireErr} {f : Firing} {u s : State} {x : Slot} (hx : s.headSlot c pe = some x)
    (hfired : fired s c pe .merge err = some (f, u)) : exec (.merge c pe err) s = .next (mergeBody x.l.isSome f u) :=
  exec_fired (by simp [exec, execMerge, hx]) hfired

/-- Settles O21: each row is its body on the firing that begins, and each body has an equation for its case. -/
theorem steeringOperationsEmit : Obligations.SteeringOperationsEmit := by
  unfold Obligations.SteeringOperationsEmit
  refine ⟨?switchTrue, ?switchFalse, ?mergeLeft, ?mergeRight, ?gateOpen, ?gateShut, ?selLeft, ?selRight, ?gatePoisoned, ?selUnchosen,
    ?selChosen, ?const, ?sink, ?prism, ?link, ?now, ?due, ?tighten, ?next⟩
  case switchTrue =>
    intro c pe err f u s hfired hl hg htrue
    rw [exec_fired rfl hfired, switchBody_sound hl hg, if_pos htrue]
  case switchFalse =>
    intro c pe err f u s hfired hl hg
    rw [exec_fired rfl hfired, switchBody_sound hl (by rw [hg]), if_neg (by simp [hg])]
  case mergeLeft =>
    intro c pe err f u s hfired hhead hl
    obtain ⟨x, hx, hsome⟩ := (Option.any_eq_true _ _).1 hhead
    rw [exec_merge hx hfired, hsome, mergeBody_left hl]
  case mergeRight =>
    intro c pe err f u s hfired hhead hr
    obtain ⟨x, hx, hnone⟩ := (Option.any_eq_true _ _).1 hhead
    rw [exec_merge hx hfired, Option.isSome_eq_false_iff.2 hnone, mergeBody_right hr]
  case gateOpen =>
    intro c pe err f u s hfired hl hg htrue
    rw [exec_fired rfl hfired, gateBody_open hl hg htrue]
  case gateShut =>
    intro c pe err f u s hfired hl hg
    rw [exec_fired rfl hfired, gateBody_shut hg, hl]
    rfl
  case selLeft =>
    intro c pe err f u s hfired hsound htrue
    rw [exec_fired rfl hfired, selBody_sound hsound, selChoice, if_pos htrue]
  case selRight =>
    intro c pe err f u s hfired hsound hfalse
    rw [exec_fired rfl hfired, selBody_sound hsound, selChoice, if_neg (not_not.2 hfalse)]
  case gatePoisoned =>
    intro c pe err f u s hfired hl hg
    rw [exec_fired rfl hfired, gateBody_shut hg, hl]
    rfl
  case selUnchosen =>
    intro c pe err f u s hfired hl hr hg htrue
    have hchoice : selChoice f = f.l := if_pos htrue
    have hpoison : f.poison = some f.r.1 := by simp [Firing.poison, hl, hr]
    rw [exec_fired rfl hfired, selBody_unchosen hpoison hg (by rw [hchoice, hl]), hchoice]
  case selChosen =>
    intro c pe err f u s hfired hl hr hg
    have hchoice : selChoice f = f.r := if_neg (by simp [hg])
    rw [exec_fired rfl hfired, selBody_chosen (poison_left hl) (by rw [hchoice, hr])]
  case const =>
    intro c pe err f u s hfired hl
    rw [exec_fired rfl hfired, constBody_sound hl]
  case sink =>
    intro c pe err f u s hfired hl
    rw [exec_fired rfl hfired, sinkBody_sound hl]
  case prism =>
    intro c pe err f u s hfired hl
    rw [exec_fired rfl hfired, prismBody, passOn_sound hl]
  case link =>
    intro c pe err f u r s hfired hl hroute
    rw [exec_fired rfl hfired, linkBody_sound hl, linkWord_routed hroute]
  case now =>
    intro c pe err f u s hfired hl
    rw [exec_fired rfl hfired, nowBody_sound hl, (fired_steady hfired).time]
  case due =>
    intro c pe err f u s hfired hl
    rw [exec_fired rfl hfired, dueBody_sound hl]
  case tighten =>
    intro c pe err f u s hfired hsound
    rw [exec_fired rfl hfired, tightenBody_sound hsound]
  case next =>
    intro c pe err f u s hfired hl
    rw [exec_fired rfl hfired, nextBody_sound hl, nextCtx, gOf]

end Sys2Proof.Machine
end

section
/-!
SUPPORT. What sending leaves, besides what `Sends` and `Carries` say: the firings that the clusters hold (parked, waiting, or before a full park), the
packet itself at its node, and the timer of its request (R154, R273, R280). For O16, O26, O27 and O28.
-/
set_option Elab.async false
namespace Sys2Proof.Machine
open Sys2Proof

/-! ### Firings that wait -/

/-- From `s` to `t` tokens and packets have moved: of the clusters only the emit stages, the injection queues, the conservation counts and the
marks of broken blocks have changed. -/
structure LeavesFirings (s t : State) : Prop where
  cl : t.cl = { s.cl with emit := t.cl.emit, injQ := t.cl.injQ, cnt := t.cl.cnt, unblocked := t.cl.unblocked }

section
variable {s t : State}

theorem LeavesFirings.refl (s : State) : LeavesFirings s s := ⟨rfl⟩

/-- A change of other parts, and in the clusters of what `LeavesFirings` names. -/
theorem LeavesFirings.rest {u : State} (h : LeavesFirings s t)
    (e : u.cl = { t.cl with emit := u.cl.emit, injQ := u.cl.injQ, cnt := u.cl.cnt, unblocked := u.cl.unblocked } := by rfl) :
    LeavesFirings s u :=
  ⟨e.trans (by rw [h.cl])⟩

theorem LeavesFirings.parks (h : LeavesFirings s t) : t.cl.parks = s.cl.parks := by rw [h.cl]
theorem LeavesFirings.seqHeld (h : LeavesFirings s t) : t.cl.seqHeld = s.cl.seqHeld := by rw [h.cl]
theorem LeavesFirings.waits (h : LeavesFirings s t) : t.cl.waits = s.cl.waits := by rw [h.cl]
theorem LeavesFirings.blocks (h : LeavesFirings s t) : t.cl.blocks = s.cl.blocks := by rw [h.cl]

theorem LeavesFirings.ite {c : Prop} [Decidable c] {a b : State} (ha : LeavesFirings s a) (hb : LeavesFirings s b) :
    LeavesFirings s (if c then a else b) := by
  split <;> assumption

theorem LeavesFirings.foldl {α : Type} {g : State → α → State} {l : List α} (h : LeavesFirings s t)
    (hg : ∀ {u : State} {a : α}, LeavesFirings s u → LeavesFirings s (g u a)) : LeavesFirings s (l.foldl g t) := by
  induction l generalizing t with
  | nil => exact h
  | cons a l ih => exact ih (hg h)

theorem LeavesFirings.report {kind l detail : ℕ} {part : Option ℕ} {inj : Bool} (h : LeavesFirings s t) :
    LeavesFirings s (report kind l detail part inj t) := LeavesFirings.ite h h.rest

theorem LeavesFirings.violation {c kind : ℕ} {value : W} {sys : Bool} {part init op bank : ℕ} (h : LeavesFirings s t) :
    LeavesFirings s (violation c kind value sys part init op bank t) := LeavesFirings.ite h.rest h.rest

theorem LeavesFirings.countCons {p ep n : ℕ} (h : LeavesFirings s t) : LeavesFirings s (countCons p ep n t) := h.rest

theorem LeavesFirings.discardToken {c : ℕ} {tag : W} {silent : Bool} (h : LeavesFirings s t) : LeavesFirings s (discardToken c tag silent t) :=
  LeavesFirings.ite h.violation.countCons h.violation.countCons.report

theorem LeavesFirings.discardAt {n : ℕ} {tag : W} (h : LeavesFirings s t) : LeavesFirings s (discardAt n tag t) :=
  LeavesFirings.ite h.discardToken h.countCons.report

theorem LeavesFirings.queueInject {f : Flit} (h : LeavesFirings s t) : LeavesFirings s (queueInject f t) := LeavesFirings.ite h.rest h.rest

theorem LeavesFirings.noteBreak {p : ℕ} (h : LeavesFirings s t) : LeavesFirings s (noteBreak p t) := LeavesFirings.ite h h.rest

/-- A response that reaches its initiator touches the network and the count of stray ones alone. -/
theorem deliverRsp_frame (f : Flit) (s : State) : deliverRsp f s = { s with net := (deliverRsp f s).net, regs := (deliverRsp f s).regs } ∧
    RegsBut [F.rtrStat_STRAY] s (deliverRsp f s) := by
  have hstray (c : ℕ) (t : State) (h : t.regs = s.regs) : RegsBut [F.rtrStat_STRAY] s (t.inc F.rtrStat_STRAY c) :=
    ((RegsBut.refl _ s).regs h).inc
  unfold deliverRsp
  extract_lets ret hub c
  split
  · split
    · exact ⟨rfl, .refl _ s⟩
    · exact ⟨rfl, hstray c s rfl⟩
  · extract_lets u bad f'
    split
    · split
      · exact ⟨rfl, .refl _ s⟩
      · exact ⟨rfl, hstray c u rfl⟩
    · split
      · exact ⟨rfl, .refl _ s⟩
      · exact ⟨rfl, .refl _ s⟩

theorem deliverRsp_cl (f : Flit) (s : State) : (deliverRsp f s).cl = s.cl := by
  rw [(deliverRsp_frame f s).1]

/-- The buffers of a node take a packet without a change in the clusters. -/
theorem enterNode_cl (f : Flit) (s : State) : (enterNode f s).cl = s.cl := by
  unfold enterNode
  dsimp only
  split
  · rfl
  split
  · rfl
  split
  · split <;> rfl
  unfold deliverOther
  split
  · split
    · rfl
    · exact deliverRsp_cl _ _
  · split <;> rfl

theorem LeavesFirings.enterNode {f : Flit} (h : LeavesFirings s t) : LeavesFirings s (enterNode f t) := ⟨by rw [enterNode_cl]; exact h.cl⟩

theorem LeavesFirings.inject {f : Flit} (h : LeavesFirings s t) : LeavesFirings s (inject f t) :=
  LeavesFirings.ite (LeavesFirings.ite h.discardAt (LeavesFirings.ite h (LeavesFirings.ite h.queueInject h)))
    (LeavesFirings.ite h.enterNode h.queueInject)

theorem leaveInit_cl (f : Flit) (s : State) : (leaveInit f s).2.cl = s.cl := by
  unfold leaveInit
  split
  · rfl
  · split <;> rfl

/-- The first packet that waits at a node for injection and finds room, with those that stay behind. -/
def nextIn (n : ℕ) (s : State) : Option (Flit × List Flit) :=
  takeFirst (fun f : Flit => f.node = n && injectRoom s n f.cls f.vc) s.cl.injQ

/-- The packet leaves its initiator and enters the buffers of its node. -/
def movedIn (f : Flit) (rest : List Flit) (s : State) : State :=
  let l := leaveInit f { s with cl := { s.cl with injQ := rest } }
  noteBreak l.1.cls (enterNode l.1 l.2)

/-- What one packet that moves in keeps, draining keeps. -/
theorem drainNode_induct {n : ℕ} {p : State → Prop} (hstep : ∀ u f rest, nextIn n u = some (f, rest) → p u → p (movedIn f rest u)) (k : ℕ)
    {u : State} (h : p u) : p (drainNode n k u) := by
  induction k generalizing u with
  | zero => exact h
  | succ k ih =>
    cases hnext : nextIn n u with
    | none =>
      rw [nextIn] at hnext
      simp only [Machine.drainNode, hnext]
      exact h
    | some x =>
      have hmoved := hstep u x.1 x.2 hnext h
      rw [nextIn] at hnext
      simp only [Machine.drainNode, hnext]
      exact ih hmoved

theorem LeavesFirings.movedIn {f : Flit} {rest : List Flit} (h : LeavesFirings s t) : LeavesFirings s (movedIn f rest t) := by
  have hleft : LeavesFirings s (leaveInit f { t with cl := { t.cl with injQ := rest } }).2 :=
    (h.rest (u := { t with cl := { t.cl with injQ := rest } })).rest (by rw [leaveInit_cl])
  exact hleft.enterNode.noteBreak

theorem LeavesFirings.drainNode {n k : ℕ} (h : LeavesFirings s t) : LeavesFirings s (drainNode n k t) :=
  drainNode_induct (fun _ _ _ _ h => h.movedIn) k h

theorem LeavesFirings.send {f : Flit} (h : LeavesFirings s t) : LeavesFirings s (send f t) := h.inject.drainNode

theorem LeavesFirings.emitToken {c pe : ℕ} {k : Token} (h : LeavesFirings s t) : LeavesFirings s (emitToken c pe k t) :=
  LeavesFirings.ite h.rest (LeavesFirings.send (h.rest (u := Machine.countProd (tagPart k.tag) (tagEpoch k.tag) t)))

theorem LeavesFirings.emitTo {c pe ctx d : ℕ} {base due data : W} {poison : Bool} (h : LeavesFirings s t) :
    LeavesFirings s (emitTo c pe base ctx due data poison d t) := by
  refine LeavesFirings.ite h ?_
  split
  · exact h.emitToken
  · exact h

theorem LeavesFirings.emit {f : Firing} {v : W} {poison : Bool} {ds : List ℕ} (h : LeavesFirings s t) :
    LeavesFirings s (f.emit v poison ds t) := h.foldl (·.emitTo)
end

/-! ### A packet at its first node -/

/-- The packet `g` at its first node: its urgency, its place in time and the segment it waits for are as the node has set them. -/
def Flit.AtStart (g f : Flit) : Prop := f = { g with urg := f.urg, since := f.since, out := f.out }

theorem Flit.AtStart.refl (g : Flit) : g.AtStart g := rfl

/-- The packet stands in the buffers of its node, or waits there for injection credit. -/
def Stands (g : Flit) (s : State) : Prop := ∃ f ∈ s.net.flits ++ s.cl.injQ, g.AtStart f

/-- The packet goes to another node: from a router to the hub, or from the hub to a facet. -/
def Flit.Travels (g : Flit) : Prop := (g.node < 128 ∧ (flitDest g).die = 8) ∨ (g.node = nodeHub ∧ (flitDest g).die < 8)

theorem Flit.Travels.route {g : Flit} (h : g.Travels) (s : State) (via : Option ℕ) (lens : Bool) :
    ∃ out, routeAt s g.node via (flitDest g) lens = some out := by
  rcases h with ⟨hnode, hdie⟩ | ⟨hnode, hdie⟩
  · have hother : ¬(flitDest g).die = g.node / 16 := by omega
    simp only [routeAt, hnode, hother, and_false, if_true, if_false]
    split <;> exact ⟨_, rfl⟩
  · have hfar : ¬(flitDest g).die = 8 := by omega
    simp only [routeAt, hnode, nodeHub, hfar, if_false, show ¬144 < 128 by decide, show ¬144 < 144 by decide]
    split <;> exact ⟨_, rfl⟩

theorem mem_of_takeFirst {α : Type} {p : α → Bool} {l r : List α} {a b : α} (h : takeFirst p l = some (a, r)) (hb : b ∈ l) : b = a ∨ b ∈ r := by
  induction l generalizing r with
  | nil => cases hb
  | cons c l ih =>
    rw [takeFirst] at h
    split at h
    · cases h
      exact List.mem_cons.1 hb
    · cases hrest : takeFirst p l with
      | none => simp [hrest] at h
      | some x =>
        rw [hrest] at h
        cases h
        rcases List.mem_cons.1 hb with rfl | hb
        · exact .inr List.mem_cons_self
        · exact (ih hrest hb).imp_right (List.mem_cons_of_mem _)

section
variable {g : Flit} {s : State}

/-- A packet that travels waits in its node's buffers for its next segment. -/
theorem enterNode_travels {f : Flit} (ht : g.Travels) (hf : g.AtStart f) (s : State) : Stands g (enterNode f s) := by
  have hdest : flitDest f = flitDest g := by
    rw [hf]
    rfl
  have hnode : f.node = g.node := by rw [hf]
  obtain ⟨out, hout⟩ := ht.route s f.via (f.ty = 1 && reqOp f.pay = 10)
  rw [← hnode, ← hdest] at hout
  refine ⟨{ f with out := some out, since := s.nodeCyc f.node }, List.mem_append_left _ ?_, ?_⟩
  · simp only [enterNode, hout, List.mem_append, List.mem_singleton, or_true]
  · rw [hf]
    rfl

theorem leaveInit_atStart {f : Flit} (hf : g.AtStart f) (s : State) : g.AtStart (leaveInit f s).1 := by
  unfold leaveInit
  split
  · rw [hf]
    rfl
  · split
    · exact hf
    · rw [hf]
      rfl

theorem Stands.enterNode {f : Flit} (h : Stands g s) : Stands g (enterNode f s) := by
  obtain ⟨x, hx, hg⟩ := h
  refine ⟨x, ?_, hg⟩
  rw [enterNode_cl]
  exact (List.mem_append.1 hx).elim (fun hm => List.mem_append_left _ ((Carries.refl s).enterNode.flits x hm)) (List.mem_append_right _)

theorem noteBreak_leaves (p : ℕ) (s : State) : (noteBreak p s).net = s.net ∧ (noteBreak p s).ticks = s.ticks ∧
    (noteBreak p s).cl.injQ = s.cl.injQ := by
  unfold noteBreak
  split <;> exact ⟨rfl, rfl, rfl⟩

theorem Stands.noteBreak {p : ℕ} (h : Stands g s) : Stands g (noteBreak p s) := by
  obtain ⟨hnet, -, hinj⟩ := noteBreak_leaves p s
  rw [Stands, hnet, hinj]
  exact h

theorem Stands.movedIn {n : ℕ} {f : Flit} {rest : List Flit} (ht : g.Travels) (hnext : nextIn n s = some (f, rest)) (h : Stands g s) :
    Stands g (movedIn f rest s) := by
  have hleft := (Carries.refl { s with cl := { s.cl with injQ := rest } }).leaveInit (f := f)
  have hcl := leaveInit_cl f { s with cl := { s.cl with injQ := rest } }
  refine Stands.noteBreak ?_
  obtain ⟨x, hx, hg⟩ := h
  rcases List.mem_append.1 hx with hx | hx
  · exact Stands.enterNode ⟨x, List.mem_append_left _ (hleft.flits x hx), hg⟩
  · rcases mem_of_takeFirst hnext hx with rfl | hx
    · exact enterNode_travels ht (leaveInit_atStart hg _) _
    · exact Stands.enterNode ⟨x, List.mem_append_right _ (by rw [hcl]; exact hx), hg⟩

/-- Whatever moves in at a node, a packet that travels still stands there. -/
theorem Stands.drainNode {n k : ℕ} (ht : g.Travels) (h : Stands g s) : Stands g (drainNode n k s) :=
  drainNode_induct (fun _ _ _ hnext h => h.movedIn ht hnext) k h

theorem queueInject_injQ (g : Flit) (s : State) : (queueInject g s).cl.injQ = s.cl.injQ ++ [g] := by
  unfold queueInject holdTimer
  split <;> rfl

theorem queueInject_stands (g : Flit) (s : State) : Stands g (queueInject g s) := by
  refine ⟨g, List.mem_append_right _ ?_, .refl g⟩
  rw [queueInject_injQ]
  simp

/-- A packet that is sent stands at its node. -/
theorem send_stands (ht : g.Travels) (hdel : undeliverable s g = false) : Stands g (send g s) := by
  refine Stands.drainNode ht ?_
  unfold inject
  rw [hdel, if_neg Bool.false_ne_true]
  split
  · exact enterNode_travels ht (.refl g) s
  · exact queueInject_stands g s

theorem Stands.any {p : Flit → Bool} (h : Stands g s) (hp : ∀ f, g.AtStart f → p f = true) : (s.net.flits ++ s.cl.injQ).any p = true := by
  obtain ⟨f, hf, hg⟩ := h
  exact List.any_eq_true.2 ⟨f, hf, hp f hg⟩
end

/-! ### The timer that started last (R280) -/

/-- The request whose timer started last, with its timer started at this tick. -/
def LastTimer (ret : ℕ) (addr : W) (op part : ℕ) (s : State) : Prop :=
  ∃ y, s.net.timed.getLast? = some y ∧ y.ret = ret ∧ y.addr = addr ∧ y.op = op ∧ y.part = part ∧ y.left = s.ticks

/-- No response to `ret` waits for injection. -/
def NoAnswer (ret : ℕ) (s : State) : Prop := ∀ f ∈ s.cl.injQ, f.ty = 2 → rspRet f.pay ≠ ret

theorem replaceFirst_getLast? {α : Type} (p : α → Bool) (g : α → α) (l : List α) {y : α} (h : l.getLast? = some y) :
    (replaceFirst p g l).getLast? = some y ∨ (replaceFirst p g l).getLast? = some (g y) := by
  induction l with
  | nil => cases h
  | cons a l ih =>
    rw [replaceFirst]
    cases l with
    | nil =>
      cases h
      split
      · exact .inr rfl
      · exact .inl rfl
    | cons b l =>
      rw [List.getLast?_cons_cons] at h
      split
      · exact .inl (by rw [List.getLast?_cons_cons, h])
      · have hne : replaceFirst p g (b :: l) ≠ [] := by
          rw [replaceFirst]
          split <;> simp
        obtain ⟨c, r, hr⟩ := List.exists_cons_of_ne_nil hne
        rw [hr] at ih ⊢
        rw [List.getLast?_cons_cons]
        exact ih h

theorem takeFirst_getLast? {α : Type} {p : α → Bool} {l r : List α} {a y : α} (h : takeFirst p l = some (a, r)) (hy : l.getLast? = some y)
    (hp : p y = false) : r.getLast? = some y := by
  induction l generalizing r with
  | nil => cases hy
  | cons b l ih =>
    rw [takeFirst] at h
    cases l with
    | nil =>
      rw [List.getLast?_singleton, Option.some.injEq] at hy
      subst hy
      simp [hp, takeFirst] at h
    | cons c l =>
      rw [List.getLast?_cons_cons] at hy
      split at h
      · cases h
        exact hy
      · cases hrest : takeFirst p (c :: l) with
        | none => simp [hrest] at h
        | some x =>
          rw [hrest] at h
          cases h
          have hlast := ih hrest hy
          cases hx : x.2 with
          | nil => simp [hx] at hlast
          | cons d m =>
            rw [List.getLast?_cons_cons, ← hx]
            exact hlast

section
variable {ret op part : ℕ} {addr : W} {s : State}

theorem startTimer_last (sys : Bool) (extra : ℕ) (s : State) : LastTimer ret addr op part (startTimer ret addr op part sys extra s) :=
  ⟨_, List.getLast?_concat, rfl, rfl, rfl, rfl, rfl⟩

theorem LastTimer.congr {t : State} (h : LastTimer ret addr op part s) (ht : t.net.timed = s.net.timed) (hk : t.ticks = s.ticks) :
    LastTimer ret addr op part t := by
  unfold LastTimer
  rw [ht, hk]
  exact h

/-- A response to another request ends another timer. -/
theorem LastTimer.deliverRsp {f : Flit} (h : LastTimer ret addr op part s) (hf : rspRet f.pay ≠ ret) :
    LastTimer ret addr op part (deliverRsp f s) := by
  have hticks : (Machine.deliverRsp f s).ticks = s.ticks := (Steady.refl s).deliverRsp.ticks
  cases hfirst : takeFirst (fun x : Timed => x.ret = rspRet f.pay) s.net.timed with
  | none =>
    refine h.congr ?_ hticks
    unfold Machine.deliverRsp
    simp only [hfirst]
    split <;> rfl
  | some x =>
    obtain ⟨x, rest⟩ := x
    have htimed : (Machine.deliverRsp f s).net.timed = rest := by
      unfold Machine.deliverRsp
      simp only [hfirst]
      split
      · split <;> rfl
      · split <;> rfl
    obtain ⟨y, hy, hret, hrest⟩ := h
    refine ⟨y, ?_, hret, ?_⟩
    · rw [htimed]
      exact takeFirst_getLast? hfirst hy (by simpa [hret] using Ne.symm hf)
    · rw [hticks]
      exact hrest

theorem LastTimer.enterNode {f : Flit} (h : LastTimer ret addr op part s) (hf : f.ty = 2 → rspRet f.pay ≠ ret) :
    LastTimer ret addr op part (enterNode f s) := by
  unfold Machine.enterNode
  dsimp only
  split
  · exact h
  split
  · exact h
  split
  · split <;> exact h
  unfold deliverOther
  dsimp only
  split
  · rename_i hty
    split
    · exact h
    · exact h.deliverRsp (hf hty)
  · split <;> exact h

theorem LastTimer.replaced {p : Timed → Bool} {g : Timed → Timed} {t : State} (h : LastTimer ret addr op part s)
    (ht : t.net.timed = replaceFirst p g s.net.timed) (hk : t.ticks = s.ticks)
    (hg : ∀ y, (g y).ret = y.ret ∧ (g y).addr = y.addr ∧ (g y).op = y.op ∧ (g y).part = y.part ∧ ((g y).left = y.left ∨ (g y).left = s.ticks)) :
    LastTimer ret addr op part t := by
  obtain ⟨y, hy, hret, haddr, hop, hpart, hleft⟩ := h
  obtain ⟨gret, gaddr, gop, gpart, gleft⟩ := hg y
  rcases replaceFirst_getLast? p g _ hy with hlast | hlast
  · exact ⟨y, by rw [ht, hlast], hret, haddr, hop, hpart, hleft.trans hk.symm⟩
  · refine ⟨g y, by rw [ht, hlast], gret.trans hret, gaddr.trans haddr, gop.trans hop, gpart.trans hpart, ?_⟩
    rw [hk]
    exact gleft.elim (·.trans hleft) id

theorem LastTimer.leaveInit {f : Flit} (h : LastTimer ret addr op part s) : LastTimer ret addr op part (leaveInit f s).2 := by
  unfold Machine.leaveInit
  split
  · exact h
  · split
    · exact h
    · exact h.replaced rfl rfl fun y => ⟨rfl, rfl, rfl, rfl, .inr rfl⟩

theorem leaveInit_fst (f : Flit) (s : State) : (leaveInit f s).1.ty = f.ty ∧ (leaveInit f s).1.pay = f.pay := by
  unfold leaveInit
  split
  · exact ⟨rfl, rfl⟩
  · split <;> exact ⟨rfl, rfl⟩

theorem subset_of_takeFirst {α : Type} {p : α → Bool} {l r : List α} {a : α} (h : takeFirst p l = some (a, r)) : a ∈ l ∧ ∀ b ∈ r, b ∈ l := by
  induction l generalizing r with
  | nil => cases h
  | cons c l ih =>
    rw [takeFirst] at h
    split at h
    · cases h
      exact ⟨List.mem_cons_self, fun b => List.mem_cons_of_mem _⟩
    · cases hrest : takeFirst p l with
      | none => simp [hrest] at h
      | some x =>
        rw [hrest] at h
        cases h
        obtain ⟨ha, hr⟩ := ih hrest
        exact ⟨List.mem_cons_of_mem _ ha, fun b hb => (List.mem_cons.1 hb).elim (fun e => e ▸ List.mem_cons_self)
          fun hb => List.mem_cons_of_mem _ (hr b hb)⟩

theorem LastTimer.movedIn {n : ℕ} {f : Flit} {rest : List Flit} (hnext : nextIn n s = some (f, rest)) (h : LastTimer ret addr op part s)
    (hno : NoAnswer ret s) : LastTimer ret addr op part (movedIn f rest s) ∧ NoAnswer ret (movedIn f rest s) := by
  obtain ⟨hf, hrest⟩ := subset_of_takeFirst hnext
  obtain ⟨hty, hpay⟩ := leaveInit_fst f { s with cl := { s.cl with injQ := rest } }
  have hcl := leaveInit_cl f { s with cl := { s.cl with injQ := rest } }
  have hdrained : LastTimer ret addr op part { s with cl := { s.cl with injQ := rest } } := h
  have hleft := hdrained.leaveInit (f := f)
  unfold Machine.movedIn
  generalize Machine.leaveInit f { s with cl := { s.cl with injQ := rest } } = l at hty hpay hcl hleft
  obtain ⟨hnet, hticks, hinj⟩ := noteBreak_leaves l.1.cls (Machine.enterNode l.1 l.2)
  constructor
  · refine (hleft.enterNode ?_).congr (by rw [hnet]) hticks
    rw [hty, hpay]
    exact hno f hf
  · intro x hx
    rw [hinj, enterNode_cl, hcl] at hx
    exact hno x (hrest x hx)

/-- Where no response to the request waits, what moves in at a node leaves its timer. -/
theorem LastTimer.drainNode {n k : ℕ} (h : LastTimer ret addr op part s) (hno : NoAnswer ret s) :
    LastTimer ret addr op part (drainNode n k s) :=
  (drainNode_induct (p := fun u => LastTimer ret addr op part u ∧ NoAnswer ret u) (fun _ _ _ hnext h => h.1.movedIn hnext h.2) k ⟨h, hno⟩).1

theorem LastTimer.queueInject {f : Flit} (h : LastTimer ret addr op part s) : LastTimer ret addr op part (queueInject f s) := by
  unfold Machine.queueInject holdTimer
  split
  · exact h
  · exact h.replaced (p := fun x : Timed => x.ret = reqRet f.pay && !x.dead) (g := fun x => { x with held := true }) rfl rfl fun y =>
      ⟨rfl, rfl, rfl, rfl, .inl rfl⟩

/-- A request that is sent leaves the timer that has just started for it. -/
theorem LastTimer.send {f : Flit} (h : LastTimer ret addr op part s) (hno : NoAnswer ret s) (hty : f.ty ≠ 2) (hdel : undeliverable s f = false) :
    LastTimer ret addr op part (send f s) := by
  unfold Machine.send inject
  rw [hdel, if_neg Bool.false_ne_true]
  split
  · refine (h.enterNode fun e => absurd e hty).drainNode ?_
    intro x hx
    rw [enterNode_cl] at hx
    exact hno x hx
  · refine h.queueInject.drainNode fun x hx hx2 => ?_
    rw [queueInject_injQ] at hx
    rcases List.mem_append.1 hx with hx | hx
    · exact hno x hx hx2
    · rw [List.mem_singleton.1 hx] at hx2
      exact absurd hx2 hty
end

end Sys2Proof.Machine
end

section
/-!
SUPPORT. The operations of a bank (R85, R87, R290, R294–R298, R301, R304): what each does to its word when nothing alters it, and what an access that
R301 forbids leaves (O29).
-/
set_option Elab.async false
namespace Sys2Proof.Machine
open Sys2Proof

/-! ### The effect on a word without an error mark, with no injection armed (R85, R87, R298) -/

section
variable {s : State} {b : ℕ} {r : BReq}

theorem lostPresence_unmarked (hmark : mget 0 s.bank.bad (wordKey b (addrWord r.addr)) = 0) : lostPresence b (addrWord r.addr) 0 s = s := by
  simp [lostPresence, hmark]

theorem answerWaiters_some {w : ℕ} (h : ((s.deferOf b).any fun d => d.word = w) = true) (v : W) : answerWaiters b w v s =
    { s with bank := { s.bank with answering := mput s.bank.answering (wordKey b w) v } } := by
  rw [answerWaiters, if_pos h]

theorem answerWaiters_none {w : ℕ} (h : ((s.deferOf b).any fun d => d.word = w) = false) (v : W) : answerWaiters b w v s = s := by
  rw [answerWaiters, h]
  rfl

variable (harm : s.flag F.injCtl_ARM 0 = false) (hmark : mget 0 s.bank.bad (wordKey b (addrWord r.addr)) = 0)
include harm hmark

theorem bankEffect_load (hop : r.op = 3) : bankEffect b r 0 s = (.ok (s.bankWord b (addrWord r.addr)), s) := by
  simp [bankEffect, hop, readCheck_good harm hmark]

theorem bankEffect_read_present (hop : r.op = 5) (hp : s.isPresent b (addrWord r.addr) = true) :
    bankEffect b r 0 s = (.ok (s.bankWord b (addrWord r.addr)), s) := by
  simp [bankEffect, hop, readCheck_good harm hmark, hp]

theorem bankEffect_read_empty (hop : r.op = 5) (hp : s.isPresent b (addrWord r.addr) = false) (hroom : (s.deferOf b).length < 256) :
    bankEffect b r 0 s = (.deferred, s.setDefer b (s.deferOf b ++ [⟨r.tag, r.due, addrWord r.addr, r.urg⟩])) := by
  simp [bankEffect, hop, readCheck_good harm hmark, hp, hroom]

theorem bankEffect_fetchAdd (hop : r.op = 8) : bankEffect b r 0 s =
    (.ok (s.bankWord b (addrWord r.addr)), s.putWord b (addrWord r.addr) (s.bankWord b (addrWord r.addr) + r.data)) := by
  simp [bankEffect, hop, readCheck_good harm hmark]

theorem bankEffect_swap (hop : r.op = 9) : bankEffect b r 0 s =
    (.ok (s.bankWord b (addrWord r.addr)), s.putWord b (addrWord r.addr) r.data) := by
  simp [bankEffect, hop, readCheck_good harm hmark]

omit harm

theorem bankEffect_store (hop : r.op = 4) : bankEffect b r 0 s = (.ok 0, s.putWord b (addrWord r.addr) r.data) := by
  simp [bankEffect, hop, lostPresence_unmarked hmark]

theorem bankEffect_write_empty (hop : r.op = 6) (hp : s.isPresent b (addrWord r.addr) = false) : bankEffect b r 0 s =
    (.ok 0, answerWaiters b (addrWord r.addr) r.data ((s.putWord b (addrWord r.addr) r.data).setPresent b (addrWord r.addr) true)) := by
  simp [bankEffect, hop, hmark, hp]

theorem bankEffect_write_present (hop : r.op = 6) (hp : s.isPresent b (addrWord r.addr) = true) : bankEffect b r 0 s =
    (.poison causeErr, report 10 (loc 3 b) 0 (some r.part) false s) := by
  simp [bankEffect, hop, hmark, hp]

theorem bankEffect_iclr (hop : r.op = 7) : bankEffect b r 0 s = (.ok 0, s.setPresent b (addrWord r.addr) false) := by
  simp [bankEffect, hop, hmark]
end

/-! ### The issue of an operation (R290, R301) -/

section
variable {s : State} {b : ℕ} {r : BReq} (hbad : r.bad = false) (hsys : r.sys = false)
include hbad hsys

theorem bankIssue_passed (hcheck : bankCheck s b r.op r.addr false r.part (retInit s r.ret) r.pre r.half = none) (err : ℕ) :
    bankIssue b r err s = bankAnswer b r (bankEffect b r err s).1 (bankEffect b r err s).2 := by
  simp [bankIssue, hbad, hsys, hcheck]

theorem bankIssue_failed {k : ℕ} (hcheck : bankCheck s b r.op r.addr false r.part (retInit s r.ret) r.pre r.half = some k) (err : ℕ) :
    bankIssue b r err s = bankAnswer b r (.poison causeErr) (failAccess b k r.addr false r.part (retInit s r.ret) r.op s) := by
  simp [bankIssue, hbad, hsys, hcheck]
end

/-- The presentation that a bank serves: the best one, with no other beside it, no lock and no older operation on its word (R290, R291). -/
structure ServedNext (s : State) (b : ℕ) (r : BReq) : Prop where
  best : bestDirect s b = some r
  direct : r.pe.isSome = true
  alone : ((mget [] s.bank.direct (b / 16)).filter fun x => addrBank x.addr = b % 16 && x ≠ r) = []
  unlocked : s.locked b (addrWord r.addr) = false
  first : ((mget [] s.bank.queue b).any fun x => x.touches (addrWord r.addr)) = false
  sound : r.bad = false
  graph : r.sys = false

theorem directClean_iff {s : State} {b : ℕ} {r : BReq} : directClean s b r = true ↔ ServedNext s b r ∧
    bankCheck s b r.op r.addr false r.part (retInit s r.ret) r.pre r.half = none ∧
    mget 0 s.bank.bad (wordKey b (addrWord r.addr)) = 0 ∧ s.flag F.injCtl_ARM 0 = false := by
  constructor
  · intro h
    simp only [directClean, Bool.and_eq_true, Bool.not_eq_true', decide_eq_true_eq, List.isEmpty_iff, Option.isNone_iff_eq_none] at h
    obtain ⟨⟨⟨⟨⟨⟨⟨⟨⟨hbest, hdirect⟩, halone⟩, hlock⟩, hfirst⟩, hbad⟩, hsys⟩, hcheck⟩, hmark⟩, harm⟩ := h
    exact ⟨⟨hbest, hdirect, halone, hlock, hfirst, hbad, hsys⟩, hcheck, hmark, harm⟩
  · rintro ⟨⟨hbest, hdirect, halone, hlock, hfirst, hbad, hsys⟩, hcheck, hmark, harm⟩
    simp only [directClean, hbest, hdirect, halone, hlock, hfirst, hbad, hsys, hcheck, hmark, harm]
    simp

/-- The state in which a direct presentation issues. -/
abbrev presented (b : ℕ) (r : BReq) (s : State) : State := dropDirect (b / 16) (r.pe.getD 0) s

theorem bankOperation_direct {s : State} {b : ℕ} {r : BReq} (h : ServedNext s b r) (err : BankErr) :
    bankOperation b true err s = bankIssue b r err.mem (presented b r s) := by
  simp only [bankOperation, h.best, h.alone, List.foldl_nil, h.unlocked, h.first, Bool.or_false, Bool.false_eq_true, if_true, if_false]

theorem presented_bankWord (s : State) (b w k : ℕ) (r : BReq) : (presented b r s).bankWord k w = s.bankWord k w :=
  congrArg w48 (readN_of_mem rfl _ _)

section
variable {s : State} {b : Fin 2048} {r : BReq} (hon : s.fabricOn (b.val / 16) = true)
include hon

theorem exec_bankOperation_direct (h : ServedNext s b r) (e : PePass) :
    exec (.bankOperation b true ⟨0, e⟩) s = .next (bankIssue b r 0 (presented b r s)) := by
  have hserve : bankOperation b true ⟨0, e⟩ s = bankIssue b r 0 (presented b r s) := bankOperation_direct h ⟨0, e⟩
  rw [← hserve, ← onFabric_on hon (bankOperation b true ⟨0, e⟩)]
  rfl

/-- A clean presentation is served: the operation has its effect on the word, and its PE is answered. -/
theorem exec_bankOperation_clean (h : directClean s b r = true) {a : BankAns} {u : State}
    (heffect : mget 0 s.bank.bad (wordKey b (addrWord r.addr)) = 0 → s.flag F.injCtl_ARM 0 = false → bankEffect b r 0 (presented b r s) = (a, u))
    (e : PePass) : exec (.bankOperation b true ⟨0, e⟩) s = .next (bankAnswer b r a u) := by
  obtain ⟨hserved, hcheck, hmark, harm⟩ := directClean_iff.1 h
  rw [exec_bankOperation_direct hon hserved, bankIssue_passed hserved.sound hserved.graph (s := presented b r s) hcheck, heffect hmark harm]
end

/-! ### What an access that R301 forbids leaves (R304) -/

/-- Two states differ in their register fields alone. -/
def RegsAlone (s t : State) : Prop := t = { s with regs := t.regs }

theorem RegsAlone.refl (s : State) : RegsAlone s s := rfl

theorem RegsAlone.set {s t : State} {f : Fld} {i v : ℕ} (h : RegsAlone s t) : RegsAlone s (t.set f i v) := by
  unfold RegsAlone State.set at *
  exact congrArg (fun u : State => { u with regs := mput t.regs (f.key i) (v % 2 ^ f.w) }) h

theorem RegsAlone.inc {s t : State} {f : Fld} {i : ℕ} (h : RegsAlone s t) : RegsAlone s (t.inc f i) := h.set

theorem RegsAlone.ite {c : Prop} [Decidable c] {s a b : State} (ha : RegsAlone s a) (hb : RegsAlone s b) : RegsAlone s (if c then a else b) := by
  split <;> assumption

theorem violation_regsAlone (c kind : ℕ) (value : W) (sys : Bool) (part init op bank : ℕ) (s : State) :
    RegsAlone s (violation c kind value sys part init op bank s) :=
  RegsAlone.ite (RegsAlone.refl s).inc (RegsAlone.refl s).inc.set.set.set.set.set.set.set.set.set

/-- A violation is counted, and the first after VALID was cleared is logged. -/
theorem violation_log (c kind : ℕ) (value : W) (sys : Bool) (part init op bank : ℕ) (s : State) :
    (violation c kind value sys part init op bank s).get F.violCnt_COUNT c = (s.get F.violCnt_COUNT c + 1) % 2 ^ F.violCnt_COUNT.w ∧
      (s.flag F.violInfo_VALID c = false → (violation c kind value sys part init op bank s).get F.violInfo_KIND c = kind % 8 ∧
        (violation c kind value sys part init op bank s).get F.violAddr_VALUE c = value.toNat) := by
  have hvalid : (s.inc F.violCnt_COUNT c).flag F.violInfo_VALID c = s.flag F.violInfo_VALID c := State.flag_inc_ne _ _ _ _ _ (by decide)
  have hcount : (s.inc F.violCnt_COUNT c).get F.violCnt_COUNT c = (s.get F.violCnt_COUNT c + 1) % 2 ^ F.violCnt_COUNT.w := State.get_inc_same ..
  unfold violation
  dsimp only
  rw [hvalid]
  generalize s.inc F.violCnt_COUNT c = t at hcount
  cases s.flag F.violInfo_VALID c with
  | true => exact ⟨hcount, nofun⟩
  | false =>
    have hrest (u : State) : RegsBut [F.violInfo_SYS, F.violInfo_PART, F.violInfo_INIT, F.violInfo_OP, F.violInfo_BANK, F.violInfo_T,
        F.violInfo_VALID] u _ :=
      ((((((((RegsBut.refl _ u).set (f := F.violInfo_SYS) (i := c) (v := b2n sys)).set (f := F.violInfo_PART) (i := c)
        (v := if sys then 0 else part)).set (f := F.violInfo_INIT) (i := c) (v := if sys then init else 0)).set (f := F.violInfo_OP) (i := c)
        (v := op)).set (f := F.violInfo_BANK) (i := c) (v := bank)).set (f := F.violInfo_T) (i := c) (v := t.t.toNat)).set
        (f := F.violInfo_VALID) (i := c) (v := 1))
    refine ⟨?_, fun _ => ⟨?_, ?_⟩⟩
    · refine (hrest _ _ _ (by decide)).trans ?_
      rw [State.get_set_ne _ _ _ _ _ _ (by decide), State.get_set_ne _ _ _ _ _ _ (by decide)]
      exact hcount
    · refine (hrest _ _ _ (by decide)).trans ?_
      exact State.get_set_same _ F.violInfo_KIND c kind
    · refine (hrest _ _ _ (by decide)).trans ?_
      rw [State.get_set_ne _ _ _ _ _ _ (by decide)]
      exact (State.get_set_same _ F.violAddr_VALUE c value.toNat).trans (Nat.mod_eq_of_lt value.isLt)

/-- The answer to a direct presentation reaches its PE at once. -/
theorem bankAnswer_direct {b : ℕ} {r : BReq} (h : r.pe.isSome = true) (a : BankAns) (s : State) :
    ∃ f, bankAnswer b r a s = deliverRsp f s := by
  obtain ⟨pe, hpe⟩ := Option.isSome_iff_exists.1 h
  unfold bankAnswer
  rw [hpe]
  cases a <;> exact ⟨_, rfl⟩

theorem failAccess_frame (b kind : ℕ) (a : W) (sys : Bool) (part init op : ℕ) (s : State) : failAccess b kind a sys part init op s =
    { s with regs := (failAccess b kind a sys part init op s).regs, flt := (failAccess b kind a sys part init op s).flt } := by
  rw [failAccess, report_frame, violation_regsAlone]

/-- A refused access and its answer change no bank and no memory, and of the registers that of the violation's log and the strays. -/
theorem refusedAnswer_leaves {b k : ℕ} {r : BReq} {u : State} (h : r.pe.isSome = true) (init : ℕ) :
    let t := bankAnswer b r (.poison causeErr) (failAccess b k r.addr false r.part init r.op u)
    t.bank = u.bank ∧ t.mem = u.mem ∧ ∀ (g : Fld) (i : ℕ), F.rtrStat_STRAY.id ≠ g.id →
      t.get g i = (violation (b / 16) k r.addr false r.part init r.op (b % 16) u).get g i := by
  intro t
  obtain ⟨f, hf⟩ := bankAnswer_direct (b := b) h (.poison causeErr) (failAccess b k r.addr false r.part init r.op u)
  obtain ⟨hframe, hregs⟩ := deliverRsp_frame f (failAccess b k r.addr false r.part init r.op u)
  rw [← hf] at hframe hregs
  have hbank : (failAccess b k r.addr false r.part init r.op u).bank = u.bank := by rw [failAccess_frame]
  have hmem : (failAccess b k r.addr false r.part init r.op u).mem = u.mem := by rw [failAccess_frame]
  exact ⟨(congrArg State.bank hframe).trans hbank, (congrArg State.mem hframe).trans hmem,
    fun g i hg => (hregs g i (by simpa using hg)).trans (report_get ..)⟩

/-- The kinds of violation are those of R301. -/
theorem bankCheck_lt {s : State} {b op : ℕ} {a : W} {sys : Bool} {part init : ℕ} {pre half : Bool} {k : ℕ}
    (h : bankCheck s b op a sys part init pre half = some k) : k < 8 := by
  unfold bankCheck at h
  split_ifs at h <;> cases h <;> decide

section
variable {s : State} {b : Fin 2048} {r : BReq} {k : ℕ} (hon : s.fabricOn (b.val / 16) = true) (hserved : ServedNext s b r)
  (hcheck : bankCheck s b r.op r.addr false r.part (retInit s r.ret) r.pre r.half = some k)
include hon hserved hcheck

theorem bankOperation_refused (e : PePass) : Completes (.bankOperation b true ⟨0, e⟩) s fun t =>
    t.get F.violCnt_COUNT (b.val / 16) = (s.get F.violCnt_COUNT (b.val / 16) + 1) % 2 ^ F.violCnt_COUNT.w ∧
      (s.flag F.violInfo_VALID (b.val / 16) = false →
        t.get F.violInfo_KIND (b.val / 16) = k ∧ t.get F.violAddr_VALUE (b.val / 16) = r.addr.toNat) ∧
      t.bank = { s.bank with direct := t.bank.direct } ∧ t.mem = s.mem ∧ t.pending = s.pending ∧ t.t = s.t := by
  have hexec := exec_bankOperation_direct hon hserved e
  rw [bankIssue_failed hserved.sound hserved.graph (s := presented b r s) hcheck] at hexec
  refine completes_next hexec ?_
  have hclock := (Steady.refl s).exec _ rfl _ hexec
  obtain ⟨hcount, hlog⟩ := violation_log (b.val / 16) k r.addr false r.part (retInit (presented b r s) r.ret) r.op (b.val % 16) (presented b r s)
  obtain ⟨hbank, hmem, hget⟩ := refusedAnswer_leaves (b := b) (k := k) (u := presented b r s) hserved.direct
    (retInit (presented b r s) r.ret)
  refine ⟨(hget _ _ (by decide)).trans hcount, fun h => ?_, ?_, hmem, hclock.pending, hclock.time⟩
  · obtain ⟨hkind, haddr⟩ := hlog h
    exact ⟨(hget _ _ (by decide)).trans (hkind.trans (Nat.mod_eq_of_lt (bankCheck_lt hcheck))), (hget _ _ (by decide)).trans haddr⟩
  · rw [hbank]
    rfl
end

/-! ### A queued STORE (R290) -/

theorem refillBank_mem (b n : ℕ) (s : State) : (refillBank b n s).mem = s.mem := by
  induction n generalizing s with
  | zero => rfl
  | succ n ih =>
    rw [refillBank]
    split
    · rfl
    · split
      · rfl
      · exact ih _

theorem bankAnswer_mem (b : ℕ) (r : BReq) (a : BankAns) (s : State) : (bankAnswer b r a s).mem = s.mem := by
  cases hpe : r.pe.isSome with
  | true =>
    obtain ⟨f, hf⟩ := bankAnswer_direct hpe a s
    rw [hf]
    exact (Carries.refl s).deliverRsp.mem
  | false =>
    unfold bankAnswer
    rw [Option.isSome_eq_false_iff, Option.isNone_iff_eq_none] at hpe
    rw [hpe]
    cases a <;> exact (Carries.refl s).send.mem

theorem lostPresence_mem (b w err : ℕ) (s : State) : (lostPresence b w err s).mem = s.mem :=
  (Carries.ite ((Carries.refl s).inc.set.report.rest) (Carries.refl s)).mem

/-- What is written depends on the memory alone. -/
theorem writeN_mem_congr {s t : State} (h : s.mem = t.mem) (a v n : ℕ) : (s.writeN a v n).mem = (t.writeN a v n).mem := by
  induction n generalizing s t a v with
  | zero => exact h
  | succ n ih =>
    refine ih ?_ _ _
    rw [State.writeByte, State.writeByte, h]

theorem bankOperation_queued {s : State} {b : ℕ} {r : BReq} {q : List BReq} (hq : mget [] s.bank.queue b = r :: q)
    (hlock : reqLocked s b r = false) (err : BankErr) : bankOperation b false err s =
      refillBank b 8 (bankIssue b r err.mem { s with bank := { s.bank with queue := mlist s.bank.queue b q } }) := by
  simp [bankOperation, hq, hlock]

/-- A queued STORE leaves the memory that its word is written to. -/
theorem queued_store_mem {s : State} {b : ℕ} {r : BReq} {q : List BReq} (hq : mget [] s.bank.queue b = r :: q)
    (hlock : reqLocked s b r = false) (hbad : r.bad = false) (hsys : r.sys = false)
    (hcheck : bankCheck s b r.op r.addr false r.part (retInit s r.ret) r.pre r.half = none) (hop : r.op = 4) (err : BankErr) :
    (bankOperation b false err s).mem = (s.putWord b (addrWord r.addr) r.data).mem := by
  have heffect (t : State) : (bankEffect b r err.mem t).2 = (lostPresence b (addrWord r.addr) err.mem t).putWord b (addrWord r.addr) r.data := by
    simp only [bankEffect, hop]
  rw [bankOperation_queued hq hlock, refillBank_mem,
    bankIssue_passed hbad hsys (s := { s with bank := { s.bank with queue := mlist s.bank.queue b q } }) hcheck, bankAnswer_mem, heffect]
  exact writeN_mem_congr (lostPresence_mem ..) _ _ _

theorem putWord_frame_bytes (s : State) (b w : ℕ) (v : W) (a : ℕ)
    (ha : a < bankAddr (b / 16) (b % 16) w ∨ bankAddr (b / 16) (b % 16) w + 6 ≤ a) : (s.putWord b w v).readByte a = s.readByte a :=
  readByte_writeN_out s _ _ _ _ ha

theorem isPresent_setPresent (s : State) (b w : ℕ) (v : Bool) : (s.setPresent b w v).isPresent b w = v := by
  rw [State.isPresent, State.setPresent, mget_mset, if_pos rfl]
  cases v <;> rfl

/-- A word that is written and made present leaves the bank's deferred READs. -/
theorem written_deferOf (s : State) (b w : ℕ) (v : W) (k : ℕ) : ((s.putWord b w v).setPresent b w true).deferOf k = s.deferOf k := by
  rw [State.putWord, State.writeSlot, writeN_frame]
  rfl

/-- Settles O29: a clean presentation is served by the effect of its operation; a refused one only logs; a queued STORE writes its word's bytes. -/
theorem bankOperationsActOnTheirWord : Obligations.BankOperationsActOnTheirWord := by
  unfold Obligations.BankOperationsActOnTheirWord
  refine ⟨?load, ?store, ?readPresent, ?readEmpty, ?writeEmpty, ?writeAwaited, ?writePresent, ?iclr, ?fetchAdd, ?swap, ?refused, ?queued,
    fun b w v s => ⟨bankWord_putWord s b w v, putWord_frame_bytes s b w v⟩, fun b w v s => isPresent_setPresent s b w v⟩
  case load =>
    intro b r e s hon hclean hop
    rw [exec_bankOperation_clean hon hclean (fun hmark harm => bankEffect_load harm hmark hop), presented_bankWord]
  case store =>
    intro b r e s hon hclean hop
    exact exec_bankOperation_clean hon hclean (fun hmark _ => bankEffect_store hmark hop) e
  case readPresent =>
    intro b r e s hon hclean hop hp
    rw [exec_bankOperation_clean hon hclean (fun hmark harm => bankEffect_read_present harm hmark hop hp), presented_bankWord]
  case readEmpty =>
    intro b r e s hon hclean hop hp hroom
    exact exec_bankOperation_clean hon hclean (fun hmark harm => bankEffect_read_empty harm hmark hop hp hroom) e
  case writeEmpty =>
    intro b r e s hon hclean hop hp hnone
    rw [exec_bankOperation_clean hon hclean (fun hmark _ => bankEffect_write_empty hmark hop hp), answerWaiters_none]
    rw [written_deferOf]
    exact hnone
  case writeAwaited =>
    intro b r e s hon hclean hop hp hsome
    rw [exec_bankOperation_clean hon hclean (fun hmark _ => bankEffect_write_empty hmark hop hp), answerWaiters_some]
    rw [written_deferOf]
    exact hsome
  case writePresent =>
    intro b r e s hon hclean hop hp
    exact exec_bankOperation_clean hon hclean (fun hmark _ => bankEffect_write_present hmark hop hp) e
  case iclr =>
    intro b r e s hon hclean hop
    exact exec_bankOperation_clean hon hclean (fun hmark _ => bankEffect_iclr hmark hop) e
  case fetchAdd =>
    intro b r e s hon hclean hop
    rw [exec_bankOperation_clean hon hclean (fun hmark harm => bankEffect_fetchAdd harm hmark hop), presented_bankWord]
  case swap =>
    intro b r e s hon hclean hop
    rw [exec_bankOperation_clean hon hclean (fun hmark harm => bankEffect_swap harm hmark hop), presented_bankWord]
  case refused =>
    intro b r e k s hon hbest hdirect halone hlock hfirst hbad hsys hcheck
    exact bankOperation_refused hon ⟨hbest, hdirect, halone, hlock, hfirst, hbad, hsys⟩ hcheck e
  case queued =>
    intro b r e q s hon hq hlock hbad hsys hcheck hop
    have hexec : exec (.bankOperation b false ⟨0, e⟩) s = .next (bankOperation b false ⟨0, e⟩ s) := by
      rw [← onFabric_on hon (bankOperation b false ⟨0, e⟩)]
      rfl
    have hmem := queued_store_mem hq hlock hbad hsys hcheck hop ⟨0, e⟩
    have hclock := (Steady.refl s).exec _ rfl _ hexec
    refine completes_next hexec ⟨?_, hclock.pending, hclock.time, fun a ha => ?_⟩
    · exact (congrArg w48 (readN_of_mem hmem _ _)).trans (bankWord_putWord s b _ _)
    · rw [State.readByte, hmem]
      exact putWord_frame_bytes s b _ _ a ha

end Sys2Proof.Machine
end

section
/-!
SUPPORT. The operations that wait for a response (R85–R92, R154, R274, R280): a firing parks, its request's timer starts, and the request leaves for a
bank, for Lens or for an output target (O27).
-/
set_option Elab.async false
namespace Sys2Proof.Machine
open Sys2Proof

/-! ### A firing that may park (R154) -/

/-- Where no firing holds the sequencer, a row that may park runs its body; without a free entry the firing holds the sequencer. -/
theorem exec_parking {i : Instr} {c pe : ℕ} {cls : OpClass} {err : FireErr} {body : Firing → State → Option State} {f : Firing} {u s : State}
    (hexec : exec i s = .next (fireParking cls c pe err body s)) (hheld : s.heldSeq c pe = none) (hfired : fired s c pe cls err = some (f, u)) :
    exec i s = .next ((body f u).getD (holdSeq f none u)) := by
  obtain ⟨hcan, x, hx, hcls, hbegin⟩ := fired_some hfired
  simp [hexec, fireParking, hheld, hcan, hx, hcls, hbegin]

section
variable {op e : ℕ} {f : Firing} {s : State} (hsound : f.poison = none)
include hsound

theorem bankBody_parks (haddr : addrBad f.l.1 = false) (hpark : freePark s f.c f.pe = some e) : bankBody op f s =
    some (bankRequest f.c f.pe op f.base f.due f.l.1 f.r.1 (parkRet s f.c f.pe e) (parkFiring f e f.l.1 s)) := by
  simp [bankBody, hsound, haddr, hpark]

theorem bankBody_full (haddr : addrBad f.l.1 = false) (hpark : freePark s f.c f.pe = none) : bankBody op f s = none := by
  simp [bankBody, hsound, haddr, hpark]

theorem bankBody_malformed (haddr : addrBad f.l.1 = true) : bankBody op f s =
    some (reportP 10 (loc 2 f.c) 0 f.part (f.emit (poisonData causeErr f.l.1.toNat) true (f.dsts s) s)) := by
  simp [bankBody, hsound, haddr]
end

/-! ### Requests to banks (R86, R274, R290) -/

/-- The return word of a PE's first park entry (R274). -/
abbrev peRet (u : State) (f : Firing) : ℕ := u.pkg * 2 ^ 15 + f.c / 16 * 2 ^ 11 + f.c % 16 * 2 ^ 7 + f.pe * 8

/-- The return word of a park entry (R274). -/
abbrev entryRet (u : State) (f : Firing) (e : ℕ) : ℕ := peRet u f + e

/-- The firing is parked in entry `e`, its timer has started, and its operation is presented to a bank of its own cluster. -/
def ParkedDirect (op : ℕ) (f : Firing) (e : ℕ) (u t : State) : Prop :=
  t.cl.parks = u.cl.parks ++ [⟨f.c, f.pe, e, f.w, f.base, f.due, f.l.1, f.r.1, f.g.1, f.l.1, none, false⟩] ∧
    (t.net.timed.getLast?).map (fun y => (y.ret, y.addr, y.op, y.part, y.left)) = some (entryRet u f e, f.l.1, op, f.part, u.ticks) ∧
    (mget [] t.bank.direct f.c) = mget [] u.bank.direct f.c ++
      [directReq op f.l.1 f.r.1 f.part (entryRet u f e) (startUrg u f.part (dueBand u f.due)) f.base f.due f.pe] ∧
    t = { u with cl := t.cl, net := t.net, bank := t.bank }

/-- The firing is parked in entry `e`, its timer has started, and a REQ packet has been sent for it. -/
def ParkedRemote (op : ℕ) (f : Firing) (e : ℕ) (u t : State) : Prop :=
  t = send (Flit.ofFiring (mkFlit 1 false (reqPay f.l.1 f.r.1 op f.part false (entryRet u f e) 0) [] f.part (startUrg u f.part (dueBand u f.due)) f.c)
    f.base f.due) (startTimer (entryRet u f e) f.l.1 op f.part false 0 (parkFiring f e f.l.1 u))

section
variable {op e : ℕ} {f : Firing} {u : State}

theorem bankRequest_direct (hpkg : tagPkg f.l.1 = u.pkg) (hcl : cIdx (tagDie f.l.1) (tagCluster f.l.1) = f.c) :
    ParkedDirect op f e u (bankRequest f.c f.pe op f.base f.due f.l.1 f.r.1 (parkRet u f.c f.pe e) (parkFiring f e f.l.1 u)) := by
  have hhere : tagPkg f.l.1 = (startTimer (parkRet u f.c f.pe e) f.l.1 op (tagPart f.base) false 0 (parkFiring f e f.l.1 u)).pkg ∧
      cIdx (tagDie f.l.1) (tagCluster f.l.1) = f.c := ⟨hpkg, hcl⟩
  rw [bankRequest, if_pos hhere]
  refine ⟨rfl, ?_, mget_mput_same .., rfl⟩
  simp only [startTimer, List.getLast?_concat, Option.map_some]
  rfl

theorem bankRequest_remote (haway : tagPkg f.l.1 ≠ u.pkg ∨ cIdx (tagDie f.l.1) (tagCluster f.l.1) ≠ f.c) :
    ParkedRemote op f e u (bankRequest f.c f.pe op f.base f.due f.l.1 f.r.1 (parkRet u f.c f.pe e) (parkFiring f e f.l.1 u)) := by
  have hfar : ¬(tagPkg f.l.1 = (startTimer (parkRet u f.c f.pe e) f.l.1 op (tagPart f.base) false 0 (parkFiring f e f.l.1 u)).pkg ∧
      cIdx (tagDie f.l.1) (tagCluster f.l.1) = f.c) := fun h => haway.elim (· h.1) (· h.2)
  rw [bankRequest, if_neg hfar]
  rfl

variable {i : Instr} {c pe : ℕ} {cls : OpClass} {err : FireErr} {s : State} (hexec : exec i s = .next (fireParking cls c pe err (bankBody op) s))
  (hheld : s.heldSeq c pe = none) (hfired : fired s c pe cls err = some (f, u)) (hsound : f.poison = none)
include hexec hheld hfired hsound

theorem exec_bank_malformed (haddr : addrBad f.l.1 = true) :
    exec i s = .next (reportP 10 (loc 2 f.c) 0 f.part (f.emit (poisonData causeErr f.l.1.toNat) true (f.dsts u) u)) := by
  rw [exec_parking hexec hheld hfired, bankBody_malformed hsound haddr, Option.getD_some]

variable (haddr : addrBad f.l.1 = false)
include haddr

theorem exec_bank_full (hpark : freePark u f.c f.pe = none) : exec i s = .next (holdSeq f none u) := by
  rw [exec_parking hexec hheld hfired, bankBody_full hsound haddr hpark, Option.getD_none]

variable (hpark : freePark u f.c f.pe = some e)
include hpark

/-- A bank operation on a well-formed address parks its firing and makes its request. -/
theorem exec_bank_parks : exec i s =
    .next (bankRequest f.c f.pe op f.base f.due f.l.1 f.r.1 (parkRet u f.c f.pe e) (parkFiring f e f.l.1 u)) := by
  rw [exec_parking hexec hheld hfired, bankBody_parks hsound haddr hpark, Option.getD_some]

theorem exec_bank_direct (hpkg : tagPkg f.l.1 = u.pkg) (hcl : cIdx (tagDie f.l.1) (tagCluster f.l.1) = f.c) :
    Completes i s (ParkedDirect op f e u) :=
  completes_next (exec_bank_parks hexec hheld hfired hsound haddr hpark) (bankRequest_direct hpkg hcl)

theorem exec_bank_remote (haway : tagPkg f.l.1 ≠ u.pkg ∨ cIdx (tagDie f.l.1) (tagCluster f.l.1) ≠ f.c) :
    Completes i s (ParkedRemote op f e u) :=
  completes_next (exec_bank_parks hexec hheld hfired hsound haddr hpark) (bankRequest_remote haway)
end

/-! ### Packets for the hub (R274, R276) -/

theorem toNat_append_div {m n : ℕ} (x : BitVec m) (y : BitVec n) : (x ++ y).toNat / 2 ^ n = x.toNat := by
  rw [BitVec.toNat_append, ← Nat.shiftLeft_add_eq_or_of_lt y.isLt, Nat.shiftLeft_eq, Nat.mul_comm,
    Nat.mul_add_div (Nat.two_pow_pos n), Nat.div_eq_of_lt y.isLt, Nat.add_zero]

/-- The upper 48 bits of a request's payload are its address. -/
theorem reqPay_div (a d : W) (op part : ℕ) (sys : Bool) (ret arg : ℕ) : (reqPay a d op part sys ret arg).toNat / 2 ^ 96 = a.toNat := by
  have hsplit (n : ℕ) : n / 2 ^ 96 = n / 2 ^ 21 / 2 ^ 19 / 2 ^ 1 / 2 ^ 3 / 2 ^ 4 / 2 ^ 48 := by
    simp only [Nat.div_div_eq_div_mul]
    rfl
  rw [hsplit, reqPay]
  simp only [toNat_append_div]

theorem pf_reqPay (a d : W) (op part : ℕ) (sys : Bool) (ret arg k n : ℕ) : pf (reqPay a d op part sys ret arg) (96 + k) n = bits a.toNat k n := by
  rw [pf, bits, bits, Nat.pow_add, ← Nat.div_div_eq_div_mul, reqPay_div]

/-- An address at the hub of a package (R25). -/
theorem hubAddress_bits {p x : ℕ} (hx : x < 2 ^ 36) (k : ℕ) (hk : k < 16) :
    bits (w48 (p * 2 ^ 44 + 8 * 2 ^ 40 + k * 2 ^ 36 + x)).toNat 44 4 = p % 16 ∧
      bits (w48 (p * 2 ^ 44 + 8 * 2 ^ 40 + k * 2 ^ 36 + x)).toNat 40 4 = 8 := by
  simp only [bits, w48, BitVec.toNat_ofNat]
  constructor <;> omega

section
variable {f : Firing} {u : State} {a d : W} {op ty arg ret : ℕ} {bodies : List (BitVec 144)}

/-- A request of a firing, as it leaves for the hub. -/
abbrev hubRequest (f : Firing) (u : State) (ty : ℕ) (a d : W) (op ret arg : ℕ) (bodies : List (BitVec 144)) : Flit :=
  Flit.ofFiring (mkFlit ty false (reqPay a d op f.part false ret arg) bodies f.part (startUrg u f.part (dueBand u f.due)) f.c) f.base f.due

theorem hubRequest_dest (hty : ty ≠ 2) : flitDest (hubRequest f u ty a d op ret arg bodies) =
    ⟨bits a.toNat 44 4, bits a.toNat 40 4, bits a.toNat 36 4⟩ := by
  have hreq : ¬(ty = 2 ∧ rspAns (reqPay a d op f.part false ret arg) = false) := fun h => hty h.1
  simp only [hubRequest, Flit.ofFiring, mkFlit, flitDest, hreq, if_false]
  exact congrArg₂ (fun x y => Dest.mk x y _) (pf_reqPay a d op f.part false ret arg 44 4) (pf_reqPay a d op f.part false ret arg 40 4) |>.trans
    (congrArg _ (pf_reqPay a d op f.part false ret arg 36 4))

variable (hty : ty ≠ 2) (hdie : bits a.toNat 40 4 = 8)
include hty hdie

theorem hubRequest_travels (hc : f.c < 128) : (hubRequest f u ty a d op ret arg bodies).Travels :=
  .inl ⟨hc, by rw [hubRequest_dest hty]; exact hdie⟩

theorem hubRequest_deliverable {v : State} (hty0 : ty ≠ 0) (hpkg : v.pkgOk (bits a.toNat 44 4) = true) :
    undeliverable v (hubRequest f u ty a d op ret arg bodies) = false := by
  have htoken : (hubRequest f u ty a d op ret arg bodies).ty ≠ 0 := hty0
  simp [undeliverable, hubRequest_dest hty, hdie, hpkg, htoken]
end

/-! ### A firing that has parked and sent its request -/

/-- From `u` to `t` a firing has parked as `p`, its request's timer has started, and its packet `g` stands at its node. -/
structure RequestLeft (g : Flit) (p : Park) (ret : ℕ) (a : W) (op part : ℕ) (u t : State) : Prop where
  parks : t.cl.parks = u.cl.parks ++ [p]
  ticks : t.ticks = u.ticks
  timer : LastTimer ret a op part t
  stands : Stands g t
  mem : t.mem = u.mem
  pending : t.pending = u.pending
  time : t.t = u.t

/-- Parking a firing and sending its packet for the hub, where no response to the entry's return word waits for injection. -/
theorem send_requestLeft {g : Flit} {f : Firing} {e ret op part extra : ℕ} {a : W} {u : State} (ht : g.Travels) (hty : g.ty ≠ 2)
    (hdel : undeliverable (startTimer ret a op part false extra (parkFiring f e a u)) g = false)
    (hno : (u.cl.injQ.any fun x => x.ty = 2 && rspRet x.pay = ret) = false) :
    RequestLeft g ⟨f.c, f.pe, e, f.w, f.base, f.due, f.l.1, f.r.1, f.g.1, a, none, false⟩ ret a op part u
      (send g (startTimer ret a op part false extra (parkFiring f e a u))) := by
  have hquiet : NoAnswer ret (startTimer ret a op part false extra (parkFiring f e a u)) := by
    intro x hx hx2 hret
    have := List.any_eq_false.1 hno x hx
    simp [hx2, hret] at this
  have hsteady := (Steady.refl (startTimer ret a op part false extra (parkFiring f e a u))).send (f := g)
  exact ⟨(LeavesFirings.refl _).send.parks, hsteady.ticks, (startTimer_last false extra _).send hquiet hty hdel, send_stands ht hdel,
    (Carries.refl _).send.mem, hsteady.pending, hsteady.time⟩

section
variable {g : Flit} {p : Park} {ret op part : ℕ} {a : W} {u t : State} (h : RequestLeft g p ret a op part u t)
include h

theorem RequestLeft.lastPark {β : Type} (k : Park → β) : (t.cl.parks.getLast?).map k = some (k p) := by
  rw [h.parks, List.getLast?_concat, Option.map_some]

theorem RequestLeft.parks_length : t.cl.parks.length = u.cl.parks.length + 1 := by
  rw [h.parks, List.length_append, List.length_singleton]

theorem RequestLeft.lastTimer : (t.net.timed.getLast?).map (fun y => (y.addr, y.op, y.part, y.left)) = some (a, op, part, u.ticks) := by
  obtain ⟨y, hy, -, rfl, rfl, rfl, hleft⟩ := h.timer
  rw [hy, Option.map_some, hleft, h.ticks]
end

/-! ### Lens queries (R89, R90) -/

/-- The address of a query of Lens: the coordinate that an opcode names, with `sel` 8 for TIME-AT (R89, R90). -/
abbrev queryAddr (u : State) (sel : ℕ) (f : Firing) : W := w48 (u.pkg * 2 ^ 44 + 8 * 2 ^ 40 + sel + iOpc f.w % 8)

/-- What a query of the coordinate that an opcode names has done, with `sel` 8 for TIME-AT. -/
def QuerySent (sel : ℕ) (f : Firing) (e : ℕ) (u t : State) : Prop :=
  let a := queryAddr u sel f;
  (t.cl.parks.getLast?).map (fun y => (y.cluster, y.pe, y.entry, y.addr)) = some (f.c, f.pe, e, a) ∧ t.cl.parks.length = u.cl.parks.length + 1 ∧
    (t.net.timed.getLast?).map (fun y => (y.addr, y.op, y.part, y.left)) = some (a, 10, f.part, u.ticks) ∧
    ((t.net.flits ++ t.cl.injQ).any fun x => decide (x.node = f.c ∧
      x.pay = reqPay a f.l.1 10 f.part false (entryRet u f e) (f.t0.toNat % 2 ^ 21) ∧ x.side = ⟨0, f.base, f.due⟩)) = true ∧
    t.mem = u.mem ∧ t.pending = u.pending ∧ t.t = u.t

section
variable {i : Instr} {c : Fin 128} {pe e : ℕ} {cls : OpClass} {err : FireErr} {f : Firing} {u s : State} {timeAt : Bool}
  (hexec : exec i s = .next (fireParking cls c pe err (lensBody timeAt) s)) (hheld : s.heldSeq c pe = none)
  (hfired : fired s c pe cls err = some (f, u)) (hsound : f.poison = none) (hpark : freePark u f.c f.pe = some e)
  (hno : (u.cl.injQ.any fun g => g.ty = 2 && rspRet g.pay = entryRet u f e) = false) (hpkg : u.pkgOk (u.pkg % 16) = true)
include hexec hheld hfired hsound hpark hno hpkg

theorem exec_query {sel : ℕ} (hwhich : sel = b2n timeAt * 8) : Completes i s (QuerySent sel f e u) := by
  subst hwhich
  have hc : f.c < 128 := (fired_place hfired).1 ▸ c.isLt
  have hsel : b2n timeAt * 8 + iOpc f.w % 8 < 2 ^ 36 := by
    have : b2n timeAt ≤ 1 := by cases timeAt <;> decide
    omega
  obtain ⟨hpkgBits, hdie⟩ := hubAddress_bits (p := u.pkg) hsel 0 (by decide)
  rw [Nat.zero_mul, Nat.add_zero, ← Nat.add_assoc] at hpkgBits hdie
  have hbody : lensBody timeAt f u = some (send (hubRequest f u 1 (queryAddr u (b2n timeAt * 8) f) f.l.1 10
      (entryRet u f e) (f.t0.toNat % 2 ^ 21) [])
      (startTimer (entryRet u f e) (queryAddr u (b2n timeAt * 8) f) 10 f.part false 0
        (parkFiring { f with r := (f.t0, false) } e (queryAddr u (b2n timeAt * 8) f) u))) := by
    simp only [lensBody, hsound, hpark, Option.map_some]
    rfl
  refine completes_next ((exec_parking hexec hheld hfired).trans (by rw [hbody, Option.getD_some])) ?_
  have hleft := send_requestLeft (f := { f with r := (f.t0, false) }) (e := e) (part := f.part) (extra := 0) (op := 10) (u := u)
    (a := queryAddr u (b2n timeAt * 8) f)
    (hubRequest_travels (u := u) (d := f.l.1) (op := 10) (arg := f.t0.toNat % 2 ^ 21) (ret := entryRet u f e) (bodies := [])
      (show 1 ≠ 2 by decide) hdie hc)
    (show (1 : ℕ) ≠ 2 by decide) (hubRequest_deliverable (by decide) hdie (by decide) (by rw [hpkgBits]; exact hpkg)) hno
  refine ⟨hleft.lastPark _, hleft.parks_length, hleft.lastTimer, hleft.stands.any fun x hx => ?_, hleft.mem, hleft.pending, hleft.time⟩
  rw [hx, decide_eq_true_iff]
  exact ⟨rfl, rfl, rfl⟩
end

/-! ### Outputs (R91, R92) -/

/-- The address at the hub of an output's target, from its word K (R91). -/
abbrev outAddr (f : Firing) : W := w48 (bits (iK f.w) 40 4 * 2 ^ 44 + 8 * 2 ^ 40 + bits (iK f.w) 44 4 * 2 ^ 36 + bits (iK f.w) 0 16)

/-- The body of an output's packet: due, context with epoch, and a word of zeros (R274). -/
abbrev outWords (f : Firing) : BitVec 144 := f.due ++ w48 (f.ctx + f.ep * 2 ^ 14) ++ (0 : W)

/-- The packet of an output. -/
abbrev outPacket (emitAt ack : ℕ) (f : Firing) (u : State) (ret : ℕ) : Flit :=
  hubRequest f u 3 (outAddr f) f.l.1 12 ret (emitAt * 2 ^ 20 + ack * 2 ^ 19 + 1) [outWords f]

theorem outWords_eq (f : Firing) : (f.due ++ w48 (f.ctx * 2 ^ 0) ++ (0 : W) : BitVec 144) ||| BitVec.ofNat 144 (f.ep * 2 ^ 62) = outWords f := by
  have hctx : f.ctx < 2 ^ 14 := Nat.mod_lt _ (by decide)
  have hep : f.ep = 0 ∨ f.ep = 1 := by
    have : f.ep < 2 := Nat.mod_lt _ (by decide)
    omega
  rcases hep with hep | hep
  · simp [outWords, hep]
  · have hword : w48 (f.ctx + 1 * 2 ^ 14) = w48 (f.ctx * 2 ^ 0) ||| w48 (2 ^ 14) := by
      rw [w48, w48, w48, ← BitVec.ofNat_or, Nat.pow_zero, Nat.mul_one, Nat.add_comm, Nat.mul_comm, Nat.two_pow_add_eq_or_of_lt hctx,
        Nat.mul_one, Nat.or_comm]
    have hbit : BitVec.ofNat 144 (1 * 2 ^ 62) = (0 : W) ++ w48 (2 ^ 14) ++ (0 : W) := by decide
    have hzero (x : W) : x ||| 0 = x := BitVec.or_zero
    rw [outWords, hep, hword, hbit, BitVec.or_append, BitVec.or_append, hzero, hzero]

/-- What an output that asks for an acknowledgement has done. -/
def OutParked (emitAt : ℕ) (f : Firing) (e : ℕ) (u t : State) : Prop :=
  (t.cl.parks.getLast?).map (fun y => (y.cluster, y.pe, y.entry)) = some (f.c, f.pe, e) ∧ t.cl.parks.length = u.cl.parks.length + 1 ∧
    (t.net.timed.getLast?).map (fun y => (y.op, y.part, y.left)) = some (12, f.part, u.ticks) ∧
    ((t.net.flits ++ t.cl.injQ).any fun x => decide (x.node = f.c ∧ x.ty = 3 ∧
      x.pay = reqPay (outAddr f) f.l.1 12 f.part false (entryRet u f e) (emitAt * 2 ^ 20 + 1 * 2 ^ 19 + 1) ∧ x.bodies = [outWords f] ∧
      x.side = ⟨0, f.base, f.due⟩)) = true ∧ t.mem = u.mem ∧ t.pending = u.pending ∧ t.t = u.t

/-- What an output without an acknowledgement has done. -/
def OutLeft (emitAt : ℕ) (f : Firing) (u t : State) : Prop :=
  t.cl.parks = u.cl.parks ∧
    ((t.net.flits ++ t.cl.injQ).any fun x => decide (x.node = f.c ∧ x.ty = 3 ∧
      x.pay = reqPay (outAddr f) f.l.1 12 f.part false (peRet u f) (emitAt * 2 ^ 20 + 0 * 2 ^ 19 + 1) ∧ x.bodies = [outWords f] ∧
      x.side = ⟨0, f.base, f.due⟩)) = true ∧ t.mem = u.mem ∧ t.pending = u.pending ∧ t.t = u.t

section
variable {f : Firing} {u : State} {emitAt : Bool} {e : ℕ} (hsound : f.poison = none)
include hsound

theorem outBody_parks (hack : dstV (iDst0 f.w) = true) (hpark : freePark u f.c f.pe = some e) : outBody emitAt f u =
    some (send (outPacket (b2n emitAt) 1 f u (entryRet u f e))
      (startTimer (entryRet u f e) (outAddr f) 12 f.part false (if emitAt then emitExtra u f.due else 0) (parkFiring f e (outAddr f) u))) := by
  simp only [outBody, hsound, hack, hpark, if_true, Option.map_some, outWords_eq]
  rfl

theorem outBody_leaves (hack : dstV (iDst0 f.w) = false) : outBody emitAt f u =
    some (send (outPacket (b2n emitAt) 0 f u (peRet u f)) u) := by
  have hret : parkRet u f.c f.pe 0 = peRet u f := Nat.add_zero _
  simp only [outBody, hsound, hack, if_false, Bool.false_eq_true, Option.map_some, outWords_eq, hret]
  rfl
end

section
variable {f : Firing} {u : State} {emits ack ret : ℕ}

theorem outAddr_bits (f : Firing) : bits (outAddr f).toNat 44 4 = bits (iK f.w) 40 4 ∧ bits (outAddr f).toNat 40 4 = 8 := by
  have hlow : bits (iK f.w) 0 16 < 2 ^ 36 := lt_of_lt_of_le (Nat.mod_lt _ (by decide)) (by decide)
  have hk : bits (iK f.w) 44 4 < 16 := Nat.mod_lt _ (by decide)
  obtain ⟨hpkg, hdie⟩ := hubAddress_bits (p := bits (iK f.w) 40 4) hlow _ hk
  exact ⟨hpkg.trans (Nat.mod_mod _ _), hdie⟩

theorem outPacket_travels (hc : f.c < 128) : (outPacket emits ack f u ret).Travels :=
  hubRequest_travels (by decide) (outAddr_bits f).2 hc

theorem outPacket_deliverable {v : State} (hpkg : v.pkgOk (bits (iK f.w) 40 4) = true) : undeliverable v (outPacket emits ack f u ret) = false :=
  hubRequest_deliverable (by decide) (outAddr_bits f).2 (by decide) (by rw [(outAddr_bits f).1]; exact hpkg)

theorem outPacket_stands {t : State} (h : Stands (outPacket emits ack f u ret) t) :
    ((t.net.flits ++ t.cl.injQ).any fun x => decide (x.node = f.c ∧ x.ty = 3 ∧
      x.pay = reqPay (outAddr f) f.l.1 12 f.part false ret (emits * 2 ^ 20 + ack * 2 ^ 19 + 1) ∧ x.bodies = [outWords f] ∧
      x.side = ⟨0, f.base, f.due⟩)) = true :=
  h.any fun x hx => by
    rw [hx, decide_eq_true_iff]
    exact ⟨rfl, rfl, rfl, rfl, rfl⟩

variable {i : Instr} {c : Fin 128} {pe e : ℕ} {cls : OpClass} {err : FireErr} {s : State} {emitAt : Bool}
  (hexec : exec i s = .next (fireParking cls c pe err (outBody emitAt) s)) (hheld : s.heldSeq c pe = none)
  (hfired : fired s c pe cls err = some (f, u)) (hsound : f.poison = none) (hpkg : u.pkgOk (bits (iK f.w) 40 4) = true)
include hexec hheld hfired hsound hpkg

theorem exec_output_parks (hack : dstV (iDst0 f.w) = true) (hpark : freePark u f.c f.pe = some e)
    (hno : (u.cl.injQ.any fun g => g.ty = 2 && rspRet g.pay = entryRet u f e) = false) (hat : emits = b2n emitAt) :
    Completes i s (OutParked emits f e u) := by
  subst hat
  have hc : f.c < 128 := (fired_place hfired).1 ▸ c.isLt
  refine completes_next ((exec_parking hexec hheld hfired).trans (by rw [outBody_parks hsound hack hpark, Option.getD_some])) ?_
  have hleft := send_requestLeft (f := f) (e := e) (part := f.part) (extra := if emitAt then emitExtra u f.due else 0) (op := 12) (a := outAddr f)
    (outPacket_travels (emits := b2n emitAt) (ack := 1) (u := u) (ret := entryRet u f e) hc) (show (3 : ℕ) ≠ 2 by decide)
    (outPacket_deliverable hpkg) hno
  have htimer := congrArg (Option.map fun y : W × ℕ × ℕ × ℕ => y.2) hleft.lastTimer
  rw [Option.map_map] at htimer
  exact ⟨hleft.lastPark _, hleft.parks_length, htimer, outPacket_stands hleft.stands, hleft.mem, hleft.pending, hleft.time⟩

theorem exec_output_leaves (hack : dstV (iDst0 f.w) = false) (hat : emits = b2n emitAt) : Completes i s (OutLeft emits f u) := by
  subst hat
  have hc : f.c < 128 := (fired_place hfired).1 ▸ c.isLt
  refine completes_next ((exec_parking hexec hheld hfired).trans (by rw [outBody_leaves hsound hack, Option.getD_some])) ?_
  have hstands := send_stands (outPacket_travels (emits := b2n emitAt) (ack := 0) (u := u) (ret := peRet u f) hc) (outPacket_deliverable hpkg)
  have hsteady := (Steady.refl u).send (f := outPacket (b2n emitAt) 0 f u (peRet u f))
  exact ⟨(LeavesFirings.refl _).send.parks, outPacket_stands hstands, (Carries.refl _).send.mem, hsteady.pending, hsteady.time⟩
end

/-- Settles O27: each operation that waits runs its body on the firing; `exec_bank_*`, `exec_query` and `exec_output_*` say what it leaves. -/
theorem requestsLeaveTheirPe : Obligations.RequestsLeaveTheirPe := by
  unfold Obligations.RequestsLeaveTheirPe
  refine ⟨?loadDirect, ?loadRemote, ?storeDirect, ?storeRemote, ?readDirect, ?readRemote, ?writeDirect, ?writeRemote, ?iclrDirect, ?iclrRemote,
    ?addDirect, ?addRemote, ?swapDirect, ?swapRemote, ?full, ?malformed, ?angleAt, ?timeAt, ?outParks, ?outLeaves, ?emitParks, ?emitLeaves⟩
  case loadDirect | storeDirect | readDirect | writeDirect | iclrDirect | addDirect | swapDirect =>
    intro c pe err f u e s hheld hfired hsound haddr hpark
    exact exec_bank_direct rfl hheld hfired hsound haddr hpark
  case loadRemote | storeRemote | readRemote | writeRemote | iclrRemote | addRemote | swapRemote =>
    intro c pe err f u e s hheld hfired hsound haddr hpark
    exact exec_bank_remote rfl hheld hfired hsound haddr hpark
  case full =>
    intro c pe err f u s hheld hfired hsound haddr
    exact exec_bank_full rfl hheld hfired hsound haddr
  case malformed =>
    intro c pe err f u s hheld hfired hsound
    exact exec_bank_malformed rfl hheld hfired hsound
  case angleAt | timeAt =>
    intro c pe err f u e s hheld hfired hsound hpark hno hpkg
    exact exec_query rfl hheld hfired hsound hpark hno hpkg rfl
  case outParks | emitParks =>
    intro c pe err f u e s hheld hfired hsound hack hpark hno hpkg
    exact exec_output_parks rfl hheld hfired hsound hpkg hack hpark hno rfl
  case outLeaves | emitLeaves =>
    intro c pe err f u s hheld hfired hsound hack hpkg
    exact exec_output_leaves rfl hheld hfired hsound hpkg hack rfl

end Sys2Proof.Machine
end

section
/-!
SUPPORT. The life of a context: ALLOC's wait list, the grant of a block, FREE and the release at the allocator, and RETURN (R82–R84, R123–R132; O26).
-/
set_option Elab.async false
namespace Sys2Proof.Machine
open Sys2Proof

/-! ### ALLOC and the grant (R83, R126–R130) -/

theorem execAlloc_fired {c : Fin 128} {pe : Fin 16} {err : FireErr} {f : Firing} {u s : State}
    (hroom : (s.cl.waits.filter fun x => x.cluster = c.val).length < 64) (hfired : fired s c pe .alloc err = some (f, u)) :
    exec (.alloc c pe err) s = .next (allocBody f u) := by
  change execAlloc c pe err s = _
  rw [execAlloc, if_neg (Nat.not_le.2 hroom), fireWith_fired hfired]

theorem execAlloc_full {c : Fin 128} {s : State} (pe : Fin 16) (err : FireErr)
    (hfull : 64 ≤ (s.cl.waits.filter fun x => x.cluster = c.val).length) : exec (.alloc c pe err) s = .next s := by
  change execAlloc c pe err s = _
  rw [execAlloc, if_pos hfull]

section
variable {f : Firing} {s : State} (hsound : f.poison = none)
include hsound

theorem allocBody_waits {q : ℕ} (hpool : poolOf s (f.c / 4) f.part (iK f.w % 8) = some q) : allocBody f s =
    { s with cl := { s.cl with waits := s.cl.waits ++ [⟨f.c, f.pe, 0, f.w, f.base, f.due, f.l.1, 0, 0, 0, none, false⟩] } } := by
  have hpool' : poolOf s (regionOf f.c) f.part (gOf f.w) = some q := hpool
  simp only [allocBody, hsound, hpool']

theorem allocBody_refused (hpool : poolOf s (f.c / 4) f.part (iK f.w % 8) = none) : allocBody f s =
    reportP 11 (loc 2 f.c) 0 f.part (f.emit (poisonData causeErr (0x800001000 + 0x100 * f.part)) true [iDst0 f.w] s) := by
  have hpool' : poolOf s (regionOf f.c) f.part (gOf f.w) = none := hpool
  simp only [allocBody, hsound, hpool']
end

/-- A pool's blocks stand in ascending order, so the first free one is the lowest. -/
theorem freeBlocks_sorted (s : State) (r p q : ℕ) : (freeBlocks s r p q).Pairwise (· ≤ ·) := by
  unfold freeBlocks poolBlocks
  refine .filter _ (.filter _ (.map _ (fun a b hab => ?_) (List.pairwise_lt_range)))
  exact Nat.add_le_add_left (Nat.mul_le_mul_right _ hab.le) _

/-- The free block at the head of a pool's list is the lowest. -/
theorem freeBlocks_head_le {s : State} {r p q b : ℕ} {bs : List ℕ} (h : freeBlocks s r p q = b :: bs) : ∀ c ∈ bs, b ≤ c :=
  (List.pairwise_cons.1 (h ▸ freeBlocks_sorted s r p q)).1

section
variable {s : State} {e : PassErr} {f : Firing} {ds : List ℕ} {k : State → State} (harm : s.flag F.injCtl_ARM 0 = false)
include harm

theorem stdGoOn_good (hword : routineWord e = none) : stdGoOn e f ds k s = k s := by
  simp [stdGoOn, stdPass, takeInjection_unarmed harm, hword]

theorem stdGoOn_failing {w : ℕ} (hword : routineWord e = some w) : stdGoOn e f ds k s = machineCheck f w false false false none ds s := by
  simp [stdGoOn, stdPass, takeInjection_unarmed harm, hword]
end

/-- A pool's request `x` has block `b`. -/
abbrev withBlock (r p q : ℕ) (x : Park) (b : ℕ) (s : State) : State :=
  { s with cl := { s.cl with waits := s.cl.waits.erase x, blocks := s.cl.blocks ++ [⟨p, r, q, b, s.get F.poolCfg_G (r * 32 + p * 4 + q), s.t⟩] } }

/-- The grant is counted as progress and in the pool's low water mark (R126). -/
abbrev grantCounted (r p q : ℕ) (x : Park) (b : ℕ) (s : State) : State :=
  countProg p ((withBlock r p q x b s).set F.poolStat_LWM (r * 32 + p * 4 + q)
    (min (s.get F.poolStat_LWM (r * 32 + p * 4 + q)) (freeBlocks (withBlock r p q x b s) r p q).length))

section
variable {r : Fin 32} {p : Fin 8} {q : PoolPass} {x : Park} {s : State} (hon : s.fabricOn (r.val * 4) = true)
  (hfirst : minBy (fun x => sdiff x.due s.t) ((poolWaits s r p q.pool).filter fun x => s.cState x.cluster = 2 || s.cState x.cluster = 3) = some x)
  (hrun : s.pState p ≠ pHalted)
include hon hfirst hrun

theorem exec_allocGrant_holds (hwait : canResume s x.cluster x.pe q.err = false) : exec (.allocGrant r p q) s = .next s := by
  change execAllocGrant r p q s = _
  cases hfree : freeBlocks s r p q.pool <;> simp [execAllocGrant, hon, hrun, allocGrant, hfirst, hfree, hwait]

variable {b : ℕ} {bs : List ℕ} (hfree : freeBlocks s r p q.pool = b :: bs) (hready : canResume s x.cluster x.pe q.err = true)
include hfree hready

/-- The earliest-due request takes the lowest free block, and its firing's routine goes on (R128). -/
theorem exec_allocGrant_grants : exec (.allocGrant r p q) s = .next (stdGoOn q.err (parkedFiring x) [iDst0 x.word]
    (emitTo x.cluster x.pe x.tag b x.due x.l false (iDst0 x.word)) (grantCounted r p q.pool x b s)) := by
  change execAllocGrant r p q s = _
  simp only [execAllocGrant, hon, hrun, allocGrant, hfirst, hfree, hready, Bool.not_true, ne_eq, not_false_eq_true, decide_true, Bool.and_true,
    if_true, Bool.false_eq_true, if_false]
  rfl

variable (harm : s.flag F.injCtl_ARM 0 = false)
include harm

omit hon hfirst hrun hfree hready in
theorem grantCounted_unarmed : (grantCounted r p q.pool x b s).flag F.injCtl_ARM 0 = false :=
  (State.flag_set_ne _ F.poolStat_LWM F.injCtl_ARM _ _ _ (by decide)).trans harm

theorem exec_allocGrant_checked {w : ℕ} (hword : routineWord q.err = some w) : exec (.allocGrant r p q) s =
    .next (machineCheck (parkedFiring x) w false false false none [iDst0 x.word] (grantCounted r p q.pool x b s)) := by
  rw [exec_allocGrant_grants hon hfirst hrun hfree hready, stdGoOn_failing (grantCounted_unarmed harm) hword]

theorem exec_allocGrant_emits (hword : routineWord q.err = none) : exec (.allocGrant r p q) s =
    .next (emitTo x.cluster x.pe x.tag b x.due x.l false (iDst0 x.word) (grantCounted r p q.pool x b s)) := by
  rw [exec_allocGrant_grants hon hfirst hrun hfree hready, stdGoOn_good (grantCounted_unarmed harm) hword]
end

/-! ### FREE and the release (R83, R131) -/

section
variable {f : Firing} {s : State} (hsound : f.poison = none)
include hsound

theorem freeBody_refused (h : f.ctx / 2 ^ (iK f.w % 8) = 0 ∨ granuleOwner s f.part f.ctx = none) :
    freeBody f s = reportP 11 (loc 2 f.c) 0 f.part s := by
  have h' : f.ctx / 2 ^ gOf f.w = 0 ∨ granuleOwner s f.part f.ctx = none := h
  by_cases hzero : f.ctx / 2 ^ gOf f.w = 0
  · simp only [freeBody, hsound, hzero, if_true]
  · simp only [freeBody, hsound, hzero, if_false, h'.resolve_left hzero]

theorem freeBody_releases {r q : ℕ} (hblock : f.ctx / 2 ^ (iK f.w % 8) ≠ 0) (howner : granuleOwner s f.part f.ctx = some (r, q)) :
    freeBody f s = send (Flit.ofFiring (mkFlit 1 false (reqPay (mkTag s.pkg (r / 4) (r % 4 * 4) 0 0 0 0 0 ||| 0x800000000) (w48 f.ctx) 11 f.part false
      (s.pkg * 2 ^ 15 + f.c / 16 * 2 ^ 11 + f.c % 16 * 2 ^ 7 + f.pe * 8) (iK f.w % 8)) [] f.part (startUrg s f.part (dueBand s f.due)) f.c)
      f.base f.due) s := by
  have hblock' : ¬f.ctx / 2 ^ gOf f.w = 0 := hblock
  simp only [freeBody, hsound, hblock', if_false, howner]
  rfl
end

/-- The base of the block of a size that holds a context (R125). -/
abbrev blockBase (ctx g : ℕ) : ℕ := ctx / 2 ^ g * 2 ^ g

/-- A release names a granted block at the allocator that owns its granule, with its pool's size (R131). -/
abbrev releases (s : State) (p ctx g : ℕ) : Bool :=
  match granuleOwner s p ctx with
  | some (r, q) => decide (s.get F.poolCfg_G (r * 32 + p * 4 + q) = g) && decide (blockBase ctx g ≠ 0) &&
      (s.cl.blocks.any fun b => b.part = p && b.base = blockBase ctx g)
  | none => false

section
variable {s : State} {p ctx g c : ℕ}

theorem applyRelease_frees (h : releases s p ctx g = true) : applyRelease p ctx g c s =
    { s with cl := { s.cl with blocks := s.cl.blocks.filter fun b => !(b.part = p && b.base = blockBase ctx g) } } := by
  unfold releases at h
  split at h
  · rename_i r q howner
    simp only [Bool.and_eq_true, decide_eq_true_eq] at h
    obtain ⟨⟨hsize, hbase⟩, hblock⟩ := h
    have hgood : ¬(blockBase ctx g = 0 ∨ s.get F.poolCfg_G (poolIdx r p q) ≠ g ∨
        !(s.cl.blocks.any fun b => b.part = p && b.base = blockBase ctx g)) := by
      rintro (h | h | h)
      · exact hbase h
      · exact h hsize
      · simp [hblock] at h
    simp only [applyRelease, howner]
    exact if_neg hgood
  · cases h

theorem applyRelease_refused (h : releases s p ctx g = false) : applyRelease p ctx g c s = reportP 11 (loc 2 c) 0 p s := by
  unfold releases at h
  split at h
  · rename_i r q howner
    have hbad : blockBase ctx g = 0 ∨ s.get F.poolCfg_G (poolIdx r p q) ≠ g ∨
        !(s.cl.blocks.any fun b => b.part = p && b.base = blockBase ctx g) := by
      by_contra hgood
      rw [not_or, not_or, not_not, Bool.not_eq_true, Bool.not_eq_false'] at hgood
      obtain ⟨hbase, hsize, hblock⟩ := hgood
      have hsize' : s.get F.poolCfg_G (r * 32 + p * 4 + q) = g := hsize
      rw [hblock, decide_eq_true hsize', decide_eq_true hbase] at h
      cases h
    simp only [applyRelease, howner]
    exact if_pos hbad
  · rename_i howner
    simp only [applyRelease, howner]
end

section
variable {f : Flit} {rest : List Flit} {s : State} (hlive : s.fatal = false) (hq : s.net.relQ = f :: rest)
include hlive hq

theorem exec_release_good (hgood : badReq f = false) : exec .release s =
    .next (applyRelease (reqPart f.pay) ((reqData f.pay).toNat % 2 ^ 14) (reqArg f.pay % 8)
      (cIdx (bits (reqRet f.pay) 11 4) (bits (reqRet f.pay) 7 4)) { s with net := { s.net with relQ := rest } }) := by
  change execRelease s = _
  simp only [execRelease, unlessFatal_live hlive, releaseStep, hq, hgood, Bool.false_eq_true, if_false]

theorem exec_release_malformed (hbad : badReq f = true) : exec .release s =
    .next (reqErr (loc 2 f.node) f { s with net := { s.net with relQ := rest } }) := by
  change execRelease s = _
  simp only [execRelease, unlessFatal_live hlive, releaseStep, hq, hbad, if_true]
end

/-! ### RETURN (R84, R116) -/

section
variable {f : Firing} {s : State}

theorem retBody_sends {g : W} (hl : f.l.2 = false) (hr : f.r.2 = false) (hlink : linkTarget s f f.r.1 = some g) :
    retBody f s = emitToken f.c f.pe ⟨g, f.due, f.l.1, false⟩ s := by
  simp only [retBody, hl, hr, Bool.false_eq_true, if_false, hlink]

theorem retBody_discards (hl : f.l.2 = false) (hr : f.r.2 = false) (hlink : linkTarget s f f.r.1 = none) :
    retBody f s = reportP 5 (loc 2 f.c) 0 f.part s := by
  simp only [retBody, hl, hr, Bool.false_eq_true, if_false, hlink]

theorem retBody_poisoned (hr : f.r.2 = true) : retBody f s = poisonTrap f s := by
  simp only [retBody, hr, if_true]
end

/-- Settles O26: ALLOC, FREE and RETURN by the cases of their bodies; ALLOC_GRANT and RELEASE by the cases of their steps. -/
theorem contextsAreGrantedAndReleased : Obligations.ContextsAreGrantedAndReleased := by
  unfold Obligations.ContextsAreGrantedAndReleased
  refine ⟨?waits, ?noPool, ?full, ?grant, ?checked, ?holds, ?freeRefused, ?freeSends, ?released, ?notReleased, ?malformed, ?returns, ?badLink,
    ?poisonedLink⟩
  case waits =>
    intro c pe err f u q s hfired hsound hroom hpool
    rw [execAlloc_fired hroom hfired, allocBody_waits hsound hpool]
  case noPool =>
    intro c pe err f u s hfired hsound hroom hpool
    rw [execAlloc_fired hroom hfired, allocBody_refused hsound hpool]
  case full => exact fun c pe err s hfull => execAlloc_full pe err hfull
  case grant =>
    intro r p q x b bs s hon hfirst hfree hready hword harm hrun
    have hexec := exec_allocGrant_emits hon hfirst hrun hfree hready harm hword
    have hleft := LeavesFirings.refl (grantCounted r p q.pool x b s)
    have hsteady := (Steady.refl s).exec _ rfl _ hexec
    exact completes_next hexec ⟨rfl, freeBlocks_head_le hfree, hleft.emitTo.waits, hleft.emitTo.blocks,
      (Carries.refl (grantCounted r p q.pool x b s)).emitTo.mem, hsteady.pending, hsteady.time⟩
  case checked =>
    intro r p q x b w bs s hon hfirst hfree hready hword harm hrun
    exact completes_next (exec_allocGrant_checked hon hfirst hrun hfree hready harm hword) rfl
  case holds => exact fun r p q x s hon hfirst hwait hrun => exec_allocGrant_holds hon hfirst hrun hwait
  case freeRefused =>
    intro c pe err f u s hfired hsound hbad
    rw [exec_fired rfl hfired, freeBody_refused hsound hbad]
  case freeSends =>
    intro c pe err f u r q s hfired hsound hblock howner
    rw [exec_fired rfl hfired, freeBody_releases hsound hblock howner]
  case released =>
    intro f rest s hlive hq hgood h
    rw [exec_release_good hlive hq hgood, applyRelease_frees (s := { s with net := { s.net with relQ := rest } }) h]
  case notReleased =>
    intro f rest s hlive hq hgood h
    rw [exec_release_good hlive hq hgood, applyRelease_refused (s := { s with net := { s.net with relQ := rest } }) h]
  case malformed => exact fun f rest s hlive hq hbad => exec_release_malformed hlive hq hbad
  case returns =>
    intro c pe err f u g s hfired hl hr hlink
    rw [exec_fired rfl hfired, retBody_sends hl hr hlink]
  case badLink =>
    intro c pe err f u s hfired hl hr hlink
    rw [exec_fired rfl hfired, retBody_discards hl hr hlink]
  case poisonedLink =>
    intro c pe err f u s hfired hr
    rw [exec_fired rfl hfired, retBody_poisoned hr]

end Sys2Proof.Machine
end

section
/-!
SUPPORT. A one-word user routine, the response that brings a parked firing on, and the answer of a deferred READ (R148, R152, R154, R295; O28).
-/
set_option Elab.async false
namespace Sys2Proof.Machine
open Sys2Proof

/-! ### The parts of one microword (R148, R149) -/

/-- The free-value counter stands at `n`, and the rest as before. -/
def withFree (n : ℕ) (s : State) : State := { s with free := n }

section
variable {f : Firing} {m : MicroSt} {w : ℕ} {s : State}

theorem uRead_left (hports : readPorts s f.c (iOpc f.w) % 4 = 3) : uRead f m w 1 s = (f.l.1, s) := by
  have hleft : readPorts s f.c (iOpc f.w) % 2 = 1 := by omega
  simp [uRead, uSource, hleft]

theorem uRead_right (hports : readPorts s f.c (iOpc f.w) % 4 = 3) : uRead f m w 2 s = (f.r.1, s) := by
  have hright : readPorts s f.c (iOpc f.w) / 2 % 2 = 1 := by omega
  simp [uRead, uSource, hright]

/-- A source that the spec gives no value takes a free one, and moves the free-value counter alone. -/
theorem uRead_free (f : Firing) (m : MicroSt) (w code : ℕ) (s : State) : ∃ v n, uRead f m w code s = (v, withFree n s) := by
  unfold uRead
  split
  · exact ⟨_, s.free, rfl⟩
  · exact ⟨_, _, rfl⟩

theorem uStart_first (f : Firing) (upc : ℕ) (s : State) : ∃ mt n, uStart f upc s =
    (⟨upc, [], mt, 0, none, none, f.t0, 0, 0, 0, mget 0 s.cl.arith (f.part * 2 + f.ep)⟩, withFree n s) := ⟨_, _, rfl⟩

theorem setMt_stk (m : MicroSt) (d : ℕ) (v : W) : (setMt m d v).stk = m.stk := by
  unfold setMt
  split <;> rfl

theorem setSticky_none (p : ℕ) (s : State) : setSticky p 0 s = s := by simp [setSticky]

theorem dsts_length_le (f : Firing) (s : State) : (f.dsts s).length ≤ 6 := by
  unfold Firing.dsts dstFields
  split <;> simp

/-- A firing that has served no field emits to its valid fields. -/
theorem unserved_fields (hserved : m.served = 0) : (unserved s f m).map (·.2) = (f.dsts s).filter dstV := by
  have hfields : ((List.range 6).zip (f.dsts s)).map (·.2) = f.dsts s :=
    List.map_snd_zip ((dsts_length_le f s).trans_eq List.length_range.symm)
  simp only [unserved, hserved, Nat.zero_div, Nat.zero_mod, decide_true, Bool.and_true]
  conv_rhs => rw [← hfields]
  rw [List.filter_map]
  rfl

/-- A word that emits its result to every field (R148: EMIT 2, ESRC 15, EPOI 0). -/
theorem uEmission_result {v : W} (hemit : uEmit w = 2) (hpoison : uEpoi w = 0) (hsrc : uEsrc w = 15) (hserved : m.served = 0) :
    ∃ k, uEmission f m w (some v) s = ({ m with served := k }, f.emit v false ((f.dsts s).filter dstV) s) := by
  refine ⟨(unserved s f m).foldl (fun a x => a ||| 2 ^ x.1) m.served, ?_⟩
  simp only [uEmission, uToken, hemit, hpoison, hsrc, if_true, uEmitTo, ← unserved_fields hserved]
  rfl

/-- A word that does not branch has the condition code 0 (R155). -/
theorem uCond_of_fields (hfields : uFieldsBad w = false) (hseq : uSeq w = 5) : uCond w = 0 := by
  unfold uFieldsBad at hfields
  split at hfields
  · by_contra hcond
    simp [hseq, hcond] at hfields
  · cases hfields

/-- A good word that ends its routine without a request is not bad as the first of a routine (R155). -/
theorem uBad_first (hfields : uFieldsBad w = false) (hupc : 0x600 ≤ m.upc) (hcount : m.count = 0) (hseq : uSeq w = 5) (hreq : uReq w = 0)
    (hemit : uEmit w = 2) : uBad m w = false := by
  have hupc' : ¬m.upc < 0x600 := Nat.not_lt.2 hupc
  simp [uBad, hfields, hupc', hcount, hseq, hreq, hemit]
end

theorem withFree_withFree (n k : ℕ) (s : State) : withFree n (withFree k s) = withFree n s := rfl

theorem dsts_withFree (f : Firing) (n : ℕ) (s : State) : f.dsts (withFree n s) = f.dsts s := by
  have hinstr (c i : ℕ) : (withFree n s).instr c i = s.instr c i := readN_of_mem rfl _ _
  unfold Firing.dsts dstFields
  simp only [hinstr]

/-! ### A routine of one word (R152) -/

/-- The word reads L and R, adds no unit operation or request, emits its ALU result to every field without a trap, and ends the routine. -/
structure EmitsAlu (w : ℕ) : Prop where
  fields : uFieldsBad w = false
  seq : uSeq w = 5
  req : uReq w = 0
  xu : uXu w = 0
  emit : uEmit w = 2
  epoi : uEpoi w = 0
  esrc : uEsrc w = 15
  ten : uTen w % 2 = 0
  asrc : uAsrc w = 1
  bsrc : uBsrc w = 2

theorem uStep_emitsAlu {f : Firing} {m : MicroSt} {w : ℕ} {s : State} {v : W} {b : Stk} (hw : EmitsAlu w)
    (hports : readPorts s f.c (iOpc f.w) % 4 = 3) (hserved : m.served = 0) (hstk : m.stk = 0)
    (halu : aluResult m (uAlu w) f.l.1 f.r.1 = some (v, b)) : ∃ n, (uStep f m w s).map (fun x => (x.1.next, x.1.trap, x.2)) =
    some (.ended, false, setSticky f.part (if uStk w then b else 0) (f.emit v false ((f.dsts s).filter dstV) (withFree n s))) := by
  obtain ⟨xa, n₁, hxa⟩ := uRead_free f m w (uXa w) s
  obtain ⟨xb, n₂, hxb⟩ := uRead_free f m w (uXb w) (withFree n₁ s)
  obtain ⟨xc, n₃, hxc⟩ := uRead_free f m w (uXc w) (withFree n₂ s)
  obtain ⟨q, n₄, hq⟩ := uRead_free f m w (uRsrc w) (withFree n₃ s)
  obtain ⟨k, hemits⟩ := uEmission_result (f := f) (s := withFree n₄ s) (v := v) hw.emit hw.epoi hw.esrc hserved
  have hleft : uRead f m w (uAsrc w) s = (f.l.1, s) := by rw [hw.asrc, uRead_left hports]
  have hright : uRead f m w (uBsrc w) s = (f.r.1, s) := by rw [hw.bsrc, uRead_right hports]
  have hunit : unitResult m (uXu w) (uXop w) xa xb xc = none := by rw [hw.xu]; rfl
  have hcond (alu : Option AR) (carry ovf : Option Bool) (unit : Option AR) (t : State) :
      uCondition f m w alu carry ovf unit t = (true, t) := by simp only [uCondition, uCond_of_fields hw.fields hw.seq]
  have hnotrap (m' : MicroSt) (st : Stk) : uTraps m' w st = false := by simp [uTraps, hw.ten]
  have hnoreq (m' : MicroSt) (d : W) (t : State) : uRequest f m' w q d t = some (.done, t) := by simp [uRequest, hw.req]
  have hgather (m' : MicroSt) (h : m'.stk = 0) :
      (if uStk w then { m' with stk := m'.stk ||| (b ||| Stk.none) } else m').stk = if uStk w then b else 0 := by
    split <;> simp [h, Stk.none]
  simp only [uStep, hleft, hright, hxa, hxb, hxc, hq, withFree_withFree, halu, hunit, hcond, hemits, dsts_withFree, hw.seq, hnotrap, hnoreq, Option.isSome_none,
    Bool.false_eq_true, and_false, if_false, if_true, or_true, setGathered, Option.map_some]
  exact ⟨n₄, congrArg some (congrArg (fun g => (_, _, setSticky f.part g _)) (hgather _ ((setMt_stk _ _ _).trans hstk)))⟩

/-- A good first word of that kind is the whole run of its routine. -/
theorem uRun_emitsAlu {e : PassErr} {f : Firing} {m : MicroSt} {w k : ℕ} {s : State} {v : W} {b : Stk} (hw : EmitsAlu w)
    (hword : s.uword f.c m.upc = w) (hparity : parityGroups w = 0) (he : e.parity = none) (hupc : 0x600 ≤ m.upc) (hcount : m.count = 0)
    (hports : readPorts s f.c (iOpc f.w) % 4 = 3) (hserved : m.served = 0) (hstk : m.stk = 0)
    (halu : aluResult m (uAlu w) f.l.1 f.r.1 = some (v, b)) :
    ∃ n, uRun e f (k + 1) m s = setSticky f.part (if uStk w then b else 0) (f.emit v false ((f.dsts s).filter dstV) (withFree n s)) := by
  obtain ⟨n, hstep⟩ := uStep_emitsAlu hw hports hserved hstk halu
  obtain ⟨⟨r, t⟩, hr, heq⟩ := Option.map_eq_some_iff.1 hstep
  obtain ⟨hended, htrap, rfl⟩ : r.next = .ended ∧ r.trap = false ∧ t = _ := by simpa using heq
  have hbad := uBad_first (m := m) hw.fields hupc hcount hw.seq hw.req hw.emit
  refine ⟨n, ?_⟩
  simp [uRun, hword, hparity, he, hbad, hr, hended, htrap]

section
variable {c : Fin 128} {pe : Fin 16} {err : FireErr} {f : Firing} {u s : State} (hfired : fired s c pe .user err = some (f, u))
include hfired

theorem heldSeq_of_fired : s.heldSeq c pe = none := by
  have hcan := (fired_some hfired).1
  simp only [canFire, Bool.and_eq_true, Option.isNone_iff_eq_none] at hcan
  exact hcan.2

theorem exec_userOperation_fired : exec (.userOperation c pe err) s = .next (userBody err.pass f u) := by
  change execUserOperation c pe err s = _
  rw [execUserOperation, heldSeq_of_fired hfired, Option.isSome_none, if_neg Bool.false_ne_true, fireWith_fired hfired]

theorem exec_userOperation_emits {w : ℕ} {v : W} {b : Stk} (hsound : f.poison = none) (hpass : err.pass = .good)
    (hentry : u.get F.dispatch_ENTRY (f.c * 1024 + iOpc f.w) ≥ 0x600) (hword : w = u.uword f.c (u.get F.dispatch_ENTRY (f.c * 1024 + iOpc f.w)))
    (hparity : parityGroups w = 0) (hw : EmitsAlu w) (hports : readPorts u f.c (iOpc f.w) % 4 = 3)
    (halu : aluResult ⟨0, [], [], 0, none, none, 0, 0, 0, 0, mget 0 u.cl.arith (f.part * 2 + f.ep)⟩ (uAlu w) f.l.1 f.r.1 = some (v, b)) :
    Completes (.userOperation c pe err) s fun t => ∃ n : ℕ,
      t = (if uStk w then setSticky f.part b else id) (f.emit v false ((f.dsts u).filter dstV) { u with free := n }) := by
  obtain ⟨mt, n, hstart⟩ := uStart_first f (u.get F.dispatch_ENTRY (f.c * 1024 + iOpc f.w)) u
  have hsame (c upc : ℕ) : (withFree n u).uword c upc = u.uword c upc := readN_of_mem rfl _ _
  obtain ⟨k, hrun⟩ := uRun_emitsAlu (e := err.pass) (f := f) (s := withFree n u) (k := 513) (v := v) (b := b)
    (m := ⟨u.get F.dispatch_ENTRY (f.c * 1024 + iOpc f.w), [], mt, 0, none, none, f.t0, 0, 0, 0, mget 0 u.cl.arith (f.part * 2 + f.ep)⟩)
    hw ((hsame _ _).trans hword.symm) hparity (by rw [hpass]; rfl) hentry rfl hports rfl rfl halu
  refine completes_next (exec_userOperation_fired hfired) ⟨k, ?_⟩
  simp only [userBody, hsound, hstart, hrun, dsts_withFree, withFree_withFree]
  cases uStk w
  · exact setSticky_none _ _
  · rfl

theorem exec_userOperation_poisoned {v : W} (hpoison : f.poison = some v) :
    exec (.userOperation c pe err) s = .next (poisonOut f v (f.dsts u) u) := by
  rw [exec_userOperation_fired hfired, userBody, hpoison]
end

/-! ### Responses (R154, R275) -/

theorem continueUser_idle {c pe : ℕ} {e : PassErr} {s : State} (h : s.heldSeq c pe = none) : continueUser c pe e s = s := by
  simp only [continueUser, h]

theorem setOr_cl (f : Fld) (i : ℕ) (v : Option ℕ) (s : State) : (s.setOr f i v).cl = s.cl := by cases v <;> rfl

/-- A micro-trap touches registers and the free-value counter alone. -/
theorem microTrap_cl (c pe cause : ℕ) (tag : W) (v : Saved) (s : State) : (microTrap c pe cause tag v s).cl = s.cl := by
  have hmt (t : State) : ((List.range 4).foldl (fun s k => s.setOr F.tfMt_VALUE ((c * 16 + pe) * 4 + k) (v.mt[k]?.map (·.toNat))) t).cl = t.cl :=
    foldl_leaves (fun t k => setOr_cl _ _ _ t) _ t
  have hfree (t : State) : (t.freeVal 3).2.cl = t.cl := rfl
  unfold microTrap
  cases v.stack <;> simp only [hmt, setOr_cl, State.set_cl, hfree, State.inc]

/-- The parked firing has left its entry, its response is taken, and its progress counted. -/
abbrev takenUp (f : Flit) (p : Park) (rest : List Park) (s : State) : State :=
  countProg (tagPart p.tag) { s with net := { s.net with rspQ := s.net.rspQ.erase f }, cl := { s.cl with parks := rest } }

theorem LeavesFirings.resumeStandard {p : Park} {v extra : W} {poison : Bool} {s : State} :
    LeavesFirings s (resumeStandard p v extra poison s) := by
  have h := LeavesFirings.refl s
  unfold Machine.resumeStandard
  dsimp only
  split
  · exact h.emit
  split
  · exact h.emit.emit
  · exact h.emit.emit
  all_goals exact h.emit

theorem routineWord_of_parity {e : PassErr} (h : e.parity = none) : routineWord e = none := by simp only [routineWord, h]

theorem userResume_unarmed {f : Firing} {m : MicroSt} {e : PassErr} {s : State} (harm : s.flag F.injCtl_ARM 0 = false) :
    userResume f m e s = uRun e f 514 m s := by simp only [userResume, takeInjection_unarmed harm]

theorem resumeStandard_value {p : Park} {v extra : W} {s : State}
    (hcls : opClass (iOpc p.word) ∉ [OpClass.angleAt, OpClass.timeAt, OpClass.out, OpClass.emitAt]) :
    resumeStandard p v extra false s = (parkedFiring p).emit v false ((parkedFiring p).dsts s) s := by
  simp only [List.mem_cons, List.not_mem_nil, or_false, not_or] at hcls
  obtain ⟨hangle, htime, hout, hemit⟩ := hcls
  simp only [resumeStandard, Bool.false_eq_true, if_false]
  split
  · rename_i h; exact absurd h hangle
  · rename_i h; exact absurd h htime
  · rfl
  · rfl
  · rfl
  · rename_i h; exact absurd h hout
  · rename_i h; exact absurd h hemit
  · rfl

section
variable {c : Fin 128} {pe : Fin 16} {err : PassErr} {f : Flit} {s : State} (hon : s.fabricOn c = true) (hheld : s.heldSeq c pe = none)
  (hrsp : nextRsp s c pe = some f)
include hon hheld

/-- A response that leaves the held sequencers is the whole step, where no firing holds the PE's. -/
theorem exec_response_of {t : State} (h : response c pe err s = t) (ht : t.cl.seqHeld = s.cl.seqHeld) :
    exec (.response c ⟨pe, err⟩) s = .next t := by
  have hidle : t.heldSeq c pe = none := by rw [State.heldSeq, ht]; exact hheld
  change execResponse c ⟨pe, err⟩ s = _
  rw [execResponse, onFabric_on hon, h, continueUser_idle hidle]

include hrsp

theorem exec_response_stray
    (hnone : takeFirst (fun p : Park => p.cluster = c.val && p.pe = pe.val && p.entry = rspRet f.pay % 8) s.cl.parks = none) :
    exec (.response c ⟨pe, err⟩) s = .next (({ s with net := { s.net with rspQ := s.net.rspQ.erase f } } : State).inc F.rtrStat_STRAY c) :=
  exec_response_of hon hheld (by simp only [response, hrsp, hnone]) rfl

variable {p : Park} {rest : List Park}
  (hpark : takeFirst (fun p : Park => p.cluster = c.val && p.pe = pe.val && p.entry = rspRet f.pay % 8) s.cl.parks = some (p, rest))
  (hready : canResume s c pe err = true) (herr : err.parity = none) (harm : s.flag F.injCtl_ARM 0 = false)
  (hpass : filtered s (tagPart p.tag) (tagCtx p.tag) = false)
include hpark hready herr harm hpass

omit harm in
/-- A deferred READ takes its micro-trap, and no word of the handler fails. -/
theorem exec_response_defers (hdefer : pf f.pay 121 4 = 1) (hclean : f.poison = false) (hstd : p.user = none) :
    exec (.response c ⟨pe, err⟩) s = .next (microTrap p.cluster p.pe 3 p.tag Saved.std (takenUp f p rest s)) := by
  have hpass' : filtered { s with net := { s.net with rspQ := s.net.rspQ.erase f } } (tagPart p.tag) (tagCtx p.tag) = false := hpass
  refine exec_response_of hon hheld ?_ (by rw [microTrap_cl]; rfl)
  simp [response, hrsp, hpark, hready, hpass', hdefer, hclean, deferTrap, hstd, runHandler, handlerWord, herr]

variable (hanswer : pf f.pay 121 4 ≠ 1 ∨ f.poison = true)
include hanswer

omit hon hheld herr harm in
/-- What an answer does to the firing that it brings on. -/
theorem response_resumes : response c pe err s = if p.detached then takenUp f p rest s else
    p.user.elim (stdResume p (w48 (pf f.pay 48 48)) (w48 (pf f.pay 0 48)) f.poison err (takenUp f p rest s)) fun m =>
      userResume (parkedFiring p) { m with hi := none, resp := some (w48 (pf f.pay 48 48), f.poison) } err (takenUp f p rest s) := by
  have hpass' : filtered { s with net := { s.net with rspQ := s.net.rspQ.erase f } } (tagPart p.tag) (tagCtx p.tag) = false := hpass
  have hnodefer : ¬(pf f.pay 121 4 = 1 ∧ !f.poison) := by
    rintro ⟨hdefer, hclean⟩
    rcases hanswer with h | h
    · exact h hdefer
    · simp [h] at hclean
  simp only [response, hrsp, hpark, hready, hpass', hnodefer, Bool.not_true, Bool.false_eq_true, if_false]
  cases p.user <;> rfl

omit herr harm in
theorem exec_response_detached (hdet : p.detached = true) : exec (.response c ⟨pe, err⟩) s = .next (takenUp f p rest s) := by
  refine exec_response_of hon hheld ?_ rfl
  rw [response_resumes hrsp hpark hready hpass hanswer, if_pos hdet]

variable (hdet : p.detached = false)
include hdet

theorem exec_response_standard (hstd : p.user = none) : exec (.response c ⟨pe, err⟩) s =
    .next (resumeStandard p (w48 (pf f.pay 48 48)) (w48 (pf f.pay 0 48)) f.poison (takenUp f p rest s)) := by
  have hleft : LeavesFirings (takenUp f p rest s) (resumeStandard p (w48 (pf f.pay 48 48)) (w48 (pf f.pay 0 48)) f.poison (takenUp f p rest s)) :=
    .resumeStandard
  refine exec_response_of hon hheld ?_ hleft.seqHeld
  rw [response_resumes hrsp hpark hready hpass hanswer, if_neg (hdet ▸ Bool.false_ne_true), hstd]
  exact stdGoOn_good harm (routineWord_of_parity herr)

omit hheld herr in
theorem exec_response_user {m : MicroSt} (huser : p.user = some m) : exec (.response c ⟨pe, err⟩) s =
    .next (continueUser c pe err (uRun err (parkedFiring p) 514 { m with hi := none, resp := some (w48 (pf f.pay 48 48), f.poison) }
      (takenUp f p rest s))) := by
  change execResponse c ⟨pe, err⟩ s = _
  rw [execResponse, onFabric_on hon, response_resumes hrsp hpark hready hpass hanswer, if_neg (hdet ▸ Bool.false_ne_true), huser]
  exact congrArg (fun t => Host.Outcome.next (continueUser c pe err t)) (userResume_unarmed harm)
end

/-! ### Deferred answers (R154, R295) -/

/-- The tag of the firing that a deferred answer names (R275). -/
abbrev answerTag (f : Flit) : W := w48 (pf f.pay 96 48) &&& ~~~(0x180001 : W)

/-- The deferred answer is taken, and its progress counted. -/
abbrev answerTaken (f : Flit) (s : State) : State :=
  countProg (tagPart (answerTag f)) { s with net := { s.net with ansQ := s.net.ansQ.erase f } }

/-- The registers of a routine that a deferred answer re-enters (R154). -/
abbrev reentryRegs (c : Fin 128) (f : Flit) (fi : Firing) (s : State) : MicroSt :=
  ⟨s.get F.dispatch_RESUME (c * 1024 + iOpc (s.instr c (tagInstr (answerTag f)))), [], [0, 0, 0, 0], 0, none, some (w48 (pf f.pay 48 48), f.poison),
    s.t, 0, 0, 0, mget 0 s.cl.arith (fi.part * 2 + fi.ep)⟩

/-- The firing that a deferred answer completes, with the operands that are no longer held. -/
abbrev reentered (c : Fin 128) (pe : Fin 16) (f : Flit) (l r g : W) (s : State) : Firing :=
  ⟨c, pe, tagInstr (answerTag f), s.instr c (tagInstr (answerTag f)), answerTag f, (l, false), (r, false), (g, false), w48 (pf f.pay 0 48), s.t⟩

theorem reentryOperand_free (w bit : ℕ) (s : State) : ∃ v n, reentryOperand w bit s = (v, withFree n s) := by
  unfold reentryOperand
  split
  · exact ⟨_, s.free, rfl⟩
  · exact ⟨_, _, rfl⟩

section
variable {c : Fin 128} {pe : Fin 16} {err : PassErr} {f : Flit} {s : State} (hon : s.fabricOn c = true) (hfire : canFire s c pe err = true)
  (herr : err.parity = none) (hdisp : err.dispatch = false) (harm : s.flag F.injCtl_ARM 0 = false) (hans : nextAns s c pe = some f)
  (hpass : filtered s (tagPart (answerTag f)) (tagCtx (answerTag f)) = false)
include hfire hdisp hans hpass

/-- A deferred answer re-enters the routine of a user operation, or goes on with the standard READ. -/
theorem deferredAnswer_goesOn : ∃ n l r g, deferredAnswer c pe err s =
    if opClass (iOpc (s.instr c (tagInstr (answerTag f)))) = .user then
      userResume (reentered c pe f l r g s) (reentryRegs c f (reentered c pe f l r g s) s) err (withFree n (answerTaken f s))
    else stdGoOn err (reentered c pe f l r g s) ((reentered c pe f l r g s).dsts (withFree n (answerTaken f s)))
      ((reentered c pe f l r g s).emit (w48 (pf f.pay 48 48)) f.poison ((reentered c pe f l r g s).dsts (withFree n (answerTaken f s))))
      (withFree n (answerTaken f s)) := by
  obtain ⟨l, n₁, hl⟩ := reentryOperand_free (s.instr c (tagInstr (answerTag f))) 1 (answerTaken f s)
  obtain ⟨r, n₂, hr⟩ := reentryOperand_free (s.instr c (tagInstr (answerTag f))) 2 (withFree n₁ (answerTaken f s))
  obtain ⟨g, n₃, hg⟩ := reentryOperand_free (s.instr c (tagInstr (answerTag f))) 4 (withFree n₂ (answerTaken f s))
  refine ⟨n₃, l, r, g, ?_⟩
  simp only [deferredAnswer, hfire, hans, hpass, hl, hr, hg, withFree_withFree, hdisp, Bool.not_true, Bool.false_eq_true, if_false]

include hon harm

theorem exec_deferredAnswer_user (hcls : opClass (iOpc (s.instr c (tagInstr (answerTag f)))) = .user) :
    Completes (.deferredAnswer c ⟨pe, err⟩) s fun t => ∃ (n : ℕ) (l r g : W), t = uRun err (reentered c pe f l r g s) 514
      (reentryRegs c f (reentered c pe f l r g s) s) (withFree n (answerTaken f s)) := by
  obtain ⟨n, l, r, g, h⟩ := deferredAnswer_goesOn hfire hdisp hans hpass
  rw [if_pos hcls, userResume_unarmed (s := withFree n (answerTaken f s)) harm] at h
  exact completes_next (congrArg Host.Outcome.next ((onFabric_on hon _).trans h)) ⟨n, l, r, g, rfl⟩

include herr

theorem exec_deferredAnswer_read (hcls : opClass (iOpc (s.instr c (tagInstr (answerTag f)))) ≠ .user) :
    Completes (.deferredAnswer c ⟨pe, err⟩) s fun t => ∃ (n : ℕ) (l r g : W), t = (reentered c pe f l r g s).emit (w48 (pf f.pay 48 48)) f.poison
      ((reentered c pe f l r g s).dsts (withFree n (answerTaken f s))) (withFree n (answerTaken f s)) := by
  obtain ⟨n, l, r, g, h⟩ := deferredAnswer_goesOn hfire hdisp hans hpass
  rw [if_neg hcls, stdGoOn_good (s := withFree n (answerTaken f s)) harm (routineWord_of_parity herr)] at h
  exact completes_next (congrArg Host.Outcome.next ((onFabric_on hon _).trans h)) ⟨n, l, r, g, rfl⟩
end

/-- Settles O28: a one-word routine by `uRun_emitsAlu`, a response by the ways that `response_resumes` names, a deferred answer by
`deferredAnswer_goesOn`. -/
theorem userRoutinesAndResponses : Obligations.UserRoutinesAndResponses := by
  unfold Obligations.UserRoutinesAndResponses
  refine ⟨?oneWord, ?poisonedInput, ?stray, ?value, ?angleAt, ?timeAt, ?output, ?poison, ?defers, ?detached, ?user, ?answersRead, ?answersUser⟩
  case oneWord =>
    intro c pe err f u w v b s hfired hsound hpass hentry hword hparity hfields hseq hreq hxu hemit hepoi hesrc hten hasrc hbsrc hports halu
    exact exec_userOperation_emits hfired hsound hpass hentry hword hparity ⟨hfields, hseq, hreq, hxu, hemit, hepoi, hesrc, hten, hasrc, hbsrc⟩
      hports halu
  case poisonedInput => exact fun c pe err f u v s hfired hpoison => exec_userOperation_poisoned hfired hpoison
  case stray => exact fun c pe err f s hon hheld hrsp hnone => exec_response_stray hon hheld hrsp hnone
  case value =>
    intro c pe err f p rest s hon hheld hrsp hpark hready herr harm hpass hanswer hdet hstd hclean hcls
    rw [exec_response_standard hon hheld hrsp hpark hready herr harm hpass hanswer hdet hstd, hclean]
    rw [resumeStandard_value hcls]
  case angleAt =>
    intro c pe err f p rest s hon hheld hrsp hpark hready herr harm hpass hanswer hdet hstd hclean hcls
    rw [exec_response_standard hon hheld hrsp hpark hready herr harm hpass hanswer hdet hstd, hclean]
    simp only [resumeStandard, hcls, Bool.false_eq_true, if_false]
  case timeAt =>
    intro c pe err f p rest s hon hheld hrsp hpark hready herr harm hpass hanswer hdet hstd hclean hcls
    rw [exec_response_standard hon hheld hrsp hpark hready herr harm hpass hanswer hdet hstd, hclean]
    simp only [resumeStandard, hcls, Bool.false_eq_true, if_false]
  case output =>
    intro c pe err f p rest s hon hheld hrsp hpark hready herr harm hpass hanswer hdet hstd hclean hcls
    rw [exec_response_standard hon hheld hrsp hpark hready herr harm hpass hanswer hdet hstd, hclean]
    rcases hcls with hcls | hcls <;> simp only [resumeStandard, hcls, Bool.false_eq_true, if_false]
  case poison =>
    intro c pe err f p rest s hon hheld hrsp hpark hready herr harm hpass hanswer hdet hstd hpoison
    rw [exec_response_standard hon hheld hrsp hpark hready herr harm hpass hanswer hdet hstd, hpoison]
    simp only [resumeStandard, if_true]
  case defers =>
    intro c pe err f p rest s hon hheld hrsp hpark hready herr harm hpass hdefer hclean hstd
    exact exec_response_defers hon hheld hrsp hpark hready herr hpass hdefer hclean hstd
  case detached =>
    intro c pe err f p rest s hon hheld hrsp hpark hready herr harm hpass hanswer hdet
    exact exec_response_detached hon hheld hrsp hpark hready hpass hanswer hdet
  case user =>
    intro c pe err f p rest m s hon hheld hrsp hpark hready herr harm hpass hanswer hdet huser
    exact exec_response_user hon hrsp hpark hready harm hpass hanswer hdet huser
  case answersRead =>
    rintro c pe err f _ s hon hfire herr hdisp harm hans rfl hpass hcls
    exact exec_deferredAnswer_read hon hfire herr hdisp harm hans hpass hcls
  case answersUser =>
    rintro c pe err f _ s hon hfire herr hdisp harm hans rfl hpass hcls
    exact exec_deferredAnswer_user hon hfire hdisp harm hans hpass hcls

end Sys2Proof.Machine
end

section
/-!
SUPPORT. Outputs at their targets: an OUT in time or late, a value that is held, waits or is refused, and the EMIT_AT and OUTPUT_ROOM steps (R91–R93,
R186, R266; O16).
-/
set_option Elab.async false
namespace Sys2Proof.Machine
open Sys2Proof

/-! ### The way of an output packet at the hub (R91, R93) -/

/-- The oldest output packet has left the queue. -/
abbrev popped (q : List Flit) (s : State) : State := { s with net := { s.net with outQ := q } }

/-- An OUT is counted among those that its target took in this tick (R93). -/
abbrev counted (o : OutVal) (s : State) : State :=
  { s with out := { s.out with now := mput s.out.now (o.kind * 65536 + o.index) (outsNow s o + 1) } }

section
variable {f : Flit} {q : List Flit} {s : State} (hlive : s.fatal = false) (hq : s.net.outQ = f :: q)
include hlive hq

theorem exec_output_malformed (hbad : badReq f = true) (hquiet : wantsRsp f = false) :
    exec .output s = .next (reqErr (loc 4 nodeHub) f (popped q s)) := by
  change execOutput s = _
  simp only [execOutput, unlessFatal_live hlive, output, hq, hbad, hquiet, if_true, Bool.false_eq_true, if_false]

variable (hgood : badReq f = false)
include hgood

theorem exec_output_waits (hperf : performed s (outOf f) = true)
    (hwait : (s.out.waiting.any fun w => waitsBehind w (outOf f)) = true ∨ mustWait s (outOf f) = true) :
    exec .output s = .next { popped q s with out := { s.out with waiting := s.out.waiting ++ [outOf f] } } := by
  have hwaits : (performed (popped q s) (outOf f) && ((s.out.waiting.any fun w => waitsBehind w (outOf f)) || mustWait (popped q s) (outOf f))) =
      true := by
    have hperf' : performed (popped q s) (outOf f) = true := hperf
    have hwait' : mustWait (popped q s) (outOf f) = mustWait s (outOf f) := rfl
    rw [hperf', hwait', Bool.true_and, Bool.or_eq_true]
    exact hwait
  change execOutput s = _
  simp only [execOutput, unlessFatal_live hlive, output, hq, hgood, Bool.false_eq_true, if_false]
  exact congrArg _ (if_pos hwaits)

theorem exec_output_taken (h : performed s (outOf f) = false ∨
      (s.out.waiting.any fun w => waitsBehind w (outOf f)) = false ∧ mustWait s (outOf f) = false) :
    exec .output s = .next (takeOut (outOf f) (popped q s)) := by
  have htaken : ¬(performed (popped q s) (outOf f) && ((s.out.waiting.any fun w => waitsBehind w (outOf f)) || mustWait (popped q s) (outOf f))) =
      true := by
    have hperf' : performed (popped q s) (outOf f) = performed s (outOf f) := rfl
    have hwait' : mustWait (popped q s) (outOf f) = mustWait s (outOf f) := rfl
    rw [hperf', hwait']
    rcases h with h | ⟨hbehind, hroom⟩
    · simp [h]
    · simp [hbehind, hroom]
  change execOutput s = _
  simp only [execOutput, unlessFatal_live hlive, output, hq, hgood, Bool.false_eq_true, if_false]
  exact congrArg _ (if_neg htaken)
end

section
variable {o : OutVal} {s : State}

theorem takeOut_refused (hperf : performed s o = false) (hack : o.ack = false) :
    takeOut o s = report 10 (loc 11 (o.kind * 256 + o.index % 256)) o.index (some o.part) false s := by
  simp [takeOut, hperf, refuseOut, hack]

variable (hperf : performed s o = true)
include hperf

theorem takeOut_held (hemit : o.emitAt = true) (hearly : 0 < sdiff o.due s.t) :
    takeOut o s = { s with out := { s.out with held := s.out.held ++ [o] } } := by
  simp [takeOut, hperf, hemit, hearly]

theorem takeOut_applied (hnow : o.emitAt = false ∨ sdiff o.due s.t ≤ 0) : takeOut o s = applyOut o (sdiff o.due s.t < 0) s := by
  have happlied : (o.emitAt && decide (0 < sdiff o.due s.t)) = false := by
    rcases hnow with h | h
    · simp [h]
    · simp [not_lt.2 h]
  simp [takeOut, hperf, happlied]
end

section
variable {o : OutVal} {s : State} (hack : o.ack = false)
include hack

theorem applyOut_out (hout : o.emitAt = false) : applyOut o false s = outEffect o (counted o s) := by
  simp [applyOut, hout, hack]

theorem applyOut_late (hout : o.emitAt = false) :
    applyOut o true s = outEffect o (counted o (deliveryMiss o.part o.emitAt o.kind o.index o.tag o.due s)) := by
  simp only [applyOut, hout, hack, Bool.not_false, if_true, Bool.false_eq_true, if_false]

theorem applyOut_emitAt_early (hemit : o.emitAt = true) (hdue : sdiff o.due s.t ≠ 0) : applyOut o false s = outEffect o s := by
  simp [applyOut, hemit, hack, hdue]

theorem applyOut_emitAt_due (hemit : o.emitAt = true) (hdue : sdiff o.due s.t = 0) : applyOut o false s = emitEffect o s := by
  simp [applyOut, hemit, hack, hdue]
end

theorem emitEffect_alone {o : OutVal} {s : State} (h : outsNow s o = 0) : emitEffect o s = outEffect o s := by simp [emitEffect, h]

/-- At a target that keeps one value, the last OUT of the tick stands (R93). -/
theorem emitEffect_overtaken {o : OutVal} {s : State} (h : 0 < outsNow s o) (hstream : o.kind ≠ 3) (hmbx : o.kind ≠ 5) : emitEffect o s = s := by
  have hsome : ¬outsNow s o = 0 := Nat.pos_iff_ne_zero.1 h
  unfold emitEffect
  simp only [hsome, if_false]

/-! ### The effect at a sample-output channel (R91, R266) -/

section
variable (c : ℕ) (s : State)

theorem forceRelease_frame : forceRelease c s = { s with regs := (forceRelease c s).regs, sc := (forceRelease c s).sc } := by
  unfold forceRelease
  split <;> rfl

theorem forceRelease_regsBut : RegsBut [F.chStat_SAMPLE, F.chStat_FORCED] s (forceRelease c s) := by
  unfold forceRelease
  split
  · exact .refl _ s
  · exact ((RegsBut.refl _ s).set.set).regs rfl

theorem forceRelease_instBut (f : Fld) : InstBut f c s (forceRelease c s) := by
  intro j hj
  unfold forceRelease
  split
  · rfl
  · exact (State.get_set_idx _ _ _ _ _ _ hj.symm).trans (State.get_set_idx _ _ _ _ _ _ hj.symm)

/-- The force conditions of a channel do not read its register. -/
theorem forceCond_setSample (v k : ℕ) : forceCond (s.set F.chStat_SAMPLE c v) k = forceCond s k := by
  have hget (g : Fld) (j : ℕ) (hg : F.chStat_SAMPLE.id ≠ g.id) : (s.set F.chStat_SAMPLE c v).get g j = s.get g j := State.get_set_ne _ _ _ _ _ _ hg
  have hgetB (g : Fld) (j : ℕ) (hg : F.chStat_SAMPLE.id ≠ g.id) : (s.set F.chStat_SAMPLE c v).getB g j = s.getB g j :=
    congrArg (fun x => mget x s.old (g.key j)) (hget g j hg)
  have hfatal : (s.set F.chStat_SAMPLE c v).fatal = s.fatal := rfl
  simp only [forceCond, chForced, ilkOut, hfatal]
  rw [hgetB F.chForce_CH _ (by decide), hgetB F.chSafe_SAFE_ILK _ (by decide), hget F.ilkStat_LATCH _ (by decide), hget F.ilkStat_FLAG _ (by decide),
    hget F.ilkForce_FORCE _ (by decide)]
  rfl

theorem forceRelease_forced : (forceRelease c s).get F.chStat_FORCED c =
    if s.sc.ending.contains c then b2n (forceCond s c) else s.get F.chStat_FORCED c := by
  unfold forceRelease
  cases hend : s.sc.ending.contains c with
  | false => rfl
  | true =>
    have hbit (b : Bool) : b2n b % 2 ^ F.chStat_FORCED.w = b2n b := by cases b <;> rfl
    refine (State.get_set_same _ F.chStat_FORCED c _).trans ?_
    rw [forceCond_setSample, hbit]
    rfl
end

section
variable {o : OutVal} {s : State} (hkind : o.kind = 1)
include hkind

theorem outEffect_channel : outEffect o s = { (forceRelease o.index s).set F.chStat_SAMPLE o.index (bits o.data.toNat 24 24) with
    sc := { (forceRelease o.index s).sc with fresh := if (forceRelease o.index s).sc.fresh.contains o.index then (forceRelease o.index s).sc.fresh
      else (forceRelease o.index s).sc.fresh ++ [o.index] } } := by
  simp only [outEffect, hkind]
  rfl

theorem outEffect_channel_regs : (outEffect o s).regs = ((forceRelease o.index s).set F.chStat_SAMPLE o.index (bits o.data.toNat 24 24)).regs := by
  rw [outEffect_channel hkind]

theorem outEffect_channel_frame : outEffect o s = { s with regs := (outEffect o s).regs, sc := (outEffect o s).sc } := by
  rw [outEffect_channel hkind, forceRelease_frame]
  rfl

theorem outEffect_channel_sample : (outEffect o s).get F.chStat_SAMPLE o.index = bits o.data.toNat 24 24 :=
  (State.get_congr _ _ _ _ (outEffect_channel_regs hkind)).trans ((State.get_set_same _ _ _ _).trans (Nat.mod_mod _ _))

theorem outEffect_channel_fresh : o.index ∈ (outEffect o s).sc.fresh := by
  rw [outEffect_channel hkind]
  dsimp only
  split
  · rename_i h
    exact List.contains_iff_mem.1 h
  · exact List.mem_append_right _ (List.mem_singleton_self _)

theorem outEffect_channel_forced : (outEffect o s).get F.chStat_FORCED o.index =
    if s.sc.ending.contains o.index then b2n (forceCond s o.index) else s.get F.chStat_FORCED o.index := by
  rw [State.get_congr _ _ _ _ (outEffect_channel_regs hkind), State.get_set_ne _ _ _ _ _ _ (by decide)]
  exact forceRelease_forced _ _

theorem outEffect_channel_regsBut : RegsBut [F.chStat_SAMPLE, F.chStat_FORCED] s (outEffect o s) :=
  ((forceRelease_regsBut o.index s).set).regs (outEffect_channel_regs hkind)

theorem outEffect_channel_instBut (f : Fld) : InstBut f o.index s (outEffect o s) := fun j hj =>
  (State.get_congr _ _ _ _ (outEffect_channel_regs hkind)).trans
    ((State.get_set_idx _ _ _ _ _ _ hj.symm).trans (forceRelease_instBut _ _ f j hj))
end

/-! ### The effect at an interlock flag (R91, R265) -/

/-- Where a force begins, only FORCED of channels changes. -/
theorem beginForces_leaves {β : Type} {p : State → β} (h : ∀ (u : State) (i v : ℕ), p (u.set F.chStat_FORCED i v) = p u) (s : State) :
    p (beginForces s) = p s := by
  refine foldl_leaves (fun u k => ?_) _ s
  split
  · rfl
  · refine foldl_leaves (fun u j => ?_) _ u
    split
    · exact h u _ _
    · rfl

/-- The flag word with bit `i` set to a value. -/
def flagSet (x i : ℕ) (b : Bool) : ℕ :=
  let low := if bits x i 1 = 1 then x - 2 ^ i else x
  if b then low + 2 ^ i else low

/-- Its value by quotient and remainder: the bits above and below stay. -/
theorem flagSet_eq (x i : ℕ) (b : Bool) : flagSet x i b = 2 ^ i * (2 * (x / 2 ^ i / 2) + b2n b) + x % 2 ^ i := by
  have hbit : bits x i 1 = x / 2 ^ i % 2 := rfl
  have hx := Nat.div_add_mod x (2 ^ i)
  have hsplit : 2 ^ i * (x / 2 ^ i) = 2 ^ i * (2 * (x / 2 ^ i / 2)) + 2 ^ i * (x / 2 ^ i % 2) := by rw [← Nat.mul_add, Nat.div_add_mod]
  rw [hsplit] at hx
  rw [flagSet, hbit, Nat.mul_add]
  generalize 2 ^ i * (2 * (x / 2 ^ i / 2)) = high at hx
  generalize x % 2 ^ i = low at hx
  rcases Nat.mod_two_eq_zero_or_one (x / 2 ^ i) with hc | hc <;> rw [hc] at hx ⊢ <;> cases b <;> simp [b2n] at hx ⊢ <;> omega

theorem bits_one_eq_testBit (x j : ℕ) : bits x j 1 = (x.testBit j).toNat := by
  rw [Nat.testBit_eq_decide_div_mod_eq, bits, Nat.pow_one]
  rcases Nat.mod_two_eq_zero_or_one (x / 2 ^ j) with h | h <;> simp [h]

theorem bits_flagSet (x i j : ℕ) (b : Bool) : bits (flagSet x i b) j 1 = if j = i then b2n b else bits x j 1 := by
  have hlow : x % 2 ^ i < 2 ^ i := Nat.mod_lt _ (Nat.two_pow_pos i)
  rw [flagSet_eq, bits_one_eq_testBit, bits_one_eq_testBit, Nat.testBit_two_pow_mul_add _ hlow]
  rcases Nat.lt_trichotomy j i with h | rfl | h
  · rw [if_pos h, if_neg h.ne, Nat.testBit_mod_two_pow, decide_eq_true h, Bool.true_and]
  · rw [if_neg (lt_irrefl _), if_pos rfl, Nat.sub_self, Nat.testBit_zero]
    cases b <;> simp [b2n]
  · obtain ⟨k, rfl⟩ := Nat.exists_eq_add_of_lt h
    have hhalf : (2 * (x / 2 ^ i / 2) + b2n b) / 2 = x / 2 ^ i / 2 := by
      cases b
      · simp [b2n]
      · simp only [b2n, if_true]
        omega
    have hplace : i + k + 1 - i = k + 1 := by omega
    rw [if_neg (by omega), if_neg (by omega), hplace, Nat.testBit_succ, hhalf, ← Nat.testBit_succ, Nat.testBit_div_two_pow]
    congr 2
    omega

theorem performed_flag {o : OutVal} {s : State} (h : performed s o = true) (hkind : o.kind = 4) : o.index < 8 := by
  simp only [performed, targetExists, hkind, Bool.and_eq_true, decide_eq_true_eq] at h
  exact h.1.1.1

section
variable {o : OutVal} {s : State} (hkind : o.kind = 4)
include hkind

theorem outEffect_flag : outEffect o s =
    beginForces (s.set F.ilkStat_FLAG 0 (flagSet (s.get F.ilkStat_FLAG 0) o.index (decide (o.data ≠ 0)))) := by
  simp only [outEffect, hkind, flagSet, decide_eq_true_eq]

/-- The flag register after the effect: 8 flags, of which the output's takes the data's truth. -/
theorem outEffect_flag_bit (j : ℕ) (hj : j < 8) : bits ((outEffect o s).get F.ilkStat_FLAG 0) j 1 =
    if j = o.index then b2n (decide (o.data ≠ 0)) else bits (s.get F.ilkStat_FLAG 0) j 1 := by
  have hset : (outEffect o s).get F.ilkStat_FLAG 0 = flagSet (s.get F.ilkStat_FLAG 0) o.index (decide (o.data ≠ 0)) % 2 ^ 8 := by
    rw [outEffect_flag hkind, beginForces_leaves (p := fun u => u.get F.ilkStat_FLAG 0) fun u i v => State.get_set_ne _ _ _ _ _ _ (by decide)]
    exact State.get_set_same _ F.ilkStat_FLAG 0 _
  rw [hset, bits_one_eq_testBit, Nat.testBit_mod_two_pow, decide_eq_true hj, Bool.true_and, ← bits_one_eq_testBit, bits_flagSet]

theorem outEffect_flag_leaves {β : Type} {p : State → β} (hflag : ∀ (u : State) (v : ℕ), p (u.set F.ilkStat_FLAG 0 v) = p u)
    (hforced : ∀ (u : State) (i v : ℕ), p (u.set F.chStat_FORCED i v) = p u) : p (outEffect o s) = p s := by
  rw [outEffect_flag hkind, beginForces_leaves hforced, hflag]

theorem outEffect_flag_regsBut : RegsBut [F.ilkStat_FLAG, F.chStat_FORCED] s (outEffect o s) := fun g j hg =>
  outEffect_flag_leaves hkind (p := fun u => u.get g j) (fun u v => State.get_set_ne _ _ _ _ _ _ (hg _ (by simp)))
    fun u i v => State.get_set_ne _ _ _ _ _ _ (hg _ (by simp))
end

/-! ### The effect at a mailbox (R91, R93, R350) -/

/-- The entry that an output appends to a mailbox. -/
abbrev mbxEntry (o : OutVal) : MbxEntry := ⟨o.data, o.due, mbxTag o.part o.ctx o.epoch, false⟩

section
variable {o : OutVal} {s : State} (hkind : o.kind = 5)
include hkind

theorem outEffect_mailbox : outEffect o s = mbxAppend o.index (mbxEntry o) s := by simp only [outEffect, hkind]

theorem outEffect_mailbox_frame : ∃ regs pcie, outEffect o s =
    { s.setMbx o.index (s.mbx o.index ++ [mbxEntry o]) with regs := regs, pcie := pcie } :=
  ⟨_, _, (outEffect_mailbox hkind).trans (raiseEvent_frame _ _)⟩

theorem outEffect_mailbox_mbx : (outEffect o s).mbx o.index = s.mbx o.index ++ [mbxEntry o] := by
  obtain ⟨regs, pcie, h⟩ := outEffect_mailbox_frame (s := s) hkind
  rw [h]
  exact mget_mlist _ _ _

theorem outEffect_mailbox_appends : (outEffect o s).get F.mbxStat_APPENDS o.index =
    (s.get F.mbxStat_APPENDS o.index + 1) % 2 ^ F.mbxStat_APPENDS.w := by
  rw [outEffect_mailbox hkind, mbxAppend, raiseEvent_get_ne _ _ _ _ (by decide)]
  exact State.get_inc_same _ F.mbxStat_APPENDS o.index

theorem outEffect_mailbox_leaves : (outEffect o s).net = s.net ∧ (outEffect o s).mem = s.mem ∧ (outEffect o s).t = s.t ∧
    (outEffect o s).pending = s.pending ∧ (outEffect o s).out = s.out := by
  obtain ⟨regs, pcie, h⟩ := outEffect_mailbox_frame (s := s) hkind
  rw [h]
  exact ⟨rfl, rfl, rfl, rfl, rfl⟩
end

/-- The last entry put before the last `n` of the others. -/
theorem entry_before {α : Type} (l : List α) (e : α) (n : ℕ) :
    (l ++ [e]).take ((l ++ [e]).length - 1 - n) ++ (l ++ [e]).drop ((l ++ [e]).length - 1) ++
      ((l ++ [e]).drop ((l ++ [e]).length - 1 - n)).dropLast = l.take (l.length - n) ++ [e] ++ l.drop (l.length - n) := by
  have hlen : (l ++ [e]).length - 1 = l.length := by simp
  have hkeep : l.length - n ≤ l.length := Nat.sub_le _ _
  rw [hlen, List.take_append_of_le_length hkeep, List.drop_append_of_le_length hkeep, List.drop_left, List.dropLast_concat]

/-- An EMIT-AT whose mailbox took OUTs on its due tick stands before them (R93). -/
theorem emitEffect_mailbox {o : OutVal} {s : State} (hkind : o.kind = 5) (h : 0 < outsNow s o) : emitEffect o s =
    (outEffect o s).setMbx o.index
      ((s.mbx o.index).take ((s.mbx o.index).length - outsNow s o) ++ [mbxEntry o] ++ (s.mbx o.index).drop ((s.mbx o.index).length - outsNow s o)) := by
  have hsome : ¬outsNow s o = 0 := Nat.pos_iff_ne_zero.1 h
  rw [← entry_before, ← outEffect_mailbox_mbx hkind]
  simp only [emitEffect, hsome, if_false, hkind]

/-! ### A late value of a GUARANTEED partition (R186) -/

/-- The register fields of a miss. -/
def missFields : List Fld :=
  [F.partStat_MISSES, F.missInfo_VALID, F.missInfo_EMIT, F.missInfo_KIND, F.missInfo_INDEX, F.missInfo_PART, F.missInfo_PKG, F.missT_T, F.missDue_DUE,
    F.missTag_TAG]

/-- The miss log with an entry. -/
def missLogged (p : ℕ) (emitAt : Bool) (kind index : ℕ) (tag due : W) (s : State) : State :=
  ((((((((s.set F.missInfo_PART 0 p).set F.missInfo_EMIT 0 (b2n emitAt)).set F.missInfo_KIND 0 kind).set F.missInfo_PKG 0 s.pkg).set
    F.missInfo_INDEX 0 index).set F.missTag_TAG 0 tag.toNat).set F.missT_T 0 s.t.toNat).set F.missDue_DUE 0 due.toNat).set F.missInfo_VALID 0 1

section
variable {p kind index : ℕ} {emitAt : Bool} {tag due : W} {s : State}

theorem deliveryMiss_first (hst : s.pState p = pGuaranteed) (hvalid : s.flag F.missInfo_VALID 0 = false) :
    deliveryMiss p emitAt kind index tag due s =
      report 14 (loc 1 p) index (some p) false (missLogged p emitAt kind index tag due (s.inc F.partStat_MISSES p)) := by
  have hvalid' : (s.inc F.partStat_MISSES p).flag F.missInfo_VALID 0 = false := (State.flag_inc_ne _ _ _ _ _ (by decide)).trans hvalid
  have hother : ¬pGuaranteed = pSuspended := by decide
  have hpkg (u : State) (v w : ℕ) : ((u.set F.missInfo_PART 0 v).set F.missInfo_EMIT 0 w).pkg = u.pkg := by
    simp (disch := decide) only [State.pkg, State.get_set_ne]
  simp only [deliveryMiss, hst, hother, hvalid', hpkg, decide_true, Bool.true_or, Bool.not_true, Bool.false_eq_true, if_false, if_true]
  rfl

theorem missLogged_regsBut : RegsBut missFields s (missLogged p emitAt kind index tag due (s.inc F.partStat_MISSES p)) :=
  ((((((((((RegsBut.refl missFields s).inc (by simp [missFields])).set (by simp [missFields])).set (by simp [missFields])).set
    (by simp [missFields])).set (by simp [missFields])).set (by simp [missFields])).set (by simp [missFields])).set (by simp [missFields])).set
    (by simp [missFields])).set (by simp [missFields])

/-- What the log and the count show. -/
theorem missLogged_entry : let t := missLogged p emitAt kind index tag due (s.inc F.partStat_MISSES p);
    t.get F.partStat_MISSES p = (s.get F.partStat_MISSES p + 1) % 2 ^ F.partStat_MISSES.w ∧ t.get F.missInfo_VALID 0 = 1 ∧
      t.get F.missInfo_EMIT 0 = b2n emitAt % 2 ∧ t.get F.missInfo_KIND 0 = kind % 2 ^ F.missInfo_KIND.w ∧
      t.get F.missInfo_INDEX 0 = index % 2 ^ F.missInfo_INDEX.w ∧ t.get F.missInfo_PART 0 = p % 8 ∧ t.get F.missInfo_PKG 0 = s.pkg % 16 ∧
      t.get F.missT_T 0 = s.t.toNat ∧ t.get F.missDue_DUE 0 = due.toNat ∧ t.get F.missTag_TAG 0 = tag.toNat := by
  intro t
  have hpkg : (s.inc F.partStat_MISSES p).pkg = s.pkg := State.get_inc_ne _ _ _ _ _ (by decide)
  have hword (v : W) : v.toNat % 2 ^ 48 = v.toNat := Nat.mod_eq_of_lt v.isLt
  refine ⟨?misses, ?valid, ?emit, ?kind, ?index, ?part, ?pkg, ?time, ?due, ?tag⟩ <;>
    simp (disch := decide) only [t, missLogged, State.get_set_ne, State.get_set_same, State.get_inc_same, hpkg]
  case valid | emit | part | pkg => rfl
  case time => exact hword s.t
  case due => exact hword due
  case tag => exact hword tag
end

/-! ### The acknowledgement (R91, R275) -/

/-- The upper 48 bits of a response's payload hold RET and STATUS. -/
theorem rspPay_div (ret status : ℕ) (data extra : W) :
    (rspPay ret status data extra).toNat / 2 ^ 96 = ret % 2 ^ 19 * 2 ^ 29 + status % 16 * 2 ^ 25 := by
  have hsplit (n : ℕ) : n / 2 ^ 96 = n / 2 ^ 48 / 2 ^ 48 := by
    rw [Nat.div_div_eq_div_mul]
    rfl
  rw [hsplit, rspPay, toNat_append_div, toNat_append_div, w48, BitVec.toNat_ofNat]
  omega

theorem pf_rspPay (ret status : ℕ) (data extra : W) (k n : ℕ) :
    pf (rspPay ret status data extra) (96 + k) n = (ret % 2 ^ 19 * 2 ^ 29 + status % 16 * 2 ^ 25) / 2 ^ k % 2 ^ n := by
  rw [pf, bits, Nat.pow_add, ← Nat.div_div_eq_div_mul, rspPay_div]

theorem rspRet_rspPay (ret status : ℕ) (data extra : W) : rspRet (rspPay ret status data extra) = ret % 2 ^ 19 := by
  rw [rspRet, pf_rspPay]
  omega

theorem rspAns_rspPay (ret status : ℕ) (data extra : W) : rspAns (rspPay ret status data extra) = false := by
  have hbit := pf_rspPay ret status data extra 0 1
  rw [rspAns, hbit, decide_eq_false_iff_not]
  omega

/-- An answer from the hub to a place on a facet stands at the hub. -/
theorem respond_stands {ret cls urg : ℕ} {data extra : W} {s : State} (hdie : bits ret 11 4 < 8)
    (hdel : undeliverable s (mkFlit 2 false (rspPay ret 0 data extra) [] cls (rspUrg s cls urg) nodeHub) = false) :
    Stands (mkFlit 2 false (rspPay ret 0 data extra) [] cls (rspUrg s cls urg) nodeHub) (respond nodeHub ret false 0 data extra cls urg s) := by
  refine send_stands (.inr ⟨rfl, ?_⟩) hdel
  have hresponse : (2 = 2 ∧ rspAns (rspPay ret 0 data extra) = false) := ⟨rfl, rspAns_rspPay ..⟩
  simp only [flitDest, mkFlit, hresponse, and_self, if_true, retDest, rspRet_rspPay, bits] at hdie ⊢
  omega

/-! ### An OUT that its target takes (R91, R186) -/

/-- A sound OUT packet without another in its way. -/
structure TakenOut (f : Flit) (q : List Flit) (s : State) : Prop where
  live : s.fatal = false
  queue : s.net.outQ = f :: q
  good : badReq f = false
  performed : performed s (outOf f) = true
  first : (s.out.waiting.any fun w => waitsBehind w (outOf f)) = false
  room : mustWait s (outOf f) = false
  out : (outOf f).emitAt = false

theorem outEffect_stream {o : OutVal} {s : State} (hkind : o.kind = 3) : outEffect o s = captureWord o.index o.data s := by
  simp only [outEffect, hkind]

/-- The write of a Mirror register's slot in the write frame. -/
theorem outEffect_mirror {o : OutVal} {s : State} (hkind : o.kind = 2) : outEffect o s = s.writeSlot (mirrorAddr (writeFrame s) o.index) o.data := by
  simp only [outEffect, hkind]

theorem outEffect_mirror_frame {o : OutVal} {s : State} (hkind : o.kind = 2) : outEffect o s = { s with mem := (outEffect o s).mem } := by
  rw [outEffect_mirror hkind]
  exact writeN_frame _ _ _ _

theorem outEffect_mirror_slot {o : OutVal} {s : State} (hkind : o.kind = 2) :
    (outEffect o s).readN (mirrorAddr (writeFrame s) o.index) 6 = o.data.toNat := by
  rw [outEffect_mirror hkind]
  exact (readN_writeN _ _ _ _).trans (Nat.mod_eq_of_lt o.data.isLt)

section
variable {f : Flit} {q : List Flit} {s : State} (h : TakenOut f q s)
include h

theorem exec_takenOut : exec .output s = .next (applyOut (outOf f) (sdiff (outOf f).due s.t < 0) (popped q s)) := by
  rw [exec_output_taken h.live h.queue h.good (.inr ⟨h.first, h.room⟩), takeOut_applied (s := popped q s) h.performed (.inl h.out)]

theorem exec_takenOut_effect (hack : (outOf f).ack = false) (htime : 0 ≤ sdiff (outOf f).due s.t) :
    exec .output s = .next (outEffect (outOf f) (counted (outOf f) (popped q s))) := by
  rw [exec_takenOut h, decide_eq_false (not_lt.2 htime), applyOut_out hack h.out]

/-- An OUT to a Mirror register with ACK writes its slot and is answered with T. -/
theorem exec_takenOut_acknowledged (hkind : (outOf f).kind = 2) (hack : (outOf f).ack = true) (htime : 0 ≤ sdiff (outOf f).due s.t)
    (hdie : bits (outOf f).ret 11 4 < 8)
    (hdel : undeliverable s (mkFlit 2 false (rspPay (outOf f).ret 0 s.t 0) [] (outOf f).part (rspUrg s (outOf f).part (outOf f).urg) nodeHub) = false) :
    Completes .output s fun t => t.readN (mirrorAddr (writeFrame s) (outOf f).index) 6 = (outOf f).data.toNat ∧
      ((t.net.flits ++ t.cl.injQ).any fun x => decide (x.ty = 2 ∧ x.poison = false ∧ x.pay = rspPay (outOf f).ret 0 s.t 0)) = true ∧ t.t = s.t ∧
      t.pending = s.pending := by
  obtain ⟨m, hm⟩ : ∃ m, outEffect (outOf f) (counted (outOf f) (popped q s)) = { counted (outOf f) (popped q s) with mem := m } :=
    ⟨_, outEffect_mirror_frame hkind⟩
  have hslot : State.readN { counted (outOf f) (popped q s) with mem := m } (mirrorAddr (writeFrame s) (outOf f).index) 6 = (outOf f).data.toNat := by
    rw [← hm]
    exact outEffect_mirror_slot (s := counted (outOf f) (popped q s)) hkind
  have hexec : exec .output s = .next (respond nodeHub (outOf f).ret false 0 s.t 0 (outOf f).part (outOf f).urg
      { counted (outOf f) (popped q s) with mem := m }) := by
    rw [exec_takenOut h, decide_eq_false (not_lt.2 htime)]
    simp only [applyOut, h.out, hack, Bool.not_false, if_true, Bool.false_eq_true, if_false, hm]
  have hstands := respond_stands (cls := (outOf f).part) (urg := (outOf f).urg) (data := s.t) (extra := 0)
    (s := { counted (outOf f) (popped q s) with mem := m }) hdie hdel
  have hsteady := (Steady.refl s).exec _ rfl _ hexec
  refine completes_next hexec ⟨?_, hstands.any fun x hx => ?_, hsteady.time, hsteady.pending⟩
  · exact (readN_of_mem (Carries.refl { counted (outOf f) (popped q s) with mem := m }).send.mem _ _).trans hslot
  · rw [hx, decide_eq_true_iff]
    exact ⟨rfl, rfl, rfl⟩

/-- A late OUT of a GUARANTEED partition counts as a miss, enters the empty log, and takes effect. -/
theorem exec_takenOut_late (hkind : (outOf f).kind = 2) (hack : (outOf f).ack = false) (hlate : sdiff (outOf f).due s.t < 0)
    (hst : s.pState (outOf f).part = pGuaranteed) (hvalid : s.flag F.missInfo_VALID 0 = false) : Completes .output s fun t =>
      t.get F.partStat_MISSES (outOf f).part = (s.get F.partStat_MISSES (outOf f).part + 1) % 2 ^ F.partStat_MISSES.w ∧
      t.get F.missInfo_VALID 0 = 1 ∧ t.get F.missInfo_EMIT 0 = 0 ∧ t.get F.missInfo_KIND 0 = 2 ∧
      t.get F.missInfo_INDEX 0 = (outOf f).index % 2 ^ F.missInfo_INDEX.w ∧ t.get F.missInfo_PART 0 = (outOf f).part % 8 ∧
      t.get F.missInfo_PKG 0 = s.pkg % 16 ∧ t.get F.missT_T 0 = s.t.toNat ∧ t.get F.missDue_DUE 0 = (outOf f).due.toNat ∧
      t.get F.missTag_TAG 0 = (outOf f).tag.toNat ∧ t.readN (mirrorAddr (writeFrame s) (outOf f).index) 6 = (outOf f).data.toNat ∧ t.t = s.t ∧
      t.pending = s.pending ∧ RegsBut missFields s t := by
  have hmiss := deliveryMiss_first (emitAt := (outOf f).emitAt) (kind := (outOf f).kind) (index := (outOf f).index) (tag := (outOf f).tag)
    (due := (outOf f).due) (s := popped q s) hst hvalid
  have hexec := exec_takenOut h
  rw [decide_eq_true hlate, applyOut_late hack h.out] at hexec
  generalize deliveryMiss (outOf f).part (outOf f).emitAt (outOf f).kind (outOf f).index (outOf f).tag (outOf f).due (popped q s) = u at hexec hmiss
  rw [h.out, hkind] at hmiss
  have hregs : (outEffect (outOf f) (counted (outOf f) u)).regs = (missLogged (outOf f).part false 2 (outOf f).index (outOf f).tag (outOf f).due
      ((popped q s).inc F.partStat_MISSES (outOf f).part)).regs := by
    rw [outEffect_mirror_frame hkind, hmiss]
    exact report_regs _ _ _ _ _ _
  have hbut : RegsBut missFields s (outEffect (outOf f) (counted (outOf f) u)) := RegsBut.regs (missLogged_regsBut (s := popped q s)) hregs
  have hframe : writeFrame (counted (outOf f) u) = writeFrame s := by
    have hsel := hbut F.mpStat_FSEL 0 (by decide)
    rw [outEffect_mirror_frame hkind] at hsel
    exact congrArg (1 - ·) hsel
  have hslot := outEffect_mirror_slot (s := counted (outOf f) u) hkind
  rw [hframe] at hslot
  have hsteady := (Steady.refl s).exec _ rfl _ hexec
  obtain ⟨hmisses, hv, hemit, hk, hindex, hpart, hpkg, ht, hdue, htag⟩ := missLogged_entry (p := (outOf f).part) (emitAt := false) (kind := 2)
    (index := (outOf f).index) (tag := (outOf f).tag) (due := (outOf f).due) (s := popped q s)
  have hget (g : Fld) (i : ℕ) := State.get_congr _ _ g i hregs
  exact completes_next hexec ⟨(hget _ _).trans hmisses, (hget _ _).trans hv, (hget _ _).trans hemit, (hget _ _).trans hk, (hget _ _).trans hindex,
    (hget _ _).trans hpart, (hget _ _).trans hpkg, (hget _ _).trans ht, (hget _ _).trans hdue, (hget _ _).trans htag, hslot, hsteady.time,
    hsteady.pending, hbut⟩
end

/-! ### Held and waiting values (R92, R93) -/

section
variable {o : OutVal} {r : List OutVal} {s : State} (hlive : s.fatal = false) (hperf : performed s o = true)
include hlive hperf

section
variable (hfirst : takeFirst (fun o => sdiff o.due s.t ≤ 0 && !targetFull s o) s.out.held = some (o, r))
  (htime : ¬sdiff o.due s.t < -1)
include hfirst htime

theorem exec_emitAtDue : exec .emitAtDue s = .next (applyOut o false { s with out := { s.out with held := r } }) := by
  have hperf' : performed { s with out := { s.out with held := r } } o = true := hperf
  change execEmitAtDue s = _
  simp only [execEmitAtDue, unlessFatal_live hlive, emitAtDue, hfirst, hperf', htime, Bool.not_true, Bool.false_eq_true, if_false, decide_false]

variable (hack : o.ack = false) (hemit : o.emitAt = true)
include hack hemit

omit htime in
/-- A held value at its due takes effect before the OUTs of its target. -/
theorem exec_emitAtDue_due (hdue : sdiff o.due s.t = 0) :
    exec .emitAtDue s = .next (emitEffect o { s with out := { s.out with held := r } }) := by
  rw [exec_emitAtDue hlive hperf hfirst (by omega)]
  exact congrArg _ (applyOut_emitAt_due hack hemit (show sdiff o.due s.t = 0 from hdue))

omit htime in
theorem exec_emitAtDue_alone (hdue : sdiff o.due s.t = -1 ∨ sdiff o.due s.t = 0 ∧ outsNow s o = 0) :
    exec .emitAtDue s = .next (outEffect o { s with out := { s.out with held := r } }) := by
  rcases hdue with hdue | ⟨hdue, hnone⟩
  · rw [exec_emitAtDue hlive hperf hfirst (by omega)]
    exact congrArg _ (applyOut_emitAt_early hack hemit (show sdiff o.due s.t ≠ 0 by omega))
  · rw [exec_emitAtDue_due hlive hperf hfirst hack hemit hdue, emitEffect_alone (s := { s with out := { s.out with held := r } }) hnone]

omit htime in
theorem exec_emitAtDue_mailbox (hdue : sdiff o.due s.t = 0) (hsome : 0 < outsNow s o) (hkind : o.kind = 5) : Completes .emitAtDue s fun t =>
    (let m := s.mbx o.index; let k := m.length - outsNow s o; t.mbx o.index = m.take k ++ [mbxEntry o] ++ m.drop k) ∧
      t.get F.mbxStat_APPENDS o.index = (s.get F.mbxStat_APPENDS o.index + 1) % 2 ^ F.mbxStat_APPENDS.w ∧ t.out = { s.out with held := r } ∧
      t.mem = s.mem ∧ t.t = s.t ∧ t.pending = s.pending := by
  obtain ⟨-, hmem, htime, hpending, hout⟩ := outEffect_mailbox_leaves (s := { s with out := { s.out with held := r } }) hkind
  refine completes_next ((exec_emitAtDue_due hlive hperf hfirst hack hemit hdue).trans
    (congrArg _ (emitEffect_mailbox (s := { s with out := { s.out with held := r } }) hkind hsome))) ⟨mget_mlist _ _ _, ?_, hout, hmem, htime, hpending⟩
  exact outEffect_mailbox_appends (s := { s with out := { s.out with held := r } }) hkind
end

variable (hfirst : firstRoom s [] s.out.waiting = some (o, r))
include hfirst

theorem exec_outputRoom_held (hemit : o.emitAt = true) (hearly : 0 < sdiff o.due s.t) :
    exec .outputRoom s = .next { s with out := { s.out with waiting := r, held := s.out.held ++ [o] } } := by
  change execOutputRoom s = _
  simp only [execOutputRoom, unlessFatal_live hlive, outputRoom, hfirst]
  rw [takeOut_held (s := { s with out := { s.out with waiting := r } }) hperf hemit hearly]

/-- A waiting value that is not late takes effect; an OUT is counted at its target. -/
theorem exec_outputRoom_effect (hack : o.ack = false) (hnow : o.emitAt = false ∨ sdiff o.due s.t ≤ 0 ∧ outsNow s o = 0)
    (htime : 0 ≤ sdiff o.due s.t) : exec .outputRoom s = .next (outEffect o { s with out := { s.out with
      waiting := r, now := if o.emitAt then s.out.now else mput s.out.now (o.kind * 65536 + o.index) (outsNow s o + 1) } }) := by
  have hexec : exec .outputRoom s = .next (takeOut o { s with out := { s.out with waiting := r } }) := by
    change execOutputRoom s = _
    simp only [execOutputRoom, unlessFatal_live hlive, outputRoom, hfirst]
  have hintime : decide (sdiff o.due s.t < 0) = false := decide_eq_false (not_lt.2 htime)
  rw [hexec, takeOut_applied (s := { s with out := { s.out with waiting := r } }) hperf (hnow.imp_right And.left), hintime]
  cases hemit : o.emitAt with
  | false =>
    rw [applyOut_out hack hemit]
    rfl
  | true =>
    obtain ⟨hdue, hnone⟩ := hnow.resolve_left (by simp [hemit])
    have hzero : sdiff o.due s.t = 0 := le_antisymm hdue htime
    rw [applyOut_emitAt_due (s := { s with out := { s.out with waiting := r } }) hack hemit hzero,
      emitEffect_alone (s := { s with out := { s.out with waiting := r } }) hnone]
    rfl
end

/-- Settles O16: an OUT by `exec_takenOut` and the effect at its kind of target, a held value by `exec_emitAtDue`, a waiting one by
`exec_outputRoom_effect`. -/
theorem outputsReachTheirTargets : Obligations.OutputsReachTheirTargets := by
  unfold Obligations.OutputsReachTheirTargets
  refine ⟨?mirror, ?channel, ?flag, ?mailbox, ?stream, ?held, ?waits, ?refused, ?malformed, ?acknowledged, ?late, ?due, ?overtaken, ?dueMailbox,
    ?room, ?roomHeld⟩
  case mirror =>
    intro f q s hlive hq hgood hperf hfirst hroom hout hack htime hkind
    rw [exec_takenOut_effect ⟨hlive, hq, hgood, hperf, hfirst, hroom, hout⟩ hack htime, outEffect_mirror hkind]
    rfl
  case channel =>
    intro f q s hlive hq hgood hperf hfirst hroom hout hack htime hkind
    have hexec := exec_takenOut_effect ⟨hlive, hq, hgood, hperf, hfirst, hroom, hout⟩ hack htime
    have hframe := outEffect_channel_frame (s := counted (outOf f) (popped q s)) hkind
    refine completes_next hexec ⟨outEffect_channel_sample hkind, outEffect_channel_fresh hkind, outEffect_channel_forced hkind, ?_, ?_, ?_, ?_,
      outEffect_channel_regsBut hkind, outEffect_channel_instBut hkind _, outEffect_channel_instBut hkind _⟩
    all_goals
      rw [hframe]
  case flag =>
    intro f q s hlive hq hgood hperf hfirst hroom hout hack htime hkind
    have hexec := exec_takenOut_effect ⟨hlive, hq, hgood, hperf, hfirst, hroom, hout⟩ hack htime
    have hindex : (outOf f).index < 8 := performed_flag hperf hkind
    refine completes_next hexec ⟨?_, fun j hj => ?_, outEffect_flag_leaves hkind (fun _ _ => rfl) fun _ _ _ => rfl,
      outEffect_flag_leaves hkind (fun _ _ => rfl) fun _ _ _ => rfl, outEffect_flag_leaves hkind (fun _ _ => rfl) fun _ _ _ => rfl,
      outEffect_flag_leaves hkind (fun _ _ => rfl) fun _ _ _ => rfl, outEffect_flag_regsBut hkind⟩
    · rw [outEffect_flag_bit hkind _ hindex, if_pos rfl]
    · rw [outEffect_flag_bit hkind _ j.isLt, if_neg hj]
      rfl
  case mailbox =>
    intro f q s hlive hq hgood hperf hfirst hroom hout hack htime hkind
    have hexec := exec_takenOut_effect ⟨hlive, hq, hgood, hperf, hfirst, hroom, hout⟩ hack htime
    obtain ⟨hnet, hmem, ht, hpending, -⟩ := outEffect_mailbox_leaves (s := counted (outOf f) (popped q s)) hkind
    exact completes_next hexec ⟨outEffect_mailbox_mbx hkind, outEffect_mailbox_appends hkind, hnet, hmem, ht, hpending⟩
  case stream =>
    intro f q s hlive hq hgood hperf hfirst hroom hout hack htime hkind
    rw [exec_takenOut_effect ⟨hlive, hq, hgood, hperf, hfirst, hroom, hout⟩ hack htime, outEffect_stream hkind]
    exact congrArg (fun t => Host.Outcome.next (captureWord (outOf f).index (outOf f).data t)) rfl
  case held =>
    intro f q s hlive hq hgood hperf hfirst hroom hemit hearly
    rw [exec_output_taken hlive hq hgood (.inr ⟨hfirst, hroom⟩), takeOut_held (s := popped q s) hperf hemit hearly]
  case waits => exact fun f q s hlive hq hgood hperf hwait => exec_output_waits hlive hq hgood hperf hwait
  case refused =>
    intro f q s hlive hq hgood hperf hack
    rw [exec_output_taken hlive hq hgood (.inl hperf), takeOut_refused (s := popped q s) hperf hack]
  case malformed => exact fun f q s hlive hq hbad hquiet => exec_output_malformed hlive hq hbad hquiet
  case acknowledged =>
    intro f q s hlive hq hgood hperf hfirst hroom hout hkind hack htime hdie hdel
    exact exec_takenOut_acknowledged ⟨hlive, hq, hgood, hperf, hfirst, hroom, hout⟩ hkind hack htime hdie hdel
  case late =>
    intro f q s hlive hq hgood hperf hfirst hroom hout hkind hack hlate hst hvalid
    exact exec_takenOut_late ⟨hlive, hq, hgood, hperf, hfirst, hroom, hout⟩ hkind hack hlate hst hvalid
  case due => exact fun o r s hlive hfirst hack hperf hemit hdue => exec_emitAtDue_alone hlive hperf hfirst hack hemit hdue
  case overtaken =>
    intro o r s hlive hfirst hack hperf hemit hdue hsome hstream hmbx
    rw [exec_emitAtDue_due hlive hperf hfirst hack hemit hdue, emitEffect_overtaken (s := { s with out := { s.out with held := r } }) hsome hstream hmbx]
  case dueMailbox =>
    intro o r s hlive hfirst hack hperf hemit hdue hsome hkind
    exact exec_emitAtDue_mailbox hlive hperf hfirst hack hemit hdue hsome hkind
  case room => exact fun o r s hlive hfirst hack hperf hnow htime => exec_outputRoom_effect hlive hperf hfirst hack hnow htime
  case roomHeld => exact fun o r s hlive hfirst hperf hemit hearly => exec_outputRoom_held hlive hperf hfirst hemit hearly

end Sys2Proof.Machine
end

section
/-!
SUPPORT. Three statements against states that the model evaluates: a spill area whose BANK names no bank of its cluster (O25), a boot that counts
the try of a pending slot in flash (O42), and a source token made in the tick of its partition's COMMIT (O45).
-/
set_option Elab.async false
namespace Sys2Proof.Machine
open Sys2Proof

/-- A command has one outcome, so what it completes with holds of the state that it answers. -/
theorem Completes.holds {c : Instr} {s t : State} {p : State → Prop} (h : Completes c s p) (he : exec c s = .next t) : p t := by
  obtain ⟨u, hu, hp⟩ := h
  obtain rfl : u = t := Host.Outcome.next.inj (hu.symm.trans he)
  exact hp

/-! ### A spill hold whose area lies past the banks of its cluster (R104, R119) -/

/-- The token that the lane holds: instruction 21, left port, partition 1. -/
def spillHeldToken : Token := ⟨mkTag 0 0 3 21 0 1 4 0, 2000, 77, false⟩

/-- Lane 5 of cluster 3 in a spill hold, with four free records in bank 16: a value that BANK's four bits cannot take, and that the statement does
not exclude. Record writes go to the bank instance 3 × 16 + 16, which is bank 0 of cluster 4 and belongs to partition 1 as well. -/
def spillHeldInBank16 : State :=
  let s := ((State.reset.set F.fclkCtl_STOPPED 0 0).set F.clStatus_STATE 3 2).set F.clStatus_OWNER 3 1
  let s := (s.set F.spillCfg_COUNT 3 4).set F.bankOwn_OWNER 64 1
  { s with regs := mput s.regs (F.spillCfg_BANK.key 3) 16, cl := { s.cl with spillHold := [(53, spillHeldToken)] } }

/-- The record that the retry took still reads as empty memory: it is read at offset 16 × 0x8000 of cluster 3. -/
theorem record_spillRetry_spillHeldInBank16 : (spillRetry 3 5 spillHeldInBank16).record 3 0 = ⟨0, 0, 0, false⟩ := by decide +kernel

/-- Refutes O25: with SPILL_CFG.BANK at 16, SPILL_RETRY writes the held token to another cluster's bank, and its record does not read back. -/
theorem not_tokensAreMatched : ¬ Obligations.TokensAreMatched := by
  unfold Obligations.TokensAreMatched
  rintro ⟨-, -, -, -, -, hretry, -⟩
  have hclock : spillHeldInBank16.fabricOn (3 : Fin 128) = true := by decide +kernel
  have hexec : exec (.spillRetry 3 5) spillHeldInBank16 = .next (spillRetry 3 5 spillHeldInBank16) :=
    congrArg Host.Outcome.next (onFabric_on hclock (spillRetry 3 5))
  obtain ⟨hrecord, -⟩ := (hretry 3 5 spillHeldToken 0 spillHeldInBank16 hclock (by decide +kernel) (by decide +kernel) (by decide +kernel)
    (by decide +kernel) (by decide +kernel) (by decide +kernel)).holds hexec
  exact absurd (record_spillRetry_spillHeldInBank16.symm.trans hrecord) (by decide +kernel)

/-! ### A boot with a pending slot (R401) -/

/-- The boot record is what the flash holds. -/
theorem bootRec_congr {s t : State} (h : s.mc.flash = t.mc.flash) : bootRec s = bootRec t := by
  have hbytes : flashBytes s = flashBytes t := by unfold flashBytes flashByte; rw [h]
  have hcopy : bootCopy s = bootCopy t := by unfold bootCopy; rw [hbytes]
  unfold bootRec newerCopy
  rw [hcopy]

/-- Slot B is pending in the boot record, and no boot has tried it; the flash holds no image. -/
def slotBPending : State := putBootRec ⟨0, 0, true, 1, 0⟩ State.reset

/-- A boot with a sound ROM and a flash that meets R399, after a loss of VBAT. -/
def bootWithFlash : BootIn := ⟨true, true, true, some ⟨6, true, true, 160, true⟩, false, 0, [], 0, 0, true⟩

theorem bootRec_slotBPending : bootRec slotBPending = ⟨1, 0, true, 1, 0⟩ := by decide +kernel

/-- Step 3 has written the record anew, with TRIES one up. -/
theorem bootRec_coldReset_slotBPending : bootRec (coldReset bootWithFlash slotBPending) = ⟨2, 0, true, 1, 1⟩ := by decide +kernel

/-- Refutes O42: its clause on every COLD_RESET keeps the flash, and the boot of a pending slot counts the try in the boot record (R401). -/
theorem not_bootLoadsAndRuns : ¬ Obligations.BootLoadsAndRuns := by
  unfold Obligations.BootLoadsAndRuns
  rintro ⟨-, -, -, hboot, -⟩
  have hexec : exec (.coldReset bootWithFlash) slotBPending = .next (coldReset bootWithFlash slotBPending) := rfl
  obtain ⟨-, -, -, -, hflash, -⟩ := (hboot bootWithFlash slotBPending (by decide +kernel) (by decide +kernel)).holds hexec
  have hrec := bootRec_congr hflash
  rw [bootRec_coldReset_slotBPending, bootRec_slotBPending] at hrec
  exact absurd hrec (by decide)

/-! ### A COMMIT in a tick in which a source has made a token (R180, R231) -/

/-- A token of partition 1 that one of its sources has made, due at T 0. -/
def madeToken : Token := ⟨mkTag 0 0 3 21 0 1 4 0, 0, 77, false⟩

/-- Partition 1 is LOADING at its T_go, 1000, and its source 5 has made a token in this tick. -/
def commitAfterMade : State :=
  { State.reset.set F.partStat_STATE 1 pLoading with
    t := 1000
    ap := { State.reset.ap with goAt := [(1, 1000)] }
    lens := { State.reset.lens with made := [(5, madeToken)] } }

/-- COMMIT stamps the token with the due of the mode that takes over: T + 2²⁰, for a source of which the certificate says nothing. -/
theorem made_commit_commitAfterMade : (commit 1 commitAfterMade).lens.made = [(5, { madeToken with due := 1000 + 2 ^ 20 })] := by decide +kernel

/-- Refutes O45: its clause on COMMIT lets registers and Aperture's state change alone, and COMMIT stamps the source tokens of its tick anew
(R180). -/
theorem not_apertureAdmitsAndReleases : ¬ Obligations.ApertureAdmitsAndReleases := by
  unfold Obligations.ApertureAdmitsAndReleases
  rintro ⟨-, -, -, -, -, -, -, -, -, -, -, -, -, hcommit, -⟩
  have hlive : commitAfterMade.fatal = false := by decide +kernel
  have hexec : exec (.commit 1) commitAfterMade = .next (commit 1 commitAfterMade) :=
    congrArg Host.Outcome.next (unlessFatal_live hlive (commit 1))
  obtain ⟨-, -, -, -, -, hframe⟩ := (hcommit 1 1000 commitAfterMade hlive (by decide +kernel) (by decide +kernel) (by decide +kernel)).holds hexec
  have hmade : (commit 1 commitAfterMade).lens.made = commitAfterMade.lens.made := congrArg (·.lens.made) hframe
  exact absurd (made_commit_commitAfterMade.symm.trans hmade) (by decide +kernel)

end Sys2Proof.Machine
end

section
/-!
SUPPORT. A statement against a state that the model evaluates: a reclaim sweep beside a QUARANTINED cluster, which keeps what it holds (O31).
-/
set_option Elab.async false
namespace Sys2Proof.Machine
open Sys2Proof

/-! ### A sweep beside a QUARANTINED cluster (R120, R141) -/

/-- The block that partition 1 reclaims: contexts 4 to 7 of region 0. -/
def reclaimedBlock : Block := ⟨1, 0, 0, 4, 2, 0⟩

/-- An enabled instance at PE 5 of cluster 3, of partition 1 and context 4. -/
def instanceInBlock : Slot := ⟨3, 5, mkTag 0 0 3 21 0 1 4 0, 0, false, none, none, none, 0⟩

/-- Best-effort partition 1 stands in a reclaim pause, and cluster 3, which it owns, is QUARANTINED with an enabled instance of the block. -/
def sweepBesideQuarantine : State :=
  let s := (State.reset.set F.partStat_STATE 1 pBestEffort).set F.dlStat_RECLAIMING 1 1
  let s := (s.set F.clStatus_STATE 3 4).set F.clStatus_OWNER 3 1
  { s with cl := { s.cl with slots := [instanceInBlock], reclaim := [⟨1, reclaimedBlock, 0⟩] } }

/-- The sweep passes the QUARANTINED cluster by: its queue slot stays (R120). -/
theorem slots_sweepEnd_sweepBesideQuarantine : (sweepEnd 1 sweepBesideQuarantine).cl.slots = [instanceInBlock] := by decide +kernel

/-- Refutes O31: its clause on RECLAIM_SWEEP_END clears the block from every cluster that the partition owns, and a QUARANTINED one keeps its
contents (R120). -/
theorem not_deadlocksAreDetectedAndReclaimed : ¬ Obligations.DeadlocksAreDetectedAndReclaimed := by
  unfold Obligations.DeadlocksAreDetectedAndReclaimed
  rintro ⟨-, -, -, -, -, -, -, -, -, hsweep, -⟩
  have hlive : sweepBesideQuarantine.fatal = false := by decide +kernel
  have hexec : exec (.reclaimSweepEnd 1) sweepBesideQuarantine = .next (sweepEnd 1 sweepBesideQuarantine) :=
    congrArg Host.Outcome.next (unlessFatal_live hlive (sweepEnd 1))
  obtain ⟨-, -, -, -, -, hnone, -⟩ := (hsweep 1 ⟨1, reclaimedBlock, 0⟩ sweepBesideQuarantine hlive (by decide +kernel)
    (by decide +kernel)).holds hexec
  rw [slots_sweepEnd_sweepBesideQuarantine] at hnone
  exact absurd hnone (by decide +kernel)

end Sys2Proof.Machine
end

section
/-!
SUPPORT. Two statements against states that the model evaluates: a migration's switch in a package that binds admitted routes of its own (O19), and
a failed copy into a cluster that was QUARANTINED meanwhile (O46).
-/
set_option Elab.async false
namespace Sys2Proof.Machine
open Sys2Proof

/-! ### What the rewriting of the routes leaves (R197) -/

theorem OnlyRegs.foldl {l : List Fld} {α : Type} {g : State → α → State} {as : List α} {s t : State} (h : OnlyRegs l s t)
    (hg : ∀ {u : State} {a : α}, OnlyRegs l s u → OnlyRegs l s (g u a)) : OnlyRegs l s (as.foldl g t) := by
  induction as generalizing t with
  | nil => exact h
  | cons a as ih => exact ih (hg h)

/-- The register fields that hold the destinations of a partition. -/
def destFields : List Fld :=
  [F.rtEntry_CLUSTER, F.rtEntry_DIE, F.rtEntry_PKG, F.rtEntry_VALID, F.rtAlt_CLUSTER, F.rtAlt_DIE, F.rtAlt_PKG, F.rtAlt_VALID,
    F.trigDst_CLUSTER, F.trigDst_DIE, F.chDst_CLUSTER, F.chDst_DIE, F.reclaimTgt_CLUSTER, F.reclaimTgt_DIE]

section
variable {s t : State}

theorem OnlyRegs.setDest {f : Fld} {i v : ℕ} (h : OnlyRegs destFields s t) (hf : f ∈ destFields := by simp [destFields]) :
    OnlyRegs destFields s (t.set f i v) :=
  h.set hf

theorem OnlyRegs.setRtEntry {i w : ℕ} (h : OnlyRegs destFields s t) : OnlyRegs destFields s (setRtEntry i w t) :=
  h.setDest.setDest.setDest.setDest

theorem OnlyRegs.setRtAlt {i w : ℕ} (h : OnlyRegs destFields s t) : OnlyRegs destFields s (setRtAlt i w t) :=
  h.setDest.setDest.setDest.setDest

theorem OnlyRegs.rerouteFields {pkg frm dst i : ℕ} {fc fd fp : Fld} (h : OnlyRegs destFields s t) (hc : fc ∈ destFields := by simp [destFields])
    (hd : fd ∈ destFields := by simp [destFields]) : OnlyRegs destFields s (rerouteFields pkg frm dst fc fd fp i t) :=
  .ite ((h.setDest hc).setDest hd) h

/-- The clusters that a partition owns are what OWNER says. -/
theorem OnlyRegs.clustersOf (h : OnlyRegs destFields s t) (p : ℕ) : t.clustersOf p = s.clustersOf p := by
  have howner (c : ℕ) : t.cOwner c = s.cOwner c := h.2 F.clStatus_OWNER c (by decide)
  simp only [State.clustersOf, howner]

/-- From `s` to `t` no register but those of destinations has changed, and the routes bound at admission name TO in every cluster that the
partition owns. -/
structure Rerouted (p pkg frm dst : ℕ) (s t : State) : Prop where
  regs : RegsBut destFields s t
  loaded : t.ap.loaded = s.ap.loaded.map fun (e : ℕ × List ℕ) =>
    if (s.clustersOf p).contains e.1 then (e.1, e.2.map (rerouteWord pkg frm dst)) else e

theorem OnlyRegs.rerouted {p pkg frm dst : ℕ} {lens : LensSt} {bank : BankSt} {redirects : List Redirect} (h : OnlyRegs destFields s t) :
    Rerouted p pkg frm dst s { t with
      lens := lens
      bank := bank
      ap := { t.ap with
        redirects := redirects
        loaded := t.ap.loaded.map fun (e : ℕ × List ℕ) =>
          if (t.clustersOf p).contains e.1 then (e.1, e.2.map (rerouteWord pkg frm dst)) else e } } := by
  have hap : t.ap = s.ap := by rw [h.1]
  refine ⟨h.2, ?_⟩
  rw [h.clustersOf, hap]

theorem rerouteAll_rerouted (p pkg frm dst : ℕ) (s : State) : Rerouted p pkg frm dst s (rerouteAll p pkg frm dst s) := by
  unfold rerouteAll
  extract_lets s₁ s₂ s₃
  have h₁ : OnlyRegs destFields s s₁ := (OnlyRegs.refl _ s).foldl fun h => h.foldl fun h => h.setRtEntry.setRtAlt
  have h₂ : OnlyRegs destFields s s₂ := h₁.foldl fun h => .ite (.rerouteFields (.ite h.rerouteFields h)) (.ite h.rerouteFields h)
  have h₃ : OnlyRegs destFields s s₃ := h₂.foldl fun h => h.foldl fun h => h.rerouteFields
  exact h₃.rerouted
end

/-! ### A switch tick in another package of the partition (R178, R197) -/

theorem exec_migrationSwitch (p : Fin 8) (s : State) : exec (.migrationSwitch p) s = .next (unlessFatal (migrationSwitch p) s) := rfl

/-- Outside FROM's own package the switch is the rewriting alone. -/
theorem migrationSwitch_away {p : ℕ} {x : Staged} {s : State} (hdue : dueStaged s 2 (some p) = some x) (haway : x.src ≠ s.pkg) :
    migrationSwitch p s = rerouteAll p x.src x.frm x.dst (dropStaged x s) := by
  have hpkg : (rerouteAll p x.src x.frm x.dst (dropStaged x s)).pkg = s.pkg :=
    (rerouteAll_rerouted p x.src x.frm x.dst (dropStaged x s)).regs F.devId_PKG 0 (by decide)
  unfold migrationSwitch
  rw [hdue]
  exact if_pos (by rwa [hpkg])

/-- The word of a route entry that names a cluster of die 0 in package 1. -/
def routeToPackage1 (c : ℕ) : ℕ := c + 2 ^ 8 + 2 ^ 15

/-- The migration of partition 2 from cluster 3 to cluster 4, both of package 1, whose switch tick is 5000. -/
def switchOfPackage1 : Staged := ⟨2, 2, 0, 5000, false, 1, 3, 4, [], [], true⟩

/-- The switch tick in package 0, where partition 2 runs cluster 9. Its route entry 1 names FROM, and so it did at admission. -/
def switchInPackage0 : State :=
  let s := (State.reset.set F.clStatus_STATE 9 2).set F.clStatus_OWNER 9 2
  { setRtEntry (9 * 32 + 1) (routeToPackage1 3) s with
    t := 5000
    staged := [switchOfPackage1]
    ap := { State.reset.ap with loaded := [(9, routeToPackage1 3 :: List.replicate 30 0)] } }

/-- The switch rewrites the routes bound at admission as it rewrites the entries. -/
theorem loaded_migrationSwitch_switchInPackage0 :
    (migrationSwitch 2 switchInPackage0).ap.loaded = [(9, routeToPackage1 4 :: List.replicate 30 0)] := by
  rw [migrationSwitch_away (x := switchOfPackage1) (by decide +kernel) (by decide +kernel), (rerouteAll_rerouted ..).loaded]
  decide +kernel

/-- Refutes O19: its clause on MIGRATION_SWITCH lets Aperture's state in another package gain the redirect alone, and the switch makes the routes
bound there at admission name TO as well (R197). -/
theorem not_scheduledOperationsRun : ¬ Obligations.ScheduledOperationsRun := by
  unfold Obligations.ScheduledOperationsRun
  rintro ⟨-, -, -, -, hswitch, -⟩
  have hlive : switchInPackage0.fatal = false := by decide +kernel
  have hexec : exec (.migrationSwitch 2) switchInPackage0 = .next (migrationSwitch 2 switchInPackage0) := by
    rw [exec_migrationSwitch, unlessFatal_live hlive, Fin.val_two]
  obtain ⟨-, -, -, -, -, haway, -⟩ := (hswitch 2 switchOfPackage1 switchInPackage0 hlive (by decide +kernel) (by decide) (by decide)
    (by decide)).holds hexec
  obtain ⟨hap, -⟩ := haway (by decide +kernel)
  have hloaded := congrArg ApSt.loaded hap
  dsimp only at hloaded
  exact absurd (loaded_migrationSwitch_switchInPackage0.symm.trans hloaded) (by decide +kernel)

/-! ### A copy that fails while TO is QUARANTINED (R194, R197, R199) -/

theorem exec_migrationCopyDone (p : Fin 8) (r : Rewrite) (s : State) :
    exec (.migrationCopyDone p r) s = .next (unlessFatal (migrationCopyDone p r) s) := rfl

/-- What a migration does when TO's user set was not loaded. -/
def failCopy (p ram : ℕ) (g : Mig) (s : State) : State :=
  let s := (goldenRead ram s).2
  let s := { s with ap := { s.ap with migs := s.ap.migs.erase g } }
  let s := giveUpCluster p g.dst (s.set F.migCtl_ACTIVE g.frm 0)
  lateVerdict p 5 vLoad (countClusters p (writeQuota p (certsOf [g.old]) s))

theorem migrationCopyDone_failed {p : ℕ} {r : Rewrite} {g : Mig} {k : Cert} {s : State}
    (hcopied : (s.ap.migs.find? fun g => g.part = p && g.ts.isNone && 16384 ≤ g.next && !apertureWaits s) = some g)
    (hcert : parseCert g.cert = .ok k)
    (hsets : (k.recs.filter fun r => r.typ = tCluster && r.key = g.dst && r.fld 2 26 1 = 1) ≠ []) (hbad : r.good = false) :
    migrationCopyDone p r s = failCopy p r.ram g s := by
  have hsome : ((k.recs.filter fun r => r.typ = tCluster && r.key = g.dst && r.fld 2 26 1 = 1).map fun r => r.fld 2 21 5).isEmpty = false := by
    simpa using hsets
  unfold migrationCopyDone
  rw [hcopied]
  dsimp only
  rw [hcert]
  dsimp only
  rw [hsome, hbad, if_neg Bool.false_ne_true]
  exact if_pos (.inl rfl)

/-- A certificate is read as its header and its records say, once they and the CRC are in order (R177). -/
theorem parseCert_of_parts {ws : List ℕ} {rs : List Rec} (hmagic : ws.getD 0 0 = 0x014C4D4331)
    (hhead : ¬(ws.length < 5 ∨ 131072 < ws.length ∨ bits (ws.getD 1 0) 0 18 ≠ ws.length ∨ ws.getD 1 0 / 2 ^ 44 ≠ 0 ∨
      bits (ws.getD 1 0) 39 5 = 0 ∨ 16 < bits (ws.getD 1 0) 39 5))
    (hid : ws.getD 2 0 / 2 ^ 32 = 0) (hcrc : ws.getD (ws.length - 1) 0 = crcWords (ws.take (ws.length - 1)))
    (hrecs : parseRecs (bits (ws.getD 1 0) 39 5) (ws.length - 1) ws.length 3 none (ws.drop 3) [] = .ok rs)
    (hpart : (rs.any fun r => r.typ = tPartition) = true) :
    parseCert ws = .ok ⟨bits (ws.getD 1 0) 18 3, bits (ws.getD 1 0) 21 2, bits (ws.getD 1 0) 23 16, bits (ws.getD 1 0) 39 5, ws.getD 2 0, rs⟩ := by
  unfold parseCert
  dsimp only
  rw [if_neg (not_not_intro hmagic), if_neg hhead, if_neg (not_not_intro hid), if_neg (not_not_intro hcrc), hrecs]
  exact if_pos hpart

/-- Words with their CRC behind them meet the check of it (R173). -/
theorem crc_sealed (ws : List ℕ) : (ws ++ [crcWords ws]).getD ((ws ++ [crcWords ws]).length - 1) 0 =
    crcWords ((ws ++ [crcWords ws]).take ((ws ++ [crcWords ws]).length - 1)) := by
  have hlen : (ws ++ [crcWords ws]).length - 1 = ws.length := by simp
  rw [hlen, List.take_left, List.getD_append_right _ _ _ _ le_rfl, Nat.sub_self]
  rfl

/-- The words after the header of a CLUSTER record that loads user set 5: no spill area, and a buffer of one token at each PE. -/
def userSetBody : List ℕ := [0, 5 * 2 ^ 21 + 2 ^ 26, 0] ++ (List.replicate 16 [0, 0, 2 ^ 25]).flatten

/-- A best-effort certificate of partition 1 in package 0 with one mode, its PARTITION record, and a CLUSTER record for cluster 9; its CRC is to
follow. -/
def placementBody : List ℕ :=
  [0x014C4D4331, 58 + 1 * 2 ^ 18 + 3 * 2 ^ 21 + 1 * 2 ^ 23 + 1 * 2 ^ 39, 0x77, tPartition + 2 * 2 ^ 8, 8 * 2 ^ 4] ++
    (tCluster + 52 * 2 ^ 8 + 9 * 2 ^ 26) :: userSetBody

/-- The certificate's words. -/
def placementWords : List ℕ := placementBody ++ [crcWords placementBody]

/-- What these words say. -/
def placementCert : Cert := ⟨1, 3, 1, 1, 0x77, [⟨tPartition, 0, 3, [8 * 2 ^ 4], none⟩, ⟨tCluster, 9, 5, userSetBody, none⟩]⟩

theorem parseCert_placementWords : parseCert placementWords = .ok placementCert :=
  parseCert_of_parts (rs := placementCert.recs) rfl (by decide +kernel) (by decide +kernel) (crc_sealed placementBody) (by decide +kernel)
    (by decide +kernel)

/-- A migration of partition 1 from cluster 5 to cluster 9 whose copy has been sent and answered. -/
def copiedMigration : Mig := ⟨1, 5, 9, placementWords, [], none, false, 16384⟩

/-- Cluster 9, the TO of that migration, has gone to QUARANTINED while the copy was made. -/
def copyIntoQuarantine : State :=
  let s := ((State.reset.set F.clStatus_STATE 5 2).set F.clStatus_OWNER 5 1).set F.migCtl_ACTIVE 5 1
  let s := (s.set F.clStatus_STATE 9 4).set F.clStatus_OWNER 9 1
  { s with ap := { State.reset.ap with migs := [copiedMigration] } }

theorem copied_copyIntoQuarantine : (copyIntoQuarantine.ap.migs.find? fun g =>
    g.part = 1 && g.ts.isNone && 16384 ≤ g.next && !apertureWaits copyIntoQuarantine) = some copiedMigration :=
  List.find?_cons_of_pos (by decide +kernel)

theorem userSet_placementCert : (placementCert.recs.filter fun r => r.typ = tCluster && r.key = 9 && r.fld 2 26 1 = 1) ≠ [] := by
  decide +kernel

/-- The LOAD failure ends the migration, and TO stays QUARANTINED. -/
theorem cState_migrationCopyDone_copyIntoQuarantine : (migrationCopyDone 1 ⟨false, 0⟩ copyIntoQuarantine).cState 9 = 4 := by
  rw [migrationCopyDone_failed copied_copyIntoQuarantine parseCert_placementWords userSet_placementCert rfl]
  decide +kernel

/-- Refutes O46: its clause on a failed copy returns every TO to UNOWNED, and one that was QUARANTINED meanwhile keeps its state (R120). -/
theorem not_modesChangeAndPlacementsMove : ¬ Obligations.ModesChangeAndPlacementsMove := by
  unfold Obligations.ModesChangeAndPlacementsMove
  rintro ⟨-, -, -, -, -, -, -, -, -, -, -, -, hfailed, -⟩
  have hlive : copyIntoQuarantine.fatal = false := by decide +kernel
  have hexec : exec (.migrationCopyDone 1 ⟨false, 0⟩) copyIntoQuarantine = .next (migrationCopyDone 1 ⟨false, 0⟩ copyIntoQuarantine) := by
    rw [exec_migrationCopyDone, unlessFatal_live hlive, Fin.val_one]
  obtain ⟨hstate, -⟩ := (hfailed 1 ⟨false, 0⟩ copiedMigration placementCert copyIntoQuarantine hlive copied_copyIntoQuarantine
    parseCert_placementWords userSet_placementCert rfl (by decide)).holds hexec
  exact absurd (cState_migrationCopyDone_copyIntoQuarantine.symm.trans hstate) (by decide)

end Sys2Proof.Machine
end

section
/-!
SUPPORT. Guarantees: their return after a suspension, the re-examination of the ledger after a loss of capacity, and the acknowledgement of LOST
(O47).
-/
set_option Elab.async false
namespace Sys2Proof.Machine
open Sys2Proof

/-! ### The end of a suspension (R188) -/

theorem exec_guaranteeRestore (p : Fin 8) (s : State) : exec (.guaranteeRestore p) s = .next (unlessFatal (guaranteeRestore p) s) := rfl

theorem guaranteeRestore_due {p t0 : ℕ} {k : Cert} {s : State} (hat : mfind s.ap.suspendedAt p = some t0) (hk : admitted s p = some k)
    (hstate : s.pState p = pSuspended) (hreload : ((s.clustersOf p).any fun c => (mfind s.cl.reload c).isSome) = false)
    (hdue : t0 + (ledgerVf s p k).maxTicks ≤ s.ticks) :
    guaranteeRestore p s = { s with ap := { s.ap with suspendedAt := mdel s.ap.suspendedAt p } }.set F.partStat_STATE p pGuaranteed := by
  unfold guaranteeRestore
  rw [hat, hk]
  exact if_pos ⟨hstate, by rw [hreload]; rfl, hdue⟩

theorem guaranteeRestore_early {p t0 : ℕ} {s : State} (hat : mfind s.ap.suspendedAt p = some t0) (hearly : s.ticks < t0) :
    guaranteeRestore p s = s := by
  unfold guaranteeRestore
  rw [hat]
  cases admitted s p with
  | none => rfl
  | some k => exact if_neg fun ⟨_, _, hdue⟩ => by omega

/-! ### What the end of a request leaves of the bounds (R182–R185)

The verification of a certificate reads a state, but neither the losses that it records nor whether a re-examination is asked. -/

/-- The state in which no loss is recorded and no re-examination asked. -/
def examined (s : State) : State := { s with ap := { s.ap with lost := [], reexamine := false } }

/-- A verification in such a state. -/
def Vf.examined (v : Vf) : Vf := { v with s := Machine.examined v.s }

section
variable (v : Vf)

theorem walk_examined (s : State) (d : Dest) (lens : Bool) (n node : ℕ) (via : Option ℕ) :
    walk (examined s) d lens n node via = walk s d lens n node via := by
  induction n generalizing node via with
  | zero => rfl
  | succ n ih =>
    simp only [walk, ih]
    rfl

theorem Vf.xfer_examined (a : ℕ) (d : Dest) (lens : Bool) : v.examined.xfer a d lens = v.xfer a d lens := by
  simp only [Vf.xfer, Vf.examined, walk_examined]
  rfl

theorem Vf.xferFar_examined (a : ℕ) (d : Dest) : v.examined.xferFar a d = v.xferFar a d := by
  simp only [Vf.xferFar, Vf.xfer_examined]
  rfl

theorem Vf.resp_examined (m : ℕ) (h : Hop) : v.examined.resp m h = v.resp m h := by
  simp only [Vf.resp, Vf.xfer_examined, Vf.xferFar_examined]
  rfl

theorem Vf.stub_examined (m : ℕ) (hs : List Hop) : v.examined.stub m hs = v.stub m hs := by
  simp only [Vf.stub, Vf.xfer_examined]
  rfl

theorem Vf.hop_examined (m : ℕ) (h : Hop) (sigma : ℤ) : v.examined.hop m h sigma = v.hop m h sigma := by
  simp only [Vf.hop, Vf.resp_examined]
  rfl

theorem Vf.sigmas_examined (d : ℤ) (hs : List Hop) : v.examined.sigmas d hs = v.sigmas d hs := by
  induction hs generalizing d with
  | nil => rfl
  | cons h hs ih =>
    simp only [Vf.sigmas, ih]
    rfl

theorem Vf.ticks_examined (m : ℕ) (r : Rec) : v.examined.ticks m r = v.ticks m r := by
  simp only [Vf.ticks, Vf.rOf, Vf.xfer_examined, Vf.xferFar_examined, Vf.stub_examined, Vf.hop_examined, Vf.sigmas_examined]
  rfl

theorem Vf.limit_examined (m : ℕ) (r : Rec) : v.examined.limit m r = v.limit m r := by
  simp only [Vf.limit, Vf.dOf, Vf.sigmas_examined]
  rfl

theorem Vf.boundBad_examined : v.examined.boundBad = v.boundBad := by
  simp only [Vf.boundBad, Vf.ticks_examined, Vf.limit_examined]
  rfl

theorem Vf.demands_examined : v.examined.demands = v.demands := rfl

theorem Vf.capacity_examined : v.examined.capacity = v.capacity := by simp only [Vf.capacity, Vf.demands_examined]
end

theorem admitted_examined (s : State) (p : ℕ) : admitted (examined s) p = admitted s p := rfl

theorem ledgerVf_examined (s : State) (p : ℕ) (k : Cert) : ledgerVf (examined s) p k = (ledgerVf s p k).examined := rfl

theorem stillFits_examined (s : State) (p : ℕ) : stillFits (examined s) p = stillFits s p := by
  simp only [stillFits, admitted_examined, ledgerVf_examined, Vf.capacity_examined, Vf.boundBad_examined]

/-! ### The loop of R190 -/

/-- Every guarantee still fits the ledger. -/
def ledgerFits (s : State) : Bool := (List.range 8).all fun p => s.pState p ≠ pGuaranteed || stillFits s p

theorem ledgerFits_examined (s : State) : ledgerFits (examined s) = ledgerFits s := by
  simp only [ledgerFits, stillFits_examined]
  rfl

theorem ledgerFits_of_none {s : State} (h : ∀ q < 8, s.pState q ≠ pGuaranteed) : ledgerFits s = true := by
  simp only [ledgerFits, List.all_eq_true, List.mem_range]
  intro q hq
  rw [decide_eq_true (h q hq), Bool.true_or]

theorem refit_of_fits {s : State} (h : ledgerFits s = true) : ∀ n, refit n s = s
  | 0 => rfl
  | _ + 1 => if_pos h

/-- Where one partition alone meets the condition, it is the only one listed. -/
theorem fromLowest_eq_singleton {s : State} {p : ℕ} {c : ℕ → Bool} (hp : p < 8) (hcrit : s.get F.partStat_CRIT p < 4)
    (hc : ∀ q, c q = decide (q = p)) : fromLowest s c = [p] := by
  have hpick : [7, 6, 5, 4, 3, 2, 1, 0].filter (fun q => decide (q = p)) = [p] := by
    interval_cases p <;> rfl
  have hlevel (k : ℕ) : [7, 6, 5, 4, 3, 2, 1, 0].filter (fun q => s.get F.partStat_CRIT q = k && c q) =
      if s.get F.partStat_CRIT p = k then [p] else [] := by
    split_ifs with hk
    · rw [← hpick]
      refine List.filter_congr fun q _ => ?_
      by_cases hq : q = p
      · simp [hc, hq, hk]
      · simp [hc, hq]
    · rw [List.filter_eq_nil_iff]
      rintro q - hq
      simp only [hc, Bool.and_eq_true, decide_eq_true_eq] at hq
      obtain ⟨hlevel, rfl⟩ := hq
      exact hk hlevel
  simp only [fromLowest, hlevel]
  generalize s.get F.partStat_CRIT p = k at hcrit
  interval_cases k <;> rfl

/-! ### A guarantee is revoked (R190) -/

theorem markLost_regsBut (p reason : ℕ) (s : State) :
    RegsBut [F.partStat_LOST, F.partStat_REASON, F.evCfg_COUNT, F.evCfg_PEND] s (markLost p reason s) :=
  raiseEvent_regsBut (RegsBut.refl _ s).set.set (by simp) (by simp)

theorem markLost_lost (p reason : ℕ) (s : State) : (markLost p reason s).get F.partStat_LOST p = 1 := by
  rw [markLost, raiseEvent_get_ne _ _ _ _ (by decide), State.get_set_ne _ _ _ _ _ _ (by decide), State.get_set_same]
  rfl

theorem markLost_reason (p reason : ℕ) (s : State) : (markLost p reason s).get F.partStat_REASON p = reason % 16 := by
  rw [markLost, raiseEvent_get_ne _ _ _ _ (by decide), State.get_set_same]
  rfl

theorem markLost_count (p reason : ℕ) (s : State) :
    (markLost p reason s).get F.evCfg_COUNT (216 + p) = (s.get F.evCfg_COUNT (216 + p) + 1) % 2 ^ F.evCfg_COUNT.w := by
  rw [markLost, raiseEvent_count, State.get_set_ne _ _ _ _ _ _ (by decide), State.get_set_ne _ _ _ _ _ _ (by decide)]

theorem revoke_keeping {p : ℕ} {s : State} (reason : ℕ) (hact : s.get F.partCfg_REVOKE_ACT p = 0) :
    revoke p reason s = (markLost p reason s).set F.partStat_STATE p pRevoked :=
  if_pos ((markLost_regsBut p reason s F.partCfg_REVOKE_ACT p (by decide)).trans hact)

/-! ### LEDGER_REEXAMINE (R190, R201) -/

theorem exec_ledgerReexamine (s : State) : exec .ledgerReexamine s = .next (unlessFatal ledgerReexamine s) := rfl

theorem ledgerReexamine_waits {s : State}
    (h : s.ap.reexamine = false ∨ ((dueStaged s 1 none).isSome || (dueStaged s 2 none).isSome) = true) : ledgerReexamine s = s := by
  refine if_pos ?_
  rw [Bool.or_assoc]
  rcases h with h | h
  · rw [h]
    rfl
  · rw [h, Bool.or_true]

/-- The partitions that a recorded loss affects directly. -/
def affected (s : State) : List ℕ :=
  fromLowest s fun p => (s.ap.lost.any fun x => x.1 = p) && (s.pState p = pGuaranteed || s.pState p = pSuspended)

/-- The reason of the first loss recorded for a partition. -/
def lossReason (s : State) (p : ℕ) : ℕ := ((s.ap.lost.find? fun x => x.1 = p).map (·.2)).getD 7

theorem ledgerReexamine_asked {s : State} (hask : s.ap.reexamine = true) (hmode : dueStaged s 1 none = none)
    (hmig : dueStaged s 2 none = none) :
    ledgerReexamine s = refit 16 (examined ((affected s).foldl (fun u p => revoke p (lossReason s p) u) s)) :=
  if_neg (by simp [hask, hmode, hmig])

theorem affected_of_no_loss {s : State} (h : s.ap.lost = []) : affected s = [] := by
  simp [affected, fromLowest, h]

theorem affected_of_one_loss {s : State} {p r : ℕ} (hp : p < 8) (hlost : s.ap.lost = [(p, r)]) (hstate : s.pState p = pGuaranteed)
    (hcrit : s.get F.partStat_CRIT p < 4) : affected s = [p] := by
  refine fromLowest_eq_singleton hp hcrit fun q => ?_
  by_cases hq : q = p
  · subst hq
    simp [hlost, hstate]
  · simp [hlost, hq, Ne.symm hq]

/-- Where nothing was lost and every guarantee fits, the request alone ends. -/
theorem ledgerReexamine_fits {s : State} (hask : s.ap.reexamine = true) (hmode : dueStaged s 1 none = none)
    (hmig : dueStaged s 2 none = none) (hlost : s.ap.lost = []) (hfits : ledgerFits s = true) :
    ledgerReexamine s = { s with ap := { s.ap with reexamine := false } } := by
  rw [ledgerReexamine_asked hask hmode hmig, affected_of_no_loss hlost, List.foldl_nil,
    refit_of_fits ((ledgerFits_examined s).trans hfits), examined, ← hlost]

/-- The loss of the only guarantee of the package revokes it, and nothing is left to fit. -/
theorem ledgerReexamine_revokes {s : State} {p : Fin 8} {r : ℕ} (hask : s.ap.reexamine = true) (hmode : dueStaged s 1 none = none)
    (hmig : dueStaged s 2 none = none) (hlost : s.ap.lost = [(p.val, r)]) (hstate : s.pState p = pGuaranteed)
    (hcrit : s.get F.partStat_CRIT p < 4) (hact : s.get F.partCfg_REVOKE_ACT p = 0)
    (hothers : ∀ q : Fin 8, q ≠ p → s.pState q ≠ pGuaranteed) :
    ledgerReexamine s = examined ((markLost p r s).set F.partStat_STATE p pRevoked) := by
  have hreason : lossReason s p = r := by simp [lossReason, hlost]
  rw [ledgerReexamine_asked hask hmode hmig, affected_of_one_loss p.isLt hlost hstate hcrit, List.foldl_cons, List.foldl_nil, hreason,
    revoke_keeping r hact]
  refine refit_of_fits ((ledgerFits_examined _).trans (ledgerFits_of_none fun q hq => ?_)) 16
  by_cases hqp : q = p
  · subst hqp
    exact (State.get_set_same _ F.partStat_STATE p pRevoked).trans_ne (by decide)
  · refine ne_of_eq_of_ne ?_ (hothers ⟨q, hq⟩ fun h => hqp (congrArg Fin.val h))
    exact (State.get_set_idx _ F.partStat_STATE F.partStat_STATE _ _ _ (Ne.symm hqp)).trans
      (markLost_regsBut p r s F.partStat_STATE q (by decide))

/-! ### LOST_ACK (R201) -/

/-- PART_STAT as the register map has it. -/
def partStatDef : RegDef := ⟨.partStat, 0x100, 8, 8, 1, 0, [F.partStat_STATE, F.partStat_CRIT, F.partStat_EPOCH, F.partStat_MODE,
  F.partStat_REASON, F.partStat_LOST, F.partStat_ACK, F.partStat_MISSES]⟩

theorem regOf_partStat : regOf .ap .partStat = some partStatDef := by decide +kernel

/-- A write of PART_STAT acts through ACK alone. -/
theorem regWrite_partStat (init : ℕ) (priv full : Bool) (w : Wr) (s : State) :
    (regWrite init priv full .ap partStatDef w s).2 = if w.hit F.partStat_ACK then s.set F.partStat_LOST w.i 0 else s := rfl

theorem exec_lostAck {s : State} (hf : s.fatal = false) (who : From) (p : Fin 8) :
    exec (.lostAck who p) s = .next (s.set F.partStat_LOST p 0) := by
  have hcmd : fieldCmd who .ap .partStat F.partStat_ACK p 1 s = s.set F.partStat_LOST p 0 := by
    rw [fieldCmd, regMasked, hf, if_neg Bool.false_ne_true, regOf_partStat]
    dsimp only
    rw [regWrite_partStat]
    exact if_pos (by simp [Wr.hit, bits, F.partStat_ACK])
  exact congrArg _ hcmd

/-! ### The statement -/

/-- Settles O47, clause by clause. -/
theorem guaranteesAreLostAndRestored : Obligations.GuaranteesAreLostAndRestored := by
  unfold Obligations.GuaranteesAreLostAndRestored
  refine ⟨?restores, ?early, ?unasked, ?switchFirst, ?fits, ?revokes, ?ack⟩
  case restores =>
    intro p t0 k s hf hat hk hstate hreload hdue
    refine completes_next (exec_guaranteeRestore p s) ?_
    rw [unlessFatal_live hf, guaranteeRestore_due hat hk hstate hreload hdue]
    exact ⟨State.get_set_same _ F.partStat_STATE p pGuaranteed, (mfind_mdel s.ap.suspendedAt p p).trans (if_pos rfl), rfl,
      ((RegsBut.refl _ s).regs rfl).set, fun j hj => State.get_set_idx _ _ _ _ _ _ hj.symm⟩
  case early => exact fun p t0 s hat hearly => congrArg Host.Outcome.next (unlessFatal_eq_self (guaranteeRestore_early hat hearly))
  case unasked => exact fun s h => congrArg Host.Outcome.next (unlessFatal_eq_self (ledgerReexamine_waits (.inl h)))
  case switchFirst => exact fun s h => congrArg Host.Outcome.next (unlessFatal_eq_self (ledgerReexamine_waits (.inr h)))
  case fits =>
    intro s hf hask hmode hmig hlost hfits
    rw [exec_ledgerReexamine, unlessFatal_live hf, ledgerReexamine_fits hask hmode hmig hlost hfits]
  case revokes =>
    intro p r s hf hask hmode hmig hlost hstate hcrit hact hothers
    refine completes_next (exec_ledgerReexamine s) ?_
    rw [unlessFatal_live hf, ledgerReexamine_revokes hask hmode hmig hlost hstate hcrit hact hothers]
    have hframe := markLost_frame p r s
    have hget {f : Fld} (i : ℕ) (h : F.partStat_STATE.id ≠ f.id) :
        (examined ((markLost p r s).set F.partStat_STATE p pRevoked)).get f i = (markLost p r s).get f i := State.get_set_ne _ _ _ _ _ _ h
    refine ⟨State.get_set_same _ F.partStat_STATE p pRevoked, ?_, ?_, ?_, ?_, ?_, ?_, ?_, fun j hj => ?_⟩
    · rw [hget _ (by decide), markLost_lost]
    · rw [hget _ (by decide), markLost_reason]
    · rw [hget _ (by decide), markLost_count]
    · rw [examined, hframe]
      rfl
    · rw [examined, hframe]
      rfl
    · rw [examined, hframe]
      rfl
    · rw [examined, hframe]
      rfl
    · exact (State.get_set_idx _ F.partStat_STATE F.partStat_STATE _ _ _ hj.symm).trans
        (markLost_regsBut p r s F.partStat_STATE j (by decide))
  case ack => exact fun who p s hf => exec_lostAck hf who p

end Sys2Proof.Machine
end

section
/-!
SUPPORT. What every command keeps of the fixed sizes of the state (O59): nine cores of 32 registers and 16 return-stack entries, five coordinates and
four encoders (R213, R310, R311); and what a tick keeps of PPS_MEAS and of the phase errors that it will show (R236), for O8. One relation `Stays` says
both, and each function of the model that returns a state has a lemma that appends it to a path. What has content is where cores, coordinates and
encoders are written (CoreOps, K48, Lens), that PPS_MEAS is read-only wherever it stands, and what a reset leaves.
-/
set_option Elab.async false
namespace Sys2Proof.Machine
open Sys2Proof

/-! ### The sizes of a core (R311) -/

/-- A core has 32 registers and a return stack of 16 entries. -/
def Core.Sized (c : Core) : Prop := c.w.length = 32 ∧ c.rs.length = 16

theorem Core.Sized.empty : Core.empty.Sized := ⟨rfl, rfl⟩

theorem Core.Sized.set {c : Core} (h : c.Sized) {n : ℕ} {v : W} : (c.set n v).Sized := by
  unfold Core.set
  split
  · exact h
  · exact ⟨List.length_set.trans h.1, h.2⟩

theorem Core.Sized.push {c : Core} (h : c.Sized) {x : W} : (c.push x).Sized := ⟨h.1, List.length_set.trans h.2⟩

theorem Core.Sized.pop {c : Core} (h : c.Sized) : c.pop.2.Sized := h

theorem Core.Sized.next {c : Core} (h : c.Sized) : c.next.Sized := h

theorem Core.Sized.setRsctl {c : Core} (h : c.Sized) {v : W} : (c.setRsctl v).Sized := by
  unfold Core.setRsctl
  dsimp only
  split <;> exact h

theorem Core.Sized.writeSys {c : Core} (h : c.Sized) {n : ℕ} {v : W} : (c.writeSys n v).Sized := by
  unfold Core.writeSys
  split
  · split <;> exact h
  · exact h
  · exact h
  · exact h
  · exact h
  · exact h
  · exact h.setRsctl
  · exact ⟨h.1, List.length_set.trans h.2⟩

/-! ### The sizes of the state -/

/-- Nine sized cores, five coordinates and four encoders. -/
structure Sized (s : State) : Prop where
  nine : s.cc.cores.length = 9
  each : ∀ c ∈ s.cc.cores, c.Sized
  five : s.lens.coords.length = 5
  four : s.lens.enc.length = 4

theorem sized_iff_shape {s : State} : Sized s ↔ Shape s :=
  ⟨fun h => ⟨h.nine, h.each, h.five, h.four⟩, fun ⟨hnine, heach, hfive, hfour⟩ => ⟨hnine, heach, hfive, hfour⟩⟩

theorem sized_reset : Sized State.reset where
  nine := rfl
  each _ hc := List.eq_of_mem_replicate hc ▸ Core.Sized.empty
  five := rfl
  four := rfl

/-- Cores, coordinates and encoders tell whether a state is sized. -/
theorem Sized.congr {s t : State} (h : Sized s) (hcores : t.cc.cores = s.cc.cores) (hcoords : t.lens.coords = s.lens.coords)
    (henc : t.lens.enc = s.lens.enc) : Sized t where
  nine := (congrArg List.length hcores).trans h.nine
  each := hcores ▸ h.each
  five := (congrArg List.length hcoords).trans h.five
  four := (congrArg List.length henc).trans h.four

/-- Every core that is read is sized, one that the package does not have too. -/
theorem Sized.core {t : State} (h : Sized t) {k : ℕ} : (t.core k).Sized := by
  rw [State.core, List.getD_eq_getElem?_getD]
  cases hk : t.cc.cores[k]? with
  | none => exact .empty
  | some c => exact h.each c (List.mem_of_getElem? hk)

/-- Each core changes, and keeps its sizes. -/
theorem Sized.mapCores {t : State} {f : Core → Core} (h : Sized t) (hf : ∀ c : Core, c.Sized → (f c).Sized) :
    Sized { t with cc := { t.cc with cores := t.cc.cores.map f } } where
  nine := (List.length_map f).trans h.nine
  each c hc := by
    obtain ⟨c', hc', rfl⟩ := List.mem_map.1 hc
    exact hf c' (h.each c' hc')
  five := h.five
  four := h.four

/-! ### What no command but a few breaks -/

/-- The field is none of PPS_MEAS. -/
abbrev Unmeasured (f : Fld) : Prop := f.id ≠ F.ppsMeas_ERROR.id ∧ f.id ≠ F.ppsMeas_COUNT.id

/-- From `s` to `t` the sizes stay, and with them PPS_MEAS and the phase errors that are due in it. -/
structure Stays (s t : State) : Prop where
  sized : Sized s → Sized t
  error : t.get F.ppsMeas_ERROR 0 = s.get F.ppsMeas_ERROR 0
  count : t.get F.ppsMeas_COUNT 0 = s.get F.ppsMeas_COUNT 0
  due : t.lens.ppsDue = s.lens.ppsDue

variable {s t u : State} {α β : Type}

theorem Stays.refl (s : State) : Stays s s := ⟨id, rfl, rfl, rfl⟩

theorem Stays.trans (h : Stays s t) (h' : Stays t u) : Stays s u :=
  ⟨h'.sized ∘ h.sized, h'.error.trans h.error, h'.count.trans h.count, h'.due.trans h.due⟩

/-- A sized state at the end of a path. -/
theorem Sized.along (h : Sized s) (h' : Stays s t) : Sized t := h'.sized h

/-- A change of any part of the state but registers, cores, coordinates, encoders and the phase errors that are due. -/
theorem Stays.rest {pending : List Instr} {mem : List Host.Cell} {now : W} {era : BitVec 16} {ticks free : Nat}
    {net : NetSt} {bank : BankSt} {sched : SchedSt} {out : OutSt} {flt : FaultSt} {cl : ClusterSt} {staged : List Staged} {pcie : PcieSt}
    {ap : ApSt} {mc : McSt} {lens : LensSt} {chain : ChainSt} {sc : ScSt} {cc : CcSt} {port : PortSt} {pwr : PwrSt} {old : List (Nat × Nat)}
    (h : Stays s t) (hcores : cc.cores = t.cc.cores := by with_reducible rfl)
    (hcoords : lens.coords = t.lens.coords := by with_reducible rfl) (henc : lens.enc = t.lens.enc := by with_reducible rfl)
    (hdue : lens.ppsDue = t.lens.ppsDue := by with_reducible rfl) :
    Stays s ⟨pending, t.regs, mem, now, era, ticks, free, net, bank, sched, out, flt, cl, staged, pcie, ap, mc, lens, chain, sc, cc, port, pwr,
      old⟩ :=
  ⟨fun hs => (h.sized hs).congr hcores hcoords henc, h.error, h.count, hdue.trans h.due⟩

/-- The cores of the state along a path from a sized one. -/
theorem Stays.core (h : Stays s t) {k : ℕ} (hs : Sized s) : (t.core k).Sized := (h.sized hs).core

/-- Each core changes, and keeps its sizes. -/
theorem Stays.mapCores {f : Core → Core} (h : Stays s t) (hf : ∀ c : Core, c.Sized → (f c).Sized) :
    Stays s { t with cc := { t.cc with cores := t.cc.cores.map f } } where
  sized hs := (h.sized hs).mapCores hf
  error := h.error
  count := h.count
  due := h.due

/-! ### The register fields -/

theorem Stays.set {f : Fld} {i v : Nat} (h : Stays s t) (hf : Unmeasured f := by decide) : Stays s (t.set f i v) where
  sized hs := (h.sized hs).congr rfl rfl rfl
  error := (State.get_set_ne _ _ _ _ _ _ hf.1).trans h.error
  count := (State.get_set_ne _ _ _ _ _ _ hf.2).trans h.count
  due := h.due

theorem Stays.inc {f : Fld} {i : Nat} (h : Stays s t) (hf : Unmeasured f := by decide) : Stays s (t.inc f i) := h.set hf

theorem Stays.ite {c : Prop} [Decidable c] {a b : State} (ha : Stays s a) (hb : Stays s b) : Stays s (if c then a else b) := by
  split <;> assumption

theorem Stays.incSat {f : Fld} {i lim : Nat} (h : Stays s t) (hf : Unmeasured f := by decide) : Stays s (t.incSat f i lim) :=
  Stays.ite (h.set hf) h

/-- Where PPS_MEAS stands among the fields of a register it is read-only (R236). -/
abbrev ReadOnlyIfMeasured (f : Fld) : Prop := (f.id = F.ppsMeas_ERROR.id → f.acc = .ro) ∧ (f.id = F.ppsMeas_COUNT.id → f.acc = .ro)

def MeasuredReadOnly (fs : List Fld) : Prop := ∀ f ∈ fs, ReadOnlyIfMeasured f

/-! ### The branches of a definition -/

theorem Stays.dite {c : Prop} [Decidable c] {a : c → State} {b : ¬c → State} (ha : ∀ hc, Stays s (a hc)) (hb : ∀ hc, Stays s (b hc)) :
    Stays s (if hc : c then a hc else b hc) := by
  split <;> apply_assumption

theorem Stays.iteSnd {c : Prop} [Decidable c] {a b : α × State} (ha : Stays s a.2) (hb : Stays s b.2) : Stays s (if c then a else b).2 := by
  split <;> assumption

theorem Stays.diteSnd {c : Prop} [Decidable c] {a : c → α × State} {b : ¬c → α × State} (ha : ∀ hc, Stays s (a hc).2)
    (hb : ∀ hc, Stays s (b hc).2) : Stays s (if hc : c then a hc else b hc).2 := by
  split <;> apply_assumption

theorem Stays.iteSnd2 {c : Prop} [Decidable c] {a b : α × β × State} (ha : Stays s a.2.2) (hb : Stays s b.2.2) :
    Stays s (if c then a else b).2.2 := by
  split <;> assumption

/-- The state beside an answer. -/
theorem Stays.pair {a : α} (h : Stays s t) : Stays s (a, t).2 := h

theorem Stays.pair2 {a : α} {b : β} (h : Stays s t) : Stays s (a, b, t).2.2 := h

/-- The state beside an answer, under the names of a match. -/
theorem Stays.snd {r : α × State} {a : α} (h : Stays s r.2) (e : r = (a, u)) : Stays s u := by subst e; exact h

theorem Stays.eqPair {a b : α} (h : Stays s t) (e : (a, t) = (b, u)) : Stays s u := by cases e; exact h

theorem Stays.snd2 {r : α × β × State} {a : α} {b : β} (h : Stays s r.2.2) (e : r = (a, b, u)) : Stays s u := by subst e; exact h

theorem Stays.foldl {g : State → α → State} {l : List α} (h : Stays s t) (hg : ∀ {u : State} {a : α}, Stays s u → Stays s (g u a)) :
    Stays s (l.foldl g t) := by
  induction l generalizing t with
  | nil => exact h
  | cons a l ih => exact ih (hg h)

/-- A path that the rest of a definition uses in several branches. -/
theorem Stays.bind (h : Stays s t) (k : Stays s t → Stays s u) : Stays s u := k h

theorem Stays.foldlMem {g : State → α → State} {l : List α} (h : Stays s t)
    (hg : ∀ {u : State} {a : α}, a ∈ l → Stays s u → Stays s (g u a)) : Stays s (l.foldl g t) := by
  induction l generalizing t with
  | nil => exact h
  | cons a l ih => exact ih (hg List.mem_cons_self h) fun ha => hg (List.mem_cons_of_mem _ ha)

theorem Stays.foldlSnd {g : β × State → α → β × State} {l : List α} {r : β × State} (h : Stays s r.2)
    (hg : ∀ {r : β × State} {a : α}, Stays s r.2 → Stays s (g r a).2) : Stays s (l.foldl g r).2 := by
  induction l generalizing r with
  | nil => exact h
  | cons a l ih => exact ih (hg h)

theorem Stays.getD {o : Option State} (h : Stays s t) (ho : ∀ {u : State}, o = some u → Stays s u) : Stays s (o.getD t) := by
  cases o with
  | none => exact h
  | some u => exact ho rfl

theorem Stays.onFabric {c : Nat} {f : State → State} (h : Stays s t) (hf : ∀ {u : State}, Stays s u → Stays s (f u)) :
    Stays s (onFabric c f t) :=
  Stays.ite (hf h) h

theorem Stays.unlessFatal {f : State → State} (h : Stays s t) (hf : ∀ {u : State}, Stays s u → Stays s (f u)) : Stays s (unlessFatal f t) :=
  Stays.ite h (hf h)

/-! ### What the functions of Ops keep -/

theorem Stays.writeByte {a : ℕ} {v : BitVec 8} (h : Stays s t) : Stays s (t.writeByte a v) := h.rest

theorem Stays.writeN {a v n : ℕ} (h : Stays s t) : Stays s (t.writeN a v n) := by
  induction n generalizing t a v with
  | zero => exact h
  | succ n ih => exact ih h.writeByte

theorem Stays.writeSlot {a : ℕ} {v : W} (h : Stays s t) : Stays s (t.writeSlot a v) := h.writeN

theorem Stays.freeVal {w : ℕ} (h : Stays s t) : Stays s (t.freeVal w).2 := h.rest.pair

theorem Stays.msixPut {n : ℕ} (h : Stays s t) : Stays s (msixPut n t) := h.rest

theorem Stays.msixAsk {n : ℕ} (h : Stays s t) : Stays s (msixAsk n t) := Stays.ite h (Stays.ite h.rest (Stays.ite h h.msixPut))

theorem Stays.raiseEvent {n : ℕ} (h : Stays s t) : Stays s (raiseEvent n t) := Stays.ite h.inc (Stays.ite h.inc.set.msixAsk h.inc.set)

theorem Stays.linkEvent (h : Stays s t) : Stays s (linkEvent t) := h.set.raiseEvent

theorem Stays.raiseAtBoundary {n : ℕ} (h : Stays s t) : Stays s (raiseAtBoundary n t) := Stays.ite h h.rest.raiseEvent

theorem Stays.report {kind l detail : ℕ} {part : Option ℕ} {inj : Bool} (h : Stays s t) : Stays s (report kind l detail part inj t) :=
  Stays.ite h h.rest

theorem Stays.reportP {kind l detail p : ℕ} (h : Stays s t) : Stays s (reportP kind l detail p t) := h.report

theorem Stays.reportU {kind l detail : ℕ} (h : Stays s t) : Stays s (reportU kind l detail t) := h.report

theorem Stays.holdFault {kind l detail : ℕ} (h : Stays s t) : Stays s (holdFault kind l detail t) := Stays.ite h h.rest.report

theorem Stays.dropFault {kind l : ℕ} (h : Stays s t) : Stays s (dropFault kind l t) := h.rest

theorem Stays.takeInjection {kinds : List ℕ} {l : ℕ} (h : Stays s t) : Stays s (takeInjection kinds l t).2 := Stays.iteSnd h.set.pair h

theorem Stays.secded {kinds : List ℕ} {l natural : ℕ} (h : Stays s t) : Stays s (secded kinds l natural t).2.2 := by
  unfold Machine.secded
  split
  · rename_i e
    exact (h.takeInjection.snd e).pair2
  · rename_i e
    exact (h.takeInjection.snd e).pair2
  · rename_i e
    exact (h.takeInjection.snd e).pair2
  · rename_i e
    exact (h.takeInjection.snd e).pair2

theorem Stays.setFree {f : Fld} {i : ℕ} (h : Stays s t) (hf : Unmeasured f := by decide) : Stays s (t.setFree f i) := (h.freeVal (w := f.w)).set hf

theorem Stays.setOr {f : Fld} {i : ℕ} {v : Option ℕ} (h : Stays s t) (hf : Unmeasured f := by decide) : Stays s (t.setOr f i v) := by
  cases v with
  | none => exact h.setFree hf
  | some v => exact h.set hf

theorem Stays.microTrap {c pe cause : ℕ} {tag : W} {v : Saved} (h : Stays s t) : Stays s (microTrap c pe cause tag v t) := by
  unfold Machine.microTrap
  extract_lets i t₁ t₂ t₃ t₄ st
  have h₃ : Stays s t₃ := h.inc.set.set.setOr
  have h₄ : Stays s t₄ := by
    unfold t₄
    split
    · exact h₃.set
    · exact (h₃.freeVal (w := 3)).set
  exact h₄.setOr.setOr.setOr.setOr.setOr.foldl (·.setOr)

theorem Stays.addCnt {p k n : ℕ} (h : Stays s t) : Stays s (addCnt p k n t) := h.rest

theorem Stays.countProd {p ep : ℕ} (h : Stays s t) : Stays s (countProd p ep t) := h.addCnt.addCnt

theorem Stays.countCons {p ep n : ℕ} (h : Stays s t) : Stays s (countCons p ep n t) := h.addCnt.addCnt

theorem Stays.countProg {p : ℕ} (h : Stays s t) : Stays s (countProg p t) := h.addCnt

theorem Stays.violation {c kind : ℕ} {value : W} {sys : Bool} {part init op bank : ℕ} (h : Stays s t) :
    Stays s (violation c kind value sys part init op bank t) :=
  Stays.ite h.inc h.inc.set.set.set.set.set.set.set.set.set

theorem Stays.discardToken {c : ℕ} {tag : W} {silent : Bool} (h : Stays s t) : Stays s (discardToken c tag silent t) :=
  h.violation.countCons.bind fun h3 => (Stays.ite h3 h3.reportP)

/-! ### What the functions of Net keep -/

theorem Stays.noteBreak {p : ℕ} (h : Stays s t) : Stays s (noteBreak p t) := Stays.ite h h.rest

theorem Stays.startTimer {ret : ℕ} {addr : W} {op part : ℕ} {sys : Bool} {extra : ℕ} (h : Stays s t) :
    Stays s (startTimer ret addr op part sys extra t) :=
  h.rest

theorem Stays.deliverRsp {f : Flit} (h : Stays s t) : Stays s (deliverRsp f t) := by
  unfold Machine.deliverRsp
  extract_lets
  split
  · exact Stays.ite h h.inc
  · exact h.rest.bind fun h4 => (Stays.ite (Stays.ite h4 h4.inc) (Stays.ite h4.rest h4.rest))

theorem Stays.reqErr {l : ℕ} {f : Flit} (h : Stays s t) : Stays s (reqErr l f t) := Stays.ite h.reportU h.reportP

theorem Stays.deliverOther {f : Flit} (h : Stays s t) : Stays s (deliverOther f t) := by
  unfold Machine.deliverOther
  refine Stays.ite ?_ ?_
  · exact Stays.ite h.rest h.deliverRsp
  · split <;> exact h.rest

theorem Stays.enterNode {f : Flit} (h : Stays s t) : Stays s (enterNode f t) := by
  unfold Machine.enterNode
  dsimp only
  split
  · exact h.rest
  · exact Stays.ite h.rest (Stays.ite (Stays.ite h.rest h.rest) h.deliverOther)

theorem Stays.discardAt {n : ℕ} {tag : W} (h : Stays s t) : Stays s (discardAt n tag t) := Stays.ite h.discardToken h.countCons.reportP

theorem Stays.holdTimer {f : Flit} (h : Stays s t) : Stays s (holdTimer f t) := Stays.ite h h.rest

theorem Stays.leaveInit {f : Flit} (h : Stays s t) : Stays s (leaveInit f t).2 := Stays.iteSnd h (Stays.iteSnd h h.rest.pair)

theorem Stays.queueInject {f : Flit} (h : Stays s t) : Stays s (queueInject f t) := h.rest.holdTimer

theorem Stays.inject {f : Flit} (h : Stays s t) : Stays s (inject f t) :=
  Stays.ite (Stays.ite h.discardAt (Stays.ite h (Stays.ite h.queueInject h))) (Stays.ite h.enterNode h.queueInject)

theorem Stays.drainNode {n k : ℕ} (h : Stays s t) : Stays s (drainNode n k t) := by
  induction k generalizing t with
  | zero => exact h
  | succ k ih =>
    rw [Machine.drainNode]
    split
    · exact h
    · split
      rename_i e
      exact ih (h.rest.leaveInit.snd e).enterNode.noteBreak

theorem Stays.send {f : Flit} (h : Stays s t) : Stays s (send f t) := h.inject.drainNode

theorem Stays.respond {n ret : ℕ} {poison : Bool} {status : ℕ} {data extra : W} {cls urg : ℕ} (h : Stays s t) :
    Stays s (respond n ret poison status data extra cls urg t) :=
  h.send

theorem Stays.rawOf {f : Flit} {x : ℕ × BitVec 144} (h : Stays s t) : Stays s (rawOf f x t).2 := by
  unfold Machine.rawOf
  split
  rename_i e
  exact (h.freeVal.snd e).pair

theorem Stays.rawsOf {f : Flit} {l : List (ℕ × BitVec 144)} (h : Stays s t) : Stays s (rawsOf f l t).2 := by
  induction l generalizing t with
  | nil => exact h
  | cons x l ih => exact ih (h.rawOf (f := f) (x := x))

theorem Stays.dropFlit {n : ℕ} {raw : BitVec 160} {inj : Bool} (h : Stays s t) : Stays s (dropFlit n raw inj t) :=
  (Stays.ite (Stays.ite h.inc h.inc.set.set.set.set) h).report

theorem Stays.corrFlit {n : ℕ} {inj : Bool} (h : Stays s t) : Stays s (corrFlit n inj t) := (Stays.ite h.inc h).report

theorem Stays.flitChecks {n : ℕ} {f : Flit} {raws : List (BitVec 160)} {errs : List FlitErr} {l : List (ℕ × BitVec 144)} (h : Stays s t) :
    Stays s (flitChecks n f raws errs l t).2 := by
  induction l generalizing t raws errs with
  | nil => exact h
  | cons x l ih =>
    rw [Machine.flitChecks]
    split
    rename_i e
    have h1 := h.secded.snd2 e
    refine ih ?_
    split
    · split
      rename_i e'
      refine Stays.dropFlit (Stays.snd ?_ e')
      split
      · exact h1
      · split
        · exact h1
        · exact h1.rawOf
    · exact Stays.ite h1.corrFlit h1

/-! ### What the functions of Operands keep -/

theorem Stays.emitToken {c pe : ℕ} {t' : Token} (h : Stays s t) : Stays s (emitToken c pe t' t) :=
  h.countProd.bind fun h2 => (Stays.ite h2.rest h2.send)

theorem Stays.emitTo {c pe : ℕ} {base : W} {ctx : ℕ} {due data : W} {poison : Bool} {d : ℕ} (h : Stays s t) :
    Stays s (emitTo c pe base ctx due data poison d t) := by
  unfold Machine.emitTo
  refine Stays.ite ?_ ?_
  · exact h
  · split
    · exact h.emitToken
    · exact h

theorem Stays.emitAll {c pe : ℕ} {base : W} {ctx : ℕ} {due data : W} {poison : Bool} {ds : List ℕ} (h : Stays s t) :
    Stays s (emitAll c pe base ctx due data poison ds t) :=
  h.foldl (·.emitTo)

/-! ### What the functions of Match keep -/

theorem Stays.setWay {c e : ℕ} {t' : Option Token} (h : Stays s t) : Stays s (t.setWay c e t') := h.rest

theorem Stays.putWord {b w : ℕ} {v : W} (h : Stays s t) : Stays s (t.putWord b w v) := h.writeSlot.rest

theorem Stays.readCheckFor {part : Option ℕ} {b w natural : ℕ} (h : Stays s t) : Stays s (readCheckFor part b w natural t).2 := by
  unfold Machine.readCheckFor
  extract_lets
  split
  rename_i e
  have h1 := (h.secded.snd2 e)
  exact Stays.iteSnd h1.pair (Stays.iteSnd h1.inc.rest.report.pair (h1.inc.set.bind fun h6 => (Stays.ite h6 h6.rest).report.pair))

theorem Stays.readCheck {b w natural : ℕ} (h : Stays s t) : Stays s (readCheck b w natural t).2 := h.readCheckFor

theorem Stays.putRec {c r k : ℕ} {v : W} (h : Stays s t) : Stays s (t.putRec c r k v) := h.putWord

theorem Stays.setControl {c r : ℕ} {poison enabled : Bool} {next : Option ℕ} (h : Stays s t) : Stays s (t.setControl c r poison enabled next) :=
  h.putRec

theorem Stays.writeLinks {c : ℕ} {ch : List ℕ} (h : Stays s t) : Stays s (t.writeLinks c ch) := by
  induction ch generalizing t with
  | nil => exact h
  | cons r rs ih => exact ih h.setControl

theorem Stays.setChain {c set : ℕ} {ch : List ℕ} (h : Stays s t) : Stays s (t.setChain c set ch) := h.rest.writeLinks

theorem Stays.freeRec {c r : ℕ} (h : Stays s t) : Stays s (t.freeRec c r) := h.rest.putRec

theorem Stays.upMarks {c : ℕ} (h : Stays s t) : Stays s (t.upMarks c) := h.set.set.set

theorem Stays.clearMarks {c : ℕ} (h : Stays s t) : Stays s (t.clearMarks c) := h.set.set.set

theorem Stays.freeSlot {x : Slot} (h : Stays s t) : Stays s (t.freeSlot x) := h.rest

theorem Stays.enableInstance {c pe : ℕ} {tag : W} {ops : List (ℕ × SlotOp)} {w : ℕ} (h : Stays s t) : Stays s (enableInstance c pe tag ops w t) :=
  h.rest

theorem Stays.takeCand {c : ℕ} {x : Cand} (h : Stays s t) : Stays s (takeCand c x t) := by
  unfold Machine.takeCand
  split
  · exact h.rest
  · exact h.rest
  · exact h.setWay
  · exact h.setChain.freeRec

theorem Stays.asRead {inj : Bool} {v w : ℕ} (h : Stays s t) : Stays s (asRead inj v w t).2 := by
  unfold Machine.asRead
  refine Stays.iteSnd ?_ ?_
  · exact h
  · split
    rename_i e
    exact (h.freeVal.snd e).pair

theorem Stays.checkWay {c e natural : ℕ} (h : Stays s t) : Stays s (checkWay c e natural t) := by
  unfold Machine.checkWay
  split
  · exact h
  · split
    rename_i e1
    have h3 := (h.secded.snd2 e1)
    refine Stays.ite ?_ ?_
    · exact h3
    · refine Stays.ite ?_ ?_
      · exact h3.report
      · refine Stays.ite ?_ ?_
        · exact h3.setWay.countCons.report
        · split
          rename_i e2
          split
          rename_i e3
          split
          rename_i e4
          split
          rename_i e5
          exact ((((h3.setWay.countCons.report.asRead.snd e2).asRead.snd e3).asRead.snd e4).asRead.snd e5).set.set.set.set.set.set.set

theorem Stays.spillInsert {c : ℕ} {x : Token} (h : Stays s t) (e : spillInsert c x t = some u) : Stays s u := by
  unfold Machine.spillInsert at e
  split at e
  · cases e
  · split at e
    · cases e
    · cases e
      exact h.putRec.putRec.putRec.setControl.rest.setChain.upMarks

theorem Stays.beginHold {c : ℕ} {f : Fld} (h : Stays s t) (hf : Unmeasured f := by decide) : Stays s (beginHold c f t) := (h.set hf).inc.raiseEvent

theorem Stays.storeToken {c pe : ℕ} {t' : Token} (h : Stays s t) : Stays s (storeToken c pe t' t).2 := by
  unfold Machine.storeToken
  extract_lets
  split
  · exact h.setWay.upMarks.pair
  · split
    · rename_i e1
      exact (h.spillInsert e1).pair
    · exact (Stays.ite h.rest h.rest.beginHold).pair

theorem Stays.abandonChain {c set ep : ℕ} (h : Stays s t) : Stays s (abandonChain c set ep t) := h.rest.countCons

theorem Stays.recordSound {c r : ℕ} {nat : ℕ → ℕ} (h : Stays s t) : Stays s (recordSound c r nat t).2 := by
  unfold Machine.recordSound
  extract_lets
  split
  rename_i e
  have h1 := (h.readCheckFor.snd e)
  refine Stays.iteSnd ?_ ?_
  · exact h1.pair
  · split
    rename_i e1
    have h2 := (h1.readCheckFor.snd e1)
    refine Stays.iteSnd ?_ ?_
    · exact h2.pair
    · split
      rename_i e2
      exact (h2.readCheckFor.snd e2).pair

theorem Stays.walkChain {c k : ℕ} {err : Option RecordErr} {rs : List ℕ} (h : Stays s t) : Stays s (walkChain c err k rs t).2 := by
  induction rs generalizing t k with
  | nil => unfold Machine.walkChain; exact h
  | cons r rs ih =>
    unfold Machine.walkChain
    split
    · rename_i e
      exact ih (h.recordSound.snd e)
    · rename_i e
      exact h.recordSound.snd e

theorem Stays.lookup {c pe : ℕ} {x : Token} {w mask : ℕ} {err : LookupErr} (h : Stays s t) : Stays s (lookup c pe x w mask err t).2 := by
  unfold Machine.lookup
  extract_lets port set key single t₁ t₂ t₃ t₄ dupWay others
  have h₄ : Stays s t₄ := h.checkWay.checkWay.checkWay.checkWay
  refine Stays.iteSnd h.enableInstance.pair (Stays.iteSnd h₄.discardToken.pair ?_)
  split
  rename_i e
  extract_lets t₅ chain dupRec found ops recs t₆ t₇ t₈
  have h₅ : Stays s t₅ := Stays.ite (h₄.walkChain.snd e) (h₄.walkChain.snd e).abandonChain
  have h₆ : Stays s t₆ := h₅.foldl fun h => by
    split
    · exact h.setWay
    · exact h
  have h₇ : Stays s t₇ := Stays.ite h₆ h₆.setChain
  have h₈ : Stays s t₈ := h₇.foldl (·.setControl)
  exact Stays.iteSnd h₅.discardToken.pair (Stays.iteSnd h₈.enableInstance.pair h₅.storeToken)

theorem Stays.forwardToken {c : ℕ} {t' : Token} (h : Stays s t) : Stays s (forwardToken c t' t) := h.inc.send

theorem Stays.acceptToken {c pe : ℕ} {x : Token} {err : LookupErr} (h : Stays s t) : Stays s (acceptToken c pe x err t).2 := by
  unfold Machine.acceptToken
  extract_lets
  refine Stays.iteSnd h.discardToken.pair (Stays.iteSnd h.discardToken.pair (Stays.iteSnd h.discardToken.pair ?_))
  refine Stays.iteSnd h.countCons.pair (Stays.iteSnd h.countCons.pair (Stays.iteSnd h.forwardToken.countProg.pair ?_))
  refine Stays.iteSnd h.discardToken.pair ?_
  split
  rename_i e
  have h1 := h.lookup.snd e
  exact (Stays.ite h1.countProg h1).pair

theorem Stays.readCand {c : ℕ} {x : Cand} {err : LookupErr} (h : Stays s t) : Stays s (readCand c x err t).2 := by
  unfold Machine.readCand
  split
  · exact h.checkWay.pair
  · split
    · rename_i e1
      exact (h.recordSound.snd e1).abandonChain.pair
    · rename_i e1
      split
      rename_i e2
      have h6 := ((h.recordSound.snd e1).readCheckFor.snd e2)
      exact Stays.iteSnd h6.pair h6.pair
  · exact h

theorem Stays.endSlotHold {k : ℕ} (h : Stays s t) : Stays s (endSlotHold k t) := Stays.ite h.rest h

theorem Stays.endSpillHold {k : ℕ} (h : Stays s t) : Stays s (endSpillHold k t) := Stays.ite h.rest.noteBreak h

theorem Stays.tokenAccept {c pe : ℕ} {err : LookupErr} (h : Stays s t) : Stays s (tokenAccept c pe err t) := by
  unfold Machine.tokenAccept
  refine Stays.ite h (Stays.ite h ?_)
  have h1 : Stays s (Machine.endSpillHold (c * 16 + pe) t) := h.endSpillHold
  extract_lets
  split
  · exact h1.endSlotHold
  · refine Stays.ite (Stays.ite h1 h1.rest.beginHold) ?_
    split
    · rename_i e
      exact h1.endSlotHold.readCand.snd e
    · rename_i e
      split
      rename_i e'
      have h2 := (h1.endSlotHold.readCand.snd e).acceptToken.snd e'
      exact Stays.ite h2 h2.takeCand.drainNode

theorem Stays.spillRetry {c pe : ℕ} (h : Stays s t) : Stays s (spillRetry c pe t) := by
  unfold Machine.spillRetry
  split
  · exact h
  · refine Stays.ite ?_ ?_
    · exact h
    · split
      · exact h
      · rename_i e1
        have h4 := (h.spillInsert e1)
        extract_lets
        split
        · exact h4.rest.countProg.takeCand.drainNode
        · exact h4.rest.countProg

/-! ### What the functions of Banks keep -/

theorem Stays.setPresent {b w : ℕ} {v : Bool} (h : Stays s t) : Stays s (t.setPresent b w v) := h.rest

theorem Stays.setDefer {b : ℕ} {l : List Defer} (h : Stays s t) : Stays s (t.setDefer b l) := h.rest

theorem Stays.initBank {b : ℕ} (h : Stays s t) : Stays s (initBank b t) := h.rest

theorem Stays.failAccess {b kind : ℕ} {a : W} {sys : Bool} {part init op : ℕ} (h : Stays s t) : Stays s (failAccess b kind a sys part init op t) :=
  h.violation.report

theorem Stays.answerWaiters {b w : ℕ} {v : W} (h : Stays s t) : Stays s (answerWaiters b w v t) := Stays.ite h.rest h

theorem Stays.lostPresence {b w err : ℕ} (h : Stays s t) : Stays s (lostPresence b w err t) := Stays.ite h.inc.set.report.setPresent h

theorem Stays.bankEffect {b : ℕ} {r : BReq} {err : ℕ} (h : Stays s t) : Stays s (bankEffect b r err t).2 := by
  unfold Machine.bankEffect
  extract_lets
  split
  · split
    rename_i e1
    have h2 := (h.readCheck.snd e1)
    exact Stays.iteSnd h2.pair h2.pair
  · exact h.lostPresence.putWord.pair
  · split
    rename_i e1
    have h5 := (h.readCheck.snd e1)
    exact Stays.iteSnd h5.pair (Stays.iteSnd h5.pair (Stays.iteSnd h5.set.report.pair h5.setDefer.pair))
  · exact Stays.iteSnd h.inc.set.report.putWord.setPresent.answerWaiters.pair (Stays.iteSnd h.report.pair h.putWord.setPresent.answerWaiters.pair)
  · exact (Stays.ite h.inc.set.report.putWord h).setPresent.pair
  · split
    rename_i e1
    have h14 := (h.readCheck.snd e1)
    exact Stays.iteSnd h14.pair h14.putWord.pair
  · split
    rename_i e1
    exact (h.readCheck.snd e1).putWord.bind fun h18 => (Stays.iteSnd h18.pair h18.pair)
  · exact h

theorem Stays.bankRead {b : ℕ} {full : Bool} {a err : ℕ} (h : Stays s t) : Stays s (bankRead b full a err t).2 := by
  unfold Machine.bankRead
  extract_lets
  split
  rename_i e
  have h1 := (h.readCheck.snd e)
  exact Stays.iteSnd h1.pair h1.pair

theorem Stays.bankWrite {b : ℕ} {full : Bool} {a v err : ℕ} (h : Stays s t) : Stays s (bankWrite b full a v err t) := h.lostPresence.putWord

theorem Stays.bankWords {init err c o : ℕ} {own : Option ℕ} {ws : List W} (h : Stays s t) : Stays s (bankWords init err c own o ws t).2 := by
  induction ws generalizing t o with
  | nil => exact h
  | cons v vs ih =>
    rw [Machine.bankWords]
    refine ih ?_
    split
    · exact h
    · split
      · exact h.failAccess
      · exact h.bankWrite

theorem Stays.bankSystem {b init : ℕ} {r : BReq} {err : ℕ} (h : Stays s t) : Stays s (bankSystem b init r err t).2 := by
  unfold Machine.bankSystem
  refine Stays.iteSnd ?_ ?_
  · exact h
  · refine Stays.iteSnd ?_ ?_
    · exact h.bankRead
    · refine Stays.iteSnd ?_ ?_
      · exact h.bankWrite.pair
      · extract_lets
        split
        rename_i e
        exact (h.bankWrite.bankWords.snd e).pair

theorem Stays.bankAnswer {b : ℕ} {r : BReq} {a : BankAns} (h : Stays s t) : Stays s (bankAnswer b r a t) := by
  unfold Machine.bankAnswer
  split
  split
  · exact h.deliverRsp
  · exact h.respond

theorem Stays.bankIssue {b : ℕ} {r : BReq} {err : ℕ} (h : Stays s t) : Stays s (bankIssue b r err t) := by
  unfold Machine.bankIssue
  refine Stays.ite ?_ ?_
  · exact (Stays.ite h.reportU h.reportP).bankAnswer
  · split
    · exact (Stays.ite h h.failAccess).bankAnswer
    · split
      rename_i e1
      exact ((Stays.iteSnd h.bankSystem h.bankEffect).snd e1).bankAnswer

theorem Stays.refillBank {b n : ℕ} (h : Stays s t) : Stays s (refillBank b n t) := by
  induction n generalizing t with
  | zero => exact h
  | succ n ih =>
    rw [Machine.refillBank]
    refine Stays.ite h ?_
    split
    · exact h
    · exact ih h.rest

theorem Stays.sendAnswer {b : ℕ} {d : Defer} {poison : Bool} {v : W} (h : Stays s t) : Stays s (sendAnswer b d poison v t) := Stays.ite h.rest h.send

theorem Stays.deferredReadAnswer {b : ℕ} (h : Stays s t) : Stays s (deferredReadAnswer b t) := by
  unfold Machine.deferredReadAnswer
  split
  · exact h
  · split
    · exact h.rest
    · exact (Stays.ite h.setDefer h.setDefer.rest).sendAnswer

theorem Stays.scrub {b err : ℕ} (h : Stays s t) : Stays s (scrub b err t) := by
  unfold Machine.scrub
  refine Stays.ite ?_ ?_
  · extract_lets
    split
    rename_i e
    exact (h.readCheck.snd e).rest
  · exact h

theorem Stays.correctedWriteback {b : ℕ} (h : Stays s t) : Stays s (correctedWriteback b t) := by
  unfold Machine.correctedWriteback
  split
  · exact h
  · exact h.putWord

theorem Stays.failQueue {b : ℕ} (h : Stays s t) : Stays s (failQueue b t) := (h.rest.foldl (·.failAccess.bankAnswer)).refillBank

theorem Stays.bankOwnWrite {init b : ℕ} {owner : Option ℕ} {clr : Bool} (h : Stays s t) : Stays s (bankOwnWrite init b owner clr t).2 := by
  unfold Machine.bankOwnWrite
  refine Stays.iteSnd ?_ ?_
  · exact h
  · split
    · exact h
    · exact Stays.iteSnd h (Stays.iteSnd h h.set.rest.setDefer.pair)

theorem Stays.handoverComplete {b : ℕ} (h : Stays s t) : Stays s (handoverComplete b t) := by
  unfold Machine.handoverComplete
  split
  · exact h
  · exact Stays.ite h (Stays.ite h.initBank h).rest.setDefer.set.set

theorem Stays.startMove {b target : ℕ} (h : Stays s t) : Stays s (startMove b target t) := Stays.ite h.rest.set.failQueue h.rest.set

theorem Stays.bankPwrWrite {b st : ℕ} (h : Stays s t) : Stays s (bankPwrWrite b st t).2 :=
  Stays.iteSnd h (Stays.iteSnd h (Stays.iteSnd h (Stays.iteSnd h.set.pair h.set.startMove.pair)))

theorem Stays.powerMoveComplete {b : ℕ} (h : Stays s t) : Stays s (powerMoveComplete b t) := by
  unfold Machine.powerMoveComplete
  split
  · exact h
  · exact (Stays.ite h.initBank h).rest.set.set.bind fun h6 => (Stays.ite h6 h6.startMove)

theorem Stays.takeOffline {b : ℕ} (h : Stays s t) : Stays s (takeOffline b t) :=
  Stays.ite h (h.setDefer.set.set.set.set.rest.failQueue.foldl (·.sendAnswer)).rest

/-! ### What the functions of Partition keep -/

theorem Stays.countClusters {p : ℕ} (h : Stays s t) : Stays s (countClusters p t) := h.set

theorem Stays.releaseCluster {p c : ℕ} (h : Stays s t) : Stays s (releaseCluster p c t) := h.rest.set.set.noteBreak

theorem Stays.giveUpCluster {p c : ℕ} (h : Stays s t) : Stays s (giveUpCluster p c t) := Stays.ite h.rest.set h.releaseCluster

theorem Stays.markLost {p reason : ℕ} (h : Stays s t) : Stays s (markLost p reason t) := h.set.set.raiseEvent

theorem Stays.suspend {p : ℕ} (h : Stays s t) : Stays s (suspend p t) := Stays.ite h.rest.set.markLost h.rest

theorem Stays.discardHeld {o : OutVal} (h : Stays s t) : Stays s (discardHeld o t) := Stays.ite h.respond h

theorem Stays.discardHeldIf {p : OutVal → Bool} (h : Stays s t) : Stays s (discardHeldIf p t) := h.rest.foldl (·.discardHeld)

theorem Stays.dropReclaim {p : ℕ} (h : Stays s t) : Stays s (dropReclaim p t) := h.rest.set

theorem Stays.stopPartition {p : ℕ} (h : Stays s t) : Stays s (stopPartition p t) := h.dropReclaim.set.set.discardHeldIf

theorem Stays.haltPartition {p : ℕ} (h : Stays s t) : Stays s (haltPartition p t) := (Stays.ite h.markLost h.set).stopPartition

theorem Stays.removeWork {p : ℕ} {cond : W → Bool} (h : Stays s t) : Stays s (removeWork p cond t).2 := by
  unfold Machine.removeWork
  extract_lets cs mine ways recs slots waits banks defers t₁ t₂ t₃ src t₄ t₅ n
  have h₁ : Stays s t₁ := h.foldl (·.setWay.countCons)
  have h₂ : Stays s t₂ := h₁.foldl (·.countCons.setChain.freeRec)
  have h₃ : Stays s t₃ := h₂.foldl fun h => (h.countCons.foldl (·.freeRec)).freeSlot
  have h₅ : Stays s t₅ := h₃.rest.foldl (·.setDefer)
  exact h₅.noteBreak.pair

theorem Stays.sourceRate {id p : ℕ} (h : Stays s t) : Stays s (sourceRate id p t) := by
  unfold Machine.sourceRate
  split
  · exact h
  · exact Stays.ite h.rest.report h.rest

/-! ### What the functions of Graph keep -/

theorem Stays.setSticky {p : ℕ} {st : Stk} (h : Stays s t) : Stays s (setSticky p st t) := by
  have one {k : ℕ} {f : Fld} {u : State} (h : Stays s u) (hf : Unmeasured f := by decide) :
      Stays s (if st.toNat / 2 ^ k % 2 = 1 then u.set f p 1 else u) := Stays.ite (h.set hf) h
  exact one (one (one (one (one (one (one h))))))

theorem Stays.lateFiring {c : ℕ} {tag due : W} (h : Stays s t) : Stays s (lateFiring c tag due t) := Stays.ite h.inc h.inc.set.set.set.set

theorem Stays.readRecord {c pe r err : ℕ} {tag : W} (h : Stays s t) : Stays s (readRecord c pe r err tag t).2 := by
  unfold Machine.readRecord
  extract_lets
  split
  rename_i e
  refine Stays.iteSnd ?_ ?_ <;> exact (h.readCheck.snd e).freeRec.microTrap.pair

theorem Stays.readPort {c pe : ℕ} {tag : W} {w bit : ℕ} {o : Option SlotOp} {err : ℕ} (h : Stays s t) :
    Stays s (readPort c pe tag w bit o err t).2 := by
  unfold Machine.readPort
  split
  · split
    · exact h.readRecord
    · exact h
  · exact h

theorem Stays.emit {f : Firing} {v : W} {poison : Bool} {ds : List ℕ} (h : Stays s t) : Stays s (f.emit v poison ds t) := h.emitAll

theorem Stays.illegal {f : Firing} (h : Stays s t) : Stays s (illegal f t) := h.emit.reportP

theorem Stays.machineCheck {f : Firing} {upc : ℕ} {disp nested inj : Bool} {groups : Option ℕ} {ds : List ℕ} (h : Stays s t) :
    Stays s (machineCheck f upc disp nested inj groups ds t) := by
  unfold Machine.machineCheck
  exact (h.emit.foldl (·.set)).set.inc.bind fun h10 => (Stays.ite h10 h10.set.set.set.setOr.set).set.rest.report.suspend

theorem Stays.discardSlot {x : Slot} {inj : Bool} (h : Stays s t) : Stays s (discardSlot x inj t) :=
  (h.freeSlot.foldl (·.freeRec)).countCons.report.noteBreak

theorem Stays.runHandler {e : PassErr} {cause : ℕ} {f : Firing} {ds : List ℕ} (h : Stays s t) : Stays s (runHandler e cause f ds t) := by
  unfold Machine.runHandler
  split
  · exact h.machineCheck
  · exact h

theorem Stays.arithmetic {e : PassErr} {f : Firing} {st : Stk} (h : Stays s t) : Stays s (arithmetic e f st t) :=
  h.setSticky.bind fun h2 => (Stays.ite h2.microTrap.raiseEvent.runHandler h2)

theorem Stays.stdPass {c : ℕ} {e : PassErr} (h : Stays s t) : Stays s (stdPass c e t).2 := by
  unfold Machine.stdPass
  split
  · rename_i e
    split
    rename_i e1
    exact ((h.takeInjection.snd e).freeVal.snd e1).pair
  · rename_i e
    exact (h.takeInjection.snd e).pair

theorem Stays.stdGoOn {e : PassErr} {f : Firing} {ds : List ℕ} {k : State → State} (h : Stays s t)
    (hk : ∀ {u : State}, Stays s u → Stays s (k u)) :
    Stays s (stdGoOn e f ds k t) := by
  unfold Machine.stdGoOn
  split
  · rename_i e
    exact (h.stdPass.snd e).machineCheck
  · rename_i e
    exact hk (h.stdPass.snd e)

theorem Stays.handlerTrap {f : Firing} {cause : ℕ} (h : Stays s t) : Stays s (handlerTrap f cause t) := h.microTrap

theorem Stays.beginFire {x : Slot} {w : ℕ} {err : FireErr} (h : Stays s t) : Stays s (beginFire x w err t).2 := by
  unfold Machine.beginFire
  extract_lets c pe p held
  split
  rename_i e
  have h₀ := h.secded.snd2 e
  refine Stays.iteSnd h₀.discardSlot.pair ?_
  extract_lets t₁ t₂ t₃
  have h₃ : Stays s t₃ := (Stays.ite h₀.report h₀).freeSlot.countCons.countProg
  split
  extract_lets ended
  have hend {g : State → State} (hg : ∀ {u : State}, Stays s u → Stays s (g u)) : Stays s (ended g).2 :=
    hg ((Stays.ite h₃.lateFiring h₃).foldl (·.freeRec))
  clear_value ended
  refine Stays.iteSnd (hend (·.illegal)) (Stays.iteSnd (hend (·.machineCheck)) (Stays.iteSnd (hend (·.illegal)) ?_))
  extract_lets
  split
  rename_i e'
  have h₄ := h₃.takeInjection.snd e'
  extract_lets inj fails check
  have hcheck {f : Firing} {n : ℕ} {u : State} (h : Stays s u) : Stays s (check f n u) := h.machineCheck
  clear_value check
  split
  · exact hend fun h => hcheck h.handlerTrap
  · split
    rename_i el
    split
    rename_i er
    split
    rename_i eg
    have h₅ := ((h₄.readPort.snd el).readPort.snd er).readPort.snd eg
    split
    extract_lets t₆
    have h₆ : Stays s t₆ := Stays.ite h₅.lateFiring h₅
    refine Stays.iteSnd ?_ (Stays.iteSnd (hcheck h₆).pair (Stays.iteSnd h₆.pair ?_))
    · split
      · exact (hcheck h₆.handlerTrap).pair
      · exact h₆.pair
    · split
      · exact h₆.machineCheck.pair
      · exact h₆.pair

theorem Stays.poisonTrap {f : Firing} (h : Stays s t) : Stays s (poisonTrap f t) := h.handlerTrap

theorem Stays.poisonOut {f : Firing} {cause : W} {ds : List ℕ} (h : Stays s t) : Stays s (poisonOut f cause ds t) := h.poisonTrap.emit

theorem Stays.fireWith {cls : OpClass} {c pe : ℕ} {err : FireErr} {body : Firing → State → State} (h : Stays s t)
    (hbody : ∀ {y : Firing} {u : State}, Stays s u → Stays s (body y u)) :
    Stays s (fireWith cls c pe err body t) := by
  unfold Machine.fireWith
  refine Stays.ite ?_ ?_
  · exact h
  · split
    · exact h
    · refine Stays.ite ?_ ?_
      · exact h
      · split
        · rename_i e1
          exact h.beginFire.snd e1
        · rename_i e1
          exact hbody (h.beginFire.snd e1)

theorem Stays.computeBody {e : PassErr} {f : Firing} (h : Stays s t) : Stays s (computeBody e f t) := by
  unfold Machine.computeBody
  split
  · exact h.poisonOut
  · split
    · exact h.emit.arithmetic
    · exact h

theorem Stays.passOn {f : Firing} {v : W × Bool} {ds : List ℕ} (h : Stays s t) : Stays s (passOn f v ds t) := Stays.ite h.poisonOut h.emit

theorem Stays.switchBody {f : Firing} (h : Stays s t) : Stays s (switchBody f t) := Stays.ite h.poisonOut h.passOn

theorem Stays.mergeBody {arrived : Bool} {f : Firing} (h : Stays s t) : Stays s (mergeBody arrived f t) := h.passOn

theorem Stays.gateBody {f : Firing} (h : Stays s t) : Stays s (gateBody f t) := Stays.ite h.poisonOut (Stays.ite h.passOn (Stays.ite h.poisonTrap h))

theorem Stays.selBody {f : Firing} (h : Stays s t) : Stays s (selBody f t) := by
  unfold Machine.selBody
  extract_lets
  split
  · exact h.emit
  · exact Stays.ite h.poisonOut h.poisonTrap.emit

theorem Stays.constBody {f : Firing} (h : Stays s t) : Stays s (constBody f t) := h.passOn

theorem Stays.sinkBody {f : Firing} (h : Stays s t) : Stays s (sinkBody f t) := Stays.ite h.poisonTrap h

theorem Stays.prismBody {f : Firing} (h : Stays s t) : Stays s (prismBody f t) := h.passOn

theorem Stays.linkBody {f : Firing} (h : Stays s t) : Stays s (linkBody f t) := h.passOn

theorem Stays.nowBody {f : Firing} (h : Stays s t) : Stays s (nowBody f t) := h.passOn

theorem Stays.dueBody {f : Firing} (h : Stays s t) : Stays s (dueBody f t) := h.passOn

theorem Stays.tightenBody {f : Firing} (h : Stays s t) : Stays s (tightenBody f t) := h.passOn

theorem Stays.nextBody {f : Firing} (h : Stays s t) : Stays s (nextBody f t) := (Stays.ite h.poisonTrap h).emitAll

theorem Stays.allocBody {f : Firing} (h : Stays s t) : Stays s (allocBody f t) := by
  unfold Machine.allocBody
  split
  · exact h.poisonOut
  · extract_lets
    split
    · exact h.emit.reportP
    · exact h.rest

theorem Stays.freeBody {f : Firing} (h : Stays s t) : Stays s (freeBody f t) := by
  unfold Machine.freeBody
  split
  · exact h.poisonTrap
  · refine Stays.ite ?_ ?_
    · exact h.reportP
    · split
      · exact h.reportP
      · exact h.send

theorem Stays.retBody {f : Firing} (h : Stays s t) : Stays s (retBody f t) := by
  unfold Machine.retBody
  refine Stays.ite ?_ ?_
  · exact h.poisonTrap
  · extract_lets
    split
    · exact (Stays.ite h.poisonTrap h).reportP
    · exact (Stays.ite h.poisonTrap h).emitToken

theorem Stays.holdSeq {f : Firing} {m : Option MicroSt} (h : Stays s t) : Stays s (holdSeq f m t) := h.rest

theorem Stays.allocGrant {r p q : ℕ} {e : PassErr} (h : Stays s t) : Stays s (allocGrant r p q e t) := by
  unfold Machine.allocGrant
  extract_lets
  split
  · exact Stays.ite h (h.rest.set.countProg.stdGoOn (·.emitTo))
  · exact h

theorem Stays.applyRelease {p ctx g c : ℕ} (h : Stays s t) : Stays s (applyRelease p ctx g c t) := by
  unfold Machine.applyRelease
  extract_lets
  split
  · exact h.reportP
  · exact Stays.ite h.reportP h.rest

theorem Stays.releaseStep (h : Stays s t) : Stays s (releaseStep t) := by
  unfold Machine.releaseStep
  split
  · exact h
  · exact Stays.ite h.rest.reqErr h.rest.applyRelease

theorem Stays.parkFiring {f : Firing} {e : ℕ} {addr : W} (h : Stays s t) : Stays s (parkFiring f e addr t) := h.rest

theorem Stays.bankRequest {c pe op : ℕ} {tag due a d : W} {ret : ℕ} (h : Stays s t) : Stays s (bankRequest c pe op tag due a d ret t) :=
  h.startTimer.bind fun h2 => (Stays.ite h2.rest h2.send)

theorem Stays.bankBody {op : ℕ} {f : Firing} (h : Stays s t) (e : bankBody op f t = some u) : Stays s u := by
  unfold Machine.bankBody at e
  split at e
  · cases e
    exact h.poisonOut
  · dsimp only at e
    split at e
    · cases e
      exact h.emit.reportP
    · obtain ⟨p, -, rfl⟩ := Option.map_eq_some_iff.1 e
      exact h.parkFiring.bankRequest

theorem Stays.fireParking {cls : OpClass} {c pe : ℕ} {err : FireErr} {body : Firing → State → Option State} (h : Stays s t)
    (hbody : ∀ {f : Firing} {u v : State}, Stays s u → body f u = some v → Stays s v) : Stays s (fireParking cls c pe err body t) := by
  unfold Machine.fireParking
  split
  · exact Stays.ite h (Stays.ite h.rest (h.rest.stdGoOn fun h => h.getD (hbody h)))
  · refine Stays.ite h ?_
    split
    · exact h
    · refine Stays.ite h ?_
      split
      · rename_i e
        exact h.beginFire.snd e
      · rename_i e
        exact (h.beginFire.snd e).holdSeq.getD (hbody (h.beginFire.snd e))

theorem Stays.lensBody {timeAt : Bool} {f : Firing} (h : Stays s t) (e : lensBody timeAt f t = some u) : Stays s u := by
  unfold Machine.lensBody at e
  split at e
  · cases e
    exact h.poisonOut
  · obtain ⟨p, -, rfl⟩ := Option.map_eq_some_iff.1 e
    exact h.parkFiring.startTimer.send

theorem Stays.outBody {emitAt : Bool} {f : Firing} (h : Stays s t) (e : outBody emitAt f t = some u) : Stays s u := by
  unfold Machine.outBody at e
  split at e
  · cases e
    exact h.poisonOut
  · obtain ⟨p, -, rfl⟩ := Option.map_eq_some_iff.1 e
    exact (Stays.ite h.parkFiring.startTimer h).send

/-! ### What the functions of Micro keep -/

theorem Stays.uRead {f : Firing} {m : MicroSt} {w code : ℕ} (h : Stays s t) : Stays s (uRead f m w code t).2 := by
  unfold Machine.uRead
  split
  · exact h
  · exact h.freeVal

theorem Stays.freeBool (h : Stays s t) : Stays s (freeBool t).2 := by
  unfold Machine.freeBool
  split
  rename_i e
  exact (h.freeVal.snd e).pair

theorem Stays.orFree {o : Option Bool} (h : Stays s t) : Stays s (orFree o t).2 := by
  unfold Machine.orFree
  split
  · exact h
  · exact h.freeBool

theorem Stays.uCondition {f : Firing} {m : MicroSt} {w : ℕ} {alu : Option AR} {carry ovf : Option Bool} {unit : Option AR} (h : Stays s t) :
    Stays s (uCondition f m w alu carry ovf unit t).2 := by
  unfold Machine.uCondition
  split
  · exact h
  · exact h.orFree
  · exact h.orFree
  · exact h.orFree
  · exact h.orFree
  · split
    rename_i e1
    exact (h.uRead.snd e1).pair
  · exact h.orFree
  · exact h.orFree
  · exact h.orFree

theorem Stays.uEmitTo {f : Firing} {m : MicroSt} {v : W} {poison : Bool} {ds : List (ℕ × ℕ)} (h : Stays s t) :
    Stays s (uEmitTo f m v poison ds t).2 :=
  h.emit.pair

theorem Stays.uToken {f : Firing} {m : MicroSt} {w : ℕ} {res : Option W} (h : Stays s t) : Stays s (uToken f m w res t).2 := by
  unfold Machine.uToken
  split
  · refine Stays.iteSnd ?_ h.uRead.pair
    split
    · exact h
    · exact (h.freeVal (w := 48)).pair
  · split
    · exact h
    · exact h
    · exact (h.freeVal (w := 48)).pair
  · split
    rename_i e
    refine Stays.snd ?_ e
    split
    · exact h
    · exact (h.freeVal (w := 48)).pair

theorem Stays.uEmission {f : Firing} {m : MicroSt} {w : ℕ} {res : Option W} (h : Stays s t) : Stays s (uEmission f m w res t).2 := by
  unfold Machine.uEmission
  refine Stays.iteSnd ?_ ?_
  · exact h
  · split
    rename_i e
    exact (h.uToken.snd e).uEmitTo

theorem Stays.parkUser {f : Firing} {m : MicroSt} {e : ℕ} {addr : W} {detached : Bool} (h : Stays s t) : Stays s (parkUser f m e addr detached t) :=
  h.rest

theorem Stays.uSend {fl : Flit} {f : Firing} {ret : ℕ} {a : W} {op : ℕ} (h : Stays s t) : Stays s (uSend fl f ret a op t) := h.startTimer.send

theorem Stays.uRequest {f : Firing} {m : MicroSt} {w : ℕ} {q d : W} {r : UReq} (h : Stays s t) (e : uRequest f m w q d t = some (r, u)) :
    Stays s u := by
  unfold Machine.uRequest at e
  extract_lets n wait urg sent at e
  split at e
  · cases e
    exact h
  · split at e
    · split at e
      · cases e
        exact h.reportP
      · obtain ⟨p, -, e⟩ := Option.map_eq_some_iff.1 e
        exact h.parkUser.bankRequest.eqPair e
    · split at e
      · split at e
        · cases e
          exact h.reportP
        · obtain ⟨p, -, e⟩ := Option.map_eq_some_iff.1 e
          exact h.parkUser.uSend.eqPair e
      · split at e
        · cases e
          exact h.reportP
        · obtain ⟨p, -, e⟩ := Option.map_eq_some_iff.1 e
          exact (Stays.ite h.parkUser.uSend h.send).eqPair e

theorem Stays.setGathered {f : Firing} {m : MicroSt} (h : Stays s t) : Stays s (setGathered f m t).2 := h.setSticky.pair

theorem Stays.userMachineCheck {f : Firing} {m : MicroSt} {u' : ℕ} {nested inj : Bool} {groups : Option ℕ} (h : Stays s t) :
    Stays s (userMachineCheck f m u' nested inj groups t) :=
  h.setGathered.machineCheck

theorem Stays.badMicroword {e : PassErr} {f : Firing} {m : MicroSt} (h : Stays s t) : Stays s (badMicroword e f m t) := by
  unfold Machine.badMicroword
  extract_lets
  split
  · exact h.microTrap.userMachineCheck
  · exact h.microTrap.emit.setGathered.reportP

theorem Stays.detachPark {f : Firing} (h : Stays s t) : Stays s (detachPark f t) := h.rest

theorem Stays.uStep {f : Firing} {m : MicroSt} {w : ℕ} {r : UStep} (h : Stays s t) (e : uStep f m w t = some (r, u)) : Stays s u := by
  unfold Machine.uStep at e
  split at e
  rename_i ea
  split at e
  rename_i eb
  split at e
  rename_i exa
  split at e
  rename_i exb
  split at e
  rename_i exc
  split at e
  rename_i eq
  have h₁ := (((((h.uRead.snd ea).uRead.snd eb).uRead.snd exa).uRead.snd exb).uRead.snd exc).uRead.snd eq
  extract_lets at e
  split at e
  rename_i ec
  split at e
  rename_i ee
  have h₂ := (h₁.uCondition.snd ec).uEmission.snd ee
  extract_lets at e
  split at e
  rename_i em
  have h₃ := (Stays.iteSnd (h₂.freeVal (w := 48)).pair h₂.pair).snd em
  extract_lets at e
  split at e
  rename_i eg
  have h₄ := (Stays.iteSnd h₃.setGathered h₃.pair).snd eg
  extract_lets at e
  obtain ⟨⟨q, v⟩, eq, e⟩ := Option.map_eq_some_iff.1 e
  have h₅ := (Stays.ite h₄.microTrap.raiseEvent h₄).uRequest eq
  cases q <;> exact h₅.eqPair e

theorem Stays.uRun {err : PassErr} {f : Firing} {n : ℕ} {m : MicroSt} (h : Stays s t) : Stays s (uRun err f n m t) := by
  induction n generalizing t m with
  | zero => exact h
  | succ n ih =>
    rw [Machine.uRun]
    refine Stays.ite h.userMachineCheck (Stays.ite h.badMicroword ?_)
    split
    · exact h.holdSeq
    · rename_i e
      have h1 := h.uStep e
      split
      · exact (Stays.ite h1.detachPark h1).userMachineCheck
      · exact ih h1
      · exact h1

theorem Stays.uStart {f : Firing} {upc : ℕ} (h : Stays s t) : Stays s (uStart f upc t).2 := by
  unfold Machine.uStart
  split
  rename_i e
  split
  rename_i e1
  split
  rename_i e2
  split
  rename_i e3
  exact ((((h.freeVal.snd e).freeVal.snd e1).freeVal.snd e2).freeVal.snd e3).pair

theorem Stays.userBody {e : PassErr} {f : Firing} (h : Stays s t) : Stays s (userBody e f t) := by
  unfold Machine.userBody
  split
  · exact h.poisonOut
  · split
    rename_i e1
    exact (h.uStart.snd e1).uRun

theorem Stays.userResume {f : Firing} {m : MicroSt} {e : PassErr} (h : Stays s t) : Stays s (userResume f m e t) := by
  unfold Machine.userResume
  split
  · rename_i e
    exact (h.takeInjection.snd e).userMachineCheck
  · rename_i e
    exact (h.takeInjection.snd e).uRun

theorem Stays.continueUser {c pe : ℕ} {e : PassErr} (h : Stays s t) : Stays s (continueUser c pe e t) := by
  unfold Machine.continueUser
  split
  · exact h
  · split
    · exact Stays.ite h.rest.userResume h
    · exact h

theorem Stays.resumeStandard {p : Park} {v extra : W} {poison : Bool} (h : Stays s t) : Stays s (resumeStandard p v extra poison t) := by
  unfold Machine.resumeStandard
  refine Stays.ite ?_ ?_
  · exact h.emit
  · split
    · exact h.emit.emit
    · exact h.emit.emit
    · exact h.emit
    · exact h.emit
    · exact h.emit
    · exact h.emit
    · exact h.emit
    · exact h.emit

theorem Stays.stdResume {p : Park} {v extra : W} {poison : Bool} {e : PassErr} (h : Stays s t) : Stays s (stdResume p v extra poison e t) :=
  h.stdGoOn (·.resumeStandard)

theorem Stays.deferTrap {e : PassErr} {p : Park} (h : Stays s t) : Stays s (deferTrap e p t) := by
  unfold Machine.deferTrap
  extract_lets
  split
  · refine Stays.ite ?_ ?_
    · extract_lets
      split
      · exact h.microTrap.userMachineCheck
      · exact h.microTrap
    · exact h
  · exact h.microTrap.runHandler

theorem Stays.response {c pe : ℕ} {err : PassErr} (h : Stays s t) : Stays s (response c pe err t) := by
  unfold Machine.response
  split
  · exact h
  · extract_lets
    split
    · exact h.rest.inc
    · refine Stays.ite ?_ ?_
      · exact h
      · refine Stays.ite ?_ ?_
        · exact h.rest.rest.countCons
        · refine Stays.ite ?_ ?_
          · exact h.rest.rest.countProg.deferTrap
          · refine Stays.ite ?_ ?_
            · exact h.rest.rest.countProg
            · split
              · exact h.rest.rest.countProg.stdResume
              · exact h.rest.rest.countProg.userResume

theorem Stays.reentryOperand {w bit : ℕ} (h : Stays s t) : Stays s (reentryOperand w bit t).2 := Stays.iteSnd h h.freeVal

theorem Stays.deferredAnswer {c pe : ℕ} {err : PassErr} (h : Stays s t) : Stays s (deferredAnswer c pe err t) := by
  unfold Machine.deferredAnswer
  refine Stays.ite ?_ ?_
  · exact h
  · split
    · exact h
    · refine Stays.ite ?_ ?_
      · exact h.rest.countCons
      · extract_lets
        split
        rename_i e1
        split
        rename_i e2
        split
        rename_i e3
        have h19 := (((h.rest.countProg.reentryOperand.snd e1).reentryOperand.snd e2).reentryOperand.snd e3)
        exact Stays.ite h19.machineCheck (Stays.ite h19.userResume (h19.stdGoOn (·.emit)))

theorem Stays.dropDirect {c pe : ℕ} (h : Stays s t) : Stays s (dropDirect c pe t) := h.rest

theorem Stays.endPresented {p : Park} {ret : ℕ} (h : Stays s t) : Stays s (endPresented p ret t) := h.dropDirect.rest

theorem Stays.retryTrap {b : ℕ} {e : PePass} {r : BReq} (h : Stays s t) : Stays s (retryTrap b e r t) := by
  unfold Machine.retryTrap
  extract_lets
  split
  · exact h
  · refine Stays.ite ?_ ?_
    · extract_lets
      split
      · exact h.microTrap.endPresented.runHandler
      · exact h.microTrap
    · exact h

theorem Stays.bankOperation {b : ℕ} {direct : Bool} {err : BankErr} (h : Stays s t) : Stays s (bankOperation b direct err t) := by
  unfold Machine.bankOperation
  refine Stays.ite ?_ ?_
  · split
    · exact h
    · exact (h.foldl (·.retryTrap)).bind fun h5 => (Stays.ite h5.retryTrap h5.dropDirect.bankIssue)
  · split
    · exact h
    · exact Stays.ite h h.rest.bankIssue.refillBank

/-! ### What the functions of Deadlock keep -/

theorem Stays.reportCounts {p : ℕ} (h : Stays s t) : Stays s (reportCounts p t) :=
  (Stays.ite h.set.set.set.report h.set.set.set).bind fun h7 => ((Stays.ite h7.set h7).bind fun h6 => (Stays.ite h6 h6.rest))

theorem Stays.startReclaim {p : ℕ} (h : Stays s t) : Stays s (startReclaim p t) := by
  unfold Machine.startReclaim
  split
  · exact h.haltPartition.report
  · exact Stays.ite h.rest h.rest.set

theorem Stays.declare {p : ℕ} (h : Stays s t) : Stays s (declare p t) := by
  unfold Machine.declare
  refine Stays.ite ?_ ?_
  · exact h.set.inc.set.set.set.set.set.raiseEvent.haltPartition.report
  · split
    · exact h.set.inc.set.set.set.set.set.raiseEvent.startReclaim
    · exact h.set.inc.set.set.set.set.set.raiseEvent.haltPartition
    · exact h.set.inc.set.set.set.set.set.raiseEvent

theorem Stays.evaluate {p : ℕ} (h : Stays s t) : Stays s (evaluate p t) := Stays.ite h (Stays.ite h.rest.declare h.rest)

theorem Stays.reclaimNotice {p : ℕ} {b : Block} {win : ℕ} (h : Stays s t) : Stays s (reclaimNotice p b win t) := Stays.ite h h.countProd.send

theorem Stays.sweepEnd {p : ℕ} (h : Stays s t) : Stays s (sweepEnd p t) := by
  unfold Machine.sweepEnd
  split
  · exact h
  · extract_lets
    split
    rename_i e1
    exact (h.removeWork.snd e1).rest.set.set.set.set.set.inc.set.reclaimNotice

theorem Stays.filterExpiry {p : ℕ} (h : Stays s t) : Stays s (filterExpiry p t) := by
  unfold Machine.filterExpiry
  split
  · exact h
  · exact Stays.ite h (Stays.ite h.rest.startReclaim h.rest)

theorem Stays.emptyCluster {c : ℕ} (h : Stays s t) : Stays s (emptyCluster c t) := h.rest.set.foldl (·.set)

/-! ### What the functions of Admit keep -/

theorem Stays.writeQuota {p : ℕ} {ks : List Cert} (h : Stays s t) : Stays s (writeQuota p ks t) := h.rest.foldl (·.rest)

/-! ### What the functions of Ctl keep -/

theorem Stays.lineSend {g : ℕ} {l : List (BitVec 160)} (h : Stays s t) : Stays s (lineSend g l t) := h.rest

theorem Stays.lineBreak {g : ℕ} (h : Stays s t) : Stays s (lineBreak g t) := by
  unfold Machine.lineBreak
  refine Stays.ite ?_ ?_
  · exact h
  · split
    rename_i e
    exact (h.freeVal.snd e).rest

theorem Stays.badCtl {up : Bool} (h : Stays s t) : Stays s (badCtl up t) := h.inc.raiseEvent

theorem Stays.sentCtl {x : CtlWait} (h : Stays s t) : Stays s (sentCtl x t) := Stays.ite h.lineBreak.rest (Stays.ite h.rest h.rest)

theorem Stays.tryCtl {x : CtlWait} (h : Stays s t) : Stays s (tryCtl t x) := by
  unfold Machine.tryCtl
  refine Stays.ite ?_ ?_
  · exact h
  · split
    · exact h
    · exact h.rest.sentCtl

theorem Stays.pumpCtl (h : Stays s t) : Stays s (pumpCtl t) := h.foldl (fun h => h.foldl (·.tryCtl))

theorem Stays.postCtl {seg type : ℕ} {words : List W} (h : Stays s t) : Stays s (postCtl seg type words t) := h.rest.pumpCtl

theorem Stays.alignTick (h : Stays s t) : Stays s (alignTick t) :=
  Stays.ite h (Stays.ite (Stays.ite h.postCtl h).postCtl (Stays.ite h.postCtl h)).rest

theorem Stays.idleTick {up : Bool} (h : Stays s t) : Stays s (idleTick up t) := Stays.ite h h.lineBreak.rest

theorem Stays.sendCtl {up : Bool} {type : ℕ} {content : W} (h : Stays s t) : Stays s (sendCtl up type content t) := Stays.ite h.postCtl h

/-! ### What the functions of Global keep -/

theorem Stays.gPost {m : GMsg} (h : Stays s t) : Stays s (gPost m t) := h.rest

theorem Stays.gSend {up : Bool} {m : GMsg} (h : Stays s t) : Stays s (gSend up m t) := Stays.ite h.postCtl h

theorem Stays.gBroadcast {m : GMsg} (h : Stays s t) : Stays s (gBroadcast m t) := h.gSend.gSend

theorem Stays.gCheck {n : ℕ} {m : GMsg} {e : FlitErr} (h : Stays s t) : Stays s (gCheck n m e t).2 := h.flitChecks

theorem Stays.gWay {m : GMsg} {l : List GStop} (h : Stays s t) : Stays s (gWay m l t).2 := by
  induction l generalizing t with
  | nil => exact h
  | cons x l ih =>
    unfold Machine.gWay
    split
    · rename_i e
      exact ih (h.gCheck.snd e)
    · rename_i e
      exact (h.gCheck.snd e).pair

theorem Stays.gTake {gop : ℕ} {m : GlobalIn} (h : Stays s t) : Stays s (gTake gop m t).2 := by
  unfold Machine.gTake
  split
  · exact Stays.iteSnd h (Stays.iteSnd (h.foldl (·.inc)).badCtl.report.pair (Stays.iteSnd h.report.pair (Stays.iteSnd h h)))
  · split
    · exact h
    · refine Stays.iteSnd ?_ ?_
      · exact h
      · extract_lets
        split
        · rename_i e2
          exact (h.rest.gWay.snd e2).pair
        · rename_i e2
          have h11 := (h.rest.gWay.snd e2)
          split
          · rename_i e3
            exact (h11.gCheck.snd e3).pair
          · rename_i e3
            exact (h11.gCheck.snd e3).pair

theorem Stays.barGoOn {b : ℕ} (h : Stays s t) : Stays s (barGoOn b t) := Stays.ite h (Stays.ite h.gSend h.gPost)

theorem Stays.barArrive {b who : ℕ} (h : Stays s t) : Stays s (barArrive b who t) := Stays.ite h.set (Stays.ite h h.rest.barGoOn)

theorem Stays.barArm {b : ℕ} (h : Stays s t) : Stays s (barArm b t) := Stays.ite h.rest.set.barGoOn h.rest.set

theorem Stays.globalArrive {m : GlobalIn} (h : Stays s t) : Stays s (globalArrive m t) := by
  unfold Machine.globalArrive
  split
  · rename_i e
    exact h.gTake.snd e
  · rename_i e
    exact (h.gTake.snd e).barArrive
  · rename_i e
    exact (h.gTake.snd e).barArrive

theorem Stays.globalRelease {m : GlobalIn} (h : Stays s t) : Stays s (globalRelease m t) := by
  unfold Machine.globalRelease
  split
  · rename_i e
    exact h.gTake.snd e
  · rename_i e
    have h2 := (h.gTake.snd e)
    exact (Stays.ite h2.gSend h2).bind fun h6 => (Stays.ite h6 h6.rest.set.set.inc.raiseEvent)

theorem Stays.barCfgWrite {b v : ℕ} (h : Stays s t) : Stays s (barCfgWrite b v t) :=
  (Stays.ite h h.set.set.set).bind fun h4 => ((Stays.ite h4.barArm h4).bind fun h3 => (Stays.ite h3.set h3))

theorem Stays.barArriveWrite {core chan : ℕ} (h : Stays s t) : Stays s (barArriveWrite core chan t) := Stays.ite (Stays.ite h.gPost h.set) h

theorem Stays.clusterQuiet {b c : ℕ} (h : Stays s t) : Stays s (clusterQuiet b c t) := Stays.ite h.gPost h

theorem Stays.stageStart {kind part mode frm dst : ℕ} {ts : W} {pkgs : List ℕ} (h : Stays s t) :
    Stays s (stageStart kind part mode frm dst ts pkgs t) :=
  h.rest.gPost.bind fun h2 => (Stays.ite h2 h2.gBroadcast)

theorem Stays.setRtEntry {i w : ℕ} (h : Stays s t) : Stays s (setRtEntry i w t) := h.set.set.set.set

theorem Stays.setRtAlt {i w : ℕ} (h : Stays s t) : Stays s (setRtAlt i w t) := h.set.set.set.set

theorem Stays.loadMode {p m : ℕ} (h : Stays s t) : Stays s (loadMode p m t) := by
  unfold Machine.loadMode
  split
  · exact h
  · exact h.foldl (fun h => h.foldl (fun h => (Stays.ite h.setRtAlt h.setRtEntry)))

theorem Stays.globalStage {g : GlobalIn} (h : Stays s t) : Stays s (globalStage g t) := by
  unfold Machine.globalStage
  split
  · rename_i e
    exact h.gTake.snd e
  · rename_i e
    have h2 := (h.gTake.snd e)
    extract_lets
    split
    · exact (Stays.ite h2.loadMode h2).gPost
    · exact Stays.ite h2.gSend ((Stays.ite h2.gSend.loadMode h2.gSend).bind fun h9 => (Stays.ite h9.rest.set
        (Stays.ite h9.rest.set.set h9.rest)).gSend)

theorem Stays.globalAck {m : GlobalIn} (h : Stays s t) : Stays s (globalAck m t) := by
  unfold Machine.globalAck
  split
  · rename_i e
    exact h.gTake.snd e
  · rename_i e
    have h2 := (h.gTake.snd e)
    refine Stays.ite ?_ ?_
    · exact h2.rest
    · split
      · exact h2.gSend
      · exact h2

theorem Stays.lateVerdict {p op code : ℕ} (h : Stays s t) : Stays s (lateVerdict p op code t) := Stays.ite h.set.raiseEvent h

theorem Stays.clearStaged (h : Stays s t) : Stays s (clearStaged t) := Stays.ite h h.set

theorem Stays.abortStaged {x : Staged} (h : Stays s t) : Stays s (abortStaged x t) := by
  unfold Machine.abortStaged
  extract_lets
  split
  · exact h.rest.set.set.raiseEvent.bind fun h6 => (Stays.ite h6.lateVerdict h6)
  · split
    · exact h.rest
    · exact h.rest.rest.set.giveUpCluster.writeQuota.countClusters.lateVerdict
  · exact h.rest.clearStaged.set

theorem Stays.globalAbort {m : GlobalIn} (h : Stays s t) : Stays s (globalAbort m t) := by
  unfold Machine.globalAbort
  split
  · rename_i e
    exact h.gTake.snd e
  · rename_i e
    extract_lets t₁
    have h₁ : Stays s t₁ := by
      unfold t₁
      split
      · exact (h.gTake.snd e).gSend
      · exact h.gTake.snd e
    split
    · exact h₁.abortStaged
    · exact h₁

theorem Stays.scheduleDeadline (h : Stays s t) : Stays s (scheduleDeadline t) := by
  unfold Machine.scheduleDeadline
  split
  · exact h
  · exact Stays.ite h.rest (Stays.ite h.gBroadcast h).gPost

theorem Stays.dropStaged {x : Staged} (h : Stays s t) : Stays s (dropStaged x t) := h.rest

theorem Stays.gschedWrite {kind : ℕ} {system : Bool} (h : Stays s t) : Stays s (gschedWrite kind system t) := Stays.ite h.set h.set.stageStart

theorem Stays.initiatorTimeout (h : Stays s t) : Stays s (initiatorTimeout t) := by
  unfold Machine.initiatorTimeout
  split
  · exact h
  · exact h.rest.bind fun h11 => (Stays.ite (Stays.ite h11.rest.inc h11.rest).reportU
      (Stays.ite h11.rest.inc h11.rest.inc.set.set.set.set.set.set).reportP)

theorem Stays.freeChain {f : Flit} (h : Stays s t) : Stays s (freeChain f t) := by
  unfold Machine.freeChain
  split
  · exact Stays.ite h.rest h
  · exact h

theorem Stays.arriveAt {f : Flit} (h : Stays s t) : Stays s (arriveAt f t) :=
  (Stays.ite h.deliverOther h.enterNode).bind fun h2 => (Stays.ite h2.freeChain h2)

theorem Stays.receiveCheck {n : ℕ} {f : Flit} {raws : List (BitVec 160)} {errs : List FlitErr} {urgErr : Bool} (h : Stays s t) :
    Stays s (receiveCheck n f raws errs urgErr t).2 := by
  unfold Machine.receiveCheck
  split
  rename_i e
  have h1 := (h.flitChecks.snd e)
  exact Stays.iteSnd h1.pair (Stays.iteSnd h1.corrFlit.pair h1.pair)

theorem Stays.chainPacket {g rcyc : ℕ} {x2 : ChainFlit} {raws : List (BitVec 160)} {errs : List FlitErr} {urgErr : Bool} (h : Stays s t) :
    Stays s (chainPacket g rcyc x2 raws errs urgErr t) := by
  unfold Machine.chainPacket
  refine Stays.ite ?_ ?_
  · exact h
  · extract_lets
    split
    · rename_i e
      exact (h.rest.receiveCheck.snd e).freeChain
    · rename_i e
      have h11 := (h.rest.receiveCheck.snd e)
      exact (Stays.ite h11.countProd.sourceRate h11).bind fun h15 => (Stays.ite (h15.freeChain.bind fun h14 => (Stays.ite h14.discardAt
        (Stays.ite h14.send h14))) h15.arriveAt)

theorem Stays.receiveChain {g rcyc : ℕ} {x2 : ChainFlit} {errs : List FlitErr} {urgErr : Bool} (h : Stays s t) :
    Stays s (receiveChain g rcyc x2 errs urgErr t) := by
  unfold Machine.receiveChain
  refine Stays.ite ?_ ?_
  · exact h
  · extract_lets
    split
    · exact h.rest
    · exact h.rest.chainPacket

theorem Stays.receiveInside {g cyc rcyc : ℕ} {errs : List FlitErr} {urgErr : Bool} (h : Stays s t) :
    Stays s (receiveInside g cyc rcyc errs urgErr t) := by
  unfold Machine.receiveInside
  extract_lets from_ dst busy
  refine Stays.ite h ?_
  split
  · exact h
  · extract_lets old t₁ t₂ vc f' k src t₃ t₄
    have h₂ : Stays s t₂ := h.rest.freeChain
    refine Stays.drainNode (Stays.ite ?_ ?_)
    · split
      rename_i e
      have h₃ := h₂.rest.rawsOf.snd e
      exact Stays.ite h₃.lineSend.countCons h₃.lineSend
    · have h₄ : Stays s t₄ := Stays.ite h₂ h₂.rest
      split
      · rename_i e
        exact h₄.receiveCheck.snd e
      · rename_i e
        exact (h₄.receiveCheck.snd e).arriveAt

/-! ### What the functions of Aperture keep -/

theorem Stays.apDone {v : Verdict} (h : Stays s t) : Stays s (apDone v t) := h.rest.set.set.set.set.set.set.raiseEvent

theorem Stays.apCmdWrite {v : ℕ} (h : Stays s t) : Stays s (apCmdWrite v t) :=
  Stays.ite h.set (h.rest.set.set.set.bind fun h3 => (Stays.ite h3.apDone h3))

theorem Stays.claim (h : Stays s t) : Stays s (claim t) := by
  unfold Machine.claim
  split
  · exact h
  · exact Stays.ite h.apDone (Stays.ite h h.set.set.set.countClusters.apDone)

theorem Stays.setDispatch {c op d : ℕ} (h : Stays s t) : Stays s (setDispatch c op d t) := h.set.set.set.set.set.set.set

theorem Stays.writeGolden {c : ℕ} {g : Golden} (h : Stays s t) : Stays s (writeGolden c g t) := (h.foldl (·.writeN)).foldl (fun h => h.setDispatch)

theorem Stays.goldenRead {ram : ℕ} (h : Stays s t) : Stays s (goldenRead ram t).2 := by
  unfold Machine.goldenRead
  split
  rename_i e
  have h1 := (h.secded.snd2 e)
  exact Stays.iteSnd h1.pair (Stays.iteSnd h1.report.pair h1.report.pair)

theorem Stays.loadUserSet {c set : ℕ} (h : Stays s t) : Stays s (loadUserSet c set t) := by
  unfold Machine.loadUserSet
  split
  · exact h
  · exact h.writeGolden.set.set

theorem Stays.setArith {k : Cert} {p m ep : ℕ} (h : Stays s t) : Stays s (setArith k p m ep t) := h.set.set.rest

theorem Stays.writePools {p : ℕ} {k : Cert} (h : Stays s t) : Stays s (writePools p k t) := h.foldl (·.set.set.set.set.set.set.set.set.set.set.set)

theorem Stays.clearPools {p : ℕ} (h : Stays s t) : Stays s (clearPools p t) := h.foldl (fun h => h.foldl (·.set.set.set.set.set.set))

theorem Stays.clearCounts {p : ℕ} (h : Stays s t) : Stays s (clearCounts p t) := h.rest.set.set.set

theorem Stays.admitWrites {p : ℕ} {k : Cert} {ws : List ℕ} (h : Stays s t) : Stays s (admitWrites p k ws t) :=
  (h.foldl (·.loadUserSet)).set.set.set.set.writePools.bind fun h10 => (Stays.ite h10.set.set h10.set).setArith.setArith.rest.writeQuota.clearCounts

theorem Stays.admitGraph {r : Rewrite} (h : Stays s t) : Stays s (admitGraph r t) := by
  unfold Machine.admitGraph
  split
  · exact h
  · refine Stays.ite ?_ ?_
    · exact h.apDone
    · extract_lets
      split
      rename_i e1
      have h3 := ((Stays.iteSnd h.goldenRead h).snd e1)
      split
      · exact h3.admitWrites.apDone
      · exact h3.apDone

theorem Stays.restampMade {p : ℕ} (h : Stays s t) : Stays s (restampMade p t) := (h.foldl (·.addCnt.addCnt)).rest

theorem Stays.commit {p : ℕ} (h : Stays s t) : Stays s (commit p t) := by
  unfold Machine.commit
  split
  · exact h
  · exact Stays.ite h (h.rest.foldl (fun h => (Stays.ite (h.set.foldl (·.setRtAlt)) h))).set.set.set.restampMade

theorem Stays.withdraw (h : Stays s t) : Stays s (withdraw t) := by
  unfold Machine.withdraw
  split
  · exact h
  · exact Stays.ite h.apDone (Stays.ite h.apDone (h.set.discardHeldIf.foldl (·.set.giveUpCluster)).rest.set.set.set.countClusters.apDone)

theorem Stays.dropDefers {p : ℕ} (h : Stays s t) : Stays s (dropDefers p t) := h.rest

theorem Stays.withdrawComplete {p : ℕ} (h : Stays s t) : Stays s (withdrawComplete p t) := Stays.ite h h.clearPools.writeQuota.dropDefers.rest.set.set

theorem Stays.stage (h : Stays s t) : Stays s (stage t) := by
  unfold Machine.stage
  split
  · exact h
  · extract_lets
    split
    · exact h.apDone
    · refine Stays.ite ?_ ?_
      · exact h.apDone
      · refine Stays.ite ?_ ?_
        · exact h.apDone
        · split
          · exact h.apDone
          · exact h.set.set.stageStart.apDone

theorem Stays.modeCommit {p : ℕ} (h : Stays s t) : Stays s (modeCommit p t) := by
  unfold Machine.modeCommit
  split
  · exact h
  · extract_lets
    split
    · exact h.dropStaged.set.set.set.set
    · exact h.dropStaged.set.set.set.set.setArith.rest.restampMade.set

theorem Stays.switched {p : ℕ} (h : Stays s t) : Stays s (switched p t) := h.commit.modeCommit

theorem Stays.modeDone {p : ℕ} (h : Stays s t) : Stays s (modeDone p t) := h.rest.set.set.raiseEvent

theorem Stays.modeDrained {p : ℕ} (h : Stays s t) : Stays s (modeDrained p t) := Stays.ite h.modeDone h

theorem Stays.modeSweep {p : ℕ} (h : Stays s t) : Stays s (modeSweep p t) := by
  unfold Machine.modeSweep
  split
  · exact h
  · refine Stays.ite ?_ ?_
    · exact h
    · extract_lets
      split
      rename_i e1
      exact (h.removeWork.snd e1).discardHeldIf.rest

theorem Stays.modeDiscardEnd {p : ℕ} (h : Stays s t) : Stays s (modeDiscardEnd p t) := by
  unfold Machine.modeDiscardEnd
  split
  · exact h
  · exact Stays.ite h h.set.modeDone

theorem Stays.migrate (h : Stays s t) : Stays s (migrate t) := by
  unfold Machine.migrate
  split
  · exact h
  · refine Stays.ite ?_ ?_
    · exact h.apDone
    · split
      · exact Stays.ite h.apDone h.set.set.set.set.set.rest.writeQuota.countClusters.apDone
      · exact h.apDone

theorem Stays.migCopyTick (h : Stays s t) : Stays s (migCopyTick t) := h.rest.foldl (fun h => (Stays.ite h h.rest.startTimer.send))

theorem Stays.spillFrom {k : Cert} {c : ℕ} (h : Stays s t) : Stays s (spillFrom k c t) := by
  unfold Machine.spillFrom
  split
  · exact h
  · exact h.set.set.set

theorem Stays.migrationCopyDone {p : ℕ} {r : Rewrite} (h : Stays s t) : Stays s (migrationCopyDone p r t) := by
  unfold Machine.migrationCopyDone
  split
  · exact h
  · split
    · exact h
    · extract_lets
      split
      rename_i e2
      have h5 := ((Stays.iteSnd h h.goldenRead).snd e2)
      exact Stays.ite h5.rest.set.giveUpCluster.writeQuota.countClusters.lateVerdict ((h5.foldl (·.setRtEntry.setRtAlt)).foldl
        (·.loadUserSet)).spillFrom.rest.stageStart

theorem Stays.rerouteFields {pkg frm dst i : ℕ} {fc fd fp : Fld} (h : Stays s t) (hc : Unmeasured fc := by decide)
    (hd : Unmeasured fd := by decide) : Stays s (rerouteFields pkg frm dst fc fd fp i t) :=
  Stays.ite ((h.set hc).set hd) h

/-- What `rerouteAll` does after the register fields: the tokens made, the deferred writes, the redirects and the loaded routes (R197). -/
def retagAll (p pkg frm dst : ℕ) (s : State) : State :=
  let held := s.clustersOf p
  { s with
    lens := { s.lens with made := s.lens.made.map fun (x : Nat × Token) => (x.1, { x.2 with tag := retagTo p pkg frm dst x.2.tag }) }
    bank := { s.bank with defer := s.bank.defer.map fun (e : Nat × List Defer) =>
      (e.1, e.2.map fun (d : Defer) => { d with tag := retagTo p pkg frm dst d.tag }) }
    ap := { s.ap with
      redirects := s.ap.redirects ++ [(⟨p, pkg, frm, dst⟩ : Redirect)]
      loaded := s.ap.loaded.map fun (e : Nat × List Nat) => if held.contains e.1 then (e.1, e.2.map (rerouteWord pkg frm dst)) else e } }

theorem Stays.retagAll {p pkg frm dst : ℕ} (h : Stays s t) : Stays s (retagAll p pkg frm dst t) := h.rest

theorem Stays.rerouteAll {p pkg frm dst : ℕ} (h : Stays s t) : Stays s (rerouteAll p pkg frm dst t) := by
  unfold Machine.rerouteAll
  extract_lets t₁ t₂ t₃
  have h₁ : Stays s t₁ := h.foldl fun h => h.foldl fun h => h.setRtEntry.setRtAlt
  have h₂ : Stays s t₂ := h₁.foldl fun h => (Stays.ite h.rerouteFields h).bind fun h => Stays.ite h.rerouteFields h
  have h₃ : Stays s t₃ := h₂.foldl fun h => h.foldl (·.rerouteFields)
  exact h₃.retagAll

theorem Stays.migrationSwitch {p : ℕ} (h : Stays s t) : Stays s (migrationSwitch p t) := by
  unfold Machine.migrationSwitch
  split
  · exact h
  · refine h.dropStaged.rerouteAll.bind fun h₁ => Stays.ite h₁ ?_
    split
    · exact h₁
    · exact Stays.ite h₁.rest (Stays.ite h₁.rest.set h₁.rest.set.rest.set.noteBreak)

theorem Stays.migrationDrained {p : ℕ} (h : Stays s t) : Stays s (migrationDrained p t) := by
  unfold Machine.migrationDrained
  split
  · exact h
  · exact Stays.ite h h.rest.set.releaseCluster.writeQuota.countClusters.raiseEvent

theorem Stays.guaranteeRestore {p : ℕ} (h : Stays s t) : Stays s (guaranteeRestore p t) := by
  unfold Machine.guaranteeRestore
  split
  · exact Stays.ite h.rest.set h
  · exact h

theorem Stays.uncharge {p : ℕ} (h : Stays s t) : Stays s (uncharge p t) := h.rest.writeQuota

theorem Stays.revoke {p reason : ℕ} (h : Stays s t) : Stays s (revoke p reason t) := Stays.ite h.markLost.set h.markLost.stopPartition.uncharge

theorem Stays.refit {n : ℕ} (h : Stays s t) : Stays s (refit n t) := by
  induction n generalizing t with
  | zero => exact h
  | succ n ih =>
    unfold Machine.refit
    refine Stays.ite h ?_
    split
    · exact ih h.stopPartition.uncharge
    · split
      · exact ih h.revoke
      · exact h

theorem Stays.ledgerReexamine (h : Stays s t) : Stays s (ledgerReexamine t) := Stays.ite h (h.foldl (·.revoke)).rest.refit

theorem Stays.loseCapacity {ps : List ℕ} {reason : ℕ} (h : Stays s t) : Stays s (loseCapacity ps reason t) := h.rest

theorem Stays.quarantine {c : ℕ} (h : Stays s t) : Stays s (quarantine c t) := Stays.ite h (h.loseCapacity.set.noteBreak.foldl (·.set))

theorem Stays.deliveryMiss {p : ℕ} {emitAt : Bool} {kind index : ℕ} {tag due : W} (h : Stays s t) :
    Stays s (deliveryMiss p emitAt kind index tag due t) :=
  Stays.ite h ((Stays.ite h.inc.rest h.inc).bind fun h9 => ((Stays.ite h9 h9.set.set.set.set.set.set.set.set.set).bind fun h8 =>
    (Stays.ite h8.report h8)))

/-! ### What the functions of Fifo keep -/

theorem Stays.setFifo {k : ℕ} {f : Fifo} (h : Stays s t) : Stays s (t.setFifo k f) := h.rest

theorem Stays.pfEvent {k : ℕ} (h : Stays s t) : Stays s (pfEvent k t) := Stays.ite h.raiseEvent h

theorem Stays.pfPut {k : ℕ} {e : PfEntry} (h : Stays s t) : Stays s (pfPut k e t) :=
  Stays.ite h.setFifo (Stays.ite h.setFifo.set h.setFifo.set.set.pfEvent)

theorem Stays.fifoIdleFlush {k : ℕ} (h : Stays s t) : Stays s (fifoIdleFlush k t) := by
  unfold Machine.fifoIdleFlush
  extract_lets
  split
  · exact Stays.ite h h.setFifo
  · exact h

theorem Stays.pfDrop {k : ℕ} (h : Stays s t) : Stays s (pfDrop k t) := by
  unfold Machine.pfDrop
  refine Stays.ite ?_ ?_
  · exact h
  · extract_lets
    split <;> exact h.setFifo.set

theorem Stays.pfTake {k natural : ℕ} (h : Stays s t) : Stays s (pfTake k natural t).2 := by
  unfold Machine.pfTake
  extract_lets
  split
  · exact h
  · extract_lets
    split
    rename_i e1
    have h5 := (h.setFifo.secded.snd2 e1)
    exact Stays.iteSnd h5.pair (Stays.iteSnd h5.inc.report.pair h5.set.report.pfEvent.pair)

/-! ### What the functions of AuxPins keep -/

theorem Stays.setAux {k : ℕ} {p : AuxPin} (h : Stays s t) : Stays s (t.setAux k p) := h.rest

theorem Stays.auxPulse {k n : ℕ} (h : Stays s t) : Stays s (auxPulse k n t) := h.setAux

theorem Stays.auxToggle {k : ℕ} (h : Stays s t) : Stays s (auxToggle k t) := by
  unfold Machine.auxToggle
  refine Stays.ite ?_ ?_
  · exact h.setAux
  · split
    rename_i e
    exact (h.freeVal.snd e).setAux

theorem Stays.auxEvent {func sel : ℕ} (h : Stays s t) : Stays s (auxEvent func sel t) :=
  h.foldl (fun h => (Stays.ite h (Stays.ite h.auxPulse (Stays.ite h (Stays.ite h.auxToggle (Stays.ite h.auxPulse h))))))

theorem Stays.auxTick (h : Stays s t) : Stays s (auxTick t) := by
  unfold Machine.auxTick
  exact (h.foldl (fun h => (Stays.ite h.setAux h))).bind fun h3 => (Stays.ite h3.auxEvent h3)

/-! ### What the functions of Lens keep -/

theorem Stays.setCoord {i : ℕ} {c : Coord} (h : Stays s t) : Stays s (t.setCoord i c) where
  sized hs := ⟨(h.sized hs).nine, (h.sized hs).each, List.length_set.trans (h.sized hs).five, (h.sized hs).four⟩
  error := h.error
  count := h.count
  due := h.due

theorem Stays.orBound {b : Option ℤ} (h : Stays s t) : Stays s (orBound b t).2 := by
  unfold Machine.orBound
  split
  · exact h
  · split
    rename_i e1
    exact (h.freeVal.snd e1).pair

theorem Stays.publish {i : ℕ} (h : Stays s t) : Stays s (publish i t) := Stays.ite h.setCoord h.setCoord

theorem Stays.modelCheck {i : ℕ} {stamp : BitVec 52} {ang : ℤ} (h : Stays s t) : Stays s (modelCheck i stamp ang t) := by
  unfold Machine.modelCheck
  extract_lets v
  split
  · exact h
  · extract_lets c x off
    split
    rename_i e
    refine Stays.bind (Stays.snd ?_ e) fun h => Stays.ite h.inc.set.raiseEvent h
    split
    · exact h
    · exact (h.freeVal (w := 32)).pair

theorem Stays.recordEdge {i : ℕ} {stamp : BitVec 52} {back : Bool} (h : Stays s t) : Stays s (recordEdge i stamp back t) :=
  (Stays.ite h.set.set h).bind fun h6 => ((Stays.ite h6 h6.modelCheck).setCoord.set.set.bind fun h5 => (Stays.ite h5.set.raiseEvent h5))

theorem Stays.takeBack {i : ℕ} {c : CoordUndo} (h : Stays s t) : Stays s (takeBack i c t) := by
  have hid : ∀ f ∈ coordFlds, Unmeasured f := by decide
  exact h.setCoord.foldlMem fun ha h => h.set (hid _ (List.of_mem_zip ha).1)

theorem Stays.abChange {i : ℕ} {stamp : BitVec 52} {a b : Bool} {width : ℕ} (h : Stays s t) : Stays s (abChange i stamp a b width t) := by
  unfold Machine.abChange
  extract_lets c da db qerr t'
  have hq {u : State} (h : Stays s u) : Stays s (qerr u) := h.inc.set
  have h' : Stays s t' := h.setCoord
  clear_value qerr da db
  split
  · exact h
  · exact hq h'
  · split
    · exact hq h'.takeBack
    · exact h'.recordEdge.setCoord

theorem Stays.zSeen {i : ℕ} {stamp : BitVec 52} {width : ℕ} (h : Stays s t) : Stays s (zSeen i stamp width t) :=
  Stays.ite h (h.setCoord.bind fun h3 => (Stays.ite h3 (Stays.ite (Stays.ite h3 h3.inc.set) h3.setCoord.set.set)))

theorem Stays.encoderChange {i : ℕ} {stamp : BitVec 52} {a b : Bool} {width : ℕ} (h : Stays s t) : Stays s (encoderChange i stamp a b width t) := by
  unfold Machine.encoderChange
  refine Stays.ite ?_ ?_
  · exact h
  · split
    · exact h.takeBack.abChange.zSeen
    · exact h.abChange

/-- The levels at an encoder's input. -/
theorem Stays.setEnc {e : ℕ} {v : Bool × Bool} (h : Stays s t) : Stays s { t with lens := { t.lens with enc := setAt t.lens.enc e v } } where
  sized hs := ⟨(h.sized hs).nine, (h.sized hs).each, (h.sized hs).five, List.length_set.trans (h.sized hs).four⟩
  error := h.error
  count := h.count
  due := h.due

theorem Stays.countEdge {src : ℕ} {stamp : BitVec 52} {a b : Bool} {width : ℕ} (h : Stays s t) : Stays s (countEdge src stamp a b width t) :=
  (Stays.ite h.setEnc h).foldl (fun h => (Stays.ite h (Stays.ite h.encoderChange (Stays.ite h h.recordEdge))))

theorem Stays.zEdge {e : ℕ} {stamp : BitVec 52} {width : ℕ} (h : Stays s t) : Stays s (zEdge e stamp width t) :=
  h.foldl (fun h => (Stays.ite h.zSeen h))

theorem Stays.coordinateStall {i : ℕ} (h : Stays s t) : Stays s (coordinateStall i t) := Stays.ite h h.set

theorem Stays.restartCoord {i : ℕ} (h : Stays s t) : Stays s (restartCoord i t) := h.setCoord.set.set.set

theorem Stays.mainsEdge {rising : Bool} {stamp : BitVec 52} {width : ℕ} (h : Stays s t) : Stays s (mainsEdge rising stamp width t) := by
  unfold Machine.mainsEdge
  refine Stays.ite ?_ ?_
  · exact h
  · extract_lets
    split
    · exact h.setCoord
    · exact Stays.ite h.set (Stays.ite h.setCoord.set (h.setCoord.set.bind fun h4 => (Stays.ite h4.set h4)))

theorem Stays.mainsHoldover (h : Stays s t) : Stays s (mainsHoldover t) := Stays.ite h h.setCoord.set.set.set.raiseEvent

theorem Stays.stopMains (h : Stays s t) : Stays s (stopMains t) := h.setCoord.set.set

theorem Stays.lensAnswer {i : ℕ} {isTime : Bool} {l tf : W} (h : Stays s t) : Stays s (lensAnswer i isTime l tf t).2 := by
  unfold Machine.lensAnswer
  refine Stays.iteSnd ?_ ?_
  · exact h
  · extract_lets
    split
    rename_i e
    exact (h.orBound.snd e).pair

theorem Stays.lensQuery (h : Stays s t) : Stays s (lensQuery t) := by
  unfold Machine.lensQuery
  split
  · exact h
  · refine Stays.ite ?_ ?_
    · exact h.rest.reqErr.send
    · extract_lets
      split
      rename_i e1
      exact (h.rest.lensAnswer.snd e1).respond

/-! ### What the functions of Source keep -/

theorem Stays.createSource {id p : ℕ} {t' : Token} (h : Stays s t) : Stays s (createSource id p t' t) := Stays.ite h h.sourceRate.countProd.rest

theorem Stays.handOver {t' : Token} (h : Stays s t) : Stays s (handOver t' t) := h.send

theorem Stays.handOverMade (h : Stays s t) : Stays s (handOverMade t) := Stays.ite h (h.rest.foldl (fun h => h.handOver))

theorem Stays.keepTrig {i : ℕ} (h : Stays s t) : Stays s (keepTrig i t) := Stays.ite h h.rest

theorem Stays.noteEn {i : ℕ} {touched : Bool} (h : Stays s t) : Stays s (noteEn i touched t) := Stays.ite h.rest h

theorem Stays.noteTarget {i : ℕ} (h : Stays s t) : Stays s (noteTarget i t) := h.rest

theorem Stays.trigDisarm {i : ℕ} (h : Stays s t) : Stays s (trigDisarm i t) := Stays.ite h h.set

theorem Stays.trigMove {i v : ℕ} (h : Stays s t) : Stays s (trigMove i v t) := Stays.ite h h.set

theorem Stays.trigSkip {i n : ℕ} (h : Stays s t) : Stays s (trigSkip i n t) := Stays.ite h h.set.set.raiseAtBoundary

theorem Stays.triggerCrossing {i : ℕ} (h : Stays s t) : Stays s (triggerCrossing i t) :=
  Stays.ite h (h.rest.auxEvent.bind fun h6 => ((Stays.ite h6.trigMove h6.trigDisarm).bind fun h5 => (Stays.ite h5.trigSkip.set
    (Stays.ite h5.trigSkip h5.trigSkip.rest.inc.createSource))))

theorem Stays.carryTargets {x : ℕ} (h : Stays s t) : Stays s (carryTargets x t) := Stays.ite h (h.foldl (fun h => (Stays.ite h.set h)))

/-! ### What the functions of Sample keep -/

theorem Stays.keepOld {f : Fld} {i : ℕ} (h : Stays s t) : Stays s (keepOld f i t) := Stays.ite h h.rest

theorem Stays.setLane {k : ℕ} {l : Lane} (h : Stays s t) : Stays s (t.setLane k l) := h.rest

theorem Stays.beginForces (h : Stays s t) : Stays s (beginForces t) := h.foldl (fun h => (Stays.ite h (h.foldl (fun h => (Stays.ite h.set h)))))

theorem Stays.endForces (h : Stays s t) : Stays s (endForces t) := h.rest

theorem Stays.forceRelease {c : ℕ} (h : Stays s t) : Stays s (forceRelease c t) := Stays.ite h h.set.set.rest

theorem Stays.logTrip {k src : ℕ} {test : Bool} {index value : ℕ} {at_ : BitVec 52} (h : Stays s t) :
    Stays s (logTrip k src test index value at_ t) :=
  h.set.set.set.set.set.set.set

theorem Stays.trip {mask src : ℕ} {test : Bool} {index value : ℕ} {at_ : BitVec 52} (h : Stays s t) :
    Stays s (trip mask src test index value at_ t) :=
  (h.foldl (fun h => (Stays.ite h (Stays.ite (Stays.ite h.logTrip h) (Stays.ite h.set.set h.set.set.logTrip).raiseEvent)))).bind fun h6 =>
    (Stays.ite h6 h6.beginForces)

theorem Stays.setCmp {c : ℕ} {m : Cmp} (h : Stays s t) : Stays s (t.setCmp c m) := h.rest

theorem Stays.cmpWritten {c : ℕ} {clear : Bool} (h : Stays s t) : Stays s (cmpWritten c clear t) := h.setCmp

theorem Stays.testUsed {j : ℕ} (h : Stays s t) : Stays s (testUsed j t) := Stays.ite h.rest.set h.rest

theorem Stays.interlock {c : ℕ} {x : BitVec 24} {bad : Bool} {ref : BitVec 52} (h : Stays s t) : Stays s (interlock c x bad ref t) := by
  unfold Machine.interlock
  extract_lets m at_ set test x' bad' t₁
  have h₁ : Stays s t₁ := Stays.ite h.testUsed h
  refine Stays.ite h₁.setCmp ?_
  extract_lets
  split
  split
  extract_lets t₂
  have h₂ : Stays s t₂ := h₁.setCmp
  split
  rename_i e
  have h₃ := (Stays.iteSnd (h₂.freeVal (w := 24)) h₂).snd e
  extract_lets t₄
  have h₄ : Stays s t₄ := Stays.ite h₃.set.trip h₃
  exact Stays.ite h₄.set.trip h₄

theorem Stays.laneState {k st : ℕ} (h : Stays s t) : Stays s (laneState k st t) := Stays.ite h (h.foldl (·.setCmp)).setLane.set

theorem Stays.laneJudge {k : ℕ} {at_ : BitVec 52} (h : Stays s t) : Stays s (laneJudge k at_ t) :=
  Stays.ite h.set.set.holdFault.set.raiseEvent.trip (Stays.ite h.set.dropFault h)

theorem Stays.codeError {k block : ℕ} {at_ : BitVec 52} (h : Stays s t) : Stays s (codeError k block at_ t) :=
  Stays.ite h (h.inc.reportU.setLane.bind fun h3 => (Stays.ite h3.laneState.laneJudge h3))

theorem Stays.laneComma {k phase : ℕ} {at_ : BitVec 52} (h : Stays s t) : Stays s (laneComma k phase at_ t) :=
  Stays.ite h (Stays.ite (Stays.ite h.setLane.laneState.laneJudge h.setLane) (Stays.ite h h.laneState.laneJudge.setLane))

theorem Stays.laneAlign {k n : ℕ} {at_ : BitVec 52} (h : Stays s t) : Stays s (laneAlign k n at_ t) := Stays.ite h (Stays.ite h.laneState.laneJudge h)

theorem Stays.laneSofTimeout {k : ℕ} {at_ : BitVec 52} (h : Stays s t) : Stays s (laneSofTimeout k at_ t) :=
  Stays.ite h (Stays.ite h h.laneState.laneJudge)

theorem Stays.laneGraceExpiry {k : ℕ} (h : Stays s t) : Stays s (laneGraceExpiry k t) := h.laneJudge

theorem Stays.rxStop {k : ℕ} (h : Stays s t) : Stays s (rxStop k t) := h.setLane

theorem Stays.rxSof {k : ℕ} {start : BitVec 52} (h : Stays s t) : Stays s (rxSof k start t) :=
  Stays.ite h.setLane h.laneState.laneJudge.set.set.setLane

theorem Stays.rxHeader {k b : ℕ} {bad : Bool} {ends : BitVec 52} (h : Stays s t) : Stays s (rxHeader k b bad ends t) :=
  (Stays.ite h.setLane (Stays.ite h.inc.set h).set.setLane.laneJudge).pfPut

theorem Stays.rxSample {k j : ℕ} {xs : List (ℕ × Bool)} {ends : BitVec 52} (h : Stays s t) : Stays s (rxSample k j xs ends t) :=
  h.interlock.bind fun h2 => (Stays.ite h2 h2.set)

theorem Stays.rxSlot {k j b : ℕ} {bad : Bool} {xs : List (ℕ × Bool)} (h : Stays s t) : Stays s (rxSlot k j b bad xs t) := by
  unfold Machine.rxSlot
  extract_lets c d t₁ v e put
  have h₁ : Stays s t₁ := Stays.ite h h.set
  have hput {d : ℕ} {fin last e : Bool} {u : State} (h : Stays s u) : Stays s (put d fin last e u) := h.pfPut
  clear_value put
  exact hput (hput (hput (hput h₁)))

theorem Stays.rxByte {k b : ℕ} {bad : Bool} {ends : BitVec 52} (h : Stays s t) : Stays s (rxByte k b bad ends t) :=
  Stays.ite h (h.setLane.bind fun h2 => (Stays.ite h2 (Stays.ite h2.rxHeader (Stays.ite h2.rxSample (Stays.ite h2.rxSlot h2)))))

theorem Stays.rxGroup {k block : ℕ} {start : BitVec 52} {g : LineCode} (h : Stays s t) : Stays s (rxGroup k block start g t) := by
  unfold Machine.rxGroup
  extract_lets
  split
  · exact Stays.ite h.rxByte (Stays.ite h.codeError h)
  · exact (Stays.ite h.codeError h).rxByte
  · exact (Stays.ite h.codeError h).rxStop.bind fun h5 => (Stays.ite h5 (Stays.ite h5.rxSof (Stays.ite h5.laneState.laneJudge h5)))

theorem Stays.frame {k : ℕ} {f : FrameIn} (h : Stays s t) : Stays s (frame k f t) := Stays.ite h (h.foldlSnd fun h => Stays.ite h h.rxGroup)

theorem Stays.takeSample {x : Sample} (h : Stays s t) : Stays s (takeSample x t) := h.rest

theorem Stays.tapStream {c : ℕ} {x : Sample} (h : Stays s t) : Stays s (tapStream c x t) := by
  unfold Machine.tapStream
  refine Stays.ite ?_ ?_
  · exact h
  · extract_lets
    split
    rename_i e
    exact ((Stays.iteSnd h.freeVal h).snd e).pfPut

theorem Stays.tapSample {x : Sample} (h : Stays s t) : Stays s (tapSample x t) := h.foldl (·.tapStream)

theorem Stays.fifoWordRead {k natural : ℕ} (h : Stays s t) : Stays s (fifoWordRead k natural t) := by
  unfold Machine.fifoWordRead
  split
  · rename_i e
    exact h.pfTake.snd e
  · rename_i e
    have h2 := (h.pfTake.snd e)
    exact Stays.ite h2.setLane.set (Stays.ite (h2.setLane.bind fun h4 => (Stays.ite h4.pfDrop h4)) (Stays.ite h2 h2.takeSample.tapSample))

theorem Stays.channelToken {c : ℕ} {data : W} {poison : Bool} (h : Stays s t) : Stays s (channelToken c data poison t) :=
  Stays.ite h.set h.createSource

theorem Stays.sampleTokens (h : Stays s t) : Stays s (sampleTokens t) := h.rest.foldl (fun h => (Stays.ite h h.channelToken))

theorem Stays.gridPoint {g : ℕ} (h : Stays s t) : Stays s (gridPoint g t) := by
  unfold Machine.gridPoint
  split
  · exact h
  · exact Stays.ite h (h.rest.foldl (fun h => (Stays.ite h.rest h)))

theorem Stays.gridSkip {q : GridPt} (h : Stays s t) : Stays s (gridSkip q t) := Stays.ite h.rest h.rest.inc.set.raiseAtBoundary

theorem Stays.resamplerToken {ch : ℕ} (h : Stays s t) : Stays s (resamplerToken ch t) := by
  unfold Machine.resamplerToken
  split
  · exact h
  · extract_lets xs drop
    have hdrop {u : State} (h : Stays s u) : Stays s (drop u) := h.rest
    clear_value drop
    split
    · exact Stays.ite (hdrop h) h
    · refine Stays.ite h ?_
      extract_lets cnt t₁
      have h₁ : Stays s t₁ := hdrop h.rest
      refine Stays.ite (hdrop h).gridSkip ?_
      extract_lets
      split
      rename_i e
      have h₂ := (Stays.iteSnd h₁ (h₁.freeVal (w := 24))).snd e
      split
      rename_i e'
      have h₃ := (h₂.freeVal (w := 4)).snd e'
      exact Stays.ite h₃ h₃.channelToken

theorem Stays.freshen {l : List ℕ} (h : Stays s t) : Stays s (freshen l t) := h.rest

theorem Stays.laneEnabled {k : ℕ} (h : Stays s t) : Stays s (laneEnabled k t) :=
  Stays.ite h.setLane.laneState (Stays.ite (h.setLane.foldl (·.set)).freshen.laneState.beginForces (h.laneState.foldl (·.set)).setLane.laneJudge)

theorem Stays.noteForced {k : ℕ} (h : Stays s t) : Stays s (noteForced k t) := Stays.ite h h.setLane

theorem Stays.captureLane {k : ℕ} (h : Stays s t) : Stays s (captureLane k t) := Stays.ite h h.setLane.rest

theorem Stays.sampleTickEnd (h : Stays s t) : Stays s (sampleTickEnd t) := (h.foldl (·.forceRelease)).foldl (·.captureLane)

theorem Stays.outputFrame {k : ℕ} (h : Stays s t) : Stays s (outputFrame k t) := by
  unfold Machine.outputFrame
  extract_lets
  split
  · exact h
  · exact Stays.ite h (h.laneState.setLane.set.foldl (·.set)).rest

theorem Stays.ilkRelease {mask : ℕ} (h : Stays s t) : Stays s (ilkRelease mask t) := h.set

theorem Stays.sampleTick (h : Stays s t) : Stays s (sampleTick t) :=
  (((h.rest.foldl (·.laneEnabled)).foldl (·.laneJudge)).beginForces.endForces.foldl (·.noteForced)).sampleTokens

/-! ### What the functions of Time keep -/

theorem Stays.enterHoldover (h : Stays s t) : Stays s (enterHoldover t) := h.set.set.set.raiseEvent

theorem Stays.takeSource (h : Stays s t) : Stays s (takeSource t) := by
  unfold Machine.takeSource
  refine Stays.ite ?_ ?_
  · exact h
  · extract_lets
    split <;> exact h.rest.set.set

theorem Stays.judgeFreq {ok : Bool} (h : Stays s t) : Stays s (judgeFreq ok t) := Stays.ite h (Stays.ite h.rest.set (Stays.ite h.rest.set h.rest))

theorem Stays.freqAdj (h : Stays s t) : Stays s (freqAdj t) := by
  unfold Machine.freqAdj
  refine Stays.ite ?_ ?_
  · exact h.set
  · refine Stays.ite ?_ ?_
    · exact h
    · extract_lets
      split
      rename_i e
      exact (h.freeVal.snd e).set

theorem Stays.stepT (h : Stays s t) : Stays s (stepT t) := by
  unfold Machine.stepT
  split <;> exact h.rest

theorem Stays.alignGroups (h : Stays s t) : Stays s (alignGroups t) := h.foldl (·.rest)

/-- The phase errors that are due change PPS_MEAS, and no size. -/
theorem Sized.ppsShow (h : Sized t) : Sized (ppsShow t) := by
  have hshow (l : List (ℕ × ℕ)) (u : State) (hu : Sized u) : Sized (l.foldl (fun s x => (s.set F.ppsMeas_ERROR 0 x.2).inc F.ppsMeas_COUNT 0) u) := by
    induction l generalizing u with
    | nil => exact hu
    | cons x l ih => exact ih _ (hu.congr rfl rfl rfl)
  exact hshow _ _ (h.congr rfl rfl rfl)

/-- What Lens does at a boundary before PPS_MEAS shows the errors that are due. -/
def lensBegun (freqOk : Bool) (s : State) : State :=
  let s := freqAdj (judgeFreq freqOk (takeSource s))
  { s with lens := { s.lens with trigOld := [], trigEn := [], trigTgt := [] } }

/-- What Lens does at a boundary after that. -/
def lensPublished (s : State) : State :=
  let s := alignGroups ((List.range 5).foldl (fun s i => carryTargets i (publish i s)) (handOverMade s))
  if s.t.toNat % 4096 = 0 then sendCtl false 0x33 s.t (sendCtl true 0x33 s.t s) else s

theorem lensTick_eq (freqOk : Bool) (s : State) : lensTick freqOk s = lensPublished (ppsShow (lensBegun freqOk s)) := rfl

theorem Stays.lensBegun {freqOk : Bool} (h : Stays s t) : Stays s (lensBegun freqOk t) := h.takeSource.judgeFreq.freqAdj.rest

theorem Stays.lensPublished (h : Stays s t) : Stays s (lensPublished t) := by
  unfold Machine.lensPublished
  extract_lets t₁
  have h₁ : Stays s t₁ := (h.handOverMade.foldl fun h => h.publish.carryTargets).alignGroups
  clear_value t₁
  exact Stays.ite h₁.sendCtl.sendCtl h₁

theorem Sized.lensTick {freqOk : Bool} (h : Sized t) : Sized (lensTick freqOk t) := by
  rw [lensTick_eq]
  exact (h.along (Stays.refl t).lensBegun).ppsShow.along (Stays.refl _).lensPublished

theorem Stays.tLoad {t' : W} {era : BitVec 16} (h : Stays s t) : Stays s (tLoad t' era t) := h.rest

/-- What an edge of PPS of the selected polarity does first: PPS_PRESENT, the time of the last edge, and the load that waits for it (R206, R207). -/
def ppsTaken (s : State) : State :=
  let s := (s.set F.lensStat_PPS_PRESENT 0 1)
  let s := { s with lens := { s.lens with ppsLast := s.ticks } }
  match s.lens.load with
  | some (t, e, true) => { s with t := t, era := e, lens := { s.lens with load := none } }
  | _ => s

/-- The phase error of an edge of PPS (R207). -/
def ppsPhase (frac : ℕ) (s : State) : Int :=
  phaseError (((s.era.toNat * 2 ^ 48 + s.t.toNat) * 16 + frac + 2 ^ 68 - s.get F.ppsCfg_DELAY 0) % 2 ^ 68)

/-- What an edge of PPS with the phase error `e` does next where PPS_EN is 1 (R207). -/
def ppsMeasured (e : Int) (s : State) : State :=
  let s := { s with lens := { s.lens with ppsDue := s.lens.ppsDue ++ [(s.ticks + 4, (BitVec.ofInt 32 e).toNat)] } }
  let good := if e.natAbs ≤ 2 ∧ ppsHonoured s then s.lens.ppsGood + 1 else 0
  let s := { s with lens := { s.lens with ppsGood := good } }
  if 16 < e.natAbs then s.set F.lensStat_PPS_ALIGNED 0 0
  else if 4 ≤ good then s.set F.lensStat_PPS_ALIGNED 0 1 else s

theorem ppsEdge_eq (frac : ℕ) (rising : Bool) (s : State) : ppsEdge frac rising s =
    if rising == s.flag F.lensCtl_PPS_POL 0 then s
    else if !(ppsTaken s).flag F.lensCtl_PPS_EN 0 then ppsTaken s else ppsMeasured (ppsPhase frac (ppsTaken s)) (ppsTaken s) := rfl

theorem Sized.ppsTaken (h : Sized t) : Sized (ppsTaken t) := by
  unfold Machine.ppsTaken
  dsimp only
  split <;> exact h.congr rfl rfl rfl

theorem Sized.ppsMeasured {e : Int} (h : Sized t) : Sized (ppsMeasured e t) := by
  unfold Machine.ppsMeasured
  dsimp only
  repeat' split
  all_goals exact h.congr rfl rfl rfl

/-- An edge of PPS brings a phase error, and changes no size. -/
theorem Sized.ppsEdge {frac : ℕ} {rising : Bool} (h : Sized t) : Sized (ppsEdge frac rising t) := by
  rw [ppsEdge_eq]
  split
  · exact h
  · split
    · exact h.ppsTaken
    · exact h.ppsTaken.ppsMeasured

theorem Stays.ppsTimeout (h : Stays s t) : Stays s (ppsTimeout t) := Stays.ite h h.rest.set.set

theorem Stays.refLoss (h : Stays s t) : Stays s (refLoss t) := Stays.ite h.set.enterHoldover h.set

theorem Stays.referenceReturn {chain : Bool} (h : Stays s t) : Stays s (referenceReturn chain t) :=
  Stays.ite (Stays.ite h.rest.set h) (Stays.ite h.set.rest.set h.set)

theorem Stays.chainTimeLoss (h : Stays s t) : Stays s (chainTimeLoss t) := Stays.ite h h.rest.enterHoldover.dropFault

theorem Stays.judgeOffset {word : W} {stamp : BitVec 52} (h : Stays s t) : Stays s (judgeOffset word stamp t) :=
  h.rest.setFree.bind fun h3 => (Stays.ite h3.set.set (Stays.ite h3.set.holdFault h3.dropFault))

theorem Stays.timeWord {up : Bool} {word : W} {stamp : BitVec 52} {hold : ℕ} {intact : Bool} (h : Stays s t) :
    Stays s (timeWord up word stamp hold intact t) :=
  Stays.ite h (Stays.ite h.badCtl (Stays.ite h.sendCtl.judgeOffset h.sendCtl))

theorem Stays.techo {up : Bool} {sent received : BitVec 52} {hold : ℕ} {intact : Bool} (h : Stays s t) :
    Stays s (techo up sent received hold intact t) :=
  Stays.ite h (Stays.ite h.badCtl (Stays.ite h.rest.set h.rest))

/-! ### What the functions of Sched keep -/

theorem Stays.toReady {i : ℕ} (h : Stays s t) : Stays s (toReady i t) := h.rest.set

theorem Stays.thrOp {i op : ℕ} (h : Stays s t) (e : thrOp i op t = some u) : Stays s u := by
  unfold Machine.thrOp at e
  extract_lets at e
  split at e <;> (try split at e) <;> cases e
  · exact h.toReady
  · exact h.toReady
  · exact h.set
  · exact h

theorem Stays.schedOp {init c op : ℕ} (h : Stays s t) : Stays s (schedOp init c op t) := by
  unfold Machine.schedOp
  refine Stays.ite ?_ ?_
  · exact h
  · split
    · exact h.set
    · split
      · exact h.toReady
      · exact Stays.ite h.toReady h.set
      · exact h.set

theorem Stays.schedClaim {k : ℕ} (h : Stays s t) : Stays s (schedClaim k t).2 := by
  unfold Machine.schedClaim
  split
  · exact h
  · extract_lets t₁ t₂
    have h₁ : Stays s t₁ := by
      unfold t₁
      split
      · exact h.toReady
      · exact h
    exact h₁.set.set.set.set.pair

theorem Stays.slotWake {i : ℕ} (h : Stays s t) : Stays s (slotWake i t) := Stays.ite h.toReady h

theorem Stays.timer {k : ℕ} (h : Stays s t) : Stays s (timer k t) := Stays.ite h (h.raiseEvent.auxEvent.bind fun h3 => (Stays.ite h3.set h3.set.set))

theorem Stays.doorbell {v : ℕ} (h : Stays s t) : Stays s (doorbell v t) := h.foldl (fun h => (Stays.ite h.raiseEvent h))

theorem Stays.lockAcquire {init k : ℕ} (h : Stays s t) : Stays s (lockAcquire init k t).2 := Stays.iteSnd h h.set.set.inc.set.set.pair

theorem Stays.lockFree {k : ℕ} (h : Stays s t) : Stays s (lockFree k t) := h.set.set.set.set.raiseEvent

theorem Stays.lockRelease {init k : ℕ} (h : Stays s t) : Stays s (lockRelease init k t) := Stays.ite h.lockFree h.set

theorem Stays.lockForce {k : ℕ} (h : Stays s t) : Stays s (lockForce k t) := h.set.lockFree

theorem Stays.setMbx {i : ℕ} {l : List MbxEntry} (h : Stays s t) : Stays s (t.setMbx i l) := h.rest

theorem Stays.squashGcol {k : ℕ} (h : Stays s t) : Stays s (squashGcol k t) := h.rest

theorem Stays.mbxAppend {i : ℕ} {e : MbxEntry} (h : Stays s t) : Stays s (mbxAppend i e t) := h.setMbx.inc.raiseEvent

theorem Stays.setInj {c : ℕ} {l : List Token} (h : Stays s t) : Stays s (t.setInj c l) := h.rest

theorem Stays.ginjHandover {c : ℕ} (h : Stays s t) : Stays s (ginjHandover c t) := by
  unfold Machine.ginjHandover
  split
  · exact h
  · exact Stays.ite (h.setInj.noteBreak.bind fun h4 => (Stays.ite h4.raiseEvent h4)).inc (Stays.ite h (h.setInj.noteBreak.bind fun h6 =>
      (Stays.ite h6.raiseEvent h6)).inc.sourceRate.countProd.handOver)

/-! ### What the functions of CoreOps keep -/

theorem Stays.setCore {k : ℕ} {c : Core} (h : Stays s t) (hc : Sized s → c.Sized) : Stays s (t.setCore k c) where
  sized hs := by
    obtain ⟨hnine, heach, hfive, hfour⟩ := h.sized hs
    exact ⟨List.length_set.trans hnine, fun _ hc' => (List.mem_or_eq_of_mem_set hc').elim (heach _) fun e => e ▸ hc hs, hfive, hfour⟩
  error := h.error
  count := h.count
  due := h.due

theorem Stays.cycleOf {k : ℕ} (h : Stays s t) : Stays s (cycleOf k t).2 := by
  unfold Machine.cycleOf
  split
  rename_i e
  exact (h.freeVal.snd e).pair

theorem Stays.boundary {k : ℕ} (h : Stays s t) : Stays s (boundary k t) :=
  (h.setCore (by exact h.core)).bind fun h2 => (Stays.ite h2 (Stays.ite (Stays.ite h2.set h2) h2.set))

theorem Stays.haltReqWrite {k : ℕ} {v : Bool} (h : Stays s t) : Stays s (haltReqWrite k v t) :=
  (Stays.ite h.set h.set).bind fun h4 => (Stays.ite (Stays.ite h4 (Stays.ite (Stays.ite h4.set h4) h4.set)) ((h4.setCore (by exact h4.core)).bind fun h3 =>
    (Stays.ite (Stays.ite h3.rest.set h3) h3.set)))

theorem Stays.stepWrite {k : ℕ} (h : Stays s t) : Stays s (stepWrite k t) := Stays.ite (h.setCore (by exact h.core)) h

theorem Stays.coreReset {k : ℕ} (h : Stays s t) : Stays s (coreReset k t) := by
  unfold Machine.coreReset
  extract_lets _ _ t₁ _ t₂
  have h₁ : Stays s t₁ := (h.setCore fun _ => ⟨rfl, rfl⟩).squashGcol
  clear_value t₁
  have h₂ : Stays s t₂ := h₁.rest
  exact Stays.ite h₂ h₂.set.set

theorem Stays.dbgWrite {k sel : ℕ} {v : W} (h : Stays s t) : Stays s (dbgWrite k sel v t) :=
  Stays.ite (h.setCore (by exact fun hs => (h.core hs).set)) (Stays.ite (h.setCore (by exact h.core)).squashGcol (Stays.ite (h.setCore (by exact h.core))
    (Stays.ite (h.setCore (by exact fun hs => (h.core hs).setRsctl)) h)))

theorem Stays.doubleTrap {k code : ℕ} {pc : W} (h : Stays s t) : Stays s (doubleTrap k code pc t) :=
  (h.setCore (by exact h.core)).bind fun h1 => (Stays.ite h1.set.set h1.set.set.set.set).reportU

theorem Stays.takeTrap {k code : ℕ} {epc eaddr : W} {arg : ℕ} {imprecise : Bool} {pc : W} (h : Stays s t) :
    Stays s (takeTrap k code epc eaddr arg imprecise pc t) :=
  Stays.ite h.squashGcol.doubleTrap (Stays.ite h ((h.setCore (by exact h.core)).squashGcol.bind fun h3 =>
    (Stays.ite h3.inc.set h3.inc.set.set).boundary))

theorem Stays.endReservations {a : ℕ} (h : Stays s t) : Stays s (endReservations a t) := by
  refine h.mapCores fun c hc => ?_
  split
  · split <;> exact hc
  · exact hc

theorem Stays.ctlWrite {a n v : ℕ} (h : Stays s t) : Stays s (ctlWrite a n v t) := h.writeN.endReservations

theorem Stays.ctlCheck {a natural : ℕ} (h : Stays s t) : Stays s (ctlCheck a natural t).2 := by
  unfold Machine.ctlCheck
  extract_lets
  split
  rename_i e
  have h1 := (h.secded.snd2 e)
  exact Stays.iteSnd h1.report.pair (Stays.iteSnd h1.report.pair h1.pair)

theorem Stays.svResetWrite (h : Stays s t) : Stays s (svResetWrite t) := Stays.ite h h.coreReset.set.set.set.set

theorem Stays.cmpTest {ok : Bool} (h : Stays s t) : Stays s (cmpTest ok t) := Stays.ite h (Stays.ite h.set h.set.reportU)

theorem Stays.svRunWrite (h : Stays s t) : Stays s (svRunWrite t) := Stays.ite (h.setCore (by exact h.core)).rest.set.set.boundary h

theorem Stays.kick (h : Stays s t) : Stays s (kick t) := h.rest

theorem Stays.watchdogExpiry (h : Stays s t) : Stays s (watchdogExpiry t) := Stays.ite h h.trip.set.reportU.rest

theorem Stays.svTimer (h : Stays s t) : Stays s (svTimer t) := Stays.ite h h.set.set

/-! ### What the functions of Faults keep -/

theorem Stays.mcEntry {type : ℕ} {w0 : BitVec 64} {content : ℕ} (h : Stays s t) : Stays s (mcEntry type w0 content t) := h.set.set.rest

theorem Stays.mcEvent {code arg : ℕ} (h : Stays s t) : Stays s (mcEvent code arg t) := h.mcEntry

theorem Stays.withNFlt {f : State → State} (h : Stays s t) (hf : ∀ {u : State}, Stays s u → Stays s (f u)) : Stays s (withNFlt f t) :=
  Stays.ite (hf h).set.raiseEvent (hf h)

theorem Stays.appendRecord {r : BitVec 64 × BitVec 64} (h : Stays s t) : Stays s (appendRecord r t) := by
  unfold Machine.appendRecord
  refine Stays.ite ?_ ?_
  · exact h.rest
  · refine Stays.ite ?_ ?_
    · exact h.inc.raiseEvent
    · split
      · exact h.rest.inc.raiseEvent
      · exact h.inc.raiseEvent

theorem Stays.makeRecord {kind cls : ℕ} {exc wire inj : Bool} {part : Option ℕ} {l detail : ℕ} {t' : W} (h : Stays s t) :
    Stays s (makeRecord kind cls exc wire inj part l detail t' t) :=
  h.appendRecord.bind fun h7 => (((Stays.ite h7 h7.mcEntry).set.withNFlt (·.set)).bind fun h6 => (Stays.ite h6.raiseEvent
    (Stays.ite h6.raiseEvent h6)))

theorem Stays.fatalPath {w1 : BitVec 64} (h : Stays s t) : Stays s (fatalPath w1 t) :=
  Stays.ite h ((h.withNFlt (·.rest)).foldl (·.set)).beginForces.sendCtl.sendCtl

theorem Stays.setInst {i : FInst} (h : Stays s t) : Stays s (setInst i t) := h.rest

theorem Stays.collectQuarantine {c : ℕ} (h : Stays s t) : Stays s (collectQuarantine c t) := Stays.ite h h.quarantine.raiseEvent

theorem Stays.collectOffline {b : ℕ} (h : Stays s t) : Stays s (collectOffline b t) :=
  Stays.ite h (h.raiseEvent.bind fun h2 => (Stays.ite h2 h2.takeOffline.mcEvent))

theorem Stays.faultAction {k l : ℕ} (h : Stays s t) : Stays s (faultAction k l t) := Stays.ite h.collectQuarantine (Stays.ite h.collectOffline h)

theorem Stays.takeEvent {e : FaultEv} (h : Stays s t) : Stays s (takeEvent e t) :=
  h.setInst.inc.bind fun h9 => ((Stays.ite h9.set.inc.raiseEvent h9).makeRecord.bind fun h8 => ((Stays.ite h8.faultAction h8).bind fun h7 =>
    ((Stays.ite h7.collectQuarantine h7).bind fun h6 => (Stays.ite h6.fatalPath h6))))

theorem Stays.faultEvent (h : Stays s t) : Stays s (faultEvent t) := by
  unfold Machine.faultEvent
  refine Stays.ite ?_ ?_
  · exact h
  · split
    · exact h
    · split
      · exact h
      · exact h.rest.takeEvent

theorem Stays.wrongPair {kind l : ℕ} {inj : Bool} (h : Stays s t) : Stays s (wrongPair kind l inj t) := Stays.ite h h.makeRecord.raiseEvent

theorem Stays.wireFault {kind l : ℕ} {wrong : Bool} (h : Stays s t) : Stays s (wireFault kind l wrong t) :=
  Stays.ite h (Stays.ite h.rest (Stays.ite h h.wrongPair.rest))

theorem Stays.pairTick (h : Stays s t) : Stays s (pairTick t) := h.rest

theorem Stays.ackKind {k : ℕ} (h : Stays s t) : Stays s (ackKind k t) := Stays.ite h.set.rest h.set.rest.set.set

theorem Stays.popLog (h : Stays s t) : Stays s (popLog t) := h.rest

theorem Stays.clearRecord (h : Stays s t) : Stays s (clearRecord t) := h.rest

theorem Stays.startCollector (h : Stays s t) : Stays s (startCollector t) := Stays.ite h h.set.set.takeEvent

theorem Stays.injCtlWrite {v : ℕ} {hits : Bool} (h : Stays s t) : Stays s (injCtlWrite v hits t).2 :=
  Stays.iteSnd h (Stays.iteSnd h (Stays.iteSnd h ((Stays.ite h.set.set.set h.set.set).bind fun h5 => (Stays.iteSnd h5.set.pair (Stays.iteSnd
    (Stays.ite h5.set.wrongPair h5.set).rest.pair h5.set.pair)))))

theorem Stays.lockstepMiscompare {group : ℕ} {a b wire : Bool} (h : Stays s t) : Stays s (lockstepMiscompare group a b wire t) := by
  unfold Machine.lockstepMiscompare
  extract_lets st t₁ _ t₂ t₃ t₄
  have h₂ : Stays s t₂ := h.set.setCore (by exact h.core)
  refine Stays.ite h (Stays.takeEvent (Stays.ite h₂ ?_))
  split
  rename_i e
  have h₄ : Stays s t₄ := h₂.set.set.set.set.set
  exact (h₄.cycleOf.snd e).set.set

/-! ### What the functions of Capture keep -/

theorem Stays.setCap {k : ℕ} {c : CapStream} (h : Stays s t) : Stays s (t.setCap k c) := h.rest

theorem Stays.captureWord {k : ℕ} {data : W} (h : Stays s t) : Stays s (captureWord k data t) := h.setCap.pfPut

theorem Stays.writeRing {k o : ℕ} {ws : List (BitVec 64)} (h : Stays s t) : Stays s (writeRing k o ws t) := by
  induction ws generalizing t o with
  | nil => unfold Machine.writeRing; exact h
  | cons w ws ih => unfold Machine.writeRing; exact ih h.writeN

theorem Stays.finishRecord {k : ℕ} (h : Stays s t) : Stays s (finishRecord k t) :=
  h.writeRing.bind fun h9 => ((Stays.ite h9.set.inc.setCap.set h9.set.inc.setCap).bind fun h8 => ((Stays.ite h8.set h8).bind fun h7 =>
    (Stays.ite h7.raiseEvent h7)))

theorem Stays.joinRecord {k : ℕ} {w : PfWord} {poison : Bool} (h : Stays s t) : Stays s (joinRecord k w poison t) :=
  Stays.ite h.setCap.finishRecord h.setCap

theorem Stays.endCut {k : ℕ} (h : Stays s t) : Stays s (endCut k t) := by
  unfold Machine.endCut
  split
  · exact Stays.ite h.finishRecord h
  · exact h

theorem Stays.takeWords {k n : ℕ} {errs : List ℕ} (h : Stays s t) : Stays s (takeWords k errs n t) := by
  induction n generalizing t errs with
  | zero => unfold Machine.takeWords; exact h
  | succ n ih =>
    unfold Machine.takeWords
    extract_lets t₁
    have h₁ : Stays s t₁ := h.endCut
    refine Stays.ite h₁ (Stays.ite h₁.set ?_)
    split
    · rename_i e
      exact h₁.set.pfTake.snd e
    · rename_i e
      exact (h₁.set.pfTake.snd e).joinRecord.bind fun h => Stays.ite h (ih h)

theorem Stays.captureRecord {k : ℕ} {errs : List ℕ} (h : Stays s t) : Stays s (captureRecord k errs t) := h.takeWords

theorem Stays.closeShort {k : ℕ} (h : Stays s t) : Stays s (closeShort k t) := by
  unfold Machine.closeShort
  refine Stays.ite ?_ ?_
  · exact h
  · extract_lets
    split
    · exact h.setCap.setFifo
    · split
      · exact h.setCap.setFifo
      · exact h.setCap.setFifo.bind fun h10 => (Stays.ite h10 h10.setCap.finishRecord)

theorem Stays.captureShortClose {k : ℕ} (h : Stays s t) : Stays s (captureShortClose k t) := Stays.ite h h.closeShort

theorem Stays.capRpWrite {k v : ℕ} (h : Stays s t) : Stays s (capRpWrite k v t) := Stays.ite h.set h.set

theorem Stays.capRestart {k : ℕ} (h : Stays s t) : Stays s (capRestart k t) := h.setCap.set.set

theorem Stays.capCfgWrite {k v : ℕ} {hitsEn : Bool} (h : Stays s t) : Stays s (capCfgWrite k v hitsEn t).2 :=
  Stays.iteSnd (Stays.iteSnd h (Stays.iteSnd h.capRestart.pair h.closeShort.set.pair)) (Stays.iteSnd h
    ((Stays.ite h h.set).set.set.set.set.bind fun h4 => (Stays.iteSnd h4.capRestart.set.pair h4.pair)))

/-! ### What the functions of Chain keep -/

theorem Stays.bootFail {err : ℕ} (h : Stays s t) : Stays s (bootFail err t) :=
  h.rest.set.mcEvent.raiseEvent.reportU.bind fun h5 => (Stays.ite (h5.foldl (·.set)) h5)

theorem Stays.linkTo {up : Bool} {st : ℕ} (h : Stays s t) : Stays s (linkTo up st t) := Stays.ite h h.set.set.raiseEvent

theorem Stays.restartCredits {up : Bool} (h : Stays s t) : Stays s (restartCredits up t) := h.rest

theorem Stays.sendEnum (h : Stays s t) : Stays s (sendEnum t) := Stays.ite h.postCtl h

theorem Stays.blockLock {up : Bool} {lanes : ℕ} (h : Stays s t) : Stays s (blockLock up lanes t) := Stays.ite h (Stays.ite h.set.linkTo.linkTo h.set)

theorem Stays.dropChain {up : Bool} (h : Stays s t) : Stays s (dropChain up t) := h.inc.report

theorem Stays.dropHeld {up : Bool} (h : Stays s t) : Stays s (dropHeld up t) :=
  ((h.rest.foldl (fun h => h.freeChain.foldl (fun h => h.dropChain))).foldl (fun h => h.dropChain)).rest

theorem Stays.unmeasured {up : Bool} (h : Stays s t) : Stays s (unmeasured up t) := h.rest

theorem Stays.linkCapacity {up lost : Bool} (h : Stays s t) : Stays s (linkCapacity up lost t) := Stays.ite h.rest.loseCapacity h.rest

theorem Stays.chainDown {up : Bool} (h : Stays s t) : Stays s (chainDown up t) :=
  Stays.ite h (h.linkTo.set.inc.bind fun h2 => (Stays.ite h2.unmeasured.dropHeld.linkCapacity h2))

theorem Stays.chainAlign {up good : Bool} (h : Stays s t) : Stays s (chainAlign up good t) :=
  Stays.ite (h.linkTo.restartCredits.linkCapacity.bind fun h2 => (Stays.ite h2.sendEnum h2)) (Stays.ite h.chainDown h)

theorem Stays.takeCredit {up : Bool} {e : ℕ} (h : Stays s t) : Stays s (takeCredit up e t) := Stays.ite h h.rest

theorem Stays.credit {up : Bool} {content : W} {intact : Bool} (h : Stays s t) : Stays s (credit up content intact t) :=
  Stays.ite h (Stays.ite h.badCtl (h.foldl (·.takeCredit)))

theorem Stays.creditBlock {up : Bool} (h : Stays s t) : Stays s (creditBlock up t).2 := h.rest.pair

theorem Stays.sendCredits {up : Bool} (h : Stays s t) : Stays s (sendCredits up t) := by
  unfold Machine.sendCredits
  refine Stays.ite ?_ ?_
  · exact h
  · split
    rename_i e
    exact (h.creditBlock.snd e).sendCtl

theorem Stays.enumTake {number : ℕ} {era : BitVec 16} {t' : W} {n : ℕ} (h : Stays s t) : Stays s (enumTake number era t' n t) := h.set.rest

theorem Stays.enum {number : ℕ} {era : BitVec 16} {t' : W} {intact : Bool} (h : Stays s t) : Stays s (enum number era t' intact t) :=
  Stays.ite h.bootFail (Stays.ite h (Stays.ite h.badCtl (Stays.ite h.sendCtl (Stays.ite h (Stays.ite h.bootFail (Stays.ite h.enumTake h.rest))))))

theorem Stays.done {len : ℕ} {intact : Bool} (h : Stays s t) : Stays s (done len intact t) :=
  Stays.ite h.bootFail (Stays.ite h (Stays.ite h.badCtl (Stays.ite h (Stays.ite h.set h.set.sendCtl))))

theorem Stays.chainTick (h : Stays s t) : Stays s (chainTick t) := by
  unfold Machine.chainTick
  extract_lets t₁
  have h₁ : Stays s t₁ := by
    unfold t₁
    split
    · exact Stays.ite h.enumTake h
    · exact h
  clear_value t₁
  exact (Stays.ite h₁ (Stays.ite h₁.rest.set.sendCtl (Stays.ite h₁.rest.sendEnum h₁))).sendCredits.sendCredits

theorem Stays.fatalNotice {up : Bool} {pkg : ℕ} {intact : Bool} (h : Stays s t) : Stays s (fatalNotice up pkg intact t) :=
  Stays.ite h (Stays.ite h.badCtl h.reportU.sendCtl)

/-! ### What the functions of Output keep -/

theorem Stays.outEffect {o : OutVal} (h : Stays s t) : Stays s (outEffect o t) := by
  unfold Machine.outEffect
  split
  · exact h.forceRelease.set.rest
  · exact h.writeSlot
  · exact h.captureWord
  · exact h.set.beginForces
  · exact h.mbxAppend
  · exact h

theorem Stays.emitEffect {o : OutVal} (h : Stays s t) : Stays s (emitEffect o t) := by
  unfold Machine.emitEffect
  refine Stays.ite ?_ ?_
  · exact h.outEffect
  · split
    · exact h.outEffect.setFifo
    · exact h.outEffect.setMbx
    · exact h

theorem Stays.applyOut {o : OutVal} {late : Bool} (h : Stays s t) : Stays s (applyOut o late t) :=
  (Stays.ite h.deliveryMiss h).bind fun h4 => ((Stays.ite h4.rest.outEffect (Stays.ite h4.emitEffect h4.outEffect)).bind fun h3 =>
    (Stays.ite h3.respond h3))

theorem Stays.refuseOut {o : OutVal} (h : Stays s t) : Stays s (refuseOut o t) := Stays.ite h.report.respond h.report

theorem Stays.takeOut {o : OutVal} (h : Stays s t) : Stays s (takeOut o t) := Stays.ite h.refuseOut (Stays.ite h.rest h.applyOut)

theorem Stays.output (h : Stays s t) : Stays s (output t) := by
  unfold Machine.output
  split
  · exact h
  · exact h.rest.bind fun h5 => (Stays.ite (Stays.ite h5.reqErr.send h5.reqErr) (Stays.ite h5.rest h5.takeOut))

theorem Stays.emitAtDue (h : Stays s t) : Stays s (emitAtDue t) := by
  unfold Machine.emitAtDue
  split
  · exact h
  · exact Stays.ite h.rest.refuseOut h.rest.applyOut

theorem Stays.outputRoom (h : Stays s t) : Stays s (outputRoom t) := by
  unfold Machine.outputRoom
  split
  · exact h
  · exact h.rest.takeOut

/-! ### What the functions of Pins keep -/

theorem Stays.copyFrame {frm dst : ℕ} (h : Stays s t) : Stays s (copyFrame frm dst t) := h.foldl (·.writeSlot)

theorem Stays.mirrorFlip (h : Stays s t) : Stays s (mirrorFlip t) := Stays.ite h h.set.copyFrame.set.set.inc.raiseEvent

theorem Stays.mirrorRead {a : ℕ} {oe : Bool} (h : Stays s t) : Stays s (mirrorRead a oe t) := h.rest

theorem Stays.auxCfgWrite {k f sel : ℕ} (h : Stays s t) : Stays s (auxCfgWrite k f sel t) := Stays.ite h (Stays.ite h.set h).set.set.setAux

theorem Stays.auxSwitch {k : ℕ} (h : Stays s t) : Stays s (auxSwitch k t) := Stays.ite h h.setAux.set.set

theorem Stays.evin {k : ℕ} {level early : Bool} (h : Stays s t) : Stays s (evin k level early t) := Stays.ite h.setAux h.setAux.raiseEvent

theorem Stays.jtagLoad {code : ℕ} {nreset : Bool} (h : Stays s t) : Stays s (jtagLoad code nreset t) := h.rest

theorem Stays.jtagInstruction {q : JtagIn} {nreset : Bool} (h : Stays s t) : Stays s (jtagInstruction q nreset t) := by
  unfold Machine.jtagInstruction
  split
  · exact h.jtagLoad
  · exact h.rest
  · exact Stays.ite h.rest h

/-! ### What the functions of Power keep -/

theorem Stays.setLedger {i v : ℕ} (h : Stays s t) : Stays s (setLedger i v t) := h.rest

theorem Stays.ledgerCrc (h : Stays s t) : Stays s (ledgerCrc t) := h.setLedger

theorem Stays.ledgerInc {i : ℕ} {high : Bool} (h : Stays s t) : Stays s (ledgerInc i high t) := h.setLedger.ledgerCrc

theorem Stays.setVfCap (h : Stays s t) : Stays s (Machine.setCap t) := h.set

theorem Stays.applyVf (h : Stays s t) : Stays s (applyVf t) := Stays.ite h h.rest

theorem Stays.railReading {m v : ℕ} (h : Stays s t) : Stays s (railReading m v t) := by
  unfold Machine.railReading
  refine Stays.ite h.set.set ?_
  split
  · exact h.set
  · extract_lets t₁ t₂
    have h₂ : Stays s t₂ := Stays.ite h.set.set.set.setVfCap h.set.set.set
    exact Stays.ite h₂ (Stays.ite h₂.rest h₂.rest.dropFault)

theorem Stays.railFault {m : ℕ} (h : Stays s t) : Stays s (railFault m t) := by
  unfold Machine.railFault
  split
  · exact Stays.ite h.holdFault h
  · exact h

theorem Stays.pwrCtlWrite {v : ℕ} {hits : Bool} (h : Stays s t) : Stays s (pwrCtlWrite v hits t) := by
  unfold Machine.pwrCtlWrite
  refine Stays.ite h ?_
  extract_lets locked vf pk t₁ t₂
  have h₁ : Stays s t₁ := Stays.ite h h.set
  have h₂ : Stays s t₂ := Stays.ite h₁ h₁.set
  exact (Stays.ite h₂.set h₂).setVfCap.applyVf

theorem Stays.powerEstimate {watts : ℕ} (h : Stays s t) : Stays s (powerEstimate watts t) :=
  h.rest.set.set.bind fun h3 => (Stays.ite (Stays.ite h3.set h3) (Stays.ite h3.set.set h3))

theorem Stays.setRamp {f : ℕ} {o : Option ℕ} (h : Stays s t) : Stays s (setRamp f o t) := h.rest

theorem Stays.rampWatch (h : Stays s t) : Stays s (rampWatch t) := by
  refine h.foldl fun h => Stays.ite h.setRamp ?_
  split
  · exact Stays.ite h h.setRamp
  · exact Stays.ite h.setRamp h

theorem Stays.clockRampStep {f : ℕ} (h : Stays s t) : Stays s (clockRampStep f t) := by
  unfold Machine.clockRampStep
  extract_lets
  split
  · exact h
  · exact Stays.ite h h.setRamp.set.applyVf

theorem Stays.shedStepAt {f : ℕ} (h : Stays s t) : Stays s (shedStepAt f t) := by
  unfold Machine.shedStepAt
  extract_lets next order k _ t₁ t₂
  have h₂ : Stays s t₂ := h.rest.inc
  clear_value k
  split
  · exact h₂.set
  · exact (h₂.foldl fun h => (Stays.ite h.markLost h.set.set).stopPartition).set

theorem Stays.shedStep {f : ℕ} (h : Stays s t) : Stays s (shedStep f t) := by
  unfold Machine.shedStep
  split
  · exact h
  · exact Stays.ite h (Stays.ite h.shedStepAt h.rest.set.set)

theorem Stays.setHottest {f : ℕ} (h : Stays s t) : Stays s (setHottest f t) := h.set.set.set

theorem Stays.throttle {f : ℕ} (h : Stays s t) : Stays s (throttle f t) := Stays.ite h h.set.set.ledgerInc

theorem Stays.coolWatch {f : ℕ} (h : Stays s t) : Stays s (coolWatch f t) := Stays.ite h.rest h.rest

theorem Stays.convert {n v : ℕ} (h : Stays s t) : Stays s (convert n v t) :=
  (Stays.ite h.setHottest.coolWatch h).bind fun h8 => (Stays.ite h8.holdFault (h8.dropFault.bind fun h7 => (Stays.ite h7
    ((Stays.ite h7.throttle h7).bind fun h6 => ((Stays.ite h6.loseCapacity h6).bind fun h5 => (Stays.ite h5.set.shedStepAt.ledgerInc h5))))))

theorem Stays.sensorConversion {n : ℕ} {r : Option ℕ} (h : Stays s t) : Stays s (sensorConversion n r t) := by
  unfold Machine.sensorConversion
  split
  · exact h.rest.convert
  · exact Stays.ite h.rest.convert h.rest

theorem Stays.throttleRelease {f : ℕ} (h : Stays s t) : Stays s (throttleRelease f t) := by
  unfold Machine.throttleRelease
  split
  · exact Stays.ite h.set.set h
  · exact h

theorem Stays.sensorRead (h : Stays s t) : Stays s (sensorRead t) := by
  refine h.foldl fun h => ?_
  split
  · exact h
  · exact (Stays.ite h h.set).set.set.rest

theorem Stays.maxClear {n : ℕ} (h : Stays s t) : Stays s (maxClear n t) := h.set

theorem Stays.wearMinute (h : Stays s t) : Stays s (wearMinute t) := (h.setLedger.foldl (·.setLedger)).rest.ledgerCrc

/-! ### What the functions of Views keep -/

theorem Stays.fatalRecordWrite (h : Stays s t) : Stays s (fatalRecordWrite t) := Stays.ite h h.rest.ledgerInc

/-! ### What the functions of Address keep -/

theorem Stays.putField {f : Fld} {i x : ℕ} (h : Stays s t) (hf : Unmeasured f := by decide) : Stays s (putField f i x t) :=
  Stays.ite (Stays.ite (h.set hf) h) (Stays.ite (h.set hf) h)

/-- A write by the access codes leaves PPS_MEAS, which is read-only (R236). -/
theorem Stays.writeField {w : Wr} {f : Fld} (h : Stays s t) (hf : ReadOnlyIfMeasured f := by decide) : Stays s (writeField w f t) := by
  by_cases hro : f.acc = .ro
  · rw [writeField_readOnly w (.inl hro)]
    exact h
  · have hid : Unmeasured f := ⟨fun e => hro (hf.1 e), fun e => hro (hf.2 e)⟩
    by_cases hw : f.acc = .w1c
    · cases ht : w.touches f with
      | false => rw [writeField_untouched ht]; exact h
      | true => rw [writeField_w1c ht hw]; exact h.set hid
    · rcases writeField_keeps_or_puts w hw t with e | e
      · rw [e]; exact h
      · rw [e]; exact h.putField hid

theorem Stays.writeFields {w : Wr} {fs : List Fld} (h : Stays s t) (hfs : MeasuredReadOnly fs := by assumption) : Stays s (writeFields w fs t) :=
  h.foldlMem fun hf h => h.writeField (hfs _ hf)

/-! ### What the functions of RegWrite keep -/

theorem Stays.permit {ok : Bool} {f : State → State} (h : Stays s t) (hf : ∀ {u : State}, Stays s u → Stays s (f u)) : Stays s (permit ok f t).2 :=
  Stays.iteSnd (hf h).pair h

theorem Stays.coordCfgWrite {w : Wr} {fs : List Fld} (h : Stays s t) (hfs : MeasuredReadOnly fs := by assumption) : Stays s (coordCfgWrite w fs t) :=
  h.writeFields.bind fun h2 => (Stays.ite h2 h2.restartCoord)

theorem Stays.mainsCfgWrite {w : Wr} {fs : List Fld} (h : Stays s t) (hfs : MeasuredReadOnly fs := by assumption) : Stays s (mainsCfgWrite w fs t) :=
  h.writeFields.bind fun h2 => (Stays.ite h2.stopMains h2)

theorem Stays.letStep (h : Stays s t) : Stays s (letStep t) := Stays.ite h.set h

theorem Stays.rscStep (h : Stays s t) : Stays s (rscStep t) := Stays.ite h.set h

theorem Stays.letWrite {v : ℕ} (h : Stays s t) : Stays s (letWrite v t) := h.rest.letStep

theorem Stays.rscWrite {v : ℕ} (h : Stays s t) : Stays s (rscWrite v t) := h.rest.rscStep

theorem Stays.tLoadWrite {w : Wr} (h : Stays s t) : Stays s (tLoadWrite w t) := Stays.ite h.tLoad (Stays.ite h.rest h.tLoad)

theorem Stays.trigCfgWrite {w : Wr} {fs : List Fld} (h : Stays s t) (hfs : MeasuredReadOnly fs := by assumption) : Stays s (trigCfgWrite w fs t).2 :=
  h.permit (·.keepTrig.noteEn.writeFields)

theorem Stays.rsCfgWrite {w : Wr} {fs : List Fld} (h : Stays s t) (hfs : MeasuredReadOnly fs := by assumption) : Stays s (rsCfgWrite w fs t).2 :=
  h.permit (·.writeFields)

theorem Stays.laneCfgWrite {w : Wr} {fs : List Fld} (h : Stays s t) (hfs : MeasuredReadOnly fs := by assumption) : Stays s (laneCfgWrite w fs t) := by
  refine h.keepOld.keepOld.keepOld.keepOld.writeFields ?_
  split
  · exact fun f hf => hfs f (List.mem_filter.1 hf).1
  · exact hfs

theorem Stays.chCfgWrite {w : Wr} {fs : List Fld} (h : Stays s t) (hfs : MeasuredReadOnly fs := by assumption) : Stays s (chCfgWrite w fs t).2 :=
  h.permit (·.keepOld.writeFields)

theorem Stays.chCmpWrite {w : Wr} {fs : List Fld} (h : Stays s t) (hfs : MeasuredReadOnly fs := by assumption) : Stays s (chCmpWrite w fs t) :=
  h.writeFields.cmpWritten

theorem Stays.ilkTestWrite {w : Wr} {fs : List Fld} (h : Stays s t) (hfs : MeasuredReadOnly fs := by assumption) : Stays s (ilkTestWrite w fs t) :=
  h.writeFields.rest

theorem Stays.ilkForceWrite {w : Wr} {fs : List Fld} (h : Stays s t) (hfs : MeasuredReadOnly fs := by assumption) : Stays s (ilkForceWrite w fs t) :=
  h.writeFields.beginForces

theorem Stays.svCtlWrite {w : Wr} (h : Stays s t) : Stays s (svCtlWrite w t) :=
  h.writeField.writeField.bind fun h6 => ((Stays.ite h6.svResetWrite h6).bind fun h5 => ((Stays.ite h5.cmpTest h5).bind fun h4 =>
    (Stays.ite h4.svRunWrite h4)))

theorem Stays.svBootWrite {w : Wr} (h : Stays s t) : Stays s (svBootWrite w t) := Stays.ite h h.set

theorem Stays.svWdogWrite {init : ℕ} {priv : Bool} {w : Wr} (h : Stays s t) : Stays s (svWdogWrite init priv w t).2 :=
  Stays.iteSnd h (h.writeField.writeField.bind fun h4 => ((Stays.ite h4.kick h4).bind fun h3 => (Stays.ite h3.kick h3).pair))

theorem Stays.mbxInWrite {init : ℕ} {w : Wr} {fs : List Fld} (h : Stays s t) (hfs : MeasuredReadOnly fs := by assumption) :
    Stays s (mbxInWrite init w fs t).2 :=
  h.permit (·.writeFields.set.set)

theorem Stays.mbxOutWrite {init : ℕ} {priv : Bool} {w : Wr} {fs : List Fld} (h : Stays s t) (hfs : MeasuredReadOnly fs := by assumption) :
    Stays s (mbxOutWrite init priv w fs t).2 :=
  h.permit (·.writeFields.set)

theorem Stays.ccCtlWrite {w : Wr} (h : Stays s t) : Stays s (ccCtlWrite w t) := h.writeField.bind fun h2 => (Stays.ite h2.coreReset h2)

theorem Stays.dbgCtlWrite {k : ℕ} {fHalt fStep fSel : Fld} {w : Wr} (h : Stays s t)
    (hf : ReadOnlyIfMeasured fSel := by decide) : Stays s (dbgCtlWrite k fHalt fStep fSel w t) := by
  unfold Machine.dbgCtlWrite
  extract_lets t₁ t₂
  have h₂ : Stays s t₂ := Stays.ite (h.writeField hf).haltReqWrite (h.writeField hf)
  exact Stays.ite h₂.stepWrite h₂

theorem Stays.thrCfgWrite {w : Wr} {fs : List Fld} (h : Stays s t) (hfs : MeasuredReadOnly fs := by assumption) : Stays s (thrCfgWrite w fs t).2 := by
  unfold Machine.thrCfgWrite
  refine Stays.iteSnd ?_ ?_
  · exact h.writeFields.pair
  · split
    · rename_i e
      exact (h.thrOp e).writeFields.pair
    · exact h

theorem Stays.evCfgWrite {w : Wr} {fs : List Fld} (h : Stays s t) (hfs : MeasuredReadOnly fs := by assumption) : Stays s (evCfgWrite w fs t) :=
  h.writeFields.bind fun h2 => (Stays.ite h2.raiseEvent h2)

theorem Stays.lkWrite {init : ℕ} {w : Wr} (h : Stays s t) : Stays s (lkWrite init w t) :=
  (Stays.ite h.lockRelease h).bind fun h2 => (Stays.ite h2.lockForce h2)

theorem Stays.fkCfgWrite {w : Wr} (h : Stays s t) : Stays s (fkCfgWrite w t) :=
  h.writeField.bind fun h4 => (Stays.ite h4.writeField h4).withNFlt (·.writeField)

theorem Stays.mcCmdWrite {op : ℕ} (h : Stays s t) : Stays s (mcCmdWrite op t) := Stays.ite h.set (Stays.ite h.set.set.raiseEvent h.rest.set.set)

theorem Stays.dlCtlWrite {w : Wr} (h : Stays s t) : Stays s (dlCtlWrite w t) := (Stays.ite h h.writeField).writeField.writeField

theorem Stays.spillCfgWrite {w : Wr} {fs : List Fld} (h : Stays s t) (hfs : MeasuredReadOnly fs := by assumption) : Stays s (spillCfgWrite w fs t).2 :=
  h.permit (·.writeFields)

theorem Stays.bankPwrRegWrite {init : ℕ} {w : Wr} (h : Stays s t) : Stays s (bankPwrRegWrite init w t).2 :=
  Stays.iteSnd h (Stays.iteSnd (h.permit (·.takeOffline)) h.bankPwrWrite)

theorem Stays.arithWrite {w : Wr} {fs : List Fld} (h : Stays s t) (hfs : MeasuredReadOnly fs := by assumption) : Stays s (arithWrite w fs t) :=
  h.writeFields.rest

theorem Stays.regWrite {init : ℕ} {priv full : Bool} {b : Blk} {d : RegDef} {w : Wr} (h : Stays s t) (hfs : MeasuredReadOnly d.fs := by assumption) :
    Stays s (regWrite init priv full b d w t).2 := by
  unfold Machine.regWrite
  refine Stays.iteSnd ?_ ?_
  · exact h
  · split
    · exact h.permit (fun h => (Stays.ite h h.writeFields))
    · exact h.spillCfgWrite
    · exact (Stays.ite h.clearMarks h).pair
    · exact h.writeFields.bind fun h11 => (Stays.ite h11.set h11).pair
    · exact (Stays.ite h.set h).pair
    · exact Stays.iteSnd h (h.permit (·.writeFields))
    · exact h.permit (·.writeFields)
    · exact h.permit (·.writeFields)
    · exact h.permit (·.writeFields)
    · exact h.permit (·.writeFields)
    · exact h.permit (·.writeFields)
    · exact h.permit (·.writeFields)
    · exact h.bankOwnWrite
    · exact h.bankPwrRegWrite
    · exact h.arithWrite.pair
    · exact h.dlCtlWrite.pair
    · exact h.permit (fun h => (Stays.ite h.apCmdWrite h))
    · exact h.permit (·.writeFields)
    · exact h.permit (·.writeFields)
    · exact h.permit (·.writeFields)
    · exact h.permit (·.writeFields)
    · exact h.permit (·.writeFields)
    · exact h.permit (·.writeFields)
    · exact h.permit (·.writeFields)
    · exact h.permit (·.writeFields)
    · exact (Stays.ite h.set h).pair
    · exact h.permit (·.tLoadWrite)
    · exact h.permit (·.coordCfgWrite)
    · exact h.permit (·.writeFields)
    · exact h.permit (·.writeFields)
    · exact h.permit (·.mainsCfgWrite)
    · exact h.permit (·.letWrite)
    · exact h.permit (·.rscWrite)
    · exact h.rsCfgWrite
    · exact h.permit (·.writeFields)
    · exact h.permit (·.writeFields)
    · exact h.permit (·.writeFields)
    · exact h.trigCfgWrite
    · exact h.keepTrig.noteTarget.writeFields.pair
    · exact h.permit (·.writeFields)
    · exact h.permit (·.writeFields)
    · exact h.permit (·.laneCfgWrite)
    · exact Stays.iteSnd h.writeField.writeField.pair (h.permit (·.writeFields))
    · exact h.permit (·.writeFields)
    · exact h.permit (fun h => (Stays.ite h.pfDrop h))
    · exact h.chCfgWrite
    · exact h.permit (·.writeFields)
    · exact h.permit (·.writeFields.cmpWritten)
    · exact h.permit (fun h => h.chCmpWrite)
    · exact h.permit (·.keepOld.keepOld.writeFields)
    · exact h.permit (·.ilkTestWrite)
    · exact h.permit (·.writeFields)
    · exact h.barCfgWrite.pair
    · exact (Stays.ite h.barArriveWrite h).pair
    · exact (Stays.ite h.gschedWrite h).pair
    · exact h.permit (·.ccCtlWrite)
    · exact h.permit (·.set)
    · exact h.dbgCtlWrite.pair
    · exact h.permit (·.dbgWrite)
    · exact h.thrCfgWrite
    · exact (Stays.ite h.schedOp h).pair
    · exact h.evCfgWrite.pair
    · exact h.doorbell.pair
    · exact h.lkWrite.pair
    · exact h.permit (·.svCtlWrite)
    · exact h.svBootWrite.pair
    · exact h.permit (·.dbgCtlWrite)
    · exact h.permit (·.dbgWrite)
    · exact h.writeFields.set.pair
    · exact h.svWdogWrite
    · exact h.mbxInWrite
    · exact h.mbxOutWrite
    · exact h.permit (·.ilkForceWrite)
    · exact h.permit (·.ilkRelease)
    · exact h.permit (·.keepOld.writeFields)
    · exact Stays.iteSnd (h.permit (·.popLog)) h
    · exact h.permit (·.writeFields)
    · exact Stays.iteSnd h.injCtlWrite h
    · exact Stays.iteSnd (h.permit (·.clearRecord)) h
    · exact h.fkCfgWrite.pair
    · exact Stays.iteSnd (h.permit (fun h => h.withNFlt (·.ackKind))) h
    · exact h.permit (fun h => (Stays.ite h.mcCmdWrite h))
    · exact h.permit (·.writeFields)
    · exact h.permit (·.writeFields)
    · exact h.permit (·.writeFields)
    · exact (Stays.ite h.maxClear h).pair
    · exact h.capCfgWrite
    · exact h.permit (·.writeFields)
    · exact h.capRpWrite.pair
    · exact h.keepOld.keepOld.writeFields.pair
    · exact (Stays.ite h.auxCfgWrite h).pair
    · exact h.permit (·.pwrCtlWrite)
    · exact h.writeFields.pair

/-! ### What the functions of Access keep -/

theorem Stays.holdEntry {init c e natural : ℕ} (h : Stays s t) : Stays s (holdEntry init c e natural t) := h.checkWay.rest

theorem Stays.windowRead {init c e part : ℕ} {lower : Bool} {natural : ℕ} (h : Stays s t) : Stays s (windowRead init c e part lower natural t).2 :=
  (Stays.ite h.holdEntry h).pair

theorem Stays.msixWrite {i v : ℕ} (h : Stays s t) : Stays s (msixWrite i v t) := h.rest

theorem Stays.tNowRead {init : ℕ} {full lower : Bool} {v : BitVec 64} (h : Stays s t) : Stays s (tNowRead init full lower v t).2 := by
  unfold Machine.tNowRead
  refine Stays.iteSnd ?_ ?_
  · exact h
  · refine Stays.iteSnd ?_ ?_
    · exact h.rest.pair
    · split
      · exact h.rest.pair
      · exact h

theorem Stays.regRead {init : ℕ} {priv full lower : Bool} {d : RegDef} {i : ℕ} (h : Stays s t) : Stays s (regRead init priv full lower d i t).2 := by
  unfold Machine.regRead
  extract_lets
  split
  · split
    rename_i e1
    exact (h.tNowRead.snd e1).pair
  · refine Stays.iteSnd ?_ ?_
    · exact h
    · refine Stays.iteSnd ?_ ?_
      · exact h
      · split
        rename_i e1
        exact (h.lockAcquire.snd e1).pair
  · refine Stays.iteSnd ?_ ?_
    · exact h
    · refine Stays.iteSnd ?_ ?_
      · split
        · rename_i e1
          exact (h.schedClaim.snd e1).pair
        · rename_i e1
          exact (h.schedClaim.snd e1).pair
      · exact h
  · exact h.letStep.pair
  · exact h.rscStep.pair
  · exact Stays.iteSnd h h
  · exact Stays.iteSnd h h
  · exact Stays.iteSnd h h
  · exact (Stays.ite h.set h).pair
  · exact (Stays.ite h.set h).pair
  · exact h
  · exact h

theorem Stays.memCheck {a natural : ℕ} (h : Stays s t) : Stays s (memCheck a natural t).2 := by
  unfold Machine.memCheck
  refine Stays.iteSnd ?_ ?_
  · split
    rename_i e
    have h1 := (h.secded.snd2 e)
    exact Stays.iteSnd h1.report.pair (Stays.iteSnd h1.report.pair h1.pair)
  · split
    rename_i e
    exact (h.ctlCheck.snd e).pair

theorem Stays.accRead {init : ℕ} {priv full : Bool} {natural a : ℕ} (h : Stays s t) : Stays s (accRead init priv full natural a t).2 := by
  unfold Machine.accRead
  refine Stays.iteSnd ?_ ?_
  · exact h
  · split
    · exact h
    · split
      · exact h.failAccess.pair
      · split
        · rename_i e2
          exact (h.bankRead.snd e2).pair
        · rename_i e2
          exact (h.bankRead.snd e2).pair
    · refine Stays.iteSnd ?_ ?_
      · exact h
      · extract_lets
        split
        · split
          rename_i e2
          split <;> exact (h.regRead.snd e2).pair
        · exact h
        · exact h
        · exact h
        · exact h
        · exact h
        · split
          rename_i e2
          exact (h.windowRead.snd e2).pair
        · split
          rename_i e2
          have h20 := (h.memCheck.snd e2)
          exact Stays.iteSnd h20.pair h20.pair
        · split
          rename_i e2
          have h22 := (h.memCheck.snd e2)
          exact Stays.iteSnd h22.pair h22.pair
        · exact Stays.iteSnd h h
        · exact h
        · exact h
        · exact h
        · exact h

theorem Stays.slotWrite {full : Bool} {n a v : ℕ} (h : Stays s t) : Stays s (slotWrite full n a v t) := h.writeN

/-! ### PPS_MEAS is read-only wherever it stands (R236) -/

theorem measuredReadOnly_blkRegs (b : Blk) : ∀ d ∈ blkRegs b, MeasuredReadOnly d.fs := by
  unfold MeasuredReadOnly
  cases b <;> decide +kernel

/-- A register that stands at the place is one of its block. -/
def Place.Listed : Place → Prop
  | .reg b d _ => d ∈ blkRegs b
  | _ => True

theorem regAt_listed (b : Blk) (n o : ℕ) : (regAt b n o).Listed := by
  unfold regAt
  split
  · exact findReg_mem ‹_›
  · trivial

theorem regOr_listed {x y : Place} (hx : x.Listed) (hy : y.Listed) : (regOr x y).Listed := by
  unfold regOr
  split
  · exact hy
  · exact hx

theorem pfAt_listed (base first n o : ℕ) : (pfAt base first n o).Listed := by
  unfold pfAt
  split
  · trivial
  · dsimp only
    split
    · trivial
    · split
      · exact regAt_listed _ _ _
      · exact regAt_listed _ _ _
      · exact regAt_listed _ _ _
      · trivial

/-- The same of a place that may be none. -/
def PlaceListed (o : Option Place) : Prop := ∀ p, o = some p → p.Listed

theorem PlaceListed.none : PlaceListed none := by rintro p ⟨⟩

theorem PlaceListed.some {p : Place} (h : p.Listed) : PlaceListed (some p) := by
  rintro q ⟨⟩
  exact h

theorem PlaceListed.ite {c : Prop} [Decidable c] {x y : Option Place} (hx : PlaceListed x) (hy : PlaceListed y) :
    PlaceListed (if c then x else y) := by
  split <;> assumption

theorem placeListed_regAt (b : Blk) (n o : ℕ) : PlaceListed (some (regAt b n o)) := .some (regAt_listed b n o)

theorem placeListed_clusterPlace (c o : ℕ) : PlaceListed (clusterPlace c o) := by
  unfold clusterPlace
  refine .ite (.some trivial) (.ite (.some trivial) (.ite (.some trivial) (.ite (.some trivial) ?_)))
  refine .ite (placeListed_regAt _ _ _) (.ite (.some (regOr_listed (regAt_listed _ _ _) (regAt_listed _ _ _))) ?_)
  refine .ite (placeListed_regAt _ _ _) (.ite (placeListed_regAt _ _ _) (.ite (placeListed_regAt _ _ _) ?_))
  exact .ite (.ite (placeListed_regAt _ _ _) (.ite (placeListed_regAt _ _ _) (.some trivial))) .none

theorem placeListed_blockPlace (k o : ℕ) : PlaceListed (blockPlace k o) := by
  have two (b : Blk) (base first n : ℕ) : PlaceListed (some (regOr (regAt b 0 o) (pfAt base first n o))) :=
    .some (regOr_listed (regAt_listed _ _ _) (pfAt_listed _ _ _ _))
  have one {c : Prop} [Decidable c] {x y : Place} (hx : x.Listed) (hy : y.Listed) :
      PlaceListed (some (if c then x else y)) := .some (by split <;> assumption)
  have ifTwo {c c' : Prop} [Decidable c] [Decidable c'] {x y z : Place} (hx : x.Listed) (hy : y.Listed)
      (hz : z.Listed) : PlaceListed (some (if c then x else if c' then y else z)) := .some (by split_ifs <;> assumption)
  unfold blockPlace
  split
  case h_5 => exact two _ _ _ _
  case h_7 => exact two _ _ _ _
  case h_8 => exact one trivial (regAt_listed _ _ _)
  case h_9 => exact one trivial (regAt_listed _ _ _)
  case h_14 => exact ifTwo trivial trivial (regAt_listed _ _ _)
  case h_17 => exact one trivial trivial
  case h_18 => exact .some trivial
  case h_21 => exact .none
  all_goals exact placeListed_regAt _ _ _

/-- Every register of the device address map is listed in its block. -/
theorem placeOf_listed {a : ℕ} {p : Place} (h : placeOf a = some p) : p.Listed := by
  have hub (o : ℕ) : PlaceListed (hubPlace o) :=
    .ite (.some trivial) (.ite (.some trivial) (.ite (.some trivial) (.ite (placeListed_blockPlace _ _) .none)))
  have all : PlaceListed (placeOf a) := .ite (placeListed_clusterPlace _ _) (.ite (hub _) .none)
  exact all p h

theorem Stays.accWrite {init : ℕ} {priv full : Bool} {op natural a v : ℕ} (h : Stays s t) : Stays s (accWrite init priv full op natural a v t).2 := by
  unfold Machine.accWrite
  refine Stays.iteSnd h ?_
  split
  · exact h
  · split
    · exact h.failAccess.pair
    · exact h.bankWrite.pair
  · rename_i p _ hp
    have hplace := placeOf_listed hp
    refine Stays.iteSnd h ?_
    have mem {u : State} (h : Stays s u) : Stays s (if inSvWindow a && u.flag F.svCtl_LOCK 0 && !fromSv init then (false, u)
          else
            let (bad, s) := if full then (false, u) else Machine.memCheck (a / 8 * 8) natural u
            if bad then (false, s) else (true, Machine.endReservations a (Machine.slotWrite full 8 a v s))).2 := by
      refine Stays.iteSnd h ?_
      split
      rename_i e
      have h' := (Stays.iteSnd h h.memCheck).snd e
      exact Stays.iteSnd h'.pair h'.slotWrite.endReservations.pair
    split
    · have hfs := measuredReadOnly_blkRegs _ _ hplace
      exact h.regWrite
    · exact h
    · exact h
    · exact h
    · exact h
    · exact h
    · exact h.permit (·.slotWrite)
    · exact h.permit (·.slotWrite)
    · exact mem h
    · exact mem h
    · exact h.slotWrite.pair
    · exact h.slotWrite.pair
    · exact (Stays.ite h.msixWrite h).bind fun h => (Stays.ite h.msixWrite h).pair
    · exact h.permit (·.slotWrite)

theorem Stays.sendBeside {side : Side} {init trans op : ℕ} {full : Bool} {a data : W} (h : Stays s t) :
    Stays s (sendBeside side init trans op full a data t) :=
  Stays.ite h h.rest.startTimer.send

theorem Stays.sendReq {init trans op : ℕ} {full : Bool} {a : W} {data : BitVec 64} (h : Stays s t) : Stays s (sendReq init trans op full a data t) :=
  h.sendBeside

theorem Stays.takeRsp {init trans : ℕ} {r : HubRsp} (h : Stays s t) (e : takeRsp init trans t = some (r, u)) : Stays s u := by
  obtain ⟨q, -, e⟩ := Option.map_eq_some_iff.1 e
  exact h.rest.eqPair e

theorem Stays.leaveRsp {r : HubRsp} (h : Stays s t) : Stays s (leaveRsp r t) := h.rest

theorem Stays.hubRead {init trans : ℕ} {priv full : Bool} {natural : ℕ} {a : W} (h : Stays s t) :
    Stays s (hubRead init trans priv full natural a t) := by
  unfold Machine.hubRead
  refine Stays.ite ?_ ?_
  · split
    rename_i e
    split <;> exact (h.accRead.snd e).leaveRsp
  · exact h.sendReq

theorem Stays.hubWrite {init trans : ℕ} {priv full : Bool} {natural : ℕ} {a : W} {v : ℕ} (h : Stays s t) :
    Stays s (hubWrite init trans priv full natural a v t) := by
  unfold Machine.hubWrite
  refine Stays.ite ?_ ?_
  · split
    · rename_i e
      exact (h.accWrite.snd e).leaveRsp
    · rename_i e
      exact (h.accWrite.snd e).leaveRsp
  · exact h.sendReq

theorem Stays.hubNarrow {init trans op : ℕ} {a : W} (h : Stays s t) : Stays s (hubNarrow init trans op a t) := Stays.ite h.leaveRsp h.sendBeside

theorem Stays.takeSys {p : ℕ → Bool} {f : Flit} (h : Stays s t) (e : takeSys p t = some (f, u)) : Stays s u := by
  obtain ⟨q, -, e⟩ := Option.map_eq_some_iff.1 e
  exact h.rest.eqPair e

theorem Stays.respondWide {n ret : ℕ} {v : BitVec 64} {cls urg : ℕ} (h : Stays s t) : Stays s (respondWide n ret v cls urg t) := h.send

theorem Stays.sysAnswer {f : Flit} {r : Rd} (h : Stays s t) : Stays s (sysAnswer f r t) := by
  unfold Machine.sysAnswer
  extract_lets
  split
  · exact h.respondWide
  · exact h.respond

theorem Stays.sysRefuse {f : Flit} (h : Stays s t) : Stays s (sysRefuse f t) := h.reqErr.sysAnswer

theorem Stays.writeSlots {init natural a : ℕ} {vs : List ℕ} (h : Stays s t) : Stays s (writeSlots init natural a vs t).2 := by
  induction vs generalizing t a with
  | nil => exact h
  | cons v vs ih =>
    unfold Machine.writeSlots
    exact ih h.accWrite

theorem Stays.sysRead {src : Option HubAcc} {natural : ℕ} (h : Stays s t) : Stays s (sysRead src natural t) := by
  unfold Machine.sysRead
  split
  · exact h.hubRead
  · split
    · exact h
    · rename_i e1
      have h4 := (h.takeSys e1)
      refine Stays.ite ?_ ?_
      · exact h4.sysRefuse
      · refine Stays.ite ?_ ?_
        · exact h4.sysAnswer
        · split
          rename_i e2
          exact (h4.accRead.snd e2).sysAnswer

theorem Stays.sysWrite {src : Option HubAcc} {v : BitVec 64} {natural : ℕ} (h : Stays s t) : Stays s (sysWrite src v natural t) := by
  unfold Machine.sysWrite
  split
  · exact h.hubWrite
  · split
    · exact h
    · rename_i e1
      have h4 := (h.takeSys e1)
      refine Stays.ite ?_ ?_
      · exact h4.sysRefuse
      · refine Stays.ite ?_ ?_
        · exact h4.sysAnswer
        · split
          · rename_i e2
            exact (h4.accWrite.snd e2).sysAnswer
          · rename_i e2
            exact (h4.accWrite.snd e2).sysAnswer

theorem Stays.bulkWrite {natural : ℕ} (h : Stays s t) : Stays s (bulkWrite natural t) := by
  unfold Machine.bulkWrite
  split
  · exact h
  · rename_i e
    have h2 := (h.takeSys e)
    refine Stays.ite ?_ ?_
    · exact h2.sysRefuse
    · split
      · rename_i e1
        exact (h2.writeSlots.snd e1).sysAnswer
      · rename_i e1
        exact (h2.writeSlots.snd e1).sysAnswer

/-! ### What the functions of Image keep -/

theorem Stays.flashErase {a n : ℕ} (h : Stays s t) : Stays s (flashErase a n t) := h.rest

theorem Stays.flashWrite {a : ℕ} {l : List ℕ} (h : Stays s t) : Stays s (flashWrite a l t) := by
  induction l generalizing a t with
  | nil => exact h
  | cons b l ih => exact ih h.rest

theorem Stays.putBootRec {r : BootRec} (h : Stays s t) : Stays s (putBootRec r t) := h.flashErase.flashWrite

theorem Stays.applyConfig {l : List (ℕ × Bool × ℕ)} (h : Stays s t) : Stays s (applyConfig l t).2 := by
  induction l generalizing t with
  | nil => exact h
  | cons x l ih =>
    unfold Machine.applyConfig
    split
    · rename_i e
      exact ih (h.accWrite.snd e)
    · rename_i e
      exact h.accWrite.snd e

theorem Stays.loadLet {e : ℕ} {b : List ℕ} (h : Stays s t) : Stays s (loadLet e b t) := h.foldl (·.rest)

theorem Stays.loadRsCoef {b : List ℕ} (h : Stays s t) : Stays s (loadRsCoef b t) := h.foldl (·.rest)

/-! ### What the functions of Boot keep -/

theorem Stays.unlessFailed {f : State → State} (h : Stays s t) (hf : ∀ {u : State}, Stays s u → Stays s (f u)) : Stays s (unlessFailed f t) :=
  Stays.ite h (hf h)

theorem Stays.startStep {n : ℕ} (h : Stays s t) : Stays s (startStep n t) := h.set.rest.mcEvent

theorem Stays.withSection {x : Section} {f : List ℕ → State → State} (h : Stays s t)
    (hf : ∀ {y : List ℕ} {u : State}, Stays s u → Stays s (f y u)) : Stays s (withSection x f t) :=
  Stays.ite (hf h) h.bootFail

theorem Stays.loadSections {t' : ℕ} {f : Section → List ℕ → State → State} (h : Stays s t)
    (hf : ∀ {y : Section} {z : List ℕ} {u : State}, Stays s u → Stays s (f y z u)) : Stays s (loadSections t' f t) :=
  h.foldl (fun h => h.unlessFailed (fun h => h.withSection (fun h => (hf h))))

theorem Stays.configStep {n : ℕ} (h : Stays s t) : Stays s (configStep n t) := by
  refine h.foldl fun h => h.unlessFailed fun h => h.withSection fun h => ?_
  split
  · rename_i e
    exact h.applyConfig.snd e
  · rename_i e
    exact (h.applyConfig.snd e).bootFail

theorem Stays.loadCtl {n a : ℕ} {b : List ℕ} (h : Stays s t) : Stays s (loadCtl n a b t) := by
  induction n generalizing a b t with
  | zero => exact h
  | succ n ih => exact ih h.ctlWrite

theorem Stays.loadFw {x : Section} {b : List ℕ} (h : Stays s t) : Stays s (loadFw x b t) := h.loadCtl

theorem Stays.logDiscovery (h : Stays s t) : Stays s (logDiscovery t) := by
  unfold Machine.logDiscovery
  split
  · exact h.set.rest
  · exact h

theorem Stays.carry {src : State} {l : List (Fld × ℕ)} (h : Stays s t) (hl : ∀ x ∈ l, Unmeasured x.1 := by decide) : Stays s (carry src l t) :=
  h.foldlMem fun hx h => h.foldl fun h => h.set (hl _ hx)

/-- Every core as reset leaves it, its moment of reset noted (R313). -/
theorem each_resetAt {n : ℕ} : ∀ c ∈ State.reset.cc.cores.map fun (c : Core) => { c with resetAt := n }, c.Sized := fun c hc => by
  obtain ⟨c', hc', rfl⟩ := List.mem_map.1 hc
  exact sized_reset.each c' hc'

/-- Registers that are copied change no size. -/
theorem Sized.carry {src : State} {l : List (Fld × ℕ)} (h : Sized t) : Sized (carry src l t) := by
  refine List.foldlRecOn (motive := Sized) l _ h fun u hu x _ => ?_
  exact List.foldlRecOn (motive := Sized) _ _ hu fun _ hv _ _ => hv.congr rfl rfl rfl

/-- The sizes are those of reset; of the encoders alone the levels are carried over. -/
theorem Sized.coldBase (h : Sized t) : Sized (coldBase t) := Sized.carry ⟨rfl, each_resetAt, rfl, h.four⟩

theorem Stays.checkVbat {ok : Bool} (h : Stays s t) : Stays s (checkVbat ok t) :=
  Stays.ite h.rest.set.setLedger.ledgerCrc.mcEvent (Stays.ite h.ledgerCrc.mcEvent h)

theorem Stays.steps12 {b : BootIn} (h : Stays s t) : Stays s (steps12 b t) :=
  (Stays.ite h.set.set.logDiscovery h.set.set).startStep.set.set.linkEvent.checkVbat.ledgerInc.startStep.bind fun h7 => (Stays.ite h7 h7.bootFail)

theorem Stays.chooseSlot (h : Stays s t) : Stays s (chooseSlot t).2 := by
  unfold Machine.chooseSlot
  exact Stays.iteSnd h.putBootRec.pair (Stays.iteSnd h.putBootRec.mcEvent.pair h)

theorem Stays.bootSlot {slot : ℕ} (h : Stays s t) : Stays s (bootSlot slot t) := h.set.set.rest.mcEvent

theorem Stays.steps34 {b : BootIn} (h : Stays s t) : Stays s (steps34 b t) := by
  unfold Machine.steps34
  refine Stays.ite ?_ ?_
  · exact h.startStep.startCollector.set.bootFail
  · extract_lets
    split
    rename_i e
    exact (h.startStep.startCollector.rest.chooseSlot.snd e).startStep.bind fun h11 => (Stays.ite h11.bootSlot (h11.mcEvent.bind fun h10 =>
      (Stays.ite h10.bootSlot h10.set.bootFail)))

theorem Stays.step5 {b : BootIn} (h : Stays s t) : Stays s (step5 b t) := by
  unfold Machine.step5
  exact h.startStep.configStep.unlessFailed (fun h => ((h.foldl (·.set)).foldl (fun h => (Stays.ite h (Stays.ite h h.reportU).rest))).applyVf)

theorem Stays.bistBank {b : ℕ} {o : ℕ × ℕ} (h : Stays s t) : Stays s (bistBank b o t) :=
  (Stays.ite h.set.set h.set.set.mcEvent).bind fun h3 => (Stays.ite h3.set.set.set h3)

theorem Stays.ledgerBist {i soft off : ℕ} (h : Stays s t) : Stays s (ledgerBist i soft off t) := h.setLedger

theorem Stays.step6 {b : BootIn} (h : Stays s t) : Stays s (step6 b t) := by
  unfold Machine.step6
  exact h.startStep.configStep.unlessFailed (fun h => (Stays.ite h.bootFail ((((h.foldl (·.set)).foldl (·.bistBank)).foldl
    (·.ledgerBist)).ledgerBist.ledgerCrc.bind fun h10 => (Stays.ite h10 h10.bootFail))))

theorem Stays.startPes {c : ℕ} (h : Stays s t) : Stays s (startPes c t) := h.foldl (·.set)

theorem Stays.step7 (h : Stays s t) : Stays s (step7 t) :=
  ((h.startStep.foldl (fun h => h.unlessFailed (fun h => h.withSection (·.rest)))).loadSections (fun h => (Stays.ite h.bootFail (h.rest.foldl
    (·.writeGolden.set.startPes))))).unlessFailed (·.configStep)

theorem Stays.addrsOpen (h : Stays s t) : Stays s (addrsOpen t) := by
  unfold Machine.addrsOpen
  extract_lets t₁
  have h₁ : Stays s t₁ := by
    unfold t₁
    split
    · exact h
    · exact h.setFree.set.setFree
  exact h₁.setFree.setFree

theorem Stays.bringUp {b : BootIn} (h : Stays s t) : Stays s (bringUp b t) := Stays.ite h.cmpTest.svRunWrite h.cmpTest.bootFail

theorem Stays.step8 {b : BootIn} (h : Stays s t) : Stays s (step8 b t) :=
  ((((h.startStep.loadSections (·.loadLet)).loadSections (·.loadRsCoef)).addrsOpen.loadSections (·.loadFw)).unlessFailed
    (·.configStep)).unlessFailed (·.bringUp)

theorem Stays.step9 (h : Stays s t) : Stays s (step9 t) :=
  h.startStep.configStep.bind fun h5 => ((Stays.ite h5.linkTo h5).bind fun h4 => (Stays.ite h4.linkTo h4).rest)

theorem Stays.step10 (h : Stays s t) : Stays s (step10 t) := (h.startStep.loadSections (·.loadFw)).unlessFailed (·.configStep)

theorem Stays.bootTick (h : Stays s t) : Stays s (bootTick t) := Stays.ite h (Stays.ite h.step10 (Stays.ite h.bootFail h))

theorem Stays.stepsOn {b : BootIn} (h : Stays s t) : Stays s (stepsOn b t) := by
  refine ((h.step6.unlessFailed (·.step7)).unlessFailed (·.step8)).unlessFailed fun h => ?_
  split
  · exact h.step10
  · exact h.step9

theorem Stays.awaitVf (h : Stays s t) : Stays s (awaitVf t) := by
  unfold Machine.awaitVf
  split
  · exact Stays.ite h.rest.stepsOn h
  · exact h

theorem Stays.step5Wait {b : BootIn} (h : Stays s t) : Stays s (step5Wait b t) := h.step5.unlessFailed (·.rest.awaitVf)

theorem Sized.coldReset {b : BootIn} (h : Sized t) : Sized (coldReset b t) := by
  unfold Machine.coldReset
  split
  · exact h
  · exact h.coldBase.along (((Stays.refl _).steps12.unlessFailed (·.steps34)).unlessFailed (·.step5Wait))

theorem Stays.bootTimeout (h : Stays s t) : Stays s (bootTimeout t) := by
  unfold Machine.bootTimeout
  split
  · exact h
  · exact Stays.ite h.bootFail h

theorem Sized.powerReset (h : Sized t) : Sized (powerReset t) := h.coldBase.congr rfl rfl rfl

/-- The rails at a tick that asserts no power-on reset. -/
theorem Stays.railTick {rails : RailIn} (h : Stays s t) (hpor : porAsserted rails t = false) : Stays s (railTick rails t) := by
  have hread : Steady t (Machine.applyVf (rails.foldl (fun s x => Machine.railReading x.1.val x.2.toNat s) t)) := ((Steady.refl t).foldl (·.railReading)).applyVf
  unfold Machine.railTick
  extract_lets t₁
  change Steady t t₁ at hread
  have h₁ : Stays s t₁ := (h.foldl (·.railReading)).applyVf
  rw [← hread.porAsserted_eq] at hpor
  clear_value t₁
  split
  · exact h₁.rest
  · rw [hpor, if_neg Bool.false_ne_true]
    exact Stays.ite h₁ h₁.awaitVf

theorem Sized.railTick {rails : RailIn} (h : Sized t) : Sized (railTick rails t) := by
  unfold Machine.railTick
  extract_lets t₁
  have h₁ : Sized t₁ := h.along ((Stays.refl t).foldl (·.railReading)).applyVf
  clear_value t₁
  split
  · exact h₁.congr rfl rfl rfl
  · split
    · exact h₁.powerReset
    · exact h₁.along (Stays.ite (.refl t₁) (Stays.refl t₁).awaitVf)

theorem Stays.snapWrite {off : ℕ} {w : ℕ × ℕ} (h : Stays s t) : Stays s (snapWrite off w t) := Stays.ite h h.ctlWrite

theorem Stays.snapshot (h : Stays s t) : Stays s (snapshot t) := by
  unfold Machine.snapshot
  split
  · exact h
  · exact h.dropStaged.clearStaged.bind fun h8 => (Stays.ite h8.set (h8.inc.foldl (·.snapWrite)).set)

theorem Sized.warmBase (h : Sized t) : Sized (warmBase t) := by
  unfold Machine.warmBase
  extract_lets _ _ _ _ _ _ _ _ _ _ r₂ r₃ r₄ r₅ r₆
  have h₂ : Sized r₂ := ⟨rfl, each_resetAt, rfl, h.four⟩
  have h₃ : Sized r₃ := h₂.carry
  have h₄ : Stays r₃ r₄ := (Stays.refl r₃).set.set
  have h₅ : Stays r₃ r₅ := Stays.ite h₄.set h₄
  have h₆ : Stays r₃ r₆ := Stays.ite h₅.set h₅
  exact h₃.along h₆.set

theorem Sized.warmReset {b : BootIn} (h : Sized t) : Sized (warmReset b t) := by
  unfold Machine.warmReset
  split
  · exact h
  · split
    · exact h
    · exact h.warmBase.along (Stays.refl _).step5Wait

theorem Stays.rewriteStore {c : ℕ} (h : Stays s t) : Stays s (rewriteStore c t) := by
  unfold Machine.rewriteStore
  refine Stays.ite ?_ ?_
  · exact h.writeGolden
  · split
    · exact h.writeGolden.writeGolden
    · exact h.writeGolden

theorem Stays.reloadOver {c : ℕ} (h : Stays s t) : Stays s (reloadOver c t) := h.rest.set

theorem Stays.restartPes {c : ℕ} (h : Stays s t) : Stays s (restartPes c t) := h.startPes.reloadOver

theorem Stays.wrongWord {c : ℕ} (h : Stays s t) : Stays s (wrongWord c t) := by
  unfold Machine.wrongWord
  split
  rename_i e
  split
  rename_i e1
  exact ((h.freeVal.snd e).freeVal.snd e1).writeN

theorem Stays.controlStoreReload {c : ℕ} {good : Bool} {ram : ℕ} (h : Stays s t) : Stays s (controlStoreReload c good ram t) := by
  unfold Machine.controlStoreReload
  refine Stays.ite ?_ ?_
  · exact h
  · split
    rename_i e
    have h1 := (h.goldenRead.snd e)
    exact (Stays.ite h1.rewriteStore h1).inc.bind fun h8 => (Stays.ite ((Stays.ite h8.reloadOver h8.restartPes).bind fun h4 =>
      (Stays.ite h4.rest h4)) ((Stays.ite h8.wrongWord h8).reloadOver.foldl (·.set)).reportU)

/-! ### What the functions of K48 keep -/

theorem Stays.setIdle {k : ℕ} {v : Bool} (h : Stays s t) : Stays s (setIdle k v t) := Stays.ite (h.setCore (by exact h.core)).set (h.setCore (by exact h.core))

theorem Stays.setLastPc {k : ℕ} {pc : W} (h : Stays s t) : Stays s (setLastPc k pc t) := Stays.ite h.set h.set

theorem Stays.retired {k : ℕ} {old : W} {c : Core} (h : Stays s t) (hc : Sized s → c.Sized) : Stays s (retired k old c t) :=
  Stays.setLastPc (Stays.setIdle (h.setCore (by exact hc)))

theorem Stays.retire {k : ℕ} {c : Core} (h : Stays s t) (hc : Sized s → c.Sized) : Stays s (retire k c t) := (h.retired hc).boundary

theorem Stays.retireWith {k rd : ℕ} {r : AR} (h : Stays s t) : Stays s (retireWith k rd r t) :=
  (h.retired (by exact fun hs => (h.core hs).set)).bind fun h1 => Stays.ite h1.takeTrap h1.boundary

theorem Stays.faulting {k code : ℕ} {eaddr : W} {arg : ℕ} (h : Stays s t) : Stays s (faulting k code eaddr arg t) := h.takeTrap

theorem Stays.settlePosted {k : ℕ} (h : Stays s t) : Stays s (settlePosted k t) := h.rest.setCore (by exact h.core)

theorem Stays.regMchk {k n : ℕ} (h : Stays s t) : Stays s (regMchk k n t) := h.reportU.faulting

theorem Stays.runInstr {k : ℕ} {r : KRow} {w : ℕ} {e : CoreErr} {body : ℕ → State → State} (h : Stays s t)
    (hbody : ∀ {y : ℕ} {u : State}, Stays s u → Stays s (body y u)) :
    Stays s (runInstr k r w e body t) := by
  unfold Machine.runInstr
  extract_lets
  split
  · exact h.faulting
  · split
    · exact h.faulting
    · split
      · exact h.regMchk
      · exact hbody h

theorem Stays.coreInstr {r : KRow} {k : ℕ} {e : CoreErr} {body : ℕ → State → State} (h : Stays s t)
    (hbody : ∀ {y : ℕ} {u : State}, Stays s u → Stays s (body y u)) :
    Stays s (coreInstr r k e body t) := by
  unfold Machine.coreInstr
  refine Stays.ite ?_ ?_
  · exact h
  · refine Stays.ite ?_ ?_
    · exact h.faulting
    · refine Stays.ite ?_ ?_
      · exact h.faulting
      · extract_lets
        split
        rename_i e
        have h1 := (h.ctlCheck.snd e)
        refine Stays.ite ?_ ?_
        · exact h1.faulting
        · split
          · exact h1.faulting
          · exact Stays.ite (h1.runInstr (fun h => (hbody h))) h

/-! ### What the functions of Cores keep -/

theorem Stays.kComputeBody {k w : ℕ} (h : Stays s t) : Stays s (kComputeBody k w t) := h.retireWith

theorem Stays.kImmediateBody {k w : ℕ} (h : Stays s t) : Stays s (kImmediateBody k w t) := h.retireWith

theorem Stays.kLdkBody {k w : ℕ} (h : Stays s t) : Stays s (kLdkBody k w t) := h.retireWith

theorem Stays.kInkBody {k w : ℕ} (h : Stays s t) : Stays s (kInkBody k w t) := h.retireWith

theorem Stays.kXrkBody {k w : ℕ} (h : Stays s t) : Stays s (kXrkBody k w t) := h.retireWith

theorem Stays.kFmaBody {k w : ℕ} (h : Stays s t) : Stays s (kFmaBody k w t) := h.retireWith

theorem Stays.finishLoad {k : ℕ} (h : Stays s t) : Stays s (finishLoad k t) := by
  unfold Machine.finishLoad
  split
  · exact h
  · split
    · exact h
    · rename_i e1
      have h4 := (h.takeRsp e1)
      refine Stays.ite ?_ ?_
      · exact h4.faulting
      · split
        · exact h4.regMchk
        · exact h4.retire (by exact fun hs => (h4.core hs).set)

theorem Stays.loadAccess {k t' n natural : ℕ} {a : W} (h : Stays s t) : Stays s (loadAccess k t' n natural a t) := Stays.ite h.hubNarrow h.hubRead

theorem Stays.unreadFor {k n : ℕ} {a : W} {before after : State} (h : Stays s before) (h' : Stays s after) : Stays s (unreadFor k n a before after) :=
  Stays.ite h.leaveRsp h'

theorem Stays.kLoadBody {k w : ℕ} {e : CoreErr} (h : Stays s t) : Stays s (kLoadBody k e w t) := by
  unfold Machine.kLoadBody
  extract_lets c x a
  have hc : Sized s → c.Sized := h.core
  clear_value c x a
  refine Stays.ite ?_ ?_
  · split
    · exact h.regMchk
    · split
      rename_i e
      have h' := h.ctlCheck.snd e
      exact Stays.ite h'.faulting (h'.retire (by exact fun hs => (hc hs).set))
  · split
    · exact h
    · refine Stays.finishLoad ?_
      exact (h.setCore (by exact hc)).unreadFor (Stays.loadAccess (h.setCore (by exact hc)))

theorem Stays.postError {k trans : ℕ} {a : W} (h : Stays s t) : Stays s (postError k trans a t) := (h.setCore (by exact h.core)).leaveRsp

theorem Stays.kStoreBody {k : ℕ} {e : CoreErr} {w : ℕ} (h : Stays s t) : Stays s (kStoreBody k e w t) := by
  unfold Machine.kStoreBody
  extract_lets
  split
  · exact h.settlePosted
  · have h9 := h.settlePosted (k := k)
    have h10 := h9.retire (k := k) (c := (Machine.settlePosted k t).core k |>.next) h9.core
    refine Stays.ite ?_ ?_
    · refine Stays.ite ?_ ?_
      · exact h10.postError
      · split
        rename_i e1
        have h11 := h10.ctlCheck.snd e1
        exact Stays.ite h11.postError h11.ctlWrite
    · exact (h10.setCore (by exact h10.core)).bind fun h13 => (Stays.ite h13.hubNarrow h13.hubWrite).settlePosted

theorem Stays.postedStoreError {k : ℕ} (h : Stays s t) : Stays s (postedStoreError k t) := by
  unfold Machine.postedStoreError
  refine Stays.ite ?_ ?_
  · exact h
  · split
    · exact h
    · exact (h.rest.setCore (by exact h.core)).takeTrap

theorem Stays.kLrBody {k : ℕ} {e : CoreErr} {w : ℕ} (h : Stays s t) : Stays s (kLrBody k e w t) := by
  unfold Machine.kLrBody
  extract_lets
  split
  rename_i e
  have h1 := (h.ctlCheck.snd e)
  exact Stays.ite h1.faulting (h1.retire (by exact fun hs => (h.core hs).set))

theorem Stays.kScBody {k : ℕ} {e : CoreErr} {w : ℕ} (h : Stays s t) : Stays s (kScBody k e w t) := by
  unfold Machine.kScBody
  refine Stays.ite ?_ ?_
  · refine Stays.ite ?_ ?_
    · exact h.faulting
    · split
      rename_i e
      have h1 := (h.ctlCheck.snd e)
      refine Stays.ite ?_ ?_
      · exact h1.faulting
      · split
        · exact h1.regMchk
        · exact h1.ctlWrite.retire (by exact fun hs => (h.core hs).set)
  · split
    · exact h.regMchk
    · exact h.retire (by exact fun hs => (h.core hs).set)

theorem Stays.kTasBody {k w : ℕ} {e : CoreErr} (h : Stays s t) : Stays s (kTasBody k e w t) := by
  unfold Machine.kTasBody
  extract_lets
  split
  rename_i e
  have h1 := (h.ctlCheck.snd e)
  exact Stays.ite h1.faulting (h1.ctlWrite.retire (by exact fun hs => Core.Sized.next (h1.ctlWrite.core hs).set))

theorem Stays.squashIf {bad : Bool} {k : ℕ} (h : Stays s t) : Stays s (squashIf bad k t) := Stays.ite h.squashGcol h

theorem Stays.kBranchBody {k w : ℕ} (h : Stays s t) : Stays s (kBranchBody k w t) :=
  h.squashIf.retire (by exact fun hs => by split <;> exact h.core hs)

theorem Stays.kJBody {k w : ℕ} (h : Stays s t) : Stays s (kJBody k w t) := h.retire (by exact h.core)

theorem Stays.kCallBody {k w : ℕ} (h : Stays s t) : Stays s (kCallBody k w t) := h.retire (by exact fun hs => (h.core hs).push)

theorem Stays.kJrBody {k w : ℕ} (h : Stays s t) : Stays s (kJrBody k w t) := h.squashIf.retire (by exact h.core)

theorem Stays.kCallrBody {k w : ℕ} (h : Stays s t) : Stays s (kCallrBody k w t) := h.squashIf.retire (by exact fun hs => (h.core hs).push)

theorem Stays.kRetBody {k x : ℕ} (h : Stays s t) : Stays s (kRetBody k x t) := h.retire (by exact h.core)

theorem Stays.kRspushBody {k w : ℕ} (h : Stays s t) : Stays s (kRspushBody k w t) := h.retire (by exact fun hs => (h.core hs).push)

theorem Stays.kRspopBody {k w : ℕ} (h : Stays s t) : Stays s (kRspopBody k w t) :=
  h.retire (by exact fun hs => Core.Sized.next (Core.Sized.set (h.core hs).pop))

theorem Stays.kFenceBody {k x : ℕ} (h : Stays s t) : Stays s (kFenceBody k x t) :=
  h.settlePosted.bind fun h2 => (Stays.ite (h2.retire (by exact h2.core)) h2)

theorem Stays.sysReg {k n : ℕ} (h : Stays s t) : Stays s (sysReg k n t).2 := by
  unfold Machine.sysReg
  extract_lets
  split
  · exact h
  · exact h
  · exact h
  · exact h
  · exact h
  · exact h
  · exact h
  · exact h.cycleOf
  · exact h
  · exact h
  · exact h

theorem Stays.kSrrBody {k w : ℕ} (h : Stays s t) : Stays s (kSrrBody k w t) := by
  unfold Machine.kSrrBody
  split
  rename_i e
  exact (h.sysReg.snd e).bind fun h1 => h1.retire (by exact fun hs => (h1.core hs).set)

theorem Stays.kSrwBody {k w : ℕ} (h : Stays s t) : Stays s (kSrwBody k w t) := h.squashGcol.retire (by exact fun hs => (h.core hs).writeSys)

theorem Stays.kTrapiBody {k w : ℕ} (h : Stays s t) : Stays s (kTrapiBody k w t) := (h.retired (by exact h.core)).takeTrap

theorem Stays.kTretBody {k x : ℕ} (h : Stays s t) : Stays s (kTretBody k x t) := h.squashGcol.retire (by exact h.core)

theorem Stays.kHaltBody {k x : ℕ} (h : Stays s t) : Stays s (kHaltBody k x t) :=
  (h.retired (by exact h.core)).bind fun h1 => (Stays.ite h1.set h1.set).boundary

theorem Stays.kWaitBody {k x : ℕ} (h : Stays s t) : Stays s (kWaitBody k x t) := Stays.ite (h.retire (by exact h.core)) h.setIdle

theorem Stays.interrupt {k : ℕ} (h : Stays s t) : Stays s (interrupt k t) := by
  unfold Machine.interrupt
  refine Stays.ite ?_ ?_
  · exact h
  · split
    · exact h
    · exact (Stays.ite (h.retired (by exact h.core)) h).takeTrap

theorem Stays.gportTrap {k reason : ℕ} (h : Stays s t) : Stays s (gportTrap k reason t) := (Stays.ite h.set h).faulting

theorem Stays.ginjRetire {k w : ℕ} (h : Stays s t) : Stays s (ginjRetire k w t) := h.setInj.set.retire (by exact h.core)

theorem Stays.kGinjBody {k w : ℕ} (h : Stays s t) : Stays s (kGinjBody k w t) := by
  unfold Machine.kGinjBody
  refine Stays.ite ?_ ?_
  · exact h.gportTrap
  · split
    · exact Stays.ite h.ginjRetire (h.setCore (by exact h.core))
    · exact h.gportTrap

theorem Stays.ginjAgain {k : ℕ} (h : Stays s t) : Stays s (ginjAgain k t) := by
  unfold Machine.ginjAgain
  split
  · exact Stays.ite h.ginjRetire h
  · exact h

theorem Stays.ginjTimeout {k : ℕ} (h : Stays s t) : Stays s (ginjTimeout k t) := by
  unfold Machine.ginjTimeout
  split
  · exact h
  · exact Stays.ite h h.gportTrap

theorem Stays.gcolExecute {k m : ℕ} (h : Stays s t) : Stays s (gcolExecute k m t) := Stays.ite h h.setMbx.rest

theorem Stays.gcolTake {k i : ℕ} (h : Stays s t) : Stays s (gcolTake k i t).2 := by
  unfold Machine.gcolTake
  split
  · exact Stays.iteSnd h.rest.pair h.squashGcol.setMbx.pair
  · exact h.setMbx.pair

theorem Stays.kGcolBody {k : ℕ} {e : CoreErr} {w : ℕ} (h : Stays s t) : Stays s (kGcolBody k e w t) := by
  unfold Machine.kGcolBody
  refine Stays.ite ?_ ?_
  · exact h.gportTrap
  · refine Stays.ite ?_ ?_
    · exact h.gportTrap
    · split
      · rename_i e
        exact (h.gcolTake.snd e).retire (by exact fun hs => (h.core hs).set.set.set)
      · rename_i e
        split
        rename_i e1
        have h3 := ((h.gcolTake.snd e).secded.snd2 e1)
        exact Stays.ite h3.set.report.gportTrap (h3.retire (by exact fun hs => (h.core hs).set.set.set))

/-! ### What the functions of RegCmds keep -/

theorem Stays.regMasked {who : From} {b : Blk} {r : Reg} {i m v : ℕ} (h : Stays s t) : Stays s (regMasked who b r i m v t) := by
  unfold Machine.regMasked
  refine Stays.ite h ?_
  split
  · exact h
  · rename_i e
    have hfs := measuredReadOnly_blkRegs b _ (List.mem_of_find?_eq_some e)
    exact h.regWrite

theorem Stays.regCmd {who : From} {b : Blk} {r : Reg} {i v : ℕ} (h : Stays s t) : Stays s (regCmd who b r i v t) := h.regMasked

theorem Stays.fieldCmd {who : From} {b : Blk} {r : Reg} {f : Fld} {i x5 : ℕ} (h : Stays s t) : Stays s (fieldCmd who b r f i x5 t) := h.regMasked

theorem Stays.readCmd {who : From} {trans : ℕ} {b : Blk} {r : Reg} {i : ℕ} (h : Stays s t) : Stays s (readCmd who trans b r i t) := by
  unfold Machine.readCmd
  refine Stays.ite ?_ ?_
  · exact h
  · split
    · exact h
    · split
      · rename_i e1
        exact (h.regRead.snd e1).leaveRsp
      · rename_i e1
        exact (h.regRead.snd e1).leaveRsp

/-! ### What the functions of Host keep -/

theorem Stays.complete {c : HostCpl} (h : Stays s t) : Stays s (complete c t) := h.rest

theorem Stays.hostFail {write bar2 : Bool} {reason : ℕ} {addr : Option ℕ} (h : Stays s t) : Stays s (hostFail write bar2 reason addr t) :=
  (Stays.ite h.inc h.inc.setOr.set.set.set.set).raiseEvent

theorem Stays.badTlp (h : Stays s t) : Stays s (badTlp t) := Stays.ite h h.reportU

theorem Stays.bar0Fail {r : HostReq} {reason : ℕ} (h : Stays s t) : Stays s (bar0Fail r reason t) := Stays.ite h.hostFail h.hostFail.complete

theorem Stays.bar0Done {r : HostReq} {v : ℕ} (h : Stays s t) : Stays s (bar0Done r v t) := Stays.ite h h.complete

theorem Stays.settleHost {n : ℕ} (h : Stays s t) : Stays s (settleHost n t) := by
  induction n generalizing t with
  | zero => exact h
  | succ n ih =>
    unfold Machine.settleHost
    split
    · exact h
    · extract_lets n
      split
      · exact h
      · rename_i e
        have h' := h.rest.takeRsp e
        exact ih (Stays.ite h' h'.bar0Fail)

theorem Stays.serveQueue {natural n : ℕ} (h : Stays s t) : Stays s (serveQueue natural n t) := by
  induction n generalizing t with
  | zero => exact h
  | succ n ih =>
    unfold Machine.serveQueue
    split
    · exact h
    · extract_lets popped
      have hpopped {u : State} (h : Stays s u) : Stays s (popped u) := h.rest
      clear_value popped
      split
      · refine Stays.ite (ih (hpopped h).bar0Fail) ?_
        split
        · exact h
        · rename_i e
          have h' := h.takeRsp e
          exact ih (Stays.ite (hpopped h').bar0Done (hpopped h').bar0Fail)
      · split
        · exact ih (hpopped h).bar0Fail
        · refine Stays.ite (Stays.ite ?_ ?_) ?_
          · split
            · rename_i e
              exact ih ((hpopped h).accWrite.snd e)
            · rename_i e
              exact ih ((hpopped h).accWrite.snd e).bar0Fail
          · split
            · rename_i e
              exact ih ((hpopped h).accRead.snd e).bar0Done
            · rename_i e
              exact ih ((hpopped h).accRead.snd e).bar0Fail
          · split
            · exact h
            · exact Stays.ite (ih (hpopped h).sendReq.rest) (hpopped h).sendReq.rest

theorem Stays.serveHost {natural : ℕ} (h : Stays s t) : Stays s (serveHost natural t) := h.settleHost.serveQueue

theorem Stays.bar0 {r : HostReq} {natural : ℕ} (h : Stays s t) : Stays s (bar0 r natural t) := Stays.ite (Stays.ite h h.complete) h.rest.serveHost

theorem Stays.bar2Read {off len : ℕ} {bad : Option ℕ} (h : Stays s t) : Stays s (bar2Read off len bad t) := by
  unfold Machine.bar2Read
  refine Stays.ite ?_ ?_
  · exact h.complete
  · extract_lets
    split
    · exact h.rest.hostFail
    · exact h.rest

theorem Stays.bar2Write {off : ℕ} (h : Stays s t) : Stays s (bar2Write off t) := Stays.ite h h.rest.hostFail

theorem Stays.capRead {c : CfgCap} (h : Stays s t) : Stays s (capRead c t).2 := by
  unfold Machine.capRead
  split
  rename_i e
  exact (h.freeVal.snd e).pair

theorem Stays.cfgRead {dw : ℕ} (h : Stays s t) : Stays s (cfgRead dw t).2 := by
  unfold Machine.cfgRead
  extract_lets
  split
  · exact h
  · exact h
  · split
    rename_i e1
    exact (h.freeVal.snd e1).pair
  · exact h
  · exact h
  · exact h
  · exact h
  · exact h
  · split
    rename_i e1
    exact (h.freeVal.snd e1).pair
  · exact h
  · exact h
  · exact h
  · exact h
  · split
    rename_i e1
    exact (h.freeVal.snd e1).pair

theorem Stays.configRequest {q : CfgReq} (h : Stays s t) : Stays s (configRequest q t) := by
  unfold Machine.configRequest
  extract_lets cpl
  have hcpl {n : ℕ} {d : List ℕ} {u : State} (h : Stays s u) : Stays s (cpl n d u) := h.complete
  clear_value cpl
  refine Stays.ite h.badTlp (Stays.ite (hcpl h) ?_)
  split
  · split
    rename_i e
    exact hcpl (h.cfgRead.snd e)
  · exact hcpl (Stays.ite h.rest.set h.rest)
  · split
    rename_i e
    exact hcpl (h.capRead.snd e)
  · exact h
  · exact hcpl h.badTlp
  · exact hcpl h.set.set
  · exact hcpl h.rest

theorem Stays.msixSend {n : ℕ} (h : Stays s t) : Stays s (msixSend n t) := Stays.ite h h.rest.msixPut

theorem Stays.endpointReset (h : Stays s t) : Stays s (endpointReset t) := h.set.set.set.rest

theorem Stays.linkFalls {expected : Bool} (h : Stays s t) : Stays s (linkFalls expected t) :=
  h.set.inc.endpointReset.bind fun h2 => (Stays.ite h2.badTlp h2)

theorem Stays.linkStateChange {link speed width : ℕ} {expected : Bool} (h : Stays s t) : Stays s (linkStateChange link speed width expected t) :=
  Stays.ite h.set.set (Stays.ite h.set.set.linkFalls h.set.set.set).linkEvent

theorem Stays.debugDone {ok : Bool} {data : Option W} (h : Stays s t) : Stays s (debugDone ok data t) := h.rest

theorem Stays.debugAccess {v : BitVec 112} {natural : ℕ} (h : Stays s t) : Stays s (debugAccess v natural t) := by
  unfold Machine.debugAccess
  refine Stays.ite ?_ ?_
  · exact h
  · refine Stays.ite ?_ ?_
    · refine Stays.ite ?_ ?_
      · split
        rename_i e
        exact (h.rest.accWrite.snd e).debugDone
      · split
        · rename_i e
          exact (h.rest.accRead.snd e).debugDone
        · rename_i e
          exact (h.rest.accRead.snd e).debugDone
    · split
      · exact h.rest
      · exact h.rest.sendReq.rest

theorem Stays.serveJtag (h : Stays s t) : Stays s (serveJtag t) := by
  unfold Machine.serveJtag
  split
  · exact h
  · split
    · exact h
    · rename_i e1
      exact (h.takeRsp e1).debugDone

/-! ### What the functions of Manage keep -/

theorem Stays.mcEnd {result : ℕ} (h : Stays s t) : Stays s (mcEnd result t) := h.rest.set.set.raiseEvent

theorem Stays.updEnd {op result : ℕ} (h : Stays s t) : Stays s (updEnd op result t) := h.mcEnd.mcEvent

theorem Stays.mcRun {op : ℕ} {ok : ℕ → Bool} {f : ℕ → State → State} (h : Stays s t)
    (hf : ∀ {y : ℕ} {u : State}, Stays s u → Stays s (f y u)) :
    Stays s (mcRun op ok f t) := by
  unfold Machine.mcRun
  split
  · exact h
  · exact Stays.ite (hf h) h.mcEnd

theorem Stays.flashFailed {base size : ℕ} {l : List (ℕ × BitVec 8)} (h : Stays s t) : Stays s (flashFailed base size l t) :=
  h.foldl (fun h => (Stays.ite h.flashWrite h))

theorem Stays.updClose (h : Stays s t) : Stays s (updClose t) := h.set.set

theorem Stays.updBegin {fail : FlashOut} (h : Stays s t) : Stays s (updBegin fail t) := by
  refine h.mcRun fun h => ?_
  split
  · exact h.flashFailed.updEnd
  · exact h.flashErase.bind fun h₁ => (Stays.ite h₁.putBootRec h₁).set.set.rest.updEnd

theorem Stays.updChunk {fail : FlashOut} (h : Stays s t) : Stays s (updChunk fail t) := by
  refine h.mcRun fun h => Stays.ite h.updEnd ?_
  split
  · exact h.set.flashFailed.updEnd
  · exact h.set.flashWrite.updEnd

theorem Stays.updVerify (h : Stays s t) : Stays s (updVerify t) := h.mcRun (·.set.updEnd)

theorem Stays.updActivate {ok : Bool} (h : Stays s t) : Stays s (updActivate ok t) :=
  h.mcRun (fun h => (Stays.ite h.updEnd h.putBootRec.updClose.updEnd))

theorem Stays.programOtp {h' : Header} (h : Stays s t) : Stays s (programOtp h' t) :=
  (Stays.ite h.set.mcEvent h).bind fun h2 => (Stays.ite h2 h2.set.mcEvent)

theorem Stays.updConfirm {ok whole : Bool} (h : Stays s t) : Stays s (updConfirm ok whole t) := by
  unfold Machine.updConfirm
  extract_lets
  refine h.mcRun fun h => ?_
  split
  · exact h
  · exact Stays.ite h.updEnd (Stays.ite h.updEnd (Stays.ite h.putBootRec.programOtp.updEnd h.putBootRec.rest))

theorem Stays.updAbort (h : Stays s t) : Stays s (updAbort t) := h.mcRun (·.updClose.updEnd)

theorem Stays.bankOffline (h : Stays s t) : Stays s (bankOffline t) := h.mcRun (·.takeOffline.mcEvent.mcEnd)

theorem Stays.loadGraph {a n : ℕ} {b : List ℕ} (h : Stays s t) : Stays s (loadGraph a n b t) := h.foldl (·.writeN)

theorem Stays.loadSection (h : Stays s t) : Stays s (loadSection t) := by
  refine h.mcRun fun h => ?_
  split
  · exact h.mcEnd
  · exact Stays.ite h.mcEnd (Stays.ite h.mcEnd (Stays.ite h.loadFw.mcEnd (Stays.ite h.mcEnd h.loadGraph.mcEnd)))

theorem Stays.writePage {fail : FlashOut} (h : Stays s t) : Stays s (writePage fail t) := by
  unfold Machine.writePage
  refine Stays.ite ?_ ?_
  · exact h
  · extract_lets
    split
    · exact (Stays.ite h.flashErase h).rest.flashFailed.reportU
    · exact (Stays.ite h.flashErase h).rest.rest.flashWrite

theorem Stays.logPageWrite {fail : FlashOut} (h : Stays s t) : Stays s (logPageWrite fail t) := Stays.ite h.writePage h

theorem Stays.completeConfirm (h : Stays s t) : Stays s (completeConfirm t) := by
  unfold Machine.completeConfirm
  split
  · exact Stays.ite h.programOtp h
  · exact h

theorem Stays.enterRun {fail : FlashOut} (h : Stays s t) : Stays s (enterRun fail t) :=
  h.mcRun (·.set.mcEvent.raiseEvent.completeConfirm.writePage.mcEnd)

theorem Stays.clusterOffline (h : Stays s t) : Stays s (clusterOffline t) := h.mcRun (·.set.rest.mcEvent.mcEnd)

theorem Stays.clusterRelease {r : Rewrite} (h : Stays s t) : Stays s (clusterRelease r t) := by
  refine h.mcRun fun h => ?_
  extract_lets c
  clear_value c
  split
  rename_i sound t₁ e
  have h₁ : Stays s t₁ := h.emptyCluster.goldenRead.snd e
  extract_lets t₂
  have h₂ : Stays s t₂ := Stays.ite h₁.writeGolden h₁
  clear_value t₂
  exact Stays.ite h₂.mcEnd (Stays.ite h₂.wrongWord.mcEnd h₂.restartPes.set.mcEvent.mcEnd)

theorem Stays.pollOne {r : ℕ} {a : Option PmbAns} (h : Stays s t) : Stays s (pollOne r a t) := by
  unfold Machine.pollOne
  extract_lets
  split
  · exact Stays.ite h.rest.reportU h.rest
  · exact Stays.ite h.rest h.rest.mcEvent.raiseEvent

theorem Stays.pollAll {answers : List (Fin 8 × PmbAns)} (h : Stays s t) : Stays s (pollAll answers t) :=
  Stays.ite h (h.foldl (fun h => (Stays.ite h.pollOne h)))

theorem Stays.smbAnswer {a : Option (List (BitVec 8))} (h : Stays s t) : Stays s (smbAnswer a t) := h.rest

theorem Stays.writeWord {addr code ptr : ℕ} {pec : Option Bool} (h : Stays s t) : Stays s (writeWord addr code ptr pec t) :=
  Stays.ite h.rest.smbAnswer h.smbAnswer

theorem Stays.blockRead {addr code : ℕ} (h : Stays s t) : Stays s (blockRead addr code t) := Stays.ite h.rest.smbAnswer h.smbAnswer

theorem Stays.alertResponse (h : Stays s t) : Stays s (alertResponse t) := Stays.ite h.smbAnswer h.smbAnswer

/-! ### What the functions of Tick keep -/

theorem Stays.arithTick (h : Stays s t) : Stays s (arithTick t) := (h.foldl (·.rest)).rest

theorem Stays.serviceTick (h : Stays s t) : Stays s (serviceTick t) := by
  unfold Machine.serviceTick
  exact (h.rampWatch.arithTick.foldl (·.reportCounts)).pairTick.migCopyTick.chainTick.bootTick.serveJtag

theorem Sized.tAdvance {freqOk : Bool} {rails : RailIn} (h : Sized t) : Sized (tAdvance freqOk rails t) := by
  have hbegun : Stays t (alignTick (stepT (sampleTickEnd { t with out := { t.out with now := [] } }))) :=
    (Stays.refl t).rest.sampleTickEnd.stepT.alignTick
  have hlens := (h.along hbegun).lensTick (freqOk := freqOk)
  have hserved : Sized (tickServed freqOk (stepT (sampleTickEnd { t with out := { t.out with now := [] } }))) :=
    hlens.along (((Stays.refl _).sampleTick.auxTick.unlessFatal (·.serviceTick)).idleTick.idleTick.pumpCtl)
  rw [tAdvance_eq]
  exact (hserved.railTick (rails := rails)).along (Stays.refl _).serveHost

/-! ### The commands -/

/-- A next state that the outcome gives is on a path from `s`. -/
def StaysNext (s : State) (o : Host.Outcome State Fault Refusal) : Prop := ∀ u, o = .next u → Stays s u

theorem StaysNext.next (h : Stays s t) : StaysNext s (.next t) := by
  rintro u ⟨⟩
  exact h

theorem Stays.execFlitReceive {seg : Fin 49152} {cyc rcyc : ℕ} {ext : Option ChainFlit} {err : List FlitErr} {urgErr : Bool} (h : Stays s t) :
    StaysNext s (execFlitReceive seg cyc rcyc ext err urgErr t) := by
  refine .next (Stays.ite h (Stays.ite ?_ h.receiveInside))
  split
  · exact Stays.ite h.receiveChain h
  · exact h

theorem Stays.execGcol {k : Fin 9} {e : GcolPass} (h : Stays s t) : StaysNext s (execGcol k e t) := by
  refine .next ?_
  split
  · exact h.gcolExecute
  · exact h.coreInstr (·.kGcolBody)

theorem Stays.execLetData {who : From} {n : Fin 128} {v : Option (BitVec 24)} (h : Stays s t) : StaysNext s (execLetData who n v t) := by
  refine .next ?_
  split
  · exact h.regCmd
  · exact h.readCmd

theorem Stays.execRscData {who : From} {n : Fin 128} {v : Option (BitVec 24)} (h : Stays s t) : StaysNext s (execRscData who n v t) := by
  refine .next ?_
  split
  · exact h.regCmd
  · exact h.readCmd

theorem Stays.execSvDebugAction {who : From} {a : DbgAct} (h : Stays s t) : StaysNext s (execSvDebugAction who a t) := by
  refine .next ?_
  split
  · exact h.fieldCmd
  · exact h.fieldCmd
  · exact h.fieldCmd
  · exact h.regCmd

theorem Stays.execRegisterWrite {who : From} {half : Bool} {a : BitVec 44} {v : BitVec 64} (h : Stays s t) :
    StaysNext s (execRegisterWrite who half a v t) := by
  refine .next ?_
  split
  · exact h.accWrite
  · exact h

theorem Stays.execBar2Read {off : BitVec 25} {len : Fin 4097} {b : Bar2In} (h : Stays s t) : StaysNext s (execBar2Read off len b t) := by
  refine .next ?_
  split
  · exact h.badTlp
  · exact h.bar2Read
  · exact h.bar2Read

theorem Stays.execBar2Write {q : Bar2Wr} (h : Stays s t) : StaysNext s (execBar2Write q t) := by
  refine .next ?_
  split
  · exact h.badTlp
  · exact h.badTlp.bar2Write
  · exact h.bar2Write

/-- The commands that bring a new phase error, show one or reset the device. -/
def remeasures : Instr → Bool
  | .tAdvance _ _ | .ppsEdge _ _ | .coldReset _ | .powerOff | .warmReset _ => true
  | _ => false

/-- Every other command of the table. -/
theorem Stays.exec (h : Stays s t) : (c : Instr) → remeasures c = false → StaysNext s (exec c t)
  | .tAdvance _ _, hc => nomatch hc
  | .tLoad _ _ _, _ => .next h.regCmd
  | .ppsEdge _ _, hc => nomatch hc
  | .ppsTimeout, _ => .next h.ppsTimeout
  | .refLoss, _ => .next h.refLoss
  | .time _ _ _ _ _, _ => .next h.timeWord
  | .techo _ _ _ _ _, _ => .next h.techo
  | .chainTimeLoss, _ => .next h.chainTimeLoss
  | .countEdge _ _ _ _ _, _ => .next h.countEdge
  | .zEdge _ _, _ => .next h.zEdge
  | .coordinateStall _, _ => .next h.coordinateStall
  | .mainsEdge _ _ _, _ => .next h.mainsEdge
  | .mainsHoldover, _ => .next h.mainsHoldover
  | .triggerCrossing _, _ => .next (h.unlessFatal (·.triggerCrossing))
  | .gridPoint _, _ => .next (h.unlessFatal (·.gridPoint))
  | .resamplerToken _, _ => .next (h.unlessFatal (·.resamplerToken))
  | .lensQuery, _ => .next (h.unlessFatal (·.lensQuery))
  | .laneComma _ _ _, _ => .next h.laneComma
  | .laneAlign _ _ _, _ => .next h.laneAlign
  | .frame _ _, _ => .next h.frame
  | .laneSofTimeout _ _, _ => .next h.laneSofTimeout
  | .laneGraceExpiry _, _ => .next h.laneGraceExpiry
  | .fifoIdleFlush _, _ => .next h.fifoIdleFlush
  | .fifoWordRead _ _, _ => .next (h.unlessFatal (·.fifoWordRead))
  | .drop _ _, _ => .next h.fieldCmd
  | .outputFrame _, _ => .next h.outputFrame
  | .forceRelease _, _ => .next h.forceRelease
  | .ilkRel _ _, _ => .next h.regCmd
  | .ilkForce _ _, _ => .next h.regCmd
  | .chForce _ _ _, _ => .next h.regCmd
  | .ilkTest _ _ _, _ => .next h.regCmd
  | .flitReceive _ _ _ _ _ _, _ => h.execFlitReceive
  | .initiatorTimeout, _ => .next (h.unlessFatal (·.initiatorTimeout))
  | .rd _ _, _ => .next (h.unlessFatal (·.sysRead))
  | .wr _ _ _, _ => .next (h.unlessFatal (·.sysWrite))
  | .bwr _, _ => .next (h.unlessFatal (·.bulkWrite))
  | .output, _ => .next (h.unlessFatal (·.output))
  | .emitAtDue, _ => .next (h.unlessFatal (·.emitAtDue))
  | .outputRoom, _ => .next (h.unlessFatal (·.outputRoom))
  | .release, _ => .next (h.unlessFatal (·.releaseStep))
  | .allocGrant _ _ _, _ => .next (Stays.ite h.allocGrant h)
  | .globalArrive _, _ => .next (h.unlessFatal (·.globalArrive))
  | .globalRelease _, _ => .next (h.unlessFatal (·.globalRelease))
  | .globalStage _, _ => .next (h.unlessFatal (·.globalStage))
  | .globalAck _, _ => .next (h.unlessFatal (·.globalAck))
  | .globalAbort _, _ => .next (h.unlessFatal (·.globalAbort))
  | .scheduleDeadline, _ => .next (h.unlessFatal (·.scheduleDeadline))
  | .snapshot, _ => .next (h.unlessFatal (·.snapshot))
  | .warmReset _, hc => nomatch hc
  | .modeCommit _, _ => .next (h.unlessFatal (·.modeCommit))
  | .migrationSwitch _, _ => .next (h.unlessFatal (·.migrationSwitch))
  | .barArm _ _, _ => .next h.fieldCmd
  | .barDisarm _ _, _ => .next h.fieldCmd
  | .barArrive _ _, _ => .next h.regCmd
  | .clusterQuiet _ _, _ => .next (h.unlessFatal (·.clusterQuiet))
  | .gschedSnapshot _ _, _ => .next h.regCmd
  | .gschedWarmReset _ _, _ => .next h.regCmd
  | .tokenAccept _ _ _, _ => .next (h.onFabric (·.tokenAccept))
  | .spillRetry _ _, _ => .next (h.onFabric (·.spillRetry))
  | .integerOp _ _ _, _ => .next (h.fireWith (·.computeBody))
  | .comparison _ _ _, _ => .next (h.fireWith (·.computeBody))
  | .q47Multiply _ _ _, _ => .next (h.fireWith (·.computeBody))
  | .floatOp _ _ _, _ => .next (h.fireWith (·.computeBody))
  | .conversion _ _ _, _ => .next (h.fireWith (·.computeBody))
  | .complexOp _ _ _, _ => .next (h.fireWith (·.computeBody))
  | .switch _ _ _, _ => .next (h.fireWith (·.switchBody))
  | .merge _ _ _, _ => .next (h.fireWith (·.mergeBody))
  | .gate _ _ _, _ => .next (h.fireWith (·.gateBody))
  | .sel _ _ _, _ => .next (h.fireWith (·.selBody))
  | .const _ _ _, _ => .next (h.fireWith (·.constBody))
  | .sink _ _ _, _ => .next (h.fireWith (·.sinkBody))
  | .prism _ _ _, _ => .next (h.fireWith (·.prismBody))
  | .link _ _ _, _ => .next (h.fireWith (·.linkBody))
  | .alloc _ _ _, _ => .next (Stays.ite h (h.fireWith (·.allocBody)))
  | .free _ _ _, _ => .next (h.fireWith (·.freeBody))
  | .next _ _ _, _ => .next (h.fireWith (·.nextBody))
  | .return_ _ _ _, _ => .next (h.fireWith (·.retBody))
  | .load _ _ _, _ => .next (h.fireParking (·.bankBody))
  | .store _ _ _, _ => .next (h.fireParking (·.bankBody))
  | .read _ _ _, _ => .next (h.fireParking (·.bankBody))
  | .write _ _ _, _ => .next (h.fireParking (·.bankBody))
  | .iclr _ _ _, _ => .next (h.fireParking (·.bankBody))
  | .fetchAdd _ _ _, _ => .next (h.fireParking (·.bankBody))
  | .swap _ _ _, _ => .next (h.fireParking (·.bankBody))
  | .now _ _ _, _ => .next (h.fireWith (·.nowBody))
  | .due _ _ _, _ => .next (h.fireWith (·.dueBody))
  | .tighten _ _ _, _ => .next (h.fireWith (·.tightenBody))
  | .angleAt _ _ _, _ => .next (h.fireParking (·.lensBody))
  | .timeAt _ _ _, _ => .next (h.fireParking (·.lensBody))
  | .out _ _ _, _ => .next (h.fireParking (·.outBody))
  | .emitAt _ _ _, _ => .next (h.fireParking (·.outBody))
  | .userOperation _ _ _, _ => .next (Stays.ite h.continueUser (h.fireWith (·.userBody)))
  | .response _ _, _ => .next (h.onFabric (·.response.continueUser))
  | .deferredAnswer _ _, _ => .next (h.onFabric (·.deferredAnswer))
  | .bankOperation _ _ _, _ => .next (h.onFabric (·.bankOperation))
  | .deferredReadAnswer _, _ => .next (h.onFabric (·.deferredReadAnswer))
  | .scrub _ _, _ => .next (h.onFabric (·.scrub))
  | .correctedWriteback _, _ => .next (h.onFabric (·.correctedWriteback))
  | .bankOwn _ _ _ _, _ => .next (h.unlessFatal (·.bankOwnWrite))
  | .handoverComplete _, _ => .next (h.unlessFatal (·.handoverComplete))
  | .bankPwr _ _, _ => .next (h.unlessFatal (·.bankPwrWrite))
  | .powerMoveComplete _, _ => .next (h.unlessFatal (·.powerMoveComplete))
  | .takeOffline _ _, _ => .next (h.unlessFatal (fun h => (Stays.ite h.takeOffline h)))
  | .matchDebugRead _ _ _, _ => .next (h.unlessFatal (·.holdEntry))
  | .deadlockEvaluation _, _ => .next (h.unlessFatal (·.evaluate))
  | .reclaimSweepEnd _, _ => .next (h.unlessFatal (·.sweepEnd))
  | .filterExpiry _, _ => .next (h.unlessFatal (·.filterExpiry))
  | .controlStoreReload _ _, _ => .next (h.unlessFatal (·.controlStoreReload))
  | .claim, _ => .next (h.unlessFatal (·.claim))
  | .admitGraph _, _ => .next (h.unlessFatal (·.admitGraph))
  | .commit _, _ => .next (h.unlessFatal (·.commit))
  | .withdraw, _ => .next (h.unlessFatal (·.withdraw))
  | .withdrawComplete _, _ => .next (h.unlessFatal (·.withdrawComplete))
  | .clusterEmptied _, _ => .next (h.unlessFatal (fun h => (Stays.ite h.emptyCluster h)))
  | .stage, _ => .next (h.unlessFatal (·.stage))
  | .modeDrained _, _ => .next (h.unlessFatal (·.modeDrained))
  | .modeSweep _, _ => .next (h.unlessFatal (·.modeSweep))
  | .modeDiscardEnd _, _ => .next (h.unlessFatal (·.modeDiscardEnd))
  | .migrate, _ => .next (h.unlessFatal (·.migrate))
  | .migrationCopyDone _ _, _ => .next (h.unlessFatal (·.migrationCopyDone))
  | .migrationDrained _, _ => .next (h.unlessFatal (·.migrationDrained))
  | .guaranteeRestore _, _ => .next (h.unlessFatal (·.guaranteeRestore))
  | .ledgerReexamine, _ => .next (h.unlessFatal (·.ledgerReexamine))
  | .lostAck _ _, _ => .next h.fieldCmd
  | .alu _ _, _ => .next (h.coreInstr (·.kComputeBody))
  | .immediate _ _, _ => .next (h.coreInstr (·.kImmediateBody))
  | .ldk _ _, _ => .next (h.coreInstr (·.kLdkBody))
  | .ink _ _, _ => .next (h.coreInstr (·.kInkBody))
  | .xrk _ _, _ => .next (h.coreInstr (·.kXrkBody))
  | .ld _ _, _ => .next (Stays.ite (h.unlessFatal (·.finishLoad)) (h.coreInstr (·.kLoadBody)))
  | .st _ _, _ => .next (h.coreInstr (·.kStoreBody))
  | .postedStoreError _, _ => .next (h.unlessFatal (·.postedStoreError))
  | .lr _ _, _ => .next (h.coreInstr (·.kLrBody))
  | .sc _ _, _ => .next (h.coreInstr (·.kScBody))
  | .tas _ _, _ => .next (h.coreInstr (·.kTasBody))
  | .branch _ _, _ => .next (h.coreInstr (·.kBranchBody))
  | .j _ _, _ => .next (h.coreInstr (·.kJBody))
  | .call _ _, _ => .next (h.coreInstr (·.kCallBody))
  | .jr _ _, _ => .next (h.coreInstr (·.kJrBody))
  | .callr _ _, _ => .next (h.coreInstr (·.kCallrBody))
  | .ret _ _, _ => .next (h.coreInstr (·.kRetBody))
  | .rspush _ _, _ => .next (h.coreInstr (·.kRspushBody))
  | .rspop _ _, _ => .next (h.coreInstr (·.kRspopBody))
  | .fp _ _, _ => .next (h.coreInstr (·.kComputeBody))
  | .fma _ _, _ => .next (h.coreInstr (·.kFmaBody))
  | .cpx _ _, _ => .next (h.coreInstr (·.kComputeBody))
  | .fence _ _, _ => .next (h.coreInstr (·.kFenceBody))
  | .srr _ _, _ => .next (h.coreInstr (·.kSrrBody))
  | .srw _ _, _ => .next (h.coreInstr (·.kSrwBody))
  | .trapi _ _, _ => .next (h.coreInstr (·.kTrapiBody))
  | .tret _ _, _ => .next (h.coreInstr (·.kTretBody))
  | .halt _ _, _ => .next (h.coreInstr (·.kHaltBody))
  | .wait _ _, _ => .next (h.coreInstr (·.kWaitBody))
  | .ginj _ _, _ => .next (Stays.ite (h.unlessFatal (·.ginjAgain)) (h.coreInstr (·.kGinjBody)))
  | .ginjFullTimeout _, _ => .next (h.unlessFatal (·.ginjTimeout))
  | .ginjHandover _, _ => .next (h.unlessFatal (·.ginjHandover))
  | .gcol _ _, _ => h.execGcol
  | .intr _, _ => .next (h.unlessFatal (·.interrupt))
  | .ccRun _ _ _, _ => .next h.fieldCmd
  | .ccReset _ _, _ => .next h.fieldCmd
  | .haltReq _ _ _, _ => .next h.fieldCmd
  | .step _ _, _ => .next h.fieldCmd
  | .create _ _, _ => .next h.fieldCmd
  | .wake _ _, _ => .next h.fieldCmd
  | .kill _ _, _ => .next h.fieldCmd
  | .yield _ _, _ => .next h.regCmd
  | .block _ _, _ => .next h.regCmd
  | .exit _ _, _ => .next h.regCmd
  | .schedClaim _ _ _, _ => .next h.readCmd
  | .slotWake _, _ => .next (h.unlessFatal (·.slotWake))
  | .raise _ _, _ => .next h.fieldCmd
  | .doorbell _ _, _ => .next h.regCmd
  | .timer _, _ => .next (h.unlessFatal (·.timer))
  | .lockAcquire _ _ _, _ => .next h.readCmd
  | .lockRelease _ _, _ => .next h.fieldCmd
  | .lockForce _ _, _ => .next h.fieldCmd
  | .svRun _, _ => .next h.fieldCmd
  | .svReset _, _ => .next h.fieldCmd
  | .cmpTest _ _, _ => .next (h.unlessFatal (fun h => (Stays.ite h.cmpTest h)))
  | .lockstepMiscompare _ _ _ _, _ => .next h.lockstepMiscompare
  | .svDebugAction _ _, _ => h.execSvDebugAction
  | .kick _, _ => .next h.fieldCmd
  | .watchdogExpiry, _ => .next (h.unlessFatal (·.watchdogExpiry))
  | .svTimer, _ => .next (h.unlessFatal (·.svTimer))
  | .svIntr, _ => .next (h.unlessFatal (·.interrupt))
  | .svMbxInWrite _ _, _ => .next h.regCmd
  | .svMbxInRead _ _, _ => .next h.readCmd
  | .svMbxOutWrite _ _, _ => .next h.regCmd
  | .svMbxOutRead _ _, _ => .next h.readCmd
  | .faultEvent, _ => .next h.faultEvent
  | .fatalRecordWrite, _ => .next h.fatalRecordWrite
  | .wireFault _ _ _, _ => .next h.wireFault
  | .ack _ _, _ => .next h.fieldCmd
  | .pop _, _ => .next h.fieldCmd
  | .arm _ _ _ _, _ => .next h.regCmd
  | .recordClear _, _ => .next h.fieldCmd
  | .coldReset _, hc => nomatch hc
  | .bootTimeout, _ => .next (h.unlessFatal (·.bootTimeout))
  | .updBegin _, _ => .next (h.unlessFatal (·.updBegin))
  | .updChunk _, _ => .next (h.unlessFatal (·.updChunk))
  | .updVerify, _ => .next (h.unlessFatal (·.updVerify))
  | .updActivate _, _ => .next (h.unlessFatal (·.updActivate))
  | .updConfirm _ _, _ => .next (h.unlessFatal (·.updConfirm))
  | .updAbort, _ => .next (h.unlessFatal (·.updAbort))
  | .bankOffline, _ => .next (h.unlessFatal (·.bankOffline))
  | .loadSection, _ => .next (h.unlessFatal (·.loadSection))
  | .run _, _ => .next (h.unlessFatal (·.enterRun))
  | .clusterOffline, _ => .next (h.unlessFatal (·.clusterOffline))
  | .clusterRelease _, _ => .next (h.unlessFatal (·.clusterRelease))
  | .sensorRead, _ => .next (h.unlessFatal (·.sensorRead))
  | .pmbusPoll _, _ => .next (h.unlessFatal (·.pollAll))
  | .pmbAlert _, _ => .next (h.unlessFatal (·.pollAll))
  | .writeWord _ _ _ _, _ => .next h.writeWord
  | .blockRead _ _, _ => .next h.blockRead
  | .logPageWrite _, _ => .next (h.unlessFatal (·.logPageWrite))
  | .wearMinute, _ => .next (h.unlessFatal (·.wearMinute))
  | .powerOff, hc => nomatch hc
  | .railFault _, _ => .next h.railFault
  | .sensorConversion _ _, _ => .next h.sensorConversion
  | .throttleRelease _, _ => .next (h.unlessFatal (·.throttleRelease))
  | .shedStep _, _ => .next (h.unlessFatal (·.shedStep))
  | .powerEstimate _, _ => .next (h.unlessFatal (·.powerEstimate))
  | .clockRampStep _, _ => .next (h.unlessFatal (·.clockRampStep))
  | .vfSetWrite _ _, _ => .next h.fieldCmd
  | .bar0Read _ _ _ _, _ => .next (Stays.ite h.badTlp h.bar0)
  | .bar0Write _ _ _ _ _ _, _ => .next (Stays.ite h.badTlp (Stays.ite h.badTlp h).bar0)
  | .bar2Read _ _ _, _ => h.execBar2Read
  | .bar2Write _, _ => h.execBar2Write
  | .configRequest _, _ => .next h.configRequest
  | .msixSend _, _ => .next (h.unlessFatal (·.msixSend))
  | .endpointReset _, _ => .next (Stays.ite h.linkFalls h.endpointReset).linkEvent
  | .captureRecord _ _, _ => .next (h.unlessFatal (·.captureRecord))
  | .captureShortClose _, _ => .next (h.unlessFatal (·.captureShortClose))
  | .capRp _ _ _, _ => .next h.regCmd
  | .capEnable _ _, _ => .next h.fieldCmd
  | .enum _ _ _ _, _ => .next (h.unlessFatal (·.enum))
  | .done _ _, _ => .next (h.unlessFatal (·.done))
  | .fatal _ _ _, _ => .next h.fatalNotice
  | .credit _ _ _, _ => .next (h.unlessFatal (·.credit))
  | .align _ _, _ => .next h.chainAlign
  | .chainDown _, _ => .next h.chainDown
  | .mirrorFlip, _ => .next (h.unlessFatal (·.mirrorFlip))
  | .mirrorRead _ _, _ => .next h.mirrorRead
  | .auxSwitch _, _ => .next (h.unlessFatal (·.auxSwitch))
  | .evin _ _ _, _ => .next h.evin
  | .jtagInstruction _ _, _ => .next h.jtagInstruction
  | .debug _ _, _ => .next h.debugAccess
  | .hwmClear _, _ => .next (h.unlessFatal (·.clearMarks))
  | .lateClear _, _ => .next (h.unlessFatal (·.set))
  | .lwmClear _ _ _, _ => .next (h.unlessFatal (·.set))
  | .maxClear _ _, _ => .next h.fieldCmd
  | .registerWrite _ _ _ _, _ => h.execRegisterWrite
  | .referenceReturn _, _ => .next h.referenceReturn
  | .laneEnable _ _ _, _ => .next h.fieldCmd
  | .blockLock _ _, _ => .next h.blockLock
  | .linkStateChange _ _ _ _, _ => .next h.linkStateChange
  | .coordCfg _ _ _, _ => .next h.regCmd
  | .letData _ _ _, _ => h.execLetData
  | .rscData _ _ _, _ => h.execRscData
  | .capDisable _ _, _ => .next h.fieldCmd
  | .alertResponseAddress, _ => .next h.alertResponse

theorem Sized.unlessFatal {f : State → State} (h : Sized t) (hf : Sized (f t)) : Sized (unlessFatal f t) := by
  unfold Machine.unlessFatal
  split <;> assumption

/-- Of the commands that are on no path the tick and the edge of PPS change no size, and the resets leave those of reset. -/
theorem Sized.exec (h : Sized s) (c : Instr) (e : exec c s = .next t) : Sized t := by
  cases hc : remeasures c with
  | false => exact ((Stays.refl s).exec c hc t e).sized h
  | true =>
    unfold remeasures at hc
    split at hc
    · cases e; exact h.tAdvance
    · cases e; exact h.ppsEdge
    · cases e; exact h.coldReset
    · cases e; exact h.powerReset
    · cases e; exact h.unlessFatal h.warmReset
    · cases hc

theorem Sized.step (h : Sized s) (e : step s = .next t) : Sized t := by
  unfold Machine.step at e
  split at e
  · cases e
    exact h
  · rename_i c rest _
    exact Sized.exec (h.congr (t := { s with pending := rest }) rfl rfl rfl) c e

/-- Settles O59: every command keeps `Sized`. -/
theorem sizesAreKept : Obligations.SizesAreKept := by
  unfold Obligations.SizesAreKept
  exact fun _ _ h e => sized_iff_shape.1 ((sized_iff_shape.2 h).step e)

end Sys2Proof.Machine
end

section
/-!
SUPPORT. Loss and return of the references (O1): what entering HOLDOVER does (R204, R209).
-/
set_option Elab.async false
namespace Sys2Proof.Machine
open Sys2Proof

/-! ### Entering HOLDOVER (R204, R209) -/

/-- The fields that entering HOLDOVER changes. -/
def holdoverFields : List Fld := [F.lensStat_TB_STATE, F.lensStat_HOLD_EVT, F.chainTm_LOCK, F.evCfg_COUNT, F.evCfg_PEND]

theorem enterHoldover_frame (s : State) :
    enterHoldover s = { s with regs := (enterHoldover s).regs, pcie := (enterHoldover s).pcie } := raiseEvent_frame 249 _

theorem enterHoldover_regsBut (s : State) : RegsBut holdoverFields s (enterHoldover s) :=
  raiseEvent_regsBut (((RegsBut.refl _ s).set (hf := by simp [holdoverFields])).set (hf := by simp [holdoverFields]) |>.set
    (hf := by simp [holdoverFields])) (by simp [holdoverFields]) (by simp [holdoverFields])

theorem enterHoldover_state (s : State) : (enterHoldover s).get F.lensStat_TB_STATE 0 = 3 := by
  rw [enterHoldover, raiseEvent_get_ne _ _ _ _ (by decide), State.get_set_ne _ _ _ _ _ _ (by decide),
    State.get_set_ne _ _ _ _ _ _ (by decide), State.get_set_same]
  rfl

theorem enterHoldover_holdEvt (s : State) : (enterHoldover s).get F.lensStat_HOLD_EVT 0 = 1 := by
  rw [enterHoldover, raiseEvent_get_ne _ _ _ _ (by decide), State.get_set_ne _ _ _ _ _ _ (by decide), State.get_set_same]
  rfl

theorem enterHoldover_lock (s : State) : (enterHoldover s).get F.chainTm_LOCK 0 = 0 := by
  rw [enterHoldover, raiseEvent_get_ne _ _ _ _ (by decide), State.get_set_same]
  rfl

theorem enterHoldover_count (s : State) : (enterHoldover s).get F.evCfg_COUNT 249 = (s.get F.evCfg_COUNT 249 + 1) % 2 ^ 16 := by
  rw [enterHoldover, raiseEvent_count, State.get_set_ne _ _ _ _ _ _ (by decide), State.get_set_ne _ _ _ _ _ _ (by decide),
    State.get_set_ne _ _ _ _ _ _ (by decide)]
  rfl

/-! ### The commands (R204, R207, R209) -/

theorem ppsTimeout_due {s : State} (hpresent : s.flag F.lensStat_PPS_PRESENT 0 = true) (hdue : s.lens.ppsLast + 500000000 ≤ s.ticks) :
    ppsTimeout s = ({ s with lens := { s.lens with ppsGood := 0 } }.set F.lensStat_PPS_PRESENT 0 0).set F.lensStat_PPS_ALIGNED 0 0 :=
  if_neg (by simp [hpresent, Nat.not_lt.2 hdue])

theorem refLoss_disciplined {s : State} (h : s.get F.lensStat_TB_STATE 0 = 1 ∨ s.get F.lensStat_TB_STATE 0 = 2) :
    refLoss s = enterHoldover (s.set F.lensStat_REF_PRESENT 0 0) := if_pos h

theorem refLoss_undisciplined {s : State} (h₁ : s.get F.lensStat_TB_STATE 0 ≠ 1) (h₂ : s.get F.lensStat_TB_STATE 0 ≠ 2) :
    refLoss s = s.set F.lensStat_REF_PRESENT 0 0 := if_neg (not_or.2 ⟨h₁, h₂⟩)

theorem chainTimeLoss_due {s : State} (h : s.get F.lensStat_TB_STATE 0 = 4 ∨ s.get F.lensStat_TB_STATE 0 = 5)
    (hdue : s.lens.chainLast + 65536 ≤ s.ticks) :
    chainTimeLoss s = dropFault 21 (loc 0 s.pkg) (enterHoldover { s with lens := { s.lens with chainGood := 0 } }) :=
  if_neg (by rcases h with h | h <;> simp [h, Nat.not_lt.2 hdue])

/-- Settles O1: each command is one assignment or `enterHoldover`. -/
theorem referenceLossAndReturn : Obligations.ReferenceLossAndReturn := by
  unfold Obligations.ReferenceLossAndReturn
  refine ⟨?timeout, ?loss, ?lossOutside, ?ref10M, ?chain, ?chainLoss⟩
  case timeout => exact fun s hpresent hdue => congrArg Host.Outcome.next (ppsTimeout_due hpresent hdue)
  case loss =>
    intro s hst
    have habsent : (enterHoldover (s.set F.lensStat_REF_PRESENT 0 0)).get F.lensStat_REF_PRESENT 0 = 0 := by
      rw [enterHoldover_regsBut _ _ _ (by decide), State.get_set_same]
      rfl
    refine completes_next (congrArg Host.Outcome.next (refLoss_disciplined hst)) ⟨habsent, enterHoldover_state _, enterHoldover_holdEvt _,
      enterHoldover_lock _, ?_, enterHoldover_frame _, ?_⟩
    · rw [enterHoldover_count, State.get_set_ne _ _ _ _ _ _ (by decide)]
    · exact (RegsBut.refl _ s).set.trans ((enterHoldover_regsBut _).mono (by simp [holdoverFields]))
  case lossOutside => exact fun s h₁ h₂ => congrArg Host.Outcome.next (refLoss_undisciplined h₁ h₂)
  case ref10M => exact fun s hsrc hst => congrArg Host.Outcome.next (if_pos ⟨hsrc, .inr hst⟩)
  case chain => exact fun s hsrc hst hticks => congrArg Host.Outcome.next (if_pos ⟨hsrc, hst, hticks⟩)
  case chainLoss =>
    intro s hst hdue
    have hlens : (enterHoldover { s with lens := { s.lens with chainGood := 0 } }).lens.chainGood = 0 := by rw [enterHoldover_frame]
    refine completes_next (congrArg Host.Outcome.next (chainTimeLoss_due hst hdue)) ⟨enterHoldover_state _, enterHoldover_holdEvt _, enterHoldover_lock _,
      hlens, enterHoldover_count _, ?_, enterHoldover_regsBut _⟩
    rw [dropFault_frame, enterHoldover_frame]

end Sys2Proof.Machine
end

section
/-!
SUPPORT. The mains coordinate (O4): what each kind of mains edge records (R219, R220), and what reading and writing a coordinate does.
-/
set_option Elab.async false
namespace Sys2Proof.Machine
open Sys2Proof

/-! ### Reading and writing a coordinate -/

theorem State.coord_setCoord_same {s : State} {i : ℕ} (h : i < s.lens.coords.length) (c : Coord) : (s.setCoord i c).coord i = c := by
  simp [State.coord, State.setCoord, setAt, List.getD, h]

theorem State.coord_setCoord_ne {i j : ℕ} (h : j ≠ i) (s : State) (c : Coord) : (s.setCoord i c).coord j = s.coord j := by
  simp [State.coord, State.setCoord, setAt, List.getD, List.getElem?_set_ne h.symm]

@[simp] theorem State.coord_set (s : State) (f : Fld) (i v j : ℕ) : (s.set f i v).coord j = s.coord j := rfl

@[simp] theorem State.get_setCoord (s : State) (i : ℕ) (c : Coord) (f : Fld) (j : ℕ) : (s.setCoord i c).get f j = s.get f j := rfl

@[simp] theorem State.flag_setCoord (s : State) (i : ℕ) (c : Coord) (f : Fld) (j : ℕ) : (s.setCoord i c).flag f j = s.flag f j := rfl

/-! ### A mains edge (R219, R220) -/

/-- T has been stepped since the last mains edge. -/
def mainsStepped (s : State) : Bool := s.t ≠ (s.coord 4).lastT + BitVec.ofNat 48 (s.ticks - (s.coord 4).lastTick)

/-- The interval from the last mains edge, which stands at `last`, to one at `stamp`, in sixteenths. -/
def mainsGap (s : State) (stamp last : BitVec 52) : Int :=
  if s.t ≠ (s.coord 4).lastT + BitVec.ofNat 48 (s.ticks - (s.coord 4).lastTick) then 16 * ((s.ticks - (s.coord 4).lastTick : ℕ) : Int) else sd52 stamp last

/-- The obligation's words for `mainsGap`. -/
theorem mainsGap_eq (s : State) (stamp last : BitVec 52) :
    (if s.t = (s.coord 4).lastT + BitVec.ofNat 48 (s.ticks - (s.coord 4).lastTick) then sd52 stamp last
      else (16 * (s.ticks - (s.coord 4).lastTick : ℕ) : Int)) = mainsGap s stamp last :=
  (ite_not ..).symm

/-- M after an edge at `stamp` that begins cycle `n`. -/
def mainsBegun (s : State) (stamp : BitVec 52) (n : Int) (resumed : Bool) (period : ℕ) : Coord :=
  { s.coord 4 with
    k := n, hist := (⟨stamp, n, mainsAngle s n, false, (s.coord 4).hist.isEmpty || mainsStepped s, false, resumed⟩ :: (s.coord 4).hist).take 260,
    period := period, good := if resumed then 1 else (s.coord 4).good + 1, lastTick := s.ticks, lastT := s.t }

section
variable {s : State} {rising : Bool} {stamp : BitVec 52} {width : ℕ} (hen : s.flag F.mainsCfg_EN 0 = true)
  (hpol : s.flag F.mainsCfg_POL 0 ≠ rising) (hfilt : s.get F.mainsCfg_FILT 0 ≤ width)
include hen hpol hfilt

theorem mainsEdge_taken : (!s.flag F.mainsCfg_EN 0 || rising == s.flag F.mainsCfg_POL 0 || width < s.get F.mainsCfg_FILT 0) = false := by
  simp [hen, hpol.symm, hfilt]

theorem mainsEdge_first (hhist : (s.coord 4).hist = []) :
    mainsEdge rising stamp width s = s.setCoord 4 (mainsBegun s stamp 0 false 0) := by
  rw [mainsEdge, mainsEdge_taken hen hpol hfilt, if_neg Bool.false_ne_true]
  dsimp only
  split
  · rfl
  · rename_i e
    rw [hhist] at e
    cases e

theorem mainsEdge_later {x : Edge} {xs : List Edge} (hhist : (s.coord 4).hist = x :: xs) :
    mainsEdge rising stamp width s =
      if mainsGap s stamp x.stamp < 3000000 * 16 then s.set F.mainsStat_GLITCH_EVT 0 1
      else if s.flag F.mainsStat_HOLD 0 then
        (s.setCoord 4 (mainsBegun s stamp (rneRat ((mainsAt (s.viewNow 4) stamp / 256 - s.get F.mainsCfg_PHASE_OFS 0) / 2 ^ 24)) true
          (s.coord 4).period)).set F.mainsStat_HOLD 0 0
      else
        let t := (s.setCoord 4 (mainsBegun s stamp ((s.coord 4).k + 1) false (mainsGap s stamp x.stamp).toNat)).set F.mainsStat_PERIOD 0
          (rneRat ((mainsGap s stamp x.stamp : Rat) / 16)).toNat
        if 3 ≤ (s.coord 4).good then t.set F.mainsStat_LOCK 0 1 else t := by
  rw [mainsEdge, mainsEdge_taken hen hpol hfilt, if_neg Bool.false_ne_true]
  dsimp only
  split
  · rename_i e
    rw [hhist] at e
    cases e
  · rename_i e
    obtain ⟨rfl, rfl⟩ := List.cons.inj (hhist.symm.trans e)
    rfl

end

theorem mainsBegun_newest (s : State) (stamp : BitVec 52) (n : Int) (resumed : Bool) (period : ℕ) :
    (mainsBegun s stamp n resumed period).hist.head? =
      some ⟨stamp, n, mainsAngle s n, false, (s.coord 4).hist.isEmpty || mainsStepped s, false, resumed⟩ := rfl

theorem mainsHoldover_due {s : State} (hen : s.flag F.mainsCfg_EN 0 = true) (hhist : (s.coord 4).hist ≠ [])
    (hhold : s.flag F.mainsStat_HOLD 0 = false) (hdue : (s.coord 4).lastTick + 7500000 ≤ s.ticks) :
    mainsHoldover s = raiseEvent 258 ((((s.setCoord 4 { s.coord 4 with good := 0 }).set F.mainsStat_HOLD 0 1).set F.mainsStat_LOST_EVT 0 1).set
      F.mainsStat_LOCK 0 0) :=
  if_neg (by simp [hen, hhist, hhold, Nat.not_lt.2 hdue])

/-- Settles O4: an edge is the first, a glitch, the next or one that ends the holdover. -/
theorem mainsEdgesAndHoldover : Obligations.MainsEdgesAndHoldover := by
  unfold Obligations.MainsEdgesAndHoldover
  simp only [mainsGap_eq]
  refine ⟨?first, ?glitch, ?next, ?resumed, ?holdover⟩
  case first =>
    intro rising stamp width s hen hpol hfilt hlen hhist
    refine completes_next (congrArg Host.Outcome.next (mainsEdge_first hen hpol hfilt hhist)) ?_
    rw [State.coord_setCoord_same hlen]
    refine ⟨rfl, ?_, rfl⟩
    simp [mainsBegun, hhist]
  case glitch =>
    intro rising stamp width x xs s hen hpol hfilt hhist hgap
    exact congrArg Host.Outcome.next ((mainsEdge_later hen hpol hfilt hhist).trans (if_pos hgap))
  case next =>
    intro rising stamp width x xs s hen hpol hfilt hlen hhist hgap hhold
    have he := mainsEdge_later hen hpol hfilt hhist (stamp := stamp)
    rw [if_neg (not_lt.2 hgap), if_neg (by simp [hhold])] at he
    extract_lets t at he
    have hcoord : t.coord 4 = _ := State.coord_setCoord_same hlen _
    by_cases hgood : 3 ≤ (s.coord 4).good
    · rw [if_pos hgood] at he
      refine completes_next (congrArg Host.Outcome.next he) ?_
      rw [State.coord_set, hcoord]
      exact ⟨rfl, rfl, rfl, fun _ => State.get_set_same .., fun h => absurd hgood (Nat.not_le.2 h), rfl, (RegsBut.refl _ s).set.set⟩
    · rw [if_neg hgood] at he
      refine completes_next (congrArg Host.Outcome.next he) ?_
      rw [hcoord]
      exact ⟨rfl, rfl, rfl, fun h => absurd h hgood, fun _ => State.get_set_ne _ _ _ _ _ _ (by decide), rfl, (RegsBut.refl _ s).set⟩
  case resumed =>
    intro rising stamp width x xs s hen hpol hfilt hlen hhist hgap hhold
    have he := mainsEdge_later hen hpol hfilt hhist (stamp := stamp)
    rw [if_neg (not_lt.2 hgap), if_pos hhold] at he
    refine completes_next (congrArg Host.Outcome.next he) ?_
    rw [State.coord_set, State.coord_setCoord_same hlen]
    exact ⟨⟨rfl, rfl, rfl, State.get_set_same .., rfl⟩, (RegsBut.refl _ s).set⟩
  case holdover =>
    intro s hen hhist hhold hdue
    refine completes_next (congrArg Host.Outcome.next (mainsHoldover_due hen hhist hhold hdue)) ⟨?_, ?_, ?_, ?_, ?_, ?_⟩
    · rw [raiseEvent_get_ne _ _ _ _ (by decide), State.get_set_ne _ _ _ _ _ _ (by decide), State.get_set_ne _ _ _ _ _ _ (by decide),
        State.get_set_same]
      rfl
    · rw [raiseEvent_get_ne _ _ _ _ (by decide), State.get_set_ne _ _ _ _ _ _ (by decide), State.get_set_same]
      rfl
    · rw [raiseEvent_get_ne _ _ _ _ (by decide), State.get_set_same]
      rfl
    · rw [raiseEvent_count, State.get_set_ne _ _ _ _ _ _ (by decide), State.get_set_ne _ _ _ _ _ _ (by decide),
        State.get_set_ne _ _ _ _ _ _ (by decide)]
      rfl
    · rw [raiseEvent_frame]
      rfl
    · exact raiseEvent_regsBut ((RegsBut.refl _ s).set.set.set) (by simp) (by simp)

end Sys2Proof.Machine
end

section
/-!
SUPPORT. Count edges (O3): what recording an edge does to the history and to STOP (R210, R211, R217), and which coordinate a command's edge feeds.
-/
set_option Elab.async false
namespace Sys2Proof.Machine
open Sys2Proof

/-! ### The check against the model (R226) -/

/-- The fields that the check changes. -/
def modelFields : List Fld := [F.coordStat_MODELV, F.coordStat_ERR_EVT, F.evCfg_COUNT, F.evCfg_PEND]

/-- The bound of the check, or a free one. -/
def modelBound (i : ℕ) (stamp : BitVec 52) (e : Edge) (es : List Edge) (s : State) : Int × State :=
  match boundPred s i (e :: es) (motion false (s.viewNow i) (e :: es)).2.1 (sd52 stamp e.stamp : Int) with
  | some b => (b, s)
  | none => let (v, s) := s.freeVal 32; ((v.toNat : Int), s)

theorem modelBound_frame (i : ℕ) (stamp : BitVec 52) (e : Edge) (es : List Edge) (s : State) :
    (modelBound i stamp e es s).2 = { s with free := (modelBound i stamp e es s).2.free } := by
  unfold modelBound
  split <;> rfl

theorem modelCheck_none {i : ℕ} {stamp : BitVec 52} {ang : Int} {s : State} (h : cutStart (s.viewNow i).hist = []) :
    modelCheck i stamp ang s = s := by
  unfold modelCheck
  dsimp only
  rw [h]

theorem modelCheck_edges {i : ℕ} {stamp : BitVec 52} {ang : Int} {e : Edge} {es : List Edge} {s : State}
    (h : cutStart (s.viewNow i).hist = e :: es) :
    modelCheck i stamp ang s =
      if ((modelBound i stamp e es s).1 : Rat) <
          ratAbs ((ang : Rat) - extrapolate (motion false (s.viewNow i) (e :: es)) (sd52 stamp e.stamp : Int)) / 256 then
        raiseEvent (254 + i) (((modelBound i stamp e es s).2.inc F.coordStat_MODELV i).set F.coordStat_ERR_EVT i 1)
      else (modelBound i stamp e es s).2 := by
  unfold modelCheck
  dsimp only
  rw [h]
  rfl

theorem modelCheck_frame (i : ℕ) (stamp : BitVec 52) (ang : Int) (s : State) :
    modelCheck i stamp ang s =
      { s with
        regs := (modelCheck i stamp ang s).regs, pcie := (modelCheck i stamp ang s).pcie, free := (modelCheck i stamp ang s).free } := by
  cases h : cutStart (s.viewNow i).hist with
  | nil => rw [modelCheck_none h]
  | cons e es =>
    rw [modelCheck_edges h]
    split
    · rw [raiseEvent_frame, modelBound_frame]
      rfl
    · rw [modelBound_frame]

theorem modelCheck_regsBut (i : ℕ) (stamp : BitVec 52) (ang : Int) (s : State) : RegsBut modelFields s (modelCheck i stamp ang s) := by
  cases h : cutStart (s.viewNow i).hist with
  | nil => rw [modelCheck_none h]; exact RegsBut.refl _ s
  | cons e es =>
    have hbound : RegsBut modelFields s (modelBound i stamp e es s).2 :=
      (RegsBut.refl _ s).regs (by rw [modelBound_frame])
    rw [modelCheck_edges h]
    split
    · exact raiseEvent_regsBut ((hbound.inc (hf := by simp [modelFields])).set (hf := by simp [modelFields])) (by simp [modelFields])
        (by simp [modelFields])
    · exact hbound

/-! ### Recording an edge (R211, R212, R216, R217) -/

/-- The fields that a recorded edge may change. -/
def edgeFields : List Fld := coordFlds ++ [F.evCfg_COUNT, F.evCfg_PEND]

/-- What recording an edge leaves behind: the fields of `edgeFields` alone have changed, STOP is 0, and the edge heads the history, which it begins
anew if the coordinate was stopped. -/
structure Recorded (i : ℕ) (stamp : BitVec 52) (s t : State) : Prop where
  regs : RegsBut edgeFields s t
  stop : t.get F.coordStat_STOP i = 0
  newest : i < s.lens.coords.length → s.flag F.coordStat_STOP i = true → (cutStart (t.coord i).hist).map (·.stamp) = [stamp]

theorem cutStart_of_start {e : Edge} {es : List Edge} (h : e.start = true) : cutStart (e :: es) = [e] := by
  rw [cutStart, if_pos h]

theorem recordEdge_recorded (i : ℕ) (stamp : BitVec 52) (back : Bool) (s : State) : Recorded i stamp s (recordEdge i stamp back s) := by
  unfold recordEdge
  extract_lets c late tach first k0 b s₁ ang s₂ rev stopped e s₃ s₄
  have h₁ : RegsBut [F.coordStat_REFD, F.coordStat_JUMP] s s₁ := by
    unfold s₁
    split
    · exact (RegsBut.refl _ s).set.set
    · exact RegsBut.refl _ s
  have h₂ : RegsBut ([F.coordStat_REFD, F.coordStat_JUMP] ++ modelFields) s s₂ := by
    unfold s₂
    split
    · exact h₁.mono
    · exact h₁.mono.trans ((modelCheck_regsBut _ _ _ _).mono fun _ hf => List.mem_append_right _ hf)
  have hlens : s₂.lens = s.lens := by
    unfold s₂ s₁
    split
    · split <;> rfl
    · rw [modelCheck_frame]; split <;> rfl
  have h₄ : RegsBut edgeFields s s₄ := (((h₂.mono (by decide)).regs rfl : RegsBut edgeFields s s₃).set (hf := by decide)).set (hf := by decide)
  have hstop : s₄.get F.coordStat_STOP i = 0 := by
    unfold s₄
    rw [State.get_set_ne _ _ _ _ _ _ (by decide), State.get_set_same]
    rfl
  have hnewest : i < s.lens.coords.length → s.flag F.coordStat_STOP i = true → (cutStart (s₄.coord i).hist).map (·.stamp) = [stamp] := by
    intro hlen hflag
    have hstopped : stopped = true := by
      unfold stopped State.flag
      rw [h₂ _ _ (by decide)]
      exact hflag
    have hcoord : s₄.coord i = _ := State.coord_setCoord_same (hlens ▸ hlen) _
    rw [hcoord, List.take_succ_cons, cutStart_of_start (by simp [e, hstopped])]
    rfl
  split
  · refine ⟨raiseEvent_regsBut (h₄.set (hf := by decide)) (by decide) (by decide), ?_, ?_⟩
    · rw [raiseEvent_get_ne _ _ _ _ (by decide), State.get_set_ne _ _ _ _ _ _ (by decide)]
      exact hstop
    · have hcoord : (raiseEvent (250 + i) (s₄.set F.coordStat_REV_EVT i 1)).coord i = s₄.coord i := by
        rw [State.coord, raiseEvent_frame]
        rfl
      rw [hcoord]
      exact hnewest
  · exact ⟨h₄, hstop, hnewest⟩

/-! ### A change of one line of an encoder (R210) -/

theorem all_ne_bind_none {o : Option CoordUndo} {stamp : BitVec 52} {p : CoordUndo → Prop} [DecidablePred p]
    (h : o.all (fun u => decide (u.stamp ≠ stamp)) = true) (hp : ∀ u, p u → u.stamp = stamp) :
    (o.bind fun u => if p u then some u else none) = none := by
  cases o with
  | none => rfl
  | some u => exact if_neg fun hu => by simp [hp u hu] at h

theorem encoderChange_unpaired {i : ℕ} {stamp : BitVec 52} {a b : Bool} {width : ℕ} {s : State} (hfilt : s.get F.coordCfg_FILT i ≤ width)
    (hz : (s.coord i).lastZ.all (fun u => decide (u.stamp ≠ stamp)) = true) :
    encoderChange i stamp a b width s = abChange i stamp a b width s := by
  unfold encoderChange
  dsimp only
  rw [if_neg (Nat.not_lt.2 hfilt), all_ne_bind_none hz fun _ => id]

/-- One line that changes alone in its sixteenth records an edge. -/
theorem abChange_one {i : ℕ} {stamp : BitVec 52} {a b : Bool} {width : ℕ} {s : State}
    (hone : (a ≠ (s.coord i).la ∧ b = (s.coord i).lb) ∨ (a = (s.coord i).la ∧ b ≠ (s.coord i).lb))
    (hab : (s.coord i).lastAb.all (fun u => decide (u.stamp ≠ stamp)) = true) :
    ∃ back u, abChange i stamp a b width s =
      let t := recordEdge i stamp back (s.setCoord i { s.coord i with la := a, lb := b })
      t.setCoord i { t.coord i with lastAb := some u } := by
  have hnone (line : ℕ) := all_ne_bind_none (p := fun u => u.stamp = stamp ∧ u.line ≠ line) hab fun _ h => h.1
  unfold abChange
  extract_lets c da db
  rcases hone with ⟨ha, hb⟩ | ⟨ha, hb⟩
  · have hda : da = true := by simpa [da, c] using ha
    have hdb : db = false := by simpa [db, c] using hb
    rw [hda, hdb]
    dsimp only
    rw [hnone]
    exact ⟨_, _, rfl⟩
  · have hda : da = false := by simpa [da, c] using ha
    have hdb : db = true := by simpa [db, c] using hb
    rw [hda, hdb]
    dsimp only
    rw [hnone]
    exact ⟨_, _, rfl⟩

/-! ### The coordinate that an input feeds (R210) -/

/-- What a count edge does at coordinate A`i`. -/
def edgeAt (src : ℕ) (stamp : BitVec 52) (a b : Bool) (width : ℕ) (s : State) (i : ℕ) : State :=
  if s.get F.coordCfg_SRC i ≠ src + 1 || !coordOn s i then s
  else if src < 4 then encoderChange i stamp a b width s
  else if width < s.get F.coordCfg_FILT i then s
  else recordEdge i stamp (s.flag F.coordCfg_INV i) s

/-- The levels at an encoder's inputs after a count edge; a tachometer has none. -/
def levelsSeen (src : ℕ) (a b : Bool) (s : State) : State :=
  if src < 4 then { s with lens := { s.lens with enc := setAt s.lens.enc src (a, b) } } else s

theorem levelsSeen_get (src : ℕ) (a b : Bool) (s : State) (f : Fld) (i : ℕ) : (levelsSeen src a b s).get f i = s.get f i := by
  unfold levelsSeen
  split <;> rfl

theorem levelsSeen_coords (src : ℕ) (a b : Bool) (s : State) : (levelsSeen src a b s).lens.coords = s.lens.coords := by
  unfold levelsSeen
  split <;> rfl

theorem levelsSeen_coord (src : ℕ) (a b : Bool) (s : State) (i : ℕ) : (levelsSeen src a b s).coord i = s.coord i := by
  rw [State.coord, levelsSeen_coords]
  rfl

theorem countEdge_eq (src : ℕ) (stamp : BitVec 52) (a b : Bool) (width : ℕ) (s : State) :
    countEdge src stamp a b width s = (List.range 4).foldl (edgeAt src stamp a b width) (levelsSeen src a b s) := rfl

theorem edgeAt_other {src i : ℕ} {stamp : BitVec 52} {a b : Bool} {width : ℕ} {s : State} (h : s.get F.coordCfg_SRC i ≠ src + 1) :
    edgeAt src stamp a b width s i = s := if_pos (by simp [h])

theorem edgeAt_encoder {src i : ℕ} {stamp : BitVec 52} {a b : Bool} {width : ℕ} {s : State} (h : s.get F.coordCfg_SRC i = src + 1)
    (hon : coordOn s i = true) (hsrc : src < 4) : edgeAt src stamp a b width s i = encoderChange i stamp a b width s := by
  rw [edgeAt, if_neg (by simp [h, hon]), if_pos hsrc]

theorem edgeAt_tachometer {src i : ℕ} {stamp : BitVec 52} {a b : Bool} {width : ℕ} {s : State} (h : s.get F.coordCfg_SRC i = src + 1)
    (hon : coordOn s i = true) (hsrc : ¬src < 4) (hfilt : s.get F.coordCfg_FILT i ≤ width) :
    edgeAt src stamp a b width s i = recordEdge i stamp (s.flag F.coordCfg_INV i) s := by
  rw [edgeAt, if_neg (by simp [h, hon]), if_neg hsrc, if_neg (Nat.not_lt.2 hfilt)]

theorem foldl_idle {P : State → Prop} {g : State → ℕ → State} {l : List ℕ} (hg : ∀ i ∈ l, ∀ u, P u → g u i = u) {s : State} (hs : P s) :
    l.foldl g s = s := by
  induction l with
  | nil => rfl
  | cons i l ih =>
    rw [List.foldl_cons, hg i List.mem_cons_self s hs]
    exact ih fun j hj => hg j (List.mem_cons_of_mem _ hj)

/-- A fold of which every step but that at `n` leaves the states of which `P` holds. -/
theorem foldl_only {P : State → Prop} {g : State → ℕ → State} {n : ℕ} {l : List ℕ} (hg : ∀ i ∈ l, i ≠ n → ∀ u, P u → g u i = u)
    (hnodup : l.Nodup) (hmem : n ∈ l) {s : State} (hs : P s) (hn : P (g s n)) : l.foldl g s = g s n := by
  induction l with
  | nil => exact absurd hmem List.not_mem_nil
  | cons i l ih =>
    obtain ⟨hi, hl⟩ := List.nodup_cons.1 hnodup
    rw [List.foldl_cons]
    by_cases hin : i = n
    · subst hin
      exact foldl_idle (fun j hj => hg j (List.mem_cons_of_mem _ hj) fun e => hi (e ▸ hj)) hn
    · rw [hg i List.mem_cons_self hin s hs]
      exact ih (fun j hj => hg j (List.mem_cons_of_mem _ hj)) hl ((List.mem_cons.1 hmem).resolve_left fun e => hin e.symm)

/-- Where `n` alone has the input as its source, a count edge is what it does at `n`. -/
theorem countEdge_only {src : ℕ} {n : Fin 4} {stamp : BitVec 52} {a b : Bool} {width : ℕ} {s : State}
    (hother : ∀ m : Fin 4, m ≠ n → s.get F.coordCfg_SRC m ≠ src + 1)
    (hkeeps : RegsBut edgeFields (levelsSeen src a b s) (edgeAt src stamp a b width (levelsSeen src a b s) n)) :
    countEdge src stamp a b width s = edgeAt src stamp a b width (levelsSeen src a b s) n := by
  rw [countEdge_eq]
  refine foldl_only (P := fun u => ∀ m : Fin 4, m ≠ n → u.get F.coordCfg_SRC m ≠ src + 1) ?_ List.nodup_range (List.mem_range.2 n.2) ?_ ?_
  · exact fun i hi hin u hu => edgeAt_other (hu ⟨i, List.mem_range.1 hi⟩ fun e => hin (congrArg Fin.val e))
  · intro m hm
    rw [levelsSeen_get]
    exact hother m hm
  · intro m hm
    rw [hkeeps _ _ (by decide), levelsSeen_get]
    exact hother m hm

theorem hist_setCoord_lastAb (t : State) (i : ℕ) (u : Option CoordUndo) :
    ((t.setCoord i { t.coord i with lastAb := u }).coord i).hist = (t.coord i).hist := by
  by_cases hi : i < t.lens.coords.length
  · rw [State.coord_setCoord_same hi]
  · rw [State.coord, State.setCoord, setAt, List.set_eq_of_length_le (Nat.not_lt.1 hi)]
    rfl

theorem abChange_recorded {i : ℕ} {stamp : BitVec 52} {a b : Bool} {width : ℕ} {s : State}
    (hone : (a ≠ (s.coord i).la ∧ b = (s.coord i).lb) ∨ (a = (s.coord i).la ∧ b ≠ (s.coord i).lb))
    (hab : (s.coord i).lastAb.all (fun u => decide (u.stamp ≠ stamp)) = true) : Recorded i stamp s (abChange i stamp a b width s) := by
  obtain ⟨back, u, h⟩ := abChange_one (width := width) hone hab
  rw [h]
  obtain ⟨hregs, hstop, hnewest⟩ := recordEdge_recorded i stamp back (s.setCoord i { s.coord i with la := a, lb := b })
  refine ⟨hregs, hstop, fun hlen hflag => ?_⟩
  dsimp only
  rw [hist_setCoord_lastAb]
  exact hnewest (hlen.trans_eq List.length_set.symm) hflag

/-- The coordinate of the input has a source. -/
theorem coordOn_of_src {n : Fin 4} {s : State} {src : ℕ} (hlines : s.get F.coordCfg_LINES n ≠ 0) (hsrc : s.get F.coordCfg_SRC n = src + 1) :
    coordOn s n = true := by simp [coordOn, hlines, hsrc, n.2.ne]

section
variable {n : Fin 4} {stamp : BitVec 52} {a b : Bool} {width : ℕ} {s : State} (hlines : s.get F.coordCfg_LINES n ≠ 0)
  (hfilt : s.get F.coordCfg_FILT n ≤ width)
include hlines hfilt

/-- A change of one line of the encoder that feeds A`n` alone (R210). -/
theorem countEdge_encoder {e : Fin 4} (hsrc : s.get F.coordCfg_SRC n = e.val + 1)
    (hother : ∀ m : Fin 4, m ≠ n → s.get F.coordCfg_SRC m ≠ e.val + 1)
    (hone : (a ≠ (s.coord n).la ∧ b = (s.coord n).lb) ∨ (a = (s.coord n).la ∧ b ≠ (s.coord n).lb))
    (hz : (s.coord n).lastZ.all (fun u => decide (u.stamp ≠ stamp)) = true)
    (hab : (s.coord n).lastAb.all (fun u => decide (u.stamp ≠ stamp)) = true) :
    Recorded n stamp s (countEdge e stamp a b width s) := by
  rw [← levelsSeen_coord e a b] at hone hz hab
  have hget := levelsSeen_get e a b s
  have hedge : edgeAt e stamp a b width (levelsSeen e a b s) n = abChange n stamp a b width (levelsSeen e a b s) := by
    rw [edgeAt_encoder ((hget _ _).trans hsrc) (coordOn_of_src (by rwa [hget]) ((hget _ _).trans hsrc)) e.2]
    exact encoderChange_unpaired (by rwa [hget]) hz
  obtain ⟨hregs, hstop, hnewest⟩ := abChange_recorded (width := width) hone hab
  rw [countEdge_only hother (hedge ▸ hregs), hedge]
  refine ⟨fun f i hf => (hregs f i hf).trans (hget f i), hstop, fun hlen hflag => hnewest (by rwa [levelsSeen_coords]) ?_⟩
  rwa [State.flag, hget]

/-- A pulse of the tachometer that feeds A`n` alone (R210). -/
theorem countEdge_tachometer {e : Fin 2} (hsrc : s.get F.coordCfg_SRC n = e.val + 5)
    (hother : ∀ m : Fin 4, m ≠ n → s.get F.coordCfg_SRC m ≠ e.val + 5) : Recorded n stamp s (countEdge (e.val + 4) stamp a b width s) := by
  have hlevels : levelsSeen (e.val + 4) a b s = s := if_neg (by omega)
  have hedge : edgeAt (e.val + 4) stamp a b width s n = recordEdge n stamp (s.flag F.coordCfg_INV n) s :=
    edgeAt_tachometer hsrc (coordOn_of_src hlines hsrc) (by omega) hfilt
  have hrec := recordEdge_recorded n stamp (s.flag F.coordCfg_INV n) s
  rw [countEdge_only hother (by rw [hlevels, hedge]; exact hrec.regs), hlevels, hedge]
  exact hrec

end

/-! ### A coordinate without edges (R217) -/

theorem coordinateStall_due {n : Fin 4} {s : State} (hon : coordOn s n = true) (hhist : (s.coord n).hist ≠ [])
    (hdue : (s.coord n).lastTick + 2 ^ (s.get F.coordCfg_STALL n + 14) ≤ s.ticks) : coordinateStall n s = s.set F.coordStat_STOP n 1 :=
  if_neg (by simp [hon, hhist, Nat.not_lt.2 hdue])

theorem viewNow_stop {n : Fin 4} (s : State) : (s.viewNow n).stop = s.flag F.coordStat_STOP n := by
  rw [State.viewNow, if_neg n.2.ne]

theorem motion_stopped {v : View} (h : v.stop = true) (e : Edge) (es : List Edge) : motion false v (e :: es) = ((e.ang : Rat), 0, 0) := by
  simp [motion, h]

/-- Settles O3: `coordinateStall_due`, and every recorded edge clears STOP and begins the history anew. -/
theorem coordinateStopsWithoutEdges : Obligations.CoordinateStopsWithoutEdges := by
  unfold Obligations.CoordinateStopsWithoutEdges
  refine ⟨?stall, ?encoder, ?tachometer⟩
  case stall =>
    intro n s hlines hsrc hhist hdue
    have hon : coordOn s n = true := by simp [coordOn, hlines, hsrc, n.2.ne]
    have hstop : ((s.set F.coordStat_STOP n 1).viewNow n).stop = true := by
      rw [viewNow_stop, State.flag_set_same]
      rfl
    refine completes_next (congrArg Host.Outcome.next (coordinateStall_due hon hhist hdue)) ⟨rfl, hstop, fun e es x => ⟨motion_stopped hstop e es, ?_⟩⟩
    rw [motion_stopped hstop, extrapolate]
    simp
  case encoder =>
    intro e n stamp a b width s hsrc hother hlines hfilt hlen hone hz hab hstop
    have h := countEdge_encoder hlines hfilt hsrc hother hone hz hab (width := width)
    exact completes_next rfl ⟨h.stop, h.newest hlen hstop⟩
  case tachometer =>
    intro e n stamp a b width s hsrc hother hlines hfilt hlen hstop
    have h := countEdge_tachometer hlines hfilt hsrc hother (stamp := stamp) (a := a) (b := b)
    exact completes_next rfl ⟨h.stop, h.newest hlen hstop⟩

end Sys2Proof.Machine
end

section
/-!
SUPPORT. The refutation of O2: a counter that holds more than its width is left as it is by a Z edge that stands on a whole revolution, and the obligation
reads it truncated.
-/
set_option Elab.async false
namespace Sys2Proof.Machine
open Sys2Proof

/-- A0 on encoder 0 with one line, referenced, at k = 0, with 300 in IDXERR of 8 bits. -/
def wideIdxerr : State :=
  { State.reset with
    regs := [(F.coordCfg_SRC.key 0, 1), (F.coordCfg_LINES.key 0, 1), (F.coordStat_REFD.key 0, 1), (F.coordStat_IDXERR.key 0, 300)] }

/-- The Z edge stands on a whole revolution and counts no error. -/
theorem wideIdxerr_zEdge : (zEdge 0 0 0 wideIdxerr).get F.coordStat_IDXERR 0 = 300 := by decide +kernel

/-- Refutes O2: in the clause of a Z edge that finds a referenced coordinate, IDXERR beyond its width stays where the statement truncates it. -/
theorem not_countEdgeMovesTheCount : ¬ Obligations.CountEdgeMovesTheCount := by
  unfold Obligations.CountEdgeMovesTheCount
  rintro ⟨-, -, -, -, -, htested, -⟩
  obtain ⟨t, ht, ⟨hidxerr, -⟩, -⟩ := htested 0 0 0 0 wideIdxerr (by decide +kernel) (by decide +kernel) (by decide +kernel) (by decide +kernel)
    (by decide +kernel) (by decide +kernel) (by decide +kernel)
  cases ht
  have htruncated : (zEdge 0 0 0 wideIdxerr).get F.coordStat_IDXERR 0 = 44 := hidxerr
  rw [wideIdxerr_zEdge] at htruncated
  exact absurd htruncated (by decide)

end Sys2Proof.Machine
end

section
/-!
SUPPORT. Commands that write or read a Lens register (O10, O8): the write of a whole register by a command, and each of COORD_CFG, LET_DATA, RSC_DATA and
T_LOAD (R206, R213, R218, R234, R236).
-/
set_option Elab.async false
namespace Sys2Proof.Machine
open Sys2Proof

/-! ### A write of a whole register -/

/-- Whatever stands in a register, a write of all its bits leaves the written value. -/
theorem written_over (cur v : ℕ) (hcur : cur < 2 ^ 64) (hv : v < 2 ^ 64) : (cur - (cur &&& (2 ^ 64 - 1))) ||| (v &&& (2 ^ 64 - 1)) = v := by
  rw [Nat.and_two_pow_sub_one_of_lt_two_pow hcur, Nat.and_two_pow_sub_one_of_lt_two_pow hv, Nat.sub_self, Nat.zero_or]

/-- The write of all bits of a register. -/
def fullWr (s : State) (b : Blk) (i v : ℕ) : Wr := ⟨i, 2 ^ 64 - 1, v, v, blkLocked s b i⟩

theorem regCmd_live {s : State} (hf : s.fatal = false) {b : Blk} {r : Reg} {d : RegDef} (hreg : regOf b r = some d) (who : From) (i : ℕ) {v : ℕ}
    (hv : v < 2 ^ 64) : regCmd who b r i v s = (regWrite who.1 who.2 true b d (fullWr s b i v) s).2 := by
  rw [regCmd, regMasked, hf, if_neg Bool.false_ne_true, hreg]
  dsimp only
  rw [written_over _ _ (regView s d i).isLt hv]
  rfl

theorem readCmd_live {s t : State} (hf : s.fatal = false) {b : Blk} {r : Reg} {d : RegDef} (hreg : regOf b r = some d) (who : From) (trans i : ℕ)
    {v : BitVec 64} (hread : regRead who.1 who.2 true true d i s = (.ok v, t)) :
    readCmd who trans b r i s = leaveRsp ⟨who.1, trans, true, v, 0⟩ t := by
  rw [readCmd, hf, if_neg Bool.false_ne_true, hreg]
  dsimp only
  rw [hread]

theorem permit_of_true {ok : Bool} (h : ok = true) (f : State → State) (s : State) : (permit ok f s).2 = f s := by rw [permit, if_pos h]

theorem permit_of_false {ok : Bool} (h : ok = false) (f : State → State) (s : State) : (permit ok f s).2 = s := by
  rw [permit, if_neg (by simp [h])]

theorem leaveRsp_mem (r : HubRsp) (s : State) : r ∈ (leaveRsp r s).net.hubRsp := List.mem_append_right _ List.mem_cons_self

/-! ### The writers of Lens (R236) -/

/-- The host and control-core firmware. -/
def lensWriter (who : From) : Prop := fromHost who.1 = true ∨ fromCore who.1 = true

theorem lensWriter.rights {who : From} (h : lensWriter who) (r : Reg) (w : Wr) (s : State) : hubRights who.1 who.2 .lens r w s = true := by
  rcases h with h | h <;> simp [hubRights, h]

/-! ### What a write of fields leaves -/

theorem writeField_frame (w : Wr) (f : Fld) (s : State) : writeField w f s = { s with regs := (writeField w f s).regs } := by
  unfold writeField putField
  repeat' split
  all_goals rfl

theorem writeField_regsBut {l : List Fld} {s t : State} (h : RegsBut l s t) (w : Wr) {f : Fld} (hf : f ∈ l := by simp) :
    RegsBut l s (writeField w f t) := by
  unfold writeField putField
  repeat' split
  all_goals first | exact h | exact h.set hf

theorem writeFields_frame (w : Wr) (fs : List Fld) (s : State) : writeFields w fs s = { s with regs := (writeFields w fs s).regs } := by
  induction fs generalizing s with
  | nil => rfl
  | cons f fs ih =>
    have hcons : writeFields w (f :: fs) s = writeFields w fs (writeField w f s) := rfl
    rw [hcons, ih, writeField_frame]

theorem writeFields_regsBut (w : Wr) (fs : List Fld) (s : State) : RegsBut fs s (writeFields w fs s) := by
  induction fs generalizing s with
  | nil => exact RegsBut.refl _ s
  | cons f fs ih => exact (writeField_regsBut (RegsBut.refl _ s) w).trans ((ih _).mono fun _ h => List.mem_cons_of_mem _ h)

/-! ### COORD_CFG (R218) -/

/-- The fields of COORD_CFG but SRC. -/
def coordCfgRest : List Fld :=
  [F.coordCfg_INV, F.coordCfg_ZGATE, F.coordCfg_LET_EN, F.coordCfg_LINES, F.coordCfg_STALL, F.coordCfg_FILT]

/-- COORD_CFG as the register map has it. -/
def coordCfgDef : RegDef := ⟨.coordCfg, 0x40, 4, 32, 1, 0, F.coordCfg_SRC :: coordCfgRest⟩

theorem regOf_coordCfg : regOf .lens .coordCfg = some coordCfgDef := by decide +kernel

theorem regWrite_coordCfg (init : ℕ) (priv full : Bool) (w : Wr) (s : State) : regWrite init priv full .lens coordCfgDef w s =
    if !hubRights init priv .lens .coordCfg w s then (false, s)
    else permit (!trigUses s w.i && !groupUses s w.i) (coordCfgWrite w coordCfgDef.fs) s := rfl

theorem regWrite_coordCfg_refused (init : ℕ) (priv full : Bool) (w : Wr) {s : State} (h : trigUses s w.i = true ∨ groupUses s w.i = true) :
    (regWrite init priv full .lens coordCfgDef w s).2 = s := by
  rw [regWrite_coordCfg]
  split
  · rfl
  · exact permit_of_false (by rcases h with h | h <;> simp [h]) _ s

theorem regWrite_coordCfg_taken {who : From} (hwho : lensWriter who) (w : Wr) {s : State} (htrig : trigUses s w.i = false)
    (hgroup : groupUses s w.i = false) :
    (regWrite who.1 who.2 true .lens coordCfgDef w s).2 = coordCfgWrite w coordCfgDef.fs s := by
  rw [regWrite_coordCfg, hwho.rights, if_neg (by simp)]
  exact permit_of_true (by simp [htrig, hgroup]) _ s

theorem fullWr_touches_src (s : State) (b : Blk) (i v : ℕ) : (fullWr s b i v).touches F.coordCfg_SRC = true := by
  simp [Wr.touches, fullWr, bits, F.coordCfg_SRC]

theorem writeFields_coordCfg_src {w : Wr} {s : State} (ht : w.touches F.coordCfg_SRC = true) (hx : F.coordCfg_SRC.takes (w.at_ F.coordCfg_SRC) = true) :
    (writeFields w coordCfgDef.fs s).get F.coordCfg_SRC w.i = w.at_ F.coordCfg_SRC := by
  have hcons : writeFields w coordCfgDef.fs s = writeFields w coordCfgRest (writeField w F.coordCfg_SRC s) := rfl
  have hlt : w.at_ F.coordCfg_SRC < 2 ^ F.coordCfg_SRC.w := Nat.mod_lt _ (Nat.two_pow_pos _)
  rw [hcons, writeFields_regsBut w coordCfgRest _ F.coordCfg_SRC w.i (by decide), writeField_takes ht (.inl rfl) rfl hx, State.get_set_same,
    Nat.mod_eq_of_lt hlt]

/-- What a restart leaves of the coordinate (R218). -/
theorem restartCoord_coord {i : ℕ} {s : State} (hlen : i < s.lens.coords.length) :
    ((restartCoord i s).coord i).k = 0 ∧ ((restartCoord i s).coord i).hist = [] ∧ ((restartCoord i s).coord i).jump = true := by
  have hcoord : (restartCoord i s).coord i = _ := State.coord_setCoord_same hlen _
  rw [hcoord]
  exact ⟨rfl, rfl, rfl⟩

theorem restartCoord_status (i : ℕ) (s : State) : (restartCoord i s).get F.coordStat_REFD i = 0 ∧ (restartCoord i s).get F.coordStat_STOP i = 0 ∧
    (restartCoord i s).get F.coordStat_DIR i = 0 := by
  unfold restartCoord
  refine ⟨?_, ?_, ?_⟩
  · rw [State.get_set_ne _ _ _ _ _ _ (by decide), State.get_set_ne _ _ _ _ _ _ (by decide), State.get_set_same]
    rfl
  · rw [State.get_set_ne _ _ _ _ _ _ (by decide), State.get_set_same]
    rfl
  · rw [State.get_set_same]
    rfl

theorem restartCoord_regsBut (i : ℕ) (s : State) :
    RegsBut [F.coordStat_REFD, F.coordStat_STOP, F.coordStat_DIR] s (restartCoord i s) :=
  RegsBut.set (RegsBut.set (RegsBut.set ((RegsBut.refl _ s).regs rfl)))

/-- A write that changes SRC restarts the coordinate. -/
theorem coordCfgWrite_newSource {w : Wr} {s : State} (ht : w.touches F.coordCfg_SRC = true)
    (hx : F.coordCfg_SRC.takes (w.at_ F.coordCfg_SRC) = true) (hne : w.at_ F.coordCfg_SRC ≠ s.get F.coordCfg_SRC w.i) :
    coordCfgWrite w coordCfgDef.fs s = restartCoord w.i (writeFields w coordCfgDef.fs s) :=
  if_neg fun h => hne ((writeFields_coordCfg_src ht hx).symm.trans h.1)

/-! ### LET_DATA and RSC_DATA (R213, R234) -/

/-- LET_DATA as the register map has it. -/
def letDataDef : RegDef := ⟨.letData, 0x108, 1, 0, 1, 0, [F.letData_CORR]⟩

theorem regOf_letData : regOf .lens .letData = some letDataDef := by decide +kernel

/-- RSC_DATA as the register map has it. -/
def rscDataDef : RegDef := ⟨.rscData, 0x118, 1, 0, 1, 0, [F.rscData_COEF]⟩

theorem regOf_rscData : regOf .lens .rscData = some rscDataDef := by decide +kernel

theorem regWrite_letData {who : From} (hwho : lensWriter who) (w : Wr) {s : State} (hopen : letOpen s (s.get F.letAddr_ENC 0) = true) :
    (regWrite who.1 who.2 true .lens letDataDef w s).2 = letWrite w.full s := by
  have hreg : regWrite who.1 who.2 true .lens letDataDef w s = if !hubRights who.1 who.2 .lens .letData w s then (false, s)
      else permit (letOpen s (s.get F.letAddr_ENC 0)) (letWrite w.full) s := rfl
  rw [hreg, hwho.rights, if_neg (by simp)]
  exact permit_of_true hopen _ s

theorem regWrite_rscData {who : From} (hwho : lensWriter who) (w : Wr) {s : State} (hoff : ∀ g : Fin 8, s.flag F.rsCfg_EN g = false) :
    (regWrite who.1 who.2 true .lens rscDataDef w s).2 = rscWrite w.full s := by
  have hreg : regWrite who.1 who.2 true .lens rscDataDef w s = if !hubRights who.1 who.2 .lens .rscData w s then (false, s)
      else permit (!(List.range 8).any fun g => s.flag F.rsCfg_EN g) (rscWrite w.full) s := rfl
  have hany : ((List.range 8).any fun g => s.flag F.rsCfg_EN g) = false :=
    List.any_eq_false.2 fun g hg => by simp [hoff ⟨g, List.mem_range.1 hg⟩]
  rw [hreg, hwho.rights, if_neg (by simp)]
  exact permit_of_true (by simp [hany]) _ s

theorem regView_letData (s : State) : regView s letDataDef 0 =
    BitVec.ofNat 64 (mget 0 s.lens.letTab (s.get F.letAddr_ENC 0 * 4096 + s.get F.letAddr_INDEX 0) % 2 ^ 24) := by
  simp [regView, letDataDef, viewFields, fieldRead, F.letData_CORR]

theorem regView_rscData (s : State) : regView s rscDataDef 0 =
    BitVec.ofNat 64 ((rscCoef s (s.get F.rscAddr_INDEX 0)).emod (2 ^ 24)).toNat := by
  have hlt : ((rscCoef s (s.get F.rscAddr_INDEX 0)).emod (2 ^ 24)).toNat < 2 ^ 24 := by
    have h := Int.emod_lt_of_pos (rscCoef s (s.get F.rscAddr_INDEX 0)) (b := 2 ^ 24) (by decide)
    have h' : (rscCoef s (s.get F.rscAddr_INDEX 0)).emod (2 ^ 24) < 2 ^ 24 := h
    omega
  have hview : regView s rscDataDef 0 =
      BitVec.ofNat 64 (0 + ((rscCoef s (s.get F.rscAddr_INDEX 0)).emod (2 ^ 24)).toNat % 2 ^ 24 * 2 ^ 0) := rfl
  rw [hview, Nat.mod_eq_of_lt hlt, Nat.zero_add, Nat.pow_zero, Nat.mul_one]

theorem letStep_frame (s : State) : letStep s = { s with regs := (letStep s).regs } := by
  unfold letStep
  split <;> rfl

theorem rscStep_frame (s : State) : rscStep s = { s with regs := (rscStep s).regs } := by
  unfold rscStep
  split <;> rfl

/-! ### The statement -/

/-- Settles O10: each command is its register's write or read by `regCmd_live` and `readCmd_live`. -/
theorem lensRegisterCommands : Obligations.LensRegisterCommands := by
  unfold Obligations.LensRegisterCommands
  refine ⟨?restart, ?selected, ?letWritten, ?letRead, ?rscWritten, ?rscRead⟩
  case restart =>
    intro who n v s hwho hf htrig hgroup hlen hx hne
    have hv : v.toNat < 2 ^ 64 := v.isLt.trans (by decide)
    have hcmd : regCmd who .lens .coordCfg n v.toNat s =
        restartCoord n (writeFields (fullWr s .lens n v.toNat) coordCfgDef.fs s) := by
      rw [regCmd_live hf regOf_coordCfg who n hv, regWrite_coordCfg_taken hwho _ htrig hgroup]
      exact coordCfgWrite_newSource (fullWr_touches_src ..) hx hne
    have hframe := writeFields_frame (fullWr s .lens n v.toNat) coordCfgDef.fs s
    have hsrc : (writeFields (fullWr s .lens n v.toNat) coordCfgDef.fs s).get F.coordCfg_SRC n = bits v.toNat F.coordCfg_SRC.lo F.coordCfg_SRC.w :=
      writeFields_coordCfg_src (w := fullWr s .lens n v.toNat) (fullWr_touches_src ..) hx
    refine completes_next (congrArg Host.Outcome.next hcmd) ?_
    generalize writeFields (fullWr s .lens n v.toNat) coordCfgDef.fs s = u at hframe hsrc
    have hlen' : n.val < u.lens.coords.length := by rw [hframe]; exact hlen
    obtain ⟨hk, hhist, hjump⟩ := restartCoord_coord hlen'
    obtain ⟨hrefd, hstop, hdir⟩ := restartCoord_status n u
    refine ⟨(restartCoord_regsBut n u _ _ (by decide)).trans hsrc, hk, hhist, hjump, hrefd, hstop, hdir, ?_⟩
    rw [hframe]
    rfl
  case selected =>
    intro who n v s huses
    have hv : v.toNat < 2 ^ 64 := v.isLt.trans (by decide)
    refine congrArg Host.Outcome.next ?_
    cases hf : s.fatal with
    | true => exact if_pos hf
    | false => rw [regCmd_live hf regOf_coordCfg who n hv, regWrite_coordCfg_refused _ _ _ _ huses]
  case letWritten =>
    intro who trans v s hwho hf hopen
    have hv : v.toNat < 2 ^ 64 := v.isLt.trans (by decide)
    have hcmd : regCmd who .lens .letData 0 v.toNat s = letWrite v.toNat s := by
      rw [regCmd_live hf regOf_letData who 0 hv, regWrite_letData hwho _ hopen]
      rfl
    refine (congrArg Host.Outcome.next hcmd).trans ?_
    rw [letWrite, Nat.mod_eq_of_lt v.isLt]
  case letRead =>
    intro who trans s hf
    refine completes_next (congrArg Host.Outcome.next (readCmd_live hf regOf_letData who trans 0 rfl)) ⟨?_, rfl, ?_⟩
    · rw [← regView_letData]
      exact leaveRsp_mem _ _
    · rw [letStep_frame]
      rfl
  case rscWritten =>
    intro who trans v s hwho hf hoff
    have hv : v.toNat < 2 ^ 64 := v.isLt.trans (by decide)
    have hcmd : regCmd who .lens .rscData 0 v.toNat s = rscWrite v.toNat s := by
      rw [regCmd_live hf regOf_rscData who 0 hv, regWrite_rscData hwho _ hoff]
      rfl
    refine (congrArg Host.Outcome.next hcmd).trans ?_
    rw [rscWrite, Nat.mod_eq_of_lt v.isLt]
  case rscRead =>
    intro who trans s hf
    refine completes_next (congrArg Host.Outcome.next (readCmd_live hf regOf_rscData who trans 0 rfl)) ⟨?_, rfl, ?_⟩
    · rw [← regView_rscData]
      exact leaveRsp_mem _ _
    · rw [rscStep_frame]
      rfl

end Sys2Proof.Machine
end

section
/-!
SUPPORT. T_LOAD and PPS (O8): the load that a write holds, the step of T that takes it, the edge of PPS, and the boundary that shows a phase error
(R206, R207, R236).
-/
set_option Elab.async false
namespace Sys2Proof.Machine
open Sys2Proof

/-! ### The write of T_LOAD (R206) -/

/-- T_LOAD as the register map has it. -/
def tLoadDef : RegDef := ⟨.tLoad, 0x18, 1, 0, 1, 0, [F.tLoad_T, F.tLoad_ERA]⟩

theorem regOf_tLoad : regOf .lens .tLoad = some tLoadDef := by decide +kernel

theorem regWrite_tLoad {who : From} (hwho : lensWriter who) (w : Wr) {s : State} (hchain : s.chainLen = 0) :
    (regWrite who.1 who.2 true .lens tLoadDef w s).2 = tLoadWrite w s := by
  have hreg : regWrite who.1 who.2 true .lens tLoadDef w s = if !hubRights who.1 who.2 .lens .tLoad w s then (false, s)
      else permit (s.chainLen = 0) (tLoadWrite w) s := rfl
  rw [hreg, hwho.rights, if_neg (by simp)]
  exact permit_of_true (by simp [hchain]) _ s

theorem tLoad_split (v : W) (era : BitVec 16) {x : ℕ} (hx : x = v.toNat + era.toNat * 2 ^ 48) :
    w48 (x % 2 ^ 32 + x / 2 ^ 32 % 2 ^ 32 % 2 ^ 16 * 2 ^ 32) = v ∧ BitVec.ofNat 16 (x / 2 ^ 32 % 2 ^ 32 / 2 ^ 16) = era := by
  have hv := v.isLt
  have he := era.isLt
  constructor <;> apply BitVec.eq_of_toNat_eq
  · rw [w48, BitVec.toNat_ofNat]
    omega
  · rw [BitVec.toNat_ofNat]
    omega

/-- A write of T and of the era in one, which reaches both halves. -/
theorem tLoadWrite_both {w : Wr} {v : W} {era : BitVec 16} (hx : w.v = v.toNat + era.toNat * 2 ^ 48) (hlow : bits w.m 0 32 ≠ 0)
    (hhigh : bits w.m 32 32 ≠ 0) (s : State) : tLoadWrite w s = tLoad v era s := by
  obtain ⟨htime, hera⟩ := tLoad_split v era hx
  rw [tLoadWrite, if_neg hlow, if_neg hhigh]
  dsimp only
  rw [htime, hera]

/-- The write of a whole register reaches both halves. -/
theorem fullWr_halves (s : State) (b : Blk) (i v : ℕ) : bits (fullWr s b i v).m 0 32 ≠ 0 ∧ bits (fullWr s b i v).m 32 32 ≠ 0 := by
  have hm : (fullWr s b i v).m = 2 ^ 64 - 1 := rfl
  rw [hm]
  decide

theorem tLoadWrite_full {v : W} {era : BitVec 16} {x : ℕ} (hx : x = v.toNat + era.toNat * 2 ^ 48) (s : State) :
    tLoadWrite (fullWr s .lens 0 x) s = tLoad v era s :=
  tLoadWrite_both hx (fullWr_halves ..).1 (fullWr_halves ..).2 s

theorem exec_tLoad {who : From} (hwho : lensWriter who) (v : W) (era : BitVec 16) {s : State} (hf : s.fatal = false) (hchain : s.chainLen = 0) :
    exec (.tLoad who v era) s = .next (tLoad v era s) := by
  have hlt : v.toNat + era.toNat * 2 ^ 48 < 2 ^ 64 := by
    have hv := v.isLt
    have he := era.isLt
    omega
  have hcmd : regCmd who .lens .tLoad 0 (v.toNat + era.toNat * 2 ^ 48) s = tLoad v era s := by
    rw [regCmd_live hf regOf_tLoad who 0 hlt, regWrite_tLoad hwho _ hchain, tLoadWrite_full rfl]
  exact congrArg Host.Outcome.next hcmd

/-! ### The boundary that takes a load (R206) -/

/-- The state in which a tick begins, with the sampling of the tick before at its end. -/
def tickBegun (s : State) : State := sampleTickEnd { s with out := { s.out with now := [] } }

theorem tickBegun_steady (s : State) : Steady s (tickBegun s) := (Steady.refl s).rest.sampleTickEnd

theorem tickBegun_lens (s : State) : (tickBegun s).lens = s.lens := sampleTickEnd_lens _

theorem stepT_loaded {v : W} {era : BitVec 16} {s : State} (h : s.lens.load = some (v, era, false)) :
    stepT s = { s with t := v, era := era, ticks := s.ticks + 1, lens := { s.lens with load := none } } := by
  unfold stepT
  rw [h]

/-- What a tick does after the step of T leaves the clock where no power-on reset is asserted. -/
theorem tAdvance_afterStep {freqOk : Bool} {rails : RailIn} {s : State} (hpor : porAsserted rails (stepT (tickBegun s)) = false) :
    (tAdvance freqOk rails s).t = (stepT (tickBegun s)).t ∧ (tAdvance freqOk rails s).era = (stepT (tickBegun s)).era := by
  have heq : tAdvance freqOk rails s = serveHost 0 (railTick rails (tickServed freqOk (stepT (tickBegun s)))) := rfl
  have hserved : Steady (stepT (tickBegun s)) (tickServed freqOk (stepT (tickBegun s))) := (Steady.refl _).tickServed
  rw [heq]
  generalize tickServed freqOk (stepT (tickBegun s)) = b at hserved
  obtain ⟨-, -, hera, htime⟩ := railTick_leaves (t := b) (rails := rails)
  rw [hserved.porAsserted_eq, hpor, if_neg Bool.false_ne_true] at htime
  have hhost : Steady (railTick rails b) (serveHost 0 (railTick rails b)) := (Steady.refl _).serveHost
  exact ⟨by rw [hhost.time, htime, hserved.time], by rw [hhost.era, hera, hserved.era]⟩

theorem porAsserted_stepT {rails : RailIn} (s : State) : porAsserted rails (stepT s) = porAsserted rails s := by
  unfold stepT
  split <;> rfl

theorem porAsserted_tickBegun {rails : RailIn} (s : State) : porAsserted rails (stepT (tickBegun s)) = porAsserted rails s := by
  rw [porAsserted_stepT, (tickBegun_steady s).porAsserted_eq]

/-! ### The boundary that shows a phase error (R236) -/

theorem ppsShow_one {d v : ℕ} {s : State} (hdue : s.lens.ppsDue = [(d, v)]) (hd : d ≤ s.ticks) :
    ppsShow s = (({ s with lens := { s.lens with ppsDue := [] } }.set F.ppsMeas_ERROR 0 v).inc F.ppsMeas_COUNT 0) := by
  simp [ppsShow, hdue, hd]

/-- The boundary up to the moment at which PPS_MEAS shows the errors that are due. -/
theorem lensBegun_path (freqOk : Bool) (s : State) : Stays s (lensBegun freqOk (alignTick (stepT (tickBegun s)))) :=
  (Stays.refl s).rest.sampleTickEnd.stepT.alignTick.lensBegun

theorem lensBegun_ticks (freqOk : Bool) (s : State) : (lensBegun freqOk (alignTick (stepT (tickBegun s)))).ticks = s.ticks + 1 := by
  have hpath : Steady (stepT (tickBegun s)) (lensBegun freqOk (alignTick (stepT (tickBegun s)))) :=
    (Steady.refl _).alignTick.takeSource.judgeFreq.freqAdj.rest
  rw [hpath.ticks, stepT_leaves.2, (tickBegun_steady s).ticks]

theorem tAdvance_afterShow {freqOk : Bool} {rails : RailIn} {s : State} (hpor : porAsserted rails s = false) :
    Stays (ppsShow (lensBegun freqOk (alignTick (stepT (tickBegun s))))) (tAdvance freqOk rails s) := by
  have hserved : Steady (stepT (tickBegun s)) (tickServed freqOk (stepT (tickBegun s))) := (Steady.refl _).tickServed
  have hpor' : porAsserted rails (tickServed freqOk (stepT (tickBegun s))) = false := by
    rw [hserved.porAsserted_eq, porAsserted_tickBegun, hpor]
  have hlens : Stays (ppsShow (lensBegun freqOk (alignTick (stepT (tickBegun s))))) (tickServed freqOk (stepT (tickBegun s))) :=
    (((Stays.refl _).lensPublished.sampleTick.auxTick.unlessFatal (·.serviceTick)).idleTick.idleTick.pumpCtl)
  exact (hlens.railTick hpor').serveHost

/-! ### An edge of PPS (R207) -/

theorem ppsTaken_loaded {v : W} {era : BitVec 16} {s : State} (h : s.lens.load = some (v, era, true)) :
    ppsTaken s = { s.set F.lensStat_PPS_PRESENT 0 1 with t := v, era := era, lens := { s.lens with ppsLast := s.ticks, load := none } } := by
  unfold ppsTaken
  dsimp only [State.set_lens]
  rw [h]
  rfl

theorem ppsTaken_unloaded {s : State} (h : s.lens.load = none) :
    ppsTaken s = { s.set F.lensStat_PPS_PRESENT 0 1 with lens := { s.lens with ppsLast := s.ticks } } := by
  unfold ppsTaken
  dsimp only [State.set_lens]
  rw [h]
  rfl

/-- Fields, and the good edges and the errors due in Lens. -/
theorem ppsMeasured_frame (e : Int) (s : State) : ∃ regs good, ppsMeasured e s = { s with
    regs := regs, lens := { s.lens with ppsGood := good, ppsDue := s.lens.ppsDue ++ [(s.ticks + 4, (BitVec.ofInt 32 e).toNat)] } } := by
  unfold ppsMeasured
  dsimp only
  repeat' split
  all_goals exact ⟨_, _, rfl⟩

theorem ppsMeasured_regsBut (e : Int) (s : State) : RegsBut [F.lensStat_PPS_ALIGNED] s (ppsMeasured e s) := by
  unfold ppsMeasured
  extract_lets _ s₁ good _ s₂
  have h₂ : RegsBut [F.lensStat_PPS_ALIGNED] s s₂ := (RegsBut.refl _ s).regs rfl
  split
  · exact h₂.set
  · split
    · exact h₂.set
    · exact h₂

theorem ppsMeasured_far {e : Int} (h : 16 < e.natAbs) (s : State) : (ppsMeasured e s).get F.lensStat_PPS_ALIGNED 0 = 0 := by
  unfold ppsMeasured
  dsimp only
  rw [if_pos h, State.get_set_same]
  rfl

theorem ppsMeasured_fourth {e : Int} {s : State} (h : e.natAbs ≤ 2) (hhonoured : ppsHonoured s = true) (hgood : 3 ≤ s.lens.ppsGood) :
    (ppsMeasured e s).get F.lensStat_PPS_ALIGNED 0 = 1 := by
  have hhonoured' (l : List (ℕ × ℕ)) : ppsHonoured { s with lens := { s.lens with ppsDue := l } } = true := hhonoured
  unfold ppsMeasured
  dsimp only
  rw [if_neg (by omega), if_pos (c := e.natAbs ≤ 2 ∧ _) ⟨h, hhonoured' _⟩, if_pos (by omega), State.get_set_same]
  rfl

theorem ppsEdge_selected {frac : ℕ} {rising : Bool} {s : State} (hpol : s.flag F.lensCtl_PPS_POL 0 ≠ rising) : ppsEdge frac rising s =
    if !(ppsTaken s).flag F.lensCtl_PPS_EN 0 then ppsTaken s else ppsMeasured (ppsPhase frac (ppsTaken s)) (ppsTaken s) := by
  rw [ppsEdge_eq, if_neg (by simpa using hpol.symm)]

/-- What an edge that takes a load leaves, before it is measured. -/
theorem ppsTaken_regs {s : State} (hregs : (ppsTaken s).regs = (s.set F.lensStat_PPS_PRESENT 0 1).regs) :
    (ppsTaken s).get F.lensStat_PPS_PRESENT 0 = 1 ∧ RegsBut [F.lensStat_PPS_PRESENT, F.lensStat_PPS_ALIGNED] s (ppsTaken s) :=
  ⟨(State.get_congr _ _ _ _ hregs).trans (State.get_set_same ..), ((RegsBut.refl _ s).set).regs hregs⟩

/-- Settles O8: a load waits, the boundary or `ppsTaken` takes it, and `ppsMeasured` measures an honoured edge. -/
theorem timeLoadAndPps : Obligations.TimeLoadAndPps := by
  unfold Obligations.TimeLoadAndPps
  refine ⟨?held, ?boundary, ?loads, ?measured, ?shown⟩
  case held => exact fun who v era s hwho hf hchain => exec_tLoad hwho v era hf hchain
  case boundary =>
    intro freqOk rails v era s hload hpor
    have hstep := stepT_loaded ((congrArg LensSt.load (tickBegun_lens s)).trans hload)
    obtain ⟨htime, hera⟩ := tAdvance_afterStep (freqOk := freqOk) ((porAsserted_tickBegun s).trans hpor)
    obtain ⟨hpending, hticks⟩ := tAdvance_leaves (t := s) (freqOk := freqOk) (rails := rails)
    exact completes_next rfl ⟨htime.trans (by rw [hstep]), hera.trans (by rw [hstep]), hticks, hpending⟩
  case loads =>
    intro frac rising v era s hpol hload
    have htaken := ppsTaken_loaded hload
    obtain ⟨hpresent, hregs⟩ := ppsTaken_regs (s := s) (by rw [htaken])
    by_cases hen : (ppsTaken s).flag F.lensCtl_PPS_EN 0 = true
    · have hedge : ppsEdge frac rising s = ppsMeasured (ppsPhase frac (ppsTaken s)) (ppsTaken s) := by
        rw [ppsEdge_selected hpol, if_neg (by simp [hen])]
      generalize ppsPhase frac (ppsTaken s) = e at hedge
      have hmeasured := ppsMeasured_regsBut e (ppsTaken s)
      have hpresent' := (hmeasured _ _ (by decide)).trans hpresent
      have hregs' := hregs.trans (hmeasured.mono (by simp))
      obtain ⟨regs, good, hframe⟩ := ppsMeasured_frame e (ppsTaken s)
      rw [hframe] at hedge hpresent' hregs'
      rw [htaken] at hedge hpresent' hregs'
      exact completes_next (congrArg Host.Outcome.next hedge) ⟨rfl, rfl, rfl, hpresent', rfl, rfl, rfl, hregs'⟩
    · have hedge : ppsEdge frac rising s = ppsTaken s := by
        rw [ppsEdge_selected hpol, if_pos (by simpa using hen)]
      rw [htaken] at hedge hpresent hregs
      exact completes_next (congrArg Host.Outcome.next hedge) ⟨rfl, rfl, rfl, hpresent, rfl, rfl, rfl, hregs⟩
  case measured =>
    intro frac rising s hpol hload hen
    have htaken := ppsTaken_unloaded hload
    obtain ⟨hpresent, hregs⟩ := ppsTaken_regs (s := s) (by rw [htaken])
    have hget (f : Fld) (h : F.lensStat_PPS_PRESENT.id ≠ f.id) : (ppsTaken s).get f 0 = s.get f 0 := by
      rw [htaken]
      exact State.get_set_ne _ _ _ _ _ _ h
    have hphase : ppsPhase frac (ppsTaken s) =
        phaseError (((s.era.toNat * 2 ^ 48 + s.t.toNat) * 16 + frac.val + 2 ^ 68 - s.get F.ppsCfg_DELAY 0) % 2 ^ 68) := by
      have hera : (ppsTaken s).era = s.era := by rw [htaken]; rfl
      have htime : (ppsTaken s).t = s.t := by rw [htaken]; rfl
      rw [ppsPhase, hera, htime, hget _ (by decide)]
    have hedge : ppsEdge frac rising s = ppsMeasured (ppsPhase frac (ppsTaken s)) (ppsTaken s) := by
      rw [ppsEdge_selected hpol, if_neg (by rw [State.flag, hget _ (by decide)]; simpa [State.flag] using hen)]
    rw [hphase] at hedge
    dsimp only
    generalize phaseError (((s.era.toNat * 2 ^ 48 + s.t.toNat) * 16 + frac.val + 2 ^ 68 - s.get F.ppsCfg_DELAY 0) % 2 ^ 68) = e at hedge ⊢
    have hmeasured := ppsMeasured_regsBut e (ppsTaken s)
    have hpresent' := (hmeasured _ _ (by decide)).trans hpresent
    have hregs' := hregs.trans (hmeasured.mono (by simp))
    have hfar : 16 < e.natAbs → _ := fun h => ppsMeasured_far h (ppsTaken s)
    have hfourth : e.natAbs ≤ 2 → ppsHonoured s = true → 3 ≤ s.lens.ppsGood → (ppsMeasured e (ppsTaken s)).get F.lensStat_PPS_ALIGNED 0 = 1 := by
      intro h hhonoured hgood
      refine ppsMeasured_fourth h ?_ (by rw [htaken]; exact hgood)
      rw [ppsHonoured, hget _ (by decide), htaken]
      exact hhonoured
    obtain ⟨regs, good, hframe⟩ := ppsMeasured_frame e (ppsTaken s)
    rw [hframe] at hedge hpresent' hregs' hfar hfourth
    rw [htaken] at hedge hpresent' hregs' hfar hfourth
    exact completes_next (congrArg Host.Outcome.next hedge) ⟨⟨rfl, hpresent', hfar, hfourth, rfl, rfl⟩, hregs'⟩
  case shown =>
    intro freqOk rails d v s hdue hd hpor
    have hpath := lensBegun_path freqOk s
    have hticks := lensBegun_ticks freqOk s
    have hshown := tAdvance_afterShow (freqOk := freqOk) hpor
    generalize lensBegun freqOk (alignTick (stepT (tickBegun s))) = u at hpath hticks hshown
    rw [ppsShow_one (hpath.due.trans hdue) (hticks ▸ hd)] at hshown
    refine completes_next rfl ⟨?_, ?_, hshown.due⟩
    · rw [hshown.error, State.get_inc_ne _ _ _ _ _ (by decide), State.get_set_same]
    · rw [hshown.count, State.get_inc_same, State.get_set_ne _ _ _ _ _ _ (by decide), ← hpath.count]
      rfl

end Sys2Proof.Machine
end

section
/-!
SUPPORT. A trigger that fires (O5): what its own change of EN or TARGET, its pins and its skips leave, and the token that it creates (R228–R230, R237).
-/
set_option Elab.async false
namespace Sys2Proof.Machine
open Sys2Proof

/-! ### What a trigger changes before it makes its token -/

/-- Register fields of a list, pins, events and free values may have changed. -/
structure Readied (l : List Fld) (s u : State) : Prop where
  frame : ∃ regs port free sched pcie, u = { s with regs := regs, port := port, free := free, sched := sched, pcie := pcie }
  regs : RegsBut l s u

section
variable {l : List Fld} {s t u : State}

theorem Readied.refl (l : List Fld) (s : State) : Readied l s s := ⟨⟨_, _, _, _, _, rfl⟩, RegsBut.refl l s⟩

theorem Readied.trans (h : Readied l s t) (h' : Readied l t u) : Readied l s u := by
  obtain ⟨_, _, _, _, _, rfl⟩ := h.frame
  obtain ⟨_, _, _, _, _, rfl⟩ := h'.frame
  exact ⟨⟨_, _, _, _, _, rfl⟩, h.regs.trans h'.regs⟩

theorem Readied.set {f : Fld} {i v : ℕ} (h : Readied l s t) (hf : f ∈ l) : Readied l s (t.set f i v) :=
  h.trans ⟨⟨_, _, _, _, _, rfl⟩, (RegsBut.refl l t).set hf⟩

theorem Readied.auxEvent (h : Readied l s t) (func sel : ℕ) : Readied l s (auxEvent func sel t) := by
  have hpulse (u : State) (k n : ℕ) : Readied l u (auxPulse k n u) := ⟨⟨_, _, _, _, _, rfl⟩, (RegsBut.refl l u).regs rfl⟩
  have htoggle (u : State) (k : ℕ) : Readied l u (auxToggle k u) := by
    unfold auxToggle
    dsimp only
    split
    · exact ⟨⟨_, _, _, _, _, rfl⟩, (RegsBut.refl l u).regs rfl⟩
    · exact ⟨⟨_, _, _, _, _, rfl⟩, (RegsBut.refl l u).regs rfl⟩
  unfold Machine.auxEvent
  refine List.foldlRecOn (motive := Readied l s) _ _ h fun u hu k _ => ?_
  split
  · exact hu
  · split
    · exact hu.trans (hpulse u k _)
    · split
      · exact hu
      · split
        · exact hu.trans (htoggle u k)
        · split
          · exact hu.trans (hpulse u k _)
          · exact hu

theorem Readied.raiseAtBoundary (h : Readied l s t) (hcount : F.evCfg_COUNT ∈ l) (hpend : F.evCfg_PEND ∈ l) (n : ℕ) :
    Readied l s (raiseAtBoundary n t) := by
  unfold Machine.raiseAtBoundary
  split
  · exact h
  · exact h.trans ⟨⟨_, _, _, _, _, raiseEvent_frame n _⟩, raiseEvent_regsBut ((RegsBut.refl l t).regs rfl) hcount hpend⟩

end

/-- The fields that a firing changes beside FIRES: its own EN or TARGET, its skips and their event. -/
def trigFields : List Fld :=
  [F.trigCfg_EN, F.trigTarget_VALUE, F.trigCfg_SKIPS, F.trigCfg_SKIP_EVT, F.evCfg_COUNT, F.evCfg_PEND]

/-- Those of a periodic trigger, whose EN stays. -/
def periodicFields : List Fld :=
  [F.trigTarget_VALUE, F.trigCfg_SKIPS, F.trigCfg_SKIP_EVT, F.evCfg_COUNT, F.evCfg_PEND]

theorem Readied.trigSkip {l : List Fld} {s t : State} (h : Readied l s t) (hl : ∀ f ∈ periodicFields, f ∈ l) (i n : ℕ) :
    Readied l s (trigSkip i n t) := by
  unfold Machine.trigSkip
  split
  · exact h
  · exact ((h.set (hl _ (by simp [periodicFields]))).set (hl _ (by simp [periodicFields]))).raiseAtBoundary
      (hl _ (by simp [periodicFields])) (hl _ (by simp [periodicFields])) _

/-- A skip leaves the target. -/
theorem trigSkip_target (i n : ℕ) (s : State) (j : ℕ) : (trigSkip i n s).get F.trigTarget_VALUE j = s.get F.trigTarget_VALUE j := by
  unfold trigSkip raiseAtBoundary
  split
  · rfl
  · split
    · rw [State.get_set_ne _ _ _ _ _ _ (by decide), State.get_set_ne _ _ _ _ _ _ (by decide)]
    · rw [raiseEvent_get_ne _ _ _ _ (by decide)]
      exact (State.get_set_ne _ _ _ _ _ _ (by decide)).trans (State.get_set_ne _ _ _ _ _ _ (by decide))

/-! ### The token (R229) -/

theorem sourceRate_frame (id p : ℕ) (s : State) : ∃ ap flt, sourceRate id p s = { s with ap := ap, flt := flt } := by
  unfold sourceRate
  split
  · exact ⟨_, _, rfl⟩
  · dsimp only
    split
    · rw [report_frame]
      exact ⟨_, _, rfl⟩
    · exact ⟨_, _, rfl⟩

/-- Outside fatal a source's token is the newest of those made; beside it only counts, the sources' rates and a fault report change. -/
theorem createSource_live {s : State} (hf : s.fatal = false) (id p : ℕ) (t : Token) :
    ∃ ap flt cl, createSource id p t s = { s with ap := ap, flt := flt, cl := cl, lens := { s.lens with made := s.lens.made ++ [(id, t)] } } := by
  obtain ⟨ap, flt, h⟩ := sourceRate_frame id p s
  rw [createSource, hf, if_neg Bool.false_ne_true, h]
  exact ⟨_, _, _, rfl⟩

/-- The token that trigger `i` makes for partition `p`, at count `fires`, of a crossing of `target` that its coordinate `x` shows in `c`. -/
def trigToken (i x : ℕ) (c : Coord) (target : W) (p fires : ℕ) (s : State) : Token :=
  sourceTok s i p (s.get F.trigDst_PKG i) (s.get F.trigDst_DIE i) (s.get F.trigDst_CLUSTER i) (s.get F.trigDst_ADDR i) (s.get F.trigDst_PORT i)
    (match s.get F.trigCfg_DATA i with
      | 0 => s.t
      | 1 => s.t + BitVec.ofInt 48 (instantOf 8 x c.view s.t target)
      | 2 => c.pub
      | _ => w48 fires)

/-- What trigger `i` does last: it counts the firing and makes its token. -/
def trigMake (i x : ℕ) (c : Coord) (target : W) (p : ℕ) (s : State) : State :=
  let fires := mget 0 s.lens.fires i + 1
  let s := { s with lens := { s.lens with fires := mput s.lens.fires i fires } }
  createSource i p (trigToken i x c target p fires s) (s.inc F.trigCfg_FIRES i)

/-- The trigger's token is that of the state from which the path began. -/
theorem trigToken_readied {l : List Fld} {s u : State} (h : Readied l s u) (hl : ∀ f ∈ l, f ∈ trigFields) (i x : ℕ) (c : Coord) (target : W)
    (p fires : ℕ) : trigToken i x c target p fires u = trigToken i x c target p fires s := by
  have hget (f : Fld) (j : ℕ) (hf : ∀ g ∈ trigFields, g.id ≠ f.id) : u.get f j = s.get f j := h.regs f j fun g hg => hf g (hl g hg)
  obtain ⟨_, _, _, _, _, hframe⟩ := h.frame
  have ht : u.t = s.t := by rw [hframe]
  have hdue : sourceDue u i p = sourceDue s i p := by rw [hframe]; rfl
  unfold trigToken sourceTok State.epoch
  rw [hdue, ht, hget _ _ (by decide), hget _ _ (by decide), hget _ _ (by decide), hget _ _ (by decide), hget _ _ (by decide), hget _ _ (by decide),
    hget _ _ (by decide)]

/-- What a firing leaves after the path that readied it. -/
theorem trigMake_readied {l : List Fld} {s u : State} (h : Readied l s u) (hl : ∀ f ∈ l, f ∈ trigFields) (hf : s.fatal = false) (i x : ℕ)
    (c : Coord) (target : W) (p : ℕ) :
    (trigMake i x c target p u).get F.trigCfg_FIRES i = (s.get F.trigCfg_FIRES i + 1) % 2 ^ F.trigCfg_FIRES.w ∧
    mget 0 (trigMake i x c target p u).lens.fires i = mget 0 s.lens.fires i + 1 ∧
    (trigMake i x c target p u).lens.made = s.lens.made ++ [(i, trigToken i x c target p (mget 0 s.lens.fires i + 1) s)] ∧
    (trigMake i x c target p u).mem = s.mem ∧ (trigMake i x c target p u).pending = s.pending ∧ (trigMake i x c target p u).t = s.t ∧
    ∀ f j, F.trigCfg_FIRES.id ≠ f.id → (trigMake i x c target p u).get f j = u.get f j := by
  have hfires : u.get F.trigCfg_FIRES i = s.get F.trigCfg_FIRES i := h.regs _ _ fun g hg => (by decide : ∀ g ∈ trigFields, g.id ≠ F.trigCfg_FIRES.id) g (hl g hg)
  have htoken := trigToken_readied h hl i x c target p
  obtain ⟨regs, port, free, sched, pcie, hframe⟩ := h.frame
  have hlens : u.lens = s.lens := by rw [hframe]
  have hfatal : u.fatal = false := by rw [hframe]; exact hf
  have hmem : u.mem = s.mem := by rw [hframe]
  have hpending : u.pending = s.pending := by rw [hframe]
  have htime : u.t = s.t := by rw [hframe]
  have htoken' : trigToken i x c target p (mget 0 u.lens.fires i + 1)
      { u with lens := { u.lens with fires := mput u.lens.fires i (mget 0 u.lens.fires i + 1) } } =
      trigToken i x c target p (mget 0 s.lens.fires i + 1) s := by
    rw [← htoken, hlens]
    rfl
  have hmadeBefore : u.lens.made = s.lens.made := congrArg LensSt.made hlens
  clear hframe
  unfold trigMake
  dsimp only
  rw [htoken']
  obtain ⟨ap, flt, cl, hmade⟩ := createSource_live (s := State.inc { u with lens := { u.lens with fires := mput u.lens.fires i (mget 0 u.lens.fires i + 1) } }
    F.trigCfg_FIRES i) hfatal i p (trigToken i x c target p (mget 0 s.lens.fires i + 1) s)
  rw [hmade]
  refine ⟨?_, ?_, ?_, hmem, hpending, htime, fun f j hne => State.get_inc_ne u _ _ _ _ hne⟩
  · exact (State.get_inc_same u _ _).trans (by rw [hfires])
  · exact (mget_mput_same ..).trans (by rw [hlens])
  · exact congrArg (· ++ [_]) hmadeBefore

/-! ### The firing (R228, R230) -/

/-- The trigger is judged at this boundary, and not again (R228). -/
def judging (i : ℕ) (s : State) : State := { s with lens := { s.lens with trigAt := mput s.lens.trigAt i s.ticks } }

/-- The crossing is judged: the pins that show the trigger are driven. -/
def trigJudged (i : ℕ) (s : State) : State := auxEvent fTrgo i (judging i s)

theorem trigJudged_readied (i : ℕ) (s : State) (l : List Fld) : Readied l (judging i s) (trigJudged i s) := (Readied.refl l _).auxEvent _ _

/-- What trigger `i`, judged in `u`, changes of its own: EN, or TARGET and its skips. -/
def trigChanged (i : ℕ) (back : Bool) (c : Coord) (target : W) (u : State) : State :=
  let step := u.get F.trigStep_VALUE i
  let n := stepsPast back c.pub target step
  trigSkip i (if u.flag F.trigCfg_PERIODIC i then n - 1 else 0)
    (if u.flag F.trigCfg_PERIODIC i then trigMove i (moveTarget back target n step).toNat u else trigDisarm i u)

/-- An armed trigger whose coordinate has crossed its target without a jump, judged for the first time at this boundary. -/
structure Crossed (i : ℕ) (s : State) : Prop where
  unwritten : mfind s.lens.trigOld i = none
  armed : s.flag F.trigCfg_EN i = true
  unjumped : (s.coord (s.get F.trigCfg_COORD i)).jumped = false
  first : mfind s.lens.trigAt i ≠ some s.ticks
  crosses : crosses (s.flag F.trigCfg_DIR i) (s.coord (s.get F.trigCfg_COORD i)).prev (s.coord (s.get F.trigCfg_COORD i)).pub
    (w48 (s.get F.trigTarget_VALUE i)) = true

/-- In a partition that runs and is not paused, a crossed trigger changes its own fields and makes its token. -/
theorem Crossed.fires {i : ℕ} {s t : State} (h : Crossed i s)
    (ht : t = (if (trigJudged i s).flag F.trigCfg_PERIODIC i then
      trigMove i (moveTarget (s.flag F.trigCfg_DIR i) (w48 (s.get F.trigTarget_VALUE i))
        (stepsPast (s.flag F.trigCfg_DIR i) (s.coord (s.get F.trigCfg_COORD i)).pub (w48 (s.get F.trigTarget_VALUE i))
          ((trigJudged i s).get F.trigStep_VALUE i)) ((trigJudged i s).get F.trigStep_VALUE i)).toNat (trigJudged i s)
      else trigDisarm i (trigJudged i s)))
    (hruns : srcRuns t ((trigJudged i s).get F.trigCfg_PART i) = true) (hpause : pausedP t ((trigJudged i s).get F.trigCfg_PART i) = false) :
    triggerCrossing i s = trigMake i (s.get F.trigCfg_COORD i) (s.coord (s.get F.trigCfg_COORD i)) (w48 (s.get F.trigTarget_VALUE i))
      ((trigJudged i s).get F.trigCfg_PART i)
      (trigChanged i (s.flag F.trigCfg_DIR i) (s.coord (s.get F.trigCfg_COORD i)) (w48 (s.get F.trigTarget_VALUE i)) (trigJudged i s)) := by
  obtain ⟨hold, hen, hjump, hat, hcross⟩ := h
  have hbound : trigAtBoundary s i = (true, w48 (s.get F.trigTarget_VALUE i)) := by rw [trigAtBoundary, hold, hen]
  unfold triggerCrossing
  rw [hbound]
  dsimp only
  rw [if_neg (by simp [hjump, hat, hcross])]
  have hjudged : auxEvent fTrgo i { s with lens := { s.lens with trigAt := mput s.lens.trigAt i s.ticks } } = trigJudged i s := rfl
  rw [hjudged]
  generalize trigJudged i s = u at ht hruns hpause ⊢
  rw [← ht, hruns, hpause]
  rw [if_neg (by simp), if_neg (by simp), trigChanged, ← ht]
  generalize trigSkip i _ t = v
  rfl

theorem trigJudged_get (i : ℕ) (s : State) (f : Fld) (j : ℕ) : (trigJudged i s).get f j = s.get f j :=
  (trigJudged_readied i s []).regs f j (by simp)

/-- In a partition that runs and is in no reclaim pause, a source injects in the state after a trigger's own change. -/
theorem Readied.sourceRuns {l : List Fld} {s t : State} {p : ℕ} (h : Readied l s t) (hl : ∀ f ∈ l, f ∈ trigFields) (hruns : s.pRuns p = true)
    (hpause : ∀ r ∈ s.cl.reclaim, r.part ≠ p) : srcRuns t p = true ∧ pausedP t p = false := by
  have hstate : t.get F.partStat_STATE p = s.get F.partStat_STATE p :=
    h.regs _ _ fun g hg => (by decide : ∀ g ∈ trigFields, g.id ≠ F.partStat_STATE.id) g (hl g hg)
  obtain ⟨_, _, _, _, _, hframe⟩ := h.frame
  constructor
  · rw [srcRuns, State.pRuns, State.pState, hstate]
    exact Bool.or_eq_true_iff.2 (.inl hruns)
  · rw [pausedP, hframe]
    exact List.any_eq_false.2 fun r hr => by simpa using hpause r hr

/-- Settles O5: the judged trigger changes EN or TARGET (`Readied`), then `trigMake` counts its firing and creates its token. -/
theorem triggerFiresOnItsCrossing : Obligations.TriggerFiresOnItsCrossing := by
  unfold Obligations.TriggerFiresOnItsCrossing
  refine ⟨?once, ?periodic⟩
  case once =>
    intro i s hf hold hen hjump hat hcross hruns hpause hnote hperiodic
    have hflag : (trigJudged i s).flag F.trigCfg_PERIODIC i = false := by rw [State.flag, trigJudged_get]; exact hperiodic
    have hlens : (trigJudged i s).lens.trigEn = s.lens.trigEn := by
      obtain ⟨_, _, _, _, _, h⟩ := (trigJudged_readied i s []).frame
      rw [h]
      rfl
    have hdisarm : trigDisarm i (trigJudged i s) = (trigJudged i s).set F.trigCfg_EN i 0 := by
      rw [trigDisarm, hlens, hnote, if_neg Bool.false_ne_true]
    have hready : Readied trigFields (judging i s) ((trigJudged i s).set F.trigCfg_EN i 0) :=
      (trigJudged_readied i s trigFields).set (by simp [trigFields])
    obtain ⟨hsrc, hpaused⟩ := hready.sourceRuns (fun _ => id) hruns hpause
    have hfire := (Crossed.mk hold hen hjump hat hcross).fires rfl
    rw [trigChanged, hflag, if_neg Bool.false_ne_true, if_neg Bool.false_ne_true, hdisarm, trigJudged_get] at hfire
    have hchanged : trigSkip i 0 ((trigJudged i s).set F.trigCfg_EN i 0) = (trigJudged i s).set F.trigCfg_EN i 0 := if_pos rfl
    rw [hchanged] at hfire
    obtain ⟨hfires, hcount, hmade, hmem, hpending, htime, hkeep⟩ := trigMake_readied hready (fun _ => id) hf i (s.get F.trigCfg_COORD i)
      (s.coord (s.get F.trigCfg_COORD i)) (w48 (s.get F.trigTarget_VALUE i)) (s.get F.trigCfg_PART i)
    refine completes_next (congrArg Host.Outcome.next ((unlessFatal_live hf _).trans (hfire hsrc hpaused)))
      ⟨(hkeep _ _ (by decide)).trans (State.get_set_same ..), hfires, hcount, hmade, hmem, hpending, htime⟩
  case periodic =>
    intro i s hf hold hen hjump hat hcross hruns hpause hnote hperiodic
    have hflag : (trigJudged i s).flag F.trigCfg_PERIODIC i = true := by rw [State.flag, trigJudged_get]; exact hperiodic
    have hlens : (trigJudged i s).lens.trigTgt = s.lens.trigTgt := by
      obtain ⟨_, _, _, _, _, h⟩ := (trigJudged_readied i s []).frame
      rw [h]
      rfl
    have hmove (v : ℕ) : trigMove i v (trigJudged i s) = (trigJudged i s).set F.trigTarget_VALUE i v := by
      rw [trigMove, hlens, hnote, if_neg Bool.false_ne_true]
    have hmoved (v : ℕ) : Readied periodicFields (judging i s) ((trigJudged i s).set F.trigTarget_VALUE i v) :=
      (trigJudged_readied i s periodicFields).set (by simp [periodicFields])
    have hsub : ∀ f ∈ periodicFields, f ∈ trigFields := fun _ => List.mem_cons_of_mem _
    have hfire := (Crossed.mk hold hen hjump hat hcross).fires rfl
    rw [trigChanged, hflag, if_pos rfl, if_pos rfl, hmove, trigJudged_get, trigJudged_get] at hfire
    obtain ⟨hsrc, hpaused⟩ := (hmoved _).sourceRuns hsub hruns hpause
    have hready (v n : ℕ) : Readied periodicFields (judging i s) (trigSkip i n ((trigJudged i s).set F.trigTarget_VALUE i v)) :=
      (hmoved v).trigSkip (fun _ => id) i n
    obtain ⟨hfires, -, hmade, hmem, hpending, -, hkeep⟩ := trigMake_readied (hready _ _) hsub hf i (s.get F.trigCfg_COORD i)
      (s.coord (s.get F.trigCfg_COORD i)) (w48 (s.get F.trigTarget_VALUE i)) (s.get F.trigCfg_PART i)
    refine completes_next (congrArg Host.Outcome.next ((unlessFatal_live hf _).trans (hfire hsrc hpaused)))
      ⟨?_, hfires, hmade, ?_, hmem, hpending⟩
    · exact (hkeep _ _ (by decide)).trans ((hready _ _).regs _ _ (by decide))
    · rw [hkeep _ _ (by decide), trigSkip_target, State.get_set_same]
      exact Nat.mod_eq_of_lt (BitVec.isLt _)

end Sys2Proof.Machine
end

section
/-!
SUPPORT. The refutation of O9: the echo of a TIME word sends the blocks that wait before it, and an ALIGN block among them breaks the stream of data blocks,
whose open bits are a free value (R434, R436); the obligation's frame of a word that disciplines nothing leaves the count of free values out.
-/
set_option Elab.async false
namespace Sys2Proof.Machine
open Sys2Proof

/-- The downstream link is UP, an ALIGN block waits for it, and one bit waits in its stream. -/
def alignWaits : State :=
  { State.reset with
    regs := [(F.cpStat_STATE.key 1, 3)]
    chain := { State.reset.chain with wait := [⟨segOut false, 0x2D, [0]⟩], line := [(segOut false, ⟨1, 0, true⟩)] } }

/-- The echo of the word 0 from downstream. -/
def alignSent : State := timeWord false 0 0 (0 : BitVec 16).toNat (ctlGood 0x33 0 (ctlSound 0x33 0)) alignWaits

/-- The word echoed, the ALIGN block sent and the stream broken, a free value is used. -/
theorem alignSent_free : alignSent.free = alignWaits.free + 1 := by decide +kernel

/-- Refutes O9: in the clause of a TIME word that disciplines nothing, an ALIGN block that waits goes first and takes a free value. -/
theorem not_chainTimeWords : ¬ Obligations.ChainTimeWords := by
  unfold Obligations.ChainTimeWords
  rintro ⟨-, hechoed, -⟩
  obtain ⟨t, ht, -, hframe⟩ := hechoed false 0 0 0 (ctlSound 0x33 0) alignWaits (by decide +kernel) (by decide +kernel) (.inl rfl)
  have hsent : alignSent = t := Host.Outcome.next.inj ht
  have hfree : t.free = alignWaits.free := by rw [hframe]
  rw [← hsent, alignSent_free] at hfree
  exact absurd hfree (Nat.succ_ne_self _)

end Sys2Proof.Machine
end

section
/-!
SUPPORT. The refutation of O6: the answer to a Lens query lets what waits for injection credit at the hub move in (R273), and a bulk packet of OP 10 among it
for the hub itself comes to the Lens port, where the obligation expects the rest of the queue alone.
-/
set_option Elab.async false
namespace Sys2Proof.Machine
open Sys2Proof

/-- A query of A0's angle, which has no source. -/
def sourcelessQuery : Flit := mkFlit 1 false (reqPay 0 0 10 5 false (3 * 2 ^ 7) 0) [] 0 3 nodeHub

/-- A bulk packet of OP 10 for the hub of package 0. -/
def bulkQuery : Flit := mkFlit 3 false (reqPay 0x080000000000 0 10 5 false (3 * 2 ^ 7) 0) [] 0 3 nodeHub

/-- The query stands at the Lens port, and the bulk packet waits for injection credit at the hub. -/
def bulkWaits : State :=
  { State.reset with net := { State.reset.net with lensQ := [sourcelessQuery] }, cl := { State.reset.cl with injQ := [bulkQuery] } }

/-- The query answered, the bulk packet stands at the Lens port. -/
theorem bulkWaits_lensQuery : (lensQuery bulkWaits).net.lensQ.length = 1 := by decide +kernel

/-- Refutes O6: in the clause of a query for a coordinate with no source, the answer lets a waiting packet come to the Lens port. -/
theorem not_resamplerAndQueries : ¬ Obligations.ResamplerAndQueries := by
  unfold Obligations.ResamplerAndQueries
  rintro ⟨-, -, -, -, hanswered, -⟩
  obtain ⟨t, ht, hqueue, -⟩ := hanswered sourcelessQuery [] bulkWaits rfl rfl (by decide +kernel) (by decide +kernel) (by decide +kernel) (by decide +kernel)
    (by decide +kernel)
  have hsent : lensQuery bulkWaits = t := Host.Outcome.next.inj ht
  have hempty : t.net.lensQ.length = 0 := by rw [hqueue, List.length_nil]
  rw [← hsent, bulkWaits_lensQuery] at hempty
  exact absurd hempty Nat.one_ne_zero

end Sys2Proof.Machine
end
